-- ==== Sys2Proof/Word.lean ====
section
/-! DEFINITION. The words of the MT-7248: register words, bytes, and the numbered parts of the chip (R8 to R12, R26). -/

namespace Sys2Proof

/-- One byte of a packet, an image or a store. -/
abbrev Byte := BitVec 8
/-- A 32-bit configuration register (R12). -/
abbrev Word := BitVec 32
/-- A 64-bit engine word or chip time (R160, R660). -/
abbrev DWord := BitVec 64
/-- Quires 0 to 7 (R8). -/
abbrev QId := Fin 8
/-- Host links L0 to L7 (R11). -/
abbrev LinkId := Fin 8
/-- Host lanes 0 to 15 (R11). -/
abbrev LaneId := Fin 16
/-- Local pins 0 to 31 of a quire (R9). -/
abbrev PinId := Fin 32
/-- Folio engines 0 to 127 of a quire (R26). -/
abbrev EngId := Fin 128
/-- TMUs 0 to 7 of a quire (R427). -/
abbrev TmuId := Fin 8

end Sys2Proof
end

