-- ==== Sys2Proof/Syntax.lean ====
section
/-! DEFINITION. The commands of the MT-7248, one constructor per row of the opcode table.
Rows that a host packet carries take its header and its parameter bytes (R572, R573);
events take what the outside world (a pin, a sensor, a DRAM component, a host lane) gives them;
engine instructions take the engine and the fields of their format (R162). -/

namespace Sys2Proof

/-- Flit and packet classes (R534, R535). -/
inductive PktClass where
  | ctrl | bulk | stream | time
  deriving DecidableEq, Repr, Inhabited

/-- How an ECC-checked read comes back: of an engine's stores (R244, R245), of the signature buffers (R743), of fail memory (R398) or of chip-level SRAM (R738). -/
inductive LineOutcome where
  | good | corrected | uncorrectable
  deriving DecidableEq, Repr, Inhabited

/-- What the reads that a packet causes meet: for READ_CFG how chip-level SRAM gives one word of the access, counted from its first, the others being good (R738), and for READ_VERDICT how fail memory gives one word (R398); for LOG_READ the sequences of the entries that fail their check (R787). -/
structure PacketReads where
  word : Nat
  outcome : LineOutcome
  corrupt : List Nat
  deriving DecidableEq, Repr, Inhabited

/-- The header of a command packet (R573), the link and class it arrived on, the CRC-32C that it carries behind its parameters (R574), and what its reads meet. -/
structure Hdr where
  link : LinkId
  cls : PktClass
  crc : Word
  reads : PacketReads
  version : Byte
  session : BitVec 16
  tag : BitVec 16
  qmask : Byte
  flags : Byte
  /-- The `LENGTH` field (R576). -/
  length : Nat
  detail : BitVec 16
  rsv : BitVec 16
  deriving DecidableEq, Repr, Inhabited

/-- Parameter bytes of a packet, in ascending offset. -/
abbrev Params := List Byte

/-- Instruction format A (R162). -/
structure FmtA where
  rd : BitVec 5
  ra : BitVec 5
  rb : BitVec 5
  imm : BitVec 11
  deriving DecidableEq, Repr, Inhabited

/-- Instruction format B (R162). -/
structure FmtB where
  rd : BitVec 5
  ra : BitVec 5
  imm : BitVec 16
  deriving DecidableEq, Repr, Inhabited

/-- Instruction format C (R162). -/
structure FmtC where
  ra : BitVec 5
  rb : BitVec 5
  off : BitVec 16
  deriving DecidableEq, Repr, Inhabited

/-- The two stamp channels of a TMU (R427). -/
inductive Channel where
  | a | b
  deriving DecidableEq, Repr, Inhabited

/-- What the four reads of a regulator in a telemetry cycle return (R730, R731). -/
structure RailReading where
  vout : Nat
  iout : Nat
  temp : Int
  status : BitVec 16
  deriving DecidableEq, Repr, Inhabited

/-- The reads of one regulator in a telemetry cycle (R731, R732): how many tries of STATUS_WORD, READ_VOUT, READ_IOUT and READ_TEMPERATURE_1 fail, in that order, four and more being all of them, and what the reads return that come through. -/
structure RailTransfer where
  fails : List Nat
  reading : RailReading
  deriving DecidableEq, Repr, Inhabited

/-- What the monitor ADC checks on a pin (R340): levels V0 to V3, VTT, thresholds T1 to T3, and the two clamps. -/
inductive DacKind where
  | level (v : Fin 4) | vtt | threshold (t : Fin 3) | clampLo | clampHi
  deriving DecidableEq, Repr, Inhabited

/-- A read of the governor's tables in chip-level SRAM, or of fail memory: how it comes back, and the entry or word that an error concerns (R398, R738, R759). -/
structure SramRead where
  outcome : LineOutcome
  entry : Nat
  deriving DecidableEq, Repr, Inhabited

/-- A quire, how its signature buffers give what the step reads of them, and the line that an error concerns (R743, R759). -/
structure BufferStep where
  quire : QId
  buffer : LineOutcome
  line : Nat
  deriving DecidableEq, Repr, Inhabited

/-- How a line of DDR-5 comes back (R464): how many of its 80 symbols are wrong, and whether an error of more than 8 symbols passes for a corrected one. -/
structure LineRead where
  wrong : Fin 81
  miscorrected : Bool
  deriving DecidableEq, Repr, Inhabited

/-- How the reads of one engine instruction come back: the fetch of its word, what it reads of the data store, and (RAWC, CDEC) what it reads of the signature buffers; the last two say nothing for an instruction that does not read there.
`entry` is the word of the data store, or the line of the signature buffers, that an error there concerns (R759). -/
structure StoreReads where
  fetch : LineOutcome
  data : LineOutcome
  buffer : LineOutcome
  entry : Nat
  deriving DecidableEq, Repr, Inhabited

/-- The result of a match compare (R116): the instance of the MATCH_JUMP that it belongs to, and whether it failed. -/
structure MatchCompare where
  inst : Nat
  failed : Bool
  deriving DecidableEq, Repr, Inhabited

/-- A codeword as decoding gives it (R515 to R518): not decodable, or the number of symbols corrected, the 20 header bits and the 20 flits of 32 bytes. -/
inductive RxCodeword where
  | bad
  | good (corrected : Fin 16) (header : BitVec 20) (flits : List (List Byte))
  deriving DecidableEq, Repr, Inhabited

/-- What the training of a lane finds (R513, R520, R529): the phase, 1 to 5, that it fails, or 0; the transmit taps c-2, c-1 and c+1 that the host's receiver requests, in 64ths of the main tap, and whether it requests precoding;
the taps that the chip's receiver requests of the host; and what the chip's receiver settles at: CTLE in steps of 0.5 dB, the 12 DFE taps in steps, and the eye. -/
structure LaneTraining where
  fails : Fin 6
  ffe : Fin 10 × Fin 20 × Fin 20
  precode : Bool
  request : Fin 10 × Fin 20 × Fin 20
  ctle : Fin 41
  dfe : List Int
  eyeMv : Byte
  deriving DecidableEq, Repr, Inhabited

/-- What the two checks of a generator saw of a chunk (R277): events that the checking decoder missed, events it saw without expecting them, and the drive edges and strobes that the generator counted. -/
structure EdgeCheck where
  missing : Nat
  extra : Nat
  drives : Nat
  strobes : Nat
  deriving DecidableEq, Repr, Inhabited

/-- Why a lane in service enters retraining without a request of the host (R549). -/
inductive RetrainCause where
  | lockLost | uncorrectable | corrected
  deriving DecidableEq, Repr, Inhabited

/-- Clock sources that are judged (R645). -/
inductive ClkSource where
  | xo | recovered
  deriving DecidableEq, Repr, Inhabited

/-- The drift of a source over a window of 10 µs, in ps: against the low-rate oscillator, and against the other source (R646). -/
structure WindowDrift where
  lro : Int
  other : Int
  deriving DecidableEq, Repr, Inhabited

/-- The age of a kettle-chain frame (R695), in units of 0.25 ps: the time since bit 0 reached `KCI`, and how long before the stop of the timing domain, if it is stopped, that was; negative after it. -/
structure FrameAge where
  ago : Nat
  beforeStop : Int
  deriving DecidableEq, Repr, Inhabited

/-- Rails of groups 1 to 3 (R822). -/
inductive Rail where
  | vio | vsram | vcore | vsd | vsdh | vddq
  deriving DecidableEq, Repr, Inhabited

/-- The commands. Each constructor's row of the opcode table names the rule that gives its effect. Log entry 151: DESIGN CHOICE. -/
inductive Instr where
  -- host packets (R620)
  | hello (h : Hdr) (p : Params)
  | openSession (h : Hdr) (p : Params)
  | closeSession (h : Hdr) (p : Params)
  | readCfg (h : Hdr) (p : Params)
  | writeCfg (h : Hdr) (p : Params)
  | writeCfgBlock (h : Hdr) (p : Params)
  | pageCrcWrite (h : Hdr) (p : Params)
  | collate (h : Hdr) (p : Params)
  | collationComplete (q : QId) (vpinMv elapsedNs : Nat)
  | arm (h : Hdr) (p : Params)
  | armFillDone (q : QId)
  | start (h : Hdr) (p : Params)
  | startAtTime (q : QId)
  /-- A reading of VCORE in mV, when one has come through. -/
  | startVcoreReady (vcore : Option Nat) (expired : Bool)
  | stop (h : Hdr) (p : Params)
  | stopTakeEffect (q : QId)
  | pause (h : Hdr) (p : Params)
  | pauseTakeEffect (q : QId)
  | resume (h : Hdr) (p : Params)
  | rebind (h : Hdr) (p : Params)
  | quireReset (h : Hdr) (p : Params)
  | loadSignature (h : Hdr) (p : Params)
  | loadCheckDone (q : QId) (sig : Fin 1024)
  | streamData (h : Hdr) (p : Params)
  | freeSignature (h : Hdr) (p : Params)
  | querySignature (h : Hdr) (p : Params)
  | readVerdict (h : Hdr) (p : Params)
  /-- `o` is how fail memory comes back, `l` how the lines of the raw DRAM region do, those beyond the list being good. -/
  | readCapture (h : Hdr) (p : Params) (o : SramRead) (l : List LineRead)
  | readRepair (h : Hdr) (p : Params)
  | timeSet (h : Hdr) (p : Params)
  | timeAdj (h : Hdr) (p : Params)
  | timeRead (h : Hdr) (p : Params)
  | snapshot (h : Hdr) (p : Params)
  | snapshotAtTime
  | calRetrim (h : Hdr) (p : Params)
  | retrimMeasureDone (q : QId) (missedByMilliPs : Nat) (taps : List Int)
  | calCommit (h : Hdr) (p : Params)
  | calQuery (h : Hdr) (p : Params)
  | calTrackUpdate
  | logFreeze (h : Hdr) (p : Params)
  | logRead (h : Hdr) (p : Params)
  | logThaw (h : Hdr) (p : Params)
  | logTokenRefill
  | faultRead (h : Hdr) (p : Params)
  | faultPinHold (h : Hdr) (p : Params)
  | faultInject (h : Hdr) (p : Params)
  | budgetSet (h : Hdr) (p : Params)
  | budgetQuery (h : Hdr) (p : Params)
  | patchStage (h : Hdr) (p : Params)
  | spineRestart (h : Hdr) (p : Params)
  | spineRestartDone
  | machineCheck
  | selftest (h : Hdr) (p : Params)
  | tmuMeasure (h : Hdr) (p : Params)
  | tmuGateOpen (q : QId) (u : TmuId)
  /-- A crossing `t` units of 0.25 ps after the gate opening or, before that, after the last tick; before deskew (R432). -/
  | tmuEdge (q : QId) (u : TmuId) (ch : Channel) (rising : Bool) (t : Int)
  | tmuGateClose (q : QId) (u : TmuId)
  | tmuFitDone (q : QId) (u : TmuId)
  | pmuMeasure (h : Hdr) (p : Params)
  /-- The chip time at which the settling of R363 ended. -/
  | pmuApertureStart (q : QId) (settledNs : Nat)
  /-- The averaged quantity: current in units of range / 125,000, or voltage in units of 20 µV (R352), and whether a limit was reached (R355). -/
  | pmuMeasureDone (q : QId) (value : Int) (limited : Bool)
  | laneTest (h : Hdr) (p : Params)
  /-- The symbols received since the last CODEWORD_RECEIVED, how many more the checker has compared beside those listed, and the wrong bits among these. -/
  | laneTestDone (lane : LaneId) (line : List (Fin 4)) (more wrong : Nat)
  | chipReset (h : Hdr) (p : Params)
  -- register accesses with a row of their own: the WRITE_CFG or READ_CFG packet that makes them
  | laneOut (h : Hdr) (p : Params)
  | laneReturn (h : Hdr) (p : Params)
  | laneRetrain (h : Hdr) (p : Params)
  | fecInjectWrite (h : Hdr) (p : Params)
  | fecPeakRead (h : Hdr) (p : Params)
  | eiEnWrite (h : Hdr) (p : Params)
  | tsqPop (h : Hdr) (p : Params)
  | time0Read (h : Hdr) (p : Params)
  | refSelectWrite (h : Hdr) (p : Params)
  | syncModeWrite (h : Hdr) (p : Params)
  | syncSkewWrite (h : Hdr) (p : Params)
  | holdUsWrite (h : Hdr) (p : Params)
  | kcSendTimeLoad (h : Hdr) (p : Params)
  | kcSendPing (h : Hdr) (p : Params)
  | fenceEngine (h : Hdr) (p : Params)
  | unfenceEngine (h : Hdr) (p : Params)
  -- binding entries (R94)
  | endRun (q : QId)
  | play (q : QId)
  | loopBegin (q : QId)
  | loopEnd (q : QId)
  | call (q : QId)
  | ret (q : QId)
  | jump (q : QId)
  | matchJump (q : QId)
  | waitTime (q : QId)
  | waitTrig (q : QId)
  | waitTimeExpiry (q : QId)
  | waitTrigger (q : QId)
  | waitTimeout (q : QId)
  | matchResult (q : QId) (r : MatchCompare)
  | decisionPoint (q : QId)
  | instanceEnd (q : QId)
  | verdictHoldExpiry (q : QId) (id : Nat)
  | prefetchRequest (q : QId)
  | chunkCreate (q : QId)
  | operandArrival (q : QId) (seq : Nat)
  | dispatchStep (q : BufferStep)
  | affinityWaitExpiry (q : QId) (seq : Nat)
  | chunkRelease (q : QId)
  | chunkDue (q : BufferStep)
  | autoResume (q : QId)
  /-- The regions sampled at the strobes of vector `vec` of the chunk of release sequence `seq`: 2 bits a pin, pin 0 lowest. -/
  | compareResult (q : QId) (seq : Nat) (vec : Fin 4096) (regions : DWord)
  | rawRecordDrain (q : QId)
  | captureCompression (q : QId) (o : SramRead)
  /-- A whole step on two engines: how its reads of fail memory come back, and whether its two copies agree (R237, R409). -/
  | repairAnalysisStep (q : QId) (region : Fin 32) (o : SramRead) (agree : Bool)
  | repairFinalSearch (q : QId) (region : Fin 32) (o : SramRead) (agree : Bool)
  | epJoinDone (q : QId)
  | epSwitch (q : QId) (agreed : Bool)
  /-- The checks of the chunk of release sequence `seq` on a pin's generator (R277). -/
  | edgeMismatch (q : QId) (pin : PinId) (seq : Nat) (k : EdgeCheck)
  | readbackSample (q : QId) (pin : PinId) (enabled : Bool) (region : Fin 4)
  | dacCheck (q : QId) (pin : PinId) (dac : DacKind) (microVolt : Int)
  | clampOvercurrent (q : QId) (pin : PinId) (peakMa : Nat)
  | clampOverload (q : QId) (pin : PinId)
  | vpinOutOfWindow (q : QId) (mv : Nat)
  | vpinWindowSettled (q : QId) (mv : Nat)
  | vcoreWindowCheck (mv : Nat)
  /-- The 16 sensors in units of 1/16 °C. -/
  | sensorRead (temps : List Int)
  | pmbusTelemetryCycle (rails : List RailTransfer)
  /-- By rail: how many tries of STATUS_WORD fail, and the word read when one comes through. -/
  | pmAlert (status : List (Nat × BitVec 16))
  | trimPeriod
  | floorRecompute (o : SramRead)
  | dramRateRequest (q : QId)
  | eiAutoEvaluate
  | rateChange (q : QId)
  -- physical ranks (R457)
  | refreshDue (q : QId) (rank : Fin 3)
  | refreshRepay (q : QId) (rank : Fin 3)
  | mr4Read (q : QId) (anyHot : Bool)
  | refreshWindowEnd (q : QId) (rank : Fin 3)
  /-- The moves of the read and the write delay of each physical rank (R494). -/
  | dqsDriftRead (q : QId) (drift : List (Int × Int))
  | dramCommandSlot (q : QId)
  | fetchDeadline (q : QId)
  | agePromotion (q : QId)
  | dramRead (q : QId) (outcome : LineRead)
  | writeCrcAlert (q : QId)
  | caParityAlert (q : QId)
  | migrationCopy (q : QId) (outcome : LineRead) (spareFailed : Bool)
  | codewordReceived (lane : LaneId) (line : List (Fin 4))
  | creditInit (link : LinkId) (grants : List Nat)
  | creditSync (link : LinkId) (totals : List Nat)
  | creditSyncSend (link : LinkId)
  | widthChange (link : LinkId) (mask : Byte) (at_ : BitVec 12)
  | widthAck (link : LinkId) (mask : Byte) (at_ : BitVec 12)
  | widthSwitch (link : LinkId)
  | widthAckTimeout (link : LinkId)
  | retrainReq (link : LinkId) (laneIdx : Fin 8)
  | eiEnter (link : LinkId)
  | laneRetrainStart (lane : LaneId) (cause : RetrainCause)
  | laneRetrainDone (lane : LaneId) (training : LaneTraining)
  | linkTrainingDone (link : LinkId) (lanes : List LaneTraining) (grants : List Nat)
  | linkRetrainTimer (link : LinkId)
  | eiEntry (link : LinkId)
  | eiExit (link : LinkId)
  | sessionHoldExpiry (link : LinkId)
  -- time messages: the packet's bytes and the instant of bit 0 of its SOP flit after the last tick, in units of 2^-16 ns
  | sync (link : LinkId) (msg : List Byte) (sub : Nat)
  | followUp (link : LinkId) (msg : List Byte)
  | delayReq (link : LinkId) (sub : Nat)
  | delayResp (link : LinkId) (msg : List Byte)
  /-- A rising edge at `SYNC_IN`, `sub` units of 0.25 ps after the last tick (R661). -/
  | syncInEdge (sub : Nat)
  | syncMissTimeout
  | syncOutPulse
  /-- A kettle-chain frame of 96 bits on `KCI`, and its age. -/
  | timeLoad (frame : BitVec 96) (age : FrameAge)
  | ping (frame : BitVec 96) (roundNs : Nat)
  | pingTimeout
  | timeTick
  | judgeWindow (src : ClkSource) (drift : WindowDrift)
  /-- The phase drift of REC against the XO over the window, in ps. -/
  | monitorWindow (driftPs : Int)
  | recEdgeLoss (missing : Nat)
  | recRejudge
  | xoEdgeLoss (missing : Nat)
  | pllLockLoss
  | stopHandshakeTimeout
  | timingRestart (relockNs stopNs : Nat)
  | recAdoption
  | faultCollectWindow
  | faultNPulseEnd
  | resetNFall
  | railFall (rail : Rail)
  | railWindowSettled
  | bootStart (modeOzBall resetNHigh : Bool)
  /-- The end of a boot step; `ranks` gives, in step 7, the physical ranks of each channel that trained at both sets (R492). -/
  | bootStepDone (elapsedMs : Nat) (ranks : List (BitVec 3))
  -- boundary scan (R851)
  | extest
  | idcode
  | samplePreload
  | extestPulse
  | extestTrain
  | clamp
  | highz
  | bootStatus
  | bypass
  -- engine instructions (R164)
  | nop (q : QId) (e : EngId) (f : FmtA) (o : StoreReads)
  | add (q : QId) (e : EngId) (f : FmtA) (o : StoreReads)
  | sub (q : QId) (e : EngId) (f : FmtA) (o : StoreReads)
  | and (q : QId) (e : EngId) (f : FmtA) (o : StoreReads)
  | or (q : QId) (e : EngId) (f : FmtA) (o : StoreReads)
  | xor (q : QId) (e : EngId) (f : FmtA) (o : StoreReads)
  | shl (q : QId) (e : EngId) (f : FmtA) (o : StoreReads)
  | shr (q : QId) (e : EngId) (f : FmtA) (o : StoreReads)
  | mul (q : QId) (e : EngId) (f : FmtA) (o : StoreReads)
  | popc (q : QId) (e : EngId) (f : FmtA) (o : StoreReads)
  | minu (q : QId) (e : EngId) (f : FmtA) (o : StoreReads)
  | maxu (q : QId) (e : EngId) (f : FmtA) (o : StoreReads)
  | addi (q : QId) (e : EngId) (f : FmtB) (o : StoreReads)
  | andi (q : QId) (e : EngId) (f : FmtB) (o : StoreReads)
  | ori (q : QId) (e : EngId) (f : FmtB) (o : StoreReads)
  | xori (q : QId) (e : EngId) (f : FmtB) (o : StoreReads)
  | shli (q : QId) (e : EngId) (f : FmtB) (o : StoreReads)
  | shri (q : QId) (e : EngId) (f : FmtB) (o : StoreReads)
  | lui (q : QId) (e : EngId) (f : FmtB) (o : StoreReads)
  | ld (q : QId) (e : EngId) (f : FmtB) (o : StoreReads)
  | st (q : QId) (e : EngId) (f : FmtB) (o : StoreReads)
  | ldw (q : QId) (e : EngId) (f : FmtB) (o : StoreReads)
  | stw (q : QId) (e : EngId) (f : FmtB) (o : StoreReads)
  | beq (q : QId) (e : EngId) (f : FmtC) (o : StoreReads)
  | bne (q : QId) (e : EngId) (f : FmtC) (o : StoreReads)
  | bltu (q : QId) (e : EngId) (f : FmtC) (o : StoreReads)
  | bgeu (q : QId) (e : EngId) (f : FmtC) (o : StoreReads)
  | loop (q : QId) (e : EngId) (f : FmtC) (o : StoreReads)
  | jal (q : QId) (e : EngId) (f : FmtB) (o : StoreReads)
  | jr (q : QId) (e : EngId) (f : FmtA) (o : StoreReads)
  | uget (q : QId) (e : EngId) (f : FmtB) (o : StoreReads)
  | uset (q : QId) (e : EngId) (f : FmtB) (o : StoreReads)
  | agen (q : QId) (e : EngId) (f : FmtA) (o : StoreReads)
  | aseek (q : QId) (e : EngId) (f : FmtA) (o : StoreReads)
  | scram (q : QId) (e : EngId) (f : FmtB) (o : StoreReads)
  | bgnd (q : QId) (e : EngId) (f : FmtB) (o : StoreReads)
  | cmap (q : QId) (e : EngId) (f : FmtB) (o : StoreReads)
  | tput (q : QId) (e : EngId) (f : FmtA) (o : StoreReads)
  | tsrun (q : QId) (e : EngId) (f : FmtA) (o : StoreReads)
  | rawc (q : QId) (e : EngId) (f : FmtA) (o : StoreReads)
  | cdec (q : QId) (e : EngId) (f : FmtA) (o : StoreReads)
  | fget (q : QId) (e : EngId) (f : FmtA) (o : StoreReads)
  | rget (q : QId) (e : EngId) (f : FmtB) (o : StoreReads)
  | put (q : QId) (e : EngId) (f : FmtA) (o : StoreReads)
  | done (q : QId) (e : EngId) (f : FmtA) (o : StoreReads)
  | trap (q : QId) (e : EngId) (f : FmtB) (o : StoreReads)
  -- ends of longer work
  | selftestDone (q : QId) (failed : BitVec 5) (durationUs : Nat)
  | calCommitDone (compareOk : Bool)
  | patchFlashWriteDone (success : Bool)
  | retrimDacMeasureDone (q : QId) (dacs : List Int)
  | codewordTransmitted (lane : LaneId)
  | lossOfSignal (lane : LaneId)
  | vpinInWindow (q : QId) (mv : Nat)
  | reservedTypeFrame (frame : BitVec 96)
  deriving DecidableEq, Repr

end Sys2Proof
end

