-- ==== Sys2Proof/Decode.lean ====
section
/-! DEFINITION. The words of the opcode table. No row of the table gives bits: a command of this chip is a packet with named fields or an event, and an engine instruction's word (R162) is an operand of its row. -/

/-- The command that a word spells by the table's bits: none, for the table gives no row any. -/
def Sys2Proof.decodeTableWord (_nbits _w : Nat) : Option Sys2Proof.Instr := none
end

