-- ==== Sys2Proof/Config.lean ====
section
/-! DEFINITION. What one die or one board fixes, and the free values: constants without a body, so that no proof can lean on a value.
Each is named in the assumption log. -/

namespace Sys2Proof.Config

/-- The 64-bit die serial number of R1, fixed at manufacture (log entry 2). -/
opaque dieSerial : DWord

/-- A value the manual leaves open, fresh for each argument (log entry 3). -/
opaque freeWord : Nat → Word

/-- Whether a patch image authenticates against the keys and the minimum version in OTP (R817), which no register reads (log entry 4). -/
opaque patchAuthentic : List Byte → Bool

/-- By how much the points of the per-die table of R714 lie above the guaranteed minimum, in units of 1 M operations/s: at the n-th of the VCOREs 700, 800, 900, 1,000 and 1,050 mV and the m-th of the calibrated temperatures (log entry 5). -/
opaque speedMargin : Nat → Nat → Nat

/-- The governor's model of the unmetered rails of R724, in mW, at the given telemetry cycle (log entry 6). -/
opaque unmeteredMw : Nat → Nat

/-- The number of instructions of a built-in background program of the program ROM (R184, R383), by context (log entry 7). -/
opaque romProgramWords : Nat → Nat

/-- How many requests the queue of a port of the pattern memory controller holds (R475), by port: fetch 0, capture 1, host load 2, engine scratch 3, migration 4 (log entry 117). -/
opaque portDepth : Nat → Nat

/-- tRFCsb of a component in ns (R476), by its density code: 0 for 16 Gb, 1 for 24 Gb, 2 for 32 Gb (log entry 116). -/
opaque tRFCsb : Nat → Nat

/-- The words of a background item's input stream, whose layout the manual does not give, by quire, item and place (log entry 164); both copies of a step read the same. -/
opaque inputWord : Nat → Nat → Nat → DWord

/-- How many new cells wait for the repair analysis of a region before capture compression finds its output queue full (R221, log entry 91). -/
opaque cellQueue : Nat

/-- How many steps of a DFE setting make up the signal amplitude (R520, R521; log entry 125). -/
opaque dfeSteps : Nat

/-- The redundant elements that a die has for a selection (R794), by quire, element, place in it, and whether it is a DAC's: what is fixed at its making (log entry 141). -/
opaque cells : Nat → Nat → Nat → Bool → List Int

/-- The calibration sets written at the factory (R792), by quire, element, set, place in it, and whether it is a DAC's (log entry 141). -/
opaque factoryTarget : Nat → Nat → Nat → Nat → Bool → Int

/-- What a regulator answers to VOUT_MODE at start-up (R730), by rail: the exponent of its LINEAR16 format, -16 to 15 (log entry 185). -/
opaque voutExponent : Nat → Int

/-- The SSPRQ pattern (R567), symbol by symbol over its 65,535 symbols (log entry 187). -/
opaque ssprq : Nat → Fin 4

end Sys2Proof.Config
end

