-- ==== Sys2Proof/Machine/State.lean ====
section
/-! DEFINITION. The state of the chip as plain data, and the state right after reset.
Register words that the manual numbers and that hold nothing but a value (configuration fields, counters, results) stand in sparse register files keyed by page · 2^20 + offset; everything with behaviour of its own stands in a field. -/

namespace Sys2Proof.Machine

/-- A store in canonical form: keys strictly rising, and no entry equal to what an unlisted key reads as. -/
abbrev Sparse (α : Type) := List (Nat × α)

/-- A register file: keys are page · 2^20 + offset (R12). -/
abbrev Regs := Sparse Word

/-- The quire states (R37). -/
inductive QState where
  | off | parked | staged | collated | armed | running | paused | stopped | faulted
  deriving DecidableEq, Repr, Inhabited

/-- `STOP_CAUSE` (R54). -/
inductive StopCause where
  | none | endOfRun | host | clock | chip
  deriving DecidableEq, Repr, Inhabited

/-- `BUF_STATE` (R80). -/
inductive BufState where
  | empty | loading | loaded | freeDeferred | stale
  deriving DecidableEq, Repr, Inhabited

/-- Whom a reply is owed: the header fields that the reply echoes (R573). -/
structure ReplyTo where
  link : LinkId
  opcode : Byte
  session : BitVec 16
  tag : BitVec 16
  qmask : Byte
  deriving DecidableEq, Repr, Inhabited

/-- A reply sent (R572, R573). -/
structure Reply where
  dest : ReplyTo
  status : Byte
  detail : BitVec 16
  result : List Byte
  deriving DecidableEq, Repr, Inhabited

/-- Chunk kinds (R199). -/
inductive ChunkKind where
  | data | voidCancelled | voidFailed
  deriving DecidableEq, Repr, Inhabited

/-- A chunk (R198, R199): header fields, the timing set of each vector, and the event words of each pin of the mask in ascending pin order, each pin's words in group order. -/
structure Chunk where
  kind : ChunkKind
  voidCause : Byte
  poisoned : Bool
  last : Bool
  shadowed : Bool
  landing : Bool
  sig : Nat
  inst : Word
  index : Nat
  vectors : Nat
  pinmask : Word
  seq : Nat
  crc : Word
  sets : List Nat
  words : List (BitVec 256)
  /-- The edge-count table (R204, R276). -/
  edges : List Word
  /-- The engine that its item, or its primary copy, ran on (R862). -/
  engine : Nat
  deriving DecidableEq, Repr, Inhabited

/-- A load in progress (R628): its size and the received pieces, each from its first byte up to the byte after its last. -/
structure Load where
  imageBytes : Nat
  got : List (Nat × Nat)
  /-- A segment with `LAST` = 1 has arrived (R629). -/
  lastSeen : Bool
  deriving DecidableEq, Repr, Inhabited

/-- What the quire keeps of a signature beside its directory entry (R80, R112, R202, R615, R701). Log entry 73: DESIGN CHOICE. -/
structure SigState where
  buf : BufState
  headReady : Bool
  poisoned : Bool
  underrun : Bool
  /-- Its data in the signature buffers was read with an uncorrectable error: STALE until a LOAD_SIGNATURE completes (R743). -/
  damaged : Bool
  load : Option Load
  /-- The completing segment whose reply waits for R85. -/
  checking : Option ReplyTo
  imageBytes : Nat
  /-- The data changed since the last commit (R615). -/
  changed : Bool
  annotation : Option Nat
  /-- The annotation committed at the last collation (R87). -/
  committedMw : Option Nat
  ratioX100 : Nat
  table : List Word
  head : Option Chunk
  nextInst : Word
  /-- Operations per chunk and the shortest named period, as the last derived work found them (R701, R715). -/
  ops : Nat
  period : Nat
  deriving DecidableEq, Repr, Inhabited

/-- Log entry 18: DESIGN CHOICE. -/
def SigState.reset : SigState :=
  { buf := .empty, headReady := false, poisoned := false, underrun := false, damaged := false, load := none, checking := none,
    imageBytes := 0, changed := true, annotation := none, committedMw := none, ratioX100 := 0, table := [], head := none, nextInst := 0,
    ops := 0, period := 4000 }

/-- Kinds of work items (R145). -/
inductive ItemKind where
  | pattern | precompute | head | repair | compress
  deriving DecidableEq, Repr, Inhabited

/-- An entry of the fail queue (R380). -/
structure FailEntry where
  sig : Nat
  inst : Word
  vec : Nat
  pins : Word
  deriving DecidableEq, Repr, Inhabited

/-- A work item (R145, R151, R152). -/
structure Item where
  kind : ItemKind
  sig : Nat
  inst : Word
  index : Nat
  /-- Release sequence of a pattern chunk; a number of its own for every other item. -/
  seq : Nat
  vectors : Nat
  last : Bool
  cls : Nat
  /-- The stored data has not arrived (R206). -/
  waits : Bool
  shadowed : Bool
  /-- The `D_INPUT` snapshot (R152). -/
  input : List DWord
  /-- The affinity wait of R211 has run out. -/
  anyEngine : Bool
  /-- Not-before chip time in the delay list (R221). -/
  due : Option Nat
  /-- Input of a background item (R382, R383, R409): entries of the fail queue, or new cells of a region. -/
  fails : List FailEntry
  cells : List (Nat × Nat)
  region : Nat
  poisoned : Bool
  /-- A shadow copy (R237), and the engine of its primary, on which it never runs (R238). -/
  copy : Bool
  avoid : Option Nat
  deriving DecidableEq, Repr, Inhabited

/-- One Folio engine (R148, R149, R160, R161). -/
structure Engine where
  context : Option Nat
  /-- The instance whose head packet gave the dictionary of a CODEC context of home STREAM (R150, R630). -/
  dictInst : Option Word
  eccCorrected : Byte
  item : Option Item
  lastUse : Nat
  pc : Nat
  istore : List Word
  /-- The data store, byte by byte; unlisted bytes read 0. -/
  dstore : Sparse Byte
  /-- `x1` to `x31`; unlisted registers hold 0. -/
  regs : Sparse DWord
  /-- Unit registers 0 to 13. -/
  unit : Sparse DWord
  unitInit : List DWord
  cursor : Nat
  emitted : Nat
  opsUsed : Nat
  opsBound : Nat
  runs : List (Nat × Nat)
  /-- The emitted groups, oldest first: 64 slots each. -/
  groups : List (List (BitVec 128))
  /-- Event words produced whole by RAWC or CDEC. -/
  words : List (BitVec 256)
  output : List DWord
  /-- Words of the item's input stream taken by FGET. -/
  taken : Nat
  deriving DecidableEq, Repr, Inhabited

/-- Log entry 16: DESIGN CHOICE. -/
def Engine.reset : Engine :=
  { context := none, dictInst := none, eccCorrected := 0, item := none, lastUse := 0,
    pc := 0, istore := [], dstore := [], regs := [], unit := [], unitInit := [], cursor := 0, emitted := 0, opsUsed := 0,
    opsBound := 0, runs := [], groups := [], words := [], output := [], taken := 0 }

/-- A slot of the release stage (R224): the item has not ended, or a copy of a shadow pair has, or the chunk waits for release. -/
structure Slot where
  seq : Nat
  primary : Option Chunk
  copyCrc : Option Word
  /-- A trap code of the primary or the copy (R241). -/
  trapped : Option Byte
  /-- The engine of the primary copy (R862). -/
  engine : Nat
  /-- The chunk of the slot. -/
  sig : Nat
  inst : Word
  index : Nat
  /-- Skipped at its due start: it is discarded when it is released (R137). -/
  late : Bool
  /-- A shadow copy runs beside the primary (R237), and which of the two have ended (R239). -/
  shadowed : Bool
  primaryEnded : Bool
  copyEnded : Bool
  /-- A line of the chunk's data, or of its entry of the checksum table, was read poisoned (R497). -/
  poisoned : Bool
  deriving DecidableEq, Repr, Inhabited

/-- An open loop frame: the entry of its LOOP_BEGIN, the count left, and the call depth at which it was opened (R95, R97). -/
structure LoopFrame where
  entry : Nat
  left : Nat
  depth : Nat
  deriving DecidableEq, Repr, Inhabited

/-- An entry on the sequencer's path up to the entry it resolves next (R106): a PLAY or MATCH_JUMP, or a wait, which plays no signature. -/
structure Block where
  entry : Nat
  /-- `OP` of the entry. -/
  op : Nat
  sig : Nat
  count : Nat
  /-- Plays all of whose chunks are created, and the next chunk of the next one. -/
  created : Nat
  nextChunk : Nat
  /-- Plays begun and ended at the pins. -/
  begun : Nat
  ended : Nat
  /-- The first chunk comes from the landing stage (R121). -/
  fromHead : Bool
  /-- Plays whose stored data has been requested (R107). -/
  requested : Nat
  /-- Instance sequence of the block's first play, once one has been given, and how many plays have theirs: play j has the first one's plus j (R199). -/
  firstInst : Option Word
  alloc : Nat
  /-- Loop frames and calls open at the entry (R98). -/
  loops : List LoopFrame
  calls : List Nat
  deriving DecidableEq, Repr, Inhabited

/-- The match condition of the current MATCH_JUMP (R118 to R122). -/
structure MatchCond where
  entry : Nat
  /-- The instance of the MATCH_JUMP, whose results alone resolve the condition (R118). -/
  id : Nat
  condFail : Bool
  target : Nat
  /-- Match compares made whose result has not reached the sequencer (R116). -/
  outstanding : Nat
  /-- The last chunk of the instance has begun. -/
  lastIssued : Bool
  failed : Bool
  /-- `some true` is "jump". -/
  resolved : Option Bool
  /-- The decision point of the MATCH_JUMP passed unresolved (R122). -/
  late : Bool
  /-- Loop frames and calls open at the MATCH_JUMP (R98). -/
  loops : List LoopFrame
  calls : List Nat
  deriving DecidableEq, Repr, Inhabited

/-- The wait in force (R125 to R131): that of the entry at the head of the path. -/
inductive Wait where
  | time (ns : Nat)
  /-- The start of the wait's first hold vector, and the instant at which the trigger reached the timing front, once it has: both from power-on in units of 0.25 ps (R129, R130, R686). -/
  | trig (since : Nat) (at_ : Option Nat)
  deriving DecidableEq, Repr, Inhabited

/-- The sequencer (R105 to R124). -/
structure Sequencer where
  /-- The next entry to resolve. -/
  pc : Nat
  loops : List LoopFrame
  calls : List Nat
  plan : List Block
  wait : Option Wait
  cond : Option MatchCond
  /-- Signature in the landing stage (R114). -/
  landing : Option Nat
  /-- Chunks of signatures in the landing stage whose data is to be requested once the pattern-fetch queue has room (R114, R475). -/
  landingAsk : List (Nat × Nat)
  /-- Chunks of signatures in the landing stage whose data came back poisoned (R114, R497). -/
  landingBad : List (Nat × Nat)
  /-- The entry shown in `ENTRY`. -/
  entry : Nat
  /-- Some vector of the run has played, and the timing set of the last one (R861). -/
  lastSet : Option Nat
  /-- A vector of the run has played a cycle-mode set (R275). -/
  ozPlayed : Bool
  deriving DecidableEq, Repr, Inhabited

def Sequencer.reset : Sequencer :=
  { pc := 0, loops := [], calls := [], plan := [], wait := none, cond := none, landing := none, landingAsk := [], landingBad := [], entry := 0, lastSet := none, ozPlayed := false }

/-- A play of a signature that is at the pins or in its verdict hold (R399, R404). -/
structure Inst where
  id : Nat
  entry : Nat
  sig : Nat
  inst : Word
  fails : Nat
  causes : BitVec 16
  /-- Index among the plays of its entry (R419). -/
  k : Nat
  /-- The play has ended and its hold, in µs, runs (R746). -/
  hold : Option Nat
  /-- When it left play, in ticks of 1 ns. -/
  endedAt : Nat
  /-- `REC_SEQ` of its record, when one was written. -/
  recSeq : Option (BitVec 16)
  deriving DecidableEq, Repr, Inhabited

/-- Verdicts (R404). -/
inductive Verdict where
  | pending | pass | fail | invalid
  deriving DecidableEq, Repr, Inhabited

/-- A record of the verdict store (R404). -/
structure VRec where
  /-- The instance of the record. -/
  id : Nat
  verdict : Verdict
  entry : Nat
  sig : Nat
  inst : Word
  fails : Nat
  recSeq : BitVec 16
  causes : BitVec 16
  deriving DecidableEq, Repr, Inhabited

/-- The run verdict (R401, R407). -/
structure RunVerdict where
  verdict : Verdict
  active : Bool
  ended : Bool
  cutShort : Bool
  clockOrFault : Bool
  anyInvalid : Bool
  anyFail : Bool
  matchTimeout : Bool
  noEye : Bool
  causes : BitVec 16
  deriving DecidableEq, Repr, Inhabited

/-- Log entry 17: DESIGN CHOICE. -/
def RunVerdict.reset : RunVerdict :=
  { verdict := .pending, active := false, ended := false, cutShort := false, clockOrFault := false, anyInvalid := false,
    anyFail := false, matchTimeout := false, noEye := false, causes := 0 }

/-- A first-N record (R378). -/
structure FailRec where
  vec : Nat
  entry : Nat
  sig : Nat
  inst : Word
  pins : Word
  timeNs : Nat
  recSeq : BitVec 16
  deriving DecidableEq, Repr, Inhabited

/-- A raw record (R390). -/
structure RawRec where
  regions : DWord
  vec : Nat
  recSeq : BitVec 16
  sig : Nat
  deriving DecidableEq, Repr, Inhabited

/-- `STATE` of a repair region (R416). -/
inductive RepairPhase where
  | clean | accumulating | searching | repairable | notRepairable | incomplete
  deriving DecidableEq, Repr, Inhabited

/-- A repair region (R408 to R416). -/
structure Region where
  phase : RepairPhase
  cause : BitVec 4
  failCells : Nat
  mustRows : Nat
  mustCols : Nat
  rows : List Nat
  cols : List Nat
  /-- Uncovered cells, as (row, column). -/
  cells : List (Nat × Nat)
  /-- New cells that no step has taken yet. -/
  fresh : List (Nat × Nat)
  dropped : Bool
  deriving DecidableEq, Repr, Inhabited

/-- Log entry 17: DESIGN CHOICE. -/
def Region.reset : Region :=
  { phase := .clean, cause := 0, failCells := 0, mustRows := 0, mustCols := 0, rows := [], cols := [], cells := [], fresh := [], dropped := false }

/-- A stretch of vectors at the pins: a chunk, or the hold vectors of a skipped chunk or a VOID_FAILED marker (R136, R227). -/
structure Play where
  entry : Nat
  instId : Nat
  index : Nat
  vectors : Nat
  isLast : Bool
  chunk : Option Chunk
  /-- Count and start of the first vector, from the run origin (R267). -/
  firstVec : Nat
  startsAt : Nat
  /-- Period of a hold vector before the play (R272, R861). -/
  hold : Nat
  /-- The sweep point that the play belongs to (R419). -/
  training : Option Nat
  /-- The next vector whose compare result has not arrived (R369). -/
  nextVec : Nat
  /-- The chunk has been counted in `EDGE_MISMATCHES` (R278). -/
  mismatched : Bool
  deriving DecidableEq, Repr, Inhabited

/-- States of the endpaper (R293, R309). -/
inductive EpPhase where
  | idle | joining | comparing | serving | handingBack
  deriving DecidableEq, Repr, Inhabited

/-- The endpaper (R292 to R301). -/
structure Endpaper where
  phase : EpPhase
  pin : Nat
  forced : Bool
  /-- While handing back: the comparison of R293 runs. -/
  comparing : Bool
  /-- The pin that the output switch gives to the endpaper. -/
  drives : Option PinId
  /-- The instance whose chunk is compared, once that chunk has begun (R293, R299). -/
  compared : Option Nat
  deriving DecidableEq, Repr, Inhabited

/-- Numbers for the taps of an element, its lanes' and (endpaper) its paths', and for its DACs or segments: a calibration set's targets, a re-trim's corrections or the selections in force (R792, R794, R797). Log entry 141: DESIGN CHOICE. -/
structure Trim where
  taps : List Int
  dacs : List Int
  deriving DecidableEq, Repr, Inhabited

/-- A re-trim in progress (R796 to R803). -/
inductive RetrimStep where
  | takeover | measure | dacs | handBack
  deriving DecidableEq, Repr, Inhabited

structure Retrim where
  pin : Nat
  all : Bool
  forced : Bool
  step : RetrimStep
  /-- COMPARING was skipped by R296, and the chip time of the end of step 2 (R798). -/
  skipped : Bool
  measuredAt : Nat
  /-- The corrections found so far, which the element takes when its re-trim completes (R797, R803). -/
  found : Trim
  deriving DecidableEq, Repr, Inhabited

/-- What page 0x18 keeps of a pin or of the endpaper (R805), and its correction by re-trim, which holds until the next chip reset (R804). -/
structure CalElem where
  mended : Bool
  trimFail : Bool
  lastDac : Bool
  count : BitVec 16
  timeNs : Nat
  trim : Trim
  deriving DecidableEq, Repr, Inhabited

/-- Log entry 15: DESIGN CHOICE. -/
def CalElem.reset : CalElem := { mended := false, trimFail := false, lastDac := false, count := 0, timeNs := 0, trim := ⟨[], []⟩ }

/-- A marker of the quire (R303 to R306). Instants are counted from power-on, in units of 0.25 ps. -/
structure Marker where
  active : Bool
  /-- Instant at which the latest event lets the marker rise. -/
  riseAt : Nat
  /-- The vector, counted from the run origin, at whose start plus `OFFSET` the pulse falls, or 500 ps after `riseAt` if that is later (R303). -/
  fallsAt : Nat
  /-- Source FAIL: events that belong to the first vector that starts at or after an instant, counted from the run origin, and not laid out yet. -/
  awaits : List Nat
  /-- The latest edges of the marker, newest first: whether it became active, and the instant. -/
  edges : List (Bool × Nat)
  deriving DecidableEq, Repr, Inhabited

def Marker.reset : Marker := { active := false, riseAt := 0, fallsAt := 0, awaits := [], edges := [] }

/-- Driver states of a pin (R257). -/
inductive Drive where
  | level (v : Fin 4) | highZ
  deriving DecidableEq, Repr, Inhabited

/-- A drive edge placed by a generator (R268, R269): the timing-clock cycle after the run origin, the fine delay in units of 0.25 ps, and the driver state it leaves (R257, R259). -/
structure PinEvent where
  pin : Nat
  cycle : Int
  fine : Nat
  drive : Drive
  deriving DecidableEq, Repr, Inhabited

/-- The time of an event, in units of 0.25 ps from the run origin. -/
def PinEvent.time (e : PinEvent) : Int := 500 * e.cycle + e.fine

/-- A sweep of DUT-interface training (R418 to R425): its first instance, the pins that failed in each point begun, and whether its last instance has ended. -/
structure Sweep where
  first : Nat
  points : List Word
  ended : Bool
  deriving DecidableEq, Repr, Inhabited

/-- Running sums of one stamp channel (R443), in units of 0.25 ps. -/
structure Stamps where
  n : Nat
  lastT : Int
  sumT : Int
  sumKT : Int
  sumTT : Int
  edges : Nat
  /-- Instant of the latest qualified edge, from power-on in units of 0.25 ps (R430). -/
  lastEdge : Option Int
  deriving DecidableEq, Repr, Inhabited

def Stamps.reset : Stamps :=
  { n := 0, lastT := 0, sumT := 0, sumKT := 0, sumTT := 0, edges := 0, lastEdge := none }

/-- A measurement of a TMU (R427 to R446). -/
structure TmuJob where
  mode : Nat
  srcA : Byte
  srcB : Byte
  slopeA : Nat
  slopeB : Nat
  holdA : Nat
  holdB : Nat
  startN : Nat
  stopN : Nat
  prescale : Nat
  gateNs : Nat
  startNs : Nat
  late : Bool
  gateOpen : Bool
  gateClosed : Bool
  gateTime : Nat
  /-- Instant of the gate opening from power-on, in units of 0.25 ps. -/
  gateAt : Nat
  a : Stamps
  b : Stamps
  startStamp : Option Int
  stopCount : Nat
  interval : Option Int
  stampLimit : Bool
  cause : Nat
  waiter : Option ReplyTo
  deriving DecidableEq, Repr, Inhabited

/-- A measurement of the PMU (R363). -/
structure PmuJob where
  pin : Nat
  mode : Nat
  range : Nat
  force : Int
  settleUs : Nat
  apertureUs : Nat
  samples : Nat
  startNs : Nat
  late : Bool
  started : Bool
  timeNs : Nat
  /-- The pin is reserved for the PMU (R357). -/
  reserved : Bool
  waiter : Option ReplyTo
  deriving DecidableEq, Repr, Inhabited

/-- Ports of the pattern memory controller (R469). -/
inductive Port where
  | fetch | capture | hostLoad | scratch | migration
  deriving DecidableEq, Repr, Inhabited

/-- A request pending in the controller (R469 to R473). -/
structure DramReq where
  port : Port
  line : Nat
  write : Bool
  /-- `clock` of the channel when the request came. -/
  age : Nat
  /-- Half the latency target has passed (HIGH), and all of it has (CRITICAL), for a fetch (R471). -/
  high : Bool
  critical : Bool
  promoted : Bool
  /-- The signature whose data or table the line holds. -/
  sig : Nat
  /-- The release sequence of the chunk the line belongs to. -/
  seq : Nat
  /-- Retries of a write (R466), and replays of the command (R467). -/
  retries : Nat
  replays : Nat
  deriving DecidableEq, Repr, Inhabited

/-- A same-bank refresh or a refresh-management command that blocks banks from one value of the channel's clock to another (R476): a bank index of a physical rank, or the one bank of a key. -/
structure BankBlock where
  rank : Nat
  bank : Nat
  only : Option Nat
  since : Nat
  till : Nat
  deriving DecidableEq, Repr, Inhabited

/-- Physical rank states (R506). -/
inductive RankState where
  | active | spare | retired | failed
  deriving DecidableEq, Repr, Inhabited

/-- The pattern memory channel of a quire (R457 to R507). -/
structure Dram where
  available : Bool
  spareOk : Bool
  migrating : Bool
  hotRefresh : Bool
  /-- 1 = set B. -/
  rateSet : Bool
  changing : Option Bool
  trainResult : Nat
  ranks : Vector RankState 3
  physL0 : Nat
  physL1 : Nat
  /-- The board record of the channel, as loaded (R459). -/
  board : Word
  /-- Bytes of the active space; unlisted bytes read as the log names. -/
  mem : Sparse Byte
  /-- Lines that hold the poison code (R495). -/
  poison : List Nat
  queue : List DramReq
  /-- Requests issued, whose data has not returned, in order of issue. -/
  issued : List DramReq
  /-- The open row of each bank of each physical rank and sub-channel. -/
  openRows : Sparse Nat
  /-- Refreshes postponed, by physical rank. -/
  postponed : Vector Nat 3
  /-- Forced refreshes due before any request, by physical rank. -/
  forced : Vector Bool 3
  /-- MR4 reads in a row without a rank above 85 °C (R477). -/
  coolReads : Nat
  /-- Activation tables: bank key to its entries (row, count). -/
  tables : Sparse (List (Nat × Nat))
  /-- Refresh-management commands owed: (bank key, row), and forced ones. -/
  rfm : List (Nat × Nat)
  rfmForced : List (Nat × Nat)
  /-- The logical rank that migrates and the next line index within it. -/
  migrateRank : Nat
  migrateNext : Nat
  /-- An injected error started the migration (R787). -/
  migrateInjected : Bool
  /-- By how much DQS drift has moved the read and write delays of the PHY, by physical rank, and the moves that wait for a refresh of the rank (R494). -/
  phyRead : List Int
  phyWrite : List Int
  phyDue : List (Int × Int)
  /-- The last command issued, if it was a refresh or a refresh-management command: its physical rank and its replays (R467). -/
  lastOther : Option (Nat × Nat)
  /-- Elapsed ticks of 1 ns, as `Time.ticks`: the clock that requests are aged by. -/
  clock : Nat
  /-- An all-bank refresh blocks the physical rank until this value of `clock` (R476, R480). -/
  blockedUntil : Vector Nat 3
  bankBlocks : List BankBlock
  deriving DecidableEq, Repr, Inhabited

/-- Log entries 15, 18: DESIGN CHOICE. -/
def Dram.reset : Dram :=
  { available := false, spareOk := false, migrating := false, hotRefresh := false, rateSet := false, changing := none,
    trainResult := 0, ranks := .replicate 3 .failed, physL0 := 0, physL1 := 1, board := 0, mem := [], poison := [], queue := [],
    issued := [], openRows := [], postponed := .replicate 3 0, forced := .replicate 3 false, coolReads := 0, tables := [],
    rfm := [], rfmForced := [], migrateRank := 0, migrateNext := 0, migrateInjected := false, phyRead := [0, 0, 0], phyWrite := [0, 0, 0], phyDue := [(0, 0), (0, 0), (0, 0)], lastOther := none,
    clock := 0, blockedUntil := .replicate 3 0, bankBlocks := [] }

/-- The commands that occupy a quire until they reply (R589). -/
inductive Occupier where
  | collate (dest : ReplyTo)
  | arm (dest : ReplyTo)
  | rebind (dest : ReplyTo)
  | selftest (dest : ReplyTo) (tests : Word)
  | loadCheck (dest : ReplyTo)
  /-- A committed collation whose changed `VPIN_SET` settles (R315), with the time that it had taken at its commit, in ns, and the tick of the commit. -/
  | settle (dest : ReplyTo) (elapsedNs : Nat) (since : Nat)
  /-- The quire's part of a command on several quires has ended, and the command has not replied (R589). -/
  | ended (dest : ReplyTo)
  deriving DecidableEq, Repr, Inhabited

/-- A stop of the quire that takes effect at the next boundary (R110, R618). -/
structure StopReq where
  cause : StopCause
  /-- REBIND: enter STAGED. -/
  rebind : Bool
  waiter : Option ReplyTo
  deriving DecidableEq, Repr, Inhabited

/-- Severities of a report (R749). -/
inductive Severity where
  | alert | quire | chip
  deriving DecidableEq, Repr, Inhabited

/-- A report of a checker to the fault collector (R749, R751). -/
structure Report where
  severity : Severity
  checker : Nat
  /-- The quire of the report; `none` for the chip. -/
  quire : Option QId
  /-- Quires a report of a chip-scope checker acts on (R754). -/
  acts : List QId
  element : Byte
  cause : Byte
  detail : BitVec 24
  injected : Bool
  timeNs : Nat
  timeValid : Bool
  deriving DecidableEq, Repr, Inhabited

/-- An error record (R759). -/
structure ErrRec where
  report : Report
  transient : Bool
  read : Bool
  reports : Word
  logSeq : Word
  deriving DecidableEq, Repr, Inhabited

/-- An injection that waits for its checks (R772). -/
structure Injection where
  checker : Nat
  element : Nat
  left : Nat
  /-- Checks made so far (R862). -/
  made : Nat
  deriving DecidableEq, Repr, Inhabited

/-- The derived work of a collation or of a checked load (R85, R112, R202, R612): its class 2 items (R145). -/
structure Derivation where
  /-- The signatures that take items, those whose items are not all created, and the next item of the first of these. -/
  sigs : List Nat
  todo : List Nat
  next : Nat
  /-- The items work on the staging copy (a collation), not on the committed one (a load). -/
  staged : Bool
  /-- Items in the matching store whose reads have not been requested (R475). -/
  unasked : List Nat
  /-- Writes of the checksum table that wait for room in the engine-scratch queue: line, signature and item (R203, R475). -/
  unwritten : List (Nat × Nat × Nat)
  /-- The chunks made: those of precompute items, and the landing heads. -/
  made : List Chunk
  /-- The signature of the first item that failed (R186, R498). -/
  failed : Option Nat
  deriving DecidableEq, Repr, Inhabited

/-- STREAM data in the window (R139, R857). -/
structure StreamChunk where
  sig : Nat
  /-- The instance of the signature that the chunk belongs to (R199). -/
  inst : Word
  /-- The chunk, or 0xFFFF_FFFF for a codec head packet. -/
  index : Nat
  crc : Word
  data : List Byte
  deriving DecidableEq, Repr, Inhabited

/-- A read of the raw DRAM region that waits for the end of a change of set (R397, R488): where it begins, its bytes, and how the lines come back. -/
structure RawRead where
  dest : ReplyTo
  start : Nat
  bytes : Nat
  lines : List LineRead
  deriving DecidableEq, Repr, Inhabited

/-- One quire (R26). -/
structure Quire where
  state : QState
  stopCause : StopCause
  /-- The start time of a pending START (R625). -/
  startPending : Option Nat
  pausePending : Bool
  /-- PAUSED by the host, or by starved data (R133, R135). -/
  hostPaused : Bool
  resumePending : Bool
  vpinOk : Bool
  /-- VPINq has been in window for 1 ms (R40, R838). -/
  vpinHeld : Bool
  owner : Option LinkId
  /-- Counters, results and other live words; their keys are configuration addresses within the quire. -/
  live : Regs
  staging : Regs
  committed : Option Regs
  /-- Bits of `STAGE_DIRTY` and `STAGE_SEALED` (R610, R639). -/
  dirty : Word
  sealedPages : Word
  /-- Values written to `PAGE_CRC` since the staging copy was made, by page (R608). -/
  crcWritten : Sparse (Option Word)
  /-- A commit has been made since the quire's reset (R611). -/
  everCommitted : Bool
  occupied : Option Occupier
  /-- A SELFTEST in progress whose reply has been sent (R635). -/
  selftest : Option Word
  stopReq : Option StopReq
  stopWaiters : List ReplyTo
  /-- Signature buffers (R26), byte by byte. -/
  sram : Sparse Byte
  sigs : Sparse SigState
  seq : Sequencer
  -- dispatch
  engines : Sparse Engine
  /-- The matching store and the ready list, in order (R205, R207). -/
  store : List Item
  ready : List Item
  delay : List Item
  slots : List Slot
  nextSeq : Nat
  releasePtr : Nat
  /-- The sequencer, and the background services, are held back (R222, R223). -/
  held : Bool
  heldBg : Bool
  /-- A STREAM packet of the quire is held back by its full window (R222, R223). -/
  heldStream : Bool
  /-- The class 3 items that wait for the full delay list, by their numbers (R222, R223). -/
  heldDelay : List Nat
  /-- Output of the copy of a repair step that has ended first, by the step's number (R239, R409). -/
  bgOutputs : List (Nat × List DWord)
  /-- The class 2 items of the occupying COLLATE or LOAD_SIGNATURE (R145). -/
  derivation : Option Derivation
  useClock : Nat
  hotZones : BitVec 4
  -- timing front
  /-- Chunks in the event FIFOs, in play order. -/
  fifo : List Chunk
  /-- What is at the pins, and what was before it, whose compare results may still arrive (R370). -/
  playing : Option Play
  recent : List Play
  /-- A run of skipped chunks is in progress (R138). -/
  skipping : Bool
  /-- Vector count from the run origin and its start in units of 0.25 ps (R267). -/
  vecCount : Nat
  originNs : Nat
  /-- The run origin, from power-on in units of 0.25 ps (R687). -/
  originAt : Nat
  elapsed : Nat
  fillLow : Nat
  pins : List Drive
  /-- Drive edges launched whose time lies beyond the vectors laid out, in order (R268, R288, R290). -/
  spilled : List PinEvent
  /-- A park profile to be taken, and its instant from power-on in units of 0.25 ps (R275). -/
  parkDue : Option (Nat × Nat)
  termOn : Word
  endpaper : Endpaper
  retrim : Option Retrim
  markers : List Marker
  /-- Chunks in a row with a mismatch, by pin; endpaper as 32 (R741). -/
  edgeBad : Sparse Nat
  -- pin electronics
  /-- The set point of VPINq in mV, the commanded voltage from which its ramp began, and the elapsed tick at which it began (R312, R313). -/
  vpinSetpoint : Nat
  vpinFrom : Nat
  vpinSince : Nat
  vpinMv : Nat
  /-- A real excursion of VPINq is under way (R756), and the tick since which VPINq has been in window (R315). -/
  vpinOut : Bool
  vpinGood : Nat
  /-- The last readback sample of the pin failed (R342). -/
  rbFailed : Word
  /-- Pins whose clamp carries more than 50 mA (R333, R756). -/
  overloaded : Word
  pmu : Option PmuJob
  tmus : Vector (Option TmuJob) 8
  -- capture
  insts : List Inst
  nextInstId : Nat
  /-- The tick at which an instance last left play (R745). -/
  playedAt : Option Nat
  verdicts : List VRec
  nextRec : BitVec 16
  run : RunVerdict
  firstN : List FailRec
  nextFirstN : BitVec 16
  failQueue : List FailEntry
  bitmap : List Nat
  rawBuf : List RawRec
  raw : List RawRec
  nextRaw : BitVec 16
  regions : Sparse Region
  sweep : Option Sweep
  /-- Sweeps that have ended, newest first; results of their compares may still arrive (R370). -/
  pastSweeps : List Sweep
  eyeOffsets : List Int
  /-- `CENTRE`s added to strobes for the rest of the run (R424). -/
  applied : List Int
  lastMatch : Option (Bool × Nat)
  stream : List StreamChunk
  /-- Codec head packets of the STREAM instances whose first chunk has been released (R630). -/
  streamHeads : List StreamChunk
  /-- The last READ_VERDICT of each session: its link, session and tag, and the instances whose records it returned (R633). -/
  verdictRead : List ((LinkId × BitVec 16 × BitVec 16) × List Nat)
  -- channel
  dram : Dram
  rawReads : List RawRead
  /-- `SRAM_ONLY` of `DRAM_STATUS` as the last commit left it (R485, R507). -/
  sramShown : Bool
  -- faults
  faultCause : Byte
  qfSticky : BitVec 9
  satPages : Word
  firstError : Option ErrRec
  secondError : Option ErrRec
  injections : List Injection
  -- governor
  reserveMw : Nat
  reserved : Bool
  floorMv : Nat
  trimMv : Nat
  highFill : Nat
  lowestFill : Nat
  -- calibration
  /-- Pins 0 to 31 and the endpaper as 32: `MENDED`, `TRIM_FAIL`, `LAST_DAC`, `CAL_COUNT`, calibration time. -/
  cal : List CalElem
  fences : BitVec 128
  deriving DecidableEq, Repr

/-- Log entries 15, 17, 18: DESIGN CHOICE. -/
def Quire.reset : Quire :=
  { state := .off, stopCause := .none, startPending := none, pausePending := false, hostPaused := false, resumePending := false,
    vpinOk := false, vpinHeld := false, owner := none, live := [(0x1100238, 0xFFFFFFFF#32)], staging := [], committed := none, dirty := 0, sealedPages := 0, crcWritten := [],
    everCommitted := false, occupied := none, selftest := none, stopReq := none, stopWaiters := [], sram := [], sigs := [], seq := .reset,
    engines := [], store := [], ready := [], delay := [], slots := [], nextSeq := 0, releasePtr := 0, held := false, heldBg := false, heldStream := false, heldDelay := [], bgOutputs := [], derivation := none, useClock := 0,
    hotZones := 0, fifo := [], playing := none, recent := [], skipping := false, vecCount := 0, originNs := 0, originAt := 0,
    elapsed := 0, fillLow := 0, pins := List.replicate 32 .highZ, spilled := [], parkDue := none, termOn := 0,
    endpaper := { phase := .idle, pin := 0, forced := false, comparing := false, drives := none, compared := none }, retrim := none,
    markers := List.replicate 2 .reset, edgeBad := [], vpinSetpoint := 1200, vpinFrom := 1200, vpinSince := 0, vpinMv := 0, vpinOut := false, vpinGood := 0, rbFailed := 0, overloaded := 0,
    pmu := none, tmus := .replicate 8 none, insts := [], nextInstId := 0, playedAt := none, verdicts := [], nextRec := 0, run := .reset, firstN := [],
    nextFirstN := 0, failQueue := [], bitmap := [], rawBuf := [], raw := [], nextRaw := 0, regions := [], sweep := none, pastSweeps := [],
    eyeOffsets := List.replicate 32 0, applied := List.replicate 32 0, lastMatch := none, stream := [], streamHeads := [],
    verdictRead := [], dram := .reset, rawReads := [], sramShown := false, faultCause := 0, qfSticky := 0, satPages := 0, firstError := none,
    secondError := none, injections := [], reserveMw := 0, reserved := false, floorMv := 0, trimMv := 0, highFill := 0, lowestFill := 32768,
    cal := List.replicate 33 .reset, fences := 0 }

/-- A completed command in the retry window (R583). -/
structure Completed where
  tag : BitVec 16
  opcode : Byte
  /-- `none`: an accepted STREAM_DATA without `ACK_REQ`, which sent none (R632). -/
  reply : Option Reply
  deriving DecidableEq, Repr, Inhabited

/-- The session of a link (R593 to R602). -/
structure Session where
  isOpen : Bool
  steward : Bool
  holding : Bool
  handle : BitVec 16
  generation : BitVec 13
  /-- Tag, opcode and `QMASK` of the commands in progress (R586). -/
  inProgress : List (BitVec 16 × Byte × Byte)
  completed : List Completed
  frozen : Bool
  deriving DecidableEq, Repr, Inhabited

def Session.reset : Session :=
  { isOpen := false, steward := false, holding := false, handle := 0, generation := 0, inProgress := [], completed := [], frozen := false }

/-- `STATE` of a link (R528). -/
inductive LinkPhase where
  | down | training | up | changing
  deriving DecidableEq, Repr, Inhabited

/-- A width change of the chip or of the host (R551). -/
structure WidthChange where
  mask : Byte
  at_ : BitVec 12
  fromChip : Bool
  /-- The chip's proposal has gone out (R553). -/
  sent : Bool
  acked : Bool
  /-- The direction to the host, and the one from it, stripe over the new mask (R551). -/
  txDone : Bool
  rxDone : Bool
  /-- Proposals sent anew for want of an acknowledgement (R552). -/
  attempts : Nat
  deriving DecidableEq, Repr, Inhabited

/-- One class of a link's traffic (R534, R540 to R547). -/
structure ClassState where
  /-- Flits that the host grants the chip, and flits that the host has freed since (R544). -/
  granted : Nat
  freedByHost : Nat
  sent : Nat
  txSeq : Byte
  /-- Packets to send, and the bytes of the first one that are sent already. -/
  txQueue : List (List Byte)
  txDone : Nat
  /-- Flits that the chip grants the host (R543), flits accepted, and flits freed since (R545). -/
  ourGrant : Nat
  received : Nat
  freed : Nat
  rxSeq : Byte
  /-- The packet being assembled and its flits so far. -/
  assembling : Option (List Byte × Nat)
  /-- After a gap in `SEQ`, flits are dropped up to the next `SOP` (R540). -/
  dropping : Bool
  /-- Packets waiting in the link buffer, oldest first: their bytes and flits. -/
  packets : List (List Byte × Nat)
  deriving DecidableEq, Repr, Inhabited

def ClassState.reset : ClassState :=
  { granted := 0, freedByHost := 0, sent := 0, txSeq := 0, txQueue := [], txDone := 0, ourGrant := 0, received := 0, freed := 0, rxSeq := 0,
    assembling := none, dropping := false, packets := [] }

/-- A host link (R523 to R548). -/
structure Link where
  isDefined : Bool
  base : Nat
  width : Nat
  phase : LinkPhase
  txEi : Bool
  rxEi : Bool
  /-- The lanes over which the two directions stripe (R526, R551): to the host, and from it. -/
  inService : Byte
  rxService : Byte
  /-- Classes CTRL, BULK, STREAM, TIME. -/
  classes : Vector ClassState 4
  /-- LINK messages to send: their payload bytes from byte 4 on (R548). -/
  linkTx : List (List Byte)
  bulkTurn : Bool
  creditClass : Fin 4
  change : Option WidthChange
  /-- Flits chosen for codewords not yet sent, by lane of the chip, oldest first (R526). -/
  txSlot : List (Nat × List (List Byte))
  /-- The phase of training, 1 to 6, that the commands so far show; 0 outside TRAINING (R529). -/
  trainPhase : Nat
  deriving DecidableEq, Repr, Inhabited

/-- Log entry 15: DESIGN CHOICE. -/
def Link.reset : Link :=
  { isDefined := false, base := 0, width := 0, phase := .down, txEi := false, rxEi := false, inService := 0, rxService := 0, classes := .replicate 4 .reset,
    linkTx := [], bulkTurn := false, creditClass := 0, change := none, txSlot := [], trainPhase := 0 }

/-- `STATE` of a lane (R571). -/
inductive LanePhase where
  | down | training | inLink | out | testing | failed | retraining
  deriving DecidableEq, Repr, Inhabited

/-- A lane test in progress (R567). -/
structure LaneTest where
  pattern : Nat
  mode : Nat
  durationUs : Nat
  inject : Nat
  waiter : Option ReplyTo
  /-- The generator's place in the pattern, the symbols sent, those received, and the last 64 received, newest last (R567, R568). -/
  gen : Nat
  sent : Nat
  received : Nat
  recent : List (Fin 4)
  /-- The place in the pattern of the next symbol, once the checker has lock, and whether it came within the first 1 µs (R568). -/
  place : Option Nat
  inTime : Bool
  /-- The state to return to. -/
  back : LanePhase
  deriving DecidableEq, Repr, Inhabited

/-- A codeword sent on a lane (R515, R516, R570), with the symbols on the line (R511, R512). -/
structure TxCodeword where
  header : BitVec 20
  flits : List (List Byte)
  corrupted : Nat
  line : List (Fin 4)
  deriving DecidableEq, Repr, Inhabited

/-- A host lane (R508 to R522, R549 to R571). -/
structure Lane where
  phase : LanePhase
  rxPrecode : Bool
  txPrecode : Bool
  lock : Bool
  signal : Bool
  attempts : Nat
  /-- The chip's receive CTLE in steps of 0.5 dB and its 12 DFE taps in steps of `Config.dfeSteps` to the amplitude; the transmit taps c-2, c-1 and c+1 in 64ths (R520). -/
  ctle : Byte
  dfe : List Int
  ffe : Fin 10 × Fin 20 × Fin 20
  /-- The transmit taps that the chip's receiver requests of the host (R520, R529). -/
  request : Fin 10 × Fin 20 × Fin 20
  eyeMv : Byte
  /-- When adaptation last moved a setting (R521), in ticks. -/
  adapted : Nat
  /-- The last symbol sent and the last received, which precoding goes on from (R512). -/
  txLast : Fin 4
  rxLast : Fin 4
  /-- The lane has retrained and waits for the width change that adds it (R550). -/
  ready : Bool
  /-- Consecutive valid headers of a lane without lock, and headers not valid of one with it (R517). -/
  goodHeaders : Nat
  badHeaders : Nat
  /-- `CW_SEQ` expected next, once a codeword has come; and that of the next codeword sent. -/
  rxSeq : Option (BitVec 12)
  txSeq : BitVec 12
  /-- Codewords received and not yet put in link order: their `CW_SEQ` and flits, none of a dropped one (R527). -/
  rxQueue : List (BitVec 12 × List (List Byte))
  /-- The state that the lane takes when a width change has removed it from its link (R550, R557). -/
  leave : Option LanePhase
  /-- The lane was FAILED when `OUT` took it (R554, R557). -/
  wasFailed : Bool
  /-- The codewords of the last 1 ms in service, newest first: the tick of each, and its corrected symbols, none for an uncorrectable one (R549). -/
  lastMs : List (Nat × Option Nat)
  /-- The tick at which the host's direction went idle, with `CW_SEQ` running on (R560). -/
  idleSince : Option Nat
  /-- The wake pattern last sent (R561). -/
  wake : List (Fin 4)
  testValid : Bool
  test : Option LaneTest
  fecPeak : Nat
  txCount : Nat
  lastTx : Option TxCodeword
  deriving DecidableEq, Repr, Inhabited

def Lane.reset : Lane :=
  { phase := .down, rxPrecode := false, txPrecode := false, lock := false, signal := false, attempts := 0, ctle := 0, dfe := List.replicate 12 0, ffe := (0, 0, 0), request := (0, 0, 0), eyeMv := 0, adapted := 0, txLast := 0, rxLast := 0, ready := false,
    goodHeaders := 0, badHeaders := 0, rxSeq := none, txSeq := 0, rxQueue := [], leave := none, wasFailed := false, lastMs := [], idleSince := none, wake := [], testValid := false, test := none, fecPeak := 0, txCount := 0, lastTx := none }

/-- States of a judged source (R645). -/
inductive SrcState where
  | judging | good | failed
  deriving DecidableEq, Repr, Inhabited

/-- `TIMING_SRC` (R698). -/
inductive TimingSrc where
  | none | recovered | xo
  deriving DecidableEq, Repr, Inhabited

/-- `DOMAIN` (R698). -/
inductive Domain where
  | running | stopping | stopped | locking
  deriving DecidableEq, Repr, Inhabited

/-- Clock sources and the timing domain (R640 to R659). -/
structure Clock where
  timingSrc : TimingSrc
  domain : Domain
  xo : SrcState
  recovered : SrcState
  ctrlOnLro : Bool
  recPpm : BitVec 16
  xoWindows : Nat
  recWindows : Nat
  /-- The source that step 2 of R653 takes if it can, by the cause of the stop (R656), and the source before the stop. -/
  next : TimingSrc
  lastSrc : TimingSrc
  /-- An injected report caused the stop of the timing domain (R787). -/
  stopInjected : Bool
  /-- The first adoption of REC has been made (R658). -/
  adoptedOnce : Bool
  /-- The XO has been GOOD since the start of boot: the checker of R651 is armed (R834). -/
  xoArmed : Bool
  deriving DecidableEq, Repr, Inhabited

def Clock.reset : Clock :=
  { timingSrc := .none, domain := .stopped, xo := .judging, recovered := .judging, ctrlOnLro := true, recPpm := 0x8000, xoWindows := 0,
    recWindows := 0, next := .none, lastSrc := .none, stopInjected := false, adoptedOnce := false, xoArmed := false }

/-- `SYNC_STATE` (R700). -/
inductive SyncState where
  | off | wait | acquire | locked
  deriving DecidableEq, Repr, Inhabited

/-- A stamp of a time message: ns and 2^-16 ns (R670). -/
structure Stamp where
  ns : Nat
  frac : BitVec 16
  deriving DecidableEq, Repr, Inhabited

/-- An entry of a transmit timestamp queue (R674). -/
structure TsqEntry where
  msgType : BitVec 4
  seqId : BitVec 16
  stamp : Stamp
  deriving DecidableEq, Repr, Inhabited

/-- Time transfer on a link (R668 to R676). -/
structure Ptp where
  /-- The last Sync: sequence, correction, t2. -/
  syncMsg : Option (BitVec 16 × Int × Stamp)
  /-- A completed Sync: sequence, t1 in ns, corrections, t2. -/
  completed : Option (BitVec 16 × Int × Int × Stamp)
  /-- Delay_Reqs due, one for each Follow_Up that completed a Sync (R671). -/
  dreqDue : Nat
  dreqSeq : BitVec 16
  dreq : Option (BitVec 16 × Stamp)
  tsq : List TsqEntry
  exchValid : Bool
  exchSeq : BitVec 16
  offset : Int
  delay : Int
  t2 : Stamp
  deriving DecidableEq, Repr, Inhabited

def Ptp.reset : Ptp :=
  { syncMsg := none, completed := none, dreqDue := 0, dreqSeq := 0, dreq := none, tsq := [], exchValid := false, exchSeq := 0,
    offset := 0, delay := 0, t2 := { ns := 0, frac := 0 } }

/-- A TIME_SET or TIME_ADJ that waits for the next tick (R662, R663, R865). -/
inductive TimeChange where
  | set (ns : Nat)
  | adj (increment : BitVec 40)
  /-- A kettle time load (R695): chip time when bit 0 of its frame came, in units of 2^-32 ns, and how long before the stop of the timing domain, and after its end before its restart, that was, in units of 0.25 ps. -/
  | load (total : Nat) (before : Int)
  deriving DecidableEq, Repr, Inhabited

/-- How chip time ran up to an instant from power-on in units of 0.25 ps: what it came to there, in units of 2^-32 ns, and its increment (R660, R661). -/
structure TimeLaw where
  till : Nat
  total : Nat
  increment : Nat
  deriving DecidableEq, Repr, Inhabited

/-- Chip time (R660 to R667) and SYNC (R677 to R683) and the kettle chain (R692 to R697). -/
structure Time where
  /-- Ticks of 1 ns since power-on: the model's own measure of elapsed time (log entry 9). -/
  ticks : Nat
  /-- How chip time ran before each step or change of its increment, newest first (log entry 167). -/
  past : List TimeLaw
  ns : Nat
  frac : Nat
  increment : Nat
  valid : Bool
  validBefore : Bool
  pending : List TimeChange
  /-- The latched words `TIME1`, `TIME2` and `TIME_FRAC` (R699). -/
  latched : Word × Word × Word
  syncState : SyncState
  syncError : Int
  misses : Nat
  /-- The instant at which the last pulse on `SYNC_OUT` began, from power-on in units of 0.25 ps (R678). -/
  syncOut : Option Nat
  kcHop : Byte
  kcRingHops : Byte
  kcRoundNs : Word
  /-- The frame driven on `KCO`. -/
  kco : Option (BitVec 96)
  pingOut : Bool
  ptp : Vector Ptp 8
  deriving DecidableEq, Repr, Inhabited

/-- Log entry 18: DESIGN CHOICE. -/
def Time.reset : Time :=
  { ticks := 0, past := [], ns := 0, frac := 0, increment := 2 ^ 32, valid := false, validBefore := false, pending := [], latched := (0, 0, 0), syncState := .off,
    syncError := 0, misses := 0, syncOut := none, kcHop := 0, kcRingHops := 0, kcRoundNs := 0, kco := none,
    pingOut := false, ptp := .replicate 8 .reset }

/-- `RAIL_STATE` (R737). -/
inductive RailState where
  | ok | fault | unreachable | absent
  deriving DecidableEq, Repr, Inhabited

/-- A metered rail (R737). -/
structure RailView where
  present : Bool
  addr : BitVec 7
  temp : Int
  vout : Nat
  iout : Nat
  state : RailState
  status : BitVec 16
  deriving DecidableEq, Repr, Inhabited

/-- Log entry 15: DESIGN CHOICE. -/
def RailView.reset : RailView :=
  { present := false, addr := 0, temp := 0, vout := 0, iout := 0, state := .absent, status := 0 }

/-- A transaction of the PMBus master (R729, R730, R732): the rail and its address, the command, and whether the regulator answers with data; of a write its data, lowest byte first, and the packet error check behind it;
the bus clock in kHz, and how often it was tried. -/
structure PmFrame where
  rail : Nat
  addr : BitVec 7
  code : Byte
  reads : Bool
  data : List Byte
  pec : Option Byte
  kHz : Nat
  tries : Nat
  deriving DecidableEq, Repr, Inhabited

/-- A START that waits for VCORE (R718), and the quires whose reservation it made (R712). -/
structure StartWait where
  dest : ReplyTo
  mask : Byte
  newly : Byte
  deriving DecidableEq, Repr, Inhabited

/-- The Plume governor (R701 to R737). -/
structure Governor where
  overCap : Bool
  thermalHold : Bool
  vcoreUnreachable : Bool
  emergency : Bool
  hotSensor : Nat
  hotTemp : Int
  vcoreMeas : Nat
  chipPower : Nat
  temps : List Int
  peaks : List (Option Int)
  /-- Consecutive readings above `T_HARD`, by sensor; consecutive cycles above 125 W (R723). -/
  hardCount : List Nat
  overCount : Nat
  marked : BitVec 16
  rails : List RailView
  waiting : List StartWait
  cycles : Nat
  /-- The transactions of the PMBus master, oldest first (R729, R730). -/
  bus : List PmFrame
  /-- The setpoint in mV last commanded of each rail since start-up (R312, R718, R730). -/
  setpoints : List (Option Nat)
  deriving DecidableEq, Repr, Inhabited

/-- Log entry 15: DESIGN CHOICE. -/
def Governor.reset : Governor :=
  { overCap := false, thermalHold := false, vcoreUnreachable := false, emergency := false, hotSensor := 0, hotTemp := 0,
    vcoreMeas := 850, chipPower := 0, temps := List.replicate 16 0, peaks := List.replicate 16 none,
    hardCount := List.replicate 16 0, overCount := 0, marked := 0, rails := List.replicate 9 .reset, waiting := [], cycles := 0, bus := [], setpoints := List.replicate 9 none }

/-- An entry of the Sinter log (R787). -/
structure LogEntry where
  seq : Nat
  timeNs : Nat
  code : Byte
  source : Nat
  quire : BitVec 4
  injected : Bool
  timeInvalid : Bool
  detail0 : Word
  detail1 : Word
  detail2 : Word
  deriving DecidableEq, Repr, Inhabited

/-- The Sinter log (R780 to R784). -/
structure SinterLog where
  entries : List LogEntry
  lost : Word
  frozenDropped : Word
  suppressed : Sparse Word
  /-- Tokens taken from each code's bucket and not yet refilled (R783). -/
  taken : Sparse Nat
  deriving DecidableEq, Repr, Inhabited

def SinterLog.reset : SinterLog := { entries := [], lost := 0, frozenDropped := 0, suppressed := [], taken := [] }

/-- A calibration bank of the flash (R809): generation, board record words, and per quire the factory sets and the corrections, counts and times of its pins and endpaper. -/
structure CalBank where
  valid : Bool
  generation : Nat
  dram : List Word
  rails : List Word
  lanes : List Word
  mended : List Word
  cal : List (List CalElem)
  /-- The factory sets of each quire's elements, five each, where the bank lists them; of an element that it does not list it holds those of `Config.factoryTarget` (R792). Log entry 141: DESIGN CHOICE. -/
  factory : List (List (List Trim))
  deriving DecidableEq, Repr, Inhabited

/-- A patch slot of the flash (R818 to R820). -/
structure PatchSlot where
  image : List Byte
  generation : Nat
  isActive : Bool
  isStaged : Bool
  deriving DecidableEq, Repr, Inhabited

/-- The flash (R809): it survives every reset. -/
structure Flash where
  partition : List Word
  banks : Vector CalBank 2
  slots : Vector PatchSlot 2
  deriving DecidableEq, Repr, Inhabited

def CalBank.erased : CalBank := { valid := false, generation := 0, dram := [], rails := [], lanes := [], mended := [], cal := [], factory := [] }

/-- The bank the model places in the flash at reset (log entry 8). -/
def CalBank.fitted : CalBank :=
  { valid := true, generation := 1, dram := List.replicate 8 0x23000007#32,
    rails := (List.range 9).map fun r => BitVec.ofNat 32 (0x80000000 + 0x20 + r), lanes := List.replicate 16 0#32,
    mended := List.replicate 8 0#32, cal := List.replicate 8 (List.replicate 33 { mended := false, trimFail := false, lastDac := true, count := 1, timeNs := 0, trim := ⟨[], []⟩ }), factory := [] }

/-- Log entry 8: DESIGN CHOICE. -/
def PatchSlot.erased : PatchSlot := { image := [], generation := 0, isActive := false, isStaged := false }

/-- Log entry 8: DESIGN CHOICE. -/
def Flash.reset : Flash :=
  { partition := [], banks := #v[.fitted, .erased], slots := .replicate 2 .erased }

/-- Boundary-scan instructions in force (R851). -/
inductive ScanInstr where
  | extest | idcode | samplePreload | extestPulse | extestTrain | clamp | highz | bootStatus | bypass
  deriving DecidableEq, Repr, Inhabited

/-- Boot, reset and boundary scan (R827 to R838, R851 to R855). -/
structure Boot where
  /-- `STEP` of `BOOT_STATUS`: 0 in internal reset, 1 to 8, 9 complete. -/
  step : Nat
  ms : Nat
  linksUp : Byte
  xoGood : Bool
  patchNone : Bool
  storeInvalid : Bool
  partitionDefault : Bool
  resetNLow : Bool
  railFallen : Bool
  vsramFallen : Bool
  scan : ScanInstr
  deriving DecidableEq, Repr, Inhabited

def Boot.reset : Boot :=
  { step := 0, ms := 0, linksUp := 0, xoGood := false, patchNone := false, storeInvalid := false, partitionDefault := false,
    resetNLow := true, railFallen := false, vsramFallen := true, scan := .idcode }

/-- The Spine and its patch banks (R637, R816 to R821, R639). -/
structure Spine where
  restarting : Bool
  /-- An injected check caused the machine check (R787). -/
  checkInjected : Bool
  /-- SPINE_RESTART waiting for occupying commands, and whether it takes the staged bank. -/
  restartWanted : Option (Option ReplyTo × Bool)
  stagedValid : Bool
  activeBank : Bool
  patchNone : Bool
  patchSlot : Bool
  patchGeneration : Nat
  stagedImage : List Byte
  stagedSize : Nat
  patchWaiter : Option ReplyTo
  deriving DecidableEq, Repr, Inhabited

/-- Log entry 15: DESIGN CHOICE. -/
def Spine.reset : Spine :=
  { restarting := false, checkInjected := false, restartWanted := none, stagedValid := false, activeBank := false, patchNone := true, patchSlot := false,
    patchGeneration := 0, stagedImage := [], stagedSize := 0, patchWaiter := none }

/-- A SNAPSHOT that waits for its time (R690). -/
structure SnapWait where
  dest : ReplyTo
  mask : Byte
  atNs : Nat
  deriving DecidableEq, Repr, Inhabited

/-- A command on several quires whose reply waits for some of them (R623): the quires still owed, and per quire its status and detail. -/
structure MaskWait where
  dest : ReplyTo
  waiting : Byte
  status : List (Byte × BitVec 16)
  records : List (List Byte)
  deriving DecidableEq, Repr, Inhabited

/-- A selection that tracking has changed and that is not in force yet (R795): its quire and element, and the selections to take effect. -/
structure Reselect where
  quire : Nat
  element : Nat
  trim : Trim
  deriving DecidableEq, Repr, Inhabited

/-- The calibration store as loaded (R815). -/
structure CalStore where
  commitBusy : Option ReplyTo
  storeValid : Bool
  bank : Bool
  generation : Nat
  commitTime : Nat
  /-- The sensor readings that the present selections rest on, in units of 1/16 °C (R793 to R795). -/
  readings : List Int
  /-- The selections in force (R794, R795), by quire and element. -/
  selections : List (List Trim)
  /-- Changed selections that wait for an instant away from their lane's events (R795). -/
  waiting : List Reselect
  deriving DecidableEq, Repr, Inhabited

/-- The fault collector and `FAULT_N` (R749 to R775). -/
structure Collector where
  reports : List Report
  faulted : Bool
  faultCause : Byte
  sticky : BitVec 9
  /-- Lasting conditions that hold without an injection (R756, R862), by checker. -/
  real : BitVec 9
  satPages : Word
  firstError : Option ErrRec
  secondError : Option ErrRec
  injections : List Injection
  hold : Bool
  pulse : Bool
  deriving DecidableEq, Repr, Inhabited

def Collector.reset : Collector :=
  { reports := [], faulted := false, faultCause := 0, sticky := 0, real := 0, satPages := 0, firstError := none, secondError := none,
    injections := [], hold := false, pulse := false }

/-- A time message that waits for the Spine (R637): its link, message type and bytes, and for a Sync its stamp, if the timing domain ran (R670, R673). -/
structure TimeMsg where
  link : LinkId
  type : Nat
  bytes : List Byte
  stamp : Option Stamp
  deriving DecidableEq, Repr, Inhabited

/-- The chip. -/
structure State where
  /-- Commands waiting, first in first out. -/
  pending : List Instr
  /-- Packets that wait in the link buffers: while the interpreter is not running (R637, R837), or for room in a streaming window or in the host-load queue (R488, R546). -/
  heldPackets : List Instr
  /-- Replies sent, oldest first. -/
  sent : List Reply
  maskWaits : List MaskWait
  /-- Replies that fell due while the Spine restarts (R637). -/
  heldReplies : List Reply
  /-- Time messages that arrived while the Spine restarts (R637). -/
  heldTimes : List TimeMsg
  /-- The number of free values taken so far: the model's own field (log entry 3). -/
  fresh : Nat
  modeOz : Bool
  /-- Chip-scope registers: RW fields, counters and results; keys are page · 2^20 + offset. -/
  regs : Regs
  quires : Vector Quire 8
  sessions : Vector Session 8
  links : Vector Link 8
  lanes : Vector Lane 16
  clock : Clock
  time : Time
  gov : Governor
  log : SinterLog
  collector : Collector
  cal : CalStore
  spine : Spine
  snaps : List SnapWait
  flash : Flash
  boot : Boot
  deriving DecidableEq, Repr

/-- A stop that the model answers without a next state: the outcome type has it, and no command of this chip takes it (a refused packet is answered with a status, R579). -/
inductive Fault where
  /-- Raised by nobody: every command of the opcode table has an effect in every state. Safe. -/
  | none
  deriving DecidableEq, Repr

/-- A command without a meaning in the model. -/
inductive Refusal where
  /-- Raised by an arm of exec whose command has no meaning yet. Safe: no claim can be proved about what it would do. -/
  | notModelled (mnemonic : String)
  deriving DecidableEq, Repr

/-- Log entry 15: DESIGN CHOICE. -/
def CalStore.reset : CalStore := { commitBusy := none, storeValid := false, bank := false, generation := 0, commitTime := 0, readings := List.replicate 16 0, selections := [], waiting := [] }

/-- The chip right after reset: in internal reset with `RESET_N` low (R827, R830), nothing queued. Log entries 12, 18: DESIGN CHOICE. -/
def State.reset : State :=
  { pending := [], heldPackets := [], sent := [], maskWaits := [], heldReplies := [], heldTimes := [], fresh := 0, modeOz := false, regs := [], quires := .replicate 8 .reset,
    sessions := .replicate 8 .reset, links := .replicate 8 .reset, lanes := .replicate 16 .reset, clock := .reset, time := .reset,
    gov := .reset, log := .reset, collector := .reset, cal := .reset, spine := .reset, snaps := [], flash := .reset, boot := .reset }

end Sys2Proof.Machine
end

