-- ==== Sys2Proof/Machine/Sparse.lean ====
section
/-! DEFINITION. Stores in canonical form: reading, writing and the form itself. -/

namespace Sys2Proof.Machine

/-- The value at key `k`; an unlisted key reads as `r k`. -/
def sget {α : Type} (r : Nat → α) (k : Nat) : Sparse α → α
  | [] => r k
  | (i, v) :: t => if i = k then v else sget r k t

/-- Write an entry whatever its value (stores of records: signatures, engines, regions). -/
def sset {α : Type} (k : Nat) (v : α) : Sparse α → Sparse α
  | [] => [(k, v)]
  | (i, w) :: t => if k < i then (k, v) :: (i, w) :: t else if k = i then (k, v) :: t else (i, w) :: sset k v t

/-- Remove every key of `m` that satisfies `p`. -/
def sdrop {α : Type} (p : Nat → Bool) (m : Sparse α) : Sparse α := m.filter fun e => !p e.1

/-- Write `v` at key `k`, keeping the form: a value equal to what an unlisted key reads as is not listed. Log entry 10: DESIGN CHOICE. -/
def sput {α : Type} [DecidableEq α] (r : Nat → α) (k : Nat) (v : α) (m : Sparse α) : Sparse α :=
  if v = r k then sdrop (fun i => i = k) m else sset k v m

/-- Keys strictly rising from `b` on, and no entry equal to what its key reads as when unlisted. -/
def swfFrom {α : Type} [DecidableEq α] (r : Nat → α) : Nat → Sparse α → Bool
  | _, [] => true
  | b, (i, v) :: t => b ≤ i && decide (v ≠ r i) && swfFrom r (i + 1) t

/-- The canonical form. -/
def swf {α : Type} [DecidableEq α] (r : Nat → α) (m : Sparse α) : Bool := swfFrom r 0 m

/-- A register file whose unlisted keys read 0. Log entry 10: DESIGN CHOICE. -/
def rget (k : Nat) (m : Regs) : Word := sget (fun _ => 0) k m
def rput (k : Nat) (v : Word) (m : Regs) : Regs := sput (fun _ => 0) k v m

/-- Byte stores whose unlisted addresses read 0 (log entry 10). -/
def bget (a : Nat) (m : Sparse Byte) : Byte := sget (fun _ => 0) a m
/-- Log entry 10: DESIGN CHOICE. -/
def bput (a : Nat) (v : Byte) (m : Sparse Byte) : Sparse Byte := sput (fun _ => 0) a v m

/-- `n` bytes from `a` on. Log entries 10, 156: DESIGN CHOICE. -/
def bread (a n : Nat) (m : Sparse Byte) : List Byte := (List.range n).map fun i => bget (a + i) m

/-- Write the bytes from `a` on. -/
def bwrite (a : Nat) : List Byte → Sparse Byte → Sparse Byte
  | [], m => m
  | b :: t, m => bwrite (a + 1) t (bput a b m)

/-- The entry of key `k` in a store whose entries are compared with a default that no equality is asked of. -/
def sfind {α : Type} (k : Nat) : Sparse α → Option α
  | [] => none
  | (i, v) :: t => if i = k then some v else sfind k t

end Sys2Proof.Machine
end

