-- ==== Sys2Proof/Machine/Operands.lean ====
section
/-! DEFINITION. Operand forms: fields of register words (R12, R19), little-endian parameters (R17), time fields (R93, R577, R665), signed values, and the CRC-32C of R200. -/

namespace Sys2Proof.Machine

/-- Bits [lo + n − 1 : lo] of a word. -/
def fld (w : Word) (lo n : Nat) : Nat := w.toNat / 2 ^ lo % 2 ^ n

/-- Bit i of a word. -/
def bit (w : Word) (i : Nat) : Bool := w.getLsbD i

/-- A signed reading of the n low bits of v. -/
def sext (v n : Nat) : Int := if v % 2 ^ n < 2 ^ (n - 1) then (v % 2 ^ n : Nat) else (v % 2 ^ n : Nat) - (2 ^ n : Nat)

/-- A signed field. -/
def sfld (w : Word) (lo n : Nat) : Int := sext (fld w lo n) n

def b2n (b : Bool) : Nat := if b then 1 else 0

/-- A word from values at bit positions; the values do not overlap. -/
def packW (fs : List (Nat × Nat)) : Word := BitVec.ofNat 32 (fs.foldl (fun a f => a + 2 ^ f.1 * f.2) 0)

/-- The n-bit two's complement of an integer. -/
def ofInt (n : Nat) (v : Int) : Nat := (v % (2 ^ n : Nat)).toNat

/-- `n` little-endian bytes of v (R17). -/
def le : Nat → Nat → List Byte
  | 0, _ => []
  | n + 1, v => BitVec.ofNat 8 v :: le n (v / 256)

/-- The number whose little-endian bytes are given. -/
def unle : List Byte → Nat
  | [] => 0
  | b :: t => b.toNat + 256 * unle t

def leW (w : Word) : List Byte := le 4 w.toNat

/-- `n` bytes of a parameter list from an offset on, as a number. -/
def par (p : Params) (off n : Nat) : Nat := unle ((p.drop off).take n)
def parW (p : Params) (off : Nat) : Word := BitVec.ofNat 32 (par p off 4)

/-- The bytes of a region of the parameters are all 0 (reserved fields, R581). -/
def zeros (p : Params) (off n : Nat) : Bool := ((p.drop off).take n).all (· = 0)

/-- 32-bit words of a byte list. -/
def wordsOf : Nat → List Byte → List Word
  | 0, _ => []
  | n + 1, l => BitVec.ofNat 32 (unle (l.take 4)) :: wordsOf n (l.drop 4)

/-- The three words of a time, as `BIND_TIME0` to `BIND_TIME2` (R93, R665). -/
def timeWords (oz : Bool) (ns : Nat) : Word × Word × Word :=
  if oz then
    let sec := ns / 1000000000 % 2 ^ 48
    (BitVec.ofNat 32 (ns % 1000000000), BitVec.ofNat 32 sec, BitVec.ofNat 32 (sec / 2 ^ 32))
  else (BitVec.ofNat 32 ns, BitVec.ofNat 32 (ns / 2 ^ 32), 0)

/-- A time result of 12 bytes (R577). -/
def t12 (oz : Bool) (ns : Nat) : List Byte :=
  let w := timeWords oz ns
  leW w.1 ++ leW w.2.1 ++ leW w.2.2

/-- The native value of a time's three words; with `MODE_OZ` seconds · 10^9 + nanoseconds (R663). -/
def timeOf (oz : Bool) (w0 w1 w2 : Word) : Nat :=
  if oz then (w1.toNat + 2 ^ 32 * fld w2 0 16) * 1000000000 + fld w0 0 30 else w0.toNat + 2 ^ 32 * w1.toNat

/-- A time parameter at an offset (R577). -/
def parT12 (oz : Bool) (p : Params) (off : Nat) : Nat := timeOf oz (parW p off) (parW p (off + 4)) (parW p (off + 8))

/-- A time parameter has no reserved bit set, and its nanoseconds field holds less than 10^9 (R577). -/
def t12Ok (oz : Bool) (p : Params) (off : Nat) : Bool :=
  if oz then fld (parW p off) 30 2 = 0 && fld (parW p off) 0 30 < 1000000000 && fld (parW p (off + 8)) 16 16 = 0
  else parW p (off + 8) = 0

/-- One byte of the CRC-32C (reflected polynomial 0x82F6_3B78). -/
def crcStep (c : Word) (b : Byte) : Word :=
  (List.range 8).foldl (fun c _ => if c.getLsbD 0 then (c >>> 1) ^^^ 0x82F63B78#32 else c >>> 1) (c ^^^ b.setWidth 32)

/-- CRC-32C: initial value and final XOR 0xFFFF_FFFF (R200). -/
def crc32c (bs : List Byte) : Word := bs.foldl crcStep 0xFFFFFFFF#32 ^^^ 0xFFFFFFFF#32

/-- Pins of a 32-bit mask, ascending. -/
def pinsOf (m : Word) : List Nat := (List.range 32).filter fun i => m.getLsbD i

/-- Quires of an 8-bit mask, ascending. -/
def quiresOf (m : Byte) : List QId := (List.finRange 8).filter fun q => m.getLsbD q.val

def setBit (m : Word) (i : Nat) : Word := m ||| BitVec.ofNat 32 (2 ^ i)
def clrBit (m : Word) (i : Nat) : Word := m &&& ~~~(BitVec.ofNat 32 (2 ^ i))
def putBit (m : Word) (i : Nat) (v : Bool) : Word := if v then setBit m i else clrBit m i

/-- Replace element `i` of a list. -/
def lset {α : Type} (l : List α) (i : Nat) (v : α) : List α := l.set i v

/-- Update element `i` of a list. -/
def lmod {α : Type} (l : List α) (i : Nat) (f : α → α) : List α :=
  match l[i]? with
  | some x => l.set i (f x)
  | none => l

/-- Set element `i` of a list, made as long as that takes with `d`. -/
def lput {α : Type} (d : α) (l : List α) (i : Nat) (v : α) : List α := (l ++ List.replicate (i + 1 - l.length) d).set i v

/-- The last `n` elements. -/
def lastN {α : Type} (n : Nat) (l : List α) : List α := l.drop (l.length - n)

/-- Remove the first element that satisfies `p`. -/
def dropFirst {α : Type} (p : α → Bool) : List α → List α
  | [] => []
  | x :: t => if p x then t else x :: dropFirst p t

/-- Insert into a list ordered by `lt`, behind its equals. -/
def insertBy {α : Type} (lt : α → α → Bool) (x : α) : List α → List α
  | [] => [x]
  | y :: t => if lt x y then x :: y :: t else y :: insertBy lt x t

/-- A stable sort by insertion. -/
def sortBy {α : Type} (lt : α → α → Bool) : List α → List α
  | [] => []
  | x :: t => (fun (acc : List α) => insertBack lt x acc) (sortBy lt t)
where
  /-- Insert before its equals. -/
  insertBack (lt : α → α → Bool) (x : α) : List α → List α
    | [] => [x]
    | y :: t => if lt y x then y :: insertBack lt x t else x :: y :: t

end Sys2Proof.Machine
end

