-- ==== Sys2Proof/Machine/Flags.lean ====
section
/-! DEFINITION. Status codes and details (R579, R581), state codes (R54), opcodes (R620), cause bits (R399), and the status words that are computed from the state: `QUIRE_STATE`, `SIG_STATUS` and the live bits. -/

namespace Sys2Proof.Machine

abbrev stOk : Byte := 0x00
abbrev stDeferred : Byte := 0x01
abbrev stBusy : Byte := 0x02
abbrev stState : Byte := 0x10
abbrev stOwner : Byte := 0x11
abbrev stRange : Byte := 0x12
abbrev stCollation : Byte := 0x13
abbrev stNoResource : Byte := 0x20
abbrev stBudget : Byte := 0x21
abbrev stFaulted : Byte := 0x30
abbrev stAuth : Byte := 0x3E
abbrev stMalformed : Byte := 0x3F

/-- The code of `STATE` (R54). -/
def stateCode : QState → Nat
  | .off => 0 | .parked => 1 | .staged => 2 | .collated => 3 | .armed => 4 | .running => 5 | .paused => 6 | .stopped => 7 | .faulted => 8

/-- The code of `STOP_CAUSE` (R54). -/
def causeCode : StopCause → Nat
  | .none => 0 | .endOfRun => 1 | .host => 2 | .clock => 3 | .chip => 4

/-- The code of `BUF_STATE` (R80). -/
def bufCode : BufState → Nat
  | .empty => 0 | .loading => 1 | .loaded => 2 | .freeDeferred => 3 | .stale => 4

/-- Reasons of a STATE refusal (R581). -/
abbrev reasonState : Nat := 0x00
abbrev reasonAborted : Nat := 0x01
abbrev reasonOrder : Nat := 0x02
abbrev reasonHome : Nat := 0x03
abbrev reasonSignature : Nat := 0x04

/-- `DETAIL` of a STATE refusal at a quire (R581). -/
def detState (reason : Nat) (st : QState) : BitVec 16 := BitVec.ofNat 16 (reason * 256 + stateCode st)

/-- `DETAIL` of a STATE refusal at chip scope (R581). -/
abbrev detChip : BitVec 16 := 0x000F

/-- `QUIRE_STATE` (R54). -/
def quireStateWord (q : Quire) : Word :=
  packW [(19, b2n q.owner.isSome), (16, (q.owner.map (·.val)).getD 0), (11, b2n q.vpinOk), (10, b2n q.dram.available),
    (9, b2n q.startPending.isSome), (8, b2n q.pausePending), (4, causeCode q.stopCause), (0, stateCode q.state)]

/-- Cause bits of an instance (R399). -/
abbrev cbFail : Nat := 0
abbrev cbTruncated : Nat := 1
abbrev cbUnderrun : Nat := 2
abbrev cbVoidFailed : Nat := 3
abbrev cbUndefinedSet : Nat := 4
abbrev cbBadCell : Nat := 5
abbrev cbPinCheck : Nat := 6
abbrev cbEdge : Nat := 7
abbrev cbClock : Nat := 8
abbrev cbTime : Nat := 9
abbrev cbPoisoned : Nat := 10
abbrev cbEndpaper : Nat := 11
abbrev cbQuireFault : Nat := 12
abbrev cbVpin : Nat := 13
abbrev cbOther : Nat := 14

/-- The quire is ARMED, RUNNING or PAUSED. -/
def QState.inRun : QState → Bool
  | .armed | .running | .paused => true
  | _ => false

/-- The quire is RUNNING or PAUSED. -/
def QState.inPlay : QState → Bool
  | .running | .paused => true
  | _ => false

/-- Live pages of a quire (R46). -/
def livePage (page : Nat) : Bool := page = 0x00 || page = 0x18 || page = 0x1C

/-- The checkers that watch a lasting condition (R756). -/
def lastingChecker (c : Nat) : Bool := [0x02, 0x04, 0x05, 0x06, 0x08, 0x10, 0x11].contains c

/-- The checkers whose ALERT is non-maskable (R750). -/
def nonMaskable (c : Nat) : Bool := c = 0x04 || c = 0x05 || c = 0x06

/-- A read of a checked store that comes back good. -/
abbrev soundRead : SramRead := { outcome := .good, entry := 0 }

end Sys2Proof.Machine
end

