-- ==== Sys2Proof/Machine/Ops.lean ====
section
/-! DEFINITION. The named operations over the state: reading and writing a quire, counters (R776), the Sinter log (R780 to R788), reports to the fault collector (R749, R751), and replies (R572, R573, R583, R623). -/

namespace Sys2Proof.Machine

/-- The answer of a command. -/
abbrev Out := Host.Outcome State Fault Refusal

/-- Key of a register in a register file (R12). -/
def rk (page off : Nat) : Nat := 2 ^ 20 * page + off

def State.quire (s : State) (q : QId) : Quire := s.quires[q]
def State.setQuire (s : State) (q : QId) (x : Quire) : State := { s with quires := s.quires.set q x }
def State.modQuire (s : State) (q : QId) (f : Quire → Quire) : State := s.setQuire q (f (s.quire q))
def State.session (s : State) (k : LinkId) : Session := s.sessions[k]
def State.modSession (s : State) (k : LinkId) (f : Session → Session) : State := { s with sessions := s.sessions.set k (f s.sessions[k]) }
def State.link (s : State) (k : LinkId) : Link := s.links[k]
def State.modLink (s : State) (k : LinkId) (f : Link → Link) : State := { s with links := s.links.set k (f s.links[k]) }
def State.lane (s : State) (i : LaneId) : Lane := s.lanes[i]
def State.modLane (s : State) (i : LaneId) (f : Lane → Lane) : State := { s with lanes := s.lanes.set i (f s.lanes[i]) }

/-- Do `f` for each of the given things in turn. -/
def State.each {α : Type} (s : State) (l : List α) (f : State → α → State) : State := l.foldl f s

/-! ### Chip registers -/

/-- Reset values of the RW fields of the chip pages, as words (R698 to R700, R571, R736, R790, R791, R639, R737). -/
def chipReset (k : Nat) : Word :=
  if k = rk 1 0 then 1
  else if k = rk 3 0 then 0xFA0
  else if k = rk 3 8 then 0x7D0
  else if rk 4 0x108 ≤ k ∧ k < rk 4 0x308 ∧ (k - rk 4 0x108) % 0x40 = 0 then 0x1000
  else if rk 4 0x1000 ≤ k ∧ k < rk 4 0x1400 ∧ (k - rk 4 0x1000) % 0x40 = 0 then 0x20000001
  else if k = rk 5 0 then 0x40967D0A
  else if k = rk 5 4 then 0x17318
  else if k = rk 5 8 then 0x4E20
  else if k = rk 5 0xC ∨ k = rk 5 0x10 then 0x10101010
  else if k = rk 6 0 then 0x14
  else if k = rk 7 0 then 0x1010
  else if k = rk 8 4 then 0x3E8
  else if k = rk 0xA 0 then 1
  else 0

def State.reg (s : State) (k : Nat) : Word := sget chipReset k s.regs
def State.setReg (s : State) (k : Nat) (v : Word) : State := { s with regs := sput chipReset k v s.regs }

/-- `LOG_BURST`, `LOG_RATE` (R791). -/
def State.logBurst (s : State) : Nat := fld (s.reg (rk 7 0)) 8 8
def State.logRate (s : State) : Nat := fld (s.reg (rk 7 0)) 0 8

/-- `FROZEN` (R784). -/
def State.frozen (s : State) : Bool := s.sessions.toList.any (·.frozen)

/-- A free value of the model (log entry 3): the next one of `Config.freeWord`. Log entries 56, 125: DESIGN CHOICE. -/
def State.takeFree (s : State) : Word × State := (Config.freeWord s.fresh, { s with fresh := s.fresh + 1 })

/-! ### Counters and the Sinter log -/

/-- Add to a counter of `w` bits that stays at all-ones (R776); the second part tells that this addition made it all-ones. -/
def satAdd (w : Nat) (v n : Nat) : Nat × Bool :=
  let top := 2 ^ w - 1
  if v + n < top then (v + n, false) else (top, decide (v < top))

/-- What the log needs of an event (R787); `at_` is its chip time and whether that was valid, when it lies before the present. -/
structure LogEvent where
  code : Byte
  source : Nat
  quire : Option QId
  injected : Bool
  exempt : Bool
  d0 : Word
  d1 : Word
  d2 : Word
  at_ : Option (Nat × Bool)

/-- The subsystem number of a page (R787), by the chapter that lays the page down. Log entry 21: DESIGN CHOICE. -/
def pageSource (scope page : Nat) : Nat :=
  if scope = 0 then
    match page with
    | 1 => 10 | 2 => 11 | 3 => 11 | 4 => 8 | 5 => 12 | 6 => 13 | 7 => 14 | 0xA => 12 | _ => 9
  else
    match page with
    | 0x04 => 3 | 0x05 => 3 | 0x06 => 3 | 0x07 => 3 | 0x08 => 4 | 0x09 => 4 | 0x0A => 4 | 0x0B => 3 | 0x0C => 5 | 0x0D => 5
    | 0x0E => 6 | 0x0F => 5 | 0x10 => 2 | 0x11 => 7 | 0x18 => 4 | 0x1C => 13 | _ => 1

/-- The COUNTER_SATURATED event of the counter at a configuration address (R776, R788). Log entry 21: DESIGN CHOICE. -/
def satEvent (addr : Nat) : LogEvent :=
  { code := 0x04, source := pageSource (addr / 2 ^ 28) (addr / 2 ^ 20 % 256), quire := if h : 1 ≤ addr / 2 ^ 28 ∧ addr / 2 ^ 28 ≤ 8 then some ⟨addr / 2 ^ 28 - 1, by omega⟩ else none,
    injected := false, exempt := false, d0 := BitVec.ofNat 32 addr, d1 := 0, d2 := 0, at_ := none }

/-- The steps of R782, with the counter of chip page 0x07 that they bring to all-ones (R776). -/
def offerOnce (e : LogEvent) (s : State) : State × Option Nat :=
  let c := e.code.toNat
  let taken := sget (fun _ => 0) c s.log.taken
  if !e.exempt && decide (s.logBurst ≤ taken) then
    let r := satAdd 32 (sget (fun _ => (0 : Word)) c s.log.suppressed).toNat 1
    ({ s with log := { s.log with suppressed := sput (fun _ => 0) c (BitVec.ofNat 32 r.1) s.log.suppressed } }, if r.2 then some (rk 7 (0x100 + 4 * c)) else none)
  else
    let left := if e.exempt then s.log.taken else sput (fun _ => 0) c (taken + 1) s.log.taken
    if 8192 ≤ s.log.entries.length then
      let r := satAdd 32 s.log.lost.toNat 1
      ({ s with log := { s.log with taken := left, lost := BitVec.ofNat 32 r.1 } }, if r.2 then some (rk 7 8) else none)
    else if s.frozen then
      let r := satAdd 32 s.log.frozenDropped.toNat 1
      ({ s with log := { s.log with taken := left, frozenDropped := BitVec.ofNat 32 r.1 } }, if r.2 then some (rk 7 0xC) else none)
    else
      let at_ := e.at_.getD (s.time.ns, s.time.valid)
      ({ s with log := { s.log with taken := left, entries := s.log.entries ++
          [{ seq := s.log.entries.length, timeNs := at_.1, code := e.code, source := e.source,
             quire := (e.quire.map fun q => BitVec.ofNat 4 q.val).getD 0xF, injected := e.injected, timeInvalid := !at_.2,
             detail0 := e.d0, detail1 := e.d1, detail2 := e.d2 }] } }, none)

/-- Offer an event, and COUNTER_SATURATED for a counter of page 0x07 that it brings to all-ones, which can happen only for `SUPPRESSED`, `LOST_COUNT` and `FROZEN_DROPPED` once each. -/
def offer : Nat → LogEvent → State → State
  | 0, e, s => (offerOnce e s).1
  | fuel + 1, e, s =>
    let r := offerOnce e s
    match r.2 with
    | none => r.1
    | some addr => offer fuel (satEvent addr) { r.1 with collector := { r.1.collector with satPages := setBit r.1.collector.satPages 7 } }

/-- Offer an event to the log (R782). -/
def State.logEvent (s : State) (e : LogEvent) : State := offer 4 e s

/-- Offer an event of chip scope that takes a token. -/
def State.log' (s : State) (code : Byte) (source : Nat) (d0 d1 d2 : Word) (injected : Bool := false) : State :=
  s.logEvent { code := code, source := source, quire := none, injected := injected, exempt := false, d0 := d0, d1 := d1, d2 := d2, at_ := none }

/-- Add to a 32-bit counter of a chip page (R776). -/
def State.bump (s : State) (k : Nat) (n : Nat := 1) : State :=
  let r := satAdd 32 (s.reg k).toNat n
  let s := s.setReg k (BitVec.ofNat 32 r.1)
  if r.2 then { s with collector := { s.collector with satPages := setBit s.collector.satPages (k / 2 ^ 20) } }.logEvent (satEvent k) else s

/-- Add to a 64-bit counter in two words, low word first, which saturates as a whole (R776). -/
def State.bump64 (s : State) (k : Nat) (n : Nat := 1) : State :=
  let r := satAdd 64 ((s.reg k).toNat + 2 ^ 32 * (s.reg (k + 4)).toNat) n
  let s := (s.setReg k (BitVec.ofNat 32 r.1)).setReg (k + 4) (BitVec.ofNat 32 (r.1 / 2 ^ 32))
  if r.2 then { s with collector := { s.collector with satPages := setBit s.collector.satPages (k / 2 ^ 20) } }.logEvent (satEvent k) else s

/-! ### Replies -/

/-- The packet of a reply (R572 to R574). -/
def Reply.bytes (r : Reply) : List Byte :=
  let body := [0x01#8, r.dest.opcode] ++ le 2 r.dest.session.toNat ++ le 2 r.dest.tag.toNat ++ [r.dest.qmask, r.status]
    ++ le 4 r.result.length ++ le 2 r.detail.toNat ++ le 2 0 ++ r.result
  body ++ leW (crc32c body)

/-- The class that the reply of an opcode travels in (R535). -/
def replyClass (opcode : Byte) : Fin 4 := if opcode = 0x29 then 1 else 0

/-- Put a packet into the transmit queue of a class (R535, R538). -/
def Link.send (l : Link) (i : Fin 4) (bytes : List Byte) : Link :=
  { l with classes := l.classes.set i { l.classes[i] with txQueue := l.classes[i].txQueue ++ [bytes] } }

/-- Put a reply on its link: it counts in `REFUSALS` from status 0x10 on (R639); a reply sent while the link is DOWN is lost (R602). -/
def State.wire (s : State) (r : Reply) : State :=
  let k := r.dest.link
  let s := if 0x10 ≤ r.status.toNat then s.bump (rk 8 (0x110 + 0x20 * k.val)) else s
  if (s.link k).phase = .up ∨ (s.link k).phase = .changing then { s with sent := s.sent ++ [r] }.modLink k fun l => l.send (replyClass r.dest.opcode) r.bytes else s

/-- The command of a reply leaves the commands in progress of its session and enters the 256 kept for retries (R583, R586). Log entry 76: DEDUCED. -/
def Session.complete (x : Session) (r : Reply) (kept : Option Reply) : Session :=
  if x.isOpen && r.dest.opcode ≠ 0x01 && (r.dest.session = x.handle || (r.dest.opcode = 0x02 && r.dest.session = 0)) then
    { x with inProgress := x.inProgress.filter fun e => e.1 ≠ r.dest.tag,
             completed := lastN 256 (x.completed.filter (fun c => c.tag ≠ r.dest.tag) ++ [{ tag := r.dest.tag, opcode := r.dest.opcode, reply := kept }]) }
  else x

/-- Send a reply and end its command (R572, R583, R586). Log entry 20: DEDUCED. -/
def State.sendReply (s : State) (r : Reply) : State :=
  (s.modSession r.dest.link fun x => x.complete r (some r)).wire r

/-- A SPINE_RESTART that every occupying command has let go first (R637). Log entry 146: DEDUCED. -/
def State.restartDue (s : State) : Bool := s.spine.restartWanted.isSome && s.quires.toList.all fun q => q.occupied.isNone

/-- The Spine restarts: `RESTARTING` (R637, R639, R821). Log entry 146: DEDUCED. -/
def State.restarting (s : State) : Bool := s.spine.restarting || s.restartDue

/-- The occupying commands of R589: COLLATE, ARM, REBIND, QUIRE_RESET, LOAD_SIGNATURE and SELFTEST. Log entry 32: DEDUCED. -/
def occupying (opcode : Byte) : Bool := opcode ∈ [0x10#8, 0x11#8, 0x16#8, 0x17#8, 0x20#8, 0x60#8]

/-- A reply leaves at once, or waits while the Spine restarts; the occupying commands that a SPINE_RESTART lets go first reply before it (R637). Log entries 20, 76: DEDUCED. -/
def State.answer (s : State) (r : Reply) : State :=
  if s.spine.restarting || (s.restartDue && !occupying r.dest.opcode) then { s with heldReplies := s.heldReplies ++ [r] } else s.sendReply r

/-- The reply of a command in progress falls due. A command whose quire was released, or whose session ended, is no longer in progress, and its reply is discarded (R601). Log entry 20: DEDUCED. -/
def State.reply (s : State) (d : ReplyTo) (status : Byte) (detail : BitVec 16 := 0) (result : List Byte := []) : State :=
  if d.opcode = 0x01 ∨ (s.session d.link).inProgress.any (fun e => e.1 = d.tag ∧ e.2.1 = d.opcode) then
    s.answer { dest := d, status := status, detail := detail, result := result }
  else s

/-- The status, detail and result of a command on several quires (R623). Log entry 28: DESIGN CHOICE; log entry 77: DEDUCED. -/
def maskReply (w : MaskWait) : Byte × BitVec 16 × List Byte :=
  let sel := (List.range 8).filter fun i => w.dest.qmask.getLsbD i
  let st := fun i => (w.status.getD i (0xFF, 0)).1
  let bytes := (List.range 8).map fun i => if w.dest.qmask.getLsbD i then st i else 0xFF
  let head :=
    match sel.find? fun i => 2 ≤ (st i).toNat with
    | some i => w.status.getD i (0xFF, 0)
    | none => if sel.any fun i => st i = stDeferred then (stDeferred, 0) else (stOk, 0)
  (head.1, head.2, bytes ++ w.records.flatten)

/-- A quire that its part of a command still occupied is free once the command replies (R589). -/
def Quire.unoccupy (d : ReplyTo) (x : Quire) : Quire := if x.occupied = some (.ended d) then { x with occupied := none } else x

/-- A quire's part of a command on several quires ends with a status; the reply is sent, and the command's quires are free, when no quire is owed (R589, R623). -/
def State.quireDone (s : State) (d : ReplyTo) (q : QId) (status : Byte) (detail : BitVec 16 := 0) (record : List Byte := []) : State :=
  match s.maskWaits.find? fun w => w.dest = d with
  | none => s
  | some w =>
    let w := { w with waiting := w.waiting &&& ~~~(BitVec.ofNat 8 (2 ^ q.val)), status := lset w.status q.val (status, detail), records := lset w.records q.val record }
    let rest := dropFirst (fun v : MaskWait => v.dest = d) s.maskWaits
    if w.waiting = 0 then
      let r := maskReply w
      { s with maskWaits := rest, quires := s.quires.map (Quire.unoccupy d) }.reply d r.1 r.2.1 r.2.2
    else { s with maskWaits := rest ++ [w] }

/-- Open the reply of a command on the quires of its mask (R623); one of an earlier command with the same header that was discarded is forgotten. -/
def State.openMask (s : State) (d : ReplyTo) : State :=
  { s with maskWaits := s.maskWaits.filter (fun w => w.dest ≠ d) ++ [{ dest := d, waiting := d.qmask, status := List.replicate 8 (0xFF, 0), records := List.replicate 8 [] }] }

/-! ### Reports to the fault collector -/

/-- Deliver a report (R749); the collector takes it at its next window (R751). Log entry 103: DEDUCED. -/
def State.report (s : State) (sev : Severity) (checker : Nat) (quire : Option QId) (acts : List QId) (element : Byte) (cause : Byte)
    (detail : Int) (injected : Bool) : State :=
  { s with collector := { s.collector with reports := s.collector.reports ++
      [{ severity := sev, checker := checker, quire := quire, acts := acts, element := element, cause := cause,
         detail := BitVec.ofNat 24 (ofInt 24 detail), injected := injected, timeNs := s.time.ns, timeValid := s.time.valid }] } }

/-! ### Steps confined to one quire -/

/-- What a step of a quire asks of the chip-level services: the log, the fault collector and the Spine. -/
inductive Fx where
  | log (code : Byte) (source : Nat) (d0 d1 d2 : Word) (injected : Bool)
  | saturated (key : Nat)
  | report (sev : Severity) (checker : Nat) (element : Byte) (cause : Byte) (detail : Int) (injected : Bool)
  | reply (d : ReplyTo) (status : Byte) (detail : BitVec 16) (result : List Byte)
  | done (d : ReplyTo) (status : Byte) (detail : BitVec 16)
  /-- Bits of a live word that the manual leaves open take a free value. -/
  | freeBits (key : Nat) (mask : Word)
  /-- The reply of a COLLATE that had taken `elapsedNs` at the tick `since` (R612). -/
  | replyCollate (d : ReplyTo) (status : Byte) (elapsedNs since : Nat)
  /-- A reply whose result is live words, read when it is sent. -/
  | replyLive (d : ReplyTo) (status : Byte) (detail : BitVec 16) (keys : List Nat)
  /-- An uncorrectable error of the line in `LAST_UNCORR_LINE` is reported (R468, R738). -/
  | lineReport
  /-- A class 3 item re-enters the delay list, due 64 ns from now (R221). -/
  | delay (it : Item)
  deriving DecidableEq, Repr

/-- A quire with what its step asks of the chip, in order. -/
structure W where
  q : Quire
  fx : List Fx
  deriving DecidableEq, Repr

/-- A quire without requests. -/
def Quire.w (q : Quire) : W := { q := q, fx := [] }

def W.upd (w : W) (f : Quire → Quire) : W := { w with q := f w.q }
/-- Log entry 3: DESIGN CHOICE. -/
def W.ask (w : W) (x : Fx) : W := { w with fx := w.fx ++ [x] }
/-- Do `f` when `c` holds. -/
def W.when (w : W) (c : Bool) (f : W → W) : W := if c then f w else w
def W.each {α : Type} (w : W) (l : List α) (f : W → α → W) : W := l.foldl f w
def W.log (w : W) (code : Byte) (source : Nat) (d0 d1 d2 : Word) (injected : Bool := false) : W := w.ask (.log code source d0 d1 d2 injected)
def W.report (w : W) (sev : Severity) (checker : Nat) (element : Byte) (cause : Byte) (detail : Int) (injected : Bool) : W :=
  w.ask (.report sev checker element cause detail injected)
def W.reply (w : W) (d : ReplyTo) (status : Byte) (detail : BitVec 16 := 0) (result : List Byte := []) : W := w.ask (.reply d status detail result)
def W.done (w : W) (d : ReplyTo) (status : Byte) (detail : BitVec 16 := 0) : W := w.ask (.done d status detail)

def Quire.liveReg (q : Quire) (k : Nat) : Word := rget k q.live
def Quire.setLive (q : Quire) (k : Nat) (v : Word) : Quire := { q with live := rput k v q.live }
def W.setLive (w : W) (k : Nat) (v : Word) : W := w.upd fun q => q.setLive k v

/-- Add to a 32-bit counter of the quire (R776). -/
def W.bump (w : W) (k : Nat) (n : Nat := 1) : W :=
  let r := satAdd 32 (w.q.liveReg k).toNat n
  let w := w.setLive k (BitVec.ofNat 32 r.1)
  if r.2 then (w.upd fun q => { q with satPages := setBit q.satPages (k / 2 ^ 20) }).ask (.saturated k) else w

/-- Add to a 64-bit counter of the quire (R776). -/
def W.bump64 (w : W) (k : Nat) (n : Nat := 1) : W :=
  let r := satAdd 64 ((w.q.liveReg k).toNat + 2 ^ 32 * (w.q.liveReg (k + 4)).toNat) n
  let w := (w.setLive k (BitVec.ofNat 32 r.1)).setLive (k + 4) (BitVec.ofNat 32 (r.1 / 2 ^ 32))
  if r.2 then (w.upd fun q => { q with satPages := setBit q.satPages (k / 2 ^ 20) }).ask (.saturated k) else w

/-- Insert an item into the delay list by due time, behind equal ones (R217). -/
def delayInsert (it : Item) : List Item → List Item
  | [] => [it]
  | x :: t => if it.due.getD 0 < x.due.getD 0 then it :: x :: t else x :: delayInsert it t

/-- Carry out one request of quire `q`. -/
def State.runFx (q : QId) (s : State) : Fx → State
  | .log code source d0 d1 d2 injected =>
    s.logEvent { code := code, source := source, quire := some q, injected := injected, exempt := false, d0 := d0, d1 := d1, d2 := d2, at_ := none }
  | .saturated k => s.logEvent (satEvent (2 ^ 28 * (q.val + 1) + k))
  | .report sev checker element cause detail injected => s.report sev checker (some q) [] element cause detail injected
  | .reply d status detail result => s.reply d status detail result
  | .done d status detail => s.quireDone d q status detail
  | .replyCollate d status elapsedNs since => s.reply d status 0 (leW 0 ++ leW (BitVec.ofNat 32 (elapsedNs + (s.time.ticks - since))))
  | .freeBits k m => let r := s.takeFree; r.2.modQuire q fun x => x.setLive k ((x.liveReg k &&& ~~~m) ||| (r.1 &&& m))
  | .lineReport => s.report .alert 0x18 (some q) [] 0xFF 0 ((s.quire q).liveReg (rk 0x11 0x238)).toNat false
  | .delay it => s.modQuire q fun x => { x with delay := delayInsert { it with due := some (s.time.ns + 64) } x.delay }
  | .replyLive d status detail keys => s.reply d status detail (keys.flatMap fun k => leW ((s.quire q).liveReg k))

/-- A step confined to quire `q`: nothing of another quire changes (R29). -/
def State.onQuire (s : State) (q : QId) (f : Quire → W) : State :=
  let w := f (s.quire q)
  w.fx.foldl (State.runFx q) (s.setQuire q w.q)

/-! ### Injected checks (R772, R862) -/

/-- Take one check of checker `c` on element `e` from the injections: whether it is injected, and what is left. -/
def takeInjection (c e : Nat) : List Injection → Bool × List Injection
  | [] => (false, [])
  | i :: t =>
    if i.checker = c ∧ i.element = e then (true, if i.left ≤ 1 then t else { i with left := i.left - 1, made := i.made + 1 } :: t)
    else let r := takeInjection c e t; (r.1, i :: r.2)

/-- Some injection waits for checker `c` on element `e`. -/
def injecting (c e : Nat) (l : List Injection) : Bool := l.any fun i => i.checker = c ∧ i.element = e

/-- The next check of checker `c` on element `e` is the `n`-th of an injection. -/
def nthInjected (c e n : Nat) (l : List Injection) : Bool := l.any fun i => i.checker = c ∧ i.element = e ∧ i.made + 1 = n

/-- The injected checks that a lasting condition takes to be met (R862). -/
def checksToMeet (c : Nat) : Nat := if c = 0x11 then 10 else if c = 0x06 then 2 else 1

/-- The injected checks of checker `c` on element `e` form a condition, and more are to come (R862). -/
def holding (c e : Nat) (l : List Injection) : Bool := l.any fun i => i.checker = c ∧ i.element = e ∧ checksToMeet c ≤ i.made

/-! ### Lasting conditions (R756, R757, R862) -/

/-- The condition behind a report of a quire-scope checker holds. -/
def Quire.holds (q : Quire) (r : Report) : Bool :=
  if r.injected then holding r.checker (if r.checker = 0x11 then r.element.toNat else 0) q.injections
  else (r.checker = 0x10 && q.vpinOut) || (r.checker = 0x11 && bit q.overloaded r.element.toNat)

/-- The condition behind a report of a chip-scope checker holds. -/
def State.holds (s : State) (r : Report) : Bool :=
  if r.checker = 0x08 then (if r.element = 0xFF then decide (2 ≤ s.gov.overCount) else decide (10 ≤ s.gov.hardCount.getD r.element.toNat 0))
  else if r.injected then holding r.checker 0 s.collector.injections
  else s.collector.real.getLsbD r.checker

/-- `QF_LIVE`: the lasting conditions of a quire's checkers that hold (R756). -/
def Quire.qfLive (q : Quire) : BitVec 9 :=
  BitVec.ofNat 9 (b2n (q.vpinOut || holding 0x10 0 q.injections)
    + 2 * b2n (q.overloaded ≠ 0 || q.injections.any fun i => i.checker = 0x11 && decide (10 ≤ i.made)))

/-- `CHIP_LIVE`: the lasting conditions of the chip's checkers that hold (R756). -/
def Collector.live (x : Collector) : BitVec 9 :=
  x.real ||| BitVec.ofNat 9 ([0x02, 0x04, 0x05, 0x06].foldl (fun a c => a + if holding c 0 x.injections then 2 ^ c else 0) 0)

/-- A record whose condition has ended before its first read becomes transient (R757). The regulator-status path watches no lasting condition (R756). -/
def ErrRec.settle (holds : Report → Bool) (r : ErrRec) : ErrRec :=
  if lastingChecker r.report.checker && r.report.severity ≠ .chip && !r.read && !holds r.report then { r with transient := true } else r

/-- The records of a quire follow the conditions of the quire's checkers, and of the chip's where `chip` gives these. -/
def Quire.settleRecords (chip : Report → Bool) (q : Quire) : Quire :=
  let f := ErrRec.settle fun r => if r.checker < 0x10 then chip r else q.holds r
  { q with firstError := q.firstError.map f, secondError := q.secondError.map f }

/-- The quire's records follow the conditions of its own checkers. -/
def W.settleRecords (w : W) : W := w.upd (Quire.settleRecords fun _ => true)

/-- All records of the chip follow the conditions of the checkers. -/
def State.settleRecords (s : State) : State :=
  let f := ErrRec.settle s.holds
  { s with
    collector := { s.collector with firstError := s.collector.firstError.map f, secondError := s.collector.secondError.map f }
    quires := s.quires.map (Quire.settleRecords s.holds) }

/-- A check of a quire-scope checker: whether it is injected. -/
def W.check (w : W) (c e : Nat) : Bool × W :=
  let r := takeInjection c e w.q.injections
  (r.1, (w.upd fun q => { q with injections := r.2 }).when (r.1 && lastingChecker c) W.settleRecords)

/-- A check of a chip-scope checker: whether it is injected. -/
def State.check (s : State) (c e : Nat) : Bool × State :=
  let r := takeInjection c e s.collector.injections
  let s := { s with collector := { s.collector with injections := r.2 } }
  (r.1, if r.1 && lastingChecker c then s.settleRecords else s)

/-- A lasting condition of a chip-scope checker begins or ends (R756, R757). -/
def State.live (s : State) (c : Nat) (on : Bool) : State :=
  if on then { s with collector := { s.collector with real := s.collector.real ||| BitVec.ofNat 9 (2 ^ c) } }
  else { s with collector := { s.collector with real := s.collector.real &&& ~~~(BitVec.ofNat 9 (2 ^ c)) } }.settleRecords

/-- The timing domain runs (R654). Log entry 19: DESIGN CHOICE; log entry 61: DEDUCED. -/
def State.timingRuns (s : State) : Bool := s.clock.domain = .running

end Sys2Proof.Machine
end

