-- ==== Sys2Proof/Machine/Pages.lean ====
section
/-! DEFINITION. The configuration pages: which pages a scope defines (R604, R605), their last registers (R15, R608), the RW bits of every word (R19, R24, R25) and the reset values of the configuration pages; the staging and committed copies (R606 to R610). -/

namespace Sys2Proof.Machine

/-- Offset of `PAGE_CRC` (R608). -/
abbrev pageCrcOff : Nat := 0xFFFFC

/-- Configuration pages of a quire (R604). -/
def configPages : List Nat := [0x01, 0x02, 0x03, 0x04, 0x05, 0x06, 0x07, 0x08, 0x09, 0x0A, 0x0B, 0x0C, 0x0D, 0x0E, 0x0F, 0x10, 0x11]

/-- Pages that the first commit after a reset accepts only SEALED (R611). -/
def requiredPages : List Nat := [0x01, 0x02, 0x03, 0x08, 0x09]

/-- The last register of a quire page; `none` where the page is not defined (R14, R15). -/
def quirePageLast (page : Nat) : Option Nat :=
  if page = 0x00 then some 0x4
  else if page = 0x18 then some 0x30C
  else if page = 0x1C then some 0x220
  else if configPages.contains page then some pageCrcOff
  else none

/-- The last register of a chip page (R14, R15). -/
def chipPageLast (page : Nat) : Option Nat :=
  match page with
  | 0x00 => some 0x14 | 0x01 => some 0x20 | 0x02 => some 0x2FC | 0x03 => some 0x114 | 0x04 => some 0x13FC | 0x05 => some 0x314
  | 0x06 => some 0x220 | 0x07 => some 0x4FC | 0x08 => some 0x43C | 0x09 => some 0x1C | 0x0A => some 0x308 | _ => none

/-- RW bits of a word of the sequencer page (R141, R99). -/
def mask01 (o : Nat) : Word :=
  if o = 0 then 0x00FF0F00 else if o = 4 then 0x1FFFF else if o = 8 then 0xFFF
  else if 0x110 ≤ o ∧ o < 0x200 then 0xFFFFFFFF else 0

/-- RW bits of a word of the binding table (R93). -/
def mask02 (o : Nat) : Word :=
  if 0x2000 ≤ o then 0 else if o % 32 = 0 then 0xFBFFFFFF else if o % 32 = 28 then 0 else 0xFFFFFFFF

/-- RW bits of a word of the signature directory (R79). -/
def mask03 (o : Nat) : Word := if 0x4000 ≤ o then 0 else if o % 16 = 0 then 0xFC000000 else 0xFFFFFFFF

/-- RW bits of a word of a timing-set page (R256); page 0x04 also holds the deskew (R285). -/
def mask04 (page o : Nat) : Word :=
  if o < 0x10000 then
    let b := o % 0x1000
    if b = 0 then 0xFFFFFFFF else if b = 4 then 0xFFF else if b = 8 then 3
    else if 0x40 ≤ b ∧ b < 0x840 then
      let r := (b - 0x40) % 0x40
      if r = 0 then 0x33 else if r = 4 then 0xFFFFFFFF else if r = 8 then 0x80000FFF
      else if 0x10 ≤ r ∧ r < 0x30 then (if r % 8 = 0 then 0xFFFFFFFF else 0xC0000FFF)
      else 0
    else 0
  else if page = 4 ∧ o < 0x10080 then 0xFFFFFFFF
  else 0

/-- RW bits of a word of page 0x08 (R346). -/
def mask08 (o : Nat) : Word :=
  if o = 0 then 0xFFF
  else if 0x100 ≤ o ∧ o < 0x300 then (match o % 16 with | 0 => 0x0FFF0FFF | 4 => 0x0FFF0FFF | 8 => 0x80000FFF | _ => 0)
  else 0

/-- RW bits of a word of page 0x09 (R347). -/
def mask09 (o : Nat) : Word :=
  if 0x100 ≤ o ∧ o < 0x300 then (match o % 16 with | 0 => 0x0FFF0FFF | 4 => 0x001F0FFF | 8 => 0x0FFF0FFF | _ => 0) else 0

/-- RW bits of a word of the marker page (R308). -/
def mask0B (o : Nat) : Word :=
  if o < 0x20 then (match o % 16 with | 0 => 0x03FFFF1F | 4 => 0x7FFF | 8 => 0xFFFF | _ => 0xFFFFFFFF) else 0

/-- RW bits of a word of the capture page (R407). -/
def mask0C (o : Nat) : Word :=
  if o = 0 then 0x1FFF0037 else if o = 4 ∨ o = 8 then 0xFFFFFFFF else if o = 0xC then 0x0FFF07FF
  else if o = 0x100 then 0x1FFFFFFF else if o = 0x104 then 0xFFFFFFFF else if o = 0x108 ∨ o = 0x10C then 0x3F0F
  else if o = 0x110 then 0xBF003F07 else if 0x120 ≤ o ∧ o < 0x140 then 0x800003FF else 0

/-- RW bits of a word of the training page (R426). -/
def mask0F (o : Nat) : Word :=
  if o = 0 then 0xC3FFFFF0 else if o = 4 ∨ o = 0xC then 0xFFFFFFFF else if o = 8 then 0x00FF00FF else if o = 0x10 then 0x00FFFFFF else 0

/-- The RW bits of the word at an offset of a configuration page, `PAGE_CRC` apart. -/
def cfgMask (page o : Nat) : Word :=
  if o % 4 ≠ 0 then 0
  else match page with
    | 0x01 => mask01 o | 0x02 => mask02 o | 0x03 => mask03 o
    | 0x04 => mask04 4 o | 0x05 => mask04 5 o | 0x06 => mask04 6 o | 0x07 => mask04 7 o
    | 0x08 => mask08 o | 0x09 => mask09 o
    | 0x0A => if o = 0 then 0xFFFFFFFF else 0
    | 0x0B => mask0B o | 0x0C => mask0C o
    | 0x0D => if o = 0 then 0x80003F3F else 0
    | 0x0F => mask0F o
    | 0x10 => if o = 0 then 0x00FF0F01 else 0
    | 0x11 => if o = 0 then 0x7FFF0001 else 0
    | _ => 0

/-- Reset value of the RW bits of a word of a configuration page. -/
def cfgReset (k : Nat) : Word :=
  let page := k / 2 ^ 20
  let o := k % 2 ^ 20
  match page with
  | 0x01 => if o = 0 then 0x200 else if o = 4 then 8192 else if o = 8 then 512 else if 0x110 ≤ o ∧ o < 0x200 then 0x44444444 else 0
  | 0x08 => if o = 0 then 0x4B0 else 0
  | 0x09 => if 0x100 ≤ o ∧ o < 0x300 ∧ o % 16 = 8 then 0x07D000C8 else 0
  | 0x0B => if o < 0x20 ∧ o % 16 = 8 then 1 else 0
  | 0x0C => if o = 0 then 0x01000000 else if o = 0x100 ∨ o = 0x108 ∨ o = 0x10C then 1 else 0
  | 0x0F => if o = 0 then 0x110 else if o = 4 ∨ o = 8 then 1 else 0
  | 0x10 => if o = 0 then 0x00200700 else 0
  | 0x11 => if o = 0 then 0x08000001 else 0
  | _ => 0

/-- The highest offset plus 4 of the words with RW bits. -/
def cfgEnd (page : Nat) : Nat :=
  match page with
  | 0x01 => 0x200 | 0x02 => 0x2000 | 0x03 => 0x4000 | 0x04 => 0x10080 | 0x05 => 0x10000 | 0x06 => 0x10000 | 0x07 => 0x10000
  | 0x08 => 0x300 | 0x09 => 0x300 | 0x0A => 4 | 0x0B => 0x20 | 0x0C => 0x140 | 0x0D => 4 | 0x0F => 0x14 | 0x10 => 4 | 0x11 => 4 | _ => 0

/-- The offsets of the words that hold an RW field, ascending. -/
def cfgWords (page : Nat) : List Nat := ((List.range (cfgEnd page / 4)).map (4 * ·)).filter fun o => cfgMask page o ≠ 0

/-- A word of a configuration copy. -/
def cfgGet (c : Regs) (page o : Nat) : Word := sget cfgReset (rk page o) c
def cfgPut (c : Regs) (page o : Nat) (v : Word) : Regs := sput cfgReset (rk page o) v c

/-- The committed copy in force; with none committed, the reset values. -/
def Quire.inForce (q : Quire) : Regs := q.committed.getD []
def Quire.cfg (q : Quire) (page o : Nat) : Word := cfgGet q.inForce page o
def Quire.stg (q : Quire) (page o : Nat) : Word := cfgGet q.staging page o

/-- The quire as READ_CFG shows its configuration (R607): the staging copy stands for the committed one in PARKED and STAGED. -/
def Quire.shown (q : Quire) : Quire := if q.state = .parked || q.state = .staged then { q with committed := some q.staging } else q

/-- CRC-32C of the image of a page (R609). -/
def pageCrc (c : Regs) (page : Nat) : Word := crc32c ((cfgWords page).flatMap fun o => leW (cfgGet c page o))

/-- A write of the RW bits of a word (R19, R24, R25). -/
def rwWrite (mask old v : Word) : Word := (old &&& ~~~mask) ||| (v &&& mask)

/-- Configuration pages accept writes only in PARKED and STAGED (R46). -/
def QState.writable (st : QState) : Bool := st = .parked || st = .staged

/-- The staging copy takes the reset values, every page CLEAN (R606, R610). -/
def Quire.stageReset (q : Quire) : Quire := { q with staging := [], dirty := 0, sealedPages := 0, crcWritten := [] }

/-- The staging copy becomes a copy of the committed one (R606); values written to `PAGE_CRC` are not kept (R608). -/
def Quire.stageCopy (q : Quire) : Quire := { q with staging := q.inForce, dirty := 0, sealedPages := 0, crcWritten := [] }

/-- A write to a word of a configuration page (R610): an RW field makes the page DIRTY, `PAGE_CRC` makes it SEALED, and other fields change nothing. -/
def Quire.cfgWrite (q : Quire) (page o : Nat) (v : Word) : Quire :=
  if o = pageCrcOff then
    { q with crcWritten := sset page (some v) q.crcWritten, sealedPages := setBit q.sealedPages page, dirty := clrBit q.dirty page }
  else if cfgMask page o = 0 then q
  else
    { q with staging := cfgPut q.staging page o (rwWrite (cfgMask page o) (q.stg page o) v),
             dirty := setBit q.dirty page, sealedPages := clrBit q.sealedPages page }

/-- RW bits of a word of a chip page (R698 to R700, R571, R736, R737, R790, R791, R639). -/
def chipMask (k : Nat) : Word :=
  let page := k / 2 ^ 20
  let o := k % 2 ^ 20
  match page with
  | 1 => if o = 0 then 0x000F0003 else 0
  | 2 => if o = 0x1C then 0x00FFFFFF else 0
  | 3 => if o = 0 then 0xC000FFFF else if o = 4 then 0xFFFFF else if o = 8 then 0xFFFF else if o = 0x100 then 0xC0FFFFFF else 0
  | 4 =>
    if 0x108 ≤ o ∧ o < 0x308 ∧ (o - 0x108) % 0x40 = 0 then 0x8000FFFF
    else if 0x1000 ≤ o ∧ o < 0x1400 ∧ (o - 0x1000) % 0x40 = 0 then 0xA01FFFFF
    else 0
  | 5 => if o = 0 then 0xC0FFFFFF else if o = 8 then 0x1FFFF else 0
  | 6 => if o = 0 then 0x800003FF else if o = 4 then 0x01FFFFFF else 0
  | 7 => if o = 0 then 0xFFFF else 0
  | 8 => if o = 4 then 0xFFFF else 0
  | 0xA => if o = 0 then 3 else 0
  | _ => 0

end Sys2Proof.Machine
end

