-- ==== Sys2Proof/Machine/Pmbus.lean ====
section
/-! DEFINITION. The VCORE target (R716, R718), and the master on the PMBus (R312, R729 to R733, R737): its transactions, and the setpoints it commands. -/

namespace Sys2Proof.Machine

/-- The states that hold a floor (R716). -/
def QState.holdsFloor : QState → Bool
  | .collated | .armed | .running | .paused | .stopped => true
  | _ => false

/-- The VCORE target of R718. -/
def State.vcoreTarget (s : State) : Nat :=
  let l := ((List.finRange 8).filter fun q => (s.quire q).state.holdsFloor && (s.quire q).floorMv ≠ 0).map fun q => (s.quire q).floorMv + (s.quire q).trimMv
  match l.max? with
  | some v => min 1050 (max 700 v)
  | none => 850

/-! ### Transactions (R729, R730, R732) -/

abbrev pmOperation : Byte := 0x01
abbrev pmClearFaults : Byte := 0x03
abbrev pmVoutMode : Byte := 0x20
abbrev pmVoutCommand : Byte := 0x21
abbrev pmTransitionRate : Byte := 0x27
abbrev pmStatusWord : Byte := 0x79
abbrev pmReadVout : Byte := 0x8B
abbrev pmReadIout : Byte := 0x8C
abbrev pmReadTemp : Byte := 0x8D

/-- The packet error check over the bytes of a transaction: CRC-8 with polynomial x^8 + x^2 + x + 1, from 0. Log entry 185: PRESUMED. -/
def pmCheck (l : List Byte) : Byte :=
  l.foldl (fun c b => (List.range 8).foldl (fun c _ => if c.getLsbD 7 then (c <<< 1) ^^^ 0x07 else c <<< 1) (c ^^^ b)) 0

/-- The bus clock in kHz (R729, R737). -/
def State.pmKhz (s : State) : Nat := match fld (s.reg (rk 10 0)) 0 2 with | 0 => 100 | 1 => 400 | _ => 1000

/-- The exponent of a rail's LINEAR16 format, as VOUT_MODE gave it (R730). Log entry 185: PRESUMED. -/
def pmExponent (rail : Nat) : Int := let n := Config.voutExponent rail % 32; if n < 16 then n else n - 32

/-- A voltage in mV in LINEAR16 with exponent `e` (R730), to the nearest step. Log entry 185: PRESUMED. -/
def linear16 (e : Int) (mv : Nat) : Nat := ((mv * 2 ^ (-e).toNat + 500 * 2 ^ e.toNat) / (1000 * 2 ^ e.toNat)) % 65536

def State.rail (s : State) (i : Nat) : RailView := s.gov.rails.getD i .reset
def State.modRail (s : State) (i : Nat) (f : RailView → RailView) : State := { s with gov := { s.gov with rails := lmod s.gov.rails i f } }

/-- `VCORE_UNREACHABLE` follows rail 0 (R733). -/
def State.vcoreReach (s : State) : State := { s with gov := { s.gov with vcoreUnreachable := decide ((s.rail 0).state = .unreachable) } }

/-- A transaction on a rail, of whose tries the first `fails` fail (R729, R730, R732): each try counts, a failed one in `PM_ERRORS` too; after the third retry the rail is UNREACHABLE, and one that is so returns to OK when a try comes through. Log entry 139: DEDUCED. -/
def State.pmSend (s : State) (i : Nat) (code : Byte) (reads : Bool) (data : List Byte) (fails : Nat) : State :=
  let v := s.rail i
  let tries := min 4 (fails + 1)
  let bytes := [BitVec.ofNat 8 (2 * v.addr.toNat), code] ++ data
  let s : State := { s with gov := { s.gov with bus := s.gov.bus ++
    [{ rail := i, addr := v.addr, code := code, reads := reads, data := data, pec := if reads then none else some (pmCheck bytes), kHz := s.pmKhz, tries := tries }] } }
  let s := s.bump (rk 10 0x300) tries
  let s := if fails = 0 then s else s.bump (rk 10 0x304) (min 4 fails)
  (s.modRail i fun v => { v with state := if 4 ≤ fails then RailState.unreachable else if v.state = .unreachable then .ok else v.state }).vcoreReach

/-! ### Setpoints (R312, R718, R731, R733) -/

/-- The voltage that a rail is to have: VCORE its target, VPINq its setpoint. -/
def State.pmWanted (s : State) (i : Nat) : Nat := if i = 0 then s.vcoreTarget else (s.quires.toList.map (·.vpinSetpoint)).getD (i - 1) 1200

/-- A VOUT_COMMAND is due on a rail: it is present and answers, and its setpoint has changed since the last one. Log entry 139: DEDUCED. -/
def State.pmDue (s : State) (i : Nat) : Bool :=
  decide (7 ≤ s.boot.step) && (s.rail i).present && decide ((s.rail i).state ≠ .unreachable) && decide (s.gov.setpoints.getD i none ≠ some (s.pmWanted i))

/-- The VOUT_COMMAND of a rail. -/
def State.pmSetpoint (s : State) (i : Nat) : State :=
  let mv := s.pmWanted i
  let s : State := s.pmSend i pmVoutCommand false (le 2 (linear16 (pmExponent i) mv)) 0
  { s with gov := { s.gov with setpoints := lset s.gov.setpoints i (some mv) } }

/-- The setpoints that have changed go out, before the reads that remain of a telemetry cycle (R718, R731). Log entry 139: DEDUCED. -/
def State.retarget (s : State) : State := s.each ((List.range 9).filter s.pmDue) State.pmSetpoint

/-- The slew that a rail is given, in mV/µs (R312, R730). -/
def State.pmSlew (s : State) (i : Nat) : Nat := if i = 0 then fld (s.reg (rk 5 0)) 0 8 else 1

/-- VOUT_TRANSITION_RATE of a rail, in LINEAR11 with exponent 0. Log entry 185: PRESUMED. -/
def State.pmRate (s : State) (i : Nat) : State := s.pmSend i pmTransitionRate false (le 2 (s.pmSlew i)) 0

/-- The master talks to a rail: it has started, and the rail is there and answers (R729, R732, R733). -/
def State.pmTells (s : State) (i : Nat) : Bool := decide (7 ≤ s.boot.step) && (s.rail i).present && decide ((s.rail i).state ≠ .unreachable)

/-- The rails of the board record. -/
def State.presentRails (s : State) : List Nat := (List.range 9).filter fun i => (s.rail i).present

/-- What the master sends at start-up: OPERATION, VOUT_MODE and VOUT_TRANSITION_RATE to each rail, and the setpoints (R312, R730). Log entry 185: PRESUMED. -/
def State.pmStart (s : State) : State :=
  ({ s with gov := { s.gov with setpoints := List.replicate 9 none } }.each s.presentRails fun s i =>
    ((s.pmSend i pmOperation false [0x80] 0).pmSend i pmVoutMode true [] 0).pmRate i).retarget

end Sys2Proof.Machine
end

