-- ==== Sys2Proof/Machine/Packet.lean ====
section
/-! DEFINITION. Command packets: form, rights and refusals in their order (R572 to R590, R598, R599, R765), acceptance, and the packets that wait in the link buffers (R637, R837). -/

namespace Sys2Proof.Machine

/-- The Quires column of the opcode tables (R578). -/
inductive QForm where
  | chip | one | mask | chipOrOne | chipOrMask
  deriving DecidableEq, Repr

/-- The Session column (R620); `cfg` is that of READ_CFG, `cfgWrite` that of the configuration writes. -/
inductive Need where
  | none | own | any | owner | steward | ownerOrAny | ownerOrSteward | cfgRead | cfgWrite
  deriving DecidableEq, Repr

/-- A refusal: status and detail. -/
abbrev Refuse := Byte × BitVec 16

/-- An opcode's row of the tables of R620, as far as the packet's form and rights go. -/
structure OpSpec where
  opcode : Byte
  cls : PktClass
  quires : QForm
  need : Need
  /-- Least and greatest number of parameter bytes. -/
  lenMin : Nat
  lenMax : Nat
  /-- Reserved parameter fields (offset, bytes), and single reserved bits as (offset, mask). -/
  reserved : List (Nat × Nat)
  reservedBits : List (Nat × Byte)
  /-- Carried out while `CHIP_FAULTED` = 1 (R765). -/
  inChipFault : Bool
  /-- Carried out on an occupied quire (R589). -/
  whileOccupied : Bool
  /-- Carried out again as a retry (R584). -/
  again : Bool

/-- A row with the usual columns: class CTRL, an exact length, nothing reserved. -/
def opRow (opcode : Byte) (quires : QForm) (need : Need) (len : Nat) (reserved : List (Nat × Nat) := []) : OpSpec :=
  { opcode := opcode, cls := .ctrl, quires := quires, need := need, lenMin := len, lenMax := len, reserved := reserved, reservedBits := [],
    inChipFault := false, whileOccupied := false, again := false }

def opHello : OpSpec := { opRow 0x01 .chip .none 0 with inChipFault := true, again := true }
def opOpenSession : OpSpec := { opRow 0x02 .chipOrMask .none 4 [(1, 3)] with reservedBits := [(0, 0xFC)], inChipFault := true }
def opCloseSession : OpSpec := { opRow 0x03 .chipOrMask .own 4 [(1, 3)] with reservedBits := [(0, 0xFC)], inChipFault := true }
def opReadCfg : OpSpec := { opRow 0x08 .chipOrOne .cfgRead 8 [(6, 2)] with inChipFault := true, whileOccupied := true, again := true }
def opWriteCfg : OpSpec := opRow 0x09 .chipOrOne .cfgWrite 8
def opWriteCfgBlock : OpSpec := { opRow 0x0A .chipOrOne .cfgWrite 8 [(6, 2)] with lenMax := 8200 }
def opCollate : OpSpec := opRow 0x10 .one .owner 0
def opArm : OpSpec := opRow 0x11 .mask .owner 0
def opStart : OpSpec := opRow 0x12 .mask .owner 12
def opStop : OpSpec := opRow 0x13 .mask .owner 0
def opPause : OpSpec := opRow 0x14 .mask .owner 0
def opResume : OpSpec := opRow 0x15 .mask .owner 0
def opRebind : OpSpec := opRow 0x16 .mask .owner 0
def opQuireReset : OpSpec := { opRow 0x17 .mask .owner 0 with whileOccupied := true }
def opLoadSignature : OpSpec := { opRow 0x20 .one .owner 24 [(3, 5)] with cls := .bulk, lenMax := 131072, reservedBits := [(2, 0xFC)] }
def opStreamData : OpSpec := { opRow 0x21 .one .owner 16 [(2, 2), (12, 4)] with cls := .stream, lenMax := 131072 }
def opFreeSignature : OpSpec := opRow 0x22 .one .owner 4 [(2, 2)]
def opQuerySignature : OpSpec := { opRow 0x23 .one .owner 4 [(2, 2)] with whileOccupied := true, again := true }
def opReadVerdict : OpSpec := { opRow 0x28 .one .owner 4 [(2, 2)] with whileOccupied := true }
def opReadCapture : OpSpec := { opRow 0x29 .one .owner 12 [(1, 3)] with whileOccupied := true, again := true }
def opReadRepair : OpSpec := { opRow 0x2A .one .owner 4 with whileOccupied := true, again := true }
def opTimeSet : OpSpec := opRow 0x30 .chip .steward 12
def opTimeAdj : OpSpec := opRow 0x31 .chip .steward 8
def opTimeRead : OpSpec := { opRow 0x32 .chip .any 0 with inChipFault := true, again := true }
def opSnapshot : OpSpec := opRow 0x33 .mask .owner 12
def opCalRetrim : OpSpec := opRow 0x38 .one .owner 4 [(2, 2)]
def opCalCommit : OpSpec := opRow 0x39 .chip .steward 0
def opCalQuery : OpSpec := { opRow 0x3A .chipOrOne .ownerOrAny 4 [(1, 3)] with again := true }
def opLogFreeze : OpSpec := { opRow 0x40 .chip .any 0 with inChipFault := true }
def opLogRead : OpSpec := { opRow 0x41 .chip .any 8 [(6, 2)] with inChipFault := true, again := true }
def opLogThaw : OpSpec := { opRow 0x42 .chip .any 0 with inChipFault := true }
def opFaultRead : OpSpec := { opRow 0x48 .chipOrOne .ownerOrAny 0 with inChipFault := true, whileOccupied := true, again := true }
def opFaultPinHold : OpSpec := { opRow 0x49 .chip .steward 4 [(1, 3)] with inChipFault := true }
def opFaultInject : OpSpec := opRow 0x4A .chipOrOne .ownerOrSteward 4
def opBudgetSet : OpSpec := opRow 0x50 .chip .steward 12
def opBudgetQuery : OpSpec := { opRow 0x51 .chip .any 0 with again := true }
def opPatchStage : OpSpec := { opRow 0x58 .chip .steward 12 [(1, 3)] with lenMax := 8200, reservedBits := [(0, 0xFC)] }
def opSpineRestart : OpSpec := opRow 0x59 .chip .steward 4 [(1, 3)]
def opSelftest : OpSpec := { opRow 0x60 .one .owner 8 [(5, 3)] with reservedBits := [(0, 0xE0), (1, 0xFF), (2, 0xFF), (3, 0xFF)] }
def opTmuMeasure : OpSpec := opRow 0x61 .one .owner 40 [(7, 1)]
def opPmuMeasure : OpSpec := opRow 0x62 .one .owner 32 [(18, 2)]
def opLaneTest : OpSpec := opRow 0x68 .chip .steward 16
def opChipReset : OpSpec := { opRow 0x6F .chip .steward 4 with inChipFault := true }

/-- The opcodes of R620; a packet with any other is MALFORMED (R581). -/
def opcodes : List Byte :=
  [0x01, 0x02, 0x03, 0x08, 0x09, 0x0A, 0x10, 0x11, 0x12, 0x13, 0x14, 0x15, 0x16, 0x17, 0x20, 0x21, 0x22, 0x23, 0x28, 0x29, 0x2A, 0x30, 0x31, 0x32, 0x33,
   0x38, 0x39, 0x3A, 0x40, 0x41, 0x42, 0x48, 0x49, 0x4A, 0x50, 0x51, 0x58, 0x59, 0x60, 0x61, 0x62, 0x68, 0x6F]

/-- The form in which a packet with an opcode outside R620 is judged: nothing of it is in order but its tag. -/
def opUnlisted (opcode : Byte) : OpSpec := { opRow opcode .chipOrMask .none 0 with lenMax := 131072 }

/-! ### The bytes of a packet -/

/-- The header of a command packet with the given opcode (R573). -/
def headerBytes (h : Hdr) (opcode : Byte) : List Byte :=
  [h.version, opcode] ++ le 2 h.session.toNat ++ le 2 h.tag.toNat ++ [h.qmask, h.flags] ++ le 4 h.length ++ le 2 h.detail.toNat ++ le 2 h.rsv.toNat

/-- The packet carries the CRC-32C of its header and its parameters (R574). -/
def wholePacket (h : Hdr) (opcode : Byte) (p : Params) : Bool := h.crc = crc32c (headerBytes h opcode ++ p)

/-- A packet's bytes read as header, parameters and CRC-32C (R572, R573). -/
def readPacket (k : LinkId) (cls : PktClass) (reads : PacketReads) (bytes : List Byte) : Hdr × Params :=
  let body := bytes.take (bytes.length - 4)
  ({ link := k, cls := cls, crc := BitVec.ofNat 32 (unle (lastN 4 bytes)), reads := reads, version := body.getD 0 0, session := BitVec.ofNat 16 (par body 2 2),
     tag := BitVec.ofNat 16 (par body 4 2), qmask := body.getD 6 0, flags := body.getD 7 0, length := par body 8 4, detail := BitVec.ofNat 16 (par body 12 2),
     rsv := BitVec.ofNat 16 (par body 14 2) }, body.drop 16)

/-- The number of a class on its link (R534). -/
def classIndex : PktClass → Fin 4
  | .ctrl => 0 | .bulk => 1 | .stream => 2 | .time => 3

/-- The packet at the front of the link buffer of a class (R540, R545). -/
def State.buffered (s : State) (k : LinkId) (cls : PktClass) : Option (List Byte) := ((s.link k).classes[classIndex cls].packets.head?).map (·.1)

/-- A packet's `OPCODE` byte (R573). -/
def packetOpcode (bytes : List Byte) : Byte := bytes.getD 1 0

/-- The packet that a command's row takes: the one at the front of the link buffer of its class, when that is a packet of this opcode, and else the one that the row gives. Log entry 121: DEDUCED. -/
def State.arriving (s : State) (opcode : Byte) (h : Hdr) (p : Params) : Hdr × Params :=
  match s.buffered h.link h.cls with
  | some bytes => if packetOpcode bytes = opcode then readPacket h.link h.cls h.reads bytes else (h, p)
  | none => (h, p)

/-! ### Form and rights -/

/-- `QMASK` has the form of the Quires column (R578). -/
def qmaskOk (f : QForm) (m : Byte) : Bool :=
  let n := (quiresOf m).length
  match f with
  | .chip => n = 0
  | .one => n = 1
  | .mask => 1 ≤ n
  | .chipOrOne => n ≤ 1
  | .chipOrMask => true

/-- The quire that `QMASK` selects, for a command to one quire. -/
def hdrQuire (h : Hdr) : QId := ((quiresOf h.qmask)[0]?).getD 0

/-- The opcode is one of the three that carry a configuration address. -/
def OpSpec.isCfg (o : OpSpec) : Bool := o.need = .cfgRead || o.need = .cfgWrite

/-- A configuration address whose scope is not reserved names the quire of `QMASK`, or chip scope with `QMASK` 0 (R578). -/
def cfgQmaskOk (h : Hdr) (p : Params) : Bool :=
  let scope := par p 0 4 / 2 ^ 28
  if 9 ≤ scope then true else if scope = 0 then h.qmask = 0 else h.qmask = BitVec.ofNat 8 (2 ^ (scope - 1))

/-- The first MALFORMED refusal of a packet, in the order of R581's details. Log entries 23, 24: DEDUCED. -/
def malformed (o : OpSpec) (h : Hdr) (p : Params) : Option (BitVec 16) :=
  if h.version ≠ 0x01 then some 0x0001
  else if !opcodes.contains o.opcode then some 0x0002
  else if h.length ≠ p.length ∨ p.length < o.lenMin ∨ o.lenMax < p.length
    ∨ (o.opcode = 0x0A ∧ 1 ≤ par p 4 2 ∧ par p 4 2 ≤ 2048 ∧ p.length ≠ 8 + 4 * par p 4 2) then some 0x0003
  else if !qmaskOk o.quires h.qmask || (o.isCfg && !cfgQmaskOk h p) then some 0x0004
  else if h.cls ≠ o.cls then some 0x0005
  else if h.flags &&& 0xFE ≠ 0 ∨ (h.flags &&& 1 ≠ 0 ∧ o.opcode ≠ 0x21) ∨ h.detail ≠ 0 ∨ h.rsv ≠ 0
    ∨ o.reserved.any (fun r => !zeros p r.1 r.2) ∨ o.reservedBits.any (fun r => (p.getD r.1 0) &&& r.2 ≠ 0) then some 0x0006
  else if o.isCfg && decide (par p 0 4 % 4 ≠ 0) then some 0x0008
  else none

/-- The header's session handle is the open handle of its link (R598). -/
def State.handleOk (s : State) (h : Hdr) : Bool := (s.session h.link).isOpen && h.session = (s.session h.link).handle

/-- The session of the link is the chip steward (R597). -/
def State.isSteward (s : State) (k : LinkId) : Bool := (s.session k).isOpen && (s.session k).steward

/-- The session of the link owns the quire (R56). -/
def State.owns (s : State) (k : LinkId) (q : QId) : Bool := (s.session k).isOpen && (s.quire q).owner = some k

/-- The OWNER refusal of a packet (R595, R598, R599, R18); a command on several quires answers ownership quire by quire (R623). An access to a reserved scope (R13) is judged by its `QMASK`, as one to the chip or to that quire. Log entry 26: DEDUCED; log entry 176: DESIGN CHOICE. -/
def notOwner (o : OpSpec) (h : Hdr) (s : State) : Option (BitVec 16) :=
  let one := (quiresOf h.qmask).all fun q => s.owns h.link q
  if o.opcode = 0x01 then none
  else if o.opcode = 0x02 then (if h.session = 0 || s.handleOk h then none else some 0x0001)
  else if !s.handleOk h then some 0x0001
  else
    match o.need with
    | .owner => if o.quires = .one && !one then some 0x0002 else none
    | .steward => if s.isSteward h.link then none else some 0x0003
    | .cfgWrite => if h.qmask = 0 then (if s.isSteward h.link then none else some 0x0003) else if one then none else some 0x0002
    | .cfgRead => if one then none else some 0x0002
    | .ownerOrAny => if one then none else some 0x0002
    | .ownerOrSteward => if h.qmask = 0 then (if s.isSteward h.link then none else some 0x0003) else if one then none else some 0x0002
    | _ => none

/-- A fault of the quire, or of the chip, has been detected and not yet been taken (R53). -/
def State.faultComing (s : State) (q : QId) : Bool :=
  s.collector.reports.any fun r => r.severity = .chip || (r.severity = .quire && (r.quire = some q || r.acts.contains q))

/-- Whom the reply goes to. -/
def hdrDest (h : Hdr) (opcode : Byte) : ReplyTo := { link := h.link, opcode := opcode, session := h.session, tag := h.tag, qmask := h.qmask }

/-- The flits of a packet taken from the link buffer of its class are free again (R541, R546). Log entry 121: DEDUCED. -/
def State.freeBuffer (s : State) (k : LinkId) (cls : PktClass) : State :=
  let i := classIndex cls
  s.modLink k fun l =>
    let c := l.classes[i]
    match c.packets with
    | [] => l
    | (_, n) :: t => { l with classes := l.classes.set i { c with packets := t, freed := c.freed + n } }

/-- A link carries packets (R528, R592). -/
def State.linkUp (s : State) (k : LinkId) : Bool := (s.link k).phase = .up || (s.link k).phase = .changing

/-- Refuse a packet: the reply says which refusal applies (R580). Log entry 27: DEDUCED. -/
def State.refuse (s : State) (h : Hdr) (opcode : Byte) (r : Refuse) (result : List Byte := []) : State :=
  s.answer { dest := hdrDest h opcode, status := r.1, detail := r.2, result := result }

/-- A command is accepted: it counts in `CMDS_ACCEPTED` and is in progress until its reply (R586, R639). Log entry 27: DEDUCED. -/
def State.accept (s : State) (h : Hdr) (opcode : Byte) : State :=
  let s := s.bump (rk 8 (0x104 + 0x20 * h.link.val))
  if opcode = 0x01 then s
  else s.modSession h.link fun x => { x with inProgress := x.inProgress ++ [(h.tag, opcode, h.qmask)] }

/-- A session has its 64 commands in progress (R586). -/
def State.full (s : State) (k : LinkId) : Bool := 64 ≤ (s.session k).inProgress.length

/-- The refusal of a packet by form, rights, chip fault, range, state and occupation, in the order of R580; `check` gives the command's own RANGE or STATE refusal (and those of its chapter). Log entry 22: DEDUCED. -/
def refusal (o : OpSpec) (h : Hdr) (p : Params) (s : State) (check : State → Option Refuse) : Option Refuse :=
  match malformed o h p with
  | some d => some (stMalformed, d)
  | none =>
    match notOwner o h s with
    | some d => some (stOwner, d)
    | none =>
      if (s.collector.faulted && !o.inChipFault) || ((o.quires = .one || o.quires = .chipOrOne) && (quiresOf h.qmask).any fun q => s.faultComing q) then
        some (stFaulted, 0)
      else
        match check s with
        | some r => some r
        | none =>
          if o.opcode ≠ 0x01 && o.quires ≠ .mask && s.full h.link then some (stBusy, 0)
          else if (o.quires = .one || o.quires = .chipOrOne) && !o.whileOccupied && (quiresOf h.qmask).any fun q => (s.quire q).occupied.isSome then some (stBusy, 0)
          else none

/-- What the session's tags say of a packet (R583 to R585): a command in progress with its tag, or a completed one. -/
inductive TagUse where
  | new | inProgress | reused | retry (r : Option Reply)

/-- Log entry 76: DEDUCED. -/
def tagUse (o : OpSpec) (h : Hdr) (s : State) : TagUse :=
  let x := s.session h.link
  if x.isOpen && o.opcode ≠ 0x01 && (h.session = x.handle || (o.opcode = 0x02 && h.session = 0)) then
    if x.inProgress.any (fun e => e.1 = h.tag) then .inProgress
    else
      match x.completed.find? fun c => c.tag = h.tag with
      | some c => if c.opcode ≠ o.opcode then .reused else if o.again then .new else .retry c.reply
      | none => .new
  else .new

/-- Send a reply again, or the refusal of a reused tag: the commands kept for retries stay as they are (R583). -/
def State.resend (s : State) (r : Reply) : State := if s.restarting then { s with heldReplies := s.heldReplies ++ [r] } else s.wire r

/-- A packet in the hands of the interpreter (R575, R580 to R590); `refused` gives the result bytes of a refusal, by its status. Log entry 1: DESIGN CHOICE; log entry 22: DEDUCED. -/
def packet (o : OpSpec) (h : Hdr) (p : Params) (s : State) (check : State → Option Refuse) (run : State → ReplyTo → State)
    (refused : State → Byte → List Byte := fun _ _ => []) : State :=
  if !s.linkUp h.link then s
  else
    let s := s.freeBuffer h.link h.cls
    if !wholePacket h o.opcode p then s.bump (rk 8 (0x108 + 0x20 * h.link.val))
    else
      match tagUse o h s with
      | .inProgress => s.bump (rk 8 (0x10C + 0x20 * h.link.val))
      | .reused => s.resend { dest := hdrDest h o.opcode, status := stMalformed, detail := 0x0007, result := [] }
      | .retry none => s
      | .retry (some r) => s.resend r
      | .new =>
        match refusal o h p s check with
        | some r => s.refuse h o.opcode r (refused s r.1)
        | none => run (s.accept h o.opcode) (hdrDest h o.opcode)

/-- The interpreter takes packets once step 6 of the start-up has ended, and not while it restarts (R637, R837). -/
def State.interpreting (s : State) : Bool := !s.restarting && 7 ≤ s.boot.step

/-- The header of a command packet. -/
def packetHdr : Instr → Option Hdr
  | .hello h _ | .openSession h _ | .closeSession h _ | .readCfg h _ | .writeCfg h _ | .writeCfgBlock h _ | .pageCrcWrite h _ | .collate h _ | .arm h _
  | .start h _ | .stop h _ | .pause h _ | .resume h _ | .rebind h _ | .quireReset h _ | .loadSignature h _ | .streamData h _ | .freeSignature h _
  | .querySignature h _ | .readVerdict h _ | .readCapture h _ _ _ | .readRepair h _ | .timeSet h _ | .timeAdj h _ | .timeRead h _ | .snapshot h _
  | .calRetrim h _ | .calCommit h _ | .calQuery h _ | .logFreeze h _ | .logRead h _ | .logThaw h _ | .faultRead h _ | .faultPinHold h _ | .faultInject h _
  | .budgetSet h _ | .budgetQuery h _ | .patchStage h _ | .spineRestart h _ | .selftest h _ | .tmuMeasure h _ | .pmuMeasure h _ | .laneTest h _
  | .chipReset h _ | .laneOut h _ | .laneReturn h _ | .laneRetrain h _ | .fecInjectWrite h _ | .fecPeakRead h _ | .eiEnWrite h _ | .tsqPop h _
  | .time0Read h _ | .refSelectWrite h _ | .syncModeWrite h _ | .syncSkewWrite h _ | .holdUsWrite h _ | .kcSendTimeLoad h _ | .kcSendPing h _
  | .fenceEngine h _ | .unfenceEngine h _ => some h
  | _ => none

/-- Packets that waited, in the order in which the interpreter takes them: the links in turn, one packet each, and the packets of a link in their order (R57, R588). Log entry 163: DEDUCED. -/
def roundRobin (l : List Instr) : List Instr :=
  (List.range l.length).flatMap fun turn => (List.finRange 8).flatMap fun k : LinkId => ((l.filter fun i => (packetHdr i).any fun h => h.link = k)[turn]?).toList

/-- Packets at the front of a link buffer whose opcode R620 does not list are answered when the interpreter comes to them (R581). Log entry 25: DEDUCED. -/
def State.answerUnlisted (k : LinkId) (cls : PktClass) (s : State) : State :=
  if !s.interpreting || cls = .time then s
  else
    s.each (((s.link k).classes[classIndex cls].packets.map (·.1)).takeWhile fun b => !opcodes.contains (packetOpcode b)) fun s b =>
      let a := readPacket k cls { word := 0, outcome := .good, corrupt := [] } b
      packet (opUnlisted (packetOpcode b)) a.1 a.2 s (fun _ => none) fun s _ => s

/-- The same in every class of a link. -/
def State.takeUnlisted (s : State) (k : LinkId) : State := s.each [PktClass.ctrl, .bulk, .stream] fun s c => s.answerUnlisted k c

/-- A packet comes to the interpreter, or waits while it does not run; the row of another packet than the one that is next in the link buffer changes nothing. Log entry 1: DESIGN CHOICE. -/
def front (row : Hdr → Params → Instr) (opcode : Byte) (h : Hdr) (p : Params) (s : State) (run : Hdr → Params → State → State) : State :=
  if s.interpreting then
    let s := s.answerUnlisted h.link h.cls
    let a := s.arriving opcode h p
    if (s.buffered h.link h.cls).all fun b => packetOpcode b = opcode then run a.1 a.2 s else s
  else if s.linkUp h.link then { s with heldPackets := s.heldPackets ++ [row h p] } else s

/-- The refusal of a command to one quire by the quire's state (R39, R41, R620). -/
def inStates (s : State) (q : QId) (ok : QState → Bool) : Option Refuse :=
  if ok (s.quire q).state then none else some (stState, detState reasonState (s.quire q).state)

/-- Every state except OFF (R41). -/
def notOff (st : QState) : Bool := st ≠ .off

/-- A quire's own refusal of a command on several quires, in the order of R580: ownership, a fault in the same step, the parameters, state, and last 64 commands in progress (`full`) or an occupied quire (R53, R586, R589, R623). Log entries 22, 26: DEDUCED. -/
def quireRefusal (o : OpSpec) (h : Hdr) (s : State) (q : QId) (full : Bool) (range : Option Refuse) (check : Quire → Option Refuse) : Option Refuse :=
  if !s.owns h.link q then some (stOwner, 0x0002)
  else if s.faultComing q then some (stFaulted, 0)
  else
    match range, check (s.quire q) with
    | some r, _ => some r
    | none, some r => some r
    | none, none => if full || (!o.whileOccupied && (s.quire q).occupied.isSome) then some (stBusy, 0) else none

/-- The refusals of a command on several quires, by quire. -/
def maskRefusals (o : OpSpec) (h : Hdr) (s : State) (range : State → Option Refuse) (check : Quire → Option Refuse) : List (Option Refuse) :=
  (List.finRange 8).map fun q => if h.qmask.getLsbD q.val then quireRefusal o h s q (s.full h.link) (range s) check else none

/-- The result bytes of a command on several quires that is refused as a whole (R623). Log entry 78: DEDUCED. -/
def refusedBytes (h : Hdr) (l : List (Option Refuse)) : List Byte :=
  (List.range 8).map fun i => if h.qmask.getLsbD i then (match l.getD i none with | some r => r.1 | none => stOk) else 0xFF

/-- A packet to several quires. It is refused as a whole when each of them refuses it or, where they act together (START), when one does; the lowest-numbered refusal stands in the header (R580, R623). Log entries 22, 26, 27: DEDUCED. -/
def maskPacket (o : OpSpec) (h : Hdr) (p : Params) (s : State) (together : Bool) (range : State → Option Refuse) (check : Quire → Option Refuse)
    (run : State → ReplyTo → State) : State :=
  let refusals := fun (s : State) => maskRefusals o h s range check
  packet o h p s
    (fun s => if together || (refusals s).countP Option.isSome = (quiresOf h.qmask).length then ((refusals s).find? Option.isSome).join else none)
    run
    (fun s _ => if (refusal o h p s fun _ => none).isSome then [] else refusedBytes h (refusals s))

/-- A command on several quires, each on its own (R623). Log entries 26, 27: DEDUCED. -/
def maskCommand (o : OpSpec) (h : Hdr) (p : Params) (s : State) (check : Quire → Option Refuse) (run : State → QId → ReplyTo → State) : State :=
  maskPacket o h p s false (fun _ => none) check fun s d =>
    (s.openMask d).each (quiresOf h.qmask) fun s q =>
      match quireRefusal o h s q false none check with
      | some r => s.quireDone d q r.1 r.2
      | none => run s q d

/-- A quire's state check inside a command on several quires. -/
def stateCheck (ok : QState → Bool) (q : Quire) : Option Refuse := if ok q.state then none else some (stState, detState reasonState q.state)

/-- Number of low offset bits: RANGE with the parameter's offset (R581). -/
def rangeAt (off : Nat) : Option Refuse := some (stRange, BitVec.ofNat 16 off)

end Sys2Proof.Machine
end

