-- ==== Sys2Proof/Machine/Run.lean ====
section
/-! DEFINITION. What the quire's states do to its parts: output profiles and park (R37, R99, R100, R334), the end of an instance and of a run (R399 to R407, R746), cancellation of pattern work (R230 to R236), the endpaper's switch and its aborts (R293 to R301, R797 to R803), and the entries to STOPPED, STAGED, FAULTED and PARKED (R39, R110, R111, R618, R761, R43). -/

namespace Sys2Proof.Machine

/-- `SYNC_MODE` (R700): 0 OFF, 1 FOLLOW, 2 SOURCE. -/
def State.syncMode (s : State) : Nat := fld (s.reg (rk 3 0)) 30 2

/-- Instances in play or in their hold take cause bit `TIME` (R667). -/
def State.timeBad (s : State) : Bool :=
  s.syncMode ≠ 0 && (!s.time.valid || (s.syncMode = 1 && s.time.syncState ≠ .locked))

/-- What a quire's step sees of the chip: chip time in ns and in units of 2^-32 ns, its increment, elapsed ticks, the verdict hold in force, the time form, and the condition of R667. -/
structure Ctx where
  ns : Nat
  total : Nat
  increment : Nat
  ticks : Nat
  holdUs : Nat
  oz : Bool
  timeBad : Bool
  past : List TimeLaw

def State.ctx (s : State) : Ctx :=
  { ns := s.time.ns, total := 2 ^ 32 * s.time.ns + s.time.frac, increment := s.time.increment, ticks := s.time.ticks, holdUs := fld (s.reg (rk 6 0)) 0 10, oz := s.modeOz, timeBad := s.timeBad, past := s.time.past }

/-- The law of chip time in force just before an instant from power-on in units of 0.25 ps. Log entry 167: DEDUCED. -/
def Ctx.lawAt (c : Ctx) (x : Nat) : TimeLaw :=
  ((c.past.takeWhile fun l => decide (x ≤ l.till)).getLast?).getD { till := 4000 * c.ticks, total := c.total, increment := c.increment }

/-- Chip time at an instant, in whole ns (R378, R660, R661). Log entry 167: DEDUCED. -/
def Ctx.timeAt (c : Ctx) (x : Nat) : Nat :=
  let l := c.lawAt (x + 1)
  ((4000 * (l.total : Int) - ((l.till : Int) - x) * l.increment) / (4000 * 2 ^ 32)).toNat

/-- The instant, from power-on in units of 0.25 ps, at which chip time came to `ns` whole ns, within the last tick (R687); the tick itself where a step has passed it (R664). Log entry 167: DEDUCED. -/
def Ctx.instantOf (c : Ctx) (ns : Nat) : Nat :=
  let now := 4000 * c.ticks
  let l := c.lawAt now
  let back := (l.total - 2 ^ 32 * ns) * 4000 / max 1 l.increment
  if 2 ^ 32 * ns ≤ l.total ∧ back < 4000 then now - back else now

/-! ### VPINq (R312, R313) -/

/-- The voltage commanded of VPINq: the ramp of 1 mV/µs, in ticks of 1 ns, from the voltage last commanded to the set point (R312, R313). Log entry 55: DEDUCED. -/
def Quire.vpinRamp (q : Quire) (ticks : Nat) : Nat :=
  let d := (ticks - q.vpinSince) / 1000
  if q.vpinFrom ≤ q.vpinSetpoint then min q.vpinSetpoint (q.vpinFrom + d) else max q.vpinSetpoint (q.vpinFrom - d)

/-- A new set point moves the ramp (R313). Log entry 55: DEDUCED. -/
def Quire.moveVpin (q : Quire) (ticks mv : Nat) : Quire := { q with vpinSetpoint := mv, vpinFrom := q.vpinRamp ticks, vpinSince := ticks }

/-- A measured voltage lies in the window about the commanded ramp (R313). -/
def Quire.vpinInWindow (q : Quire) (ticks mv : Nat) : Bool := decide (mv ≤ q.vpinRamp ticks + 40) && decide (q.vpinRamp ticks ≤ mv + 40)

/-- The ramp has reached the set point, and since then VPINq has been in window for 100 µs (R315). -/
def Quire.vpinSettled (q : Quire) (ticks mv : Nat) : Bool :=
  decide (q.vpinSince + ((q.vpinSetpoint - q.vpinFrom) + (q.vpinFrom - q.vpinSetpoint)) * 1000 + 100000 ≤ ticks)
    && q.vpinOk && decide (q.vpinGood + 100000 ≤ ticks) && q.vpinInWindow ticks mv

/-! ### Outputs -/

/-- PMU pins of the committed configuration (R357). Log entry 111: DEDUCED. -/
def Quire.pmuPins (q : Quire) : Word := q.cfg 0x0A 0

/-- Pins whose committed `TERM_EN` is 1 (R321), PMU pins apart (R357). -/
def Quire.termSet (q : Quire) : Word :=
  ((List.range 32).foldl (fun m p => putBit m p (bit (q.cfg 0x08 (0x108 + 16 * p)) 31)) 0) &&& ~~~q.pmuPins

/-- The cell code of a pin in output profile `p` (R99, R100). -/
def Quire.profileCode (q : Quire) (p pin : Nat) : Nat := if p = 0 then 4 else fld (q.cfg 0x01 (0x100 + 16 * p + 4 * (pin / 8))) (4 * (pin % 8)) 4

/-- The driver state that a drive code gives (R71, R257). -/
def driveOf (code : Nat) (before : Drive) : Drive :=
  match code with
  | 0 => .level 0 | 1 => .level 1 | 2 => .level 2 | 3 => .level 3 | 5 => before | _ => .highZ

/-- The outputs take a profile; profile 0 turns the termination off and the others leave it as committed (R100, R322). PMU pins stay at high impedance (R357). -/
def Quire.takeProfile (q : Quire) (p : Nat) : Quire :=
  { q with
    pins := (List.range 32).map fun i => if bit q.pmuPins i then .highZ else driveOf (q.profileCode p i) (q.pins.getD i .highZ)
    termOn := if p = 0 then 0 else q.termSet }

/-- Park as in PARKED: drivers at high impedance, termination off, no edge to come (R37, R334). Log entry 58: DEDUCED. -/
def Quire.park (q : Quire) : Quire := { q with pins := List.replicate 32 .highZ, termOn := 0, spilled := [], parkDue := none }

/-- The park profile and hold profile of an entry (R93). Log entry 58: DEDUCED. -/
def Quire.parkProfile (q : Quire) (e : Nat) : Nat := fld (q.cfg 0x02 (32 * e)) 4 4
def Quire.holdProfile (q : Quire) (e : Nat) : Nat := fld (q.cfg 0x02 (32 * e)) 0 4

/-! ### Periods and instants (R256, R267, R269, R273, R861) -/

def Quire.ts (q : Quire) (s o : Nat) : Word := q.cfg (4 + s / 16) (0x1000 * (s % 16) + o)
def Quire.tsPeriod (q : Quire) (s : Nat) : Nat := (q.ts s 0).toNat + 2 ^ 32 * fld (q.ts s 4) 0 12
def Quire.tsOz (q : Quire) (s : Nat) : Bool := bit (q.ts s 8) 1
def Quire.tsDefined (q : Quire) (s : Nat) : Bool := s < 64 && bit (q.ts s 8) 0

/-- The defined timing sets, ascending. -/
def Quire.definedSets (q : Quire) : List Nat := (List.range 64).filter q.tsDefined

/-- The period of a hold vector (R273, R861): that of the last played vector's set; before one has played, that of the lowest-numbered defined set, or 1 ns. -/
def Quire.holdPeriod (q : Quire) : Nat :=
  match q.seq.lastSet with
  | some s => q.tsPeriod s
  | none => match q.definedSets with | s :: _ => q.tsPeriod s | [] => 4000

/-- Sum of the periods of the first `n` vectors of a chunk, undefined sets taking the period before them (R267, R272). -/
def Quire.spanOf (q : Quire) (hold : Nat) : List Nat → Nat → Nat
  | _, 0 => 0
  | [], _ => 0
  | t :: rest, n + 1 =>
    let p := if q.tsDefined t then q.tsPeriod t else hold
    p + q.spanOf p rest n

/-- The start of vector `v` of a play, in units of 0.25 ps from the run origin. -/
def Quire.vectorStart (q : Quire) (p : Play) (c : Chunk) (v : Nat) : Nat := p.startsAt + q.spanOf p.hold c.sets v

/-- The first vector of a list of sets that starts at or after `t`, and its start: vector `v` starts at `b`. -/
def Quire.firstFrom (q : Quire) (t : Nat) : Nat → List Nat → Nat → Nat → Option (Nat × Nat)
  | _, [], _, _ => none
  | hold, s :: rest, v, b =>
    let p := if q.tsDefined s then q.tsPeriod s else hold
    if t ≤ b then some (v, b) else q.firstFrom t p rest (v + 1) (b + p)

/-- The first of `n` hold vectors of a period that starts at or after `t`, and its start. -/
def firstHold (t hold n v b : Nat) : Option (Nat × Nat) :=
  let i := (t - b + hold - 1) / hold
  if i < n then some (v + i, b + i * hold) else none

/-- The first vector of a stretch that starts at or after `t` from the run origin: its number from the run origin, and its start. -/
def Quire.vectorFrom (q : Quire) (p : Play) (t : Nat) : Option (Nat × Nat) :=
  match p.chunk with
  | some c => q.firstFrom t p.hold (c.sets.take c.vectors) p.firstVec p.startsAt
  | none => firstHold t (max 1 p.hold) p.vectors p.firstVec p.startsAt

/-- The run origin, and the end of the vectors laid out, in units of 0.25 ps from power-on. -/
def Quire.origin (q : Quire) : Nat := q.originAt
def Quire.position (q : Quire) : Nat := q.origin + q.elapsed

/-- Timing-clock cycle and fine delay of an instant `t` units of 0.25 ps after the run origin (R269). -/
def placed (t : Int) : Int × Nat := (t / 500, (t % 500).toNat)

/-- The spilled edges whose time has come act on their pins, in order (R288, R290); PMU pins stay at high impedance (R357). -/
def Quire.firePins (q : Quire) (limit : Int) : Quire :=
  let due := q.spilled.filter fun e => decide (e.time < limit)
  { q with
    pins := due.foldl (fun l e => if bit q.pmuPins e.pin then l else l.set e.pin e.drive) q.pins
    spilled := q.spilled.filter fun e => decide (limit ≤ e.time) }

/-- Edges and a park profile whose instants lie before `now`, in units of 0.25 ps from power-on (R268, R275, R290). -/
def Quire.pinsAt (q : Quire) (now : Nat) : Quire :=
  match q.parkDue with
  | some (p, t) =>
    if t ≤ now then { (q.firePins ((t : Int) - q.origin)).takeProfile p with spilled := [], parkDue := none } else q.firePins ((now : Int) - q.origin)
  | none => q.firePins ((now : Int) - q.origin)

/-- A marker that is active becomes inactive at an instant (R305). -/
def Marker.falls (m : Marker) (t : Nat) : Marker :=
  if m.active then { m with active := false, edges := (false, t) :: m.edges } else m

/-- Markers become inactive (R305). -/
def Quire.markersOff (q : Quire) : Quire := { q with markers := q.markers.map fun m => { m.falls q.position with awaits := [] } }

/-! ### Signatures of the committed configuration (R79) -/

def Quire.sigCtrl (q : Quire) (s : Nat) : Word := q.cfg 0x03 (16 * s)
def Quire.sigValid (q : Quire) (s : Nat) : Bool := bit (q.sigCtrl s) 31
def Quire.sigLanding (q : Quire) (s : Nat) : Bool := bit (q.sigCtrl s) 30
/-- 0 RAW, 1 CODEC, 2 ALGO. -/
def Quire.sigKind (q : Quire) (s : Nat) : Nat := fld (q.sigCtrl s) 28 2
/-- 0 DRAM, 1 SRAM, 2 STREAM. -/
def Quire.sigHome (q : Quire) (s : Nat) : Nat := fld (q.sigCtrl s) 26 2
def Quire.sigGroups (q : Quire) (s : Nat) : Nat := (q.cfg 0x03 (16 * s + 4)).toNat
def Quire.sigMask (q : Quire) (s : Nat) : Word := q.cfg 0x03 (16 * s + 8)
def Quire.sigLoc (q : Quire) (s : Nat) : Nat := (q.cfg 0x03 (16 * s + 12)).toNat * 64
/-- Chunks of a signature: 64 groups of 64 vectors each, the last one shorter (R198). -/
def Quire.sigChunks (q : Quire) (s : Nat) : Nat := (q.sigGroups s + 63) / 64
/-- Vectors of chunk `i`. -/
def Quire.chunkVectors (q : Quire) (s i : Nat) : Nat := 64 * min 64 (q.sigGroups s - 64 * i)

def Quire.sig (q : Quire) (s : Nat) : SigState := sget (fun _ => SigState.reset) s q.sigs
def Quire.setSig (q : Quire) (s : Nat) (x : SigState) : Quire := { q with sigs := sput (fun _ => SigState.reset) s x q.sigs }
def Quire.modSig (q : Quire) (s : Nat) (f : SigState → SigState) : Quire := q.setSig s (f (q.sig s))

/-! ### Binding entries (R93, R94) -/

def Quire.bindOp (q : Quire) (e : Nat) : Nat := fld (q.cfg 0x02 (32 * e)) 28 4
def Quire.bindStall (q : Quire) (e : Nat) : Bool := bit (q.cfg 0x02 (32 * e)) 27
def Quire.bindSig (q : Quire) (e : Nat) : Nat := fld (q.cfg 0x02 (32 * e)) 16 10
def Quire.bindTarget (q : Quire) (e : Nat) : Nat := fld (q.cfg 0x02 (32 * e)) 8 8
def Quire.bindArg (q : Quire) (e : Nat) : Word := q.cfg 0x02 (32 * e + 4)
def Quire.bindMatch (q : Quire) (e : Nat) : Word := q.cfg 0x02 (32 * e + 8)
def Quire.bindTimeout (q : Quire) (e : Nat) : Nat := (q.cfg 0x02 (32 * e + 12)).toNat
def Quire.bindTime (q : Quire) (oz : Bool) (e : Nat) : Nat := timeOf oz (q.cfg 0x02 (32 * e + 16)) (q.cfg 0x02 (32 * e + 20)) (q.cfg 0x02 (32 * e + 24))
def Quire.startEntry (q : Quire) : Nat := fld (q.cfg 0x01 0) 16 8

/-! ### Loop bodies and reference counts (R81, R859) -/

/-- The last entry of the body of the LOOP_BEGIN at `e`: the highest-numbered LOOP_END whose `TARGET` is `e`. -/
def Quire.bodyEnd (q : Quire) (e : Nat) : Nat :=
  (List.range 256).foldl (fun m i => if q.bindOp i = 3 ∧ q.bindTarget i = e then i else m) e

/-- The entries after `e` up to the end of its body, by index (R859). -/
def Quire.inRunOf (q : Quire) (e i : Nat) : Bool := e < i && i ≤ q.bodyEnd e

/-- The entries that `todo` reaches at one routine level, a CALL going on behind its return. -/
def Quire.atLevel (q : Quire) : Nat → List Nat → List Nat → List Nat
  | 0, _, seen => seen
  | _ + 1, [], seen => seen
  | fuel + 1, e :: todo, seen =>
    if seen.contains e then q.atLevel fuel todo seen
    else
      let next := if e < 255 then [e + 1] else []
      let more := match q.bindOp e with
        | 0 => [] | 5 => [] | 6 => [q.bindTarget e] | 7 => q.bindTarget e :: next
        | 9 => if q.bindTimeout e = 0 then next else q.bindTarget e :: next
        | _ => next
      q.atLevel fuel (more ++ todo) (e :: seen)

/-- Where the routine levels of the table begin: the main path at `START_ENTRY`, and a routine at the target of each CALL, whether or not a path reaches that CALL. Log entry 48: DEDUCED. -/
def Quire.levelStarts (q : Quire) : List Nat := q.startEntry :: ((List.range 256).filter fun c => q.bindOp c = 4).map q.bindTarget

/-- Entry `i` is reached at some routine level, and at none that reaches entry `e` (R859). -/
def Quire.levelApart (q : Quire) (e i : Nat) : Bool :=
  let levels := (e :: q.levelStarts).map fun r => q.atLevel 1024 [r] []
  levels.any (·.contains i) && !levels.any fun l => l.contains i && l.contains e

/-- Entry `i` belongs to the body of the LOOP_BEGIN at `e`: it lies in the body's run of entries, and at the routine level of the LOOP_BEGIN (R859).
An entry of the run that no routine level reaches counts with the run. Log entry 48: DEDUCED. -/
def Quire.inBody (q : Quire) (e i : Nat) : Bool := q.inRunOf e i && !q.levelApart e i

/-- The entries reached from `todo` within a routine, calls of further routines included, up to each RETURN. -/
def Quire.routine (q : Quire) : Nat → List Nat → List Nat → List Nat
  | 0, _, seen => seen
  | _ + 1, [], seen => seen
  | fuel + 1, e :: todo, seen =>
    if seen.contains e then q.routine fuel todo seen
    else
      let next := if e < 255 then [e + 1] else []
      let more := match q.bindOp e with
        | 0 => [] | 5 => [] | 6 => [q.bindTarget e] | 4 => q.bindTarget e :: next | 7 => q.bindTarget e :: next
        | 9 => if q.bindTimeout e = 0 then next else q.bindTarget e :: next
        | _ => next
      q.routine fuel (more ++ todo) (e :: seen)

/-- The entry names the signature (PLAY, MATCH_JUMP). -/
def Quire.names (q : Quire) (e s : Nat) : Bool := (q.bindOp e = 1 || q.bindOp e = 7) && q.bindSig e = s

/-- The entries of a loop body (R859). -/
def Quire.body (q : Quire) (e : Nat) : List Nat := (List.range 256).filter fun i => q.inBody e i

/-- The body of the loop opened at `e` names the signature, itself or through a routine it calls (R81); a body that does both is one frame, and counts once. Log entry 158: DEDUCED. -/
def Quire.bodyNames (q : Quire) (e s : Nat) : Bool :=
  (q.body e).any fun i => q.names i s || (q.bindOp i = 4 && (q.routine 1024 [q.bindTarget i] []).any fun j => q.names j s)

/-- `REFS` of a signature (R81). -/
def Quire.refs (q : Quire) (s : Nat) : Nat :=
  b2n (q.seq.plan.any fun b => b.sig = s && b.ended < b.begun)
    + b2n (q.seq.plan.any fun b => b.sig = s && b.begun < b.requested)
    + b2n (q.seq.landing = some s)
    + (q.seq.loops.filter fun f => q.bodyNames f.entry s).length

/-- The stored image of a signature can be played (R92). -/
def SigState.playable (x : SigState) : Bool := x.buf = .loaded || x.buf = .freeDeferred

/-- The buffer of a signature is emptied, and a load of it ends (R89, R628). -/
def SigState.emptied (x : SigState) : SigState :=
  { x with buf := .empty, damaged := false, load := none, imageBytes := 0, table := [], head := none, headReady := false, changed := true, ratioX100 := 0 }

/-- Empty the buffers whose free was deferred and whose last reference has gone (R90). -/
def Quire.freeDeferred (q : Quire) : Quire :=
  { q with sigs := q.sigs.filterMap fun (i, x) =>
      let y := if x.buf = .freeDeferred ∧ q.refs i = 0 then x.emptied else x
      if y = SigState.reset then none else some (i, y) }

/-- The release sequence that stands for no chunk yet: that of chunk `i` of a landing remainder is `noSeq + i` (R114). -/
abbrev noSeq : Nat := 2 ^ 80

/-- The release sequence that stands for the checksum-table entry of the chunk of release sequence `seq` (R469, R497). -/
abbrev tableSeq (seq : Nat) : Nat := 2 ^ 96 + seq

/-- Release the landing stage, and the references that go with it; data fetched for its signature is discarded (R81, R90, R114, R124). Log entry 83: DEDUCED. -/
def Quire.dropLanding (q : Quire) : Quire :=
  { q with
    seq := { q.seq with
      landing := none, landingAsk := q.seq.landingAsk.filter fun x => some x.1 ≠ q.seq.landing
      landingBad := q.seq.landingBad.filter fun x => some x.1 ≠ q.seq.landing }
    dram := { q.dram with queue := q.dram.queue.filter fun r => !(noSeq ≤ r.seq && r.seq < tableSeq 0 && some r.sig = q.seq.landing) } }.freeDeferred

/-- `TF_FILL`: vectors held in the event FIFOs (R255). Log entry 36: DESIGN CHOICE. -/
def Quire.fill (q : Quire) : Nat := (q.fifo.map (·.vectors)).sum

/-- The fill has changed: `FILL_LOW` and the governor's lowest fill follow (R255, R717). -/
def Quire.noteFill (q : Quire) : Quire := { q with fillLow := min q.fillLow q.fill, lowestFill := min q.lowestFill q.fill }

/-- `SIG_STATUS` (R80). A STREAM-home signature reads EMPTY (R92). -/
def Quire.sigStatus (q : Quire) (s : Nat) : Word :=
  let x := q.sig s
  packW [(16, q.refs s), (8, if q.shown.sigHome s = 2 then 0 else bufCode x.buf), (3, b2n x.headReady), (2, b2n x.poisoned), (1, b2n x.underrun), (0, b2n (q.refs s ≠ 0))]

/-! ### Verdicts (R399 to R407) -/

/-- Set a cause bit of the instances in play, or that left play at most `span` ticks ago (R744). -/
def W.cause (w : W) (c : Ctx) (b span : Nat) : W :=
  w.upd fun q => { q with insts := q.insts.map fun i =>
    if i.hold.isNone ∨ c.ticks - i.endedAt ≤ span then { i with causes := i.causes ||| BitVec.ofNat 16 (2 ^ b) } else i }

/-- Set a cause bit of every instance in play or in its hold. -/
def W.causeAll (w : W) (b : Nat) : W := w.upd fun q => { q with insts := q.insts.map fun i => { i with causes := i.causes ||| BitVec.ofNat 16 (2 ^ b) } }

/-- Set a cause bit of the instances in play. -/
def W.causePlaying (w : W) (b : Nat) : W :=
  w.upd fun q => { q with insts := q.insts.map fun i => if i.hold.isNone then { i with causes := i.causes ||| BitVec.ofNat 16 (2 ^ b) } else i }

/-- Set a cause bit of one instance. -/
def W.causeInst (w : W) (id b : Nat) : W :=
  w.upd fun q => { q with insts := q.insts.map fun i => if i.id = id then { i with causes := i.causes ||| BitVec.ofNat 16 (2 ^ b) } else i }

/-- The instance leaves play: its record enters the verdict store PENDING (R404, R406), and its hold begins with the `HOLD_US` in force (R746). Log entry 64: DEDUCED. -/
def W.endInst (w : W) (c : Ctx) (id : Nat) : W :=
  match w.q.insts.find? fun i => i.id = id && i.hold.isNone with
  | none => w
  | some i =>
    let full := decide (4096 ≤ w.q.verdicts.length)
    let i' := { i with hold := some c.holdUs, endedAt := c.ticks, recSeq := if full then none else some w.q.nextRec }
    let w := w.upd fun q => { q with insts := q.insts.map fun j => if j.id = id then i' else j, playedAt := some c.ticks }
    if full then w.bump (rk 0x0C 0x224)
    else w.upd fun q => { q with nextRec := q.nextRec + 1, verdicts := q.verdicts ++
        [{ id := i.id, verdict := .pending, entry := i.entry, sig := i.sig, inst := i.inst, fails := i.fails, recSeq := q.nextRec, causes := i.causes }] }

/-- The instances in play end now, each taking a cause bit. Log entry 64: DEDUCED. -/
def W.cutInsts (w : W) (c : Ctx) (b : Nat) : W :=
  (w.causePlaying b).each ((w.q.insts.filter fun i => i.hold.isNone).map (·.id)) fun w id => w.endInst c id

/-- The verdict of an instance whose hold has elapsed (R400). -/
def verdictOf (causes : BitVec 16) : Verdict :=
  if causes &&& 0x7FFC ≠ 0 ∨ (causes.getLsbD 1 ∧ !causes.getLsbD 0) then .invalid else if causes.getLsbD 0 then .fail else .pass

/-- `RA_EN` of the committed configuration, and the number of bitmap regions (R388, R408). -/
def Quire.raEn (q : Quire) : Bool := bit (q.cfg 0x0D 0) 31
def Quire.regionCount (q : Quire) : Nat := if bit (q.cfg 0x0C 0) 0 then 2 ^ fld (q.cfg 0x0C 0x110) 0 3 else 0
def Quire.region (q : Quire) (r : Nat) : Region := sget (fun _ => Region.reset) r q.regions
def Quire.setRegion (q : Quire) (r : Nat) (x : Region) : Quire := { q with regions := sput (fun _ => Region.reset) r x q.regions }

/-- A region becomes INCOMPLETE (R414). -/
def Region.incomplete (x : Region) (cause : BitVec 4) : Region := { x with phase := .incomplete, cause := cause, fresh := [], cells := [] }

/-- With the run's verdict the repair regions become INCOMPLETE (R414). -/
def Quire.repairAfterRun (q : Quire) : Quire :=
  if !q.raEn then q
  else
    (List.range q.regionCount).foldl (fun q r =>
      let x := q.region r
      if x.phase = .incomplete then q
      else if q.run.verdict = .invalid then q.setRegion r (x.incomplete 0xA)
      else if x.dropped then q.setRegion r (x.incomplete 0x8)
      else q) q

/-- The run verdict, once the quire has left the run and every hold has elapsed (R401, R402). -/
def W.resolveRun (w : W) : W :=
  w.upd fun q =>
    if q.run.active ∧ q.run.ended ∧ q.insts = [] ∧ q.run.verdict = .pending then
      let r := q.run
      let v : Verdict :=
        if r.clockOrFault ∨ r.anyInvalid ∨ (r.cutShort ∧ !r.anyFail) then .invalid
        else if r.anyFail ∨ r.matchTimeout ∨ r.noEye then .fail
        else .pass
      { q with run := { r with verdict := v } }.repairAfterRun
    else q

/-- The hold of an instance has elapsed: it resolves (R400, R404, R406, R748). -/
def W.resolveInst (w : W) (i : Inst) : W :=
  let v := verdictOf i.causes
  let keep := bit (w.q.cfg 0x0C 0) 4
  let w := w.upd fun q => { q with
    insts := q.insts.filter fun j => j.id ≠ i.id
    verdicts := q.verdicts.filterMap fun x =>
      if x.id = i.id then (if keep ∧ v = .pass then none else some { x with verdict := v, fails := i.fails, causes := i.causes }) else some x
    run := { q.run with causes := q.run.causes ||| i.causes, anyInvalid := q.run.anyInvalid || v = .invalid, anyFail := q.run.anyFail || v = .fail } }
  let w := match v with
    | .pass => w.bump (rk 0x0C 0x228)
    | .fail => w.bump (rk 0x0C 0x22C)
    | _ => w.bump (rk 0x0C 0x230)
  w.resolveRun

/-! ### Cancellation (R230 to R236) -/

/-- A STREAM chunk leaves the window at its release (R857). The codec head of its instance stays until the instance's last chunk leaves. -/
def Quire.leaveWindow (q : Quire) (sig : Nat) (inst : Word) (index : Nat) (isLast : Bool) : Quire :=
  let mine := fun (c : StreamChunk) => c.sig = sig && c.inst = inst
  let heads := if index = 0 then q.streamHeads ++ q.stream.filter (fun c => mine c && c.index = 0xFFFFFFFF) else q.streamHeads
  { q with
    stream := q.stream.filter fun c => !(mine c && (c.index = index || (index = 0 && c.index = 0xFFFFFFFF)))
    streamHeads := if isLast then heads.filter fun c => !mine c else heads }

/-- The slot already holds a VOID_CANCELLED marker. -/
def Slot.cancelled (x : Slot) : Bool := match x.primary with | some c => c.kind = .voidCancelled | none => false

/-- Engines that run pattern items of the given release sequences drop them (R231: the model's steps lie at instruction boundaries). -/
def dropEngines (hit : Nat → Bool) (es : Sparse Engine) : Sparse Engine :=
  es.map fun (i, e) => match e.item with
    | some it => if it.kind = .pattern && hit it.seq then (i, { e with item := none }) else (i, e)
    | none => (i, e)

/-- Remove the pattern items of the given release sequences from the matching store, the ready list and the engines. -/
def Quire.dropItems (q : Quire) (hit : Nat → Bool) : Quire :=
  let keep := fun (it : Item) => !(it.kind = .pattern && hit it.seq)
  { q with store := q.store.filter keep, ready := q.ready.filter keep, delay := q.delay.filter keep, engines := dropEngines hit q.engines }

/-- The marker of a cancelled chunk (R199, R232). -/
def voidCancelled (x : Slot) : Slot :=
  let marker : Chunk := {
    kind := .voidCancelled, voidCause := 0x01, poisoned := false, last := false, shadowed := false, landing := false, sig := 0,
    inst := 0, index := 0, vectors := 0, pinmask := 0, seq := x.seq, crc := 0, sets := [], words := [], edges := [], engine := 0 }
  { x with primary := some marker, copyCrc := none, trapped := none }

/-- Cancel the pattern chunks of the given release sequences; each counts once and leaves a VOID_CANCELLED marker (R231, R232, R235). -/
def W.cancelSeqs (w : W) (hit : Nat → Bool) : W :=
  let n := (w.q.slots.filter fun x => hit x.seq && !x.cancelled).length
  (w.upd fun q => { q.dropItems hit with slots := q.slots.map fun x => if hit x.seq then voidCancelled x else x }).bump (rk 0x10 0x108) n

/-- Cancel every pattern item and empty the release stage and the event FIFOs (R236, R255); STREAM chunks of the cancelled items leave the window (R857). -/
def W.cancelPattern (w : W) : W :=
  let n := (w.q.slots.filter fun x => !x.cancelled).length
  (w.upd fun q => { q.dropItems (fun _ => true) with slots := [], fifo := [], releasePtr := q.nextSeq, stream := [], streamHeads := [], held := false, heldStream := false }.noteFill).bump (rk 0x10 0x108) n

/-! ### The endpaper (R292 to R301) and re-trim (R797 to R803) -/

def pinId (n : Nat) : PinId := ⟨n % 32, Nat.mod_lt _ (by decide)⟩

/-- A takeover of a pin begins (R293). -/
def Quire.epJoin (q : Quire) (pin : Nat) (forced : Bool) : Quire :=
  { q with endpaper := { q.endpaper with phase := .joining, pin := pin, forced := forced, comparing := false, compared := none } }

/-- The corrections that a re-trim found take the place of the old ones; DACs that it left alone keep theirs (R797). -/
def Trim.mended (old found : Trim) : Trim := { taps := found.taps, dacs := if found.dacs = [] then old.dacs else found.dacs }

/-- `CAL_COUNT` of an element counts one (R776, R805). -/
def W.bumpCal (w : W) (pin : Nat) : W :=
  let r := satAdd 16 ((w.q.cal.getD pin .reset).count.toNat) 1
  let w := w.upd fun q => { q with cal := lmod q.cal pin fun x => { x with count := BitVec.ofNat 16 r.1 } }
  if r.2 then (w.upd fun q => { q with satPages := setBit q.satPages 0x18 }).ask (.saturated (rk 0x18 (0x100 + 16 * pin))) else w

/-- A re-trim of one element has completed (R798): its new selections (R803, R804), its count and time, and the next pin of a re-trim of all, or the end. -/
def W.retrimPinDone (w : W) (c : Ctx) (r : Retrim) : W :=
  let t := if r.skipped then r.measuredAt else c.ns
  let w := ((w.bumpCal r.pin).upd fun q => { q with cal := lmod q.cal r.pin fun x => { x with timeNs := t, trimFail := false, mended := false, trim := x.trim.mended r.found } }).bump (rk 0x18 0x4)
  if r.all && r.pin < 31 then
    w.upd fun q => { q.epJoin (r.pin + 1) r.forced with retrim := some { r with pin := r.pin + 1, step := .takeover, skipped := false, found := ⟨[], []⟩ } }
  else w.upd fun q => { q with retrim := none }

/-- The output switch moves (R294, R296): a takeover is in SERVING, a hand-back is over. A forced takeover marks the instance that spans the switch (R298). -/
def W.epMove (w : W) (c : Ctx) (skipped : Bool) : W :=
  match w.q.endpaper.phase with
  | .joining | .comparing =>
    let w := w.when w.q.endpaper.forced fun w => w.causePlaying cbEndpaper
    let w := (w.upd fun q => { q with
      endpaper := { q.endpaper with phase := .serving, drives := some (pinId q.endpaper.pin) }
      retrim := q.retrim.map fun r => if r.step = .takeover then { r with step := .measure, skipped := skipped } else r }).bump (rk 0x04 0x11014)
    w
  | .handingBack =>
    let w := w.upd fun q => { q with endpaper := { q.endpaper with phase := .idle, comparing := false, forced := false, drives := none } }
    match w.q.retrim with
    | some r => if r.step = .handBack then w.retrimPinDone c r else w
    | none => w
  | _ => w

/-- A takeover or hand-back in progress ends with the switch moving at once, when the quire leaves RUNNING (R296, R301). Log entry 34: DEDUCED. -/
def W.epSettle (w : W) (c : Ctx) : W :=
  match w.q.endpaper.phase with
  | .joining | .comparing | .handingBack => w.epMove c true
  | _ => w

/-- Abort a takeover or hand-back (R299, R301); the pin stays on the generator that drives it, and a re-trim in progress ends with it (R803). Log entry 34: DEDUCED. -/
def W.epAbort (w : W) (cause : Nat) : W :=
  match w.q.endpaper.phase with
  | .joining | .comparing | .handingBack =>
    let w := (w.upd fun q => { q with endpaper := { q.endpaper with phase := .idle, comparing := false, forced := false } }).bump (rk 0x04 0x11018)
    let w := w.setLive (rk 0x04 0x1101C) (BitVec.ofNat 32 cause)
    if w.q.retrim.isSome then (w.upd fun q => { q with retrim := none }).bump (rk 0x18 0x8) else w
  | _ => w

/-! ### Measurements that end early (R366, R452) -/

/-- The pin that a source code watches (R428). -/
def srcPin (c : Byte) : Option Nat := if c.getLsbD 7 then none else some (c.toNat % 32)

/-- The source pins of a measurement; source B counts in INTERVAL and PHASE (R438). -/
def TmuJob.pins (j : TmuJob) : List Nat := (srcPin j.srcA).toList ++ (if j.mode = 0 || j.mode = 2 then (srcPin j.srcB).toList else [])

/-- Measurements whose source is one of the pins run on, their result not valid (R453); the first cause stays (R454). Log entry 85: DEDUCED. -/
def Quire.tmuCause (q : Quire) (hit : Nat → Bool) (code : Nat) : Quire :=
  { q with tmus := q.tmus.map fun t => t.map fun j => if j.cause = 0 ∧ j.pins.any hit then { j with cause := code } else j }

/-- The words of a TMU that a reply carries (R620). -/
def tmuKeys (u : TmuId) : List Nat := (List.range 12).map fun i => rk 0x0E (0x40 * u.val + 4 * i)

/-- A TMU's measurement ends (R456): status, counts and the time of its gate; with a cause its results are not valid, and what they then hold is left open. Log entry 108: DESIGN CHOICE. -/
def W.tmuEnd (w : W) (oz : Bool) (u : TmuId) (j : TmuJob) (cause : Nat) : W :=
  let base := 0x40 * u.val
  let t := timeWords oz j.gateTime
  let set := fun (w : W) (x : Nat × Word) => w.setLive (rk 0x0E (base + x.1)) x.2
  let w := [(0, packW [(30, b2n (cause = 0)), (29, b2n j.late), (28, b2n j.stampLimit), (24, cause), (16, j.mode), (8, j.srcB.toNat), (0, j.srcA.toNat)]),
    (0x18, BitVec.ofNat 32 j.a.n), (0x1C, BitVec.ofNat 32 j.a.edges), (0x20, BitVec.ofNat 32 (j.a.edges / 2 ^ 32))].foldl set w
  let w := if j.gateOpen then [(0x24, t.1), (0x28, t.2.1), (0x2C, t.2.2)].foldl set w else w
  let w := if cause = 0 then w else w.each [4, 8, 0xC, 0x10, 0x14] fun w o => w.ask (.freeBits (rk 0x0E (base + o)) 0xFFFFFFFF)
  (w.upd fun q => { q with tmus := q.tmus.set u none }).bump (rk 0x0E (base + 0x30))

/-- A TMU's measurement ends early (R452); the first cause stays (R454). -/
def W.tmuEndEarly (w : W) (oz : Bool) (u : TmuId) (cause : Nat) (status : Byte) (detail : BitVec 16) (result : Bool) : W :=
  match w.q.tmus[u] with
  | none => w
  | some j =>
    let w := w.tmuEnd oz u j (if j.cause = 0 then cause else j.cause)
    match j.waiter with
    | none => w
    | some d => w.ask (.replyLive d status detail (if result then tmuKeys u else []))

/-- Every TMU measurement of the quire ends early. -/
def W.tmusEndEarly (w : W) (oz : Bool) (cause : Nat) (status : Byte) (detail : BitVec 16) (result : Bool) : W :=
  w.each (List.finRange 8) fun w u => w.tmuEndEarly oz u cause status detail result

/-- The PMU measurement ends early, its result not valid (R366). -/
def W.pmuEndEarly (w : W) (status : Byte) (detail : BitVec 16) : W :=
  match w.q.pmu with
  | none => w
  | some j =>
    let w := w.upd fun q => { q with pmu := none }
    let w := w.setLive (rk 0x0A 0x100) (packW [(26, j.mode), (24, j.range), (16, j.pin)])
    let w := (w.setLive (rk 0x0A 0x104) (packW [(29, b2n j.late)])).ask (.freeBits (rk 0x0A 0x104) 0x3FFFF)
    match j.waiter with
    | none => w
    | some d => w.reply d status detail

/-! ### Occupying commands and waiters -/

/-- A class 2 item (R145). -/
def Item.derived (it : Item) : Bool := it.kind = .precompute || it.kind = .head

/-- Class 2 items in the matching store, the ready list and on the engines. -/
def Quire.derivedItems (q : Quire) : List Item := (q.store ++ q.ready ++ q.engines.filterMap fun (e : Nat × Engine) => e.2.item).filter Item.derived

/-- Contexts replaced by new data are dropped from the engines that hold them (R249). -/
def Quire.invalidate (q : Quire) (hit : Nat → Bool) : Quire :=
  { q with engines := q.engines.map fun (i, e) => match e.context with | some c => if c < 0x400 && hit c then (i, { e with context := none }) else (i, e) | none => (i, e) }

/-- The derived work ends short of a commit: the class 2 items that are left are cancelled, and each counts once (R230, R232); contexts loaded from a staging copy that is not committed go (R249). Log entry 54: DESIGN CHOICE. -/
def W.endDerived (w : W) : W :=
  match w.q.derivation with
  | none => w
  | some d =>
    let w := if d.staged then w.upd fun q => q.invalidate d.sigs.contains else w
    let n := w.q.derivedItems.length
    let keep := fun (it : Item) => !it.derived
    let w := w.upd fun q => { q with
      derivation := none, store := q.store.filter keep, ready := q.ready.filter keep
      engines := q.engines.map fun (e : Nat × Engine) => (e.1, { e.2 with item := e.2.item.filter keep })
      dram := { q.dram with queue := q.dram.queue.filter fun r => r.port ≠ .scratch || r.write } }
    if n = 0 then w else w.bump (rk 0x10 0x108) n

/-- A class 2 item fails the command that created it (R186, R498); the first failure stands. -/
def Quire.failDerived (q : Quire) (sig : Nat) : Quire := { q with derivation := q.derivation.map fun d => { d with todo := [], failed := some (d.failed.getD sig) } }

/-- The occupying command of the quire, if any, ends with a status, and its class 2 items with it (R230, R589, R590); so does a SELFTEST that has replied. A collation that settles answers with its collation time (R612). Log entry 57: DEDUCED. -/
def W.endOccupier (w : W) (status : Byte) (detail : BitVec 16) : W :=
  let w := w.upd fun q => { q with selftest := none }
  match w.q.occupied with
  | none => w
  | some o =>
    let w := (w.upd fun q => { q with occupied := none }).endDerived
    match o with
    | .collate d => w.reply d status detail
    | .selftest d _ => w.reply d status detail
    | .loadCheck d => w.reply d status detail
    | .settle d elapsedNs since => if status = stFaulted then w.ask (.replyCollate d status elapsedNs since) else w.reply d status detail
    | .arm d => w.done d status detail
    | .rebind d => w.done d status detail
    | .ended _ => w

/-- An ARM in progress ends with its quire's stay in ARMED. Log entry 29: DESIGN CHOICE. -/
def W.endArm (w : W) : W :=
  match w.q.occupied with
  | some (.arm _) => w.endOccupier stState (detState reasonAborted w.q.state)
  | _ => w

/-- The STOP, PAUSE and RESUME commands that wait on the quire end with a status. -/
def W.endWaiters (w : W) (status : Byte) (detail : BitVec 16) : W :=
  let ds := w.q.stopWaiters ++ (match w.q.stopReq with | some r => r.waiter.toList | none => [])
  (w.upd fun q => { q with stopWaiters := [], stopReq := none }).each ds fun w d => w.done d status detail

/-! ### Leaving a run -/

/-- The sweep in progress makes way for the next one; the last compare results of one that has ended may still be on their way (R370). -/
def Quire.closeSweep (q : Quire) : Quire :=
  { q with sweep := none, pastSweeps := match q.sweep with | some x => if x.ended then x :: q.pastSweeps else q.pastSweeps | none => q.pastSweeps }

/-- A training sweep cut short discards its points (R425). -/
def W.abortSweep (w : W) : W :=
  let w' := w.upd Quire.closeSweep
  match w.q.sweep with
  | some x => if x.ended then w' else w'.bump (rk 0x0F 0x18)
  | none => w'

/-- What every end of a run does: `ENTRY` keeps the last entry (log entry 159: DESIGN CHOICE), frames closed and references gone (R111), the plan and pattern work discarded (R110, R236), the wait and match condition dropped, markers inactive (R305), the power reservation released (R712). -/
def W.leaveRun (w : W) : W :=
  let w := w.cancelPattern.abortSweep
  w.upd fun q =>
    { q.markersOff with
      seq := { Sequencer.reset with entry := q.seq.entry }
      playing := none, recent := match q.playing with | some p => p :: q.recent | none => q.recent
      skipping := false, pausePending := false, resumePending := false, hostPaused := false, startPending := none, reserved := false, trimMv := 0
      applied := List.replicate 32 0 }.freeDeferred

/-- Enter STOPPED (R110, R111, R275, R602, R654): a takeover in progress ends when the quire leaves RUNNING (R301), the instances in play end, cut short unless the run ended by END;
the outputs take the park profile of the entry being played: at once, or, in a run that has played a cycle-mode set, one period of the last played vector's set later (R275).
From ARMED no entry of the run has been played, and the outputs stay parked at high impedance, whatever profile an earlier run left (R37, R654). Log entry 58: DEDUCED. -/
def W.enterStopped (w : W) (c : Ctx) (cause : StopCause) : W :=
  let inRun := w.q.state.inPlay
  let profile := if inRun then w.q.parkProfile w.q.seq.entry else 0
  let due := if cause ≠ .clock && w.q.seq.ozPlayed then w.q.position + w.q.holdPeriod else 0
  let w := if cause = .clock then w.epAbort 0x03 else w.when (w.q.state = .running) fun w => w.epSettle c
  let w := match cause with
    | .clock => w.causeAll cbClock |>.cutInsts c cbClock
    | .endOfRun => w
    | _ => w.cutInsts c cbTruncated
  let w := w.leaveRun
  let w := w.upd fun q =>
    { (if inRun then { q with parkDue := some (profile, due) }.pinsAt (c.ticks * 4000) else q) with
      state := .stopped, stopCause := cause
      run := if inRun then { q.run with ended := true, clockOrFault := q.run.clockOrFault || cause = .clock,
                                        cutShort := q.run.cutShort || cause = .host || cause = .chip,
                                        causes := if cause = .host || cause = .chip then q.run.causes ||| 2 else q.run.causes } else q.run }
  (w.endWaiters stOk 0).resolveRun

/-- Bitmap, repair state and `PIN_FAILS` are cleared (R374). Log entry 62: DEDUCED. -/
def Quire.clearAccumulated (q : Quire) : Quire :=
  { q with bitmap := [], regions := [], live := sdrop (fun k => rk 0x0C 0x300 ≤ k && k < rk 0x0C 0x380) q.live }

/-- Enter STAGED by REBIND (R618, R606, R88, R374): outputs parked, the staging copy a copy of the committed one, STALE signatures LOADED but for those whose stored data was lost (R743); what `ACCUMULATE` = 1 carries over is cleared. -/
def W.enterStaged (w : W) : W :=
  w.upd fun q => { (if bit (q.cfg 0x0C 0) 5 then q.clearAccumulated else q).stageCopy.park with
    state := .staged
    sigs := q.sigs.map fun (i, x) => if x.buf = .stale && !x.damaged then (i, { x with buf := .loaded, changed := true }) else (i, x) }

/-- The quire enters FAULTED (R761, R763, R402, R366, R452, R301): outputs parked, every measurement and takeover ended, waiting commands answered FAULTED. A quire that is OFF or FAULTED stays as it is. -/
def W.enterFaulted (w : W) (c : Ctx) (cause : Byte) : W :=
  if w.q.state = .off || w.q.state = .faulted then w
  else
    let inRun := w.q.state.inPlay
    let w := (w.causeAll cbQuireFault).cutInsts c cbQuireFault
    let w := ((w.epAbort 0x02).pmuEndEarly stFaulted 0).tmusEndEarly c.oz 0x5 stFaulted 0 false
    let w := (w.endOccupier stFaulted 0).endWaiters stFaulted 0
    let w := w.leaveRun
    let w := w.upd fun q => { q.park with
      state := .faulted, faultCause := cause
      run := if inRun then { q.run with ended := true, clockOrFault := true } else q.run }
    w.resolveRun

/-! ### Chip-level consequences -/

/-- STARTs that wait for VCORE (R718) and select quire `q` end: its byte takes a status, no quire starts (R624), and the reservations that they made are released (R712). Log entries 59, 75: DEDUCED. -/
def State.cancelStarts (s : State) (q : QId) (status : Byte) (detail : BitVec 16) : State :=
  let hit := fun (w : StartWait) => w.mask.getLsbD q.val
  let ws := s.gov.waiting.filter hit
  let s := { s with gov := { s.gov with waiting := s.gov.waiting.filter fun w => !hit w } }
  s.each ws fun s (w : StartWait) =>
    let s := s.each (quiresOf w.newly) fun s r => s.modQuire r fun x => { x with reserved := false }
    let bytes := (List.finRange 8).map fun r : QId => if r = q then status else if w.mask.getLsbD r.val then stOk else 0xFF
    s.reply w.dest status detail bytes

/-- The quire leaves ARMED without starting, or leaves a run, by a stop of the given cause. -/
def State.stopQuire (s : State) (q : QId) (cause : StopCause) : State :=
  let before := (s.quire q).state
  (s.onQuire q fun x => x.w.endArm.enterStopped s.ctx cause).cancelStarts q stState (detState reasonAborted before)

/-- A quire fault takes effect (R761). -/
def State.faultQuire (s : State) (q : QId) (cause : Byte) : State :=
  (s.onQuire q fun x => x.w.enterFaulted s.ctx cause).cancelStarts q stFaulted 0

end Sys2Proof.Machine
end

