-- ==== Sys2Proof/Machine/Faults.lean ====
section
/-! DEFINITION. The fault collector (R749 to R769, R788), fault injection (R770 to R774), FAULT_READ and FAULT_PIN_HOLD, and the log's commands (R783 to R787). -/

namespace Sys2Proof.Machine

/-! ### Reports -/

def sevCode : Severity → Nat
  | .alert => 1 | .quire => 2 | .chip => 3

/-- The order of reports detected in one window (R751): severity, checker, quire with the chip first, element. -/
def reportBefore (a b : Report) : Bool :=
  let key := fun (r : Report) => ((3 - sevCode r.severity) * 256 + r.checker) * 16 + (match r.quire with | none => 0 | some q => q.val + 1)
  key a < key b || (key a = key b && a.element.toNat < b.element.toNat)

/-- Word 0x00 of an error record (R759), in the scope of quire nibble `qn`. Log entry 104: DEDUCED. -/
def recWord0 (r : Report) (transient : Bool) (qn : Nat) : Word :=
  packW [(31, 1), (30, b2n transient), (29, b2n r.injected), (26, sevCode r.severity), (16, r.checker), (8, if r.severity = .alert then 0 else r.cause.toNat), (4, qn)]

/-- Word 0x04 of an error record (R759). -/
def recWord4 (r : Report) : Word := packW [(8, r.detail.toNat), (0, r.element.toNat)]

/-- The quire nibble of a report (R759). -/
def quireNibble (q : Option QId) : Nat := (q.map (·.val)).getD 0xF

/-- The 32 bytes of an error record (R759); an empty record reads 0. -/
def recBytes (oz : Bool) (qn : Option Nat) (r : Option ErrRec) : List Byte :=
  match r with
  | none => List.replicate 32 0
  | some e => leW (recWord0 e.report e.transient (qn.getD (quireNibble e.report.quire))) ++ leW (recWord4 e.report) ++ t12 oz e.report.timeNs
      ++ leW e.reports ++ leW e.logSeq ++ leW 0

/-- The log event of a report (R755, R788), at the chip time of its detection (R787): entries of faults and non-maskable alerts take no token (R783). Log entries 103, 104: DEDUCED. -/
def reportEvent (r : Report) (transient : Bool) : LogEvent :=
  { code := match r.severity with | .alert => 0x03 | .quire => 0x01 | .chip => 0x02
    source := 13, quire := r.quire, injected := r.injected, exempt := r.severity ≠ .alert || nonMaskable r.checker
    d0 := recWord0 r transient (quireNibble r.quire), d1 := recWord4 r, d2 := 0, at_ := some (r.timeNs, r.timeValid) }

/-- The log would record the event (R782). -/
def State.records (s : State) (e : LogEvent) : Bool :=
  (e.exempt || sget (fun _ => 0) e.code.toNat s.log.taken < s.logBurst) && s.log.entries.length < 8192 && !s.frozen

/-- The records of a scope with a report taken: it fills the first or the second record, or counts in `REPORTS` (R752, R753); the last part tells that this count became all-ones (R776). Log entry 104: DEDUCED. -/
def fileRecord (first second : Option ErrRec) (e : ErrRec) : (Option ErrRec × Option ErrRec) × Bool :=
  match first, second with
  | none, _ => ((some e, second), false)
  | some _, none => ((first, some e), false)
  | some _, some x => let r := satAdd 32 x.reports.toNat 1; ((first, some { x with reports := BitVec.ofNat 32 r.1 }), r.2)

/-- A report enters the records of the chip. -/
def State.fileChip (s : State) (e : ErrRec) : State :=
  let f := fileRecord s.collector.firstError s.collector.secondError e
  let s := { s with collector := { s.collector with firstError := f.1.1, secondError := f.1.2 } }
  if f.2 then { s with collector := { s.collector with satPages := setBit s.collector.satPages 6 } }.logEvent (satEvent (rk 6 0x134)) else s

/-- A report enters the records of a quire. -/
def W.fileQuire (w : W) (e : ErrRec) : W :=
  let f := fileRecord w.q.firstError w.q.secondError e
  let w := w.upd fun x => { x with firstError := f.1.1, secondError := f.1.2 }
  if f.2 then (w.upd fun x => { x with satPages := setBit x.satPages 0x1C }).ask (.saturated (rk 0x1C 0x134)) else w

/-- The condition behind a report still holds (R756); only then is its record not transient when taken (R757, R863). -/
def State.conditionLive (s : State) (r : Report) : Bool :=
  if r.checker < 0x10 then s.holds r else match r.quire with | some q => (s.quire q).holds r | none => false

/-- The quires that a report acts on, whose records take it beside the chip's for a chip-scope checker (R754); a chip fault acts on every quire
that is not OFF (R764). Log entry 103: DEDUCED. -/
def State.reportQuires (s : State) (r : Report) : List QId :=
  match r.quire with
  | some q => [q]
  | none => if r.severity = .chip then (List.finRange 8).filter fun q => (s.quire q).state ≠ .off else r.acts

/-- Whether a report pulses `FAULT_N` (R750, R767, R768). -/
def State.pulses (s : State) (r : Report) : Bool :=
  if r.severity = .alert then nonMaskable r.checker || bit (s.reg (rk 6 4)) r.checker else !bit (s.reg (rk 6 0)) 31

/-- Take one report (R752 to R757, R761 to R764, R767, R775). -/
def State.takeReport (s : State) (r : Report) : State :=
  let chipScope := decide (r.checker < 0x10)
  let quires := s.reportQuires r
  let transient := lastingChecker r.checker && r.severity ≠ .chip && !s.conditionLive r
  let s := if chipScope then
      { s with collector := { s.collector with sticky := s.collector.sticky ||| BitVec.ofNat 9 (2 ^ r.checker) } }.bump (rk 6 (0x200 + 4 * r.checker))
    else s.each quires fun s q => s.onQuire q fun x =>
      (x.w.upd fun x => { x with qfSticky := x.qfSticky ||| BitVec.ofNat 9 (2 ^ (r.checker - 0x10)) }).bump (rk 0x1C (0x200 + 4 * (r.checker - 0x10)))
  let s := if r.injected then s.bump (rk 6 0x18) else s
  let ev := reportEvent r transient
  let seq : Word := if s.records ev then BitVec.ofNat 32 s.log.entries.length else 0xFFFFFFFF
  let s := s.logEvent ev
  let e : ErrRec := { report := r, transient := transient, read := false, reports := 1, logSeq := seq }
  let s := if chipScope then s.fileChip e else s
  let s := s.each quires fun s q => s.onQuire q fun x => x.w.fileQuire e
  let s := match r.severity with
    | .alert => s
    | .quire => s.each quires fun s q => s.faultQuire q r.cause
    | .chip =>
      let s := if s.collector.faulted then s else { s with collector := { s.collector with faulted := true, faultCause := r.cause } }
      s.each (List.finRange 8) fun s q => s.faultQuire q 0x09
  if s.pulses r then { s with collector := { s.collector with pulse := true } } else s

/-- FAULT_COLLECT_WINDOW (R751): the detected reports are taken in order. -/
def execFaultCollectWindow (s : State) : Out :=
  let rs := sortBy reportBefore s.collector.reports
  .next ({ s with collector := { s.collector with reports := [] } }.each rs State.takeReport)

/-- FAULT_N_PULSE_END (R767). -/
def execFaultNPulseEnd (s : State) : Out := .next { s with collector := { s.collector with pulse := false } }

/-- `FN_LOW`: `FAULT_N` is driven low (R766 to R769). Log entry 150: DEDUCED. -/
def State.fnLow (s : State) : Bool :=
  decide (0 < s.boot.step) && (s.collector.hold || s.collector.pulse
    || (bit (s.reg (rk 6 0)) 31 && (s.collector.faulted || s.quires.toList.any fun q => q.state = .faulted)))

/-! ### FAULT_READ, FAULT_PIN_HOLD, FAULT_INJECT -/

def ErrRec.markRead (r : ErrRec) : ErrRec := { r with read := true }

/-- The records of a scope as they are read, and the scope with them marked read (R757, R759). -/
def State.readRecords (s : State) (q : Option QId) : List Byte × State :=
  match q with
  | none =>
    (recBytes s.modeOz none s.collector.firstError ++ recBytes s.modeOz none s.collector.secondError,
     { s with collector := { s.collector with firstError := s.collector.firstError.map ErrRec.markRead, secondError := s.collector.secondError.map ErrRec.markRead } })
  | some q =>
    let x := s.quire q
    (recBytes s.modeOz (some q.val) x.firstError ++ recBytes s.modeOz (some q.val) x.secondError,
     s.modQuire q fun x => { x with firstError := x.firstError.map ErrRec.markRead, secondError := x.secondError.map ErrRec.markRead })

def doFaultRead (h : Hdr) (p : Params) (s : State) : State :=
  packet opFaultRead h p s (fun s => if h.qmask = 0 then none else inStates s (hdrQuire h) notOff) fun s d =>
    let r := s.readRecords (if h.qmask = 0 then none else some (hdrQuire h))
    r.2.reply d stOk 0 r.1

/-- FAULT_READ (R41, R757, R759). -/
def execFaultRead (h : Hdr) (p : Params) (s : State) : Out := .next (front .faultRead opFaultRead.opcode h p s doFaultRead)

def doFaultPinHold (h : Hdr) (p : Params) (s : State) : State :=
  packet opFaultPinHold h p s (fun _ => if par p 0 1 ≤ 1 then none else rangeAt 0) fun s d =>
    { s with collector := { s.collector with hold := par p 0 1 = 1 } }.reply d stOk

/-- FAULT_PIN_HOLD (R769). -/
def execFaultPinHold (h : Hdr) (p : Params) (s : State) : Out := .next (front .faultPinHold opFaultPinHold.opcode h p s doFaultPinHold)

/-- The checker codes (R738), and whether a checker is of chip scope. -/
def checkerKnown (c : Nat) : Bool := (1 ≤ c && c ≤ 8) || (0x10 ≤ c && c ≤ 0x18)

/-- Number of elements of a checker (R862); 0 = none. -/
def checkerElements (c : Nat) : Nat :=
  match c with
  | 0x08 => 16 | 0x11 => 32 | 0x12 => 64 | 0x13 => 32 | 0x14 => 32 | 0x15 => 128 | 0x16 => 128 | 0x17 => 0x82 | _ => 0

/-- The element that an injection parameter names (R770); a checker without elements takes 0. -/
def injectElement (c e : Nat) : Option Nat :=
  if e = 0xFF then some 0 else if e < checkerElements c then some e else none

def doFaultInject (h : Hdr) (p : Params) (s : State) : State :=
  let c := par p 0 1
  let e := par p 1 1
  packet opFaultInject h p s (fun s =>
      if !checkerKnown c || decide (c < 0x10) != decide (h.qmask = 0) || (injectElement c e).isNone then rangeAt 0
      else if par p 2 2 = 0 then rangeAt 2
      else if h.qmask ≠ 0 ∧ (s.quire (hdrQuire h)).state = .off then some (stState, detState reasonState .off)
      else
        let l := if h.qmask = 0 then s.collector.injections else (s.quire (hdrQuire h)).injections
        if l.any fun i => i.checker = c then some (stBusy, 0) else none)
    fun s d =>
      let i : Injection := { checker := c, element := (injectElement c e).getD 0, left := par p 2 2, made := 0 }
      let s := if h.qmask = 0 then { s with collector := { s.collector with injections := s.collector.injections ++ [i] } }
        else s.modQuire (hdrQuire h) fun x => { x with injections := x.injections ++ [i] }
      s.reply d stOk

/-- FAULT_INJECT (R770 to R773). -/
def execFaultInject (h : Hdr) (p : Params) (s : State) : Out := .next (front .faultInject opFaultInject.opcode h p s doFaultInject)

/-! ### The Sinter log's commands -/

/-- The 32 bytes of a log entry (R787); `corrupt` are the sequences of the entries that fail their check when read. Log entry 177: DEDUCED. -/
def logBytes (oz : Bool) (corrupt : List Nat) (e : LogEntry) : List Byte :=
  leW (BitVec.ofNat 32 e.seq) ++ t12 oz e.timeNs
    ++ leW (packW [(24, e.code.toNat), (20, e.source), (16, e.quire.toNat), (2, b2n (corrupt.contains e.seq)), (1, b2n e.injected), (0, b2n e.timeInvalid)])
    ++ leW e.detail0 ++ leW e.detail1 ++ leW e.detail2

def doLogFreeze (h : Hdr) (p : Params) (s : State) : State :=
  packet opLogFreeze h p s (fun _ => none) fun s d => (s.modSession h.link fun x => { x with frozen := true }).reply d stOk

/-- LOG_FREEZE (R784). -/
def execLogFreeze (h : Hdr) (p : Params) (s : State) : Out := .next (front .logFreeze opLogFreeze.opcode h p s doLogFreeze)

def doLogThaw (h : Hdr) (p : Params) (s : State) : State :=
  packet opLogThaw h p s (fun _ => none) fun s d => (s.modSession h.link fun x => { x with frozen := false }).reply d stOk

/-- LOG_THAW (R784). -/
def execLogThaw (h : Hdr) (p : Params) (s : State) : Out := .next (front .logThaw opLogThaw.opcode h p s doLogThaw)

def doLogRead (h : Hdr) (p : Params) (s : State) : State :=
  let n := par p 4 2
  packet opLogRead h p s (fun _ => if 1 ≤ n ∧ n ≤ 255 then none else rangeAt 4) fun s d =>
    let es := (s.log.entries.drop (par p 0 4)).take n
    s.reply d stOk 0 (le 2 es.length ++ le 2 0 ++ es.flatMap (logBytes s.modeOz h.reads.corrupt))

/-- LOG_READ (R785, R786). -/
def execLogRead (h : Hdr) (p : Params) (s : State) : Out := .next (front .logRead opLogRead.opcode h p s doLogRead)

/-- LOG_TOKEN_REFILL (R783): one millisecond's tokens for every bucket. -/
def execLogTokenRefill (s : State) : Out :=
  .next { s with log := { s.log with taken := s.log.taken.filterMap fun (c, n) => if n ≤ s.logRate then none else some (c, n - s.logRate) } }

end Sys2Proof.Machine
end

