-- ==== Sys2Proof/Machine/Chunk.lean ====
section
/-! DEFINITION. What an engine computes: chunks and their checksum (R197 to R200), the stored forms of RAW, CODEC and ALGO signatures (R75 to R78, R188, R189, R192 to R195), the pattern unit (R165 to R174), the transpose buffer (R179 to R183), and one instruction of a work item (R157 to R164, R184). -/

namespace Sys2Proof.Machine

/-- Stored bytes, by address. -/
abbrev Rd := Nat → Byte

def rdN (rd : Rd) (a n : Nat) : Nat := unle ((List.range n).map fun i => rd (a + i))
def rdEvent (rd : Rd) (a : Nat) : BitVec 256 := BitVec.ofNat 256 (rdN rd a 32)
def up64 (n : Nat) : Nat := (n + 63) / 64 * 64

/-! ### Chunks -/

/-- The 48 bytes of the index record of one group (R198). -/
def indexRecord (sets : List Nat) : List Byte := le 48 ((List.range 64).foldl (fun a k => a + sets.getD k 0 % 64 * 2 ^ (6 * k)) 0)

/-- `CH_CRC` (R200). -/
def chunkCrc (sig index vectors : Nat) (mask : Word) (sets : List Nat) (words : List (BitVec 256)) : Word :=
  crc32c (le 4 sig ++ le 4 index ++ le 4 vectors ++ leW mask
    ++ ((List.range (vectors / 64)).flatMap fun g => indexRecord ((sets.drop (64 * g)).take 64))
    ++ (words.flatMap fun w => le 32 w.toNat))

/-- The cell code of slot `k` of an event word (R197). -/
def slotCode (w : BitVec 256) (k : Nat) : Nat := w.toNat / 2 ^ (4 * k) % 16

/-- The cell code that pin `p` plays in vector `v` of a chunk; a pin outside the mask plays DK (R70, R253). -/
def Chunk.code (c : Chunk) (p v : Nat) : Nat :=
  if bit c.pinmask p then
    let j := ((pinsOf c.pinmask).takeWhile fun i => i < p).length
    slotCode (c.words.getD (j * (c.vectors / 64) + v / 64) 0) (v % 64)
  else 5

/-- `KIND` of the chunk header (R199). -/
def kindCode : ChunkKind → Nat
  | .data => 0 | .voidCancelled => 1 | .voidFailed => 2

/-- The 64 bytes of the chunk header (R199): `VERSION` is 1, and `CH_SEQ` wraps at 16 bits. -/
def Chunk.header (c : Chunk) : List Byte :=
  leW (packW [(24, 1), (20, kindCode c.kind), (18, b2n c.last), (17, b2n c.shadowed), (16, b2n c.landing), (0, c.sig % 1024)])
    ++ leW c.inst ++ le 4 c.index ++ le 4 (c.vectors % 8192) ++ leW c.pinmask ++ le 4 (c.seq % 65536) ++ leW c.crc ++ le 4 c.voidCause.toNat ++ List.replicate 32 0

/-- The 64 event words of pin number `j` of the mask; groups at or beyond `CH_VECTORS` / 64 hold zeros (R198). -/
def Chunk.pinWords (c : Chunk) (j : Nat) : List (BitVec 256) :=
  (List.range 64).map fun g => if g < c.vectors / 64 then c.words.getD (j * (c.vectors / 64) + g) 0 else 0

/-- The bytes of a chunk (R198). -/
def Chunk.bytes (c : Chunk) : List Byte :=
  c.header ++ ((List.range 32).flatMap fun p => leW (c.edges.getD p 0)) ++ List.replicate 832 0
    ++ ((List.range 64).flatMap fun g => if g < c.vectors / 64 then indexRecord ((c.sets.drop (64 * g)).take 64) else List.replicate 48 0)
    ++ ((List.range (pinsOf c.pinmask).length).flatMap fun j => (c.pinWords j).flatMap fun w => le 32 w.toNat)

/-- The checksum over the bytes that the release stage holds (R201). -/
def Chunk.check (c : Chunk) : Word := chunkCrc c.sig c.index c.vectors c.pinmask c.sets c.words

/-! ### Timing-set runs -/

/-- Records of R76: the timing set and the run length. -/
def records (rd : Rd) (a n : Nat) : List (Nat × Nat) := (List.range n).map fun i => let w := rdN rd (a + 4 * i) 4; (w / 2 ^ 26, w % 2 ^ 26)

/-- The runs of `n` vectors after the first `skip`. -/
def cutRuns (skip n : Nat) : List (Nat × Nat) → List (Nat × Nat)
  | [] => []
  | (s, l) :: t =>
    if n = 0 then []
    else if l ≤ skip then cutRuns (skip - l) n t
    else (s, min n (l - skip)) :: cutRuns 0 (n - min n (l - skip)) t

/-- The timing set of each vector. -/
def expandRuns (runs : List (Nat × Nat)) : List Nat := runs.flatMap fun r => List.replicate r.2 r.1

def runSum (runs : List (Nat × Nat)) : Nat := (runs.map (·.2)).sum

/-! ### RAW (R75 to R78) -/

/-- The cell section of a RAW image begins here (R75). -/
def rawCells (rd : Rd) : Nat := up64 (4 + 4 * rdN rd 0 4)

/-- The event words of `g` groups from group `g0` on, pins in ascending order and each pin's groups in order (R77, R198). -/
def rawWords (rd : Rd) (m g0 g : Nat) : List (BitVec 256) :=
  (List.range m).flatMap fun j => (List.range g).map fun k => rdEvent rd (rawCells rd + 32 * ((g0 + k) * m + j))

/-- What a built-in program reads for a chunk: timing-set runs and event words. -/
structure Source where
  runs : List (Nat × Nat)
  words : List (BitVec 256)
  tokens : Nat

/-- Chunk `i` of a RAW image. -/
def rawSource (rd : Rd) (m i vectors : Nat) : Source :=
  { runs := cutRuns (4096 * i) vectors (records rd 4 (rdN rd 0 4)), words := rawWords rd m (64 * i) (vectors / 64), tokens := 0 }

/-- A RAW chunk carried by STREAM_DATA (R630). Log entry 44: DEDUCED. -/
def rawStream (rd : Rd) (m vectors : Nat) : Source :=
  { runs := records rd 4 (rdN rd 0 4), words := rawWords rd m 0 (vectors / 64), tokens := 0 }

/-! ### CODEC (R192 to R195) -/

/-- What a token produces, and the bytes that follow it (R194). A REPEAT without a word before it and a DICT beyond the dictionary produce nothing. -/
def tokenWords (dict : Nat → BitVec 256) (d : Nat) (rd : Rd) (a : Nat) (last : Option (BitVec 256)) (t : Nat) : List (BitVec 256) × Nat :=
  let n14 := t % 2 ^ 14
  match t / 2 ^ 14 with
  | 0 => (if t % 128 < d then [dict (t % 128)] else [], 0)
  | 1 => (match last with | some w => List.replicate n14 w | none => [], 0)
  | 2 => (List.replicate (t % 1024) (BitVec.ofNat 256 ((List.range 64).foldl (fun x k => x + n14 / 1024 * 16 ^ k) 0)), 0)
  | _ => ((List.range (t % 128)).map fun i => rdEvent rd (a + 2 + 32 * i), 32 * (t % 128))

/-- The words of `n` tokens from an address on. -/
def decodeTokens (dict : Nat → BitVec 256) (d : Nat) (rd : Rd) : Nat → Nat → Option (BitVec 256) → List (BitVec 256)
  | 0, _, _ => []
  | n + 1, a, last =>
    let r := tokenWords dict d rd a last (rdN rd a 2)
    r.1 ++ decodeTokens dict d rd n (a + 2 + r.2) (match r.1.getLast? with | some w => some w | none => last)

/-- A chunk stream (R193) at an address. Log entry 44: DEDUCED. -/
def codecStream (dict : Nat → BitVec 256) (d : Nat) (rd : Rd) (a : Nat) : Source :=
  let h := rdN rd a 4
  let n := h % 2 ^ 16
  { runs := records rd (a + 4) n, words := decodeTokens dict d rd (h / 2 ^ 16) (a + 4 + 4 * n) none, tokens := h / 2 ^ 16 }

def codecDict (rd : Rd) (i : Nat) : BitVec 256 := rdEvent rd (64 + 32 * i)
def codecEntries (rd : Rd) : Nat := rdN rd 4 4

/-- Where the chunk table of a CODEC image begins (R192). -/
def codecTable (rd : Rd) : Nat := up64 (64 + 32 * codecEntries rd)

/-- Chunk `i` of a CODEC image. -/
def codecSource (rd : Rd) (i : Nat) : Source := codecStream (codecDict rd) (codecEntries rd) rd (64 * rdN rd (codecTable rd + 4 * i) 4)

/-! ### ALGO (R188, R189) -/

structure AlgoDesc where
  version : Word
  progWords : Nat
  paramBytes : Nat
  scramSets : Nat
  opsBound : Nat
  deriving DecidableEq, Repr

def algoDesc (rd : Rd) : AlgoDesc :=
  { version := BitVec.ofNat 32 (rdN rd 0 4), progWords := rdN rd 4 4, paramBytes := rdN rd 8 4, scramSets := rdN rd 12 4, opsBound := rdN rd 16 4 }

def AlgoDesc.paramAt (d : AlgoDesc) : Nat := 64 + up64 (4 * d.progWords)
def AlgoDesc.scramAt (d : AlgoDesc) : Nat := d.paramAt + up64 d.paramBytes
def AlgoDesc.cellAt (d : AlgoDesc) : Nat := d.scramAt + up64 (32 * d.scramSets)
def AlgoDesc.unitAt (d : AlgoDesc) : Nat := d.cellAt + 64
/-- The descriptor's size (R188). -/
def AlgoDesc.size (d : AlgoDesc) : Nat := d.unitAt + 128

/-- The bits of the unit registers that hold a value (R161). -/
def unitMask : List DWord :=
  [0xFFFFF, 0xFFFFF, 0xFF, 0xFFFFF, 0xFFFFF, 0xFFFFF, 0xFFFFF, 0xFF, 0xFF, 0x73F, 0xFFFF7, 0xFFFFF000FFFFF, 0xFFFFFFFFFFFFFFFF, 0xFFFFFFFFFFFFFFFF]

/-- The unit registers that a descriptor sets (R161, R190); reserved bits of its words are masked off and refuse nothing. Log entry 174: DESIGN CHOICE. -/
def algoUnit (rd : Rd) (d : AlgoDesc) : List DWord :=
  (List.range 14).map fun i => BitVec.ofNat 64 (rdN rd (d.unitAt + 8 * i) 8) &&& unitMask.getD i 0

def algoProgram (rd : Rd) (d : AlgoDesc) : List Word := (List.range d.progWords).map fun i => BitVec.ofNat 32 (rdN rd (64 + 4 * i) 4)

/-- The bytes of a region, as a list. -/
def rdBytes (rd : Rd) (a n : Nat) : List Byte := (List.range n).map fun i => rd (a + i)

/-! ### Fields of an instruction (R162) -/

def opcodeOf (w : Word) : Nat := fld w 26 6
def fmtA (w : Word) : FmtA := { rd := BitVec.ofNat 5 (fld w 21 5), ra := BitVec.ofNat 5 (fld w 16 5), rb := BitVec.ofNat 5 (fld w 11 5), imm := BitVec.ofNat 11 (fld w 0 11) }
def fmtB (w : Word) : FmtB := { rd := BitVec.ofNat 5 (fld w 21 5), ra := BitVec.ofNat 5 (fld w 16 5), imm := BitVec.ofNat 16 (fld w 0 16) }
def fmtC (w : Word) : FmtC := { ra := BitVec.ofNat 5 (fld w 21 5), rb := BitVec.ofNat 5 (fld w 16 5), off := BitVec.ofNat 16 (fld w 0 16) }
def encA (op : Nat) (f : FmtA) : Word := packW [(26, op), (21, f.rd.toNat), (16, f.ra.toNat), (11, f.rb.toNat), (0, f.imm.toNat)]
def encB (op : Nat) (f : FmtB) : Word := packW [(26, op), (21, f.rd.toNat), (16, f.ra.toNat), (0, f.imm.toNat)]
def encC (op : Nat) (f : FmtC) : Word := packW [(26, op), (21, f.ra.toNat), (16, f.rb.toNat), (0, f.off.toNat)]

/-! ### An engine at work -/

/-- What an instruction leaves: the engine goes on, or its item ends. -/
inductive EStep where
  | go (e : Engine)
  | done (e : Engine)
  | trap (code : Byte) (e : Engine)

abbrev trapIllegal : Byte := 0x01
abbrev trapBranch : Byte := 0x02
abbrev trapAccess : Byte := 0x03
abbrev trapUnit : Byte := 0x04
abbrev trapCount : Byte := 0x05
abbrev trapOps : Byte := 0x06
abbrev trapEcc : Byte := 0x07

/-- The engine runs a program of the host (R147): only ALGO contexts have an operation bound. -/
def Engine.algo (e : Engine) : Bool := e.opsBound ≠ 0

/-- The context is one of the two of the background services (R145). -/
def Engine.background (e : Engine) : Bool := match e.context with | some c => 0x400 ≤ c | none => false

/-- Instructions of the program (R184); those of a background program are in the program ROM. Log entry 7: DESIGN CHOICE. -/
def Engine.progLen (e : Engine) : Nat := if e.background then Config.romProgramWords (e.context.getD 0) else e.istore.length

/-- The instruction at the program counter is `w`; the words of the background programs are not given. Log entry 1: DESIGN CHOICE; log entry 43: DEDUCED. -/
def Engine.fetches (e : Engine) (w : Word) : Bool := e.background || e.istore[e.pc]? = some w

def Engine.x (e : Engine) (r : BitVec 5) : DWord := if r = 0 then 0 else sget (fun _ => 0) r.toNat e.regs
def Engine.setX (e : Engine) (r : BitVec 5) (v : DWord) : Engine := if r = 0 then e else { e with regs := sput (fun _ => 0) r.toNat v e.regs }
def Engine.u (e : Engine) (i : Nat) : Nat := (sget (fun _ => (0 : DWord)) i e.unit).toNat
def Engine.setU (e : Engine) (i : Nat) (v : DWord) : Engine := { e with unit := sput (fun _ => 0) i (v &&& unitMask.getD i 0) e.unit }
/-- Log entry 41: DEDUCED. -/
def Engine.vectors (e : Engine) : Nat := (e.item.map (·.vectors)).getD 0

/-- Go to an instruction; a target outside the program traps (R184). -/
def Engine.goto (e : Engine) (t : Int) : EStep :=
  if 0 ≤ t ∧ t < e.progLen then .go { e with pc := t.toNat } else .trap trapBranch e

/-- Go on with the next instruction. -/
def Engine.next (e : Engine) : EStep := e.goto (e.pc + 1)

/-- Write a register and go on. -/
def Engine.put (e : Engine) (r : BitVec 5) (v : DWord) : EStep := (e.setX r v).next

/-- An instruction gets as far as its work: no reserved field stops it, and no operation bound (R163, R184). -/
def Engine.issues (legal : Bool) (cost : Nat) (e : Engine) : Bool := legal && !(e.algo && decide (e.opsBound < e.opsUsed + cost))

/-- Begin an instruction: a reserved field that is not 0 traps, and so does an operation count beyond the bound (R163, R184); a cause of the instruction's own comes after both. Log entries 38, 40: DEDUCED; log entry 178: DESIGN CHOICE. -/
def issue (legal : Bool) (cost : Nat) (e : Engine) (k : Engine → EStep) : EStep :=
  if !legal then .trap trapIllegal e
  else if e.algo && decide (e.opsBound < e.opsUsed + cost) then .trap trapOps e
  else k { e with opsUsed := e.opsUsed + cost }

/-- A format A instruction that uses `rd`, `ra` and `rb`. -/
def alu (f : FmtA) (cost : Nat) (g : DWord → DWord → DWord) (e : Engine) : EStep :=
  issue (f.imm = 0) cost e fun e => e.put f.rd (g (e.x f.ra) (e.x f.rb))

/-- A format B instruction that uses `rd`, `ra` and the immediate. -/
def aluImm (f : FmtB) (g : DWord → DWord) (e : Engine) : EStep := issue true 1 e fun e => e.put f.rd (g (e.x f.ra))

def simm (i : BitVec 16) : DWord := i.signExtend 64
def zimm (i : BitVec 16) : DWord := i.setWidth 64

def eNop (f : FmtA) (e : Engine) : EStep := issue (f.rd = 0 ∧ f.ra = 0 ∧ f.rb = 0 ∧ f.imm = 0) 1 e Engine.next
def eAdd (f : FmtA) : Engine → EStep := alu f 1 (· + ·)
def eSub (f : FmtA) : Engine → EStep := alu f 1 (· - ·)
def eAnd (f : FmtA) : Engine → EStep := alu f 1 (· &&& ·)
def eOr (f : FmtA) : Engine → EStep := alu f 1 (· ||| ·)
def eXor (f : FmtA) : Engine → EStep := alu f 1 (· ^^^ ·)
def eShl (f : FmtA) : Engine → EStep := alu f 1 fun a b => a <<< (b.toNat % 64)
def eShr (f : FmtA) : Engine → EStep := alu f 1 fun a b => a >>> (b.toNat % 64)
def eMul (f : FmtA) : Engine → EStep := alu f 2 (· * ·)

/-- The number of ones. -/
def popcount (v : DWord) : Nat := ((List.range 64).filter fun i => v.getLsbD i).length
def ePopc (f : FmtA) (e : Engine) : EStep := issue (f.rb = 0 ∧ f.imm = 0) 1 e fun e => e.put f.rd (BitVec.ofNat 64 (popcount (e.x f.ra)))
def eMinu (f : FmtA) : Engine → EStep := alu f 1 fun a b => if a < b then a else b
def eMaxu (f : FmtA) : Engine → EStep := alu f 1 fun a b => if a < b then b else a
def eAddi (f : FmtB) : Engine → EStep := aluImm f (· + simm f.imm)
def eAndi (f : FmtB) : Engine → EStep := aluImm f (· &&& zimm f.imm)
def eOri (f : FmtB) : Engine → EStep := aluImm f (· ||| zimm f.imm)
def eXori (f : FmtB) : Engine → EStep := aluImm f (· ^^^ zimm f.imm)
def eShli (f : FmtB) : Engine → EStep := aluImm f (· <<< (f.imm.toNat % 64))
def eShri (f : FmtB) : Engine → EStep := aluImm f (· >>> (f.imm.toNat % 64))
def eLui (f : FmtB) (e : Engine) : EStep := issue (f.ra = 0) 1 e fun e => e.put f.rd (BitVec.ofNat 64 (f.imm.toNat * 65536))

/-- Where LD and LDW may read (R149, R184). -/
def readable (a n : Nat) : Bool := a + n ≤ 0x20 || (0x100 ≤ a && a + n ≤ 0xD08) || (0xE00 ≤ a && a + n ≤ 0x2000)
/-- Where ST and STW may write: scratch. -/
def writable (a n : Nat) : Bool := 0xE00 ≤ a && a + n ≤ 0x1C00

/-- The byte address of a load or store. Log entry 39: DEDUCED. -/
def Engine.addr (e : Engine) (f : FmtB) : Nat := (e.x f.ra + simm f.imm).toNat

/-- LD and LDW read the data store where the address is one they may read. -/
def loadReads (f : FmtB) (n : Nat) (e : Engine) : Bool := e.issues true 2 && decide (e.addr f % n = 0) && readable (e.addr f) n

/-- Log entry 39: DEDUCED. -/
def eLoad (f : FmtB) (n : Nat) (e : Engine) : EStep :=
  issue true 2 e fun e =>
    if e.addr f % n = 0 && readable (e.addr f) n then e.put f.rd (BitVec.ofNat 64 (unle (bread (e.addr f) n e.dstore))) else .trap trapAccess e
/-- Log entry 39: DEDUCED. -/
def eStore (f : FmtB) (n : Nat) (e : Engine) : EStep :=
  issue true 1 e fun e =>
    if e.addr f % n = 0 && writable (e.addr f) n then { e with dstore := bwrite (e.addr f) (le n (e.x f.rd).toNat) e.dstore }.next else .trap trapAccess e
def eLd (f : FmtB) : Engine → EStep := eLoad f 8
def eSt (f : FmtB) : Engine → EStep := eStore f 8
def eLdw (f : FmtB) : Engine → EStep := eLoad f 4
def eStw (f : FmtB) : Engine → EStep := eStore f 4

/-- A branch, counted from the instruction after it. -/
def eBranch (f : FmtC) (taken : DWord → DWord → Bool) (e : Engine) : EStep :=
  issue true 1 e fun e => if taken (e.x f.ra) (e.x f.rb) then e.goto (e.pc + 1 + f.off.toInt) else e.next
def eBeq (f : FmtC) : Engine → EStep := eBranch f fun a b => a = b
def eBne (f : FmtC) : Engine → EStep := eBranch f fun a b => a ≠ b
def eBltu (f : FmtC) : Engine → EStep := eBranch f fun a b => a < b
def eBgeu (f : FmtC) : Engine → EStep := eBranch f fun a b => b ≤ a
def eLoop (f : FmtC) (e : Engine) : EStep :=
  issue (f.rb = 0) 1 e fun e =>
    let e := e.setX f.ra (e.x f.ra - 1)
    if e.x f.ra ≠ 0 then e.goto (e.pc + 1 + f.off.toInt) else e.next
def eJal (f : FmtB) (e : Engine) : EStep :=
  issue (f.ra = 0) 1 e fun e => (e.setX f.rd (BitVec.ofNat 64 (e.pc + 1))).goto (e.pc + 1 + f.imm.toInt)
def eJr (f : FmtA) (e : Engine) : EStep := issue (f.rd = 0 ∧ f.rb = 0 ∧ f.imm = 0) 1 e fun e => e.goto ((e.x f.ra).toNat % 2048)

/-- A unit register as UGET reads it (R161). Log entries 40, 41: DEDUCED. -/
def Engine.uget (e : Engine) (i : Nat) : DWord :=
  if i = 14 then BitVec.ofNat 64 e.emitted else if i = 15 then BitVec.ofNat 64 e.opsUsed else sget (fun _ => 0) i e.unit
/-- Log entries 38, 40: DEDUCED. -/
def eUget (f : FmtB) (e : Engine) : EStep := issue (f.ra = 0) 1 e fun e => e.put f.rd (e.uget (f.imm.toNat % 16))
/-- Log entry 38: DEDUCED. -/
def eUset (f : FmtB) (e : Engine) : EStep :=
  issue (f.rd = 0) 1 e fun e => if f.imm.toNat % 16 < 14 then (e.setU (f.imm.toNat % 16) (e.x f.ra)).next else e.next

/-! ### The pattern unit (R165 to R174) -/

/-- Counters: 0 X, 1 Y, 2 Z, by nesting, innermost first (`AC_CTRL`). -/
def Engine.order (e : Engine) : List Nat := [e.u 9 % 4, e.u 9 / 4 % 4, e.u 9 / 16 % 4]
def Engine.start (e : Engine) (c : Nat) : Nat := e.u (3 + 2 * c)
def Engine.limit (e : Engine) (c : Nat) : Nat := e.u (4 + 2 * c)
def Engine.down (e : Engine) (c : Nat) : Bool := e.u 9 / 2 ^ (8 + c) % 2 = 1

/-- A start above its limit, or a nesting that does not name each counter once (R168). -/
def Engine.unitBad (e : Engine) : Bool :=
  (List.range 3).any (fun c => e.limit c < e.start c) || !(List.range 3).all fun c => e.order.contains c

/-- One counter step (R166): a counter that passes its last value takes its first and steps the next one outward. -/
def stepCounters : List Nat → Engine → Engine
  | [], e => e
  | c :: t, e =>
    let v := e.u c
    if e.down c then
      if e.start c < v then e.setU c (BitVec.ofNat 64 (v - 1)) else stepCounters t (e.setU c (BitVec.ofNat 64 (e.limit c)))
    else if v < e.limit c then e.setU c (BitVec.ofNat 64 (v + 1))
    else stepCounters t (e.setU c (BitVec.ofNat 64 (e.start c)))

def Engine.span (e : Engine) (c : Nat) : Nat := e.limit c - e.start c + 1

/-- The counters after `n` steps from their first values (R167). -/
def seekCounters : List Nat → Nat → Engine → Engine
  | [], _, e => e
  | c :: t, n, e =>
    let k := n % e.span c
    seekCounters t (n / e.span c) (e.setU c (BitVec.ofNat 64 (if e.down c then e.limit c - k else e.start c + k)))

/-- The address word (R165). -/
def Engine.addressWord (e : Engine) : DWord :=
  BitVec.ofNat 64 (e.u 0 + 2 ^ 20 * e.u 1 + 2 ^ 40 * e.u 2 + 2 ^ (56 + e.u 2 % 8))

def eAgen (f : FmtA) (e : Engine) : EStep :=
  issue (f.ra = 0 ∧ f.rb = 0 ∧ f.imm = 0) 1 e fun e =>
    if e.unitBad then .trap trapUnit e else (stepCounters e.order (e.setX f.rd e.addressWord)).next
def eAseek (f : FmtA) (e : Engine) : EStep :=
  issue (f.rd = 0 ∧ f.rb = 0 ∧ f.imm = 0) 4 e fun e =>
    if e.unitBad then .trap trapUnit e
    else (seekCounters e.order ((e.x f.ra).toNat % (e.span 0 * e.span 1 * e.span 2)) e).next

/-- A word scrambled by the 32 selectors of a set; `none` where a selector is reserved (R169, R170). -/
def scramble (sel : List Byte) (v : DWord) : Option DWord :=
  if sel.any fun b => 0x41 < b.toNat then none
  else
    let low := (List.range 32).foldl (fun a i =>
      let b := (sel.getD i 0).toNat
      a + (if b < 0x40 then b2n (v.getLsbD b) else b - 0x40) * 2 ^ i) 0
    some (BitVec.ofNat 64 (low + 2 ^ 56 * (v.toNat / 2 ^ 56)))

/-- SCRAM reads its set, also one that then traps. -/
def scramReads (e : Engine) : Bool := e.issues true 1

/-- Log entry 38: DEDUCED. -/
def eScram (f : FmtB) (e : Engine) : EStep :=
  issue true 1 e fun e =>
    match scramble (bread (0x500 + 32 * (f.imm.toNat % 64)) 32 e.dstore) (e.x f.ra) with
    | some v => e.put f.rd v
    | none => .trap trapUnit e

/-- Parity of a number's low 20 bits. -/
def parity20 (n : Nat) : Bool := ((List.range 20).filter fun i => n.testBit i).length % 2 = 1

/-- The symbol of cell (r, c) (R172, R173). -/
def Engine.symbol (e : Engine) (inv : Bool) (r c : Nat) : Nat :=
  let ctrl := e.u 10
  let kind := ctrl % 8
  let symA := ctrl / 16 % 4
  let symB := ctrl / 64 % 4
  let period := ctrl / 256 % 256
  if kind = 6 then
    let i := 8 * (r % 8) + c % 8
    let s := (if i < 32 then e.u 12 / 2 ^ (2 * i) else e.u 13 / 2 ^ (2 * (i - 32))) % 4
    if inv then 3 - s else s
  else
    let isB : Bool :=
      if kind = 1 then decide ((r + c) % 2 = 1)
      else if kind = 2 then decide (r % 2 = 1)
      else if kind = 3 then decide (c % 2 = 1)
      else if kind = 4 then decide (((c : Int) - r) % period = 0)
      else if kind = 5 then parity20 (r &&& (e.u 11 % 2 ^ 20)) != parity20 (c &&& (e.u 11 / 2 ^ 32 % 2 ^ 20))
      else false
    if isB != inv then symB else symA

/-- `KIND` 7, or DIAG with `PERIOD` 0 (R174). -/
def Engine.bgBad (e : Engine) : Bool := e.u 10 % 8 = 7 || (e.u 10 % 8 = 4 && e.u 10 / 256 % 256 = 0)

/-- Log entry 38: DEDUCED. -/
def eBgnd (f : FmtB) (e : Engine) : EStep :=
  issue true 1 e fun e =>
    if e.bgBad then .trap trapUnit e
    else
      let a := (e.x f.ra).toNat
      let r := a / 2 ^ 20 % 2 ^ 20
      let c0 := a % 2 ^ 20 * 2 ^ (e.u 10 / 2 ^ 16 % 16) + 32 * (f.imm.toNat % 4)
      e.put f.rd (BitVec.ofNat 64 ((List.range 32).foldl (fun x i => x + e.symbol (f.imm.getLsbD 2) r (c0 + i) * 4 ^ i) 0))

/-! ### Cell mapping and the transpose buffer (R175 to R183) -/

/-- Entry `v` of cell table `t` (R175). -/
def Engine.cell (e : Engine) (t v : Nat) : Nat := unle (bread 0xD00 8 e.dstore) / 2 ^ (16 * t + 4 * v) % 16

/-- CMAP (R176, R177). -/
def Engine.cmap (e : Engine) (imm a : Nat) : Nat :=
  let t := imm % 4
  (List.range 16).foldl (fun x j =>
    let v :=
      if imm / 4 % 2 = 0 then a / 2 ^ (32 * (imm / 8 % 2) + 2 * j) % 4
      else if j < 8 then a / 2 ^ (8 * (imm / 16 % 4) + j) % 2
      else a / 2 ^ (56 + (j - 8)) % 2
    x + e.cell t v * 16 ^ j) 0

/-- Bits of the immediate that the mode does not use are 0 (R178). Log entry 38: DEDUCED. -/
def cmapLegal (imm : BitVec 16) : Bool := if imm.getLsbD 2 then imm &&& 0xFFC8 = 0 else imm &&& 0xFFF0 = 0

/-- CMAP reads the cell tables. -/
def cmapReads (f : FmtB) (e : Engine) : Bool := e.issues (cmapLegal f.imm) 1

def eCmap (f : FmtB) (e : Engine) : EStep := issue (cmapLegal f.imm) 1 e fun e => e.put f.rd (BitVec.ofNat 64 (e.cmap f.imm.toNat (e.x f.ra).toNat))

/-- The cells of one slot. -/
def Engine.slot (e : Engine) (i : Nat) : BitVec 128 := BitVec.ofNat 128 (unle (bread (0x1C00 + 16 * i) 16 e.dstore))

/-- Write one slot at the cursor; slot 63 emits the group (R179, R180). -/
def Engine.putSlot (v : BitVec 128) (e : Engine) : Engine :=
  let e := { e with dstore := bwrite (0x1C00 + 16 * e.cursor) (le 16 v.toNat) e.dstore }
  if e.cursor = 63 then { e with cursor := 0, emitted := e.emitted + 64, groups := e.groups ++ [(List.range 64).map e.slot] } else { e with cursor := e.cursor + 1 }

/-- Log entry 41: DEDUCED. -/
def eTput (f : FmtA) (e : Engine) : EStep :=
  let n := f.imm.toNat % 64 + 1
  issue (f.rd = 0) ((n + 15) / 16) e fun e =>
    if e.vectors < e.emitted + e.cursor + n then .trap trapCount e
    else ((List.range n).foldl (fun e _ => e.putSlot (BitVec.ofNat 128 ((e.x f.ra).toNat + 2 ^ 64 * (e.x f.rb).toNat))) e).next

/-- TPUT that writes slot 63 reads the 64 slots of the group back from the data store (R179, R180). -/
def tputReads (f : FmtA) (e : Engine) : Bool :=
  let n := f.imm.toNat % 64 + 1
  e.issues (f.rd = 0) ((n + 15) / 16) && decide (e.emitted + e.cursor + n ≤ e.vectors) && decide (64 ≤ e.cursor + n)

def eTsrun (f : FmtA) (e : Engine) : EStep :=
  issue (f.rd = 0 ∧ f.imm = 0) 1 e fun e =>
    let n := (e.x f.rb).toNat
    if n = 0 ∨ 4096 < n ∨ e.vectors < runSum e.runs + n then .trap trapCount e
    else { e with runs := e.runs ++ [((e.x f.ra).toNat % 64, n)] }.next

/-- A built-in opcode appears in the program ROM only (R164, R190). Log entry 42: DEDUCED. -/
def builtin (e : Engine) (legal : Bool) : Bool := legal && !e.algo

/-- RAWC and CDEC: the words and runs of the item's chunk. Log entries 42, 44: DEDUCED. -/
def eBuiltin (src : Source) (mask : Word) (f : FmtA) (e : Engine) : EStep :=
  let m := (pinsOf mask).length
  issue (builtin e (f.rd = 0 ∧ f.ra = 0 ∧ f.rb = 0 ∧ f.imm = 0)) (src.tokens + (src.words.length + 3) / 4 + src.runs.length) e fun e =>
    { e with runs := src.runs, words := src.words, emitted := if src.words.length = m * (e.vectors / 64) then e.vectors else 0 }.next
/-- The fields of a built-in opcode are 0, and the program ROM runs it. -/
def builtinRuns (f : FmtA) (e : Engine) : Bool := builtin e (f.rd = 0 ∧ f.ra = 0 ∧ f.rb = 0 ∧ f.imm = 0)

/-- Log entry 44: DEDUCED. -/
def eRawc (src : Source) (mask : Word) (f : FmtA) : Engine → EStep := eBuiltin src mask f
/-- Log entry 44: DEDUCED. -/
def eCdec (src : Source) (mask : Word) (f : FmtA) : Engine → EStep := eBuiltin src mask f

/-- FGET: the next word of the item's input stream, whose words the manual does not lay down: `input` gives them by place. Log entry 164: DESIGN CHOICE. -/
def eFget (input : Nat → DWord) (f : FmtA) (e : Engine) : EStep :=
  issue (builtin e (f.ra = 0 ∧ f.rb = 0 ∧ f.imm = 0)) 2 e fun e => { e with taken := e.taken + 1 }.put f.rd (input e.taken)

/-- RGET reads an entry of `D_INPUT`. -/
def rgetReads (f : FmtB) (e : Engine) : Bool := e.issues (f.ra = 0 ∧ f.imm.toNat < 28) 2

/-- RGET: an entry of `D_INPUT`; entries 28 to 31 and set bits above are reserved (R856). -/
def eRget (f : FmtB) (e : Engine) : EStep :=
  issue (f.ra = 0 ∧ f.imm.toNat < 28) 2 e fun e => e.put f.rd (BitVec.ofNat 64 (unle (bread (0x20 + 8 * f.imm.toNat) 8 e.dstore)))

def ePut (f : FmtA) (e : Engine) : EStep :=
  issue (builtin e (f.rd = 0 ∧ f.rb = 0 ∧ f.imm = 0)) 1 e fun e => { e with output := e.output ++ [e.x f.ra] }.next

/-- DONE: a signature's item must have emitted and timed all its vectors (R183). Log entries 41, 44: DEDUCED. -/
def eDone (f : FmtA) (e : Engine) : EStep :=
  issue (f.rd = 0 ∧ f.ra = 0 ∧ f.rb = 0 ∧ f.imm = 0) 1 e fun e =>
    if e.background || (e.emitted = e.vectors && runSum e.runs = e.vectors) then .done e else .trap trapCount e

/-- TRAP with a program code; a code below 0x80 is reserved. Log entry 42: DEDUCED. -/
def eTrap (f : FmtB) (e : Engine) : EStep :=
  issue (f.rd = 0 ∧ f.ra = 0) 1 e fun e => .trap (if f.imm.toNat % 256 < 0x80 then trapIllegal else BitVec.ofNat 8 f.imm.toNat) e

/-- One instruction word (R164); reserved opcodes trap. -/
def runWord (src : Source) (mask : Word) (w : Word) (e : Engine) : EStep :=
  let a := fmtA w
  let b := fmtB w
  let c := fmtC w
  match opcodeOf w with
  | 0x00 => eNop a e | 0x01 => eAdd a e | 0x02 => eSub a e | 0x03 => eAnd a e | 0x04 => eOr a e | 0x05 => eXor a e | 0x06 => eShl a e | 0x07 => eShr a e
  | 0x08 => eMul a e | 0x09 => ePopc a e | 0x0A => eMinu a e | 0x0B => eMaxu a e
  | 0x10 => eAddi b e | 0x11 => eAndi b e | 0x12 => eOri b e | 0x13 => eXori b e | 0x14 => eShli b e | 0x15 => eShri b e | 0x16 => eLui b e
  | 0x18 => eLd b e | 0x19 => eSt b e | 0x1A => eLdw b e | 0x1B => eStw b e
  | 0x20 => eBeq c e | 0x21 => eBne c e | 0x22 => eBltu c e | 0x23 => eBgeu c e | 0x24 => eLoop c e | 0x25 => eJal b e | 0x26 => eJr a e
  | 0x28 => eUget b e | 0x29 => eUset b e | 0x2A => eAgen a e | 0x2B => eAseek a e | 0x2C => eScram b e | 0x2D => eBgnd b e | 0x2E => eCmap b e
  | 0x30 => eTput a e | 0x31 => eTsrun a e | 0x32 => eRawc src mask a e | 0x33 => eCdec src mask a e
  | 0x38 => eFget (fun _ => 0) a e | 0x39 => eRget b e | 0x3A => ePut a e | 0x3E => eDone a e | 0x3F => eTrap b e
  | _ => .trap trapIllegal e

/-- Run to the end of the item; every instruction costs at least one operation, so the bound on operations bounds the steps. -/
def runItem (src : Source) (mask : Word) : Nat → Engine → EStep
  | 0, e => .trap trapOps e
  | n + 1, e =>
    match e.istore[e.pc]? with
    | none => .trap trapBranch e
    | some w =>
      match runWord src mask w e with
      | .go e => runItem src mask n e
      | r => r

/-- The event words an ALGO item has emitted, in chunk order (R180, R198). -/
def groupWords (mask : Word) (groups : List (List (BitVec 128))) : List (BitVec 256) :=
  (pinsOf mask).flatMap fun p => groups.map fun g =>
    BitVec.ofNat 256 ((List.range 64).foldl (fun x k => x + ((g.getD k 0).toNat / 2 ^ (4 * p) % 16) * 16 ^ k) 0)

end Sys2Proof.Machine
end

