-- ==== Sys2Proof/Machine/Sets.lean ====
section
/-! DEFINITION. What the configuration in force says: timing sets (R256), level and threshold codes (R346, R347), the bitmap and training set-up (R407, R417, R426), the channel's geometry (R457 to R462), the paths of the binding table (R94 to R98, R102, R859), and the chunk that an engine computes (R147, R151 to R158). -/

namespace Sys2Proof.Machine

/-! ### Timing sets (R256) -/

/-- 0 NRZ, 1 RTL, 2 RTZ. -/
def Quire.tsFormat (q : Quire) (s p : Nat) : Nat := fld (q.ts s (0x40 + 0x40 * p)) 0 2
def Quire.tsReturn (q : Quire) (s p : Nat) : Nat := fld (q.ts s (0x40 + 0x40 * p)) 4 2
def Quire.tsStrobeEn (q : Quire) (s p : Nat) : Bool := bit (q.ts s (0x48 + 0x40 * p)) 31
def Quire.tsStrobe (q : Quire) (s p : Nat) : Nat := (q.ts s (0x44 + 0x40 * p)).toNat + 2 ^ 32 * fld (q.ts s (0x48 + 0x40 * p)) 0 12
/-- 0 NONE, 1 DRIVE, 2 RETURN. -/
def Quire.tsKind (q : Quire) (s p k : Nat) : Nat := fld (q.ts s (0x54 + 0x40 * p + 8 * k)) 30 2
def Quire.tsEdge (q : Quire) (s p k : Nat) : Nat := (q.ts s (0x50 + 0x40 * p + 8 * k)).toNat + 2 ^ 32 * fld (q.ts s (0x54 + 0x40 * p + 8 * k)) 0 12
/-- The used edge slots of a pin, as (slot, kind, time), in slot order. -/
def Quire.tsEdges (q : Quire) (s p : Nat) : List (Nat × Nat × Nat) :=
  ((List.range 4).filter fun k => q.tsKind s p k ≠ 0).map fun k => (k, q.tsKind s p k, q.tsEdge s p k)

/-! ### Levels and thresholds -/

/-- Level code Vv of a pin (R316). -/
def Quire.level (q : Quire) (p v : Nat) : Nat := fld (q.cfg 0x08 (0x100 + 16 * p + 4 * (v / 2))) (16 * (v % 2)) 12
def Quire.vtt (q : Quire) (p : Nat) : Nat := fld (q.cfg 0x08 (0x108 + 16 * p)) 0 12
def Quire.termEn (q : Quire) (p : Nat) : Bool := bit (q.cfg 0x08 (0x108 + 16 * p)) 31
/-- Threshold code of T1, T2, T3 (0 to 2). -/
def Quire.threshold (q : Quire) (p t : Nat) : Nat :=
  if t = 0 then fld (q.cfg 0x09 (0x100 + 16 * p)) 0 12 else if t = 1 then fld (q.cfg 0x09 (0x100 + 16 * p)) 16 12 else fld (q.cfg 0x09 (0x104 + 16 * p)) 0 12
def Quire.hyst (q : Quire) (p : Nat) : Nat := fld (q.cfg 0x09 (0x104 + 16 * p)) 16 5
def Quire.clampLo (q : Quire) (p : Nat) : Nat := fld (q.cfg 0x09 (0x108 + 16 * p)) 0 12
def Quire.clampHi (q : Quire) (p : Nat) : Nat := fld (q.cfg 0x09 (0x108 + 16 * p)) 16 12
def Quire.vpinSet (q : Quire) : Nat := fld (q.cfg 0x08 0) 0 12

/-! ### Capture, repair and training set-up -/

def Quire.capCtrl (q : Quire) : Word := q.cfg 0x0C 0
def Quire.bmEn (q : Quire) : Bool := bit q.capCtrl 0
def Quire.firstNLen (q : Quire) : Nat := fld q.capCtrl 16 13
def Quire.bmPins (q : Quire) : Word := q.cfg 0x0C 0x104
def Quire.bmFormat (q : Quire) : Word := q.cfg 0x0C 0x100
def Quire.bmSources (q : Quire) : List Nat :=
  (List.range 8).filterMap fun i => let w := q.cfg 0x0C (0x120 + 4 * i); if bit w 31 then some (fld w 0 10) else none
/-- P, the number of data pins of the bitmap (R386). -/
def Quire.bmPinCount (q : Quire) : Nat := (pinsOf q.bmPins).length
def Quire.bmRows (q : Quire) : Nat := 2 ^ fld (q.cfg 0x0C 0x108) 0 4
/-- C (R388). -/
def Quire.bmCols (q : Quire) : Nat :=
  2 ^ fld (q.cfg 0x0C 0x10C) 0 4 * q.bmPinCount * (if bit q.bmFormat 7 then fld q.bmFormat 0 7 else 1)
def Quire.spareRows (q : Quire) : Nat := fld (q.cfg 0x0D 0) 0 6
def Quire.spareCols (q : Quire) : Nat := fld (q.cfg 0x0D 0) 8 6
/-- Bytes of the bitmap (R388). -/
def Quire.bmBytes (q : Quire) : Nat := q.regionCount * ((q.bmRows * q.bmCols + 7) / 8)
/-- Bytes of the repair state (R395). -/
def Quire.raBytes (q : Quire) : Nat := if q.raEn then q.regionCount * (12288 + 2 * (q.bmRows + q.bmCols)) else 0
def Quire.rawInDram (q : Quire) : Bool := bit q.capCtrl 2
def Quire.rawEn (q : Quire) : Bool := bit q.capCtrl 1
def Quire.rawKib (q : Quire) : Nat := fld (q.cfg 0x0C 0xC) 0 11
def Quire.rawDramBytes (q : Quire) : Nat := fld (q.cfg 0x0C 0xC) 16 12 * 65536
def Quire.rawDramBase (q : Quire) : Nat := (q.cfg 0x0C 8).toNat * 64
/-- Bytes of the raw area of fail memory (R395). -/
def Quire.rawBytes (q : Quire) : Nat := if q.rawEn && !q.rawInDram then q.rawKib * 1024 else 0
/-- The areas of fail memory together (R395). Log entry 51: DEDUCED. -/
def Quire.fmBytes (q : Quire) : Nat := 65536 + 32 * q.firstNLen + q.bmBytes + q.raBytes + q.rawBytes

def Quire.trCtrl (q : Quire) : Word := q.cfg 0x0F 0
def Quire.trEn (q : Quire) : Bool := bit q.trCtrl 31
def Quire.trSig (q : Quire) : Nat := fld q.trCtrl 16 10
def Quire.tSteps (q : Quire) : Nat := fld q.trCtrl 8 8
def Quire.vSteps (q : Quire) : Nat := fld q.trCtrl 4 4
def Quire.tStart (q : Quire) : Int := sfld (q.cfg 0x0F 4) 16 16
def Quire.tStep (q : Quire) : Nat := fld (q.cfg 0x0F 4) 0 16
def Quire.vStart (q : Quire) : Int := sfld (q.cfg 0x0F 8) 16 8
def Quire.vStep (q : Quire) : Nat := fld (q.cfg 0x0F 8) 0 8
def Quire.trPins (q : Quire) : Word := q.cfg 0x0F 0xC

/-! ### The channel (R457 to R463) -/

/-- Rows per bank by density. -/
def Dram.rows (d : Dram) : Nat := match fld d.board 28 2 with | 0 => 65536 | 1 => 98304 | _ => 131072
/-- Bytes of the active space (R460). -/
def Dram.bytes (d : Dram) : Nat := 2 * d.rows * 262144
/-- Where the checksum region begins (R462). Log entry 73: DESIGN CHOICE. -/
def Dram.checksumBase (d : Dram) : Nat := d.bytes - 268435456
/-- The fetch budget at the rate of set A, in G pin-vectors/s (R63). -/
def Dram.fetchBudget (d : Dram) : Nat := match fld d.board 24 2 with | 0 => 93 | 1 => 104 | 2 => 116 | _ => 128

/-! ### Paths of the binding table (R102, R859) -/

/-- A place on a path: the entry, the open loops with the call depth of each, innermost first, and the calls as (return point, routine). -/
structure Place where
  entry : Nat
  loops : List (Nat × Nat)
  calls : List (Nat × Nat)
  deriving DecidableEq, Repr

/-- The loops that a jump to `t` keeps open at the present call depth (R98): those whose bodies it does not leave. -/
def Quire.keepLoops (q : Quire) (depth t : Nat) (l : List (Nat × Nat)) : List (Nat × Nat) := l.filter fun f => f.2 ≠ depth || q.inBody f.1 t

/-- An entry that may take a jump: JUMP, MATCH_JUMP, and WAIT_TRIG with a time-out. -/
def Quire.jumps (q : Quire) (e : Nat) : Bool := q.bindOp e = 6 || q.bindOp e = 7 || (q.bindOp e = 9 && q.bindTimeout e ≠ 0)

/-- The entries of a routine reached without taking a jump (R102). Log entry 48: DEDUCED. -/
def Quire.straight (q : Quire) : Nat → List Nat → List Nat → List Nat
  | 0, _, seen => seen
  | _ + 1, [], seen => seen
  | n + 1, e :: todo, seen =>
    if seen.contains e then q.straight n todo seen
    else
      let more := match q.bindOp e with
        | 0 | 5 | 6 => []
        | 3 => [e + 1, q.bindTarget e + 1]
        | _ => [e + 1]
      q.straight n (more.filter (· ≤ 255) ++ todo) (e :: seen)

/-- The routine a place lies in; `none` is the main path. Log entry 48: DEDUCED. -/
def Place.routine (x : Place) : Option Nat := x.calls.head?.map (·.2)

/-- A jump of a place to `t` enters a loop body that the place is not inside, or leaves the routine that contains it (R102). Only a LOOP_BEGIN that a path reaches, one of the places `ps`, gives a body to this check, whatever routine it lies in. Log entry 48: DEDUCED. -/
def Quire.badJump (q : Quire) (ps : List Place) (x : Place) (t : Nat) : Bool :=
  let depth := x.calls.length
  (ps.any fun y => q.bindOp y.entry = 2 && q.inBody y.entry t
    && !(x.loops.contains (y.entry, depth) && q.inBody y.entry x.entry))
  || match x.routine with
    | none => false
    | some r =>
      let own := q.straight 1024 [r] []
      !own.contains t && ((ps.any fun y => y.entry = t && y.routine.isNone)
        || ps.any fun y => match y.routine with | some r' => r' ≠ r && (q.straight 1024 [r'] []).contains t | none => false)

/-- Places that follow a place; none where the entry may not pass on, nor by a jump that `cut` forbids. Log entry 48: DEDUCED. -/
def Quire.follow (q : Quire) (cut : Bool) (x : Place) : List Place :=
  let e := x.entry
  let next := fun (y : Place) => if e < 255 then [y] else []
  let jump : List Place := if q.jumps e && !cut then [{ x with entry := q.bindTarget e, loops := q.keepLoops x.calls.length (q.bindTarget e) x.loops }] else []
  match q.bindOp e with
  | 1 | 8 => next { x with entry := e + 1 }
  | 2 => if x.loops.length < 4 then next { x with entry := e + 1, loops := (e, x.calls.length) :: x.loops } else []
  | 3 =>
    match x.loops with
    | (b, d) :: rest =>
      if b = q.bindTarget e ∧ d = x.calls.length then { x with entry := b + 1 } :: next { x with entry := e + 1, loops := rest } else []
    | [] => []
  | 4 => if x.calls.length < 8 ∧ e < 255 then [{ x with entry := q.bindTarget e, calls := (e + 1, q.bindTarget e) :: x.calls }] else []
  | 5 => match x.calls with | (r, _) :: rest => [{ x with entry := r, calls := rest }] | [] => []
  | 6 => jump
  | 7 | 9 => next { x with entry := e + 1 } ++ jump
  | _ => []

/-- The places reached from a work list. Log entry 48: DEDUCED. -/
def Quire.explore (q : Quire) (cut : Place → Bool) : Nat → List Place → List Place → List Place
  | 0, _, seen => seen
  | _ + 1, [], seen => seen
  | n + 1, x :: todo, seen => if seen.contains x then q.explore cut n todo seen else q.explore cut n (q.follow (cut x) x ++ todo) (x :: seen)

/-- The place where collation starts. -/
def Quire.startPlace (q : Quire) : Place := { entry := q.startEntry, loops := [], calls := [] }

/-- Every place that paths reach when no jump is refused. -/
def Quire.allPlaces (q : Quire) : List Place := q.explore (fun _ => false) (2 ^ 64) [q.startPlace] []

/-- A place jumps into a loop body that it is not inside, or out of its routine (R102), by all the places that paths reach. Log entry 48: DEDUCED. -/
def Quire.jumpsBadly (q : Quire) (all : List Place) (x : Place) : Bool := q.jumps x.entry && q.badJump all x (q.bindTarget x.entry)

/-- Every place of every path from `START_ENTRY`. A path ends where it breaks a rule of R102: at a frame that may not open or close, and at
a jump into a loop body or out of its routine (DEDUCED). -/
def Quire.places (q : Quire) : List Place :=
  let all := q.allPlaces
  q.explore (q.jumpsBadly all) (2 ^ 64) [q.startPlace] []

/-- The reachable entries, ascending. -/
def Quire.reachable (q : Quire) : List Nat := let ps := q.places; (List.range 256).filter fun e => ps.any fun x => x.entry = e

/-- The signatures that reachable entries play. -/
def Quire.playedSigs (q : Quire) : List Nat := ((q.reachable.filter fun e => q.bindOp e = 1 || q.bindOp e = 7).map q.bindSig).dedup

/-- The valid signatures of the directory. -/
def Quire.validSigs (q : Quire) : List Nat := (List.range 1024).filter q.sigValid

/-- A reachable entry plays a signature of home STREAM (R139, R727). -/
def Quire.playsStream (q : Quire) : Bool := q.playedSigs.any fun s => q.sigHome s = 2

/-- `SRAM_ONLY` (R485): no reachable entry of the committed configuration plays a DRAM-home signature. -/
def Quire.sramOnly (q : Quire) : Bool := q.committed.isSome && !(q.playedSigs.any fun s => q.sigHome s = 0)

/-! ### What an engine computes for a chunk -/

/-- The stored image of a signature. Log entry 10: DESIGN CHOICE. -/
def Quire.image (q : Quire) (s : Nat) : Rd := fun a => bget (q.sigLoc s + a) (if q.sigHome s = 0 then q.dram.mem else q.sram)

/-- An ALGO program that holds an RGET is data-dependent (R191). -/
def Quire.dataDependent (q : Quire) (s : Nat) : Bool :=
  q.sigKind s = 2 && (algoProgram (q.image s) (algoDesc (q.image s))).any fun w => opcodeOf w = 0x39

/-- The signature has a checksum table (R202). -/
def Quire.hasTable (q : Quire) (s : Nat) : Bool := q.sigHome s ≠ 2 && !q.dataDependent s && q.sigChunks s ≤ 65536

/-- Every pattern chunk of the signature is shadowed (R237). -/
def Quire.shadowed (q : Quire) (s : Nat) : Bool := q.dataDependent s || 65536 < q.sigChunks s || bit (q.cfg 0x10 0) 0

/-- Where entry `i` of the checksum table of a DRAM-home signature lies in the channel (R462). -/
def Quire.tableAddr (q : Quire) (s i : Nat) : Nat := q.dram.checksumBase + 262144 * s + 4 * i

/-- Entry `i` of the checksum table of a signature (R202, R203): in the channel for home DRAM, beside the signature buffers for home SRAM. Log entry 73: DESIGN CHOICE. -/
def Quire.tableWord (q : Quire) (s i : Nat) : Word :=
  if q.sigHome s = 0 then BitVec.ofNat 32 (rdN (fun a => bget a q.dram.mem) (q.tableAddr s i) 4) else (q.sig s).table.getD i 0

/-- The bytes of a STREAM chunk in the window. -/
def listRd (l : List Byte) : Rd := fun a => l.getD a 0

/-- The data of a chunk of a STREAM instance, and of its codec head packet, in the window. -/
def Quire.streamData (q : Quire) (s : Nat) (inst : Word) (i : Nat) : Rd :=
  match (q.stream ++ q.streamHeads).find? fun c => c.sig = s && c.inst = inst && c.index = i with | some c => listRd c.data | none => fun _ => 0

/-- What RAWC or CDEC reads for a chunk of a signature; the instance matters for home STREAM only. -/
def Quire.source (q : Quire) (s : Nat) (inst : Word) (i : Nat) : Source :=
  if q.sigHome s = 2 then
    let rd := q.streamData s inst i
    if q.sigKind s = 1 then
      let hd := q.streamData s inst 0xFFFFFFFF
      codecStream (codecDict hd) (codecEntries hd) rd 0
    else rawStream rd (pinsOf (q.sigMask s)).length (q.chunkVectors s i)
  else if q.sigKind s = 1 then codecSource (q.image s) i
  else rawSource (q.image s) (pinsOf (q.sigMask s)).length i (q.chunkVectors s i)

/-- Context load (R150, R155, R158): the program and tables of the context; ALGO scratch is zeroed, and so are the bytes outside the sections of a descriptor (log entry 165: DESIGN CHOICE).
The dictionary of a CODEC signature of home STREAM is that of the head packet of instance `inst` (R630). Log entry 16: DESIGN CHOICE. -/
def Quire.loadContext (q : Quire) (ctx : Nat) (inst : Word) (e : Engine) : Engine :=
  let e := { Engine.reset with context := some ctx, eccCorrected := e.eccCorrected, lastUse := e.lastUse }
  if 0x400 ≤ ctx then e
  else if q.sigKind ctx = 2 then
    let rd := q.image ctx
    let d := algoDesc rd
    { e with
      istore := algoProgram rd d, opsBound := d.opsBound, unitInit := algoUnit rd d
      dstore := bwrite 0x100 (rdBytes rd d.paramAt d.paramBytes) (bwrite 0x500 (rdBytes rd d.scramAt (32 * d.scramSets)) (bwrite 0xD00 (rdBytes rd d.cellAt 8) [])) }
  else if q.sigKind ctx = 1 then
    let rd : Rd := if q.sigHome ctx = 2 then q.streamData ctx inst 0xFFFFFFFF else q.image ctx
    { e with dictInst := if q.sigHome ctx = 2 then some inst else none, istore := [encA 0x33 { rd := 0, ra := 0, rb := 0, imm := 0 }, encA 0x3E { rd := 0, ra := 0, rb := 0, imm := 0 }]
             dstore := bwrite 0x100 (rdBytes rd 64 (32 * codecEntries rd)) [] }
  else { e with istore := [encA 0x32 { rd := 0, ra := 0, rb := 0, imm := 0 }, encA 0x3E { rd := 0, ra := 0, rb := 0, imm := 0 }] }

/-- The descriptor of a work item (R151, R152, R383). -/
def Quire.descriptor (q : Quire) (it : Item) : List Byte :=
  match it.kind with
  | .compress => le 4 0x401 ++ le 4 0 ++ le 4 (it.fails.length + it.cells.length) ++ le 4 0 ++ le 4 it.sig
  | .repair => le 4 0x400 ++ le 4 it.region ++ le 4 (it.fails.length + it.cells.length) ++ le 4 it.index ++ le 4 0
  | _ => le 4 it.sig ++ le 4 it.index ++ le 4 it.vectors ++ leW (q.sigMask it.sig) ++ List.replicate 16 0
          ++ (it.input ++ List.replicate (28 - it.input.length) 0).flatMap fun (w : DWord) => le 8 w.toNat

/-- The start of an item on an engine (R157): registers and counts are 0, unit registers take their initial values, transpose slots hold 0. -/
def Quire.beginItem (q : Quire) (it : Item) (e : Engine) : Engine :=
  let unit := ((List.range 14).foldl (fun m i => sput (fun _ => (0 : DWord)) i (e.unitInit.getD i 0) m) [])
  let clear := e.dstore.filter fun c => !(c.1 < 0x100 || (0x1C00 ≤ c.1 && c.1 < 0x2000))
  { e with
    item := some it, pc := 0, regs := [], unit := unit, cursor := 0, emitted := 0, opsUsed := 0, runs := [], groups := [],
    words := [], output := [], taken := 0, dstore := bwrite 0 (q.descriptor it) clear }

/-- The chunk that an ended pattern item of a signature delivers (R198, R199). -/
def Quire.chunkOf (q : Quire) (it : Item) (e : Engine) : Chunk :=
  let mask := q.sigMask it.sig
  let sets := expandRuns e.runs
  let words := if e.algo then groupWords mask e.groups else e.words
  { kind := .data, voidCause := 0, poisoned := it.poisoned, last := it.last, shadowed := it.shadowed, landing := it.kind = .head, sig := it.sig, inst := it.inst,
    index := it.index, vectors := it.vectors, pinmask := mask, seq := it.seq, crc := chunkCrc it.sig it.index it.vectors mask sets words,
    sets := sets, words := words, edges := [], engine := 0 }

/-- The work item of chunk `i` of a signature, outside any run; the instance matters for home STREAM only. -/
def Quire.chunkItem (q : Quire) (kind : ItemKind) (s i : Nat) (inst : Word := 0) : Item :=
  { kind := kind, sig := s, inst := inst, index := i, seq := 0, vectors := q.chunkVectors s i, last := i + 1 = q.sigChunks s, cls := 2, waits := false,
    shadowed := false, input := [], anyEngine := false, due := none, fails := [], cells := [], region := 0, poisoned := false, copy := false, avoid := none }

/-- The run of an item that computes chunk `i` of a signature on any engine (R144, R153). -/
def Quire.genRun (q : Quire) (kind : ItemKind) (s i : Nat) (inst : Word := 0) : EStep :=
  let e := q.beginItem (q.chunkItem kind s i inst) (q.loadContext s inst .reset)
  runItem (q.source s inst i) (q.sigMask s) (e.opsBound + 3) e

/-- Chunk `i` of a deterministic signature; `none` when its program traps. Log entry 82: DEDUCED. -/
def Quire.genChunk (q : Quire) (kind : ItemKind) (s i : Nat) (inst : Word := 0) : Option Chunk :=
  match q.genRun kind s i inst with
  | .done e => some (q.chunkOf (q.chunkItem kind s i inst) e)
  | _ => none

end Sys2Proof.Machine
end

