-- ==== Sys2Proof/Machine/Channel.lean ====
section
/-! DEFINITION. The parts of a pattern memory channel that its users see: the address map (R460, R461), logical and physical ranks (R501 to R504), the queues of the ports (R469, R475), and the read of one line with its error correction and poison (R464, R465, R468, R495, R496, R500). -/

namespace Sys2Proof.Machine

/-! ### The address map (R461) -/

def lineLogical (l : Nat) : Nat := l / 4096 % 2
def lineRow (l : Nat) : Nat := l / 4096 / 2
def lineSub (l : Nat) : Nat := l % 2
def lineBank (l : Nat) : Nat := l / 16 % 4
def lineBurst (l : Nat) : Nat := l / 64 % 64
def lineGroup (l : Nat) : Nat := (l / 2 % 8) ^^^ (lineRow l % 8)

/-- Key of a bank: physical rank, sub-channel, bank group, bank. -/
def bankAt (rank l : Nat) : Nat := ((rank * 2 + lineSub l) * 8 + lineGroup l) * 4 + lineBank l
def keyRank (k : Nat) : Nat := k / 64

/-! ### Ranks -/

/-- Lines of a logical rank, and line `i` of it in ascending order. -/
def Dram.rankLines (d : Dram) : Nat := d.rows * 4096
def rankLine (rank i : Nat) : Nat := (2 * (i / 4096) + rank) * 4096 + i % 4096
/-- The place of a line within its logical rank. -/
def lineIndex (l : Nat) : Nat := l / 4096 / 2 * 4096 + l % 4096

def Dram.physOf (d : Dram) (logical : Nat) : Nat := if logical = 0 then d.physL0 else d.physL1
def Dram.spare (d : Dram) : Option (Fin 3) := ([0, 1, 2] : List (Fin 3)).find? fun r => decide (d.ranks[r] = .spare)

/-- A line that a migration has copied is read from the spare (R502). -/
def Dram.onSpare (d : Dram) (l : Nat) : Bool := d.migrating && decide (lineLogical l = d.migrateRank) && decide (lineIndex l < d.migrateNext)

/-- The physical ranks that a request uses, the one that serves it first: a copied line is served from the spare, and written to both ranks; a copy reads the failing rank and writes the spare (R501, R502). -/
def Dram.ranksOf (d : Dram) (r : DramReq) : List Nat :=
  let own := d.physOf (lineLogical r.line)
  match d.spare with
  | none => [own]
  | some s => if r.port = .migration then [own, s.val] else if d.onSpare r.line then (if r.write then [s.val, own] else [s.val]) else [own]

/-- The banks that a request uses. -/
def Dram.banksOf (d : Dram) (r : DramReq) : List Nat := (d.ranksOf r).map fun k => bankAt k r.line

/-! ### Ports -/

/-- The number of a port in `Config.portDepth`. -/
def Port.code : Port → Nat
  | .fetch => 0 | .capture => 1 | .hostLoad => 2 | .scratch => 3 | .migration => 4

/-- The queue of a port is full (R475); an empty one never is. Log entry 117: DESIGN CHOICE. -/
def Dram.full (d : Dram) (port : Port) : Bool :=
  match d.queue.filter fun r => r.port = port with
  | [] => false
  | l => decide (Config.portDepth port.code ≤ l.length)

/-- Put a request into the controller's queue (R469). Log entry 117: DESIGN CHOICE. -/
def Dram.ask (d : Dram) (port : Port) (line : Nat) (write : Bool) (sig seq : Nat) : Dram :=
  { d with queue := d.queue ++ [{ port := port, line := line, write := write, age := d.clock, high := false, critical := false, promoted := false, sig := sig, seq := seq, retries := 0, replays := 0 }] }

/-- Write bytes of the active space: whole lines lose their poison code (R499), and the port asks for each line. Log entry 117: DESIGN CHOICE; log entry 71: DEDUCED. -/
def Dram.write (d : Dram) (port : Port) (a : Nat) (bs : List Byte) (sig : Nat) : Dram :=
  let first := a / 64
  let lines := (List.range ((a + bs.length + 63) / 64 - first)).map (first + ·)
  let d := { d with mem := bwrite a bs d.mem, poison := d.poison.filter fun l => !(a ≤ 64 * l && 64 * (l + 1) ≤ a + bs.length) }
  lines.foldl (fun d l => d.ask port l true sig 0) d

/-- The release sequence that stands for a copy of a migration. -/
abbrev copySeq : Nat := 2 ^ 128

/-- The migration port asks for the next line of the failing rank (R469, R501). -/
def Dram.askCopy (d : Dram) : Dram := d.ask .migration (rankLine d.migrateRank d.migrateNext) false 0 copySeq

/-- An uncorrectable error in an active rank starts the migration of its logical rank (R500). -/
def Dram.startMigration (d : Dram) (logical : Nat) (injected : Bool) : Dram :=
  if d.spareOk && !d.migrating then { d with migrating := true, migrateRank := logical, migrateNext := 0, migrateInjected := injected }.askCopy else d

/-- No copy is asked for any more. -/
def Dram.dropCopies (d : Dram) : Dram := { d with queue := d.queue.filter (·.port ≠ .migration), issued := d.issued.filter (·.port ≠ .migration) }

/-- An error in the spare abandons the migration (R504). Log entry 119: DEDUCED. -/
def W.abandonMigration (w : W) (injected : Bool) : W :=
  match w.q.dram.migrating, w.q.dram.spare with
  | true, some r =>
    (w.upd fun q => { q with dram := { q.dram.dropCopies with migrating := false, spareOk := false, ranks := q.dram.ranks.set r .failed } }).log 0x15 7 (packW [(4, 1), (0, r.val)]) 0 0 injected
  | _, _ => w

/-! ### Lines -/

/-- An uncorrectable error counts, records its line and is reported (R468, R738). -/
def W.lineError (w : W) (line : Nat) (injected : Bool := false) : W :=
  ((w.bump (rk 0x11 0x204)).setLive (rk 0x11 0x238) (BitVec.ofNat 32 line)).report .alert 0x18 0xFF 0 line injected

/-- An uncorrectable error concerns the rank that the line was read from or written to (R500, R504). -/
def W.uncorrectable (w : W) (line : Nat) (injected : Bool := false) : W :=
  let w := w.lineError line injected
  if w.q.dram.onSpare line then w.abandonMigration injected else w.upd fun q => { q with dram := q.dram.startMigration (lineLogical line) injected }

/-- A line holds the poison code (R495, R501). -/
def Dram.poisonLine (d : Dram) (line : Nat) : Dram := { d with poison := if d.poison.contains line then d.poison else insertBy (· < ·) line d.poison }

/-- What the code over a line makes of its wrong symbols: up to 8 are corrected, and more are uncorrectable unless they pass for corrected ones (R464). -/
def lineOutcome (r : LineRead) : LineOutcome :=
  if r.wrong.val = 0 then .good else if r.wrong.val ≤ 8 || r.miscorrected then .corrected else .uncorrectable

/-- A line is read: whether it comes back poisoned (R464, R465, R468, R495, R496). Log entry 156: DESIGN CHOICE. -/
def W.readLine (w : W) (line : Nat) (r : LineRead) : Bool × W :=
  let k := w.check 0x18 0
  let w := k.2
  if k.1 || decide (lineOutcome r = .uncorrectable) then
    (true, ((w.uncorrectable line k.1).upd fun q => { q with dram := q.dram.poisonLine line }).bump (rk 0x11 0x208))
  else
    let w := if lineOutcome r = .corrected then w.bump (rk 0x11 0x200) else w
    if w.q.dram.poison.contains line then (true, w.bump (rk 0x11 0x208)) else (false, w)

/-- The read of a line takes a miscorrected line for a corrected one, and writes it back (R464, R465): not a check that is injected. -/
def Quire.miscorrects (q : Quire) (r : LineRead) : Bool := r.miscorrected && decide (8 < r.wrong.val) && !injecting 0x18 0 q.injections

/-- A line whose bytes the manual does not give holds free ones: that of a failed write (R468), or a miscorrected one (R464). Log entry 3: DESIGN CHOICE; log entry 118: DEDUCED. -/
def State.freeLine (s : State) (q : QId) (line : Nat) : State :=
  s.each (List.range 16) fun s i =>
    let r := s.takeFree
    r.2.modQuire q fun x => { x with dram := { x.dram with mem := bwrite (64 * line + 4 * i) (leW r.1) x.dram.mem } }

end Sys2Proof.Machine
end

