-- ==== Sys2Proof/Machine/Line.lean ====
section
/-! DEFINITION. Line coding of a host lane: the Reed-Solomon code RS(544,514) (R514), the layout of a codeword on the line (R515), PAM4 symbols (R511), precoding (R512), and the equaliser settings (R513, R520, R521). -/

namespace Sys2Proof.Machine

/-! ### The field of 1,024 elements

IEEE 802.3 Clause 91, which R514 names, gives the field polynomial x^10 + x^3 + 1 and the generator polynomial with the roots α^0 to α^29, and sends the symbol of the highest power first. Log entry 171: PRESUMED. -/

/-- α times an element. -/
def gfDouble (a : Nat) : Nat := (2 * a) ^^^ (a / 512 * 0x409)

/-- The product of two elements. -/
def gfMul (a b : Nat) : Nat := (List.range 10).foldr (fun i r => gfDouble r ^^^ (b / 2 ^ i % 2 * a)) 0

/-- A power of α. -/
def gfAlpha : Nat → Nat
  | 0 => 1
  | n + 1 => gfDouble (gfAlpha n)

/-- The inverse of an element other than 0: its power 1,022. -/
def gfInv (a : Nat) : Nat := ((List.range 9).foldl (fun p _ => let q := gfMul p.2 p.2; (gfMul p.1 q, q)) (1, a)).1

/-- The value of a polynomial, lowest coefficient first. -/
def gfEval (p : List Nat) (x : Nat) : Nat := p.foldr (fun c r => gfMul x r ^^^ c) 0

/-! ### RS(544,514) (R514) -/

/-- The 30 coefficients of the generator polynomial below x^30, 10 bits each with the lowest first, times α^b for the b-th number. -/
def rsRows : List Nat :=
  [0x8fe282ece68a0011b235468f99448417ad07bd81eb9f7dcd69c5262305881fcb927880d0a0b, 0x1dc595d9cc16402360638d1f22ad082f1a9f7b02d57eebbed2884cd60b103f9724f100a341f,
   0x3b8b2bb3982c8046c0c6187e455a105e352ed60da8fd575dad12d9ac12297f2e49e20044c3e, 0x771647473959008d818c30bc1ab029bc2add8c1353fa3ebb5a25b348045bfe1c13e4098987c,
   0xee2c8e8a7bb2010b27186138b544527a553b3c26a7b4fd56bd4b26102cb6fe7827c812114f8, 0xde599d34ff6642066e39c231fa88a4f4aa665c4c4d697a8d73960cb0596cfef0df9024229f0,
   0xbef32a4dfecc840cd87b8663753548eb545cb8989a92753ee62e5960b2d8ffe13f0448453e0, 0x7fe6d4bffc9b480994f60ec67a6a90d4e8a955303764ea79c55cb2c161b9fdc2fe2c908a3c9,
   0xff8d397bf134d0030dec1d8ce4f529abd1d28e606e8954d78ab92512c372f9c5ec7d201679b, 0xfd5a62d7eb69a0061bd83b19c9ea5255e3a518c9dd12a9ab1d704ab582edf1cbc8de402cb3f]

/-- The remainder of the message, times x^30, by the generator polynomial: the parity symbols as one number, the coefficient of x^0 in its low 10 bits. -/
def rsParity (message : List Nat) : Nat :=
  message.foldl (fun r c =>
    let f := (r / 2 ^ 290) ^^^ c
    rsRows.zipIdx.foldl (fun a e => if f.testBit e.2 then a ^^^ e.1 else a) (r % 2 ^ 290 * 2 ^ 10)) 0

/-- The parity symbols in the order in which they are sent. -/
def paritySymbols (parity : Nat) : List Nat := (List.range 30).map fun i => parity / 2 ^ (10 * (29 - i)) % 1024

/-- What is left of a received word: 0 for a codeword. -/
def rsRemainder (word : List Nat) : Nat := rsParity (word.take 514) ^^^ (word.drop 514).foldl (fun a c => a * 2 ^ 10 + c) 0

/-- A step of the search for the polynomial that locates the errors: the locator, the one before its last growth, its length, the distance since, and the discrepancy then. -/
def locatorStep (syndromes : List Nat) (st : List Nat × List Nat × Nat × Nat × Nat) (n : Nat) : List Nat × List Nat × Nat × Nat × Nat :=
  let (c, b, len, m, last) := st
  let d := ((List.range (len + 1)).map fun i => gfMul (c.getD i 0) (syndromes.getD (n - i) 0)).foldl (· ^^^ ·) 0
  if d = 0 then (c, b, len, m + 1, last)
  else
    let scale := gfMul d (gfInv last)
    let next := (List.range (max c.length (b.length + m))).map fun i => c.getD i 0 ^^^ (if i < m then 0 else gfMul scale (b.getD (i - m) 0))
    if 2 * len ≤ n then (next, c, n + 1 - len, 1, d) else (next, b, len, m + 1, last)

/-- The error values of a received word that is no codeword, by place from the first symbol sent. -/
def rsErrors (remainder : Nat) : List (Nat × Nat) :=
  let rest := (List.range 30).map fun i => remainder / 2 ^ (10 * i) % 1024
  let syndromes := (List.range 30).map fun j => gfEval rest (gfAlpha j)
  let locator := ((List.range 30).foldl (locatorStep syndromes) ([1], [1], 0, 1, 1)).1
  let value := (List.range 30).map fun i => ((List.range (i + 1)).map fun j => gfMul (locator.getD j 0) (syndromes.getD (i - j) 0)).foldl (· ^^^ ·) 0
  let slope := (List.range locator.length).map fun i => if i % 2 = 0 then locator.getD (i + 1) 0 else 0
  (List.range 544).filterMap fun p =>
    let power := 543 - p
    let inv := gfAlpha (1023 - power)
    if gfEval locator inv = 0 then some (p, gfMul (gfMul (gfAlpha power) (gfEval value inv)) (gfInv (gfEval slope inv))) else none

/-- Decode a received word of 544 symbols: the number of symbols corrected and the 514 message symbols, or `none` when no codeword is within 15 symbols (R514). -/
def rsDecode (word : List Nat) : Option (Nat × List Nat) :=
  let remainder := rsRemainder word
  if remainder = 0 then some (0, word.take 514)
  else
    let errors := rsErrors remainder
    let mended := errors.foldl (fun w e => w.set e.1 (w.getD e.1 0 ^^^ e.2)) word
    if errors.length ≤ 15 ∧ rsRemainder mended = 0 then some (errors.length, mended.take 514) else none

/-! ### The line (R511, R512, R515) -/

/-- A symbol level of R511 and the pair of bits b1b0 that it stands for, either way. -/
def grayPair (v : Nat) : Nat := match v with | 2 => 3 | 3 => 2 | v => v

/-- The 10-bit symbols of PAM4 symbols, the first bit as bit 0 (R515). -/
def wordOf : List (Fin 4) → List Nat
  | a :: b :: c :: d :: e :: rest => (grayPair a + 4 * grayPair b + 16 * grayPair c + 64 * grayPair d + 256 * grayPair e) :: wordOf rest
  | _ => []

/-- The PAM4 symbols of a 10-bit symbol, in the order on the line. -/
def pamOf (c : Nat) : List (Fin 4) := (List.range 5).map fun i => Fin.ofNat 4 (grayPair (c / 4 ^ i % 4))

/-- The transmitter's precoding (R512): P(j) = G(j) - P(j - 1), with P(j - 1) given for the first symbol. -/
def precode (on : Bool) : Fin 4 → List (Fin 4) → List (Fin 4)
  | _, [] => []
  | last, g :: rest => let p := if on then g - last else g; p :: precode on p rest

/-- The receiver's side of it: G(j) = P(j) + P(j - 1). -/
def unprecode (on : Bool) : Fin 4 → List (Fin 4) → List (Fin 4)
  | _, [] => []
  | last, p :: rest => (if on then p + last else p) :: unprecode on p rest

/-- The 5,140 message bits of a codeword as one number: its header and the bytes of its flits, low bit first (R515). -/
def messageBits (header : BitVec 20) (flits : List (List Byte)) : Nat := header.toNat + 2 ^ 20 * unle flits.flatten

/-- A codeword as 544 symbols (R514, R515). -/
def codewordSymbols (header : BitVec 20) (flits : List (List Byte)) : List Nat :=
  let bits := messageBits header flits
  let message := (List.range 514).map fun i => bits / 2 ^ (10 * i) % 1024
  message ++ paritySymbols (rsParity message)

/-- The header and flits of 514 message symbols. -/
def messageOf (message : List Nat) : BitVec 20 × List (List Byte) :=
  let bits := message.foldr (fun c a => a * 1024 + c) 0
  (BitVec.ofNat 20 bits, (List.range 20).map fun i => le 32 (bits / 2 ^ (20 + 256 * i)))

/-- The last symbol on the line, which the precoding of the next one takes up (R512). -/
def lastSymbol (last : Fin 4) (line : List (Fin 4)) : Fin 4 := line.getLast?.getD last

/-- What a lane sends for a codeword of 544 symbols (R511, R512). -/
def Lane.encode (x : Lane) (symbols : List Nat) : List (Fin 4) := precode x.txPrecode x.txLast (symbols.flatMap pamOf)

/-- What a lane reads of a codeword's 2,720 PAM4 symbols (R511, R512, R514, R515, R518). -/
def Lane.decode (x : Lane) (line : List (Fin 4)) : RxCodeword :=
  match rsDecode (wordOf (unprecode x.rxPrecode x.rxLast line)) with
  | some r => .good (Fin.ofNat 16 r.1) (messageOf r.2).1 (messageOf r.2).2
  | none => .bad

/-- Corrupt `k` symbols of a codeword (R570): which, and how, the manual leaves open. Log entry 3: DESIGN CHOICE. -/
def State.corrupt (s : State) (k : Nat) (symbols : List Nat) : List Nat × State :=
  let r := (List.range k).foldl (fun (a : List Nat × List Nat × State) _ =>
    let f := a.2.2.takeFree
    let g := f.2.takeFree
    let i := f.1.toNat % max 1 a.2.1.length
    let p := a.2.1.getD i 0
    (a.1.set p (a.1.getD p 0 ^^^ (1 + g.1.toNat % 1023)), a.2.1.eraseIdx i, g.2)) (symbols, List.range symbols.length, s)
  (r.1, r.2.2)

/-! ### Test patterns (R567, R568) -/

/-- The next bit of PRBS13 or PRBS31 after the bits of a register, the last one lowest. Log entry 187: PRESUMED. -/
def prbsBit (pattern place : Nat) : Nat :=
  if pattern = 0 then (place + place / 2 + place / 2 ^ 11 + place / 2 ^ 12) % 2 else (1 + place / 2 ^ 27 + place / 2 ^ 30) % 2

/-- The bits of that register. -/
def prbsLength (pattern : Nat) : Nat := if pattern = 0 then 13 else 31

/-- The register with a bit more. -/
def prbsPush (pattern place b : Nat) : Nat := (2 * place + b) % 2 ^ prbsLength pattern

/-- The symbol at a place of a pattern, and the place of the next: PRBS13Q, PRBS31Q, SSPRQ and the square wave. Log entry 187: PRESUMED. -/
def patternStep (pattern place : Nat) : Fin 4 × Nat :=
  match pattern with
  | 2 => (Config.ssprq place, (place + 1) % 65535)
  | 3 => (if place < 8 then 0 else 3, (place + 1) % 16)
  | _ =>
    let a := prbsBit pattern place
    let p := prbsPush pattern place a
    let b := prbsBit pattern p
    (Fin.ofNat 4 (grayPair (a + 2 * b)), prbsPush pattern p b)

/-- `n` symbols of a pattern from a place on, and the place behind them. -/
def patternFrom (pattern : Nat) : Nat → Nat → List (Fin 4) × Nat
  | 0, place => ([], place)
  | n + 1, place => let a := patternStep pattern place; let b := patternFrom pattern n a.2; (a.1 :: b.1, b.2)

/-- The place at which a generator starts, from a free value. Log entry 188: DESIGN CHOICE. -/
def patternStart (pattern : Nat) (w : Word) : Nat :=
  match pattern with
  | 0 => 1 + w.toNat % 8191
  | 1 => w.toNat % (2 ^ 31 - 1)
  | 2 => w.toNat % 65535
  | _ => w.toNat % 16

/-- The bits of symbols, after Gray decoding. -/
def patternBits (l : List (Fin 4)) : List Nat := l.flatMap fun g => [grayPair g % 2, grayPair g / 2]

/-- The place behind symbols that match a pattern, if they do (R568). -/
def patternPlace (pattern : Nat) (l : List (Fin 4)) : Option Nat :=
  if pattern < 2 then
    let bits := patternBits l
    let seed := (bits.take (prbsLength pattern)).foldl (prbsPush pattern) 0
    let r := (bits.drop (prbsLength pattern)).foldl (fun (x : Bool × Nat) b => (x.1 && decide (b = prbsBit pattern x.2), prbsPush pattern x.2 b)) (true, seed)
    if r.1 && decide (seed ≠ if pattern = 0 then 0 else 2 ^ 31 - 1) then some r.2 else none
  else ((List.range (if pattern = 2 then 65535 else 16)).find? fun p => decide ((patternFrom pattern l.length p).1 = l)).map fun p => (patternFrom pattern l.length p).2

/-- Invert every `inject`-th bit of what a generator sends, of whose symbols `sent` are out (R567); 0 = none. -/
def invertBits (inject sent : Nat) (l : List (Fin 4)) : List (Fin 4) :=
  if inject = 0 then l
  else l.zipIdx.map fun e =>
    let first := 2 * (sent + e.2)
    let flip := fun (b : Nat) => if (b + 1) % inject = 0 then 1 else 0
    Fin.ofNat 4 (grayPair (grayPair e.1 ^^^ (flip first + 2 * flip (first + 1))))

/-- A symbol at the checker: it looks for lock in the last 64 symbols, and then compares; the bits compared, and those that are wrong (R568). -/
def LaneTest.check (x : LaneTest × Nat × Nat) (g : Fin 4) : LaneTest × Nat × Nat :=
  let t := { x.1 with received := x.1.received + 1 }
  match t.place with
  | some p =>
    let e := patternStep t.pattern p
    let diff := grayPair e.1 ^^^ grayPair g
    ({ t with place := some e.2 }, x.2.1 + 2, x.2.2 + diff % 2 + diff / 2)
  | none =>
    let recent := lastN 64 (t.recent ++ [g])
    let place := if recent.length = 64 then patternPlace t.pattern recent else none
    ({ t with recent := recent, place := place, inTime := place.isSome && decide (t.received ≤ 53125) }, x.2)

/-! ### Equalisers (R513, R520, R521) -/

/-- The largest size of a DFE tap in hundredths of the signal amplitude, from tap 1 on (R520). -/
def dfeRange (i : Nat) : Nat := if i = 0 then 60 else if i < 4 then 25 else 10

/-- A DFE tap in steps of `Config.dfeSteps` to the amplitude, held in its range. -/
def dfeHeld (i : Nat) (v : Int) : Int :=
  let m : Int := dfeRange i * Config.dfeSteps / 100
  max (-m) (min m v)

/-- What training finds of a lane, phase by phase up to the one that it fails (R513, R520, R529). Log entry 125: DESIGN CHOICE. -/
def Lane.train (allow : Bool) (t : LaneTraining) (x : Lane) : Lane :=
  let done := fun (p : Nat) => t.fails = 0 || decide (p < t.fails.val)
  let x := { x with signal := done 1 }
  let x := if done 3 then { x with ffe := t.ffe, request := t.request, txPrecode := allow && t.precode } else x
  if done 4 then
    let dfe := (List.range 12).map fun i => dfeHeld i (t.dfe.getD i 0)
    { x with ctle := BitVec.ofNat 8 t.ctle.val, eyeMv := t.eyeMv, dfe := dfe, rxPrecode := decide ((35 * Config.dfeSteps : Int) < 100 * dfe.getD 0 0) }
  else x

/-- What two free bits do to a setting: down one step, up one step, or nothing. -/
def oneStep (w : Word) (i : Nat) : Int := match fld w (2 * i) 2 with | 1 => 1 | 2 => -1 | _ => 0

/-- Continuous adaptation on live traffic (R520, R521): at most one step of each setting per 10 µs, towards what the channel asks for. Log entries 3, 125: DESIGN CHOICE. -/
def State.adapt (s : State) (n : LaneId) : State :=
  if s.time.ticks < (s.lane n).adapted + 10000 then s
  else
    let r := s.takeFree
    let e := r.2.takeFree
    e.2.modLane n fun x => { x with
      adapted := s.time.ticks, eyeMv := BitVec.ofNat 8 (fld e.1 0 8)
      ctle := BitVec.ofNat 8 (max 0 (min 40 ((x.ctle.toNat : Int) + oneStep r.1 12))).toNat
      dfe := x.dfe.zipIdx.map fun d => dfeHeld d.2 (d.1 + oneStep r.1 d.2) }

end Sys2Proof.Machine
end

