-- ==== Sys2Proof/Machine/Checks.lean ====
section
/-! DEFINITION. The checks of collation, phases 1 to 3 (R612, R860): each answers the keys of the registers that offend. -/

namespace Sys2Proof.Machine

/-- A register that offends when `c` holds. Log entry 47: DEDUCED. -/
def offend (c : Bool) (k : Nat) : List Nat := if c then [k] else []

/-! ### Phase 1: completeness -/

/-- Signatures that a reachable entry, a bitmap source, the training set-up or a marker names (R612). Log entry 46: DEDUCED. -/
def Quire.namedSigs (q : Quire) : List Nat :=
  (q.playedSigs ++ (if q.bmEn then q.bmSources else []) ++ (if q.trEn then [q.trSig] else [])
    ++ (List.range 2).filterMap fun m => let w := q.cfg 0x0B (16 * m); if fld w 0 4 = 3 then some (fld w 16 10) else none).dedup

/-- No page DIRTY, the CRC of each SEALED page right, the required pages SEALED, and the named signatures LOADED (R611, R612). Log entry 46: DEDUCED. -/
def Quire.phase1 (q : Quire) : List Nat :=
  (configPages.flatMap fun p =>
    let sealed := bit q.sealedPages p
    offend (bit q.dirty p || (sealed && (sfind p q.crcWritten).join ≠ some (pageCrc q.inForce p)) || (!q.everCommitted && requiredPages.contains p && !sealed)) (rk p pageCrcOff))
  ++ q.namedSigs.flatMap fun s =>
    offend (q.sigValid s && q.sigHome s ≠ 2 && (q.sig s).buf ≠ .loaded) (rk 0x03 (0x4000 + 4 * s))

/-! ### Phase 2: timing sets (R6, R262, R264, R286 to R289) -/

def tsKey (s o : Nat) : Nat := rk (4 + s / 16) (0x1000 * (s % 16) + o)
def edgeLo (s p k : Nat) : Nat := tsKey s (0x50 + 0x40 * p + 8 * k)
def edgeHi (s p k : Nat) : Nat := tsKey s (0x54 + 0x40 * p + 8 * k)

/-- Consecutive pairs of a list. -/
def pairs {α : Type} (l : List α) : List (α × α) := l.zip (l.drop 1)

/-- The kinds are a prefix of DRIVE, RETURN, DRIVE, RETURN. -/
def alternates (ks : List Nat) : Bool := ks = [1, 2, 1, 2].take ks.length

/-- The checks of one pin in a defined set. Log entry 47: DEDUCED. -/
def Quire.checkSetPin (q : Quire) (s p : Nat) : List Nat :=
  let es := q.tsEdges s p
  let period := q.tsPeriod s
  let oz := q.tsOz s
  let fmt := q.tsFormat s p
  let kinds := es.map (·.2.1)
  let top := if oz then 2 * period - 250 else period - 250
  let drives := es.filter (·.2.1 = 1)
  let returns := es.filter (·.2.1 = 2)
  offend (fmt = 3) (tsKey s (0x40 + 0x40 * p))
  ++ ((List.range 4).flatMap fun k => offend (q.tsKind s p k = 3) (edgeHi s p k))
  ++ offend (es.map (·.1) ≠ List.range es.length) (edgeHi s p 0)
  ++ (match es with | x :: _ => offend ((pairs es).any fun x => x.2.2.2 ≤ x.1.2.2) (edgeLo s p x.1) | [] => [])
  ++ ((pairs es).flatMap fun x => offend (x.1.2.2 < x.2.2.2 && x.2.2.2 < x.1.2.2 + 250) (edgeLo s p x.1.1))
  ++ offend (if fmt = 0 then returns ≠ [] || decide (2 ≤ drives.length) else !alternates kinds) (tsKey s (0x40 + 0x40 * p))
  ++ (es.flatMap fun x => offend (period < 250 || top < x.2.2) (edgeLo s p x.1))
  ++ offend (q.tsStrobeEn s p && ((!oz && period - 1 < q.tsStrobe s p) || (oz && top < q.tsStrobe s p))) (tsKey s (0x44 + 0x40 * p))
  ++ (if oz then (if 2 ≤ drives.length then drives.map fun x => edgeHi s p x.1 else []) ++ (if 2 ≤ returns.length then returns.map fun x => edgeHi s p x.1 else []) else [])

/-- R289: the spilled events of set `a` against set `b`, for one pin. Log entry 47: DEDUCED. -/
def Quire.checkSpill (q : Quire) (a b p : Nat) : List Nat :=
  let pa := q.tsPeriod a
  let pb := q.tsPeriod b
  let first := (q.tsEdges b p).head?.map (·.2.2)
  ((q.tsEdges a p).flatMap fun x =>
    let t := x.2.2 - pa
    offend (pa ≤ x.2.2 && (pb < t + 250 || (match first with | some f => f < t + 250 | none => false))) (edgeLo a p x.1))
  ++ (let st := q.tsStrobe a p
      let t := st - pa
      offend (q.tsStrobeEn a p && pa ≤ st && (pb < t + 1 || (q.tsStrobeEn b p && q.tsStrobe b p < t + 250))) (tsKey a (0x44 + 0x40 * p)))

/-- All timing sets and deskews. -/
def Quire.checkSets (q : Quire) (modeOz : Bool) : List Nat :=
  (q.definedSets.flatMap fun s =>
    offend (q.tsPeriod s < 250 || 16000000000000 < q.tsPeriod s || (q.tsOz s && q.tsPeriod s < 1250)) (tsKey s 0)
    ++ offend (q.tsOz s && !modeOz) (tsKey s 8)
    ++ (List.range 32).flatMap (q.checkSetPin s)
    ++ (if q.tsOz s then q.definedSets.flatMap fun b => (List.range 32).flatMap (q.checkSpill s b) else []))
  ++ (List.range 32).flatMap fun p =>
    let w := q.cfg 0x04 (0x10000 + 4 * p)
    let bad := fun (v : Int) => v < -8000 || 8000 < v
    offend (bad (sfld w 16 16) || bad (sfld w 0 16)) (rk 0x04 (0x10000 + 4 * p))

/-! ### Phase 2: pins (R311, R317, R324, R325, R328, R329) -/

def Quire.checkPins (q : Quire) : List Nat :=
  let v := q.vpinSet
  offend (v < 900 || 1800 < v) (rk 0x08 0)
  ++ (List.range 32).flatMap fun p =>
    let lo : Int := (q.clampLo p : Int) - 500 + 50
    let hi : Int := (q.clampHi p : Int) - 500 - 50
    -- a level is 0.5 mV × code
    let bad := fun (c : Nat) => 2 * ((v : Int) - 150) < c || (c : Int) < 2 * lo || 2 * hi < c
    offend (bad (q.level p 0) || bad (q.level p 1)) (rk 0x08 (0x100 + 16 * p))
    ++ offend (bad (q.level p 2) || bad (q.level p 3)) (rk 0x08 (0x104 + 16 * p))
    ++ offend (bad (q.vtt p)) (rk 0x08 (0x108 + 16 * p))
    ++ offend (q.threshold p 1 ≤ q.threshold p 0 || q.threshold p 2 ≤ q.threshold p 1) (rk 0x09 (0x100 + 16 * p))
    ++ offend (2 * v < q.threshold p 2 || 20 < q.hyst p) (rk 0x09 (0x104 + 16 * p))
    ++ offend (q.clampLo p < 200 || v + 800 < q.clampHi p) (rk 0x09 (0x108 + 16 * p))

/-! ### Phase 2: sequencer page, markers, capture, repair, training, channel -/

def Quire.checkSequencer (q : Quire) : List Nat :=
  let fill := fld (q.cfg 0x01 0) 8 4
  let pre := (q.cfg 0x01 4).toNat
  let win := (q.cfg 0x01 8).toNat
  offend (fill < 1 || 8 < fill) (rk 0x01 0) ++ offend (pre < 2048 || 65536 < pre) (rk 0x01 4)
  ++ offend (win < 64 || 2048 < win || win % 64 ≠ 0) (rk 0x01 8)

def Quire.checkMarkers (q : Quire) : List Nat :=
  (List.range 2).flatMap fun m =>
    let src := fld (q.cfg 0x0B (16 * m)) 0 4
    offend (6 ≤ src) (rk 0x0B (16 * m)) ++ offend (32000 < (q.cfg 0x0B (16 * m + 4)).toNat) (rk 0x0B (16 * m + 4))
    ++ offend (src ≠ 0 && src ≠ 1 && fld (q.cfg 0x0B (16 * m + 8)) 0 16 = 0) (rk 0x0B (16 * m + 8))
    ++ offend (q.cfg 0x0B (16 * m + 0xC) &&& q.pmuPins ≠ 0) (rk 0x0B (16 * m + 0xC))

/-- The capture set-up (R389, R407). Log entry 47: DEDUCED. -/
def Quire.checkCapture (q : Quire) : List Nat :=
  let steps := fld q.bmFormat 16 13
  let beats := fld q.bmFormat 0 7
  let row := q.cfg 0x0C 0x108
  let col := q.cfg 0x0C 0x10C
  let reg := q.cfg 0x0C 0x110
  offend (4096 < q.firstNLen || (q.bmEn && q.bmSources = [])) (rk 0x0C 0) ++ offend (1984 < q.rawKib) (rk 0x0C 0xC)
  ++ (if q.bmEn then
      offend (steps = 0 || 4096 < steps || steps < fld q.bmFormat 8 8 + beats || beats < 1 || 64 < beats || (bit q.bmFormat 7 && 4096 < q.bmCols)) (rk 0x0C 0x100)
      ++ offend (q.bmPins = 0 || 4096 < q.bmCols) (rk 0x0C 0x104)
      ++ offend (fld row 0 4 < 1 || 12 < fld row 0 4 || 64 < fld row 8 6 + fld row 0 4) (rk 0x0C 0x108)
      ++ offend (fld col 0 4 < 1 || 12 < fld col 0 4 || 64 < fld col 8 6 + fld col 0 4) (rk 0x0C 0x10C)
      ++ offend (5 < fld reg 0 3 || 64 < fld reg 8 6 + fld reg 0 3) (rk 0x0C 0x110)
      ++ (List.range 8).flatMap fun i =>
        let w := q.cfg 0x0C (0x120 + 4 * i)
        offend (bit w 31 && !(q.sigValid (fld w 0 10) && q.sigKind (fld w 0 10) = 2)) (rk 0x0C (0x120 + 4 * i))
    else [])
  ++ offend (q.raEn && (!q.bmEn || 32 < q.spareRows || 32 < q.spareCols)) (rk 0x0D 0)

/-- R418, R421, for a configuration with training on. -/
def Quire.checkTraining (q : Quire) (reach : List Nat) : List Nat :=
  if !q.trEn then []
  else
    let tEnd : Int := q.tStart + q.tStep * (q.tSteps - 1 : Nat)
    let vEnd : Int := q.vStart + q.vStep * (q.vSteps - 1 : Nat)
    let v2 := fun (x : Int) => 2 * x
    offend (q.tSteps < 1 || q.vSteps < 1) (rk 0x0F 0)
    ++ offend (q.tStep < 1 || 4000 < q.tStep || q.tStart < -8000 || 8000 < q.tStart || 8000 < tEnd
        || (pinsOf q.trPins).any fun p => q.definedSets.any fun s => !q.tsOz s && q.tsStrobeEn s p
            && decide ((q.tsStrobe s p : Int) + q.tStart < 0 ∨ (q.tsPeriod s : Int) - 1 < q.tsStrobe s p + tEnd)) (rk 0x0F 4)
    ++ offend (q.vStep < 1 || 50 < q.vStep || q.vStart < -100 || 100 < q.vStart
        || !((List.range q.vSteps).any fun u => q.vStart + q.vStep * u = 0)
        || (pinsOf q.trPins).any fun p => (List.range 3).any fun t =>
            decide ((q.threshold p t : Int) + v2 q.vStart < 0 ∨ 2 * (q.vpinSet : Int) < q.threshold p t + v2 vEnd)) (rk 0x0F 8)
    ++ reach.flatMap fun e =>
      offend (q.bindOp e = 7 && q.bindSig e = q.trSig) (rk 0x02 (32 * e))
      ++ offend (q.bindOp e = 1 && q.bindSig e = q.trSig && (q.bindArg e).toNat ≠ q.tSteps * q.vSteps) (rk 0x02 (32 * e + 4))

def Quire.checkChannel (q : Quire) : List Nat :=
  let rh := fld (q.cfg 0x11 0) 16 15
  offend (rh < 256 || 16384 < rh) (rk 0x11 0)
  ++ offend (q.rawInDram && q.rawDramBytes ≠ 0 && q.dram.checksumBase < q.rawDramBase + q.rawDramBytes) (rk 0x0C 8)

/-! ### Phase 2: stored images (R73, R78, R190, R196, R263) -/

/-- The reserved cell codes (R71). -/
def reservedCode (c : Nat) : Bool := c = 6 || c = 7 || c = 15

def badWord (w : BitVec 256) : Bool := (List.range 64).any fun k => reservedCode (slotCode w k)

/-- R73, R78, R263 for a RAW image. -/
def Quire.checkRaw (q : Quire) (s : Nat) : Bool :=
  let rd := q.image s
  let n := rdN rd 0 4
  let m := (pinsOf (q.sigMask s)).length
  let rs := records rd 4 n
  n < 1 || 65536 < n || rs.any (fun r => r.2 = 0) || runSum rs ≠ 64 * q.sigGroups s
    || (q.sig s).imageBytes ≠ up64 (4 + 4 * n) + 32 * m * q.sigGroups s
    || rs.any (fun r => !q.tsDefined r.1) || (rawWords rd m 0 (q.sigGroups s)).any badWord

/-- A token whose fields are reserved or out of range, by the rules of R194 and R196. Log entry 179: DEDUCED. -/
def badToken (d t : Nat) : Bool :=
  match t / 2 ^ 14 with
  | 0 => t / 128 % 128 ≠ 0 || d ≤ t % 128
  | 1 => t % 2 ^ 14 = 0
  | 2 => t % 1024 = 0 || reservedCode (t / 1024 % 16)
  | _ => t / 128 % 128 ≠ 0 || t % 128 = 0 || 64 < t % 128

/-- The tokens of a chunk stream, from an address on. -/
def streamTokens (rd : Rd) : Nat → Nat → List Nat
  | 0, _ => []
  | n + 1, a => let t := rdN rd a 2; t :: streamTokens rd n (a + 2 + (if t / 2 ^ 14 = 3 then 32 * (t % 128) else 0))

/-- R196, R263 for a CODEC image. -/
def Quire.checkCodec (q : Quire) (s : Nat) : Bool :=
  let rd := q.image s
  let d := codecEntries rd
  let m := (pinsOf (q.sigMask s)).length
  rdN rd 0 4 ≠ 1 || 128 < d || rdN rd 8 4 ≠ q.sigChunks s || !(List.range 52).all (fun i => rd (12 + i) = 0)
    || (List.range d).any (fun i => badWord (codecDict rd i))
    || (List.range (q.sigChunks s)).any fun i =>
      let a := 64 * rdN rd (codecTable rd + 4 * i) 4
      let n := rdN rd a 4 % 2 ^ 16
      let ts := streamTokens rd (rdN rd a 4 / 2 ^ 16) (a + 4 + 4 * n)
      let src := codecSource rd i
      src.words.length ≠ m * (q.chunkVectors s i / 64) || ts.any (badToken d) || (match ts with | t :: _ => t / 2 ^ 14 = 1 | [] => false)
        || src.runs.any (fun r => r.2 = 0) || runSum src.runs ≠ q.chunkVectors s i || src.words.any badWord || src.runs.any (fun r => !q.tsDefined r.1)

/-- The unused fields of an instruction are 0 (R163), RGET by R856 and CMAP by R178. Log entry 38: DEDUCED. -/
def legalWord (w : Word) : Bool :=
  let rd := fld w 21 5
  let ra := fld w 16 5
  let rb := fld w 11 5
  let imm := fld w 0 11
  match opcodeOf w with
  | 0x00 => w = 0
  | 0x01 | 0x02 | 0x03 | 0x04 | 0x05 | 0x06 | 0x07 | 0x08 | 0x0A | 0x0B => imm = 0
  | 0x09 => rb = 0 && imm = 0
  | 0x10 | 0x11 | 0x12 | 0x13 | 0x14 | 0x15 | 0x18 | 0x19 | 0x1A | 0x1B | 0x2C | 0x2D => true
  | 0x16 | 0x25 | 0x28 => ra = 0
  | 0x20 | 0x21 | 0x22 | 0x23 => true
  | 0x24 => ra = 0
  | 0x26 => rd = 0 && rb = 0 && imm = 0
  | 0x29 => rd = 0
  | 0x2A => ra = 0 && rb = 0 && imm = 0
  | 0x2B => rd = 0 && rb = 0 && imm = 0
  | 0x2E => cmapLegal (BitVec.ofNat 16 (fld w 0 16))
  | 0x30 => rd = 0
  | 0x31 => rd = 0 && imm = 0
  | 0x39 => ra = 0 && fld w 0 16 < 28
  | 0x3E => rd = 0 && ra = 0 && rb = 0 && imm = 0
  | 0x3F => rd = 0 && ra = 0 && 0x80 ≤ fld w 0 8
  | _ => false

/-- R190 for an ALGO descriptor. -/
def Quire.checkAlgo (q : Quire) (s : Nat) : Bool :=
  let rd := q.image s
  let d := algoDesc rd
  let prog := algoProgram rd d
  let zero := fun (a b : Nat) => (List.range (b - a)).all fun i => rd (a + i) = 0
  let e : Engine := { Engine.reset with unit := (List.range 14).foldl (fun m i => sput (fun _ => (0 : DWord)) i ((algoUnit rd d).getD i 0) m) [] }
  d.version ≠ 1 || d.progWords < 1 || 2048 < d.progWords || 1024 < d.paramBytes || d.paramBytes % 8 ≠ 0 || 64 < d.scramSets
    || d.opsBound < 1 || 1048576 < d.opsBound || !zero 20 64 || (q.sig s).imageBytes ≠ d.size
    || !zero (64 + 4 * d.progWords) d.paramAt || !zero (d.paramAt + d.paramBytes) d.scramAt || !zero (d.scramAt + 32 * d.scramSets) d.cellAt
    || !zero (d.cellAt + 8) d.unitAt || !zero (d.unitAt + 112) (d.unitAt + 128)
    || !prog.all legalWord
    || (List.range prog.length).any (fun i =>
        let w := prog.getD i 0
        let t : Int := i + 1 + sfld w 0 16
        decide (0x20 ≤ opcodeOf w ∧ opcodeOf w ≤ 0x25 ∧ (t < 0 ∨ (prog.length : Int) ≤ t)))
    || (rdBytes rd d.scramAt (32 * d.scramSets)).any (fun b => 0x41 < b.toNat)
    || (rdBytes rd d.cellAt 8).any (fun b => reservedCode (b.toNat % 16) || reservedCode (b.toNat / 16))
    || e.unitBad || e.bgBad

/-- A stored image that a check refuses. -/
def Quire.badImage (q : Quire) (s : Nat) : Bool :=
  match q.sigKind s with
  | 0 => q.checkRaw s
  | 1 => q.checkCodec s
  | 2 => q.checkAlgo s
  | _ => true

/-- The directory and the images of the loaded signatures (R69, R79, R103, R358, R463). Log entry 45: DESIGN CHOICE. -/
def Quire.checkSigs (q : Quire) : List Nat :=
  q.validSigs.flatMap fun s =>
    let loaded := (q.sig s).buf = .loaded
    let shape := q.sigGroups s ≠ 0 && q.sigMask s ≠ 0
    offend (q.sigKind s = 3 || q.sigHome s = 3 || (q.sigKind s = 2 && q.sigHome s ≠ 1) || (q.sigLanding s && q.sigHome s = 2)
        || (loaded && q.sigHome s ≠ 2 && shape && q.badImage s) || (loaded && q.sigLanding s && q.dataDependent s)) (rk 0x03 (16 * s))
    ++ offend (q.sigGroups s = 0) (rk 0x03 (16 * s + 4))
    ++ offend (q.sigMask s = 0 || q.sigMask s &&& q.pmuPins ≠ 0) (rk 0x03 (16 * s + 8))
    ++ offend ((q.sigHome s = 2 && q.sigLoc s ≠ 0) || (loaded && q.sigHome s = 0 && q.dram.checksumBase < q.sigLoc s + (q.sig s).imageBytes)) (rk 0x03 (16 * s + 12))

/-! ### Phase 2: the binding table (R101, R102, R358) -/

/-- Where a place breaks the rules of frames: nesting, closing, calls and returns, and the end of the table (R95, R96, R102). -/
def Quire.badFrame (q : Quire) (x : Place) : Bool :=
  let e := x.entry
  let falls := e = 255
  match q.bindOp e with
  | 1 | 7 | 8 | 9 => falls
  | 2 => falls || 4 ≤ x.loops.length
  | 3 => falls || (match x.loops with | (b, d) :: _ => !(b = q.bindTarget e && d = x.calls.length) | [] => true)
  | 4 => falls || 8 ≤ x.calls.length || x.calls.any fun c => c.2 = q.bindTarget e
  | 5 => x.calls = [] || x.loops.any fun l => l.2 = x.calls.length
  | _ => false

/-- Profile words of a profile that holds a code other than D0 to D3, DZ or DK (R101). -/
def Quire.badProfile (q : Quire) (p : Nat) : List Nat :=
  if p = 0 then []
  else (List.range 4).flatMap fun k =>
    let w := q.cfg 0x01 (0x100 + 16 * p + 4 * k)
    offend ((List.range 8).any fun j => 6 ≤ fld w (4 * j) 4) (rk 0x01 (0x100 + 16 * p + 4 * k))

/-- The checks of one reachable entry. -/
def Quire.checkEntry (q : Quire) (oz : Bool) (e : Nat) : List Nat :=
  let op := q.bindOp e
  let s := q.bindSig e
  let t := q.bindTarget e
  let mm := q.bindMatch e
  let lands := q.bindOp t = 1 || q.bindOp t = 7
  offend (10 ≤ op || ((op = 1 || op = 7) && !q.sigValid s) || (q.bindStall e && op ≠ 1 && op ≠ 7)
      || (op = 7 && (e = 255 || q.bindOp (e + 1) ≠ 1 || !q.sigValid (q.bindSig (e + 1)) || 64 * q.sigGroups (q.bindSig (e + 1)) < 1408))
      || ((op = 7 || (op = 9 && q.bindTimeout e ≠ 0)) && lands && !(q.sigValid (q.bindSig t) && q.sigLanding (q.bindSig t)))) (rk 0x02 (32 * e))
  ++ offend ((op = 1 || op = 2) && q.bindArg e = 0) (rk 0x02 (32 * e + 4))
  ++ offend ((op = 7 && mm &&& q.pmuPins ≠ 0)
      || (op = 9 && (2 ≤ fld mm 30 2 || fld mm 16 4 < 8 || 13 < fld mm 16 4 || (fld mm 30 2 = 1 && bit q.pmuPins (fld mm 24 5))))) (rk 0x02 (32 * e + 8))
  ++ (if op = 8 && oz then
      offend (fld (q.cfg 0x02 (32 * e + 16)) 30 2 ≠ 0 || 1000000000 ≤ fld (q.cfg 0x02 (32 * e + 16)) 0 30) (rk 0x02 (32 * e + 16))
      ++ offend (fld (q.cfg 0x02 (32 * e + 24)) 16 16 ≠ 0) (rk 0x02 (32 * e + 24))
    else [])
  ++ q.badProfile (q.parkProfile e) ++ q.badProfile (q.holdProfile e)

/-- Log entry 47: DEDUCED. -/
def Quire.checkTable (q : Quire) (oz : Bool) (ps : List Place) (reach : List Nat) : List Nat :=
  reach.flatMap (q.checkEntry oz)
  ++ (let all := q.allPlaces; ps.flatMap fun x => offend (q.badFrame x || q.jumpsBadly all x) (rk 0x02 (32 * x.entry)))

/-- Phase 2 (R612). Log entry 45: DESIGN CHOICE. -/
def Quire.phase2 (q : Quire) (oz : Bool) : List Nat :=
  let ps := q.places
  let reach := q.reachable
  q.checkSequencer ++ q.checkTable oz ps reach ++ q.checkSigs ++ q.checkSets oz ++ q.checkPins ++ q.checkMarkers ++ q.checkCapture
    ++ q.checkTraining reach ++ q.checkChannel

/-! ### Phase 3: resources (R63, R64, R104, R394, R396, R811) -/

/-- Bytes of the checksum table that an SRAM-home signature adds to the signature buffers (R203). -/
def Quire.tableBytes (q : Quire) (s : Nat) : Nat := if q.sigHome s = 1 && q.hasTable s then 4 * q.sigChunks s else 0

/-- The first key at which a running total passes a limit (R860). Log entry 51: DEDUCED. -/
def passes (limit : Nat) : Nat → List (Nat × Nat) → List Nat
  | _, [] => []
  | acc, (k, n) :: t => if limit < acc + n then [k] else passes limit (acc + n) t

/-- What takes space in the signature buffers (R104, R113, R139, R203), in ascending address. Log entry 73: DESIGN CHOICE. -/
def Quire.bufferUse (q : Quire) : List (Nat × Nat) :=
  (if q.playsStream then [(rk 0x01 8, (q.cfg 0x01 8).toNat * 1024)] else [])
  ++ q.validSigs.map fun s =>
    (rk 0x03 (16 * s), (if q.sigHome s = 1 then (q.sig s).imageBytes + q.tableBytes s else 0) + (if q.sigLanding s then 2048 * (pinsOf (q.sigMask s)).length + 4096 else 0))

/-- The timing sets that a signature names (R702): those of its stored records, or every defined set. -/
def Quire.recordSets (q : Quire) (s : Nat) : List Nat :=
  if q.sigHome s = 2 ∨ q.sigKind s = 2 then q.definedSets
  else if q.sigKind s = 0 then ((records (q.image s) 4 (rdN (q.image s) 0 4)).map (·.1)).dedup
  else ((List.range (q.sigChunks s)).flatMap fun i => (codecSource (q.image s) i).runs.map (·.1)).dedup

/-- The shortest period among some sets, in units of 0.25 ps. -/
def Quire.shortest (q : Quire) (sets : List Nat) : Nat := match (sets.map q.tsPeriod).min? with | some p => p | none => 4000

/-- Vector rate in G vectors/s (R701). -/
def rateOf (period : Nat) : ℚ := 4000 / period

/-- Timing-set records of all chunk streams of a CODEC image. Log entry 52: DEDUCED. -/
def Quire.codecRecords (q : Quire) (s : Nat) : Nat := ((List.range (q.sigChunks s)).map fun i => (codecSource (q.image s) i).runs.length).sum

/-- Compression ratio (R61, R196): the equivalent RAW size by the size of the codec image. Log entry 52: DEDUCED. -/
def Quire.ratio (q : Quire) (s : Nat) : ℚ :=
  if q.sigKind s = 1 ∧ q.sigHome s ≠ 2 ∧ (q.sig s).imageBytes ≠ 0 then
    (up64 (4 + 4 * q.codecRecords s) + 32 * (pinsOf (q.sigMask s)).length * q.sigGroups s : Nat) / ((q.sig s).imageBytes : ℚ)
  else 1

/-- Fetch demand in G pin-vectors/s (R60 to R62). -/
def Quire.fetchDemand (q : Quire) (s : Nat) (sets : List Nat) : ℚ :=
  if q.sigHome s = 0 then (pinsOf (q.sigMask s)).length * rateOf (q.shortest sets) / q.ratio s else 0

/-- The raw DRAM region of the configuration: first and last byte plus 1. Log entry 49: DEDUCED. -/
def Quire.rawRegion (q : Quire) : Option (Nat × Nat) :=
  if q.rawInDram && q.rawDramBytes ≠ 0 then some (q.rawDramBase, q.rawDramBase + q.rawDramBytes) else none

def overlaps (a b : Nat × Nat) : Bool := a.1 < b.2 && b.1 < a.2

/-- Byte ranges of the channel that a DRAM-home signature holds: its stored data, and its checksum table where it has one (R202, R462). Log entry 73: DESIGN CHOICE. -/
def Quire.sigRanges (q : Quire) (s : Nat) : List (Nat × Nat) :=
  (if (q.sig s).imageBytes = 0 then [] else [(q.sigLoc s, q.sigLoc s + (q.sig s).imageBytes)]) ++ (if q.hasTable s then [(q.tableAddr s 0, q.tableAddr s (q.sigChunks s))] else [])

/-- Phase 3: offending keys with their statuses; an invalid calibration store comes first. Log entries 50, 51: DEDUCED. -/
def Quire.phase3 (q : Quire) (storeValid : Bool) : List (Nat × Byte) :=
  let no := fun (l : List Nat) => l.map fun k => (k, stNoResource)
  let landing := q.validSigs.filter q.sigLanding
  (if storeValid then [] else [(0, stNoResource)])
  ++ no (q.validSigs.flatMap fun s =>
      offend (q.sigHome s = 0 && (!q.dram.available || ((q.sig s).buf = .loaded && decide ((q.dram.fetchBudget : ℚ) < q.fetchDemand s (q.recordSets s))))) (rk 0x03 (16 * s)))
  ++ no (match landing[32]? with | some s => [rk 0x03 (16 * s)] | none => [])
  ++ no (passes 4194304 0 q.bufferUse)
  ++ (match q.rawRegion with
      | none => []
      | some r => (if !q.dram.available then [(rk 0x0C 8, stNoResource)] else [])
          ++ (if q.validSigs.any fun s => q.sigHome s = 0 && (q.sigRanges s).any (overlaps r) then [(rk 0x0C 8, stCollation)] else []))
  ++ no (passes 2097152 0 [(rk 0x0C 0, 65536 + 32 * q.firstNLen), (rk 0x0C 0xC, q.rawBytes), (rk 0x0C 0x100, q.bmBytes), (rk 0x0D 0, q.raBytes)])

end Sys2Proof.Machine
end

