-- ==== Sys2Proof/Machine/Power.lean ====
section
/-! DEFINITION. The derived work of collation and of a load (R112, R186, R202, R498, R612, R615), power annotations and reservations (R701 to R704), budget and allocation (R705 to R708), floors (R714 to R716), and the governor's hand on `EI_EN` (R727). -/

namespace Sys2Proof.Machine

/-! ### Derived work of one signature -/

/-- What the class 2 items of a signature give. -/
structure Derived where
  table : List Word
  head : Option Chunk
  /-- The chunks of a signature all of whose chunks are precomputed. -/
  chunks : List Chunk
  deriving DecidableEq, Repr

/-- The chunks of a signature that has a checksum table, as its items compute them (R202). -/
def Quire.tableChunks (q : Quire) (s : Nat) : List Chunk :=
  (if q.hasTable s then List.range (q.sigChunks s) else []).filterMap fun i => q.genChunk .precompute s i

/-- The signature receives derived work and an annotation: LOADED, or of home STREAM (R615). -/
def Quire.derives (q : Quire) (s : Nat) : Bool := q.sigValid s && (q.sigHome s = 2 || (q.sig s).buf = .loaded)

/-- Precompute items that the derived work of a signature takes, one per chunk, and all its class 2 items (R112, R202). -/
def Quire.tableItems (q : Quire) (s : Nat) : Nat := if q.hasTable s then q.sigChunks s else 0
def Quire.deriveItems (q : Quire) (s : Nat) : Nat := q.tableItems s + b2n (q.sigLanding s)

/-- What the ended class 2 items of a signature have given. -/
def Derivation.result (d : Derivation) (n s : Nat) : Derived :=
  let chunks := (List.range n).filterMap fun i => d.made.find? fun c => c.sig = s && c.index = i && !c.landing
  { table := chunks.map (·.crc), head := d.made.find? fun c => c.sig = s && c.landing, chunks := chunks }

/-- The compression ratio × 100, for a CODEC signature with a stored image; 0 otherwise (log entry 30). -/
def Quire.ratioX100 (q : Quire) (s : Nat) : Nat := if q.sigKind s = 1 ∧ q.sigHome s ≠ 2 then (q.ratio s * 100).floor.toNat else 0

/-! ### Power annotations (R701, R702) -/

/-- Positions where a list differs from the element before it, the first position counting. -/
def changes : List Nat → Nat
  | [] => 0
  | _ :: [] => 1
  | a :: b :: t => b2n (a ≠ b) + changes (b :: t)

/-- The vectors of the precomputed chunks whose cell on pin `p` differs from the one before. -/
def Derived.toggles (d : Derived) (p : Nat) : Nat := changes (d.chunks.flatMap fun c => (List.range c.vectors).map (c.code p))

/-- The timing sets that a signature names (R702). -/
def Quire.namedSets (q : Quire) (s : Nat) (d : Derived) : List Nat :=
  if q.sigKind s = 2 ∧ q.hasTable s then (d.chunks.flatMap (·.sets)).dedup else q.recordSets s

/-- Drive edges that a set gives a pin: those of DRIVE and of RETURN slots (R256 to R260). Log entry 53: DEDUCED. -/
def Quire.driveEdges (q : Quire) (t p : Nat) : Nat := ((List.range 4).filter fun k => q.tsKind t p k = 1 || q.tsKind t p k = 2).length

/-- α of R702 for pin `p`. -/
def Quire.density (q : Quire) (s : Nat) (d : Derived) (sets : List Nat) (p : Nat) : ℚ :=
  let edges := max 1 ((sets.map fun t => q.driveEdges t p).foldl max 0)
  (if q.hasTable s then (d.toggles p : ℚ) / ((64 * q.sigGroups s : Nat) : ℚ) else 1) * edges

/-- S and D of R701, in V. -/
def Quire.swing (q : Quire) (p : Nat) : ℚ :=
  let l := (List.range 4).map (q.level p)
  ((l.foldl max 0 - l.foldl min 4096 : Nat) : ℚ) / 2000
def Quire.termDrop (q : Quire) (p : Nat) : ℚ :=
  (((List.range 4).map fun v => (q.level p v - q.vtt p) + (q.vtt p - q.level p v)).foldl max 0 : Nat) / (2000 : ℚ)

/-- Pin power in mW at a vector rate in G vectors/s. -/
def Quire.pinPower (q : Quire) (s : Nat) (d : Derived) (sets : List Nat) (rate : ℚ) (p : Nat) : ℚ :=
  if bit (q.sigMask s) p then
    12 + 5 / 2 * rate + 6 * q.density s d sets p * rate * q.swing p ^ 2 + (if q.termEn p then 10 * q.termDrop p ^ 2 else 0)
  else 12

/-- Operations per chunk (R251, R701). -/
def Quire.opsPerChunk (q : Quire) (s : Nat) : Nat :=
  let m := (pinsOf (q.sigMask s)).length
  if q.sigKind s = 2 then (algoDesc (q.image s)).opsBound
  else if q.sigHome s = 2 then (if q.sigKind s = 1 then 80 * m + 4097 else 16 * m + 4097)
  else ((List.range (q.sigChunks s)).map fun i => let src := q.source s 0 i; src.tokens + 16 * m + src.runs.length + 1).foldl max 0

/-- P_sig in mW, rounded up (R701). Log entry 53: DEDUCED. -/
def Quire.annotation (q : Quire) (s : Nat) (d : Derived) : Nat :=
  let sets := q.namedSets s d
  let rate := rateOf (q.shortest sets)
  let pins := ((List.range 32).map (q.pinPower s d sets rate)).sum
  let eng := (q.opsPerChunk s : ℚ) * rate * (107 / 10) / 4096 * (if q.shadowed s then 2 else 1)
  (pins + eng + 16 * q.fetchDemand s sets).ceil.toNat

/-- What the quire keeps of a signature after its derived work. -/
def Quire.withDerived (q : Quire) (s : Nat) (d : Derived) (x : SigState) : SigState :=
  { x with table := if q.sigHome s = 0 then [] else d.table, head := d.head, headReady := d.head.isSome, ratioX100 := q.ratioX100 s, annotation := some (q.annotation s d)
           ops := q.opsPerChunk s, period := q.shortest (q.namedSets s d) }

/-- The background term and R_q (R703). -/
def Quire.bgShare (q : Quire) : Nat := fld (q.cfg 0x10 0) 8 4
def Quire.runReserve (q : Quire) : Nat :=
  1500 + (if q.bmEn || q.raEn then (q.bgShare + 1) * 288 else 0) + (q.playedSigs.map fun s => ((q.sig s).annotation).getD 0).foldl max 0

/-! ### Budget and allocation (R705 to R708) -/

def State.capMw (s : State) : Nat := fld (s.reg (rk 5 4)) 0 17
def State.fixedMw (s : State) : Nat := fld (s.reg (rk 5 8)) 0 17
def State.allocatable (s : State) : Nat := s.capMw - s.fixedMw
def State.weight (s : State) (k : LinkId) : Nat := fld (s.reg (rk 5 (0xC + 4 * (k.val / 4)))) (8 * (k.val % 4)) 8
/-- W: the weights of the links with an open or held session. -/
def State.weights (s : State) : Nat := (((List.finRange 8).filter fun k => (s.session k).isOpen).map s.weight).sum
/-- The allocation of the session on a link, in whole mW (R706; log entry 31). -/
def State.allocation (s : State) (k : LinkId) : Nat := if (s.session k).isOpen ∧ s.weights ≠ 0 then s.allocatable * s.weight k / s.weights else 0
/-- Reservations of one session and of all. -/
def State.sessionReserved (s : State) (k : LinkId) : Nat :=
  (((List.finRange 8).filter fun q => (s.quire q).owner = some k && (s.quire q).reserved).map fun q => (s.quire q).reserveMw).sum
def State.reservedMw (s : State) : Nat := (((List.finRange 8).filter fun q => (s.quire q).reserved).map fun q => (s.quire q).reserveMw).sum

/-! ### Floors (R714 to R716) -/

/-- Unfenced engines, and E of R251. -/
def Quire.unfenced (q : Quire) : Nat := ((List.range 128).filter fun i => !q.fences.getLsbD i).length
def Quire.flowEngines (q : Quire) : Nat := q.unfenced - q.unfenced * (q.bgShare + 1) / 16

/-- The interval of ascending points that brackets `x`, by the number of its lower point, and how far into it `x` lies, from 0 to 1; beyond the ends, the end. -/
def bracketOf (points : List Int) (x : Int) : Nat × ℚ :=
  let i := (points.tail.takeWhile fun a => decide (a < x)).length
  match points[i]?, points[i + 1]? with
  | some a, some b => (i, max 0 (((x - a : Int) : ℚ) / ((b - a : Int) : ℚ)))
  | _, _ => (i, 0)

/-- Linear interpolation between the points of a table (R714, R794). -/
def interpolate (points : List Int) (v : Nat → ℚ) (x : Int) : ℚ :=
  let b := bracketOf points x
  v b.1 + (v (b.1 + 1) - v b.1) * b.2

/-- The junction temperatures of the calibration sets, in units of 1/16 °C (R792). -/
def calTemps : List Int := [-640, 0, 800, 1600, 2400]

/-- The VCOREs of the points of the engine-speed table, in mV (R714). -/
def speedVcores : List Int := [700, 800, 900, 1000, 1050]

/-- The guaranteed minimum at the n-th VCORE of the table, in M operations/s (R714). -/
def speedLeast (n : Nat) : Nat := [1400, 1800, 2200, 2600, 2800].getD n 2800

/-- Engine speed in M operations/s: the per-die table, interpolated linearly between its points (R714). Log entry 5: DESIGN CHOICE. -/
def engineSpeed (mv : Nat) (temp : Int) : ℚ :=
  interpolate speedVcores (fun n => interpolate calTemps (fun m => ((speedLeast n + Config.speedMargin n m : Nat) : ℚ)) temp) mv

/-- The table gives 1.25 × the speed that a flow of `ops` per chunk of the given period needs on `n` engines (R715). -/
def fastEnough (mv : Nat) (temp : Int) (n ops period : Nat) : Bool := decide ((5 * ops * 1000000 : ℚ) ≤ engineSpeed mv temp * 1024 * n * period * 4)

/-- The engines that share the chunks of a flow, E − 1 up to 16; a shadowed flow takes its engines twice over (R251, R715). Log entry 180: DEDUCED. -/
def Quire.flowShare (q : Quire) (s : Nat) : Nat := min 16 (q.flowEngines / (if q.shadowed s then 2 else 1) - 1)

/-- The floor of a quire in mV and whether it was clipped (R715). -/
def Quire.floorAt (q : Quire) (temp : Int) : Nat × Bool :=
  let ok := fun mv => q.playedSigs.all fun s => decide (q.flowShare s ≠ 0) && fastEnough mv temp (q.flowShare s) (q.sig s).ops (q.sig s).period
  match ((List.range 71).map fun i => 700 + 5 * i).find? ok with
  | some mv => (mv, false)
  | none => (1050, true)

/-- The temperature of the quire's hotter sensor (R719). -/
def State.quireTemp (s : State) (q : QId) : Int := max (s.gov.temps.getD (2 * q.val) 0) (s.gov.temps.getD (2 * q.val + 1) 0)

/-- Compute the floor of a quire (R715, R716); a quire in another state holds none. -/
def State.setFloor (s : State) (q : QId) : State :=
  if (s.quire q).state.holdsFloor then
    let r := (s.quire q).floorAt (s.quireTemp q)
    let s := s.modQuire q fun x => { x with floorMv := r.1 }
    if r.2 then s.bump (rk 5 0x314) else s
  else s.modQuire q fun x => { x with floorMv := 0 }

/-! ### `EI_EN` under `EI_AUTO` (R727) -/

def eiKey (k : LinkId) : Nat := rk 4 (0x108 + 0x40 * k.val)
def State.eiAuto (s : State) : Bool := bit (s.reg (rk 5 0)) 31
def State.eiEn (s : State) (k : LinkId) : Bool := bit (s.reg (eiKey k)) 31
def State.setEiEn (s : State) (k : LinkId) (v : Bool) : State := s.setReg (eiKey k) (putBit (s.reg (eiKey k)) 31 v)
def State.ptpEn (s : State) (k : LinkId) : Bool := bit (s.reg (rk 2 0x1C)) k.val
def State.recEn (s : State) : Bool := bit (s.reg (rk 1 0)) 0
def State.refLane (s : State) : Nat := fld (s.reg (rk 1 0)) 16 4
/-- The link is defined over the lane (R524). -/
def Link.holds (l : Link) (lane : Nat) : Bool := l.isDefined && decide (l.base ≤ lane) && decide (lane < l.base + l.width)

/-- The governor may idle the link (R727). -/
def State.mayIdle (s : State) (k : LinkId) : Bool :=
  !s.ptpEn k && !(s.link k).holds s.refLane
    && !(List.finRange 8).any fun q => (s.quire q).owner = some k && (s.quire q).committed.isSome && (s.quire q).playsStream

/-- Re-evaluate every link while `EI_AUTO` = 1 (R727). -/
def State.eiEvaluate (s : State) : State := if s.eiAuto then s.each (List.finRange 8) fun s k => s.setEiEn k (s.mayIdle k) else s

end Sys2Proof.Machine
end

