-- ==== Sys2Proof/Machine/Sessions.lean ====
section
/-! DEFINITION. Sessions, ownership and the chip steward (R592 to R603). -/

namespace Sys2Proof.Machine

/-- Stop of a quire as by STOP (R110, R601): at once in ARMED, at the next boundary in RUNNING and PAUSED. A stop already under way stands. -/
def State.requestStop (s : State) (q : QId) (cause : StopCause) : State :=
  match (s.quire q).state with
  | .armed => s.stopQuire q cause
  | .running | .paused =>
    s.modQuire q fun x => if x.stopReq.isSome then x else { x with pausePending := false, stopReq := some { cause := cause, rebind := false, waiter := none } }
  | _ => s

/-- A reply that is owed no longer (R601): no command has the opcode 0 (R620), so that nothing answers it. -/
def ReplyTo.forget (gone : ReplyTo → Bool) (d : ReplyTo) : ReplyTo := if gone d then { d with opcode := 0 } else d

def Occupier.forget (gone : ReplyTo → Bool) : Occupier → Occupier
  | .collate d => .collate (d.forget gone)
  | .arm d => .arm (d.forget gone)
  | .rebind d => .rebind (d.forget gone)
  | .selftest d tests => .selftest (d.forget gone) tests
  | .loadCheck d => .loadCheck (d.forget gone)
  | .settle d elapsedNs since => .settle (d.forget gone) elapsedNs since
  | .ended d => .ended (d.forget gone)

/-- The replies that a quire's work owes (R601). The work itself goes on. -/
def Quire.forget (gone : ReplyTo → Bool) (q : Quire) : Quire :=
  { q with
    occupied := q.occupied.map (Occupier.forget gone)
    stopReq := q.stopReq.map fun r => { r with waiter := r.waiter.map (ReplyTo.forget gone) }
    stopWaiters := q.stopWaiters.map (ReplyTo.forget gone)
    sigs := q.sigs.map fun e => (e.1, { e.2 with checking := e.2.checking.map (ReplyTo.forget gone) })
    rawReads := q.rawReads.map fun r => { r with dest := r.dest.forget gone }
    tmus := q.tmus.map fun t => t.map fun j => { j with waiter := j.waiter.map (ReplyTo.forget gone) }
    pmu := q.pmu.map fun j => { j with waiter := j.waiter.map (ReplyTo.forget gone) } }

/-- The replies that are still due are discarded (R601): a later command with the same tag takes none of them. -/
def State.forget (s : State) (gone : ReplyTo → Bool) : State :=
  { s with
    quires := s.quires.map (Quire.forget gone)
    maskWaits := s.maskWaits.filter fun w => !gone w.dest
    heldReplies := s.heldReplies.filter fun r => !gone r.dest
    snaps := s.snaps.map fun w => { w with dest := w.dest.forget gone }
    gov := { s.gov with waiting := s.gov.waiting.map fun w => { w with dest := w.dest.forget gone } }
    lanes := s.lanes.map fun l => { l with test := l.test.map fun t => { t with waiter := t.waiter.map (ReplyTo.forget gone) } }
    cal := { s.cal with commitBusy := s.cal.commitBusy.map (ReplyTo.forget gone) }
    spine := { s.spine with
      restartWanted := s.spine.restartWanted.map fun w => (w.1.map (ReplyTo.forget gone), w.2)
      patchWaiter := s.spine.patchWaiter.map (ReplyTo.forget gone) } }

/-- Release a quire (R601): it is stopped, becomes unowned, and the replies still due for it are discarded. Log entries 28, 29: DESIGN CHOICE. -/
def State.releaseQuire (s : State) (k : LinkId) (cause : StopCause) (q : QId) : State :=
  if (s.quire q).owner ≠ some k then s
  else
    let s := s.modSession k fun x => { x with inProgress := x.inProgress.filter fun e => e.2.1 = 0x03 || !e.2.2.getLsbD q.val }
    let s := s.forget fun d => d.link = k && d.opcode ≠ 0x03 && d.qmask.getLsbD q.val
    (s.requestStop q cause).modQuire q fun x => { x with owner := none }

/-- End the session of a link (R600, R602): its quires and steward right are released and its freeze of the log is cleared (R784). -/
def State.endSession (s : State) (k : LinkId) (cause : StopCause) : State :=
  let s := s.each (List.finRange 8) fun s q => s.releaseQuire k cause q
  let s := s.forget fun d => d.link = k
  s.modSession k fun x => { Session.reset with generation := x.generation }

/-- A link with an open session goes DOWN (R602): the session is held, or ends at once when `SESSION_HOLD_MS` is 0. -/
def State.sessionLinkDown (s : State) (k : LinkId) : State :=
  if !(s.session k).isOpen then s
  else if fld (s.reg (rk 8 4)) 0 16 = 0 then s.endSession k .chip
  else s.modSession k fun x => { x with holding := true }

/-- A link comes UP: a held session continues (R602). -/
def State.sessionLinkUp (s : State) (k : LinkId) : State := s.modSession k fun x => { x with holding := false }

/-- The link of the chip steward's session. -/
def State.stewardLink (s : State) : Option LinkId := (List.finRange 8).find? fun k => s.isSteward k

/-- `CHIP_ID`, `STEPPING` and `GEOMETRY` (R1). -/
abbrev chipId : Word := 0x4C497248
abbrev stepping : Word := 0x00000200
abbrev geometry : Word := 0x00088020

def linkByte (k : Option LinkId) : List Byte := le 1 ((k.map (·.val)).getD 0xFF)

/-- The result of HELLO (R620). -/
def helloResult (s : State) (k : LinkId) : List Byte :=
  leW chipId ++ leW stepping ++ le 1 1 ++ le 1 k.val ++ le 1 (s.link k).width ++ linkByte s.stewardLink
    ++ le 2 (if (s.session k).isOpen then (s.session k).handle.toNat else 0) ++ le 2 0
    ++ ((List.finRange 8).flatMap fun q => linkByte (s.quire q).owner) ++ le 1 (b2n s.modeOz) ++ le 3 0

def doHello (h : Hdr) (p : Params) (s : State) : State :=
  packet opHello h p s (fun _ => none) fun s d => s.reply d stOk 0 (helloResult s h.link)

/-- HELLO (R592). -/
def execHello (h : Hdr) (p : Params) (s : State) : Out := .next (front .hello opHello.opcode h p s doHello)

/-- The quires of `QMASK` that no other session owns (R596). -/
def State.grantable (s : State) (h : Hdr) : List QId := (quiresOf h.qmask).filter fun q => (s.quire q).owner.isNone || (s.quire q).owner = some h.link

/-- The steward right can be granted (R597). -/
def State.stewardFree (s : State) (k : LinkId) : Bool := s.stewardLink.isNone || s.stewardLink = some k

/-- The next generation of a link's handles (R593). -/
def nextGeneration (g : BitVec 13) : BitVec 13 := if g = 8191 then 1 else g + 1

/-- Log entry 32: DEDUCED. -/
def doOpenSession (h : Hdr) (p : Params) (s : State) : State :=
  let steward := par p 0 1 % 2 = 1
  let exact := par p 0 1 / 2 % 2 = 1
  packet opOpenSession h p s (fun s =>
      if h.session = 0 ∧ (s.session h.link).isOpen then some (stState, detChip)
      else if exact ∧ ((s.grantable h).length < (quiresOf h.qmask).length ∨ (steward ∧ !s.stewardFree h.link)) then some (stNoResource, 0)
      else none)
    fun s d =>
      let got := s.grantable h
      let s := if (s.session h.link).isOpen then s
        else s.modSession h.link fun x =>
          let g := nextGeneration x.generation
          { x with isOpen := true, generation := g, handle := BitVec.ofNat 16 (g.toNat * 8 + h.link.val) }
      let s := s.each got fun s q => s.modQuire q fun x => { x with owner := some h.link }
      let s := if steward ∧ s.stewardFree h.link then s.modSession h.link fun x => { x with steward := true } else s
      let x := s.session h.link
      s.reply { d with session := x.handle } stOk 0 (le 1 (got.foldl (fun a q => a + 2 ^ q.val) 0) ++ le 1 (b2n x.steward) ++ le 2 x.handle.toNat)

/-- OPEN_SESSION (R594 to R597). -/
def execOpenSession (h : Hdr) (p : Params) (s : State) : Out := .next (front .openSession opOpenSession.opcode h p s doOpenSession)

/-- Log entry 32: DEDUCED. -/
def doCloseSession (h : Hdr) (p : Params) (s : State) : State :=
  packet opCloseSession h p s (fun _ => none) fun s d =>
    if par p 0 1 / 2 % 2 = 1 then (s.reply d stOk).endSession h.link .host
    else
      let s := s.each (quiresOf h.qmask) fun s q => s.releaseQuire h.link .host q
      let s := if par p 0 1 % 2 = 1 then s.modSession h.link fun x => { x with steward := false } else s
      s.reply d stOk

/-- CLOSE_SESSION (R600, R601). -/
def execCloseSession (h : Hdr) (p : Params) (s : State) : Out := .next (front .closeSession opCloseSession.opcode h p s doCloseSession)

/-- SESSION_HOLD_EXPIRY (R602): the held session ends, and each quire that the ending stops takes `STOP_CAUSE` = CHIP. Log entry 19: DESIGN CHOICE. -/
def execSessionHoldExpiry (link : LinkId) (s : State) : Out :=
  .next (if (s.session link).isOpen && (s.session link).holding then s.endSession link .chip else s)

end Sys2Proof.Machine
end

