-- ==== Sys2Proof/Machine/Collate.lean ====
section
/-! DEFINITION. COLLATE up to its derived work (R612, R614, R616), loading, freeing and querying signatures (R83 to R92, R628, R629), and the streaming window (R139, R630 to R632, R857, R858). -/

namespace Sys2Proof.Machine

/-! ### Moves along the binding table (R94, R97, R98) -/

/-- A position of the sequencer: the next entry and the open frames. -/
structure Walk where
  pc : Nat
  loops : List LoopFrame
  calls : List Nat
  deriving DecidableEq, Repr

/-- The loop frames that a jump to `t` leaves open (R98): those whose bodies it does not leave. -/
def Quire.closeLoops (q : Quire) (depth t : Nat) (l : List LoopFrame) : List LoopFrame := l.filter fun f => f.depth ≠ depth || q.inBody f.entry t

def Quire.walkNext (w : Walk) : Walk := { w with pc := w.pc + 1 }
def Quire.walkLoopBegin (q : Quire) (w : Walk) : Walk :=
  { w with pc := w.pc + 1, loops := { entry := w.pc, left := (q.bindArg w.pc).toNat, depth := w.calls.length } :: w.loops }
def Quire.walkLoopEnd (q : Quire) (w : Walk) : Walk :=
  match w.loops with
  | f :: rest => if f.left ≤ 1 then { w with pc := w.pc + 1, loops := rest } else { w with pc := q.bindTarget w.pc + 1, loops := { f with left := f.left - 1 } :: rest }
  | [] => { w with pc := w.pc + 1 }
def Quire.walkCall (q : Quire) (w : Walk) : Walk := { w with pc := q.bindTarget w.pc, calls := (w.pc + 1) :: w.calls }
def Quire.walkReturn (w : Walk) : Walk := match w.calls with | r :: rest => { w with pc := r, calls := rest } | [] => w
def Quire.walkJump (q : Quire) (t : Nat) (w : Walk) : Walk := { w with pc := t, loops := q.closeLoops w.calls.length t w.loops }

def Sequencer.walk (x : Sequencer) : Walk := { pc := x.pc, loops := x.loops, calls := x.calls }
def Sequencer.moved (x : Sequencer) (w : Walk) : Sequencer := { x with pc := w.pc, loops := w.loops, calls := w.calls }

/-! ### The streaming window (R139, R631, R857) -/

/-- The codec head packet's chunk number (R630). -/
abbrev codecHead : Nat := 0xFFFFFFFF

/-- Packets of one instance of a STREAM signature, and its packet `n`. -/
def Quire.streamPackets (q : Quire) (s : Nat) : Nat := q.sigChunks s + (if q.sigKind s = 1 then 1 else 0)
def Quire.streamPacket (q : Quire) (s n : Nat) : Nat := if q.sigKind s = 1 then (if n = 0 then codecHead else n - 1) else n

/-- A packet that the window expects: signature, instance, chunk. -/
abbrev Expected := Nat × Word × Nat

/-- Instances of a signature counted ahead of the present ones. -/
def aheadOf (ahead : Sparse Nat) (s : Nat) : Nat := sget (fun _ => 0) s ahead
def addAhead (ahead : Sparse Nat) (s n : Nat) : Sparse Nat := sput (fun _ => 0) s (aheadOf ahead s + n) ahead

/-- Packet `n` on the path from a position on, following the sequential successor past unresolved jumps (R857). -/
def Quire.walkStream (q : Quire) : Nat → Walk → Nat → Sparse Nat → Option Expected
  | 0, _, _, _ => none
  | fuel + 1, w, n, ahead =>
    match q.bindOp w.pc with
    | 1 | 7 =>
      let s := q.bindSig w.pc
      let c := if q.bindOp w.pc = 7 then 1 else (q.bindArg w.pc).toNat
      let k := q.streamPackets s
      if q.sigHome s ≠ 2 then q.walkStream fuel (Quire.walkNext w) n ahead
      else if n < c * k then some (s, (q.sig s).nextInst + BitVec.ofNat 32 (aheadOf ahead s + n / k), q.streamPacket s (n % k))
      else q.walkStream fuel (Quire.walkNext w) (n - c * k) (addAhead ahead s c)
    | 2 => q.walkStream fuel (q.walkLoopBegin w) n ahead
    | 3 => q.walkStream fuel (q.walkLoopEnd w) n ahead
    | 4 => q.walkStream fuel (q.walkCall w) n ahead
    | 5 => q.walkStream fuel (Quire.walkReturn w) n ahead
    | 6 => q.walkStream fuel (q.walkJump (q.bindTarget w.pc) w) n ahead
    | 8 | 9 => q.walkStream fuel (Quire.walkNext w) n ahead
    | _ => none

/-- Packets of a block before its creation cursor, and of all its plays. -/
def Quire.blockCursor (q : Quire) (b : Block) : Nat :=
  b.created * q.streamPackets b.sig + (if b.nextChunk = 0 then 0 else b.nextChunk + (if q.sigKind b.sig = 1 then 1 else 0))
def Quire.blockPackets (q : Quire) (b : Block) : Nat := b.count * q.streamPackets b.sig

/-- Packets still to be created in the blocks of the plan. -/
def Quire.planPackets (q : Quire) (l : List Block) : Nat := (l.map fun b => if q.sigHome b.sig = 2 then q.blockPackets b - q.blockCursor b else 0).sum

/-- Packet `n` of the blocks of the plan, then of the path beyond it. -/
def Quire.planStream (q : Quire) : List Block → Nat → Sparse Nat → Option Expected
  | [], n, ahead =>
    let start : Walk := if q.state = .collated || q.state = .stopped then { pc := q.startEntry, loops := [], calls := [] } else q.seq.walk
    q.walkStream (2 ^ 200) start n ahead
  | b :: t, n, ahead =>
    if q.sigHome b.sig ≠ 2 then q.planStream t n ahead
    else
      let k := q.streamPackets b.sig
      let i := q.blockCursor b + n
      if i < q.blockPackets b then
        let j := i / k
        let inst := match b.firstInst with
          | some f => if j < b.alloc then f + BitVec.ofNat 32 j else (q.sig b.sig).nextInst + BitVec.ofNat 32 (aheadOf ahead b.sig + (j - b.alloc))
          | none => (q.sig b.sig).nextInst + BitVec.ofNat 32 (aheadOf ahead b.sig + j)
        some (b.sig, inst, q.streamPacket b.sig (i % k))
      else q.planStream t (n - (q.blockPackets b - q.blockCursor b)) (addAhead ahead b.sig (b.count - b.alloc))

/-- The STREAM packets of the chunks in the release stage, oldest first. -/
def Quire.slotPackets (q : Quire) : List Expected :=
  q.slots.flatMap fun x =>
    if q.sigHome x.sig = 2 && !x.cancelled then
      (if x.index = 0 ∧ q.sigKind x.sig = 1 then [(x.sig, x.inst, codecHead)] else []) ++ [(x.sig, x.inst, x.index)]
    else []

/-- Packet `n` of the sequence that the window takes, from the next chunk to be released on. -/
def Quire.streamAt (q : Quire) (n : Nat) : Option Expected :=
  if !q.playsStream then none
  else
    match q.slotPackets[n]? with
    | some x => some x
    | none => q.planStream q.seq.plan (n - q.slotPackets.length) []

/-- The packet that the window expects next (R631). -/
def Quire.streamExpected (q : Quire) : Option Expected := q.streamAt q.stream.length

/-- A jump or time-out has left the path: only packets of the release stage and the plan stay in the window (R857). -/
def Quire.reroute (q : Quire) : Quire := { q with stream := q.stream.take (q.slotPackets.length + q.planPackets q.seq.plan) }

/-- The result of a refused STREAM_DATA (R620, R631). Log entry 66: DEDUCED. -/
def Quire.streamResult (q : Quire) : List Byte :=
  match q.streamExpected with
  | some (s, _, i) => le 2 s ++ le 2 0 ++ le 4 i
  | none => le 2 0xFFFF ++ le 2 0 ++ le 4 0

/-- Bytes that the window holds. -/
def Quire.windowBytes (q : Quire) : Nat := ((q.stream ++ q.streamHeads).map fun c => c.data.length).sum

/-- Bytes of the window (R139). Log entry 68: DEDUCED. -/
def Quire.windowSize (q : Quire) : Nat := (q.cfg 0x01 8).toNat * 1024

/-- The states in which STREAM_DATA is accepted. -/
def streamStates : QState → Bool
  | .collated | .armed | .running | .paused | .stopped => true
  | _ => false

/-- The refusals of STREAM_DATA (R631, R858). -/
def streamCheck (q : Quire) (p : Params) : Option Refuse :=
  let s := par p 0 2
  let data := p.length - 16
  if 1023 < s then rangeAt 0
  else if !streamStates q.state then some (stState, detState reasonState q.state)
  else if !q.sigValid s then some (stState, detState reasonSignature q.state)
  else if q.sigHome s ≠ 2 then some (stState, detState reasonHome q.state)
  else
    match q.streamExpected with
    | some (t, _, i) =>
      if t ≠ s ∨ i ≠ par p 4 4 then some (stState, detState reasonOrder q.state)
      else if q.windowSize < data then some (stNoResource, 0)
      else none
    | none => some (stState, detState reasonOrder q.state)

/-- Take the packet into the window. Log entry 67: DEDUCED. -/
def Quire.takeStream (q : Quire) (p : Params) : Quire :=
  match q.streamExpected with
  | some (s, inst, i) => { q with stream := q.stream ++ [{ sig := s, inst := inst, index := i, crc := parW p 8, data := p.drop 16 }] }
  | none => q

/-- End a command that sends no reply (R632). -/
def State.silent (s : State) (d : ReplyTo) : State :=
  s.modSession d.link fun x => x.complete { dest := d, status := stOk, detail := 0, result := [] } none

/-- The interpreter would carry the packet out now. -/
def accepts (o : OpSpec) (h : Hdr) (p : Params) (s : State) (check : State → Option Refuse) : Bool :=
  wholePacket h o.opcode p && (match tagUse o h s with | .new => true | _ => false) && (refusal o h p s check).isNone

/-- A STREAM_DATA that would be accepted, but whose data the window has no room for (R546). Log entry 68: DEDUCED. -/
def streamFull (o : OpSpec) (h : Hdr) (p : Params) (s : State) : Bool :=
  let q := s.quire (hdrQuire h)
  accepts o h p s (fun s => streamCheck (s.quire (hdrQuire h)) p) && decide (q.windowSize < q.windowBytes + (p.length - 16))

/-- The quire's STREAM packet meets a full window: entering that held state counts once (R222, R223). -/
def Quire.holdStream (q : Quire) : W := if q.heldStream then q.w else ({ q with heldStream := true }).w.bump (rk 0x10 0x12C)

/-- The packet stays in its link buffer. -/
def State.hold (s : State) (i : Instr) : State := { s with heldPackets := s.heldPackets ++ [i] }

/-- A STREAM packet of this link waits in the link buffer for room in a window. Log entry 68: DEDUCED. -/
def State.streamWaits (s : State) (k : LinkId) : Bool := s.heldPackets.any fun i => match i with | .streamData h _ => h.link = k | _ => false

/-- STREAM_DATA in the hands of the interpreter. A full window leaves it, and the packets of its class behind it, in the link buffer (R545, R546);
one that has waited there is not refused for the occupation of its quire since (R588). Log entries 66, 67: DEDUCED. -/
def takeStream (waited : Bool) (h : Hdr) (p : Params) (s : State) : State :=
  let q := hdrQuire h
  let o := { opStreamData with whileOccupied := waited }
  if s.linkUp h.link && s.streamWaits h.link then s.hold (.streamData h p)
  else if s.linkUp h.link && streamFull o h p s then (s.onQuire q Quire.holdStream).hold (.streamData h p)
  else
    packet o h p s (fun s => streamCheck (s.quire q) p)
      (fun s d =>
        let s := s.modQuire q fun x => { x.takeStream p with heldStream := false }
        if h.flags &&& 1 = 1 then s.reply d stOk else s.silent d)
      fun s st => if st = stMalformed ∨ st = stOwner then [] else (s.quire q).streamResult

/-- Log entry 66: DEDUCED. -/
def doStreamData (h : Hdr) (p : Params) (s : State) : State := takeStream false h p s

/-! ### COLLATE (R612 to R616) -/

/-- The directory words of a signature are those of the present committed copy. -/
def Quire.sameEntry (q c : Quire) (s : Nat) : Bool :=
  q.sigCtrl s = c.sigCtrl s && q.cfg 0x03 (16 * s + 4) = c.cfg 0x03 (16 * s + 4) && q.sigMask s = c.sigMask s && q.sigLoc s = c.sigLoc s

/-- The directory entry and the stored data of a signature are those of the last commit (R615). -/
def Quire.reuses (old fresh : Quire) (s : Nat) : Bool := old.committed.isSome && !(old.sig s).changed && fresh.sameEntry old s

/-- The class 2 items of the given signatures are due; contexts that new data replaces are dropped before one of them is placed (R249). -/
def Quire.startDerived (q : Quire) (staged : Bool) (sigs : List Nat) : Quire :=
  { q.invalidate sigs.contains with
    derivation := some { sigs := sigs, todo := sigs, next := 0, staged := staged, unasked := [], unwritten := [], made := [], failed := none } }

/-- Whole lines of a byte range are written anew: they lose their poison code (R499). -/
def Dram.rewritten (d : Dram) (a n : Nat) : Dram := { d with poison := d.poison.filter fun l => !(a ≤ 64 * l && 64 * l < a + n) }

/-- The checksum tables of the given signatures are written anew in the channel (R203, R462, R499); `v` is the configuration that lays them down, `table` the entries made for it. -/
def Quire.tablesWritten (q v : Quire) (sigs : List Nat) (table : Nat → List Word) : Quire :=
  { q with dram := (sigs.filter fun s => v.sigHome s = 0 && v.hasTable s).foldl (fun d s =>
      let d := d.rewritten (v.tableAddr s 0) (4 * v.sigChunks s)
      { d with mem := bwrite (v.tableAddr s 0) ((table s).flatMap leW) d.mem }) q.dram }

/-- A completed load has replaced the data of a signature: contexts with the old data are dropped (R249), and its lines are rewritten (R499). -/
def Quire.replaced (q : Quire) (s home loc bytes : Nat) : Quire :=
  let q := q.invalidate (· = s)
  if home = 0 then { q with dram := q.dram.rewritten loc bytes } else q

/-- A configuration address of quire `q` (R12). -/
def cfgAddr (q : QId) (key : Nat) : Nat := 2 ^ 28 * (q.val + 1) + key

/-- The lowest of the offending keys with its status. Log entry 47: DEDUCED. -/
def lowest : List (Nat × Byte) → Option (Nat × Byte)
  | [] => none
  | x :: t => match lowest t with | some y => if y.1 < x.1 then some y else some x | none => some x

/-- The first failing one of phases 1 to 3: phase, key and status. Log entry 50: DEDUCED. -/
def Quire.collationCheck (q : Quire) (oz storeValid : Bool) : Option (Nat × Nat × Byte) :=
  let q := { q with committed := some q.staging }
  let tag := fun (l : List Nat) => l.map fun k => (k, stCollation)
  match lowest (tag q.phase1) with
  | some (k, st) => some (1, k, st)
  | none =>
    match lowest (tag (q.phase2 oz)) with
    | some (k, st) => some (2, k, st)
    | none => (lowest (q.phase3 storeValid)).map fun x => (3, x.1, x.2)

/-- `DETAIL` of a failed collation (R581). -/
def phaseDetail (phase : Nat) : BitVec 16 := BitVec.ofNat 16 (phase * 4096)

/-- `FIRST_ADDR`: 0 for phase 5 and for an invalid calibration store. Log entry 47: DEDUCED. -/
def firstAddr (q : QId) (key : Nat) : Word := if key = 0 then 0 else BitVec.ofNat 32 (cfgAddr q key)

/-- Log entry 56: DESIGN CHOICE. -/
def doCollate (h : Hdr) (p : Params) (s : State) : State :=
  let q := hdrQuire h
  packet opCollate h p s (fun s => inStates s q (· = .staged)) fun s d =>
    match (s.quire q).collationCheck s.modeOz s.cal.storeValid with
    | some (phase, key, st) => let r := s.takeFree; r.2.reply d st (phaseDetail phase) (leW (firstAddr q key) ++ leW r.1)
    | none => s.modQuire q fun x =>
        let v := { x with committed := some x.staging }
        { x.startDerived true ((v.validSigs.filter v.derives).filter fun i => !x.reuses v i && decide (v.deriveItems i ≠ 0)) with occupied := some (.collate d) }

/-- COLLATE: phases 1 to 3; from then on the command occupies the quire (R589, R612). -/
def execCollate (h : Hdr) (p : Params) (s : State) : Out := .next (front .collate opCollate.opcode h p s doCollate)

/-! ### Loading signatures (R83 to R88, R628, R629) -/

/-- Merge a received piece into the pieces of a load: ascending, disjoint and not touching. -/
def mergePiece (x : Nat × Nat) : List (Nat × Nat) → List (Nat × Nat)
  | [] => [x]
  | y :: t => if x.2 < y.1 then x :: y :: t else if y.2 < x.1 then y :: mergePiece x t else mergePiece (min x.1 y.1, max x.2 y.2) t

/-- Bytes received in the load in progress. -/
def Load.received (l : Load) : Nat := (l.got.map fun x => x.2 - x.1).sum

/-- Space that a home offers (R26, R460). -/
def Quire.homeBytes (q : Quire) (home : Nat) : Nat := if home = 0 then q.dram.bytes else 4194304

/-- The refusals of LOAD_SIGNATURE (R83, R84, R91, R628). Log entry 69: DEDUCED. -/
def loadCheck (q : Quire) (p : Params) : Option Refuse :=
  let s := par p 0 2
  let first := par p 2 1 % 2 = 1
  let isLast := par p 2 1 / 2 % 2 = 1
  let bytes := par p 8 8
  let off := par p 16 8
  let n := p.length - 24
  let v := q.shown
  let home := v.sigHome s
  let valid := v.sigValid s
  let stored := valid && (home = 0 || home = 1)
  let no := fun (r : Nat) => some (stState, detState r q.state)
  if 1023 < s then rangeAt 0
  else if (match (q.sig s).load with | some l => !first && l.imageBytes ≠ bytes | none => false)
      || (decide (off + n ≤ bytes) && stored && !(home = 0 && !q.dram.available) && decide (q.homeBytes home < v.sigLoc s + off + n)) then rangeAt 8
  else if off % 64 ≠ 0 ∨ bytes < off + n then rangeAt 16
  else if !isLast ∧ n % 64 ≠ 0 then rangeAt 24
  else if !valid then no reasonSignature
  else if q.state = .off then no reasonState
  else if home = 2 then no reasonHome
  else if q.state = .faulted then no reasonState
  else if !first ∧ (q.sig s).load.isNone then no reasonOrder
  else if !q.state.writable ∧ (q.refs s ≠ 0 ∨ (q.sig s).buf = .freeDeferred) then no reasonState
  else if home = 0 ∧ !q.dram.available then some (stNoResource, 0)
  else none

/-- An accepted segment: its data is stored, and the load it belongs to goes on; the second part tells that the load is complete. -/
def Quire.loadSegment (q : Quire) (p : Params) : Quire × Bool :=
  let s := par p 0 2
  let first := par p 2 1 % 2 = 1
  let isLast := par p 2 1 / 2 % 2 = 1
  let off := par p 16 8
  let data := p.drop 24
  let v := q.shown
  let x := q.sig s
  let l : Load := if first then { imageBytes := par p 8 8, got := [], lastSeen := false } else x.load.getD { imageBytes := par p 8 8, got := [], lastSeen := false }
  let l := { l with got := if data = [] then l.got else mergePiece (off, off + data.length) l.got, lastSeen := l.lastSeen || isLast }
  let q := if v.sigHome s = 0 then { q with dram := q.dram.write .hostLoad (v.sigLoc s + off) data s } else { q with sram := bwrite (v.sigLoc s + off) data q.sram }
  let complete := l.lastSeen && l.received = l.imageBytes
  let y : SigState :=
    if complete then { x with load := none, imageBytes := l.imageBytes, poisoned := false, underrun := false, damaged := false, changed := true, buf := if q.state.writable then .loaded else .loading }
    else { x with load := some l, buf := .loading, changed := true }
  let q := q.setSig s y
  ({ (if complete then q.replaced s (v.sigHome s) (v.sigLoc s) l.imageBytes else q) with state := if q.state = .parked then .staged else q.state }, complete)

/-- The reloaded image of a signature fails a check of collation (R86). Log entry 70: DEDUCED. -/
def Quire.reloadBad (q : Quire) (s : Nat) : Bool :=
  q.badImage s || (q.sigLanding s && q.dataDependent s)
    || (q.sigHome s = 0 && ((match q.rawRegion with | some r => (q.sigRanges s).any (overlaps r) | none => false) || decide (q.dram.checksumBase < q.sigLoc s + (q.sig s).imageBytes) || decide ((q.dram.fetchBudget : ℚ) < q.fetchDemand s (q.recordSets s))))
    || passes 4194304 0 q.bufferUse ≠ []

/-- Data of a DRAM-home load has no way into the host-load queue: the channel changes its set, or the queue is full (R475, R488, R545). -/
def Quire.loadBlocked (q : Quire) (p : Params) : Bool :=
  decide (q.shown.sigHome (par p 0 2) = 0) && decide (24 < p.length) && (q.dram.changing.isSome || q.dram.full .hostLoad)

/-- An acceptable LOAD_SIGNATURE whose data must wait; one that has waited also goes on waiting while its quire is occupied (R488, R588). Log entry 117: DESIGN CHOICE. -/
def loadFull (o : OpSpec) (waited : Bool) (h : Hdr) (p : Params) (s : State) : Bool :=
  let q := s.quire (hdrQuire h)
  accepts o h p s (fun s => loadCheck (s.quire (hdrQuire h)) p) && ((waited && q.occupied.isSome) || q.loadBlocked p)

/-- A LOAD_SIGNATURE packet of this link waits in the link buffer. -/
def State.loadWaits (s : State) (k : LinkId) : Bool := s.heldPackets.any fun i => match i with | .loadSignature h _ => h.link = k | _ => false

/-- LOAD_SIGNATURE in the hands of the interpreter: a full host-load queue, or a change of set, leaves it and the packets of its class behind it in the link buffer (R475, R488, R545, R546).
Log entry 117: DESIGN CHOICE; log entry 71: DEDUCED. -/
def takeLoad (waited : Bool) (h : Hdr) (p : Params) (s : State) : State :=
  let q := hdrQuire h
  let o := { opLoadSignature with whileOccupied := waited }
  if s.linkUp h.link && (s.loadWaits h.link || loadFull o waited h p s) then s.hold (.loadSignature h p)
  else
    packet o h p s (fun s => loadCheck (s.quire q) p) fun s d =>
      let writable := (s.quire q).state.writable
      let r := (s.quire q).loadSegment p
      let s := s.setQuire q r.1
      if r.2 && !writable then
        s.modQuire q fun x =>
          let g := par p 0 2
          let x := x.modSig g fun y => { y with checking := some d }
          { x.startDerived false (if x.reloadBad g || x.deriveItems g = 0 then [] else [g]) with occupied := some (.loadCheck d) }
      else s.reply d stOk

/-- Log entry 71: DEDUCED. -/
def doLoadSignature (h : Hdr) (p : Params) (s : State) : State := takeLoad false h p s

/-- A quire none of whose STREAM packets is held back any more is not held back (R223). -/
def State.settleStreams (s : State) : State :=
  s.each (List.finRange 8) fun s q =>
    if (s.quire q).heldStream && !s.heldPackets.any (fun i => match i with | .streamData h _ => hdrQuire h = q | _ => false) then
      s.modQuire q fun x => { x with heldStream := false }
    else s

/-- Packets that wait for room in a window or in the host-load queue are tried again, the links in turn (R57, R488, R546). Log entries 68, 163: DEDUCED. -/
def State.takeStreams (s : State) : State :=
  if s.heldPackets.isEmpty || !s.interpreting then s
  else
    ({ s with heldPackets := [] }.each (roundRobin s.heldPackets) fun s i => match i with
      | .streamData h p => takeStream true h p s
      | .loadSignature h p => takeLoad true h p s
      | _ => s).settleStreams

/-- STREAM_DATA (R630 to R632, R857, R858). -/
def execStreamData (h : Hdr) (p : Params) (s : State) : Out := .next (front .streamData opStreamData.opcode h p s doStreamData)

/-- LOAD_SIGNATURE (R83 to R85, R628, R629). -/
def execLoadSignature (h : Hdr) (p : Params) (s : State) : Out := .next (front .loadSignature opLoadSignature.opcode h p s doLoadSignature)

/-! ### FREE_SIGNATURE, QUERY_SIGNATURE (R80, R89, R90) -/

/-- The states PARKED to STOPPED. -/
def parkedToStopped : QState → Bool
  | .off | .faulted => false
  | _ => true

/-- Empty the buffer now, or when its references have gone. Log entry 72: DEDUCED. -/
def Quire.freeSig (q : Quire) (s : Nat) : Quire :=
  q.modSig s fun x => if q.refs s = 0 then x.emptied else { x with buf := .freeDeferred, load := none }

/-- Log entry 72: DEDUCED. -/
def doFreeSignature (h : Hdr) (p : Params) (s : State) : State :=
  let q := hdrQuire h
  let g := par p 0 2
  packet opFreeSignature h p s (fun s => if 1023 < g then rangeAt 0 else inStates s q parkedToStopped) fun s d =>
    let deferred := (s.quire q).refs g ≠ 0
    (s.modQuire q fun x => x.freeSig g).reply d (if deferred then stDeferred else stOk)

/-- FREE_SIGNATURE (R89, R90). -/
def execFreeSignature (h : Hdr) (p : Params) (s : State) : Out := .next (front .freeSignature opFreeSignature.opcode h p s doFreeSignature)

/-- The result of QUERY_SIGNATURE (R620). -/
def Quire.queryResult (q : Quire) (g : Nat) : List Byte :=
  let x := q.sig g
  leW (q.sigStatus g) ++ leW (q.shown.sigCtrl g) ++ le 4 (q.shown.sigGroups g) ++ le 4 (x.annotation.getD 0)
    ++ le 4 (if q.shown.sigKind g = 1 then x.ratioX100 else 0) ++ le 8 ((x.load.map Load.received).getD 0)

def doQuerySignature (h : Hdr) (p : Params) (s : State) : State :=
  let q := hdrQuire h
  let g := par p 0 2
  packet opQuerySignature h p s (fun s => if 1023 < g then rangeAt 0 else inStates s q notOff) fun s d =>
    s.reply d stOk 0 ((s.quire q).queryResult g)

/-- QUERY_SIGNATURE (R80, R704). -/
def execQuerySignature (h : Hdr) (p : Params) (s : State) : Out := .next (front .querySignature opQuerySignature.opcode h p s doQuerySignature)

end Sys2Proof.Machine
end

