-- ==== Sys2Proof/Machine/Control.lean ====
section
/-! DEFINITION. Quire control: ARM, START, STOP, PAUSE, RESUME, REBIND and QUIRE_RESET with the events they wait on (R39 to R53, R105, R110, R132 to R135, R617 to R627, R710 to R718), and SNAPSHOT (R634, R690). -/

namespace Sys2Proof.Machine

/-! ### Markers (R303 to R306) -/

def Quire.markerCtrl (q : Quire) (m : Nat) : Word := q.cfg 0x0B (16 * m)
def Quire.markerSource (q : Quire) (m : Nat) : Nat := fld (q.markerCtrl m) 0 4
def Quire.markerWidth (q : Quire) (m : Nat) : Nat := fld (q.cfg 0x0B (16 * m + 8)) 0 16
def Quire.markerOffset (q : Quire) (m : Nat) : Nat := fld (q.cfg 0x0B (16 * m + 4)) 0 15
def Quire.markerInvert (q : Quire) (m : Nat) : Bool := bit (q.markerCtrl m) 4
def Quire.marker (q : Quire) (m : Nat) : Marker := q.markers.getD m .reset

/-- The level that a marker drives (R306). -/
def Quire.markerLevel (q : Quire) (m : Nat) : Bool := (q.marker m).active != q.markerInvert m

/-- The start of vector `n`, from power-on, when it is known: a vector laid out, or a hold vector of a wait or a pause in progress (R267, R273). Vectors that have left the chip's view count as past. -/
def Quire.vectorInstant (q : Quire) (n : Nat) : Option Nat :=
  if q.vecCount ≤ n then
    if q.state = .paused || q.seq.wait.isSome || n = q.vecCount then some (q.position + (n - q.vecCount) * q.holdPeriod) else none
  else match (q.playing.toList ++ q.recent).find? fun p => decide (p.firstVec ≤ n) && decide (n < p.firstVec + p.vectors) with
    | some p => some (q.origin + match p.chunk with | some c => q.vectorStart p c (n - p.firstVec) | none => p.startsAt + (n - p.firstVec) * p.hold)
    | none => some 0

/-- The instant at which a marker's pulse falls, when it is known (R303). A RUN marker falls with the run. -/
def Quire.markerFall (q : Quire) (m : Nat) : Option Nat :=
  if q.markerSource m = 1 then none else (q.vectorInstant (q.marker m).fallsAt).map fun b => max (b + q.markerOffset m) ((q.marker m).riseAt + 2000)

/-- Pulses that fall before `now` are over. -/
def Quire.markerTick (q : Quire) (now : Nat) : Quire :=
  { q with markers := (List.range 2).map fun m =>
      let x := q.marker m
      if x.active then (match q.markerFall m with | some t => if t < now then x.falls t else x | none => x) else x }

/-- A marker event at vector `n`, which starts at instant `b`: a rising edge, or a longer pulse when the marker is active (R303, R304).
An event at the very instant of the falling edge finds the marker active. Log entry 166: DESIGN CHOICE. -/
def W.markerEvent (w : W) (m n b : Nat) : W :=
  let t := b + w.q.markerOffset m
  let w := w.upd fun q => q.markerTick t
  let was := (w.q.marker m).active
  let w := w.upd fun q => { q with markers := lmod q.markers m fun x =>
    { active := true, riseAt := t, fallsAt := n + q.markerWidth m, awaits := x.awaits, edges := if was then x.edges else (true, t) :: x.edges } }
  if was then w else w.bump (rk 0x0B (0x100 + 4 * m))

/-- Markers of a source whose condition `hit` holds, at the vector that is laid out next. -/
def W.markerFire (w : W) (source : Nat) (hit : Nat → Bool) : W :=
  w.each [0, 1] fun w m => if w.q.markerSource m = source && hit m then w.markerEvent m w.q.vecCount w.q.position else w

/-- FAIL events that wait for a vector take the first one of those just laid out that starts late enough; `find` gives its number and its start (R303). -/
def W.markerAwaited (w : W) (find : Nat → Option (Nat × Nat)) : W :=
  w.each [0, 1] fun w m =>
    let l := (w.q.marker m).awaits
    let w := w.upd fun q => { q with markers := lmod q.markers m fun x => { x with awaits := l.filter fun t => (find t).isNone } }
    w.each (l.filterMap find) fun w v => w.markerEvent m v.1 (w.q.origin + v.2)

/-! ### Hold vectors -/

/-- Hold vectors of a wait, a pause or a cycle of entries: `k` of them, a stretch of no instance. -/
def Quire.holdStretch (q : Quire) (k : Nat) : Play :=
  { entry := q.seq.entry, instId := q.nextInstId, index := 0, vectors := k, isLast := false, chunk := none, firstVec := q.vecCount, startsAt := q.elapsed,
    hold := max 1 q.holdPeriod, training := none, nextVec := 0, mismatched := false }

/-- Hold vectors up to the first vector boundary at or after an instant from power-on in units of 0.25 ps (R125, R126, R129, R273); FAIL events of markers that waited for a vector find it among them (R303). -/
def W.holdUntil (w : W) (t : Nat) : W :=
  let p := max 1 w.q.holdPeriod
  let k := (t - w.q.position + p - 1) / p
  let x := w.q.holdStretch k
  (w.upd fun q => { q with elapsed := q.elapsed + k * p, vecCount := q.vecCount + k, recent := if k = 0 then q.recent else x :: q.recent }).markerAwaited fun t => w.q.vectorFrom x t

/-- Hold vectors up to the first vector boundary at or after the present moment (R134). -/
def W.holdUntilNow (w : W) (c : Ctx) : W := w.holdUntil (c.ticks * 4000)

/-- The pins hold in a wait or a pause (R37, R125). -/
def Quire.pinsHold (q : Quire) : Bool := q.state = .paused || (q.state = .running && q.seq.wait.isSome)

/-- The hold vectors of a wait or a pause that have begun are laid out. -/
def W.holdOn (w : W) (c : Ctx) : W := if w.q.pinsHold then w.holdUntilNow c else w

/-! ### ARM (R617) -/

/-- The PMU measures on a pin that is not a PMU pin (R362). -/
def Quire.pmuBlocksArm (q : Quire) : Bool := match q.pmu with | some j => !bit q.pmuPins j.pin | none => false

def armCheck (q : Quire) : Option Refuse :=
  if q.state ≠ .collated ∧ q.state ≠ .stopped then some (stState, detState reasonState q.state) else if q.pmuBlocksArm then some (stBusy, 0) else none

/-- The channel of the quire must be raised to set A before it plays (R489). -/
def Quire.mustRaise (q : Quire) : Bool := q.dram.available && q.dram.rateSet && !q.sramOnly

/-- The block of entry `e` as the sequencer's path reaches it. -/
def Quire.newBlock (q : Quire) (e : Nat) : Block :=
  let plays := decide (q.bindOp e = 1) || decide (q.bindOp e = 7)
  { entry := e, op := q.bindOp e, sig := if plays then q.bindSig e else 0, count := if q.bindOp e = 1 then (q.bindArg e).toNat else b2n plays,
    created := 0, nextChunk := 0, begun := 0, ended := 0, fromHead := false, requested := 0, firstInst := none, alloc := 0,
    loops := q.seq.loops, calls := q.seq.calls }

/-- Put the block of the next entry on the path and go on to the entry after it. -/
def Quire.addBlock (q : Quire) : Quire :=
  { q with seq := { q.seq with plan := q.seq.plan ++ [q.newBlock q.seq.pc], pc := q.seq.pc + 1 } }

/-- Waits lie on the path: what follows them is prepared while they last. Log entry 79: DEDUCED. -/
def passWaits : Nat → Quire → Quire
  | 0, q => q
  | n + 1, q => if q.bindOp q.seq.pc = 8 ∨ q.bindOp q.seq.pc = 9 then passWaits n q.addBlock else q

/-- A wait on the path. Log entry 79: DEDUCED. -/
def Block.isWait (b : Block) : Bool := b.op = 8 || b.op = 9

/-- ARM: ARMED at once, outputs parked (R37, R334), the sequencer at `START_ENTRY` (R105), which `ENTRY` shows from then on (log entry 159: DESIGN CHOICE). Log entry 58: DEDUCED. -/
def Quire.arm (q : Quire) (d : ReplyTo) : Quire :=
  passWaits 256 { q.park with
    state := .armed, occupied := some (.arm d)
    seq := { Sequencer.reset with pc := q.startEntry, entry := q.startEntry }
    dram := if q.mustRaise && q.dram.changing.isNone then { q.dram with changing := some false } else q.dram }

def doArm (h : Hdr) (p : Params) (s : State) : State :=
  maskCommand opArm h p s armCheck fun s q d => s.modQuire q fun x => x.arm d

/-- ARM (R39, R362, R489, R617). -/
def execArm (h : Hdr) (p : Params) (s : State) : Out := .next (front .arm opArm.opcode h p s doArm)

/-- The chunk data of a signature's instance is absent: not in the window, or the signature not loaded when the instance is reached (R92). -/
def Quire.dataAbsent (q : Quire) (s : Nat) (inst : Word) (i : Nat) : Bool :=
  if q.sigHome s = 2 then !q.stream.any fun c => c.sig = s && c.inst = inst && c.index = i
  else i = 0 && (q.sig s).buf ≠ .loaded && (q.sig s).buf ≠ .freeDeferred

/-- A PLAY or MATCH_JUMP can be reached from an entry without passing an END or a wait. -/
def Quire.playAhead (q : Quire) : Nat → List Nat → List Nat → Bool
  | 0, _, _ => false
  | _ + 1, [], _ => false
  | fuel + 1, e :: todo, seen =>
    if seen.contains e then q.playAhead fuel todo seen
    else match q.bindOp e with
      | 1 | 7 => true
      | 0 | 8 | 9 => q.playAhead fuel todo (e :: seen)
      | 3 => q.playAhead fuel ((e + 1) :: (q.bindTarget e + 1) :: todo) (e :: seen)
      | 4 => q.playAhead fuel (q.bindTarget e :: (e + 1) :: todo) (e :: seen)
      | 5 => q.playAhead fuel (q.seq.calls ++ todo) (e :: seen)
      | 6 => q.playAhead fuel (q.bindTarget e :: todo) (e :: seen)
      | _ => q.playAhead fuel ((e + 1) :: todo) (e :: seen)

/-- The path up to its first wait, and the blocks behind it. Log entry 79: DEDUCED. -/
def Quire.toWait (q : Quire) : List Block := q.seq.plan.takeWhile fun b => !b.isWait
/-- Log entry 79: DEDUCED. -/
def Quire.pastWait (q : Quire) : List Block := q.seq.plan.dropWhile fun b => !b.isWait

/-- Chunks created of a block. -/
def Quire.madeChunks (q : Quire) (b : Block) : Nat := b.created * q.sigChunks b.sig + b.nextChunk

/-- Every chunk up to the first wait of the path is created and released. -/
def Quire.toWaitReleased (q : Quire) : Bool :=
  q.toWait.all (fun b => b.count ≤ b.created) && decide (q.slots.length ≤ (q.pastWait.map q.madeChunks).sum)
    && (q.pastWait ≠ [] || !q.playAhead 1024 [q.seq.pc] [])

/-- The next chunk to be released, or the next to be created, has no data. Log entry 33: DEDUCED. -/
def Quire.nextStarved (q : Quire) : Bool :=
  match q.slots with
  | x :: _ => !x.cancelled && !x.primaryEnded && q.sigHome x.sig = 2 && q.dataAbsent x.sig x.inst x.index
  | [] =>
    match q.seq.plan.find? fun b => b.created < b.count with
    | some b => (match b.firstInst with
        | some f => q.dataAbsent b.sig (f + BitVec.ofNat 32 b.created) b.nextChunk
        | none => q.dataAbsent b.sig (q.sig b.sig).nextInst b.nextChunk)
    | none => false

/-- The event FIFOs hold 8 chunks, or the whole run up to its first wait, or the next chunk's data is absent (R617; log entry 33). -/
def Quire.filled (q : Quire) : Bool :=
  decide (8 ≤ q.fifo.length) || q.toWaitReleased || q.nextStarved

/-- ARM_FILL_DONE (R489, R617). Log entry 1: DESIGN CHOICE; log entry 33: DEDUCED. -/
def armFillDone (q : QId) (s : State) : State :=
  match (s.quire q).occupied with
  | some (.arm d) =>
    if (s.quire q).filled && !((s.quire q).mustRaise || (s.quire q).dram.changing.isSome && !(s.quire q).sramOnly) then
      (s.modQuire q fun x => { x with occupied := some (.ended d) }).quireDone d q stOk
    else s
  | _ => s

def execArmFillDone (q : QId) (s : State) : Out := .next (armFillDone q s)

/-! ### START (R624 to R626, R710 to R718) -/

/-- What a new run clears (R374). Entries of the fail queue and items of capture compression and repair that an earlier run has left stay, and act on the new run's cleared bitmap and repair state. Log entry 62: DEDUCED; log entry 181: DESIGN CHOICE. -/
def Quire.clearRun (q : Quire) : Quire :=
  let keep := bit q.capCtrl 5
  let gone := fun (k : Nat) => [0x200, 0x204, 0x208, 0x20C, 0x210, 0x21C, 0x220, 0x224, 0x228, 0x22C, 0x230].contains (k - rk 0x0C 0) && rk 0x0C 0 ≤ k
  let q := { q with
    live := sdrop gone q.live, firstN := [], nextFirstN := 0, raw := [], rawBuf := [], nextRaw := 0, verdicts := [], nextRec := 0, verdictRead := [],
    insts := [], run := { RunVerdict.reset with active := true } }
  if keep then q else { q.clearAccumulated with live := sdrop (fun k => k = rk 0x0C 0x214 || k = rk 0x0C 0x218) q.clearAccumulated.live }

/-- The transition from ARMED to RUNNING (R38, R54, R105, R255, R267, R335, R374, R687): the run origin is at chip time `originNs`, `originAt` units of 0.25 ps from power-on. Log entry 62: DEDUCED. -/
def W.beginRun (w : W) (originNs originAt : Nat) : W :=
  let w := w.upd fun q =>
    let q := q.clearRun
    { q with
      state := .running, startPending := none, pausePending := false, hostPaused := false, resumePending := false
      originNs := originNs, originAt := originAt, elapsed := 0, vecCount := 0, termOn := q.termSet, fillLow := q.fill, lowestFill := q.fill, highFill := 0
      playing := none, recent := [], skipping := false, edgeBad := [], sweep := none, pastSweeps := [], applied := List.replicate 32 0
      seq := { q.seq with entry := q.startEntry, lastSet := none, ozPlayed := false } }
  (w.bump (rk 0 4)).markerFire 1 fun _ => true

/-- Enter RUNNING at a run origin. -/
def State.startRun (s : State) (q : QId) (originNs originAt : Nat) : State := s.onQuire q fun x => x.w.beginRun originNs originAt

/-- Distance of VCORE from its target, and the floors that the target must cover (R718, R733). Log entry 60: DEDUCED. -/
def State.vcoreGap (s : State) : Nat := (s.vcoreTarget - s.gov.vcoreMeas) + (s.gov.vcoreMeas - s.vcoreTarget)
/-- Log entry 60: DEDUCED. -/
def State.vcoreReaches (s : State) (mask : Byte) : Bool :=
  !s.gov.vcoreUnreachable || (quiresOf mask).all fun q => (s.quire q).floorMv ≤ s.gov.vcoreMeas

/-- VCORE is within 10 mV of a target that covers the floors of the quires. Log entry 60: DEDUCED. -/
def State.vcoreThere (s : State) (mask : Byte) : Bool :=
  s.vcoreReaches mask && (s.gov.vcoreUnreachable || decide (s.vcoreGap ≤ 10))

/-- How long a VOUT_COMMAND takes on the bus, in ns: 45 bit times (R718). Log entry 60: DEDUCED. -/
def State.pmCommandNs (s : State) : Nat := 45000000 / s.pmKhz

/-- The governor can have VCORE there by S − 1 µs, at `VCORE_SLEW` and the PMBus rate in force (R718). Log entry 60: DEDUCED. -/
def State.vcoreInTime (s : State) (mask : Byte) (startNs : Nat) : Bool :=
  s.vcoreReaches mask && (s.gov.vcoreUnreachable || decide (s.vcoreGap ≤ 10)
    || decide ((s.time.ns + s.pmCommandNs) * s.pmSlew 0 + s.vcoreGap * 1000 ≤ (startNs - 1000) * s.pmSlew 0))

/-- Tests 1 to 3 of R710 for the quires of a mask; a reservation that one of them already holds is not counted twice. -/
def State.admits (s : State) (k : LinkId) (mask : Byte) : Bool :=
  let qs := quiresOf mask
  let sum := (qs.map fun q => (s.quire q).reserveMw).sum
  let own := (((List.finRange 8).filter fun q => (s.quire q).owner = some k && (s.quire q).reserved && !qs.contains q).map fun q => (s.quire q).reserveMw).sum
  let all := (((List.finRange 8).filter fun q => (s.quire q).reserved && !qs.contains q).map fun q => (s.quire q).reserveMw).sum
  own + sum ≤ s.allocation k && all + sum ≤ s.allocatable && !s.gov.overCap && !s.gov.thermalHold

/-- The governor refuses a START (R711). -/
def State.refuseBudget (s : State) (d : ReplyTo) (mask : Byte) : State :=
  let bytes := (List.range 8).map fun i => if mask.getLsbD i then stBudget else 0xFF
  (s.bump (rk 5 0x304)).reply d stBudget 0 bytes

/-- The reply of an admitted START. Log entry 78: DEDUCED. -/
def startBytes (mask : Byte) : List Byte := (List.range 8).map fun i => if mask.getLsbD i then stOk else 0xFF

/-- A START with time 0 takes effect: every quire enters RUNNING (R625). -/
def State.startNow (s : State) (d : ReplyTo) (mask : Byte) : State :=
  let s := (s.bump (rk 5 0x300)).each (quiresOf mask) fun s q => s.startRun q s.time.ns (4000 * s.time.ticks)
  s.reply d stOk 0 (startBytes mask)

/-- Power is reserved for the quires of a mask, or released (R712). -/
def reserveAll (s : State) (mask : Byte) (v : Bool) : State := s.each (quiresOf mask) fun s q => s.modQuire q fun x => { x with reserved := v }

/-- The mask of some quires. -/
def quireMask (l : List QId) : Byte := BitVec.ofNat 8 (l.foldl (fun a q => a + 2 ^ q.val) 0)

/-- START after its packet checks (R624 to R626). Log entries 59, 61: DEDUCED. -/
def startCommand (h : Hdr) (atNs : Nat) (s : State) (d : ReplyTo) : State :=
  if !s.admits h.link h.qmask || !s.vcoreReaches h.qmask || (atNs ≠ 0 && !s.vcoreInTime h.qmask atNs) then s.refuseBudget d h.qmask
  else
    let newly := (quiresOf h.qmask).filter fun q => !(s.quire q).reserved
    let s := reserveAll s h.qmask true
    if atNs ≠ 0 then
      ((s.bump (rk 5 0x300)).each (quiresOf h.qmask) fun s q => s.modQuire q fun x => { x with startPending := some atNs }).reply d stOk 0 (startBytes h.qmask)
    else if s.vcoreThere h.qmask && s.timingRuns then s.startNow d h.qmask
    else { s with gov := { s.gov with waiting := s.gov.waiting ++ [{ dest := d, mask := h.qmask, newly := quireMask newly }] } }

/-- Log entry 78: DEDUCED. -/
def doStart (h : Hdr) (p : Params) (s : State) : State :=
  maskPacket opStart h p s true (fun s =>
      let t := parT12 s.modeOz p 0
      if !t12Ok s.modeOz p 0 || (t ≠ 0 && decide (t < s.time.ns + 2000)) then rangeAt 0 else none)
    (stateCheck (· = .armed)) fun s d => startCommand h (parT12 s.modeOz p 0) s d

/-- START (R624 to R626, R710 to R718). -/
def execStart (h : Hdr) (p : Params) (s : State) : Out := .next (front .start opStart.opcode h p s doStart)

/-- START_AT_TIME (R664, R687): chip time has reached the start time, and the run origin is the instant at which it did. Log entry 19: DESIGN CHOICE. -/
def startAtTime (q : QId) (s : State) : State :=
  match (s.quire q).state, (s.quire q).startPending with
  | .armed, some t => if s.timingRuns && decide (t ≤ s.time.ns) then s.startRun q t (s.ctx.instantOf t) else s
  | _, _ => s

def execStartAtTime (q : QId) (s : State) : Out := .next (startAtTime q s)

/-- One waiting START when VCORE has been measured: it starts, fails test 4, or waits on; one that does not start releases the reservations that it made (R712). Log entries 61, 75: DEDUCED. -/
def startWaiter (expired : Bool) (s : State) (w : StartWait) : State :=
  let bad := (quiresOf w.mask).find? fun q => (s.quire q).state ≠ .armed
  match bad with
  | some q =>
    let bytes := (List.range 8).map fun i => if w.mask.getLsbD i then (if (s.quires.toList.map (·.state)).getD i .off = .armed then stOk else stState) else 0xFF
    (reserveAll s w.newly false).reply w.dest stState (detState reasonState (s.quire q).state) bytes
  | none =>
    if s.vcoreThere w.mask && s.timingRuns then s.startNow w.dest w.mask
    else if expired then (reserveAll s w.newly false).refuseBudget w.dest w.mask
    else { s with gov := { s.gov with waiting := s.gov.waiting ++ [w] } }

/-- A READ_VOUT of rail 0 comes through (R730 to R733): `VCORE_MEAS`, and the rail is reachable. -/
def State.vcoreRead (s : State) (mv : Nat) : State :=
  if (s.rail 0).present then
    let s := (s.pmSend 0 pmReadVout true [] 0).modRail 0 fun v => { v with vout := mv % 65536 }
    { s with gov := { s.gov with vcoreMeas := mv % 2048 } }.retarget
  else s

/-- START_VCORE_READY (R718, R733): a reading of VCORE, when one has come through, and whether the 1 ms has run out. Log entry 75: DEDUCED. -/
def startVcoreReady (vcore : Option Nat) (expired : Bool) (s : State) : State :=
  let ws := s.gov.waiting
  if ws = [] then s
  else
    let s := match vcore with | some mv => s.vcoreRead mv | none => s
    { s with gov := { s.gov with waiting := [] } }.each ws (startWaiter expired)

def execStartVcoreReady (vcore : Option Nat) (expired : Bool) (s : State) : Out := .next (startVcoreReady vcore expired s)

/-! ### STOP (R51, R52, R110, R627) -/

def doStop (h : Hdr) (p : Params) (s : State) : State :=
  maskCommand opStop h p s (stateCheck QState.inRun) fun s q d =>
    if (s.quire q).state = .armed then (s.stopQuire q .host).quireDone d q stOk
    else
      s.modQuire q fun x =>
        { x with
          pausePending := false
          stopReq := match x.stopReq with | some r => some r | none => some { cause := .host, rebind := false, waiter := some d }
          stopWaiters := if x.stopReq.isSome then x.stopWaiters ++ [d] else x.stopWaiters }

/-- STOP (R39, R110, R626, R627). -/
def execStop (h : Hdr) (p : Params) (s : State) : Out := .next (front .stop opStop.opcode h p s doStop)

/-- The quire's REBIND, once the quire has left its run, completes (R618). Log entry 65: DEDUCED. -/
def W.finishRebind (w : W) : W :=
  match w.q.occupied with
  | some (.rebind d) => ((w.upd fun q => { q with occupied := some (.ended d) }).enterStaged).done d stOk
  | _ => w

/-! ### PAUSE and RESUME (R50, R132 to R135, R627) -/

/-- The next vector to play is a stall-safe one: a signature start or a chunk boundary of a stall-safe entry (R132). Log entry 63: DEDUCED. -/
def Quire.atStallSafe (q : Quire) : Bool :=
  q.seq.wait.isNone &&
    match q.playing with
    | some p => !p.isLast && q.bindStall p.entry
    | none => match q.seq.plan with | b :: _ => decide (b.begun < b.count) && q.bindStall b.entry | [] => false

/-- Instance sequence of play `j` of a block that has one (R199). -/
def Block.inst (b : Block) (j : Nat) : Word := b.firstInst.getD 0 + BitVec.ofNat 32 j

/-- Where the pins are to go on: the block, the index of the chunk due, and whether an instance begins with it. -/
structure Due where
  block : Block
  index : Nat
  begins : Bool

/-- The chunk that is due: the next one of the instance at the pins, or the first of the next instance. -/
def Quire.dueChunk (q : Quire) : Option Due :=
  match q.seq.plan with
  | [] => none
  | b :: _ =>
    if b.isWait || q.seq.wait.isSome then none
    else
      match q.playing with
      | some p => if p.isLast then none else some { block := b, index := p.index + 1, begins := false }
      | none => if b.begun < b.count then some { block := b, index := 0, begins := true } else none

/-- Instance sequence of the due chunk, when its play has one. -/
def Due.inst (d : Due) : Option Word :=
  let j := if d.begins then d.block.begun else d.block.begun - 1
  if j < d.block.alloc then some (d.block.inst j) else none

/-- The due chunk comes from the landing stage (R114, R121). -/
def Due.fromLanding (d : Due) : Bool := d.begins && d.block.fromHead && d.block.begun = 0

/-- The due chunk, if it has reached the pins' timing fronts (R36, R229). A landing head of a signature that is EMPTY, LOADING or STALE is starved (R92). -/
def Quire.present (q : Quire) (d : Due) : Option Chunk :=
  if d.fromLanding then (if (q.sig d.block.sig).playable then (q.sig d.block.sig).head else none)
  else
    match q.fifo with
    | c :: _ => if c.sig = d.block.sig && some c.inst = d.inst && c.index = d.index then some c else none
    | [] => none

/-- The chunk that is due is starved (R133, R136). -/
def Quire.starved (q : Quire) : Bool := match q.dueChunk with | some d => (q.present d).isNone | none => false

/-- The entry within which the quire would pause. Log entry 63: DEDUCED. -/
def Quire.pauseEntry (q : Quire) : Nat :=
  match q.playing with
  | some p => p.entry
  | none => match q.seq.plan with | b :: _ => b.entry | [] => q.seq.entry

/-- Enter PAUSED with the entry's hold profile (R37, R133). -/
def W.enterPaused (w : W) (c : Ctx) (entry : Nat) (host : Bool) : W :=
  (w.upd fun q => { q.takeProfile (q.holdProfile entry) with state := .paused, pausePending := false, hostPaused := host, trimMv := 0, seq := { q.seq with entry := entry } }).epSettle c

/-- A pause at a stall-safe vector; one whose chunk is starved counts (R133). Log entry 63: DEDUCED. -/
def W.pauseAt (w : W) (c : Ctx) (entry : Nat) (host : Bool) : W := (if w.q.starved then w.bump (rk 0x01 0x210) else w).enterPaused c entry host

/-- Log entry 63: DEDUCED. -/
def doPause (h : Hdr) (p : Params) (s : State) : State :=
  maskCommand opPause h p s (stateCheck (· = .running)) fun s q d =>
    if (s.quire q).playing.isNone && (s.quire q).atStallSafe then
      (s.onQuire q fun x => x.w.pauseAt s.ctx x.pauseEntry true).quireDone d q stOk
    else (s.modQuire q fun x => { x with pausePending := true }).quireDone d q stDeferred

/-- PAUSE (R50, R627). -/
def execPause (h : Hdr) (p : Params) (s : State) : Out := .next (front .pause opPause.opcode h p s doPause)

/-- PAUSE_TAKE_EFFECT (R50): a stall-safe vector is reached; a STOP or REBIND on its way has cancelled the pause (R51). Log entry 63: DEDUCED. -/
def pauseTakeEffect (q : QId) (s : State) : State :=
  if (s.quire q).pausePending && (s.quire q).stopReq.isNone && decide ((s.quire q).state = .running) && (s.quire q).atStallSafe then
    s.onQuire q fun x => x.w.pauseAt s.ctx x.pauseEntry true
  else s

def execPauseTakeEffect (q : QId) (s : State) : Out := .next (pauseTakeEffect q s)

/-- Chunks left to the event FIFOs of the instance in which the quire is paused: the head of a jump's target waits in the landing stage (R114, R121). Log entry 160: DEDUCED. -/
def Quire.restOfInstance (q : Quire) : Nat :=
  match q.playing with
  | some p => if p.isLast then 0 else (match q.insts.find? fun i => i.id = p.instId with | some i => q.sigChunks i.sig - (p.index + 1) | none => 0)
  | none => match q.seq.plan with | b :: _ => q.sigChunks b.sig - b2n (b.fromHead && b.begun = 0) | [] => 0

/-- The chunk that resumes comes from the landing stage and is not there (R92). -/
def Quire.headMissing (q : Quire) : Bool := match q.dueChunk with | some d => d.fromLanding && (q.present d).isNone | none => false

/-- The fill condition of R134: the starved chunk is the first of those that it asks for, whether it comes from the event FIFOs or from the landing stage. Log entry 160: DEDUCED. -/
def Quire.resumeReady (q : Quire) : Bool :=
  !q.headMissing && (decide (fld (q.cfg 0x01 0) 8 4 ≤ q.fifo.length) || decide (q.restOfInstance ≤ q.fifo.length))

/-- Resume at the next vector boundary; the time of the pause slips (R134, R322). The governor looks at the fill from here on (R717). -/
def W.resume (w : W) (c : Ctx) : W :=
  (w.holdUntilNow c).upd fun q => { q with state := .running, hostPaused := false, resumePending := false, termOn := q.termSet, lowestFill := q.fill, highFill := 0 }

def doResume (h : Hdr) (p : Params) (s : State) : State :=
  maskCommand opResume h p s (stateCheck (· = .paused)) fun s q d =>
    if (s.quire q).resumeReady then (s.onQuire q fun x => x.w.resume s.ctx).quireDone d q stOk
    else (s.modQuire q fun x => { x with resumePending := true }).quireDone d q stDeferred

/-- RESUME (R134, R135, R627). -/
def execResume (h : Hdr) (p : Params) (s : State) : Out := .next (front .resume opResume.opcode h p s doResume)

/-- AUTO_RESUME (R134, R135): data has arrived, and no host PAUSE stands. -/
def autoResume (q : QId) (s : State) : State :=
  let x := s.quire q
  if x.state = .paused ∧ x.resumeReady ∧ (!x.hostPaused ∨ x.resumePending) then s.onQuire q fun x => x.w.resume s.ctx else s

def execAutoResume (q : QId) (s : State) : Out := .next (autoResume q s)

/-! ### REBIND (R51, R618) -/

/-- The states in which REBIND is accepted. -/
def rebindStates : QState → Bool
  | .collated | .armed | .running | .paused | .stopped => true
  | _ => false

def doRebind (h : Hdr) (p : Params) (s : State) : State :=
  maskCommand opRebind h p s (stateCheck rebindStates) fun s q d =>
    if (s.quire q).state.inPlay then
      s.modQuire q fun x =>
        { x with
          pausePending := false, occupied := some (.rebind d)
          stopReq := match x.stopReq with | some r => some { r with rebind := true } | none => some { cause := .host, rebind := true, waiter := none } }
    else
      let before := (s.quire q).state
      let s := s.onQuire q fun x => (if before = .armed then x.w.leaveRun else x.w.cancelPattern).enterStaged
      ((s.cancelStarts q stState (detState reasonAborted before)).modQuire q fun x => { x with occupied := some (.ended d) }).quireDone d q stOk

/-- REBIND (R618). -/
def execRebind (h : Hdr) (p : Params) (s : State) : Out := .next (front .rebind opRebind.opcode h p s doRebind).takeStreams

/-! ### QUIRE_RESET (R43, R590, R627) -/

/-- Live registers of a quire that survive QUIRE_RESET (R310, R507, R805). Log entry 74: DEDUCED. -/
def survives (k : Nat) : Bool := rk 0x11 0 ≤ k && k < rk 0x12 0 || rk 0x18 0 ≤ k && k < rk 0x19 0 || rk 0x04 0x11010 ≤ k && k < rk 0x04 0x11020

/-- The quire after QUIRE_RESET: everything at reset but what other chapters let survive (R20, R43, R54, R301, R310, R507, R805); `kept` are live words that say how a measurement ended (R452). Log entry 74: DEDUCED. -/
def Quire.afterReset (q : Quire) (kept : List Nat) : Quire :=
  { Quire.reset with
    state := .parked, owner := q.owner, dram := q.dram, rawReads := q.rawReads, sramShown := q.sramShown, vpinOk := q.vpinOk, vpinHeld := q.vpinHeld, vpinMv := q.vpinMv, vpinOut := q.vpinOut, vpinGood := q.vpinGood, playedAt := q.playedAt, endpaper := q.endpaper, retrim := q.retrim, cal := q.cal, fences := q.fences
    hotZones := q.hotZones, overloaded := q.overloaded, useClock := q.useClock, nextInstId := q.nextInstId
    live := q.live.filter fun e => survives e.1 || kept.contains e.1 }

/-- `TMU_STATUS` of the measurements in progress. -/
def Quire.tmuStatusKeys (q : Quire) : List Nat := (List.finRange 8).filterMap fun u : TmuId => if q.tmus[u].isSome then some (rk 0x0E (0x40 * u.val)) else none

/-- QUIRE_RESET of one quire; VPINq goes to the reset set point by its ramp (R312, R313). Log entry 74: DEDUCED. -/
def State.resetQuire (s : State) (q : QId) : State :=
  let det := detState reasonAborted (s.quire q).state
  let ended := (s.quire q).tmuStatusKeys
  let s := s.onQuire q fun x =>
    ((((x.w.epAbort 0x04).pmuEndEarly stState det).tmusEndEarly s.modeOz 0x4 stState det false).endOccupier stState det).endWaiters stState det
  let s := s.cancelStarts q stState det
  (s.modQuire q fun x => { x.afterReset ended with
    vpinFrom := x.vpinRamp s.time.ticks, vpinSince := s.time.ticks, playedAt := if x.insts.any (fun i => i.hold.isNone) then some s.time.ticks else x.playedAt }).retarget

def doQuireReset (h : Hdr) (p : Params) (s : State) : State :=
  maskCommand opQuireReset h p s (stateCheck notOff) fun s q d => (s.resetQuire q).quireDone d q stOk

/-- QUIRE_RESET (R43, R44, R590). -/
def execQuireReset (h : Hdr) (p : Params) (s : State) : Out := .next (front .quireReset opQuireReset.opcode h p s doQuireReset).takeStreams

/-! ### SNAPSHOT (R634, R690) -/

/-- The sequencer word at 0x224 of page 0x01 (R141): the frames open on the path that the sequencer has resolved (R106), beside the entry at the pins. Log entry 183: DESIGN CHOICE. -/
def Quire.seqWord (q : Quire) : Word := packW [(16, q.seq.calls.length % 16), (8, q.seq.loops.length % 8), (0, q.seq.entry % 256)]

/-- Word 0x1_1000 of page 0x04 (R309). -/
def Quire.fillWord (q : Quire) : Word := packW [(16, q.fillLow % 65536), (0, q.fill % 65536)]

/-- A SNAPSHOT record (R634). Log entry 77: DEDUCED. -/
def snapRecord (oz : Bool) (ns : Nat) (q : Quire) : List Byte :=
  t12 oz ns ++ leW (quireStateWord q) ++ leW q.seqWord ++ leW (q.liveReg (rk 0x01 0x200)) ++ leW (q.liveReg (rk 0x0C 0x200)) ++ leW q.fillWord

/-- Take the records of a mask at one instant. Log entry 77: DEDUCED. -/
def State.snapAll (s : State) (d : ReplyTo) (mask : Byte) : State :=
  s.each (quiresOf mask) fun s q => s.quireDone d q stOk 0 (snapRecord s.modeOz s.time.ns (s.quire q))

/-- Log entries 77, 78: DEDUCED. -/
def doSnapshot (h : Hdr) (p : Params) (s : State) : State :=
  maskPacket opSnapshot h p s false (fun s => if t12Ok s.modeOz p 0 then none else rangeAt 0) (stateCheck notOff) fun s d =>
    let t := parT12 s.modeOz p 0
    let qs := quiresOf h.qmask
    let ok := qs.filter fun q => (quireRefusal opSnapshot h s q false none (stateCheck notOff)).isNone
    let mask := quireMask ok
    let refused := fun (s : State) (q : QId) => match quireRefusal opSnapshot h s q false none (stateCheck notOff) with
      | some r => s.quireDone d q r.1 r.2
      | none => s
    if t = 0 ∨ ok = [] then ((s.openMask d).each qs refused).snapAll d mask
    else { (s.openMask d).each qs refused with snaps := s.snaps ++ [{ dest := d, mask := mask, atNs := t }] }

/-- SNAPSHOT (R634). -/
def execSnapshot (h : Hdr) (p : Params) (s : State) : Out := .next (front .snapshot opSnapshot.opcode h p s doSnapshot)

/-- SNAPSHOT_AT_TIME (R690): a tick at or after the time of waiting snapshots takes their records. Log entry 19: DESIGN CHOICE. -/
def snapshotAtTime (s : State) : State :=
  if s.timingRuns then
    let due := s.snaps.filter fun x => x.atNs ≤ s.time.ns
    { s with snaps := s.snaps.filter fun x => !(x.atNs ≤ s.time.ns) }.each due fun s x => s.snapAll x.dest x.mask
  else s

def execSnapshotAtTime (s : State) : Out := .next (snapshotAtTime s)

end Sys2Proof.Machine
end

