-- ==== Sys2Proof/Machine/Sequence.lean ====
section
/-! DEFINITION. The sequencer: the operations of the binding table (R94 to R98, R106, R109, R864), waits (R125 to R131), match conditions and jumps (R114 to R124), the end of an instance with its training sweep and its verdict (R404, R422 to R424, R746, R748), prefetch and the creation of chunks (R107, R206, R207, R222 to R224). -/

namespace Sys2Proof.Machine

/-! ### Operations resolved ahead of the pins (R106) -/

/-- The sequencer resolves next an entry of operation `op`. -/
def Quire.resolves (q : Quire) (op : Nat) : Bool := q.state.inRun && q.bindOp q.seq.pc = op

/-- Resolve the next entry: go on past it, put the waits that follow on the path, and empty the buffers whose last reference has gone (R90). -/
def Quire.resolve (q : Quire) (op : Nat) (f : Quire → Quire) : Quire := if q.resolves op then (passWaits 256 (f q)).freeDeferred else q

/-- Go along the path. -/
def Quire.goes (f : Walk → Walk) (q : Quire) : Quire := { q with seq := q.seq.moved (f q.seq.walk) }

/-- PLAY (R94, R106). -/
def execPlay (q : QId) (s : State) : Out := .next (s.modQuire q fun x => x.resolve 1 Quire.addBlock)

/-- MATCH_JUMP (R94): resolved ahead as one play of its signature; R114 applies when that play begins. -/
def execMatchJump (q : QId) (s : State) : Out := .next (s.modQuire q fun x => x.resolve 7 Quire.addBlock)

/-- LOOP_BEGIN (R94, R95). -/
def execLoopBegin (q : QId) (s : State) : Out := .next (s.modQuire q fun x => x.resolve 2 (Quire.goes x.walkLoopBegin))

/-- LOOP_END (R94, R97). -/
def execLoopEnd (q : QId) (s : State) : Out := .next (s.modQuire q fun x => x.resolve 3 (Quire.goes x.walkLoopEnd))

/-- CALL (R94, R96). -/
def execCall (q : QId) (s : State) : Out := .next (s.modQuire q fun x => x.resolve 4 (Quire.goes x.walkCall))

/-- RETURN (R94). -/
def execRet (q : QId) (s : State) : Out := .next (s.modQuire q fun x => x.resolve 5 (Quire.goes Quire.walkReturn))

/-- Nothing plays and nothing lies on the path: the pins hold in a cycle of entries (R864). -/
def Quire.idles (q : Quire) : Bool := q.state = .running && q.seq.plan = [] && q.playing.isNone

/-- JUMP; `ENTRY` shows an entry of a cycle without a play or a wait (R864). -/
def Quire.jumpNow (q : Quire) : Quire :=
  let e := q.seq.pc
  let q' := q.goes (q.walkJump (q.bindTarget e))
  if q.idles then { q' with seq := { q'.seq with entry := e } } else q'

/-- JUMP (R94, R98, R864). -/
def execJump (q : QId) (s : State) : Out := .next (s.modQuire q fun x => x.resolve 6 Quire.jumpNow)

/-- END, once every vector before it has played (R94, R111, R275). Log entry 65: DEDUCED. -/
def W.endRun (w : W) (c : Ctx) : W :=
  if w.q.idles && decide (w.q.bindOp w.q.seq.pc = 0) then
    let e := w.q.seq.pc
    let fails := bit (w.q.bindArg e) 0
    ((w.upd fun q => { q with seq := { q.seq with entry := e }, run := { q.run with matchTimeout := q.run.matchTimeout || fails } }).enterStopped c .endOfRun).finishRebind
  else w

/-- END (R51, R52, R94, R111). -/
def execEndRun (q : QId) (s : State) : Out := .next (s.onQuire q fun x => x.w.endRun s.ctx)

/-! ### Requests for stored data -/

/-- Records that end before vector `v`. -/
def runsBefore (v : Nat) : List (Nat × Nat) → Nat
  | [] => 0
  | (_, l) :: t => if l ≤ v then 1 + runsBefore (v - l) t else 0

/-- The byte ranges of the channel that chunk `i` of a DRAM-home signature reads (R206, R469, R497): a CODEC chunk its stream, the first one also
what stands before it; a RAW chunk its timing-set records and its cells. Log entry 92: DEDUCED. -/
def Quire.chunkReads (q : Quire) (s i : Nat) : List (Nat × Nat) :=
  let rd := q.image s
  let data :=
    if q.sigKind s = 1 then
      let start := fun (k : Nat) => 64 * rdN rd (codecTable rd + 4 * k) 4
      [(if i = 0 then 0 else start i, if i + 1 < q.sigChunks s then start (i + 1) else (q.sig s).imageBytes)]
    else
      let m := (pinsOf (q.sigMask s)).length
      let n := q.chunkVectors s i
      let rs := records rd 4 (rdN rd 0 4)
      let first := rawCells rd + 32 * m * (64 * i)
      [(if i = 0 then 0 else 4 + 4 * runsBefore (4096 * i) rs, 8 + 4 * runsBefore (4096 * i + n - 1) rs), (first, first + 32 * m * (n / 64))]
  data.map fun r => (q.sigLoc s + r.1, q.sigLoc s + r.2)

/-- The entry of chunk `i` in the checksum table of a DRAM-home signature (R202, R203, R462). -/
def Quire.tableEntry (q : Quire) (s i : Nat) : Nat × Nat :=
  (q.tableAddr s i, q.tableAddr s i + 4)

/-- The lines of byte ranges. -/
def linesOf (rs : List (Nat × Nat)) : List Nat := rs.flatMap fun r => (List.range ((r.2 + 63) / 64 - r.1 / 64)).map (r.1 / 64 + ·)

/-- Ask the channel for the lines of byte ranges (R107, R469). Log entry 92: DEDUCED. -/
def Quire.fetch (q : Quire) (port : Port) (s seq : Nat) (rs : List (Nat × Nat)) : Quire :=
  { q with dram := (linesOf rs).foldl (fun d l => d.ask port l false s seq) q.dram }

/-- Request the data of chunks for the landing stage, in order, while the pattern-fetch queue has room (R114, R475). -/
def Quire.askLanding (q : Quire) : List (Nat × Nat) → Quire
  | [] => { q with seq := { q.seq with landingAsk := [] } }
  | (s, i) :: t => if q.dram.full .fetch then { q with seq := { q.seq with landingAsk := (s, i) :: t } } else Quire.askLanding (q.fetch .fetch s (noSeq + i) (q.chunkReads s i)) t

/-- Load the landing stage with the head of the signature that entry `t` plays, and request the data of two chunks beyond it (R114); what it held before loses its reference (R81, R90). -/
def Quire.loadLanding (q : Quire) (t : Nat) : Quire :=
  if q.bindOp t = 1 ∨ q.bindOp t = 7 then
    let s := q.bindSig t
    let q := { q with seq := { q.seq with landing := some s, landingBad := q.seq.landingBad.filter fun x => x.1 ≠ s } }.freeDeferred
    if q.sigHome s = 0 then q.askLanding (q.seq.landingAsk ++ ([1, 2].filter fun i => i < q.sigChunks s).map fun i => (s, i)) else q
  else { q with seq := { q.seq with landing := none } }.freeDeferred

/-- Requests made for chunk `i` of the target in the landing stage become those of the chunk, which asks for nothing anew (R114). -/
def Dram.adopt (d : Dram) (s i seq : Nat) : Dram :=
  let take := fun (r : DramReq) => if r.sig = s ∧ r.seq = noSeq + i then { r with seq := seq } else r
  { d with queue := d.queue.map take, issued := d.issued.map take }

/-! ### Instances and jumps -/

/-- Change the first element that satisfies `p`. -/
def lfirst {α : Type} (p : α → Bool) (f : α → α) : List α → List α
  | [] => []
  | x :: t => if p x then f x :: t else x :: lfirst p f t

/-- The next play of a block without an instance sequence takes the signature's next one (R199). -/
def Quire.giveInst (q : Quire) (b : Block) : Block × Quire :=
  ({ b with firstInst := some (b.firstInst.getD (q.sig b.sig).nextInst), alloc := b.alloc + 1 }, q.modSig b.sig fun x => { x with nextInst := x.nextInst + 1 })

/-- Put the target of a jump on the path: a PLAY or MATCH_JUMP begins with the chunk of the landing stage (R121, R130). -/
def Quire.addTarget (q : Quire) : Quire :=
  let e := q.seq.pc
  if q.bindOp e = 1 ∨ q.bindOp e = 7 then
    let r := q.giveInst (q.newBlock e)
    let whole := r.2.sigChunks r.1.sig ≤ 1
    let b := { r.1 with fromHead := true, requested := 1, created := b2n whole, nextChunk := if whole then 0 else 1 }
    passWaits 256 { r.2 with seq := { r.2.seq with plan := r.2.seq.plan ++ [b], pc := e + 1 } }
  else passWaits 256 q

/-- Discard what lies on the path behind the play at the pins: chunks being created are cancelled, released ones leave the event FIFOs (R121, R122, R130, R230). -/
def W.cutPath (w : W) : W :=
  let b? := match w.q.seq.plan with | b :: _ => if b.ended < b.begun then some b else none | [] => none
  let stays := fun (s : Nat) (i : Word) => match b? with | some b => b.sig = s && b.inst (b.begun - 1) = i | none => false
  let keep : List Block := match b? with
    | some b => [{ b with count := b.begun, requested := min b.requested b.begun, created := min b.created b.begun,
                          nextChunk := if b.created < b.begun then b.nextChunk else 0, alloc := min b.alloc b.begun }]
    | none => []
  let gone := (w.q.slots.filter fun x => !stays x.sig x.inst).map (·.seq)
  (w.cancelSeqs fun n => gone.contains n).upd fun q =>
    { q with fifo := q.fifo.filter fun c => stays c.sig c.inst, seq := { q.seq with plan := keep, wait := none } }.noteFill

/-- A jump to `t` is fixed for the next boundary (R98, R121, R122, R130, R857); `loops` and `calls` are the frames open at the jumping entry. -/
def W.takeJump (w : W) (t : Nat) (loops : List LoopFrame) (calls : List Nat) : W :=
  w.cutPath.upd fun q =>
    let q := { q with seq := { q.seq with pc := t, loops := q.closeLoops calls.length t loops, calls := calls, cond := none } }
    q.addTarget.reroute.freeDeferred

/-! ### Match conditions (R114 to R124) -/

/-- The pin makes a compare at the strobe of a vector of set `t` with cell code `code` (R71, R260, R261, R357). Log entry 82: DEDUCED. -/
def Quire.strobes (q : Quire) (t p : Nat) : Bool := q.tsDefined t && q.tsStrobeEn t p && !bit q.pmuPins p
def expects (code : Nat) : Bool := 8 ≤ code && code ≤ 13

/-- Compares that a chunk makes on the pins of a mask. Log entry 80: DEDUCED. -/
def Quire.comparesIn (q : Quire) (c : Chunk) (mask : Word) : Nat :=
  ((pinsOf (mask &&& c.pinmask)).map fun p => ((List.range c.vectors).filter fun v => expects (c.code p v) && q.strobes (c.sets.getD v 64) p).length).sum

/-- The data of chunk `i` of a STREAM instance stands in the window (R630, R631). -/
def Quire.inWindow (q : Quire) (s : Nat) (inst : Word) (i : Nat) : Bool :=
  let here := fun (i : Nat) => (q.stream ++ q.streamHeads).any fun c => c.sig = s && c.inst = inst && c.index = i
  q.sigHome s = 2 && here i && (q.sigKind s ≠ 1 || here codecHead)

/-- Chunk `i` of an instance makes match compares, as far as the event FIFOs, the release stage and the streaming window tell; a chunk whose words are not known yet may. Log entry 82: DEDUCED. -/
def Quire.mayCompare (q : Quire) (s : Nat) (inst : Word) (mask : Word) (i : Nat) : Bool :=
  let made : List Chunk := q.fifo ++ q.slots.filterMap (·.primary)
  let known : Option Bool := match made.find? fun c => c.sig = s && c.inst = inst && c.index = i with
    | some c => some (decide (c.kind = ChunkKind.data) && decide (q.comparesIn c mask ≠ 0))
    | none => if q.inWindow s inst i && !q.dataDependent s then some (match q.genChunk .pattern s i inst with | some c => decide (q.comparesIn c mask ≠ 0) | none => false) else none
  known.getD true

/-- Chunks of the signature after chunk `i` of an instance make match compares. Where the words of a chunk are known only with its data (R139) or with the chunk itself (R152), what has arrived tells. Log entries 80, 82: DEDUCED. -/
def Quire.matchAhead (q : Quire) (s : Nat) (inst : Word) (mask : Word) (i : Nat) : Bool :=
  if q.sigMask s &&& mask = 0 then false
  else if q.sigHome s = 2 ∨ q.dataDependent s then (List.range (q.sigChunks s)).any fun j => i < j && q.mayCompare s inst mask j
  else (List.range (q.sigChunks s)).any fun j => i < j && (match q.genChunk .pattern s j with | some c => decide (q.comparesIn c mask ≠ 0) | none => false)

/-- The result of a match condition once it is resolved (R118 to R120). Log entry 80: DEDUCED. -/
def Quire.matchVerdict (q : Quire) (c : MatchCond) : Option Bool :=
  let i := match q.playing with | some p => p.index | none => 0
  let inst := match q.playing with | some p => ((q.insts.find? fun x => x.id = p.instId).map (·.inst)).getD 0 | none => 0
  if c.failed then some c.condFail
  else if c.outstanding = 0 && (c.lastIssued || !q.matchAhead (q.bindSig c.entry) inst (q.bindMatch c.entry) i) then some (!c.condFail)
  else none

/-- Resolve the match condition if it can be resolved; a late one counts and is logged, at its resolution (R123; log entry 161: DEDUCED). Log entry 81: DESIGN CHOICE. -/
def W.settleMatch (w : W) : W :=
  match w.q.seq.cond with
  | some c =>
    if c.resolved.isSome then w
    else
      match w.q.matchVerdict c with
      | none => w
      | some jump =>
        let w := w.upd fun q =>
          let q := { q with lastMatch := some (jump, c.entry), seq := { q.seq with cond := if jump then some { c with resolved := some true } else none } }
          if jump then q else q.dropLanding
        if c.late then (w.bump (rk 0x01 0x214)).log 0x10 1 (packW [(8, b2n jump), (0, c.entry % 256)]) 0 0 else w
  | none => w

/-- A MATCH_JUMP begins: its condition is open and the landing stage is loaded (R114). Log entry 82: DEDUCED. -/
def Quire.beginMatch (q : Quire) (b : Block) : Quire :=
  let c : MatchCond := {
    entry := b.entry, id := q.nextInstId - 1, condFail := bit (q.bindArg b.entry) 0, target := q.bindTarget b.entry, outstanding := 0, lastIssued := false, failed := false,
    resolved := none, late := false, loops := b.loops, calls := b.calls }
  { q with seq := { q.seq with cond := some c } }.loadLanding c.target

/-- MATCH_RESULT (R116 to R119, R123): a match compare's result reaches the sequencer; that of another instance than the condition's is none of its. Log entry 81: DESIGN CHOICE. -/
def W.matchResult (w : W) (r : MatchCompare) : W :=
  match w.q.seq.cond with
  | some c =>
    if c.outstanding = 0 ∨ c.id ≠ r.inst then w
    else (w.upd fun q => { q with seq := { q.seq with cond := some { c with outstanding := c.outstanding - 1, failed := c.failed || r.failed } } }).settleMatch
  | none => w

def execMatchResult (q : QId) (r : MatchCompare) (s : State) : Out := .next (s.onQuire q fun x => x.w.matchResult r)

/-- DECISION_POINT (R115, R121, R122): a jump that is resolved is fixed for the boundary; a condition that what has been computed since does not resolve becomes late. -/
def W.decisionPoint (w : W) : W :=
  let w := w.settleMatch
  match w.q.seq.cond, w.q.playing with
  | some c, some p =>
    if c.resolved = some true then w.takeJump c.target c.loops c.calls
    else if p.entry = c.entry && !c.late then w.upd fun q => { q with seq := { q.seq with cond := some { c with late := true } } }
    else w
  | _, _ => w

def execDecisionPoint (q : QId) (s : State) : Out := .next (s.onQuire q fun x => x.w.decisionPoint).takeStreams

/-! ### DUT-interface training (R418 to R425) -/

/-- Sweep points by (time index, voltage index) in which a pin failed. -/
def Sweep.passes (x : Sweep) (steps p t u : Nat) : Bool := !bit (x.points.getD (u * steps + t) 0xFFFFFFFF) p

/-- Start and length of the longest run of passing indexes, the earlier one on a tie. -/
def longestRun : List Bool → Nat → Nat × Nat → Nat × Nat → Nat × Nat
  | [], _, cur, best => if best.2 < cur.2 then cur else best
  | true :: t, i, cur, best => longestRun t (i + 1) (if cur.2 = 0 then (i, 1) else (cur.1, cur.2 + 1)) best
  | false :: t, i, cur, best => longestRun t (i + 1) (0, 0) (if best.2 < cur.2 then cur else best)

/-- The voltage index of the row at offset 0 (R421). -/
def Quire.zeroRow (q : Quire) : Nat := ((List.range q.vSteps).find? fun u => q.vStart + (u * q.vStep : Nat) = 0).getD 0

/-- Length of the run of passing rows that contains row `z`. -/
def rowsAround (rows : List Bool) (z : Nat) : Nat :=
  if rows.getD z false then ((rows.take z).reverse.takeWhile id).length + ((rows.drop z).takeWhile id).length else 0

/-- The result words of a trained pin and whether it is NO_EYE, with its centre (R422, R423). -/
def Quire.eyeOf (q : Quire) (x : Sweep) (p : Nat) : Word × Word × Bool × Int :=
  let z := q.zeroRow
  let r := longestRun ((List.range q.tSteps).map fun t => x.passes q.tSteps p t z) 0 (0, 0) (0, 0)
  let centre : Int := q.tStart + q.tStep * r.1 + (q.tStep * ((r.2 : Int) - 1)) / 2
  let at_ : Nat := r.1 + (r.2 - 1) / 2
  let height := if q.vSteps = 1 then 1 else rowsAround ((List.range q.vSteps).map fun u => x.passes q.tSteps p at_ u) z
  let noEye := r.2 = 0 || decide (r.2 * q.tStep < fld (q.cfg 0x0F 0x10) 0 16)
    || (decide (1 < q.vSteps) && decide (height * q.vStep < fld (q.cfg 0x0F 0x10) 16 8))
  (packW [(31, 1), (30, b2n noEye), (16, r.2 % 256), (0, ofInt 16 centre)], packW [(8, height % 256), (0, r.1 % 256)], noEye, if noEye then 0 else centre)

/-- The results of a sweep whose last instance has ended (R422 to R424); `TR_APPLY` acts for the rest of the run. Log entry 85: DEDUCED. -/
def Quire.finishSweep (q : Quire) (x : Sweep) : Quire :=
  (pinsOf q.trPins).foldl (fun q p =>
    let r := q.eyeOf x p
    let q := (q.setLive (rk 0x0F (0x100 + 8 * p)) r.1).setLive (rk 0x0F (0x104 + 8 * p)) r.2.1
    { q with eyeOffsets := lset q.eyeOffsets p r.2.2.2, run := { q.run with noEye := q.run.noEye || r.2.2.1 }
             applied := if bit q.trCtrl 30 && q.state.inPlay then lset q.applied p r.2.2.2 else q.applied }) q

/-- The instance that ends is the last of a sweep. -/
def W.sweepEnds (w : W) (p : Play) : W :=
  match w.q.sweep, p.training with
  | some x, some k =>
    if k + 1 = w.q.tSteps * w.q.vSteps then w.upd fun q => { q with sweep := some { x with ended := true } }.finishSweep x else w
  | _, _ => w

/-! ### The end of an instance -/

/-- A stretch of vectors leaves the pins; results of its compares may still arrive (R370), and markers may still count its vectors (R303). -/
def Quire.retire (q : Quire) (p : Play) : Quire := { q with playing := none, recent := p :: q.recent }

/-- STREAM data of plays that are over leaves the window where the chunk has not been created (R857). -/
def Quire.dropUnmade (q : Quire) (b : Block) : Quire :=
  let made := q.slotPackets
  let mine := fun (c : StreamChunk) => c.sig = b.sig && (List.range b.alloc).any fun j => c.inst = b.inst j
  { q with stream := q.stream.filter fun c => !mine c || made.contains (c.sig, c.inst, c.index) }

/-- The last chunk of the instance at the pins has played: its sweep may end with it (R422), and its hold begins (R404). -/
def W.lastPlayed (w : W) (c : Ctx) (p : Play) : W := ((if c.timeBad then w.causeAll cbTime else w).sweepEnds p).endInst c p.instId

/-- The last chunk of the instance at the pins has played: the instance ends (R404), and a late jump whose successor has no further instance takes effect (R122). Log entry 83: DEDUCED. -/
def W.instanceEnd (w : W) (c : Ctx) : W :=
  match w.q.playing with
  | none => w
  | some p =>
    if !p.isLast || w.q.state ≠ .running then w
    else
      let w := w.lastPlayed c p
      let w := w.upd fun q =>
        match q.seq.plan with
        | b :: t =>
          let b := { b with ended := b.ended + 1 }
          if b.count ≤ b.ended then { (q.retire p).dropUnmade b with seq := { q.seq with plan := t } }
          else { q.retire p with seq := { q.seq with plan := b :: t } }
        | [] => q.retire p
      let more := match w.q.seq.plan with | b :: _ => b.entry = p.entry && decide (0 < b.begun) | [] => false
      let w := match w.q.seq.cond with
        | some m =>
          if m.entry = p.entry || more then w
          else if m.resolved = some true then w.takeJump m.target m.loops m.calls
          else w.upd fun q => { q with seq := { q.seq with cond := none } }.dropLanding
        | none => w
      w.upd Quire.freeDeferred

def execInstanceEnd (q : QId) (s : State) : Out := .next (s.onQuire q fun x => x.w.instanceEnd s.ctx)

/-- VERDICT_HOLD_EXPIRY (R400, R401, R746, R748): the hold of an instance has ended, and no report waits for the collector. Log entry 19: DESIGN CHOICE. -/
def verdictHoldExpiry (q : QId) (id : Nat) (s : State) : State :=
  match (s.quire q).insts.find? fun i => i.id = id && i.hold.isSome with
  | some i =>
    if s.collector.reports = [] then
      let i := if s.timeBad then { i with causes := i.causes ||| BitVec.ofNat 16 (2 ^ cbTime) } else i
      s.onQuire q fun x => x.w.resolveInst i
    else s
  | none => s

def execVerdictHoldExpiry (q : QId) (id : Nat) (s : State) : Out := .next (verdictHoldExpiry q id s)

/-! ### Waits (R125 to R131) -/

/-- The pins have reached a wait of operation `op`. Log entry 79: DEDUCED. -/
def Quire.atWait (q : Quire) (op : Nat) : Option Block :=
  match q.seq.plan with
  | b :: _ => if q.state = .running && q.playing.isNone && q.seq.wait.isNone && b.op = op then some b else none
  | [] => none

/-- A wait ends into the entry after it. -/
def W.endWait (w : W) : W := w.upd fun q => { q with seq := { q.seq with plan := q.seq.plan.drop 1, wait := none } }

/-- WAIT_TIME (R125 to R127): the pins hold, or the time has passed already. Log entry 37: DEDUCED. -/
def W.waitTime (w : W) (c : Ctx) : W :=
  match w.q.atWait 8 with
  | none => w
  | some b =>
    let t := w.q.bindTime c.oz b.entry
    let w := w.upd fun q => { q with seq := { q.seq with entry := b.entry } }
    if t < c.ns then w.endWait.bump (rk 0x01 0x218) else w.upd fun q => { q with seq := { q.seq with wait := some (.time t) } }

def execWaitTime (q : QId) (s : State) : Out := .next (s.onQuire q fun x => x.w.waitTime s.ctx)

/-- WAIT_TIME_EXPIRY (R126): the first hold-vector boundary at or after the programmed chip time. Log entry 37: DEDUCED. -/
def W.waitTimeExpiry (w : W) (c : Ctx) : W :=
  match w.q.seq.wait with
  | some (.time t) => if w.q.state = .running && decide (t ≤ c.ns) then (w.holdUntil (c.instantOf t)).endWait else w
  | _ => w

def execWaitTimeExpiry (q : QId) (s : State) : Out := .next (if s.timingRuns then s.onQuire q fun x => x.w.waitTimeExpiry s.ctx else s)

/-- WAIT_TRIG (R114, R125, R128): the pins hold, and the landing stage takes the head of a time-out's target. -/
def W.waitTrig (w : W) : W :=
  match w.q.atWait 9 with
  | none => w
  | some b =>
    w.upd fun q =>
      let q := { q with seq := { q.seq with entry := b.entry, wait := some (.trig q.position none) } }
      if q.bindTimeout b.entry = 0 then q else q.loadLanding (q.bindTarget b.entry)

def execWaitTrig (q : QId) (s : State) : Out := .next (s.onQuire q fun x => x.w.waitTrig)

/-- WAIT_TRIGGER (R129, R131): the first hold-vector boundary at least 2 ns after the trigger reached the timing front. -/
def W.waitTrigger (w : W) : W :=
  match w.q.seq.wait with
  | some (.trig _ (some t)) => if w.q.state = .running then ((w.holdUntil (t + 8000)).endWait).upd Quire.dropLanding else w
  | _ => w

def execWaitTrigger (q : QId) (s : State) : Out := .next (s.onQuire q fun x => x.w.waitTrigger)

/-- WAIT_TIMEOUT (R98, R130, R131, R857): no trigger has come in `TIMEOUT_NS` from the wait's first hold vector; the target's head plays from the landing stage at the first hold-vector boundary after that. Log entry 37: DEDUCED. -/
def W.waitTimeout (w : W) : W :=
  match w.q.seq.wait, w.q.seq.plan with
  | some (.trig since none), b :: _ =>
    if w.q.state = .running && w.q.bindTimeout b.entry ≠ 0 then
      (w.holdUntil (since + 4000 * w.q.bindTimeout b.entry + 1)).takeJump (w.q.bindTarget b.entry) b.loops b.calls
    else w
  | _, _ => w

def execWaitTimeout (q : QId) (s : State) : Out := .next (s.onQuire q fun x => x.w.waitTimeout).takeStreams

/-! ### Prefetch and chunk creation -/

/-- PREFETCH_REQUEST (R81, R107): the next play on the path whose data has not been requested. -/
def Quire.prefetch (q : Quire) : Quire :=
  if q.state.inRun then
    { q with seq := { q.seq with plan := lfirst (fun b => decide (b.requested < b.count)) (fun b => { b with requested := b.requested + 1 }) q.seq.plan } }
  else q

def execPrefetchRequest (q : QId) (s : State) : Out := .next (s.modQuire q Quire.prefetch)

/-- `D_INPUT` entries 0 to 9 (R152). -/
def Quire.inputNow (q : Quire) : List DWord :=
  (List.range 8).map (fun e => BitVec.ofNat 64 ((List.range 4).foldl (fun a j => a + ofInt 16 (q.eyeOffsets.getD (4 * e + j) 0) * 2 ^ (16 * j)) 0))
    ++ [match q.lastMatch with | some (r, e) => BitVec.ofNat 64 (b2n r + e % 256 * 256) | none => 0,
        BitVec.ofNat 64 ((q.liveReg (rk 0x0C 0x200)).toNat + 2 ^ 32 * (q.liveReg (rk 0x0C 0x204)).toNat)]

/-- An item enters the ready list with its input snapshot (R152, R153, R207); a shadow copy takes the place behind its primary, with the same snapshot (R154, R237, R238).
The `D_INPUT` of a deterministic signature's item reads 0 in every entry. Log entry 173: DESIGN CHOICE; log entry 93: DEDUCED. -/
def Quire.makeReady (q : Quire) (it : Item) : Quire :=
  let it := { it with waits := false, input := if it.kind = .pattern ∧ q.dataDependent it.sig then q.inputNow else [] }
  { q with ready := q.ready ++ it :: (if it.shadowed then [{ it with copy := true }] else []) }

/-- The first play of a jump's target was reached with its data: its head has begun, and nothing of the signature was skipped (R92). -/
def Quire.headReached (q : Quire) (b : Block) : Bool := decide (0 < b.begun) && (q.sig b.sig).buf = .stale && !(q.sig b.sig).underrun

/-- The stored data of a block's signature can be read (R92): it was loaded when the instance was reached (DEDUCED). Log entry 93: DEDUCED. -/
def Quire.dataKnown (q : Quire) (b : Block) : Bool :=
  q.sigHome b.sig = 2 || (q.sig b.sig).playable || (b.nextChunk ≠ 0 && (!(b.fromHead && b.created = 0) || q.headReached b))

/-- The landing stage has asked for the data of chunk `i` of the first play of a jump's target (R114). -/
def Block.fetchedAhead (b : Block) (i : Nat) : Bool := b.fromHead && b.created = 0 && (i = 1 || i = 2)

/-- Ask for the data of a new chunk (R206), which the landing stage may have fetched already (R114), and for its entry of the checksum table (R469). -/
def Quire.askChunk (q : Quire) (b : Block) (i seq : Nat) : Quire :=
  let q := if b.fetchedAhead i then { q with dram := q.dram.adopt b.sig i seq } else q.fetch .fetch b.sig seq (q.chunkReads b.sig i)
  if q.hasTable b.sig then q.fetch .fetch b.sig (tableSeq seq) [q.tableEntry b.sig i] else q

/-- Create the next chunk of block `b`, the first on the path that has one to be created (R206, R207, R224); a chunk whose due start has passed is late already (R137). Log entry 93: DEDUCED. -/
def Quire.createChunk (q : Quire) (b : Block) : Quire :=
  let r := if b.alloc ≤ b.created then q.giveInst b else (b, q)
  let b := r.1
  let q := r.2
  let i := b.nextChunk
  let isLast := decide (q.sigChunks b.sig ≤ i + 1)
  let shadow := q.shadowed b.sig
  let it : Item := {
    kind := .pattern, sig := b.sig, inst := b.inst b.created, index := i, seq := q.nextSeq, vectors := q.chunkVectors b.sig i, last := isLast, cls := 1,
    waits := true, shadowed := shadow, input := [], anyEngine := false, due := none, fails := [], cells := [], region := 0,
    poisoned := false, copy := false, avoid := none }
  let due := b.created + 1 < b.begun || (b.created + 1 = b.begun && (match q.playing with | some p => decide (i ≤ p.index) | none => true))
  let slot : Slot := {
    seq := q.nextSeq, primary := none, copyCrc := none, trapped := none, engine := 0, sig := b.sig, inst := b.inst b.created, index := i, late := due,
    shadowed := shadow, primaryEnded := false, copyEnded := false
    poisoned := b.fetchedAhead i && q.seq.landingBad.contains (b.sig, i) }
  let b' := if isLast then { b with created := b.created + 1, nextChunk := 0 } else { b with nextChunk := i + 1 }
  let q := { q with
    slots := q.slots ++ [slot], nextSeq := q.nextSeq + 1, held := false
    seq := { q.seq with
      plan := lfirst (fun x => decide (x.created < x.count)) (fun _ => b') q.seq.plan
      landingBad := if b.fetchedAhead i then q.seq.landingBad.filter (· ≠ (b.sig, i)) else q.seq.landingBad } }
  if q.sigHome b.sig = 1 then q.makeReady it
  else
    let q := { q with store := q.store ++ [it] }
    if q.sigHome b.sig = 0 then q.askChunk b i it.seq else q

/-- CHUNK_CREATE (R222 to R224): held while the release stage or the matching store is full, each entry into the held state counting once; and while the queue of the pattern-fetch port is full, or requests of the landing stage wait for it (R475). -/
def W.chunkCreate (w : W) : W :=
  let w := w.upd fun q => if q.seq.landingAsk = [] then q else q.askLanding q.seq.landingAsk
  if !w.q.state.inRun || w.q.seq.landingAsk ≠ [] then w
  else
    match w.q.seq.plan.find? fun b => decide (b.created < b.count) with
    | none => w
    | some b =>
      if b.requested ≤ b.created || !w.q.dataKnown b then w
      else if 16 ≤ w.q.slots.length || 512 ≤ w.q.store.length then
        if w.q.held then w else (w.upd fun q => { q with held := true }).bump (rk 0x10 0x12C)
      else if w.q.sigHome b.sig = 0 && w.q.dram.full .fetch then w
      else w.upd fun q => q.createChunk b

def execChunkCreate (q : QId) (s : State) : Out := .next (s.onQuire q fun x => x.w.chunkCreate)

/-! ### STOP takes effect (R52, R110, R618) -/

/-- The entry that the sequencer comes to without a play or a wait, if it is an END. -/
def Quire.walkToEnd (q : Quire) : Nat → Walk → Option Walk
  | 0, _ => none
  | n + 1, w =>
    match q.bindOp w.pc with
    | 0 => some w
    | 2 => q.walkToEnd n (q.walkLoopBegin w)
    | 3 => q.walkToEnd n (q.walkLoopEnd w)
    | 4 => q.walkToEnd n (q.walkCall w)
    | 5 => q.walkToEnd n (Quire.walkReturn w)
    | 6 => q.walkToEnd n (q.walkJump (q.bindTarget w.pc) w)
    | _ => none

/-- The end of the binding run falls in the sequencer step of a STOP: nothing is left on the path, and an END comes next (R52). -/
def Quire.atEnd (q : Quire) : Option Walk := if q.idles then q.walkToEnd 1024 q.seq.walk else none

/-- An instance whose last chunk has played whole at the boundary is not cut short. Log entry 65: DEDUCED. -/
def W.endCompleted (w : W) (c : Ctx) : W :=
  match w.q.playing with
  | some p => if p.isLast then w.lastPlayed c p else w
  | none => w

/-- A STOP at a boundary: the end of the run goes before it, also one that a late jump reaches at that boundary (R52, R110). Hold vectors that have begun play whole. Log entry 64: DEDUCED. -/
def W.stopNow (w : W) (c : Ctx) (cause : StopCause) : W :=
  let v := w.instanceEnd c
  match v.q.atEnd with
  | some t => (v.upd fun q => { q with seq := q.seq.moved t }).endRun c
  | none => (((if w.q.pinsHold || w.q.idles then w.holdUntilNow c else w).endCompleted c).enterStopped c cause).finishRebind

/-- STOP_TAKE_EFFECT (R52, R110, R618). Log entry 64: DEDUCED. -/
def stopTakeEffect (q : QId) (s : State) : State :=
  match (s.quire q).stopReq with
  | some r => if (s.quire q).state.inPlay then s.onQuire q fun x => x.w.stopNow s.ctx r.cause else s
  | none => s

def execStopTakeEffect (q : QId) (s : State) : Out := .next (stopTakeEffect q s).takeStreams

end Sys2Proof.Machine
end

