-- ==== Sys2Proof/Machine/Capture.lean ====
section
/-! DEFINITION. Capture: compares at the strobes and the fail counters (R368 to R373), the first-N log (R375 to R379), the fail queue and the bitmap (R380 to R388), raw records (R390 to R393), and the reads of fail memory (R395 to R398, R405, R633). -/

namespace Sys2Proof.Machine

/-! ### Compares -/

/-- The sampled region passes an expect code (R71). -/
def passesCode (code region : Nat) : Bool :=
  match code with
  | 12 => region = 1 || region = 2
  | 13 => region = 0 || region = 3
  | c => decide (c = 8 + region)

/-- The region of a pin among the sampled ones. -/
def regionOf (regions : DWord) (p : Nat) : Nat := regions.toNat / 2 ^ (2 * p) % 4

/-- The pins that strobe an expect cell in vector `v` of a chunk. -/
def Quire.comparePins (q : Quire) (c : Chunk) (v : Nat) : List Nat :=
  (pinsOf c.pinmask).filter fun p => expects (c.code p v) && q.strobes (c.sets.getD v 64) p

/-- Whole ns of the chip time at which a vector that starts `b` units after the run origin started (R378, R660, R661). Log entry 167: DEDUCED. -/
def Quire.vectorTime (q : Quire) (c : Ctx) (b : Nat) : Nat := c.timeAt (q.origin + b)

/-- A fail counts in its pin and instance (R373, R399, R404). -/
def W.pinFails (w : W) (instId : Nat) (pins : List Nat) : W :=
  let n := pins.length
  let w := pins.foldl (fun w p => w.bump (rk 0x0C (0x300 + 4 * p))) w
  let w := (w.bump64 (rk 0x0C 0x200) n).bump (rk 0x0C 0x208)
  w.upd fun q =>
    let q := { q with insts := q.insts.map fun (i : Inst) =>
      if i.id = instId then { i with fails := (satAdd 32 i.fails n).1, causes := i.causes ||| 1 } else i }
    match q.insts.find? fun (i : Inst) => i.id = instId with
    | some i => { q with verdicts := q.verdicts.map fun (r : VRec) => if r.id = i.id then { r with fails := i.fails, causes := i.causes } else r }
    | none => q

def maskOf (pins : List Nat) : Word := pins.foldl setBit 0

/-- The first-N log (R375 to R379). -/
def W.logFirstN (w : W) (c : Ctx) (p : Play) (ch : Chunk) (v : Nat) (pins : List Nat) : W :=
  let n := w.q.firstNLen
  if n = 0 then w
  else if n ≤ w.q.firstN.length then w.bump (rk 0x0C 0x210)
  else
    (w.upd fun q => { q with
      nextFirstN := q.nextFirstN + 1
      firstN := q.firstN ++ [{ vec := 4096 * p.index + v, entry := p.entry, sig := ch.sig, inst := ch.inst, pins := maskOf pins,
                               timeNs := q.vectorTime c (q.vectorStart p ch v), recSeq := q.nextFirstN }] }).bump (rk 0x0C 0x20C)

/-- The fail queue (R380, R381). -/
def W.queueFail (w : W) (p : Play) (ch : Chunk) (v : Nat) (pins : List Nat) : W :=
  if !w.q.bmEn || !w.q.bmSources.contains ch.sig then w
  else if 4096 ≤ w.q.failQueue.length then
    (w.upd fun q => (List.range q.regionCount).foldl (fun q r => q.setRegion r { q.region r with dropped := true }) q).bump (rk 0x0C 0x214)
  else w.upd fun q => { q with failQueue := q.failQueue ++ [{ sig := ch.sig, inst := ch.inst, vec := 4096 * p.index + v, pins := maskOf pins }] }

/-- The strobe time of a pin in vector `v` of a play, in units from the run origin (R268, R419, R424). Log entry 88: DEDUCED. -/
def Quire.strobeTime (q : Quire) (p : Play) (c : Chunk) (v pin : Nat) : Int :=
  let shift : Int := match p.training with
    | some k => if bit q.trPins pin then q.tStart + (k % q.tSteps) * q.tStep else 0
    | none => 0
  q.vectorStart p c v + q.tsStrobe (c.sets.getD v 64) pin + sfld (q.cfg 0x04 (0x10000 + 4 * pin)) 16 16 + shift + q.applied.getD pin 0

/-- The first vector laid out, or laid out next, that starts at or after an instant from the run origin, and its start. -/
def Quire.vectorAfter (q : Quire) (t : Nat) : Option (Nat × Nat) :=
  match (q.playing.toList ++ q.recent).filterMap fun p => q.vectorFrom p t with
  | v :: l => some (l.foldl (fun a b => if b.2 < a.2 then b else a) v)
  | [] => if t ≤ q.elapsed then some (q.vecCount, q.elapsed) else none

/-- A failing strobe of marker `m`, 24 ns before `t`: its event falls at the first vector that starts at `t` or later, or waits for it (R303). -/
def W.failEvent (w : W) (m t : Nat) : W :=
  match w.q.vectorAfter t with
  | some x => w.markerEvent m x.1 (w.q.origin + x.2)
  | none => w.upd fun q => { q with markers := lmod q.markers m fun x => { x with awaits := x.awaits ++ [t] } }

/-- Marker source FAIL: the failing strobes of a vector on pins of `MK_PINMASK`, in ascending time, make an event each (R303). Log entry 88: DEDUCED. -/
def W.failMarker (w : W) (p : Play) (c : Chunk) (v : Nat) (pins : List Nat) : W :=
  if !w.q.state.inPlay then w
  else
    w.each [0, 1] fun w m =>
      if w.q.markerSource m = 4 then
        let hit := pins.filter fun i => bit (w.q.cfg 0x0B (16 * m + 12)) i
        w.each ((sortBy (fun a b => decide (a < b)) (hit.map fun i => w.q.strobeTime p c v i)).map fun t => (t + 96000).toNat) fun w t => w.failEvent m t
      else w

/-- Raw records that the area of the committed configuration holds (R392, R393). -/
def Quire.rawCapacity (q : Quire) : Nat := (if q.rawInDram then q.rawDramBytes else q.rawKib * 1024) / 16

/-- A vector with a CP cell produces one raw record (R390 to R393). Log entry 87: DEDUCED. -/
def W.rawRecord (w : W) (p : Play) (c : Chunk) (v : Nat) (regions : DWord) : W :=
  let cps := (pinsOf c.pinmask).filter fun i => c.code i v = 14
  if !w.q.rawEn || cps = [] then w
  else if 256 ≤ w.q.rawBuf.length || w.q.rawCapacity ≤ w.q.raw.length then w.bump (rk 0x0C 0x220)
  else
    let word := cps.foldl (fun a i => a + regionOf regions i * 2 ^ (2 * i)) 0
    w.upd fun q => { q with
      rawBuf := q.rawBuf ++ [{ regions := BitVec.ofNat 64 word, vec := 4096 * p.index + v, recSeq := q.nextRaw, sig := c.sig }]
      nextRaw := q.nextRaw + 1 }

/-- A failing training compare of instance `id`, point `k` of its sweep, marks the point; the results of a sweep that has ended, and that no later one has followed, are made anew (R420, R422). Log entry 85: DEDUCED. -/
def W.trainingFails (w : W) (id k : Nat) (pins : List Nat) : W :=
  if pins = [] then w
  else
    let w := w.bump (rk 0x0F 0x14) pins.length
    let f := fun (x : Sweep) => if x.first + k = id then { x with points := lmod x.points k fun m => m ||| maskOf pins } else x
    w.upd fun q =>
      let q := { q with sweep := q.sweep.map f, pastSweeps := q.pastSweeps.map f }
      match (q.sweep.toList.filter (·.ended) ++ q.pastSweeps).head? with
      | some x => if x.first + k = id then q.finishSweep x else q
      | none => q

/-- The compares of one vector of a chunk (R368 to R373, R117, R420). Log entry 81: DESIGN CHOICE; log entry 80: DEDUCED. -/
def W.compareVector (w : W) (c : Ctx) (p : Play) (ch : Chunk) (v : Nat) (regions : DWord) : W :=
  let fails := (w.q.comparePins ch v).filter fun i => !passesCode (ch.code i v) (regionOf regions i)
  let isMatch := fun (i : Nat) => w.q.bindOp p.entry = 7 && bit (w.q.bindMatch p.entry) i
  let isTraining := fun (i : Nat) => p.training.isSome && bit w.q.trPins i
  let misses := fails.filter isMatch
  let training := fails.filter fun i => !isMatch i && isTraining i
  let counted := fails.filter fun i => !isMatch i && !isTraining i && !bit (w.q.cfg 0x0C 4) i
  let w := if misses = [] then w else w.bump (rk 0x01 0x220) misses.length
  let w := w.trainingFails p.instId (p.training.getD 0) training
  let w := if counted = [] then w
    else ((((w.pinFails p.instId counted).logFirstN c p ch v counted).queueFail p ch v counted).failMarker p ch v counted)
  w.rawRecord p ch v regions

/-- The strobe on a pin in the latest hold vector of a wait whose number, counted from the wait's first one at instant `since`, is `v` modulo 4,096 and which has begun: an instant from power-on in units of 0.25 ps (R128, R268). Log entry 162: DEDUCED. -/
def Quire.triggerStrobe (q : Quire) (c : Ctx) (since v pin : Nat) : Nat :=
  let p := max 1 q.holdPeriod
  let i := v + (4000 * c.ticks - since - v * p) / (4096 * p) * 4096
  ((since + i * p : Nat) + ((match q.seq.lastSet with | some t => q.tsStrobe t pin | none => 0 : Nat) : Int) + sfld (q.cfg 0x04 (0x10000 + 4 * pin)) 16 16).toNat

/-- The trigger pin of a WAIT_TRIG is sampled at the strobe of hold vector `v` of the wait (R128, R129); with the trigger no time-out can come, and the landing stage is released (R124).
Log entry 162: DEDUCED. -/
def W.triggerSample (w : W) (c : Ctx) (v : Nat) (regions : DWord) : W :=
  match w.q.seq.wait, w.q.seq.plan with
  | some (.trig since none), b :: _ =>
    let m := w.q.bindMatch b.entry
    if w.q.state = .running && fld m 30 2 = 1 && passesCode (fld m 16 4) (regionOf regions (fld m 24 5)) then
      w.upd fun q => { q with seq := { q.seq with wait := some (.trig since (some (q.triggerStrobe c since v (fld m 24 5)))) } }.dropLanding
    else w
  | _, _ => w

/-- The play whose chunk has a release sequence: the one at the pins, or one that has left them. -/
def Quire.playOf (q : Quire) (seq : Nat) : Option Play := (q.playing.toList ++ q.recent).find? fun p => match p.chunk with | some c => c.seq = seq | none => false

/-- The result of a vector has been taken. -/
def Quire.tookVector (q : Quire) (seq v : Nat) : Quire :=
  let f := fun (p : Play) => match p.chunk with | some c => if c.seq = seq then { p with nextVec := v + 1 } else p | none => p
  { q with playing := q.playing.map f, recent := q.recent.map f }

/-- COMPARE_RESULT (R260, R369 to R371). -/
def W.compareResult (w : W) (c : Ctx) (seq v : Nat) (regions : DWord) : W :=
  match w.q.playOf seq with
  | some p =>
    match p.chunk with
    | some ch => if p.nextVec ≤ v && decide (v < ch.vectors) then ((w.upd fun q => q.tookVector seq v).compareVector c p ch v regions).holdOn c else w
    | none => w
  | none => w.triggerSample c v regions

/-- Log entry 151: DESIGN CHOICE. -/
def execCompareResult (q : QId) (seq : Nat) (vec : Fin 4096) (regions : DWord) (s : State) : Out :=
  .next (s.onQuire q fun x => x.w.compareResult s.ctx seq vec.val regions)

/-! ### Raw records -/

/-- The 16 bytes of a raw record (R390). -/
def rawBytes (r : RawRec) : List Byte :=
  le 8 r.regions.toNat ++ le 4 r.vec ++ leW (packW [(16, r.recSeq.toNat), (6, r.sig % 1024), (0, r.vec / 2 ^ 32 % 64)])

/-- RAW_RECORD_DRAIN (R392, R393): records bound for DRAM wait in the buffer while the capture-write queue is full (R475). -/
def W.rawDrain (w : W) : W :=
  match w.q.rawBuf with
  | [] => w
  | r :: t =>
    if w.q.rawInDram && w.q.dram.full .capture then w
    else if w.q.rawCapacity ≤ w.q.raw.length then (w.upd fun q => { q with rawBuf := t }).bump (rk 0x0C 0x220)
    else
      (w.upd fun q => { q with
        rawBuf := t, raw := q.raw ++ [r]
        dram := if q.rawInDram then q.dram.write .capture (q.rawDramBase + 16 * q.raw.length) (rawBytes r) 0 else q.dram }).bump (rk 0x0C 0x21C)

def execRawRecordDrain (q : QId) (s : State) : Out := .next (s.onQuire q fun x => x.w.rawDrain)

/-! ### The bitmap (R382, R385 to R388) -/

/-- The address word A of step `n` of an ALGO signature (R385). -/
def Quire.stepAddress (q : Quire) (sig n : Nat) : DWord :=
  let e := q.beginItem (q.chunkItem .compress sig 0) (q.loadContext sig 0 .reset)
  (seekCounters e.order (n % (e.span 0 * e.span 1 * e.span 2)) e).addressWord

/-- Row and column word W (R385). -/
def Quire.scrambled (q : Quire) (sig : Nat) (a : DWord) : DWord :=
  let g := q.cfg 0x0C 0x110
  if bit g 31 then (scramble (bread (0x500 + 32 * fld g 24 6) 32 (q.loadContext sig 0 .reset).dstore) a).getD a else a

def field (w : DWord) (lsb n : Nat) : Nat := w.toNat / 2 ^ lsb % 2 ^ n

/-- The cells (region, row, column) of a failing vector, and the fails that are not mapped (R386, R387). -/
def Quire.mapFail (q : Quire) (e : FailEntry) : List (Nat × Nat × Nat) × Nat :=
  let step := fld q.bmFormat 16 13
  let o := e.vec % step
  let beats := fld q.bmFormat 0 7
  let first := fld q.bmFormat 8 8
  let pins := pinsOf e.pins
  if o < first ∨ first + beats ≤ o then ([], pins.length)
  else
    let a := q.stepAddress e.sig (e.vec / step)
    let w := q.scrambled e.sig a
    let g := q.cfg 0x0C 0x110
    let region := field a (fld g 8 6) (fld g 0 3)
    let row := field w (fld (q.cfg 0x0C 0x108) 8 6) (fld (q.cfg 0x0C 0x108) 0 4)
    let f := field w (fld (q.cfg 0x0C 0x10C) 8 6) (fld (q.cfg 0x0C 0x10C) 0 4)
    let mapped := pins.filter fun p => bit q.bmPins p
    let col := fun (p : Nat) =>
      let k := ((pinsOf q.bmPins).takeWhile fun i => i < p).length
      let c := f * q.bmPinCount + k
      if bit q.bmFormat 7 then c * beats + (o - first) else c
    (mapped.map fun p => (region, row, col p), pins.length - mapped.length)

/-- The bitmap bit of a cell (R388). -/
def Quire.cellBit (q : Quire) (x : Nat × Nat × Nat) : Nat := x.1 * (8 * ((q.bmRows * q.bmCols + 7) / 8)) + (x.2.1 * q.bmCols + x.2.2)

/-- Set a cell: a new one is counted and passed to the repair analysis of its region (R382, R411). A region that has taken a cover opens again. -/
def Quire.setCell (q : Quire) (x : Nat × Nat × Nat) : Quire :=
  let b := q.cellBit x
  if q.bitmap.contains b then q
  else
    let q := { q with bitmap := insertBy (fun a b => decide (a < b)) b q.bitmap }
    if !q.raEn then q
    else
      let r := q.region x.1
      let r := { r with failCells := r.failCells + 1 }
      q.setRegion x.1 (match r.phase with
        | .notRepairable | .incomplete => r
        | .repairable | .searching => { r with phase := .accumulating, rows := r.rows.take r.mustRows, cols := r.cols.take r.mustCols, fresh := r.fresh ++ [x.2] }
        | _ => { r with phase := .accumulating, fresh := r.fresh ++ [x.2] })

/-- Map a batch of fail-queue entries into the bitmap. Log entry 90: DEDUCED. -/
def W.compress (w : W) (es : List FailEntry) : W :=
  w.each es fun w e =>
    let r := w.q.mapFail e
    let w := w.upd fun q => r.1.foldl Quire.setCell q
    if r.2 = 0 then w else w.bump (rk 0x0C 0x218) r.2

/-- An uncorrectable error in fail memory (R398): reported, and the regions touched become INCOMPLETE. Log entry 156: DESIGN CHOICE; log entry 99: DEDUCED. -/
def W.memoryCheck (w : W) (regions : List Nat) (o : SramRead) : W :=
  let r := w.check 0x17 0x81
  if r.1 || o.outcome = .uncorrectable then
    (r.2.upd fun q => if q.raEn then regions.foldl (fun q i => q.setRegion i ((q.region i).incomplete 0xD)) q else q).report .alert 0x17 0x81 0 o.entry r.1
  else r.2

/-! ### READ_VERDICT (R405, R633) -/

def verdictCode : Verdict → Nat
  | .pending => 0 | .pass => 1 | .fail => 2 | .invalid => 3

/-- `RUN_VERDICT` (R407). -/
def RunVerdict.word (r : RunVerdict) : Word :=
  packW [(28, verdictCode r.verdict), (26, b2n r.anyFail), (25, b2n r.matchTimeout), (24, b2n r.noEye), (0, r.causes.toNat)]

/-- `RUN_VERDICT`, its causes with those of the instances in play and in their holds (R407). -/
def Quire.runWord (q : Quire) : Word := { q.run with causes := q.insts.foldl (fun a (i : Inst) => a ||| i.causes) q.run.causes }.word

/-- The 16 bytes of a verdict record (R404). -/
def recordBytes (r : VRec) : List Byte :=
  leW (packW [(28, verdictCode r.verdict), (16, r.entry % 256), (0, r.sig % 1024)]) ++ leW r.inst ++ le 4 r.fails
    ++ leW (packW [(16, r.recSeq.toNat), (0, r.causes.toNat)])

/-- Free what the session's last READ_VERDICT returned when one with another tag arrives, and choose the records of this one; `key` is link, session and tag (R405, R633). -/
def Quire.takeVerdicts (q : Quire) (key : LinkId × BitVec 16 × BitVec 16) (most : Nat) : List VRec × Quire :=
  let mine := q.verdictRead.filter fun x => x.1.1 = key.1 && x.1.2.1 = key.2.1
  match mine.find? fun x => x.1 = key with
  | some last => (q.verdicts.filter fun r => last.2.contains r.id, q)
  | none =>
    let kept := q.verdicts.filter fun r => !mine.any fun x => x.2.contains r.id
    let out := (kept.filter fun r => r.verdict ≠ .pending).take most
    (out, { q with verdicts := kept, verdictRead := (key, out.map (·.id)) :: q.verdictRead.filter fun x => !mine.contains x })

def doReadVerdict (h : Hdr) (p : Params) (s : State) : State :=
  let q := hdrQuire h
  packet opReadVerdict h p s (fun s => if 500 < par p 0 2 then rangeAt 0 else inStates s q notOff) fun s d =>
    let s := s.onQuire q fun x => x.w.memoryCheck [] { outcome := h.reads.outcome, entry := h.reads.word }
    let r := (s.quire q).takeVerdicts (h.link, h.session, h.tag) (par p 0 2)
    let x := r.2
    (s.setQuire q x).reply d stOk 0 (leW x.runWord ++ leW (x.liveReg (rk 0x0C 0x228)) ++ leW (x.liveReg (rk 0x0C 0x22C)) ++ leW (x.liveReg (rk 0x0C 0x230))
      ++ r.1.flatMap recordBytes)

/-- READ_VERDICT (R398, R405, R633): it reads fail memory. -/
def execReadVerdict (h : Hdr) (p : Params) (s : State) : Out := .next (front .readVerdict opReadVerdict.opcode h p s doReadVerdict)

/-! ### READ_CAPTURE (R395, R397) -/

/-- The 32 bytes of a first-N record (R378). -/
def firstNBytes (oz : Bool) (r : FailRec) : List Byte :=
  le 4 r.vec ++ leW (packW [(16, r.entry % 256), (6, r.sig % 1024), (0, r.vec / 2 ^ 32 % 64)]) ++ leW r.inst ++ leW r.pins ++ t12 oz r.timeNs
    ++ leW (packW [(16, r.recSeq.toNat)])

/-- The size of an area (R395, R397). Log entry 86: DESIGN CHOICE. -/
def Quire.areaBytes (q : Quire) (area : Nat) : Nat :=
  match area with
  | 1 => 32 * q.firstNLen | 2 => q.bmBytes | 3 => q.raBytes | 4 => q.rawBytes | 5 => q.rawDramBytes | _ => 0

/-- Byte `i` of the bitmap. Log entries 10, 86: DESIGN CHOICE. -/
def Quire.bitmapByte (q : Quire) (i : Nat) : Byte := BitVec.ofNat 8 ((List.range 8).foldl (fun a k => a + b2n (q.bitmap.contains (8 * i + k)) * 2 ^ k) 0)

/-- Bytes of an area; a byte that no record has filled reads 0 (log entry 10). The layout of the repair state is not given: its words are free values. Log entry 86: DESIGN CHOICE. -/
def State.areaRead (s : State) (q : QId) (area off n : Nat) : List Byte × State :=
  let x := s.quire q
  let cut := fun (l : List Byte) => (List.range n).map fun i => l.getD (off + i) 0
  match area with
  | 1 => (cut (x.firstN.flatMap (firstNBytes s.modeOz)), s)
  | 2 => ((List.range n).map fun i => x.bitmapByte (off + i), s)
  | 4 => (cut (x.raw.flatMap rawBytes), s)
  | _ => (List.range (n / 4)).foldl (fun a _ => let f := a.2.takeFree; (a.1 ++ leW f.1, f.2)) ([], s)

/-- One line of the channel is read for the host: its bytes, free ones where it comes back poisoned (R464, R495, R496). -/
def State.hostLine (s : State) (q : QId) (line : Nat) (r : LineRead) : List Byte × State :=
  let wrong := (s.quire q).miscorrects r
  let poisoned := ((s.quire q).w.readLine line r).1
  let s := s.onQuire q fun x => (x.w.readLine line r).2
  if poisoned then (List.range 16).foldl (fun a _ => let f := a.2.takeFree; (a.1 ++ leW f.1, f.2)) ([], s)
  else
    let s := if wrong then s.freeLine q line else s
    (bread (64 * line) 64 (s.quire q).dram.mem, s)

/-- `n` bytes of the channel from `a` on, read for the host (R392, R397): the lines that hold them come back as the list says, those beyond it good. -/
def State.rawRead (s : State) (q : QId) (a n : Nat) (l : List LineRead) : List Byte × State :=
  let x := (List.range ((a + n + 63) / 64 - a / 64)).foldl (fun (x : List Byte × State) i =>
    let y := x.2.hostLine q (a / 64 + i) (l.getD i { wrong := 0, miscorrected := false })
    (x.1 ++ y.1, y.2)) ([], s)
  ((x.1.drop (a % 64)).take n, x.2)

/-- The reply of a READ_CAPTURE of the raw DRAM region (R397). -/
def State.rawReply (s : State) (q : QId) (x : RawRead) : State :=
  let r := s.rawRead q x.start x.bytes x.lines
  r.2.reply x.dest stOk 0 r.1

/-- Regions that a read of an area touches. -/
def Quire.areaRegions (q : Quire) (area off n : Nat) : List Nat :=
  let size := if area = 2 then (q.bmRows * q.bmCols + 7) / 8 else if area = 3 then 12288 + 2 * (q.bmRows + q.bmCols) else 0
  if size = 0 then [] else (List.range q.regionCount).filter fun r => off < (r + 1) * size && r * size < off + n

/-- The RANGE refusals of READ_CAPTURE (R397). -/
def captureCheck (q : Quire) (p : Params) : Option Refuse :=
  let size := q.areaBytes (par p 0 1)
  let off := par p 4 4
  let n := par p 8 4
  if size = 0 then rangeAt 0
  else if off % 4 ≠ 0 ∨ size ≤ off then rangeAt 4
  else if n % 4 ≠ 0 ∨ n < 4 ∨ 131072 < n ∨ size < off + n then rangeAt 8
  else none

/-- The refusals of READ_CAPTURE: RANGE (R397), STATE, and NO_RESOURCE for the raw region of an unavailable channel, which takes no request (R493). Log entry 186: DEDUCED. -/
def captureRefusal (s : State) (q : QId) (p : Params) : Option Refuse :=
  match captureCheck (s.quire q) p with
  | some r => some r
  | none =>
    match inStates s q notOff with
    | some r => some r
    | none => if par p 0 1 = 5 ∧ !(s.quire q).dram.available then some (stNoResource, 0) else none

/-- READ_CAPTURE in the hands of the interpreter; a read of the channel waits while that changes its set (R488). -/
def doReadCapture (h : Hdr) (p : Params) (o : SramRead) (l : List LineRead) (s : State) : State :=
  let q := hdrQuire h
  let area := par p 0 1
  packet opReadCapture h p s (fun s => captureRefusal s q p) fun s d =>
    if area = 5 then
      let x : RawRead := { dest := d, start := (s.quire q).rawDramBase + par p 4 4, bytes := par p 8 4, lines := l }
      if (s.quire q).dram.changing.isSome then s.modQuire q fun v => { v with rawReads := v.rawReads ++ [x] } else s.rawReply q x
    else
      let s := s.onQuire q fun x => x.w.memoryCheck (x.areaRegions area (par p 4 4) (par p 8 4)) o
      let r := s.areaRead q area (par p 4 4) (par p 8 4)
      r.2.reply d stOk 0 r.1

/-- READ_CAPTURE (R397, R398, R488, R493, R495, R496). -/
def execReadCapture (h : Hdr) (p : Params) (o : SramRead) (l : List LineRead) (s : State) : Out := .next (front (fun h p => .readCapture h p o l) opReadCapture.opcode h p s fun h p => doReadCapture h p o l)

end Sys2Proof.Machine
end

