-- ==== Sys2Proof/Machine/Repair.lean ====
section
/-! DEFINITION. Background services: capture compression (R382, R384), repair analysis with must-repair and the final search (R408 to R415), and READ_REPAIR (R416). -/

namespace Sys2Proof.Machine

/-! ### Must-repair (R410, R411) -/

/-- Spare lines taken so far, and the cells they leave uncovered. -/
structure Must where
  rows : List Nat
  cols : List Nat
  cells : List (Nat × Nat)
  exceeded : Bool
  deriving DecidableEq, Repr

/-- Insert an address in ascending order, once. -/
def insertNat (x : Nat) (l : List Nat) : List Nat := if l.contains x then l else insertBy (fun a b => decide (a < b)) x l

/-- Row `i` is scanned: with more uncovered cells than free spare columns it takes a spare row. -/
def mustRow (R C : Nat) (m : Must) (i : Nat) : Must :=
  if m.exceeded ∨ (m.cells.filter fun x => x.1 = i).length ≤ C - m.cols.length then m
  else if R ≤ m.rows.length then { m with exceeded := true }
  else { m with rows := m.rows ++ [i], cells := m.cells.filter fun x => x.1 ≠ i }

/-- Column `j` is scanned. -/
def mustCol (R C : Nat) (m : Must) (j : Nat) : Must :=
  if m.exceeded ∨ (m.cells.filter fun x => x.2 = j).length ≤ R - m.rows.length then m
  else if C ≤ m.cols.length then { m with exceeded := true }
  else { m with cols := m.cols ++ [j], cells := m.cells.filter fun x => x.2 ≠ j }

/-- One full scan: rows ascending, then columns ascending. -/
def mustScan (R C : Nat) (m : Must) : Must :=
  let m := (m.cells.foldl (fun l x => insertNat x.1 l) []).foldl (mustRow R C) m
  (m.cells.foldl (fun l x => insertNat x.2 l) []).foldl (mustCol R C) m

/-- Scan until a full scan assigns nothing; a scan that assigns takes a spare, so 65 scans are enough. -/
def mustRepair (R C : Nat) : Nat → Must → Must
  | 0, m => m
  | n + 1, m => let m' := mustScan R C m; if m' = m then m else mustRepair R C n m'

/-- A region with new cells, after must-repair (R410, R411). Log entry 90: DEDUCED. -/
def Region.increment (R C : Nat) (new : List (Nat × Nat)) (x : Region) : Region :=
  let left := new.filter fun c => !x.rows.contains c.1 && !x.cols.contains c.2
  let m := mustRepair R C 65 { rows := x.rows, cols := x.cols, cells := x.cells ++ left, exceeded := false }
  let x := { x with rows := m.rows, cols := m.cols, cells := m.cells, mustRows := m.rows.length, mustCols := m.cols.length }
  if m.exceeded then { x with phase := .notRepairable, cause := 1, fresh := [] }
  else if 2 * (R - m.rows.length) * (C - m.cols.length) < m.cells.length then { x with phase := .notRepairable, cause := 2, fresh := [] }
  else x

/-! ### The final search (R412, R413) -/

/-- A node: the spares taken beyond must-repair, and the cells still uncovered. -/
structure Cover where
  rows : List Nat
  cols : List Nat
  cells : List (Nat × Nat)
  deriving DecidableEq, Repr

/-- The lowest cell in row-major order. -/
def lowestCell : List (Nat × Nat) → Option (Nat × Nat)
  | [] => none
  | c :: t => match lowestCell t with | some d => some (if d.1 < c.1 ∨ (d.1 = c.1 ∧ d.2 < c.2) then d else c) | none => some c

def Cover.size (x : Cover) : Nat := x.rows.length + x.cols.length

/-- The nodes below a node: its lowest cell's row first, then its column, within the free spares. Log entry 89: DEDUCED. -/
def Cover.below (r c : Nat) (x : Cover) (cell : Nat × Nat) : List Cover :=
  (if x.rows.length < r then [{ x with rows := x.rows ++ [cell.1], cells := x.cells.filter fun y => y.1 ≠ cell.1 }] else [])
    ++ (if x.cols.length < c then [{ x with cols := x.cols ++ [cell.2], cells := x.cells.filter fun y => y.2 ≠ cell.2 }] else [])

/-- The search, depth-first; `none` when it reaches the limit, otherwise the first cover found with the smallest total. Log entry 89: DEDUCED. -/
def coverSearch (r c : Nat) : Nat → List Cover → Option Cover → Option (Option Cover)
  | 0, _, _ => none
  | _ + 1, [], best => some best
  | n + 1, x :: todo, best =>
    match lowestCell x.cells with
    | some cell => coverSearch r c n (x.below r c cell ++ todo) best
    | none => coverSearch r c n todo (match best with | some b => if x.size < b.size then some x else some b | none => some x)

/-- Nodes that the final search visits at most (R413). -/
abbrev searchLimit : Nat := 1048576

/-- A region after its final step. Log entry 89: DEDUCED. -/
def Region.final (R C : Nat) (x : Region) : Region :=
  match coverSearch (R - x.rows.length) (C - x.cols.length) searchLimit [{ rows := [], cols := [], cells := x.cells }] none with
  | none => x.incomplete 0xB
  | some none => { x with phase := .notRepairable, cause := 3 }
  | some (some b) => { x with phase := .repairable, rows := x.rows ++ b.rows, cols := x.cols ++ b.cols }

/-! ### Items of the background services -/

/-- A background item in hand: ready, delayed or on an engine, the oldest first. Log entry 94: DESIGN CHOICE. -/
def Quire.bgItem (q : Quire) (p : Item → Bool) : Option Item :=
  (q.engines.filterMap (fun (e : Nat × Engine) => e.2.item) ++ q.ready ++ q.delay).find? fun it => !it.copy && p it

/-- The item of number `seq` and its copy leave the ready list, the delay list and the engines. -/
def Quire.dropBg (q : Quire) (seq : Nat) : Quire :=
  let other := fun (it : Item) => it.seq ≠ seq
  { q with ready := q.ready.filter other, delay := q.delay.filter other, store := q.store.filter other
           engines := q.engines.map fun (e : Nat × Engine) => match e.2.item with
             | some it => if it.seq = seq then (e.1, { e.2 with item := none }) else e
             | none => e
           bgOutputs := q.bgOutputs.filter fun x => x.1 ≠ seq }

/-- A background item of the given kind; its number lies above every release sequence. -/
def Quire.bgNew (q : Quire) (kind : ItemKind) (region phase : Nat) (fails : List FailEntry) (cells : List (Nat × Nat)) : Item :=
  { kind := kind, sig := (fails.head?.map (·.sig)).getD 0, inst := 0, index := phase, seq := 2 ^ 64 + q.useClock, vectors := 0, last := false, cls := 3,
    waits := false, shadowed := kind = .repair, input := [], anyEngine := false, due := none, fails := fails, cells := cells, region := region,
    poisoned := false, copy := false, avoid := none }

/-- The next capture-compression item: up to 64 entries of the head's signature, in queue order (R382). Log entry 95: DEDUCED. -/
def Quire.compressItem (q : Quire) : Option (Item × Quire) :=
  match q.failQueue with
  | [] => none
  | f :: _ =>
    let es := (q.failQueue.takeWhile fun e => e.sig = f.sig).take 64
    some (q.bgNew .compress 0 0 es [], { q with failQueue := q.failQueue.drop es.length, useClock := q.useClock + 1 })

/-- A repair step of the region is in hand. -/
def Quire.repairBusy (q : Quire) (r : Nat) : Bool := (q.bgItem fun it => it.kind = .repair && it.region = r).isSome

/-- The next incremental step of a region: up to 1,024 new cells (R409). Log entries 90, 95: DEDUCED. -/
def Quire.stepItem (q : Quire) (r : Nat) : Option (Item × Quire) :=
  let x := q.region r
  if x.fresh = [] || q.repairBusy r then none
  else some (q.bgNew .repair r 0 [] (x.fresh.take 1024), { q.setRegion r { x with fresh := x.fresh.drop 1024 } with useClock := q.useClock + 1 })

/-- The final step of a region that is SEARCHING (R412). -/
def Quire.finalItem (q : Quire) (r : Nat) : Option (Item × Quire) :=
  if (q.region r).phase ≠ .searching || q.repairBusy r then none
  else some (q.bgNew .repair r 1 [] (q.region r).cells, { q with useClock := q.useClock + 1 })

/-- Once the run has its verdict and nothing waits for capture compression, each region that is still ACCUMULATING and whose cells have all been taken is due its final step (R412). -/
def Quire.repairSettle (q : Quire) : Quire :=
  if !q.raEn || (q.run.verdict ≠ .pass && q.run.verdict ≠ .fail) || q.failQueue ≠ [] || (q.bgItem fun it => it.kind = .compress).isSome then q
  else
    (List.range q.regionCount).foldl (fun q r =>
      let x := q.region r
      if x.phase = .accumulating && x.fresh = [] && !q.repairBusy r then q.setRegion r { x with phase := .searching } else q) q

/-- Regions that a batch of fails touches. -/
def Quire.failRegions (q : Quire) (es : List FailEntry) : List Nat := (es.flatMap fun e => (q.mapFail e).1.map (·.1)).dedup

/-- A capture-compression item ends (R382, R398). Log entry 94: DESIGN CHOICE. -/
def W.finishCompress (w : W) (it : Item) (o : SramRead := soundRead) : W :=
  (((w.upd fun q => q.dropBg it.seq).memoryCheck (w.q.failRegions it.fails) o).compress it.fails).upd Quire.repairSettle

/-- A region takes no step in these states. -/
def Region.closed (x : Region) : Bool := x.phase = .notRepairable || x.phase = .incomplete

/-- Both copies of a repair step have ended and agree: the step's new state is written (R409 to R413). Log entry 94: DESIGN CHOICE. -/
def W.finishRepair (w : W) (it : Item) (o : SramRead := soundRead) : W :=
  let w := ((w.upd fun q => q.dropBg it.seq).memoryCheck [it.region] o).bump (rk 0x0D 8)
  w.upd fun q =>
    let x := q.region it.region
    if x.closed then q
    else (q.setRegion it.region (if it.index = 1 then (if x.phase = .searching then x.final q.spareRows q.spareCols else x)
      else x.increment q.spareRows q.spareCols it.cells)).repairSettle

/-- The copies of a repair step differ (R414): the region becomes INCOMPLETE. -/
def W.repairMismatch (w : W) (it : Item) : W :=
  (w.upd fun q =>
    let q := q.dropBg it.seq
    if (q.region it.region).closed then q else q.setRegion it.region ((q.region it.region).incomplete 0x9)).bump (rk 0x10 0x118)

/-- A repair step traps (R414). -/
def Quire.repairTrap (q : Quire) (it : Item) : Quire :=
  let q := q.dropBg it.seq
  if (q.region it.region).closed then q else q.setRegion it.region ((q.region it.region).incomplete 0xC)

/-! ### READ_REPAIR (R416) -/

def phaseCode : RepairPhase → Nat
  | .clean => 0 | .accumulating => 1 | .searching => 2 | .repairable => 3 | .notRepairable => 4 | .incomplete => 5

/-- The first three words of a region's record; `ROWS_USED` and `COLS_USED` count the cover of a REPAIRABLE region. -/
def Region.words (x : Region) (r : Nat) : Word × Word × Word :=
  let ok := decide (x.phase = .repairable)
  (packW [(28, phaseCode x.phase), (24, x.cause.toNat), (16, if ok then x.rows.length else 0), (8, if ok then x.cols.length else 0), (0, r)],
   BitVec.ofNat 32 x.failCells, packW [(16, x.mustCols), (0, x.mustRows)])

/-- 32 addresses in ascending order; unused entries 0xFFFF. -/
def spareBytes (l : List Nat) : List Byte :=
  let s := sortBy (fun a b => decide (a < b)) l
  (List.range 32).flatMap fun i => le 2 (s.getD i 0xFFFF)

/-- The 144 bytes of a region's record. Log entry 96: DEDUCED. -/
def Region.record (x : Region) (r : Nat) : List Byte :=
  let w := x.words r
  let ok := decide (x.phase = .repairable)
  leW w.1 ++ leW w.2.1 ++ leW w.2.2 ++ le 4 0 ++ spareBytes (if ok then x.rows else []) ++ spareBytes (if ok then x.cols else [])

/-- Log entry 96: DEDUCED. -/
def doReadRepair (h : Hdr) (p : Params) (s : State) : State :=
  let q := hdrQuire h
  packet opReadRepair h p s (fun s => inStates s q notOff) fun s d =>
    s.reply d stOk 0 ((pinsOf (parW p 0)).flatMap fun r => ((s.quire q).region r).record r)

/-- READ_REPAIR (R416). -/
def execReadRepair (h : Hdr) (p : Params) (s : State) : Out := .next (front .readRepair opReadRepair.opcode h p s doReadRepair)

end Sys2Proof.Machine
end

