-- ==== Sys2Proof/Machine/Items.lean ====
section
/-! DEFINITION. Dispatch: operands and the ready list (R205 to R208), arbitration steps with the choice of engines (R209 to R216, R238, R242), context loads (R155, R743), and the end of an item on an engine (R183 to R187, R239 to R244). -/

namespace Sys2Proof.Machine

def Quire.engine (q : Quire) (e : Nat) : Engine := (sfind e q.engines).getD .reset
def Quire.setEngine (q : Quire) (e : Nat) (x : Engine) : Quire := { q with engines := sset e x q.engines }
def Quire.fenced (q : Quire) (e : Nat) : Bool := q.fences.getLsbD e

/-- The context an item needs (R145). -/
def Item.context (it : Item) : Nat := match it.kind with | .repair => 0x400 | .compress => 0x401 | _ => it.sig

/-- The item computes a chunk of a signature. -/
def Item.ofSignature (it : Item) : Bool := it.kind = .pattern || it.derived

/-! ### Operands (R206, R207) -/

/-- The configuration that an item works on: the class 2 items of a collation work on the staging copy. -/
def Quire.itemView (q : Quire) (it : Item) : Quire :=
  match q.derivation with
  | some d => if d.staged && it.derived then { q with committed := some q.staging } else q
  | none => q

/-- The reads of a class 2 item wait for room in the engine-scratch queue (R475). -/
def Quire.unasked (q : Quire) (it : Item) : Bool := match q.derivation with | some d => it.derived && d.unasked.contains it.seq | none => false

/-- Every operand of an item has arrived (R206): of DRAM-home data every line. -/
def Quire.operandsHere (q : Quire) (it : Item) : Bool :=
  match (q.itemView it).sigHome it.sig with
  | 0 => !q.unasked it && !(q.dram.queue ++ q.dram.issued).any fun r => !r.write && r.seq = it.seq
  | 2 =>
    let here := fun (i : Nat) => (q.stream ++ q.streamHeads).any fun c => c.sig = it.sig && c.inst = it.inst && c.index = i
    here it.index && (q.sigKind it.sig ≠ 1 || here 0xFFFFFFFF)
  | _ => true

/-- An item of the matching store whose operands are complete enters the ready list (R207). -/
def Quire.arrive (q : Quire) (it : Item) : Quire :=
  if q.operandsHere it then { q with store := q.store.filter fun x => x.seq ≠ it.seq }.makeReady it else q

/-- OPERAND_ARRIVAL (R206 to R208): an arrival for an item that is no longer in the matching store is discarded. -/
def Quire.operandArrival (q : Quire) (seq : Nat) : Quire :=
  match q.store.find? fun it => it.seq = seq with
  | some it => q.arrive it
  | none => q

def execOperandArrival (q : QId) (seq : Nat) (s : State) : Out := .next (s.modQuire q fun x => x.operandArrival seq)

/-! ### The choice of an engine (R211 to R214, R238, R242) -/

/-- What dispatch decides for an item. -/
inductive Choice where
  | wait
  | engine (e : Nat) (moved : Bool)
  deriving DecidableEq, Repr

/-- The class of an item now (R146). Log entry 84: DEDUCED. -/
def Quire.itemClass (q : Quire) (it : Item) : Nat := if it.kind = .pattern then (if it.seq ≤ q.releasePtr + 4 then 0 else 1) else it.cls

/-- `AFFINITY_WAIT_NS` (R252). -/
def Quire.affinityWait (q : Quire) : Nat := fld (q.cfg 0x10 0) 16 8

/-- Idle unfenced engines that the item may run on; a copy keeps off its primary's engine, and goes to another zone when one has an idle engine there. -/
def Quire.idleEngines (q : Quire) (it : Item) : List Nat :=
  let free := (List.range 128).filter fun e => (q.engine e).item.isNone && !q.fenced e && decide (it.avoid ≠ some e)
  match it.avoid with
  | some a => if free.any fun e => e / 32 ≠ a / 32 then free.filter fun e => e / 32 ≠ a / 32 else free
  | none => free

/-- The engine of a list that was used last, and the one used longest ago. -/
def Quire.mostRecent (q : Quire) : List Nat → Option Nat
  | [] => none
  | e :: t => match q.mostRecent t with | some f => some (if (q.engine e).lastUse < (q.engine f).lastUse then f else e) | none => some e
def Quire.leastRecent (q : Quire) : List Nat → Option Nat
  | [] => none
  | e :: t => match q.leastRecent t with | some f => some (if (q.engine f).lastUse < (q.engine e).lastUse then f else e) | none => some e

/-- R211 over a list of idle engines. -/
def Quire.pick (q : Quire) (it : Item) (idle : List Nat) : Option Choice :=
  match q.mostRecent (idle.filter fun e => (q.engine e).context = some it.context) with
  | some e => some (.engine e false)
  | none =>
    let busy := (List.range 128).any fun e => (q.engine e).item.isSome && !q.fenced e && it.avoid ≠ some e && (q.engine e).context = some it.context
    if busy && q.itemClass it ≠ 0 && q.affinityWait ≠ 0 && !it.anyEngine then some .wait
    else (q.leastRecent idle).map fun e => .engine e false

/-- Class 3 items hold their share already (R213). -/
def Quire.shareFull (q : Quire) : Bool :=
  let unfenced := ((List.range 128).filter fun e => !q.fenced e).length
  let held := (q.engines.filter fun (e : Nat × Engine) => match e.2.item with | some it => it.cls = 3 | none => false).length
  (q.bgShare + 1) * unfenced < 16 * (held + 1)

/-- The engine for an item, hot zones avoided (R214, R215); `none` when no engine may take it in this step. -/
def Quire.choose (q : Quire) (it : Item) : Option Choice :=
  if it.copy && it.avoid.isNone then none
  else if it.cls = 3 && q.shareFull then none
  else
    let idle := q.idleEngines it
    match q.pick it idle with
    | some (.engine e _) =>
      if 2 ≤ q.itemClass it && q.hotZones.getLsbD (e / 32) then
        match q.pick it (idle.filter fun i => !q.hotZones.getLsbD (i / 32)) with
        | some (.engine f _) => some (.engine f true)
        | r => r
      else some (.engine e false)
    | r => r

/-! ### Placement -/

/-- An uncorrectable error in line `line` of signature-buffer data that an item reads (R743): its chunk is lost with cause LOCAL_ECC, and the signature becomes STALE until a LOAD_SIGNATURE completes for it; a class 2 item fails its command. Log entries 54, 156: DESIGN CHOICE. -/
def W.sramError (w : W) (it : Item) (line : Nat) (injected : Bool) : W :=
  (w.upd fun q => { (if it.derived then q.failDerived it.sig else q).modSig it.sig (fun x => { x with buf := .stale, damaged := true }) with
    slots := q.slots.map fun (x : Slot) => if it.kind = .pattern ∧ x.seq = it.seq then { x with trapped := some trapEcc } else x }).report .alert 0x17 0x80 0 line injected

/-- The engine holds what the item needs (R145, R155): its context and, for a CODEC signature of home STREAM, the dictionary of the item's instance (R150, R630). -/
def Engine.holds (e : Engine) (v : Quire) (it : Item) : Bool :=
  e.context = some it.context && (!(it.ofSignature && v.sigHome it.sig = 2 && v.sigKind it.sig = 1) || e.dictInst = some it.inst)

/-- Placing the item on the engine loads its context from the signature buffers (R155). -/
def Quire.loadsBuffer (q : Quire) (it : Item) (e : Nat) : Bool :=
  !(q.engine e).holds (q.itemView it) it && it.ofSignature && decide ((q.itemView it).sigHome it.sig = 1)

/-- Place an item on an engine: load the context if it is another (R155), and start the item (R157); `o` is how the signature buffers give what the load reads (R743, R862). -/
def W.place (w : W) (it : Item) (e : Nat) (moved : Bool) (o : SramRead) : W :=
  let old := w.q.engine e
  let hit := old.holds (w.q.itemView it) it
  let reads := w.q.loadsBuffer it e
  let w := w.bump64 (rk 0x10 0x100)
  let w := if hit then w.bump (rk 0x10 0x120) else w.bump (rk 0x10 0x128)
  let w := if moved then w.bump (rk 0x10 0x124) else w
  let w := if it.copy then w.bump (rk 0x10 0x114) else w
  let w := w.upd fun q =>
    let x := if hit then old else (q.itemView it).loadContext it.context it.inst old
    let other := fun (y : Item) => decide (y.seq ≠ it.seq ∨ y.copy ≠ it.copy)
    let primary := fun (y : Item) => if y.seq = it.seq ∧ y.copy ∧ !it.copy then { y with avoid := some e } else y
    { q.setEngine e { (q.itemView it).beginItem it x with lastUse := q.useClock + 1 } with
      useClock := q.useClock + 1, ready := (q.ready.filter other).map primary
      slots := q.slots.map fun (s : Slot) => if it.kind = .pattern ∧ !it.copy ∧ s.seq = it.seq then { s with engine := e } else s }
  if reads then
    let r := w.check 0x17 0x80
    if r.1 || o.outcome = .uncorrectable then r.2.sramError it o.entry r.1 else r.2
  else w

/-- Ready items in the order of R210. Log entries 84, 95: DEDUCED. -/
def Quire.placeOrder (q : Quire) : List Item :=
  let lt := fun (a b : Item) =>
    decide (q.itemClass a < q.itemClass b) || (q.itemClass a = q.itemClass b && decide (q.itemClass a < 2) && decide (a.seq < b.seq))
  sortBy lt q.ready

/-- Place items of a list in order, up to `n` of them; a copy is seen as the ready list now has it. `o` is how the first of their context loads from the signature buffers comes back (R743), the others being good. -/
def W.placeAll : List Item → Nat → SramRead → W → W
  | [], _, _, w => w
  | _, 0, _, w => w
  | it :: t, n + 1, o, w =>
    match w.q.ready.find? fun (y : Item) => y.seq = it.seq && y.copy = it.copy with
    | none => W.placeAll t (n + 1) o w
    | some it =>
      match w.q.choose it with
      | some (.engine e moved) => W.placeAll t n (if w.q.loadsBuffer it e then soundRead else o) (w.place it e moved o)
      | _ => W.placeAll t (n + 1) o w

/-! ### Background items (R222, R382, R409, R412) -/

/-- A background item enters the ready list, and its shadow copy behind it (R207, R237). Log entry 91: DESIGN CHOICE. -/
def Quire.addBg (r : Item × Quire) : Quire := { r.2 with ready := r.2.ready ++ r.1 :: (if r.1.shadowed then [{ r.1 with copy := true }] else []) }

/-- The background services create their items; while the matching store is full they are held, each entry into the held state counting once (R222, R223). Log entry 95: DEDUCED. -/
def W.createBg (w : W) : W :=
  let w := w.upd Quire.repairSettle
  let regions := List.range w.q.regionCount
  let due := !w.q.failQueue.isEmpty || (w.q.raEn && regions.any fun r => (w.q.stepItem r).isSome || (w.q.finalItem r).isSome)
  if 512 ≤ w.q.store.length then
    if due && !w.q.heldBg then (w.upd fun q => { q with heldBg := true }).bump (rk 0x10 0x12C) else w
  else
    w.upd fun q =>
      let q := { q with heldBg := false }
      let q := match q.compressItem with | some r => Quire.addBg r | none => q
      if q.raEn then
        regions.foldl (fun q r =>
          match q.stepItem r with
          | some x => Quire.addBg x
          | none => match q.finalItem r with | some x => Quire.addBg x | none => q) q
      else q

/-! ### Class 2 items (R112, R145, R202, R469) -/

/-- A number of its own for a class 2 item, above every release sequence. -/
def derivedSeq (kind : ItemKind) (s i : Nat) : Nat := 2 ^ 104 + 2 ^ 40 * s + 2 * i + b2n (kind = .head)

/-- The next class 2 item: the precompute items of a signature's chunks, then its landing head. Log entry 54: DESIGN CHOICE. -/
def Quire.nextDerived (q : Quire) : Option Quire :=
  match q.derivation with
  | none => none
  | some d =>
    match d.todo with
    | [] => none
    | s :: t =>
      let v := if d.staged then { q with committed := some q.staging } else q
      if v.deriveItems s ≤ d.next then some { q with derivation := some { d with todo := t, next := 0 } }
      else
        let kind : ItemKind := if d.next < v.tableItems s then .precompute else .head
        let i := if d.next < v.tableItems s then d.next else 0
        let it := { v.chunkItem kind s i with seq := derivedSeq kind s i }
        if v.sigHome s = 0 then
          some { q with derivation := some { d with next := d.next + 1, unasked := d.unasked ++ [it.seq] }, store := q.store ++ [{ it with waits := true }] }
        else some ({ q with derivation := some { d with next := d.next + 1 } }.makeReady it)

/-- Up to `n` of them are created, while the matching store has room (R205, R222). Log entry 54: DESIGN CHOICE. -/
def createDerived : Nat → Quire → Quire
  | 0, q => q
  | n + 1, q => if 512 ≤ q.store.length then q else match q.nextDerived with | some q => createDerived n q | none => q

/-- Class 2 items in the matching store ask for their data while the engine-scratch queue has room (R206, R469, R475). -/
def Quire.askScratch (q : Quire) : Quire :=
  (q.store.filter Item.derived).foldl (fun q it =>
    if !q.unasked it || q.dram.full .scratch then q
    else
      let q := q.fetch .scratch it.sig it.seq ((q.itemView it).chunkReads it.sig it.index)
      { q with derivation := q.derivation.map fun d => { d with unasked := d.unasked.filter (· ≠ it.seq) } }) q

/-- Writes of the checksum table enter the engine-scratch queue, in order, while it has room (R203, R475). -/
def Quire.writeTables (q : Quire) : List (Nat × Nat × Nat) → Quire
  | [] => { q with derivation := q.derivation.map fun d => { d with unwritten := [] } }
  | x :: t =>
    if q.dram.full .scratch then { q with derivation := q.derivation.map fun d => { d with unwritten := x :: t } }
    else Quire.writeTables { q with dram := q.dram.ask .scratch x.1 true x.2.1 x.2.2 } t

/-- A class 2 item has ended: its chunk is kept, and the entry of a precompute item goes to a DRAM-home checksum table by the scratch port, once its queue has room (R112, R202, R203, R469, R475). -/
def Quire.recordDerived (q : Quire) (e : Nat) (it : Item) (x : Engine) : Quire :=
  let v := q.itemView it
  let q := { q with derivation := q.derivation.map fun d => { d with made := d.made ++ [{ v.chunkOf it x with engine := e }] } }
  if it.kind = .precompute && v.sigHome it.sig = 0 then
    q.writeTables ((match q.derivation with | some d => d.unwritten | none => []) ++ [((v.tableEntry it.sig it.index).1 / 64, it.sig, it.seq)])
  else q

/-- The class 2 items of the occupying command have all ended. -/
def Quire.derivedDone (q : Quire) : Bool := (match q.derivation with | some d => d.todo = [] && d.unwritten = [] | none => true) && q.derivedItems = []

/-- DISPATCH_STEP (R209): cancellations have been applied as they came; items with complete operands become ready, and up to 8 items are placed. Log entry 54: DESIGN CHOICE; log entry 95: DEDUCED. -/
def W.dispatchStep (w : W) (o : SramRead) : W :=
  if w.q.state = .off then w
  else
    let w := (w.upd fun q => let q := ((createDerived 8 q).writeTables (match q.derivation with | some d => d.unwritten | none => [])).askScratch; q.store.foldl Quire.arrive q).createBg
    W.placeAll w.q.placeOrder 8 o w

def execDispatchStep (q : BufferStep) (s : State) : Out := .next (s.onQuire q.quire fun x => x.w.dispatchStep { outcome := q.buffer, entry := q.line })

/-- AFFINITY_WAIT_EXPIRY (R211): the item goes to another idle engine. -/
def W.affinityExpiry (w : W) (seq : Nat) : W :=
  let w := w.upd fun q => { q with ready := q.ready.map fun (it : Item) => if it.seq = seq then { it with anyEngine := true } else it }
  W.placeAll (w.q.ready.filter fun it => it.seq = seq) 8 soundRead w

def execAffinityWaitExpiry (q : QId) (seq : Nat) (s : State) : Out := .next (s.onQuire q fun x => x.w.affinityExpiry seq)

/-! ### The end of an item -/

/-- The engine is free again. -/
def Quire.freeEngine (q : Quire) (e : Nat) : Quire := q.setEngine e { q.engine e with item := none }

/-- A copy of the item other than this one still waits or runs. -/
def Quire.siblingLeft (q : Quire) (it : Item) : Bool :=
  (q.engines.filterMap (fun (e : Nat × Engine) => e.2.item) ++ q.ready ++ q.delay).any fun y => y.seq = it.seq && y.copy ≠ it.copy

/-- The engine of the primary of a shadowed background item, known to whichever copy ends last. -/
def Item.primaryEngine (it : Item) (e : Nat) : Nat := if it.copy then it.avoid.getD e else e

/-- Both copies of a repair step have ended, the primary on engine `p`: they agree, or the shadow check reports them (R239, R409, R414, R862). -/
def W.repairCompared (w : W) (it : Item) (p : Nat) (agree : Bool) (o : SramRead := soundRead) : W :=
  let r := w.check 0x16 p
  if r.1 || !agree then (r.2.repairMismatch it).report .alert 0x16 (BitVec.ofNat 8 p) 0 0 r.1 else r.2.finishRepair it o

/-- A repair step has ended on engine `e` with its output; with its sibling ended as well, the outputs of the copies are compared (R239, R409). -/
def W.repairDone (w : W) (it : Item) (e : Nat) (output : List DWord) : W :=
  if w.q.siblingLeft it then w.upd fun q => { q with bgOutputs := q.bgOutputs ++ [(it.seq, output)] }
  else
    w.repairCompared it (it.primaryEngine e) (match w.q.bgOutputs.find? fun x => x.1 = it.seq with | some x => decide (x.2 = output) | none => true)

/-- The output queue of a capture-compression item is full: the new cells of a region that it writes to wait for the repair analysis (R221, R382). Log entry 91: DESIGN CHOICE. -/
def Quire.outputFull (q : Quire) (it : Item) : Bool :=
  q.raEn && (q.failRegions it.fails).any fun r => match (q.region r).fresh with | [] => false | l => decide (Config.cellQueue ≤ l.length)

/-- An item whose output queue was full re-enters the delay list; while that is full too, the item stays at the tail of the ready list, each item's entry into that state counting once (R221 to R223). -/
def W.delayItem (w : W) (it : Item) : W :=
  if 256 ≤ w.q.delay.length then
    let was := w.q.heldDelay.contains it.seq
    let w := w.upd fun q => { q with ready := q.ready ++ [it], heldDelay := if was then q.heldDelay else it.seq :: q.heldDelay }
    if was then w else w.bump (rk 0x10 0x12C)
  else (w.upd fun q => { q with heldDelay := q.heldDelay.filter (· ≠ it.seq) }).ask (.delay it)

/-- A capture-compression item has ended: its fails are mapped, unless its output queue is full (R221, R382). -/
def W.compressDone (w : W) (it : Item) (o : SramRead := soundRead) : W := if w.q.outputFull it then w.delayItem it else w.finishCompress it o

/-- An item ends with DONE (R183, R224, R239). -/
def W.itemDone (w : W) (e : Nat) (x : Engine) (it : Item) : W :=
  let w := w.upd fun q => q.setEngine e { x with item := none }
  match it.kind with
  | .compress => w.compressDone it
  | .repair => w.repairDone it e x.output
  | .precompute | .head => w.upd fun q => q.recordDerived e it x
  | .pattern =>
    w.upd fun q =>
      let c := { q.chunkOf it x with engine := e }
      { q with slots := q.slots.map fun (s : Slot) =>
          if s.seq ≠ it.seq then s
          else if it.copy then { s with copyEnded := true, copyCrc := some c.crc }
          else { s with primaryEnded := true, primary := some c } }

/-- A trap is counted and logged (R187); that of a store's error, which is a report, is logged with its report only (R788). Log entry 43: DEDUCED. -/
def W.noteTrap (w : W) (e pc : Nat) (code : Byte) (ctx : Nat) (reported : Bool) : W :=
  let last := packW [(24, code.toNat), (16, e), (0, pc)]
  let w := (w.bump (rk 0x10 0x110)).setLive (rk 0x10 0x130) last
  if reported then w else w.log 0x11 2 last (BitVec.ofNat 32 ctx) 0

/-- An item traps (R184 to R187, R241, R414): it produces no output. -/
def W.itemTrap (w : W) (e : Nat) (x : Engine) (it : Item) (code : Byte) (reported : Bool := false) : W :=
  let w := (w.upd fun q => q.setEngine e { x with item := none }).noteTrap e x.pc code it.context reported
  match it.kind with
  | .compress => w.upd Quire.repairSettle
  | .repair => w.upd fun q => q.repairTrap it
  | .precompute | .head => w.upd fun q => q.failDerived it.sig
  | .pattern =>
    w.upd fun q => { q with slots := q.slots.map fun (s : Slot) =>
      if s.seq ≠ it.seq then s
      else if it.copy then { s with copyEnded := true, trapped := some (s.trapped.getD code) }
      else { s with primaryEnded := true, trapped := some (s.trapped.getD code) } }

/-- An uncorrectable error in a word of an engine's own stores (R244): the item traps with LOCAL_ECC and the engine is fenced at once. Log entry 156: DESIGN CHOICE. -/
def W.storeError (w : W) (e : Nat) (x : Engine) (it : Item) (word : Nat) (injected : Bool) : W :=
  ((w.itemTrap e x it trapEcc true).upd fun q => { q with fences := q.fences ||| BitVec.ofNat 128 (2 ^ e) }).report .alert 0x17 (BitVec.ofNat 8 e) 0 word injected

end Sys2Proof.Machine
end

