-- ==== Sys2Proof/Machine/Engines.lean ====
section
/-! DEFINITION. The rows of the engines: one instruction of the item that an engine runs (R157 to R195), its check of the local stores (R244, R862), and the end of the item. -/

namespace Sys2Proof.Machine

/-- Engine `e` runs an item and its program counter is at the word. -/
def Quire.fetching (q : Quire) (e : Nat) (word : Word) : Bool := (q.engine e).item.isSome && (q.engine e).fetches word

/-- What an instruction's end leaves: the engine goes on, or its item ends. Log entry 1: DESIGN CHOICE; log entry 43: DEDUCED. -/
def W.settle (w : W) (e : Nat) (x : Engine) (it : Item) : EStep → W
  | .go y => w.upd fun q => q.setEngine e y
  | .done y => w.itemDone e y it
  | .trap code y => w.itemTrap e { y with pc := x.pc } it code

/-- A corrected read of the engine's stores counts in its `ECC_CORRECTED`, which stays at all-ones (R245, R776). -/
def W.countEcc (w : W) (e : Nat) (o : LineOutcome) : W :=
  if o ≠ .corrected then w
  else
    let r := satAdd 8 (w.q.engine e).eccCorrected.toNat 1
    let w := w.upd fun q => q.setEngine e { q.engine e with eccCorrected := BitVec.ofNat 8 r.1 }
    if r.2 then (w.upd fun q => { q with satPages := setBit q.satPages 0x10 }).ask (.saturated (rk 0x10 (0x300 + 4 * e))) else w

/-- One instruction of the item on engine `e`; its fetch, and what it reads of the data store, are ECC-checked reads of the local stores (R244, R245, R862), also where it then traps. -/
def W.runOn (w : W) (e : Nat) (word : Word) (o : StoreReads) (reads : Engine → Bool) (step : Engine → EStep) : W :=
  let x := w.q.engine e
  match x.item with
  | none => w
  | some it =>
    if !x.fetches word then w
    else
      let r := w.check 0x17 e
      if r.1 || o.fetch = .uncorrectable then r.2.storeError e x it x.pc r.1
      else if reads x then
        let d := r.2.check 0x17 e
        if d.1 || o.data = .uncorrectable then (d.2.storeError e x it o.entry d.1).countEcc e o.fetch
        else ((d.2.settle e x it (step x)).countEcc e o.fetch).countEcc e o.data
      else (r.2.settle e x it (step x)).countEcc e o.fetch

/-- The instruction does not read the data store. -/
def noReads (_ : Engine) : Bool := false

/-- RAWC or CDEC: the chunk's data is read from the quire; signature-buffer data is an ECC-checked read (R743, R862). -/
def W.runBuiltin (w : W) (e : Nat) (word : Word) (o : StoreReads) (reads : Engine → Bool) (step : Source → Word → Engine → EStep) : W :=
  match (w.q.engine e).item with
  | none => w
  | some it =>
    if !(w.q.engine e).fetches word then w
    else
      let v := w.q.itemView it
      let w := w.runOn e word o reads (step (v.source it.sig it.inst it.index) (v.sigMask it.sig))
      if (w.q.engine e).item.isSome && it.ofSignature && v.sigHome it.sig ≠ 0 then
        let r := w.check 0x17 0x80
        if r.1 || o.buffer = .uncorrectable then r.2.sramError it o.entry r.1 else r.2
      else w

/-- NOP (R164). -/
def execNop (q : QId) (e : EngId) (f : FmtA) (o : StoreReads) (s : State) : Out := .next (s.onQuire q fun x => x.w.runOn e.val (encA 0x00 f) o noReads (eNop f))

/-- ADD (R164). -/
def execAdd (q : QId) (e : EngId) (f : FmtA) (o : StoreReads) (s : State) : Out := .next (s.onQuire q fun x => x.w.runOn e.val (encA 0x01 f) o noReads (eAdd f))

/-- SUB (R164). -/
def execSub (q : QId) (e : EngId) (f : FmtA) (o : StoreReads) (s : State) : Out := .next (s.onQuire q fun x => x.w.runOn e.val (encA 0x02 f) o noReads (eSub f))

/-- AND (R164). -/
def execAnd (q : QId) (e : EngId) (f : FmtA) (o : StoreReads) (s : State) : Out := .next (s.onQuire q fun x => x.w.runOn e.val (encA 0x03 f) o noReads (eAnd f))

/-- OR (R164). -/
def execOr (q : QId) (e : EngId) (f : FmtA) (o : StoreReads) (s : State) : Out := .next (s.onQuire q fun x => x.w.runOn e.val (encA 0x04 f) o noReads (eOr f))

/-- XOR (R164). -/
def execXor (q : QId) (e : EngId) (f : FmtA) (o : StoreReads) (s : State) : Out := .next (s.onQuire q fun x => x.w.runOn e.val (encA 0x05 f) o noReads (eXor f))

/-- SHL (R164). -/
def execShl (q : QId) (e : EngId) (f : FmtA) (o : StoreReads) (s : State) : Out := .next (s.onQuire q fun x => x.w.runOn e.val (encA 0x06 f) o noReads (eShl f))

/-- SHR (R164). -/
def execShr (q : QId) (e : EngId) (f : FmtA) (o : StoreReads) (s : State) : Out := .next (s.onQuire q fun x => x.w.runOn e.val (encA 0x07 f) o noReads (eShr f))

/-- MUL (R164). -/
def execMul (q : QId) (e : EngId) (f : FmtA) (o : StoreReads) (s : State) : Out := .next (s.onQuire q fun x => x.w.runOn e.val (encA 0x08 f) o noReads (eMul f))

/-- POPC (R164). -/
def execPopc (q : QId) (e : EngId) (f : FmtA) (o : StoreReads) (s : State) : Out := .next (s.onQuire q fun x => x.w.runOn e.val (encA 0x09 f) o noReads (ePopc f))

/-- MINU (R164). -/
def execMinu (q : QId) (e : EngId) (f : FmtA) (o : StoreReads) (s : State) : Out := .next (s.onQuire q fun x => x.w.runOn e.val (encA 0x0a f) o noReads (eMinu f))

/-- MAXU (R164). -/
def execMaxu (q : QId) (e : EngId) (f : FmtA) (o : StoreReads) (s : State) : Out := .next (s.onQuire q fun x => x.w.runOn e.val (encA 0x0b f) o noReads (eMaxu f))

/-- ADDI (R164). -/
def execAddi (q : QId) (e : EngId) (f : FmtB) (o : StoreReads) (s : State) : Out := .next (s.onQuire q fun x => x.w.runOn e.val (encB 0x10 f) o noReads (eAddi f))

/-- ANDI (R164). -/
def execAndi (q : QId) (e : EngId) (f : FmtB) (o : StoreReads) (s : State) : Out := .next (s.onQuire q fun x => x.w.runOn e.val (encB 0x11 f) o noReads (eAndi f))

/-- ORI (R164). -/
def execOri (q : QId) (e : EngId) (f : FmtB) (o : StoreReads) (s : State) : Out := .next (s.onQuire q fun x => x.w.runOn e.val (encB 0x12 f) o noReads (eOri f))

/-- XORI (R164). -/
def execXori (q : QId) (e : EngId) (f : FmtB) (o : StoreReads) (s : State) : Out := .next (s.onQuire q fun x => x.w.runOn e.val (encB 0x13 f) o noReads (eXori f))

/-- SHLI (R164). -/
def execShli (q : QId) (e : EngId) (f : FmtB) (o : StoreReads) (s : State) : Out := .next (s.onQuire q fun x => x.w.runOn e.val (encB 0x14 f) o noReads (eShli f))

/-- SHRI (R164). -/
def execShri (q : QId) (e : EngId) (f : FmtB) (o : StoreReads) (s : State) : Out := .next (s.onQuire q fun x => x.w.runOn e.val (encB 0x15 f) o noReads (eShri f))

/-- LUI (R164). -/
def execLui (q : QId) (e : EngId) (f : FmtB) (o : StoreReads) (s : State) : Out := .next (s.onQuire q fun x => x.w.runOn e.val (encB 0x16 f) o noReads (eLui f))

/-- LD (R149, R164, R184). -/
def execLd (q : QId) (e : EngId) (f : FmtB) (o : StoreReads) (s : State) : Out := .next (s.onQuire q fun x => x.w.runOn e.val (encB 0x18 f) o (loadReads f 8) (eLd f))

/-- ST (R149, R164, R184). -/
def execSt (q : QId) (e : EngId) (f : FmtB) (o : StoreReads) (s : State) : Out := .next (s.onQuire q fun x => x.w.runOn e.val (encB 0x19 f) o noReads (eSt f))

/-- LDW (R149, R164, R184). -/
def execLdw (q : QId) (e : EngId) (f : FmtB) (o : StoreReads) (s : State) : Out := .next (s.onQuire q fun x => x.w.runOn e.val (encB 0x1a f) o (loadReads f 4) (eLdw f))

/-- STW (R149, R164, R184). -/
def execStw (q : QId) (e : EngId) (f : FmtB) (o : StoreReads) (s : State) : Out := .next (s.onQuire q fun x => x.w.runOn e.val (encB 0x1b f) o noReads (eStw f))

/-- BEQ (R164, R184). -/
def execBeq (q : QId) (e : EngId) (f : FmtC) (o : StoreReads) (s : State) : Out := .next (s.onQuire q fun x => x.w.runOn e.val (encC 0x20 f) o noReads (eBeq f))

/-- BNE (R164, R184). -/
def execBne (q : QId) (e : EngId) (f : FmtC) (o : StoreReads) (s : State) : Out := .next (s.onQuire q fun x => x.w.runOn e.val (encC 0x21 f) o noReads (eBne f))

/-- BLTU (R164, R184). -/
def execBltu (q : QId) (e : EngId) (f : FmtC) (o : StoreReads) (s : State) : Out := .next (s.onQuire q fun x => x.w.runOn e.val (encC 0x22 f) o noReads (eBltu f))

/-- BGEU (R164, R184). -/
def execBgeu (q : QId) (e : EngId) (f : FmtC) (o : StoreReads) (s : State) : Out := .next (s.onQuire q fun x => x.w.runOn e.val (encC 0x23 f) o noReads (eBgeu f))

/-- LOOP (R164, R184). -/
def execLoop (q : QId) (e : EngId) (f : FmtC) (o : StoreReads) (s : State) : Out := .next (s.onQuire q fun x => x.w.runOn e.val (encC 0x24 f) o noReads (eLoop f))

/-- JAL (R164, R184). -/
def execJal (q : QId) (e : EngId) (f : FmtB) (o : StoreReads) (s : State) : Out := .next (s.onQuire q fun x => x.w.runOn e.val (encB 0x25 f) o noReads (eJal f))

/-- JR (R164, R184). -/
def execJr (q : QId) (e : EngId) (f : FmtA) (o : StoreReads) (s : State) : Out := .next (s.onQuire q fun x => x.w.runOn e.val (encA 0x26 f) o noReads (eJr f))

/-- UGET (R161, R164). -/
def execUget (q : QId) (e : EngId) (f : FmtB) (o : StoreReads) (s : State) : Out := .next (s.onQuire q fun x => x.w.runOn e.val (encB 0x28 f) o noReads (eUget f))

/-- USET (R161, R164). -/
def execUset (q : QId) (e : EngId) (f : FmtB) (o : StoreReads) (s : State) : Out := .next (s.onQuire q fun x => x.w.runOn e.val (encB 0x29 f) o noReads (eUset f))

/-- AGEN (R165, R166, R168). -/
def execAgen (q : QId) (e : EngId) (f : FmtA) (o : StoreReads) (s : State) : Out := .next (s.onQuire q fun x => x.w.runOn e.val (encA 0x2a f) o noReads (eAgen f))

/-- ASEEK (R167, R168). -/
def execAseek (q : QId) (e : EngId) (f : FmtA) (o : StoreReads) (s : State) : Out := .next (s.onQuire q fun x => x.w.runOn e.val (encA 0x2b f) o noReads (eAseek f))

/-- SCRAM (R169, R170). -/
def execScram (q : QId) (e : EngId) (f : FmtB) (o : StoreReads) (s : State) : Out := .next (s.onQuire q fun x => x.w.runOn e.val (encB 0x2c f) o scramReads (eScram f))

/-- BGND (R171 to R174). -/
def execBgnd (q : QId) (e : EngId) (f : FmtB) (o : StoreReads) (s : State) : Out := .next (s.onQuire q fun x => x.w.runOn e.val (encB 0x2d f) o noReads (eBgnd f))

/-- CMAP (R175 to R178). -/
def execCmap (q : QId) (e : EngId) (f : FmtB) (o : StoreReads) (s : State) : Out := .next (s.onQuire q fun x => x.w.runOn e.val (encB 0x2e f) o (cmapReads f) (eCmap f))

/-- TPUT (R179 to R181); one that emits a group reads its slots from the data store. -/
def execTput (q : QId) (e : EngId) (f : FmtA) (o : StoreReads) (s : State) : Out := .next (s.onQuire q fun x => x.w.runOn e.val (encA 0x30 f) o (tputReads f) (eTput f))

/-- TSRUN (R182). -/
def execTsrun (q : QId) (e : EngId) (f : FmtA) (o : StoreReads) (s : State) : Out := .next (s.onQuire q fun x => x.w.runOn e.val (encA 0x31 f) o noReads (eTsrun f))

/-- RAWC (R77, R164, R190). -/
def execRawc (q : QId) (e : EngId) (f : FmtA) (o : StoreReads) (s : State) : Out :=
  .next (s.onQuire q fun x => x.w.runBuiltin e.val (encA 0x32 f) o noReads fun src mask => eRawc src mask f)

/-- CDEC (R192 to R195): it reads the dictionary in the data store (R150). -/
def execCdec (q : QId) (e : EngId) (f : FmtA) (o : StoreReads) (s : State) : Out :=
  .next (s.onQuire q fun x => x.w.runBuiltin e.val (encA 0x33 f) o (builtinRuns f) fun src mask => eCdec src mask f)

/-- FGET (R164): the layout of a background item's input stream is not given, so the word read is a free value, the same for both copies of the item. Log entry 164: DESIGN CHOICE. -/
def execFget (q : QId) (e : EngId) (f : FmtA) (o : StoreReads) (s : State) : Out :=
  .next (s.onQuire q fun x => x.w.runOn e.val (encA 0x38 f) o noReads (eFget (Config.inputWord q.val (((x.engine e.val).item.map (·.seq)).getD 0)) f))

/-- RGET (R152, R164, R856). -/
def execRget (q : QId) (e : EngId) (f : FmtB) (o : StoreReads) (s : State) : Out := .next (s.onQuire q fun x => x.w.runOn e.val (encB 0x39 f) o (rgetReads f) (eRget f))

/-- PUT (R164). -/
def execPut (q : QId) (e : EngId) (f : FmtA) (o : StoreReads) (s : State) : Out := .next (s.onQuire q fun x => x.w.runOn e.val (encA 0x3a f) o noReads (ePut f))

/-- DONE (R183). -/
def execDone (q : QId) (e : EngId) (f : FmtA) (o : StoreReads) (s : State) : Out := .next (s.onQuire q fun x => x.w.runOn e.val (encA 0x3e f) o noReads (eDone f))

/-- TRAP (R184). -/
def execTrap (q : QId) (e : EngId) (f : FmtB) (o : StoreReads) (s : State) : Out := .next (s.onQuire q fun x => x.w.runOn e.val (encB 0x3f f) o noReads (eTrap f))

end Sys2Proof.Machine
end

