-- ==== Sys2Proof/Machine/Services.lean ====
section
/-! DEFINITION. What ends longer work of dispatch: phases 4 to 7 of COLLATE (R612 to R615), the check of a reloaded signature (R85 to R88), and the rows that do a whole background item at once (R382, R409 to R415). -/

namespace Sys2Proof.Machine

/-! ### COLLATION_COMPLETE (R312, R315, R612 to R615) -/

/-- Phase 4 over the signatures that derive work (R612, R615): `q` holds the configuration to be committed, `old` the committed one, and the class 2 items have ended.
A signature that is reused keeps its table, head and ratio; its annotation follows the levels and sets now in force. -/
def Quire.phase4 (old q : Quire) : Quire :=
  let made := fun (s : Nat) => match old.derivation with | some d => d.result (q.tableItems s) s | none => { table := [], head := none, chunks := [] }
  (q.validSigs.filter q.derives).foldl (fun n s =>
    let x := n.sig s
    n.setSig s (if old.reuses q s then
        { n.withDerived s { table := x.table, head := x.head, chunks := q.tableChunks s } x with headReady := x.headReady, ratioX100 := x.ratioX100 }
      else n.withDerived s (made s) x)) q

/-- A new threshold, hysteresis or `STROBE_DESKEW` of a pin (R453). -/
def Quire.comparatorMoved (n q : Quire) (p : Nat) : Bool :=
  n.cfg 0x09 (0x100 + 16 * p) ≠ q.cfg 0x09 (0x100 + 16 * p) || n.cfg 0x09 (0x104 + 16 * p) ≠ q.cfg 0x09 (0x104 + 16 * p)
    || fld (n.cfg 0x04 (0x10000 + 4 * p)) 16 16 ≠ fld (q.cfg 0x04 (0x10000 + 4 * p)) 16 16

/-- Phase 6 (R613): the staging copy becomes the committed copy in one step; `n` is the quire with its derived work. Contexts replaced are dropped (R249); those of signatures with class 2 items were dropped before their items ran. -/
def Quire.commit (q n : Quire) (reserve : Nat) : Quire :=
  let worked := match q.derivation with | some d => d.sigs | none => []
  let dropped := fun (i : Nat) => !q.reuses n i && !worked.contains i
  { (((q.invalidate dropped).tmuCause (n.comparatorMoved q) 7).stageCopy).tablesWritten n worked (fun s => match q.derivation with | some d => (d.result (n.tableItems s) s).table | none => []) with
    committed := some q.staging, staging := q.staging, sramShown := n.sramOnly, everCommitted := true, state := .collated, reserveMw := reserve, occupied := none, derivation := none
    sigs := n.sigs.filterMap fun (i, x) =>
      let y := if n.derives i then { x with changed := false, committedMw := x.annotation }
        else { x with annotation := none, committedMw := none, table := [], head := none, headReady := false, changed := true }
      if y = SigState.reset then none else some (i, y) }

/-- A commit that changes `MK_INVERT` makes an edge of the marker's signal (R306, R429); the edges before it keep their directions. -/
def Quire.markersTurn (q old : Quire) (ticks : Nat) : Quire :=
  { q with markers := (List.range 2).map fun m =>
    let x := q.marker m
    if q.markerInvert m = old.markerInvert m then x else { x with edges := (x.active, 4000 * ticks) :: x.edges.map fun e => (!e.1, e.2) } }

/-- A collation fails in a late phase; class 2 items that are left are cancelled (R230, R612). -/
def State.collationFails (s : State) (q : QId) (d : ReplyTo) (st : Byte) (phase key elapsedNs : Nat) : State :=
  (s.onQuire q fun x => ({ x with occupied := none }).w.endDerived).reply d st (phaseDetail phase) (leW (firstAddr q key) ++ leW (BitVec.ofNat 32 elapsedNs))

/-- COLLATION_COMPLETE: phases 4 to 6 once every class 2 item has ended or one has failed; with a changed `VPIN_SET`, the reply waits until VPINq has settled (R315).
Log entries 54, 56: DESIGN CHOICE; log entry 55: DEDUCED. -/
def collationComplete (q : QId) (vpinMv elapsedNs : Nat) (s : State) : State :=
  let x := s.quire q
  match x.occupied with
  | some (.collate d) =>
    match x.derivation.bind (·.failed) with
    | some g => s.collationFails q d stCollation 4 (rk 0x03 (16 * g)) elapsedNs
    | none =>
      if !x.derivedDone then s
      else
        let n := x.phase4 { x with committed := some x.staging }
        let reserve := n.runReserve
        let limit := match x.owner with | some k => s.allocation k | none => 0
        if limit < reserve then s.collationFails q d stBudget 5 0 elapsedNs
        else if n.vpinSet = x.vpinSetpoint then (((s.setQuire q ((x.commit n reserve).markersTurn x s.time.ticks)).setFloor q).retarget.eiEvaluate).reply d stOk 0 (leW 0 ++ leW (BitVec.ofNat 32 elapsedNs))
        else
          ((s.setQuire q { ((x.commit n reserve).markersTurn x s.time.ticks).moveVpin s.time.ticks n.vpinSet with occupied := some (.settle d elapsedNs s.time.ticks) }).setFloor q).retarget.eiEvaluate
  | some (.settle d _ _) =>
    if x.vpinSettled s.time.ticks vpinMv then (s.modQuire q fun x => { x with occupied := none, vpinMv := vpinMv % 65536 }).reply d stOk 0 (leW 0 ++ leW (BitVec.ofNat 32 elapsedNs)) else s
  | _ => s

def execCollationComplete (q : QId) (vpinMv elapsedNs : Nat) (s : State) : Out := .next (collationComplete q vpinMv elapsedNs s)

/-! ### LOAD_CHECK_DONE (R85 to R88, R186, R498) -/

/-- The check of a reloaded signature has ended (R85, R88). -/
def State.loadChecked (s : State) (q : QId) (g : Nat) (d : ReplyTo) (y : SigState) (buf : BufState) (st : Byte) : State :=
  (s.onQuire q fun x => ({ x.setSig g { y with checking := none, buf := buf } with occupied := none }).w.endDerived).reply d st

/-- LOAD_CHECK_DONE: the data fails a check of collation or a class 2 item failed (R86, R186, R498), or all of them have ended and the annotation is compared with the committed one (R87).
Log entry 54: DESIGN CHOICE; log entry 70: DEDUCED. -/
def loadCheckDone (q : QId) (g : Nat) (s : State) : State :=
  let x := s.quire q
  match x.occupied, (x.sig g).checking with
  | some (.loadCheck d), some _ =>
    if x.reloadBad g || (x.derivation.bind (·.failed)).isSome then s.loadChecked q g d (x.sig g) .stale stCollation
    else if !x.derivedDone then s
    else
      let made : Derived := match x.derivation with | some v => v.result (x.tableItems g) g | none => { table := [], head := none, chunks := [] }
      let y := x.withDerived g made (x.sig g)
      let s := s.modQuire q fun x => x.tablesWritten x [g] fun _ => made.table
      if (match y.committedMw, y.annotation with | some a, some b => decide (a < b) | _, _ => false) then s.loadChecked q g d y .stale stBudget
      else s.loadChecked q g d y .loaded stOk
  | _, _ => s

def execLoadCheckDone (q : QId) (sig : Fin 1024) (s : State) : Out := .next (loadCheckDone q sig.val s)

/-! ### Background items done at once (R382, R409 to R415) -/

/-- Place an item on the engine that dispatch chooses for it, and free the engine again: the item runs to its end within the step. -/
def W.runWhole (w : W) (it : Item) : Option (Nat × W) :=
  match w.q.choose it with
  | some (.engine e moved) => some (e, (w.place it e moved soundRead).upd fun q => q.freeEngine e)
  | _ => none

/-- A ready item of the background services. -/
def Quire.readyItem (q : Quire) (p : Item → Bool) : Option Item := q.ready.find? p

/-- CAPTURE_COMPRESSION (R382): the oldest ready item runs on the engine that dispatch chooses, and ends. Log entry 94: DESIGN CHOICE. -/
def W.captureCompression (w : W) (o : SramRead) : W :=
  let w := w.createBg
  match w.q.readyItem fun it => it.kind = .compress with
  | some it => match w.runWhole it with | some (_, w) => w.compressDone it o | none => w
  | none => w

/-- CAPTURE_COMPRESSION (R382, R385 to R387, R398). -/
def execCaptureCompression (q : QId) (o : SramRead) (s : State) : Out := .next (s.onQuire q fun x => x.w.captureCompression o)

/-- A ready repair step of region `r` runs with its shadow copy, each on an engine of its own, and the copies are compared (R237 to R239, R409). Log entry 94: DESIGN CHOICE. -/
def W.repairWhole (w : W) (r phase : Nat) (o : SramRead) (agree : Bool) : W :=
  let w := w.createBg
  match w.q.readyItem fun it => it.kind = .repair && it.region = r && it.index = phase && !it.copy with
  | none => w
  | some it =>
    match w.q.choose it with
    | some (.engine e moved) =>
      let v := w.place it e moved soundRead
      match v.q.readyItem fun y => y.seq = it.seq && y.copy with
      | none => w
      | some c => match v.runWhole c with | some (_, v) => (v.upd fun q => q.freeEngine e).repairCompared it e agree o | none => w
    | _ => w

/-- REPAIR_ANALYSIS_STEP (R409 to R411, R414). -/
def execRepairAnalysisStep (q : QId) (region : Fin 32) (o : SramRead) (agree : Bool) (s : State) : Out :=
  .next (s.onQuire q fun x => x.w.repairWhole region.val 0 o agree)

/-- REPAIR_FINAL_SEARCH (R412 to R415). -/
def execRepairFinalSearch (q : QId) (region : Fin 32) (o : SramRead) (agree : Bool) (s : State) : Out :=
  .next (s.onQuire q fun x => x.w.repairWhole region.val 1 o agree)

end Sys2Proof.Machine
end

