-- ==== Sys2Proof/Machine/Front.lean ====
section
/-! DEFINITION. The timing front: the release stage (R201, R204, R225 to R229, R239 to R241, R497), chunks at the pins with starved data (R132 to R138, R257 to R274), the endpaper's takeovers (R293 to R299) and the edge checker (R276 to R279, R741). -/

namespace Sys2Proof.Machine

/-! ### Release -/

/-- `VOID_CAUSE` codes (R199). -/
abbrev voidTrap : Byte := 0x02
abbrev voidLocalEcc : Byte := 0x03
abbrev voidShadow : Byte := 0x04
abbrev voidCrc : Byte := 0x05
abbrev voidFence : Byte := 0x06

/-- The edge-count table of a chunk (R204, R276). -/
def Quire.edgeTable (q : Quire) (c : Chunk) : List Word :=
  (List.range 32).map fun p =>
    let sets := c.sets.filter q.tsDefined
    packW [(16, (sets.filter fun t => q.tsStrobeEn t p).length % 65536), (0, (sets.map fun t => (q.tsEdges t p).length).sum % 65536)]

/-- A VOID_FAILED marker in place of the chunk of a slot (R199, R227). Log entry 97: DEDUCED. -/
def Quire.voidFailed (q : Quire) (x : Slot) (cause : Byte) (poisoned : Bool) : Chunk :=
  { kind := .voidFailed, voidCause := cause, poisoned := poisoned, last := x.index + 1 = q.sigChunks x.sig, shadowed := x.shadowed, landing := false, sig := x.sig,
    inst := x.inst, index := x.index, vectors := q.chunkVectors x.sig x.index, pinmask := q.sigMask x.sig, seq := x.seq, crc := 0, sets := [], words := [], edges := [], engine := x.engine }

/-- The expected checksum of a chunk beside that of its shadow copy (R201). Log entry 73: DESIGN CHOICE. -/
def Quire.expectedCrc (q : Quire) (c : Chunk) : Option Word :=
  if q.sigHome c.sig = 2 then
    (q.stream.find? fun x => x.sig = c.sig && x.inst = c.inst && x.index = c.index).map (·.crc)
  else if q.hasTable c.sig then some (q.tableWord c.sig c.index)
  else none

/-- A failed release check makes the chunk VOID_FAILED (R228, R240). -/
def W.fails (w : W) (checker : Nat) (counter engine : Nat) (injected : Bool) : W :=
  (w.bump (rk 0x10 counter)).report .alert checker (BitVec.ofNat 8 engine) 0 0 injected

/-- What the slot at the release pointer delivers (R201, R227, R228, R239 to R241). Log entry 97: DEDUCED. -/
def W.judgeSlot (w : W) (x : Slot) (c : Chunk) : Chunk × W :=
  let bad := fun (w : W) (cause : Byte) => (w.q.voidFailed x cause false, w.bump (rk 0x10 0x10C))
  let sh := if x.shadowed then w.check 0x16 x.engine else (false, w)
  if x.shadowed && (sh.1 || x.copyCrc ≠ some c.crc) then bad (sh.2.fails 0x16 0x118 x.engine sh.1) voidShadow
  else
    let ck := sh.2.check 0x15 x.engine
    let want := (ck.2.q.expectedCrc c).getD c.crc
    if ck.1 || c.check ≠ c.crc || want ≠ c.crc then bad (ck.2.fails 0x15 0x11C x.engine ck.1) voidCrc
    else ({ c with edges := ck.2.q.edgeTable c }, ck.2)

/-- The slot holds an ended chunk, both copies of a shadowed one, or a void marker (R225, R239). -/
def Slot.isEnded (x : Slot) : Bool := x.cancelled || (x.primaryEnded && (!x.shadowed || x.copyEnded))

/-- The chunk's entry of a DRAM-home checksum table is still being read (R201, R469). -/
def Quire.entryPending (q : Quire) (seq : Nat) : Bool := (q.dram.queue ++ q.dram.issued).any fun r => !r.write && r.seq = tableSeq seq

/-- The slot leaves the release stage; STREAM data leaves the window (R857). -/
def Quire.advance (q : Quire) (x : Slot) : Quire :=
  let q := { q with slots := q.slots.drop 1, releasePtr := x.seq + 1 }
  if !x.cancelled && q.sigHome x.sig = 2 then q.leaveWindow x.sig x.inst x.index (decide (q.sigChunks x.sig ≤ x.index + 1)) else q

/-- CHUNK_RELEASE (R225): a marker of a cancelled chunk takes its place and plays nothing (R226); a chunk that was late is discarded (R137). The pointer waits for a late slot that has not ended, as for any other (R225), so that a chunk behind it may come late too. Log entry 97: DEDUCED; log entry 182: DESIGN CHOICE. -/
def W.chunkRelease (w : W) : W :=
  match w.q.slots with
  | [] => w
  | x :: _ =>
    if !x.isEnded || decide (8 ≤ w.q.fifo.length) || (!x.cancelled && w.q.entryPending x.seq) then w
    else if x.cancelled || x.late then w.upd fun q => q.advance x
    else
      let r := if x.poisoned then (w.q.voidFailed x 0 true, w.bump (rk 0x11 0x20C)) else match x.trapped, x.primary with
        | some code, _ => (w.q.voidFailed x (if code = trapEcc then voidLocalEcc else voidTrap) false, w.bump (rk 0x10 0x10C))
        | none, some c => w.judgeSlot x c
        | none, none => (w.q.voidFailed x voidTrap false, w.bump (rk 0x10 0x10C))
      r.2.upd fun q => { q.advance x with fifo := q.fifo ++ [r.1] }

/-- CHUNK_RELEASE (R137, R201, R225 to R228, R239 to R241, R497, R857). -/
def execChunkRelease (q : QId) (s : State) : Out := .next (s.onQuire q fun x => x.w.chunkRelease).takeStreams

/-! ### Vectors at the pins (R257 to R274) -/

/-- `DRIVE_DESKEW` of a pin (R285). -/
def Quire.driveDeskew (q : Quire) (p : Nat) : Int := sfld (q.cfg 0x04 (0x10000 + 4 * p)) 0 16

/-- What an edge of kind `kind` does to the driver for a cell code (R257, R259); a DK cell, and a RETURN for any code but D0 to D3, leave it unchanged. -/
def Quire.edgeDrive (q : Quire) (t p code kind : Nat) : Option Drive :=
  if kind = 1 then (if code = 5 then none else some (driveOf code .highZ))
  else if 4 ≤ code then none
  else match q.tsFormat t p with | 1 => some (.level ⟨q.tsReturn t p % 4, Nat.mod_lt _ (by decide)⟩) | 2 => some .highZ | _ => none

/-- The drive edges that move pin `p` in the vectors of the sets given, the first of them vector `v`, which starts at `b`: each at B + `EDGE_T` + `DRIVE_DESKEW`, in its timing-clock cycle with its fine delay (R267 to R269, R272). -/
def Quire.pinEvents (q : Quire) (c : Chunk) (p : Nat) : Nat → List Nat → Nat → Nat → List PinEvent
  | _, [], _, _ => []
  | hold, t :: rest, v, b =>
    if q.tsDefined t then
      ((q.tsEdges t p).filterMap fun e => (q.edgeDrive t p (c.code p v) e.2.1).map fun d =>
        let x := placed (b + e.2.2 + q.driveDeskew p)
        { pin := p, cycle := x.1, fine := x.2, drive := d : PinEvent })
        ++ q.pinEvents c p (q.tsPeriod t) rest (v + 1) (b + q.tsPeriod t)
    else q.pinEvents c p hold rest (v + 1) (b + hold)

/-- The drive edges that a chunk launches on its pins; pins outside the mask play DK cells (R70). -/
def Quire.chunkEvents (q : Quire) (c : Chunk) (hold start : Nat) : List PinEvent :=
  (pinsOf c.pinmask).flatMap fun p => q.pinEvents c p hold (c.sets.take c.vectors) 0 start

/-- The drive edges of a chunk are launched: those before the end of its vectors act, and the others spill (R268, R288, R290). Log entry 36: DESIGN CHOICE. -/
def Quire.drives (q : Quire) (c : Chunk) (hold : Nat) : Quire :=
  { q with spilled := q.spilled ++ q.chunkEvents c hold q.elapsed }.firePins (q.elapsed + q.spanOf hold c.sets c.vectors)

/-- Cells of the played vectors of a chunk for which `f` holds, by code, set and pin. Log entries 87, 98: DEDUCED. -/
def Quire.cellsWhere (q : Quire) (c : Chunk) (f : Nat → Nat → Nat → Bool) : Nat :=
  ((pinsOf c.pinmask).map fun p => ((List.range c.vectors).filter fun v => q.tsDefined (c.sets.getD v 64) && f (c.code p v) (c.sets.getD v 64) p).length).sum

/-- The last defined set of a chunk. -/
def Quire.lastDefined (q : Quire) (c : Chunk) : Option Nat := (c.sets.filter q.tsDefined).getLast?

/-- An instance begins at the pins (R114, R303, R399, R419, R453, R667). Log entry 85: DEDUCED. -/
def W.beginInstance (w : W) (c : Ctx) (d : Due) : W :=
  let w := w.bump (rk 0x01 0x200)
  let w := w.upd fun q =>
    let r := if d.block.alloc ≤ d.block.begun then q.giveInst d.block else (d.block, q)
    let b := r.1
    let q := r.2
    let i : Inst := {
      id := q.nextInstId, entry := b.entry, sig := b.sig, inst := b.inst b.begun, fails := 0,
      causes := if c.timeBad then BitVec.ofNat 16 (2 ^ cbTime) else 0, k := b.begun, hold := none, endedAt := 0, recSeq := none }
    let b' := { b with begun := b.begun + 1 }
    { q with
      insts := q.insts ++ [i], nextInstId := q.nextInstId + 1
      seq := { q.seq with plan := b' :: q.seq.plan.drop 1, entry := b.entry } }
  let w := w.markerFire 2 fun m => fld (w.q.markerCtrl m) 8 8 = d.block.entry
  let w := w.markerFire 3 fun m => fld (w.q.markerCtrl m) 16 10 = d.block.sig
  let w := if d.block.op = 7 then w.upd fun q => q.beginMatch d.block else w
  if w.q.trEn && w.q.trSig = d.block.sig then
    w.upd fun q =>
      let q := if d.block.begun = 0 then q.closeSweep else q
      let x := q.sweep.getD { first := q.nextInstId - 1, points := [], ended := false }
      { q with sweep := some { x with points := x.points ++ [0] } }.tmuCause (bit q.trPins) 8
  else w

/-- The stretch that begins at the pins for the due chunk. -/
def Quire.stretch (q : Quire) (d : Due) (chunk : Option Chunk) : Play :=
  let i := (q.insts.filter fun x => x.hold.isNone).getLast?
  { entry := d.block.entry, instId := (i.map (·.id)).getD 0, index := d.index, vectors := q.chunkVectors d.block.sig d.index
    isLast := decide (q.sigChunks d.block.sig ≤ d.index + 1), chunk := chunk, firstVec := q.vecCount, startsAt := q.elapsed, hold := q.holdPeriod
    training := if q.trEn && q.trSig = d.block.sig then i.map (·.k) else none, nextVec := 0, mismatched := false }

/-- What is at the pins leaves them for the next stretch. -/
def Quire.follow' (q : Quire) : Quire := match q.playing with | some p => q.retire p | none => q

/-- 64 ns in units of 0.25 ps: an instance shorter than that begins after the decision point of its end (R115). -/
abbrev decisionSpan : Nat := 256000

/-- A stretch of a MATCH_JUMP's instance begins: its `n` match compares are outstanding, those after the decision point too (R116 to R120, R122). -/
def W.matchGoesOn (w : W) (n : Nat) (isLast : Bool) : W :=
  match w.q.seq.cond, w.q.playing with
  | some c, some p =>
    if c.entry = p.entry && c.resolved.isNone then
      let short := isLast && p.index = 0 && decide (w.q.elapsed - p.startsAt < decisionSpan)
      (w.upd fun q => { q with seq := { q.seq with cond := some { c with
        outstanding := c.outstanding + n, lastIssued := c.lastIssued || isLast, late := c.late || short } } }).settleMatch
    else w
  | _, _ => w

/-- The played chunk that a comparison of the endpaper waits for is that of the stretch that begins (R293). -/
def Endpaper.compares (e : Endpaper) (inst : Nat) : Endpaper := if e.comparing && e.compared.isNone then { e with compared := some inst } else e

/-- FAIL events of markers that waited for a vector find it in the stretch that has begun (R303). -/
def W.markerStretch (w : W) (p : Play) : W := w.markerAwaited fun t => w.q.vectorFrom p t

/-- Hold vectors take the place of a chunk (R136, R227, R273): the pins keep their state but for edges that spill into them (R290), with compares masked. -/
def W.holdChunk (w : W) (d : Due) (cause : Nat) : W :=
  let p := w.q.stretch d none
  let w := (w.causeInst p.instId cause).upd fun q =>
    { q.follow'.firePins (q.elapsed + p.vectors * q.holdPeriod) with
      playing := some p, elapsed := q.elapsed + p.vectors * q.holdPeriod, vecCount := q.vecCount + p.vectors }
  (w.markerStretch p).matchGoesOn 0 p.isLast

/-- A starved chunk outside a stall-safe entry is skipped whole (R136 to R138); the underrun counters step where the skip begins. Log entry 184: DESIGN CHOICE. -/
def W.skipChunk (w : W) (d : Due) : W :=
  let n := w.q.chunkVectors d.block.sig d.index
  let w := w.bump64 (rk 0x01 0x208) n
  let w := if w.q.skipping then w else w.bump (rk 0x01 0x204)
  let w := w.upd fun q =>
    { q.modSig d.block.sig (fun x => { x with underrun := true }) with
      skipping := true
      slots := q.slots.map fun (x : Slot) => if x.sig = d.block.sig ∧ some x.inst = d.inst ∧ x.index = d.index ∧ !x.cancelled then { x with late := true } else x }
  w.holdChunk d cbUnderrun

/-- The vectors of a chunk play (R70 to R74, R257 to R261, R267 to R272). Log entry 36: DESIGN CHOICE. -/
def W.playChunk (w : W) (d : Due) (c : Chunk) : W :=
  let q := w.q
  let p := q.stretch d (some c)
  let undefinedSets := ((List.range c.vectors).filter fun v => !q.tsDefined (c.sets.getD v 64)).length
  let badCells := q.cellsWhere c fun code _ _ => reservedCode code
  let unstrobed := q.cellsWhere c fun code t i => expects code && !q.tsStrobeEn t i
  let compares := if q.bindOp d.block.entry = 7 then q.comparesIn c (q.bindMatch d.block.entry) else 0
  let w := if undefinedSets = 0 then w else (w.bump (rk 0x04 0x11008) undefinedSets).causeInst p.instId cbUndefinedSet
  let w := if badCells = 0 then w else (w.bump (rk 0x01 0x21C) badCells).causeInst p.instId cbBadCell
  let w := if unstrobed = 0 then w else w.bump (rk 0x04 0x1100C) unstrobed
  let w := w.upd fun q =>
    { q.follow'.drives c p.hold with
      playing := some p, endpaper := q.endpaper.compares p.instId, elapsed := q.elapsed + q.spanOf p.hold c.sets c.vectors, vecCount := q.vecCount + c.vectors
      seq := { q.seq with lastSet := match q.lastDefined c with | some t => some t | none => q.seq.lastSet
                          ozPlayed := q.seq.ozPlayed || (c.sets.take c.vectors).any fun t => q.tsDefined t && q.tsOz t } }
  (w.markerStretch p).matchGoesOn compares p.isLast

/-- The due chunk is taken from the landing stage or from the event FIFOs. Log entry 36: DESIGN CHOICE; log entry 98: DEDUCED. -/
def W.takeDue (w : W) (d : Due) : W :=
  if d.fromLanding then w.upd fun q => { q with seq := { q.seq with landing := none } }.freeDeferred
  else w.upd fun q => { q with fifo := q.fifo.drop 1 }.noteFill

/-- The release sequence that stands for the landing head with which instance `id` begins (R199, R278). Log entry 175: DESIGN CHOICE. -/
abbrev playedHead (id : Nat) : Nat := 2 ^ 112 + id

/-- The head takes the instance that it begins, and a number of its own in place of a release sequence. Log entry 175: DESIGN CHOICE. -/
def Quire.headOf (q : Quire) (d : Due) (c : Chunk) : Chunk := { c with seq := playedHead q.nextInstId, inst := d.inst.getD c.inst, edges := q.edgeTable c }

/-- A landing head on its way to the pins: it is read from the signature buffers (R743, R862), its checksum is computed again and compared with the value of its making (R33, R201, R228),
and its edge-count table is filled (R204). Other chunks have passed the release stage. -/
def W.headCheck (w : W) (d : Due) (c : Chunk) (o : SramRead) : Chunk × W :=
  if d.fromLanding then
    let r := w.check 0x17 0x80
    if r.1 || o.outcome = .uncorrectable then
      ({ c with kind := .voidFailed, voidCause := voidLocalEcc },
       ((r.2.bump (rk 0x10 0x10C)).upd fun q => q.modSig c.sig fun x => { x with buf := .stale, damaged := true }).report .alert 0x17 0x80 0 o.entry r.1)
    else
      let ck := r.2.check 0x15 c.engine
      if ck.1 || c.check ≠ c.crc then ({ c with kind := .voidFailed, voidCause := voidCrc }, (ck.2.fails 0x15 0x11C c.engine ck.1).bump (rk 0x10 0x10C))
      else (ck.2.q.headOf d c, ck.2)
  else (c, w)

/-- CHUNK_DUE: a STOP or a host PAUSE that is due takes its boundary first; `o` is how the signature buffers give a landing head (R743). -/
def W.chunkDue (w : W) (c : Ctx) (o : SramRead) : W :=
  if w.q.state ≠ .running || w.q.stopReq.isSome then w
  else
    match w.q.dueChunk with
    | none => w
    | some d =>
      let safe := w.q.bindStall d.block.entry
      let ch? := w.q.present d
      if safe && (ch?.isNone || w.q.pausePending) then w.pauseAt c d.block.entry w.q.pausePending
      else
        match ch? with
        | none => ((w.when d.fromLanding fun w => w.takeDue d).when d.begins fun w => w.beginInstance c d).skipChunk d
        | some ch =>
          let h := w.headCheck d ch o
          let w := h.2.takeDue d
          let w := (w.when d.begins fun w => w.beginInstance c d).upd fun q => { q with skipping := false }
          if h.1.kind = .data then (w.when d.fromLanding fun w => w.markerFire 5 fun _ => true).playChunk d h.1
          else w.holdChunk d (if h.1.poisoned then cbPoisoned else cbVoidFailed)

/-- CHUNK_DUE (R36, R132 to R138, R227, R229, R257 to R274, R303, R399). -/
def execChunkDue (q : BufferStep) (s : State) : Out := .next (if s.timingRuns then s.onQuire q.quire fun x => x.w.chunkDue s.ctx { outcome := q.buffer, entry := q.line } else s)

/-! ### The endpaper (R293 to R299) -/

/-- The instance of the played chunk at the pins, unless the stretch has ended and the next one is due. -/
def Quire.atPinsNow (q : Quire) (c : Ctx) : Option Nat :=
  if c.ticks * 4000 < q.position then (match q.playing with | some p => if p.chunk.isSome then some p.instId else none | none => none) else none

/-- EP_JOIN_DONE (R293, R296 to R298): the calibration is loaded and, while RUNNING, a chunk boundary of played vectors has come. -/
def W.epJoinDone (w : W) (c : Ctx) : W :=
  let e := w.q.endpaper
  let ready := e.phase = .joining || (e.phase = .handingBack && !e.comparing)
  if !ready then w
  else if w.q.state ≠ .running then w.epMove c true
  else if e.phase = .joining && e.forced then w.epMove c false
  else w.upd fun q => { q with endpaper := { q.endpaper with phase := if e.phase = .joining then .comparing else e.phase, comparing := true, compared := q.atPinsNow c } }

def execEpJoinDone (q : QId) (s : State) : Out := .next (s.onQuire q fun x => x.w.epJoinDone s.ctx)

/-- EP_SWITCH (R293, R294, R297, R299): the compared chunk agreed, or the takeover or hand-back is aborted. -/
def W.epSwitch (w : W) (c : Ctx) (agreed : Bool) : W :=
  let e := w.q.endpaper
  let comparing := e.phase = .comparing || (e.phase = .handingBack && e.comparing)
  if !comparing then w
  else if agreed then (w.epMove c false).upd fun q => { q with endpaper := { q.endpaper with comparing := false } }
  else (((match e.compared with | some i => w.causeInst i cbEndpaper | none => w.causePlaying cbEndpaper)).epAbort 0x01).log 0x12 3 (packW [(8, e.pin), (0, 1)]) 0 0

def execEpSwitch (q : QId) (agreed : Bool) (s : State) : Out := .next (s.onQuire q fun x => x.w.epSwitch s.ctx agreed)

/-! ### The edge checker (R276 to R279, R741) -/

/-- The generator that serves a pin: its own, or the endpaper as 32 (R279). -/
def Quire.generator (q : Quire) (p : PinId) : Nat := if q.endpaper.drives = some p then 32 else p.val

/-- The chunk of a release sequence is counted in `EDGE_MISMATCHES`. -/
def Quire.markMismatch (q : Quire) (seq : Nat) : Quire :=
  let f := fun (p : Play) => match p.chunk with | some c => if c.seq = seq then { p with mismatched := true } else p | none => p
  { q with playing := q.playing.map f, recent := q.recent.map f }

/-- Events fired less those expected on a pin by a chunk: by the checking decoder, or else by the counts beside the edge-count table (R276, R277). Log entry 100: DEDUCED. -/
def edgeDiff (k : EdgeCheck) (word : Word) : Int :=
  if k.missing ≠ 0 ∨ k.extra ≠ 0 then k.extra - k.missing else (k.drives : Int) + k.strobes - fld word 0 16 - fld word 16 16

/-- A chunk's events on a pin are those that its sets define (R277): none missing, none extra, and both counts as in the edge-count table. -/
def edgesClean (k : EdgeCheck) (word : Word) : Bool := k.missing = 0 && k.extra = 0 && k.drives = fld word 0 16 && k.strobes = fld word 16 16

/-- EDGE_MISMATCH: the checks of the chunk of a release sequence, at the pins or just past them, on the generator of a pin (R277, R278, R741). Log entry 100: DEDUCED. -/
def W.edgeMismatch (w : W) (c : Ctx) (p : PinId) (seq : Nat) (k : EdgeCheck) : W :=
  match w.q.playOf seq with
  | none => w
  | some x =>
    let word := match x.chunk with | some h => h.edges.getD p.val 0 | none => 0
    let g := w.q.generator p
    let r := w.check 0x14 p.val
    let w := r.2
    let n := sget (fun _ => 0) g w.q.edgeBad + 1
    let put := fun (n : Nat) (q : Quire) => { q with edgeBad := sput (fun _ => 0) g n q.edgeBad }
    if edgesClean k word && !r.1 then w.upd (put 0)
    else
      let w := if x.mismatched then w else (w.bump (rk 0x04 0x11004)).upd fun q => q.markMismatch seq
      let w := (w.upd (put n)).cause c cbEdge 1000
      let w := w.report .alert 0x14 (BitVec.ofNat 8 p.val) 0 (edgeDiff k word) r.1
      if 4 ≤ n then w.report .quire 0x14 (BitVec.ofNat 8 p.val) 0x06 (edgeDiff k word) r.1 else w

def execEdgeMismatch (q : QId) (pin : PinId) (seq : Nat) (k : EdgeCheck) (s : State) : Out := .next (s.onQuire q fun x => x.w.edgeMismatch s.ctx pin seq k)

end Sys2Proof.Machine
end

