-- ==== Sys2Proof/Machine/PinElec.lean ====
section
/-! DEFINITION. The checks of the pin electronics: driver readback (R337 to R342), DAC checks (R340 to R342), clamps (R332, R333), the window of VPINq (R39, R40, R313, R314, R756), and the window path of VCORE (R745). -/

namespace Sys2Proof.Machine

/-! ### Readback -/

/-- Shift of the thresholds of a pin in units of 0.5 mV during a training instance (R419, R420). -/
def Quire.thresholdShift (q : Quire) (p : Nat) : Int :=
  match q.playing with
  | some y =>
    match y.training with
    | some k => if bit q.trPins p then 2 * (q.vStart + (k / q.tSteps * q.vStep : Nat)) else 0
    | none => 0
  | none => 0

/-- The thresholds of a pin in force, in units of 0.5 mV. -/
def Quire.thresholdsNow (q : Quire) (p : Nat) : List Int := (List.range 3).map fun t => (q.threshold p t : Int) + q.thresholdShift p

/-- The regions that readback accepts for a level code (R326, R339): that of the level, and both beside a threshold within 30 mV. -/
def acceptedRegions (ts : List Int) (v : Int) : List Nat :=
  let own := (ts.filter fun t => decide (t ≤ v)).length
  own :: (List.range 3).flatMap fun k => if |v - ts.getD k 0| ≤ 60 then [k, k + 1] else []

/-- The driver state that readback judges against: high impedance while the PMU holds a pin that is not its own (R363). Log entries 35, 111: DEDUCED. -/
def Quire.driveNow (q : Quire) (p : Nat) : Drive :=
  match q.pmu with
  | some j => if j.pin = p then .highZ else q.pins.getD p .highZ
  | none => q.pins.getD p .highZ

/-- The termination of a pin is on: not while the PMU holds a pin that is not its own (R363). Log entries 35, 111: DEDUCED. -/
def Quire.termNow (q : Quire) (p : Nat) : Bool :=
  bit q.termOn p && match q.pmu with | some j => j.pin ≠ p | none => true

/-- `RB_LAST` causes (R347). -/
abbrev rbLevel : Nat := 1
abbrev rbEnable : Nat := 2
abbrev rbDac : Nat := 3

/-- What a sample finds wrong (R338, R339, R357); 0 = nothing. An injected sample finds the driven level wrong, or the enable of a pin that does not drive. Log entries 35, 100: DEDUCED. -/
def Quire.readbackFault (q : Quire) (p : Nat) (enabled : Bool) (region : Nat) (injected : Bool) : Nat :=
  match q.driveNow p with
  | .highZ => if enabled || injected then rbEnable else 0
  | .level v =>
    if !enabled then rbEnable
    else if injected then rbLevel
    else if (acceptedRegions (q.thresholdsNow p) (q.level p v.val)).contains region then 0 else rbLevel

/-- READBACK_SAMPLE (R337 to R342). Log entry 35: DEDUCED. -/
def W.readback (w : W) (c : Ctx) (p : PinId) (enabled : Bool) (region : Nat) : W :=
  if w.q.state = .off then w
  else
    let r := w.check 0x13 p.val
    let w := r.2
    let bad := w.q.readbackFault p.val enabled region r.1
    if bad = 0 then w.upd fun q => { q with rbFailed := clrBit q.rbFailed p.val }
    else
      let again := bit w.q.rbFailed p.val
      let w := (w.bump (rk 0x09 0x1000)).setLive (rk 0x09 0x100C) (packW [(8, p.val), (0, bad)])
      let w := (w.cause c cbPinCheck 2000).upd fun q => { q with rbFailed := setBit q.rbFailed p.val }
      let w := w.report .alert 0x13 (BitVec.ofNat 8 p.val) 0 0 r.1
      if again then w.report .quire 0x13 (BitVec.ofNat 8 p.val) 0x05 0 r.1 else w

/-- READBACK_SAMPLE (R337 to R342, R357). Log entry 151: DESIGN CHOICE. -/
def execReadbackSample (q : QId) (pin : PinId) (enabled : Bool) (region : Fin 4) (s : State) : Out :=
  .next (s.onQuire q fun x => x.w.readback s.ctx pin enabled region.val)

/-! ### DAC checks -/

/-- The voltage of a DAC's code in µV (R316, R320, R323, R327). -/
def Quire.dacMicroVolt (q : Quire) (p : Nat) : DacKind → Int
  | .level v => 500 * q.level p v.val
  | .vtt => 500 * q.vtt p
  | .threshold t => 500 * q.threshold p t.val
  | .clampLo => 1000 * q.clampLo p - 500000
  | .clampHi => 1000 * q.clampHi p - 500000

def dacIsClamp : DacKind → Bool
  | .clampLo | .clampHi => true
  | _ => false

/-- DAC_CHECK (R340 to R342, R742): the voltage that the monitor ADC measures, in µV. Log entries 35, 102: DEDUCED. -/
def W.dacCheck (w : W) (c : Ctx) (p : PinId) (dac : DacKind) (microVolt : Int) : W :=
  if w.q.state = .off then w
  else
    let r := w.check 0x12 (p.val + if dacIsClamp dac then 0x20 else 0)
    let w := r.2
    let error := microVolt - w.q.dacMicroVolt p.val dac
    if |error| ≤ 8000 && !r.1 then w
    else
      let w := (w.bump (rk 0x09 0x1004)).setLive (rk 0x09 0x100C) (packW [(8, p.val), (0, rbDac)])
      let w := w.cause c cbPinCheck 20000
      let mv := error.tdiv 1000
      (w.report .alert 0x12 (BitVec.ofNat 8 p.val) 0 mv r.1).report .quire 0x12 (BitVec.ofNat 8 p.val) (if dacIsClamp dac then 0x04 else 0x03) mv r.1

/-- DAC_CHECK (R340 to R342, R742). Log entry 151: DESIGN CHOICE. -/
def execDacCheck (q : QId) (pin : PinId) (dac : DacKind) (microVolt : Int) (s : State) : Out :=
  .next (s.onQuire q fun x => x.w.dacCheck s.ctx pin dac microVolt)

/-! ### Clamps -/

/-- The overload of a pin ends, and with it the condition behind its record (R756, R757). -/
def W.endOverload (w : W) (p : PinId) : W := (w.upd fun q => { q with overloaded := clrBit q.overloaded p.val }).settleRecords

/-- An overload of a pin's clamp is reported as a quire fault (R333). -/
def W.reportOverload (w : W) (p : PinId) (injected : Bool) : W := w.report .quire 0x11 (BitVec.ofNat 8 p.val) 0x02 0 injected

/-- CLAMP_OVERCURRENT (R332) is a measurement of the pin's clamp current and takes one injected check, the tenth of which meets the condition (R862); a current of at most 50 mA ends the pin's clamp overload. Log entry 101: DEDUCED. -/
def W.clampOvercurrent (w : W) (p : PinId) (peakMa : Nat) : W :=
  if w.q.state = .off then w
  else
    let tenth := nthInjected 0x11 p.val 10 w.q.injections
    let w := (w.check 0x11 p.val).2
    let w := if peakMa ≤ 50 then w.endOverload p else w
    let w := if peakMa ≤ 20 then w else (w.bump (rk 0x09 0x1008)).log 0x13 4 (packW [(8, p.val), (0, min peakMa 255)]) 0 0
    w.when tenth (W.reportOverload · p true)

/-- CLAMP_OVERCURRENT (R332). -/
def execClampOvercurrent (q : QId) (pin : PinId) (peakMa : Nat) (s : State) : Out := .next (s.onQuire q fun x => x.w.clampOvercurrent pin peakMa)

/-- `n` measurements of a pin's clamp current in a row, each of which takes an injected check where one waits (R862). -/
def W.clampChecks (p : PinId) : Nat → W → W
  | 0, w => w
  | n + 1, w =>
    let tenth := nthInjected 0x11 p.val 10 w.q.injections
    W.clampChecks p n ((w.check 0x11 p.val).2.when tenth (W.reportOverload · p true))

/-- CLAMP_OVERLOAD (R333): ten measurements in a row above 50 mA. A lasting condition of the pin begins, and is reported once while it lasts (R756). Log entry 101: DEDUCED. -/
def W.clampOverload (w : W) (p : PinId) : W :=
  if w.q.state = .off then w
  else
    let began := !bit w.q.overloaded p.val
    ((w.clampChecks p 10).upd fun q => { q with overloaded := setBit q.overloaded p.val }).when began (W.reportOverload · p false)

/-- CLAMP_OVERLOAD (R333, R862). -/
def execClampOverload (q : QId) (pin : PinId) (s : State) : Out := .next (s.onQuire q fun x => x.w.clampOverload pin)

/-! ### VPINq (R313, R314) -/

/-- A comparison of VPINq finds it outside its window, really or by injection (R314, R744): each condition is reported once, where it begins (R756, R862). -/
def W.vpinBad (w : W) (c : Ctx) (mv : Nat) (began injected first : Bool) : W :=
  ((w.cause c cbVpin 5000).when began fun w => w.report .quire 0x10 0xFF 0x01 mv false).when (injected && first) fun w => w.report .quire 0x10 0xFF 0x01 mv true

/-- One comparison of VPINq with its window, at `mv`, which takes one injected check; an OFF quire stays OFF and reports nothing (R39, R313, R314, R756, R862). -/
def W.vpinCompare (w : W) (c : Ctx) (mv : Nat) : W :=
  let first := nthInjected 0x10 0 1 w.q.injections
  let r := w.check 0x10 0
  let real := !w.q.vpinInWindow c.ticks mv
  let off := decide (w.q.state = .off)
  let began := real && !w.q.vpinOut
  let w := (r.2.upd fun q => { q with
    vpinMv := mv % 65536, vpinOk := !real, vpinHeld := q.vpinHeld && !real, vpinOut := real && !off
    vpinGood := if q.vpinOk then q.vpinGood else c.ticks }).settleRecords
  w.when (!off && (real || r.1)) fun w => w.vpinBad c mv began r.1 first

/-- VPIN_OUT_OF_WINDOW (R39, R314): a comparison of VPINq. -/
def execVpinOutOfWindow (q : QId) (mv : Nat) (s : State) : Out := .next (s.onQuire q fun x => x.w.vpinCompare s.ctx mv)

/-- VPIN_IN_WINDOW (R313, R756): a comparison of VPINq; where it finds the rail in window, the lasting condition ends. -/
def execVpinInWindow (q : QId) (mv : Nat) (s : State) : Out := .next (s.onQuire q fun x => x.w.vpinCompare s.ctx mv)

/-- A bank of the flash. -/
def bankId (b : Bool) : Fin 2 := if b then 1 else 0

/-- The pin that the calibration bank in use records as mended (R809, R810). -/
def State.mendedPin (s : State) (q : QId) : Option Nat :=
  let w := s.flash.banks[bankId s.cal.bank].mended.getD q.val 0
  if s.cal.storeValid && bit w 31 then some (fld w 0 5) else none

/-- An OFF quire enters PARKED, and the endpaper takes over its mended pin (R40, R810, R838). -/
def State.leaveOff (s : State) (q : QId) : State :=
  let pin := s.mendedPin q
  s.modQuire q fun x =>
    let x := { x.stageReset with state := .parked }
    match pin with
    | some p => { x.epJoin p false with cal := lmod x.cal p fun e => { e with mended := true } }
    | none => x

/-- VPIN_WINDOW_SETTLED (R40, R838): VPINq has been in window for 1 ms; once boot is complete, an OFF quire enters PARKED. -/
def vpinSettled (q : QId) (mv : Nat) (s : State) : State :=
  let s := (s.onQuire q fun x => x.w.vpinCompare s.ctx mv).modQuire q fun x => { x with vpinHeld := x.vpinOk }
  if (s.quire q).state = .off ∧ (s.quire q).vpinHeld ∧ 9 ≤ s.boot.step then s.leaveOff q else s

def execVpinWindowSettled (q : QId) (mv : Nat) (s : State) : Out := .next (vpinSettled q mv s)

/-! ### VCORE (R745) -/

/-- Quires with an instance in play at some instant of the last `span` ns, whatever has become of its run since. -/
def State.playedWithin (s : State) (span : Nat) : List QId :=
  (List.finRange 8).filter fun q =>
    ((s.quire q).insts.any fun i => i.hold.isNone || decide (s.time.ticks - i.endedAt ≤ span)) || (s.quire q).playedAt.any fun t => decide (s.time.ticks - t ≤ span)

/-- The window of VCORE (R822), in mV. -/
def vcoreInWindow (mv : Nat) : Bool := 680 ≤ mv && mv ≤ 1070

/-- VCORE_WINDOW_CHECK: a comparison of the window path, which takes one injected check. A real excursion and an injected one are conditions of their own; each is reported once, where it begins (R745, R756, R862). -/
def vcoreWindowCheck (mv : Nat) (s : State) : State :=
  let first := nthInjected 0x02 0 1 s.collector.injections
  let r := s.check 0x02 0
  let real := !vcoreInWindow mv
  let began := real && !s.collector.real.getLsbD 2
  let s := r.2.live 0x02 real
  if !real && !r.1 then s
  else
    let qs := s.playedWithin 5000
    let s := s.each qs fun s q => s.onQuire q fun x => x.w.cause s.ctx cbOther 5000
    let s := if began then s.report .alert 0x02 none qs 0xFF 0 0 false else s
    if r.1 && first then s.report .alert 0x02 none qs 0xFF 0 0 true else s

/-- VCORE_WINDOW_CHECK (R745, R756, R822). -/
def execVcoreWindowCheck (mv : Nat) (s : State) : Out := .next (vcoreWindowCheck mv s)

end Sys2Proof.Machine
end

