-- ==== Sys2Proof/Machine/Measure.lean ====
section
/-! DEFINITION. Measurements: the time-measurement units (R427 to R456) and the parametric measurement unit (R348 to R367). -/

namespace Sys2Proof.Machine

/-! ### Time measurement -/

/-- A source code is not reserved (R428). -/
def sourceOk (c : Byte) : Bool := if c.getLsbD 7 then c.toNat % 128 < 2 else c.toNat / 32 % 4 ≠ 3

/-- Source B takes part (R438). Log entry 110: DEDUCED. -/
def usesB (mode : Nat) : Bool := mode = 0 || mode = 2

/-- The refusals of TMU_MEASURE (R449, R450). Log entry 110: DEDUCED. -/
def tmuCheck (oz : Bool) (q : Quire) (p : Params) : Option Refuse :=
  let mode := par p 1 1
  let byte := fun i => par p i 1
  if 8 ≤ byte 0 then rangeAt 0
  else if 4 ≤ mode then rangeAt 1
  else if !sourceOk (BitVec.ofNat 8 (byte 2)) then rangeAt 2
  else if usesB mode && !sourceOk (BitVec.ofNat 8 (byte 3)) then rangeAt 3
  else if 3 ≤ byte 4 then rangeAt 4
  else if 3 ≤ byte 5 then rangeAt 5
  else if 2 ≤ byte 6 then rangeAt 6
  else if 1048576 ≤ par p 8 4 then rangeAt 8
  else if 1048576 ≤ par p 12 4 then rangeAt 12
  else if mode = 0 ∧ par p 16 2 = 0 then rangeAt 16
  else if mode = 0 ∧ par p 18 2 = 0 then rangeAt 18
  else if (mode = 1 ∨ mode = 2) ∧ (par p 20 4 = 0 ∨ 65536 < par p 20 4) then rangeAt 20
  else if par p 24 4 = 0 then rangeAt 24
  else if !t12Ok oz p 28 then rangeAt 28
  else if q.state = .off ∨ q.state = .faulted then some (stState, detState reasonState q.state)
  else if (q.tmus.toList.getD (byte 0) none).isSome then some (stBusy, 0)
  else none

def tmuId (n : Nat) : TmuId := ⟨n % 8, Nat.mod_lt _ (by decide)⟩

/-- The measurement that a TMU_MEASURE asks for. -/
def tmuJob (oz : Bool) (p : Params) (d : ReplyTo) : TmuJob :=
  { mode := par p 1 1, srcA := BitVec.ofNat 8 (par p 2 1), srcB := BitVec.ofNat 8 (par p 3 1), slopeA := par p 4 1, slopeB := par p 5 1, holdA := par p 8 4,
    holdB := par p 12 4, startN := par p 16 2, stopN := par p 18 2, prescale := par p 20 4, gateNs := par p 24 4, startNs := parT12 oz p 28, late := false,
    gateOpen := false, gateClosed := false, gateTime := 0, gateAt := 0, a := .reset, b := .reset, startStamp := none, stopCount := 0, interval := none,
    stampLimit := false, cause := 0, waiter := if par p 6 1 = 1 then some d else none }

/-- The gate opens: this is the time origin of every stamp (R434). Log entry 105: DEDUCED. -/
def TmuJob.opened (j : TmuJob) (ns ticks : Nat) : TmuJob := { j with gateOpen := true, gateTime := ns, gateAt := 4000 * ticks }

def Quire.setTmu (q : Quire) (u : TmuId) (j : TmuJob) : Quire := { q with tmus := q.tmus.set u (some j) }

/-- A training instance that shifts the threshold of a source pin is in progress (R419, R453). Log entry 85: DEDUCED. -/
def Quire.trainsOn (q : Quire) (j : TmuJob) : Bool := (match q.playing with | some p => p.training.isSome | none => false) && j.pins.any (bit q.trPins)

/-- A measurement begins (R434, R435), of CAUSE TRAINING where its source pin is being trained (R453): `LATE`, `MODE` and the sources of `TMU_STATUS` are those of the new one. -/
def Quire.startTmu (q : Quire) (u : TmuId) (j : TmuJob) (ns ticks : Nat) (runs : Bool) : Quire :=
  let passed := decide (j.startNs ≠ 0) && decide (j.startNs < ns)
  let j := { j with late := passed, cause := if q.trainsOn j then 8 else j.cause }
  let j := if runs && decide (j.startNs ≤ ns) then j.opened ns ticks else j
  let key := rk 0x0E (0x40 * u.val)
  (q.setTmu u j).setLive key ((q.liveReg key &&& 0x5F000000) ||| packW [(29, b2n passed), (16, j.mode), (8, j.srcB.toNat), (0, j.srcA.toNat)])

def doTmuMeasure (h : Hdr) (p : Params) (s : State) : State :=
  let q := hdrQuire h
  packet opTmuMeasure h p s (fun s => tmuCheck s.modeOz (s.quire q) p) fun s d =>
    let j := tmuJob s.modeOz p d
    let s' := s.modQuire q fun x => x.startTmu (tmuId (par p 0 1)) j s.time.ns s.time.ticks s.timingRuns
    if j.waiter.isSome then s' else s'.reply d stDeferred

/-- TMU_MEASURE (R434, R435, R449 to R451). -/
def execTmuMeasure (h : Hdr) (p : Params) (s : State) : Out := .next (front .tmuMeasure opTmuMeasure.opcode h p s doTmuMeasure)

/-- TMU_GATE_OPEN (R434): chip time has reached the start time. -/
def tmuGateOpen (q : QId) (u : TmuId) (s : State) : State :=
  match (s.quire q).tmus[u] with
  | some j =>
    if s.timingRuns && !j.gateOpen && decide (j.startNs ≤ s.time.ns) then s.modQuire q fun x => x.setTmu u (j.opened s.time.ns s.time.ticks) else s
  | none => s

def execTmuGateOpen (q : QId) (u : TmuId) (s : State) : Out := .next (tmuGateOpen q u s)

/-- The deskew that a stamp of a source takes (R432). -/
def Quire.stampDeskew (q : Quire) (c : Byte) : Int := match srcPin c with | some p => sfld (q.cfg 0x04 (0x10000 + 4 * p)) 16 16 | none => 0

/-- The slope qualifies the crossing (R430). -/
def slopeTakes (slope : Nat) (rising : Bool) : Bool := if slope = 0 then rising else if slope = 1 then !rising else true

/-- The most stamps of a channel (R442). -/
abbrev stampMost : Nat := 65536

/-- A stamp enters the running sums (R443). -/
def Stamps.stamp (x : Stamps) (t : Int) : Stamps :=
  { x with n := x.n + 1, sumT := x.sumT + t, sumKT := x.sumKT + x.n * t, sumTT := x.sumTT + t * t, lastT := t }

/-- A qualified edge of a fitted channel: the channel, whether the stamp limit is met, whether a stamp came too soon (R441, R442, R446). Log entry 106: DEDUCED. -/
def Stamps.fitted (x : Stamps) (prescale : Nat) (t : Int) : Stamps × Bool × Bool :=
  if stampMost ≤ x.n then (x, true, false)
  else if x.edges % prescale ≠ 0 then (x, false, false)
  else if x.n ≠ 0 ∧ t - x.lastT < 2000 then (x, false, true)
  else (x.stamp t, false, false)

/-- A qualified edge on channel A; `t` is its crossing and `d` its deskew. -/
def TmuJob.edgeA (j : TmuJob) (t d : Int) : TmuJob :=
  let r := if j.mode = 1 || j.mode = 2 then j.a.fitted j.prescale (t - d) else (j.a, false, false)
  let x : Stamps := { r.1 with edges := j.a.edges + 1 }
  let j := { j with stampLimit := j.stampLimit || r.2.1, cause := if r.2.2 ∧ j.cause = 0 then 3 else j.cause, a := x }
  if j.mode = 0 ∧ x.edges = j.startN then { j with startStamp := some t, a := { x with n := 1 } } else j

/-- A qualified edge on channel B: INTERVAL counts those after the start edge (R439). -/
def TmuJob.edgeB (j : TmuJob) (t dA dB : Int) : TmuJob :=
  let r := if j.mode = 2 then j.b.fitted j.prescale (t - dB) else (j.b, false, false)
  let x : Stamps := { r.1 with edges := j.b.edges + 1 }
  let j := { j with stampLimit := j.stampLimit || r.2.1, cause := if r.2.2 ∧ j.cause = 0 then 3 else j.cause, b := x }
  match j.mode, j.startStamp with
  | 0, some s =>
    if s < t then
      let n := j.stopCount + 1
      { j with stopCount := n, interval := if n = j.stopN then some ((t - dB) - (s - dA)) else j.interval }
    else j
  | _, _ => j

/-- The edges of a marker, with the one that its pulse is about to make: whether it becomes active, and the instant. -/
def Quire.markerEdges (q : Quire) (m : Nat) : List (Bool × Nat) :=
  (if (q.marker m).active then (q.markerFall m).toList.map fun t => (false, t) else []) ++ (q.marker m).edges

/-- The source makes the crossing at instant `x` from power-on: a pin's comparator as the outside world has it; a marker only where its signal, `MK_INVERT` applied, has an edge in that direction, to within ±25 ps (R307, R429). Log entry 169: DEDUCED. -/
def Quire.sourceCrosses (q : Quire) (c : Byte) (rising : Bool) (x : Int) : Bool :=
  !c.getLsbD 7 || (q.markerEdges (c.toNat % 2)).any fun e => (e.1 != q.markerInvert (c.toNat % 2)) = rising && decide (|x - e.2| ≤ 100)

/-- The hold-off of a channel runs from an edge at instant `x` (R430). -/
def TmuJob.holdOff (j : TmuJob) (x : Int) : Channel → TmuJob
  | .a => { j with a := { j.a with lastEdge := some x } }
  | .b => { j with b := { j.b with lastEdge := some x } }

/-- A crossing on a channel, `t` units of 0.25 ps after the gate opening or, before that, after the last tick: source, slope and hold-off decide whether it is a qualified edge (R429, R430), and the gate whether that is counted (R437).
A qualified edge outside the gate starts a hold-off like any other. Log entry 105: DEDUCED. -/
def Quire.tmuCrossing (q : Quire) (ticks : Nat) (j : TmuJob) (ch : Channel) (rising : Bool) (t : Int) : TmuJob :=
  let x : Int := (if j.gateOpen then j.gateAt else 4000 * ticks : Nat) + t
  let src := match ch with | .a => j.srcA | .b => j.srcB
  let c := match ch with | .a => (j.a, j.slopeA, j.holdA) | .b => (j.b, j.slopeB, j.holdB)
  let held := match c.1.lastEdge with | some l => decide (x < l + c.2.2) | none => false
  let used := match ch with | .a => true | .b => usesB j.mode
  if !used || !q.sourceCrosses src rising x || !slopeTakes c.2.1 rising || held then j
  else if !j.gateOpen || j.gateClosed || decide (t < 0) || decide (4000 * (j.gateNs : Int) ≤ t) then j.holdOff x ch
  else match ch with
    | .a => (j.edgeA t (q.stampDeskew j.srcA)).holdOff x .a
    | .b => (j.edgeB t (q.stampDeskew j.srcA) (q.stampDeskew j.srcB)).holdOff x .b

/-- Log entry 1: DESIGN CHOICE; log entries 105, 106: DEDUCED. -/
def tmuEdge (q : QId) (u : TmuId) (ch : Channel) (rising : Bool) (t : Int) (s : State) : State :=
  let s := s.onQuire q fun x => x.w.holdOn s.ctx
  match (s.quire q).tmus[u] with
  | some j => s.modQuire q fun x => x.setTmu u (x.tmuCrossing s.time.ticks j ch rising t)
  | none => s

/-- TMU_EDGE (R430 to R432, R437, R439, R441, R442, R446). Log entry 151: DESIGN CHOICE. -/
def execTmuEdge (q : QId) (u : TmuId) (ch : Channel) (rising : Bool) (t : Int) (s : State) : Out := .next (tmuEdge q u ch rising t s)

/-! ### The fit (R443, R444) -/

/-- Slope and intercept of the least-squares line through the stamps, in units of 0.25 ps. Log entry 107: DEDUCED. -/
def Stamps.fit (x : Stamps) : ℚ × ℚ :=
  let n : ℚ := x.n
  let sk := n * (n - 1) / 2
  let skk := (n - 1) * n * (2 * n - 1) / 6
  let b := (n * x.sumKT - sk * x.sumT) / (n * skk - sk * sk)
  (b, (x.sumT - b * sk) / n)

/-- The residual in fs: the RMS of the deviations, rounded down. Log entry 107: DEDUCED. -/
def Stamps.residualFs (x : Stamps) : Nat :=
  let f := x.fit
  let ss : ℚ := (x.sumTT - f.2 * x.sumT - f.1 * x.sumKT) / x.n
  Nat.sqrt (ss * 62500).floor.toNat

/-- Attoseconds of a time in units of 0.25 ps, rounded down. -/
def attoseconds (t : ℚ) : Int := (t * 250000).floor

/-- `a` reduced to 0 up to the period `p`. Log entry 107: DEDUCED. -/
def reduced (a p : ℚ) : ℚ := a - p * ((a / p).floor : Int)

/-- The result words of a measurement that ended with no cause (R438, R443, R444, R456). Log entry 107: DEDUCED. -/
def TmuJob.results (j : TmuJob) : Int × Int × Nat :=
  match j.mode with
  | 0 => (j.interval.getD 0, 0, 0)
  | 1 => (attoseconds (j.a.fit.1 / j.prescale), attoseconds j.a.fit.2, j.a.residualFs)
  | 2 =>
    let p := j.a.fit.1 / j.prescale
    (attoseconds p, attoseconds (reduced (j.b.fit.2 - j.a.fit.2) p), j.a.residualFs)
  | _ => (0, 0, 0)

/-- Why a closed measurement has no valid result (R440, R445). Log entry 108: DESIGN CHOICE. -/
def TmuJob.endCause (j : TmuJob) : Nat :=
  if j.cause ≠ 0 then j.cause
  else if j.mode = 0 ∧ j.interval.isNone then 1
  else if (j.mode = 1 ∨ j.mode = 2) ∧ (j.a.n < 3 ∨ (j.mode = 2 ∧ j.b.n < 3)) then 2
  else 0

/-- The result is published and replied (R451, R456). Log entry 108: DESIGN CHOICE; log entry 107: DEDUCED. -/
def W.tmuPublish (w : W) (oz : Bool) (u : TmuId) (j : TmuJob) : W :=
  let cause := j.endCause
  let w := w.tmuEnd oz u j cause
  let base := 0x40 * u.val
  let r := j.results
  let word := fun (v : Int) (i : Nat) => BitVec.ofNat 32 (ofInt 64 v / 2 ^ (32 * i))
  let w := if cause = 0 then
      [(4, word r.1 0), (8, word r.1 1), (0xC, word r.2.1 0), (0x10, word r.2.1 1), (0x14, BitVec.ofNat 32 r.2.2)].foldl
        (fun (w : W) (x : Nat × Word) => w.setLive (rk 0x0E (base + x.1)) x.2) w
    else w
  match j.waiter with
  | none => w
  | some d => w.ask (.replyLive d stOk 0 (tmuKeys u))

/-- TMU_GATE_CLOSE (R436, R440): the gate time has run; modes without a fit end. Log entry 107: DEDUCED. -/
def W.tmuGateClose (w : W) (oz : Bool) (u : TmuId) : W :=
  match w.q.tmus[u] with
  | some j =>
    if !j.gateOpen || j.gateClosed then w
    else if j.mode = 1 || j.mode = 2 then w.upd fun q => q.setTmu u { j with gateClosed := true }
    else w.tmuPublish oz u j
  | none => w

def execTmuGateClose (q : QId) (u : TmuId) (s : State) : Out := .next (s.onQuire q fun x => x.w.tmuGateClose s.modeOz u)

/-- TMU_FIT_DONE (R443 to R445, R451). -/
def W.tmuFitDone (w : W) (oz : Bool) (u : TmuId) : W :=
  match w.q.tmus[u] with
  | some j => if j.gateClosed then w.tmuPublish oz u j else w
  | none => w

def execTmuFitDone (q : QId) (u : TmuId) (s : State) : Out := .next (s.onQuire q fun x => x.w.tmuFitDone s.modeOz u)

/-! ### The PMU -/

/-- The force parameter, sign-extended. -/
def pmuForce (p : Params) : Int := sext (par p 4 4) 32

/-- A forced voltage in µV (R350). -/
def forcedMicroVolt (code : Int) : Int := 50 * code - 500000

/-- The force parameter is allowed (R350, R351). -/
def Quire.forceOk (q : Quire) (mode pin : Nat) (code : Int) : Bool :=
  let v := forcedMicroVolt code
  match mode with
  | 0 => decide (0 ≤ code) && decide (code < 65536) && decide (-300000 ≤ v) && decide (v ≤ 1000 * ((q.vpinSet : Int) + 300))
      && decide (q.dacMicroVolt pin .clampLo ≤ v) && decide (v ≤ q.dacMicroVolt pin .clampHi)
  | 1 => decide (-32000 ≤ code) && decide (code ≤ 32000)
  | _ => true

/-- The states in which PMU_MEASURE is accepted (R359, R360). -/
def pmuStates (reserved : Bool) : QState → Bool
  | .parked | .staged | .collated | .stopped => true
  | .armed | .running | .paused => reserved
  | _ => false

/-- The refusals of PMU_MEASURE. -/
def pmuCheck (oz : Bool) (q : Quire) (p : Params) : Option Refuse :=
  let pin := par p 0 1
  let mode := par p 1 1
  if 32 ≤ pin then rangeAt 0
  else if 3 ≤ mode then rangeAt 1
  else if mode ≠ 2 ∧ 4 ≤ par p 2 1 then rangeAt 2
  else if 2 ≤ par p 3 1 then rangeAt 3
  else if !q.forceOk mode pin (pmuForce p) then rangeAt 4
  else if 100000 < par p 8 4 then rangeAt 8
  else if par p 12 4 = 0 ∨ 10000 < par p 12 4 then rangeAt 12
  else if par p 16 2 = 0 ∨ 256 < par p 16 2 then rangeAt 16
  else if !t12Ok oz p 20 then rangeAt 20
  else if !pmuStates (bit q.pmuPins pin) q.state then some (stState, detState reasonState q.state)
  else if q.pmu.isSome then some (stBusy, 0)
  else none

/-- A measurement begins: steps 1 to 4 of R363. In MV mode, whose range parameter is ignored, `RANGE` shows the two low bits of that byte (R367). Log entry 168: DESIGN CHOICE; log entry 111: DEDUCED. -/
def Quire.startPmu (q : Quire) (oz : Bool) (p : Params) (d : ReplyTo) : Quire :=
  let j : PmuJob := {
    pin := par p 0 1, mode := par p 1 1, range := par p 2 1 % 4, force := pmuForce p, settleUs := par p 8 4, apertureUs := par p 12 4, samples := par p 16 2
    startNs := parT12 oz p 20, late := false, started := false, timeNs := 0, reserved := bit q.pmuPins (par p 0 1)
    waiter := if par p 3 1 = 1 then some d else none }
  { q with pmu := some j }.setLive (rk 0x0A 0x100) (packW [(26, j.mode), (24, j.range), (16, j.pin)])

def doPmuMeasure (h : Hdr) (p : Params) (s : State) : State :=
  let q := hdrQuire h
  packet opPmuMeasure h p s (fun s => pmuCheck s.modeOz (s.quire q) p) fun s d =>
    let s := s.modQuire q fun x => x.startPmu s.modeOz p d
    if par p 3 1 = 1 then s else s.reply d stDeferred

/-- PMU_MEASURE (R348 to R351, R359 to R363). -/
def execPmuMeasure (h : Hdr) (p : Params) (s : State) : Out := .next (front .pmuMeasure opPmuMeasure.opcode h p s doPmuMeasure)

/-- PMU_APERTURE_START (R364, R365): settling has ended, at chip time `settledNs`, and the start time has come. -/
def Quire.pmuAperture (q : Quire) (oz : Bool) (ns settledNs : Nat) : Quire :=
  match q.pmu with
  | some j =>
    if j.started || decide (ns < j.startNs) then q
    else
      let t := timeWords oz ns
      ((({ q with pmu := some { j with started := true, timeNs := ns, late := decide (j.startNs ≠ 0) && decide (j.startNs < settledNs) } }.setLive
        (rk 0x0A 0x108) t.1).setLive (rk 0x0A 0x10C) t.2.1).setLive (rk 0x0A 0x110) t.2.2)
  | none => q

def execPmuApertureStart (q : QId) (settledNs : Nat) (s : State) : Out := .next (s.modQuire q fun x => x.pmuAperture s.modeOz s.time.ns settledNs)

/-- The result code and `OVER` (R352, R354). Log entry 109: DEDUCED. -/
def pmuCode (v : Int) : Int × Bool := if 131000 < v then (131071, true) else if v < -131000 then (-131072, true) else (v, false)

/-- PMU_MEASURE_DONE (R352 to R355, R363, R365). Log entry 109: DEDUCED. -/
def W.pmuDone (w : W) (value : Int) (limited : Bool) : W :=
  match w.q.pmu with
  | some j =>
    if !j.started then w
    else
      let r := pmuCode value
      let lim := limited && decide (j.mode ≠ 2)
      let w := (w.upd fun q => { q with pmu := none }).setLive (rk 0x0A 0x104)
        (packW [(31, b2n r.2), (30, b2n lim), (29, b2n j.late), (28, 1), (0, ofInt 18 r.1)])
      let w := w.bump (rk 0x0A 0x114)
      let w := if lim then w.bump (rk 0x0A 0x118) else w
      match j.waiter with
      | some d => w.ask (.replyLive d stOk 0 [rk 0x0A 0x100, rk 0x0A 0x104, rk 0x0A 0x108, rk 0x0A 0x10C, rk 0x0A 0x110])
      | none => w
  | none => w

def execPmuMeasureDone (q : QId) (value : Int) (limited : Bool) (s : State) : Out := .next (s.onQuire q fun x => x.w.pmuDone value limited)

end Sys2Proof.Machine
end

