-- ==== Sys2Proof/Machine/Memory.lean ====
section
/-! DEFINITION. The controller of a quire's pattern memory channel: command slots (R472 to R475, R480 to R483), priorities (R470, R471, R473), refresh (R476 to R479, R484), frequency sets (R485 to R490, R726), drift (R494), line integrity, poison and rank migration (R464 to R468, R495 to R505). -/

namespace Sys2Proof.Machine

/-- The channel carries out commands: it is trained, and not in self-refresh for a change of set (R487, R493). -/
def Dram.running (d : Dram) : Bool := d.available && d.changing.isNone

/-! ### Refresh (R476 to R480) -/

/-- The rank is fitted and works (R491, R506). -/
def Dram.refreshes (d : Dram) (rank : Fin 3) : Bool := d.running && decide (d.ranks[rank] ≠ .failed)

/-- Requests that use a physical rank. -/
def Dram.pendingTo (d : Dram) (rank : Nat) : List DramReq := d.queue.filter fun r => (d.ranksOf r).contains rank

/-- The same bank index in all 8 groups of the rank has no pending request. -/
def Dram.idleSet (d : Dram) (rank bank : Nat) : Bool := !(d.pendingTo rank).any fun r => lineBank r.line = bank
/-- Log entry 115: DEDUCED. -/
def Dram.someIdleSet (d : Dram) (rank : Nat) : Bool := [0, 1, 2, 3].any (d.idleSet rank)
def Dram.fetchTo (d : Dram) (rank : Nat) : Bool := (d.pendingTo rank).any fun r => r.port = .fetch

/-- tRFC1 in ns (R476). -/
def Dram.trfc1 (d : Dram) : Nat := if fld d.board 28 2 = 0 then 295 else 410

/-- The rank is being refreshed by an all-bank refresh (R476). -/
def Dram.blocked (d : Dram) (rank : Nat) : Bool := decide (d.clock < d.blockedUntil.toList.getD rank 0)

/-- A refresh of a rank closes its rows, applies the moves of the PHY's delays that wait for it (R494), and is the last command issued. Log entry 116: PRESUMED. -/
def Dram.refreshing (d : Dram) (rank : Nat) : Dram :=
  let m := d.phyDue.getD rank (0, 0)
  { d with
    openRows := d.openRows.filter fun e => keyRank e.1 ≠ rank, lastOther := some (rank, 0)
    phyRead := lmod d.phyRead rank (· + m.1), phyWrite := lmod d.phyWrite rank (· + m.2), phyDue := lset d.phyDue rank (0, 0) }

/-- An all-bank refresh blocks the rank for tRFC1 (R476). Log entry 116: PRESUMED. -/
def Dram.allBank (d : Dram) (rank : Fin 3) : Dram :=
  { d.refreshing rank.val with blockedUntil := d.blockedUntil.set rank (d.clock + d.trfc1) }

/-- Blocks that have ended are forgotten, and those given come into force. -/
def Dram.blockBanks (d : Dram) (l : List BankBlock) : Dram := { d with bankBlocks := (d.bankBlocks.filter fun b => decide (d.clock < b.till)) ++ l }

/-- Four same-bank refreshes, one per bank index, the idle sets first: each blocks its bank of every group for tRFCsb (R476, R478). Log entry 115: DEDUCED; log entry 116: PRESUMED. -/
def Dram.sameBank (d : Dram) (rank : Nat) : Dram :=
  let order := ([0, 1, 2, 3].filter (d.idleSet rank)) ++ [0, 1, 2, 3].filter fun b => !d.idleSet rank b
  let t := Config.tRFCsb (fld d.board 28 2)
  (d.refreshing rank).blockBanks (order.zipIdx.map fun x => { rank := rank, bank := x.1, only := none, since := d.clock + x.2 * t, till := d.clock + (x.2 + 1) * t })

/-- REFRESH_DUE (R478): the first way that applies. One that falls due while the rank still refreshes joins the postponed ones, so that a fetch waits for one tRFC1 at most (R480). Log entries 114, 115: DEDUCED; log entry 116: PRESUMED. -/
def W.refreshDue (w : W) (rank : Fin 3) : W :=
  let d := w.q.dram
  if !d.refreshes rank then w
  else if d.blocked rank.val && decide (d.postponed[rank] < 4) then w.upd fun q => { q with dram := { d with postponed := d.postponed.set rank (d.postponed[rank] + 1) } }
  else if d.someIdleSet rank.val then (w.upd fun q => { q with dram := d.sameBank rank.val }).bump (rk 0x11 0x220) 4
  else if d.fetchTo rank.val && decide (d.postponed[rank] < 4) then
    (w.upd fun q => { q with dram := { d with postponed := d.postponed.set rank (d.postponed[rank] + 1) } }).bump (rk 0x11 0x218)
  else if 4 ≤ d.postponed[rank] then (w.upd fun q => { q with dram := { d with forced := d.forced.set rank true } }).bump (rk 0x11 0x21C)
  else w.upd fun q => { q with dram := d.allBank rank }

def execRefreshDue (q : QId) (rank : Fin 3) (s : State) : Out := .next (s.onQuire q fun x => x.w.refreshDue rank)

/-- REFRESH_REPAY (R479): one postponed refresh of a rank without a pending pattern fetch, when the refresh before it is over (R480). Log entry 115: DEDUCED. -/
def W.refreshRepay (w : W) (rank : Fin 3) : W :=
  let d := w.q.dram
  let n := d.postponed[rank]
  if !d.refreshes rank || n = 0 || d.fetchTo rank.val || d.blocked rank.val then w
  else
    let d := { d with postponed := d.postponed.set rank (n - 1) }
    if d.someIdleSet rank.val then (w.upd fun q => { q with dram := d.sameBank rank.val }).bump (rk 0x11 0x220) 4 else w.upd fun q => { q with dram := d.allBank rank }

def execRefreshRepay (q : QId) (rank : Fin 3) (s : State) : Out := .next (s.onQuire q fun x => x.w.refreshRepay rank)

/-- MR4_READ (R477). -/
def Dram.mr4Read (d : Dram) (anyHot : Bool) : Dram :=
  if !d.available then d
  else if anyHot then { d with hotRefresh := true, coolReads := 0 }
  else if 1 ≤ d.coolReads then { d with hotRefresh := false, coolReads := 2 } else { d with coolReads := d.coolReads + 1 }

def execMr4Read (q : QId) (anyHot : Bool) (s : State) : Out := .next (s.modQuire q fun x => { x with dram := x.dram.mr4Read anyHot })

/-- REFRESH_WINDOW_END (R484). Log entry 120: DEDUCED. -/
def Dram.windowEnd (d : Dram) (rank : Fin 3) : Dram := { d with tables := d.tables.filter fun e => keyRank e.1 ≠ rank.val }

def execRefreshWindowEnd (q : QId) (rank : Fin 3) (s : State) : Out := .next (s.modQuire q fun x => { x with dram := x.dram.windowEnd rank })

/-- DQS_DRIFT_READ (R494): the read and write delays of each rank are to follow its drift; each move waits for a refresh of the rank. -/
def Dram.driftRead (d : Dram) (drift : List (Int × Int)) : Dram :=
  if d.available then
    { d with phyDue := (List.range 3).map fun i =>
        let a := d.phyDue.getD i (0, 0)
        let b := drift.getD i (0, 0)
        if d.ranks.toList.getD i .failed = .failed then a else (a.1 + b.1, a.2 + b.2) }
  else d

def execDqsDriftRead (q : QId) (drift : List (Int × Int)) (s : State) : Out := .next (s.modQuire q fun x => { x with dram := x.dram.driftRead drift })

/-! ### Activations (R481 to R483) -/

/-- `RH_THRESHOLD` (R506). -/
def Quire.rhThreshold (q : Quire) : Nat := fld (q.cfg 0x11 0) 16 15

/-- The first entry of smallest count. -/
def smallest : List (Nat × Nat) → Option (Nat × Nat)
  | [] => none
  | e :: t => match smallest t with
      | some f => if f.2 < e.2 then some f else some e
      | none => some e

/-- An activation of `row` in the table of its bank (R481); the second part is the row's new count. -/
def activate (row : Nat) (t : List (Nat × Nat)) : List (Nat × Nat) × Nat :=
  match t.find? fun e => e.1 = row with
  | some e => (t.map fun f => if f.1 = row then (row, e.2 + 1) else f, e.2 + 1)
  | none =>
    if t.length < 32 then (t ++ [(row, 1)], 1)
    else match smallest t with
      | some m => (t.map fun f => if f.1 = m.1 then (row, m.2 + 1) else f, m.2 + 1)
      | none => (t, 0)

/-- Open a row of a bank: an activation counts, and an entry at the threshold owes a refresh-management command (R481 to R483). -/
def Dram.openRow (d : Dram) (threshold row k : Nat) : Dram :=
  if sfind k d.openRows = some row then d
  else
    let r := activate row ((sfind k d.tables).getD [])
    let owes := decide (threshold ≤ r.2) && !d.rfm.contains (k, row)
    let force := decide (threshold + 512 ≤ r.2) && (owes || d.rfm.contains (k, row)) && !d.rfmForced.contains (k, row)
    { d with openRows := sset k row d.openRows, tables := sset k r.1 d.tables,
             rfm := if owes then d.rfm ++ [(k, row)] else d.rfm, rfmForced := if force then d.rfmForced ++ [(k, row)] else d.rfmForced }

/-- A refresh-management command of a bank is issued: the entry's count returns to 0, and the bank is blocked for tRFCsb, its row closed (R482, R483). Log entry 113: DEDUCED; log entry 116: PRESUMED. -/
def W.issueRfm (w : W) (e : Nat × Nat) : W :=
  (w.upd fun q =>
    let d := q.dram
    { q with dram := { d.blockBanks [{ rank := keyRank e.1, bank := e.1 % 4, only := some e.1, since := d.clock, till := d.clock + Config.tRFCsb (fld d.board 28 2) }] with
        openRows := d.openRows.filter fun x => x.1 ≠ e.1, lastOther := some (keyRank e.1, 0)
        tables := sset e.1 (((sfind e.1 d.tables).getD []).map fun f => if f.1 = e.2 then (f.1, 0) else f) d.tables
        rfm := d.rfm.filter (· ≠ e), rfmForced := d.rfmForced.filter (· ≠ e) } }).bump (rk 0x11 0x224)

/-! ### The choice of a request (R472) -/

/-- Step of R472 that a request belongs to. -/
def DramReq.step (r : DramReq) : Nat := if r.port = .fetch then (if r.high then 1 else 3) else if r.promoted then 2 else 4

/-- Class within step 4 (R469). -/
def DramReq.portClass (r : DramReq) : Nat := match r.port with | .fetch => 0 | .capture => 1 | .hostLoad => 2 | .scratch => 2 | .migration => 3

/-- A same-bank refresh or a refresh-management command blocks a bank at present (R476). -/
def Dram.bankBlocked (d : Dram) (k : Nat) : Bool :=
  d.bankBlocks.any fun b => decide (b.since ≤ d.clock) && decide (d.clock < b.till) && (match b.only with | some j => decide (j = k) | none => decide (keyRank k = b.rank ∧ k % 4 = b.bank))

/-- The requests that may be served, in the order of R472 apart from open rows: the queue is in order of age, and every fetch has the same latency target. -/
def Dram.candidates (d : Dram) : List DramReq :=
  sortBy (fun a b => a.step < b.step || (a.step = b.step && a.step = 4 && a.portClass < b.portClass))
    (d.queue.filter fun r => (d.ranksOf r).all (fun k => !d.blocked k) && (d.banksOf r).all fun k => !d.bankBlocked k)

/-- A request to an open row of the first step goes before the first one of that step, unless that is older by more than 500 ns. -/
def Dram.choose (d : Dram) : Option DramReq :=
  match d.candidates with
  | [] => none
  | f :: t =>
    let isOpen := fun (r : DramReq) => (d.banksOf r).all fun k => decide (sfind k d.openRows = some (lineRow r.line))
    if isOpen f then some f
    else match (t.filter fun r => r.step = f.step).find? isOpen with
      | some o => if o.age ≤ f.age + 500 then some o else some f
      | none => some f

/-- Issue a request: a read waits for its data, and of the writes the last one stays known until the next. Log entry 117: DESIGN CHOICE. -/
def Dram.issue (d : Dram) (threshold : Nat) (r : DramReq) : Dram :=
  let d := (d.banksOf r).foldl (fun d k => d.openRow threshold (lineRow r.line) k) d
  { d with lastOther := none, queue := dropFirst (fun x : DramReq => decide (x = r)) d.queue,
           issued := (if r.write then d.issued.filter (fun x => !x.write) else d.issued) ++ [r] }

/-- A forced refresh of the rank may be issued: the refresh before it is over, and the fetches that waited for that have gone first (R478, R480). Log entry 114: DEDUCED. -/
def Dram.mayForce (d : Dram) (rank : Fin 3) : Bool :=
  d.forced[rank] && !d.blocked rank.val && !(d.pendingTo rank.val).any fun r => r.port = .fetch && decide (r.age < d.blockedUntil[rank])

/-- DRAM_COMMAND_SLOT: a forced refresh first, then a forced refresh-management command; otherwise the refresh-management commands owed to idle banks, and the chosen request. Log entries 113, 114: DEDUCED. -/
def W.commandSlot (w : W) : W :=
  let d := w.q.dram
  if !d.running then w
  else
    match ([0, 1, 2] : List (Fin 3)).find? d.mayForce with
    | some r => w.upd fun q => { q with dram := { d.allBank r with forced := d.forced.set r false } }
    | none =>
      match d.rfmForced with
      | e :: _ => (w.issueRfm e).bump (rk 0x11 0x228)
      | [] =>
        let idle := d.rfm.filter fun e => !d.queue.any fun r => (d.banksOf r).contains e.1
        let w := w.each idle W.issueRfm
        match d.choose with
        | some r => w.upd fun q => { q with dram := q.dram.issue q.rhThreshold r }
        | none => w

/-- DRAM_COMMAND_SLOT (R461, R472, R480 to R483). -/
def execDramCommandSlot (q : QId) (s : State) : Out := .next (s.onQuire q fun x => x.w.commandSlot).takeStreams

/-! ### Age (R470, R471, R473) -/

/-- Latency target of a pattern fetch, in ns (R470). -/
def Quire.latencyTarget (q : Quire) : Nat := fld (q.cfg 0x01 4) 0 17 / 2

/-- Change the first request that satisfies `p`. -/
def Dram.first (d : Dram) (p : DramReq → Bool) (f : DramReq → DramReq) : Dram := { d with queue := lfirst p f d.queue }

/-- FETCH_DEADLINE: the fetch that passes half its target, or its deadline, the sooner; on a tie the deadline. Log entry 120: DEDUCED. -/
def Quire.fetchDeadline (q : Quire) : Dram :=
  let d := q.dram
  let t := q.latencyTarget
  let low := fun (r : DramReq) => r.port = .fetch && !r.high
  let late := fun (r : DramReq) => r.port = .fetch && r.high && !r.critical
  let rise := d.first low fun r => { r with high := true }
  let pass := d.first late fun r => { r with critical := true }
  match d.queue.find? low, d.queue.find? late with
  | some a, some b => if b.age + t ≤ a.age + t / 2 then pass else rise
  | some _, none => rise
  | none, _ => pass

/-- FETCH_DEADLINE (R470, R471). -/
def execFetchDeadline (q : QId) (s : State) : Out := .next (s.modQuire q fun x => { x with dram := x.fetchDeadline })

/-- AGE_PROMOTION: the oldest waiting request that is neither a fetch nor a copy and not yet promoted. Log entry 120: DEDUCED. -/
def W.agePromotion (w : W) : W :=
  let p := fun (r : DramReq) => r.port ≠ .fetch && r.port ≠ .migration && !r.promoted
  if w.q.dram.queue.any p then (w.upd fun q => { q with dram := q.dram.first p fun r => { r with promoted := true } }).bump (rk 0x11 0x230) else w

/-- AGE_PROMOTION (R473). -/
def execAgePromotion (q : QId) (s : State) : Out := .next (s.onQuire q fun x => x.w.agePromotion)

/-! ### Frequency sets (R485 to R490, R726) -/

/-- Set B is allowed (R486). -/
def Quire.rateBAllowed (q : Quire) : Bool :=
  match q.state with
  | .armed | .running | .paused => bit (q.cfg 0x11 0) 0 && q.sramOnly
  | _ => bit (q.cfg 0x11 0) 0

/-- RATE_CHANGE: the change completes, and its banks are precharged; an ARM that waits on a channel at set B raises it (R487, R489). Log entry 116: PRESUMED. -/
def W.rateChange (w : W) : W :=
  match w.q.dram.changing with
  | none => w
  | some b =>
    let w := (w.upd fun q => { q with dram := { q.dram with rateSet := b, changing := none, openRows := [] } }).bump (rk 0x11 0x234)
    w.upd fun q => match q.occupied with
      | some (.arm _) => if q.mustRaise then { q with dram := { q.dram with changing := some false } } else q
      | _ => q

/-- The reads of the raw region that waited for the end of the change are carried out (R397, R488). -/
def State.serveRaw (s : State) (q : QId) : State :=
  if (s.quire q).dram.changing.isSome then s
  else (s.quire q).rawReads.foldl (fun s x => s.rawReply q x) (s.modQuire q fun x => { x with rawReads := [] })

/-- RATE_CHANGE (R487 to R489). -/
def execRateChange (q : QId) (s : State) : Out := .next ((s.onQuire q fun x => x.w.rateChange).serveRaw q).takeStreams

/-- `DRAM_AUTO` (R736). -/
def State.dramAuto (s : State) : Bool := bit (s.reg (rk 5 0)) 30

/-- DRAM_RATE_REQUEST: set B where R486 holds, set A where it no longer does. Log entry 120: DEDUCED. -/
def dramRateRequest (q : QId) (s : State) : State :=
  let x := s.quire q
  if !s.dramAuto || !x.dram.running then s
  else if x.rateBAllowed && !x.dram.rateSet then (s.modQuire q fun x => { x with dram := { x.dram with changing := some true } }).bump (rk 5 0x310)
  else if !x.rateBAllowed && x.dram.rateSet then s.modQuire q fun x => { x with dram := { x.dram with changing := some false } }
  else s

/-- DRAM_RATE_REQUEST (R486, R490, R726). -/
def execDramRateRequest (q : QId) (s : State) : Out := .next (dramRateRequest q s)

/-! ### Reads, and failures of writes and commands (R464 to R468, R495 to R499) -/

/-- A signature's stored image or checksum table holds the line. -/
def Quire.sigHolds (q : Quire) (s line : Nat) : Bool :=
  q.sigValid s && decide (q.sigHome s = 0) && (q.sigRanges s).any fun r => decide (r.1 < 64 * (line + 1)) && decide (64 * line < r.2)

/-- A poisoned read sets `POISONED` of the signatures whose image or table holds the line (R499). -/
def Quire.poisonSigs (q : Quire) (line : Nat) : Quire :=
  { q with sigs := q.sigs.map fun e => if q.shown.sigHolds e.1 line then (e.1, { e.2 with poisoned := true }) else e }

/-- The chunk whose data or table entry was read under number `seq` is poisoned, and so is the item that computes it; one of a landing remainder keeps its mark until the chunk is created (R114, R497). -/
def Quire.poisonChunk (q : Quire) (sig seq : Nat) : Quire :=
  let mark := fun (it : Item) => if it.kind = .pattern ∧ it.seq = seq then { it with poisoned := true } else it
  { q with
    seq := if noSeq ≤ seq ∧ seq < tableSeq 0 then { q.seq with landingBad := q.seq.landingBad ++ [(sig, seq - noSeq)] } else q.seq
    slots := q.slots.map fun (x : Slot) => if x.seq = seq ∨ tableSeq x.seq = seq then { x with poisoned := true } else x
    store := q.store.map mark, ready := q.ready.map mark, delay := q.delay.map mark, engines := q.engines.map fun e => (e.1, { e.2 with item := e.2.item.map mark }) }

/-- The reader of a poisoned line (R497 to R499). -/
def W.poisonedRead (w : W) (r : DramReq) : W :=
  w.upd fun q => let q := q.poisonSigs r.line; if r.port = .scratch then q.failDerived r.sig else q.poisonChunk r.sig r.seq

/-- The oldest read whose data has not returned, copies apart. -/
def Dram.nextRead (d : Dram) : Option DramReq := d.issued.find? fun r => !r.write && r.port ≠ .migration

/-- DRAM_READ: the data of the oldest read returns (R464 to R468, R474, R495 to R500). -/
def W.dramRead (w : W) (outcome : LineRead) : W :=
  match w.q.dram.nextRead with
  | none => w
  | some r =>
    let late := r.port = .fetch && (r.critical || decide (r.age + w.q.latencyTarget < w.q.dram.clock))
    let w := w.upd fun q => { q with dram := { q.dram with issued := dropFirst (fun x : DramReq => decide (x = r)) q.dram.issued } }
    let w := if late then w.bump (rk 0x11 0x22C) else w
    let x := w.readLine r.line outcome
    if x.1 then x.2.poisonedRead r else x.2

/-- DRAM_READ (R464 to R468, R474, R495 to R500). Log entry 151: DESIGN CHOICE. -/
def execDramRead (q : QId) (outcome : LineRead) (s : State) : Out :=
  let t := s.onQuire q fun x => x.w.dramRead outcome
  .next (match (s.quire q).dram.nextRead with
    | some r => if (s.quire q).miscorrects outcome then t.freeLine q r.line else t
    | none => t)

/-- An issued request has failed for good (R468). -/
def W.failReq (w : W) (r : DramReq) : W :=
  (w.upd fun q => { q with dram := { q.dram with issued := dropFirst (fun x : DramReq => decide (x = r)) q.dram.issued } }).uncorrectable r.line

/-- WRITE_CRC_ALERT: the last write issued is retried, up to 3 times (R466, R468). Log entry 118: DEDUCED. -/
def W.writeCrcAlert (w : W) : W :=
  match w.q.dram.issued.find? (·.write) with
  | some r =>
    if r.retries < 3 then
      (w.upd fun q => { q with dram := { q.dram with issued := q.dram.issued.map fun x => if x = r then { x with retries := x.retries + 1 } else x } }).bump (rk 0x11 0x210)
    else w.failReq r
  | none => w

/-- The line of the write whose retries have run out. Log entry 118: DEDUCED. -/
def Quire.failingWrite (q : Quire) : Option Nat :=
  match q.dram.issued.find? (·.write) with
  | some r => if r.retries < 3 then none else some r.line
  | none => none

def writeCrcAlert (q : QId) (s : State) : State :=
  let t := s.onQuire q fun x => x.w.writeCrcAlert
  match (s.quire q).failingWrite with
  | some line => t.freeLine q line
  | none => t

/-- WRITE_CRC_ALERT (R466, R468). -/
def execWriteCrcAlert (q : QId) (s : State) : Out := .next (writeCrcAlert q s)

/-- The last command is replayed with its bank's pending commands: they are issued again, in their order, behind the others (R467). Log entry 118: DEDUCED. -/
def Dram.replay (d : Dram) (r : DramReq) : Dram :=
  let banks := d.banksOf r
  let same := fun (x : DramReq) => (d.banksOf x).any fun k => banks.contains k
  { d with issued := (d.issued.filter fun x => !same x) ++ (d.issued.filter same).map fun x => if x = r then { x with replays := x.replays + 1 } else x }

/-- The last line is copied (R503): the logical rank moves to the former spare. Log entry 119: DEDUCED. -/
def W.migrationDone (w : W) (spare : Fin 3) : W :=
  let d := w.q.dram
  let old := d.physOf d.migrateRank
  let ranks := d.ranks.set spare .active
  let ranks := if h : old < 3 then ranks.set old .retired else ranks
  let w := w.upd fun q => { q with dram := { d.dropCopies with
    migrating := false, spareOk := false, ranks := ranks
    physL0 := if d.migrateRank = 0 then spare.val else d.physL0, physL1 := if d.migrateRank = 0 then d.physL1 else spare.val } }
  w.log 0x15 7 (packW [(0, old)]) 0 0 d.migrateInjected

/-- A line of the failing rank is in the spare; the next one is asked for, or the migration ends (R501, R503). Log entry 119: DEDUCED. -/
def W.copied (w : W) (spare : Fin 3) : W :=
  let w := w.upd fun q => { q with dram := { q.dram with migrateNext := q.dram.migrateNext + 1 } }
  if w.q.dram.rankLines ≤ w.q.dram.migrateNext then w.migrationDone spare else w.upd fun q => { q with dram := q.dram.askCopy }

/-- A read command that fails for good returns its line as poisoned (R468, R496); a copy's line goes to the spare with the poison code (R501), and the next is asked for. -/
def W.failedRead (w : W) (r : DramReq) : W :=
  let w := w.bump (rk 0x11 0x208)
  if r.port ≠ .migration then w.poisonedRead r
  else match w.q.dram.migrating, w.q.dram.spare with
    | true, some spare => (w.upd fun q => { q.poisonSigs r.line with dram := q.dram.poisonLine r.line }).copied spare
    | _, _ => w

/-- A refresh or refresh-management command fails for good: an uncorrectable error of its rank, which has no line (R468, R500, R504). Log entry 170: DESIGN CHOICE; log entry 118: DEDUCED. -/
def W.failedRefresh (w : W) (rank : Nat) : W :=
  let w := ((w.bump (rk 0x11 0x204)).ask (.freeBits (rk 0x11 0x238) 0xFFFFFFFF)).ask .lineReport
  let w := w.upd fun q => { q with dram := { q.dram with lastOther := none } }
  if w.q.dram.spare.map (·.val) = some rank then w.abandonMigration false
  else w.upd fun q => { q with dram := if q.dram.physL0 = rank then q.dram.startMigration 0 false else if q.dram.physL1 = rank then q.dram.startMigration 1 false else q.dram }

/-- CA_PARITY_ALERT: the last command issued is replayed, up to 3 times; a read that fails returns its line as poisoned (R467, R468, R496). Log entry 118: DEDUCED. -/
def W.caParityAlert (w : W) : W :=
  match w.q.dram.lastOther, w.q.dram.issued.getLast? with
  | some (rank, n), _ =>
    if n < 3 then (w.upd fun q => { q with dram := { q.dram with lastOther := some (rank, n + 1) } }).bump (rk 0x11 0x214) else w.failedRefresh rank
  | none, some r =>
    if r.replays < 3 then (w.upd fun q => { q with dram := q.dram.replay r }).bump (rk 0x11 0x214)
    else
      let w := w.failReq r
      if r.write then w else w.failedRead r
  | none, none => w

/-- The line of the write command whose replays have run out. Log entry 118: DEDUCED. -/
def Quire.failingCommand (q : Quire) : Option Nat :=
  match q.dram.lastOther, q.dram.issued.getLast? with
  | none, some r => if r.write && decide (3 ≤ r.replays) then some r.line else none
  | _, _ => none

def caParityAlert (q : QId) (s : State) : State :=
  let t := s.onQuire q fun x => x.w.caParityAlert
  match (s.quire q).failingCommand with
  | some line => t.freeLine q line
  | none => t

/-- CA_PARITY_ALERT (R467, R468, R496). -/
def execCaParityAlert (q : QId) (s : State) : Out := .next (caParityAlert q s)

/-- The copy that the controller has issued (R469, R472). -/
def Dram.copying (d : Dram) : Option DramReq := d.issued.find? fun r => r.port = .migration

/-- MIGRATION_COPY: the copy that the controller has issued ends: the next line of the failing rank is in the spare, or the spare fails (R501 to R504). -/
def W.migrationCopy (w : W) (outcome : LineRead) (spareFailed : Bool) : W :=
  match w.q.dram.copying, w.q.dram.spare with
  | some c, some spare =>
    let line := c.line
    let w := w.upd fun q => { q with dram := { q.dram with issued := dropFirst (fun x : DramReq => decide (x = c)) q.dram.issued } }
    let r := w.readLine line outcome
    let w := if r.1 then r.2.upd fun q => q.poisonSigs line else r.2
    if spareFailed then (w.lineError line).abandonMigration false else w.copied spare
  | _, _ => w

/-- MIGRATION_COPY (R499, R501 to R504). -/
def execMigrationCopy (q : QId) (outcome : LineRead) (spareFailed : Bool) (s : State) : Out :=
  let t := s.onQuire q fun x => x.w.migrationCopy outcome spareFailed
  .next (match (s.quire q).dram.copying with
    | some c => if (s.quire q).miscorrects outcome then t.freeLine q c.line else t
    | none => t)

/-! ### Live words of page 0x11 (R506) -/

/-- `DRAM_STATUS`. Log entry 119: DEDUCED. -/
def Quire.dramStatus (q : Quire) : Word :=
  let d := q.dram
  packW [(31, b2n d.available), (30, b2n d.spareOk), (29, b2n d.migrating), (28, b2n d.hotRefresh), (27, b2n d.rateSet), (26, b2n d.changing.isSome),
    (25, b2n q.sramShown), (12, d.trainResult), (0, d.migrateNext * 1000 / max 1 d.rankLines)]

def rankCode : RankState → Nat
  | .active => 0 | .spare => 1 | .retired => 2 | .failed => 3

/-- `RANK_MAP`. -/
def Dram.rankMap (d : Dram) : Word :=
  packW [(12, rankCode d.ranks[2]), (10, rankCode d.ranks[1]), (8, rankCode d.ranks[0]), (2, d.physL1), (0, d.physL0)]

end Sys2Proof.Machine
end

