-- ==== Sys2Proof/Machine/Links.lean ====
section
/-! DEFINITION. Host lanes and links: codewords and lock (R514 to R519, R526, R527), flits (R532 to R541), credits (R542 to R548), training (R528 to R531), retraining and width changes (R549 to R558), electrical idle (R559 to R563), lane tests and error injection (R565 to R570). -/

namespace Sys2Proof.Machine

/-! ### Lanes of a link -/

def lkey (k : LinkId) (off : Nat) : Nat := rk 4 (0x100 + 0x40 * k.val + off)
def nkey (n : LaneId) (off : Nat) : Nat := rk 4 (0x1000 + 0x40 * n.val + off)

/-- The link that the partition gives a lane to (R524). -/
def State.linkOf (s : State) (n : LaneId) : Option LinkId := (List.finRange 8).find? fun k => (s.link k).holds n.val

/-- Lanes of a link, ascending, and those in service (R526). -/
def Link.lanes (l : Link) : List LaneId := (List.finRange 16).filter fun n => l.holds n.val
def Link.serves (l : Link) (n : LaneId) : Bool := l.holds n.val && l.inService.getLsbD (n.val - l.base)
def Link.service (l : Link) : List LaneId := l.lanes.filter l.serves
/-- The lanes over which the host stripes. -/
def Link.hears (l : Link) (n : LaneId) : Bool := l.holds n.val && l.rxService.getLsbD (n.val - l.base)
def Link.hearing (l : Link) : List LaneId := l.lanes.filter l.hears
def laneBit (l : Link) (n : LaneId) : Byte := BitVec.ofNat 8 (2 ^ (n.val - l.base))

/-- The link carries flits (R528). -/
def Link.carries (l : Link) : Bool := l.phase = .up || l.phase = .changing

/-- The `CW_SEQ` of the next codeword that the link sends. -/
def State.nextCw (s : State) (k : LinkId) : BitVec 12 := match (s.link k).service with | n :: _ => (s.lane n).txSeq | [] => 0

/-- `OUT` (R571). -/
def State.laneIsOut (s : State) (n : LaneId) : Bool := bit (s.reg (nkey n 0)) 31

/-- A lane without codeword lock; what it received before stays to be delivered. -/
def Lane.lockLost (x : Lane) : Lane := { x with lock := false, ready := false, goodHeaders := 0, badHeaders := 0, rxSeq := none, idleSince := none }

/-- A lane that leaves its link loses its lock and what it has received. -/
def Lane.unlocked (x : Lane) : Lane := { x.lockLost with rxQueue := [], lastMs := [] }

/-- A link goes DOWN (R530, R555, R602): nothing is carried, and what waits to be sent is lost. -/
def State.linkDown (s : State) (k : LinkId) : State :=
  let l := s.link k
  let s := if l.carries then s.bump (lkey k 0x38) else s
  let s := s.each l.lanes fun s n => s.modLane n fun x =>
    match x.phase with
    | .inLink | .training | .retraining => { x.unlocked with phase := if x.leave = some .out then .out else .down, leave := none }
    | _ => x
  let s := s.modLink k fun l => { l with
    phase := .down, txEi := false, rxEi := false, inService := 0, rxService := 0, linkTx := [], change := none, txSlot := [], trainPhase := 0
    classes := l.classes.map fun c => { c with txQueue := [], txDone := 0, assembling := none, dropping := false } }
  s.sessionLinkDown k

/-- A lane gains codeword lock: if it is `REF_LANE`, the judgement of REC begins anew (R647). -/
def State.gainLock (s : State) (n : LaneId) : State :=
  if n.val = s.refLane ∧ s.clock.recovered = .judging then { s with clock := { s.clock with recWindows := 0 } } else s

/-! ### Width changes (R550 to R553) -/

/-- A `CW_SEQ` has come to S (R551). -/
def cwReached (at_ x : BitVec 12) : Bool := decide ((x - at_).toNat < 2048)

/-- A proposal of the chip (R551). -/
def WidthChange.propose (mask : Byte) (at_ : BitVec 12) : WidthChange :=
  { mask := mask, at_ := at_, fromChip := true, sent := false, acked := false, txDone := false, rxDone := false, attempts := 0 }

/-- Propose a new lane mask; with no lane left the link is DOWN (R551, R555). A proposal not yet acknowledged takes the change up; behind one that is, the change waits until that is complete. Log entry 124: DEDUCED. -/
def State.proposeWidth (s : State) (k : LinkId) (f : Byte → Byte) : State :=
  let l := s.link k
  let mask := f (match l.change with | some c => c.mask | none => l.inService)
  if !l.carries || l.change.any (·.acked) then s
  else if mask = 0 then s.linkDown k
  else if mask = l.inService ∧ l.change.isNone then s
  else s.modLink k fun l => { l with phase := .changing, change := some (.propose mask (s.nextCw k + 8)) }

/-- Take a lane out of its link, towards retraining or OUT (R550, R557). -/
def State.removeLane (s : State) (k : LinkId) (n : LaneId) (toward : LanePhase) : State :=
  (s.modLane n fun x => { x with leave := some toward }).proposeWidth k fun m => m &&& ~~~(laneBit (s.link k) n)

/-- LINK messages (R548). -/
def msgWidth (code : Nat) (mask : Byte) (at_ : BitVec 12) : List Byte := le 1 code ++ [mask] ++ le 2 at_.toNat

/-- The later of two values of S (R553). -/
def laterCw (a b : BitVec 12) : BitVec 12 := if (b - a).toNat < 2048 then b else a

/-- WIDTH_CHANGE: the host's proposal is acknowledged, or crossed with the chip's own where that has gone out (R551, R553). One of the chip that has not gone out waits until the host's is complete. Log entries 121, 124: DEDUCED. -/
def widthChange (k : LinkId) (named : Byte) (at_ : BitVec 12) (s : State) : State :=
  let l := s.link k
  let mask := named &&& BitVec.ofNat 8 (2 ^ l.width - 1)
  let ack := msgWidth 4 named at_
  let take := s.modLink k fun l => { l with
    phase := .changing, linkTx := if l.linkTx.contains ack then l.linkTx else l.linkTx ++ [ack]
    change := some { WidthChange.propose mask at_ with fromChip := false, acked := true } }
  if !l.carries then s
  else
    match l.change with
    | some c =>
      if c.fromChip && !c.acked then
        if c.sent then s.modLink k fun l => { l with change := some { c with mask := c.mask &&& mask, at_ := laterCw c.at_ at_, acked := true } } else take
      else if c.fromChip || c.txDone || c.rxDone then s
      else take
    | none => take

def execWidthChange (link : LinkId) (mask : Byte) (at_ : BitVec 12) (s : State) : Out := .next (widthChange link mask at_ s)

/-- WIDTH_ACK (R551). Log entry 121: DEDUCED. -/
def widthAck (k : LinkId) (mask : Byte) (at_ : BitVec 12) (s : State) : State :=
  match (s.link k).change with
  | some c => if c.fromChip ∧ c.mask = mask ∧ c.at_ = at_ then s.modLink k fun l => { l with change := some { c with acked := true } } else s
  | none => s

def execWidthAck (link : LinkId) (mask : Byte) (at_ : BitVec 12) (s : State) : Out := .next (widthAck link mask at_ s)

/-- Lanes that wait for a width change of their own: to leave the link, or to come back after retraining. -/
def State.openChanges (s : State) (k : LinkId) : State :=
  let l := s.link k
  let go := l.service.filter fun n => (s.lane n).leave.isSome
  let back := l.lanes.filter fun n => (s.lane n).phase = .retraining && (s.lane n).ready
  if go = [] ∧ back = [] then s
  else s.proposeWidth k fun m => back.foldl (fun m n => m ||| laneBit l n) (go.foldl (fun m n => m &&& ~~~(laneBit l n)) m)

/-- The lanes of a change's mask over which the link may stripe: those in service, and those that have retrained; a FAILED or OUT lane stays so (R550, R554, R557). Log entry 124: DEDUCED. -/
def State.newMask (s : State) (k : LinkId) (c : WidthChange) : Byte :=
  let l := s.link k
  l.lanes.foldl (fun m n => if laneBit l n &&& c.mask ≠ 0 ∧ (l.serves n ∨ l.hears n ∨ (s.lane n).ready) then m ||| laneBit l n else m) 0

/-- The chip's direction has come to S (R551): a lane in service has sent every codeword before it. -/
def State.txDue (s : State) (k : LinkId) : Bool :=
  (s.link k).change.any fun c => c.acked && !c.txDone && (s.link k).service.any fun n => cwReached c.at_ (s.lane n).txSeq && !(s.link k).txSlot.any fun e => e.1 = n.val

/-- The host's direction has come to S: what its lanes have sent before it is delivered. -/
def State.rxDue (s : State) (k : LinkId) : Bool :=
  (s.link k).change.any fun c => c.acked && !c.rxDone && (s.link k).hearing.all fun n =>
    let x := s.lane n
    match x.rxQueue with
    | e :: _ => cwReached c.at_ e.1
    | [] => !x.lock || x.rxSeq.any (cwReached c.at_)

/-- The chip stripes over the new mask (R551); a lane that joins takes up the running `CW_SEQ`. -/
def State.txSwitch (s : State) (k : LinkId) : State :=
  match (s.link k).change with
  | none => s
  | some c =>
    let l := s.link k
    let mask := s.newMask k c
    let cw := ((l.service.map fun n => (s.lane n).txSeq).find? (cwReached c.at_)).getD c.at_
    (s.each (l.lanes.filter fun n => !l.serves n && laneBit l n &&& mask ≠ 0) fun s n => s.modLane n fun x => { x with txSeq := cw }).modLink k fun l =>
      { l with inService := mask, change := some { c with mask := mask, txDone := true } }

/-- The host stripes over the new mask (R551). -/
def State.rxSwitch (s : State) (k : LinkId) : State :=
  match (s.link k).change with
  | none => s
  | some c => let mask := s.newMask k c; s.modLink k fun l => { l with rxService := mask, change := some { c with mask := mask, rxDone := true } }

/-- A lane joins its link: its retraining is over, and its lock is as it was (R517, R550). Log entry 124: DEDUCED. -/
def State.joinLane (s : State) (n : LaneId) : State :=
  let s' := s.modLane n fun x => { x with phase := .inLink, ready := false, lastMs := [] }
  if (s.lane n).phase = .retraining then s'.bump (nkey n 0x1C) else s'

/-- A lane that the new mask leaves out has left its link (R550, R557). -/
def Lane.leaves (x : Lane) : Lane := { x.unlocked with phase := x.leave.getD .down, leave := none }

/-- A width change is complete once both directions have switched and the lanes that leave have sent what they had (R551, R555). Log entry 124: DEDUCED. -/
def State.endChange (s : State) (k : LinkId) : State :=
  let l := s.link k
  match l.change with
  | none => s
  | some c =>
    if !c.txDone || !c.rxDone || l.txSlot.any fun e => !l.service.any fun n => n.val = e.1 then s
    else
      let gone := l.lanes.filter fun n => (s.lane n).phase = .inLink && !l.serves n
      let come := l.service.filter fun n => (s.lane n).phase ≠ .inLink
      let s := (s.each gone fun s n => s.modLane n Lane.leaves).each come State.joinLane
      let s := s.modLink k fun l => { l with phase := .up, change := none }
      let s := (s.bump (lkey k 0x30)).log' 0x18 8 (packW [(8, k.val), (0, c.mask.toNat)]) 0 0
      if c.mask = 0 then s.linkDown k else s.openChanges k

/-- WIDTH_SWITCH: each direction that has come to S stripes over the new mask (R551, R555). Log entry 124: DEDUCED. -/
def widthSwitch (k : LinkId) (s : State) : State :=
  if !(s.link k).carries then s
  else
    let s := if s.txDue k then s.txSwitch k else s
    (if s.rxDue k then s.rxSwitch k else s).endChange k

def execWidthSwitch (link : LinkId) (s : State) : Out := .next (widthSwitch link s)

/-- WIDTH_ACK_TIMEOUT: with no acknowledgement by codeword S - 2, the proposal moves 8 codewords on, up to 4 times (R552). Log entry 124: DEDUCED. -/
def widthAckTimeout (k : LinkId) (s : State) : State :=
  match (s.link k).change with
  | some c =>
    if !c.fromChip || c.acked || !cwReached (c.at_ - 2) (s.nextCw k) then s
    else if c.attempts < 4 then s.modLink k fun l => { l with change := some { c with at_ := c.at_ + 8, attempts := c.attempts + 1 } }
    else s.linkDown k
  | none => s

def execWidthAckTimeout (link : LinkId) (s : State) : Out := .next (widthAckTimeout link s)

/-! ### Retraining (R549 to R555) -/

/-- A lane in service begins to leave its link for retraining. -/
def State.retrainLane (s : State) (n : LaneId) : State :=
  match s.linkOf n with
  | some k => if (s.link k).carries && (s.link k).serves n && (s.lane n).leave.isNone then s.removeLane k n .retraining else s
  | none => s

/-- What a codeword that arrives at a tick adds to the last 1 ms of its lane (R549): one older codeword shows that the lane has served that long. -/
def Lane.note (ticks : Nat) (cw : RxCodeword) (x : Lane) : Lane :=
  let l := (ticks, match cw with | .bad => none | .good c _ _ => some c.val) :: x.lastMs
  let young := fun (e : Nat × Option Nat) => decide (ticks < e.1 + 1000000)
  { x with lastMs := l.takeWhile young ++ (l.dropWhile young).take 1 }

/-- The conditions of R549 that a lane itself shows: no codeword lock, more than 4 uncorrectable codewords within 1 ms, or more than 1 corrected symbol per codeword over 1 ms. -/
def Lane.failing (ticks : Nat) (x : Lane) (c : RetrainCause) : Bool :=
  let old := fun (e : Nat × Option Nat) => decide (e.1 + 1000000 ≤ ticks)
  let last := x.lastMs.filter fun e => !old e
  match c with
  | .lockLost => !x.lock && x.idleSince.isNone
  | .uncorrectable => decide (4 < (last.filter fun e => e.2.isNone).length)
  | .corrected => x.lastMs.any old && decide (last.length < (last.map fun e => e.2.getD 0).sum)

/-- A lane that meets a condition of R549 begins to leave its link. -/
def State.watchLane (s : State) (n : LaneId) (c : RetrainCause) : State := if (s.lane n).failing s.time.ticks c then s.retrainLane n else s

/-- LANE_RETRAIN_START (R549, R550). -/
def execLaneRetrainStart (lane : LaneId) (cause : RetrainCause) (s : State) : Out := .next (s.watchLane lane cause)

/-- RETRAIN_REQ of the host (R549). -/
def retrainReq (k : LinkId) (i : Fin 8) (s : State) : State :=
  match (s.link k).lanes.find? fun n => n.val = (s.link k).base + i.val with
  | some n => s.retrainLane n
  | none => s

def execRetrainReq (link : LinkId) (laneIdx : Fin 8) (s : State) : Out := .next (retrainReq link laneIdx s)

/-- What a lane's training found takes effect in its settings (R513, R520, R529). -/
def State.trainLane (s : State) (n : LaneId) (t : LaneTraining) : State := s.modLane n (Lane.train (bit (s.reg (nkey n 0)) 29) t)

/-- A lane that has passed phases 1 to 5: it has codeword lock, and the precoding of both directions starts from 0 (R512, R529). Log entry 172: DEDUCED. -/
def Lane.started (x : Lane) : Lane := { x with lock := true, badHeaders := 0, attempts := 0, rxQueue := [], txLast := 0, rxLast := 0, idleSince := none, lastMs := [] }

/-- LANE_RETRAIN_DONE: the lane is added back, or the attempt counts, and the third in a row makes the lane FAILED (R550, R554). -/
def laneRetrainDone (n : LaneId) (t : LaneTraining) (s : State) : State :=
  if (s.lane n).phase ≠ .retraining || (s.lane n).ready then s
  else
    let s := s.trainLane n t
    if t.fails = 0 then
      match (s.linkOf n).filter fun k => (s.link k).carries with
      | some k => ((s.modLane n fun x => { x.started with ready := true }).gainLock n).proposeWidth k fun m => m ||| laneBit (s.link k) n
      | none => s.modLane n fun x => { x.unlocked with phase := .down, attempts := 0 }
    else s.modLane n fun x => { x.unlocked with attempts := x.attempts + 1, phase := if 3 ≤ x.attempts + 1 then .failed else .retraining }

def execLaneRetrainDone (lane : LaneId) (training : LaneTraining) (s : State) : Out := .next (laneRetrainDone lane training s)

/-- A lane is OUT (R557); one that was FAILED stays so for when `OUT` returns to 0 (R554). -/
def Lane.goOut (x : Lane) : Lane := { x.unlocked with phase := .out, leave := none, wasFailed := x.wasFailed || x.phase = .failed }

/-- A write of `OUT` = 1 (R557). A retrained lane that no acknowledged change adds is taken from the pending one; one that such a change adds leaves again after it. Log entry 124: DEDUCED. -/
def State.laneOut (s : State) (n : LaneId) : State :=
  let x := s.lane n
  match s.linkOf n with
  | some k =>
    let l := s.link k
    if l.carries && (l.serves n || l.hears n) then s.removeLane k n .out
    else if x.phase = .testing then s.modLane n fun x => { x with test := x.test.map fun t => { t with back := .out }, wasFailed := x.wasFailed || (x.test.any fun t => t.back = .failed) }
    else if !x.ready || !l.carries then s.modLane n Lane.goOut
    else if l.change.any fun c => c.acked && laneBit l n &&& c.mask ≠ 0 then s.modLane n fun x => { x with leave := some .out }
    else if l.change.isNone then s.modLane n Lane.goOut
    else (s.modLane n Lane.goOut).proposeWidth k fun m => m &&& ~~~(laneBit l n)
  | none => if x.phase = .testing then s else s.modLane n Lane.goOut

/-- The session's link would have no lane left if the lane went OUT: every other one of the mask to come leaves as well (R558). -/
def State.lastLane (s : State) (k : LinkId) (n : LaneId) : Bool :=
  let l := s.link k
  let mask := match l.change with | some c => s.newMask k c | none => l.inService
  l.serves n && l.lanes.all fun m => m = n || laneBit l m &&& mask = 0 || (s.lane m).leave.isSome

/-- The result of a lane test (R620). Log entry 126: DEDUCED. -/
def testResult (s : State) (n : LaneId) : List Byte :=
  leW (s.reg (nkey n 0x28)) ++ leW (s.reg (nkey n 0x2C)) ++ leW (s.reg (nkey n 0x20)) ++ leW (s.reg (nkey n 0x24)) ++ le 1 (b2n (s.lane n).testValid) ++ le 3 0

/-- A lane test ends (R568, R569). -/
def State.endTest (s : State) (n : LaneId) (valid : Bool) (phase : LanePhase) : State :=
  match (s.lane n).test with
  | none => s
  | some t =>
    let s := s.modLane n fun x => { x with test := none, testValid := valid, phase := phase }
    match t.waiter with
    | some d => s.reply d stOk 0 (testResult s n)
    | none => s

/-- A lane retrains: with its link UP it comes back by a width change, and otherwise the link's own training takes it. -/
def State.beginRetrain (s : State) (n : LaneId) : State :=
  let up := match s.linkOf n with | some k => (s.link k).carries | none => false
  s.modLane n fun x => { x.unlocked with phase := if up then .retraining else .down, attempts := 0, leave := none, wasFailed := false }

/-- A write of `OUT` = 0 (R557): a test ends, and its lane retrains (R569); an OUT lane that was FAILED is so again (R554). -/
def State.laneReturn (s : State) (n : LaneId) : State :=
  match (s.lane n).phase with
  | .testing => (s.endTest n false .out).beginRetrain n
  | .out => if (s.lane n).wasFailed then s.modLane n fun x => { x with phase := .failed, wasFailed := false } else s.beginRetrain n
  | _ => s.modLane n fun x => if x.leave = some .out then { x with leave := if x.ready then none else some .retraining } else x

/-- A write of `RETRAIN` = 1 (R554): an OUT lane stays OUT (R557), FAILED no more, and a test runs on. Log entry 125: DESIGN CHOICE. -/
def State.laneRetrain (s : State) (n : LaneId) : State :=
  match (s.lane n).phase with
  | .inLink => s.retrainLane n
  | .failed | .down => s.beginRetrain n
  | .out => s.modLane n fun x => { x with wasFailed := false }
  | _ => s

/-! ### Training of a link (R529 to R531) -/

/-- A lane takes part in its link's training. -/
def Lane.trains (x : Lane) : Bool := x.phase ≠ .out && x.phase ≠ .failed && x.phase ≠ .testing

/-- A defined link that is DOWN begins to train (R529, R530, R835). Log entry 124: DEDUCED. -/
def State.trainLink (s : State) (k : LinkId) : State :=
  let l := s.link k
  if l.isDefined && l.phase = .down then
    (s.each l.lanes fun s n => s.modLane n fun x => if x.trains then { x with phase := .training } else x).modLink k fun l => { l with phase := .training, trainPhase := 1 }
  else s

/-- LINK_RETRAIN_TIMER (R530). -/
def execLinkRetrainTimer (link : LinkId) (s : State) : Out := .next (if 4 ≤ s.boot.step then s.trainLink link else s)

/-- The chip's grant of a class per lane of the defined width, in flits (R542, R543). -/
def grantPerLane (c : Fin 4) : Nat := match c with | 0 => 1024 | 1 => 5120 | 2 => 5632 | 3 => 512

/-- The classes of a link that comes UP, with the host's grants. -/
def freshClasses (l : Link) (grants : List Nat) : Vector ClassState 4 :=
  Vector.ofFn fun c => { ClassState.reset with granted := grants.getD c.val l.classes[c].granted % 2 ^ 32, ourGrant := grantPerLane c * l.width, packets := l.classes[c].packets }

/-! ### Credits (R544, R547) -/

/-- CREDIT_INIT: the host's grants, in training (R529, R544). Log entry 126: DEDUCED. -/
def creditInit (k : LinkId) (grants : List Nat) (s : State) : State :=
  if (s.link k).phase = .training then s.modLink k fun l => { l with trainPhase := 6, classes := Vector.ofFn fun c => { l.classes[c] with granted := grants.getD c.val 0 % 2 ^ 32 } } else s

def execCreditInit (link : LinkId) (grants : List Nat) (s : State) : Out := .next (creditInit link grants s)

/-- A 32-bit total replaces a count: the number next to it with these low bits. -/
def replaceTotal (bits now total : Nat) : Nat :=
  let m := 2 ^ bits
  let base := now / m * m + total % m
  if base + m / 2 ≤ now then base + m else base

/-- CREDIT_SYNC: the host's freed totals (R547). Log entry 121: DEDUCED. -/
def creditSync (k : LinkId) (totals : List Nat) (s : State) : State :=
  if (s.link k).carries then
    s.modLink k fun l => { l with classes := Vector.ofFn fun c => { l.classes[c] with freedByHost := replaceTotal 32 l.classes[c].freedByHost (totals.getD c.val 0) } }
  else s

def execCreditSync (link : LinkId) (totals : List Nat) (s : State) : Out := .next (creditSync link totals s)

/-- CREDIT_SYNC_SEND: the chip's freed totals go out (R547, R548). -/
def creditSyncSend (k : LinkId) (s : State) : State :=
  if (s.link k).carries then
    s.modLink k fun l => { l with linkTx := l.linkTx ++ [le 1 2 ++ (List.finRange 4).flatMap fun c : Fin 4 => le 4 l.classes[c].freed] }
  else s

def execCreditSyncSend (link : LinkId) (s : State) : Out := .next (creditSyncSend link s)

/-! ### Electrical idle of the host's direction (R560, R562, R563) -/

/-- 16 symbols from a free value. -/
def symbolsOf (w : Word) : List (Fin 4) := (List.range 16).map fun i => Fin.ofNat 4 (fld w (2 * i) 2)

/-- The pattern with which a lane wakes is not given, and with it the symbol that precoding goes on from (R512, R561). Log entry 3: DESIGN CHOICE. -/
def State.freeReceived (s : State) (n : LaneId) : State := let r := s.takeFree; r.2.modLane n fun x => { x with rxLast := Fin.ofNat 4 r.1.toNat }

/-- The 256 symbols of the wake pattern that a lane sends (R561). Log entry 3: DESIGN CHOICE. -/
def State.sendWake (s : State) (n : LaneId) : State :=
  let r := (List.range 16).foldl (fun (x : List (Fin 4) × State) _ => let f := x.2.takeFree; (x.1 ++ symbolsOf f.1, f.2)) ([], s)
  r.2.modLane n fun x => { x with wake := r.1, txLast := lastSymbol x.txLast r.1 }

/-- A lane of a direction in electrical idle: it has no codeword lock until the direction wakes, its settings stay, and `CW_SEQ` runs on (R560, R562). -/
def Lane.idled (ticks : Nat) (x : Lane) : Lane := { x with lock := false, goodHeaders := 0, badHeaders := 0, idleSince := some ticks }

/-- EI_ENTER: the host's direction goes idle (R559, R560). -/
def eiEnter (k : LinkId) (s : State) : State :=
  if (s.link k).carries && !(s.link k).rxEi then
    ((s.each (s.link k).hearing fun s n => s.modLane n (Lane.idled s.time.ticks)).each (s.link k).hearing State.freeReceived).modLink k fun l => { l with rxEi := true }
  else s

def execEiEnter (link : LinkId) (s : State) : Out := .next (eiEnter link s)

/-- A lane loses codeword lock (R517, R563); one in service then leaves its link for retraining (R549). -/
def State.loseLock (s : State) (n : LaneId) : State := if (s.lane n).lock then ((s.modLane n Lane.lockLost).bump (nkey n 0x18)).watchLane n .lockLost else s

/-- LOSS_OF_SIGNAL: without an EI_ENTER before it, it counts as a loss of lock (R563). -/
def lossOfSignal (n : LaneId) (s : State) : State :=
  let idle := match s.linkOf n with | some k => (s.link k).rxEi && (s.link k).hears n | none => false
  let s := s.modLane n fun x => { x with signal := false }
  if idle then s else s.loseLock n

def execLossOfSignal (lane : LaneId) (s : State) : Out := .next (lossOfSignal lane s)

/-! ### Received flits (R532 to R541, R548) -/

/-- CRC-16 of R533. -/
def crc16 (bs : List Byte) : BitVec 16 :=
  bs.foldl (fun (c : BitVec 16) (b : Byte) => (List.range 8).foldl (fun c _ => if c.getLsbD 15 then (c <<< 1) ^^^ 0x1021#16 else c <<< 1) (c ^^^ (b.setWidth 16 <<< 8))) 0xFFFF#16

/-- The header word of a flit (R534). -/
def flitHead (f : List Byte) : Word := BitVec.ofNat 32 (unle (f.take 4))
def flitBody (f : List Byte) : List Byte := (f.drop 4).take 26

/-- The form of a flit's header (R534, R539, R548), the order of `SOP` and `EOP` apart. Log entry 122: DEDUCED. -/
def flitFormed (f : List Byte) : Bool :=
  let h := flitHead f
  let len := fld h 21 5
  match fld h 30 2 with
  | 1 => decide (1 ≤ len) && decide (len ≤ 26) && (bit h 26 || decide (len = 26))
  | 0 => fld h 28 2 = 0 && len = 0 && fld h 0 8 = 0
  | 2 => fld h 28 2 = 0 && len = 0 && fld h 0 8 = 0 && decide (1 ≤ (f.getD 4 0).toNat) && decide ((f.getD 4 0).toNat ≤ 6)
  | _ => false

/-- A DATA flit that has credit, by its place in the sequence of its class (R537, R539, R540): the class with it, whether it opens a gap, and whether it is accepted, dropped by order, or dropped without count. -/
inductive FlitFate where
  | accepted | badOrder | silent
  deriving DecidableEq, Repr

/-- Log entry 122: DEDUCED. -/
def ClassState.takeData (c : ClassState) (h : Word) (body : List Byte) : ClassState × Bool × FlitFate :=
  let seq : Byte := BitVec.ofNat 8 (fld h 0 8)
  let sop := bit h 27
  let eop := bit h 26
  let data := body.take (fld h 21 5)
  let gap := decide (seq ≠ c.rxSeq) && !c.dropping
  let c := if gap then { c with freed := c.freed + (match c.assembling with | some a => a.2 | none => 0), assembling := none, dropping := true } else c
  let finish := fun (c : ClassState) (bytes : List Byte) (n : Nat) =>
    let c := { c with received := c.received + 1, rxSeq := seq + 1, dropping := false }
    if eop then { c with assembling := none, packets := c.packets ++ [(bytes, n)] } else { c with assembling := some (bytes, n) }
  match c.assembling, sop with
  | none, true => (finish c data 1, gap, .accepted)
  | none, false => if c.dropping then ({ c with received := c.received + 1, freed := c.freed + 1, rxSeq := seq + 1 }, gap, .silent) else (c, gap, .badOrder)
  | some _, true => (c, gap, .badOrder)
  | some a, false => (finish c (a.1 ++ data) (a.2 + 1), gap, .accepted)

/-- A LINK message (R548). Log entries 121, 126: DEDUCED. -/
def linkMessage (k : LinkId) (m : List Byte) (s : State) : State :=
  let words := (List.range 4).map fun i => par m (1 + 4 * i) 4
  let at_ : BitVec 12 := BitVec.ofNat 12 (par m 2 2)
  match (m.getD 0 0).toNat with
  | 1 => creditInit k words s
  | 2 => creditSync k words s
  | 3 => widthChange k (m.getD 1 0) at_ s
  | 4 => widthAck k (m.getD 1 0) at_ s
  | 5 => eiEnter k s
  | 6 => retrainReq k ⟨(m.getD 1 0).toNat % 8, Nat.mod_lt _ (by decide)⟩ s
  | _ => s

/-- A received flit is checked, its credit field taken, and its payload assembled, carried out or dropped (R539 to R541). Log entries 121, 122: DEDUCED. -/
def State.flit (k : LinkId) (s : State) (f : List Byte) : State :=
  if !(s.link k).carries then s
  else if (crc16 (f.take 30)).toNat ≠ unle ((f.drop 30).take 2) then s.bump (lkey k 0x20)
  else if !flitFormed f then s.bump (lkey k 0x24)
  else
    let h := flitHead f
    let cr : Fin 4 := ⟨fld h 19 2, Nat.mod_lt _ (by decide)⟩
    let s := s.modLink k fun l => { l with classes := l.classes.set cr { l.classes[cr] with freedByHost := replaceTotal 11 l.classes[cr].freedByHost (fld h 8 11) } }
    match fld h 30 2 with
    | 2 => linkMessage k (flitBody f) s
    | 1 =>
      let ci : Fin 4 := ⟨fld h 28 2, Nat.mod_lt _ (by decide)⟩
      let c := (s.link k).classes[ci]
      if c.ourGrant + c.freed ≤ c.received then s.bump (lkey k 0x28)
      else
        let r := c.takeData h (flitBody f)
        let s := s.modLink k fun l => { l with classes := l.classes.set ci r.1 }
        let s := if r.2.1 then s.bump (lkey k 0x2C) else s
        match r.2.2 with
        | .accepted => s.bump64 (lkey k 0x0C)
        | .badOrder => s.bump (lkey k 0x24)
        | .silent => s
    | _ => s

/-! ### Received codewords (R516 to R519, R526, R527) -/

/-- Put the codewords of a link in order by `CW_SEQ`, once every lane with lock has sent its part, and take their flits lane by lane, from S of a width change on over its mask (R526, R527, R551). Log entries 121, 123: DEDUCED. -/
def deliver (k : LinkId) : Nat → State → State
  | 0, s => s
  | fuel + 1, s =>
    let s := if s.rxDue k then s.rxSwitch k else s
    let lanes := (s.link k).hearing
    let waits := lanes.any fun n => ((s.lane n).lock && (s.lane n).rxQueue = []) || ((s.link k).rxEi && !(s.lane n).lock)
    let heads := lanes.filterMap fun n => (s.lane n).rxQueue.head?.map (·.1)
    if waits then s
    else
      match heads.find? fun h => heads.all fun o => decide ((o - h).toNat < 2048) with
      | none => s
      | some h =>
        let here := lanes.filter fun n => (s.lane n).rxQueue.head?.map (·.1) = some h
        let parts := here.map fun n => match (s.lane n).rxQueue with | e :: _ => e.2 | [] => []
        let flits := (List.range 20).flatMap fun i => parts.filterMap fun fs => fs[i]?
        let s := s.each here fun s n => s.modLane n fun x => { x with rxQueue := x.rxQueue.drop 1 }
        deliver k fuel (flits.foldl (State.flit k) s)

/-- The `CW_SEQ` is the one expected; after electrical idle, the one to which it has run on, to one codeword (R517, R560). Log entry 123: DEDUCED. -/
def Lane.expects (x : Lane) (ticks : Nat) (seq : BitVec 12) : Bool :=
  match x.rxSeq, x.idleSince with
  | none, _ => true
  | some e, none => decide (e = seq)
  | some e, some t => decide ((seq + 1 - (e + BitVec.ofNat 12 ((ticks - t) * 5 / 256))).toNat ≤ 2)

/-- What a codeword does to the lock of its lane (R517, R560, R562): the lane, and whether lock is lost. `need` valid headers in a row give lock. Log entry 123: DEDUCED. -/
def Lane.header (x : Lane) (ticks need idx : Nat) (cw : RxCodeword) : Lane × Bool :=
  let next : Option (BitVec 12) := if x.idleSince.isSome then x.rxSeq else x.rxSeq.map (· + 1)
  match cw with
  | .bad => if x.lock then (let b := x.badHeaders + 1; ({ x with badHeaders := b, rxSeq := next }, decide (4 ≤ b))) else ({ x with goodHeaders := 0, rxSeq := next }, false)
  | .good _ h _ =>
    let seq : BitVec 12 := BitVec.ofNat 12 (h.toNat / 256)
    let formed := decide (h.toNat % 16 = 0xA) && decide (h.toNat / 16 % 8 = idx)
    let valid := formed && x.expects ticks seq
    if x.lock then
      if valid then ({ x with badHeaders := 0, rxSeq := some (seq + 1) }, false)
      else (let b := x.badHeaders + 1; ({ x with badHeaders := b, rxSeq := next }, decide (4 ≤ b)))
    else if valid then
      let g := x.goodHeaders + 1
      ({ x with goodHeaders := g, badHeaders := 0, rxSeq := some (seq + 1), idleSince := none, lock := decide (need ≤ g), signal := true }, false)
    else if x.idleSince.isSome then ({ x with goodHeaders := 0 }, false)
    else ({ x with goodHeaders := if formed then 1 else 0, rxSeq := some (seq + 1) }, false)

/-- The FEC counts of a codeword (R518, R519). -/
def State.fecCount (s : State) (n : LaneId) : RxCodeword → State
  | .bad => s.bump (nkey n 0x14)
  | .good c _ _ =>
    let s := s.modLane n fun x => { x with fecPeak := max x.fecPeak c.val }
    if c.val = 0 then s else (s.bump (nkey n 0x10)).bump64 (nkey n 0x08) c.val

/-- A lane more than 8 codewords behind another is treated as having lost lock (R527). Log entry 123: DEDUCED. -/
def State.checkSkew (s : State) (k : LinkId) : State :=
  let lanes := (s.link k).hearing
  if lanes.any fun n => 8 < (s.lane n).rxQueue.length then
    s.each (lanes.filter fun n => (s.lane n).lock && (s.lane n).rxQueue = []) State.loseLock
  else s

/-- The host stripes over the lane already, or does so from S of the pending change on (R551). -/
def State.takesFrom (s : State) (k : LinkId) (n : LaneId) (seq : BitVec 12) : Bool :=
  (s.link k).hears n || (s.link k).change.any fun c => c.acked && !c.rxDone && (s.lane n).ready && cwReached c.at_ seq && laneBit (s.link k) n &&& c.mask ≠ 0

/-- A decoded codeword arrives on a lane (R517 to R519, R526, R527, R539 to R541, R549, R551, R562). Log entry 123: DEDUCED. -/
def State.receive (n : LaneId) (cw : RxCodeword) (s : State) : State :=
  match s.linkOf n, (s.lane n).phase with
  | some k, .inLink | some k, .training | some k, .retraining =>
    let l := s.link k
    let x := s.lane n
    let s := s.fecCount n cw
    let waking := l.carries && l.rxEi && l.hears n
    let r := (s.lane n).header s.time.ticks (if waking then 2 else 8) (n.val - l.base) cw
    let seq : BitVec 12 := match r.1.rxSeq with | some v => v - 1 | none => 0
    let takes := l.carries && s.takesFrom k n seq
    let kept : List (List Byte) := match cw with | .good _ _ fs => fs | .bad => []
    let s := s.modLane n fun _ => { r.1 with
      rxQueue := if takes && (x.lock || (waking && cw ≠ .bad)) then (if cw = .bad && x.rxSeq.isNone then r.1.rxQueue else r.1.rxQueue ++ [(seq, kept)]) else r.1.rxQueue }
    let s := if l.carries && l.hears n then s.modLane n (Lane.note s.time.ticks cw) else s
    let dropped := l.carries && l.hears n && (cw = .bad || (!x.lock && !waking))
    let s := if dropped then s.bump (lkey k 0x1C) 20 else s
    let s := if r.2 then s.loseLock n else if r.1.lock && !x.lock then s.gainLock n else s
    let s := if waking && (s.link k).hearing.all fun m => (s.lane m).lock then (s.modLink k fun l => { l with rxEi := false }).bump (lkey k 0x34) else s
    let s := s.checkSkew k
    (deliver k (1 + ((s.link k).lanes.map fun m => (s.lane m).rxQueue.length).sum) s).endChange k
  | _, _ => s

/-- A lane receives the codewords of its link (R517, R529, R550). -/
def State.listens (s : State) (n : LaneId) : Bool :=
  (s.linkOf n).isSome && ((s.lane n).phase = .inLink || (s.lane n).phase = .training || (s.lane n).phase = .retraining)

/-- A lane in service adapts to live traffic (R521), and leaves its link when it fails (R549); codewords on a lane in training show phase 5 (R529). -/
def State.follow (s : State) (n : LaneId) : State :=
  match s.linkOf n with
  | some k =>
    if (s.link k).carries && (s.link k).hears n then ((s.adapt n).watchLane n .uncorrectable).watchLane n .corrected
    else s.modLink k fun l => if l.phase = .training then { l with trainPhase := max 5 l.trainPhase } else l
  | none => s

/-- The symbols that reach the checker of a lane test are compared, and the counts follow (R568, R571). -/
def State.checkTest (s : State) (n : LaneId) (line : List (Fin 4)) : State :=
  match (s.lane n).test with
  | none => s
  | some t =>
    let r := line.foldl LaneTest.check (t, 0, 0)
    ((s.modLane n fun x => { x with test := some r.1 }).bump64 (nkey n 0x28) r.2.1).bump64 (nkey n 0x20) r.2.2

/-- The checker of a lane test listens to the receiver (R567). -/
def Lane.checksLine (x : Lane) : Bool := x.phase = .testing && x.test.any fun t => t.mode = 1 || t.mode = 2

/-- CODEWORD_RECEIVED: the symbols on the line are decoded (R511, R512, R514, R515), and the codeword taken, with the packets that no row takes (R581); a lane under test compares them with its pattern (R568). -/
def codewordReceived (n : LaneId) (line : List (Fin 4)) (s : State) : State :=
  let x := s.lane n
  let t := s.modLane n fun x => { x with rxLast := lastSymbol x.rxLast line }
  if s.listens n then
    let t := (t.receive n (x.decode line)).follow n
    match s.linkOf n with
    | some k => t.takeUnlisted k
    | none => t
  else if x.checksLine then t.checkTest n (unprecode x.rxPrecode x.rxLast line)
  else s

def execCodewordReceived (lane : LaneId) (line : List (Fin 4)) (s : State) : Out := .next (codewordReceived lane line s)

/-! ### Sent codewords (R515, R516, R526, R534, R538, R541, R570) -/

/-- A class has a flit to send, and credit for it (R538, R544). -/
def ClassState.ready (c : ClassState) : Bool := c.txQueue ≠ [] && decide (c.sent < c.granted + c.freedByHost)

/-- A flit of 32 bytes (R532, R534): the fields above the credit fields, `SEQ`, and the payload. -/
def Link.makeFlit (l : Link) (high seq : Nat) (payload : List Byte) : Link × List Byte :=
  let h := 2 ^ 21 * high + 2 ^ 19 * l.creditClass.val + 2 ^ 8 * (l.classes[l.creditClass].freed % 2048) + seq
  let b := le 4 h ++ payload ++ List.replicate (26 - payload.length) 0
  ({ l with creditClass := l.creditClass + 1 }, b ++ le 2 (crc16 b).toNat)

/-- The next DATA flit of a class. -/
def Link.dataFlit (l : Link) (i : Fin 4) : Link × List Byte :=
  let c := l.classes[i]
  match c.txQueue with
  | [] => (l, [])
  | p :: rest =>
    let data := (p.drop c.txDone).take 26
    let eop := decide (p.length ≤ c.txDone + 26)
    let c' := { c with sent := c.sent + 1, txSeq := c.txSeq + 1, txQueue := if eop then rest else c.txQueue, txDone := if eop then 0 else c.txDone + 26 }
    Link.makeFlit { l with classes := l.classes.set i c' } (512 + i.val * 128 + b2n (c.txDone = 0) * 64 + b2n eop * 32 + data.length) c.txSeq.toNat data

/-- The next flit (R538): LINK messages, TIME, CTRL, then BULK and STREAM in turn; else IDLE. The last part tells a DATA flit. -/
def Link.nextFlit (l : Link) : Link × List Byte × Bool :=
  match l.linkTx with
  | m :: rest => let r := Link.makeFlit { l with linkTx := rest } 1024 0 m; (r.1, r.2, false)
  | [] =>
    let order : List (Fin 4) := [3, 0] ++ (if l.bulkTurn then [2, 1] else [1, 2])
    match order.find? fun i => l.classes[i].ready with
    | some i => let r := l.dataFlit i; ({ r.1 with bulkTurn := if i = 1 then true else if i = 2 then false else r.1.bulkTurn }, r.2, true)
    | none => let r := l.makeFlit 0 0 []; (r.1, r.2, false)

/-- `n` flits, oldest first, and how many of them are DATA flits. -/
def Link.nextFlits : Nat → Link → Link × List (List Byte) × Nat
  | 0, l => (l, [], 0)
  | n + 1, l =>
    let a := l.nextFlit
    let b := Link.nextFlits n a.1
    (b.1, a.2.1 :: b.2.1, b.2.2 + b2n a.2.2)

/-- Choose the flits of one codeword slot of every lane in service: a proposal not yet acknowledged goes first on every lane (R526, R551). -/
def State.fillSlot (s : State) (k : LinkId) : State :=
  let l := s.link k
  let lanes := l.service
  let w := lanes.length
  let l := match l.change with
    | some c => if c.fromChip && !c.acked then { l with linkTx := List.replicate w (msgWidth 3 c.mask c.at_) ++ l.linkTx, change := some { c with sent := true } } else l
    | none => l
  let r := Link.nextFlits (20 * w) l
  let parts := lanes.zipIdx.map fun e => (e.1.val, (List.range 20).map fun i => r.2.1.getD (i * w + e.2) [])
  let s := s.modLink k fun _ => { r.1 with txSlot := r.1.txSlot ++ parts }
  if r.2.2 = 0 then s else s.bump64 (lkey k 0x14) r.2.2

/-- A lane in service sends a codeword (R511, R512, R514 to R516, R570). -/
def State.sendCodeword (k : LinkId) (s : State) (n : LaneId) : State :=
  let mine := fun (e : Nat × List (List Byte)) => decide (e.1 = n.val)
  let s := if (s.link k).txSlot.any mine then s else s.fillSlot k
  let flits := match (s.link k).txSlot.find? mine with | some e => e.2 | none => []
  let ctrl := s.reg (nkey n 0)
  let count := (s.lane n).txCount + 1
  let hit := decide (fld ctrl 16 5 ≠ 0) && decide (count % max 1 (fld ctrl 0 16) = 0)
  let s := s.modLink k fun l => { l with txSlot := dropFirst mine l.txSlot }
  let header := BitVec.ofNat 20 ((s.lane n).txSeq.toNat * 256 + (n.val - (s.link k).base) % 8 * 16 + 0xA)
  let corrupted := if hit then fld ctrl 16 5 else 0
  let r := s.corrupt corrupted (codewordSymbols header flits)
  let line := (s.lane n).encode r.1
  r.2.modLane n fun x => { x with
    txCount := count, txSeq := x.txSeq + 1, txLast := lastSymbol x.txLast line
    lastTx := some { header := header, flits := flits, corrupted := corrupted, line := line } }

/-- A lane under test sends the symbols of one slot of its pattern, which in near-end loopback reach the checker inside the chip (R567). -/
def State.sendTest (s : State) (n : LaneId) (t : LaneTest) : State :=
  let g := patternFrom t.pattern 2720 t.gen
  let symbols := invertBits t.inject t.sent g.1
  let line := precode (s.lane n).txPrecode (s.lane n).txLast symbols
  let s := s.modLane n fun x => { x with
    test := some { t with gen := g.2, sent := t.sent + 2720 }, txLast := lastSymbol x.txLast line
    lastTx := some { header := 0, flits := [], corrupted := 0, line := line } }
  if t.mode = 3 then s.checkTest n symbols else s

/-- CODEWORD_TRANSMITTED: one slot of a lane, at S of a width change over its mask; in electrical idle `CW_SEQ` advances alone (R538, R541, R551, R560, R567, R570). -/
def codewordTransmitted (n : LaneId) (s : State) : State :=
  match (s.lane n).test with
  | some t => if (s.lane n).phase = .testing ∧ t.mode ≠ 1 then s.sendTest n t else s
  | none =>
    match s.linkOf n with
    | some k =>
      let s := if (s.link k).carries && s.txDue k then s.txSwitch k else s
      let l := s.link k
      if l.carries && (l.serves n || l.txSlot.any fun e => e.1 = n.val) then
        (if l.txEi then s.modLane n fun x => { x with txSeq := x.txSeq + 1 } else s.sendCodeword k n).endChange k
      else s
    | none => s

def execCodewordTransmitted (lane : LaneId) (s : State) : Out := .next (codewordTransmitted lane s)

/-! ### The end of training (R529 to R531) -/

/-- The chip's CREDIT_INIT: the whole of each class's buffer for the defined width (R543, R548). -/
def Link.creditInit (l : Link) : List Byte := le 1 1 ++ (List.finRange 4).flatMap fun c : Fin 4 => le 4 (grantPerLane c * l.width)

/-- Phase 6 of training on the lanes that passed the others: both sides' CREDIT_INIT, and the state of a link that comes UP (R526, R529, R543, R544). Log entry 12: DESIGN CHOICE; log entry 172: DEDUCED. -/
def State.exchangeCredits (s : State) (k : LinkId) (on : List LaneId) (grants : List Nat) : State :=
  let s := s.each on fun s n => (s.modLane n fun x => { x.started with txSeq := 0 }).gainLock n
  let s := s.modLink k fun l => { l with
    inService := on.foldl (fun m n => m ||| laneBit l n) 0, rxService := on.foldl (fun m n => m ||| laneBit l n) 0, classes := freshClasses l grants, linkTx := [l.creditInit], change := none, txSlot := [], creditClass := 0 }
  s.each (s.link k).service (State.sendCodeword k)

/-- LINK_TRAINING_DONE: the phases of training end lane by lane, and the link comes UP on its good lanes, or goes DOWN (R529 to R531, R543, R602). Log entry 124: DEDUCED. -/
def linkTrainingDone (k : LinkId) (found : List LaneTraining) (grants : List Nat) (s : State) : State :=
  let l := s.link k
  if l.phase ≠ .training then s
  else
    let foundOf := fun (n : LaneId) => (found[n.val - l.base]?).getD { (default : LaneTraining) with fails := 1 }
    let mine := l.lanes.filter fun n => (s.lane n).phase = .training
    let on := mine.filter fun n => (foundOf n).fails = 0
    let off := mine.filter fun n => (foundOf n).fails ≠ 0
    let given := fun (c : Fin 4) => (freshClasses l grants)[c].granted
    let s := s.each mine fun s n => s.trainLane n (foundOf n)
    let s := s.each off fun s n => s.modLane n fun x => { x.unlocked with phase := .down }
    let s := if on = [] then s else s.exchangeCredits k on grants
    if on = [] || decide (given 0 < 64) || decide (given 3 < 16) then
      (s.each on fun s n => s.modLane n fun x => { x.unlocked with phase := .down }).modLink k fun _ => { l with phase := .down, trainPhase := 0 }
    else
      let s := s.each on fun s n => s.modLane n fun x => { x with phase := .inLink }
      (s.modLink k fun l => { l with phase := .up, txEi := false, rxEi := false, trainPhase := 0 }).sessionLinkUp k

def execLinkTrainingDone (link : LinkId) (lanes : List LaneTraining) (grants : List Nat) (s : State) : Out := .next (linkTrainingDone link lanes grants s)

/-! ### Electrical idle of the chip's direction (R559 to R562) -/

/-- The transmitter has a DATA or LINK flit to send (R559). -/
def Link.hasFlit (l : Link) : Bool := l.linkTx ≠ [] || l.change.any (fun c => c.fromChip && !c.acked) || l.classes.toList.any ClassState.ready || l.txSlot ≠ []

/-- EI_ENTRY: EI_ENTER goes out in a last codeword of every lane, and the transmitter stops (R559). Log entry 126: DEDUCED. -/
def eiEntry (k : LinkId) (s : State) : State :=
  let l := s.link k
  if l.carries && s.eiEn k && !l.txEi && !l.hasFlit then
    ((s.modLink k fun l => { l with linkTx := [le 1 5] }).each l.service (State.sendCodeword k)).modLink k fun l => { l with txEi := true }
  else s

def execEiEntry (link : LinkId) (s : State) : Out := .next (eiEntry link s)

/-- EI_EXIT: the transmitter wakes for a flit (R561, R562). -/
def eiExit (k : LinkId) (s : State) : State :=
  let l := s.link k
  if l.carries && l.txEi && l.hasFlit then ((s.modLink k fun l => { l with txEi := false }).each l.service State.sendWake).bump (lkey k 0x34) else s

def execEiExit (link : LinkId) (s : State) : Out := .next (eiExit link s)

/-! ### LANE_TEST (R565 to R569) -/

def laneId (n : Nat) : LaneId := ⟨n % 16, Nat.mod_lt _ (by decide)⟩

/-- The refusals of LANE_TEST (R566, R567). -/
def laneTestCheck (p : Params) (s : State) : Option Refuse :=
  let inject := par p 8 8
  if 15 < par p 0 1 then rangeAt 0
  else if 3 < par p 1 1 then rangeAt 1
  else if 3 < par p 2 1 then rangeAt 2
  else if 1 < par p 3 1 then rangeAt 3
  else if par p 4 4 = 0 then rangeAt 4
  else if inject ≠ 0 ∧ (inject < 2 ^ 10 ∨ 2 ^ 40 < inject) then rangeAt 8
  else
    let st := (s.lane (laneId (par p 0 1))).phase
    if st = .out ∨ st = .failed then none else some (stState, detChip)

/-- Log entry 126: DEDUCED. -/
def doLaneTest (h : Hdr) (p : Params) (s : State) : State :=
  packet opLaneTest h p s (laneTestCheck p) fun s d =>
    let n := laneId (par p 0 1)
    let wait := par p 3 1 = 1
    let f := s.takeFree
    let s := f.2
    let t : LaneTest := {
      pattern := par p 1 1, mode := par p 2 1, durationUs := par p 4 4, inject := par p 8 8, waiter := if wait then some d else none, back := (s.lane n).phase
      gen := patternStart (par p 1 1) f.1, sent := 0, received := 0, recent := [], place := none, inTime := false }
    let s := [0x20, 0x24, 0x28, 0x2C].foldl (fun (s : State) o => s.setReg (nkey n o) 0) s
    let s := s.modLane n fun x => { x with phase := .testing, test := some t, testValid := false }
    if wait then s else s.reply d stDeferred

/-- LANE_TEST (R565 to R567). -/
def execLaneTest (h : Hdr) (p : Params) (s : State) : Out := .next (front .laneTest opLaneTest.opcode h p s doLaneTest)

/-- The bits that a test compares beyond the symbols given, and those that are wrong: in near-end loopback, of the 53,125 symbols of each µs those still to come, once the checker has its 64 (R567, R568). -/
def LaneTest.rest (t : LaneTest) (more wrong : Nat) : Nat × Nat :=
  let all := 53125 * t.durationUs
  if t.mode = 3 then (2 * (all - max t.sent 64), if t.inject = 0 then 0 else 2 * all / t.inject - 2 * t.sent / t.inject)
  else if t.mode = 0 || t.place.isNone then (0, 0)
  else (2 * more, wrong)

/-- LANE_TEST_DONE: the rest of the symbols is compared, and the result published; it is valid when the checker locked within the first 1 µs, as it does in near-end loopback (R567, R568). Log entry 126: DEDUCED. -/
def laneTestDone (n : LaneId) (line : List (Fin 4)) (more wrong : Nat) (s : State) : State :=
  let s := if (s.lane n).checksLine then s.checkTest n (unprecode (s.lane n).rxPrecode (s.lane n).rxLast line) else s
  match (s.lane n).test with
  | none => s
  | some t =>
    let r := t.rest more wrong
    ((s.bump64 (nkey n 0x28) r.1).bump64 (nkey n 0x20) r.2).endTest n (t.mode = 3 || (t.mode ≠ 0 && t.inTime)) t.back

def execLaneTestDone (lane : LaneId) (line : List (Fin 4)) (more wrong : Nat) (s : State) : Out := .next (laneTestDone lane line more wrong s)

/-! ### Live words of page 0x04 (R571) -/

/-- `LINK_CFG` and `LINK_STATUS`. -/
def Link.cfgWord (l : Link) : Word := if l.isDefined then packW [(31, 1), (16, l.base), (0, l.width)] else 0
def Link.statusWord (l : Link) : Word :=
  let code := match l.phase with | .down => 0 | .training => 1 | .up => 2 | .changing => 3
  packW [(30, code), (29, b2n l.txEi), (28, b2n l.rxEi), (8, l.inService.toNat), (0, l.service.length)]

/-- `LANE_STATUS`, and the word that holds `FEC_PEAK`. -/
def Lane.statusWord (x : Lane) : Word :=
  let code := match x.phase with | .down => 0 | .training => 1 | .inLink => 2 | .out => 3 | .testing => 4 | .failed => 5 | .retraining => 6
  packW [(28, code), (27, b2n x.rxPrecode), (26, b2n x.txPrecode), (25, b2n x.lock), (24, b2n x.signal), (16, x.attempts), (8, x.ctle.toNat), (0, x.eyeMv.toNat)]
def Lane.peakWord (x : Lane) : Word := packW [(7, b2n x.testValid), (6, b2n x.test.isSome), (0, x.fecPeak)]

end Sys2Proof.Machine
end

