-- ==== Sys2Proof/Machine/Clocks.lean ====
section
/-! DEFINITION. Clock sources and their judgement (R645 to R652), stop, switch and restart of the timing domain (R653 to R659, R683), chip time with its tick and its commands (R660 to R667, R218 to R220, R865). -/

namespace Sys2Proof.Machine

/-! ### Chip time (R660 to R667) -/

/-- Chip time in units of 2^-32 ns. -/
def Time.total (t : Time) : Nat := 2 ^ 32 * t.ns + t.frac
def Time.setTotal (t : Time) (v : Nat) : Time := { t with ns := v / 2 ^ 32 % 2 ^ 64, frac := v % 2 ^ 32 }

/-- How chip time ran up to now is kept before it steps or its increment changes (R378, R661). Log entry 167: DEDUCED. -/
def Time.mark (t : Time) : Time := { t with past := { till := 4000 * t.ticks, total := t.total, increment := t.increment } :: t.past }

/-- The elapsed time goes on by a stop of the timing domain, during which chip time is held (R654). -/
def Time.held (t : Time) (stopNs : Nat) : Time :=
  let t := t.mark
  let now := t.ticks + stopNs
  { t with ticks := now, past := { till := 4000 * now, total := t.total, increment := 0 } :: t.past }

/-- Every instance in play or in its hold takes `TIME` while the condition of R667 holds. -/
def State.timeCause (s : State) : State := if s.timeBad then s.each (List.finRange 8) fun s q => s.onQuire q fun x => x.w.causeAll cbTime else s

/-- The TIME_STEP entry of a step of chip time, in ns (R788). Log entry 128: DEDUCED. -/
def State.logStep (s : State) (step : Int) (injected : Bool := false) : State :=
  let v := ofInt 64 step
  s.log' 0x1B 11 (BitVec.ofNat 32 v) (BitVec.ofNat 32 (v / 2 ^ 32)) 0 injected

/-- A FOLLOW chip enters ACQUIRE (R681). Log entry 128: DEDUCED. -/
def State.acquire (s : State) : State := if s.syncMode = 1 then { s with time := { s.time with syncState := .acquire, misses := 0 } } else s

/-- Chip time is set by TIME_SET or a kettle time load, to units of 2^-32 ns (R663, R666, R681, R695). Log entry 135: DEDUCED. -/
def State.loadTime (s : State) (total : Nat) : State :=
  let old := s.time.ns
  let s := { s with time := { s.time.mark.setTotal total with valid := true } }
  (((s.bump (rk 2 0x20)).logStep ((s.time.ns : Int) - old)).acquire).timeCause

/-- A TIME_SET, a TIME_ADJ or a kettle time load takes effect at a tick, the latter 1 ns after a restart (R662, R663, R695, R865). Log entries 128, 131, 135: DEDUCED. -/
def State.applyTime (s : State) : TimeChange → State
  | .set ns => s.loadTime (2 ^ 32 * ns)
  | .adj i => { s with time := { s.time.mark with increment := i.toNat } }
  | .load total before => s.loadTime (total + ((before + 4000) * s.time.increment / 4000).toNat)

/-- A tick of a quire, the `ticks`-th since power-on and `n` after the last one: items of the delay list that are due move to the ready list in list order (R218), the channel's clock goes on,
edges and a park profile that are due act on the pins (R268, R275, R290), and pulses of the markers end (R303, R305). Log entry 91: DESIGN CHOICE. -/
def Quire.tick (ns n ticks : Nat) (q : Quire) : Quire :=
  let due := fun (it : Item) => match it.due with | some d => decide (d ≤ ns) | none => true
  { (q.pinsAt (ticks * 4000)).markerTick (ticks * 4000) with dram := { q.dram with clock := q.dram.clock + n }, ready := q.ready ++ q.delay.filter due, delay := q.delay.filter fun it => !due it }

/-! ### Changed selections (R795) -/

/-- The pin whose events an element carries: a pin's own generator, or the endpaper as 32; the other elements carry none (R792). -/
def Quire.carries (q : Quire) (elem : Nat) : Option Nat := if elem < 32 then some elem else if elem = 32 then q.endpaper.drives.map (·.val) else none

/-- The drive edges and strobes of a pin, in units of 0.25 ps from the run origin: those of the vectors laid out last, and the edges still to act. -/
def Quire.laneEvents (q : Quire) (p : Nat) : List Int :=
  ((q.spilled.filter fun e => e.pin = p).map (·.time)) ++ (q.playing.toList ++ q.recent).flatMap fun y =>
    match y.chunk with
    | some c => ((q.chunkEvents c y.hold y.startsAt).filter fun e => e.pin = p).map (·.time)
        ++ ((List.range c.vectors).filter fun v => q.strobes (c.sets.getD v 64) p).map fun v => q.strobeTime y c v p
    | none => []

/-- In the last tick there is an instant at least 31.25 ps from every event of the element's lanes (R795). Log entry 141: DESIGN CHOICE. -/
def Quire.mayReselect (q : Quire) (ticks elem : Nat) : Bool :=
  match q.carries elem with
  | none => true
  | some p =>
    let till : Int := 4000 * (ticks : Int) - q.originAt
    let events := (q.laneEvents p).filter fun e => decide (till < e + 4125) && decide (e < till + 125)
    ((till - 3999) :: events.map (· + 125)).any fun u => decide (till < u + 4000) && decide (u ≤ till) && events.all fun e => decide (125 ≤ |u - e|)

/-- The changed selections whose instant has come take effect (R795). -/
def State.reselect (s : State) : State :=
  let may := fun (r : Reselect) => (s.quires.toList.getD r.quire .reset).mayReselect s.time.ticks r.element
  { s with cal := { s.cal with
    selections := (s.cal.waiting.filter may).foldl (fun l r => lput [] l r.quire (lput ⟨[], []⟩ (l.getD r.quire []) r.element r.trim)) s.cal.selections
    waiting := s.cal.waiting.filter fun r => !may r } }

/-- TIME_TICK (R218, R220, R660, R662 to R664, R795, R865). Log entries 9, 154: DESIGN CHOICE; log entry 131: DEDUCED. -/
def timeTick (s : State) : State :=
  if !s.timingRuns then s
  else
    let s := { s with time := { s.time.setTotal (s.time.total + s.time.increment) with ticks := s.time.ticks + 1 } }
    let todo := s.time.pending
    let s := todo.foldl State.applyTime { s with time := { s.time with pending := [] } }
    { s with quires := s.quires.map (Quire.tick s.time.ns 1 s.time.ticks) }.reselect

def execTimeTick (s : State) : Out := .next (timeTick s).takeStreams

def doTimeSet (h : Hdr) (p : Params) (s : State) : State :=
  packet opTimeSet h p s (fun s => if !t12Ok s.modeOz p 0 || decide (2 ^ 63 ≤ parT12 s.modeOz p 0) then rangeAt 0 else none) fun s d =>
    { s with time := { s.time with pending := s.time.pending ++ [TimeChange.set (parT12 s.modeOz p 0)] } }.reply d stOk

/-- TIME_SET (R663, R865). -/
def execTimeSet (h : Hdr) (p : Params) (s : State) : Out := .next (front .timeSet opTimeSet.opcode h p s doTimeSet)

/-- Log entry 131: DEDUCED. -/
def doTimeAdj (h : Hdr) (p : Params) (s : State) : State :=
  let v := par p 0 8
  packet opTimeAdj h p s (fun _ => if 0x00FFBE76C9 ≤ v ∧ v ≤ 0x0100418937 then none else rangeAt 0) fun s d =>
    { s.bump (rk 2 0x24) with time := { s.time with pending := s.time.pending ++ [TimeChange.adj (BitVec.ofNat 40 v)] } }.reply d stOk

/-- TIME_ADJ (R662, R865). -/
def execTimeAdj (h : Hdr) (p : Params) (s : State) : Out := .next (front .timeAdj opTimeAdj.opcode h p s doTimeAdj)

def doTimeRead (h : Hdr) (p : Params) (s : State) : State :=
  packet opTimeRead h p s (fun _ => none) fun s d => s.reply d stOk 0 (t12 s.modeOz s.time.ns ++ le 4 s.time.frac ++ le 8 s.time.increment)

/-- TIME_READ (R660). -/
def execTimeRead (h : Hdr) (p : Params) (s : State) : Out := .next (front .timeRead opTimeRead.opcode h p s doTimeRead)

/-! ### Stop, switch, restart (R653 to R656) -/

def State.recGood (s : State) : Bool := s.clock.recovered = .good && s.recEn

/-- Step 2 of R653: the preferred source if it is good, otherwise the other one (R656). -/
def State.pickSource (s : State) : TimingSrc :=
  let xo := decide (s.clock.xo = .good)
  match s.clock.next with
  | .recovered => if s.recGood then .recovered else if xo then .xo else .none
  | _ => if xo then .xo else if s.recGood then .recovered else .none

/-- The PLL takes its source, or none: the domain locks, or stays stopped. -/
def State.switchSource (s : State) : State :=
  let src := s.pickSource
  { s with clock := { s.clock with timingSrc := src, domain := if src = .none then .stopped else .locking } }

/-- The quires that a stop of the timing domain acts on (R654, R754). -/
def State.stoppable (s : State) : List QId := (List.finRange 8).filter fun q => (s.quire q).state.inRun

/-- A stop of the timing domain at one quire (R654, R301, R452): an ARM in progress is answered STATE, and a REBIND in progress goes on to STAGED. -/
def State.stopQuireClock (s : State) (q : QId) : State :=
  let us := (List.finRange 8).filter fun u => (s.quire q).tmus[u].isSome
  let s := s.each us fun s u =>
    s.logEvent { code := 0x14, source := 6, quire := some q, injected := s.clock.stopInjected, exempt := false, d0 := BitVec.ofNat 32 u.val, d1 := 0, d2 := 0, at_ := none }
  let s := s.onQuire q fun x => x.w.tmusEndEarly s.modeOz 0x6 stOk 0 true
  if (s.quire q).state.inRun then
    (s.stopQuire q .clock).onQuire q fun x => x.w.finishRebind
  else s.onQuire q fun x => (x.w.epAbort 0x03).cancelPattern

/-- The timing clock is gated (R653 to R655). Log entry 29: DESIGN CHOICE; log entry 130: DEDUCED. -/
def State.gateClock (s : State) (lost : Word) : State :=
  let s := { s.setReg (rk 1 0x0C) lost with clock := { s.clock with domain := .stopped, lastSrc := s.clock.timingSrc } }
  let s := s.each (List.finRange 8) State.stopQuireClock
  ({ s with time := { s.time with validBefore := s.time.valid, valid := false } }.timeCause).switchSource

/-- A stop of the timing domain is asked for, with the source preferred after it; when the old source has stopped, the handshake has to time out first (R653, R655). A stop already under way completes. Log entry 130: DEDUCED. -/
def State.stopDomain (s : State) (prefer : TimingSrc) (sourceStopped : Bool) (injected : Bool := false) : State :=
  let s := { s with clock := { s.clock with next := prefer, stopInjected := if s.clock.domain = Domain.running then injected else s.clock.stopInjected } }
  match s.clock.domain with
  | .running => if sourceStopped then { s with clock := { s.clock with domain := .stopping } } else s.gateClock 24
  | .stopping => s
  | .stopped | .locking => s.switchSource

/-- STOP_HANDSHAKE_TIMEOUT (R655). Log entry 19: DESIGN CHOICE. -/
def stopHandshakeTimeout (s : State) : State :=
  if s.clock.domain = .stopping then (s.bump (rk 1 0x1C)).gateClock 0xFFFFFFFF else s

def execStopHandshakeTimeout (s : State) : Out := .next (stopHandshakeTimeout s)

/-- The domain has been started by boot (R836). Log entry 127: DEDUCED. -/
def State.domainBooted (s : State) : Bool := decide (6 ≤ s.boot.step)

/-- What TIMING_RESTART does to chip time (R683, R865). Log entries 127, 128: DEDUCED. -/
def State.restartTime (s : State) (stopNs : Nat) : State :=
  let t := s.time
  let waitsSet := t.pending.any fun c => match c with | .adj _ => false | _ => true
  let t := t.held stopNs
  let t := { t with pending := t.pending.map fun c => match c with | TimeChange.load v b => TimeChange.load v (b + 4000 * stopNs) | c => c }
  let follow := decide (s.syncMode = 1)
  let s :=
    if stopNs ≤ 3 * fld (s.reg (rk 3 0)) 0 16 then
      let sync := if follow && t.syncState ≠ .wait then SyncState.acquire else t.syncState
      if waitsSet then { s with time := { t with syncState := sync, misses := 0 } }
      else { s with time := { t.setTotal (t.total + 2 ^ 32 * stopNs) with valid := t.validBefore, syncState := sync, misses := 0 } }.logStep stopNs s.clock.stopInjected
    else { s with time := { t with syncState := if follow then .wait else t.syncState, misses := 0 } }
  s.timeCause

/-- The code of `TIMING_SRC` (R698). -/
def srcCode : TimingSrc → Nat
  | .none => 0 | .recovered => 1 | .xo => 2

/-- TIMING_RESTART: the PLL has locked (R653, R683); a change of source is a completed switch. The start at boot (R836) follows no stop. Log entries 127, 130: DEDUCED. -/
def timingRestart (relockNs stopNs : Nat) (s : State) : State :=
  if s.clock.domain ≠ .locking then s
  else
    let src := s.clock.timingSrc
    let first := decide (s.clock.lastSrc = TimingSrc.none)
    let switched := !first && decide (src ≠ s.clock.lastSrc)
    let s := (s.setReg (rk 1 0x10) (BitVec.ofNat 32 relockNs)).live 0x05 false
    let s := if switched then (s.bump (rk 1 0x14)).log' 0x1A 10 (packW [(4, srcCode src)]) (s.reg (rk 1 0x0C)) 0 s.clock.stopInjected else s
    let s := { s with
      clock := { s.clock with domain := .running, adoptedOnce := s.clock.adoptedOnce || decide (src = TimingSrc.recovered) }
      quires := s.quires.map fun (q : Quire) => { q with dram := { q.dram with clock := q.dram.clock + stopNs } } }
    if first then { s with time := s.time.held stopNs } else s.restartTime stopNs

def execTimingRestart (relockNs stopNs : Nat) (s : State) : Out := .next (timingRestart relockNs stopNs s)

/-! ### Judgement (R645 to R647) -/

/-- REC is judged (R646, R647). Log entry 129: DEDUCED. -/
def State.recJudged (s : State) : Bool := s.recEn && (s.lane (laneId s.refLane)).lock && s.clock.xo = .good

/-- A window of 10 µs lies within the tolerance of R646: the XO against the LRO, or against REC while that is GOOD; REC against the XO. -/
def Clock.within (c : Clock) (src : ClkSource) (d : WindowDrift) : Bool :=
  if src = .xo ∧ c.recovered ≠ .good then decide (|d.lro| ≤ 1000000) else decide (|d.other| ≤ 1000)

/-- JUDGE_WINDOW (R646, R647, R656, R834). Log entries 1, 19: DESIGN CHOICE. -/
def judgeWindow (src : ClkSource) (drift : WindowDrift) (s : State) : State :=
  let c := s.clock
  let within := c.within src drift
  match src with
  | .xo =>
    if c.xo = .good || s.boot.step < 2 then s
    else if !within then { s with clock := { c with xoWindows := 0 } }
    else if c.xoWindows + 1 < 3 then { s with clock := { c with xoWindows := c.xoWindows + 1 } }
    else
      let s := { s with clock := { c with xo := .good, xoWindows := 3, ctrlOnLro := false, xoArmed := true }, boot := { s.boot with xoGood := true } }
      if s.domainBooted && c.domain = .stopped then s.switchSource else s
  | .recovered =>
    if c.recovered ≠ .judging then s
    else if !s.recJudged || !within then { s with clock := { c with recWindows := 0 } }
    else if c.recWindows + 1 < 3 then { s with clock := { c with recWindows := c.recWindows + 1 } }
    else { s with clock := { c with recovered := .good, recWindows := 3 } }.live 0x04 false

def execJudgeWindow (src : ClkSource) (drift : WindowDrift) (s : State) : Out := .next (judgeWindow src drift s)

/-- REC restarts its judgement (R647, R659). Log entries 129, 148: DEDUCED. -/
def State.rejudgeRec (s : State) : State := { s with clock := { s.clock with recovered := .judging, recWindows := 0 } }.live 0x04 false

/-! ### The clock monitor (R648 to R652) -/

/-- A trip of the monitor (R650): a real condition that lasts already makes no new report (R756). Log entry 129: DEDUCED. -/
def State.trip (s : State) (sourceStopped injected : Bool) : State :=
  let stops := decide (s.clock.timingSrc = .recovered) && s.clock.domain ≠ .stopped
  let lasts := !injected && s.collector.real.getLsbD 4
  let s := { s.bump (rk 1 0x18) with clock := { s.clock with recovered := .failed, recWindows := 0 } }
  let s := if injected then s else s.live 0x04 true
  let s := if lasts then s else s.report .alert 0x04 none (if stops then s.stoppable else []) 0xFF 0 0 injected
  if stops then s.stopDomain .xo sourceStopped injected else s

/-- The 16-bit signed form of a drift in ppm; 0x8000 is kept for "not measured" (R698). -/
def ppmWord (v : Int) : BitVec 16 := BitVec.ofNat 16 (ofInt 16 (max (-32767) (min 32767 v)))

/-- MONITOR_WINDOW (R648, R650): made while REC and the XO are both GOOD; 10 ps of a window are 1 ppm. Of injected windows the first one trips the monitor (R862). -/
def monitorWindow (driftPs : Int) (s : State) : State :=
  if s.clock.recovered = .good ∧ s.clock.xo = .good then
    let first := nthInjected 0x04 0 1 s.collector.injections
    let r := s.check 0x04 0
    let s := { r.2 with clock := { r.2.clock with recPpm := ppmWord (driftPs.tdiv 10) } }
    let real := decide (2000 < |driftPs|)
    if real then s.trip false false else if r.1 && first then s.trip false true else s
  else s

def execMonitorWindow (driftPs : Int) (s : State) : Out := .next (monitorWindow driftPs s)

/-- REC_EDGE_LOSS (R649, R650). -/
def recEdgeLoss (missing : Nat) (s : State) : State := if 16 ≤ missing then s.trip true false else s

def execRecEdgeLoss (missing : Nat) (s : State) : Out := .next (recEdgeLoss missing s)

/-- REC_REJUDGE (R650). Log entry 129: DEDUCED. -/
def recRejudge (s : State) : State := if s.clock.recovered = .failed then { s with clock := { s.clock with recovered := .judging, recWindows := 0 } } else s

def execRecRejudge (s : State) : Out := .next (recRejudge s)

/-- XO_EDGE_LOSS (R651, R656, R834): the edges expected after the missing ones take the injected checks, one each, and are missing as well (R862). REC in judgement begins anew (R647). Log entry 129: DEDUCED. -/
def xoEdgeLoss (missing : Nat) (s : State) : State :=
  if !s.clock.xoArmed then s
  else
    let mine := s.collector.injections.filter fun i => i.checker = 0x01
    let n := (mine.map (·.left)).sum
    let s := { s with collector := { s.collector with injections := s.collector.injections.filter fun i => i.checker ≠ 0x01 } }
    if 16 ≤ missing + n then s.report .chip 0x01 none [] 0xFF 0x11 0 (decide (missing < 16))
    else if missing + n = 0 then s
    else
      let s : State := { s.bump (rk 1 0x20) with clock := { s.clock with
        xo := .judging, xoWindows := 0, ctrlOnLro := true, recWindows := if s.clock.recovered = .judging then 0 else s.clock.recWindows } }
      if s.clock.timingSrc = .xo then s.stopDomain .recovered false (decide (missing = 0)) else s

def execXoEdgeLoss (missing : Nat) (s : State) : Out := .next (xoEdgeLoss missing s)

/-- PLL_LOCK_LOSS (R652, R656): a lock check finds the PLL unlocked. The first injected check is the loss itself; later ones come with a real loss (R862). Log entry 129: DEDUCED. -/
def pllLockLoss (s : State) : State :=
  let first := nthInjected 0x05 0 1 s.collector.injections
  let s := (s.check 0x05 0).2
  if s.clock.domain ≠ .running then s
  else
    let s := (if first then s else s.live 0x05 true).report .alert 0x05 none s.stoppable 0xFF 0 0 first
    s.stopDomain s.clock.timingSrc false first

def execPllLockLoss (s : State) : Out := .next (pllLockLoss s)

/-- `REVERT_EN` (R698). -/
def State.revertEn (s : State) : Bool := bit (s.reg (rk 1 0)) 1

/-- REC_ADOPTION (R658). -/
def recAdoption (s : State) : State :=
  if s.recGood && s.timingRuns && s.clock.timingSrc = .xo && (!s.clock.adoptedOnce || s.revertEn) && s.stoppable = [] then s.stopDomain .recovered false else s

def execRecAdoption (s : State) : Out := .next (recAdoption s)

/-! ### Live words of page 0x01 (R698) -/

def srcState : SrcState → Nat
  | .judging => 0 | .good => 1 | .failed => 2

/-- `CLK_STATUS`. -/
def Clock.statusWord (c : Clock) : Word :=
  let dom := match c.domain with | .running => 0 | .stopping => 1 | .stopped => 2 | .locking => 3
  packW [(28, srcCode c.timingSrc), (24, dom), (20, srcState c.xo), (16, srcState c.recovered), (0, b2n c.ctrlOnLro)]

/-- `CLK_MONITOR`; a REC that is not judged shows no windows (R647). -/
def State.monitorWord (s : State) : Word :=
  let c := s.clock
  packW [(16, c.recPpm.toNat), (8, c.xoWindows), (0, if c.recovered = .judging ∧ !s.recJudged then 0 else c.recWindows)]

end Sys2Proof.Machine
end

