-- ==== Sys2Proof/Machine/TimeSync.lean ====
section
/-! DEFINITION. Time messages (R668 to R676), SYNC (R677 to R682, R686) and the kettle chain (R692 to R697). -/

namespace Sys2Proof.Machine

/-! ### Time messages -/

/-- Big-endian number of `n` bytes at an offset of a 1588 message. -/
def be (m : List Byte) (off n : Nat) : Nat := unle ((m.drop off).take n).reverse
def beBytes (n v : Nat) : List Byte := (le n v).reverse
/-- A signed field of 8 bytes, in units of 2^-16 ns. -/
def be64 (m : List Byte) (off : Nat) : Int := sext (be m off 8) 64

/-- The chip's port on a link: `clockIdentity` and `portNumber` (R668). -/
def portIdentity (k : LinkId) : List Byte := beBytes 8 Config.dieSerial.toNat ++ beBytes 2 (k.val + 1)

/-- `PTP_DOMAIN`, `DREQ_EN` (R699). -/
def State.ptpDomain (s : State) : Nat := fld (s.reg (rk 2 0x1C)) 16 8
def State.dreqEn (s : State) (k : LinkId) : Bool := bit (s.reg (rk 2 0x1C)) (8 + k.val)

/-- The header checks of R668 for a message of a type and length. Log entry 132: PRESUMED. -/
def ptpFormed (s : State) (m : List Byte) (type len : Nat) : Bool :=
  m.length = len && (m.getD 0 0).toNat = type && (m.getD 1 0).toNat = 0x12 && be m 2 2 = len && (m.getD 4 0).toNat = s.ptpDomain

def pkey (k : LinkId) (off : Nat) : Nat := rk 2 (0x100 + 0x40 * k.val + off)
def State.ptp (s : State) (k : LinkId) : Ptp := s.time.ptp[k]
def State.modPtp (s : State) (k : LinkId) (f : Ptp → Ptp) : State := { s with time := { s.time with ptp := s.time.ptp.set k (f s.time.ptp[k]) } }
def State.ptpDiscard (s : State) (k : LinkId) : State := s.bump (pkey k 0x3C)

/-- The chip time of an instant `sub` units of 2^-16 ns after the last tick, scaled by the increment (R661, R670). Log entry 135: DEDUCED. -/
def State.stampAt (s : State) (sub : Nat) : Stamp :=
  let v := s.time.total + sub * s.time.increment / 2 ^ 16
  { ns := v / 2 ^ 32, frac := BitVec.ofNat 16 (v % 2 ^ 32 / 2 ^ 16) }

/-- A stamp in units of 2^-16 ns. -/
def Stamp.units (x : Stamp) : Int := 2 ^ 16 * x.ns + x.frac.toNat

/-- The nanoseconds of a 1588 timestamp (R668). -/
def ptpNs (m : List Byte) (off : Nat) : Nat := be m off 6 * 1000000000 + be m (off + 6) 4

/-- A Sync that its link takes: its stamp was made as it came, if the timing domain ran (R669, R670, R673). Log entry 132: PRESUMED. -/
def takeSync (k : LinkId) (m : List Byte) (stamp : Option Stamp) (s : State) : State :=
  match stamp with
  | some t2 =>
    if ptpFormed s m 0 44 && (m.getD 6 0).getLsbD 1 then s.modPtp k fun x => { x with syncMsg := some (BitVec.ofNat 16 (be m 30 2), be64 m 8, t2), t2 := t2 } else s.ptpDiscard k
  | none => s.ptpDiscard k

/-- A Follow_Up that its link takes (R669, R671, R673). Log entry 132: PRESUMED. -/
def takeFollowUp (k : LinkId) (m : List Byte) (s : State) : State :=
  match (s.ptp k).syncMsg with
  | some y =>
    if ptpFormed s m 8 44 && decide (y.1.toNat = be m 30 2) then
      s.modPtp k fun x => { x with syncMsg := none, completed := some (y.1, (ptpNs m 34 : Nat), y.2.1 + be64 m 8, y.2.2), dreqDue := x.dreqDue + b2n (s.dreqEn k) }
    else s.ptpDiscard k
  | none => s.ptpDiscard k

/-- A Delay_Resp that its link takes (R669, R672, R673). Log entry 132: PRESUMED. -/
def takeDelayResp (k : LinkId) (m : List Byte) (s : State) : State :=
  match (s.ptp k).dreq, (s.ptp k).completed with
  | some d, some c =>
    if ptpFormed s m 9 54 && (m.drop 44).take 10 = portIdentity k && decide (d.1.toNat = be m 30 2) then
      let ms := c.2.2.2.units - c.2.1 * 2 ^ 16 - c.2.2.1
      let sm := (ptpNs m 34 : Int) * 2 ^ 16 - d.2.units - be64 m 8
      let delay := (ms + sm) / 2
      s.modPtp k fun x => { x with dreq := none, exchValid := true, exchSeq := c.1, delay := delay, offset := ms - delay }
    else s.ptpDiscard k
  | _, _ => s.ptpDiscard k

/-- The Spine takes a time message and frees its buffer (R545, R673). Log entry 132: PRESUMED. -/
def State.takeTime (s : State) (m : TimeMsg) : State :=
  let s := s.freeBuffer m.link .time
  if !s.ptpEn m.link then s.ptpDiscard m.link
  else match m.type with
    | 0 => takeSync m.link m.bytes m.stamp s
    | 8 => takeFollowUp m.link m.bytes s
    | _ => takeDelayResp m.link m.bytes s

/-- A time message arrives: it waits while the Spine restarts (R637). -/
def timeMessage (m : TimeMsg) (s : State) : State :=
  if !(s.link m.link).carries then s else if s.restarting then { s with heldTimes := s.heldTimes ++ [m] } else s.takeTime m

/-- SYNC (R669, R670, R673), stamped as it arrives. -/
def syncMessage (k : LinkId) (m : List Byte) (sub : Nat) (s : State) : State :=
  timeMessage { link := k, type := 0, bytes := m, stamp := if s.timingRuns then some (s.stampAt sub) else none } s

def execSync (link : LinkId) (msg : List Byte) (sub : Nat) (s : State) : Out := .next (syncMessage link msg sub s)

/-- FOLLOW_UP (R669, R671, R673). -/
def followUp (k : LinkId) (m : List Byte) (s : State) : State := timeMessage { link := k, type := 8, bytes := m, stamp := none } s

def execFollowUp (link : LinkId) (msg : List Byte) (s : State) : Out := .next (followUp link msg s)

/-- The Delay_Req message, sent at chip time `ns` (R669). Log entry 132: PRESUMED. -/
def delayReqMsg (s : State) (k : LinkId) (seq : BitVec 16) (ns : Nat) : List Byte :=
  [0x01#8, 0x12#8] ++ beBytes 2 44 ++ le 1 s.ptpDomain ++ List.replicate 15 0 ++ portIdentity k ++ beBytes 2 seq.toNat ++ [0x01#8, 0x7F#8]
    ++ beBytes 6 (ns / 1000000000) ++ beBytes 4 (ns % 1000000000)

/-- DELAY_REQ (R671, R674, R675): the first one due is sent and stamped; none is sent while the timing domain is stopped (R654). -/
def delayReq (k : LinkId) (sub : Nat) (s : State) : State :=
  let x := s.ptp k
  if x.dreqDue = 0 then s
  else if !s.timingRuns || !(s.link k).carries then s.modPtp k fun x => { x with dreqDue := x.dreqDue - 1 }
  else
    let t3 := s.stampAt sub
    let full := decide (16 ≤ x.tsq.length)
    let s := s.modLink k fun l => l.send 3 (delayReqMsg s k x.dreqSeq t3.ns)
    let s := s.modPtp k fun x => { x with
      dreqDue := x.dreqDue - 1, dreqSeq := x.dreqSeq + 1, dreq := some (x.dreqSeq, t3)
      tsq := if full then x.tsq else x.tsq ++ [{ msgType := 1, seqId := x.dreqSeq, stamp := t3 }] }
    if full then s.bump (pkey k 0x38) else s

def execDelayReq (link : LinkId) (sub : Nat) (s : State) : Out := .next (delayReq link sub s)

/-- DELAY_RESP (R669, R672, R673). -/
def delayResp (k : LinkId) (m : List Byte) (s : State) : State := timeMessage { link := k, type := 9, bytes := m, stamp := none } s

def execDelayResp (link : LinkId) (msg : List Byte) (s : State) : Out := .next (delayResp link msg s)

/-- A write of `TSQ_POP` = 1 (R676). -/
def State.tsqPop (s : State) (k : LinkId) : State := s.modPtp k fun x => { x with tsq := x.tsq.drop 1 }

/-! ### SYNC (R677 to R682, R686) -/

def State.syncPeriod (s : State) : Nat := fld (s.reg (rk 3 0)) 0 16
def State.syncSkew (s : State) : Int := sfld (s.reg (rk 3 4)) 0 20
def State.syncWindow (s : State) : Nat := fld (s.reg (rk 3 8)) 0 16

/-- The error e of an edge `sub` units of 0.25 ps after the last tick, in those units (R679). Log entry 133: DEDUCED. -/
def State.edgeError (s : State) (sub : Nat) : Int :=
  let t : Int := ((s.time.total + sub * s.time.increment / 4000) * 4000 / 2 ^ 32 : Nat)
  let x := t - s.syncSkew
  let p : Int := 4000 * (max 1 s.syncPeriod : Nat)
  x - (2 * x + p) / (2 * p) * p

/-- `SYNC_ERROR` saturates at its limits (R700). -/
def clamp20 (e : Int) : Int := max (-524288) (min 524287 e)

/-- Chip time steps by −e (R680). Log entry 128: DEDUCED. -/
def State.stepBy (s : State) (e : Int) : State :=
  let v : Int := s.time.total - e * 2 ^ 32 / 4000
  { s with time := s.time.mark.setTotal (v.emod (2 ^ 96)).toNat }

/-- An edge `sub` units of 0.25 ps after the last tick counts as a SYNC edge for the waits of the quires whose first hold vector has started; the trigger reaches the timing front 16 ns later (R686). -/
def State.syncTrigger (s : State) (sub : Nat) : State :=
  let t := 4000 * s.time.ticks + sub
  s.each (List.finRange 8) fun s q => s.modQuire q fun x =>
    match x.seq.wait, x.seq.plan with
    | some (.trig since none), b :: _ =>
      if x.state = .running && fld (x.bindMatch b.entry) 30 2 = 0 && decide (since < t) then { x with seq := { x.seq with wait := some (.trig since (some (t + 64000))) } }.dropLanding else x
    | _, _ => x

/-- A miss; the second in a row is a SYNC loss (R680, R682). -/
def State.syncMiss (s : State) (injected : Bool) : State :=
  let s := s.bump (rk 3 0x14)
  if s.time.misses = 0 then { s with time := { s.time with misses := 1 } }
  else
    let s := { s.bump (rk 3 0x18) with time := { s.time with misses := 0, syncState := .acquire } }
    let acts := (List.finRange 8).filter fun q => (s.quire q).insts ≠ []
    ((if injected then s else s.live 0x06 true).report .alert 0x06 none acts 0xFF 0 0 injected).timeCause

/-- A SYNC edge that a FOLLOW chip expects in LOCKED takes an injected check: whether it is a miss by that. Checks after the second, which makes the one report, are none (R862). -/
def State.syncCheck (s : State) : Bool × State :=
  let counts := nthInjected 0x06 0 1 s.collector.injections || nthInjected 0x06 0 2 s.collector.injections
  let r := s.check 0x06 0
  (r.1 && counts, r.2)

/-- SYNC_IN_EDGE (R678 to R682, R686). Log entry 133: DEDUCED. -/
def syncInEdge (sub : Nat) (s : State) : State :=
  let mode := s.syncMode
  if !s.timingRuns || mode = 0 then s
  else
    let e := s.edgeError sub
    let s := { s.bump (rk 3 0x10) with time := { s.time with syncError := clamp20 e } }
    if mode ≠ 1 then s.syncTrigger sub
    else match s.time.syncState with
      | .acquire =>
        let old := s.time.ns
        let s := s.stepBy e
        let s := { s with time := { s.time with valid := true, syncState := .locked, misses := 0 } }
        (s.logStep ((s.time.ns : Int) - old)).live 0x06 false |>.syncTrigger sub
      | .locked =>
        let r := s.syncCheck
        if !r.1 && decide (|e| ≤ 4 * (r.2.syncWindow : Int)) then
          let s := r.2.stepBy e
          ({ s with time := { s.time with misses := 0 } }).syncTrigger sub
        else r.2.syncMiss (r.1 && decide (|e| ≤ 4 * (r.2.syncWindow : Int)))
      | _ => s

def execSyncInEdge (sub : Nat) (s : State) : Out := .next (syncInEdge sub s)

/-- SYNC_MISS_TIMEOUT (R680, R682). Log entry 133: DEDUCED. -/
def syncMissTimeout (s : State) : State :=
  if s.timingRuns && s.syncMode = 1 && s.time.syncState = .locked then
    s.syncCheck.2.syncMiss false
  else s

def execSyncMissTimeout (s : State) : Out := .next (syncMissTimeout s)

/-- The instant, from power-on in units of 0.25 ps, at which chip time was last a multiple of the period (R661, R678). -/
def State.lastMultiple (s : State) : Nat :=
  let p := 2 ^ 32 * max 1 s.syncPeriod
  4000 * s.time.ticks - s.time.total % p * 4000 / max 1 s.time.increment

/-- SYNC_OUT_PULSE (R678): the pulse begins at the last multiple of the period. -/
def syncOutPulse (s : State) : State :=
  if s.timingRuns && s.syncMode = 2 then { s with time := { s.time with syncOut := some s.lastMultiple } } else s

def execSyncOutPulse (s : State) : Out := .next (syncOutPulse s)

/-- `SYNC_OUT` is high: for 32 ns from the start of a pulse (R678). -/
def State.syncOutHigh (s : State) : Bool :=
  match s.time.syncOut with
  | some t => decide (s.syncMode = 2) && decide (4000 * s.time.ticks < t + 128000)
  | none => false

/-- A new `SYNC_MODE` (R680, R681): setting FOLLOW enters ACQUIRE. Log entry 148: DEDUCED. -/
def State.setSyncMode (s : State) (mode : Nat) : State :=
  let st := if mode = 1 then SyncState.acquire else SyncState.off
  ({ s with time := { s.time with syncState := st, misses := 0, syncOut := none } }.live 0x06 false).timeCause

/-! ### The kettle chain (R692 to R697) -/

def State.kcRole (s : State) : Nat := fld (s.reg (rk 3 0x100)) 30 2
def State.kcWirePs (s : State) : Nat := fld (s.reg (rk 3 0x100)) 0 24

def frameType (f : BitVec 96) : Nat := f.toNat / 2 ^ 8 % 16
def frameHop (f : BitVec 96) : Nat := f.toNat / 2 ^ 12 % 256
def framePayload (f : BitVec 96) : Nat := f.toNat / 2 ^ 20 % 2 ^ 64
def frameCrc (f : BitVec 96) : Nat := f.toNat / 2 ^ 84

/-- CRC-12 over bits [83:8] of a frame, in the order of transmission (R693). Log entry 134: DEDUCED. -/
def crc12 (f : BitVec 96) : BitVec 12 :=
  (List.range 76).foldl (fun (c : BitVec 12) i => if c.getLsbD 11 != f.getLsbD (8 + i) then (c <<< 1) ^^^ 0x80F#12 else c <<< 1) 0xFFF#12

/-- A frame from its fields, with its CRC, inverted or not. Log entry 134: DEDUCED. -/
def makeFrame (type hop payload : Nat) (inverted : Bool) : BitVec 96 :=
  let low : BitVec 96 := BitVec.ofNat 96 (0xD5 + 2 ^ 8 * type + 2 ^ 12 * (hop % 256) + 2 ^ 20 * (payload % 2 ^ 64))
  let c := crc12 low
  low + BitVec.ofNat 96 ((if inverted then ~~~c else c).toNat * 2 ^ 84)

/-- The frame passes its CRC and has a known type. -/
def frameOk (f : BitVec 96) : Bool := frameCrc f = (crc12 f).toNat && (frameType f = 1 || frameType f = 2)

/-- A member forwards a frame with `HOP` + 1 (R694). Log entry 134: DEDUCED. -/
def State.forward (s : State) (f : BitVec 96) (inverted : Bool) : State :=
  if s.kcRole = 2 then { s with time := { s.time with kco := some (makeFrame (frameType f) (frameHop f + 1) (framePayload f) inverted) } } else s

/-- A frame arrives on `KCI` (R692 to R696): `run` is its effect when it is valid. Log entry 134: DEDUCED. -/
def State.kettle (s : State) (f : BitVec 96) (run : State → State) : State :=
  if s.kcRole ≠ 1 ∧ s.kcRole ≠ 2 then s
  else if !frameOk f then (s.forward f true).bump (rk 3 0x114)
  else run ({ s.forward f false with time := { (s.forward f false).time with kcHop := BitVec.ofNat 8 (frameHop f) } }.bump (rk 3 0x110))

/-- A member's chip time at the instant bit 0 of a TIME_LOAD reached its `KCI`, in units of 2^-32 ns (R695). -/
def kcTime (s : State) (f : BitVec 96) : Nat := 2 ^ 32 * (framePayload f + frameHop f * 120) + 2 ^ 32 * s.kcWirePs / 1000

/-- TIME_LOAD (R661, R692, R694, R695): while the tick is stopped the load waits as a TIME_SET does (R865). Log entry 135: DEDUCED. -/
def timeLoad (f : BitVec 96) (age : FrameAge) (s : State) : State :=
  s.kettle f fun s =>
    if s.kcRole ≠ 2 ∨ frameType f ≠ 1 then s
    else if s.timingRuns then s.loadTime (kcTime s f + age.ago * s.time.increment / 4000)
    else { s with time := { s.time with pending := s.time.pending ++ [TimeChange.load (kcTime s f) age.beforeStop] } }

def execTimeLoad (frame : BitVec 96) (age : FrameAge) (s : State) : Out := .next (timeLoad frame age s)

/-- PING (R692, R694, R696). -/
def kettlePing (f : BitVec 96) (roundNs : Nat) (s : State) : State :=
  s.kettle f fun s =>
    if s.kcRole = 1 ∧ frameType f = 2 ∧ s.time.pingOut then
      { s with time := { s.time with pingOut := false, kcRingHops := BitVec.ofNat 8 (frameHop f), kcRoundNs := BitVec.ofNat 32 roundNs } }
    else s

def execPing (frame : BitVec 96) (roundNs : Nat) (s : State) : Out := .next (kettlePing frame roundNs s)

/-- PING_TIMEOUT (R696). Log entry 19: DESIGN CHOICE. -/
def pingTimeout (s : State) : State := if s.time.pingOut then { s with time := { s.time with pingOut := false, kcRoundNs := 0xFFFFFFFF } } else s

def execPingTimeout (s : State) : Out := .next (pingTimeout s)

/-- RESERVED_TYPE_FRAME (R694). -/
def reservedTypeFrame (f : BitVec 96) (s : State) : State := if frameOk f then s else s.kettle f id

/-- Log entry 134: DEDUCED. -/
def execReservedTypeFrame (frame : BitVec 96) (s : State) : Out := .next (reservedTypeFrame frame s)

/-- A write of `KC_SEND` on a master (R695 to R697). -/
def State.kcSend (s : State) (v : Nat) : State :=
  if v = 1 then { s with time := { s.time with kco := some (makeFrame 1 0 s.time.ns false) } }
  else if v = 2 then { s with time := { s.time with kco := some (makeFrame 2 0 0 false), pingOut := true } }
  else s

/-! ### Live words of pages 0x02 and 0x03 (R699, R700) -/

def State.timeWord (s : State) (oz : Bool) (i : Nat) : Word :=
  let w := timeWords oz s.time.ns
  match i with | 0 => w.1 | 1 => w.2.1 | _ => w.2.2

/-- Words of a link in page 0x02, by offset from its base. -/
def Ptp.word (x : Ptp) (oz : Bool) (o : Nat) : Word :=
  let t2 := timeWords oz x.t2.ns
  let h := x.tsq.head?
  let ht := timeWords oz ((h.map fun e => e.stamp.ns).getD 0)
  match o with
  | 0x00 => packW [(31, b2n x.exchValid), (0, x.exchSeq.toNat)]
  | 0x04 => BitVec.ofNat 32 (ofInt 64 x.offset)
  | 0x08 => BitVec.ofNat 32 (ofInt 64 x.offset / 2 ^ 32)
  | 0x0C => BitVec.ofNat 32 (ofInt 64 x.delay)
  | 0x10 => BitVec.ofNat 32 (ofInt 64 x.delay / 2 ^ 32)
  | 0x14 => t2.1 | 0x18 => t2.2.1 | 0x1C => t2.2.2
  | 0x20 => packW [(31, b2n h.isSome), (24, (h.map fun e => e.msgType.toNat).getD 0), (16, x.tsq.length), (0, (h.map fun e => e.seqId.toNat).getD 0)]
  | 0x24 => ht.1 | 0x28 => ht.2.1 | 0x2C => ht.2.2
  | 0x30 => packW [(16, (h.map fun e => e.stamp.frac.toNat).getD 0), (0, x.t2.frac.toNat)]
  | _ => 0

/-- The word at 0x0_000C of page 0x03. -/
def Time.syncWord (t : Time) : Word :=
  let code := match t.syncState with | .off => 0 | .wait => 1 | .acquire => 2 | .locked => 3
  packW [(30, code), (0, ofInt 20 t.syncError)]

/-- The word at 0x0_0108 of page 0x03. -/
def Time.hopWord (t : Time) : Word := packW [(24, t.kcHop.toNat), (16, t.kcRingHops.toNat)]

end Sys2Proof.Machine
end

