-- ==== Sys2Proof/Machine/Governor.lean ====
section
/-! DEFINITION. The governor's periods: sensors and heat (R719 to R723), telemetry and PMBus (R724, R725, R729 to R734), trim and floors (R715 to R718), `EI_AUTO` (R727), and the budget commands (R705 to R708). -/

namespace Sys2Proof.Machine

/-! ### Heat -/

def State.tSoft (s : State) : Int := (fld (s.reg (rk 5 0)) 8 8 : Nat)
def State.tHard (s : State) : Int := (fld (s.reg (rk 5 0)) 16 8 : Nat)

/-- An emergency park (R723): one log entry, and a THERMAL report for every quire in ARMED, RUNNING or PAUSED. Log entry 112: DEDUCED. -/
def State.emergencyPark (s : State) (cause : Byte) (sensor : Byte) (reading : Byte) (injected : Bool) : State :=
  let s := { s with gov := { s.gov with emergency := true } }.bump (rk 5 0x30C)
  let s := s.logEvent { code := 0x16, source := 12, quire := none, injected := injected, exempt := true
                        d0 := packW [(8, sensor.toNat), (0, reading.toNat)], d1 := 0, d2 := 0, at_ := none }
  let hit := (List.finRange 8).filter fun q => (s.quire q).state = .armed ∨ (s.quire q).state = .running ∨ (s.quire q).state = .paused
  s.each hit fun s q => s.report .quire 0x08 (some q) [] sensor cause 0 injected

/-- A temperature in whole °C, as a signed byte. -/
def celsius (t : Int) : Byte := BitVec.ofNat 8 (ofInt 8 (t / 16))

/-- The marks of the sensors (R720): set above `T_SOFT`, lost below `T_SOFT` − 5. Log entry 137: DEDUCED. -/
def State.marks (s : State) : BitVec 16 :=
  (List.range 16).foldl (fun (m : BitVec 16) i =>
    let t := s.gov.temps.getD i 0
    if 16 * s.tSoft < t then m ||| BitVec.ofNat 16 (2 ^ i)
    else if t < 16 * (s.tSoft - 5) then m &&& ~~~(BitVec.ofNat 16 (2 ^ i)) else m) s.gov.marked

/-- The hot zones of a quire: when both of its sensors are marked, those of the hotter one, or of sensor 2q on a tie (R719, R721). Log entry 137: DEDUCED. -/
def State.zonesOf (s : State) (q : QId) : BitVec 4 :=
  let a := s.gov.marked.getLsbD (2 * q.val)
  let b := s.gov.marked.getLsbD (2 * q.val + 1)
  let second := decide (s.gov.temps.getD (2 * q.val) 0 < s.gov.temps.getD (2 * q.val + 1) 0)
  (if a && (!b || !second) then 0b0011#4 else 0) ||| (if b && (!a || second) then 0b1100#4 else 0)

/-- New marks count in `HOT_MARKS` (R720). Log entry 137: DEDUCED. -/
def State.markZones (s : State) (q : QId) : State :=
  let old := (s.quire q).hotZones
  let new := s.zonesOf q
  let n := b2n (new.getLsbD 0 && !old.getLsbD 0) + b2n (new.getLsbD 2 && !old.getLsbD 2)
  let s := s.modQuire q fun x => { x with hotZones := new }
  if n = 0 then s else s.bump (rk 5 0x308) n

/-- One reading of a sensor against `T_HARD` (R723, R862). Log entries 112, 138: DEDUCED. -/
def State.hardCheck (s : State) (i : Nat) : State :=
  let r := s.check 0x08 i
  let s := r.2
  let real := decide (16 * s.tHard < s.gov.temps.getD i 0)
  let n := if real || r.1 then s.gov.hardCount.getD i 0 + 1 else 0
  let set := fun (s : State) v => { s with gov := { s.gov with hardCount := lset s.gov.hardCount i v } }
  let s := set s n
  let s := if n = 10 then s.emergencyPark 0x07 (BitVec.ofNat 8 i) (celsius (s.gov.temps.getD i 0)) (r.1 && !real) else s
  if 10 ≤ n ∧ !real ∧ !injecting 0x08 i s.collector.injections then set s 0 else s

/-- The live bit of THERMAL and the records of its reports follow its two conditions (R756, R757, R863). -/
def State.thermalLive (s : State) : State :=
  (s.live 0x08 (s.gov.hardCount.any (fun n => decide (10 ≤ n)) || decide (2 ≤ s.gov.overCount))).settleRecords

/-- SENSOR_READ (R719 to R723). Log entries 112, 138: DEDUCED. -/
def sensorRead (temps : List Int) (s : State) : State :=
  if s.boot.step = 0 then s
  else
    let t := (List.range 16).map fun i => temps.getD i (s.gov.temps.getD i 0)
    let peak := fun (i : Nat) => let c := t.getD i 0 / 16
      match s.gov.peaks.getD i none with | some p => some (max p c) | none => some c
    let top := t.foldl max (t.getD 0 0)
    let s := { s with gov := { s.gov with temps := t, peaks := (List.range 16).map peak, hotTemp := top, hotSensor := (t.idxOf top) % 16 } }
    let s := { s with gov := { s.gov with marked := s.marks } }
    let s := s.each (List.finRange 8) State.markZones
    let hold := t.any (fun v => decide (16 * (s.tHard - 5) ≤ v)) || (s.gov.thermalHold && !t.all fun v => decide (v < 16 * (s.tHard - 10)))
    let s := { s with gov := { s.gov with thermalHold := hold } }
    (s.each (List.range 16) State.hardCheck).thermalLive

/-- Log entry 151: DESIGN CHOICE. -/
def execSensorRead (temps : List Int) (s : State) : Out := .next (sensorRead temps s)

/-! ### Telemetry -/

/-- A VOUT fault or an off state in a `STATUS_WORD`: bits 15 and 6 of PMBus. Log entry 140: PRESUMED. -/
def statusBad (w : BitVec 16) : Bool := w.getLsbD 15 || w.getLsbD 6

/-- A STATUS_WORD that a rail has answered: a fault that it shows is cleared once read (R730, R734). Log entry 139: DEDUCED. -/
def State.railStatus (s : State) (i : Nat) (w : BitVec 16) : State :=
  let s := s.modRail i fun v => { v with status := w, state := if statusBad w then .fault else .ok }
  if statusBad w then s.pmSend i pmClearFaults false [] 0 else s

/-- A read of a rail, of whose tries `fails` fail; one that comes through has its effect. The setpoints that are due follow it (R731, R732). -/
def State.pmRead (s : State) (i : Nat) (code : Byte) (fails : Nat) (run : State → State) : State :=
  let s := s.pmSend i code true [] fails
  (if fails < 4 then run s else s).retarget

/-- READ_VOUT of a rail; that of rail 0 is `VCORE_MEAS` (R736). -/
def State.railVout (s : State) (i mv : Nat) : State :=
  let s := s.modRail i fun v => { v with vout := mv }
  if i = 0 then { s with gov := { s.gov with vcoreMeas := mv % 2048 } } else s

/-- The four reads of a rail in a telemetry cycle, in the order of their codes (R730, R731). Log entry 139: DEDUCED. -/
def State.readRail (s : State) (i : Nat) (x : RailTransfer) : State :=
  let r := x.reading
  let s := s.pmRead i pmStatusWord (x.fails.getD 0 0) fun s => s.railStatus i r.status
  let s := s.pmRead i pmReadVout (x.fails.getD 1 0) fun s => s.railVout i r.vout
  let s := s.pmRead i pmReadIout (x.fails.getD 2 0) fun s => s.modRail i fun v => { v with iout := r.iout }
  s.pmRead i pmReadTemp (x.fails.getD 3 0) fun s => s.modRail i fun v => { v with temp := r.temp }

/-- `CHIP_POWER_MW` of a cycle (R724). Log entry 139: DEDUCED. -/
def State.measuredPower (s : State) : Nat :=
  (s.presentRails.map fun i => let v := s.gov.rails.getD i .reset; v.vout * v.iout).sum / 1000 + Config.unmeteredMw s.gov.cycles

/-- `OVER_CAP` (R725), and the test of R723 on two consecutive cycles. Log entry 139: DEDUCED. -/
def State.powerCheck (s : State) : State :=
  let p := s.gov.chipPower
  let above := decide (s.capMw < p) || (s.gov.overCap && !decide (p + 2000 < s.capMw))
  let n := if 125000 < p then s.gov.overCount + 1 else 0
  let s := { s with gov := { s.gov with overCap := above, overCount := n } }
  let s := if n = 2 then
      let r := s.takeFree
      r.2.emergencyPark 0x08 0xFF (BitVec.ofNat 8 r.1.toNat) false
    else s
  s.thermalLive

/-- A regulator that does not answer. -/
abbrev noAnswer : RailTransfer := { fails := [4, 4, 4, 4], reading := { vout := 0, iout := 0, temp := 0, status := 0 } }

/-- PMBUS_TELEMETRY_CYCLE (R723 to R725, R731 to R733). Log entry 6: DESIGN CHOICE; log entries 138, 139: DEDUCED. -/
def telemetryCycle (rails : List RailTransfer) (s : State) : State :=
  if s.boot.step = 0 then s
  else
    let s := s.each s.presentRails fun s i => s.readRail i (rails.getD i noAnswer)
    let s := { s with gov := { s.gov with chipPower := s.measuredPower, cycles := s.gov.cycles + 1 } }
    s.powerCheck

def execPmbusTelemetryCycle (rails : List RailTransfer) (s : State) : Out := .next (telemetryCycle rails s)

/-- What a STATUS_WORD read on `PM_ALERT_N` does (R734). Log entry 140: PRESUMED. -/
def State.alertStatus (s : State) (i : Nat) (w : BitVec 16) : State :=
  let s := s.railStatus i w
  if !statusBad w then s
  else if i = 0 then s.report .chip 0x02 none [] 0 0x12 0 false
  else s.log' 0x17 12 (packW [(16, i), (0, w.toNat)]) 0 0

/-- PM_ALERT (R732, R734): of each rail how many tries of STATUS_WORD fail, and the word. Log entry 138: DEDUCED; log entry 140: PRESUMED. -/
def pmAlert (status : List (Nat × BitVec 16)) (s : State) : State :=
  if s.boot.step = 0 then s
  else
    (s.bump (rk 10 0x308)).each s.presentRails fun s i =>
      let x := status.getD i (4, 0)
      s.pmRead i pmStatusWord x.1 fun s => s.alertStatus i x.2

def execPmAlert (status : List (Nat × BitVec 16)) (s : State) : Out := .next (pmAlert status s)

/-! ### Trim and floors -/

/-- The trim of a RUNNING quire (R717). -/
def State.trimQuire (s : State) (q : QId) : State :=
  let x := s.quire q
  if x.state ≠ .running then s
  else
    let low := x.lowestFill
    let x := { x with lowestFill := x.fill }
    if low < 16384 then
      let s := s.setQuire q { x with trimMv := min 350 (x.trimMv + 20), highFill := 0 }
      if x.trimMv < 350 then s.bump (rk 5 (0x108 + 0x10 * q.val)) else s
    else if low < 28672 then s.setQuire q { x with highFill := 0 }
    else if x.highFill + 1 < 10 then s.setQuire q { x with highFill := x.highFill + 1 }
    else s.setQuire q { x with highFill := 0, trimMv := x.trimMv - 5 }

/-- TRIM_PERIOD (R717, R718). -/
def trimPeriod (s : State) : State := (s.each (List.finRange 8) State.trimQuire).retarget

def execTrimPeriod (s : State) : Out := .next (trimPeriod s)

/-- An ECC-checked read of chip-level SRAM (R738, R759, R862): an uncorrectable error is a chip fault of the entry or word concerned, as an injected check is. Log entry 136: DEDUCED. -/
def State.chipSramRead (s : State) (o : SramRead) : State :=
  let r := s.check 0x03 0
  if r.1 || o.outcome = .uncorrectable then r.2.report .chip 0x03 none [] 0xFF 0x13 o.entry r.1 else r.2

/-- FLOOR_RECOMPUTE (R715, R716, R718): it reads the governor's tables. Log entry 136: DEDUCED. -/
def floorRecompute (o : SramRead) (s : State) : State := ((s.chipSramRead o).each (List.finRange 8) State.setFloor).retarget

def execFloorRecompute (o : SramRead) (s : State) : Out := .next (floorRecompute o s)

/-- EI_AUTO_EVALUATE (R727). -/
def execEiAutoEvaluate (s : State) : Out := .next s.eiEvaluate

/-! ### The budget commands -/

/-- Log entry 139: DEDUCED. -/
def doBudgetSet (h : Hdr) (p : Params) (s : State) : State :=
  packet opBudgetSet h p s (fun _ => if 20000 ≤ par p 0 4 ∧ par p 0 4 ≤ 125000 then none else rangeAt 0) fun s d =>
    let s := ((s.setReg (rk 5 4) (BitVec.ofNat 32 (par p 0 4))).setReg (rk 5 0xC) (BitVec.ofNat 32 (par p 4 4))).setReg (rk 5 0x10) (BitVec.ofNat 32 (par p 8 4))
    let s := { s with gov := { s.gov with overCap := s.gov.overCap || decide (s.capMw < s.gov.chipPower) } }
    s.reply d stOk

/-- BUDGET_SET (R707, R708, R725). -/
def execBudgetSet (h : Hdr) (p : Params) (s : State) : Out := .next (front .budgetSet opBudgetSet.opcode h p s doBudgetSet)

def doBudgetQuery (h : Hdr) (p : Params) (s : State) : State :=
  packet opBudgetQuery h p s (fun _ => none) fun s d =>
    s.reply d stOk 0 (le 4 s.capMw ++ le 4 (s.allocation h.link) ++ le 4 (s.sessionReserved h.link) ++ le 4 s.gov.chipPower
      ++ leW (s.reg (rk 5 0xC)) ++ leW (s.reg (rk 5 0x10)))

/-- BUDGET_QUERY (R620, R706). -/
def execBudgetQuery (h : Hdr) (p : Params) (s : State) : Out := .next (front .budgetQuery opBudgetQuery.opcode h p s doBudgetQuery)

end Sys2Proof.Machine
end

