-- ==== Sys2Proof/Machine/Calib.lean ====
section
/-! DEFINITION. Calibration and re-trim (R792 to R806), fences (R807, R808), the calibration store (R809 to R815) and SELFTEST (R635). -/

namespace Sys2Proof.Machine

/-! ### Page 0x18 (R805) -/

/-- Word + 0x0 of a pin or of the endpaper. -/
def CalElem.word (x : CalElem) : Word := packW [(31, b2n x.mended), (30, b2n x.trimFail), (29, b2n x.lastDac), (0, x.count.toNat)]

/-- `CAL_STATUS`. -/
def Quire.calStatus (q : Quire) : Word :=
  match q.retrim with
  | some r => packW [(31, 1), (24, r.pin)]
  | none => 0

/-! ### CAL_RETRIM (R796 to R803) -/

/-- The states in which the DACs are measured and the endpaper may be re-trimmed (R797, R802). -/
def QState.dacsFree (st : QState) : Bool := st = .parked || st = .staged || st = .collated || st = .stopped

/-- The refusals of CAL_RETRIM (R796, R800, R802). Log entry 141: DESIGN CHOICE. -/
def retrimCheck (h : Hdr) (p : Params) (s : State) : Option Refuse :=
  let q := s.quire (hdrQuire h)
  let pin := par p 0 1
  if 33 ≤ pin ∧ pin ≠ 0xFF then rangeAt 0
  else if 2 ≤ par p 1 1 then rangeAt 1
  else if q.state = .off ∨ q.state = .faulted ∨ (pin = 32 ∧ !q.state.dacsFree) then some (stState, detState reasonState q.state)
  else if q.retrim.isSome then some (stBusy, 0)
  else if q.endpaper.phase = .idle ∨ (q.endpaper.phase = .serving ∧ q.endpaper.pin = pin) then none
  else some (stBusy, 0)

/-- A re-trim begins: of a pin that the endpaper serves, or of the endpaper, at step 2 (R801, R802). -/
def Quire.beginRetrim (q : Quire) (pin : Nat) (forced : Bool) : Quire :=
  let all := decide (pin = 0xFF)
  let first := if all then 0 else pin
  let r : Retrim := { pin := first, all := all, forced := forced, step := .takeover, skipped := false, measuredAt := 0, found := ⟨[], []⟩ }
  if pin = 32 ∨ q.endpaper.phase = .serving then { q with retrim := some { r with step := .measure } }
  else { q.epJoin first forced with retrim := some r }

/-- Log entry 141: DESIGN CHOICE. -/
def doCalRetrim (h : Hdr) (p : Params) (s : State) : State :=
  packet opCalRetrim h p s (retrimCheck h p) fun s d =>
    (s.modQuire (hdrQuire h) fun q => q.beginRetrim (par p 0 1) (par p 1 1 = 1)).reply d stDeferred

/-- CAL_RETRIM (R796, R797, R800 to R802). -/
def execCalRetrim (h : Hdr) (p : Params) (s : State) : Out := .next (front .calRetrim opCalRetrim.opcode h p s doCalRetrim)

/-- Step 4: the hand-back of the pin (R297), which the endpaper itself does not need. Log entry 141: DESIGN CHOICE. -/
def W.retrimHandBack (w : W) (c : Ctx) (r : Retrim) : W :=
  if r.pin = 32 then w.retrimPinDone c r
  else w.upd fun q => { q with endpaper := { q.endpaper with phase := .handingBack, comparing := false }, retrim := some { r with step := .handBack } }

/-- The end of step 2, with the corrections that it found: a miss of more than 1 ps fails the re-trim of the pin (R797, R799). -/
def W.retrimMeasured (w : W) (c : Ctx) (missedByMilliPs : Nat) (taps : List Int) : W :=
  match w.q.retrim with
  | some r =>
    if r.step ≠ .measure then w
    else if 1000 < missedByMilliPs then
      (w.upd fun q => { q with retrim := none, cal := lmod q.cal r.pin fun x => { x with trimFail := true, mended := decide (r.pin < 32) } }).bump (rk 0x18 0xC)
    else
      let r := { r with measuredAt := c.ns, found := { r.found with taps := taps } }
      if w.q.state.dacsFree then w.upd fun q => { q with retrim := some { r with step := .dacs } }
      else (w.upd fun q => { q with cal := lmod q.cal r.pin fun x => { x with lastDac := false } }).retrimHandBack c r
  | none => w

def execRetrimMeasureDone (q : QId) (missedByMilliPs : Nat) (taps : List Int) (s : State) : Out := .next (s.onQuire q fun x => x.w.retrimMeasured s.ctx missedByMilliPs taps)

/-- The end of step 3 (R797). Log entry 141: DESIGN CHOICE. -/
def W.retrimDacsDone (w : W) (c : Ctx) (dacs : List Int) : W :=
  match w.q.retrim with
  | some r =>
    if r.step ≠ .dacs then w
    else (w.upd fun q => { q with cal := lmod q.cal r.pin fun x => { x with lastDac := true } }).retrimHandBack c { r with found := { r.found with dacs := dacs } }
  | none => w

def execRetrimDacMeasureDone (q : QId) (dacs : List Int) (s : State) : Out := .next (s.onQuire q fun x => x.w.retrimDacsDone s.ctx dacs)

/-! ### Temperature tracking and CAL_QUERY (R793 to R795, R806, R815) -/

/-- The elements of a quire that are calibrated (R792): pins 0 to 31, the endpaper as 32, channel `ch` of TMU `u` as 33 + 2u + ch, and the PMU as 49. Log entry 141: DESIGN CHOICE. -/
abbrev calElements : Nat := 50

/-- The sensor of an element (R793). -/
def calSensor (q : QId) (p : Nat) : Nat := 2 * q.val + (if p < 32 then p / 16 else 0)

/-- How many numbers an element has for its taps, and for its DACs or segments (R280, R792): the cell and the segments of 125 taps of five lanes, and a tap and a segment offset for each path of the endpaper; ten DACs of a pin in 16 code ranges; a TMU channel's taps; force and measure of the PMU in four ranges. Log entry 141: DESIGN CHOICE. -/
def calPlaces (elem : Nat) (dac : Bool) : Nat :=
  if elem < 32 then (if dac then 160 else 1250) else if elem = 32 then (if dac then 0 else 1314) else if elem < 49 then (if dac then 0 else 125) else if dac then 8 else 0

/-- The calibration sets of an element that a bank holds (R792). -/
def CalBank.setsOf (b : CalBank) (q elem : Nat) : List Trim :=
  match (b.factory.getD q []).getD elem [] with
  | [] => (List.range 5).map fun i =>
      { taps := (List.range (calPlaces elem false)).map fun k => Config.factoryTarget q elem i k false, dacs := (List.range (calPlaces elem true)).map fun k => Config.factoryTarget q elem i k true }
  | l => l

/-- The calibration sets that bracket a reading in units of 1/16 °C (R794): −40, 0, 50, 100 and 150 °C. Log entry 142: DEDUCED. -/
def bracket (t : Int) : Nat × Nat :=
  if t < -640 then (0, 0) else if t ≤ 0 then (0, 1) else if t ≤ 800 then (1, 2) else if t ≤ 1600 then (2, 3) else if t ≤ 2400 then (3, 4) else (4, 4)

/-- The redundant element nearest to a target, the first of two as near (R794). Log entry 141: DESIGN CHOICE. -/
def nearest (target : ℚ) : List Int → Int
  | [] => 0
  | [a] => a
  | a :: l => let b := nearest target l; if |(b : ℚ) - target| < |(a : ℚ) - target| then b else a

/-- The target of place `k` at a reading: linear between the two sets that bracket it, with the correction by re-trim on top (R794, R797). -/
def calTarget (cells : Trim → List Int) (sets : List Trim) (t : Int) (correction : Trim) (k : Nat) : ℚ :=
  interpolate calTemps (fun i => ((cells (sets.getD i ⟨[], []⟩)).getD k 0 : Int)) t + ((cells correction).getD k 0 : Int)

/-- The selections of an element at a reading (R794). -/
def selected (q elem : Nat) (sets : List Trim) (t : Int) (correction : Trim) : Trim :=
  let place := fun (dac : Bool) (cells : Trim → List Int) =>
    (List.range (cells (sets.getD 0 ⟨[], []⟩)).length).map fun k => nearest (calTarget cells sets t correction k) (Config.cells q elem k dac)
  { taps := place false Trim.taps, dacs := place true Trim.dacs }

/-- The selections of an element that follow the last readings (R793 to R795). -/
def State.tracked (s : State) (q : QId) (elem : Nat) : Trim :=
  selected q.val elem (s.flash.banks[bankId s.cal.bank].setsOf q.val elem) (s.gov.temps.getD (calSensor q elem) 0) (((s.quire q).cal[elem]?.map (·.trim)).getD ⟨[], []⟩)

/-- The selection of an element in force. -/
def State.selection (s : State) (q : QId) (elem : Nat) : Trim := (s.cal.selections.getD q.val []).getD elem ⟨[], []⟩

/-- CAL_TRACK_UPDATE (R793 to R795): the selections of every element are computed from the last readings, and those that change wait for their instants. -/
def calTrackUpdate (s : State) : State :=
  if s.boot.step = 0 then s
  else
    { s with cal := { s.cal with
      readings := s.gov.temps
      waiting := (List.finRange 8).flatMap fun q => ((List.range calElements).filter fun e => decide (s.tracked q e ≠ s.selection q e)).map fun e => { quire := q.val, element := e, trim := s.tracked q e : Reselect } } }

def execCalTrackUpdate (s : State) : Out := .next (calTrackUpdate s)

/-- Words 0x0_0000 to 0x0_001C of chip page 0x09 (R815). -/
def State.storeWord (s : State) (i : Nat) : Word :=
  let t := timeWords s.modeOz s.cal.commitTime
  match i with
  | 0 => packW [(31, b2n s.cal.commitBusy.isSome), (30, b2n s.cal.storeValid), (29, b2n s.spine.patchNone), (28, b2n s.boot.partitionDefault),
      (8, b2n s.cal.bank), (0, b2n s.spine.patchSlot)]
  | 1 => BitVec.ofNat 32 s.cal.generation
  | 2 => BitVec.ofNat 32 s.spine.patchGeneration
  | 3 => if s.cal.commitTime = 0 then 0 else t.1
  | 4 => if s.cal.commitTime = 0 then 0 else t.2.1
  | 5 => if s.cal.commitTime = 0 then 0 else t.2.2
  | 6 => s.reg (rk 9 0x18)
  | _ => s.reg (rk 9 0x1C)

def doCalQuery (h : Hdr) (p : Params) (s : State) : State :=
  packet opCalQuery h p s (fun s =>
      if h.qmask = 0 then none
      else if 33 ≤ par p 0 1 then rangeAt 0
      else inStates s (hdrQuire h) notOff)
    fun s d =>
      if h.qmask = 0 then s.reply d stOk 0 ((List.range 8).flatMap fun i => leW (s.storeWord i))
      else
        let q := hdrQuire h
        let e := (s.quire q).cal.getD (par p 0 1) .reset
        let t := s.cal.readings.getD (calSensor q (par p 0 1)) 0
        s.reply d stOk 0 (leW e.word ++ t12 s.modeOz e.timeNs ++ le 4 (ofInt 32 t) ++ le 1 (bracket t).1 ++ le 1 (bracket t).2 ++ List.replicate 10 0)

/-- CAL_QUERY (R806). -/
def execCalQuery (h : Hdr) (p : Params) (s : State) : Out := .next (front .calQuery opCalQuery.opcode h p s doCalQuery)

/-! ### CAL_COMMIT (R812 to R814) -/

/-- The board record's word of a quire's mended pin (R809). -/
def Quire.mendedWord (q : Quire) : Word :=
  match (List.range 32).find? fun p => (q.cal.getD p .reset).mended with
  | some p => packW [(31, 1), (0, p)]
  | none => 0

/-- The body that a commit writes: the board record unchanged but for the mended pins, and the present corrections, counts and times. Log entry 142: DEDUCED. -/
def State.newBank (s : State) : CalBank :=
  { s.flash.banks[bankId s.cal.bank] with
    valid := false, generation := s.cal.generation + 1
    mended := s.quires.toList.map Quire.mendedWord, cal := s.quires.toList.map (·.cal) }

/-- Log entry 142: DEDUCED. -/
def doCalCommit (h : Hdr) (p : Params) (s : State) : State :=
  packet opCalCommit h p s (fun s => if s.cal.commitBusy.isSome then some (stBusy, 0) else none) fun s d =>
    { s with cal := { s.cal with commitBusy := some d }, flash := { s.flash with banks := s.flash.banks.set (bankId !s.cal.bank) s.newBank } }

/-- CAL_COMMIT (R812, R813): it replies when the bank is written. -/
def execCalCommit (h : Hdr) (p : Params) (s : State) : Out := .next (front .calCommit opCalCommit.opcode h p s doCalCommit)

/-- CAL_COMMIT_DONE (R812, R813). Log entry 142: DEDUCED. -/
def calCommitDone (compareOk : Bool) (s : State) : State :=
  match s.cal.commitBusy with
  | none => s
  | some d =>
    let s := { s with cal := { s.cal with commitBusy := none } }
    if compareOk then
      let i := bankId !s.cal.bank
      let b := s.flash.banks[i]
      let s := { s with flash := { s.flash with banks := s.flash.banks.set i { b with valid := true } }
                        cal := { s.cal with bank := !s.cal.bank, generation := b.generation, commitTime := s.time.ns } }
      (s.bump (rk 9 0x18)).reply d stOk
    else (s.bump (rk 9 0x1C)).reply d stNoResource

def execCalCommitDone (compareOk : Bool) (s : State) : Out := .next (calCommitDone compareOk s)

/-! ### Fences (R242, R243, R807, R808) -/

/-- A word `FENCEk` of a quire. -/
def Quire.fenceWord (q : Quire) (k : Nat) : Word := BitVec.ofNat 32 (q.fences.toNat / 2 ^ (32 * k))

/-- A write of `FENCEk`: an engine that leaves its fence has zeroed stores and no context loaded; one whose item has not yet ended had not left dispatch (R243). Log entry 143: DEDUCED. -/
def Quire.writeFence (q : Quire) (k : Nat) (v : Word) : Quire :=
  let low : BitVec 128 := BitVec.ofNat 128 ((2 ^ 32 - 1) * 2 ^ (32 * k))
  let new := (q.fences &&& ~~~low) ||| BitVec.ofNat 128 (v.toNat * 2 ^ (32 * k))
  let freed := fun (e : Nat) => q.fences.getLsbD e && !new.getLsbD e
  { q with fences := new
           engines := q.engines.map fun (i, e) => if freed i && e.item.isNone then (i, { Engine.reset with eccCorrected := e.eccCorrected, lastUse := e.lastUse }) else (i, e) }

/-! ### SELFTEST (R635) -/

/-- Log entry 144: DEDUCED. -/
def doSelftest (h : Hdr) (p : Params) (s : State) : State :=
  packet opSelftest h p s (fun s => if 2 ≤ par p 4 1 then rangeAt 4 else inStates s (hdrQuire h) fun st => st = .parked || st = .stopped) fun s d =>
    let wait := decide (par p 4 1 = 1)
    if wait then s.modQuire (hdrQuire h) fun q => { q with occupied := some (.selftest d (parW p 0)) }
    else (s.modQuire (hdrQuire h) fun q => { q with selftest := some (parW p 0) }).reply d stDeferred

/-- SELFTEST (R589, R620, R635). -/
def execSelftest (h : Hdr) (p : Params) (s : State) : Out := .next (front .selftest opSelftest.opcode h p s doSelftest)

/-- SELFTEST_DONE (R635): `failed` names the tests that failed among those selected; a test that has replied occupies its quire no more (R589). Log entry 144: DEDUCED. -/
def selftestDone (q : QId) (failed : BitVec 5) (durationUs : Nat) (s : State) : State :=
  match (s.quire q).occupied with
  | some (.selftest d tests) =>
    let bad := tests &&& failed.setWidth 32
    (s.modQuire q fun x => { x with occupied := none }).reply d stOk 0 (leW (tests &&& ~~~bad) ++ leW bad ++ le 4 durationUs)
  | _ => s.modQuire q fun x => { x with selftest := none }

def execSelftestDone (q : QId) (failed : BitVec 5) (durationUs : Nat) (s : State) : Out := .next (selftestDone q failed durationUs s)

end Sys2Proof.Machine
end

