-- ==== Sys2Proof/Machine/Views.lean ====
section
/-! DEFINITION. What READ_CFG reads: every word of every page of a quire (R54, R79 to R80, R93, R99, R141, R252, R285, R308, R309, R346, R347, R367, R407, R417, R426, R456, R506, R789, R805) and of the chip (R1, R571, R639, R698 to R700, R736, R737, R790, R791, R815). -/

namespace Sys2Proof.Machine

/-! ### Words of a quire -/

/-- `EP_STATE`, `EP_FORCED`, `EP_PIN` (R309). -/
def Endpaper.word (e : Endpaper) : Word :=
  let code := match e.phase with | .idle => 0 | .joining => 1 | .comparing => 2 | .serving => 3 | .handingBack => 4
  packW [(16, code), (5, b2n e.forced), (0, e.pin % 32)]

/-- `VPIN_MEAS` (R346). -/
def Quire.vpinWord (q : Quire) : Word := packW [(16, b2n q.vpinOk), (0, q.vpinMv % 65536)]

/-- `FM_USED_KIB` (R396, R417): the areas of the committed configuration. Log entry 147: DEDUCED. -/
def Quire.fmUsedKib (q : Quire) : Nat :=
  if q.committed.isNone then 0x40 else (65536 + 32 * q.firstNLen + q.rawBytes + q.bmBytes + q.raBytes + 1023) / 1024

/-- The 16 bytes of a region in page 0x0D: the record's first words, and `SPARSE_CELLS` (R417). -/
def Quire.regionWord (q : Quire) (o : Nat) : Word :=
  let r := (o - 0x1000) / 16
  let w := (q.region r).words r
  match o % 16 with
  | 0 => w.1 | 4 => w.2.1 | 8 => w.2.2 | _ => BitVec.ofNat 32 (q.region r).cells.length

/-- `LIVE` of page 0x10 (R252). -/
def Quire.dispatchWord (q : Quire) : Word :=
  let busy := ((List.range 128).filter fun i => (q.engine i).item.isSome).length
  packW [(22, q.store.length % 1024), (13, q.delay.length % 512), (8, q.slots.length % 32), (0, busy)]

/-- `ENG_STATUS` of an engine (R252). -/
def Quire.engineWord (q : Quire) (i : Nat) : Word :=
  let e := q.engine i
  packW [(31, b2n e.context.isSome), (16, (e.context.getD 0) % 2048), (8, e.eccCorrected.toNat), (1, b2n (q.fenced i)), (0, b2n e.item.isSome)]

/-- A word of an error record in the scope of a quire nibble (R759). -/
def recWord (oz : Bool) (qn : Option Nat) (r : Option ErrRec) (o : Nat) : Word := BitVec.ofNat 32 (unle (((recBytes oz qn r).drop o).take 4))

/-- The word of an element in page 0x18 (R805). -/
def Quire.calWord (q : Quire) (oz : Bool) (o : Nat) : Word :=
  let e := q.cal.getD ((o - 0x100) / 16) .reset
  let t := timeWords oz e.timeNs
  match o % 16 with
  | 0 => e.word | 4 => if e.timeNs = 0 then 0 else t.1 | 8 => if e.timeNs = 0 then 0 else t.2.1 | _ => if e.timeNs = 0 then 0 else t.2.2

/-- `PAGE_CRC` as it reads (R608). -/
def Quire.crcWord (q : Quire) (page : Nat) : Word :=
  if q.state.writable then
    match sget (fun _ => none) page q.crcWritten with
    | some v => v
    | none => pageCrc q.staging page
  else pageCrc q.inForce page

/-- A word of a live page or a live word of a configuration page. -/
def Quire.liveWord (q : Quire) (qi : QId) (oz : Bool) (page o : Nat) : Word :=
  let stored := q.liveReg (rk page o)
  match page with
  | 0x00 => if o = 0 then quireStateWord q else stored
  | 0x01 => if o = 0x224 then q.seqWord else if 0x100 ≤ o ∧ o < 0x110 then 0x44444444 else stored
  | 0x03 => if 0x4000 ≤ o ∧ o < 0x5000 then q.sigStatus ((o - 0x4000) / 4) else stored
  | 0x04 => if o = 0x11000 then q.fillWord else if o = 0x11010 then q.endpaper.word else stored
  | 0x08 => if o = 0x1000 then q.vpinWord else stored
  | 0x0A => if o = 0x100 then putBit stored 31 q.pmu.isSome else stored
  | 0x0C => if o = 0x234 then q.runWord else stored
  | 0x0D => if o = 4 then BitVec.ofNat 32 q.fmUsedKib else if 0x1000 ≤ o ∧ o < 0x1200 then q.regionWord o else stored
  | 0x0E => if o < 0x200 ∧ o % 0x40 = 0 then putBit stored 31 (q.tmus[tmuId (o / 0x40)]).isSome else stored
  | 0x10 =>
    if o = 0x134 then q.dispatchWord else if o = 0x138 then BitVec.ofNat 32 q.hotZones.toNat
    else if 0x200 ≤ o ∧ o < 0x210 then q.fenceWord ((o - 0x200) / 4)
    else if 0x300 ≤ o ∧ o < 0x500 then q.engineWord ((o - 0x300) / 4) else stored
  | 0x11 => if o = 4 then q.dram.board &&& 0x33300007 else if o = 0x100 then q.dramStatus else if o = 0x104 then q.dram.rankMap else stored
  | 0x18 =>
    if o = 0 then q.calStatus else if 0x10 ≤ o ∧ o < 0x20 then q.fenceWord ((o - 0x10) / 4)
    else if 0x100 ≤ o ∧ o < 0x310 then q.calWord oz o else stored
  | 0x1C =>
    if o = 0 then packW [(8, q.faultCause.toNat), (0, b2n (q.injections ≠ []))]
    else if o = 4 then q.qfLive.setWidth 32 else if o = 8 then q.qfSticky.setWidth 32 else if o = 0xC then q.satPages
    else if 0x100 ≤ o ∧ o < 0x120 then recWord oz (some qi.val) q.firstError (o - 0x100)
    else if 0x120 ≤ o ∧ o < 0x140 then recWord oz (some qi.val) q.secondError (o - 0x120) else stored
  | _ => stored

/-- A word of a quire's page as READ_CFG returns it (R607, R608). Log entry 147: DEDUCED. -/
def Quire.readWord (q : Quire) (qi : QId) (oz : Bool) (page o : Nat) : Word :=
  if configPages.contains page && o = pageCrcOff then q.crcWord page
  else if cfgMask page o ≠ 0 then q.shown.cfg page o
  else q.liveWord qi oz page o

/-! ### Words of the chip -/

/-- Page 0x00 (R1). Log entry 2: DESIGN CHOICE. -/
def State.idWord (s : State) (o : Nat) : Word :=
  match o with
  | 0x00 => chipId | 0x04 => stepping | 0x08 => geometry | 0x0C => packW [(0, b2n s.modeOz)]
  | 0x10 => BitVec.ofNat 32 Config.dieSerial.toNat | _ => BitVec.ofNat 32 (Config.dieSerial.toNat / 2 ^ 32)

/-- Page 0x02 (R699); `TIME1`, `TIME2` and `TIME_FRAC` are those that the last read of `TIME0` latched. -/
def State.timePageWord (s : State) (o : Nat) : Word :=
  match o with
  | 0x00 => s.timeWord s.modeOz 0 | 0x04 => s.time.latched.1 | 0x08 => s.time.latched.2.1 | 0x0C => s.time.latched.2.2
  | 0x10 => BitVec.ofNat 32 s.time.increment | 0x14 => BitVec.ofNat 32 (s.time.increment / 2 ^ 32 % 256) | 0x18 => packW [(31, b2n s.time.valid)]
  | _ =>
    if 0x100 ≤ o ∧ o < 0x300 ∧ o % 0x40 < 0x34 then (s.ptp (nkOf ((o - 0x100) / 0x40))).word s.modeOz (o % 0x40) else s.reg (rk 2 o)
where
  /-- The link of a block of registers. -/
  nkOf (n : Nat) : LinkId := ⟨n % 8, Nat.mod_lt _ (by decide)⟩

/-- Page 0x04 (R571). -/
def State.hostWord (s : State) (o : Nat) : Word :=
  if 0x100 ≤ o ∧ o < 0x300 then
    let l := s.link (State.timePageWord.nkOf ((o - 0x100) / 0x40))
    if o % 0x40 = 0 then l.cfgWord else if o % 0x40 = 4 then l.statusWord else s.reg (rk 4 o)
  else if 0x1000 ≤ o ∧ o < 0x1400 then
    let x := s.lane (laneId ((o - 0x1000) / 0x40))
    if o % 0x40 = 4 then x.statusWord else if o % 0x40 = 0x30 then x.peakWord else s.reg (rk 4 o)
  else s.reg (rk 4 o)

/-- Page 0x05 (R736). -/
def State.govWord (s : State) (o : Nat) : Word :=
  let g := s.gov
  if o = 0x14 then
    packW [(31, b2n g.overCap), (30, b2n g.thermalHold), (29, b2n g.vcoreUnreachable), (28, b2n g.emergency), (16, g.hotSensor % 16), (0, ofInt 16 g.hotTemp)]
  else if o = 0x18 then packW [(16, s.vcoreTarget % 2048), (0, g.vcoreMeas % 2048)]
  else if o = 0x1C then BitVec.ofNat 32 g.chipPower
  else if o = 0x20 then BitVec.ofNat 32 s.reservedMw
  else if 0x100 ≤ o ∧ o < 0x180 ∧ o % 16 < 8 then
    let q := s.quires.toList.getD ((o - 0x100) / 16) .reset
    if o % 16 = 0 then BitVec.ofNat 32 q.reserveMw
    else packW [(31, b2n q.reserved), (16, if q.state.holdsFloor then q.floorMv % 2048 else 0), (0, q.trimMv % 512)]
  else if 0x200 ≤ o ∧ o < 0x280 then
    let k := State.timePageWord.nkOf ((o - 0x200) / 16)
    if o % 16 = 0 then BitVec.ofNat 32 (s.allocation k) else if o % 16 = 4 then BitVec.ofNat 32 (s.sessionReserved k) else 0
  else s.reg (rk 5 o)

/-- Page 0x06 (R790). -/
def State.safetyWord (s : State) (o : Nat) : Word :=
  let c := s.collector
  if o = 0 then putBit (putBit (s.reg (rk 6 0)) 30 c.hold) 29 s.fnLow
  else if o = 8 then packW [(31, b2n c.faulted), (0, c.faultCause.toNat)]
  else if o = 0xC then c.live.setWidth 32
  else if o = 0x10 then c.sticky.setWidth 32
  else if o = 0x14 then c.satPages
  else if 0x100 ≤ o ∧ o < 0x120 then recWord s.modeOz none c.firstError (o - 0x100)
  else if 0x120 ≤ o ∧ o < 0x140 then recWord s.modeOz none c.secondError (o - 0x120)
  else s.reg (rk 6 o)

/-- Page 0x07 (R791). -/
def State.logWord (s : State) (o : Nat) : Word :=
  let n := s.log.entries.length
  if o = 4 then
    packW [(31, b2n (decide (8192 ≤ n))), (30, b2n s.frozen),
      (16, (((List.finRange 8).filter fun k : LinkId => (s.session k).frozen).map fun k => 2 ^ k.val).sum), (0, n)]
  else if o = 8 then s.log.lost
  else if o = 0xC then s.log.frozenDropped
  else if 0x100 ≤ o ∧ o < 0x500 then sget (fun _ => 0) ((o - 0x100) / 4) s.log.suppressed
  else s.reg (rk 7 o)

/-- Page 0x08 (R639). -/
def State.spineWord (s : State) (o : Nat) : Word :=
  if o = 0 then packW [(2, b2n s.restarting), (1, b2n s.spine.stagedValid), (0, b2n s.spine.activeBank)]
  else if 0x100 ≤ o ∧ o < 0x200 then
    let k := State.timePageWord.nkOf ((o - 0x100) / 0x20)
    let x := s.session k
    if o % 0x20 = 0 then
      packW [(31, b2n x.isOpen), (30, b2n (x.isOpen && x.steward)), (29, b2n x.holding),
        (16, (((List.finRange 8).filter fun q : QId => (s.quire q).owner = some k).map fun q => 2 ^ q.val).sum), (0, x.handle.toNat)]
    else if o % 0x20 = 0x14 then BitVec.ofNat 32 x.inProgress.length
    else s.reg (rk 8 o)
  else if 0x400 ≤ o ∧ o < 0x440 then
    let q := s.quires.toList.getD ((o - 0x400) / 8) .reset
    if o % 8 = 0 then q.dirty else q.sealedPages
  else s.reg (rk 8 o)

/-- Page 0x0A (R737). -/
def State.railWord (s : State) (o : Nat) : Word :=
  if 0x100 ≤ o ∧ o < 0x190 then
    let v := s.gov.rails.getD ((o - 0x100) / 16) .reset
    let st := match v.state with | .ok => 0 | .fault => 1 | .unreachable => 2 | .absent => 3
    match o % 16 with
    | 0 => packW [(31, b2n v.present), (0, v.addr.toNat)]
    | 4 => packW [(16, ofInt 16 v.temp), (0, v.vout % 65536)]
    | 8 => BitVec.ofNat 32 v.iout
    | _ => packW [(30, st), (0, v.status.toNat)]
  else if 0x200 ≤ o ∧ o < 0x240 then
    let i := (o - 0x200) / 4
    packW [(16, match s.gov.peaks.getD i none with | some c => ofInt 8 c | none => 0x80), (0, ofInt 16 (s.gov.temps.getD i 0))]
  else s.reg (rk 0xA o)

/-- A word of a chip page as READ_CFG returns it. -/
def State.chipWord (s : State) (page o : Nat) : Word :=
  match page with
  | 0x00 => s.idWord o
  | 0x01 => if o = 4 then s.clock.statusWord else if o = 8 then s.monitorWord else s.reg (rk 1 o)
  | 0x02 => s.timePageWord o
  | 0x03 => if o = 0xC then s.time.syncWord else if o = 0x108 then s.time.hopWord else if o = 0x10C then s.time.kcRoundNs else s.reg (rk 3 o)
  | 0x04 => s.hostWord o
  | 0x05 => s.govWord o
  | 0x06 => s.safetyWord o
  | 0x07 => s.logWord o
  | 0x08 => s.spineWord o
  | 0x09 => s.storeWord (o / 4)
  | _ => s.railWord o

end Sys2Proof.Machine
end

