-- ==== Sys2Proof/Machine/Regs.lean ====
section
/-! DEFINITION. READ_CFG, WRITE_CFG and WRITE_CFG_BLOCK (R12 to R25, R39, R41, R46 to R48, R604 to R610, R620 to R622), what reads and writes of single registers do (R519, R554, R557, R558, R570, R659, R676, R681, R691, R695 to R700, R728, R736, R737, R747, R757, R791, R807, R808), and the rows of those registers. -/

namespace Sys2Proof.Machine

/-! ### Addresses (R12 to R15) -/

/-- The scope, page and offset of an address. -/
def addrScope (a : Nat) : Nat := a / 2 ^ 28 % 16
def addrPage (a : Nat) : Nat := a / 2 ^ 20 % 256
def addrOff (a : Nat) : Nat := a % 2 ^ 20

/-- The quire of a quire-scope address. -/
def addrQuire (a : Nat) : QId := ⟨(addrScope a + 7) % 8, Nat.mod_lt _ (by decide)⟩

/-- The last register of an address's page. -/
def addrLast (a : Nat) : Option Nat := if addrScope a = 0 then chipPageLast (addrPage a) else if addrScope a ≤ 8 then quirePageLast (addrPage a) else none

/-- RANGE of an access to `count` words (R13 to R15, R621). Log entry 149: DEDUCED. -/
def accessRange (a count : Nat) : Option Refuse :=
  match addrLast a with
  | none => rangeAt 0
  | some last => if last < addrOff a then rangeAt 0 else if last < addrOff a + 4 * (count - 1) then rangeAt 4 else none

/-! ### Reads -/

/-- A read of one word and what it changes: `FEC_PEAK` clears (R519), `TIME0` latches (R699), error records become read (R757), and a committed word is read from chip-level SRAM, which may give it with an uncorrectable error (R738, R759). Log entry 136: DEDUCED. -/
def readWord (s : State) (a : Nat) (read : LineOutcome) : Word × State :=
  let page := addrPage a
  let o := addrOff a
  if addrScope a = 0 then
    let w := s.chipWord page o
    let s :=
      if page = 4 ∧ 0x1000 ≤ o ∧ o < 0x1400 ∧ o % 0x40 = 0x30 then s.modLane (laneId ((o - 0x1000) / 0x40)) fun x => { x with fecPeak := 0 }
      else if page = 2 ∧ o = 0 then
        { s with time := { s.time with latched := (s.timeWord s.modeOz 1, s.timeWord s.modeOz 2, BitVec.ofNat 32 s.time.frac) } }
      else if page = 6 ∧ 0x100 ≤ o ∧ o < 0x120 then { s with collector := { s.collector with firstError := s.collector.firstError.map ErrRec.markRead } }
      else if page = 6 ∧ 0x120 ≤ o ∧ o < 0x140 then { s with collector := { s.collector with secondError := s.collector.secondError.map ErrRec.markRead } }
      else s
    (w, s)
  else
    let q := addrQuire a
    let x := s.quire q
    let w := x.readWord q s.modeOz page o
    let s :=
      if page = 0x1C ∧ 0x100 ≤ o ∧ o < 0x120 then s.modQuire q fun x => { x with firstError := x.firstError.map ErrRec.markRead }
      else if page = 0x1C ∧ 0x120 ≤ o ∧ o < 0x140 then s.modQuire q fun x => { x with secondError := x.secondError.map ErrRec.markRead }
      else if cfgMask page o ≠ 0 ∧ !x.state.writable then s.chipSramRead { outcome := read, entry := a }
      else s
    (w, s)

/-- Consecutive words, in ascending order; the `bad.word`-th of them is read with `bad.outcome`. -/
def readWords (bad : PacketReads) : Nat → Nat → Nat → State → List Byte × State
  | 0, _, _, s => ([], s)
  | n + 1, i, a, s =>
    let r := readWord s a (if i = bad.word then bad.outcome else .good)
    let t := readWords bad n (i + 1) (a + 4) r.2
    (leW r.1 ++ t.1, t.2)

/-- The refusals of READ_CFG (R13 to R15, R41, R621). -/
def readCheck (p : Params) (s : State) : Option Refuse :=
  let a := par p 0 4
  let n := par p 4 2
  if (addrLast a).isNone then rangeAt 0
  else if n = 0 ∨ 2048 < n then rangeAt 4
  else match accessRange a n with
    | some r => some r
    | none => if addrScope a ≠ 0 ∧ addrPage a ≠ 0 then inStates s (addrQuire a) notOff else none

/-- Log entry 136: DEDUCED. -/
def doReadCfg (h : Hdr) (p : Params) (s : State) : State :=
  packet opReadCfg h p s (readCheck p) fun s d =>
    let r := readWords h.reads (par p 4 2) 0 (par p 0 4) s
    r.2.reply d stOk 0 r.1

/-- READ_CFG (R607, R620, R621). -/
def execReadCfg (h : Hdr) (p : Params) (s : State) : Out := .next (front .readCfg opReadCfg.opcode h p s doReadCfg)

/-! ### Writes of chip pages -/

/-- Link and lane of an offset of page 0x04. -/
def offLink (o : Nat) : LinkId := State.timePageWord.nkOf ((o - 0x100) / 0x40)
def offLane (o : Nat) : LaneId := laneId ((o - 0x1000) / 0x40)

/-- `LINK_CTRL`, `LANE_CTRL` and `TSQ_POP` offsets. -/
def isLinkCtrl (page o : Nat) : Bool := page = 4 && decide (0x100 ≤ o) && decide (o < 0x300) && o % 0x40 = 8
def isLaneCtrl (page o : Nat) : Bool := page = 4 && decide (0x1000 ≤ o) && decide (o < 0x1400) && o % 0x40 = 0
def isTsqPop (page o : Nat) : Bool := page = 2 && decide (0x100 ≤ o) && decide (o < 0x300) && o % 0x40 = 0x34

/-- A new `REC_EN` or `REF_LANE` takes the timing domain off REC (R659). -/
def State.leavesRec (s : State) (v : Word) : Bool :=
  s.clock.timingSrc = .recovered && s.clock.domain ≠ .stopped && (!bit v 0 || fld v 16 4 ≠ s.refLane)

/-- A quire is ARMED, RUNNING or PAUSED. -/
def State.anyPlaying (s : State) : Bool := s.quires.toList.any fun q => q.state = .armed || q.state = .running || q.state = .paused

/-- The value of a chip register lies outside a stated range (R570, R697, R700, R736, R737, R747, R791). Log entry 149: DEDUCED. -/
def valueRange (page o : Nat) (v : Word) : Bool :=
  match page with
  | 3 =>
    if o = 0 then fld v 30 2 = 3 || !(decide (2000 ≤ fld v 0 16) && decide (fld v 0 16 ≤ 4500))
    else if o = 8 then !(decide (50 ≤ fld v 0 16) && decide (fld v 0 16 ≤ 10000))
    else if o = 0x100 then fld v 30 2 = 3
    else o = 0x104 && decide (3 ≤ fld v 28 4)
  | 4 => isLaneCtrl 4 o && decide (17 ≤ fld v 16 5)
  | 5 =>
    if o = 0 then
      let hard := fld v 16 8
      let soft := fld v 8 8
      let slew := fld v 0 8
      !(decide (100 ≤ hard) && decide (hard ≤ 150) && decide (60 ≤ soft) && decide (soft + 5 ≤ hard) && decide (1 ≤ slew) && decide (slew ≤ 50))
    else o = 8 && !(decide (5000 ≤ fld v 0 17) && decide (fld v 0 17 ≤ 60000))
  | 6 => o = 0 && !(decide (20 ≤ fld v 0 10) && decide (fld v 0 10 ≤ 1000))
  | 7 => o = 0 && (fld v 8 8 = 0 || fld v 0 8 = 0)
  | 0xA => o = 0 && fld v 0 2 = 3
  | _ => false

/-- The refusal of a write of one word, whose `DATA` stands at parameter offset `off`, by a session on link `k`. Log entries 148, 149: DEDUCED. -/
def writeRefusal (s : State) (k : LinkId) (a off : Nat) (v : Word) : Option Refuse :=
  let page := addrPage a
  let o := addrOff a
  let st : Option Refuse := some (stState, detChip)
  if addrScope a ≠ 0 then
    let q := addrQuire a
    match inStates s q notOff with
    | some r => some r
    | none => if livePage page then none else inStates s q QState.writable
  else if valueRange page o v then rangeAt off
  else if page = 1 ∧ o = 0 ∧ s.leavesRec v ∧ s.anyPlaying then st
  else if page = 3 ∧ o = 0x104 ∧ s.kcRole ≠ 1 then st
  else if isLinkCtrl page o ∧ s.eiAuto then st
  else if isLaneCtrl page o ∧ bit v 31 ∧ s.lastLane k (offLane o) then st
  else none

/-- A new word of `CLK_CTRL` (R659). Log entry 148: DEDUCED. -/
def State.writeClkCtrl (s : State) (v : Word) : State :=
  let leaves := s.leavesRec v
  let again := !bit v 0 || fld v 16 4 ≠ s.refLane
  let s := s.setReg (rk 1 0) (rwWrite (chipMask (rk 1 0)) (s.reg (rk 1 0)) v)
  let s := if again then s.rejudgeRec else s
  if leaves then s.stopDomain .xo false else s

/-- A new word of `LANE_CTRL` (R554, R557, R569, R570). -/
def State.writeLaneCtrl (s : State) (o : Nat) (v : Word) : State :=
  let n := offLane o
  let old := s.reg (rk 4 o)
  let s := s.setReg (rk 4 o) (rwWrite (chipMask (rk 4 o)) old v)
  let s := if bit v 31 ∧ !bit old 31 then s.laneOut n else if !bit v 31 ∧ (bit old 31 ∨ (s.lane n).phase = .testing) then s.laneReturn n else s
  if bit v 30 then s.laneRetrain n else s

/-- A write of one word of a chip page that nothing refuses: an OFF chip holds `KCO` low (R692), and a new `VCORE_SLEW` goes to the regulator (R730). Log entry 148: DEDUCED. -/
def State.writeChip (s : State) (page o : Nat) (v : Word) : State :=
  let k := rk page o
  let plain := s.setReg k (rwWrite (chipMask k) (s.reg k) v)
  if page = 1 ∧ o = 0 then s.writeClkCtrl v
  else if isTsqPop page o then (if bit v 0 then s.tsqPop (offLink o) else s)
  else if page = 3 ∧ o = 0 then
    (if fld v 30 2 = 1 ∨ fld v 30 2 ≠ s.syncMode then plain.setSyncMode (fld v 30 2) else plain)
  else if page = 3 ∧ o = 0x100 then (if fld v 30 2 = 0 then { plain with time := { plain.time with kco := none } } else plain)
  else if page = 3 ∧ o = 0x104 then s.kcSend (fld v 28 4)
  else if page = 5 ∧ o = 0 then (if s.pmTells 0 ∧ fld v 0 8 ≠ fld (s.reg k) 0 8 then plain.pmRate 0 else plain)
  else if isLaneCtrl page o then s.writeLaneCtrl o v
  else if chipMask k = 0 then s
  else plain

/-! ### Writes of a quire's pages -/

/-- A write of one word of a quire's page: the fences of page 0x18, or the staging copy; the first in PARKED enters STAGED (R39, R46, R48). Log entry 147: DEDUCED. -/
def Quire.writeWord (q : Quire) (page o : Nat) (v : Word) : Quire :=
  if livePage page then
    { (if page = 0x18 ∧ 0x10 ≤ o ∧ o < 0x20 then q.writeFence ((o - 0x10) / 4) v else q) with state := if q.state = .parked then .staged else q.state }
  else { q.cfgWrite page o v with state := .staged }

/-- A write of one word that nothing refuses. -/
def writeWord (s : State) (a : Nat) (v : Word) : State :=
  if addrScope a = 0 then s.writeChip (addrPage a) (addrOff a) v else s.modQuire (addrQuire a) fun q => q.writeWord (addrPage a) (addrOff a) v

/-- Consecutive words written in ascending order, and the first refusal among them (R622). -/
def writeWords (k : LinkId) : Nat → Nat → List Word → State → Option Refuse × State
  | _, _, [], s => (none, s)
  | a, off, v :: t, s =>
    match writeRefusal s k a off v with
    | some r => (some r, s)
    | none => writeWords k (a + 4) (off + 4) t (writeWord s a v)

/-- The `n` words of a packet from an offset of its parameters. -/
def dataWords (p : Params) (off n : Nat) : List Word := (List.range n).map fun i => parW p (off + 4 * i)

/-- Log entry 147: DEDUCED. -/
def doWriteCfg (h : Hdr) (p : Params) (s : State) : State :=
  packet opWriteCfg h p s (fun s => match accessRange (par p 0 4) 1 with | some r => some r | none => writeRefusal s h.link (par p 0 4) 4 (parW p 4)) fun s d =>
    (writeWord s (par p 0 4) (parW p 4)).reply d stOk

/-- WRITE_CFG (R19, R46, R48, R620). -/
def execWriteCfg (h : Hdr) (p : Params) (s : State) : Out := .next (front .writeCfg opWriteCfg.opcode h p s doWriteCfg)

def doWriteCfgBlock (h : Hdr) (p : Params) (s : State) : State :=
  let a := par p 0 4
  let n := par p 4 2
  packet opWriteCfgBlock h p s (fun s =>
      if (addrLast a).isNone then rangeAt 0
      else if n = 0 ∨ 2048 < n then rangeAt 4
      else match accessRange a n with
        | some r => some r
        | none => (writeWords h.link a 8 (dataWords p 8 n) s).1)
    fun s d => (writeWords h.link a 8 (dataWords p 8 n) s).2.reply d stOk

/-- WRITE_CFG_BLOCK (R621, R622). -/
def execWriteCfgBlock (h : Hdr) (p : Params) (s : State) : Out := .next (front .writeCfgBlock opWriteCfgBlock.opcode h p s doWriteCfgBlock)

/-! ### The rows of single registers: the READ_CFG or WRITE_CFG that reaches the register -/

/-- The packet writes the chip register at a page and offset. Log entry 152: DESIGN CHOICE. -/
def writesAt (page o : Nat) (p : Params) : Bool := par p 0 4 = 2 ^ 20 * page + o
/-- A row of one register: the write, when the packet is the row's; any other packet is not this command (log entry 1). Log entry 152: DESIGN CHOICE. -/
def rowWrite (mine : Params → Bool) (row : Hdr → Params → Instr) (h : Hdr) (p : Params) (s : State) : State :=
  if mine (s.arriving opWriteCfg.opcode h p).2 then front row opWriteCfg.opcode h p s doWriteCfg else s
/-- Log entries 1, 152: DESIGN CHOICE. -/
def rowRead (mine : Params → Bool) (row : Hdr → Params → Instr) (h : Hdr) (p : Params) (s : State) : State :=
  if mine (s.arriving opReadCfg.opcode h p).2 then front row opReadCfg.opcode h p s doReadCfg else s

/-- The packet addresses `LANE_CTRL` of a lane. -/
def atLaneCtrl (p : Params) : Bool := addrScope (par p 0 4) = 0 && isLaneCtrl (addrPage (par p 0 4)) (addrOff (par p 0 4))
/-- Log entry 152: DESIGN CHOICE. -/
def laneOutRow (p : Params) : Bool := atLaneCtrl p && bit (parW p 4) 31
/-- Log entry 152: DESIGN CHOICE. -/
def laneReturnRow (p : Params) : Bool := atLaneCtrl p && !bit (parW p 4) 31
/-- Log entry 152: DESIGN CHOICE. -/
def laneRetrainRow (p : Params) : Bool := atLaneCtrl p && bit (parW p 4) 30
/-- Log entry 152: DESIGN CHOICE. -/
def eiEnRow (p : Params) : Bool := addrScope (par p 0 4) = 0 && isLinkCtrl (addrPage (par p 0 4)) (addrOff (par p 0 4))
/-- Log entry 152: DESIGN CHOICE. -/
def tsqPopRow (p : Params) : Bool := addrScope (par p 0 4) = 0 && isTsqPop (addrPage (par p 0 4)) (addrOff (par p 0 4)) && bit (parW p 4) 0
/-- Log entry 152: DESIGN CHOICE. -/
def fecPeakRow (p : Params) : Bool :=
  let o := addrOff (par p 0 4)
  addrScope (par p 0 4) = 0 && addrPage (par p 0 4) = 4 && decide (0x1000 ≤ o) && decide (o < 0x1400) && o % 0x40 = 0x30
/-- Log entry 152: DESIGN CHOICE. -/
def kcSendRow (v : Nat) (p : Params) : Bool := writesAt 3 0x104 p && fld (parW p 4) 28 4 = v
/-- The packet writes `FENCEk` of a quire. Log entry 152: DESIGN CHOICE. -/
def atFence (p : Params) : Bool :=
  let a := par p 0 4
  decide (1 ≤ addrScope a) && decide (addrScope a ≤ 8) && addrPage a = 0x18 && decide (0x10 ≤ addrOff a) && decide (addrOff a < 0x20)
/-- The packet writes `PAGE_CRC` of a configuration page of a quire. Log entry 152: DESIGN CHOICE. -/
def pageCrcRow (p : Params) : Bool :=
  let a := par p 0 4
  decide (1 ≤ addrScope a) && decide (addrScope a ≤ 8) && configPages.contains (addrPage a) && addrOff a = pageCrcOff

/-- PAGE_CRC_WRITE (R608, R610). -/
def execPageCrcWrite (h : Hdr) (p : Params) (s : State) : Out := .next (rowWrite pageCrcRow .pageCrcWrite h p s)
/-- LANE_OUT (R557, R558). -/
def execLaneOut (h : Hdr) (p : Params) (s : State) : Out := .next (rowWrite laneOutRow .laneOut h p s)
/-- LANE_RETURN (R557). -/
def execLaneReturn (h : Hdr) (p : Params) (s : State) : Out := .next (rowWrite laneReturnRow .laneReturn h p s)
/-- LANE_RETRAIN (R554). -/
def execLaneRetrain (h : Hdr) (p : Params) (s : State) : Out := .next (rowWrite laneRetrainRow .laneRetrain h p s)
/-- FEC_INJECT_WRITE (R570). -/
def execFecInjectWrite (h : Hdr) (p : Params) (s : State) : Out := .next (rowWrite atLaneCtrl .fecInjectWrite h p s)
/-- FEC_PEAK_READ (R519). -/
def execFecPeakRead (h : Hdr) (p : Params) (s : State) : Out := .next (rowRead fecPeakRow .fecPeakRead h p s)
/-- EI_EN_WRITE (R728). -/
def execEiEnWrite (h : Hdr) (p : Params) (s : State) : Out := .next (rowWrite eiEnRow .eiEnWrite h p s)
/-- TSQ_POP (R676). -/
def execTsqPop (h : Hdr) (p : Params) (s : State) : Out := .next (rowWrite tsqPopRow .tsqPop h p s)
/-- TIME0_READ (R699). -/
def execTime0Read (h : Hdr) (p : Params) (s : State) : Out := .next (rowRead (writesAt 2 0) .time0Read h p s)
/-- REF_SELECT_WRITE (R659). -/
def execRefSelectWrite (h : Hdr) (p : Params) (s : State) : Out := .next (rowWrite (writesAt 1 0) .refSelectWrite h p s)
/-- SYNC_MODE_WRITE (R681, R700). -/
def execSyncModeWrite (h : Hdr) (p : Params) (s : State) : Out := .next (rowWrite (writesAt 3 0) .syncModeWrite h p s)
/-- SYNC_SKEW_WRITE (R691). -/
def execSyncSkewWrite (h : Hdr) (p : Params) (s : State) : Out := .next (rowWrite (writesAt 3 4) .syncSkewWrite h p s)
/-- HOLD_US_WRITE (R747). -/
def execHoldUsWrite (h : Hdr) (p : Params) (s : State) : Out := .next (rowWrite (writesAt 6 0) .holdUsWrite h p s)
/-- KC_SEND_TIME_LOAD (R695, R697). -/
def execKcSendTimeLoad (h : Hdr) (p : Params) (s : State) : Out := .next (rowWrite (kcSendRow 1) .kcSendTimeLoad h p s)
/-- KC_SEND_PING (R696, R697). -/
def execKcSendPing (h : Hdr) (p : Params) (s : State) : Out := .next (rowWrite (kcSendRow 2) .kcSendPing h p s)
/-- FENCE_ENGINE (R807). -/
def execFenceEngine (h : Hdr) (p : Params) (s : State) : Out := .next (rowWrite atFence .fenceEngine h p s)
/-- UNFENCE_ENGINE (R808). -/
def execUnfenceEngine (h : Hdr) (p : Params) (s : State) : Out := .next (rowWrite atFence .unfenceEngine h p s)

end Sys2Proof.Machine
end

