-- ==== Sys2Proof/Machine/SpineCmds.lean ====
section
/-! DEFINITION. Internal reset (R827, R830) and CHIP_RESET (R636), patches (R638, R816 to R818), Spine restarts and machine checks (R637, R819 to R821), and the packets that waited (R637, R837). -/

namespace Sys2Proof.Machine

/-! ### Internal reset -/

/-- Enter internal reset (R21, R603, R781, R804, R809, R827, R830): everything is at reset but the Sinter log, the flash, the straps, VPINq, its ramp and what was measured of it (R313), and the causes of the reset; `pending` and `sent` are the model's own. Log entry 150: DEDUCED. -/
def State.enterReset (s : State) : State :=
  { State.reset with
    pending := s.pending, sent := s.sent, fresh := s.fresh, modeOz := s.modeOz, log := s.log, flash := s.flash
    quires := s.quires.map fun (q : Quire) => { Quire.reset with vpinOk := q.vpinOk, vpinHeld := q.vpinHeld, vpinMv := q.vpinMv, vpinGood := q.vpinGood, vpinSetpoint := q.vpinSetpoint, vpinFrom := q.vpinFrom, vpinSince := q.vpinSince }
    time := { Time.reset with ticks := s.time.ticks }
    boot := { Boot.reset with resetNLow := s.boot.resetNLow, railFallen := s.boot.railFallen, vsramFallen := s.boot.vsramFallen, scan := s.boot.scan } }

/-- A boundary-scan instruction that holds internal reset (R851). -/
def ScanInstr.holds : ScanInstr → Bool
  | .extest | .extestPulse | .extestTrain | .clamp | .highz => true
  | _ => false

/-- The chip is in internal reset (R827). Log entry 150: DEDUCED. -/
def State.held (s : State) : Bool := s.boot.resetNLow || s.boot.railFallen || s.boot.scan.holds

/-- The start of boot (R781, R831, R832): after a fall of VSRAM it is a power-on, which clears the Sinter log. Log entry 150: DEDUCED. -/
def State.startBoot (s : State) : State :=
  let s := if s.boot.vsramFallen then { s with log := SinterLog.reset } else s
  { s with boot := { Boot.reset with step := 1, resetNLow := false, vsramFallen := false, scan := s.boot.scan } }

def doChipReset (h : Hdr) (p : Params) (s : State) : State :=
  packet opChipReset h p s (fun _ => if par p 0 4 = 0x7248 then none else rangeAt 0) fun s d => ((s.reply d stOk).enterReset).startBoot

/-- CHIP_RESET (R636): it replies OK, and then has the effect of a pulse on `RESET_N`. -/
def execChipReset (h : Hdr) (p : Params) (s : State) : Out := .next (front .chipReset opChipReset.opcode h p s doChipReset)

/-! ### Patches (R638, R816 to R818) -/

/-- The largest image: header, 4,096 microwords, tag and signature (R816). -/
abbrev patchMost : Nat := 64 + 24 * 4096 + 16 + 96

/-- Bytes put into an image at an offset. Log entry 145: DEDUCED. -/
def imagePut (img : List Byte) (off : Nat) (data : List Byte) : List Byte :=
  (img ++ List.replicate (off - img.length) 0).take off ++ data ++ img.drop (off + data.length)

def slotId (b : Bool) : Fin 2 := if b then 1 else 0

/-- The last segment of an image has arrived (R638, R818). Log entry 4: DESIGN CHOICE; log entry 145: DEDUCED. -/
def State.stagePatch (s : State) (d : ReplyTo) : State :=
  let img := s.spine.stagedImage.take s.spine.stagedSize
  let s := { s with spine := { s.spine with stagedValid := false } }
  if Config.patchAuthentic img then
    let slot : PatchSlot := { image := img, generation := s.spine.patchGeneration + 1, isActive := false, isStaged := false }
    { s with flash := { s.flash with slots := s.flash.slots.set (slotId !s.spine.patchSlot) slot }, spine := { s.spine with patchWaiter := some d } }
  else s.reply d stAuth

/-- Log entry 145: DEDUCED. -/
def doPatchStage (h : Hdr) (p : Params) (s : State) : State :=
  let size := par p 4 4
  let off := par p 8 4
  let data := p.drop 12
  packet opPatchStage h p s (fun s =>
      if patchMost < size then rangeAt 4
      else if size < off + data.length then rangeAt 8
      else if s.spine.patchWaiter.isSome then some (stBusy, 0) else none)
    fun s d =>
      let img := imagePut (if par p 0 1 % 2 = 1 then [] else s.spine.stagedImage) off data
      let s := { s with spine := { s.spine with stagedImage := img, stagedSize := size } }
      if par p 0 1 / 2 % 2 = 1 then s.stagePatch d else s.reply d stOk

/-- PATCH_STAGE (R638, R818). -/
def execPatchStage (h : Hdr) (p : Params) (s : State) : Out := .next (front .patchStage opPatchStage.opcode h p s doPatchStage)

/-- PATCH_FLASH_WRITE_DONE (R818). Log entry 145: DEDUCED. -/
def patchWritten (success : Bool) (s : State) : State :=
  match s.spine.patchWaiter with
  | none => s
  | some d =>
    let s := { s with spine := { s.spine with patchWaiter := none } }
    if success then
      let i := slotId !s.spine.patchSlot
      let x := s.flash.slots[i]
      { s with flash := { s.flash with slots := s.flash.slots.set i { x with isStaged := true } }, spine := { s.spine with stagedValid := true } }.reply d stOk
    else s.reply d stNoResource

def execPatchFlashWriteDone (success : Bool) (s : State) : Out := .next (patchWritten success s)

/-- The slot that a Spine start uses: of the ACTIVE ones that authenticate, the one of highest generation (R820). Log entry 4: DESIGN CHOICE. -/
def Flash.bestSlot (f : Flash) : Option Bool :=
  let good := fun (b : Bool) => (f.slots[slotId b]).isActive && Config.patchAuthentic (f.slots[slotId b]).image
  if good false && (!good true || decide ((f.slots[slotId true]).generation ≤ (f.slots[slotId false]).generation)) then some false
  else if good true then some true else none

/-- The reload of the active bank at a Spine start (R820). -/
def State.reloadPatch (s : State) : State :=
  match s.flash.bestSlot with
  | some b => { s with spine := { s.spine with patchNone := false, patchSlot := b, patchGeneration := (s.flash.slots[slotId b]).generation }, boot := { s.boot with patchNone := false } }
  | none => { s with spine := { s.spine with patchNone := true, patchGeneration := 0 }, boot := { s.boot with patchNone := true } }

/-! ### Restarts (R637, R819 to R821) -/

/-- Log entry 146: DEDUCED. -/
def doSpineRestart (h : Hdr) (p : Params) (s : State) : State :=
  packet opSpineRestart h p s (fun s =>
      if 2 ≤ par p 0 1 then rangeAt 0
      else if par p 0 1 = 1 && !s.spine.stagedValid then some (stState, detChip)
      else if s.spine.restartWanted.isSome then some (stBusy, 0) else none)
    fun s d => { s with spine := { s.spine with restartWanted := some (some d, par p 0 1 = 1) } }

/-- SPINE_RESTART (R637, R819): the Spine restarts once no occupying command is left, and the command replies after it. -/
def execSpineRestart (h : Hdr) (p : Params) (s : State) : Out := .next (front .spineRestart opSpineRestart.opcode h p s doSpineRestart)

/-- MACHINE_CHECK (R738, R821, R862): the microword concerned (R759) is a free value (log entry 3). Log entry 146: DEDUCED. -/
def machineCheck (s : State) : State :=
  if s.boot.step < 4 then s
  else
    let r := s.check 0x07 0
    let word := r.2.takeFree
    let s := (word.2.bump (rk 8 8)).report .alert 0x07 none [] 0xFF 0 (fld word.1 0 12 : Nat) r.1
    { s with spine := { s.spine with restarting := true, checkInjected := r.1 } }

def execMachineCheck (s : State) : Out := .next (machineCheck s)

/-- A staged patch becomes the active one: its slot turns ACTIVE and the other bank is in use (R819). -/
def State.activateStaged (s : State) : State :=
  let i := slotId !s.spine.patchSlot
  let x := s.flash.slots[i]
  { s with flash := { s.flash with slots := s.flash.slots.set i { x with isStaged := false, isActive := true } }
           spine := { s.spine with activeBank := !s.spine.activeBank, stagedValid := false } }

/-- A packet that waited is taken. -/
def takeHeld (s : State) : Instr → State
  | .hello h p => front .hello opHello.opcode h p s doHello
  | .openSession h p => front .openSession opOpenSession.opcode h p s doOpenSession
  | .closeSession h p => front .closeSession opCloseSession.opcode h p s doCloseSession
  | .readCfg h p => front .readCfg opReadCfg.opcode h p s doReadCfg
  | .writeCfg h p => front .writeCfg opWriteCfg.opcode h p s doWriteCfg
  | .writeCfgBlock h p => front .writeCfgBlock opWriteCfgBlock.opcode h p s doWriteCfgBlock
  | .pageCrcWrite h p => front .pageCrcWrite opWriteCfg.opcode h p s doWriteCfg
  | .collate h p => front .collate opCollate.opcode h p s doCollate
  | .arm h p => front .arm opArm.opcode h p s doArm
  | .start h p => front .start opStart.opcode h p s doStart
  | .stop h p => front .stop opStop.opcode h p s doStop
  | .pause h p => front .pause opPause.opcode h p s doPause
  | .resume h p => front .resume opResume.opcode h p s doResume
  | .rebind h p => front .rebind opRebind.opcode h p s doRebind
  | .quireReset h p => front .quireReset opQuireReset.opcode h p s doQuireReset
  | .loadSignature h p => front .loadSignature opLoadSignature.opcode h p s doLoadSignature
  | .streamData h p => front .streamData opStreamData.opcode h p s doStreamData
  | .freeSignature h p => front .freeSignature opFreeSignature.opcode h p s doFreeSignature
  | .querySignature h p => front .querySignature opQuerySignature.opcode h p s doQuerySignature
  | .readVerdict h p => front .readVerdict opReadVerdict.opcode h p s doReadVerdict
  | .readCapture h p o l => front (fun h p => .readCapture h p o l) opReadCapture.opcode h p s fun h p => doReadCapture h p o l
  | .readRepair h p => front .readRepair opReadRepair.opcode h p s doReadRepair
  | .timeSet h p => front .timeSet opTimeSet.opcode h p s doTimeSet
  | .timeAdj h p => front .timeAdj opTimeAdj.opcode h p s doTimeAdj
  | .timeRead h p => front .timeRead opTimeRead.opcode h p s doTimeRead
  | .snapshot h p => front .snapshot opSnapshot.opcode h p s doSnapshot
  | .calRetrim h p => front .calRetrim opCalRetrim.opcode h p s doCalRetrim
  | .calCommit h p => front .calCommit opCalCommit.opcode h p s doCalCommit
  | .calQuery h p => front .calQuery opCalQuery.opcode h p s doCalQuery
  | .logFreeze h p => front .logFreeze opLogFreeze.opcode h p s doLogFreeze
  | .logRead h p => front .logRead opLogRead.opcode h p s doLogRead
  | .logThaw h p => front .logThaw opLogThaw.opcode h p s doLogThaw
  | .faultRead h p => front .faultRead opFaultRead.opcode h p s doFaultRead
  | .faultPinHold h p => front .faultPinHold opFaultPinHold.opcode h p s doFaultPinHold
  | .faultInject h p => front .faultInject opFaultInject.opcode h p s doFaultInject
  | .budgetSet h p => front .budgetSet opBudgetSet.opcode h p s doBudgetSet
  | .budgetQuery h p => front .budgetQuery opBudgetQuery.opcode h p s doBudgetQuery
  | .patchStage h p => front .patchStage opPatchStage.opcode h p s doPatchStage
  | .spineRestart h p => front .spineRestart opSpineRestart.opcode h p s doSpineRestart
  | .selftest h p => front .selftest opSelftest.opcode h p s doSelftest
  | .tmuMeasure h p => front .tmuMeasure opTmuMeasure.opcode h p s doTmuMeasure
  | .pmuMeasure h p => front .pmuMeasure opPmuMeasure.opcode h p s doPmuMeasure
  | .laneTest h p => front .laneTest opLaneTest.opcode h p s doLaneTest
  | .chipReset h p => front .chipReset opChipReset.opcode h p s doChipReset
  | .laneOut h p => front .laneOut opWriteCfg.opcode h p s doWriteCfg
  | .laneReturn h p => front .laneReturn opWriteCfg.opcode h p s doWriteCfg
  | .laneRetrain h p => front .laneRetrain opWriteCfg.opcode h p s doWriteCfg
  | .fecInjectWrite h p => front .fecInjectWrite opWriteCfg.opcode h p s doWriteCfg
  | .fecPeakRead h p => front .fecPeakRead opReadCfg.opcode h p s doReadCfg
  | .eiEnWrite h p => front .eiEnWrite opWriteCfg.opcode h p s doWriteCfg
  | .tsqPop h p => front .tsqPop opWriteCfg.opcode h p s doWriteCfg
  | .time0Read h p => front .time0Read opReadCfg.opcode h p s doReadCfg
  | .refSelectWrite h p => front .refSelectWrite opWriteCfg.opcode h p s doWriteCfg
  | .syncModeWrite h p => front .syncModeWrite opWriteCfg.opcode h p s doWriteCfg
  | .syncSkewWrite h p => front .syncSkewWrite opWriteCfg.opcode h p s doWriteCfg
  | .holdUsWrite h p => front .holdUsWrite opWriteCfg.opcode h p s doWriteCfg
  | .kcSendTimeLoad h p => front .kcSendTimeLoad opWriteCfg.opcode h p s doWriteCfg
  | .kcSendPing h p => front .kcSendPing opWriteCfg.opcode h p s doWriteCfg
  | .fenceEngine h p => front .fenceEngine opWriteCfg.opcode h p s doWriteCfg
  | .unfenceEngine h p => front .unfenceEngine opWriteCfg.opcode h p s doWriteCfg
  | _ => s

/-- The interpreter runs again: replies that fell due are sent, and the packets and time messages that waited are taken, the links in turn (R57, R637, R837). Log entry 163: DEDUCED. -/
def State.resume (s : State) : State :=
  let rs := s.heldReplies
  let ps := s.heldPackets
  let ms := s.heldTimes
  ((((({ s with heldReplies := [], heldPackets := [], heldTimes := [] }.each rs State.answer)).each ms State.takeTime).each (List.finRange 8) State.takeUnlisted).each (roundRobin ps) takeHeld).settleStreams

/-- SPINE_RESTART_DONE (R637, R639, R819 to R821): a machine check's restart comes before one that a command asked for. Log entry 146: DEDUCED. -/
def spineRestartDone (s : State) : State :=
  if !s.restarting then s
  else
    let mc := s.spine.restarting
    let injected := mc && s.spine.checkInjected
    let dest := if mc then none else s.spine.restartWanted.bind (·.1)
    let staged := !mc && (match s.spine.restartWanted with | some (_, b) => b | none => false)
    let s := if mc then { s with spine := { s.spine with restarting := false, checkInjected := false } } else { s with spine := { s.spine with restartWanted := none } }
    let s := (if staged then s.activateStaged else s).reloadPatch
    let s := (s.bump (rk 8 0xC)).log' 0x19 9 (packW [(8, b2n s.spine.activeBank), (0, b2n mc)]) 0 0 injected
    let s := match dest with | some d => s.reply d stOk | none => s
    s.resume

def execSpineRestartDone (s : State) : Out := .next (spineRestartDone s)

end Sys2Proof.Machine
end

