-- ==== Sys2Proof/Machine/Boot.lean ====
section
/-! DEFINITION. Reset events (R3, R827 to R832), the steps of boot (R833 to R838, R491 to R493, R523, R524, R809 to R811, R820) and boundary scan (R851 to R855). -/

namespace Sys2Proof.Machine

/-! ### Reset events -/

/-- RESET_N_FALL (R827). -/
def resetNFall (s : State) : State := { s with boot := { s.boot with resetNLow := true } }.enterReset

def execResetNFall (s : State) : Out := .next (resetNFall s)

/-- RAIL_FALL (R827, R832). -/
def railFall (rail : Rail) (s : State) : State :=
  { s with boot := { s.boot with railFallen := true, vsramFallen := s.boot.vsramFallen || decide (rail = Rail.vsram) } }.enterReset

def execRailFall (rail : Rail) (s : State) : Out := .next (railFall rail s)

/-- RAIL_WINDOW_SETTLED (R827): every rail of groups 1 to 3 has been in window for 1 ms. -/
def execRailWindowSettled (s : State) : Out := .next { s with boot := { s.boot with railFallen := false } }

/-- BOOT_START (R3, R827, R831): `RESET_N` is high. Its rise samples `MODE_OZ`; boot begins when nothing else holds internal reset. Log entries 12, 14: DESIGN CHOICE; log entry 150: DEDUCED. -/
def bootStart (modeOzBall resetNHigh : Bool) (s : State) : State :=
  if !resetNHigh then s
  else
    let s := if s.boot.resetNLow then { s with modeOz := modeOzBall, boot := { s.boot with resetNLow := false } } else s
    if s.held || decide (s.boot.step ≠ 0) then s else s.startBoot

def execBootStart (modeOzBall resetNHigh : Bool) (s : State) : Out := .next (bootStart modeOzBall resetNHigh s)

/-! ### The partition (R523, R524, R809) -/

/-- Link k's half word of the partition record. -/
def partHalf (ws : List Word) (k : Nat) : Nat := fld (ws.getD (1 + k / 2) 0) (16 * (k % 2)) 16
def partDefined (ws : List Word) (k : Nat) : Bool := decide (2 ^ 15 ≤ partHalf ws k)
def partBase (ws : List Word) (k : Nat) : Nat := partHalf ws k / 2 ^ 8 % 16
def partWidth (ws : List Word) (k : Nat) : Nat := partHalf ws k % 16

/-- Two defined links share no lane. -/
def partApart (ws : List Word) (i j : Nat) : Bool :=
  !partDefined ws i || !partDefined ws j || decide (partBase ws i + partWidth ws i ≤ partBase ws j) || decide (partBase ws j + partWidth ws j ≤ partBase ws i)

/-- The record is valid (R524, R809). -/
def partValid (ws : List Word) : Bool :=
  ws.getD 0 0 = 0x4C500001 && ws.getD 5 0 = crc32c ((ws.take 5).flatMap leW)
  && (List.range 8).all fun k =>
    (!partDefined ws k || ([1, 2, 4, 8].contains (partWidth ws k) && partBase ws k % partWidth ws k = 0 && decide (partBase ws k + partWidth ws k ≤ 16)))
    && (List.range k).all fun j => partApart ws j k

/-- Base and width of a link; `none` when it is not defined. -/
def partLink (ws : List Word) (k : Nat) : Option (Nat × Nat) :=
  if partValid ws then (if partDefined ws k then some (partBase ws k, partWidth ws k) else none)
  else if k = 0 then some (0, 8) else if k = 1 then some (8, 8) else none

/-- The end of step 3: partition and patch are in force, and every defined link begins to train (R523, R820, R835). -/
def State.bootSpine (s : State) : State :=
  let ws := s.flash.partition
  let s := { s with
    links := Vector.ofFn fun k => match partLink ws k.val with
      | some (b, w) => { Link.reset with isDefined := true, base := b, width := w }
      | none => Link.reset
    boot := { s.boot with partitionDefault := !partValid ws, step := 4 } }
  s.reloadPatch.each (List.finRange 8) State.trainLink

/-- The end of step 5: the timing domain starts on REC when it is GOOD, and otherwise on the XO (R836). Log entry 150: DEDUCED. -/
def State.bootTiming (s : State) : State :=
  ({ s with clock := { s.clock with next := if s.recGood then .recovered else .xo }, boot := { s.boot with step := 6 } }).switchSource

/-! ### The calibration bank (R810, R811) -/

/-- The bank in use: of the valid ones, that of the higher generation. -/
def Flash.bestBank (f : Flash) : Option Bool :=
  let a := f.banks[bankId false]
  let b := f.banks[bankId true]
  if a.valid && (!b.valid || decide (b.generation ≤ a.generation)) then some false else if b.valid then some true else none

/-- The quire's calibration data and board word from a bank. -/
def Quire.loadBank (b : CalBank) (i : Nat) (q : Quire) : Quire :=
  { q with cal := ((b.cal.getD i (List.replicate 33 .reset)).map fun e => { e with mended := false, trimFail := false })
           dram := { q.dram with board := b.dram.getD i 0 } }

/-- A rail as the board record names it (R729, R809). -/
def RailView.ofBoard (w : Word) : RailView :=
  { RailView.reset with present := bit w 31, addr := BitVec.ofNat 7 w.toNat, state := if bit w 31 then .ok else .absent }

/-- The end of step 6: the store is in force, the governor has turned the rails on and set VCORE and VPINq, and the interpreter takes packets (R312, R729, R730, R810, R811, R833, R837). -/
def State.bootStore (s : State) : State :=
  let s := match s.flash.bestBank with
    | some i =>
      let b := s.flash.banks[bankId i]
      { s with
        cal := { s.cal with storeValid := true, bank := i, generation := b.generation }
        quires := Vector.ofFn fun q => s.quires[q].loadBank b q.val
        gov := { s.gov with rails := (List.range 9).map fun r => RailView.ofBoard (b.rails.getD r 0) } }
    | none => { s with cal := { s.cal with storeValid := false }, boot := { s.boot with storeInvalid := true } }
  let s := { s with quires := s.quires.map fun (q : Quire) => q.moveVpin s.time.ticks 1200, boot := { s.boot with step := 7 } }
  s.pmStart.resume

/-! ### DDR-5 training (R458, R459, R491 to R493) -/

/-- A channel trains: `good` has bit i for each physical rank that trains at both sets. -/
def Dram.train (storeValid : Bool) (good : BitVec 3) (d : Dram) : Dram :=
  let on := fun (i : Nat) => good.getLsbD i && bit d.board i
  let st := fun (i : Nat) (x : RankState) => if on i then x else RankState.failed
  if !storeValid || fld d.board 28 2 = 3 then { d with available := false, trainResult := 4 }
  else if on 0 && on 1 && on 2 then { d with available := true, spareOk := true, trainResult := 0, ranks := #v[.active, .active, .spare], physL0 := 0, physL1 := 1 }
  else if on 0 && on 1 then { d with available := true, trainResult := 2, ranks := #v[.active, .active, .failed], physL0 := 0, physL1 := 1 }
  else if on 2 && (on 0 || on 1) then
    { d with available := true, trainResult := 1, ranks := #v[st 0 .active, st 1 .active, .active]
             physL0 := if on 0 then 0 else 2, physL1 := if on 1 then 1 else 2 }
  else { d with available := false, trainResult := 3 }

/-- The end of step 7. Log entry 150: DEDUCED. -/
def State.bootDram (ranks : List (BitVec 3)) (s : State) : State :=
  { s with
    quires := Vector.ofFn fun q => { s.quires[q] with dram := s.quires[q].dram.train s.cal.storeValid (ranks.getD q.val 0) }
    boot := { s.boot with step := 8 } }

/-- The end of step 8: every quire whose VPINq has been in window for 1 ms leaves OFF (R838). -/
def State.bootQuires (s : State) : State :=
  let ready := (List.finRange 8).filter fun q => (s.quire q).vpinHeld
  ({ s with boot := { s.boot with step := 9 } }).each ready State.leaveOff

/-- BOOT_STEP_DONE (R833 to R838). Log entry 12: DESIGN CHOICE; log entry 150: DEDUCED. -/
def bootStepDone (elapsedMs : Nat) (ranks : List (BitVec 3)) (s : State) : State :=
  if s.boot.step = 0 ∨ 9 ≤ s.boot.step then s
  else
    let s := { s with boot := { s.boot with ms := min 0xFFFF elapsedMs } }
    match s.boot.step with
    | 1 => { s with boot := { s.boot with step := 2 } }
    | 2 => if s.clock.xo = .good then { s with boot := { s.boot with step := 3 } } else s
    | 3 => s.bootSpine
    | 4 =>
      if (List.finRange 8).any fun k : LinkId => (s.link k).phase = .training then s
      else
        let up := (((List.finRange 8).filter fun k : LinkId => s.linkUp k).map fun k => 2 ^ k.val).sum
        { s with boot := { s.boot with step := 5, linksUp := BitVec.ofNat 8 up } }
    | 5 => s.bootTiming
    | 6 => s.bootStore
    | 7 => s.bootDram ranks
    | _ => s.bootQuires

def execBootStepDone (elapsedMs : Nat) (ranks : List (BitVec 3)) (s : State) : Out := .next (bootStepDone elapsedMs ranks s)

/-! ### Balls (R830, R842, R843) -/

/-- The ball groups of R830 beside the DUT pins, whose drivers stand in `Quire.pins`. -/
inductive BallGroup where
  | marker | syncOut | kco | tdo | faultN | hostTransmitter | ddrResetN | ddrCsN | ddrOther | flashCsN | pmbus
  deriving DecidableEq, Repr

/-- What a ball is made to do. -/
inductive BallState where
  | low | high | highZ | released | electricalIdle
  deriving DecidableEq, Repr

/-- The state of a ball group in internal reset (R830); elsewhere the registers and events of its own chapter decide it. -/
def State.ballInReset (s : State) (b : BallGroup) : Option BallState :=
  if s.boot.step ≠ 0 then none
  else some (match b with
    | .marker | .syncOut | .kco | .ddrResetN | .ddrOther => .low
    | .tdo => .highZ
    | .faultN | .pmbus => .released
    | .hostTransmitter => .electricalIdle
    | .ddrCsN | .flashCsN => .high)

/-- Row and column of the ball of the DUT band at a side, a depth and a position (R842). -/
def bandBall (side depth position : Nat) : Nat × Nat :=
  match side with
  | 0 => (depth, position)
  | 1 => (position, 73 - depth)
  | 2 => (73 - depth, 73 - position)
  | _ => (73 - position, depth)

/-- Row and column of a ball of a quire, `along` places into its half of its side (R843). -/
def quireBall (q : QId) (depth along : Nat) : Nat × Nat := bandBall (q.val / 2) depth (10 + 27 * (q.val % 2) + along)

/-- The balls of a local pin, of a marker, of the two sense lines and of the 27 supply balls of VPINq (R843). -/
def pinBall (q : QId) (p : PinId) : Nat × Nat := quireBall q (if p.val % 2 = 0 then 1 else 3) (1 + p.val / 2)
def markerBall (q : QId) (m : Fin 2) : Nat × Nat := quireBall q 5 (1 + 2 * m.val)
def senseBall (q : QId) (negative : Bool) : Nat × Nat := quireBall q 5 (if negative then 11 else 10)
def supplyBall (q : QId) (i : Fin 27) : Nat × Nat := quireBall q 6 i.val

/-! ### Boundary scan (R851 to R855) -/

/-- An instruction enters the instruction register: one marked "held" holds internal reset. -/
def scanSelect (i : ScanInstr) (s : State) : State :=
  let s := { s with boot := { s.boot with scan := i } }
  if i.holds then s.enterReset else s

def execExtest (s : State) : Out := .next (scanSelect .extest s)
def execIdcode (s : State) : Out := .next (scanSelect .idcode s)
def execSamplePreload (s : State) : Out := .next (scanSelect .samplePreload s)
def execExtestPulse (s : State) : Out := .next (scanSelect .extestPulse s)
def execExtestTrain (s : State) : Out := .next (scanSelect .extestTrain s)
def execClamp (s : State) : Out := .next (scanSelect .clamp s)
def execHighz (s : State) : Out := .next (scanSelect .highz s)
def execBootStatus (s : State) : Out := .next (scanSelect .bootStatus s)
def execBypass (s : State) : Out := .next (scanSelect .bypass s)

/-- The identification register (R854). -/
abbrev idcodeWord : Word := 0x27248B47

/-- BOOT_STATUS (R855). -/
def State.bootStatusWord (s : State) : Word :=
  let b := s.boot
  packW [(28, b.step), (27, b2n b.xoGood), (26, b2n b.patchNone), (25, b2n b.storeInvalid), (24, b2n b.partitionDefault), (16, b.linksUp.toNat), (0, b.ms)]

/-- The register that the instruction in force puts between `TDI` and `TDO`: its length and value; `none` for the boundary register (R853). -/
def State.scanRegister (s : State) : Option (Nat × Word) :=
  match s.boot.scan with
  | .idcode => some (32, idcodeWord)
  | .bootStatus => some (32, s.bootStatusWord)
  | .bypass | .clamp | .highz => some (1, 0)
  | _ => none

end Sys2Proof.Machine
end

