-- ==== Sys2Proof/Machine/Dispatch.lean ====
section
/-! DEFINITION. The meaning of each command. -/

namespace Sys2Proof.Machine

def exec (i : Instr) (s : State) : Host.Outcome State Fault Refusal :=
  match i with
  | .hello h p => Sys2Proof.Machine.execHello h p s
  | .openSession h p => Sys2Proof.Machine.execOpenSession h p s
  | .closeSession h p => Sys2Proof.Machine.execCloseSession h p s
  | .readCfg h p => Sys2Proof.Machine.execReadCfg h p s
  | .writeCfg h p => Sys2Proof.Machine.execWriteCfg h p s
  | .writeCfgBlock h p => Sys2Proof.Machine.execWriteCfgBlock h p s
  | .pageCrcWrite h p => Sys2Proof.Machine.execPageCrcWrite h p s
  | .collate h p => Sys2Proof.Machine.execCollate h p s
  | .collationComplete q vpinMv elapsedNs => Sys2Proof.Machine.execCollationComplete q vpinMv elapsedNs s
  | .arm h p => Sys2Proof.Machine.execArm h p s
  | .armFillDone q => Sys2Proof.Machine.execArmFillDone q s
  | .start h p => Sys2Proof.Machine.execStart h p s
  | .startAtTime q => Sys2Proof.Machine.execStartAtTime q s
  | .startVcoreReady vcoreMv expired => Sys2Proof.Machine.execStartVcoreReady vcoreMv expired s
  | .stop h p => Sys2Proof.Machine.execStop h p s
  | .stopTakeEffect q => Sys2Proof.Machine.execStopTakeEffect q s
  | .pause h p => Sys2Proof.Machine.execPause h p s
  | .pauseTakeEffect q => Sys2Proof.Machine.execPauseTakeEffect q s
  | .resume h p => Sys2Proof.Machine.execResume h p s
  | .rebind h p => Sys2Proof.Machine.execRebind h p s
  | .quireReset h p => Sys2Proof.Machine.execQuireReset h p s
  | .loadSignature h p => Sys2Proof.Machine.execLoadSignature h p s
  | .loadCheckDone q sig => Sys2Proof.Machine.execLoadCheckDone q sig s
  | .streamData h p => Sys2Proof.Machine.execStreamData h p s
  | .freeSignature h p => Sys2Proof.Machine.execFreeSignature h p s
  | .querySignature h p => Sys2Proof.Machine.execQuerySignature h p s
  | .readVerdict h p => Sys2Proof.Machine.execReadVerdict h p s
  | .readCapture h p o l => Sys2Proof.Machine.execReadCapture h p o l s
  | .readRepair h p => Sys2Proof.Machine.execReadRepair h p s
  | .timeSet h p => Sys2Proof.Machine.execTimeSet h p s
  | .timeAdj h p => Sys2Proof.Machine.execTimeAdj h p s
  | .timeRead h p => Sys2Proof.Machine.execTimeRead h p s
  | .snapshot h p => Sys2Proof.Machine.execSnapshot h p s
  | .snapshotAtTime => Sys2Proof.Machine.execSnapshotAtTime s
  | .calRetrim h p => Sys2Proof.Machine.execCalRetrim h p s
  | .retrimMeasureDone q missedByMilliPs taps => Sys2Proof.Machine.execRetrimMeasureDone q missedByMilliPs taps s
  | .calCommit h p => Sys2Proof.Machine.execCalCommit h p s
  | .calQuery h p => Sys2Proof.Machine.execCalQuery h p s
  | .calTrackUpdate => Sys2Proof.Machine.execCalTrackUpdate s
  | .logFreeze h p => Sys2Proof.Machine.execLogFreeze h p s
  | .logRead h p => Sys2Proof.Machine.execLogRead h p s
  | .logThaw h p => Sys2Proof.Machine.execLogThaw h p s
  | .logTokenRefill => Sys2Proof.Machine.execLogTokenRefill s
  | .faultRead h p => Sys2Proof.Machine.execFaultRead h p s
  | .faultPinHold h p => Sys2Proof.Machine.execFaultPinHold h p s
  | .faultInject h p => Sys2Proof.Machine.execFaultInject h p s
  | .budgetSet h p => Sys2Proof.Machine.execBudgetSet h p s
  | .budgetQuery h p => Sys2Proof.Machine.execBudgetQuery h p s
  | .patchStage h p => Sys2Proof.Machine.execPatchStage h p s
  | .spineRestart h p => Sys2Proof.Machine.execSpineRestart h p s
  | .spineRestartDone => Sys2Proof.Machine.execSpineRestartDone s
  | .machineCheck => Sys2Proof.Machine.execMachineCheck s
  | .selftest h p => Sys2Proof.Machine.execSelftest h p s
  | .tmuMeasure h p => Sys2Proof.Machine.execTmuMeasure h p s
  | .tmuGateOpen q u => Sys2Proof.Machine.execTmuGateOpen q u s
  | .tmuEdge q u ch rising t => Sys2Proof.Machine.execTmuEdge q u ch rising t s
  | .tmuGateClose q u => Sys2Proof.Machine.execTmuGateClose q u s
  | .tmuFitDone q u => Sys2Proof.Machine.execTmuFitDone q u s
  | .pmuMeasure h p => Sys2Proof.Machine.execPmuMeasure h p s
  | .pmuApertureStart q settledNs => Sys2Proof.Machine.execPmuApertureStart q settledNs s
  | .pmuMeasureDone q value limited => Sys2Proof.Machine.execPmuMeasureDone q value limited s
  | .laneTest h p => Sys2Proof.Machine.execLaneTest h p s
  | .laneTestDone lane lockedInTime bits errors => Sys2Proof.Machine.execLaneTestDone lane lockedInTime bits errors s
  | .chipReset h p => Sys2Proof.Machine.execChipReset h p s
  | .laneOut h p => Sys2Proof.Machine.execLaneOut h p s
  | .laneReturn h p => Sys2Proof.Machine.execLaneReturn h p s
  | .laneRetrain h p => Sys2Proof.Machine.execLaneRetrain h p s
  | .fecInjectWrite h p => Sys2Proof.Machine.execFecInjectWrite h p s
  | .fecPeakRead h p => Sys2Proof.Machine.execFecPeakRead h p s
  | .eiEnWrite h p => Sys2Proof.Machine.execEiEnWrite h p s
  | .tsqPop h p => Sys2Proof.Machine.execTsqPop h p s
  | .time0Read h p => Sys2Proof.Machine.execTime0Read h p s
  | .refSelectWrite h p => Sys2Proof.Machine.execRefSelectWrite h p s
  | .syncModeWrite h p => Sys2Proof.Machine.execSyncModeWrite h p s
  | .syncSkewWrite h p => Sys2Proof.Machine.execSyncSkewWrite h p s
  | .holdUsWrite h p => Sys2Proof.Machine.execHoldUsWrite h p s
  | .kcSendTimeLoad h p => Sys2Proof.Machine.execKcSendTimeLoad h p s
  | .kcSendPing h p => Sys2Proof.Machine.execKcSendPing h p s
  | .fenceEngine h p => Sys2Proof.Machine.execFenceEngine h p s
  | .unfenceEngine h p => Sys2Proof.Machine.execUnfenceEngine h p s
  | .endRun q => Sys2Proof.Machine.execEndRun q s
  | .play q => Sys2Proof.Machine.execPlay q s
  | .loopBegin q => Sys2Proof.Machine.execLoopBegin q s
  | .loopEnd q => Sys2Proof.Machine.execLoopEnd q s
  | .call q => Sys2Proof.Machine.execCall q s
  | .ret q => Sys2Proof.Machine.execRet q s
  | .jump q => Sys2Proof.Machine.execJump q s
  | .matchJump q => Sys2Proof.Machine.execMatchJump q s
  | .waitTime q => Sys2Proof.Machine.execWaitTime q s
  | .waitTrig q => Sys2Proof.Machine.execWaitTrig q s
  | .waitTimeExpiry q => Sys2Proof.Machine.execWaitTimeExpiry q s
  | .waitTrigger q => Sys2Proof.Machine.execWaitTrigger q s
  | .waitTimeout q => Sys2Proof.Machine.execWaitTimeout q s
  | .matchResult q r => Sys2Proof.Machine.execMatchResult q r s
  | .decisionPoint q => Sys2Proof.Machine.execDecisionPoint q s
  | .instanceEnd q => Sys2Proof.Machine.execInstanceEnd q s
  | .verdictHoldExpiry q id => Sys2Proof.Machine.execVerdictHoldExpiry q id s
  | .prefetchRequest q => Sys2Proof.Machine.execPrefetchRequest q s
  | .chunkCreate q => Sys2Proof.Machine.execChunkCreate q s
  | .operandArrival q seq => Sys2Proof.Machine.execOperandArrival q seq s
  | .dispatchStep q => Sys2Proof.Machine.execDispatchStep q s
  | .affinityWaitExpiry q seq => Sys2Proof.Machine.execAffinityWaitExpiry q seq s
  | .chunkRelease q => Sys2Proof.Machine.execChunkRelease q s
  | .chunkDue q => Sys2Proof.Machine.execChunkDue q s
  | .autoResume q => Sys2Proof.Machine.execAutoResume q s
  | .compareResult q seq vec regions => Sys2Proof.Machine.execCompareResult q seq vec regions s
  | .rawRecordDrain q => Sys2Proof.Machine.execRawRecordDrain q s
  | .captureCompression q o => Sys2Proof.Machine.execCaptureCompression q o s
  | .repairAnalysisStep q region o agree => Sys2Proof.Machine.execRepairAnalysisStep q region o agree s
  | .repairFinalSearch q region o agree => Sys2Proof.Machine.execRepairFinalSearch q region o agree s
  | .epJoinDone q => Sys2Proof.Machine.execEpJoinDone q s
  | .epSwitch q agreed => Sys2Proof.Machine.execEpSwitch q agreed s
  | .edgeMismatch q pin seq k => Sys2Proof.Machine.execEdgeMismatch q pin seq k s
  | .readbackSample q pin enabled region => Sys2Proof.Machine.execReadbackSample q pin enabled region s
  | .dacCheck q pin dac microVolt => Sys2Proof.Machine.execDacCheck q pin dac microVolt s
  | .clampOvercurrent q pin peakMa => Sys2Proof.Machine.execClampOvercurrent q pin peakMa s
  | .clampOverload q pin => Sys2Proof.Machine.execClampOverload q pin s
  | .vpinOutOfWindow q mv => Sys2Proof.Machine.execVpinOutOfWindow q mv s
  | .vpinWindowSettled q mv => Sys2Proof.Machine.execVpinWindowSettled q mv s
  | .vcoreWindowCheck mv => Sys2Proof.Machine.execVcoreWindowCheck mv s
  | .sensorRead temps => Sys2Proof.Machine.execSensorRead temps s
  | .pmbusTelemetryCycle rails => Sys2Proof.Machine.execPmbusTelemetryCycle rails s
  | .pmAlert status => Sys2Proof.Machine.execPmAlert status s
  | .trimPeriod => Sys2Proof.Machine.execTrimPeriod s
  | .floorRecompute o => Sys2Proof.Machine.execFloorRecompute o s
  | .dramRateRequest q => Sys2Proof.Machine.execDramRateRequest q s
  | .eiAutoEvaluate => Sys2Proof.Machine.execEiAutoEvaluate s
  | .rateChange q => Sys2Proof.Machine.execRateChange q s
  | .refreshDue q rank => Sys2Proof.Machine.execRefreshDue q rank s
  | .refreshRepay q rank => Sys2Proof.Machine.execRefreshRepay q rank s
  | .mr4Read q anyHot => Sys2Proof.Machine.execMr4Read q anyHot s
  | .refreshWindowEnd q rank => Sys2Proof.Machine.execRefreshWindowEnd q rank s
  | .dqsDriftRead q drift => Sys2Proof.Machine.execDqsDriftRead q drift s
  | .dramCommandSlot q => Sys2Proof.Machine.execDramCommandSlot q s
  | .fetchDeadline q => Sys2Proof.Machine.execFetchDeadline q s
  | .agePromotion q => Sys2Proof.Machine.execAgePromotion q s
  | .dramRead q outcome => Sys2Proof.Machine.execDramRead q outcome s
  | .writeCrcAlert q => Sys2Proof.Machine.execWriteCrcAlert q s
  | .caParityAlert q => Sys2Proof.Machine.execCaParityAlert q s
  | .migrationCopy q outcome spareFailed => Sys2Proof.Machine.execMigrationCopy q outcome spareFailed s
  | .codewordReceived lane line => Sys2Proof.Machine.execCodewordReceived lane line s
  | .creditInit link grants => Sys2Proof.Machine.execCreditInit link grants s
  | .creditSync link totals => Sys2Proof.Machine.execCreditSync link totals s
  | .creditSyncSend link => Sys2Proof.Machine.execCreditSyncSend link s
  | .widthChange link mask at_ => Sys2Proof.Machine.execWidthChange link mask at_ s
  | .widthAck link mask at_ => Sys2Proof.Machine.execWidthAck link mask at_ s
  | .widthSwitch link => Sys2Proof.Machine.execWidthSwitch link s
  | .widthAckTimeout link => Sys2Proof.Machine.execWidthAckTimeout link s
  | .retrainReq link laneIdx => Sys2Proof.Machine.execRetrainReq link laneIdx s
  | .eiEnter link => Sys2Proof.Machine.execEiEnter link s
  | .laneRetrainStart lane cause => Sys2Proof.Machine.execLaneRetrainStart lane cause s
  | .laneRetrainDone lane training => Sys2Proof.Machine.execLaneRetrainDone lane training s
  | .linkTrainingDone link lanes grants => Sys2Proof.Machine.execLinkTrainingDone link lanes grants s
  | .linkRetrainTimer link => Sys2Proof.Machine.execLinkRetrainTimer link s
  | .eiEntry link => Sys2Proof.Machine.execEiEntry link s
  | .eiExit link => Sys2Proof.Machine.execEiExit link s
  | .sessionHoldExpiry link => Sys2Proof.Machine.execSessionHoldExpiry link s
  | .sync link msg sub => Sys2Proof.Machine.execSync link msg sub s
  | .followUp link msg => Sys2Proof.Machine.execFollowUp link msg s
  | .delayReq link sub => Sys2Proof.Machine.execDelayReq link sub s
  | .delayResp link msg => Sys2Proof.Machine.execDelayResp link msg s
  | .syncInEdge sub => Sys2Proof.Machine.execSyncInEdge sub s
  | .syncMissTimeout => Sys2Proof.Machine.execSyncMissTimeout s
  | .syncOutPulse => Sys2Proof.Machine.execSyncOutPulse s
  | .timeLoad frame agoNs => Sys2Proof.Machine.execTimeLoad frame agoNs s
  | .ping frame roundNs => Sys2Proof.Machine.execPing frame roundNs s
  | .pingTimeout => Sys2Proof.Machine.execPingTimeout s
  | .timeTick => Sys2Proof.Machine.execTimeTick s
  | .judgeWindow src within => Sys2Proof.Machine.execJudgeWindow src within s
  | .monitorWindow driftPpm => Sys2Proof.Machine.execMonitorWindow driftPpm s
  | .recEdgeLoss missing => Sys2Proof.Machine.execRecEdgeLoss missing s
  | .recRejudge => Sys2Proof.Machine.execRecRejudge s
  | .xoEdgeLoss missing => Sys2Proof.Machine.execXoEdgeLoss missing s
  | .pllLockLoss => Sys2Proof.Machine.execPllLockLoss s
  | .stopHandshakeTimeout => Sys2Proof.Machine.execStopHandshakeTimeout s
  | .timingRestart relockNs stopNs => Sys2Proof.Machine.execTimingRestart relockNs stopNs s
  | .recAdoption => Sys2Proof.Machine.execRecAdoption s
  | .faultCollectWindow => Sys2Proof.Machine.execFaultCollectWindow s
  | .faultNPulseEnd => Sys2Proof.Machine.execFaultNPulseEnd s
  | .resetNFall => Sys2Proof.Machine.execResetNFall s
  | .railFall rail => Sys2Proof.Machine.execRailFall rail s
  | .railWindowSettled => Sys2Proof.Machine.execRailWindowSettled s
  | .bootStart modeOzBall resetNHigh => Sys2Proof.Machine.execBootStart modeOzBall resetNHigh s
  | .bootStepDone elapsedMs ranks => Sys2Proof.Machine.execBootStepDone elapsedMs ranks s
  | .extest => Sys2Proof.Machine.execExtest s
  | .idcode => Sys2Proof.Machine.execIdcode s
  | .samplePreload => Sys2Proof.Machine.execSamplePreload s
  | .extestPulse => Sys2Proof.Machine.execExtestPulse s
  | .extestTrain => Sys2Proof.Machine.execExtestTrain s
  | .clamp => Sys2Proof.Machine.execClamp s
  | .highz => Sys2Proof.Machine.execHighz s
  | .bootStatus => Sys2Proof.Machine.execBootStatus s
  | .bypass => Sys2Proof.Machine.execBypass s
  | .nop q e f o => Sys2Proof.Machine.execNop q e f o s
  | .add q e f o => Sys2Proof.Machine.execAdd q e f o s
  | .sub q e f o => Sys2Proof.Machine.execSub q e f o s
  | .and q e f o => Sys2Proof.Machine.execAnd q e f o s
  | .or q e f o => Sys2Proof.Machine.execOr q e f o s
  | .xor q e f o => Sys2Proof.Machine.execXor q e f o s
  | .shl q e f o => Sys2Proof.Machine.execShl q e f o s
  | .shr q e f o => Sys2Proof.Machine.execShr q e f o s
  | .mul q e f o => Sys2Proof.Machine.execMul q e f o s
  | .popc q e f o => Sys2Proof.Machine.execPopc q e f o s
  | .minu q e f o => Sys2Proof.Machine.execMinu q e f o s
  | .maxu q e f o => Sys2Proof.Machine.execMaxu q e f o s
  | .addi q e f o => Sys2Proof.Machine.execAddi q e f o s
  | .andi q e f o => Sys2Proof.Machine.execAndi q e f o s
  | .ori q e f o => Sys2Proof.Machine.execOri q e f o s
  | .xori q e f o => Sys2Proof.Machine.execXori q e f o s
  | .shli q e f o => Sys2Proof.Machine.execShli q e f o s
  | .shri q e f o => Sys2Proof.Machine.execShri q e f o s
  | .lui q e f o => Sys2Proof.Machine.execLui q e f o s
  | .ld q e f o => Sys2Proof.Machine.execLd q e f o s
  | .st q e f o => Sys2Proof.Machine.execSt q e f o s
  | .ldw q e f o => Sys2Proof.Machine.execLdw q e f o s
  | .stw q e f o => Sys2Proof.Machine.execStw q e f o s
  | .beq q e f o => Sys2Proof.Machine.execBeq q e f o s
  | .bne q e f o => Sys2Proof.Machine.execBne q e f o s
  | .bltu q e f o => Sys2Proof.Machine.execBltu q e f o s
  | .bgeu q e f o => Sys2Proof.Machine.execBgeu q e f o s
  | .loop q e f o => Sys2Proof.Machine.execLoop q e f o s
  | .jal q e f o => Sys2Proof.Machine.execJal q e f o s
  | .jr q e f o => Sys2Proof.Machine.execJr q e f o s
  | .uget q e f o => Sys2Proof.Machine.execUget q e f o s
  | .uset q e f o => Sys2Proof.Machine.execUset q e f o s
  | .agen q e f o => Sys2Proof.Machine.execAgen q e f o s
  | .aseek q e f o => Sys2Proof.Machine.execAseek q e f o s
  | .scram q e f o => Sys2Proof.Machine.execScram q e f o s
  | .bgnd q e f o => Sys2Proof.Machine.execBgnd q e f o s
  | .cmap q e f o => Sys2Proof.Machine.execCmap q e f o s
  | .tput q e f o => Sys2Proof.Machine.execTput q e f o s
  | .tsrun q e f o => Sys2Proof.Machine.execTsrun q e f o s
  | .rawc q e f o => Sys2Proof.Machine.execRawc q e f o s
  | .cdec q e f o => Sys2Proof.Machine.execCdec q e f o s
  | .fget q e f o => Sys2Proof.Machine.execFget q e f o s
  | .rget q e f o => Sys2Proof.Machine.execRget q e f o s
  | .put q e f o => Sys2Proof.Machine.execPut q e f o s
  | .done q e f o => Sys2Proof.Machine.execDone q e f o s
  | .trap q e f o => Sys2Proof.Machine.execTrap q e f o s
  | .selftestDone q failed durationUs => Sys2Proof.Machine.execSelftestDone q failed durationUs s
  | .calCommitDone compareOk => Sys2Proof.Machine.execCalCommitDone compareOk s
  | .patchFlashWriteDone success => Sys2Proof.Machine.execPatchFlashWriteDone success s
  | .retrimDacMeasureDone q dacs => Sys2Proof.Machine.execRetrimDacMeasureDone q dacs s
  | .codewordTransmitted lane => Sys2Proof.Machine.execCodewordTransmitted lane s
  | .lossOfSignal lane => Sys2Proof.Machine.execLossOfSignal lane s
  | .vpinInWindow q mv => Sys2Proof.Machine.execVpinInWindow q mv s
  | .reservedTypeFrame frame => Sys2Proof.Machine.execReservedTypeFrame frame s

end Sys2Proof.Machine
end

