-- ==== Sys2Proof/Machine/Step.lean ====
section
/-! DEFINITION. One step: the command at the front of the queue, with the queue's rest in place. -/

namespace Sys2Proof.Machine

/-- The command at the front of the queue takes its effect; with nothing waiting the chip idles (log entry 11).
Ticks and every other event that time brings are commands of the opcode table, and nothing else happens between two of them. Log entry 154: DESIGN CHOICE. -/
def step (s : State) : Host.Outcome State Fault Refusal :=
  match s.pending with
  | [] => .next s
  | c :: rest => exec c { s with pending := rest }

/-- The command that the word spells, put at the front of the queue; no row of the opcode table gives bits, so no word spells one. Log entries 12, 13: DESIGN CHOICE. -/
def State.withFetchWord (s : State) (nbits w : Nat) : State :=
  match Sys2Proof.decodeTableWord nbits w with
  | some c => { s with pending := c :: s.pending }
  | none => s

end Sys2Proof.Machine
end

