-- ==== Sys2Proof/Safety.lean ====
section
/-! DEFINITION. What a safe run is, and the conditions under which a command has its own effect, in the terms the statements use. -/

namespace Sys2Proof.Machine

/-! ### Runs -/

/-- The states that steps from `s` reach, whatever commands are put into the queue between two steps. -/
inductive Reach (s : State) : State → Prop where
  | start : Reach s s
  | command (t : State) (c : Instr) : Reach s t → Reach s { t with pending := t.pending ++ [c] }
  | step (t u : State) : Reach s t → step t = .next u → Reach s u

/-- The log numbers its entries from 0 on in the order in which it took them, and holds at most 8,192 (R780, R787). -/
def SinterLog.Ordered (l : SinterLog) : Prop :=
  l.entries.length ≤ 8192 ∧ ∀ (i : Nat) (h : i < l.entries.length), l.entries[i].seq = i

/-- A safe run: no command stops it, and the log stays as the manual describes it. -/
def SafeRun (s : State) : Prop := ∀ t, Reach s t → t.log.Ordered ∧ ∃ u, step t = .next u

/-! ### Engines -/

/-- Nothing of the chip but quire `q`, the log and the reports on their way to the fault collector differs (R29). -/
def State.Within (s t : State) (q : QId) : Prop :=
  (∀ r, r ≠ q → t.quire r = s.quire r)
    ∧ t = { s with quires := t.quires, log := t.log, collector := { s.collector with reports := t.collector.reports, satPages := t.collector.satPages } }

/-- The engine as the quire holds it. -/
def State.engineOf (s : State) (q : QId) (e : EngId) : Engine := (s.quire q).engine e.val

/-- The state with that engine replaced, and nothing else changed. -/
def State.withEngine (s : State) (q : QId) (e : EngId) (x : Engine) : State := s.modQuire q fun y => y.setEngine e.val x

/-- Engine `e` runs an item, its program counter stands at the word, and no check of its stores is inverted (R157, R772). -/
def State.EngineAt (s : State) (q : QId) (e : EngId) (word : Word) : Prop :=
  (s.engineOf q e).item.isSome = true ∧ (s.engineOf q e).fetches word = true ∧ injecting 0x17 e.val (s.quire q).injections = false

/-- The operations fit the bound (R184). -/
def Engine.Affords (x : Engine) (cost : Nat) : Prop := x.algo = true → x.opsUsed + cost ≤ x.opsBound

/-- The engine after an instruction that costs `cost` operations and goes on at `pc`. -/
def Engine.after (x : Engine) (cost pc : Nat) : Engine := { x with opsUsed := x.opsUsed + cost, pc := pc }

/-- What the local stores give an instruction: the fetch of its word and, where it reads the data store, that read (R244, R245). -/
def storesGive (reads : Bool) (o : StoreReads) : List LineOutcome := o.fetch :: if reads then [o.data] else []

/-- `t` is `s` with engine `e` replaced by `y`, which counts `n` corrected reads more, up to all-ones (R245, R776). -/
def State.Corrected (s : State) (q : QId) (e : EngId) (n : Nat) (y : Engine) (t : State) : Prop :=
  s.Within t q ∧ t.collector.reports = s.collector.reports
    ∧ ∃ c m, c.toNat = min (y.eccCorrected.toNat + n) 255 ∧ t.quire q = { (s.quire q).setEngine e.val { y with eccCorrected := c } with satPages := m }

/-- An uncorrectable error in the stores of engine `e` (R184, R187, R244): its item traps with LOCAL_ECC, the engine is fenced, `LAST_TRAP` shows where, a chunk of the item is lost, and the checker makes its report (R738). -/
def State.LosesStores (s : State) (q : QId) (e : EngId) (t : State) : Prop :=
  s.Within t q ∧ (t.engineOf q e).item = none ∧ (t.quire q).fenced e.val = true
    ∧ (t.quire q).liveReg (rk 0x10 0x130) = packW [(24, 0x07), (16, e.val), (0, (s.engineOf q e).pc)]
    ∧ (∀ it, (s.engineOf q e).item = some it → it.kind = .pattern → ∀ sl ∈ (t.quire q).slots, sl.seq = it.seq → sl.trapped.isSome = true)
    ∧ ∃ r, t.collector.reports = s.collector.reports ++ [r] ∧ r.severity = .alert ∧ r.checker = 0x17 ∧ r.quire = some q ∧ r.element = BitVec.ofNat 8 e.val

/-- The three ways in which an instruction that makes engine `e` the engine `y` ends: its reads come back good, and nothing else of the chip changes; some are corrected, which counts; or one is not correctable. -/
def State.Ends (s : State) (q : QId) (e : EngId) (run : StoreReads → Out) (y : Engine) (reads : Bool) : Prop :=
  ∀ o, ((∀ r ∈ storesGive reads o, r = .good) → run o = .next (s.withEngine q e y))
    ∧ ((∀ r ∈ storesGive reads o, r ≠ .uncorrectable) → ∃ t, run o = .next t ∧ s.Corrected q e ((storesGive reads o).count .corrected) y t)
    ∧ (.uncorrectable ∈ storesGive reads o → ∃ t, run o = .next t ∧ s.LosesStores q e t)

/-- The instruction, standing at the engine's program counter with operations to spare, makes the engine `y`, with `cost` operations more and its program counter at `pc`, and changes nothing else of the chip, when its reads of the stores come back good; `reads` tells that it reads the data store. -/
def State.Turns (s : State) (q : QId) (e : EngId) (i : StoreReads → Instr) (word : Word) (cost pc : Nat) (y : Engine) (reads : Bool := false) : Prop :=
  s.EngineAt q e word → (s.engineOf q e).Affords cost → s.Ends q e (fun o => exec (i o) s) (y.after cost pc) reads

/-- The instruction, standing at the engine's program counter, ends the item with a trap (R184, R187): the engine runs no item, and `LAST_TRAP` shows code, engine and instruction. A read of its stores that cannot be corrected, its fetch's or, where `reads` tells that it reads there, the data store's, ends it with LOCAL_ECC instead (R244). -/
def State.Traps (s : State) (q : QId) (e : EngId) (i : StoreReads → Instr) (word : Word) (code : Byte) (reads : Bool := false) : Prop :=
  s.EngineAt q e word → ∀ o : StoreReads,
    ((∀ r ∈ storesGive reads o, r ≠ .uncorrectable) →
      ∃ t, exec (i o) s = .next t ∧ (t.engineOf q e).item = none
        ∧ (t.quire q).liveReg (rk 0x10 0x130) = packW [(24, code.toNat), (16, e.val), (0, (s.engineOf q e).pc)])
    ∧ (.uncorrectable ∈ storesGive reads o → ∃ t, exec (i o) s = .next t ∧ s.LosesStores q e t)

/-! ### Packets -/

/-- The packet of the row is the next one of its class on its link: the one at the front of the link buffer, or, where the buffer holds none, the one that the row gives (log entry 121). -/
def State.Arrives (s : State) (opcode : Byte) (h : Hdr) (p : Params) : Prop :=
  ∀ bytes, s.buffered h.link h.cls = some bytes → packetOpcode bytes = opcode ∧ readPacket h.link h.cls h.reads bytes = (h, p)

/-- A packet that the interpreter takes and none of the refusals of R580 but the command's own checks can turn away: it arrives whole on a link that is up, its tag is new, its form and the rights of its session are in order, no fault stands against it, fewer than 64 commands are in progress, and no command occupies its quires. -/
def State.Takes (s : State) (o : OpSpec) (h : Hdr) (p : Params) : Prop :=
  s.interpreting = true ∧ s.linkUp h.link = true ∧ wholePacket h o.opcode p = true ∧ tagUse o h s = .new ∧ malformed o h p = none ∧ notOwner o h s = none
    ∧ (s.collector.faulted = true → o.inChipFault = true) ∧ (∀ q ∈ quiresOf h.qmask, s.faultComing q = false)
    ∧ (s.session h.link).inProgress.length < 64 ∧ (o.whileOccupied = true ∨ ∀ q ∈ quiresOf h.qmask, (s.quire q).occupied = none)
    ∧ s.Arrives o.opcode h p

/-- The reply of the command is the last one sent. -/
def State.Answers (s t : State) (h : Hdr) (o : OpSpec) (status : Byte) (detail : BitVec 16) (result : List Byte) : Prop :=
  t.sent = s.sent ++ [{ dest := hdrDest h o.opcode, status := status, detail := detail, result := result }]

/-- A 32-bit counter has counted `n`, and stays at all-ones (R776). -/
def Counted (n : Nat) (old new : Word) : Prop := new.toNat = min (old.toNat + n) (2 ^ 32 - 1)

/-- The state differs from `u` only by the books of packets (replies sent, sessions, links, the counters of page 0x08, the log) and by the chip counters of the list, which count one each. -/
def State.Booked (u t : State) (also : List Nat := []) : Prop :=
  t = { u with sent := t.sent, sessions := t.sessions, links := t.links, regs := t.regs, log := t.log, collector := { u.collector with satPages := t.collector.satPages } }
    ∧ (∀ k ∈ also, Counted 1 (u.reg k) (t.reg k)) ∧ ∀ k, k ∉ also → k < rk 8 0x104 ∨ rk 8 0x204 ≤ k → t.reg k = u.reg k

/-- The command of the packet is carried out: it answers OK with the result, and makes the chip `u` but for the books of packets and the counters of the list. -/
def State.Serves (s : State) (i : Instr) (h : Hdr) (o : OpSpec) (result : List Byte) (u : State) (also : List Nat := []) : Prop :=
  ∃ t, exec i s = .next t ∧ s.Answers t h o stOk 0 result ∧ u.Booked t also

/-- The command of the packet is taken up and replies later: no reply yet, and the chip is `u` but for the books of packets. -/
def State.Begins (s : State) (i : Instr) (h : Hdr) (o : OpSpec) (u : State) : Prop :=
  ∃ t, exec i s = .next t ∧ t.sent = s.sent ∧ u.Booked t ∧ (h.tag, o.opcode, h.qmask) ∈ (t.session h.link).inProgress

/-- The reply of a packet. -/
def okReply (h : Hdr) (o : OpSpec) (result : List Byte) : Reply := { dest := hdrDest h o.opcode, status := stOk, detail := 0, result := result }

/-- A reply to the command leaves at once when it falls due: the command is in progress, its link is up, and no restart of the Spine stands (R572, R601, R637). -/
def State.Owes (s : State) (d : ReplyTo) : Prop :=
  s.linkUp d.link = true ∧ s.spine.restarting = false ∧ s.spine.restartWanted = none ∧ ∃ e ∈ (s.session d.link).inProgress, e.1 = d.tag ∧ e.2.1 = d.opcode

/-- A command on several quires selects quire `q` alone, and waits for it (R623). -/
def State.OwesOne (s : State) (d : ReplyTo) (q : QId) : Prop :=
  s.Owes d ∧ d.qmask = BitVec.ofNat 8 (2 ^ q.val)
    ∧ s.maskWaits.find? (fun w => w.dest = d) = some { dest := d, waiting := d.qmask, status := List.replicate 8 (0xFF, 0), records := List.replicate 8 [] }

/-- The reply of the command is the last one sent. -/
def State.Replied (s t : State) (d : ReplyTo) (status : Byte) (detail : BitVec 16) (result : List Byte) : Prop :=
  t.sent = s.sent ++ [{ dest := d, status := status, detail := detail, result := result }]

/-- The status bytes of a command on several quires: `st q` for a selected quire, 0xFF for the others (R623). -/
def maskBytes (mask : Byte) (st : QId → Byte) : List Byte := (List.finRange 8).map fun q => if mask.getLsbD q.val then st q else 0xFF

/-! ### Quires -/

/-- The commands whose replies wait on the quire. -/
def Quire.dests (x : Quire) : List ReplyTo :=
  (match x.occupied with
    | some (.collate d) | some (.settle d _ _) | some (.loadCheck d) | some (.arm d) | some (.rebind d) | some (.selftest d _) | some (.ended d) => [d]
    | none => [])
  ++ x.stopWaiters ++ (x.stopReq.bind (·.waiter)).toList ++ (x.pmu.bind (·.waiter)).toList ++ x.tmus.toList.flatMap fun t => (t.bind (·.waiter)).toList

/-- The quires differ only by counters: live words, and which pages hold a counter that is all-ones (R776). -/
def Quire.Counts (x y : Quire) : Prop := y = { x with live := y.live, satPages := y.satPages }

/-- The command makes quire `q` the quire `y` but for counters, nothing else of the chip changes, and `also` holds of the next state. -/
def State.Makes (s : State) (i : Instr) (q : QId) (y : Quire) (also : State → Prop := fun _ => True) : Prop :=
  ∃ t, exec i s = .next t ∧ s.Within t q ∧ y.Counts (t.quire q) ∧ also t

/-- A counter of quire `q` counts one. -/
def State.CountsOne (s : State) (q : QId) (key : Nat) (t : State) : Prop := Counted 1 ((s.quire q).liveReg key) ((t.quire q).liveReg key)

/-- The state is `u` but for the log and the chip's counters, of which those of the list count one each. -/
def State.Tallies (u t : State) (keys : List Nat) : Prop :=
  t = { u with regs := t.regs, log := t.log, collector := { u.collector with satPages := t.collector.satPages } }
    ∧ (∀ k ∈ keys, Counted 1 (u.reg k) (t.reg k)) ∧ ∀ k, k ∉ keys → t.reg k = u.reg k

/-- The sequencer of `x` stands as `u`, with the waits that follow put on its path, and buffers whose deferred free has come due emptied (R90, R106). -/
def Quire.Goes (x y : Quire) (u : Sequencer) : Prop :=
  ∃ waits : List Block, (∀ b ∈ waits, b.isWait = true) ∧ waits.map (·.entry) = List.range' u.pc waits.length
    ∧ y = ({ x with seq := { u with plan := u.plan ++ waits, pc := u.pc + waits.length } } : Quire).freeDeferred

/-! ### Rows of packets, and events of one quire -/

/-- A row that is an opcode of its own: its header, its parameters, and the form and rights that the tables of R620 give it. -/
def packetRow : Instr → Option (Hdr × Params × OpSpec)
  | .hello h p => some (h, p, opHello)
  | .openSession h p => some (h, p, opOpenSession)
  | .closeSession h p => some (h, p, opCloseSession)
  | .readCfg h p => some (h, p, opReadCfg)
  | .writeCfg h p => some (h, p, opWriteCfg)
  | .writeCfgBlock h p => some (h, p, opWriteCfgBlock)
  | .collate h p => some (h, p, opCollate)
  | .arm h p => some (h, p, opArm)
  | .start h p => some (h, p, opStart)
  | .stop h p => some (h, p, opStop)
  | .pause h p => some (h, p, opPause)
  | .resume h p => some (h, p, opResume)
  | .rebind h p => some (h, p, opRebind)
  | .quireReset h p => some (h, p, opQuireReset)
  | .loadSignature h p => some (h, p, opLoadSignature)
  | .streamData h p => some (h, p, opStreamData)
  | .freeSignature h p => some (h, p, opFreeSignature)
  | .querySignature h p => some (h, p, opQuerySignature)
  | .readVerdict h p => some (h, p, opReadVerdict)
  | .readCapture h p _ _ => some (h, p, opReadCapture)
  | .readRepair h p => some (h, p, opReadRepair)
  | .timeSet h p => some (h, p, opTimeSet)
  | .timeAdj h p => some (h, p, opTimeAdj)
  | .timeRead h p => some (h, p, opTimeRead)
  | .snapshot h p => some (h, p, opSnapshot)
  | .calRetrim h p => some (h, p, opCalRetrim)
  | .calCommit h p => some (h, p, opCalCommit)
  | .calQuery h p => some (h, p, opCalQuery)
  | .logFreeze h p => some (h, p, opLogFreeze)
  | .logRead h p => some (h, p, opLogRead)
  | .logThaw h p => some (h, p, opLogThaw)
  | .faultRead h p => some (h, p, opFaultRead)
  | .faultPinHold h p => some (h, p, opFaultPinHold)
  | .faultInject h p => some (h, p, opFaultInject)
  | .budgetSet h p => some (h, p, opBudgetSet)
  | .budgetQuery h p => some (h, p, opBudgetQuery)
  | .patchStage h p => some (h, p, opPatchStage)
  | .spineRestart h p => some (h, p, opSpineRestart)
  | .selftest h p => some (h, p, opSelftest)
  | .tmuMeasure h p => some (h, p, opTmuMeasure)
  | .pmuMeasure h p => some (h, p, opPmuMeasure)
  | .laneTest h p => some (h, p, opLaneTest)
  | .chipReset h p => some (h, p, opChipReset)
  | _ => none

/-- The quire of an event or an engine instruction that the opcode table places in one quire. -/
def eventQuire : Instr → Option QId
  | .collationComplete q _ _ | .armFillDone q | .startAtTime q | .stopTakeEffect q | .pauseTakeEffect q | .loadCheckDone q _ | .retrimMeasureDone q _ _
  | .tmuGateOpen q _ | .tmuEdge q _ _ _ _ | .tmuGateClose q _ | .tmuFitDone q _ | .pmuApertureStart q _ | .pmuMeasureDone q _ _ | .endRun q | .play q
  | .loopBegin q | .loopEnd q | .call q | .ret q | .jump q | .matchJump q | .waitTime q | .waitTrig q | .waitTimeExpiry q | .waitTrigger q
  | .waitTimeout q | .matchResult q _ | .decisionPoint q | .instanceEnd q | .verdictHoldExpiry q _ | .prefetchRequest q | .chunkCreate q
  | .operandArrival q _ | .affinityWaitExpiry q _ | .chunkRelease q | .autoResume q | .compareResult q _ _ _
  | .rawRecordDrain q | .captureCompression q _ | .repairAnalysisStep q _ _ _ | .repairFinalSearch q _ _ _ | .epJoinDone q | .epSwitch q _
  | .edgeMismatch q _ _ _ | .readbackSample q _ _ _ | .dacCheck q _ _ _ | .clampOvercurrent q _ _ | .clampOverload q _ | .vpinOutOfWindow q _
  | .vpinWindowSettled q _ | .dramRateRequest q | .rateChange q | .refreshDue q _ | .refreshRepay q _ | .mr4Read q _ | .refreshWindowEnd q _
  | .dqsDriftRead q _ | .dramCommandSlot q | .fetchDeadline q | .agePromotion q | .dramRead q _ | .writeCrcAlert q | .caParityAlert q
  | .migrationCopy q _ _ | .nop q _ _ _ | .add q _ _ _ | .sub q _ _ _ | .and q _ _ _ | .or q _ _ _ | .xor q _ _ _ | .shl q _ _ _ | .shr q _ _ _ | .mul q _ _ _
  | .popc q _ _ _ | .minu q _ _ _ | .maxu q _ _ _ | .addi q _ _ _ | .andi q _ _ _ | .ori q _ _ _ | .xori q _ _ _ | .shli q _ _ _ | .shri q _ _ _ | .lui q _ _ _
  | .ld q _ _ _ | .st q _ _ _ | .ldw q _ _ _ | .stw q _ _ _ | .beq q _ _ _ | .bne q _ _ _ | .bltu q _ _ _ | .bgeu q _ _ _ | .loop q _ _ _ | .jal q _ _ _ | .jr q _ _ _
  | .uget q _ _ _ | .uset q _ _ _ | .agen q _ _ _ | .aseek q _ _ _ | .scram q _ _ _ | .bgnd q _ _ _ | .cmap q _ _ _ | .tput q _ _ _ | .tsrun q _ _ _ | .rawc q _ _ _
  | .cdec q _ _ _ | .fget q _ _ _ | .rget q _ _ _ | .put q _ _ _ | .done q _ _ _ | .trap q _ _ _ | .selftestDone q _ _ | .retrimDacMeasureDone q _
  | .vpinInWindow q _ => some q
  | .dispatchStep r | .chunkDue r => some r.quire
  | _ => none

end Sys2Proof.Machine
end

