-- ==== Sys2Proof/Certificates/Slice0/Obligations.lean ====
section
/-! DEFINITION. The statements about the machine, one definition each. -/

open Sys2Proof Sys2Proof.Machine

/-! ### Engines -/

/-- ADD to MAXU write to `rd` what the opcode table says, cost what it says, go on with the next instruction and change nothing else; `x0` takes no value (R160, R164). The instructions with a 16-bit immediate write to `rd` what the opcode table says (R161, R164, R856). In each, a corrected read of the engine's stores counts, and an uncorrectable one ends the item with LOCAL_ECC (R244, R245). The model's choices that it rests on: log entries 38, 40, 41. -/
def Obligations.EngineRegisterResults : Prop :=
  (∀ (s : State) (q : QId) (e : EngId) (f : FmtA),
     let x := s.engineOf q e
     let a := x.x f.ra
     let b := x.x f.rb
     let writes := fun (i : StoreReads → Instr) (op cost : Nat) (v : DWord) => s.Turns q e i (encA op f) cost (x.pc + 1) (x.setX f.rd v)
     x.pc + 1 < x.progLen → f.imm = 0 →
       writes (.add q e f) 0x01 1 (a + b)
       ∧ writes (.sub q e f) 0x02 1 (a - b)
       ∧ writes (.and q e f) 0x03 1 (a &&& b)
       ∧ writes (.or q e f) 0x04 1 (a ||| b)
       ∧ writes (.xor q e f) 0x05 1 (a ^^^ b)
       ∧ writes (.shl q e f) 0x06 1 (BitVec.ofNat 64 (a.toNat * 2 ^ (b.toNat % 64)))
       ∧ writes (.shr q e f) 0x07 1 (BitVec.ofNat 64 (a.toNat / 2 ^ (b.toNat % 64)))
       ∧ writes (.mul q e f) 0x08 2 (BitVec.ofNat 64 (a.toNat * b.toNat))
       ∧ (f.rb = 0 → writes (.popc q e f) 0x09 1 (BitVec.ofNat 64 ((List.range 64).countP fun i => a.getLsbD i)))
       ∧ writes (.minu q e f) 0x0A 1 (BitVec.ofNat 64 (min a.toNat b.toNat))
       ∧ writes (.maxu q e f) 0x0B 1 (BitVec.ofNat 64 (max a.toNat b.toNat))
       ∧ x.x 0 = 0 ∧ (f.rd = 0 → ∀ v, x.setX f.rd v = x)
       ∧ (f.rd ≠ 0 → ∀ v, (x.setX f.rd v).x f.rd = v ∧ ∀ r, r ≠ f.rd → (x.setX f.rd v).x r = x.x r))
  ∧ (∀ (s : State) (q : QId) (e : EngId) (f : FmtB),
     let x := s.engineOf q e
     let a := x.x f.ra
     let n := f.imm.toNat
     let writes := fun (i : StoreReads → Instr) (op cost : Nat) (v : DWord) => s.Turns q e i (encB op f) cost (x.pc + 1) (x.setX f.rd v)
     x.pc + 1 < x.progLen →
       writes (.addi q e f) 0x10 1 (a + f.imm.signExtend 64)
       ∧ writes (.andi q e f) 0x11 1 (a &&& f.imm.zeroExtend 64)
       ∧ writes (.ori q e f) 0x12 1 (a ||| f.imm.zeroExtend 64)
       ∧ writes (.xori q e f) 0x13 1 (a ^^^ f.imm.zeroExtend 64)
       ∧ writes (.shli q e f) 0x14 1 (BitVec.ofNat 64 (a.toNat * 2 ^ (n % 64)))
       ∧ writes (.shri q e f) 0x15 1 (BitVec.ofNat 64 (a.toNat / 2 ^ (n % 64)))
       ∧ (f.ra = 0 → writes (.lui q e f) 0x16 1 (BitVec.ofNat 64 (n * 65536)))
       ∧ (f.ra = 0 → n % 16 < 14 → writes (.uget q e f) 0x28 1 (sget (fun _ => 0) (n % 16) x.unit))
       ∧ (f.ra = 0 → n % 16 = 14 → writes (.uget q e f) 0x28 1 (BitVec.ofNat 64 x.emitted))
       ∧ (f.ra = 0 → n % 16 = 15 → writes (.uget q e f) 0x28 1 (BitVec.ofNat 64 (x.opsUsed + 1)))
       ∧ (f.ra = 0 → n < 28 → s.Turns q e (.rget q e f) (encB 0x39 f) 2 (x.pc + 1) (x.setX f.rd (BitVec.ofNat 64 (unle (bread (0x20 + 8 * n) 8 x.dstore)))) (reads := true)))

/-- LD, ST, LDW and STW at the addresses the data-store map allows: what they read or write, little-endian, and that a store leaves every other byte as it was (R149, R164). In each, a corrected read of the engine's stores counts, and an uncorrectable one ends the item with LOCAL_ECC (R244, R245). The model's choices that it rests on: log entry 39. -/
def Obligations.EngineLoadsAndStores : Prop :=
  ∀ (s : State) (q : QId) (e : EngId) (f : FmtB),
    let x := s.engineOf q e
    let addr := (x.x f.ra + f.imm.signExtend 64).toNat
    let reads := fun (n : Nat) => addr + n ≤ 0x20 ∨ (0x100 ≤ addr ∧ addr + n ≤ 0xD08) ∨ (0xE00 ≤ addr ∧ addr + n ≤ 0x2000)
    let stored := fun (n : Nat) => ({ x with dstore := bwrite addr (le n (x.x f.rd).toNat) x.dstore } : Engine)
    x.pc + 1 < x.progLen →
      (addr % 8 = 0 → reads 8 → s.Turns q e (.ld q e f) (encB 0x18 f) 2 (x.pc + 1) (x.setX f.rd (BitVec.ofNat 64 (unle (bread addr 8 x.dstore)))) (reads := true))
      ∧ (addr % 4 = 0 → reads 4 → s.Turns q e (.ldw q e f) (encB 0x1A f) 2 (x.pc + 1) (x.setX f.rd (BitVec.ofNat 64 (unle (bread addr 4 x.dstore)))) (reads := true))
      ∧ (addr % 8 = 0 → 0xE00 ≤ addr → addr + 8 ≤ 0x1C00 → s.Turns q e (.st q e f) (encB 0x19 f) 1 (x.pc + 1) (stored 8))
      ∧ (addr % 4 = 0 → 0xE00 ≤ addr → addr + 4 ≤ 0x1C00 → s.Turns q e (.stw q e f) (encB 0x1B f) 1 (x.pc + 1) (stored 4))
      ∧ (∀ n i, i < n → bget (addr + i) (stored n).dstore = BitVec.ofNat 8 ((x.x f.rd).toNat / 256 ^ i))
      ∧ (∀ n b, b < addr ∨ addr + n ≤ b → bget b (stored n).dstore = bget b x.dstore)

/-- Branches, LOOP, JAL, JR and NOP: where execution goes on, counted from the instruction after a branch, and what LOOP and JAL write (R164). In each, a corrected read of the engine's stores counts, and an uncorrectable one ends the item with LOCAL_ECC (R244, R245). -/
def Obligations.EngineBranchesAndJumps : Prop :=
  ∀ (s : State) (q : QId) (e : EngId) (f : FmtC) (fb : FmtB) (fa : FmtA),
    let x := s.engineOf q e
    let a := x.x f.ra
    let b := x.x f.rb
    let target := fun (off : BitVec 16) => (x.pc : Int) + 1 + off.toInt
    let inside := fun (t : Int) => 0 ≤ t ∧ t < x.progLen
    let branch := fun (i : StoreReads → Instr) (op : Nat) (taken : Prop) =>
      (taken → inside (target f.off) → s.Turns q e i (encC op f) 1 (target f.off).toNat x)
      ∧ (¬taken → x.pc + 1 < x.progLen → s.Turns q e i (encC op f) 1 (x.pc + 1) x)
    let counted := x.setX f.ra (a - 1)
    branch (.beq q e f) 0x20 (a = b)
      ∧ branch (.bne q e f) 0x21 (a ≠ b)
      ∧ branch (.bltu q e f) 0x22 (a.toNat < b.toNat)
      ∧ branch (.bgeu q e f) 0x23 (b.toNat ≤ a.toNat)
      ∧ (f.rb = 0 → counted.x f.ra ≠ 0 → inside (target f.off) → s.Turns q e (.loop q e f) (encC 0x24 f) 1 (target f.off).toNat counted)
      ∧ (f.rb = 0 → counted.x f.ra = 0 → x.pc + 1 < x.progLen → s.Turns q e (.loop q e f) (encC 0x24 f) 1 (x.pc + 1) counted)
      ∧ (fb.ra = 0 → inside (target fb.imm) → s.Turns q e (.jal q e fb) (encB 0x25 fb) 1 (target fb.imm).toNat (x.setX fb.rd (BitVec.ofNat 64 (x.pc + 1))))
      ∧ (fa.rd = 0 → fa.rb = 0 → fa.imm = 0 → (x.x fa.ra).toNat % 2048 < x.progLen → s.Turns q e (.jr q e fa) (encA 0x26 fa) 1 ((x.x fa.ra).toNat % 2048) x)
      ∧ (fa.rd = 0 → fa.ra = 0 → fa.rb = 0 → fa.imm = 0 → x.pc + 1 < x.progLen → s.Turns q e (.nop q e fa) (encA 0x00 fa) 1 (x.pc + 1) x)

/-- USET writes the bits that a unit register holds and ignores the read-only ones; AGEN gives the address word and makes one counter step, ASEEK the counters after `ra` steps from the first values (R161, R165 to R168). In each, a corrected read of the engine's stores counts, and an uncorrectable one ends the item with LOCAL_ECC (R244, R245). The model's choices that it rests on: log entry 38. -/
def Obligations.EngineUnitRegisters : Prop :=
  ∀ (s : State) (q : QId) (e : EngId) (fb : FmtB) (f : FmtA),
    let x := s.engineOf q e
    let k := fb.imm.toNat % 16
    let rule168 := (∀ c < 3, x.start c ≤ x.limit c) ∧ (∀ c < 3, c ∈ x.order)
    let spans := (x.limit 0 - x.start 0 + 1) * (x.limit 1 - x.start 1 + 1) * (x.limit 2 - x.start 2 + 1)
    let address := BitVec.ofNat 64 (x.u 0 + 2 ^ 20 * x.u 1 + 2 ^ 40 * x.u 2 + 2 ^ (56 + x.u 2 % 8))
    x.pc + 1 < x.progLen →
      (fb.rd = 0 → k < 14 → s.Turns q e (.uset q e fb) (encB 0x29 fb) 1 (x.pc + 1) { x with unit := sput (fun _ => 0) k (x.x fb.ra &&& unitMask.getD k 0) x.unit })
      ∧ (fb.rd = 0 → 14 ≤ k → s.Turns q e (.uset q e fb) (encB 0x29 fb) 1 (x.pc + 1) x)
      ∧ (f.ra = 0 → f.rb = 0 → f.imm = 0 → rule168 → s.Turns q e (.agen q e f) (encA 0x2A f) 1 (x.pc + 1) (stepCounters x.order (x.setX f.rd address)))
      ∧ (f.rd = 0 → f.rb = 0 → f.imm = 0 → rule168 → s.Turns q e (.aseek q e f) (encA 0x2B f) 4 (x.pc + 1) (seekCounters x.order ((x.x f.ra).toNat % spans) x))

/-- SCRAM selects the low 32 bits by its set, clears bits 55 to 32 and keeps bits 63 to 56; CMAP places sixteen cells of the tables, in symbol mode and in bit mode (R169, R170, R175 to R178). BGND computes the 32 symbols of a quarter by the background kind, inverted when the immediate asks for it (R171 to R173). In each, a corrected read of the engine's stores counts, and an uncorrectable one ends the item with LOCAL_ECC (R244, R245). -/
def Obligations.EnginePatternUnit : Prop :=
  (∀ (s : State) (q : QId) (e : EngId) (f : FmtB),
     let x := s.engineOf q e
     let a := x.x f.ra
     let n := f.imm.toNat
     let sel := fun (i : Nat) => (bget (0x500 + 32 * (n % 64) + i) x.dstore).toNat
     let cell := fun (v : Nat) => unle (bread 0xD00 8 x.dstore) / 2 ^ (16 * (n % 4) + 4 * v) % 16
     let symbolMode := n / 4 % 2 = 0 ∧ n / 16 = 0
     let bitMode := n / 4 % 2 = 1 ∧ n / 8 % 2 = 0 ∧ n / 64 = 0
     x.pc + 1 < x.progLen →
       ((∀ i < 32, sel i ≤ 0x41) →
         ∃ v, s.Turns q e (.scram q e f) (encB 0x2C f) 1 (x.pc + 1) (x.setX f.rd v) (reads := true)
           ∧ (∀ i < 32, v.getLsbD i = if sel i < 0x40 then a.getLsbD (sel i) else decide (sel i = 0x41))
           ∧ (∀ i, 32 ≤ i → i < 56 → v.getLsbD i = false) ∧ ∀ i, 56 ≤ i → i < 64 → v.getLsbD i = a.getLsbD i)
       ∧ (symbolMode →
         ∃ v, s.Turns q e (.cmap q e f) (encB 0x2E f) 1 (x.pc + 1) (x.setX f.rd v) (reads := true)
           ∧ ∀ j < 16, v.toNat / 16 ^ j % 16 = cell (a.toNat / 2 ^ (32 * (n / 8 % 2) + 2 * j) % 4))
       ∧ (bitMode →
         ∃ v, s.Turns q e (.cmap q e f) (encB 0x2E f) 1 (x.pc + 1) (x.setX f.rd v) (reads := true)
           ∧ (∀ j < 8, v.toNat / 16 ^ j % 16 = cell (a.toNat / 2 ^ (8 * (n / 16 % 4) + j) % 2))
           ∧ ∀ j < 8, v.toNat / 16 ^ (8 + j) % 16 = cell (a.toNat / 2 ^ (56 + j) % 2)))
  ∧ (∀ (s : State) (q : QId) (e : EngId) (f : FmtB),
     let x := s.engineOf q e
     let a := (x.x f.ra).toNat
     let ctrl := x.u 10
     let kind := ctrl % 8
     let period := ctrl / 256 % 256
     let inv := f.imm.getLsbD 2
     let r : Nat := a / 2 ^ 20 % 2 ^ 20
     let c : Nat → Nat := fun i => a % 2 ^ 20 * 2 ^ (ctrl / 2 ^ 16 % 16) + 32 * (f.imm.toNat % 4) + i
     let symA := ctrl / 16 % 4
     let symB := ctrl / 64 % 4
     let isB := fun (i : Nat) =>
       (kind = 1 ∧ (r + c i) % 2 = 1) ∨ (kind = 2 ∧ r % 2 = 1) ∨ (kind = 3 ∧ c i % 2 = 1) ∨ (kind = 4 ∧ ((c i : Int) - r) % period = 0)
       ∨ (kind = 5 ∧ (parity20 (r &&& (x.u 11 % 2 ^ 20)) != parity20 (c i &&& (x.u 11 / 2 ^ 32 % 2 ^ 20))) = true)
     let entry := fun (i : Nat) => let k := 8 * (r % 8) + c i % 8; (if k < 32 then x.u 12 / 2 ^ (2 * k) else x.u 13 / 2 ^ (2 * (k - 32))) % 4
     x.pc + 1 < x.progLen → kind ≠ 7 → (kind = 4 → period ≠ 0) →
       ∃ v, s.Turns q e (.bgnd q e f) (encB 0x2D f) 1 (x.pc + 1) (x.setX f.rd v)
         ∧ ∀ i < 32, (kind = 6 → v.toNat / 4 ^ i % 4 = if inv then 3 - entry i else entry i)
           ∧ (kind ≠ 6 → isB i → v.toNat / 4 ^ i % 4 = if inv then symA else symB)
           ∧ (kind ≠ 6 → ¬isB i → v.toNat / 4 ^ i % 4 = if inv then symB else symA))

/-- TPUT writes its slots from the cursor on, round the buffer, and emits a group each time slot 63 is written, for which it reads the slots back from the data store; TSRUN appends a run (R179 to R182). In each, a corrected read of the engine's stores counts, and an uncorrectable one ends the item with LOCAL_ECC (R244, R245). The model's choices that it rests on: log entry 41. -/
def Obligations.EngineTransposeAndRuns : Prop :=
  ∀ (s : State) (q : QId) (e : EngId) (f : FmtA),
    let x := s.engineOf q e
    let a := x.x f.ra
    let b := x.x f.rb
    let n := f.imm.toNat % 64 + 1
    x.pc + 1 < x.progLen →
      (f.rd = 0 → x.cursor < 64 → x.emitted + x.cursor + n ≤ x.vectors →
        ∃ y : Engine, s.Turns q e (.tput q e f) (encA 0x30 f) ((n + 15) / 16) (x.pc + 1) y (reads := decide (64 ≤ x.cursor + n))
          ∧ y = { x with dstore := y.dstore, cursor := (x.cursor + n) % 64, emitted := x.emitted + 64 * ((x.cursor + n) / 64), groups := y.groups }
          ∧ y.groups.length = x.groups.length + (x.cursor + n) / 64 ∧ y.groups.take x.groups.length = x.groups
          ∧ (∀ k < 64, y.slot k = if (k + 64 - x.cursor) % 64 < n then BitVec.ofNat 128 (a.toNat + 2 ^ 64 * b.toNat) else x.slot k)
          ∧ ∀ i, i < 0x1C00 ∨ 0x2000 ≤ i → bget i y.dstore = bget i x.dstore)
      ∧ (f.rd = 0 → f.imm = 0 → 1 ≤ b.toNat → b.toNat ≤ 4096 → runSum x.runs + b.toNat ≤ x.vectors →
        s.Turns q e (.tsrun q e f) (encA 0x31 f) 1 (x.pc + 1) { x with runs := x.runs ++ [(a.toNat % 64, b.toNat)] })

/-- The built-in instructions: RAWC and CDEC take the words and the timing-set runs of the item's chunk from its source, and an uncorrectable error in the signature-buffer data that they read loses the chunk with cause LOCAL_ECC and makes the signature STALE while the engine goes on; FGET takes the next word of the item's input stream, whose words the manual does not lay down (they are the free values of log entry 164), PUT appends to the item's output (R77, R164, R192 to R195, R743). DONE with all vectors emitted and timed ends the item and hands its chunk to the release stage; TRAP with a program code ends it without output (R183 to R185). In each, a corrected read of the engine's stores counts, and an uncorrectable one ends the item with LOCAL_ECC (R244, R245). The model's choices that it rests on: log entries 42, 44, 164. -/
def Obligations.EngineBuiltinsAndEnds : Prop :=
  (∀ (s : State) (q : QId) (e : EngId) (f : FmtA) (it : Item),
     let x := s.engineOf q e
     let y := s.quire q
     let v := y.itemView it
     let src := v.source it.sig it.inst it.index
     let cost := src.tokens + (src.words.length + 3) / 4 + src.runs.length
     let m := (pinsOf (v.sigMask it.sig)).length
     let taken : Engine := { x with runs := src.runs, words := src.words, emitted := if src.words.length = m * (x.vectors / 64) then x.vectors else 0 }
     let buffered := it.ofSignature = true ∧ v.sigHome it.sig ≠ 0
     let builtin := fun (i : StoreReads → Instr) (word : Word) (reads : Bool) =>
       (∀ d, ¬(buffered ∧ d = .uncorrectable) → s.Turns q e (fun o => i { o with buffer := d }) word cost (x.pc + 1) taken (reads := reads))
       ∧ (buffered → s.EngineAt q e word → x.Affords cost → ∀ n, ∃ t, exec (i { fetch := .good, data := .good, buffer := .uncorrectable, entry := n }) s = .next t ∧ s.Within t q
           ∧ t.engineOf q e = taken.after cost (x.pc + 1) ∧ ((t.quire q).sig it.sig).buf = .stale ∧ (t.quire q).fences = y.fences
           ∧ (t.quire q).slots = (y.slots.map fun sl => if it.kind = .pattern ∧ sl.seq = it.seq then { sl with trapped := some 0x07 } else sl)
           ∧ (t.quire q).derivation = (if it.kind = .pattern then y.derivation else y.derivation.map fun d => { d with todo := [], failed := some (d.failed.getD it.sig) })
           ∧ ∃ r, t.collector.reports = s.collector.reports ++ [r] ∧ r.severity = .alert ∧ r.checker = 0x17 ∧ r.quire = some q ∧ r.element = 0x80 ∧ r.detail = BitVec.ofNat 24 n)
       ∧ (∀ o, .uncorrectable ∈ storesGive reads o → s.EngineAt q e word → ∃ t, exec (i o) s = .next t ∧ s.LosesStores q e t)
     x.pc + 1 < x.progLen → x.item = some it → x.algo = false →
       (f.rd = 0 → f.ra = 0 → f.rb = 0 → f.imm = 0 → injecting 0x17 0x80 y.injections = false → builtin (.rawc q e f) (encA 0x32 f) false ∧ builtin (.cdec q e f) (encA 0x33 f) true)
       ∧ (f.rd = 0 → f.rb = 0 → f.imm = 0 → s.Turns q e (.put q e f) (encA 0x3A f) 1 (x.pc + 1) { x with output := x.output ++ [x.x f.ra] })
       ∧ (f.ra = 0 → f.rb = 0 → f.imm = 0 →
         s.Turns q e (.fget q e f) (encA 0x38 f) 2 (x.pc + 1) (({ x with taken := x.taken + 1 } : Engine).setX f.rd (Config.inputWord q.val it.seq x.taken))))
  ∧ (∀ (s : State) (q : QId) (e : EngId) (f : FmtA) (fb : FmtB) (it : Item) (o : StoreReads),
     let x := s.engineOf q e
     let code := BitVec.ofNat 8 fb.imm.toNat
     x.item = some it → it.kind = .pattern → x.Affords 1 →
       (f.rd = 0 → f.ra = 0 → f.rb = 0 → f.imm = 0 → x.background = false → x.emitted = x.vectors → runSum x.runs = x.vectors → s.EngineAt q e (encA 0x3E f) →
         (o.fetch ≠ .uncorrectable → ∃ (t : State) (c : Chunk), exec (.done q e f o) s = .next t ∧ s.Within t q ∧ (t.engineOf q e).item = none
           ∧ c.kind = .data ∧ c.sig = it.sig ∧ c.inst = it.inst ∧ c.index = it.index ∧ c.vectors = it.vectors ∧ c.seq = it.seq ∧ c.engine = e.val ∧ c.sets = expandRuns x.runs ∧ c.crc = c.check
           ∧ (t.quire q).slots = (s.quire q).slots.map fun sl =>
               if sl.seq ≠ it.seq then sl
               else if it.copy then { sl with copyEnded := true, copyCrc := some c.crc } else { sl with primaryEnded := true, primary := some c })
         ∧ (o.fetch = .uncorrectable → ∃ t, exec (.done q e f o) s = .next t ∧ s.LosesStores q e t))
       ∧ (fb.rd = 0 → fb.ra = 0 → 0x80 ≤ code.toNat →
         s.Traps q e (.trap q e fb) (encB 0x3F fb) code
           ∧ (s.EngineAt q e (encB 0x3F fb) → ∃ t, exec (.trap q e fb o) s = .next t ∧ ∀ sl ∈ (t.quire q).slots, sl.seq = it.seq → sl.trapped.isSome = true)))

/-- What makes an instruction trap, and with which code: reserved fields, operations beyond the bound, targets and addresses outside, the pattern unit, and counts (R163, R168, R169, R174, R181 to R184); an uncorrectable read of the engine's stores ends the item with LOCAL_ECC instead, also where the instruction that reads then traps (R244). The model's choices that it rests on: log entries 38, 42, 43. -/
def Obligations.EngineTrapConditions : Prop :=
  ∀ (s : State) (q : QId) (e : EngId) (f : FmtA) (fb : FmtB) (fc : FmtC),
    let x := s.engineOf q e
    let a := (x.x fb.ra + fb.imm.signExtend 64).toNat
    let n := f.imm.toNat % 64 + 1
    (∃ it, x.item = some it ∧ it.kind = .pattern) →
      (f.imm ≠ 0 → s.Traps q e (.add q e f) (encA 0x01 f) 0x01 ∧ s.Traps q e (.mul q e f) (encA 0x08 f) 0x01 ∧ s.Traps q e (.popc q e f) (encA 0x09 f) 0x01
        ∧ s.Traps q e (.jr q e f) (encA 0x26 f) 0x01 ∧ s.Traps q e (.agen q e f) (encA 0x2A f) 0x01 ∧ s.Traps q e (.done q e f) (encA 0x3E f) 0x01)
      ∧ (f.rd ≠ 0 → s.Traps q e (.tput q e f) (encA 0x30 f) 0x01 ∧ s.Traps q e (.tsrun q e f) (encA 0x31 f) 0x01 ∧ s.Traps q e (.jr q e f) (encA 0x26 f) 0x01)
      ∧ (fb.ra ≠ 0 → s.Traps q e (.lui q e fb) (encB 0x16 fb) 0x01 ∧ s.Traps q e (.jal q e fb) (encB 0x25 fb) 0x01)
      ∧ (fc.rb ≠ 0 → s.Traps q e (.loop q e fc) (encC 0x24 fc) 0x01)
      ∧ (x.algo = true → s.Traps q e (.rawc q e f) (encA 0x32 f) 0x01 ∧ s.Traps q e (.put q e f) (encA 0x3A f) 0x01)
      ∧ (x.algo = true → x.opsBound < x.opsUsed + 1 → f.imm = 0 → s.Traps q e (.add q e f) (encA 0x01 f) 0x06 ∧ s.Traps q e (.addi q e fb) (encB 0x10 fb) 0x06)
      ∧ (x.Affords 1 → x.progLen ≤ x.pc + 1 → s.Traps q e (.addi q e fb) (encB 0x10 fb) 0x02)
      ∧ (x.Affords 1 → f.rd = 0 → f.rb = 0 → f.imm = 0 → x.progLen ≤ (x.x f.ra).toNat % 2048 → s.Traps q e (.jr q e f) (encA 0x26 f) 0x02)
      ∧ (x.Affords 2 → a % 8 ≠ 0 ∨ (0x20 ≤ a ∧ a < 0x100) ∨ 0x2000 ≤ a → s.Traps q e (.ld q e fb) (encB 0x18 fb) 0x03)
      ∧ (x.Affords 1 → a % 4 ≠ 0 ∨ a < 0xE00 ∨ 0x1C00 ≤ a → s.Traps q e (.stw q e fb) (encB 0x1B fb) 0x03)
      ∧ (x.Affords 1 → f.ra = 0 → f.rb = 0 → f.imm = 0 → (∃ c < 3, x.limit c < x.start c) ∨ (∃ c < 3, c ∉ x.order) → s.Traps q e (.agen q e f) (encA 0x2A f) 0x04)
      ∧ (x.Affords 1 → x.u 10 % 8 = 7 ∨ (x.u 10 % 8 = 4 ∧ x.u 10 / 256 % 256 = 0) → s.Traps q e (.bgnd q e fb) (encB 0x2D fb) 0x04)
      ∧ (x.Affords ((n + 15) / 16) → f.rd = 0 → x.vectors < x.emitted + x.cursor + n → s.Traps q e (.tput q e f) (encA 0x30 f) 0x05)
      ∧ (x.Affords 1 → f.rd = 0 → f.imm = 0 → (x.x f.rb).toNat = 0 ∨ 4096 < (x.x f.rb).toNat → s.Traps q e (.tsrun q e f) (encA 0x31 f) 0x05)
      ∧ (x.Affords 1 → (∃ i < 32, 0x41 < (bget (0x500 + 32 * (fb.imm.toNat % 64) + i) x.dstore).toNat) → s.Traps q e (.scram q e fb) (encB 0x2C fb) 0x04 (reads := true))
      ∧ (x.Affords 2 → x.progLen ≤ x.pc + 1 → a % 8 = 0 → a + 8 ≤ 0x20 → s.Traps q e (.ld q e fb) (encB 0x18 fb) 0x02 (reads := true))

/-! ### The sequencer -/

/-- PLAY, MATCH_JUMP, LOOP_BEGIN, LOOP_END, CALL, RETURN and JUMP: the entry that the sequencer resolves next moves it as the binding table says, and nothing but the path and buffers freed late changes; a jump closes every frame of its routine level whose body it leaves (R94 to R98, R106). -/
def Obligations.SequencerFollowsTheTable : Prop :=
  ∀ (s : State) (q : QId),
    let x := s.quire q
    let e := x.seq.pc
    let op := fld (x.cfg 0x02 (32 * e)) 28 4
    let sig := fld (x.cfg 0x02 (32 * e)) 16 10
    let target := fld (x.cfg 0x02 (32 * e)) 8 8
    let arg := (x.cfg 0x02 (32 * e + 4)).toNat
    let goes := fun (i : Instr) (u : Sequencer) => ∃ y, exec i s = .next (s.setQuire q y) ∧ x.Goes y u
    let onPath := fun (count : Nat) (b : Block) =>
      b.entry = e ∧ b.op = op ∧ b.sig = sig ∧ b.count = count ∧ b.begun = 0 ∧ b.ended = 0 ∧ b.created = 0 ∧ b.requested = 0 ∧ b.fromHead = false
        ∧ b.loops = x.seq.loops ∧ b.calls = x.seq.calls
    x.state.inRun = true →
      (op = 1 → ∃ b, onPath arg b ∧ goes (.play q) { x.seq with plan := x.seq.plan ++ [b], pc := e + 1 })
      ∧ (op = 7 → ∃ b, onPath 1 b ∧ goes (.matchJump q) { x.seq with plan := x.seq.plan ++ [b], pc := e + 1 })
      ∧ (op = 2 → goes (.loopBegin q) { x.seq with pc := e + 1, loops := { entry := e, left := arg, depth := x.seq.calls.length } :: x.seq.loops })
      ∧ (∀ f rest, op = 3 → x.seq.loops = f :: rest → 1 < f.left → goes (.loopEnd q) { x.seq with pc := target + 1, loops := { f with left := f.left - 1 } :: rest })
      ∧ (∀ f rest, op = 3 → x.seq.loops = f :: rest → f.left ≤ 1 → goes (.loopEnd q) { x.seq with pc := e + 1, loops := rest })
      ∧ (op = 4 → goes (.call q) { x.seq with pc := target, calls := (e + 1) :: x.seq.calls })
      ∧ (∀ r rest, op = 5 → x.seq.calls = r :: rest → goes (.ret q) { x.seq with pc := r, calls := rest })
      ∧ (op = 6 → goes (.jump q) { x.seq with
          pc := target, entry := if x.idles then e else x.seq.entry
          loops := x.seq.loops.filter fun f => decide (f.depth ≠ x.seq.calls.length) || x.inBody f.entry target })

/-- WAIT_TIME and WAIT_TRIG hold the pins, and their three ends let them go on: a time that has passed does not hold them, the pins go on at the first hold-vector boundary at or after the time, at least 2 ns after the trigger reached the timing front, or after the time-out, and a time-out goes to its target (R98, R125 to R131). The model's choices that it rests on: log entries 37, 79, 167. -/
def Obligations.SequencerWaits : Prop :=
  ∀ (s : State) (q : QId) (b : Block) (rest : List Block),
    let x := s.quire q
    let e := b.entry
    let time := timeOf s.modeOz (x.cfg 0x02 (32 * e + 16)) (x.cfg 0x02 (32 * e + 20)) (x.cfg 0x02 (32 * e + 24))
    let target := fld (x.cfg 0x02 (32 * e)) 8 8
    let held := fun (k : Nat) (m : List Marker) =>
      ({ x with
          elapsed := x.elapsed + k * max 1 x.holdPeriod, vecCount := x.vecCount + k, markers := m, seq := { x.seq with plan := rest, wait := none }
          recent := if k = 0 then x.recent else x.holdStretch k :: x.recent } : Quire)
    let firstAt := fun (k at_ : Nat) => at_ ≤ x.position + k * max 1 x.holdPeriod ∧ (0 < k → x.position + (k - 1) * max 1 x.holdPeriod < at_)
    let goesOn := fun (i : Instr) (at_ : Nat) (f : Quire → Quire) =>
      ∃ k m t, firstAt k at_ ∧ exec i s = .next t ∧ s.Within t q ∧ (f (held k m)).Counts (t.quire q)
        ∧ ((∀ n < 2, (x.marker n).awaits = []) → t = s.setQuire q (f (held k x.markers)))
    x.seq.plan = b :: rest → x.state = .running →
      (b.op = 8 → x.playing = none → x.seq.wait = none → s.time.ns ≤ time →
        exec (.waitTime q) s = .next (s.setQuire q { x with seq := { x.seq with entry := e, wait := some (.time time) } }))
      ∧ (b.op = 8 → x.playing = none → x.seq.wait = none → time < s.time.ns →
        s.Makes (.waitTime q) q { x with seq := { x.seq with entry := e, plan := rest, wait := none } } (s.CountsOne q (rk 0x01 0x218)))
      ∧ (∀ t, x.seq.wait = some (.time t) → s.timingRuns = true → t ≤ s.time.ns → goesOn (.waitTimeExpiry q) (s.ctx.instantOf t) id)
      ∧ (b.op = 9 → x.playing = none → x.seq.wait = none →
        let waits := ({ x with seq := { x.seq with entry := e, wait := some (.trig x.position none) } } : Quire)
        (x.bindTimeout e = 0 → exec (.waitTrig q) s = .next (s.setQuire q waits))
        ∧ (x.bindTimeout e ≠ 0 → ∃ asked ask bad,
            let loaded := ({ waits with seq := { waits.seq with
              landing := if x.bindOp target = 1 ∨ x.bindOp target = 7 then some (x.bindSig target) else none, landingBad := bad } } : Quire).freeDeferred
            exec (.waitTrig q) s = .next (s.setQuire q { loaded with dram := { x.dram with queue := x.dram.queue ++ asked }, seq := { loaded.seq with landingAsk := ask } })
              ∧ (∀ r ∈ asked, r.port = .fetch ∧ r.write = false) ∧ (∀ z ∈ bad, z ∈ x.seq.landingBad)
              ∧ (x.seq.landingAsk = [] → x.sigHome (x.bindSig target) ≠ 0 ∨ ¬(x.bindOp target = 1 ∨ x.bindOp target = 7) → asked = [] ∧ ask = [])))
      ∧ (∀ since t, x.seq.wait = some (.trig since (some t)) → goesOn (.waitTrigger q) (t + 8000) Quire.dropLanding)
      ∧ (∀ since, x.seq.wait = some (.trig since none) → x.bindTimeout e ≠ 0 → b.begun ≤ b.ended → s.heldPackets = [] →
        ∃ t y, exec (.waitTimeout q) s = .next t ∧ t.quire q = y ∧ s.Within t q ∧ y.seq.wait = none ∧ y.seq.calls = b.calls ∧ y.fifo = []
          ∧ (∃ k, firstAt k (since + 4000 * x.bindTimeout e + 1) ∧ y.elapsed = x.elapsed + k * max 1 x.holdPeriod)
          ∧ y.seq.loops = b.loops.filter (fun f => decide (f.depth ≠ b.calls.length) || x.inBody f.entry target)
          ∧ (x.bindOp target = 1 ∨ x.bindOp target = 7 → ∃ c waits, y.seq.plan = c :: waits ∧ c.entry = target ∧ c.fromHead = true ∧ ∀ w ∈ waits, w.isWait = true))

/-- MATCH_RESULT resolves the condition as R118 to R120 say, the result of another instance's compare leaves it as it is, and a resolved jump is fixed at the DECISION_POINT (R98, R115, R121); one still open there becomes late (R122). The model's choices that it rests on: log entries 80, 81. -/
def Obligations.MatchConditions : Prop :=
  ∀ (s : State) (q : QId) (c : MatchCond) (failed : Bool),
    let x := s.quire q
    let result : MatchCompare := { inst := c.id, failed := failed }
    let anyFail := c.failed || failed
    let open_ := { c with outstanding := c.outstanding - 1, failed := anyFail }
    let noJump := ({ x with lastMatch := some (false, c.entry), seq := { x.seq with cond := none } } : Quire).dropLanding
    let jump := ({ x with lastMatch := some (true, c.entry), seq := { x.seq with cond := some { open_ with resolved := some true } } } : Quire)
    x.seq.cond = some c →
      (c.resolved = none → 0 < c.outstanding →
        (anyFail = true ∨ (c.outstanding = 1 ∧ (c.lastIssued = true ∨ x.sigMask (x.bindSig c.entry) &&& x.bindMatch c.entry = 0)) →
          let y := if (if anyFail then c.condFail else !c.condFail) then jump else noJump
          (c.late = false → exec (.matchResult q result) s = .next (s.setQuire q y))
          ∧ (c.late = true → s.Makes (.matchResult q result) q y (s.CountsOne q (rk 0x01 0x214))))
        ∧ (anyFail = false → 1 < c.outstanding → exec (.matchResult q result) s = .next (s.setQuire q { x with seq := { x.seq with cond := some open_ } })))
      ∧ (∀ r : MatchCompare, r.inst ≠ c.id → exec (.matchResult q r) s = .next (s.setQuire q x))
      ∧ (∀ (p : Play) (b : Block) (rest : List Block), x.playing = some p → x.seq.plan = b :: rest → b.ended < b.begun → s.heldPackets = [] →
        (c.resolved = some true →
          ∃ t y, exec (.decisionPoint q) s = .next t ∧ t.quire q = y ∧ s.Within t q ∧ y.seq.cond = none ∧ y.seq.calls = c.calls ∧ y.playing = some p
            ∧ y.seq.loops = c.loops.filter (fun f => decide (f.depth ≠ c.calls.length) || x.inBody f.entry c.target)
            ∧ (x.bindOp c.target = 1 ∨ x.bindOp c.target = 7 →
              ∃ b' n waits, y.seq.plan = b' :: n :: waits ∧ b'.entry = b.entry ∧ b'.count = b.begun ∧ n.entry = c.target ∧ n.fromHead = true ∧ ∀ w ∈ waits, w.isWait = true))
        ∧ (c.resolved = none → x.matchVerdict c = none → p.entry = c.entry → c.late = false →
          exec (.decisionPoint q) s = .next (s.setQuire q { x with seq := { x.seq with cond := some { c with late := true } } })))

/-! ### Chunks -/

/-- PREFETCH_REQUEST asks for the next play on the path, CHUNK_CREATE makes the next chunk's item and slot, whose data it asks for, or is held, counting once, while there is no room, and OPERAND_ARRIVAL makes an item ready once its data is there (R107, R199, R206, R207, R222 to R224, R475). The model's choices that it rests on: log entries 92, 93, 117. -/
def Obligations.ChunkCreation : Prop :=
  ∀ (s : State) (q : QId) (pre post : List Block) (b : Block),
    let x := s.quire q
    let i := b.nextChunk
    let room := x.slots.length < 16 ∧ x.store.length < 512
    let isLast := x.sigChunks b.sig ≤ i + 1
    (x.state.inRun = true → x.seq.plan = pre ++ b :: post → (∀ c ∈ pre, c.count ≤ c.requested) → b.requested < b.count →
      exec (.prefetchRequest q) s = .next (s.setQuire q { x with seq := { x.seq with plan := pre ++ { b with requested := b.requested + 1 } :: post } }))
    ∧ (x.state.inRun = true → x.seq.landingAsk = [] → x.seq.plan = pre ++ b :: post → (∀ c ∈ pre, c.count ≤ c.created) → b.created < b.count → b.created < b.requested → x.dataKnown b = true →
        (room → (x.sigHome b.sig = 0 → x.dram.full .fetch = false) → ∃ (y : Quire) (sl : Slot) (it : Item) (b' : Block), exec (.chunkCreate q) s = .next (s.setQuire q y)
          ∧ y.slots = x.slots ++ [sl] ∧ y.nextSeq = x.nextSeq + 1 ∧ y.held = false
          ∧ sl.seq = x.nextSeq ∧ sl.sig = b.sig ∧ sl.index = i ∧ sl.inst = it.inst ∧ sl.primaryEnded = false ∧ sl.primary = none
          ∧ (sl.poisoned = true ↔ b.fetchedAhead i = true ∧ (b.sig, i) ∈ x.seq.landingBad)
          ∧ it.kind = .pattern ∧ it.sig = b.sig ∧ it.index = i ∧ it.seq = x.nextSeq ∧ it.vectors = 64 * min 64 (x.sigGroups b.sig - 64 * i) ∧ (it.last = true ↔ isLast)
          ∧ it.inst = (if b.created < b.alloc then b.firstInst.getD 0 else b.firstInst.getD (x.sig b.sig).nextInst) + BitVec.ofNat 32 b.created
          ∧ (x.sigHome b.sig = 1 → y.store = x.store ∧ y.ready = x.ready ++ it :: (if it.shadowed then [{ it with copy := true }] else []))
          ∧ (x.sigHome b.sig ≠ 1 → y.ready = x.ready ∧ y.store = x.store ++ [it])
          ∧ (x.sigHome b.sig = 0 → b.fetchedAhead i = false → ∀ l ∈ linesOf (x.chunkReads b.sig i), ∃ r ∈ y.dram.queue, r.port = .fetch ∧ r.line = l ∧ r.write = false ∧ r.seq = x.nextSeq)
          ∧ y.seq.plan = pre ++ b' :: post ∧ b'.count = b.count ∧ (isLast → b'.created = b.created + 1 ∧ b'.nextChunk = 0) ∧ (¬isLast → b'.created = b.created ∧ b'.nextChunk = i + 1))
        ∧ (room → x.sigHome b.sig = 0 → x.dram.full .fetch = true → exec (.chunkCreate q) s = .next (s.setQuire q x))
        ∧ (¬room → x.held = false → s.Makes (.chunkCreate q) q { x with held := true } (s.CountsOne q (rk 0x10 0x12C)))
        ∧ (¬room → x.held = true → exec (.chunkCreate q) s = .next (s.setQuire q x)))
    ∧ (∀ (before after : List Item) (it : Item), x.store = before ++ it :: after → (∀ z ∈ before ++ after, z.seq ≠ it.seq) → it.kind = .pattern →
        let arrived := (x.sigHome it.sig = 0 → ∀ r ∈ x.dram.queue ++ x.dram.issued, r.write = false → r.seq ≠ it.seq)
          ∧ (x.sigHome it.sig = 2 → ∀ k, k = it.index ∨ (k = 0xFFFFFFFF ∧ x.sigKind it.sig = 1) → ∃ c ∈ x.stream ++ x.streamHeads, c.sig = it.sig ∧ c.inst = it.inst ∧ c.index = k)
        (arrived → ∃ input, exec (.operandArrival q it.seq) s = .next (s.setQuire q { x with
            store := before ++ after
            ready := x.ready ++ { it with waits := false, input := input } :: (if it.shadowed then [{ it with waits := false, input := input, copy := true }] else []) }))
        ∧ (¬arrived → exec (.operandArrival q it.seq) s = .next (s.setQuire q x)))

/-- DISPATCH_STEP places a ready pattern item on the idle unfenced engine that holds its context, and for a streamed CODEC signature its instance's dictionary, and was used last, and AFFINITY_WAIT_EXPIRY on the idle engine used longest ago with the context loaded anew; either is counted (R155, R157, R209 to R212). The model's choices that it rests on: log entry 95. -/
def Obligations.ItemPlacement : Prop :=
  ∀ (s : State) (q : QId) (e : EngId) (it : Item) (o : LineOutcome) (l : Nat),
    let x := s.quire q
    let idle := fun (g : EngId) => (x.engine g.val).item = none ∧ x.fenced g.val = false
    let holds := fun (g : EngId) => (x.engine g.val).context = some it.sig ∧ (x.sigHome it.sig = 2 → x.sigKind it.sig = 1 → (x.engine g.val).dictInst = some it.inst)
    let placed := fun (it : Item) (g : Engine) => { x.setEngine e.val { x.beginItem it g with lastUse := x.useClock + 1 } with
      useClock := x.useClock + 1, ready := [], slots := x.slots.map fun sl => if sl.seq = it.seq then { sl with engine := e.val } else sl }
    x.state ≠ .off → x.ready = [it] → it.kind = .pattern → it.cls = 1 → it.copy = false → it.shadowed = false → it.avoid = none → idle e →
      (x.store = [] → x.derivation = none → x.failQueue = [] → x.raEn = false → holds e → (∀ g, g ≠ e → idle g → holds g → (x.engine g.val).lastUse < (x.engine e.val).lastUse) →
        s.Makes (.dispatchStep { quire := q, buffer := o, line := l }) q { placed it (x.engine e.val) with heldBg := false } (s.CountsOne q (rk 0x10 0x120)))
      ∧ ((∀ g, idle g → ¬holds g) → (∀ g, g ≠ e → idle g → (x.engine e.val).lastUse < (x.engine g.val).lastUse) → injecting 0x17 0x80 x.injections = false →
        s.Makes (.affinityWaitExpiry q it.seq) q (placed { it with anyEngine := true } (x.loadContext it.sig it.inst (x.engine e.val))) (s.CountsOne q (rk 0x10 0x128)))

/-- CHUNK_RELEASE passes the chunk at the release pointer to the event FIFOs when its checks agree, delivers a VOID_FAILED marker with its cause when its checksum does not, its item trapped or its data was poisoned, and passes over a cancelled or late one (R137, R199, R201, R225 to R228, R497). The model's choices that it rests on: log entry 97. -/
def Obligations.ChunkRelease : Prop :=
  ∀ (s : State) (q : QId) (sl : Slot) (rest : List Slot),
    let x := s.quire q
    s.heldPackets = [] → x.slots = sl :: rest → x.fifo.length < 8 → x.sigHome sl.sig ≠ 2 → sl.shadowed = false → injecting 0x15 sl.engine x.injections = false →
      (sl.cancelled = true ∨ (sl.primaryEnded = true ∧ sl.late = true ∧ x.entryPending sl.seq = false) → exec (.chunkRelease q) s = .next (s.setQuire q { x with slots := rest, releasePtr := sl.seq + 1 }))
      ∧ (∀ c, sl.primary = some c → sl.cancelled = false → sl.primaryEnded = true → sl.late = false → sl.trapped = none → sl.poisoned = false → x.entryPending sl.seq = false → c.sig = sl.sig →
          let table := x.hasTable c.sig
          let good := c.check = c.crc ∧ (table = true → x.tableWord c.sig c.index = c.crc)
          (good → exec (.chunkRelease q) s = .next (s.setQuire q { x with slots := rest, releasePtr := sl.seq + 1, fifo := x.fifo ++ [{ c with edges := x.edgeTable c }] }))
          ∧ (¬good → ∃ v : Chunk, v.kind = .voidFailed ∧ v.voidCause = 0x05 ∧ v.sig = sl.sig ∧ v.inst = sl.inst ∧ v.index = sl.index ∧ v.words = []
              ∧ s.Makes (.chunkRelease q) q { x with slots := rest, releasePtr := sl.seq + 1, fifo := x.fifo ++ [v] } fun t =>
                  s.CountsOne q (rk 0x10 0x11C) t ∧ s.CountsOne q (rk 0x10 0x10C) t ∧ t.collector.reports.length = s.collector.reports.length + 1))
      ∧ (sl.primaryEnded = true → sl.cancelled = false → sl.late = false → sl.poisoned = true → x.entryPending sl.seq = false →
          ∃ v : Chunk, v.kind = .voidFailed ∧ v.poisoned = true ∧ v.sig = sl.sig ∧ v.inst = sl.inst ∧ v.index = sl.index ∧ v.words = []
            ∧ s.Makes (.chunkRelease q) q { x with slots := rest, releasePtr := sl.seq + 1, fifo := x.fifo ++ [v] } (s.CountsOne q (rk 0x11 0x20C)))
      ∧ (∀ code, sl.trapped = some code → sl.primaryEnded = true → sl.cancelled = false → sl.late = false → sl.poisoned = false → x.entryPending sl.seq = false →
          ∃ v : Chunk, v.kind = .voidFailed ∧ v.voidCause = (if code = trapEcc then 0x03 else 0x02) ∧ v.sig = sl.sig ∧ v.index = sl.index
            ∧ s.Makes (.chunkRelease q) q { x with slots := rest, releasePtr := sl.seq + 1, fifo := x.fifo ++ [v] } (s.CountsOne q (rk 0x10 0x10C)))

/-- CHUNK_DUE plays the chunk that stands at the pins' timing fronts, pauses the quire at a stall-safe place whose chunk is absent, and elsewhere skips the chunk whole, its instance taking the cause UNDERRUN (R36, R132 to R138, R267, R273). The model's choices that it rests on: log entries 36, 98. -/
def Obligations.ChunkAtThePins : Prop :=
  ∀ (s : State) (q : QId) (p : Play) (b : Block) (rest : List Block) (o : LineOutcome) (l : Nat),
    let x := s.quire q
    let due : Instr := .chunkDue { quire := q, buffer := o, line := l }
    let safe := bit (x.cfg 0x02 (32 * b.entry)) 27
    let i := p.index + 1
    s.timingRuns = true → x.state = .running → x.stopReq = none → x.seq.wait = none → x.seq.plan = b :: rest → b.op = 1 → x.playing = some p → p.isLast = false →
      (∀ c more, x.fifo = c :: more → c.kind = .data → c.sig = b.sig → c.index = i → b.begun - 1 < b.alloc → c.inst = b.inst (b.begun - 1) → (safe && x.pausePending) = false →
        ∃ t y p', exec due s = .next t ∧ t.quire q = y ∧ s.Within t q ∧ y.state = .running ∧ y.fifo = more ∧ y.playing = some p' ∧ y.seq.plan = x.seq.plan
          ∧ p'.chunk = some c ∧ p'.index = i ∧ p'.firstVec = x.vecCount ∧ p'.startsAt = x.elapsed ∧ y.vecCount = x.vecCount + c.vectors
          ∧ y.elapsed = x.elapsed + x.spanOf x.holdPeriod c.sets c.vectors ∧ y.pins = (x.drives c x.holdPeriod).pins ∧ y.spilled = (x.drives c x.holdPeriod).spilled)
      ∧ (x.fifo = [] → safe = true →
        ∃ t y, exec due s = .next t ∧ t.quire q = y ∧ s.Within t q ∧ y.state = .paused ∧ y.hostPaused = x.pausePending ∧ y.playing = x.playing
          ∧ y.pins = (x.takeProfile (fld (x.cfg 0x02 (32 * b.entry)) 0 4)).pins ∧ s.CountsOne q (rk 0x01 0x210) t)
      ∧ (x.fifo = [] → safe = false → ∀ ins, x.insts.filter (fun z => z.hold.isNone) = [ins] →
        ∃ t y p' n, exec due s = .next t ∧ t.quire q = y ∧ s.Within t q ∧ n = 64 * min 64 (x.sigGroups b.sig - 64 * i) ∧ y.state = .running ∧ y.playing = some p'
          ∧ p'.chunk = none ∧ p'.vectors = n ∧ y.vecCount = x.vecCount + n ∧ y.elapsed = x.elapsed + n * x.holdPeriod ∧ y.pins = (x.firePins (x.elapsed + n * x.holdPeriod : Nat)).pins ∧ (y.sig b.sig).underrun = true
          ∧ (∀ z ∈ y.insts, z.id = ins.id → z.causes.getLsbD 2 = true)
          ∧ (x.skipping = false → s.CountsOne q (rk 0x01 0x204) t))

/-- INSTANCE_END enters a PENDING record into the verdict store and begins the hold, or counts the record that has no room; when the hold expires with no report on its way the instance resolves by its causes, and its record with it (R399, R400, R404, R406, R746, R748). The model's choices that it rests on: log entry 19. -/
def Obligations.InstanceVerdicts : Prop :=
  ∀ (s : State) (q : QId) (i : Inst),
    let x := s.quire q
    let holdUs := fld (s.reg (rk 6 0)) 0 10
    let verdict : Verdict := if i.causes &&& 0x7FFC ≠ 0 ∨ (i.causes.getLsbD 1 = true ∧ i.causes.getLsbD 0 = false) then .invalid else if i.causes.getLsbD 0 = true then .fail else .pass
    let keepFails := bit (x.cfg 0x0C 0) 4
    s.timeBad = false →
      (∀ (p : Play) (b : Block) (rest : List Block), x.state = .running → x.playing = some p → p.isLast = true → x.seq.plan = b :: rest → x.sweep = none → x.seq.cond = none →
          i.id = p.instId → i.hold = none → i ∈ x.insts → (∀ j ∈ x.insts, j.id = i.id → j = i) →
          let held := fun (r : Option (BitVec 16)) => { i with hold := some holdUs, endedAt := s.time.ticks, recSeq := r }
          let after := fun (y : Quire) (r : Option (BitVec 16)) => y.playing = none ∧ y.insts = (x.insts.map fun j => if j.id = i.id then held r else j)
            ∧ y.seq.plan = if b.count ≤ b.ended + 1 then rest else { b with ended := b.ended + 1 } :: rest
          (x.verdicts.length < 4096 → ∃ y, exec (.instanceEnd q) s = .next (s.setQuire q y) ∧ after y (some x.nextRec) ∧ y.nextRec = x.nextRec + 1
            ∧ y.verdicts = x.verdicts ++ [{ id := i.id, verdict := .pending, entry := i.entry, sig := i.sig, inst := i.inst, fails := i.fails, recSeq := x.nextRec, causes := i.causes }])
          ∧ (4096 ≤ x.verdicts.length → ∃ t, exec (.instanceEnd q) s = .next t ∧ s.Within t q ∧ after (t.quire q) none ∧ (t.quire q).verdicts = x.verdicts
            ∧ s.CountsOne q (rk 0x0C 0x224) t))
      ∧ (i.hold.isSome = true → x.insts.find? (fun j => j.id = i.id && j.hold.isSome) = some i → s.collector.reports = [] →
          ∃ t y, exec (.verdictHoldExpiry q i.id) s = .next t ∧ t.quire q = y ∧ s.Within t q ∧ y.insts = x.insts.filter (fun j => j.id ≠ i.id)
            ∧ y.run.anyFail = (x.run.anyFail || verdict = .fail) ∧ y.run.anyInvalid = (x.run.anyInvalid || verdict = .invalid) ∧ y.run.causes = x.run.causes ||| i.causes
            ∧ s.CountsOne q (match verdict with | .pass => rk 0x0C 0x228 | .fail => rk 0x0C 0x22C | _ => rk 0x0C 0x230) t
            ∧ (∀ z ∈ x.verdicts, z.id = i.id → ¬(keepFails = true ∧ verdict = .pass) →
                { z with verdict := verdict, fails := i.fails, causes := i.causes } ∈ y.verdicts)
            ∧ (keepFails = true → verdict = .pass → ∀ z ∈ y.verdicts, z.id ≠ i.id)
            ∧ (∀ z ∈ x.verdicts, z.id ≠ i.id → z ∈ y.verdicts))

/-- END, with every vector before it played, ends the run: STOPPED by END, the outputs in the entry's park profile, at once or one period later in a run that has played a cycle-mode set, and the run verdict given once every instance is resolved (R51, R94, R99, R100, R111, R275, R401). The model's choices that it rests on: log entries 58, 65. -/
def Obligations.EndOfBindingRun : Prop :=
  ∀ (s : State) (q : QId),
    let x := s.quire q
    let e := x.seq.pc
    let timeout := x.run.matchTimeout || bit (x.cfg 0x02 (32 * e + 4)) 0
    let verdict : Verdict :=
      if x.run.clockOrFault = true ∨ x.run.anyInvalid = true ∨ (x.run.cutShort = true ∧ x.run.anyFail = false) then .invalid
      else if x.run.anyFail = true ∨ timeout = true ∨ x.run.noEye = true then .fail else .pass
    let parked := x.takeProfile (fld (x.cfg 0x02 (32 * e)) 4 4)
    let parksAt := if x.seq.ozPlayed then x.position + x.holdPeriod else 0
    x.state = .running → x.seq.plan = [] → x.playing = none → fld (x.cfg 0x02 (32 * e)) 28 4 = 0 → (∀ d, x.occupied ≠ some (.rebind d)) → x.stopReq = none → x.stopWaiters = [] →
      ∃ t y, exec (.endRun q) s = .next t ∧ t.quire q = y ∧ s.Within t q ∧ y.state = .stopped ∧ y.stopCause = .endOfRun ∧ y.seq.entry = e ∧ y.seq.loops = [] ∧ y.seq.calls = []
        ∧ y.run.ended = true ∧ y.run.matchTimeout = timeout ∧ y.reserved = false ∧ y.fifo = [] ∧ y.slots = []
        ∧ (x.spilled = [] → parksAt ≤ s.time.ticks * 4000 → y.pins = parked.pins ∧ y.termOn = parked.termOn ∧ y.parkDue = none)
        ∧ (x.spilled = [] → s.time.ticks * 4000 < parksAt → y.pins = x.pins ∧ y.termOn = x.termOn ∧ y.parkDue = some (fld (x.cfg 0x02 (32 * e)) 4 4, parksAt))
        ∧ (x.insts = [] → x.run.active = true → x.run.verdict = .pending → y.run.verdict = verdict)
        ∧ (x.insts ≠ [] → y.run.verdict = x.run.verdict)

/-! ### Sessions and configuration -/

/-- HELLO identifies the chip, its link and the owners; OPEN_SESSION with `SESSION` 0 opens a session under a new handle and grants what is free of what it asks for (R592 to R597). The model's choices that it rests on: log entry 32. -/
def Obligations.SessionsOpen : Prop :=
  ∀ (s : State) (h : Hdr) (p : Params),
    let k := h.link
    let x := s.session k
    let ownerByte := fun (q : QId) => match (s.quire q).owner with | some l => BitVec.ofNat 8 l.val | none => (0xFF : Byte)
    let asks := (p.getD 0 0).getLsbD 0
    let exact := (p.getD 0 0).getLsbD 1
    let free := fun (q : QId) => (s.quire q).owner = none ∨ (s.quire q).owner = some k
    let granted := fun (q : QId) => h.qmask.getLsbD q.val = true ∧ free q
    let stewardFree := ∀ l, l ≠ k → s.isSteward l = false
    let gen := if x.generation = 8191 then 1 else x.generation + 1
    let handle : BitVec 16 := BitVec.ofNat 16 (gen.toNat * 8 + k.val)
    (s.Takes opHello h p → ∃ steward : Byte, ((∀ l, s.isSteward l = false) → steward = 0xFF) ∧ (∀ l, s.isSteward l = true → (∀ l' < l, s.isSteward l' = false) → steward = BitVec.ofNat 8 l.val)
        ∧ s.Serves (.hello h p) h opHello
            ([0x48, 0x72, 0x49, 0x4C, 0x00, 0x02, 0x00, 0x00, 0x01, BitVec.ofNat 8 k.val, BitVec.ofNat 8 (s.link k).width, steward]
              ++ le 2 (if x.isOpen then x.handle.toNat else 0) ++ [0, 0] ++ (List.finRange 8).map ownerByte ++ [if s.modeOz then 1 else 0, 0, 0, 0]) s)
    ∧ (s.Takes opOpenSession h p → h.session = 0 → x.isOpen = false →
        (exact = true → (∀ q : QId, h.qmask.getLsbD q.val = true → free q) ∧ (asks = true → stewardFree)) →
        ∃ (t : State) (g : Byte), exec (.openSession h p) s = .next t
          ∧ t.sent = s.sent ++ [{ dest := { hdrDest h 0x02 with session := handle }, status := stOk, detail := 0,
                                  result := [g, if (t.session k).steward then 1 else 0] ++ le 2 handle.toNat }]
          ∧ (t.session k).isOpen = true ∧ (t.session k).handle = handle ∧ (t.session k).generation = gen
          ∧ ((t.session k).steward = true ↔ x.steward = true ∨ (asks = true ∧ stewardFree))
          ∧ (∀ q : QId, g.getLsbD q.val = true ↔ granted q)
          ∧ (∀ q, granted q → t.quire q = { s.quire q with owner := some k }) ∧ (∀ q, ¬granted q → t.quire q = s.quire q)
          ∧ (∀ l, l ≠ k → t.session l = s.session l)
          ∧ t = { s with sent := t.sent, sessions := t.sessions, links := t.links, regs := t.regs, log := t.log, quires := t.quires, collector := { s.collector with satPages := t.collector.satPages } })

/-- CLOSE_SESSION releases the quires that it names or ends the session, and a held session that expires ends alike: a released quire loses its owner and is stopped, at once in ARMED, at its next boundary in RUNNING and PAUSED, a pause that waits being cancelled; the replies still due to the session for it are forgotten; any other quire stays as it is (R600 to R602, R784). The model's choices that it rests on: log entries 28, 29, 32. -/
def Obligations.SessionsEnd : Prop :=
  ∀ (s : State) (h : Hdr) (p : Params) (k : LinkId),
    let released := fun (gone : ReplyTo → Bool) (cause : StopCause) (y z : Quire) =>
      let f := y.forget gone
      z.owner = none ∧ z.committed = y.committed ∧ z.staging = y.staging ∧ z.dram.mem = y.dram.mem ∧ z.sram = y.sram
      ∧ (y.state = .armed → z.state = .stopped ∧ z.stopCause = cause)
      ∧ (y.state = .running ∨ y.state = .paused → z = { f with owner := none, pausePending := y.pausePending && y.stopReq.isSome, stopReq := some (f.stopReq.getD { cause := cause, rebind := false, waiter := none }) })
      ∧ (y.state.inRun = false → z = { f with owner := none })
    let mine := fun (l : LinkId) (d : ReplyTo) => decide (d.link = l)
    let named := fun (d : ReplyTo) => decide (d.link = h.link) && decide (d.opcode ≠ 0x03)
      && (List.finRange 8).any fun q => decide ((s.quire q).owner = some h.link) && h.qmask.getLsbD q.val && d.qmask.getLsbD q.val
    let closed := fun (t : State) (l : LinkId) => t.session l = { Session.reset with generation := (s.session l).generation }
      ∧ (∀ w ∈ t.maskWaits, w.dest.link ≠ l) ∧ ∀ r ∈ t.heldReplies, r.dest.link ≠ l
    let others := fun (gone : ReplyTo → Bool) (t : State) (l : LinkId) => ∀ q, (s.quire q).owner ≠ some l → t.quire q = (s.quire q).forget gone
    s.gov.waiting = [] → s.spine.restartWanted = none → (∀ w ∈ s.maskWaits, w.dest.opcode ≠ 0) →
    (∀ (q : QId) (l : LinkId), (s.quire q).owner = some l → ∀ d ∈ (s.quire q).dests, d.opcode = 0 ∨ (d.link = l ∧ d.opcode ≠ 3 ∧ d.qmask.getLsbD q.val = true)) →
      (s.Takes opCloseSession h p → (p.getD 0 0).getLsbD 1 = true →
        ∃ t, exec (.closeSession h p) s = .next t ∧ (s.sent ++ [okReply h opCloseSession []]) <+: t.sent ∧ closed t h.link ∧ others (mine h.link) t h.link
          ∧ ∀ q, (s.quire q).owner = some h.link → released (mine h.link) .host (s.quire q) (t.quire q))
      ∧ (s.Takes opCloseSession h p → (p.getD 0 0).getLsbD 1 = false →
        ∃ t, exec (.closeSession h p) s = .next t ∧ [okReply h opCloseSession []] <:+ t.sent ∧ others named t h.link ∧ (t.session h.link).isOpen = (s.session h.link).isOpen
          ∧ (t.session h.link).steward = ((s.session h.link).steward && !(p.getD 0 0).getLsbD 0)
          ∧ (∀ q : QId, (s.quire q).owner = some h.link → h.qmask.getLsbD q.val = false → t.quire q = (s.quire q).forget named)
          ∧ ∀ q : QId, (s.quire q).owner = some h.link → h.qmask.getLsbD q.val = true → released named .host (s.quire q) (t.quire q))
      ∧ ((s.session k).isOpen = true → (s.session k).holding = true →
        ∃ t, exec (.sessionHoldExpiry k) s = .next t ∧ closed t k ∧ others (mine k) t k ∧ ∀ q, (s.quire q).owner = some k → released (mine k) .chip (s.quire q) (t.quire q))

/-- READ_CFG returns the staging copy in PARKED and STAGED and the committed copy elsewhere; WRITE_CFG and WRITE_CFG_BLOCK change the RW bits of their words in the staging copy and make the page DIRTY, and a write of `PAGE_CRC` makes it SEALED; the first write makes a PARKED quire STAGED (R19, R24, R39, R46, R606 to R610, R620 to R622). The model's choices that it rests on: log entries 136, 147, 149. -/
def Obligations.ConfigurationAccess : Prop :=
  ∀ (s : State) (h : Hdr) (p : Params) (q : QId) (page o n : Nat),
    let x := s.quire q
    let writable := x.state = .parked ∨ x.state = .staged
    let copy := if x.state = .parked ∨ x.state = .staged then x.staging else x.committed.getD []
    let rw := fun (w : Nat) => cfgMask page w ≠ 0 ∧ w % 4 = 0 ∧ w < 0xFFFFC
    let new := fun (w : Nat) (v : Word) => (cfgGet x.staging page w &&& ~~~cfgMask page w) ||| (v &&& cfgMask page w)
    let dirties := fun (y : Quire) => y.state = .staged ∧ y.dirty = x.dirty ||| BitVec.ofNat 32 (2 ^ page) ∧ y.sealedPages = x.sealedPages &&& ~~~BitVec.ofNat 32 (2 ^ page)
      ∧ y = { x with state := .staged, staging := y.staging, dirty := y.dirty, sealedPages := y.sealedPages }
    let word := fun (y : Quire) (pg w : Nat) => cfgGet y.staging pg w
    page ∈ configPages → h.qmask = BitVec.ofNat 8 (2 ^ q.val) →
      (s.Takes opReadCfg h p → parW p 0 = BitVec.ofNat 32 (2 ^ 28 * (q.val + 1) + 2 ^ 20 * page + o) → par p 4 2 = n → 1 ≤ n → n ≤ 2048 →
        (∀ i < n, rw (o + 4 * i)) → x.state ≠ .off → s.collector.injections = [] →
        let bytes := (List.range n).flatMap fun i => le 4 (cfgGet copy page (o + 4 * i)).toNat
        let lost := h.reads.outcome = .uncorrectable ∧ h.reads.word < n ∧ ¬writable
        (¬lost → s.Serves (.readCfg h p) h opReadCfg bytes s)
        ∧ (lost → ∃ t r, exec (.readCfg h p) s = .next t ∧ s.Answers t h opReadCfg stOk 0 bytes ∧ t.collector.reports = s.collector.reports ++ [r]
            ∧ r.severity = .chip ∧ r.checker = 0x03 ∧ r.cause = 0x13 ∧ r.detail = BitVec.ofNat 24 (par p 0 4 + 4 * h.reads.word)))
      ∧ (s.Takes opWriteCfg h p → parW p 0 = BitVec.ofNat 32 (2 ^ 28 * (q.val + 1) + 2 ^ 20 * page + o) → rw o → writable →
        ∃ y, s.Serves (.writeCfg h p) h opWriteCfg [] (s.setQuire q y) ∧ dirties y ∧ word y page o = new o (parW p 4)
          ∧ ∀ pg w, w < 2 ^ 20 → pg ≠ page ∨ w ≠ o → word y pg w = word x pg w)
      ∧ (s.Takes opWriteCfgBlock h p → parW p 0 = BitVec.ofNat 32 (2 ^ 28 * (q.val + 1) + 2 ^ 20 * page + o) → par p 4 2 = n → 1 ≤ n → n ≤ 2048 → (∀ i < n, rw (o + 4 * i)) → writable →
        ∃ y, s.Serves (.writeCfgBlock h p) h opWriteCfgBlock [] (s.setQuire q y) ∧ dirties y ∧ (∀ i < n, word y page (o + 4 * i) = new (o + 4 * i) (parW p (8 + 4 * i)))
          ∧ ∀ pg w, w < 2 ^ 20 → pg ≠ page ∨ w < o ∨ o + 4 * n ≤ w → word y pg w = word x pg w)
      ∧ (s.Takes opWriteCfg h p → parW p 0 = BitVec.ofNat 32 (2 ^ 28 * (q.val + 1) + 2 ^ 20 * page + 0xFFFFC) → writable →
        ∃ y, s.Serves (.pageCrcWrite h p) h opWriteCfg [] (s.setQuire q y) ∧ y.state = .staged ∧ y.sealedPages = x.sealedPages ||| BitVec.ofNat 32 (2 ^ page)
          ∧ y.dirty = x.dirty &&& ~~~BitVec.ofNat 32 (2 ^ page) ∧ sget (fun _ => none) page y.crcWritten = some (parW p 4)
          ∧ y = { x with state := .staged, dirty := y.dirty, sealedPages := y.sealedPages, crcWritten := y.crcWritten })

/-! ### The pattern memory channel -/

/-- The refresh commands of a physical rank by the first way of R478 that applies, one that falls due while the rank still refreshes being postponed, their repayment one at a time, what an all-bank and a same-bank refresh block, and the events of MR4, of a window's end and of DQS drift, whose moves wait for a refresh of the rank (R476 to R480, R484, R494). The model's choices that it rests on: log entries 114, 115, 116. -/
def Obligations.DramRefreshes : Prop :=
  ∀ (s : State) (q : QId) (rank : Fin 3) (anyHot : Bool) (drift : List (Int × Int)),
    let x := s.quire q
    let d := x.dram
    let mine := fun (r : DramReq) => rank.val ∈ d.ranksOf r
    let free := fun (b : Nat) => ∀ r ∈ d.queue, mine r → r.line / 16 % 4 ≠ b
    let idleSet := ∃ b < 4, free b
    let fetches := ∃ r ∈ d.queue, mine r ∧ r.port = .fetch
    let postponed := d.postponed[rank]
    let is := fun (i : Instr) (e : Dram) => exec i s = .next (s.setQuire q { x with dram := e })
    let counts := fun (i : Instr) (e : Dram) (key n : Nat) => s.Makes i q { x with dram := e } fun t => Counted n (x.liveReg (rk 0x11 key)) ((t.quire q).liveReg (rk 0x11 key))
    let moves := d.phyDue.getD rank.val (0, 0)
    let refreshed := { d with
      openRows := d.openRows.filter fun b => b.1 / 64 ≠ rank.val, lastOther := some (rank.val, 0)
      phyRead := lmod d.phyRead rank.val (· + moves.1), phyWrite := lmod d.phyWrite rank.val (· + moves.2), phyDue := lset d.phyDue rank.val (0, 0) }
    let whole := { refreshed with blockedUntil := d.blockedUntil.set rank (d.clock + (if fld d.board 28 2 = 0 then 295 else 410)) }
    let joins := d.clock < d.blockedUntil[rank] ∧ postponed < 4
    let tsb := Config.tRFCsb (fld d.board 28 2)
    let byBanks := fun (i : Instr) (e : Dram) => ∃ l : List BankBlock, l.length = 4
      ∧ (∀ k ∈ l, k.rank = rank.val ∧ k.only = none ∧ k.till = k.since + tsb) ∧ (∀ b < 4, b ∈ l.map (·.bank)) ∧ l.map (·.since) = [d.clock, d.clock + tsb, d.clock + 2 * tsb, d.clock + 3 * tsb]
      ∧ (∀ k ∈ l.head?, free k.bank) ∧ counts i { e with bankBlocks := d.bankBlocks.filter (fun k => d.clock < k.till) ++ l } 0x220 4
    d.available = true →
      (d.changing = none → d.ranks[rank] ≠ .failed →
        (joins → is (.refreshDue q rank) { d with postponed := d.postponed.set rank (postponed + 1) })
        ∧ (¬joins → idleSet → byBanks (.refreshDue q rank) refreshed)
        ∧ (¬joins → ¬idleSet → fetches → postponed < 4 → counts (.refreshDue q rank) { d with postponed := d.postponed.set rank (postponed + 1) } 0x218 1)
        ∧ (¬joins → ¬idleSet → 4 ≤ postponed → counts (.refreshDue q rank) { d with forced := d.forced.set rank true } 0x21C 1)
        ∧ (¬joins → ¬idleSet → ¬fetches → postponed < 4 → is (.refreshDue q rank) whole)
        ∧ (¬fetches → 0 < postponed → d.blockedUntil[rank] ≤ d.clock → idleSet → byBanks (.refreshRepay q rank) { refreshed with postponed := d.postponed.set rank (postponed - 1) })
        ∧ (¬fetches → 0 < postponed → d.blockedUntil[rank] ≤ d.clock → ¬idleSet → is (.refreshRepay q rank) { whole with postponed := d.postponed.set rank (postponed - 1) }))
      ∧ (d.ranks[rank] = .failed → is (.refreshDue q rank) d ∧ is (.refreshRepay q rank) d)
      ∧ (anyHot = true → is (.mr4Read q anyHot) { d with hotRefresh := true, coolReads := 0 })
      ∧ (anyHot = false → d.coolReads = 0 → is (.mr4Read q anyHot) { d with coolReads := 1 })
      ∧ (anyHot = false → 1 ≤ d.coolReads → is (.mr4Read q anyHot) { d with hotRefresh := false, coolReads := 2 })
      ∧ is (.refreshWindowEnd q rank) { d with tables := d.tables.filter fun e => e.1 / 64 ≠ rank.val }
      ∧ (∃ l, is (.dqsDriftRead q drift) { d with phyDue := l } ∧ ∀ i : Fin 3,
          l.getD i.val (0, 0) = if d.ranks[i] = .failed then d.phyDue.getD i.val (0, 0)
            else ((d.phyDue.getD i.val (0, 0)).1 + (drift.getD i.val (0, 0)).1, (d.phyDue.getD i.val (0, 0)).2 + (drift.getD i.val (0, 0)).2))

/-- A DRAM_COMMAND_SLOT serves a forced refresh, once the refresh before it is over and the fetches that waited for that have gone, then a forced refresh-management command, then a request of the first step of R472 that has one, of those whose ranks and banks no refresh blocks; a line that a migration has copied goes to the spare, and a write to both ranks. Deadlines raise a fetch, age promotes another request, and a change of frequency set completes and is asked for (R470 to R473, R476, R480 to R490, R501, R502, R726). The model's choices that it rests on: log entries 113, 114, 116, 117, 120. -/
def Obligations.DramCommandSlots : Prop :=
  ∀ (s : State) (q : QId),
    let x := s.quire q
    let d := x.dram
    let counts := fun (i : Instr) (e : Dram) (keys : List Nat) => s.Makes i q { x with dram := e } fun t => ∀ k ∈ keys, s.CountsOne q (rk 0x11 k) t
    let order := fun (r : DramReq) => if r.port = .fetch then (if r.high then 1 else 3) else if r.promoted then 2 else 4
    let refreshing := fun (k : BankBlock) (b : Nat) => k.since ≤ d.clock ∧ d.clock < k.till ∧ match k.only with | some j => j = b | none => b / 64 = k.rank ∧ b % 4 = k.bank
    let eligible := fun (r : DramReq) => r ∈ d.queue ∧ (∀ k ∈ d.ranksOf r, d.blockedUntil.toList.getD k 0 ≤ d.clock) ∧ ∀ b ∈ d.banksOf r, ∀ k ∈ d.bankBlocks, ¬refreshing k b
    let own := fun (r : DramReq) => if r.line / 4096 % 2 = 0 then d.physL0 else d.physL1
    let copied := fun (r : DramReq) => d.migrating = true ∧ r.line / 4096 % 2 = d.migrateRank ∧ r.line / 4096 / 2 * 4096 + r.line % 4096 < d.migrateNext
    let refresh := fun (rank : Fin 3) =>
      let moves := d.phyDue.getD rank.val (0, 0)
      { d with
        forced := d.forced.set rank false, blockedUntil := d.blockedUntil.set rank (d.clock + d.trfc1), lastOther := some (rank.val, 0)
        openRows := d.openRows.filter fun b => b.1 / 64 ≠ rank.val
        phyRead := lmod d.phyRead rank.val (· + moves.1), phyWrite := lmod d.phyWrite rank.val (· + moves.2), phyDue := lset d.phyDue rank.val (0, 0) }
    let allowed := bit (x.cfg 0x11 0) 0 = true ∧ (x.state.inRun = true → x.sramOnly = true)
    let is := fun (i : Instr) (e : Dram) => exec i s = .next (s.setQuire q { x with dram := e })
    let low := fun (r : DramReq) => r.port = .fetch ∧ r.high = false
    let late := fun (r : DramReq) => r.port = .fetch ∧ r.high = true ∧ r.critical = false
    let old := fun (r : DramReq) => r.port ≠ .fetch ∧ r.port ≠ .migration ∧ r.promoted = false
    let may := fun (rank : Fin 3) => d.forced[rank] = true ∧ d.blockedUntil[rank] ≤ d.clock
      ∧ ∀ r ∈ d.queue, rank.val ∈ d.ranksOf r → r.port = .fetch → d.blockedUntil[rank] ≤ r.age
    let noForced := ∀ r : Fin 3, ¬may r
    s.heldPackets = [] → d.available = true →
      (d.changing = none →
        (∀ rank : Fin 3, may rank → (∀ r, r < rank → ¬may r) → is (.dramCommandSlot q) (refresh rank))
        ∧ (noForced → ∀ e rest, d.rfmForced = e :: rest →
          ∃ tables, sfind e.1 tables = some (((sfind e.1 d.tables).getD []).map fun f => if f.1 = e.2 then (f.1, 0) else f)
            ∧ counts (.dramCommandSlot q) { d with
                tables := tables, rfm := d.rfm.filter (· ≠ e), rfmForced := d.rfmForced.filter (· ≠ e), lastOther := some (e.1 / 64, 0), openRows := d.openRows.filter fun b => b.1 ≠ e.1
                bankBlocks := d.bankBlocks.filter (fun k => d.clock < k.till)
                  ++ [{ rank := e.1 / 64, bank := e.1 % 4, only := some e.1, since := d.clock, till := d.clock + Config.tRFCsb (fld d.board 28 2) }] } [0x224, 0x228])
        ∧ (noForced → d.rfmForced = [] → d.rfm = [] →
          ((∃ r, eligible r) → ∃ r e, eligible r ∧ (∀ r', eligible r' → order r ≤ order r') ∧ is (.dramCommandSlot q) e
              ∧ e.queue = d.queue.erase r ∧ e.issued = (if r.write then d.issued.filter (fun z => !z.write) else d.issued) ++ [r]
              ∧ (∀ b ∈ d.banksOf r, sfind b e.openRows = some (r.line / 4096 / 2))
              ∧ e = { d with queue := e.queue, issued := e.issued, openRows := e.openRows, tables := e.tables, rfm := e.rfm, rfmForced := e.rfmForced, lastOther := none })
          ∧ ((¬∃ r, eligible r) → is (.dramCommandSlot q) d))
        ∧ (∀ r : DramReq, (d.spare = none → d.ranksOf r = [own r])
          ∧ ∀ k, d.spare = some k →
            (r.port = .migration → d.ranksOf r = [own r, k.val])
            ∧ (r.port ≠ .migration → ¬copied r → d.ranksOf r = [own r])
            ∧ (r.port ≠ .migration → copied r → d.ranksOf r = if r.write then [k.val, own r] else [k.val]))
        ∧ (s.dramAuto = true → allowed → d.rateSet = false →
          ∃ t, exec (.dramRateRequest q) s = .next t ∧ (s.setQuire q { x with dram := { d with changing := some true } }).Tallies t [rk 5 0x310])
        ∧ (s.dramAuto = true → ¬allowed → d.rateSet = true → is (.dramRateRequest q) { d with changing := some false }))
      ∧ (∀ b, d.changing = some b → (∀ a, x.occupied ≠ some (.arm a)) →
          (x.rawReads = [] → counts (.rateChange q) { d with rateSet := b, changing := none, openRows := [] } [0x234])
          ∧ ∃ t, exec (.rateChange q) s = .next t ∧ (t.quire q).dram.rateSet = b ∧ (t.quire q).dram.changing = none ∧ (t.quire q).rawReads = [])
      ∧ (∀ pre r post, d.queue = pre ++ r :: post →
        ((∀ z ∈ d.queue, ¬late z) → (∀ z ∈ pre, ¬low z) → low r → is (.fetchDeadline q) { d with queue := pre ++ { r with high := true } :: post })
        ∧ ((∀ z ∈ d.queue, ¬low z) → (∀ z ∈ pre, ¬late z) → late r → is (.fetchDeadline q) { d with queue := pre ++ { r with critical := true } :: post })
        ∧ ((∀ z ∈ pre, ¬old z) → old r → counts (.agePromotion q) { d with queue := pre ++ { r with promoted := true } :: post } [0x230]))

/-- What a returned read, a failed write, a failed command and a copied line of a migration leave: up to 8 wrong symbols of a line corrected and more an uncorrectable error, up to three retries of a write and three replays of a command with its bank's pending ones, counters, poison and its readers, and the ranks (R464 to R468, R474, R495 to R504). The model's choices that it rests on: log entries 3, 118, 119, 151, 170. -/
def Obligations.DramErrors : Prop :=
  ∀ (s : State) (q : QId) (outcome : LineRead) (r : DramReq),
    let x := s.quire q
    let d := x.dram
    let wrong := outcome.wrong.val
    let gone := { d with issued := d.issued.erase r }
    let late := r.port = .fetch ∧ (r.critical = true ∨ r.age + x.latencyTarget < d.clock)
    let one := fun (t : State) (keys : List Nat) => ∀ k ∈ keys, s.CountsOne q (rk 0x11 k) t
    let tainted := fun (y : Quire) =>
      (r.port ≠ .scratch → (∀ it ∈ x.store ++ x.ready, it.kind = .pattern → it.seq = r.seq → { it with poisoned := true } ∈ y.store ++ y.ready)
        ∧ (noSeq ≤ r.seq → r.seq < tableSeq 0 → (r.sig, r.seq - noSeq) ∈ y.seq.landingBad)
        ∧ ∀ sl ∈ x.slots, sl.seq = r.seq ∨ tableSeq sl.seq = r.seq → { sl with poisoned := true } ∈ y.slots)
      ∧ (r.port = .scratch → y.derivation = x.derivation.map fun v => { v with todo := [], failed := some (v.failed.getD r.sig) })
    let outside := fun (t : State) (line : Nat) => (∀ a, a < 64 * line ∨ 64 * line + 64 ≤ a → bget a (t.quire q).dram.mem = bget a d.mem) ∧ ∀ q', q' ≠ q → t.quire q' = s.quire q'
    injecting 0x18 0 x.injections = false →
      (d.issued.find? (fun z => !z.write && z.port ≠ .migration) = some r →
        (wrong = 0 → r.line ∉ d.poison → ¬late → exec (.dramRead q outcome) s = .next (s.setQuire q { x with dram := gone }))
        ∧ (0 < wrong → wrong ≤ 8 → r.line ∉ d.poison → ¬late → s.Makes (.dramRead q outcome) q { x with dram := gone } (one · [0x200]))
        ∧ (wrong = 0 → r.line ∉ d.poison → late → s.Makes (.dramRead q outcome) q { x with dram := gone } (one · [0x22C]))
        ∧ (wrong = 0 → r.line ∈ d.poison → ∃ t, exec (.dramRead q outcome) s = .next t ∧ s.Within t q ∧ (t.quire q).dram = gone ∧ one t [0x208] ∧ tainted (t.quire q))
        ∧ (8 < wrong → outcome.miscorrected = false → d.migrating = false →
          ∃ t, exec (.dramRead q outcome) s = .next t ∧ s.Within t q ∧ one t [0x204, 0x208] ∧ (t.quire q).liveReg (rk 0x11 0x238) = BitVec.ofNat 32 r.line
            ∧ (∀ l, l ∈ (t.quire q).dram.poison ↔ l = r.line ∨ l ∈ d.poison) ∧ (t.quire q).dram.issued = d.issued.erase r ∧ tainted (t.quire q)
            ∧ (t.quire q).dram.migrating = d.spareOk ∧ t.collector.reports.length = s.collector.reports.length + 1)
        ∧ (8 < wrong → outcome.miscorrected = true → r.line ∉ d.poison → ∃ t, exec (.dramRead q outcome) s = .next t ∧ one t [0x200] ∧ outside t r.line
            ∧ (t.quire q).dram.issued = d.issued.erase r ∧ (t.quire q).dram.poison = d.poison ∧ t.collector.reports = s.collector.reports))
      ∧ (d.issued.find? (·.write) = some r →
        (r.retries < 3 → s.Makes (.writeCrcAlert q) q { x with dram := { d with issued := d.issued.map fun z => if z = r then { z with retries := z.retries + 1 } else z } } (one · [0x210]))
        ∧ (3 ≤ r.retries → d.migrating = false → ∃ t, exec (.writeCrcAlert q) s = .next t ∧ (t.quire q).dram.issued = d.issued.erase r ∧ one t [0x204]
            ∧ (t.quire q).liveReg (rk 0x11 0x238) = BitVec.ofNat 32 r.line ∧ outside t r.line ∧ t.collector.reports.length = s.collector.reports.length + 1))
      ∧ (d.lastOther = none → d.issued.getLast? = some r →
        (r.replays < 3 → ∃ again, s.Makes (.caParityAlert q) q { x with dram := { d with issued := again } } (one · [0x214])
            ∧ again.length = d.issued.length ∧ again.getLast? = some { r with replays := r.replays + 1 } ∧ (∀ z ∈ d.issued, z ≠ r → z ∈ again)
            ∧ again.filter (fun z => !(d.banksOf z).any fun b => (d.banksOf r).contains b) <+: again)
        ∧ (3 ≤ r.replays → r.write = false → r.port ≠ .migration → d.migrating = false → ∃ t, exec (.caParityAlert q) s = .next t ∧ s.Within t q ∧ (t.quire q).dram.issued = d.issued.erase r
            ∧ one t [0x204, 0x208] ∧ tainted (t.quire q) ∧ t.collector.reports.length = s.collector.reports.length + 1)
        ∧ (3 ≤ r.replays → r.write = false → r.port = .migration → d.migrating = true → d.spare.isSome = true → d.onSpare r.line = false → d.migrateNext + 1 < d.rows * 4096 →
            ∃ t e, exec (.caParityAlert q) s = .next t ∧ s.Within t q ∧ (t.quire q).dram = e ∧ (∀ l, l ∈ e.poison ↔ l = r.line ∨ l ∈ d.poison) ∧ e.migrating = true ∧ e.migrateNext = d.migrateNext + 1
              ∧ (∃ ask : DramReq, e.queue = d.queue ++ [ask] ∧ ask.port = .migration) ∧ one t [0x204, 0x208] ∧ t.collector.reports.length = s.collector.reports.length + 1)
        ∧ (3 ≤ r.replays → r.write = true → d.migrating = false → ∃ t, exec (.caParityAlert q) s = .next t ∧ (t.quire q).dram.issued = d.issued.erase r ∧ one t [0x204] ∧ outside t r.line
            ∧ t.collector.reports.length = s.collector.reports.length + 1))
      ∧ (∀ rank n, d.lastOther = some (rank, n) →
        (n < 3 → s.Makes (.caParityAlert q) q { x with dram := { d with lastOther := some (rank, n + 1) } } (one · [0x214]))
        ∧ (3 ≤ n → d.migrating = false → (∀ k, d.spare = some k → k.val ≠ rank) → ∃ t, exec (.caParityAlert q) s = .next t ∧ (∀ q', q' ≠ q → t.quire q' = s.quire q') ∧ one t [0x204]
            ∧ t.collector.reports.length = s.collector.reports.length + 1
            ∧ (t.quire q).dram.lastOther = none ∧ (t.quire q).dram.migrating = (d.spareOk && (d.physL0 = rank || d.physL1 = rank))))
      ∧ (∀ spare : Fin 3, d.migrating = true → d.issued.find? (·.port = .migration) = some r → d.spare = some spare → wrong = 0 → r.line ∉ d.poison →
          let i := d.migrateNext + 1
          let old := if d.migrateRank = 0 then d.physL0 else d.physL1
          (i < d.rows * 4096 → ∃ ask : DramReq, exec (.migrationCopy q outcome false) s = .next (s.setQuire q { x with dram := { gone with migrateNext := i, queue := d.queue ++ [ask] } })
            ∧ ask.port = .migration ∧ ask.write = false ∧ ask.line = (2 * (i / 4096) + d.migrateRank) * 4096 + i % 4096)
          ∧ (i = d.rows * 4096 → old < 3 → old ≠ spare.val → ∃ t e, exec (.migrationCopy q outcome false) s = .next t ∧ s.Within t q ∧ (t.quire q).dram = e
              ∧ e.migrating = false ∧ e.spareOk = false ∧ e.ranks[spare] = .active ∧ e.ranks.toList[old]? = some .retired
              ∧ e.physL0 = (if d.migrateRank = 0 then spare.val else d.physL0) ∧ e.physL1 = (if d.migrateRank = 0 then d.physL1 else spare.val) ∧ e.mem = d.mem)
          ∧ ∃ t e, exec (.migrationCopy q outcome true) s = .next t ∧ s.Within t q ∧ (t.quire q).dram = e ∧ e.migrating = false ∧ e.spareOk = false ∧ e.ranks[spare] = .failed
              ∧ one t [0x204] ∧ (t.quire q).liveReg (rk 0x11 0x238) = BitVec.ofNat 32 r.line)

/-! ### Time and clocks -/

/-- TIME_SET, TIME_ADJ and TIME_READ, and the tick: chip time grows by the increment, modulo 2^64 ns, and a TIME_SET, a TIME_ADJ or a kettle time load that waits takes effect at the next tick; with it items of the delay list, edges, a park profile and the ends of marker pulses that are due (R218, R268, R275, R290, R303, R660 to R666, R695, R795, R865). The model's choices that it rests on: log entries 9, 91, 131, 135, 141, 154, 167. -/
def Obligations.ChipTime : Prop :=
  ∀ (s : State) (h : Hdr) (p : Params),
    let ns := s.time.ns
    let asked := parT12 s.modeOz p 0
    let rate := par p 0 8
    let total := 2 ^ 32 * ns + s.time.frac + s.time.increment
    let ticked := { s.time with ns := total / 2 ^ 32 % 2 ^ 64, frac := total % 2 ^ 32, ticks := s.time.ticks + 1 }
    let law : TimeLaw := { till := 4000 * (s.time.ticks + 1), total := 2 ^ 32 * ticked.ns + ticked.frac, increment := s.time.increment }
    let stepped := { ticked with pending := [], past := law :: s.time.past }
    let selects := fun (t : State) => t.cal = { s.cal with selections := t.cal.selections, waiting := t.cal.waiting }
      ∧ (s.cal.waiting = [] → t.cal = s.cal) ∧ ∀ r ∈ t.cal.waiting, r ∈ s.cal.waiting
    let due := fun (now : Nat) (it : Item) => match it.due with | some d => decide (d ≤ now) | none => true
    let now := (s.time.ticks + 1) * 4000
    let quires := fun (t : State) => ∀ q,
      let x := s.quire q
      let y := t.quire q
      let fired := x.firePins ((now : Int) - x.origin)
      y = { x with
          dram := { x.dram with clock := x.dram.clock + 1 }, ready := x.ready ++ x.delay.filter (due t.time.ns), delay := x.delay.filter fun it => !due t.time.ns it
          pins := y.pins, termOn := y.termOn, spilled := y.spilled, parkDue := y.parkDue, markers := y.markers }
        ∧ ((∀ p at_, x.parkDue = some (p, at_) → now < at_) → y.pins = fired.pins ∧ y.spilled = fired.spilled ∧ y.termOn = x.termOn ∧ y.parkDue = x.parkDue)
        ∧ (∀ p at_, x.parkDue = some (p, at_) → at_ ≤ now → y.spilled = [] ∧ y.parkDue = none ∧ (x.spilled = [] → y.pins = (x.takeProfile p).pins ∧ y.termOn = (x.takeProfile p).termOn))
        ∧ ∀ m < 2, (y.marker m).active = ((x.marker m).active && !(x.markerFall m).any (· < now))
    (s.Takes opTimeSet h p → t12Ok s.modeOz p 0 = true → asked < 2 ^ 63 →
      s.Serves (.timeSet h p) h opTimeSet [] { s with time := { s.time with pending := s.time.pending ++ [.set asked] } })
    ∧ (s.Takes opTimeAdj h p → 0x00FFBE76C9 ≤ rate → rate ≤ 0x0100418937 →
      s.Serves (.timeAdj h p) h opTimeAdj [] { s with time := { s.time with pending := s.time.pending ++ [.adj (BitVec.ofNat 40 rate)] } } [rk 2 0x24])
    ∧ (s.Takes opTimeRead h p →
      s.Serves (.timeRead h p) h opTimeRead
        ((if s.modeOz then le 4 (ns % 1000000000) ++ le 8 (ns / 1000000000 % 2 ^ 48) else le 8 ns ++ le 4 0) ++ le 4 s.time.frac ++ le 8 s.time.increment) s)
    ∧ (s.timingRuns = true → s.heldPackets = [] →
        (s.time.pending = [] → ∃ t, exec .timeTick s = .next t ∧ t = { s with time := ticked, quires := t.quires, cal := t.cal } ∧ quires t ∧ selects t)
        ∧ (∀ i, s.time.pending = [.adj i] → ∃ t, exec .timeTick s = .next t ∧ t = { s with time := { stepped with increment := i.toNat }, quires := t.quires, cal := t.cal } ∧ quires t ∧ selects t)
        ∧ (∀ v, s.time.pending = [.set v] → s.syncMode = 0 → ∃ t, exec .timeTick s = .next t ∧ quires t ∧ selects t
            ∧ ({ s with time := { stepped with ns := v % 2 ^ 64, frac := 0, valid := true }, quires := t.quires, cal := t.cal } : State).Tallies t [rk 2 0x20])
        ∧ (∀ v before, s.time.pending = [.load v before] → s.syncMode = 0 → ∃ t n, exec .timeTick s = .next t ∧ quires t ∧ selects t
            ∧ n = v + ((before + 4000) * s.time.increment / 4000).toNat
            ∧ ({ s with time := { stepped with ns := n / 2 ^ 32 % 2 ^ 64, frac := n % 2 ^ 32, valid := true }, quires := t.quires, cal := t.cal } : State).Tallies t [rk 2 0x20]))
    ∧ (s.timingRuns = false → s.heldPackets = [] → exec .timeTick s = .next s)

/-- SYNC: an edge is measured against the multiples of the period; in FOLLOW it steps chip time and locks, a bad edge or a missing one is a miss, two misses in a row are a loss; a SOURCE begins a pulse; and a wait for SYNC whose first hold vector has started takes the edge as its trigger, 16 ns later (R678 to R682, R686). The model's choices that it rests on: log entries 128, 133, 167. -/
def Obligations.SyncEdges : Prop :=
  ∀ (s : State) (sub : Nat),
    let mode := fld (s.reg (rk 3 0)) 30 2
    let period := fld (s.reg (rk 3 0)) 0 16
    let window := fld (s.reg (rk 3 8)) 0 16
    let e := s.edgeError sub
    let at_ : Int := ((2 ^ 32 * s.time.ns + s.time.frac + sub * s.time.increment / 4000) * 4000 / 2 ^ 32 : Nat)
    let shown := max (-524288) (min 524287 e)
    let total := 2 ^ 32 * s.time.ns + s.time.frac
    let stepped := (((total : Int) - e * 2 ^ 32 / 4000).emod (2 ^ 96)).toNat
    let law : TimeLaw := { till := 4000 * s.time.ticks, total := total, increment := s.time.increment }
    let good := |e| ≤ 4 * (window : Int)
    let quiet := ∀ q since, (s.quire q).seq.wait ≠ some (.trig since none)
    let missed := fun (i : Instr) =>
      (s.time.misses = 0 → ∃ t, exec i s = .next t ∧ t.time.misses = 1 ∧ t.time.syncState = .locked ∧ t.time.ns = s.time.ns ∧ Counted 1 (s.reg (rk 3 0x14)) (t.reg (rk 3 0x14)))
      ∧ (s.time.misses ≠ 0 → ∃ t, exec i s = .next t ∧ t.time.misses = 0 ∧ t.time.syncState = .acquire ∧ t.time.ns = s.time.ns ∧ t.collector.live.getLsbD 6 = true
          ∧ Counted 1 (s.reg (rk 3 0x14)) (t.reg (rk 3 0x14)) ∧ Counted 1 (s.reg (rk 3 0x18)) (t.reg (rk 3 0x18)) ∧ t.collector.reports.length = s.collector.reports.length + 1)
    s.timingRuns = true → injecting 0x06 0 s.collector.injections = false → 1 ≤ period →
      (∃ m : Int, e = at_ - sfld (s.reg (rk 3 4)) 0 20 - m * (4000 * period) ∧ -(4000 * period : Int) ≤ 2 * e ∧ 2 * e < 4000 * period)
      ∧ (mode = 2 → quiet → ∃ t, exec (.syncInEdge sub) s = .next t ∧ ({ s with time := { s.time with syncError := shown } } : State).Tallies t [rk 3 0x10])
      ∧ (mode = 1 → s.time.syncState = .locked → good → quiet →
          ∃ t, exec (.syncInEdge sub) s = .next t
            ∧ ({ s with time := { s.time with syncError := shown, misses := 0, ns := stepped / 2 ^ 32, frac := stepped % 2 ^ 32, past := law :: s.time.past } } : State).Tallies t [rk 3 0x10])
      ∧ (mode = 1 → s.time.syncState = .acquire → ∃ t, exec (.syncInEdge sub) s = .next t ∧ t.time = { s.time with
            syncError := shown, misses := 0, ns := stepped / 2 ^ 32, frac := stepped % 2 ^ 32, past := law :: s.time.past, valid := true, syncState := .locked })
      ∧ (mode = 1 → s.time.syncState = .locked → ¬good → missed (.syncInEdge sub))
      ∧ (mode = 1 → s.time.syncState = .locked → missed .syncMissTimeout)
      ∧ (mode = 2 → exec .syncOutPulse s = .next { s with time := { s.time with syncOut := some (4000 * s.time.ticks - total % (2 ^ 32 * period) * 4000 / max 1 s.time.increment) } })
      ∧ (mode = 2 → ∀ b, s.time.syncOut = some b → (s.syncOutHigh = true ↔ 4000 * s.time.ticks < b + 128000))
      ∧ (mode = 2 → ∀ (q : QId) (b : Block) (rest : List Block) (since : Nat), (s.quire q).seq.wait = some (.trig since none) → (s.quire q).seq.plan = b :: rest → (s.quire q).state = .running →
          fld ((s.quire q).cfg 0x02 (32 * b.entry + 8)) 30 2 = 0 →
          let edge := 4000 * s.time.ticks + sub
          ∃ t, exec (.syncInEdge sub) s = .next t
            ∧ (since < edge → t.quire q = ({ s.quire q with seq := { (s.quire q).seq with wait := some (.trig since (some (edge + 64000))) } } : Quire).dropLanding)
            ∧ (edge ≤ since → t.quire q = s.quire q))

/-- Time messages: Sync and Follow_Up are paired by their sequence, the Delay_Req that follows is sent and stamped, and the Delay_Resp that answers it gives offset and delay; a message that does not fit is counted and dropped, and one that comes while the Spine restarts waits (R637, R668 to R675). The model's choices that it rests on: log entries 132, 135, 163. -/
def Obligations.TimeTransfer : Prop :=
  ∀ (s : State) (k : LinkId) (m : List Byte) (sub : Nat),
    let x := s.time.ptp[k]
    let seq := be m 30 2
    let corr := be64 m 8
    let stamp := s.stampAt sub
    let base := rk 2 (0x100 + 0x40 * k.val)
    let header := fun (type len : Nat) => m.length = len ∧ (m.getD 0 0).toNat = type ∧ (m.getD 1 0).toNat = 0x12 ∧ be m 2 2 = len ∧ (m.getD 4 0).toNat = fld (s.reg (rk 2 0x1C)) 16 8
    let makes := fun (i : Instr) (y : Ptp) => ∃ t, exec i s = .next t ∧ t.sent = s.sent ∧ ({ s with time := { s.time with ptp := s.time.ptp.set k y } } : State).Booked t
    let dropped := fun (i : Instr) => ∃ t, exec i s = .next t ∧ t.sent = s.sent ∧ s.Booked t [base + 0x3C]
    (s.link k).phase = .up → bit (s.reg (rk 2 0x1C)) k.val = true →
      (s.restarting = true → exec (.followUp k m) s = .next { s with heldTimes := s.heldTimes ++ [{ link := k, type := 8, bytes := m, stamp := none }] }
        ∧ exec (.sync k m sub) s = .next { s with heldTimes := s.heldTimes ++ [{ link := k, type := 0, bytes := m, stamp := if s.timingRuns then some stamp else none }] })
      ∧ (s.restarting = false →
      (header 0 44 → (m.getD 6 0).getLsbD 1 = true → s.timingRuns = true → makes (.sync k m sub) { x with syncMsg := some (BitVec.ofNat 16 seq, corr, stamp), t2 := stamp })
      ∧ (¬(header 0 44 ∧ (m.getD 6 0).getLsbD 1 = true ∧ s.timingRuns = true) → dropped (.sync k m sub))
      ∧ (∀ y, x.syncMsg = some y → header 8 44 → y.1.toNat = seq →
          makes (.followUp k m) { x with syncMsg := none, completed := some (y.1, ((be m 34 6 * 1000000000 + be m 40 4 : Nat) : Int), y.2.1 + corr, y.2.2), dreqDue := x.dreqDue + if bit (s.reg (rk 2 0x1C)) (8 + k.val) then 1 else 0 })
      ∧ (∀ y, x.syncMsg = some y → y.1.toNat ≠ seq → dropped (.followUp k m))
      ∧ (0 < x.dreqDue → s.timingRuns = true → x.tsq.length < 16 →
          ∃ t req, exec (.delayReq k sub) s = .next t ∧ (t.link k).classes[(3 : Fin 4)].txQueue = (s.link k).classes[(3 : Fin 4)].txQueue ++ [req]
            ∧ req.length = 44 ∧ req.take 2 = [0x01, 0x12] ∧ be req 30 2 = x.dreqSeq.toNat ∧ be req 34 6 = stamp.ns / 1000000000 % 2 ^ 48 ∧ be req 40 4 = stamp.ns % 1000000000
            ∧ t.time.ptp[k] = { x with dreqDue := x.dreqDue - 1, dreqSeq := x.dreqSeq + 1, dreq := some (x.dreqSeq, stamp), tsq := x.tsq ++ [{ msgType := 1, seqId := x.dreqSeq, stamp := stamp }] }
            ∧ t = { s with links := t.links, time := t.time })
      ∧ (0 < x.dreqDue → s.timingRuns = false → exec (.delayReq k sub) s = .next { s with time := { s.time with ptp := s.time.ptp.set k { x with dreqDue := x.dreqDue - 1 } } })
      ∧ (∀ d c, x.dreq = some d → x.completed = some c → header 9 54 → (m.drop 44).take 10 = portIdentity k → d.1.toNat = seq →
          let ms := c.2.2.2.units - c.2.1 * 2 ^ 16 - c.2.2.1
          let sm := ((be m 34 6 * 1000000000 + be m 40 4 : Nat) : Int) * 2 ^ 16 - d.2.units - corr
          makes (.delayResp k m) { x with dreq := none, exchValid := true, exchSeq := c.1, delay := (ms + sm) / 2, offset := ms - (ms + sm) / 2 })
      ∧ (∀ d, x.dreq = some d → d.1.toNat ≠ seq → dropped (.delayResp k m)))

/-- Kettle frames: a member loads chip time from TIME_LOAD by the hops and the wire, and forwards every frame with its `HOP` one more; a master takes its PING back; a frame of a reserved type or with a wrong CRC is counted and forwarded with its CRC inverted (R692 to R696). The model's choices that it rests on: log entries 134, 135, 167. -/
def Obligations.KettleFrames : Prop :=
  ∀ (s : State) (f : BitVec 96) (age : FrameAge) (round : Nat),
    let role := fld (s.reg (rk 3 0x100)) 30 2
    let wire := fld (s.reg (rk 3 0x100)) 0 24
    let type := f.toNat / 2 ^ 8 % 16
    let hop := f.toNat / 2 ^ 12 % 256
    let payload := f.toNat / 2 ^ 20 % 2 ^ 64
    let right := f.toNat / 2 ^ 84 = (crc12 f).toNat
    let passedOn := fun (g : BitVec 96) => g.toNat / 2 ^ 12 % 256 = (hop + 1) % 256 ∧ g.toNat / 2 ^ 8 % 16 = type ∧ g.toNat / 2 ^ 20 % 2 ^ 64 = payload
    let total := 2 ^ 32 * (payload + hop * 120) + 2 ^ 32 * wire / 1000
    let now := total + age.ago * s.time.increment / 4000
    let law : TimeLaw := { till := 4000 * s.time.ticks, total := 2 ^ 32 * s.time.ns + s.time.frac, increment := s.time.increment }
    (role = 2 → right → type = 1 → s.timingRuns = true → s.syncMode = 0 →
      ∃ t g, exec (.timeLoad f age) s = .next t ∧ passedOn g ∧ g.toNat / 2 ^ 84 = (crc12 g).toNat
        ∧ ({ s with time := { s.time with ns := now / 2 ^ 32 % 2 ^ 64, frac := now % 2 ^ 32, past := law :: s.time.past, valid := true, kcHop := BitVec.ofNat 8 hop, kco := some g } } : State).Tallies t [rk 3 0x110, rk 2 0x20])
    ∧ (role = 2 → right → type = 1 → s.timingRuns = false →
      ∃ t g, exec (.timeLoad f age) s = .next t ∧ passedOn g
        ∧ ({ s with time := { s.time with pending := s.time.pending ++ [.load total age.beforeStop], kcHop := BitVec.ofNat 8 hop, kco := some g } } : State).Tallies t [rk 3 0x110])
    ∧ (role = 1 → right → type = 2 → s.time.pingOut = true →
      ∃ t, exec (.ping f round) s = .next t
        ∧ ({ s with time := { s.time with pingOut := false, kcHop := BitVec.ofNat 8 hop, kcRingHops := BitVec.ofNat 8 hop, kcRoundNs := BitVec.ofNat 32 round } } : State).Tallies t [rk 3 0x110])
    ∧ (s.time.pingOut = true → exec .pingTimeout s = .next { s with time := { s.time with pingOut := false, kcRoundNs := 0xFFFFFFFF } })
    ∧ (role = 1 → ¬right ∨ (type ≠ 1 ∧ type ≠ 2) → ∃ t, exec (.reservedTypeFrame f) s = .next t ∧ s.Tallies t [rk 3 0x114])
    ∧ (role = 2 → ¬right ∨ (type ≠ 1 ∧ type ≠ 2) → ∃ t g, exec (.reservedTypeFrame f) s = .next t ∧ passedOn g ∧ g.toNat / 2 ^ 84 ≠ (crc12 g).toNat
        ∧ ({ s with time := { s.time with kco := some g } } : State).Tallies t [rk 3 0x114])

/-- What stops the timing domain or takes a source out: lock loss, a drift of more than 200 ppm (2,000 ps of a window), lost edges and an adoption of REC; a stop leaves every quire in its run STOPPED by CLOCK and chip time not valid, and the other source follows where it is good (R648 to R656, R658, R834). The model's choices that it rests on: log entries 129, 130. -/
def Obligations.ClockStops : Prop :=
  ∀ (s : State) (missing : Nat) (drift : Int),
    let c := s.clock
    let recGood := c.recovered = .good ∧ bit (s.reg (rk 1 0)) 0 = true
    let stops := fun (i : Instr) (src : TimingSrc) (lost : Word) (also : State → Prop) =>
      ∃ t, exec i s = .next t ∧ t.clock.timingSrc = src ∧ t.clock.domain = (if src = .none then .stopped else .locking) ∧ t.time.valid = false ∧ t.time.validBefore = s.time.valid
        ∧ t.time.ns = s.time.ns ∧ t.reg (rk 1 0x0C) = lost ∧ also t
        ∧ ∀ q, (s.quire q).state.inRun = true → (∀ d, (s.quire q).occupied ≠ some (.rebind d)) → (t.quire q).state = .stopped ∧ (t.quire q).stopCause = .clock
    let reported := fun (checker : Nat) (t : State) => ∃ r, t.collector.reports = s.collector.reports ++ [r] ∧ r.checker = checker ∧ r.severity = .alert ∧ ∀ q, q ∈ r.acts ↔ (s.quire q).state.inRun = true
    (∀ e, injecting 0x01 e s.collector.injections = false ∧ injecting 0x04 e s.collector.injections = false ∧ injecting 0x05 e s.collector.injections = false) →
      (c.domain = .running → c.timingSrc = .xo → c.xo = .good → stops .pllLockLoss .xo 24 (reported 0x05))
      ∧ (c.domain = .running → c.timingSrc = .recovered → recGood → stops .pllLockLoss .recovered 24 (reported 0x05))
      ∧ (c.domain = .running → c.timingSrc = .xo → recGood → c.adoptedOnce = false ∨ bit (s.reg (rk 1 0)) 1 = true → (∀ q, (s.quire q).state.inRun = false) →
          stops .recAdoption .recovered 24 fun _ => True)
      ∧ (c.xoArmed = true → 16 ≤ missing → ∃ r : Report, r.severity = .chip ∧ r.checker = 0x01 ∧ r.cause = 0x11
          ∧ exec (.xoEdgeLoss missing) s = .next { s with collector := { s.collector with reports := s.collector.reports ++ [r] } })
      ∧ (c.xoArmed = true → 0 < missing → missing < 16 → c.timingSrc ≠ .xo →
          ∃ t, exec (.xoEdgeLoss missing) s = .next t
            ∧ ({ s with clock := { c with xo := .judging, xoWindows := 0, ctrlOnLro := true, recWindows := if c.recovered = .judging then 0 else c.recWindows } } : State).Tallies t [rk 1 0x20])
      ∧ (c.xoArmed = true → 0 < missing → missing < 16 → c.timingSrc = .xo → c.domain = .running → recGood →
          stops (.xoEdgeLoss missing) .recovered 24 fun t => t.clock.xo = .judging ∧ Counted 1 (s.reg (rk 1 0x20)) (t.reg (rk 1 0x20)))
      ∧ (c.recovered = .good → c.xo = .good → |drift| ≤ 2000 → exec (.monitorWindow drift) s = .next { s with clock := { c with recPpm := BitVec.ofInt 16 (drift.tdiv 10) } })
      ∧ (c.recovered = .good → c.xo = .good → 2000 < |drift| → s.collector.real.getLsbD 4 = false → c.timingSrc = .recovered → c.domain = .running →
          stops (.monitorWindow drift) .xo 24 fun t => t.clock.recovered = .failed ∧ t.collector.live.getLsbD 4 = true ∧ reported 0x04 t ∧ Counted 1 (s.reg (rk 1 0x18)) (t.reg (rk 1 0x18)))
      ∧ (16 ≤ missing → c.timingSrc = .recovered → c.domain = .running → s.collector.real.getLsbD 4 = false →
          ∃ t, exec (.recEdgeLoss missing) s = .next t ∧ t.clock = { c with recovered := .failed, recWindows := 0, next := .xo, domain := .stopping, stopInjected := false } ∧ t.time = s.time
            ∧ reported 0x04 t ∧ Counted 1 (s.reg (rk 1 0x18)) (t.reg (rk 1 0x18)))
      ∧ (16 ≤ missing → c.timingSrc = .recovered → c.domain = .stopping → s.collector.real.getLsbD 4 = true →
          ∃ t, exec (.recEdgeLoss missing) s = .next t ∧ t.clock = { c with recovered := .failed, recWindows := 0, next := .xo } ∧ t.time = s.time
            ∧ t.collector.reports = s.collector.reports ∧ Counted 1 (s.reg (rk 1 0x18)) (t.reg (rk 1 0x18)))
      ∧ (missing < 16 → exec (.recEdgeLoss missing) s = .next s)
      ∧ (c.domain = .stopping → c.next = .xo → c.xo = .good →
          stops .stopHandshakeTimeout .xo 0xFFFFFFFF fun t => Counted 1 (s.reg (rk 1 0x1C)) (t.reg (rk 1 0x1C)))

/-- Three windows in a row make a source GOOD: the XO within 10 % of the LRO, or within 100 ppm of REC while that is GOOD, and REC within 100 ppm of the XO; a window outside starts again, a failed REC is judged anew, and with the PLL locked the domain runs again: chip time goes on by the stop where it was short, and a new source is a switch (R645 to R647, R650, R653, R656, R683, R865). The model's choices that it rests on: log entries 127, 129, 130. -/
def Obligations.ClockJudgement : Prop :=
  ∀ (s : State) (w : WindowDrift) (relock stopNs : Nat),
    let c := s.clock
    let xoIn := if c.recovered = .good then |w.other| ≤ 1000 else |w.lro| ≤ 1000000
    let recIn := |w.other| ≤ 1000
    let judged := c.recovered = .judging ∧ bit (s.reg (rk 1 0)) 0 = true ∧ c.xo = .good ∧ (s.lane (laneId (fld (s.reg (rk 1 0)) 16 4))).lock = true
    let counted := fun (i : Instr) (d : Clock) => exec i s = .next { s with clock := d }
    let short := stopNs ≤ 3 * fld (s.reg (rk 3 0)) 0 16
    let rates := ∀ x ∈ s.time.pending, ∃ i, x = TimeChange.adj i
    (2 ≤ s.boot.step → c.xo ≠ .good → ¬xoIn → counted (.judgeWindow .xo w) { c with xoWindows := 0 })
    ∧ (2 ≤ s.boot.step → c.xo ≠ .good → xoIn → c.xoWindows < 2 → counted (.judgeWindow .xo w) { c with xoWindows := c.xoWindows + 1 })
    ∧ (2 ≤ s.boot.step → c.xo ≠ .good → xoIn → 2 ≤ c.xoWindows → s.boot.step < 6 ∨ c.domain ≠ .stopped →
        exec (.judgeWindow .xo w) s = .next { s with clock := { c with xo := .good, xoWindows := 3, ctrlOnLro := false, xoArmed := true }, boot := { s.boot with xoGood := true } })
    ∧ (c.recovered = .judging → ¬judged ∨ ¬recIn → counted (.judgeWindow .recovered w) { c with recWindows := 0 })
    ∧ (judged → recIn → c.recWindows < 2 → counted (.judgeWindow .recovered w) { c with recWindows := c.recWindows + 1 })
    ∧ (judged → recIn → 2 ≤ c.recWindows → ∃ t, exec (.judgeWindow .recovered w) s = .next t ∧ t.clock = { c with recovered := .good, recWindows := 3 } ∧ t.collector.real.getLsbD 4 = false ∧ t.time = s.time)
    ∧ (c.recovered = .failed → counted .recRejudge { c with recovered := .judging, recWindows := 0 })
    ∧ (c.domain = .locking →
        ∃ t, exec (.timingRestart relock stopNs) s = .next t ∧ t.clock = { c with domain := .running, adoptedOnce := c.adoptedOnce || c.timingSrc = .recovered }
          ∧ t.reg (rk 1 0x10) = BitVec.ofNat 32 relock ∧ t.time.ticks = s.time.ticks + stopNs ∧ t.collector.real.getLsbD 5 = false
          ∧ (c.lastSrc ≠ .none → c.timingSrc ≠ c.lastSrc → Counted 1 (s.reg (rk 1 0x14)) (t.reg (rk 1 0x14)))
          ∧ (c.lastSrc = .none ∨ c.timingSrc = c.lastSrc → t.reg (rk 1 0x14) = s.reg (rk 1 0x14))
          ∧ (c.lastSrc ≠ .none → short → rates → 2 ^ 32 * t.time.ns + t.time.frac = (2 ^ 32 * s.time.ns + s.time.frac + 2 ^ 32 * stopNs) % 2 ^ 96 ∧ t.time.valid = s.time.validBefore)
          ∧ (c.lastSrc = .none ∨ ¬short ∨ ¬rates → t.time.ns = s.time.ns ∧ t.time.valid = s.time.valid)
          ∧ (c.lastSrc ≠ .none → ¬short → s.syncMode = 1 → t.time.syncState = .wait))

/-! ### Reset, boot and boundary scan -/

/-- A fall of `RESET_N` or of a rail, CHIP_RESET, and every boundary-scan instruction that holds it, put everything but the Sinter log, the flash and the straps at its reset value; the other scan instructions change nothing but what the scan register shows (R21, R603, R636, R781, R827, R830, R832, R851, R853, R854). The model's choices that it rests on: log entry 150. -/
def Obligations.InternalReset : Prop :=
  ∀ (s : State) (h : Hdr) (p : Params) (rail : Rail),
    let down := fun (b : Boot) (t : State) =>
      t = { State.reset with
        pending := s.pending, sent := t.sent, fresh := s.fresh, modeOz := s.modeOz, log := t.log, flash := s.flash, boot := b, quires := t.quires
        time := { State.reset.time with ticks := s.time.ticks } }
      ∧ ∀ q, t.quire q = { Quire.reset with
          vpinOk := (s.quire q).vpinOk, vpinHeld := (s.quire q).vpinHeld, vpinMv := (s.quire q).vpinMv, vpinGood := (s.quire q).vpinGood
          vpinSetpoint := (s.quire q).vpinSetpoint, vpinFrom := (s.quire q).vpinFrom, vpinSince := (s.quire q).vpinSince }
    let causes := { State.reset.boot with resetNLow := s.boot.resetNLow, railFallen := s.boot.railFallen, vsramFallen := s.boot.vsramFallen, scan := s.boot.scan }
    let holds := fun (i : Instr) (x : ScanInstr) => ∃ t, exec i s = .next t ∧ down { causes with scan := x } t ∧ t.sent = s.sent ∧ t.log = s.log
    let shows := fun (i : Instr) (x : ScanInstr) => exec i s = .next { s with boot := { s.boot with scan := x } }
    (∃ t, exec .resetNFall s = .next t ∧ down { causes with resetNLow := true } t ∧ t.sent = s.sent ∧ t.log = s.log)
    ∧ (∃ t, exec (.railFall rail) s = .next t ∧ down { causes with railFallen := true, vsramFallen := s.boot.vsramFallen || rail = .vsram } t ∧ t.sent = s.sent ∧ t.log = s.log)
    ∧ (s.Takes opChipReset h p → par p 0 4 = 0x7248 → s.boot.vsramFallen = false →
        ∃ t, exec (.chipReset h p) s = .next t ∧ s.Answers t h opChipReset stOk 0 [] ∧ down { State.reset.boot with step := 1, resetNLow := false, vsramFallen := false, scan := s.boot.scan } t)
    ∧ holds .extest .extest ∧ holds .extestPulse .extestPulse ∧ holds .extestTrain .extestTrain ∧ holds .clamp .clamp ∧ holds .highz .highz
    ∧ shows .idcode .idcode ∧ shows .samplePreload .samplePreload ∧ shows .bootStatus .bootStatus ∧ shows .bypass .bypass
    ∧ (s.boot.scan = .idcode → s.scanRegister = some (32, 0x27248B47)) ∧ (s.boot.scan = .bypass → s.scanRegister = some (1, 0))
    ∧ (s.boot.scan = .bootStatus → ∃ w : Word, s.scanRegister = some (32, w)
        ∧ (s.boot.step < 16 → s.boot.ms < 65536 → w.toNat / 2 ^ 28 = s.boot.step ∧ w.toNat % 2 ^ 16 = s.boot.ms ∧ w.getLsbD 27 = s.boot.xoGood ∧ w.getLsbD 26 = s.boot.patchNone
            ∧ w.getLsbD 25 = s.boot.storeInvalid ∧ w.getLsbD 24 = s.boot.partitionDefault ∧ w.toNat / 2 ^ 16 % 256 = s.boot.linksUp.toNat))

/-- The steps of boot: what starts it, and what each step's end leaves; with step 6 the rails of the board record are turned on and given their setpoints, VPINq 1,200 mV (R3, R312, R523, R524, R730, R781, R827, R831 to R838). The model's choices that it rests on: log entries 12, 150, 185. -/
def Obligations.BootSteps : Prop :=
  ∀ (s : State) (ball : Bool) (ms : Nat) (ranks : List (BitVec 3)),
    let done := Instr.bootStepDone ms ranks
    let noted := { s.boot with ms := min 0xFFFF ms }
    let untrained := ∀ k, (s.link k).phase ≠ .training
    let goodRanks := fun (q : QId) => ranks.getD q.val 0
    let ramped := fun (x : Quire) => { x with vpinSetpoint := 1200, vpinFrom := x.vpinRamp s.time.ticks, vpinSince := s.time.ticks, heldStream := false }
    exec .railWindowSettled s = .next { s with boot := { s.boot with railFallen := false } }
    ∧ exec (.bootStart ball false) s = .next s
    ∧ (s.boot.resetNLow = true → s.boot.railFallen = false → s.boot.scan.holds = false → s.boot.step = 0 →
        exec (.bootStart ball true) s = .next { s with
          modeOz := ball, log := if s.boot.vsramFallen then SinterLog.reset else s.log
          boot := { State.reset.boot with step := 1, resetNLow := false, vsramFallen := false, scan := s.boot.scan } })
    ∧ (s.boot.resetNLow = true → s.boot.railFallen = true ∨ s.boot.scan.holds = true →
        exec (.bootStart ball true) s = .next { s with modeOz := ball, boot := { s.boot with resetNLow := false } })
    ∧ (s.boot.step = 1 → exec done s = .next { s with boot := { noted with step := 2 } })
    ∧ (s.boot.step = 2 → exec done s = .next { s with boot := { noted with step := if s.clock.xo = .good then 3 else 2 } })
    ∧ (s.boot.step = 3 → ∃ t, exec done s = .next t ∧ t.boot.step = 4 ∧ t.quires = s.quires
        ∧ (partValid s.flash.partition = false → t.boot.partitionDefault = true ∧ ∀ k : LinkId,
            (t.link k).isDefined = decide (k.val < 2) ∧ (k.val < 2 → (t.link k).base = 8 * k.val ∧ (t.link k).width = 8 ∧ (t.link k).phase = .training)))
    ∧ (s.boot.step = 4 → untrained → ∃ up : Byte, exec done s = .next { s with boot := { noted with step := 5, linksUp := up } }
        ∧ ∀ k : LinkId, up.getLsbD k.val = true ↔ (s.link k).phase = .up ∨ (s.link k).phase = .changing)
    ∧ (s.boot.step = 5 → ∃ t, exec done s = .next t ∧ t.boot.step = 6 ∧ t.quires = s.quires
        ∧ t.clock.timingSrc = (if s.clock.recovered = .good ∧ bit (s.reg (rk 1 0)) 0 = true then .recovered else if s.clock.xo = .good then .xo else .none)
        ∧ t.clock.domain = (if t.clock.timingSrc = .none then .stopped else .locking))
    ∧ (s.boot.step = 6 → s.heldPackets = [] → s.heldReplies = [] → s.heldTimes = [] → ∃ t, exec done s = .next t ∧ t.boot.step = 7
        ∧ (∀ i : Fin 2, s.flash.banks[i].valid = true → s.flash.banks[1 - i].valid = true → s.flash.banks[1 - i].generation < s.flash.banks[i].generation →
            t.cal.storeValid = true ∧ t.cal.bank = decide (i = 1) ∧ t.cal.generation = s.flash.banks[i].generation
              ∧ (∀ q, t.quire q = { ramped (s.quire q) with cal := (t.quire q).cal, dram := { (s.quire q).dram with board := s.flash.banks[i].dram.getD q.val 0 } })
              ∧ ∀ r < 9, bit (s.flash.banks[i].rails.getD r 0) 31 = true → (∃ f ∈ t.gov.bus, f.rail = r ∧ f.code = 0x01) ∧ ∃ f ∈ t.gov.bus, f.rail = r ∧ f.code = 0x21)
        ∧ (s.flash.banks[0].valid = false → s.flash.banks[1].valid = false → t.cal.storeValid = false ∧ t.boot.storeInvalid = true ∧ ∀ q, t.quire q = ramped (s.quire q)))
    ∧ (s.boot.step = 7 → ∃ t, exec done s = .next t ∧ t = { s with boot := { noted with step := 8 }, quires := t.quires }
        ∧ ∀ q, t.quire q = { s.quire q with dram := (t.quire q).dram }
          ∧ (s.cal.storeValid = true → (s.quire q).dram.board.getLsbD 0 = true → (s.quire q).dram.board.getLsbD 1 = true → fld (s.quire q).dram.board 28 2 ≠ 3 →
              ((goodRanks q).getLsbD 0 = true → (goodRanks q).getLsbD 1 = true → (t.quire q).dram.available = true ∧ (t.quire q).dram.physL0 = 0 ∧ (t.quire q).dram.physL1 = 1
                ∧ ((goodRanks q).getLsbD 2 = true → (s.quire q).dram.board.getLsbD 2 = true → (t.quire q).dram.spareOk = true ∧ (t.quire q).dram.ranks = #v[.active, .active, .spare]))
              ∧ ((goodRanks q).getLsbD 0 = true → (goodRanks q).getLsbD 1 = false → (goodRanks q).getLsbD 2 = true → (s.quire q).dram.board.getLsbD 2 = true →
                (t.quire q).dram.available = true ∧ (t.quire q).dram.physL0 = 0 ∧ (t.quire q).dram.physL1 = 2 ∧ (t.quire q).dram.ranks = #v[.active, .failed, .active]))
          ∧ (s.cal.storeValid = false → (t.quire q).dram.available = false))
    ∧ (s.boot.step = 8 → ∃ t, exec done s = .next t ∧ t.boot.step = 9
        ∧ ∀ q, ((s.quire q).vpinHeld = true → (t.quire q).state = .parked ∧ (t.quire q).staging = []) ∧ ((s.quire q).vpinHeld = false → t.quire q = s.quire q))

/-! ### Control of the quires -/

/-- COLLATE checks phases 1 to 3 and names the lowest address that fails; from then on it occupies the quire, and class 2 items are due. Its completion waits for them, and commits the staging copy in one step, unless one of them failed or the reservation exceeds the session's allocation; with a changed VPIN_SET the reply waits until VPINq has settled: its ramp of 1 mV/µs has ended, and it has been in window since, for 100 µs (R112, R312, R313, R315, R612 to R616). The model's choices that it rests on: log entries 46, 47, 48, 51, 54, 55, 56. -/
def Obligations.Collation : Prop :=
  ∀ (s : State) (h : Hdr) (p : Params) (q : QId) (d : ReplyTo) (k : LinkId) (mv ns : Nat),
    let x := s.quire q
    let y := { x with committed := some x.staging }
    let address := fun (key : Nat) => le 4 (if key = 0 then 0 else 2 ^ 28 * (q.val + 1) + key)
    let fails := fun (phase : Nat) (st : Byte) (key : Nat) => ∃ t time, exec (.collate h p) s = .next t ∧ t.quires = s.quires
      ∧ s.Answers t h opCollate st (BitVec.ofNat 16 (4096 * phase)) (address key ++ le 4 time)
    let work := (y.validSigs.filter y.derives).filter fun g => !x.reuses y g && decide (y.deriveItems g ≠ 0)
    let n := x.phase4 y
    let complete := Instr.collationComplete q mv ns
    let ends := fun (st : Byte) (phase key : Nat) (also : Quire → Prop) => ∃ t, exec complete s = .next t
      ∧ s.Replied t d st (BitVec.ofNat 16 (4096 * phase)) (address key ++ le 4 ns) ∧ (t.quire q).occupied = none ∧ also (t.quire q) ∧ ∀ r, r ≠ q → t.quire r = s.quire r
    let kept := fun (z : Quire) => z.state = x.state ∧ z.committed = x.committed ∧ z.staging = x.staging ∧ z.derivation = none
    let commits := fun (z : Quire) => z.state = .collated ∧ z.committed = some x.staging ∧ z.staging = x.staging ∧ z.dirty = 0 ∧ z.sealedPages = 0 ∧ z.everCommitted = true
      ∧ z.reserveMw = n.runReserve ∧ z.derivation = none ∧ z.vpinSetpoint = y.vpinSet
    let rampUs := (x.vpinSetpoint - x.vpinFrom) + (x.vpinFrom - x.vpinSetpoint)
    let settled := x.vpinSince + 1000 * rampUs + 100000 ≤ s.time.ticks ∧ x.vpinOk = true ∧ x.vpinGood + 100000 ≤ s.time.ticks ∧ x.vpinSetpoint ≤ mv + 40 ∧ mv ≤ x.vpinSetpoint + 40
    (s.Takes opCollate h p → h.qmask = BitVec.ofNat 8 (2 ^ q.val) → x.state = .staged →
      (y.phase1 = [] → y.phase2 s.modeOz = [] → y.phase3 s.cal.storeValid = [] →
        s.Begins (.collate h p) h opCollate (s.setQuire q { x.startDerived true work with occupied := some (.collate (hdrDest h 0x10)) }))
      ∧ (∀ a ∈ y.phase1, (∀ b ∈ y.phase1, a ≤ b) → fails 1 stCollation a)
      ∧ (y.phase1 = [] → ∀ a ∈ y.phase2 s.modeOz, (∀ b ∈ y.phase2 s.modeOz, a ≤ b) → fails 2 stCollation a)
      ∧ (y.phase1 = [] → y.phase2 s.modeOz = [] → ∀ a ∈ y.phase3 s.cal.storeValid, (∀ b ∈ y.phase3 s.cal.storeValid, b = a ∨ a.1 < b.1) → fails 3 a.2 a.1))
    ∧ (x.occupied = some (.collate d) → s.Owes d → x.owner = some k →
      (∀ v g, x.derivation = some v → v.failed = some g → ends stCollation 4 (rk 0x03 (16 * g)) kept)
      ∧ ((∀ v, x.derivation = some v → v.failed = none) →
        (x.derivedDone = false → exec complete s = .next s)
        ∧ (x.derivedDone = true → n.runReserve ≤ s.allocation k →
          (y.vpinSet = x.vpinSetpoint → ends stOk 0 0 commits)
          ∧ (y.vpinSet ≠ x.vpinSetpoint → ∃ t, exec complete s = .next t ∧ t.sent = s.sent ∧ commits (t.quire q) ∧ (t.quire q).occupied = some (.settle d ns s.time.ticks)
              ∧ (t.quire q).vpinFrom = x.vpinRamp s.time.ticks ∧ (t.quire q).vpinSince = s.time.ticks ∧ ∀ r, r ≠ q → t.quire r = s.quire r))
        ∧ (x.derivedDone = true → s.allocation k < n.runReserve → ends stBudget 5 0 kept)))
    ∧ (∀ began since, x.occupied = some (.settle d began since) → s.Owes d →
      (settled → ends stOk 0 0 fun z => z = { x with occupied := none, vpinMv := mv % 65536 })
      ∧ (¬settled → exec complete s = .next s))

/-- ARM parks the outputs, makes the quires ARMED and replies when the event FIFOs hold 8 chunks; a quire of an ARM of several stays occupied until the command replies; START begins the run now or at its time, waits for VCORE, or is refused whole by the governor, and one that lapses releases the reservations it made (R37, R38, R105, R589, R617, R624 to R626, R664, R687, R710 to R718, R733). The model's choices that it rests on: log entries 33, 58, 60, 167. -/
def Obligations.ArmAndStart : Prop :=
  ∀ (s : State) (h : Hdr) (p : Params) (q : QId) (d : ReplyTo) (w : StartWait) (mv : Nat),
    let x := s.quire q
    let sel := fun (m : Byte) (r : QId) => m.getLsbD r.val = true
    let others := fun (m : Byte) (t : State) => ∀ r, ¬sel m r → t.quire r = s.quire r
    let at_ := parT12 s.modeOz p 0
    let runs := fun (origin instant : Nat) (a b : Quire) => b.state = .running ∧ b.originNs = origin ∧ b.originAt = instant ∧ b.vecCount = 0 ∧ b.elapsed = 0 ∧ b.startPending = none
      ∧ b.verdicts = [] ∧ b.seq.entry = a.startEntry ∧ b.termOn = a.termSet ∧ Counted 1 (a.liveReg (rk 0 4)) (b.liveReg (rk 0 4))
    let counts := fun (key : Nat) (t : State) => Counted 1 (s.reg key) (t.reg key)
    let admitted := s.admits h.link h.qmask = true ∧ s.vcoreReaches h.qmask = true
    let near := s.vcoreTarget ≤ mv % 2048 + 10 ∧ mv % 2048 ≤ s.vcoreTarget + 10
    let lapses := fun (reading : Option Nat) => ∃ t, exec (.startVcoreReady reading true) s = .next t ∧ s.Replied t w.dest stBudget 0 (maskBytes w.mask fun _ => stBudget) ∧ t.gov.waiting = []
      ∧ counts (rk 5 0x304) t ∧ ∀ r, t.quire r = if sel w.newly r then { s.quire r with reserved := false } else s.quire r
    (s.Takes opArm h p →
      (∀ r, sel h.qmask r → s.owns h.link r = true ∧ ((s.quire r).state = .collated ∨ (s.quire r).state = .stopped) ∧ ∀ j, (s.quire r).pmu = some j → bit ((s.quire r).cfg 0x0A 0) j.pin = true) →
      ∃ t, exec (.arm h p) s = .next t ∧ t.sent = s.sent ∧ others h.qmask t ∧ ∀ r, sel h.qmask r → let y := t.quire r
        y.state = .armed ∧ y.occupied = some (.arm (hdrDest h 0x11)) ∧ y.pins = List.replicate 32 .highZ ∧ y.termOn = 0 ∧ y.seq.entry = (s.quire r).startEntry
          ∧ (∀ b ∈ y.seq.plan, b.isWait = true) ∧ y.committed = (s.quire r).committed)
    ∧ (x.occupied = some (.arm d) → 8 ≤ x.fifo.length → x.dram.changing = none → x.dram.available = false ∨ x.dram.rateSet = false ∨ x.sramOnly = true → s.OwesOne d q →
      ∃ t, exec (.armFillDone q) s = .next t ∧ s.Replied t d stOk 0 (maskBytes d.qmask fun _ => stOk) ∧ t.quire q = { x with occupied := none } ∧ ∀ r, r ≠ q → t.quire r = (s.quire r).unoccupy d)
    ∧ (x.occupied = some (.arm d) → 8 ≤ x.fifo.length → x.dram.changing = none → x.dram.available = false ∨ x.dram.rateSet = false ∨ x.sramOnly = true →
      (∃ m, s.maskWaits.find? (fun m => m.dest = d) = some m ∧ ∃ r, r ≠ q ∧ sel m.waiting r) →
      ∃ t, exec (.armFillDone q) s = .next t ∧ t.sent = s.sent ∧ t.quires = (s.setQuire q { x with occupied := some (.ended d) }).quires)
    ∧ (x.occupied = some (.arm d) → x.filled = false → exec (.armFillDone q) s = .next s)
    ∧ (s.Takes opStart h p → t12Ok s.modeOz p 0 = true → (∀ r, sel h.qmask r → s.owns h.link r = true) →
      ((∀ r, sel h.qmask r → (s.quire r).state = .armed) →
        (at_ = 0 → admitted → s.vcoreThere h.qmask = true → s.timingRuns = true →
          ∃ t, exec (.start h p) s = .next t ∧ s.Answers t h opStart stOk 0 (maskBytes h.qmask fun _ => stOk) ∧ others h.qmask t ∧ counts (rk 5 0x300) t
            ∧ ∀ r, sel h.qmask r → runs s.time.ns (4000 * s.time.ticks) (s.quire r) (t.quire r) ∧ (t.quire r).reserved = true)
        ∧ (at_ = 0 → admitted → s.vcoreThere h.qmask = false →
          ∃ t, exec (.start h p) s = .next t ∧ t.sent = s.sent ∧ others h.qmask t ∧ (∀ r, sel h.qmask r → t.quire r = { s.quire r with reserved := true })
            ∧ ∃ newly : Byte, (∀ r, sel newly r ↔ sel h.qmask r ∧ (s.quire r).reserved = false) ∧ t.gov.waiting = s.gov.waiting ++ [{ dest := hdrDest h 0x12, mask := h.qmask, newly := newly }])
        ∧ (s.time.ns + 2000 ≤ at_ → admitted → s.vcoreInTime h.qmask at_ = true →
          ∃ t, exec (.start h p) s = .next t ∧ s.Answers t h opStart stOk 0 (maskBytes h.qmask fun _ => stOk) ∧ others h.qmask t ∧ counts (rk 5 0x300) t
            ∧ ∀ r, sel h.qmask r → t.quire r = { s.quire r with reserved := true, startPending := some at_ })
        ∧ (at_ = 0 ∨ s.time.ns + 2000 ≤ at_ → ¬admitted ∨ (at_ ≠ 0 ∧ s.vcoreInTime h.qmask at_ = false) →
          ∃ t, exec (.start h p) s = .next t ∧ s.Answers t h opStart stBudget 0 (maskBytes h.qmask fun _ => stBudget) ∧ t.quires = s.quires ∧ counts (rk 5 0x304) t))
      ∧ (∀ r, sel h.qmask r → at_ = 0 → (s.quire r).state ≠ .armed → (∀ r' < r, ¬sel h.qmask r') →
          ∃ t, exec (.start h p) s = .next t ∧ t.quires = s.quires
            ∧ s.Answers t h opStart stState (detState 0 (s.quire r).state) (maskBytes h.qmask fun r' => if (s.quire r').state = .armed then stOk else stState)))
    ∧ (∀ at_, x.state = .armed → x.startPending = some at_ → s.timingRuns = true → at_ ≤ s.time.ns →
      ∃ t, exec (.startAtTime q) s = .next t ∧ s.Within t q ∧ runs at_ (s.ctx.instantOf at_) x (t.quire q))
    ∧ (s.gov.waiting = [w] → (∀ r, sel w.mask r → (s.quire r).state = .armed) → s.Owes w.dest →
      ((s.rail 0).present = true →
        (near → s.timingRuns = true →
          ∃ t, exec (.startVcoreReady (some mv) false) s = .next t ∧ s.Replied t w.dest stOk 0 (maskBytes w.mask fun _ => stOk) ∧ others w.mask t ∧ t.gov.vcoreMeas = mv % 2048
            ∧ ∀ r, sel w.mask r → runs s.time.ns (4000 * s.time.ticks) (s.quire r) (t.quire r))
        ∧ (¬near → ∃ t, exec (.startVcoreReady (some mv) false) s = .next t ∧ t.sent = s.sent ∧ t.quires = s.quires ∧ t.gov.waiting = [w] ∧ t.gov.vcoreMeas = mv % 2048)
        ∧ (¬near → lapses (some mv)))
      ∧ (s.vcoreThere w.mask = false → exec (.startVcoreReady none false) s = .next s ∧ lapses none))

/-- STOP ends ARMED at once and a run at its next boundary, where the instances in play end TRUNCATED and the outputs take the park profile, at once or one period later in a run that has played a cycle-mode set; PAUSE takes effect at a stall-safe vector, RESUME when the FIFOs hold enough (R50, R51, R110, R132 to R135, R275, R401, R626, R627). The model's choices that it rests on: log entries 58, 63, 64, 65, 160. A pause at a vector whose chunk is starved counts in STALL_PAUSES. -/
def Obligations.StopPauseResume : Prop :=
  ∀ (s : State) (h : Hdr) (p : Params) (q : QId) (d : ReplyTo),
    let x := s.quire q
    let sel := fun (r : QId) => h.qmask.getLsbD r.val = true
    let others := fun (t : State) => ∀ r, ¬sel r → t.quire r = s.quire r
    let freed := fun (op : Byte) (t : State) => ∀ r, ¬sel r → t.quire r = (s.quire r).unoccupy (hdrDest h op)
    let owned := ∀ r, sel r → s.owns h.link r = true
    let answered := fun (t : State) (o : OpSpec) (st : QId → Byte) => ∃ head, s.Answers t h o head 0 (maskBytes h.qmask st)
      ∧ ((∃ r, sel r ∧ st r = stDeferred) → head = stDeferred) ∧ ((∀ r, sel r → st r = stOk) → head = stOk)
    let safe := fun (y : Quire) => y.seq.wait = none ∧ ((∃ a, y.playing = some a ∧ a.isLast = false ∧ bit (y.cfg 0x02 (32 * a.entry)) 27 = true)
      ∨ (y.playing = none ∧ ∃ b rest, y.seq.plan = b :: rest ∧ b.begun < b.count ∧ bit (y.cfg 0x02 (32 * b.entry)) 27 = true))
    let pauses := fun (a b : Quire) => b.state = .paused ∧ b.hostPaused = true ∧ b.pausePending = false ∧ b.fifo = a.fifo ∧ b.slots = a.slots ∧ b.seq.plan = a.seq.plan ∧ b.insts.length = a.insts.length
      ∧ (a.endpaper.forced = false → b.insts = a.insts) ∧ b.pins = (a.takeProfile (fld (a.cfg 0x02 (32 * b.seq.entry)) 0 4)).pins
      ∧ (a.starved = true → Counted 1 (a.liveReg (rk 0x01 0x210)) (b.liveReg (rk 0x01 0x210))) ∧ (a.starved = false → b.liveReg (rk 0x01 0x210) = a.liveReg (rk 0x01 0x210))
    let resumes := fun (a b : Quire) => ∃ n m, s.time.ticks * 4000 ≤ a.position + n * max 1 a.holdPeriod ∧ (0 < n → a.position + (n - 1) * max 1 a.holdPeriod < s.time.ticks * 4000)
      ∧ ({ a with state := .running, hostPaused := false, resumePending := false, termOn := a.termSet, elapsed := a.elapsed + n * max 1 a.holdPeriod, vecCount := a.vecCount + n,
                     recent := if n = 0 then a.recent else a.holdStretch n :: a.recent, lowestFill := a.fill, highFill := 0, markers := m } : Quire).Counts b
      ∧ ((∀ i < 2, (a.marker i).awaits = []) → m = a.markers ∧ b.live = a.live)
    let park := fld (x.cfg 0x02 (32 * x.seq.entry)) 4 4
    let period := max 1 x.holdPeriod
    let boundary := if x.state = .paused ∨ x.seq.wait.isSome = true then x.position + (s.time.ticks * 4000 - x.position + period - 1) / period * period else x.position
    let parksAt := if x.seq.ozPlayed then boundary + x.holdPeriod else 0
    let full := fun (y : Quire) => y.headMissing = false ∧ (fld (y.cfg 0x01 0) 8 4 ≤ y.fifo.length ∨ y.restOfInstance ≤ y.fifo.length)
    (s.Takes opStop h p → owned →
      ((∀ r, sel r → (s.quire r).state = .armed ∧ (s.quire r).stopReq = none ∧ (s.quire r).stopWaiters = []) → s.gov.waiting = [] →
        ∃ t, exec (.stop h p) s = .next t ∧ s.Answers t h opStop stOk 0 (maskBytes h.qmask fun _ => stOk) ∧ freed 0x13 t
          ∧ ∀ r, sel r → (t.quire r).state = .stopped ∧ (t.quire r).stopCause = .host ∧ (t.quire r).pins = (s.quire r).pins ∧ (t.quire r).reserved = false ∧ (t.quire r).startPending = none)
      ∧ ((∀ r, sel r → (s.quire r).state.inPlay = true ∧ (s.quire r).stopReq = none) →
        ∃ t, exec (.stop h p) s = .next t ∧ t.sent = s.sent ∧ others t
          ∧ ∀ r, sel r → t.quire r = { s.quire r with pausePending := false, stopReq := some { cause := .host, rebind := false, waiter := some (hdrDest h 0x13) } }))
    ∧ (∀ (a : Play) (cause : StopCause), x.state.inPlay = true → x.playing = some a → a.isLast = false → cause = .host ∨ cause = .chip → s.heldPackets = [] → x.stopWaiters = [] →
      (x.stopReq = some { cause := cause, rebind := false, waiter := some d } → (∀ e, x.occupied ≠ some (.rebind e)) → s.OwesOne d q →
        ∃ t y, exec (.stopTakeEffect q) s = .next t ∧ t.quire q = y ∧ s.Replied t d stOk 0 (maskBytes d.qmask fun _ => stOk) ∧ (∀ r, r ≠ q → t.quire r = (s.quire r).unoccupy d)
          ∧ y.state = .stopped ∧ y.stopCause = cause ∧ y.fifo = [] ∧ y.slots = [] ∧ y.seq.plan = [] ∧ y.stopReq = none ∧ y.run.cutShort = true ∧ y.run.ended = true
          ∧ (x.spilled = [] → parksAt ≤ s.time.ticks * 4000 → y.pins = (x.takeProfile park).pins ∧ y.parkDue = none)
          ∧ (x.spilled = [] → s.time.ticks * 4000 < parksAt → y.pins = x.pins ∧ y.parkDue = some (park, parksAt)) ∧ y.insts.length = x.insts.length
          ∧ ∀ i ∈ y.insts, i.hold.isSome = true ∧ (i.causes.getLsbD 1 = true ∨ i ∈ x.insts))
      ∧ (x.stopReq = some { cause := cause, rebind := true, waiter := none } → x.occupied = some (.rebind d) → s.OwesOne d q →
        ∃ t, exec (.stopTakeEffect q) s = .next t ∧ (t.quire q).state = .staged ∧ (t.quire q).staging = x.inForce ∧ (t.quire q).occupied = none
          ∧ s.Replied t d stOk 0 (maskBytes d.qmask fun _ => stOk)))
    ∧ (s.Takes opPause h p → owned → (∀ r, sel r → (s.quire r).state = .running) →
        ∃ t st, exec (.pause h p) s = .next t ∧ freed 0x14 t ∧ answered t opPause st
          ∧ ∀ r, sel r → ((s.quire r).playing = none → safe (s.quire r) → st r = stOk ∧ pauses (s.quire r) (t.quire r))
              ∧ (¬((s.quire r).playing = none ∧ safe (s.quire r)) → st r = stDeferred ∧ t.quire r = { s.quire r with pausePending := true }))
    ∧ (x.state = .running → x.pausePending = true → x.stopReq = none → safe x → ∃ t, exec (.pauseTakeEffect q) s = .next t ∧ s.Within t q ∧ pauses x (t.quire q))
    ∧ (x.pausePending = false ∨ x.stopReq ≠ none ∨ ¬safe x → exec (.pauseTakeEffect q) s = .next s)
    ∧ (s.Takes opResume h p → owned → (∀ r, sel r → (s.quire r).state = .paused) →
        ∃ t st, exec (.resume h p) s = .next t ∧ freed 0x15 t ∧ answered t opResume st
          ∧ ∀ r, sel r → (full (s.quire r) → st r = stOk ∧ resumes (s.quire r) (t.quire r)) ∧ (¬full (s.quire r) → st r = stDeferred ∧ t.quire r = { s.quire r with resumePending := true }))
    ∧ (x.state = .paused → full x → x.hostPaused = false ∨ x.resumePending = true →
        ∃ t, exec (.autoResume q) s = .next t ∧ s.Within t q ∧ resumes x (t.quire q))
    ∧ (x.state = .paused → ¬full x ∨ (x.hostPaused = true ∧ x.resumePending = false) → exec (.autoResume q) s = .next s)

/-- REBIND leaves a quire STAGED with a copy of the committed configuration in staging, at once or when its run has stopped, its STALE signatures LOADED but for those whose stored data was lost; QUIRE_RESET leaves it PARKED with everything at reset but its owner, its channel, calibration, fences and the endpaper, VPINq on its ramp to the reset set point and every measurement ended ABORTED (R20, R43, R88, R310, R312, R374, R452, R507, R589, R590, R606, R618, R743, R805). The model's choices that it rests on: log entry 74. -/
def Obligations.RebindAndReset : Prop :=
  ∀ (s : State) (h : Hdr) (p : Params),
    let sel := fun (r : QId) => h.qmask.getLsbD r.val = true
    let others := fun (t : State) => ∀ r, ¬sel r → t.quire r = s.quire r
    let freed := fun (op : Byte) (t : State) => ∀ r, ¬sel r → t.quire r = (s.quire r).unoccupy (hdrDest h op)
    let ok := maskBytes h.qmask fun _ => stOk
    s.heldPackets = [] → s.gov.waiting = [] → (∀ r, sel r → s.owns h.link r = true) →
      (s.Takes opRebind h p → (∀ r, sel r → (s.quire r).state = .collated ∨ (s.quire r).state = .stopped ∨ (s.quire r).state = .armed) →
        ∃ t, exec (.rebind h p) s = .next t ∧ s.Answers t h opRebind stOk 0 ok ∧ freed 0x16 t ∧ ∀ r, sel r → let x := s.quire r; let y := t.quire r
          y.state = .staged ∧ y.occupied = none ∧ y.committed = x.committed ∧ y.staging = x.inForce ∧ y.dirty = 0 ∧ y.sealedPages = 0 ∧ y.pins = List.replicate 32 .highZ ∧ y.termOn = 0
            ∧ y.fifo = [] ∧ y.slots = [] ∧ (bit (x.cfg 0x0C 0) 5 = true → y.bitmap = [] ∧ y.regions = []) ∧ (bit (x.cfg 0x0C 0) 5 = false → y.bitmap = x.bitmap ∧ y.regions = x.regions)
            ∧ ∀ g, (x.sig g).buf = .stale → ((x.sig g).damaged = false → (y.sig g).buf = .loaded) ∧ ((x.sig g).damaged = true → (y.sig g).buf = .stale))
      ∧ (s.Takes opRebind h p → (∀ r, sel r → (s.quire r).state.inPlay = true ∧ (s.quire r).stopReq = none) →
        ∃ t, exec (.rebind h p) s = .next t ∧ t.sent = s.sent ∧ others t ∧ ∀ r, sel r → t.quire r = { s.quire r with
          pausePending := false, occupied := some (.rebind (hdrDest h 0x16)), stopReq := some { cause := .host, rebind := true, waiter := none } })
      ∧ (s.Takes opQuireReset h p → s.spine.restartWanted = none → (∀ r, sel r → (s.quire r).state ≠ .off ∧ ∀ d ∈ (s.quire r).dests, d.opcode ≠ 0x17) →
        ∃ t, exec (.quireReset h p) s = .next t
          ∧ (∀ r, ¬sel r → t.quire r = s.quire r ∨ ((∃ d, (s.quire r).occupied = some (.ended d)) ∧ t.quire r = { s.quire r with occupied := none })) ∧ [{ dest := hdrDest h 0x17, status := stOk, detail := 0, result := ok : Reply }] <:+ t.sent
          ∧ ∀ r, sel r → let x := s.quire r; let y := t.quire r
            y.state = .parked ∧ y.owner = x.owner ∧ y.dram = { x.dram with queue := y.dram.queue } ∧ (x.derivation = none → y.dram.queue = x.dram.queue) ∧ y.sramShown = x.sramShown ∧ y.cal = x.cal ∧ y.fences = x.fences ∧ y.staging = [] ∧ y.committed = none ∧ y.everCommitted = false
              ∧ y.occupied = none ∧ y.stopReq = none ∧ y.sram = [] ∧ y.sigs = [] ∧ y.store = [] ∧ y.ready = [] ∧ y.slots = [] ∧ y.fifo = [] ∧ y.verdicts = [] ∧ y.insts = []
              ∧ y.bitmap = [] ∧ y.pins = List.replicate 32 .highZ ∧ y.termOn = 0 ∧ y.firstError = none ∧ y.injections = [] ∧ y.qfSticky = 0
              ∧ y.endpaper.drives = x.endpaper.drives ∧ y.engines = [] ∧ y.derivation = none
              ∧ y.vpinSetpoint = 1200 ∧ y.vpinFrom = x.vpinRamp s.time.ticks ∧ y.vpinSince = s.time.ticks
              ∧ (∀ (u : TmuId) (j : TmuJob), x.tmus[u] = some j → j.cause = 0 → j.mode < 4 → fld (y.liveReg (rk 0x0E (0x40 * u.val))) 24 4 = 4)
              ∧ ∀ k, (rk 0x11 0 ≤ k ∧ k < rk 0x12 0) → y.liveReg k = x.liveReg k)

/-! ### Signatures -/

/-- LOAD_SIGNATURE stores its segment and keeps track of the load; a complete image is LOADED at once in PARKED and STAGED, and elsewhere when its checks pass and its class 2 items have ended; contexts with the old data are dropped, and data that has no way into the channel waits in the link buffer; STREAM_DATA takes the packet that the window expects; FREE_SIGNATURE and QUERY_SIGNATURE (R80, R83 to R90, R186, R222, R249, R475, R488, R546, R620, R628 to R632). The model's choices that it rests on: log entries 30, 54, 66, 67, 68, 69, 70, 71, 72, 117. -/
def Obligations.Signatures : Prop :=
  ∀ (s : State) (h : Hdr) (p : Params) (q : QId) (d : ReplyTo) (c : Fin 1024),
    let x := s.quire q
    let g := par p 0 2
    let v := x.shown
    -- LOAD_SIGNATURE
    let first := (p.getD 2 0).getLsbD 0
    let isLast := (p.getD 2 0).getLsbD 1
    let bytes := par p 8 8
    let off := par p 16 8
    let data := p.drop 24
    let at_ := v.sigLoc g + off
    let space := fun (y : Quire) (a : Nat) => if v.sigHome g = 0 then bget a y.dram.mem else bget a y.sram
    let stored := fun (y : Quire) => (∀ i < data.length, space y (at_ + i) = data.getD i 0) ∧ ∀ a, a < at_ ∨ at_ + data.length ≤ a → space y a = space x a
    let writable := x.state = .parked ∨ x.state = .staged
    let accepted := g < 1024 ∧ v.sigValid g = true ∧ (v.sigHome g = 1 ∨ (v.sigHome g = 0 ∧ x.dram.available = true)) ∧ at_ + data.length ≤ x.homeBytes (v.sigHome g)
      ∧ off % 64 = 0 ∧ off + data.length ≤ bytes ∧ (isLast = true ∨ data.length % 64 = 0) ∧ x.state ≠ .off ∧ x.state ≠ .faulted
      ∧ (first = true ∨ ∃ l, (x.sig g).load = some l ∧ l.imageBytes = bytes) ∧ (writable ∨ (x.refs g = 0 ∧ (x.sig g).buf ≠ .freeDeferred))
    let room := s.loadWaits h.link = false ∧ (v.sigHome g = 0 → data ≠ [] → x.dram.changing = none ∧ x.dram.full .hostLoad = false)
    let only := fun (y : Quire) => (∀ g', g' ≠ g → y.sig g' = x.sig g') ∧ y.state = (if x.state = .parked then .staged else x.state)
      ∧ y = { x with state := y.state, sigs := y.sigs, sram := y.sram, dram := { x.dram with mem := y.dram.mem, poison := y.dram.poison, queue := y.dram.queue }, occupied := y.occupied, engines := y.engines, derivation := y.derivation }
    let dropped := fun (y : Quire) => ∀ e, (y.engine e).context ≠ some g
    -- LOAD_CHECK_DONE
    let failed := ∃ w i, x.derivation = some w ∧ w.failed = some i
    let r : Derived := match x.derivation with | some w => w.result (x.tableItems c.val) c.val | none => { table := [], head := none, chunks := [] }
    let checked := fun (st : Byte) (buf : BufState) => ∃ t, exec (.loadCheckDone q c) s = .next t ∧ s.Replied t d st 0 [] ∧ (t.quire q).occupied = none ∧ (t.quire q).derivation = none
      ∧ ((t.quire q).sig c.val).buf = buf ∧ ((t.quire q).sig c.val).checking = none
    -- STREAM_DATA
    let fits := x.windowBytes + (p.length - 16) ≤ x.windowSize
    let took := fun (i : Word × Nat) => s.setQuire q { x with heldStream := false, stream := x.stream ++ [{ sig := g, inst := i.1, index := i.2, crc := parW p 8, data := p.drop 16 }] }
    (h.qmask = BitVec.ofNat 8 (2 ^ q.val) →
      (s.Takes opLoadSignature h p → accepted → room →
        (first = true → isLast = true → off = 0 → data.length = bytes → 0 < bytes → writable →
          ∃ y, s.Serves (.loadSignature h p) h opLoadSignature [] (s.setQuire q y) ∧ stored y ∧ only y ∧ dropped y ∧ y.occupied = none ∧ y.derivation = x.derivation
            ∧ (y.sig g).buf = .loaded ∧ (y.sig g).load = none ∧ (y.sig g).imageBytes = bytes ∧ (y.sig g).poisoned = false ∧ (y.sig g).damaged = false)
        ∧ (first = true → isLast = false → 0 < data.length →
          ∃ y, s.Serves (.loadSignature h p) h opLoadSignature [] (s.setQuire q y) ∧ stored y ∧ only y ∧ y.occupied = none ∧ y.engines = x.engines ∧ y.derivation = x.derivation
            ∧ (y.sig g).buf = .loading ∧ (y.sig g).load = some { imageBytes := bytes, got := [(off, off + data.length)], lastSeen := false })
        ∧ (first = true → isLast = true → off = 0 → data.length = bytes → 0 < bytes → ¬writable →
          ∃ y, s.Begins (.loadSignature h p) h opLoadSignature (s.setQuire q y) ∧ stored y ∧ only y ∧ dropped y
            ∧ (∃ w, y.derivation = some w ∧ w.staged = false ∧ w.failed = none ∧ w.todo = if y.reloadBad g ∨ y.deriveItems g = 0 then [] else [g])
            ∧ y.occupied = some (.loadCheck (hdrDest h 0x20)) ∧ (y.sig g).buf = .loading ∧ (y.sig g).checking = some (hdrDest h 0x20)))
      ∧ (s.Takes opLoadSignature h p → accepted → ¬room → exec (.loadSignature h p) s = .next { s with heldPackets := s.heldPackets ++ [.loadSignature h p] })
      ∧ (s.Takes opStreamData h p → s.heldPackets = [] → g < 1024 → streamStates x.state = true → x.sigValid g = true → x.sigHome g = 2 →
        (∀ inst i, x.streamExpected = some (g, inst, i) → i = par p 4 4 →
          (fits → (h.flags &&& 1 = 1 → s.Serves (.streamData h p) h opStreamData [] (took (inst, i)))
            ∧ (h.flags &&& 1 ≠ 1 → ∃ t, exec (.streamData h p) s = .next t ∧ t.sent = s.sent ∧ (took (inst, i)).Booked t))
          ∧ (¬fits → p.length - 16 ≤ x.windowSize →
            ∃ u, exec (.streamData h p) s = .next { u with heldPackets := [.streamData h p] } ∧ s.Within u q ∧ ({ x with heldStream := true } : Quire).Counts (u.quire q)
              ∧ (x.heldStream = false → s.CountsOne q (rk 0x10 0x12C) u))
          ∧ (x.windowSize < p.length - 16 → ∃ t, exec (.streamData h p) s = .next t ∧ s.Booked t ∧ s.Answers t h opStreamData stNoResource 0 (le 2 g ++ le 2 0 ++ le 4 i)))
        ∧ (∀ g' inst i, x.streamExpected = some (g', inst, i) → g' ≠ g ∨ i ≠ par p 4 4 →
          ∃ t, exec (.streamData h p) s = .next t ∧ s.Booked t ∧ s.Answers t h opStreamData stState (detState 2 x.state) (le 2 g' ++ le 2 0 ++ le 4 i)))
      ∧ (s.Takes opFreeSignature h p → g < 1024 → x.state ≠ .off → x.state ≠ .faulted →
        (x.refs g = 0 → ∃ y, s.Serves (.freeSignature h p) h opFreeSignature [] (s.setQuire q y) ∧ (y.sig g).buf = .empty ∧ (y.sig g).imageBytes = 0 ∧ (y.sig g).load = none
          ∧ (∀ g', g' ≠ g → y.sig g' = x.sig g') ∧ y = { x with sigs := y.sigs })
        ∧ (x.refs g ≠ 0 → ∃ t y, exec (.freeSignature h p) s = .next t ∧ s.Answers t h opFreeSignature stDeferred 0 [] ∧ (s.setQuire q y).Booked t
          ∧ y.sig g = { x.sig g with buf := .freeDeferred, load := none } ∧ (∀ g', g' ≠ g → y.sig g' = x.sig g') ∧ y = { x with sigs := y.sigs }))
      ∧ (s.Takes opQuerySignature h p → g < 1024 → x.state ≠ .off →
        s.Serves (.querySignature h p) h opQuerySignature
          (le 4 (2 ^ 16 * x.refs g + 2 ^ 8 * (if v.sigHome g = 2 then 0 else bufCode (x.sig g).buf) + 8 * b2n (x.sig g).headReady + 4 * b2n (x.sig g).poisoned + 2 * b2n (x.sig g).underrun + b2n (x.refs g ≠ 0))
            ++ leW (v.cfg 0x03 (16 * g)) ++ leW (v.cfg 0x03 (16 * g + 4)) ++ le 4 ((x.sig g).annotation.getD 0) ++ le 4 (if v.sigKind g = 1 then (x.sig g).ratioX100 else 0)
            ++ le 8 (match (x.sig g).load with | some l => (l.got.map fun r => r.2 - r.1).sum | none => 0)) s))
    ∧ (x.occupied = some (.loadCheck d) → (x.sig c.val).checking.isSome = true → s.Owes d →
      (x.reloadBad c.val = true ∨ failed → checked stCollation .stale)
      ∧ (x.reloadBad c.val = false → ¬failed →
        (x.derivedDone = false → exec (.loadCheckDone q c) s = .next s)
        ∧ (x.derivedDone = true → (∀ a, (x.sig c.val).committedMw = some a → x.annotation c.val r ≤ a) → checked stOk .loaded)
        ∧ (x.derivedDone = true → (∀ a, (x.sig c.val).committedMw = some a → a < x.annotation c.val r) → (x.sig c.val).committedMw ≠ none → checked stBudget .stale)))

/-! ### Results -/

/-- READ_VERDICT returns the run verdict, its counters and the oldest resolved records, and frees those that the session's last one with another tag returned; READ_CAPTURE returns bytes of an area: an uncorrectable error of fail memory is reported and makes the regions it touches INCOMPLETE, and a line of DDR-5 that comes back poisoned counts and is not returned as good data, and a read of the channel waits for the end of a change of set and is refused where the channel is not available; READ_REPAIR the records of the regions asked for, SNAPSHOT the records of one instant (R378, R388, R390, R395, R397, R398, R404, R405, R407, R416, R464, R488, R493, R495, R496, R633, R634, R690). The model's choices that it rests on: log entries 77, 86, 96, 156, 183, 186. -/
def Obligations.ReadingResults : Prop :=
  ∀ (s : State) (h : Hdr) (p : Params) (q : QId) (w : SnapWait) (o : SramRead) (l : List LineRead),
    let x := s.quire q
    let one := h.qmask = BitVec.ofNat 8 (2 ^ q.val)
    -- READ_VERDICT
    let head := le 4 (2 ^ 28 * verdictCode x.run.verdict + 2 ^ 26 * b2n x.run.anyFail + 2 ^ 25 * b2n x.run.matchTimeout + 2 ^ 24 * b2n x.run.noEye + (x.insts.foldl (fun a (i : Inst) => a ||| i.causes) x.run.causes).toNat)
      ++ leW (x.liveReg (rk 0x0C 0x228)) ++ leW (x.liveReg (rk 0x0C 0x22C)) ++ leW (x.liveReg (rk 0x0C 0x230))
    let record := fun (r : VRec) => le 4 (2 ^ 28 * verdictCode r.verdict + 2 ^ 16 * (r.entry % 256) + r.sig % 1024) ++ leW r.inst ++ le 4 r.fails ++ le 4 (2 ^ 16 * r.recSeq.toNat + r.causes.toNat)
    let key := (h.link, h.session, h.tag)
    let mine := fun (e : (LinkId × BitVec 16 × BitVec 16) × List Nat) => decide (e.1.1 = h.link) && decide (e.1.2.1 = h.session)
    let kept := x.verdicts.filter fun r => !x.verdictRead.any fun e => mine e && e.2.contains r.id
    let out := (kept.filter fun r => r.verdict ≠ .pending).take (par p 0 2)
    -- READ_CAPTURE
    let area := par p 0 1
    let off := par p 4 4
    let n := par p 8 4
    let regionBytes := if area = 2 then (x.bmRows * x.bmCols + 7) / 8 else if area = 3 then 12288 + 2 * (x.bmRows + x.bmCols) else 0
    let touched := fun (r : Nat) => x.raEn = true ∧ regionBytes ≠ 0 ∧ r < x.regionCount ∧ off < (r + 1) * regionBytes ∧ r * regionBytes < off + n
    let memoryLost := fun (t : State) => t.quire q = { x with regions := (t.quire q).regions } ∧ (∀ r, r ≠ q → t.quire r = s.quire r)
      ∧ (∀ r, (touched r → (t.quire q).region r = { x.region r with phase := .incomplete, cause := 0xD, fresh := [], cells := [] }) ∧ (¬touched r → (t.quire q).region r = x.region r))
      ∧ ∃ r, t.collector.reports = s.collector.reports ++ [r] ∧ r.severity = .alert ∧ r.checker = 0x17 ∧ r.quire = some q ∧ r.element = 0x81
    let read := Instr.readCapture h p o l
    let whole := fun (f : Nat → Byte) => s.Serves read h opReadCapture ((List.range n).map fun i => f (off + i)) s
    let returns := fun (f : Nat → Byte) => (o.outcome ≠ .uncorrectable → whole f)
      ∧ (o.outcome = .uncorrectable → ∃ t, exec read s = .next t ∧ s.Answers t h opReadCapture stOk 0 ((List.range n).map fun i => f (off + i)) ∧ memoryLost t)
    let base := x.rawDramBase + off
    let lines := (base + n + 63) / 64 - base / 64
    let bad := ((List.range lines).map (base / 64 + ·)).filter fun l => x.dram.poison.contains l
    let line := fun (i : Nat) => l.getD i { wrong := 0, miscorrected := false }
    let alone := fun (i : Nat) => i < lines ∧ 8 < (line i).wrong.val ∧ ∀ j < lines, j ≠ i → (line j).wrong.val = 0
    let reads := fun (also : State → List Byte → Prop) => ∃ t bytes, exec read s = .next t ∧ s.Answers t h opReadCapture stOk 0 bytes ∧ bytes.length = n ∧ also t bytes
    let good := fun (bytes : List Byte) (lost : Nat → Prop) => ∀ i < n, (base + i) / 64 ∉ x.dram.poison → ¬lost ((base + i) / 64) → bytes.getD i 0 = bget (base + i) x.dram.mem
    let firstN := x.firstN.flatMap fun r => le 4 r.vec ++ le 4 (2 ^ 16 * (r.entry % 256) + 2 ^ 6 * (r.sig % 1024) + r.vec / 2 ^ 32 % 64) ++ leW r.inst ++ leW r.pins ++ t12 s.modeOz r.timeNs
      ++ le 4 (2 ^ 16 * r.recSeq.toNat)
    let raw := x.raw.flatMap fun r => le 8 r.regions.toNat ++ le 4 r.vec ++ le 4 (2 ^ 16 * r.recSeq.toNat + 2 ^ 6 * (r.sig % 1024) + r.vec / 2 ^ 32 % 64)
    -- READ_REPAIR
    let region := fun (r : Nat) => let a := x.region r; let ok := decide (a.phase = .repairable)
      le 4 (2 ^ 28 * phaseCode a.phase + 2 ^ 24 * a.cause.toNat + 2 ^ 16 * (if ok then a.rows.length else 0) + 2 ^ 8 * (if ok then a.cols.length else 0) + r) ++ le 4 a.failCells
        ++ le 4 (2 ^ 16 * a.mustCols + a.mustRows) ++ le 4 0 ++ spareBytes (if ok then a.rows else []) ++ spareBytes (if ok then a.cols else [])
    -- SNAPSHOT
    let sel := fun (m : Byte) => (List.finRange 8).filter fun r => m.getLsbD r.val
    let at_ := parT12 s.modeOz p 0
    let snap := fun (r : QId) => let y := s.quire r
      t12 s.modeOz s.time.ns ++ leW (quireStateWord y) ++ le 4 (2 ^ 16 * (y.seq.calls.length % 16) + 2 ^ 8 * (y.seq.loops.length % 8) + y.seq.entry % 256)
        ++ leW (y.liveReg (rk 0x01 0x200)) ++ leW (y.liveReg (rk 0x0C 0x200)) ++ le 4 (2 ^ 16 * (y.fillLow % 65536) + (y.fifo.map (·.vectors)).sum % 65536)
    (s.Takes opReadVerdict h p → one → par p 0 2 ≤ 500 → x.state ≠ .off →
      injecting 0x17 0x81 x.injections = false →
      ((∀ e ∈ x.verdictRead, e.1 ≠ key) → h.reads.outcome ≠ .uncorrectable →
        s.Serves (.readVerdict h p) h opReadVerdict (head ++ out.flatMap record)
          (s.setQuire q { x with verdicts := kept, verdictRead := (key, out.map (·.id)) :: x.verdictRead.filter fun e => !mine e }))
      ∧ (∀ ids, x.verdictRead.find? (fun e => e.1 = key) = some (key, ids) → h.reads.outcome ≠ .uncorrectable →
        s.Serves (.readVerdict h p) h opReadVerdict (head ++ (x.verdicts.filter fun r => ids.contains r.id).flatMap record) s)
      ∧ ((∀ e ∈ x.verdictRead, e.1 ≠ key) → h.reads.outcome = .uncorrectable →
        ∃ t r, exec (.readVerdict h p) s = .next t ∧ s.Answers t h opReadVerdict stOk 0 (head ++ out.flatMap record) ∧ t.collector.reports = s.collector.reports ++ [r]
          ∧ r.severity = .alert ∧ r.checker = 0x17 ∧ r.quire = some q ∧ r.element = 0x81))
    ∧ (s.Takes opReadCapture h p → one → x.state ≠ .off → off % 4 = 0 → n % 4 = 0 → 4 ≤ n → n ≤ 131072 → off + n ≤ x.areaBytes area → injecting 0x17 0x81 x.injections = false →
      (area = 1 → returns fun i => firstN.getD i 0)
      ∧ (area = 2 → returns fun i => BitVec.ofNat 8 (((List.range 8).filter fun k => x.bitmap.contains (8 * i + k)).map (2 ^ ·)).sum)
      ∧ (area = 4 → returns fun i => raw.getD i 0)
      ∧ (area = 5 → x.dram.available = true → x.dram.changing = none → injecting 0x18 0 x.injections = false →
        ((∀ i < lines, (line i).wrong.val = 0) → bad = [] → whole fun i => bget (x.rawDramBase + i) x.dram.mem)
        ∧ ((∀ i < lines, (line i).wrong.val ≤ 8) → reads fun t bytes => good bytes (fun _ => False) ∧ (∀ r, r ≠ q → t.quire r = s.quire r)
            ∧ x.Counts (t.quire q) ∧ Counted bad.length (x.liveReg (rk 0x11 0x208)) ((t.quire q).liveReg (rk 0x11 0x208))
            ∧ Counted ((List.range lines).countP fun i => decide (0 < (line i).wrong.val)) (x.liveReg (rk 0x11 0x200)) ((t.quire q).liveReg (rk 0x11 0x200)))
        ∧ (∀ i, alone i → (line i).miscorrected = false → x.dram.migrating = false → reads fun t bytes => good bytes (· = base / 64 + i) ∧ s.CountsOne q (rk 0x11 0x204) t
            ∧ (t.quire q).liveReg (rk 0x11 0x238) = BitVec.ofNat 32 (base / 64 + i) ∧ base / 64 + i ∈ (t.quire q).dram.poison ∧ t.collector.reports.length = s.collector.reports.length + 1)
        ∧ (∀ i, alone i → (line i).miscorrected = true → reads fun t bytes => good bytes (· = base / 64 + i) ∧ s.CountsOne q (rk 0x11 0x200) t
            ∧ (t.quire q).dram.poison = x.dram.poison ∧ t.collector.reports = s.collector.reports))
      ∧ (area = 5 → x.dram.available = true → x.dram.changing.isSome = true →
          s.Begins read h opReadCapture (s.setQuire q { x with rawReads := x.rawReads ++ [{ dest := hdrDest h 0x29, start := base, bytes := n, lines := l }] }))
      ∧ (area = 5 → x.dram.available = false → ∃ t, exec read s = .next t ∧ s.Answers t h opReadCapture stNoResource 0 [] ∧ s.Booked t)
      ∧ (area = 3 → ∃ t bytes, exec read s = .next t ∧ s.Answers t h opReadCapture stOk 0 bytes ∧ bytes.length = n
          ∧ (o.outcome ≠ .uncorrectable → t.quires = s.quires ∧ t.collector.reports = s.collector.reports) ∧ (o.outcome = .uncorrectable → memoryLost t)))
    ∧ (s.Takes opReadRepair h p → one → x.state ≠ .off → s.Serves (.readRepair h p) h opReadRepair ((pinsOf (parW p 0)).flatMap region) s)
    ∧ (s.Takes opSnapshot h p → t12Ok s.modeOz p 0 = true → (∀ r ∈ sel h.qmask, s.owns h.link r = true ∧ (s.quire r).state ≠ .off) →
      (at_ = 0 → ∃ t, exec (.snapshot h p) s = .next t ∧ s.Answers t h opSnapshot stOk 0 (maskBytes h.qmask (fun _ => stOk) ++ (sel h.qmask).flatMap snap) ∧ ∀ r, t.quire r = (s.quire r).unoccupy (hdrDest h 0x33))
      ∧ (at_ ≠ 0 → ∃ t, exec (.snapshot h p) s = .next t ∧ t.sent = s.sent ∧ t.quires = s.quires ∧ t.snaps = s.snaps ++ [{ dest := hdrDest h 0x33, mask := h.qmask, atNs := at_ }]))
    ∧ (s.snaps = [w] → s.timingRuns = true →
      (w.atNs ≤ s.time.ns → w.mask = w.dest.qmask → s.OwesOne w.dest q →
        ∃ t, exec .snapshotAtTime s = .next t ∧ s.Replied t w.dest stOk 0 (maskBytes w.mask (fun _ => stOk) ++ snap q) ∧ (∀ r, t.quire r = (s.quire r).unoccupy w.dest) ∧ t.snaps = [])
      ∧ (s.time.ns < w.atNs → exec .snapshotAtTime s = .next s))

/-! ### Capture and repair -/

/-- A compare result is taken vector by vector: passing compares leave no trace; failing ones count per pin, mark the instance, and enter the first-N log and the fail queue; CP cells leave raw records; a hold vector's sample triggers a wait at its strobe; a raw record bound for DDR-5 waits while its port is full (R71, R117, R124, R128, R368 to R381, R390 to R393, R475, R661). The model's choices that it rests on: log entries 80, 87, 162, 167. -/
def Obligations.CaptureOfCompares : Prop :=
  ∀ (s : State) (q : QId) (seq : Nat) (v : Fin 4096) (regions : DWord) (a : Play) (c : Chunk) (r : RawRec) (rest : List RawRec),
    let x := s.quire q
    let region := fun (i : Nat) => regions.toNat / 2 ^ (2 * i) % 4
    let start := x.origin + a.startsAt + x.spanOf a.hold c.sets v.val
    let law : TimeLaw := ((s.time.past.takeWhile fun l => decide (start < l.till)).getLast?).getD
      { till := 4000 * s.time.ticks, total := 2 ^ 32 * s.time.ns + s.time.frac, increment := s.time.increment }
    let holding := x.state = .paused ∨ (x.state = .running ∧ x.seq.wait.isSome = true)
    let room := x.rawInDram = false ∨ x.dram.full .capture = false
    let passes := fun (code g : Nat) => (8 ≤ code ∧ code ≤ 11 ∧ g = code - 8) ∨ (code = 12 ∧ (g = 1 ∨ g = 2)) ∨ (code = 13 ∧ (g = 0 ∨ g = 3))
    let fails := fun (i : Nat) => i ∈ x.comparePins c v.val ∧ ¬passes (c.code i v.val) (region i)
    let counted := fun (i : Nat) => fails i ∧ bit (x.cfg 0x0C 4) i = false
    let cp := fun (i : Nat) => i ∈ pinsOf c.pinmask ∧ c.code i v.val = 14
    let kinds := x.bindOp a.entry ≠ 7 ∧ a.training = none
    let counts := fun (t : State) (key n : Nat) => Counted n (x.liveReg key) ((t.quire q).liveReg key)
    (x.playing = some a → a.chunk = some c → c.seq = seq → a.nextVec ≤ v.val → v.val < c.vectors →
      ((∀ i, ¬fails i) → x.rawEn = false → ∃ t y, exec (.compareResult q seq v regions) s = .next t ∧ s.Within t q ∧ t.quire q = y
        ∧ y.playing = some { a with nextVec := v.val + 1 }
        ∧ y = { x with playing := y.playing, recent := y.recent, elapsed := y.elapsed, vecCount := y.vecCount, markers := y.markers, live := y.live, satPages := y.satPages }
        ∧ (∀ k, rk 0x0C 0 ≤ k → k < rk 0x0D 0 → y.liveReg k = x.liveReg k)
        ∧ (¬holding → t = s.setQuire q y ∧ y = { x with playing := y.playing, recent := y.recent }))
      ∧ (x.rawEn = false → kinds → ∀ l : List Nat, l ≠ [] → l.Nodup → (∀ i, i ∈ l ↔ counted i) →
        ∃ t y, exec (.compareResult q seq v regions) s = .next t ∧ t.quire q = y ∧ s.Within t q ∧ y.playing = some { a with nextVec := v.val + 1 }
          ∧ (∀ i < 32, counts t (rk 0x0C (0x300 + 4 * i)) (if i ∈ l then 1 else 0)) ∧ counts t (rk 0x0C 0x208) 1
          ∧ (∀ i ∈ x.insts, i.id = a.instId → { i with fails := min (i.fails + l.length) (2 ^ 32 - 1), causes := i.causes ||| 1 } ∈ y.insts)
          ∧ (∀ i ∈ x.insts, i.id ≠ a.instId → i ∈ y.insts)
          ∧ (x.firstN.length < x.firstNLen → ∃ e, y.firstN = x.firstN ++ [e] ∧ e.vec = 4096 * a.index + v.val ∧ e.entry = a.entry ∧ e.sig = c.sig ∧ e.inst = c.inst
              ∧ (∀ i < 32, e.pins.getLsbD i = decide (i ∈ l)) ∧ e.recSeq = x.nextFirstN ∧ counts t (rk 0x0C 0x20C) 1
              ∧ e.timeNs = ((4000 * (law.total : Int) - ((law.till : Int) - start) * law.increment) / (4000 * 2 ^ 32)).toNat)
          ∧ (x.firstNLen ≠ 0 → x.firstNLen ≤ x.firstN.length → y.firstN = x.firstN ∧ counts t (rk 0x0C 0x210) 1)
          ∧ (x.bmEn = true → c.sig ∈ x.bmSources → x.failQueue.length < 4096 →
              ∃ e, y.failQueue = x.failQueue ++ [e] ∧ e.sig = c.sig ∧ e.inst = c.inst ∧ e.vec = 4096 * a.index + v.val ∧ ∀ i < 32, e.pins.getLsbD i = decide (i ∈ l))
          ∧ (x.bmEn = true → c.sig ∈ x.bmSources → 4096 ≤ x.failQueue.length → y.failQueue = x.failQueue ∧ counts t (rk 0x0C 0x214) 1)
          ∧ (x.bmEn = false → y.failQueue = x.failQueue))
      ∧ (x.rawEn = true → (∀ i, ¬fails i) → (∃ i, cp i) →
        (x.rawBuf.length < 256 → x.raw.length < x.rawCapacity →
          ∃ t y e, exec (.compareResult q seq v regions) s = .next t ∧ s.Within t q ∧ t.quire q = y ∧ y.rawBuf = x.rawBuf ++ [e] ∧ y.nextRaw = x.nextRaw + 1 ∧ e.recSeq = x.nextRaw ∧ e.sig = c.sig
            ∧ e.vec = 4096 * a.index + v.val ∧ ∀ i < 32, (cp i → e.regions.toNat / 2 ^ (2 * i) % 4 = region i) ∧ (¬cp i → e.regions.toNat / 2 ^ (2 * i) % 4 = 0))
        ∧ (256 ≤ x.rawBuf.length ∨ x.rawCapacity ≤ x.raw.length →
          ∃ t, exec (.compareResult q seq v regions) s = .next t ∧ s.Within t q ∧ (t.quire q).rawBuf = x.rawBuf ∧ counts t (rk 0x0C 0x220) 1)))
    ∧ (∀ (b : Block) (more : List Block) (since : Nat), x.playing = none → (∀ y ∈ x.recent, ∀ z, y.chunk = some z → z.seq ≠ seq) → x.state = .running → x.seq.wait = some (.trig since none) → x.seq.plan = b :: more →
        let m := x.cfg 0x02 (32 * b.entry + 8)
        let p := max 1 x.holdPeriod
        let i := v.val + (4000 * s.time.ticks - since - v.val * p) / (4096 * p) * 4096
        let strobe := ((since + i * p : Nat) + ((match x.seq.lastSet with | some k => x.tsStrobe k (fld m 24 5) | none => 0 : Nat) : Int) + sfld (x.cfg 0x04 (0x10000 + 4 * fld m 24 5)) 16 16).toNat
        (fld m 30 2 = 1 → passes (fld m 16 4) (region (fld m 24 5)) →
          exec (.compareResult q seq v regions) s = .next (s.setQuire q ({ x with seq := { x.seq with wait := some (.trig since (some strobe)) } } : Quire).dropLanding))
        ∧ (fld m 30 2 = 1 → 8 ≤ fld m 16 4 → fld m 16 4 ≤ 13 → ¬passes (fld m 16 4) (region (fld m 24 5)) → exec (.compareResult q seq v regions) s = .next (s.setQuire q x)))
    ∧ (x.rawBuf = r :: rest →
      (x.raw.length < x.rawCapacity → x.rawInDram = false → s.Makes (.rawRecordDrain q) q { x with rawBuf := rest, raw := x.raw ++ [r] } (s.CountsOne q (rk 0x0C 0x21C)))
      ∧ (x.raw.length < x.rawCapacity → x.rawInDram = true → room → ∃ t y, exec (.rawRecordDrain q) s = .next t ∧ s.Within t q ∧ t.quire q = y ∧ y.rawBuf = rest ∧ y.raw = x.raw ++ [r]
          ∧ bread (x.rawDramBase + 16 * x.raw.length) 16 y.dram.mem = le 8 r.regions.toNat ++ le 4 r.vec ++ le 4 (2 ^ 16 * r.recSeq.toNat + 2 ^ 6 * (r.sig % 1024) + r.vec / 2 ^ 32 % 64)
          ∧ s.CountsOne q (rk 0x0C 0x21C) t)
      ∧ (room → x.rawCapacity ≤ x.raw.length → s.Makes (.rawRecordDrain q) q { x with rawBuf := rest } (s.CountsOne q (rk 0x0C 0x220)))
      ∧ (¬room → exec (.rawRecordDrain q) s = .next s))

/-- The background services create their items while the matching store has room: up to 64 leading fails of one signature, up to 1,024 new cells of a region, the final search of a region; a repair item has a shadow copy. CAPTURE_COMPRESSION maps the fails of the oldest ready item into the bitmap, unless its output queue is full; a repair step whose copies agree leaves each of its cells covered or kept; the final search makes a region REPAIRABLE only with a cover of every cell within the spares; copies that differ, and an uncorrectable error of the fail memory that they read, are reported and make the region INCOMPLETE (R221 to R223, R237, R239, R382, R384, R388, R398, R408 to R414). The model's choices that it rests on: log entries 89, 90, 91, 94, 95. -/
def Obligations.BackgroundServices : Prop :=
  ∀ (s : State) (q : QId) (r : Fin 32) (o : SramRead) (it : Item) (e : Nat) (moved : Bool),
    let x := s.quire q
    let made := x.w.createBg.q
    let a := made.region r.val
    let covered := fun (z : Region) (c : Nat × Nat) => c.1 ∈ z.rows ∨ c.2 ∈ z.cols
    let counts := fun (t : State) (key : Nat) => s.CountsOne q key t
    let reported := fun (t : State) (checker : Nat) (element : Byte) => ∃ z, t.collector.reports = s.collector.reports ++ [z] ∧ z.severity = .alert ∧ z.checker = checker ∧ z.quire = some q ∧ z.element = element
    let told := fun (t : State) => (o.outcome ≠ .uncorrectable → t.collector.reports = s.collector.reports) ∧ (o.outcome = .uncorrectable → reported t 0x17 0x81)
    let runs := fun (i : Instr) (also : State → Quire → Prop) => ∃ t, exec i s = .next t ∧ s.Within t q ∧ also t (t.quire q) ∧ ∀ z ∈ (t.quire q).ready, z.seq ≠ it.seq
    let idle := fun (f : Item → Bool) => x.bgItem f = none
    let compress := Instr.captureCompression q o
    let item := fun (phase : Nat) => made.readyItem (fun z => z.kind = .repair && z.region = r.val && z.index = phase && !z.copy) = some it ∧ made.choose it = some (.engine e moved)
      ∧ ∃ y, (x.w.createBg.place it e moved soundRead).q.readyItem (fun z => z.seq = it.seq && z.copy) = some y ∧ ∃ f m, (x.w.createBg.place it e moved soundRead).q.choose y = some (.engine f m)
    -- the creation of items
    (x.store.length < 512 → made.heldBg = false ∧ x.ready <+: made.ready
      ∧ (∀ f more, x.failQueue = f :: more → ∃ z ∈ made.ready, z.kind = .compress ∧ z.copy = false ∧ x.failQueue = z.fails ++ made.failQueue ∧ z.fails ≠ [] ∧ z.fails.length ≤ 64
          ∧ (∀ g ∈ z.fails, g.sig = f.sig) ∧ (z.fails.length < 64 → ∀ g ∈ made.failQueue.head?, g.sig ≠ f.sig))
      ∧ (x.raEn = true → r.val < x.regionCount → idle (fun z => z.kind = .repair && z.region = r.val) →
        ((x.region r.val).fresh ≠ [] → a.fresh = (x.region r.val).fresh.drop 1024
          ∧ ∃ z ∈ made.ready, { z with copy := true } ∈ made.ready ∧ z.kind = .repair ∧ z.copy = false ∧ z.region = r.val ∧ z.index = 0 ∧ z.cells = (x.region r.val).fresh.take 1024)
        ∧ ((x.region r.val).fresh = [] → (x.region r.val).phase = .searching →
          ∃ z ∈ made.ready, { z with copy := true } ∈ made.ready ∧ z.kind = .repair ∧ z.copy = false ∧ z.region = r.val ∧ z.index = 1 ∧ z.cells = (x.region r.val).cells)))
    ∧ (512 ≤ x.store.length → made.ready = x.ready ∧ made.failQueue = x.failQueue ∧ (x.failQueue ≠ [] → made.heldBg = true ∧ (x.heldBg = false → Counted 1 (x.liveReg (rk 0x10 0x12C)) (made.liveReg (rk 0x10 0x12C)))))
    -- CAPTURE_COMPRESSION
    ∧ (injecting 0x17 0x81 x.injections = false → made.readyItem (fun z => z.kind = .compress) = some it → made.choose it = some (.engine e moved) →
      (made.outputFull it = false → runs compress fun t y => told t ∧ y.verdicts = x.verdicts ∧ y.insts = x.insts ∧ y.firstN = x.firstN ∧ (x.raEn = false → y.regions = x.regions)
          ∧ (∀ b, b ∈ y.bitmap ↔ b ∈ x.bitmap ∨ ∃ g ∈ it.fails, ∃ cell ∈ (x.mapFail g).1, b = x.cellBit cell)
          ∧ (x.raEn = true → o.outcome = .uncorrectable → ∀ g ∈ it.fails, ∀ cell ∈ (x.mapFail g).1, (y.region cell.1).phase = .incomplete ∧ (y.region cell.1).cause = 0xD)
          ∧ Counted ((it.fails.map fun g => (x.mapFail g).2).sum) (x.liveReg (rk 0x0C 0x218)) (y.liveReg (rk 0x0C 0x218)))
      ∧ (made.outputFull it = true → x.delay.length < 256 → runs compress fun _ y => y.bitmap = x.bitmap ∧ it.seq ∉ y.heldDelay ∧ { it with due := some (s.time.ns + 64) } ∈ y.delay)
      ∧ (made.outputFull it = true → 256 ≤ x.delay.length → ∃ t, exec compress s = .next t ∧ s.Within t q ∧ (t.quire q).bitmap = x.bitmap ∧ (t.quire q).delay = x.delay
          ∧ (t.quire q).ready.getLast? = some it ∧ it.seq ∈ (t.quire q).heldDelay ∧ (it.seq ∉ x.heldDelay → counts t (rk 0x10 0x12C))))
    ∧ (made.readyItem (fun z => z.kind = .compress) = none → s.Makes compress q made)
    -- a step of the repair analysis, and the final search
    ∧ (x.raEn = true → x.run.verdict = .pending → a.closed = false → injecting 0x17 0x81 x.injections = false → (∀ p, injecting 0x16 p x.injections = false) →
      (item 0 → o.outcome ≠ .uncorrectable → runs (.repairAnalysisStep q r o true) fun t y => let z := y.region r.val
        told t ∧ counts t (rk 0x0D 8) ∧ (∀ r', r' ≠ r.val → y.region r' = made.region r')
          ∧ z.fresh = (if z.closed then [] else a.fresh) ∧ z.failCells = a.failCells ∧ a.rows <+: z.rows ∧ a.cols <+: z.cols ∧ z.mustRows = z.rows.length ∧ z.mustCols = z.cols.length
          ∧ (∀ c ∈ a.cells ++ it.cells, covered z c ∨ c ∈ z.cells)
          ∧ (a.rows.length ≤ x.spareRows → a.cols.length ≤ x.spareCols → z.rows.length ≤ x.spareRows ∧ z.cols.length ≤ x.spareCols)
          ∧ (z.closed = false → z.cells.length ≤ 2 * (x.spareRows - z.rows.length) * (x.spareCols - z.cols.length)))
      ∧ (item 1 → a.phase = .searching → o.outcome ≠ .uncorrectable → runs (.repairFinalSearch q r o true) fun t y => let z := y.region r.val
        told t ∧ counts t (rk 0x0D 8) ∧ (z.phase = .repairable ∨ (z.phase = .notRepairable ∧ z.cause = 3) ∨ (z.phase = .incomplete ∧ z.cause = 0xB))
          ∧ (z.phase = .repairable → (∀ c ∈ a.cells, covered z c) ∧ a.rows <+: z.rows ∧ a.cols <+: z.cols)
          ∧ (z.phase = .repairable → a.rows.length ≤ x.spareRows → a.cols.length ≤ x.spareCols → z.rows.length ≤ x.spareRows ∧ z.cols.length ≤ x.spareCols))
      ∧ ∀ i ∈ [(0, Instr.repairAnalysisStep q r o), (1, Instr.repairFinalSearch q r o)], item i.1 →
          (o.outcome = .uncorrectable → runs (i.2 true) fun t y => told t ∧ y.region r.val = { a with phase := .incomplete, cause := 0xD, fresh := [], cells := [] })
          ∧ (e < 128 → runs (i.2 false) fun t y => reported t 0x16 (BitVec.ofNat 8 e) ∧ counts t (rk 0x10 0x118) ∧ y.region r.val = { a with phase := .incomplete, cause := 9, fresh := [], cells := [] }))

/-! ### Calibration and self-test -/

/-- A re-trim takes its pin over, measures it, measures its DACs where they are free and hands it back; a miss of more than 1 ps fails it and leaves the pin MENDED; the corrections found take their place when it completes; the selections of every element follow the readings: of its redundant elements the nearest to the target, interpolated between two factory sets, the correction on top, and a selection that changes waits for its instant; CAL_QUERY shows counts, times and the sets that bracket the reading; SELFTEST occupies its quire (R589, R635, R793 to R799, R801 to R804, R806, R815). The model's choices that it rests on: log entries 141, 142, 144. -/
def Obligations.Calibration : Prop :=
  ∀ (s : State) (h : Hdr) (p : Params) (q : QId) (d : ReplyTo) (r : Retrim) (miss us : Nat) (taps dacs : List Int) (tests : Word) (failed : BitVec 5),
    let x := s.quire q
    let pin := par p 0 1
    let forced := par p 1 1 = 1
    let job : Retrim := { pin := pin, all := false, forced := forced, step := .takeover, skipped := false, measuredAt := 0, found := ⟨[], []⟩ }
    let joins := fun (a : Nat) (j : Retrim) => { x with endpaper := { x.endpaper with phase := .joining, pin := a, forced := forced, comparing := false, compared := none }, retrim := some j }
    let deferred := fun (y : Quire) => ∃ t, exec (.calRetrim h p) s = .next t ∧ s.Answers t h opCalRetrim stDeferred 0 [] ∧ (s.setQuire q y).Booked t
    let free := x.state = .parked ∨ x.state = .staged ∨ x.state = .collated ∨ x.state = .stopped
    let measured : Retrim := { r with measuredAt := s.time.ns, found := { r.found with taps := taps } }
    let handsBack := fun (j : Retrim) (dac : Bool) => { x with
      cal := lmod x.cal r.pin fun c => { c with lastDac := dac }
      endpaper := { x.endpaper with phase := .handingBack, comparing := false }, retrim := some { j with step := .handBack } }
    let ends := fun (i : Instr) (j : Retrim) (dac : Bool) => ∃ t y, exec i s = .next t ∧ s.Within t q ∧ t.quire q = y ∧ y.retrim = none ∧ s.CountsOne q (rk 0x18 4) t
      ∧ (∀ i < 32, y.cal.getD i .reset = x.cal.getD i .reset) ∧ let c := x.cal.getD 32 .reset
        y.cal.getD 32 .reset = { lastDac := dac, count := if c.count = 0xFFFF then c.count else c.count + 1, timeNs := if j.skipped then j.measuredAt else s.time.ns, trimFail := false, mended := false,
                                 trim := { taps := j.found.taps, dacs := if j.found.dacs = [] then c.trim.dacs else j.found.dacs } }
    let is := fun (i : Instr) (y : Quire) => exec i s = .next (s.setQuire q y)
    let set := fun (i : Nat) => ([-40, 0, 50, 100, 150] : List Int).getD i 0 * 16
    let own : Fin 2 := if s.cal.bank then 1 else 0
    let follows := fun (waiting : List Reselect) => ∀ elem < 50,
      let sets := s.flash.banks[own].setsOf q.val elem
      let now := s.gov.temps.getD (2 * q.val + if elem < 32 then elem / 16 else 0) 0
      let chosen := match waiting.find? fun w => w.quire = q.val && w.element = elem with | some w => w.trim | none => (s.cal.selections.getD q.val []).getD elem ⟨[], []⟩
      let correction := (x.cal[elem]?.map (·.trim)).getD ⟨[], []⟩
      ∀ (dac : Bool), let cells := fun (t : Trim) => if dac then t.dacs else t.taps
        ∀ k < (cells (sets.getD 0 ⟨[], []⟩)).length, let redundant := Config.cells q.val elem k dac
          let at_ := fun (i : Nat) => (((cells (sets.getD i ⟨[], []⟩)).getD k 0 : Int) : ℚ)
          ∀ (i : Nat) (target : ℚ), (i < 4 ∧ set i ≤ now ∧ now ≤ set (i + 1) ∧ target = at_ i + (at_ (i + 1) - at_ i) * ((now - set i : Int) / (set (i + 1) - set i : Int)))
              ∨ (target = at_ i ∧ ((i = 0 ∧ now < -640) ∨ (i = 4 ∧ 2400 < now))) →
            redundant ≠ [] → ∃ v ∈ redundant, (cells chosen)[k]? = some v
              ∧ ∀ u ∈ redundant, |(v : ℚ) - (target + ((cells correction).getD k 0 : Int))| ≤ |(u : ℚ) - (target + ((cells correction).getD k 0 : Int))|
    let e := x.cal.getD pin .reset
    let reading := s.cal.readings.getD (2 * q.val + if pin < 32 then pin / 16 else 0) 0
    let bad := tests &&& failed.setWidth 32
    (h.qmask = BitVec.ofNat 8 (2 ^ q.val) →
      (s.Takes opCalRetrim h p → par p 1 1 < 2 → x.retrim = none → x.state ≠ .off → x.state ≠ .faulted →
        (pin < 32 → x.endpaper.phase = .idle → deferred (joins pin job))
        ∧ (pin = 0xFF → x.endpaper.phase = .idle → deferred (joins 0 { job with pin := 0, all := true }))
        ∧ (pin < 32 → x.endpaper.phase = .serving → x.endpaper.pin = pin → deferred { x with retrim := some { job with step := .measure } })
        ∧ (pin = 32 → x.endpaper.phase = .idle → free → deferred { x with retrim := some { job with step := .measure } }))
      ∧ (s.Takes opCalQuery h p → pin < 33 → x.state ≠ .off → ∃ lo hi : Nat, lo < 5 ∧ hi < 5
        ∧ s.Serves (.calQuery h p) h opCalQuery (le 4 (2 ^ 31 * b2n e.mended + 2 ^ 30 * b2n e.trimFail + 2 ^ 29 * b2n e.lastDac + e.count.toNat) ++ t12 s.modeOz e.timeNs
            ++ le 4 (ofInt 32 reading) ++ [BitVec.ofNat 8 lo, BitVec.ofNat 8 hi] ++ List.replicate 10 0) s
        ∧ (-640 ≤ reading → reading ≤ 2400 → hi = lo + 1 ∧ set lo ≤ reading ∧ reading ≤ set hi) ∧ (reading < -640 → lo = 0 ∧ hi = 0) ∧ (2400 < reading → lo = 4 ∧ hi = 4))
      ∧ (s.Takes opSelftest h p → x.state = .parked ∨ x.state = .stopped →
        (par p 4 1 = 1 → s.Begins (.selftest h p) h opSelftest (s.setQuire q { x with occupied := some (.selftest (hdrDest h 0x60) (parW p 0)) }))
        ∧ (par p 4 1 = 0 → ∃ t, exec (.selftest h p) s = .next t ∧ s.Answers t h opSelftest stDeferred 0 []
            ∧ (s.setQuire q { x with selftest := some (parW p 0) }).Booked t)))
    ∧ (x.retrim = some r → r.step = .measure →
      (1000 < miss → s.Makes (.retrimMeasureDone q miss taps) q { x with retrim := none, cal := lmod x.cal r.pin fun c => { c with trimFail := true, mended := decide (r.pin < 32) } } (s.CountsOne q (rk 0x18 0xC)))
      ∧ (miss ≤ 1000 → free → is (.retrimMeasureDone q miss taps) { x with retrim := some { measured with step := .dacs } })
      ∧ (miss ≤ 1000 → ¬free → r.pin ≠ 32 → is (.retrimMeasureDone q miss taps) (handsBack measured false))
      ∧ (miss ≤ 1000 → ¬free → r.pin = 32 → x.cal.length = 33 → ends (.retrimMeasureDone q miss taps) measured false))
    ∧ (x.retrim = some r → r.step = .dacs →
      (r.pin ≠ 32 → is (.retrimDacMeasureDone q dacs) (handsBack { r with found := { r.found with dacs := dacs } } true))
      ∧ (r.pin = 32 → x.cal.length = 33 → ends (.retrimDacMeasureDone q dacs) { r with found := { r.found with dacs := dacs } } true))
    ∧ (s.boot.step ≠ 0 → ∃ waiting, exec .calTrackUpdate s = .next { s with cal := { s.cal with readings := s.gov.temps, waiting := waiting } } ∧ follows waiting)
    ∧ (s.Takes opCalQuery h p → h.qmask = 0 → ∃ words : List Word, words.length = 8 ∧ s.Serves (.calQuery h p) h opCalQuery (words.flatMap leW) s
        ∧ words.getD 0 0 = BitVec.ofNat 32 (2 ^ 31 * b2n s.cal.commitBusy.isSome + 2 ^ 30 * b2n s.cal.storeValid + 2 ^ 29 * b2n s.spine.patchNone + 2 ^ 28 * b2n s.boot.partitionDefault
            + 2 ^ 8 * b2n s.cal.bank + b2n s.spine.patchSlot)
        ∧ words.getD 1 0 = BitVec.ofNat 32 s.cal.generation ∧ words.getD 2 0 = BitVec.ofNat 32 s.spine.patchGeneration ∧ words.getD 6 0 = s.reg (rk 9 0x18) ∧ words.getD 7 0 = s.reg (rk 9 0x1C))
    ∧ (x.occupied = some (.selftest d tests) → s.Owes d → ∃ t, exec (.selftestDone q failed us) s = .next t ∧ s.Replied t d stOk 0 (leW (tests &&& ~~~bad) ++ leW bad ++ le 4 us)
        ∧ t.quires = (s.setQuire q { x with occupied := none }).quires)
    ∧ (x.selftest = some tests → (∀ d' tests', x.occupied ≠ some (.selftest d' tests')) → is (.selftestDone q failed us) { x with selftest := none })

/-- CAL_COMMIT writes the other bank and replies when it is written: with the compare passed that bank is in force, otherwise the old one stays (R809, R812, R813). PATCH_STAGE assembles an image, checks it and writes it to the other slot; a Spine restart follows SPINE_RESTART once no command occupies a quire, or a machine check, and takes the staged patch when asked for it (R637 to R639, R816 to R821). The model's choices that it rests on: log entries 4, 142, 145, 146. -/
def Obligations.FlashAndSpine : Prop :=
  ∀ (s : State) (h : Hdr) (p : Params) (d : ReplyTo),
    let bank : Fin 2 := if s.cal.bank then 0 else 1
    let own : Fin 2 := if s.cal.bank then 1 else 0
    let slot : Fin 2 := if s.spine.patchSlot then 0 else 1
    let written := s.flash.banks[bank]
    let counts := fun (key : Nat) (t : State) => Counted 1 (s.reg key) (t.reg key)
    let segment := fun (size off : Nat) (data : List Byte) (flags : Byte) => par p 4 4 = size ∧ par p 8 4 = off ∧ p.drop 12 = data ∧ p.getD 0 0 = flags ∧ size ≤ 98480 ∧ off + data.length ≤ size ∧ s.spine.patchWaiter = none
    let asBefore := fun (t : State) => ∀ q, t.quire q = { s.quire q with heldStream := false }
    let wants := fun (stage : Bool) => s.spine.restartWanted = some (some d, stage) ∧ s.spine.restarting = false ∧ (∀ q, (s.quire q).occupied = none)
    (s.Takes opCalCommit h p → s.cal.commitBusy = none → ∃ b : CalBank, b.valid = false ∧ b.generation = s.cal.generation + 1 ∧ b.cal = s.quires.toList.map (·.cal)
        ∧ b.dram = s.flash.banks[own].dram ∧ b.rails = s.flash.banks[own].rails ∧ b.lanes = s.flash.banks[own].lanes ∧ b.factory = s.flash.banks[own].factory
        ∧ s.Begins (.calCommit h p) h opCalCommit { s with cal := { s.cal with commitBusy := some (hdrDest h 0x39) }, flash := { s.flash with banks := s.flash.banks.set bank b } })
    ∧ (s.cal.commitBusy = some d → s.Owes d →
      (∃ t, exec (.calCommitDone true) s = .next t ∧ s.Replied t d stOk 0 [] ∧ counts (rk 9 0x18) t ∧ t.quires = s.quires ∧ t.flash.banks = s.flash.banks.set bank { written with valid := true }
        ∧ t.cal = { s.cal with commitBusy := none, bank := !s.cal.bank, generation := written.generation, commitTime := s.time.ns })
      ∧ (∃ t, exec (.calCommitDone false) s = .next t ∧ s.Replied t d stNoResource 0 [] ∧ counts (rk 9 0x1C) t ∧ t.quires = s.quires ∧ t.flash = s.flash ∧ t.cal = { s.cal with commitBusy := none }))
    ∧ (∀ size data, s.Takes opPatchStage h p →
      (segment size 0 data 1 → s.Serves (.patchStage h p) h opPatchStage [] { s with spine := { s.spine with stagedImage := data, stagedSize := size } })
      ∧ (∀ off, off = s.spine.stagedImage.length → segment size off data 0 → s.Serves (.patchStage h p) h opPatchStage [] { s with spine := { s.spine with stagedImage := s.spine.stagedImage ++ data, stagedSize := size } })
      ∧ (segment size 0 data 3 → data.length = size → Config.patchAuthentic data = true →
        s.Begins (.patchStage h p) h opPatchStage { s with
          spine := { s.spine with stagedImage := data, stagedSize := size, stagedValid := false, patchWaiter := some (hdrDest h 0x58) }
          flash := { s.flash with slots := s.flash.slots.set slot { image := data, generation := s.spine.patchGeneration + 1, isActive := false, isStaged := false } } })
      ∧ (segment size 0 data 3 → data.length = size → Config.patchAuthentic data = false →
        ∃ t, exec (.patchStage h p) s = .next t ∧ s.Answers t h opPatchStage stAuth 0 [] ∧ t.spine.stagedValid = false ∧ t.flash = s.flash))
    ∧ (s.spine.patchWaiter = some d → s.Owes d →
      (∃ t, exec (.patchFlashWriteDone true) s = .next t ∧ s.Replied t d stOk 0 [] ∧ t.flash.slots = s.flash.slots.set slot { s.flash.slots[slot] with isStaged := true }
        ∧ t.spine = { s.spine with patchWaiter := none, stagedValid := true })
      ∧ (∃ t, exec (.patchFlashWriteDone false) s = .next t ∧ s.Replied t d stNoResource 0 [] ∧ t.flash = s.flash ∧ t.spine = { s.spine with patchWaiter := none }))
    ∧ (s.Takes opSpineRestart h p → s.spine.restartWanted = none →
      (par p 0 1 = 0 → s.Begins (.spineRestart h p) h opSpineRestart { s with spine := { s.spine with restartWanted := some (some (hdrDest h 0x59), false) } })
      ∧ (par p 0 1 = 1 → s.spine.stagedValid = true → s.Begins (.spineRestart h p) h opSpineRestart { s with spine := { s.spine with restartWanted := some (some (hdrDest h 0x59), true) } })
      ∧ (par p 0 1 = 1 → s.spine.stagedValid = false → ∃ t, exec (.spineRestart h p) s = .next t ∧ s.Answers t h opSpineRestart stState 0x000F [] ∧ t.spine = s.spine))
    ∧ (4 ≤ s.boot.step → injecting 0x07 0 s.collector.injections = false → ∃ (t : State) (r : Report), exec .machineCheck s = .next t ∧ t.spine = { s.spine with restarting := true, checkInjected := false } ∧ counts (rk 8 8) t
        ∧ t.collector.reports = s.collector.reports ++ [r] ∧ r.severity = .alert ∧ r.checker = 0x07 ∧ r.quire = none ∧ r.injected = false ∧ t.quires = s.quires)
    ∧ (s.heldPackets = [] → s.heldReplies = [] → s.heldTimes = [] →
      (∀ stage, wants stage → s.linkUp d.link = true → (∃ e ∈ (s.session d.link).inProgress, e.1 = d.tag ∧ e.2.1 = d.opcode) →
        ∃ t, exec .spineRestartDone s = .next t ∧ s.Replied t d stOk 0 [] ∧ counts (rk 8 0xC) t ∧ asBefore t ∧ t.spine.restartWanted = none
          ∧ t.spine.activeBank = (s.spine.activeBank != stage) ∧ t.spine.stagedValid = (s.spine.stagedValid && !stage)
          ∧ (stage = false → t.flash = s.flash) ∧ (stage = true → t.flash.slots = s.flash.slots.set slot { s.flash.slots[slot] with isStaged := false, isActive := true }))
      ∧ (s.spine.restarting = true → s.spine.restartWanted = none →
        ∃ t, exec .spineRestartDone s = .next t ∧ t.sent = s.sent ∧ counts (rk 8 0xC) t ∧ asBefore t ∧ t.spine.restarting = false ∧ t.spine.activeBank = s.spine.activeBank ∧ t.flash = s.flash)
      ∧ (s.spine.restarting = false → s.spine.restartWanted = none → exec .spineRestartDone s = .next s))

/-! ### The log, faults and the budget -/

/-- LOG_FREEZE stops the recording until LOG_THAW, LOG_READ returns entries in order, each marked CORRUPT where its check fails as it is read, an entry carries the chip time of its event, and a refill gives every code its tokens of a millisecond (R782 to R787). The model's choice that it rests on: log entry 177. -/
def Obligations.LogCommands : Prop :=
  ∀ (s : State) (h : Hdr) (p : Params) (e : LogEvent),
    let n := par p 4 2
    let taken := (s.log.entries.drop (par p 0 4)).take n
    let bytes := fun (e : LogEntry) => le 4 e.seq ++ t12 s.modeOz e.timeNs ++ le 4 (2 ^ 24 * e.code.toNat + 2 ^ 20 * e.source + 2 ^ 16 * e.quire.toNat + 4 * b2n (h.reads.corrupt.contains e.seq) + 2 * b2n e.injected + b2n e.timeInvalid)
      ++ leW e.detail0 ++ leW e.detail1 ++ leW e.detail2
    let rate := fld (s.reg (rk 7 0)) 0 8
    let burst := fld (s.reg (rk 7 0)) 8 8
    let tokens := fun (t : State) (c : Nat) => sget (fun _ => 0) c t.log.taken
    let room := e.exempt = true ∨ tokens s e.code.toNat < burst
    (s.Takes opLogFreeze h p → ∃ t, exec (.logFreeze h p) s = .next t ∧ s.Answers t h opLogFreeze stOk 0 [] ∧ s.Booked t ∧ (t.session h.link).frozen = true)
    ∧ (s.Takes opLogThaw h p → ∃ t, exec (.logThaw h p) s = .next t ∧ s.Answers t h opLogThaw stOk 0 [] ∧ s.Booked t ∧ (t.session h.link).frozen = false)
    ∧ (s.Takes opLogRead h p → 1 ≤ n → n ≤ 255 → (s.reg (rk 8 (0x104 + 0x20 * h.link.val))).toNat < 2 ^ 32 - 2 → s.Serves (.logRead h p) h opLogRead (le 2 taken.length ++ le 2 0 ++ taken.flatMap bytes) s)
    ∧ ((s.log.taken.map (·.1)).Nodup → ∃ t, exec .logTokenRefill s = .next t ∧ t = { s with log := { s.log with taken := t.log.taken } } ∧ ∀ c, tokens t c = tokens s c - rate)
    ∧ (room → s.frozen = false → s.log.entries.length < 8192 → ∃ x : LogEntry, (s.logEvent e).log.entries = s.log.entries ++ [x] ∧ x.seq = s.log.entries.length ∧ x.code = e.code
        ∧ (x.timeNs, !x.timeInvalid) = e.at_.getD (s.time.ns, s.time.valid) ∧ x.injected = e.injected ∧ x.detail0 = e.d0 ∧ x.detail1 = e.d1 ∧ x.detail2 = e.d2)
    ∧ (room → 8192 ≤ s.log.entries.length → (s.logEvent e).log.entries = s.log.entries ∧ (s.log.lost.toNat < 2 ^ 32 - 2 → (s.logEvent e).log.lost = s.log.lost + 1))
    ∧ (room → s.frozen = true → s.log.entries.length < 8192 → (s.logEvent e).log.entries = s.log.entries ∧ (s.log.frozenDropped.toNat < 2 ^ 32 - 2 → (s.logEvent e).log.frozenDropped = s.log.frozenDropped + 1))
    ∧ (¬room → (sget (fun _ => (0 : Word)) e.code.toNat s.log.suppressed).toNat < 2 ^ 32 - 2 → (s.logEvent e).log.entries = s.log.entries
        ∧ sget (fun _ => (0 : Word)) e.code.toNat (s.logEvent e).log.suppressed = sget (fun _ => (0 : Word)) e.code.toNat s.log.suppressed + 1)

/-- The fault collector: a quire fault parks and faults its quire and fills its first error record; a chip fault faults every quire that is not OFF; an alert changes no quire's state; the pulse of `FAULT_N` ends (R750 to R755, R759 to R764, R767, R775). The model's choices that it rests on: log entries 103, 104. -/
def Obligations.FaultCollection : Prop :=
  ∀ (s : State) (r : Report) (q : QId),
    let x := s.quire q
    let same := fun (t : State) => ∀ r', r' ≠ q → t.quire r' = s.quire r'
    let freed := fun (t : State) (g : QId) => t.quire g = s.quire g ∨ ∃ d, (s.quire g).occupied = some (.ended d) ∧ t.quire g = { s.quire g with occupied := none }
    let faulted := fun (t : State) (g : QId) (cause : Byte) => (t.quire g).state = .faulted ∧ (t.quire g).faultCause = cause ∧ (t.quire g).pins = List.replicate 32 .highZ ∧ (t.quire g).fifo = []
      ∧ (t.quire g).occupied = none ∧ ∀ i ∈ (t.quire g).insts, i.causes.getLsbD 12 = true
    let filed := fun (f : Option ErrRec) => ∃ e, f = some e ∧ e.report = r ∧ e.reports = 1 ∧ e.read = false
    let counter := rk 0x1C (0x200 + 4 * (r.checker - 0x10))
    s.gov.waiting = [] →
      (s.collector.reports = [] → exec .faultCollectWindow s = .next s)
      ∧ (s.collector.reports = [r] → r.quire = some q → 0x10 ≤ r.checker → r.checker ≤ 0x18 →
        (r.severity = .quire → x.state ≠ .off → x.state ≠ .faulted →
          ∃ t, exec .faultCollectWindow s = .next t ∧ t.collector.reports = [] ∧ faulted t q r.cause ∧ (∀ g, g ≠ q → freed t g) ∧ (t.quire q).qfSticky.getLsbD (r.checker - 0x10) = true ∧ s.CountsOne q counter t
            ∧ (x.firstError = none → filed (t.quire q).firstError) ∧ (x.firstError.isSome = true → x.secondError = none → (t.quire q).firstError = x.firstError ∧ filed (t.quire q).secondError)
            ∧ (∀ e, x.firstError.isSome = true → x.secondError = some e → (t.quire q).firstError = x.firstError ∧ ∃ e', (t.quire q).secondError = some e' ∧ e'.report = e.report ∧ Counted 1 e.reports e'.reports)
            ∧ (s.log.entries.length < 8000 → s.frozen = false → ∃ l ∈ t.log.entries, l.code = 0x01 ∧ l.quire = BitVec.ofNat 4 q.val ∧ s.log.entries.length ≤ l.seq)
            ∧ (bit (s.reg (rk 6 0)) 31 = false → t.collector.pulse = true))
        ∧ (r.severity = .alert → ∃ t, exec .faultCollectWindow s = .next t ∧ t.collector.reports = [] ∧ same t ∧ (t.quire q).qfSticky.getLsbD (r.checker - 0x10) = true ∧ s.CountsOne q counter t
            ∧ t.quire q = { x with live := (t.quire q).live, satPages := (t.quire q).satPages, qfSticky := (t.quire q).qfSticky, firstError := (t.quire q).firstError, secondError := (t.quire q).secondError }
            ∧ (x.firstError = none → filed (t.quire q).firstError)
            ∧ t.collector.pulse = (s.collector.pulse || bit (s.reg (rk 6 4)) r.checker)))
      ∧ (s.collector.reports = [r] → r.quire = none → r.checker < 9 → r.severity = .chip →
        ∃ t, exec .faultCollectWindow s = .next t ∧ t.collector.reports = [] ∧ t.collector.faulted = true ∧ (s.collector.faulted = false → t.collector.faultCause = r.cause)
          ∧ t.collector.sticky.getLsbD r.checker = true ∧ (s.collector.firstError = none → filed t.collector.firstError)
          ∧ ∀ g, ((s.quire g).state = .off → freed t g) ∧ ((s.quire g).state ≠ .off → (s.quire g).state ≠ .faulted → faulted t g 0x09 ∧ ((s.quire g).firstError = none → filed (t.quire g).firstError)))
      ∧ exec .faultNPulseEnd s = .next { s with collector := { s.collector with pulse := false } }

/-- FAULT_READ returns the records of its scope and marks them read, and is refused for a quire that is OFF, FAULT_PIN_HOLD holds the pin, FAULT_INJECT leaves checks to be inverted; BUDGET_SET sets the cap and the weights, and BUDGET_QUERY shows the allocation by weight (R41, R620, R705 to R708, R725, R757, R759, R769 to R773). The model's choices that it rests on: log entries 31, 139. -/
def Obligations.FaultAndBudgetCommands : Prop :=
  ∀ (s : State) (h : Hdr) (p : Params) (q : QId),
    let x := s.quire q
    let one := h.qmask = BitVec.ofNat 8 (2 ^ q.val)
    let record := fun (scope : Option QId) (r : Option ErrRec) => match r with
      | none => List.replicate 32 0
      | some e =>
        let a := e.report
        le 4 (2 ^ 31 + 2 ^ 30 * b2n e.transient + 2 ^ 29 * b2n a.injected + 2 ^ 26 * (match a.severity with | .alert => 1 | .quire => 2 | .chip => 3) + 2 ^ 16 * a.checker
            + 2 ^ 8 * (if a.severity = .alert then 0 else a.cause.toNat) + 2 ^ 4 * (match scope with | some g => g.val | none => match a.quire with | some g => g.val | none => 15))
          ++ le 4 (2 ^ 8 * a.detail.toNat + a.element.toNat) ++ t12 s.modeOz a.timeNs ++ leW e.reports ++ leW e.logSeq ++ le 4 0
    let read := fun (r : Option ErrRec) => r.map fun e => { e with read := true }
    let c := par p 0 1
    let e := par p 1 1
    let left := par p 2 2
    let element := if e = 0xFF then 0 else e
    let cap := par p 0 4
    let weight := fun (k : LinkId) => fld (s.reg (rk 5 (0xC + 4 * (k.val / 4)))) (8 * (k.val % 4)) 8
    let opened := (List.finRange 8).filter fun k => (s.session k).isOpen
    let allocatable := fld (s.reg (rk 5 4)) 0 17 - fld (s.reg (rk 5 8)) 0 17
    (s.Takes opFaultRead h p →
      (h.qmask = 0 → s.Serves (.faultRead h p) h opFaultRead (record none s.collector.firstError ++ record none s.collector.secondError)
        { s with collector := { s.collector with firstError := read s.collector.firstError, secondError := read s.collector.secondError } })
      ∧ (one → x.state = .off → ∃ t, exec (.faultRead h p) s = .next t ∧ s.Answers t h opFaultRead stState (detState 0 .off) [] ∧ t.quires = s.quires ∧ t.collector = s.collector)
      ∧ (one → x.state ≠ .off → s.Serves (.faultRead h p) h opFaultRead (record (some q) x.firstError ++ record (some q) x.secondError) (s.setQuire q { x with firstError := read x.firstError, secondError := read x.secondError })))
    ∧ (s.Takes opFaultPinHold h p → c < 2 → s.Serves (.faultPinHold h p) h opFaultPinHold [] { s with collector := { s.collector with hold := c = 1 } })
    ∧ (s.Takes opFaultInject h p → e = 0xFF ∨ e < checkerElements c → left ≠ 0 →
      (h.qmask = 0 → 1 ≤ c → c ≤ 8 → (∀ i ∈ s.collector.injections, i.checker ≠ c) →
        s.Serves (.faultInject h p) h opFaultInject [] { s with collector := { s.collector with injections := s.collector.injections ++ [{ checker := c, element := element, left := left, made := 0 }] } })
      ∧ (one → 0x10 ≤ c → c ≤ 0x18 → x.state ≠ .off → (∀ i ∈ x.injections, i.checker ≠ c) →
        s.Serves (.faultInject h p) h opFaultInject [] (s.setQuire q { x with injections := x.injections ++ [{ checker := c, element := element, left := left, made := 0 }] })))
    ∧ (s.Takes opBudgetSet h p → 20000 ≤ cap → cap ≤ 125000 →
      ∃ t, exec (.budgetSet h p) s = .next t ∧ s.Answers t h opBudgetSet stOk 0 [] ∧ t.reg (rk 5 4) = BitVec.ofNat 32 cap ∧ t.reg (rk 5 0xC) = parW p 4 ∧ t.reg (rk 5 0x10) = parW p 8
        ∧ t.gov = { s.gov with overCap := s.gov.overCap || decide (cap < s.gov.chipPower) } ∧ t.quires = s.quires)
    ∧ (s.Takes opBudgetQuery h p → 0 < (opened.map weight).sum →
      s.Serves (.budgetQuery h p) h opBudgetQuery (le 4 (fld (s.reg (rk 5 4)) 0 17) ++ le 4 (if (s.session h.link).isOpen then allocatable * weight h.link / (opened.map weight).sum else 0)
        ++ le 4 (((List.finRange 8).filter fun g => (s.quire g).owner = some h.link && (s.quire g).reserved).map fun g => (s.quire g).reserveMw).sum
        ++ le 4 s.gov.chipPower ++ leW (s.reg (rk 5 0xC)) ++ leW (s.reg (rk 5 0x10))) s)

/-! ### Measurements and lane tests -/

/-- TMU_MEASURE begins the measurement of its parameters, whose gate opens at its start time; a crossing inside the gate that the slope and the hold-off let through counts, one of a marker only where its signal has such an edge, and is stamped as the mode asks, one outside the gate starts a hold-off only; a measurement of a pin that is being trained has CAUSE TRAINING; the result is published when the gate closes or its fit is done (R427 to R446, R449 to R451, R456). PMU_MEASURE begins the measurement of its parameters; its aperture starts once the settling time has passed and the start time has come; its result is a code that saturates beyond 131,000 (R348 to R355, R359 to R365). The model's choices that it rests on: log entries 105, 106, 107, 108, 109, 110, 168, 169. -/
def Obligations.Measurements : Prop :=
  (∀ (s : State) (h : Hdr) (p : Params) (q : QId) (u : TmuId) (j : TmuJob) (ch : Channel) (rising : Bool) (t : Int),
     let x := s.quire q
     let key := fun (o : Nat) => rk 0x0E (0x40 * u.val + o)
     let puts := fun (j : TmuJob) => ({ x with tmus := x.tmus.set u (some j) } : Quire)
     let is := fun (i : Instr) (y : Quire) => exec i s = .next (s.setQuire q y)
     let start := parT12 s.modeOz p 28
     let opens := s.timingRuns = true ∧ start ≤ s.time.ns
     let passed := start ≠ 0 ∧ start < s.time.ns
     let asked : TmuJob := {
       mode := par p 1 1, srcA := BitVec.ofNat 8 (par p 2 1), srcB := BitVec.ofNat 8 (par p 3 1), slopeA := par p 4 1, slopeB := par p 5 1, holdA := par p 8 4, holdB := par p 12 4
       startN := par p 16 2, stopN := par p 18 2, prescale := par p 20 4, gateNs := par p 24 4, startNs := start, late := decide passed
       gateOpen := decide opens, gateClosed := false, gateTime := if opens then s.time.ns else 0, gateAt := if opens then 4000 * s.time.ticks else 0, a := .reset, b := .reset, startStamp := none, stopCount := 0, interval := none
       stampLimit := false, cause := 0, waiter := if par p 6 1 = 1 then some (hdrDest h 0x61) else none }
     let began := (puts { asked with cause := if x.trainsOn asked then 8 else 0 }).setLive (key 0) ((x.liveReg (key 0) &&& 0x5F000000) ||| BitVec.ofNat 32 (2 ^ 29 * b2n (decide passed) + 2 ^ 16 * par p 1 1 + 2 ^ 8 * asked.srcB.toNat + asked.srcA.toNat))
     let edge := fun (j' : TmuJob) => is (.tmuEdge q u ch rising t) (puts j')
     let instant : Int := (if j.gateOpen then j.gateAt else 4000 * s.time.ticks : Nat) + t
     let inGate := j.gateOpen = true ∧ j.gateClosed = false ∧ 0 ≤ t ∧ t < 4000 * j.gateNs
     let used := fun (slope hold : Nat) (last : Option Int) => (slope = 0 → rising = true) ∧ (slope = 1 → rising = false) ∧ ∀ l, last = some l → l + hold ≤ instant
     let crosses := fun (c : Byte) => c.getLsbD 7 = false ∨ ∃ e ∈ x.markerEdges (c.toNat % 2), (e.1 != bit (x.cfg 0x0B (16 * (c.toNat % 2))) 4) = rising ∧ |instant - e.2| ≤ 100
     let qualifiedA := ch = .a ∧ crosses j.srcA ∧ used j.slopeA j.holdA j.a.lastEdge
     let qualifiedB := ch = .b ∧ crosses j.srcB ∧ (j.mode = 0 ∨ j.mode = 2) ∧ used j.slopeB j.holdB j.b.lastEdge
     let takesA := x.pinsHold = false ∧ qualifiedA ∧ inGate
     let takesB := x.pinsHold = false ∧ qualifiedB ∧ inGate
     let seenA : Stamps := { j.a with edges := j.a.edges + 1, lastEdge := some instant }
     let seenB : Stamps := { j.b with edges := j.b.edges + 1, lastEdge := some instant }
     let stamped := fun (c : Stamps) (v : Int) => ({ c with n := c.n + 1, sumT := c.sumT + v, sumKT := c.sumKT + c.n * v, sumTT := c.sumTT + v * v, lastT := v } : Stamps)
     let deskewed := t - x.stampDeskew j.srcA
     let publishes := fun (i : Instr) (cause : Nat) (also : Quire → Prop) => ∃ s', exec i s = .next s' ∧ (∀ r, r ≠ q → s'.quire r = s.quire r) ∧ (s'.quire q).tmus = x.tmus.set u none
       ∧ (s'.quire q).liveReg (key 0) = BitVec.ofNat 32 (2 ^ 30 * b2n (decide (cause = 0)) + 2 ^ 29 * b2n j.late + 2 ^ 28 * b2n j.stampLimit + 2 ^ 24 * cause + 2 ^ 16 * j.mode + 2 ^ 8 * j.srcB.toNat + j.srcA.toNat)
       ∧ (s'.quire q).liveReg (key 0x18) = BitVec.ofNat 32 j.a.n ∧ (s'.quire q).liveReg (key 0x1C) = BitVec.ofNat 32 j.a.edges
       ∧ ((s'.quire q).liveReg (key 0x24), (s'.quire q).liveReg (key 0x28), (s'.quire q).liveReg (key 0x2C)) = timeWords s.modeOz j.gateTime
       ∧ s.CountsOne q (key 0x30) s' ∧ (j.waiter = none → s'.sent = s.sent)
       ∧ (∀ d, j.waiter = some d → s.Owes d → s.Replied s' d stOk 0 ((List.range 12).flatMap fun o => leW ((s'.quire q).liveReg (key (4 * o))))) ∧ also (s'.quire q)
     let shows := fun (y : Quire) (o : Nat) (v : Int) => y.liveReg (key o) = BitVec.ofInt 32 v ∧ y.liveReg (key (o + 4)) = BitVec.ofInt 32 (v / 2 ^ 32)
     let line := fun (c : Stamps) (a b : ℚ) => let n : ℚ := c.n
       n * a + n * (n - 1) / 2 * b = c.sumT ∧ n * (n - 1) / 2 * a + (n - 1) * n * (2 * n - 1) / 6 * b = c.sumKT
     let residual := fun (y : Quire) (a b : ℚ) => y.liveReg (key 0x14) = BitVec.ofNat 32 (Nat.sqrt ⌊(j.a.sumTT - a * j.a.sumT - b * j.a.sumKT) / j.a.n * 62500⌋.toNat)
     (s.Takes opTmuMeasure h p → h.qmask = BitVec.ofNat 8 (2 ^ q.val) → tmuCheck s.modeOz x p = none → par p 0 1 = u.val →
       (par p 6 1 = 1 → s.Begins (.tmuMeasure h p) h opTmuMeasure (s.setQuire q began))
       ∧ (par p 6 1 = 0 → ∃ s', exec (.tmuMeasure h p) s = .next s' ∧ s.Answers s' h opTmuMeasure stDeferred 0 [] ∧ (s.setQuire q began).Booked s'))
     ∧ (x.tmus[u] = some j →
       (j.gateOpen = false → s.timingRuns = true → j.startNs ≤ s.time.ns → is (.tmuGateOpen q u) (puts { j with gateOpen := true, gateTime := s.time.ns, gateAt := 4000 * s.time.ticks }))
       ∧ (s.time.ns < j.startNs → exec (.tmuGateOpen q u) s = .next s)
       ∧ (x.pinsHold = false → ¬qualifiedA → ¬qualifiedB → exec (.tmuEdge q u ch rising t) s = .next s)
       ∧ (x.pinsHold = false → qualifiedA → ¬inGate → edge { j with a := { j.a with lastEdge := some instant } })
       ∧ (x.pinsHold = false → qualifiedB → ¬inGate → edge { j with b := { j.b with lastEdge := some instant } })
       ∧ (takesB → j.mode = 0 → j.startStamp = none → edge { j with b := seenB })
       ∧ (takesA → j.mode = 3 → edge { j with a := seenA })
       ∧ (takesA → j.mode = 0 → (j.a.edges + 1 = j.startN → edge { j with a := { seenA with n := 1 }, startStamp := some t }) ∧ (j.a.edges + 1 ≠ j.startN → edge { j with a := seenA }))
       ∧ (takesB → j.mode = 0 → ∀ s0, j.startStamp = some s0 →
         (s0 < t → j.stopCount + 1 ≠ j.stopN → edge { j with b := seenB, stopCount := j.stopCount + 1 })
         ∧ (s0 < t → j.stopCount + 1 = j.stopN →
             edge { j with b := seenB, stopCount := j.stopCount + 1, interval := some ((t - x.stampDeskew j.srcB) - (s0 - x.stampDeskew j.srcA)) })
         ∧ (t ≤ s0 → edge { j with b := seenB }))
       ∧ (takesA → j.mode = 1 ∨ j.mode = 2 →
         (j.a.n < 65536 → j.a.edges % j.prescale = 0 → (j.a.n = 0 ∨ 2000 ≤ deskewed - j.a.lastT) → edge { j with a := stamped seenA deskewed })
         ∧ (j.a.n < 65536 → j.a.edges % j.prescale ≠ 0 → edge { j with a := seenA })
         ∧ (0 < j.a.n → j.a.n < 65536 → j.a.edges % j.prescale = 0 → deskewed - j.a.lastT < 2000 → edge { j with a := seenA, cause := if j.cause = 0 then 3 else j.cause })
         ∧ (65536 ≤ j.a.n → edge { j with a := seenA, stampLimit := true }))
       ∧ (j.gateOpen = true → j.gateClosed = false →
         (j.mode = 1 ∨ j.mode = 2 → is (.tmuGateClose q u) (puts { j with gateClosed := true }))
         ∧ (j.mode = 3 → j.cause = 0 → publishes (.tmuGateClose q u) 0 fun _ => True)
         ∧ (j.mode = 0 → j.cause = 0 → j.interval = none → publishes (.tmuGateClose q u) 1 fun _ => True)
         ∧ (∀ v, j.mode = 0 → j.cause = 0 → j.interval = some v → publishes (.tmuGateClose q u) 0 fun y => shows y 4 v))
       ∧ (j.gateOpen = true → j.gateClosed = true →
         (j.mode = 1 → j.cause = 0 → 3 ≤ j.a.n → publishes (.tmuFitDone q u) 0 fun y => ∃ a b, line j.a a b ∧ shows y 4 ⌊b / j.prescale * 250000⌋ ∧ shows y 0xC ⌊a * 250000⌋ ∧ residual y a b)
         ∧ (j.mode = 2 → j.cause = 0 → 3 ≤ j.a.n → 3 ≤ j.b.n → publishes (.tmuFitDone q u) 0 fun y => ∃ a b a' b', line j.a a b ∧ line j.b a' b' ∧ let period := b / j.prescale
             shows y 4 ⌊period * 250000⌋ ∧ shows y 0xC ⌊((a' - a) - period * ⌊(a' - a) / period⌋) * 250000⌋ ∧ residual y a b)
         ∧ (j.mode = 1 ∨ j.mode = 2 → j.cause = 0 → j.a.n < 3 → publishes (.tmuFitDone q u) 2 fun _ => True)
         ∧ (j.cause ≠ 0 → publishes (.tmuFitDone q u) j.cause fun _ => True))
       ∧ (j.gateClosed = false → exec (.tmuFitDone q u) s = .next s)))
  ∧ (∀ (s : State) (h : Hdr) (p : Params) (q : QId) (j : PmuJob) (settled : Nat) (v : Int) (limited : Bool),
     let x := s.quire q
     let start := parT12 s.modeOz p 20
     let asked : PmuJob := {
       pin := par p 0 1, mode := par p 1 1, range := par p 2 1 % 4, force := (BitVec.ofNat 32 (par p 4 4)).toInt, settleUs := par p 8 4, apertureUs := par p 12 4, samples := par p 16 2
       startNs := start, late := false, started := false, timeNs := 0, reserved := bit (x.cfg 0x0A 0) (par p 0 1), waiter := if par p 3 1 = 1 then some (hdrDest h 0x62) else none }
     let began := ({ x with pmu := some asked } : Quire).setLive (rk 0x0A 0x100) (BitVec.ofNat 32 (2 ^ 26 * par p 1 1 + 2 ^ 24 * (par p 2 1 % 4) + 2 ^ 16 * par p 0 1))
     let now := timeWords s.modeOz s.time.ns
     let lim := limited = true ∧ j.mode ≠ 2
     let ends := fun (code : Int) (sat : Bool) => ∃ t, exec (.pmuMeasureDone q v limited) s = .next t ∧ (∀ r, r ≠ q → t.quire r = s.quire r) ∧ (t.quire q).pmu = none
       ∧ (t.quire q).liveReg (rk 0x0A 0x104) = BitVec.ofNat 32 (2 ^ 31 * b2n sat + 2 ^ 30 * b2n (decide lim) + 2 ^ 29 * b2n j.late + 2 ^ 28 + ofInt 18 code)
       ∧ s.CountsOne q (rk 0x0A 0x114) t ∧ Counted (b2n (decide lim)) (x.liveReg (rk 0x0A 0x118)) ((t.quire q).liveReg (rk 0x0A 0x118))
       ∧ (j.waiter = none → t.sent = s.sent)
       ∧ ∀ d, j.waiter = some d → s.Owes d → s.Replied t d stOk 0 ([0x100, 0x104, 0x108, 0x10C, 0x110].flatMap fun o => leW ((t.quire q).liveReg (rk 0x0A o)))
     (s.Takes opPmuMeasure h p → h.qmask = BitVec.ofNat 8 (2 ^ q.val) → pmuCheck s.modeOz x p = none →
       (par p 3 1 = 1 → s.Begins (.pmuMeasure h p) h opPmuMeasure (s.setQuire q began))
       ∧ (par p 3 1 = 0 → ∃ t, exec (.pmuMeasure h p) s = .next t ∧ s.Answers t h opPmuMeasure stDeferred 0 [] ∧ (s.setQuire q began).Booked t))
     ∧ (x.pmu = some j → j.started = false →
       (j.startNs ≤ s.time.ns → ∃ t y, exec (.pmuApertureStart q settled) s = .next t ∧ t = s.setQuire q y
         ∧ y = { x with live := y.live, pmu := some { j with started := true, timeNs := s.time.ns, late := decide (j.startNs ≠ 0 ∧ j.startNs < settled) } }
         ∧ (y.liveReg (rk 0x0A 0x108), y.liveReg (rk 0x0A 0x10C), y.liveReg (rk 0x0A 0x110)) = now
         ∧ ∀ k, k ≠ rk 0x0A 0x108 → k ≠ rk 0x0A 0x10C → k ≠ rk 0x0A 0x110 → y.liveReg k = x.liveReg k)
       ∧ (s.time.ns < j.startNs → exec (.pmuApertureStart q settled) s = .next s)
       ∧ exec (.pmuMeasureDone q v limited) s = .next s)
     ∧ (x.pmu = some j → j.started = true →
       (131000 < v → ends 131071 true) ∧ (v < -131000 → ends (-131072) true) ∧ (-131000 ≤ v → v ≤ 131000 → ends v false)))

/-- LANE_TEST makes a lane that is OUT or FAILED TESTING, its counts 0; its end adds the bits and errors that the checker, once it has its 64 symbols, compared last, and gives the lane its state back (R565 to R569). Writes of `LANE_CTRL` and `LINK_CTRL` and a read of `FEC_PEAK`: a lane taken out leaves its link by a width change, or the change that would add it, and one returned retrains unless it was FAILED, `RETRAIN` retrains a lane, an injection is kept when in range, and `EI_EN` is the governor's under `EI_AUTO` (R519, R550, R551, R554, R557, R558, R569 to R571, R728). The model's choices that it rests on: log entries 125, 126, 148. -/
def Obligations.LaneRegistersAndTests : Prop :=
  (∀ (s : State) (h : Hdr) (p : Params) (n : LaneId) (line : List (Fin 4)) (more wrong : Nat) (a : LaneTest) (was : LanePhase),
     let inject := par p 8 8
     let allowed := par p 0 1 = n.val ∧ par p 1 1 ≤ 3 ∧ par p 2 1 ≤ 3 ∧ par p 3 1 ≤ 1 ∧ par p 4 4 ≠ 0 ∧ (inject = 0 ∨ (2 ^ 10 ≤ inject ∧ inject ≤ 2 ^ 40))
     let asked := fun (w : Word) => ({ pattern := par p 1 1, mode := par p 2 1, durationUs := par p 4 4, inject := inject, waiter := if par p 3 1 = 1 then some (hdrDest h 0x68) else none, back := was
                                       gen := patternStart (par p 1 1) w, sent := 0, received := 0, recent := [], place := none, inTime := false } : LaneTest)
     let counts := [0x20, 0x24, 0x28, 0x2C].map (nkey n)
     let testing := fun (t : State) => (∃ w, t.lane n = { s.lane n with phase := .testing, test := some (asked w), testValid := false }) ∧ (∀ m, m ≠ n → t.lane m = s.lane m) ∧ ∀ k ∈ counts, t.reg k = 0
     let checked := if (s.lane n).phase = .testing ∧ (a.mode = 1 ∨ a.mode = 2) then (unprecode (s.lane n).rxPrecode (s.lane n).rxLast line).foldl LaneTest.check (a, 0, 0) else (a, 0, 0)
     let valid := a.mode = 3 ∨ (a.mode ≠ 0 ∧ checked.1.inTime = true)
     let all := 53125 * a.durationUs
     let rest := if a.mode = 3 then (2 * (all - max a.sent 64), if a.inject = 0 then 0 else 2 * all / a.inject - 2 * a.sent / a.inject)
       else if a.mode = 0 ∨ checked.1.place = none then (0, 0) else (2 * more, wrong)
     let long := fun (t : State) (o : Nat) => (t.reg (nkey n o)).toNat + 2 ^ 32 * (t.reg (nkey n (o + 4))).toNat
     let b := min (long s 0x28 + checked.2.1 + rest.1) (2 ^ 64 - 1)
     let e := min (long s 0x20 + checked.2.2 + rest.2) (2 ^ 64 - 1)
     (s.Takes opLaneTest h p → allowed → (s.lane n).phase = was → was = .out ∨ was = .failed →
       (par p 3 1 = 1 → ∃ t, exec (.laneTest h p) s = .next t ∧ t.sent = s.sent ∧ testing t ∧ (h.tag, opLaneTest.opcode, h.qmask) ∈ (t.session h.link).inProgress)
       ∧ (par p 3 1 = 0 → ∃ t, exec (.laneTest h p) s = .next t ∧ s.Answers t h opLaneTest stDeferred 0 [] ∧ testing t))
     ∧ (s.Takes opLaneTest h p → allowed → (s.lane n).phase ≠ .out → (s.lane n).phase ≠ .failed → ∃ t, exec (.laneTest h p) s = .next t ∧ s.Answers t h opLaneTest stState 0x000F [] ∧ t.lanes = s.lanes)
     ∧ ((s.lane n).test = none → exec (.laneTestDone n line more wrong) s = .next s)
     ∧ ((s.lane n).test = some a → ∃ t, exec (.laneTestDone n line more wrong) s = .next t
         ∧ t.lane n = { s.lane n with test := none, testValid := decide valid, phase := a.back } ∧ (∀ m, m ≠ n → t.lane m = s.lane m) ∧ t.quires = s.quires
         ∧ (a.waiter = none → t.sent = s.sent ∧ long t 0x20 = e ∧ long t 0x28 = b
             ∧ ∀ k, k ∉ counts → t.reg k = s.reg k)
         ∧ ∀ d, a.waiter = some d → s.Owes d → s.Replied t d stOk 0 (le 8 b ++ le 8 e ++ le 1 (b2n (decide valid)) ++ le 3 0)))
  ∧ (∀ (s : State) (h : Hdr) (p : Params) (n : LaneId) (k : LinkId),
     let v := parW p 4
     let x := s.lane n
     let l := s.link k
     let old := s.reg (nkey n 0)
     let new := (old &&& ~~~0xA01FFFFF) ||| (v &&& 0xA01FFFFF)
     let out := bit v 31 = true
     let wasOut := bit old 31 = true
     let quiet := bit v 30 = false
     let inRange := fld v 16 5 ≤ 16
     let own := BitVec.ofNat 8 (2 ^ (n.val - l.base))
     let served := fun (i : Instr) (also : State → Prop) => ∃ t, exec i s = .next t ∧ s.Answers t h opWriteCfg stOk 0 [] ∧ t.quires = s.quires ∧ t.reg (nkey n 0) = new
       ∧ (∀ m, m ≠ n → t.lane m = s.lane m) ∧ also t
     let refused := fun (i : Instr) (st : Byte) (detail : BitVec 16) => ∃ t, exec i s = .next t ∧ s.Answers t h opWriteCfg st detail [] ∧ t.lanes = s.lanes ∧ t.reg (nkey n 0) = old
     let others := ∃ m, m ≠ n ∧ m ∈ l.service ∧ (s.lane m).leave = none
     let inService := s.linkOf n = some k ∧ l.carries = true ∧ l.serves n = true ∧ ∀ g, (s.link g).serves n = true → g = k
     let up := ∃ g, s.linkOf n = some g ∧ (s.link g).carries = true
     let leaves := fun (to_ : LanePhase) (t : State) => t.lane n = { x with leave := some to_ } ∧ (t.link k).phase = .changing
       ∧ (t.link k).change = some { mask := l.inService &&& ~~~own, at_ := s.nextCw k + 8, fromChip := true, sent := false, acked := false, txDone := false, rxDone := false, attempts := 0 }
     let unlocked := fun (y : Lane) => { y with lock := false, goodHeaders := 0, badHeaders := 0, rxSeq := none, rxQueue := [], ready := false, idleSince := none, lastMs := [] }
     let retrains := fun (y : Lane) (t : State) => (up → t.lane n = { unlocked y with phase := .retraining, attempts := 0, leave := none, wasFailed := false })
       ∧ (¬up → t.lane n = { unlocked y with phase := .down, attempts := 0, leave := none, wasFailed := false })
     let goesOut : Lane := { unlocked x with phase := .out, leave := none, wasFailed := x.wasFailed || x.phase = .failed }
     (s.Takes opWriteCfg h p → par p 0 4 = 2 ^ 20 * 4 + 0x1000 + 0x40 * n.val →
       (inRange → out → ¬wasOut → quiet →
         (inService → others → l.change = none → served (.laneOut h p) (leaves .out))
         ∧ (inService → h.link = k → l.change = none → ¬others → refused (.laneOut h p) stState 0x000F)
         ∧ ((∀ g, (s.link g).serves n = false ∧ (s.link g).hears n = false) → x.phase ≠ .testing → x.ready = false → served (.laneOut h p) fun t => t.lane n = goesOut)
         ∧ (∀ c, (∀ g, (s.link g).serves n = false ∧ (s.link g).hears n = false) → x.phase = .retraining → x.ready = true → s.linkOf n = some k → l.carries = true → l.change = some c → c.acked = false →
             c.mask &&& ~~~own ≠ 0 → served (.laneOut h p) fun t => t.lane n = goesOut ∧ (t.link k).change.map (·.mask) = some (c.mask &&& ~~~own)))
       ∧ (inRange → ¬out → wasOut ∨ x.phase = .testing → quiet →
         (x.phase = .out → x.wasFailed = false → served (.laneReturn h p) (retrains x))
         ∧ (x.phase = .out → x.wasFailed = true → served (.laneReturn h p) fun t => t.lane n = { x with phase := .failed, wasFailed := false })
         ∧ (∀ a : LaneTest, x.phase = .testing → x.test = some a → a.waiter = none → served (.laneReturn h p) (retrains { x with test := none, testValid := false }))
         ∧ (x.phase = .inLink → x.leave = some .out → served (.laneReturn h p) fun t => t.lane n = { x with leave := if x.ready then none else some .retraining }))
       ∧ (inRange → ¬out → ¬wasOut → bit v 30 = true →
         (x.phase = .failed ∨ x.phase = .down → served (.laneRetrain h p) (retrains x))
         ∧ (x.phase = .inLink → inService → others → x.leave = none → l.change = none → served (.laneRetrain h p) (leaves .retraining)))
       ∧ (inRange → out → wasOut → bit v 30 = true → (∀ g, (s.link g).serves n = false) → x.phase = .out → served (.laneRetrain h p) fun t => t.lane n = { x with wasFailed := false })
       ∧ (inRange → (out ↔ wasOut) → quiet → out ∨ x.phase ≠ .testing → ¬out ∨ (∀ g, (s.link g).serves n = false) → served (.fecInjectWrite h p) fun t => t.lane n = x)
       ∧ (¬inRange → refused (.fecInjectWrite h p) stRange 4))
     ∧ (s.Takes opReadCfg h p → par p 0 4 = 2 ^ 20 * 4 + 0x1000 + 0x40 * n.val + 0x30 → par p 4 2 = 1 →
       s.Serves (.fecPeakRead h p) h opReadCfg (le 4 (2 ^ 7 * b2n x.testValid + 2 ^ 6 * b2n x.test.isSome + x.fecPeak)) { s with lanes := s.lanes.set n { x with fecPeak := 0 } })
     ∧ (s.Takes opWriteCfg h p → par p 0 4 = 2 ^ 20 * 4 + 0x108 + 0x40 * k.val → let key := rk 4 (0x108 + 0x40 * k.val)
       (bit (s.reg (rk 5 0)) 31 = false → s.Serves (.eiEnWrite h p) h opWriteCfg [] (s.setReg key ((s.reg key &&& ~~~0x8000FFFF) ||| (v &&& 0x8000FFFF))))
       ∧ (bit (s.reg (rk 5 0)) 31 = true → ∃ t, exec (.eiEnWrite h p) s = .next t ∧ s.Answers t h opWriteCfg stState 0x000F [] ∧ t.reg key = s.reg key)))

/-! ### Registers with a row of their own -/

/-- The registers of time, clocks and fault reporting that have rows of their own: a new reference, `SYNC_MODE`, the skew, the kettle chain's sends, `TIME0` and its latch, the transmit queue, and `HOLD_US` (R659, R676, R681, R691, R693, R695 to R700, R747, R790). A write of `FENCEk` sets the fences of its 32 engines, and moves a PARKED quire to STAGED; an engine that is unfenced while it runs no item has zeroed stores and no context loaded, and every other engine stays as it is (R243, R807, R808). The model's choices that it rests on: log entries 143, 148. -/
def Obligations.ClockTimeAndFenceRegisters : Prop :=
  (∀ (s : State) (h : Hdr) (p : Params) (k : LinkId),
     let v := parW p 4
     let c := s.clock
     let written := fun (key : Nat) (mask : Word) => (s.reg key &&& ~~~mask) ||| (v &&& mask)
     let sets := fun (i : Instr) (key : Nat) (mask : Word) => s.Serves i h opWriteCfg [] (s.setReg key (written key mask))
     let refused := fun (i : Instr) (key : Nat) (st : Byte) (detail : BitVec 16) =>
       ∃ t, exec i s = .next t ∧ s.Answers t h opWriteCfg st detail [] ∧ t.clock = s.clock ∧ t.time = s.time ∧ t.reg key = s.reg key
     let same := bit v 0 = true ∧ fld v 16 4 = fld (s.reg (rk 1 0)) 16 4
     let onRec := c.timingSrc = .recovered ∧ c.domain ≠ .stopped
     let playing := fun (q : QId) => (s.quire q).state = .armed ∨ (s.quire q).state = .running ∨ (s.quire q).state = .paused
     let mode := fld v 30 2
     let periodOk := 2000 ≤ fld v 0 16 ∧ fld v 0 16 ≤ 4500
     let master := fld (s.reg (rk 3 0x100)) 30 2 = 1
     let frame := fun (type payload : Nat) (g : BitVec 96) => g.toNat % 256 = 0xD5 ∧ g.toNat / 2 ^ 8 % 16 = type ∧ g.toNat / 2 ^ 12 % 256 = 0 ∧ g.toNat / 2 ^ 20 % 2 ^ 64 = payload
       ∧ g.toNat / 2 ^ 84 = (crc12 g).toNat
     let x := s.time.ptp[k]
     let now := timeWords s.modeOz s.time.ns
     (s.Takes opWriteCfg h p →
       (par p 0 4 = 2 ^ 20 →
         (same → sets (.refSelectWrite h p) (rk 1 0) 0x000F0003)
         ∧ (¬same → c.timingSrc ≠ .recovered → ∃ t, exec (.refSelectWrite h p) s = .next t ∧ s.Answers t h opWriteCfg stOk 0 [] ∧ t.clock = { c with recovered := .judging, recWindows := 0 }
             ∧ t.reg (rk 1 0) = written (rk 1 0) 0x000F0003 ∧ t.time = s.time)
         ∧ (¬same → onRec → (∃ q, playing q) → refused (.refSelectWrite h p) (rk 1 0) stState 0x000F)
         ∧ (¬same → onRec → (∀ q, ¬playing q ∧ (s.quire q).dests = []) → c.domain = .running → ∃ t, exec (.refSelectWrite h p) s = .next t ∧ s.Answers t h opWriteCfg stOk 0 []
             ∧ t.clock.timingSrc = (if c.xo = .good then .xo else .none) ∧ t.clock.recovered = .judging ∧ t.time.valid = false ∧ t.reg (rk 1 0) = written (rk 1 0) 0x000F0003))
       ∧ (par p 0 4 = 2 ^ 20 * 3 →
         (mode ≠ 3 → periodOk → mode = 1 ∨ mode ≠ s.syncMode → ∃ t, exec (.syncModeWrite h p) s = .next t ∧ s.Answers t h opWriteCfg stOk 0 [] ∧ t.reg (rk 3 0) = written (rk 3 0) 0xC000FFFF
           ∧ t.time = { s.time with syncState := if mode = 1 then .acquire else .off, misses := 0, syncOut := none } ∧ (holding 6 0 s.collector.injections = false → t.collector.live.getLsbD 6 = false))
         ∧ (mode ≠ 3 → periodOk → mode ≠ 1 → mode = s.syncMode → sets (.syncModeWrite h p) (rk 3 0) 0xC000FFFF)
         ∧ (mode = 3 ∨ ¬periodOk → refused (.syncModeWrite h p) (rk 3 0) stRange 4))
       ∧ (par p 0 4 = 2 ^ 20 * 3 + 4 → sets (.syncSkewWrite h p) (rk 3 4) 0xFFFFF)
       ∧ (par p 0 4 = 2 ^ 20 * 6 →
         (20 ≤ fld v 0 10 → fld v 0 10 ≤ 1000 → sets (.holdUsWrite h p) (rk 6 0) 0x800003FF)
         ∧ (fld v 0 10 < 20 ∨ 1000 < fld v 0 10 → refused (.holdUsWrite h p) (rk 6 0) stRange 4))
       ∧ (par p 0 4 = 2 ^ 20 * 3 + 0x104 →
         (fld v 28 4 = 1 → master → ∃ g, frame 1 (s.time.ns % 2 ^ 64) g ∧ s.Serves (.kcSendTimeLoad h p) h opWriteCfg [] { s with time := { s.time with kco := some g } })
         ∧ (fld v 28 4 = 2 → master → ∃ g, frame 2 0 g ∧ s.Serves (.kcSendPing h p) h opWriteCfg [] { s with time := { s.time with kco := some g, pingOut := true } })
         ∧ (¬master → refused (.kcSendTimeLoad h p) (rk 3 0x104) stState 0x000F ∧ refused (.kcSendPing h p) (rk 3 0x104) stState 0x000F))
       ∧ (par p 0 4 = 2 ^ 20 * 2 + 0x134 + 0x40 * k.val → bit v 0 = true →
         s.Serves (.tsqPop h p) h opWriteCfg [] { s with time := { s.time with ptp := s.time.ptp.set k { x with tsq := x.tsq.drop 1 } } }))
     ∧ (s.Takes opReadCfg h p → par p 0 4 = 2 ^ 20 * 2 → par p 4 2 = 1 →
       s.Serves (.time0Read h p) h opReadCfg (leW now.1) { s with time := { s.time with latched := (now.2.1, now.2.2, BitVec.ofNat 32 s.time.frac) } }))
  ∧ (∀ (s : State) (h : Hdr) (p : Params) (q : QId) (k : Fin 4),
     let v := parW p 4
     let x := s.quire q
     let sets := fun (i : Instr) => ∃ y, s.Serves i h opWriteCfg [] (s.setQuire q y) ∧ y = { x with fences := y.fences, engines := y.engines, state := if x.state = .parked then .staged else x.state }
       ∧ ∀ e : EngId, y.fences.getLsbD e.val = (if e.val / 32 = k.val then v.getLsbD (e.val % 32) else x.fences.getLsbD e.val)
           ∧ let a := x.engine e.val
             let freed := x.fences.getLsbD e.val = true ∧ y.fences.getLsbD e.val = false ∧ a.item = none
             (freed → y.engine e.val = { Engine.reset with eccCorrected := a.eccCorrected, lastUse := a.lastUse }) ∧ (¬freed → y.engine e.val = a)
     s.Takes opWriteCfg h p → par p 0 4 = 2 ^ 28 * (q.val + 1) + 2 ^ 20 * 0x18 + 0x10 + 4 * k.val → x.state ≠ .off → sets (.fenceEngine h p) ∧ sets (.unfenceEngine h p))

/-! ### The endpaper and the checks of pins and supplies -/

/-- The endpaper takes a pin over and hands it back: at once where no pattern runs, and otherwise after a chunk on which both agreed; where they disagreed the instance of the compared chunk takes ENDPAPER and the attempt is aborted; a forced takeover marks the instance in play, and a re-trim that completes leaves its corrections (R293 to R299, R301, R303, R744, R796, R798, R803). The model's choices that it rests on: log entries 34, 141. -/
def Obligations.EndpaperTakeovers : Prop :=
  ∀ (s : State) (q : QId) (pin : PinId) (r : Retrim),
    let x := s.quire q
    let e := x.endpaper
    let marked := fun (y : Quire) => { y with insts := y.insts.map fun i => if i.hold = none then { i with causes := i.causes ||| 0x0800 } else i }
    let due := fun (y : Quire) => if e.forced then marked y else y
    let one := fun (id : Nat) => { x with insts := x.insts.map fun i => if i.id = id then { i with causes := i.causes ||| 0x0800 } else i }
    let waits := if s.time.ticks * 4000 < x.position then (x.playing.filter fun a => a.chunk.isSome).map (·.instId) else none
    let serves := fun (skipped : Bool) (y : Quire) => { y with
      endpaper := { e with phase := .serving, comparing := false, drives := some pin }
      retrim := x.retrim.map fun r => if r.step = .takeover then { r with step := .measure, skipped := skipped } else r }
    let over_ := { e with phase := .idle, comparing := false, forced := false }
    let back := { x with endpaper := { over_ with drives := none } }
    let trimmed := { back with retrim := none, cal := lmod x.cal r.pin fun c => { c with count := if c.count = 0xFFFF then c.count else c.count + 1, timeNs := if r.skipped then r.measuredAt else s.time.ns, trimFail := false, mended := false, trim := { taps := r.found.taps, dacs := if r.found.dacs = [] then c.trim.dacs else r.found.dacs } } }
    let goesOn := { trimmed with
      endpaper := { over_ with drives := none, phase := .joining, pin := r.pin + 1, forced := r.forced, compared := none }
      retrim := some { r with pin := r.pin + 1, step := .takeover, skipped := false, found := ⟨[], []⟩ } }
    let joins := s.CountsOne q (rk 0x04 0x11014)
    let endsBack := fun (i : Instr) => (x.retrim = none → exec i s = .next (s.setQuire q back)) ∧ (x.retrim = some r → r.step = .handBack → (r.all = false ∨ 31 ≤ r.pin → s.Makes i q trimmed (s.CountsOne q (rk 0x18 4))) ∧ (r.all = true → r.pin < 31 → s.Makes i q goesOn (s.CountsOne q (rk 0x18 4))))
    e.pin = pin.val →
      (e.phase = .joining → e.comparing = false →
        (x.state ≠ .running → s.Makes (.epJoinDone q) q (serves true (due x)) joins)
        ∧ (x.state = .running → e.forced = true → s.Makes (.epJoinDone q) q (serves false (marked x)) joins)
        ∧ (x.state = .running → e.forced = false → exec (.epJoinDone q) s = .next (s.setQuire q { x with endpaper := { e with phase := .comparing, comparing := true, compared := waits } })))
      ∧ (e.phase = .handingBack → e.comparing = false →
        (x.state ≠ .running → endsBack (.epJoinDone q))
        ∧ (x.state = .running → exec (.epJoinDone q) s = .next (s.setQuire q { x with endpaper := { e with comparing := true, compared := waits } })))
      ∧ (e.phase = .idle ∨ e.phase = .serving → exec (.epJoinDone q) s = .next s ∧ ∀ agreed, exec (.epSwitch q agreed) s = .next s)
      ∧ (e.phase = .comparing → s.Makes (.epSwitch q true) q (serves false (due x)) joins)
      ∧ (e.phase = .handingBack → e.comparing = true → endsBack (.epSwitch q true))
      ∧ (e.phase = .comparing ∨ (e.phase = .handingBack ∧ e.comparing = true) →
        s.Makes (.epSwitch q false) q { (match e.compared with | some i => one i | none => marked x) with endpaper := over_, retrim := none } fun t => s.CountsOne q (rk 0x04 0x11018) t ∧ (t.quire q).liveReg (rk 0x04 0x1101C) = 1
          ∧ (x.retrim.isSome = true → s.CountsOne q (rk 0x18 8) t))

/-- Checks of a pin's edges, its driver and its DACs: a bad one is counted, marks the instances it can concern and is an alert, and four chunks in a row, two samples in a row, or one DAC, are a quire fault (R276 to R279, R326, R337 to R342, R347, R357, R741, R742, R744, R772). The model's choices that it rests on: log entries 35, 100, 102. -/
def Obligations.PinChecks : Prop :=
  ∀ (s : State) (q : QId) (pin : PinId) (uv : Int) (seq : Nat) (k : EdgeCheck) (pl : Play) (enabled : Bool) (region v : Fin 4) (dac : DacKind),
    let x := s.quire q
    let p := pin.val
    let marked := fun (b : BitVec 16) (span : Nat) => x.insts.map fun i => if i.hold = none ∨ s.time.ticks - i.endedAt ≤ span then { i with causes := i.causes ||| b } else i
    let quiet := fun (checker element : Nat) => injecting checker element x.injections = false
    let report := fun (sev : Severity) (checker : Nat) (cause : Byte) (detail : Int) (injected : Bool) => ({
      severity := sev, checker := checker, quire := some q, acts := [], element := BitVec.ofNat 8 p, cause := cause, detail := BitVec.ofInt 24 detail, injected := injected
      timeNs := s.time.ns, timeValid := s.time.valid } : Report)
    let reported := fun (l : List Report) (t : State) => t.collector.reports = s.collector.reports ++ l
    let last := fun (code : Nat) (t : State) => (t.quire q).liveReg (rk 9 0x100C) = BitVec.ofNat 32 (2 ^ 8 * p + code)
    let g := if x.endpaper.drives = some pin then 32 else p
    let word := (pl.chunk.map fun c => c.edges.getD p 0).getD 0
    let drives := word.toNat % 2 ^ 16
    let strobes := word.toNat / 2 ^ 16
    let clean := k.missing = 0 ∧ k.extra = 0 ∧ k.drives = drives ∧ k.strobes = strobes
    let diff : Int := if k.missing ≠ 0 ∨ k.extra ≠ 0 then k.extra - k.missing else (k.drives : Int) + k.strobes - drives - strobes
    let edges := Instr.edgeMismatch q pin seq k
    let bad := fun (k : Nat) (y : Quire) => sget (fun _ => 0) k y.edgeBad
    let t := fun (k : Nat) => (x.thresholdsNow p).getD k 0
    let level : Int := x.level p v.val
    let driven := x.driveNow p = .level v
    let idle := x.driveNow p = .highZ
    let reads := region.val = ((List.range 3).filter fun k => t k ≤ level).length ∨ ∃ k < 3, |level - t k| ≤ 60 ∧ (region.val = k ∨ region.val = k + 1)
    let sample := Instr.readbackSample q pin enabled region
    let fails := fun (code : Nat) (injected : Bool) (i : List Injection) => s.Makes sample q { x with rbFailed := setBit x.rbFailed p, insts := marked 0x0040 2000, injections := i } fun t =>
      s.CountsOne q (rk 9 0x1000) t ∧ last code t
        ∧ reported (report .alert 0x13 0 0 injected :: if x.rbFailed.getLsbD p then [report .quire 0x13 0x05 0 injected] else []) t
    let clamp := dac = .clampLo ∨ dac = .clampHi
    let code : Int := match dac with
      | .level v => 500 * x.level p v.val
      | .vtt => 500 * x.vtt p
      | .threshold k => 500 * x.threshold p k.val
      | .clampLo => 1000 * x.clampLo p - 500000
      | .clampHi => 1000 * x.clampHi p - 500000
    let off_ := uv - code
    (x.playOf seq = none → exec edges s = .next s)
    ∧ (x.playOf seq = some pl → quiet 0x14 p →
      (clean → ∃ y, exec edges s = .next (s.setQuire q y) ∧ y = { x with edgeBad := y.edgeBad } ∧ bad g y = 0 ∧ ∀ k, k ≠ g → bad k y = bad k x)
      ∧ (¬clean → ∃ s' y, exec edges s = .next s' ∧ s.Within s' q ∧ s'.quire q = y
          ∧ y = { x with live := y.live, satPages := y.satPages, edgeBad := y.edgeBad, insts := marked 0x0080 1000, playing := y.playing, recent := y.recent }
          ∧ y.playOf seq = some { pl with mismatched := true } ∧ bad g y = bad g x + 1 ∧ (∀ k, k ≠ g → bad k y = bad k x)
          ∧ (pl.mismatched = false → s.CountsOne q (rk 0x04 0x11004) s') ∧ (pl.mismatched = true → y.live = x.live ∧ y.playing = x.playing ∧ y.recent = x.recent)
          ∧ reported (report .alert 0x14 0 diff false :: if 4 ≤ bad g x + 1 then [report .quire 0x14 0x06 diff false] else []) s'))
    ∧ (x.state = .off → exec sample s = .next s ∧ exec (.dacCheck q pin dac uv) s = .next s)
    ∧ (x.state ≠ .off → quiet 0x13 p →
      ((idle ∧ enabled = false) ∨ (driven ∧ enabled = true ∧ reads) → exec sample s = .next (s.setQuire q { x with rbFailed := clrBit x.rbFailed p }))
      ∧ (idle → enabled = true → fails 2 false x.injections) ∧ (driven → enabled = false → fails 2 false x.injections) ∧ (driven → enabled = true → ¬reads → fails 1 false x.injections))
    ∧ (∀ n m, x.state ≠ .off → x.injections = [{ checker := 0x13, element := p, left := n + 2, made := m }] →
      (driven → enabled = true → fails 1 true [{ checker := 0x13, element := p, left := n + 1, made := m + 1 }]) ∧ (idle → fails 2 true [{ checker := 0x13, element := p, left := n + 1, made := m + 1 }]))
    ∧ (x.state ≠ .off → (clamp → quiet 0x12 (p + 0x20)) → (¬clamp → quiet 0x12 p) →
      (|off_| ≤ 8000 → exec (.dacCheck q pin dac uv) s = .next s)
      ∧ (8000 < |off_| → s.Makes (.dacCheck q pin dac uv) q { x with insts := marked 0x0040 20000 } fun t => s.CountsOne q (rk 9 0x1004) t ∧ last 3 t
        ∧ ∃ fault : Byte, (clamp → fault = 0x04) ∧ (¬clamp → fault = 0x03) ∧ reported [report .alert 0x12 0 (off_.tdiv 1000) false, report .quire 0x12 fault (off_.tdiv 1000) false] t))

/-- Clamps, VPINq and VCORE: a clamp current above 20 mA is counted, an overload of a pin and a VPINq out of the window about its commanded ramp are lasting conditions that fault the quire and are reported where they begin, VPINq in its window lets an OFF quire enter PARKED, and VCORE out of its window is an alert that marks what played; a record that nobody has read becomes transient when its condition ends; an injected check counts as one measurement, of which the tenth in a row meets an overload (R313, R314, R332, R333, R39, R40, R744, R745, R756, R757, R810, R822, R838, R862). The model's choices that it rests on: log entry 101. -/
def Obligations.ClampAndSupplyChecks : Prop :=
  ∀ (s : State) (q : QId) (pin : PinId) (ma mv : Nat),
    let x := s.quire q
    let is := fun (i : Instr) (y : Quire) => exec i s = .next (s.setQuire q y)
    let marked := fun (y : Quire) (b : BitVec 16) => y.insts.map fun i => if i.hold = none ∨ s.time.ticks - i.endedAt ≤ 5000 then { i with causes := i.causes ||| b } else i
    let settled := fun (y : Quire) =>
      let f := fun (e : ErrRec) =>
        let r := e.report
        let gone := if r.injected then ¬holding r.checker (if r.checker = 0x11 then r.element.toNat else 0) y.injections
          else ¬(r.checker = 0x10 ∧ y.vpinOut = true) ∧ ¬(r.checker = 0x11 ∧ bit y.overloaded r.element.toNat = true)
        if (r.checker = 0x10 ∨ r.checker = 0x11) ∧ r.severity ≠ .chip ∧ e.read = false ∧ gone then { e with transient := true } else e
      { y with firstError := y.firstError.map f, secondError := y.secondError.map f }
    let report := fun (checker : Nat) (element cause : Byte) (detail : Int) (injected : Bool) => ({
      severity := .quire, checker := checker, quire := some q, acts := [], element := element, cause := cause, detail := BitVec.ofInt 24 detail, injected := injected
      timeNs := s.time.ns, timeValid := s.time.valid } : Report)
    let reported := fun (l : List Report) (t : State) => t.collector.reports = s.collector.reports ++ l
    let over_ := x.overloaded.getLsbD pin.val = true
    let overload := fun (injected : Bool) => report 0x11 (BitVec.ofNat 8 pin.val) 0x02 0 injected
    let ended := settled { x with overloaded := clrBit x.overloaded pin.val }
    let moved := (s.time.ticks - x.vpinSince) / 1000
    let set := if x.vpinFrom ≤ x.vpinSetpoint then min x.vpinSetpoint (x.vpinFrom + moved) else max x.vpinSetpoint (x.vpinFrom - moved)
    let inside := set ≤ mv + 40 ∧ mv ≤ set + 40
    let compared := settled { x with
      vpinMv := mv % 65536, vpinOk := decide inside, vpinHeld := x.vpinHeld && decide inside, vpinOut := decide (¬inside ∧ x.state ≠ .off)
      vpinGood := if x.vpinOk then x.vpinGood else s.time.ticks }
    let comparison := fun (i : Instr) =>
      (inside ∨ x.state = .off → is i compared)
      ∧ (¬inside → x.state ≠ .off → s.Makes i q { compared with insts := marked x 0x2000 } (reported (if x.vpinOut then [] else [report 0x10 0xFF 0x01 mv false])))
    let held := { compared with vpinHeld := true }
    let parked := { held with state := .parked, staging := [], dirty := 0, sealedPages := 0, crcWritten := [] }
    let vcoreOk := 680 ≤ mv ∧ mv ≤ 1070
    let vcoreOut := s.collector.real.getLsbD 2 = true
    (x.state ≠ .off → injecting 0x11 pin.val x.injections = false →
      (ma ≤ 20 → is (.clampOvercurrent q pin ma) ended)
      ∧ (20 < ma → ma ≤ 50 → s.Makes (.clampOvercurrent q pin ma) q ended (s.CountsOne q (rk 9 0x1008)))
      ∧ (50 < ma → s.Makes (.clampOvercurrent q pin ma) q x (s.CountsOne q (rk 9 0x1008)))
      ∧ s.Makes (.clampOverload q pin) q { x with overloaded := setBit x.overloaded pin.val } (reported (if over_ then [] else [overload false])))
    ∧ (∀ n m, x.state ≠ .off → x.injections = [{ checker := 0x11, element := pin.val, left := n + 2, made := m }] → ma ≤ 20 →
      ∃ t, exec (.clampOvercurrent q pin ma) s = .next t ∧ s.Within t q ∧ (t.quire q).injections = [{ checker := 0x11, element := pin.val, left := n + 1, made := m + 1 }]
        ∧ reported (if m + 1 = 10 then [overload true] else []) t ∧ ((t.quire q).qfLive.getLsbD 1 = true ↔ (t.quire q).overloaded ≠ 0 ∨ 10 ≤ m + 1))
    ∧ (x.state = .off → exec (.clampOvercurrent q pin ma) s = .next s ∧ exec (.clampOverload q pin) s = .next s)
    ∧ (injecting 0x10 0 x.injections = false →
      comparison (.vpinOutOfWindow q mv) ∧ comparison (.vpinInWindow q mv)
      ∧ (inside → x.state ≠ .off ∨ s.boot.step < 9 → is (.vpinWindowSettled q mv) held)
      ∧ (inside → x.state = .off → 9 ≤ s.boot.step → (s.mendedPin q = none → is (.vpinWindowSettled q mv) parked)
        ∧ ∀ p, s.mendedPin q = some p → is (.vpinWindowSettled q mv) { parked with
            endpaper := { x.endpaper with phase := .joining, pin := p, forced := false, comparing := false, compared := none }, cal := lmod x.cal p fun e => { e with mended := true } })
      ∧ (¬inside → exec (.vpinWindowSettled q mv) s = exec (.vpinOutOfWindow q mv) s))
    ∧ (∀ n, x.state ≠ .off → x.injections = [{ checker := 0x10, element := 0, left := n + 2, made := 0 }] → inside →
      ∃ t, exec (.vpinInWindow q mv) s = .next t ∧ s.Within t q ∧ (t.quire q).injections = [{ checker := 0x10, element := 0, left := n + 1, made := 1 }] ∧ (t.quire q).insts = marked x 0x2000
        ∧ (t.quire q).vpinOk = true ∧ (t.quire q).qfLive.getLsbD 0 = true ∧ reported [report 0x10 0xFF 0x01 mv true] t)
    ∧ (injecting 0x02 0 s.collector.injections = false →
      (vcoreOk → ∃ t, exec (.vcoreWindowCheck mv) s = .next t ∧ t.collector.real = s.collector.real &&& ~~~4 ∧ t.collector.reports = s.collector.reports
        ∧ ∀ g, t.quire g = { s.quire g with firstError := (t.quire g).firstError, secondError := (t.quire g).secondError }
          ∧ ∀ e, (s.quire g).firstError = some e → e.report.checker = 0x02 → e.report.severity = .alert → e.report.injected = false → e.read = false → (t.quire g).firstError = some { e with transient := true })
      ∧ (¬vcoreOk → ∃ t, exec (.vcoreWindowCheck mv) s = .next t ∧ (∀ g, (t.quire g) = { s.quire g with insts := marked (s.quire g) 0x4000 }) ∧ t.collector.real = s.collector.real ||| 4
        ∧ (vcoreOut → t.collector.reports = s.collector.reports)
        ∧ (¬vcoreOut → ∃ r : Report, t.collector.reports = s.collector.reports ++ [r] ∧ r.severity = .alert ∧ r.checker = 0x02 ∧ r.quire = none ∧ r.injected = false
            ∧ ∀ g, g ∈ r.acts ↔ (∃ i ∈ (s.quire g).insts, i.hold = none ∨ s.time.ticks - i.endedAt ≤ 5000) ∨ ∃ a ∈ (s.quire g).playedAt, s.time.ticks - a ≤ 5000)))

/-! ### The governor -/

/-- A reading of the sensors keeps the hottest, the peaks and the marks, gives the quires their hot zones, holds and frees starts by the hysteresis of `T_HARD`, and the tenth reading in a row above `T_HARD` parks every quire in its run (R719 to R723, R711). -/
def Obligations.SensorReadings : Prop :=
  ∀ (s : State) (temps : List Int) (t : State),
    let g := s.gov
    let soft : Int := 16 * fld (s.reg (rk 5 0)) 8 8
    let hard : Int := 16 * fld (s.reg (rk 5 0)) 16 8
    let at_ := fun (i : Nat) => temps.getD i 0
    let count := fun (i : Nat) => if hard < at_ i then g.hardCount.getD i 0 + 1 else 0
    let playing := fun (q : QId) => (s.quire q).state = .armed ∨ (s.quire q).state = .running ∨ (s.quire q).state = .paused
    let zones := fun (q : QId) =>
      let a := t.gov.marked.getLsbD (2 * q.val)
      let b := t.gov.marked.getLsbD (2 * q.val + 1)
      let second := at_ (2 * q.val) < at_ (2 * q.val + 1)
      (if a ∧ (b → ¬second) then 0b0011#4 else 0) ||| (if b ∧ (a → second) then 0b1100#4 else 0)
    (s.boot.step ≠ 0 → temps.length = 16 → g.hardCount.length = 16 → (∀ e, injecting 0x08 e s.collector.injections = false) → exec (.sensorRead temps) s = .next t →
      t = { s with gov := t.gov, quires := t.quires, regs := t.regs, log := t.log, collector := t.collector }
      ∧ t.gov.temps = temps ∧ (∀ i < 16, at_ i ≤ t.gov.hotTemp) ∧ at_ t.gov.hotSensor = t.gov.hotTemp ∧ t.gov.hotSensor < 16 ∧ (∀ i < t.gov.hotSensor, at_ i < t.gov.hotTemp)
      ∧ (∀ i < 16, t.gov.peaks.getD i none = some (match g.peaks.getD i none with | some p => max p (at_ i / 16) | none => at_ i / 16))
      ∧ (∀ i < 16, (soft < at_ i → t.gov.marked.getLsbD i = true) ∧ (at_ i < soft - 80 → t.gov.marked.getLsbD i = false) ∧ (soft - 80 ≤ at_ i → at_ i ≤ soft → t.gov.marked.getLsbD i = g.marked.getLsbD i))
      ∧ (∀ q, (t.quire q).hotZones = zones q)
      ∧ ((∃ i < 16, hard - 80 ≤ at_ i) → t.gov.thermalHold = true) ∧ ((∀ i < 16, at_ i < hard - 160) → t.gov.thermalHold = false)
      ∧ ((∀ i < 16, at_ i < hard - 80) → (∃ i < 16, hard - 160 ≤ at_ i) → t.gov.thermalHold = g.thermalHold)
      ∧ (∀ i < 16, t.gov.hardCount.getD i 0 = count i)
      ∧ ((∀ i < 16, count i ≠ 10) → t.collector.reports = s.collector.reports ∧ t.gov.emergency = g.emergency)
      ∧ (∀ i < 16, count i = 10 → (∀ j < 16, j ≠ i → count j ≠ 10) → t.gov.emergency = true ∧ Counted 1 (s.reg (rk 5 0x30C)) (t.reg (rk 5 0x30C)) ∧ t.collector.live.getLsbD 8 = true
          ∧ ∃ rs, t.collector.reports = s.collector.reports ++ rs ∧ (∀ r ∈ rs, r.severity = .quire ∧ r.checker = 0x08 ∧ r.cause = 0x07 ∧ r.element = BitVec.ofNat 8 i ∧ r.injected = false)
            ∧ ∀ q, playing q ↔ ∃ r ∈ rs, r.quire = some q))
    ∧ ∃ u, exec (.sensorRead temps) s = .next u

/-- A telemetry cycle reads the rails that the board record names, four reads of each, of which each is tried up to four times, sums the chip's power and judges it against the cap with its hysteresis; an alert of the regulators is counted, and a bad status is cleared and is a chip fault on VCORE's rail and a log entry on any other (R723 to R725, R729 to R734, R737). TRIM_PERIOD moves a RUNNING quire's trim by its lowest fill; FLOOR_RECOMPUTE gives every quire that holds one the least supply at which its flow fits, and an uncorrectable error of the chip-level SRAM that it reads is a chip fault; after either, a VCORE target that has changed is commanded; and `EI_EN` follows the links' use while `EI_AUTO` is 1 (R714 to R718, R727, R738). The model's choices that it rests on: log entries 5, 6, 136, 139, 140, 180, 185. -/
def Obligations.TelemetryAndSupplies : Prop :=
  (∀ (s : State) (rails : List RailTransfer) (status : List (Nat × BitVec 16)),
     let g := s.gov
     let rail := fun (t : State) (i : Nat) => t.gov.rails.getD i .reset
     let cap := fld (s.reg (rk 5 4)) 0 17
     let bad := fun (w : BitVec 16) => w.getLsbD 15 = true ∨ w.getLsbD 6 = true
     let on := fun (i : Nat) => (rail s i).present = true
     let fitted := (List.range 9).filter fun i => (rail s i).present
     let read := fun (i : Nat) => rails.getD i { fails := [4, 4, 4, 4], reading := { vout := 0, iout := 0, temp := 0, status := 0 } }
     let fails := fun (i j : Nat) => (read i).fails.getD j 0
     let through := fun (i j : Nat) => fails i j < 4
     let clears := fun (i : Nat) => through i 0 ∧ bad (read i).reading.status
     let answer := fun (i : Nat) => status.getD i (4, 0)
     let alarms := fun (i : Nat) => (answer i).1 < 4 ∧ bad (answer i).2
     let keeps := fun (t : State) => (∀ q, t.quire q = { s.quire q with firstError := (t.quire q).firstError, secondError := (t.quire q).secondError }) ∧ t.sent = s.sent
     let shown := fun (t : State) => fitted ≠ [] → ((rail t 0).state = .unreachable ↔ t.gov.vcoreUnreachable = true)
     let settled := s.boot.step < 7 ∨ ∀ i ∈ fitted, g.setpoints.getD i none = some (s.pmWanted i)
     let asked := fun (t : State) (codes : Nat → List Byte) => ∃ frames, t.gov.bus = g.bus ++ frames ∧ (frames.map fun f => (f.rail, f.code)) = fitted.flatMap (fun i => (codes i).map fun c => (i, c))
       ∧ ∀ f ∈ frames, f.addr = (rail s f.rail).addr ∧ f.kHz = s.pmKhz
     (s.boot.step = 0 → exec (.pmbusTelemetryCycle rails) s = .next s ∧ exec (.pmAlert status) s = .next s)
     ∧ (s.boot.step ≠ 0 → g.rails.length = 9 → g.overCount = 0 → settled → ∃ t, exec (.pmbusTelemetryCycle rails) s = .next t ∧ keeps t ∧ shown t ∧ t.gov.cycles = g.cycles + 1 ∧ t.collector.reports = s.collector.reports
       ∧ (∀ i < 9, (¬on i → rail t i = rail s i) ∧ (on i → rail t i = { rail s i with
           vout := if through i 1 then (read i).reading.vout else (rail s i).vout, iout := if through i 2 then (read i).reading.iout else (rail s i).iout
           temp := if through i 3 then (read i).reading.temp else (rail s i).temp, status := if through i 0 then (read i).reading.status else (rail s i).status
           state := if ¬through i 3 then .unreachable else if clears i ∧ through i 1 ∧ through i 2 then .fault else .ok }))
       ∧ t.gov.chipPower = (fitted.map fun i => (rail t i).vout * (rail t i).iout).sum / 1000 + Config.unmeteredMw g.cycles
       ∧ (cap < t.gov.chipPower → t.gov.overCap = true) ∧ (t.gov.chipPower + 2000 < cap → t.gov.overCap = false)
       ∧ (t.gov.chipPower ≤ cap → cap ≤ t.gov.chipPower + 2000 → t.gov.overCap = g.overCap) ∧ t.gov.overCount = (if 125000 < t.gov.chipPower then 1 else 0)
       ∧ asked t (fun i => [0x79] ++ (if clears i then [0x03] else []) ++ [0x8B, 0x8C, 0x8D])
       ∧ Counted (fitted.map fun i => ((List.range 4).map fun j => min 4 (fails i j + 1)).sum + if clears i then 1 else 0).sum (s.reg (rk 10 0x300)) (t.reg (rk 10 0x300))
       ∧ Counted (fitted.map fun i => ((List.range 4).map fun j => min 4 (fails i j)).sum).sum (s.reg (rk 10 0x304)) (t.reg (rk 10 0x304)))
     ∧ (s.boot.step ≠ 0 → g.rails.length = 9 → settled → ∃ t, exec (.pmAlert status) s = .next t ∧ keeps t ∧ shown t ∧ Counted 1 (s.reg (rk 10 0x308)) (t.reg (rk 10 0x308))
       ∧ (∀ i < 9, (¬on i → rail t i = rail s i) ∧ (on i → 4 ≤ (answer i).1 → rail t i = { rail s i with state := .unreachable })
         ∧ (on i → (answer i).1 < 4 → rail t i = { rail s i with status := (answer i).2, state := if bad (answer i).2 then .fault else .ok }))
       ∧ asked t (fun i => [0x79] ++ if alarms i then [0x03] else [])
       ∧ (on 0 → alarms 0 → ∃ r, t.collector.reports = s.collector.reports ++ [r] ∧ r.severity = .chip ∧ r.checker = 0x02 ∧ r.cause = 0x12)
       ∧ (¬(on 0 ∧ alarms 0) → t.collector.reports = s.collector.reports)
       ∧ (∀ i, i ≠ 0 → fitted.filter (fun j => alarms j) = [i] → s.frozen = false → s.log.entries.length < 8000 → sget (fun _ => 0) 0x17 s.log.taken < fld (s.reg (rk 7 0)) 8 8 →
           ∃ e ∈ t.log.entries, s.log.entries.length ≤ e.seq ∧ e.code = 0x17 ∧ e.detail0 = BitVec.ofNat 32 (2 ^ 16 * i + (answer i).2.toNat))))
  ∧ (∀ (s : State),
     let holds := fun (q : QId) (t : State) => (t.quire q).state.holdsFloor = true ∧ (t.quire q).floorMv ≠ 0
     let wants := fun (q : QId) (t : State) => min 1050 (max 700 ((t.quire q).floorMv + (t.quire q).trimMv))
     let rail := fun (t : State) (i : Nat) => t.gov.rails.getD i .reset
     let targeted := fun (t : State) => t.gov = { s.gov with bus := t.gov.bus, setpoints := t.gov.setpoints, rails := t.gov.rails, vcoreUnreachable := t.gov.vcoreUnreachable } ∧ (∀ i, rail t i = rail s i)
       ∧ (∀ mv, (∀ q, ¬holds q t) ∧ mv = 850 ∨ (∃ q, holds q t ∧ mv = wants q t) ∧ (∀ q, holds q t → wants q t ≤ mv) →
         (7 ≤ s.boot.step → s.gov.setpoints.length = 9 → (rail s 0).present = true → (rail s 0).state ≠ .unreachable →
           t.gov.setpoints.getD 0 none = some mv
           ∧ (s.gov.setpoints.getD 0 none ≠ some mv → ∃ f, f ∈ t.gov.bus.drop s.gov.bus.length ∧ f.rail = 0 ∧ f.code = 0x21 ∧ f.reads = false ∧ f.data = le 2 (linear16 (pmExponent 0) mv))))
     let fits := fun (q : QId) (mv : Nat) => let x := s.quire q
       let temp := max (s.gov.temps.getD (2 * q.val) 0) (s.gov.temps.getD (2 * q.val + 1) 0)
       ∀ g ∈ x.playedSigs, let n := min 16 (x.flowEngines / (if x.shadowed g then 2 else 1) - 1)
         n ≠ 0 ∧ (5 * (x.sig g).ops * 1000000 : ℚ) ≤ engineSpeed mv temp * 1024 * n * (x.sig g).period * 4
     let step_ := fun (mv : Nat) => 700 ≤ mv ∧ mv ≤ 1050 ∧ mv % 5 = 0
     let idles := fun (k : LinkId) => bit (s.reg (rk 2 0x1C)) k.val = false ∧ (s.link k).holds (fld (s.reg (rk 1 0)) 16 4) = false
       ∧ ∀ q, (s.quire q).owner = some k → (s.quire q).committed.isSome = true → (s.quire q).playsStream = false
     let key := fun (k : LinkId) => rk 4 (0x108 + 0x40 * k.val)
     let reported := fun (o : SramRead) (t : State) => (o.outcome ≠ .uncorrectable → t.collector.reports = s.collector.reports)
       ∧ (o.outcome = .uncorrectable → ∃ r, t.collector.reports = s.collector.reports ++ [r] ∧ r.severity = .chip ∧ r.checker = 0x03 ∧ r.cause = 0x13 ∧ r.detail = BitVec.ofNat 24 o.entry)
     (∃ t, exec .trimPeriod s = .next t ∧ targeted t ∧ ∀ q, let x := s.quire q
       let y := { x with lowestFill := x.fill }
       let count := fun (n : Nat) => Counted n (s.reg (rk 5 (0x108 + 0x10 * q.val))) (t.reg (rk 5 (0x108 + 0x10 * q.val)))
       (x.state ≠ .running → t.quire q = x ∧ count 0)
       ∧ (x.state = .running → x.lowestFill < 16384 → t.quire q = { y with trimMv := min 350 (x.trimMv + 20), highFill := 0 } ∧ count (if x.trimMv < 350 then 1 else 0))
       ∧ (x.state = .running → 16384 ≤ x.lowestFill → x.lowestFill < 28672 → t.quire q = { y with highFill := 0 } ∧ count 0)
       ∧ (x.state = .running → 28672 ≤ x.lowestFill → x.highFill < 9 → t.quire q = { y with highFill := x.highFill + 1 } ∧ count 0)
       ∧ (x.state = .running → 28672 ≤ x.lowestFill → 9 ≤ x.highFill → t.quire q = { y with highFill := 0, trimMv := x.trimMv - 5 } ∧ count 0))
     ∧ (injecting 0x03 0 s.collector.injections = false → ∀ o, ∃ t, exec (.floorRecompute o) s = .next t ∧ targeted t ∧ reported o t ∧ ∀ q,
         t.quire q = { s.quire q with floorMv := (t.quire q).floorMv }
         ∧ ((s.quire q).state.holdsFloor = false → (t.quire q).floorMv = 0)
         ∧ ((s.quire q).state.holdsFloor = true → ∀ mv, step_ mv → fits q mv → (∀ m, step_ m → m < mv → ¬fits q m) → (t.quire q).floorMv = mv)
         ∧ ((s.quire q).state.holdsFloor = true → (∀ m, step_ m → ¬fits q m) → (t.quire q).floorMv = 1050 ∧ t.reg (rk 5 0x314) ≠ 0))
     ∧ (bit (s.reg (rk 5 0)) 31 = false → exec .eiAutoEvaluate s = .next s)
     ∧ (bit (s.reg (rk 5 0)) 31 = true → ∃ t, exec .eiAutoEvaluate s = .next t ∧ t = { s with regs := t.regs } ∧ (∀ r, (∀ k, r ≠ key k) → t.reg r = s.reg r)
         ∧ ∀ k, (bit (t.reg (key k)) 31 = true ↔ idles k) ∧ ∀ i, i ≠ 31 → bit (t.reg (key k)) i = bit (s.reg (key k)) i))

/-! ### Host links -/

/-- A received line is decoded as the codeword that its symbols spell; it counts what the FEC corrected, keeps or loses its lane's lock by its header, adapts the receiver by at most one step per 10 µs, and delivers its flits, of which one with a wrong CRC, a wrong form or no credit is dropped and counted, and a packet whose opcode R620 does not list is answered MALFORMED; a lane under test sends its pattern, and compares what it receives with it; a sent one carries a flit of the first class that may send, under the next `CW_SEQ`, after a proposal to change the width, with as many symbols spoiled as error injection asks for; and the transmitter goes idle and wakes (R511 to R519, R521, R526, R532 to R541, R551, R559 to R562, R567, R568, R570, R581). The model's choices that it rests on: log entries 3, 25, 121, 122, 123, 125, 126, 187. -/
def Obligations.CodewordsAndFlits : Prop :=
  ∀ (s : State) (n : LaneId) (k : LinkId) (c : Fin 16) (hd : BitVec 20) (f idle : List Byte) (ci cr : Fin 4) (msg : List Byte),
    let x := s.lane n
    let l := s.link k
    let quiet := fun (t : State) => t.quires = s.quires ∧ t.sent = s.sent ∧ t.sessions = s.sessions ∧ t.time = s.time
    let counts := fun (key m : Nat) (t : State) => Counted m (s.reg key) (t.reg key)
    let counts64 := fun (key m : Nat) (t : State) => (t.reg key).toNat + 2 ^ 32 * (t.reg (key + 4)).toNat = min ((s.reg key).toNat + 2 ^ 32 * (s.reg (key + 4)).toNat + m) (2 ^ 64 - 1)
    let seq := BitVec.ofNat 12 (hd.toNat / 256)
    let valid := hd.toNat % 16 = 0xA ∧ hd.toNat / 16 % 8 = n.val - l.base ∧ (x.rxSeq = none ∨ x.rxSeq = some seq)
    let calm := fun (cw : RxCodeword) => ∀ cause, cause ≠ .lockLost → (x.note s.time.ticks cw).failing s.time.ticks cause = false
    let taken := fun (cw : RxCodeword) (also : State → Prop) => ∀ line, x.decode line = cw → ∃ t, exec (.codewordReceived n line) s = .next t ∧ quiet t ∧ (t.lane n).rxLast = line.getLast?.getD x.rxLast ∧ also t
    let adapted := fun (z : Lane) => (s.time.ticks < x.adapted + 10000 → z.adapted = x.adapted ∧ z.eyeMv = x.eyeMv ∧ z.ctle = x.ctle ∧ z.dfe = x.dfe)
      ∧ (x.adapted + 10000 ≤ s.time.ticks → z.adapted = s.time.ticks ∧ z.dfe.length = x.dfe.length
        ∧ (x.ctle.toNat ≤ 40 → z.ctle.toNat ≤ 40 ∧ z.ctle.toNat ≤ x.ctle.toNat + 1 ∧ x.ctle.toNat ≤ z.ctle.toNat + 1)
        ∧ ∀ i d, x.dfe[i]? = some d → dfeHeld i d = d → ∃ e, z.dfe[i]? = some e ∧ dfeHeld i e = e ∧ d - 1 ≤ e ∧ e ≤ d + 1)
    let flits := f :: List.replicate 19 idle
    let field := fun (f : List Byte) (lo w : Nat) => unle (f.take 4) / 2 ^ lo % 2 ^ w
    let crcRight := fun (f : List Byte) => (crc16 (f.take 30)).toNat = unle ((f.drop 30).take 2)
    let credit := replaceTotal 11 l.classes[cr].freedByHost (field f 8 11)
    let credited := l.classes.set cr { l.classes[cr] with freedByHost := credit }
    let quietIdle := crcRight idle ∧ field idle 30 2 = 0 ∧ field idle 28 2 = 0 ∧ field idle 21 5 = 0 ∧ field idle 0 8 = 0 ∧ field idle 19 2 = cr.val ∧ field idle 8 11 = field f 8 11
    let one := s.linkOf n = some k ∧ l.carries = true ∧ l.service = [n] ∧ l.serves n = true
    let listed := fun (b : List Byte) => opcodes.contains (packetOpcode b) = true
    let hears := one ∧ (∀ i : Fin 4, ∀ e ∈ l.classes[i].packets, listed e.1) ∧ l.hearing = [n] ∧ l.hears n = true ∧ l.change = none ∧ l.rxEi = false ∧ x.phase = .inLink ∧ x.lock = true ∧ x.rxQueue = [] ∧ x.idleSince = none
    let arrives := hears ∧ valid ∧ quietIdle ∧ calm (.good 0 hd flits)
    let gets := fun (classes : Vector ClassState 4) (also : State → Prop) => taken (.good 0 hd flits) fun t =>
      t.lane n = { x with badHeaders := 0, rxSeq := some (seq + 1), rxLast := (t.lane n).rxLast, adapted := (t.lane n).adapted, eyeMv := (t.lane n).eyeMv, ctle := (t.lane n).ctle, dfe := (t.lane n).dfe, lastMs := (x.note s.time.ticks (.good 0 hd flits)).lastMs }
      ∧ adapted (t.lane n) ∧ t.link k = { l with classes := classes } ∧ (∀ m, m ≠ n → t.lane m = s.lane m) ∧ (∀ m, m ≠ k → t.link m = s.link m) ∧ also t
    let data := crcRight f ∧ field f 30 2 = 1 ∧ field f 28 2 = ci.val ∧ field f 19 2 = cr.val ∧ 1 ≤ field f 21 5 ∧ field f 21 5 ≤ 26
    let body := ((f.drop 4).take 26).take (field f 21 5)
    let a := credited[ci]
    let next := { a with received := a.received + 1, rxSeq := a.rxSeq + 1 }
    let room := a.received < a.ourGrant + a.freed
    let puts := fun (b : ClassState) => credited.set ci b
    let ctrl := s.reg (nkey n 0)
    let corrupt := if fld ctrl 16 5 ≠ 0 ∧ (x.txCount + 1) % max 1 (fld ctrl 0 16) = 0 then fld ctrl 16 5 else 0
    let header := BitVec.ofNat 20 (x.txSeq.toNat * 256 + (n.val - l.base) % 8 * 16 + 0xA)
    let sends := fun (fs : List (List Byte)) (t : State) => ∃ sent, let clean := codewordSymbols header fs
      let line := x.encode sent
      t.lane n = { x with txCount := x.txCount + 1, txSeq := x.txSeq + 1, txLast := line.getLast?.getD x.txLast, lastTx := some { header := header, flits := fs, corrupted := corrupt, line := line } }
      ∧ sent.length = 544 ∧ (∀ y ∈ sent, y < 1024) ∧ ((List.range 544).filter fun i => sent.getD i 0 ≠ clean.getD i 0).length = corrupt
    let first := fun (fs : List (List Byte)) (type class_ sop eop : Nat) (payload : List Byte) (number : Nat) => fs.length = 20 ∧ ∃ g rest, fs = g :: rest ∧ field g 30 2 = type ∧ field g 28 2 = class_
      ∧ field g 27 1 = sop ∧ field g 26 1 = eop ∧ field g 0 8 = number ∧ (g.drop 4).take payload.length = payload ∧ crcRight g ∧ g.length = 32
    (s.linkOf n = none ∨ (x.phase ≠ .inLink ∧ x.phase ≠ .training ∧ x.phase ≠ .retraining) →
      (x.checksLine = false → ∀ line, exec (.codewordReceived n line) s = .next s)
      ∧ (∀ a p line, x.phase = .testing → x.test = some a → a.mode = 1 ∨ a.mode = 2 → a.place = some p → let due := patternFrom a.pattern line.length p
        ∃ t, exec (.codewordReceived n line) s = .next t ∧ quiet t
          ∧ t.lane n = { x with rxLast := line.getLast?.getD x.rxLast, test := some { a with received := a.received + line.length, place := some due.2 } } ∧ counts64 (nkey n 0x28) (2 * line.length) t
          ∧ counts64 (nkey n 0x20) (((patternBits (unprecode x.rxPrecode x.rxLast line)).zip (patternBits due.1)).countP fun e => e.1 ≠ e.2) t))
    ∧ (s.linkOf n = some k → x.phase = .training → l.carries = false → l.inService = 0 → l.rxService = 0 → l.change = none → x.idleSince = none →
      taken .bad (fun t => counts (nkey n 0x14) 1 t ∧ t.link k = if l.phase = .training then { l with trainPhase := max 5 l.trainPhase } else l)
      ∧ (0 < c.val → ∀ fs, taken (.good c hd fs) fun t => counts (nkey n 0x10) 1 t ∧ counts64 (nkey n 8) c.val t ∧ (t.lane n).fecPeak = max x.fecPeak c.val)
      ∧ (x.lock = false → valid → ∀ fs, taken (.good 0 hd fs) fun t => (t.lane n).goodHeaders = x.goodHeaders + 1 ∧ (t.lane n).rxSeq = some (seq + 1) ∧ ((t.lane n).lock = true ↔ 7 ≤ x.goodHeaders))
      ∧ (x.lock = true → x.badHeaders = 3 → (¬valid → ∀ fs, taken (.good 0 hd fs) fun t => (t.lane n).lock = false ∧ counts (nkey n 0x18) 1 t)
        ∧ taken .bad fun t => (t.lane n).lock = false ∧ counts (nkey n 0x18) 1 t)
      ∧ (x.lock = true → x.badHeaders < 3 → ¬valid → ∀ fs, taken (.good 0 hd fs) fun t => (t.lane n).lock = true ∧ (t.lane n).badHeaders = x.badHeaders + 1 ∧ (t.lane n).rxSeq = x.rxSeq.map (· + 1)))
    ∧ (hears → x.badHeaders < 3 → calm .bad →
      taken .bad fun t => (t.lane n).lock = true ∧ (t.lane n).badHeaders = x.badHeaders + 1 ∧ counts (nkey n 0x14) 1 t ∧ counts (lkey k 0x1C) 20 t ∧ t.link k = l)
    ∧ (arrives →
      (¬crcRight f → l.classes[cr].freedByHost = credit → gets l.classes (counts (lkey k 0x20) 1))
      ∧ (crcRight f → field f 30 2 = 3 → l.classes[cr].freedByHost = credit → gets l.classes (counts (lkey k 0x24) 1))
      ∧ (f = idle → gets credited fun _ => True)
      ∧ (data → field f 0 8 = a.rxSeq.toNat → room → a.dropping = false →
        (a.assembling = none → bit (flitHead f) 27 = true → bit (flitHead f) 26 = true → listed body → gets (puts { next with packets := a.packets ++ [(body, 1)] }) (counts64 (lkey k 0x0C) 1))
        ∧ (∀ cls h p, a.assembling = none → bit (flitHead f) 27 = true → bit (flitHead f) 26 = true → ¬listed body → cls ≠ .time → classIndex cls = ci → l.classes[ci].packets = [] → s.interpreting = true →
            readPacket k cls { word := 0, outcome := .good, corrupt := [] } body = (h, p) → wholePacket h (packetOpcode body) p = true → h.version = 1 → tagUse (opUnlisted (packetOpcode body)) h s = .new →
            ∀ line, x.decode line = .good 0 hd flits → ∃ t, exec (.codewordReceived n line) s = .next t ∧ t.quires = s.quires ∧ s.Answers t h (opUnlisted (packetOpcode body)) stMalformed 2 [])
        ∧ (a.assembling = none → bit (flitHead f) 27 = true → bit (flitHead f) 26 = false → field f 21 5 = 26 → gets (puts { next with assembling := some (body, 1) }) (counts64 (lkey k 0x0C) 1))
        ∧ (∀ b m, a.assembling = some (b, m) → bit (flitHead f) 27 = false → bit (flitHead f) 26 = true →
            listed (b ++ body) → gets (puts { next with assembling := none, packets := a.packets ++ [(b ++ body, m + 1)] }) (counts64 (lkey k 0x0C) 1))
        ∧ (a.assembling = none → bit (flitHead f) 27 = false → bit (flitHead f) 26 = true → gets credited (counts (lkey k 0x24) 1)))
      ∧ (data → bit (flitHead f) 26 = true → ¬room → gets credited (counts (lkey k 0x28) 1))
      ∧ (data → bit (flitHead f) 26 = true → room → a.assembling = none → let behind := BitVec.ofNat 8 (field f 0 8 + 1)
        (bit (flitHead f) 27 = true → field f 0 8 ≠ a.rxSeq.toNat ∨ a.dropping = true → listed body → gets (puts { a with received := a.received + 1, rxSeq := behind, dropping := false, packets := a.packets ++ [(body, 1)] }) fun t =>
            counts (lkey k 0x2C) (b2n (!a.dropping)) t ∧ counts64 (lkey k 0x0C) 1 t)
        ∧ (bit (flitHead f) 27 = false → a.dropping = true → gets (puts { a with received := a.received + 1, freed := a.freed + 1, rxSeq := behind }) fun t =>
            counts (lkey k 0x2C) 0 t ∧ counts64 (lkey k 0x0C) 0 t ∧ counts (lkey k 0x24) 0 t)))
    ∧ (∀ a, x.phase = .testing → x.test = some a → a.mode ≠ 1 → let due := patternFrom a.pattern 2720 a.gen
      ∃ (t : State) (symbols : List (Fin 4)), let line := precode x.txPrecode x.txLast symbols
      exec (.codewordTransmitted n) s = .next t ∧ quiet t
        ∧ t.lane n = { x with test := (t.lane n).test, txLast := line.getLast?.getD x.txLast, lastTx := some { header := 0, flits := [], corrupted := 0, line := line } }
        ∧ symbols.length = 2720 ∧ (∀ i < 5440, let flip := a.inject ≠ 0 ∧ (2 * a.sent + i + 1) % a.inject = 0
          (patternBits symbols).getD i 0 = ((patternBits due.1).getD i 0 + if flip then 1 else 0) % 2)
        ∧ (a.mode ≠ 3 → t = { s with lanes := t.lanes } ∧ (t.lane n).test = some { a with gen := due.2, sent := a.sent + 2720 })
        ∧ (a.mode = 3 → ∀ p, a.place = some p → let awaited := patternFrom a.pattern 2720 p
          (t.lane n).test = some { a with gen := due.2, sent := a.sent + 2720, received := a.received + 2720, place := some awaited.2 } ∧ counts64 (nkey n 0x28) 5440 t
          ∧ counts64 (nkey n 0x20) (((patternBits symbols).zip (patternBits awaited.1)).countP fun e => e.1 ≠ e.2) t))
    ∧ (one → x.test = none → l.txEi = false → l.txSlot = [] → ∀ c, l.change = some c → c.fromChip = true → c.acked = false → c.txDone = false → ∃ t fs, exec (.codewordTransmitted n) s = .next t ∧ quiet t
      ∧ sends fs t ∧ first fs 2 0 0 0 ([0x03, c.mask] ++ le 2 c.at_.toNat) 0 ∧ (t.link k).change = some { c with sent := true })
    ∧ (one → l.change = none → x.test = none → ∃ t, exec (.codewordTransmitted n) s = .next t ∧ quiet t ∧
      (l.txEi = true → t = { s with lanes := s.lanes.set n { x with txSeq := x.txSeq + 1 } })
      ∧ (l.txEi = false → ∀ fs, l.txSlot = [(n.val, fs)] → sends fs t ∧ t.link k = { l with txSlot := [] })
      ∧ (l.txEi = false → l.txSlot = [] →
        (∀ m rest, l.linkTx = m :: rest → 1 ≤ m.length → m.length ≤ 26 → rest.length < 20 → ∃ fs, sends fs t ∧ first fs 2 0 0 0 m 0 ∧ (t.link k).linkTx = [] ∧ (t.link k).txSlot = [])
        ∧ (∀ p rest, l.linkTx = [] → l.classes[3].ready = false → l.classes[0].ready = true → l.classes[0].txQueue = p :: rest → l.classes[0].txDone = 0 → 1 ≤ p.length →
          ∃ fs, sends fs t ∧ first fs 1 0 1 (b2n (decide (p.length ≤ 26))) (p.take 26) l.classes[0].txSeq.toNat ∧ l.classes[0].sent < (t.link k).classes[0].sent)
        ∧ (l.linkTx = [] → (∀ i : Fin 4, l.classes[i].ready = false) → ∃ fs, sends fs t ∧ (∀ g ∈ fs, field g 30 2 = 0 ∧ crcRight g) ∧ fs.length = 20
          ∧ t.link k = { l with creditClass := (t.link k).creditClass })))
    ∧ (l.hasFlit = true ∨ l.txEi = true ∨ s.eiEn k = false ∨ l.carries = false → exec (.eiEntry k) s = .next s)
    ∧ (one → l.hasFlit = false → s.eiEn k = true → l.txEi = false → ∃ t fs, exec (.eiEntry k) s = .next t ∧ quiet t ∧ sends fs t ∧ first fs 2 0 0 0 [5] 0
        ∧ t.link k = { l with txEi := true, creditClass := (t.link k).creditClass, bulkTurn := (t.link k).bulkTurn })
    ∧ (l.carries = true → l.txEi = true → l.hasFlit = true → ∃ t, exec (.eiExit k) s = .next t ∧ quiet t ∧ t.links = s.links.set k { l with txEi := false } ∧ counts (lkey k 0x34) 1 t
        ∧ (∀ m, t.lane m = if l.serves m then { s.lane m with wake := (t.lane m).wake, txLast := (t.lane m).txLast } else s.lane m)
        ∧ ∀ m, l.serves m = true → (t.lane m).wake.length = 256 ∧ (t.lane m).wake.getLast? = some (t.lane m).txLast)
    ∧ (l.txEi = false ∨ l.hasFlit = false → exec (.eiExit k) s = .next s)

/-- Credit messages set the host's grants and its freed totals and send the chip's; a width change is proposed, acknowledged, crossed, repeated and carried out when both directions have come to its codeword, over the lanes in service and those that have retrained; a lane that fails leaves its link; and the host's EI_ENTER idles its direction (R526, R543, R544, R547 to R553, R555, R557, R560). The model's choices that it rests on: log entries 3, 121, 124. -/
def Obligations.CreditsAndWidths : Prop :=
  ∀ (s : State) (k : LinkId) (grants totals : List Nat) (mask : Byte) (at_ : BitVec 12) (c : WidthChange) (n : LaneId),
    let l := s.link k
    let is := fun (i : Instr) (y : Link) => exec i s = .next { s with links := s.links.set k y }
    let shown := mask &&& BitVec.ofNat 8 (2 ^ l.width - 1)
    let carries := l.phase = .up ∨ l.phase = .changing
    let lane := fun (m : LaneId) => BitVec.ofNat 8 (2 ^ (m.val - l.base))
    let later := if (at_ - c.at_).toNat < 2048 then at_ else c.at_
    let came := fun (x : BitVec 12) => (x - c.at_).toNat < 2048
    let on := fun (m : LaneId) => lane m &&& c.mask ≠ 0 ∧ (l.serves m = true ∨ l.hears m = true ∨ (s.lane m).ready = true)
    let rxCame := fun (m : LaneId) => let y := s.lane m
      (∀ e rest, y.rxQueue = e :: rest → came e.1) ∧ (y.rxQueue = [] → y.lock = true → ∃ v, y.rxSeq = some v ∧ came v)
    let settled := ∀ m ∈ l.lanes, (on m → (s.lane m).leave = none) ∧ ((s.lane m).phase = .retraining → (s.lane m).ready = true → on m)
    let pending := fun (mask : Byte) (at_ : BitVec 12) (fromChip acked : Bool) =>
      ({ mask := mask, at_ := at_, fromChip := fromChip, sent := false, acked := acked, txDone := false, rxDone := false, attempts := 0 } : WidthChange)
    let acks := [0x04, mask] ++ le 2 at_.toNat
    let takes := is (.widthChange k mask at_) { l with phase := .changing, linkTx := if acks ∈ l.linkTx then l.linkTx else l.linkTx ++ [acks], change := some (pending shown at_ false true) }
    let x := s.lane n
    let last := x.lastMs.filter fun e => decide (s.time.ticks < e.1 + 1000000)
    let meets := fun (cause : RetrainCause) => match cause with
      | .lockLost => x.lock = false ∧ x.idleSince = none
      | .uncorrectable => 4 < last.countP fun e => e.2.isNone
      | .corrected => (∃ e ∈ x.lastMs, e.1 + 1000000 ≤ s.time.ticks) ∧ last.length < (last.map fun e => e.2.getD 0).sum
    (l.phase = .training → ∃ y, is (.creditInit k grants) y ∧ y = { l with classes := y.classes, trainPhase := 6 } ∧ ∀ i : Fin 4, y.classes[i] = { l.classes[i] with granted := grants.getD i.val 0 % 2 ^ 32 })
    ∧ (l.phase ≠ .training → exec (.creditInit k grants) s = .next s)
    ∧ (carries → ∃ y, is (.creditSync k totals) y ∧ y = { l with classes := y.classes } ∧ ∀ i : Fin 4, y.classes[i] = { l.classes[i] with freedByHost := y.classes[i].freedByHost }
        ∧ ∀ d < 2 ^ 31, totals.getD i.val 0 = (l.classes[i].freedByHost + d) % 2 ^ 32 → y.classes[i].freedByHost = l.classes[i].freedByHost + d)
    ∧ (carries → is (.creditSyncSend k) { l with linkTx := l.linkTx ++ [[(0x02 : Byte)] ++ le 4 l.classes[0].freed ++ le 4 l.classes[1].freed ++ le 4 l.classes[2].freed ++ le 4 l.classes[3].freed] })
    ∧ (carries → l.change = none → takes)
    ∧ (carries → l.change = some c → (c.fromChip = true → c.acked = false → c.sent = true → is (.widthChange k mask at_) { l with change := some { c with mask := c.mask &&& shown, at_ := later, acked := true } })
      ∧ (c.fromChip = true → c.acked = false → c.sent = false → takes) ∧ (c.fromChip = true → c.acked = true → exec (.widthChange k mask at_) s = .next s)
      ∧ (c.fromChip = false → c.txDone = false → c.rxDone = false → takes) ∧ (c.fromChip = false → c.txDone = true ∨ c.rxDone = true → exec (.widthChange k mask at_) s = .next s))
    ∧ (¬carries → exec (.creditSync k totals) s = .next s ∧ exec (.creditSyncSend k) s = .next s ∧ exec (.widthChange k mask at_) s = .next s ∧ exec (.eiEnter k) s = .next s)
    ∧ (l.change = some c → c.fromChip = true → is (.widthAck k c.mask c.at_) { l with change := some { c with acked := true } })
    ∧ (l.change = none → exec (.widthAck k mask at_) s = .next s ∧ exec (.widthSwitch k) s = .next s ∧ exec (.widthAckTimeout k) s = .next s)
    ∧ (l.change = some c → c.fromChip = true → c.acked = false →
      (¬came (s.nextCw k + 2) → exec (.widthAckTimeout k) s = .next s)
      ∧ (came (s.nextCw k + 2) → c.attempts < 4 → is (.widthAckTimeout k) { l with change := some { c with at_ := c.at_ + 8, attempts := c.attempts + 1 } })
      ∧ (came (s.nextCw k + 2) → 4 ≤ c.attempts → ∃ t, exec (.widthAckTimeout k) s = .next t ∧ (t.link k).phase = .down ∧ (t.link k).change = none))
    ∧ (l.change = some c → c.txDone = false → c.rxDone = false →
      (c.acked = false ∨ ((∀ m ∈ l.service, ¬came (s.lane m).txSeq) ∧ ∃ m ∈ l.hearing, ¬rxCame m) → exec (.widthSwitch k) s = .next s)
      ∧ (c.acked = true → carries → l.txSlot = [] → l.service ≠ [] → came (s.nextCw k) → (∀ m ∈ l.hearing, rxCame m) → (∃ m ∈ l.lanes, on m) → settled → ∃ t, exec (.widthSwitch k) s = .next t
        ∧ t.quires = s.quires ∧ t.sent = s.sent ∧ t.link k = { l with phase := .up, inService := (t.link k).inService, rxService := (t.link k).inService, change := none } ∧ Counted 1 (s.reg (lkey k 0x30)) (t.reg (lkey k 0x30))
        ∧ (∀ m, m ∉ l.lanes → t.lane m = s.lane m)
        ∧ ∀ m ∈ l.lanes, let y := s.lane m
          let z := if l.serves m then y else { y with txSeq := s.nextCw k }
          ((t.link k).serves m = true ↔ on m)
          ∧ (on m → y.phase = .inLink → t.lane m = z)
          ∧ (on m → y.phase ≠ .inLink → t.lane m = { z with phase := .inLink, ready := false, lastMs := [] } ∧ (y.phase = .retraining → Counted 1 (s.reg (nkey m 0x1C)) (t.reg (nkey m 0x1C))))
          ∧ (¬on m → y.phase = .inLink → t.lane m = { y with
              phase := y.leave.getD .down, leave := none, lock := false, goodHeaders := 0, badHeaders := 0, rxSeq := none, rxQueue := [], ready := false, idleSince := none, lastMs := [] })
          ∧ (¬on m → y.phase ≠ .inLink → t.lane m = y)))
    ∧ (carries → (l.rxEi = true → exec (.eiEnter k) s = .next s) ∧ (l.rxEi = false → ∃ t, exec (.eiEnter k) s = .next t ∧ t.links = s.links.set k { l with rxEi := true } ∧ (∀ m, l.hears m = false → t.lane m = s.lane m)
        ∧ ∀ m, l.hears m = true → t.lane m = { s.lane m with lock := false, goodHeaders := 0, badHeaders := 0, idleSince := some s.time.ticks, rxLast := (t.lane m).rxLast }))
    ∧ (∀ cause, ¬meets cause → exec (.laneRetrainStart n cause) s = .next s)
    ∧ (s.linkOf n = some k → l.serves n = true → carries → l.change = none → x.leave = none → l.inService ≠ lane n → let y := { s with
        lanes := s.lanes.set n { x with leave := some .retraining }
        links := s.links.set k { l with phase := .changing, change := some (pending (l.inService &&& ~~~(lane n)) (s.nextCw k + 8) true false) } }
      (∀ cause, meets cause → exec (.laneRetrainStart n cause) s = .next y) ∧ ∀ i : Fin 8, i.val = n.val - l.base → exec (.retrainReq k i) s = .next y)

/-- A link trains and comes UP on the lanes that pass every phase, with the settings that their training found, the chip's CREDIT_INIT sent and the grants of both sides, or goes DOWN; a lane that has retrained is proposed to its link, and the third failure in a row makes it FAILED; a loss of signal loses the lock, and with it the lane's place in service, unless the host's direction idles (R513, R520, R528 to R531, R542, R543, R548 to R550, R554, R563, R602). The model's choices that it rests on: log entries 12, 123, 124, 125, 172. -/
def Obligations.TrainingAndRetraining : Prop :=
  ∀ (s : State) (k : LinkId) (n : LaneId) (found : List LaneTraining) (grants : List Nat),
    let l := s.link k
    let x := s.lane n
    let lane := fun (m : LaneId) => BitVec.ofNat 8 (2 ^ (m.val - l.base))
    let of := fun (m : LaneId) => (found[m.val - l.base]?).getD { (default : LaneTraining) with fails := 1 }
    let trains := fun (m : LaneId) => m ∈ l.lanes ∧ (s.lane m).phase = .training
    let on := fun (m : LaneId) => trains m ∧ (of m).fails = 0
    let sender := fun (f : LaneTraining) (m : LaneId) (y : Lane) => y.ffe = f.ffe ∧ y.request = f.request ∧ y.txPrecode = (bit (s.reg (nkey m 0)) 29 && f.precode)
    let receiver := fun (f : LaneTraining) (y : Lane) => y.ctle.toNat = f.ctle.val ∧ y.eyeMv = f.eyeMv ∧ y.dfe.length = 12 ∧ (∀ i < 12, y.dfe.getD i 0 = dfeHeld i (f.dfe.getD i 0))
      ∧ (y.rxPrecode = true ↔ (35 * Config.dfeSteps : Int) < 100 * y.dfe.getD 0 0)
    let field := fun (f : List Byte) (lo w : Nat) => unle (f.take 4) / 2 ^ lo % 2 ^ w
    let creditInit : List Byte := [0x01] ++ le 4 (1024 * l.width) ++ le 4 (5120 * l.width) ++ le 4 (5632 * l.width) ++ le 4 (512 * l.width)
    let grant := fun (i : Fin 4) => grants.getD i.val l.classes[i].granted % 2 ^ 32
    let quiet := fun (t : State) => t.quires = s.quires ∧ t.sent = s.sent ∧ t.time = s.time
    let done := Instr.linkTrainingDone k found grants
    (l.phase = .training →
      ((∃ m, on m) → l.width ≤ 8 → 64 ≤ grant 0 → 16 ≤ grant 3 → ∃ t, exec done s = .next t ∧ quiet t ∧ (t.link k).phase = .up ∧ (t.link k).txEi = false ∧ (t.link k).rxEi = false ∧ (t.link k).change = none
        ∧ (∀ m ∈ l.lanes, ((t.link k).serves m = true ↔ on m) ∧ ((t.link k).hears m = true ↔ on m)) ∧ (∀ m, on m → let y := t.lane m
          y.phase = .inLink ∧ y.lock = true ∧ y.signal = true ∧ y.attempts = 0 ∧ y.rxQueue = [] ∧ y.rxLast = 0 ∧ y.txSeq = 1 ∧ y.rxSeq = (s.lane m).rxSeq ∧ y.idleSince = none ∧ y.lastMs = [] ∧ sender (of m) m y ∧ receiver (of m) y
          ∧ ((∀ o, on o → m ≤ o) → ∃ tx g rest, y.lastTx = some tx ∧ tx.flits = g :: rest ∧ field g 30 2 = 2 ∧ (g.drop 4).take 17 = creditInit))
        ∧ (∀ m, trains m → ¬on m → (t.lane m).phase = .down ∧ (t.lane m).lock = false) ∧ (∀ m, ¬trains m → t.lane m = s.lane m) ∧ (t.link k).linkTx = [] ∧ (t.link k).trainPhase = 0
        ∧ (∀ i : Fin 4, (t.link k).classes[i] = { ClassState.reset with granted := grant i, ourGrant := [1024, 5120, 5632, 512].getD i.val 0 * l.width, packets := l.classes[i].packets })
        ∧ (t.session k) = { s.session k with holding := false })
      ∧ ((∀ m, ¬on m) ∨ grant 0 < 64 ∨ grant 3 < 16 → ∃ t, exec done s = .next t ∧ quiet t ∧ t.links = s.links.set k { l with phase := .down, trainPhase := 0 } ∧ ∀ m, (trains m → (t.lane m).phase = .down) ∧ (¬trains m → t.lane m = s.lane m)))
    ∧ (l.phase ≠ .training → exec done s = .next s)
    ∧ (4 ≤ s.boot.step → l.isDefined = true → l.phase = .down → ∃ t, exec (.linkRetrainTimer k) s = .next t ∧ quiet t ∧ t.links = s.links.set k { l with phase := .training, trainPhase := 1 }
        ∧ ∀ m, t.lane m = if m ∈ l.lanes ∧ (s.lane m).phase ≠ .out ∧ (s.lane m).phase ≠ .failed ∧ (s.lane m).phase ≠ .testing then { s.lane m with phase := .training } else s.lane m)
    ∧ (s.boot.step < 4 ∨ l.isDefined = false ∨ l.phase ≠ .down → exec (.linkRetrainTimer k) s = .next s)
    ∧ (x.phase ≠ .retraining ∨ x.ready = true → ∀ f, exec (.laneRetrainDone n f) s = .next s)
    ∧ (x.phase = .retraining → x.ready = false → ∀ f,
      (f.fails ≠ 0 → ∃ y, exec (.laneRetrainDone n f) s = .next { s with lanes := s.lanes.set n y } ∧ (3 < f.fails.val → sender f n y) ∧ (4 < f.fails.val → receiver f y)
          ∧ y = { x with
            attempts := x.attempts + 1, phase := if 2 ≤ x.attempts then .failed else .retraining, lock := false, goodHeaders := 0, badHeaders := 0, rxSeq := none, rxQueue := [], idleSince := none, lastMs := [], signal := decide (1 < f.fails.val)
            ffe := if 3 < f.fails.val then y.ffe else x.ffe, request := if 3 < f.fails.val then y.request else x.request, txPrecode := if 3 < f.fails.val then y.txPrecode else x.txPrecode, ctle := if 4 < f.fails.val then y.ctle else x.ctle
            eyeMv := if 4 < f.fails.val then y.eyeMv else x.eyeMv, dfe := if 4 < f.fails.val then y.dfe else x.dfe, rxPrecode := if 4 < f.fails.val then y.rxPrecode else x.rxPrecode })
      ∧ (f.fails = 0 → s.linkOf n = some k → l.carries = true → l.change = none → l.inService &&& lane n = 0 → lane n ≠ 0 → ∃ t, exec (.laneRetrainDone n f) s = .next t ∧ quiet t
          ∧ sender f n (t.lane n) ∧ receiver f (t.lane n)
          ∧ t.lane n = { x with
            attempts := 0, signal := true, lock := true, ready := true, badHeaders := 0, rxQueue := [], txLast := 0, rxLast := 0, idleSince := none, lastMs := [], request := (t.lane n).request, ctle := (t.lane n).ctle, eyeMv := (t.lane n).eyeMv, dfe := (t.lane n).dfe
            ffe := (t.lane n).ffe, rxPrecode := (t.lane n).rxPrecode, txPrecode := (t.lane n).txPrecode }
          ∧ t.link k = { l with phase := .changing, change := some (.propose (l.inService ||| lane n) (s.nextCw k + 8)) })
      ∧ (f.fails = 0 → s.linkOf n = none ∨ (s.linkOf n = some k ∧ l.carries = false) → ∃ t, exec (.laneRetrainDone n f) s = .next t ∧ quiet t ∧ t.links = s.links
          ∧ (t.lane n).phase = .down ∧ (t.lane n).attempts = 0 ∧ (t.lane n).lock = false ∧ sender f n (t.lane n) ∧ receiver f (t.lane n)))
    ∧ (x.lock = true → s.linkOf n = none ∨ (s.linkOf n = some k ∧ (l.rxEi = false ∨ l.hears n = false)) → ∃ t, exec (.lossOfSignal n) s = .next t ∧ Counted 1 (s.reg (nkey n 0x18)) (t.reg (nkey n 0x18))
        ∧ let lost := { x with signal := false, lock := false, ready := false, goodHeaders := 0, badHeaders := 0, rxSeq := none, idleSince := none }
          (s.linkOf n = none ∨ l.carries = false ∨ l.serves n = false ∨ x.leave ≠ none → quiet t ∧ t.links = s.links ∧ t.lanes = s.lanes.set n lost)
          ∧ (s.linkOf n = some k → l.carries = true → l.serves n = true → x.leave = none → l.change = none → l.inService ≠ lane n → quiet t ∧ t.lanes = s.lanes.set n { lost with leave := some .retraining }
            ∧ t.links = s.links.set k { l with phase := .changing, change := some (.propose (l.inService &&& ~~~(lane n)) (s.nextCw k + 8)) }))
    ∧ (x.lock = false ∨ (s.linkOf n = some k ∧ l.rxEi = true ∧ l.hears n = true) → exec (.lossOfSignal n) s = .next { s with lanes := s.lanes.set n { x with signal := false } })

/-! ### The machine as a whole -/

/-- A step carries out the command at the front of the queue with the rest of the queue in place; with nothing waiting the chip idles, which is the model's own choice (log entry 11). -/
def Obligations.StepRunsTheFrontCommand : Prop :=
  ∀ (s : State) (c : Instr) (rest : List Instr), (s.pending = c :: rest → step s = exec c { s with pending := rest }) ∧ (s.pending = [] → step s = .next s)

/-- The chip right after reset: every quire OFF, unowned and empty, no session, no link up, an empty Sinter log in order, chip time not valid at its nominal increment, and the registers at the reset values that their tables give (R20, R37, R141, R252, R507, R571, R639, R662, R698 to R700, R736, R737, R781, R790, R791, R827). The model's choices that it rests on: log entries 16, 17. -/
def Obligations.ResetState : Prop :=
  let s := State.reset
  (∀ q, (s.quire q).state = .off ∧ (s.quire q).owner = none ∧ (s.quire q).committed = none ∧ (s.quire q).staging = [] ∧ (s.quire q).occupied = none ∧ (s.quire q).pins = List.replicate 32 .highZ
      ∧ (s.quire q).termOn = 0 ∧ (s.quire q).endpaper.phase = .idle ∧ (s.quire q).verdicts = [] ∧ (s.quire q).firstError = none ∧ (s.quire q).injections = []
      ∧ (s.quire q).stg 0x01 0 = 0x200 ∧ (s.quire q).stg 0x01 4 = 8192 ∧ (s.quire q).stg 0x01 8 = 512 ∧ (s.quire q).stg 0x08 0 = 1200 ∧ (s.quire q).stg 0x0C 0 = 0x01000000
      ∧ (s.quire q).stg 0x10 0 = 0x00200700 ∧ (s.quire q).stg 0x11 0 = 0x08000001)
  ∧ (∀ k, (s.session k).isOpen = false ∧ (s.link k).phase = .down) ∧ (∀ n, (s.lane n).phase = .down)
  ∧ s.log.Ordered ∧ s.log.entries = [] ∧ s.log.lost = 0 ∧ s.log.frozenDropped = 0 ∧ s.collector.faulted = false ∧ s.collector.hold = false ∧ s.boot.step = 0
  ∧ s.time.valid = false ∧ s.time.increment = 2 ^ 32 ∧ s.time.syncState = .off ∧ s.clock.timingSrc = .none ∧ s.clock.domain = .stopped
  ∧ s.reg (rk 1 0) = 1 ∧ s.reg (rk 3 0) = 4000 ∧ s.reg (rk 3 8) = 2000 ∧ s.reg (rk 5 0) = 0x40967D0A ∧ s.reg (rk 5 4) = 95000 ∧ s.reg (rk 5 8) = 20000 ∧ s.reg (rk 5 0xC) = 0x10101010
  ∧ s.reg (rk 5 0x10) = 0x10101010 ∧ s.reg (rk 6 0) = 20 ∧ s.reg (rk 6 4) = 0 ∧ s.reg (rk 7 0) = 0x1010 ∧ s.reg (rk 8 4) = 1000 ∧ s.reg (rk 0xA 0) = 1
  ∧ (∀ n : LaneId, s.reg (nkey n 0) = 0x20000001) ∧ ∀ k : LinkId, s.reg (lkey k 8) = 0x1000

/-- The Sinter log numbers its entries from 0 in the order in which it took them and never holds more than 8,192, and no step breaks that (R780, R784, R787). -/
def Obligations.LogStaysOrdered : Prop :=
  ∀ (s t : State), s.log.Ordered → step s = .next t → t.log.Ordered

/-- An event or an engine instruction of one quire leaves every other quire as it is, while no packet waits in a link buffer; at most a command for several quires, whose last part has ended, lets its other quires go (R29, R589). -/
def Obligations.QuiresStayApart : Prop :=
  ∀ (s : State) (i : Instr) (q : QId), eventQuire i = some q → s.heldPackets = [] → ∃ t, exec i s = .next t ∧ ∀ r, r ≠ q →
    t.quire r = s.quire r ∨ ∃ d, (s.quire r).occupied = some (.ended d) ∧ t.quire r = { s.quire r with occupied := none }

/-- What becomes of a packet before its command's own checks: lost on a link that is down, kept while the interpreter does not run, dropped and counted with a CRC-32C that is not that of its bytes or with the tag of a command in progress, answered again or as a reused tag by the retry window, and refused MALFORMED, OWNER and FAULTED in that order, the last by a chip fault or by a fault of its quire that is due, with nothing of the command done (R53, R574 to R585, R595 to R599, R637, R765, R837). The model's choices that it rests on: log entries 22, 23, 76. -/
def Obligations.PacketRefusals : Prop :=
  ∀ (s : State) (i : Instr) (h : Hdr) (p : Params) (o : OpSpec), packetRow i = some (h, p, o) → s.heldPackets = [] →
    let k := h.link
    let x := s.session k
    let whole := wholePacket h o.opcode p
    let same := fun (t : State) => t.quires = s.quires ∧ t.time = s.time ∧ t.clock = s.clock ∧ t.spine = s.spine ∧ t.flash = s.flash ∧ t.cal = s.cal ∧ t.gov = s.gov
    let drops := fun (key : Nat) => ∃ t, exec i s = .next t ∧ same t ∧ t.sent = s.sent ∧ t.sessions = s.sessions ∧ Counted 1 (s.reg (rk 8 (key + 0x20 * k.val))) (t.reg (rk 8 (key + 0x20 * k.val)))
    let refuses := fun (st : Byte) (detail : BitVec 16) => ∃ t result, exec i s = .next t ∧ same t ∧ s.Answers t h o st detail result ∧ (st ≠ stFaulted → result = [])
    let tagged := x.isOpen = true ∧ o.opcode ≠ 0x01 ∧ (h.session = x.handle ∨ (o.opcode = 0x02 ∧ h.session = 0))
    let busy := ∃ e ∈ x.inProgress, e.1 = h.tag
    let fresh := tagged → ¬busy ∧ ∀ c ∈ x.completed, c.tag ≠ h.tag
    let handled := x.isOpen = true ∧ h.session = x.handle
    (s.linkUp k = false → exec i s = .next s)
    ∧ (s.linkUp k = true → s.interpreting = false → exec i s = .next { s with heldPackets := [i] })
    ∧ (s.linkUp k = true → s.interpreting = true → s.Arrives o.opcode h p →
      (whole = false → drops 0x108)
      ∧ (whole = true → tagged → busy → drops 0x10C)
      ∧ (whole = true → tagged → ¬busy → ∀ c, x.completed.find? (fun c => c.tag = h.tag) = some c →
        (c.opcode ≠ o.opcode → refuses stMalformed 7)
        ∧ (∀ r, c.opcode = o.opcode → o.again = false → c.reply = some r → s.linkUp r.dest.link = true → ∃ t, exec i s = .next t ∧ same t ∧ t.sent = s.sent ++ [r])
        ∧ (c.opcode = o.opcode → o.again = false → c.reply = none → ∃ t, exec i s = .next t ∧ same t ∧ t.sent = s.sent))
      ∧ (whole = true → fresh →
        (h.version ≠ 1 → refuses stMalformed 1)
        ∧ (h.version = 1 → h.length ≠ p.length ∨ p.length < o.lenMin ∨ o.lenMax < p.length → refuses stMalformed 3)
        ∧ (malformed o h p = none → o.opcode ≠ 0x01 → ¬(o.opcode = 0x02 ∧ h.session = 0) → ¬handled → refuses stOwner 1)
        ∧ (malformed o h p = none → handled → o.opcode ≠ 0x01 → o.opcode ≠ 0x02 →
          (o.need = .steward → x.steward = false → refuses stOwner 3) ∧ (o.need = .owner → o.quires = .one → (∃ q ∈ quiresOf h.qmask, (s.quire q).owner ≠ some k) → refuses stOwner 2))
        ∧ (malformed o h p = none → notOwner o h s = none →
          (s.collector.faulted = true ∧ o.inChipFault = false)
          ∨ (o.quires = .one ∨ o.quires = .chipOrOne) ∧ (∃ q ∈ quiresOf h.qmask, ∃ r ∈ s.collector.reports, r.severity = .chip ∨ (r.severity = .quire ∧ (r.quire = some q ∨ q ∈ r.acts))) → refuses stFaulted 0)))
end

