-- ==== Sys2Proof/Laws/Sparse.lean ====
section
/-! SUPPORT. Laws of the stores in canonical form: what a write reads back as, what it leaves alone, and that it keeps the form. -/

namespace Sys2Proof.Machine

variable {α : Type} [DecidableEq α] (r : Nat → α)

/-! ### The form -/

/-- A store whose keys rise from `b` on also has them rising from any smaller bound. -/
theorem swfFrom_mono {b c : Nat} (h : c ≤ b) (m : Sparse α) (w : swfFrom r b m = true) : swfFrom r c m = true := by
  cases m with
  | nil => rfl
  | cons e t => obtain ⟨i, v⟩ := e; simp [swfFrom] at w ⊢; exact ⟨⟨by omega, w.1.2⟩, w.2⟩

/-- Removing keys keeps the form. -/
theorem swfFrom_sdrop {b : Nat} (p : Nat → Bool) (m : Sparse α) (w : swfFrom r b m = true) : swfFrom r b (sdrop p m) = true := by
  induction m generalizing b with
  | nil => rfl
  | cons e t ih =>
    obtain ⟨i, u⟩ := e
    simp [swfFrom] at w
    have ht := ih (b := i + 1) w.2
    unfold sdrop at ht ⊢
    by_cases hp : p i = true
    · simp [hp]; exact swfFrom_mono r (by omega) _ ht
    · simp [hp, swfFrom]; exact ⟨w.1, ht⟩

/-- Writing an entry other than the default keeps the form from any bound that the key respects. -/
theorem swfFrom_sset {b k : Nat} (h : b ≤ k) (v : α) (hv : v ≠ r k) (m : Sparse α) (w : swfFrom r b m = true) : swfFrom r b (sset k v m) = true := by
  induction m generalizing b with
  | nil => simp [sset, swfFrom, hv, h]
  | cons e t ih =>
    obtain ⟨i, u⟩ := e
    simp [swfFrom] at w
    simp only [sset]
    split
    · simp [swfFrom]; exact ⟨⟨h, hv⟩, ⟨by omega, w.1.2⟩, w.2⟩
    · split
      · simp [swfFrom]; refine ⟨⟨h, hv⟩, ?_⟩; subst_vars; exact w.2
      · simp [swfFrom]; exact ⟨w.1, ih (b := i + 1) (by omega) w.2⟩

/-- A write keeps the canonical form. -/
theorem swf_sput (k : Nat) (v : α) (m : Sparse α) (w : swf r m = true) : swf r (sput r k v m) = true := by
  unfold sput
  split
  · exact swfFrom_sdrop r _ m w
  · rename_i h; exact swfFrom_sset r (Nat.zero_le _) v h m w

@[simp] theorem swf_nil : swf r ([] : Sparse α) = true := rfl

/-! ### Reading what was written -/

omit [DecidableEq α] in
theorem sget_sset_same (k : Nat) (v : α) (m : Sparse α) : sget r k (sset k v m) = v := by
  induction m with
  | nil => simp [sset, sget]
  | cons e t ih =>
    obtain ⟨i, u⟩ := e
    simp only [sset]
    split
    · simp [sget]
    · split
      · simp [sget]
      · rename_i h1 h2
        simp [sget, Ne.symm h2, ih]

omit [DecidableEq α] in
theorem sget_sset_other (k j : Nat) (v : α) (m : Sparse α) (h : j ≠ k) : sget r j (sset k v m) = sget r j m := by
  induction m with
  | nil => simp [sset, sget, Ne.symm h]
  | cons e t ih =>
    obtain ⟨i, u⟩ := e
    simp only [sset]
    split
    · simp [sget, Ne.symm h]
    · split
      · rename_i h1 h2; subst h2; simp [sget, Ne.symm h]
      · simp [sget, ih]

omit [DecidableEq α] in
/-- A removed key reads its default, the others as before. -/
theorem sget_sdrop (p : Nat → Bool) (j : Nat) (m : Sparse α) : sget r j (sdrop p m) = if p j = true then r j else sget r j m := by
  induction m with
  | nil => simp [sdrop, sget]
  | cons e t ih =>
    obtain ⟨i, u⟩ := e
    unfold sdrop at ih ⊢
    by_cases hp : p i = true
    · by_cases hij : i = j
      · subst hij; simp [hp, ih]
      · simp [hp, ih, sget, hij]
    · by_cases hij : i = j
      · subst hij; simp [hp, sget]
      · simp [hp, ih, sget, hij]

/-- A write reads back. -/
@[simp] theorem sget_sput_same (k : Nat) (v : α) (m : Sparse α) : sget r k (sput r k v m) = v := by
  unfold sput
  split
  · rename_i h; simp [sget_sdrop, h]
  · exact sget_sset_same r k v m

/-- A write leaves every other key alone. -/
theorem sget_sput_other (k j : Nat) (v : α) (m : Sparse α) (h : j ≠ k) : sget r j (sput r k v m) = sget r j m := by
  unfold sput
  split
  · simp [sget_sdrop, h]
  · exact sget_sset_other r k j v m h

omit [DecidableEq α] in
theorem sfind_sset_same (k : Nat) (v : α) (m : Sparse α) : sfind k (sset k v m) = some v := by
  induction m with
  | nil => simp [sset, sfind]
  | cons x t ih =>
    obtain ⟨i, w⟩ := x
    simp only [sset]
    split
    · simp [sfind]
    · split
      · simp [sfind]
      · rename_i h1 h2
        simp [sfind, Ne.symm h2, ih]

omit [DecidableEq α] in
theorem sfind_sset_other (k j : Nat) (v : α) (m : Sparse α) (h : j ≠ k) : sfind j (sset k v m) = sfind j m := by
  induction m with
  | nil => simp [sset, sfind, Ne.symm h]
  | cons x t ih =>
    obtain ⟨i, w⟩ := x
    simp only [sset]
    split
    · simp [sfind, Ne.symm h]
    · split
      · rename_i h1 h2; subst h2; simp [sfind, Ne.symm h]
      · simp [sfind, ih]

omit [DecidableEq α] in
/-- Of two writes of one key the second stands. -/
@[simp] theorem sset_sset_same (k : Nat) (v w : α) (m : Sparse α) : sset k v (sset k w m) = sset k v m := by
  induction m with
  | nil => simp [sset]
  | cons x t ih =>
    obtain ⟨i, u⟩ := x
    by_cases h1 : k < i
    · simp [sset, h1]
    · by_cases h2 : k = i
      · simp [sset, h2]
      · simp [sset, h1, h2, ih]

/-! ### Bytes -/

/-- The form of a byte store. -/
abbrev bwf (m : Sparse Byte) : Bool := swf (fun _ => 0) m

theorem bwf_bput (a : Nat) (v : Byte) (m : Sparse Byte) (w : bwf m = true) : bwf (bput a v m) = true := swf_sput _ a v m w
@[simp] theorem bget_bput_same (a : Nat) (v : Byte) (m : Sparse Byte) : bget a (bput a v m) = v := sget_sput_same _ a v m
theorem bget_bput_other (a b : Nat) (v : Byte) (m : Sparse Byte) (h : b ≠ a) : bget b (bput a v m) = bget b m := sget_sput_other _ a b v m h

theorem bwf_bwrite (a : Nat) (bs : List Byte) (m : Sparse Byte) (w : bwf m = true) : bwf (bwrite a bs m) = true := by
  induction bs generalizing a m with
  | nil => exact w
  | cons b t ih => exact ih (a + 1) _ (bwf_bput a b m w)

/-- Bytes outside the written ones read as before. -/
theorem bget_bwrite_other (a b : Nat) (bs : List Byte) (m : Sparse Byte) (h : b < a ∨ a + bs.length ≤ b) : bget b (bwrite a bs m) = bget b m := by
  induction bs generalizing a m with
  | nil => rfl
  | cons x t ih =>
    simp only [List.length_cons] at h
    rw [bwrite, ih (a + 1) _ (by omega), bget_bput_other a b x m (by omega)]

/-- Each written byte reads back. -/
theorem bget_bwrite_same (a i : Nat) (bs : List Byte) (m : Sparse Byte) (h : i < bs.length) :
    bget (a + i) (bwrite a bs m) = bs[i] := by
  induction bs generalizing a i m with
  | nil => simp at h
  | cons x t ih =>
    cases i with
    | zero => rw [bwrite, bget_bwrite_other (a + 1) (a + 0) t _ (by omega)]; exact bget_bput_same a x m
    | succ j =>
      have := ih (a + 1) j (bput a x m) (by simpa using h)
      rw [bwrite, show a + (j + 1) = a + 1 + j by omega, this]; rfl

/-! ### Registers -/

/-- The form of a register file. -/
abbrev rwf (m : Regs) : Bool := swf (fun _ => 0) m

@[simp] theorem rget_rput_same (k : Nat) (v : Word) (m : Regs) : rget k (rput k v m) = v := sget_sput_same _ k v m
theorem rget_rput_other (k j : Nat) (v : Word) (m : Regs) (h : j ≠ k) : rget j (rput k v m) = rget j m := sget_sput_other _ k j v m h
theorem rwf_rput (k : Nat) (v : Word) (m : Regs) (w : rwf m = true) : rwf (rput k v m) = true := swf_sput _ k v m w

end Sys2Proof.Machine
end

