-- ==== Sys2Proof/Laws/State.lean ====
section
/-! SUPPORT. What each plain update of the state leaves as it is: one lemma per field and update, true by unfolding the update alone. -/

namespace Sys2Proof.Machine

variable (s : State)


/-! ### `setQuire` -/

@[simp] theorem State.setQuire_pending (q : QId) (x : Quire) : (s.setQuire q x).pending = s.pending := rfl
@[simp] theorem State.setQuire_heldPackets (q : QId) (x : Quire) : (s.setQuire q x).heldPackets = s.heldPackets := rfl
@[simp] theorem State.setQuire_sent (q : QId) (x : Quire) : (s.setQuire q x).sent = s.sent := rfl
@[simp] theorem State.setQuire_maskWaits (q : QId) (x : Quire) : (s.setQuire q x).maskWaits = s.maskWaits := rfl
@[simp] theorem State.setQuire_heldReplies (q : QId) (x : Quire) : (s.setQuire q x).heldReplies = s.heldReplies := rfl
@[simp] theorem State.setQuire_heldTimes (q : QId) (x : Quire) : (s.setQuire q x).heldTimes = s.heldTimes := rfl
@[simp] theorem State.setQuire_fresh (q : QId) (x : Quire) : (s.setQuire q x).fresh = s.fresh := rfl
@[simp] theorem State.setQuire_modeOz (q : QId) (x : Quire) : (s.setQuire q x).modeOz = s.modeOz := rfl
@[simp] theorem State.setQuire_regs (q : QId) (x : Quire) : (s.setQuire q x).regs = s.regs := rfl
@[simp] theorem State.setQuire_sessions (q : QId) (x : Quire) : (s.setQuire q x).sessions = s.sessions := rfl
@[simp] theorem State.setQuire_links (q : QId) (x : Quire) : (s.setQuire q x).links = s.links := rfl
@[simp] theorem State.setQuire_lanes (q : QId) (x : Quire) : (s.setQuire q x).lanes = s.lanes := rfl
@[simp] theorem State.setQuire_clock (q : QId) (x : Quire) : (s.setQuire q x).clock = s.clock := rfl
@[simp] theorem State.setQuire_time (q : QId) (x : Quire) : (s.setQuire q x).time = s.time := rfl
@[simp] theorem State.setQuire_gov (q : QId) (x : Quire) : (s.setQuire q x).gov = s.gov := rfl
@[simp] theorem State.setQuire_log (q : QId) (x : Quire) : (s.setQuire q x).log = s.log := rfl
@[simp] theorem State.setQuire_collector (q : QId) (x : Quire) : (s.setQuire q x).collector = s.collector := rfl
@[simp] theorem State.setQuire_cal (q : QId) (x : Quire) : (s.setQuire q x).cal = s.cal := rfl
@[simp] theorem State.setQuire_spine (q : QId) (x : Quire) : (s.setQuire q x).spine = s.spine := rfl
@[simp] theorem State.setQuire_snaps (q : QId) (x : Quire) : (s.setQuire q x).snaps = s.snaps := rfl
@[simp] theorem State.setQuire_flash (q : QId) (x : Quire) : (s.setQuire q x).flash = s.flash := rfl
@[simp] theorem State.setQuire_boot (q : QId) (x : Quire) : (s.setQuire q x).boot = s.boot := rfl

/-! ### `modQuire` -/

@[simp] theorem State.modQuire_pending (q : QId) (f : Quire → Quire) : (s.modQuire q f).pending = s.pending := rfl
@[simp] theorem State.modQuire_heldPackets (q : QId) (f : Quire → Quire) : (s.modQuire q f).heldPackets = s.heldPackets := rfl
@[simp] theorem State.modQuire_sent (q : QId) (f : Quire → Quire) : (s.modQuire q f).sent = s.sent := rfl
@[simp] theorem State.modQuire_maskWaits (q : QId) (f : Quire → Quire) : (s.modQuire q f).maskWaits = s.maskWaits := rfl
@[simp] theorem State.modQuire_heldReplies (q : QId) (f : Quire → Quire) : (s.modQuire q f).heldReplies = s.heldReplies := rfl
@[simp] theorem State.modQuire_heldTimes (q : QId) (f : Quire → Quire) : (s.modQuire q f).heldTimes = s.heldTimes := rfl
@[simp] theorem State.modQuire_fresh (q : QId) (f : Quire → Quire) : (s.modQuire q f).fresh = s.fresh := rfl
@[simp] theorem State.modQuire_modeOz (q : QId) (f : Quire → Quire) : (s.modQuire q f).modeOz = s.modeOz := rfl
@[simp] theorem State.modQuire_regs (q : QId) (f : Quire → Quire) : (s.modQuire q f).regs = s.regs := rfl
@[simp] theorem State.modQuire_sessions (q : QId) (f : Quire → Quire) : (s.modQuire q f).sessions = s.sessions := rfl
@[simp] theorem State.modQuire_links (q : QId) (f : Quire → Quire) : (s.modQuire q f).links = s.links := rfl
@[simp] theorem State.modQuire_lanes (q : QId) (f : Quire → Quire) : (s.modQuire q f).lanes = s.lanes := rfl
@[simp] theorem State.modQuire_clock (q : QId) (f : Quire → Quire) : (s.modQuire q f).clock = s.clock := rfl
@[simp] theorem State.modQuire_time (q : QId) (f : Quire → Quire) : (s.modQuire q f).time = s.time := rfl
@[simp] theorem State.modQuire_gov (q : QId) (f : Quire → Quire) : (s.modQuire q f).gov = s.gov := rfl
@[simp] theorem State.modQuire_log (q : QId) (f : Quire → Quire) : (s.modQuire q f).log = s.log := rfl
@[simp] theorem State.modQuire_collector (q : QId) (f : Quire → Quire) : (s.modQuire q f).collector = s.collector := rfl
@[simp] theorem State.modQuire_cal (q : QId) (f : Quire → Quire) : (s.modQuire q f).cal = s.cal := rfl
@[simp] theorem State.modQuire_spine (q : QId) (f : Quire → Quire) : (s.modQuire q f).spine = s.spine := rfl
@[simp] theorem State.modQuire_snaps (q : QId) (f : Quire → Quire) : (s.modQuire q f).snaps = s.snaps := rfl
@[simp] theorem State.modQuire_flash (q : QId) (f : Quire → Quire) : (s.modQuire q f).flash = s.flash := rfl
@[simp] theorem State.modQuire_boot (q : QId) (f : Quire → Quire) : (s.modQuire q f).boot = s.boot := rfl

/-! ### `setReg` -/

@[simp] theorem State.setReg_pending (k : Nat) (v : Word) : (s.setReg k v).pending = s.pending := rfl
@[simp] theorem State.setReg_heldPackets (k : Nat) (v : Word) : (s.setReg k v).heldPackets = s.heldPackets := rfl
@[simp] theorem State.setReg_sent (k : Nat) (v : Word) : (s.setReg k v).sent = s.sent := rfl
@[simp] theorem State.setReg_maskWaits (k : Nat) (v : Word) : (s.setReg k v).maskWaits = s.maskWaits := rfl
@[simp] theorem State.setReg_heldReplies (k : Nat) (v : Word) : (s.setReg k v).heldReplies = s.heldReplies := rfl
@[simp] theorem State.setReg_heldTimes (k : Nat) (v : Word) : (s.setReg k v).heldTimes = s.heldTimes := rfl
@[simp] theorem State.setReg_fresh (k : Nat) (v : Word) : (s.setReg k v).fresh = s.fresh := rfl
@[simp] theorem State.setReg_modeOz (k : Nat) (v : Word) : (s.setReg k v).modeOz = s.modeOz := rfl
@[simp] theorem State.setReg_quires (k : Nat) (v : Word) : (s.setReg k v).quires = s.quires := rfl
@[simp] theorem State.setReg_sessions (k : Nat) (v : Word) : (s.setReg k v).sessions = s.sessions := rfl
@[simp] theorem State.setReg_links (k : Nat) (v : Word) : (s.setReg k v).links = s.links := rfl
@[simp] theorem State.setReg_lanes (k : Nat) (v : Word) : (s.setReg k v).lanes = s.lanes := rfl
@[simp] theorem State.setReg_clock (k : Nat) (v : Word) : (s.setReg k v).clock = s.clock := rfl
@[simp] theorem State.setReg_time (k : Nat) (v : Word) : (s.setReg k v).time = s.time := rfl
@[simp] theorem State.setReg_gov (k : Nat) (v : Word) : (s.setReg k v).gov = s.gov := rfl
@[simp] theorem State.setReg_log (k : Nat) (v : Word) : (s.setReg k v).log = s.log := rfl
@[simp] theorem State.setReg_collector (k : Nat) (v : Word) : (s.setReg k v).collector = s.collector := rfl
@[simp] theorem State.setReg_cal (k : Nat) (v : Word) : (s.setReg k v).cal = s.cal := rfl
@[simp] theorem State.setReg_spine (k : Nat) (v : Word) : (s.setReg k v).spine = s.spine := rfl
@[simp] theorem State.setReg_snaps (k : Nat) (v : Word) : (s.setReg k v).snaps = s.snaps := rfl
@[simp] theorem State.setReg_flash (k : Nat) (v : Word) : (s.setReg k v).flash = s.flash := rfl
@[simp] theorem State.setReg_boot (k : Nat) (v : Word) : (s.setReg k v).boot = s.boot := rfl

/-! ### `modSession` -/

@[simp] theorem State.modSession_pending (k : LinkId) (f : Session → Session) : (s.modSession k f).pending = s.pending := rfl
@[simp] theorem State.modSession_heldPackets (k : LinkId) (f : Session → Session) : (s.modSession k f).heldPackets = s.heldPackets := rfl
@[simp] theorem State.modSession_sent (k : LinkId) (f : Session → Session) : (s.modSession k f).sent = s.sent := rfl
@[simp] theorem State.modSession_maskWaits (k : LinkId) (f : Session → Session) : (s.modSession k f).maskWaits = s.maskWaits := rfl
@[simp] theorem State.modSession_heldReplies (k : LinkId) (f : Session → Session) : (s.modSession k f).heldReplies = s.heldReplies := rfl
@[simp] theorem State.modSession_heldTimes (k : LinkId) (f : Session → Session) : (s.modSession k f).heldTimes = s.heldTimes := rfl
@[simp] theorem State.modSession_fresh (k : LinkId) (f : Session → Session) : (s.modSession k f).fresh = s.fresh := rfl
@[simp] theorem State.modSession_modeOz (k : LinkId) (f : Session → Session) : (s.modSession k f).modeOz = s.modeOz := rfl
@[simp] theorem State.modSession_regs (k : LinkId) (f : Session → Session) : (s.modSession k f).regs = s.regs := rfl
@[simp] theorem State.modSession_quires (k : LinkId) (f : Session → Session) : (s.modSession k f).quires = s.quires := rfl
@[simp] theorem State.modSession_links (k : LinkId) (f : Session → Session) : (s.modSession k f).links = s.links := rfl
@[simp] theorem State.modSession_lanes (k : LinkId) (f : Session → Session) : (s.modSession k f).lanes = s.lanes := rfl
@[simp] theorem State.modSession_clock (k : LinkId) (f : Session → Session) : (s.modSession k f).clock = s.clock := rfl
@[simp] theorem State.modSession_time (k : LinkId) (f : Session → Session) : (s.modSession k f).time = s.time := rfl
@[simp] theorem State.modSession_gov (k : LinkId) (f : Session → Session) : (s.modSession k f).gov = s.gov := rfl
@[simp] theorem State.modSession_log (k : LinkId) (f : Session → Session) : (s.modSession k f).log = s.log := rfl
@[simp] theorem State.modSession_collector (k : LinkId) (f : Session → Session) : (s.modSession k f).collector = s.collector := rfl
@[simp] theorem State.modSession_cal (k : LinkId) (f : Session → Session) : (s.modSession k f).cal = s.cal := rfl
@[simp] theorem State.modSession_spine (k : LinkId) (f : Session → Session) : (s.modSession k f).spine = s.spine := rfl
@[simp] theorem State.modSession_snaps (k : LinkId) (f : Session → Session) : (s.modSession k f).snaps = s.snaps := rfl
@[simp] theorem State.modSession_flash (k : LinkId) (f : Session → Session) : (s.modSession k f).flash = s.flash := rfl
@[simp] theorem State.modSession_boot (k : LinkId) (f : Session → Session) : (s.modSession k f).boot = s.boot := rfl

/-! ### `modLink` -/

@[simp] theorem State.modLink_pending (k : LinkId) (f : Link → Link) : (s.modLink k f).pending = s.pending := rfl
@[simp] theorem State.modLink_heldPackets (k : LinkId) (f : Link → Link) : (s.modLink k f).heldPackets = s.heldPackets := rfl
@[simp] theorem State.modLink_sent (k : LinkId) (f : Link → Link) : (s.modLink k f).sent = s.sent := rfl
@[simp] theorem State.modLink_maskWaits (k : LinkId) (f : Link → Link) : (s.modLink k f).maskWaits = s.maskWaits := rfl
@[simp] theorem State.modLink_heldReplies (k : LinkId) (f : Link → Link) : (s.modLink k f).heldReplies = s.heldReplies := rfl
@[simp] theorem State.modLink_heldTimes (k : LinkId) (f : Link → Link) : (s.modLink k f).heldTimes = s.heldTimes := rfl
@[simp] theorem State.modLink_fresh (k : LinkId) (f : Link → Link) : (s.modLink k f).fresh = s.fresh := rfl
@[simp] theorem State.modLink_modeOz (k : LinkId) (f : Link → Link) : (s.modLink k f).modeOz = s.modeOz := rfl
@[simp] theorem State.modLink_regs (k : LinkId) (f : Link → Link) : (s.modLink k f).regs = s.regs := rfl
@[simp] theorem State.modLink_quires (k : LinkId) (f : Link → Link) : (s.modLink k f).quires = s.quires := rfl
@[simp] theorem State.modLink_sessions (k : LinkId) (f : Link → Link) : (s.modLink k f).sessions = s.sessions := rfl
@[simp] theorem State.modLink_lanes (k : LinkId) (f : Link → Link) : (s.modLink k f).lanes = s.lanes := rfl
@[simp] theorem State.modLink_clock (k : LinkId) (f : Link → Link) : (s.modLink k f).clock = s.clock := rfl
@[simp] theorem State.modLink_time (k : LinkId) (f : Link → Link) : (s.modLink k f).time = s.time := rfl
@[simp] theorem State.modLink_gov (k : LinkId) (f : Link → Link) : (s.modLink k f).gov = s.gov := rfl
@[simp] theorem State.modLink_log (k : LinkId) (f : Link → Link) : (s.modLink k f).log = s.log := rfl
@[simp] theorem State.modLink_collector (k : LinkId) (f : Link → Link) : (s.modLink k f).collector = s.collector := rfl
@[simp] theorem State.modLink_cal (k : LinkId) (f : Link → Link) : (s.modLink k f).cal = s.cal := rfl
@[simp] theorem State.modLink_spine (k : LinkId) (f : Link → Link) : (s.modLink k f).spine = s.spine := rfl
@[simp] theorem State.modLink_snaps (k : LinkId) (f : Link → Link) : (s.modLink k f).snaps = s.snaps := rfl
@[simp] theorem State.modLink_flash (k : LinkId) (f : Link → Link) : (s.modLink k f).flash = s.flash := rfl
@[simp] theorem State.modLink_boot (k : LinkId) (f : Link → Link) : (s.modLink k f).boot = s.boot := rfl

/-! ### `modLane` -/

@[simp] theorem State.modLane_pending (i : LaneId) (f : Lane → Lane) : (s.modLane i f).pending = s.pending := rfl
@[simp] theorem State.modLane_heldPackets (i : LaneId) (f : Lane → Lane) : (s.modLane i f).heldPackets = s.heldPackets := rfl
@[simp] theorem State.modLane_sent (i : LaneId) (f : Lane → Lane) : (s.modLane i f).sent = s.sent := rfl
@[simp] theorem State.modLane_maskWaits (i : LaneId) (f : Lane → Lane) : (s.modLane i f).maskWaits = s.maskWaits := rfl
@[simp] theorem State.modLane_heldReplies (i : LaneId) (f : Lane → Lane) : (s.modLane i f).heldReplies = s.heldReplies := rfl
@[simp] theorem State.modLane_heldTimes (i : LaneId) (f : Lane → Lane) : (s.modLane i f).heldTimes = s.heldTimes := rfl
@[simp] theorem State.modLane_fresh (i : LaneId) (f : Lane → Lane) : (s.modLane i f).fresh = s.fresh := rfl
@[simp] theorem State.modLane_modeOz (i : LaneId) (f : Lane → Lane) : (s.modLane i f).modeOz = s.modeOz := rfl
@[simp] theorem State.modLane_regs (i : LaneId) (f : Lane → Lane) : (s.modLane i f).regs = s.regs := rfl
@[simp] theorem State.modLane_quires (i : LaneId) (f : Lane → Lane) : (s.modLane i f).quires = s.quires := rfl
@[simp] theorem State.modLane_sessions (i : LaneId) (f : Lane → Lane) : (s.modLane i f).sessions = s.sessions := rfl
@[simp] theorem State.modLane_links (i : LaneId) (f : Lane → Lane) : (s.modLane i f).links = s.links := rfl
@[simp] theorem State.modLane_clock (i : LaneId) (f : Lane → Lane) : (s.modLane i f).clock = s.clock := rfl
@[simp] theorem State.modLane_time (i : LaneId) (f : Lane → Lane) : (s.modLane i f).time = s.time := rfl
@[simp] theorem State.modLane_gov (i : LaneId) (f : Lane → Lane) : (s.modLane i f).gov = s.gov := rfl
@[simp] theorem State.modLane_log (i : LaneId) (f : Lane → Lane) : (s.modLane i f).log = s.log := rfl
@[simp] theorem State.modLane_collector (i : LaneId) (f : Lane → Lane) : (s.modLane i f).collector = s.collector := rfl
@[simp] theorem State.modLane_cal (i : LaneId) (f : Lane → Lane) : (s.modLane i f).cal = s.cal := rfl
@[simp] theorem State.modLane_spine (i : LaneId) (f : Lane → Lane) : (s.modLane i f).spine = s.spine := rfl
@[simp] theorem State.modLane_snaps (i : LaneId) (f : Lane → Lane) : (s.modLane i f).snaps = s.snaps := rfl
@[simp] theorem State.modLane_flash (i : LaneId) (f : Lane → Lane) : (s.modLane i f).flash = s.flash := rfl
@[simp] theorem State.modLane_boot (i : LaneId) (f : Lane → Lane) : (s.modLane i f).boot = s.boot := rfl

/-! ### `openMask` -/

@[simp] theorem State.openMask_pending (d : ReplyTo) : (s.openMask d).pending = s.pending := rfl
@[simp] theorem State.openMask_heldPackets (d : ReplyTo) : (s.openMask d).heldPackets = s.heldPackets := rfl
@[simp] theorem State.openMask_sent (d : ReplyTo) : (s.openMask d).sent = s.sent := rfl
@[simp] theorem State.openMask_heldReplies (d : ReplyTo) : (s.openMask d).heldReplies = s.heldReplies := rfl
@[simp] theorem State.openMask_heldTimes (d : ReplyTo) : (s.openMask d).heldTimes = s.heldTimes := rfl
@[simp] theorem State.openMask_fresh (d : ReplyTo) : (s.openMask d).fresh = s.fresh := rfl
@[simp] theorem State.openMask_modeOz (d : ReplyTo) : (s.openMask d).modeOz = s.modeOz := rfl
@[simp] theorem State.openMask_regs (d : ReplyTo) : (s.openMask d).regs = s.regs := rfl
@[simp] theorem State.openMask_quires (d : ReplyTo) : (s.openMask d).quires = s.quires := rfl
@[simp] theorem State.openMask_sessions (d : ReplyTo) : (s.openMask d).sessions = s.sessions := rfl
@[simp] theorem State.openMask_links (d : ReplyTo) : (s.openMask d).links = s.links := rfl
@[simp] theorem State.openMask_lanes (d : ReplyTo) : (s.openMask d).lanes = s.lanes := rfl
@[simp] theorem State.openMask_clock (d : ReplyTo) : (s.openMask d).clock = s.clock := rfl
@[simp] theorem State.openMask_time (d : ReplyTo) : (s.openMask d).time = s.time := rfl
@[simp] theorem State.openMask_gov (d : ReplyTo) : (s.openMask d).gov = s.gov := rfl
@[simp] theorem State.openMask_log (d : ReplyTo) : (s.openMask d).log = s.log := rfl
@[simp] theorem State.openMask_collector (d : ReplyTo) : (s.openMask d).collector = s.collector := rfl
@[simp] theorem State.openMask_cal (d : ReplyTo) : (s.openMask d).cal = s.cal := rfl
@[simp] theorem State.openMask_spine (d : ReplyTo) : (s.openMask d).spine = s.spine := rfl
@[simp] theorem State.openMask_snaps (d : ReplyTo) : (s.openMask d).snaps = s.snaps := rfl
@[simp] theorem State.openMask_flash (d : ReplyTo) : (s.openMask d).flash = s.flash := rfl
@[simp] theorem State.openMask_boot (d : ReplyTo) : (s.openMask d).boot = s.boot := rfl

/-! ### The accessors -/

@[simp] theorem State.setQuire_session (q : QId) (x : Quire) (k' : LinkId) : (s.setQuire q x).session k' = s.session k' := rfl
@[simp] theorem State.setQuire_link (q : QId) (x : Quire) (k' : LinkId) : (s.setQuire q x).link k' = s.link k' := rfl
@[simp] theorem State.setQuire_lane (q : QId) (x : Quire) (i' : LaneId) : (s.setQuire q x).lane i' = s.lane i' := rfl
@[simp] theorem State.setQuire_reg (q : QId) (x : Quire) (a : Nat) : (s.setQuire q x).reg a = s.reg a := rfl
@[simp] theorem State.modQuire_session (q : QId) (f : Quire → Quire) (k' : LinkId) : (s.modQuire q f).session k' = s.session k' := rfl
@[simp] theorem State.modQuire_link (q : QId) (f : Quire → Quire) (k' : LinkId) : (s.modQuire q f).link k' = s.link k' := rfl
@[simp] theorem State.modQuire_lane (q : QId) (f : Quire → Quire) (i' : LaneId) : (s.modQuire q f).lane i' = s.lane i' := rfl
@[simp] theorem State.modQuire_reg (q : QId) (f : Quire → Quire) (a : Nat) : (s.modQuire q f).reg a = s.reg a := rfl
@[simp] theorem State.setReg_quire (k : Nat) (v : Word) (q' : QId) : (s.setReg k v).quire q' = s.quire q' := rfl
@[simp] theorem State.setReg_session (k : Nat) (v : Word) (k' : LinkId) : (s.setReg k v).session k' = s.session k' := rfl
@[simp] theorem State.setReg_link (k : Nat) (v : Word) (k' : LinkId) : (s.setReg k v).link k' = s.link k' := rfl
@[simp] theorem State.setReg_lane (k : Nat) (v : Word) (i' : LaneId) : (s.setReg k v).lane i' = s.lane i' := rfl
@[simp] theorem State.modSession_quire (k : LinkId) (f : Session → Session) (q' : QId) : (s.modSession k f).quire q' = s.quire q' := rfl
@[simp] theorem State.modSession_link (k : LinkId) (f : Session → Session) (k' : LinkId) : (s.modSession k f).link k' = s.link k' := rfl
@[simp] theorem State.modSession_lane (k : LinkId) (f : Session → Session) (i' : LaneId) : (s.modSession k f).lane i' = s.lane i' := rfl
@[simp] theorem State.modSession_reg (k : LinkId) (f : Session → Session) (a : Nat) : (s.modSession k f).reg a = s.reg a := rfl
@[simp] theorem State.modLink_quire (k : LinkId) (f : Link → Link) (q' : QId) : (s.modLink k f).quire q' = s.quire q' := rfl
@[simp] theorem State.modLink_session (k : LinkId) (f : Link → Link) (k' : LinkId) : (s.modLink k f).session k' = s.session k' := rfl
@[simp] theorem State.modLink_lane (k : LinkId) (f : Link → Link) (i' : LaneId) : (s.modLink k f).lane i' = s.lane i' := rfl
@[simp] theorem State.modLink_reg (k : LinkId) (f : Link → Link) (a : Nat) : (s.modLink k f).reg a = s.reg a := rfl
@[simp] theorem State.modLane_quire (i : LaneId) (f : Lane → Lane) (q' : QId) : (s.modLane i f).quire q' = s.quire q' := rfl
@[simp] theorem State.modLane_session (i : LaneId) (f : Lane → Lane) (k' : LinkId) : (s.modLane i f).session k' = s.session k' := rfl
@[simp] theorem State.modLane_link (i : LaneId) (f : Lane → Lane) (k' : LinkId) : (s.modLane i f).link k' = s.link k' := rfl
@[simp] theorem State.modLane_reg (i : LaneId) (f : Lane → Lane) (a : Nat) : (s.modLane i f).reg a = s.reg a := rfl
@[simp] theorem State.openMask_quire (d : ReplyTo) (q' : QId) : (s.openMask d).quire q' = s.quire q' := rfl
@[simp] theorem State.openMask_session (d : ReplyTo) (k' : LinkId) : (s.openMask d).session k' = s.session k' := rfl
@[simp] theorem State.openMask_link (d : ReplyTo) (k' : LinkId) : (s.openMask d).link k' = s.link k' := rfl
@[simp] theorem State.openMask_lane (d : ReplyTo) (i' : LaneId) : (s.openMask d).lane i' = s.lane i' := rfl
@[simp] theorem State.openMask_reg (d : ReplyTo) (a : Nat) : (s.openMask d).reg a = s.reg a := rfl

/-! ### `takeFree` -/

@[simp] theorem State.takeFree_quire (q' : QId) : s.takeFree.2.quire q' = s.quire q' := rfl
@[simp] theorem State.takeFree_session (k' : LinkId) : s.takeFree.2.session k' = s.session k' := rfl
@[simp] theorem State.takeFree_link (k' : LinkId) : s.takeFree.2.link k' = s.link k' := rfl
@[simp] theorem State.takeFree_lane (i' : LaneId) : s.takeFree.2.lane i' = s.lane i' := rfl
@[simp] theorem State.takeFree_reg (a : Nat) : s.takeFree.2.reg a = s.reg a := rfl
@[simp] theorem State.takeFree_fst : s.takeFree.1 = Config.freeWord s.fresh := rfl
@[simp] theorem State.takeFree_fresh : s.takeFree.2.fresh = s.fresh + 1 := rfl
@[simp] theorem State.takeFree_pending : s.takeFree.2.pending = s.pending := rfl
@[simp] theorem State.takeFree_heldPackets : s.takeFree.2.heldPackets = s.heldPackets := rfl
@[simp] theorem State.takeFree_sent : s.takeFree.2.sent = s.sent := rfl
@[simp] theorem State.takeFree_maskWaits : s.takeFree.2.maskWaits = s.maskWaits := rfl
@[simp] theorem State.takeFree_heldReplies : s.takeFree.2.heldReplies = s.heldReplies := rfl
@[simp] theorem State.takeFree_heldTimes : s.takeFree.2.heldTimes = s.heldTimes := rfl
@[simp] theorem State.takeFree_modeOz : s.takeFree.2.modeOz = s.modeOz := rfl
@[simp] theorem State.takeFree_regs : s.takeFree.2.regs = s.regs := rfl
@[simp] theorem State.takeFree_quires : s.takeFree.2.quires = s.quires := rfl
@[simp] theorem State.takeFree_sessions : s.takeFree.2.sessions = s.sessions := rfl
@[simp] theorem State.takeFree_links : s.takeFree.2.links = s.links := rfl
@[simp] theorem State.takeFree_lanes : s.takeFree.2.lanes = s.lanes := rfl
@[simp] theorem State.takeFree_clock : s.takeFree.2.clock = s.clock := rfl
@[simp] theorem State.takeFree_time : s.takeFree.2.time = s.time := rfl
@[simp] theorem State.takeFree_gov : s.takeFree.2.gov = s.gov := rfl
@[simp] theorem State.takeFree_log : s.takeFree.2.log = s.log := rfl
@[simp] theorem State.takeFree_collector : s.takeFree.2.collector = s.collector := rfl
@[simp] theorem State.takeFree_cal : s.takeFree.2.cal = s.cal := rfl
@[simp] theorem State.takeFree_spine : s.takeFree.2.spine = s.spine := rfl
@[simp] theorem State.takeFree_snaps : s.takeFree.2.snaps = s.snaps := rfl
@[simp] theorem State.takeFree_flash : s.takeFree.2.flash = s.flash := rfl
@[simp] theorem State.takeFree_boot : s.takeFree.2.boot = s.boot := rfl

/-! ### `report` -/

section
variable (sev : Severity) (c : Nat) (quire : Option QId) (acts : List QId) (element cause : Byte) (detail : Int) (injected : Bool)

@[simp] theorem State.report_pending : (s.report sev c quire acts element cause detail injected).pending = s.pending := rfl
@[simp] theorem State.report_heldPackets : (s.report sev c quire acts element cause detail injected).heldPackets = s.heldPackets := rfl
@[simp] theorem State.report_sent : (s.report sev c quire acts element cause detail injected).sent = s.sent := rfl
@[simp] theorem State.report_maskWaits : (s.report sev c quire acts element cause detail injected).maskWaits = s.maskWaits := rfl
@[simp] theorem State.report_heldReplies : (s.report sev c quire acts element cause detail injected).heldReplies = s.heldReplies := rfl
@[simp] theorem State.report_heldTimes : (s.report sev c quire acts element cause detail injected).heldTimes = s.heldTimes := rfl
@[simp] theorem State.report_fresh : (s.report sev c quire acts element cause detail injected).fresh = s.fresh := rfl
@[simp] theorem State.report_modeOz : (s.report sev c quire acts element cause detail injected).modeOz = s.modeOz := rfl
@[simp] theorem State.report_regs : (s.report sev c quire acts element cause detail injected).regs = s.regs := rfl
@[simp] theorem State.report_quires : (s.report sev c quire acts element cause detail injected).quires = s.quires := rfl
@[simp] theorem State.report_sessions : (s.report sev c quire acts element cause detail injected).sessions = s.sessions := rfl
@[simp] theorem State.report_links : (s.report sev c quire acts element cause detail injected).links = s.links := rfl
@[simp] theorem State.report_lanes : (s.report sev c quire acts element cause detail injected).lanes = s.lanes := rfl
@[simp] theorem State.report_clock : (s.report sev c quire acts element cause detail injected).clock = s.clock := rfl
@[simp] theorem State.report_time : (s.report sev c quire acts element cause detail injected).time = s.time := rfl
@[simp] theorem State.report_gov : (s.report sev c quire acts element cause detail injected).gov = s.gov := rfl
@[simp] theorem State.report_log : (s.report sev c quire acts element cause detail injected).log = s.log := rfl
@[simp] theorem State.report_cal : (s.report sev c quire acts element cause detail injected).cal = s.cal := rfl
@[simp] theorem State.report_spine : (s.report sev c quire acts element cause detail injected).spine = s.spine := rfl
@[simp] theorem State.report_snaps : (s.report sev c quire acts element cause detail injected).snaps = s.snaps := rfl
@[simp] theorem State.report_flash : (s.report sev c quire acts element cause detail injected).flash = s.flash := rfl
@[simp] theorem State.report_boot : (s.report sev c quire acts element cause detail injected).boot = s.boot := rfl
@[simp] theorem State.report_quire (q' : QId) : (s.report sev c quire acts element cause detail injected).quire q' = s.quire q' := rfl
@[simp] theorem State.report_session (k' : LinkId) : (s.report sev c quire acts element cause detail injected).session k' = s.session k' := rfl
@[simp] theorem State.report_link (k' : LinkId) : (s.report sev c quire acts element cause detail injected).link k' = s.link k' := rfl
@[simp] theorem State.report_lane (i' : LaneId) : (s.report sev c quire acts element cause detail injected).lane i' = s.lane i' := rfl
@[simp] theorem State.report_reg (a : Nat) : (s.report sev c quire acts element cause detail injected).reg a = s.reg a := rfl

end

/-! ### Reading what an update wrote -/

@[simp] theorem State.reg_setReg_same (k : Nat) (v : Word) : (s.setReg k v).reg k = v := by simp [State.reg, State.setReg]
@[simp] theorem State.reg_setReg_other (k j : Nat) (v : Word) (h : j ≠ k) : (s.setReg k v).reg j = s.reg j := by
  simp [State.reg, State.setReg, sget_sput_other _ _ _ _ _ h]
@[simp] theorem State.quire_setQuire_same (q : QId) (x : Quire) : (s.setQuire q x).quire q = x := by simp [State.quire, State.setQuire]
@[simp] theorem State.quire_setQuire_other (q r : QId) (x : Quire) (h : r ≠ q) : (s.setQuire q x).quire r = s.quire r := by
  have : q.val ≠ r.val := fun e => h (Fin.ext e.symm)
  simp [State.quire, State.setQuire, this]
@[simp] theorem State.quire_modQuire_same (q : QId) (f : Quire → Quire) : (s.modQuire q f).quire q = f (s.quire q) := by simp [State.modQuire]
@[simp] theorem State.quire_modQuire_other (q r : QId) (f : Quire → Quire) (h : r ≠ q) : (s.modQuire q f).quire r = s.quire r := by
  simp [State.modQuire, h]
@[simp] theorem State.session_modSession_same (k : LinkId) (f : Session → Session) : (s.modSession k f).session k = f (s.session k) := by
  simp [State.session, State.modSession]
@[simp] theorem State.session_modSession_other (k l : LinkId) (f : Session → Session) (h : l ≠ k) : (s.modSession k f).session l = s.session l := by
  have : k.val ≠ l.val := fun e => h (Fin.ext e.symm)
  simp [State.session, State.modSession, this]
@[simp] theorem State.link_modLink_same (k : LinkId) (f : Link → Link) : (s.modLink k f).link k = f (s.link k) := by simp [State.link, State.modLink]
@[simp] theorem State.link_modLink_other (k l : LinkId) (f : Link → Link) (h : l ≠ k) : (s.modLink k f).link l = s.link l := by
  have : k.val ≠ l.val := fun e => h (Fin.ext e.symm)
  simp [State.link, State.modLink, this]
@[simp] theorem State.lane_modLane_same (i : LaneId) (f : Lane → Lane) : (s.modLane i f).lane i = f (s.lane i) := by simp [State.lane, State.modLane]
@[simp] theorem State.lane_modLane_other (i j : LaneId) (f : Lane → Lane) (h : j ≠ i) : (s.modLane i f).lane j = s.lane j := by
  have : i.val ≠ j.val := fun e => h (Fin.ext e.symm)
  simp [State.lane, State.modLane, this]

theorem State.quire_congr (t : State) (q : QId) (h : t.quires = s.quires) : t.quire q = s.quire q := by simp [State.quire, h]
theorem State.session_congr (t : State) (k : LinkId) (h : t.sessions = s.sessions) : t.session k = s.session k := by simp [State.session, h]
theorem State.link_congr (t : State) (k : LinkId) (h : t.links = s.links) : t.link k = s.link k := by simp [State.link, h]
theorem State.lane_congr (t : State) (i : LaneId) (h : t.lanes = s.lanes) : t.lane i = s.lane i := by simp [State.lane, h]

end Sys2Proof.Machine
end

