-- ==== Sys2Proof/Laws/Ops.lean ====
section
/-! SUPPORT. What each operation of Machine/Ops.lean can do to the state: the log and the collector's saturation bits for an offered event (R776, R782), the register for a counter, the reply's own fields for a reply, and one quire for a step of a quire (R29). -/

namespace Sys2Proof.Machine

open Host (Outcome)

/-- The steps of R782 change the log alone. -/
theorem offerOnce_shape (e : LogEvent) (s : State) : ∃ l, (offerOnce e s).1 = { s with log := l } := by
  unfold offerOnce
  dsimp only
  split
  · exact ⟨_, rfl⟩
  · split
    · exact ⟨_, rfl⟩
    · split <;> exact ⟨_, rfl⟩

/-- Offering an event changes the log, and of the rest only the saturation bits of the collector. -/
theorem offer_shape (n : Nat) (e : LogEvent) (s : State) :
    ∃ l c, offer n e s = { s with log := l, collector := { s.collector with satPages := c } } := by
  induction n generalizing e s with
  | zero =>
    obtain ⟨l, h⟩ := offerOnce_shape e s
    exact ⟨l, s.collector.satPages, by rw [offer, h]⟩
  | succ n ih =>
    obtain ⟨l, h⟩ := offerOnce_shape e s
    rw [offer]
    dsimp only
    split
    · exact ⟨l, s.collector.satPages, by rw [h]⟩
    · rename_i addr _
      rw [h]
      obtain ⟨l', c', h'⟩ := ih (satEvent addr) { s with log := l, collector := { s.collector with satPages := setBit s.collector.satPages 7 } }
      exact ⟨l', c', h'⟩

theorem State.logEvent_shape (s : State) (e : LogEvent) :
    ∃ l c, s.logEvent e = { s with log := l, collector := { s.collector with satPages := c } } := offer_shape 4 e s

/-! ### `logEvent`, `log'` -/

@[simp] theorem State.logEvent_pending (s : State) (e : LogEvent) : (s.logEvent e).pending = s.pending := by obtain ⟨_, _, h⟩ := s.logEvent_shape e; rw [h]
@[simp] theorem State.logEvent_heldPackets (s : State) (e : LogEvent) : (s.logEvent e).heldPackets = s.heldPackets := by obtain ⟨_, _, h⟩ := s.logEvent_shape e; rw [h]
@[simp] theorem State.logEvent_heldTimes (s : State) (e : LogEvent) : (s.logEvent e).heldTimes = s.heldTimes := by obtain ⟨_, _, h⟩ := s.logEvent_shape e; rw [h]
@[simp] theorem State.logEvent_sent (s : State) (e : LogEvent) : (s.logEvent e).sent = s.sent := by obtain ⟨_, _, h⟩ := s.logEvent_shape e; rw [h]
@[simp] theorem State.logEvent_maskWaits (s : State) (e : LogEvent) : (s.logEvent e).maskWaits = s.maskWaits := by obtain ⟨_, _, h⟩ := s.logEvent_shape e; rw [h]
@[simp] theorem State.logEvent_heldReplies (s : State) (e : LogEvent) : (s.logEvent e).heldReplies = s.heldReplies := by obtain ⟨_, _, h⟩ := s.logEvent_shape e; rw [h]
@[simp] theorem State.logEvent_fresh (s : State) (e : LogEvent) : (s.logEvent e).fresh = s.fresh := by obtain ⟨_, _, h⟩ := s.logEvent_shape e; rw [h]
@[simp] theorem State.logEvent_modeOz (s : State) (e : LogEvent) : (s.logEvent e).modeOz = s.modeOz := by obtain ⟨_, _, h⟩ := s.logEvent_shape e; rw [h]
@[simp] theorem State.logEvent_regs (s : State) (e : LogEvent) : (s.logEvent e).regs = s.regs := by obtain ⟨_, _, h⟩ := s.logEvent_shape e; rw [h]
@[simp] theorem State.logEvent_quires (s : State) (e : LogEvent) : (s.logEvent e).quires = s.quires := by obtain ⟨_, _, h⟩ := s.logEvent_shape e; rw [h]
@[simp] theorem State.logEvent_sessions (s : State) (e : LogEvent) : (s.logEvent e).sessions = s.sessions := by obtain ⟨_, _, h⟩ := s.logEvent_shape e; rw [h]
@[simp] theorem State.logEvent_links (s : State) (e : LogEvent) : (s.logEvent e).links = s.links := by obtain ⟨_, _, h⟩ := s.logEvent_shape e; rw [h]
@[simp] theorem State.logEvent_lanes (s : State) (e : LogEvent) : (s.logEvent e).lanes = s.lanes := by obtain ⟨_, _, h⟩ := s.logEvent_shape e; rw [h]
@[simp] theorem State.logEvent_clock (s : State) (e : LogEvent) : (s.logEvent e).clock = s.clock := by obtain ⟨_, _, h⟩ := s.logEvent_shape e; rw [h]
@[simp] theorem State.logEvent_time (s : State) (e : LogEvent) : (s.logEvent e).time = s.time := by obtain ⟨_, _, h⟩ := s.logEvent_shape e; rw [h]
@[simp] theorem State.logEvent_gov (s : State) (e : LogEvent) : (s.logEvent e).gov = s.gov := by obtain ⟨_, _, h⟩ := s.logEvent_shape e; rw [h]
@[simp] theorem State.logEvent_cal (s : State) (e : LogEvent) : (s.logEvent e).cal = s.cal := by obtain ⟨_, _, h⟩ := s.logEvent_shape e; rw [h]
@[simp] theorem State.logEvent_spine (s : State) (e : LogEvent) : (s.logEvent e).spine = s.spine := by obtain ⟨_, _, h⟩ := s.logEvent_shape e; rw [h]
@[simp] theorem State.logEvent_snaps (s : State) (e : LogEvent) : (s.logEvent e).snaps = s.snaps := by obtain ⟨_, _, h⟩ := s.logEvent_shape e; rw [h]
@[simp] theorem State.logEvent_flash (s : State) (e : LogEvent) : (s.logEvent e).flash = s.flash := by obtain ⟨_, _, h⟩ := s.logEvent_shape e; rw [h]
@[simp] theorem State.logEvent_boot (s : State) (e : LogEvent) : (s.logEvent e).boot = s.boot := by obtain ⟨_, _, h⟩ := s.logEvent_shape e; rw [h]
@[simp] theorem State.logEvent_quire (s : State) (e : LogEvent) (q' : QId) : (s.logEvent e).quire q' = s.quire q' := by simp [State.quire]
@[simp] theorem State.logEvent_session (s : State) (e : LogEvent) (k' : LinkId) : (s.logEvent e).session k' = s.session k' := by simp [State.session]
@[simp] theorem State.logEvent_link (s : State) (e : LogEvent) (k' : LinkId) : (s.logEvent e).link k' = s.link k' := by simp [State.link]
@[simp] theorem State.logEvent_lane (s : State) (e : LogEvent) (i' : LaneId) : (s.logEvent e).lane i' = s.lane i' := by simp [State.lane]
@[simp] theorem State.logEvent_reg (s : State) (e : LogEvent) (a : Nat) : (s.logEvent e).reg a = s.reg a := by simp [State.reg]
@[simp] theorem State.logEvent_collector_reports (s : State) (e : LogEvent) : (s.logEvent e).collector.reports = s.collector.reports := by obtain ⟨_, _, h⟩ := s.logEvent_shape e; rw [h]
@[simp] theorem State.logEvent_collector_faulted (s : State) (e : LogEvent) : (s.logEvent e).collector.faulted = s.collector.faulted := by obtain ⟨_, _, h⟩ := s.logEvent_shape e; rw [h]
@[simp] theorem State.logEvent_collector_faultCause (s : State) (e : LogEvent) : (s.logEvent e).collector.faultCause = s.collector.faultCause := by obtain ⟨_, _, h⟩ := s.logEvent_shape e; rw [h]
@[simp] theorem State.logEvent_collector_live (s : State) (e : LogEvent) : (s.logEvent e).collector.live = s.collector.live := by obtain ⟨_, _, h⟩ := s.logEvent_shape e; rw [h]; rfl
@[simp] theorem State.logEvent_collector_real (s : State) (e : LogEvent) : (s.logEvent e).collector.real = s.collector.real := by obtain ⟨_, _, h⟩ := s.logEvent_shape e; rw [h]
@[simp] theorem State.logEvent_collector_sticky (s : State) (e : LogEvent) : (s.logEvent e).collector.sticky = s.collector.sticky := by obtain ⟨_, _, h⟩ := s.logEvent_shape e; rw [h]
@[simp] theorem State.logEvent_collector_firstError (s : State) (e : LogEvent) : (s.logEvent e).collector.firstError = s.collector.firstError := by obtain ⟨_, _, h⟩ := s.logEvent_shape e; rw [h]
@[simp] theorem State.logEvent_collector_secondError (s : State) (e : LogEvent) : (s.logEvent e).collector.secondError = s.collector.secondError := by obtain ⟨_, _, h⟩ := s.logEvent_shape e; rw [h]
@[simp] theorem State.logEvent_collector_injections (s : State) (e : LogEvent) : (s.logEvent e).collector.injections = s.collector.injections := by obtain ⟨_, _, h⟩ := s.logEvent_shape e; rw [h]
@[simp] theorem State.logEvent_collector_hold (s : State) (e : LogEvent) : (s.logEvent e).collector.hold = s.collector.hold := by obtain ⟨_, _, h⟩ := s.logEvent_shape e; rw [h]
@[simp] theorem State.logEvent_collector_pulse (s : State) (e : LogEvent) : (s.logEvent e).collector.pulse = s.collector.pulse := by obtain ⟨_, _, h⟩ := s.logEvent_shape e; rw [h]

@[simp] theorem State.log'_pending (s : State) (code : Byte) (src : Nat) (d0 d1 d2 : Word) (i : Bool) : (s.log' code src d0 d1 d2 i).pending = s.pending := by simp [State.log']
@[simp] theorem State.log'_heldPackets (s : State) (code : Byte) (src : Nat) (d0 d1 d2 : Word) (i : Bool) : (s.log' code src d0 d1 d2 i).heldPackets = s.heldPackets := by simp [State.log']
@[simp] theorem State.log'_heldTimes (s : State) (code : Byte) (src : Nat) (d0 d1 d2 : Word) (i : Bool) : (s.log' code src d0 d1 d2 i).heldTimes = s.heldTimes := by simp [State.log']
@[simp] theorem State.log'_sent (s : State) (code : Byte) (src : Nat) (d0 d1 d2 : Word) (i : Bool) : (s.log' code src d0 d1 d2 i).sent = s.sent := by simp [State.log']
@[simp] theorem State.log'_maskWaits (s : State) (code : Byte) (src : Nat) (d0 d1 d2 : Word) (i : Bool) : (s.log' code src d0 d1 d2 i).maskWaits = s.maskWaits := by simp [State.log']
@[simp] theorem State.log'_heldReplies (s : State) (code : Byte) (src : Nat) (d0 d1 d2 : Word) (i : Bool) : (s.log' code src d0 d1 d2 i).heldReplies = s.heldReplies := by simp [State.log']
@[simp] theorem State.log'_fresh (s : State) (code : Byte) (src : Nat) (d0 d1 d2 : Word) (i : Bool) : (s.log' code src d0 d1 d2 i).fresh = s.fresh := by simp [State.log']
@[simp] theorem State.log'_modeOz (s : State) (code : Byte) (src : Nat) (d0 d1 d2 : Word) (i : Bool) : (s.log' code src d0 d1 d2 i).modeOz = s.modeOz := by simp [State.log']
@[simp] theorem State.log'_regs (s : State) (code : Byte) (src : Nat) (d0 d1 d2 : Word) (i : Bool) : (s.log' code src d0 d1 d2 i).regs = s.regs := by simp [State.log']
@[simp] theorem State.log'_quires (s : State) (code : Byte) (src : Nat) (d0 d1 d2 : Word) (i : Bool) : (s.log' code src d0 d1 d2 i).quires = s.quires := by simp [State.log']
@[simp] theorem State.log'_sessions (s : State) (code : Byte) (src : Nat) (d0 d1 d2 : Word) (i : Bool) : (s.log' code src d0 d1 d2 i).sessions = s.sessions := by simp [State.log']
@[simp] theorem State.log'_links (s : State) (code : Byte) (src : Nat) (d0 d1 d2 : Word) (i : Bool) : (s.log' code src d0 d1 d2 i).links = s.links := by simp [State.log']
@[simp] theorem State.log'_lanes (s : State) (code : Byte) (src : Nat) (d0 d1 d2 : Word) (i : Bool) : (s.log' code src d0 d1 d2 i).lanes = s.lanes := by simp [State.log']
@[simp] theorem State.log'_clock (s : State) (code : Byte) (src : Nat) (d0 d1 d2 : Word) (i : Bool) : (s.log' code src d0 d1 d2 i).clock = s.clock := by simp [State.log']
@[simp] theorem State.log'_time (s : State) (code : Byte) (src : Nat) (d0 d1 d2 : Word) (i : Bool) : (s.log' code src d0 d1 d2 i).time = s.time := by simp [State.log']
@[simp] theorem State.log'_gov (s : State) (code : Byte) (src : Nat) (d0 d1 d2 : Word) (i : Bool) : (s.log' code src d0 d1 d2 i).gov = s.gov := by simp [State.log']
@[simp] theorem State.log'_cal (s : State) (code : Byte) (src : Nat) (d0 d1 d2 : Word) (i : Bool) : (s.log' code src d0 d1 d2 i).cal = s.cal := by simp [State.log']
@[simp] theorem State.log'_spine (s : State) (code : Byte) (src : Nat) (d0 d1 d2 : Word) (i : Bool) : (s.log' code src d0 d1 d2 i).spine = s.spine := by simp [State.log']
@[simp] theorem State.log'_snaps (s : State) (code : Byte) (src : Nat) (d0 d1 d2 : Word) (i : Bool) : (s.log' code src d0 d1 d2 i).snaps = s.snaps := by simp [State.log']
@[simp] theorem State.log'_flash (s : State) (code : Byte) (src : Nat) (d0 d1 d2 : Word) (i : Bool) : (s.log' code src d0 d1 d2 i).flash = s.flash := by simp [State.log']
@[simp] theorem State.log'_boot (s : State) (code : Byte) (src : Nat) (d0 d1 d2 : Word) (i : Bool) : (s.log' code src d0 d1 d2 i).boot = s.boot := by simp [State.log']
@[simp] theorem State.log'_quire (s : State) (code : Byte) (src : Nat) (d0 d1 d2 : Word) (i : Bool) (q' : QId) : (s.log' code src d0 d1 d2 i).quire q' = s.quire q' := by simp [State.quire]
@[simp] theorem State.log'_session (s : State) (code : Byte) (src : Nat) (d0 d1 d2 : Word) (i : Bool) (k' : LinkId) : (s.log' code src d0 d1 d2 i).session k' = s.session k' := by simp [State.session]
@[simp] theorem State.log'_link (s : State) (code : Byte) (src : Nat) (d0 d1 d2 : Word) (i : Bool) (k' : LinkId) : (s.log' code src d0 d1 d2 i).link k' = s.link k' := by simp [State.link]
@[simp] theorem State.log'_lane (s : State) (code : Byte) (src : Nat) (d0 d1 d2 : Word) (i : Bool) (i' : LaneId) : (s.log' code src d0 d1 d2 i).lane i' = s.lane i' := by simp [State.lane]
@[simp] theorem State.log'_reg (s : State) (code : Byte) (src : Nat) (d0 d1 d2 : Word) (i : Bool) (a : Nat) : (s.log' code src d0 d1 d2 i).reg a = s.reg a := by simp [State.reg]
@[simp] theorem State.log'_collector_reports (s : State) (code : Byte) (src : Nat) (d0 d1 d2 : Word) (i : Bool) : (s.log' code src d0 d1 d2 i).collector.reports = s.collector.reports := by simp [State.log']
@[simp] theorem State.log'_collector_faulted (s : State) (code : Byte) (src : Nat) (d0 d1 d2 : Word) (i : Bool) : (s.log' code src d0 d1 d2 i).collector.faulted = s.collector.faulted := by simp [State.log']
@[simp] theorem State.log'_collector_faultCause (s : State) (code : Byte) (src : Nat) (d0 d1 d2 : Word) (i : Bool) : (s.log' code src d0 d1 d2 i).collector.faultCause = s.collector.faultCause := by simp [State.log']
@[simp] theorem State.log'_collector_live (s : State) (code : Byte) (src : Nat) (d0 d1 d2 : Word) (i : Bool) : (s.log' code src d0 d1 d2 i).collector.live = s.collector.live := by simp [State.log']
@[simp] theorem State.log'_collector_real (s : State) (code : Byte) (src : Nat) (d0 d1 d2 : Word) (i : Bool) : (s.log' code src d0 d1 d2 i).collector.real = s.collector.real := by simp [State.log']
@[simp] theorem State.log'_collector_sticky (s : State) (code : Byte) (src : Nat) (d0 d1 d2 : Word) (i : Bool) : (s.log' code src d0 d1 d2 i).collector.sticky = s.collector.sticky := by simp [State.log']
@[simp] theorem State.log'_collector_firstError (s : State) (code : Byte) (src : Nat) (d0 d1 d2 : Word) (i : Bool) : (s.log' code src d0 d1 d2 i).collector.firstError = s.collector.firstError := by simp [State.log']
@[simp] theorem State.log'_collector_secondError (s : State) (code : Byte) (src : Nat) (d0 d1 d2 : Word) (i : Bool) : (s.log' code src d0 d1 d2 i).collector.secondError = s.collector.secondError := by simp [State.log']
@[simp] theorem State.log'_collector_injections (s : State) (code : Byte) (src : Nat) (d0 d1 d2 : Word) (i : Bool) : (s.log' code src d0 d1 d2 i).collector.injections = s.collector.injections := by simp [State.log']
@[simp] theorem State.log'_collector_hold (s : State) (code : Byte) (src : Nat) (d0 d1 d2 : Word) (i : Bool) : (s.log' code src d0 d1 d2 i).collector.hold = s.collector.hold := by simp [State.log']
@[simp] theorem State.log'_collector_pulse (s : State) (code : Byte) (src : Nat) (d0 d1 d2 : Word) (i : Bool) : (s.log' code src d0 d1 d2 i).collector.pulse = s.collector.pulse := by simp [State.log']

/-! ### `bump`, `bump64` -/

/-- A counter steps by `n` and stays at all-ones (R776); at the step that makes it all-ones COUNTER_SATURATED is offered. -/
theorem State.bump_shape (s : State) (k n : Nat) :
    ∃ l c, s.bump k n = { s with regs := sput chipReset k (BitVec.ofNat 32 (satAdd 32 (s.reg k).toNat n).1) s.regs, log := l, collector := { s.collector with satPages := c } } := by
  unfold State.bump
  extract_lets r t
  split
  · obtain ⟨l, c, h⟩ := ({ t with collector := { t.collector with satPages := setBit t.collector.satPages (k / 2 ^ 20) } } : State).logEvent_shape (satEvent k)
    exact ⟨l, c, h.trans rfl⟩
  · exact ⟨s.log, s.collector.satPages, rfl⟩

theorem State.bump64_shape (s : State) (k n : Nat) :
    ∃ g l c, s.bump64 k n = { s with regs := g, log := l, collector := { s.collector with satPages := c } } := by
  unfold State.bump64
  extract_lets r t
  clear_value r
  split
  · obtain ⟨l, c, h⟩ := ({ t with collector := { t.collector with satPages := setBit t.collector.satPages (k / 2 ^ 20) } } : State).logEvent_shape (satEvent k)
    exact ⟨t.regs, l, c, h⟩
  · exact ⟨t.regs, s.log, s.collector.satPages, rfl⟩


@[simp] theorem State.bump_pending (s : State) (k n : Nat) : (s.bump k n).pending = s.pending := by obtain ⟨_, _, h⟩ := s.bump_shape k n; rw [h]
@[simp] theorem State.bump_heldPackets (s : State) (k n : Nat) : (s.bump k n).heldPackets = s.heldPackets := by obtain ⟨_, _, h⟩ := s.bump_shape k n; rw [h]
@[simp] theorem State.bump_heldTimes (s : State) (k n : Nat) : (s.bump k n).heldTimes = s.heldTimes := by obtain ⟨_, _, h⟩ := s.bump_shape k n; rw [h]
@[simp] theorem State.bump_sent (s : State) (k n : Nat) : (s.bump k n).sent = s.sent := by obtain ⟨_, _, h⟩ := s.bump_shape k n; rw [h]
@[simp] theorem State.bump_maskWaits (s : State) (k n : Nat) : (s.bump k n).maskWaits = s.maskWaits := by obtain ⟨_, _, h⟩ := s.bump_shape k n; rw [h]
@[simp] theorem State.bump_heldReplies (s : State) (k n : Nat) : (s.bump k n).heldReplies = s.heldReplies := by obtain ⟨_, _, h⟩ := s.bump_shape k n; rw [h]
@[simp] theorem State.bump_fresh (s : State) (k n : Nat) : (s.bump k n).fresh = s.fresh := by obtain ⟨_, _, h⟩ := s.bump_shape k n; rw [h]
@[simp] theorem State.bump_modeOz (s : State) (k n : Nat) : (s.bump k n).modeOz = s.modeOz := by obtain ⟨_, _, h⟩ := s.bump_shape k n; rw [h]
@[simp] theorem State.bump_quires (s : State) (k n : Nat) : (s.bump k n).quires = s.quires := by obtain ⟨_, _, h⟩ := s.bump_shape k n; rw [h]
@[simp] theorem State.bump_sessions (s : State) (k n : Nat) : (s.bump k n).sessions = s.sessions := by obtain ⟨_, _, h⟩ := s.bump_shape k n; rw [h]
@[simp] theorem State.bump_links (s : State) (k n : Nat) : (s.bump k n).links = s.links := by obtain ⟨_, _, h⟩ := s.bump_shape k n; rw [h]
@[simp] theorem State.bump_lanes (s : State) (k n : Nat) : (s.bump k n).lanes = s.lanes := by obtain ⟨_, _, h⟩ := s.bump_shape k n; rw [h]
@[simp] theorem State.bump_clock (s : State) (k n : Nat) : (s.bump k n).clock = s.clock := by obtain ⟨_, _, h⟩ := s.bump_shape k n; rw [h]
@[simp] theorem State.bump_time (s : State) (k n : Nat) : (s.bump k n).time = s.time := by obtain ⟨_, _, h⟩ := s.bump_shape k n; rw [h]
@[simp] theorem State.bump_gov (s : State) (k n : Nat) : (s.bump k n).gov = s.gov := by obtain ⟨_, _, h⟩ := s.bump_shape k n; rw [h]
@[simp] theorem State.bump_cal (s : State) (k n : Nat) : (s.bump k n).cal = s.cal := by obtain ⟨_, _, h⟩ := s.bump_shape k n; rw [h]
@[simp] theorem State.bump_spine (s : State) (k n : Nat) : (s.bump k n).spine = s.spine := by obtain ⟨_, _, h⟩ := s.bump_shape k n; rw [h]
@[simp] theorem State.bump_snaps (s : State) (k n : Nat) : (s.bump k n).snaps = s.snaps := by obtain ⟨_, _, h⟩ := s.bump_shape k n; rw [h]
@[simp] theorem State.bump_flash (s : State) (k n : Nat) : (s.bump k n).flash = s.flash := by obtain ⟨_, _, h⟩ := s.bump_shape k n; rw [h]
@[simp] theorem State.bump_boot (s : State) (k n : Nat) : (s.bump k n).boot = s.boot := by obtain ⟨_, _, h⟩ := s.bump_shape k n; rw [h]
@[simp] theorem State.bump_quire (s : State) (k n : Nat) (q' : QId) : (s.bump k n).quire q' = s.quire q' := by simp [State.quire]
@[simp] theorem State.bump_session (s : State) (k n : Nat) (k' : LinkId) : (s.bump k n).session k' = s.session k' := by simp [State.session]
@[simp] theorem State.bump_link (s : State) (k n : Nat) (k' : LinkId) : (s.bump k n).link k' = s.link k' := by simp [State.link]
@[simp] theorem State.bump_lane (s : State) (k n : Nat) (i' : LaneId) : (s.bump k n).lane i' = s.lane i' := by simp [State.lane]
@[simp] theorem State.bump_collector_reports (s : State) (k n : Nat) : (s.bump k n).collector.reports = s.collector.reports := by obtain ⟨_, _, h⟩ := s.bump_shape k n; rw [h]
@[simp] theorem State.bump_collector_faulted (s : State) (k n : Nat) : (s.bump k n).collector.faulted = s.collector.faulted := by obtain ⟨_, _, h⟩ := s.bump_shape k n; rw [h]
@[simp] theorem State.bump_collector_faultCause (s : State) (k n : Nat) : (s.bump k n).collector.faultCause = s.collector.faultCause := by obtain ⟨_, _, h⟩ := s.bump_shape k n; rw [h]
@[simp] theorem State.bump_collector_live (s : State) (k n : Nat) : (s.bump k n).collector.live = s.collector.live := by obtain ⟨_, _, h⟩ := s.bump_shape k n; rw [h]; rfl
@[simp] theorem State.bump_collector_real (s : State) (k n : Nat) : (s.bump k n).collector.real = s.collector.real := by obtain ⟨_, _, h⟩ := s.bump_shape k n; rw [h]
@[simp] theorem State.bump_collector_sticky (s : State) (k n : Nat) : (s.bump k n).collector.sticky = s.collector.sticky := by obtain ⟨_, _, h⟩ := s.bump_shape k n; rw [h]
@[simp] theorem State.bump_collector_firstError (s : State) (k n : Nat) : (s.bump k n).collector.firstError = s.collector.firstError := by obtain ⟨_, _, h⟩ := s.bump_shape k n; rw [h]
@[simp] theorem State.bump_collector_secondError (s : State) (k n : Nat) : (s.bump k n).collector.secondError = s.collector.secondError := by obtain ⟨_, _, h⟩ := s.bump_shape k n; rw [h]
@[simp] theorem State.bump_collector_injections (s : State) (k n : Nat) : (s.bump k n).collector.injections = s.collector.injections := by obtain ⟨_, _, h⟩ := s.bump_shape k n; rw [h]
@[simp] theorem State.bump_collector_hold (s : State) (k n : Nat) : (s.bump k n).collector.hold = s.collector.hold := by obtain ⟨_, _, h⟩ := s.bump_shape k n; rw [h]
@[simp] theorem State.bump_collector_pulse (s : State) (k n : Nat) : (s.bump k n).collector.pulse = s.collector.pulse := by obtain ⟨_, _, h⟩ := s.bump_shape k n; rw [h]
@[simp] theorem State.bump64_pending (s : State) (k n : Nat) : (s.bump64 k n).pending = s.pending := by obtain ⟨_, _, _, h⟩ := s.bump64_shape k n; rw [h]
@[simp] theorem State.bump64_heldPackets (s : State) (k n : Nat) : (s.bump64 k n).heldPackets = s.heldPackets := by obtain ⟨_, _, _, h⟩ := s.bump64_shape k n; rw [h]
@[simp] theorem State.bump64_heldTimes (s : State) (k n : Nat) : (s.bump64 k n).heldTimes = s.heldTimes := by obtain ⟨_, _, _, h⟩ := s.bump64_shape k n; rw [h]
@[simp] theorem State.bump64_sent (s : State) (k n : Nat) : (s.bump64 k n).sent = s.sent := by obtain ⟨_, _, _, h⟩ := s.bump64_shape k n; rw [h]
@[simp] theorem State.bump64_maskWaits (s : State) (k n : Nat) : (s.bump64 k n).maskWaits = s.maskWaits := by obtain ⟨_, _, _, h⟩ := s.bump64_shape k n; rw [h]
@[simp] theorem State.bump64_heldReplies (s : State) (k n : Nat) : (s.bump64 k n).heldReplies = s.heldReplies := by obtain ⟨_, _, _, h⟩ := s.bump64_shape k n; rw [h]
@[simp] theorem State.bump64_fresh (s : State) (k n : Nat) : (s.bump64 k n).fresh = s.fresh := by obtain ⟨_, _, _, h⟩ := s.bump64_shape k n; rw [h]
@[simp] theorem State.bump64_modeOz (s : State) (k n : Nat) : (s.bump64 k n).modeOz = s.modeOz := by obtain ⟨_, _, _, h⟩ := s.bump64_shape k n; rw [h]
@[simp] theorem State.bump64_quires (s : State) (k n : Nat) : (s.bump64 k n).quires = s.quires := by obtain ⟨_, _, _, h⟩ := s.bump64_shape k n; rw [h]
@[simp] theorem State.bump64_sessions (s : State) (k n : Nat) : (s.bump64 k n).sessions = s.sessions := by obtain ⟨_, _, _, h⟩ := s.bump64_shape k n; rw [h]
@[simp] theorem State.bump64_links (s : State) (k n : Nat) : (s.bump64 k n).links = s.links := by obtain ⟨_, _, _, h⟩ := s.bump64_shape k n; rw [h]
@[simp] theorem State.bump64_lanes (s : State) (k n : Nat) : (s.bump64 k n).lanes = s.lanes := by obtain ⟨_, _, _, h⟩ := s.bump64_shape k n; rw [h]
@[simp] theorem State.bump64_clock (s : State) (k n : Nat) : (s.bump64 k n).clock = s.clock := by obtain ⟨_, _, _, h⟩ := s.bump64_shape k n; rw [h]
@[simp] theorem State.bump64_time (s : State) (k n : Nat) : (s.bump64 k n).time = s.time := by obtain ⟨_, _, _, h⟩ := s.bump64_shape k n; rw [h]
@[simp] theorem State.bump64_gov (s : State) (k n : Nat) : (s.bump64 k n).gov = s.gov := by obtain ⟨_, _, _, h⟩ := s.bump64_shape k n; rw [h]
@[simp] theorem State.bump64_cal (s : State) (k n : Nat) : (s.bump64 k n).cal = s.cal := by obtain ⟨_, _, _, h⟩ := s.bump64_shape k n; rw [h]
@[simp] theorem State.bump64_spine (s : State) (k n : Nat) : (s.bump64 k n).spine = s.spine := by obtain ⟨_, _, _, h⟩ := s.bump64_shape k n; rw [h]
@[simp] theorem State.bump64_snaps (s : State) (k n : Nat) : (s.bump64 k n).snaps = s.snaps := by obtain ⟨_, _, _, h⟩ := s.bump64_shape k n; rw [h]
@[simp] theorem State.bump64_flash (s : State) (k n : Nat) : (s.bump64 k n).flash = s.flash := by obtain ⟨_, _, _, h⟩ := s.bump64_shape k n; rw [h]
@[simp] theorem State.bump64_boot (s : State) (k n : Nat) : (s.bump64 k n).boot = s.boot := by obtain ⟨_, _, _, h⟩ := s.bump64_shape k n; rw [h]
@[simp] theorem State.bump64_quire (s : State) (k n : Nat) (q' : QId) : (s.bump64 k n).quire q' = s.quire q' := by simp [State.quire]
@[simp] theorem State.bump64_session (s : State) (k n : Nat) (k' : LinkId) : (s.bump64 k n).session k' = s.session k' := by simp [State.session]
@[simp] theorem State.bump64_link (s : State) (k n : Nat) (k' : LinkId) : (s.bump64 k n).link k' = s.link k' := by simp [State.link]
@[simp] theorem State.bump64_lane (s : State) (k n : Nat) (i' : LaneId) : (s.bump64 k n).lane i' = s.lane i' := by simp [State.lane]
@[simp] theorem State.bump64_collector_reports (s : State) (k n : Nat) : (s.bump64 k n).collector.reports = s.collector.reports := by obtain ⟨_, _, _, h⟩ := s.bump64_shape k n; rw [h]
@[simp] theorem State.bump64_collector_faulted (s : State) (k n : Nat) : (s.bump64 k n).collector.faulted = s.collector.faulted := by obtain ⟨_, _, _, h⟩ := s.bump64_shape k n; rw [h]
@[simp] theorem State.bump64_collector_faultCause (s : State) (k n : Nat) : (s.bump64 k n).collector.faultCause = s.collector.faultCause := by obtain ⟨_, _, _, h⟩ := s.bump64_shape k n; rw [h]
@[simp] theorem State.bump64_collector_live (s : State) (k n : Nat) : (s.bump64 k n).collector.live = s.collector.live := by obtain ⟨_, _, _, h⟩ := s.bump64_shape k n; rw [h]; rfl
@[simp] theorem State.bump64_collector_real (s : State) (k n : Nat) : (s.bump64 k n).collector.real = s.collector.real := by obtain ⟨_, _, _, h⟩ := s.bump64_shape k n; rw [h]
@[simp] theorem State.bump64_collector_sticky (s : State) (k n : Nat) : (s.bump64 k n).collector.sticky = s.collector.sticky := by obtain ⟨_, _, _, h⟩ := s.bump64_shape k n; rw [h]
@[simp] theorem State.bump64_collector_firstError (s : State) (k n : Nat) : (s.bump64 k n).collector.firstError = s.collector.firstError := by obtain ⟨_, _, _, h⟩ := s.bump64_shape k n; rw [h]
@[simp] theorem State.bump64_collector_secondError (s : State) (k n : Nat) : (s.bump64 k n).collector.secondError = s.collector.secondError := by obtain ⟨_, _, _, h⟩ := s.bump64_shape k n; rw [h]
@[simp] theorem State.bump64_collector_injections (s : State) (k n : Nat) : (s.bump64 k n).collector.injections = s.collector.injections := by obtain ⟨_, _, _, h⟩ := s.bump64_shape k n; rw [h]
@[simp] theorem State.bump64_collector_hold (s : State) (k n : Nat) : (s.bump64 k n).collector.hold = s.collector.hold := by obtain ⟨_, _, _, h⟩ := s.bump64_shape k n; rw [h]
@[simp] theorem State.bump64_collector_pulse (s : State) (k n : Nat) : (s.bump64 k n).collector.pulse = s.collector.pulse := by obtain ⟨_, _, _, h⟩ := s.bump64_shape k n; rw [h]

theorem State.bump_regs (s : State) (k n : Nat) :
    (s.bump k n).regs = sput chipReset k (BitVec.ofNat 32 (satAdd 32 (s.reg k).toNat n).1) s.regs := by
  obtain ⟨_, _, h⟩ := s.bump_shape k n; rw [h]

/-! ### Replies -/

@[simp] theorem State.wire_pending (s : State) (r : Reply) : (s.wire r).pending = s.pending := by unfold State.wire; dsimp only; split <;> split <;> simp
@[simp] theorem State.wire_heldPackets (s : State) (r : Reply) : (s.wire r).heldPackets = s.heldPackets := by unfold State.wire; dsimp only; split <;> split <;> simp
@[simp] theorem State.wire_heldTimes (s : State) (r : Reply) : (s.wire r).heldTimes = s.heldTimes := by unfold State.wire; dsimp only; split <;> split <;> simp
@[simp] theorem State.wire_maskWaits (s : State) (r : Reply) : (s.wire r).maskWaits = s.maskWaits := by unfold State.wire; dsimp only; split <;> split <;> simp
@[simp] theorem State.wire_heldReplies (s : State) (r : Reply) : (s.wire r).heldReplies = s.heldReplies := by unfold State.wire; dsimp only; split <;> split <;> simp
@[simp] theorem State.wire_fresh (s : State) (r : Reply) : (s.wire r).fresh = s.fresh := by unfold State.wire; dsimp only; split <;> split <;> simp
@[simp] theorem State.wire_modeOz (s : State) (r : Reply) : (s.wire r).modeOz = s.modeOz := by unfold State.wire; dsimp only; split <;> split <;> simp
@[simp] theorem State.wire_quires (s : State) (r : Reply) : (s.wire r).quires = s.quires := by unfold State.wire; dsimp only; split <;> split <;> simp
@[simp] theorem State.wire_sessions (s : State) (r : Reply) : (s.wire r).sessions = s.sessions := by unfold State.wire; dsimp only; split <;> split <;> simp
@[simp] theorem State.wire_lanes (s : State) (r : Reply) : (s.wire r).lanes = s.lanes := by unfold State.wire; dsimp only; split <;> split <;> simp
@[simp] theorem State.wire_clock (s : State) (r : Reply) : (s.wire r).clock = s.clock := by unfold State.wire; dsimp only; split <;> split <;> simp
@[simp] theorem State.wire_time (s : State) (r : Reply) : (s.wire r).time = s.time := by unfold State.wire; dsimp only; split <;> split <;> simp
@[simp] theorem State.wire_gov (s : State) (r : Reply) : (s.wire r).gov = s.gov := by unfold State.wire; dsimp only; split <;> split <;> simp
@[simp] theorem State.wire_cal (s : State) (r : Reply) : (s.wire r).cal = s.cal := by unfold State.wire; dsimp only; split <;> split <;> simp
@[simp] theorem State.wire_spine (s : State) (r : Reply) : (s.wire r).spine = s.spine := by unfold State.wire; dsimp only; split <;> split <;> simp
@[simp] theorem State.wire_snaps (s : State) (r : Reply) : (s.wire r).snaps = s.snaps := by unfold State.wire; dsimp only; split <;> split <;> simp
@[simp] theorem State.wire_flash (s : State) (r : Reply) : (s.wire r).flash = s.flash := by unfold State.wire; dsimp only; split <;> split <;> simp
@[simp] theorem State.wire_boot (s : State) (r : Reply) : (s.wire r).boot = s.boot := by unfold State.wire; dsimp only; split <;> split <;> simp
@[simp] theorem State.wire_quire (s : State) (r : Reply) (q' : QId) : (s.wire r).quire q' = s.quire q' := by simp [State.quire]
@[simp] theorem State.wire_session (s : State) (r : Reply) (k' : LinkId) : (s.wire r).session k' = s.session k' := by simp [State.session]
@[simp] theorem State.wire_lane (s : State) (r : Reply) (i' : LaneId) : (s.wire r).lane i' = s.lane i' := by simp [State.lane]
@[simp] theorem State.wire_collector_reports (s : State) (r : Reply) : (s.wire r).collector.reports = s.collector.reports := by unfold State.wire; dsimp only; split <;> split <;> simp
@[simp] theorem State.wire_collector_faulted (s : State) (r : Reply) : (s.wire r).collector.faulted = s.collector.faulted := by unfold State.wire; dsimp only; split <;> split <;> simp
@[simp] theorem State.wire_collector_faultCause (s : State) (r : Reply) : (s.wire r).collector.faultCause = s.collector.faultCause := by unfold State.wire; dsimp only; split <;> split <;> simp
@[simp] theorem State.wire_collector_live (s : State) (r : Reply) : (s.wire r).collector.live = s.collector.live := by unfold State.wire; dsimp only; split <;> split <;> simp
@[simp] theorem State.wire_collector_real (s : State) (r : Reply) : (s.wire r).collector.real = s.collector.real := by unfold State.wire; dsimp only; split <;> split <;> simp
@[simp] theorem State.wire_collector_sticky (s : State) (r : Reply) : (s.wire r).collector.sticky = s.collector.sticky := by unfold State.wire; dsimp only; split <;> split <;> simp
@[simp] theorem State.wire_collector_firstError (s : State) (r : Reply) : (s.wire r).collector.firstError = s.collector.firstError := by unfold State.wire; dsimp only; split <;> split <;> simp
@[simp] theorem State.wire_collector_secondError (s : State) (r : Reply) : (s.wire r).collector.secondError = s.collector.secondError := by unfold State.wire; dsimp only; split <;> split <;> simp
@[simp] theorem State.wire_collector_injections (s : State) (r : Reply) : (s.wire r).collector.injections = s.collector.injections := by unfold State.wire; dsimp only; split <;> split <;> simp
@[simp] theorem State.wire_collector_hold (s : State) (r : Reply) : (s.wire r).collector.hold = s.collector.hold := by unfold State.wire; dsimp only; split <;> split <;> simp
@[simp] theorem State.wire_collector_pulse (s : State) (r : Reply) : (s.wire r).collector.pulse = s.collector.pulse := by unfold State.wire; dsimp only; split <;> split <;> simp
@[simp] theorem State.sendReply_pending (s : State) (r : Reply) : (s.sendReply r).pending = s.pending := by simp [State.sendReply]
@[simp] theorem State.sendReply_heldPackets (s : State) (r : Reply) : (s.sendReply r).heldPackets = s.heldPackets := by simp [State.sendReply]
@[simp] theorem State.sendReply_heldTimes (s : State) (r : Reply) : (s.sendReply r).heldTimes = s.heldTimes := by simp [State.sendReply]
@[simp] theorem State.sendReply_maskWaits (s : State) (r : Reply) : (s.sendReply r).maskWaits = s.maskWaits := by simp [State.sendReply]
@[simp] theorem State.sendReply_heldReplies (s : State) (r : Reply) : (s.sendReply r).heldReplies = s.heldReplies := by simp [State.sendReply]
@[simp] theorem State.sendReply_fresh (s : State) (r : Reply) : (s.sendReply r).fresh = s.fresh := by simp [State.sendReply]
@[simp] theorem State.sendReply_modeOz (s : State) (r : Reply) : (s.sendReply r).modeOz = s.modeOz := by simp [State.sendReply]
@[simp] theorem State.sendReply_quires (s : State) (r : Reply) : (s.sendReply r).quires = s.quires := by simp [State.sendReply]
@[simp] theorem State.sendReply_lanes (s : State) (r : Reply) : (s.sendReply r).lanes = s.lanes := by simp [State.sendReply]
@[simp] theorem State.sendReply_clock (s : State) (r : Reply) : (s.sendReply r).clock = s.clock := by simp [State.sendReply]
@[simp] theorem State.sendReply_time (s : State) (r : Reply) : (s.sendReply r).time = s.time := by simp [State.sendReply]
@[simp] theorem State.sendReply_gov (s : State) (r : Reply) : (s.sendReply r).gov = s.gov := by simp [State.sendReply]
@[simp] theorem State.sendReply_cal (s : State) (r : Reply) : (s.sendReply r).cal = s.cal := by simp [State.sendReply]
@[simp] theorem State.sendReply_spine (s : State) (r : Reply) : (s.sendReply r).spine = s.spine := by simp [State.sendReply]
@[simp] theorem State.sendReply_snaps (s : State) (r : Reply) : (s.sendReply r).snaps = s.snaps := by simp [State.sendReply]
@[simp] theorem State.sendReply_flash (s : State) (r : Reply) : (s.sendReply r).flash = s.flash := by simp [State.sendReply]
@[simp] theorem State.sendReply_boot (s : State) (r : Reply) : (s.sendReply r).boot = s.boot := by simp [State.sendReply]
@[simp] theorem State.sendReply_quire (s : State) (r : Reply) (q' : QId) : (s.sendReply r).quire q' = s.quire q' := by simp [State.quire]
@[simp] theorem State.sendReply_lane (s : State) (r : Reply) (i' : LaneId) : (s.sendReply r).lane i' = s.lane i' := by simp [State.lane]
@[simp] theorem State.sendReply_collector_reports (s : State) (r : Reply) : (s.sendReply r).collector.reports = s.collector.reports := by simp [State.sendReply]
@[simp] theorem State.sendReply_collector_faulted (s : State) (r : Reply) : (s.sendReply r).collector.faulted = s.collector.faulted := by simp [State.sendReply]
@[simp] theorem State.sendReply_collector_faultCause (s : State) (r : Reply) : (s.sendReply r).collector.faultCause = s.collector.faultCause := by simp [State.sendReply]
@[simp] theorem State.sendReply_collector_live (s : State) (r : Reply) : (s.sendReply r).collector.live = s.collector.live := by simp [State.sendReply]
@[simp] theorem State.sendReply_collector_real (s : State) (r : Reply) : (s.sendReply r).collector.real = s.collector.real := by simp [State.sendReply]
@[simp] theorem State.sendReply_collector_sticky (s : State) (r : Reply) : (s.sendReply r).collector.sticky = s.collector.sticky := by simp [State.sendReply]
@[simp] theorem State.sendReply_collector_firstError (s : State) (r : Reply) : (s.sendReply r).collector.firstError = s.collector.firstError := by simp [State.sendReply]
@[simp] theorem State.sendReply_collector_secondError (s : State) (r : Reply) : (s.sendReply r).collector.secondError = s.collector.secondError := by simp [State.sendReply]
@[simp] theorem State.sendReply_collector_injections (s : State) (r : Reply) : (s.sendReply r).collector.injections = s.collector.injections := by simp [State.sendReply]
@[simp] theorem State.sendReply_collector_hold (s : State) (r : Reply) : (s.sendReply r).collector.hold = s.collector.hold := by simp [State.sendReply]
@[simp] theorem State.sendReply_collector_pulse (s : State) (r : Reply) : (s.sendReply r).collector.pulse = s.collector.pulse := by simp [State.sendReply]
@[simp] theorem State.answer_pending (s : State) (r : Reply) : (s.answer r).pending = s.pending := by unfold State.answer; split <;> simp
@[simp] theorem State.answer_heldPackets (s : State) (r : Reply) : (s.answer r).heldPackets = s.heldPackets := by unfold State.answer; split <;> simp
@[simp] theorem State.answer_heldTimes (s : State) (r : Reply) : (s.answer r).heldTimes = s.heldTimes := by unfold State.answer; split <;> simp
@[simp] theorem State.answer_maskWaits (s : State) (r : Reply) : (s.answer r).maskWaits = s.maskWaits := by unfold State.answer; split <;> simp
@[simp] theorem State.answer_fresh (s : State) (r : Reply) : (s.answer r).fresh = s.fresh := by unfold State.answer; split <;> simp
@[simp] theorem State.answer_modeOz (s : State) (r : Reply) : (s.answer r).modeOz = s.modeOz := by unfold State.answer; split <;> simp
@[simp] theorem State.answer_quires (s : State) (r : Reply) : (s.answer r).quires = s.quires := by unfold State.answer; split <;> simp
@[simp] theorem State.answer_lanes (s : State) (r : Reply) : (s.answer r).lanes = s.lanes := by unfold State.answer; split <;> simp
@[simp] theorem State.answer_clock (s : State) (r : Reply) : (s.answer r).clock = s.clock := by unfold State.answer; split <;> simp
@[simp] theorem State.answer_time (s : State) (r : Reply) : (s.answer r).time = s.time := by unfold State.answer; split <;> simp
@[simp] theorem State.answer_gov (s : State) (r : Reply) : (s.answer r).gov = s.gov := by unfold State.answer; split <;> simp
@[simp] theorem State.answer_cal (s : State) (r : Reply) : (s.answer r).cal = s.cal := by unfold State.answer; split <;> simp
@[simp] theorem State.answer_spine (s : State) (r : Reply) : (s.answer r).spine = s.spine := by unfold State.answer; split <;> simp
@[simp] theorem State.answer_snaps (s : State) (r : Reply) : (s.answer r).snaps = s.snaps := by unfold State.answer; split <;> simp
@[simp] theorem State.answer_flash (s : State) (r : Reply) : (s.answer r).flash = s.flash := by unfold State.answer; split <;> simp
@[simp] theorem State.answer_boot (s : State) (r : Reply) : (s.answer r).boot = s.boot := by unfold State.answer; split <;> simp
@[simp] theorem State.answer_quire (s : State) (r : Reply) (q' : QId) : (s.answer r).quire q' = s.quire q' := by simp [State.quire]
@[simp] theorem State.answer_lane (s : State) (r : Reply) (i' : LaneId) : (s.answer r).lane i' = s.lane i' := by simp [State.lane]
@[simp] theorem State.answer_collector_reports (s : State) (r : Reply) : (s.answer r).collector.reports = s.collector.reports := by unfold State.answer; split <;> simp
@[simp] theorem State.answer_collector_faulted (s : State) (r : Reply) : (s.answer r).collector.faulted = s.collector.faulted := by unfold State.answer; split <;> simp
@[simp] theorem State.answer_collector_faultCause (s : State) (r : Reply) : (s.answer r).collector.faultCause = s.collector.faultCause := by unfold State.answer; split <;> simp
@[simp] theorem State.answer_collector_live (s : State) (r : Reply) : (s.answer r).collector.live = s.collector.live := by unfold State.answer; split <;> simp
@[simp] theorem State.answer_collector_real (s : State) (r : Reply) : (s.answer r).collector.real = s.collector.real := by unfold State.answer; split <;> simp
@[simp] theorem State.answer_collector_sticky (s : State) (r : Reply) : (s.answer r).collector.sticky = s.collector.sticky := by unfold State.answer; split <;> simp
@[simp] theorem State.answer_collector_firstError (s : State) (r : Reply) : (s.answer r).collector.firstError = s.collector.firstError := by unfold State.answer; split <;> simp
@[simp] theorem State.answer_collector_secondError (s : State) (r : Reply) : (s.answer r).collector.secondError = s.collector.secondError := by unfold State.answer; split <;> simp
@[simp] theorem State.answer_collector_injections (s : State) (r : Reply) : (s.answer r).collector.injections = s.collector.injections := by unfold State.answer; split <;> simp
@[simp] theorem State.answer_collector_hold (s : State) (r : Reply) : (s.answer r).collector.hold = s.collector.hold := by unfold State.answer; split <;> simp
@[simp] theorem State.answer_collector_pulse (s : State) (r : Reply) : (s.answer r).collector.pulse = s.collector.pulse := by unfold State.answer; split <;> simp
@[simp] theorem State.reply_pending (s : State) (d : ReplyTo) (st : Byte) (dt : BitVec 16) (res : List Byte) : (s.reply d st dt res).pending = s.pending := by unfold State.reply; split <;> simp
@[simp] theorem State.reply_heldPackets (s : State) (d : ReplyTo) (st : Byte) (dt : BitVec 16) (res : List Byte) : (s.reply d st dt res).heldPackets = s.heldPackets := by unfold State.reply; split <;> simp
@[simp] theorem State.reply_heldTimes (s : State) (d : ReplyTo) (st : Byte) (dt : BitVec 16) (res : List Byte) : (s.reply d st dt res).heldTimes = s.heldTimes := by unfold State.reply; split <;> simp
@[simp] theorem State.reply_maskWaits (s : State) (d : ReplyTo) (st : Byte) (dt : BitVec 16) (res : List Byte) : (s.reply d st dt res).maskWaits = s.maskWaits := by unfold State.reply; split <;> simp
@[simp] theorem State.reply_fresh (s : State) (d : ReplyTo) (st : Byte) (dt : BitVec 16) (res : List Byte) : (s.reply d st dt res).fresh = s.fresh := by unfold State.reply; split <;> simp
@[simp] theorem State.reply_modeOz (s : State) (d : ReplyTo) (st : Byte) (dt : BitVec 16) (res : List Byte) : (s.reply d st dt res).modeOz = s.modeOz := by unfold State.reply; split <;> simp
@[simp] theorem State.reply_quires (s : State) (d : ReplyTo) (st : Byte) (dt : BitVec 16) (res : List Byte) : (s.reply d st dt res).quires = s.quires := by unfold State.reply; split <;> simp
@[simp] theorem State.reply_lanes (s : State) (d : ReplyTo) (st : Byte) (dt : BitVec 16) (res : List Byte) : (s.reply d st dt res).lanes = s.lanes := by unfold State.reply; split <;> simp
@[simp] theorem State.reply_clock (s : State) (d : ReplyTo) (st : Byte) (dt : BitVec 16) (res : List Byte) : (s.reply d st dt res).clock = s.clock := by unfold State.reply; split <;> simp
@[simp] theorem State.reply_time (s : State) (d : ReplyTo) (st : Byte) (dt : BitVec 16) (res : List Byte) : (s.reply d st dt res).time = s.time := by unfold State.reply; split <;> simp
@[simp] theorem State.reply_gov (s : State) (d : ReplyTo) (st : Byte) (dt : BitVec 16) (res : List Byte) : (s.reply d st dt res).gov = s.gov := by unfold State.reply; split <;> simp
@[simp] theorem State.reply_cal (s : State) (d : ReplyTo) (st : Byte) (dt : BitVec 16) (res : List Byte) : (s.reply d st dt res).cal = s.cal := by unfold State.reply; split <;> simp
@[simp] theorem State.reply_spine (s : State) (d : ReplyTo) (st : Byte) (dt : BitVec 16) (res : List Byte) : (s.reply d st dt res).spine = s.spine := by unfold State.reply; split <;> simp
@[simp] theorem State.reply_snaps (s : State) (d : ReplyTo) (st : Byte) (dt : BitVec 16) (res : List Byte) : (s.reply d st dt res).snaps = s.snaps := by unfold State.reply; split <;> simp
@[simp] theorem State.reply_flash (s : State) (d : ReplyTo) (st : Byte) (dt : BitVec 16) (res : List Byte) : (s.reply d st dt res).flash = s.flash := by unfold State.reply; split <;> simp
@[simp] theorem State.reply_boot (s : State) (d : ReplyTo) (st : Byte) (dt : BitVec 16) (res : List Byte) : (s.reply d st dt res).boot = s.boot := by unfold State.reply; split <;> simp
@[simp] theorem State.reply_quire (s : State) (d : ReplyTo) (st : Byte) (dt : BitVec 16) (res : List Byte) (q' : QId) : (s.reply d st dt res).quire q' = s.quire q' := by simp [State.quire]
@[simp] theorem State.reply_lane (s : State) (d : ReplyTo) (st : Byte) (dt : BitVec 16) (res : List Byte) (i' : LaneId) : (s.reply d st dt res).lane i' = s.lane i' := by simp [State.lane]
@[simp] theorem State.reply_collector_reports (s : State) (d : ReplyTo) (st : Byte) (dt : BitVec 16) (res : List Byte) : (s.reply d st dt res).collector.reports = s.collector.reports := by unfold State.reply; split <;> simp
@[simp] theorem State.reply_collector_faulted (s : State) (d : ReplyTo) (st : Byte) (dt : BitVec 16) (res : List Byte) : (s.reply d st dt res).collector.faulted = s.collector.faulted := by unfold State.reply; split <;> simp
@[simp] theorem State.reply_collector_faultCause (s : State) (d : ReplyTo) (st : Byte) (dt : BitVec 16) (res : List Byte) : (s.reply d st dt res).collector.faultCause = s.collector.faultCause := by unfold State.reply; split <;> simp
@[simp] theorem State.reply_collector_live (s : State) (d : ReplyTo) (st : Byte) (dt : BitVec 16) (res : List Byte) : (s.reply d st dt res).collector.live = s.collector.live := by unfold State.reply; split <;> simp
@[simp] theorem State.reply_collector_real (s : State) (d : ReplyTo) (st : Byte) (dt : BitVec 16) (res : List Byte) : (s.reply d st dt res).collector.real = s.collector.real := by unfold State.reply; split <;> simp
@[simp] theorem State.reply_collector_sticky (s : State) (d : ReplyTo) (st : Byte) (dt : BitVec 16) (res : List Byte) : (s.reply d st dt res).collector.sticky = s.collector.sticky := by unfold State.reply; split <;> simp
@[simp] theorem State.reply_collector_firstError (s : State) (d : ReplyTo) (st : Byte) (dt : BitVec 16) (res : List Byte) : (s.reply d st dt res).collector.firstError = s.collector.firstError := by unfold State.reply; split <;> simp
@[simp] theorem State.reply_collector_secondError (s : State) (d : ReplyTo) (st : Byte) (dt : BitVec 16) (res : List Byte) : (s.reply d st dt res).collector.secondError = s.collector.secondError := by unfold State.reply; split <;> simp
@[simp] theorem State.reply_collector_injections (s : State) (d : ReplyTo) (st : Byte) (dt : BitVec 16) (res : List Byte) : (s.reply d st dt res).collector.injections = s.collector.injections := by unfold State.reply; split <;> simp
@[simp] theorem State.reply_collector_hold (s : State) (d : ReplyTo) (st : Byte) (dt : BitVec 16) (res : List Byte) : (s.reply d st dt res).collector.hold = s.collector.hold := by unfold State.reply; split <;> simp
@[simp] theorem State.reply_collector_pulse (s : State) (d : ReplyTo) (st : Byte) (dt : BitVec 16) (res : List Byte) : (s.reply d st dt res).collector.pulse = s.collector.pulse := by unfold State.reply; split <;> simp
@[simp] theorem State.quireDone_pending (s : State) (d : ReplyTo) (q : QId) (st : Byte) (dt : BitVec 16) (rc : List Byte) : (s.quireDone d q st dt rc).pending = s.pending := by 
  unfold State.quireDone; split
  · rfl
  · dsimp only; split <;> simp
@[simp] theorem State.quireDone_heldPackets (s : State) (d : ReplyTo) (q : QId) (st : Byte) (dt : BitVec 16) (rc : List Byte) : (s.quireDone d q st dt rc).heldPackets = s.heldPackets := by 
  unfold State.quireDone; split
  · rfl
  · dsimp only; split <;> simp
@[simp] theorem State.quireDone_heldTimes (s : State) (d : ReplyTo) (q : QId) (st : Byte) (dt : BitVec 16) (rc : List Byte) : (s.quireDone d q st dt rc).heldTimes = s.heldTimes := by 
  unfold State.quireDone; split
  · rfl
  · dsimp only; split <;> simp
@[simp] theorem State.quireDone_fresh (s : State) (d : ReplyTo) (q : QId) (st : Byte) (dt : BitVec 16) (rc : List Byte) : (s.quireDone d q st dt rc).fresh = s.fresh := by 
  unfold State.quireDone; split
  · rfl
  · dsimp only; split <;> simp
@[simp] theorem State.quireDone_modeOz (s : State) (d : ReplyTo) (q : QId) (st : Byte) (dt : BitVec 16) (rc : List Byte) : (s.quireDone d q st dt rc).modeOz = s.modeOz := by 
  unfold State.quireDone; split
  · rfl
  · dsimp only; split <;> simp
/-- The end of a quire's part of a command on several quires touches of a quire at most its occupation by that command (R589). -/
theorem State.quireDone_quire (s : State) (d : ReplyTo) (q : QId) (st : Byte) (dt : BitVec 16) (rc : List Byte) (q' : QId) :
    ∃ o, (s.quireDone d q st dt rc).quire q' = { s.quire q' with occupied := o } := by
  unfold State.quireDone
  split
  · exact ⟨_, rfl⟩
  · dsimp only
    split
    · refine ⟨((s.quire q').unoccupy d).occupied, ?_⟩
      simp only [State.reply_quire]
      simp only [State.quire, Fin.getElem_fin, Vector.getElem_map]
      unfold Quire.unoccupy
      split <;> rfl
    · exact ⟨_, rfl⟩
@[simp] theorem State.quireDone_lanes (s : State) (d : ReplyTo) (q : QId) (st : Byte) (dt : BitVec 16) (rc : List Byte) : (s.quireDone d q st dt rc).lanes = s.lanes := by 
  unfold State.quireDone; split
  · rfl
  · dsimp only; split <;> simp
@[simp] theorem State.quireDone_clock (s : State) (d : ReplyTo) (q : QId) (st : Byte) (dt : BitVec 16) (rc : List Byte) : (s.quireDone d q st dt rc).clock = s.clock := by 
  unfold State.quireDone; split
  · rfl
  · dsimp only; split <;> simp
@[simp] theorem State.quireDone_time (s : State) (d : ReplyTo) (q : QId) (st : Byte) (dt : BitVec 16) (rc : List Byte) : (s.quireDone d q st dt rc).time = s.time := by 
  unfold State.quireDone; split
  · rfl
  · dsimp only; split <;> simp
@[simp] theorem State.quireDone_gov (s : State) (d : ReplyTo) (q : QId) (st : Byte) (dt : BitVec 16) (rc : List Byte) : (s.quireDone d q st dt rc).gov = s.gov := by 
  unfold State.quireDone; split
  · rfl
  · dsimp only; split <;> simp
@[simp] theorem State.quireDone_cal (s : State) (d : ReplyTo) (q : QId) (st : Byte) (dt : BitVec 16) (rc : List Byte) : (s.quireDone d q st dt rc).cal = s.cal := by 
  unfold State.quireDone; split
  · rfl
  · dsimp only; split <;> simp
@[simp] theorem State.quireDone_spine (s : State) (d : ReplyTo) (q : QId) (st : Byte) (dt : BitVec 16) (rc : List Byte) : (s.quireDone d q st dt rc).spine = s.spine := by 
  unfold State.quireDone; split
  · rfl
  · dsimp only; split <;> simp
@[simp] theorem State.quireDone_snaps (s : State) (d : ReplyTo) (q : QId) (st : Byte) (dt : BitVec 16) (rc : List Byte) : (s.quireDone d q st dt rc).snaps = s.snaps := by 
  unfold State.quireDone; split
  · rfl
  · dsimp only; split <;> simp
@[simp] theorem State.quireDone_flash (s : State) (d : ReplyTo) (q : QId) (st : Byte) (dt : BitVec 16) (rc : List Byte) : (s.quireDone d q st dt rc).flash = s.flash := by 
  unfold State.quireDone; split
  · rfl
  · dsimp only; split <;> simp
@[simp] theorem State.quireDone_boot (s : State) (d : ReplyTo) (q : QId) (st : Byte) (dt : BitVec 16) (rc : List Byte) : (s.quireDone d q st dt rc).boot = s.boot := by 
  unfold State.quireDone; split
  · rfl
  · dsimp only; split <;> simp
@[simp] theorem State.quireDone_lane (s : State) (d : ReplyTo) (q : QId) (st : Byte) (dt : BitVec 16) (rc : List Byte) (i' : LaneId) : (s.quireDone d q st dt rc).lane i' = s.lane i' := by simp [State.lane]
@[simp] theorem State.quireDone_collector_reports (s : State) (d : ReplyTo) (q : QId) (st : Byte) (dt : BitVec 16) (rc : List Byte) : (s.quireDone d q st dt rc).collector.reports = s.collector.reports := by 
  unfold State.quireDone; split
  · rfl
  · dsimp only; split <;> simp
@[simp] theorem State.quireDone_collector_faulted (s : State) (d : ReplyTo) (q : QId) (st : Byte) (dt : BitVec 16) (rc : List Byte) : (s.quireDone d q st dt rc).collector.faulted = s.collector.faulted := by 
  unfold State.quireDone; split
  · rfl
  · dsimp only; split <;> simp
@[simp] theorem State.quireDone_collector_faultCause (s : State) (d : ReplyTo) (q : QId) (st : Byte) (dt : BitVec 16) (rc : List Byte) : (s.quireDone d q st dt rc).collector.faultCause = s.collector.faultCause := by 
  unfold State.quireDone; split
  · rfl
  · dsimp only; split <;> simp
@[simp] theorem State.quireDone_collector_live (s : State) (d : ReplyTo) (q : QId) (st : Byte) (dt : BitVec 16) (rc : List Byte) : (s.quireDone d q st dt rc).collector.live = s.collector.live := by 
  unfold State.quireDone; split
  · rfl
  · dsimp only; split <;> simp
@[simp] theorem State.quireDone_collector_real (s : State) (d : ReplyTo) (q : QId) (st : Byte) (dt : BitVec 16) (rc : List Byte) : (s.quireDone d q st dt rc).collector.real = s.collector.real := by 
  unfold State.quireDone; split
  · rfl
  · dsimp only; split <;> simp
@[simp] theorem State.quireDone_collector_sticky (s : State) (d : ReplyTo) (q : QId) (st : Byte) (dt : BitVec 16) (rc : List Byte) : (s.quireDone d q st dt rc).collector.sticky = s.collector.sticky := by 
  unfold State.quireDone; split
  · rfl
  · dsimp only; split <;> simp
@[simp] theorem State.quireDone_collector_firstError (s : State) (d : ReplyTo) (q : QId) (st : Byte) (dt : BitVec 16) (rc : List Byte) : (s.quireDone d q st dt rc).collector.firstError = s.collector.firstError := by 
  unfold State.quireDone; split
  · rfl
  · dsimp only; split <;> simp
@[simp] theorem State.quireDone_collector_secondError (s : State) (d : ReplyTo) (q : QId) (st : Byte) (dt : BitVec 16) (rc : List Byte) : (s.quireDone d q st dt rc).collector.secondError = s.collector.secondError := by 
  unfold State.quireDone; split
  · rfl
  · dsimp only; split <;> simp
@[simp] theorem State.quireDone_collector_injections (s : State) (d : ReplyTo) (q : QId) (st : Byte) (dt : BitVec 16) (rc : List Byte) : (s.quireDone d q st dt rc).collector.injections = s.collector.injections := by 
  unfold State.quireDone; split
  · rfl
  · dsimp only; split <;> simp
@[simp] theorem State.quireDone_collector_hold (s : State) (d : ReplyTo) (q : QId) (st : Byte) (dt : BitVec 16) (rc : List Byte) : (s.quireDone d q st dt rc).collector.hold = s.collector.hold := by 
  unfold State.quireDone; split
  · rfl
  · dsimp only; split <;> simp
@[simp] theorem State.quireDone_collector_pulse (s : State) (d : ReplyTo) (q : QId) (st : Byte) (dt : BitVec 16) (rc : List Byte) : (s.quireDone d q st dt rc).collector.pulse = s.collector.pulse := by 
  unfold State.quireDone; split
  · rfl
  · dsimp only; split <;> simp

/-! ### Reports and live bits -/


/-! ### A step of one quire (R29) -/

@[simp] theorem State.runFx_pending (s : State) (q : QId) (x : Fx) : (State.runFx q s x).pending = s.pending := by cases x <;> simp [State.runFx]
@[simp] theorem State.runFx_heldPackets (s : State) (q : QId) (x : Fx) : (State.runFx q s x).heldPackets = s.heldPackets := by cases x <;> simp [State.runFx]
@[simp] theorem State.runFx_heldTimes (s : State) (q : QId) (x : Fx) : (State.runFx q s x).heldTimes = s.heldTimes := by cases x <;> simp [State.runFx]
@[simp] theorem State.runFx_modeOz (s : State) (q : QId) (x : Fx) : (State.runFx q s x).modeOz = s.modeOz := by cases x <;> simp [State.runFx]
@[simp] theorem State.runFx_lanes (s : State) (q : QId) (x : Fx) : (State.runFx q s x).lanes = s.lanes := by cases x <;> simp [State.runFx]
@[simp] theorem State.runFx_clock (s : State) (q : QId) (x : Fx) : (State.runFx q s x).clock = s.clock := by cases x <;> simp [State.runFx]
@[simp] theorem State.runFx_time (s : State) (q : QId) (x : Fx) : (State.runFx q s x).time = s.time := by cases x <;> simp [State.runFx]
@[simp] theorem State.runFx_gov (s : State) (q : QId) (x : Fx) : (State.runFx q s x).gov = s.gov := by cases x <;> simp [State.runFx]
@[simp] theorem State.runFx_cal (s : State) (q : QId) (x : Fx) : (State.runFx q s x).cal = s.cal := by cases x <;> simp [State.runFx]
@[simp] theorem State.runFx_spine (s : State) (q : QId) (x : Fx) : (State.runFx q s x).spine = s.spine := by cases x <;> simp [State.runFx]
@[simp] theorem State.runFx_snaps (s : State) (q : QId) (x : Fx) : (State.runFx q s x).snaps = s.snaps := by cases x <;> simp [State.runFx]
@[simp] theorem State.runFx_flash (s : State) (q : QId) (x : Fx) : (State.runFx q s x).flash = s.flash := by cases x <;> simp [State.runFx]
@[simp] theorem State.runFx_boot (s : State) (q : QId) (x : Fx) : (State.runFx q s x).boot = s.boot := by cases x <;> simp [State.runFx]
@[simp] theorem State.runFx_lane (s : State) (q : QId) (x : Fx) (i' : LaneId) : (State.runFx q s x).lane i' = s.lane i' := by simp [State.lane]

/-- A request of quire `q` touches of another quire at most the occupation by a command on both, which replies (R589). -/
theorem State.runFx_other (s : State) (q q' : QId) (x : Fx) (h : q' ≠ q) : ∃ o, (State.runFx q s x).quire q' = { s.quire q' with occupied := o } := by
  cases x with
  | done d st dt => exact State.quireDone_quire s d q st dt [] q'
  | _ => exact ⟨(s.quire q').occupied, by simp [State.runFx, h]⟩

/-- A request of quire `q` touches of that quire at most a live word that the manual leaves open, the delay list, and the occupation by a command that replies. -/
theorem State.runFx_same (s : State) (q : QId) (x : Fx) : ∃ l d o, (State.runFx q s x).quire q = { s.quire q with live := l, delay := d, occupied := o } := by
  cases x with
  | done d st dt =>
    obtain ⟨o, h⟩ := State.quireDone_quire s d q st dt [] q
    exact ⟨(s.quire q).live, (s.quire q).delay, o, by simpa [State.runFx] using h⟩
  | freeBits k m => exact ⟨((s.quire q).setLive k (((s.quire q).liveReg k &&& ~~~m) ||| (s.takeFree.1 &&& m))).live, (s.quire q).delay, (s.quire q).occupied, by simp [State.runFx, Quire.setLive]⟩
  | delay it => exact ⟨(s.quire q).live, _, (s.quire q).occupied, by simp [State.runFx]; rfl⟩
  | _ => exact ⟨(s.quire q).live, (s.quire q).delay, (s.quire q).occupied, by simp [State.runFx]⟩

@[simp] theorem State.runFxs_pending (q : QId) (l : List Fx) (s : State) : (l.foldl (State.runFx q) s).pending = s.pending := by
  induction l generalizing s with
  | nil => rfl
  | cons x l ih => simp [ih]
@[simp] theorem State.runFxs_heldPackets (q : QId) (l : List Fx) (s : State) : (l.foldl (State.runFx q) s).heldPackets = s.heldPackets := by
  induction l generalizing s with
  | nil => rfl
  | cons x l ih => simp [ih]
@[simp] theorem State.runFxs_heldTimes (q : QId) (l : List Fx) (s : State) : (l.foldl (State.runFx q) s).heldTimes = s.heldTimes := by
  induction l generalizing s with
  | nil => rfl
  | cons x l ih => simp [ih]
@[simp] theorem State.runFxs_modeOz (q : QId) (l : List Fx) (s : State) : (l.foldl (State.runFx q) s).modeOz = s.modeOz := by
  induction l generalizing s with
  | nil => rfl
  | cons x l ih => simp [ih]
@[simp] theorem State.runFxs_lanes (q : QId) (l : List Fx) (s : State) : (l.foldl (State.runFx q) s).lanes = s.lanes := by
  induction l generalizing s with
  | nil => rfl
  | cons x l ih => simp [ih]
@[simp] theorem State.runFxs_clock (q : QId) (l : List Fx) (s : State) : (l.foldl (State.runFx q) s).clock = s.clock := by
  induction l generalizing s with
  | nil => rfl
  | cons x l ih => simp [ih]
@[simp] theorem State.runFxs_time (q : QId) (l : List Fx) (s : State) : (l.foldl (State.runFx q) s).time = s.time := by
  induction l generalizing s with
  | nil => rfl
  | cons x l ih => simp [ih]
@[simp] theorem State.runFxs_gov (q : QId) (l : List Fx) (s : State) : (l.foldl (State.runFx q) s).gov = s.gov := by
  induction l generalizing s with
  | nil => rfl
  | cons x l ih => simp [ih]
@[simp] theorem State.runFxs_cal (q : QId) (l : List Fx) (s : State) : (l.foldl (State.runFx q) s).cal = s.cal := by
  induction l generalizing s with
  | nil => rfl
  | cons x l ih => simp [ih]
@[simp] theorem State.runFxs_spine (q : QId) (l : List Fx) (s : State) : (l.foldl (State.runFx q) s).spine = s.spine := by
  induction l generalizing s with
  | nil => rfl
  | cons x l ih => simp [ih]
@[simp] theorem State.runFxs_snaps (q : QId) (l : List Fx) (s : State) : (l.foldl (State.runFx q) s).snaps = s.snaps := by
  induction l generalizing s with
  | nil => rfl
  | cons x l ih => simp [ih]
@[simp] theorem State.runFxs_flash (q : QId) (l : List Fx) (s : State) : (l.foldl (State.runFx q) s).flash = s.flash := by
  induction l generalizing s with
  | nil => rfl
  | cons x l ih => simp [ih]
@[simp] theorem State.runFxs_boot (q : QId) (l : List Fx) (s : State) : (l.foldl (State.runFx q) s).boot = s.boot := by
  induction l generalizing s with
  | nil => rfl
  | cons x l ih => simp [ih]

theorem State.runFxs_other (q q' : QId) (h : q' ≠ q) (l : List Fx) (s : State) : ∃ o, (l.foldl (State.runFx q) s).quire q' = { s.quire q' with occupied := o } := by
  induction l generalizing s with
  | nil => exact ⟨_, rfl⟩
  | cons x l ih =>
    obtain ⟨o, hv⟩ := State.runFx_other s q q' x h
    obtain ⟨o', hv'⟩ := ih (State.runFx q s x)
    exact ⟨o', by simp [hv', hv]⟩

theorem State.runFxs_same (q : QId) (l : List Fx) (s : State) : ∃ v d o, (l.foldl (State.runFx q) s).quire q = { s.quire q with live := v, delay := d, occupied := o } := by
  induction l generalizing s with
  | nil => exact ⟨_, _, _, rfl⟩
  | cons x l ih =>
    obtain ⟨v, d, o, hv⟩ := State.runFx_same s q x
    obtain ⟨v', d', o', hv'⟩ := ih (State.runFx q s x)
    exact ⟨v', d', o', by simp [hv', hv]⟩


/-- The request leaves every quire as it is: it is not one for free bits of a live word, nor of an item for the delay list, nor the end of a part of a command on several quires. -/
def Fx.plain : Fx → Bool
  | .freeBits _ _ | .delay _ | .done _ _ _ => false
  | _ => true

@[simp] theorem State.runFx_plain (s : State) (q q' : QId) (x : Fx) (h : x.plain = true) : (State.runFx q s x).quire q' = s.quire q' := by
  cases x <;> simp [State.runFx, Fx.plain] at *

theorem State.runFxs_plain (q q' : QId) (l : List Fx) (s : State) (h : ∀ x ∈ l, x.plain = true) : (l.foldl (State.runFx q) s).quire q' = s.quire q' := by
  induction l generalizing s with
  | nil => rfl
  | cons x l ih =>
    rw [List.foldl_cons, ih _ fun y hy => h y (List.mem_cons_of_mem x hy), State.runFx_plain s q q' x (h x List.mem_cons_self)]

/-- A step of quire `q` whose requests are plain makes of it exactly what the step says. -/
theorem State.onQuire_plain (s : State) (q : QId) (f : Quire → W) (h : ∀ x ∈ (f (s.quire q)).fx, x.plain = true) : (s.onQuire q f).quire q = (f (s.quire q)).q := by
  simp [State.onQuire, State.runFxs_plain q q _ _ h]

@[simp] theorem State.onQuire_pending (s : State) (q : QId) (f : Quire → W) : (s.onQuire q f).pending = s.pending := by simp [State.onQuire]
@[simp] theorem State.onQuire_heldPackets (s : State) (q : QId) (f : Quire → W) : (s.onQuire q f).heldPackets = s.heldPackets := by simp [State.onQuire]
@[simp] theorem State.onQuire_heldTimes (s : State) (q : QId) (f : Quire → W) : (s.onQuire q f).heldTimes = s.heldTimes := by simp [State.onQuire]
@[simp] theorem State.onQuire_modeOz (s : State) (q : QId) (f : Quire → W) : (s.onQuire q f).modeOz = s.modeOz := by simp [State.onQuire]
@[simp] theorem State.onQuire_lanes (s : State) (q : QId) (f : Quire → W) : (s.onQuire q f).lanes = s.lanes := by simp [State.onQuire]
@[simp] theorem State.onQuire_clock (s : State) (q : QId) (f : Quire → W) : (s.onQuire q f).clock = s.clock := by simp [State.onQuire]
@[simp] theorem State.onQuire_time (s : State) (q : QId) (f : Quire → W) : (s.onQuire q f).time = s.time := by simp [State.onQuire]
@[simp] theorem State.onQuire_gov (s : State) (q : QId) (f : Quire → W) : (s.onQuire q f).gov = s.gov := by simp [State.onQuire]
@[simp] theorem State.onQuire_cal (s : State) (q : QId) (f : Quire → W) : (s.onQuire q f).cal = s.cal := by simp [State.onQuire]
@[simp] theorem State.onQuire_spine (s : State) (q : QId) (f : Quire → W) : (s.onQuire q f).spine = s.spine := by simp [State.onQuire]
@[simp] theorem State.onQuire_snaps (s : State) (q : QId) (f : Quire → W) : (s.onQuire q f).snaps = s.snaps := by simp [State.onQuire]
@[simp] theorem State.onQuire_flash (s : State) (q : QId) (f : Quire → W) : (s.onQuire q f).flash = s.flash := by simp [State.onQuire]
@[simp] theorem State.onQuire_boot (s : State) (q : QId) (f : Quire → W) : (s.onQuire q f).boot = s.boot := by simp [State.onQuire]

/-- A step of quire `q` leaves every other quire as it is (R29), but for the occupation by a command on both that replies (R589). -/
theorem State.onQuire_other (s : State) (q q' : QId) (f : Quire → W) (h : q' ≠ q) : ∃ o, (s.onQuire q f).quire q' = { s.quire q' with occupied := o } := by
  obtain ⟨o, ho⟩ := State.runFxs_other q q' h (f (s.quire q)).fx (s.setQuire q (f (s.quire q)).q)
  exact ⟨o, by simp [State.onQuire, ho, h]⟩

/-- A step of quire `q` whose requests are plain leaves every other quire as it is (R29). -/
theorem State.onQuire_plain_other (s : State) (q q' : QId) (f : Quire → W) (h : q' ≠ q) (hp : ∀ x ∈ (f (s.quire q)).fx, x.plain = true) :
    (s.onQuire q f).quire q' = s.quire q' := by
  simp [State.onQuire, State.runFxs_plain q q' _ _ hp, h]

/-- What a step of quire `q` makes of it is what the step says, but for live words that the manual leaves open, items that enter the delay list, and the occupation by a command that replies. -/
theorem State.onQuire_same (s : State) (q : QId) (f : Quire → W) : ∃ v d o, (s.onQuire q f).quire q = { (f (s.quire q)).q with live := v, delay := d, occupied := o } := by
  obtain ⟨v, d, o, h⟩ := State.runFxs_same q (f (s.quire q)).fx (s.setQuire q (f (s.quire q)).q)
  exact ⟨v, d, o, by simp [State.onQuire, h]⟩

/-- A step of a quire that asks nothing of the chip changes that quire alone. -/
theorem State.onQuire_quiet (s : State) (q : QId) (f : Quire → W) (h : (f (s.quire q)).fx = []) : s.onQuire q f = s.setQuire q (f (s.quire q)).q := by
  simp [State.onQuire, h]

@[simp] theorem State.onQuire_quire_state (s : State) (q : QId) (f : Quire → W) : ((s.onQuire q f).quire q).state = (f (s.quire q)).q.state := by
  obtain ⟨_, _, _, h⟩ := s.onQuire_same q f; rw [h]
@[simp] theorem State.onQuire_quire_stopCause (s : State) (q : QId) (f : Quire → W) : ((s.onQuire q f).quire q).stopCause = (f (s.quire q)).q.stopCause := by
  obtain ⟨_, _, _, h⟩ := s.onQuire_same q f; rw [h]
@[simp] theorem State.onQuire_quire_startPending (s : State) (q : QId) (f : Quire → W) : ((s.onQuire q f).quire q).startPending = (f (s.quire q)).q.startPending := by
  obtain ⟨_, _, _, h⟩ := s.onQuire_same q f; rw [h]
@[simp] theorem State.onQuire_quire_pausePending (s : State) (q : QId) (f : Quire → W) : ((s.onQuire q f).quire q).pausePending = (f (s.quire q)).q.pausePending := by
  obtain ⟨_, _, _, h⟩ := s.onQuire_same q f; rw [h]
@[simp] theorem State.onQuire_quire_hostPaused (s : State) (q : QId) (f : Quire → W) : ((s.onQuire q f).quire q).hostPaused = (f (s.quire q)).q.hostPaused := by
  obtain ⟨_, _, _, h⟩ := s.onQuire_same q f; rw [h]
@[simp] theorem State.onQuire_quire_resumePending (s : State) (q : QId) (f : Quire → W) : ((s.onQuire q f).quire q).resumePending = (f (s.quire q)).q.resumePending := by
  obtain ⟨_, _, _, h⟩ := s.onQuire_same q f; rw [h]
@[simp] theorem State.onQuire_quire_vpinOk (s : State) (q : QId) (f : Quire → W) : ((s.onQuire q f).quire q).vpinOk = (f (s.quire q)).q.vpinOk := by
  obtain ⟨_, _, _, h⟩ := s.onQuire_same q f; rw [h]
@[simp] theorem State.onQuire_quire_vpinHeld (s : State) (q : QId) (f : Quire → W) : ((s.onQuire q f).quire q).vpinHeld = (f (s.quire q)).q.vpinHeld := by
  obtain ⟨_, _, _, h⟩ := s.onQuire_same q f; rw [h]
@[simp] theorem State.onQuire_quire_owner (s : State) (q : QId) (f : Quire → W) : ((s.onQuire q f).quire q).owner = (f (s.quire q)).q.owner := by
  obtain ⟨_, _, _, h⟩ := s.onQuire_same q f; rw [h]
@[simp] theorem State.onQuire_quire_staging (s : State) (q : QId) (f : Quire → W) : ((s.onQuire q f).quire q).staging = (f (s.quire q)).q.staging := by
  obtain ⟨_, _, _, h⟩ := s.onQuire_same q f; rw [h]
@[simp] theorem State.onQuire_quire_committed (s : State) (q : QId) (f : Quire → W) : ((s.onQuire q f).quire q).committed = (f (s.quire q)).q.committed := by
  obtain ⟨_, _, _, h⟩ := s.onQuire_same q f; rw [h]
@[simp] theorem State.onQuire_quire_dirty (s : State) (q : QId) (f : Quire → W) : ((s.onQuire q f).quire q).dirty = (f (s.quire q)).q.dirty := by
  obtain ⟨_, _, _, h⟩ := s.onQuire_same q f; rw [h]
@[simp] theorem State.onQuire_quire_sealedPages (s : State) (q : QId) (f : Quire → W) : ((s.onQuire q f).quire q).sealedPages = (f (s.quire q)).q.sealedPages := by
  obtain ⟨_, _, _, h⟩ := s.onQuire_same q f; rw [h]
@[simp] theorem State.onQuire_quire_crcWritten (s : State) (q : QId) (f : Quire → W) : ((s.onQuire q f).quire q).crcWritten = (f (s.quire q)).q.crcWritten := by
  obtain ⟨_, _, _, h⟩ := s.onQuire_same q f; rw [h]
@[simp] theorem State.onQuire_quire_everCommitted (s : State) (q : QId) (f : Quire → W) : ((s.onQuire q f).quire q).everCommitted = (f (s.quire q)).q.everCommitted := by
  obtain ⟨_, _, _, h⟩ := s.onQuire_same q f; rw [h]
@[simp] theorem State.onQuire_quire_selftest (s : State) (q : QId) (f : Quire → W) : ((s.onQuire q f).quire q).selftest = (f (s.quire q)).q.selftest := by
  obtain ⟨_, _, _, h⟩ := s.onQuire_same q f; rw [h]
@[simp] theorem State.onQuire_quire_stopReq (s : State) (q : QId) (f : Quire → W) : ((s.onQuire q f).quire q).stopReq = (f (s.quire q)).q.stopReq := by
  obtain ⟨_, _, _, h⟩ := s.onQuire_same q f; rw [h]
@[simp] theorem State.onQuire_quire_stopWaiters (s : State) (q : QId) (f : Quire → W) : ((s.onQuire q f).quire q).stopWaiters = (f (s.quire q)).q.stopWaiters := by
  obtain ⟨_, _, _, h⟩ := s.onQuire_same q f; rw [h]
@[simp] theorem State.onQuire_quire_sram (s : State) (q : QId) (f : Quire → W) : ((s.onQuire q f).quire q).sram = (f (s.quire q)).q.sram := by
  obtain ⟨_, _, _, h⟩ := s.onQuire_same q f; rw [h]
@[simp] theorem State.onQuire_quire_sigs (s : State) (q : QId) (f : Quire → W) : ((s.onQuire q f).quire q).sigs = (f (s.quire q)).q.sigs := by
  obtain ⟨_, _, _, h⟩ := s.onQuire_same q f; rw [h]
@[simp] theorem State.onQuire_quire_seq (s : State) (q : QId) (f : Quire → W) : ((s.onQuire q f).quire q).seq = (f (s.quire q)).q.seq := by
  obtain ⟨_, _, _, h⟩ := s.onQuire_same q f; rw [h]
@[simp] theorem State.onQuire_quire_engines (s : State) (q : QId) (f : Quire → W) : ((s.onQuire q f).quire q).engines = (f (s.quire q)).q.engines := by
  obtain ⟨_, _, _, h⟩ := s.onQuire_same q f; rw [h]
@[simp] theorem State.onQuire_quire_store (s : State) (q : QId) (f : Quire → W) : ((s.onQuire q f).quire q).store = (f (s.quire q)).q.store := by
  obtain ⟨_, _, _, h⟩ := s.onQuire_same q f; rw [h]
@[simp] theorem State.onQuire_quire_ready (s : State) (q : QId) (f : Quire → W) : ((s.onQuire q f).quire q).ready = (f (s.quire q)).q.ready := by
  obtain ⟨_, _, _, h⟩ := s.onQuire_same q f; rw [h]
@[simp] theorem State.onQuire_quire_slots (s : State) (q : QId) (f : Quire → W) : ((s.onQuire q f).quire q).slots = (f (s.quire q)).q.slots := by
  obtain ⟨_, _, _, h⟩ := s.onQuire_same q f; rw [h]
@[simp] theorem State.onQuire_quire_nextSeq (s : State) (q : QId) (f : Quire → W) : ((s.onQuire q f).quire q).nextSeq = (f (s.quire q)).q.nextSeq := by
  obtain ⟨_, _, _, h⟩ := s.onQuire_same q f; rw [h]
@[simp] theorem State.onQuire_quire_releasePtr (s : State) (q : QId) (f : Quire → W) : ((s.onQuire q f).quire q).releasePtr = (f (s.quire q)).q.releasePtr := by
  obtain ⟨_, _, _, h⟩ := s.onQuire_same q f; rw [h]
@[simp] theorem State.onQuire_quire_held (s : State) (q : QId) (f : Quire → W) : ((s.onQuire q f).quire q).held = (f (s.quire q)).q.held := by
  obtain ⟨_, _, _, h⟩ := s.onQuire_same q f; rw [h]
@[simp] theorem State.onQuire_quire_heldBg (s : State) (q : QId) (f : Quire → W) : ((s.onQuire q f).quire q).heldBg = (f (s.quire q)).q.heldBg := by
  obtain ⟨_, _, _, h⟩ := s.onQuire_same q f; rw [h]
@[simp] theorem State.onQuire_quire_heldStream (s : State) (q : QId) (f : Quire → W) : ((s.onQuire q f).quire q).heldStream = (f (s.quire q)).q.heldStream := by
  obtain ⟨_, _, _, h⟩ := s.onQuire_same q f; rw [h]
@[simp] theorem State.onQuire_quire_heldDelay (s : State) (q : QId) (f : Quire → W) : ((s.onQuire q f).quire q).heldDelay = (f (s.quire q)).q.heldDelay := by
  obtain ⟨_, _, _, h⟩ := s.onQuire_same q f; rw [h]
@[simp] theorem State.onQuire_quire_bgOutputs (s : State) (q : QId) (f : Quire → W) : ((s.onQuire q f).quire q).bgOutputs = (f (s.quire q)).q.bgOutputs := by
  obtain ⟨_, _, _, h⟩ := s.onQuire_same q f; rw [h]
@[simp] theorem State.onQuire_quire_derivation (s : State) (q : QId) (f : Quire → W) : ((s.onQuire q f).quire q).derivation = (f (s.quire q)).q.derivation := by
  obtain ⟨_, _, _, h⟩ := s.onQuire_same q f; rw [h]
@[simp] theorem State.onQuire_quire_useClock (s : State) (q : QId) (f : Quire → W) : ((s.onQuire q f).quire q).useClock = (f (s.quire q)).q.useClock := by
  obtain ⟨_, _, _, h⟩ := s.onQuire_same q f; rw [h]
@[simp] theorem State.onQuire_quire_hotZones (s : State) (q : QId) (f : Quire → W) : ((s.onQuire q f).quire q).hotZones = (f (s.quire q)).q.hotZones := by
  obtain ⟨_, _, _, h⟩ := s.onQuire_same q f; rw [h]
@[simp] theorem State.onQuire_quire_fifo (s : State) (q : QId) (f : Quire → W) : ((s.onQuire q f).quire q).fifo = (f (s.quire q)).q.fifo := by
  obtain ⟨_, _, _, h⟩ := s.onQuire_same q f; rw [h]
@[simp] theorem State.onQuire_quire_playing (s : State) (q : QId) (f : Quire → W) : ((s.onQuire q f).quire q).playing = (f (s.quire q)).q.playing := by
  obtain ⟨_, _, _, h⟩ := s.onQuire_same q f; rw [h]
@[simp] theorem State.onQuire_quire_recent (s : State) (q : QId) (f : Quire → W) : ((s.onQuire q f).quire q).recent = (f (s.quire q)).q.recent := by
  obtain ⟨_, _, _, h⟩ := s.onQuire_same q f; rw [h]
@[simp] theorem State.onQuire_quire_skipping (s : State) (q : QId) (f : Quire → W) : ((s.onQuire q f).quire q).skipping = (f (s.quire q)).q.skipping := by
  obtain ⟨_, _, _, h⟩ := s.onQuire_same q f; rw [h]
@[simp] theorem State.onQuire_quire_vecCount (s : State) (q : QId) (f : Quire → W) : ((s.onQuire q f).quire q).vecCount = (f (s.quire q)).q.vecCount := by
  obtain ⟨_, _, _, h⟩ := s.onQuire_same q f; rw [h]
@[simp] theorem State.onQuire_quire_originNs (s : State) (q : QId) (f : Quire → W) : ((s.onQuire q f).quire q).originNs = (f (s.quire q)).q.originNs := by
  obtain ⟨_, _, _, h⟩ := s.onQuire_same q f; rw [h]
@[simp] theorem State.onQuire_quire_originAt (s : State) (q : QId) (f : Quire → W) : ((s.onQuire q f).quire q).originAt = (f (s.quire q)).q.originAt := by
  obtain ⟨_, _, _, h⟩ := s.onQuire_same q f; rw [h]
@[simp] theorem State.onQuire_quire_elapsed (s : State) (q : QId) (f : Quire → W) : ((s.onQuire q f).quire q).elapsed = (f (s.quire q)).q.elapsed := by
  obtain ⟨_, _, _, h⟩ := s.onQuire_same q f; rw [h]
@[simp] theorem State.onQuire_quire_fillLow (s : State) (q : QId) (f : Quire → W) : ((s.onQuire q f).quire q).fillLow = (f (s.quire q)).q.fillLow := by
  obtain ⟨_, _, _, h⟩ := s.onQuire_same q f; rw [h]
@[simp] theorem State.onQuire_quire_pins (s : State) (q : QId) (f : Quire → W) : ((s.onQuire q f).quire q).pins = (f (s.quire q)).q.pins := by
  obtain ⟨_, _, _, h⟩ := s.onQuire_same q f; rw [h]
@[simp] theorem State.onQuire_quire_spilled (s : State) (q : QId) (f : Quire → W) : ((s.onQuire q f).quire q).spilled = (f (s.quire q)).q.spilled := by
  obtain ⟨_, _, _, h⟩ := s.onQuire_same q f; rw [h]
@[simp] theorem State.onQuire_quire_parkDue (s : State) (q : QId) (f : Quire → W) : ((s.onQuire q f).quire q).parkDue = (f (s.quire q)).q.parkDue := by
  obtain ⟨_, _, _, h⟩ := s.onQuire_same q f; rw [h]
@[simp] theorem State.onQuire_quire_termOn (s : State) (q : QId) (f : Quire → W) : ((s.onQuire q f).quire q).termOn = (f (s.quire q)).q.termOn := by
  obtain ⟨_, _, _, h⟩ := s.onQuire_same q f; rw [h]
@[simp] theorem State.onQuire_quire_endpaper (s : State) (q : QId) (f : Quire → W) : ((s.onQuire q f).quire q).endpaper = (f (s.quire q)).q.endpaper := by
  obtain ⟨_, _, _, h⟩ := s.onQuire_same q f; rw [h]
@[simp] theorem State.onQuire_quire_retrim (s : State) (q : QId) (f : Quire → W) : ((s.onQuire q f).quire q).retrim = (f (s.quire q)).q.retrim := by
  obtain ⟨_, _, _, h⟩ := s.onQuire_same q f; rw [h]
@[simp] theorem State.onQuire_quire_markers (s : State) (q : QId) (f : Quire → W) : ((s.onQuire q f).quire q).markers = (f (s.quire q)).q.markers := by
  obtain ⟨_, _, _, h⟩ := s.onQuire_same q f; rw [h]
@[simp] theorem State.onQuire_quire_edgeBad (s : State) (q : QId) (f : Quire → W) : ((s.onQuire q f).quire q).edgeBad = (f (s.quire q)).q.edgeBad := by
  obtain ⟨_, _, _, h⟩ := s.onQuire_same q f; rw [h]
@[simp] theorem State.onQuire_quire_vpinSetpoint (s : State) (q : QId) (f : Quire → W) : ((s.onQuire q f).quire q).vpinSetpoint = (f (s.quire q)).q.vpinSetpoint := by
  obtain ⟨_, _, _, h⟩ := s.onQuire_same q f; rw [h]
@[simp] theorem State.onQuire_quire_vpinFrom (s : State) (q : QId) (f : Quire → W) : ((s.onQuire q f).quire q).vpinFrom = (f (s.quire q)).q.vpinFrom := by
  obtain ⟨_, _, _, h⟩ := s.onQuire_same q f; rw [h]
@[simp] theorem State.onQuire_quire_vpinSince (s : State) (q : QId) (f : Quire → W) : ((s.onQuire q f).quire q).vpinSince = (f (s.quire q)).q.vpinSince := by
  obtain ⟨_, _, _, h⟩ := s.onQuire_same q f; rw [h]
@[simp] theorem State.onQuire_quire_vpinMv (s : State) (q : QId) (f : Quire → W) : ((s.onQuire q f).quire q).vpinMv = (f (s.quire q)).q.vpinMv := by
  obtain ⟨_, _, _, h⟩ := s.onQuire_same q f; rw [h]
@[simp] theorem State.onQuire_quire_vpinOut (s : State) (q : QId) (f : Quire → W) : ((s.onQuire q f).quire q).vpinOut = (f (s.quire q)).q.vpinOut := by
  obtain ⟨_, _, _, h⟩ := s.onQuire_same q f; rw [h]
@[simp] theorem State.onQuire_quire_vpinGood (s : State) (q : QId) (f : Quire → W) : ((s.onQuire q f).quire q).vpinGood = (f (s.quire q)).q.vpinGood := by
  obtain ⟨_, _, _, h⟩ := s.onQuire_same q f; rw [h]
@[simp] theorem State.onQuire_quire_rbFailed (s : State) (q : QId) (f : Quire → W) : ((s.onQuire q f).quire q).rbFailed = (f (s.quire q)).q.rbFailed := by
  obtain ⟨_, _, _, h⟩ := s.onQuire_same q f; rw [h]
@[simp] theorem State.onQuire_quire_overloaded (s : State) (q : QId) (f : Quire → W) : ((s.onQuire q f).quire q).overloaded = (f (s.quire q)).q.overloaded := by
  obtain ⟨_, _, _, h⟩ := s.onQuire_same q f; rw [h]
@[simp] theorem State.onQuire_quire_pmu (s : State) (q : QId) (f : Quire → W) : ((s.onQuire q f).quire q).pmu = (f (s.quire q)).q.pmu := by
  obtain ⟨_, _, _, h⟩ := s.onQuire_same q f; rw [h]
@[simp] theorem State.onQuire_quire_tmus (s : State) (q : QId) (f : Quire → W) : ((s.onQuire q f).quire q).tmus = (f (s.quire q)).q.tmus := by
  obtain ⟨_, _, _, h⟩ := s.onQuire_same q f; rw [h]
@[simp] theorem State.onQuire_quire_insts (s : State) (q : QId) (f : Quire → W) : ((s.onQuire q f).quire q).insts = (f (s.quire q)).q.insts := by
  obtain ⟨_, _, _, h⟩ := s.onQuire_same q f; rw [h]
@[simp] theorem State.onQuire_quire_nextInstId (s : State) (q : QId) (f : Quire → W) : ((s.onQuire q f).quire q).nextInstId = (f (s.quire q)).q.nextInstId := by
  obtain ⟨_, _, _, h⟩ := s.onQuire_same q f; rw [h]
@[simp] theorem State.onQuire_quire_playedAt (s : State) (q : QId) (f : Quire → W) : ((s.onQuire q f).quire q).playedAt = (f (s.quire q)).q.playedAt := by
  obtain ⟨_, _, _, h⟩ := s.onQuire_same q f; rw [h]
@[simp] theorem State.onQuire_quire_verdicts (s : State) (q : QId) (f : Quire → W) : ((s.onQuire q f).quire q).verdicts = (f (s.quire q)).q.verdicts := by
  obtain ⟨_, _, _, h⟩ := s.onQuire_same q f; rw [h]
@[simp] theorem State.onQuire_quire_nextRec (s : State) (q : QId) (f : Quire → W) : ((s.onQuire q f).quire q).nextRec = (f (s.quire q)).q.nextRec := by
  obtain ⟨_, _, _, h⟩ := s.onQuire_same q f; rw [h]
@[simp] theorem State.onQuire_quire_run (s : State) (q : QId) (f : Quire → W) : ((s.onQuire q f).quire q).run = (f (s.quire q)).q.run := by
  obtain ⟨_, _, _, h⟩ := s.onQuire_same q f; rw [h]
@[simp] theorem State.onQuire_quire_firstN (s : State) (q : QId) (f : Quire → W) : ((s.onQuire q f).quire q).firstN = (f (s.quire q)).q.firstN := by
  obtain ⟨_, _, _, h⟩ := s.onQuire_same q f; rw [h]
@[simp] theorem State.onQuire_quire_nextFirstN (s : State) (q : QId) (f : Quire → W) : ((s.onQuire q f).quire q).nextFirstN = (f (s.quire q)).q.nextFirstN := by
  obtain ⟨_, _, _, h⟩ := s.onQuire_same q f; rw [h]
@[simp] theorem State.onQuire_quire_failQueue (s : State) (q : QId) (f : Quire → W) : ((s.onQuire q f).quire q).failQueue = (f (s.quire q)).q.failQueue := by
  obtain ⟨_, _, _, h⟩ := s.onQuire_same q f; rw [h]
@[simp] theorem State.onQuire_quire_bitmap (s : State) (q : QId) (f : Quire → W) : ((s.onQuire q f).quire q).bitmap = (f (s.quire q)).q.bitmap := by
  obtain ⟨_, _, _, h⟩ := s.onQuire_same q f; rw [h]
@[simp] theorem State.onQuire_quire_rawBuf (s : State) (q : QId) (f : Quire → W) : ((s.onQuire q f).quire q).rawBuf = (f (s.quire q)).q.rawBuf := by
  obtain ⟨_, _, _, h⟩ := s.onQuire_same q f; rw [h]
@[simp] theorem State.onQuire_quire_raw (s : State) (q : QId) (f : Quire → W) : ((s.onQuire q f).quire q).raw = (f (s.quire q)).q.raw := by
  obtain ⟨_, _, _, h⟩ := s.onQuire_same q f; rw [h]
@[simp] theorem State.onQuire_quire_nextRaw (s : State) (q : QId) (f : Quire → W) : ((s.onQuire q f).quire q).nextRaw = (f (s.quire q)).q.nextRaw := by
  obtain ⟨_, _, _, h⟩ := s.onQuire_same q f; rw [h]
@[simp] theorem State.onQuire_quire_regions (s : State) (q : QId) (f : Quire → W) : ((s.onQuire q f).quire q).regions = (f (s.quire q)).q.regions := by
  obtain ⟨_, _, _, h⟩ := s.onQuire_same q f; rw [h]
@[simp] theorem State.onQuire_quire_sweep (s : State) (q : QId) (f : Quire → W) : ((s.onQuire q f).quire q).sweep = (f (s.quire q)).q.sweep := by
  obtain ⟨_, _, _, h⟩ := s.onQuire_same q f; rw [h]
@[simp] theorem State.onQuire_quire_pastSweeps (s : State) (q : QId) (f : Quire → W) : ((s.onQuire q f).quire q).pastSweeps = (f (s.quire q)).q.pastSweeps := by
  obtain ⟨_, _, _, h⟩ := s.onQuire_same q f; rw [h]
@[simp] theorem State.onQuire_quire_eyeOffsets (s : State) (q : QId) (f : Quire → W) : ((s.onQuire q f).quire q).eyeOffsets = (f (s.quire q)).q.eyeOffsets := by
  obtain ⟨_, _, _, h⟩ := s.onQuire_same q f; rw [h]
@[simp] theorem State.onQuire_quire_applied (s : State) (q : QId) (f : Quire → W) : ((s.onQuire q f).quire q).applied = (f (s.quire q)).q.applied := by
  obtain ⟨_, _, _, h⟩ := s.onQuire_same q f; rw [h]
@[simp] theorem State.onQuire_quire_lastMatch (s : State) (q : QId) (f : Quire → W) : ((s.onQuire q f).quire q).lastMatch = (f (s.quire q)).q.lastMatch := by
  obtain ⟨_, _, _, h⟩ := s.onQuire_same q f; rw [h]
@[simp] theorem State.onQuire_quire_stream (s : State) (q : QId) (f : Quire → W) : ((s.onQuire q f).quire q).stream = (f (s.quire q)).q.stream := by
  obtain ⟨_, _, _, h⟩ := s.onQuire_same q f; rw [h]
@[simp] theorem State.onQuire_quire_streamHeads (s : State) (q : QId) (f : Quire → W) : ((s.onQuire q f).quire q).streamHeads = (f (s.quire q)).q.streamHeads := by
  obtain ⟨_, _, _, h⟩ := s.onQuire_same q f; rw [h]
@[simp] theorem State.onQuire_quire_verdictRead (s : State) (q : QId) (f : Quire → W) : ((s.onQuire q f).quire q).verdictRead = (f (s.quire q)).q.verdictRead := by
  obtain ⟨_, _, _, h⟩ := s.onQuire_same q f; rw [h]
@[simp] theorem State.onQuire_quire_dram (s : State) (q : QId) (f : Quire → W) : ((s.onQuire q f).quire q).dram = (f (s.quire q)).q.dram := by
  obtain ⟨_, _, _, h⟩ := s.onQuire_same q f; rw [h]
@[simp] theorem State.onQuire_quire_rawReads (s : State) (q : QId) (f : Quire → W) : ((s.onQuire q f).quire q).rawReads = (f (s.quire q)).q.rawReads := by
  obtain ⟨_, _, _, h⟩ := s.onQuire_same q f; rw [h]
@[simp] theorem State.onQuire_quire_sramShown (s : State) (q : QId) (f : Quire → W) : ((s.onQuire q f).quire q).sramShown = (f (s.quire q)).q.sramShown := by
  obtain ⟨_, _, _, h⟩ := s.onQuire_same q f; rw [h]
@[simp] theorem State.onQuire_quire_faultCause (s : State) (q : QId) (f : Quire → W) : ((s.onQuire q f).quire q).faultCause = (f (s.quire q)).q.faultCause := by
  obtain ⟨_, _, _, h⟩ := s.onQuire_same q f; rw [h]
@[simp] theorem State.onQuire_quire_qfSticky (s : State) (q : QId) (f : Quire → W) : ((s.onQuire q f).quire q).qfSticky = (f (s.quire q)).q.qfSticky := by
  obtain ⟨_, _, _, h⟩ := s.onQuire_same q f; rw [h]
@[simp] theorem State.onQuire_quire_satPages (s : State) (q : QId) (f : Quire → W) : ((s.onQuire q f).quire q).satPages = (f (s.quire q)).q.satPages := by
  obtain ⟨_, _, _, h⟩ := s.onQuire_same q f; rw [h]
@[simp] theorem State.onQuire_quire_firstError (s : State) (q : QId) (f : Quire → W) : ((s.onQuire q f).quire q).firstError = (f (s.quire q)).q.firstError := by
  obtain ⟨_, _, _, h⟩ := s.onQuire_same q f; rw [h]
@[simp] theorem State.onQuire_quire_secondError (s : State) (q : QId) (f : Quire → W) : ((s.onQuire q f).quire q).secondError = (f (s.quire q)).q.secondError := by
  obtain ⟨_, _, _, h⟩ := s.onQuire_same q f; rw [h]
@[simp] theorem State.onQuire_quire_injections (s : State) (q : QId) (f : Quire → W) : ((s.onQuire q f).quire q).injections = (f (s.quire q)).q.injections := by
  obtain ⟨_, _, _, h⟩ := s.onQuire_same q f; rw [h]
@[simp] theorem State.onQuire_quire_reserveMw (s : State) (q : QId) (f : Quire → W) : ((s.onQuire q f).quire q).reserveMw = (f (s.quire q)).q.reserveMw := by
  obtain ⟨_, _, _, h⟩ := s.onQuire_same q f; rw [h]
@[simp] theorem State.onQuire_quire_reserved (s : State) (q : QId) (f : Quire → W) : ((s.onQuire q f).quire q).reserved = (f (s.quire q)).q.reserved := by
  obtain ⟨_, _, _, h⟩ := s.onQuire_same q f; rw [h]
@[simp] theorem State.onQuire_quire_floorMv (s : State) (q : QId) (f : Quire → W) : ((s.onQuire q f).quire q).floorMv = (f (s.quire q)).q.floorMv := by
  obtain ⟨_, _, _, h⟩ := s.onQuire_same q f; rw [h]
@[simp] theorem State.onQuire_quire_trimMv (s : State) (q : QId) (f : Quire → W) : ((s.onQuire q f).quire q).trimMv = (f (s.quire q)).q.trimMv := by
  obtain ⟨_, _, _, h⟩ := s.onQuire_same q f; rw [h]
@[simp] theorem State.onQuire_quire_highFill (s : State) (q : QId) (f : Quire → W) : ((s.onQuire q f).quire q).highFill = (f (s.quire q)).q.highFill := by
  obtain ⟨_, _, _, h⟩ := s.onQuire_same q f; rw [h]
@[simp] theorem State.onQuire_quire_lowestFill (s : State) (q : QId) (f : Quire → W) : ((s.onQuire q f).quire q).lowestFill = (f (s.quire q)).q.lowestFill := by
  obtain ⟨_, _, _, h⟩ := s.onQuire_same q f; rw [h]
@[simp] theorem State.onQuire_quire_cal (s : State) (q : QId) (f : Quire → W) : ((s.onQuire q f).quire q).cal = (f (s.quire q)).q.cal := by
  obtain ⟨_, _, _, h⟩ := s.onQuire_same q f; rw [h]
@[simp] theorem State.onQuire_quire_fences (s : State) (q : QId) (f : Quire → W) : ((s.onQuire q f).quire q).fences = (f (s.quire q)).q.fences := by
  obtain ⟨_, _, _, h⟩ := s.onQuire_same q f; rw [h]

end Sys2Proof.Machine
end

