-- ==== Sys2Proof/Laws/Engines.lean ====
section
/-! SUPPORT. One instruction of an engine's item: what it makes of the engine when it goes on, and that it changes nothing else (R157, R164). -/

namespace Sys2Proof.Machine

theorem takeInjection_none (c e : Nat) (l : List Injection) (h : injecting c e l = false) : takeInjection c e l = (false, l) := by
  induction l with
  | nil => rfl
  | cons i t ih =>
    simp only [injecting, List.any_cons, Bool.or_eq_false_iff, decide_eq_false_iff_not] at h
    have ht := ih (by simpa [injecting] using h.2)
    simp [takeInjection, h.1, ht]

/-- A check that nothing is injected into says nothing and leaves the quire as it is. -/
theorem W.check_none (w : W) (c e : Nat) (h : injecting c e w.q.injections = false) : w.check c e = (false, w) := by
  simp [W.check, takeInjection_none c e _ h, W.upd, W.when]

@[simp] theorem Engine.x_zero (e : Engine) : e.x 0#5 = 0#64 := by simp [Engine.x]
@[simp] theorem Engine.setX_zero (e : Engine) (v : DWord) : e.setX 0#5 v = e := by simp [Engine.setX]
@[simp] theorem Engine.setX_progLen (e : Engine) (r : BitVec 5) (v : DWord) : (e.setX r v).progLen = e.progLen := by
  unfold Engine.setX; split <;> rfl
@[simp] theorem Engine.setX_pc (e : Engine) (r : BitVec 5) (v : DWord) : (e.setX r v).pc = e.pc := by unfold Engine.setX; split <;> rfl
@[simp] theorem Engine.setX_opsUsed (e : Engine) (r : BitVec 5) (v : DWord) : (e.setX r v).opsUsed = e.opsUsed := by unfold Engine.setX; split <;> rfl
@[simp] theorem Engine.setX_item (e : Engine) (r : BitVec 5) (v : DWord) : (e.setX r v).item = e.item := by unfold Engine.setX; split <;> rfl

/-- The operation count is not seen by a register. -/
@[simp] theorem Engine.x_ops (e : Engine) (n : Nat) (r : BitVec 5) : ({ e with opsUsed := n } : Engine).x r = e.x r := rfl
theorem Engine.setX_ops (e : Engine) (n : Nat) (r : BitVec 5) (v : DWord) : ({ e with opsUsed := n } : Engine).setX r v = { e.setX r v with opsUsed := n } := by
  unfold Engine.setX; split <;> rfl
@[simp] theorem Engine.progLen_ops (e : Engine) (n : Nat) : ({ e with opsUsed := n } : Engine).progLen = e.progLen := rfl
@[simp] theorem Engine.progLen_pc (e : Engine) (n : Nat) : ({ e with pc := n } : Engine).progLen = e.progLen := rfl

/-- The next instruction lies in the program. -/
theorem Engine.next_go (e : Engine) (h : e.pc + 1 < e.progLen) : e.next = .go { e with pc := e.pc + 1 } := by
  have h1 : (0 : Int) ≤ (e.pc : Int) + 1 := by omega
  have h2 : (e.pc : Int) + 1 < e.progLen := by omega
  have h3 : ((e.pc : Int) + 1).toNat = e.pc + 1 := by omega
  simp [Engine.next, Engine.goto, h1, h2, h3]

theorem Engine.goto_go (e : Engine) (t : Nat) (h : t < e.progLen) : e.goto t = .go { e with pc := t } := by
  have h2 : (t : Int) < e.progLen := by omega
  simp [Engine.goto, h2]

theorem Engine.put_go (e : Engine) (r : BitVec 5) (v : DWord) (h : e.pc + 1 < e.progLen) : e.put r v = .go { e.setX r v with pc := e.pc + 1 } := by
  simp [Engine.put, Engine.next_go, h]

/-- An instruction that breaks no rule runs at its cost. -/
theorem issue_ok (cost : Nat) (e : Engine) (k : Engine → EStep) (h : e.algo = true → e.opsUsed + cost ≤ e.opsBound) :
    issue true cost e k = k { e with opsUsed := e.opsUsed + cost } := by
  unfold issue
  cases ha : e.algo
  · simp
  · have := h ha
    simp [Nat.not_lt.mpr this]

/-- A reserved field that is not 0 traps ILLEGAL (R163, R184). -/
@[simp] theorem issue_illegal (cost : Nat) (e : Engine) (k : Engine → EStep) : issue false cost e k = .trap trapIllegal e := by simp [issue]

/-! ### Requests that concern the log alone -/

/-- The request is for an entry of the log. -/
def Fx.logs : Fx → Bool
  | .log .. | .saturated _ => true
  | _ => false

theorem State.runFx_logs (s : State) (q : QId) (f : Fx) (h : f.logs = true) :
    ∃ g c, State.runFx q s f = { s with log := g, collector := { s.collector with satPages := c } } := by
  cases f <;> simp only [Fx.logs, Bool.false_eq_true] at h <;> exact State.logEvent_shape _ _

theorem State.runFxs_logs (q : QId) (l : List Fx) (s : State) (h : ∀ f ∈ l, f.logs = true) :
    ∃ g c, l.foldl (State.runFx q) s = { s with log := g, collector := { s.collector with satPages := c } } := by
  induction l generalizing s with
  | nil => exact ⟨s.log, s.collector.satPages, rfl⟩
  | cons f l ih =>
    obtain ⟨g, c, h1⟩ := State.runFx_logs s q f (h f List.mem_cons_self)
    obtain ⟨g', c', h2⟩ := ih (State.runFx q s f) fun x hx => h x (List.mem_cons_of_mem f hx)
    exact ⟨g', c', by rw [List.foldl_cons, h2, h1]⟩

/-- A state that differs from `s` by quire `q`, the log and the reports lies within `q`. -/
theorem State.within_setQuire (s : State) (q : QId) (x : Quire) (g : SinterLog) (r : List Report) (c : BitVec 32) :
    s.Within { s.setQuire q x with log := g, collector := { s.collector with reports := r, satPages := c } } q :=
  ⟨fun r hr => by simp [State.quire, State.setQuire, Fin.val_ne_of_ne hr.symm], rfl⟩

/-! ### The count of corrected reads (R245) -/

theorem satAdd_eight (v n : Nat) : (satAdd 8 v n).1 = min (v + n) 255 := by
  unfold satAdd; dsimp only; split <;> dsimp only <;> omega

/-- A count touches the engines and the saturation bits of its quire, and no engine's item. -/
theorem W.countEcc_keeps (w : W) (e : Nat) (o : LineOutcome) :
    ∃ g m fx, w.countEcc e o = { q := { w.q with engines := g, satPages := m }, fx := w.fx ++ fx } ∧ (∀ f ∈ fx, f.logs = true)
      ∧ (({ w.q with engines := g } : Quire).engine e).item = (w.q.engine e).item := by
  unfold W.countEcc
  split
  · exact ⟨w.q.engines, w.q.satPages, [], by simp, by simp, rfl⟩
  · extract_lets r v
    have hv : (v.q.engine e).item = (w.q.engine e).item := by simp [v, W.upd, Quire.engine, Quire.setEngine, sfind_sset_same]
    split
    · exact ⟨v.q.engines, setBit w.q.satPages 0x10, [.saturated _], rfl, by simp [Fx.logs], hv⟩
    · exact ⟨v.q.engines, w.q.satPages, [], by rw [List.append_nil]; rfl, by simp, hv⟩

/-- One read counts when it was corrected, and touches the engine's count and the saturation bits. -/
theorem W.countEcc_shape (x : Quire) (e : Nat) (y : Engine) (m : BitVec 32) (fx : List Fx) (o : LineOutcome) (hfx : ∀ f ∈ fx, f.logs = true) :
    ∃ c m' fx', W.countEcc { q := { x.setEngine e y with satPages := m }, fx := fx } e o
        = { q := { x.setEngine e { y with eccCorrected := c } with satPages := m' }, fx := fx' }
      ∧ (∀ f ∈ fx', f.logs = true) ∧ c.toNat = min (y.eccCorrected.toNat + [o].count .corrected) 255 := by
  have hy : ({ x.setEngine e y with satPages := m } : Quire).engine e = y := by simp [Quire.engine, Quire.setEngine, sfind_sset_same]
  have hlt := y.eccCorrected.isLt
  by_cases ho : o = .corrected
  · subst ho
    have hc : ∀ v, (BitVec.ofNat 8 (satAdd 8 y.eccCorrected.toNat v).1).toNat = min (y.eccCorrected.toNat + v) 255 := by
      intro v; rw [satAdd_eight, BitVec.toNat_ofNat]; omega
    unfold W.countEcc
    simp only [hy, ne_eq, not_true_eq_false, if_false, W.upd, W.ask]
    split
    · refine ⟨_, _, _, by simp only [Quire.setEngine, sset_sset_same]; rfl, ?_, by simpa using hc 1⟩
      intro f hf
      rcases List.mem_append.mp hf with h | h
      · exact hfx f h
      · rw [List.mem_singleton.mp h]; rfl
    · exact ⟨_, m, fx, by simp only [Quire.setEngine, sset_sset_same]; rfl, hfx, by simpa using hc 1⟩
  · refine ⟨y.eccCorrected, m, fx, by simp [W.countEcc, ho], hfx, ?_⟩
    rw [List.count_singleton]; simp [ho]; omega

/-! ### One instruction -/

/-- An instruction none of whose reads is lost comes to its end, and counts what was corrected. -/
theorem W.runOn_settles (x : Quire) (e : Nat) (word : Word) (o : StoreReads) (reads : Engine → Bool) (step : Engine → EStep) (it : Item)
    (hi : (x.engine e).item = some it) (hf : (x.engine e).fetches word = true) (hj : injecting 0x17 e x.injections = false)
    (ho : ∀ r ∈ storesGive (reads (x.engine e)) o, r ≠ .uncorrectable) :
    x.w.runOn e word o reads step = (storesGive (reads (x.engine e)) o).foldl (fun w r => w.countEcc e r) (x.w.settle e (x.engine e) it (step (x.engine e))) := by
  have hc : W.check x.w 0x17 e = (false, x.w) := W.check_none _ _ _ hj
  have hq : x.w.q = x := rfl
  cases hr : reads (x.engine e) <;> simp only [hr, storesGive, List.mem_cons, List.not_mem_nil, or_false, forall_eq_or_imp, forall_eq, if_true, if_false, Bool.false_eq_true] at ho <;>
    simp [W.runOn, hq, hi, hf, hc, hr, ho, storesGive]

/-- An instruction that goes on, with no read of its stores lost, sets its engine and counts what was corrected. -/
theorem W.runOn_go (x : Quire) (e : Nat) (word : Word) (o : StoreReads) (reads : Engine → Bool) (step : Engine → EStep) (y : Engine)
    (hi : (x.engine e).item.isSome = true) (hf : (x.engine e).fetches word = true) (hj : injecting 0x17 e x.injections = false)
    (ho : ∀ r ∈ storesGive (reads (x.engine e)) o, r ≠ .uncorrectable) (hs : step (x.engine e) = .go y) :
    x.w.runOn e word o reads step = (storesGive (reads (x.engine e)) o).foldl (fun w r => w.countEcc e r) { q := x.setEngine e y, fx := [] } := by
  obtain ⟨it, hit⟩ := Option.isSome_iff_exists.mp hi
  rw [W.runOn_settles x e word o reads step it hit hf hj ho, hs]
  rfl

/-- A fetch that cannot be corrected ends the item whatever the instruction (R244). -/
theorem W.runOn_lostFetch (x : Quire) (e : Nat) (word : Word) (o : StoreReads) (reads : Engine → Bool) (step : Engine → EStep) (it : Item)
    (hi : (x.engine e).item = some it) (hf : (x.engine e).fetches word = true) (hj : injecting 0x17 e x.injections = false)
    (ho : o.fetch = .uncorrectable) : x.w.runOn e word o reads step = x.w.storeError e (x.engine e) it (x.engine e).pc false := by
  have hc : W.check x.w 0x17 e = (false, x.w) := W.check_none _ _ _ hj
  have hq : x.w.q = x := rfl
  simp [W.runOn, hq, hi, hf, hc, ho]

/-- A read of the data store that cannot be corrected ends the item of an instruction that reads there (R244). -/
theorem W.runOn_lostData (x : Quire) (e : Nat) (word : Word) (o : StoreReads) (reads : Engine → Bool) (step : Engine → EStep) (it : Item)
    (hi : (x.engine e).item = some it) (hf : (x.engine e).fetches word = true) (hj : injecting 0x17 e x.injections = false)
    (hr : reads (x.engine e) = true) (hfe : o.fetch ≠ .uncorrectable) (ho : o.data = .uncorrectable) :
    x.w.runOn e word o reads step = (x.w.storeError e (x.engine e) it o.entry false).countEcc e o.fetch := by
  have hc : W.check x.w 0x17 e = (false, x.w) := W.check_none _ _ _ hj
  have hq : x.w.q = x := rfl
  simp [W.runOn, hq, hi, hf, hc, hr, hfe, ho]

/-- A lost read of the stores ends the item, with a count of the fetch that came before it (R244, R245). -/
theorem W.runOn_lost (x : Quire) (e : Nat) (word : Word) (o : StoreReads) (reads : Engine → Bool) (step : Engine → EStep) (it : Item)
    (hi : (x.engine e).item = some it) (hf : (x.engine e).fetches word = true) (hj : injecting 0x17 e x.injections = false)
    (ho : .uncorrectable ∈ storesGive (reads (x.engine e)) o) :
    x.w.runOn e word o reads step = x.w.storeError e (x.engine e) it (x.engine e).pc false
      ∨ ∃ r n, x.w.runOn e word o reads step = (x.w.storeError e (x.engine e) it n false).countEcc e r := by
  by_cases hfe : o.fetch = .uncorrectable
  · exact .inl (W.runOn_lostFetch x e word o reads step it hi hf hj hfe)
  · cases hr : reads (x.engine e)
    · have : LineOutcome.uncorrectable = o.fetch := by simpa [hr, storesGive] using ho
      exact absurd this.symm hfe
    · have : LineOutcome.uncorrectable = o.fetch ∨ LineOutcome.uncorrectable = o.data := by simpa [hr, storesGive] using ho
      exact .inr ⟨_, _, W.runOn_lostData x e word o reads step it hi hf hj hr hfe (this.resolve_left fun h => hfe h.symm).symm⟩

/-- An engine that runs no item, or is at another word, does nothing. -/
theorem W.runOn_idle (x : Quire) (e : Nat) (word : Word) (o : StoreReads) (reads : Engine → Bool) (step : Engine → EStep)
    (h : x.fetching e word = false) : x.w.runOn e word o reads step = x.w := by
  unfold Quire.fetching at h
  have hq : x.w.q = x := rfl
  cases hit : (x.engine e).item <;> simp_all [W.runOn]

/-- Good reads count nothing. -/
theorem W.countEcc_goods (w : W) (e : Nat) (l : List LineOutcome) (h : ∀ r ∈ l, r = .good) : l.foldl (fun w r => w.countEcc e r) w = w := by
  induction l with
  | nil => rfl
  | cons r l ih => simp [h r List.mem_cons_self, W.countEcc]; simpa [W.countEcc] using ih fun r hr => h r (List.mem_cons_of_mem _ hr)

/-- An instruction that goes on, with good reads of its stores, changes its engine and nothing else of the chip. -/
theorem State.runOn_go (s : State) (q : QId) (e : EngId) (word : Word) (o : StoreReads) (reads : Engine → Bool) (step : Engine → EStep) (y : Engine)
    (hi : ((s.quire q).engine e.val).item.isSome = true) (hf : ((s.quire q).engine e.val).fetches word = true)
    (hj : injecting 0x17 e.val (s.quire q).injections = false) (ho : ∀ r ∈ storesGive (reads ((s.quire q).engine e.val)) o, r = .good)
    (hs : step ((s.quire q).engine e.val) = .go y) :
    (s.onQuire q fun x => x.w.runOn e.val word o reads step) = s.withEngine q e y := by
  have h := W.runOn_go (s.quire q) e.val word o reads step y hi hf hj (fun r hr => by simp [ho r hr]) hs
  rw [W.countEcc_goods _ _ _ ho] at h
  rw [State.onQuire_quiet _ _ _ (by rw [h]), h]
  rfl

/-! ### Instructions that write a register -/

theorem alu_go (f : FmtA) (cost : Nat) (g : DWord → DWord → DWord) (x : Engine) (h0 : f.imm = 0) (hp : x.pc + 1 < x.progLen)
    (ha : x.algo = true → x.opsUsed + cost ≤ x.opsBound) :
    alu f cost g x = .go { x.setX f.rd (g (x.x f.ra) (x.x f.rb)) with opsUsed := x.opsUsed + cost, pc := x.pc + 1 } := by
  have h : alu f cost g x = issue true cost x fun e => e.put f.rd (g (e.x f.ra) (e.x f.rb)) := by simp [alu, h0]
  rw [h, issue_ok _ _ _ ha, Engine.put_go _ _ _ (by simpa using hp), Engine.setX_ops]
  rfl

theorem aluImm_go (f : FmtB) (g : DWord → DWord) (x : Engine) (hp : x.pc + 1 < x.progLen) (ha : x.algo = true → x.opsUsed + 1 ≤ x.opsBound) :
    aluImm f g x = .go { x.setX f.rd (g (x.x f.ra)) with opsUsed := x.opsUsed + 1, pc := x.pc + 1 } := by
  rw [aluImm, issue_ok _ _ _ ha, Engine.put_go _ _ _ (by simpa using hp), Engine.setX_ops]
  rfl

/-- An instruction whose fields are legal and whose work is one register write. -/
theorem issuePut_go (legal : Bool) (r : BitVec 5) (cost : Nat) (v : Engine → DWord) (x : Engine) (hl : legal = true) (hp : x.pc + 1 < x.progLen)
    (ha : x.algo = true → x.opsUsed + cost ≤ x.opsBound) :
    issue legal cost x (fun e => e.put r (v e)) =
      .go { x.setX r (v { x with opsUsed := x.opsUsed + cost }) with opsUsed := x.opsUsed + cost, pc := x.pc + 1 } := by
  rw [hl, issue_ok _ _ _ ha, Engine.put_go _ _ _ (by simpa using hp), Engine.setX_ops]

/-! ### Traps (R184, R187) -/

/-- A counter of a quire asks at most for a COUNTER_SATURATED event, and touches its own word and the saturation bits. -/
theorem W.bump_shape (w : W) (k n : Nat) :
    ∃ v m fx, w.bump k n = { q := { w.q with live := rput k v w.q.live, satPages := m }, fx := w.fx ++ fx } ∧ (∀ x ∈ fx, x.logs = true)
      ∧ v = BitVec.ofNat 32 (satAdd 32 (w.q.liveReg k).toNat n).1 := by
  unfold W.bump
  extract_lets r w'
  split
  · exact ⟨BitVec.ofNat 32 r.1, setBit w.q.satPages (k / 2 ^ 20), [.saturated k], rfl, by simp [Fx.logs], rfl⟩
  · refine ⟨BitVec.ofNat 32 r.1, w.q.satPages, [], ?_, by simp, rfl⟩
    rw [List.append_nil]
    rfl

@[simp] theorem Quire.engine_setEngine_same (q : Quire) (e : Nat) (x : Engine) : (q.setEngine e x).engine e = x := by
  simp [Quire.engine, Quire.setEngine, sfind_sset_same]

@[simp] theorem Quire.engine_setEngine_other (q : Quire) (e j : Nat) (x : Engine) (h : j ≠ e) : (q.setEngine e x).engine j = q.engine j := by
  simp [Quire.engine, Quire.setEngine, sfind_sset_other _ _ _ _ h]

/-- A step of the regions touches the regions alone. -/
theorem Quire.foldl_setRegion (l : List Nat) (f : Quire → Nat → Quire) (q : Quire) (hf : ∀ x r, ∃ g, f x r = { x with regions := g }) :
    ∃ g, l.foldl f q = { q with regions := g } := by
  induction l generalizing q with
  | nil => exact ⟨q.regions, rfl⟩
  | cons r l ih =>
    obtain ⟨g, h⟩ := hf q r
    obtain ⟨g', h'⟩ := ih (f q r)
    exact ⟨g', by rw [List.foldl_cons, h', h]⟩

theorem Quire.repairSettle_shape (q : Quire) : ∃ g, q.repairSettle = { q with regions := g } := by
  unfold Quire.repairSettle
  split
  · exact ⟨q.regions, rfl⟩
  · refine Quire.foldl_setRegion _ _ q fun x r => ?_
    dsimp only
    split
    · exact ⟨_, rfl⟩
    · exact ⟨x.regions, rfl⟩

/-- An idle engine stays idle when items are dropped. -/
theorem Quire.dropBg_idle (q : Quire) (n e : Nat) (h : (q.engine e).item = none) : ((q.dropBg n).engine e).item = none := by
  have key : ∀ l : Sparse Engine, ((sfind e l).getD .reset).item = none →
      ((sfind e (l.map fun (x : Nat × Engine) => match x.2.item with
        | some it => if it.seq = n then (x.1, { x.2 with item := none }) else x
        | none => x)).getD .reset).item = none := by
    intro l
    induction l with
    | nil => exact id
    | cons x t ih =>
      obtain ⟨i, y⟩ := x
      intro hx
      by_cases hi : i = e
      · subst hi
        simp only [sfind, if_true, Option.getD_some] at hx
        simp [sfind, hx]
      · simp only [sfind, hi, if_false] at hx
        cases hy : y.item with
        | none => simpa [hy, sfind, hi] using ih hx
        | some it => by_cases hs : it.seq = n <;> simpa [hy, hs, sfind, hi] using ih hx
  exact key q.engines h

theorem Quire.repairTrap_shape (q : Quire) (it : Item) :
    ∃ g, q.repairTrap it = { q.dropBg it.seq with regions := g } := by
  unfold Quire.repairTrap
  dsimp only
  split
  · exact ⟨(q.dropBg it.seq).regions, rfl⟩
  · exact ⟨_, rfl⟩

/-- A trap is counted, shown in `LAST_TRAP`, and asks for entries of the log alone. -/
theorem W.noteTrap_shape (w : W) (e pc : Nat) (code : Byte) (ctx : Nat) (reported : Bool) :
    ∃ v m fx, w.noteTrap e pc code ctx reported
        = { q := { w.q with live := rput (rk 0x10 0x130) (packW [(24, code.toNat), (16, e), (0, pc)]) (rput (rk 0x10 0x110) v w.q.live), satPages := m }, fx := w.fx ++ fx }
      ∧ ∀ f ∈ fx, f.logs = true := by
  obtain ⟨v, m, fx, hb, hfx, -⟩ := w.bump_shape (rk 0x10 0x110) 1
  cases reported
  · refine ⟨v, m, fx ++ [Fx.log 0x11 2 (packW [(24, code.toNat), (16, e), (0, pc)]) (BitVec.ofNat 32 ctx) 0 false], by simp [W.noteTrap, hb, W.setLive, W.upd, W.log, W.ask, Quire.setLive], ?_⟩
    intro f hf
    rcases List.mem_append.mp hf with h | h
    · exact hfx f h
    · rw [List.mem_singleton.mp h]; rfl
  · exact ⟨v, m, fx, by simp [W.noteTrap, hb, W.setLive, W.upd, Quire.setLive], hfx⟩

/-- A trapping item leaves its engine idle and `LAST_TRAP` saying where, touches no fence, and asks for entries of the log alone; the slot of its pattern chunk holds a trap code. -/
theorem W.itemTrap_shape (y : Quire) (e : Nat) (x : Engine) (it : Item) (code : Byte) (reported : Bool) :
    let w := y.w.itemTrap e x it code reported
    (∀ f ∈ w.fx, f.logs = true) ∧ (w.q.engine e).item = none ∧ w.q.fences = y.fences
      ∧ w.q.liveReg (rk 0x10 0x130) = packW [(24, code.toNat), (16, e), (0, x.pc)]
      ∧ (it.kind = .pattern → ∀ sl ∈ w.q.slots, sl.seq = it.seq → sl.trapped.isSome = true) := by
  obtain ⟨v, m, fx, hn, hfx⟩ := (W.upd y.w fun q => q.setEngine e { x with item := none }).noteTrap_shape e x.pc code it.context reported
  have hl : ∀ f ∈ ([] : List Fx) ++ fx, f.logs = true := by simpa using hfx
  have hi : ((y.setEngine e { x with item := none }).engine e).item = none := by simp
  simp only [W.itemTrap, hn]
  simp only [W.upd, Quire.w]
  cases hk : it.kind
  case compress =>
    obtain ⟨g, hg⟩ := Quire.repairSettle_shape { y.setEngine e { x with item := none } with
      live := rput (rk 0x10 0x130) (packW [(24, code.toNat), (16, e), (0, x.pc)]) (rput (rk 0x10 0x110) v (y.setEngine e { x with item := none }).live), satPages := m }
    simp only [hg]
    exact ⟨hl, hi, rfl, by simp [Quire.liveReg], by simp⟩
  case repair =>
    obtain ⟨g, hg⟩ := Quire.repairTrap_shape { y.setEngine e { x with item := none } with
      live := rput (rk 0x10 0x130) (packW [(24, code.toNat), (16, e), (0, x.pc)]) (rput (rk 0x10 0x110) v (y.setEngine e { x with item := none }).live), satPages := m } it
    simp only [hg]
    exact ⟨hl, Quire.dropBg_idle _ _ _ hi, rfl, by simp [Quire.liveReg, Quire.dropBg], by simp⟩
  case pattern =>
    refine ⟨hl, hi, rfl, by simp [Quire.liveReg], ?_⟩
    intro _ sl hsl hs
    simp only [List.mem_map] at hsl
    obtain ⟨s0, -, rfl⟩ := hsl
    by_cases h : s0.seq = it.seq
    · cases hc : it.copy <;> simp [h]
    · simp [h] at hs
  all_goals
    exact ⟨hl, hi, rfl, by simp [Quire.liveReg, Quire.failDerived], by simp⟩

/-! ### Steps of a quire that ask for entries of the log, and for one report -/

/-- A step of quire `q` that asks for entries of the log alone lies within the quire and reports nothing. -/
theorem State.onQuire_logs (s : State) (q : QId) (f : Quire → W) (h : ∀ x ∈ (f (s.quire q)).fx, x.logs = true) :
    s.Within (s.onQuire q f) q ∧ (s.onQuire q f).collector.reports = s.collector.reports ∧ (s.onQuire q f).quire q = (f (s.quire q)).q := by
  obtain ⟨g, c, hr⟩ := State.runFxs_logs q _ (s.setQuire q (f (s.quire q)).q) h
  have ht : s.onQuire q f = { s.setQuire q (f (s.quire q)).q with log := g, collector := { s.collector with reports := s.collector.reports, satPages := c } } := hr
  rw [ht]
  exact ⟨State.within_setQuire s q _ g s.collector.reports c, rfl, by simp [State.quire, State.setQuire]⟩

/-- A step of quire `q` that asks for entries of the log and makes one report lies within the quire. -/
theorem State.onQuire_report (s : State) (q : QId) (f : Quire → W) (a b : List Fx) (sev : Severity) (checker : Nat) (el cause : Byte) (d : Int) (inj : Bool)
    (h : (f (s.quire q)).fx = a ++ .report sev checker el cause d inj :: b) (ha : ∀ x ∈ a, x.logs = true) (hb : ∀ x ∈ b, x.logs = true) :
    s.Within (s.onQuire q f) q ∧ (s.onQuire q f).quire q = (f (s.quire q)).q
      ∧ ∃ r, (s.onQuire q f).collector.reports = s.collector.reports ++ [r] ∧ r.severity = sev ∧ r.checker = checker ∧ r.quire = some q ∧ r.element = el
          ∧ r.cause = cause ∧ r.injected = inj := by
  obtain ⟨g, c, h1⟩ := State.runFxs_logs q a (s.setQuire q (f (s.quire q)).q) ha
  obtain ⟨g', c', h2⟩ := State.runFxs_logs q b (State.runFx q (a.foldl (State.runFx q) (s.setQuire q (f (s.quire q)).q)) (.report sev checker el cause d inj)) hb
  have ht : s.onQuire q f = b.foldl (State.runFx q) (State.runFx q (a.foldl (State.runFx q) (s.setQuire q (f (s.quire q)).q)) (.report sev checker el cause d inj)) := by
    simp [State.onQuire, h]
  rw [ht, h2, h1]
  simp only [State.runFx, State.report]
  exact ⟨State.within_setQuire s q _ g' _ c', by simp [State.quire, State.setQuire], _, rfl, rfl, rfl, rfl, rfl, rfl, rfl⟩

/-- A counted read changes neither what a trap leaves nor what it asks for. -/
theorem W.countEcc_after (w : W) (e : Nat) (o : LineOutcome) (hi : (w.q.engine e).item = none) :
    ((w.countEcc e o).q.engine e).item = none ∧ (w.countEcc e o).q.fences = w.q.fences ∧ (w.countEcc e o).q.live = w.q.live
      ∧ (w.countEcc e o).q.slots = w.q.slots ∧ ∃ fx, (w.countEcc e o).fx = w.fx ++ fx ∧ ∀ f ∈ fx, f.logs = true := by
  obtain ⟨g, m, fx, h, hfx, hit⟩ := w.countEcc_keeps e o
  rw [h]
  exact ⟨hit.trans hi, rfl, rfl, rfl, fx, rfl, hfx⟩

/-- Nor do several. -/
theorem W.countEccs_after (e : Nat) (l : List LineOutcome) (w : W) (hi : (w.q.engine e).item = none) :
    let v := l.foldl (fun w r => w.countEcc e r) w
    (v.q.engine e).item = none ∧ v.q.fences = w.q.fences ∧ v.q.live = w.q.live ∧ v.q.slots = w.q.slots ∧ ∃ fx, v.fx = w.fx ++ fx ∧ ∀ f ∈ fx, f.logs = true := by
  induction l generalizing w with
  | nil => exact ⟨hi, rfl, rfl, rfl, [], by simp, by simp⟩
  | cons r l ih =>
    obtain ⟨h1, h2, h3, h4, fx, h5, h6⟩ := w.countEcc_after e r hi
    obtain ⟨g1, g2, g3, g4, fy, g5, g6⟩ := ih (w.countEcc e r) h1
    refine ⟨g1, g2.trans h2, g3.trans h3, g4.trans h4, fx ++ fy, by simpa [h5] using g5, ?_⟩
    intro f hf
    rcases List.mem_append.mp hf with h | h
    · exact h6 f h
    · exact g6 f h

/-- Counted reads of an engine that goes on: its count grows by those corrected, up to all-ones (R245, R776). -/
theorem W.countEccs_shape (x : Quire) (e : Nat) (l : List LineOutcome) (y : Engine) (m : BitVec 32) (fx : List Fx) (hfx : ∀ f ∈ fx, f.logs = true) :
    ∃ c m' fx', l.foldl (fun w r => w.countEcc e r) ({ q := { x.setEngine e y with satPages := m }, fx := fx } : W)
        = { q := { x.setEngine e { y with eccCorrected := c } with satPages := m' }, fx := fx' }
      ∧ (∀ f ∈ fx', f.logs = true) ∧ c.toNat = min (y.eccCorrected.toNat + l.count .corrected) 255 := by
  induction l generalizing y m fx with
  | nil => exact ⟨y.eccCorrected, m, fx, rfl, hfx, by have := y.eccCorrected.isLt; simp; omega⟩
  | cons r l ih =>
    obtain ⟨c, m', fx', h1, h2, h3⟩ := W.countEcc_shape x e y m fx r hfx
    obtain ⟨c', m'', fx'', g1, g2, g3⟩ := ih { y with eccCorrected := c } m' fx' h2
    refine ⟨c', m'', fx'', by rw [List.foldl_cons, h1]; exact g1, g2, ?_⟩
    rw [g3, h3, List.count_cons, List.count_cons, List.count_nil]
    omega

/-- The stores of an engine are lost (R244). -/
theorem State.loses (s : State) (q : QId) (e : EngId) (f : Quire → W) (it : Item) (n : Nat) (hi : (s.engineOf q e).item = some it)
    (h : f (s.quire q) = (s.quire q).w.storeError e.val (s.engineOf q e) it n false
      ∨ ∃ o n, f (s.quire q) = ((s.quire q).w.storeError e.val (s.engineOf q e) it n false).countEcc e.val o) :
    s.LosesStores q e (s.onQuire q f) := by
  obtain ⟨hfx, hidle, -, hlast, hslots⟩ := W.itemTrap_shape (s.quire q) e.val (s.engineOf q e) it trapEcc true
  have hbit : ∀ x : BitVec 128, (x ||| BitVec.ofNat 128 (2 ^ e.val)).getLsbD e.val = true := by
    intro x
    have he := e.isLt
    simp only [BitVec.getLsbD_or, BitVec.getLsbD_ofNat, Nat.testBit_two_pow_self, he, decide_true, Bool.and_true, Bool.or_true]
  have main : ∀ w : W, (w.q.engine e.val).item = none → w.q.fenced e.val = true →
      w.q.live = ((s.quire q).w.itemTrap e.val (s.engineOf q e) it trapEcc true).q.live →
      w.q.slots = ((s.quire q).w.itemTrap e.val (s.engineOf q e) it trapEcc true).q.slots →
      (∃ (d : Int) (fx : List Fx), w.fx = ((s.quire q).w.itemTrap e.val (s.engineOf q e) it trapEcc true).fx ++ .report .alert 0x17 (BitVec.ofNat 8 e.val) 0 d false :: fx ∧ ∀ f ∈ fx, f.logs = true) →
      f (s.quire q) = w → s.LosesStores q e (s.onQuire q f) := by
    intro w h1 h2 h3 h4 ⟨d, fx, h5, h6⟩ hw
    obtain ⟨hin, hq, r, hr, hs, hc, hrq, hel, -, -⟩ := s.onQuire_report q f _ fx _ _ _ _ _ _ (by rw [hw, h5]) hfx h6
    rw [hw] at hq
    refine ⟨hin, by rw [State.engineOf, hq]; exact h1, by rw [hq]; exact h2, ?_, ?_, r, hr, hs, hc, hrq, hel⟩
    · rw [hq, Quire.liveReg, h3]; exact hlast
    · intro it' hi' hk
      rw [hi] at hi'
      cases hi'
      rw [hq, h4]
      exact hslots hk
  rcases h with h | ⟨o, n, h⟩
  · exact main ((s.quire q).w.storeError e.val (s.engineOf q e) it n false) hidle (hbit _) rfl rfl ⟨n, [], rfl, by simp⟩ h
  · obtain ⟨h1, h2, h3, h4, fx, h5, h6⟩ := W.countEcc_after ((s.quire q).w.storeError e.val (s.engineOf q e) it n false) e.val o hidle
    exact main _ h1 (by rw [Quire.fenced, h2]; exact hbit _) h3 h4 ⟨n, fx, by rw [h5]; simp [W.storeError, W.report, W.ask, W.upd], h6⟩ h

/-! ### Instructions on the chip -/

/-- An instruction that would go on ends in one of the three ways of `State.Ends`. -/
theorem State.ends_go (s : State) (q : QId) (e : EngId) (word : Word) (reads : Engine → Bool) (step : Engine → EStep) (y : Engine)
    (h : s.EngineAt q e word) (hs : step (s.engineOf q e) = .go y) :
    s.Ends q e (fun o => .next (s.onQuire q fun x => x.w.runOn e.val word o reads step)) y (reads (s.engineOf q e)) := by
  obtain ⟨hi, hf, hj⟩ := h
  obtain ⟨it, hit⟩ := Option.isSome_iff_exists.mp hi
  intro o
  refine ⟨fun hg => congrArg _ (State.runOn_go s q e word o reads step y hi hf hj hg hs), fun hg => ⟨_, rfl, ?_⟩, fun hu => ⟨_, rfl, ?_⟩⟩
  · have h := W.runOn_go (s.quire q) e.val word o reads step y hi hf hj hg hs
    obtain ⟨c, m, fx, h1, hfx, hc⟩ := W.countEccs_shape (s.quire q) e.val (storesGive (reads (s.engineOf q e)) o) y (s.quire q).satPages [] (by simp)
    have hw := h.trans h1
    obtain ⟨h1, h2, h3⟩ := s.onQuire_logs q (fun x => x.w.runOn e.val word o reads step) (by rw [hw]; exact hfx)
    exact ⟨h1, h2, c, m, hc, by rw [h3, hw]⟩
  · exact s.loses q e _ it _ hit (W.runOn_lost _ _ _ _ _ _ it hit hf hj hu)

/-- An instruction that traps ends the item of its engine, with the trap's code or, when one of its reads is lost, with LOCAL_ECC. -/
theorem State.ends_trap (s : State) (q : QId) (e : EngId) (word : Word) (reads : Engine → Bool) (step : Engine → EStep) (y : Engine) (code : Byte)
    (h : s.EngineAt q e word) (hs : step (s.engineOf q e) = .trap code y) (o : StoreReads) :
    let t := s.onQuire q fun x => x.w.runOn e.val word o reads step
    ((∀ r ∈ storesGive (reads (s.engineOf q e)) o, r ≠ .uncorrectable) →
      (t.engineOf q e).item = none ∧ (t.quire q).liveReg (rk 0x10 0x130) = packW [(24, code.toNat), (16, e.val), (0, (s.engineOf q e).pc)]
        ∧ ∀ it, (s.engineOf q e).item = some it → it.kind = .pattern → ∀ sl ∈ (t.quire q).slots, sl.seq = it.seq → sl.trapped.isSome = true)
    ∧ (.uncorrectable ∈ storesGive (reads (s.engineOf q e)) o → s.LosesStores q e t) := by
  obtain ⟨hi, hf, hj⟩ := h
  obtain ⟨it, hit⟩ := Option.isSome_iff_exists.mp hi
  refine ⟨fun hg => ?_, fun hu => s.loses q e _ it _ hit (W.runOn_lost _ _ _ _ _ _ it hit hf hj hu)⟩
  have hw : (s.quire q).w.runOn e.val word o reads step = (storesGive (reads (s.engineOf q e)) o).foldl (fun w r => w.countEcc e.val r)
      ((s.quire q).w.itemTrap e.val { y with pc := (s.engineOf q e).pc } it code) := by
    have h := W.runOn_settles (s.quire q) e.val word o reads step it hit hf hj hg
    have hs' : step ((s.quire q).engine e.val) = .trap code y := hs
    rw [hs'] at h
    exact h
  obtain ⟨h1, h2, -, h4, h5⟩ := W.itemTrap_shape (s.quire q) e.val { y with pc := (s.engineOf q e).pc } it code false
  obtain ⟨g1, -, g3, g4, fx, g5, g6⟩ := W.countEccs_after e.val (storesGive (reads (s.engineOf q e)) o) ((s.quire q).w.itemTrap e.val { y with pc := (s.engineOf q e).pc } it code) h2
  have hq := (s.onQuire_logs q (fun x => x.w.runOn e.val word o reads step) (by
    rw [hw]
    intro f hf
    rcases List.mem_append.mp ((g5 ▸ hf : f ∈ _ ++ fx)) with h | h
    · exact h1 f h
    · exact g6 f h)).2.2
  rw [hw] at hq
  refine ⟨by rw [State.engineOf, hq]; exact g1, by rw [hq, Quire.liveReg, g3]; exact h4, ?_⟩
  intro it' hi' hk
  rw [hit] at hi'
  cases hi'
  rw [hq, g4]
  exact h5 hk

end Sys2Proof.Machine
end

