-- ==== Sys2Proof/Laws/Line.lean ====
section
/-! SUPPORT. Line coding: what a receiver reads of a line is what the transmitter of the same precoding put on it (R511, R512, R515); what error injection and adaptation leave alone (R521, R570). -/

namespace Sys2Proof.Machine

/-- The receiver undoes the precoding (R512). -/
@[simp] theorem unprecode_precode (on : Bool) (last : Fin 4) (l : List (Fin 4)) : unprecode on last (precode on last l) = l := by
  induction l generalizing last with
  | nil => rfl
  | cons g rest ih => cases on <;> simp [precode, unprecode, ih]

@[simp] theorem length_precode (on : Bool) (last : Fin 4) (l : List (Fin 4)) : (precode on last l).length = l.length := by
  induction l generalizing last with
  | nil => rfl
  | cons g rest ih => simp [precode, ih]

/-- A symbol level stands for one pair of bits (R511). -/
theorem grayPair_level (v : Nat) (h : v < 4) : grayPair (Fin.ofNat 4 (grayPair v) : Fin 4).val = v := by
  interval_cases v <;> rfl

/-- Symbols of 10 bits come back from their PAM4 symbols (R511, R515). -/
theorem wordOf_pamOf (l : List Nat) (h : ∀ c ∈ l, c < 1024) : wordOf (l.flatMap pamOf) = l := by
  induction l with
  | nil => rfl
  | cons c rest ih =>
    have hc := h c (by simp)
    have g : ∀ i, grayPair (Fin.ofNat 4 (grayPair (c / 4 ^ i % 4)) : Fin 4).val = c / 4 ^ i % 4 := fun i => grayPair_level _ (Nat.mod_lt _ (by decide))
    have := ih fun y hy => h y (by simp [hy])
    simp only [List.flatMap_cons, pamOf, List.range_succ, List.range_zero, List.map_cons, List.map_nil, List.nil_append, List.cons_append, wordOf, g, this]
    congr 1; omega

/-- What a lane reads of a line is what the Reed-Solomon decoder makes of the symbols on it (R511, R512, R514, R515). -/
theorem Lane.decode_line (x : Lane) (symbols : List Nat) (h : ∀ c ∈ symbols, c < 1024) :
    x.decode (precode x.rxPrecode x.rxLast (symbols.flatMap pamOf))
      = match rsDecode symbols with | some r => .good (Fin.ofNat 16 r.1) (messageOf r.2).1 (messageOf r.2).2 | none => .bad := by
  cases hd : rsDecode symbols <;> simp only [Lane.decode, unprecode_precode, wordOf_pamOf symbols h, hd]

/-- A line of a codeword has five PAM4 symbols for each of its symbols (R511). -/
theorem Lane.length_encode (x : Lane) (symbols : List Nat) : (x.encode symbols).length = 5 * symbols.length := by
  simp [Lane.encode, List.length_flatMap, pamOf, Nat.mul_comm]

/-- A setting held in its range stays in it (R520). -/
theorem dfeHeld_idem (i : Nat) (v : Int) : dfeHeld i (dfeHeld i v) = dfeHeld i v := by
  have : (0 : Int) ≤ dfeRange i * Config.dfeSteps / 100 := by positivity
  simp only [dfeHeld]; omega

/-- A setting moves by at most one step (R521). -/
theorem oneStep_bounds (w : Word) (i : Nat) : -1 ≤ oneStep w i ∧ oneStep w i ≤ 1 := by
  unfold oneStep; split <;> decide

theorem dfeHeld_step (i : Nat) (d e : Int) (h : dfeHeld i d = d) (l : -1 ≤ e) (u : e ≤ 1) : d - 1 ≤ dfeHeld i (d + e) ∧ dfeHeld i (d + e) ≤ d + 1 := by
  simp only [dfeHeld] at *; omega

/-- Spoiling symbols keeps the length of a codeword (R570). -/
theorem State.length_corrupt (s : State) (k : Nat) (symbols : List Nat) : (s.corrupt k symbols).1.length = symbols.length := by
  unfold State.corrupt
  suffices h : ∀ (l : List Nat) (a : List Nat × List Nat × State), (l.foldl (fun (a : List Nat × List Nat × State) _ =>
      let f := a.2.2.takeFree
      let g := f.2.takeFree
      let i := f.1.toNat % max 1 a.2.1.length
      let p := a.2.1.getD i 0
      (a.1.set p (a.1.getD p 0 ^^^ (1 + g.1.toNat % 1023)), a.2.1.eraseIdx i, g.2)) a).1.length = a.1.length from h _ _
  intro l
  induction l with
  | nil => intro a; rfl
  | cons x rest ih => intro a; rw [List.foldl_cons, ih]; simp

/-- Adaptation concerns its lane alone (R521). -/
theorem State.adapt_lane (s : State) (n m : LaneId) (h : m ≠ n) : (s.adapt n).lane m = s.lane m := by
  unfold State.adapt
  split
  · rfl
  · have : n.val ≠ m.val := fun e => h (Fin.ext e.symm)
    simp [State.lane, State.modLane, State.takeFree, Vector.getElem_set_ne, this]

end Sys2Proof.Machine
end

