-- ==== Sys2Proof/Laws/Packet.lean ====
section
/-! SUPPORT. What a packet can do, case by case in the order of R575 and R580: dropped on a link that is down, counted for a wrong CRC, discarded or repeated as a retry, refused, or accepted. -/

namespace Sys2Proof.Machine

variable (s : State)

/-! ### Taking a packet from its buffer, and accepting it -/

@[simp] theorem State.freeBuffer_pending (k : LinkId) (c : PktClass) : (s.freeBuffer k c).pending = s.pending := by simp [State.freeBuffer]
@[simp] theorem State.freeBuffer_heldPackets (k : LinkId) (c : PktClass) : (s.freeBuffer k c).heldPackets = s.heldPackets := by simp [State.freeBuffer]
@[simp] theorem State.freeBuffer_sent (k : LinkId) (c : PktClass) : (s.freeBuffer k c).sent = s.sent := by simp [State.freeBuffer]
@[simp] theorem State.freeBuffer_maskWaits (k : LinkId) (c : PktClass) : (s.freeBuffer k c).maskWaits = s.maskWaits := by simp [State.freeBuffer]
@[simp] theorem State.freeBuffer_heldReplies (k : LinkId) (c : PktClass) : (s.freeBuffer k c).heldReplies = s.heldReplies := by simp [State.freeBuffer]
@[simp] theorem State.freeBuffer_heldTimes (k : LinkId) (c : PktClass) : (s.freeBuffer k c).heldTimes = s.heldTimes := by simp [State.freeBuffer]
@[simp] theorem State.freeBuffer_fresh (k : LinkId) (c : PktClass) : (s.freeBuffer k c).fresh = s.fresh := by simp [State.freeBuffer]
@[simp] theorem State.freeBuffer_modeOz (k : LinkId) (c : PktClass) : (s.freeBuffer k c).modeOz = s.modeOz := by simp [State.freeBuffer]
@[simp] theorem State.freeBuffer_regs (k : LinkId) (c : PktClass) : (s.freeBuffer k c).regs = s.regs := by simp [State.freeBuffer]
@[simp] theorem State.freeBuffer_quires (k : LinkId) (c : PktClass) : (s.freeBuffer k c).quires = s.quires := by simp [State.freeBuffer]
@[simp] theorem State.freeBuffer_sessions (k : LinkId) (c : PktClass) : (s.freeBuffer k c).sessions = s.sessions := by simp [State.freeBuffer]
@[simp] theorem State.freeBuffer_lanes (k : LinkId) (c : PktClass) : (s.freeBuffer k c).lanes = s.lanes := by simp [State.freeBuffer]
@[simp] theorem State.freeBuffer_clock (k : LinkId) (c : PktClass) : (s.freeBuffer k c).clock = s.clock := by simp [State.freeBuffer]
@[simp] theorem State.freeBuffer_time (k : LinkId) (c : PktClass) : (s.freeBuffer k c).time = s.time := by simp [State.freeBuffer]
@[simp] theorem State.freeBuffer_gov (k : LinkId) (c : PktClass) : (s.freeBuffer k c).gov = s.gov := by simp [State.freeBuffer]
@[simp] theorem State.freeBuffer_log (k : LinkId) (c : PktClass) : (s.freeBuffer k c).log = s.log := by simp [State.freeBuffer]
@[simp] theorem State.freeBuffer_collector (k : LinkId) (c : PktClass) : (s.freeBuffer k c).collector = s.collector := by simp [State.freeBuffer]
@[simp] theorem State.freeBuffer_cal (k : LinkId) (c : PktClass) : (s.freeBuffer k c).cal = s.cal := by simp [State.freeBuffer]
@[simp] theorem State.freeBuffer_spine (k : LinkId) (c : PktClass) : (s.freeBuffer k c).spine = s.spine := by simp [State.freeBuffer]
@[simp] theorem State.freeBuffer_snaps (k : LinkId) (c : PktClass) : (s.freeBuffer k c).snaps = s.snaps := by simp [State.freeBuffer]
@[simp] theorem State.freeBuffer_flash (k : LinkId) (c : PktClass) : (s.freeBuffer k c).flash = s.flash := by simp [State.freeBuffer]
@[simp] theorem State.freeBuffer_boot (k : LinkId) (c : PktClass) : (s.freeBuffer k c).boot = s.boot := by simp [State.freeBuffer]
@[simp] theorem State.freeBuffer_quire (k : LinkId) (c : PktClass) (q' : QId) : (s.freeBuffer k c).quire q' = s.quire q' := by simp [State.quire]
@[simp] theorem State.freeBuffer_session (k : LinkId) (c : PktClass) (k' : LinkId) : (s.freeBuffer k c).session k' = s.session k' := by simp [State.session]
@[simp] theorem State.freeBuffer_lane (k : LinkId) (c : PktClass) (i' : LaneId) : (s.freeBuffer k c).lane i' = s.lane i' := by simp [State.lane]
@[simp] theorem State.freeBuffer_reg (k : LinkId) (c : PktClass) (a : Nat) : (s.freeBuffer k c).reg a = s.reg a := by simp [State.reg]

theorem State.freeBuffer_phase (k k' : LinkId) (c : PktClass) : ((s.freeBuffer k c).link k').phase = (s.link k').phase := by
  by_cases hk : k' = k
  · subst hk
    simp only [State.freeBuffer, State.link_modLink_same]
    split <;> rfl
  · simp [State.freeBuffer, hk]

@[simp] theorem State.freeBuffer_linkUp (k k' : LinkId) (c : PktClass) : (s.freeBuffer k c).linkUp k' = s.linkUp k' := by
  simp only [State.linkUp, State.freeBuffer_phase]

@[simp] theorem State.accept_pending (h : Hdr) (op : Byte) : (s.accept h op).pending = s.pending := by unfold State.accept; dsimp only; split <;> simp
@[simp] theorem State.accept_heldPackets (h : Hdr) (op : Byte) : (s.accept h op).heldPackets = s.heldPackets := by unfold State.accept; dsimp only; split <;> simp
@[simp] theorem State.accept_sent (h : Hdr) (op : Byte) : (s.accept h op).sent = s.sent := by unfold State.accept; dsimp only; split <;> simp
@[simp] theorem State.accept_maskWaits (h : Hdr) (op : Byte) : (s.accept h op).maskWaits = s.maskWaits := by unfold State.accept; dsimp only; split <;> simp
@[simp] theorem State.accept_heldReplies (h : Hdr) (op : Byte) : (s.accept h op).heldReplies = s.heldReplies := by unfold State.accept; dsimp only; split <;> simp
@[simp] theorem State.accept_heldTimes (h : Hdr) (op : Byte) : (s.accept h op).heldTimes = s.heldTimes := by unfold State.accept; dsimp only; split <;> simp
@[simp] theorem State.accept_fresh (h : Hdr) (op : Byte) : (s.accept h op).fresh = s.fresh := by unfold State.accept; dsimp only; split <;> simp
@[simp] theorem State.accept_modeOz (h : Hdr) (op : Byte) : (s.accept h op).modeOz = s.modeOz := by unfold State.accept; dsimp only; split <;> simp
@[simp] theorem State.accept_quires (h : Hdr) (op : Byte) : (s.accept h op).quires = s.quires := by unfold State.accept; dsimp only; split <;> simp
@[simp] theorem State.accept_links (h : Hdr) (op : Byte) : (s.accept h op).links = s.links := by unfold State.accept; dsimp only; split <;> simp
@[simp] theorem State.accept_lanes (h : Hdr) (op : Byte) : (s.accept h op).lanes = s.lanes := by unfold State.accept; dsimp only; split <;> simp
@[simp] theorem State.accept_clock (h : Hdr) (op : Byte) : (s.accept h op).clock = s.clock := by unfold State.accept; dsimp only; split <;> simp
@[simp] theorem State.accept_time (h : Hdr) (op : Byte) : (s.accept h op).time = s.time := by unfold State.accept; dsimp only; split <;> simp
@[simp] theorem State.accept_gov (h : Hdr) (op : Byte) : (s.accept h op).gov = s.gov := by unfold State.accept; dsimp only; split <;> simp
@[simp] theorem State.accept_cal (h : Hdr) (op : Byte) : (s.accept h op).cal = s.cal := by unfold State.accept; dsimp only; split <;> simp
@[simp] theorem State.accept_spine (h : Hdr) (op : Byte) : (s.accept h op).spine = s.spine := by unfold State.accept; dsimp only; split <;> simp
@[simp] theorem State.accept_snaps (h : Hdr) (op : Byte) : (s.accept h op).snaps = s.snaps := by unfold State.accept; dsimp only; split <;> simp
@[simp] theorem State.accept_flash (h : Hdr) (op : Byte) : (s.accept h op).flash = s.flash := by unfold State.accept; dsimp only; split <;> simp
@[simp] theorem State.accept_boot (h : Hdr) (op : Byte) : (s.accept h op).boot = s.boot := by unfold State.accept; dsimp only; split <;> simp
@[simp] theorem State.accept_quire (h : Hdr) (op : Byte) (q' : QId) : (s.accept h op).quire q' = s.quire q' := by simp [State.quire]
@[simp] theorem State.accept_link (h : Hdr) (op : Byte) (k' : LinkId) : (s.accept h op).link k' = s.link k' := by simp [State.link]
@[simp] theorem State.accept_lane (h : Hdr) (op : Byte) (i' : LaneId) : (s.accept h op).lane i' = s.lane i' := by simp [State.lane]
@[simp] theorem State.accept_collector_reports (h : Hdr) (op : Byte) : (s.accept h op).collector.reports = s.collector.reports := by unfold State.accept; dsimp only; split <;> simp
@[simp] theorem State.accept_collector_faulted (h : Hdr) (op : Byte) : (s.accept h op).collector.faulted = s.collector.faulted := by unfold State.accept; dsimp only; split <;> simp
@[simp] theorem State.accept_collector_faultCause (h : Hdr) (op : Byte) : (s.accept h op).collector.faultCause = s.collector.faultCause := by unfold State.accept; dsimp only; split <;> simp
@[simp] theorem State.accept_collector_live (h : Hdr) (op : Byte) : (s.accept h op).collector.live = s.collector.live := by unfold State.accept; dsimp only; split <;> simp
@[simp] theorem State.accept_collector_sticky (h : Hdr) (op : Byte) : (s.accept h op).collector.sticky = s.collector.sticky := by unfold State.accept; dsimp only; split <;> simp
@[simp] theorem State.accept_collector_firstError (h : Hdr) (op : Byte) : (s.accept h op).collector.firstError = s.collector.firstError := by unfold State.accept; dsimp only; split <;> simp
@[simp] theorem State.accept_collector_secondError (h : Hdr) (op : Byte) : (s.accept h op).collector.secondError = s.collector.secondError := by unfold State.accept; dsimp only; split <;> simp
@[simp] theorem State.accept_collector_injections (h : Hdr) (op : Byte) : (s.accept h op).collector.injections = s.collector.injections := by unfold State.accept; dsimp only; split <;> simp
@[simp] theorem State.accept_collector_hold (h : Hdr) (op : Byte) : (s.accept h op).collector.hold = s.collector.hold := by unfold State.accept; dsimp only; split <;> simp
@[simp] theorem State.accept_collector_pulse (h : Hdr) (op : Byte) : (s.accept h op).collector.pulse = s.collector.pulse := by unfold State.accept; dsimp only; split <;> simp

/-- An accepted command is in progress on its session until its reply (R586). -/
theorem State.accept_session (h : Hdr) (op : Byte) (hop : op ≠ 0x01) :
    (s.accept h op).session h.link = { s.session h.link with inProgress := (s.session h.link).inProgress ++ [(h.tag, op, h.qmask)] } := by
  have hne : ¬op = 1#8 := hop
  simp [State.accept, hne]

@[simp] theorem State.accept_session_other (h : Hdr) (op : Byte) (k : LinkId) (hk : k ≠ h.link) : (s.accept h op).session k = s.session k := by
  unfold State.accept; dsimp only; split <;> simp [hk]

@[simp] theorem State.refuse_pending (h : Hdr) (op : Byte) (r : Refuse) (res : List Byte) : (s.refuse h op r res).pending = s.pending := by simp [State.refuse]
@[simp] theorem State.refuse_heldPackets (h : Hdr) (op : Byte) (r : Refuse) (res : List Byte) : (s.refuse h op r res).heldPackets = s.heldPackets := by simp [State.refuse]
@[simp] theorem State.refuse_heldTimes (h : Hdr) (op : Byte) (r : Refuse) (res : List Byte) : (s.refuse h op r res).heldTimes = s.heldTimes := by simp [State.refuse]
@[simp] theorem State.refuse_maskWaits (h : Hdr) (op : Byte) (r : Refuse) (res : List Byte) : (s.refuse h op r res).maskWaits = s.maskWaits := by simp [State.refuse]
@[simp] theorem State.refuse_fresh (h : Hdr) (op : Byte) (r : Refuse) (res : List Byte) : (s.refuse h op r res).fresh = s.fresh := by simp [State.refuse]
@[simp] theorem State.refuse_modeOz (h : Hdr) (op : Byte) (r : Refuse) (res : List Byte) : (s.refuse h op r res).modeOz = s.modeOz := by simp [State.refuse]
@[simp] theorem State.refuse_quires (h : Hdr) (op : Byte) (r : Refuse) (res : List Byte) : (s.refuse h op r res).quires = s.quires := by simp [State.refuse]
@[simp] theorem State.refuse_lanes (h : Hdr) (op : Byte) (r : Refuse) (res : List Byte) : (s.refuse h op r res).lanes = s.lanes := by simp [State.refuse]
@[simp] theorem State.refuse_clock (h : Hdr) (op : Byte) (r : Refuse) (res : List Byte) : (s.refuse h op r res).clock = s.clock := by simp [State.refuse]
@[simp] theorem State.refuse_time (h : Hdr) (op : Byte) (r : Refuse) (res : List Byte) : (s.refuse h op r res).time = s.time := by simp [State.refuse]
@[simp] theorem State.refuse_gov (h : Hdr) (op : Byte) (r : Refuse) (res : List Byte) : (s.refuse h op r res).gov = s.gov := by simp [State.refuse]
@[simp] theorem State.refuse_cal (h : Hdr) (op : Byte) (r : Refuse) (res : List Byte) : (s.refuse h op r res).cal = s.cal := by simp [State.refuse]
@[simp] theorem State.refuse_spine (h : Hdr) (op : Byte) (r : Refuse) (res : List Byte) : (s.refuse h op r res).spine = s.spine := by simp [State.refuse]
@[simp] theorem State.refuse_snaps (h : Hdr) (op : Byte) (r : Refuse) (res : List Byte) : (s.refuse h op r res).snaps = s.snaps := by simp [State.refuse]
@[simp] theorem State.refuse_flash (h : Hdr) (op : Byte) (r : Refuse) (res : List Byte) : (s.refuse h op r res).flash = s.flash := by simp [State.refuse]
@[simp] theorem State.refuse_boot (h : Hdr) (op : Byte) (r : Refuse) (res : List Byte) : (s.refuse h op r res).boot = s.boot := by simp [State.refuse]
@[simp] theorem State.refuse_quire (h : Hdr) (op : Byte) (r : Refuse) (res : List Byte) (q' : QId) : (s.refuse h op r res).quire q' = s.quire q' := by simp [State.quire]
@[simp] theorem State.refuse_lane (h : Hdr) (op : Byte) (r : Refuse) (res : List Byte) (i' : LaneId) : (s.refuse h op r res).lane i' = s.lane i' := by simp [State.lane]

/-! ### The cases of a packet -/

section
variable (o : OpSpec) (h : Hdr) (p : Params) (check : State → Option Refuse) (run : State → ReplyTo → State) (refused : State → Byte → List Byte)

/-- On a link that is not up nothing arrives (R528, R592). -/
theorem packet_down (hl : s.linkUp h.link = false) : packet o h p s check run refused = s := by simp [packet, hl]

/-- A packet whose CRC is wrong is discarded and counted (R575). -/
theorem packet_badCrc (hl : s.linkUp h.link = true) (hc : wholePacket h o.opcode p = false) :
    packet o h p s check run refused = (s.freeBuffer h.link h.cls).bump (rk 8 (0x108 + 0x20 * h.link.val)) := by simp [packet, hl, hc]

/-- A packet whose tag belongs to a command in progress is discarded and counted (R583). -/
theorem packet_inProgress (hl : s.linkUp h.link = true) (hc : wholePacket h o.opcode p = true) (ht : tagUse o h (s.freeBuffer h.link h.cls) = .inProgress) :
    packet o h p s check run refused = (s.freeBuffer h.link h.cls).bump (rk 8 (0x10C + 0x20 * h.link.val)) := by simp [packet, hl, hc, ht]

/-- A retry of a completed command sends its reply again (R583). -/
theorem packet_retry (hl : s.linkUp h.link = true) (hc : wholePacket h o.opcode p = true) (r : Reply) (ht : tagUse o h (s.freeBuffer h.link h.cls) = .retry (some r)) :
    packet o h p s check run refused = (s.freeBuffer h.link h.cls).resend r := by simp [packet, hl, hc, ht]

/-- A refused packet has its reply and no other effect (R580). -/
theorem packet_refused (hl : s.linkUp h.link = true) (hc : wholePacket h o.opcode p = true) (ht : tagUse o h (s.freeBuffer h.link h.cls) = .new) (r : Refuse)
    (hr : refusal o h p (s.freeBuffer h.link h.cls) check = some r) :
    packet o h p s check run refused = (s.freeBuffer h.link h.cls).refuse h o.opcode r (refused (s.freeBuffer h.link h.cls) r.1) := by
  simp [packet, hl, hc, ht, hr]

/-- An accepted packet is carried out (R586). -/
theorem packet_accepted (hl : s.linkUp h.link = true) (hc : wholePacket h o.opcode p = true) (ht : tagUse o h (s.freeBuffer h.link h.cls) = .new)
    (hr : refusal o h p (s.freeBuffer h.link h.cls) check = none) :
    packet o h p s check run refused = run ((s.freeBuffer h.link h.cls).accept h o.opcode) (hdrDest h o.opcode) := by
  simp [packet, hl, hc, ht, hr]

end

/-- The row takes up its packet when that is the next one of its class (R540, R545, R581). -/
theorem front_interpreting (row : Hdr → Params → Instr) (op : Byte) (h : Hdr) (p : Params) (run : Hdr → Params → State → State) (hi : s.interpreting = true)
    (hop : opcodes.contains op = true) (ha : ∀ bytes, s.buffered h.link h.cls = some bytes → packetOpcode bytes = op ∧ readPacket h.link h.cls h.reads bytes = (h, p)) :
    front row op h p s run = run h p s := by
  have hn : s.answerUnlisted h.link h.cls = s := by
    unfold State.answerUnlisted
    simp only [State.buffered] at ha
    cases hc : (s.link h.link).classes[classIndex h.cls].packets with
    | nil => simp [State.each]
    | cons b t =>
      rw [hc] at ha
      obtain ⟨h1, -⟩ := ha b.1 rfl
      have hm : opcodes.contains (packetOpcode b.1) = true := h1 ▸ hop
      simp only [List.map_cons, List.takeWhile_cons, hm, Bool.not_true, Bool.false_eq_true, if_false]
      simp [State.each]
  have hr : s.arriving op h p = (h, p) := by
    unfold State.arriving
    cases hb : s.buffered h.link h.cls with
    | none => rfl
    | some b => obtain ⟨h1, h2⟩ := ha b hb; simp [h1, h2]
  have hb : (s.buffered h.link h.cls).all (fun b => decide (packetOpcode b = op)) = true := by
    cases hb : s.buffered h.link h.cls with
    | none => rfl
    | some b => simp [(ha b hb).1]
  simp [front, hi, hn, hr, hb]

end Sys2Proof.Machine
end

