-- ==== Sys2Proof/Laws/Taken.lean ====
section
/-! SUPPORT. A packet that meets `State.Takes` is carried out when its command's own checks pass, and its reply is sent at once. -/

namespace Sys2Proof.Machine

variable (s : State)

/-- The state in which a command is carried out: its flits are free, and it is in progress (R541, R586). -/
def State.taken (s : State) (h : Hdr) (op : Byte) : State := (s.freeBuffer h.link h.cls).accept h op

theorem tagUse_freeBuffer (o : OpSpec) (h : Hdr) (k : LinkId) (c : PktClass) : tagUse o h (s.freeBuffer k c) = tagUse o h s := by
  simp [tagUse]

theorem owns_freeBuffer (k : LinkId) (c : PktClass) (l : LinkId) (q : QId) : (s.freeBuffer k c).owns l q = s.owns l q := by simp [State.owns]

theorem notOwner_freeBuffer (o : OpSpec) (h : Hdr) (k : LinkId) (c : PktClass) : notOwner o h (s.freeBuffer k c) = notOwner o h s := by
  simp [notOwner, State.owns, State.handleOk, State.isSteward]

theorem faultComing_freeBuffer (k : LinkId) (c : PktClass) (q : QId) : (s.freeBuffer k c).faultComing q = s.faultComing q := by simp [State.faultComing]

/-- Nothing but the command's own checks can refuse a packet that the interpreter takes. -/
theorem refusal_taken (o : OpSpec) (h : Hdr) (p : Params) (check : State → Option Refuse) (ht : s.Takes o h p)
    (hc : check (s.freeBuffer h.link h.cls) = none) : refusal o h p (s.freeBuffer h.link h.cls) check = none := by
  obtain ⟨-, -, -, -, hm, ho, hf, hq, hn, hb, -⟩ := ht
  have h1 : ((s.freeBuffer h.link h.cls).collector.faulted && !o.inChipFault) = false := by
    cases hh : s.collector.faulted
    · simp [hh]
    · simp [hf hh]
  have h2 : ((quiresOf h.qmask).any fun q => (s.freeBuffer h.link h.cls).faultComing q) = false := by
    simp only [List.any_eq_false, faultComing_freeBuffer]
    intro q hqm; simp [hq q hqm]
  have h3 : (s.freeBuffer h.link h.cls).full h.link = false := by simp [State.full]; omega
  have h4 : (!o.whileOccupied && (quiresOf h.qmask).any fun q => (s.quire q).occupied.isSome) = false := by
    rcases hb with hb | hb
    · simp [hb]
    · have : ((quiresOf h.qmask).any fun q => (s.quire q).occupied.isSome) = false := by
        simp only [List.any_eq_false]; intro q hqm; simp [hb q hqm]
      simp [this]
  unfold refusal
  rw [hm, notOwner_freeBuffer, ho]
  simp only [h1, h2, hc, State.freeBuffer_quire, h3, Bool.and_assoc, h4, Bool.and_false, Bool.or_self, if_false, Bool.false_eq_true]

/-- A packet that the interpreter takes and its command's checks pass is carried out. -/
theorem packet_taken (o : OpSpec) (h : Hdr) (p : Params) (check : State → Option Refuse) (run : State → ReplyTo → State) (refused : State → Byte → List Byte)
    (ht : s.Takes o h p) (hc : check (s.freeBuffer h.link h.cls) = none) :
    packet o h p s check run refused = run (s.taken h o.opcode) (hdrDest h o.opcode) :=
  packet_accepted s o h p check run refused ht.2.1 ht.2.2.1 ((tagUse_freeBuffer s o h _ _).trans ht.2.2.2.1) (refusal_taken s o h p check ht hc)

/-- The row of a packet that the interpreter takes comes to its command (R540, R575). -/
theorem front_taken (row : Hdr → Params → Instr) (o : OpSpec) (h : Hdr) (p : Params) (run : Hdr → Params → State → State) (ho : opcodes.contains o.opcode = true)
    (ht : s.Takes o h p) : front row o.opcode h p s run = run h p s :=
  front_interpreting s row o.opcode h p run ht.1 ho ht.2.2.2.2.2.2.2.2.2.2

/-! ### The state of a command in progress -/

theorem State.taken_linkUp (h : Hdr) (op : Byte) (k : LinkId) : (s.taken h op).linkUp k = s.linkUp k := by
  simp [State.taken, State.linkUp, State.freeBuffer_phase]

theorem State.interpreting_restarting (h : s.interpreting = true) : s.spine.restarting = false ∧ s.restartDue = false := by
  simp [State.interpreting, State.restarting] at h
  exact h.1

theorem State.taken_inProgress (h : Hdr) (op : Byte) (hop : op ≠ 0x01) :
    ((s.taken h op).session h.link).inProgress.any (fun e => decide (e.1 = h.tag ∧ e.2.1 = op)) = true := by
  simp [State.taken, State.accept_session _ _ _ hop]

/-- A reply on a link that is up, while the Spine runs, is sent at once. -/
theorem State.answer_sent (r : Reply) (h1 : s.spine.restarting = false) (h2 : s.restartDue = false) (hl : s.linkUp r.dest.link = true) :
    (s.answer r).sent = s.sent ++ [r] := by
  have hl' : ∀ t : State, t.links = s.links → (t.link r.dest.link).phase = .up ∨ (t.link r.dest.link).phase = .changing := by
    intro t ht
    rw [State.link_congr s t _ ht]
    simpa [State.linkUp] using hl
  unfold State.answer
  simp only [h1, h2, Bool.false_and, Bool.or_self, if_false, Bool.false_eq_true, State.sendReply, State.wire]
  split
  · rw [if_pos (hl' _ (by simp))]; simp
  · rw [if_pos (hl' _ (by simp))]; simp

theorem State.reply_sent (d : ReplyTo) (st : Byte) (dt : BitVec 16) (res : List Byte) (h1 : s.spine.restarting = false) (h2 : s.restartDue = false)
    (hl : s.linkUp d.link = true) (hp : d.opcode = 0x01 ∨ (s.session d.link).inProgress.any (fun e => decide (e.1 = d.tag ∧ e.2.1 = d.opcode)) = true) :
    (s.reply d st dt res).sent = s.sent ++ [{ dest := d, status := st, detail := dt, result := res }] := by
  unfold State.reply
  rw [if_pos hp]
  exact State.answer_sent s _ h1 h2 hl

/-- The command's reply, sent from any state that still has the command in progress and the link, the sessions and the Spine as they were when it was taken. -/
theorem State.reply_taken (o : OpSpec) (h : Hdr) (p : Params) (t : State) (st : Byte) (dt : BitVec 16) (res : List Byte) (ht : s.Takes o h p)
    (hs : t.sent = s.sent) (hsp : t.spine = s.spine) (hr : t.restartDue = false) (hse : t.sessions = (s.taken h o.opcode).sessions)
    (hl : t.links = (s.taken h o.opcode).links) : s.Answers (t.reply (hdrDest h o.opcode) st dt res) h o st dt res := by
  have hi := State.interpreting_restarting s ht.1
  unfold State.Answers
  rw [← hs]
  refine State.reply_sent t _ st dt res (by rw [hsp]; exact hi.1) hr ?_ ?_
  · show t.linkUp h.link = true
    have : t.linkUp h.link = (s.taken h o.opcode).linkUp h.link := by unfold State.linkUp State.link; rw [hl]
    rw [this, State.taken_linkUp]; exact ht.2.1
  · by_cases hop : o.opcode = 0x01
    · exact .inl hop
    · right
      show (t.session h.link).inProgress.any _ = true
      rw [State.session_congr _ t _ hse]
      exact State.taken_inProgress s h o.opcode hop

end Sys2Proof.Machine
end

