-- ==== Sys2Proof/WellFormed.lean ====
section
/-! DEFINITION. Which terms of `Instr` a sender or the outside world can produce: the shapes that the constructors' types leave open.
The meanings are total on every term; these checks say which terms stand for an event of the chip. -/

namespace Sys2Proof.WellFormed

/-- A packet: `LENGTH` is a 32-bit field, and no packet has more than 131,072 parameter bytes (R572, R576). Log entry 153: DESIGN CHOICE. -/
def packetShape (h : Hdr) (p : Params) : Bool := decide (h.length < 2 ^ 32) && decide (p.length ≤ 131072)
/-- One 32-bit total for each of the four classes (R534, R544, R547). -/
def fourTotals (l : List Nat) : Bool := decide (l.length = 4) && l.all fun v => decide (v < 2 ^ 32)
/-- The 16 sensors (R719). Log entry 153: DESIGN CHOICE. -/
def sixteenTemps (l : List Int) : Bool := decide (l.length = 16)
/-- The nine rails (R729). Log entry 153: DESIGN CHOICE. -/
def nineRails {α : Type} (l : List α) : Bool := decide (l.length = 9)
/-- One mask for each channel (R491). -/
def rankMasks (l : List (BitVec 3)) : Bool := decide (l.length = 8)
/-- One drift for each physical rank (R494). Log entry 153: DESIGN CHOICE. -/
def threeDrifts (l : List (Int × Int)) : Bool := decide (l.length = 3)
/-- A codeword of 5,440 bits is 2,720 PAM4 symbols (R511, R515). Log entry 153: DESIGN CHOICE. -/
def codewordShape (line : List (Fin 4)) : Bool := decide (line.length = 2720)
/-- A lane's receiver has 12 DFE taps (R520), and training finds the lanes of LANE_IDX 0 to 7 (R516). Log entry 153: DESIGN CHOICE. -/
def trainingShape (t : LaneTraining) : Bool := decide (t.dfe.length = 12)
def eightLanes (l : List LaneTraining) : Bool := decide (l.length = 8) && l.all trainingShape
/-- A time packet fits the class's packets (R535, R668). Log entry 153: DESIGN CHOICE. -/
def timePacket (m : List Byte) : Bool := decide (m.length ≤ 64)
/-- An instant less than one tick after the last one, in units of 2^-16 ns (R661, R670). -/
def subTick (n : Nat) : Bool := decide (n < 65536)
/-- An instant less than one tick after the last one, in units of 0.25 ps (R661). -/
def subEdge (n : Nat) : Bool := decide (n < 4000)

/-- Every check of a command. Log entry 153: DESIGN CHOICE. -/
def check : Instr → Bool
  | .hello h p => packetShape h p
  | .openSession h p => packetShape h p
  | .closeSession h p => packetShape h p
  | .readCfg h p => packetShape h p
  | .writeCfg h p => packetShape h p
  | .writeCfgBlock h p => packetShape h p
  | .pageCrcWrite h p => packetShape h p
  | .collate h p => packetShape h p
  | .arm h p => packetShape h p
  | .start h p => packetShape h p
  | .stop h p => packetShape h p
  | .pause h p => packetShape h p
  | .resume h p => packetShape h p
  | .rebind h p => packetShape h p
  | .quireReset h p => packetShape h p
  | .loadSignature h p => packetShape h p
  | .streamData h p => packetShape h p
  | .freeSignature h p => packetShape h p
  | .querySignature h p => packetShape h p
  | .readVerdict h p => packetShape h p
  | .readCapture h p _ _ => packetShape h p
  | .readRepair h p => packetShape h p
  | .timeSet h p => packetShape h p
  | .timeAdj h p => packetShape h p
  | .timeRead h p => packetShape h p
  | .snapshot h p => packetShape h p
  | .calRetrim h p => packetShape h p
  | .calCommit h p => packetShape h p
  | .calQuery h p => packetShape h p
  | .logFreeze h p => packetShape h p
  | .logRead h p => packetShape h p
  | .logThaw h p => packetShape h p
  | .faultRead h p => packetShape h p
  | .faultPinHold h p => packetShape h p
  | .faultInject h p => packetShape h p
  | .budgetSet h p => packetShape h p
  | .budgetQuery h p => packetShape h p
  | .patchStage h p => packetShape h p
  | .spineRestart h p => packetShape h p
  | .selftest h p => packetShape h p
  | .tmuMeasure h p => packetShape h p
  | .pmuMeasure h p => packetShape h p
  | .laneTest h p => packetShape h p
  | .chipReset h p => packetShape h p
  | .laneOut h p => packetShape h p
  | .laneReturn h p => packetShape h p
  | .laneRetrain h p => packetShape h p
  | .fecInjectWrite h p => packetShape h p
  | .fecPeakRead h p => packetShape h p
  | .eiEnWrite h p => packetShape h p
  | .tsqPop h p => packetShape h p
  | .time0Read h p => packetShape h p
  | .refSelectWrite h p => packetShape h p
  | .syncModeWrite h p => packetShape h p
  | .syncSkewWrite h p => packetShape h p
  | .holdUsWrite h p => packetShape h p
  | .kcSendTimeLoad h p => packetShape h p
  | .kcSendPing h p => packetShape h p
  | .fenceEngine h p => packetShape h p
  | .unfenceEngine h p => packetShape h p
  | .sensorRead l => sixteenTemps l
  | .pmbusTelemetryCycle l => nineRails l
  | .pmAlert l => nineRails l
  | .dqsDriftRead _ l => threeDrifts l
  | .codewordReceived _ line => codewordShape line
  | .creditInit _ l => fourTotals l
  | .creditSync _ l => fourTotals l
  | .linkTrainingDone _ t l => eightLanes t && fourTotals l
  | .laneRetrainDone _ t => trainingShape t
  | .sync _ m sub => timePacket m && subTick sub
  | .followUp _ m => timePacket m
  | .delayReq _ sub => subTick sub
  | .delayResp _ m => timePacket m
  | .syncInEdge sub => subEdge sub
  | .bootStepDone _ l => rankMasks l
  | .collationComplete _ _ _ | .armFillDone _ | .startAtTime _ | .startVcoreReady _ _ | .stopTakeEffect _ | .pauseTakeEffect _ | .loadCheckDone _ _
  | .snapshotAtTime | .retrimMeasureDone _ _ _ | .calTrackUpdate | .logTokenRefill | .spineRestartDone | .machineCheck | .tmuGateOpen _ _
  | .tmuEdge _ _ _ _ _ | .tmuGateClose _ _ | .tmuFitDone _ _ | .pmuApertureStart _ _ | .pmuMeasureDone _ _ _ | .laneTestDone _ _ _ _ | .endRun _
  | .play _ | .loopBegin _ | .loopEnd _ | .call _ | .ret _ | .jump _ | .matchJump _ | .waitTime _ | .waitTrig _ | .waitTimeExpiry _ | .waitTrigger _
  | .waitTimeout _ | .matchResult _ _ | .decisionPoint _ | .instanceEnd _ | .verdictHoldExpiry _ _ | .prefetchRequest _ | .chunkCreate _
  | .operandArrival _ _ | .dispatchStep _ | .affinityWaitExpiry _ _ | .chunkRelease _ | .chunkDue _ | .autoResume _ | .compareResult _ _ _ _
  | .rawRecordDrain _ | .captureCompression _ _ | .repairAnalysisStep _ _ _ _ | .repairFinalSearch _ _ _ _ | .epJoinDone _ | .epSwitch _ _
  | .edgeMismatch _ _ _ _ | .readbackSample _ _ _ _ | .dacCheck _ _ _ _ | .clampOvercurrent _ _ _ | .clampOverload _ _ | .vpinOutOfWindow _ _
  | .vpinWindowSettled _ _ | .vcoreWindowCheck _ | .trimPeriod | .floorRecompute _ | .dramRateRequest _ | .eiAutoEvaluate | .rateChange _
  | .refreshDue _ _ | .refreshRepay _ _ | .mr4Read _ _ | .refreshWindowEnd _ _ | .dramCommandSlot _ | .fetchDeadline _ | .agePromotion _
  | .dramRead _ _ | .writeCrcAlert _ | .caParityAlert _ | .migrationCopy _ _ _ | .creditSyncSend _ | .widthChange _ _ _ | .widthAck _ _ _
  | .widthSwitch _ | .widthAckTimeout _ | .retrainReq _ _ | .eiEnter _ | .laneRetrainStart _ _ | .linkRetrainTimer _
  | .eiEntry _ | .eiExit _ | .sessionHoldExpiry _ | .syncMissTimeout | .syncOutPulse | .timeLoad _ _ | .ping _ _ | .pingTimeout | .timeTick
  | .judgeWindow _ _ | .monitorWindow _ | .recEdgeLoss _ | .recRejudge | .xoEdgeLoss _ | .pllLockLoss | .stopHandshakeTimeout | .timingRestart _ _
  | .recAdoption | .faultCollectWindow | .faultNPulseEnd | .resetNFall | .railFall _ | .railWindowSettled | .bootStart _ _ | .extest | .idcode
  | .samplePreload | .extestPulse | .extestTrain | .clamp | .highz | .bootStatus | .bypass | .nop _ _ _ _ | .add _ _ _ _ | .sub _ _ _ _ | .and _ _ _ _
  | .or _ _ _ _ | .xor _ _ _ _ | .shl _ _ _ _ | .shr _ _ _ _ | .mul _ _ _ _ | .popc _ _ _ _ | .minu _ _ _ _ | .maxu _ _ _ _ | .addi _ _ _ _ | .andi _ _ _ _ | .ori _ _ _ _
  | .xori _ _ _ _ | .shli _ _ _ _ | .shri _ _ _ _ | .lui _ _ _ _ | .ld _ _ _ _ | .st _ _ _ _ | .ldw _ _ _ _ | .stw _ _ _ _ | .beq _ _ _ _ | .bne _ _ _ _ | .bltu _ _ _ _
  | .bgeu _ _ _ _ | .loop _ _ _ _ | .jal _ _ _ _ | .jr _ _ _ _ | .uget _ _ _ _ | .uset _ _ _ _ | .agen _ _ _ _ | .aseek _ _ _ _ | .scram _ _ _ _ | .bgnd _ _ _ _
  | .cmap _ _ _ _ | .tput _ _ _ _ | .tsrun _ _ _ _ | .rawc _ _ _ _ | .cdec _ _ _ _ | .fget _ _ _ _ | .rget _ _ _ _ | .put _ _ _ _ | .done _ _ _ _ | .trap _ _ _ _
  | .selftestDone _ _ _ | .calCommitDone _ | .patchFlashWriteDone _ | .retrimDacMeasureDone _ _ | .codewordTransmitted _ | .lossOfSignal _
  | .vpinInWindow _ _ | .reservedTypeFrame _ => true

end Sys2Proof.WellFormed
end

