-- ==== Sys2Proof/Tests/Slice0.lean ====
section
/-! SUPPORT. Tests of the model's own: the well-formedness checks, and for every statement with hypotheses a state and operands that meet them. -/

open Sys2Proof Sys2Proof.Machine

/-- A header with the CRC-32C of its bytes and the parameters (R574). -/
def Sys2Proof.Hdr.sealed (h : Hdr) (o : OpSpec) (p : Params) : Hdr := { h with crc := crc32c (headerBytes h o.opcode ++ p) }

/-- The interpreter takes the packet with its right CRC, where the link buffer holds no other. -/
def Sys2Proof.Machine.State.TakesSealed (s : State) (o : OpSpec) (h : Hdr) (p : Params) : Prop := s.Takes o (h.sealed o p) p ∧ s.buffered h.link h.cls = none

namespace Sys2Proof.Tests

set_option Elab.async false

/-! ### Small states -/

/-- Quire 0: owned by the session of link 0. -/
def quire0 : Quire := { Quire.reset with state := .parked, owner := some 0, vpinOk := true, vpinHeld := true }

/-- The chip with step 8 of the start-up ended, link 0 up with 16 lanes, the steward's session open on it, and quire 0 as given. -/
def with0 (x : Quire) : State :=
  { State.reset with
    boot := { Boot.reset with step := 9, resetNLow := false, vsramFallen := false }
    clock := { Clock.reset with timingSrc := .xo, domain := .running, xo := .good, xoArmed := true }
    time := { Time.reset with valid := true }
    sessions := (Vector.replicate 8 Session.reset).set 0 { Session.reset with isOpen := true, steward := true, handle := 8, generation := 1 }
    links := (Vector.replicate 8 Link.reset).set 0 { Link.reset with isDefined := true, width := 16, phase := .up, inService := 0xFF, rxService := 0xFF }
    quires := (Vector.replicate 8 Quire.reset).set 0 x }

def chip : State := with0 quire0

/-- A header on link 0 for the quires of the mask, with `n` parameter bytes. -/
def hdr (cls : PktClass) (qmask : Byte) (n : Nat) : Hdr :=
  { link := 0, cls := cls, crc := 0, reads := { word := 0, outcome := .good, corrupt := [] }, version := 1, session := 8, tag := 1, qmask := qmask, flags := 0, length := n, detail := 0, rsv := 0 }

/-- The conditions of `State.Takes` as a test, the CRC apart. -/
def takesB (s : State) (o : OpSpec) (h : Hdr) (p : Params) : Bool :=
  s.interpreting && s.linkUp h.link && (match tagUse o h s with | .new => true | _ => false)
    && decide (malformed o h p = none) && decide (notOwner o h s = none) && (!s.collector.faulted || o.inChipFault)
    && (quiresOf h.qmask).all (fun q => !s.faultComing q) && decide ((s.session h.link).inProgress.length < 64)
    && (o.whileOccupied || (quiresOf h.qmask).all fun q => decide ((s.quire q).occupied = none)) && (s.buffered h.link h.cls).isNone

theorem takes_of (s : State) (o : OpSpec) (h : Hdr) (p : Params) (whole : wholePacket h o.opcode p = true) : s.Takes o h p ∧ s.buffered h.link h.cls = none ↔ takesB s o h p = true := by
  simp only [State.Takes, takesB, Bool.and_eq_true, Bool.or_eq_true, decide_eq_true_eq, Bool.not_eq_true', List.all_eq_true, Option.isNone_iff_eq_none]
  constructor
  · rintro ⟨⟨b1, b2, -, b4, b5, b6, b7, b8, b9, b10, -⟩, b11⟩
    refine ⟨⟨⟨⟨⟨⟨⟨⟨⟨b1, b2⟩, by rw [b4]⟩, b5⟩, b6⟩, ?_⟩, b8⟩, b9⟩, b10⟩, b11⟩
    cases hf : s.collector.faulted <;> simp_all
  · rintro ⟨⟨⟨⟨⟨⟨⟨⟨⟨b1, b2⟩, b4⟩, b5⟩, b6⟩, b7⟩, b8⟩, b9⟩, b10⟩, b11⟩
    refine ⟨⟨b1, b2, whole, ?_, b5, b6, ?_, b8, b9, b10, fun bytes hb => by simp [b11] at hb⟩, b11⟩
    · revert b4; split <;> simp_all
    · intro h; simp_all

theorem sealed_whole (o : OpSpec) (h : Hdr) (p : Params) : wholePacket (h.sealed o p) o.opcode p = true := by
  simp [wholePacket, Hdr.sealed, headerBytes]

/-- A packet with its right CRC is taken where the test says so. -/
theorem takes_iff (s : State) (o : OpSpec) (h : Hdr) (p : Params) : s.TakesSealed o h p ↔ takesB s o (h.sealed o p) p = true :=
  takes_of s o (h.sealed o p) p (sealed_whole o h p)

/-- A pattern item of `n` vectors. -/
def item (n : Nat) : Item :=
  { kind := .pattern, sig := 0, inst := 0, index := 0, seq := 0, vectors := n, last := true, cls := 1, waits := false, shadowed := false, input := [],
    anyEngine := false, due := none, fails := [], cells := [], region := 0, poisoned := false, copy := false, avoid := none }

/-- Engine 5 at the first of four instructions of signature 0, with an item of 128 vectors and room for 100 operations. -/
def engine (w : Word) : Engine := { Engine.reset with context := some 0, item := some (item 128), istore := [w, w, w, w], opsBound := 100 }

/-- Engine 5 of quire 0 as given. -/
def eng (x : Engine) : State := with0 (quire0.setEngine 5 x)

/-- Engine 5 of quire 0 stands at the word. -/
def At (x : Engine) (w : Word) : Prop := (eng x).EngineAt 0 5 w

/-- The engine stands at the word, has four operations to spare, and an instruction after it. -/
def Runs (x : Engine) (w : Word) : Prop := (eng x).EngineAt 0 5 w ∧ ((eng x).engineOf 0 5).Affords 4 ∧ x.pc + 1 < x.progLen

theorem at_iff (x : Engine) (w : Word) :
    At x w ↔ (x.item.isSome && x.fetches w) = true := by
  have e : (eng x).engineOf 0 5 = x := by rfl
  have i : ((eng x).quire 0).injections = [] := by rfl
  simp [At, State.EngineAt, e, i, injecting]

theorem runs_iff (x : Engine) (w : Word) :
    Runs x w ↔ (x.item.isSome && x.fetches w && (!x.algo || decide (x.opsUsed + 4 ≤ x.opsBound)) && decide (x.pc + 1 < x.progLen)) = true := by
  have e : (eng x).engineOf 0 5 = x := by rfl
  have i : ((eng x).quire 0).injections = [] := by rfl
  cases h : x.algo <;> simp [Runs, State.EngineAt, Engine.Affords, e, i, injecting, h, and_assoc]

/-! ### Engines -/

/-- The three ways in which the reads of an instruction come back, for one that reads the data store and one that does not. -/
theorem witness_storesGive :
    (∀ reads ∈ [false, true], ∀ r ∈ storesGive reads ⟨.good, .good, .good, 0⟩, r = .good)
    ∧ (∀ reads ∈ [false, true], ∀ r ∈ storesGive reads ⟨.corrected, .corrected, .good, 0⟩, r ≠ .uncorrectable)
    ∧ (∀ reads ∈ [false, true], .uncorrectable ∈ storesGive reads ⟨.uncorrectable, .good, .good, 0⟩)
    ∧ .uncorrectable ∈ storesGive true ⟨.good, .uncorrectable, .good, 0⟩ ∧ (∀ r ∈ storesGive false ⟨.good, .uncorrectable, .good, 0⟩, r = .good) := by decide

theorem witness_EngineRegisterResults :
    (∀ op ∈ List.range' 1 11, ∀ rd ∈ ([0, 31] : List Nat), Runs (engine (encA op ⟨BitVec.ofNat 5 rd, 2, 0, 0⟩)) (encA op ⟨BitVec.ofNat 5 rd, 2, 0, 0⟩))
    ∧ (∀ op ∈ [0x10, 0x16, 0x28, 0x39], ∀ n ∈ ([0, 13, 14, 15, 27, 0xFFFF] : List Nat),
        Runs (engine (encB op ⟨1, 0, BitVec.ofNat 16 n⟩)) (encB op ⟨1, 0, BitVec.ofNat 16 n⟩)) := by
  simp only [runs_iff]; decide +kernel

/-- Engine 5 with a register set. -/
def withX (r : BitVec 5) (v : Nat) (w : Word) : Engine := (engine w).setX r (BitVec.ofNat 64 v)

theorem witness_EngineLoadsAndStores :
    (∀ a ∈ ([0, 0x18, 0x100, 0xD00, 0xE00, 0x1FF8] : List Nat), Runs (withX 2 a (encB 0x18 ⟨1, 2, 0⟩)) (encB 0x18 ⟨1, 2, 0⟩) ∧ a % 8 = 0
        ∧ (a + 8 ≤ 0x20 ∨ (0x100 ≤ a ∧ a + 8 ≤ 0xD08) ∨ (0xE00 ≤ a ∧ a + 8 ≤ 0x2000)))
    ∧ (∀ a ∈ ([0x1C, 0xD04, 0x1FFC] : List Nat), Runs (withX 2 a (encB 0x1A ⟨1, 2, 0⟩)) (encB 0x1A ⟨1, 2, 0⟩) ∧ a % 4 = 0
        ∧ (a + 4 ≤ 0x20 ∨ (0x100 ≤ a ∧ a + 4 ≤ 0xD08) ∨ (0xE00 ≤ a ∧ a + 4 ≤ 0x2000)))
    ∧ (∀ a ∈ ([0xE00, 0x1BF8] : List Nat), Runs (withX 2 a (encB 0x19 ⟨1, 2, 0⟩)) (encB 0x19 ⟨1, 2, 0⟩) ∧ a % 8 = 0 ∧ 0xE00 ≤ a ∧ a + 8 ≤ 0x1C00)
    ∧ (∀ a ∈ ([0xE00, 0x1BFC] : List Nat), Runs (withX 2 a (encB 0x1B ⟨1, 2, 0⟩)) (encB 0x1B ⟨1, 2, 0⟩) ∧ a % 4 = 0 ∧ 0xE00 ≤ a ∧ a + 4 ≤ 0x1C00) := by
  simp only [runs_iff]; decide +kernel

/-- Branches forward and back to the first instruction, taken and not taken; LOOP whose counter reaches 0 and one whose counter does not; the last instruction as a target of JR. -/
theorem witness_EngineBranchesAndJumps :
    (∀ op ∈ [0x20, 0x21, 0x22, 0x23, 0x24], ∀ off ∈ ([0xFFFF, 2] : List Nat), Runs (engine (encC op ⟨0, 0, BitVec.ofNat 16 off⟩)) (encC op ⟨0, 0, BitVec.ofNat 16 off⟩)
        ∧ 0 ≤ (0 : Int) + 1 + (BitVec.ofNat 16 off).toInt ∧ (0 : Int) + 1 + (BitVec.ofNat 16 off).toInt < 4)
    ∧ ((withX 1 1 0).setX 1 ((withX 1 1 0).x 1 - 1)).x 1 = 0 ∧ ((withX 1 5 0).setX 1 ((withX 1 5 0).x 1 - 1)).x 1 ≠ 0
    ∧ Runs (withX 1 1 (encC 0x24 ⟨1, 0, 0⟩)) (encC 0x24 ⟨1, 0, 0⟩) ∧ Runs (withX 1 5 (encC 0x24 ⟨1, 0, 0⟩)) (encC 0x24 ⟨1, 0, 0⟩)
    ∧ (withX 1 1 0).x 1 ≠ (withX 1 1 0).x 0 ∧ ((withX 1 1 0).x 0).toNat < ((withX 1 1 0).x 1).toNat
    ∧ Runs (engine (encB 0x25 ⟨1, 0, 2⟩)) (encB 0x25 ⟨1, 0, 2⟩)
    ∧ Runs (withX 2 2051 (encA 0x26 ⟨0, 2, 0, 0⟩)) (encA 0x26 ⟨0, 2, 0, 0⟩) ∧ ((withX 2 2051 0).x 2).toNat % 2048 < 4
    ∧ Runs (engine (encA 0x00 ⟨0, 0, 0, 0⟩)) (encA 0x00 ⟨0, 0, 0, 0⟩) := by
  simp only [runs_iff]; decide +kernel

/-- The three counters from 0 to 1, 2 and 3, nested X, Y, Z. -/
def unitOk (w : Word) : Engine :=
  { engine w with unit := [(4, 1), (6, 2), (8, 3), (9, 0x24)], regs := [(1, 7)] }

theorem witness_EngineUnitRegisters :
    (∀ n ∈ ([0, 13, 14, 15] : List Nat), Runs (engine (encB 0x29 ⟨0, 1, BitVec.ofNat 16 n⟩)) (encB 0x29 ⟨0, 1, BitVec.ofNat 16 n⟩))
    ∧ (∀ op ∈ [0x2A, 0x2B], let f : FmtA := if op = 0x2A then ⟨1, 0, 0, 0⟩ else ⟨0, 1, 0, 0⟩
        let x := unitOk (encA op f);
        Runs x (encA op f) ∧ (∀ c < 3, x.start c ≤ x.limit c) ∧ ∀ c < 3, c ∈ x.order) := by
  simp only [runs_iff]; decide +kernel

/-- A table whose bits select bit 63, zero and one, and a background program of kind 4 with period 3. -/
def patterned (w : Word) : Engine := { engine w with dstore := [(0x500, 0x3F), (0x501, 0x40), (0x502, 0x41)], unit := [(10, 0x0394)] }

theorem witness_EnginePatternUnit :
    (let x := patterned (encB 0x2C ⟨1, 2, 0⟩); Runs x (encB 0x2C ⟨1, 2, 0⟩) ∧ ∀ i < 32, (bget (0x500 + 32 * (0 % 64) + i) x.dstore).toNat ≤ 0x41)
    ∧ Runs (patterned (encB 0x2E ⟨1, 2, 0xB⟩)) (encB 0x2E ⟨1, 2, 0xB⟩) ∧ (0xB / 4 % 2 = 0 ∧ 0xB / 16 = 0)
    ∧ Runs (patterned (encB 0x2E ⟨1, 2, 0x37⟩)) (encB 0x2E ⟨1, 2, 0x37⟩) ∧ (0x37 / 4 % 2 = 1 ∧ 0x37 / 8 % 2 = 0 ∧ 0x37 / 64 = 0)
    ∧ (let x := patterned (encB 0x2D ⟨1, 2, 4⟩); Runs x (encB 0x2D ⟨1, 2, 4⟩) ∧ x.u 10 % 8 = 4 ∧ x.u 10 / 256 % 256 ≠ 0)
    ∧ (∀ k ∈ ([0, 1, 2, 3, 5, 6] : List Nat), let x := { engine (encB 0x2D ⟨1, 2, 4⟩) with unit := [(10, BitVec.ofNat 64 k)] };
        Runs x (encB 0x2D ⟨1, 2, 4⟩) ∧ x.u 10 % 8 ≠ 7 ∧ x.u 10 % 8 ≠ 4) := by
  simp only [runs_iff]; decide +kernel

/-- TPUT that fills slot 63 and goes on at slot 0; runs up to the item's 128 vectors. -/
theorem witness_EngineTransposeAndRuns :
    (∀ c ∈ [0, 63], let x := { engine (encA 0x30 ⟨0, 1, 2, 0x3F⟩) with cursor := c };
        Runs x (encA 0x30 ⟨0, 1, 2, 0x3F⟩) ∧ x.cursor < 64 ∧ x.emitted + x.cursor + 64 ≤ x.vectors)
    ∧ (let x := { withX 2 1 (encA 0x31 ⟨0, 1, 2, 0⟩) with runs := [(3, 127)] };
        Runs x (encA 0x31 ⟨0, 1, 2, 0⟩) ∧ 1 ≤ (x.x 2).toNat ∧ (x.x 2).toNat ≤ 4096 ∧ runSum x.runs + (x.x 2).toNat ≤ x.vectors) := by
  simp only [runs_iff]; decide +kernel

/-- A built-in program has no operation bound; DONE stands where all vectors are emitted and timed. -/
theorem witness_EngineBuiltinsAndEnds :
    (∀ op ∈ [0x32, 0x33, 0x38, 0x3A], let x := { engine (encA op ⟨0, 0, 0, 0⟩) with opsBound := 0 };
        Runs x (encA op ⟨0, 0, 0, 0⟩) ∧ x.item = some (item 128) ∧ x.algo = false ∧ injecting 0x17 0x80 ((eng x).quire 0).injections = false)
    ∧ (item 128).ofSignature = true
    ∧ (∀ home ∈ [0, 1], (({ quire0 with state := .running, committed := some [(rk 3 0, BitVec.ofNat 32 (2 ^ 26 * home))] } : Quire).itemView (item 128)).sigHome (item 128).sig = home)
    ∧ (let x := { engine (encA 0x3E ⟨0, 0, 0, 0⟩) with emitted := 128, runs := [(0, 64), (1, 64)] };
        Runs x (encA 0x3E ⟨0, 0, 0, 0⟩) ∧ x.item = some (item 128) ∧ (item 128).kind = .pattern ∧ x.background = false ∧ x.emitted = x.vectors ∧ runSum x.runs = x.vectors)
    ∧ (Runs (engine (encB 0x3F ⟨0, 0, 0x80⟩)) (encB 0x3F ⟨0, 0, 0x80⟩) ∧ 0x80 ≤ (BitVec.ofNat 8 (0x80#16).toNat).toNat) := by
  simp only [runs_iff]; decide +kernel

/-- Each condition of a trap, on an engine that stands at the instruction. -/
theorem witness_EngineTrapConditions :
    (∀ op ∈ [0x01, 0x08, 0x09, 0x26, 0x2A, 0x3E], At (engine (encA op ⟨0, 0, 0, 1⟩)) (encA op ⟨0, 0, 0, 1⟩))
    ∧ (∀ op ∈ [0x30, 0x31, 0x26], At (engine (encA op ⟨1, 0, 0, 0⟩)) (encA op ⟨1, 0, 0, 0⟩))
    ∧ (∀ op ∈ [0x16, 0x25], At (engine (encB op ⟨0, 1, 0⟩)) (encB op ⟨0, 1, 0⟩))
    ∧ At (engine (encC 0x24 ⟨0, 1, 0⟩)) (encC 0x24 ⟨0, 1, 0⟩)
    ∧ (∀ op ∈ [0x32, 0x3A], At (engine (encA op ⟨0, 0, 0, 0⟩)) (encA op ⟨0, 0, 0, 0⟩) ∧ (engine 0).algo = true)
    ∧ (let x := { engine (encA 0x01 ⟨0, 0, 0, 0⟩) with opsUsed := 100 }; At x (encA 0x01 ⟨0, 0, 0, 0⟩) ∧ x.algo = true ∧ x.opsBound < x.opsUsed + 1)
    ∧ (let x := { engine 0 with istore := [encB 0x10 ⟨0, 0, 0⟩] }; At x (encB 0x10 ⟨0, 0, 0⟩) ∧ x.Affords 1 ∧ x.progLen ≤ x.pc + 1)
    ∧ (let x := withX 2 4 (encA 0x26 ⟨0, 2, 0, 0⟩); At x (encA 0x26 ⟨0, 2, 0, 0⟩) ∧ x.Affords 1 ∧ x.progLen ≤ (x.x 2).toNat % 2048)
    ∧ (∀ a ∈ ([4, 0x20, 0xF8, 0x2000] : List Nat), let x := withX 2 a (encB 0x18 ⟨1, 2, 0⟩);
        At x (encB 0x18 ⟨1, 2, 0⟩) ∧ x.Affords 2 ∧ (a % 8 ≠ 0 ∨ (0x20 ≤ a ∧ a < 0x100) ∨ 0x2000 ≤ a))
    ∧ (∀ a ∈ ([0xE02, 0xDFC, 0x1C00] : List Nat), let x := withX 2 a (encB 0x1B ⟨1, 2, 0⟩);
        At x (encB 0x1B ⟨1, 2, 0⟩) ∧ x.Affords 1 ∧ (a % 4 ≠ 0 ∨ a < 0xE00 ∨ 0x1C00 ≤ a))
    ∧ (let x := engine (encA 0x2A ⟨1, 0, 0, 0⟩); At x (encA 0x2A ⟨1, 0, 0, 0⟩) ∧ x.Affords 1 ∧ ∃ c < 3, c ∉ x.order)
    ∧ (∀ k ∈ ([7, 4] : List Nat), let x := { engine (encB 0x2D ⟨1, 2, 0⟩) with unit := [(10, BitVec.ofNat 64 k)] };
        At x (encB 0x2D ⟨1, 2, 0⟩) ∧ x.Affords 1 ∧ (x.u 10 % 8 = 7 ∨ (x.u 10 % 8 = 4 ∧ x.u 10 / 256 % 256 = 0)))
    ∧ (let x := { engine (encA 0x30 ⟨0, 0, 0, 0⟩) with emitted := 64, cursor := 64 };
        At x (encA 0x30 ⟨0, 0, 0, 0⟩) ∧ x.Affords ((1 + 15) / 16) ∧ x.vectors < x.emitted + x.cursor + 1)
    ∧ (∀ n ∈ ([0, 4097] : List Nat), let x := withX 2 n (encA 0x31 ⟨0, 1, 2, 0⟩);
        At x (encA 0x31 ⟨0, 1, 2, 0⟩) ∧ x.Affords 1 ∧ ((x.x 2).toNat = 0 ∨ 4096 < (x.x 2).toNat)) := by
  simp only [at_iff, Engine.Affords]; decide +kernel

/-- The same for an instruction that reads the data store before it traps. -/
theorem witness_EngineTrapConditions_reads :
    (let x := { engine (encB 0x2C ⟨1, 2, 0⟩) with dstore := [(0x51F, 0x42)] }; At x (encB 0x2C ⟨1, 2, 0⟩) ∧ x.Affords 1 ∧ ∃ i < 32, 0x41 < (bget (0x500 + i) x.dstore).toNat)
    ∧ (let x := { engine 0 with istore := [encB 0x18 ⟨1, 0, 0x18⟩] }; At x (encB 0x18 ⟨1, 0, 0x18⟩) ∧ x.Affords 2 ∧ x.progLen ≤ x.pc + 1 ∧ (x.x 0 + 0x18).toNat % 8 = 0 ∧ (x.x 0 + 0x18).toNat + 8 ≤ 0x20)
    ∧ (engine 0).item = some (item 128) ∧ (item 128).kind = .pattern := by
  simp only [at_iff, Engine.Affords]; decide +kernel

/-! ### The sequencer -/

/-- Quire 0 in RUNNING with a committed configuration. -/
def running (cfg : Regs) : Quire := { quire0 with state := .running, committed := some cfg }

/-- Word 0 of a binding entry, at its key. -/
def entry (e op sig target : Nat) (stall : Nat := 0) : Nat × Word := (rk 2 (32 * e), BitVec.ofNat 32 (2 ^ 28 * op + 2 ^ 27 * stall + 2 ^ 16 * sig + 2 ^ 8 * target))

/-- Another word of a binding entry. -/
def entryWord (e o v : Nat) : Nat × Word := (rk 2 (32 * e + o), BitVec.ofNat 32 v)

/-- An entry on the path, of `n` plays of signature 0. -/
def block (e op n : Nat) : Block :=
  { entry := e, op := op, sig := 0, count := n, created := 0, nextChunk := 0, begun := 0, ended := 0, fromHead := false, requested := 0, firstInst := none,
    alloc := 0, loops := [], calls := [] }

/-- The sequencer at entry 0, with a loop frame of `left` and a call open. -/
def atEntry (op left : Nat) : Quire := { running [entry 0 op 0 3] with seq := { Sequencer.reset with loops := [⟨0, left, 0⟩], calls := [1] } }

theorem witness_SequencerFollowsTheTable :
    ∀ op ∈ [1, 2, 3, 4, 5, 6, 7], ∀ left ∈ [1, 2], let x := atEntry op left;
      x.state.inRun = true ∧ fld (x.cfg 0x02 (32 * x.seq.pc)) 28 4 = op ∧ x.seq.loops = [⟨0, left, 0⟩] ∧ x.seq.calls = [1] := by
  decide +kernel

/-- A wait of entry 0 at the head of the path, with `TIME` 100, and a time-out to the PLAY at entry 2. -/
def atWait (op : Nat) (w : Option Wait) : Quire :=
  { running [entry 0 op 0 2, entryWord 0 12 50, entryWord 0 16 100, entry 2 1 0 0] with seq := { Sequencer.reset with plan := [block 0 op 1], wait := w } }

/-- The chip at a chip time. -/
def atTime (ns : Nat) (x : Quire) : State := let s := with0 x; { s with time := { s.time with ns := ns } }

theorem witness_SequencerWaits :
    (∀ ns ∈ [100, 101], let x := (atTime ns (atWait 8 none)).quire 0; x.seq.plan = [block 0 8 1] ∧ x.state = .running ∧ x.playing = none ∧ x.seq.wait = none
        ∧ (if ns = 100 then (atTime ns (atWait 8 none)).time.ns ≤ timeOf false (x.cfg 0x02 16) (x.cfg 0x02 20) (x.cfg 0x02 24)
           else timeOf false (x.cfg 0x02 16) (x.cfg 0x02 20) (x.cfg 0x02 24) < (atTime ns (atWait 8 none)).time.ns))
    ∧ (let s := atTime 100 (atWait 8 (some (.time 100))); (s.quire 0).seq.wait = some (.time 100) ∧ s.timingRuns = true ∧ 100 ≤ s.time.ns)
    ∧ (let x := atWait 9 none; (block 0 9 1).op = 9 ∧ x.seq.landingAsk = [] ∧ x.playing = none ∧ x.seq.wait = none ∧ x.bindTimeout 0 ≠ 0 ∧ x.bindOp (x.bindTarget 0) = 1)
    ∧ (atWait 9 (some (.trig 0 (some 5)))).seq.wait = some (.trig 0 (some 5))
    ∧ (let s := atTime 0 (atWait 9 (some (.trig 0 none))); (s.quire 0).seq.wait = some (.trig 0 none) ∧ (s.quire 0).bindTimeout 0 ≠ 0
        ∧ (block 0 9 1).begun ≤ (block 0 9 1).ended ∧ s.heldPackets = []) := by
  decide +kernel

/-- A condition of the MATCH_JUMP at entry 0. -/
def cond (outstanding : Nat) (last late : Bool) (resolved : Option Bool) : MatchCond :=
  { id := 0, entry := 0, condFail := true, target := 2, outstanding := outstanding, lastIssued := last, failed := false, resolved := resolved, late := late, loops := [], calls := [] }

/-- A stretch at the pins, of entry 0 and instance 0. -/
def play (i : Nat) (last : Bool) : Play :=
  { entry := 0, instId := 0, index := i, vectors := 64, isLast := last, chunk := none, firstVec := 0, startsAt := 0, hold := 4000, training := none, nextVec := 0, mismatched := false }

/-- The first instance of the MATCH_JUMP at entry 0 plays, and its condition stands. -/
def atMatch (c : MatchCond) : Quire :=
  { running [entry 0 7 0 2, entry 2 1 0 0] with playing := some (play 0 true), seq := { Sequencer.reset with plan := [{ block 0 7 1 with begun := 1 }], cond := some c } }

theorem witness_MatchConditions :
    (∀ late ∈ [false, true], ∀ last ∈ [false, true], let c := cond 1 last late none; (atMatch c).seq.cond = some c ∧ c.resolved = none ∧ 0 < c.outstanding
        ∧ ((c.failed || true) = true ∨ (c.outstanding = 1 ∧ c.lastIssued = true)))
    ∧ (let c := cond 1 true false none; (c.failed || false) = false ∧ c.outstanding = 1 ∧ c.lastIssued = true ∧ c.late = false)
    ∧ (let c := cond 2 true false none; (c.failed || false) = false ∧ 1 < c.outstanding ∧ c.resolved = none)
    ∧ (∀ r ∈ [none, some true], let c := cond 1 false false r; let s := with0 (atMatch c); (s.quire 0).playing = some (play 0 true) ∧ (s.quire 0).seq.plan = [{ block 0 7 1 with begun := 1 }]
        ∧ (0 < 1) ∧ s.heldPackets = [] ∧ c.resolved = r ∧ (s.quire 0).matchVerdict c = none ∧ (play 0 true).entry = c.entry ∧ c.late = false ∧ (s.quire 0).bindOp c.target = 1) := by
  refine ⟨?_, ?_, ?_, ?_⟩ <;> decide +kernel

/-! ### Chunks -/

/-- A slot of the release stage for chunk 0 of signature 0. -/
def slot (n : Nat) : Slot :=
  { seq := n, primary := none, copyCrc := none, trapped := none, engine := 0, sig := 0, inst := 0, index := 0, late := false, shadowed := false, primaryEnded := false, copyEnded := false, poisoned := false }

/-- An entry whose chunks are all made stands before one that has a chunk to make, of signature 0 in SRAM (`home` 1) or DRAM. -/
def making (home : Nat) (requested slots : Nat) (held : Bool) : Quire :=
  { running [(rk 3 0, BitVec.ofNat 32 (2 ^ 26 * home)), (rk 3 4, 100)] with
    sigs := [(0, { SigState.reset with buf := .loaded })]
    seq := { Sequencer.reset with plan := [{ block 0 1 1 with requested := 1, created := 1 }, { block 1 1 2 with requested := requested }] }
    slots := (List.range slots).map slot, held := held }

/-- An item in the matching store, and the request for its data. -/
def fetching (n : Nat) (home : Nat := 0) : Quire :=
  { running [(rk 3 0, BitVec.ofNat 32 (2 ^ 26 * home))] with store := [item 64], dram := { Dram.reset with queue := [{ port := .fetch, line := 0, write := false, age := 0, high := false, critical := false, promoted := false, sig := 0, seq := n, retries := 0, replays := 0 }] } }

theorem witness_ChunkCreation :
    (∀ r ∈ [0, 1], let x := making 1 r 0 false; x.state.inRun = true ∧ x.seq.plan = [{ block 0 1 1 with requested := 1, created := 1 }] ++ { block 1 1 2 with requested := r } :: [] ∧ x.seq.landingAsk = []
        ∧ (1 ≤ 1) ∧ r < 2)
    ∧ (∀ home ∈ [0, 1], let x := making home 2 15 false; x.dram.full .fetch = false ∧ x.dataKnown { block 1 1 2 with requested := 2 } = true ∧ x.slots.length < 16 ∧ x.store.length < 512 ∧ x.sigHome 0 = home
        ∧ ¬(x.sigChunks 0 ≤ 0 + 1))
    ∧ (∀ held ∈ [false, true], let x := making 0 2 16 held; x.dataKnown { block 1 1 2 with requested := 2 } = true ∧ ¬(x.slots.length < 16 ∧ x.store.length < 512) ∧ x.held = held)
    ∧ (∀ n ∈ [0, 1], let x := fetching n; x.store = [] ++ item 64 :: [] ∧ (∀ z ∈ ([] ++ [] : List Item), z.seq ≠ (item 64).seq) ∧ (item 64).kind = .pattern ∧ x.sigHome 0 = 0 ∧ ((∀ r ∈ x.dram.queue ++ x.dram.issued, r.write = false → r.seq ≠ (item 64).seq) ↔ n = 1))
    ∧ (∀ i ∈ [0, 1], let x := { fetching 1 2 with stream := [{ sig := 0, inst := 0, index := i, crc := 0, data := [] }] };
        x.store = [] ++ item 64 :: [] ∧ x.sigHome 0 = 2 ∧ x.sigKind 0 ≠ 1 ∧ ((∃ c ∈ x.stream ++ x.streamHeads, c.sig = (item 64).sig ∧ c.inst = (item 64).inst ∧ c.index = (item 64).index) ↔ i = 0)) := by
  decide +kernel

/-- One ready item; engine 5 is the only one not fenced, and holds the context of the item or none. -/
def placing (c : Option Nat) : Quire :=
  { (running []).setEngine 5 { Engine.reset with context := c } with ready := [item 64], fences := ~~~(32#128) }

theorem witness_ItemPlacement :
    (∀ c ∈ [none, some 0], let x := placing c; x.state ≠ .off ∧ x.ready = [item 64] ∧ (item 64).kind = .pattern ∧ (item 64).cls = 1 ∧ (item 64).copy = false
        ∧ (item 64).shadowed = false ∧ (item 64).avoid = none ∧ (x.engine 5).item = none ∧ x.fenced 5 = false)
    ∧ (let x := placing (some 0); x.store = [] ∧ x.derivation = none ∧ x.failQueue = [] ∧ x.raEn = false ∧ (x.engine 5).context = some (item 64).sig
        ∧ ∀ g : EngId, g ≠ 5 → x.fenced g.val = false → (x.engine g.val).lastUse < (x.engine 5).lastUse)
    ∧ (let x := placing none; (∀ g : EngId, x.fenced g.val = false → (x.engine g.val).context ≠ some (item 64).sig)
        ∧ (∀ g : EngId, g ≠ 5 → x.fenced g.val = false → (x.engine 5).lastUse < (x.engine g.val).lastUse) ∧ injecting 0x17 0x80 x.injections = false) := by
  decide +kernel

/-- A chunk of signature 0 with nothing in it. -/
def chunk0 : Chunk :=
  { kind := .data, voidCause := 0, poisoned := false, last := true, shadowed := false, landing := false, sig := 0, inst := 0, index := 0, vectors := 64, pinmask := 0, seq := 0,
    crc := 0, sets := [], words := [], edges := [], engine := 0 }

/-- The slot at the release pointer as given, and a checksum table. -/
def releasing (sl : Slot) (table : List Word) : Quire := { running [] with slots := [sl], sigs := [(0, { SigState.reset with buf := .loaded, table := table })] }

theorem witness_ChunkRelease :
    (∀ sl ∈ [{ slot 0 with primary := some { chunk0 with kind := .voidCancelled } }, { slot 0 with primaryEnded := true, late := true }],
        let s := with0 (releasing sl []); let x := s.quire 0;
        s.heldPackets = [] ∧ x.slots = [sl] ∧ x.fifo.length < 8 ∧ x.sigHome sl.sig ≠ 2 ∧ sl.shadowed = false ∧ injecting 0x15 sl.engine x.injections = false
          ∧ (sl.cancelled = true ∨ (sl.primaryEnded = true ∧ sl.late = true ∧ x.entryPending sl.seq = false)))
    ∧ (let c := { chunk0 with crc := chunk0.check }; let sl := { slot 0 with primary := some c, primaryEnded := true }; let x := releasing sl [c.crc];
        sl.cancelled = false ∧ sl.late = false ∧ sl.trapped = none ∧ sl.poisoned = false ∧ x.entryPending sl.seq = false ∧ c.sig = sl.sig ∧ x.sigHome sl.sig ≠ 2 ∧ x.hasTable c.sig = true
          ∧ c.check = c.crc ∧ (x.sig c.sig).table.getD c.index 0 = c.crc)
    ∧ (let c := { chunk0 with crc := chunk0.check + 1 }; let sl := { slot 0 with primary := some c, primaryEnded := true }; sl.late = false ∧ sl.trapped = none ∧ c.check ≠ c.crc)
    ∧ (let sl := { slot 0 with primaryEnded := true, poisoned := true }; sl.cancelled = false ∧ sl.late = false ∧ sl.poisoned = true ∧ (releasing sl []).entryPending sl.seq = false)
    ∧ (∀ code ∈ [0x07, 0x80], let sl := { slot 0 with trapped := some (BitVec.ofNat 8 code), primaryEnded := true };
        sl.trapped = some (BitVec.ofNat 8 code) ∧ sl.primaryEnded = true ∧ sl.cancelled = false ∧ sl.late = false ∧ sl.poisoned = false ∧ (code = 7 ↔ BitVec.ofNat 8 code = trapEcc)) := by
  decide +kernel

/-- An instance at the pins or held. -/
def inst (hold : Option Nat) : Inst := { id := 0, entry := 0, sig := 0, inst := 0, fails := 0, causes := 0, k := 0, hold := hold, endedAt := 0, recSeq := none }

/-- Chunk 0 of signature 0 ends at the pins, and chunk 1 is due. -/
def due (stall : Nat) (fifo : List Chunk) : Quire :=
  { running [entry 0 1 0 0 stall, (rk 3 4, 100)] with
    playing := some (play 0 false), fifo := fifo, insts := [inst none]
    seq := { Sequencer.reset with plan := [{ block 0 1 1 with begun := 1, firstInst := some 0, alloc := 1 }] } }

theorem witness_ChunkAtThePins :
    (∀ stall ∈ [0, 1], let s := with0 (due stall [{ chunk0 with index := 1 }]); let x := s.quire 0; let b := { block 0 1 1 with begun := 1, firstInst := some 0, alloc := 1 };
        s.timingRuns = true ∧ x.state = .running ∧ x.stopReq = none ∧ x.seq.wait = none ∧ x.seq.plan = [b] ∧ b.op = 1 ∧ x.playing = some (play 0 false) ∧ (play 0 false).isLast = false
          ∧ x.fifo = [{ chunk0 with index := 1 }] ∧ chunk0.kind = .data ∧ chunk0.sig = b.sig ∧ b.begun - 1 < b.alloc ∧ chunk0.inst = b.inst (b.begun - 1)
          ∧ (bit (x.cfg 0x02 (32 * b.entry)) 27 && x.pausePending) = false)
    ∧ (let x := due 1 []; x.fifo = [] ∧ bit (x.cfg 0x02 0) 27 = true)
    ∧ (let x := due 0 []; x.fifo = [] ∧ bit (x.cfg 0x02 0) 27 = false ∧ x.insts.filter (fun z => z.hold.isNone) = [inst none] ∧ x.skipping = false) := by
  decide +kernel

/-- The last chunk of an instance plays, with `n` records in the verdict store. -/
def ending (n : Nat) : Quire :=
  { running [entry 0 1 0 0] with
    playing := some (play 0 true), insts := [inst none], seq := { Sequencer.reset with plan := [{ block 0 1 2 with begun := 1 }] }
    verdicts := List.replicate n { id := 9, verdict := .pass, entry := 0, sig := 0, inst := 0, fails := 0, recSeq := 0, causes := 0 } }

/-- A failing instance in its hold, its record pending; with `keep`, only failing records are kept. -/
def holding (causes : Nat) (keep : Nat) : Quire :=
  let i := { inst (some 100) with causes := BitVec.ofNat 16 causes, recSeq := some 0 };
  { running [(rk 0x0C 0, BitVec.ofNat 32 (16 * keep))] with insts := [i], verdicts := [{ id := 0, verdict := .pending, entry := 0, sig := 0, inst := 0, fails := 0, recSeq := 0, causes := 0 }] }

theorem witness_InstanceVerdicts :
    (∀ n ∈ [4095, 4096], let s := with0 (ending n); let x := s.quire 0;
        s.timeBad = false ∧ x.state = .running ∧ x.playing = some (play 0 true) ∧ x.seq.plan = [{ block 0 1 2 with begun := 1 }] ∧ x.sweep = none ∧ x.seq.cond = none
          ∧ inst none ∈ x.insts ∧ (inst none).id = (play 0 true).instId ∧ (∀ j ∈ x.insts, j.id = (inst none).id → j = inst none)
          ∧ (n = 4095 → x.verdicts.length < 4096) ∧ (n = 4096 → 4096 ≤ x.verdicts.length))
    ∧ (∀ causes ∈ [0, 1, 2, 3, 4, 0x4000], ∀ keep ∈ [0, 1], let s := with0 (holding causes keep); let x := s.quire 0;
        let i : Inst := { inst (some 100) with causes := BitVec.ofNat 16 causes, recSeq := some 0 };
        i.hold.isSome = true ∧ x.insts.find? (fun j => j.id = i.id && j.hold.isSome) = some i ∧ s.collector.reports = [] ∧ (bit (x.cfg 0x0C 0) 4 = true ↔ keep = 1)) := by
  decide +kernel

/-- A quire that has played a cycle-mode set in its run, timing set 0 of 1 ns. -/
def cycled (x : Quire) : Quire :=
  { x with committed := some ((x.committed.getD []) ++ [(rk 4 0, 4000), (rk 4 8, 3)]), seq := { x.seq with lastSet := some 0, ozPlayed := true } }

/-- END at entry 0 with every vector played; the last instance may still be held. The outputs park at once, or one period later. -/
theorem witness_EndOfBindingRun :
    (∀ c ∈ [false, true], let x := if c then cycled (running [entry 0 0 0 0]) else running [entry 0 0 0 0];
        let parksAt := if x.seq.ozPlayed then x.position + x.holdPeriod else 0; x.spilled = [] ∧ (parksAt ≤ (with0 x).time.ticks * 4000 ↔ c = false)) ∧
    ∀ i ∈ [[], [inst (some 100)]], let x := { running [entry 0 0 0 0] with insts := i, run := { RunVerdict.reset with active := true } };
      x.state = .running ∧ x.seq.plan = [] ∧ x.playing = none ∧ fld (x.cfg 0x02 (32 * x.seq.pc)) 28 4 = 0 ∧ x.occupied = none ∧ x.stopReq = none ∧ x.stopWaiters = []
        ∧ x.run.active = true ∧ x.run.verdict = .pending := by
  decide +kernel

/-! ### Sessions and configuration -/

/-- Link 1, up with 8 lanes and without a session, beside the steward's link 0. -/
def two (x : Quire) : State :=
  let s := with0 x;
  { s with links := s.links.set 1 { Link.reset with isDefined := true, base := 8, width := 8, phase := .up, inService := 0xFF, rxService := 0xFF } }

/-- HELLO; OPEN_SESSION on link 1 that asks for the steward role and every quire, not exactly, and for quire 1 exactly. -/
theorem witness_SessionsOpen :
    chip.TakesSealed opHello (hdr .ctrl 0 0) []
    ∧ (∀ exact ∈ [0, 2], let mask : Byte := if exact = 0 then 0xFF else 2; let h := { hdr .ctrl mask 4 with link := 1, session := 0 };
        let p : Params := [BitVec.ofNat 8 (1 - exact / 2 + exact), 0, 0, 0]; let s := two quire0;
        s.TakesSealed opOpenSession h p ∧ h.session = 0 ∧ (s.session h.link).isOpen = false
          ∧ ((p.getD 0 0).getLsbD 1 = true → (∀ q : QId, h.qmask.getLsbD q.val = true → (s.quire q).owner = none ∨ (s.quire q).owner = some h.link) ∧ (p.getD 0 0).getLsbD 0 = false)) := by
  simp only [takes_iff]; decide +kernel

theorem witness_SessionsEnd :
    (∀ st ∈ [QState.armed, .running, .paused, .parked], ∀ b ∈ [0, 1, 2, 3], let s := two { quire0 with state := st }; let p : Params := [BitVec.ofNat 8 b, 0, 0, 0];
        s.gov.waiting = [] ∧ s.spine.restartWanted = none ∧ s.TakesSealed opCloseSession (hdr .ctrl 1 4) p ∧ (p.getD 0 0).getLsbD 1 = decide (2 ≤ b) ∧ (s.quire 0).owner = some 0)
    ∧ (let s : State := { chip with sessions := chip.sessions.set 0 { chip.session 0 with holding := true } };
        (s.session 0).isOpen = true ∧ (s.session 0).holding = true ∧ s.gov.waiting = [] ∧ s.spine.restartWanted = none) := by
  simp only [takes_iff]; decide +kernel

/-- A configuration address of quire 0 and a count of words. -/
def cfgParams (page o n : Nat) (data : List Byte) : Params := le 4 (2 ^ 28 + 2 ^ 20 * page + o) ++ le 4 n ++ data

/-- The first two pages of configuration, in a state with a staging copy and in one with a committed copy. -/
theorem witness_ConfigurationAccess :
    (∀ st ∈ [QState.parked, .running], let p := cfgParams 2 0 2 []; let s := with0 { quire0 with state := st };
        2 ∈ configPages ∧ (hdr .ctrl 1 8).qmask = BitVec.ofNat 8 (2 ^ 0) ∧ s.TakesSealed opReadCfg (hdr .ctrl 1 8) p ∧ parW p 0 = BitVec.ofNat 32 (2 ^ 28 * (0 + 1) + 2 ^ 20 * 2 + 0) ∧ par p 4 2 = 2
          ∧ (∀ i < 2, cfgMask 2 (0 + 4 * i) ≠ 0 ∧ (0 + 4 * i) % 4 = 0 ∧ 0 + 4 * i < 0xFFFFC) ∧ (s.quire 0).state ≠ .off ∧ s.collector.injections = [])
    ∧ (∀ st ∈ [QState.parked, .staged], let s := with0 { quire0 with state := st };
        s.TakesSealed opWriteCfg (hdr .ctrl 1 8) (cfgParams 2 0 7 []) ∧ s.TakesSealed opWriteCfgBlock (hdr .ctrl 1 16) (cfgParams 2 0 2 [1, 2, 3, 4, 5, 6, 7, 8])
          ∧ par (cfgParams 2 0 2 [1, 2, 3, 4, 5, 6, 7, 8]) 4 2 = 2 ∧ s.TakesSealed opWriteCfg (hdr .ctrl 1 8) (cfgParams 2 0xFFFFC 7 [])
          ∧ parW (cfgParams 2 0xFFFFC 7 []) 0 = BitVec.ofNat 32 (2 ^ 28 * (0 + 1) + 2 ^ 20 * 2 + 0xFFFFC) ∧ ((s.quire 0).state = .parked ∨ (s.quire 0).state = .staged)) := by
  simp only [takes_iff]; decide +kernel

/-! ### The pattern memory channel -/

/-- A request for a line. -/
def req (p : Port) (line : Nat) : DramReq :=
  { port := p, line := line, write := false, age := 0, high := false, critical := false, promoted := false, sig := 0, seq := 0, retries := 0, replays := 0 }

/-- The queue of a port with no request, and with as many as it holds. -/
theorem witness_ports (p : Port) :
    Dram.reset.full p = false ∧ ({ Dram.reset with queue := List.replicate (Config.portDepth p.code + 1) (req p 0) } : Dram).full p = true := by
  refine ⟨rfl, ?_⟩
  simp [Dram.full, req, List.replicate_succ]

/-- Quire 0 with its channel available. -/
def chan (f : Dram → Dram) : Quire :=
  { running [(rk 0x11 0, 1)] with dram := f { Dram.reset with available := true, ranks := #v[.active, .active, .spare], spareOk := true } }

/-- Requests to all four bank sets of rank 0. -/
def busy (p : Port) : List DramReq := [req p 0, req p 16, req p 32, req p 48]

theorem witness_DramRefreshes :
    (∀ n ∈ [0, 3, 4], ∀ p ∈ [Port.fetch, .hostLoad], let d := (chan fun d => { d with queue := busy p, postponed := #v[n, 0, 0] }).dram;
        d.available = true ∧ d.changing = none ∧ d.ranks[(0 : Fin 3)] ≠ .failed ∧ (¬∃ b < 4, ∀ r ∈ d.queue, 0 ∈ d.ranksOf r → r.line / 16 % 4 ≠ b)
          ∧ ((∃ r ∈ d.queue, 0 ∈ d.ranksOf r ∧ r.port = .fetch) ↔ p = .fetch) ∧ d.postponed[(0 : Fin 3)] = n)
    ∧ (∀ n ∈ [0, 1, 3], ∀ u ∈ [10, 11], let d := (chan fun d => { d with queue := [req .hostLoad 0], clock := 10, blockedUntil := #v[u, 0, 0], postponed := #v[n, 0, 0] }).dram;
        (∃ b < 4, ∀ r ∈ d.queue, 0 ∈ d.ranksOf r → r.line / 16 % 4 ≠ b) ∧ (¬∃ r ∈ d.queue, 0 ∈ d.ranksOf r ∧ r.port = .fetch) ∧ d.postponed[(0 : Fin 3)] = n ∧ (d.blockedUntil[(0 : Fin 3)] ≤ d.clock ↔ u = 10))
    ∧ (chan fun d => { d with ranks := #v[.failed, .active, .active] }).dram.ranks[(0 : Fin 3)] = .failed
    ∧ (∀ n ∈ [0, 1], (chan fun d => { d with coolReads := n }).dram.coolReads = n) := by
  decide +kernel

/-- Forced work, requests of every step of R472, requests of a rank that a refresh blocks, and the intervals that ask for a change of frequency set. -/
theorem witness_DramCommandSlots :
    (∀ f ∈ [#v[true, true, false], #v[false, true, true], #v[false, false, true], #v[false, false, false]], ∀ a ∈ [9, 10], let d := (chan fun d => { d with clock := 10, forced := f, rfmForced := [(0, 7)], blockedUntil := #v[10, 10, 11], queue := [{ req .fetch 0 with age := a }] }).dram;
        d.available = true ∧ d.changing = none ∧ d.forced = f ∧ d.rfmForced = [(0, 7)]
          ∧ ∀ rank : Fin 3, ((d.forced[rank] = true ∧ d.blockedUntil[rank] ≤ d.clock ∧ ∀ r ∈ d.queue, rank.val ∈ d.ranksOf r → r.port = .fetch → d.blockedUntil[rank] ≤ r.age) ↔ d.forced[rank] = true ∧ (rank = 1 ∨ (rank = 0 ∧ a = 10))))
    ∧ (∀ u ∈ [10, 11], ∀ till ∈ [10, 11], let d := (chan fun d => { d with
          clock := 10, blockedUntil := #v[u, 0, 0], bankBlocks := [⟨0, 0, none, 9, till⟩, ⟨1, 0, some 77, 0, 99⟩], queue := [req .fetch 0, { req .fetch 1 with high := true }, { req .capture 2 with promoted := true }, req .scratch 3] }).dram;
        (∀ r : Fin 3, d.forced[r] = false) ∧ d.rfmForced = [] ∧ d.rfm = []
          ∧ ((∃ r ∈ d.queue, (∀ k ∈ d.ranksOf r, d.blockedUntil.toList.getD k 0 ≤ d.clock)
              ∧ ∀ b ∈ d.banksOf r, ∀ k ∈ d.bankBlocks, ¬(k.since ≤ d.clock ∧ d.clock < k.till ∧ (k.only = some b ∨ (k.only = none ∧ b / 64 = k.rank ∧ b % 4 = k.bank)))) ↔ u = 10 ∧ till = 10))
    ∧ (∀ n ∈ [0, 2], ∀ p ∈ [Port.migration, .capture], let d := (chan fun d => { d with migrating := true, migrateNext := n }).dram; let r := req p 1;
        d.spare = some 2 ∧ (r.port = .migration ↔ p = .migration) ∧ (d.migrating = true ∧ r.line / 4096 % 2 = d.migrateRank ∧ r.line / 4096 / 2 * 4096 + r.line % 4096 < d.migrateNext ↔ n = 2))
    ∧ (chan fun d => { d with ranks := #v[.active, .active, .retired] }).dram.spare = none
    ∧ (let x := chan id; let s : State := { with0 { x with state := .parked } with regs := [(rk 5 0, BitVec.ofNat 32 (2 ^ 30))] };
        s.dramAuto = true ∧ bit ((s.quire 0).cfg 0x11 0) 0 = true ∧ (s.quire 0).state.inRun = false ∧ (s.quire 0).dram.rateSet = false)
    ∧ (let x := chan fun d => { d with rateSet := true }; let s : State := { with0 { x with committed := none } with regs := [(rk 5 0, BitVec.ofNat 32 (2 ^ 30))] };
        s.dramAuto = true ∧ ¬(bit ((s.quire 0).cfg 0x11 0) 0 = true ∧ ((s.quire 0).state.inRun = true → (s.quire 0).sramOnly = true)) ∧ (s.quire 0).dram.rateSet = true)
    ∧ (let x := chan fun d => { d with changing := some true }; x.dram.changing = some true ∧ x.occupied = none ∧ x.rawReads = [])
    ∧ (let d := (chan fun d => { d with queue := [req .capture 0, req .fetch 1] }).dram;
        d.queue = [req .capture 0] ++ req .fetch 1 :: [] ∧ (∀ z ∈ d.queue, ¬(z.port = .fetch ∧ z.high = true ∧ z.critical = false)) ∧ (∀ z ∈ [req .capture 0], ¬(z.port = .fetch ∧ z.high = false))
          ∧ (req .fetch 1).high = false ∧ (req .capture 0).port ≠ .fetch ∧ (req .capture 0).promoted = false)
    ∧ (let r := { req .fetch 1 with high := true }; let d := (chan fun d => { d with queue := [r] }).dram;
        (∀ z ∈ d.queue, ¬(z.port = .fetch ∧ z.high = false)) ∧ r.port = .fetch ∧ r.high = true ∧ r.critical = false) := by
  refine ⟨?_, ?_, ?_, ?_, ?_, ?_, ?_, ?_, ?_⟩ <;> decide +kernel

/-- A fetch for the item in the matching store, and a write, as issued. -/
def issued (rs : List DramReq) (f : Dram → Dram := id) : Quire := let x := chan fun d => f { d with issued := rs, clock := 10 }; { x with store := [item 64] }

theorem witness_DramErrors :
    (∀ wrong ∈ [0, 1, 8, 9, 80], ∀ mis ∈ [false, true], ∀ poison ∈ [[], [5]], ∀ crit ∈ [false, true], let r := { req .fetch 5 with critical := crit, age := 10 }; let x := issued [r] fun d => { d with poison := poison };
        injecting 0x18 0 x.injections = false ∧ x.dram.issued.find? (fun z => !z.write && z.port ≠ .migration) = some r ∧ (r.line ∈ x.dram.poison ↔ poison = [5])
          ∧ ((r.port = .fetch ∧ (r.critical = true ∨ r.age + x.latencyTarget < x.dram.clock)) ↔ crit = true) ∧ x.dram.migrating = false ∧ item 64 ∈ x.store ++ x.ready ∧ (item 64).seq = r.seq
          ∧ (⟨Fin.ofNat 81 wrong, mis⟩ : LineRead).wrong.val = wrong)
    ∧ (∀ n ∈ [2, 3], let r := { req .capture 5 with write := true, retries := n }; let x := issued [r]; x.dram.issued.find? (·.write) = some r ∧ r.retries = n)
    ∧ (∀ n ∈ [2, 3], ∀ w ∈ [false, true], let r := { req .fetch 5 with replays := n, write := w }; let x := issued [req .capture 9, r]; x.dram.lastOther = none ∧ x.dram.issued.getLast? = some r ∧ r.replays = n ∧ r.write = w
        ∧ x.dram.migrating = false)
    ∧ (∀ n ∈ [0, 268435454], let r := { req .migration 5 with replays := 3 }; let d := (issued [r] fun d => { d with migrating := true, migrateRank := 0, migrateNext := n }).dram;
        d.lastOther = none ∧ d.issued.getLast? = some r ∧ r.write = false ∧ d.migrating = true ∧ d.spare.isSome = true ∧ d.onSpare r.line = decide (5 < n) ∧ d.migrateNext + 1 < d.rows * 4096)
    ∧ (∀ n ∈ [2, 3], let d := (issued [] fun d => { d with lastOther := some (0, n) }).dram; d.lastOther = some (0, n) ∧ d.migrating = false ∧ ∀ k, d.spare = some k → k.val ≠ 0)
    ∧ (∀ n ∈ [0, 268435454, 268435455], ∀ k ∈ [0, 1], let r := req .migration 5; let d := (issued [r] fun d => { d with migrating := true, migrateRank := k, migrateNext := n }).dram;
        d.migrating = true ∧ d.issued.find? (·.port = .migration) = some r ∧ d.spare = some 2 ∧ r.line ∉ d.poison
          ∧ (d.migrateNext + 1 < d.rows * 4096 ↔ n < 268435455) ∧ (d.migrateNext + 1 = d.rows * 4096 ↔ n = 268435455)
          ∧ (if d.migrateRank = 0 then d.physL0 else d.physL1) < 3 ∧ (if d.migrateRank = 0 then d.physL0 else d.physL1) ≠ 2) := by
  refine ⟨?_, ?_, ?_, ?_, ?_, ?_⟩ <;> decide +kernel

/-! ### Time and clocks -/

/-- The chip with chip-scope registers, a chip time and a change of its `Time`. -/
def timed (regs : Regs) (ns : Nat) (f : Time → Time) : State := { chip with regs := regs, time := f { chip.time with ns := ns } }

theorem witness_ChipTime :
    (let p := le 8 (2 ^ 63 - 1) ++ le 4 0; chip.TakesSealed opTimeSet (hdr .ctrl 0 12) p ∧ t12Ok chip.modeOz p 0 = true ∧ parT12 chip.modeOz p 0 < 2 ^ 63)
    ∧ (∀ r ∈ [0x00FFBE76C9, 0x0100418937], let p := le 8 r; chip.TakesSealed opTimeAdj (hdr .ctrl 0 8) p ∧ 0x00FFBE76C9 ≤ par p 0 8 ∧ par p 0 8 ≤ 0x0100418937)
    ∧ chip.TakesSealed opTimeRead (hdr .ctrl 0 0) []
    ∧ (∀ l ∈ [[], [TimeChange.adj 5], [TimeChange.set 7], [TimeChange.load (2 ^ 95) (-3)]], let s := timed [] 9 fun t => { t with pending := l };
        s.timingRuns = true ∧ s.heldPackets = [] ∧ s.time.pending = l ∧ s.syncMode = 0)
    ∧ (let s : State := { chip with clock := Clock.reset }; s.timingRuns = false ∧ s.heldPackets = []) := by
  simp only [takes_iff]; refine ⟨?_, ?_, ?_, ?_, ?_⟩ <;> decide +kernel

/-- What a tick of 4,000 units does to a quire: a delayed item that is due, a park profile at its instant, a marker's pulse that is over. -/
theorem witness_ChipTime_quires :
    (∀ d ∈ [none, some 9, some 10], let it := { item 64 with due := d }; ((match it.due with | some d => decide (d ≤ 9) | none => true) = true ↔ d ≠ some 10))
    ∧ (∀ at_ ∈ [4000, 4001], let x := { running [] with parkDue := some (0, at_) }; x.parkDue = some (0, at_) ∧ (4000 < at_ ↔ at_ = 4001) ∧ x.spilled = [])
    ∧ (let x := { running [] with markers := [{ Marker.reset with active := true }, .reset] }; (x.marker 0).active = true ∧ ∀ now ∈ [2000, 2001], ((x.markerFall 0).any (· < now) = true ↔ now = 2001)) := by
  refine ⟨?_, ?_, ?_⟩ <;> decide +kernel

/-- `SYNC` with a period of 1,000 ns and a window of 10 ns, in a mode. -/
def synced (mode ns : Nat) (f : Time → Time) : State := timed [(rk 3 0, BitVec.ofNat 32 (2 ^ 30 * mode + 1000)), (rk 3 8, 10000)] ns f

/-- The edge falls on a multiple of the period, at the window's edge, beyond it, and half a period away. -/
theorem witness_SyncEdges :
    (∀ mode ∈ [1, 2], ∀ ns ∈ [2000, 2010, 2011, 2500], let s := synced mode ns fun t => { t with syncState := .locked };
        s.timingRuns = true ∧ injecting 0x06 0 s.collector.injections = false ∧ 1 ≤ fld (s.reg (rk 3 0)) 0 16 ∧ fld (s.reg (rk 3 0)) 30 2 = mode
          ∧ (∀ q, (s.quire q).seq.wait = none) ∧ s.time.syncState = .locked ∧ (|s.edgeError 0| ≤ 4 * ((fld (s.reg (rk 3 8)) 0 16 : Nat) : Int) ↔ ns ≤ 2010))
    ∧ (∀ n ∈ [0, 1], (synced 1 2500 fun t => { t with syncState := .locked, misses := n }).time.misses = n)
    ∧ (synced 1 2500 fun t => { t with syncState := .acquire }).time.syncState = .acquire
    ∧ (let x := atWait 9 (some (.trig 0 none)); let s := { with0 x with regs := (synced 2 0 id).regs };
        fld (s.reg (rk 3 0)) 30 2 = 2 ∧ (s.quire 0).seq.wait = some (.trig 0 none) ∧ (s.quire 0).seq.plan = [block 0 9 1] ∧ (s.quire 0).state = .running
          ∧ fld ((s.quire 0).cfg 0x02 (32 * 0 + 8)) 30 2 = 0) := by
  refine ⟨?_, ?_, ?_, ?_⟩ <;> decide +kernel

/-- A time message with its type, length, sequence and flag byte. -/
def msg (type len seq flags : Nat) : List Byte :=
  ((((((List.replicate len (0 : Byte)).set 0 (BitVec.ofNat 8 type)).set 1 0x12).set 3 (BitVec.ofNat 8 len)).set 6 (BitVec.ofNat 8 flags)).set 31 (BitVec.ofNat 8 seq))

/-- Time transfer enabled on link 0, in a state of its exchange. -/
def ptp (f : Ptp → Ptp) : State := timed [(rk 2 0x1C, 0x101)] 1000 fun t => { t with ptp := t.ptp.set 0 (f Ptp.reset) }

/-- The header of R669, on link 0. -/
def headed (s : State) (m : List Byte) (type len : Nat) : Bool :=
  decide (m.length = len) && decide ((m.getD 0 0).toNat = type) && decide ((m.getD 1 0).toNat = 0x12) && decide (be m 2 2 = len) && decide ((m.getD 4 0).toNat = fld (s.reg (rk 2 0x1C)) 16 8)

theorem witness_TimeTransfer :
    (let s := ptp id; (s.link 0).phase = .up ∧ bit (s.reg (rk 2 0x1C)) (0 : LinkId).val = true ∧ s.timingRuns = true
        ∧ s.restarting = false ∧ ({ s with spine := { s.spine with restarting := true } } : State).restarting = true ∧ headed s (msg 0 44 5 2) 0 44 = true ∧ ((msg 0 44 5 2).getD 6 0).getLsbD 1 = true ∧ headed s (msg 0 45 5 2) 0 44 = false)
    ∧ (let s := ptp fun x => { x with syncMsg := some (5, 0, ⟨9, 0⟩) }; (s.time.ptp[(0 : LinkId)]).syncMsg = some (5, 0, ⟨9, 0⟩) ∧ headed s (msg 8 44 5 0) 8 44 = true
        ∧ (5#16).toNat = be (msg 8 44 5 0) 30 2 ∧ (5#16).toNat ≠ be (msg 8 44 6 0) 30 2)
    ∧ (∀ n ∈ [1, 2], let s := ptp fun x => { x with dreqDue := n }; 0 < (s.time.ptp[(0 : LinkId)]).dreqDue ∧ s.timingRuns = true ∧ (s.time.ptp[(0 : LinkId)]).tsq.length < 16)
    ∧ (let s := { (ptp fun x => { x with dreqDue := 1 }) with clock := Clock.reset }; 0 < (s.time.ptp[(0 : LinkId)]).dreqDue ∧ s.timingRuns = false)
    ∧ (let s := ptp fun x => { x with dreq := some (5, ⟨9, 0⟩), completed := some (4, 0, 0, ⟨9, 0⟩) };
        (s.time.ptp[(0 : LinkId)]).dreq = some (5, ⟨9, 0⟩) ∧ (s.time.ptp[(0 : LinkId)]).completed = some (4, 0, 0, ⟨9, 0⟩) ∧ (5#16).toNat ≠ be (msg 9 54 6 0) 30 2)
    ∧ (let m := (msg 9 54 5 0).take 44 ++ portIdentity 0; headed (ptp id) m 9 54 = true ∧ (5#16).toNat = be m 30 2)
    ∧ (let m := (msg 9 54 5 0).take 44 ++ portIdentity 0; (m.drop 44).take 10 = portIdentity 0) := by
  refine ⟨?_, ?_, ?_, ?_, ?_, ?_, rfl⟩ <;> decide +kernel

/-- A kettle frame of a type with a right CRC. -/
def frame (type hop payload : Nat) : BitVec 96 := let b : BitVec 96 := BitVec.ofNat 96 (2 ^ 20 * payload + 2 ^ 12 * hop + 2 ^ 8 * type); b + BitVec.ofNat 96 (2 ^ 84 * (crc12 b).toNat)

/-- A chip in a role of the kettle chain. -/
def chained (role : Nat) (f : Time → Time) : State := timed [(rk 3 0x100, BitVec.ofNat 32 (2 ^ 30 * role))] 0 f

theorem witness_KettleFrames :
    (∀ type ∈ [1, 2, 3], ∀ hop ∈ [0, 255], let f := frame type hop 77; f.toNat / 2 ^ 84 = (crc12 f).toNat ∧ f.toNat / 2 ^ 8 % 16 = type ∧ f.toNat / 2 ^ 12 % 256 = hop)
    ∧ (let f := frame 1 0 77 + BitVec.ofNat 96 (2 ^ 84); f.toNat / 2 ^ 84 ≠ (crc12 f).toNat)
    ∧ (∀ role ∈ [1, 2], ∀ out ∈ [false, true], let s := chained role fun t => { t with pingOut := out };
        fld (s.reg (rk 3 0x100)) 30 2 = role ∧ s.time.pingOut = out ∧ s.timingRuns = true ∧ s.syncMode = 0)
    ∧ ({ chained 2 id with clock := Clock.reset } : State).timingRuns = false := by
  refine ⟨?_, ?_, ?_, ?_⟩ <;> decide +kernel

/-- The chip with its clocks as given, and REC enabled. -/
def clocked (f : Clock → Clock) : State := { chip with clock := f chip.clock, regs := [(rk 1 0, 3)], lanes := chip.lanes.set 0 { Lane.reset with lock := true } }

theorem witness_ClockStops :
    (∀ e, injecting 0x01 e (clocked id).collector.injections = false ∧ injecting 0x04 e (clocked id).collector.injections = false ∧ injecting 0x05 e (clocked id).collector.injections = false)
    ∧ (let s := clocked id; let c := s.clock; c.domain = .running ∧ c.timingSrc = .xo ∧ c.xo = .good ∧ c.xoArmed = true)
    ∧ (let s := clocked fun c => { c with recovered := .good }; let c := s.clock;
        c.domain = .running ∧ c.timingSrc = .xo ∧ c.recovered = .good ∧ bit (s.reg (rk 1 0)) 0 = true ∧ c.adoptedOnce = false ∧ c.xoArmed = true ∧ ∀ q, (s.quire q).state.inRun = false)
    ∧ (let s := clocked fun c => { c with recovered := .good, timingSrc := .recovered }; let c := s.clock;
        c.domain = .running ∧ c.timingSrc = .recovered ∧ c.recovered = .good ∧ bit (s.reg (rk 1 0)) 0 = true ∧ c.xo = .good ∧ c.xoArmed = true ∧ s.collector.real.getLsbD 4 = false)
    ∧ (∀ d ∈ [(2000 : Int), -2001], (|d| ≤ 2000 ↔ d = 2000))
    ∧ (∀ again ∈ [false, true], let s := clocked fun c => { c with recovered := .failed, timingSrc := .recovered, domain := .stopping, next := .xo }
        let s : State := { s with collector := { s.collector with real := if again then 16 else 0 } }; let c := s.clock
        c.domain = .stopping ∧ c.next = .xo ∧ c.xo = .good ∧ c.timingSrc = .recovered ∧ s.collector.real.getLsbD 4 = again) := by
  refine ⟨fun e => ⟨rfl, rfl, rfl⟩, ?_, ?_, ?_, ?_, ?_⟩ <;> decide +kernel

theorem witness_ClockJudgement :
    (∀ n ∈ [0, 1, 2], let s := clocked fun c => { c with xo := .judging, xoWindows := n }; 2 ≤ s.boot.step ∧ s.clock.xo ≠ .good ∧ s.clock.xoWindows = n ∧ s.clock.domain ≠ .stopped)
    ∧ (∀ n ∈ [0, 1, 2], let s := clocked fun c => { c with recWindows := n };
        s.clock.recovered = .judging ∧ bit (s.reg (rk 1 0)) 0 = true ∧ s.clock.xo = .good ∧ (s.lane (laneId (fld (s.reg (rk 1 0)) 16 4))).lock = true ∧ s.clock.recWindows = n)
    ∧ (∀ recovered ∈ [SrcState.judging, .good], ∀ d ∈ [1000, 1001], let w : WindowDrift := { lro := 1000 * d, other := d }; ((if recovered = .good then |w.other| ≤ 1000 else |w.lro| ≤ 1000000) ↔ d = 1000) ∧ (|w.other| ≤ 1000 ↔ d = 1000))
    ∧ (clocked fun c => { c with recovered := .failed }).clock.recovered = .failed
    ∧ (∀ src ∈ [TimingSrc.none, .xo, .recovered], (clocked fun c => { c with domain := .locking, lastSrc := src }).clock.domain = .locking
        ∧ (clocked fun c => { c with domain := .locking, lastSrc := src }).clock.lastSrc = src ∧ (clocked fun c => { c with domain := .locking, lastSrc := src }).clock.timingSrc = .xo)
    ∧ (let s := { synced 1 0 id with clock := { Clock.reset with domain := .locking, lastSrc := .xo } }; s.syncMode = 1 ∧ 3000 ≤ 3 * fld (s.reg (rk 3 0)) 0 16 ∧ ¬(3001 ≤ 3 * fld (s.reg (rk 3 0)) 0 16)
        ∧ ∀ x ∈ [TimeChange.adj 5], x = .adj 5) := by
  refine ⟨?_, ?_, ?_, ?_, ?_, ?_⟩ <;> decide +kernel

/-! ### Reset and boot -/

theorem witness_InternalReset :
    (let p := le 4 0x7248; chip.TakesSealed opChipReset (hdr .ctrl 0 4) p ∧ par p 0 4 = 0x7248 ∧ chip.boot.vsramFallen = false)
    ∧ (∀ x ∈ [ScanInstr.idcode, .bypass, .bootStatus], let b := { chip.boot with scan := x }; b.scan = x ∧ b.step < 16 ∧ b.ms < 65536) := by
  simp only [takes_iff]; refine ⟨?_, ?_⟩ <;> decide +kernel

/-- The chip in a step of its start-up. -/
def booting (n : Nat) (f : State → State) : State := f { chip with boot := { chip.boot with step := n } }

theorem witness_BootSteps :
    (State.reset.boot.resetNLow = true ∧ State.reset.boot.railFallen = false ∧ State.reset.boot.scan.holds = false ∧ State.reset.boot.step = 0)
    ∧ (∀ n ∈ [1, 2, 3, 4, 5, 6, 7, 8], let s := booting n id; s.boot.step = n ∧ (∀ k, (s.link k).phase ≠ .training) ∧ s.heldPackets = [] ∧ s.heldReplies = [] ∧ s.heldTimes = [] ∧ partValid s.flash.partition = false)
    ∧ (let s := booting 6 fun s => { s with flash := { s.flash with banks := #v[.fitted, { CalBank.fitted with generation := 2 }] } };
        s.flash.banks[1].valid = true ∧ s.flash.banks[0].valid = true ∧ s.flash.banks[0].generation < s.flash.banks[1].generation)
    ∧ (let s := booting 6 fun s => { s with flash := { s.flash with banks := #v[.erased, .erased] } }; s.flash.banks[0].valid = false ∧ s.flash.banks[1].valid = false)
    ∧ (let s := booting 7 fun s => { s with cal := { s.cal with storeValid := true }, quires := s.quires.set 0 { quire0 with dram := { Dram.reset with board := 7 } } };
        s.cal.storeValid = true ∧ (s.quire 0).dram.board.getLsbD 0 = true ∧ (s.quire 0).dram.board.getLsbD 1 = true ∧ (s.quire 0).dram.board.getLsbD 2 = true ∧ fld (s.quire 0).dram.board 28 2 ≠ 3
          ∧ (7#3).getLsbD 1 = true ∧ (5#3).getLsbD 0 = true ∧ (5#3).getLsbD 1 = false ∧ (5#3).getLsbD 2 = true)
    ∧ ((booting 8 id).quire 0).vpinHeld = true ∧ ((booting 8 id).quire 1).vpinHeld = false := by
  refine ⟨?_, ?_, ?_, ?_, ?_, ?_⟩ <;> decide +kernel

/-! ### Control of the quires -/

/-- A command in progress on link 0. -/
def dest (op qmask : Byte) : ReplyTo := { link := 0, opcode := op, session := 8, tag := 7, qmask := qmask }

/-- The command is in progress; one on several quires that selects quire 0 alone waits for it. -/
def owing (d : ReplyTo) (s : State) : State :=
  { s with
    sessions := s.sessions.set 0 { s.session 0 with inProgress := [(d.tag, d.opcode, d.qmask)] }
    maskWaits := [{ dest := d, waiting := d.qmask, status := List.replicate 8 (0xFF, 0), records := List.replicate 8 [] }] }

/-- Staging whose thresholds rise: everything else at reset passes the checks of COLLATE. -/
def passing : Regs := (List.range 32).flatMap fun p => [(rk 9 (0x100 + 16 * p), 0x10000#32), (rk 9 (0x104 + 16 * p), 2#32)]

/-- A staged quire that has been committed before, with a calibration store in force. -/
def staged (ever : Bool) (regs : Regs) (f : Quire → Quire := id) : Quire := f { quire0 with state := .staged, everCommitted := ever, staging := regs }
def collating (store : Bool) (x : Quire) : State := let s := with0 x; { s with cal := { s.cal with storeValid := store } }

/-- A quire with its staging copy in the place of the committed one. -/
def tryout (x : Quire) : Quire := { x with committed := some x.staging }

/-- Class 2 work for signature 0: what is still to be made, and whether it has failed. -/
def work (todo : List Nat) (failed : Option Nat) : Derivation := { sigs := [0], todo := todo, next := 0, staged := true, unasked := [], unwritten := [], made := [], failed := failed }

/-- A COLLATE in progress, with its class 2 work, or one that waits for VPINq to settle. -/
def collate0 (o : ReplyTo → Occupier) (f : Quire → Quire) (ticks : Nat := 0) : State :=
  let d := dest 0x10 1
  let s := owing d (with0 (staged true [] fun x => f { x with occupied := some (o d) }))
  { s with time := { s.time with ticks := ticks } }

theorem witness_Collation :
    (let x := staged true passing; let y := tryout x; let s := collating true x; s.TakesSealed opCollate (hdr .ctrl 1 0) [] ∧ (s.quire 0).state = .staged
        ∧ (hdr .ctrl 1 0).qmask = BitVec.ofNat 8 (2 ^ (0 : QId).val) ∧ y.phase1 = [] ∧ y.phase2 s.modeOz = [] ∧ y.phase3 s.cal.storeValid = [])
    ∧ (let x := staged false []; let y := tryout x; rk 1 0xFFFFC ∈ y.phase1 ∧ ∀ b ∈ y.phase1, rk 1 0xFFFFC ≤ b)
    ∧ (let y := tryout (staged true []); y.phase1 = [] ∧ (y.phase2 false).head? = some (rk 9 0x100) ∧ (y.phase2 false).Pairwise (· < ·))
    ∧ (let x := staged true passing; let y := tryout x; y.phase3 false = [(0, stNoResource)])
    ∧ (∀ v ∈ [none, some (work [] none)], let d := dest 0x10 1; let s := collate0 .collate fun x => { x with derivation := v }; let x := s.quire 0; s.Owes d ∧ x.occupied = some (.collate d) ∧ x.owner = some 0
        ∧ (tryout x).vpinSet = x.vpinSetpoint ∧ x.derivedDone = true ∧ (∀ w, x.derivation = some w → w.failed = none) ∧ (x.phase4 (tryout x)).runReserve = 1500 ∧ 1500 ≤ s.allocation 0
        ∧ ({ s with regs := [(rk 5 4, 1000)] } : State).allocation 0 < 1500)
    ∧ (let x := (collate0 .collate fun x => { x with derivation := some (work [0] none) }).quire 0; x.derivedDone = false)
    ∧ (work [] (some 0)).failed = some 0
    ∧ (let x := staged true [(rk 8 0, 1000)]; (tryout x).vpinSet ≠ x.vpinSetpoint)
    ∧ (∀ ticks ∈ [299999, 300000], ∀ good ∈ [200000, 200001], ∀ mv ∈ [959, 960, 1040, 1041], let d := dest 0x10 1; let s := collate0 (fun d => .settle d 5000 100) (fun x => { x with vpinSetpoint := 1000, vpinFrom := 1200, vpinGood := good }) ticks; let x := s.quire 0;
        let rampUs := (x.vpinSetpoint - x.vpinFrom) + (x.vpinFrom - x.vpinSetpoint);
        s.Owes d ∧ x.occupied = some (.settle d 5000 100)
          ∧ (x.vpinSince + 1000 * rampUs + 100000 ≤ s.time.ticks ∧ x.vpinOk = true ∧ x.vpinGood + 100000 ≤ s.time.ticks ∧ x.vpinSetpoint ≤ mv + 40 ∧ mv ≤ x.vpinSetpoint + 40
            ↔ ticks = 300000 ∧ good = 200000 ∧ (mv = 960 ∨ mv = 1040))) := by
  simp only [takes_iff]; unfold State.Owes
  refine ⟨?_, ?_, ?_, ?_, ?_, ?_, ?_, ?_, ?_⟩ <;> decide +kernel

/-- Quire 0 in a state of a run, with what a test adds. -/
def inState (st : QState) (f : Quire → Quire := id) : Quire := f { running [] with state := st }

/-- VCORE at a voltage, with a quire that START takes; a thermal hold turns it away. -/
def starting (meas : Nat) (hold : Bool) (f : Quire → Quire := id) : State :=
  let s := with0 (inState .armed f);
  { s with gov := { s.gov with vcoreMeas := meas, thermalHold := hold } }

/-- A START that waits for VCORE, with the regulator of that rail fitted or not. -/
def waiting0 (w : StartWait) (present : Bool) : State :=
  let s := (starting 0 false fun x => { x with reserved := true }).retarget
  { owing w.dest s with gov := { s.gov with waiting := [w], rails := [{ RailView.reset with present := present }] } }

theorem witness_ArmAndStart :
    (∀ st ∈ [QState.collated, .stopped], let s := with0 (inState st); s.TakesSealed opArm (hdr .ctrl 1 0) [] ∧ s.owns 0 0 = true ∧ (s.quire 0).state = st ∧ (s.quire 0).pmu = none)
    ∧ (∀ n ∈ [0, 8], let d := dest 0x11 1; let s := owing d (with0 (inState .armed fun x => { x with occupied := some (.arm d), fifo := List.replicate n chunk0, slots := [slot 0], seq := { x.seq with plan := [block 0 1 1] } }));
        (s.quire 0).occupied = some (.arm d) ∧ (8 ≤ (s.quire 0).fifo.length ↔ n = 8) ∧ ((s.quire 0).filled = false ↔ n = 0) ∧ (s.quire 0).dram.changing = none ∧ (s.quire 0).dram.available = false ∧ s.OwesOne d 0)
    ∧ (let d := dest 0x11 3; let s := owing d (with0 (inState .armed fun x => { x with occupied := some (.arm d), fifo := List.replicate 8 chunk0 })); (s.quire 0).occupied = some (.arm d) ∧ 8 ≤ (s.quire 0).fifo.length ∧ (s.quire 0).dram.changing = none
        ∧ (s.quire 0).dram.available = false ∧ ∃ m ∈ s.maskWaits, s.maskWaits.find? (fun m => m.dest = d) = some m ∧ m.waiting.getLsbD (1 : QId).val = true)
    ∧ (∀ at_ ∈ [0, 2000], let p := le 8 at_ ++ le 4 0; let s := starting (starting 0 false).retarget.vcoreTarget false;
        s.TakesSealed opStart (hdr .ctrl 1 12) p ∧ t12Ok s.modeOz p 0 = true ∧ s.owns 0 0 = true ∧ (s.quire 0).state = .armed ∧ parT12 s.modeOz p 0 = at_ ∧ s.time.ns + 2000 ≤ 2000
          ∧ s.retarget.admits 0 1 = true ∧ s.retarget.vcoreReaches 1 = true ∧ s.retarget.vcoreThere 1 = true ∧ s.retarget.vcoreInTime 1 2000 = true ∧ s.timingRuns = true)
    ∧ (let s := starting 0 false; s.retarget.admits 0 1 = true ∧ s.retarget.vcoreReaches 1 = true ∧ s.retarget.vcoreThere 1 = false)
    ∧ (starting 0 true).retarget.admits 0 1 = false
    ∧ (let s := with0 (inState .parked); s.TakesSealed opStart (hdr .ctrl 1 12) (le 8 0 ++ le 4 0) ∧ s.owns 0 0 = true ∧ (s.quire 0).state ≠ .armed)
    ∧ (let s := atTime 5 (inState .armed fun x => { x with startPending := some 5 }); (s.quire 0).state = .armed ∧ (s.quire 0).startPending = some 5 ∧ s.timingRuns = true ∧ 5 ≤ s.time.ns)
    ∧ (∀ meas ∈ [0, (starting 0 false).retarget.vcoreTarget], ∀ present ∈ [false, true], let d := dest 0x12 1; let w : StartWait := { dest := d, mask := 1, newly := 1 }; let s := waiting0 w present
        s.gov.waiting = [w] ∧ (s.quire 0).state = .armed ∧ s.Owes d ∧ s.timingRuns = true ∧ (s.rail 0).present = present ∧ s.vcoreThere w.mask = false
          ∧ (s.vcoreTarget ≤ meas % 2048 + 10 ∧ meas % 2048 ≤ s.vcoreTarget + 10 ↔ meas ≠ 0)) := by
  simp only [takes_iff]; unfold State.OwesOne State.Owes
  refine ⟨?_, ?_, ?_, ?_, ?_, ?_, ?_, ?_, ?_⟩ <;> decide +kernel

/-- A chunk that is not the last of its instance plays, before a stall-safe entry or not. -/
def midway (st : QState) (stall : Nat) (f : Quire → Quire := id) : Quire := f { due stall [] with state := st }

theorem witness_StopPauseResume :
    (let s := with0 (inState .armed); s.TakesSealed opStop (hdr .ctrl 1 0) [] ∧ s.owns 0 0 = true ∧ (s.quire 0).state = .armed ∧ (s.quire 0).stopReq = none ∧ (s.quire 0).stopWaiters = [] ∧ s.gov.waiting = [])
    ∧ (∀ st ∈ [QState.running, .paused], let s := with0 (midway st 0); s.TakesSealed opStop (hdr .ctrl 1 0) [] ∧ (s.quire 0).state.inPlay = true ∧ (s.quire 0).stopReq = none)
    ∧ (∀ cause ∈ [StopCause.host, .chip], let d := dest 0x13 1; let r := { cause := cause, rebind := false, waiter := some d }; let s := owing d (with0 (midway .running 0 fun x => { x with stopReq := some r }));
        (s.quire 0).state.inPlay = true ∧ (s.quire 0).playing = some (play 0 false) ∧ (play 0 false).isLast = false ∧ s.heldPackets = [] ∧ (s.quire 0).stopWaiters = [] ∧ (s.quire 0).stopReq = some r
          ∧ (s.quire 0).occupied = none ∧ s.OwesOne d 0)
    ∧ (let d := dest 0x16 1; let r := { cause := StopCause.host, rebind := true, waiter := none };
        let s := owing d (with0 (midway .running 0 fun x => { x with stopReq := some r, occupied := some (.rebind d) })); (s.quire 0).stopReq = some r ∧ (s.quire 0).occupied = some (.rebind d) ∧ s.OwesOne d 0)
    ∧ (∀ stall ∈ [0, 1], let s := with0 (midway .running stall fun x => { x with pausePending := true }); let x := s.quire 0;
        s.TakesSealed opPause (hdr .ctrl 1 0) [] ∧ x.state = .running ∧ x.pausePending = true ∧ x.seq.wait = none ∧ x.playing = some (play 0 false) ∧ (play 0 false).isLast = false
          ∧ (bit (x.cfg 0x02 (32 * (play 0 false).entry)) 27 = true ↔ stall = 1))
    ∧ (let x := { midway .running 1 with playing := none, seq := { Sequencer.reset with plan := [block 0 1 1] } };
        (with0 x).TakesSealed opPause (hdr .ctrl 1 0) [] ∧ x.seq.wait = none ∧ x.playing = none ∧ (block 0 1 1).begun < (block 0 1 1).count ∧ bit (x.cfg 0x02 0) 27 = true)
    ∧ (∀ n ∈ [0, 8], ∀ host ∈ [false, true], let s := with0 (midway .paused 1 fun x => { x with hostPaused := host, fifo := List.replicate n chunk0 }); let x := s.quire 0;
        s.TakesSealed opResume (hdr .ctrl 1 0) [] ∧ x.state = .paused ∧ (x.headMissing = false ∧ (fld (x.cfg 0x01 0) 8 4 ≤ x.fifo.length ∨ x.restOfInstance ≤ x.fifo.length) ↔ n = 8) ∧ x.hostPaused = host ∧ x.resumePending = false) := by
  simp only [takes_iff]; unfold State.OwesOne State.Owes
  refine ⟨?_, ?_, ?_, ?_, ?_, ?_, ?_⟩ <;> decide +kernel

/-- A stop takes effect where the outputs park at once, and where they park one period later. -/
theorem witness_StopPauseResume_parks :
    ∀ c ∈ [false, true], let x := if c then cycled (midway .running 0) else midway .running 0;
      let parksAt := if x.seq.ozPlayed then x.position + x.holdPeriod else 0; x.spilled = [] ∧ (parksAt ≤ (with0 x).time.ticks * 4000 ↔ c = false) := by
  decide +kernel

theorem witness_RebindAndReset :
    (∀ st ∈ [QState.collated, .stopped, .armed], let s := with0 (inState st); s.TakesSealed opRebind (hdr .ctrl 1 0) [] ∧ s.heldPackets = [] ∧ s.gov.waiting = [] ∧ s.owns 0 0 = true ∧ (s.quire 0).state = st)
    ∧ (∀ st ∈ [QState.running, .paused], let s := with0 (inState st); s.TakesSealed opRebind (hdr .ctrl 1 0) [] ∧ (s.quire 0).state.inPlay = true ∧ (s.quire 0).stopReq = none)
    ∧ (let s := with0 (inState .faulted fun x => { x with occupied := some (.collate (dest 0x10 1)) }); s.TakesSealed opQuireReset (hdr .ctrl 1 0) [] ∧ s.spine.restartWanted = none ∧ (s.quire 0).state ≠ .off
        ∧ ∀ d ∈ (s.quire 0).dests, d.opcode ≠ 0x17) := by
  simp only [takes_iff]; refine ⟨?_, ?_, ?_⟩ <;> decide +kernel

/-! ### Signatures -/

/-- A directory entry of signature 0: KIND, HOME and groups. -/
def dir (kind home groups : Nat) : Regs := [(rk 3 0, BitVec.ofNat 32 (2 ^ 31 + 2 ^ 28 * kind + 2 ^ 26 * home)), (rk 3 4, BitVec.ofNat 32 groups), (rk 3 8, 1)]

/-- LOAD_SIGNATURE's parameters for signature 0: flags, image bytes, offset and data. -/
def segment (flags bytes off n : Nat) : Params := le 2 0 ++ [BitVec.ofNat 8 flags, 0, 0, 0, 0, 0] ++ le 8 bytes ++ le 8 off ++ List.replicate n 0x5A

/-- A quire with a directory, in staging and in force. -/
def holding0 (st : QState) (regs : Regs) (f : Quire → Quire := id) : Quire := f { quire0 with state := st, staging := regs, committed := some regs }

/-- A PLAY of signature 0 of home STREAM stands first, and its first packet is expected. -/
def streaming (f : Quire → Quire := id) : Quire :=
  holding0 .armed ([(rk 1 8, 64), entry 0 1 0 0, entryWord 0 4 1] ++ dir 0 2 4) f

/-- STREAM_DATA's parameters for signature 0. -/
def packet0 (chunk n : Nat) : Params := le 2 0 ++ le 2 0 ++ le 4 chunk ++ le 4 7 ++ le 4 0 ++ List.replicate n 0

theorem witness_Signatures :
    (∀ st ∈ [QState.parked, .staged, .running], ∀ home ∈ [0, 1], let p := segment 3 64 0 64; let h := hdr .bulk 1 88;
        let s := with0 (holding0 st (dir 0 home 1) fun x => { x with dram := { x.dram with available := true } }); let x := s.quire 0; let v := x.shown;
        s.TakesSealed opLoadSignature h p ∧ h.qmask = BitVec.ofNat 8 (2 ^ (0 : QId).val) ∧ par p 0 2 < 1024 ∧ v.sigValid 0 = true ∧ v.sigHome 0 = home ∧ x.dram.available = true
          ∧ v.sigLoc 0 + 0 + 64 ≤ x.homeBytes home ∧ par p 16 8 = 0 ∧ (p.drop 24).length = 64 ∧ par p 8 8 = 64 ∧ x.state = st ∧ x.refs 0 = 0 ∧ (x.sig 0).buf ≠ .freeDeferred)
    ∧ (let p := segment 1 128 64 64; (with0 (holding0 .parked (dir 0 1 1))).TakesSealed opLoadSignature (hdr .bulk 1 88) p ∧ (p.getD 2 0).getLsbD 0 = true ∧ (p.getD 2 0).getLsbD 1 = false ∧ 0 < (p.drop 24).length
        ∧ par p 16 8 % 64 = 0 ∧ par p 16 8 + 64 ≤ par p 8 8)
    ∧ (∀ fill ∈ [0, 65535], let s := with0 (streaming fun x => { x with stream := if fill = 0 then [] else [{ sig := 5, inst := 0, index := 0, crc := 0, data := List.replicate fill 0 }] }); let x := s.quire 0;
        let h := { hdr .stream 1 80 with flags := BitVec.ofNat 8 (if fill = 0 then 1 else 0) };
        s.TakesSealed opStreamData h (packet0 0 64) ∧ s.heldPackets = [] ∧ streamStates x.state = true ∧ x.sigValid 0 = true ∧ x.sigHome 0 = 2 ∧ (x.windowBytes + 64 ≤ x.windowSize ↔ fill = 0) ∧ 64 ≤ x.windowSize)
    ∧ ((streaming).streamExpected = some (0, 0, 0) ∧ (0 : Nat) = par (packet0 0 64) 4 4 ∧ (0 : Nat) ≠ par (packet0 1 64) 4 4 ∧ (with0 streaming).TakesSealed opStreamData (hdr .stream 1 80) (packet0 1 64))
    ∧ (let x := streaming; x.windowSize < (packet0 0 65600).length - 16 ∧ (with0 x).TakesSealed opStreamData (hdr .stream 1 65616) (packet0 0 65600))
    ∧ (∀ n ∈ [0, 1], let s := with0 (holding0 .running (dir 0 1 1) fun x => { x with seq := { x.seq with plan := [{ block 0 1 1 with begun := n }] } }); let p := le 4 0; let x := s.quire 0;
        s.TakesSealed opFreeSignature (hdr .ctrl 1 4) p ∧ s.TakesSealed opQuerySignature (hdr .ctrl 1 4) p ∧ x.state ≠ .off ∧ x.state ≠ .faulted ∧ x.refs 0 = n) := by
  simp only [takes_iff]; refine ⟨?_, ?_, ?_, ?_, ?_, ?_⟩ <;> decide +kernel

/-- An ALGO image: the words of a program of at most 16 words, nested X, Y, Z. -/
def algoImage (prog : List Word) : List Byte :=
  le 4 1 ++ le 4 prog.length ++ le 4 0 ++ le 4 0 ++ le 4 100 ++ List.replicate 44 0 ++ prog.flatMap leW ++ List.replicate (64 - 4 * prog.length) 0
    ++ List.replicate 64 0 ++ List.replicate 72 0 ++ [0x24] ++ List.replicate 55 0

/-- A program that emits one group of drive codes and times it. -/
def oneGroup : List Word := [encB 0x10 ⟨2, 0, 64⟩, encA 0x30 ⟨0, 0, 0, 63⟩, encA 0x31 ⟨0, 0, 2, 0⟩, encA 0x3E ⟨0, 0, 0, 0⟩]

/-- A load behind another one of its link, and one whose channel changes its set; a full queue stands in `witness_ports`. -/
theorem witness_Signatures_room :
    (let s := { with0 (holding0 .parked (dir 0 0 1)) with heldPackets := [.loadSignature (hdr .bulk 1 88) (segment 3 64 0 64)] }; s.loadWaits 0 = true ∧ s.loadWaits 1 = false)
    ∧ (let x := holding0 .parked (dir 0 0 1) fun x => { x with dram := { x.dram with changing := some true } }; x.dram.changing ≠ none ∧ x.shown.sigHome 0 = 0)
    ∧ (let x := holding0 .running (dir 2 1 1) fun x => { x with sram := bwrite 0 (algoImage oneGroup) [], sigs := [(0, { SigState.reset with imageBytes := 320 })] }; x.reloadBad 0 = false ∧ 0 < x.deriveItems 0) := by
  refine ⟨?_, ?_, ?_⟩ <;> decide +kernel

/-- A load of signature 0 whose checks run, with the annotation committed and its class 2 work; without a program, the image is all zeros. -/
def checkingLoad (prog : List Word) (mw : Option Nat) (v : Option Derivation) : State :=
  let d := dest 0x20 1;
  owing d (with0 (holding0 .stopped (dir 2 1 1) fun x =>
    { x with occupied := some (.loadCheck d), sram := if prog = [] then [] else bwrite 0 (algoImage prog) [], derivation := v
             sigs := [(0, { SigState.reset with buf := .loading, checking := some d, committedMw := mw, imageBytes := 320 })] }))

/-- Class 2 work that has made the chunk of one group. -/
def madeOne : Derivation := { work [] none with staged := false, made := [{ chunk0 with sets := List.replicate 64 0, words := [0] }] }

theorem witness_LoadChecks :
    (let d := dest 0x20 1; let s := checkingLoad [] none none; (s.quire 0).occupied = some (.loadCheck d) ∧ ((s.quire 0).sig 0).checking.isSome = true ∧ s.Owes d ∧ (s.quire 0).reloadBad 0 = true)
    ∧ (let s := checkingLoad oneGroup none (some (work [] (some 0))); (s.quire 0).reloadBad 0 = false ∧ ∃ w, (s.quire 0).derivation = some w ∧ w.failed = some 0)
    ∧ (let s := checkingLoad oneGroup none (some (work [0] none)); (s.quire 0).reloadBad 0 = false ∧ (s.quire 0).derivedDone = false)
    ∧ (∀ n ∈ [383, 384], let x := (checkingLoad oneGroup (some n) (some madeOne)).quire 0; x.reloadBad 0 = false ∧ x.derivedDone = true ∧ madeOne.failed = none ∧ (x.sig 0).committedMw = some n
        ∧ x.annotation 0 (madeOne.result (x.tableItems 0) 0) = 384) := by
  unfold State.Owes; refine ⟨?_, ⟨?_, work [] (some 0), rfl, rfl⟩, ?_, ?_⟩ <;> decide +kernel

/-! ### Results -/

/-- A record of the verdict store. -/
def vrec (v : Verdict) (n : Nat) : VRec := { id := n, verdict := v, entry := 0, sig := 0, inst := 0, fails := 0, recSeq := BitVec.ofNat 16 n, causes := 0 }

/-- Capture with a first-N log of 16, a bitmap, and raw records of 1 KiB or in DRAM. -/
def captured (raw dram keep : Nat) : Regs := [(rk 0x0C 0, BitVec.ofNat 32 (2 ^ 16 * 16 + 2 * raw + 4 * dram + 16 * keep)), (rk 0x0C 0xC, 0x10001)]

theorem witness_ReadingResults :
    (∀ last ∈ [[], [(((0 : LinkId), 8#16, 1#16), [0])], [((0, 8#16, 2#16), [0]), ((1, 9, 1), [2])]], let p := le 4 500; let s := with0 (inState .stopped fun x => { x with verdicts := [vrec .pass 0, vrec .pending 1, vrec .fail 2], verdictRead := last });
        s.TakesSealed opReadVerdict (hdr .ctrl 1 4) p ∧ par p 0 2 ≤ 500 ∧ (s.quire 0).state ≠ .off ∧ (s.quire 0).verdictRead = last ∧ injecting 0x17 0x81 (s.quire 0).injections = false
          ∧ ((∀ e ∈ last, e.1 ≠ ((hdr .ctrl 1 4).link, (hdr .ctrl 1 4).session, (hdr .ctrl 1 4).tag)) ↔ last ≠ [((0, 8, 1), [0])]))
    ∧ (∀ a ∈ [1, 4, 5], let p := [BitVec.ofNat 8 a, 0, 0, 0] ++ le 4 4 ++ le 4 8; let s := with0 { inState .stopped with committed := some (captured 1 (a / 5) 0) };
        s.TakesSealed opReadCapture (hdr .ctrl 1 12) p ∧ par p 4 4 % 4 = 0 ∧ par p 8 4 % 4 = 0 ∧ 4 ≤ par p 8 4 ∧ par p 8 4 ≤ 131072 ∧ par p 4 4 + par p 8 4 ≤ (s.quire 0).areaBytes a
          ∧ injecting 0x17 0x81 (s.quire 0).injections = false)
    ∧ (∀ poison ∈ [[], [0]], let x := { inState .stopped with committed := some (captured 1 1 0) }; let x := { x with dram := { x.dram with poison := poison } }; let base := x.rawDramBase + 4;
        x.dram.migrating = false ∧ x.dram.changing = none ∧ { x.dram with available := true }.available = true ∧ { x.dram with available := true, changing := some false }.changing.isSome = true ∧ x.dram.available = false
          ∧ injecting 0x18 0 x.injections = false ∧ base / 64 = 0 ∧ (((List.range ((base + 8 + 63) / 64 - base / 64)).map (base / 64 + ·)).filter (fun l => x.dram.poison.contains l) = [] ↔ poison = []))
    ∧ (∀ a ∈ [2, 3], let p := [BitVec.ofNat 8 a, 0, 0, 0] ++ le 4 0 ++ le 4 4;
        let s := with0 { inState .stopped with committed := some [(rk 0x0C 0, 1), (rk 0x0C 0x104, 1), (rk 0x0C 0x108, 3), (rk 0x0C 0x10C, 3), (rk 0x0D 0, BitVec.ofNat 32 (2 ^ 31))] };
        s.TakesSealed opReadCapture (hdr .ctrl 1 12) p ∧ par p 4 4 + par p 8 4 ≤ (s.quire 0).areaBytes a ∧ (s.quire 0).raEn = true ∧ 0 < (s.quire 0).regionCount)
    ∧ (let s := with0 (inState .stopped); s.TakesSealed opReadRepair (hdr .ctrl 1 4) (le 4 0x80000001) ∧ (s.quire 0).state ≠ .off)
    ∧ (∀ n ∈ [0, 9], let p := le 8 n ++ le 4 0; let s := with0 (inState .stopped); s.TakesSealed opSnapshot (hdr .ctrl 1 12) p ∧ t12Ok s.modeOz p 0 = true ∧ s.owns 0 0 = true ∧ (s.quire 0).state ≠ .off ∧ parT12 s.modeOz p 0 = n)
    ∧ (∀ ns ∈ [8, 9], let d := dest 0x33 1; let w := { dest := d, mask := 1, atNs := 9 }; let s := { owing d (atTime ns (inState .stopped)) with snaps := [w] };
        s.snaps = [w] ∧ s.timingRuns = true ∧ (w.atNs ≤ s.time.ns ↔ ns = 9) ∧ w.mask = w.dest.qmask ∧ s.OwesOne w.dest 0) := by
  simp only [takes_iff]; unfold State.OwesOne State.Owes; refine ⟨?_, ?_, ?_, ?_, ?_, ?_, ?_⟩ <;> decide +kernel

/-! ### Capture and repair -/

/-- A chunk of pins 0 and 1: in vector 0, pin 0 compares with the code CL and pin 1 captures. -/
def compared : Chunk := { chunk0 with pinmask := 3, sets := List.replicate 64 0, words := [8, 14] }

/-- Its first vectors play under timing set 0, whose strobes are on, with some of capture's control bits. -/
def comparing (ctrl : Nat) (f : Quire → Quire := id) : Quire :=
  f { running [entry 0 1 0 0, (rk 4 8, 1), (rk 4 0x48, BitVec.ofNat 32 (2 ^ 31)), (rk 4 0x88, BitVec.ofNat 32 (2 ^ 31)), (rk 0x0C 0, BitVec.ofNat 32 (2 ^ 16 * 16 + ctrl)), (rk 0x0C 0xC, 0x10001),
        (rk 0x0C 0x120, BitVec.ofNat 32 (2 ^ 31))] with playing := some { play 0 true with chunk := some compared }, insts := [inst none] }

/-- A first-N record and a raw record. -/
def failRec : FailRec := { vec := 0, entry := 0, sig := 0, inst := 0, pins := 1, timeNs := 0, recSeq := 0 }
def rawRec : RawRec := { regions := 0, vec := 0, recSeq := 0, sig := 0 }
def failEntry (sig : Nat) : FailEntry := { sig := sig, inst := 0, vec := 0, pins := 1 }

theorem witness_CaptureOfCompares :
    (∀ g ∈ [0, 1], let x := comparing 1; (∃ a, x.playing = some a ∧ a.chunk = some compared ∧ a.nextVec ≤ 0 ∧ x.bindOp a.entry ≠ 7 ∧ a.training = none) ∧ compared.seq = 0 ∧ 0 < compared.vectors ∧ x.rawEn = false
        ∧ x.comparePins compared 0 = [0] ∧ compared.code 0 0 = 8 ∧ (g = 8 - 8 ↔ g = 0) ∧ bit (x.cfg 0x0C 4) 0 = false ∧ x.bmEn = true ∧ compared.sig ∈ x.bmSources ∧ x.firstNLen = 16)
    ∧ (comparing 0).bmEn = false
    ∧ (∀ n ∈ [15, 16], (comparing 1 fun x => { x with firstN := List.replicate n failRec }).firstN.length = n)
    ∧ (∀ n ∈ [4095, 4096], (comparing 1 fun x => { x with failQueue := List.replicate n (failEntry 0) }).failQueue.length = n)
    ∧ (∀ n ∈ [255, 256], ∀ m ∈ [63, 64], let x := comparing 2 fun x => { x with rawBuf := List.replicate n rawRec, raw := List.replicate m rawRec };
        x.rawEn = true ∧ x.rawBuf.length = n ∧ x.raw.length = m ∧ x.rawCapacity = 64 ∧ 1 ∈ pinsOf compared.pinmask ∧ compared.code 1 0 = 14)
    ∧ (∀ code ∈ [8, 13], let x := { running [entry 0 9 0 0, entryWord 0 8 (2 ^ 30 + 2 ^ 16 * code)] with seq := { Sequencer.reset with plan := [block 0 9 1], wait := some (.trig 0 none) } };
        x.playing = none ∧ x.recent = [] ∧ x.state = .running ∧ x.seq.wait = some (.trig 0 none) ∧ x.seq.plan = [block 0 9 1] ∧ fld (x.cfg 0x02 8) 30 2 = 1 ∧ fld (x.cfg 0x02 8) 16 4 = code ∧ fld (x.cfg 0x02 8) 24 5 = 0)
    ∧ (∀ dram ∈ [0, 1], ∀ m ∈ [0, 64, 4096], let x := comparing (2 + 4 * dram) fun x => { x with rawBuf := [rawRec], raw := List.replicate m rawRec };
        x.rawBuf = [rawRec] ∧ (x.rawInDram = true ↔ dram = 1) ∧ (x.raw.length < x.rawCapacity ↔ m < (if dram = 1 then 4096 else 64))) := by
  refine ⟨?_, ?_, ?_, ?_, ?_, ?_, ?_⟩ <;> decide +kernel

/-- Fails of two signatures in the queue, and a region with new cells or a search due. -/
def analysed (ra : Nat) (queue : List FailEntry) (r : Region) : Quire :=
  { inState .stopped with
    committed := some [(rk 0x0C 0, 1), (rk 0x0C 0x100, BitVec.ofNat 32 (2 ^ 16 + 1)), (rk 0x0C 0x104, 1), (rk 0x0C 0x108, 3), (rk 0x0C 0x10C, 3), (rk 0x0D 0, BitVec.ofNat 32 (2 ^ 31 * ra + 0x0101))]
    failQueue := queue, regions := [(0, r)] }

/-- The item of the background services that is ready, with the engine that dispatch chooses, and for a repair item that of its copy. -/
def itemRuns (x : Quire) (f : Item → Bool) (copied : Bool) : Bool :=
  let y := x.w.createBg.q
  match y.readyItem f with
  | some it =>
    match y.choose it with
    | some (.engine e m) =>
      let z := (x.w.createBg.place it e m { outcome := .good, entry := 0 }).q
      !copied || (match z.readyItem fun c => c.seq = it.seq && c.copy with | some c => (match z.choose c with | some (.engine _ _) => true | _ => false) | none => false)
    | _ => false
  | none => false

/-- An accumulating region with new cells, and one that is searched. -/
def gathering : Region := { Region.reset with phase := .accumulating, fresh := [(1, 2), (3, 2)] }
def searching : Region := { Region.reset with phase := .searching, cells := [(1, 2), (3, 4)] }

theorem witness_BackgroundServices :
    (∀ n ∈ [1, 65], ∀ ra ∈ [0, 1], let x := analysed ra (List.replicate n (failEntry 0) ++ [failEntry 1]) .reset;
        x.store.length < 512 ∧ injecting 0x17 0x81 x.injections = false ∧ x.failQueue = failEntry 0 :: (List.replicate (n - 1) (failEntry 0) ++ [failEntry 1]) ∧ (x.raEn = true ↔ ra = 1)
          ∧ itemRuns x (fun z => z.kind = .compress) false = true ∧ x.delay.length < 256)
    ∧ (∀ a ∈ [gathering, searching], let x := analysed 1 [] a; let b := x.w.createBg.q.region 0;
        x.raEn = true ∧ 0 < x.regionCount ∧ x.run.verdict = .pending ∧ ((x.region 0).fresh ≠ [] ↔ a = gathering) ∧ ((x.region 0).phase = .searching ↔ a = searching) ∧ b.closed = false
          ∧ x.bgItem (fun it => it.kind = .repair && it.region = 0) = none ∧ x.spareRows = 1 ∧ x.spareCols = 1 ∧ b.rows.length ≤ x.spareRows ∧ b.cols.length ≤ x.spareCols
          ∧ itemRuns x (fun z => z.kind = .repair && z.region = 0 && z.index = (if a = gathering then 0 else 1) && !z.copy) true = true)
    ∧ (∀ held ∈ [false, true], let x := { analysed 1 [failEntry 0] .reset with store := List.replicate 512 (item 64), heldBg := held }; 512 ≤ x.store.length ∧ x.failQueue ≠ [] ∧ x.heldBg = held)
    ∧ (∀ n ∈ [255, 256], ∀ held ∈ [false, true], let x := { analysed 1 [failEntry 0] .reset with delay := List.replicate n (item 64), heldDelay := if held then [(item 64).seq] else [] }; (x.delay.length < 256 ↔ n = 255) ∧ ((item 64).seq ∈ x.heldDelay ↔ held = true))
    ∧ (analysed 1 [] .reset).w.createBg.q.readyItem (fun z => z.kind = .compress) = none
    ∧ ∀ p, injecting 0x16 p (analysed 1 [] .reset).injections = false := by
  refine ⟨?_, ?_, ?_, ?_, ?_, fun _ => rfl⟩ <;> decide +kernel

/-- The output queue of the compression is full where the new cells of a region that it writes to are as many as it holds. -/
theorem witness_BackgroundServices_full :
    let it := { item 64 with fails := [failEntry 0] }
    (analysed 1 [] .reset).outputFull it = false ∧ (analysed 1 [] { Region.reset with fresh := List.replicate (Config.cellQueue + 1) (0, 0) }).outputFull it = true := by
  have h : ∀ r, (analysed 1 [] r).failRegions [failEntry 0] = [0] := fun r =>
    (show (analysed 1 [] r).failRegions [failEntry 0] = (analysed 1 [] .reset).failRegions [failEntry 0] from rfl).trans (by decide +kernel)
  have k : ∀ r, (analysed 1 [] r).region 0 = r := fun _ => rfl
  have j : ∀ r, (analysed 1 [] r).raEn = true := fun r => (show (analysed 1 [] r).raEn = (analysed 1 [] .reset).raEn from rfl).trans (by decide +kernel)
  simp [Quire.outputFull, h, k, j, Region.reset, List.replicate_succ]

/-! ### Calibration, flash and the Spine -/

/-- A re-trim at a step. -/
def retrim (pin : Nat) (step : RetrimStep) : Retrim := { pin := pin, all := false, forced := false, step := step, skipped := false, measuredAt := 0, found := ⟨[], []⟩ }

theorem witness_Calibration :
    (∀ pin ∈ [31, 32, 0xFF], ∀ f ∈ [0, 1], let s := with0 (inState .stopped); let p := [BitVec.ofNat 8 pin, BitVec.ofNat 8 f, 0, 0];
        s.TakesSealed opCalRetrim (hdr .ctrl 1 4) p ∧ (hdr .ctrl 1 4).qmask = BitVec.ofNat 8 (2 ^ (0 : QId).val) ∧ par p 1 1 = f ∧ f < 2 ∧ par p 0 1 = pin ∧ (s.quire 0).retrim = none ∧ (s.quire 0).endpaper.phase = .idle)
    ∧ (let s := with0 (inState .stopped fun x => { x with endpaper := { x.endpaper with phase := .serving, pin := 31 } }); s.TakesSealed opCalRetrim (hdr .ctrl 1 4) [31, 0, 0, 0] ∧ (s.quire 0).endpaper.pin = 31)
    ∧ (∀ pin ∈ [31, 32], (with0 (inState .stopped)).TakesSealed opCalQuery (hdr .ctrl 1 4) [BitVec.ofNat 8 pin, 0, 0, 0])
    ∧ (∀ r ∈ [-641, -640, 2400, 2401], let s := { chip with cal := { chip.cal with readings := [r] } }; s.cal.readings.getD 0 0 = r ∧ s.TakesSealed opCalQuery (hdr .ctrl 1 4) [0, 0, 0, 0] ∧ s.TakesSealed opCalQuery (hdr .ctrl 0 4) [0, 0, 0, 0])
    ∧ (∀ wait ∈ [0, 1], let p := le 4 0x1F ++ [BitVec.ofNat 8 wait, 0, 0, 0]; chip.TakesSealed opSelftest (hdr .ctrl 1 8) p ∧ (chip.quire 0).state = .parked ∧ par p 4 1 = wait)
    ∧ (∀ st ∈ [QState.stopped, .running], ∀ pin ∈ [31, 32], ∀ step ∈ [RetrimStep.measure, .dacs], let x := inState st fun x => { x with retrim := some (retrim pin step) };
        x.retrim = some (retrim pin step) ∧ (retrim pin step).pin = pin ∧ (retrim pin step).step = step ∧ x.cal.length = 33)
    ∧ chip.boot.step ≠ 0
    ∧ (let d := dest 0x60 1; let s := owing d (with0 { quire0 with occupied := some (.selftest d 0x1F) }); (s.quire 0).occupied = some (.selftest d 0x1F) ∧ s.Owes d)
    ∧ ({ quire0 with selftest := some 0x1F } : Quire).selftest = some 0x1F ∧ quire0.occupied = none := by
  simp only [takes_iff]; unfold State.Owes; refine ⟨?_, ?_, ?_, ?_, ?_, ?_, ?_, ?_, ?_⟩ <;> decide +kernel

/-- Factory sets of pin 0 of quire 0 and temperatures below, at, between and above the sets. -/
theorem witness_Calibration_follows :
    ∀ now ∈ [(-641 : Int), -640, 0, 1, 2400, 2401],
      let trim := fun (v : Int) => (⟨[v], [v]⟩ : Trim)
      let s := { with0 (inState .stopped fun x => { x with cal := [.reset] }) with
        flash := { chip.flash with banks := #v[{ CalBank.fitted with factory := [[[trim 10, trim 20, trim 30, trim 40, trim 50]]] }, .erased] }, gov := { chip.gov with temps := [now] } }
      let sets := s.flash.banks[(0 : Fin 2)].setsOf 0 0
      s.boot.step ≠ 0 ∧ s.cal.bank = false ∧ (s.quire 0).cal[0]? = some .reset ∧ s.gov.temps.getD 0 0 = now ∧ (∀ i ∈ List.range 5, (sets.getD i ⟨[], []⟩).taps = [10 * ((i : Int) + 1)])
        ∧ (now < -640 ↔ now = -641) ∧ (2400 < now ↔ now = 2401) := by
  decide +kernel

/-- A command of the Spine in progress. -/
def spineOwing (op : Byte) (f : Spine → Spine) : State := let s := owing (dest op 0) chip; { s with spine := f s.spine }

/-- A single segment is authentic or it is not: the check is free. -/
theorem witness_FlashAndSpine :
    (chip.TakesSealed opCalCommit (hdr .ctrl 0 0) [] ∧ chip.cal.commitBusy = none)
    ∧ (let s := owing (dest 0x39 0) chip; let s := { s with cal := { s.cal with commitBusy := some (dest 0x39 0) } }; s.cal.commitBusy = some (dest 0x39 0) ∧ s.Owes (dest 0x39 0))
    ∧ (∀ flags ∈ [1, 3], ∀ size ∈ [4, 8], let p := [BitVec.ofNat 8 flags, 0, 0, 0] ++ le 4 size ++ le 4 0 ++ [1, 2, 3, 4]; chip.TakesSealed opPatchStage (hdr .ctrl 0 16) p ∧ par p 4 4 = size ∧ par p 8 4 = 0
        ∧ p.drop 12 = [1, 2, 3, 4] ∧ p.getD 0 0 = BitVec.ofNat 8 flags ∧ size ≤ 98480 ∧ 0 + [1, 2, 3, 4].length ≤ size ∧ chip.spine.patchWaiter = none)
    ∧ (let s := { chip with spine := { chip.spine with stagedImage := [9, 9], stagedSize := 8 } }; let p := [0, 0, 0, 0] ++ le 4 8 ++ le 4 2 ++ [1, 2, 3, 4]; s.TakesSealed opPatchStage (hdr .ctrl 0 16) p
        ∧ par p 8 4 = s.spine.stagedImage.length ∧ par p 8 4 + 4 ≤ 8)
    ∧ (Config.patchAuthentic [1, 2, 3, 4] = true ∨ Config.patchAuthentic [1, 2, 3, 4] = false)
    ∧ (let s := spineOwing 0x58 fun x => { x with patchWaiter := some (dest 0x58 0) }; s.spine.patchWaiter = some (dest 0x58 0) ∧ s.Owes (dest 0x58 0))
    ∧ (∀ stage ∈ [0, 1], ∀ ok ∈ [false, true], let s := { chip with spine := { chip.spine with stagedValid := ok } }; let p := [BitVec.ofNat 8 stage, 0, 0, 0]; s.TakesSealed opSpineRestart (hdr .ctrl 0 4) p
        ∧ s.spine.restartWanted = none ∧ par p 0 1 = stage ∧ s.spine.stagedValid = ok)
    ∧ (4 ≤ chip.boot.step ∧ injecting 0x07 0 chip.collector.injections = false)
    ∧ (∀ stage ∈ [false, true], let d := dest 0x59 0; let s := spineOwing 0x59 fun x => { x with restartWanted := some (some d, stage) }; s.spine.restartWanted = some (some d, stage) ∧ s.spine.restarting = false
        ∧ (∀ q, (s.quire q).occupied = none) ∧ s.heldPackets = [] ∧ s.heldReplies = [] ∧ s.heldTimes = [] ∧ s.linkUp d.link = true ∧ ∃ e ∈ (s.session d.link).inProgress, e.1 = d.tag ∧ e.2.1 = d.opcode)
    ∧ (∀ b ∈ [false, true], let s := { chip with spine := { chip.spine with restarting := b } }; s.spine.restarting = b ∧ s.spine.restartWanted = none ∧ s.heldPackets = [] ∧ s.heldReplies = []) := by
  simp only [takes_iff]; unfold State.Owes
  refine ⟨?_, ?_, ?_, ?_, (Bool.eq_false_or_eq_true _), ?_, ?_, ?_, ?_, ?_⟩ <;> decide +kernel

/-! ### The log, faults and the budget -/

/-- The log with a number of entries, and tokens of code 1 that are taken. -/
def logged (n taken : Nat) (f : State → State := id) : State :=
  f { chip with
    regs := [(rk 7 0, 0x1010)]
    log := { chip.log with
      entries := (List.range n).map fun i => { seq := i, timeNs := 0, code := 1, source := 8, quire := 15, injected := false, timeInvalid := false, detail0 := 0, detail1 := 0, detail2 := 0 }
      taken := [(1, taken)] } }

/-- An event for the log. -/
def event (exempt : Bool) : LogEvent := { code := 1, source := 8, quire := none, injected := false, d0 := 1, d1 := 2, d2 := 3, exempt := exempt, at_ := none }

theorem witness_LogCommands :
    (∀ op ∈ [opLogFreeze, opLogThaw], chip.TakesSealed op (hdr .ctrl 0 0) [])
    ∧ (∀ n ∈ [1, 255], let p := le 4 1 ++ le 2 n ++ [0, 0]; (logged 3 0).TakesSealed opLogRead (hdr .ctrl 0 8) p ∧ par p 4 2 = n ∧ ((logged 3 0).reg (rk 8 0x104)).toNat < 2 ^ 32 - 2)
    ∧ ((logged 0 20).log.taken.map (·.1)).Nodup
    ∧ (∀ taken ∈ [15, 16], ∀ exempt ∈ [false, true], let s := logged 3 taken; ((event exempt).exempt = true ∨ sget (fun _ => 0) (event exempt).code.toNat s.log.taken < fld (s.reg (rk 7 0)) 8 8 ↔ exempt = true ∨ taken = 15)
        ∧ s.frozen = false ∧ s.log.entries.length < 8192 ∧ s.log.lost.toNat < 2 ^ 32 - 2 ∧ s.log.frozenDropped.toNat < 2 ^ 32 - 2 ∧ (sget (fun _ => (0 : Word)) (event exempt).code.toNat s.log.suppressed).toNat < 2 ^ 32 - 2)
    ∧ (logged 8191 0).log.entries.length = 8191 ∧ (logged 8192 0).log.entries.length = 8192
    ∧ (logged 3 0 fun s => { s with sessions := s.sessions.set 0 { s.session 0 with frozen := true } }).frozen = true := by
  simp only [takes_iff]; refine ⟨?_, ?_, ?_, ?_, by simp [logged], by simp [logged], ?_⟩ <;> decide +kernel

/-- A report on its way to the collector, and a record of one. -/
def report (sev : Severity) (checker : Nat) (q : Option QId) : Report :=
  { severity := sev, checker := checker, quire := q, acts := [], element := 0, cause := 5, detail := 0, injected := false, timeNs := 0, timeValid := true }
def errRec (read : Bool) (n : Word) : ErrRec := { report := report .quire 0x13 (some 0), transient := false, read := read, reports := n, logSeq := 0 }
def reporting (r : Report) (f : Quire → Quire := id) : State := let s := with0 (inState .running f); { s with collector := { s.collector with reports := [r] } }

theorem witness_FaultCollection :
    (chip.gov.waiting = [] ∧ chip.collector.reports = [])
    ∧ (∀ sev ∈ [Severity.alert, .quire], ∀ c ∈ [0x10, 0x18], ∀ rs ∈ [(none, none), (some (errRec false 1), none), (some (errRec true 1), some (errRec false 0xFFFFFFFF))],
        let r := report sev c (some 0); let s := reporting r fun x => { x with firstError := rs.1, secondError := rs.2 };
        s.gov.waiting = [] ∧ s.collector.reports = [r] ∧ r.quire = some 0 ∧ r.checker = c ∧ r.severity = sev ∧ (s.quire 0).state ≠ .off ∧ (s.quire 0).state ≠ .faulted ∧ (s.quire 0).firstError = rs.1
          ∧ (s.quire 0).secondError = rs.2 ∧ s.log.entries.length < 8000 ∧ s.frozen = false ∧ bit (s.reg (rk 6 0)) 31 = false)
    ∧ (∀ c ∈ [0, 8], ∀ f ∈ [false, true], let r := report .chip c none; let s := reporting r; let s := { s with collector := { s.collector with faulted := f } };
        s.gov.waiting = [] ∧ s.collector.reports = [r] ∧ r.quire = none ∧ r.checker < 9 ∧ r.severity = .chip ∧ s.collector.faulted = f ∧ s.collector.firstError = none ∧ (s.quire 0).state = .running
          ∧ (s.quire 1).state = .off ∧ (s.quire 0).firstError = none) := by
  refine ⟨?_, ?_, ?_⟩ <;> decide +kernel

theorem witness_FaultAndBudgetCommands :
    (∀ m ∈ [0, 1], chip.TakesSealed opFaultRead (hdr .ctrl (BitVec.ofNat 8 m) 0) [])
    ∧ (let s := with0 { quire0 with state := .off }; s.TakesSealed opFaultRead (hdr .ctrl 1 0) [] ∧ (s.quire 0).state = .off)
    ∧ (∀ c ∈ [0, 1], let p := [BitVec.ofNat 8 c, 0, 0, 0]; chip.TakesSealed opFaultPinHold (hdr .ctrl 0 4) p ∧ par p 0 1 = c)
    ∧ (∀ e ∈ [0xFF, 15], let p := [8, BitVec.ofNat 8 e, 1, 0]; chip.TakesSealed opFaultInject (hdr .ctrl 0 4) p ∧ (e = 0xFF ∨ e < checkerElements 8) ∧ ∀ i ∈ chip.collector.injections, i.checker ≠ 8)
    ∧ (∀ e ∈ [0xFF, 63], let p := [0x12, BitVec.ofNat 8 e, 0xFF, 0xFF]; chip.TakesSealed opFaultInject (hdr .ctrl 1 4) p ∧ (e = 0xFF ∨ e < checkerElements 0x12) ∧ (chip.quire 0).state ≠ .off ∧ ∀ i ∈ (chip.quire 0).injections, i.checker ≠ 0x12)
    ∧ (∀ cap ∈ [20000, 125000], let p := le 4 cap ++ le 4 1 ++ le 4 0; chip.TakesSealed opBudgetSet (hdr .ctrl 0 12) p ∧ par p 0 4 = cap)
    ∧ (let s := { chip with regs := [(rk 5 0xC, 1)] }; s.TakesSealed opBudgetQuery (hdr .ctrl 0 0) []
        ∧ 0 < (((List.finRange 8).filter fun k : LinkId => (s.session k).isOpen).map fun k : LinkId => fld (s.reg (rk 5 (0xC + 4 * (k.val / 4)))) (8 * (k.val % 4)) 8).sum) := by
  simp only [takes_iff]; refine ⟨?_, ?_, ?_, ?_, ?_, ?_, ?_⟩ <;> decide +kernel

/-! ### Measurements and lane tests -/

/-- TMU_MEASURE's parameters for TMU 7: pin 0 against trigger 0, both slopes, no hold-off, one start and one stop edge, a gate of 100 ns. -/
def tmuParams (mode wait start : Nat) : Params :=
  [7, BitVec.ofNat 8 mode, 0, 0, 2, 2, BitVec.ofNat 8 wait, 0] ++ le 4 0 ++ le 4 0 ++ le 2 1 ++ le 2 1 ++ le 4 1 ++ le 4 100 ++ le 8 start ++ le 4 0

/-- A measurement with its gate as given. -/
def tmuJob0 (mode : Nat) (opened closed : Bool) (f : TmuJob → TmuJob := id) : TmuJob :=
  f { mode := mode, srcA := 0, srcB := 1, slopeA := 0, slopeB := 1, holdA := 5, holdB := 5, startN := 1, stopN := 2, prescale := 2, gateNs := 1, startNs := 10, late := false, gateOpen := opened,
      gateClosed := closed, gateTime := 0, gateAt := 0, a := .reset, b := .reset, startStamp := none, stopCount := 0, interval := none, stampLimit := false, cause := 0, waiter := none }

/-- A measurement of TMU 7, at a chip time; its reply is owed. -/
def measuring (ns : Nat) (j : TmuJob) : State := owing (dest 0x61 1) (atTime ns (inState .stopped fun x => { x with tmus := x.tmus.set 7 (some j) }))

/-- PMU_MEASURE's parameters: pin 0, current 0 forced in range 3. -/
def pmuParams (wait start : Nat) : Params := [0, 1, 3, BitVec.ofNat 8 wait] ++ le 4 0 ++ le 4 10 ++ le 4 10 ++ le 2 1 ++ le 2 0 ++ le 8 start ++ le 4 0

def pmuJob0 (mode start : Nat) (started : Bool) (waiter : Option ReplyTo) : PmuJob :=
  { pin := 0, mode := mode, range := 3, force := 0, settleUs := 10, apertureUs := 10, samples := 1, startNs := start, late := false, started := started, timeNs := 0, reserved := false, waiter := waiter }

/-- Stamps of channel A or B so far. -/
def stamps (n edges : Nat) (last : Option Int) : Stamps := { Stamps.reset with n := n, edges := edges, lastEdge := last, lastT := 100 }

theorem witness_Measurements :
    (∀ mode ∈ [0, 1, 2, 3], ∀ wait ∈ [0, 1], ∀ start ∈ [0, 4, 6], let s := atTime 5 (inState .stopped); let p := tmuParams mode wait start;
        s.TakesSealed opTmuMeasure (hdr .ctrl 1 40) p ∧ (hdr .ctrl 1 40).qmask = BitVec.ofNat 8 (2 ^ (0 : QId).val) ∧ tmuCheck s.modeOz (s.quire 0) p = none ∧ par p 0 1 = (7 : TmuId).val ∧ par p 6 1 = wait
          ∧ parT12 s.modeOz p 28 = start ∧ s.timingRuns = true ∧ par p 1 1 = mode)
    ∧ (∀ ns ∈ [9, 10], let j := tmuJob0 0 false false; let s := measuring ns j; (s.quire 0).tmus[(7 : TmuId)] = some j ∧ j.gateOpen = false ∧ s.timingRuns = true ∧ (j.startNs ≤ s.time.ns ↔ ns = 10))
    ∧ (∀ t ∈ [(-1 : Int), 0, 3999, 4000], let j := tmuJob0 3 true false; (0 ≤ t ∧ t < 4000 * j.gateNs ↔ t = 0 ∨ t = 3999) ∧ j.gateOpen = true ∧ j.gateClosed = false ∧ j.slopeA = 0 ∧ j.a.lastEdge = none)
    ∧ (∀ t ∈ [(104 : Int), 105], let j := tmuJob0 0 true false fun j => { j with a := stamps 0 0 (some 100), b := stamps 0 1 (some 100), startStamp := some 104 };
        (∀ l, j.a.lastEdge = some l → (l + j.holdA ≤ t ↔ t = 105)) ∧ j.slopeB = 1 ∧ j.a.edges + 1 = j.startN ∧ j.startStamp = some 104 ∧ (104 < t ↔ t = 105) ∧ j.stopCount + 1 ≠ j.stopN)
    ∧ (let j := tmuJob0 0 true false fun j => { j with a := stamps 0 1 none, startStamp := some 104, stopCount := 1 }; j.a.edges + 1 ≠ j.startN ∧ j.stopCount + 1 = j.stopN)
    ∧ (∀ mode ∈ [1, 2], ∀ n ∈ [0, 1, 65535, 65536], ∀ edges ∈ [1, 2], ∀ t ∈ [(2099 : Int), 2100], let j := tmuJob0 mode true false fun j => { j with a := stamps n edges (some 100) };
        j.mode = mode ∧ j.a.n = n ∧ (j.a.edges % j.prescale = 0 ↔ edges = 2) ∧ (2000 ≤ t - quire0.stampDeskew j.srcA - j.a.lastT ↔ t = 2100) ∧ (100 : Int) + j.holdA ≤ t)
    ∧ (∀ cause ∈ [0, 3], ∀ v ∈ [none, some (-7 : Int)], ∀ w ∈ [none, some (dest 0x61 1)], let j := tmuJob0 0 true false fun j => { j with cause := cause, interval := v, waiter := w }; let s := measuring 10 j;
        (s.quire 0).tmus[(7 : TmuId)] = some j ∧ j.interval = v ∧ j.waiter = w ∧ s.Owes (dest 0x61 1) ∧ j.cause = cause)
    ∧ (∀ mode ∈ [1, 2], ∀ n ∈ [2, 3], let j := tmuJob0 mode true true fun j => { j with a := stamps n n none, b := stamps 3 3 none }; j.gateClosed = true ∧ (3 ≤ j.a.n ↔ n = 3) ∧ 3 ≤ j.b.n)
    ∧ (∀ wait ∈ [0, 1], let p := pmuParams wait 7; let s := with0 (inState .stopped); s.TakesSealed opPmuMeasure (hdr .ctrl 1 32) p ∧ pmuCheck s.modeOz (s.quire 0) p = none ∧ par p 3 1 = wait)
    ∧ (∀ ns ∈ [6, 7, 8], ∀ w ∈ [none, some (dest 0x62 1)], let j := pmuJob0 1 7 (ns = 8) w; let s := owing (dest 0x62 1) (atTime ns (inState .stopped fun x => { x with pmu := some j }));
        (s.quire 0).pmu = some j ∧ (j.started = false ↔ ns < 8) ∧ (j.startNs ≤ s.time.ns ↔ 7 ≤ ns) ∧ j.waiter = w ∧ s.Owes (dest 0x62 1)) := by
  simp only [takes_iff]; unfold State.Owes; refine ⟨?_, ?_, ?_, ?_, ?_, ?_, ?_, ?_, ?_, ?_⟩ <;> decide +kernel

/-- Marker 1 became active at instant 5,000, and its signal as a source; a PMU measurement whose settling ends at its start time or after it. -/
theorem witness_Measurements_sources :
    (∀ inverted ∈ [false, true], ∀ t ∈ [(4899 : Int), 4900, 5100, 5101], let x := inState .stopped fun x => { x with
          committed := some [(rk 0x0B 16, if inverted then 16 else 0)], markers := [.reset, { Marker.reset with edges := [(true, 5000)] }] }
        ((∃ e ∈ x.markerEdges (0x81 % 2), (e.1 != bit (x.cfg 0x0B (16 * (0x81 % 2))) 4) = !inverted ∧ |(0 : Int) + t - e.2| ≤ 100) ↔ t = 4900 ∨ t = 5100) ∧ (0x81 : Byte).getLsbD 7 = true)
    ∧ ∀ settled ∈ [7, 8], let j := pmuJob0 1 7 false none; (j.startNs ≠ 0 ∧ j.startNs < settled ↔ settled = 8) := by
  refine ⟨?_, ?_⟩ <;> decide +kernel

/-- LANE_TEST's parameters. -/
def laneParams (wait inject : Nat) : Params := [3, 3, 2, BitVec.ofNat 8 wait] ++ le 4 10 ++ le 8 inject

/-- A lane, and link 0 with lanes 0 to 7. -/
def laned (n : LaneId) (x : Lane) (f : Link → Link := id) : State :=
  { chip with lanes := chip.lanes.set n x, links := chip.links.set 0 (f { chip.link 0 with base := 0, width := 8, inService := 0x0C, rxService := 0x0C, phase := .up }) }
def laneTest (w : Option ReplyTo) : LaneTest := { pattern := 3, mode := 2, durationUs := 10, inject := 0, waiter := w, gen := 0, sent := 0, received := 0, recent := [], place := none, inTime := false, back := .out }

/-- A width change in progress on link 0 over lanes 0 to 7. -/
def changing (mask : Byte) (acked fromChip : Bool) (attempts : Nat) : WidthChange := { mask := mask, at_ := 100, fromChip := fromChip, sent := false, acked := acked, txDone := false, rxDone := false, attempts := attempts }

/-- WRITE_CFG's parameters for a chip register. -/
def chipCfg (page o v : Nat) : Params := le 4 (2 ^ 20 * page + o) ++ le 4 v

theorem witness_LaneRegistersAndTests :
    (∀ was ∈ [LanePhase.out, .failed, .inLink], ∀ wait ∈ [0, 1], ∀ inject ∈ [0, 1024, 2 ^ 40], let p := laneParams wait inject; let s := laned 3 { Lane.reset with phase := was };
        s.TakesSealed opLaneTest (hdr .ctrl 0 16) p ∧ par p 0 1 = (3 : LaneId).val ∧ par p 1 1 ≤ 3 ∧ par p 2 1 ≤ 3 ∧ par p 3 1 = wait ∧ par p 4 4 ≠ 0 ∧ par p 8 8 = inject ∧ (s.lane 3).phase = was)
    ∧ (∀ w ∈ [none, some (dest 0x68 0)], ∀ mode < 4, ∀ p ∈ [none, some 70], ∀ early ∈ [false, true], let a := { laneTest w with mode := mode, place := p, inTime := early }
        let s := owing (dest 0x68 0) (laned 3 { Lane.reset with phase := .testing, test := some a }); (s.lane 3).test = some a ∧ s.Owes (dest 0x68 0) ∧ (s.lane 2).test = none)
    ∧ (∀ m ∈ [0x0C, 0x08, 0x04], let s := laned 3 { Lane.reset with phase := .inLink } fun l => { l with inService := BitVec.ofNat 8 m, rxService := BitVec.ofNat 8 m }; let p := chipCfg 4 0x10C0 (2 ^ 31); let l := s.link 0;
        s.TakesSealed opWriteCfg (hdr .ctrl 0 8) p ∧ par p 0 4 = 2 ^ 20 * 4 + 0x1000 + 0x40 * (3 : LaneId).val ∧ bit (parW p 4) 31 = true ∧ bit (s.reg (nkey 3 0)) 31 = false ∧ bit (parW p 4) 30 = false ∧ fld (parW p 4) 16 5 ≤ 16
          ∧ s.linkOf 3 = some 0 ∧ l.carries = true ∧ (l.serves 3 = true ↔ m ≠ 4) ∧ (∀ g, (s.link g).serves 3 = true → g = 0) ∧ (l.service = [3] ↔ m = 8) ∧ ((∃ n, n ≠ 3 ∧ n ∈ l.service) ↔ m ≠ 8) ∧ l.change = none
          ∧ (m = 4 → (∀ g, (s.link g).serves 3 = false ∧ (s.link g).hears 3 = false) ∧ (s.lane 3).phase ≠ .testing ∧ (s.lane 3).ready = false))
    ∧ (let c := changing 12 false true 0; let s := laned 3 { Lane.reset with phase := .retraining, lock := true, ready := true } fun l => { l with inService := 4, rxService := 4, phase := .changing, change := some c }; let p := chipCfg 4 0x10C0 (2 ^ 31)
        s.TakesSealed opWriteCfg (hdr .ctrl 0 8) p ∧ (∀ g, (s.link g).serves 3 = false ∧ (s.link g).hears 3 = false) ∧ (s.lane 3).phase = .retraining ∧ (s.lane 3).ready = true ∧ s.linkOf 3 = some 0 ∧ (s.link 0).carries = true
          ∧ (s.link 0).change = some c ∧ c.acked = false ∧ c.mask &&& ~~~(BitVec.ofNat 8 (2 ^ ((3 : LaneId).val - (s.link 0).base))) ≠ 0)
    ∧ (∀ ph ∈ [(LanePhase.out, none), (.testing, some (laneTest none)), (.inLink, none)], ∀ failed ∈ [false, true], ∀ was ∈ [false, true],
        let x := { Lane.reset with phase := ph.1, test := ph.2, leave := if ph.1 = .inLink then some .out else none, wasFailed := failed };
        let s := { (laned 3 x) with regs := [(nkey 3 0, if was then 0x80000000 else 0)] }; let p := chipCfg 4 0x10C0 0;
        s.TakesSealed opWriteCfg (hdr .ctrl 0 8) p ∧ bit (parW p 4) 31 = false ∧ (bit (s.reg (nkey 3 0)) 31 = was) ∧ (s.lane 3).phase = ph.1 ∧ (s.lane 3).test = ph.2 ∧ (s.lane 3).wasFailed = failed)
    ∧ (∀ ph ∈ [LanePhase.failed, .down, .inLink], ∀ n ∈ [(3 : LaneId), 9], let s := laned n { Lane.reset with phase := ph }; let p := chipCfg 4 (0x1000 + 0x40 * n.val) (2 ^ 30)
        s.TakesSealed opWriteCfg (hdr .ctrl 0 8) p ∧ par p 0 4 = 2 ^ 20 * 4 + 0x1000 + 0x40 * n.val ∧ bit (parW p 4) 30 = true
        ∧ bit (parW p 4) 31 = false ∧ (s.lane n).phase = ph ∧ (s.lane n).leave = none ∧ ((∃ g, s.linkOf n = some g ∧ (s.link g).carries = true) ↔ n = 3) ∧ (s.link 0).change = none)
    ∧ (∀ failed ∈ [false, true], let s := { laned 3 { Lane.reset with phase := .out, wasFailed := failed } (fun l => { l with inService := 4, rxService := 4 }) with regs := [(nkey 3 0, 0x80000000)] }; let p := chipCfg 4 0x10C0 (2 ^ 30 * 3)
        s.TakesSealed opWriteCfg (hdr .ctrl 0 8) p ∧ bit (parW p 4) 31 = true ∧ bit (s.reg (nkey 3 0)) 31 = true ∧ bit (parW p 4) 30 = true ∧ (∀ g, (s.link g).serves 3 = false) ∧ (s.lane 3).phase = .out ∧ (s.lane 3).wasFailed = failed)
    ∧ (∀ n ∈ [16, 17], let s := laned 3 Lane.reset; let p := chipCfg 4 0x10C0 (2 ^ 16 * n); s.TakesSealed opWriteCfg (hdr .ctrl 0 8) p ∧ fld (parW p 4) 16 5 = n)
    ∧ (let p := chipCfg 4 0x10F0 1; chip.TakesSealed opReadCfg (hdr .ctrl 0 8) p ∧ par p 0 4 = 2 ^ 20 * 4 + 0x1000 + 0x40 * (3 : LaneId).val + 0x30 ∧ par p 4 2 = 1)
    ∧ (∀ auto ∈ [false, true], let s := { chip with regs := [(rk 5 0, if auto then 0x80000000 else 0)] }; let p := chipCfg 4 0x1C8 (2 ^ 31); s.TakesSealed opWriteCfg (hdr .ctrl 0 8) p
        ∧ par p 0 4 = 2 ^ 20 * 4 + 0x108 + 0x40 * (3 : LinkId).val ∧ bit (s.reg (rk 5 0)) 31 = auto) := by
  simp only [takes_iff]; unfold State.Owes; refine ⟨?_, ?_, ?_, ?_, ?_, ?_, ?_, ?_, ?_, ?_⟩ <;> decide +kernel

/-! ### Registers with a row of their own -/

theorem witness_ClockTimeAndFenceRegisters :
    (∀ v ∈ [1, 3], let p := chipCfg 1 0 v; let s := { chip with regs := [(rk 1 0, 1)] }; s.TakesSealed opWriteCfg (hdr .ctrl 0 8) p ∧ par p 0 4 = 2 ^ 20 ∧ bit (parW p 4) 0 = true ∧ fld (parW p 4) 16 4 = fld (s.reg (rk 1 0)) 16 4)
    ∧ (∀ src ∈ [TimingSrc.xo, .recovered], ∀ st ∈ [QState.running, .parked], let s := { with0 (inState st) with clock := { chip.clock with timingSrc := src }, regs := [(rk 1 0, 1)] }; let p := chipCfg 1 0 0x10001;
        s.TakesSealed opWriteCfg (hdr .ctrl 0 8) p ∧ fld (parW p 4) 16 4 ≠ fld (s.reg (rk 1 0)) 16 4 ∧ s.clock.timingSrc = src ∧ s.clock.domain = .running ∧ (s.quire 0).state = st ∧ ∀ q, (s.quire q).dests = [])
    ∧ (∀ mode ∈ [0, 1, 2, 3], ∀ n ∈ [1999, 2000, 4500, 4501], let s := { chip with regs := [(rk 3 0, 0x80000000)] }; let p := chipCfg 3 0 (2 ^ 30 * mode + n); s.TakesSealed opWriteCfg (hdr .ctrl 0 8) p ∧ par p 0 4 = 2 ^ 20 * 3
        ∧ fld (parW p 4) 30 2 = mode ∧ fld (parW p 4) 0 16 = n ∧ s.syncMode = 2 ∧ Sys2Proof.Machine.holding 6 0 s.collector.injections = false)
    ∧ (let p := chipCfg 3 4 1; chip.TakesSealed opWriteCfg (hdr .ctrl 0 8) p ∧ par p 0 4 = 2 ^ 20 * 3 + 4)
    ∧ (∀ n ∈ [19, 20, 1000, 1001], let p := chipCfg 6 0 n; chip.TakesSealed opWriteCfg (hdr .ctrl 0 8) p ∧ par p 0 4 = 2 ^ 20 * 6 ∧ fld (parW p 4) 0 10 = n)
    ∧ (∀ role ∈ [1, 2], ∀ c ∈ [1, 2], let s := chained role id; let p := chipCfg 3 0x104 (2 ^ 28 * c); s.TakesSealed opWriteCfg (hdr .ctrl 0 8) p ∧ par p 0 4 = 2 ^ 20 * 3 + 0x104 ∧ fld (parW p 4) 28 4 = c
        ∧ (fld (s.reg (rk 3 0x100)) 30 2 = 1 ↔ role = 1))
    ∧ (let p := chipCfg 2 0x1F4 1; chip.TakesSealed opWriteCfg (hdr .ctrl 0 8) p ∧ par p 0 4 = 2 ^ 20 * 2 + 0x134 + 0x40 * (3 : LinkId).val ∧ bit (parW p 4) 0 = true)
    ∧ (let p := chipCfg 2 0 1; chip.TakesSealed opReadCfg (hdr .ctrl 0 8) p ∧ par p 0 4 = 2 ^ 20 * 2 ∧ par p 4 2 = 1)
    ∧ (let p := le 4 (2 ^ 28 + 2 ^ 20 * 0x18 + 0x1C) ++ le 4 0x80000001; chip.TakesSealed opWriteCfg (hdr .ctrl 1 8) p ∧ par p 0 4 = 2 ^ 28 * ((0 : QId).val + 1) + 2 ^ 20 * 0x18 + 0x10 + 4 * (3 : Fin 4).val ∧ (chip.quire 0).state ≠ .off) := by
  simp only [takes_iff]; refine ⟨?_, ?_, ?_, ?_, ?_, ?_, ?_, ?_, ?_⟩ <;> decide +kernel

/-! ### The endpaper and the checks of pins and supplies -/

/-- The endpaper at pin 4 in a phase, with a re-trim at a step. -/
def endpapered (st : QState) (ph : EpPhase) (comparing forced : Bool) (r : Option Retrim) : Quire :=
  inState st fun x => { x with
    endpaper := { phase := ph, pin := 4, forced := forced, comparing := comparing, drives := some 4, compared := if forced then none else some 0 }, retrim := r, insts := [inst none], playing := some (play 0 false) }

theorem witness_EndpaperTakeovers :
    (∀ st ∈ [QState.running, .stopped], ∀ f ∈ [false, true], ∀ r ∈ [none, some (retrim 4 .takeover)], let x := endpapered st .joining false f r;
        x.endpaper.pin = (4 : PinId).val ∧ x.endpaper.phase = .joining ∧ x.endpaper.comparing = false ∧ x.endpaper.forced = f ∧ x.state = st ∧ x.retrim = r)
    ∧ (∀ st ∈ [QState.running, .stopped], ∀ c ∈ [false, true], ∀ all ∈ [false, true], ∀ pin ∈ [30, 31], let j := { retrim pin .handBack with all := all }; let x := endpapered st .handingBack c false (some j);
        x.endpaper.phase = .handingBack ∧ x.endpaper.comparing = c ∧ x.state = st ∧ x.retrim = some j ∧ j.step = .handBack ∧ (j.all = false ∨ 31 ≤ j.pin ↔ ¬(all = true ∧ pin = 30)))
    ∧ (endpapered .running .handingBack true false none).retrim = none
    ∧ (∀ ph ∈ [EpPhase.idle, .serving, .comparing], ∀ f ∈ [false, true], let x := endpapered .running ph (ph = .comparing) f none; x.endpaper.phase = ph ∧ (x.endpaper.compared = none ↔ f = true))
    ∧ (∀ n ∈ [0, 1], let s := with0 { endpapered .running .joining false false none with elapsed := n }; (s.time.ticks * 4000 < (s.quire 0).position ↔ n = 1)) := by
  refine ⟨?_, ?_, ?_, ?_, ?_⟩ <;> decide +kernel

/-- Pin 4 with its level 1 at 600 mV and its thresholds at 300 mV, 500 mV and 570 mV, driven or not. -/
def levelled (st : QState) (d : Drive) (f : Quire → Quire := id) : Quire :=
  f { running [(rk 8 0x140, BitVec.ofNat 32 (2 ^ 16 * 1200)), (rk 9 0x140, BitVec.ofNat 32 (2 ^ 16 * 1000 + 600)), (rk 9 0x144, 1140)] with state := st, pins := (List.replicate 32 Drive.highZ).set 4 d, insts := [inst none] }

theorem witness_PinChecks :
    (levelled .stopped .highZ).playOf 0 = none
    ∧ (∀ n ∈ [0, 3], ∀ m ∈ [false, true], let pl := { play 0 true with chunk := some { chunk0 with edges := List.replicate 32 0x10002 }, mismatched := m };
        let x := levelled .running (.level 1) fun x => { x with playing := some pl, edgeBad := [(4, n)] };
        x.playOf 0 = some pl ∧ injecting 0x14 4 x.injections = false ∧ sget (fun _ => 0) 4 x.edgeBad = n ∧ (4 ≤ n + 1 ↔ n = 3) ∧ pl.mismatched = m
          ∧ ∀ k ∈ [(⟨0, 0, 2, 1⟩ : EdgeCheck), ⟨1, 1, 2, 1⟩, ⟨0, 0, 1, 2⟩], let word := (pl.chunk.map fun c => c.edges.getD 4 0).getD 0;
              (k.missing = 0 ∧ k.extra = 0 ∧ k.drives = word.toNat % 2 ^ 16 ∧ k.strobes = word.toNat / 2 ^ 16 ↔ k = ⟨0, 0, 2, 1⟩))
    ∧ (levelled .off .highZ).state = .off
    ∧ (∀ d ∈ [Drive.highZ, .level 1], let x := levelled .running d; x.state ≠ .off ∧ injecting 0x13 4 x.injections = false ∧ x.driveNow 4 = d)
    ∧ (∀ r ∈ [0, 1, 2, 3], let x := levelled .running (.level 1); (((List.range 3).filter fun k => (x.thresholdsNow 4).getD k 0 ≤ (x.level 4 1 : Int)).length = r
        ∨ ∃ k < 3, |(x.level 4 1 : Int) - (x.thresholdsNow 4).getD k 0| ≤ 60 ∧ (r = k ∨ r = k + 1)) ↔ 2 ≤ r)
    ∧ (∀ d ∈ [Drive.highZ, .level 1], ∀ m ∈ [0, 9], let x := levelled .running d fun x => { x with injections := [{ checker := 0x13, element := 4, left := 2, made := m }] };
        x.injections = [{ checker := 0x13, element := 4, left := 0 + 2, made := m }] ∧ x.driveNow 4 = d)
    ∧ (∀ off ∈ [8000, 8001], let x := levelled .running .highZ; injecting 0x12 4 x.injections = false ∧ injecting 0x12 (4 + 0x20) x.injections = false
        ∧ (|(600000 + off : Int) - 500 * x.level 4 1| ≤ 8000 ↔ off = 8000)) := by
  refine ⟨?_, ?_, ?_, ?_, ?_, ?_, ?_⟩ <;> decide +kernel

theorem witness_ClampAndSupplyChecks :
    (∀ out ∈ [false, true], ∀ pins ∈ [0, 16, 48], ∀ ma ∈ [20, 21, 50, 51], let x := inState .stopped fun x => { x with vpinOut := out, overloaded := BitVec.ofNat 32 pins }; x.state ≠ .off ∧ x.vpinOut = out
        ∧ (x.overloaded.getLsbD 4 = true ↔ pins ≠ 0) ∧ (clrBit x.overloaded 4 ≠ 0 ↔ pins = 48) ∧ injecting 0x11 4 x.injections = false ∧ injecting 0x10 0 x.injections = false ∧ (ma ≤ 20 ↔ ma = 20) ∧ (ma ≤ 50 ↔ ma ≠ 51))
    ∧ (∀ m ∈ [8, 9, 10], ∀ pins ∈ [0, 16], let x := inState .running fun x => { x with overloaded := BitVec.ofNat 32 pins, injections := [{ checker := 0x11, element := 4, left := 2, made := m }] };
        x.state ≠ .off ∧ x.injections = [{ checker := 0x11, element := (4 : PinId).val, left := 0 + 2, made := m }] ∧ (m + 1 = 10 ↔ m = 9) ∧ (10 ≤ m + 1 ↔ m ≠ 8))
    ∧ (∀ since ∈ [0, 100000], ∀ mv ∈ [959, 960, 1040, 1041, 1059, 1060, 1140, 1141], let x := { quire0 with vpinSetpoint := 1000, vpinFrom := 1200, vpinSince := since }; let set := max x.vpinSetpoint (x.vpinFrom - (200000 - x.vpinSince) / 1000);
        ¬x.vpinFrom ≤ x.vpinSetpoint ∧ (set ≤ mv + 40 ∧ mv ≤ set + 40 ↔ if since = 0 then 960 ≤ mv ∧ mv ≤ 1040 else 1060 ≤ mv ∧ mv ≤ 1140))
    ∧ (let x := inState .parked fun x => { x with injections := [{ checker := 0x10, element := 0, left := 2, made := 0 }] }; x.state ≠ .off ∧ x.injections = [{ checker := 0x10, element := 0, left := 0 + 2, made := 0 }])
    ∧ (∀ n ∈ [8, 9], let s := { with0 (inState .off) with boot := { chip.boot with step := n } }; (s.quire 0).state = .off ∧ (s.boot.step < 9 ↔ n = 8) ∧ s.mendedPin 0 = none)
    ∧ (let s := { with0 (inState .off) with cal := { chip.cal with storeValid := true }, flash := { chip.flash with banks := #v[{ CalBank.fitted with mended := [BitVec.ofNat 32 0x80000004] }, .erased] } };
        s.mendedPin 0 = some 4)
    ∧ (∀ live ∈ [0, 4], ∀ mv ∈ [679, 680, 1070, 1071], ∀ e ∈ [none, some { errRec false 1 with report := { report .alert 0x02 (some 0) with element := 0 } }],
        let s := { with0 (inState .running fun x => { x with insts := [inst none], firstError := e }) with collector := { chip.collector with real := BitVec.ofNat 9 live } };
        injecting 0x02 0 s.collector.injections = false ∧ (s.collector.real.getLsbD 2 = true ↔ live = 4) ∧ (680 ≤ mv ∧ mv ≤ 1070 ↔ mv = 680 ∨ mv = 1070) ∧ (s.quire 0).firstError = e
          ∧ ∀ r ∈ e, r.report.checker = 0x02 ∧ r.report.severity = .alert ∧ r.report.injected = false ∧ r.read = false) := by
  refine ⟨?_, ?_, ?_, ?_, ?_, ?_, ?_⟩ <;> decide +kernel

/-! ### The governor -/

/-- The chip with `T_SOFT` 80 °C and `T_HARD` 100 °C, and nine readings in a row above it of sensor 3. -/
def heated (st : QState) (f : Governor → Governor := id) : State :=
  { with0 (inState st) with regs := [(rk 5 0, BitVec.ofNat 32 (2 ^ 16 * 100 + 2 ^ 8 * 80))], gov := f { chip.gov with hardCount := (List.replicate 16 0).set 3 9, marked := 0x000A } }

/-- Sixteen readings, of which two sensors show others. -/
def temps (a b : Int) : List Int := ((List.replicate 16 (0 : Int)).set 1 a).set 3 b

theorem witness_SensorReadings :
    (∀ a ∈ [(1199 : Int), 1200, 1280, 1281], ∀ b ∈ [(1439 : Int), 1440, 1519, 1520, 1601], ∀ st ∈ [QState.running, .stopped], let s := heated st;
        s.boot.step ≠ 0 ∧ (temps a b).length = 16 ∧ s.gov.hardCount.length = 16 ∧ (if 1600 < b then s.gov.hardCount.getD 3 0 + 1 else 0) = (if b = 1601 then 10 else 0))
    ∧ (∀ e, injecting 0x08 e (heated .running).collector.injections = false)
    ∧ ∃ t, exec (.sensorRead (temps 0 0)) (heated .running) = .next t := by
  refine ⟨?_, fun _ => rfl, ⟨_, rfl⟩⟩
  decide +kernel

/-- The chip with rail 0 fitted, or none, at a step of the start-up, and the voltage last commanded. -/
def railed (fitted : Bool) (step : Nat := 9) (mv : Option Nat := some 850) : State :=
  { chip with
    boot := { chip.boot with step := step }
    gov := { chip.gov with rails := (List.replicate 9 RailView.reset).set 0 { RailView.reset with present := fitted, state := .ok }, setpoints := (List.replicate 9 none).set 0 mv } }

/-- Four reads of which the first so many tries failed, and a status. -/
def transfer (fails : List Nat) (status : Nat) : RailTransfer := { fails := fails, reading := { vout := 1, iout := 2, temp := 3, status := BitVec.ofNat 16 status } }

theorem witness_TelemetryAndSupplies :
    ({ chip with boot := Boot.reset } : State).boot.step = 0
    ∧ (∀ b ∈ [false, true], ∀ step ∈ [6, 7, 9], ∀ mv ∈ [none, some 850], let s := railed b step mv; s.boot.step ≠ 0 ∧ s.gov.rails.length = 9 ∧ s.gov.setpoints.length = 9 ∧ s.gov.overCount = 0 ∧ (s.gov.rails.getD 0 .reset).present = b
        ∧ (s.gov.rails.getD 0 .reset).state ≠ .unreachable ∧ s.frozen = false
        ∧ ((s.boot.step < 7 ∨ ∀ i ∈ (List.range 9).filter (fun i => (s.gov.rails.getD i .reset).present), s.gov.setpoints.getD i none = some (s.pmWanted i)) ↔ step = 6 ∨ b = false ∨ mv = some 850))
    ∧ (∀ w ∈ [0x8000, 0x0040, 0x0020], let b := BitVec.ofNat 16 w; (b.getLsbD 15 = true ∨ b.getLsbD 6 = true ↔ w ≠ 0x20) ∧ ([(3, b)] : List (Nat × BitVec 16)).getD 0 (4, 0) = (3, b))
    ∧ (∀ n ∈ [0, 3, 4], ∀ j < 4, let r := transfer ((List.replicate 4 0).set j n) 0x40; (r.fails.getD j 0 < 4 ↔ n ≠ 4) ∧ min 4 (r.fails.getD j 0 + 1) = if n = 0 then 1 else 4)
    ∧ (∀ n ∈ [16383, 16384, 28671, 28672], ∀ k ∈ [8, 9], ∀ v ∈ [349, 350], let x := inState .running fun x => { x with lowestFill := n, highFill := k, trimMv := v }; x.state = .running ∧ x.lowestFill = n ∧ x.highFill = k ∧ (x.trimMv < 350 ↔ v = 349))
    ∧ ((with0 (inState .stopped fun x => { x with floorMv := 800 })).quire 0).state.holdsFloor = true
    ∧ injecting 0x03 0 chip.collector.injections = false ∧ (∀ o ∈ [LineOutcome.good, .uncorrectable], (⟨o, 7⟩ : SramRead).outcome = o)
    ∧ (inState .stopped fun x => { x with fences := (~~~0 : BitVec 128) }).flowEngines = 0 ∧ (inState .stopped).playedSigs = [] ∧ min 16 ((inState .stopped).flowEngines - 1) ≠ 0
    ∧ (∀ auto ∈ [false, true], let s : State := { chip with regs := [(rk 5 0, if auto then 0x80000000 else 0)] }; bit (s.reg (rk 5 0)) 31 = auto) := by
  refine ⟨?_, ?_, ?_, ?_, ?_, ?_, ?_, ?_, ?_, ?_, ?_, ?_⟩ <;> decide +kernel

/-! ### Host links -/

/-- A flit: its header word, its payload and its CRC. -/
def flit (head : Nat) (payload : List Byte) : List Byte := let b := le 4 head ++ payload ++ List.replicate (26 - payload.length) 0; b ++ le 2 (crc16 b).toNat
def idleFlit : List Byte := flit 0 []

/-- A DATA flit of class CTRL: SOP, EOP, LENGTH and SEQ, and its credit fields. -/
def dataFlit (sop eop len seq : Nat) (freed : Nat := 0) : List Byte := flit (2 ^ 30 + 2 ^ 27 * sop + 2 ^ 26 * eop + 2 ^ 21 * len + 2 ^ 8 * freed + seq) (List.replicate len 0x5A)

/-- A field of a flit's header. -/
def flitField (f : List Byte) (lo w : Nat) : Nat := unle (f.take 4) / 2 ^ lo % 2 ^ w

/-- Link 1 over lane 8 alone, with class CTRL as given. -/
def linked (x : Lane) (a : ClassState) (f : Link → Link := id) (regs : Regs := []) : State :=
  { chip with
    regs := regs, lanes := chip.lanes.set 8 x
    links := chip.links.set 0 (f { Link.reset with isDefined := true, base := 8, width := 1, phase := .up, inService := 1, rxService := 1, classes := Link.reset.classes.set 0 a }) }

/-- A lane in its link, locked. -/
def lane8 : Lane := { Lane.reset with phase := .inLink, lock := true, rxSeq := some 5 }

/-- Class CTRL: 4 flits granted and received as given. -/
def ctrlClass (received : Nat) (f : ClassState → ClassState := id) : ClassState := f { ClassState.reset with ourGrant := 4, received := received, rxSeq := 7 }

theorem witness_CodewordsAndFlits :
    (chip.linkOf 15 = some 0 ∧ (linked lane8 .reset).linkOf 15 = none)
    ∧ (∀ ph ∈ [LanePhase.out, .inLink, .training], (linked { lane8 with phase := ph } .reset).lane 8 = { lane8 with phase := ph } ∧ ({ lane8 with phase := ph } : Lane).checksLine = false)
    ∧ (∀ mode < 4, ∀ p ∈ [none, some 70], ∀ inject ∈ [0, 1024], let a := { laneTest none with mode := mode, place := p, inject := inject }; let x := { lane8 with phase := .testing, test := some a }; let s := linked x .reset;
        (s.lane 8).phase = .testing ∧ (s.lane 8).test = some a ∧ (x.checksLine = false ↔ mode = 0 ∨ mode = 3))
    ∧ (∀ lock ∈ [false, true], ∀ bad ∈ [2, 3], ∀ good ∈ [6, 7], let s := linked { lane8 with phase := .training, lock := lock, badHeaders := bad, goodHeaders := good } .reset fun l => { l with phase := .training, inService := 0, rxService := 0 };
        s.linkOf 8 = some 0 ∧ (s.lane 8).phase = .training ∧ (s.link 0).carries = false ∧ (s.link 0).inService = 0 ∧ (s.link 0).rxService = 0 ∧ (s.link 0).change = none ∧ (s.lane 8).idleSince = none ∧ (s.lane 8).lock = lock ∧ (s.lane 8).badHeaders = bad ∧ (s.lane 8).goodHeaders = good)
    ∧ (∀ h ∈ [0x50A, 0x51A, 0x60A, 0x50B], let hd : BitVec 20 := BitVec.ofNat 20 h; (hd.toNat % 16 = 0xA ∧ hd.toNat / 16 % 8 = (8 : LaneId).val - 8 ∧ (lane8.rxSeq = none ∨ lane8.rxSeq = some (BitVec.ofNat 12 (hd.toNat / 256))) ↔ h = 0x50A))
    ∧ (let s := linked lane8 .reset; s.linkOf 8 = some 0 ∧ (s.link 0).carries = true ∧ (s.link 0).service = [8] ∧ (s.link 0).serves 8 = true ∧ (s.lane 8).rxQueue = [] ∧ (s.link 0).rxEi = false
        ∧ (s.link 0).hearing = [8] ∧ (s.link 0).hears 8 = true ∧ (s.link 0).change = none ∧ (s.lane 8).phase = .inLink ∧ (s.lane 8).lock = true ∧ (s.lane 8).idleSince = none ∧ (s.lane 8).badHeaders < 3 ∧ (s.lane 8).test = none ∧ (s.link 0).txSlot = []
        ∧ ∀ cw ∈ [RxCodeword.bad, .good 0 0x0050A []], ∀ cause ∈ [RetrainCause.uncorrectable, .corrected], ((s.lane 8).note s.time.ticks cw).failing s.time.ticks cause = false)
    ∧ (∀ freed ∈ [0, 3], let f := idleFlit; let g := flit (2 ^ 8 * freed) []; (crc16 (g.take 30)).toNat = unle ((g.drop 30).take 2) ∧ flitField g 8 11 = freed ∧ flitField f 30 2 = 0 ∧ flitField f 28 2 = 0 ∧ flitField f 21 5 = 0
        ∧ flitField f 0 8 = 0 ∧ flitField f 19 2 = 0 ∧ (ClassState.reset.freedByHost = replaceTotal 11 ClassState.reset.freedByHost freed ↔ freed = 0))
    ∧ (let f := (dataFlit 1 1 26 7).set 30 0; (crc16 (f.take 30)).toNat ≠ unle ((f.drop 30).take 2))
    ∧ (let f := flit (2 ^ 30 * 3) []; (crc16 (f.take 30)).toNat = unle ((f.drop 30).take 2) ∧ flitField f 30 2 = 3)
    ∧ (∀ sop ∈ [0, 1], ∀ eop ∈ [0, 1], ∀ len ∈ [1, 26], ∀ seq ∈ [7, 8], let f := dataFlit sop eop len seq; (crc16 (f.take 30)).toNat = unle ((f.drop 30).take 2) ∧ flitField f 30 2 = 1 ∧ flitField f 28 2 = (0 : Fin 4).val
        ∧ flitField f 19 2 = (0 : Fin 4).val ∧ flitField f 21 5 = len ∧ (bit (flitHead f) 27 = true ↔ sop = 1) ∧ (bit (flitHead f) 26 = true ↔ eop = 1) ∧ (flitField f 0 8 = (ctrlClass 3).rxSeq.toNat ↔ seq = 7))
    ∧ (∀ n ∈ [3, 4], let a := ctrlClass n; (a.received < a.ourGrant + a.freed ↔ n = 3) ∧ a.dropping = false ∧ a.assembling = none)
    ∧ (ctrlClass 3 fun a => { a with dropping := true }).dropping = true
    ∧ (let c := changing 1 false true 0; let s := linked lane8 .reset fun l => { l with phase := .changing, change := some c }; (s.link 0).carries = true ∧ (s.link 0).service = [8] ∧ (s.link 0).serves 8 = true ∧ (s.lane 8).test = none
        ∧ (s.link 0).txEi = false ∧ (s.link 0).txSlot = [] ∧ (s.link 0).change = some c ∧ c.fromChip = true ∧ c.acked = false ∧ c.txDone = false)
    ∧ (ctrlClass 3 fun a => { a with assembling := some ([1], 1) }).assembling = some ([1], 1)
    ∧ (∀ ei ∈ [false, true], ∀ slot ∈ [[], [(8, [idleFlit])]], let s := linked lane8 .reset fun l => { l with txEi := ei, txSlot := slot }; (s.link 0).txEi = ei ∧ (s.link 0).txSlot = slot ∧ (s.link 0).change = none)
    ∧ (∀ n ∈ [1, 26], ∀ m ∈ [0, 19], let s := linked lane8 .reset fun l => { l with linkTx := List.replicate n 1 :: List.replicate m [5] }; (s.link 0).linkTx = List.replicate n 1 :: List.replicate m [5] ∧ m < 20)
    ∧ (∀ n ∈ [26, 27], let s := linked lane8 { ClassState.reset with granted := 4, txQueue := [List.replicate n 1] }; (s.link 0).linkTx = [] ∧ (s.link 0).classes[(3 : Fin 4)].ready = false ∧ (s.link 0).classes[(0 : Fin 4)].ready = true
        ∧ (s.link 0).classes[(0 : Fin 4)].txQueue = [List.replicate n 1] ∧ (s.link 0).classes[(0 : Fin 4)].txDone = 0)
    ∧ (∀ i : Fin 4, ((linked lane8 .reset).link 0).classes[i].ready = false)
    ∧ (∀ en ∈ [false, true], ∀ ei ∈ [false, true], let s := linked lane8 .reset (fun l => { l with txEi := ei, linkTx := if ei then [[5]] else [] }) [(rk 4 0x108, if en then 0x80000000 else 0)];
        s.eiEn 0 = en ∧ (s.link 0).txEi = ei ∧ (s.link 0).hasFlit = ei) := by
  refine ⟨?_, ?_, ?_, ?_, ?_, ?_, ?_, ?_, ?_, ?_, ?_, ?_, ?_, ?_, ?_, ?_, ?_, ?_, ?_⟩ <;> decide +kernel

/-- The bytes of a DATA flit and 19 IDLE flits. -/
def written : List (List Byte) := ([7, 0, 64, 79] ++ List.replicate 26 0x5A ++ [206, 119]) :: List.replicate 19 (List.replicate 30 0 ++ [69, 42])
theorem written_flits : written = dataFlit 1 1 26 7 :: List.replicate 19 idleFlit := by decide +kernel

/-- The symbols of a codeword of them, the first so many wrong. -/
def heard (wrong : Nat) : List Nat := (codewordSymbols 0x0050A written).zipIdx.map fun c => if c.2 < wrong then c.1 ^^^ 0x155 else c.1

/-- A line on which a lane reads given symbols. -/
def lineOf (x : Lane) (symbols : List Nat) : List (Fin 4) := precode x.rxPrecode x.rxLast (symbols.flatMap pamOf)

/-- What the decoder makes of symbols: how many it corrects, and the header and flits. -/
def understood (symbols : List Nat) : Option (Nat × BitVec 20 × List (List Byte)) := (rsDecode symbols).map fun r => (r.1, messageOf r.2)

theorem understood_line (x : Lane) (symbols : List Nat) (small : (symbols.all fun c => decide (c < 1024)) = true) :
    x.decode (lineOf x symbols) = match understood symbols with | some r => .good (Fin.ofNat 16 r.1) r.2.1 r.2.2 | none => .bad := by
  rw [lineOf, Lane.decode_line x symbols (by simpa using small), understood]
  cases rsDecode symbols <;> rfl

/-- A codeword without errors, and one with 15 wrong symbols, which are corrected; with 16 it is not (R514). -/
theorem test_heard_0 : understood (heard 0) = some (0, 0x0050A, written) := by decide +kernel
theorem test_heard_15 : understood (heard 15) = some (15, 0x0050A, written) := by decide +kernel
theorem test_heard_16 : (understood (heard 16)).isNone = true := by decide +kernel

/-- Lines that spell each outcome, for every lane. -/
theorem witness_CodewordsAndFlits_lines (x : Lane) :
    let fs := dataFlit 1 1 26 7 :: List.replicate 19 idleFlit
    x.decode (lineOf x (heard 0)) = .good 0 0x0050A fs ∧ x.decode (lineOf x (heard 15)) = .good 15 0x0050A fs ∧ x.decode (lineOf x (heard 16)) = .bad := by
  rw [← written_flits]; refine ⟨?_, ?_, ?_⟩
  · rw [understood_line x _ (by decide +kernel), test_heard_0]; rfl
  · rw [understood_line x _ (by decide +kernel), test_heard_15]; rfl
  · rw [understood_line x _ (by decide +kernel), Option.isNone_iff_eq_none.mp test_heard_16]

/-- The 20 bytes of a packet with an opcode outside R620, from a session of its link, and one with a listed opcode. -/
theorem witness_CodewordsAndFlits_unlisted :
    ∀ op ∈ [0x7F, 0x32], let h := hdr .ctrl 0 0; let o := opUnlisted (BitVec.ofNat 8 op); let body := headerBytes h o.opcode ++ leW (crc32c (headerBytes h o.opcode)); let r := readPacket 0 .ctrl { word := 0, outcome := .good, corrupt := [] } body
      body.length = 20 ∧ (opcodes.contains (packetOpcode body) = true ↔ op = 0x32) ∧ packetOpcode body = o.opcode ∧ wholePacket r.1 o.opcode r.2 = true ∧ r.1.version = 1
        ∧ (match tagUse o r.1 (linked lane8 (ctrlClass 3)) with | .new => true | _ => false) = true ∧ (linked lane8 (ctrlClass 3)).interpreting = true ∧ ((linked lane8 (ctrlClass 3)).link 0).classes[(0 : Fin 4)].packets = []
        ∧ ∀ i : Fin 4, ((linked lane8 (ctrlClass 3)).link 0).classes[i].packets = [] := by
  decide +kernel

/-- A receiver that may adapt and one that may not yet, with error injection in one codeword of two. -/
theorem witness_CodewordsAndFlits_settings :
    (∀ n ∈ [9999, 10000], let s := linked { lane8 with dfe := [0, 0], ctle := 40 } .reset; let s := { s with time := { s.time with ticks := n } }; let x := s.lane 8;
      (x.adapted + 10000 ≤ s.time.ticks ↔ n = 10000) ∧ x.ctle.toNat ≤ 40 ∧ x.dfe[0]? = some 0)
    ∧ (∀ i, dfeHeld i 0 = 0)
    ∧ (∀ n ∈ [0, 1], let s := linked { lane8 with txCount := n } .reset id [(nkey 8 0, 0x00100002)]; let ctrl := s.reg (nkey 8 0); fld ctrl 16 5 = 16 ∧ (((s.lane 8).txCount + 1) % max 1 (fld ctrl 0 16) = 0 ↔ n = 1))
    ∧ (let s := linked lane8 .reset fun l => { l with rxEi := true }; (s.link 0).carries = true ∧ (s.link 0).rxEi = true) := by
  refine ⟨by decide +kernel, fun i => ?_, by decide +kernel, by decide +kernel⟩
  have : (0 : Int) ≤ dfeRange i * Config.dfeSteps / 100 := by positivity
  simp only [dfeHeld]; omega

/-- A width change to lanes 1 and 2 of lanes 1 to 3, as the directions stand at `CW_SEQ` `tx` and `rx`: lane 1 has retrained, and lane 3 leaves. -/
def switching (tx rx : BitVec 12) (queue : List (BitVec 12 × List (List Byte))) (acked : Bool) : State :=
  let s := laned 1 { Lane.reset with phase := .retraining, lock := true, ready := true, rxSeq := some 200 } fun l => { l with phase := .changing, change := some (changing 6 acked true 0) }
  { s with
    lanes := (s.lanes.set 2 { Lane.reset with phase := .inLink, lock := true, txSeq := tx, rxSeq := some rx, rxQueue := queue }).set 3 { Lane.reset with phase := .inLink, txSeq := tx, leave := some .out } }

/-- Lane 3 in service beside lane 2, with what it received in the last 1 ms, at tick 1,000,000. -/
def serving (lock : Bool) (idle : Option Nat) (lastMs : List (Nat × Option Nat)) : State :=
  let s := laned 3 { Lane.reset with phase := .inLink, lock := lock, idleSince := idle, lastMs := lastMs }
  { s with time := { s.time with ticks := 1000000 } }

theorem witness_CreditsAndWidths :
    (∀ ph ∈ [LinkPhase.training, .up, .changing, .down], ∀ ei ∈ [false, true], let s := laned 3 { Lane.reset with phase := .inLink } fun l => { l with phase := ph, rxEi := ei };
        (s.link 0).phase = ph ∧ (s.link 0).change = none ∧ (s.link 0).rxEi = ei ∧ (s.link 0).hears 3 = true ∧ (s.link 0).hears 1 = false)
    ∧ (∀ d ∈ [0, 2 ^ 31 - 1], ((ClassState.reset.freedByHost + d) % 2 ^ 32 = d ∧ d < 2 ^ 31))
    ∧ (∀ c ∈ [false, true].flatMap fun acked => [false, true].flatMap fun fc => [false, true].flatMap fun sent => [3, 4].flatMap fun n => [(false, false), (true, false), (false, true)].map fun d =>
          { changing 4 acked fc n with sent := sent, txDone := d.1, rxDone := d.2 },
        let s := laned 3 { Lane.reset with phase := .inLink } fun l => { l with phase := .changing, change := some c }; (s.link 0).change = some c ∧ (s.link 0).carries = true)
    ∧ (∀ a ∈ [2147, 2148], ((BitVec.ofNat 12 a - 100#12).toNat < 2048 ↔ a = 2147))
    ∧ (∀ tx ∈ [97, 98, 99, 100], let s := switching (BitVec.ofNat 12 tx) 100 [] false; ((s.nextCw 0 + 2 - 100#12).toNat < 2048 ↔ 98 ≤ tx) ∧ ((s.nextCw 0 - 100#12).toNat < 2048 ↔ tx = 100)
        ∧ ((∀ m ∈ (s.link 0).service, ¬((s.lane m).txSeq - 100#12).toNat < 2048) ↔ tx ≠ 100))
    ∧ (∀ rx ∈ [99, 100], ∀ queue ∈ [[], [(100#12, [])], [(99#12, [])]], let s := switching 100 (BitVec.ofNat 12 rx) queue true; let c := changing 6 true true 0;
        (s.link 0).change = some c ∧ c.acked = true ∧ c.txDone = false ∧ c.rxDone = false ∧ (s.link 0).carries = true ∧ (s.link 0).txSlot = [] ∧ (s.link 0).service ≠ []
        ∧ ((∀ m ∈ (s.link 0).hearing, let y := s.lane m; (y.rxQueue.head?.all fun e => decide ((e.1 - c.at_).toNat < 2048)) = true ∧ (y.rxQueue = [] → y.lock = true → (y.rxSeq.any fun v => decide ((v - c.at_).toNat < 2048)) = true)) ↔ queue = [(100#12, [])] ∨ (queue = [] ∧ rx = 100)))
    ∧ (let s := switching 100 100 [] true; let c := changing 6 true true 0
        ∀ m ∈ (s.link 0).lanes, let lane := BitVec.ofNat 8 (2 ^ (m.val - (s.link 0).base))
            (lane &&& c.mask ≠ 0 ∧ ((s.link 0).serves m = true ∨ (s.link 0).hears m = true ∨ (s.lane m).ready = true) ↔ m = 1 ∨ m = 2) ∧ ((m = 1 ∨ m = 2) → (s.lane m).leave = none) ∧ ((s.lane m).phase = .retraining → (s.lane m).ready = true → m = 1))
    ∧ (∀ lock ∈ [false, true], ∀ idle ∈ [none, some 5], ((serving lock idle []).lane 3).lock = lock ∧ ((serving lock idle []).lane 3).idleSince = idle ∧ (serving lock idle []).linkOf 3 = some 0
        ∧ ((serving lock idle []).link 0).serves 3 = true ∧ ((serving lock idle []).link 0).phase = .up ∧ ((serving lock idle []).link 0).change = none ∧ ((serving lock idle []).lane 3).leave = none
        ∧ ((serving lock idle []).link 0).inService ≠ BitVec.ofNat 8 (2 ^ 3))
    ∧ (∀ n ∈ [4, 5], let s := serving true none (List.replicate n (1, none) ++ [(0, none)]); (4 < ((s.lane 3).lastMs.filter fun e => decide (s.time.ticks < e.1 + 1000000)).countP (fun e => e.2.isNone) ↔ n = 5))
    ∧ (∀ n ∈ [1, 2], ∀ old ∈ [0, 1], let s := serving true none [(1, some n), (old, some 15)]; let last := (s.lane 3).lastMs.filter fun e => decide (s.time.ticks < e.1 + 1000000)
        ((∃ e ∈ (s.lane 3).lastMs, e.1 + 1000000 ≤ s.time.ticks) ↔ old = 0) ∧ (last.length < (last.map fun e => e.2.getD 0).sum ↔ old = 1 ∨ n = 2)) := by
  refine ⟨?_, ?_, ?_, ?_, ?_, ?_, ?_, ?_, ?_, ?_⟩ <;> decide +kernel

/-- What training finds of one lane: DFE taps of 360 steps, phase 1 to 5 failed or none. -/
def finds (fails : Fin 6) : LaneTraining := { fails := fails, ffe := (1, 2, 3), request := (4, 5, 6), precode := true, ctle := 40, dfe := List.replicate 12 360, eyeMv := 30 }

theorem witness_TrainingAndRetraining :
    (∀ fails : Fin 6, ∀ short ∈ [false, true], ∀ g ∈ [(63, 16), (64, 16), (64, 15)], let found := if short then [] else List.replicate 8 (finds fails)
        let s := laned 3 { Lane.reset with phase := .training } fun l => { l with phase := .training }; (s.link 0).phase = .training ∧ (s.link 0).width ≤ 8
        ∧ ((∃ m, m ∈ (s.link 0).lanes ∧ (s.lane m).phase = .training ∧ ((found[m.val - (s.link 0).base]?).getD { (default : LaneTraining) with fails := 1 }).fails = 0) ↔ fails = 0 ∧ short = false)
        ∧ (64 ≤ [g.1, 0, 0, g.2].getD 0 0 % 2 ^ 32 ∧ 16 ≤ [g.1, 0, 0, g.2].getD 3 0 % 2 ^ 32 ↔ g = (64, 16)))
    ∧ (∀ ph ∈ [LinkPhase.down, .up], let s := laned 3 Lane.reset fun l => { l with phase := ph }; 4 ≤ s.boot.step ∧ (s.link 0).isDefined = true ∧ (s.link 0).phase = ph)
    ∧ (∀ fails : Fin 6, ((3 < (finds fails).fails.val ↔ fails = 4 ∨ fails = 5) ∧ (4 < (finds fails).fails.val ↔ fails = 5)))
    ∧ (∀ n ∈ [1, 2], ∀ lp ∈ [LinkPhase.up, .down], ∀ ready ∈ [false, true], let s := laned 1 { Lane.reset with phase := .retraining, attempts := n, ready := ready } fun l => { l with phase := lp };
        (s.lane 1).phase = .retraining ∧ (s.lane 1).ready = ready ∧ s.linkOf 1 = some 0 ∧ ((s.link 0).carries = true ↔ lp = .up) ∧ (s.link 0).change = none ∧ (s.link 0).inService &&& BitVec.ofNat 8 (2 ^ 1) = 0
          ∧ BitVec.ofNat 8 (2 ^ 1) ≠ 0#8 ∧ ((2 ≤ (s.lane 1).attempts) ↔ n = 2))
    ∧ (∀ ei ∈ [false, true], let s := laned 3 { Lane.reset with phase := .inLink, lock := true } fun l => { l with rxEi := ei }; (s.lane 3).phase = .inLink ∧ (s.lane 3).lock = true ∧ s.linkOf 3 = some 0 ∧ (s.link 0).rxEi = ei ∧ (s.link 0).serves 3 = true ∧ (s.link 0).hears 3 = true
        ∧ (s.lane 3).leave = none ∧ (s.link 0).change = none ∧ (s.link 0).inService ≠ BitVec.ofNat 8 (2 ^ 3))
    ∧ (∀ ei ∈ [false, true], let s := laned 1 { Lane.reset with phase := .training, lock := true } fun l => { l with rxEi := ei }; (s.lane 1).lock = true ∧ s.linkOf 1 = some 0 ∧ (s.link 0).hears 1 = false ∧ (s.link 0).serves 1 = false ∧ (s.link 0).rxEi = ei)
    ∧ (let s := laned 9 { Lane.reset with lock := true }; (s.lane 9).lock = true ∧ s.linkOf 9 = none) := by
  refine ⟨?_, ?_, ?_, ?_, ?_, ?_, ?_⟩ <;> decide +kernel

/-! ### The machine as a whole -/

theorem witness_StepRunsTheFrontCommand : ({ chip with pending := [.trimPeriod] } : State).pending = .trimPeriod :: [] ∧ chip.pending = [] := ⟨rfl, rfl⟩

theorem witness_LogStaysOrdered : State.reset.log.Ordered ∧ ∃ t, step { chip with pending := [.trimPeriod] } = .next t := by
  refine ⟨⟨by decide, fun i h => absurd h (by simp [State.reset, SinterLog.reset])⟩, ⟨_, rfl⟩⟩

theorem witness_QuiresStayApart : eventQuire (.endRun 3) = some 3 ∧ chip.heldPackets = [] := by decide +kernel

/-- A link that is up with the interpreter at work, and one on which a command with the tag is in progress or in the retry window. -/
def retried (busy : Bool) (c : List Completed) : State :=
  { chip with sessions := chip.sessions.set 0 { chip.session 0 with inProgress := if busy then [(1, 0x32, 0)] else [], completed := c } }

/-- A completed ARM of the retry window. -/
def c1 : Completed := { tag := 1, opcode := 0x11, reply := some (okReply (hdr .ctrl 1 0) opArm []) }

theorem witness_PacketRefusals :
    (packetRow (.timeRead (hdr .ctrl 0 0) []) = some (hdr .ctrl 0 0, [], opTimeRead) ∧ chip.heldPackets = [] ∧ chip.linkUp 0 = true ∧ chip.linkUp 1 = false ∧ chip.interpreting = true)
    ∧ ({ chip with spine := { chip.spine with restarting := true } } : State).interpreting = false
    ∧ (∀ d ∈ [0, 1], let h := (hdr .ctrl 0 0).sealed opTimeRead []; (wholePacket { h with crc := h.crc + BitVec.ofNat 32 d } opTimeRead.opcode [] = true ↔ d = 0))
    ∧ (∀ b ∈ [false, true], let s := retried b []; (s.session 0).isOpen = true ∧ (hdr .ctrl 0 0).session = (s.session 0).handle ∧ ((∃ e ∈ (s.session 0).inProgress, e.1 = (hdr .ctrl 0 0).tag) ↔ b = true) ∧ ∀ c ∈ (s.session 0).completed, c.tag ≠ 1)
    ∧ (∀ op ∈ [0x32, 0x11], ∀ r ∈ [none, some (okReply (hdr .ctrl 0 0) opTimeRead [])], let c := { tag := 1, opcode := BitVec.ofNat 8 op, reply := r }; let s := retried false [c];
        (s.session 0).completed.find? (fun c => c.tag = (hdr .ctrl 0 0).tag) = some c ∧ (c.opcode = opTimeRead.opcode ↔ op = 0x32))
    ∧ (opArm.again = false ∧ (∀ r ∈ c1.reply, chip.linkUp r.dest.link = true) ∧ c1.opcode = opArm.opcode ∧ ((retried false [c1]).session 0).completed = [c1])
    ∧ ({ hdr .ctrl 0 0 with version := 2 } : Hdr).version ≠ 1
    ∧ (∀ n ∈ [0, 1], (n ≠ ([] : Params).length ∨ ([] : Params).length < opTimeRead.lenMin ∨ opTimeRead.lenMax < ([] : Params).length ↔ n = 1))
    ∧ (let h := { hdr .ctrl 0 0 with session := 9 }; malformed opTimeRead h [] = none ∧ opTimeRead.opcode ≠ 0x01 ∧ ¬(opTimeRead.opcode = 0x02 ∧ h.session = 0) ∧ ¬((chip.session 0).isOpen = true ∧ h.session = (chip.session 0).handle))
    ∧ (let s : State := { chip with sessions := chip.sessions.set 0 { chip.session 0 with steward := false } }; let p := le 8 0 ++ le 4 0; malformed opTimeSet (hdr .ctrl 0 12) p = none ∧ opTimeSet.need = .steward ∧ (s.session 0).steward = false
        ∧ (s.session 0).isOpen = true)
    ∧ (malformed opCollate (hdr .ctrl 2 0) [] = none ∧ opCollate.need = .owner ∧ opCollate.quires = .one ∧ ∃ q ∈ quiresOf (hdr .ctrl 2 0).qmask, (chip.quire q).owner ≠ some 0)
    ∧ (let s : State := { chip with collector := { chip.collector with faulted := true } }; malformed opTimeSet (hdr .ctrl 0 12) (le 8 0 ++ le 4 0) = none ∧ notOwner opTimeSet (hdr .ctrl 0 12) s = none ∧ s.collector.faulted = true
        ∧ opTimeSet.inChipFault = false) := by
  refine ⟨⟨rfl, by decide +kernel⟩, ?_, ?_, ?_, ?_, ?_, ?_, ?_, ?_, ?_, ?_, ?_⟩ <;> decide +kernel

/-- A packet alone, and one whose bytes the link buffer holds. -/
theorem witness_PacketRefusals_arrives :
    let h := (hdr .ctrl 0 0).sealed opTimeRead []
    let s : State := { chip with links := chip.links.set 0 { chip.link 0 with classes := (chip.link 0).classes.set 0 { (chip.link 0).classes[(0 : Fin 4)] with packets := [(headerBytes h opTimeRead.opcode ++ leW h.crc, 1)] } } }
    chip.buffered h.link h.cls = none ∧ s.buffered h.link h.cls = some (headerBytes h opTimeRead.opcode ++ leW h.crc)
      ∧ packetOpcode (headerBytes h opTimeRead.opcode ++ leW h.crc) = opTimeRead.opcode ∧ readPacket h.link h.cls h.reads (headerBytes h opTimeRead.opcode ++ leW h.crc) = (h, []) := by
  refine ⟨?_, ?_, ?_, ?_⟩ <;> decide +kernel

/-- A quire fault on its way to the collector answers a command of its owner, one that names it or acts on it, and so does a chip fault. -/
theorem witness_PacketRefusals_fault :
    ∀ r ∈ [report .quire 0x13 (some 0), { report .quire 0x13 none with acts := [0] }, report .chip 0x03 none],
      let s := reporting r; malformed opCollate (hdr .ctrl 1 0) [] = none ∧ notOwner opCollate (hdr .ctrl 1 0) s = none ∧ opCollate.quires = .one
        ∧ ∃ q ∈ quiresOf (hdr .ctrl 1 0).qmask, ∃ r ∈ s.collector.reports, r.severity = .chip ∨ (r.severity = .quire ∧ (r.quire = some q ∨ q ∈ r.acts)) := by
  decide +kernel

/-! ### Well-formedness: a term that each check refuses -/

theorem test_ill_formed :
    WellFormed.check (.hello { hdr .ctrl 0 0 with length := 2 ^ 32 } []) = false
    ∧ WellFormed.check (.creditInit 0 [1, 2, 3]) = false ∧ WellFormed.check (.creditSync 0 [1, 2, 3, 2 ^ 32]) = false
    ∧ WellFormed.check (.sensorRead (List.replicate 15 0)) = false ∧ WellFormed.check (.pmAlert (List.replicate 10 (0, 0))) = false
    ∧ WellFormed.check (.bootStepDone 4 []) = false ∧ WellFormed.check (.dqsDriftRead 0 [0, 0]) = false
    ∧ WellFormed.check (.codewordReceived 0 [0, 1]) = false ∧ WellFormed.check (.followUp 0 (List.replicate 65 0)) = false
    ∧ WellFormed.check (.delayReq 0 65536) = false ∧ WellFormed.check (.syncInEdge 4000) = false
    ∧ WellFormed.check (.linkTrainingDone 0 (List.replicate 7 (finds 0)) [64, 0, 0, 16]) = false ∧ WellFormed.check (.laneRetrainDone 0 { finds 0 with dfe := [1] }) = false := by
  refine ⟨?_, ?_, ?_, ?_, ?_, ?_, ?_, ?_, ?_, ?_, ?_, ?_, ?_⟩ <;> decide +kernel

theorem test_well_formed :
    WellFormed.check (.hello (hdr .ctrl 0 0) []) = true ∧ WellFormed.check (.creditInit 0 [64, 0, 0, 16]) = true ∧ WellFormed.check (.syncInEdge 3999) = true
    ∧ WellFormed.check (.codewordReceived 0 (List.replicate 2720 3)) = true ∧ WellFormed.check (.linkTrainingDone 0 (List.replicate 8 (finds 0)) [64, 0, 0, 16]) = true := by
  refine ⟨?_, ?_, ?_, ?_, ?_⟩ <;> decide +kernel

/-! ### Worked examples of the manual -/

/-- The line of the example of file 08, § Line mapping (R461). -/
theorem test_line_mapping : lineLogical 0x01A23C41 = 1 ∧ lineRow 0x01A23C41 = 3345 ∧ lineBurst 0x01A23C41 = 49 ∧ lineBank 0x01A23C41 = 0 ∧ lineSub 0x01A23C41 = 1 ∧ lineGroup 0x01A23C41 = 1 := by decide +kernel

/-- The chip time of the example of file 11 (R665), read under `MODE_OZ`. -/
theorem test_time_words : timeWords true 1700000000123456789 = (0x075BCD15, 0x6553F100, 0) := by decide +kernel

/-- The force code of the leakage example of file 05: 900 mV (R350). -/
theorem test_force_code : forcedMicroVolt 28000 = 900000 ∧ quire0.forceOk 0 5 (-4001) = false := by decide +kernel

/-- The rule P(j) = (G(j) - P(j - 1)) mod 4 by hand, and what the receiver makes of it (R512). -/
theorem test_precode : precode true 0 [3, 1, 2, 0] = [3, 2, 0, 0] ∧ unprecode true 0 [3, 2, 0, 0] = [3, 1, 2, 0] ∧ precode false 0 [3, 1] = [3, 1] := by decide +kernel

/-- The Gray mapping: b1b0 of 00, 01, 11, 10 is level 0, 1, 2, 3, the first bit on the line being b0 (R511, R515). -/
theorem test_gray : pamOf 0b1110010000 = [0, 0, 1, 3, 2] ∧ wordOf [0, 0, 1, 3, 2] = [0b1110010000] := by decide +kernel

/-- The generator polynomial has the roots α^0 to α^29 (R514). -/
theorem test_generator :
    (∀ i ∈ List.range 30, gfEval ((List.range 30).map (fun j => rsRows.headD 0 / 2 ^ (10 * j) % 1024) ++ [1]) (gfAlpha i) = 0)
    ∧ ∀ b ∈ List.range 9, ∀ j ∈ List.range 30, rsRows.getD (b + 1) 0 / 2 ^ (10 * j) % 1024 = gfDouble (rsRows.getD b 0 / 2 ^ (10 * j) % 1024) := by decide +kernel

/-- Entries 0 and 6 of the Pumice table of file 02 (R93, R94): WAIT_TRIG of pin 30 and code 0xB with a landing at 8, and a stall-safe PLAY of signature 30 under hold profile 2. -/
theorem test_binding_words : let x := running [(rk 2 0, 0x90000810), (rk 2 8, 0x5E0B0000), (rk 2 12, 0x000186A0), (rk 2 192, 0x181E0012)];
    x.bindOp 0 = 9 ∧ fld (x.cfg 2 0) 8 8 = 8 ∧ fld (x.cfg 2 8) 30 2 = 1 ∧ fld (x.cfg 2 8) 24 5 = 30 ∧ fld (x.cfg 2 8) 16 4 = 0xB ∧ (x.cfg 2 12).toNat = 100000
      ∧ x.bindOp 6 = 1 ∧ x.bindSig 6 = 30 ∧ bit (x.cfg 2 192) 27 = true ∧ fld (x.cfg 2 192) 0 4 = 2 := by decide +kernel

/-- 15_start_up_and_electrical.md, R843: `DP177` is local pin 17 of quire 5, at row 70 and column 27. -/
theorem test_ball_of_dp177 : pinBall 5 17 = (70, 27) := by decide

end Sys2Proof.Tests
end

section
/-! The pattern unit of an engine: SCRAM, CMAP and BGND (R169 to R178). -/

namespace Sys2Proof.Machine

/-! ### Numbers written digit by digit -/

/-- A number with `n` digits in base `B` is below `B ^ n`. -/
theorem foldl_digits_lt (B : Nat) (d : Nat → Nat) (n : Nat) (hd : ∀ i < n, d i < B) :
    (List.range n).foldl (fun a i => a + d i * B ^ i) 0 < B ^ n := by
  induction n with
  | zero => simp
  | succ n ih =>
    have hlow := ih fun i hi => hd i (by omega)
    have htop : (d n + 1) * B ^ n ≤ B * B ^ n := Nat.mul_le_mul_right _ (hd n (by omega))
    simp only [List.range_succ, List.foldl_append, List.foldl_cons, List.foldl_nil, pow_succ']
    linarith

/-- The digits of a number are those it is written with. -/
theorem foldl_digits_digit (B : Nat) (d : Nat → Nat) (n : Nat) (hd : ∀ i < n, d i < B) {i : Nat} (hi : i < n) :
    (List.range n).foldl (fun a i => a + d i * B ^ i) 0 / B ^ i % B = d i := by
  induction n with
  | zero => omega
  | succ n ih =>
    have hB : 0 < B := (Nat.zero_le _).trans_lt (hd n (by omega))
    have hlow := foldl_digits_lt B d n fun j hj => hd j (by omega)
    simp only [List.range_succ, List.foldl_append, List.foldl_cons, List.foldl_nil]
    rcases Nat.lt_succ_iff_lt_or_eq.mp hi with h | rfl
    · obtain ⟨k, rfl⟩ := Nat.exists_eq_add_of_lt h
      have hsplit : d (i + k + 1) * B ^ (i + k + 1) = d (i + k + 1) * B ^ k * B * B ^ i := by ring
      rw [hsplit, Nat.add_mul_div_right _ _ (pow_pos hB i), Nat.add_mul_mod_self_right]
      exact ih (fun j hj => hd j (by omega)) h
    · rw [Nat.add_mul_div_right _ _ (pow_pos hB i), Nat.div_eq_of_lt hlow, zero_add, Nat.mod_eq_of_lt (hd i hi)]

/-- The same for a number that fits a register. -/
theorem toNat_ofNat_foldl_digits (B : Nat) (d : Nat → Nat) (n : Nat) (hd : ∀ i < n, d i < B) (hfit : B ^ n ≤ 2 ^ 64) {i : Nat} (hi : i < n) :
    (BitVec.ofNat 64 ((List.range n).foldl (fun a i => a + d i * B ^ i) 0)).toNat / B ^ i % B = d i := by
  rw [BitVec.toNat_ofNat, Nat.mod_eq_of_lt ((foldl_digits_lt B d n hd).trans_le hfit), foldl_digits_digit B d n hd hi]

/-! ### From one instruction to the chip -/

/-- Operations that fit the bound let a legal instruction issue. -/
theorem Engine.issues_of_affords (x : Engine) (cost : Nat) (h : x.Affords cost) : x.issues true cost = true := by
  cases ha : x.algo
  · simp [Engine.issues, ha]
  · simpa [Engine.issues, ha] using h ha

/-- An instruction whose step goes on turns its engine, and leaves the rest of the chip to its reads. -/
theorem State.turns_of_go (s : State) (q : QId) (e : EngId) (i : StoreReads → Instr) (word : Word) (cost pc : Nat) (y : Engine)
    (reads : Engine → Bool) (step : Engine → EStep) (b : Bool)
    (hexec : ∀ o, exec (i o) s = .next (s.onQuire q fun x => x.w.runOn e.val word o reads step))
    (hreads : (s.engineOf q e).Affords cost → reads (s.engineOf q e) = b)
    (hgo : (s.engineOf q e).Affords cost → step (s.engineOf q e) = .go (y.after cost pc)) :
    s.Turns q e i word cost pc y b := by
  intro hat haff
  rw [funext hexec, ← hreads haff]
  exact s.ends_go q e word reads step _ hat (hgo haff)

/-- The register write that ends an instruction of cost `cost`. -/
theorem Engine.put_after (x : Engine) (cost : Nat) (r : BitVec 5) (v : DWord) (h : x.pc + 1 < x.progLen) :
    ({ x with opsUsed := x.opsUsed + cost } : Engine).put r v = .go ((x.setX r v).after cost (x.pc + 1)) := by
  rw [Engine.put_go _ _ _ (by simpa using h), Engine.setX_ops]
  simp [Engine.after]

/-! ### SCRAM (R169, R170) -/

theorem bread_getD (a n i : Nat) (m : Sparse Byte) (h : i < n) : (bread a n m).getD i 0 = bget (a + i) m := by
  simp [bread, h]

/-- The bit that a selector takes: a bit of the word, a zero or a one. -/
def selectedBit (v : DWord) (b : Byte) : Nat := if b.toNat < 0x40 then b2n (v.getLsbD b.toNat) else b.toNat - 0x40

theorem selectedBit_lt (v : DWord) (b : Byte) (h : b.toNat ≤ 0x41) : selectedBit v b < 2 := by
  unfold selectedBit b2n
  split_ifs <;> omega

theorem selectedBit_eq_one (v : DWord) (b : Byte) (h : b.toNat ≤ 0x41) :
    decide (selectedBit v b = 1) = if b.toNat < 0x40 then v.getLsbD b.toNat else decide (b.toNat = 0x41) := by
  unfold selectedBit
  split_ifs with hb
  · cases v.getLsbD b.toNat <;> rfl
  · exact decide_eq_decide.mpr (by omega)

/-- The 32 selected bits as a number. -/
def selectedBits (sel : List Byte) (v : DWord) : Nat := (List.range 32).foldl (fun a i => a + selectedBit v (sel.getD i 0) * 2 ^ i) 0

theorem scramble_eq (sel : List Byte) (v : DWord) (h : ∀ b ∈ sel, b.toNat ≤ 0x41) :
    scramble sel v = some (BitVec.ofNat 64 (selectedBits sel v + 2 ^ 56 * (v.toNat / 2 ^ 56))) := by
  have hany : (sel.any fun b => 0x41 < b.toNat) = false := by simpa using h
  rw [scramble, if_neg (by simp [hany])]
  rfl

/-- Below bit 56 the scrambled word holds the selected bits alone, from bit 56 on the word itself. -/
theorem getLsbD_scrambled (n : Nat) (v : DWord) (hn : n < 2 ^ 56) {i : Nat} (hi : i < 64) :
    (BitVec.ofNat 64 (n + 2 ^ 56 * (v.toNat / 2 ^ 56))).getLsbD i = if i < 56 then n.testBit i else v.getLsbD i := by
  rw [BitVec.getLsbD_ofNat, Nat.add_comm, Nat.testBit_two_pow_mul_add _ hn, Nat.testBit_div_two_pow]
  by_cases h : i < 56
  · simp [hi, h]
  · simp [hi, h, Nat.sub_add_cancel (Nat.le_of_not_lt h), BitVec.getLsbD]

theorem scramble_spec (sel : List Byte) (v : DWord) (hlen : sel.length = 32) (h : ∀ i < 32, (sel.getD i 0).toNat ≤ 0x41) :
    ∃ w, scramble sel v = some w
      ∧ (∀ i < 32, w.getLsbD i = if (sel.getD i 0).toNat < 0x40 then v.getLsbD (sel.getD i 0).toNat else decide ((sel.getD i 0).toNat = 0x41))
      ∧ (∀ i, 32 ≤ i → i < 56 → w.getLsbD i = false) ∧ ∀ i, 56 ≤ i → i < 64 → w.getLsbD i = v.getLsbD i := by
  have hmem : ∀ b ∈ sel, b.toNat ≤ 0x41 := by
    intro b hb
    obtain ⟨i, hi, rfl⟩ := List.getElem_of_mem hb
    simpa [hi] using h i (hlen ▸ hi)
  have hdigit : ∀ i < 32, selectedBit v (sel.getD i 0) < 2 := fun i hi => selectedBit_lt _ _ (h i hi)
  have hlt : selectedBits sel v < 2 ^ 32 := foldl_digits_lt 2 _ 32 hdigit
  have hlow : selectedBits sel v < 2 ^ 56 := hlt.trans (by norm_num)
  refine ⟨_, scramble_eq sel v hmem, fun i hi => ?_, fun i h32 h56 => ?_, fun i h56 h64 => ?_⟩
  · rw [getLsbD_scrambled _ _ hlow (by omega), if_pos (by omega), Nat.testBit_eq_decide_div_mod_eq, ← selectedBit_eq_one v _ (h i hi)]
    exact congrArg (fun n => decide (n = 1)) (foldl_digits_digit 2 _ 32 hdigit hi)
  · rw [getLsbD_scrambled _ _ hlow (by omega), if_pos h56]
    exact Nat.testBit_lt_two_pow (hlt.trans_le (Nat.pow_le_pow_right (by norm_num) h32))
  · rw [getLsbD_scrambled _ _ hlow h64, if_neg (by omega)]

theorem eScram_go (f : FmtB) (x : Engine) (v : DWord) (hp : x.pc + 1 < x.progLen) (ha : x.Affords 1)
    (hv : scramble (bread (0x500 + 32 * (f.imm.toNat % 64)) 32 x.dstore) (x.x f.ra) = some v) :
    eScram f x = .go ((x.setX f.rd v).after 1 (x.pc + 1)) := by
  rw [eScram, issue_ok 1 x _ ha]
  simp only [Engine.x_ops, hv]
  exact x.put_after 1 f.rd v hp

theorem scram_turns (s : State) (q : QId) (e : EngId) (f : FmtB) (v : DWord) (hp : (s.engineOf q e).pc + 1 < (s.engineOf q e).progLen)
    (hv : scramble (bread (0x500 + 32 * (f.imm.toNat % 64)) 32 (s.engineOf q e).dstore) ((s.engineOf q e).x f.ra) = some v) :
    s.Turns q e (.scram q e f) (encB 0x2C f) 1 ((s.engineOf q e).pc + 1) ((s.engineOf q e).setX f.rd v) (reads := true) :=
  s.turns_of_go q e _ _ _ _ _ scramReads (eScram f) _ (fun _ => rfl) (Engine.issues_of_affords _ _) fun ha => eScram_go f _ v hp ha hv

/-! ### CMAP (R175 to R178) -/

/-- The part of the source word that CMAP looks up for cell `j`. -/
def cmapIndex (imm a j : Nat) : Nat :=
  if imm / 4 % 2 = 0 then a / 2 ^ (32 * (imm / 8 % 2) + 2 * j) % 4
  else if j < 8 then a / 2 ^ (8 * (imm / 16 % 4) + j) % 2
  else a / 2 ^ (56 + (j - 8)) % 2

theorem Engine.cell_lt (x : Engine) (t v : Nat) : x.cell t v < 16 := Nat.mod_lt _ (by norm_num)

theorem Engine.cmap_digit (x : Engine) (imm a : Nat) {j : Nat} (hj : j < 16) :
    (BitVec.ofNat 64 (x.cmap imm a)).toNat / 16 ^ j % 16 = x.cell (imm % 4) (cmapIndex imm a j) :=
  toNat_ofNat_foldl_digits 16 (fun j => x.cell (imm % 4) (cmapIndex imm a j)) 16 (fun _ _ => x.cell_lt _ _) (by norm_num) hj

/-- A mask all of whose bits are 0 in a word takes nothing of the word. -/
theorem and_eq_zero_of_bits (w mask : BitVec 16) (h : ∀ i < 16, mask.getLsbD i = true → w.getLsbD i = false) : w &&& mask = 0 := by
  apply BitVec.eq_of_getLsbD_eq
  intro i hi
  have := h i hi
  cases hm : mask.getLsbD i <;> simp_all

/-- The bits of a number below a power of two end there. -/
theorem getLsbD_eq_false_of_lt (w : BitVec 16) (k i : Nat) (hw : w.toNat < 2 ^ k) (hi : k ≤ i) : w.getLsbD i = false :=
  Nat.testBit_lt_two_pow (hw.trans_le (Nat.pow_le_pow_right (by norm_num) hi))

theorem getLsbD_eq_decide (w : BitVec 16) (i : Nat) : w.getLsbD i = decide (w.toNat / 2 ^ i % 2 = 1) :=
  Nat.testBit_eq_decide_div_mod_eq

/-- Symbol mode uses bits 3 to 0 of the immediate (R176, R178). -/
theorem cmapLegal_symbolMode (imm : BitVec 16) (h2 : imm.toNat / 4 % 2 = 0) (hhigh : imm.toNat / 16 = 0) : cmapLegal imm = true := by
  have hb2 : imm.getLsbD 2 = false := by rw [getLsbD_eq_decide]; simp [h2]
  have hmask : imm &&& 0xFFF0 = 0 := by
    refine and_eq_zero_of_bits _ _ fun i hi hm => ?_
    have h4 : 4 ≤ i := (by decide : ∀ i < 16, (0xFFF0 : BitVec 16).getLsbD i = true → 4 ≤ i) i hi hm
    exact getLsbD_eq_false_of_lt imm 4 i (by omega) h4
  simp only [cmapLegal, hb2, hmask, decide_true, if_false, Bool.false_eq_true]

/-- Bit mode uses bits 5 to 0 of the immediate but bit 3 (R177, R178). -/
theorem cmapLegal_bitMode (imm : BitVec 16) (h2 : imm.toNat / 4 % 2 = 1) (h3 : imm.toNat / 8 % 2 = 0) (hhigh : imm.toNat / 64 = 0) :
    cmapLegal imm = true := by
  have hb2 : imm.getLsbD 2 = true := by rw [getLsbD_eq_decide]; simp [h2]
  have hb3 : imm.getLsbD 3 = false := by rw [getLsbD_eq_decide]; simp [h3]
  have hmask : imm &&& 0xFFC8 = 0 := by
    refine and_eq_zero_of_bits _ _ fun i hi hm => ?_
    rcases (by decide : ∀ i < 16, (0xFFC8 : BitVec 16).getLsbD i = true → i = 3 ∨ 6 ≤ i) i hi hm with rfl | h6
    · exact hb3
    · exact getLsbD_eq_false_of_lt imm 6 i (by omega) h6
  simp only [cmapLegal, hb2, hmask, decide_true, if_true]

theorem eCmap_go (f : FmtB) (x : Engine) (hl : cmapLegal f.imm = true) (hp : x.pc + 1 < x.progLen) (ha : x.Affords 1) :
    eCmap f x = .go ((x.setX f.rd (BitVec.ofNat 64 (x.cmap f.imm.toNat (x.x f.ra).toNat))).after 1 (x.pc + 1)) := by
  rw [eCmap, hl, issue_ok 1 x _ ha]
  exact x.put_after 1 f.rd _ hp

theorem cmap_turns (s : State) (q : QId) (e : EngId) (f : FmtB) (hl : cmapLegal f.imm = true)
    (hp : (s.engineOf q e).pc + 1 < (s.engineOf q e).progLen) :
    let x := s.engineOf q e
    s.Turns q e (.cmap q e f) (encB 0x2E f) 1 (x.pc + 1) (x.setX f.rd (BitVec.ofNat 64 (x.cmap f.imm.toNat (x.x f.ra).toNat))) (reads := true) :=
  s.turns_of_go q e _ _ _ _ _ (cmapReads f) (eCmap f) _ (fun _ => rfl)
    (fun ha => by rw [cmapReads, hl]; exact Engine.issues_of_affords _ _ ha) fun ha => eCmap_go f _ hl hp ha

/-! ### BGND (R171 to R174) -/

/-- The cells of the second symbol, by the kind of background, `KIND` 6 apart (R172). -/
def Engine.secondSymbol (x : Engine) (r c : Nat) : Prop :=
  (x.u 10 % 8 = 1 ∧ (r + c) % 2 = 1) ∨ (x.u 10 % 8 = 2 ∧ r % 2 = 1) ∨ (x.u 10 % 8 = 3 ∧ c % 2 = 1)
    ∨ (x.u 10 % 8 = 4 ∧ ((c : Int) - r) % (x.u 10 / 256 % 256 : Nat) = 0)
    ∨ (x.u 10 % 8 = 5 ∧ (parity20 (r &&& (x.u 11 % 2 ^ 20)) != parity20 (c &&& (x.u 11 / 2 ^ 32 % 2 ^ 20))) = true)

/-- The entry of the 8 by 8 table for a cell (R172). -/
def Engine.tableSymbol (x : Engine) (r c : Nat) : Nat :=
  let k := 8 * (r % 8) + c % 8
  (if k < 32 then x.u 12 / 2 ^ (2 * k) else x.u 13 / 2 ^ (2 * (k - 32))) % 4

theorem Engine.symbol_table (x : Engine) (inv : Bool) (r c : Nat) (h : x.u 10 % 8 = 6) :
    x.symbol inv r c = if inv then 3 - x.tableSymbol r c else x.tableSymbol r c := by
  simp only [Engine.symbol, h, if_true]
  rfl

/-- A kind other than the table gives one of the two symbols, and inverting exchanges them (R172, R173). -/
theorem Engine.symbol_mixed (x : Engine) (inv : Bool) (r c : Nat) (h : x.u 10 % 8 ≠ 6) :
    ∃ b : Bool, (b = true ↔ x.secondSymbol r c) ∧ x.symbol inv r c = if b != inv then x.u 10 / 64 % 4 else x.u 10 / 16 % 4 := by
  simp only [Engine.symbol, h, if_false]
  refine ⟨_, ?_, rfl⟩
  unfold Engine.secondSymbol
  generalize x.u 10 % 8 = kind at h
  split_ifs <;> simp [*]

theorem Engine.symbol_second (x : Engine) (inv : Bool) (r c : Nat) (h : x.u 10 % 8 ≠ 6) (hb : x.secondSymbol r c) :
    x.symbol inv r c = if inv then x.u 10 / 16 % 4 else x.u 10 / 64 % 4 := by
  obtain ⟨b, hiff, heq⟩ := x.symbol_mixed inv r c h
  rw [heq, hiff.mpr hb]
  cases inv <;> rfl

theorem Engine.symbol_first (x : Engine) (inv : Bool) (r c : Nat) (h : x.u 10 % 8 ≠ 6) (hb : ¬x.secondSymbol r c) :
    x.symbol inv r c = if inv then x.u 10 / 64 % 4 else x.u 10 / 16 % 4 := by
  obtain ⟨b, hiff, heq⟩ := x.symbol_mixed inv r c h
  rw [heq, Bool.eq_false_iff.mpr (mt hiff.mp hb)]
  cases inv <;> rfl

theorem Engine.symbol_lt (x : Engine) (inv : Bool) (r c : Nat) : x.symbol inv r c < 4 := by
  unfold Engine.symbol
  dsimp only
  split_ifs <;> omega

/-- The column of the first cell of a quarter (R171). -/
def Engine.firstColumn (x : Engine) (imm a : Nat) : Nat := a % 2 ^ 20 * 2 ^ (x.u 10 / 2 ^ 16 % 16) + 32 * (imm % 4)

/-- The 32 symbols of a quarter, two bits each (R171). -/
def Engine.quarter (x : Engine) (inv : Bool) (imm a : Nat) : DWord :=
  BitVec.ofNat 64 ((List.range 32).foldl (fun v i => v + x.symbol inv (a / 2 ^ 20 % 2 ^ 20) (x.firstColumn imm a + i) * 4 ^ i) 0)

theorem Engine.quarter_digit (x : Engine) (inv : Bool) (imm a : Nat) {i : Nat} (hi : i < 32) :
    (x.quarter inv imm a).toNat / 4 ^ i % 4 = x.symbol inv (a / 2 ^ 20 % 2 ^ 20) (x.firstColumn imm a + i) :=
  toNat_ofNat_foldl_digits 4 (fun i => x.symbol inv (a / 2 ^ 20 % 2 ^ 20) (x.firstColumn imm a + i)) 32 (fun _ _ => x.symbol_lt _ _ _) (by norm_num) hi

theorem Engine.bgBad_eq_false (x : Engine) (h7 : x.u 10 % 8 ≠ 7) (h4 : x.u 10 % 8 = 4 → x.u 10 / 256 % 256 ≠ 0) : x.bgBad = false := by
  simpa [Engine.bgBad, h7] using h4

@[simp] theorem Engine.bgBad_ops (x : Engine) (n : Nat) : ({ x with opsUsed := n } : Engine).bgBad = x.bgBad := rfl
@[simp] theorem Engine.symbol_ops (x : Engine) (n : Nat) (inv : Bool) (r c : Nat) :
    ({ x with opsUsed := n } : Engine).symbol inv r c = x.symbol inv r c := rfl
@[simp] theorem Engine.firstColumn_ops (x : Engine) (n imm a : Nat) : ({ x with opsUsed := n } : Engine).firstColumn imm a = x.firstColumn imm a := rfl
@[simp] theorem Engine.quarter_ops (x : Engine) (n : Nat) (inv : Bool) (imm a : Nat) :
    ({ x with opsUsed := n } : Engine).quarter inv imm a = x.quarter inv imm a := by simp [Engine.quarter]

theorem eBgnd_eq (f : FmtB) (x : Engine) :
    eBgnd f x = issue true 1 x fun e =>
      if e.bgBad then .trap trapUnit e else e.put f.rd (e.quarter (f.imm.getLsbD 2) f.imm.toNat (e.x f.ra).toNat) := rfl

theorem eBgnd_go (f : FmtB) (x : Engine) (hb : x.bgBad = false) (hp : x.pc + 1 < x.progLen) (ha : x.Affords 1) :
    eBgnd f x = .go ((x.setX f.rd (x.quarter (f.imm.getLsbD 2) f.imm.toNat (x.x f.ra).toNat)).after 1 (x.pc + 1)) := by
  rw [eBgnd_eq, issue_ok 1 x _ ha]
  simp only [Engine.bgBad_ops, hb, Bool.false_eq_true, if_false, Engine.quarter_ops, Engine.x_ops]
  exact x.put_after 1 f.rd _ hp

theorem bgnd_turns (s : State) (q : QId) (e : EngId) (f : FmtB) (hb : (s.engineOf q e).bgBad = false)
    (hp : (s.engineOf q e).pc + 1 < (s.engineOf q e).progLen) :
    let x := s.engineOf q e
    s.Turns q e (.bgnd q e f) (encB 0x2D f) 1 (x.pc + 1) (x.setX f.rd (x.quarter (f.imm.getLsbD 2) f.imm.toNat (x.x f.ra).toNat)) :=
  s.turns_of_go q e _ _ _ _ _ noReads (eBgnd f) _ (fun _ => rfl) (fun _ => rfl) fun ha => eBgnd_go f _ hb hp ha

end Sys2Proof.Machine

namespace Sys2Proof.Proofs

open Sys2Proof.Machine

/-- SCRAM with a set that has no reserved selector (R169, R170). -/
theorem scram_selects (s : State) (q : QId) (e : EngId) (f : FmtB) (hp : (s.engineOf q e).pc + 1 < (s.engineOf q e).progLen) :
    let x := s.engineOf q e
    let sel := fun (i : Nat) => (bget (0x500 + 32 * (f.imm.toNat % 64) + i) x.dstore).toNat
    (∀ i < 32, sel i ≤ 0x41) →
      ∃ v, s.Turns q e (.scram q e f) (encB 0x2C f) 1 (x.pc + 1) (x.setX f.rd v) (reads := true)
        ∧ (∀ i < 32, v.getLsbD i = if sel i < 0x40 then (x.x f.ra).getLsbD (sel i) else decide (sel i = 0x41))
        ∧ (∀ i, 32 ≤ i → i < 56 → v.getLsbD i = false) ∧ ∀ i, 56 ≤ i → i < 64 → v.getLsbD i = (x.x f.ra).getLsbD i := by
  intro x sel hsel
  have hget : ∀ i < 32, ((bread (0x500 + 32 * (f.imm.toNat % 64)) 32 x.dstore).getD i 0).toNat = sel i :=
    fun i hi => congrArg BitVec.toNat (bread_getD _ _ _ _ hi)
  obtain ⟨v, hv, hlow, hmid, hhigh⟩ := scramble_spec (bread (0x500 + 32 * (f.imm.toNat % 64)) 32 x.dstore) (x.x f.ra) (by simp [bread])
    fun i hi => (hget i hi).trans_le (hsel i hi)
  exact ⟨v, scram_turns s q e f v hp hv, fun i hi => hget i hi ▸ hlow i hi, hmid, hhigh⟩

/-- Settles O5: each instruction's word is written digit by digit, by selectors, by cells of the tables or by symbols, and its digits read back. -/
theorem enginePatternUnit : Obligations.EnginePatternUnit := by
  refine ⟨?_, ?_⟩
  · intro s q e f x a n sel cell symbolMode bitMode hp
    refine ⟨scram_selects s q e f hp, fun ⟨h2, hhigh⟩ => ?_, fun ⟨h2, h3, hhigh⟩ => ?_⟩
    · refine ⟨_, cmap_turns s q e f (cmapLegal_symbolMode f.imm h2 hhigh) hp, fun j hj => ?_⟩
      rw [Engine.cmap_digit _ _ _ hj, cmapIndex, if_pos h2]
      rfl
    · have hbit : ¬n / 4 % 2 = 0 := by omega
      refine ⟨_, cmap_turns s q e f (cmapLegal_bitMode f.imm h2 h3 hhigh) hp, fun j hj => ?_, fun j hj => ?_⟩
      · rw [Engine.cmap_digit _ _ _ (by omega), cmapIndex, if_neg hbit, if_pos hj]
        rfl
      · rw [Engine.cmap_digit _ _ _ (by omega), cmapIndex, if_neg hbit, if_neg (by omega), Nat.add_sub_cancel_left]
        rfl
  · intro s q e f x a ctrl kind period inv r c symA symB isB entry hp h7 h4
    refine ⟨_, bgnd_turns s q e f (x.bgBad_eq_false h7 h4) hp, fun i hi => ?_⟩
    rw [Engine.quarter_digit _ _ _ _ hi]
    exact ⟨fun h6 => x.symbol_table _ _ _ h6, fun h6 hb => x.symbol_second _ _ _ h6 hb, fun h6 hb => x.symbol_first _ _ _ h6 hb⟩

end Sys2Proof.Proofs
end

section
/-! A reading of the temperature sensors: SENSOR_READ (R711, R719 to R723). -/

namespace Sys2Proof.Machine

/-! ### Counters of the chip (R776) -/

theorem satAdd_word (v n : Nat) : (satAdd 32 v n).1 = min (v + n) (2 ^ 32 - 1) := by
  unfold satAdd
  dsimp only
  split <;> dsimp only <;> omega

theorem State.bump_counted (s : State) (k n : Nat) : Counted n (s.reg k) ((s.bump k n).reg k) := by
  rw [Counted, State.reg, State.bump_regs, sget_sput_same, satAdd_word, BitVec.toNat_ofNat]
  exact Nat.mod_eq_of_lt (by omega)

theorem State.bump_reg_other (s : State) (k n : Nat) {j : Nat} (h : j ≠ k) : (s.bump k n).reg j = s.reg j := by
  rw [State.reg, State.bump_regs, sget_sput_other _ _ _ _ _ h, State.reg]

theorem Counted.refl (w : Word) : Counted 0 w w := by
  unfold Counted
  omega

theorem Counted.trans {m n : Nat} {a b c : Word} (h : Counted m a b) (h' : Counted n b c) : Counted (m + n) a c := by
  unfold Counted at *
  omega

/-! ### The marks of the sensors (R720) -/

theorem getLsbD_or_bit (m : BitVec 16) (i : Nat) {j : Nat} (hj : j < 16) :
    (m ||| BitVec.ofNat 16 (2 ^ i)).getLsbD j = (m.getLsbD j || decide (i = j)) := by
  rw [BitVec.getLsbD_or, BitVec.getLsbD_ofNat, Nat.testBit_two_pow, decide_eq_true hj, Bool.true_and]

theorem getLsbD_andNot_bit (m : BitVec 16) (i : Nat) {j : Nat} (hj : j < 16) :
    (m &&& ~~~(BitVec.ofNat 16 (2 ^ i))).getLsbD j = (m.getLsbD j && !decide (i = j)) := by
  rw [BitVec.getLsbD_and, BitVec.getLsbD_not, BitVec.getLsbD_ofNat, Nat.testBit_two_pow, decide_eq_true hj, Bool.true_and, Bool.true_and]

/-- Setting or clearing one bit after the other leaves each bit to its own turn. -/
theorem getLsbD_foldl_marks (on off : Nat → Prop) [DecidablePred on] [DecidablePred off] (m : BitVec 16) (n : Nat) {j : Nat} (hj : j < 16) :
    ((List.range n).foldl (fun (m : BitVec 16) i =>
        if on i then m ||| BitVec.ofNat 16 (2 ^ i) else if off i then m &&& ~~~(BitVec.ofNat 16 (2 ^ i)) else m) m).getLsbD j
      = if j < n then (if on j then true else if off j then false else m.getLsbD j) else m.getLsbD j := by
  induction n with
  | zero => simp
  | succ n ih =>
    rw [List.range_succ, List.foldl_append, List.foldl_cons, List.foldl_nil, apply_ite (BitVec.getLsbD · j), apply_ite (BitVec.getLsbD · j),
      getLsbD_or_bit _ _ hj, getLsbD_andNot_bit _ _ hj, ih]
    by_cases hjn : n = j
    · subst hjn
      simp
    · have hlt : j < n + 1 ↔ j < n := by omega
      simp [hjn, hlt]

theorem State.marks_getLsbD (s : State) {i : Nat} (hi : i < 16) :
    s.marks.getLsbD i = if 16 * s.tSoft < s.gov.temps.getD i 0 then true
      else if s.gov.temps.getD i 0 < 16 * (s.tSoft - 5) then false else s.gov.marked.getLsbD i := by
  refine (getLsbD_foldl_marks (fun i => 16 * s.tSoft < s.gov.temps.getD i 0) (fun i => s.gov.temps.getD i 0 < 16 * (s.tSoft - 5)) _ 16 hi).trans ?_
  rw [if_pos hi]

/-! ### The hottest sensor (R722) -/

/-- The hottest of some readings. -/
def hottest (t : List Int) : Int := t.foldl max (t.getD 0 0)

theorem max?_eq_hottest {t : List Int} (ht : t ≠ []) : t.max? = some (hottest t) := by
  cases t with
  | nil => exact absurd rfl ht
  | cons a t => rw [List.max?_cons', hottest, List.getD_cons_zero, List.foldl_cons, max_self]

theorem hottest_mem {t : List Int} (ht : t ≠ []) : hottest t ∈ t :=
  (List.max?_eq_some_iff.mp (max?_eq_hottest ht)).1

theorem le_hottest {t : List Int} {i : Nat} (hi : i < t.length) : t.getD i 0 ≤ hottest t := by
  have ht : t ≠ [] := List.ne_nil_of_length_pos (by omega)
  rw [List.getD_eq_getElem _ _ hi]
  exact (List.max?_eq_some_iff.mp (max?_eq_hottest ht)).2 _ (List.getElem_mem hi)

theorem idxOf_hottest_lt {t : List Int} (ht : t ≠ []) : t.idxOf (hottest t) < t.length :=
  List.idxOf_lt_length_iff.mpr (hottest_mem ht)

theorem getD_idxOf_hottest {t : List Int} (ht : t ≠ []) : t.getD (t.idxOf (hottest t)) 0 = hottest t := by
  rw [List.getD_eq_getElem _ _ (idxOf_hottest_lt ht), List.getElem_idxOf]

/-- Sensors before the first hottest one are cooler. -/
theorem lt_hottest_of_lt_idxOf {t : List Int} {i : Nat} (hi : i < t.idxOf (hottest t)) : t.getD i 0 < hottest t := by
  have hlen : i < t.length := hi.trans_le List.idxOf_le_length
  refine lt_of_le_of_ne (le_hottest hlen) fun heq => ?_
  have hnot := List.not_of_lt_findIdx hi
  rw [List.getD_eq_getElem _ _ hlen] at heq
  simp [heq] at hnot

/-! ### The readings in the governor -/

/-- The peak of sensor `i` in whole °C, with the readings `t` (R722). -/
def State.peakWith (s : State) (t : List Int) (i : Nat) : Option Int :=
  match s.gov.peaks.getD i none with
  | some p => some (max p (t.getD i 0 / 16))
  | none => some (t.getD i 0 / 16)

/-- The state with the readings, the hottest and the peaks. -/
def State.withReadings (s : State) (t : List Int) : State :=
  { s with gov := { s.gov with temps := t, peaks := (List.range 16).map (s.peakWith t), hotTemp := hottest t, hotSensor := t.idxOf (hottest t) % 16 } }

/-- The state with the marks that its readings give. -/
def State.withMarks (s : State) : State := { s with gov := { s.gov with marked := s.marks } }

/-- `THERMAL_HOLD` after the readings `t` (R722). -/
def State.holdWith (s : State) (t : List Int) : Bool :=
  t.any (fun v => decide (16 * (s.tHard - 5) ≤ v)) || (s.gov.thermalHold && !t.all fun v => decide (v < 16 * (s.tHard - 10)))

/-- The state with the `THERMAL_HOLD` that the readings `t` give. -/
def State.withHold (s : State) (t : List Int) : State := { s with gov := { s.gov with thermalHold := s.holdWith t } }

@[simp] theorem State.withHold_reg (s : State) (t : List Int) (k : Nat) : (s.withHold t).reg k = s.reg k := rfl

theorem readings_of_length {temps : List Int} (old : List Int) (h : temps.length = 16) : (List.range 16).map (fun i => temps.getD i (old.getD i 0)) = temps := by
  refine List.ext_getElem (by simp [h]) fun i hi hi' => ?_
  rw [List.getElem_map, List.getElem_range, List.getD_eq_getElem _ _ hi']

/-- A reading of 16 sensors, step by step. -/
theorem sensorRead_eq (s : State) {temps : List Int} (hboot : s.boot.step ≠ 0) (hlen : temps.length = 16) :
    sensorRead temps s = ((((s.withReadings temps).withMarks.each (List.finRange 8) State.markZones).withHold temps).each (List.range 16) State.hardCheck).thermalLive := by
  rw [sensorRead, if_neg hboot, readings_of_length _ hlen]
  rfl

theorem any_le_iff (t : List Int) (b : Int) : t.any (fun v => decide (b ≤ v)) = true ↔ ∃ i < t.length, b ≤ t.getD i 0 := by
  rw [List.any_eq_true]
  constructor
  · rintro ⟨v, hv, hle⟩
    obtain ⟨i, hi, rfl⟩ := List.mem_iff_getElem.mp hv
    exact ⟨i, hi, by rw [List.getD_eq_getElem _ _ hi]; exact of_decide_eq_true hle⟩
  · rintro ⟨i, hi, hle⟩
    rw [List.getD_eq_getElem _ _ hi] at hle
    exact ⟨_, List.getElem_mem hi, decide_eq_true hle⟩

/-- Starts are held by a sensor at the upper bound, and stay held while one is at the lower bound. -/
theorem State.holdWith_iff (s : State) (t : List Int) :
    s.holdWith t = true ↔ (∃ i < t.length, 16 * (s.tHard - 5) ≤ t.getD i 0) ∨ (s.gov.thermalHold = true ∧ ∃ i < t.length, 16 * (s.tHard - 10) ≤ t.getD i 0) := by
  have hall : (!t.all fun v => decide (v < 16 * (s.tHard - 10))) = t.any fun v => decide (16 * (s.tHard - 10) ≤ v) := by
    simp only [List.not_all_eq_any_not, ← decide_not, not_lt]
  rw [State.holdWith, hall, Bool.or_eq_true, Bool.and_eq_true, any_le_iff, any_le_iff]

/-! ### The hot zones of the quires (R719, R721) -/

/-- `t` is `u` with the hot zones of the quires of `l` set, and the count of them. -/
structure State.Zoned (u t : State) (l : List QId) : Prop where
  frame : t = { u with quires := t.quires, regs := t.regs, log := t.log, collector := { u.collector with satPages := t.collector.satPages } }
  quire : ∀ q, t.quire q = { u.quire q with hotZones := if q ∈ l then u.zonesOf q else (u.quire q).hotZones }
  reg : ∀ k, k ≠ rk 5 0x308 → t.reg k = u.reg k

theorem State.Zoned.gov {u t : State} {l : List QId} (h : u.Zoned t l) : t.gov = u.gov := by rw [h.frame]

theorem State.zonesOf_congr {s t : State} (h : t.gov = s.gov) (q : QId) : t.zonesOf q = s.zonesOf q := by
  rw [State.zonesOf, State.zonesOf, h]

theorem State.zonesOf_eq (s : State) (q : QId) :
    let a := s.gov.marked.getLsbD (2 * q.val)
    let b := s.gov.marked.getLsbD (2 * q.val + 1)
    let second := s.gov.temps.getD (2 * q.val) 0 < s.gov.temps.getD (2 * q.val + 1) 0
    s.zonesOf q = (if a ∧ (b → ¬second) then 0b0011#4 else 0) ||| (if b ∧ (a → second) then 0b1100#4 else 0) := by
  unfold State.zonesOf
  cases s.gov.marked.getLsbD (2 * q.val) <;> cases s.gov.marked.getLsbD (2 * q.val + 1) <;> simp

theorem State.zoned_refl (s : State) : s.Zoned s [] := ⟨rfl, fun _ => by simp, fun _ _ => rfl⟩

theorem State.Zoned.trans {u t v : State} {l m : List QId} (h : u.Zoned t l) (h' : t.Zoned v m) : u.Zoned v (l ++ m) where
  frame := by
    have hv := h'.frame
    rw [h.frame] at hv
    exact hv
  quire q := by
    rw [h'.quire, h.quire, State.zonesOf_congr h.gov]
    by_cases hl : q ∈ l <;> by_cases hm : q ∈ m <;> simp [hl, hm]
  reg k hk := (h'.reg k hk).trans (h.reg k hk)

/-- A bump of `HOT_MARKS` sets no zone. -/
theorem State.zoned_bump (s : State) (n : Nat) : s.Zoned (s.bump (rk 5 0x308) n) [] where
  frame := by
    obtain ⟨l, c, h⟩ := s.bump_shape (rk 5 0x308) n
    rw [h]
  quire q := by simp
  reg k hk := s.bump_reg_other _ n hk

theorem State.zoned_modQuire (s : State) (q : QId) : s.Zoned (s.modQuire q fun x => { x with hotZones := s.zonesOf q }) [q] where
  frame := rfl
  quire r := by
    by_cases h : r = q
    · subst h
      simp
    · simp [h]
  reg _ _ := rfl

theorem State.zoned_markZones (s : State) (q : QId) : s.Zoned (s.markZones q) [q] := by
  unfold State.markZones
  dsimp only
  split_ifs
  · exact s.zoned_modQuire q
  · exact (s.zoned_modQuire q).trans (State.zoned_bump _ _)

theorem State.zoned_each (l : List QId) (s : State) : s.Zoned (s.each l State.markZones) l := by
  induction l generalizing s with
  | nil => exact s.zoned_refl
  | cons q l ih => exact (s.zoned_markZones q).trans (ih (s.markZones q))

/-! ### The checks against `T_HARD` (R723) -/

/-- The readings in a row of sensor `i` above `T_HARD`, with its present one. -/
def State.hardRun (s : State) (i : Nat) : Nat := if 16 * s.tHard < s.gov.temps.getD i 0 then s.gov.hardCount.getD i 0 + 1 else 0

/-- The state with the count of sensor `i` brought up to date. -/
def State.withHardRun (s : State) (i : Nat) : State := { s with gov := { s.gov with hardCount := lset s.gov.hardCount i (s.hardRun i) } }

/-- The report of an emergency park by sensor `i`, for quire `q`. -/
def State.thermalReport (s : State) (i : Nat) (q : QId) : Report :=
  { severity := .quire, checker := 0x08, quire := some q, acts := [], element := BitVec.ofNat 8 i, cause := 0x07, detail := BitVec.ofNat 24 (ofInt 24 0),
    injected := false, timeNs := s.time.ns, timeValid := s.time.valid }

/-- The reports of an emergency park by sensor `i`: one for every quire in its run. -/
def State.thermalReports (s : State) (i : Nat) : List Report :=
  ((List.finRange 8).filter fun q => (s.quire q).state = .armed ∨ (s.quire q).state = .running ∨ (s.quire q).state = .paused).map (s.thermalReport i)

theorem State.thermalReports_congr {s t : State} (hstate : ∀ q, (t.quire q).state = (s.quire q).state) (htime : t.time = s.time) (i : Nat) :
    t.thermalReports i = s.thermalReports i := by
  have hreport : t.thermalReport i = s.thermalReport i := funext fun q => by rw [State.thermalReport, State.thermalReport, htime]
  rw [State.thermalReports, State.thermalReports, hreport]
  exact congrArg _ (List.filter_congr fun q _ => decide_eq_decide.mpr (by rw [hstate]))

theorem State.each_report (l : List QId) (s : State) (i : Nat) :
    s.each l (fun s q => s.report .quire 0x08 (some q) [] (BitVec.ofNat 8 i) 0x07 0 false)
      = { s with collector := { s.collector with reports := s.collector.reports ++ l.map (s.thermalReport i) } } := by
  induction l generalizing s with
  | nil => simp [State.each]
  | cons q l ih =>
    refine (ih _).trans ?_
    simp [State.report, State.thermalReport]

/-- The state with the emergency flag set. -/
def State.withEmergency (s : State) : State := { s with gov := { s.gov with emergency := true } }

/-- The log entry of an emergency park by sensor `i` (R723). -/
def parkEvent (i : Nat) (reading : Byte) : LogEvent :=
  { code := 0x16, source := 12, quire := none, injected := false, exempt := true, d0 := packW [(8, (BitVec.ofNat 8 i).toNat), (0, reading.toNat)], d1 := 0, d2 := 0, at_ := none }

/-- An emergency park before its reports. -/
def State.parkLogged (s : State) (i : Nat) (reading : Byte) : State := (s.withEmergency.bump (rk 5 0x30C)).logEvent (parkEvent i reading)

theorem State.parkLogged_shape (s : State) (i : Nat) (reading : Byte) :
    ∃ l c, s.parkLogged i reading = { s with
      gov := { s.gov with emergency := true }, regs := (s.bump (rk 5 0x30C)).regs, log := l, collector := { s.collector with satPages := c } } := by
  obtain ⟨l, c, hbump⟩ := s.withEmergency.bump_shape (rk 5 0x30C) 1
  obtain ⟨l', c', hlog⟩ := (s.withEmergency.bump (rk 5 0x30C)).logEvent_shape (parkEvent i reading)
  refine ⟨l', c', ?_⟩
  rw [State.parkLogged, hlog, hbump, State.bump_regs]
  rfl

theorem State.emergencyPark_eq (s : State) (i : Nat) (reading : Byte) :
    s.emergencyPark 0x07 (BitVec.ofNat 8 i) reading false
      = { s.parkLogged i reading with collector := { (s.parkLogged i reading).collector with
            reports := (s.parkLogged i reading).collector.reports ++ (s.parkLogged i reading).thermalReports i } } :=
  State.each_report _ _ _

/-- An emergency park by sensor `i` that is not injected. -/
theorem State.emergencyPark_shape (s : State) (i : Nat) (reading : Byte) :
    ∃ l c, s.emergencyPark 0x07 (BitVec.ofNat 8 i) reading false = { s with
      gov := { s.gov with emergency := true }, regs := (s.bump (rk 5 0x30C)).regs, log := l
      collector := { s.collector with reports := s.collector.reports ++ s.thermalReports i, satPages := c } } := by
  obtain ⟨l, c, h⟩ := s.parkLogged_shape i reading
  refine ⟨l, c, ?_⟩
  rw [State.emergencyPark_eq, State.thermalReports_congr (s := s) (fun q => by rw [h]; rfl) (by rw [h]), h]

/-- A check that nothing is injected into says nothing and leaves the chip as it is. -/
theorem State.check_none (s : State) (c e : Nat) (h : injecting c e s.collector.injections = false) : s.check c e = (false, s) := by
  rw [State.check, takeInjection_none c e _ h]
  rfl

/-- One check of a sensor with nothing injected: the count, and at its tenth reading the emergency park. -/
theorem State.hardCheck_quiet (s : State) (i : Nat) (h : injecting 0x08 i s.collector.injections = false) :
    s.hardCheck i = if s.hardRun i = 10 then (s.withHardRun i).emergencyPark 0x07 (BitVec.ofNat 8 i) (celsius (s.gov.temps.getD i 0)) false else s.withHardRun i := by
  unfold State.hardCheck
  rw [s.check_none 0x08 i h]
  simp only [Bool.or_false, decide_eq_true_eq, Bool.false_and]
  rw [if_neg]
  · rfl
  · rintro ⟨hten, hreal, -⟩
    rw [if_neg (by simpa using hreal)] at hten
    omega

/-- Those of the first `n` sensors that have their tenth reading in a row above `T_HARD`. -/
def State.parking (s : State) (n : Nat) : List Nat := (List.range n).filter fun i => s.hardRun i = 10

theorem State.parking_succ_of_eq (s : State) {n : Nat} (h : s.hardRun n = 10) : s.parking (n + 1) = s.parking n ++ [n] := by
  simp [State.parking, List.range_succ, h]

theorem State.parking_succ_of_ne (s : State) {n : Nat} (h : s.hardRun n ≠ 10) : s.parking (n + 1) = s.parking n := by
  simp [State.parking, List.range_succ, h]

/-- `t` is `u` after the checks of the first `n` sensors, with nothing injected. -/
structure State.Checked (u t : State) (n : Nat) : Prop where
  frame : t = { u with
    gov := { u.gov with hardCount := t.gov.hardCount, emergency := t.gov.emergency }, regs := t.regs, log := t.log
    collector := { u.collector with reports := t.collector.reports, satPages := t.collector.satPages } }
  length : t.gov.hardCount.length = u.gov.hardCount.length
  count : ∀ i < u.gov.hardCount.length, t.gov.hardCount.getD i 0 = if i < n then u.hardRun i else u.gov.hardCount.getD i 0
  emergency : t.gov.emergency = (u.gov.emergency || !(u.parking n).isEmpty)
  reports : t.collector.reports = u.collector.reports ++ (u.parking n).flatMap u.thermalReports
  parks : Counted (u.parking n).length (u.reg (rk 5 0x30C)) (t.reg (rk 5 0x30C))
  reg : ∀ k, k ≠ rk 5 0x30C → t.reg k = u.reg k

theorem State.checked_zero (s : State) : s.Checked s 0 where
  frame := rfl
  length := rfl
  count i _ := by simp
  emergency := by simp [State.parking]
  reports := by simp [State.parking]
  parks := Counted.refl _
  reg _ _ := rfl

section
variable {u t : State} {n : Nat}

theorem State.Checked.hardRun (h : u.Checked t n) (hn : n < u.gov.hardCount.length) : t.hardRun n = u.hardRun n := by
  have htemps : t.gov.temps = u.gov.temps := by rw [h.frame]
  have hreg : t.reg (rk 5 0) = u.reg (rk 5 0) := h.reg _ (by decide)
  rw [State.hardRun, State.hardRun, State.tHard, State.tHard, hreg, htemps, h.count n hn, if_neg (lt_irrefl n)]

theorem getD_lset {l : List Nat} {i j : Nat} (v : Nat) (hj : j < l.length) : (lset l i v).getD j 0 = if i = j then v else l.getD j 0 := by
  rw [List.getD_eq_getElem _ _ hj, List.getD_eq_getElem _ _ (by simpa [lset] using hj)]
  exact List.getElem_set _

/-- The counts after one check more. -/
theorem State.Checked.count_succ (h : u.Checked t n) {i : Nat} (hi : i < u.gov.hardCount.length) :
    (lset t.gov.hardCount n (u.hardRun n)).getD i 0 = if i < n + 1 then u.hardRun i else u.gov.hardCount.getD i 0 := by
  rw [getD_lset _ (h.length ▸ hi), h.count i hi]
  by_cases heq : n = i
  · subst heq
    simp
  · have hlt : i < n + 1 ↔ i < n := by omega
    simp [heq, hlt]

theorem State.Checked.withHardRun (h : u.Checked t n) (hn : n < u.gov.hardCount.length) (hten : u.hardRun n ≠ 10) : u.Checked (t.withHardRun n) (n + 1) where
  frame := by
    rw [State.withHardRun, h.frame]
  length := by simp [State.withHardRun, lset, h.length]
  count i hi := by
    rw [State.withHardRun, h.hardRun hn]
    exact h.count_succ hi
  emergency := by
    rw [u.parking_succ_of_ne hten]
    exact h.emergency
  reports := by
    rw [u.parking_succ_of_ne hten]
    exact h.reports
  parks := by
    rw [u.parking_succ_of_ne hten]
    exact h.parks
  reg := h.reg

theorem State.Checked.park (h : u.Checked t n) (hn : n < u.gov.hardCount.length) (hten : u.hardRun n = 10) (reading : Byte) :
    u.Checked ((t.withHardRun n).emergencyPark 0x07 (BitVec.ofNat 8 n) reading false) (n + 1) := by
  obtain ⟨l, c, hpark⟩ := (t.withHardRun n).emergencyPark_shape n reading
  have hquires : t.quires = u.quires := by rw [h.frame]
  have htime : t.time = u.time := by rw [h.frame]
  have hreports : (t.withHardRun n).thermalReports n = u.thermalReports n :=
    State.thermalReports_congr (fun q => congrArg Quire.state (u.quire_congr t q hquires)) htime n
  have hregs : ∀ k, ((t.withHardRun n).emergencyPark 0x07 (BitVec.ofNat 8 n) reading false).reg k = (t.bump (rk 5 0x30C)).reg k := fun k => by
    rw [State.reg, State.reg, hpark, State.bump_regs, State.bump_regs]
    rfl
  have hgov : ((t.withHardRun n).emergencyPark 0x07 (BitVec.ofNat 8 n) reading false).gov
      = { t.gov with hardCount := lset t.gov.hardCount n (u.hardRun n), emergency := true } := by
    rw [hpark, State.withHardRun, h.hardRun hn]
  constructor
  case frame =>
    rw [hpark, State.withHardRun, h.frame]
  case length =>
    rw [hgov]
    exact List.length_set.trans h.length
  case count =>
    intro i hi
    rw [hgov]
    exact h.count_succ hi
  case emergency =>
    rw [hgov, u.parking_succ_of_eq hten]
    simp
  case reports =>
    rw [hpark, u.parking_succ_of_eq hten, List.flatMap_append, ← List.append_assoc, ← h.reports, hreports, List.flatMap_singleton]
    rfl
  case parks =>
    rw [u.parking_succ_of_eq hten, List.length_append, hregs]
    exact h.parks.trans (t.bump_counted _ 1)
  case reg =>
    intro k hk
    rw [hregs, t.bump_reg_other _ 1 hk, h.reg k hk]

theorem State.Checked.hardCheck (h : u.Checked t n) (hn : n < u.gov.hardCount.length) (hq : injecting 0x08 n u.collector.injections = false) :
    u.Checked (t.hardCheck n) (n + 1) := by
  have hinj : t.collector.injections = u.collector.injections := by rw [h.frame]
  rw [t.hardCheck_quiet n (hinj ▸ hq), h.hardRun hn]
  split_ifs with hten
  · exact h.park hn hten _
  · exact h.withHardRun hn hten

end

theorem State.checked_each (s : State) (hq : ∀ e, injecting 0x08 e s.collector.injections = false) (n : Nat) (hn : n ≤ s.gov.hardCount.length) :
    s.Checked (s.each (List.range n) State.hardCheck) n := by
  induction n with
  | zero => exact s.checked_zero
  | succ n ih =>
    rw [State.each, List.range_succ, List.foldl_append]
    exact (ih (by omega)).hardCheck (by omega) (hq n)

/-- A single sensor at its tenth reading is the only one that parks. -/
theorem State.parking_eq_singleton (s : State) {n i : Nat} (hi : i < n) (hten : s.hardRun i = 10) (hothers : ∀ j < n, j ≠ i → s.hardRun j ≠ 10) :
    s.parking n = [i] := by
  have heq : s.parking n = (List.range n).filter fun j => j = i := by
    refine List.filter_congr fun j hj => decide_eq_decide.mpr ⟨fun h => ?_, fun h => h ▸ hten⟩
    by_contra hne
    exact hothers j (List.mem_range.mp hj) hne h
  rw [heq, List.filter_eq, List.count_eq_one_of_mem List.nodup_range (List.mem_range.mpr hi)]
  rfl

theorem State.parking_eq_nil (s : State) {n : Nat} (h : ∀ i < n, s.hardRun i ≠ 10) : s.parking n = [] := by
  rw [State.parking, List.filter_eq_nil_iff]
  intro i hi
  simpa using h i (List.mem_range.mp hi)

/-! ### The live bit of THERMAL and the records (R756, R757) -/

/-- `t` is `u` with other values of the lasting conditions, and records that follow them. -/
structure State.Settled (u t : State) : Prop where
  frame : t = { u with
    quires := t.quires
    collector := { u.collector with firstError := t.collector.firstError, secondError := t.collector.secondError, real := t.collector.real } }
  zones : ∀ q, (t.quire q).hotZones = (u.quire q).hotZones

theorem State.Settled.trans {u t v : State} (h : u.Settled t) (h' : t.Settled v) : u.Settled v where
  frame := by
    have hv := h'.frame
    rw [h.frame] at hv
    exact hv
  zones q := (h'.zones q).trans (h.zones q)

theorem State.settled_settleRecords (s : State) : s.Settled s.settleRecords where
  frame := rfl
  zones q := by simp [State.settleRecords, State.quire, Quire.settleRecords]

theorem State.settled_live (s : State) (c : Nat) (on : Bool) : s.Settled (s.live c on) := by
  unfold State.live
  split_ifs
  · exact ⟨rfl, fun _ => rfl⟩
  · refine State.Settled.trans ?_ (State.settled_settleRecords _)
    exact ⟨rfl, fun _ => rfl⟩

theorem State.settled_thermalLive (s : State) : s.Settled s.thermalLive :=
  (s.settled_live _ _).trans (State.settled_settleRecords _)

/-- A count of ten shows in `CHIP_LIVE`. -/
theorem State.thermalLive_live (s : State) (h : (s.gov.hardCount.any fun n => decide (10 ≤ n)) = true) : s.thermalLive.collector.live.getLsbD 8 = true := by
  have hreal : s.thermalLive.collector.real = s.collector.real ||| BitVec.ofNat 9 (2 ^ 8) := by
    rw [State.thermalLive, h, Bool.true_or]
    rfl
  rw [Collector.live, BitVec.getLsbD_or, hreal, BitVec.getLsbD_or]
  simp

/-! ### The reading as a whole -/

theorem State.hardRun_congr {s t : State} (htemps : t.gov.temps = s.gov.temps) (hcounts : t.gov.hardCount = s.gov.hardCount) (hreg : t.reg (rk 5 0) = s.reg (rk 5 0)) :
    t.hardRun = s.hardRun := by
  funext i
  rw [State.hardRun, State.hardRun, State.tHard, State.tHard, htemps, hcounts, hreg]

/-- What the quires, the starts and the checks make of the readings and marks that stand in `u`. -/
structure State.Judged (u t : State) : Prop where
  frame : t = { u with
    gov := { u.gov with thermalHold := u.holdWith u.gov.temps, hardCount := t.gov.hardCount, emergency := t.gov.emergency }
    quires := t.quires, regs := t.regs, log := t.log, collector := t.collector }
  zones : ∀ q, (t.quire q).hotZones = u.zonesOf q
  count : ∀ i < 16, t.gov.hardCount.getD i 0 = u.hardRun i
  emergency : t.gov.emergency = (u.gov.emergency || !(u.parking 16).isEmpty)
  reports : t.collector.reports = u.collector.reports ++ (u.parking 16).flatMap u.thermalReports
  parks : Counted (u.parking 16).length (u.reg (rk 5 0x30C)) (t.reg (rk 5 0x30C))
  live : ∀ i < 16, 10 ≤ u.hardRun i → t.collector.live.getLsbD 8 = true

section
variable {u z : State} {l : List QId}

theorem State.Zoned.holdWith (h : u.Zoned z l) (t : List Int) : z.holdWith t = u.holdWith t := by
  rw [State.holdWith, State.holdWith, State.tHard, State.tHard, h.reg _ (by decide), h.gov]

theorem State.Zoned.hardRun (h : u.Zoned z l) (t : List Int) : (z.withHold t).hardRun = u.hardRun :=
  State.hardRun_congr (congrArg Governor.temps h.gov :) (congrArg Governor.hardCount h.gov :) (h.reg _ (by decide))

theorem State.Zoned.parking (h : u.Zoned z l) (t : List Int) : (z.withHold t).parking = u.parking := by
  funext n
  rw [State.parking, State.parking, h.hardRun]

theorem State.Zoned.thermalReports (h : u.Zoned z l) (t : List Int) : (z.withHold t).thermalReports = u.thermalReports := by
  have htime : z.time = u.time := by rw [h.frame]
  exact funext fun i => State.thermalReports_congr (fun q => (congrArg Quire.state (h.quire q) :)) htime i

end

theorem State.judged (u : State) (hlen : u.gov.hardCount.length = 16) (hq : ∀ e, injecting 0x08 e u.collector.injections = false) :
    u.Judged (((u.each (List.finRange 8) State.markZones).withHold u.gov.temps).each (List.range 16) State.hardCheck).thermalLive := by
  have hz := u.zoned_each (List.finRange 8)
  generalize u.each (List.finRange 8) State.markZones = z at hz ⊢
  have hcounts : (z.withHold u.gov.temps).gov.hardCount = u.gov.hardCount := (congrArg Governor.hardCount hz.gov :)
  have hcollector : z.collector = { u.collector with satPages := z.collector.satPages } := by rw [hz.frame]
  have hc := (z.withHold u.gov.temps).checked_each (by rwa [State.withHold, hcollector]) 16 (by rw [hcounts, hlen])
  have hlive := State.thermalLive_live ((z.withHold u.gov.temps).each (List.range 16) State.hardCheck)
  generalize (z.withHold u.gov.temps).each (List.range 16) State.hardCheck = w at hc hlive ⊢
  have hs := w.settled_thermalLive
  generalize w.thermalLive = t at hs hlive ⊢
  have hgov : t.gov = w.gov := by rw [hs.frame]
  have hreg : ∀ k, t.reg k = w.reg k := fun k => by rw [hs.frame]; rfl
  have hcount : ∀ i < 16, w.gov.hardCount.getD i 0 = u.hardRun i := fun i hi => by
    rw [hc.count i (by rwa [hcounts, hlen]), if_pos hi, hz.hardRun]
  constructor
  case frame =>
    rw [hs.frame, hc.frame, State.withHold, hz.holdWith, hz.frame]
  case zones =>
    intro q
    have hquires : w.quires = z.quires := by rw [hc.frame]; rfl
    rw [hs.zones, z.quire_congr w q hquires, hz.quire, if_pos (List.mem_finRange q)]
  case count =>
    rwa [hgov]
  case emergency =>
    rw [hgov, hc.emergency, hz.parking, State.withHold, hz.gov]
  case reports =>
    have hreports : t.collector.reports = w.collector.reports := by rw [hs.frame]
    rw [hreports, hc.reports, hz.parking, hz.thermalReports, State.withHold, hcollector]
  case parks =>
    have hparks := hc.parks
    rwa [hz.parking, ← hreg, State.withHold_reg, hz.reg _ (by decide)] at hparks
  case live =>
    intro i hi hten
    refine hlive (List.any_eq_true.mpr ⟨w.gov.hardCount.getD i 0, ?_, ?_⟩)
    · have : i < w.gov.hardCount.length := by rwa [hc.length, hcounts, hlen]
      rw [List.getD_eq_getElem _ _ this]
      exact List.getElem_mem this
    · rw [hcount i hi]
      exact decide_eq_true hten

/-- A reading of 16 sensors with nothing injected judges what it noted. -/
theorem sensorRead_judged (s : State) {temps : List Int} (hboot : s.boot.step ≠ 0) (hlen : temps.length = 16) (hcounts : s.gov.hardCount.length = 16)
    (hq : ∀ e, injecting 0x08 e s.collector.injections = false) : (s.withReadings temps).withMarks.Judged (sensorRead temps s) := by
  rw [sensorRead_eq s hboot hlen]
  exact (s.withReadings temps).withMarks.judged hcounts hq

section
variable {u t : State}

/-- No sensor at its tenth reading: no park. -/
theorem State.Judged.unparked (h : u.Judged t) (hno : ∀ i < 16, u.hardRun i ≠ 10) : t.collector.reports = u.collector.reports ∧ t.gov.emergency = u.gov.emergency := by
  have hnil := u.parking_eq_nil hno
  exact ⟨by rw [h.reports, hnil]; exact List.append_nil _, by rw [h.emergency, hnil]; exact Bool.or_false _⟩

/-- One sensor at its tenth reading: the park of it. -/
theorem State.Judged.parked (h : u.Judged t) {i : Nat} (hi : i < 16) (hten : u.hardRun i = 10) (hothers : ∀ j < 16, j ≠ i → u.hardRun j ≠ 10) :
    t.gov.emergency = true ∧ Counted 1 (u.reg (rk 5 0x30C)) (t.reg (rk 5 0x30C)) ∧ t.collector.live.getLsbD 8 = true
      ∧ t.collector.reports = u.collector.reports ++ u.thermalReports i := by
  have hone := u.parking_eq_singleton hi hten hothers
  have hparks := h.parks
  rw [hone] at hparks
  exact ⟨by rw [h.emergency, hone]; exact Bool.or_true _, hparks, h.live i hi hten.ge, by rw [h.reports, hone, List.flatMap_singleton]⟩

end

/-- The reports of a park are those of THERMAL for its sensor. -/
theorem State.mem_thermalReports (s : State) (i : Nat) (r : Report) (hr : r ∈ s.thermalReports i) :
    r.severity = .quire ∧ r.checker = 0x08 ∧ r.cause = 0x07 ∧ r.element = BitVec.ofNat 8 i ∧ r.injected = false := by
  obtain ⟨q, -, rfl⟩ := List.mem_map.mp hr
  exact ⟨rfl, rfl, rfl, rfl, rfl⟩

/-- A park reports for the quires in their run. -/
theorem State.exists_thermalReport_iff (s : State) (i : Nat) (q : QId) :
    (∃ r ∈ s.thermalReports i, r.quire = some q) ↔ (s.quire q).state = .armed ∨ (s.quire q).state = .running ∨ (s.quire q).state = .paused := by
  simp [State.thermalReports, State.thermalReport]

end Sys2Proof.Machine

namespace Sys2Proof.Proofs

open Sys2Proof.Machine

/-- Settles O51: the readings and marks are noted first, and the zones, the hold and the checks of the 16 sensors are judged by them. -/
theorem sensorReadings : Obligations.SensorReadings := by
  intro s temps t g soft hard at_ count playing zones
  refine ⟨fun hboot hlen hcounts hq hexec => ?_, _, rfl⟩
  have h : (s.withReadings temps).withMarks.Judged t := Host.Outcome.next.inj hexec ▸ sensorRead_judged s hboot hlen hcounts hq
  have hne : temps ≠ [] := List.ne_nil_of_length_pos (by omega)
  have hgov : t.gov = { (s.withReadings temps).withMarks.gov with
      thermalHold := s.holdWith temps, hardCount := t.gov.hardCount, emergency := t.gov.emergency } := by rw [h.frame]; rfl
  have htemps : t.gov.temps = temps := by rw [hgov]; rfl
  have htop : t.gov.hotTemp = hottest temps := by rw [hgov]; rfl
  have hsensor : t.gov.hotSensor = temps.idxOf (hottest temps) := by
    rw [hgov]
    exact Nat.mod_eq_of_lt (hlen ▸ idxOf_hottest_lt hne)
  have hmarks : ∀ i < 16, t.gov.marked.getLsbD i = if soft < at_ i then true else if at_ i < soft - 80 then false else g.marked.getLsbD i := fun i hi => by
    have hlow : 16 * (s.tSoft - 5) = soft - 80 := Int.mul_sub 16 s.tSoft 5
    rw [hgov, ← hlow]
    exact (s.withReadings temps).marks_getLsbD hi
  have hhold : t.gov.thermalHold = true ↔ (∃ i < 16, hard - 80 ≤ at_ i) ∨ (g.thermalHold = true ∧ ∃ i < 16, hard - 160 ≤ at_ i) := by
    have hhigh : 16 * (s.tHard - 5) = hard - 80 := Int.mul_sub 16 s.tHard 5
    have hlow : 16 * (s.tHard - 10) = hard - 160 := Int.mul_sub 16 s.tHard 10
    rw [hgov, ← hhigh, ← hlow, ← hlen]
    exact s.holdWith_iff temps
  refine ⟨?frame, htemps, ?top, ?topRead, ?sensor, ?first, ?peaks, ?marks, ?zones, ?hot, ?cool, ?between, h.count, h.unparked, ?parks⟩
  case frame =>
    rw [h.frame]
    rfl
  case top =>
    intro i hi
    rw [htop]
    exact le_hottest (hlen ▸ hi)
  case topRead =>
    rw [htop, hsensor]
    exact getD_idxOf_hottest hne
  case sensor =>
    rw [hsensor, ← hlen]
    exact idxOf_hottest_lt hne
  case first =>
    intro i hi
    rw [htop]
    exact lt_hottest_of_lt_idxOf (hsensor ▸ hi)
  case peaks =>
    intro i hi
    have hpeaks : t.gov.peaks = (List.range 16).map (s.peakWith temps) := by rw [hgov]; rfl
    rw [hpeaks, List.getD_eq_getElem _ _ (by simpa using hi), List.getElem_map, List.getElem_range, State.peakWith]
    cases g.peaks.getD i none <;> rfl
  case marks =>
    intro i hi
    rw [hmarks i hi]
    refine ⟨fun habove => if_pos habove, fun hbelow => ?_, fun hge hle => ?_⟩
    · rw [if_neg (by omega), if_pos hbelow]
    · rw [if_neg (by omega), if_neg (by omega)]
  case zones =>
    intro q
    have hu : t.zonesOf q = (s.withReadings temps).withMarks.zonesOf q := by
      rw [State.zonesOf, State.zonesOf, hgov]
    rw [h.zones, ← hu, State.zonesOf_eq, htemps]
  case hot =>
    exact fun hhot => hhold.mpr (Or.inl hhot)
  case cool =>
    refine fun hbelow => Bool.eq_false_iff.mpr fun htrue => ?_
    rcases hhold.mp htrue with ⟨i, hi, hge⟩ | ⟨-, i, hi, hge⟩
    all_goals
      have := hbelow i hi
      omega
  case between =>
    refine fun hbelow hsome => Bool.eq_iff_iff.mpr (hhold.trans ⟨?_, fun hheld => Or.inr ⟨hheld, hsome⟩⟩)
    rintro (⟨i, hi, hge⟩ | ⟨hheld, -⟩)
    · have := hbelow i hi
      omega
    · exact hheld
  case parks =>
    intro i hi hten hothers
    obtain ⟨hemergency, hcounted, hlive, hreports⟩ := h.parked hi hten hothers
    exact ⟨hemergency, hcounted, hlive, _, hreports, State.mem_thermalReports _ i, fun q => (State.exists_thermalReport_iff _ i q).symm⟩

end Sys2Proof.Proofs
end

section
/-! The Sinter log: what an offered event does to it, and LOG_FREEZE, LOG_THAW, LOG_READ and the refill of the tokens (R782 to R787). -/

namespace Sys2Proof.Machine

/-! ### Counters that do not saturate (R776) -/

theorem satAdd_word_below {v : Nat} (h : v < 2 ^ 32 - 2) : satAdd 32 v 1 = (v + 1, false) := if_pos (show v + 1 < 2 ^ 32 - 1 by omega)

theorem ofNat_toNat_add_one (w : Word) : BitVec.ofNat 32 (w.toNat + 1) = w + 1 := by
  rw [BitVec.ofNat_add, BitVec.ofNat_toNat, BitVec.setWidth_eq]
  rfl

/-- A counter that stays below all-ones writes its register alone. -/
theorem State.bump_below (s : State) {k : Nat} (h : (s.reg k).toNat < 2 ^ 32 - 2) : s.bump k = s.setReg k (s.reg k + 1) := by
  rw [State.bump, satAdd_word_below h, ← ofNat_toNat_add_one]
  rfl

/-! ### Offering an event (R782) -/

/-- The entry that an event makes at the end of the log (R787). -/
def State.entryOf (s : State) (e : LogEvent) : LogEntry :=
  let at_ := e.at_.getD (s.time.ns, s.time.valid)
  { seq := s.log.entries.length, timeNs := at_.1, code := e.code, source := e.source, quire := (e.quire.map fun q => BitVec.ofNat 4 q.val).getD 0xF,
    injected := e.injected, timeInvalid := !at_.2, detail0 := e.d0, detail1 := e.d1, detail2 := e.d2 }

/-- The tokens taken of a code's bucket. -/
def SinterLog.tokens (l : SinterLog) (c : Nat) : Nat := sget (fun _ => 0) c l.taken

/-- The log with the token that the event takes, unless it is exempt (R783). -/
def SinterLog.take (l : SinterLog) (e : LogEvent) : SinterLog :=
  { l with taken := if e.exempt then l.taken else sput (fun _ => 0) e.code.toNat (l.tokens e.code.toNat + 1) l.taken }

/-- An event passes its code's bucket: it is exempt, or a token is left (R782, R783). -/
def State.passes (s : State) (e : LogEvent) : Prop := e.exempt = true ∨ s.log.tokens e.code.toNat < s.logBurst

/-- The log takes no entry: it is full or frozen (R782). -/
def State.blocked (s : State) : Prop := 8192 ≤ s.log.entries.length ∨ s.frozen = true

section
variable {s : State} {e : LogEvent}

/-- Without a token the event counts in `SUPPRESSED` of its code. -/
theorem offerOnce_suppressed (ha : ¬s.passes e) :
    let r := satAdd 32 (sget (fun _ => (0 : Word)) e.code.toNat s.log.suppressed).toNat 1
    offerOnce e s = ({ s with log := { s.log with suppressed := sput (fun _ => 0) e.code.toNat (BitVec.ofNat 32 r.1) s.log.suppressed } },
      if r.2 then some (rk 7 (0x100 + 4 * e.code.toNat)) else none) := by
  obtain ⟨hex, hempty⟩ := not_or.mp ha
  exact if_pos (by simpa [hex, SinterLog.tokens] using hempty)

/-- An event that passes its bucket takes its token, and counts as lost, counts as dropped, or becomes an entry. -/
theorem offerOnce_passed (ha : s.passes e) :
    offerOnce e s =
      if 8192 ≤ s.log.entries.length then
        let r := satAdd 32 s.log.lost.toNat 1
        ({ s with log := { s.log.take e with lost := BitVec.ofNat 32 r.1 } }, if r.2 then some (rk 7 8) else none)
      else if s.frozen then
        let r := satAdd 32 s.log.frozenDropped.toNat 1
        ({ s with log := { s.log.take e with frozenDropped := BitVec.ofNat 32 r.1 } }, if r.2 then some (rk 7 0xC) else none)
      else ({ s with log := { s.log.take e with entries := s.log.entries ++ [s.entryOf e] } }, none) := by
  refine if_neg ?_
  rcases ha with hex | hleft
  · simp [hex]
  · simp [show sget (fun _ => 0) e.code.toNat s.log.taken < s.logBurst from hleft]

/-- An event that fills no counter is offered once. -/
theorem State.logEvent_of_none (t : State) (h : offerOnce e s = (t, none)) : s.logEvent e = t := by
  rw [State.logEvent, offer, h]

/-- A log that is full or frozen keeps its entries, and stays so. -/
theorem offerOnce_blocked (hb : s.blocked) (e : LogEvent) : (offerOnce e s).1.log.entries = s.log.entries ∧ (offerOnce e s).1.blocked := by
  have hkeep : (offerOnce e s).1.log.entries = s.log.entries := by
    by_cases ha : s.passes e
    · rw [offerOnce_passed ha]
      by_cases hfull : 8192 ≤ s.log.entries.length
      · rw [if_pos hfull]; rfl
      · rw [if_neg hfull, if_pos (hb.resolve_left hfull)]; rfl
    · rw [offerOnce_suppressed ha]
  obtain ⟨l, hl⟩ := offerOnce_shape e s
  exact ⟨hkeep, by rw [State.blocked, hkeep, hl]; exact hb⟩

theorem offer_entries_of_blocked (n : Nat) (hb : s.blocked) (e : LogEvent) : (offer n e s).log.entries = s.log.entries := by
  induction n generalizing s e with
  | zero => exact (offerOnce_blocked hb e).1
  | succ n ih =>
    obtain ⟨hkeep, hb'⟩ := offerOnce_blocked hb e
    rw [offer]
    dsimp only
    split
    · exact hkeep
    · refine (ih ?_ _).trans hkeep
      exact hb'

theorem State.logEvent_entries_of_blocked (hb : s.blocked) (e : LogEvent) : (s.logEvent e).log.entries = s.log.entries :=
  offer_entries_of_blocked 4 hb e

/-- The log records an event that passes its bucket, while it is neither full nor frozen. -/
theorem State.logEvent_recorded (ha : s.passes e) (hfr : s.frozen = false) (hlen : s.log.entries.length < 8192) :
    s.logEvent e = { s with log := { s.log.take e with entries := s.log.entries ++ [s.entryOf e] } } :=
  State.logEvent_of_none _ (by rw [offerOnce_passed ha, if_neg (by omega), hfr, if_neg Bool.false_ne_true])

/-- A full log counts the event in `LOST_COUNT`. -/
theorem State.logEvent_lost (ha : s.passes e) (hfull : 8192 ≤ s.log.entries.length) (hc : s.log.lost.toNat < 2 ^ 32 - 2) :
    s.logEvent e = { s with log := { s.log.take e with lost := s.log.lost + 1 } } :=
  State.logEvent_of_none _ (by rw [offerOnce_passed ha, if_pos hfull, satAdd_word_below hc, ← ofNat_toNat_add_one]; rfl)

/-- A frozen log counts the event in `FROZEN_DROPPED`. -/
theorem State.logEvent_dropped (ha : s.passes e) (hfr : s.frozen = true) (hlen : s.log.entries.length < 8192) (hc : s.log.frozenDropped.toNat < 2 ^ 32 - 2) :
    s.logEvent e = { s with log := { s.log.take e with frozenDropped := s.log.frozenDropped + 1 } } :=
  State.logEvent_of_none _ (by rw [offerOnce_passed ha, if_neg (by omega), if_pos hfr, satAdd_word_below hc, ← ofNat_toNat_add_one]; rfl)

/-- An event without a token changes `SUPPRESSED` of its code alone. -/
theorem State.logEvent_suppressed (ha : ¬s.passes e) (hc : (sget (fun _ => (0 : Word)) e.code.toNat s.log.suppressed).toNat < 2 ^ 32 - 2) :
    s.logEvent e = { s with log := { s.log with
      suppressed := sput (fun _ => 0) e.code.toNat (sget (fun _ => (0 : Word)) e.code.toNat s.log.suppressed + 1) s.log.suppressed } } :=
  State.logEvent_of_none _ (by rw [offerOnce_suppressed ha, satAdd_word_below hc, ← ofNat_toNat_add_one]; rfl)

end

/-! ### The refill of the tokens (R783) -/

theorem sget_of_not_mem {α : Type} (r : Nat → α) (k : Nat) (m : Sparse α) (h : k ∉ m.map (·.1)) : sget r k m = r k := by
  induction m with
  | nil => rfl
  | cons x t ih =>
    obtain ⟨i, v⟩ := x
    obtain ⟨hne, ht⟩ := not_or.mp (List.mem_cons.not.mp h)
    rw [sget, if_neg (Ne.symm hne), ih ht]

/-- The taken tokens of the buckets after the tokens of a millisecond; a bucket that is full again is not listed. -/
def refilled (rate : Nat) (m : Sparse Nat) : Sparse Nat := m.filterMap fun (c, n) => if n ≤ rate then none else some (c, n - rate)

theorem execLogTokenRefill_eq (s : State) : exec .logTokenRefill s = .next { s with log := { s.log with taken := refilled s.logRate s.log.taken } } := rfl

theorem sget_refilled (rate : Nat) (m : Sparse Nat) (hm : (m.map (·.1)).Nodup) (c : Nat) :
    sget (fun _ => 0) c (refilled rate m) = sget (fun _ => 0) c m - rate := by
  induction m with
  | nil => exact (Nat.zero_sub rate).symm
  | cons x t ih =>
    obtain ⟨i, n⟩ := x
    obtain ⟨hi, ht⟩ := List.nodup_cons.mp hm
    have ih := ih ht
    by_cases hn : n ≤ rate
    · have hdrop : refilled rate ((i, n) :: t) = refilled rate t := List.filterMap_cons_none (if_pos hn)
      rw [hdrop, ih, sget]
      split
      · next hic => rw [sget_of_not_mem _ c t (hic ▸ hi)]; omega
      · rfl
    · have hkeep : refilled rate ((i, n) :: t) = (i, n - rate) :: refilled rate t := List.filterMap_cons_some (if_neg hn)
      rw [hkeep, sget, sget, ih]
      split <;> rfl

/-! ### The bytes of an entry (R787) -/

theorem le_mod (n v : Nat) : le n (v % 256 ^ n) = le n v := by
  induction n generalizing v with
  | zero => rfl
  | succ n ih =>
    have hlow : BitVec.ofNat 8 (v % 256 ^ (n + 1)) = BitVec.ofNat 8 v :=
      BitVec.eq_of_toNat_eq (Nat.mod_mod_of_dvd v (Dvd.intro_left (256 ^ n) rfl))
    have hrest : v % 256 ^ (n + 1) / 256 = v / 256 % 256 ^ n := by rw [pow_succ', Nat.mod_mul_right_div_self]
    rw [le, le, hlow, hrest, ih]

/-- A word is written as the number that it was made of. -/
theorem leW_ofNat (v : Nat) : leW (BitVec.ofNat 32 v) = le 4 v := le_mod 4 v

theorem logBytes_eq (oz : Bool) (corrupt : List Nat) (e : LogEntry) :
    logBytes oz corrupt e = le 4 e.seq ++ t12 oz e.timeNs
      ++ le 4 (2 ^ 24 * e.code.toNat + 2 ^ 20 * e.source + 2 ^ 16 * e.quire.toNat + 4 * b2n (corrupt.contains e.seq) + 2 * b2n e.injected + b2n e.timeInvalid)
      ++ leW e.detail0 ++ leW e.detail1 ++ leW e.detail2 := by
  simp only [logBytes, leW_ofNat, packW, List.foldl_cons, List.foldl_nil, Nat.zero_add, Nat.pow_zero, Nat.pow_one, Nat.one_mul, Nat.reducePow]

/-! ### The books of a packet that is answered at once (R572, R586) -/

section
variable (s : State)

/-- A change of the books of packets, with registers that stay but for the counters of packets on page 0x08. -/
theorem State.booked_of (ss : Vector Session 8) (ks : Vector Link 8) (sent : List Reply) (g : Regs) (l : SinterLog) (c : BitVec 32)
    (hg : ∀ k, k < rk 8 0x104 ∨ rk 8 0x204 ≤ k → sget chipReset k g = s.reg k) :
    s.Booked { s with sent := sent, sessions := ss, links := ks, regs := g, log := l, collector := { s.collector with satPages := c } } :=
  ⟨rfl, by simp, fun k _ hk => hg k hk⟩

theorem State.Booked.refl : s.Booked s := s.booked_of _ _ _ _ _ _ fun _ _ => rfl

theorem State.modSession_booked (k : LinkId) (f : Session → Session) : s.Booked (s.modSession k f) := s.booked_of _ _ _ _ _ _ fun _ _ => rfl

variable {s}

theorem State.Booked.trans {t u : State} (h : s.Booked t) (h' : t.Booked u) : s.Booked u := by
  obtain ⟨ht, -, hreg⟩ := h
  obtain ⟨hu, -, hreg'⟩ := h'
  refine ⟨?_, by simp, fun k hk hr => (hreg' k hk hr).trans (hreg k hk hr)⟩
  rw [ht] at hu
  exact hu

theorem State.Booked.spine {t : State} (h : s.Booked t) : t.spine = s.spine := by rw [h.1]

theorem State.Booked.quires {t : State} (h : s.Booked t) : t.quires = s.quires := by rw [h.1]

theorem State.Booked.restartDue {t : State} (h : s.Booked t) : t.restartDue = s.restartDue := by
  rw [State.restartDue, h.spine, h.quires, State.restartDue]

variable (s)

theorem State.bump_booked (n : Nat) {k : Nat} (hk : rk 8 0x104 ≤ k) (hk' : k < rk 8 0x204) : s.Booked (s.bump k n) := by
  obtain ⟨l, c, h⟩ := s.bump_shape k n
  rw [h]
  refine s.booked_of _ _ _ _ _ _ fun j hj => ?_
  rw [sget_sput_other _ _ _ _ _ (by omega), State.reg]

theorem State.freeBuffer_booked (k : LinkId) (c : PktClass) : s.Booked (s.freeBuffer k c) := s.booked_of _ _ _ _ _ _ fun _ _ => rfl

theorem State.accept_booked (h : Hdr) (op : Byte) : s.Booked (s.accept h op) := by
  have hbump : s.Booked (s.bump (rk 8 (0x104 + 0x20 * h.link.val))) := s.bump_booked 1 (by simp only [rk]; omega) (by simp only [rk]; omega)
  rw [State.accept]
  split
  · exact hbump
  · exact hbump.trans (State.modSession_booked _ _ _)

theorem State.taken_booked (h : Hdr) (op : Byte) : s.Booked (s.taken h op) := (s.freeBuffer_booked _ _).trans (State.accept_booked _ h op)

theorem State.wire_booked (r : Reply) (hok : r.status.toNat < 0x10) : s.Booked (s.wire r) := by
  rw [State.wire, if_neg (Nat.not_le.mpr hok)]
  split
  · exact s.booked_of _ _ _ _ _ _ fun _ _ => rfl
  · exact State.Booked.refl s

theorem State.sendReply_booked (r : Reply) (hok : r.status.toNat < 0x10) : s.Booked (s.sendReply r) :=
  (s.modSession_booked _ _).trans (State.wire_booked _ r hok)

theorem State.reply_booked (d : ReplyTo) (st : Byte) (dt : BitVec 16) (res : List Byte) (hsp : s.spine.restarting = false) (hr : s.restartDue = false)
    (hok : st.toNat < 0x10) : s.Booked (s.reply d st dt res) := by
  rw [State.reply]
  split
  · rw [State.answer, hsp, hr]
    exact s.sendReply_booked _ hok
  · exact State.Booked.refl s

end

/-- The last reply of a command: its state has the books of the state in which the command was taken, and the command is still in progress. -/
theorem State.reply_answers {s t : State} {o : OpSpec} {h : Hdr} {p : Params} (dt : BitVec 16) (res : List Byte) {st : Byte} (ht : s.Takes o h p)
    (hb : (s.taken h o.opcode).Booked t) (hsent : t.sent = (s.taken h o.opcode).sent) (hl : t.links = (s.taken h o.opcode).links)
    (hin : (t.session h.link).inProgress = ((s.taken h o.opcode).session h.link).inProgress) (hop : o.opcode ≠ 0x01) (hok : st.toNat < 0x10) :
    s.Answers (t.reply (hdrDest h o.opcode) st dt res) h o st dt res ∧ s.Booked (t.reply (hdrDest h o.opcode) st dt res) := by
  obtain ⟨hrun, hdue⟩ := State.interpreting_restarting s ht.1
  have hbooked : s.Booked t := (s.taken_booked h o.opcode).trans hb
  have hrun' : t.spine.restarting = false := by rw [hbooked.spine, hrun]
  have hdue' : t.restartDue = false := by rw [hbooked.restartDue, hdue]
  have hup : t.linkUp h.link = true := by
    rw [State.linkUp, State.link_congr _ t _ hl]
    exact (s.taken_linkUp h o.opcode h.link).trans ht.2.1
  refine ⟨?_, hbooked.trans (t.reply_booked _ _ _ _ hrun' hdue' hok)⟩
  have hsent' : t.sent = s.sent := by rw [hsent, State.taken, State.accept_sent, State.freeBuffer_sent]
  rw [State.Answers, ← hsent']
  refine t.reply_sent _ st dt res hrun' hdue' hup (Or.inr ?_)
  show (t.session h.link).inProgress.any _ = true
  rw [hin]
  exact s.taken_inProgress h o.opcode hop

theorem Session.complete_frozen (x : Session) (r : Reply) (kept : Option Reply) : (x.complete r kept).frozen = x.frozen := by
  rw [Session.complete]
  split <;> rfl

theorem State.sendReply_frozen (s : State) (r : Reply) (k : LinkId) : ((s.sendReply r).session k).frozen = (s.session k).frozen := by
  rw [State.sendReply, State.wire_session]
  by_cases hk : k = r.dest.link
  · rw [hk, State.session_modSession_same, Session.complete_frozen]
  · rw [State.session_modSession_other _ _ _ _ hk]

/-- A reply leaves the freezes as they are. -/
theorem State.reply_frozen (s : State) (d : ReplyTo) (st : Byte) (dt : BitVec 16) (res : List Byte) (k : LinkId) :
    ((s.reply d st dt res).session k).frozen = (s.session k).frozen := by
  rw [State.reply]
  split
  · rw [State.answer]
    split
    · rfl
    · exact s.sendReply_frozen _ k
  · rfl

/-! ### LOG_FREEZE, LOG_THAW and LOG_READ (R784 to R786) -/

section
variable {s : State} {h : Hdr} {p : Params}

/-- The answer of a command that sets or clears the freeze of its session. -/
theorem State.freeze_answers {o : OpSpec} (b : Bool) (ht : s.Takes o h p) (hop : o.opcode ≠ 0x01) :
    let t := ((s.taken h o.opcode).modSession h.link fun x => { x with frozen := b }).reply (hdrDest h o.opcode) stOk
    s.Answers t h o stOk 0 [] ∧ s.Booked t ∧ (t.session h.link).frozen = b := by
  intro t
  obtain ⟨hans, hbooked⟩ := State.reply_answers (s := s) (t := (s.taken h o.opcode).modSession h.link fun x => { x with frozen := b }) 0 [] (st := stOk) ht
    (State.modSession_booked _ _ _) rfl rfl (by rw [State.session_modSession_same]) hop (by decide)
  exact ⟨hans, hbooked, by rw [State.reply_frozen, State.session_modSession_same]⟩

theorem execLogFreeze_taken (ht : s.Takes opLogFreeze h p) :
    exec (.logFreeze h p) s
      = .next (((s.taken h opLogFreeze.opcode).modSession h.link fun x => { x with frozen := true }).reply (hdrDest h opLogFreeze.opcode) stOk) :=
  congrArg Host.Outcome.next ((front_taken s .logFreeze opLogFreeze h p doLogFreeze (by decide) ht).trans (packet_taken s _ h p _ _ _ ht rfl))

theorem execLogThaw_taken (ht : s.Takes opLogThaw h p) :
    exec (.logThaw h p) s
      = .next (((s.taken h opLogThaw.opcode).modSession h.link fun x => { x with frozen := false }).reply (hdrDest h opLogThaw.opcode) stOk) :=
  congrArg Host.Outcome.next ((front_taken s .logThaw opLogThaw h p doLogThaw (by decide) ht).trans (packet_taken s _ h p _ _ _ ht rfl))

/-- The result of LOG_READ on a log: so many entries from a first sequence on (R785, R787). -/
def logResult (p : Params) (oz : Bool) (corrupt : List Nat) (l : SinterLog) : List Byte :=
  let es := (l.entries.drop (par p 0 4)).take (par p 4 2)
  le 2 es.length ++ le 2 0 ++ es.flatMap (logBytes oz corrupt)

theorem execLogRead_taken (ht : s.Takes opLogRead h p) (hn : 1 ≤ par p 4 2 ∧ par p 4 2 ≤ 255) :
    exec (.logRead h p) s
      = .next ((s.taken h opLogRead.opcode).reply (hdrDest h opLogRead.opcode) stOk 0
          (logResult p (s.taken h opLogRead.opcode).modeOz h.reads.corrupt (s.taken h opLogRead.opcode).log)) := by
  have hrun : doLogRead h p s = _ := packet_taken s opLogRead h p (fun _ => if 1 ≤ par p 4 2 ∧ par p 4 2 ≤ 255 then none else rangeAt 4)
    (fun u d => u.reply d stOk 0 (logResult p u.modeOz h.reads.corrupt u.log)) (fun _ _ => []) ht (if_pos hn)
  rw [← hrun]
  exact congrArg Host.Outcome.next (front_taken s .logRead opLogRead h p doLogRead (by decide) ht)

/-- A command whose acceptance fills no counter is carried out with the log as it was. -/
theorem State.taken_log (op : Byte) (hc : (s.reg (rk 8 (0x104 + 0x20 * h.link.val))).toNat < 2 ^ 32 - 2) : (s.taken h op).log = s.log := by
  rw [State.taken, State.accept, State.bump_below _ (by rwa [State.freeBuffer_reg])]
  split <;> rfl

end

end Sys2Proof.Machine

namespace Sys2Proof.Proofs

open Sys2Proof.Machine

/-- LOG_READ returns the entries from its first sequence on, and changes the books of its packet alone (R785). -/
theorem logRead_serves {s : State} {h : Hdr} {p : Params} (ht : s.Takes opLogRead h p) (hn : 1 ≤ par p 4 2) (hn' : par p 4 2 ≤ 255)
    (hc : (s.reg (rk 8 (0x104 + 0x20 * h.link.val))).toNat < 2 ^ 32 - 2) :
    s.Serves (.logRead h p) h opLogRead (logResult p s.modeOz h.reads.corrupt s.log) s := by
  have hexec := execLogRead_taken ht ⟨hn, hn'⟩
  have hoz : (s.taken h opLogRead.opcode).modeOz = s.modeOz := by rw [State.taken, State.accept_modeOz, State.freeBuffer_modeOz]
  rw [hoz, State.taken_log _ hc] at hexec
  obtain ⟨hans, hbooked⟩ := State.reply_answers 0 (logResult p s.modeOz h.reads.corrupt s.log) (st := stOk) ht
    (State.Booked.refl _) rfl rfl rfl (by decide) (by decide)
  exact ⟨_, hexec, hans, hbooked⟩

/-- Settles O42: an offered event is recorded, lost, dropped or suppressed by its bucket and the state of the log, and each command is carried out on the state in which it was taken. -/
theorem logCommands : Obligations.LogCommands := by
  intro s h p e n taken bytes rate burst tokens room
  refine ⟨fun ht => ⟨_, execLogFreeze_taken ht, State.freeze_answers true ht (by decide)⟩,
    fun ht => ⟨_, execLogThaw_taken ht, State.freeze_answers false ht (by decide)⟩, ?read, ?refill, ?recorded, ?lost, ?dropped, ?suppressed⟩
  case read =>
    intro ht hn hn' hc
    have hbytes : bytes = logBytes s.modeOz h.reads.corrupt := funext fun x => (logBytes_eq _ _ x).symm
    rw [hbytes]
    exact logRead_serves ht hn hn' hc
  case refill =>
    exact fun hnodup => ⟨_, execLogTokenRefill_eq s, rfl, sget_refilled rate s.log.taken hnodup⟩
  case recorded =>
    intro hroom hfr hlen
    refine ⟨s.entryOf e, by rw [State.logEvent_recorded hroom hfr hlen], rfl, rfl, ?_, rfl, rfl, rfl, rfl⟩
    rw [State.entryOf, Bool.not_not]
  case lost =>
    exact fun hroom hfull => ⟨State.logEvent_entries_of_blocked (.inl hfull) e, fun hc => by rw [State.logEvent_lost hroom hfull hc]⟩
  case dropped =>
    exact fun hroom hfr hlen => ⟨State.logEvent_entries_of_blocked (.inr hfr) e, fun hc => by rw [State.logEvent_dropped hroom hfr hlen hc]⟩
  case suppressed =>
    intro hroom hc
    rw [State.logEvent_suppressed hroom hc]
    exact ⟨rfl, sget_sput_same _ _ _ _⟩

end Sys2Proof.Proofs
end

section
/-! The order of the Sinter log: what each operation of the chip leaves of it (R780, R784, R787). All but a boot after a fall of VSRAM neither make nor break it, so that each of their lemmas is one equivalence; a step keeps it. -/

namespace Sys2Proof.Machine

/-! ### Entries behind the others -/

theorem SinterLog.ordered_congr {l l' : SinterLog} (hl : l'.entries = l.entries) : l'.Ordered ↔ l.Ordered := by
  rw [SinterLog.Ordered, hl, SinterLog.Ordered]

/-- A log with room keeps its order when the next number is put behind the others, and only then has it. -/
theorem SinterLog.ordered_append {l l' : SinterLog} (e : LogEntry) (hlen : l.entries.length < 8192) (he : e.seq = l.entries.length)
    (hl : l'.entries = l.entries ++ [e]) : l'.Ordered ↔ l.Ordered := by
  rw [SinterLog.Ordered, hl]
  constructor
  · rintro ⟨-, hseq⟩
    refine ⟨hlen.le, fun i hi => ?_⟩
    have := hseq i (by simp only [List.length_append]; omega)
    rwa [List.getElem_append_left hi] at this
  · rintro ⟨-, hseq⟩
    refine ⟨by simp only [List.length_append, List.length_singleton]; omega, fun i hi => ?_⟩
    rcases Nat.lt_or_ge i l.entries.length with h | h
    · rw [List.getElem_append_left h]
      exact hseq i h
    · obtain rfl : i = l.entries.length := by simp only [List.length_append, List.length_singleton] at hi; omega
      simpa using he

theorem SinterLog.reset_ordered : SinterLog.reset.Ordered := ⟨Nat.zero_le _, fun _ h => absurd h (Nat.not_lt_zero _)⟩

/-! ### The operations over the state -/

variable {s : State}

@[simp] theorem offerOnce_ordered (e : LogEvent) : (offerOnce e s).1.log.Ordered ↔ s.log.Ordered := by
  by_cases ha : s.passes e
  · rw [offerOnce_passed ha]
    split_ifs with hfull hfrozen
    · exact SinterLog.ordered_congr rfl
    · exact SinterLog.ordered_congr rfl
    · exact SinterLog.ordered_append (s.entryOf e) (Nat.lt_of_not_le hfull) rfl rfl
  · rw [offerOnce_suppressed ha]
    exact SinterLog.ordered_congr rfl

@[simp] theorem offer_ordered (n : Nat) (e : LogEvent) : (offer n e s).log.Ordered ↔ s.log.Ordered := by
  induction n generalizing s e with
  | zero => exact offerOnce_ordered e
  | succ n ih =>
    rw [offer]
    dsimp only
    split
    · exact offerOnce_ordered e
    · exact (ih _).trans (offerOnce_ordered e)

@[simp] theorem State.logEvent_ordered (e : LogEvent) : (s.logEvent e).log.Ordered ↔ s.log.Ordered := offer_ordered 4 e

@[simp] theorem State.log'_ordered (code : Byte) (src : Nat) (d0 d1 d2 : Word) (i : Bool) : (s.log' code src d0 d1 d2 i).log.Ordered ↔ s.log.Ordered :=
  s.logEvent_ordered _

/-- The order of the log of a choice is that of the chosen state's. -/
@[simp] theorem State.ite_ordered (c : Prop) [Decidable c] (a b : State) :
    (if c then a else b).log.Ordered ↔ if c then a.log.Ordered else b.log.Ordered := by
  split <;> rfl

/-- What is done for each of some things leaves the order when each single step does. -/
@[simp] theorem State.each_ordered {α : Type} (l : List α) (f : State → α → State) (hf : ∀ t a, (f t a).log.Ordered ↔ t.log.Ordered) :
    (s.each l f).log.Ordered ↔ s.log.Ordered := by
  unfold State.each
  induction l generalizing s with
  | nil => rfl
  | cons a l ih => exact (ih (s := f s a)).trans (hf s a)

@[simp] theorem foldl_ordered {α : Type} (l : List α) (f : State → α → State) (hf : ∀ t a, (f t a).log.Ordered ↔ t.log.Ordered) :
    (l.foldl f s).log.Ordered ↔ s.log.Ordered :=
  State.each_ordered l f hf

@[simp] theorem State.bump_ordered (k n : Nat) : (s.bump k n).log.Ordered ↔ s.log.Ordered := by
  simp [State.bump]

@[simp] theorem State.bump64_ordered (k n : Nat) : (s.bump64 k n).log.Ordered ↔ s.log.Ordered := by
  simp [State.bump64]

@[simp] theorem State.wire_ordered (r : Reply) : (s.wire r).log.Ordered ↔ s.log.Ordered := by
  simp [State.wire]

@[simp] theorem State.sendReply_ordered (r : Reply) : (s.sendReply r).log.Ordered ↔ s.log.Ordered := by
  simp [State.sendReply]

@[simp] theorem State.answer_ordered (r : Reply) : (s.answer r).log.Ordered ↔ s.log.Ordered := by
  simp [State.answer]

@[simp] theorem State.reply_ordered (d : ReplyTo) (st : Byte) (dt : BitVec 16) (res : List Byte) : (s.reply d st dt res).log.Ordered ↔ s.log.Ordered := by
  simp [State.reply]

@[simp] theorem State.quireDone_ordered (d : ReplyTo) (q : QId) (st : Byte) (dt : BitVec 16) (rc : List Byte) :
    (s.quireDone d q st dt rc).log.Ordered ↔ s.log.Ordered := by
  unfold State.quireDone
  split <;> simp

@[simp] theorem State.runFx_ordered (q : QId) (x : Fx) : (State.runFx q s x).log.Ordered ↔ s.log.Ordered := by
  cases x <;> simp [State.runFx]

/-- A step confined to a quire leaves the order, whatever it asks of the chip. -/
@[simp] theorem State.onQuire_ordered (q : QId) (f : Quire → W) : (s.onQuire q f).log.Ordered ↔ s.log.Ordered :=
  State.each_ordered (s := s.setQuire q _) _ (State.runFx q) fun _ x => State.runFx_ordered q x

/-! ### Packets -/

@[simp] theorem State.accept_ordered (hd : Hdr) (op : Byte) : (s.accept hd op).log.Ordered ↔ s.log.Ordered := by
  simp [State.accept]

@[simp] theorem State.refuse_ordered (hd : Hdr) (op : Byte) (r : Refuse) (res : List Byte) : (s.refuse hd op r res).log.Ordered ↔ s.log.Ordered :=
  State.answer_ordered _

@[simp] theorem State.resend_ordered (r : Reply) : (s.resend r).log.Ordered ↔ s.log.Ordered := by
  simp [State.resend]

/-- A packet leaves the order when its command does. -/
@[simp] theorem packet_ordered {o : OpSpec} {hd : Hdr} {p : Params} {check : State → Option Refuse} {run : State → ReplyTo → State} {refused : State → Byte → List Byte}
    (hrun : ∀ t d, (run t d).log.Ordered ↔ t.log.Ordered) : (packet o hd p s check run refused).log.Ordered ↔ s.log.Ordered := by
  unfold packet
  dsimp only
  split
  · rfl
  · split
    · simp
    · split
      · simp
      · simp
      · simp
      · simp
      · split <;> simp [hrun]

@[simp] theorem State.answerUnlisted_ordered (k : LinkId) (cls : PktClass) : (s.answerUnlisted k cls).log.Ordered ↔ s.log.Ordered := by
  unfold State.answerUnlisted
  split
  · rfl
  · exact State.each_ordered _ _ fun t b => packet_ordered fun _ _ => Iff.rfl

@[simp] theorem State.takeUnlisted_ordered (k : LinkId) : (s.takeUnlisted k).log.Ordered ↔ s.log.Ordered :=
  State.each_ordered _ _ fun _ c => State.answerUnlisted_ordered k c

/-- A row of a packet leaves the order when its command does. -/
@[simp] theorem front_ordered {row : Hdr → Params → Instr} {op : Byte} {hd : Hdr} {p : Params} {run : Hdr → Params → State → State}
    (hrun : ∀ a b t, (run a b t).log.Ordered ↔ t.log.Ordered) : (front row op hd p s run).log.Ordered ↔ s.log.Ordered := by
  simp [front, hrun]

@[simp] theorem maskPacket_ordered {o : OpSpec} {hd : Hdr} {p : Params} {together : Bool} {range : State → Option Refuse} {check : Quire → Option Refuse} {run : State → ReplyTo → State}
    (hrun : ∀ t d, (run t d).log.Ordered ↔ t.log.Ordered) : (maskPacket o hd p s together range check run).log.Ordered ↔ s.log.Ordered := by
  unfold maskPacket
  exact packet_ordered hrun

/-- A command on several quires leaves the order when its part of one quire does. -/
@[simp] theorem maskCommand_ordered {o : OpSpec} {hd : Hdr} {p : Params} {check : Quire → Option Refuse} {run : State → QId → ReplyTo → State}
    (hrun : ∀ t q d, (run t q d).log.Ordered ↔ t.log.Ordered) : (maskCommand o hd p s check run).log.Ordered ↔ s.log.Ordered := by
  unfold maskCommand
  refine maskPacket_ordered fun t d => (State.each_ordered _ _ fun u q => ?_).trans (Iff.of_eq (by simp))
  split
  · simp
  · exact hrun _ _ _

/-! ### Operations over the state -/

@[simp] theorem State.settleRecords_log : s.settleRecords.log = s.log := rfl

@[simp] theorem State.check_ordered (c e : Nat) : (s.check c e).2.log.Ordered ↔ s.log.Ordered := by
  simp [State.check]

@[simp] theorem State.live_ordered (c : Nat) (on : Bool) : (s.live c on).log.Ordered ↔ s.log.Ordered := by
  simp [State.live]

/-! ### The master on the PMBus -/

@[simp] theorem State.modRail_ordered (i : Nat) (f : RailView → RailView) : (s.modRail i f).log.Ordered ↔ s.log.Ordered := by
  simp [State.modRail]

@[simp] theorem State.vcoreReach_ordered : s.vcoreReach.log.Ordered ↔ s.log.Ordered := by
  simp [State.vcoreReach]

@[simp] theorem State.pmSend_ordered (i : Nat) (code : Byte) (reads : Bool) (data : List Byte) (fails : Nat) : (s.pmSend i code reads data fails).log.Ordered ↔ s.log.Ordered := by
  simp [State.pmSend]

@[simp] theorem State.pmSetpoint_ordered (i : Nat) : (s.pmSetpoint i).log.Ordered ↔ s.log.Ordered := by
  simp [State.pmSetpoint]

@[simp] theorem State.retarget_ordered : s.retarget.log.Ordered ↔ s.log.Ordered := by
  simp [State.retarget]

@[simp] theorem State.pmRate_ordered (i : Nat) : (s.pmRate i).log.Ordered ↔ s.log.Ordered := by
  simp [State.pmRate]

@[simp] theorem State.pmStart_ordered : s.pmStart.log.Ordered ↔ s.log.Ordered := by
  simp [State.pmStart]

/-! ### Quires that leave a run -/

@[simp] theorem State.cancelStarts_ordered (q : QId) (status : Byte) (detail : BitVec 16) : (s.cancelStarts q status detail).log.Ordered ↔ s.log.Ordered := by
  simp -implicitDefEqProofs [State.cancelStarts]

@[simp] theorem State.stopQuire_ordered (q : QId) (cause : StopCause) : (s.stopQuire q cause).log.Ordered ↔ s.log.Ordered := by
  simp [State.stopQuire]

@[simp] theorem State.faultQuire_ordered (q : QId) (cause : Byte) : (s.faultQuire q cause).log.Ordered ↔ s.log.Ordered := by
  simp [State.faultQuire]

/-! ### The fault collector and the commands of the log -/

@[simp] theorem State.fileChip_ordered (e : ErrRec) : (s.fileChip e).log.Ordered ↔ s.log.Ordered := by
  simp [State.fileChip]

@[simp] theorem State.takeReport_ordered (r : Report) : (s.takeReport r).log.Ordered ↔ s.log.Ordered := by
  unfold State.takeReport
  (repeat' split) <;> simp

@[simp] theorem State.readRecords_ordered (q : Option QId) : (s.readRecords q).2.log.Ordered ↔ s.log.Ordered := by
  unfold State.readRecords
  split <;> simp

@[simp] theorem doFaultRead_ordered (h : Hdr) (p : Params) : (doFaultRead h p s).log.Ordered ↔ s.log.Ordered := by
  simp [doFaultRead]

@[simp] theorem doFaultPinHold_ordered (h : Hdr) (p : Params) : (doFaultPinHold h p s).log.Ordered ↔ s.log.Ordered := by
  simp [doFaultPinHold]

@[simp] theorem doFaultInject_ordered (h : Hdr) (p : Params) : (doFaultInject h p s).log.Ordered ↔ s.log.Ordered := by
  simp [doFaultInject]

@[simp] theorem doLogFreeze_ordered (h : Hdr) (p : Params) : (doLogFreeze h p s).log.Ordered ↔ s.log.Ordered := by
  simp [doLogFreeze]

@[simp] theorem doLogThaw_ordered (h : Hdr) (p : Params) : (doLogThaw h p s).log.Ordered ↔ s.log.Ordered := by
  simp [doLogThaw]

@[simp] theorem doLogRead_ordered (h : Hdr) (p : Params) : (doLogRead h p s).log.Ordered ↔ s.log.Ordered := by
  simp [doLogRead]

/-! ### Lines of the channel -/

@[simp] theorem State.freeLine_ordered (q : QId) (line : Nat) : (s.freeLine q line).log.Ordered ↔ s.log.Ordered := by
  simp -implicitDefEqProofs [State.freeLine]

/-- A fold that carries the state beside a value leaves the order when each step does. -/
theorem foldl_snd_ordered {α β : Type} (l : List α) (f : β × State → α → β × State) (x : β × State)
    (hf : ∀ x a, (f x a).2.log.Ordered ↔ x.2.log.Ordered) : (l.foldl f x).2.log.Ordered ↔ x.2.log.Ordered := by
  induction l generalizing x with
  | nil => rfl
  | cons a l ih => exact (ih (f x a)).trans (hf x a)

/-! ### Lines of a lane -/

@[simp] theorem State.corrupt_ordered (k : Nat) (symbols : List Nat) : (s.corrupt k symbols).2.log.Ordered ↔ s.log.Ordered := by
  refine Iff.of_eq (congrArg _ ?_)
  exact List.foldlRecOn (motive := fun x : List Nat × List Nat × State => x.2.2.log = s.log) _ _ rfl fun _ hx _ _ => hx

@[simp] theorem State.adapt_ordered (n : LaneId) : (s.adapt n).log.Ordered ↔ s.log.Ordered := by
  simp [State.adapt]

/-! ### Floors and `EI_EN` -/

@[simp] theorem State.setFloor_ordered (q : QId) : (s.setFloor q).log.Ordered ↔ s.log.Ordered := by
  simp [State.setFloor]

@[simp] theorem State.setEiEn_ordered (k : LinkId) (v : Bool) : (s.setEiEn k v).log.Ordered ↔ s.log.Ordered := by
  simp [State.setEiEn]

@[simp] theorem State.eiEvaluate_ordered : s.eiEvaluate.log.Ordered ↔ s.log.Ordered := by
  simp [State.eiEvaluate]

/-! ### Sessions -/

@[simp] theorem State.requestStop_ordered (q : QId) (cause : StopCause) : (s.requestStop q cause).log.Ordered ↔ s.log.Ordered := by
  unfold State.requestStop
  split <;> simp

@[simp] theorem State.forget_ordered (gone : ReplyTo → Bool) : (s.forget gone).log.Ordered ↔ s.log.Ordered := by
  simp [State.forget]

@[simp] theorem State.releaseQuire_ordered (k : LinkId) (cause : StopCause) (q : QId) : (s.releaseQuire k cause q).log.Ordered ↔ s.log.Ordered := by
  simp [State.releaseQuire]

@[simp] theorem State.endSession_ordered (k : LinkId) (cause : StopCause) : (s.endSession k cause).log.Ordered ↔ s.log.Ordered := by
  simp [State.endSession]

@[simp] theorem State.sessionLinkDown_ordered (k : LinkId) : (s.sessionLinkDown k).log.Ordered ↔ s.log.Ordered := by
  simp [State.sessionLinkDown]

@[simp] theorem State.sessionLinkUp_ordered (k : LinkId) : (s.sessionLinkUp k).log.Ordered ↔ s.log.Ordered := by
  simp [State.sessionLinkUp]

@[simp] theorem doHello_ordered (h : Hdr) (p : Params) : (doHello h p s).log.Ordered ↔ s.log.Ordered := by
  simp [doHello]

@[simp] theorem doOpenSession_ordered (h : Hdr) (p : Params) : (doOpenSession h p s).log.Ordered ↔ s.log.Ordered := by
  simp -implicitDefEqProofs [doOpenSession]

@[simp] theorem doCloseSession_ordered (h : Hdr) (p : Params) : (doCloseSession h p s).log.Ordered ↔ s.log.Ordered := by
  simp [doCloseSession]

/-! ### Collation, loads and streams -/

@[simp] theorem State.silent_ordered (d : ReplyTo) : (s.silent d).log.Ordered ↔ s.log.Ordered := by
  simp [State.silent]

@[simp] theorem State.hold_ordered (i : Instr) : (s.hold i).log.Ordered ↔ s.log.Ordered := by
  simp [State.hold]

@[simp] theorem takeStream_ordered (waited : Bool) (h : Hdr) (p : Params) : (takeStream waited h p s).log.Ordered ↔ s.log.Ordered := by
  simp [takeStream]

@[simp] theorem doStreamData_ordered (h : Hdr) (p : Params) : (doStreamData h p s).log.Ordered ↔ s.log.Ordered := by
  simp [doStreamData]

@[simp] theorem doCollate_ordered (h : Hdr) (p : Params) : (doCollate h p s).log.Ordered ↔ s.log.Ordered := by
  unfold doCollate
  exact packet_ordered fun t d => by ((repeat' split) <;> simp -implicitDefEqProofs)

@[simp] theorem takeLoad_ordered (waited : Bool) (h : Hdr) (p : Params) : (takeLoad waited h p s).log.Ordered ↔ s.log.Ordered := by
  simp [takeLoad]

@[simp] theorem doLoadSignature_ordered (h : Hdr) (p : Params) : (doLoadSignature h p s).log.Ordered ↔ s.log.Ordered := by
  simp [doLoadSignature]

@[simp] theorem State.settleStreams_ordered : s.settleStreams.log.Ordered ↔ s.log.Ordered := by
  simp [State.settleStreams]

@[simp] theorem State.takeStreams_ordered : s.takeStreams.log.Ordered ↔ s.log.Ordered := by
  unfold State.takeStreams
  split
  · rfl
  · rw [State.settleStreams_ordered, State.each_ordered]
    intro t i
    split <;> simp

@[simp] theorem doFreeSignature_ordered (h : Hdr) (p : Params) : (doFreeSignature h p s).log.Ordered ↔ s.log.Ordered := by
  simp [doFreeSignature]

@[simp] theorem doQuerySignature_ordered (h : Hdr) (p : Params) : (doQuerySignature h p s).log.Ordered ↔ s.log.Ordered := by
  simp [doQuerySignature]

/-! ### Control of the quires -/

@[simp] theorem doArm_ordered (h : Hdr) (p : Params) : (doArm h p s).log.Ordered ↔ s.log.Ordered := by
  simp -implicitDefEqProofs [doArm]

@[simp] theorem armFillDone_ordered (q : QId) : (armFillDone q s).log.Ordered ↔ s.log.Ordered := by
  unfold armFillDone
  split <;> simp

@[simp] theorem State.startRun_ordered (q : QId) (originNs originAt : Nat) : (s.startRun q originNs originAt).log.Ordered ↔ s.log.Ordered := by
  simp [State.startRun]

@[simp] theorem State.refuseBudget_ordered (d : ReplyTo) (mask : Byte) : (s.refuseBudget d mask).log.Ordered ↔ s.log.Ordered := by
  simp [State.refuseBudget]

@[simp] theorem State.startNow_ordered (d : ReplyTo) (mask : Byte) : (s.startNow d mask).log.Ordered ↔ s.log.Ordered := by
  simp [State.startNow]

@[simp] theorem reserveAll_ordered (mask : Byte) (v : Bool) : (reserveAll s mask v).log.Ordered ↔ s.log.Ordered := by
  simp -implicitDefEqProofs [reserveAll]

@[simp] theorem startCommand_ordered (h : Hdr) (atNs : Nat) (d : ReplyTo) : (startCommand h atNs s d).log.Ordered ↔ s.log.Ordered := by
  simp -implicitDefEqProofs [startCommand]

@[simp] theorem doStart_ordered (h : Hdr) (p : Params) : (doStart h p s).log.Ordered ↔ s.log.Ordered := by
  simp [doStart]

@[simp] theorem startAtTime_ordered (q : QId) : (startAtTime q s).log.Ordered ↔ s.log.Ordered := by
  unfold startAtTime
  split <;> simp

@[simp] theorem startWaiter_ordered (expired : Bool) (w : StartWait) : (startWaiter expired s w).log.Ordered ↔ s.log.Ordered := by
  unfold startWaiter
  dsimp only
  (repeat' split) <;> simp -implicitDefEqProofs

@[simp] theorem State.vcoreRead_ordered (mv : Nat) : (s.vcoreRead mv).log.Ordered ↔ s.log.Ordered := by
  simp [State.vcoreRead]

@[simp] theorem startVcoreReady_ordered (vcore : Option Nat) (expired : Bool) : (startVcoreReady vcore expired s).log.Ordered ↔ s.log.Ordered := by
  unfold startVcoreReady
  split <;> simp

@[simp] theorem doStop_ordered (h : Hdr) (p : Params) : (doStop h p s).log.Ordered ↔ s.log.Ordered := by
  simp [doStop]

@[simp] theorem doPause_ordered (h : Hdr) (p : Params) : (doPause h p s).log.Ordered ↔ s.log.Ordered := by
  simp [doPause]

@[simp] theorem pauseTakeEffect_ordered (q : QId) : (pauseTakeEffect q s).log.Ordered ↔ s.log.Ordered := by
  simp [pauseTakeEffect]

@[simp] theorem doResume_ordered (h : Hdr) (p : Params) : (doResume h p s).log.Ordered ↔ s.log.Ordered := by
  simp [doResume]

@[simp] theorem autoResume_ordered (q : QId) : (autoResume q s).log.Ordered ↔ s.log.Ordered := by
  simp [autoResume]

@[simp] theorem doRebind_ordered (h : Hdr) (p : Params) : (doRebind h p s).log.Ordered ↔ s.log.Ordered := by
  simp [doRebind]

@[simp] theorem State.resetQuire_ordered (q : QId) : (s.resetQuire q).log.Ordered ↔ s.log.Ordered := by
  simp [State.resetQuire]

@[simp] theorem doQuireReset_ordered (h : Hdr) (p : Params) : (doQuireReset h p s).log.Ordered ↔ s.log.Ordered := by
  simp [doQuireReset]

@[simp] theorem State.snapAll_ordered (d : ReplyTo) (mask : Byte) : (s.snapAll d mask).log.Ordered ↔ s.log.Ordered := by
  simp [State.snapAll]

@[simp] theorem doSnapshot_ordered (h : Hdr) (p : Params) : (doSnapshot h p s).log.Ordered ↔ s.log.Ordered := by
  unfold doSnapshot
  refine maskPacket_ordered fun t d => ?_
  dsimp only
  split
  · rw [State.snapAll_ordered, State.each_ordered, State.openMask_log]
    intro u q
    split <;> simp
  · refine State.each_ordered (s := t.openMask d) _ _ fun u q => ?_
    split <;> simp

@[simp] theorem snapshotAtTime_ordered : (snapshotAtTime s).log.Ordered ↔ s.log.Ordered := by
  simp [snapshotAtTime]

/-! ### The sequencer -/

@[simp] theorem verdictHoldExpiry_ordered (q : QId) (id : Nat) : (verdictHoldExpiry q id s).log.Ordered ↔ s.log.Ordered := by
  unfold verdictHoldExpiry
  split <;> simp

@[simp] theorem stopTakeEffect_ordered (q : QId) : (stopTakeEffect q s).log.Ordered ↔ s.log.Ordered := by
  unfold stopTakeEffect
  split <;> simp

/-! ### Reading results -/

@[simp] theorem doReadVerdict_ordered (h : Hdr) (p : Params) : (doReadVerdict h p s).log.Ordered ↔ s.log.Ordered := by
  simp [doReadVerdict]

/-- Free values that are read one after the other leave the log. -/
theorem foldl_takeFree_log {α β : Type} (l : List α) (g : β → Word → β) (x : β × State) :
    (l.foldl (fun x _ => (g x.1 x.2.takeFree.1, x.2.takeFree.2)) x).2.log = x.2.log := by
  induction l generalizing x with
  | nil => rfl
  | cons a l ih => exact ih _

@[simp] theorem State.areaRead_ordered (q : QId) (area off n : Nat) : (s.areaRead q area off n).2.log.Ordered ↔ s.log.Ordered := by
  unfold State.areaRead
  dsimp only
  split
  · rfl
  · rfl
  · rfl
  · rw [foldl_takeFree_log _ fun a w => a ++ leW w]

@[simp] theorem State.hostLine_ordered (q : QId) (line : Nat) (r : LineRead) : (s.hostLine q line r).2.log.Ordered ↔ s.log.Ordered := by
  unfold State.hostLine
  dsimp only
  split
  · rw [foldl_takeFree_log _ fun a w => a ++ leW w, State.onQuire_ordered]
  · simp

@[simp] theorem State.rawRead_ordered (q : QId) (a n : Nat) (l : List LineRead) : (s.rawRead q a n l).2.log.Ordered ↔ s.log.Ordered :=
  foldl_snd_ordered _ _ _ fun _ _ => State.hostLine_ordered _ _ _

@[simp] theorem State.rawReply_ordered (q : QId) (x : RawRead) : (s.rawReply q x).log.Ordered ↔ s.log.Ordered := by
  simp [State.rawReply]

@[simp] theorem doReadCapture_ordered (h : Hdr) (p : Params) (o : SramRead) (l : List LineRead) : (doReadCapture h p o l s).log.Ordered ↔ s.log.Ordered := by
  simp [doReadCapture]

/-! ### Repair records -/

@[simp] theorem doReadRepair_ordered (h : Hdr) (p : Params) : (doReadRepair h p s).log.Ordered ↔ s.log.Ordered := by
  simp [doReadRepair]

/-! ### Ends of longer work -/

@[simp] theorem State.collationFails_ordered (q : QId) (d : ReplyTo) (st : Byte) (phase key elapsedNs : Nat) : (s.collationFails q d st phase key elapsedNs).log.Ordered ↔ s.log.Ordered := by
  simp [State.collationFails]

@[simp] theorem collationComplete_ordered (q : QId) (vpinMv elapsedNs : Nat) : (collationComplete q vpinMv elapsedNs s).log.Ordered ↔ s.log.Ordered := by
  unfold collationComplete
  dsimp only
  (repeat' split) <;> simp -implicitDefEqProofs

@[simp] theorem State.loadChecked_ordered (q : QId) (g : Nat) (d : ReplyTo) (y : SigState) (buf : BufState) (st : Byte) : (s.loadChecked q g d y buf st).log.Ordered ↔ s.log.Ordered := by
  simp [State.loadChecked]

@[simp] theorem loadCheckDone_ordered (q : QId) (g : Nat) : (loadCheckDone q g s).log.Ordered ↔ s.log.Ordered := by
  unfold loadCheckDone
  dsimp only
  (repeat' split) <;> simp -implicitDefEqProofs

/-! ### Supplies -/

@[simp] theorem State.leaveOff_ordered (q : QId) : (s.leaveOff q).log.Ordered ↔ s.log.Ordered := by
  simp [State.leaveOff]

@[simp] theorem vpinSettled_ordered (q : QId) (mv : Nat) : (vpinSettled q mv s).log.Ordered ↔ s.log.Ordered := by
  simp [vpinSettled]

@[simp] theorem vcoreWindowCheck_ordered (mv : Nat) : (vcoreWindowCheck mv s).log.Ordered ↔ s.log.Ordered := by
  simp [vcoreWindowCheck]

/-! ### Measurements -/

@[simp] theorem doTmuMeasure_ordered (h : Hdr) (p : Params) : (doTmuMeasure h p s).log.Ordered ↔ s.log.Ordered := by
  simp [doTmuMeasure]

@[simp] theorem tmuGateOpen_ordered (q : QId) (u : TmuId) : (tmuGateOpen q u s).log.Ordered ↔ s.log.Ordered := by
  unfold tmuGateOpen
  split <;> simp

@[simp] theorem tmuEdge_ordered (q : QId) (u : TmuId) (ch : Channel) (rising : Bool) (t : Int) : (tmuEdge q u ch rising t s).log.Ordered ↔ s.log.Ordered := by
  unfold tmuEdge
  dsimp only
  (repeat' split) <;> simp -implicitDefEqProofs

@[simp] theorem doPmuMeasure_ordered (h : Hdr) (p : Params) : (doPmuMeasure h p s).log.Ordered ↔ s.log.Ordered := by
  simp [doPmuMeasure]

/-! ### The pattern memory channel -/

@[simp] theorem State.serveRaw_ordered (q : QId) : (s.serveRaw q).log.Ordered ↔ s.log.Ordered := by
  simp [State.serveRaw]

@[simp] theorem dramRateRequest_ordered (q : QId) : (dramRateRequest q s).log.Ordered ↔ s.log.Ordered := by
  simp [dramRateRequest]

@[simp] theorem writeCrcAlert_ordered (q : QId) : (writeCrcAlert q s).log.Ordered ↔ s.log.Ordered := by
  unfold writeCrcAlert
  split <;> simp

@[simp] theorem caParityAlert_ordered (q : QId) : (caParityAlert q s).log.Ordered ↔ s.log.Ordered := by
  unfold caParityAlert
  split <;> simp

/-! ### Lanes and links -/

@[simp] theorem State.linkDown_ordered (k : LinkId) : (s.linkDown k).log.Ordered ↔ s.log.Ordered := by
  simp -implicitDefEqProofs [State.linkDown]

@[simp] theorem State.gainLock_ordered (n : LaneId) : (s.gainLock n).log.Ordered ↔ s.log.Ordered := by
  simp [State.gainLock]

@[simp] theorem State.proposeWidth_ordered (k : LinkId) (f : Byte → Byte) : (s.proposeWidth k f).log.Ordered ↔ s.log.Ordered := by
  simp [State.proposeWidth]

@[simp] theorem State.removeLane_ordered (k : LinkId) (n : LaneId) (toward : LanePhase) : (s.removeLane k n toward).log.Ordered ↔ s.log.Ordered := by
  simp [State.removeLane]

@[simp] theorem widthChange_ordered (k : LinkId) (named : Byte) (at_ : BitVec 12) : (widthChange k named at_ s).log.Ordered ↔ s.log.Ordered := by
  unfold widthChange
  dsimp only
  (repeat' split) <;> simp -implicitDefEqProofs

@[simp] theorem widthAck_ordered (k : LinkId) (mask : Byte) (at_ : BitVec 12) : (widthAck k mask at_ s).log.Ordered ↔ s.log.Ordered := by
  unfold widthAck
  split <;> simp

@[simp] theorem State.openChanges_ordered (k : LinkId) : (s.openChanges k).log.Ordered ↔ s.log.Ordered := by
  simp [State.openChanges]

@[simp] theorem State.txSwitch_ordered (k : LinkId) : (s.txSwitch k).log.Ordered ↔ s.log.Ordered := by
  unfold State.txSwitch
  (repeat' split) <;> simp -implicitDefEqProofs

@[simp] theorem State.rxSwitch_ordered (k : LinkId) : (s.rxSwitch k).log.Ordered ↔ s.log.Ordered := by
  unfold State.rxSwitch
  split <;> simp

@[simp] theorem State.joinLane_ordered (n : LaneId) : (s.joinLane n).log.Ordered ↔ s.log.Ordered := by
  simp [State.joinLane]

@[simp] theorem State.endChange_ordered (k : LinkId) : (s.endChange k).log.Ordered ↔ s.log.Ordered := by
  unfold State.endChange
  dsimp only
  (repeat' split) <;> simp -implicitDefEqProofs

@[simp] theorem widthSwitch_ordered (k : LinkId) : (widthSwitch k s).log.Ordered ↔ s.log.Ordered := by
  simp [widthSwitch]

@[simp] theorem widthAckTimeout_ordered (k : LinkId) : (widthAckTimeout k s).log.Ordered ↔ s.log.Ordered := by
  unfold widthAckTimeout
  split <;> simp

@[simp] theorem State.retrainLane_ordered (n : LaneId) : (s.retrainLane n).log.Ordered ↔ s.log.Ordered := by
  unfold State.retrainLane
  split <;> simp

@[simp] theorem State.watchLane_ordered (n : LaneId) (c : RetrainCause) : (s.watchLane n c).log.Ordered ↔ s.log.Ordered := by
  simp [State.watchLane]

@[simp] theorem retrainReq_ordered (k : LinkId) (i : Fin 8) : (retrainReq k i s).log.Ordered ↔ s.log.Ordered := by
  unfold retrainReq
  split <;> simp

@[simp] theorem State.trainLane_ordered (n : LaneId) (t : LaneTraining) : (s.trainLane n t).log.Ordered ↔ s.log.Ordered := by
  simp [State.trainLane]

@[simp] theorem laneRetrainDone_ordered (n : LaneId) (t : LaneTraining) : (laneRetrainDone n t s).log.Ordered ↔ s.log.Ordered := by
  unfold laneRetrainDone
  dsimp only
  (repeat' split) <;> simp -implicitDefEqProofs

@[simp] theorem State.laneOut_ordered (n : LaneId) : (s.laneOut n).log.Ordered ↔ s.log.Ordered := by
  unfold State.laneOut
  split <;> simp

@[simp] theorem State.endTest_ordered (n : LaneId) (valid : Bool) (phase : LanePhase) : (s.endTest n valid phase).log.Ordered ↔ s.log.Ordered := by
  unfold State.endTest
  (repeat' split) <;> simp

@[simp] theorem State.beginRetrain_ordered (n : LaneId) : (s.beginRetrain n).log.Ordered ↔ s.log.Ordered := by
  simp [State.beginRetrain]

@[simp] theorem State.laneReturn_ordered (n : LaneId) : (s.laneReturn n).log.Ordered ↔ s.log.Ordered := by
  unfold State.laneReturn
  split <;> simp

@[simp] theorem State.laneRetrain_ordered (n : LaneId) : (s.laneRetrain n).log.Ordered ↔ s.log.Ordered := by
  unfold State.laneRetrain
  split <;> simp

@[simp] theorem State.trainLink_ordered (k : LinkId) : (s.trainLink k).log.Ordered ↔ s.log.Ordered := by
  simp -implicitDefEqProofs [State.trainLink]

@[simp] theorem creditInit_ordered (k : LinkId) (grants : List Nat) : (creditInit k grants s).log.Ordered ↔ s.log.Ordered := by
  simp [creditInit]

@[simp] theorem creditSync_ordered (k : LinkId) (totals : List Nat) : (creditSync k totals s).log.Ordered ↔ s.log.Ordered := by
  simp [creditSync]

@[simp] theorem creditSyncSend_ordered (k : LinkId) : (creditSyncSend k s).log.Ordered ↔ s.log.Ordered := by
  simp [creditSyncSend]

@[simp] theorem State.freeReceived_ordered (n : LaneId) : (s.freeReceived n).log.Ordered ↔ s.log.Ordered := by
  simp [State.freeReceived]

@[simp] theorem State.sendWake_ordered (n : LaneId) : (s.sendWake n).log.Ordered ↔ s.log.Ordered := by
  rw [State.sendWake, State.modLane_log]
  exact Iff.of_eq (congrArg _ (foldl_takeFree_log _ (fun a w => a ++ symbolsOf w) _))

@[simp] theorem eiEnter_ordered (k : LinkId) : (eiEnter k s).log.Ordered ↔ s.log.Ordered := by
  simp -implicitDefEqProofs [eiEnter]

@[simp] theorem State.loseLock_ordered (n : LaneId) : (s.loseLock n).log.Ordered ↔ s.log.Ordered := by
  simp [State.loseLock]

@[simp] theorem lossOfSignal_ordered (n : LaneId) : (lossOfSignal n s).log.Ordered ↔ s.log.Ordered := by
  simp [lossOfSignal]

@[simp] theorem linkMessage_ordered (k : LinkId) (m : List Byte) : (linkMessage k m s).log.Ordered ↔ s.log.Ordered := by
  unfold linkMessage
  split <;> simp

@[simp] theorem State.flit_ordered (k : LinkId) (f : List Byte) : (State.flit k s f).log.Ordered ↔ s.log.Ordered := by
  unfold State.flit
  dsimp only
  (repeat' split) <;> simp -implicitDefEqProofs

@[simp] theorem deliver_ordered (k : LinkId) (n : Nat) : (deliver k n s).log.Ordered ↔ s.log.Ordered := by
  induction n generalizing s with
  | zero => rfl
  | succ n ih =>
    have hs : (if s.rxDue k then s.rxSwitch k else s).log.Ordered ↔ s.log.Ordered := by simp
    rw [deliver, ← hs]
    generalize (if s.rxDue k then s.rxSwitch k else s) = t
    dsimp only
    split
    · rfl
    · split
      · rfl
      · simp -implicitDefEqProofs [ih]

@[simp] theorem State.fecCount_ordered (n : LaneId) (cw : RxCodeword) : (s.fecCount n cw).log.Ordered ↔ s.log.Ordered := by
  cases cw <;> simp [State.fecCount]

@[simp] theorem State.checkSkew_ordered (k : LinkId) : (s.checkSkew k).log.Ordered ↔ s.log.Ordered := by
  simp [State.checkSkew]

@[simp] theorem State.receive_ordered (n : LaneId) (cw : RxCodeword) : (State.receive n cw s).log.Ordered ↔ s.log.Ordered := by
  unfold State.receive
  split <;> simp

@[simp] theorem State.follow_ordered (n : LaneId) : (s.follow n).log.Ordered ↔ s.log.Ordered := by
  unfold State.follow
  split <;> simp

@[simp] theorem State.checkTest_ordered (n : LaneId) (line : List (Fin 4)) : (s.checkTest n line).log.Ordered ↔ s.log.Ordered := by
  unfold State.checkTest
  split <;> simp

@[simp] theorem codewordReceived_ordered (n : LaneId) (line : List (Fin 4)) : (codewordReceived n line s).log.Ordered ↔ s.log.Ordered := by
  unfold codewordReceived
  (repeat' split) <;> simp

@[simp] theorem State.fillSlot_ordered (k : LinkId) : (s.fillSlot k).log.Ordered ↔ s.log.Ordered := by
  simp [State.fillSlot]

@[simp] theorem State.sendCodeword_ordered (k : LinkId) (n : LaneId) : (State.sendCodeword k s n).log.Ordered ↔ s.log.Ordered := by
  simp [State.sendCodeword]

@[simp] theorem State.sendTest_ordered (n : LaneId) (t : LaneTest) : (s.sendTest n t).log.Ordered ↔ s.log.Ordered := by
  simp [State.sendTest]

@[simp] theorem codewordTransmitted_ordered (n : LaneId) : (codewordTransmitted n s).log.Ordered ↔ s.log.Ordered := by
  unfold codewordTransmitted
  (repeat' split) <;> simp

@[simp] theorem State.exchangeCredits_ordered (k : LinkId) (on : List LaneId) (grants : List Nat) : (s.exchangeCredits k on grants).log.Ordered ↔ s.log.Ordered := by
  simp [State.exchangeCredits]

@[simp] theorem linkTrainingDone_ordered (k : LinkId) (found : List LaneTraining) (grants : List Nat) : (linkTrainingDone k found grants s).log.Ordered ↔ s.log.Ordered := by
  simp -implicitDefEqProofs [linkTrainingDone]

@[simp] theorem eiEntry_ordered (k : LinkId) : (eiEntry k s).log.Ordered ↔ s.log.Ordered := by
  simp [eiEntry]

@[simp] theorem eiExit_ordered (k : LinkId) : (eiExit k s).log.Ordered ↔ s.log.Ordered := by
  simp [eiExit]

@[simp] theorem doLaneTest_ordered (h : Hdr) (p : Params) : (doLaneTest h p s).log.Ordered ↔ s.log.Ordered := by
  simp [doLaneTest]

@[simp] theorem laneTestDone_ordered (n : LaneId) (line : List (Fin 4)) (more wrong : Nat) : (laneTestDone n line more wrong s).log.Ordered ↔ s.log.Ordered := by
  unfold laneTestDone
  dsimp only
  (repeat' split) <;> simp -implicitDefEqProofs

/-! ### Clocks and chip time -/

@[simp] theorem State.timeCause_ordered : s.timeCause.log.Ordered ↔ s.log.Ordered := by
  simp [State.timeCause]

@[simp] theorem State.logStep_ordered (step : Int) (injected : Bool) : (s.logStep step injected).log.Ordered ↔ s.log.Ordered := by
  simp [State.logStep]

@[simp] theorem State.acquire_ordered : s.acquire.log.Ordered ↔ s.log.Ordered := by
  simp [State.acquire]

@[simp] theorem State.loadTime_ordered (total : Nat) : (s.loadTime total).log.Ordered ↔ s.log.Ordered := by
  simp [State.loadTime]

@[simp] theorem State.applyTime_ordered (x0 : TimeChange) : (State.applyTime s x0).log.Ordered ↔ s.log.Ordered := by
  unfold State.applyTime
  split <;> simp

@[simp] theorem State.reselect_ordered : s.reselect.log.Ordered ↔ s.log.Ordered := by
  simp [State.reselect]

@[simp] theorem timeTick_ordered : (timeTick s).log.Ordered ↔ s.log.Ordered := by
  simp [timeTick]

@[simp] theorem doTimeSet_ordered (h : Hdr) (p : Params) : (doTimeSet h p s).log.Ordered ↔ s.log.Ordered := by
  simp [doTimeSet]

@[simp] theorem doTimeAdj_ordered (h : Hdr) (p : Params) : (doTimeAdj h p s).log.Ordered ↔ s.log.Ordered := by
  simp [doTimeAdj]

@[simp] theorem doTimeRead_ordered (h : Hdr) (p : Params) : (doTimeRead h p s).log.Ordered ↔ s.log.Ordered := by
  simp [doTimeRead]

@[simp] theorem State.switchSource_ordered : s.switchSource.log.Ordered ↔ s.log.Ordered := by
  simp [State.switchSource]

@[simp] theorem State.stopQuireClock_ordered (q : QId) : (s.stopQuireClock q).log.Ordered ↔ s.log.Ordered := by
  simp [State.stopQuireClock]

@[simp] theorem State.gateClock_ordered (lost : Word) : (s.gateClock lost).log.Ordered ↔ s.log.Ordered := by
  simp [State.gateClock]

@[simp] theorem State.stopDomain_ordered (prefer : TimingSrc) (sourceStopped : Bool) (injected : Bool) : (s.stopDomain prefer sourceStopped injected).log.Ordered ↔ s.log.Ordered := by
  unfold State.stopDomain
  dsimp only
  (repeat' split) <;> simp -implicitDefEqProofs

@[simp] theorem stopHandshakeTimeout_ordered : (stopHandshakeTimeout s).log.Ordered ↔ s.log.Ordered := by
  simp [stopHandshakeTimeout]

@[simp] theorem State.restartTime_ordered (stopNs : Nat) : (s.restartTime stopNs).log.Ordered ↔ s.log.Ordered := by
  simp [State.restartTime]

@[simp] theorem timingRestart_ordered (relockNs stopNs : Nat) : (timingRestart relockNs stopNs s).log.Ordered ↔ s.log.Ordered := by
  simp [timingRestart]

@[simp] theorem judgeWindow_ordered (src : ClkSource) (drift : WindowDrift) : (judgeWindow src drift s).log.Ordered ↔ s.log.Ordered := by
  unfold judgeWindow
  split <;> simp

@[simp] theorem State.rejudgeRec_ordered : s.rejudgeRec.log.Ordered ↔ s.log.Ordered := by
  simp [State.rejudgeRec]

@[simp] theorem State.trip_ordered (sourceStopped injected : Bool) : (s.trip sourceStopped injected).log.Ordered ↔ s.log.Ordered := by
  simp [State.trip]

@[simp] theorem monitorWindow_ordered (driftPs : Int) : (monitorWindow driftPs s).log.Ordered ↔ s.log.Ordered := by
  simp [monitorWindow]

@[simp] theorem recEdgeLoss_ordered (missing : Nat) : (recEdgeLoss missing s).log.Ordered ↔ s.log.Ordered := by
  simp [recEdgeLoss]

@[simp] theorem recRejudge_ordered : (recRejudge s).log.Ordered ↔ s.log.Ordered := by
  simp [recRejudge]

@[simp] theorem xoEdgeLoss_ordered (missing : Nat) : (xoEdgeLoss missing s).log.Ordered ↔ s.log.Ordered := by
  simp [xoEdgeLoss]

@[simp] theorem pllLockLoss_ordered : (pllLockLoss s).log.Ordered ↔ s.log.Ordered := by
  simp [pllLockLoss]

@[simp] theorem recAdoption_ordered : (recAdoption s).log.Ordered ↔ s.log.Ordered := by
  simp [recAdoption]

/-! ### Time messages, SYNC and the kettle chain -/

@[simp] theorem State.modPtp_ordered (k : LinkId) (f : Ptp → Ptp) : (s.modPtp k f).log.Ordered ↔ s.log.Ordered := by
  simp [State.modPtp]

@[simp] theorem State.ptpDiscard_ordered (k : LinkId) : (s.ptpDiscard k).log.Ordered ↔ s.log.Ordered := by
  simp [State.ptpDiscard]

@[simp] theorem takeSync_ordered (k : LinkId) (m : List Byte) (stamp : Option Stamp) : (takeSync k m stamp s).log.Ordered ↔ s.log.Ordered := by
  unfold takeSync
  split <;> simp

@[simp] theorem takeFollowUp_ordered (k : LinkId) (m : List Byte) : (takeFollowUp k m s).log.Ordered ↔ s.log.Ordered := by
  unfold takeFollowUp
  split <;> simp

@[simp] theorem takeDelayResp_ordered (k : LinkId) (m : List Byte) : (takeDelayResp k m s).log.Ordered ↔ s.log.Ordered := by
  unfold takeDelayResp
  split <;> simp

@[simp] theorem State.takeTime_ordered (m : TimeMsg) : (s.takeTime m).log.Ordered ↔ s.log.Ordered := by
  unfold State.takeTime
  split <;> simp

@[simp] theorem timeMessage_ordered (m : TimeMsg) : (timeMessage m s).log.Ordered ↔ s.log.Ordered := by
  simp [timeMessage]

@[simp] theorem syncMessage_ordered (k : LinkId) (m : List Byte) (sub : Nat) : (syncMessage k m sub s).log.Ordered ↔ s.log.Ordered := by
  simp [syncMessage]

@[simp] theorem followUp_ordered (k : LinkId) (m : List Byte) : (followUp k m s).log.Ordered ↔ s.log.Ordered := by
  simp [followUp]

@[simp] theorem delayReq_ordered (k : LinkId) (sub : Nat) : (delayReq k sub s).log.Ordered ↔ s.log.Ordered := by
  simp [delayReq]

@[simp] theorem delayResp_ordered (k : LinkId) (m : List Byte) : (delayResp k m s).log.Ordered ↔ s.log.Ordered := by
  simp [delayResp]

@[simp] theorem State.tsqPop_ordered (k : LinkId) : (s.tsqPop k).log.Ordered ↔ s.log.Ordered := by
  simp [State.tsqPop]

@[simp] theorem State.stepBy_ordered (e : Int) : (s.stepBy e).log.Ordered ↔ s.log.Ordered := by
  simp [State.stepBy]

@[simp] theorem State.syncTrigger_ordered (sub : Nat) : (s.syncTrigger sub).log.Ordered ↔ s.log.Ordered := by
  simp -implicitDefEqProofs [State.syncTrigger]

@[simp] theorem State.syncMiss_ordered (injected : Bool) : (s.syncMiss injected).log.Ordered ↔ s.log.Ordered := by
  simp [State.syncMiss]

@[simp] theorem State.syncCheck_ordered : (s.syncCheck).2.log.Ordered ↔ s.log.Ordered := by
  simp [State.syncCheck]

@[simp] theorem syncInEdge_ordered (sub : Nat) : (syncInEdge sub s).log.Ordered ↔ s.log.Ordered := by
  unfold syncInEdge
  dsimp only
  (repeat' split) <;> simp -implicitDefEqProofs

@[simp] theorem syncMissTimeout_ordered : (syncMissTimeout s).log.Ordered ↔ s.log.Ordered := by
  simp [syncMissTimeout]

@[simp] theorem syncOutPulse_ordered : (syncOutPulse s).log.Ordered ↔ s.log.Ordered := by
  simp [syncOutPulse]

@[simp] theorem State.setSyncMode_ordered (mode : Nat) : (s.setSyncMode mode).log.Ordered ↔ s.log.Ordered := by
  simp [State.setSyncMode]

@[simp] theorem State.forward_ordered (f : BitVec 96) (inverted : Bool) : (s.forward f inverted).log.Ordered ↔ s.log.Ordered := by
  simp [State.forward]

@[simp] theorem State.kettle_ordered (f : BitVec 96) (run : State → State) (hrun : ∀ t, (run t).log.Ordered ↔ t.log.Ordered) :
    (s.kettle f run).log.Ordered ↔ s.log.Ordered := by
  simp [State.kettle, hrun]

@[simp] theorem timeLoad_ordered (f : BitVec 96) (age : FrameAge) : (timeLoad f age s).log.Ordered ↔ s.log.Ordered := by
  simp [timeLoad]

@[simp] theorem kettlePing_ordered (f : BitVec 96) (roundNs : Nat) : (kettlePing f roundNs s).log.Ordered ↔ s.log.Ordered := by
  simp [kettlePing]

@[simp] theorem pingTimeout_ordered : (pingTimeout s).log.Ordered ↔ s.log.Ordered := by
  simp [pingTimeout]

@[simp] theorem reservedTypeFrame_ordered (f : BitVec 96) : (reservedTypeFrame f s).log.Ordered ↔ s.log.Ordered := by
  simp [reservedTypeFrame]

@[simp] theorem State.kcSend_ordered (v : Nat) : (s.kcSend v).log.Ordered ↔ s.log.Ordered := by
  simp [State.kcSend]

/-! ### The governor -/

@[simp] theorem State.emergencyPark_ordered (cause : Byte) (sensor : Byte) (reading : Byte) (injected : Bool) : (s.emergencyPark cause sensor reading injected).log.Ordered ↔ s.log.Ordered := by
  simp -implicitDefEqProofs [State.emergencyPark]

@[simp] theorem State.markZones_ordered (q : QId) : (s.markZones q).log.Ordered ↔ s.log.Ordered := by
  simp [State.markZones]

@[simp] theorem State.hardCheck_ordered (i : Nat) : (s.hardCheck i).log.Ordered ↔ s.log.Ordered := by
  simp [State.hardCheck]

@[simp] theorem State.thermalLive_ordered : s.thermalLive.log.Ordered ↔ s.log.Ordered := by
  simp [State.thermalLive]

@[simp] theorem sensorRead_ordered (temps : List Int) : (sensorRead temps s).log.Ordered ↔ s.log.Ordered := by
  simp [sensorRead]

@[simp] theorem State.railStatus_ordered (i : Nat) (w : BitVec 16) : (s.railStatus i w).log.Ordered ↔ s.log.Ordered := by
  simp [State.railStatus]

@[simp] theorem State.pmRead_ordered (i : Nat) (code : Byte) (fails : Nat) (run : State → State) (hrun : ∀ t, (run t).log.Ordered ↔ t.log.Ordered) :
    (s.pmRead i code fails run).log.Ordered ↔ s.log.Ordered := by
  simp [State.pmRead, hrun]

@[simp] theorem State.railVout_ordered (i mv : Nat) : (s.railVout i mv).log.Ordered ↔ s.log.Ordered := by
  simp [State.railVout]

@[simp] theorem State.readRail_ordered (i : Nat) (x : RailTransfer) : (s.readRail i x).log.Ordered ↔ s.log.Ordered := by
  simp -implicitDefEqProofs [State.readRail]

@[simp] theorem State.powerCheck_ordered : s.powerCheck.log.Ordered ↔ s.log.Ordered := by
  simp [State.powerCheck]

@[simp] theorem telemetryCycle_ordered (rails : List RailTransfer) : (telemetryCycle rails s).log.Ordered ↔ s.log.Ordered := by
  simp [telemetryCycle]

@[simp] theorem State.alertStatus_ordered (i : Nat) (w : BitVec 16) : (s.alertStatus i w).log.Ordered ↔ s.log.Ordered := by
  simp [State.alertStatus]

@[simp] theorem pmAlert_ordered (status : List (Nat × BitVec 16)) : (pmAlert status s).log.Ordered ↔ s.log.Ordered := by
  simp [pmAlert]

@[simp] theorem State.trimQuire_ordered (q : QId) : (s.trimQuire q).log.Ordered ↔ s.log.Ordered := by
  simp [State.trimQuire]

@[simp] theorem trimPeriod_ordered : (trimPeriod s).log.Ordered ↔ s.log.Ordered := by
  simp [trimPeriod]

@[simp] theorem State.chipSramRead_ordered (o : SramRead) : (s.chipSramRead o).log.Ordered ↔ s.log.Ordered := by
  simp [State.chipSramRead]

@[simp] theorem floorRecompute_ordered (o : SramRead) : (floorRecompute o s).log.Ordered ↔ s.log.Ordered := by
  simp [floorRecompute]

@[simp] theorem doBudgetSet_ordered (h : Hdr) (p : Params) : (doBudgetSet h p s).log.Ordered ↔ s.log.Ordered := by
  simp [doBudgetSet]

@[simp] theorem doBudgetQuery_ordered (h : Hdr) (p : Params) : (doBudgetQuery h p s).log.Ordered ↔ s.log.Ordered := by
  simp [doBudgetQuery]

/-! ### Calibration -/

@[simp] theorem doCalRetrim_ordered (h : Hdr) (p : Params) : (doCalRetrim h p s).log.Ordered ↔ s.log.Ordered := by
  simp [doCalRetrim]

@[simp] theorem calTrackUpdate_ordered : (calTrackUpdate s).log.Ordered ↔ s.log.Ordered := by
  simp [calTrackUpdate]

@[simp] theorem doCalQuery_ordered (h : Hdr) (p : Params) : (doCalQuery h p s).log.Ordered ↔ s.log.Ordered := by
  simp [doCalQuery]

@[simp] theorem doCalCommit_ordered (h : Hdr) (p : Params) : (doCalCommit h p s).log.Ordered ↔ s.log.Ordered := by
  simp [doCalCommit]

@[simp] theorem calCommitDone_ordered (compareOk : Bool) : (calCommitDone compareOk s).log.Ordered ↔ s.log.Ordered := by
  unfold calCommitDone
  split <;> simp

@[simp] theorem doSelftest_ordered (h : Hdr) (p : Params) : (doSelftest h p s).log.Ordered ↔ s.log.Ordered := by
  simp [doSelftest]

@[simp] theorem selftestDone_ordered (q : QId) (failed : BitVec 5) (durationUs : Nat) : (selftestDone q failed durationUs s).log.Ordered ↔ s.log.Ordered := by
  unfold selftestDone
  split <;> simp

/-! ### Registers -/

@[simp] theorem readWord_ordered (a : Nat) (read : LineOutcome) : (readWord s a read).2.log.Ordered ↔ s.log.Ordered := by
  unfold readWord
  split <;> simp

theorem readWords_ordered (bad : PacketReads) (n i a : Nat) : (readWords bad n i a s).2.log.Ordered ↔ s.log.Ordered := by
  induction n generalizing i a s with
  | zero => rfl
  | succ n ih => exact (ih _ _).trans (readWord_ordered _ _)

@[simp] theorem doReadCfg_ordered (h : Hdr) (p : Params) : (doReadCfg h p s).log.Ordered ↔ s.log.Ordered :=
  packet_ordered fun _ _ => (State.reply_ordered _ _ _ _).trans (readWords_ordered _ _ _ _)

@[simp] theorem State.writeClkCtrl_ordered (v : Word) : (s.writeClkCtrl v).log.Ordered ↔ s.log.Ordered := by
  simp [State.writeClkCtrl]

@[simp] theorem State.writeLaneCtrl_ordered (o : Nat) (v : Word) : (s.writeLaneCtrl o v).log.Ordered ↔ s.log.Ordered := by
  simp [State.writeLaneCtrl]

@[simp] theorem State.writeChip_ordered (page o : Nat) (v : Word) : (s.writeChip page o v).log.Ordered ↔ s.log.Ordered := by
  simp [State.writeChip]

@[simp] theorem writeWord_ordered (a : Nat) (v : Word) : (writeWord s a v).log.Ordered ↔ s.log.Ordered := by
  simp [writeWord]

theorem writeWords_ordered (k : LinkId) (a off : Nat) (l : List Word) : (writeWords k a off l s).2.log.Ordered ↔ s.log.Ordered := by
  induction l generalizing a off s with
  | nil => rfl
  | cons v t ih =>
    rw [writeWords]
    split
    · rfl
    · exact (ih _ _).trans (writeWord_ordered _ _)

@[simp] theorem doWriteCfg_ordered (h : Hdr) (p : Params) : (doWriteCfg h p s).log.Ordered ↔ s.log.Ordered := by
  simp [doWriteCfg]

@[simp] theorem doWriteCfgBlock_ordered (h : Hdr) (p : Params) : (doWriteCfgBlock h p s).log.Ordered ↔ s.log.Ordered := by
  unfold doWriteCfgBlock
  exact packet_ordered fun _ _ => (State.reply_ordered _ _ _ _).trans (writeWords_ordered _ _ _ _)

/-! ### Resets, patches and restarts -/

@[simp] theorem State.enterReset_ordered : s.enterReset.log.Ordered ↔ s.log.Ordered := by
  simp [State.enterReset]

/-- A boot after a fall of VSRAM begins with an empty log (R781). -/
theorem State.startBoot_ordered (h : s.log.Ordered) : s.startBoot.log.Ordered := by
  rw [State.startBoot]
  split
  · exact SinterLog.reset_ordered
  · exact h

@[simp] theorem State.stagePatch_ordered (d : ReplyTo) : (s.stagePatch d).log.Ordered ↔ s.log.Ordered := by
  simp [State.stagePatch]

@[simp] theorem doPatchStage_ordered (h : Hdr) (p : Params) : (doPatchStage h p s).log.Ordered ↔ s.log.Ordered := by
  simp [doPatchStage]

@[simp] theorem patchWritten_ordered (success : Bool) : (patchWritten success s).log.Ordered ↔ s.log.Ordered := by
  unfold patchWritten
  split <;> simp

@[simp] theorem State.reloadPatch_ordered : s.reloadPatch.log.Ordered ↔ s.log.Ordered := by
  unfold State.reloadPatch
  split <;> simp

@[simp] theorem doSpineRestart_ordered (h : Hdr) (p : Params) : (doSpineRestart h p s).log.Ordered ↔ s.log.Ordered := by
  simp [doSpineRestart]

@[simp] theorem machineCheck_ordered : (machineCheck s).log.Ordered ↔ s.log.Ordered := by
  simp [machineCheck]

@[simp] theorem State.activateStaged_ordered : s.activateStaged.log.Ordered ↔ s.log.Ordered := by
  simp [State.activateStaged]

/-! ### Boot -/

@[simp] theorem resetNFall_ordered : (resetNFall s).log.Ordered ↔ s.log.Ordered := by
  simp [resetNFall]

@[simp] theorem railFall_ordered (rail : Rail) : (railFall rail s).log.Ordered ↔ s.log.Ordered := by
  simp [railFall]

@[simp] theorem State.bootSpine_ordered : s.bootSpine.log.Ordered ↔ s.log.Ordered := by
  simp [State.bootSpine]

@[simp] theorem State.bootTiming_ordered : s.bootTiming.log.Ordered ↔ s.log.Ordered := by
  simp [State.bootTiming]

@[simp] theorem State.bootDram_ordered (ranks : List (BitVec 3)) : (State.bootDram ranks s).log.Ordered ↔ s.log.Ordered := by
  simp [State.bootDram]

@[simp] theorem State.bootQuires_ordered : s.bootQuires.log.Ordered ↔ s.log.Ordered := by
  simp [State.bootQuires]

@[simp] theorem scanSelect_ordered (i : ScanInstr) : (scanSelect i s).log.Ordered ↔ s.log.Ordered := by
  simp [scanSelect]

/-! ### Boots and restarts, which may begin with an empty log -/

/-- What is done for each of some things keeps the order when each single step does. -/
theorem State.each_keeps {α : Type} (l : List α) (f : State → α → State) (hf : ∀ t a, t.log.Ordered → (f t a).log.Ordered) (h : s.log.Ordered) :
    (s.each l f).log.Ordered := by
  unfold State.each
  induction l generalizing s with
  | nil => exact h
  | cons a l ih => exact ih (hf s a h)

theorem doChipReset_ordered (hd : Hdr) (p : Params) (h : s.log.Ordered) : (doChipReset hd p s).log.Ordered := by
  have hfree : (s.freeBuffer hd.link hd.cls).log.Ordered := by simpa using h
  unfold doChipReset packet
  dsimp only
  split
  · exact h
  · split
    · simpa using hfree
    · split
      · simpa using hfree
      · simpa using hfree
      · exact hfree
      · simpa using hfree
      · split
        · simpa using hfree
        · exact State.startBoot_ordered (by simpa using hfree)

theorem frontChipReset_ordered (hd : Hdr) (p : Params) (h : s.log.Ordered) : (front .chipReset opChipReset.opcode hd p s doChipReset).log.Ordered := by
  have hu : (s.answerUnlisted hd.link hd.cls).log.Ordered := by simpa using h
  unfold front
  dsimp only
  split
  · split
    · exact doChipReset_ordered _ _ hu
    · exact hu
  · split <;> exact h

/-- A packet that has waited while the Spine restarted keeps the log in order. -/
theorem takeHeld_ordered (i : Instr) (h : s.log.Ordered) : (takeHeld s i).log.Ordered := by
  cases i
  case chipReset hd p => exact frontChipReset_ordered hd p h
  all_goals simpa [takeHeld] using h

theorem State.resume_ordered (h : s.log.Ordered) : s.resume.log.Ordered := by
  rw [State.resume, State.settleStreams_ordered]
  refine State.each_keeps _ _ (fun t i => takeHeld_ordered i) ?_
  simpa using h

theorem spineRestartDone_ordered (h : s.log.Ordered) : (spineRestartDone s).log.Ordered := by
  unfold spineRestartDone
  split
  · exact h
  · refine State.resume_ordered ?_
    dsimp only
    split <;> simpa using h

theorem State.bootStore_ordered (h : s.log.Ordered) : s.bootStore.log.Ordered := by
  refine State.resume_ordered ?_
  rw [State.pmStart_ordered]
  dsimp only
  split <;> exact h

theorem bootStepDone_ordered (elapsedMs : Nat) (ranks : List (BitVec 3)) (h : s.log.Ordered) : (bootStepDone elapsedMs ranks s).log.Ordered := by
  have hms : ({ s with boot := { s.boot with ms := min 0xFFFF elapsedMs } } : State).log.Ordered := h
  unfold bootStepDone
  split
  · exact h
  · dsimp only
    split
    · exact h
    · split <;> exact h
    · rwa [State.bootSpine_ordered]
    · split <;> exact h
    · rwa [State.bootTiming_ordered]
    · exact State.bootStore_ordered hms
    · rwa [State.bootDram_ordered]
    · rwa [State.bootQuires_ordered]

theorem bootStart_ordered (modeOz reset : Bool) (h : s.log.Ordered) : (bootStart modeOz reset s).log.Ordered := by
  unfold bootStart
  split
  · exact h
  · cases hlow : s.boot.resetNLow
    all_goals
      simp only [if_true, if_false, Bool.false_eq_true]
      split
      · exact h
      · exact State.startBoot_ordered h

@[simp] theorem rowWrite_ordered (mine : Params → Bool) (row : Hdr → Params → Instr) (h : Hdr) (p : Params) : (rowWrite mine row h p s).log.Ordered ↔ s.log.Ordered := by
  simp [rowWrite]

@[simp] theorem rowRead_ordered (mine : Params → Bool) (row : Hdr → Params → Instr) (h : Hdr) (p : Params) : (rowRead mine row h p s).log.Ordered ↔ s.log.Ordered := by
  simp [rowRead]

/-- Every command is carried out, and keeps the log in order. -/
theorem exec_ordered (i : Instr) (h : s.log.Ordered) : ∃ t, exec i s = .next t ∧ t.log.Ordered := by
  cases i
  case chipReset hd p => exact ⟨_, rfl, frontChipReset_ordered hd p h⟩
  case spineRestartDone => exact ⟨_, rfl, spineRestartDone_ordered h⟩
  case bootStart m r => exact ⟨_, rfl, bootStart_ordered m r h⟩
  case bootStepDone e r => exact ⟨_, rfl, bootStepDone_ordered e r h⟩
  case logTokenRefill => exact ⟨_, rfl, (SinterLog.ordered_congr rfl).mpr h⟩
  case dramRead q r => exact ⟨_, rfl, by split <;> simpa using h⟩
  case migrationCopy q r f => exact ⟨_, rfl, by split <;> simpa using h⟩
  all_goals exact ⟨_, rfl, by simpa -implicitDefEqProofs using h⟩

end Sys2Proof.Machine

namespace Sys2Proof.Proofs

open Sys2Proof.Machine

/-- Settles O58: no command but a boot after a fall of VSRAM touches the entries that are there, and a new entry takes the next number. -/
theorem logStaysOrdered : Obligations.LogStaysOrdered := by
  intro s t h hstep
  unfold step at hstep
  split at hstep
  · cases hstep
    exact h
  · next c rest _ =>
    obtain ⟨u, hu, ho⟩ := exec_ordered (s := { s with pending := rest }) c h
    rw [hu] at hstep
    cases hstep
    exact ho

end Sys2Proof.Proofs
end

section
/-! Quires apart from each other: what an event of one quire leaves of every other quire (R29, R589). -/

namespace Sys2Proof.Machine

/-! ### A quire that is let go -/

/-- Quire `y` is quire `x`, or `x` let go by a command on several quires whose part of it had ended (R589). -/
def Quire.LetGo (x y : Quire) : Prop := y = x ∨ ∃ d, x.occupied = some (.ended d) ∧ y = { x with occupied := none }

theorem Quire.LetGo.refl (x : Quire) : x.LetGo x := .inl rfl

theorem Quire.LetGo.trans {x y z : Quire} (h : x.LetGo y) (h' : y.LetGo z) : x.LetGo z := by
  rcases h with rfl | ⟨d, hd, rfl⟩
  · exact h'
  · rcases h' with rfl | ⟨d', hd', -⟩
    · exact .inr ⟨d, hd, rfl⟩
    · exact absurd hd' (Option.some_ne_none _).symm

theorem Quire.letGo_unoccupy (d : ReplyTo) (x : Quire) : x.LetGo (x.unoccupy d) := by
  unfold Quire.unoccupy
  split
  · next h => exact .inr ⟨d, h, rfl⟩
  · exact .refl x

variable {s t u : State} {q r : QId}

/-- Every quire but `q` is left as it is, or let go. -/
def State.Apart (s : State) (q : QId) (t : State) : Prop := ∀ r, r ≠ q → (s.quire r).LetGo (t.quire r)

theorem State.Apart.refl (s : State) (q : QId) : s.Apart q s := fun _ _ => .refl _

theorem State.Apart.trans (h : s.Apart q t) (h' : t.Apart q u) : s.Apart q u := fun r hr => (h r hr).trans (h' r hr)

theorem State.Apart.ite {c : Prop} [Decidable c] (h : s.Apart q t) (h' : s.Apart q u) : s.Apart q (if c then t else u) := by
  split
  · exact h
  · exact h'

/-- A step after which the other quires read as before keeps them apart. -/
theorem State.Apart.keep (h : s.Apart q t) (hu : ∀ r, r ≠ q → u.quire r = t.quire r) : s.Apart q u := fun r hr => by
  rw [hu r hr]
  exact h r hr

theorem State.quireDone_apart (s : State) (d : ReplyTo) (q : QId) (st : Byte) (dt : BitVec 16) (rc : List Byte) : s.Apart q (s.quireDone d q st dt rc) := by
  intro r _
  unfold State.quireDone
  split
  · exact .refl _
  · dsimp only
    split
    · rw [State.reply_quire]
      simpa [State.quire] using Quire.letGo_unoccupy d (s.quire r)
    · exact .refl _

theorem State.runFx_apart (s : State) (q : QId) (x : Fx) : s.Apart q (State.runFx q s x) := by
  cases x with
  | done d st dt => exact s.quireDone_apart d q st dt []
  | _ => exact (State.Apart.refl s q).keep fun r hr => by simp [State.runFx, hr]

/-- A step confined to quire `q` leaves every other quire as it is, or lets it go. -/
theorem State.onQuire_apart (s : State) (q : QId) (f : Quire → W) : s.Apart q (s.onQuire q f) := by
  have hset : s.Apart q (s.setQuire q (f (s.quire q)).q) := (State.Apart.refl s q).keep fun r hr => by simp [hr]
  unfold State.onQuire
  dsimp only
  generalize s.setQuire q (f (s.quire q)).q = t at hset
  generalize (f (s.quire q)).fx = l
  induction l generalizing t with
  | nil => exact hset
  | cons x l ih => exact ih _ (hset.trans (t.runFx_apart q x))

theorem State.modQuire_apart (s : State) (q : QId) (f : Quire → Quire) : s.Apart q (s.modQuire q f) :=
  (State.Apart.refl s q).keep fun r hr => by simp [hr]

theorem State.Apart.onQuire (h : s.Apart q t) (f : Quire → W) : s.Apart q (t.onQuire q f) := h.trans (t.onQuire_apart q f)

theorem State.Apart.modQuire (h : s.Apart q t) (f : Quire → Quire) : s.Apart q (t.modQuire q f) := h.trans (t.modQuire_apart q f)

theorem State.Apart.reply (h : s.Apart q t) (d : ReplyTo) (st : Byte) (dt : BitVec 16) (res : List Byte) : s.Apart q (t.reply d st dt res) :=
  h.keep fun _ _ => by rw [State.reply_quire]

/-! ### Steps of the chip that leave every quire -/

theorem State.each_quires {α : Type} (s : State) (l : List α) (f : State → α → State) (hf : ∀ t a, (f t a).quires = t.quires) :
    (s.each l f).quires = s.quires :=
  List.foldlRecOn (motive := fun t : State => t.quires = s.quires) l f rfl fun t ht a _ => (hf t a).trans ht

@[simp] theorem State.pmSend_quires (s : State) (i : Nat) (code : Byte) (reads : Bool) (data : List Byte) (fails : Nat) :
    (s.pmSend i code reads data fails).quires = s.quires := by
  unfold State.pmSend State.vcoreReach State.modRail
  dsimp only
  split <;> simp

@[simp] theorem State.pmSetpoint_quires (s : State) (i : Nat) : (s.pmSetpoint i).quires = s.quires := s.pmSend_quires _ _ _ _ _

@[simp] theorem State.retarget_quires (s : State) : s.retarget.quires = s.quires := s.each_quires _ _ State.pmSetpoint_quires

@[simp] theorem State.eiEvaluate_quires (s : State) : s.eiEvaluate.quires = s.quires := by
  unfold State.eiEvaluate
  split
  · exact s.each_quires _ _ fun _ _ => rfl
  · rfl

theorem State.setFloor_apart (s : State) (q : QId) : s.Apart q (s.setFloor q) := by
  unfold State.setFloor
  dsimp only
  split
  · split
    · exact (s.modQuire_apart q _).keep fun r _ => by rw [State.bump_quire]
    · exact s.modQuire_apart q _
  · exact s.modQuire_apart q _

/-! ### Reads of a line of DDR-5 -/

theorem State.freeLine_apart (s : State) (q : QId) (line : Nat) : s.Apart q (s.freeLine q line) :=
  List.foldlRecOn (motive := s.Apart q) _ _ (State.Apart.refl s q) fun t ht _ _ => ht.trans (t.takeFree.2.modQuire_apart q _)

@[simp] theorem State.freeLine_heldPackets (s : State) (q : QId) (line : Nat) : (s.freeLine q line).heldPackets = s.heldPackets :=
  List.foldlRecOn (motive := fun t : State => t.heldPackets = s.heldPackets) _ _ rfl fun _ ht _ _ => ht

/-- What a read of a line for the host leaves: every other quire, and the packets that wait. -/
theorem State.hostLine_apart (s : State) (q : QId) (line : Nat) (r : LineRead) :
    s.Apart q (s.hostLine q line r).2 ∧ (s.hostLine q line r).2.heldPackets = s.heldPackets := by
  have hread := s.onQuire_apart q fun x => (x.w.readLine line r).2
  unfold State.hostLine
  dsimp only
  split
  · refine List.foldlRecOn (motive := fun x : List Byte × State => s.Apart q x.2 ∧ x.2.heldPackets = s.heldPackets) _ _ ⟨hread, by simp⟩ ?_
    exact fun x hx _ _ => hx
  · split
    · exact ⟨hread.trans (State.freeLine_apart _ _ _), by simp⟩
    · exact ⟨hread, by simp⟩

theorem State.rawReply_apart (s : State) (q : QId) (x : RawRead) :
    s.Apart q (s.rawReply q x) ∧ (s.rawReply q x).heldPackets = s.heldPackets := by
  have hread : s.Apart q (s.rawRead q x.start x.bytes x.lines).2 ∧ (s.rawRead q x.start x.bytes x.lines).2.heldPackets = s.heldPackets := by
    refine List.foldlRecOn (motive := fun y : List Byte × State => s.Apart q y.2 ∧ y.2.heldPackets = s.heldPackets) _ _ ⟨.refl s q, rfl⟩ fun y hy i _ => ?_
    obtain ⟨hapart, hheld⟩ := y.2.hostLine_apart q (x.start / 64 + i) (x.lines.getD i { wrong := 0, miscorrected := false })
    exact ⟨hy.1.trans hapart, hheld.trans hy.2⟩
  exact ⟨hread.1.reply _ _ _ _, by rw [State.rawReply, State.reply_heldPackets, hread.2]⟩

theorem State.serveRaw_apart (s : State) (q : QId) : s.Apart q (s.serveRaw q) ∧ (s.serveRaw q).heldPackets = s.heldPackets := by
  unfold State.serveRaw
  split
  · exact ⟨.refl s q, rfl⟩
  · refine List.foldlRecOn (motive := fun t : State => s.Apart q t ∧ t.heldPackets = s.heldPackets) _ _ ⟨s.modQuire_apart q _, rfl⟩ fun t ht x _ => ?_
    obtain ⟨hapart, hheld⟩ := t.rawReply_apart q x
    exact ⟨ht.1.trans hapart, hheld.trans ht.2⟩

/-- With no packet in a link buffer there is nothing to take up (R858). -/
theorem State.takeStreams_of_none (h : s.heldPackets = []) : s.takeStreams = s := by
  simp [State.takeStreams, h]

theorem State.Apart.takeStreams (h : s.Apart q t) (ht : t.heldPackets = []) : s.Apart q t.takeStreams := by
  rwa [State.takeStreams_of_none ht]

/-! ### Events of one quire that read or change more than the quire -/

theorem stopTakeEffect_apart (q : QId) (s : State) : s.Apart q (stopTakeEffect q s) ∧ (stopTakeEffect q s).heldPackets = s.heldPackets := by
  unfold stopTakeEffect
  split
  · split
    · exact ⟨s.onQuire_apart q _, by simp⟩
    · exact ⟨.refl s q, rfl⟩
  · exact ⟨.refl s q, rfl⟩

theorem armFillDone_apart (q : QId) (s : State) : s.Apart q (armFillDone q s) := by
  unfold armFillDone
  split
  · split
    · exact (s.modQuire_apart q _).trans (State.quireDone_apart _ _ _ _ _ _)
    · exact State.Apart.refl s q
  · exact State.Apart.refl s q

theorem startAtTime_apart (q : QId) (s : State) : s.Apart q (startAtTime q s) := by
  unfold startAtTime
  split
  · split
    · exact s.onQuire_apart q _
    · exact State.Apart.refl s q
  · exact State.Apart.refl s q

theorem pauseTakeEffect_apart (q : QId) (s : State) : s.Apart q (pauseTakeEffect q s) := by
  unfold pauseTakeEffect
  split
  · exact s.onQuire_apart q _
  · exact State.Apart.refl s q

theorem autoResume_apart (q : QId) (s : State) : s.Apart q (autoResume q s) := by
  unfold autoResume
  dsimp only
  split
  · exact s.onQuire_apart q _
  · exact State.Apart.refl s q

theorem verdictHoldExpiry_apart (q : QId) (id : Nat) (s : State) : s.Apart q (verdictHoldExpiry q id s) := by
  unfold verdictHoldExpiry
  split
  · split
    · exact s.onQuire_apart q _
    · exact State.Apart.refl s q
  · exact State.Apart.refl s q

theorem State.collationFails_apart (s : State) (q : QId) (d : ReplyTo) (st : Byte) (phase key elapsedNs : Nat) :
    s.Apart q (s.collationFails q d st phase key elapsedNs) := (s.onQuire_apart q _).reply _ _ _ _

/-- What the completion of a collation leaves when it commits: the floor, the supplies and `EI_EN` follow the quire. -/
theorem State.commit_apart (s : State) (q : QId) (y : Quire) : s.Apart q ((s.setQuire q y).setFloor q).retarget.eiEvaluate := by
  have hset : s.Apart q (s.setQuire q y) := s.modQuire_apart q fun _ => y
  refine (hset.trans (State.setFloor_apart _ q)).keep fun r _ => ?_
  simp [State.quire]

theorem collationComplete_apart (q : QId) (vpinMv elapsedNs : Nat) (s : State) : s.Apart q (collationComplete q vpinMv elapsedNs s) := by
  unfold collationComplete
  extract_lets x
  split
  · split
    · exact s.collationFails_apart q _ _ _ _ _
    · split
      · exact State.Apart.refl s q
      · split
        · exact s.collationFails_apart q _ _ _ _ _
        · split
          · exact (s.commit_apart q _).reply _ _ _ _
          · exact s.commit_apart q _
  · split
    · exact (s.modQuire_apart q _).reply _ _ _ _
    · exact State.Apart.refl s q
  · exact State.Apart.refl s q

theorem State.loadChecked_apart (s : State) (q : QId) (g : Nat) (d : ReplyTo) (y : SigState) (buf : BufState) (st : Byte) :
    s.Apart q (s.loadChecked q g d y buf st) := (s.onQuire_apart q _).reply _ _ _ _

theorem loadCheckDone_apart (q : QId) (g : Nat) (s : State) : s.Apart q (loadCheckDone q g s) := by
  unfold loadCheckDone
  extract_lets x made y t
  have ht : s.Apart q t := s.modQuire_apart q _
  split
  · split
    · exact s.loadChecked_apart q _ _ _ _ _
    · split
      · exact State.Apart.refl s q
      · exact State.Apart.ite (ht.trans (t.loadChecked_apart q _ _ _ _ _)) (ht.trans (t.loadChecked_apart q _ _ _ _ _))
  · exact State.Apart.refl s q

theorem vpinSettled_apart (q : QId) (mv : Nat) (s : State) : s.Apart q (vpinSettled q mv s) := by
  have hcompare := (s.onQuire_apart q fun x => x.w.vpinCompare s.ctx mv).modQuire fun x => { x with vpinHeld := x.vpinOk }
  unfold vpinSettled
  dsimp only
  split
  · exact hcompare.modQuire _
  · exact hcompare

theorem tmuGateOpen_apart (q : QId) (k : TmuId) (s : State) : s.Apart q (tmuGateOpen q k s) := by
  unfold tmuGateOpen
  split
  · split
    · exact s.modQuire_apart q _
    · exact State.Apart.refl s q
  · exact State.Apart.refl s q

theorem tmuEdge_apart (q : QId) (k : TmuId) (ch : Channel) (rising : Bool) (at_ : Int) (s : State) : s.Apart q (tmuEdge q k ch rising at_ s) := by
  have hhold := s.onQuire_apart q fun x => x.w.holdOn s.ctx
  unfold tmuEdge
  dsimp only
  split
  · exact hhold.modQuire _
  · exact hhold

theorem dramRateRequest_apart (q : QId) (s : State) : s.Apart q (dramRateRequest q s) := by
  unfold dramRateRequest
  dsimp only
  split
  · exact State.Apart.refl s q
  · split
    · exact (s.modQuire_apart q _).keep fun r _ => by rw [State.bump_quire]
    · split
      · exact s.modQuire_apart q _
      · exact State.Apart.refl s q

theorem writeCrcAlert_apart (q : QId) (s : State) : s.Apart q (writeCrcAlert q s) := by
  have halert := s.onQuire_apart q fun x => x.w.writeCrcAlert
  unfold writeCrcAlert
  dsimp only
  split
  · exact halert.trans (State.freeLine_apart _ q _)
  · exact halert

theorem caParityAlert_apart (q : QId) (s : State) : s.Apart q (caParityAlert q s) := by
  have halert := s.onQuire_apart q fun x => x.w.caParityAlert
  unfold caParityAlert
  dsimp only
  split
  · exact halert.trans (State.freeLine_apart _ q _)
  · exact halert

theorem selftestDone_apart (q : QId) (failed : BitVec 5) (durationUs : Nat) (s : State) : s.Apart q (selftestDone q failed durationUs s) := by
  unfold selftestDone
  split
  · exact (s.modQuire_apart q _).reply _ _ _ _
  · exact s.modQuire_apart q _

/-- An event of a quire is carried out, and keeps every other quire apart. -/
theorem exec_apart (i : Instr) (hq : eventQuire i = some q) (h : s.heldPackets = []) : ∃ t, exec i s = .next t ∧ s.Apart q t := by
  cases i <;> simp only [eventQuire, Option.some.injEq, reduceCtorEq] at hq <;> subst hq
  case collationComplete => exact ⟨_, rfl, collationComplete_apart _ _ _ s⟩
  case armFillDone => exact ⟨_, rfl, armFillDone_apart _ s⟩
  case startAtTime => exact ⟨_, rfl, startAtTime_apart _ s⟩
  case stopTakeEffect q =>
    obtain ⟨hapart, hheld⟩ := stopTakeEffect_apart q s
    exact ⟨_, rfl, hapart.takeStreams (hheld.trans h)⟩
  case pauseTakeEffect => exact ⟨_, rfl, pauseTakeEffect_apart _ s⟩
  case loadCheckDone => exact ⟨_, rfl, loadCheckDone_apart _ _ s⟩
  case tmuGateOpen => exact ⟨_, rfl, tmuGateOpen_apart _ _ s⟩
  case tmuEdge => exact ⟨_, rfl, tmuEdge_apart _ _ _ _ _ s⟩
  case verdictHoldExpiry => exact ⟨_, rfl, verdictHoldExpiry_apart _ _ s⟩
  case autoResume => exact ⟨_, rfl, autoResume_apart _ s⟩
  case vpinWindowSettled => exact ⟨_, rfl, vpinSettled_apart _ _ s⟩
  case dramRateRequest => exact ⟨_, rfl, dramRateRequest_apart _ s⟩
  case writeCrcAlert => exact ⟨_, rfl, writeCrcAlert_apart _ s⟩
  case caParityAlert => exact ⟨_, rfl, caParityAlert_apart _ s⟩
  case selftestDone => exact ⟨_, rfl, selftestDone_apart _ _ _ s⟩
  case dramRead q r =>
    refine ⟨_, rfl, ?_⟩
    split
    · split
      · exact (s.onQuire_apart q _).trans (State.freeLine_apart _ q _)
      · exact s.onQuire_apart q _
    · exact s.onQuire_apart q _
  case migrationCopy q r f =>
    refine ⟨_, rfl, ?_⟩
    split
    · split
      · exact (s.onQuire_apart q _).trans (State.freeLine_apart _ q _)
      · exact s.onQuire_apart q _
    · exact s.onQuire_apart q _
  case rateChange q =>
    obtain ⟨hapart, hheld⟩ := (s.onQuire q fun x => x.w.rateChange).serveRaw_apart q
    exact ⟨_, rfl, ((s.onQuire_apart q _).trans hapart).takeStreams (hheld.trans (by simpa using h))⟩
  case chunkDue r =>
    refine ⟨_, rfl, ?_⟩
    split
    · exact s.onQuire_apart _ _
    · exact State.Apart.refl s _
  case waitTimeExpiry q =>
    refine ⟨_, rfl, ?_⟩
    split
    · exact s.onQuire_apart _ _
    · exact State.Apart.refl s _
  case decisionPoint | waitTimeout | chunkRelease | dramCommandSlot => exact ⟨_, rfl, (s.onQuire_apart _ _).takeStreams (by simpa using h)⟩
  case play | matchJump | loopBegin | loopEnd | call | ret | jump | prefetchRequest | operandArrival | pmuApertureStart | mr4Read | refreshWindowEnd
      | dqsDriftRead | fetchDeadline => exact ⟨_, rfl, s.modQuire_apart _ _⟩
  all_goals exact ⟨_, rfl, s.onQuire_apart _ _⟩

end Sys2Proof.Machine

namespace Sys2Proof.Proofs

open Sys2Proof.Machine

/-- Settles O59: an event of a quire is a step confined to it, and what the chip does for such a step lets another quire go at most. -/
theorem quiresStayApart : Obligations.QuiresStayApart := fun _ i _ hq h => exec_apart i hq h

end Sys2Proof.Proofs
end

section
/-! A step, and the state right after reset. -/

namespace Sys2Proof.Machine

theorem State.reset_quire (q : QId) : State.reset.quire q = .reset := by simp [State.quire, State.reset]
theorem State.reset_session (k : LinkId) : State.reset.session k = .reset := by simp [State.session, State.reset]
theorem State.reset_link (k : LinkId) : State.reset.link k = .reset := by simp [State.link, State.reset]
theorem State.reset_lane (n : LaneId) : State.reset.lane n = .reset := by simp [State.lane, State.reset]

/-- No register is written at reset: each reads as its table gives it (R571). -/
theorem State.reset_reg (k : Nat) : State.reset.reg k = chipReset k := rfl

/-- Staging registers of a quire that has written none (R37, R141). -/
theorem Quire.reset_stg : Quire.reset.stg 0x01 0 = 0x200 ∧ Quire.reset.stg 0x01 4 = 8192 ∧ Quire.reset.stg 0x01 8 = 512 ∧ Quire.reset.stg 0x08 0 = 1200
    ∧ Quire.reset.stg 0x0C 0 = 0x01000000 ∧ Quire.reset.stg 0x10 0 = 0x00200700 ∧ Quire.reset.stg 0x11 0 = 0x08000001 := by decide

/-- Chip registers that have been written by nobody (R571, R639, R698 to R700, R736, R737, R790, R791). -/
theorem chipReset_pages : chipReset (rk 1 0) = 1 ∧ chipReset (rk 3 0) = 4000 ∧ chipReset (rk 3 8) = 2000 ∧ chipReset (rk 5 0) = 0x40967D0A ∧ chipReset (rk 5 4) = 95000
    ∧ chipReset (rk 5 8) = 20000 ∧ chipReset (rk 5 0xC) = 0x10101010 ∧ chipReset (rk 5 0x10) = 0x10101010 ∧ chipReset (rk 6 0) = 20 ∧ chipReset (rk 6 4) = 0
    ∧ chipReset (rk 7 0) = 0x1010 ∧ chipReset (rk 8 4) = 1000 ∧ chipReset (rk 0xA 0) = 1 := by decide

theorem chipReset_lane : ∀ n : LaneId, chipReset (nkey n 0) = 0x20000001 := by decide
theorem chipReset_link : ∀ k : LinkId, chipReset (lkey k 8) = 0x1000 := by decide

end Sys2Proof.Machine

namespace Sys2Proof.Proofs
open Sys2Proof.Machine

/-- Settles O56. -/
theorem stepRunsTheFrontCommand : Obligations.StepRunsTheFrontCommand := by
  unfold Obligations.StepRunsTheFrontCommand
  intro s c rest
  constructor <;> intro h <;> simp only [step, h]

/-- Settles O57: the quires, sessions, links and lanes are those at reset, and a register that nobody has written reads as its table says. -/
theorem resetState : Obligations.ResetState := by
  unfold Obligations.ResetState
  simp only [State.reset_quire, State.reset_session, State.reset_link, State.reset_lane, State.reset_reg, Quire.reset_stg, chipReset_pages, chipReset_lane, chipReset_link]
  refine ⟨fun _ => ?_, fun _ => ⟨rfl, rfl⟩, fun _ => rfl, SinterLog.reset_ordered, ?_⟩
  · exact ⟨rfl, rfl, rfl, rfl, rfl, rfl, rfl, rfl, rfl, rfl, rfl, trivial, trivial, trivial, trivial, trivial, trivial, trivial⟩
  · exact ⟨rfl, rfl, rfl, rfl, rfl, rfl, rfl, rfl, rfl, rfl, rfl, trivial, trivial, trivial, trivial, trivial, trivial, trivial, trivial, trivial, trivial, trivial, trivial, trivial, fun _ => trivial, fun _ => trivial⟩

end Sys2Proof.Proofs
end

section
/-! Instructions of an engine that go on: what they write, and where they go (R160 to R164). -/

namespace Sys2Proof.Machine

/-! ### Instructions that end with a register write -/

/-- An ALU instruction turns its engine by the write of its result. -/
theorem State.turns_alu (s : State) (q : QId) (e : EngId) (f : FmtA) (i : StoreReads → Instr) (op cost : Nat) (g : DWord → DWord → DWord) {v : DWord}
    (hexec : ∀ o, exec (i o) s = .next (s.onQuire q fun x => x.w.runOn e.val (encA op f) o noReads (alu f cost g)))
    (h0 : f.imm = 0) (hp : (s.engineOf q e).pc + 1 < (s.engineOf q e).progLen) (hv : g ((s.engineOf q e).x f.ra) ((s.engineOf q e).x f.rb) = v) :
    s.Turns q e i (encA op f) cost ((s.engineOf q e).pc + 1) ((s.engineOf q e).setX f.rd v) := by
  refine s.turns_of_go q e _ _ _ _ _ noReads _ _ hexec (fun _ => rfl) fun ha => ?_
  rw [alu_go f cost g _ h0 hp ha, hv]
  simp [Engine.after]

/-- The same for an instruction with an immediate. -/
theorem State.turns_aluImm (s : State) (q : QId) (e : EngId) (f : FmtB) (i : StoreReads → Instr) (op : Nat) (g : DWord → DWord) {v : DWord}
    (hexec : ∀ o, exec (i o) s = .next (s.onQuire q fun x => x.w.runOn e.val (encB op f) o noReads (aluImm f g)))
    (hp : (s.engineOf q e).pc + 1 < (s.engineOf q e).progLen) (hv : g ((s.engineOf q e).x f.ra) = v) :
    s.Turns q e i (encB op f) 1 ((s.engineOf q e).pc + 1) ((s.engineOf q e).setX f.rd v) := by
  refine s.turns_of_go q e _ _ _ _ _ noReads _ _ hexec (fun _ => rfl) fun ha => ?_
  rw [aluImm_go f g _ hp ha, hv]
  simp [Engine.after]

/-- An instruction whose fields are legal and whose work is one register write turns its engine by that write. -/
theorem State.turns_put (s : State) (q : QId) (e : EngId) (i : StoreReads → Instr) (word : Word) (cost : Nat) (r : BitVec 5) (reads : Engine → Bool) (b legal : Bool)
    (g : Engine → DWord) {v : DWord}
    (hexec : ∀ o, exec (i o) s = .next (s.onQuire q fun x => x.w.runOn e.val word o reads fun x => issue legal cost x fun y => y.put r (g y)))
    (hl : legal = true) (hreads : (s.engineOf q e).Affords cost → reads (s.engineOf q e) = b)
    (hp : (s.engineOf q e).pc + 1 < (s.engineOf q e).progLen)
    (hv : g { s.engineOf q e with opsUsed := (s.engineOf q e).opsUsed + cost } = v) :
    s.Turns q e i word cost ((s.engineOf q e).pc + 1) ((s.engineOf q e).setX r v) b := by
  refine s.turns_of_go q e _ _ _ _ _ reads _ b hexec hreads fun ha => ?_
  rw [issuePut_go legal r cost g _ hl hp ha, hv]
  simp [Engine.after]

/-! ### Registers (R160) -/

theorem Engine.x_setX_same (e : Engine) {r : BitVec 5} (hr : r ≠ 0) (v : DWord) : (e.setX r v).x r = v := by
  simp only [Engine.setX, Engine.x, if_neg hr, sget_sput_same]

theorem Engine.x_setX_other (e : Engine) {r : BitVec 5} (v : DWord) {k : BitVec 5} (hk : k ≠ r) : (e.setX r v).x k = e.x k := by
  have hn : k.toNat ≠ r.toNat := fun h => hk (BitVec.eq_of_toNat_eq h)
  unfold Engine.setX
  split
  · rfl
  · simp only [Engine.x, sget_sput_other _ _ _ _ _ hn]

/-! ### What the opcode table says of a result, in the machine's terms -/

theorem shiftLeft_eq_ofNat (a : DWord) (n : Nat) : a <<< n = BitVec.ofNat 64 (a.toNat * 2 ^ n) := by
  apply BitVec.eq_of_toNat_eq
  rw [BitVec.toNat_shiftLeft, BitVec.toNat_ofNat, Nat.shiftLeft_eq]

theorem ushiftRight_eq_ofNat (a : DWord) (n : Nat) : a >>> n = BitVec.ofNat 64 (a.toNat / 2 ^ n) := by
  apply BitVec.eq_of_toNat_eq
  rw [BitVec.toNat_ushiftRight, BitVec.toNat_ofNat, Nat.shiftRight_eq_div_pow, Nat.mod_eq_of_lt ((Nat.div_le_self _ _).trans_lt a.isLt)]

theorem mul_eq_ofNat (a b : DWord) : a * b = BitVec.ofNat 64 (a.toNat * b.toNat) := by
  apply BitVec.eq_of_toNat_eq
  rw [BitVec.toNat_mul, BitVec.toNat_ofNat]

theorem popcount_eq_countP (v : DWord) : popcount v = (List.range 64).countP fun i => v.getLsbD i := List.countP_eq_length_filter.symm

theorem smaller_eq_ofNat (a b : DWord) : (if a < b then a else b) = BitVec.ofNat 64 (min a.toNat b.toNat) := by
  apply BitVec.eq_of_toNat_eq
  rw [apply_ite BitVec.toNat, BitVec.toNat_ofNat]
  split <;> bv_omega

theorem larger_eq_ofNat (a b : DWord) : (if a < b then b else a) = BitVec.ofNat 64 (max a.toNat b.toNat) := by
  apply BitVec.eq_of_toNat_eq
  rw [apply_ite BitVec.toNat, BitVec.toNat_ofNat]
  split <;> bv_omega

/-! ### UGET and RGET -/

theorem uget_turns (s : State) (q : QId) (e : EngId) (f : FmtB) {v : DWord} (hf : f.ra = 0) (hp : (s.engineOf q e).pc + 1 < (s.engineOf q e).progLen)
    (hv : ({ s.engineOf q e with opsUsed := (s.engineOf q e).opsUsed + 1 } : Engine).uget (f.imm.toNat % 16) = v) :
    s.Turns q e (.uget q e f) (encB 0x28 f) 1 ((s.engineOf q e).pc + 1) ((s.engineOf q e).setX f.rd v) :=
  s.turns_put q e _ _ 1 f.rd noReads false _ _ (fun _ => rfl) (decide_eq_true hf) (fun _ => rfl) hp hv

theorem rget_turns (s : State) (q : QId) (e : EngId) (f : FmtB) (hf : f.ra = 0) (hn : f.imm.toNat < 28) (hp : (s.engineOf q e).pc + 1 < (s.engineOf q e).progLen) :
    s.Turns q e (.rget q e f) (encB 0x39 f) 2 ((s.engineOf q e).pc + 1)
      ((s.engineOf q e).setX f.rd (BitVec.ofNat 64 (unle (bread (0x20 + 8 * f.imm.toNat) 8 (s.engineOf q e).dstore)))) (reads := true) := by
  have hl : decide (f.ra = 0 ∧ f.imm.toNat < 28) = true := decide_eq_true ⟨hf, hn⟩
  refine s.turns_put q e _ _ 2 f.rd (rgetReads f) true _ _ (fun _ => rfl) hl (fun ha => ?_) hp rfl
  rw [rgetReads, hl]
  exact Engine.issues_of_affords _ _ ha

end Sys2Proof.Machine

namespace Sys2Proof.Proofs
open Sys2Proof.Machine

/-- The instructions of format A that write `rd` (R164). -/
theorem aluResults (s : State) (q : QId) (e : EngId) (f : FmtA) :
    let x := s.engineOf q e
    let a := x.x f.ra
    let b := x.x f.rb
    let writes := fun (i : StoreReads → Instr) (op cost : Nat) (v : DWord) => s.Turns q e i (encA op f) cost (x.pc + 1) (x.setX f.rd v)
    x.pc + 1 < x.progLen → f.imm = 0 →
      writes (.add q e f) 0x01 1 (a + b)
      ∧ writes (.sub q e f) 0x02 1 (a - b)
      ∧ writes (.and q e f) 0x03 1 (a &&& b)
      ∧ writes (.or q e f) 0x04 1 (a ||| b)
      ∧ writes (.xor q e f) 0x05 1 (a ^^^ b)
      ∧ writes (.shl q e f) 0x06 1 (BitVec.ofNat 64 (a.toNat * 2 ^ (b.toNat % 64)))
      ∧ writes (.shr q e f) 0x07 1 (BitVec.ofNat 64 (a.toNat / 2 ^ (b.toNat % 64)))
      ∧ writes (.mul q e f) 0x08 2 (BitVec.ofNat 64 (a.toNat * b.toNat))
      ∧ (f.rb = 0 → writes (.popc q e f) 0x09 1 (BitVec.ofNat 64 ((List.range 64).countP fun i => a.getLsbD i)))
      ∧ writes (.minu q e f) 0x0A 1 (BitVec.ofNat 64 (min a.toNat b.toNat))
      ∧ writes (.maxu q e f) 0x0B 1 (BitVec.ofNat 64 (max a.toNat b.toNat)) := by
  intro x a b writes hp h0
  refine ⟨?_, ?_, ?_, ?_, ?_, ?_, ?_, ?_, fun hb => ?_, ?_, ?_⟩
  · exact s.turns_alu q e f _ 0x01 1 _ (fun _ => rfl) h0 hp rfl
  · exact s.turns_alu q e f _ 0x02 1 _ (fun _ => rfl) h0 hp rfl
  · exact s.turns_alu q e f _ 0x03 1 _ (fun _ => rfl) h0 hp rfl
  · exact s.turns_alu q e f _ 0x04 1 _ (fun _ => rfl) h0 hp rfl
  · exact s.turns_alu q e f _ 0x05 1 _ (fun _ => rfl) h0 hp rfl
  · exact s.turns_alu q e f _ 0x06 1 _ (fun _ => rfl) h0 hp (shiftLeft_eq_ofNat _ _)
  · exact s.turns_alu q e f _ 0x07 1 _ (fun _ => rfl) h0 hp (ushiftRight_eq_ofNat _ _)
  · exact s.turns_alu q e f _ 0x08 2 _ (fun _ => rfl) h0 hp (mul_eq_ofNat _ _)
  · exact s.turns_put q e _ _ 1 f.rd noReads false _ _ (fun _ => rfl) (decide_eq_true ⟨hb, h0⟩) (fun _ => rfl) hp (congrArg _ (popcount_eq_countP _))
  · exact s.turns_alu q e f _ 0x0A 1 _ (fun _ => rfl) h0 hp (smaller_eq_ofNat _ _)
  · exact s.turns_alu q e f _ 0x0B 1 _ (fun _ => rfl) h0 hp (larger_eq_ofNat _ _)

/-- Settles O1: each instruction issues, and ends with one register write. -/
theorem engineRegisterResults : Obligations.EngineRegisterResults := by
  refine ⟨?_, ?_⟩
  · intro s q e f x a b writes hp h0
    obtain ⟨h1, h2, h3, h4, h5, h6, h7, h8, h9, h10, h11⟩ := aluResults s q e f hp h0
    exact ⟨h1, h2, h3, h4, h5, h6, h7, h8, h9, h10, h11, x.x_zero, fun hr v => hr ▸ x.setX_zero v,
      fun hr v => ⟨x.x_setX_same hr v, fun k hk => x.x_setX_other v hk⟩⟩
  · intro s q e f x a n writes hp
    refine ⟨?_, ?_, ?_, ?_, ?_, ?_, fun hf => ?_, fun hf hn => ?_, fun hf hn => ?_, fun hf hn => ?_, fun hf hn => rget_turns s q e f hf hn hp⟩
    · exact s.turns_aluImm q e f _ 0x10 _ (fun _ => rfl) hp rfl
    · exact s.turns_aluImm q e f _ 0x11 _ (fun _ => rfl) hp rfl
    · exact s.turns_aluImm q e f _ 0x12 _ (fun _ => rfl) hp rfl
    · exact s.turns_aluImm q e f _ 0x13 _ (fun _ => rfl) hp rfl
    · exact s.turns_aluImm q e f _ 0x14 _ (fun _ => rfl) hp (shiftLeft_eq_ofNat _ _)
    · exact s.turns_aluImm q e f _ 0x15 _ (fun _ => rfl) hp (ushiftRight_eq_ofNat _ _)
    · exact s.turns_put q e _ _ 1 f.rd noReads false _ _ (fun _ => rfl) (decide_eq_true hf) (fun _ => rfl) hp rfl
    · have h14 : ¬n % 16 = 14 := by omega
      have h15 : ¬n % 16 = 15 := by omega
      exact uget_turns s q e f hf hp (by rw [Engine.uget, if_neg h14, if_neg h15])
    · exact uget_turns s q e f hf hp (by rw [Engine.uget, if_pos hn])
    · have h14 : ¬n % 16 = 14 := by omega
      exact uget_turns s q e f hf hp (by rw [Engine.uget, if_neg h14, if_pos hn])

end Sys2Proof.Proofs
end

section
/-! Instructions of an engine that read or write the data store, or go elsewhere in the program (R149, R164). -/

namespace Sys2Proof.Machine

/-! ### Loads and stores (R149) -/

/-- LD and LDW at an address that they may read. -/
theorem State.turns_load (s : State) (q : QId) (e : EngId) (f : FmtB) (i : StoreReads → Instr) (op n : Nat)
    (hexec : ∀ o, exec (i o) s = .next (s.onQuire q fun x => x.w.runOn e.val (encB op f) o (loadReads f n) (eLoad f n)))
    (hp : (s.engineOf q e).pc + 1 < (s.engineOf q e).progLen) (hn : (s.engineOf q e).addr f % n = 0) (hr : readable ((s.engineOf q e).addr f) n = true) :
    s.Turns q e i (encB op f) 2 ((s.engineOf q e).pc + 1)
      ((s.engineOf q e).setX f.rd (BitVec.ofNat 64 (unle (bread ((s.engineOf q e).addr f) n (s.engineOf q e).dstore)))) (reads := true) := by
  refine s.turns_of_go q e _ _ _ _ _ (loadReads f n) _ true hexec (fun ha => ?_) fun ha => ?_
  · simp [loadReads, Engine.issues_of_affords _ _ ha, hn, hr]
  · have haddr : ({ s.engineOf q e with opsUsed := (s.engineOf q e).opsUsed + 2 } : Engine).addr f = (s.engineOf q e).addr f := rfl
    rw [eLoad, issue_ok 2 _ _ ha]
    simp only [haddr, hn, hr, decide_true, Bool.and_true, if_true]
    exact Engine.put_after _ 2 f.rd _ hp

/-- ST and STW at an address that they may write. -/
theorem State.turns_store (s : State) (q : QId) (e : EngId) (f : FmtB) (i : StoreReads → Instr) (op n : Nat)
    (hexec : ∀ o, exec (i o) s = .next (s.onQuire q fun x => x.w.runOn e.val (encB op f) o noReads (eStore f n)))
    (hp : (s.engineOf q e).pc + 1 < (s.engineOf q e).progLen) (hn : (s.engineOf q e).addr f % n = 0) (hw : writable ((s.engineOf q e).addr f) n = true) :
    s.Turns q e i (encB op f) 1 ((s.engineOf q e).pc + 1)
      { s.engineOf q e with dstore := bwrite ((s.engineOf q e).addr f) (le n ((s.engineOf q e).x f.rd).toNat) (s.engineOf q e).dstore } := by
  refine s.turns_of_go q e _ _ _ _ _ noReads _ false hexec (fun _ => rfl) fun ha => ?_
  have haddr : ({ s.engineOf q e with opsUsed := (s.engineOf q e).opsUsed + 1 } : Engine).addr f = (s.engineOf q e).addr f := rfl
  rw [eStore, issue_ok 1 _ _ ha]
  simp only [haddr, hn, hw, decide_true, Bool.and_true, if_true]
  exact Engine.next_go _ hp

theorem readable_of (a n : Nat) (h : a + n ≤ 0x20 ∨ (0x100 ≤ a ∧ a + n ≤ 0xD08) ∨ (0xE00 ≤ a ∧ a + n ≤ 0x2000)) : readable a n = true := by
  simpa [readable, or_assoc] using h

theorem writable_of (a n : Nat) (h : 0xE00 ≤ a) (h' : a + n ≤ 0x1C00) : writable a n = true := by simp [writable, h, h']

theorem length_le (n v : Nat) : (le n v).length = n := by
  induction n generalizing v with
  | zero => rfl
  | succ n ih => simp [le, ih]

/-- The bytes of a number, least significant first (R17). -/
theorem getElem_le (n v i : Nat) (h : i < (le n v).length) : (le n v)[i] = BitVec.ofNat 8 (v / 256 ^ i) := by
  induction n generalizing v i with
  | zero => simp [le] at h
  | succ n ih =>
    cases i with
    | zero => simp [le]
    | succ i =>
      have := ih (v / 256) i (by simpa [le] using h)
      simpa [le, Nat.div_div_eq_div_mul, ← pow_succ'] using this

/-! ### Where execution goes on (R164) -/

/-- A target inside the program is gone to. -/
theorem Engine.goto_inside (x : Engine) (t : Int) (h : 0 ≤ t ∧ t < x.progLen) : x.goto t = .go { x with pc := t.toNat } := by
  rw [Engine.goto, if_pos h]

/-- A branch that is taken to a target inside the program, and one that is not. -/
theorem State.turns_branch (s : State) (q : QId) (e : EngId) (f : FmtC) (i : StoreReads → Instr) (op : Nat) (taken : DWord → DWord → Bool) {c : Prop}
    (hexec : ∀ o, exec (i o) s = .next (s.onQuire q fun x => x.w.runOn e.val (encC op f) o noReads (eBranch f taken)))
    (hc : taken ((s.engineOf q e).x f.ra) ((s.engineOf q e).x f.rb) = true ↔ c) :
    let x := s.engineOf q e
    let target := (x.pc : Int) + 1 + f.off.toInt
    (c → 0 ≤ target ∧ target < x.progLen → s.Turns q e i (encC op f) 1 target.toNat x)
      ∧ (¬c → x.pc + 1 < x.progLen → s.Turns q e i (encC op f) 1 (x.pc + 1) x) := by
  refine ⟨fun ht hin => ?_, fun ht hp => ?_⟩ <;> refine s.turns_of_go q e _ _ _ _ _ noReads _ false hexec (fun _ => rfl) fun ha => ?_ <;>
    rw [eBranch, issue_ok 1 _ _ ha]
  · simp only [Engine.x_ops, hc.mpr ht, if_true]
    exact Engine.goto_inside _ _ hin
  · simp only [Engine.x_ops, mt hc.mp ht, Bool.false_eq_true, if_false]
    exact Engine.next_go _ hp

/-- A register write, and then a jump inside the program. -/
theorem Engine.setX_goto_after (x : Engine) (cost : Nat) (r : BitVec 5) (v : DWord) {t : Int} (h : 0 ≤ t ∧ t < x.progLen) :
    (({ x with opsUsed := x.opsUsed + cost } : Engine).setX r v).goto t = .go ((x.setX r v).after cost t.toNat) := by
  rw [Engine.goto_inside _ t (by rwa [Engine.setX_progLen]), Engine.setX_ops]
  simp [Engine.after]

theorem Engine.x_setX_ops (x : Engine) (n : Nat) (r k : BitVec 5) (v : DWord) : (({ x with opsUsed := n } : Engine).setX r v).x k = (x.setX r v).x k := by
  rw [Engine.setX_ops]
  rfl

/-- LOOP counts down and goes back while its register is not 0. -/
theorem eLoop_eq (f : FmtC) (x : Engine) (hf : f.rb = 0) (ha : x.Affords 1) :
    eLoop f x = if (x.setX f.ra (x.x f.ra - 1)).x f.ra ≠ 0
      then (({ x with opsUsed := x.opsUsed + 1 } : Engine).setX f.ra (x.x f.ra - 1)).goto (x.pc + 1 + f.off.toInt)
      else ({ x with opsUsed := x.opsUsed + 1 } : Engine).put f.ra (x.x f.ra - 1) := by
  rw [eLoop, decide_eq_true hf, issue_ok 1 x _ ha]
  simp only [Engine.x_ops, Engine.x_setX_ops, Engine.setX_pc]
  rfl

theorem loop_turns (s : State) (q : QId) (e : EngId) (f : FmtC) (hf : f.rb = 0) :
    let x := s.engineOf q e
    let target := (x.pc : Int) + 1 + f.off.toInt
    let counted := x.setX f.ra (x.x f.ra - 1)
    (counted.x f.ra ≠ 0 → 0 ≤ target ∧ target < x.progLen → s.Turns q e (.loop q e f) (encC 0x24 f) 1 target.toNat counted)
      ∧ (counted.x f.ra = 0 → x.pc + 1 < x.progLen → s.Turns q e (.loop q e f) (encC 0x24 f) 1 (x.pc + 1) counted) := by
  refine ⟨fun hc hin => ?_, fun hc hp => ?_⟩ <;>
    refine s.turns_of_go q e _ _ _ _ _ noReads (eLoop f) false (fun _ => rfl) (fun _ => rfl) fun ha => ?_
  · rw [eLoop_eq f _ hf ha, if_pos hc]
    exact Engine.setX_goto_after _ 1 f.ra _ hin
  · rw [eLoop_eq f _ hf ha, if_neg (not_not_intro hc)]
    exact Engine.put_after _ 1 f.ra _ hp

theorem jal_turns (s : State) (q : QId) (e : EngId) (f : FmtB) (hf : f.ra = 0) :
    let x := s.engineOf q e
    let target := (x.pc : Int) + 1 + f.imm.toInt
    0 ≤ target ∧ target < x.progLen → s.Turns q e (.jal q e f) (encB 0x25 f) 1 target.toNat (x.setX f.rd (BitVec.ofNat 64 (x.pc + 1))) := by
  intro x target hin
  refine s.turns_of_go q e _ _ _ _ _ noReads (eJal f) false (fun _ => rfl) (fun _ => rfl) fun ha => ?_
  rw [eJal, decide_eq_true hf, issue_ok 1 _ _ ha]
  exact Engine.setX_goto_after x 1 f.rd _ hin

theorem jr_turns (s : State) (q : QId) (e : EngId) (f : FmtA) (hd : f.rd = 0) (hb : f.rb = 0) (h0 : f.imm = 0)
    (hin : ((s.engineOf q e).x f.ra).toNat % 2048 < (s.engineOf q e).progLen) :
    s.Turns q e (.jr q e f) (encA 0x26 f) 1 (((s.engineOf q e).x f.ra).toNat % 2048) (s.engineOf q e) := by
  refine s.turns_of_go q e _ _ _ _ _ noReads (eJr f) false (fun _ => rfl) (fun _ => rfl) fun ha => ?_
  rw [eJr, decide_eq_true (And.intro hd ⟨hb, h0⟩), issue_ok 1 _ _ ha]
  exact Engine.goto_go _ _ hin

theorem nop_turns (s : State) (q : QId) (e : EngId) (f : FmtA) (h : f.rd = 0 ∧ f.ra = 0 ∧ f.rb = 0 ∧ f.imm = 0)
    (hp : (s.engineOf q e).pc + 1 < (s.engineOf q e).progLen) : s.Turns q e (.nop q e f) (encA 0x00 f) 1 ((s.engineOf q e).pc + 1) (s.engineOf q e) := by
  refine s.turns_of_go q e _ _ _ _ _ noReads (eNop f) false (fun _ => rfl) (fun _ => rfl) fun ha => ?_
  rw [eNop, decide_eq_true h, issue_ok 1 _ _ ha]
  exact Engine.next_go _ hp

end Sys2Proof.Machine

namespace Sys2Proof.Proofs
open Sys2Proof.Machine

/-- Settles O2. -/
theorem engineLoadsAndStores : Obligations.EngineLoadsAndStores := by
  unfold Obligations.EngineLoadsAndStores
  intro s q e f x addr reads stored hp
  refine ⟨fun hn hr => ?_, fun hn hr => ?_, fun hn hlo hhi => ?_, fun hn hlo hhi => ?_, fun n i hi => ?_, fun n b hb => ?_⟩
  · exact s.turns_load q e f _ 0x18 8 (fun _ => rfl) hp hn (readable_of _ _ hr)
  · exact s.turns_load q e f _ 0x1A 4 (fun _ => rfl) hp hn (readable_of _ _ hr)
  · exact s.turns_store q e f _ 0x19 8 (fun _ => rfl) hp hn (writable_of _ _ hlo hhi)
  · exact s.turns_store q e f _ 0x1B 4 (fun _ => rfl) hp hn (writable_of _ _ hlo hhi)
  · have hlen : i < (le n (x.x f.rd).toNat).length := by rwa [length_le]
    exact (bget_bwrite_same addr i _ _ hlen).trans (getElem_le _ _ _ hlen)
  · exact bget_bwrite_other addr b _ _ (by rwa [length_le])

/-- Settles O3. -/
theorem engineBranchesAndJumps : Obligations.EngineBranchesAndJumps := by
  unfold Obligations.EngineBranchesAndJumps
  intro s q e f fb fa x a b target inside branch counted
  refine ⟨?_, ?_, ?_, ?_, fun hf => (loop_turns s q e f hf).1, fun hf => (loop_turns s q e f hf).2, fun hf => jal_turns s q e fb hf, jr_turns s q e fa, fun hd ha hb h0 => nop_turns s q e fa ⟨hd, ha, hb, h0⟩⟩
  · exact s.turns_branch q e f (.beq q e f) 0x20 _ (fun _ => rfl) decide_eq_true_iff
  · exact s.turns_branch q e f (.bne q e f) 0x21 _ (fun _ => rfl) decide_eq_true_iff
  · exact s.turns_branch q e f (.bltu q e f) 0x22 _ (fun _ => rfl) decide_eq_true_iff
  · exact s.turns_branch q e f (.bgeu q e f) 0x23 _ (fun _ => rfl) decide_eq_true_iff

end Sys2Proof.Proofs
end

section
/-! The unit registers of an engine, its address generator and its transpose buffer (R161, R165 to R168, R179 to R182). -/

namespace Sys2Proof.Machine

/-- Going on to the next instruction at the cost of this one. -/
theorem Engine.next_after (y : Engine) (cost : Nat) (h : y.pc + 1 < y.progLen) :
    ({ y with opsUsed := y.opsUsed + cost } : Engine).next = .go (y.after cost (y.pc + 1)) := Engine.next_go _ h

/-! ### USET (R161) -/

theorem uset_turns (s : State) (q : QId) (e : EngId) (f : FmtB) (hd : f.rd = 0) (hp : (s.engineOf q e).pc + 1 < (s.engineOf q e).progLen) :
    let x := s.engineOf q e
    let k := f.imm.toNat % 16
    (k < 14 → s.Turns q e (.uset q e f) (encB 0x29 f) 1 (x.pc + 1) { x with unit := sput (fun _ => 0) k (x.x f.ra &&& unitMask.getD k 0) x.unit })
      ∧ (14 ≤ k → s.Turns q e (.uset q e f) (encB 0x29 f) 1 (x.pc + 1) x) := by
  refine ⟨fun hk => ?_, fun hk => ?_⟩ <;> refine s.turns_of_go q e _ _ _ _ _ noReads (eUset f) false (fun _ => rfl) (fun _ => rfl) fun ha => ?_ <;>
    rw [eUset, decide_eq_true hd, issue_ok 1 _ _ ha]
  · rw [if_pos hk]
    exact Engine.next_go _ hp
  · rw [if_neg (not_lt.mpr hk)]
    exact Engine.next_go _ hp

/-! ### The address generator (R165 to R168) -/

/-- Nothing of R168 stands against the counters. -/
theorem Engine.unitBad_eq_false (x : Engine) (h : (∀ c < 3, x.start c ≤ x.limit c) ∧ ∀ c < 3, c ∈ x.order) : x.unitBad = false := by
  obtain ⟨hspan, horder⟩ := h
  have h1 : ((List.range 3).any fun c => decide (x.limit c < x.start c)) = false := by simpa [List.any_eq_false] using hspan
  have h2 : ((List.range 3).all fun c => x.order.contains c) = true := by simpa [List.all_eq_true] using horder
  rw [Engine.unitBad, h1, h2]
  rfl

/-- A counter step touches the unit registers alone. -/
theorem stepCounters_shape (l : List Nat) (x : Engine) : ∃ u, stepCounters l x = { x with unit := u } := by
  induction l generalizing x with
  | nil => exact ⟨x.unit, rfl⟩
  | cons c t ih =>
    simp only [stepCounters]
    split
    · split
      · exact ⟨_, rfl⟩
      · exact ih (x.setU c _)
    · split
      · exact ⟨_, rfl⟩
      · exact ih (x.setU c _)

/-- A counter step does not see the operation count. -/
theorem stepCounters_ops (l : List Nat) (x : Engine) (n : Nat) : stepCounters l { x with opsUsed := n } = { stepCounters l x with opsUsed := n } := by
  induction l generalizing x with
  | nil => rfl
  | cons c t ih =>
    have hu : ∀ c v, ({ x with opsUsed := n } : Engine).setU c v = { x.setU c v with opsUsed := n } := fun _ _ => rfl
    have h1 : ∀ c, ({ x with opsUsed := n } : Engine).u c = x.u c := fun _ => rfl
    have h2 : ∀ c, ({ x with opsUsed := n } : Engine).down c = x.down c := fun _ => rfl
    have h3 : ∀ c, ({ x with opsUsed := n } : Engine).start c = x.start c := fun _ => rfl
    have h4 : ∀ c, ({ x with opsUsed := n } : Engine).limit c = x.limit c := fun _ => rfl
    simp only [stepCounters, hu, h1, h2, h3, h4, ih]
    split <;> split <;> rfl

/-- Seeking touches the unit registers alone. -/
theorem seekCounters_shape (l : List Nat) (n : Nat) (x : Engine) : ∃ u, seekCounters l n x = { x with unit := u } := by
  induction l generalizing n x with
  | nil => exact ⟨x.unit, rfl⟩
  | cons c t ih => exact ih _ (x.setU c _)

theorem seekCounters_ops (l : List Nat) (k : Nat) (x : Engine) (n : Nat) : seekCounters l k { x with opsUsed := n } = { seekCounters l k x with opsUsed := n } := by
  induction l generalizing k x with
  | nil => rfl
  | cons c t ih => exact ih _ (x.setU c _)

theorem Engine.setX_unit (x : Engine) (r : BitVec 5) (v : DWord) : (x.setX r v).unit = x.unit := by
  unfold Engine.setX
  split <;> rfl

/-- An engine that differs by its unit registers goes on alike. -/
theorem Engine.next_after_unit (x y : Engine) (cost : Nat) (hy : ∃ u, y = { x with unit := u }) (hp : x.pc + 1 < x.progLen) :
    ({ y with opsUsed := x.opsUsed + cost } : Engine).next = .go (y.after cost (x.pc + 1)) := by
  obtain ⟨u, rfl⟩ := hy
  exact Engine.next_after { x with unit := u } cost hp

theorem eAgen_go (f : FmtA) (x : Engine) (hf : f.ra = 0 ∧ f.rb = 0 ∧ f.imm = 0) (hb : x.unitBad = false) (hp : x.pc + 1 < x.progLen) (ha : x.Affords 1) :
    eAgen f x = .go ((stepCounters x.order (x.setX f.rd x.addressWord)).after 1 (x.pc + 1)) := by
  have hbad : ({ x with opsUsed := x.opsUsed + 1 } : Engine).unitBad = false := hb
  have horder : ({ x with opsUsed := x.opsUsed + 1 } : Engine).order = x.order := rfl
  have hword : ({ x with opsUsed := x.opsUsed + 1 } : Engine).addressWord = x.addressWord := rfl
  have h := Engine.next_after_unit (x.setX f.rd x.addressWord) _ 1 (stepCounters_shape x.order _) (by rwa [Engine.setX_pc, Engine.setX_progLen])
  rw [Engine.setX_opsUsed, Engine.setX_pc] at h
  rw [eAgen, decide_eq_true hf, issue_ok 1 _ _ ha, hbad, if_neg Bool.false_ne_true, horder, hword, Engine.setX_ops, stepCounters_ops]
  exact h

theorem eAseek_go (f : FmtA) (x : Engine) (hf : f.rd = 0 ∧ f.rb = 0 ∧ f.imm = 0) (hb : x.unitBad = false) (hp : x.pc + 1 < x.progLen) (ha : x.Affords 4) :
    eAseek f x = .go ((seekCounters x.order ((x.x f.ra).toNat % (x.span 0 * x.span 1 * x.span 2)) x).after 4 (x.pc + 1)) := by
  have hbad : ({ x with opsUsed := x.opsUsed + 4 } : Engine).unitBad = false := hb
  rw [eAseek, decide_eq_true hf, issue_ok 4 _ _ ha, hbad, if_neg Bool.false_ne_true, seekCounters_ops]
  exact Engine.next_after_unit x _ 4 (seekCounters_shape _ _ _) hp

theorem eTsrun_go (f : FmtA) (x : Engine) (hf : f.rd = 0 ∧ f.imm = 0) (hok : ¬((x.x f.rb).toNat = 0 ∨ 4096 < (x.x f.rb).toNat ∨ x.vectors < runSum x.runs + (x.x f.rb).toNat))
    (hp : x.pc + 1 < x.progLen) (ha : x.Affords 1) :
    eTsrun f x = .go (({ x with runs := x.runs ++ [((x.x f.ra).toNat % 64, (x.x f.rb).toNat)] } : Engine).after 1 (x.pc + 1)) := by
  rw [eTsrun, decide_eq_true hf, issue_ok 1 _ _ ha]
  refine (if_neg hok).trans ?_
  exact Engine.next_go _ hp

theorem agen_turns (s : State) (q : QId) (e : EngId) (f : FmtA) (hf : f.ra = 0 ∧ f.rb = 0 ∧ f.imm = 0) (hb : (s.engineOf q e).unitBad = false)
    (hp : (s.engineOf q e).pc + 1 < (s.engineOf q e).progLen) :
    let x := s.engineOf q e
    s.Turns q e (.agen q e f) (encA 0x2A f) 1 (x.pc + 1) (stepCounters x.order (x.setX f.rd x.addressWord)) := by
  intro x
  refine s.turns_of_go q e _ _ _ _ _ noReads (eAgen f) false (fun _ => rfl) (fun _ => rfl) fun ha => ?_
  exact eAgen_go f x hf hb hp ha

theorem aseek_turns (s : State) (q : QId) (e : EngId) (f : FmtA) (hf : f.rd = 0 ∧ f.rb = 0 ∧ f.imm = 0) (hb : (s.engineOf q e).unitBad = false)
    (hp : (s.engineOf q e).pc + 1 < (s.engineOf q e).progLen) :
    let x := s.engineOf q e
    s.Turns q e (.aseek q e f) (encA 0x2B f) 4 (x.pc + 1) (seekCounters x.order ((x.x f.ra).toNat % (x.span 0 * x.span 1 * x.span 2)) x) := by
  intro x
  refine s.turns_of_go q e _ _ _ _ _ noReads (eAseek f) false (fun _ => rfl) (fun _ => rfl) fun ha => ?_
  exact eAseek_go f x hf hb hp ha

/-! ### The transpose buffer (R179, R180) -/

theorem unle_le (n v : Nat) : unle (le n v) = v % 256 ^ n := by
  induction n generalizing v with
  | zero => simp [le, unle, Nat.mod_one]
  | succ n ih =>
    rw [le, unle, ih, pow_succ' 256 n, Nat.mod_mul, BitVec.toNat_ofNat]

theorem bread_bwrite_same (a : Nat) (bs : List Byte) (m : Sparse Byte) : bread a bs.length (bwrite a bs m) = bs := by
  refine List.ext_getElem (by simp [bread]) fun i hi hi' => ?_
  simpa [bread] using bget_bwrite_same a i bs m hi'

theorem bread_bwrite_other (a n b : Nat) (bs : List Byte) (m : Sparse Byte) (h : b + n ≤ a ∨ a + bs.length ≤ b) : bread b n (bwrite a bs m) = bread b n m := by
  refine List.map_congr_left fun i hi => ?_
  rw [List.mem_range] at hi
  exact bget_bwrite_other a (b + i) bs m (by omega)

/-- What `n` slots, written with `v` from the cursor on, leave of an engine (R179, R180). -/
structure Engine.Slotted (x y : Engine) (v : BitVec 128) (n : Nat) : Prop where
  frame : y = { x with dstore := y.dstore, cursor := (x.cursor + n) % 64, emitted := x.emitted + 64 * ((x.cursor + n) / 64), groups := y.groups }
  groups : y.groups.length = x.groups.length + (x.cursor + n) / 64
  earlier : y.groups.take x.groups.length = x.groups
  slots : ∀ k < 64, y.slot k = if (k + 64 - x.cursor) % 64 < n then v else x.slot k
  bytes : ∀ i, i < 0x1C00 ∨ 0x2000 ≤ i → bget i y.dstore = bget i x.dstore

theorem Engine.slotted_zero (x : Engine) (v : BitVec 128) (hc : x.cursor < 64) : x.Slotted x v 0 where
  frame := by simp [Nat.mod_eq_of_lt hc, Nat.div_eq_of_lt hc]
  groups := by simp [Nat.div_eq_of_lt hc]
  earlier := List.take_length
  slots k _ := by simp
  bytes _ _ := rfl

/-- One slot written. -/
theorem Engine.putSlot_dstore (x : Engine) (v : BitVec 128) : (x.putSlot v).dstore = bwrite (0x1C00 + 16 * x.cursor) (le 16 v.toNat) x.dstore := by
  unfold Engine.putSlot
  dsimp only
  split <;> rfl

theorem Engine.slot_putSlot_same (x : Engine) (v : BitVec 128) : (x.putSlot v).slot x.cursor = v := by
  have h := bread_bwrite_same (0x1C00 + 16 * x.cursor) (le 16 v.toNat) x.dstore
  rw [length_le] at h
  rw [Engine.slot, Engine.putSlot_dstore, h, unle_le, Nat.mod_eq_of_lt (by simpa using v.isLt), BitVec.ofNat_toNat, BitVec.setWidth_eq]

theorem Engine.slot_putSlot_other (x : Engine) (v : BitVec 128) {k : Nat} (hk : k ≠ x.cursor) : (x.putSlot v).slot k = x.slot k := by
  rw [Engine.slot, Engine.putSlot_dstore, bread_bwrite_other _ _ _ _ _ (by rw [length_le]; omega), Engine.slot]

theorem Engine.Slotted.regs {x y : Engine} {v : BitVec 128} {n : Nat} (h : x.Slotted y v n) : y.regs = x.regs := by rw [h.frame]

theorem Engine.Slotted.succ {x y : Engine} {v : BitVec 128} {n : Nat} (h : x.Slotted y v n) (hc : x.cursor < 64) (hn : n < 64) : x.Slotted (y.putSlot v) v (n + 1) := by
  have hcur : y.cursor = (x.cursor + n) % 64 := congrArg Engine.cursor h.frame
  have hem : y.emitted = x.emitted + 64 * ((x.cursor + n) / 64) := congrArg Engine.emitted h.frame
  have hlast : y.cursor = 63 → (y.putSlot v) = { y with dstore := (y.putSlot v).dstore, cursor := 0, emitted := y.emitted + 64, groups := (y.putSlot v).groups } := by
    intro hy
    simp only [Engine.putSlot, if_pos hy]
  have hmid : y.cursor ≠ 63 → (y.putSlot v) = { y with dstore := (y.putSlot v).dstore, cursor := y.cursor + 1 } := by
    intro hy
    simp only [Engine.putSlot, if_neg hy]
  constructor
  case frame =>
    by_cases hy : y.cursor = 63
    · rw [hlast hy, h.frame]
      simp only [Engine.mk.injEq, true_and, and_true]
      omega
    · rw [hmid hy, h.frame]
      simp only [Engine.mk.injEq, true_and, and_true]
      omega
  case groups =>
    have hg := h.groups
    by_cases hy : y.cursor = 63
    · simp only [Engine.putSlot, if_pos hy, List.length_append, List.length_singleton]
      omega
    · simp only [Engine.putSlot, if_neg hy]
      omega
  case earlier =>
    by_cases hy : y.cursor = 63
    · simp only [Engine.putSlot, if_pos hy]
      rw [List.take_append_of_le_length (by rw [h.groups]; omega), h.earlier]
    · simp only [Engine.putSlot, if_neg hy]
      exact h.earlier
  case slots =>
    intro k hk
    by_cases hy : k = y.cursor
    · subst hy
      rw [Engine.slot_putSlot_same, if_pos (by omega)]
    · have hiff : (k + 64 - x.cursor) % 64 < n + 1 ↔ (k + 64 - x.cursor) % 64 < n := by omega
      simp only [Engine.slot_putSlot_other _ _ hy, h.slots k hk, hiff]
  case bytes =>
    intro i hi
    rw [Engine.putSlot_dstore, bget_bwrite_other _ _ _ _ (by rw [length_le]; omega), h.bytes i hi]

theorem Engine.slotted_foldl (x : Engine) (f : Engine → BitVec 128) (hf : ∀ y, y.regs = x.regs → f y = f x) (n : Nat) (hc : x.cursor < 64) (hn : n ≤ 64) :
    x.Slotted ((List.range n).foldl (fun y _ => y.putSlot (f y)) x) (f x) n := by
  induction n with
  | zero => exact x.slotted_zero _ hc
  | succ n ih =>
    have h := ih (by omega)
    rw [List.range_succ, List.foldl_append, List.foldl_cons, List.foldl_nil, hf _ h.regs]
    exact h.succ hc (by omega)

/-- The 128 bits that TPUT writes into its slots. -/
def Engine.slotWord (x : Engine) (f : FmtA) : BitVec 128 := BitVec.ofNat 128 ((x.x f.ra).toNat + 2 ^ 64 * (x.x f.rb).toNat)

theorem Engine.slotWord_congr (f : FmtA) {x y : Engine} (h : y.regs = x.regs) : y.slotWord f = x.slotWord f := by
  simp [Engine.slotWord, Engine.x, h]

/-- Slots written by an engine that has counted its operations are those of the engine before. -/
theorem Engine.Slotted.ops {x y : Engine} {v : BitVec 128} {n k : Nat} (h : ({ x with opsUsed := k } : Engine).Slotted y v n) : x.Slotted { y with opsUsed := x.opsUsed } v n where
  frame := by rw [h.frame]
  groups := h.groups
  earlier := h.earlier
  slots := h.slots
  bytes := h.bytes

/-- TPUT with room for its slots. -/
theorem eTput_go (f : FmtA) (x : Engine) (hd : f.rd = 0) (hc : x.cursor < 64) (hv : x.emitted + x.cursor + (f.imm.toNat % 64 + 1) ≤ x.vectors)
    (hp : x.pc + 1 < x.progLen) (ha : x.Affords ((f.imm.toNat % 64 + 1 + 15) / 16)) :
    ∃ y, eTput f x = .go (y.after ((f.imm.toNat % 64 + 1 + 15) / 16) (x.pc + 1)) ∧ x.Slotted y (x.slotWord f) (f.imm.toNat % 64 + 1) := by
  generalize hn : f.imm.toNat % 64 + 1 = n at hv ha
  have hstep : eTput f x = if x.vectors < x.emitted + x.cursor + n then .trap trapCount { x with opsUsed := x.opsUsed + (n + 15) / 16 }
      else ((List.range n).foldl (fun (e : Engine) _ => e.putSlot (e.slotWord f)) { x with opsUsed := x.opsUsed + (n + 15) / 16 }).next := by
    subst hn
    rw [eTput, decide_eq_true hd]
    exact issue_ok _ x _ ha
  have hs := Engine.slotted_foldl { x with opsUsed := x.opsUsed + (n + 15) / 16 } (Engine.slotWord · f) (fun y hy => Engine.slotWord_congr f hy) n hc (by omega)
  rw [hstep, if_neg (by omega)]
  generalize (List.range n).foldl (fun (e : Engine) _ => e.putSlot (e.slotWord f)) { x with opsUsed := x.opsUsed + (n + 15) / 16 } = z at hs
  refine ⟨{ z with opsUsed := x.opsUsed }, ?_, hs.ops⟩
  rw [hs.frame]
  exact Engine.next_go _ hp

theorem tputReads_eq (f : FmtA) (x : Engine) (hd : f.rd = 0) (hv : x.emitted + x.cursor + (f.imm.toNat % 64 + 1) ≤ x.vectors)
    (ha : x.Affords ((f.imm.toNat % 64 + 1 + 15) / 16)) : tputReads f x = decide (64 ≤ x.cursor + (f.imm.toNat % 64 + 1)) := by
  have hi := x.issues_of_affords _ ha
  simp only [tputReads, decide_eq_true hd, decide_eq_true hv, hi, Bool.true_and]

/-! ### From one instruction to the chip -/

theorem tput_turns (s : State) (q : QId) (e : EngId) (f : FmtA) (hd : f.rd = 0) (hc : (s.engineOf q e).cursor < 64)
    (hv : (s.engineOf q e).emitted + (s.engineOf q e).cursor + (f.imm.toNat % 64 + 1) ≤ (s.engineOf q e).vectors) (hp : (s.engineOf q e).pc + 1 < (s.engineOf q e).progLen) :
    let x := s.engineOf q e
    let n := f.imm.toNat % 64 + 1
    ∃ y, s.Turns q e (.tput q e f) (encA 0x30 f) ((n + 15) / 16) (x.pc + 1) y (reads := decide (64 ≤ x.cursor + n)) ∧ x.Slotted y (x.slotWord f) n := by
  by_cases ha : (s.engineOf q e).Affords ((f.imm.toNat % 64 + 1 + 15) / 16)
  · obtain ⟨y, hy, hs⟩ := eTput_go f _ hd hc hv hp ha
    exact ⟨y, s.turns_of_go q e _ _ _ _ _ (tputReads f) (eTput f) _ (fun _ => rfl) (fun _ => tputReads_eq f _ hd hv ha) fun _ => hy, hs⟩
  · have hs := Engine.slotted_foldl (s.engineOf q e) (Engine.slotWord · f) (fun y hy => Engine.slotWord_congr f hy) (f.imm.toNat % 64 + 1) hc (by omega)
    exact ⟨_, fun _ h => absurd h ha, hs⟩

/-! ### TSRUN (R182) -/

theorem tsrun_turns (s : State) (q : QId) (e : EngId) (f : FmtA) (hd : f.rd = 0) (h0 : f.imm = 0) (h1 : 1 ≤ ((s.engineOf q e).x f.rb).toNat)
    (h2 : ((s.engineOf q e).x f.rb).toNat ≤ 4096) (hv : runSum (s.engineOf q e).runs + ((s.engineOf q e).x f.rb).toNat ≤ (s.engineOf q e).vectors)
    (hp : (s.engineOf q e).pc + 1 < (s.engineOf q e).progLen) :
    let x := s.engineOf q e
    s.Turns q e (.tsrun q e f) (encA 0x31 f) 1 (x.pc + 1) { x with runs := x.runs ++ [((x.x f.ra).toNat % 64, (x.x f.rb).toNat)] } := by
  intro x
  refine s.turns_of_go q e _ _ _ _ _ noReads (eTsrun f) false (fun _ => rfl) (fun _ => rfl) fun ha => ?_
  have hok : ¬(((s.engineOf q e).x f.rb).toNat = 0 ∨ 4096 < ((s.engineOf q e).x f.rb).toNat
      ∨ (s.engineOf q e).vectors < runSum (s.engineOf q e).runs + ((s.engineOf q e).x f.rb).toNat) := by omega
  exact eTsrun_go f x ⟨hd, h0⟩ hok hp ha

end Sys2Proof.Machine

namespace Sys2Proof.Proofs
open Sys2Proof.Machine

/-- Settles O4. -/
theorem engineUnitRegisters : Obligations.EngineUnitRegisters := by
  unfold Obligations.EngineUnitRegisters
  intro s q e fb f x k rule168 spans address hp
  refine ⟨fun hd hk => ?_, fun hd hk => ?_, fun ha hb h0 h168 => ?_, fun hd hb h0 h168 => ?_⟩
  · exact (uset_turns s q e fb hd hp).1 hk
  · exact (uset_turns s q e fb hd hp).2 hk
  · exact agen_turns s q e f ⟨ha, hb, h0⟩ (Engine.unitBad_eq_false _ h168) hp
  · exact aseek_turns s q e f ⟨hd, hb, h0⟩ (Engine.unitBad_eq_false _ h168) hp

/-- Settles O6: TPUT writes slot after slot from its cursor on. -/
theorem engineTransposeAndRuns : Obligations.EngineTransposeAndRuns := by
  unfold Obligations.EngineTransposeAndRuns
  intro s q e f x a b n hp
  refine ⟨fun hd hc hv => ?_, fun hd h0 h1 h2 hv => tsrun_turns s q e f hd h0 h1 h2 hv hp⟩
  obtain ⟨y, hy, hs⟩ := tput_turns s q e f hd hc hv hp
  exact ⟨y, hy, hs.frame, hs.groups, hs.earlier, hs.slots, hs.bytes⟩

end Sys2Proof.Proofs
end

section
/-! When an instruction of an engine traps, and with which code (R163, R168, R169, R174, R181 to R184). -/

namespace Sys2Proof.Machine

/-- An instruction whose step traps ends the item of its engine. -/
theorem State.traps_of_trap (s : State) (q : QId) (e : EngId) (i : StoreReads → Instr) (word : Word) (code : Byte) (reads : Engine → Bool) (step : Engine → EStep) (b : Bool)
    (hexec : ∀ o, exec (i o) s = .next (s.onQuire q fun x => x.w.runOn e.val word o reads step))
    (hreads : reads (s.engineOf q e) = b) (htrap : ∃ y, step (s.engineOf q e) = .trap code y) :
    s.Traps q e i word code b := by
  obtain ⟨y, hy⟩ := htrap
  intro hat o
  obtain ⟨hkept, hlost⟩ := s.ends_trap q e word reads step y code hat hy o
  rw [hreads] at hkept hlost
  exact ⟨fun hr => ⟨_, hexec o, (hkept hr).1, (hkept hr).2.1⟩, fun hu => ⟨_, hexec o, hlost hu⟩⟩

/-- A reserved field that is not 0 traps (R163). -/
theorem issue_reserved (legal : Bool) (cost : Nat) (x : Engine) (k : Engine → EStep) (h : legal = false) : ∃ y, issue legal cost x k = .trap trapIllegal y :=
  ⟨x, by rw [h, issue_illegal]⟩

/-- Operations beyond the bound trap (R184). -/
theorem issue_beyond (cost : Nat) (x : Engine) (k : Engine → EStep) (ha : x.algo = true) (h : x.opsBound < x.opsUsed + cost) :
    ∃ y, issue true cost x k = .trap trapOps y :=
  ⟨x, by simp [issue, ha, h]⟩

theorem alu_reserved (f : FmtA) (cost : Nat) (g : DWord → DWord → DWord) (x : Engine) (h : f.imm ≠ 0) : ∃ y, alu f cost g x = .trap trapIllegal y :=
  issue_reserved _ _ _ _ (decide_eq_false h)

theorem aluImm_beyond (f : FmtB) (g : DWord → DWord) (x : Engine) (ha : x.algo = true) (h : x.opsBound < x.opsUsed + 1) : ∃ y, aluImm f g x = .trap trapOps y :=
  issue_beyond _ _ _ ha h

theorem eTput_reserved (f : FmtA) (x : Engine) (h : f.rd ≠ 0) : (∃ y, eTput f x = .trap trapIllegal y) ∧ tputReads f x = false := by
  refine ⟨⟨x, ?_⟩, ?_⟩
  · rw [eTput, decide_eq_false h]
    exact issue_illegal _ _ _
  · simp only [tputReads, decide_eq_false h, Engine.issues, Bool.false_and]

/-- A target outside the program traps (R184). -/
theorem Engine.goto_outside (x : Engine) (t : Int) (h : ¬(0 ≤ t ∧ t < x.progLen)) : x.goto t = .trap trapBranch x := by
  rw [Engine.goto, if_neg h]

/-- The last instruction of the program has none after it. -/
theorem Engine.put_outside (x : Engine) (r : BitVec 5) (v : DWord) (h : x.progLen ≤ x.pc + 1) : ∃ y, x.put r v = .trap trapBranch y :=
  ⟨_, Engine.goto_outside _ _ (by simp only [Engine.setX_pc, Engine.setX_progLen]; omega)⟩

/-! ### Loads, stores and the units -/

theorem eLoad_outside (f : FmtB) (n : Nat) (x : Engine) (ha : x.Affords 2) (h : (decide (x.addr f % n = 0) && readable (x.addr f) n) = false) :
    (∃ y, eLoad f n x = .trap trapAccess y) ∧ loadReads f n x = false := by
  have haddr : ({ x with opsUsed := x.opsUsed + 2 } : Engine).addr f = x.addr f := rfl
  refine ⟨⟨{ x with opsUsed := x.opsUsed + 2 }, ?_⟩, by rw [loadReads, Bool.and_assoc, h, Bool.and_false]⟩
  rw [eLoad, issue_ok 2 _ _ ha, haddr, h, if_neg Bool.false_ne_true]

theorem eLoad_last (f : FmtB) (n : Nat) (x : Engine) (ha : x.Affords 2) (hp : x.progLen ≤ x.pc + 1) (h : (decide (x.addr f % n = 0) && readable (x.addr f) n) = true) :
    (∃ y, eLoad f n x = .trap trapBranch y) ∧ loadReads f n x = true := by
  have haddr : ({ x with opsUsed := x.opsUsed + 2 } : Engine).addr f = x.addr f := rfl
  refine ⟨?_, by rw [loadReads, Bool.and_assoc, h, x.issues_of_affords 2 ha, Bool.and_true]⟩
  rw [eLoad, issue_ok 2 _ _ ha, haddr, h, if_pos rfl]
  exact Engine.put_outside _ _ _ hp

theorem eStore_outside (f : FmtB) (n : Nat) (x : Engine) (ha : x.Affords 1) (h : (decide (x.addr f % n = 0) && writable (x.addr f) n) = false) :
    ∃ y, eStore f n x = .trap trapAccess y := by
  have haddr : ({ x with opsUsed := x.opsUsed + 1 } : Engine).addr f = x.addr f := rfl
  exact ⟨{ x with opsUsed := x.opsUsed + 1 }, by rw [eStore, issue_ok 1 _ _ ha, haddr, h, if_neg Bool.false_ne_true]⟩

/-- A start above its limit, or a counter that the nesting leaves out (R168). -/
theorem Engine.unitBad_eq_true (x : Engine) (h : (∃ c < 3, x.limit c < x.start c) ∨ ∃ c < 3, c ∉ x.order) : x.unitBad = true := by
  rw [Engine.unitBad, Bool.or_eq_true]
  refine h.imp (fun ⟨c, hc, hlt⟩ => List.any_eq_true.mpr ⟨c, List.mem_range.mpr hc, decide_eq_true hlt⟩) fun ⟨c, hc, hnot⟩ => ?_
  rw [Bool.not_eq_true', List.all_eq_false]
  exact ⟨c, List.mem_range.mpr hc, by simpa using hnot⟩

theorem eAgen_bad (f : FmtA) (x : Engine) (hf : f.ra = 0 ∧ f.rb = 0 ∧ f.imm = 0) (ha : x.Affords 1) (hb : x.unitBad = true) : ∃ y, eAgen f x = .trap trapUnit y := by
  have hbad : ({ x with opsUsed := x.opsUsed + 1 } : Engine).unitBad = true := hb
  exact ⟨{ x with opsUsed := x.opsUsed + 1 }, by rw [eAgen, decide_eq_true hf, issue_ok 1 _ _ ha, hbad, if_pos rfl]⟩

/-- A background of kind 7, or a diagonal of period 0 (R174). -/
theorem Engine.bgBad_eq_true (x : Engine) (h : x.u 10 % 8 = 7 ∨ (x.u 10 % 8 = 4 ∧ x.u 10 / 256 % 256 = 0)) : x.bgBad = true := by
  simpa [Engine.bgBad] using h

theorem eBgnd_bad (f : FmtB) (x : Engine) (ha : x.Affords 1) (hb : x.bgBad = true) : ∃ y, eBgnd f x = .trap trapUnit y :=
  ⟨{ x with opsUsed := x.opsUsed + 1 }, by rw [eBgnd_eq, issue_ok 1 _ _ ha, Engine.bgBad_ops, hb, if_pos rfl]⟩

theorem eScram_reserved (f : FmtB) (x : Engine) (ha : x.Affords 1) (h : ∃ i < 32, 0x41 < (bget (0x500 + 32 * (f.imm.toNat % 64) + i) x.dstore).toNat) :
    ∃ y, eScram f x = .trap trapUnit y := by
  obtain ⟨i, hi, hlt⟩ := h
  have hany : ((bread (0x500 + 32 * (f.imm.toNat % 64)) 32 x.dstore).any fun b => decide (0x41 < b.toNat)) = true :=
    List.any_eq_true.mpr ⟨_, List.mem_map_of_mem (List.mem_range.mpr hi), decide_eq_true hlt⟩
  have hnone : scramble (bread (0x500 + 32 * (f.imm.toNat % 64)) 32 x.dstore) (x.x f.ra) = none := by rw [scramble, if_pos hany]
  refine ⟨{ x with opsUsed := x.opsUsed + 1 }, ?_⟩
  rw [eScram, issue_ok 1 _ _ ha]
  simp only [Engine.x_ops, hnone]

theorem eTput_beyond (f : FmtA) (x : Engine) (hd : f.rd = 0) (ha : x.Affords ((f.imm.toNat % 64 + 1 + 15) / 16))
    (hv : x.vectors < x.emitted + x.cursor + (f.imm.toNat % 64 + 1)) : (∃ y, eTput f x = .trap trapCount y) ∧ tputReads f x = false := by
  have hnot : ¬x.emitted + x.cursor + (f.imm.toNat % 64 + 1) ≤ x.vectors := not_le.mpr hv
  refine ⟨⟨{ x with opsUsed := x.opsUsed + (f.imm.toNat % 64 + 1 + 15) / 16 }, ?_⟩, ?_⟩
  · rw [eTput, decide_eq_true hd]
    exact (issue_ok _ x _ ha).trans (if_pos hv)
  · simp only [tputReads, decide_eq_false hnot, Bool.and_false, Bool.false_and]

theorem eTsrun_beyond (f : FmtA) (x : Engine) (hf : f.rd = 0 ∧ f.imm = 0) (ha : x.Affords 1) (h : (x.x f.rb).toNat = 0 ∨ 4096 < (x.x f.rb).toNat) :
    ∃ y, eTsrun f x = .trap trapCount y := by
  refine ⟨{ x with opsUsed := x.opsUsed + 1 }, ?_⟩
  rw [eTsrun, decide_eq_true hf, issue_ok 1 _ _ ha]
  exact if_pos (h.imp_right .inl)

/-- A built-in opcode in a host's program (R164, R190). -/
theorem builtin_algo (x : Engine) (legal : Bool) (h : x.algo = true) : builtin x legal = false := by simp [builtin, h]

/-- RAWC and CDEC in a host's program end like any instruction: their buffer is not read once the item has ended. -/
theorem W.runBuiltin_ended (x : Quire) (e : Nat) (word : Word) (o : StoreReads) (reads : Engine → Bool) (step : Source → Word → Engine → EStep) (it : Item)
    (hi : (x.engine e).item = some it) (hf : (x.engine e).fetches word = true)
    (hend : ((x.w.runOn e word o reads (step ((x.itemView it).source it.sig it.inst it.index) ((x.itemView it).sigMask it.sig))).q.engine e).item = none) :
    x.w.runBuiltin e word o reads step = x.w.runOn e word o reads (step ((x.itemView it).source it.sig it.inst it.index) ((x.itemView it).sigMask it.sig)) := by
  have hq : x.w.q = x := rfl
  simp only [W.runBuiltin, hq, hi, hf, Bool.not_true, Bool.false_eq_true, if_false, hend, Option.isSome_none, Bool.false_and]

theorem State.onQuire_congr (s : State) (q : QId) {f g : Quire → W} (h : f (s.quire q) = g (s.quire q)) : s.onQuire q f = s.onQuire q g := by
  rw [State.onQuire, State.onQuire, h]

theorem rawc_traps (s : State) (q : QId) (e : EngId) (f : FmtA) (it : Item) (hi : (s.engineOf q e).item = some it) (ha : (s.engineOf q e).algo = true) :
    s.Traps q e (.rawc q e f) (encA 0x32 f) trapIllegal := by
  intro hat o
  let src := ((s.quire q).itemView it).source it.sig it.inst it.index
  let mask := ((s.quire q).itemView it).sigMask it.sig
  have hstep : eRawc src mask f (s.engineOf q e) = .trap trapIllegal (s.engineOf q e) := by
    rw [eRawc, eBuiltin]
    simp only [builtin_algo _ _ ha, issue_illegal]
  obtain ⟨hkept, hlost⟩ := s.ends_trap q e (encA 0x32 f) noReads (eRawc src mask f) _ trapIllegal hat hstep o
  have hidle : ((s.onQuire q fun x => x.w.runOn e.val (encA 0x32 f) o noReads (eRawc src mask f)).engineOf q e).item = none := by
    by_cases hu : .uncorrectable ∈ storesGive false o
    · exact (hlost hu).2.1
    · exact (hkept fun r hr h => hu (h ▸ hr)).1
  have hrun : s.onQuire q (fun x => x.w.runBuiltin e.val (encA 0x32 f) o noReads fun src mask => eRawc src mask f)
      = s.onQuire q fun x => x.w.runOn e.val (encA 0x32 f) o noReads (eRawc src mask f) := by
    refine s.onQuire_congr q (W.runBuiltin_ended _ _ _ _ _ (fun src mask => eRawc src mask f) it hi hat.2.1 ?_)
    simpa [State.engineOf, Quire.engine] using hidle
  exact ⟨fun hr => ⟨_, congrArg Host.Outcome.next hrun, (hkept hr).1, (hkept hr).2.1⟩, fun hu => ⟨_, congrArg Host.Outcome.next hrun, hlost hu⟩⟩

end Sys2Proof.Machine

namespace Sys2Proof.Proofs
open Sys2Proof.Machine

/-- Settles O8: each instruction that breaks a rule ends its step with that rule's code. -/
theorem engineTrapConditions : Obligations.EngineTrapConditions := by
  unfold Obligations.EngineTrapConditions
  intro s q e f fb fc x a n hitem
  obtain ⟨it, hit, -⟩ := hitem
  refine ⟨fun h => ?_, fun h => ?_, fun h => ?_, fun h => ?_, fun h => ?_, fun h1 h2 h0 => ?_, fun ha hp => ?_, fun ha hd hb h0 hp => ?_, fun ha h => ?_, fun ha h => ?_,
    fun ha h1 h2 h0 h => ?_, fun ha h => ?_, fun ha hd hv => ?_, fun ha hd h0 h => ?_, fun ha h => ?_, fun ha hp hn h => ?_⟩
  · refine ⟨?_, ?_, ?_, ?_, ?_, ?_⟩
    · exact s.traps_of_trap q e _ _ _ noReads (eAdd f) false (fun _ => rfl) rfl (alu_reserved _ _ _ _ h)
    · exact s.traps_of_trap q e _ _ _ noReads (eMul f) false (fun _ => rfl) rfl (alu_reserved _ _ _ _ h)
    · exact s.traps_of_trap q e _ _ _ noReads (ePopc f) false (fun _ => rfl) rfl (issue_reserved _ _ _ _ (decide_eq_false fun hp => h hp.2))
    · exact s.traps_of_trap q e _ _ _ noReads (eJr f) false (fun _ => rfl) rfl (issue_reserved _ _ _ _ (decide_eq_false fun hp => h hp.2.2))
    · exact s.traps_of_trap q e _ _ _ noReads (eAgen f) false (fun _ => rfl) rfl (issue_reserved _ _ _ _ (decide_eq_false fun hp => h hp.2.2))
    · exact s.traps_of_trap q e _ _ _ noReads (eDone f) false (fun _ => rfl) rfl (issue_reserved _ _ _ _ (decide_eq_false fun hp => h hp.2.2.2))
  · refine ⟨?_, ?_, ?_⟩
    · obtain ⟨htrap, hreads⟩ := eTput_reserved f x h
      exact s.traps_of_trap q e _ _ _ (tputReads f) (eTput f) false (fun _ => rfl) hreads htrap
    · exact s.traps_of_trap q e _ _ _ noReads (eTsrun f) false (fun _ => rfl) rfl (issue_reserved _ _ _ _ (decide_eq_false fun hp => h hp.1))
    · exact s.traps_of_trap q e _ _ _ noReads (eJr f) false (fun _ => rfl) rfl (issue_reserved _ _ _ _ (decide_eq_false fun hp => h hp.1))
  · exact ⟨s.traps_of_trap q e _ _ _ noReads (eLui fb) false (fun _ => rfl) rfl (issue_reserved _ _ _ _ (decide_eq_false h)),
      s.traps_of_trap q e _ _ _ noReads (eJal fb) false (fun _ => rfl) rfl (issue_reserved _ _ _ _ (decide_eq_false h))⟩
  · exact s.traps_of_trap q e _ _ _ noReads (eLoop fc) false (fun _ => rfl) rfl (issue_reserved _ _ _ _ (decide_eq_false h))
  · exact ⟨rawc_traps s q e f it hit h, s.traps_of_trap q e _ _ _ noReads (ePut f) false (fun _ => rfl) rfl (issue_reserved _ _ _ _ (builtin_algo _ _ h))⟩
  · refine ⟨s.traps_of_trap q e _ _ _ noReads (eAdd f) false (fun _ => rfl) rfl ?_, s.traps_of_trap q e _ _ _ noReads (eAddi fb) false (fun _ => rfl) rfl (aluImm_beyond _ _ _ h1 h2)⟩
    rw [eAdd, alu, decide_eq_true h0]
    exact issue_beyond _ _ _ h1 h2
  · refine s.traps_of_trap q e _ _ _ noReads (eAddi fb) false (fun _ => rfl) rfl ?_
    rw [eAddi, aluImm, issue_ok 1 _ _ ha]
    exact Engine.put_outside _ _ _ hp
  · refine s.traps_of_trap q e _ _ _ noReads (eJr f) false (fun _ => rfl) rfl ⟨{ x with opsUsed := x.opsUsed + 1 }, ?_⟩
    rw [eJr, decide_eq_true (And.intro hd ⟨hb, h0⟩), issue_ok 1 _ _ ha]
    exact Engine.goto_outside _ _ fun hin => absurd hp (not_le.mpr (by exact_mod_cast hin.2))
  · have hno : (decide (x.addr fb % 8 = 0) && readable (x.addr fb) 8) = false := by
      rw [Bool.eq_false_iff]
      simp only [ne_eq, Bool.and_eq_true, decide_eq_true_eq, readable, Bool.or_eq_true]
      change x.addr fb % 8 ≠ 0 ∨ (0x20 ≤ x.addr fb ∧ x.addr fb < 0x100) ∨ 0x2000 ≤ x.addr fb at h
      omega
    obtain ⟨htrap, hreads⟩ := eLoad_outside fb 8 x ha hno
    exact s.traps_of_trap q e _ _ _ (loadReads fb 8) (eLd fb) false (fun _ => rfl) hreads htrap
  · have hno : (decide (x.addr fb % 4 = 0) && writable (x.addr fb) 4) = false := by
      rw [Bool.eq_false_iff]
      simp only [ne_eq, Bool.and_eq_true, decide_eq_true_eq, writable]
      change x.addr fb % 4 ≠ 0 ∨ x.addr fb < 0xE00 ∨ 0x1C00 ≤ x.addr fb at h
      omega
    exact s.traps_of_trap q e _ _ _ noReads (eStw fb) false (fun _ => rfl) rfl (eStore_outside fb 4 x ha hno)
  · exact s.traps_of_trap q e _ _ _ noReads (eAgen f) false (fun _ => rfl) rfl (eAgen_bad f x ⟨h1, h2, h0⟩ ha (x.unitBad_eq_true h))
  · exact s.traps_of_trap q e _ _ _ noReads (eBgnd fb) false (fun _ => rfl) rfl (eBgnd_bad fb x ha (x.bgBad_eq_true h))
  · obtain ⟨htrap, hreads⟩ := eTput_beyond f x hd ha hv
    exact s.traps_of_trap q e _ _ _ (tputReads f) (eTput f) false (fun _ => rfl) hreads htrap
  · exact s.traps_of_trap q e _ _ _ noReads (eTsrun f) false (fun _ => rfl) rfl (eTsrun_beyond f x ⟨hd, h0⟩ ha h)
  · exact s.traps_of_trap q e _ _ _ scramReads (eScram fb) true (fun _ => rfl) (x.issues_of_affords 1 ha) (eScram_reserved fb x ha h)
  · have hin : (decide (x.addr fb % 8 = 0) && readable (x.addr fb) 8) = true := by
      rw [Bool.and_eq_true, decide_eq_true_eq]
      exact ⟨hn, readable_of _ _ (.inl h)⟩
    obtain ⟨htrap, hreads⟩ := eLoad_last fb 8 x ha hp hin
    exact s.traps_of_trap q e _ _ _ (loadReads fb 8) (eLd fb) true (fun _ => rfl) hreads htrap

end Sys2Proof.Proofs
end

section
/-! The built-in instructions of the program ROM, and the ends of an item (R77, R164, R183 to R187, R192 to R195, R743). -/

namespace Sys2Proof.Machine

/-! ### RAWC and CDEC -/

/-- A lost read of the stores leaves the engine idle. -/
theorem W.runOn_lost_idle (x : Quire) (e : Nat) (word : Word) (o : StoreReads) (reads : Engine → Bool) (step : Engine → EStep) (it : Item)
    (hi : (x.engine e).item = some it) (hf : (x.engine e).fetches word = true) (hj : injecting 0x17 e x.injections = false)
    (ho : .uncorrectable ∈ storesGive (reads (x.engine e)) o) : ((x.w.runOn e word o reads step).q.engine e).item = none := by
  have hidle : ∀ n, ((x.w.storeError e (x.engine e) it n false).q.engine e).item = none := fun _ => (W.itemTrap_shape x e (x.engine e) it trapEcc true).2.1
  rcases W.runOn_lost x e word o reads step it hi hf hj ho with h | ⟨r, n, h⟩
  · rw [h]
    exact hidle _
  · rw [h]
    exact (W.countEcc_after _ e r (hidle n)).1

/-- An instruction that goes on touches no injection. -/
theorem W.runOn_go_injections (x : Quire) (e : Nat) (word : Word) (o : StoreReads) (reads : Engine → Bool) (step : Engine → EStep) (y : Engine)
    (hi : (x.engine e).item.isSome = true) (hf : (x.engine e).fetches word = true) (hj : injecting 0x17 e x.injections = false)
    (ho : ∀ r ∈ storesGive (reads (x.engine e)) o, r ≠ .uncorrectable) (hs : step (x.engine e) = .go y) :
    (x.w.runOn e word o reads step).q.injections = x.injections := by
  obtain ⟨c, m, fx, h, -, -⟩ := W.countEccs_shape x e (storesGive (reads (x.engine e)) o) y x.satPages [] (by simp)
  rw [W.runOn_go x e word o reads step y hi hf hj ho hs]
  exact congrArg (fun w => w.q.injections) h

/-- A read of the signature buffers is in place and is not correctable. -/
def Quire.LosesBuffer (x : Quire) (it : Item) (o : StoreReads) : Prop := (it.ofSignature = true ∧ (x.itemView it).sigHome it.sig ≠ 0) ∧ o.buffer = .uncorrectable

/-- A built-in instruction whose buffer is not lost is like any other. -/
theorem W.runBuiltin_eq (x : Quire) (e : Nat) (word : Word) (o : StoreReads) (reads : Engine → Bool) (step : Source → Word → Engine → EStep) (it : Item) (y : Engine)
    (hi : (x.engine e).item = some it) (hf : (x.engine e).fetches word = true) (hj : injecting 0x17 e x.injections = false) (hb : injecting 0x17 0x80 x.injections = false)
    (hs : step ((x.itemView it).source it.sig it.inst it.index) ((x.itemView it).sigMask it.sig) (x.engine e) = .go y)
    (h : .uncorrectable ∈ storesGive (reads (x.engine e)) o ∨ ¬x.LosesBuffer it o) :
    x.w.runBuiltin e word o reads step = x.w.runOn e word o reads (step ((x.itemView it).source it.sig it.inst it.index) ((x.itemView it).sigMask it.sig)) := by
  by_cases hu : .uncorrectable ∈ storesGive (reads (x.engine e)) o
  · exact W.runBuiltin_ended x e word o reads step it hi hf (W.runOn_lost_idle x e word o reads _ it hi hf hj hu)
  · have hinj := W.runOn_go_injections x e word o reads _ y (by rw [hi]; rfl) hf hj (fun r hr h => hu (h ▸ hr)) hs
    have hq : x.w.q = x := rfl
    simp only [W.runBuiltin, hq, hi, hf, Bool.not_true, Bool.false_eq_true, if_false]
    split
    · next hbuf =>
      have hcheck := W.check_none _ 0x17 0x80 (hinj.symm ▸ hb)
      have hno : o.buffer ≠ .uncorrectable := fun hd => h.elim hu fun hl => hl ⟨by simp at hbuf; exact ⟨hbuf.1.2, hbuf.2⟩, hd⟩
      rw [hcheck]
      simp [hno]
    · rfl

/-- A built-in instruction whose buffer is lost goes on, and loses its chunk (R743). -/
theorem W.runBuiltin_lost (x : Quire) (e : Nat) (word : Word) (o : StoreReads) (reads : Engine → Bool) (step : Source → Word → Engine → EStep) (it : Item) (y : Engine)
    (hi : (x.engine e).item = some it) (hf : (x.engine e).fetches word = true) (hj : injecting 0x17 e x.injections = false) (hb : injecting 0x17 0x80 x.injections = false)
    (hs : step ((x.itemView it).source it.sig it.inst it.index) ((x.itemView it).sigMask it.sig) (x.engine e) = .go y) (hy : y.item.isSome = true)
    (hgood : ∀ r ∈ storesGive (reads (x.engine e)) o, r = .good) (h : x.LosesBuffer it o) :
    x.w.runBuiltin e word o reads step = W.sramError { q := x.setEngine e y, fx := [] } it o.entry false := by
  obtain ⟨⟨hsig, hhome⟩, hbuf⟩ := h
  have hgo := W.runOn_go x e word o reads _ y (by rw [hi]; rfl) hf hj (fun r hr => by simp [hgood r hr]) hs
  rw [W.countEcc_goods _ _ _ hgood] at hgo
  have hq : x.w.q = x := rfl
  have hcheck : W.check { q := x.setEngine e y, fx := [] } 0x17 0x80 = (false, { q := x.setEngine e y, fx := [] }) := W.check_none _ _ _ hb
  simp only [W.runBuiltin, hq, hi, hf, Bool.not_true, Bool.false_eq_true, if_false, hgo, Quire.engine_setEngine_same, hy, hsig, Bool.true_and, decide_eq_true hhome, if_true, hcheck, hbuf,
    decide_true, Bool.or_true]

/-- RAWC and CDEC take what the source of the item's chunk gives. -/
theorem eBuiltin_go (src : Source) (mask : Word) (f : FmtA) (x : Engine) (hf : f.rd = 0 ∧ f.ra = 0 ∧ f.rb = 0 ∧ f.imm = 0) (ha : x.algo = false) (hp : x.pc + 1 < x.progLen) :
    eBuiltin src mask f x = .go (({ x with runs := src.runs, words := src.words, emitted := if src.words.length = (pinsOf mask).length * (x.vectors / 64) then x.vectors else 0 } : Engine).after
      (src.tokens + (src.words.length + 3) / 4 + src.runs.length) (x.pc + 1)) := by
  have hl : builtin x (decide (f.rd = 0 ∧ f.ra = 0 ∧ f.rb = 0 ∧ f.imm = 0)) = true := by rw [builtin, decide_eq_true hf, ha]; rfl
  rw [eBuiltin, hl]
  refine (issue_ok _ x _ (fun h => absurd h (by simp [ha]))).trans ?_
  exact Engine.next_go _ hp

/-- The quire after a lost read of the data of a signature: its chunk is lost, and the signature STALE (R743). -/
def Quire.loseChunk (x : Quire) (it : Item) : Quire :=
  { (if it.derived then x.failDerived it.sig else x).modSig it.sig (fun y => { y with buf := .stale, damaged := true }) with
    slots := x.slots.map fun (sl : Slot) => if it.kind = .pattern ∧ sl.seq = it.seq then { sl with trapped := some trapEcc } else sl }

theorem W.sramError_eq (x : Quire) (it : Item) (n : Nat) (injected : Bool) :
    W.sramError { q := x, fx := [] } it n injected = { q := x.loseChunk it, fx := [.report .alert 0x17 0x80 0 n injected] } := by
  unfold W.sramError Quire.loseChunk
  cases it.derived <;> rfl

theorem Quire.loseChunk_engine (x : Quire) (it : Item) (e : Nat) : (x.loseChunk it).engine e = x.engine e := by
  unfold Quire.loseChunk
  cases it.derived <;> rfl

theorem Quire.loseChunk_fences (x : Quire) (it : Item) : (x.loseChunk it).fences = x.fences := by
  unfold Quire.loseChunk
  cases it.derived <;> rfl

theorem Quire.loseChunk_stale (x : Quire) (it : Item) : ((x.loseChunk it).sig it.sig).buf = .stale := by
  simp [Quire.loseChunk, Quire.modSig, Quire.setSig, Quire.sig]

/-- An item of a signature that is not of a pattern is of its derivation, which fails (R88). -/
theorem Quire.loseChunk_derivation (x : Quire) (it : Item) (h : it.ofSignature = true) :
    (x.loseChunk it).derivation = if it.kind = .pattern then x.derivation else x.derivation.map fun d => { d with todo := [], failed := some (d.failed.getD it.sig) } := by
  have hd : it.derived = !decide (it.kind = .pattern) := by
    revert h
    cases hk : it.kind <;> simp [Item.ofSignature, Item.derived, hk]
  unfold Quire.loseChunk
  rw [hd]
  by_cases hk : it.kind = .pattern <;> simp [hk, Quire.modSig, Quire.setSig, Quire.failDerived]

/-- A step of one quire that asks for one report. -/
theorem State.onQuire_reports (s : State) (q : QId) (f : Quire → W) (y : Quire) (sev : Severity) (c : Nat) (el cause : Byte) (d : Int) (injected : Bool)
    (h : f (s.quire q) = { q := y, fx := [.report sev c el cause d injected] }) :
    s.onQuire q f = (s.setQuire q y).report sev c (some q) [] el cause d injected := by
  rw [State.onQuire, h]
  rfl

theorem ofInt_natCast (n : Nat) : BitVec.ofNat 24 (ofInt 24 (n : Int)) = BitVec.ofNat 24 n := by
  apply BitVec.eq_of_toNat_eq
  rw [BitVec.toNat_ofNat, BitVec.toNat_ofNat, ofInt]
  omega

section
variable (s : State) (q : QId) (e : EngId) (f : FmtA) (i : StoreReads → Instr) (word : Word) (reads : Engine → Bool) (it : Item)

/-- The source of the chunk of the item. -/
def State.chunkSource (s : State) (q : QId) (it : Item) : Source := ((s.quire q).itemView it).source it.sig it.inst it.index

/-- The operations that the chunk's data costs (R164). -/
def Source.cost (src : Source) : Nat := src.tokens + (src.words.length + 3) / 4 + src.runs.length

/-- The engine with the words and runs of the item's chunk. -/
def State.chunkTaken (s : State) (q : QId) (e : EngId) (it : Item) : Engine :=
  { s.engineOf q e with
    runs := (s.chunkSource q it).runs, words := (s.chunkSource q it).words
    emitted := if (s.chunkSource q it).words.length = (pinsOf (((s.quire q).itemView it).sigMask it.sig)).length * ((s.engineOf q e).vectors / 64) then (s.engineOf q e).vectors else 0 }

variable (hexec : ∀ o, exec (i o) s = .next (s.onQuire q fun x => x.w.runBuiltin e.val word o reads fun src mask => eBuiltin src mask f))
  (hi : (s.engineOf q e).item = some it) (hf : f.rd = 0 ∧ f.ra = 0 ∧ f.rb = 0 ∧ f.imm = 0) (ha : (s.engineOf q e).algo = false)
  (hp : (s.engineOf q e).pc + 1 < (s.engineOf q e).progLen) (hb : injecting 0x17 0x80 (s.quire q).injections = false)

include hf ha hp in
theorem State.builtin_go : eBuiltin (((s.quire q).itemView it).source it.sig it.inst it.index) (((s.quire q).itemView it).sigMask it.sig) f (s.engineOf q e)
    = .go ((s.chunkTaken q e it).after (s.chunkSource q it).cost ((s.engineOf q e).pc + 1)) := eBuiltin_go _ _ f _ hf ha hp

include hexec hi hf ha hp hb

theorem State.builtin_exec (hat : s.EngineAt q e word) (o : StoreReads) (h : .uncorrectable ∈ storesGive (reads (s.engineOf q e)) o ∨ ¬(s.quire q).LosesBuffer it o) :
    exec (i o) s = .next (s.onQuire q fun x => x.w.runOn e.val word o reads
      (eBuiltin (((s.quire q).itemView it).source it.sig it.inst it.index) (((s.quire q).itemView it).sigMask it.sig) f)) := by
  obtain ⟨-, hfe, hj⟩ := hat
  rw [hexec]
  exact congrArg Host.Outcome.next (s.onQuire_congr q (W.runBuiltin_eq _ _ _ o reads _ it _ hi hfe hj hb (s.builtin_go q e f it hf ha hp) h))

theorem State.builtin_turns {b : Bool} (hreads : reads (s.engineOf q e) = b) (d : LineOutcome)
    (hd : ¬((it.ofSignature = true ∧ ((s.quire q).itemView it).sigHome it.sig ≠ 0) ∧ d = .uncorrectable)) :
    s.Turns q e (fun o : StoreReads => i { o with buffer := d }) word (s.chunkSource q it).cost ((s.engineOf q e).pc + 1) (s.chunkTaken q e it) (reads := b) := fun hat =>
  s.turns_of_go q e _ word _ _ _ reads _ b (fun o => s.builtin_exec q e f i word reads it hexec hi hf ha hp hb hat { o with buffer := d } (.inr hd))
    (fun _ => hreads) (fun _ => s.builtin_go q e f it hf ha hp) hat

theorem State.builtin_losesStores {b : Bool} (hreads : reads (s.engineOf q e) = b) (o : StoreReads) (ho : .uncorrectable ∈ storesGive b o) (hat : s.EngineAt q e word) :
    ∃ t, exec (i o) s = .next t ∧ s.LosesStores q e t := by
  subst hreads
  obtain ⟨t, ht, hl⟩ := (s.ends_go q e word reads _ _ hat (s.builtin_go q e f it hf ha hp) o).2.2 ho
  exact ⟨t, (s.builtin_exec q e f i word reads it hexec hi hf ha hp hb hat o (.inl ho)).trans ht, hl⟩

/-- What a lost buffer leaves (R743). -/
theorem State.builtin_losesBuffer (hlost : it.ofSignature = true ∧ ((s.quire q).itemView it).sigHome it.sig ≠ 0) (hat : s.EngineAt q e word) (n : Nat) :
    ∃ t, exec (i { fetch := .good, data := .good, buffer := .uncorrectable, entry := n }) s = .next t ∧ s.Within t q
      ∧ t.engineOf q e = (s.chunkTaken q e it).after (s.chunkSource q it).cost ((s.engineOf q e).pc + 1) ∧ ((t.quire q).sig it.sig).buf = .stale ∧ (t.quire q).fences = (s.quire q).fences
      ∧ (t.quire q).slots = ((s.quire q).slots.map fun sl => if it.kind = .pattern ∧ sl.seq = it.seq then { sl with trapped := some 0x07 } else sl)
      ∧ (t.quire q).derivation = (if it.kind = .pattern then (s.quire q).derivation else (s.quire q).derivation.map fun d => { d with todo := [], failed := some (d.failed.getD it.sig) })
      ∧ ∃ r, t.collector.reports = s.collector.reports ++ [r] ∧ r.severity = .alert ∧ r.checker = 0x17 ∧ r.quire = some q ∧ r.element = 0x80 ∧ r.detail = BitVec.ofNat 24 n := by
  have hgood : ∀ r ∈ storesGive (reads (s.engineOf q e)) { fetch := .good, data := .good, buffer := .uncorrectable, entry := n }, r = .good := by
    cases reads (s.engineOf q e) <;> simp [storesGive]
  have hw := W.runBuiltin_lost (s.quire q) e.val word { fetch := .good, data := .good, buffer := .uncorrectable, entry := n } reads (fun src mask => eBuiltin src mask f) it _
    hi hat.2.1 hat.2.2 hb (s.builtin_go q e f it hf ha hp) hat.1 hgood ⟨hlost, rfl⟩
  have ht := s.onQuire_reports q (fun x => x.w.runBuiltin e.val word { fetch := .good, data := .good, buffer := .uncorrectable, entry := n } reads fun src mask => eBuiltin src mask f) _ _ _ _ _ _ _ (hw.trans (W.sramError_eq _ it n false))
  refine ⟨_, (hexec _).trans (congrArg Host.Outcome.next ht), State.within_setQuire s q _ _ _ _, ?_⟩
  simp only [State.engineOf, State.report_quire, State.quire_setQuire_same]
  refine ⟨?_, Quire.loseChunk_stale _ it, Quire.loseChunk_fences _ it, rfl, Quire.loseChunk_derivation _ it hlost.1, _, rfl, rfl, rfl, rfl, rfl, ofInt_natCast n⟩
  rw [Quire.loseChunk_engine, Quire.engine_setEngine_same]
end

/-! ### PUT and FGET (R164) -/

theorem builtin_legal (x : Engine) {c : Prop} [Decidable c] (hc : c) (ha : x.algo = false) : builtin x (decide c) = true := by
  rw [builtin, decide_eq_true hc, ha]
  rfl

theorem put_turns (s : State) (q : QId) (e : EngId) (f : FmtA) (hf : f.rd = 0 ∧ f.rb = 0 ∧ f.imm = 0) (ha : (s.engineOf q e).algo = false)
    (hp : (s.engineOf q e).pc + 1 < (s.engineOf q e).progLen) :
    let x := s.engineOf q e
    s.Turns q e (.put q e f) (encA 0x3A f) 1 (x.pc + 1) { x with output := x.output ++ [x.x f.ra] } := by
  intro x
  refine s.turns_of_go q e _ _ _ _ _ noReads (ePut f) false (fun _ => rfl) (fun _ => rfl) fun haff => ?_
  rw [ePut, builtin_legal _ hf ha, issue_ok 1 _ _ haff]
  exact Engine.next_go _ hp

theorem fget_turns (s : State) (q : QId) (e : EngId) (f : FmtA) (it : Item) (hi : (s.engineOf q e).item = some it) (hf : f.ra = 0 ∧ f.rb = 0 ∧ f.imm = 0)
    (ha : (s.engineOf q e).algo = false) (hp : (s.engineOf q e).pc + 1 < (s.engineOf q e).progLen) :
    let x := s.engineOf q e
    s.Turns q e (.fget q e f) (encA 0x38 f) 2 (x.pc + 1) (({ x with taken := x.taken + 1 } : Engine).setX f.rd (Config.inputWord q.val it.seq x.taken)) := by
  intro x
  have hseq : (((s.quire q).engine e.val).item.map (·.seq)).getD 0 = it.seq := by
    change ((s.engineOf q e).item.map (·.seq)).getD 0 = it.seq
    rw [hi]
    rfl
  refine s.turns_of_go q e _ _ _ _ _ noReads (eFget (Config.inputWord q.val it.seq) f) false (fun o => ?_) (fun _ => rfl) fun haff => ?_
  · refine congrArg Host.Outcome.next (s.onQuire_congr q ?_)
    simp only [hseq]
  · rw [eFget, builtin_legal _ hf ha, issue_ok 2 _ _ haff]
    exact Engine.put_after { x with taken := x.taken + 1 } 2 f.rd _ hp

/-! ### DONE (R183, R185) -/

/-- The slots of the quire with the chunk of the item's end (R185, R203). -/
def doneSlot (it : Item) (c : Chunk) (sl : Slot) : Slot :=
  if sl.seq ≠ it.seq then sl
  else if it.copy then { sl with copyEnded := true, copyCrc := some c.crc } else { sl with primaryEnded := true, primary := some c }

/-- The chunk that an item's end leaves (R185). -/
def Quire.endChunk (x : Quire) (e : Nat) (it : Item) (y : Engine) : Chunk := { (x.setEngine e { y with item := none }).chunkOf it y with engine := e }

theorem eDone_done (f : FmtA) (x : Engine) (hf : f.rd = 0 ∧ f.ra = 0 ∧ f.rb = 0 ∧ f.imm = 0) (haff : x.Affords 1) (hem : x.emitted = x.vectors) (hruns : runSum x.runs = x.vectors) :
    eDone f x = .done { x with opsUsed := x.opsUsed + 1 } := by
  rw [eDone, decide_eq_true hf, issue_ok 1 _ _ haff]
  refine if_pos ?_
  rw [Bool.or_eq_true, Bool.and_eq_true, decide_eq_true_eq, decide_eq_true_eq]
  exact .inr ⟨hem, hruns⟩

theorem W.runOn_done (x : Quire) (e : Nat) (word : Word) (o : StoreReads) (step : Engine → EStep) (it : Item) (y : Engine)
    (hi : (x.engine e).item = some it) (hf : (x.engine e).fetches word = true) (hj : injecting 0x17 e x.injections = false)
    (ho : o.fetch ≠ .uncorrectable) (hs : step (x.engine e) = .done y) (hk : it.kind = .pattern) :
    let w := x.w.runOn e word o noReads step
    (∀ r ∈ w.fx, r.logs = true) ∧ (w.q.engine e).item = none ∧ w.q.slots = x.slots.map (doneSlot it (x.endChunk e it y)) := by
  intro w
  have hsettle : w = (x.w.itemDone e y it).countEcc e o.fetch := by
    have h := W.runOn_settles x e word o noReads step it hi hf hj (by simpa [noReads, storesGive] using ho)
    rw [hs] at h
    exact h
  have hdone : x.w.itemDone e y it = { q := { x.setEngine e { y with item := none } with slots := x.slots.map (doneSlot it (x.endChunk e it y)) }, fx := [] } := by
    simp only [W.itemDone, hk]
    rfl
  have hidle : ((x.w.itemDone e y it).q.engine e).item = none := by
    rw [hdone]
    change ((x.setEngine e { y with item := none }).engine e).item = none
    rw [Quire.engine_setEngine_same]
  obtain ⟨h1, -, -, h4, fx, h5, h6⟩ := W.countEcc_after _ e o.fetch hidle
  rw [hsettle, h5, hdone]
  exact ⟨by simpa using h6, hdone ▸ h1, by rw [← hdone, h4, hdone]⟩

end Sys2Proof.Machine

namespace Sys2Proof.Proofs
open Sys2Proof.Machine

/-- The end of a pattern item by DONE. -/
theorem done_ends (s : State) (q : QId) (e : EngId) (f : FmtA) (it : Item) (o : StoreReads) (hi : (s.engineOf q e).item = some it) (hk : it.kind = .pattern)
    (haff : (s.engineOf q e).Affords 1) (hf : f.rd = 0 ∧ f.ra = 0 ∧ f.rb = 0 ∧ f.imm = 0) (hem : (s.engineOf q e).emitted = (s.engineOf q e).vectors)
    (hruns : runSum (s.engineOf q e).runs = (s.engineOf q e).vectors) (hat : s.EngineAt q e (encA 0x3E f)) :
    let x := s.engineOf q e
    (o.fetch ≠ .uncorrectable → ∃ (t : State) (c : Chunk), exec (.done q e f o) s = .next t ∧ s.Within t q ∧ (t.engineOf q e).item = none
      ∧ c.kind = .data ∧ c.sig = it.sig ∧ c.inst = it.inst ∧ c.index = it.index ∧ c.vectors = it.vectors ∧ c.seq = it.seq ∧ c.engine = e.val ∧ c.sets = expandRuns x.runs ∧ c.crc = c.check
      ∧ (t.quire q).slots = (s.quire q).slots.map fun sl =>
          if sl.seq ≠ it.seq then sl
          else if it.copy then { sl with copyEnded := true, copyCrc := some c.crc } else { sl with primaryEnded := true, primary := some c })
    ∧ (o.fetch = .uncorrectable → ∃ t, exec (.done q e f o) s = .next t ∧ s.LosesStores q e t) := by
  intro x
  have hstep := eDone_done f x hf haff hem hruns
  obtain ⟨-, hfe, hj⟩ := hat
  refine ⟨fun ho => ?_, fun ho => ⟨_, rfl, s.loses q e _ it _ hi (.inl (W.runOn_lostFetch _ _ _ o noReads (eDone f) it hi hfe hj ho))⟩⟩
  obtain ⟨hfx, hidle, hslots⟩ := W.runOn_done (s.quire q) e.val _ o (eDone f) it _ hi hfe hj ho hstep hk
  obtain ⟨hin, -, hq⟩ := s.onQuire_logs q (fun x => x.w.runOn e.val (encA 0x3E f) o noReads (eDone f)) hfx
  refine ⟨_, (s.quire q).endChunk e.val it { x with opsUsed := x.opsUsed + 1 }, rfl, hin, ?_, rfl, rfl, rfl, rfl, rfl, rfl, rfl, rfl, rfl, ?_⟩
  · rw [State.engineOf, hq]
    exact hidle
  · rw [hq]
    exact hslots

/-- The end of a pattern item by TRAP with a program code. -/
theorem trap_ends (s : State) (q : QId) (e : EngId) (f : FmtB) (it : Item) (o : StoreReads) (hi : (s.engineOf q e).item = some it) (hk : it.kind = .pattern)
    (haff : (s.engineOf q e).Affords 1) (hf : f.rd = 0 ∧ f.ra = 0) (hcode : 0x80 ≤ (BitVec.ofNat 8 f.imm.toNat).toNat) :
    s.Traps q e (.trap q e f) (encB 0x3F f) (BitVec.ofNat 8 f.imm.toNat)
      ∧ (s.EngineAt q e (encB 0x3F f) → ∃ t, exec (.trap q e f o) s = .next t ∧ ∀ sl ∈ (t.quire q).slots, sl.seq = it.seq → sl.trapped.isSome = true) := by
  have hbig : ¬f.imm.toNat % 256 < 0x80 := by
    rw [BitVec.toNat_ofNat] at hcode
    omega
  have hstep : eTrap f (s.engineOf q e) = .trap (BitVec.ofNat 8 f.imm.toNat) { s.engineOf q e with opsUsed := (s.engineOf q e).opsUsed + 1 } := by
    rw [eTrap, decide_eq_true hf, issue_ok 1 _ _ haff, if_neg hbig]
  refine ⟨s.traps_of_trap q e _ _ _ noReads (eTrap f) false (fun _ => rfl) rfl ⟨_, hstep⟩, fun hat => ⟨_, rfl, ?_⟩⟩
  obtain ⟨hkept, hlost⟩ := s.ends_trap q e _ noReads (eTrap f) _ _ hat hstep o
  by_cases hu : .uncorrectable ∈ storesGive false o
  · obtain ⟨-, -, -, -, hslots, -⟩ := hlost hu
    exact hslots it hi hk
  · exact (hkept fun r hr h => hu (h ▸ hr)).2.2 it hi hk

/-- Settles O7. -/
theorem engineBuiltinsAndEnds : Obligations.EngineBuiltinsAndEnds := by
  unfold Obligations.EngineBuiltinsAndEnds
  refine ⟨?_, ?_⟩
  · intro s q e f it x y v src cost m taken buffered builtin hp hi ha
    refine ⟨fun hd hra hrb h0 hb => ?_, fun hd hrb h0 => put_turns s q e f ⟨hd, hrb, h0⟩ ha hp, fun hra hrb h0 => fget_turns s q e f it hi ⟨hra, hrb, h0⟩ ha hp⟩
    have hf : f.rd = 0 ∧ f.ra = 0 ∧ f.rb = 0 ∧ f.imm = 0 := ⟨hd, hra, hrb, h0⟩
    have hcdec : builtinRuns f (s.engineOf q e) = true := builtin_legal _ hf ha
    refine ⟨⟨fun d hno => ?_, fun hbuf hat _ n => ?_, fun o ho hat => ?_⟩, ⟨fun d hno => ?_, fun hbuf hat _ n => ?_, fun o ho hat => ?_⟩⟩
    · exact s.builtin_turns q e f (.rawc q e f) _ noReads it (fun _ => rfl) hi hf ha hp hb rfl d hno
    · exact s.builtin_losesBuffer q e f (.rawc q e f) _ noReads it (fun _ => rfl) hi hf ha hp hb hbuf hat n
    · exact s.builtin_losesStores q e f (.rawc q e f) _ noReads it (fun _ => rfl) hi hf ha hp hb rfl o ho hat
    · exact s.builtin_turns q e f (.cdec q e f) _ (builtinRuns f) it (fun _ => rfl) hi hf ha hp hb hcdec d hno
    · exact s.builtin_losesBuffer q e f (.cdec q e f) _ (builtinRuns f) it (fun _ => rfl) hi hf ha hp hb hbuf hat n
    · exact s.builtin_losesStores q e f (.cdec q e f) _ (builtinRuns f) it (fun _ => rfl) hi hf ha hp hb hcdec o ho hat
  · intro s q e f fb it o x code hi hk haff
    exact ⟨fun hd hra hrb h0 _ hem hruns hat => done_ends s q e f it o hi hk haff ⟨hd, hra, hrb, h0⟩ hem hruns hat,
      fun hd hra hcode => trap_ends s q e fb it o hi hk haff ⟨hd, hra⟩ hcode⟩

end Sys2Proof.Proofs
end

section
/-! What becomes of a packet before its command's own checks (R53, R574 to R585, R595 to R599, R637, R765, R837). -/

namespace Sys2Proof.Machine

/-! ### The rows of packets -/

/-- The row takes its packets in the common order (R575, R580): where it does not accept one, what it does is `packet`, and a refusal by form or rights has no result bytes. -/
def IsRow (o : OpSpec) (run : Hdr → Params → State → State) : Prop :=
  ∀ (h : Hdr) (p : Params) (s : State), s.heldPackets = [] → ∃ check act refused,
    (∀ t, malformed o h p ≠ none → refused t stMalformed = []) ∧ (∀ t, notOwner o h t ≠ none → refused t stOwner = [])
      ∧ (s.linkUp h.link = false ∨ accepts o h p s check = false → run h p s = packet o h p s check act refused)

theorem IsRow.of_packet {o : OpSpec} {run : Hdr → Params → State → State} (hrun : ∀ h p s, ∃ check act, run h p s = packet o h p s check act) : IsRow o run := by
  intro h p s _
  obtain ⟨check, act, heq⟩ := hrun h p s
  exact ⟨check, act, fun _ _ => [], fun _ _ => rfl, fun _ _ => rfl, fun _ => heq⟩

/-- A packet refused by its form is refused as a whole. -/
theorem refusal_malformed {o : OpSpec} {h : Hdr} {p : Params} {s : State} {check : State → Option Refuse} {d : BitVec 16} (hm : malformed o h p = some d) :
    refusal o h p s check = some (stMalformed, d) := by
  simp only [refusal, hm]

theorem refusal_notOwner {o : OpSpec} {h : Hdr} {p : Params} {s : State} {check : State → Option Refuse} {d : BitVec 16} (hm : malformed o h p = none) (ho : notOwner o h s = some d) :
    refusal o h p s check = some (stOwner, d) := by
  simp only [refusal, hm, ho]

theorem IsRow.of_mask {o : OpSpec} {run : Hdr → Params → State → State} (hrun : ∀ h p s, ∃ together range check act, run h p s = maskPacket o h p s together range check act) :
    IsRow o run := by
  intro h p s _
  obtain ⟨together, range, check, act, heq⟩ := hrun h p s
  have hwhole : ∀ t : State, malformed o h p ≠ none ∨ notOwner o h t ≠ none → (refusal o h p t fun _ => none).isSome = true := by
    intro t ht
    cases hm : malformed o h p with
    | some d => rw [refusal_malformed hm]; rfl
    | none =>
      obtain ⟨d, hd⟩ := Option.ne_none_iff_exists'.mp (ht.resolve_left (not_not_intro hm))
      rw [refusal_notOwner hm hd]
      rfl
  unfold maskPacket at heq
  refine ⟨_, act, _, fun t ht => ?_, fun t ht => ?_, fun _ => heq⟩
  · exact if_pos (hwhole t (.inl ht))
  · exact if_pos (hwhole t (.inr ht))

theorem IsRow.of_command {o : OpSpec} {run : Hdr → Params → State → State} (hrun : ∀ h p s, ∃ check act, run h p s = maskCommand o h p s check act) : IsRow o run :=
  IsRow.of_mask fun h p s => by
    obtain ⟨check, act, heq⟩ := hrun h p s
    unfold maskCommand at heq
    exact ⟨_, _, _, _, heq⟩

theorem loadSignature_row : IsRow opLoadSignature doLoadSignature := by
  intro h p s hheld
  have hwaits : s.loadWaits h.link = false := by rw [State.loadWaits, hheld]; rfl
  obtain ⟨act, hact⟩ : ∃ act, doLoadSignature h p s = if s.linkUp h.link && (s.loadWaits h.link || loadFull opLoadSignature false h p s) then s.hold (.loadSignature h p)
      else packet opLoadSignature h p s (fun s => loadCheck (s.quire (hdrQuire h)) p) act := ⟨_, rfl⟩
  refine ⟨fun s => loadCheck (s.quire (hdrQuire h)) p, act, fun _ _ => [], fun _ _ => rfl, fun _ _ => rfl, fun hno => ?_⟩
  have hfull : (s.linkUp h.link && (s.loadWaits h.link || loadFull opLoadSignature false h p s)) = false := by
    rcases hno with hl | ha
    · rw [hl, Bool.false_and]
    · rw [hwaits, loadFull, ha, Bool.false_and, Bool.or_false, Bool.and_false]
  rw [hact, if_neg (Bool.eq_false_iff.mp hfull)]

theorem streamData_row : IsRow opStreamData doStreamData := by
  intro h p s hheld
  have hwaits : s.streamWaits h.link = false := by rw [State.streamWaits, hheld]; rfl
  obtain ⟨act, hact⟩ : ∃ act, doStreamData h p s = if s.linkUp h.link && s.streamWaits h.link then s.hold (.streamData h p)
      else if s.linkUp h.link && streamFull opStreamData h p s then (s.onQuire (hdrQuire h) Quire.holdStream).hold (.streamData h p)
      else packet opStreamData h p s (fun s => streamCheck (s.quire (hdrQuire h)) p) act
        fun s st => if st = stMalformed ∨ st = stOwner then [] else (s.quire (hdrQuire h)).streamResult := ⟨_, rfl⟩
  refine ⟨fun s => streamCheck (s.quire (hdrQuire h)) p, act, fun s st => if st = stMalformed ∨ st = stOwner then [] else (s.quire (hdrQuire h)).streamResult,
    fun _ _ => if_pos (.inl rfl), fun _ _ => if_pos (.inr rfl), fun hno => ?_⟩
  have hfull : (s.linkUp h.link && streamFull opStreamData h p s) = false := by
    rcases hno with hl | ha
    · rw [hl, Bool.false_and]
    · rw [streamFull, ha, Bool.false_and, Bool.and_false]
  have hwait : (s.linkUp h.link && s.streamWaits h.link) = false := by rw [hwaits, Bool.and_false]
  rw [hact, if_neg (Bool.eq_false_iff.mp hwait), if_neg (Bool.eq_false_iff.mp hfull)]

/-- What follows a row's packet changes nothing where no packet waits, and none where the interpreter does not run. -/
def Idles (post : State → State) : Prop := ∀ t : State, t.heldPackets = [] ∨ t.interpreting = false → post t = t

theorem idles_id : Idles id := fun _ _ => rfl

theorem idles_takeStreams : Idles State.takeStreams := by
  intro t ht
  refine if_pos ?_
  rcases ht with ht | ht <;> simp [ht]

/-- Each row that is an opcode of its own runs its packets in the common order. -/
theorem packetRow_runs {i : Instr} {h : Hdr} {p : Params} {o : OpSpec} (hrow : packetRow i = some (h, p, o)) :
    ∃ row run post, i = row h p ∧ (∀ s, exec i s = .next (post (front row o.opcode h p s run))) ∧ opcodes.contains o.opcode = true ∧ IsRow o run ∧ Idles post := by
  unfold packetRow at hrow
  split at hrow
  next h p =>
    cases hrow
    exact ⟨.hello, doHello, id, rfl, fun _ => rfl, by decide, (IsRow.of_packet fun h p s => by unfold doHello; exact ⟨_, _, rfl⟩), idles_id⟩
  next h p =>
    cases hrow
    exact ⟨.openSession, doOpenSession, id, rfl, fun _ => rfl, by decide, (IsRow.of_packet fun h p s => by unfold doOpenSession; exact ⟨_, _, rfl⟩), idles_id⟩
  next h p =>
    cases hrow
    exact ⟨.closeSession, doCloseSession, id, rfl, fun _ => rfl, by decide, (IsRow.of_packet fun h p s => by unfold doCloseSession; exact ⟨_, _, rfl⟩), idles_id⟩
  next h p =>
    cases hrow
    exact ⟨.readCfg, doReadCfg, id, rfl, fun _ => rfl, by decide, (IsRow.of_packet fun h p s => by unfold doReadCfg; exact ⟨_, _, rfl⟩), idles_id⟩
  next h p =>
    cases hrow
    exact ⟨.writeCfg, doWriteCfg, id, rfl, fun _ => rfl, by decide, (IsRow.of_packet fun h p s => by unfold doWriteCfg; exact ⟨_, _, rfl⟩), idles_id⟩
  next h p =>
    cases hrow
    exact ⟨.writeCfgBlock, doWriteCfgBlock, id, rfl, fun _ => rfl, by decide, (IsRow.of_packet fun h p s => by unfold doWriteCfgBlock; exact ⟨_, _, rfl⟩), idles_id⟩
  next h p =>
    cases hrow
    exact ⟨.collate, doCollate, id, rfl, fun _ => rfl, by decide, (IsRow.of_packet fun h p s => by unfold doCollate; exact ⟨_, _, rfl⟩), idles_id⟩
  next h p =>
    cases hrow
    exact ⟨.arm, doArm, id, rfl, fun _ => rfl, by decide, IsRow.of_command fun h p s => ⟨_, _, rfl⟩, idles_id⟩
  next h p =>
    cases hrow
    exact ⟨.start, doStart, id, rfl, fun _ => rfl, by decide, (IsRow.of_mask fun h p s => by unfold doStart; exact ⟨_, _, _, _, rfl⟩), idles_id⟩
  next h p =>
    cases hrow
    exact ⟨.stop, doStop, id, rfl, fun _ => rfl, by decide, IsRow.of_command fun h p s => ⟨_, _, rfl⟩, idles_id⟩
  next h p =>
    cases hrow
    exact ⟨.pause, doPause, id, rfl, fun _ => rfl, by decide, IsRow.of_command fun h p s => ⟨_, _, rfl⟩, idles_id⟩
  next h p =>
    cases hrow
    exact ⟨.resume, doResume, id, rfl, fun _ => rfl, by decide, IsRow.of_command fun h p s => ⟨_, _, rfl⟩, idles_id⟩
  next h p =>
    cases hrow
    exact ⟨.rebind, doRebind, State.takeStreams, rfl, fun _ => rfl, by decide, IsRow.of_command fun h p s => ⟨_, _, rfl⟩, idles_takeStreams⟩
  next h p =>
    cases hrow
    exact ⟨.quireReset, doQuireReset, State.takeStreams, rfl, fun _ => rfl, by decide, IsRow.of_command fun h p s => ⟨_, _, rfl⟩, idles_takeStreams⟩
  next h p =>
    cases hrow
    exact ⟨.loadSignature, doLoadSignature, id, rfl, fun _ => rfl, by decide, loadSignature_row, idles_id⟩
  next h p =>
    cases hrow
    exact ⟨.streamData, doStreamData, id, rfl, fun _ => rfl, by decide, streamData_row, idles_id⟩
  next h p =>
    cases hrow
    exact ⟨.freeSignature, doFreeSignature, id, rfl, fun _ => rfl, by decide, (IsRow.of_packet fun h p s => by unfold doFreeSignature; exact ⟨_, _, rfl⟩), idles_id⟩
  next h p =>
    cases hrow
    exact ⟨.querySignature, doQuerySignature, id, rfl, fun _ => rfl, by decide, (IsRow.of_packet fun h p s => by unfold doQuerySignature; exact ⟨_, _, rfl⟩), idles_id⟩
  next h p =>
    cases hrow
    exact ⟨.readVerdict, doReadVerdict, id, rfl, fun _ => rfl, by decide, (IsRow.of_packet fun h p s => by unfold doReadVerdict; exact ⟨_, _, rfl⟩), idles_id⟩
  next h p a l =>
    cases hrow
    exact ⟨fun h p => .readCapture h p a l, fun h p => doReadCapture h p a l, id, rfl, fun _ => rfl, by decide, (IsRow.of_packet fun h p s => by unfold doReadCapture; exact ⟨_, _, rfl⟩), idles_id⟩
  next h p =>
    cases hrow
    exact ⟨.readRepair, doReadRepair, id, rfl, fun _ => rfl, by decide, (IsRow.of_packet fun h p s => by unfold doReadRepair; exact ⟨_, _, rfl⟩), idles_id⟩
  next h p =>
    cases hrow
    exact ⟨.timeSet, doTimeSet, id, rfl, fun _ => rfl, by decide, (IsRow.of_packet fun h p s => by unfold doTimeSet; exact ⟨_, _, rfl⟩), idles_id⟩
  next h p =>
    cases hrow
    exact ⟨.timeAdj, doTimeAdj, id, rfl, fun _ => rfl, by decide, (IsRow.of_packet fun h p s => by unfold doTimeAdj; exact ⟨_, _, rfl⟩), idles_id⟩
  next h p =>
    cases hrow
    exact ⟨.timeRead, doTimeRead, id, rfl, fun _ => rfl, by decide, (IsRow.of_packet fun h p s => by unfold doTimeRead; exact ⟨_, _, rfl⟩), idles_id⟩
  next h p =>
    cases hrow
    exact ⟨.snapshot, doSnapshot, id, rfl, fun _ => rfl, by decide, (IsRow.of_mask fun h p s => by unfold doSnapshot; exact ⟨_, _, _, _, rfl⟩), idles_id⟩
  next h p =>
    cases hrow
    exact ⟨.calRetrim, doCalRetrim, id, rfl, fun _ => rfl, by decide, (IsRow.of_packet fun h p s => by unfold doCalRetrim; exact ⟨_, _, rfl⟩), idles_id⟩
  next h p =>
    cases hrow
    exact ⟨.calCommit, doCalCommit, id, rfl, fun _ => rfl, by decide, (IsRow.of_packet fun h p s => by unfold doCalCommit; exact ⟨_, _, rfl⟩), idles_id⟩
  next h p =>
    cases hrow
    exact ⟨.calQuery, doCalQuery, id, rfl, fun _ => rfl, by decide, (IsRow.of_packet fun h p s => by unfold doCalQuery; exact ⟨_, _, rfl⟩), idles_id⟩
  next h p =>
    cases hrow
    exact ⟨.logFreeze, doLogFreeze, id, rfl, fun _ => rfl, by decide, (IsRow.of_packet fun h p s => by unfold doLogFreeze; exact ⟨_, _, rfl⟩), idles_id⟩
  next h p =>
    cases hrow
    exact ⟨.logRead, doLogRead, id, rfl, fun _ => rfl, by decide, (IsRow.of_packet fun h p s => by unfold doLogRead; exact ⟨_, _, rfl⟩), idles_id⟩
  next h p =>
    cases hrow
    exact ⟨.logThaw, doLogThaw, id, rfl, fun _ => rfl, by decide, (IsRow.of_packet fun h p s => by unfold doLogThaw; exact ⟨_, _, rfl⟩), idles_id⟩
  next h p =>
    cases hrow
    exact ⟨.faultRead, doFaultRead, id, rfl, fun _ => rfl, by decide, (IsRow.of_packet fun h p s => by unfold doFaultRead; exact ⟨_, _, rfl⟩), idles_id⟩
  next h p =>
    cases hrow
    exact ⟨.faultPinHold, doFaultPinHold, id, rfl, fun _ => rfl, by decide, (IsRow.of_packet fun h p s => by unfold doFaultPinHold; exact ⟨_, _, rfl⟩), idles_id⟩
  next h p =>
    cases hrow
    exact ⟨.faultInject, doFaultInject, id, rfl, fun _ => rfl, by decide, (IsRow.of_packet fun h p s => by unfold doFaultInject; exact ⟨_, _, rfl⟩), idles_id⟩
  next h p =>
    cases hrow
    exact ⟨.budgetSet, doBudgetSet, id, rfl, fun _ => rfl, by decide, (IsRow.of_packet fun h p s => by unfold doBudgetSet; exact ⟨_, _, rfl⟩), idles_id⟩
  next h p =>
    cases hrow
    exact ⟨.budgetQuery, doBudgetQuery, id, rfl, fun _ => rfl, by decide, (IsRow.of_packet fun h p s => by unfold doBudgetQuery; exact ⟨_, _, rfl⟩), idles_id⟩
  next h p =>
    cases hrow
    exact ⟨.patchStage, doPatchStage, id, rfl, fun _ => rfl, by decide, (IsRow.of_packet fun h p s => by unfold doPatchStage; exact ⟨_, _, rfl⟩), idles_id⟩
  next h p =>
    cases hrow
    exact ⟨.spineRestart, doSpineRestart, id, rfl, fun _ => rfl, by decide, (IsRow.of_packet fun h p s => by unfold doSpineRestart; exact ⟨_, _, rfl⟩), idles_id⟩
  next h p =>
    cases hrow
    exact ⟨.selftest, doSelftest, id, rfl, fun _ => rfl, by decide, (IsRow.of_packet fun h p s => by unfold doSelftest; exact ⟨_, _, rfl⟩), idles_id⟩
  next h p =>
    cases hrow
    exact ⟨.tmuMeasure, doTmuMeasure, id, rfl, fun _ => rfl, by decide, (IsRow.of_packet fun h p s => by unfold doTmuMeasure; exact ⟨_, _, rfl⟩), idles_id⟩
  next h p =>
    cases hrow
    exact ⟨.pmuMeasure, doPmuMeasure, id, rfl, fun _ => rfl, by decide, (IsRow.of_packet fun h p s => by unfold doPmuMeasure; exact ⟨_, _, rfl⟩), idles_id⟩
  next h p =>
    cases hrow
    exact ⟨.laneTest, doLaneTest, id, rfl, fun _ => rfl, by decide, (IsRow.of_packet fun h p s => by unfold doLaneTest; exact ⟨_, _, rfl⟩), idles_id⟩
  next h p =>
    cases hrow
    exact ⟨.chipReset, doChipReset, id, rfl, fun _ => rfl, by decide, (IsRow.of_packet fun h p s => by unfold doChipReset; exact ⟨_, _, rfl⟩), idles_id⟩
  next => cases hrow

/-! ### The cases that the interpreter turns away -/

/-- Of a state, what no packet that is turned away touches. -/
def State.Same (s t : State) : Prop :=
  t.quires = s.quires ∧ t.time = s.time ∧ t.clock = s.clock ∧ t.spine = s.spine ∧ t.flash = s.flash ∧ t.cal = s.cal ∧ t.gov = s.gov

theorem State.bump_same (s : State) (k : LinkId) (c : PktClass) (key : Nat) : s.Same ((s.freeBuffer k c).bump key) := by
  simp [State.Same]

theorem State.resend_same (s : State) (k : LinkId) (c : PktClass) (r : Reply) : s.Same ((s.freeBuffer k c).resend r) := by
  unfold State.resend State.Same
  split <;> simp

theorem State.freeBuffer_same (s : State) (k : LinkId) (c : PktClass) : s.Same (s.freeBuffer k c) := by
  simp [State.Same]

theorem State.refuse_same (s : State) (k : LinkId) (c : PktClass) (h : Hdr) (op : Byte) (r : Refuse) (res : List Byte) : s.Same ((s.freeBuffer k c).refuse h op r res) := by
  simp [State.Same]

@[simp] theorem State.resend_heldPackets (s : State) (r : Reply) : (s.resend r).heldPackets = s.heldPackets := by
  unfold State.resend
  split <;> simp

theorem State.freeBuffer_restartDue (s : State) (k : LinkId) (c : PktClass) : (s.freeBuffer k c).restartDue = s.restartDue := by
  simp [State.restartDue]

/-- A reply on a link that is up is sent. -/
theorem State.wire_sent (s : State) (r : Reply) (hl : s.linkUp r.dest.link = true) : (s.wire r).sent = s.sent ++ [r] := by
  have hup : ∀ t : State, t.links = s.links → (t.link r.dest.link).phase = .up ∨ (t.link r.dest.link).phase = .changing := by
    intro t ht
    rw [State.link_congr s t _ ht]
    simpa [State.linkUp] using hl
  unfold State.wire
  dsimp only
  split
  · rw [if_pos (hup _ (by simp))]
    simp
  · rw [if_pos (hup _ rfl)]
    simp

theorem State.resend_sent (s : State) (k : LinkId) (c : PktClass) (r : Reply) (hi : s.interpreting = true) (hl : s.linkUp r.dest.link = true) :
    ((s.freeBuffer k c).resend r).sent = s.sent ++ [r] := by
  have hrun := State.interpreting_restarting s hi
  have hno : (s.freeBuffer k c).restarting = false := by rw [State.restarting, State.freeBuffer_restartDue, State.freeBuffer_spine, hrun.1, hrun.2]; rfl
  rw [State.resend, if_neg (Bool.eq_false_iff.mp hno), State.wire_sent _ _ (by rwa [State.freeBuffer_linkUp]), State.freeBuffer_sent]

section
variable (s : State) (i : Instr) (h : Hdr) (p : Params) (o : OpSpec) (hrow : packetRow i = some (h, p, o)) (hheld : s.heldPackets = [])
include hrow hheld

/-- On a link that is down the row does nothing. -/
theorem exec_linkDown (hl : s.linkUp h.link = false) : exec i s = .next s := by
  obtain ⟨row, run, post, -, hexec, -, hrun, hpost⟩ := packetRow_runs hrow
  have hdown : ∀ h' p', h'.link = h.link → run h' p' s = s := by
    intro h' p' hk
    obtain ⟨check, act, refused, -, -, heq⟩ := hrun h' p' s hheld
    have hl' : s.linkUp h'.link = false := hk ▸ hl
    rw [heq (.inl hl'), packet_down s o h' p' check act refused hl']
  have hlist : s.answerUnlisted h.link h.cls = s := by
    unfold State.answerUnlisted
    split
    · rfl
    · exact List.foldlRecOn (motive := fun t => t = s) _ _ rfl fun t ht b _ => by
        subst ht
        exact packet_down _ _ _ _ _ _ _ hl
  have hlink : (s.arriving o.opcode h p).1.link = h.link := by
    unfold State.arriving
    split
    · split <;> rfl
    · rfl
  have hfront : front row o.opcode h p s run = s := by
    unfold front
    rw [hlist]
    split
    · dsimp only
      split
      · exact hdown _ _ hlink
      · rfl
    · rw [if_neg (Bool.eq_false_iff.mp hl)]
  rw [hexec, hfront, hpost s (.inl hheld)]

/-- While the interpreter does not run, a packet waits. -/
theorem exec_waits (hl : s.linkUp h.link = true) (hi : s.interpreting = false) : exec i s = .next { s with heldPackets := [i] } := by
  obtain ⟨row, run, post, rfl, hexec, -, -, hpost⟩ := packetRow_runs hrow
  have hfront : front row o.opcode h p s run = { s with heldPackets := [row h p] } := by
    unfold front
    rw [if_neg (Bool.eq_false_iff.mp hi), if_pos hl, hheld]
    rfl
  have hstill : ({ s with heldPackets := [row h p] } : State).interpreting = false := hi
  rw [hexec, hfront, hpost _ (.inr hstill)]

variable (hl : s.linkUp h.link = true) (hi : s.interpreting = true) (ha : s.Arrives o.opcode h p)
include hi ha

/-- A packet that the row does not accept is dealt with in the common order. -/
theorem exec_packet : ∃ check act refused,
    (∀ t, malformed o h p ≠ none → refused t stMalformed = []) ∧ (∀ t, notOwner o h t ≠ none → refused t stOwner = [])
      ∧ (accepts o h p s check = false → (packet o h p s check act refused).heldPackets = [] → exec i s = .next (packet o h p s check act refused)) := by
  obtain ⟨row, run, post, rfl, hexec, hop, hrun, hpost⟩ := packetRow_runs hrow
  obtain ⟨check, act, refused, h1, h2, heq⟩ := hrun h p s hheld
  refine ⟨check, act, refused, h1, h2, fun hno hempty => ?_⟩
  rw [hexec, front_interpreting s row o.opcode h p run hi hop ha, heq (.inr hno), hpost _ (.inl hempty)]

include hl

theorem exec_badCrc (hw : wholePacket h o.opcode p = false) : exec i s = .next ((s.freeBuffer h.link h.cls).bump (rk 8 (0x108 + 0x20 * h.link.val))) := by
  obtain ⟨check, act, refused, -, -, heq⟩ := exec_packet s i h p o hrow hheld hi ha
  have hp := packet_badCrc s o h p check act refused hl hw
  rw [heq (by simp [accepts, hw]) (by rw [hp]; simpa using hheld), hp]

theorem exec_inProgress (hw : wholePacket h o.opcode p = true) (ht : tagUse o h s = .inProgress) :
    exec i s = .next ((s.freeBuffer h.link h.cls).bump (rk 8 (0x10C + 0x20 * h.link.val))) := by
  obtain ⟨check, act, refused, -, -, heq⟩ := exec_packet s i h p o hrow hheld hi ha
  have hp := packet_inProgress s o h p check act refused hl hw ((tagUse_freeBuffer s o h _ _).trans ht)
  rw [heq (by simp [accepts, ht]) (by rw [hp]; simpa using hheld), hp]

theorem exec_reused (hw : wholePacket h o.opcode p = true) (ht : tagUse o h s = .reused) :
    exec i s = .next ((s.freeBuffer h.link h.cls).resend { dest := hdrDest h o.opcode, status := stMalformed, detail := 0x0007, result := [] }) := by
  obtain ⟨check, act, refused, -, -, heq⟩ := exec_packet s i h p o hrow hheld hi ha
  have hp : packet o h p s check act refused = (s.freeBuffer h.link h.cls).resend { dest := hdrDest h o.opcode, status := stMalformed, detail := 0x0007, result := [] } := by
    simp [packet, hl, hw, tagUse_freeBuffer, ht]
  rw [heq (by simp [accepts, ht]) (by rw [hp]; simpa using hheld), hp]

theorem exec_retry (hw : wholePacket h o.opcode p = true) (r : Option Reply) (ht : tagUse o h s = .retry r) :
    exec i s = .next (match r with | none => s.freeBuffer h.link h.cls | some r => (s.freeBuffer h.link h.cls).resend r) := by
  obtain ⟨check, act, refused, -, -, heq⟩ := exec_packet s i h p o hrow hheld hi ha
  have hp : packet o h p s check act refused = match r with | none => s.freeBuffer h.link h.cls | some r => (s.freeBuffer h.link h.cls).resend r := by
    cases r <;> simp [packet, hl, hw, tagUse_freeBuffer, ht]
  rw [heq (by simp [accepts, ht]) (by rw [hp]; cases r <;> simpa using hheld), hp]

/-- A packet that its form, its rights or a fault refuse, whatever its own checks say. -/
theorem exec_refused (hw : wholePacket h o.opcode p = true) (ht : tagUse o h s = .new) (r : Refuse)
    (hr : ∀ check, refusal o h p s check = some r ∧ refusal o h p (s.freeBuffer h.link h.cls) check = some r) :
    ∃ res, exec i s = .next ((s.freeBuffer h.link h.cls).refuse h o.opcode r res) ∧ (malformed o h p ≠ none → r.1 = stMalformed → res = [])
      ∧ (notOwner o h s ≠ none → r.1 = stOwner → res = []) := by
  obtain ⟨check, act, refused, h1, h2, heq⟩ := exec_packet s i h p o hrow hheld hi ha
  obtain ⟨hr1, hr2⟩ := hr check
  have hp := packet_refused s o h p check act refused hl hw ((tagUse_freeBuffer s o h _ _).trans ht) r hr2
  refine ⟨refused (s.freeBuffer h.link h.cls) r.1, ?_, fun hm hst => by rw [hst]; exact h1 _ hm, fun hno hst => by rw [hst]; exact h2 _ (by rwa [notOwner_freeBuffer])⟩
  rw [heq (by simp [accepts, hr1]) (by rw [hp]; simpa using hheld), hp]

end

/-! ### Tags (R583 to R585) -/

/-- The tag of the packet is one that its session keeps. -/
def State.Tagged (s : State) (h : Hdr) (o : OpSpec) : Prop :=
  (s.session h.link).isOpen = true ∧ o.opcode ≠ 0x01 ∧ (h.session = (s.session h.link).handle ∨ (o.opcode = 0x02 ∧ h.session = 0))

/-- A command with the tag is in progress. -/
def State.TagBusy (s : State) (h : Hdr) : Prop := ∃ e ∈ (s.session h.link).inProgress, e.1 = h.tag

theorem State.tagged_iff (s : State) (h : Hdr) (o : OpSpec) :
    ((s.session h.link).isOpen && o.opcode ≠ 0x01 && (h.session = (s.session h.link).handle || (o.opcode = 0x02 && h.session = 0))) = true ↔ s.Tagged h o := by
  simp [State.Tagged, and_assoc]

theorem State.tagBusy_iff (s : State) (h : Hdr) : (s.session h.link).inProgress.any (fun e => decide (e.1 = h.tag)) = true ↔ s.TagBusy h := by
  simp [State.TagBusy, List.any_eq_true]

theorem tagUse_untagged {s : State} {h : Hdr} {o : OpSpec} (ht : ¬s.Tagged h o) : tagUse o h s = .new := if_neg (mt (s.tagged_iff h o).mp ht)

theorem tagUse_tagged {s : State} {h : Hdr} {o : OpSpec} (ht : s.Tagged h o) : tagUse o h s =
    if (s.session h.link).inProgress.any (fun e => e.1 = h.tag) then .inProgress
    else match (s.session h.link).completed.find? fun c => c.tag = h.tag with
      | some c => if c.opcode ≠ o.opcode then .reused else if o.again then .new else .retry c.reply
      | none => .new := if_pos ((s.tagged_iff h o).mpr ht)

theorem tagUse_busy {s : State} {h : Hdr} {o : OpSpec} (ht : s.Tagged h o) (hb : s.TagBusy h) : tagUse o h s = .inProgress := by
  rw [tagUse_tagged ht, if_pos ((s.tagBusy_iff h).mpr hb)]

theorem tagUse_completed {s : State} {h : Hdr} {o : OpSpec} (ht : s.Tagged h o) (hb : ¬s.TagBusy h) {c : Completed}
    (hc : (s.session h.link).completed.find? (fun c => c.tag = h.tag) = some c) :
    tagUse o h s = if c.opcode ≠ o.opcode then .reused else if o.again then .new else .retry c.reply := by
  rw [tagUse_tagged ht, if_neg (mt (s.tagBusy_iff h).mp hb), hc]

theorem tagUse_fresh {s : State} {h : Hdr} {o : OpSpec} (hf : s.Tagged h o → ¬s.TagBusy h ∧ ∀ c ∈ (s.session h.link).completed, c.tag ≠ h.tag) : tagUse o h s = .new := by
  by_cases ht : s.Tagged h o
  · obtain ⟨hb, hc⟩ := hf ht
    have hnone : (s.session h.link).completed.find? (fun c => decide (c.tag = h.tag)) = none := by simpa using hc
    rw [tagUse_tagged ht, if_neg (mt (s.tagBusy_iff h).mp hb), hnone]
  · exact tagUse_untagged ht

end Sys2Proof.Machine

namespace Sys2Proof.Proofs
open Sys2Proof.Machine

/-- A refusal that stands whatever the command's own checks say is the reply, and the packet has no other effect. -/
theorem packet_refuses (s : State) (i : Instr) (h : Hdr) (p : Params) (o : OpSpec) (hrow : packetRow i = some (h, p, o)) (hheld : s.heldPackets = []) (hl : s.linkUp h.link = true)
    (hi : s.interpreting = true) (ha : s.Arrives o.opcode h p) (hw : wholePacket h o.opcode p = true) (ht : tagUse o h s = .new) (st : Byte) (d : BitVec 16)
    (hr : ∀ check, refusal o h p s check = some (st, d) ∧ refusal o h p (s.freeBuffer h.link h.cls) check = some (st, d))
    (hkind : st = stFaulted ∨ (st = stMalformed ∧ malformed o h p ≠ none) ∨ (st = stOwner ∧ notOwner o h s ≠ none)) :
    ∃ t result, exec i s = .next t ∧ s.Same t ∧ s.Answers t h o st d result ∧ (st ≠ stFaulted → result = []) := by
  obtain ⟨res, hexec, h1, h2⟩ := exec_refused s i h p o hrow hheld hl hi ha hw ht (st, d) hr
  have hrun := State.interpreting_restarting s hi
  refine ⟨_, res, hexec, s.refuse_same _ _ _ _ _ _, ?_, fun hne => ?_⟩
  · have hsent := State.answer_sent (s.freeBuffer h.link h.cls) { dest := hdrDest h o.opcode, status := st, detail := d, result := res }
      (by simpa using hrun.1) (by rw [State.freeBuffer_restartDue]; exact hrun.2) (by simpa [hdrDest] using hl)
    rw [State.freeBuffer_sent] at hsent
    exact hsent
  · rcases hkind with rfl | ⟨rfl, hm⟩ | ⟨rfl, ho⟩
    · exact absurd rfl hne
    · exact h1 hm rfl
    · exact h2 ho rfl

/-- The first of R581's refusals. -/
theorem malformed_version {o : OpSpec} {h : Hdr} {p : Params} (hv : h.version ≠ 1) : malformed o h p = some 0x0001 := if_pos hv

theorem malformed_length {o : OpSpec} {h : Hdr} {p : Params} (hop : opcodes.contains o.opcode = true) (hv : h.version = 1)
    (hlen : h.length ≠ p.length ∨ p.length < o.lenMin ∨ o.lenMax < p.length) : malformed o h p = some 0x0003 := by
  rw [malformed, if_neg (not_not_intro hv), hop, Bool.not_true, if_neg Bool.false_ne_true, if_pos]
  rcases hlen with h | h | h
  · exact .inl h
  · exact .inr (.inl h)
  · exact .inr (.inr (.inl h))

theorem notOwner_handle {o : OpSpec} {h : Hdr} {s : State} (h1 : o.opcode ≠ 0x01) (h2 : ¬(o.opcode = 0x02 ∧ h.session = 0)) (hno : s.handleOk h = false) :
    notOwner o h s = some 0x0001 := by
  unfold notOwner
  dsimp only
  rw [if_neg h1]
  split
  · next ho => rw [hno, Bool.or_false, if_neg (by simpa using fun h0 => h2 ⟨ho, h0⟩)]
  · rw [hno, Bool.not_false, if_pos rfl]

theorem notOwner_handled {o : OpSpec} {h : Hdr} {s : State} (hok : s.handleOk h = true) (h1 : o.opcode ≠ 0x01) (h2 : o.opcode ≠ 0x02) :
    (o.need = .steward → s.isSteward h.link = false → notOwner o h s = some 0x0003)
      ∧ (o.need = .owner → o.quires = .one → (quiresOf h.qmask).all (fun q => s.owns h.link q) = false → notOwner o h s = some 0x0002) := by
  unfold notOwner
  dsimp only
  rw [if_neg h1, if_neg h2, hok, Bool.not_true, if_neg Bool.false_ne_true]
  refine ⟨fun hn hs => ?_, fun hn hq hs => ?_⟩
  · rw [hn, hs]
    rfl
  · rw [hn, hq, hs]
    rfl

theorem handleOk_iff (s : State) (h : Hdr) : s.handleOk h = true ↔ (s.session h.link).isOpen = true ∧ h.session = (s.session h.link).handle := by
  simp [State.handleOk]

/-- A fault stands against a packet to a quire, or to a chip that is faulted. -/
theorem refusal_faulted {o : OpSpec} {h : Hdr} {p : Params} {s : State} {check : State → Option Refuse} (hm : malformed o h p = none) (hno : notOwner o h s = none)
    (hf : ((s.collector.faulted && !o.inChipFault) || ((o.quires = .one || o.quires = .chipOrOne) && (quiresOf h.qmask).any fun q => s.faultComing q)) = true) :
    refusal o h p s check = some (stFaulted, 0) := by
  rw [refusal, hm, hno]
  exact if_pos hf

/-- Settles O60: the interpreter deals with a packet in the order of R575 and R580. -/
theorem packetRefusals : Obligations.PacketRefusals := by
  unfold Obligations.PacketRefusals
  intro s i h p o hrow hheld k x whole same drops refuses tagged busy fresh handled
  refine ⟨exec_linkDown s i h p o hrow hheld, exec_waits s i h p o hrow hheld, fun hl hi ha => ⟨fun hw => ?_, fun hw ht hb => ?_, fun hw ht hb c hc => ⟨fun hop => ?_, fun r hop hag hr hup => ?_, fun hop hag hr => ?_⟩,
    fun hw hf => ?_⟩⟩
  · refine ⟨_, exec_badCrc s i h p o hrow hheld hl hi ha hw, s.bump_same _ _ _, by simp, by simp, ?_⟩
    have hc := (s.freeBuffer h.link h.cls).bump_counted (rk 8 (0x108 + 0x20 * h.link.val)) 1
    rwa [State.freeBuffer_reg] at hc
  · refine ⟨_, exec_inProgress s i h p o hrow hheld hl hi ha hw (tagUse_busy ht hb), s.bump_same _ _ _, by simp, by simp, ?_⟩
    have hc := (s.freeBuffer h.link h.cls).bump_counted (rk 8 (0x10C + 0x20 * h.link.val)) 1
    rwa [State.freeBuffer_reg] at hc
  · have htag : tagUse o h s = .reused := (tagUse_completed ht hb hc).trans (if_pos hop)
    exact ⟨_, [], exec_reused s i h p o hrow hheld hl hi ha hw htag, s.resend_same _ _ _, s.resend_sent _ _ _ hi hl, fun _ => rfl⟩
  · have htag : tagUse o h s = .retry (some r) := by rw [tagUse_completed ht hb hc, if_neg (not_not_intro hop), hag, hr]; rfl
    exact ⟨_, exec_retry s i h p o hrow hheld hl hi ha hw _ htag, s.resend_same _ _ _, s.resend_sent _ _ _ hi hup⟩
  · have htag : tagUse o h s = .retry none := by rw [tagUse_completed ht hb hc, if_neg (not_not_intro hop), hag, hr]; rfl
    exact ⟨_, exec_retry s i h p o hrow hheld hl hi ha hw _ htag, s.freeBuffer_same _ _, by simp⟩
  · have ht : tagUse o h s = .new := tagUse_fresh hf
    have hop : opcodes.contains o.opcode = true := by
      obtain ⟨_, _, _, -, -, hop, -⟩ := packetRow_runs hrow
      exact hop
    have hrefuses := packet_refuses s i h p o hrow hheld hl hi ha hw ht
    have hmal : ∀ d, malformed o h p = some d → refuses stMalformed d := fun d hm =>
      hrefuses _ d (fun _ => ⟨refusal_malformed hm, refusal_malformed hm⟩) (.inr (.inl ⟨rfl, by rw [hm]; exact Option.some_ne_none d⟩))
    have hown : ∀ d, malformed o h p = none → notOwner o h s = some d → refuses stOwner d := fun d hm ho =>
      hrefuses _ d (fun _ => ⟨refusal_notOwner hm ho, refusal_notOwner hm (by rwa [notOwner_freeBuffer])⟩) (.inr (.inr ⟨rfl, by rw [ho]; exact Option.some_ne_none d⟩))
    refine ⟨fun hv => hmal _ (malformed_version hv), fun hv hlen => hmal _ (malformed_length hop hv hlen), fun hm h1 h2 hno => ?_, fun hm hok h1 h2 => ⟨fun hn hst => ?_, fun hn hq hnot => ?_⟩, fun hm ho hfault => ?_⟩
    · exact hown _ hm (notOwner_handle h1 h2 (Bool.eq_false_iff.mpr fun hok => hno ((handleOk_iff s h).mp hok)))
    · exact hown _ hm ((notOwner_handled ((handleOk_iff s h).mpr hok) h1 h2).1 hn (by rw [State.isSteward, hst, Bool.and_false]))
    · refine hown _ hm ((notOwner_handled ((handleOk_iff s h).mpr hok) h1 h2).2 hn hq ?_)
      obtain ⟨q, hq, hne⟩ := hnot
      exact List.all_eq_false.mpr ⟨q, hq, by simpa [State.owns] using fun _ => hne⟩
    · have hcoming : ((s.collector.faulted && !o.inChipFault) || ((o.quires = .one || o.quires = .chipOrOne) && (quiresOf h.qmask).any fun q => s.faultComing q)) = true := by
        rw [Bool.or_eq_true]
        rcases hfault with ⟨hc, hin⟩ | ⟨hq, q, hqm, r, hr, hsev⟩
        · exact .inl (by rw [hc, hin]; rfl)
        · have hone : s.faultComing q = true := List.any_eq_true.mpr ⟨r, hr, by simpa using hsev⟩
          exact .inr (Bool.and_eq_true_iff.mpr ⟨by simpa using hq, List.any_eq_true.mpr ⟨q, hqm, hone⟩⟩)
      refine hrefuses _ 0 (fun _ => ⟨refusal_faulted hm ho hcoming, refusal_faulted hm (by rwa [notOwner_freeBuffer]) ?_⟩) (.inl rfl)
      simpa [faultComing_freeBuffer] using hcoming

end Sys2Proof.Proofs
end

section
/-! The sequencer: how the entry that it resolves next moves it (R94 to R98, R106). -/

namespace Sys2Proof.Machine

/-- Waits that follow the entry come onto the path, each for its entry, and nothing else changes (R106). -/
theorem passWaits_shape (n : Nat) (x : Quire) : ∃ waits : List Block, (∀ b ∈ waits, b.isWait = true) ∧ waits.map (·.entry) = List.range' x.seq.pc waits.length
    ∧ passWaits n x = { x with seq := { x.seq with plan := x.seq.plan ++ waits, pc := x.seq.pc + waits.length } } := by
  induction n generalizing x with
  | zero => exact ⟨[], by simp, rfl, by simp [passWaits]⟩
  | succ n ih =>
    by_cases hop : x.bindOp x.seq.pc = 8 ∨ x.bindOp x.seq.pc = 9
    · obtain ⟨waits, hwait, hentry, heq⟩ := ih x.addBlock
      refine ⟨x.newBlock x.seq.pc :: waits, ?_, ?_, ?_⟩
      · rintro b (_ | ⟨_, hb⟩)
        · simpa [Block.isWait, Quire.newBlock] using hop
        · exact hwait b hb
      · rw [List.map_cons, hentry, List.length_cons, List.range'_succ]
        rfl
      · rw [passWaits, if_pos hop, heq]
        simp [Quire.addBlock, Nat.add_comm 1, Nat.add_assoc]
    · exact ⟨[], by simp, rfl, by simp [passWaits, hop]⟩

/-- An entry that moves the sequencer to `u` leaves the quire as the statements say. -/
theorem Quire.goes_resolve (x : Quire) (op : Nat) (f : Quire → Quire) (u : Sequencer) (hrun : x.state.inRun = true) (hop : x.bindOp x.seq.pc = op) (hf : f x = { x with seq := u }) :
    x.Goes (x.resolve op f) u := by
  have hres : x.resolves op = true := by simp [Quire.resolves, hrun, hop]
  obtain ⟨waits, hwait, hentry, heq⟩ := passWaits_shape 256 (f x)
  rw [hf] at hentry heq
  exact ⟨waits, hwait, hentry, by rw [Quire.resolve, if_pos hres, hf, heq]⟩

/-- The row resolves an entry of its operation, and changes nothing but its quire. -/
theorem exec_goes (s : State) (q : QId) (i : Instr) (op : Nat) (f : Quire → Quire) (u : Sequencer) (hexec : exec i s = .next (s.modQuire q fun x => x.resolve op f))
    (hrun : (s.quire q).state.inRun = true) (hop : (s.quire q).bindOp (s.quire q).seq.pc = op) (hf : f (s.quire q) = { s.quire q with seq := u }) :
    ∃ y, exec i s = .next (s.setQuire q y) ∧ (s.quire q).Goes y u :=
  ⟨_, hexec, (s.quire q).goes_resolve op f u hrun hop hf⟩

theorem Quire.jumpNow_eq (x : Quire) :
    x.jumpNow = { x with seq := { x.seq with
      pc := x.bindTarget x.seq.pc, entry := if x.idles then x.seq.pc else x.seq.entry
      loops := x.closeLoops x.seq.calls.length (x.bindTarget x.seq.pc) x.seq.loops } } := by
  unfold Quire.jumpNow
  cases x.idles <;> rfl

/-- An entry that moves the sequencer along its walk. -/
theorem exec_walks (s : State) (q : QId) (i : Instr) (op : Nat) (f : Quire → Walk → Walk) (w : Walk) (hexec : exec i s = .next (s.modQuire q fun x => x.resolve op (Quire.goes (f x))))
    (hrun : (s.quire q).state.inRun = true) (hop : (s.quire q).bindOp (s.quire q).seq.pc = op) (hf : f (s.quire q) (s.quire q).seq.walk = w) :
    ∃ y, exec i s = .next (s.setQuire q y) ∧ (s.quire q).Goes y ((s.quire q).seq.moved w) :=
  ⟨_, hexec, (s.quire q).goes_resolve op (Quire.goes (f (s.quire q))) _ hrun hop (by rw [Quire.goes, hf])⟩

theorem Quire.walkLoopEnd_again (x : Quire) {w : Walk} {f : LoopFrame} {rest : List LoopFrame} (h : w.loops = f :: rest) (hl : 1 < f.left) :
    x.walkLoopEnd w = { w with pc := x.bindTarget w.pc + 1, loops := { f with left := f.left - 1 } :: rest } := by
  simp only [Quire.walkLoopEnd, h, if_neg (not_le.mpr hl)]

theorem Quire.walkLoopEnd_over (x : Quire) {w : Walk} {f : LoopFrame} {rest : List LoopFrame} (h : w.loops = f :: rest) (hl : f.left ≤ 1) :
    x.walkLoopEnd w = { w with pc := w.pc + 1, loops := rest } := by
  simp only [Quire.walkLoopEnd, h, if_pos hl]

theorem Quire.walkReturn_to {w : Walk} {r : Nat} {rest : List Nat} (h : w.calls = r :: rest) : Quire.walkReturn w = { w with pc := r, calls := rest } := by
  simp only [Quire.walkReturn, h]

/-- A block for an entry that plays its signature. -/
theorem Quire.newBlock_plays (x : Quire) (e : Nat) (h : x.bindOp e = 1 ∨ x.bindOp e = 7) :
    (x.newBlock e).sig = x.bindSig e ∧ (x.newBlock e).count = if x.bindOp e = 1 then (x.bindArg e).toNat else 1 := by
  have hplays : (decide (x.bindOp e = 1) || decide (x.bindOp e = 7)) = true := by simpa using h
  simp only [Quire.newBlock, hplays]
  exact ⟨rfl, rfl⟩

end Sys2Proof.Machine

namespace Sys2Proof.Proofs
open Sys2Proof.Machine

/-- Settles O9: each operation moves the sequencer as the binding table says, and the waits that follow come onto the path. -/
theorem sequencerFollowsTheTable : Obligations.SequencerFollowsTheTable := by
  unfold Obligations.SequencerFollowsTheTable
  intro s q x e op sig target arg goes onPath hrun
  refine ⟨fun h => ⟨x.newBlock e, ?_, exec_goes s q _ 1 _ _ rfl hrun h rfl⟩, fun h => ⟨x.newBlock e, ?_, exec_goes s q _ 7 _ _ rfl hrun h rfl⟩, fun h => ?_, fun f rest h hf hl => ?_,
    fun f rest h hf hl => ?_, fun h => ?_, fun r rest h hr => ?_, fun h => ?_⟩
  · obtain ⟨hsig, hcount⟩ := x.newBlock_plays e (.inl h)
    have hop : x.bindOp e = 1 := h
    rw [if_pos hop] at hcount
    exact ⟨rfl, rfl, hsig, hcount, rfl, rfl, rfl, rfl, rfl, rfl, rfl⟩
  · obtain ⟨hsig, hcount⟩ := x.newBlock_plays e (.inr h)
    have hne : ¬x.bindOp e = 1 := by rw [show x.bindOp e = 7 from h]; decide
    rw [if_neg hne] at hcount
    exact ⟨rfl, rfl, hsig, hcount, rfl, rfl, rfl, rfl, rfl, rfl, rfl⟩
  · exact exec_walks s q _ 2 Quire.walkLoopBegin _ rfl hrun h rfl
  · exact exec_walks s q _ 3 Quire.walkLoopEnd _ rfl hrun h (x.walkLoopEnd_again (w := x.seq.walk) hf hl)
  · exact exec_walks s q _ 3 Quire.walkLoopEnd _ rfl hrun h (x.walkLoopEnd_over (w := x.seq.walk) hf hl)
  · exact exec_walks s q _ 4 Quire.walkCall _ rfl hrun h rfl
  · exact exec_walks s q _ 5 (fun _ => Quire.walkReturn) _ rfl hrun h (Quire.walkReturn_to (w := x.seq.walk) hr)
  · exact exec_goes s q _ 6 _ _ rfl hrun h x.jumpNow_eq

end Sys2Proof.Proofs
end

section
/-! Steps of a quire that only count and log: what they leave of the chip, as the statements about events say it. -/

namespace Sys2Proof.Machine

/-! ### Counters of a quire (R776) -/

theorem Quire.Counts.refl (x : Quire) : x.Counts x := rfl

theorem Quire.Counts.trans {x y z : Quire} (h : x.Counts y) (h' : y.Counts z) : x.Counts z := by
  unfold Quire.Counts at *
  rw [h', h]

theorem counted_satAdd (n : Nat) (v : Word) : Counted n v (BitVec.ofNat 32 (satAdd 32 v.toNat n).1) := by
  unfold Counted satAdd
  dsimp only
  split <;> rw [BitVec.toNat_ofNat] <;> omega

theorem W.bump_counts (w : W) (k n : Nat) : w.q.Counts (w.bump k n).q := by
  obtain ⟨v, m, fx, h, -, -⟩ := w.bump_shape k n
  rw [h]
  rfl

theorem W.bump_counted (w : W) (k n : Nat) : Counted n (w.q.liveReg k) ((w.bump k n).q.liveReg k) := by
  obtain ⟨v, m, fx, h, -, hv⟩ := w.bump_shape k n
  have hlive : (w.bump k n).q.liveReg k = v := by
    rw [h]
    exact rget_rput_same k v w.q.live
  rw [hlive, hv]
  exact counted_satAdd n _

theorem W.bump_liveReg_other (w : W) {k j : Nat} (n : Nat) (hj : j ≠ k) : (w.bump k n).q.liveReg j = w.q.liveReg j := by
  obtain ⟨v, m, fx, h, -, -⟩ := w.bump_shape k n
  rw [h]
  exact rget_rput_other k j v w.q.live hj

/-- What a counter and its saturation leave of a field of the quire. -/
theorem W.bump_field {α : Type} (w : W) (k n : Nat) (f : Quire → α) (hf : ∀ (x : Quire) l m, f { x with live := l, satPages := m } = f x) : f (w.bump k n).q = f w.q := by
  obtain ⟨v, m, fx, h, -, -⟩ := w.bump_shape k n
  rw [h]
  exact hf _ _ _

/-! ### Steps that ask for nothing but entries of the log -/

/-- The step asks for entries of the log alone. -/
def W.Quiet (w : W) : Prop := ∀ x ∈ w.fx, x.logs = true

theorem Quire.w_quiet (x : Quire) : x.w.Quiet := by simp [W.Quiet, Quire.w]

theorem W.Quiet.upd {w : W} (h : w.Quiet) (f : Quire → Quire) : (w.upd f).Quiet := h

theorem W.Quiet.bump {w : W} (h : w.Quiet) (k n : Nat) : (w.bump k n).Quiet := by
  obtain ⟨v, m, fx, hw, hfx, -⟩ := w.bump_shape k n
  rw [hw]
  exact fun x hx => (List.mem_append.mp hx).elim (h x) (hfx x)

theorem W.Quiet.log {w : W} (h : w.Quiet) (code : Byte) (source : Nat) (d0 d1 d2 : Word) (injected : Bool) : (w.log code source d0 d1 d2 injected).Quiet :=
  fun x hx => (List.mem_append.mp hx).elim (h x) fun hx => by rw [List.mem_singleton.mp hx]; rfl

theorem W.Quiet.ite {c : Prop} [Decidable c] {v w : W} (hv : v.Quiet) (hw : w.Quiet) : (if c then v else w).Quiet := by
  by_cases hc : c
  · rwa [if_pos hc]
  · rwa [if_neg hc]

theorem W.Quiet.when {w : W} (h : w.Quiet) (c : Bool) {f : W → W} (hf : (f w).Quiet) : (w.when c f).Quiet := W.Quiet.ite hf h

theorem W.Quiet.each {α : Type} (l : List α) (f : W → α → W) (hf : ∀ v a, a ∈ l → v.Quiet → (f v a).Quiet) {w : W} (h : w.Quiet) : (w.each l f).Quiet :=
  List.foldlRecOn (motive := W.Quiet) l f h fun v hv a ha => hf v a ha hv

@[simp] theorem W.log_q (w : W) (code : Byte) (source : Nat) (d0 d1 d2 : Word) (injected : Bool) : (w.log code source d0 d1 d2 injected).q = w.q := rfl
@[simp] theorem W.ask_q (w : W) (x : Fx) : (w.ask x).q = w.q := rfl
@[simp] theorem W.upd_q (w : W) (f : Quire → Quire) : (w.upd f).q = f w.q := rfl
@[simp] theorem Quire.w_upd (x : Quire) (f : Quire → Quire) : x.w.upd f = (f x).w := rfl
@[simp] theorem Quire.w_q (x : Quire) : x.w.q = x := rfl

theorem Quire.bump_counts (x : Quire) (k n : Nat) : x.Counts (x.w.bump k n).q := x.w.bump_counts k n

theorem Quire.bump_counted (x : Quire) (k n : Nat) : Counted n (x.liveReg k) ((x.w.bump k n).q.liveReg k) := x.w.bump_counted k n

theorem Quire.bump_quiet (x : Quire) (k n : Nat) : (x.w.bump k n).Quiet := x.w_quiet.bump k n

/-- A quiet step lies within its quire, and makes it what the step says. -/
theorem State.onQuire_within (s : State) (q : QId) (f : Quire → W) (h : (f (s.quire q)).Quiet) : s.Within (s.onQuire q f) q ∧ (s.onQuire q f).quire q = (f (s.quire q)).q := by
  obtain ⟨hwithin, -, hquire⟩ := s.onQuire_logs q f h
  exact ⟨hwithin, hquire⟩

/-- A quiet step that makes of the quire `y` but for counters. -/
theorem State.makes_of (s : State) (i : Instr) (q : QId) (f : Quire → W) {w : W} (y : Quire) (also : State → Prop) (hexec : exec i s = .next (s.onQuire q f)) (hw : f (s.quire q) = w)
    (hq : w.Quiet) (hy : y.Counts w.q) (halso : ∀ t : State, t.quire q = w.q → also t) : s.Makes i q y also := by
  obtain ⟨hwithin, hquire⟩ := s.onQuire_within q f (by rwa [hw])
  rw [hw] at hquire
  exact ⟨_, hexec, hwithin, by rwa [hquire], halso _ hquire⟩

/-- A step that leaves the counters as they were, but for one more in register `k`. -/
theorem State.countsOne_bump (s : State) {q : QId} {y : Quire} {k : Nat} (hlive : y.live = (s.quire q).live) {t : State} (ht : t.quire q = (y.w.bump k 1).q) : s.CountsOne q k t := by
  unfold State.CountsOne
  rw [ht, show (s.quire q).liveReg k = y.liveReg k by rw [Quire.liveReg, Quire.liveReg, hlive]]
  exact y.bump_counted k 1

/-- A step that makes of the quire `y` and counts one in register `k`. -/
theorem State.makes_bump (s : State) (i : Instr) (q : QId) (f : Quire → W) (y : Quire) (k : Nat) (hexec : exec i s = .next (s.onQuire q f)) (hw : f (s.quire q) = y.w.bump k)
    (hlive : y.live = (s.quire q).live) : s.Makes i q y (s.CountsOne q k) :=
  s.makes_of i q f y _ hexec hw (y.bump_quiet k 1) (y.bump_counts k 1) fun _ ht => s.countsOne_bump hlive ht

/-- A step that counts one in register `k` and then makes of the quire what `g` says. -/
theorem State.makes_bump_upd (s : State) (i : Instr) (q : QId) (f : Quire → W) (g : Quire → Quire) (k : Nat) (hexec : exec i s = .next (s.onQuire q f))
    (hw : f (s.quire q) = ((s.quire q).w.bump k).upd g) (hg : ∀ {y z : Quire}, y.Counts z → (g y).Counts (g z)) (hlive : ∀ y : Quire, (g y).live = y.live) :
    s.Makes i q (g (s.quire q)) (s.CountsOne q k) := by
  refine s.makes_of i q f _ _ hexec hw ((Quire.bump_quiet _ k 1).upd g) (hg ((s.quire q).bump_counts k 1)) fun t ht => ?_
  unfold State.CountsOne
  rw [ht, W.upd_q, Quire.liveReg, Quire.liveReg, hlive]
  exact (s.quire q).bump_counted k 1

/-- A quiet step that changes no counter makes of the quire `y`. -/
theorem State.exec_setQuire (s : State) (i : Instr) (q : QId) (f : Quire → W) (y : Quire) (hexec : exec i s = .next (s.onQuire q f)) (hf : f (s.quire q) = y.w) :
    exec i s = .next (s.setQuire q y) := by
  rw [hexec, State.onQuire_quiet s q f (by rw [hf]; rfl), hf, Quire.w_q]

end Sys2Proof.Machine
end

section
/-! Match conditions and jumps: what the result of a compare, and a jump fixed for the next boundary, leave of a quire (R98, R118 to R122, R130). -/

namespace Sys2Proof.Machine

/-! ### The bodies of loops (R859) -/

theorem Quire.bindOp_congr {x z : Quire} (h : ∀ page o, z.cfg page o = x.cfg page o) : z.bindOp = x.bindOp := funext fun e => by rw [Quire.bindOp, h, Quire.bindOp]

theorem Quire.bindTarget_congr {x z : Quire} (h : ∀ page o, z.cfg page o = x.cfg page o) : z.bindTarget = x.bindTarget := funext fun e => by
  rw [Quire.bindTarget, h, Quire.bindTarget]

theorem Quire.bindTimeout_congr {x z : Quire} (h : ∀ page o, z.cfg page o = x.cfg page o) : z.bindTimeout = x.bindTimeout := funext fun e => by
  rw [Quire.bindTimeout, h, Quire.bindTimeout]

theorem Quire.atLevel_congr {x z : Quire} (h : ∀ page o, z.cfg page o = x.cfg page o) (n : Nat) (todo seen : List Nat) : z.atLevel n todo seen = x.atLevel n todo seen := by
  induction n generalizing todo seen with
  | zero => rfl
  | succ n ih =>
    cases todo with
    | nil => rfl
    | cons e todo => rw [Quire.atLevel, Quire.atLevel, Quire.bindOp_congr h, Quire.bindTarget_congr h, Quire.bindTimeout_congr h, ih, ih]

/-- What a loop's body is rests on the binding table alone. -/
theorem Quire.inBody_congr {x z : Quire} (h : ∀ page o, z.cfg page o = x.cfg page o) (e i : Nat) : z.inBody e i = x.inBody e i := by
  simp only [Quire.inBody, Quire.inRunOf, Quire.bodyEnd, Quire.levelApart, Quire.levelStarts, Quire.startEntry, h, Quire.bindOp_congr h, Quire.bindTarget_congr h,
    Quire.atLevel_congr h]
  rfl

/-! ### A jump is fixed for the next boundary (R121, R122, R130) -/

/-- What a jump may change of a quire: its sequencer, the chunks beyond the play at the pins, their items, and counters. -/
def Quire.Onward (x z : Quire) : Prop :=
  z = { x with
    store := z.store, ready := z.ready, delay := z.delay, engines := z.engines, slots := z.slots, live := z.live, satPages := z.satPages, fifo := z.fifo
    fillLow := z.fillLow, lowestFill := z.lowestFill, sigs := z.sigs, stream := z.stream, seq := z.seq }

theorem Quire.Onward.trans {x y z : Quire} (h : x.Onward y) (h' : y.Onward z) : x.Onward z := by
  unfold Quire.Onward at *
  rw [h', h]

theorem Quire.Onward.cfg {x z : Quire} (h : x.Onward z) (page o : Nat) : z.cfg page o = x.cfg page o := by
  rw [h]
  rfl

theorem Quire.Onward.bindOp {x z : Quire} (h : x.Onward z) (e : Nat) : z.bindOp e = x.bindOp e := by
  rw [h]
  rfl

theorem Quire.Onward.inBody {x z : Quire} (h : x.Onward z) (e i : Nat) : z.inBody e i = x.inBody e i := Quire.inBody_congr h.cfg e i

/-- What a jump leaves of the path: the play at the pins, which ends with the instance that plays. -/
def Quire.keptPath (x : Quire) : List Block :=
  match x.seq.plan with
  | b :: _ =>
    if b.ended < b.begun then
      [{ b with count := b.begun, requested := min b.requested b.begun, created := min b.created b.begun
                nextChunk := if b.created < b.begun then b.nextChunk else 0, alloc := min b.alloc b.begun }]
    else []
  | [] => []

theorem Quire.keptPath_plays (x : Quire) {b : Block} {rest : List Block} (hplan : x.seq.plan = b :: rest) (hb : b.ended < b.begun) :
    x.keptPath = [{ b with count := b.begun, requested := min b.requested b.begun, created := min b.created b.begun
                           nextChunk := if b.created < b.begun then b.nextChunk else 0, alloc := min b.alloc b.begun }] := by
  simp only [Quire.keptPath, hplan, if_pos hb]

theorem W.cancelSeqs_onward (w : W) (hit : Nat → Bool) : w.q.Onward (w.cancelSeqs hit).q ∧ (w.cancelSeqs hit).q.seq = w.q.seq ∧ (w.cancelSeqs hit).q.fifo = w.q.fifo := by
  unfold W.cancelSeqs
  extract_lets n
  obtain ⟨v, m, fx, h, -, -⟩ := (w.upd fun q => { q.dropItems hit with slots := q.slots.map fun x => if hit x.seq then voidCancelled x else x }).bump_shape (rk 0x10 0x108) n
  rw [h]
  exact ⟨rfl, rfl, rfl⟩

theorem W.Quiet.cancelSeqs {w : W} (h : w.Quiet) (hit : Nat → Bool) : (w.cancelSeqs hit).Quiet := (h.upd _).bump _ _

theorem W.cutPath_onward (w : W) : w.q.Onward w.cutPath.q ∧ w.cutPath.q.seq = { w.q.seq with plan := w.q.keptPath, wait := none }
    ∧ ((∀ b ∈ w.q.seq.plan.head?, b.begun ≤ b.ended) → w.cutPath.q.fifo = []) := by
  unfold W.cutPath
  extract_lets b? stays keep gone
  obtain ⟨honward, hseq, hfifo⟩ := w.cancelSeqs_onward fun n => gone.contains n
  have hkeep : keep = w.q.keptPath := by
    simp only [keep, b?, Quire.keptPath]
    cases w.q.seq.plan with
    | nil => rfl
    | cons b t => by_cases hb : b.ended < b.begun <;> simp [hb]
  refine ⟨honward.trans rfl, ?_, fun hnone => ?_⟩
  · change { (w.cancelSeqs fun n => gone.contains n).q.seq with plan := keep, wait := none } = _
    rw [hseq, hkeep]
  · have hb : b? = none := by
      simp only [b?]
      cases hplan : w.q.seq.plan with
      | nil => rfl
      | cons b t => exact if_neg (not_lt.mpr (hnone b (by simp [hplan])))
    change List.filter (fun c : Chunk => stays c.sig c.inst) _ = []
    exact List.filter_eq_nil_iff.mpr fun c _ => by simp [stays, hb]

theorem W.Quiet.cutPath {w : W} (h : w.Quiet) : w.cutPath.Quiet := (h.cancelSeqs _).upd _

/-- The quire with the block of a jump's target on its path, which begins with the chunk of the landing stage (R121, R130). -/
def Quire.withHead (x : Quire) : Quire :=
  let r := x.giveInst (x.newBlock x.seq.pc)
  let whole := r.2.sigChunks r.1.sig ≤ 1
  let b := { r.1 with fromHead := true, requested := 1, created := b2n whole, nextChunk := if whole then 0 else 1 }
  { r.2 with seq := { r.2.seq with plan := r.2.seq.plan ++ [b], pc := x.seq.pc + 1 } }

theorem Quire.withHead_onward (x : Quire) : x.Onward x.withHead ∧ x.withHead.fifo = x.fifo
    ∧ ∃ n, n.entry = x.seq.pc ∧ n.fromHead = true ∧ x.withHead.seq = { x.seq with plan := x.seq.plan ++ [n], pc := x.seq.pc + 1 } := ⟨rfl, rfl, _, rfl, rfl, rfl⟩

/-- The target of a jump comes onto the path behind what stays there, with the waits that follow it. -/
theorem Quire.addTarget_onward (x : Quire) :
    x.Onward x.addTarget ∧ x.addTarget.fifo = x.fifo ∧ (∃ plan pc, x.addTarget.seq = { x.seq with plan := plan, pc := pc })
      ∧ (x.bindOp x.seq.pc = 1 ∨ x.bindOp x.seq.pc = 7 → ∃ n waits, x.addTarget.seq.plan = x.seq.plan ++ n :: waits ∧ n.entry = x.seq.pc ∧ n.fromHead = true
        ∧ ∀ b ∈ waits, b.isWait = true) := by
  by_cases hop : x.bindOp x.seq.pc = 1 ∨ x.bindOp x.seq.pc = 7
  · have h : x.addTarget = passWaits 256 x.withHead := if_pos hop
    obtain ⟨honward, hfifo, n, hn, hhead, hseq⟩ := x.withHead_onward
    obtain ⟨waits, hwaits, -, hpass⟩ := passWaits_shape 256 x.withHead
    rw [h, hpass, hseq]
    exact ⟨honward.trans rfl, hfifo, ⟨_, _, rfl⟩, fun _ => ⟨n, waits, List.append_assoc _ _ _, hn, hhead, hwaits⟩⟩
  · have h : x.addTarget = passWaits 256 x := if_neg hop
    obtain ⟨waits, -, -, hpass⟩ := passWaits_shape 256 x
    rw [h, hpass]
    exact ⟨rfl, rfl, ⟨_, _, rfl⟩, fun hop' => absurd hop' hop⟩

/-- The sequencer goes on at entry `t`, with the frames open there (R98, R121). -/
def Quire.headed (x : Quire) (t : Nat) (loops : List LoopFrame) (calls : List Nat) : Quire :=
  { x with seq := { x.seq with pc := t, loops := x.closeLoops calls.length t loops, calls := calls, cond := none } }

theorem Quire.onward_headed (x : Quire) (t : Nat) (loops : List LoopFrame) (calls : List Nat) : x.Onward (x.headed t loops calls) := rfl
theorem Quire.onward_reroute (x : Quire) : x.Onward x.reroute := rfl
theorem Quire.onward_freeDeferred (x : Quire) : x.Onward x.freeDeferred := rfl

theorem W.takeJump_q (w : W) (t : Nat) (loops : List LoopFrame) (calls : List Nat) : (w.takeJump t loops calls).q = (w.cutPath.q.headed t loops calls).addTarget.reroute.freeDeferred := rfl

theorem W.takeJump_onward (w : W) (t : Nat) (loops : List LoopFrame) (calls : List Nat) :
    w.q.Onward (w.takeJump t loops calls).q ∧ (∃ plan pc, (w.takeJump t loops calls).q.seq =
        { w.q.seq with plan := plan, pc := pc, wait := none, loops := w.q.closeLoops calls.length t loops, calls := calls, cond := none })
      ∧ ((∀ b ∈ w.q.seq.plan.head?, b.begun ≤ b.ended) → (w.takeJump t loops calls).q.fifo = [])
      ∧ (w.q.bindOp t = 1 ∨ w.q.bindOp t = 7 → ∃ n waits, (w.takeJump t loops calls).q.seq.plan = w.q.keptPath ++ n :: waits ∧ n.entry = t ∧ n.fromHead = true
        ∧ ∀ b ∈ waits, b.isWait = true) := by
  obtain ⟨hcut, hseq, hfifo⟩ := w.cutPath_onward
  have hclose : w.cutPath.q.closeLoops calls.length t loops = w.q.closeLoops calls.length t loops := by simp only [Quire.closeLoops, hcut.inBody]
  have hhead := w.cutPath.q.onward_headed t loops calls
  have hheadseq : (w.cutPath.q.headed t loops calls).seq = { w.q.seq with plan := w.q.keptPath, pc := t, wait := none, loops := w.q.closeLoops calls.length t loops, calls := calls, cond := none } := by
    rw [Quire.headed, hclose, hseq]
  obtain ⟨hadd, hfifo', ⟨plan, pc, hseq'⟩, hplan⟩ := (w.cutPath.q.headed t loops calls).addTarget_onward
  rw [hheadseq] at hseq' hplan
  rw [W.takeJump_q]
  refine ⟨hcut.trans (hhead.trans (hadd.trans ((Quire.onward_reroute _).trans (Quire.onward_freeDeferred _)))), ⟨plan, pc, hseq'⟩, fun hnone => hfifo'.trans (hfifo hnone), fun hop => ?_⟩
  rw [← hcut.bindOp, ← hhead.bindOp] at hop
  exact hplan hop

theorem W.Quiet.takeJump {w : W} (h : w.Quiet) (t : Nat) (loops : List LoopFrame) (calls : List Nat) : (w.takeJump t loops calls).Quiet := h.cutPath.upd _

/-! ### Match conditions (R118 to R120, R123) -/

/-- The quire once condition `c` is resolved. -/
def Quire.matched (x : Quire) (c : MatchCond) (jump : Bool) : Quire :=
  let y := ({ x with lastMatch := some (jump, c.entry), seq := { x.seq with cond := if jump then some { c with resolved := some true } else none } } : Quire)
  if jump then y else y.dropLanding

theorem W.settleMatch_unresolved (w : W) {c : MatchCond} (hc : w.q.seq.cond = some c) (hv : w.q.matchVerdict c = none) : w.settleMatch = w := by
  unfold W.settleMatch
  split
  case h_1 c' hc' =>
    obtain rfl : c' = c := Option.some.inj (hc'.symm.trans hc)
    rw [hv]
    exact ite_self _
  case h_2 hnone => rfl

theorem W.settleMatch_resolved (w : W) {c : MatchCond} (hc : w.q.seq.cond = some c) (hr : c.resolved.isSome = true) : w.settleMatch = w := by
  unfold W.settleMatch
  split
  case h_1 c' hc' =>
    obtain rfl : c' = c := Option.some.inj (hc'.symm.trans hc)
    exact if_pos hr
  case h_2 hnone => rfl

theorem W.settleMatch_resolves (w : W) {c : MatchCond} {jump : Bool} (hc : w.q.seq.cond = some c) (hr : c.resolved = none) (hv : w.q.matchVerdict c = some jump) :
    w.settleMatch = if c.late then ((w.upd fun x => x.matched c jump).bump (rk 0x01 0x214)).log 0x10 1 (packW [(8, b2n jump), (0, c.entry % 256)]) 0 0
      else w.upd fun x => x.matched c jump := by
  unfold W.settleMatch
  split
  case h_1 c' hc' =>
    obtain rfl : c' = c := Option.some.inj (hc'.symm.trans hc)
    rw [if_neg (by simp [hr]), hv]
    rfl
  case h_2 hnone => simp [hc] at hnone

/-- A condition is resolved by a compare that failed, or by its last compare (R118 to R120). -/
theorem Quire.matchVerdict_decided (x : Quire) {c : MatchCond} (h : c.failed = true ∨ (c.outstanding = 0 ∧ (c.lastIssued = true ∨ x.sigMask (x.bindSig c.entry) &&& x.bindMatch c.entry = 0))) :
    x.matchVerdict c = some (if c.failed then c.condFail else !c.condFail) := by
  unfold Quire.matchVerdict
  cases hf : c.failed with
  | true => rfl
  | false =>
    obtain ⟨hzero, hlast⟩ := h.resolve_left (by simp [hf])
    have hdone : ∀ inst i, (c.lastIssued || !x.matchAhead (x.bindSig c.entry) inst (x.bindMatch c.entry) i) = true := fun inst i => by
      obtain hl | hm := hlast
      · simp [hl]
      · simp [Quire.matchAhead, hm]
    simp [hzero, hdone]

theorem Quire.matchVerdict_open (x : Quire) {c : MatchCond} (hf : c.failed = false) (ho : c.outstanding ≠ 0) : x.matchVerdict c = none := by
  simp [Quire.matchVerdict, hf, ho]

/-- The condition after the result of one of its compares. -/
def MatchCond.took (c : MatchCond) (failed : Bool) : MatchCond := { c with outstanding := c.outstanding - 1, failed := c.failed || failed }

/-- The quire that holds condition `c`. -/
def Quire.withCond (x : Quire) (c : MatchCond) : Quire := { x with seq := { x.seq with cond := some c } }

theorem W.matchResult_counts (w : W) {c : MatchCond} {r : MatchCompare} (hc : w.q.seq.cond = some c) (ho : 0 < c.outstanding) (hr : r.inst = c.id) :
    w.matchResult r = (w.upd fun q => q.withCond (c.took r.failed)).settleMatch := by
  unfold W.matchResult
  split
  case h_1 c' hc' =>
    obtain rfl : c' = c := Option.some.inj (hc'.symm.trans hc)
    exact if_neg (by omega)
  case h_2 hnone => simp [hc] at hnone

theorem W.matchResult_other (w : W) {c : MatchCond} {r : MatchCompare} (hc : w.q.seq.cond = some c) (hr : r.inst ≠ c.id) : w.matchResult r = w := by
  unfold W.matchResult
  split
  case h_1 c' hc' =>
    obtain rfl : c' = c := Option.some.inj (hc'.symm.trans hc)
    exact if_pos (.inr (Ne.symm hr))
  case h_2 hnone => rfl

theorem W.decisionPoint_jump (w : W) {c : MatchCond} {p : Play} (hc : w.q.seq.cond = some c) (hr : c.resolved = some true) (hp : w.q.playing = some p) :
    w.decisionPoint = w.takeJump c.target c.loops c.calls := by
  unfold W.decisionPoint
  rw [w.settleMatch_resolved hc (by simp [hr])]
  dsimp only
  rw [hc, hp]
  exact if_pos hr

theorem W.decisionPoint_late (w : W) {c : MatchCond} {p : Play} (hc : w.q.seq.cond = some c) (hr : c.resolved = none) (hv : w.q.matchVerdict c = none) (hp : w.q.playing = some p)
    (he : p.entry = c.entry) (hl : c.late = false) : w.decisionPoint = w.upd fun q => { q with seq := { q.seq with cond := some { c with late := true } } } := by
  unfold W.decisionPoint
  rw [w.settleMatch_unresolved hc hv]
  dsimp only
  rw [hc, hp]
  dsimp only
  rw [if_neg (by simp [hr]), if_pos (by simp [he, hl])]

theorem execDecisionPoint_eq (s : State) (q : QId) (h : s.heldPackets = []) : exec (.decisionPoint q) s = .next (s.onQuire q fun x => x.w.decisionPoint) := by
  refine congrArg Host.Outcome.next (State.takeStreams_of_none ?_)
  simp [h]

theorem Quire.matched_eq (x : Quire) (c : MatchCond) (jump : Bool) : (x.withCond c).matched c jump = x.matched c jump := by
  cases jump <;> rfl

/-- The last result that a condition waits for resolves it (R118 to R120). -/
theorem matchResult_resolves (s : State) (q : QId) {c : MatchCond} {r : MatchCompare} {jump : Bool} (hc : (s.quire q).seq.cond = some c) (hr : c.resolved = none) (ho : 0 < c.outstanding)
    (hid : r.inst = c.id) (hv : ((s.quire q).withCond (c.took r.failed)).matchVerdict (c.took r.failed) = some jump) :
    (c.late = false → exec (.matchResult q r) s = .next (s.setQuire q ((s.quire q).matched (c.took r.failed) jump)))
    ∧ (c.late = true → s.Makes (.matchResult q r) q ((s.quire q).matched (c.took r.failed) jump) (s.CountsOne q (rk 0x01 0x214))) := by
  have hw := W.matchResult_counts (s.quire q).w hc ho hid
  have hsettle := ((s.quire q).withCond (c.took r.failed)).w.settleMatch_resolves (c := c.took r.failed) rfl hr hv
  rw [Quire.w_upd, hsettle] at hw
  have hlive : ((s.quire q).matched (c.took r.failed) jump).live = (s.quire q).live := by cases jump <;> rfl
  rw [Quire.w_upd, Quire.matched_eq] at hw
  refine ⟨fun hl => State.exec_setQuire s _ q (fun x => x.w.matchResult r) _ rfl ?_, fun hl => ?_⟩
  · rw [hw, if_neg (by simp [MatchCond.took, hl])]
  · rw [if_pos (show (c.took r.failed).late = true from hl)] at hw
    exact State.makes_of s _ q (fun x => x.w.matchResult r) _ _ rfl hw (((Quire.w_quiet _).bump _ _).log _ _ _ _ _ _) (W.bump_counts _ _ _) fun _ ht => s.countsOne_bump hlive ht

end Sys2Proof.Machine

namespace Sys2Proof.Proofs
open Sys2Proof.Machine

/-- Settles O11: a condition is resolved by a compare that failed or by its last compare, and a jump that is resolved is fixed for the boundary. -/
theorem matchConditions : Obligations.MatchConditions := by
  unfold Obligations.MatchConditions
  intro s q c failed x result anyFail open_ noJump jump hc
  refine ⟨fun hr ho => ⟨fun hdone => ?_, fun hpass hmore => ?_⟩, fun r hr => ?_, fun p b rest hp hplan hb hheld => ⟨fun hres => ?_, fun hres hv he hl => ?_⟩⟩
  · have hv : (x.withCond open_).matchVerdict open_ = some (if anyFail then c.condFail else !c.condFail) := (x.withCond open_).matchVerdict_decided (c := open_) <|
      hdone.imp id fun ⟨hone, hlast⟩ => ⟨by simp [open_, hone], hlast⟩
    have h := matchResult_resolves s q (r := result) hc hr ho rfl hv
    revert h
    cases (if anyFail then c.condFail else !c.condFail) <;> exact id
  · refine State.exec_setQuire s _ q (fun x => x.w.matchResult result) _ rfl ?_
    exact (W.matchResult_counts x.w hc ho rfl).trans (W.settleMatch_unresolved _ rfl (Quire.matchVerdict_open _ (c := open_) hpass (by simp only [open_]; omega)))
  · exact State.exec_setQuire s _ q (fun x => x.w.matchResult r) _ rfl (W.matchResult_other x.w hc hr)
  · obtain ⟨honward, ⟨plan, pc, hseq⟩, -, htarget⟩ := x.w.takeJump_onward c.target c.loops c.calls
    have hw : x.w.decisionPoint = x.w.takeJump c.target c.loops c.calls := x.w.decisionPoint_jump hc hres hp
    obtain ⟨hwithin, hquire⟩ := s.onQuire_within q (fun x => x.w.decisionPoint) (by rw [hw]; exact x.w_quiet.takeJump _ _ _)
    refine ⟨_, _, execDecisionPoint_eq s q hheld, hquire.trans (congrArg W.q hw), hwithin, ?_⟩
    refine ⟨by rw [hseq], by rw [hseq], by rw [honward]; exact hp, by rw [hseq]; rfl, fun hop => ?_⟩
    obtain ⟨n, waits, hpath, hn⟩ := htarget hop
    rw [Quire.w_q, x.keptPath_plays hplan hb] at hpath
    exact ⟨_, n, waits, hpath, rfl, rfl, hn⟩
  · exact State.exec_setQuire s _ q (fun x => x.w.decisionPoint) _ (execDecisionPoint_eq s q hheld) (x.w.decisionPoint_late hc hres hv hp he hl)

end Sys2Proof.Proofs
end

section
/-! Waits of the sequencer: the hold vectors that they lay out, the landing stage that they load, and their ends (R98, R125 to R131). -/

namespace Sys2Proof.Machine

/-! ### References of signatures (R81) -/

theorem Quire.routine_congr {x z : Quire} (h : ∀ page o, z.cfg page o = x.cfg page o) (n : Nat) (todo seen : List Nat) : z.routine n todo seen = x.routine n todo seen := by
  induction n generalizing todo seen with
  | zero => rfl
  | succ n ih =>
    cases todo with
    | nil => rfl
    | cons e todo => rw [Quire.routine, Quire.routine, Quire.bindOp_congr h, Quire.bindTarget_congr h, Quire.bindTimeout_congr h, ih, ih]

theorem Quire.names_congr {x z : Quire} (h : ∀ page o, z.cfg page o = x.cfg page o) (e n : Nat) : z.names e n = x.names e n := by
  rw [Quire.names, Quire.names, Quire.bindOp_congr h, Quire.bindSig, Quire.bindSig, h]

/-- What refers to a signature rests on the sequencer and the binding table alone. -/
theorem Quire.refs_congr {x z : Quire} (h : ∀ page o, z.cfg page o = x.cfg page o) (hseq : z.seq = x.seq) (n : Nat) : z.refs n = x.refs n := by
  simp only [Quire.refs, Quire.bodyNames, Quire.body, hseq, Quire.names_congr h, Quire.routine_congr h, Quire.inBody_congr h, Quire.bindOp_congr h, Quire.bindTarget_congr h]

/-- Buffers are freed late by what refers to them, whatever else the quire counts. -/
theorem Quire.Counts.freeDeferred {x z : Quire} (h : x.Counts z) : x.freeDeferred.Counts z.freeDeferred := by
  have hrefs : ∀ n, z.refs n = x.refs n := Quire.refs_congr (fun page o => by rw [h]; rfl) (by rw [h])
  have hsigs : z.sigs = x.sigs := by rw [h]
  unfold Quire.Counts Quire.freeDeferred
  simp only [hrefs, hsigs]
  rw [h]

theorem Quire.Counts.dropLanding {x z : Quire} (h : x.Counts z) : x.dropLanding.Counts z.dropLanding :=
  Quire.Counts.freeDeferred (by rw [h]; rfl)

/-! ### Hold vectors (R126, R129 to R131) -/

/-- Hold vectors that the pins need to come to instant `t`. -/
def Quire.holdsTo (x : Quire) (t : Nat) : Nat := (t - x.position + max 1 x.holdPeriod - 1) / max 1 x.holdPeriod

/-- The quire once the pins have held for `k` vectors. -/
def Quire.heldFor (x : Quire) (k : Nat) : Quire :=
  { x with elapsed := x.elapsed + k * max 1 x.holdPeriod, vecCount := x.vecCount + k, recent := if k = 0 then x.recent else x.holdStretch k :: x.recent }

/-- The first boundary of a hold vector at or after `t`. -/
theorem Quire.holdsTo_first (x : Quire) (t : Nat) :
    t ≤ x.position + x.holdsTo t * max 1 x.holdPeriod ∧ (0 < x.holdsTo t → x.position + (x.holdsTo t - 1) * max 1 x.holdPeriod < t) := by
  have hp : 0 < max 1 x.holdPeriod := by omega
  unfold Quire.holdsTo
  generalize max 1 x.holdPeriod = p at *
  generalize hk : (t - x.position + p - 1) / p = k
  have hlow : k * p ≤ t - x.position + p - 1 := hk ▸ Nat.div_mul_le_self _ _
  have hhigh : t - x.position + p - 1 < (k + 1) * p := (Nat.div_lt_iff_lt_mul hp).mp (by omega)
  rw [Nat.add_one_mul] at hhigh
  refine ⟨by omega, fun hpos => ?_⟩
  have hprev : (k - 1) * p + p = k * p := by rw [← Nat.add_one_mul, Nat.sub_add_cancel hpos]
  omega

/-- What events of markers change of a quire: the markers, and counters. -/
def Quire.Marked (x z : Quire) : Prop := z = { x with markers := z.markers, live := z.live, satPages := z.satPages }

theorem Quire.Marked.refl (x : Quire) : x.Marked x := rfl

theorem Quire.Marked.trans {x y z : Quire} (h : x.Marked y) (h' : y.Marked z) : x.Marked z := by
  unfold Quire.Marked at *
  rw [h', h]

theorem Quire.Counts.marked {x z : Quire} (h : x.Counts z) : x.Marked z := by
  unfold Quire.Counts Quire.Marked at *
  rw [h]

theorem Quire.marked_markerTick (x : Quire) (t : Nat) : x.Marked (x.markerTick t) := rfl

/-- The quire with other markers. -/
def Quire.withMarkers (x : Quire) (l : List Marker) : Quire := { x with markers := l }

theorem Quire.marked_withMarkers (x : Quire) (l : List Marker) : x.Marked (x.withMarkers l) := rfl

/-- The marker after its event at vector `n`, which comes at instant `t`. -/
def Quire.markerAt (x : Quire) (m n t : Nat) : List Marker :=
  lmod x.markers m fun y => { active := true, riseAt := t, fallsAt := n + x.markerWidth m, awaits := y.awaits, edges := if (x.marker m).active then y.edges else (true, t) :: y.edges }

theorem W.upd_markers (w : W) (l : Quire → List Marker) : (w.upd fun q => { q with markers := l q }) = { w with q := w.q.withMarkers (l w.q) } := rfl

theorem W.markerEvent_eq (w : W) (m n b : Nat) : ∃ v : W, w.q.Marked v.q ∧ (w.Quiet → v.Quiet)
    ∧ w.markerEvent m n b = if ((w.q.markerTick (b + w.q.markerOffset m)).marker m).active then v else v.bump (rk 0x0B (0x100 + 4 * m)) := by
  unfold W.markerEvent
  extract_lets t w1 was w2
  have hv : w2 = { w with q := (w.q.markerTick t).withMarkers ((w.q.markerTick t).markerAt m n t) } := W.upd_markers w1 _
  have hwas : was = ((w.q.markerTick (b + w.q.markerOffset m)).marker m).active := rfl
  refine ⟨{ w with q := (w.q.markerTick t).withMarkers ((w.q.markerTick t).markerAt m n t) }, ?_, id, by rw [hv, hwas]⟩
  exact (w.q.marked_markerTick _).trans (Quire.marked_withMarkers _ _)

theorem W.markerEvent_marked (w : W) (m n b : Nat) : w.q.Marked (w.markerEvent m n b).q ∧ (w.Quiet → (w.markerEvent m n b).Quiet) := by
  obtain ⟨v, hmark, hquiet, h⟩ := w.markerEvent_eq m n b
  rw [h]
  split
  · exact ⟨hmark, hquiet⟩
  · exact ⟨hmark.trans (v.bump_counts _ _).marked, fun hw => (hquiet hw).bump _ _⟩

/-- The events that marker `m` has awaited and that a stretch of vectors now lays out. -/
def W.awaited (find : Nat → Option (Nat × Nat)) (w : W) (m : Nat) : W :=
  W.each { w with q := w.q.withMarkers (lmod w.q.markers m fun x => { x with awaits := (w.q.marker m).awaits.filter fun t => (find t).isNone }) } ((w.q.marker m).awaits.filterMap find)
    fun w v => w.markerEvent m v.1 (w.q.origin + v.2)

theorem W.markerAwaited_eq (w : W) (find : Nat → Option (Nat × Nat)) : w.markerAwaited find = (w.awaited find 0).awaited find 1 := by
  unfold W.markerAwaited
  simp only [W.upd_markers]
  rfl

theorem W.awaited_marked (w : W) (find : Nat → Option (Nat × Nat)) (m : Nat) : w.q.Marked (w.awaited find m).q ∧ (w.Quiet → (w.awaited find m).Quiet) := by
  refine List.foldlRecOn (motive := fun v : W => w.q.Marked v.q ∧ (w.Quiet → v.Quiet)) _ _ ⟨Quire.marked_withMarkers _ _, id⟩ fun v hv b _ => ?_
  obtain ⟨hmark, hquiet⟩ := v.markerEvent_marked m b.1 (v.q.origin + b.2)
  exact ⟨hv.1.trans hmark, hquiet ∘ hv.2⟩

theorem W.markerAwaited_marked (w : W) (find : Nat → Option (Nat × Nat)) : w.q.Marked (w.markerAwaited find).q ∧ (w.Quiet → (w.markerAwaited find).Quiet) := by
  rw [W.markerAwaited_eq]
  obtain ⟨hmark, hquiet⟩ := w.awaited_marked find 0
  obtain ⟨hmark', hquiet'⟩ := (w.awaited find 0).awaited_marked find 1
  exact ⟨hmark.trans hmark', hquiet' ∘ hquiet⟩

theorem lmod_self {α : Type} (l : List α) (i : Nat) (f : α → α) (h : ∀ y, l[i]? = some y → f y = y) : lmod l i f = l := by
  unfold lmod
  cases hy : l[i]? with
  | none => rfl
  | some y =>
    obtain ⟨hi, rfl⟩ := List.getElem?_eq_some_iff.mp hy
    dsimp only
    rw [h _ hy, List.set_getElem_self]

/-- A marker that awaits no vector gets no event from those laid out. -/
theorem W.awaited_idle (w : W) (find : Nat → Option (Nat × Nat)) (m : Nat) (h : (w.q.marker m).awaits = []) : w.awaited find m = w := by
  have hmod : lmod w.q.markers m (fun x => { x with awaits := [] }) = w.q.markers := lmod_self _ _ _ fun y hy => by
    have hy : y.awaits = [] := by simpa [Quire.marker, hy] using h
    rw [← hy]
  rw [W.awaited, h, List.filterMap_nil, List.filter_nil, W.each, List.foldl_nil, hmod]
  rfl

/-- Where no marker awaits a vector, hold vectors give no marker an event. -/
theorem W.markerAwaited_idle (w : W) (find : Nat → Option (Nat × Nat)) (h : ∀ n < 2, (w.q.marker n).awaits = []) : w.markerAwaited find = w := by
  rw [W.markerAwaited_eq, w.awaited_idle find 0 (h 0 (by decide)), w.awaited_idle find 1 (h 1 (by decide))]

theorem W.holdUntil_marked (w : W) (t : Nat) : (w.q.heldFor (w.q.holdsTo t)).Marked (w.holdUntil t).q ∧ (w.Quiet → (w.holdUntil t).Quiet) :=
  W.markerAwaited_marked (w.upd fun q => q.heldFor (w.q.holdsTo t)) _

theorem W.holdUntil_idle (w : W) (t : Nat) (h : ∀ n < 2, (w.q.marker n).awaits = []) : w.holdUntil t = w.upd fun q => q.heldFor (w.q.holdsTo t) :=
  W.markerAwaited_idle (w.upd fun q => q.heldFor (w.q.holdsTo t)) _ h

/-! ### The landing stage (R114) -/

theorem Dram.ask_fetch (d : Dram) (n sig seq : Nat) : ∃ r : DramReq, r.port = .fetch ∧ r.write = false ∧ d.ask .fetch n false sig seq = { d with queue := d.queue ++ [r] } :=
  ⟨_, rfl, rfl, rfl⟩

theorem Dram.asks_shape (l : List Nat) (sig seq : Nat) (d : Dram) : ∃ asked : List DramReq, (∀ r ∈ asked, r.port = .fetch ∧ r.write = false)
    ∧ l.foldl (fun d n => d.ask .fetch n false sig seq) d = { d with queue := d.queue ++ asked } := by
  induction l generalizing d with
  | nil => exact ⟨[], by simp, by simp⟩
  | cons n l ih =>
    obtain ⟨asked, hasked, h⟩ := ih (d.ask .fetch n false sig seq)
    obtain ⟨r, hport, hwrite, hr⟩ := d.ask_fetch n sig seq
    rw [hr] at h
    refine ⟨r :: asked, List.forall_mem_cons.mpr ⟨⟨hport, hwrite⟩, hasked⟩, ?_⟩
    rw [List.foldl_cons, hr, h, List.append_assoc]
    rfl

theorem Quire.askLanding_shape (l : List (Nat × Nat)) (x : Quire) : ∃ asked ask, (∀ r ∈ asked, DramReq.port r = .fetch ∧ r.write = false)
    ∧ x.askLanding l = { x with dram := { x.dram with queue := x.dram.queue ++ asked }, seq := { x.seq with landingAsk := ask } } := by
  induction l generalizing x with
  | nil => exact ⟨[], [], by simp, by simp [Quire.askLanding]⟩
  | cons a l ih =>
    obtain ⟨n, i⟩ := a
    unfold Quire.askLanding
    by_cases hfull : x.dram.full .fetch = true
    · exact ⟨[], _, by simp, by rw [if_pos hfull, List.append_nil]⟩
    · obtain ⟨first, hfirst, hd⟩ := Dram.asks_shape (linesOf (x.chunkReads n i)) n (noSeq + i) x.dram
      obtain ⟨asked, ask, hasked, h⟩ := ih (x.fetch .fetch n (noSeq + i) (x.chunkReads n i))
      refine ⟨first ++ asked, ask, fun r hr => (List.mem_append.mp hr).elim (hfirst r) (hasked r), ?_⟩
      rw [if_neg hfull, h, Quire.fetch, hd]
      simp

/-- The landing stage loaded for the target of a time-out: what it asks the channel for, and what it leaves otherwise. -/
theorem Quire.loadLanding_shape (x : Quire) (t : Nat) : ∃ asked ask bad,
    let loaded := ({ x with seq := { x.seq with
      landing := if x.bindOp t = 1 ∨ x.bindOp t = 7 then some (x.bindSig t) else none, landingBad := bad } } : Quire).freeDeferred
    x.loadLanding t = { loaded with dram := { x.dram with queue := x.dram.queue ++ asked }, seq := { loaded.seq with landingAsk := ask } }
      ∧ (∀ r ∈ asked, DramReq.port r = .fetch ∧ r.write = false) ∧ (∀ z ∈ bad, z ∈ x.seq.landingBad)
      ∧ (x.seq.landingAsk = [] → x.sigHome (x.bindSig t) ≠ 0 ∨ ¬(x.bindOp t = 1 ∨ x.bindOp t = 7) → asked = [] ∧ ask = []) := by
  unfold Quire.loadLanding
  by_cases hop : x.bindOp t = 1 ∨ x.bindOp t = 7
  · simp only [if_pos hop]
    generalize hbad : x.seq.landingBad.filter (fun z => z.1 ≠ x.bindSig t) = bad
    have hsub : ∀ z ∈ bad, z ∈ x.seq.landingBad := fun z hz => List.mem_of_mem_filter (hbad ▸ hz)
    by_cases hhome : x.sigHome (x.bindSig t) = 0
    · obtain ⟨asked, ask, hasked, h⟩ := Quire.askLanding_shape (x.seq.landingAsk ++ ([1, 2].filter fun i => i < x.sigChunks (x.bindSig t)).map fun i => (x.bindSig t, i))
        ({ x with seq := { x.seq with landing := some (x.bindSig t), landingBad := bad } } : Quire).freeDeferred
      refine ⟨asked, ask, bad, ?_, hasked, hsub, fun _ hno => absurd hhome (hno.resolve_right (not_not_intro hop))⟩
      exact (if_pos hhome).trans h
    · exact ⟨[], x.seq.landingAsk, bad, (if_neg hhome).trans (by rw [List.append_nil]; rfl), by simp, hsub, fun h _ => ⟨rfl, h⟩⟩
  · simp only [if_neg hop]
    exact ⟨[], x.seq.landingAsk, x.seq.landingBad, by rw [List.append_nil]; rfl, by simp, fun _ h => h, fun h _ => ⟨rfl, h⟩⟩

/-! ### The ends of a wait -/

theorem Quire.atWait_eq (x : Quire) {b : Block} {rest : List Block} (op : Nat) (hplan : x.seq.plan = b :: rest) (hrun : x.state = .running) (hp : x.playing = none)
    (hw : x.seq.wait = none) (hop : b.op = op) : x.atWait op = some b := by
  simp [Quire.atWait, hplan, hrun, hp, hw, hop]

theorem execWaitTimeout_eq (s : State) (q : QId) (h : s.heldPackets = []) : exec (.waitTimeout q) s = .next (s.onQuire q fun x => x.w.waitTimeout) :=
  congrArg Host.Outcome.next (State.takeStreams_of_none (by simp [h]))

theorem Quire.keptPath_over (x : Quire) {b : Block} {rest : List Block} (hplan : x.seq.plan = b :: rest) (hb : b.begun ≤ b.ended) : x.keptPath = [] := by
  simp only [Quire.keptPath, hplan, if_neg (not_lt.mpr hb)]

/-- The quire once its wait is over. -/
def Quire.waitOver (x : Quire) : Quire := { x with seq := { x.seq with plan := x.seq.plan.drop 1, wait := none } }

theorem Quire.waitOver_eq (x : Quire) {b : Block} {rest : List Block} (hplan : x.seq.plan = b :: rest) : x.waitOver = { x with seq := { x.seq with plan := rest, wait := none } } := by
  rw [Quire.waitOver, hplan]
  rfl

/-- The quire after `k` hold vectors, its wait over, with the markers `m`. -/
def Quire.heldOn (x : Quire) (rest : List Block) (k : Nat) (m : List Marker) : Quire :=
  { x with
    elapsed := x.elapsed + k * max 1 x.holdPeriod, vecCount := x.vecCount + k, markers := m, seq := { x.seq with plan := rest, wait := none }
    recent := if k = 0 then x.recent else x.holdStretch k :: x.recent }

theorem Quire.heldFor_over (x : Quire) {b : Block} {rest : List Block} (hplan : x.seq.plan = b :: rest) (k : Nat) : (x.heldFor k).waitOver = x.heldOn rest k x.markers :=
  (x.heldFor k).waitOver_eq hplan

theorem Quire.Marked.waitOver {x z : Quire} {b : Block} {rest : List Block} {k : Nat} (h : (x.heldFor k).Marked z) (hplan : x.seq.plan = b :: rest) :
    (x.heldOn rest k z.markers).Counts z.waitOver := by
  have hz : z.seq.plan = b :: rest := by rw [h]; exact hplan
  rw [z.waitOver_eq hz]
  unfold Quire.Marked at h
  unfold Quire.Counts
  rw [h]
  rfl

/-- The pins go on at the first boundary of a hold vector at or after `t` (R126, R129). -/
theorem State.goesOn (s : State) (q : QId) (i : Instr) (g : Quire → W) (t : Nat) (f : Quire → Quire) {b : Block} {rest : List Block} (hplan : (s.quire q).seq.plan = b :: rest)
    (hexec : exec i s = .next (s.onQuire q g)) (hg : g (s.quire q) = (((s.quire q).w.holdUntil t).upd Quire.waitOver).upd f) (hf : ∀ {y z : Quire}, y.Counts z → (f y).Counts (f z)) :
    ∃ k m u, (t ≤ (s.quire q).position + k * max 1 (s.quire q).holdPeriod ∧ (0 < k → (s.quire q).position + (k - 1) * max 1 (s.quire q).holdPeriod < t))
      ∧ exec i s = .next u ∧ s.Within u q ∧ (f ((s.quire q).heldOn rest k m)).Counts (u.quire q)
      ∧ ((∀ n < 2, ((s.quire q).marker n).awaits = []) → u = s.setQuire q (f ((s.quire q).heldOn rest k (s.quire q).markers))) := by
  obtain ⟨hmark, hquiet⟩ := (s.quire q).w.holdUntil_marked t
  obtain ⟨hwithin, hquire⟩ := s.onQuire_within q g (by rw [hg]; exact ((hquiet (Quire.w_quiet _)).upd _).upd _)
  rw [Quire.w_q] at hmark
  refine ⟨(s.quire q).holdsTo t, ((s.quire q).w.holdUntil t).q.markers, _, (s.quire q).holdsTo_first t, hexec, hwithin, ?_, fun hidle => ?_⟩
  · rw [hquire, hg, W.upd_q, W.upd_q]
    exact hf (hmark.waitOver hplan)
  · rw [(s.quire q).w.holdUntil_idle t hidle, Quire.w_upd, Quire.w_upd, Quire.w_upd, Quire.w_q, Quire.heldFor_over _ hplan] at hg
    rw [State.onQuire_quiet s q g (by rw [hg]; rfl), hg, Quire.w_q]

theorem Quire.waitTime_holds (x : Quire) (c : Ctx) {b : Block} {rest : List Block} (hplan : x.seq.plan = b :: rest) (hrun : x.state = .running) (hp : x.playing = none)
    (hw : x.seq.wait = none) (hop : b.op = 8) (ht : c.ns ≤ x.bindTime c.oz b.entry) :
    x.w.waitTime c = ({ x with seq := { x.seq with entry := b.entry, wait := some (.time (x.bindTime c.oz b.entry)) } } : Quire).w := by
  unfold W.waitTime
  rw [Quire.w_q, x.atWait_eq 8 hplan hrun hp hw hop]
  exact if_neg (not_lt.mpr ht)

theorem Quire.waitTime_passes (x : Quire) (c : Ctx) {b : Block} {rest : List Block} (hplan : x.seq.plan = b :: rest) (hrun : x.state = .running) (hp : x.playing = none)
    (hw : x.seq.wait = none) (hop : b.op = 8) (ht : x.bindTime c.oz b.entry < c.ns) :
    x.w.waitTime c = ({ x with seq := { x.seq with entry := b.entry, plan := rest, wait := none } } : Quire).w.bump (rk 0x01 0x218) := by
  have hover : ({ x with seq := { x.seq with entry := b.entry } } : Quire).waitOver = { x with seq := { x.seq with entry := b.entry, plan := rest, wait := none } } := Quire.waitOver_eq _ hplan
  unfold W.waitTime
  rw [Quire.w_q, x.atWait_eq 8 hplan hrun hp hw hop]
  refine (if_pos ht).trans ?_
  rw [← hover]
  rfl

theorem Quire.waitTrig_holds (x : Quire) {b : Block} {rest : List Block} (hplan : x.seq.plan = b :: rest) (hrun : x.state = .running) (hp : x.playing = none)
    (hw : x.seq.wait = none) (hop : b.op = 9) :
    let y := ({ x with seq := { x.seq with entry := b.entry, wait := some (.trig x.position none) } } : Quire)
    x.w.waitTrig = (if x.bindTimeout b.entry = 0 then y else y.loadLanding (x.bindTarget b.entry)).w := by
  unfold W.waitTrig
  rw [Quire.w_q, x.atWait_eq 9 hplan hrun hp hw hop]
  rfl

theorem W.upd_id (w : W) : w.upd id = w := rfl

theorem W.waitTimeExpiry_due (w : W) (c : Ctx) {t : Nat} (hw : w.q.seq.wait = some (.time t)) (hrun : w.q.state = .running) (ht : t ≤ c.ns) :
    w.waitTimeExpiry c = (w.holdUntil (c.instantOf t)).upd Quire.waitOver := by
  unfold W.waitTimeExpiry
  rw [hw]
  exact if_pos (by simp [hrun, ht])

theorem W.waitTrigger_due (w : W) {since t : Nat} (hw : w.q.seq.wait = some (.trig since (some t))) (hrun : w.q.state = .running) :
    w.waitTrigger = ((w.holdUntil (t + 8000)).upd Quire.waitOver).upd Quire.dropLanding := by
  unfold W.waitTrigger
  rw [hw]
  exact if_pos hrun

theorem W.waitTimeout_due (w : W) {since : Nat} {b : Block} {rest : List Block} (hw : w.q.seq.wait = some (.trig since none)) (hplan : w.q.seq.plan = b :: rest)
    (hrun : w.q.state = .running) (ht : w.q.bindTimeout b.entry ≠ 0) :
    w.waitTimeout = (w.holdUntil (since + 4000 * w.q.bindTimeout b.entry + 1)).takeJump (w.q.bindTarget b.entry) b.loops b.calls := by
  unfold W.waitTimeout
  rw [hw, hplan]
  exact if_pos (by simp [hrun, ht])

end Sys2Proof.Machine

namespace Sys2Proof.Proofs
open Sys2Proof.Machine

/-- Settles O10: a wait holds the pins until its time, its trigger or its time-out, each of which lets them go on at a boundary of a hold vector. -/
theorem sequencerWaits : Obligations.SequencerWaits := by
  unfold Obligations.SequencerWaits
  intro s q b rest x e time target held firstAt goesOn hplan hrun
  refine ⟨fun hop hp hw ht => ?_, fun hop hp hw ht => ?_, fun t hw hruns ht => ?_, fun hop hp hw => ?_, fun since t hw => ?_, fun since hw ht hb hheld => ?_⟩
  · exact State.exec_setQuire s _ q (fun x => x.w.waitTime s.ctx) _ rfl (x.waitTime_holds s.ctx hplan hrun hp hw hop ht)
  · exact s.makes_bump _ q (fun x => x.w.waitTime s.ctx) _ _ rfl (x.waitTime_passes s.ctx hplan hrun hp hw hop ht) rfl
  · exact s.goesOn q (.waitTimeExpiry q) (fun x => x.w.waitTimeExpiry s.ctx) _ id hplan (congrArg Host.Outcome.next (if_pos hruns)) ((x.w.waitTimeExpiry_due s.ctx hw hrun ht).trans (W.upd_id _).symm) id
  · intro waits
    have hstep := x.waitTrig_holds hplan hrun hp hw hop
    refine ⟨fun ht => ?_, fun ht => ?_⟩
    · exact State.exec_setQuire s _ q (fun x => x.w.waitTrig) _ rfl (hstep.trans (congrArg Quire.w (if_pos ht)))
    · obtain ⟨asked, ask, bad, h, hrest⟩ := waits.loadLanding_shape target
      exact ⟨asked, ask, bad, State.exec_setQuire s _ q (fun x => x.w.waitTrig) _ rfl (hstep.trans (congrArg Quire.w ((if_neg ht).trans h))), hrest⟩
  · exact s.goesOn q (.waitTrigger q) (fun x => x.w.waitTrigger) _ Quire.dropLanding hplan rfl (W.waitTrigger_due _ hw hrun) Quire.Counts.dropLanding
  · have hstep := x.w.waitTimeout_due hw hplan hrun ht
    obtain ⟨hmark, hquiet⟩ := x.w.holdUntil_marked (since + 4000 * x.bindTimeout e + 1)
    rw [Quire.w_q] at hmark
    generalize hw' : x.w.holdUntil (since + 4000 * x.bindTimeout e + 1) = w at hmark hquiet
    obtain ⟨honward, ⟨plan, pc, hseq⟩, hfifo, htarget⟩ := w.takeJump_onward (x.bindTarget e) b.loops b.calls
    have hplan' : w.q.seq.plan = b :: rest := by rw [hmark]; exact hplan
    have hcfg : ∀ page o, w.q.cfg page o = x.cfg page o := fun page o => by rw [hmark]; rfl
    have hstep' : x.w.waitTimeout = w.takeJump (x.bindTarget e) b.loops b.calls := hstep.trans (by rw [← hw']; rfl)
    obtain ⟨hwithin, hquire⟩ := s.onQuire_within q (fun x => x.w.waitTimeout) (by rw [hstep']; exact (hquiet x.w_quiet).takeJump _ _ _)
    refine ⟨_, _, execWaitTimeout_eq s q hheld, hquire.trans (congrArg W.q hstep'), hwithin, by rw [hseq], by rw [hseq], hfifo (by rw [hplan']; simpa using hb), ?_, ?_, fun hop => ?_⟩
    · refine ⟨_, x.holdsTo_first _, ?_⟩
      rw [honward, hmark]
      rfl
    · rw [hseq]
      simp only [Quire.closeLoops, Quire.inBody_congr hcfg]
      rfl
    · obtain ⟨n, waits, hpath, hn⟩ := htarget (by rwa [Quire.bindOp_congr hcfg])
      rw [w.q.keptPath_over hplan' hb] at hpath
      exact ⟨n, waits, hpath, hn⟩

end Sys2Proof.Proofs
end

section
/-! The release stage: what the slot at the release pointer delivers (R137, R199, R201, R225 to R228, R497). -/

namespace Sys2Proof.Machine

theorem execChunkRelease_eq (s : State) (q : QId) (h : s.heldPackets = []) : exec (.chunkRelease q) s = .next (s.onQuire q fun x => x.w.chunkRelease) :=
  congrArg Host.Outcome.next (State.takeStreams_of_none (by simp [h]))

/-- The slot at the release pointer has left the release stage. -/
def Quire.passed (x : Quire) (sl : Slot) : Quire := { x with slots := x.slots.drop 1, releasePtr := sl.seq + 1 }

/-- The slot at the release pointer has left the release stage, and the chunk stands in the event FIFOs. -/
def Quire.delivers (x : Quire) (sl : Slot) (c : Chunk) : Quire := { x.passed sl with fifo := x.fifo ++ [c] }

theorem Quire.advance_eq (x : Quire) (sl : Slot) (h : x.sigHome sl.sig ≠ 2) : x.advance sl = x.passed sl :=
  if_neg fun hc => h (of_decide_eq_true (Bool.and_elim_right hc))

theorem Quire.Counts.sigHome {x z : Quire} (h : x.Counts z) (n : Nat) : z.sigHome n = x.sigHome n := by
  rw [h]
  rfl

theorem Quire.Counts.delivers {x z : Quire} (h : x.Counts z) (sl : Slot) (c : Chunk) : (x.delivers sl c).Counts (z.delivers sl c) := by
  unfold Quire.Counts at *
  rw [h]
  rfl

/-- What the slot of an ended chunk delivers. -/
def Quire.release (x : Quire) (sl : Slot) : Chunk × W :=
  if sl.poisoned then (x.voidFailed sl 0 true, x.w.bump (rk 0x11 0x20C)) else match sl.trapped, sl.primary with
    | some code, _ => (x.voidFailed sl (if code = trapEcc then voidLocalEcc else voidTrap) false, x.w.bump (rk 0x10 0x10C))
    | none, some c => x.w.judgeSlot sl c
    | none, none => (x.voidFailed sl voidTrap false, x.w.bump (rk 0x10 0x10C))

theorem Quire.chunkRelease_passes (x : Quire) {sl : Slot} {rest : List Slot} (hslots : x.slots = sl :: rest) (hroom : x.fifo.length < 8)
    (h : sl.cancelled = true ∨ (sl.isEnded = true ∧ sl.late = true ∧ x.entryPending sl.seq = false)) : x.w.chunkRelease = (x.advance sl).w := by
  have hended : sl.isEnded = true := by
    obtain hc | ⟨he, -, -⟩ := h
    · simp [Slot.isEnded, hc]
    · exact he
  have hpend : (!sl.cancelled && x.entryPending sl.seq) = false := by
    obtain hc | ⟨-, -, hp⟩ := h
    · simp [hc]
    · simp [hp]
  unfold W.chunkRelease
  rw [Quire.w_q, hslots]
  dsimp only
  rw [if_neg (by simp [hended, hroom, hpend]), if_pos (by obtain hc | ⟨-, hl, -⟩ := h <;> simp [*])]
  rfl

theorem Quire.chunkRelease_delivers (x : Quire) {sl : Slot} {rest : List Slot} (hslots : x.slots = sl :: rest) (hroom : x.fifo.length < 8) (hended : sl.isEnded = true)
    (hpend : x.entryPending sl.seq = false) (hc : sl.cancelled = false) (hl : sl.late = false) (hhome : x.sigHome sl.sig ≠ 2) {c : Chunk} {w : W} (hr : x.release sl = (c, w))
    (hw : x.Counts w.q) : x.w.chunkRelease = w.upd fun y => y.delivers sl c := by
  unfold W.chunkRelease
  rw [Quire.w_q, hslots]
  dsimp only
  rw [if_neg (by simp [hended, hroom, hpend]), if_neg (by simp [hc, hl])]
  change (x.release sl).2.upd (fun y => { y.advance sl with fifo := y.fifo ++ [(x.release sl).1] }) = _
  rw [hr, W.upd, W.upd, Quire.advance_eq _ _ (by rwa [hw.sigHome])]
  rfl

/-- The checks that a chunk of a slot without a shadow copy meets (R201). -/
def Quire.checksOut (x : Quire) (c : Chunk) : Prop := c.check = c.crc ∧ (x.expectedCrc c).getD c.crc = c.crc

theorem Quire.checksOut_iff (x : Quire) (c : Chunk) (h : x.sigHome c.sig ≠ 2) : x.checksOut c ↔ c.check = c.crc ∧ (x.hasTable c.sig = true → x.tableWord c.sig c.index = c.crc) := by
  unfold Quire.checksOut Quire.expectedCrc
  rw [if_neg h]
  cases x.hasTable c.sig <;> simp

theorem Quire.judgeSlot_good (x : Quire) {sl : Slot} {c : Chunk} (hs : sl.shadowed = false) (hi : injecting 0x15 sl.engine x.injections = false) (h : x.checksOut c) :
    x.w.judgeSlot sl c = ({ c with edges := x.edgeTable c }, x.w) := by
  have hck : x.w.check 0x15 sl.engine = (false, x.w) := W.check_none _ _ _ hi
  unfold W.judgeSlot
  simp only [hs, Bool.false_and, Bool.false_eq_true, if_false, hck, Bool.false_or]
  exact if_neg (by simp only [Bool.or_eq_true, decide_eq_true_eq, not_or, not_not]; exact h)

/-- The step that reports a failed check of a chunk, and counts it and its marker (R228). -/
def Quire.failsCrc (x : Quire) (engine : Nat) : W := x.w.fails 0x15 0x11C engine false

theorem Quire.judgeSlot_bad (x : Quire) {sl : Slot} {c : Chunk} (hs : sl.shadowed = false) (hi : injecting 0x15 sl.engine x.injections = false) (h : ¬x.checksOut c) :
    x.w.judgeSlot sl c = ((x.failsCrc sl.engine).q.voidFailed sl voidCrc false, (x.failsCrc sl.engine).bump (rk 0x10 0x10C)) := by
  have hck : x.w.check 0x15 sl.engine = (false, x.w) := W.check_none _ _ _ hi
  unfold W.judgeSlot
  simp only [hs, Bool.false_and, Bool.false_eq_true, if_false, hck, Bool.false_or]
  exact if_pos (by simp only [Bool.or_eq_true, decide_eq_true_eq]; exact not_and_or.mp h)

/-- A failed check of a chunk makes one report and counts in both registers (R228). -/
theorem State.failsCrc_makes (s : State) (i : Instr) (q : QId) (f : Quire → W) (engine : Nat) (g : Quire → Quire) (hexec : exec i s = .next (s.onQuire q f))
    (hw : f (s.quire q) = (((s.quire q).failsCrc engine).bump (rk 0x10 0x10C)).upd g) (hg : ∀ {y z : Quire}, y.Counts z → (g y).Counts (g z)) (hlive : ∀ y : Quire, (g y).live = y.live) :
    s.Makes i q (g (s.quire q)) fun t => s.CountsOne q (rk 0x10 0x11C) t ∧ s.CountsOne q (rk 0x10 0x10C) t ∧ t.collector.reports.length = s.collector.reports.length + 1 := by
  have hfirst := (s.quire q).bump_counted (rk 0x10 0x11C) 1
  have hquiet := (s.quire q).bump_quiet (rk 0x10 0x11C) 1
  have hcounts := (s.quire q).bump_counts (rk 0x10 0x11C) 1
  have hother := ((s.quire q).w.bump (rk 0x10 0x11C)).bump_liveReg_other (k := rk 0x10 0x10C) (j := rk 0x10 0x11C) 1 (by decide)
  have hown : ((s.quire q).w.bump (rk 0x10 0x11C)).q.liveReg (rk 0x10 0x10C) = (s.quire q).liveReg (rk 0x10 0x10C) := W.bump_liveReg_other _ 1 (by decide)
  have hsecond := ((s.quire q).failsCrc engine).bump_counted (rk 0x10 0x10C) 1
  have hcounts' := ((s.quire q).failsCrc engine).bump_counts (rk 0x10 0x10C) 1
  obtain ⟨v, m, fx, hbump, hfx, -⟩ := ((s.quire q).failsCrc engine).bump_shape (rk 0x10 0x10C) 1
  have hlast : ((((s.quire q).failsCrc engine).bump (rk 0x10 0x10C)).q.liveReg (rk 0x10 0x11C)) = ((s.quire q).w.bump (rk 0x10 0x11C)).q.liveReg (rk 0x10 0x11C) :=
    W.bump_liveReg_other _ 1 (by decide)
  obtain ⟨hwithin, hquire, r, hreports, -⟩ := s.onQuire_report q f ((s.quire q).w.bump (rk 0x10 0x11C)).fx fx .alert 0x15 (BitVec.ofNat 8 engine) 0 0 false
    (by rw [hw, hbump]; exact List.append_assoc _ _ _) hquiet hfx
  refine ⟨_, hexec, hwithin, ?_, ?_, ?_, by rw [hreports, List.length_append]; rfl⟩
  · rw [hquire, hw]
    exact hg (hcounts.trans hcounts')
  · unfold State.CountsOne
    rw [hquire, hw, W.upd_q, Quire.liveReg, Quire.liveReg, hlive]
    rw [Quire.liveReg, Quire.liveReg] at hlast
    rw [hlast]
    exact hfirst
  · unfold State.CountsOne
    rw [hquire, hw, W.upd_q, Quire.liveReg, Quire.liveReg, hlive, ← Quire.liveReg, ← hown]
    exact hsecond

end Sys2Proof.Machine

namespace Sys2Proof.Proofs
open Sys2Proof.Machine

/-- Settles O14: the slot at the release pointer delivers its chunk, a marker, or nothing, by its checks and its item's end. -/
theorem chunkRelease : Obligations.ChunkRelease := by
  unfold Obligations.ChunkRelease
  intro s q sl rest x hheld hslots hroom hhome hs hi
  have hrest : x.slots.drop 1 = rest := by rw [hslots]; rfl
  refine ⟨fun h => ?_, fun c hprim hc hend hl ht hp hpend hsig => ?_, fun hend hc hl hp hpend => ?_, fun code ht hend hc hl hp hpend => ?_⟩
  · refine State.exec_setQuire s _ q (fun x => x.w.chunkRelease) _ (execChunkRelease_eq s q hheld) ((x.chunkRelease_passes hslots hroom ?_).trans ?_)
    · exact h.imp id fun ⟨he, hl, hp⟩ => ⟨by simp [Slot.isEnded, he, hs], hl, hp⟩
    · rw [x.advance_eq sl hhome, Quire.passed, hrest]
  · intro table good
    have hended : sl.isEnded = true := by simp [Slot.isEnded, hend, hs]
    have hrel : x.release sl = x.w.judgeSlot sl c := by simp [Quire.release, hp, ht, hprim]
    have hgood : good ↔ x.checksOut c := by rw [x.checksOut_iff c (by rwa [hsig])]
    refine ⟨fun h => State.exec_setQuire s _ q (fun x => x.w.chunkRelease) _ (execChunkRelease_eq s q hheld) ?_, fun h => ?_⟩
    · refine (x.chunkRelease_delivers hslots hroom hended hpend hc hl hhome (hrel.trans (x.judgeSlot_good hs hi (hgood.mp h))) rfl).trans ?_
      rw [Quire.w_upd, Quire.delivers, Quire.passed, hrest]
    · have hcounts : x.Counts ((x.failsCrc sl.engine).bump (rk 0x10 0x10C)).q := (x.bump_counts (rk 0x10 0x11C) 1).trans ((x.failsCrc sl.engine).bump_counts (rk 0x10 0x10C) 1)
      have hstep := x.chunkRelease_delivers hslots hroom hended hpend hc hl hhome (hrel.trans (x.judgeSlot_bad hs hi (mt hgood.mpr h))) hcounts
      have hmakes := s.failsCrc_makes (.chunkRelease q) q (fun x => x.w.chunkRelease) sl.engine _ (execChunkRelease_eq s q hheld) hstep (fun h => h.delivers _ _) fun _ => rfl
      rw [Quire.delivers, Quire.passed, hrest] at hmakes
      exact ⟨_, rfl, rfl, rfl, rfl, rfl, rfl, hmakes⟩
  · have hstep := x.chunkRelease_delivers hslots hroom (by simp [Slot.isEnded, hend, hs]) hpend hc hl hhome (if_pos hp) (x.bump_counts _ _)
    have hmakes := s.makes_bump_upd (.chunkRelease q) q (fun x => x.w.chunkRelease) _ _ (execChunkRelease_eq s q hheld) hstep (fun h => h.delivers _ _) fun _ => rfl
    rw [Quire.delivers, Quire.passed, hrest] at hmakes
    exact ⟨_, rfl, rfl, rfl, rfl, rfl, rfl, hmakes⟩
  · have hrel : x.release sl = (x.voidFailed sl (if code = trapEcc then voidLocalEcc else voidTrap) false, x.w.bump (rk 0x10 0x10C)) := by simp [Quire.release, hp, ht]
    have hstep := x.chunkRelease_delivers hslots hroom (by simp [Slot.isEnded, hend, hs]) hpend hc hl hhome hrel (x.bump_counts _ _)
    have hmakes := s.makes_bump_upd (.chunkRelease q) q (fun x => x.w.chunkRelease) _ _ (execChunkRelease_eq s q hheld) hstep (fun h => h.delivers _ _) fun _ => rfl
    rw [Quire.delivers, Quire.passed, hrest] at hmakes
    exact ⟨_, rfl, rfl, rfl, rfl, hmakes⟩

end Sys2Proof.Proofs
end

section
/-! Instances and their verdicts: the end of an instance, and its resolution when its hold expires (R399, R400, R404, R406, R746, R748). -/

namespace Sys2Proof.Machine

/-! ### The end of an instance (R404) -/

/-- The instance that has ended and is held, with its place in the verdict store. -/
def Inst.held (i : Inst) (c : Ctx) (r : Option (BitVec 16)) : Inst := { i with hold := some c.holdUs, endedAt := c.ticks, recSeq := r }

/-- The quire whose instance `i` has ended and is held. -/
def Quire.holdsInst (x : Quire) (c : Ctx) (i : Inst) (r : Option (BitVec 16)) : Quire :=
  { x with insts := x.insts.map fun j => if j.id = i.id then i.held c r else j, playedAt := some c.ticks }

/-- The pending record of an instance. -/
def Inst.pending (i : Inst) (n : BitVec 16) : VRec :=
  { id := i.id, verdict := .pending, entry := i.entry, sig := i.sig, inst := i.inst, fails := i.fails, recSeq := n, causes := i.causes }

theorem find_only (l : List Inst) (i : Inst) (p : Inst → Bool) (hi : i ∈ l) (hp : p i = true) (hid : ∀ j ∈ l, p j = true → j = i) : l.find? p = some i := by
  cases h : l.find? p with
  | none => exact absurd hp (List.find?_eq_none.mp h i hi)
  | some j => rw [hid j (List.mem_of_find?_eq_some h) (List.find?_some h)]

/-- The quire whose instance `i` has ended, is held, and has a pending record. -/
def Quire.records (x : Quire) (c : Ctx) (i : Inst) : Quire :=
  { x.holdsInst c i (some x.nextRec) with nextRec := x.nextRec + 1, verdicts := x.verdicts ++ [i.pending x.nextRec] }

theorem W.endInst_room (w : W) (c : Ctx) {i : Inst} (h : w.q.insts.find? (fun j => decide (j.id = i.id) && j.hold.isNone) = some i) (hroom : w.q.verdicts.length < 4096) :
    w.endInst c i.id = { w with q := w.q.records c i } := by
  unfold W.endInst
  rw [h]
  dsimp only
  rw [decide_eq_false (not_le.mpr hroom)]
  rfl

theorem W.endInst_full (w : W) (c : Ctx) {i : Inst} (h : w.q.insts.find? (fun j => decide (j.id = i.id) && j.hold.isNone) = some i) (hfull : 4096 ≤ w.q.verdicts.length) :
    w.endInst c i.id = (W.bump { w with q := w.q.holdsInst c i none } (rk 0x0C 0x224)) := by
  unfold W.endInst
  rw [h]
  dsimp only
  rw [decide_eq_true hfull]
  rfl

/-- The last chunk of the instance that plays block `b` has left the pins. -/
def Quire.endsPlay (x : Quire) (p : Play) (b : Block) (rest : List Block) : Quire :=
  let b := { b with ended := b.ended + 1 }
  if b.count ≤ b.ended then { (x.retire p).dropUnmade b with seq := { x.seq with plan := rest } }
  else { x.retire p with seq := { x.seq with plan := b :: rest } }

theorem W.instanceEnd_plays (w : W) (c : Ctx) {p : Play} {b : Block} {rest : List Block} (hp : w.q.playing = some p) (hl : p.isLast = true) (hrun : w.q.state = .running)
    (hplan : (w.lastPlayed c p).q.seq.plan = b :: rest) (hcond : (w.lastPlayed c p).q.seq.cond = none) :
    w.instanceEnd c = ((w.lastPlayed c p).upd fun x => x.endsPlay p b rest).upd Quire.freeDeferred := by
  unfold W.instanceEnd
  rw [hp]
  dsimp only
  rw [if_neg (by simp [hl, hrun])]
  generalize w.lastPlayed c p = v at *
  by_cases h : b.count ≤ b.ended + 1
  · simp only [W.upd, hplan, h, if_true, Quire.dropUnmade, Quire.retire, hcond, Quire.endsPlay]
  · simp only [W.upd, hplan, h, if_false, Quire.retire, hcond, Quire.endsPlay]

theorem Quire.endsPlay_plan (x : Quire) (p : Play) (b : Block) (rest : List Block) :
    (x.endsPlay p b rest).seq.plan = if b.count ≤ b.ended + 1 then rest else { b with ended := b.ended + 1 } :: rest := by
  unfold Quire.endsPlay
  dsimp only
  split <;> rfl

theorem Quire.endsPlay_fields (x : Quire) (p : Play) (b : Block) (rest : List Block) :
    let y := (x.endsPlay p b rest).freeDeferred
    y.playing = none ∧ y.insts = x.insts ∧ y.nextRec = x.nextRec ∧ y.verdicts = x.verdicts ∧ y.live = x.live := by
  unfold Quire.endsPlay
  dsimp only
  split <;> exact ⟨rfl, rfl, rfl, rfl, rfl⟩

/-! ### The verdict of an instance (R400) -/

/-- The counter of a verdict (R406). -/
def Verdict.counter : Verdict → Nat
  | .pass => rk 0x0C 0x228
  | .fail => rk 0x0C 0x22C
  | _ => rk 0x0C 0x230

/-- The quire once instance `i` is resolved: its record with it, or gone where passing records are not kept (R406). -/
def Quire.resolvesInst (x : Quire) (i : Inst) : Quire :=
  { x with
    insts := x.insts.filter fun j => j.id ≠ i.id
    verdicts := x.verdicts.filterMap fun z =>
      if z.id = i.id then (if bit (x.cfg 0x0C 0) 4 ∧ verdictOf i.causes = .pass then none else some { z with verdict := verdictOf i.causes, fails := i.fails, causes := i.causes }) else some z
    run := { x.run with
      causes := x.run.causes ||| i.causes, anyInvalid := x.run.anyInvalid || verdictOf i.causes = .invalid, anyFail := x.run.anyFail || verdictOf i.causes = .fail } }

theorem Quire.resolveInst_eq (x : Quire) (i : Inst) : x.w.resolveInst i = ((x.resolvesInst i).w.bump (verdictOf i.causes).counter).resolveRun := by
  unfold W.resolveInst Quire.resolvesInst
  cases verdictOf i.causes <;> rfl

theorem Quire.repairAfterRun_shape (x : Quire) : ∃ g, x.repairAfterRun = { x with regions := g } := by
  unfold Quire.repairAfterRun
  split
  · exact ⟨x.regions, rfl⟩
  · refine Quire.foldl_setRegion _ _ x fun y r => ?_
    dsimp only
    split_ifs
    · exact ⟨y.regions, rfl⟩
    · exact ⟨_, rfl⟩
    · exact ⟨_, rfl⟩
    · exact ⟨y.regions, rfl⟩

/-- What the verdict of a run changes of a quire: the verdict, and the repair state. -/
theorem W.resolveRun_shape (w : W) : ∃ v g, w.resolveRun = { w with q := { w.q with run := { w.q.run with verdict := v }, regions := g } } := by
  unfold W.resolveRun W.upd
  dsimp only
  split
  · obtain ⟨g, hg⟩ := Quire.repairAfterRun_shape { w.q with run := { w.q.run with verdict :=
      if w.q.run.clockOrFault ∨ w.q.run.anyInvalid ∨ (w.q.run.cutShort ∧ !w.q.run.anyFail) then .invalid else if w.q.run.anyFail ∨ w.q.run.matchTimeout ∨ w.q.run.noEye then .fail else .pass } }
    exact ⟨_, g, by rw [hg]⟩
  · exact ⟨w.q.run.verdict, w.q.regions, rfl⟩

theorem Quire.resolveInst_quiet (x : Quire) (i : Inst) : (x.w.resolveInst i).Quiet := by
  rw [x.resolveInst_eq]
  exact (Quire.bump_quiet _ _ _).upd _

theorem Quire.resolveInst_shape (x : Quire) (i : Inst) : ∃ v g l m,
    (x.w.resolveInst i).q = { x.resolvesInst i with run := { (x.resolvesInst i).run with verdict := v }, regions := g, live := l, satPages := m }
      ∧ Counted 1 (x.liveReg (verdictOf i.causes).counter) (rget (verdictOf i.causes).counter l) := by
  have hcounts := (x.resolvesInst i).bump_counts (verdictOf i.causes).counter 1
  have hone : Counted 1 (x.liveReg (verdictOf i.causes).counter) _ := (x.resolvesInst i).bump_counted (verdictOf i.causes).counter 1
  rw [x.resolveInst_eq]
  generalize (x.resolvesInst i).w.bump (verdictOf i.causes).counter = w at *
  obtain ⟨v, g, h⟩ := w.resolveRun_shape
  refine ⟨v, g, w.q.live, w.q.satPages, ?_, hone⟩
  rw [h]
  dsimp only
  rw [hcounts]

theorem verdictHoldExpiry_eq (s : State) (q : QId) {i : Inst} (hi : (s.quire q).insts.find? (fun j => j.id = i.id && j.hold.isSome) = some i) (hr : s.collector.reports = [])
    (ht : s.timeBad = false) : exec (.verdictHoldExpiry q i.id) s = .next (s.onQuire q fun x => x.w.resolveInst i) := by
  refine congrArg Host.Outcome.next ?_
  unfold verdictHoldExpiry
  rw [hi]
  dsimp only
  rw [if_pos hr, ht]
  rfl

end Sys2Proof.Machine

namespace Sys2Proof.Proofs
open Sys2Proof.Machine

/-- Settles O16: an instance ends with a pending record where the verdict store has room, and resolves by its causes when its hold expires. -/
theorem instanceVerdicts : Obligations.InstanceVerdicts := by
  unfold Obligations.InstanceVerdicts
  intro s q i x holdUs verdict keepFails ht
  refine ⟨fun p b rest hrun hp hl hplan hsweep hcond hid hh hi huniq => ?_, fun hh hfind hr => ?_⟩
  · intro held after
    have hfind : x.insts.find? (fun j => decide (j.id = i.id) && j.hold.isNone) = some i :=
      find_only _ _ _ hi (by simp [hh]) fun j hj hp => huniq j hj (by simpa using (Bool.and_elim_left hp))
    have hlast : x.w.lastPlayed s.ctx p = x.w.endInst s.ctx i.id := by
      unfold W.lastPlayed W.sweepEnds
      rw [if_neg (by simpa [State.ctx] using ht), Quire.w_q, hsweep, hid]
    refine ⟨fun hroom => ?_, fun hfull => ?_⟩
    · have hend := x.w.endInst_room s.ctx hfind hroom
      have hstep := x.w.instanceEnd_plays s.ctx hp hl hrun (b := b) (rest := rest) (by rw [hlast, hend]; exact hplan) (by rw [hlast, hend]; exact hcond)
      rw [hlast, hend] at hstep
      obtain ⟨hplaying, hinsts, hrec, hverdicts, -⟩ := (x.records s.ctx i).endsPlay_fields p b rest
      exact ⟨_, State.exec_setQuire s _ q (fun x => x.w.instanceEnd s.ctx) ((x.records s.ctx i).endsPlay p b rest).freeDeferred rfl hstep,
        ⟨hplaying, hinsts, Quire.endsPlay_plan _ p b rest⟩, hrec, hverdicts⟩
    · have hend : _ = (x.holdsInst s.ctx i none).w.bump (rk 0x0C 0x224) := x.w.endInst_full s.ctx hfind hfull
      have hcounts := (x.holdsInst s.ctx i none).bump_counts (rk 0x0C 0x224) 1
      have hquiet := (x.holdsInst s.ctx i none).bump_quiet (rk 0x0C 0x224) 1
      have hone : Counted 1 (x.liveReg (rk 0x0C 0x224)) _ := (x.holdsInst s.ctx i none).bump_counted (rk 0x0C 0x224) 1
      generalize (x.holdsInst s.ctx i none).w.bump (rk 0x0C 0x224) = v at *
      have hplan' : v.q.seq.plan = b :: rest := by rw [hcounts]; exact hplan
      have hcond' : v.q.seq.cond = none := by rw [hcounts]; exact hcond
      have hstep := x.w.instanceEnd_plays s.ctx hp hl hrun (b := b) (rest := rest) (by rw [hlast, hend]; exact hplan') (by rw [hlast, hend]; exact hcond')
      rw [hlast, hend] at hstep
      obtain ⟨hplaying, hinsts, -, hverdicts, hlive⟩ := v.q.endsPlay_fields p b rest
      obtain ⟨hwithin, hquire⟩ := s.onQuire_within q (fun x => x.w.instanceEnd s.ctx) (by rw [hstep]; exact (hquiet.upd _).upd _)
      rw [hstep, W.upd_q, W.upd_q] at hquire
      refine ⟨_, rfl, hwithin, ?_, ?_, ?_⟩
      · rw [hquire]
        refine ⟨hplaying, hinsts.trans ?_, v.q.endsPlay_plan p b rest⟩
        rw [hcounts]
        rfl
      · rw [hquire, hverdicts, hcounts]
        rfl
      · unfold State.CountsOne
        rw [hquire, Quire.liveReg, Quire.liveReg, hlive]
        exact hone
  · have hv : verdictOf i.causes = verdict := by simp [verdictOf, verdict]
    obtain ⟨hwithin, hquire⟩ := s.onQuire_within q (fun x => x.w.resolveInst i) (x.resolveInst_quiet i)
    obtain ⟨v, g, l, m, hshape, hcount⟩ := x.resolveInst_shape i
    rw [hshape, Quire.resolvesInst, hv] at hquire
    rw [hv] at hcount
    refine ⟨_, _, verdictHoldExpiry_eq s q hfind hr ht, hquire, hwithin, rfl, rfl, rfl, rfl, ?_, fun z hz hid hkept => ?_, fun hkeep hpass z hz => ?_, fun z hz hid => ?_⟩
    · unfold State.CountsOne
      rw [hquire]
      revert hcount
      cases verdict <;> exact id
    · exact List.mem_filterMap.mpr ⟨z, hz, by rw [if_pos hid, if_neg hkept]⟩
    · obtain ⟨z', -, h⟩ := List.mem_filterMap.mp hz
      split_ifs at h with hid hgone
      · exact absurd ⟨hkeep, hpass⟩ hgone
      · rwa [← Option.some.inj h]
    · exact List.mem_filterMap.mpr ⟨z, hz, if_neg hid⟩

end Sys2Proof.Proofs
end

section
/-! The end of a run: what the endpaper, the instances and the sequencer leave when a quire leaves RUNNING (R51, R94, R110, R111, R275, R301, R401). -/

namespace Sys2Proof.Machine

/-! ### What the endpaper and the ends of instances may change -/

/-- A step that settles the endpaper and the instances in play: it changes the endpaper, the re-trim, the calibration, the instances with their records, and counters of other pages than those of quire and flow, and no instance goes. -/
structure W.Settles (w v : W) : Prop where
  frame : v.q = { w.q with
    endpaper := v.q.endpaper, retrim := v.q.retrim, cal := v.q.cal, insts := v.q.insts, verdicts := v.q.verdicts, nextRec := v.q.nextRec, playedAt := v.q.playedAt
    live := v.q.live, satPages := v.q.satPages }
  ids : v.q.insts.map (·.id) = w.q.insts.map (·.id)
  quiet : w.Quiet → v.Quiet
  flow : ∀ j < rk 0x02 0, v.q.liveReg j = w.q.liveReg j

theorem W.Settles.refl (w : W) : w.Settles w := ⟨rfl, rfl, id, fun _ _ => rfl⟩

theorem W.Settles.trans {u v w : W} (h : u.Settles v) (h' : v.Settles w) : u.Settles w where
  frame := by rw [h'.frame, h.frame]
  ids := h'.ids.trans h.ids
  quiet := h'.quiet ∘ h.quiet
  flow j hj := (h'.flow j hj).trans (h.flow j hj)

theorem W.Settles.ite {c : Prop} [Decidable c] {w u v : W} (h : w.Settles u) (h' : w.Settles v) : w.Settles (if c then u else v) := by
  split
  · exact h
  · exact h'

theorem W.settles_bump (w : W) {k : Nat} (hk : rk 0x02 0 ≤ k) (n : Nat) : w.Settles (w.bump k n) where
  frame := by
    have h := w.bump_counts k n
    unfold Quire.Counts at h
    rw [h]
  ids := by rw [w.bump_counts k n]
  quiet := fun h => h.bump k n
  flow j hj := w.bump_liveReg_other n (by omega)

/-- A change of the endpaper, the re-trim and the calibration alone. -/
theorem W.settles_upd (w : W) (f : Quire → Quire) (h : f w.q = { w.q with endpaper := (f w.q).endpaper, retrim := (f w.q).retrim, cal := (f w.q).cal }) : w.Settles (w.upd f) where
  frame := by
    rw [W.upd_q, h]
  ids := by rw [W.upd_q, h]
  quiet := id
  flow j _ := by rw [W.upd_q, h]; rfl

/-- A change of the instances that keeps each in its place. -/
theorem W.settles_insts (w : W) (f : Inst → Inst) (hf : ∀ i, (f i).id = i.id) (t : Option Nat) : w.Settles (w.upd fun x => { x with insts := x.insts.map f, playedAt := t }) where
  frame := rfl
  ids := by
    rw [W.upd_q, List.map_map]
    exact List.map_congr_left fun i _ => hf i
  quiet := id
  flow _ _ := rfl

theorem W.settles_causePlaying (w : W) (b : Nat) : w.Settles (w.causePlaying b) :=
  w.settles_insts (fun i => if i.hold.isNone then { i with causes := i.causes ||| BitVec.ofNat 16 (2 ^ b) } else i) (fun i => by split <;> rfl) w.q.playedAt

theorem W.settles_saturated (w : W) (p k : Nat) : w.Settles ((w.upd fun q => { q with satPages := setBit q.satPages p }).ask (.saturated k)) where
  frame := rfl
  ids := rfl
  quiet := fun h x hx => (List.mem_append.mp hx).elim (h x) fun hx => by rw [List.mem_singleton.mp hx]; rfl
  flow _ _ := rfl

theorem W.settles_bumpCal (w : W) (pin : Nat) : w.Settles (w.bumpCal pin) := by
  unfold W.bumpCal
  exact .ite (.trans (w.settles_upd _ rfl) (W.settles_saturated _ _ _)) (w.settles_upd _ rfl)

theorem W.settles_retrimPinDone (w : W) (c : Ctx) (r : Retrim) : w.Settles (w.retrimPinDone c r) := by
  unfold W.retrimPinDone
  extract_lets t w1
  have h1 : w.Settles w1 := ((w.settles_bumpCal r.pin).trans (W.settles_upd _ _ rfl)).trans (W.settles_bump _ (by decide) _)
  generalize w1 = v at h1
  exact .ite (h1.trans (v.settles_upd _ rfl)) (h1.trans (v.settles_upd _ rfl))

theorem W.settles_epMove (w : W) (c : Ctx) (skipped : Bool) : w.Settles (w.epMove c skipped) := by
  unfold W.epMove
  have hserve : w.Settles (W.bump (W.upd (w.when w.q.endpaper.forced fun w => w.causePlaying cbEndpaper) fun q => { q with
      endpaper := { q.endpaper with phase := .serving, drives := some (pinId q.endpaper.pin) }
      retrim := q.retrim.map fun r => if r.step = .takeover then { r with step := .measure, skipped := skipped } else r }) (rk 0x04 0x11014)) :=
    ((W.Settles.ite (w.settles_causePlaying _) (.refl w)).trans (W.settles_upd _ _ rfl)).trans (W.settles_bump _ (by decide) _)
  cases w.q.endpaper.phase with
  | joining => exact hserve
  | comparing => exact hserve
  | handingBack =>
    have hback := w.settles_upd (fun q => { q with endpaper := { q.endpaper with phase := .idle, comparing := false, forced := false, drives := none } }) rfl
    generalize (w.upd fun q => { q with endpaper := { q.endpaper with phase := .idle, comparing := false, forced := false, drives := none } }) = v at hback
    dsimp only
    cases v.q.retrim with
    | none => exact hback
    | some r => exact .ite (hback.trans (v.settles_retrimPinDone c r)) hback
  | idle => exact .refl w
  | serving => exact .refl w

theorem W.settles_epSettle (w : W) (c : Ctx) : w.Settles (w.epSettle c) := by
  unfold W.epSettle
  split
  · exact w.settles_epMove c true
  · exact w.settles_epMove c true
  · exact w.settles_epMove c true
  · exact .refl w

theorem W.settles_endInst (w : W) (c : Ctx) (id : Nat) : w.Settles (w.endInst c id) := by
  unfold W.endInst
  split
  · exact .refl w
  next i hi =>
    have hid : i.id = id := by
      have h := List.find?_some hi
      simp only [Bool.and_eq_true, decide_eq_true_eq] at h
      exact h.1
    extract_lets full i' w1
    have h1 : w.Settles w1 := w.settles_insts (fun j => if j.id = id then i' else j) (fun j => by split <;> simp [i', *]) (some c.ticks)
    generalize w1 = v at h1
    exact .ite (h1.trans (v.settles_bump (by decide) _)) (h1.trans ⟨rfl, rfl, fun h => h, fun _ _ => rfl⟩)

theorem W.settles_each {α : Type} (w : W) (l : List α) (f : W → α → W) (hf : ∀ (v : W) a, v.Settles (f v a)) : w.Settles (w.each l f) :=
  List.foldlRecOn (motive := w.Settles) l f (.refl w) fun v hv a _ => hv.trans (hf v a)

theorem W.settles_cutInsts (w : W) (c : Ctx) (b : Nat) : w.Settles (w.cutInsts c b) :=
  (w.settles_causePlaying b).trans (W.settles_each _ _ _ fun v id => v.settles_endInst c id)

/-! ### Leaving a run (R110, R111, R236, R305) -/

/-- What leaving a run may change of a quire: its pattern work and its sequencer, what it played, its markers, its sweep, and counters. -/
structure W.Leaves (w v : W) : Prop where
  frame : v.q = { w.q with
    store := v.q.store, ready := v.q.ready, delay := v.q.delay, engines := v.q.engines, slots := [], fifo := [], releasePtr := v.q.releasePtr, stream := [], streamHeads := []
    held := false, heldStream := false, fillLow := v.q.fillLow, lowestFill := v.q.lowestFill, live := v.q.live, satPages := v.q.satPages, sweep := v.q.sweep, pastSweeps := v.q.pastSweeps
    markers := v.q.markers, seq := { Sequencer.reset with entry := w.q.seq.entry }, playing := none, recent := v.q.recent, skipping := false, pausePending := false
    resumePending := false, hostPaused := false, startPending := none, reserved := false, trimMv := 0, applied := List.replicate 32 0, sigs := v.q.sigs }
  quiet : w.Quiet → v.Quiet

/-- The quire whose pattern work is cancelled, before what was cancelled is counted. -/
def Quire.patternGone (x : Quire) : Quire :=
  { x.dropItems (fun _ => true) with slots := [], fifo := [], releasePtr := x.nextSeq, stream := [], streamHeads := [], held := false, heldStream := false }.noteFill

/-- The quire once the sequencer and the markers have left the run. -/
def Quire.runLeft (x : Quire) : Quire :=
  { x.markersOff with
    seq := { Sequencer.reset with entry := x.seq.entry }
    playing := none, recent := match x.playing with | some p => p :: x.recent | none => x.recent
    skipping := false, pausePending := false, resumePending := false, hostPaused := false, startPending := none, reserved := false, trimMv := 0
    applied := List.replicate 32 0 }.freeDeferred

theorem Quire.patternGone_shape (x : Quire) : ∃ st rd dl en rp fl lf, x.patternGone = { x with
    store := st, ready := rd, delay := dl, engines := en, slots := [], fifo := [], releasePtr := rp, stream := [], streamHeads := [], held := false, heldStream := false
    fillLow := fl, lowestFill := lf } := ⟨_, _, _, _, _, _, _, rfl⟩

theorem Quire.runLeft_shape (x : Quire) : ∃ mk rc sg, x.runLeft = { x with
    markers := mk, seq := { Sequencer.reset with entry := x.seq.entry }, playing := none, recent := rc, skipping := false, pausePending := false, resumePending := false
    hostPaused := false, startPending := none, reserved := false, trimMv := 0, applied := List.replicate 32 0, sigs := sg } := ⟨_, _, _, rfl⟩

theorem W.abortSweep_shape (w : W) : (∃ sw ps l m, w.abortSweep.q = { w.q with sweep := sw, pastSweeps := ps, live := l, satPages := m }) ∧ (w.Quiet → w.abortSweep.Quiet) := by
  have hbump := (w.upd Quire.closeSweep).bump_counts (rk 0x0F 0x18) 1
  unfold Quire.Counts at hbump
  unfold W.abortSweep
  dsimp only
  split
  · split
    · exact ⟨⟨_, _, _, _, rfl⟩, fun h => h⟩
    · refine ⟨?_, fun h => W.Quiet.bump (h.upd _) _ _⟩
      rw [hbump]
      exact ⟨_, _, _, _, rfl⟩
  · exact ⟨⟨_, _, _, _, rfl⟩, fun h => h⟩

theorem W.leaves_leaveRun (w : W) : w.Leaves w.leaveRun := by
  have hcancel : w.q.patternGone.Counts w.cancelPattern.q := W.bump_counts (w.upd Quire.patternGone) (rk 0x10 0x108) _
  have hquiet : w.Quiet → w.cancelPattern.Quiet := fun h => W.Quiet.bump (h.upd Quire.patternGone) _ _
  obtain ⟨⟨sw, ps, l, m, hsweep⟩, hquiet'⟩ := w.cancelPattern.abortSweep_shape
  have hleave : w.leaveRun = w.cancelPattern.abortSweep.upd Quire.runLeft := rfl
  obtain ⟨st, rd, dl, en, rp, fl, lf, hgone⟩ := w.q.patternGone_shape
  obtain ⟨mk, rc, sg, hleft⟩ := w.cancelPattern.abortSweep.q.runLeft_shape
  refine ⟨?_, fun h => by rw [hleave]; exact (hquiet' (hquiet h)).upd _⟩
  have h : w.leaveRun.q = w.cancelPattern.abortSweep.q.runLeft := by rw [hleave, W.upd_q]
  unfold Quire.Counts at hcancel
  generalize w.cancelPattern.q.live = l', w.cancelPattern.q.satPages = m' at hcancel
  rw [hleft, hsweep, hcancel, hgone] at h
  rw [h]

/-! ### The outputs at the end of a run (R110, R275) -/

theorem Quire.takeProfile_congr {x z : Quire} (hc : z.committed = x.committed) (hp : z.pins = x.pins) (p : Nat) :
    (z.takeProfile p).pins = (x.takeProfile p).pins ∧ (z.takeProfile p).termOn = (x.takeProfile p).termOn := by
  have hcfg : ∀ page o, z.cfg page o = x.cfg page o := fun page o => by rw [Quire.cfg, Quire.cfg, Quire.inForce, Quire.inForce, hc]
  have hpmu : z.pmuPins = x.pmuPins := hcfg _ _
  have hcode : ∀ i, z.profileCode p i = x.profileCode p i := fun i => by simp only [Quire.profileCode, hcfg]
  have hterm : z.termSet = x.termSet := by simp only [Quire.termSet, hcfg, hpmu]
  exact ⟨by simp only [Quire.takeProfile, hpmu, hcode, hp], by simp only [Quire.takeProfile, hterm]⟩

theorem Quire.pinsAt_shape (x : Quire) (now : Nat) : ∃ pins spilled park term, x.pinsAt now = { x with pins := pins, spilled := spilled, parkDue := park, termOn := term } := by
  unfold Quire.pinsAt
  split
  · split
    · exact ⟨_, _, _, _, rfl⟩
    · exact ⟨_, _, x.parkDue, x.termOn, rfl⟩
  · exact ⟨_, _, x.parkDue, x.termOn, rfl⟩

theorem Quire.firePins_idle (x : Quire) (h : x.spilled = []) (limit : Int) : x.firePins limit = x := by
  rw [Quire.firePins, h]
  exact congrArg (fun l => { x with spilled := l }) h.symm

/-- Without edges to come, a park profile that is due acts at once. -/
theorem Quire.pinsAt_due (x : Quire) {p t now : Nat} (h : x.spilled = []) (hp : x.parkDue = some (p, t)) (ht : t ≤ now) :
    x.pinsAt now = { x.takeProfile p with spilled := [], parkDue := none } := by
  rw [Quire.pinsAt, hp]
  dsimp only
  rw [if_pos ht, x.firePins_idle h]

theorem Quire.pinsAt_later (x : Quire) {p t now : Nat} (h : x.spilled = []) (hp : x.parkDue = some (p, t)) (ht : now < t) : x.pinsAt now = x := by
  rw [Quire.pinsAt, hp]
  dsimp only
  rw [if_neg (not_le.mpr ht), x.firePins_idle h]

/-! ### Entering STOPPED (R110, R111, R275) -/

/-- The quire that enters STOPPED: its outputs park by profile `p` from `due` on where it played. -/
def Quire.stopsBy (x : Quire) (c : Ctx) (cause : StopCause) (inRun : Bool) (p due : Nat) : Quire :=
  { (if inRun then { x with parkDue := some (p, due) }.pinsAt (c.ticks * 4000) else x) with
    state := .stopped, stopCause := cause
    run := if inRun then { x.run with
      ended := true, clockOrFault := x.run.clockOrFault || cause = .clock, cutShort := x.run.cutShort || cause = .host || cause = .chip
      causes := if cause = .host || cause = .chip then x.run.causes ||| 2 else x.run.causes } else x.run }

theorem Quire.stopsBy_shape (x : Quire) (c : Ctx) (cause : StopCause) (p due : Nat) : ∃ pins spilled park term, x.stopsBy c cause true p due = { x with
    pins := pins, spilled := spilled, parkDue := park, termOn := term, state := .stopped, stopCause := cause
    run := { x.run with
      ended := true, clockOrFault := x.run.clockOrFault || cause = .clock, cutShort := x.run.cutShort || cause = .host || cause = .chip
      causes := if cause = .host || cause = .chip then x.run.causes ||| 2 else x.run.causes } } := by
  obtain ⟨pins, spilled, park, term, h⟩ := Quire.pinsAt_shape { x with parkDue := some (p, due) } (c.ticks * 4000)
  refine ⟨pins, spilled, park, term, ?_⟩
  rw [Quire.stopsBy, if_pos rfl, if_pos rfl, h]

theorem Quire.stopsBy_due (x : Quire) (c : Ctx) (cause : StopCause) {p due : Nat} (h : x.spilled = []) (ht : due ≤ c.ticks * 4000) :
    (x.stopsBy c cause true p due).pins = (x.takeProfile p).pins ∧ (x.stopsBy c cause true p due).termOn = (x.takeProfile p).termOn ∧ (x.stopsBy c cause true p due).parkDue = none := by
  have hpark := Quire.pinsAt_due { x with parkDue := some (p, due) } h rfl ht
  rw [Quire.stopsBy, if_pos rfl, if_pos rfl, hpark]
  exact ⟨rfl, rfl, rfl⟩

theorem Quire.stopsBy_later (x : Quire) (c : Ctx) (cause : StopCause) {p due : Nat} (h : x.spilled = []) (ht : c.ticks * 4000 < due) :
    (x.stopsBy c cause true p due).pins = x.pins ∧ (x.stopsBy c cause true p due).termOn = x.termOn ∧ (x.stopsBy c cause true p due).parkDue = some (p, due) := by
  have hpark := Quire.pinsAt_later { x with parkDue := some (p, due) } h rfl ht
  rw [Quire.stopsBy, if_pos rfl, if_pos rfl, hpark]
  exact ⟨rfl, rfl, rfl⟩

/-- The instances and the endpaper settle, the run is left, the outputs park, the commands that wait end, and the run gets its verdict. -/
theorem W.enterStopped_eq (w : W) (c : Ctx) {cause : StopCause} (h : cause ≠ .clock) : ∃ v, w.Settles v
    ∧ w.enterStopped c cause = ((v.leaveRun.upd fun x => x.stopsBy c cause w.q.state.inPlay (if w.q.state.inPlay then w.q.parkProfile w.q.seq.entry else 0)
        (if w.q.seq.ozPlayed then w.q.position + w.q.holdPeriod else 0)).endWaiters stOk 0).resolveRun := by
  have hsettle : w.Settles (w.when (w.q.state = .running) fun w => w.epSettle c) := .ite (w.settles_epSettle c) (.refl w)
  unfold W.enterStopped
  generalize (w.when (w.q.state = .running) fun w => w.epSettle c) = u at *
  cases cause with
  | clock => exact absurd rfl h
  | endOfRun => exact ⟨u, hsettle, rfl⟩
  | none => exact ⟨_, hsettle.trans (u.settles_cutInsts c cbTruncated), rfl⟩
  | host => exact ⟨_, hsettle.trans (u.settles_cutInsts c cbTruncated), rfl⟩
  | chip => exact ⟨_, hsettle.trans (u.settles_cutInsts c cbTruncated), rfl⟩

/-! ### The verdict of the run (R401) -/

/-- The verdict of a run whose instances are all resolved. -/
def RunVerdict.outcome (r : RunVerdict) : Verdict :=
  if r.clockOrFault = true ∨ r.anyInvalid = true ∨ (r.cutShort = true ∧ r.anyFail = false) then .invalid
  else if r.anyFail = true ∨ r.matchTimeout = true ∨ r.noEye = true then .fail else .pass

theorem W.resolveRun_open (w : W) (h : w.q.insts ≠ []) : w.resolveRun = w := by
  unfold W.resolveRun W.upd
  dsimp only
  rw [if_neg fun hc => h hc.2.2.1]

theorem W.resolveRun_outcome (w : W) (h : w.q.run.active = true ∧ w.q.run.ended = true ∧ w.q.insts = [] ∧ w.q.run.verdict = .pending) : w.resolveRun.q.run.verdict = w.q.run.outcome := by
  unfold W.resolveRun
  rw [W.upd_q, if_pos h]
  obtain ⟨g, hg⟩ := Quire.repairAfterRun_shape { w.q with run := { w.q.run with verdict :=
    if w.q.run.clockOrFault ∨ w.q.run.anyInvalid ∨ (w.q.run.cutShort ∧ !w.q.run.anyFail) then .invalid else if w.q.run.anyFail ∨ w.q.run.matchTimeout ∨ w.q.run.noEye then .fail else .pass } }
  rw [hg]
  simp [RunVerdict.outcome]

/-! ### The end of a binding run (R94, R111, R275) -/

theorem W.endWaiters_none (w : W) (status : Byte) (detail : BitVec 16) (h : w.q.stopWaiters = []) (h' : w.q.stopReq = none) :
    w.endWaiters status detail = w.upd fun x => { x with stopWaiters := [], stopReq := none } := by
  unfold W.endWaiters
  rw [h, h']
  rfl

theorem W.finishRebind_none (w : W) (h : ∀ d, w.q.occupied ≠ some (.rebind d)) : w.finishRebind = w := by
  unfold W.finishRebind
  split
  next d hd => exact absurd hd (h d)
  next => rfl

/-- The quire whose sequencer has come to the END at its program counter. -/
def Quire.atEndEntry (x : Quire) : Quire :=
  { x with seq := { x.seq with entry := x.seq.pc }, run := { x.run with matchTimeout := x.run.matchTimeout || bit (x.bindArg x.seq.pc) 0 } }

theorem Quire.endRun_idle (x : Quire) (c : Ctx) (hrun : x.state = .running) (hplan : x.seq.plan = []) (hp : x.playing = none) (hop : x.bindOp x.seq.pc = 0) :
    x.w.endRun c = (x.atEndEntry.w.enterStopped c .endOfRun).finishRebind :=
  if_pos (by simp [Quire.idles, hrun, hplan, hp, hop])

end Sys2Proof.Machine

namespace Sys2Proof.Proofs
open Sys2Proof.Machine

/-- Settles O17: the run that has come to its END is left, its outputs park, and its verdict is given once no instance is open. -/
theorem endOfBindingRun : Obligations.EndOfBindingRun := by
  unfold Obligations.EndOfBindingRun
  intro s q x e timeout verdict parked parksAt hrun hplan hp hop hocc hreq hwait
  have hend := x.endRun_idle s.ctx hrun hplan hp hop
  obtain ⟨v, hsettle, hstop⟩ := x.atEndEntry.w.enterStopped_eq s.ctx (cause := .endOfRun) (by decide)
  have hleave := v.leaves_leaveRun
  have hplay : x.atEndEntry.state.inPlay = true := by rw [show x.atEndEntry.state = .running from hrun]; rfl
  rw [Quire.w_q, hplay, if_pos rfl] at hstop
  generalize v.leaveRun = u at *
  have hcommitted : u.q.committed = x.committed := by rw [hleave.frame, hsettle.frame]; rfl
  have hpins : u.q.pins = x.pins := by rw [hleave.frame, hsettle.frame]; rfl
  have hterm : u.q.termOn = x.termOn := by rw [hleave.frame, hsettle.frame]; rfl
  have hspilled : u.q.spilled = x.spilled := by rw [hleave.frame, hsettle.frame]; rfl
  have hrunv : u.q.run = x.atEndEntry.run := by rw [hleave.frame, hsettle.frame]; rfl
  have hocc' : u.q.occupied = x.occupied := by rw [hleave.frame, hsettle.frame]; rfl
  have hwaiters : u.q.stopWaiters = [] ∧ u.q.stopReq = none := by rw [hleave.frame, hsettle.frame]; exact ⟨hwait, hreq⟩
  have hseq : u.q.seq = { Sequencer.reset with entry := e } := by rw [hleave.frame, hsettle.frame]; rfl
  have hfifo : u.q.reserved = false ∧ u.q.fifo = [] ∧ u.q.slots = [] := by rw [hleave.frame]; exact ⟨rfl, rfl, rfl⟩
  have hids : u.q.insts.map (·.id) = x.insts.map (·.id) := by
    rw [hleave.frame]
    exact hsettle.ids
  have hquiet : u.Quiet := hleave.quiet (hsettle.quiet (Quire.w_quiet _))
  clear hleave hsettle
  obtain ⟨pins, spilled, park, term, hshape⟩ := u.q.stopsBy_shape s.ctx .endOfRun (x.atEndEntry.parkProfile x.atEndEntry.seq.entry) parksAt
  have hdue := u.q.stopsBy_due s.ctx .endOfRun (p := x.atEndEntry.parkProfile x.atEndEntry.seq.entry) (due := parksAt)
  have hlater := u.q.stopsBy_later s.ctx .endOfRun (p := x.atEndEntry.parkProfile x.atEndEntry.seq.entry) (due := parksAt)
  rw [hspilled] at hdue hlater
  have hstop' : x.w.endRun s.ctx = (((W.mk (u.q.stopsBy s.ctx .endOfRun true (x.atEndEntry.parkProfile x.atEndEntry.seq.entry) parksAt) u.fx).endWaiters stOk 0).resolveRun).finishRebind :=
    hend.trans (congrArg W.finishRebind hstop)
  generalize u.q.stopsBy s.ctx .endOfRun true (x.atEndEntry.parkProfile x.atEndEntry.seq.entry) parksAt = y at *
  rw [W.endWaiters_none _ _ _ (by rw [hshape]; exact hwaiters.1) (by rw [hshape]; exact hwaiters.2)] at hstop'
  generalize hz : W.upd _ (fun y : Quire => { y with stopWaiters := [], stopReq := none }) = z at hstop'
  have hzq : z.q = { y with stopWaiters := [], stopReq := none } := by rw [← hz]; rfl
  have hzquiet : z.Quiet := by rw [← hz]; exact hquiet
  obtain ⟨vd, g, hres⟩ := z.resolveRun_shape
  have hzocc : ∀ d, z.resolveRun.q.occupied ≠ some (.rebind d) := by
    rw [hres, hzq, hshape]
    exact hocc'.symm ▸ hocc
  rw [W.finishRebind_none _ hzocc] at hstop'
  obtain ⟨hwithin, hquire⟩ := s.onQuire_within q (fun x => x.w.endRun s.ctx) (by rw [hstop']; exact hzquiet.upd _)
  rw [hstop'] at hquire
  have hzrun : z.q.run = { x.atEndEntry.run with ended := true, clockOrFault := x.run.clockOrFault || false, cutShort := x.run.cutShort || false || false } := by
    rw [hzq, hshape, hrunv]
    rfl
  have hzinsts : z.q.insts.map (·.id) = x.insts.map (·.id) := by
    rw [hzq, hshape]
    exact hids
  refine ⟨_, z.resolveRun.q, rfl, hquire, hwithin, ?_, ?_, ?_, ?_, ?_, ?_, ?_, ?_, ?_, ?_, fun hno ht => ?_, fun hno ht => ?_, fun hinsts hact hv => ?_, fun hinsts => ?_⟩
  · rw [hres, hzq, hshape]
  · rw [hres, hzq, hshape]
  · rw [hres, hzq, hshape, hseq]
  · rw [hres, hzq, hshape, hseq]; rfl
  · rw [hres, hzq, hshape, hseq]; rfl
  · rw [hres, hzrun]
  · rw [hres, hzrun]; rfl
  · rw [hres, hzq, hshape]; exact hfifo.1
  · rw [hres, hzq, hshape]; exact hfifo.2.1
  · rw [hres, hzq, hshape]; exact hfifo.2.2
  · obtain ⟨h1, h2, h3⟩ := hdue hno ht
    obtain ⟨h4, h5⟩ := Quire.takeProfile_congr hcommitted hpins (x.atEndEntry.parkProfile x.atEndEntry.seq.entry)
    rw [hres, hzq]
    exact ⟨h1.trans h4, h2.trans h5, h3⟩
  · obtain ⟨h1, h2, h3⟩ := hlater hno ht
    rw [hres, hzq]
    exact ⟨h1.trans hpins, h2.trans hterm, h3⟩
  · have hnone : z.q.insts = [] := by simpa [hinsts] using hzinsts
    rw [z.resolveRun_outcome ⟨by rw [hzrun]; exact hact, by rw [hzrun], hnone, by rw [hzrun]; exact hv⟩, hzrun]
    simp only [RunVerdict.outcome, Quire.atEndEntry, Bool.or_false]
    rfl
  · have hsome : z.q.insts ≠ [] := fun hnil => hinsts (by simpa [hnil] using hzinsts.symm)
    rw [z.resolveRun_open hsome, hzrun]
    rfl

end Sys2Proof.Proofs
end

section
/-! Prefetch, the creation of chunks, and the arrival of operands (R107, R199, R206, R207, R222 to R224, R475). -/

namespace Sys2Proof.Machine

/-! ### Requests for data (R107) -/

theorem lfirst_append {α : Type} (p : α → Bool) (f : α → α) (pre post : List α) (b : α) (hpre : ∀ c ∈ pre, p c = false) (hb : p b = true) :
    lfirst p f (pre ++ b :: post) = pre ++ f b :: post := by
  induction pre with
  | nil => simp [lfirst, hb]
  | cons c pre ih =>
    rw [List.cons_append, lfirst, if_neg (by simp [hpre c List.mem_cons_self]), ih fun d hd => hpre d (List.mem_cons_of_mem c hd)]
    rfl

theorem find?_append_cons {α : Type} (p : α → Bool) (pre post : List α) (b : α) (hpre : ∀ c ∈ pre, p c = false) (hb : p b = true) : (pre ++ b :: post).find? p = some b := by
  rw [List.find?_append, List.find?_eq_none.mpr fun c hc => by simp [hpre c hc], List.find?_cons_of_pos hb]
  rfl

theorem Quire.prefetch_plan (x : Quire) {pre post : List Block} {b : Block} (hrun : x.state.inRun = true) (hplan : x.seq.plan = pre ++ b :: post) (hpre : ∀ c ∈ pre, c.count ≤ c.requested)
    (hb : b.requested < b.count) : x.prefetch = { x with seq := { x.seq with plan := pre ++ { b with requested := b.requested + 1 } :: post } } := by
  rw [Quire.prefetch, if_pos hrun, hplan, lfirst_append _ _ _ _ _ (fun c hc => decide_eq_false (not_lt.mpr (hpre c hc))) (decide_eq_true hb)]

/-- Asking for lines puts a request for each into the queue. -/
theorem Dram.mem_asks (l : List Nat) (sig seq : Nat) (d : Dram) : (∀ r ∈ d.queue, r ∈ (l.foldl (fun d n => d.ask .fetch n false sig seq) d).queue)
    ∧ ∀ n ∈ l, ∃ r ∈ (l.foldl (fun d n => d.ask .fetch n false sig seq) d).queue, r.port = .fetch ∧ r.line = n ∧ r.write = false ∧ r.seq = seq := by
  induction l generalizing d with
  | nil => exact ⟨fun r hr => hr, by simp⟩
  | cons a l ih =>
    obtain ⟨hkeep, hall⟩ := ih (d.ask .fetch a false sig seq)
    refine ⟨fun r hr => hkeep r (List.mem_append_left _ hr), fun n hn => ?_⟩
    obtain rfl | hn := List.mem_cons.mp hn
    · exact ⟨_, hkeep _ (List.mem_append_right _ List.mem_cons_self), rfl, rfl, rfl, rfl⟩
    · exact hall n hn

/-! ### The next chunk of a block (R206, R222 to R224) -/

/-- The work item of the next chunk of a block. -/
def Quire.nextItem (x : Quire) (b : Block) : Item :=
  { kind := .pattern, sig := b.sig, inst := b.inst b.created, index := b.nextChunk, seq := x.nextSeq, vectors := x.chunkVectors b.sig b.nextChunk
    last := decide (x.sigChunks b.sig ≤ b.nextChunk + 1), cls := 1, waits := true, shadowed := x.shadowed b.sig, input := [], anyEngine := false, due := none, fails := [], cells := [], region := 0
    poisoned := false, copy := false, avoid := none }

/-- The release slot of the next chunk of a block. -/
def Quire.nextSlot (x : Quire) (b : Block) : Slot :=
  { seq := x.nextSeq, primary := none, copyCrc := none, trapped := none, engine := 0, sig := b.sig, inst := b.inst b.created, index := b.nextChunk
    late := decide (b.created + 1 < b.begun) || (decide (b.created + 1 = b.begun) && (match x.playing with | some p => decide (b.nextChunk ≤ p.index) | none => true))
    shadowed := x.shadowed b.sig, primaryEnded := false, copyEnded := false, poisoned := b.fetchedAhead b.nextChunk && x.seq.landingBad.contains (b.sig, b.nextChunk) }

/-- The block once its next chunk has been created. -/
def Quire.chunkMade (x : Quire) (b : Block) : Block :=
  if decide (x.sigChunks b.sig ≤ b.nextChunk + 1) then { b with created := b.created + 1, nextChunk := 0 } else { b with nextChunk := b.nextChunk + 1 }

/-- The quire with the slot of the next chunk of a block. -/
def Quire.withSlot (x : Quire) (b : Block) : Quire :=
  { x with
    slots := x.slots ++ [x.nextSlot b], nextSeq := x.nextSeq + 1, held := false
    seq := { x.seq with
      plan := lfirst (fun c => decide (c.created < c.count)) (fun _ => x.chunkMade b) x.seq.plan
      landingBad := if b.fetchedAhead b.nextChunk then x.seq.landingBad.filter (· ≠ (b.sig, b.nextChunk)) else x.seq.landingBad } }

/-- The block with its instance sequence, and the quire that has given it one (R199). -/
def Quire.given (x : Quire) (b : Block) : Block × Quire := if b.alloc ≤ b.created then x.giveInst b else (b, x)

theorem Quire.createChunk_eq (x : Quire) (b : Block) : x.createChunk b =
    (let r := x.given b
     if r.2.sigHome r.1.sig = 1 then (r.2.withSlot r.1).makeReady (r.2.nextItem r.1)
     else if r.2.sigHome r.1.sig = 0 then ({ r.2.withSlot r.1 with store := r.2.store ++ [r.2.nextItem r.1] } : Quire).askChunk r.1 r.1.nextChunk r.2.nextSeq
     else { r.2.withSlot r.1 with store := r.2.store ++ [r.2.nextItem r.1] }) := by
  unfold Quire.createChunk
  rfl

theorem Quire.given_shape (x : Quire) (b : Block) : ∃ f a g, x.given b = ({ b with firstInst := f, alloc := a }, { x with sigs := g })
    ∧ f.getD 0 = (if b.created < b.alloc then b.firstInst.getD 0 else b.firstInst.getD (x.sig b.sig).nextInst)
    ∧ ∀ n, ({ x with sigs := g } : Quire).chunkReads n = x.chunkReads n := by
  unfold Quire.given
  by_cases h : b.alloc ≤ b.created
  · rw [if_pos h, if_neg (not_lt.mpr h)]
    refine ⟨_, _, _, rfl, rfl, fun n => ?_⟩
    have hbytes : ((x.modSig b.sig fun y => { y with nextInst := y.nextInst + 1 }).sig n).imageBytes = (x.sig n).imageBytes := by
      rw [Quire.modSig, Quire.setSig, Quire.sig]
      by_cases hn : n = b.sig
      · rw [hn, sget_sput_same]
      · rw [sget_sput_other _ _ _ _ _ hn]
        rfl
    change (x.modSig b.sig fun y => { y with nextInst := y.nextInst + 1 }).chunkReads n = _
    unfold Quire.chunkReads
    rw [hbytes]
    rfl
  · rw [if_neg h, if_pos (not_le.mp h)]
    exact ⟨_, _, _, rfl, rfl, fun _ => rfl⟩

theorem Quire.askChunk_shape (x : Quire) (b : Block) (i seq : Nat) : ∃ d, x.askChunk b i seq = { x with dram := d }
    ∧ (b.fetchedAhead i = false → ∀ n ∈ linesOf (x.chunkReads b.sig i), ∃ r ∈ d.queue, r.port = .fetch ∧ r.line = n ∧ r.write = false ∧ r.seq = seq) := by
  have hask : ∃ d, (if b.fetchedAhead i then { x with dram := x.dram.adopt b.sig i seq } else x.fetch .fetch b.sig seq (x.chunkReads b.sig i)) = { x with dram := d }
      ∧ (b.fetchedAhead i = false → ∀ n ∈ linesOf (x.chunkReads b.sig i), ∃ r ∈ d.queue, r.port = .fetch ∧ r.line = n ∧ r.write = false ∧ r.seq = seq) := by
    cases b.fetchedAhead i with
    | true => exact ⟨_, rfl, by simp⟩
    | false => exact ⟨_, rfl, fun _ => (Dram.mem_asks _ _ _ _).2⟩
  obtain ⟨d, hd, hlines⟩ := hask
  unfold Quire.askChunk
  rw [hd]
  dsimp only
  split
  · refine ⟨_, rfl, fun h n hn => ?_⟩
    obtain ⟨r, hr, hrest⟩ := hlines h n hn
    exact ⟨r, (Dram.mem_asks _ _ _ _).1 r hr, hrest⟩
  · exact ⟨d, rfl, hlines⟩

theorem Quire.chunkMade_facts (x : Quire) (b : Block) : (x.chunkMade b).count = b.count
    ∧ (x.sigChunks b.sig ≤ b.nextChunk + 1 → (x.chunkMade b).created = b.created + 1 ∧ (x.chunkMade b).nextChunk = 0)
    ∧ (¬x.sigChunks b.sig ≤ b.nextChunk + 1 → (x.chunkMade b).created = b.created ∧ (x.chunkMade b).nextChunk = b.nextChunk + 1) := by
  unfold Quire.chunkMade
  by_cases h : x.sigChunks b.sig ≤ b.nextChunk + 1 <;> simp [h]

/-- What the making of a chunk leaves, by the home of its signature. -/
theorem Quire.createChunk_shape (x : Quire) (b : Block) : ∃ f a g,
    let b' := { b with firstInst := f, alloc := a }
    let z := ({ x with sigs := g } : Quire)
    (f.getD 0 = if b.created < b.alloc then b.firstInst.getD 0 else b.firstInst.getD (x.sig b.sig).nextInst)
    ∧ (x.sigHome b.sig = 1 → x.createChunk b = (z.withSlot b').makeReady (z.nextItem b'))
    ∧ (x.sigHome b.sig ≠ 1 → ∃ d, x.createChunk b = { z.withSlot b' with store := x.store ++ [z.nextItem b'], dram := d }
      ∧ (x.sigHome b.sig = 0 → b.fetchedAhead b.nextChunk = false →
        ∀ n ∈ linesOf (x.chunkReads b.sig b.nextChunk), ∃ r ∈ d.queue, r.port = .fetch ∧ r.line = n ∧ r.write = false ∧ r.seq = x.nextSeq)) := by
  obtain ⟨f, a, g, hgiven, hinst, hreads⟩ := x.given_shape b
  have h := x.createChunk_eq b
  rw [hgiven] at h
  refine ⟨f, a, g, hinst, fun hhome => h.trans (if_pos hhome), fun hhome => ?_⟩
  replace h := h.trans (if_neg hhome)
  by_cases hdram : x.sigHome b.sig = 0
  · obtain ⟨d, hd, hlines⟩ := Quire.askChunk_shape { ({ x with sigs := g } : Quire).withSlot { b with firstInst := f, alloc := a } with
      store := x.store ++ [({ x with sigs := g } : Quire).nextItem { b with firstInst := f, alloc := a }] } { b with firstInst := f, alloc := a } b.nextChunk x.nextSeq
    refine ⟨d, (h.trans (if_pos hdram)).trans hd, fun _ hfetch n hn => hlines hfetch n ?_⟩
    rw [← hreads] at hn
    exact hn
  · exact ⟨x.dram, h.trans (if_neg hdram), fun h0 => absurd h0 hdram⟩

theorem Quire.chunkCreate_eq (x : Quire) {pre post : List Block} {b : Block} (hrun : x.state.inRun = true) (hask : x.seq.landingAsk = []) (hplan : x.seq.plan = pre ++ b :: post)
    (hpre : ∀ c ∈ pre, c.count ≤ c.created) (hb : b.created < b.count) (hreq : b.created < b.requested) (hknown : x.dataKnown b = true) :
    x.w.chunkCreate = if 16 ≤ x.slots.length || 512 ≤ x.store.length then (if x.held then x.w else ({ x with held := true } : Quire).w.bump (rk 0x10 0x12C))
      else if x.sigHome b.sig = 0 && x.dram.full .fetch then x.w else (x.createChunk b).w := by
  have hupd : (x.w.upd fun q => if q.seq.landingAsk = [] then q else q.askLanding q.seq.landingAsk) = x.w := by
    rw [Quire.w_upd, if_pos hask]
  unfold W.chunkCreate
  rw [hupd]
  simp only [Quire.w_q]
  rw [hplan, find?_append_cons _ _ _ _ (fun c hc => decide_eq_false (not_lt.mpr (hpre c hc))) (decide_eq_true hb)]
  exact (if_neg (by simp [hrun, hask])).trans (if_neg (by simp [hreq, hknown]))

/-! ### Operands (R206, R207) -/

theorem Quire.operandsHere_pattern (x : Quire) {it : Item} (hk : it.kind = .pattern) : x.operandsHere it = true ↔
    (x.sigHome it.sig = 0 → ∀ r ∈ x.dram.queue ++ x.dram.issued, r.write = false → r.seq ≠ it.seq)
      ∧ (x.sigHome it.sig = 2 → ∀ k, k = it.index ∨ (k = 0xFFFFFFFF ∧ x.sigKind it.sig = 1) → ∃ c ∈ x.stream ++ x.streamHeads, c.sig = it.sig ∧ c.inst = it.inst ∧ c.index = k) := by
  have hderived : it.derived = false := by simp [Item.derived, hk]
  have hview : x.itemView it = x := by
    unfold Quire.itemView
    split <;> simp [hderived]
  have hasked : x.unasked it = false := by
    unfold Quire.unasked
    split <;> simp [hderived]
  unfold Quire.operandsHere
  rw [hview, hasked]
  split
  next h0 => simp [h0, or_imp, forall_and]
  next h2 =>
    have hhere : ∀ k, ((x.stream ++ x.streamHeads).any fun c => decide (c.sig = it.sig) && decide (c.inst = it.inst) && decide (c.index = k)) = true
        ↔ ∃ c ∈ x.stream ++ x.streamHeads, c.sig = it.sig ∧ c.inst = it.inst ∧ c.index = k := fun k => by
      simp only [List.any_eq_true, Bool.and_eq_true, decide_eq_true_eq, and_assoc]
    simp only [Bool.and_eq_true, Bool.or_eq_true, hhere, decide_eq_true_eq, h2]
    by_cases hone : x.sigKind it.sig = 1 <;> simp [hone]
  next h0 h2 => exact ⟨fun _ => ⟨fun h => absurd h h0, fun h => absurd h h2⟩, fun _ => rfl⟩

end Sys2Proof.Machine

namespace Sys2Proof.Proofs
open Sys2Proof.Machine

/-- Settles O12: the next play is asked for, the next chunk is created where there is room, and an item whose operands have arrived becomes ready. -/
theorem chunkCreation : Obligations.ChunkCreation := by
  unfold Obligations.ChunkCreation
  intro s q pre post b x i room isLast
  refine ⟨fun hrun hplan hpre hb => ?_, fun hrun hask hplan hpre hb hreq hknown => ?_, fun before after it hstore hother hkind => ?_⟩
  · exact congrArg (fun y => Host.Outcome.next (s.setQuire q y)) (x.prefetch_plan hrun hplan hpre hb)
  · have hstep := x.chunkCreate_eq hrun hask hplan hpre hb hreq hknown
    have hroom : (decide (16 ≤ x.slots.length) || decide (512 ≤ x.store.length)) = true ↔ ¬room := by
      simp only [Bool.or_eq_true, decide_eq_true_eq, room]
      omega
    refine ⟨fun hr hfull => ?_, fun hr hhome hfull => ?_, fun hr hheld => ?_, fun hr hheld => ?_⟩
    · rw [if_neg (mt hroom.mp (not_not_intro hr)), if_neg (by simpa using hfull)] at hstep
      obtain ⟨f, a, g, hinst, hsram, hrest⟩ := x.createChunk_shape b
      have hexec := fun y h => State.exec_setQuire s (.chunkCreate q) q (fun x => x.w.chunkCreate) y rfl (hstep.trans h)
      obtain ⟨hcount, hlast, hmore⟩ := ({ x with sigs := g } : Quire).chunkMade_facts { b with firstInst := f, alloc := a }
      have hpath : (({ x with sigs := g } : Quire).withSlot { b with firstInst := f, alloc := a }).seq.plan = pre ++ ({ x with sigs := g } : Quire).chunkMade { b with firstInst := f, alloc := a } :: post := by
        rw [Quire.withSlot, show ({ x with sigs := g } : Quire).seq.plan = pre ++ b :: post from hplan]
        exact lfirst_append _ _ _ _ _ (fun c hc => decide_eq_false (not_lt.mpr (hpre c hc))) (decide_eq_true hb)
      let sl := ({ x with sigs := g } : Quire).nextSlot { b with firstInst := f, alloc := a }
      have hlate : sl.poisoned = true ↔ b.fetchedAhead i = true ∧ (b.sig, i) ∈ x.seq.landingBad := by
        rw [← List.contains_iff_mem, ← Bool.and_eq_true]
        rfl
      by_cases hhome : x.sigHome b.sig = 1
      · have hy := hsram hhome
        refine ⟨_, sl, _, ({ x with sigs := g } : Quire).chunkMade { b with firstInst := f, alloc := a }, hexec _ (congrArg Quire.w hy), rfl, rfl, rfl, rfl, rfl, rfl, rfl, rfl, rfl, hlate,
          rfl, rfl, rfl, rfl, rfl, decide_eq_true_iff, congrArg (· + _) hinst, fun _ => ⟨rfl, rfl⟩, fun h => absurd hhome h, fun h => absurd (h.symm.trans hhome) (by decide), hpath, hcount, hlast, hmore⟩
      · obtain ⟨d, hy, hlines⟩ := hrest hhome
        refine ⟨_, sl, ({ x with sigs := g } : Quire).nextItem { b with firstInst := f, alloc := a }, ({ x with sigs := g } : Quire).chunkMade { b with firstInst := f, alloc := a },
          hexec _ (congrArg Quire.w hy), rfl, rfl, rfl, rfl, rfl, rfl, rfl, rfl, rfl, hlate,
          rfl, rfl, rfl, rfl, rfl, decide_eq_true_iff, congrArg (· + _) hinst, fun h => absurd h hhome, fun _ => ⟨rfl, rfl⟩, fun h0 hfetch n hn => ?_, hpath, hcount, hlast, hmore⟩
        obtain ⟨r, hr, hport, hline, hwrite, hseq⟩ := hlines h0 hfetch n hn
        exact ⟨r, hr, hport, hline, hwrite, hseq⟩
    · exact State.exec_setQuire s _ q (fun x => x.w.chunkCreate) _ rfl (hstep.trans ((if_neg (mt hroom.mp (not_not_intro hr))).trans (if_pos (by simp [hhome, hfull]))))
    · exact s.makes_bump _ q (fun x => x.w.chunkCreate) _ _ rfl (hstep.trans ((if_pos (hroom.mpr hr)).trans (if_neg (by simp [hheld])))) rfl
    · exact State.exec_setQuire s _ q (fun x => x.w.chunkCreate) _ rfl (hstep.trans ((if_pos (hroom.mpr hr)).trans (if_pos hheld)))
  · intro arrived
    have hfind : x.operandArrival it.seq = x.arrive it := by
      rw [Quire.operandArrival, hstore, find?_append_cons _ _ _ _ (fun z hz => decide_eq_false (hother z (List.mem_append_left _ hz))) (decide_eq_true rfl)]
    have hhere := x.operandsHere_pattern hkind
    have hgone : (before ++ it :: after).filter (fun z => z.seq ≠ it.seq) = before ++ after := by
      have hkeep : ∀ l : List Item, (∀ z ∈ l, z ∈ before ++ after) → l.filter (fun z => z.seq ≠ it.seq) = l := fun l hl =>
        List.filter_eq_self.mpr fun z hz => decide_eq_true (hother z (hl z hz))
      rw [List.filter_append, List.filter_cons_of_neg (by simp), hkeep _ fun z hz => List.mem_append_left _ hz, hkeep _ fun z hz => List.mem_append_right _ hz]
    refine ⟨fun h => ?_, fun h => ?_⟩
    · refine ⟨if it.kind = .pattern ∧ ({ x with store := before ++ after } : Quire).dataDependent it.sig then ({ x with store := before ++ after } : Quire).inputNow else [],
        congrArg (fun y => Host.Outcome.next (s.setQuire q y)) (hfind.trans ((if_pos (hhere.mpr h)).trans ?_))⟩
      rw [hstore, hgone]
      rfl
    · exact congrArg (fun y => Host.Outcome.next (s.setQuire q y)) (hfind.trans (if_neg (mt hhere.mp h)))

end Sys2Proof.Proofs
end

section

/-! # Which engine an item is placed on

The placement looks for the most recently used idle engine whose context is the item's signature, and asks for the dictionary of the item's
instance only after it has chosen: an engine that lacks the dictionary wins over an older one that has it. -/

namespace Sys2Proof.Machine

/-- An item of chunk 0 of signature 0 in instance 0. -/
def streamedItem : Item :=
  { kind := .pattern, sig := 0, inst := 0, index := 0, seq := 0, vectors := 64, last := true, cls := 1, waits := false, shadowed := false, input := [],
    anyEngine := false, due := none, fails := [], cells := [], region := 0, poisoned := false, copy := false, avoid := none }

/-- Signature 0 is CODEC and STREAM, its item is ready, and engines 0 and 1 are the unfenced ones: both hold the context, engine 0 also the
dictionary of the item's instance, and engine 1 was used last. -/
def twoContexts : Quire :=
  { Quire.reset with
    state := .running
    committed := some [(rk 3 0, BitVec.ofNat 32 (2 ^ 28 + 2 ^ 27))]
    fences := ~~~(3#128)
    engines := [(0, { Engine.reset with context := some 0, dictInst := some 0 }), (1, { Engine.reset with context := some 0, lastUse := 1 })]
    ready := [streamedItem] }

theorem twoContexts_ready : twoContexts.state ≠ .off ∧ twoContexts.store = [] ∧ twoContexts.derivation = none ∧ twoContexts.failQueue = []
    ∧ twoContexts.raEn = false ∧ (twoContexts.engine 0).item = none ∧ twoContexts.fenced 0 = false := by
  decide +kernel

theorem twoContexts_holds : (twoContexts.engine 0).context = some streamedItem.sig ∧ (twoContexts.engine 0).dictInst = some streamedItem.inst := by
  decide +kernel

/-- No engine but engine 0 is idle with the context and the dictionary. -/
theorem twoContexts_holds_only (g : EngId) (hg : g ≠ 0) (hidle : twoContexts.fenced g.val = false)
    (hholds : (twoContexts.engine g.val).context = some streamedItem.sig
      ∧ (twoContexts.sigHome streamedItem.sig = 2 → twoContexts.sigKind streamedItem.sig = 1 → (twoContexts.engine g.val).dictInst = some streamedItem.inst)) : False := by
  revert g
  decide +kernel

/-- The item begins on engine 1, and engine 0 stays idle. -/
theorem twoContexts_placed (o : LineOutcome) : (sfind 0 ((twoContexts.w.dispatchStep { outcome := o, entry := 0 }).q.engines)).getD .reset
    = { Engine.reset with context := some 0, dictInst := some 0 } := by
  cases o <;> decide +kernel

end Sys2Proof.Machine

namespace Sys2Proof.Proofs
open Sys2Proof.Machine

/-- Refutes O13: of two idle engines with the context of a streamed CODEC signature, the one used last takes the item also where only the other
one holds the dictionary of its instance. -/
theorem not_itemPlacement : ¬ Obligations.ItemPlacement := by
  unfold Obligations.ItemPlacement
  intro h
  let s := State.reset.setQuire 0 twoContexts
  have hs : s.quire 0 = twoContexts := State.quire_setQuire_same ..
  obtain ⟨hstate, hstore, hderiv, hfail, hra, hitem, hfenced⟩ := twoContexts_ready
  obtain ⟨hcontext, hdict⟩ := twoContexts_holds
  have hplaced := h s 0 0 streamedItem .good 0
  simp only [hs] at hplaced
  obtain ⟨t, ht, -, hcounts, -⟩ := (hplaced hstate rfl rfl rfl rfl rfl rfl ⟨hitem, hfenced⟩).1 hstore hderiv hfail hra ⟨hcontext, fun _ _ => hdict⟩
    (fun g hne hidle hholds => (twoContexts_holds_only g hne hidle.2 hholds).elim)
  have hengines : (t.quire 0).engines = (twoContexts.w.dispatchStep { outcome := .good, entry := 0 }).q.engines := by
    rw [← Host.Outcome.next.inj ht, State.onQuire_quire_engines, hs]
  have hengine := twoContexts_placed .good
  rw [← hengines, hcounts] at hengine
  exact absurd (congrArg Engine.item hengine) (by simp [Quire.setEngine, sfind_sset_same, Quire.beginItem, Engine.reset])

end Sys2Proof.Proofs
end

section
/-! A due chunk at the pins: it plays, pauses the quire, or is skipped (R36, R132 to R138, R267, R273). -/

namespace Sys2Proof.Machine

/-! ### What the pins play depends on the configuration alone (R257 to R272) -/

section
variable {x z : Quire} (h : ∀ page o, z.cfg page o = x.cfg page o)
include h

theorem Quire.tsPeriod_congr (t : Nat) : z.tsPeriod t = x.tsPeriod t := by simp only [Quire.tsPeriod, Quire.ts, h]

theorem Quire.tsDefined_congr (t : Nat) : z.tsDefined t = x.tsDefined t := by simp only [Quire.tsDefined, Quire.ts, h]

theorem Quire.holdPeriod_congr (hs : z.seq.lastSet = x.seq.lastSet) : z.holdPeriod = x.holdPeriod := by
  have hd : z.tsDefined = x.tsDefined := funext (Quire.tsDefined_congr h)
  unfold Quire.holdPeriod
  simp only [hs, Quire.definedSets, hd, Quire.tsPeriod_congr h]

theorem Quire.spanOf_congr (l : List Nat) (n hold : Nat) : z.spanOf hold l n = x.spanOf hold l n := by
  induction l generalizing n hold with
  | nil => cases n <;> rfl
  | cons t rest ih =>
    cases n with
    | zero => rfl
    | succ n => simp only [Quire.spanOf, Quire.tsDefined_congr h, Quire.tsPeriod_congr h, ih]

theorem Quire.tsEdges_congr (t p : Nat) : z.tsEdges t p = x.tsEdges t p := by
  have hkind : z.tsKind = x.tsKind := by funext t p k; simp only [Quire.tsKind, Quire.ts, h]
  have hedge : z.tsEdge = x.tsEdge := by funext t p k; simp only [Quire.tsEdge, Quire.ts, h]
  rw [Quire.tsEdges, hkind, hedge, Quire.tsEdges]

theorem Quire.edgeDrive_congr (t p code kind : Nat) : z.edgeDrive t p code kind = x.edgeDrive t p code kind := by
  simp only [Quire.edgeDrive, Quire.tsFormat, Quire.tsReturn, Quire.ts, h]

theorem Quire.pinEvents_congr (c : Chunk) (p : Nat) (l : List Nat) (hold v b : Nat) : z.pinEvents c p hold l v b = x.pinEvents c p hold l v b := by
  induction l generalizing hold v b with
  | nil => rfl
  | cons t rest ih =>
    have hskew : z.driveDeskew p = x.driveDeskew p := by simp only [Quire.driveDeskew, h]
    simp only [Quire.pinEvents, Quire.tsDefined_congr h, Quire.tsPeriod_congr h, Quire.tsEdges_congr h, Quire.edgeDrive_congr h, hskew, ih]

theorem Quire.chunkEvents_congr (c : Chunk) (hold start : Nat) : z.chunkEvents c hold start = x.chunkEvents c hold start := by
  simp only [Quire.chunkEvents, Quire.pinEvents_congr h]

theorem Quire.firePins_congr (hp : z.pins = x.pins) (hs : z.spilled = x.spilled) (limit : Int) :
    (z.firePins limit).pins = (x.firePins limit).pins ∧ (z.firePins limit).spilled = (x.firePins limit).spilled := by
  have hpmu : z.pmuPins = x.pmuPins := h _ _
  rw [Quire.firePins, hp, hs, hpmu]
  exact ⟨rfl, rfl⟩

theorem Quire.drives_congr (hp : z.pins = x.pins) (hs : z.spilled = x.spilled) (he : z.elapsed = x.elapsed) (c : Chunk) (hold : Nat) :
    (z.drives c hold).pins = (x.drives c hold).pins ∧ (z.drives c hold).spilled = (x.drives c hold).spilled := by
  have hevents : z.spilled ++ z.chunkEvents c hold x.elapsed = x.spilled ++ x.chunkEvents c hold x.elapsed := by rw [hs, Quire.chunkEvents_congr h]
  unfold Quire.drives
  rw [he, Quire.spanOf_congr h]
  exact Quire.firePins_congr (z := { z with spilled := z.spilled ++ z.chunkEvents c hold x.elapsed }) (x := { x with spilled := x.spilled ++ x.chunkEvents c hold x.elapsed }) h hp hevents _

end

theorem Quire.drives_shape (x : Quire) (c : Chunk) (hold : Nat) : ∃ pins spilled, x.drives c hold = { x with pins := pins, spilled := spilled } :=
  ⟨_, _, rfl⟩

/-! ### What the markers and the match condition may change when a stretch begins (R116 to R120, R303) -/

/-- Where an entry that is kept holds what an unlisted key does not, dropping other entries leaves it to be read. -/
theorem sget_filterMap {α : Type} {r : Nat → α} {k : Nat} {P : α → Prop} (hr : ¬P (r k)) {g : Nat × α → Option (Nat × α)} (hg : ∀ v, P v → ∃ v', g (k, v) = some (k, v') ∧ P v')
    (hkey : ∀ e e', g e = some e' → e'.1 = e.1) (m : Sparse α) (h : P (sget r k m)) : P (sget r k (m.filterMap g)) := by
  induction m with
  | nil => exact absurd h hr
  | cons e t ih =>
    obtain ⟨i, v⟩ := e
    by_cases hi : i = k
    · subst hi
      obtain ⟨v', hv', hp⟩ := hg v (by simpa [sget] using h)
      simpa [List.filterMap_cons, hv', sget] using hp
    · have ht : P (sget r k t) := by simpa [sget, hi] using h
      rw [List.filterMap_cons]
      split
      · exact ih ht
      next e' he' =>
        obtain ⟨i', v'⟩ := e'
        obtain rfl : i' = i := hkey _ _ he'
        simpa [sget, hi] using ih ht

/-- A signature whose buffer is freed keeps its underrun. -/
theorem Quire.freeDeferred_underrun (x : Quire) (n : Nat) (h : (x.sig n).underrun = true) : (x.freeDeferred.sig n).underrun = true := by
  refine sget_filterMap (P := fun v : SigState => v.underrun = true) (by simp [SigState.reset]) (fun v hv => ?_) (fun e e' he => ?_) x.sigs h
  · dsimp only
    have hkept : (if v.buf = .freeDeferred ∧ x.refs n = 0 then v.emptied else v).underrun = true := by
      split
      · exact hv
      · exact hv
    refine ⟨_, if_neg fun hreset => ?_, hkept⟩
    rw [hreset] at hkept
    exact absurd hkept (by simp [SigState.reset])
  · dsimp only at he
    simp only [Option.ite_none_left_eq_some, Option.some.injEq] at he
    rw [← he.2]

/-- What the markers and the match condition may change of a quire as a stretch begins: the markers, the condition and the landing stage that it keeps, and counters
of other keys than the starved chunks'. -/
structure W.Follows (w v : W) : Prop where
  frame : v.q = { w.q with
    markers := v.q.markers, lastMatch := v.q.lastMatch, dram := v.q.dram, sigs := v.q.sigs, live := v.q.live, satPages := v.q.satPages
    seq := { w.q.seq with cond := v.q.seq.cond, landing := v.q.seq.landing, landingAsk := v.q.seq.landingAsk, landingBad := v.q.seq.landingBad } }
  underrun : ∀ n, (w.q.sig n).underrun = true → (v.q.sig n).underrun = true
  starved : v.q.liveReg (rk 0x01 0x204) = w.q.liveReg (rk 0x01 0x204)
  quiet : w.Quiet → v.Quiet

theorem W.Follows.refl (w : W) : w.Follows w := ⟨rfl, fun _ h => h, rfl, id⟩

theorem W.Follows.trans {u v w : W} (h : u.Follows v) (h' : v.Follows w) : u.Follows w where
  frame := by rw [h'.frame, h.frame]
  underrun n hn := h'.underrun n (h.underrun n hn)
  starved := h'.starved.trans h.starved
  quiet := h'.quiet ∘ h.quiet

theorem W.Follows.ite {c : Prop} [Decidable c] {w u v : W} (h : w.Follows u) (h' : w.Follows v) : w.Follows (if c then u else v) := by
  split
  · exact h
  · exact h'

theorem W.follows_bump (w : W) {k : Nat} (hk : rk 0x01 0x204 ≠ k) (n : Nat) : w.Follows (w.bump k n) where
  frame := by
    have h := w.bump_counts k n
    unfold Quire.Counts at h
    rw [h]
  underrun m hm := by rw [w.bump_field k n (fun x => x.sig m) fun _ _ _ => rfl]; exact hm
  starved := w.bump_liveReg_other n hk
  quiet h := h.bump k n

theorem W.follows_markers (w : W) (l : List Marker) : w.Follows { w with q := w.q.withMarkers l } := ⟨rfl, fun _ h => h, rfl, id⟩

theorem W.follows_markerEvent (w : W) (m n b : Nat) : w.Follows (w.markerEvent m n b) := by
  unfold W.markerEvent
  extract_lets t w1 was w2
  have hv : w2 = { w with q := (w.q.markerTick t).withMarkers ((w.q.markerTick t).markerAt m n t) } := W.upd_markers w1 _
  have h : w.Follows w2 := hv ▸ (w.follows_markers _).trans (W.follows_markers { w with q := w.q.markerTick t } _)
  exact .ite h (h.trans (w2.follows_bump (by unfold rk; omega) _))

theorem W.follows_markerAwaited (w : W) (find : Nat → Option (Nat × Nat)) : w.Follows (w.markerAwaited find) :=
  List.foldlRecOn (motive := w.Follows) _ _ (.refl w) fun v hv _ _ =>
    List.foldlRecOn (motive := w.Follows) _ _ (hv.trans (v.follows_markers _)) fun u hu _ _ => hu.trans (u.follows_markerEvent _ _ _)

theorem W.follows_settleMatch (w : W) : w.Follows w.settleMatch := by
  cases hc : w.q.seq.cond with
  | none => rw [W.settleMatch, hc]; exact .refl w
  | some c =>
    cases hr : c.resolved with
    | some r => rw [w.settleMatch_resolved hc (by simp [hr])]; exact .refl w
    | none =>
      cases hv : w.q.matchVerdict c with
      | none => rw [w.settleMatch_unresolved hc hv]; exact .refl w
      | some jump =>
        have h : w.Follows (w.upd fun x => x.matched c jump) := by
          cases jump with
          | true => exact ⟨rfl, fun _ h => h, rfl, id⟩
          | false => exact ⟨rfl, fun n hn => Quire.freeDeferred_underrun _ n hn, rfl, id⟩
        rw [w.settleMatch_resolves hc hr hv]
        refine .ite (h.trans ((W.follows_bump _ (k := rk 0x01 0x214) (by decide) 1).trans ?_)) h
        exact ⟨rfl, fun _ h => h, rfl, fun hq => W.Quiet.log hq _ _ _ _ _ _⟩

theorem W.follows_matchGoesOn (w : W) (n : Nat) (isLast : Bool) : w.Follows (w.matchGoesOn n isLast) := by
  unfold W.matchGoesOn
  split
  · refine .ite (W.Follows.trans ?_ (W.follows_settleMatch (w.upd _))) (.refl w)
    exact ⟨rfl, fun _ h => h, rfl, id⟩
  · exact .refl w

/-! ### A chunk plays (R257 to R274) -/

/-- The quire once the vectors of chunk `c` are the stretch `p` at the pins. -/
def Quire.playsAs (x : Quire) (p : Play) (c : Chunk) : Quire :=
  { x.follow'.drives c p.hold with
    playing := some p, endpaper := x.endpaper.compares p.instId, elapsed := x.elapsed + x.spanOf p.hold c.sets c.vectors, vecCount := x.vecCount + c.vectors
    seq := { x.seq with lastSet := match x.lastDefined c with | some t => some t | none => x.seq.lastSet
                        ozPlayed := x.seq.ozPlayed || (c.sets.take c.vectors).any fun t => x.tsDefined t && x.tsOz t } }

theorem Quire.playsAs_shape (x : Quire) (p : Play) (c : Chunk) {p0 : Play} (hp : x.playing = some p0) : ∃ recent endpaper lastSet oz, x.playsAs p c = { x with
    pins := (x.drives c p.hold).pins, spilled := (x.drives c p.hold).spilled, playing := some p, recent := recent, endpaper := endpaper
    elapsed := x.elapsed + x.spanOf p.hold c.sets c.vectors, vecCount := x.vecCount + c.vectors
    seq := { x.seq with lastSet := lastSet, ozPlayed := oz } } := by
  obtain ⟨hpins, hspilled⟩ := Quire.drives_congr (x := x) (z := x.retire p0) (fun _ _ => rfl) rfl rfl rfl c p.hold
  have hfollow : x.follow' = x.retire p0 := by rw [Quire.follow', hp]
  obtain ⟨pins, spilled, hdrives⟩ := (x.retire p0).drives_shape c p.hold
  rw [hdrives] at hpins hspilled
  refine ⟨p0 :: x.recent, x.endpaper.compares p.instId, (x.playsAs p c).seq.lastSet, (x.playsAs p c).seq.ozPlayed, ?_⟩
  rw [Quire.playsAs, hfollow, hdrives, ← hpins, ← hspilled]
  rfl

/-- A step of counters and of the causes of instances alone. -/
structure W.Blames (w v : W) : Prop where
  frame : v.q = { w.q with insts := v.q.insts, live := v.q.live, satPages := v.q.satPages }
  quiet : w.Quiet → v.Quiet

theorem W.Blames.refl (w : W) : w.Blames w := ⟨rfl, id⟩

theorem W.Blames.trans {u v w : W} (h : u.Blames v) (h' : v.Blames w) : u.Blames w := ⟨by rw [h'.frame, h.frame], h'.quiet ∘ h.quiet⟩

theorem W.blames_bump (w : W) (k n : Nat) : w.Blames (w.bump k n) where
  frame := by
    have h := w.bump_counts k n
    unfold Quire.Counts at h
    rw [h]
  quiet h := h.bump k n

theorem W.blames_causeInst (w : W) (i b : Nat) : w.Blames (w.causeInst i b) := ⟨rfl, id⟩

theorem W.Blames.unless {w v : W} (h : w.Blames v) {c : Prop} [Decidable c] {u : W} (h' : v.Blames u) : w.Blames (if c then v else u) := by
  split
  · exact h
  · exact h.trans h'

theorem W.playChunk_follows (w : W) (d : Due) (c : Chunk) : ∃ v : W, w.Blames v ∧ (v.upd fun x => x.playsAs (w.q.stretch d (some c)) c).Follows (w.playChunk d c) := by
  unfold W.playChunk
  extract_lets q p undefinedSets badCells unstrobed compares w1 w2 w3 w4
  have h1 : w.Blames w1 := (W.Blames.refl w).unless ((w.blames_bump _ _).trans (W.blames_causeInst _ _ _))
  have h2 : w.Blames w2 := h1.unless ((w1.blames_bump _ _).trans (W.blames_causeInst _ _ _))
  have h3 : w.Blames w3 := h2.unless (w2.blames_bump _ _)
  exact ⟨w3, h3, (W.follows_markerAwaited _ _).trans (W.follows_matchGoesOn _ _ _)⟩

/-! ### A starved chunk is skipped (R136 to R138) -/

/-- The quire whose next chunk, of the block of `d`, is late for the pins. -/
def Quire.skips (x : Quire) (d : Due) : Quire :=
  { x.modSig d.block.sig (fun y => { y with underrun := true }) with
    skipping := true
    slots := x.slots.map fun (y : Slot) => if y.sig = d.block.sig ∧ some y.inst = d.inst ∧ y.index = d.index ∧ !y.cancelled then { y with late := true } else y }

/-- The quire once hold vectors are the stretch `p` at the pins. -/
def Quire.holdsAs (x : Quire) (p : Play) : Quire :=
  { x.follow'.firePins (x.elapsed + p.vectors * x.holdPeriod) with
    playing := some p, elapsed := x.elapsed + p.vectors * x.holdPeriod, vecCount := x.vecCount + p.vectors }

theorem Quire.holdsAs_shape (x : Quire) (p : Play) {p0 : Play} (hp : x.playing = some p0) : ∃ recent spilled, x.holdsAs p = { x with
    pins := (x.firePins (x.elapsed + p.vectors * x.holdPeriod : Nat)).pins, spilled := spilled, playing := some p, recent := recent
    elapsed := x.elapsed + p.vectors * x.holdPeriod, vecCount := x.vecCount + p.vectors } := by
  have hfollow : x.follow' = x.retire p0 := by rw [Quire.follow', hp]
  refine ⟨p0 :: x.recent, (x.holdsAs p).spilled, ?_⟩
  rw [Quire.holdsAs, hfollow]
  rfl

/-- The quire once instance `id` has the cause `b`. -/
def Quire.blamed (x : Quire) (id b : Nat) : Quire :=
  { x with insts := x.insts.map fun i => if i.id = id then { i with causes := i.causes ||| BitVec.ofNat 16 (2 ^ b) } else i }

theorem W.holdChunk_follows (w : W) (d : Due) (cause : Nat) :
    let p := w.q.stretch d none
    (w.upd fun x => (x.blamed p.instId cause).holdsAs p).Follows (w.holdChunk d cause) :=
  (W.follows_markerAwaited _ _).trans (W.follows_matchGoesOn _ _ _)

/-- The counters of a skip: the vectors skipped, and the underrun where the skip begins. -/
def W.countSkip (w : W) (n : Nat) : W :=
  let v := w.bump64 (rk 0x01 0x208) n
  if v.q.skipping then v else v.bump (rk 0x01 0x204)

theorem W.skipChunk_eq (w : W) (d : Due) : w.skipChunk d = ((w.countSkip (w.q.chunkVectors d.block.sig d.index)).upd fun x => x.skips d).holdChunk d cbUnderrun := rfl

theorem W.bump64_counts (w : W) (k n : Nat) : w.q.Counts (w.bump64 k n).q ∧ (w.Quiet → (w.bump64 k n).Quiet) := by
  unfold W.bump64
  extract_lets r v
  split
  · exact ⟨rfl, fun h x hx => (List.mem_append.mp hx).elim (h x) fun hx => by rw [List.mem_singleton.mp hx]; rfl⟩
  · exact ⟨rfl, id⟩

theorem Quire.liveReg_congr {x z : Quire} (h : z.live = x.live) (k : Nat) : z.liveReg k = x.liveReg k := by rw [Quire.liveReg, h, Quire.liveReg]

theorem Quire.liveReg_setLive_other (x : Quire) {k j : Nat} (v : Word) (h : j ≠ k) : (x.setLive k v).liveReg j = x.liveReg j := rget_rput_other k j v x.live h

theorem W.bump64_liveReg_other (w : W) {k j : Nat} (n : Nat) (h : j ≠ k) (h' : j ≠ k + 4) : (w.bump64 k n).q.liveReg j = w.q.liveReg j := by
  have hset : ∀ v v' : Word, ((w.q.setLive k v).setLive (k + 4) v').liveReg j = w.q.liveReg j := fun v v' =>
    (Quire.liveReg_setLive_other _ v' h').trans (w.q.liveReg_setLive_other v h)
  unfold W.bump64
  extract_lets r v
  split
  · exact hset _ _
  · exact hset _ _

theorem W.countSkip_counts (w : W) (n : Nat) : w.q.Counts (w.countSkip n).q ∧ (w.Quiet → (w.countSkip n).Quiet) := by
  obtain ⟨hcounts, hquiet⟩ := w.bump64_counts (rk 0x01 0x208) n
  unfold W.countSkip
  extract_lets v
  split
  · exact ⟨hcounts, hquiet⟩
  · exact ⟨hcounts.trans (v.bump_counts _ _), fun h => (hquiet h).bump _ _⟩

theorem W.countSkip_counted (w : W) (n : Nat) (h : w.q.skipping = false) : Counted 1 (w.q.liveReg (rk 0x01 0x204)) ((w.countSkip n).q.liveReg (rk 0x01 0x204)) := by
  have hskip : (w.bump64 (rk 0x01 0x208) n).q.skipping = false := by rw [(w.bump64_counts (rk 0x01 0x208) n).1]; exact h
  rw [W.countSkip, if_neg (by simp [hskip]), ← w.bump64_liveReg_other (k := rk 0x01 0x208) n (by decide) (by decide)]
  exact W.bump_counted _ _ _

theorem W.holdChunk_quiet {w : W} (h : w.Quiet) (d : Due) (cause : Nat) : (w.holdChunk d cause).Quiet := (w.holdChunk_follows d cause).quiet (h.upd _)

theorem W.skipChunk_quiet {w : W} (h : w.Quiet) (d : Due) : (w.skipChunk d).Quiet := by
  rw [W.skipChunk_eq]
  exact W.holdChunk_quiet (((w.countSkip_counts _).2 h).upd _) d cbUnderrun

/-- What the hold vectors of `n` vectors in the place of a chunk leave of a quire that counts as `u` does, at the skip of a chunk of block `b`. -/
structure Quire.Skipped (x y : Quire) (b : Block) (ins : Inst) (n : Nat) (p : Play) : Prop where
  chunk : p.chunk = none
  vectors : p.vectors = n
  state : y.state = x.state
  playing : y.playing = some p
  count : y.vecCount = x.vecCount + n
  elapsed : y.elapsed = x.elapsed + n * x.holdPeriod
  pins : y.pins = (x.firePins (x.elapsed + n * x.holdPeriod : Nat)).pins
  underrun : (y.sig b.sig).underrun = true
  causes : ∀ z ∈ y.insts, z.id = ins.id → z.causes.getLsbD 2 = true
  counted : x.skipping = false → Counted 1 (x.liveReg (rk 0x01 0x204)) (y.liveReg (rk 0x01 0x204))

theorem Quire.skipChunk_skipped (x : Quire) (d : Due) {p0 : Play} (hp : x.playing = some p0) {ins : Inst} (hins : x.insts.filter (fun z => z.hold.isNone) = [ins]) :
    ∃ p, x.Skipped (x.w.skipChunk d).q d.block ins (x.chunkVectors d.block.sig d.index) p := by
  rw [W.skipChunk_eq]
  have hn : x.w.q.chunkVectors d.block.sig d.index = x.chunkVectors d.block.sig d.index := rfl
  rw [hn]
  generalize hn : x.chunkVectors d.block.sig d.index = n
  obtain ⟨hcounts, -⟩ := x.w.countSkip_counts n
  have hstarved := x.w.countSkip_counted n
  generalize x.w.countSkip n = u at hcounts hstarved
  have huq : u.q = { x with live := u.q.live, satPages := u.q.satPages } := hcounts
  have hfollow := (u.upd fun y => y.skips d).holdChunk_follows d cbUnderrun
  have hp' : (u.q.skips d).playing = some p0 := by rw [huq]; exact hp
  have hinst : (u.q.skips d).insts = x.insts := by rw [huq]; rfl
  have hid : ((u.q.skips d).stretch d none).instId = ins.id := by simp only [Quire.stretch, hinst, hins]; rfl
  obtain ⟨recent, spilled, hshape⟩ := ((u.q.skips d).blamed ins.id cbUnderrun).holdsAs_shape ((u.q.skips d).stretch d none) hp'
  have hcfg : ∀ page o, ((u.q.skips d).blamed ins.id cbUnderrun).cfg page o = x.cfg page o := fun _ _ => by rw [huq]; rfl
  have hhold : ((u.q.skips d).blamed ins.id cbUnderrun).holdPeriod = x.holdPeriod := Quire.holdPeriod_congr hcfg (by rw [huq]; rfl)
  have hvectors : ((u.q.skips d).stretch d none).vectors = n := by rw [← hn, huq]; rfl
  have hpins := (Quire.firePins_congr (x := x) hcfg (by rw [huq]; rfl) (by rw [huq]; rfl) (x.elapsed + n * x.holdPeriod : Nat)).1
  have hsame : ((u.q.skips d).blamed ins.id cbUnderrun).state = x.state ∧ ((u.q.skips d).blamed ins.id cbUnderrun).vecCount = x.vecCount
      ∧ ((u.q.skips d).blamed ins.id cbUnderrun).elapsed = x.elapsed := by rw [huq]; exact ⟨rfl, rfl, rfl⟩
  obtain ⟨hstate, hcount, helapsed⟩ := hsame
  simp only [W.upd_q] at hfollow
  rw [hid] at hfollow
  have hframe := hfollow.frame
  rw [W.upd_q, W.upd_q, hshape, hstate, hcount, helapsed, hhold, hvectors] at hframe
  have hunder := hfollow.underrun d.block.sig
  have hkept := hfollow.starved
  have hlive : (((u.q.skips d).blamed ins.id cbUnderrun).holdsAs ((u.q.skips d).stretch d none)).live = u.q.live := by rw [hshape]; rfl
  rw [W.upd_q, W.upd_q, Quire.liveReg_congr hlive] at hkept
  rw [W.upd_q, W.upd_q, hshape] at hunder
  have hsig : (u.q.skips d).sig d.block.sig = { u.q.sig d.block.sig with underrun := true } := sget_sput_same ..
  generalize ((u.upd fun y => y.skips d).holdChunk d cbUnderrun).q = y at hframe hunder hkept
  refine ⟨(u.q.skips d).stretch d none, rfl, hvectors, ?_, ?_, ?_, ?_, ?_, hunder (congrArg SigState.underrun hsig), fun z hz hzid => ?_, fun hskip => ?_⟩
  · rw [hframe]
  · rw [hframe]
  · rw [hframe]
  · rw [hframe]
  · rw [hframe, hpins]
  · have hz' : z ∈ ((u.q.skips d).blamed ins.id cbUnderrun).insts := by rw [hframe] at hz; exact hz
    obtain ⟨j, -, rfl⟩ := List.mem_map.mp hz'
    split at hzid
    next hj => simp [hj, cbUnderrun]
    next hj => exact absurd hzid hj
  · rw [hkept]
    exact hstarved hskip

/-! ### The due chunk (R36, R229) -/

theorem Quire.dueChunk_goesOn (x : Quire) {p : Play} {b : Block} {rest : List Block} (hplan : x.seq.plan = b :: rest) (hop : b.op = 1) (hwait : x.seq.wait = none)
    (hp : x.playing = some p) (hlast : p.isLast = false) : x.dueChunk = some { block := b, index := p.index + 1, begins := false } := by
  have hb : b.isWait = false := by simp [Block.isWait, hop]
  simp [Quire.dueChunk, hplan, hp, hlast, hb, hwait]

section
variable (w : W) (c : Ctx) (o : SramRead) {d : Due} (hrun : w.q.state = .running) (hstop : w.q.stopReq = none) (hdue : w.q.dueChunk = some d) 
include hrun hstop hdue

theorem W.chunkDue_pauses (hsafe : w.q.bindStall d.block.entry = true) (hnone : w.q.present d = none) :
    w.chunkDue c o = (w.bump (rk 0x01 0x210)).enterPaused c d.block.entry w.q.pausePending := by
  have hstarved : w.q.starved = true := by simp [Quire.starved, hdue, hnone]
  simp [W.chunkDue, hrun, hstop, hdue, hsafe, hnone, W.pauseAt, hstarved]

theorem W.chunkDue_skips (hgoes : d.begins = false) (hsafe : w.q.bindStall d.block.entry = false) (hnone : w.q.present d = none) : w.chunkDue c o = w.skipChunk d := by
  have hl : d.fromLanding = false := by simp [Due.fromLanding, hgoes]
  simp [W.chunkDue, hrun, hstop, hdue, hsafe, hnone, hl, hgoes, W.when]

theorem W.chunkDue_plays {ch : Chunk} (hgoes : d.begins = false) (hpresent : w.q.present d = some ch) (hdata : ch.kind = .data) (hnot : (w.q.bindStall d.block.entry && w.q.pausePending) = false) :
    w.chunkDue c o = (w.upd fun x => { ({ x with fifo := x.fifo.drop 1 } : Quire).noteFill with skipping := false }).playChunk d ch := by
  have hl : d.fromLanding = false := by simp [Due.fromLanding, hgoes]
  simp [W.chunkDue, hrun, hstop, hdue, hpresent, hnot, hl, hgoes, W.when, W.headCheck, W.takeDue, hdata]
  rfl

end

/-- The quire once it has entered PAUSED at entry `e`. -/
def Quire.pausedAt (x : Quire) (e : Nat) (host : Bool) : Quire :=
  { x.takeProfile (x.holdProfile e) with state := .paused, pausePending := false, hostPaused := host, trimMv := 0, seq := { x.seq with entry := e } }

theorem W.enterPaused_settles (w : W) (c : Ctx) (e : Nat) (host : Bool) : (w.upd fun x => x.pausedAt e host).Settles (w.enterPaused c e host) :=
  W.settles_epSettle _ c

end Sys2Proof.Machine

namespace Sys2Proof.Proofs
open Sys2Proof.Machine

/-- Settles O15: the due chunk goes on with the play at the pins, so it is the head of the event FIFO or absent; the frame of what follows a stretch keeps what each case says. -/
theorem chunkAtThePins : Obligations.ChunkAtThePins := by
  unfold Obligations.ChunkAtThePins
  intro s q p b rest o l x due safe i hruns hrun hstop hwait hplan hop hp hlast
  have hexec : exec due s = .next (s.onQuire q fun y => y.w.chunkDue s.ctx { outcome := o, entry := l }) := by
    exact congrArg Host.Outcome.next (if_pos hruns)
  have hdue : x.dueChunk = some { block := b, index := i, begins := false } := x.dueChunk_goesOn hplan hop hwait hp hlast
  refine ⟨fun c more hfifo hdata hsig hindex halloc hinst hnot => ?_, fun hfifo hsafe => ?_, fun hfifo hsafe ins hins => ?_⟩
  · have hpresent : x.present { block := b, index := i, begins := false } = some c := by
      simp [Quire.present, Due.fromLanding, hfifo, hsig, Due.inst, halloc, hinst, hindex]
    have hplay := x.w.chunkDue_plays s.ctx { outcome := o, entry := l } hrun hstop hdue rfl hpresent hdata hnot
    have hquiet := x.w_quiet.upd fun x => { ({ x with fifo := x.fifo.drop 1 } : Quire).noteFill with skipping := false }
    generalize hw : x.w.upd (fun x => { ({ x with fifo := x.fifo.drop 1 } : Quire).noteFill with skipping := false }) = w at hplay hquiet
    obtain ⟨v, hblame, hfollow⟩ := w.playChunk_follows { block := b, index := i, begins := false } c
    have hv : v.q = { w.q with insts := v.q.insts, live := v.q.live, satPages := v.q.satPages } := hblame.frame
    have hvq : v.q = { x with fifo := more, fillLow := v.q.fillLow, lowestFill := v.q.lowestFill, skipping := false, insts := v.q.insts, live := v.q.live, satPages := v.q.satPages } := by
      rw [hv, ← hw, W.upd_q, Quire.w_q, hfifo]
      rfl
    have hwx : w.q.holdPeriod = x.holdPeriod ∧ w.q.vecCount = x.vecCount ∧ w.q.elapsed = x.elapsed := by
      rw [← hw]
      exact ⟨Quire.holdPeriod_congr (x := x) (fun _ _ => rfl) rfl, rfl, rfl⟩
    obtain ⟨hhold, hcount, helapsed⟩ := hwx
    obtain ⟨recent, ep, ls, oz, hshape⟩ := v.q.playsAs_shape (w.q.stretch { block := b, index := i, begins := false } (some c)) c (p0 := p) (by rw [hvq]; exact hp)
    obtain ⟨hpins, hspilled⟩ := Quire.drives_congr (x := x) (z := v.q) (fun _ _ => by rw [hvq]; rfl) (by rw [hvq]) (by rw [hvq]) (by rw [hvq]) c x.holdPeriod
    have hspan := Quire.spanOf_congr (x := x) (z := v.q) (fun _ _ => by rw [hvq]; rfl) c.sets c.vectors x.holdPeriod
    obtain ⟨hwithin, hquire⟩ := s.onQuire_within q (fun y => y.w.chunkDue s.ctx { outcome := o, entry := l }) (hplay ▸ hfollow.quiet ((hblame.quiet hquiet).upd _))
    refine ⟨_, _, w.q.stretch { block := b, index := i, begins := false } (some c), hexec, hquire.trans (congrArg W.q hplay), hwithin, ?_⟩
    rw [hfollow.frame, W.upd_q, hshape]
    exact ⟨by rw [hvq]; exact hrun, by rw [hvq], rfl, by rw [hvq], rfl, rfl, hcount, helapsed, by rw [hvq], congrArg₂ (· + ·) (by rw [hvq]) ((congrArg (fun n => v.q.spanOf n c.sets c.vectors) hhold).trans hspan), (congrArg (fun n => (v.q.drives c n).pins) hhold).trans hpins, (congrArg (fun n => (v.q.drives c n).spilled) hhold).trans hspilled⟩
  · have hnone : x.present { block := b, index := i, begins := false } = none := by simp [Quire.present, Due.fromLanding, hfifo]
    have hpause := x.w.chunkDue_pauses s.ctx { outcome := o, entry := l } hrun hstop hdue hsafe hnone
    have hsettle := (x.w.bump (rk 0x01 0x210)).enterPaused_settles s.ctx b.entry x.w.q.pausePending
    obtain ⟨hwithin, hquire⟩ := s.onQuire_within q (fun y => y.w.chunkDue s.ctx { outcome := o, entry := l }) (hpause ▸ hsettle.quiet ((x.bump_quiet _ _).upd _))
    have hy := hquire.trans (congrArg W.q hpause)
    have hcount : s.CountsOne q (rk 0x01 0x210) (s.onQuire q fun y => y.w.chunkDue s.ctx { outcome := o, entry := l }) := by
      rw [State.CountsOne, hy]
      have hkept := hsettle.flow (rk 0x01 0x210) (by decide)
      rw [hkept]
      exact x.bump_counted (rk 0x01 0x210) 1
    have hcounts := x.bump_counts (rk 0x01 0x210) 1
    have hpins := (Quire.takeProfile_congr (x := x) (z := (x.w.bump (rk 0x01 0x210)).q) (by rw [hcounts]) (by rw [hcounts]) (fld (x.cfg 0x02 (32 * b.entry)) 0 4)).1
    have hprofile : (x.w.bump (rk 0x01 0x210)).q.holdProfile b.entry = fld (x.cfg 0x02 (32 * b.entry)) 0 4 := by rw [hcounts]; rfl
    refine ⟨_, _, hexec, hy, hwithin, ?_, ?_, ?_, ?_, hcount⟩
    · rw [hsettle.frame]; rfl
    · rw [hsettle.frame]; rfl
    · rw [hsettle.frame]
      exact x.w.bump_field (rk 0x01 0x210) 1 Quire.playing fun _ _ _ => rfl
    · rw [hsettle.frame, W.upd_q, Quire.pausedAt, hprofile]
      exact hpins
  · have hnone : x.present { block := b, index := i, begins := false } = none := by simp [Quire.present, Due.fromLanding, hfifo]
    have hskip := x.w.chunkDue_skips s.ctx { outcome := o, entry := l } hrun hstop hdue rfl hsafe hnone
    have hquiet : (x.w.chunkDue s.ctx { outcome := o, entry := l }).Quiet := hskip ▸ W.skipChunk_quiet x.w_quiet { block := b, index := i, begins := false }
    obtain ⟨hwithin, hquire⟩ := s.onQuire_within q (fun y => y.w.chunkDue s.ctx { outcome := o, entry := l }) hquiet
    obtain ⟨p', h⟩ := x.skipChunk_skipped { block := b, index := i, begins := false } hp hins
    dsimp only at h
    have hn : x.chunkVectors b.sig i = 64 * min 64 (x.sigGroups b.sig - 64 * i) := by rw [Quire.chunkVectors]
    generalize x.chunkVectors b.sig i = n at h hn
    have hy := hquire.trans (congrArg W.q hskip)
    generalize (x.w.skipChunk { block := b, index := i, begins := false }).q = y at h hy
    have hcount : x.skipping = false → s.CountsOne q (rk 0x01 0x204) (s.onQuire q fun y => y.w.chunkDue s.ctx { outcome := o, entry := l }) := fun hs => by
      rw [State.CountsOne, hy]
      exact h.counted hs
    exact ⟨_, y, p', n, hexec, hy, hwithin, hn, h.state.trans hrun, h.playing, h.chunk, h.vectors, h.count, h.elapsed, h.pins, h.underrun, h.causes, hcount⟩

end Sys2Proof.Proofs
end

section
/-! The endpaper takes a pin over and hands it back (R293 to R299, R797 to R803). -/

namespace Sys2Proof.Machine

theorem State.setQuire_quire (s : State) (q : QId) : s.setQuire q (s.quire q) = s :=
  congrArg (fun v => ({ s with quires := v } : State)) (Vector.set_getElem_self ..)

/-- An event that leaves its quire as it is leaves the chip as it is. -/
theorem State.exec_unchanged (s : State) (i : Instr) (q : QId) (f : Quire → W) (hexec : exec i s = .next (s.onQuire q f)) (hf : f (s.quire q) = (s.quire q).w) : exec i s = .next s := by
  rw [s.exec_setQuire i q f _ hexec hf, s.setQuire_quire]

/-! ### Changes of one entry of a list -/

theorem lmod_lmod {α : Type} (l : List α) (i : Nat) (f g : α → α) : lmod (lmod l i f) i g = lmod l i fun x => g (f x) := by
  unfold lmod
  cases h : l[i]? with
  | none => simp only [h]
  | some x =>
    obtain ⟨hi, -⟩ := List.getElem?_eq_some_iff.mp h
    simp [hi]

theorem lmod_congr {α : Type} {l : List α} {i : Nat} {f g : α → α} (h : ∀ x, l[i]? = some x → f x = g x) : lmod l i f = lmod l i g := by
  unfold lmod
  cases hx : l[i]? with
  | none => rfl
  | some x => simp only [h x hx]

/-! ### What a takeover or a hand-back leaves -/

/-- The quire once the instances at the pins take the cause ENDPAPER. -/
def Quire.endpaperBlamed (x : Quire) : Quire :=
  { x with insts := x.insts.map fun i => if i.hold.isNone then { i with causes := i.causes ||| BitVec.ofNat 16 (2 ^ cbEndpaper) } else i }

/-- The quire once the endpaper serves its pin. -/
def Quire.epServes (x : Quire) (skipped : Bool) : Quire :=
  { x with
    endpaper := { x.endpaper with phase := .serving, drives := some (pinId x.endpaper.pin) }
    retrim := x.retrim.map fun r => if r.step = .takeover then { r with step := .measure, skipped := skipped } else r }

/-- The quire once the endpaper has handed its pin back. -/
def Quire.epBack (x : Quire) : Quire :=
  { x with endpaper := { x.endpaper with phase := .idle, comparing := false, forced := false, drives := none } }

theorem W.epMove_serves (w : W) (c : Ctx) (skipped : Bool) (h : w.q.endpaper.phase = .joining ∨ w.q.endpaper.phase = .comparing) :
    w.epMove c skipped = ((w.upd fun x => if x.endpaper.forced then x.endpaperBlamed else x).upd fun x => x.epServes skipped).bump (rk 0x04 0x11014) := by
  have hforce : (w.when w.q.endpaper.forced fun w => w.causePlaying cbEndpaper) = w.upd fun x => if x.endpaper.forced then x.endpaperBlamed else x := by
    unfold W.when W.upd
    split
    next hf => simp only [hf, if_true]; rfl
    next hf => simp only [hf]; rfl
  obtain h | h := h
  · rw [W.epMove, h]
    exact congrArg (fun v : W => (v.upd fun x => x.epServes skipped).bump (rk 0x04 0x11014)) hforce
  · rw [W.epMove, h]
    exact congrArg (fun v : W => (v.upd fun x => x.epServes skipped).bump (rk 0x04 0x11014)) hforce

theorem W.epMove_back (w : W) (c : Ctx) (skipped : Bool) (h : w.q.endpaper.phase = .handingBack) :
    w.epMove c skipped = match w.q.retrim with
      | some r => if r.step = .handBack then (w.upd Quire.epBack).retrimPinDone c r else w.upd Quire.epBack
      | none => w.upd Quire.epBack := by
  rw [W.epMove, h]
  rfl

/-- The element of a pin once its re-trim has completed. -/
def CalElem.retrimmed (x : CalElem) (t : Nat) (found : Trim) : CalElem :=
  { x with count := if x.count = 0xFFFF then x.count else x.count + 1, timeNs := t, trimFail := false, mended := false, trim := x.trim.mended found }

theorem satAdd16_one (v : BitVec 16) : BitVec.ofNat 16 (satAdd 16 v.toNat 1).1 = if v = 0xFFFF then v else v + 1 := by
  unfold satAdd
  split
  next h => subst h; rfl
  next h =>
    have hv : v.toNat ≠ 65535 := fun hv => h (BitVec.eq_of_toNat_eq hv)
    have hlt := v.isLt
    apply BitVec.eq_of_toNat_eq
    dsimp only
    split
    · simp
    · have hone : (1 : BitVec 16).toNat = 1 := rfl
      simp only [BitVec.toNat_ofNat, BitVec.toNat_add, hone]
      omega

/-- The quire once the pin of `r` has completed its re-trim, measured at `t`. -/
def Quire.retrimmed (x : Quire) (r : Retrim) (t : Nat) : Quire := { x with cal := lmod x.cal r.pin fun e => e.retrimmed t r.found }

/-- The count of a pin's element, before its result is stored. -/
theorem W.bumpCal_shape (w : W) (pin : Nat) : ∃ m, (w.bumpCal pin).q = { w.q with
      cal := lmod w.q.cal pin fun e => { e with count := if e.count = 0xFFFF then e.count else e.count + 1 }, satPages := m }
    ∧ (w.Quiet → (w.bumpCal pin).Quiet) := by
  have hcal : (lmod w.q.cal pin fun e => { e with count := BitVec.ofNat 16 (satAdd 16 ((w.q.cal.getD pin .reset).count.toNat) 1).1 })
      = lmod w.q.cal pin fun e => { e with count := if e.count = 0xFFFF then e.count else e.count + 1 } :=
    lmod_congr fun e he => by
      have hget : w.q.cal.getD pin .reset = e := by simp [List.getD, he]
      rw [hget, satAdd16_one]
  unfold W.bumpCal
  extract_lets r v
  have hv : v.q = { w.q with cal := lmod w.q.cal pin fun e => { e with count := if e.count = 0xFFFF then e.count else e.count + 1 } } := by rw [← hcal]; rfl
  split
  · exact ⟨_, by rw [W.ask_q, W.upd_q, hv], fun h x hx => (List.mem_append.mp hx).elim (h x) fun hx => by rw [List.mem_singleton.mp hx]; rfl⟩
  · exact ⟨_, hv, id⟩

/-- A re-trim of a pin is stored, and counts. -/
def W.retrimStored (w : W) (r : Retrim) (t : Nat) : W :=
  ((w.bumpCal r.pin).upd fun q => { q with cal := lmod q.cal r.pin fun x => { x with timeNs := t, trimFail := false, mended := false, trim := x.trim.mended r.found } }).bump (rk 0x18 0x4)

theorem W.retrimStored_counts (w : W) (r : Retrim) (t : Nat) : (w.q.retrimmed r t).Counts (w.retrimStored r t).q ∧ (w.Quiet → (w.retrimStored r t).Quiet)
    ∧ Counted 1 (w.q.liveReg (rk 0x18 4)) ((w.retrimStored r t).q.liveReg (rk 0x18 4)) := by
  obtain ⟨m, hq, hquiet⟩ := w.bumpCal_shape r.pin
  have hstored : ((w.bumpCal r.pin).upd fun q => { q with cal := lmod q.cal r.pin fun x => { x with timeNs := t, trimFail := false, mended := false, trim := x.trim.mended r.found } }).q
      = { w.q.retrimmed r t with satPages := m } := by
    rw [W.upd_q, hq]
    dsimp only
    rw [lmod_lmod]
    rfl
  refine ⟨?_, fun h => ((hquiet h).upd _).bump _ _, ?_⟩
  · have h := W.bump_counts ((w.bumpCal r.pin).upd fun q => { q with cal := lmod q.cal r.pin fun x => { x with timeNs := t, trimFail := false, mended := false, trim := x.trim.mended r.found } })
      (rk 0x18 0x4) 1
    rw [hstored] at h
    exact Quire.Counts.trans (y := { w.q.retrimmed r t with satPages := m }) rfl h
  · have h := W.bump_counted ((w.bumpCal r.pin).upd fun q => { q with cal := lmod q.cal r.pin fun x => { x with timeNs := t, trimFail := false, mended := false, trim := x.trim.mended r.found } })
      (rk 0x18 0x4) 1
    rw [hstored] at h
    exact h

theorem W.retrimPinDone_eq (w : W) (c : Ctx) (r : Retrim) : w.retrimPinDone c r =
    if r.all && r.pin < 31 then (w.retrimStored r (if r.skipped then r.measuredAt else c.ns)).upd fun q =>
        { q.epJoin (r.pin + 1) r.forced with retrim := some { r with pin := r.pin + 1, step := .takeover, skipped := false, found := ⟨[], []⟩ } }
    else (w.retrimStored r (if r.skipped then r.measuredAt else c.ns)).upd fun q => { q with retrim := none } := rfl

/-- The hand-back of a pin: without a re-trim the endpaper is idle, and a re-trim stores its result and goes on with the next pin or ends. -/
theorem State.handsBack (s : State) (q : QId) (i : Instr) (f : Quire → W) (r : Retrim) (skipped : Bool) (hexec : exec i s = .next (s.onQuire q f))
    (hf : f (s.quire q) = (s.quire q).w.epMove s.ctx skipped) (hphase : (s.quire q).endpaper.phase = .handingBack) :
    ((s.quire q).retrim = none → exec i s = .next (s.setQuire q (s.quire q).epBack))
    ∧ ((s.quire q).retrim = some r → r.step = .handBack →
        (r.all = false ∨ 31 ≤ r.pin → s.Makes i q { (s.quire q).epBack.retrimmed r (if r.skipped then r.measuredAt else s.time.ns) with retrim := none } (s.CountsOne q (rk 0x18 4)))
        ∧ (r.all = true → r.pin < 31 → s.Makes i q
            { ((s.quire q).epBack.retrimmed r (if r.skipped then r.measuredAt else s.time.ns)).epJoin (r.pin + 1) r.forced with
              retrim := some { r with pin := r.pin + 1, step := .takeover, skipped := false, found := ⟨[], []⟩ } } (s.CountsOne q (rk 0x18 4)))) := by
  rw [W.epMove_back _ _ _ hphase] at hf
  constructor
  · intro hnone
    rw [Quire.w_q, hnone] at hf
    exact s.exec_setQuire i q f _ hexec hf
  · intro hr hstep
    rw [Quire.w_q, hr] at hf
    replace hf := hf.trans (if_pos hstep)
    rw [W.retrimPinDone_eq] at hf
    obtain ⟨hcounts, hquiet, hcounted⟩ := W.retrimStored_counts ((s.quire q).w.upd Quire.epBack) r (if r.skipped then r.measuredAt else s.ctx.ns)
    generalize W.retrimStored ((s.quire q).w.upd Quire.epBack) r (if r.skipped then r.measuredAt else s.ctx.ns) = v at hf hcounts hquiet hcounted
    have hv : v.Quiet := hquiet (Quire.w_quiet _)
    constructor
    · intro hlast
      have hends : ¬(r.all && decide (r.pin < 31)) = true := by
        obtain h | h := hlast
        · simp [h]
        · simp [Nat.not_lt.mpr h]
      rw [if_neg hends] at hf
      refine s.makes_of i q f _ _ hexec hf (hv.upd _) ?_ fun t ht => ?_
      · unfold Quire.Counts at *
        rw [W.upd_q, hcounts]
        rfl
      · rw [State.CountsOne, ht]
        exact hcounted
    · intro hall hpin
      rw [if_pos (by simp [hall, hpin])] at hf
      refine s.makes_of i q f _ _ hexec hf (hv.upd _) ?_ fun t ht => ?_
      · unfold Quire.Counts at *
        rw [W.upd_q, hcounts]
        rfl
      · rw [State.CountsOne, ht]
        exact hcounted

/-- The quire once the attempt of the endpaper has ended without effect. -/
def Quire.epAborted (x : Quire) : Quire :=
  { x with endpaper := { x.endpaper with phase := .idle, comparing := false, forced := false }, retrim := none }

/-- The endpaper is idle after an attempt without effect, and its cause is shown. -/
def W.epDropped (w : W) (cause : Nat) : W :=
  ((w.upd fun q => { q with endpaper := { q.endpaper with phase := .idle, comparing := false, forced := false } }).bump (rk 0x04 0x11018)).setLive (rk 0x04 0x1101C) (BitVec.ofNat 32 cause)

theorem W.epDropped_counts (w : W) (cause : Nat) :
    (w.epDropped cause).q = { w.q with
      endpaper := { w.q.endpaper with phase := .idle, comparing := false, forced := false }, live := (w.epDropped cause).q.live, satPages := (w.epDropped cause).q.satPages }
    ∧ (w.Quiet → (w.epDropped cause).Quiet) ∧ Counted 1 (w.q.liveReg (rk 0x04 0x11018)) ((w.epDropped cause).q.liveReg (rk 0x04 0x11018))
    ∧ (w.epDropped cause).q.liveReg (rk 0x04 0x1101C) = BitVec.ofNat 32 cause ∧ (w.epDropped cause).q.liveReg (rk 0x18 8) = w.q.liveReg (rk 0x18 8) := by
  have hcounts := W.bump_counts (w.upd fun q => { q with endpaper := { q.endpaper with phase := .idle, comparing := false, forced := false } }) (rk 0x04 0x11018) 1
  have hcounted := W.bump_counted (w.upd fun q => { q with endpaper := { q.endpaper with phase := .idle, comparing := false, forced := false } }) (rk 0x04 0x11018) 1
  have hother := W.bump_liveReg_other (w.upd fun q => { q with endpaper := { q.endpaper with phase := .idle, comparing := false, forced := false } }) (k := rk 0x04 0x11018) (j := rk 0x18 8) 1 (by decide)
  have hquiet : w.Quiet → (w.epDropped cause).Quiet := fun h => ((h.upd _).bump _ _).upd _
  have heq : (w.epDropped cause).q = (W.bump (w.upd fun q => { q with endpaper := { q.endpaper with phase := .idle, comparing := false, forced := false } }) (rk 0x04 0x11018)).q.setLive
    (rk 0x04 0x1101C) (BitVec.ofNat 32 cause) := rfl
  rw [heq]
  generalize (W.bump (w.upd fun q => { q with endpaper := { q.endpaper with phase := .idle, comparing := false, forced := false } }) (rk 0x04 0x11018)).q = z at hcounts hcounted hother
  refine ⟨?_, hquiet, ?_, rget_rput_same .., ?_⟩
  · unfold Quire.Counts at hcounts
    rw [hcounts]
    rfl
  · rw [Quire.liveReg_setLive_other _ _ (by decide)]
    exact hcounted
  · rw [Quire.liveReg_setLive_other _ _ (by decide)]
    exact hother

theorem W.epAbort_counts (w : W) (cause : Nat) (h : w.q.endpaper.phase = .comparing ∨ w.q.endpaper.phase = .handingBack) :
    w.q.epAborted.Counts (w.epAbort cause).q ∧ (w.Quiet → (w.epAbort cause).Quiet)
    ∧ Counted 1 (w.q.liveReg (rk 0x04 0x11018)) ((w.epAbort cause).q.liveReg (rk 0x04 0x11018)) ∧ (w.epAbort cause).q.liveReg (rk 0x04 0x1101C) = BitVec.ofNat 32 cause
    ∧ (w.q.retrim.isSome = true → Counted 1 (w.q.liveReg (rk 0x18 8)) ((w.epAbort cause).q.liveReg (rk 0x18 8))) := by
  have heq : w.epAbort cause = if (w.epDropped cause).q.retrim.isSome then ((w.epDropped cause).upd fun q => { q with retrim := none }).bump (rk 0x18 0x8) else w.epDropped cause := by
    obtain h | h := h
    · rw [W.epAbort, h]; rfl
    · rw [W.epAbort, h]; rfl
  obtain ⟨hframe, hquiet, hcounted, hcause, hother⟩ := w.epDropped_counts cause
  generalize w.epDropped cause = v at heq hframe hquiet hcounted hcause hother
  have hretrim : v.q.retrim = w.q.retrim := by rw [hframe]
  rw [heq, hretrim]
  split
  next hsome =>
    have hcounts := W.bump_counts (v.upd fun q => { q with retrim := none }) (rk 0x18 0x8) 1
    refine ⟨?_, fun hq => ((hquiet hq).upd _).bump _ _, ?_, ?_, fun _ => ?_⟩
    · refine Quire.Counts.trans ?_ hcounts
      unfold Quire.Counts
      rw [W.upd_q, hframe]
      rfl
    · rw [W.bump_liveReg_other _ _ (by decide)]
      exact hcounted
    · rw [W.bump_liveReg_other _ _ (by decide)]
      exact hcause
    · have hc := W.bump_counted (v.upd fun q => { q with retrim := none }) (rk 0x18 0x8) 1
      rw [← hother]
      exact hc
  next hnone =>
    have hx : w.q.retrim = none := by simpa using hnone
    refine ⟨?_, hquiet, hcounted, hcause, fun h => absurd h hnone⟩
    exact hframe.trans (congrArg (fun r => ({ w.q with
      endpaper := { w.q.endpaper with phase := .idle, comparing := false, forced := false }, retrim := r, live := v.q.live, satPages := v.q.satPages } : Quire)) hx)

/-- What an aborted attempt blames: the instance of the compared chunk, or those at the pins. -/
def W.epBlames (w : W) : W :=
  match w.q.endpaper.compared with | some i => w.causeInst i cbEndpaper | none => w.causePlaying cbEndpaper

theorem W.epSwitch_aborts (w : W) (c : Ctx) (h : w.q.endpaper.phase = .comparing ∨ (w.q.endpaper.phase = .handingBack ∧ w.q.endpaper.comparing = true)) :
    w.epSwitch c false = (w.epBlames.epAbort 0x01).log 0x12 3 (packW [(8, w.q.endpaper.pin), (0, 1)]) 0 0 := by
  have hc : (decide (w.q.endpaper.phase = .comparing) || (decide (w.q.endpaper.phase = .handingBack) && w.q.endpaper.comparing)) = true := by
    obtain h | ⟨h, h'⟩ := h
    · simp [h]
    · simp [h, h']
  unfold W.epSwitch
  simp only [hc, Bool.not_true, Bool.false_eq_true, if_false]
  rfl

theorem W.epSwitch_agrees (w : W) (c : Ctx) (h : w.q.endpaper.phase = .comparing ∨ (w.q.endpaper.phase = .handingBack ∧ w.q.endpaper.comparing = true)) :
    w.epSwitch c true = (w.epMove c false).upd fun q => { q with endpaper := { q.endpaper with comparing := false } } := by
  have hc : (decide (w.q.endpaper.phase = .comparing) || (decide (w.q.endpaper.phase = .handingBack) && w.q.endpaper.comparing)) = true := by
    obtain h | ⟨h, h'⟩ := h
    · simp [h]
    · simp [h, h']
  unfold W.epSwitch
  simp only [hc, Bool.not_true, Bool.false_eq_true, if_false, if_true]

theorem W.epSwitch_idle (w : W) (c : Ctx) (agreed : Bool) (h : w.q.endpaper.phase = .idle ∨ w.q.endpaper.phase = .serving) : w.epSwitch c agreed = w := by
  unfold W.epSwitch
  obtain h | h := h
  · simp [h]
  · simp [h]

theorem W.epJoinDone_idle (w : W) (c : Ctx) (h : w.q.endpaper.phase = .idle ∨ w.q.endpaper.phase = .serving) : w.epJoinDone c = w := by
  unfold W.epJoinDone
  obtain h | h := h
  · simp [h]
  · simp [h]

section
variable (w : W) (c : Ctx)

theorem W.epJoinDone_stopped (h : w.q.endpaper.phase = .joining ∨ w.q.endpaper.phase = .handingBack) (hc : w.q.endpaper.comparing = false) (hs : w.q.state ≠ .running) :
    w.epJoinDone c = w.epMove c true := by
  unfold W.epJoinDone
  obtain h | h := h
  · simp [h, hs]
  · simp [h, hc, hs]

theorem W.epJoinDone_forced (h : w.q.endpaper.phase = .joining) (hs : w.q.state = .running) (hf : w.q.endpaper.forced = true) : w.epJoinDone c = w.epMove c false := by
  simp [W.epJoinDone, h, hs, hf]

theorem W.epJoinDone_compares (h : w.q.endpaper.phase = .joining) (hs : w.q.state = .running) (hf : w.q.endpaper.forced = false) :
    w.epJoinDone c = w.upd fun x => { x with endpaper := { x.endpaper with phase := .comparing, comparing := true, compared := x.atPinsNow c } } := by
  simp [W.epJoinDone, h, hs, hf]

theorem W.epJoinDone_returns (h : w.q.endpaper.phase = .handingBack) (hc : w.q.endpaper.comparing = false) (hs : w.q.state = .running) :
    w.epJoinDone c = w.upd fun x => { x with endpaper := { x.endpaper with phase := .handingBack, comparing := true, compared := x.atPinsNow c } } := by
  simp [W.epJoinDone, h, hs, hc]

end

theorem Quire.atPinsNow_eq (x : Quire) (c : Ctx) : x.atPinsNow c = if c.ticks * 4000 < x.position then (x.playing.filter fun a => a.chunk.isSome).map (·.instId) else none := by
  unfold Quire.atPinsNow
  cases x.playing with
  | none => rfl
  | some a => cases h : a.chunk.isSome with
    | false => simp [Option.filter, h]
    | true => simp [Option.filter, h]

theorem Quire.uncompared (x : Quire) (h : x.endpaper.comparing = false) : ({ x with endpaper := { x.endpaper with comparing := false } } : Quire) = x :=
  congrArg (fun b => ({ x with endpaper := { x.endpaper with comparing := b } } : Quire)) h.symm

theorem W.upd_uncompared (w : W) (h : w.q.endpaper.comparing = false) : (w.upd fun q => { q with endpaper := { q.endpaper with comparing := false } }) = w :=
  congrArg (fun y => ({ w with q := y } : W)) (w.q.uncompared h)

theorem W.epMove_back_comparing (w : W) (c : Ctx) (skipped : Bool) (h : w.q.endpaper.phase = .handingBack) : (w.epMove c skipped).q.endpaper.comparing = false := by
  rw [w.epMove_back c skipped h]
  split
  next r _ =>
    split
    · rw [W.retrimPinDone_eq]
      obtain ⟨hcounts, -⟩ := W.retrimStored_counts (w.upd Quire.epBack) r (if r.skipped then r.measuredAt else c.ns)
      split
      · rfl
      · exact congrArg (fun y : Quire => y.endpaper.comparing) hcounts
    · rfl
  · rfl

theorem Quire.epBlames_eq (x : Quire) :
    (x.w.epBlames.q = match x.endpaper.compared with | some i => x.blamed i cbEndpaper | none => x.endpaperBlamed) ∧ x.w.epBlames.q.endpaper = x.endpaper ∧ x.w.epBlames.Quiet := by
  unfold W.epBlames
  rw [Quire.w_q]
  split
  · exact ⟨rfl, rfl, x.w_quiet⟩
  · exact ⟨rfl, rfl, x.w_quiet⟩

end Sys2Proof.Machine

namespace Sys2Proof.Proofs
open Sys2Proof.Machine

/-- Settles O48: every end of a phase is a serving, a hand-back, an abort, or the start of a comparison. -/
theorem endpaperTakeovers : Obligations.EndpaperTakeovers := by
  unfold Obligations.EndpaperTakeovers
  intro s q pin r x e marked due one waits serves over_ back trimmed goesOn joins endsBack hpin
  have hjoin : exec (.epJoinDone q) s = .next (s.onQuire q fun y => y.w.epJoinDone s.ctx) := rfl
  have hswitch : ∀ agreed, exec (.epSwitch q agreed) s = .next (s.onQuire q fun y => y.w.epSwitch s.ctx agreed) := fun _ => rfl
  have hid : pinId x.endpaper.pin = pin := by
    have h : x.endpaper.pin = pin.val := hpin
    rw [h]
    exact Fin.ext (Nat.mod_eq_of_lt pin.isLt)
  have hmarked : ∀ y : Quire, y.endpaperBlamed = marked y := fun y => by
    unfold Quire.endpaperBlamed
    simp only [Option.isNone_iff_eq_none]
    rfl
  have hdue : (if x.endpaper.forced then x.endpaperBlamed else x) = due x := by rw [hmarked]
  have hserves : ∀ (skipped : Bool) (y : Quire), y.endpaper = x.endpaper → y.retrim = x.retrim →
      ({ y.epServes skipped with endpaper := { (y.epServes skipped).endpaper with comparing := false } } : Quire) = serves skipped y := fun skipped y he hr => by
    unfold Quire.epServes
    dsimp only
    rw [he, hr, hid]
  have hwaits : x.atPinsNow s.ctx = waits := x.atPinsNow_eq s.ctx
  have hdueSame : (due x).endpaper = x.endpaper ∧ (due x).retrim = x.retrim ∧ (due x).live = x.live := by
    rw [← hdue]
    split
    · exact ⟨rfl, rfl, rfl⟩
    · exact ⟨rfl, rfl, rfl⟩
  have hserved : ∀ (skipped : Bool) (y : Quire), y.endpaper = x.endpaper → y.retrim = x.retrim → x.endpaper.comparing = false → y.epServes skipped = serves skipped y :=
    fun skipped y he hr hc => by
      rw [← hserves skipped y he hr]
      exact (Quire.uncompared (y.epServes skipped) ((congrArg Endpaper.comparing he).trans hc)).symm
  have hend : ∀ (i : Instr) (f : Quire → W) (skipped : Bool), exec i s = .next (s.onQuire q f) → f x = x.w.epMove s.ctx skipped → e.phase = .handingBack → endsBack i := fun i f skipped hexec hf hphase => by
    obtain ⟨hnone, hsome⟩ := s.handsBack q i f r skipped hexec hf hphase
    exact ⟨hnone, hsome⟩
  refine ⟨fun hphase hcomp => ⟨fun hs => ?_, fun hs hforced => ?_, fun hs hforced => ?_⟩, fun hphase hcomp => ⟨fun hs => ?_, fun hs => ?_⟩,
    fun hphase => ⟨?_, fun agreed => ?_⟩, fun hphase => ?_, fun hphase hcomp => ?_, fun hphase => ?_⟩
  · have hf := (x.w.epJoinDone_stopped s.ctx (.inl hphase) hcomp hs).trans (x.w.epMove_serves s.ctx true (.inl hphase))
    rw [Quire.w_upd, Quire.w_upd, hdue] at hf
    exact s.makes_bump _ q _ _ _ hjoin (by rw [hf, hserved true (due x) hdueSame.1 hdueSame.2.1 hcomp]) hdueSame.2.2
  · have hf := (x.w.epJoinDone_forced s.ctx hphase hs hforced).trans (x.w.epMove_serves s.ctx false (.inl hphase))
    have hdue' : due x = marked x := if_pos hforced
    rw [Quire.w_upd, Quire.w_upd, hdue, hdue'] at hf
    exact s.makes_bump _ q _ _ _ hjoin (by rw [hf, hserved false (marked x) rfl rfl hcomp]) rfl
  · exact s.exec_setQuire _ q _ _ hjoin ((x.w.epJoinDone_compares s.ctx hphase hs hforced).trans (by rw [Quire.w_upd, hwaits]))
  · exact hend _ _ true hjoin (x.w.epJoinDone_stopped s.ctx (.inr hphase) hcomp hs) hphase
  · have hf := x.w.epJoinDone_returns s.ctx hphase hcomp hs
    rw [Quire.w_upd, hwaits] at hf
    have hy : ({ x with endpaper := { x.endpaper with phase := .handingBack, comparing := true, compared := waits } } : Quire) = { x with endpaper := { e with comparing := true, compared := waits } } :=
      congrArg (fun a => ({ x with endpaper := { x.endpaper with phase := a, comparing := true, compared := waits } } : Quire)) hphase.symm
    exact s.exec_setQuire _ q _ _ hjoin (by rw [hf, hy])
  · exact s.exec_unchanged _ q _ hjoin (x.w.epJoinDone_idle s.ctx hphase)
  · exact s.exec_unchanged _ q _ (hswitch agreed) (x.w.epSwitch_idle s.ctx agreed hphase)
  · have hf := x.w.epSwitch_agrees s.ctx (.inl hphase)
    rw [x.w.epMove_serves s.ctx false (.inr hphase), Quire.w_upd, Quire.w_upd, hdue] at hf
    have hcounts := Quire.bump_counts ((due x).epServes false) (rk 0x04 0x11014) 1
    refine s.makes_of _ q _ _ _ (hswitch true) hf ((Quire.bump_quiet _ _ _).upd _) ?_ fun t ht => ?_
    · rw [← hserves false (due x) hdueSame.1 hdueSame.2.1]
      unfold Quire.Counts at *
      rw [W.upd_q, hcounts]
    · change Counted 1 (x.liveReg (rk 0x04 0x11014)) _
      rw [ht, ← Quire.liveReg_congr hdueSame.2.2]
      exact Quire.bump_counted ((due x).epServes false) (rk 0x04 0x11014) 1
  · have hf := x.w.epSwitch_agrees s.ctx (.inr ⟨hphase, hcomp⟩)
    rw [W.upd_uncompared _ (x.w.epMove_back_comparing s.ctx false hphase)] at hf
    exact hend _ _ false (hswitch true) hf hphase
  · have hf := x.w.epSwitch_aborts s.ctx hphase
    obtain ⟨hblamed, hkept, hquiet⟩ := x.epBlames_eq
    obtain ⟨hcounts, habort, hcounted, hcause, htrim⟩ := x.w.epBlames.epAbort_counts 1 (by rw [hkept]; exact hphase.imp_right And.left)
    have hy : x.w.epBlames.q.epAborted = { (match e.compared with | some i => one i | none => marked x) with endpaper := over_, retrim := none } := by
      rw [hblamed]
      cases x.endpaper.compared with
      | none => rw [hmarked]; rfl
      | some i => rfl
    have hlive : x.w.epBlames.q.live = x.live ∧ x.w.epBlames.q.retrim = x.retrim := by
      rw [hblamed]
      split
      · exact ⟨rfl, rfl⟩
      · exact ⟨rfl, rfl⟩
    obtain ⟨hlive, hretrim⟩ := hlive
    rw [Quire.liveReg_congr hlive] at hcounted htrim
    refine s.makes_of _ q _ _ _ (hswitch false) hf (W.Quiet.log (habort hquiet) _ _ _ _ _ _) (hy ▸ hcounts) fun t ht => ⟨?_, ?_, fun hsome => ?_⟩
    · rw [State.CountsOne, ht]
      exact hcounted
    · rw [ht]
      exact hcause
    · rw [State.CountsOne, ht]
      exact htrim (by rw [hretrim]; exact hsome)

end Sys2Proof.Proofs
end

section

/-! # FAULT_READ of a quire that is OFF, at a counter of refusals that is about to saturate

The refusal is sent on the wire, which counts it; the count that comes to the top of its register marks its page as saturated, and that mark is
kept in the fault collector. -/

namespace Sys2Proof.Machine

/-- The chip with link 0 up, a session open on it that owns quire 0, which is OFF, and a count of refusals one below its top. -/
def refusalsFull : State :=
  { State.reset with
    boot := { Boot.reset with step := 9, resetNLow := false, vsramFallen := false }
    sessions := (Vector.replicate 8 Session.reset).set 0 { Session.reset with isOpen := true, steward := true, handle := 8, generation := 1 }
    links := (Vector.replicate 8 Link.reset).set 0 { Link.reset with isDefined := true, width := 16, phase := .up, inService := 0xFF, rxService := 0xFF }
    quires := (Vector.replicate 8 Quire.reset).set 0 { Quire.reset with owner := some 0 }
    regs := [(rk 8 0x110, 0xFFFFFFFE)] }

/-- FAULT_READ of quire 0 on link 0, before its checksum is filled in. -/
def faultReadHead : Hdr :=
  { link := 0, cls := .ctrl, crc := 0, reads := { word := 0, outcome := .good, corrupt := [] }, version := 1, session := 8, tag := 1, qmask := 1, flags := 0, length := 0, detail := 0, rsv := 0 }

/-- FAULT_READ of quire 0 on link 0. -/
def faultReadHdr : Hdr := { faultReadHead with crc := crc32c (headerBytes faultReadHead opFaultRead.opcode) }

theorem refusalsFull_takes : refusalsFull.Takes opFaultRead faultReadHdr [] := by
  have hbuf : refusalsFull.buffered faultReadHdr.link faultReadHdr.cls = none := by decide +kernel
  have hnew : tagUse opFaultRead faultReadHdr refusalsFull = .new := tagUse_fresh fun _ => ⟨by unfold State.TagBusy; decide +kernel, by decide +kernel⟩
  exact ⟨by decide +kernel, by decide +kernel, by decide +kernel, hnew, by decide +kernel, by decide +kernel, by decide +kernel, by decide +kernel, by decide +kernel,
    by decide +kernel, fun bytes hb => absurd (hbuf.symm.trans hb) (by simp)⟩

theorem refusalsFull_saturates : (front .faultRead opFaultRead.opcode faultReadHdr [] refusalsFull doFaultRead).collector.satPages = setBit 0 8
    ∧ refusalsFull.collector.satPages = 0 := by
  decide +kernel

end Sys2Proof.Machine

namespace Sys2Proof.Proofs
open Sys2Proof.Machine

/-- Refutes O44: the refusal of a FAULT_READ of an OFF quire counts on page 0x08, and where that count saturates the collector's mark of the page changes. -/
theorem not_faultAndBudgetCommands : ¬ Obligations.FaultAndBudgetCommands := by
  unfold Obligations.FaultAndBudgetCommands
  intro h
  obtain ⟨t, ht, -, -, hcollector⟩ := ((h refusalsFull faultReadHdr [] 0).1 refusalsFull_takes).2.1 (by decide) (by decide)
  obtain ⟨hsat, hzero⟩ := refusalsFull_saturates
  have hexec : front .faultRead opFaultRead.opcode faultReadHdr [] refusalsFull doFaultRead = t := Host.Outcome.next.inj ht
  rw [hexec, hcollector, hzero] at hsat
  exact absurd hsat (by decide)

end Sys2Proof.Proofs
end

section
/-! A command that is taken is carried out on a state that differs from the one before its packet by the books of packets alone, and so does its reply (R541, R580, R586). -/

namespace Sys2Proof.Machine

/-- The books of packets: the replies sent, the sessions and the links, the registers that count, the Sinter log, and the marks of saturated pages. -/
structure Books where
  sent : List Reply
  sessions : Vector Session 8
  links : Vector Link 8
  regs : Regs
  log : SinterLog
  satPages : BitVec 32

def State.books (s : State) : Books := { sent := s.sent, sessions := s.sessions, links := s.links, regs := s.regs, log := s.log, satPages := s.collector.satPages }

def State.withBooks (s : State) (b : Books) : State :=
  { s with sent := b.sent, sessions := b.sessions, links := b.links, regs := b.regs, log := b.log, collector := { s.collector with satPages := b.satPages } }

theorem State.Booked.eq_withBooks {u t : State} {also : List Nat} (h : u.Booked t also) : t = u.withBooks t.books := h.1

/-- A state keeps its books through a change of something else. -/
theorem State.Booked.map {s t : State} (h : s.Booked t) (g : State → State) (hcomm : ∀ b, g (s.withBooks b) = (g s).withBooks b) (hregs : (g s).regs = s.regs) : (g s).Booked (g t) := by
  have ht : g t = (g s).withBooks t.books := by rw [← hcomm, ← h.eq_withBooks]
  refine ⟨?_, by simp, fun k hk hr => ?_⟩
  · rw [ht]
    rfl
  · have hreg : (g s).reg k = s.reg k := by rw [State.reg, hregs, State.reg]
    rw [hreg, ← h.2.2 k hk hr, ht]
    rfl

theorem State.Booked.reply {u g t : State} {also : List Nat} (h : u.Booked g also) (h' : g.Booked t) (hkeys : ∀ k ∈ also, k < rk 8 0x104 ∨ rk 8 0x204 ≤ k) : u.Booked t also := by
  obtain ⟨hg, hcount, hreg⟩ := h
  obtain ⟨ht, -, hreg'⟩ := h'
  refine ⟨?_, fun k hk => by rw [hreg' k (by simp) (hkeys k hk)]; exact hcount k hk, fun k hk hr => (hreg' k (by simp) hr).trans (hreg k hk hr)⟩
  rw [hg] at ht
  exact ht

section
variable {s : State} {o : OpSpec} {h : Hdr} {p : Params}

theorem State.taken_withBooks (s : State) (h : Hdr) (op : Byte) : s.taken h op = s.withBooks (s.taken h op).books := (s.taken_booked h op).eq_withBooks

/-- A command whose own checks pass is carried out (R586). -/
theorem exec_command {i : Instr} {row : Hdr → Params → Instr} {run : Hdr → Params → State → State} {check : State → Option Refuse} {act : State → ReplyTo → State}
    {refused : State → Byte → List Byte} (hexec : exec i s = .next (front row o.opcode h p s run)) (hrun : run h p s = packet o h p s check act refused)
    (hop : opcodes.contains o.opcode = true) (ht : s.Takes o h p) (hc : check (s.freeBuffer h.link h.cls) = none) :
    exec i s = .next (act (s.taken h o.opcode) (hdrDest h o.opcode)) := by
  rw [hexec, front_taken s row o h p run hop ht, hrun, packet_taken s o h p check act refused ht hc]

/-- A state from which the reply of a command taken in `s` can be sent. -/
structure State.Due (s g : State) (o : OpSpec) (h : Hdr) : Prop where
  sent : g.sent = s.sent
  up : g.linkUp h.link = true
  running : g.spine.restarting = false
  idle : g.restartDue = false
  inProgress : o.opcode = 0x01 ∨ (g.session h.link).inProgress.any (fun e => decide (e.1 = h.tag ∧ e.2.1 = o.opcode)) = true

theorem State.Takes.due (ht : s.Takes o h p) : s.Due (s.taken h o.opcode) o h := by
  obtain ⟨hrun, hidle⟩ := State.interpreting_restarting s ht.1
  have hbooked := s.taken_booked h o.opcode
  refine ⟨by rw [State.taken, State.accept_sent, State.freeBuffer_sent], (s.taken_linkUp h o.opcode h.link).trans ht.2.1, by rw [hbooked.spine, hrun], by rw [hbooked.restartDue, hidle], ?_⟩
  by_cases hop : o.opcode = 0x01
  · exact .inl hop
  · exact .inr (s.taken_inProgress h o.opcode hop)

/-- What leaves the replies, the links, the Spine, the occupied quires and the commands in progress alone keeps a reply due. -/
theorem State.Due.of {g u : State} (hg : s.Due g o h) (hsent : u.sent = g.sent) (hlinks : u.links = g.links) (hspine : u.spine = g.spine)
    (hocc : ∀ q, (u.quire q).occupied = (g.quire q).occupied) (hin : (u.session h.link).inProgress = (g.session h.link).inProgress) : s.Due u o h where
  sent := hsent.trans hg.sent
  up := by
    rw [State.linkUp, State.link_congr g u _ hlinks]
    exact hg.up
  running := by rw [hspine]; exact hg.running
  idle := by
    have hall : (u.quires.toList.all fun q => q.occupied.isNone) = g.quires.toList.all fun q => q.occupied.isNone := by
      rw [Bool.eq_iff_iff, List.all_eq_true, List.all_eq_true]
      have hmem : ∀ (v : Vector Quire 8) x, x ∈ v.toList ↔ ∃ q : QId, v[q] = x := fun v x => by
        rw [Vector.mem_toList_iff, Vector.mem_iff_getElem]
        exact ⟨fun ⟨i, hi, hx⟩ => ⟨⟨i, hi⟩, hx⟩, fun ⟨q, hx⟩ => ⟨q.val, q.isLt, hx⟩⟩
      constructor
      · rintro hu x hx
        obtain ⟨q, rfl⟩ := (hmem _ _).mp hx
        have hq := hu _ ((hmem _ _).mpr ⟨q, rfl⟩)
        rwa [show u.quires[q].occupied = g.quires[q].occupied from hocc q] at hq
      · rintro hu x hx
        obtain ⟨q, rfl⟩ := (hmem _ _).mp hx
        have hq := hu _ ((hmem _ _).mpr ⟨q, rfl⟩)
        rwa [show g.quires[q].occupied = u.quires[q].occupied from (hocc q).symm] at hq
    rw [State.restartDue, hspine, hall]
    exact hg.idle
  inProgress := by rw [hin]; exact hg.inProgress

theorem State.Due.reply {g : State} (hg : s.Due g o h) (d : ReplyTo) (st : Byte) (dt : BitVec 16) (res : List Byte) (hlink : d.link = h.link) (htag : d.tag = h.tag) (hop : d.opcode = o.opcode) :
    (g.reply d st dt res).sent = s.sent ++ [{ dest := d, status := st, detail := dt, result := res }] ∧ (st.toNat < 0x10 → g.Booked (g.reply d st dt res)) := by
  refine ⟨?_, fun hok => g.reply_booked d st dt res hg.running hg.idle hok⟩
  rw [← hg.sent]
  exact g.reply_sent d st dt res hg.running hg.idle (by rw [hlink]; exact hg.up) (by rw [hop, htag, hlink]; exact hg.inProgress)

theorem State.Due.answers {g : State} (hg : s.Due g o h) (st : Byte) (dt : BitVec 16) (res : List Byte) : s.Answers (g.reply (hdrDest h o.opcode) st dt res) h o st dt res :=
  (hg.reply (hdrDest h o.opcode) st dt res rfl rfl rfl).1

theorem State.Due.serves {i : Instr} {g u : State} {res : List Byte} {also : List Nat} (hg : s.Due g o h) (hexec : exec i s = .next (g.reply (hdrDest h o.opcode) stOk 0 res)) (hu : u.Booked g also)
    (hkeys : ∀ k ∈ also, k < rk 8 0x104 ∨ rk 8 0x204 ≤ k) : s.Serves i h o res u also :=
  ⟨_, hexec, hg.answers stOk 0 res, hu.reply ((hg.reply (hdrDest h o.opcode) stOk 0 res rfl rfl rfl).2 (by decide)) hkeys⟩

/-- A command that changes something else than the books of packets, and replies. -/
theorem State.serves_map {i : Instr} {res : List Byte} (ht : s.Takes o h p) (g : State → State) (hexec : exec i s = .next ((g (s.taken h o.opcode)).reply (hdrDest h o.opcode) stOk 0 res))
    (hcomm : ∀ b, g (s.withBooks b) = (g s).withBooks b) (hregs : (g s).regs = s.regs) (hspine : (g s).spine = s.spine) (hocc : ∀ q, ((g s).quire q).occupied = (s.quire q).occupied) :
    s.Serves i h o res (g s) := by
  have heq : g (s.taken h o.opcode) = (g s).withBooks (s.taken h o.opcode).books := by rw [← hcomm, ← s.taken_withBooks]
  have hdue : s.Due (g (s.taken h o.opcode)) o h := ht.due.of (by rw [heq]; rfl) (by rw [heq]; rfl) (by rw [heq, (s.taken_booked h o.opcode).spine]; exact hspine)
    (fun q => by
      have hq : (s.taken h o.opcode).quire q = s.quire q := State.quire_congr _ _ _ (s.taken_booked h o.opcode).quires
      rw [heq, hq]
      exact hocc q) (by rw [heq]; rfl)
  exact hdue.serves hexec ((s.taken_booked h o.opcode).map g hcomm hregs) (by simp)

end

end Sys2Proof.Machine
end

section
/-! HELLO and OPEN_SESSION (R592 to R597). -/

namespace Sys2Proof.Machine

/-! ### HELLO (R592) -/

theorem le_one (n : Nat) : le 1 n = [BitVec.ofNat 8 n] := by simp [le]

/-- The byte that names a link, or 0xFF. -/
def linkCode (k : Option LinkId) : Byte := match k with | some l => BitVec.ofNat 8 l.val | none => 0xFF

theorem linkByte_eq (k : Option LinkId) : linkByte k = [linkCode k] := by
  cases k <;> rfl

theorem State.stewardLink_congr {s t : State} (h : ∀ k, t.session k = s.session k) : t.stewardLink = s.stewardLink := by
  have hs : t.isSteward = s.isSteward := funext fun k => by rw [State.isSteward, h, State.isSteward]
  rw [State.stewardLink, hs, State.stewardLink]

theorem State.stewardLink_none (s : State) : s.stewardLink = none ↔ ∀ l, s.isSteward l = false := by
  simp [State.stewardLink]

theorem State.stewardLink_some (s : State) {l : LinkId} (h : s.isSteward l = true) (hfirst : ∀ l' < l, s.isSteward l' = false) : s.stewardLink = some l := by
  cases hm : s.stewardLink with
  | none => exact absurd h (by simp [s.stewardLink_none.mp hm l])
  | some m =>
    obtain ⟨hp, i, hi, hget, hbefore⟩ := List.find?_eq_some_iff_getElem.mp hm
    have him : i = m.val := by rw [← hget]; simp
    obtain hlt | heq | hgt := lt_trichotomy l m
    · have hj := hbefore l.val (him ▸ hlt)
      simp [h] at hj
    · rw [heq]
    · exact absurd hp (by simp [hfirst m hgt])

theorem helloResult_eq (s : State) (k : LinkId) : helloResult s k =
    [0x48, 0x72, 0x49, 0x4C, 0x00, 0x02, 0x00, 0x00, 0x01, BitVec.ofNat 8 k.val, BitVec.ofNat 8 (s.link k).width, linkCode s.stewardLink]
      ++ le 2 (if (s.session k).isOpen then (s.session k).handle.toNat else 0) ++ [0, 0] ++ (List.finRange 8).map (fun q => linkCode (s.quire q).owner) ++ [if s.modeOz then 1 else 0, 0, 0, 0] := by
  have hid : leW chipId = [0x48, 0x72, 0x49, 0x4C] := by decide
  have hstep : leW stepping = [0x00, 0x02, 0x00, 0x00] := by decide
  have howners : ((List.finRange 8).flatMap fun q => linkByte (s.quire q).owner) = (List.finRange 8).map fun q => linkCode (s.quire q).owner := by
    rw [List.map_eq_flatMap]
    exact List.flatMap_congr fun q _ => linkByte_eq _
  have hoz : le 1 (b2n s.modeOz) = [if s.modeOz then 1 else 0] := by cases s.modeOz <;> rfl
  unfold helloResult
  rw [hid, hstep, howners, hoz, le_one, le_one, le_one, linkByte_eq]
  simp [le]

/-! ### The grants of a session (R596, R597) -/

/-- The byte of a set of quires. -/
theorem getLsbD_maskOf (P : QId → Bool) (q : QId) : (BitVec.ofNat 8 (((List.finRange 8).filter P).foldl (fun a q => a + 2 ^ q.val) 0)).getLsbD q.val = P q := by
  let d : Nat → Nat := fun i => if h : i < 8 then b2n (P ⟨i, h⟩) else 0
  have hd : ∀ i < 8, d i < 2 := fun i hi => by
    simp only [d, hi, dif_pos, b2n]
    split <;> omega
  have hfold : ((List.finRange 8).filter P).foldl (fun a q => a + 2 ^ q.val) 0 = (List.range 8).foldl (fun a i => a + d i * 2 ^ i) 0 := by
    rw [List.foldl_filter, ← List.map_coe_finRange_eq_range, List.foldl_map]
    refine List.foldl_ext _ _ _ fun a g _ => ?_
    simp only [d, g.isLt, dif_pos, b2n]
    split <;> simp
  have hlt := foldl_digits_lt 2 d 8 hd
  have hdigit := foldl_digits_digit 2 d 8 hd q.isLt
  rw [hfold]
  generalize (List.range 8).foldl (fun a i => a + d i * 2 ^ i) 0 = n at hlt hdigit
  rw [BitVec.getLsbD_ofNat, decide_eq_true q.isLt, Bool.true_and, Nat.testBit_eq_decide_div_mod_eq, hdigit]
  simp only [d, q.isLt, dif_pos, b2n]
  cases P q <;> rfl

/-- Each quire of a list becomes the session's of link `k`. -/
theorem State.each_owner (k : LinkId) (l : List QId) (s : State) :
    let t := s.each l fun s q => s.modQuire q fun x => { x with owner := some k }
    t = { s with quires := t.quires } ∧ ∀ q, t.quire q = if q ∈ l then { s.quire q with owner := some k } else s.quire q := by
  induction l generalizing s with
  | nil => exact ⟨rfl, fun q => by simp [State.each]⟩
  | cons g l ih =>
    obtain ⟨hframe, hquire⟩ := ih (s.modQuire g fun x => { x with owner := some k })
    refine ⟨hframe, fun q => (hquire q).trans ?_⟩
    by_cases hq : q = g
    · subst hq
      simp
    · simp [hq]

/-! ### A reply and the sessions (R583, R586) -/

theorem Session.complete_keeps (x : Session) (r : Reply) (kept : Option Reply) : (x.complete r kept).isOpen = x.isOpen ∧ (x.complete r kept).steward = x.steward
    ∧ (x.complete r kept).handle = x.handle ∧ (x.complete r kept).generation = x.generation := by
  unfold Session.complete
  split
  · exact ⟨rfl, rfl, rfl, rfl⟩
  · exact ⟨rfl, rfl, rfl, rfl⟩

/-- A reply that is sent completes its command in its own session alone. -/
theorem State.Due.reply_session {s g : State} {o : OpSpec} {h : Hdr} (hg : s.Due g o h) (d : ReplyTo) (st : Byte) (dt : BitVec 16) (res : List Byte) (hlink : d.link = h.link) (htag : d.tag = h.tag)
    (hop : d.opcode = o.opcode) (k : LinkId) : (g.reply d st dt res).session k
      = if k = h.link then (g.session k).complete { dest := d, status := st, detail := dt, result := res } (some { dest := d, status := st, detail := dt, result := res }) else g.session k := by
  have hin : d.opcode = 0x01 ∨ (g.session d.link).inProgress.any (fun e => decide (e.1 = d.tag ∧ e.2.1 = d.opcode)) = true := by
    rw [hop, htag, hlink]
    exact hg.inProgress
  rw [State.reply, if_pos hin, State.answer, hg.running, hg.idle]
  have hsend : (g.sendReply { dest := d, status := st, detail := dt, result := res }).session k
      = (g.modSession d.link fun x => x.complete { dest := d, status := st, detail := dt, result := res } (some { dest := d, status := st, detail := dt, result := res })).session k := by
    rw [State.sendReply, State.wire_session]
  refine hsend.trans ?_
  rw [hlink]
  split
  next hk => rw [hk, State.session_modSession_same]
  next hk => rw [State.session_modSession_other _ _ _ _ hk]

/-! ### OPEN_SESSION (R593 to R597) -/

/-- A session that has opened on link `k`. -/
def Session.opened (x : Session) (k : LinkId) : Session :=
  { x with isOpen := true, generation := nextGeneration x.generation, handle := BitVec.ofNat 16 ((nextGeneration x.generation).toNat * 8 + k.val) }

/-- The chip once a session has opened on link `k` with the quires `l`, before the steward right. -/
def State.opens (s : State) (k : LinkId) (l : List QId) : State := (s.modSession k fun x => x.opened k).each l fun s q => s.modQuire q fun x => { x with owner := some k }

theorem State.opens_spec (s : State) (k : LinkId) (l : List QId) :
    s.opens k l = { s with sessions := (s.opens k l).sessions, quires := (s.opens k l).quires }
    ∧ (s.opens k l).session k = (s.session k).opened k ∧ (∀ j, j ≠ k → (s.opens k l).session j = s.session j)
    ∧ ∀ q, (s.opens k l).quire q = if q ∈ l then { s.quire q with owner := some k } else s.quire q := by
  obtain ⟨hframe, hquire⟩ := State.each_owner k l (s.modSession k fun x => x.opened k)
  have hopens : s.opens k l = (s.modSession k fun x => x.opened k).each l fun s q => s.modQuire q fun x => { x with owner := some k } := rfl
  rw [← hopens] at hframe hquire
  have hsessions : (s.opens k l).sessions = (s.modSession k fun x => x.opened k).sessions := by rw [hframe]
  refine ⟨hframe.trans (by rw [hsessions]; rfl), ?_, fun j hj => ?_, hquire⟩
  · rw [State.session_congr _ _ _ hsessions, State.session_modSession_same]
  · rw [State.session_congr _ _ _ hsessions, State.session_modSession_other _ _ _ _ hj]

/-- The same chip with the steward right, where it is granted. -/
def State.opensSteward (s : State) (k : LinkId) (l : List QId) (steward : Bool) : State :=
  if steward then (s.opens k l).modSession k fun x => { x with steward := true } else s.opens k l

theorem State.opensSteward_spec (s : State) (k : LinkId) (l : List QId) (b : Bool) :
    s.opensSteward k l b = { s with sessions := (s.opensSteward k l b).sessions, quires := (s.opensSteward k l b).quires }
    ∧ (s.opensSteward k l b).session k = { (s.session k).opened k with steward := (s.session k).steward || b } ∧ (∀ j, j ≠ k → (s.opensSteward k l b).session j = s.session j)
    ∧ ∀ q, (s.opensSteward k l b).quire q = if q ∈ l then { s.quire q with owner := some k } else s.quire q := by
  obtain ⟨hframe, hsame, hother, hquire⟩ := s.opens_spec k l
  cases b with
  | false =>
    have hs : s.opensSteward k l false = s.opens k l := if_neg Bool.false_ne_true
    rw [hs]
    refine ⟨hframe, hsame.trans ?_, hother, hquire⟩
    rw [Bool.or_false]
    rfl
  | true =>
    have hs : s.opensSteward k l true = (s.opens k l).modSession k fun x => { x with steward := true } := if_pos rfl
    rw [hs]
    refine ⟨by rw [hframe]; rfl, ?_, fun j hj => ?_, hquire⟩
    · rw [State.session_modSession_same, hsame, Bool.or_true]
    · rw [State.session_modSession_other _ _ _ _ hj, hother j hj]

section
variable {s : State} {h : Hdr} {p : Params}

/-- The steward right is asked for, and free once the session of link `h.link` is open. -/
def State.grantsSteward (s : State) (h : Hdr) (p : Params) : Bool := decide (par p 0 1 % 2 = 1 ∧ (s.opens h.link (s.grantable h)).stewardFree h.link = true)

theorem execOpenSession_taken (ht : s.Takes opOpenSession h p) (hclosed : (s.session h.link).isOpen = false)
    (hexact : par p 0 1 / 2 % 2 = 1 → (s.grantable h).length = (quiresOf h.qmask).length ∧ (par p 0 1 % 2 = 1 → s.stewardFree h.link = true)) :
    let g := s.taken h opOpenSession.opcode
    let u := g.opensSteward h.link (g.grantable h) (g.grantsSteward h p)
    exec (.openSession h p) s = .next (u.reply { hdrDest h opOpenSession.opcode with session := (u.session h.link).handle } stOk 0
      (le 1 ((g.grantable h).foldl (fun a q => a + 2 ^ q.val) 0) ++ le 1 (b2n (u.session h.link).steward) ++ le 2 (u.session h.link).handle.toNat)) := by
  intro g u
  have hgrant : (s.freeBuffer h.link h.cls).grantable h = s.grantable h := by simp only [State.grantable, State.freeBuffer_quire]
  have hfree : (s.freeBuffer h.link h.cls).stewardFree h.link = s.stewardFree h.link := by
    have hlink : (s.freeBuffer h.link h.cls).stewardLink = s.stewardLink := State.stewardLink_congr fun k => s.freeBuffer_session _ _ k
    rw [State.stewardFree, hlink, State.stewardFree]
  have hopen : ((s.taken h opOpenSession.opcode).session h.link).isOpen = false := by
    rw [State.taken, State.accept_session _ _ _ (by decide), State.freeBuffer_session]
    exact hclosed
  refine (exec_command (o := opOpenSession) (row := .openSession) (run := doOpenSession) rfl (doOpenSession.eq_1 h p s) (by decide) ht ?_).trans ?_
  · rw [hgrant, hfree, State.freeBuffer_session, if_neg (by simp [hclosed]), if_neg]
    rintro ⟨he, hl | ⟨hs, hf⟩⟩
    · exact absurd (hexact he).1 hl.ne
    · simp [(hexact he).2 hs] at hf
  · have hu : u = if par p 0 1 % 2 = 1 ∧ (g.opens h.link (g.grantable h)).stewardFree h.link = true then (g.opens h.link (g.grantable h)).modSession h.link fun x => { x with steward := true }
        else g.opens h.link (g.grantable h) := by
      simp only [u, State.opensSteward, State.grantsSteward, decide_eq_true_eq]
    rw [hu]
    simp only [hopen, Bool.false_eq_true, if_false]
    rfl

end

theorem par_one (p : Params) (n : Nat) : par p n 1 = (p.getD n 0).toNat := by
  unfold par
  rw [List.take_one, List.head?_drop, List.getD_eq_getElem?_getD]
  cases p[n]? with
  | none => rfl
  | some b => simp [unle]

theorem getLsbD_iff_mod (b : Byte) (i : Nat) : b.getLsbD i = true ↔ b.toNat / 2 ^ i % 2 = 1 := by
  rw [BitVec.getLsbD, Nat.testBit_eq_decide_div_mod_eq, decide_eq_true_eq]

/-- Where the session of a link does not have the steward right, the right is free for it unless another session has it. -/
theorem State.stewardFree_iff (s : State) {k : LinkId} (hk : s.isSteward k = false) : s.stewardFree k = true ↔ ∀ l, l ≠ k → s.isSteward l = false := by
  have hnot : s.stewardLink ≠ some k := fun h => by
    have hsome := List.find?_some h
    rw [hk] at hsome
    exact Bool.false_ne_true hsome
  rw [State.stewardFree, Bool.or_eq_true, decide_eq_true_eq, or_iff_left hnot, Option.isNone_iff_eq_none, s.stewardLink_none]
  refine ⟨fun h l _ => h l, fun h l => ?_⟩
  by_cases hl : l = k
  · rw [hl, hk]
  · exact h l hl

end Sys2Proof.Machine

namespace Sys2Proof.Proofs
open Sys2Proof.Machine

/-- HELLO shows the chip, its link, the steward and the owners (R592). -/
theorem hello_serves {s : State} {h : Hdr} {p : Params} (ht : s.Takes opHello h p) : s.Serves (.hello h p) h opHello (helloResult s h.link) s := by
  have hsession : ∀ k, (s.taken h opHello.opcode).session k = s.session k := fun k => by
    simp [State.taken, State.accept, opHello, opRow]
  have hwidth : ((s.taken h opHello.opcode).link h.link).width = (s.link h.link).width := by
    rw [State.taken, State.accept_link, State.freeBuffer, State.link_modLink_same]
    dsimp only
    split
    · rfl
    · rfl
  have hquire : ∀ q, (s.taken h opHello.opcode).quire q = s.quire q := fun q => by rw [State.taken, State.accept_quire, State.freeBuffer_quire]
  have hres : helloResult (s.taken h opHello.opcode) h.link = helloResult s h.link := by
    rw [helloResult_eq, helloResult_eq, hsession, hwidth, State.stewardLink_congr hsession, State.taken, State.accept_modeOz, State.freeBuffer_modeOz]
    simp only [State.accept_quire, State.freeBuffer_quire]
  have hexec : exec (.hello h p) s = _ := exec_command (o := opHello) (row := .hello) (run := doHello) rfl (doHello.eq_1 h p s) (by decide) ht rfl
  rw [hres] at hexec
  exact State.serves_map ht id hexec (fun _ => rfl) rfl rfl fun _ => rfl

/-- Settles O18: HELLO shows what stands, and OPEN_SESSION opens the session, grants the free quires and then the steward right. -/
theorem sessionsOpen : Obligations.SessionsOpen := by
  unfold Obligations.SessionsOpen
  intro s h p k x ownerByte asks exact_ free granted stewardFree gen handle
  refine ⟨fun ht => ⟨linkCode s.stewardLink, fun hnone => ?_, fun l hl hfirst => ?_, ?_⟩, fun ht hzero hclosed hexact => ?_⟩
  · rw [s.stewardLink_none.mpr hnone]
    rfl
  · rw [s.stewardLink_some hl hfirst]
    rfl
  · have h := hello_serves ht
    rw [helloResult_eq] at h
    exact h
  · have hasks : par p 0 1 % 2 = 1 ↔ asks = true := by
      have h := getLsbD_iff_mod (p.getD 0 0) 0
      rw [pow_zero, Nat.div_one, ← par_one] at h
      exact h.symm
    have hexacts : par p 0 1 / 2 % 2 = 1 ↔ exact_ = true := by
      rw [par_one]
      exact (getLsbD_iff_mod (p.getD 0 0) 1).symm
    have hfree : s.stewardFree h.link = true ↔ stewardFree := s.stewardFree_iff (by simp [State.isSteward, show (s.session h.link).isOpen = false from hclosed])
    have hgrant : ∀ q, (((s.quire q).owner.isNone || decide ((s.quire q).owner = some h.link)) && h.qmask.getLsbD q.val) = true ↔ granted q := fun q => by
      rw [Bool.and_eq_true, Bool.or_eq_true, Option.isNone_iff_eq_none, decide_eq_true_eq, and_comm]
    have hexec := execOpenSession_taken ht hclosed fun he => by
      obtain ⟨hall, hst⟩ := hexact (hexacts.mp he)
      refine ⟨congrArg List.length (List.filter_eq_self.mpr fun q hq => ?_), fun ha => hfree.mpr (hst (hasks.mp ha))⟩
      have hfree := hall q (List.mem_filter.mp hq).2
      simpa using hfree
    have htaken : (s.taken h opOpenSession.opcode).session h.link = { s.session h.link with inProgress := (s.session h.link).inProgress ++ [(h.tag, opOpenSession.opcode, h.qmask)] } := by
      rw [State.taken, State.accept_session _ _ _ (by decide), State.freeBuffer_session]
    have hother : ∀ l, l ≠ h.link → (s.taken h opOpenSession.opcode).session l = s.session l := fun l hl => by
      rw [State.taken, State.accept_session_other _ _ _ _ hl, State.freeBuffer_session]
    have hbooked := s.taken_booked h opOpenSession.opcode
    have hquire : ∀ q, (s.taken h opOpenSession.opcode).quire q = s.quire q := fun q => State.quire_congr _ _ _ hbooked.quires
    have hmask : (s.taken h opOpenSession.opcode).grantable h = (List.finRange 8).filter fun q => ((s.quire q).owner.isNone || decide ((s.quire q).owner = some h.link)) && h.qmask.getLsbD q.val := by
      rw [State.grantable, quiresOf, List.filter_filter]
      simp only [hquire]
    have hdue := ht.due
    have hsteward : x.steward = false → ((s.taken h opOpenSession.opcode).grantsSteward h p = true ↔ asks = true ∧ stewardFree) := fun hx => by
      obtain ⟨-, hsame, hsessions, -⟩ := (s.taken h opOpenSession.opcode).opens_spec h.link ((s.taken h opOpenSession.opcode).grantable h)
      have hnot : ((s.taken h opOpenSession.opcode).opens h.link ((s.taken h opOpenSession.opcode).grantable h)).isSteward h.link = false := by
        rw [State.isSteward, hsame, htaken]
        exact (congrArg (true && ·) hx)
      have hothers : ∀ l, l ≠ h.link → ((s.taken h opOpenSession.opcode).opens h.link ((s.taken h opOpenSession.opcode).grantable h)).isSteward l = s.isSteward l := fun l hl => by
        rw [State.isSteward, hsessions l hl, hother l hl, State.isSteward]
      rw [State.grantsSteward, decide_eq_true_eq, State.stewardFree_iff _ hnot, hasks]
      exact and_congr_right fun _ => forall₂_congr fun l hl => by rw [hothers l hl]
    dsimp only at hexec
    generalize (s.taken h opOpenSession.opcode).grantsSteward h p = b at hexec hsteward
    generalize s.taken h opOpenSession.opcode = v at hexec htaken hother hbooked hquire hmask hdue
    obtain ⟨hframe, hsame, hsessions, hquires⟩ := v.opensSteward_spec h.link (v.grantable h) b
    rw [htaken] at hsame
    replace hdue : s.Due (v.opensSteward h.link (v.grantable h) b) opOpenSession h :=
      hdue.of (by rw [hframe]) (by rw [hframe]) (by rw [hframe]) (fun q => by rw [hquires]; split <;> rfl) (by rw [hsame, htaken]; rfl)
    generalize v.opensSteward h.link (v.grantable h) b = u at hexec hframe hsame hsessions hquires hdue
    have hhandle : (u.session h.link).handle = handle := by rw [hsame]; rfl
    rw [hhandle] at hexec
    obtain ⟨hsent, hbook⟩ := hdue.reply { hdrDest h opOpenSession.opcode with session := handle } stOk 0
      (le 1 ((v.grantable h).foldl (fun a q => a + 2 ^ q.val) 0) ++ le 1 (b2n (u.session h.link).steward) ++ le 2 handle.toNat) rfl rfl rfl
    have hreply := hdue.reply_session { hdrDest h opOpenSession.opcode with session := handle } stOk 0
      (le 1 ((v.grantable h).foldl (fun a q => a + 2 ^ q.val) 0) ++ le 1 (b2n (u.session h.link).steward) ++ le 2 handle.toNat) rfl rfl rfl
    replace hbook := hbook (by decide)
    generalize u.reply { hdrDest h opOpenSession.opcode with session := handle } stOk 0
      (le 1 ((v.grantable h).foldl (fun a q => a + 2 ^ q.val) 0) ++ le 1 (b2n (u.session h.link).steward) ++ le 2 handle.toNat) = t at hexec hsent hbook hreply
    have hk := hreply h.link
    rw [if_pos rfl] at hk
    obtain ⟨kopen, ksteward, khandle, kgen⟩ := (u.session h.link).complete_keeps
      { dest := { hdrDest h opOpenSession.opcode with session := handle }, status := stOk, detail := 0, result := (le 1 ((v.grantable h).foldl (fun a q => a + 2 ^ q.val) 0) ++ le 1 (b2n (u.session h.link).steward) ++ le 2 handle.toNat) }
      (some { dest := { hdrDest h opOpenSession.opcode with session := handle }, status := stOk, detail := 0, result := (le 1 ((v.grantable h).foldl (fun a q => a + 2 ^ q.val) 0) ++ le 1 (b2n (u.session h.link).steward) ++ le 2 handle.toNat) })
    rw [← hk] at kopen ksteward khandle kgen
    have htq : ∀ q, t.quire q = u.quire q := fun q => State.quire_congr _ _ _ hbook.quires
    have hin : ∀ q, q ∈ v.grantable h ↔ granted q := fun q => by rw [hmask, List.mem_filter, ← hgrant q]; simp
    refine ⟨t, BitVec.ofNat 8 ((v.grantable h).foldl (fun a q => a + 2 ^ q.val) 0), hexec, ?_, ?_, khandle.trans hhandle, ?_, ?_, fun q => ?_, fun q hq => ?_, fun q hq => ?_, fun l hl => ?_, ?_⟩
    · rw [hsent, le_one, le_one, ← ksteward]
      have hbyte : ∀ st : Bool, BitVec.ofNat 8 (b2n st) = if st then 1 else 0 := fun st => by cases st <;> rfl
      rw [hbyte]
      rfl
    · rw [kopen, hsame]; rfl
    · rw [kgen, hsame]; rfl
    · rw [ksteward, hsame]
      show (x.steward || b) = true ↔ _
      cases hx : x.steward with
      | true => simp
      | false => rw [Bool.false_or, hsteward hx]; simp
    · rw [hmask, getLsbD_maskOf, hgrant q]
    · rw [htq, hquires, if_pos ((hin q).mpr hq), hquire]
    · rw [htq, hquires, if_neg fun hm => hq ((hin q).mp hm), hquire]
    · rw [hreply l, if_neg hl, hsessions l hl, hother l hl]
    · have ht' := hbook.1
      have hq := hbook.quires
      rw [hframe, hbooked.1] at ht'
      rw [hq]
      exact ht'

end Sys2Proof.Proofs
end

section
/-! Internal reset and boundary scan (R636, R827, R830, R851 to R855). -/

namespace Sys2Proof.Machine

/-- A quire in internal reset: VPINq alone stays as it is (R313). -/
def Quire.heldReset (x : Quire) : Quire :=
  { Quire.reset with
    vpinOk := x.vpinOk, vpinHeld := x.vpinHeld, vpinMv := x.vpinMv, vpinGood := x.vpinGood, vpinSetpoint := x.vpinSetpoint, vpinFrom := x.vpinFrom, vpinSince := x.vpinSince }

theorem State.enterReset_quire (s : State) (q : QId) : s.enterReset.quire q = (s.quire q).heldReset := by
  unfold State.quire State.enterReset
  exact Vector.getElem_map ..

theorem getLsbD_of_field {w : Word} {i : Nat} {b : Bool} (h : w.toNat / 2 ^ i % 2 = b2n b) : w.getLsbD i = b := by
  rw [BitVec.getLsbD, Nat.testBit_eq_decide_div_mod_eq, h]
  cases b <;> rfl

/-- The fields of BOOT_STATUS (R855) do not overlap. -/
theorem bootStatusWord_fields (s : State) (hstep : s.boot.step < 16) (hms : s.boot.ms < 65536) :
    s.bootStatusWord.toNat / 2 ^ 28 = s.boot.step ∧ s.bootStatusWord.toNat % 2 ^ 16 = s.boot.ms ∧ s.bootStatusWord.getLsbD 27 = s.boot.xoGood ∧ s.bootStatusWord.getLsbD 26 = s.boot.patchNone
    ∧ s.bootStatusWord.getLsbD 25 = s.boot.storeInvalid ∧ s.bootStatusWord.getLsbD 24 = s.boot.partitionDefault ∧ s.bootStatusWord.toNat / 2 ^ 16 % 256 = s.boot.linksUp.toNat := by
  have hb : ∀ b : Bool, b2n b < 2 := fun b => by cases b <;> decide
  have hlinks := s.boot.linksUp.isLt
  have hxo := hb s.boot.xoGood
  have hpn := hb s.boot.patchNone
  have hsi := hb s.boot.storeInvalid
  have hpd := hb s.boot.partitionDefault
  have hword : s.bootStatusWord.toNat = 2 ^ 28 * s.boot.step + 2 ^ 27 * b2n s.boot.xoGood + 2 ^ 26 * b2n s.boot.patchNone + 2 ^ 25 * b2n s.boot.storeInvalid + 2 ^ 24 * b2n s.boot.partitionDefault
      + 2 ^ 16 * s.boot.linksUp.toNat + s.boot.ms := by
    simp only [State.bootStatusWord, packW, List.foldl_cons, List.foldl_nil, BitVec.toNat_ofNat]
    omega
  generalize s.bootStatusWord = w at hword
  refine ⟨by omega, by omega, getLsbD_of_field ?_, getLsbD_of_field ?_, getLsbD_of_field ?_, getLsbD_of_field ?_, by omega⟩
  · omega
  · omega
  · omega
  · omega

/-- An instruction that does not hold internal reset changes what the scan register shows alone. -/
theorem scanSelect_shows (s : State) {x : ScanInstr} (h : x.holds = false) : scanSelect x s = { s with boot := { s.boot with scan := x } } :=
  if_neg (by simp [h])

theorem scanSelect_holds (s : State) {x : ScanInstr} (h : x.holds = true) : scanSelect x s = ({ s with boot := { s.boot with scan := x } } : State).enterReset :=
  if_pos h

/-- CHIP_RESET replies, and then boot starts anew (R636). -/
theorem execChipReset_taken {s : State} {h : Hdr} {p : Params} (ht : s.Takes opChipReset h p) (hkey : par p 0 4 = 0x7248) :
    exec (.chipReset h p) s = .next ((((s.taken h opChipReset.opcode).reply (hdrDest h opChipReset.opcode) stOk).enterReset).startBoot) :=
  exec_command (o := opChipReset) (row := .chipReset) (run := doChipReset) rfl (doChipReset.eq_1 h p s) (by decide) ht (if_pos hkey)

end Sys2Proof.Machine

namespace Sys2Proof.Proofs
open Sys2Proof.Machine

/-- Settles O30: each cause of internal reset comes to `State.enterReset`, and each other scan instruction to a change of the scan register. -/
theorem internalReset : Obligations.InternalReset := by
  unfold Obligations.InternalReset
  intro s h p rail down causes holds shows
  have hdown : ∀ (b : Boot) (u : State), u.quires = s.quires → u.pending = s.pending → u.fresh = s.fresh → u.modeOz = s.modeOz → u.flash = s.flash → u.time = s.time →
      down b { u.enterReset with boot := b } := fun b u hq hp hf hm hfl ht => by
    refine ⟨?_, fun q => ?_⟩
    · unfold State.enterReset
      rw [hp, hf, hm, hfl, ht]
      rfl
    · have hquire : ({ u.enterReset with boot := b } : State).quire q = u.enterReset.quire q := rfl
      rw [hquire, u.enterReset_quire, State.quire_congr _ _ _ hq]
      rfl
  have hheld : ∀ (i : Instr) (x : ScanInstr), exec i s = .next (scanSelect x s) → x.holds = true → holds i x := fun i x hexec hx => by
    refine ⟨_, hexec, ?_, ?_, ?_⟩
    · rw [scanSelect_holds s hx]
      exact hdown _ { s with boot := { s.boot with scan := x } } rfl rfl rfl rfl rfl rfl
    · rw [scanSelect_holds s hx]; rfl
    · rw [scanSelect_holds s hx]; rfl
  have hshown : ∀ (i : Instr) (x : ScanInstr), exec i s = .next (scanSelect x s) → x.holds = false → shows i x := fun i x hexec hx => by
    rw [scanSelect_shows s hx] at hexec
    exact hexec
  refine ⟨⟨_, rfl, hdown _ { s with boot := { s.boot with resetNLow := true } } rfl rfl rfl rfl rfl rfl, rfl, rfl⟩,
    ⟨_, rfl, hdown _ { s with boot := { s.boot with railFallen := true, vsramFallen := s.boot.vsramFallen || decide (rail = Rail.vsram) } } rfl rfl rfl rfl rfl rfl, rfl, rfl⟩,
    fun ht hkey hpower => ⟨_, execChipReset_taken ht hkey, ?_, ?_⟩,
    hheld _ _ rfl rfl, hheld _ _ rfl rfl, hheld _ _ rfl rfl, hheld _ _ rfl rfl, hheld _ _ rfl rfl, hshown _ _ rfl rfl, hshown _ _ rfl rfl, hshown _ _ rfl rfl, hshown _ _ rfl rfl,
    fun hs => ?_, fun hs => ?_, fun hs => ⟨s.bootStatusWord, ?_, bootStatusWord_fields s⟩⟩
  · have hsent := ht.due.answers stOk 0 []
    unfold State.Answers at *
    rw [← hsent]
    unfold State.startBoot State.enterReset
    split
    · rfl
    · rfl
  · have hbooked := (s.taken_booked h opChipReset.opcode).trans ((ht.due.reply (hdrDest h opChipReset.opcode) stOk 0 [] rfl rfl rfl).2 (by decide))
    generalize (s.taken h opChipReset.opcode).reply (hdrDest h opChipReset.opcode) stOk = u at hbooked
    have hu := hbooked.1
    have hvsram : u.enterReset.boot.vsramFallen = false := by rw [hu]; exact hpower
    rw [State.startBoot, hvsram, if_neg Bool.false_ne_true]
    have hscan : u.enterReset.boot.scan = s.boot.scan := by rw [hu]; rfl
    rw [hscan]
    exact hdown _ u hbooked.quires (by rw [hu]) (by rw [hu]) (by rw [hu]) (by rw [hu]) (by rw [hu])
  · rw [State.scanRegister, hs]
  · rw [State.scanRegister, hs]
  · rw [State.scanRegister, hs]

end Sys2Proof.Proofs
end

section
/-! Reads and writes of the configuration pages (R19, R24, R39, R46, R606 to R610, R620 to R622). -/

namespace Sys2Proof.Machine

/-! ### Addresses of a quire's pages (R12 to R15) -/

theorem unle_lt (l : List Byte) : unle l < 256 ^ l.length := by
  induction l with
  | nil => simp [unle]
  | cons b t ih =>
    have hb := b.isLt
    rw [unle, List.length_cons, pow_succ]
    omega

theorem par_lt (p : Params) (off n : Nat) : par p off n < 256 ^ n :=
  (unle_lt _).trans_le (Nat.pow_le_pow_right (by decide) (List.length_take_le ..))

/-- The address of a word of a page of quire `q`. -/
def quireAddr (q : QId) (page o : Nat) : Nat := 2 ^ 28 * (q.val + 1) + 2 ^ 20 * page + o

theorem par_quireAddr {p : Params} {q : QId} {page o : Nat} (hp : page < 256) (ho : o < 2 ^ 20) (h : parW p 0 = BitVec.ofNat 32 (2 ^ 28 * (q.val + 1) + 2 ^ 20 * page + o)) :
    par p 0 4 = quireAddr q page o := by
  have hq := q.isLt
  have hlt := par_lt p 0 4
  have hn := congrArg BitVec.toNat h
  simp only [parW, BitVec.toNat_ofNat] at hn
  unfold quireAddr
  omega

section
variable (q : QId) {page o : Nat} (hp : page < 256) (ho : o < 2 ^ 20)
include hp ho

theorem addrScope_quireAddr : addrScope (quireAddr q page o) = q.val + 1 := by
  have hq := q.isLt
  unfold addrScope quireAddr
  omega

theorem addrPage_quireAddr : addrPage (quireAddr q page o) = page := by
  unfold addrPage quireAddr
  omega

omit hp in
theorem addrOff_quireAddr : addrOff (quireAddr q page o) = o := by
  unfold addrOff quireAddr
  omega

theorem addrQuire_quireAddr : addrQuire (quireAddr q page o) = q := by
  have hq := q.isLt
  have hscope := addrScope_quireAddr q hp ho
  apply Fin.ext
  show (addrScope (quireAddr q page o) + 7) % 8 = q.val
  omega

end

/-- A configuration page (R46). -/
theorem configPage_lt {page : Nat} (h : page ∈ configPages) : page < 256 ∧ page ≠ 0 ∧ page ≠ 0x18 ∧ page ≠ 0x1C := by
  revert page
  decide

theorem addrLast_config (q : QId) {page o : Nat} (h : page ∈ configPages) (ho : o < 2 ^ 20) : addrLast (quireAddr q page o) = some pageCrcOff := by
  obtain ⟨hp, h0, h18, h1C⟩ := configPage_lt h
  have hq := q.isLt
  have hlast : quirePageLast page = some pageCrcOff := by
    rw [quirePageLast, if_neg h0, if_neg h18, if_neg h1C, if_pos (List.contains_iff_mem.mpr h)]
  rw [addrLast, addrScope_quireAddr q hp ho, addrPage_quireAddr q hp ho, if_neg (by omega), if_pos (by omega), hlast]

theorem accessRange_config (q : QId) {page o n : Nat} (h : page ∈ configPages) (ho : o < 2 ^ 20) (hn : o + 4 * (n - 1) ≤ pageCrcOff) : accessRange (quireAddr q page o) n = none := by
  rw [accessRange, addrLast_config q h ho]
  dsimp only
  rw [addrOff_quireAddr q ho, if_neg (by omega), if_neg (by omega)]

theorem livePage_config {page : Nat} (h : page ∈ configPages) : livePage page = false := by
  revert page
  decide

/-! ### Reads (R607, R620) -/

/-- The copy of the configuration that READ_CFG returns. -/
def Quire.shownCopy (x : Quire) : Regs := if x.state = .parked ∨ x.state = .staged then x.staging else x.committed.getD []

theorem Quire.readWord_config (x : Quire) (q : QId) (oz : Bool) {page w : Nat} (hm : cfgMask page w ≠ 0) (hw : w ≠ pageCrcOff) : x.readWord q oz page w = cfgGet x.shownCopy page w := by
  have hcopy : x.shown.inForce = x.shownCopy := by
    unfold Quire.shown Quire.shownCopy Quire.inForce
    by_cases h : x.state = .parked ∨ x.state = .staged
    · rw [if_pos (by simpa using h), if_pos h]
      rfl
    · rw [if_neg (by simpa using h), if_neg h]
  rw [Quire.readWord, if_neg (by simp [hw]), if_pos hm, Quire.cfg, hcopy]

/-- The report of an uncorrectable word of the copy in force (R769). -/
def State.lostReport (s : State) (a : Nat) : Report :=
  { severity := .chip, checker := 0x03, quire := none, acts := [], element := 0xFF, cause := 0x13, detail := BitVec.ofNat 24 (ofInt 24 (a : Int)), injected := false, timeNs := s.time.ns, timeValid := s.time.valid }

/-- The state after that report. -/
def State.lostWord (s : State) (a : Nat) : State := { s with collector := { s.collector with reports := s.collector.reports ++ [s.lostReport a] } }

theorem State.chipSramRead_quiet (s : State) (r : SramRead) (hinj : s.collector.injections = []) : s.chipSramRead r = if r.outcome = .uncorrectable then s.lostWord r.entry else s := by
  have hcheck : s.check 0x03 0 = (false, s) := s.check_none 0x03 0 (by rw [hinj]; rfl)
  rw [State.chipSramRead, hcheck]
  simp only [Bool.false_or, decide_eq_true_eq]
  rfl

section
variable (s : State) (q : QId) {page : Nat} (hpage : page ∈ configPages)
include hpage

theorem readWord_config (read : LineOutcome) {o : Nat} (hinj : s.collector.injections = []) (hm : cfgMask page o ≠ 0) (ho : o < pageCrcOff) :
    readWord s (quireAddr q page o) read = (cfgGet (s.quire q).shownCopy page o, if read = .uncorrectable ∧ (s.quire q).state.writable = false then s.lostWord (quireAddr q page o) else s) := by
  obtain ⟨hp, -, -, h1C⟩ := configPage_lt hpage
  have hlt : o < 2 ^ 20 := ho.trans (by decide)
  rw [readWord]
  simp only [addrScope_quireAddr q hp hlt, addrPage_quireAddr q hp hlt, addrOff_quireAddr q hlt, addrQuire_quireAddr q hp hlt, Nat.succ_ne_zero, if_false, h1C, false_and, hm, ne_eq, not_false_eq_true, true_and,
    Quire.readWord_config _ q _ hm (Nat.ne_of_lt ho), s.chipSramRead_quiet _ hinj]
  cases (s.quire q).state.writable <;> simp

/-- READ_CFG returns the words of the copy shown, and reports the word that an uncorrectable read of the copy in force met. -/
theorem readWords_config (bad : PacketReads) (n i o : Nat) (hinj : s.collector.injections = []) (hm : ∀ j < n, cfgMask page (o + 4 * j) ≠ 0 ∧ o + 4 * j < pageCrcOff) :
    readWords bad n i (quireAddr q page o) s =
      ((List.range n).flatMap fun j => le 4 (cfgGet (s.quire q).shownCopy page (o + 4 * j)).toNat,
       if bad.outcome = .uncorrectable ∧ (s.quire q).state.writable = false ∧ i ≤ bad.word ∧ bad.word < i + n then s.lostWord (quireAddr q page (o + 4 * (bad.word - i))) else s) := by
  induction n generalizing i o s with
  | zero => simp [readWords]
  | succ n ih =>
    have h0 : cfgMask page o ≠ 0 ∧ o < pageCrcOff := hm 0 (by omega)
    have htail : ∀ j < n, cfgMask page (o + 4 + 4 * j) ≠ 0 ∧ o + 4 + 4 * j < pageCrcOff := fun j hj => by
      have h := hm (j + 1) (by omega)
      rwa [show o + 4 * (j + 1) = o + 4 + 4 * j by omega] at h
    have hbytes : ((List.range (n + 1)).flatMap fun j => le 4 (cfgGet (s.quire q).shownCopy page (o + 4 * j)).toNat)
        = leW (cfgGet (s.quire q).shownCopy page o) ++ (List.range n).flatMap fun j => le 4 (cfgGet (s.quire q).shownCopy page (o + 4 + 4 * j)).toNat := by
      rw [List.range_succ_eq_map, List.flatMap_cons, List.flatMap_map]
      congr 1
      exact congrArg (fun f => (List.range n).flatMap f) (funext fun j => by rw [show o + 4 * j.succ = o + 4 + 4 * j by omega])
    rw [readWords, readWord_config s q hpage _ hinj h0.1 h0.2, hbytes, show quireAddr q page o + 4 = quireAddr q page (o + 4) from rfl]
    dsimp only
    by_cases hlost : (if i = bad.word then bad.outcome else .good) = LineOutcome.uncorrectable ∧ (s.quire q).state.writable = false
    · have hi : i = bad.word := by
        by_contra hne
        simp [hne] at hlost
      have hbad : bad.outcome = .uncorrectable := by simpa [hi] using hlost.1
      rw [if_pos hlost, ih (s.lostWord (quireAddr q page o)) (i + 1) (o + 4) hinj htail, if_neg (by omega), if_pos ⟨hbad, hlost.2, by omega, by omega⟩, hi, Nat.sub_self]
      rfl
    · rw [if_neg hlost, ih s (i + 1) (o + 4) hinj htail]
      refine Prod.ext rfl ?_
      dsimp only
      by_cases hrest : bad.outcome = .uncorrectable ∧ (s.quire q).state.writable = false ∧ i + 1 ≤ bad.word ∧ bad.word < i + 1 + n
      · obtain ⟨hbad, hwr, hlo, hhi⟩ := hrest
        rw [if_pos ⟨hbad, hwr, hlo, hhi⟩, if_pos ⟨hbad, hwr, by omega, by omega⟩, show o + 4 * (bad.word - i) = o + 4 + 4 * (bad.word - (i + 1)) by omega]
      · rw [if_neg hrest, if_neg]
        rintro ⟨hbad, hwr, hlo, hhi⟩
        have hne : i ≠ bad.word := fun hi => hlost ⟨by simp [hi, hbad], hwr⟩
        exact hrest ⟨hbad, hwr, by omega, by omega⟩

/-- READ_CFG of words of a configuration page is not refused. -/
theorem readCheck_config {p : Params} {o n : Nat} (ha : par p 0 4 = quireAddr q page o) (hn : par p 4 2 = n) (h1 : 1 ≤ n) (h2 : n ≤ 2048) (ho : o + 4 * (n - 1) < pageCrcOff) (hoff : (s.quire q).state ≠ .off) :
    readCheck p s = none := by
  obtain ⟨hp, h0, -⟩ := configPage_lt hpage
  have hlt : o < 2 ^ 20 := by have : pageCrcOff < 2 ^ 20 := by decide
                              omega
  rw [readCheck]
  simp only [ha, hn, addrLast_config q hpage hlt, accessRange_config q hpage hlt ho.le, addrQuire_quireAddr q hp hlt, Option.isNone_some, Bool.false_eq_true, if_false, show ¬(n = 0 ∨ 2048 < n) by omega, inStates, notOff,
    ne_eq, hoff, not_false_eq_true, decide_true, if_true, ite_self]

end

/-! ### Writes (R39, R46, R608 to R610, R622) -/

theorem cfgGet_cfgPut_same (c : Regs) (page o : Nat) (v : Word) : cfgGet (cfgPut c page o v) page o = v := sget_sput_same ..

theorem cfgGet_cfgPut_other (c : Regs) {page o page' o' : Nat} (v : Word) (ho : o < 2 ^ 20) (ho' : o' < 2 ^ 20) (h : page' ≠ page ∨ o' ≠ o) : cfgGet (cfgPut c page o v) page' o' = cfgGet c page' o' :=
  sget_sput_other _ _ _ _ _ (by unfold rk; omega)

/-- The staging copy after words written one after the other from `o` on, each in its RW bits (R19). -/
def stageFrom (page : Nat) : Nat → List Word → Regs → Regs
  | _, [], c => c
  | o, v :: t, c => stageFrom page (o + 4) t (cfgPut c page o (rwWrite (cfgMask page o) (cfgGet c page o) v))

theorem cfgGet_stageFrom_other (page : Nat) (vs : List Word) (o : Nat) (c : Regs) {page' w : Nat} (ho : o + 4 * vs.length ≤ 2 ^ 20) (hw : w < 2 ^ 20) (h : page' ≠ page ∨ w < o ∨ o + 4 * vs.length ≤ w) :
    cfgGet (stageFrom page o vs c) page' w = cfgGet c page' w := by
  induction vs generalizing o c with
  | nil => rfl
  | cons v t ih =>
    rw [List.length_cons] at ho h
    rw [stageFrom, ih _ _ (by omega) (by omega), cfgGet_cfgPut_other _ _ (by omega) hw (by omega)]

theorem cfgGet_stageFrom (page : Nat) (vs : List Word) (o : Nat) (c : Regs) (ho : o + 4 * vs.length ≤ 2 ^ 20) (i : Nat) (hi : i < vs.length) :
    cfgGet (stageFrom page o vs c) page (o + 4 * i) = rwWrite (cfgMask page (o + 4 * i)) (cfgGet c page (o + 4 * i)) vs[i] := by
  induction vs generalizing o c i with
  | nil => exact absurd hi (by simp)
  | cons v t ih =>
    rw [List.length_cons] at ho hi
    rw [stageFrom]
    cases i with
    | zero => exact (cfgGet_stageFrom_other page t _ _ (by omega) (by omega) (by omega)).trans (cfgGet_cfgPut_same ..)
    | succ i =>
      have hput : cfgGet (cfgPut c page o (rwWrite (cfgMask page o) (cfgGet c page o) v)) page (o + 4 + 4 * i) = cfgGet c page (o + 4 + 4 * i) := cfgGet_cfgPut_other _ _ (by omega) (by omega) (by omega)
      rw [show o + 4 * (i + 1) = o + 4 + 4 * i by omega, ih _ _ (by omega) i (by omega), hput, List.getElem_cons_succ]

theorem setBit_setBit (m : Word) (i : Nat) : setBit (setBit m i) i = setBit m i := by
  unfold setBit
  rw [BitVec.or_assoc, BitVec.or_self]

theorem clrBit_clrBit (m : Word) (i : Nat) : clrBit (clrBit m i) i = clrBit m i := by
  unfold clrBit
  rw [BitVec.and_assoc, BitVec.and_self]

/-- A quire whose staging copy has become `c` by writes to a page: STAGED, the page DIRTY. -/
def Quire.staged (x : Quire) (page : Nat) (c : Regs) : Quire := { x with state := .staged, staging := c, dirty := setBit x.dirty page, sealedPages := clrBit x.sealedPages page }

theorem Quire.staged_staged (x : Quire) (page : Nat) (c c' : Regs) : (x.staged page c).staged page c' = x.staged page c' := by
  unfold Quire.staged
  simp only [setBit_setBit, clrBit_clrBit]

/-- The writes of `WRITE_CFG_BLOCK` to a quire's page. -/
def Quire.writeFrom (page : Nat) : Nat → List Word → Quire → Quire
  | _, [], x => x
  | o, v :: t, x => Quire.writeFrom page (o + 4) t (x.writeWord page o v)

/-- A quire that a session has for configuration (R39). -/
theorem Quire.writeWord_config (x : Quire) {page o : Nat} (v : Word) (hpage : page ∈ configPages) (hm : cfgMask page o ≠ 0) (ho : o < pageCrcOff) :
    x.writeWord page o v = x.staged page (cfgPut x.staging page o (rwWrite (cfgMask page o) (cfgGet x.staging page o) v)) := by
  rw [Quire.writeWord, if_neg (by rw [livePage_config hpage]; exact Bool.false_ne_true), Quire.cfgWrite, if_neg (Nat.ne_of_lt ho), if_neg hm]
  rfl

theorem Quire.writeFrom_config (x : Quire) {page : Nat} (hpage : page ∈ configPages) (v : Word) (vs : List Word) (o : Nat) (hm : ∀ i < vs.length + 1, cfgMask page (o + 4 * i) ≠ 0 ∧ o + 4 * i < pageCrcOff) :
    Quire.writeFrom page o (v :: vs) x = x.staged page (stageFrom page o (v :: vs) x.staging) := by
  have h0 : cfgMask page o ≠ 0 ∧ o < pageCrcOff := hm 0 (by omega)
  rw [Quire.writeFrom, x.writeWord_config v hpage h0.1 h0.2, stageFrom]
  induction vs generalizing o v x with
  | nil => rfl
  | cons v' t ih =>
    rw [List.length_cons] at hm
    have htail : ∀ i < t.length + 1, cfgMask page (o + 4 + 4 * i) ≠ 0 ∧ o + 4 + 4 * i < pageCrcOff := fun i hi => by
      have h := hm (i + 1) (by omega)
      rwa [show o + 4 * (i + 1) = o + 4 + 4 * i by omega] at h
    have h4 : cfgMask page (o + 4) ≠ 0 ∧ o + 4 < pageCrcOff := htail 0 (by omega)
    rw [Quire.writeFrom, Quire.writeWord_config _ v' hpage h4.1 h4.2, ih _ v' (o + 4) htail h4, Quire.staged_staged]
    rfl

theorem State.setQuire_setQuire (s : State) (q : QId) (x y : Quire) : (s.setQuire q x).setQuire q y = s.setQuire q y := by simp [State.setQuire]

section
variable (s : State) (k : LinkId) (q : QId) {page : Nat} (hpage : page ∈ configPages)
include hpage

theorem writeRefusal_config {o : Nat} (off : Nat) (v : Word) (ho : o < 2 ^ 20) (hw : (s.quire q).state.writable = true) : writeRefusal s k (quireAddr q page o) off v = none := by
  obtain ⟨hp, -⟩ := configPage_lt hpage
  have hoff : notOff (s.quire q).state = true := by
    revert hw
    cases (s.quire q).state <;> simp [QState.writable, notOff]
  simp only [writeRefusal, addrScope_quireAddr q hp ho, addrPage_quireAddr q hp ho, addrQuire_quireAddr q hp ho, ne_eq, Nat.succ_ne_zero, not_false_eq_true, if_true, inStates, hoff, livePage_config hpage,
    Bool.false_eq_true, if_false, hw]

theorem writeWord_config {o : Nat} (v : Word) (ho : o < 2 ^ 20) : writeWord s (quireAddr q page o) v = s.modQuire q fun x => x.writeWord page o v := by
  obtain ⟨hp, -⟩ := configPage_lt hpage
  rw [writeWord, addrScope_quireAddr q hp ho, if_neg (Nat.succ_ne_zero _), addrPage_quireAddr q hp ho, addrQuire_quireAddr q hp ho, addrOff_quireAddr q ho]

theorem writeWords_config (off : Nat) (vs : List Word) (o : Nat) (ho : o + 4 * vs.length ≤ 2 ^ 20) (hw : (s.quire q).state.writable = true) :
    writeWords k (quireAddr q page o) off vs s = (none, s.modQuire q (Quire.writeFrom page o vs)) := by
  induction vs generalizing s o off with
  | nil => exact congrArg (Prod.mk none) (State.setQuire_quire s q).symm
  | cons v t ih =>
    rw [List.length_cons] at ho
    have hnext : ((s.modQuire q fun x => x.writeWord page o v).quire q).state.writable = true := by
      rw [State.quire_modQuire_same, Quire.writeWord, if_neg (by rw [livePage_config hpage]; exact Bool.false_ne_true)]
      rfl
    rw [writeWords, writeRefusal_config s k q hpage off v (by omega) hw]
    dsimp only
    rw [writeWord_config s q hpage v (by omega), show quireAddr q page o + 4 = quireAddr q page (o + 4) from rfl, ih _ _ _ (by omega) hnext]
    refine congrArg (Prod.mk none) ?_
    simp only [State.modQuire, State.quire_setQuire_same, State.setQuire_setQuire]
    rfl

end

/-- The row of a write that the packet is for comes to WRITE_CFG. -/
theorem rowWrite_taken {s : State} {h : Hdr} {p : Params} (mine : Params → Bool) (row : Hdr → Params → Instr) (harr : s.Arrives opWriteCfg.opcode h p) (hmine : mine p = true) :
    rowWrite mine row h p s = front row opWriteCfg.opcode h p s doWriteCfg := by
  have harriving : s.arriving opWriteCfg.opcode h p = (h, p) := by
    rw [State.arriving]
    cases hb : s.buffered h.link h.cls with
    | none => rfl
    | some bytes =>
      obtain ⟨hop, hread⟩ := harr bytes hb
      dsimp only
      rw [if_pos hop, hread]
  rw [rowWrite, harriving, if_pos hmine]

/-- A command that changes one quire, of which it leaves who occupies it, and replies. -/
theorem State.serves_modQuire {s : State} {o : OpSpec} {h : Hdr} {p : Params} {i : Instr} {res : List Byte} (ht : s.Takes o h p) (q : QId) (f : Quire → Quire)
    (hexec : exec i s = .next (((s.taken h o.opcode).modQuire q f).reply (hdrDest h o.opcode) stOk 0 res)) (hocc : (f (s.quire q)).occupied = (s.quire q).occupied) :
    s.Serves i h o res (s.setQuire q (f (s.quire q))) :=
  State.serves_map ht (fun u => u.modQuire q f) hexec (fun _ => rfl) rfl rfl fun q' => by
    by_cases hq : q' = q
    · rw [hq, State.quire_modQuire_same, hocc]
    · rw [State.quire_modQuire_other _ _ _ _ hq]

section
variable {s : State} {h : Hdr} {p : Params} {q : QId} {page : Nat} (hpage : page ∈ configPages)
include hpage

theorem doWriteCfg_config {o : Nat} {i : Instr} (hexec : exec i s = .next (front .writeCfg opWriteCfg.opcode h p s doWriteCfg) ∨ exec i s = .next (front .pageCrcWrite opWriteCfg.opcode h p s doWriteCfg))
    (ht : s.Takes opWriteCfg h p) (ha : par p 0 4 = quireAddr q page o) (ho : o ≤ pageCrcOff) (hw : (s.quire q).state.writable = true) :
    exec i s = .next (((s.taken h opWriteCfg.opcode).modQuire q fun x => x.writeWord page o (parW p 4)).reply (hdrDest h opWriteCfg.opcode) stOk) := by
  have hlt : o < 2 ^ 20 := ho.trans_lt (by decide)
  have hcheck : (match accessRange (par p 0 4) 1 with | some r => some r | none => writeRefusal (s.freeBuffer h.link h.cls) h.link (par p 0 4) 4 (parW p 4)) = none := by
    rw [ha, accessRange_config q hpage hlt (by omega)]
    exact writeRefusal_config _ h.link q hpage 4 (parW p 4) hlt (by rw [State.freeBuffer_quire]; exact hw)
  have hrun := doWriteCfg.eq_1 h p s
  have hact : exec i s = .next ((writeWord (s.taken h opWriteCfg.opcode) (par p 0 4) (parW p 4)).reply (hdrDest h opWriteCfg.opcode) stOk) := by
    obtain hx | hx := hexec
    · exact exec_command hx hrun (by decide) ht hcheck
    · exact exec_command hx hrun (by decide) ht hcheck
  rw [hact, ha, writeWord_config _ q hpage _ hlt]

end

end Sys2Proof.Machine

namespace Sys2Proof.Proofs
open Sys2Proof.Machine

/-- Settles O20: READ_CFG by induction on the words it reads, WRITE_CFG_BLOCK on those it writes, and each by what one word does. -/
theorem configurationAccess : Obligations.ConfigurationAccess := by
  unfold Obligations.ConfigurationAccess
  intro s h p q page o n x writable copy rw' new dirties word hpage hmask
  obtain ⟨hp, -⟩ := configPage_lt hpage
  have hwrit : writable → x.state.writable = true := fun hw => by simpa [QState.writable] using hw
  refine ⟨fun ht ha hn h1 h2 hrw hoff hinj => ?_, fun ht ha hrw hw => ?_, fun ht ha hn h1 h2 hrw hw => ?_, fun ht ha hw => ?_⟩
  · intro bytes lost
    have haddr := par_quireAddr hp (by have := (hrw 0 (by omega)).2.2; omega) ha
    have hend : o + 4 * (n - 1) < pageCrcOff := (hrw (n - 1) (by omega)).2.2
    have hcheck : readCheck p (s.freeBuffer h.link h.cls) = none := readCheck_config _ q hpage haddr hn h1 h2 hend (by rw [State.freeBuffer_quire]; exact hoff)
    have hexec := exec_command (i := .readCfg h p) (o := opReadCfg) (row := .readCfg) (run := doReadCfg) rfl (doReadCfg.eq_1 h p s) (by decide) ht hcheck
    have hbooked := s.taken_booked h opReadCfg.opcode
    have hquire : (s.taken h opReadCfg.opcode).quire q = x := State.quire_congr _ _ _ hbooked.quires
    have hinj' : (s.taken h opReadCfg.opcode).collector.injections = [] := by
      rw [State.taken_withBooks]
      exact hinj
    dsimp only at hexec
    rw [hn, haddr, readWords_config _ q hpage h.reads n 0 o hinj' fun j hj => ⟨(hrw j hj).1, (hrw j hj).2.2⟩, hquire] at hexec
    have hlost : lost ↔ h.reads.outcome = .uncorrectable ∧ x.state.writable = false ∧ 0 ≤ h.reads.word ∧ h.reads.word < 0 + n := by
      have : ¬writable ↔ x.state.writable = false := by simp [writable, QState.writable]
      simp only [lost, this, Nat.zero_le, Nat.zero_add, true_and]
      tauto
    refine ⟨fun hl => ?_, fun hl => ?_⟩
    · rw [if_neg (hlost.not.mp hl)] at hexec
      exact State.serves_map ht id hexec (fun _ => rfl) rfl rfl fun _ => rfl
    · rw [if_pos (hlost.mp hl)] at hexec
      have hdue : s.Due ((s.taken h opReadCfg.opcode).lostWord (quireAddr q page (o + 4 * (h.reads.word - 0)))) opReadCfg h := ht.due.of rfl rfl rfl (fun _ => rfl) rfl
      refine ⟨_, (s.taken h opReadCfg.opcode).lostReport (quireAddr q page (o + 4 * (h.reads.word - 0))), hexec, hdue.answers stOk 0 bytes, ?_, rfl, rfl, rfl, ?_⟩
      · have hkept : (s.taken h opReadCfg.opcode).collector.reports = s.collector.reports := by
          rw [State.taken_withBooks]
          rfl
        exact (congrArg (fun u => u.collector.reports) ((hdue.reply (hdrDest h opReadCfg.opcode) stOk 0 bytes rfl rfl rfl).2 (by decide)).eq_withBooks).trans (congrArg (· ++ _) hkept)
      · rw [haddr]
        exact (ofInt_natCast _).trans (congrArg (BitVec.ofNat 24) (by unfold quireAddr; omega))
  · have hlt : o < pageCrcOff := hrw.2.2
    have haddr := par_quireAddr hp (by omega) ha
    have hexec := doWriteCfg_config (i := .writeCfg h p) hpage (.inl rfl) ht haddr hlt.le (hwrit hw)
    have hword := x.writeWord_config (parW p 4) hpage hrw.1 hlt
    refine ⟨_, State.serves_modQuire ht q _ hexec (by rw [hword]; rfl), ?_⟩
    rw [hword]
    exact ⟨⟨rfl, rfl, rfl, rfl⟩, cfgGet_cfgPut_same .., fun pg w hw' hne => cfgGet_cfgPut_other _ _ (by omega) hw' hne⟩
  · have haddr := par_quireAddr hp (by have := (hrw 0 (by omega)).2.2; omega) ha
    have hend : o + 4 * (n - 1) < 0xFFFFC := (hrw (n - 1) (by omega)).2.2
    have hlen : (dataWords p 8 n).length = n := by simp [dataWords]
    have hspace : o + 4 * (dataWords p 8 n).length ≤ 2 ^ 20 := by omega
    have hlt : o < 2 ^ 20 := by omega
    have hexec := exec_command (i := .writeCfgBlock h p) (o := opWriteCfgBlock) (row := .writeCfgBlock) (run := doWriteCfgBlock) rfl (doWriteCfgBlock.eq_1 h p s) (by decide) ht (by
      rw [haddr, hn, addrLast_config q hpage hlt, accessRange_config q hpage hlt hend.le, writeWords_config _ h.link q hpage 8 _ o hspace (by rw [State.freeBuffer_quire]; exact hwrit hw)]
      simp only [Option.isNone_some, Bool.false_eq_true, if_false, if_neg (show ¬(n = 0 ∨ 2048 < n) by omega)])
    rw [haddr, hn, writeWords_config _ h.link q hpage 8 _ o hspace (by rw [State.quire_congr _ _ _ (s.taken_booked h opWriteCfgBlock.opcode).quires]; exact hwrit hw)] at hexec
    obtain ⟨v, vs, hvs⟩ := List.exists_cons_of_length_pos (l := dataWords p 8 n) (by omega)
    have hwords : Quire.writeFrom page o (dataWords p 8 n) x = x.staged page (stageFrom page o (dataWords p 8 n) x.staging) := by
      have hcount : vs.length + 1 = n := by rw [← hlen, hvs, List.length_cons]
      rw [hvs]
      exact x.writeFrom_config hpage v vs o fun i hi => ⟨(hrw i (by omega)).1, (hrw i (by omega)).2.2⟩
    refine ⟨_, State.serves_modQuire ht q _ hexec (by rw [hwords]; rfl), ?_⟩
    rw [hwords]
    refine ⟨⟨rfl, rfl, rfl, rfl⟩, fun i hi => ?_, fun pg w hw' hne => ?_⟩
    · refine (cfgGet_stageFrom page _ o x.staging hspace i (by omega)).trans ?_
      simp only [dataWords, List.getElem_map, List.getElem_range]
      rfl
    · exact cfgGet_stageFrom_other page _ o x.staging hspace hw' (by rw [hlen]; exact hne)
  · have haddr : par p 0 4 = quireAddr q page pageCrcOff := par_quireAddr hp (by decide) ha
    have hmine : pageCrcRow p = true := by
      have hlt : pageCrcOff < 2 ^ 20 := by decide
      have hq := q.isLt
      simp only [pageCrcRow, haddr, addrScope_quireAddr q hp hlt, addrPage_quireAddr q hp hlt, addrOff_quireAddr q hlt, List.contains_iff_mem.mpr hpage, Bool.and_true, decide_true, Bool.and_eq_true, decide_eq_true_eq]
      omega
    have hexec := doWriteCfg_config (i := .pageCrcWrite h p) hpage (.inr (congrArg Host.Outcome.next (rowWrite_taken pageCrcRow .pageCrcWrite ht.2.2.2.2.2.2.2.2.2.2 hmine))) ht haddr le_rfl (hwrit hw)
    have hword : x.writeWord page pageCrcOff (parW p 4) = { x with state := .staged, crcWritten := sset page (some (parW p 4)) x.crcWritten, sealedPages := setBit x.sealedPages page, dirty := clrBit x.dirty page } := by
      rw [Quire.writeWord, if_neg (by rw [livePage_config hpage]; exact Bool.false_ne_true), Quire.cfgWrite, if_pos rfl]
    refine ⟨_, State.serves_modQuire ht q _ hexec (by rw [hword]), ?_⟩
    rw [hword]
    exact ⟨rfl, rfl, rfl, sget_sset_same .., rfl⟩

end Sys2Proof.Proofs
end

section
/-! Refreshes of a rank, and the events beside them (R476 to R480, R484, R494). -/

namespace Sys2Proof.Machine

/-- A step that makes of the quire `y` and counts `n` in register `k`. -/
theorem State.makes_counts (s : State) (i : Instr) (q : QId) (f : Quire → W) (y : Quire) (k n : Nat) (hexec : exec i s = .next (s.onQuire q f)) (hw : f (s.quire q) = y.w.bump k n)
    (hlive : y.live = (s.quire q).live) : s.Makes i q y fun t => Counted n ((s.quire q).liveReg k) ((t.quire q).liveReg k) :=
  s.makes_of i q f y _ hexec hw (y.bump_quiet k n) (y.bump_counts k n) fun t ht => by
    rw [ht, show (s.quire q).liveReg k = y.liveReg k by rw [Quire.liveReg, Quire.liveReg, hlive]]
    exact y.bump_counted k n

section
variable (d : Dram) (rank : Fin 3)

theorem Dram.blocked_iff : d.blocked rank.val = true ↔ d.clock < d.blockedUntil[rank] := by
  rw [Dram.blocked, decide_eq_true_eq, List.getD_eq_getElem?_getD, Vector.getElem?_toList, Vector.getElem?_eq_getElem rank.isLt]
  rfl

theorem Dram.refreshes_iff (hav : d.available = true) (hch : d.changing = none) : d.refreshes rank = true ↔ d.ranks[rank] ≠ .failed := by
  simp [Dram.refreshes, Dram.running, hav, hch]

theorem Dram.mem_pendingTo (k : Nat) (r : DramReq) : r ∈ d.pendingTo k ↔ r ∈ d.queue ∧ k ∈ d.ranksOf r := by
  simp [Dram.pendingTo]

theorem Dram.fetchTo_iff (k : Nat) : d.fetchTo k = true ↔ ∃ r ∈ d.queue, k ∈ d.ranksOf r ∧ r.port = .fetch := by
  simp [Dram.fetchTo, Dram.mem_pendingTo, and_assoc]

theorem Dram.idleSet_iff (k b : Nat) : d.idleSet k b = true ↔ ∀ r ∈ d.queue, k ∈ d.ranksOf r → lineBank r.line ≠ b := by
  simp [Dram.idleSet, Dram.mem_pendingTo]

theorem Dram.someIdleSet_iff (k : Nat) : d.someIdleSet k = true ↔ ∃ b < 4, ∀ r ∈ d.queue, k ∈ d.ranksOf r → lineBank r.line ≠ b := by
  simp only [Dram.someIdleSet, List.any_eq_true, Dram.idleSet_iff]
  refine exists_congr fun b => and_congr_left fun _ => ?_
  simp only [List.mem_cons, List.not_mem_nil, or_false]
  omega

/-- The bank indices in the order of their refreshes: those without a pending request first (R478). -/
def Dram.bankOrder (d : Dram) (k : Nat) : List Nat := [0, 1, 2, 3].filter (d.idleSet k) ++ [0, 1, 2, 3].filter fun b => !d.idleSet k b

/-- Blocks of length `t` behind each other, from `since` on, of the bank indices given. -/
def blocksFrom (k t since : Nat) : List Nat → List BankBlock
  | [] => []
  | b :: l => { rank := k, bank := b, only := none, since := since, till := since + t } :: blocksFrom k t (since + t) l

theorem blocksFrom_eq (k t since n : Nat) (l : List Nat) :
    (l.zipIdx n).map (fun x => ({ rank := k, bank := x.1, only := none, since := since + x.2 * t, till := since + (x.2 + 1) * t } : BankBlock)) = blocksFrom k t (since + n * t) l := by
  induction l generalizing n with
  | nil => rfl
  | cons b l ih => rw [List.zipIdx_cons, List.map_cons, ih, blocksFrom, Nat.add_mul, Nat.one_mul, Nat.add_assoc]

theorem length_blocksFrom (k t since : Nat) (l : List Nat) : (blocksFrom k t since l).length = l.length := by
  induction l generalizing since with
  | nil => rfl
  | cons b l ih => rw [blocksFrom, List.length_cons, List.length_cons, ih]

theorem mem_blocksFrom (k t since : Nat) (l : List Nat) : ∀ x ∈ blocksFrom k t since l, x.rank = k ∧ x.only = none ∧ x.till = x.since + t := by
  induction l generalizing since with
  | nil => simp [blocksFrom]
  | cons b l ih =>
    rintro x (_ | ⟨_, hx⟩)
    · exact ⟨rfl, rfl, rfl⟩
    · exact ih _ x hx

theorem banks_blocksFrom (k t since : Nat) (l : List Nat) : (blocksFrom k t since l).map (·.bank) = l := by
  induction l generalizing since with
  | nil => rfl
  | cons b l ih => rw [blocksFrom, List.map_cons, ih]

theorem Dram.bankOrder_perm (k : Nat) : (d.bankOrder k).Perm [0, 1, 2, 3] := List.filter_append_perm _ _

theorem Dram.sameBank_eq (k : Nat) : d.sameBank k = (d.refreshing k).blockBanks (blocksFrom k (Config.tRFCsb (fld d.board 28 2)) d.clock (d.bankOrder k)) := by
  have hblocks := blocksFrom_eq k (Config.tRFCsb (fld d.board 28 2)) d.clock 0 (d.bankOrder k)
  rw [Nat.zero_mul, Nat.add_zero] at hblocks
  rw [← hblocks]
  rfl

/-- With an idle set, the first bank index refreshed has no pending request. -/
theorem Dram.idle_head_bankOrder (k : Nat) (h : d.someIdleSet k = true) : ∀ b ∈ (d.bankOrder k).head?, d.idleSet k b = true := by
  obtain ⟨b, hb, hidle⟩ := List.any_eq_true.mp h
  cases hf : [0, 1, 2, 3].filter (d.idleSet k) with
  | nil => exact absurd (hf ▸ List.mem_filter.mpr ⟨hb, hidle⟩) List.not_mem_nil
  | cons a l =>
    intro c hc
    have hac : a = c := by simpa [Dram.bankOrder, hf] using hc
    exact (List.mem_filter.mp (hf ▸ hac ▸ List.mem_cons_self (l := l) : c ∈ [0, 1, 2, 3].filter (d.idleSet k))).2

/-- The four same-bank refreshes of a rank of which one bank index is idle, as R478 lays them out. -/
theorem Dram.sameBank_blocks (k : Nat) (h : d.someIdleSet k = true) :
    let t := Config.tRFCsb (fld d.board 28 2)
    ∃ l : List BankBlock, l.length = 4 ∧ (∀ x ∈ l, x.rank = k ∧ x.only = none ∧ x.till = x.since + t) ∧ (∀ b < 4, b ∈ l.map (·.bank)) ∧ l.map (·.since) = [d.clock, d.clock + t, d.clock + 2 * t, d.clock + 3 * t]
      ∧ (∀ x ∈ l.head?, d.idleSet k x.bank = true) ∧ d.sameBank k = { d.refreshing k with bankBlocks := d.bankBlocks.filter (fun x => decide (d.clock < x.till)) ++ l } := by
  intro t
  have hlen : (d.bankOrder k).length = 4 := (d.bankOrder_perm k).length_eq
  refine ⟨blocksFrom k t d.clock (d.bankOrder k), (length_blocksFrom ..).trans hlen, mem_blocksFrom _ _ _ _, fun b hb => ?_, ?_, fun x hx => ?_, d.sameBank_eq k⟩
  · rw [banks_blocksFrom, (d.bankOrder_perm k).mem_iff]
    simp only [List.mem_cons, List.not_mem_nil, or_false]
    omega
  · obtain ⟨b0, b1, b2, b3, hl⟩ : ∃ b0 b1 b2 b3, d.bankOrder k = [b0, b1, b2, b3] := by
      match d.bankOrder k, hlen with
      | [b0, b1, b2, b3], _ => exact ⟨b0, b1, b2, b3, rfl⟩
    simp only [hl, blocksFrom, List.map_cons, List.map_nil, List.cons.injEq, and_true, true_and]
    omega
  · refine d.idle_head_bankOrder k h _ ?_
    have hhead := congrArg List.head? (banks_blocksFrom k t d.clock (d.bankOrder k))
    rw [List.head?_map] at hhead
    rw [← hhead]
    exact Option.mem_map_of_mem _ hx

end

section
variable (w : W) (rank : Fin 3)

theorem W.refreshDue_failed (h : w.q.dram.refreshes rank = false) : w.refreshDue rank = w := by simp only [W.refreshDue, h, Bool.not_false, if_true]

theorem W.refreshRepay_failed (h : w.q.dram.refreshes rank = false) : w.refreshRepay rank = w := by simp only [W.refreshRepay, h, Bool.not_false, Bool.true_or, if_true]

section
variable (h : w.q.dram.refreshes rank = true)
include h

theorem W.refreshDue_joins (hb : w.q.dram.blocked rank.val = true) (hp : w.q.dram.postponed[rank] < 4) :
    w.refreshDue rank = w.upd fun q => { q with dram := { w.q.dram with postponed := w.q.dram.postponed.set rank (w.q.dram.postponed[rank] + 1) } } := by
  simp only [W.refreshDue, h, hb, hp, Bool.not_true, Bool.false_eq_true, if_false, decide_true, Bool.and_self, if_true]

section
variable (hj : ¬(w.q.dram.blocked rank.val = true ∧ w.q.dram.postponed[rank] < 4))
include hj

theorem W.refreshDue_idleSet (hi : w.q.dram.someIdleSet rank.val = true) : w.refreshDue rank = (w.upd fun q => { q with dram := w.q.dram.sameBank rank.val }).bump (rk 0x11 0x220) 4 := by
  simp only [W.refreshDue, h, hj, hi, Bool.not_true, Bool.false_eq_true, if_false, Bool.and_eq_true, decide_eq_true_eq, if_true]

section
variable (hi : w.q.dram.someIdleSet rank.val = false)
include hi

theorem W.refreshDue_postponed (hf : w.q.dram.fetchTo rank.val = true) (hp : w.q.dram.postponed[rank] < 4) :
    w.refreshDue rank = (w.upd fun q => { q with dram := { w.q.dram with postponed := w.q.dram.postponed.set rank (w.q.dram.postponed[rank] + 1) } }).bump (rk 0x11 0x218) := by
  have hb : w.q.dram.blocked rank.val = false := Bool.eq_false_iff.mpr fun hb => hj ⟨hb, hp⟩
  simp only [W.refreshDue, h, hb, hi, hf, hp, Bool.not_true, Bool.false_and, Bool.false_eq_true, if_false, decide_true, Bool.and_self, if_true]

omit hj in
theorem W.refreshDue_forced (hp : 4 ≤ w.q.dram.postponed[rank]) :
    w.refreshDue rank = (w.upd fun q => { q with dram := { w.q.dram with forced := w.q.dram.forced.set rank true } }).bump (rk 0x11 0x21C) := by
  simp only [W.refreshDue, h, hi, hp, Nat.not_lt.mpr hp, Bool.not_true, Bool.false_eq_true, if_false, Bool.and_eq_true, decide_eq_true_eq, and_false, if_true]

theorem W.refreshDue_allBank (hf : w.q.dram.fetchTo rank.val = false) (hp : w.q.dram.postponed[rank] < 4) : w.refreshDue rank = w.upd fun q => { q with dram := w.q.dram.allBank rank } := by
  simp only [W.refreshDue, h, hj, hi, hf, Nat.not_le.mpr hp, Bool.not_true, Bool.false_eq_true, if_false, Bool.and_eq_true, decide_eq_true_eq, false_and]

end

end

theorem W.refreshRepay_due (hn : w.q.dram.postponed[rank] ≠ 0) (hf : w.q.dram.fetchTo rank.val = false) (hb : w.q.dram.blocked rank.val = false) (d : Dram)
    (hd : d = { w.q.dram with postponed := w.q.dram.postponed.set rank (w.q.dram.postponed[rank] - 1) }) :
    w.refreshRepay rank = if d.someIdleSet rank.val = true then (w.upd fun q => { q with dram := d.sameBank rank.val }).bump (rk 0x11 0x220) 4 else w.upd fun q => { q with dram := d.allBank rank } := by
  simp only [W.refreshRepay, h, hn, hf, hb, Bool.not_true, Bool.or_self, decide_false, Bool.false_eq_true, if_false, hd]

end

end

/-- The delays that DQS_DRIFT_READ leaves due for a rank (R494). -/
theorem Dram.driftRead_due (d : Dram) (drift : List (Int × Int)) (hav : d.available = true) : ∃ l, d.driftRead drift = { d with phyDue := l } ∧ ∀ i : Fin 3,
    l.getD i.val (0, 0) = if d.ranks[i] = .failed then d.phyDue.getD i.val (0, 0)
      else ((d.phyDue.getD i.val (0, 0)).1 + (drift.getD i.val (0, 0)).1, (d.phyDue.getD i.val (0, 0)).2 + (drift.getD i.val (0, 0)).2) := by
  refine ⟨_, if_pos hav, fun i => ?_⟩
  have hrank : d.ranks.toList.getD i.val .failed = d.ranks[i] := by
    rw [List.getD_eq_getElem?_getD, Vector.getElem?_toList, Vector.getElem?_eq_getElem i.isLt]
    rfl
  rw [List.getD_eq_getElem?_getD, List.getElem?_map, List.getElem?_range i.isLt]
  simp only [Option.map_some, Option.getD_some, hrank]

end Sys2Proof.Machine

namespace Sys2Proof.Proofs
open Sys2Proof.Machine

/-- Settles O21: each way of R478 by the conditions that choose it, the four same-bank refreshes by the order of their banks. -/
theorem dramRefreshes : Obligations.DramRefreshes := by
  unfold Obligations.DramRefreshes
  intro s q rank anyHot drift x d mine free idleSet fetches postponed is counts moves refreshed whole joins tsb byBanks hav
  have hidle : d.someIdleSet rank.val = true ↔ idleSet := d.someIdleSet_iff rank.val
  have hfetch : d.fetchTo rank.val = true ↔ fetches := d.fetchTo_iff rank.val
  have hjoins : (d.blocked rank.val = true ∧ d.postponed[rank] < 4) ↔ joins := and_congr_left fun _ => d.blocked_iff rank
  have hsame : ∀ (i : Instr) (e e' : Dram), (∃ w, exec i s = .next (s.onQuire q w) ∧ w x = ({ x with dram := e.sameBank rank.val } : Quire).w.bump (rk 0x11 0x220) 4) → e.someIdleSet rank.val = true →
      e.refreshing rank.val = e' → e.clock = d.clock → e.queue = d.queue → (∀ r, e.ranksOf r = d.ranksOf r) → e.board = d.board → e.bankBlocks = d.bankBlocks → byBanks i e' :=
    fun i e e' ⟨w, hexec, hw⟩ he hr hclock hqueue hranks hboard hblocks => by
      obtain ⟨l, hlen, hmem, hbanks, hsince, hhead, heq⟩ := e.sameBank_blocks rank.val he
      rw [hclock] at hsince
      rw [hboard] at hmem hsince
      refine ⟨l, hlen, hmem, hbanks, hsince, fun k hk r hr' hm => ?_, ?_⟩
      · exact (e.idleSet_iff rank.val k.bank).mp (hhead k hk) r (by rwa [hqueue]) (by rw [hranks]; exact hm)
      · rw [heq, hr, hblocks, hclock] at hw
        exact s.makes_counts i q w _ (rk 0x11 0x220) 4 hexec hw rfl
  have hcounts : ∀ (i : Instr) (e : Dram) (key : Nat) (w : Quire → W), exec i s = .next (s.onQuire q w) → w x = ({ x with dram := e } : Quire).w.bump (rk 0x11 key) → counts i e key 1 :=
    fun i e key w hexec hw => s.makes_counts i q w _ (rk 0x11 key) 1 hexec hw rfl
  have his : ∀ (i : Instr) (e : Dram) (w : Quire → W), exec i s = .next (s.onQuire q w) → w x = ({ x with dram := e } : Quire).w → is i e :=
    fun i e w hexec hw => s.exec_setQuire i q w _ hexec hw
  refine ⟨fun hch hok => ?_, fun hfailed => ?_, fun hhot => ?_, fun hhot hcool => ?_, fun hhot hcool => ?_, rfl, ?_⟩
  · have hr := (d.refreshes_iff rank hav hch).mpr hok
    refine ⟨fun hj => ?_, fun hj hi => ?_, fun hj hi hf hp => ?_, fun hj hi hp => ?_, fun hj hi hf hp => ?_, fun hf hp hb hi => ?_, fun hf hp hb hi => ?_⟩
    · obtain ⟨hb, hp⟩ := hjoins.mpr hj
      exact his _ _ _ rfl (x.w.refreshDue_joins rank hr hb hp)
    · exact hsame _ d _ ⟨_, rfl, x.w.refreshDue_idleSet rank hr (hjoins.not.mpr hj) (hidle.mpr hi)⟩ (hidle.mpr hi) rfl rfl rfl (fun _ => rfl) rfl rfl
    · exact hcounts _ _ 0x218 _ rfl (x.w.refreshDue_postponed rank hr (hjoins.not.mpr hj) (Bool.eq_false_iff.mpr (hidle.not.mpr hi)) (hfetch.mpr hf) hp)
    · exact hcounts _ _ 0x21C _ rfl (x.w.refreshDue_forced rank hr (Bool.eq_false_iff.mpr (hidle.not.mpr hi)) hp)
    · exact his _ _ _ rfl (x.w.refreshDue_allBank rank hr (hjoins.not.mpr hj) (Bool.eq_false_iff.mpr (hidle.not.mpr hi)) (Bool.eq_false_iff.mpr (hfetch.not.mpr hf)) hp)
    · have hw := x.w.refreshRepay_due rank hr (Nat.pos_iff_ne_zero.mp hp) (Bool.eq_false_iff.mpr (hfetch.not.mpr hf)) (Bool.eq_false_iff.mpr ((d.blocked_iff rank).not.mpr (Nat.not_lt.mpr hb))) _ rfl
      have hi' : ({ d with postponed := d.postponed.set rank (postponed - 1) } : Dram).someIdleSet rank.val = true := hidle.mpr hi
      exact hsame _ _ _ ⟨_, rfl, hw.trans (if_pos hi')⟩ hi' rfl rfl rfl (fun _ => rfl) rfl rfl
    · have hw := x.w.refreshRepay_due rank hr (Nat.pos_iff_ne_zero.mp hp) (Bool.eq_false_iff.mpr (hfetch.not.mpr hf)) (Bool.eq_false_iff.mpr ((d.blocked_iff rank).not.mpr (Nat.not_lt.mpr hb))) _ rfl
      have hi' : ¬({ d with postponed := d.postponed.set rank (postponed - 1) } : Dram).someIdleSet rank.val = true := hidle.not.mpr hi
      exact his _ _ _ rfl (hw.trans (if_neg hi'))
  · have hr : d.refreshes rank = false := by simp [Dram.refreshes, hfailed]
    exact ⟨his _ d _ rfl (x.w.refreshDue_failed rank hr), his _ d _ rfl (x.w.refreshRepay_failed rank hr)⟩
  · have hread : d.mr4Read anyHot = { d with hotRefresh := true, coolReads := 0 } := by simp [Dram.mr4Read, hav, hhot]
    exact congrArg (fun e => Host.Outcome.next (s.setQuire q { x with dram := e })) hread
  · have hread : d.mr4Read anyHot = { d with coolReads := 1 } := by simp [Dram.mr4Read, hav, hhot, hcool]
    exact congrArg (fun e => Host.Outcome.next (s.setQuire q { x with dram := e })) hread
  · have hread : d.mr4Read anyHot = { d with hotRefresh := false, coolReads := 2 } := by simp [Dram.mr4Read, hav, hhot, hcool]
    exact congrArg (fun e => Host.Outcome.next (s.setQuire q { x with dram := e })) hread
  · obtain ⟨l, hl, hdue⟩ := d.driftRead_due drift hav
    exact ⟨l, congrArg (fun e => Host.Outcome.next (s.setQuire q { x with dram := e })) hl, hdue⟩

end Sys2Proof.Proofs
end

section
/-! What a command slot of the channel serves, and the changes of its frequency set (R470 to R473, R480 to R490, R726). -/

namespace Sys2Proof.Machine

/-! ### Sorting by a key -/

section
variable {α : Type} {lt : α → α → Bool} {key : α → Nat} (hlt : ∀ a b, lt a b = true → key a ≤ key b) (hge : ∀ a b, lt a b = false → key b ≤ key a)

theorem mem_insertBack (x z : α) (l : List α) : z ∈ sortBy.insertBack lt x l ↔ z = x ∨ z ∈ l := by
  induction l with
  | nil => simp [sortBy.insertBack]
  | cons y t ih =>
    rw [sortBy.insertBack]
    split
    · rw [List.mem_cons, ih, List.mem_cons]
      tauto
    · rw [List.mem_cons]

theorem mem_sortBy (z : α) (l : List α) : z ∈ sortBy lt l ↔ z ∈ l := by
  induction l with
  | nil => rfl
  | cons x t ih => rw [sortBy, mem_insertBack, ih, List.mem_cons]

include hlt hge

/-- The head of a sorted list has the least key. -/
theorem sortBy_head_le (l : List α) : ∀ h ∈ (sortBy lt l).head?, ∀ z ∈ l, key h ≤ key z := by
  induction l with
  | nil => simp [sortBy]
  | cons x t ih =>
    have hsorted : ∀ h ∈ (sortBy lt t).head?, ∀ z ∈ sortBy lt t, key h ≤ key z := fun h hh z hz => ih h hh z ((mem_sortBy z t).mp hz)
    have hinsert : ∀ h ∈ (sortBy.insertBack lt x (sortBy lt t)).head?, ∀ z ∈ sortBy.insertBack lt x (sortBy lt t), key h ≤ key z := by
      generalize sortBy lt t = u at hsorted
      cases u with
      | nil =>
        intro h hh z hz
        simp only [sortBy.insertBack, List.head?_cons, Option.mem_some_iff, List.mem_singleton] at hh hz
        rw [hz, hh]
      | cons y u =>
        have hy := hsorted y rfl
        intro h hh z hz
        rw [mem_insertBack] at hz
        rw [sortBy.insertBack] at hh
        cases hyx : lt y x with
        | true =>
          rw [if_pos hyx] at hh
          obtain rfl : y = h := by simpa using hh
          exact hz.elim (fun hz => hz ▸ hlt _ _ hyx) (hy z)
        | false =>
          rw [if_neg (by simp [hyx])] at hh
          obtain rfl : x = h := by simpa using hh
          exact hz.elim (fun hz => hz ▸ le_rfl) fun hz => (hge _ _ hyx).trans (hy z hz)
    intro h hh z hz
    exact hinsert h hh z ((mem_sortBy z (x :: t)).mpr hz)

end

/-! ### The choice of a request (R472) -/

/-- A bank that no same-bank refresh and no refresh-management command blocks. -/
theorem Dram.bankBlocked_false (d : Dram) (b : Nat) : d.bankBlocked b = false ↔ ∀ k ∈ d.bankBlocks, ¬(k.since ≤ d.clock ∧ d.clock < k.till ∧ match k.only with
    | some j => j = b
    | none => keyRank b = k.rank ∧ b % 4 = k.bank) := by
  rw [Dram.bankBlocked, List.any_eq_false]
  refine forall₂_congr fun k _ => not_congr ?_
  rw [Bool.and_eq_true, Bool.and_eq_true, decide_eq_true_eq, decide_eq_true_eq, and_assoc]
  refine and_congr_right fun _ => and_congr_right fun _ => ?_
  cases k.only with
  | some j => exact decide_eq_true_iff
  | none => exact decide_eq_true_iff

/-- A request that no refresh blocks. -/
def Dram.Eligible (d : Dram) (r : DramReq) : Prop := r ∈ d.queue ∧ (∀ k ∈ d.ranksOf r, d.blocked k = false) ∧ ∀ b ∈ d.banksOf r, d.bankBlocked b = false

theorem Dram.mem_candidates (d : Dram) (r : DramReq) : r ∈ d.candidates ↔ d.Eligible r := by
  simp [Dram.candidates, mem_sortBy, Dram.Eligible]

theorem Dram.candidates_head (d : Dram) {f : DramReq} {t : List DramReq} (h : d.candidates = f :: t) : ∀ r, d.Eligible r → f.step ≤ r.step := fun r hr => by
  have hmem := (mem_sortBy r _).mp ((d.mem_candidates r).mpr hr)
  refine sortBy_head_le (key := DramReq.step) (fun a b hab => ?_) (fun a b hab => ?_) _ f (by rw [← Dram.candidates, h]; rfl) r hmem
  · simp only [Bool.or_eq_true, Bool.and_eq_true, decide_eq_true_eq] at hab
    omega
  · simp only [Bool.or_eq_false_iff, decide_eq_false_iff_not] at hab
    omega

theorem Dram.choose_none (d : Dram) (h : ¬∃ r, d.Eligible r) : d.choose = none := by
  have hnil : d.candidates = [] := List.eq_nil_iff_forall_not_mem.mpr fun r hr => h ⟨r, (d.mem_candidates r).mp hr⟩
  rw [Dram.choose, hnil]

/-- A request of the first step that has one is chosen. -/
theorem Dram.choose_some (d : Dram) (h : ∃ r, d.Eligible r) : ∃ r, d.choose = some r ∧ d.Eligible r ∧ ∀ r', d.Eligible r' → r.step ≤ r'.step := by
  obtain ⟨r0, h0⟩ := h
  cases hc : d.candidates with
  | nil => exact absurd (hc ▸ (d.mem_candidates r0).mpr h0) List.not_mem_nil
  | cons f t =>
    have hmem : ∀ r ∈ f :: t, d.Eligible r := fun r hr => (d.mem_candidates r).mp (hc ▸ hr)
    have hleast := d.candidates_head hc
    have hf : d.Eligible f ∧ ∀ r', d.Eligible r' → f.step ≤ r'.step := ⟨hmem f List.mem_cons_self, hleast⟩
    rw [Dram.choose, hc]
    dsimp only
    split
    · exact ⟨f, rfl, hf⟩
    · split
      next o ho =>
        obtain ⟨ht, hstep⟩ := List.mem_filter.mp (List.mem_of_find?_eq_some ho)
        split
        · exact ⟨o, rfl, hmem o (List.mem_cons_of_mem f ht), fun r' hr' => (of_decide_eq_true hstep).le.trans (hleast r' hr')⟩
        · exact ⟨f, rfl, hf⟩
      next => exact ⟨f, rfl, hf⟩

/-! ### Issuing a request (R481 to R483) -/

theorem Dram.openRow_shape (d : Dram) (t row k : Nat) : ∃ op tb rf fo, d.openRow t row k = { d with openRows := op, tables := tb, rfm := rf, rfmForced := fo } ∧ sfind k op = some row
    ∧ ∀ j, sfind j d.openRows = some row → sfind j op = some row := by
  unfold Dram.openRow
  split
  next h => exact ⟨_, _, _, _, rfl, h, fun _ hj => hj⟩
  · refine ⟨_, _, _, _, rfl, sfind_sset_same .., fun j hj => ?_⟩
    by_cases hjk : j = k
    · rw [hjk]
      exact sfind_sset_same ..
    · rwa [sfind_sset_other _ _ _ _ hjk]

theorem Dram.openRows_shape (d : Dram) (t row : Nat) (l : List Nat) : ∃ op tb rf fo, l.foldl (fun d k => d.openRow t row k) d = { d with openRows := op, tables := tb, rfm := rf, rfmForced := fo }
    ∧ (∀ k ∈ l, sfind k op = some row) ∧ ∀ j, sfind j d.openRows = some row → sfind j op = some row := by
  induction l generalizing d with
  | nil => exact ⟨_, _, _, _, rfl, by simp, fun _ hj => hj⟩
  | cons k l ih =>
    obtain ⟨op, tb, rf, fo, hone, hk, hkeep⟩ := d.openRow_shape t row k
    obtain ⟨op', tb', rf', fo', hall, hl, hkeep'⟩ := ih (d.openRow t row k)
    rw [hone] at hall hkeep'
    refine ⟨op', tb', rf', fo', by rw [List.foldl_cons, hone, hall], ?_, fun j hj => hkeep' j (hkeep j hj)⟩
    rintro j (_ | ⟨_, hj⟩)
    · exact hkeep' k hk
    · exact hl j hj

theorem dropFirst_eq_erase {α : Type} [DecidableEq α] (a : α) (l : List α) : dropFirst (fun x => decide (x = a)) l = l.erase a := by
  induction l with
  | nil => rfl
  | cons b l ih =>
    rw [dropFirst, List.erase_cons, ih]
    simp only [decide_eq_true_eq, beq_iff_eq]

theorem Dram.issue_shape (d : Dram) (t : Nat) (r : DramReq) : ∃ op tb rf fo, d.issue t r = { d with
      openRows := op, tables := tb, rfm := rf, rfmForced := fo, lastOther := none, queue := d.queue.erase r, issued := (if r.write then d.issued.filter (fun z => !z.write) else d.issued) ++ [r] }
    ∧ ∀ b ∈ d.banksOf r, sfind b op = some (lineRow r.line) := by
  obtain ⟨op, tb, rf, fo, h, hrows, -⟩ := d.openRows_shape t (lineRow r.line) (d.banksOf r)
  refine ⟨op, tb, rf, fo, ?_, hrows⟩
  rw [Dram.issue, h, dropFirst_eq_erase]

/-! ### What the errors of a read leave of the channel -/

/-- A step that takes the errors of a line: it changes the poison, the migration with its ranks and its copies, the counters and what is injected. -/
def W.Errs (w v : W) : Prop :=
  v.q = { w.q with
    dram := { w.q.dram with
      queue := v.q.dram.queue, issued := v.q.dram.issued, poison := v.q.dram.poison, spareOk := v.q.dram.spareOk, ranks := v.q.dram.ranks
      migrating := v.q.dram.migrating, migrateRank := v.q.dram.migrateRank, migrateNext := v.q.dram.migrateNext, migrateInjected := v.q.dram.migrateInjected }
    live := v.q.live, satPages := v.q.satPages, injections := v.q.injections }

theorem W.Errs.refl (w : W) : w.Errs w := rfl

theorem W.Errs.trans {u v w : W} (h : u.Errs v) (h' : v.Errs w) : u.Errs w := by
  unfold W.Errs at *
  rw [h', h]

theorem W.Errs.ite {c : Prop} [Decidable c] {w u v : W} (h : w.Errs u) (h' : w.Errs v) : w.Errs (if c then u else v) := by
  split
  · exact h
  · exact h'

theorem W.errs_bump (w : W) (k n : Nat) : w.Errs (w.bump k n) := by
  have h := w.bump_counts k n
  unfold Quire.Counts at h
  unfold W.Errs
  rw [h]

theorem W.errs_lineError (w : W) (line : Nat) (injected : Bool) : w.Errs (w.lineError line injected) := (w.errs_bump _ _).trans rfl

theorem W.errs_abandonMigration (w : W) (injected : Bool) : w.Errs (w.abandonMigration injected) := by
  unfold W.abandonMigration
  split
  · rfl
  · exact .refl w

theorem W.errs_uncorrectable (w : W) (line : Nat) (injected : Bool) : w.Errs (w.uncorrectable line injected) := by
  have herr := w.errs_lineError line injected
  unfold W.uncorrectable
  dsimp only
  refine .ite (herr.trans (W.errs_abandonMigration _ _)) (herr.trans ?_)
  unfold W.Errs Dram.startMigration
  rw [W.upd_q]
  split <;> rfl

theorem W.errs_check (w : W) (e : Nat) : w.Errs (w.check 0x18 e).2 := by
  have hlasts : lastingChecker 0x18 = false := by decide
  simp only [W.check, hlasts, Bool.and_false, W.when, Bool.false_eq_true, if_false]
  rfl

theorem W.errs_poisonLine (w : W) (line : Nat) : w.Errs (w.upd fun q => { q with dram := q.dram.poisonLine line }) := rfl

theorem W.errs_readLine (w : W) (line : Nat) (r : LineRead) : w.Errs (w.readLine line r).2 := by
  unfold W.readLine
  extract_lets k v u
  have hcheck : w.Errs v := w.errs_check 0
  clear_value v
  split
  · exact ((hcheck.trans (v.errs_uncorrectable line k.1)).trans (W.errs_poisonLine _ line)).trans (W.errs_bump _ _ _)
  · have hcorr : w.Errs u := .ite (hcheck.trans (v.errs_bump _ _)) hcheck
    clear_value u
    split
    · exact hcorr.trans (u.errs_bump _ _)
    · exact hcorr

/-! ### The frequency set (R485 to R490, R726) -/

/-- A channel in set `b` that no change of set holds, and no read of the raw region that waits. -/
def Quire.InSet (b : Bool) (x : Quire) : Prop := x.dram.rateSet = b ∧ x.dram.changing = none ∧ x.rawReads = []

theorem Quire.InSet.errs {b : Bool} {w v : W} (hw : w.q.InSet b) (h : w.Errs v) : v.q.InSet b := by
  unfold W.Errs at h
  rw [h]
  exact hw

section
variable {s : State} {q : QId} {b : Bool}

theorem Quire.InSet.onQuire (f : Quire → W) (h : (f (s.quire q)).q.InSet b) : ((s.onQuire q f).quire q).InSet b := by
  rw [Quire.InSet, State.onQuire_quire_dram, State.onQuire_quire_rawReads]
  exact h

theorem Quire.InSet.freeLine (line : Nat) (h : (s.quire q).InSet b) : ((s.freeLine q line).quire q).InSet b :=
  List.foldlRecOn (motive := fun t : State => (t.quire q).InSet b) _ _ h fun t ht _ _ => by
    rw [State.quire_modQuire_same]
    exact ht

theorem Quire.InSet.hostLine (line : Nat) (r : LineRead) (h : (s.quire q).InSet b) : ((s.hostLine q line r).2.quire q).InSet b := by
  have hread : ((s.onQuire q fun x => (x.w.readLine line r).2).quire q).InSet b := .onQuire _ (h.errs ((s.quire q).w.errs_readLine line r))
  unfold State.hostLine
  dsimp only
  split
  · exact List.foldlRecOn (motive := fun x : List Byte × State => (x.2.quire q).InSet b) _ _ hread fun x hx _ _ => hx
  · split
    · exact hread.freeLine line
    · exact hread

theorem Quire.InSet.rawReply (x : RawRead) (h : (s.quire q).InSet b) : ((s.rawReply q x).quire q).InSet b := by
  rw [State.rawReply, State.reply_quire]
  exact List.foldlRecOn (motive := fun y : List Byte × State => (y.2.quire q).InSet b) _ _ h fun y hy i _ => hy.hostLine _ _

theorem Quire.InSet.serveRaw (h : (s.quire q).dram.rateSet = b ∧ (s.quire q).dram.changing = none) : ((s.serveRaw q).quire q).InSet b := by
  obtain ⟨hset, hch⟩ := h
  rw [State.serveRaw, if_neg (by simp [hch])]
  refine List.foldlRecOn (motive := fun t : State => (t.quire q).InSet b) _ _ ?_ fun t ht x _ => ht.rawReply x
  rw [State.quire_modQuire_same]
  exact ⟨hset, hch, rfl⟩

theorem State.serveRaw_of_none (hch : (s.quire q).dram.changing = none) (hraw : (s.quire q).rawReads = []) : s.serveRaw q = s := by
  have hsame : (s.modQuire q fun x => { x with rawReads := [] }) = s := by
    have hx : ({ s.quire q with rawReads := [] } : Quire) = s.quire q := by rw [← hraw]
    rw [State.modQuire, hx, s.setQuire_quire]
  rw [State.serveRaw, if_neg (by simp [hch]), hraw, hsame]
  rfl

end

/-- A change of set that no ARM waits for completes (R487, R489). -/
theorem W.rateChange_ends (w : W) {b : Bool} (h : w.q.dram.changing = some b) (harm : ∀ a, w.q.occupied ≠ some (.arm a)) :
    w.rateChange = (w.upd fun q => { q with dram := { q.dram with rateSet := b, changing := none, openRows := [] } }).bump (rk 0x11 0x234) := by
  have hocc : ∀ v : W, (∀ a, v.q.occupied ≠ some (.arm a)) → (v.upd fun q => match q.occupied with
      | some (.arm _) => if q.mustRaise then { q with dram := { q.dram with changing := some false } } else q
      | _ => q) = v := fun v hv => by
    cases v with
    | mk x fx =>
      refine congrArg (fun y => ({ q := y, fx := fx } : W)) ?_
      dsimp only
      split
      next a ha => exact absurd ha (hv a)
      next => rfl
  rw [W.rateChange, h]
  refine hocc _ fun a => ?_
  rw [W.bump_counts (w.upd fun q => { q with dram := { q.dram with rateSet := b, changing := none, openRows := [] } }) (rk 0x11 0x234) 1]
  exact harm a

/-! ### Forced refreshes and their choice (R478, R480) -/

theorem Dram.mayForce_iff (d : Dram) (rank : Fin 3) : d.mayForce rank = true ↔ d.forced[rank] = true ∧ d.blockedUntil[rank] ≤ d.clock
    ∧ ∀ r ∈ d.queue, rank.val ∈ d.ranksOf r → r.port = .fetch → d.blockedUntil[rank] ≤ r.age := by
  have hb : d.blocked rank.val = false ↔ d.blockedUntil[rank] ≤ d.clock := by rw [← Bool.not_eq_true, d.blocked_iff rank, Nat.not_lt]
  simp only [Dram.mayForce, Bool.and_eq_true, Bool.not_eq_true', hb, and_assoc, List.any_eq_false, Dram.mem_pendingTo, decide_eq_true_eq, not_and, Nat.not_lt, and_imp]

theorem find?_rank (p : Fin 3 → Bool) {rank : Fin 3} (h : p rank = true) (hlt : ∀ r, r < rank → p r = false) : ([0, 1, 2] : List (Fin 3)).find? p = some rank := by
  obtain rfl | rfl | rfl : rank = 0 ∨ rank = 1 ∨ rank = 2 := by omega
  · simp [h]
  · simp [h, hlt 0 (by decide)]
  · simp [h, hlt 0 (by decide), hlt 1 (by decide)]

section
variable (w : W) (h : w.q.dram.running = true)
include h

theorem W.commandSlot_forced {rank : Fin 3} (hf : ([0, 1, 2] : List (Fin 3)).find? w.q.dram.mayForce = some rank) :
    w.commandSlot = w.upd fun q => { q with dram := { w.q.dram.allBank rank with forced := w.q.dram.forced.set rank false } } := by
  simp only [W.commandSlot, h, hf, Bool.not_true, Bool.false_eq_true, if_false]

section
variable (hf : ([0, 1, 2] : List (Fin 3)).find? w.q.dram.mayForce = none)
include hf

theorem W.commandSlot_rfm {e : Nat × Nat} {rest : List (Nat × Nat)} (hr : w.q.dram.rfmForced = e :: rest) : w.commandSlot = (w.issueRfm e).bump (rk 0x11 0x228) := by
  simp only [W.commandSlot, h, hf, hr, Bool.not_true, Bool.false_eq_true, if_false]

theorem W.commandSlot_request (hr : w.q.dram.rfmForced = []) (hn : w.q.dram.rfm = []) :
    w.commandSlot = match w.q.dram.choose with | some r => w.upd fun q => { q with dram := q.dram.issue q.rhThreshold r } | none => w := by
  simp only [W.commandSlot, h, hf, hr, hn, Bool.not_true, Bool.false_eq_true, if_false, List.filter_nil]
  rfl

end

end

/-! ### Age (R470, R471, R473) -/

theorem lfirst_split {α : Type} (p : α → Bool) (f : α → α) (pre : List α) (a : α) (post : List α) (hpre : ∀ z ∈ pre, p z = false) (ha : p a = true) :
    lfirst p f (pre ++ a :: post) = pre ++ f a :: post := by
  induction pre with
  | nil => rw [List.nil_append, List.nil_append, lfirst, if_pos ha]
  | cons b pre ih => rw [List.cons_append, lfirst, if_neg (by rw [hpre b List.mem_cons_self]; exact Bool.false_ne_true), ih fun z hz => hpre z (List.mem_cons_of_mem b hz), List.cons_append]

theorem find?_split {α : Type} (p : α → Bool) (pre : List α) (a : α) (post : List α) (hpre : ∀ z ∈ pre, p z = false) (ha : p a = true) : (pre ++ a :: post).find? p = some a := by
  have hnone : pre.find? p = none := List.find?_eq_none.mpr fun z hz => by rw [hpre z hz]; exact Bool.false_ne_true
  rw [List.find?_append, hnone, Option.none_or, List.find?_cons_of_pos ha]

section
variable (x : Quire) {pre post : List DramReq} {r : DramReq} (hqueue : x.dram.queue = pre ++ r :: post)
include hqueue

theorem Quire.fetchDeadline_rises (hlate : ∀ z ∈ x.dram.queue, ¬(z.port = .fetch ∧ z.high = true ∧ z.critical = false)) (hpre : ∀ z ∈ pre, ¬(z.port = .fetch ∧ z.high = false)) (hr : r.port = .fetch ∧ r.high = false) :
    x.fetchDeadline = { x.dram with queue := pre ++ { r with high := true } :: post } := by
  have hnone : x.dram.queue.find? (fun z => z.port = .fetch && z.high && !z.critical) = none := List.find?_eq_none.mpr fun z hz => by simpa using hlate z hz
  have hlow : ∀ z ∈ pre, (decide (z.port = .fetch) && !z.high) = false := fun z hz => by simpa using hpre z hz
  have hlow' : (decide (r.port = .fetch) && !r.high) = true := by simpa using hr
  have hsome := find?_split _ pre r post hlow hlow'
  rw [hqueue] at hnone
  have hfirst := lfirst_split (fun z : DramReq => decide (z.port = .fetch) && !z.high) (fun z => { z with high := true }) pre r post hlow hlow'
  simp only [Quire.fetchDeadline, hsome, hnone, Dram.first, hqueue, hfirst]

theorem Quire.fetchDeadline_passes (hlow : ∀ z ∈ x.dram.queue, ¬(z.port = .fetch ∧ z.high = false)) (hpre : ∀ z ∈ pre, ¬(z.port = .fetch ∧ z.high = true ∧ z.critical = false))
    (hr : r.port = .fetch ∧ r.high = true ∧ r.critical = false) : x.fetchDeadline = { x.dram with queue := pre ++ { r with critical := true } :: post } := by
  have hnone : x.dram.queue.find? (fun z => z.port = .fetch && !z.high) = none := List.find?_eq_none.mpr fun z hz => by simpa using hlow z hz
  have hfirst := lfirst_split (fun z : DramReq => decide (z.port = .fetch) && z.high && !z.critical) (fun z => { z with critical := true }) pre r post (fun z hz => by simpa using hpre z hz)
    (by simp [hr.1, hr.2.1, hr.2.2])
  rw [hqueue] at hnone
  simp only [Quire.fetchDeadline, hnone, Dram.first, hqueue, hfirst]

theorem W.agePromotion_first (fx : List Fx) (hpre : ∀ z ∈ pre, ¬(z.port ≠ .fetch ∧ z.port ≠ .migration ∧ z.promoted = false)) (hr : r.port ≠ .fetch ∧ r.port ≠ .migration ∧ r.promoted = false) :
    W.agePromotion { q := x, fx := fx } = W.bump { q := { x with dram := { x.dram with queue := pre ++ { r with promoted := true } :: post } }, fx := fx } (rk 0x11 0x230) := by
  have hold : (decide (r.port ≠ .fetch) && decide (r.port ≠ .migration) && !r.promoted) = true := by simp [hr.1, hr.2.1, hr.2.2]
  have hany : x.dram.queue.any (fun z => z.port ≠ .fetch && z.port ≠ .migration && !z.promoted) = true := List.any_eq_true.mpr ⟨r, by simp [hqueue], hold⟩
  have hfirst := lfirst_split (fun z : DramReq => decide (z.port ≠ .fetch) && decide (z.port ≠ .migration) && !z.promoted) (fun z => { z with promoted := true }) pre r post
    (fun z hz => by simpa [and_assoc] using hpre z hz) hold
  rw [W.agePromotion]
  dsimp only
  rw [if_pos hany, W.upd, Dram.first, hqueue, hfirst]

end

/-! ### Counters -/

/-- A step that makes of the quire `y` and counts one in each of two registers. -/
theorem State.makes_two (s : State) (i : Instr) (q : QId) (f : Quire → W) (y : Quire) {k j : Nat} (hexec : exec i s = .next (s.onQuire q f)) (hw : f (s.quire q) = (y.w.bump k).bump j)
    (hlive : y.live = (s.quire q).live) (hkj : k ≠ j) : s.Makes i q y fun t => s.CountsOne q k t ∧ s.CountsOne q j t :=
  s.makes_of i q f y _ hexec hw (W.Quiet.bump (y.bump_quiet k 1) j 1) ((y.bump_counts k 1).trans (W.bump_counts _ j 1)) fun t ht => by
    have hreg : ∀ m, (s.quire q).liveReg m = y.liveReg m := fun m => by rw [Quire.liveReg, Quire.liveReg, hlive]
    unfold State.CountsOne
    rw [ht, hreg, hreg]
    refine ⟨?_, ?_⟩
    · rw [W.bump_liveReg_other _ 1 hkj]
      exact y.bump_counted k 1
    · have hcount := (y.w.bump k).bump_counted j 1
      rwa [W.bump_liveReg_other _ 1 hkj.symm] at hcount

/-- A counter of the chip and its saturation are what it tallies (R776). -/
theorem State.bump_tallies (u : State) (k : Nat) : u.Tallies (u.bump k) [k] := by
  obtain ⟨l, c, h⟩ := State.bump_shape u k 1
  refine ⟨?_, fun j hj => ?_, fun j hj => u.bump_reg_other k 1 ?_⟩
  · rw [h]
  · rw [List.mem_singleton.mp hj]
    exact u.bump_counted k 1
  · exact fun he => hj (List.mem_singleton.mpr he)

end Sys2Proof.Machine

namespace Sys2Proof.Proofs
open Sys2Proof.Machine

/-- Settles O22: a slot by what it finds due first, the choice of a request by the sorted candidates, and the rest by the first request that the event concerns. -/
theorem dramCommandSlots : Obligations.DramCommandSlots := by
  unfold Obligations.DramCommandSlots
  intro s q x d counts order refreshing eligible own copied refresh allowed is low late old may noForced hheld hav
  have htake : ∀ f : Quire → W, (s.onQuire q f).takeStreams = s.onQuire q f := fun f => State.takeStreams_of_none ((s.onQuire_heldPackets q f).trans hheld)
  have hslot : exec (.dramCommandSlot q) s = .next (s.onQuire q fun x => x.w.commandSlot) := congrArg Host.Outcome.next (htake _)
  have hmay : ∀ r, d.mayForce r = true ↔ may r := d.mayForce_iff
  have hmay' : ∀ r, ¬may r → d.mayForce r = false := fun r hr => Bool.eq_false_iff.mpr ((hmay r).not.mpr hr)
  have hnone : noForced → ([0, 1, 2] : List (Fin 3)).find? d.mayForce = none := fun h => List.find?_eq_none.mpr fun r _ => (hmay r).not.mpr (h r)
  have hblocked : ∀ k, d.blocked k = false ↔ d.blockedUntil.toList.getD k 0 ≤ d.clock := fun k => by rw [Dram.blocked, decide_eq_false_iff_not, Nat.not_lt]
  have helig : ∀ r, d.Eligible r ↔ eligible r := fun r =>
    and_congr_right fun _ => and_congr (forall₂_congr fun k _ => hblocked k) (forall₂_congr fun b _ => d.bankBlocked_false b)
  have horder : ∀ r : DramReq, r.step = order r := fun _ => rfl
  have honSpare : ∀ r : DramReq, d.onSpare r.line = true ↔ copied r := fun r => by
    simp only [Dram.onSpare, Bool.and_eq_true, decide_eq_true_eq, and_assoc]
    rfl
  have hallowed : x.rateBAllowed = true ↔ allowed := by
    unfold Quire.rateBAllowed
    cases hst : x.state <;> simp [allowed, hst, QState.inRun]
  refine ⟨fun hch => ?_, fun b hb harm => ⟨fun hraw => ?_, ?_⟩, fun pre r post hqueue => ⟨fun hlate hpre hr => ?_, fun hlow hpre hr => ?_, fun hpre hr => ?_⟩⟩
  · have hrun : d.running = true := by simp [Dram.running, hav, hch]
    refine ⟨fun rank hr hlt => ?_, fun hno e rest hrfm => ?_, fun hno hrfm howed => ⟨fun hex => ?_, fun hex => ?_⟩, fun r => ⟨fun hsp => ?_, fun k hsp => ⟨fun hp => ?_, fun hp hc => ?_, fun hp hc => ?_⟩⟩, fun hauto ha hset => ?_, fun hauto ha hset => ?_⟩
    · have hw := W.commandSlot_forced x.w hrun (find?_rank _ ((hmay rank).mpr hr) fun r hlt' => hmay' r (hlt r hlt'))
      exact s.exec_setQuire _ q _ _ hslot hw
    · have hw := W.commandSlot_rfm x.w hrun (hnone hno) hrfm
      refine ⟨sset e.1 (((sfind e.1 d.tables).getD []).map fun f => if f.1 = e.2 then (f.1, 0) else f) d.tables, sfind_sset_same .., ?_⟩
      obtain ⟨t, hexec, hwithin, hcounts, h1, h2⟩ := s.makes_two _ q _ _ hslot hw rfl (by decide)
      exact ⟨t, hexec, hwithin, hcounts, by simp [h1, h2]⟩
    · obtain ⟨r, hchoose, hr, hleast⟩ := d.choose_some (hex.imp fun r hr => (helig r).mpr hr)
      obtain ⟨op, tb, rf, fo, hissue, hopen⟩ := d.issue_shape x.rhThreshold r
      have hw := W.commandSlot_request x.w hrun (hnone hno) hrfm howed
      have hchosen : x.w.q.dram.choose = some r := hchoose
      rw [hchosen] at hw
      refine ⟨r, _, (helig r).mp hr, fun r' hr' => hleast r' ((helig r').mpr hr'), s.exec_setQuire _ q _ _ hslot hw, ?_⟩
      have hissue' : x.w.q.dram.issue x.w.q.rhThreshold r = _ := hissue
      rw [hissue']
      exact ⟨rfl, rfl, hopen, rfl⟩
    · have hw := W.commandSlot_request x.w hrun (hnone hno) hrfm howed
      have hchosen : x.w.q.dram.choose = none := d.choose_none fun ⟨r, hr⟩ => hex ⟨r, (helig r).mp hr⟩
      rw [hchosen] at hw
      exact s.exec_setQuire _ q _ _ hslot hw
    · rw [Dram.ranksOf, hsp]
      rfl
    · rw [Dram.ranksOf, hsp]
      exact if_pos hp
    · rw [Dram.ranksOf, hsp]
      exact (if_neg hp).trans (if_neg ((honSpare r).not.mpr hc))
    · rw [Dram.ranksOf, hsp]
      exact (if_neg hp).trans (if_pos ((honSpare r).mpr hc))
    · have hrun' : (!s.dramAuto || !x.dram.running) = false := by rw [hauto, hrun]; rfl
      have hb : (x.rateBAllowed && !x.dram.rateSet) = true := by rw [hallowed.mpr ha, hset]; rfl
      have hreq : dramRateRequest q s = (s.modQuire q fun x => { x with dram := { x.dram with changing := some true } }).bump (rk 5 0x310) := by
        rw [dramRateRequest, if_neg (by rw [hrun']; exact Bool.false_ne_true), if_pos hb]
      exact ⟨_, congrArg Host.Outcome.next hreq, State.bump_tallies _ _⟩
    · have hrun' : (!s.dramAuto || !x.dram.running) = false := by rw [hauto, hrun]; rfl
      have hno : x.rateBAllowed = false := Bool.eq_false_iff.mpr (hallowed.not.mpr ha)
      have hreq : dramRateRequest q s = s.modQuire q fun x => { x with dram := { x.dram with changing := some false } } := by
        rw [dramRateRequest, if_neg (by rw [hrun']; exact Bool.false_ne_true), if_neg (by rw [hno]; exact Bool.false_ne_true), if_pos (by rw [hno, hset]; rfl)]
      exact congrArg Host.Outcome.next hreq
  · have hw := x.w.rateChange_ends hb harm
    have hy : ((s.onQuire q fun x => x.w.rateChange).quire q).dram.changing = none ∧ ((s.onQuire q fun x => x.w.rateChange).quire q).rawReads = [] := by
      rw [State.onQuire_quire_dram, State.onQuire_quire_rawReads, hw, W.bump_counts _ _ _]
      exact ⟨rfl, hraw⟩
    have hexec : exec (.rateChange q) s = .next (s.onQuire q fun x => x.w.rateChange) := by
      refine congrArg Host.Outcome.next ?_
      rw [State.serveRaw_of_none hy.1 hy.2]
      exact htake _
    obtain ⟨t, hexec, hwithin, hcounts, h1⟩ := s.makes_bump _ q _ _ _ hexec hw rfl
    exact ⟨t, hexec, hwithin, hcounts, by simpa using h1⟩
  · have hw := x.w.rateChange_ends hb harm
    have hset : ((s.onQuire q fun x => x.w.rateChange).quire q).dram.rateSet = b ∧ ((s.onQuire q fun x => x.w.rateChange).quire q).dram.changing = none := by
      rw [State.onQuire_quire_dram, hw, W.bump_counts _ _ _]
      exact ⟨rfl, rfl⟩
    have hserve := Quire.InSet.serveRaw hset
    refine ⟨_, congrArg Host.Outcome.next (State.takeStreams_of_none ?_), hserve⟩
    rw [(State.serveRaw_apart _ q).2, State.onQuire_heldPackets, hheld]
  · exact congrArg (fun e => Host.Outcome.next (s.setQuire q { x with dram := e })) (x.fetchDeadline_rises hqueue hlate hpre hr)
  · exact congrArg (fun e => Host.Outcome.next (s.setQuire q { x with dram := e })) (x.fetchDeadline_passes hqueue hlow hpre hr)
  · obtain ⟨t, hexec, hwithin, hcounts, h1⟩ := s.makes_bump (.agePromotion q) q _ _ _ rfl (W.agePromotion_first x hqueue [] hpre hr) rfl
    exact ⟨t, hexec, hwithin, hcounts, by simpa using h1⟩

end Sys2Proof.Proofs
end

section
/-! Errors of the channel: retries, replays, poison and migration (R464 to R468, R474, R495 to R504). -/

namespace Sys2Proof.Machine

/-! ### Steps that make one report -/

/-- The step asks for one report, and else for entries of the log alone. -/
def W.Tells (w : W) (sev : Severity) (checker : Nat) (element cause : Byte) (detail : Int) (injected : Bool) : Prop :=
  ∃ a b, w.fx = a ++ .report sev checker element cause detail injected :: b ∧ (∀ x ∈ a, x.logs = true) ∧ ∀ x ∈ b, x.logs = true

section
variable {w : W} {sev : Severity} {c : Nat} {el cause : Byte} {d : Int} {inj : Bool}

theorem W.Quiet.report (h : w.Quiet) (sev : Severity) (c : Nat) (el cause : Byte) (d : Int) (inj : Bool) : (w.report sev c el cause d inj).Tells sev c el cause d inj :=
  ⟨w.fx, [], rfl, h, by simp⟩

theorem W.Tells.upd (h : w.Tells sev c el cause d inj) (f : Quire → Quire) : (w.upd f).Tells sev c el cause d inj := h

theorem W.Tells.asks (h : w.Tells sev c el cause d inj) {v : W} {fx : List Fx} (hv : v.fx = w.fx ++ fx) (hfx : ∀ x ∈ fx, x.logs = true) : v.Tells sev c el cause d inj := by
  obtain ⟨a, b, hw, ha, hb⟩ := h
  exact ⟨a, b ++ fx, by rw [hv, hw, List.append_assoc, List.cons_append], ha, fun x hx => (List.mem_append.mp hx).elim (hb x) (hfx x)⟩

theorem W.Tells.bump (h : w.Tells sev c el cause d inj) (k n : Nat) : (w.bump k n).Tells sev c el cause d inj := by
  obtain ⟨v, m, fx, hw, hfx, -⟩ := w.bump_shape k n
  exact h.asks (by rw [hw]) hfx

theorem W.Tells.log (h : w.Tells sev c el cause d inj) (code : Byte) (source : Nat) (d0 d1 d2 : Word) (i : Bool) : (w.log code source d0 d1 d2 i).Tells sev c el cause d inj :=
  h.asks (fx := [.log code source d0 d1 d2 i]) rfl fun x hx => by rw [List.mem_singleton.mp hx]; rfl

/-- A step that makes one report lies within its quire. -/
theorem State.onQuire_tells (s : State) (q : QId) (f : Quire → W) (h : (f (s.quire q)).Tells sev c el cause d inj) :
    s.Within (s.onQuire q f) q ∧ (s.onQuire q f).quire q = (f (s.quire q)).q
      ∧ ∃ r, (s.onQuire q f).collector.reports = s.collector.reports ++ [r] ∧ r.severity = sev ∧ r.checker = c ∧ r.quire = some q ∧ r.element = el ∧ r.cause = cause ∧ r.injected = inj := by
  obtain ⟨a, b, hfx, ha, hb⟩ := h
  exact s.onQuire_report q f a b sev c el cause d inj hfx ha hb

end

/-! ### An uncorrectable error (R468, R500) -/

/-- What an uncorrectable error of a line counts and records. -/
structure W.Errors (w v : W) (line : Nat) : Prop where
  counts : w.q.Counts v.q
  counted : Counted 1 (w.q.liveReg (rk 0x11 0x204)) (v.q.liveReg (rk 0x11 0x204))
  shows : v.q.liveReg (rk 0x11 0x238) = BitVec.ofNat 32 line
  others : ∀ k, k ≠ rk 0x11 0x204 → k ≠ rk 0x11 0x238 → v.q.liveReg k = w.q.liveReg k
  tells : w.Quiet → v.Tells .alert 0x18 0xFF 0 line false

theorem W.lineError_errors (w : W) (line : Nat) : w.Errors (w.lineError line) line where
  counts := (w.bump_counts (rk 0x11 0x204) 1).trans rfl
  counted := by
    have hset : (w.lineError line).q.liveReg (rk 0x11 0x204) = (w.bump (rk 0x11 0x204)).q.liveReg (rk 0x11 0x204) := Quire.liveReg_setLive_other _ _ (by decide)
    rw [hset]
    exact w.bump_counted _ 1
  shows := rget_rput_same ..
  others k h h' := by
    have hset : (w.lineError line).q.liveReg k = (w.bump (rk 0x11 0x204)).q.liveReg k := Quire.liveReg_setLive_other _ _ h'
    rw [hset, w.bump_liveReg_other 1 h]
  tells h := (W.Quiet.upd (h.bump _ 1) _).report ..

/-- A further step that leaves the counters of the channel's errors keeps what an error has counted. -/
theorem W.Errors.upd {w v : W} {line : Nat} (h : w.Errors v line) (f : Quire → Quire) (hlive : ∀ x, (f x).live = x.live) :
    Counted 1 (w.q.liveReg (rk 0x11 0x204)) ((v.upd f).q.liveReg (rk 0x11 0x204)) ∧ (v.upd f).q.liveReg (rk 0x11 0x238) = BitVec.ofNat 32 line := by
  have hreg : ∀ k, (v.upd f).q.liveReg k = v.q.liveReg k := fun k => by rw [W.upd_q, Quire.liveReg, hlive, Quire.liveReg]
  rw [hreg, hreg]
  exact ⟨h.counted, h.shows⟩

theorem Dram.onSpare_idle (d : Dram) (line : Nat) (h : d.migrating = false) : d.onSpare line = false := by
  rw [Dram.onSpare, h, Bool.false_and, Bool.false_and]

theorem W.uncorrectable_active (w : W) (line : Nat) (h : w.q.dram.onSpare line = false) :
    w.uncorrectable line = (w.lineError line).upd fun q => { q with dram := q.dram.startMigration (lineLogical line) false } := by
  have hspare : (w.lineError line).q.dram.onSpare line = false := by
    rw [(w.lineError_errors line).counts]
    exact h
  rw [W.uncorrectable, if_neg (by rw [hspare]; exact Bool.false_ne_true)]

theorem Dram.startMigration_migrating (d : Dram) (k : Nat) (inj : Bool) (h : d.migrating = false) : (d.startMigration k inj).migrating = d.spareOk := by
  rw [Dram.startMigration, h]
  cases hs : d.spareOk
  · exact h
  · rfl

/-- What starting a migration leaves of the channel. -/
theorem Dram.startMigration_keeps (d : Dram) (k : Nat) (inj : Bool) :
    (d.startMigration k inj).issued = d.issued ∧ (d.startMigration k inj).poison = d.poison ∧ (d.startMigration k inj).mem = d.mem ∧ (d.startMigration k inj).lastOther = d.lastOther := by
  unfold Dram.startMigration
  split
  · exact ⟨rfl, rfl, rfl, rfl⟩
  · exact ⟨rfl, rfl, rfl, rfl⟩

theorem Dram.startMigration_busy (d : Dram) (k : Nat) (inj : Bool) (h : d.migrating = true) : d.startMigration k inj = d := by
  rw [Dram.startMigration, h, Bool.not_true, Bool.and_false]
  rfl

theorem Dram.mem_poisonLine (d : Dram) (line l : Nat) : l ∈ (d.poisonLine line).poison ↔ l = line ∨ l ∈ d.poison := by
  have hinsert : ∀ p : List Nat, l ∈ insertBy (· < ·) line p ↔ l = line ∨ l ∈ p := fun p => by
    induction p with
    | nil => simp [insertBy]
    | cons a p ih =>
      rw [insertBy]
      split
      · rw [List.mem_cons]
      · rw [List.mem_cons, ih, List.mem_cons]
        tauto
  rw [Dram.poisonLine]
  dsimp only
  split
  next h => exact ⟨.inr, fun hl => hl.elim (fun hl => hl ▸ List.contains_iff_mem.mp h) id⟩
  next => exact hinsert d.poison

/-! ### Reading a line (R464, R465, R495, R496) -/

section
variable (w : W) (line : Nat) (r : LineRead) (hinj : injecting 0x18 0 w.q.injections = false)
include hinj

theorem W.readLine_good (hr : lineOutcome r = .good) (hp : line ∉ w.q.dram.poison) : w.readLine line r = (false, w) := by
  have hc : w.q.dram.poison.contains line = false := by simpa using hp
  simp only [W.readLine, w.check_none _ _ hinj, hr, hc, decide_false, Bool.or_self, Bool.false_eq_true, if_false, reduceCtorEq]

theorem W.readLine_poisoned (hr : lineOutcome r = .good) (hp : line ∈ w.q.dram.poison) : w.readLine line r = (true, w.bump (rk 0x11 0x208)) := by
  have hc : w.q.dram.poison.contains line = true := by simpa using hp
  simp only [W.readLine, w.check_none _ _ hinj, hr, hc, decide_false, Bool.or_self, Bool.false_eq_true, if_false, reduceCtorEq, if_true]

theorem W.readLine_corrected (hr : lineOutcome r = .corrected) (hp : line ∉ w.q.dram.poison) : w.readLine line r = (false, w.bump (rk 0x11 0x200)) := by
  have hc : (w.bump (rk 0x11 0x200)).q.dram.poison.contains line = false := by
    rw [w.bump_counts (rk 0x11 0x200) 1]
    simpa using hp
  simp only [W.readLine, w.check_none _ _ hinj, hr, hc, decide_false, Bool.or_self, Bool.false_eq_true, if_false, reduceCtorEq, if_true]

theorem W.readLine_bad (hr : lineOutcome r = .uncorrectable) :
    w.readLine line r = (true, ((w.uncorrectable line).upd fun q => { q with dram := q.dram.poisonLine line }).bump (rk 0x11 0x208)) := by
  simp only [W.readLine, w.check_none _ _ hinj, hr, decide_true, Bool.or_true, if_true]

end

/-- A line lost from the rank that it is stored in: its error, the migration that it starts, and its poison. -/
theorem W.readLine_lost (w : W) (line : Nat) (r : LineRead) (hinj : injecting 0x18 0 w.q.injections = false) (hr : lineOutcome r = .uncorrectable) (h : w.q.dram.onSpare line = false) :
    w.readLine line r = (true, ((w.lineError line).upd fun y => { y with dram := (y.dram.startMigration (lineLogical line) false).poisonLine line }).bump (rk 0x11 0x208)) := by
  rw [w.readLine_bad line r hinj hr, w.uncorrectable_active line h]
  generalize w.lineError line = v
  rfl

theorem lineOutcome_good {r : LineRead} (h : r.wrong.val = 0) : lineOutcome r = .good := if_pos h

theorem lineOutcome_corrected {r : LineRead} (h0 : 0 < r.wrong.val) (h : r.wrong.val ≤ 8 ∨ r.miscorrected = true) : lineOutcome r = .corrected := by
  rw [lineOutcome, if_neg (by omega), if_pos (by simpa using h)]

theorem lineOutcome_bad {r : LineRead} (h : 8 < r.wrong.val) (hm : r.miscorrected = false) : lineOutcome r = .uncorrectable := by
  rw [lineOutcome, if_neg (by omega), if_neg (by simpa [hm] using h)]

/-! ### The reader of a poisoned line (R497 to R499) -/

/-- What the reader of a poisoned line is marked with. -/
def Quire.Tainted (r : DramReq) (x y : Quire) : Prop :=
  (r.port ≠ .scratch → (∀ it ∈ x.store ++ x.ready, it.kind = .pattern → it.seq = r.seq → { it with poisoned := true } ∈ y.store ++ y.ready)
    ∧ (noSeq ≤ r.seq → r.seq < tableSeq 0 → (r.sig, r.seq - noSeq) ∈ y.seq.landingBad)
    ∧ ∀ sl ∈ x.slots, sl.seq = r.seq ∨ tableSeq sl.seq = r.seq → { sl with poisoned := true } ∈ y.slots)
  ∧ (r.port = .scratch → y.derivation = x.derivation.map fun v => { v with todo := [], failed := some (v.failed.getD r.sig) })

/-- The quire that the reader of a poisoned line leaves. -/
def Quire.taint (r : DramReq) (x : Quire) : Quire := if r.port = .scratch then (x.poisonSigs r.line).failDerived r.sig else (x.poisonSigs r.line).poisonChunk r.sig r.seq

theorem W.poisonedRead_eq (w : W) (r : DramReq) : w.poisonedRead r = w.upd (Quire.taint r) := rfl

theorem Quire.tainted_taint (r : DramReq) (x : Quire) : x.Tainted r (x.taint r) := by
  unfold Quire.taint
  refine ⟨fun hp => ?_, fun hp => ?_⟩
  · rw [if_neg hp]
    refine ⟨fun it hit hkind hseq => ?_, fun h1 h2 => ?_, fun sl hsl hseq => List.mem_map.mpr ⟨sl, hsl, if_pos hseq⟩⟩
    · rw [List.mem_append] at hit ⊢
      exact hit.imp (fun h => List.mem_map.mpr ⟨it, h, if_pos ⟨hkind, hseq⟩⟩) fun h => List.mem_map.mpr ⟨it, h, if_pos ⟨hkind, hseq⟩⟩
    · have hland : ((x.poisonSigs r.line).poisonChunk r.sig r.seq).seq = { x.seq with landingBad := x.seq.landingBad ++ [(r.sig, r.seq - noSeq)] } := if_pos ⟨h1, h2⟩
      rw [hland]
      exact List.mem_append_right _ List.mem_cons_self
  · rw [if_pos hp]
    rfl

@[simp] theorem Quire.taint_dram (r : DramReq) (x : Quire) : (x.taint r).dram = x.dram := by
  unfold Quire.taint
  split <;> rfl

@[simp] theorem Quire.taint_liveReg (r : DramReq) (x : Quire) (k : Nat) : (x.taint r).liveReg k = x.liveReg k := by
  unfold Quire.taint
  split <;> rfl

/-- The marks do not depend on the channel and the counters. -/
theorem Quire.Tainted.of_counts {r : DramReq} {x y z : Quire} {e : Dram} (h : z.Tainted r y) (hz : ({ x with dram := e } : Quire).Counts z) : x.Tainted r y := by
  unfold Quire.Tainted at *
  rw [hz] at h
  exact h

/-! ### Lines of free bytes (R464, R468) -/

/-- What a line of free bytes leaves: everything but its bytes. -/
theorem State.freeLine_shape (s : State) (q : QId) (line : Nat) : ∃ m f, s.freeLine q line = { s.setQuire q { s.quire q with dram := { (s.quire q).dram with mem := m } } with fresh := f }
    ∧ ∀ a, a < 64 * line ∨ 64 * line + 64 ≤ a → bget a m = bget a (s.quire q).dram.mem := by
  refine List.foldlRecOn (motive := fun t : State => ∃ m f, t = { s.setQuire q { s.quire q with dram := { (s.quire q).dram with mem := m } } with fresh := f }
    ∧ ∀ a, a < 64 * line ∨ 64 * line + 64 ≤ a → bget a m = bget a (s.quire q).dram.mem) _ _ ?_ ?_
  · exact ⟨(s.quire q).dram.mem, s.fresh, by rw [s.setQuire_quire], fun _ _ => rfl⟩
  · rintro t ⟨m, f, rfl, hm⟩ i hi
    have hi' : i < 16 := List.mem_range.mp hi
    refine ⟨bwrite (64 * line + 4 * i) (leW (Config.freeWord f)) m, f + 1, ?_, fun a ha => ?_⟩
    · generalize hx : ({ s.quire q with dram := { (s.quire q).dram with mem := m } } : Quire) = x
      have hset : ∀ g : Quire → Quire, (({ s.setQuire q x with fresh := f } : State).takeFree.2.modQuire q g) = { s.setQuire q (g x) with fresh := f + 1 } := fun g => by
        change ({ (s.setQuire q x).setQuire q (g ((s.setQuire q x).quire q)) with fresh := f + 1 } : State) = _
        rw [State.quire_setQuire_same, State.setQuire_setQuire]
      refine (hset _).trans ?_
      rw [← hx]
      rfl
    · rw [bget_bwrite_other _ _ _ _ (by rw [leW, length_le]; omega)]
      exact hm a ha

/-- What a line of free bytes leaves, as its quire and the others show it. -/
theorem State.freeLine_keeps (s : State) (q : QId) (line : Nat) :
    (∃ m, (s.freeLine q line).quire q = { s.quire q with dram := { (s.quire q).dram with mem := m } } ∧ ∀ a, a < 64 * line ∨ 64 * line + 64 ≤ a → bget a m = bget a (s.quire q).dram.mem)
      ∧ (∀ q', q' ≠ q → (s.freeLine q line).quire q' = s.quire q') ∧ (s.freeLine q line).collector = s.collector := by
  obtain ⟨m, f, h, hm⟩ := s.freeLine_shape q line
  rw [h]
  exact ⟨⟨m, State.quire_setQuire_same .., hm⟩, fun q' hq' => State.quire_setQuire_other _ _ _ _ hq', rfl⟩

/-! ### Returned reads (R464 to R468, R474) -/

/-- The oldest read has returned, and is counted where it is late (R474). -/
def W.arrived (w : W) (r : DramReq) : W :=
  let v := w.upd fun q => { q with dram := { q.dram with issued := q.dram.issued.erase r } }
  if r.port = .fetch ∧ (r.critical = true ∨ r.age + w.q.latencyTarget < w.q.dram.clock) then v.bump (rk 0x11 0x22C) else v

theorem W.dramRead_eq (w : W) (outcome : LineRead) {r : DramReq} (h : w.q.dram.nextRead = some r) :
    w.dramRead outcome = if ((w.arrived r).readLine r.line outcome).1 then ((w.arrived r).readLine r.line outcome).2.poisonedRead r else ((w.arrived r).readLine r.line outcome).2 := by
  have harrived : w.arrived r = if (r.port = .fetch && (r.critical || decide (r.age + w.q.latencyTarget < w.q.dram.clock))) = true
      then (w.upd fun q => { q with dram := { q.dram with issued := dropFirst (fun x : DramReq => decide (x = r)) q.dram.issued } }).bump (rk 0x11 0x22C)
      else w.upd fun q => { q with dram := { q.dram with issued := dropFirst (fun x : DramReq => decide (x = r)) q.dram.issued } } := by
    simp only [dropFirst_eq_erase, Bool.and_eq_true, Bool.or_eq_true, decide_eq_true_eq]
    rfl
  rw [harrived, W.dramRead, h]

theorem W.arrived_counts (w : W) (r : DramReq) : ({ w.q with dram := { w.q.dram with issued := w.q.dram.issued.erase r } } : Quire).Counts (w.arrived r).q := by
  unfold W.arrived
  dsimp only
  split
  · exact W.bump_counts (w.upd fun q => { q with dram := { q.dram with issued := q.dram.issued.erase r } }) (rk 0x11 0x22C) 1
  · exact .refl _

theorem W.arrived_quiet {w : W} (h : w.Quiet) (r : DramReq) : (w.arrived r).Quiet := .ite ((h.upd _).bump _ 1) (h.upd _)

theorem W.arrived_liveReg (w : W) (r : DramReq) {k : Nat} (h : k ≠ rk 0x11 0x22C) : (w.arrived r).q.liveReg k = w.q.liveReg k := by
  unfold W.arrived
  dsimp only
  split
  · rw [W.bump_liveReg_other _ 1 h]
    rfl
  · rfl

theorem W.arrived_ontime (w : W) (r : DramReq) (h : ¬(r.port = .fetch ∧ (r.critical = true ∨ r.age + w.q.latencyTarget < w.q.dram.clock))) :
    w.arrived r = w.upd fun q => { q with dram := { q.dram with issued := q.dram.issued.erase r } } := if_neg h

theorem W.arrived_late (w : W) (r : DramReq) (h : r.port = .fetch ∧ (r.critical = true ∨ r.age + w.q.latencyTarget < w.q.dram.clock)) :
    w.arrived r = (w.upd fun q => { q with dram := { q.dram with issued := q.dram.issued.erase r } }).bump (rk 0x11 0x22C) := if_pos h

section
variable (w : W) (outcome : LineRead) {r : DramReq} (hnext : w.q.dram.nextRead = some r) (hinj : injecting 0x18 0 w.q.injections = false)
include hnext hinj

omit hnext in
theorem W.arrived_injecting : injecting 0x18 0 (w.arrived r).q.injections = false := by
  rw [w.arrived_counts r]
  exact hinj

theorem W.dramRead_good (hr : lineOutcome outcome = .good) (hp : r.line ∉ w.q.dram.poison) : w.dramRead outcome = w.arrived r := by
  have hp' : r.line ∉ (w.arrived r).q.dram.poison := by rwa [w.arrived_counts r]
  rw [w.dramRead_eq outcome hnext, W.readLine_good _ _ _ (w.arrived_injecting hinj) hr hp', if_neg Bool.false_ne_true]

theorem W.dramRead_corrected (hr : lineOutcome outcome = .corrected) (hp : r.line ∉ w.q.dram.poison) : w.dramRead outcome = (w.arrived r).bump (rk 0x11 0x200) := by
  have hp' : r.line ∉ (w.arrived r).q.dram.poison := by rwa [w.arrived_counts r]
  rw [w.dramRead_eq outcome hnext, W.readLine_corrected _ _ _ (w.arrived_injecting hinj) hr hp', if_neg Bool.false_ne_true]

theorem W.dramRead_poisoned (hr : lineOutcome outcome = .good) (hp : r.line ∈ w.q.dram.poison) : w.dramRead outcome = ((w.arrived r).bump (rk 0x11 0x208)).upd (Quire.taint r) := by
  have hp' : r.line ∈ (w.arrived r).q.dram.poison := by rwa [w.arrived_counts r]
  rw [w.dramRead_eq outcome hnext, W.readLine_poisoned _ _ _ (w.arrived_injecting hinj) hr hp', if_pos rfl, W.poisonedRead_eq]

theorem W.dramRead_lost (hr : lineOutcome outcome = .uncorrectable) (hm : w.q.dram.migrating = false) :
    w.dramRead outcome = ((((w.arrived r).lineError r.line).upd fun y => { y with dram := (y.dram.startMigration (lineLogical r.line) false).poisonLine r.line }).bump (rk 0x11 0x208)).upd (Quire.taint r) := by
  have hidle : (w.arrived r).q.dram.migrating = false := by rwa [w.arrived_counts r]
  rw [w.dramRead_eq outcome hnext, W.readLine_lost _ _ _ (w.arrived_injecting hinj) hr (Dram.onSpare_idle _ r.line hidle), if_pos rfl, W.poisonedRead_eq]

end

section
variable {s : State} {q : QId} {outcome : LineRead} {r : DramReq} (hnext : (s.quire q).dram.nextRead = some r)
include hnext

/-- A read whose line is not miscorrected is a step of its quire. -/
theorem exec_dramRead (h : (s.quire q).miscorrects outcome = false) : exec (.dramRead q outcome) s = .next (s.onQuire q fun x => x.w.dramRead outcome) := by
  show execDramRead q outcome s = _
  simp only [execDramRead, hnext, h, Bool.false_eq_true, if_false]

theorem exec_dramRead_miscorrected (h : (s.quire q).miscorrects outcome = true) : exec (.dramRead q outcome) s = .next ((s.onQuire q fun x => x.w.dramRead outcome).freeLine q r.line) := by
  show execDramRead q outcome s = _
  simp only [execDramRead, hnext, h, if_true]

end

/-- What a failure behind an uncorrectable error counts: the error, and the line that comes back poisoned. -/
theorem W.failed_counts (v : W) (line : Nat) (f : Quire → Quire) (hlive : ∀ x, (f x).live = x.live) :
    let u := ((v.lineError line).upd f).bump (rk 0x11 0x208)
    Counted 1 (v.q.liveReg (rk 0x11 0x204)) (u.q.liveReg (rk 0x11 0x204)) ∧ Counted 1 (v.q.liveReg (rk 0x11 0x208)) (u.q.liveReg (rk 0x11 0x208))
      ∧ u.q.liveReg (rk 0x11 0x238) = BitVec.ofNat 32 line ∧ (v.Quiet → u.Tells .alert 0x18 0xFF 0 line false) ∧ (f (v.lineError line).q).Counts u.q := by
  intro u
  have herr := v.lineError_errors line
  obtain ⟨hcounted, hshows⟩ := herr.upd f hlive
  refine ⟨?_, ?_, ?_, fun hq => ((herr.tells hq).upd f).bump _ 1, W.bump_counts _ _ 1⟩
  · rwa [W.bump_liveReg_other _ 1 (by decide)]
  · have hcount := ((v.lineError line).upd f).bump_counted (rk 0x11 0x208) 1
    have hreg : ((v.lineError line).upd f).q.liveReg (rk 0x11 0x208) = v.q.liveReg (rk 0x11 0x208) := by
      rw [← herr.others (rk 0x11 0x208) (by decide) (by decide), W.upd_q, Quire.liveReg, hlive, Quire.liveReg]
    rwa [hreg] at hcount
  · rwa [W.bump_liveReg_other _ 1 (by decide)]

/-- A change of the channel commutes with counting. -/
theorem Quire.Counts.mapDram {x z : Quire} (h : x.Counts z) (g : Dram → Dram) : ({ x with dram := g x.dram } : Quire).Counts { z with dram := g z.dram } := by
  have hz := congrArg (fun y : Quire => ({ y with dram := g y.dram } : Quire)) h
  exact hz

/-- The step of a read that fails: the error is counted and reported, the channel takes what it makes of it, and the reader is marked. -/
theorem State.onQuire_lost (s : State) (q : QId) (f : Quire → W) (v : W) (r : DramReq) (e : Dram) (g : Dram → Dram)
    (hf : f (s.quire q) = (((v.lineError r.line).upd fun y => { y with dram := g y.dram }).bump (rk 0x11 0x208)).upd (Quire.taint r)) (hcounts : ({ s.quire q with dram := e } : Quire).Counts v.q)
    (hquiet : v.Quiet) (hreg : ∀ k, k ≠ rk 0x11 0x22C → v.q.liveReg k = (s.quire q).liveReg k) :
    s.Within (s.onQuire q f) q ∧ ((s.onQuire q f).quire q).dram = g e ∧ (∀ k ∈ [0x204, 0x208], s.CountsOne q (rk 0x11 k) (s.onQuire q f))
      ∧ ((s.onQuire q f).quire q).liveReg (rk 0x11 0x238) = BitVec.ofNat 32 r.line ∧ (s.quire q).Tainted r ((s.onQuire q f).quire q)
      ∧ (s.onQuire q f).collector.reports.length = s.collector.reports.length + 1 := by
  obtain ⟨h204, h208, h238, htells, hu⟩ := v.failed_counts r.line (fun y => { y with dram := g y.dram }) fun _ => rfl
  have herr := (v.lineError_errors r.line).counts
  generalize ((v.lineError r.line).upd fun y => { y with dram := g y.dram }).bump (rk 0x11 0x208) = u at *
  obtain ⟨hwithin, hquire, report, hreports, -⟩ := s.onQuire_tells q f (by rw [hf]; exact (htells hquiet).upd _)
  rw [hf, W.upd_q] at hquire
  have hud : ({ s.quire q with dram := g e } : Quire).Counts u.q := ((hcounts.trans herr).mapDram g).trans hu
  refine ⟨hwithin, ?_, fun k hk => ?_, ?_, ?_, ?_⟩
  · rw [hquire, Quire.taint_dram, hud]
  · simp only [State.CountsOne, hquire, Quire.taint_liveReg]
    rw [hreg _ (by decide)] at h204 h208
    obtain rfl | rfl : k = 0x204 ∨ k = 0x208 := by simpa using hk
    · exact h204
    · exact h208
  · rw [hquire, Quire.taint_liveReg, h238]
  · rw [hquire]
    exact (Quire.tainted_taint r u.q).of_counts hud
  · rw [hreports, List.length_append, List.length_singleton]

/-! ### Replays (R467) -/

/-- The replay of a command's own entry. -/
def DramReq.again (r z : DramReq) : DramReq := if z = r then { z with replays := z.replays + 1 } else z

theorem Dram.banksOf_again (d : Dram) (r z : DramReq) : d.banksOf (r.again z) = d.banksOf z := by
  unfold DramReq.again
  split <;> rfl

theorem Dram.banksOf_ne_nil (d : Dram) (r : DramReq) : d.banksOf r ≠ [] := by
  have h : d.ranksOf r ≠ [] := by
    unfold Dram.ranksOf
    repeat' split
    all_goals exact List.cons_ne_nil _ _
  exact fun hb => h (List.map_eq_nil_iff.mp hb)

/-- The commands that are replayed with `r` (R467). -/
def Dram.sameBanks (d : Dram) (r z : DramReq) : Bool := (d.banksOf z).any fun k => (d.banksOf r).contains k

theorem Dram.sameBanks_self (d : Dram) (r : DramReq) : d.sameBanks r r = true := by
  obtain ⟨b, hb⟩ := List.exists_mem_of_ne_nil _ (d.banksOf_ne_nil r)
  exact List.any_eq_true.mpr ⟨b, hb, List.contains_iff_mem.mpr hb⟩

theorem Dram.replay_issued (d : Dram) (r : DramReq) : d.replay r = { d with issued := d.issued.filter (fun z => !d.sameBanks r z) ++ (d.issued.filter (d.sameBanks r)).map r.again } := rfl

theorem Dram.replay_spec (d : Dram) (r : DramReq) (h : d.issued.getLast? = some r) : ∃ again, d.replay r = { d with issued := again } ∧ again.length = d.issued.length
    ∧ again.getLast? = some { r with replays := r.replays + 1 } ∧ (∀ z ∈ d.issued, z ≠ r → z ∈ again) ∧ again.filter (fun z => !d.sameBanks r z) <+: again := by
  refine ⟨_, d.replay_issued r, ?_, ?_, fun z hz hne => ?_, ?_⟩
  · rw [List.length_append, List.length_map, Nat.add_comm, ← List.length_append]
    exact (List.filter_append_perm (d.sameBanks r) d.issued).length_eq
  · obtain ⟨pre, hpre⟩ := List.getLast?_eq_some_iff.mp h
    rw [hpre, List.filter_append, List.filter_append, List.filter_cons_of_pos (d.sameBanks_self r), List.filter_nil, List.map_append, List.map_cons, List.map_nil, ← List.append_assoc, List.getLast?_concat]
    exact congrArg some (if_pos rfl)
  · cases hs : d.sameBanks r z with
    | false => exact List.mem_append_left _ (List.mem_filter.mpr ⟨hz, by rw [hs]; rfl⟩)
    | true => exact List.mem_append_right _ (List.mem_map.mpr ⟨z, List.mem_filter.mpr ⟨hz, hs⟩, if_neg hne⟩)
  · have hagain : ∀ z, d.sameBanks r (r.again z) = d.sameBanks r z := fun z => by rw [Dram.sameBanks, d.banksOf_again, Dram.sameBanks]
    have hnone : ((d.issued.filter (d.sameBanks r)).map r.again).filter (fun z => !d.sameBanks r z) = [] := by
      refine List.filter_eq_nil_iff.mpr fun z hz => ?_
      obtain ⟨y, hy, rfl⟩ := List.mem_map.mp hz
      rw [hagain, (List.mem_filter.mp hy).2]
      exact Bool.false_ne_true
    rw [List.filter_append, hnone, List.filter_filter, List.append_nil]
    simp only [Bool.and_self]
    exact List.prefix_append _ _

/-! ### Failures of writes and commands (R468) -/

theorem W.failReq_active (w : W) (r : DramReq) (h : w.q.dram.onSpare r.line = false) :
    w.failReq r = ((w.upd fun q => { q with dram := { q.dram with issued := q.dram.issued.erase r } }).lineError r.line).upd fun q => { q with dram := q.dram.startMigration (lineLogical r.line) false } := by
  have herase : w.failReq r = (w.upd fun q => { q with dram := { q.dram with issued := q.dram.issued.erase r } }).uncorrectable r.line := by
    rw [W.failReq]
    simp only [dropFirst_eq_erase]
  exact herase.trans (W.uncorrectable_active _ _ h)

/-- The step of a write that fails: the error is counted and reported, and the channel takes what it makes of it. -/
theorem State.onQuire_failed (s : State) (q : QId) (f : Quire → W) (v : W) (line : Nat) (e : Dram) (g : Dram → Dram) (hf : f (s.quire q) = (v.lineError line).upd fun y => { y with dram := g y.dram })
    (hcounts : ({ s.quire q with dram := e } : Quire).Counts v.q) (hquiet : v.Quiet) (hreg : v.q.liveReg (rk 0x11 0x204) = (s.quire q).liveReg (rk 0x11 0x204)) :
    s.Within (s.onQuire q f) q ∧ ({ s.quire q with dram := g e } : Quire).Counts ((s.onQuire q f).quire q) ∧ s.CountsOne q (rk 0x11 0x204) (s.onQuire q f)
      ∧ ((s.onQuire q f).quire q).liveReg (rk 0x11 0x238) = BitVec.ofNat 32 line ∧ (s.onQuire q f).collector.reports.length = s.collector.reports.length + 1 := by
  have herr := v.lineError_errors line
  obtain ⟨h204, h238⟩ := herr.upd (fun y => { y with dram := g y.dram }) fun _ => rfl
  obtain ⟨hwithin, hquire, report, hreports, -⟩ := s.onQuire_tells q f (by rw [hf]; exact (herr.tells hquiet).upd _)
  rw [hf] at hquire
  refine ⟨hwithin, ?_, ?_, ?_, ?_⟩
  · rw [hquire]
    exact (hcounts.trans herr.counts).mapDram g
  · rw [State.CountsOne, hquire, ← hreg]
    exact h204
  · rw [hquire]
    exact h238
  · rw [hreports, List.length_append, List.length_singleton]

/-! ### Retries of a write (R466, R468) -/

section
variable {s : State} {q : QId} {r : DramReq} (hwrite : (s.quire q).dram.issued.find? (·.write) = some r)
include hwrite

theorem exec_writeCrcAlert_retried (hr : r.retries < 3) : exec (.writeCrcAlert q) s = .next (s.onQuire q fun x => x.w.writeCrcAlert) := by
  show Host.Outcome.next (writeCrcAlert q s) = _
  simp only [writeCrcAlert, Quire.failingWrite, hwrite, hr, if_true]

theorem exec_writeCrcAlert_failed (hr : 3 ≤ r.retries) : exec (.writeCrcAlert q) s = .next ((s.onQuire q fun x => x.w.writeCrcAlert).freeLine q r.line) := by
  show Host.Outcome.next (writeCrcAlert q s) = _
  simp only [writeCrcAlert, Quire.failingWrite, hwrite, Nat.not_lt.mpr hr, if_false]

end

section
variable (w : W) {r : DramReq} (hwrite : w.q.dram.issued.find? (·.write) = some r)
include hwrite

theorem W.writeCrcAlert_retried (hr : r.retries < 3) :
    w.writeCrcAlert = (w.upd fun q => { q with dram := { q.dram with issued := q.dram.issued.map fun x => if x = r then { x with retries := x.retries + 1 } else x } }).bump (rk 0x11 0x210) := by
  simp only [W.writeCrcAlert, hwrite, hr, if_true]

theorem W.writeCrcAlert_failed (hr : 3 ≤ r.retries) : w.writeCrcAlert = w.failReq r := by
  simp only [W.writeCrcAlert, hwrite, Nat.not_lt.mpr hr, if_false]

end

/-! ### Replays of a command (R467, R468) -/

section
variable {s : State} {q : QId}

/-- A replayed command that is not a failed write is a step of its quire. -/
theorem exec_caParityAlert (h : (s.quire q).failingCommand = none) : exec (.caParityAlert q) s = .next (s.onQuire q fun x => x.w.caParityAlert) := by
  show Host.Outcome.next (caParityAlert q s) = _
  simp only [caParityAlert, h]

theorem exec_caParityAlert_failed {line : Nat} (h : (s.quire q).failingCommand = some line) : exec (.caParityAlert q) s = .next ((s.onQuire q fun x => x.w.caParityAlert).freeLine q line) := by
  show Host.Outcome.next (caParityAlert q s) = _
  simp only [caParityAlert, h]

end

section
variable (x : Quire) {r : DramReq} (hother : x.dram.lastOther = none) (hlast : x.dram.issued.getLast? = some r)
include hother hlast

theorem Quire.failingCommand_eq : x.failingCommand = if r.write && decide (3 ≤ r.replays) then some r.line else none := by
  simp only [Quire.failingCommand, hother, hlast]

theorem W.caParityAlert_replayed (fx : List Fx) (hr : r.replays < 3) : W.caParityAlert { q := x, fx := fx } = W.bump { q := { x with dram := x.dram.replay r }, fx := fx } (rk 0x11 0x214) := by
  simp only [W.caParityAlert, hother, hlast, hr, if_true]
  rfl

theorem W.caParityAlert_failed (fx : List Fx) (hr : 3 ≤ r.replays) :
    W.caParityAlert { q := x, fx := fx } = if r.write then W.failReq { q := x, fx := fx } r else (W.failReq { q := x, fx := fx } r).failedRead r := by
  simp only [W.caParityAlert, hother, hlast, Nat.not_lt.mpr hr, if_false]

end

/-- A read that fails for good returns its line poisoned to its reader (R468, R496). -/
theorem W.failedRead_reader (w : W) (r : DramReq) (h : r.port ≠ .migration) : w.failedRead r = (w.bump (rk 0x11 0x208)).upd (Quire.taint r) := if_pos h

/-- A copy that fails for good goes to the spare with the poison code (R501). -/
theorem W.failedRead_copy (w : W) (r : DramReq) {spare : Fin 3} (h : r.port = .migration) (hm : w.q.dram.migrating = true) (hs : w.q.dram.spare = some spare) :
    w.failedRead r = ((w.bump (rk 0x11 0x208)).upd fun q => { q.poisonSigs r.line with dram := q.dram.poisonLine r.line }).copied spare := by
  have hbump : (w.bump (rk 0x11 0x208)).q.dram = w.q.dram := by rw [w.bump_counts (rk 0x11 0x208) 1]
  rw [W.failedRead]
  dsimp only
  rw [if_neg (not_not_intro h), hbump, hm, hs]

/-- A step that asks for entries of the log, for the free bits of the line of a failed refresh, and for its report (R500). -/
theorem State.onQuire_lineReport (s : State) (q : QId) (f : Quire → W) (fx : List Fx) (h : (f (s.quire q)).fx = fx ++ [.freeBits (rk 0x11 0x238) 0xFFFFFFFF, .lineReport]) (hfx : ∀ x ∈ fx, x.logs = true) :
    (∀ q', q' ≠ q → (s.onQuire q f).quire q' = s.quire q') ∧ (s.onQuire q f).collector.reports.length = s.collector.reports.length + 1
      ∧ ∀ k, k ≠ rk 0x11 0x238 → ((s.onQuire q f).quire q).liveReg k = (f (s.quire q)).q.liveReg k := by
  obtain ⟨g, c, hlogs⟩ := State.runFxs_logs q fx (s.setQuire q (f (s.quire q)).q) hfx
  have ht : s.onQuire q f = State.runFx q (State.runFx q (fx.foldl (State.runFx q) (s.setQuire q (f (s.quire q)).q)) (.freeBits (rk 0x11 0x238) 0xFFFFFFFF)) .lineReport := by
    rw [State.onQuire, h, List.foldl_append]
    rfl
  rw [ht, hlogs]
  generalize hx : (f (s.quire q)).q = x
  generalize hu : ({ s.setQuire q x with log := g, collector := { (s.setQuire q x).collector with satPages := c } } : State) = u
  have hquire : ∀ q', u.quire q' = (s.setQuire q x).quire q' := fun q' => by
    rw [← hu]
    rfl
  have hreports : u.collector.reports = s.collector.reports := by
    rw [← hu]
    rfl
  let bits := fun y : Quire => y.setLive (rk 0x11 0x238) ((y.liveReg (rk 0x11 0x238) &&& ~~~0xFFFFFFFF) ||| (u.takeFree.1 &&& 0xFFFFFFFF))
  refine ⟨fun q' hq' => ?_, ?_, fun k hk => ?_⟩
  · calc (u.takeFree.2.modQuire q bits).quire q' = u.quire q' := State.quire_modQuire_other _ _ _ _ hq'
      _ = s.quire q' := (hquire q').trans (State.quire_setQuire_other _ _ _ _ hq')
  · rw [← hreports]
    exact List.length_append
  · have hself : (u.takeFree.2.modQuire q bits).quire q = bits (u.quire q) := State.quire_modQuire_same ..
    calc ((u.takeFree.2.modQuire q bits).quire q).liveReg k = (bits (u.quire q)).liveReg k := by rw [hself]
      _ = (u.quire q).liveReg k := Quire.liveReg_setLive_other _ _ hk
      _ = x.liveReg k := by rw [hquire, State.quire_setQuire_same]

/-- The migration that a failed refresh of a rank starts (R500). -/
def Dram.refreshFailed (d : Dram) (rank : Nat) : Dram :=
  if d.physL0 = rank then d.startMigration 0 false else if d.physL1 = rank then d.startMigration 1 false else d

theorem Dram.refreshFailed_keeps (d : Dram) (rank : Nat) (h : d.migrating = false) :
    (d.refreshFailed rank).lastOther = d.lastOther ∧ (d.refreshFailed rank).migrating = (d.spareOk && (d.physL0 = rank || d.physL1 = rank)) := by
  unfold Dram.refreshFailed
  split_ifs with h0 h1
  · rw [(d.startMigration_keeps 0 false).2.2.2, d.startMigration_migrating 0 false h]
    simp [h0]
  · rw [(d.startMigration_keeps 1 false).2.2.2, d.startMigration_migrating 1 false h]
    simp [h1]
  · rw [h]
    simp [h0, h1]

theorem W.failedRefresh_idle (w : W) (rank : Nat) (hspare : ∀ k, w.q.dram.spare = some k → k.val ≠ rank) :
    w.failedRefresh rank = { q := { (w.bump (rk 0x11 0x204)).q with dram := ({ w.q.dram with lastOther := none } : Dram).refreshFailed rank },
                             fx := (w.bump (rk 0x11 0x204)).fx ++ [.freeBits (rk 0x11 0x238) 0xFFFFFFFF, .lineReport] } := by
  have hdram : (w.bump (rk 0x11 0x204)).q.dram = w.q.dram := by rw [w.bump_counts (rk 0x11 0x204) 1]
  have hno : ¬w.q.dram.spare.map (·.val) = some rank := fun h => by
    obtain ⟨k, hk, hv⟩ := Option.map_eq_some_iff.mp h
    exact hspare k hk hv
  rw [W.failedRefresh, ← hdram]
  rw [← hdram] at hno
  generalize w.bump (rk 0x11 0x204) = b at hno
  refine (if_neg hno).trans ?_
  simp only [W.upd, W.ask, List.append_assoc, List.cons_append, List.nil_append]
  rfl

/-! ### Copies of a migration (R501 to R504) -/

/-- A line has been copied, and the next copy is asked for (R501). -/
def Dram.nextCopy (d : Dram) : Dram := { d with migrateNext := d.migrateNext + 1 }.askCopy

theorem Dram.nextCopy_eq (d : Dram) : ∃ ask : DramReq, d.nextCopy = { d with migrateNext := d.migrateNext + 1, queue := d.queue ++ [ask] } ∧ ask.port = .migration ∧ ask.write = false
    ∧ ask.line = (2 * ((d.migrateNext + 1) / 4096) + d.migrateRank) * 4096 + (d.migrateNext + 1) % 4096 := ⟨_, rfl, rfl, rfl, rfl⟩

theorem Quire.liveReg_dram (x : Quire) (e : Dram) (k : Nat) : ({ x with dram := e } : Quire).liveReg k = x.liveReg k := rfl

theorem W.copied_next (w : W) (spare : Fin 3) (h : w.q.dram.migrateNext + 1 < w.q.dram.rows * 4096) : w.copied spare = w.upd fun q => { q with dram := q.dram.nextCopy } :=
  if_neg (Nat.not_le.mpr h)

/-- The line of a copy that failed for good is in the spare with the poison code (R501). -/
def Quire.copyPoisoned (line : Nat) (x : Quire) : Quire := { x.poisonSigs line with dram := x.dram.poisonLine line }

theorem Quire.copyPoisoned_liveReg (line : Nat) (x : Quire) (k : Nat) : (x.copyPoisoned line).liveReg k = x.liveReg k := rfl

theorem W.failedCopy_next (w : W) (r : DramReq) {spare : Fin 3} (h : r.port = .migration) (hm : w.q.dram.migrating = true) (hs : w.q.dram.spare = some spare) (hleft : w.q.dram.migrateNext + 1 < w.q.dram.rows * 4096) :
    w.failedRead r = ((w.bump (rk 0x11 0x208)).upd (Quire.copyPoisoned r.line)).upd fun q => { q with dram := q.dram.nextCopy } := by
  have hbump : (w.bump (rk 0x11 0x208)).q.dram = w.q.dram := by rw [w.bump_counts (rk 0x11 0x208) 1]
  rw [← hbump] at hleft
  exact (w.failedRead_copy r h hm hs).trans (W.copied_next ((w.bump (rk 0x11 0x208)).upd (Quire.copyPoisoned r.line)) spare hleft)

/-- An uncorrectable error while a migration goes on, in a line that is not copied yet, starts none. -/
theorem W.failReq_busy (w : W) (r : DramReq) (h : w.q.dram.onSpare r.line = false) (hm : w.q.dram.migrating = true) :
    w.failReq r = (w.upd fun q => { q with dram := { q.dram with issued := q.dram.issued.erase r } }).lineError r.line := by
  have hself : ∀ (v : W) (g : Dram → Dram), g v.q.dram = v.q.dram → (v.upd fun y => { y with dram := g y.dram }) = v := fun v g hg =>
    congrArg (fun e => ({ q := { v.q with dram := e }, fx := v.fx } : W)) hg
  refine (w.failReq_active r h).trans (hself _ _ (Dram.startMigration_busy _ _ _ ?_))
  rw [(W.lineError_errors (w.upd fun q => { q with dram := { q.dram with issued := q.dram.issued.erase r } }) r.line).counts]
  exact hm

section
variable (w : W) {r : DramReq} {spare : Fin 3} (hm : w.q.dram.migrating = true) (hs : w.q.dram.spare = some spare)
include hm hs

theorem W.abandonMigration_eq (inj : Bool) :
    w.abandonMigration inj = (w.upd fun q => { q with dram := { q.dram.dropCopies with migrating := false, spareOk := false, ranks := q.dram.ranks.set spare .failed } }).log 0x15 7 (packW [(4, 1), (0, spare.val)]) 0 0 inj := by
  rw [W.abandonMigration, hm, hs]

end

/-- The copy that the controller had issued has ended. -/
def Dram.copyEnded (d : Dram) (r : DramReq) : Dram := { d with issued := d.issued.erase r }

theorem W.migrationCopy_good (w : W) (outcome : LineRead) (failed : Bool) {r : DramReq} {spare : Fin 3} (hinj : injecting 0x18 0 w.q.injections = false) (hc : w.q.dram.copying = some r) (hs : w.q.dram.spare = some spare)
    (hr : lineOutcome outcome = .good) (hp : r.line ∉ w.q.dram.poison) :
    w.migrationCopy outcome failed = if failed then ((w.upd fun q => { q with dram := q.dram.copyEnded r }).lineError r.line).abandonMigration false
      else (w.upd fun q => { q with dram := q.dram.copyEnded r }).copied spare := by
  have hread := (w.upd fun q => { q with dram := q.dram.copyEnded r }).readLine_good r.line outcome hinj hr hp
  have herase : (w.upd fun q => { q with dram := { q.dram with issued := dropFirst (fun x : DramReq => decide (x = r)) q.dram.issued } }) = w.upd fun q => { q with dram := q.dram.copyEnded r } := by
    simp only [dropFirst_eq_erase, Dram.copyEnded]
  rw [W.migrationCopy, hc, hs]
  dsimp only
  rw [herase, hread, if_neg Bool.false_ne_true]

/-- The channel once the last line of the failing rank is in the spare (R503). -/
def Dram.migrated (d : Dram) (spare : Fin 3) (old : Nat) : Dram :=
  { d.dropCopies with
    migrating := false, spareOk := false, ranks := if h : old < 3 then (d.ranks.set spare .active).set old .retired else d.ranks.set spare .active
    physL0 := if d.migrateRank = 0 then spare.val else d.physL0, physL1 := if d.migrateRank = 0 then d.physL1 else spare.val }

theorem W.migrationDone_eq (w : W) (spare : Fin 3) :
    w.migrationDone spare = (w.upd fun q => { q with dram := w.q.dram.migrated spare (w.q.dram.physOf w.q.dram.migrateRank) }).log 0x15 7 (packW [(0, w.q.dram.physOf w.q.dram.migrateRank)]) 0 0 w.q.dram.migrateInjected := rfl

theorem Dram.migrated_ranks (d : Dram) (spare : Fin 3) {old : Nat} (h : old < 3) (hne : old ≠ spare.val) :
    (d.migrated spare old).ranks[spare] = .active ∧ (d.migrated spare old).ranks.toList[old]? = some .retired := by
  have hranks : (d.migrated spare old).ranks = (d.ranks.set spare .active).set old .retired := dif_pos h
  rw [hranks]
  refine ⟨?_, ?_⟩
  · exact (Vector.getElem_set_ne h spare.isLt hne).trans (Vector.getElem_set_self _)
  · rw [Vector.getElem?_toList, Vector.getElem?_eq_getElem h, Vector.getElem_set_self]

theorem exec_migrationCopy {s : State} {q : QId} {outcome : LineRead} {failed : Bool} {r : DramReq} (hc : (s.quire q).dram.copying = some r) (h : (s.quire q).miscorrects outcome = false) :
    exec (.migrationCopy q outcome failed) s = .next (s.onQuire q fun x => x.w.migrationCopy outcome failed) := by
  show execMigrationCopy q outcome failed s = _
  simp only [execMigrationCopy, hc, h, Bool.false_eq_true, if_false]

theorem W.copied_last (w : W) (spare : Fin 3) (h : w.q.dram.migrateNext + 1 = w.q.dram.rows * 4096) : w.copied spare = (w.upd fun q => { q with dram := { q.dram with migrateNext := q.dram.migrateNext + 1 } }).migrationDone spare :=
  if_pos h.ge

end Sys2Proof.Machine

namespace Sys2Proof.Proofs
open Sys2Proof.Machine

/-- Settles O23: a returned read by what its line's code says, a failed write or command by its retries, a copy by whether lines are left. -/
theorem dramErrors : Obligations.DramErrors := by
  unfold Obligations.DramErrors
  intro s q outcome r x d wrong gone late one tainted outside hinj
  have hmis : wrong = 0 → x.miscorrects outcome = false := fun h => by
    rw [Quire.miscorrects, decide_eq_false (Nat.not_lt.mpr (h.trans_le (Nat.zero_le 8)) : ¬8 < outcome.wrong.val), Bool.and_false, Bool.false_and]
  refine ⟨fun hnext => ?_, fun hnext => ⟨fun hre => ?_, fun hre hm => ?_⟩, fun hother hlast => ⟨fun hre => ?_, fun hre hrd hport hm => ?_, fun hre hrd hport hm hsp hon hleft => ?_, fun hre hwr hm => ?_⟩,
    fun rank n hother => ⟨fun hre => ?_, fun hre hm hsp => ?_⟩, fun spare hm hcopy hs hgood hp => ⟨fun hi => ?_, fun hi hold hne => ?_, ?_⟩⟩
  · have hnr : x.w.q.dram.nextRead = some r := hnext
    have hnr' : (s.quire q).dram.nextRead = some r := hnext
    have hsmall : wrong ≤ 8 → x.miscorrects outcome = false := fun h => by
      rw [Quire.miscorrects, decide_eq_false (Nat.not_lt.mpr h : ¬8 < outcome.wrong.val), Bool.and_false, Bool.false_and]
    have hcounts : ({ x with dram := gone } : Quire).Counts (x.w.arrived r).q := x.w.arrived_counts r
    have hquiet : (x.w.arrived r).Quiet := W.arrived_quiet x.w_quiet r
    have hreg : ∀ k, k ≠ rk 0x11 0x22C → (x.w.arrived r).q.liveReg k = x.liveReg k := fun k hk => x.w.arrived_liveReg r hk
    refine ⟨fun hw hp hl => ?_, fun hw hw' hp hl => ?_, fun hw hp hl => ?_, fun hw hp => ?_, fun hw hmis hm => ?_, fun hw hmis hp => ?_⟩
    · exact s.exec_setQuire _ q _ _ (exec_dramRead hnr (hsmall (by omega))) ((x.w.dramRead_good outcome hnr hinj (lineOutcome_good hw) hp).trans (x.w.arrived_ontime r hl))
    · have hread := (x.w.dramRead_corrected outcome hnr hinj (lineOutcome_corrected hw (.inl hw')) hp).trans (congrArg (fun v => W.bump v (rk 0x11 0x200)) (x.w.arrived_ontime r hl))
      obtain ⟨t, hexec, hwithin, hc, h1⟩ := s.makes_bump _ q _ _ _ (exec_dramRead hnr (hsmall hw')) hread rfl
      exact ⟨t, hexec, hwithin, hc, by simpa [one] using h1⟩
    · have hread := (x.w.dramRead_good outcome hnr hinj (lineOutcome_good hw) hp).trans (x.w.arrived_late r hl)
      obtain ⟨t, hexec, hwithin, hc, h1⟩ := s.makes_bump _ q _ _ _ (exec_dramRead hnr (hsmall (by omega))) hread rfl
      exact ⟨t, hexec, hwithin, hc, by simpa [one] using h1⟩
    · have hread : (s.quire q).w.dramRead outcome = ((x.w.arrived r).bump (rk 0x11 0x208)).upd (Quire.taint r) := x.w.dramRead_poisoned outcome hnr hinj (lineOutcome_good hw) hp
      obtain ⟨hwithin, hquire⟩ := s.onQuire_within q (fun x => x.w.dramRead outcome) (by rw [hread]; exact (hquiet.bump _ 1).upd _)
      rw [hread, W.upd_q] at hquire
      have hbump := hcounts.trans ((x.w.arrived r).bump_counts (rk 0x11 0x208) 1)
      have hcount := (x.w.arrived r).bump_counted (rk 0x11 0x208) 1
      rw [hreg _ (by decide)] at hcount
      refine ⟨_, exec_dramRead hnr (hsmall (by omega)), hwithin, ?_, ?_, ?_⟩
      · rw [hquire, Quire.taint_dram, hbump]
      · simp only [one, List.mem_singleton, forall_eq, State.CountsOne]
        rw [hquire, Quire.taint_liveReg]
        exact hcount
      · rw [hquire]
        exact (Quire.tainted_taint r _).of_counts hbump
    · obtain ⟨hwithin, hdram, hone, hshown, htaint, hreports⟩ := s.onQuire_lost q (fun x => x.w.dramRead outcome) (x.w.arrived r) r gone (fun e => (e.startMigration (lineLogical r.line) false).poisonLine r.line)
        (x.w.dramRead_lost outcome hnr hinj (lineOutcome_bad hw hmis) hm) hcounts hquiet hreg
      obtain ⟨hissued, hpoison, -⟩ := gone.startMigration_keeps (lineLogical r.line) false
      refine ⟨_, exec_dramRead hnr ?_, hwithin, hone, hshown, fun l => ?_, ?_, htaint, ?_, hreports⟩
      · rw [Quire.miscorrects, hmis, Bool.false_and, Bool.false_and]
      · rw [hdram, Dram.mem_poisonLine, hpoison]
      · rw [hdram]
        exact hissued
      · rw [hdram]
        exact gone.startMigration_migrating _ _ hm
    · have hread : (s.quire q).w.dramRead outcome = (x.w.arrived r).bump (rk 0x11 0x200) := x.w.dramRead_corrected outcome hnr hinj (lineOutcome_corrected (by omega) (.inr hmis)) hp
      obtain ⟨hwithin, hreports, hquire⟩ := s.onQuire_logs q (fun x => x.w.dramRead outcome) (by rw [hread]; exact hquiet.bump _ 1)
      have hmc : x.miscorrects outcome = true := by
        rw [Quire.miscorrects, hmis, hinj, decide_eq_true (show 8 < outcome.wrong.val from hw)]
        rfl
      have hbump := hcounts.trans ((x.w.arrived r).bump_counts (rk 0x11 0x200) 1)
      have hcount := (x.w.arrived r).bump_counted (rk 0x11 0x200) 1
      rw [hreg _ (by decide), ← hread, ← hquire] at hcount
      rw [← hread, ← hquire] at hbump
      obtain ⟨⟨m, hfreed, hmem⟩, hthere, hcollector⟩ := (s.onQuire q fun x => x.w.dramRead outcome).freeLine_keeps q r.line
      refine ⟨_, exec_dramRead_miscorrected hnr hmc, ?_, ⟨fun a ha => ?_, fun q' hq' => (hthere q' hq').trans (hwithin.1 q' hq')⟩, ?_, ?_, by rw [hcollector]; exact hreports⟩
      · simp only [one, List.mem_singleton, forall_eq, State.CountsOne]
        rw [hfreed]
        exact hcount
      · rw [hfreed]
        exact (hmem a ha).trans (by rw [hbump])
      · rw [hfreed, hbump]
      · rw [hfreed, hbump]
  · obtain ⟨t, hexec, hwithin, hc, h1⟩ := s.makes_bump _ q _ _ _ (exec_writeCrcAlert_retried hnext hre) (x.w.writeCrcAlert_retried hnext hre) rfl
    exact ⟨t, hexec, hwithin, hc, by simpa [one] using h1⟩
  · obtain ⟨hwithin, hcounts, h204, h238, hreports⟩ := s.onQuire_failed q (fun x => x.w.writeCrcAlert) ({ x with dram := gone } : Quire).w r.line gone (fun e => e.startMigration (lineLogical r.line) false)
      ((x.w.writeCrcAlert_failed hnext hre).trans (x.w.failReq_active r (d.onSpare_idle r.line hm))) (.refl _) (Quire.w_quiet _) rfl
    obtain ⟨hissued, -, hmem', -⟩ := gone.startMigration_keeps (lineLogical r.line) false
    obtain ⟨⟨m, hfreed, hmem⟩, hthere, hcollector⟩ := (s.onQuire q fun x => x.w.writeCrcAlert).freeLine_keeps q r.line
    refine ⟨_, exec_writeCrcAlert_failed hnext hre, ?_, ?_, ?_, ⟨fun a ha => ?_, fun q' hq' => (hthere q' hq').trans (hwithin.1 q' hq')⟩, by rw [hcollector]; exact hreports⟩
    · rw [hfreed, hcounts]
      exact hissued
    · simp only [one, List.mem_singleton, forall_eq, State.CountsOne]
      rw [hfreed]
      exact h204
    · rw [hfreed]
      exact h238
    · rw [hfreed]
      refine (hmem a ha).trans ?_
      rw [hcounts]
      exact congrArg (bget a) hmem'
  · obtain ⟨again, hagain, hlen, hend, hmem, hpre⟩ := d.replay_spec r hlast
    have hnone : (s.quire q).failingCommand = none := by
      rw [Quire.failingCommand_eq _ hother hlast, decide_eq_false (Nat.not_le.mpr hre), Bool.and_false]
      rfl
    have hw : x.w.caParityAlert = ({ x with dram := { d with issued := again } } : Quire).w.bump (rk 0x11 0x214) := by
      rw [← hagain]
      exact W.caParityAlert_replayed x hother hlast [] hre
    obtain ⟨t, hexec, hwithin, hc, h1⟩ := s.makes_bump _ q _ _ _ (exec_caParityAlert hnone) hw rfl
    exact ⟨again, ⟨t, hexec, hwithin, hc, by simpa [one] using h1⟩, hlen, hend, hmem, hpre⟩
  · have hnone : (s.quire q).failingCommand = none := by
      rw [Quire.failingCommand_eq _ hother hlast, hrd]
      rfl
    have hw : x.w.caParityAlert = ((((({ x with dram := gone } : Quire).w).lineError r.line).upd fun y => { y with dram := y.dram.startMigration (lineLogical r.line) false }).bump (rk 0x11 0x208)).upd (Quire.taint r) := by
      rw [show x.w.caParityAlert = _ from W.caParityAlert_failed x hother hlast [] hre, if_neg (by rw [hrd]; exact Bool.false_ne_true), W.failedRead_reader _ r hport, W.failReq_active _ r (d.onSpare_idle r.line hm)]
      rfl
    obtain ⟨hwithin, hdram, hone, hshown, htaint, hreports⟩ := s.onQuire_lost q (fun x => x.w.caParityAlert) _ r gone (fun e => e.startMigration (lineLogical r.line) false) hw (.refl _) (Quire.w_quiet _) fun _ _ => rfl
    refine ⟨_, exec_caParityAlert hnone, hwithin, ?_, hone, htaint, hreports⟩
    rw [hdram]
    exact (gone.startMigration_keeps (lineLogical r.line) false).1
  · obtain ⟨spare, hspare⟩ := Option.isSome_iff_exists.mp hsp
    have hnone : (s.quire q).failingCommand = none := by
      rw [Quire.failingCommand_eq _ hother hlast, hrd]
      rfl
    have herr := W.lineError_errors ({ x with dram := gone } : Quire).w r.line
    have hcounts := herr.counts
    have hw : x.w.caParityAlert = (((({ x with dram := gone } : Quire).w.lineError r.line).bump (rk 0x11 0x208)).upd (Quire.copyPoisoned r.line)).upd fun y => { y with dram := y.dram.nextCopy } := by
      rw [show x.w.caParityAlert = _ from W.caParityAlert_failed x hother hlast [] hre, if_neg (by rw [hrd]; exact Bool.false_ne_true), show W.failReq { q := x, fx := [] } r = _ from W.failReq_busy x.w r hon hm]
      refine W.failedCopy_next _ r (spare := spare) hport ?_ ?_ ?_
      · exact (congrArg (fun y : Quire => y.dram.migrating) hcounts).trans hm
      · exact (congrArg (fun y : Quire => y.dram.spare) hcounts).trans hspare
      · exact lt_of_eq_of_lt (congrArg (fun y : Quire => y.dram.migrateNext + 1) hcounts) (lt_of_lt_of_eq hleft (congrArg (fun y : Quire => y.dram.rows * 4096) hcounts).symm)
    obtain ⟨hwithin, hquire, report, hreports, -⟩ := s.onQuire_tells q (fun x => x.w.caParityAlert) (by rw [show (s.quire q).w.caParityAlert = _ from hw]; exact (((herr.tells (Quire.w_quiet _)).bump _ 1).upd _).upd _)
    rw [show (s.quire q).w.caParityAlert = _ from hw] at hquire
    have h204 := herr.counted
    have h208 := ((({ x with dram := gone } : Quire).w.lineError r.line).bump_counted (rk 0x11 0x208) 1)
    have h204' := (({ x with dram := gone } : Quire).w.lineError r.line).bump_liveReg_other (k := rk 0x11 0x208) (j := rk 0x11 0x204) 1 (by decide)
    rw [herr.others _ (by decide) (by decide)] at h208
    have hcounts' := hcounts.trans ((({ x with dram := gone } : Quire).w.lineError r.line).bump_counts (rk 0x11 0x208) 1)
    generalize (({ x with dram := gone } : Quire).w.lineError r.line).bump (rk 0x11 0x208) = u at *
    have hdram : ((s.onQuire q fun x => x.w.caParityAlert).quire q).dram = (gone.poisonLine r.line).nextCopy := by
      rw [hquire]
      exact congrArg (fun y : Quire => (y.dram.poisonLine r.line).nextCopy) hcounts'
    have hlive : ∀ k, ((s.onQuire q fun x => x.w.caParityAlert).quire q).liveReg k = u.q.liveReg k := fun k => by
      rw [hquire]
      exact (Quire.liveReg_dram _ _ k).trans (Quire.copyPoisoned_liveReg r.line u.q k)
    obtain ⟨ask, hnext, hask, -⟩ := (gone.poisonLine r.line).nextCopy_eq
    rw [hnext] at hdram
    refine ⟨_, _, exec_caParityAlert hnone, hwithin, hdram, fun l => gone.mem_poisonLine r.line l, hm, rfl, ⟨ask, rfl, hask⟩, fun k hk => ?_, by rw [hreports, List.length_append, List.length_singleton]⟩
    rw [State.CountsOne, hlive]
    obtain rfl | rfl : k = 0x204 ∨ k = 0x208 := by simpa using hk
    · rwa [← h204'] at h204
    · exact h208
  · have hsome : (s.quire q).failingCommand = some r.line := by
      rw [Quire.failingCommand_eq _ hother hlast, hwr, decide_eq_true hre]
      rfl
    have hw : x.w.caParityAlert = (({ x with dram := gone } : Quire).w.lineError r.line).upd fun y => { y with dram := y.dram.startMigration (lineLogical r.line) false } := by
      rw [show x.w.caParityAlert = _ from W.caParityAlert_failed x hother hlast [] hre, if_pos hwr, W.failReq_active _ r (d.onSpare_idle r.line hm)]
      rfl
    obtain ⟨hwithin, hcounts, h204, h238, hreports⟩ := s.onQuire_failed q (fun x => x.w.caParityAlert) _ r.line gone (fun e => e.startMigration (lineLogical r.line) false) hw (.refl _) (Quire.w_quiet _) rfl
    obtain ⟨hissued, -, hmem', -⟩ := gone.startMigration_keeps (lineLogical r.line) false
    obtain ⟨⟨m, hfreed, hmem⟩, hthere, hcollector⟩ := (s.onQuire q fun x => x.w.caParityAlert).freeLine_keeps q r.line
    refine ⟨_, exec_caParityAlert_failed hsome, ?_, ?_, ⟨fun a ha => ?_, fun q' hq' => (hthere q' hq').trans (hwithin.1 q' hq')⟩, by rw [hcollector]; exact hreports⟩
    · rw [hfreed, hcounts]
      exact hissued
    · simp only [one, List.mem_singleton, forall_eq, State.CountsOne]
      rw [hfreed]
      exact h204
    · rw [hfreed]
      refine (hmem a ha).trans ?_
      rw [hcounts]
      exact congrArg (bget a) hmem'
  · have hnone : (s.quire q).failingCommand = none := by
      rw [Quire.failingCommand, show (s.quire q).dram.lastOther = _ from hother]
    have hw : x.w.caParityAlert = ({ x with dram := { d with lastOther := some (rank, n + 1) } } : Quire).w.bump (rk 0x11 0x214) := by
      rw [W.caParityAlert, show x.w.q.dram.lastOther = _ from hother]
      exact if_pos hre
    obtain ⟨t, hexec, hwithin, hc, h1⟩ := s.makes_bump _ q _ _ _ (exec_caParityAlert hnone) hw rfl
    exact ⟨t, hexec, hwithin, hc, by simpa [one] using h1⟩
  · have hnone : (s.quire q).failingCommand = none := by
      rw [Quire.failingCommand, show (s.quire q).dram.lastOther = _ from hother]
    have hw : x.w.caParityAlert = x.w.failedRefresh rank := by
      rw [W.caParityAlert, show x.w.q.dram.lastOther = _ from hother]
      exact if_neg (Nat.not_lt.mpr hre)
    have hf := hw.trans (x.w.failedRefresh_idle rank hsp)
    obtain ⟨hthere, hreports, hreg⟩ := s.onQuire_lineReport q (fun x => x.w.caParityAlert) (x.w.bump (rk 0x11 0x204)).fx (congrArg W.fx hf) (x.bump_quiet _ 1)
    obtain ⟨hlast, hmig⟩ := ({ d with lastOther := none } : Dram).refreshFailed_keeps rank hm
    have hdram : ((s.onQuire q fun x => x.w.caParityAlert).quire q).dram = ({ d with lastOther := none } : Dram).refreshFailed rank := by
      rw [State.onQuire_quire_dram]
      exact congrArg (fun w : W => w.q.dram) hf
    refine ⟨_, exec_caParityAlert hnone, hthere, ?_, hreports, by rw [hdram, hlast], by rw [hdram, hmig]⟩
    simp only [one, List.mem_singleton, forall_eq, State.CountsOne]
    rw [hreg _ (by decide), show (s.quire q).w.caParityAlert = _ from hf]
    exact x.bump_counted _ 1
  · have hexec : exec (.migrationCopy q outcome false) s = .next (s.onQuire q fun x => x.w.migrationCopy outcome false) := exec_migrationCopy hcopy (hmis hgood)
    have hw := (x.w.migrationCopy_good outcome false hinj hcopy hs (lineOutcome_good hgood) hp).trans (W.copied_next (x.w.upd fun q => { q with dram := q.dram.copyEnded r }) spare hi)
    obtain ⟨ask, hnext, hask⟩ := (d.copyEnded r).nextCopy_eq
    exact ⟨ask, s.exec_setQuire _ q _ _ hexec (hw.trans (congrArg (fun e => ({ x with dram := e } : Quire).w) hnext)), hask⟩
  · have hexec : exec (.migrationCopy q outcome false) s = .next (s.onQuire q fun x => x.w.migrationCopy outcome false) := exec_migrationCopy hcopy (hmis hgood)
    have hw : (s.quire q).w.migrationCopy outcome false = _ := ((x.w.migrationCopy_good outcome false hinj hcopy hs (lineOutcome_good hgood) hp).trans (W.copied_last (x.w.upd fun q => { q with dram := q.dram.copyEnded r }) spare hi)).trans
      (W.migrationDone_eq ((x.w.upd fun q => { q with dram := q.dram.copyEnded r }).upd fun q => { q with dram := { q.dram with migrateNext := q.dram.migrateNext + 1 } }) spare)
    obtain ⟨hwithin, hquire⟩ := s.onQuire_within q (fun x => x.w.migrationCopy outcome false) (by rw [hw]; exact (((W.Quiet.upd x.w_quiet _).upd _).upd _).log _ _ _ _ _ _)
    rw [hw, W.log_q] at hquire
    have hend : ((s.onQuire q fun x => x.w.migrationCopy outcome false).quire q).dram = ({ d.copyEnded r with migrateNext := d.migrateNext + 1 } : Dram).migrated spare (d.physOf d.migrateRank) := by rw [hquire]; rfl
    obtain ⟨hact, hret⟩ := ({ d.copyEnded r with migrateNext := d.migrateNext + 1 } : Dram).migrated_ranks spare hold hne
    exact ⟨_, _, hexec, hwithin, hend, rfl, rfl, hact, hret, rfl, rfl, rfl⟩
  · have hexec : exec (.migrationCopy q outcome true) s = .next (s.onQuire q fun x => x.w.migrationCopy outcome true) := exec_migrationCopy hcopy (hmis hgood)
    have herr := W.lineError_errors (x.w.upd fun q => { q with dram := q.dram.copyEnded r }) r.line
    have hdram : ((x.w.upd fun q => { q with dram := q.dram.copyEnded r }).lineError r.line).q.dram = d.copyEnded r := congrArg (fun y : Quire => y.dram) herr.counts
    have hw : (s.quire q).w.migrationCopy outcome true = _ := (x.w.migrationCopy_good outcome true hinj hcopy hs (lineOutcome_good hgood) hp).trans
      (W.abandonMigration_eq ((x.w.upd fun q => { q with dram := q.dram.copyEnded r }).lineError r.line) (spare := spare) (by rw [hdram]; exact hm) (by rw [hdram]; exact hs) false)
    obtain ⟨hwithin, hquire, -⟩ := s.onQuire_tells q (fun x => x.w.migrationCopy outcome true) (by rw [hw]; exact ((herr.tells (W.Quiet.upd x.w_quiet _)).upd _).log _ _ _ _ _ _)
    rw [hw, W.log_q] at hquire
    have h204 := herr.counted
    have h238 := herr.shows
    have hcounts := herr.counts
    generalize (x.w.upd fun q => { q with dram := q.dram.copyEnded r }).lineError r.line = u at *
    have hlive : ∀ k, ((s.onQuire q fun x => x.w.migrationCopy outcome true).quire q).liveReg k = u.q.liveReg k := fun k => by
      rw [hquire]
      rfl
    have hend : ((s.onQuire q fun x => x.w.migrationCopy outcome true).quire q).dram = { (d.copyEnded r).dropCopies with migrating := false, spareOk := false, ranks := d.ranks.set spare .failed } := by
      rw [hquire]
      exact congrArg (fun e : Dram => ({ e.dropCopies with migrating := false, spareOk := false, ranks := e.ranks.set spare .failed } : Dram)) hdram
    refine ⟨_, _, hexec, hwithin, hend, rfl, rfl, Vector.getElem_set_self _, ?_, (hlive _).trans h238⟩
    simp only [one, List.mem_singleton, forall_eq, State.CountsOne]
    rw [hlive]
    exact h204

end Sys2Proof.Proofs
end

section
/-! Judging a clock source, and the restart of the timing domain (R645 to R647, R650, R653, R683, R865). -/

namespace Sys2Proof.Machine

/-! ### What these steps change besides -/

theorem State.settleRecords_shape (s : State) :
    ∃ a b qs, s.settleRecords = { s with collector := { s.collector with firstError := a, secondError := b }, quires := qs } := ⟨_, _, _, rfl⟩

/-- A condition of the chip that has ended. -/
theorem State.live_off (s : State) (c : Nat) : ∃ a b qs, s.live c false = { s with
    collector := { s.collector with real := s.collector.real &&& ~~~(BitVec.ofNat 9 (2 ^ c)), firstError := a, secondError := b }, quires := qs } := by
  rw [State.live, if_neg Bool.false_ne_true]
  exact State.settleRecords_shape _

theorem getLsbD_clear (v : BitVec 9) (c : Nat) (hc : c < 9) : (v &&& ~~~(BitVec.ofNat 9 (2 ^ c))).getLsbD c = false := by
  rw [BitVec.getLsbD_and, BitVec.getLsbD_not, BitVec.getLsbD_ofNat, Nat.testBit_two_pow_self]
  simp [hc]

theorem State.timeCause_shape (s : State) : ∃ qs, s.timeCause = { s with quires := qs } := by
  rw [State.timeCause]
  split
  · refine List.foldlRecOn (motive := fun t : State => ∃ qs, t = { s with quires := qs }) _ _ ⟨s.quires, rfl⟩ fun t ⟨qs, ht⟩ q _ => ?_
    rw [State.onQuire_quiet _ _ _ rfl, ht]
    exact ⟨_, rfl⟩
  · exact ⟨s.quires, rfl⟩

/-! ### Windows of a judgement -/

theorem Clock.within_xo (c : Clock) (w : WindowDrift) : c.within .xo w = true ↔ if c.recovered = .good then |w.other| ≤ 1000 else |w.lro| ≤ 1000000 := by
  by_cases h : c.recovered = .good <;> simp [Clock.within, h]

theorem Clock.within_recovered (c : Clock) (w : WindowDrift) : c.within .recovered w = true ↔ |w.other| ≤ 1000 := by simp [Clock.within]

theorem State.recJudged_iff (s : State) : s.recJudged = true ↔ bit (s.reg (rk 1 0)) 0 = true ∧ s.clock.xo = .good ∧ (s.lane (laneId (fld (s.reg (rk 1 0)) 16 4))).lock = true := by
  simp only [State.recJudged, State.recEn, State.refLane, Bool.and_eq_true, decide_eq_true_eq, and_assoc]
  exact and_congr_right fun _ => and_comm

section
variable {s : State} {w : WindowDrift}

theorem judgeWindow_xo_out (hboot : 2 ≤ s.boot.step) (hxo : s.clock.xo ≠ .good) (hw : ¬s.clock.within .xo w = true) :
    judgeWindow .xo w s = { s with clock := { s.clock with xoWindows := 0 } } := by
  simp [judgeWindow, hxo, hw, Nat.not_lt.mpr hboot]

theorem judgeWindow_xo_in (hboot : 2 ≤ s.boot.step) (hxo : s.clock.xo ≠ .good) (hw : s.clock.within .xo w = true) (hfew : s.clock.xoWindows < 2) :
    judgeWindow .xo w s = { s with clock := { s.clock with xoWindows := s.clock.xoWindows + 1 } } := by
  have hlt : s.clock.xoWindows + 1 < 3 := by omega
  simp [judgeWindow, hxo, hw, Nat.not_lt.mpr hboot, hlt]

theorem judgeWindow_xo_good (hboot : 2 ≤ s.boot.step) (hxo : s.clock.xo ≠ .good) (hw : s.clock.within .xo w = true) (hmany : 2 ≤ s.clock.xoWindows)
    (hidle : s.boot.step < 6 ∨ s.clock.domain ≠ .stopped) :
    judgeWindow .xo w s = { s with clock := { s.clock with xo := .good, xoWindows := 3, ctrlOnLro := false, xoArmed := true }, boot := { s.boot with xoGood := true } } := by
  have hlt : ¬s.clock.xoWindows + 1 < 3 := by omega
  have hno : ¬(6 ≤ s.boot.step ∧ s.clock.domain = .stopped) := fun h => hidle.elim (fun hs => by omega) fun hd => hd h.2
  simp [judgeWindow, hxo, hw, Nat.not_lt.mpr hboot, hlt, State.domainBooted, hno]

theorem judgeWindow_rec_out (hrec : s.clock.recovered = .judging) (hw : s.recJudged = false ∨ ¬s.clock.within .recovered w = true) :
    judgeWindow .recovered w s = { s with clock := { s.clock with recWindows := 0 } } := by
  simp only [judgeWindow, hrec, ne_eq, not_true_eq_false, if_false, if_pos (show (!s.recJudged || !s.clock.within .recovered w) = true by simpa using hw)]

theorem judgeWindow_rec_in (hrec : s.clock.recovered = .judging) (hj : s.recJudged = true) (hw : s.clock.within .recovered w = true) (hfew : s.clock.recWindows < 2) :
    judgeWindow .recovered w s = { s with clock := { s.clock with recWindows := s.clock.recWindows + 1 } } := by
  have hlt : s.clock.recWindows + 1 < 3 := by omega
  simp [judgeWindow, hrec, hw, hj, hlt]

theorem judgeWindow_rec_good (hrec : s.clock.recovered = .judging) (hj : s.recJudged = true) (hw : s.clock.within .recovered w = true) (hmany : 2 ≤ s.clock.recWindows) :
    judgeWindow .recovered w s = { s with clock := { s.clock with recovered := .good, recWindows := 3 } }.live 0x04 false := by
  have hlt : ¬s.clock.recWindows + 1 < 3 := by omega
  simp [judgeWindow, hrec, hw, hj, hlt]

end

/-! ### The restart of the domain -/

/-- The lock of the PLL: the time it took, and the condition of the loss of lock over. -/
def State.relocked (s : State) (relockNs : Nat) : State := (s.setReg (rk 1 0x10) (BitVec.ofNat 32 relockNs)).live 0x05 false

/-- The domain runs on a source other than its last one. -/
def State.isSwitch (s : State) : Bool := !decide (s.clock.lastSrc = TimingSrc.none) && decide (s.clock.timingSrc ≠ s.clock.lastSrc)

/-- A completed switch to `src` is counted and logged. -/
def State.noteSwitch (s : State) (src : TimingSrc) : State :=
  (s.bump (rk 1 0x14)).log' 0x1A 10 (packW [(4, srcCode src)]) (s.reg (rk 1 0x0C)) 0 s.clock.stopInjected

/-- What a restart leaves of the chip before its time goes on. -/
structure State.Restarted (s t : State) (relockNs : Nat) : Prop where
  clock : t.clock = s.clock
  time : t.time = s.time
  ended : t.collector.real.getLsbD 5 = false
  relock : t.reg (rk 1 0x10) = BitVec.ofNat 32 relockNs
  sync : t.reg (rk 3 0) = s.reg (rk 3 0)
  switched : s.isSwitch = true → Counted 1 (s.reg (rk 1 0x14)) (t.reg (rk 1 0x14))
  same : s.isSwitch = false → t.reg (rk 1 0x14) = s.reg (rk 1 0x14)

theorem State.relocked_reg (s : State) (relockNs : Nat) : (s.relocked relockNs).reg (rk 1 0x10) = BitVec.ofNat 32 relockNs ∧ ∀ k ≠ rk 1 0x10, (s.relocked relockNs).reg k = s.reg k := by
  obtain ⟨_, _, _, h⟩ := (s.setReg (rk 1 0x10) (BitVec.ofNat 32 relockNs)).live_off 0x05
  rw [State.relocked, h]
  exact ⟨sget_sput_same _ _ _ _, fun k hk => sget_sput_other _ _ _ _ _ hk⟩

theorem State.relocked_keeps (s : State) (relockNs : Nat) :
    (s.relocked relockNs).clock = s.clock ∧ (s.relocked relockNs).time = s.time ∧ (s.relocked relockNs).collector.real.getLsbD 5 = false := by
  obtain ⟨_, _, _, h⟩ := (s.setReg (rk 1 0x10) (BitVec.ofNat 32 relockNs)).live_off 0x05
  rw [State.relocked, h]
  exact ⟨rfl, rfl, getLsbD_clear _ 5 (by decide)⟩

theorem State.restarted (s : State) (relockNs : Nat) : s.Restarted (if s.isSwitch then (s.relocked relockNs).noteSwitch s.clock.timingSrc else s.relocked relockNs) relockNs := by
  obtain ⟨hclock, htime, hreal⟩ := s.relocked_keeps relockNs
  obtain ⟨hlock, hother⟩ := s.relocked_reg relockNs
  have hcount := (s.relocked relockNs).bump_counted (rk 1 0x14) 1
  rw [hother _ (by decide)] at hcount
  split
  next hs =>
    obtain ⟨l, c, hlog⟩ : ∃ l c, (s.relocked relockNs).noteSwitch s.clock.timingSrc = { (s.relocked relockNs).bump (rk 1 0x14) with log := l, collector := { ((s.relocked relockNs).bump (rk 1 0x14)).collector with satPages := c } } :=
      State.logEvent_shape _ _
    obtain ⟨l', c', hbump⟩ := (s.relocked relockNs).bump_shape (rk 1 0x14) 1
    have hregs : ((s.relocked relockNs).noteSwitch s.clock.timingSrc).regs = ((s.relocked relockNs).bump (rk 1 0x14)).regs := by rw [hlog]
    have hread : ∀ k, ((s.relocked relockNs).noteSwitch s.clock.timingSrc).reg k = ((s.relocked relockNs).bump (rk 1 0x14)).reg k := fun k => by rw [State.reg, State.reg, hregs]
    refine ⟨by rw [hlog, hbump]; exact hclock, by rw [hlog, hbump]; exact htime, by rw [hlog, hbump]; exact hreal, ?_, ?_, fun _ => by rwa [hread], fun h => absurd (hs.symm.trans h) (by decide)⟩
    · rw [hread, State.bump_reg_other _ _ _ (by decide), hlock]
    · rw [hread, State.bump_reg_other _ _ _ (by decide), hother _ (by decide)]
  next hs => exact ⟨hclock, htime, hreal, hlock, hother _ (by decide), fun h => absurd h hs, fun _ => hother _ (by decide)⟩

/-- The domain runs on `src` from here on. -/
def State.runs (s : State) (src : TimingSrc) (stopNs : Nat) : State :=
  { s with
    clock := { s.clock with domain := .running, adoptedOnce := s.clock.adoptedOnce || decide (src = TimingSrc.recovered) }
    quires := s.quires.map fun (q : Quire) => { q with dram := { q.dram with clock := q.dram.clock + stopNs } } }

theorem timingRestart_eq (s : State) (relockNs stopNs : Nat) (h : s.clock.domain = .locking) :
    timingRestart relockNs stopNs s =
      let t := (if s.isSwitch then (s.relocked relockNs).noteSwitch s.clock.timingSrc else s.relocked relockNs).runs s.clock.timingSrc stopNs
      if s.clock.lastSrc = .none then { t with time := t.time.held stopNs } else t.restartTime stopNs := by
  rw [timingRestart, if_neg (not_not.mpr h)]
  dsimp only
  rw [← State.isSwitch, ← State.relocked, ← State.noteSwitch]
  by_cases hfirst : s.clock.lastSrc = .none
  · rw [if_pos (decide_eq_true hfirst), if_pos hfirst]
    rfl
  · rw [if_neg (by simpa using hfirst), if_neg hfirst]
    rfl

theorem State.isSwitch_iff (s : State) : s.isSwitch = true ↔ s.clock.lastSrc ≠ .none ∧ s.clock.timingSrc ≠ s.clock.lastSrc := by simp [State.isSwitch]

/-! ### Chip time at a restart -/

theorem Time.setTotal_total (t : Time) (v : Nat) : (t.setTotal v).total = v % 2 ^ 96 := by
  show 2 ^ 32 * (v / 2 ^ 32 % 2 ^ 64) + v % 2 ^ 32 = _
  omega

/-- Chip time waits to be set. -/
def Time.waitsSet (t : Time) : Bool := t.pending.any fun c => match c with | .adj _ => false | _ => true

theorem Time.waitsSet_iff (t : Time) : t.waitsSet = false ↔ ∀ x ∈ t.pending, ∃ i, x = TimeChange.adj i := by
  rw [Time.waitsSet, List.any_eq_false]
  refine forall₂_congr fun x _ => ?_
  cases x <;> simp

/-- What a restart leaves of chip time. -/
structure State.TimeGoesOn (s t : State) (stopNs : Nat) : Prop where
  clock : t.clock = s.clock
  real : t.collector.real = s.collector.real
  regs : t.regs = s.regs
  ticks : t.time.ticks = s.time.ticks + stopNs
  goesOn : stopNs ≤ 3 * fld (s.reg (rk 3 0)) 0 16 → s.time.waitsSet = false →
    2 ^ 32 * t.time.ns + t.time.frac = (2 ^ 32 * s.time.ns + s.time.frac + 2 ^ 32 * stopNs) % 2 ^ 96 ∧ t.time.valid = s.time.validBefore
  held : ¬stopNs ≤ 3 * fld (s.reg (rk 3 0)) 0 16 ∨ s.time.waitsSet = true → t.time.ns = s.time.ns ∧ t.time.valid = s.time.valid
  waits : ¬stopNs ≤ 3 * fld (s.reg (rk 3 0)) 0 16 → s.syncMode = 1 → t.time.syncState = .wait

theorem State.TimeGoesOn.timeCause {s t : State} {stopNs : Nat} (h : s.TimeGoesOn t stopNs) : s.TimeGoesOn t.timeCause stopNs := by
  obtain ⟨qs, hqs⟩ := t.timeCause_shape
  rw [hqs]
  exact ⟨h.clock, h.real, h.regs, h.ticks, h.goesOn, h.held, h.waits⟩

theorem State.TimeGoesOn.logStep {s t : State} {stopNs : Nat} (h : s.TimeGoesOn t stopNs) (step : Int) (injected : Bool) : s.TimeGoesOn (t.logStep step injected) stopNs := by
  obtain ⟨l, c, hlog⟩ : ∃ l c, t.logStep step injected = { t with log := l, collector := { t.collector with satPages := c } } := State.logEvent_shape _ _
  rw [hlog]
  exact ⟨h.clock, h.real, h.regs, h.ticks, h.goesOn, h.held, h.waits⟩

theorem State.restartTime_goesOn (s : State) (stopNs : Nat) : s.TimeGoesOn (s.restartTime stopNs) stopNs := by
  rw [State.restartTime]
  refine .timeCause ?_
  show s.TimeGoesOn (if stopNs ≤ 3 * fld (s.reg (rk 3 0)) 0 16 then if s.time.waitsSet = true then _ else _ else _) stopNs
  by_cases hshort : stopNs ≤ 3 * fld (s.reg (rk 3 0)) 0 16
  · rw [if_pos hshort]
    by_cases hw : s.time.waitsSet = true
    · rw [if_pos hw]
      exact ⟨rfl, rfl, rfl, rfl, fun _ h => absurd (hw.symm.trans h) (by decide), fun _ => ⟨rfl, rfl⟩, fun h => absurd hshort h⟩
    · rw [if_neg hw]
      refine .logStep ?_ _ _
      refine ⟨rfl, rfl, rfl, rfl, fun _ _ => ⟨Time.setTotal_total s.time (s.time.total + 2 ^ 32 * stopNs), rfl⟩, fun h => ?_, fun h => absurd hshort h⟩
      exact h.elim (absurd hshort) (absurd · hw)
  · rw [if_neg hshort]
    exact ⟨rfl, rfl, rfl, rfl, fun h => absurd h hshort, fun _ => ⟨rfl, rfl⟩, fun _ h => by simp [h]⟩

end Sys2Proof.Machine

namespace Sys2Proof.Proofs
open Sys2Proof.Machine

/-- Settles O29: the windows by the tests of `judgeWindow`, the restart by what it leaves before and after chip time goes on. -/
theorem clockJudgement : Obligations.ClockJudgement := by
  intro s w relock stopNs c xoIn recIn judged counted short rates
  have hxo : s.clock.within .xo w = true ↔ xoIn := s.clock.within_xo w
  have hrec : s.clock.within .recovered w = true ↔ recIn := s.clock.within_recovered w
  have hjudged : judged → c.recovered = .judging ∧ s.recJudged = true := fun ⟨h, h'⟩ => ⟨h, s.recJudged_iff.mpr h'⟩
  refine ⟨fun hb h hw => ?_, fun hb h hw hn => ?_, fun hb h hw hn hd => ?_, fun h hw => ?_, fun hj hw hn => ?_, fun hj hw hn => ?_, fun h => ?_, fun h => ?_⟩
  · exact congrArg Host.Outcome.next (judgeWindow_xo_out hb h (hxo.not.mpr hw))
  · exact congrArg Host.Outcome.next (judgeWindow_xo_in hb h (hxo.mpr hw) hn)
  · exact congrArg Host.Outcome.next (judgeWindow_xo_good hb h (hxo.mpr hw) hn hd)
  · refine congrArg Host.Outcome.next (judgeWindow_rec_out h (hw.imp (fun hj => ?_) hrec.not.mpr))
    rw [← Bool.not_eq_true]
    exact fun hr => hj ⟨h, s.recJudged_iff.mp hr⟩
  · exact congrArg Host.Outcome.next (judgeWindow_rec_in (hjudged hj).1 (hjudged hj).2 (hrec.mpr hw) hn)
  · refine ⟨_, congrArg Host.Outcome.next (judgeWindow_rec_good (hjudged hj).1 (hjudged hj).2 (hrec.mpr hw) hn), ?_⟩
    obtain ⟨a, b, qs, hlive⟩ := ({ s with clock := { s.clock with recovered := .good, recWindows := 3 } } : State).live_off 0x04
    rw [hlive]
    exact ⟨rfl, getLsbD_clear _ 4 (by decide), rfl⟩
  · exact congrArg Host.Outcome.next (if_pos h)
  · have r := s.restarted relock
    refine ⟨_, congrArg Host.Outcome.next (timingRestart_eq s relock stopNs h), ?_⟩
    dsimp only
    generalize (if s.isSwitch then (s.relocked relock).noteSwitch s.clock.timingSrc else s.relocked relock) = t at r
    have hclock : (t.runs s.clock.timingSrc stopNs).clock = { c with domain := .running, adoptedOnce := c.adoptedOnce || decide (c.timingSrc = .recovered) } := by
      rw [State.runs, r.clock]
    have hswitch : c.lastSrc ≠ .none → c.timingSrc ≠ c.lastSrc → Counted 1 (s.reg (rk 1 0x14)) (t.reg (rk 1 0x14)) := fun h1 h2 => r.switched (s.isSwitch_iff.mpr ⟨h1, h2⟩)
    have hsame : c.lastSrc = .none ∨ c.timingSrc = c.lastSrc → t.reg (rk 1 0x14) = s.reg (rk 1 0x14) := fun h1 =>
      r.same (by rw [← Bool.not_eq_true, s.isSwitch_iff]; exact fun ⟨h2, h3⟩ => h1.elim h2 h3)
    by_cases hfirst : s.clock.lastSrc = .none
    · rw [if_pos hfirst]
      refine ⟨hclock, r.relock, ?_, r.ended, hswitch, hsame, fun h => absurd hfirst h, fun _ => ?_, fun h => absurd hfirst h⟩
      · exact congrArg (·.ticks + stopNs) r.time
      · exact ⟨congrArg (·.ns) r.time, congrArg (·.valid) r.time⟩
    · rw [if_neg hfirst]
      have g := (t.runs s.clock.timingSrc stopNs).restartTime_goesOn stopNs
      have hreg : ∀ k, ((t.runs s.clock.timingSrc stopNs).restartTime stopNs).reg k = t.reg k := fun k => by rw [State.reg, g.regs]; rfl
      have hsync : (t.runs s.clock.timingSrc stopNs).reg (rk 3 0) = s.reg (rk 3 0) := r.sync
      have htime : (t.runs s.clock.timingSrc stopNs).time = s.time := r.time
      have hwaits : s.time.waitsSet = false ↔ rates := s.time.waitsSet_iff
      obtain ⟨gclock, greal, -, gticks, ggo, gheld, gwait⟩ := g
      rw [State.syncMode, hsync] at gwait
      rw [hsync, htime] at ggo gheld
      rw [hreg, hreg]
      refine ⟨gclock.trans hclock, r.relock, by rw [gticks, htime], by rw [greal]; exact r.ended, hswitch, hsame, fun _ hs hr => ggo hs (hwaits.mpr hr), fun hn => gheld ?_, fun _ => gwait⟩
      rcases hn with hn | hn | hn
      · exact absurd hn hfirst
      · exact .inl hn
      · exact .inr (by rw [← Bool.not_eq_false]; exact hwaits.not.mpr hn)

end Sys2Proof.Proofs
end

section
/-! What answers to commands and entries of the log may change of the chip, and the steps of a quire that ask for nothing else. -/

namespace Sys2Proof.Machine

/-- The chip `t` is `s` but for quires, START commands that wait, entries of the log, and the books of packets. -/
structure State.Answered (s t : State) : Prop where
  frame : t = { s with
    sent := t.sent, heldReplies := t.heldReplies, maskWaits := t.maskWaits, fresh := t.fresh, sessions := t.sessions, links := t.links, regs := t.regs, quires := t.quires
    gov := { s.gov with waiting := t.gov.waiting }, log := t.log, collector := { s.collector with satPages := t.collector.satPages } }
  regs : ∀ k, k < rk 8 0x104 ∨ rk 8 0x204 ≤ k → t.reg k = s.reg k

namespace State.Answered

variable {s t u : State}

theorem refl (s : State) : s.Answered s := ⟨rfl, fun _ _ => rfl⟩

theorem trans (h : s.Answered t) (h' : t.Answered u) : s.Answered u where
  frame := by
    have hu := h'.frame
    rw [h.frame] at hu
    exact hu
  regs k hk := (h'.regs k hk).trans (h.regs k hk)

theorem ite {c : Prop} [Decidable c] (h : s.Answered t) (h' : s.Answered u) : s.Answered (if c then t else u) := by
  split
  · exact h
  · exact h'

theorem each {α : Type} (l : List α) (f : State → α → State) (hf : ∀ v a, State.Answered v (f v a)) (s : State) : s.Answered (s.each l f) :=
  List.foldlRecOn (motive := s.Answered) l f (refl s) fun v hv a _ => hv.trans (hf v a)

theorem of_booked (h : s.Booked t) : s.Answered t where
  frame := by
    obtain ⟨ht, -, -⟩ := h
    rw [ht]
  regs k hk := h.2.2 k (by simp) hk

end State.Answered

section
variable (s : State)

theorem State.modQuire_answered (q : QId) (f : Quire → Quire) : s.Answered (s.modQuire q f) := ⟨rfl, fun _ _ => rfl⟩

theorem State.setQuire_answered (q : QId) (x : Quire) : s.Answered (s.setQuire q x) := ⟨rfl, fun _ _ => rfl⟩

theorem State.logEvent_answered (e : LogEvent) : s.Answered (s.logEvent e) := by
  obtain ⟨l, c, h⟩ := s.logEvent_shape e
  rw [h]
  exact ⟨rfl, fun _ _ => rfl⟩

theorem State.bump_answered {k : Nat} (n : Nat) (hk : rk 8 0x104 ≤ k) (hk' : k < rk 8 0x204) : s.Answered (s.bump k n) where
  frame := by
    obtain ⟨l, c, h⟩ := s.bump_shape k n
    rw [h]
  regs j hj := s.bump_reg_other k n (by omega)

theorem State.modSession_answered (k : LinkId) (f : Session → Session) : s.Answered (s.modSession k f) := ⟨rfl, fun _ _ => rfl⟩

theorem State.wire_answered (r : Reply) : s.Answered (s.wire r) := by
  have hbump : s.Answered (if 0x10 ≤ r.status.toNat then s.bump (rk 8 (0x110 + 0x20 * r.dest.link.val)) else s) :=
    .ite (s.bump_answered 1 (by simp only [rk]; omega) (by simp only [rk]; omega)) (.refl s)
  unfold State.wire
  dsimp only
  generalize (if 0x10 ≤ r.status.toNat then s.bump (rk 8 (0x110 + 0x20 * r.dest.link.val)) else s) = t at hbump
  exact .ite (hbump.trans ⟨rfl, fun _ _ => rfl⟩) hbump

theorem State.sendReply_answered (r : Reply) : s.Answered (s.sendReply r) := (s.modSession_answered _ _).trans (State.wire_answered _ r)

theorem State.answer_answered (r : Reply) : s.Answered (s.answer r) := .ite ⟨rfl, fun _ _ => rfl⟩ (s.sendReply_answered r)

theorem State.reply_answered (d : ReplyTo) (st : Byte) (dt : BitVec 16) (res : List Byte) : s.Answered (s.reply d st dt res) := .ite (s.answer_answered _) (.refl s)

theorem State.quireDone_answered (d : ReplyTo) (q : QId) (st : Byte) (dt : BitVec 16) (rc : List Byte) : s.Answered (s.quireDone d q st dt rc) := by
  unfold State.quireDone
  split
  · exact .refl s
  next w _ =>
    extract_lets w' rest
    refine .ite ?_ ⟨rfl, fun _ _ => rfl⟩
    exact .trans (t := { s with maskWaits := rest, quires := s.quires.map (Quire.unoccupy d) }) ⟨rfl, fun _ _ => rfl⟩ (State.reply_answered _ _ _ _ _)

theorem State.takeFree_answered : s.Answered s.takeFree.2 := ⟨rfl, fun _ _ => rfl⟩

end

/-- A request for anything but a report to the fault collector. -/
def Fx.unreported : Fx → Bool
  | .report .. | .lineReport => false
  | _ => true

theorem Fx.unreported_of_logs (x : Fx) (h : x.logs = true) : x.unreported = true := by
  cases x <;> simp_all [Fx.logs, Fx.unreported]

theorem State.runFx_answered (s : State) (q : QId) (x : Fx) (h : x.unreported = true) : s.Answered (State.runFx q s x) := by
  cases x with
  | log _ _ _ _ _ _ => exact s.logEvent_answered _
  | saturated _ => exact s.logEvent_answered _
  | report _ _ _ _ _ _ => exact absurd h (by simp [Fx.unreported])
  | lineReport => exact absurd h (by simp [Fx.unreported])
  | reply _ _ _ _ => exact s.reply_answered _ _ _ _
  | done _ _ _ => exact s.quireDone_answered _ _ _ _ _
  | freeBits _ _ => exact ⟨rfl, fun _ _ => rfl⟩
  | replyCollate _ _ _ _ => exact s.reply_answered _ _ _ _
  | replyLive _ _ _ _ => exact s.reply_answered _ _ _ _
  | delay _ => exact ⟨rfl, fun _ _ => rfl⟩

/-! ### Steps of a quire without a report -/

/-- The step reports nothing to the fault collector. -/
def W.Unreported (w : W) : Prop := ∀ x ∈ w.fx, x.unreported = true

theorem State.onQuire_answered (s : State) (q : QId) (f : Quire → W) (h : (f (s.quire q)).Unreported) : s.Answered (s.onQuire q f) :=
  List.foldlRecOn (motive := s.Answered) _ _ (s.setQuire_answered q _) fun t ht x hx => ht.trans (t.runFx_answered q x (h x hx))

theorem W.Quiet.unreported {w : W} (h : w.Quiet) : w.Unreported := fun x hx => x.unreported_of_logs (h x hx)

theorem Quire.w_unreported (x : Quire) : x.w.Unreported := x.w_quiet.unreported

namespace W.Unreported

variable {w : W}

theorem upd (h : w.Unreported) (f : Quire → Quire) : (w.upd f).Unreported := h

theorem setLive (h : w.Unreported) (k : Nat) (v : Word) : (w.setLive k v).Unreported := h

theorem ask (h : w.Unreported) {x : Fx} (hx : x.unreported = true) : (w.ask x).Unreported := fun y hy =>
  (List.mem_append.mp hy).elim (h y) fun hy => by rwa [List.mem_singleton.mp hy]

theorem reply (h : w.Unreported) (d : ReplyTo) (st : Byte) (dt : BitVec 16) (res : List Byte) : (w.reply d st dt res).Unreported := h.ask rfl

theorem done (h : w.Unreported) (d : ReplyTo) (st : Byte) (dt : BitVec 16) : (w.done d st dt).Unreported := h.ask rfl

theorem log (h : w.Unreported) (code : Byte) (source : Nat) (d0 d1 d2 : Word) (injected : Bool) : (w.log code source d0 d1 d2 injected).Unreported := h.ask rfl

theorem ite {c : Prop} [Decidable c] {v w : W} (hv : v.Unreported) (hw : w.Unreported) : (if c then v else w).Unreported := by
  split
  · exact hv
  · exact hw

theorem when (h : w.Unreported) (c : Bool) {f : W → W} (hf : (f w).Unreported) : (w.when c f).Unreported := ite hf h

theorem each {α : Type} (l : List α) (f : W → α → W) (hf : ∀ v a, W.Unreported v → (f v a).Unreported) (h : w.Unreported) : (w.each l f).Unreported :=
  List.foldlRecOn (motive := W.Unreported) l f h fun v hv a _ => hf v a hv

theorem bump (h : w.Unreported) (k n : Nat) : (w.bump k n).Unreported := by
  unfold W.bump
  extract_lets r v
  have hv : v.Unreported := h
  exact ite ((hv.upd _).ask rfl) hv

end W.Unreported

/-! ### The steps that leave a run, or end what a quire does for the host -/

section
variable {w : W}

theorem W.Unreported.endInst (h : w.Unreported) (c : Ctx) (id : Nat) : (w.endInst c id).Unreported := by
  unfold W.endInst
  split
  · exact h
  · extract_lets full i' v
    have hv : v.Unreported := h
    exact .ite (hv.bump _ _) (hv.upd _)

theorem W.Unreported.cutInsts (h : w.Unreported) (c : Ctx) (b : Nat) : (w.cutInsts c b).Unreported := .each _ _ (fun _ _ hv => hv.endInst c _) (.upd h _)

theorem W.Unreported.epAbort (h : w.Unreported) (cause : Nat) : (w.epAbort cause).Unreported := by
  have habort : (((w.upd fun q => { q with endpaper := { q.endpaper with phase := .idle, comparing := false, forced := false } }).bump (rk 0x04 0x11018)).setLive
      (rk 0x04 0x1101C) (BitVec.ofNat 32 cause)).Unreported := .setLive (.bump (.upd h _) _ _) _ _
  have hall := W.Unreported.ite (c := ((((w.upd fun q => { q with endpaper := { q.endpaper with phase := .idle, comparing := false, forced := false } }).bump
    (rk 0x04 0x11018)).setLive (rk 0x04 0x1101C) (BitVec.ofNat 32 cause)).q.retrim.isSome = true)) ((habort.upd fun q => { q with retrim := none }).bump (rk 0x18 0x8) 1) habort
  unfold W.epAbort
  split
  · exact hall
  · exact hall
  · exact hall
  · exact h

theorem W.Unreported.cancelPattern (h : w.Unreported) : w.cancelPattern.Unreported := W.Unreported.bump (w := w.upd Quire.patternGone) h _ _

theorem W.Unreported.abortSweep (h : w.Unreported) : w.abortSweep.Unreported := by
  have hclose : (w.upd Quire.closeSweep).Unreported := h
  unfold W.abortSweep
  dsimp only
  split
  · exact .ite hclose (hclose.bump _ _)
  · exact hclose

theorem W.Unreported.leaveRun (h : w.Unreported) : w.leaveRun.Unreported := h.cancelPattern.abortSweep

theorem W.Unreported.endWaiters (h : w.Unreported) (st : Byte) (dt : BitVec 16) : (w.endWaiters st dt).Unreported :=
  W.Unreported.each (w := w.upd fun q => { q with stopWaiters := [], stopReq := none }) _ _ (fun _ _ hv => hv.done _ _ _) h

theorem W.Unreported.endDerived (h : w.Unreported) : w.endDerived.Unreported := by
  unfold W.endDerived
  split
  · exact h
  next d _ =>
    extract_lets v n keep u
    have hu : u.Unreported := .ite h h
    exact .ite hu (hu.bump _ _)

theorem W.Unreported.endOccupier (h : w.Unreported) (st : Byte) (dt : BitVec 16) : (w.endOccupier st dt).Unreported := by
  unfold W.endOccupier
  extract_lets v
  split
  · exact h
  next o _ =>
    have hu : (v.upd fun q => { q with occupied := none }).endDerived.Unreported := W.Unreported.endDerived h
    cases o with
    | collate d => exact hu.reply _ _ _ _
    | selftest d _ => exact hu.reply _ _ _ _
    | loadCheck d => exact hu.reply _ _ _ _
    | settle d _ _ => exact .ite (hu.ask rfl) (hu.reply _ _ _ _)
    | arm d => exact hu.done _ _ _
    | rebind d => exact hu.done _ _ _
    | ended _ => exact hu

theorem W.Unreported.endArm (h : w.Unreported) : w.endArm.Unreported := by
  unfold W.endArm
  split
  · exact h.endOccupier _ _
  · exact h

theorem W.Unreported.resolveRun (h : w.Unreported) : w.resolveRun.Unreported := h

theorem W.Unreported.finishRebind (h : w.Unreported) : w.finishRebind.Unreported := by
  unfold W.finishRebind
  split
  next d _ => exact W.Unreported.done (w := (w.upd fun q => { q with occupied := some (.ended d) }).enterStaged) h d stOk 0
  next => exact h

theorem W.Unreported.tmuEnd (h : w.Unreported) (oz : Bool) (u : TmuId) (j : TmuJob) (cause : Nat) : (w.tmuEnd oz u j cause).Unreported := by
  unfold W.tmuEnd
  extract_lets base t set v1 v2 v3
  have h1 : v1.Unreported := List.foldlRecOn (motive := W.Unreported) _ _ h fun v hv _ _ => hv
  have h2 : v2.Unreported := .ite (List.foldlRecOn (motive := W.Unreported) _ _ h1 fun v hv _ _ => hv) h1
  have h3 : v3.Unreported := .ite h2 (.each _ _ (fun _ _ hv => hv.ask rfl) h2)
  exact W.Unreported.bump (w := v3.upd _) h3 _ _

theorem W.Unreported.tmuEndEarly (h : w.Unreported) (oz : Bool) (u : TmuId) (cause : Nat) (st : Byte) (dt : BitVec 16) (result : Bool) :
    (w.tmuEndEarly oz u cause st dt result).Unreported := by
  unfold W.tmuEndEarly
  split
  · exact h
  next j _ =>
    have hend := h.tmuEnd oz u j (if j.cause = 0 then cause else j.cause)
    dsimp only
    split
    · exact hend
    · exact hend.ask rfl

theorem W.Unreported.tmusEndEarly (h : w.Unreported) (oz : Bool) (cause : Nat) (st : Byte) (dt : BitVec 16) (result : Bool) :
    (w.tmusEndEarly oz cause st dt result).Unreported := .each _ _ (fun _ _ hv => hv.tmuEndEarly _ _ _ _ _ _) h

theorem W.Unreported.pmuEndEarly (h : w.Unreported) (st : Byte) (dt : BitVec 16) : (w.pmuEndEarly st dt).Unreported := by
  unfold W.pmuEndEarly
  split
  · exact h
  next j _ =>
    extract_lets v1 v2 v3
    have h3 : v3.Unreported := W.Unreported.ask (w := v2.setLive _ _) h rfl
    cases j.waiter with
    | none => exact h3
    | some d => exact h3.reply _ _ _ _

end

end Sys2Proof.Machine
end

section
/-! What stops the timing domain, and what a stop leaves (R647 to R658). -/

namespace Sys2Proof.Machine

/-! ### A quire when the timing clock is gated (R654) -/

theorem W.settles_setLive (w : W) {k : Nat} (hk : rk 0x02 0 ≤ k) (v : Word) : w.Settles (w.setLive k v) where
  frame := rfl
  ids := rfl
  quiet := id
  flow j hj := rget_rput_other _ _ _ _ (by omega)

theorem W.settles_epAbort (w : W) (cause : Nat) : w.Settles (w.epAbort cause) := by
  have habort : w.Settles (((w.upd fun q => { q with endpaper := { q.endpaper with phase := .idle, comparing := false, forced := false } }).bump (rk 0x04 0x11018)).setLive
      (rk 0x04 0x1101C) (BitVec.ofNat 32 cause)) :=
    ((w.settles_upd _ rfl).trans (W.settles_bump _ (by decide) _)).trans (W.settles_setLive _ (by decide) _)
  have hall := W.Settles.ite (c := (((w.upd fun q => { q with endpaper := { q.endpaper with phase := .idle, comparing := false, forced := false } }).bump
    (rk 0x04 0x11018)).setLive (rk 0x04 0x1101C) (BitVec.ofNat 32 cause)).q.retrim.isSome = true)
    ((habort.trans (W.settles_upd _ (fun q => { q with retrim := none }) rfl)).trans (W.settles_bump _ (k := rk 0x18 0x8) (by decide) 1)) habort
  unfold W.epAbort
  split
  · exact hall
  · exact hall
  · exact hall
  · exact .refl w

theorem W.settles_causeAll (w : W) (b : Nat) : w.Settles (w.causeAll b) :=
  w.settles_insts (fun i => { i with causes := i.causes ||| BitVec.ofNat 16 (2 ^ b) }) (fun _ => rfl) w.q.playedAt

/-- A run that the clock stops: like any other stop, but the endpaper gives up and every instance takes CLOCK. -/
theorem W.enterStopped_clock (w : W) (c : Ctx) : ∃ v, w.Settles v
    ∧ w.enterStopped c .clock = ((v.leaveRun.upd fun x => x.stopsBy c .clock w.q.state.inPlay (if w.q.state.inPlay then w.q.parkProfile w.q.seq.entry else 0) 0).endWaiters stOk 0).resolveRun :=
  ⟨_, (w.settles_epAbort 0x03).trans ((W.settles_causeAll _ cbClock).trans (W.settles_cutInsts _ c cbClock)), rfl⟩

theorem W.endWaiters_q (w : W) (st : Byte) (dt : BitVec 16) : (w.endWaiters st dt).q = { w.q with stopWaiters := [], stopReq := none } :=
  List.foldlRecOn (motive := fun v : W => v.q = { w.q with stopWaiters := [], stopReq := none }) _ _ rfl fun _ hv _ _ => hv

theorem Quire.stopsBy_state (x : Quire) (c : Ctx) (cause : StopCause) (b : Bool) (p due : Nat) :
    (x.stopsBy c cause b p due).state = .stopped ∧ (x.stopsBy c cause b p due).stopCause = cause ∧ (x.stopsBy c cause b p due).occupied = x.occupied := by
  refine ⟨rfl, rfl, ?_⟩
  cases b with
  | true =>
    obtain ⟨_, _, _, _, h⟩ := x.stopsBy_shape c cause p due
    rw [h]
  | false => rfl

theorem W.enterStopped_clock_state (w : W) (c : Ctx) :
    (w.enterStopped c .clock).q.state = .stopped ∧ (w.enterStopped c .clock).q.stopCause = .clock ∧ (w.enterStopped c .clock).q.occupied = w.q.occupied := by
  obtain ⟨v, hv, h⟩ := w.enterStopped_clock c
  rw [h]
  generalize hp : (if w.q.state.inPlay then w.q.parkProfile w.q.seq.entry else 0) = p
  obtain ⟨_, _, hres⟩ := ((v.leaveRun.upd fun x => x.stopsBy c .clock w.q.state.inPlay p 0).endWaiters stOk 0).resolveRun_shape
  obtain ⟨h1, h2, h3⟩ := v.leaveRun.q.stopsBy_state c .clock w.q.state.inPlay p 0
  have hocc : v.leaveRun.q.occupied = w.q.occupied := by rw [v.leaves_leaveRun.frame, hv.frame]
  rw [hres]
  dsimp only
  rw [W.endWaiters_q]
  exact ⟨h1, h2, h3.trans hocc⟩

theorem W.tmuEndEarly_shape (w : W) (oz : Bool) (u : TmuId) (cause : Nat) (st : Byte) (dt : BitVec 16) (result : Bool) :
    ∃ l m j, (w.tmuEndEarly oz u cause st dt result).q = { w.q with live := l, satPages := m, tmus := j } := by
  have hset : ∀ (f : Nat × Word → Nat) (ws : List (Nat × Word)) (v : W), ∃ l, (ws.foldl (fun (w : W) x => w.setLive (f x) x.2) v).q = { v.q with live := l } := fun f ws v =>
    List.foldlRecOn (motive := fun u : W => ∃ l, u.q = { v.q with live := l }) _ _ ⟨_, rfl⟩ fun u ⟨_, hu⟩ x _ => ⟨_, by rw [W.setLive, W.upd_q, Quire.setLive, hu]⟩
  unfold W.tmuEndEarly
  split
  · exact ⟨_, _, _, rfl⟩
  next j _ =>
    have hend : ∃ l m j', (w.tmuEnd oz u j (if j.cause = 0 then cause else j.cause)).q = { w.q with live := l, satPages := m, tmus := j' } := by
      generalize (if j.cause = 0 then cause else j.cause) = ended
      unfold W.tmuEnd
      extract_lets base tw set v1 v2 v3
      obtain ⟨_, h1⟩ : ∃ l, v1.q = { w.q with live := l } := hset _ _ _
      obtain ⟨_, h2⟩ : ∃ l, v2.q = { w.q with live := l } := by
        unfold v2
        split
        · obtain ⟨_, h⟩ := hset (fun x => rk 0x0E (base + x.1)) [(0x24, tw.1), (0x28, tw.2.1), (0x2C, tw.2.2)] v1
          exact ⟨_, h.trans (by rw [h1])⟩
        · exact ⟨_, h1⟩
      have h3 : v3.q = v2.q := by
        unfold v3
        split
        · rfl
        · exact List.foldlRecOn (motive := fun u : W => u.q = v2.q) _ _ rfl fun _ hu _ _ => hu
      have hbump := (v3.upd fun q => { q with tmus := q.tmus.set u none }).bump_counts (rk 0x0E (base + 0x30)) 1
      unfold Quire.Counts at hbump
      rw [hbump, W.upd_q, h3, h2]
      exact ⟨_, _, _, rfl⟩
    dsimp only
    cases j.waiter with
    | none => exact hend
    | some d => exact hend

theorem W.tmusEndEarly_shape (w : W) (oz : Bool) (cause : Nat) (st : Byte) (dt : BitVec 16) (result : Bool) :
    ∃ l m j, (w.tmusEndEarly oz cause st dt result).q = { w.q with live := l, satPages := m, tmus := j } :=
  List.foldlRecOn (motive := fun v : W => ∃ l m j, v.q = { w.q with live := l, satPages := m, tmus := j }) _ _ ⟨_, _, _, rfl⟩ fun v ⟨_, _, _, hv⟩ u _ => by
    obtain ⟨l, m, j, h⟩ := v.tmuEndEarly_shape oz u cause st dt result
    rw [h, hv]
    exact ⟨_, _, _, rfl⟩

/-! ### Quires beside each other -/

/-- The quire stands where it stood in its run, and is occupied as before or let go. -/
structure Quire.SameRun (x y : Quire) : Prop where
  state : y.state = x.state
  stopCause : y.stopCause = x.stopCause
  occupied : y.occupied = x.occupied ∨ y.occupied = none

theorem Quire.SameRun.refl (x : Quire) : x.SameRun x := ⟨rfl, rfl, .inl rfl⟩

theorem Quire.SameRun.trans {x y z : Quire} (h : x.SameRun y) (h' : y.SameRun z) : x.SameRun z where
  state := h'.state.trans h.state
  stopCause := h'.stopCause.trans h.stopCause
  occupied := h'.occupied.elim (fun h1 => h.occupied.imp h1.trans h1.trans) .inr

/-- A quire that no REBIND occupies is not occupied by one later. -/
theorem Quire.SameRun.noRebind {x y : Quire} (h : x.SameRun y) (hx : ∀ d, x.occupied ≠ some (.rebind d)) (d : ReplyTo) : y.occupied ≠ some (.rebind d) := by
  rcases h.occupied with h | h
  · rw [h]
    exact hx d
  · rw [h]
    exact nofun

theorem Quire.LetGo.sameRun {x y : Quire} (h : x.LetGo y) : x.SameRun y := by
  rcases h with rfl | ⟨_, _, rfl⟩
  · exact .refl _
  · exact ⟨rfl, rfl, .inr rfl⟩

theorem State.quireDone_sameRun (s : State) (d : ReplyTo) (q : QId) (st : Byte) (dt : BitVec 16) (rc : List Byte) (r : QId) : (s.quire r).SameRun ((s.quireDone d q st dt rc).quire r) := by
  unfold State.quireDone
  split
  · exact .refl _
  · dsimp only
    split
    · rw [State.reply_quire]
      simpa [State.quire] using (Quire.letGo_unoccupy d (s.quire r)).sameRun
    · exact .refl _

theorem State.runFx_sameRun (s : State) (q : QId) (x : Fx) (r : QId) : (s.quire r).SameRun ((State.runFx q s x).quire r) := by
  cases x with
  | done d st dt => exact s.quireDone_sameRun d q st dt [] r
  | freeBits k m =>
    rcases eq_or_ne r q with rfl | hr
    · simpa [State.runFx] using ⟨rfl, rfl, .inl rfl⟩
    · simpa [State.runFx, hr] using Quire.SameRun.refl _
  | delay it =>
    rcases eq_or_ne r q with rfl | hr
    · simpa [State.runFx] using ⟨rfl, rfl, .inl rfl⟩
    · simpa [State.runFx, hr] using Quire.SameRun.refl _
  | _ => simpa [State.runFx] using Quire.SameRun.refl _

/-- What a step of a quire makes of its own quire stands, but for its occupation. -/
theorem State.onQuire_sameRun (s : State) (q : QId) (f : Quire → W) : (f (s.quire q)).q.SameRun ((s.onQuire q f).quire q) := by
  refine List.foldlRecOn (motive := fun t : State => (f (s.quire q)).q.SameRun (t.quire q)) _ _ ?_ fun t ht x _ => ht.trans (t.runFx_sameRun q x q)
  rw [State.quire_setQuire_same]
  exact .refl _

theorem State.onQuire_sameRun_other (s : State) (q : QId) (f : Quire → W) {r : QId} (hr : r ≠ q) : (s.quire r).SameRun ((s.onQuire q f).quire r) := (s.onQuire_apart q f r hr).sameRun

theorem State.cancelStarts_sameRun (s : State) (q : QId) (st : Byte) (dt : BitVec 16) (r : QId) : (s.quire r).SameRun ((s.cancelStarts q st dt).quire r) := by
  refine List.foldlRecOn (motive := fun t : State => (s.quire r).SameRun (t.quire r)) _ _ (Quire.SameRun.refl _) fun t ht w _ => ?_
  rw [State.reply_quire]
  refine List.foldlRecOn (motive := fun t : State => (s.quire r).SameRun (t.quire r)) _ _ ht fun t ht g _ => ht.trans ?_
  rcases eq_or_ne r g with rfl | hr
  · rw [State.quire_modQuire_same]
    exact ⟨rfl, rfl, .inl rfl⟩
  · rw [State.quire_modQuire_other _ _ _ _ hr]
    exact .refl _

theorem State.cancelStarts_answered (s : State) (q : QId) (st : Byte) (dt : BitVec 16) : s.Answered (s.cancelStarts q st dt) :=
  List.foldlRecOn (motive := s.Answered) _ _ ⟨rfl, fun _ _ => rfl⟩ fun t ht w _ =>
    (ht.trans (.each (quiresOf w.newly) _ (fun u r => u.modQuire_answered r fun x => { x with reserved := false }) t)).trans (State.reply_answered _ _ _ _ _)

/-! ### The chip when the timing clock is gated -/


/-- The measurements that the stop of the domain ends early are logged. -/
def State.logMeasured (s : State) (q : QId) : State :=
  s.each ((List.finRange 8).filter fun u => (s.quire q).tmus[u].isSome) fun t u =>
    t.logEvent { code := 0x14, source := 6, quire := some q, injected := t.clock.stopInjected, exempt := false, d0 := BitVec.ofNat 32 u.val, d1 := 0, d2 := 0, at_ := none }

/-- The measurements of a quire end early. -/
def State.endMeasured (s : State) (q : QId) : State := (s.logMeasured q).onQuire q fun x => x.w.tmusEndEarly (s.logMeasured q).modeOz 0x6 stOk 0 true

theorem State.stopQuireClock_eq (s : State) (q : QId) : s.stopQuireClock q =
    if ((s.endMeasured q).quire q).state.inRun then ((s.endMeasured q).stopQuire q .clock).onQuire q fun x => x.w.finishRebind
    else (s.endMeasured q).onQuire q fun x => (x.w.epAbort 0x03).cancelPattern := rfl

theorem State.logMeasured_answered (s : State) (q : QId) : s.Answered (s.logMeasured q) := .each _ _ (fun t _ => t.logEvent_answered _) s

theorem State.logMeasured_quires (s : State) (q : QId) : (s.logMeasured q).quires = s.quires := s.each_quires _ _ fun t _ => t.logEvent_quires _

theorem State.endMeasured_answered (s : State) (q : QId) : s.Answered (s.endMeasured q) :=
  (s.logMeasured_answered q).trans (State.onQuire_answered _ q _ ((Quire.w_unreported _).tmusEndEarly _ _ _ _ _))

theorem State.endMeasured_sameRun (s : State) (q r : QId) : (s.quire r).SameRun ((s.endMeasured q).quire r) := by
  have hquire : (s.logMeasured q).quire r = s.quire r := by rw [State.quire, State.quire, s.logMeasured_quires]
  rw [← hquire]
  rcases eq_or_ne r q with rfl | hr
  · refine .trans ?_ (State.onQuire_sameRun _ r _)
    obtain ⟨l, m, j, h⟩ := ((s.logMeasured r).quire r).w.tmusEndEarly_shape (s.logMeasured r).modeOz 0x6 stOk 0 true
    rw [h]
    exact ⟨rfl, rfl, .inl rfl⟩
  · exact State.onQuire_sameRun_other _ q _ hr

theorem W.Unreported.enterStopped_clock {w : W} (h : w.Unreported) (c : Ctx) : (w.enterStopped c .clock).Unreported :=
  .resolveRun (.endWaiters (W.Unreported.upd (W.Unreported.leaveRun (.cutInsts (W.Unreported.upd (h.epAbort 0x03) _) c cbClock)) _) stOk 0)

theorem State.stopQuire_clock_answered (s : State) (q : QId) : s.Answered (s.stopQuire q .clock) :=
  (s.onQuire_answered q _ ((Quire.w_unreported _).endArm.enterStopped_clock s.ctx)).trans (State.cancelStarts_answered _ _ _ _)

theorem W.endDerived_shape (w : W) : ∃ dv st rd en dr l m, w.endDerived.q = { w.q with derivation := dv, store := st, ready := rd, engines := en, dram := dr, live := l, satPages := m } := by
  unfold W.endDerived
  split
  · exact ⟨_, _, _, _, _, _, _, rfl⟩
  next d _ =>
    extract_lets v n keep u
    have hv : ∃ en, v.q = { w.q with engines := en } := by
      unfold v
      split
      · exact ⟨_, rfl⟩
      · exact ⟨_, rfl⟩
    obtain ⟨en, hv⟩ := hv
    have hu : ∃ dv st rd en dr, u.q = { w.q with derivation := dv, store := st, ready := rd, engines := en, dram := dr } := by
      unfold u
      rw [W.upd_q, hv]
      exact ⟨_, _, _, _, _, rfl⟩
    obtain ⟨_, _, _, _, _, hu⟩ := hu
    have hbump := u.bump_counts (rk 0x10 0x108) n
    unfold Quire.Counts at hbump
    split
    · exact ⟨_, _, _, _, _, _, _, hu⟩
    · exact ⟨_, _, _, _, _, _, _, by rw [hbump, hu]⟩

/-- A command that occupies a quire and ends lets it go, with the items of its derivation. -/
theorem W.endOccupier_shape (w : W) (st : Byte) (dt : BitVec 16) : ∃ dv sr rd en dr l m, (w.endOccupier st dt).q = { w.q with
    selftest := none, occupied := none, derivation := dv, store := sr, ready := rd, engines := en, dram := dr, live := l, satPages := m } := by
  unfold W.endOccupier
  extract_lets v
  split
  next h => exact ⟨_, _, _, _, _, _, _, by rw [← h]; rfl⟩
  next o _ =>
    obtain ⟨dv, sr, rd, en, dr, l, m, hu⟩ := (v.upd fun q => { q with occupied := none }).endDerived_shape
    refine ⟨dv, sr, rd, en, dr, l, m, Eq.trans ?_ hu⟩
    cases o with
    | settle d _ _ =>
      dsimp only
      split
      · rfl
      · rfl
    | _ => rfl

/-- An ARM that a stop ends lets its quire go. -/
theorem W.endArm_sameRun (w : W) : w.q.SameRun w.endArm.q := by
  unfold W.endArm
  split
  · obtain ⟨_, _, _, _, _, _, _, h⟩ := w.endOccupier_shape stState (detState reasonAborted w.q.state)
    rw [h]
    exact ⟨rfl, rfl, .inr rfl⟩
  · exact .refl _

theorem State.stopQuire_other (s : State) (q : QId) (cause : StopCause) {r : QId} (hr : r ≠ q) : (s.quire r).SameRun ((s.stopQuire q cause).quire r) :=
  (s.onQuire_sameRun_other q _ hr).trans (State.cancelStarts_sameRun _ _ _ _ _)

theorem State.stopQuireClock_answered (s : State) (q : QId) : s.Answered (s.stopQuireClock q) := by
  rw [State.stopQuireClock_eq]
  refine (s.endMeasured_answered q).trans (.ite ?_ ?_)
  · exact (State.stopQuire_clock_answered _ q).trans (State.onQuire_answered _ q _ (Quire.w_unreported _).finishRebind)
  · exact State.onQuire_answered _ q _ ((Quire.w_unreported _).epAbort 0x03).cancelPattern

theorem State.stopQuireClock_other (s : State) (q : QId) {r : QId} (hr : r ≠ q) : (s.quire r).SameRun ((s.stopQuireClock q).quire r) := by
  rw [State.stopQuireClock_eq]
  refine (s.endMeasured_sameRun q r).trans ?_
  split
  · exact (State.stopQuire_other _ q .clock hr).trans (State.onQuire_sameRun_other _ q _ hr)
  · exact State.onQuire_sameRun_other _ q _ hr

theorem State.stopQuireClock_run (s : State) (q : QId) (hrun : (s.quire q).state.inRun = true) (hocc : ∀ d, (s.quire q).occupied ≠ some (.rebind d)) :
    ((s.stopQuireClock q).quire q).state = .stopped ∧ ((s.stopQuireClock q).quire q).stopCause = .clock := by
  have hmeasured := s.endMeasured_sameRun q q
  rw [State.stopQuireClock_eq, if_pos (by rwa [hmeasured.state])]
  generalize s.endMeasured q = t at hmeasured
  have harm := (t.quire q).w.endArm_sameRun
  obtain ⟨hstate, hcause, hocc'⟩ := (t.quire q).w.endArm.enterStopped_clock_state t.ctx
  have hstop := (t.onQuire_sameRun q fun x => x.w.endArm.enterStopped t.ctx .clock).trans (State.cancelStarts_sameRun _ q stState (detState reasonAborted (t.quire q).state) q)
  have hfree : ∀ d, ((t.stopQuire q .clock).quire q).occupied ≠ some (.rebind d) := hstop.noRebind fun d => by
    rw [hocc']
    exact (hmeasured.trans harm).noRebind hocc d
  have hsame : (t.stopQuire q .clock).onQuire q (fun x => x.w.finishRebind) = (t.stopQuire q .clock).setQuire q ((t.stopQuire q .clock).quire q) := by
    have hnone := ((t.stopQuire q .clock).quire q).w.finishRebind_none hfree
    rw [State.onQuire_quiet _ _ _ (by rw [hnone]; rfl), hnone]
    rfl
  rw [hsame, State.quire_setQuire_same]
  exact ⟨hstop.state.trans hstate, hstop.stopCause.trans hcause⟩

/-- Every quire in its run is stopped, and nothing else but what answers change. -/
theorem State.gated_answered (s : State) : s.Answered (s.each (List.finRange 8) State.stopQuireClock) := .each _ _ (fun t q => t.stopQuireClock_answered q) s

theorem State.each_sameRun (l : List QId) (s : State) {q : QId} (hq : q ∉ l) : (s.quire q).SameRun ((s.each l State.stopQuireClock).quire q) :=
  List.foldlRecOn (motive := fun t : State => (s.quire q).SameRun (t.quire q)) _ _ (.refl _) fun t ht g hg =>
    ht.trans (t.stopQuireClock_other g fun h => hq (h ▸ hg))

theorem State.each_middle (a : List QId) (q : QId) (b : List QId) (s : State) (f : State → QId → State) : s.each (a ++ q :: b) f = (f (s.each a f) q).each b f := by
  rw [State.each, State.each, State.each, List.foldl_append, List.foldl_cons]

theorem State.gated_run (s : State) (q : QId) (hrun : (s.quire q).state.inRun = true) (hocc : ∀ d, (s.quire q).occupied ≠ some (.rebind d)) :
    ((s.each (List.finRange 8) State.stopQuireClock).quire q).state = .stopped ∧ ((s.each (List.finRange 8) State.stopQuireClock).quire q).stopCause = .clock := by
  obtain ⟨a, b, hab⟩ := List.append_of_mem (List.mem_finRange q)
  have hnodup := List.nodup_finRange 8
  rw [hab] at hnodup
  have hboth := List.nodup_middle.mp hnodup
  obtain ⟨hnot, -⟩ := List.nodup_cons.mp hboth
  rw [List.mem_append, not_or] at hnot
  obtain ⟨hnota, hnotb⟩ := hnot
  have hfirst := State.each_sameRun a s hnota
  have hfold : s.each (List.finRange 8) State.stopQuireClock = ((s.each a State.stopQuireClock).stopQuireClock q).each b State.stopQuireClock := by
    rw [hab, State.each_middle]
  obtain ⟨hstate, hcause⟩ := (s.each a State.stopQuireClock).stopQuireClock_run q ((congrArg QState.inRun hfirst.state).trans hrun) (hfirst.noRebind hocc)
  have hlast := State.each_sameRun b ((s.each a State.stopQuireClock).stopQuireClock q) hnotb
  rw [hfold]
  exact ⟨hlast.state.trans hstate, hlast.stopCause.trans hcause⟩

/-- What a stop of the timing domain leaves, which then takes source `src`. -/
structure State.Gated (s t : State) (lost : Word) (src : TimingSrc) : Prop where
  clock : t.clock = { s.clock with lastSrc := s.clock.timingSrc, timingSrc := src, domain := if src = .none then .stopped else .locking }
  time : t.time = { s.time with validBefore := s.time.valid, valid := false }
  lost : t.reg (rk 1 0x0C) = lost
  regs : ∀ k < rk 8 0x104, k ≠ rk 1 0x0C → t.reg k = s.reg k
  collector : t.collector = { s.collector with satPages := t.collector.satPages }
  quires : ∀ q, (s.quire q).state.inRun = true → (∀ d, (s.quire q).occupied ≠ some (.rebind d)) → (t.quire q).state = .stopped ∧ (t.quire q).stopCause = .clock

theorem State.timeCause_sameRun (s : State) (q : QId) : (s.quire q).SameRun (s.timeCause.quire q) := by
  rw [State.timeCause]
  split
  · refine List.foldlRecOn (motive := fun t : State => (s.quire q).SameRun (t.quire q)) _ _ (Quire.SameRun.refl _) fun t ht g _ => ht.trans ?_
    rcases eq_or_ne q g with rfl | hq
    · exact Quire.SameRun.trans (y := ((t.quire q).w.causeAll cbTime).q) ⟨rfl, rfl, .inl rfl⟩ (State.onQuire_sameRun t q fun x => x.w.causeAll cbTime)
    · exact t.onQuire_sameRun_other g _ hq
  · exact .refl _

/-- The chip whose timing clock is off, before its quires stop. -/
def State.clockOff (s : State) (lost : Word) : State := { s.setReg (rk 1 0x0C) lost with clock := { s.clock with domain := .stopped, lastSrc := s.clock.timingSrc } }

/-- Chip time is not valid while the domain is stopped. -/
def State.timeOff (s : State) : State := { s with time := { s.time with validBefore := s.time.valid, valid := false } }

theorem State.pickSource_congr {s t : State} (hc : t.clock.xo = s.clock.xo ∧ t.clock.recovered = s.clock.recovered ∧ t.clock.next = s.clock.next) (hr : t.reg (rk 1 0) = s.reg (rk 1 0)) :
    t.pickSource = s.pickSource := by
  obtain ⟨hxo, hrec, hnext⟩ := hc
  have hgood : t.recGood = s.recGood := by rw [State.recGood, State.recGood, State.recEn, State.recEn, hrec, hr]
  rw [State.pickSource, State.pickSource, hxo, hnext, hgood]

theorem State.gateClock_gated (s : State) (lost : Word) {src : TimingSrc} (hpick : s.pickSource = src) : s.Gated (s.gateClock lost) lost src := by
  have hdef : s.gateClock lost = ((s.clockOff lost).each (List.finRange 8) State.stopQuireClock).timeOff.timeCause.switchSource := by
    unfold State.gateClock State.clockOff State.timeOff
    rfl
  have hans := (s.clockOff lost).gated_answered
  have hrun := (s.clockOff lost).gated_run
  rw [hdef]
  generalize (s.clockOff lost).each (List.finRange 8) State.stopQuireClock = t at hans hrun
  have hreg : ∀ k < rk 8 0x104, k ≠ rk 1 0x0C → t.reg k = s.reg k := fun k hk hne => (hans.regs k (.inl hk)).trans (sget_sput_other _ _ _ _ _ hne)
  have hlost : t.reg (rk 1 0x0C) = lost := (hans.regs (rk 1 0x0C) (.inl (by decide))).trans (sget_sput_same _ _ _ _)
  have hclock : t.clock = { s.clock with domain := .stopped, lastSrc := s.clock.timingSrc } := by rw [hans.frame]; rfl
  have htime : t.time = s.time := by rw [hans.frame]; rfl
  have hcoll : t.collector = { s.collector with satPages := t.collector.satPages } := by rw [hans.frame]; rfl
  have hcause := t.timeOff.timeCause_sameRun
  obtain ⟨qs, hqs⟩ := t.timeOff.timeCause_shape
  have hpick' : t.timeOff.timeCause.pickSource = src := by
    rw [hqs, ← hpick]
    exact State.pickSource_congr (by rw [State.timeOff, hclock]; exact ⟨rfl, rfl, rfl⟩) (hreg _ (by decide) (by decide))
  rw [State.switchSource, hpick']
  refine ⟨?_, ?_, ?_, ?_, ?_, fun q hq hocc => ?_⟩
  · rw [hqs, State.timeOff, hclock]
  · rw [hqs, State.timeOff, htime]
  · rw [hqs]
    exact hlost
  · rw [hqs]
    exact hreg
  · rw [hqs]
    exact hcoll
  · obtain ⟨hstate, hstop⟩ := hrun q hq hocc
    exact ⟨(hcause q).state.trans hstate, (hcause q).stopCause.trans hstop⟩

/-! ### Asking for a stop -/

theorem State.stopDomain_running (s : State) (prefer : TimingSrc) (injected : Bool) (h : s.clock.domain = .running) :
    s.stopDomain prefer false injected = ({ s with clock := { s.clock with next := prefer, stopInjected := injected } } : State).gateClock 24 := by
  rw [State.stopDomain, if_pos h]
  dsimp only
  rw [h]
  rfl

/-- With its source gone the domain stops by the time-out of the handshake. -/
theorem State.stopDomain_gone (s : State) (prefer : TimingSrc) (injected : Bool) (h : s.clock.domain = .running) :
    s.stopDomain prefer true injected = { s with clock := { s.clock with next := prefer, stopInjected := injected, domain := .stopping } } := by
  rw [State.stopDomain, if_pos h]
  dsimp only
  rw [h]
  rfl

theorem State.stopDomain_stopping (s : State) (prefer : TimingSrc) (gone injected : Bool) (h : s.clock.domain = .stopping) :
    s.stopDomain prefer gone injected = { s with clock := { s.clock with next := prefer } } := by
  rw [State.stopDomain, if_neg (by rw [h]; decide)]
  dsimp only
  rw [h]

theorem State.pickSource_xo {s : State} (hnext : s.clock.next = .xo) (hxo : s.clock.xo = .good) : s.pickSource = .xo := by
  rw [State.pickSource, hnext, hxo]
  rfl

theorem State.pickSource_recovered {s : State} (hnext : s.clock.next = .recovered) (hrec : s.clock.recovered = .good) (hen : bit (s.reg (rk 1 0)) 0 = true) : s.pickSource = .recovered := by
  rw [State.pickSource, hnext]
  exact if_pos (by simp [State.recGood, State.recEn, hrec, hen])

theorem State.stoppable_iff (s : State) (q : QId) : q ∈ s.stoppable ↔ (s.quire q).state.inRun = true := by simp [State.stoppable]

/-! ### Trips and losses -/

theorem nthInjected_none {c e n : Nat} {l : List Injection} (h : injecting c e l = false) : nthInjected c e n l = false := by
  rw [injecting, List.any_eq_false] at h
  rw [nthInjected, List.any_eq_false]
  exact fun i hi hc => h i hi (by simp only [decide_eq_true_eq] at hc ⊢; exact ⟨hc.1, hc.2.1⟩)

/-- A report of an alert on the quires in their run. -/
def State.alertReport (s : State) (checker : Nat) : Report :=
  { severity := .alert, checker := checker, quire := none, acts := s.stoppable, element := 0xFF, cause := 0, detail := BitVec.ofNat 24 (ofInt 24 0), injected := false
    timeNs := s.time.ns, timeValid := s.time.valid }

theorem pllLockLoss_eq (s : State) (hinj : injecting 0x05 0 s.collector.injections = false) (hrun : s.clock.domain = .running) :
    pllLockLoss s = (((s.live 0x05 true).report .alert 0x05 none s.stoppable 0xFF 0 0 false).stopDomain s.clock.timingSrc false false) := by
  rw [pllLockLoss, nthInjected_none hinj, State.check_none _ _ _ hinj]
  dsimp only
  rw [if_neg (not_not.mpr hrun)]
  rfl

theorem recAdoption_eq (s : State) (hrun : s.clock.domain = .running) (hsrc : s.clock.timingSrc = .xo) (hrec : s.clock.recovered = .good) (hen : bit (s.reg (rk 1 0)) 0 = true)
    (honce : s.clock.adoptedOnce = false ∨ bit (s.reg (rk 1 0)) 1 = true) (hidle : ∀ q, (s.quire q).state.inRun = false) : recAdoption s = s.stopDomain .recovered false := by
  have hstop : s.stoppable = [] := List.filter_eq_nil_iff.mpr fun q _ => by simp [hidle q]
  have hrev : (!s.clock.adoptedOnce || s.revertEn) = true := by simpa [State.revertEn] using honce
  have hgo : (s.recGood && s.timingRuns && s.clock.timingSrc = .xo && (!s.clock.adoptedOnce || s.revertEn) && s.stoppable = []) = true := by
    simp [State.recGood, State.recEn, State.timingRuns, hrec, hen, hrun, hsrc, hrev, hstop]
  rw [recAdoption, if_pos hgo]

/-- The clock whose XO has lost edges. -/
def Clock.xoLost (c : Clock) : Clock := { c with xo := .judging, xoWindows := 0, ctrlOnLro := true, recWindows := if c.recovered = .judging then 0 else c.recWindows }

/-- Lost edges of the XO, counted. -/
def State.xoLost (s : State) : State := { s.bump (rk 1 0x20) with clock := s.clock.xoLost }

theorem State.xoLost_tallies (s : State) : ({ s with clock := s.clock.xoLost } : State).Tallies s.xoLost [rk 1 0x20] := by
  obtain ⟨hframe, hcount, hregs⟩ := s.bump_tallies (rk 1 0x20)
  refine ⟨?_, hcount, hregs⟩
  rw [State.xoLost, hframe]

theorem xoEdgeLoss_eq (s : State) (missing : Nat) (hinj : ∀ e, injecting 0x01 e s.collector.injections = false) (harm : s.clock.xoArmed = true) : xoEdgeLoss missing s =
    if 16 ≤ missing then s.report .chip 0x01 none [] 0xFF 0x11 0 (decide (missing < 16))
    else if missing = 0 then s
    else if s.clock.timingSrc = .xo then s.xoLost.stopDomain .recovered false (decide (missing = 0)) else s.xoLost := by
  have hnone : ∀ i ∈ s.collector.injections, i.checker ≠ 0x01 := fun i hi hc => by
    have h := List.any_eq_false.mp (hinj i.element) i hi
    simp [hc] at h
  have hmine : (s.collector.injections.filter fun i => i.checker = 0x01) = [] := List.filter_eq_nil_iff.mpr fun i hi => by simpa using hnone i hi
  have hrest : (s.collector.injections.filter fun i => i.checker ≠ 0x01) = s.collector.injections := List.filter_eq_self.mpr fun i hi => by simpa using hnone i hi
  rw [xoEdgeLoss, harm, if_neg (by decide), hmine, hrest]
  simp only [List.map_nil, List.sum_nil, Nat.add_zero]
  rfl

/-- REC has failed: the monitor's count, and the condition that lasts. -/
def State.recLost (s : State) : State := ({ s.bump (rk 1 0x18) with clock := { s.clock with recovered := .failed, recWindows := 0 } } : State).live 0x04 true

theorem State.recLost_frame (s : State) : s.recLost = { s with
    regs := s.recLost.regs, log := s.recLost.log, clock := { s.clock with recovered := .failed, recWindows := 0 }
    collector := { s.collector with real := s.collector.real ||| BitVec.ofNat 9 (2 ^ 4), satPages := s.recLost.collector.satPages } } := by
  obtain ⟨l, c, h⟩ := s.bump_shape (rk 1 0x18) 1
  rw [State.recLost, h]
  rfl

theorem State.recLost_counted (s : State) : Counted 1 (s.reg (rk 1 0x18)) (s.recLost.reg (rk 1 0x18)) := s.bump_counted (rk 1 0x18) 1

/-- A condition that holds shows in `CHIP_LIVE`. -/
theorem Collector.live_getLsbD (x : Collector) : ({ x with real := x.real ||| BitVec.ofNat 9 (2 ^ 4) } : Collector).live.getLsbD 4 = true := by
  simp [Collector.live]

/-- A trip of the monitor by a real condition. -/
theorem State.trip_eq (s : State) (stopped : Bool) (hsrc : s.clock.timingSrc = .recovered) (hdom : s.clock.domain ≠ .stopped) : s.trip stopped false =
    (if s.collector.real.getLsbD 4 then s.recLost else s.recLost.report .alert 0x04 none s.recLost.stoppable 0xFF 0 0 false).stopDomain .xo stopped false := by
  rw [State.trip, hsrc, decide_eq_true rfl, decide_eq_true hdom]
  simp only [Bool.not_false, Bool.true_and, if_true]
  rfl

theorem monitorWindow_eq (s : State) (drift : Int) (hinj : injecting 0x04 0 s.collector.injections = false) (hrec : s.clock.recovered = .good) (hxo : s.clock.xo = .good) :
    monitorWindow drift s =
      let t : State := { s with clock := { s.clock with recPpm := ppmWord (drift.tdiv 10) } }
      if 2000 < |drift| then t.trip false false else t := by
  rw [monitorWindow, if_pos ⟨hrec, hxo⟩, State.check_none _ _ _ hinj]
  simp

theorem ppmWord_of_le {drift : Int} (h : |drift| ≤ 2000) : ppmWord (drift.tdiv 10) = BitVec.ofInt 16 (drift.tdiv 10) := by
  have hd := abs_le.mp h
  have h1 : -200 ≤ drift.tdiv 10 ∧ drift.tdiv 10 ≤ 200 := by
    rw [Int.tdiv_eq_ediv]
    split
    · omega
    · rw [show Int.sign 10 = 1 from rfl]
      omega
  rw [ppmWord, min_eq_right (by omega), max_eq_right (by omega)]
  apply BitVec.eq_of_toNat_eq
  rw [BitVec.toNat_ofNat, BitVec.toNat_ofInt, ofInt]
  omega

/-! ### A stop as the manual describes it -/

/-- The instruction stops the timing domain, which then takes `src`. -/
def State.Stops (s : State) (i : Instr) (src : TimingSrc) (lost : Word) (also : State → Prop) : Prop :=
  ∃ t, exec i s = .next t ∧ t.clock.timingSrc = src ∧ t.clock.domain = (if src = .none then .stopped else .locking) ∧ t.time.valid = false ∧ t.time.validBefore = s.time.valid
    ∧ t.time.ns = s.time.ns ∧ t.reg (rk 1 0x0C) = lost ∧ also t
    ∧ ∀ q, (s.quire q).state.inRun = true → (∀ d, (s.quire q).occupied ≠ some (.rebind d)) → (t.quire q).state = .stopped ∧ (t.quire q).stopCause = .clock

theorem State.Stops.of_gate {s u : State} {i : Instr} {src : TimingSrc} {lost : Word} {also : State → Prop} (hexec : exec i s = .next (u.gateClock lost)) (hpick : u.pickSource = src)
    (htime : u.time = s.time) (hquires : u.quires = s.quires) (halso : u.Gated (u.gateClock lost) lost src → also (u.gateClock lost)) : s.Stops i src lost also := by
  have h := u.gateClock_gated lost hpick
  have hquire : ∀ q, u.quire q = s.quire q := fun q => by rw [State.quire, State.quire, hquires]
  refine ⟨_, hexec, by rw [h.clock], by rw [h.clock], by rw [h.time], by rw [h.time, htime], by rw [h.time, htime], h.lost, halso h, fun q hq hocc => h.quires q ?_ ?_⟩
  · rwa [hquire]
  · rwa [hquire]

/-- A stop that is asked for while the domain runs. -/
theorem State.Stops.of_stop {s u : State} {i : Instr} {src prefer : TimingSrc} {injected : Bool} {also : State → Prop} (hexec : exec i s = .next (u.stopDomain prefer false injected))
    (hrun : u.clock.domain = .running)
    (hpick : ({ u with clock := { u.clock with next := prefer, stopInjected := injected } } : State).pickSource = src) (htime : u.time = s.time) (hquires : u.quires = s.quires)
    (halso : ∀ t, t.collector = { u.collector with satPages := t.collector.satPages } → (∀ k < rk 8 0x104, k ≠ rk 1 0x0C → t.reg k = u.reg k) → t.clock.xo = u.clock.xo → t.clock.recovered = u.clock.recovered → also t) :
    s.Stops i src 24 also := by
  rw [u.stopDomain_running prefer injected hrun] at hexec
  exact .of_gate hexec hpick htime hquires fun g => halso _ g.collector g.regs (by rw [g.clock]) (by rw [g.clock])

end Sys2Proof.Machine

namespace Sys2Proof.Proofs
open Sys2Proof.Machine

/-- Settles O28: each cause of a stop comes down to the gating of the timing clock, which stops every quire in its run and takes the source that is good. -/
theorem clockStops : Obligations.ClockStops := by
  intro s missing drift c recGood stops reported hinj
  obtain ⟨h1, h4, h5⟩ := forall_and.mp (fun e => hinj e) |>.imp_right forall_and.mp
  refine ⟨fun hrun hsrc hxo => ?_, fun hrun hsrc hrec => ?_, fun hrun hsrc hrec honce hidle => ?_, fun harm hm => ?_, fun harm h0 hm hsrc => ?_, fun harm h0 hm hsrc hrun hrec => ?_,
    fun hrec hxo hd => ?_, fun hrec hxo hd hreal hsrc hrun => ?_, fun hm hsrc hrun hreal => ?_, fun hm hsrc hstop hreal => ?_, fun hm => ?_, fun hstop hnext hxo => ?_⟩
  · refine State.Stops.of_stop (congrArg Host.Outcome.next (pllLockLoss_eq s (h5 0) hrun)) hrun (State.pickSource_xo hsrc hxo) rfl rfl fun t ht _ _ _ => ?_
    exact ⟨s.alertReport 5, by rw [ht]; rfl, rfl, rfl, s.stoppable_iff⟩
  · refine State.Stops.of_stop (congrArg Host.Outcome.next (pllLockLoss_eq s (h5 0) hrun)) hrun (State.pickSource_recovered hsrc hrec.1 hrec.2) rfl rfl fun t ht _ _ _ => ?_
    exact ⟨s.alertReport 5, by rw [ht]; rfl, rfl, rfl, s.stoppable_iff⟩
  · exact State.Stops.of_stop (congrArg Host.Outcome.next (recAdoption_eq s hrun hsrc hrec.1 hrec.2 honce hidle)) hrun (State.pickSource_recovered rfl hrec.1 hrec.2) rfl rfl
      fun _ _ _ _ _ => trivial
  · refine ⟨{ severity := .chip, checker := 0x01, quire := none, acts := [], element := 0xFF, cause := 0x11, detail := BitVec.ofNat 24 (ofInt 24 0), injected := decide (missing < 16)
              timeNs := s.time.ns, timeValid := s.time.valid }, rfl, rfl, rfl, ?_⟩
    exact congrArg Host.Outcome.next ((xoEdgeLoss_eq s missing h1 harm).trans (if_pos hm))
  · have hgo := xoEdgeLoss_eq s missing h1 harm
    rw [if_neg (by omega), if_neg (by omega), if_neg hsrc] at hgo
    exact ⟨_, congrArg Host.Outcome.next hgo, s.xoLost_tallies⟩
  · have hgo := xoEdgeLoss_eq s missing h1 harm
    rw [if_neg (by omega), if_neg (by omega), if_pos hsrc] at hgo
    obtain ⟨hframe, hcount, hregs⟩ := s.xoLost_tallies
    have hclock : s.xoLost.clock = s.clock.xoLost := by rw [hframe]
    refine State.Stops.of_stop (congrArg Host.Outcome.next hgo) (by rw [hclock]; exact hrun) (State.pickSource_recovered rfl ?_ ?_) (by rw [hframe]) (by rw [hframe])
      fun t _ hregs' hxo' _ => ⟨hxo'.trans (by rw [hclock]; rfl), ?_⟩
    · rw [hclock]
      exact hrec.1
    · exact (congrArg (bit · 0) (hregs (rk 1 0) (by decide))).trans hrec.2
    · rw [hregs' (rk 1 0x20) (by decide) (by decide)]
      exact hcount _ (by simp)
  · have hgo := monitorWindow_eq s drift (h4 0) hrec hxo
    rw [ppmWord_of_le hd] at hgo
    exact congrArg Host.Outcome.next (hgo.trans (if_neg (not_lt.mpr hd)))
  · have hgo := monitorWindow_eq s drift (h4 0) hrec hxo
    dsimp only at hgo
    generalize hv : ({ s with clock := { s.clock with recPpm := ppmWord (drift.tdiv 10) } } : State) = v at hgo
    have hvclock : v.clock = { s.clock with recPpm := ppmWord (drift.tdiv 10) } := by rw [← hv]
    rw [if_pos hd, v.trip_eq false (by rw [hvclock]; exact hsrc) (by rw [hvclock, hrun]; decide), show v.collector.real.getLsbD 4 = false by rw [← hv]; exact hreal, if_neg Bool.false_ne_true] at hgo
    have hframe := v.recLost_frame
    have hclock : v.recLost.clock = { v.clock with recovered := .failed, recWindows := 0 } := by rw [hframe]
    refine State.Stops.of_stop (congrArg Host.Outcome.next hgo) ?_ (State.pickSource_xo rfl ?_) ?_ ?_ fun t ht hregs _ hrec' => ⟨hrec'.trans ?_, ?_, ?_, ?_⟩
    · exact (congrArg (·.domain) hclock).trans ((congrArg (·.domain) hvclock).trans hrun)
    · exact (congrArg (·.xo) hclock).trans ((congrArg (·.xo) hvclock).trans hxo)
    · exact (show v.recLost.time = v.time by rw [hframe]).trans (by rw [← hv])
    · exact (show v.recLost.quires = v.quires by rw [hframe]).trans (by rw [← hv])
    · exact congrArg (·.recovered) hclock
    · have hlive : t.collector.live = v.recLost.collector.live := by rw [ht]; rfl
      rw [hlive, hframe]
      exact v.collector.live_getLsbD
    · exact ⟨s.alertReport 4, by rw [ht, hframe, ← hv]; rfl, rfl, rfl, s.stoppable_iff⟩
    · rw [hregs (rk 1 0x18) (by decide) (by decide)]
      have hcount := v.recLost_counted
      rwa [show v.reg (rk 1 0x18) = s.reg (rk 1 0x18) by rw [← hv]; rfl] at hcount
  · have hgo := s.trip_eq true hsrc (by rw [hrun]; decide)
    have hframe := s.recLost_frame
    have hclock : s.recLost.clock = { c with recovered := .failed, recWindows := 0 } := by rw [hframe]
    have hdom : (s.recLost.report .alert 0x04 none s.recLost.stoppable 0xFF 0 0 false).clock.domain = .running := (congrArg (·.domain) hclock).trans hrun
    rw [hreal, if_neg Bool.false_ne_true, State.stopDomain_gone _ _ _ hdom] at hgo
    refine ⟨_, congrArg Host.Outcome.next ((if_pos hm).trans hgo), ?_, show s.recLost.time = s.time by rw [hframe], ⟨s.alertReport 4, by rw [hframe]; rfl, rfl, rfl, s.stoppable_iff⟩, s.recLost_counted⟩
    exact congrArg (fun c : Clock => { c with next := .xo, stopInjected := false, domain := .stopping }) hclock
  · have hgo := s.trip_eq true hsrc (by rw [hstop]; decide)
    have hframe := s.recLost_frame
    have hclock : s.recLost.clock = { c with recovered := .failed, recWindows := 0 } := by rw [hframe]
    rw [hreal, if_pos rfl, State.stopDomain_stopping _ _ _ _ ((congrArg (·.domain) hclock).trans hstop)] at hgo
    refine ⟨_, congrArg Host.Outcome.next ((if_pos hm).trans hgo), ?_, show s.recLost.time = s.time by rw [hframe], show s.recLost.collector.reports = s.collector.reports by rw [hframe], s.recLost_counted⟩
    exact congrArg (fun c : Clock => { c with next := .xo }) hclock
  · exact congrArg Host.Outcome.next (if_neg (Nat.not_le.mpr hm))
  · have hframe := (s.bump_tallies (rk 1 0x1C)).1
    have hcount := s.bump_counted (rk 1 0x1C) 1
    refine State.Stops.of_gate (u := s.bump (rk 1 0x1C)) (congrArg Host.Outcome.next (if_pos hstop)) (State.pickSource_xo ?_ ?_) (s.bump_time _ _) (s.bump_quires _ _) fun g => ?_
    · rw [State.bump_clock, hnext]
    · rw [State.bump_clock, hxo]
    · rw [g.regs _ (by decide) (by decide)]
      exact hcount

end Sys2Proof.Proofs
end

section
/-! Time messages of one exchange (R637, R668 to R675). -/

namespace Sys2Proof.Machine

/-- A counter of another page counts beside the books of packets. -/
theorem State.Booked.bumpAlso {s u : State} (h : s.Booked u) {k : Nat} (hk : k < rk 8 0x104) : s.Booked (u.bump k) [k] := by
  obtain ⟨l, c, hb⟩ := u.bump_shape k 1
  obtain ⟨hframe, -, hregs⟩ := h
  refine ⟨?_, fun j hj => ?_, fun j hj hr => ?_⟩
  · rw [hb, hframe]
  · rw [List.mem_singleton.mp hj, ← hregs k (by simp) (.inl hk)]
    exact u.bump_counted k 1
  · rw [u.bump_reg_other k 1 (by simpa using hj)]
    exact hregs j (by simp) hr

theorem State.Booked.modPtp {s u : State} (h : s.Booked u) (k : LinkId) (f : Ptp → Ptp) : (s.modPtp k f).Booked (u.modPtp k f) := h.map (·.modPtp k f) (fun _ => rfl) rfl

/-! ### A message that comes in -/

section
variable {s : State} {k : LinkId}

theorem timeMessage_restarting (m : TimeMsg) (hup : (s.link m.link).phase = .up) (hr : s.restarting = true) : timeMessage m s = { s with heldTimes := s.heldTimes ++ [m] } := by
  rw [timeMessage, Link.carries, hup, hr]
  rfl

theorem timeMessage_taken (m : TimeMsg) (hup : (s.link m.link).phase = .up) (hr : s.restarting = false) (hen : bit (s.reg (rk 2 0x1C)) m.link.val = true) : timeMessage m s =
    match m.type with
    | 0 => takeSync m.link m.bytes m.stamp (s.freeBuffer m.link .time)
    | 8 => takeFollowUp m.link m.bytes (s.freeBuffer m.link .time)
    | _ => takeDelayResp m.link m.bytes (s.freeBuffer m.link .time) := by
  have hon : (s.freeBuffer m.link .time).ptpEn m.link = true := hen
  rw [timeMessage, Link.carries, hup, hr, State.takeTime]
  simp only [hon]
  rfl

/-- The message fits: its link's record of the exchange moves. -/
def State.Records (s : State) (k : LinkId) (i : Instr) (y : Ptp) : Prop :=
  ∃ t, exec i s = .next t ∧ t.sent = s.sent ∧ ({ s with time := { s.time with ptp := s.time.ptp.set k y } } : State).Booked t

/-- The message does not fit: it is counted. -/
def State.Drops (s : State) (k : LinkId) (i : Instr) : Prop := ∃ t, exec i s = .next t ∧ t.sent = s.sent ∧ s.Booked t [rk 2 (0x100 + 0x40 * k.val) + 0x3C]

theorem State.Records.of_modPtp {i : Instr} {f : Ptp → Ptp} {y : Ptp} (hexec : exec i s = .next ((s.freeBuffer k .time).modPtp k f)) (hy : f s.time.ptp[k] = y) : s.Records k i y := by
  refine ⟨_, hexec, s.freeBuffer_sent k .time, ?_⟩
  rw [← hy]
  exact (s.freeBuffer_booked k .time).modPtp k f

theorem State.Drops.of_discard {i : Instr} (hexec : exec i s = .next ((s.freeBuffer k .time).ptpDiscard k)) : s.Drops k i := by
  have hkey : pkey k 0x3C = rk 2 (0x100 + 0x40 * k.val) + 0x3C := by simp only [pkey, rk]; omega
  refine ⟨_, hexec, ?_, ?_⟩
  · rw [State.ptpDiscard, State.bump_sent, State.freeBuffer_sent]
  · rw [State.ptpDiscard, hkey]
    exact (s.freeBuffer_booked k .time).bumpAlso (by simp only [rk]; omega)

/-- The header of a message of a type and length. -/
def State.Header (s : State) (m : List Byte) (type len : Nat) : Prop :=
  m.length = len ∧ (m.getD 0 0).toNat = type ∧ (m.getD 1 0).toNat = 0x12 ∧ be m 2 2 = len ∧ (m.getD 4 0).toNat = fld (s.reg (rk 2 0x1C)) 16 8

theorem ptpFormed_iff (m : List Byte) (type len : Nat) : ptpFormed (s.freeBuffer k .time) m type len = true ↔ s.Header m type len := by
  simp only [ptpFormed, State.Header, Bool.and_eq_true, decide_eq_true_eq, and_assoc]
  rfl

end

section
variable {s : State} {k : LinkId} {m : List Byte}

theorem takeSync_fits (stamp : Stamp) (hf : s.Header m 0 44) (hflag : (m.getD 6 0).getLsbD 1 = true) : takeSync k m (some stamp) (s.freeBuffer k .time) =
    (s.freeBuffer k .time).modPtp k fun x => { x with syncMsg := some (BitVec.ofNat 16 (be m 30 2), be64 m 8, stamp), t2 := stamp } := by
  rw [takeSync, if_pos (by rw [(ptpFormed_iff m 0 44).mpr hf, hflag]; rfl)]

theorem takeSync_drops (stamp : Option Stamp) (h : ¬(s.Header m 0 44 ∧ (m.getD 6 0).getLsbD 1 = true ∧ stamp.isSome = true)) :
    takeSync k m stamp (s.freeBuffer k .time) = (s.freeBuffer k .time).ptpDiscard k := by
  cases stamp with
  | none => rfl
  | some t2 =>
    rw [takeSync, if_neg]
    rw [Bool.and_eq_true, ptpFormed_iff]
    exact fun ⟨hf, hflag⟩ => h ⟨hf, hflag, rfl⟩

theorem takeFollowUp_fits {y : BitVec 16 × Int × Stamp} (hy : s.time.ptp[k].syncMsg = some y) (hf : s.Header m 8 44) (hseq : y.1.toNat = be m 30 2) :
    takeFollowUp k m (s.freeBuffer k .time) = (s.freeBuffer k .time).modPtp k fun x =>
      { x with syncMsg := none, completed := some (y.1, (ptpNs m 34 : Nat), y.2.1 + be64 m 8, y.2.2), dreqDue := x.dreqDue + b2n (s.dreqEn k) } := by
  rw [takeFollowUp, show (s.freeBuffer k .time).ptp k = s.time.ptp[k] from rfl, hy]
  exact if_pos (by rw [(ptpFormed_iff m 8 44).mpr hf, decide_eq_true hseq]; rfl)

theorem takeFollowUp_drops {y : BitVec 16 × Int × Stamp} (hy : s.time.ptp[k].syncMsg = some y) (hseq : y.1.toNat ≠ be m 30 2) :
    takeFollowUp k m (s.freeBuffer k .time) = (s.freeBuffer k .time).ptpDiscard k := by
  rw [takeFollowUp, show (s.freeBuffer k .time).ptp k = s.time.ptp[k] from rfl, hy]
  exact if_neg (by simp [hseq])

/-- The exchange that a Delay_Resp completes (R672). -/
def Ptp.exchange (x : Ptp) (m : List Byte) (d : BitVec 16 × Stamp) (c : BitVec 16 × Int × Int × Stamp) : Ptp :=
  let ms := c.2.2.2.units - c.2.1 * 2 ^ 16 - c.2.2.1
  let sm := (ptpNs m 34 : Int) * 2 ^ 16 - d.2.units - be64 m 8
  let delay := (ms + sm) / 2
  { x with dreq := none, exchValid := true, exchSeq := c.1, delay := delay, offset := ms - delay }

theorem takeDelayResp_fits {d : BitVec 16 × Stamp} {c : BitVec 16 × Int × Int × Stamp} (hd : s.time.ptp[k].dreq = some d) (hc : s.time.ptp[k].completed = some c) (hf : s.Header m 9 54)
    (hport : (m.drop 44).take 10 = portIdentity k) (hseq : d.1.toNat = be m 30 2) :
    takeDelayResp k m (s.freeBuffer k .time) = (s.freeBuffer k .time).modPtp k fun x => x.exchange m d c := by
  rw [takeDelayResp, show (s.freeBuffer k .time).ptp k = s.time.ptp[k] from rfl, hd, hc]
  exact if_pos (by rw [(ptpFormed_iff m 9 54).mpr hf, decide_eq_true hport, decide_eq_true hseq]; rfl)

theorem takeDelayResp_drops {d : BitVec 16 × Stamp} (hd : s.time.ptp[k].dreq = some d) (hseq : d.1.toNat ≠ be m 30 2) :
    takeDelayResp k m (s.freeBuffer k .time) = (s.freeBuffer k .time).ptpDiscard k := by
  rw [takeDelayResp, show (s.freeBuffer k .time).ptp k = s.time.ptp[k] from rfl, hd]
  cases s.time.ptp[k].completed with
  | none => rfl
  | some c => exact if_neg (by simp [hseq])

end

/-! ### The Delay_Req that goes out -/

theorem length_beBytes (n v : Nat) : (beBytes n v).length = n := by rw [beBytes, List.length_reverse, length_le]

theorem length_portIdentity (k : LinkId) : (portIdentity k).length = 10 := by rw [portIdentity, List.length_append, length_beBytes, length_beBytes]

/-- A field of a message that follows `a`. -/
theorem be_append (a : List Byte) (n v : Nat) (b : List Byte) : be (a ++ (beBytes n v ++ b)) a.length n = v % 256 ^ n := by
  rw [be, List.drop_left, List.take_left' (length_beBytes n v), beBytes, List.reverse_reverse, unle_le]

theorem delayReqMsg_fields (s : State) (k : LinkId) (seq : BitVec 16) (ns : Nat) :
    (delayReqMsg s k seq ns).length = 44 ∧ (delayReqMsg s k seq ns).take 2 = [0x01, 0x12] ∧ be (delayReqMsg s k seq ns) 30 2 = seq.toNat
      ∧ be (delayReqMsg s k seq ns) 34 6 = ns / 1000000000 % 2 ^ 48 ∧ be (delayReqMsg s k seq ns) 40 4 = ns % 1000000000 := by
  have hhead : ([0x01#8, 0x12#8] ++ beBytes 2 44 ++ le 1 s.ptpDomain ++ List.replicate 15 0 ++ portIdentity k).length = 30 := by
    simp only [List.length_append, length_beBytes, length_le, List.length_replicate, length_portIdentity]
    rfl
  generalize hh : [0x01#8, 0x12#8] ++ beBytes 2 44 ++ le 1 s.ptpDomain ++ List.replicate 15 0 ++ portIdentity k = head at hhead
  have hmsg : delayReqMsg s k seq ns = head ++ (beBytes 2 seq.toNat ++ ([0x01#8, 0x7F#8] ++ (beBytes 6 (ns / 1000000000) ++ (beBytes 4 (ns % 1000000000) ++ [])))) := by
    rw [delayReqMsg, hh]
    simp only [List.append_assoc, List.append_nil]
  have hlen : (head ++ beBytes 2 seq.toNat ++ [0x01#8, 0x7F#8]).length = 34 := by rw [List.length_append, List.length_append, hhead, length_beBytes]; rfl
  refine ⟨?_, ?_, ?_, ?_, ?_⟩
  · rw [hmsg]
    simp only [List.length_append, hhead, length_beBytes]
    rfl
  · rw [delayReqMsg]
    rfl
  · have h := be_append head 2 seq.toNat ([0x01#8, 0x7F#8] ++ (beBytes 6 (ns / 1000000000) ++ (beBytes 4 (ns % 1000000000) ++ [])))
    rw [hhead, ← hmsg] at h
    rw [h]
    exact Nat.mod_eq_of_lt seq.isLt
  · have h := be_append (head ++ beBytes 2 seq.toNat ++ [0x01#8, 0x7F#8]) 6 (ns / 1000000000) (beBytes 4 (ns % 1000000000) ++ [])
    rw [hlen] at h
    simp only [List.append_assoc] at h
    rw [hmsg, h]
    rfl
  · have h := be_append (head ++ beBytes 2 seq.toNat ++ [0x01#8, 0x7F#8] ++ beBytes 6 (ns / 1000000000)) 4 (ns % 1000000000) []
    rw [List.length_append, hlen, length_beBytes] at h
    simp only [List.append_assoc] at h
    rw [hmsg]
    exact h.trans (Nat.mod_eq_of_lt (by omega))

theorem Link.send_txQueue (l : Link) (i : Fin 4) (bytes : List Byte) : (l.send i bytes).classes[i].txQueue = l.classes[i].txQueue ++ [bytes] := by
  rw [Link.send]
  simp

theorem delayReq_stopped (k : LinkId) (sub : Nat) (s : State) (hdue : 0 < s.time.ptp[k].dreqDue) (hstop : s.timingRuns = false) :
    delayReq k sub s = s.modPtp k fun x => { x with dreqDue := x.dreqDue - 1 } := by
  have hptp : s.ptp k = s.time.ptp[k] := rfl
  rw [delayReq]
  dsimp only
  rw [hptp, if_neg (Nat.pos_iff_ne_zero.mp hdue), hstop]
  rfl

theorem delayReq_sent (k : LinkId) (sub : Nat) (s : State) (hup : (s.link k).phase = .up) (hdue : 0 < s.time.ptp[k].dreqDue) (hrun : s.timingRuns = true) (hroom : s.time.ptp[k].tsq.length < 16) :
    delayReq k sub s = (s.modLink k fun l => l.send 3 (delayReqMsg s k s.time.ptp[k].dreqSeq (s.stampAt sub).ns)).modPtp k fun x => { x with
      dreqDue := x.dreqDue - 1, dreqSeq := x.dreqSeq + 1, dreq := some (s.time.ptp[k].dreqSeq, s.stampAt sub)
      tsq := s.time.ptp[k].tsq ++ [{ msgType := 1, seqId := s.time.ptp[k].dreqSeq, stamp := s.stampAt sub }] } := by
  have hptp : s.ptp k = s.time.ptp[k] := rfl
  rw [delayReq]
  dsimp only
  rw [hptp, if_neg (Nat.pos_iff_ne_zero.mp hdue), hrun, Link.carries, hup, decide_eq_false (Nat.not_le.mpr hroom)]
  rfl

end Sys2Proof.Machine

namespace Sys2Proof.Proofs
open Sys2Proof.Machine

/-- Settles O26: a message is taken from its buffer, and its link's record of the exchange moves or the message is counted. -/
theorem timeTransfer : Obligations.TimeTransfer := by
  intro s k m sub x seq corr stamp base header makes dropped hup hen
  have hin : ∀ (type : Nat) (t : Option Stamp), s.restarting = false → _ := fun type t hr => timeMessage_taken (s := s) { link := k, type := type, bytes := m, stamp := t } hup hr hen
  refine ⟨fun hr => ⟨congrArg Host.Outcome.next (timeMessage_restarting _ hup hr), congrArg Host.Outcome.next (timeMessage_restarting _ hup hr)⟩, fun hr => ?_⟩
  have hsync : ∀ t, timeMessage { link := k, type := 0, bytes := m, stamp := t } s = takeSync k m t (s.freeBuffer k .time) := fun t => hin 0 t hr
  have hfollow : exec (.followUp k m) s = .next (takeFollowUp k m (s.freeBuffer k .time)) := congrArg Host.Outcome.next (hin 8 none hr)
  have hresp : exec (.delayResp k m) s = .next (takeDelayResp k m (s.freeBuffer k .time)) := congrArg Host.Outcome.next (hin 9 none hr)
  refine ⟨fun hf hflag hrun => ?_, fun h => ?_, fun y hy hf hseq => ?_, fun y hy hseq => ?_, fun hdue hrun hroom => ?_, fun hdue hstop => ?_, fun d c hd hc hf hport hseq => ?_, fun d hd hseq => ?_⟩
  · have hstamp : (if s.timingRuns then some (s.stampAt sub) else none) = some stamp := if_pos hrun
    have hgo := (hsync _).trans ((congrArg (takeSync k m · (s.freeBuffer k .time)) hstamp).trans (takeSync_fits stamp hf hflag))
    exact State.Records.of_modPtp (congrArg Host.Outcome.next hgo) rfl
  · refine State.Drops.of_discard (congrArg Host.Outcome.next ((hsync _).trans (takeSync_drops _ fun ⟨hf, hflag, hsome⟩ => h ⟨hf, hflag, ?_⟩)))
    by_contra hrun
    rw [if_neg hrun] at hsome
    exact absurd hsome (by decide)
  · refine State.Records.of_modPtp (hfollow.trans (congrArg Host.Outcome.next (takeFollowUp_fits hy hf hseq))) ?_
    rw [State.dreqEn]
    cases bit (s.reg (rk 2 0x1C)) (8 + k.val) with
    | true => rfl
    | false => rfl
  · exact State.Drops.of_discard (hfollow.trans (congrArg Host.Outcome.next (takeFollowUp_drops hy hseq)))
  · have hgo := delayReq_sent k sub s hup hdue hrun hroom
    obtain ⟨hlen, htake, hseq, hsec, hns⟩ := delayReqMsg_fields s k x.dreqSeq stamp.ns
    refine ⟨_, delayReqMsg s k x.dreqSeq stamp.ns, congrArg Host.Outcome.next hgo, ?_⟩
    refine ⟨?_, hlen, htake, hseq, hsec, hns, ?_, rfl⟩
    · have hlink := s.link_modLink_same k fun l => l.send 3 (delayReqMsg s k x.dreqSeq stamp.ns)
      have hqueue := (s.link k).send_txQueue 3 (delayReqMsg s k x.dreqSeq stamp.ns)
      rw [← hqueue]
      exact congrArg (fun l : Link => l.classes[(3 : Fin 4)].txQueue) hlink
    · exact Vector.getElem_set_self _
  · exact congrArg Host.Outcome.next (delayReq_stopped k sub s hdue hstop)
  · exact State.Records.of_modPtp (hresp.trans (congrArg Host.Outcome.next (takeDelayResp_fits hd hc hf hport hseq))) rfl
  · exact State.Drops.of_discard (hresp.trans (congrArg Host.Outcome.next (takeDelayResp_drops hd hseq)))

end Sys2Proof.Proofs
end

section
/-! SYNC edges, misses and pulses (R678 to R682, R686). -/

namespace Sys2Proof.Machine

/-! ### The error of an edge (R679) -/

/-- The error of an edge is its distance from the nearest multiple of the period. -/
theorem State.edgeError_nearest (s : State) (sub : Nat) (hp : 1 ≤ s.syncPeriod) :
    ∃ m : Int, s.edgeError sub = (((s.time.total + sub * s.time.increment / 4000) * 4000 / 2 ^ 32 : Nat) : Int) - s.syncSkew - m * (4000 * s.syncPeriod)
      ∧ -(4000 * s.syncPeriod : Int) ≤ 2 * s.edgeError sub ∧ 2 * s.edgeError sub < 4000 * s.syncPeriod := by
  rw [State.edgeError, max_eq_right hp]
  generalize (((s.time.total + sub * s.time.increment / 4000) * 4000 / 2 ^ 32 : Nat) : Int) - s.syncSkew = x
  have hpos : (0 : Int) < 4000 * s.syncPeriod := by omega
  generalize (4000 * s.syncPeriod : Int) = p at hpos
  have hdiv := Int.emod_add_mul_ediv (2 * x + p) (2 * p)
  have hlow := Int.emod_nonneg (2 * x + p) (show 2 * p ≠ 0 by omega)
  have hhigh := Int.emod_lt_of_pos (2 * x + p) (show 0 < 2 * p by omega)
  generalize (2 * x + p) / (2 * p) = m at hdiv
  refine ⟨m, rfl, ?_, ?_⟩
  · linarith
  · linarith

/-! ### The trigger of a wait (R686) -/

/-- What a SYNC edge makes of a quire. -/
def Quire.syncEdge (x : Quire) (t : Nat) : Quire :=
  match x.seq.wait, x.seq.plan with
  | some (.trig since none), b :: _ =>
    if x.state = .running && fld (x.bindMatch b.entry) 30 2 = 0 && decide (since < t) then { x with seq := { x.seq with wait := some (.trig since (some (t + 64000))) } }.dropLanding else x
  | _, _ => x

theorem State.syncTrigger_eq (s : State) (sub : Nat) : s.syncTrigger sub = s.each (List.finRange 8) fun u q => u.modQuire q (Quire.syncEdge · (4000 * s.time.ticks + sub)) := rfl

/-- Each quire is changed once. -/
theorem State.each_modQuire (f : Quire → Quire) (l : List QId) (hl : l.Nodup) (s : State) :
    (∃ qs, s.each l (fun u q => u.modQuire q f) = { s with quires := qs }) ∧ ∀ q, (s.each l fun u q => u.modQuire q f).quire q = if q ∈ l then f (s.quire q) else s.quire q := by
  induction l generalizing s with
  | nil => exact ⟨⟨_, rfl⟩, fun q => by simp [State.each]⟩
  | cons g l ih =>
    obtain ⟨hg, hl⟩ := List.nodup_cons.mp hl
    obtain ⟨⟨qs, hqs⟩, hquire⟩ := ih hl (s.modQuire g f)
    refine ⟨⟨qs, hqs⟩, fun q => (hquire q).trans ?_⟩
    rcases eq_or_ne q g with rfl | hq
    · rw [if_neg hg, if_pos List.mem_cons_self, State.quire_modQuire_same]
    · rw [State.quire_modQuire_other _ _ _ _ hq]
      simp [hq]

theorem State.syncTrigger_shape (s : State) (sub : Nat) : ∃ qs, s.syncTrigger sub = { s with quires := qs } := (State.each_modQuire _ _ (List.nodup_finRange 8) s).1

theorem State.syncTrigger_quire (s : State) (sub : Nat) (q : QId) : (s.syncTrigger sub).quire q = (s.quire q).syncEdge (4000 * s.time.ticks + sub) := by
  rw [State.syncTrigger_eq, (State.each_modQuire _ _ (List.nodup_finRange 8) s).2, if_pos (List.mem_finRange q)]

theorem Quire.syncEdge_quiet (x : Quire) (t : Nat) (h : ∀ since, x.seq.wait ≠ some (.trig since none)) : x.syncEdge t = x := by
  unfold Quire.syncEdge
  split
  next since b _ hw _ => exact absurd hw (h since)
  next => rfl

theorem State.syncTrigger_quiet (s : State) (sub : Nat) (h : ∀ q since, (s.quire q).seq.wait ≠ some (.trig since none)) : s.syncTrigger sub = s := by
  obtain ⟨qs, hqs⟩ := s.syncTrigger_shape sub
  have hsame : qs = s.quires := Vector.ext fun i hi => by
    have hq := s.syncTrigger_quire sub ⟨i, hi⟩
    rw [Quire.syncEdge_quiet _ _ (h ⟨i, hi⟩), hqs] at hq
    exact hq
  rw [hqs, hsame]

theorem Quire.syncEdge_waiting (x : Quire) {t since : Nat} {b : Block} {rest : List Block} (hw : x.seq.wait = some (.trig since none)) (hplan : x.seq.plan = b :: rest)
    (hrun : x.state = .running) (hsync : fld (x.bindMatch b.entry) 30 2 = 0) :
    x.syncEdge t = if since < t then { x with seq := { x.seq with wait := some (.trig since (some (t + 64000))) } }.dropLanding else x := by
  rw [Quire.syncEdge, hw, hplan]
  by_cases hlt : since < t
  · rw [if_pos hlt]
    exact if_pos (by simp [hrun, hsync, hlt])
  · rw [if_neg hlt]
    exact if_neg (by simp [hlt])

/-! ### Edges (R679 to R682) -/

/-- An edge is counted and its error shown. -/
def State.edgeSeen (s : State) (sub : Nat) : State := { s.bump (rk 3 0x10) with time := { s.time with syncError := clamp20 (s.edgeError sub) } }

theorem State.edgeSeen_tallies (s : State) (sub : Nat) : ({ s with time := { s.time with syncError := clamp20 (s.edgeError sub) } } : State).Tallies (s.edgeSeen sub) [rk 3 0x10] := by
  obtain ⟨hframe, hcount, hregs⟩ := s.bump_tallies (rk 3 0x10)
  refine ⟨?_, hcount, hregs⟩
  rw [State.edgeSeen, hframe]

theorem State.edgeSeen_quire (s : State) (sub : Nat) (q : QId) : (s.edgeSeen sub).quire q = s.quire q := by
  obtain ⟨hframe, -, -⟩ := s.edgeSeen_tallies sub
  rw [hframe]
  rfl

theorem State.syncCheck_none (s : State) (h : injecting 0x06 0 s.collector.injections = false) : s.syncCheck = (false, s) := by
  rw [State.syncCheck, State.check_none _ _ _ h]
  rfl

section
variable (s : State) (sub : Nat)

/-- Chip time, in units of 2^-32 ns, after a step by −e. -/
def Time.stepped (t : Time) (e : Int) : Nat := (((t.total : Int) - e * 2 ^ 32 / 4000).emod (2 ^ 96)).toNat

theorem State.stepBy_eq (e : Int) : s.stepBy e = { s with time := { s.time with
    ns := s.time.stepped e / 2 ^ 32, frac := s.time.stepped e % 2 ^ 32, past := { till := 4000 * s.time.ticks, total := s.time.total, increment := s.time.increment } :: s.time.past } } := by
  have hlt : s.time.stepped e < 2 ^ 96 := by
    have h := Int.emod_lt_of_pos ((s.time.total : Int) - e * 2 ^ 32 / 4000) (show (0 : Int) < 2 ^ 96 by decide)
    have h' := Int.emod_nonneg ((s.time.total : Int) - e * 2 ^ 32 / 4000) (show (2 : Int) ^ 96 ≠ 0 by decide)
    rw [Time.stepped]
    change (((s.time.total : Int) - e * 2 ^ 32 / 4000) % 2 ^ 96).toNat < 2 ^ 96
    omega
  have hns : s.time.stepped e / 2 ^ 32 % 2 ^ 64 = s.time.stepped e / 2 ^ 32 := Nat.mod_eq_of_lt (by omega)
  have hstep : s.stepBy e = { s with time := s.time.mark.setTotal (s.time.stepped e) } := rfl
  rw [hstep, Time.setTotal, hns]
  rfl

theorem syncInEdge_source (hrun : s.timingRuns = true) (hmode : s.syncMode = 2) : syncInEdge sub s = (s.edgeSeen sub).syncTrigger sub := by
  rw [syncInEdge]
  dsimp only
  rw [hrun, hmode, if_neg (by decide), if_pos (by decide), State.edgeSeen]

theorem State.logStep_shape (step : Int) (injected : Bool) : ∃ l c, s.logStep step injected = { s with log := l, collector := { s.collector with satPages := c } } := State.logEvent_shape _ _

theorem syncInEdge_acquire (hrun : s.timingRuns = true) (hmode : s.syncMode = 1) (hst : s.time.syncState = .acquire) :
    (syncInEdge sub s).time = { ((s.edgeSeen sub).stepBy (s.edgeError sub)).time with valid := true, syncState := .locked, misses := 0 } := by
  have hgo : syncInEdge sub s = (((({ (s.edgeSeen sub).stepBy (s.edgeError sub) with
      time := { ((s.edgeSeen sub).stepBy (s.edgeError sub)).time with valid := true, syncState := .locked, misses := 0 } } : State).logStep
        ((((s.edgeSeen sub).stepBy (s.edgeError sub)).time.ns : Int) - s.time.ns)).live 0x06 false).syncTrigger sub) := by
    rw [syncInEdge]
    dsimp only
    rw [hrun, hmode, if_neg (by decide), if_neg (by decide), hst]
    rfl
  rw [hgo]
  generalize (s.edgeSeen sub).stepBy (s.edgeError sub) = u
  generalize (u.time.ns : Int) - s.time.ns = step
  obtain ⟨l, c, hlog⟩ := ({ u with time := { u.time with valid := true, syncState := .locked, misses := 0 } } : State).logStep_shape step false
  rw [hlog]
  obtain ⟨a, b, qs, hlive⟩ := ({ u with time := { u.time with valid := true, syncState := .locked, misses := 0 }, log := l, collector := { u.collector with satPages := c } } : State).live_off 0x06
  rw [hlive]
  obtain ⟨qs', htrig⟩ := State.syncTrigger_shape { u with
    time := { u.time with valid := true, syncState := .locked, misses := 0 }, log := l, quires := qs
    collector := { u.collector with satPages := c, real := u.collector.real &&& ~~~(BitVec.ofNat 9 (2 ^ 0x06)), firstError := a, secondError := b } } sub
  rw [htrig]

theorem State.edgeSeen_injections : (s.edgeSeen sub).collector.injections = s.collector.injections := by
  obtain ⟨hframe, -, -⟩ := s.edgeSeen_tallies sub
  rw [hframe]

theorem State.edgeSeen_reg {k : Nat} (h : k ≠ rk 3 0x10) : (s.edgeSeen sub).reg k = s.reg k := (s.edgeSeen_tallies sub).2.2 k (by simpa using h)

theorem State.edgeSeen_window : (s.edgeSeen sub).syncWindow = s.syncWindow := by rw [State.syncWindow, s.edgeSeen_reg sub (by decide), State.syncWindow]

/-- What an edge of error `e` does to a chip in LOCKED. -/
def State.edgeLocked (s : State) (e : Int) : State :=
  if !s.syncCheck.1 && decide (|e| ≤ 4 * (s.syncCheck.2.syncWindow : Int)) then
    ({ s.syncCheck.2.stepBy e with time := { (s.syncCheck.2.stepBy e).time with misses := 0 } } : State).syncTrigger sub
  else s.syncCheck.2.syncMiss (s.syncCheck.1 && decide (|e| ≤ 4 * (s.syncCheck.2.syncWindow : Int)))

/-- What an edge of error `e` does to a chip in ACQUIRE, whose time was `old`. -/
def State.edgeAcquired (s : State) (e : Int) (old : Nat) : State :=
  ((({ s.stepBy e with time := { (s.stepBy e).time with valid := true, syncState := .locked, misses := 0 } } : State).logStep (((s.stepBy e).time.ns : Int) - old)).live 0x06 false).syncTrigger sub

theorem syncInEdge_eq (hrun : s.timingRuns = true) (hmode : s.syncMode = 1) : syncInEdge sub s =
    match (s.edgeSeen sub).time.syncState with
    | .acquire => (s.edgeSeen sub).edgeAcquired sub (s.edgeError sub) s.time.ns
    | .locked => (s.edgeSeen sub).edgeLocked sub (s.edgeError sub)
    | _ => s.edgeSeen sub := by
  have hgo : (!s.timingRuns || decide (s.syncMode = 0)) = false := by rw [hrun, hmode]; rfl
  rw [syncInEdge]
  dsimp only
  rw [hgo, if_neg Bool.false_ne_true, if_neg (not_not.mpr hmode)]
  rfl

theorem syncInEdge_locked (hrun : s.timingRuns = true) (hmode : s.syncMode = 1) (hst : s.time.syncState = .locked) (hinj : injecting 0x06 0 s.collector.injections = false) :
    syncInEdge sub s = if |s.edgeError sub| ≤ 4 * (s.syncWindow : Int) then
        ({ (s.edgeSeen sub).stepBy (s.edgeError sub) with time := { ((s.edgeSeen sub).stepBy (s.edgeError sub)).time with misses := 0 } } : State).syncTrigger sub
      else (s.edgeSeen sub).syncMiss false := by
  have hcheck := (s.edgeSeen sub).syncCheck_none (by rw [s.edgeSeen_injections sub]; exact hinj)
  have hstate : (s.edgeSeen sub).time.syncState = .locked := hst
  rw [syncInEdge_eq s sub hrun hmode, hstate]
  dsimp only
  rw [State.edgeLocked, hcheck, s.edgeSeen_window sub]
  simp only [Bool.not_false, Bool.true_and, Bool.false_and, decide_eq_true_eq]

end

/-! ### Misses (R680, R682) -/

section
variable (s : State)

theorem State.syncMiss_first (h : s.time.misses = 0) : (s.syncMiss false).time = { s.time with misses := 1 } ∧ Counted 1 (s.reg (rk 3 0x14)) ((s.syncMiss false).reg (rk 3 0x14)) := by
  rw [State.syncMiss]
  dsimp only
  rw [State.bump_time, if_pos h]
  exact ⟨rfl, s.bump_counted (rk 3 0x14) 1⟩

/-- The second miss in a row, counted. -/
def State.syncLost (s : State) : State := { (s.bump (rk 3 0x14)).bump (rk 3 0x18) with time := { s.time with misses := 0, syncState := .acquire } }

theorem State.syncMiss_lost (h : s.time.misses ≠ 0) : ∃ acts, s.syncMiss false = ((s.syncLost.live 0x06 true).report .alert 0x06 none acts 0xFF 0 0 false).timeCause := by
  rw [State.syncMiss]
  dsimp only
  rw [State.bump_time, if_neg h]
  exact ⟨_, rfl⟩

theorem State.syncLost_shape : ∃ g l c, s.syncLost = { s with regs := g, log := l, time := { s.time with misses := 0, syncState := .acquire }, collector := { s.collector with satPages := c } } := by
  obtain ⟨l, c, h⟩ := s.bump_shape (rk 3 0x14) 1
  obtain ⟨l', c', h'⟩ := (s.bump (rk 3 0x14)).bump_shape (rk 3 0x18) 1
  rw [State.syncLost, h', h]
  exact ⟨_, _, _, rfl⟩

theorem State.syncLost_counted : Counted 1 (s.reg (rk 3 0x14)) (s.syncLost.reg (rk 3 0x14)) ∧ Counted 1 (s.reg (rk 3 0x18)) (s.syncLost.reg (rk 3 0x18)) := by
  have h1 := s.bump_counted (rk 3 0x14) 1
  have h2 := (s.bump (rk 3 0x14)).bump_counted (rk 3 0x18) 1
  rw [State.bump_reg_other _ _ _ (by decide)] at h2
  rw [← State.bump_reg_other (s.bump (rk 3 0x14)) (rk 3 0x18) 1 (j := rk 3 0x14) (by decide)] at h1
  exact ⟨h1, h2⟩

theorem State.syncMiss_second (h : s.time.misses ≠ 0) : (s.syncMiss false).time = { s.time with misses := 0, syncState := .acquire }
    ∧ (s.syncMiss false).collector.live.getLsbD 6 = true ∧ Counted 1 (s.reg (rk 3 0x14)) ((s.syncMiss false).reg (rk 3 0x14))
    ∧ Counted 1 (s.reg (rk 3 0x18)) ((s.syncMiss false).reg (rk 3 0x18)) ∧ (s.syncMiss false).collector.reports.length = s.collector.reports.length + 1 := by
  obtain ⟨acts, hmiss⟩ := s.syncMiss_lost h
  obtain ⟨g, l, c, hlost⟩ := s.syncLost_shape
  obtain ⟨h1, h2⟩ := s.syncLost_counted
  have htime : ((s.syncLost.live 0x06 true).report .alert 0x06 none acts 0xFF 0 0 false).time = s.syncLost.time := by rw [State.report_time, State.live, if_pos rfl]
  have hregs : ((s.syncLost.live 0x06 true).report .alert 0x06 none acts 0xFF 0 0 false).regs = s.syncLost.regs := by rw [State.report_regs, State.live, if_pos rfl]
  have hlive : ((s.syncLost.live 0x06 true).report .alert 0x06 none acts 0xFF 0 0 false).collector.live.getLsbD 6 = true := by
    simp [State.report, State.live, Collector.live]
  have hreports : ((s.syncLost.live 0x06 true).report .alert 0x06 none acts 0xFF 0 0 false).collector.reports.length = s.syncLost.collector.reports.length + 1 := List.length_append
  rw [hmiss]
  generalize (s.syncLost.live 0x06 true).report .alert 0x06 none acts 0xFF 0 0 false = u at htime hregs hlive hreports
  obtain ⟨qs, hqs⟩ := u.timeCause_shape
  have hread : ∀ k, u.timeCause.reg k = s.syncLost.reg k := fun k => by rw [hqs, State.reg, State.reg, ← hregs]
  rw [hread, hread, hqs]
  refine ⟨?_, hlive, h1, h2, ?_⟩
  · rw [htime, hlost]
  · rw [hreports, hlost]

end

end Sys2Proof.Machine

namespace Sys2Proof.Proofs
open Sys2Proof.Machine

/-- Settles O25: an edge is seen, steps chip time or is a miss, and is the trigger of the waits for SYNC. -/
theorem syncEdges : Obligations.SyncEdges := by
  intro s sub mode period window e at_ shown total stepped law good quiet missed hrun hinj hperiod
  have hseen := s.edgeSeen_tallies sub
  have hquiet : quiet → ∀ q since, ((s.edgeSeen sub).quire q).seq.wait ≠ some (.trig since none) := fun h q since => by
    rw [s.edgeSeen_quire]
    exact h q since
  refine ⟨s.edgeError_nearest sub hperiod, fun hm hq => ?_, fun hm hst hg hq => ?_, fun hm hst => ?_, fun hm hst hg => ?_, fun hm hst => ?_, fun hm => ?_, fun hm b hb => ?_, fun hm q b rest since hw hplan hst hsync => ?_⟩
  · exact ⟨_, congrArg Host.Outcome.next ((syncInEdge_source s sub hrun hm).trans ((s.edgeSeen sub).syncTrigger_quiet sub (hquiet hq))), hseen⟩
  · have hgo := syncInEdge_locked s sub hrun hm hst hinj
    rw [if_pos (show |s.edgeError sub| ≤ 4 * (s.syncWindow : Int) from hg), State.stepBy_eq] at hgo
    have htrig := State.syncTrigger_quiet { s.edgeSeen sub with
      time := { (s.edgeSeen sub).time with
        misses := 0, ns := (s.edgeSeen sub).time.stepped (s.edgeError sub) / 2 ^ 32, frac := (s.edgeSeen sub).time.stepped (s.edgeError sub) % 2 ^ 32
        past := { till := 4000 * (s.edgeSeen sub).time.ticks, total := (s.edgeSeen sub).time.total, increment := (s.edgeSeen sub).time.increment } :: (s.edgeSeen sub).time.past } } sub (hquiet hq)
    refine ⟨_, congrArg Host.Outcome.next (hgo.trans htrig), ?_⟩
    obtain ⟨hframe, hcount, hregs⟩ := hseen
    refine ⟨?_, hcount, hregs⟩
    generalize s.edgeSeen sub = u at hframe
    rw [hframe]
    rfl
  · refine ⟨_, rfl, (syncInEdge_acquire s sub hrun hm hst).trans ?_⟩
    rw [State.stepBy_eq]
    rfl
  · have hgo := syncInEdge_locked s sub hrun hm hst hinj
    rw [if_neg (show ¬|s.edgeError sub| ≤ 4 * (s.syncWindow : Int) from hg)] at hgo
    have h14 := s.edgeSeen_reg sub (k := rk 3 0x14) (by decide)
    have h18 := s.edgeSeen_reg sub (k := rk 3 0x18) (by decide)
    have hrep : (s.edgeSeen sub).collector.reports = s.collector.reports := by rw [hseen.1]
    refine ⟨fun h0 => ?_, fun h0 => ?_⟩
    · obtain ⟨htime, hcount⟩ := (s.edgeSeen sub).syncMiss_first h0
      rw [h14] at hcount
      exact ⟨_, congrArg Host.Outcome.next hgo, by rw [htime], by rw [htime]; exact hst, by rw [htime]; rfl, hcount⟩
    · obtain ⟨htime, hlive, hcount, hcount', hlen⟩ := (s.edgeSeen sub).syncMiss_second h0
      rw [h14] at hcount
      rw [h18] at hcount'
      exact ⟨_, congrArg Host.Outcome.next hgo, by rw [htime], by rw [htime], by rw [htime]; rfl, hlive, hcount, hcount', by rw [hlen, hrep]⟩
  · have hgo : syncMissTimeout s = s.syncMiss false := by
      have hif : (s.timingRuns && decide (s.syncMode = 1) && decide (s.time.syncState = .locked)) = true := by
        rw [hrun, hst, show s.syncMode = 1 from hm]
        rfl
      rw [syncMissTimeout, if_pos hif, s.syncCheck_none hinj]
    refine ⟨fun h0 => ?_, fun h0 => ?_⟩
    · obtain ⟨htime, hcount⟩ := s.syncMiss_first h0
      exact ⟨_, congrArg Host.Outcome.next hgo, by rw [htime], by rw [htime]; exact hst, by rw [htime], hcount⟩
    · obtain ⟨htime, hlive, hcount, hcount', hlen⟩ := s.syncMiss_second h0
      exact ⟨_, congrArg Host.Outcome.next hgo, by rw [htime], by rw [htime], by rw [htime], hlive, hcount, hcount', hlen⟩
  · have hif : (s.timingRuns && decide (s.syncMode = 2)) = true := by
      rw [hrun, show s.syncMode = 2 from hm]
      rfl
    refine congrArg Host.Outcome.next ((if_pos hif).trans ?_)
    rw [State.lastMultiple, show max 1 s.syncPeriod = s.syncPeriod from max_eq_right hperiod]
    rfl
  · rw [State.syncOutHigh, hb, show s.syncMode = 2 from hm]
    simp
  · refine ⟨_, congrArg Host.Outcome.next (syncInEdge_source s sub hrun hm), fun hlt => ?_, fun hge => ?_⟩
    · rw [State.syncTrigger_quire, s.edgeSeen_quire, Quire.syncEdge_waiting _ hw hplan hst hsync]
      exact if_pos hlt
    · rw [State.syncTrigger_quire, s.edgeSeen_quire, Quire.syncEdge_waiting _ hw hplan hst hsync]
      exact if_neg (Nat.not_lt.mpr hge)

end Sys2Proof.Proofs
end

section
/-! Chip time, its commands and its tick (R218, R268, R275, R290, R303, R660 to R666, R695, R795, R865). -/

namespace Sys2Proof.Machine

/-! ### Times in packets -/

theorem le_split (a b v : Nat) : le (a + b) v = le a v ++ le b (v / 256 ^ a) := by
  induction a generalizing v with
  | zero => simp [le]
  | succ a ih => rw [Nat.succ_add, le, le, List.cons_append, ih, Nat.div_div_eq_div_mul, ← pow_succ']

theorem t12_eq (oz : Bool) (ns : Nat) : t12 oz ns = if oz then le 4 (ns % 1000000000) ++ le 8 (ns / 1000000000 % 2 ^ 48) else le 8 ns ++ le 4 0 := by
  cases oz with
  | true => simp only [t12, timeWords, if_true, leW_ofNat, le_split 4 4, List.append_assoc]; rfl
  | false => simp only [t12, timeWords, Bool.false_eq_true, if_false, leW_ofNat, le_split 4 4]; rfl

/-! ### A command that counts -/

/-- A state keeps its books, and what it counted, through a change of something else. -/
theorem State.Booked.mapAlso {s t : State} {also : List Nat} (h : s.Booked t also) (g : State → State) (hcomm : ∀ b, g (s.withBooks b) = (g s).withBooks b) (hregs : (g s).regs = s.regs) :
    (g s).Booked (g t) also := by
  have ht : g t = (g s).withBooks t.books := by rw [← hcomm, ← h.eq_withBooks]
  have hreg : ∀ k, (g s).reg k = s.reg k := fun k => by rw [State.reg, hregs, State.reg]
  have hreg' : ∀ k, (g t).reg k = t.reg k := fun k => by rw [ht]; rfl
  obtain ⟨-, hcount, hkeep⟩ := h
  exact ⟨by rw [ht]; rfl, fun k hk => by rw [hreg, hreg']; exact hcount k hk, fun k hk hr => by rw [hreg, hreg']; exact hkeep k hk hr⟩

/-- A command that counts, changes something else than the books of packets, and replies. -/
theorem State.serves_bump {s : State} {o : OpSpec} {h : Hdr} {p : Params} {i : Instr} {res : List Byte} (ht : s.Takes o h p) (g : State → State) {k : Nat} (hk : k < rk 8 0x104)
    (hexec : exec i s = .next ((g ((s.taken h o.opcode).bump k)).reply (hdrDest h o.opcode) stOk 0 res))
    (hcomm : ∀ b, g (s.withBooks b) = (g s).withBooks b) (hregs : (g s).regs = s.regs) (hspine : (g s).spine = s.spine) (hocc : ∀ q, ((g s).quire q).occupied = (s.quire q).occupied) :
    s.Serves i h o res (g s) [k] := by
  have hbooked := (s.taken_booked h o.opcode).bumpAlso hk
  have heq : g ((s.taken h o.opcode).bump k) = (g s).withBooks ((s.taken h o.opcode).bump k).books := by rw [← hcomm, ← hbooked.eq_withBooks]
  have hdue : s.Due (g ((s.taken h o.opcode).bump k)) o h := ht.due.of (by rw [heq]; exact State.bump_sent _ _ _) (by rw [heq]; exact State.bump_links _ _ _)
    (by rw [heq, (s.taken_booked h o.opcode).spine]; exact hspine)
    (fun q => by
      have hq : (s.taken h o.opcode).quire q = s.quire q := State.quire_congr _ _ _ (s.taken_booked h o.opcode).quires
      rw [heq, hq]
      exact hocc q)
    (by
      have hsess : ((s.taken h o.opcode).bump k).sessions = (s.taken h o.opcode).sessions := State.bump_sessions _ _ _
      rw [heq]
      exact congrArg (fun v : Vector Session 8 => v[h.link].inProgress) hsess)
  exact hdue.serves hexec (hbooked.mapAlso g hcomm hregs) fun j hj => .inl (by rwa [List.mem_singleton.mp hj])

/-! ### A tick of a quire -/

section
variable (x : Quire)

theorem Quire.pinsAt_runs (now : Nat) (h : ∀ p t, x.parkDue = some (p, t) → now < t) : x.pinsAt now = x.firePins ((now : Int) - x.origin) := by
  unfold Quire.pinsAt
  split
  next p t ht => rw [if_neg (Nat.not_le.mpr (h p t ht))]
  next => rfl

theorem Quire.pinsAt_parks {p t now : Nat} (h : x.parkDue = some (p, t)) (ht : t ≤ now) : (x.pinsAt now).spilled = [] ∧ (x.pinsAt now).parkDue = none
    ∧ (x.spilled = [] → (x.pinsAt now).pins = (x.takeProfile p).pins ∧ (x.pinsAt now).termOn = (x.takeProfile p).termOn) := by
  refine ⟨?_, ?_, fun hs => ?_⟩
  · rw [Quire.pinsAt, h]
    exact congrArg Quire.spilled (if_pos ht)
  · rw [Quire.pinsAt, h]
    exact congrArg Quire.parkDue (if_pos ht)
  · rw [x.pinsAt_due hs h ht]
    exact ⟨rfl, rfl⟩

theorem Quire.markerTick_active (now m : Nat) (hm : m < 2) : ((x.markerTick now).marker m).active = ((x.marker m).active && !(x.markerFall m).any (· < now)) := by
  have hget : (x.markerTick now).marker m =
      if (x.marker m).active then (match x.markerFall m with | some t => if t < now then (x.marker m).falls t else x.marker m | none => x.marker m) else x.marker m := by
    rw [Quire.marker, Quire.markerTick, List.getD_eq_getElem?_getD, List.getElem?_map, List.getElem?_range hm]
    rfl
  rw [hget]
  cases ha : (x.marker m).active with
  | false => simpa using ha
  | true =>
    rw [if_pos rfl]
    cases x.markerFall m with
    | none => simpa using ha
    | some t =>
      dsimp only [Option.any_some]
      by_cases ht : t < now
      · rw [if_pos ht, decide_eq_true ht, Marker.falls, if_pos ha]
        rfl
      · rw [if_neg ht, decide_eq_false ht, ha]
        rfl

/-- What falls of a marker is not in the pins. -/
theorem Quire.pinsAt_marker (now m : Nat) : (x.pinsAt now).marker m = x.marker m ∧ (x.pinsAt now).markerFall m = x.markerFall m := by
  obtain ⟨pins, spilled, park, term, h⟩ := x.pinsAt_shape now
  have hspan : ∀ hold l n, ({ x with pins := pins, spilled := spilled, parkDue := park, termOn := term } : Quire).spanOf hold l n = x.spanOf hold l n := fun hold l n =>
    Quire.spanOf_congr (x := x) (z := { x with pins := pins, spilled := spilled, parkDue := park, termOn := term }) (fun _ _ => rfl) l n hold
  have hinstant : ∀ n, (x.pinsAt now).vectorInstant n = x.vectorInstant n := fun n => by
    rw [h]
    simp only [Quire.vectorInstant, Quire.vectorStart, hspan]
    rfl
  refine ⟨by rw [h]; rfl, ?_⟩
  rw [Quire.markerFall, Quire.markerFall, hinstant, h]
  rfl

theorem Quire.tick_pins (ns ticks : Nat) : (x.tick ns 1 ticks).pins = (x.pinsAt (ticks * 4000)).pins ∧ (x.tick ns 1 ticks).spilled = (x.pinsAt (ticks * 4000)).spilled
    ∧ (x.tick ns 1 ticks).termOn = (x.pinsAt (ticks * 4000)).termOn ∧ (x.tick ns 1 ticks).parkDue = (x.pinsAt (ticks * 4000)).parkDue := ⟨rfl, rfl, rfl, rfl⟩

/-- What a tick makes of a quire. -/
structure Quire.Ticks (x y : Quire) (ns now : Nat) : Prop where
  frame : y = { x with
    dram := { x.dram with clock := x.dram.clock + 1 }
    ready := x.ready ++ x.delay.filter fun it => match it.due with | some d => decide (d ≤ ns) | none => true
    delay := x.delay.filter fun it => !(match it.due with | some d => decide (d ≤ ns) | none => true)
    pins := y.pins, termOn := y.termOn, spilled := y.spilled, parkDue := y.parkDue, markers := y.markers }
  runs : (∀ p t, x.parkDue = some (p, t) → now < t) → y.pins = (x.firePins ((now : Int) - x.origin)).pins ∧ y.spilled = (x.firePins ((now : Int) - x.origin)).spilled
    ∧ y.termOn = x.termOn ∧ y.parkDue = x.parkDue
  parks : ∀ p t, x.parkDue = some (p, t) → t ≤ now → y.spilled = [] ∧ y.parkDue = none ∧ (x.spilled = [] → y.pins = (x.takeProfile p).pins ∧ y.termOn = (x.takeProfile p).termOn)
  markers : ∀ m < 2, (y.marker m).active = ((x.marker m).active && !(x.markerFall m).any (· < now))

theorem Quire.tick_ticks (ns ticks : Nat) : x.Ticks (x.tick ns 1 ticks) ns (ticks * 4000) := by
  obtain ⟨pins, spilled, park, term, h⟩ := x.pinsAt_shape (ticks * 4000)
  refine ⟨?_, fun hrun => ?_, fun p t hp ht => ?_, fun m hm => ?_⟩
  · rw [Quire.tick, h]
    rfl
  · have hpins := x.pinsAt_runs _ hrun
    obtain ⟨h1, h2, h3, h4⟩ := x.tick_pins ns ticks
    rw [hpins] at h1 h2 h3 h4
    exact ⟨h1, h2, h3, h4⟩
  · obtain ⟨h1, h2, h3, h4⟩ := x.tick_pins ns ticks
    rw [h1, h2, h3, h4]
    exact x.pinsAt_parks hp ht
  · obtain ⟨h1, h2⟩ := x.pinsAt_marker (ticks * 4000) m
    have hm' := (x.pinsAt (ticks * 4000)).markerTick_active (ticks * 4000) m hm
    rw [h1, h2] at hm'
    exact hm'

end

/-! ### The tick of the chip -/

section
variable (s : State)

/-- Chip time one tick on, with what waited for it taken up (R660, R662). -/
def State.advanced (s : State) : State := { s with time := { s.time.setTotal (s.time.total + s.time.increment) with ticks := s.time.ticks + 1, pending := [] } }

/-- Every quire at the tick. -/
def State.tickQuires (s : State) : State := { s with quires := s.quires.map (Quire.tick s.time.ns 1 s.time.ticks) }

theorem timeTick_eq (h : s.timingRuns = true) : timeTick s = (s.time.pending.foldl State.applyTime s.advanced).tickQuires.reselect := by
  rw [timeTick, if_neg (by simp [h])]
  rfl

theorem timeTick_stopped (h : s.timingRuns = false) : timeTick s = s := by rw [timeTick, if_pos (by simp [h])]

theorem State.tickQuires_ticks (q : QId) : (s.quire q).Ticks (s.tickQuires.quire q) s.time.ns (s.time.ticks * 4000) := by
  have h : s.tickQuires.quire q = (s.quire q).tick s.time.ns 1 s.time.ticks := by simp [State.quire, State.tickQuires]
  rw [h]
  exact (s.quire q).tick_ticks _ _

/-- What the changed selections leave (R795). -/
structure State.Reselects (s t : State) : Prop where
  frame : t = { s with cal := { s.cal with selections := t.cal.selections, waiting := t.cal.waiting } }
  none : s.cal.waiting = [] → t.cal = s.cal
  subset : ∀ r ∈ t.cal.waiting, r ∈ s.cal.waiting

theorem State.reselect_reselects : s.Reselects s.reselect := by
  refine ⟨rfl, fun h => ?_, fun r hr => List.mem_of_mem_filter hr⟩
  rw [State.reselect, h]
  exact congrArg (fun l => ({ s.cal with waiting := l } : CalStore)) h.symm

theorem State.loadTime_tallies (v : Nat) (h : s.syncMode = 0) : ({ s with time := { s.time.mark.setTotal v with valid := true } } : State).Tallies (s.loadTime v) [rk 2 0x20] := by
  rw [State.loadTime]
  dsimp only
  generalize hu : ({ s with time := { s.time.mark.setTotal v with valid := true } } : State) = u
  have hmode : u.syncMode = 0 := by rw [← hu]; exact h
  generalize ((s.time.mark.setTotal v).ns : Int) - s.time.ns = step
  obtain ⟨hframe, hcount, hregs⟩ := u.bump_tallies (rk 2 0x20)
  obtain ⟨l, c, hlog⟩ := (u.bump (rk 2 0x20)).logStep_shape step false
  have hmode' : ((u.bump (rk 2 0x20)).logStep step).syncMode = 0 := by
    rw [hlog]
    exact (congrArg (fld · 30 2) (hregs (rk 3 0) (by decide))).trans hmode
  have hcause : ((u.bump (rk 2 0x20)).logStep step).timeBad = false := by rw [State.timeBad, hmode']; rfl
  rw [State.acquire, if_neg (by rw [hmode']; decide), State.timeCause, if_neg (by rw [hcause]; decide), hlog]
  exact ⟨by rw [hframe], hcount, hregs⟩

theorem State.Tallies.withQuires {w u t : State} {keys : List Nat} (h : w.Tallies u keys) (ht : t = { u with quires := t.quires, cal := t.cal }) :
    ({ w with quires := t.quires, cal := t.cal } : State).Tallies t keys := by
  obtain ⟨hframe, hcount, hregs⟩ := h
  generalize t.quires = qs, t.cal = c at ht ⊢
  subst ht
  exact ⟨by rw [hframe], hcount, hregs⟩

/-- What a tick leaves once what waited has made the chip `u`, of whose quires and calibration it changed nothing. -/
theorem State.tick_leaves {s u : State} (hq : u.quires = s.quires) (hcal : u.cal = s.cal) (ht : u.time.ticks = s.time.ticks + 1) :
    u.tickQuires.reselect = { u with quires := u.tickQuires.reselect.quires, cal := u.tickQuires.reselect.cal }
      ∧ (∀ q, (s.quire q).Ticks (u.tickQuires.reselect.quire q) u.tickQuires.reselect.time.ns ((s.time.ticks + 1) * 4000))
      ∧ u.tickQuires.reselect.cal = { s.cal with selections := u.tickQuires.reselect.cal.selections, waiting := u.tickQuires.reselect.cal.waiting }
      ∧ (s.cal.waiting = [] → u.tickQuires.reselect.cal = s.cal) ∧ ∀ r ∈ u.tickQuires.reselect.cal.waiting, r ∈ s.cal.waiting := by
  obtain ⟨hframe, hnone, hsub⟩ := u.tickQuires.reselect_reselects
  have hcal' : u.tickQuires.cal = s.cal := hcal
  rw [hcal'] at hnone hsub
  refine ⟨rfl, fun q => ?_, ?_, hnone, hsub⟩
  · have h := u.tickQuires_ticks q
    rw [State.quire_congr _ _ q hq, ht] at h
    exact h
  · rw [← hcal]
    rfl

end

end Sys2Proof.Machine

namespace Sys2Proof.Proofs
open Sys2Proof.Machine

/-- Settles O24: the commands change what waits for the tick, and the tick takes it up, moves every quire and the selections. -/
theorem chipTime : Obligations.ChipTime := by
  intro s h p ns asked rate total ticked law stepped selects due now quires
  refine ⟨fun ht hok hlt => ?_, fun ht hlo hhi => ?_, fun ht => ?_, fun hrun hheld => ?_, fun hstop hheld => ?_⟩
  · have hcheck : (if !t12Ok (s.freeBuffer h.link h.cls).modeOz p 0 || decide (2 ^ 63 ≤ parT12 (s.freeBuffer h.link h.cls).modeOz p 0) then rangeAt 0 else none) = none := by
      rw [State.freeBuffer_modeOz, hok]
      exact if_neg (by simpa using Nat.not_le.mpr hlt)
    have hexec := exec_command (i := .timeSet h p) (o := opTimeSet) (row := .timeSet) (run := doTimeSet) rfl (doTimeSet.eq_1 h p s) (by decide) ht hcheck
    refine State.serves_map ht (fun u => { u with time := { u.time with pending := u.time.pending ++ [.set asked] } }) (hexec.trans ?_) (fun _ => rfl) rfl rfl fun _ => rfl
    rw [State.taken_withBooks]
    rfl
  · have hexec := exec_command (i := .timeAdj h p) (o := opTimeAdj) (row := .timeAdj) (run := doTimeAdj) rfl (doTimeAdj.eq_1 h p s) (by decide) ht (if_pos ⟨hlo, hhi⟩)
    refine State.serves_bump ht (fun u => { u with time := { u.time with pending := u.time.pending ++ [.adj (BitVec.ofNat 40 rate)] } }) (by decide) (hexec.trans ?_) (fun _ => rfl) rfl rfl fun _ => rfl
    rw [State.bump_time]
  · have hexec := exec_command (i := .timeRead h p) (o := opTimeRead) (row := .timeRead) (run := doTimeRead) rfl (doTimeRead.eq_1 h p s) (by decide) ht rfl
    refine State.serves_map ht id (hexec.trans ?_) (fun _ => rfl) rfl rfl fun _ => rfl
    rw [State.taken_withBooks, t12_eq]
    rfl
  · have hexec : exec .timeTick s = .next (s.time.pending.foldl State.applyTime s.advanced).tickQuires.reselect.takeStreams := by
      rw [← timeTick_eq s hrun]
      rfl
    have hquires : ∀ {u : State}, (∀ q, (s.quire q).Ticks (u.quire q) u.time.ns ((s.time.ticks + 1) * 4000)) → quires u := fun hu q => by
      obtain ⟨hframe, hruns, hparks, hmarkers⟩ := hu q
      exact ⟨hframe, hruns, hparks, hmarkers⟩
    have hdone : ∀ {u : State}, s.time.pending.foldl State.applyTime s.advanced = u → u.heldPackets = [] → u.quires = s.quires → u.cal = s.cal → u.time.ticks = s.time.ticks + 1 →
        ∃ t, exec .timeTick s = .next t ∧ t = { u with quires := t.quires, cal := t.cal } ∧ quires t ∧ selects t := fun {u} hu hheld' hq hcal hticks => by
      obtain ⟨hframe, htick, hsel⟩ := State.tick_leaves hq hcal hticks
      refine ⟨_, hexec, ?_⟩
      rw [hu, State.takeStreams_of_none (by rw [hframe]; exact hheld')]
      exact ⟨hframe, hquires htick, hsel⟩
    have hload : ∀ n, s.time.pending.foldl State.applyTime s.advanced = s.advanced.loadTime n → s.syncMode = 0 → ∃ t, exec .timeTick s = .next t
        ∧ ({ s with time := { s.advanced.time.mark.setTotal n with valid := true }, quires := t.quires, cal := t.cal } : State).Tallies t [rk 2 0x20] ∧ quires t ∧ selects t := fun n hn hm => by
      have htally := s.advanced.loadTime_tallies n hm
      have hframe := htally.1
      obtain ⟨t, hex, ht, hqs, hsel⟩ := hdone hn (by rw [hframe]; exact hheld) (by rw [hframe]; rfl) (by rw [hframe]; rfl) (by rw [hframe]; rfl)
      exact ⟨t, hex, htally.withQuires ht, hqs, hsel⟩
    refine ⟨fun hp => ?_, fun i hp => ?_, fun v hp hm => ?_, fun v before hp hm => ?_⟩
    · obtain ⟨t, hex, hframe, hqs, hsel⟩ := hdone (u := s.advanced) (by rw [hp]; rfl) hheld rfl rfl rfl
      refine ⟨t, hex, hframe.trans ?_, hqs, hsel⟩
      rw [State.advanced, ← hp]
      rfl
    · obtain ⟨t, hex, hframe, hqs, hsel⟩ := hdone (u := s.advanced.applyTime (.adj i)) (by rw [hp]; rfl) hheld rfl rfl rfl
      exact ⟨t, hex, hframe, hqs, hsel⟩
    · obtain ⟨t, hex, htally, hqs, hsel⟩ := hload (2 ^ 32 * v) (by rw [hp]; rfl) hm
      have hns : 2 ^ 32 * v / 2 ^ 32 = v := Nat.mul_div_cancel_left v (by decide)
      have hfrac : 2 ^ 32 * v % 2 ^ 32 = 0 := Nat.mul_mod_right _ _
      rw [Time.setTotal, hns, hfrac] at htally
      exact ⟨t, hex, hqs, hsel, htally⟩
    · obtain ⟨t, hex, htally, hqs, hsel⟩ := hload (v + ((before + 4000) * s.time.increment / 4000).toNat) (by rw [hp]; rfl) hm
      exact ⟨t, _, hex, hqs, hsel, rfl, htally⟩
  · have hexec : exec .timeTick s = .next (timeTick s).takeStreams := rfl
    rw [hexec, timeTick_stopped s hstop, State.takeStreams_of_none hheld]

end Sys2Proof.Proofs
end

section
/-! Checks of a pin's edges, its driver and its DACs (R276 to R279, R326, R337 to R342, R347, R357, R741, R742, R744, R772). -/

namespace Sys2Proof.Machine

/-! ### Steps of a quire that report -/

/-- What a step says to the fault collector. -/
structure Said where
  severity : Severity
  checker : Nat
  element : Byte
  cause : Byte
  detail : Int
  injected : Bool

def Fx.said : Fx → Option Said
  | .report sev c el cause d inj => some { severity := sev, checker := c, element := el, cause := cause, detail := d, injected := inj }
  | _ => none

/-- The report as the collector receives it. -/
def Said.report (x : Said) (s : State) (q : QId) : Report :=
  { severity := x.severity, checker := x.checker, quire := some q, acts := [], element := x.element, cause := x.cause, detail := BitVec.ofInt 24 x.detail, injected := x.injected
    timeNs := s.time.ns, timeValid := s.time.valid }

/-- The step asks for entries of the log and for the reports `l`. -/
structure W.Says (w : W) (l : List Said) : Prop where
  told : ∀ x ∈ w.fx, x.logs = true ∨ x.said.isSome = true
  reports : w.fx.filterMap Fx.said = l

theorem Fx.said_of_logs (x : Fx) (h : x.logs = true) : x.said = none := by
  cases x <;> simp_all [Fx.logs, Fx.said]

section
variable {w : W} {l : List Said}

theorem W.Says.asks (h : w.Says l) {v : W} {fx : List Fx} (hv : v.fx = w.fx ++ fx) (hfx : ∀ x ∈ fx, x.logs = true) : v.Says l where
  told x hx := by
    rw [hv, List.mem_append] at hx
    exact hx.elim (h.told x) fun hx => .inl (hfx x hx)
  reports := by
    have hnone : fx.filterMap Fx.said = [] := List.filterMap_eq_nil_iff.mpr fun x hx => x.said_of_logs (hfx x hx)
    rw [hv, List.filterMap_append, h.reports, hnone, List.append_nil]

theorem W.Quiet.says (h : w.Quiet) : w.Says [] := ⟨fun x hx => .inl (h x hx), List.filterMap_eq_nil_iff.mpr fun x hx => x.said_of_logs (h x hx)⟩

theorem Quire.w_says (x : Quire) : x.w.Says [] := x.w_quiet.says

theorem W.Says.upd (h : w.Says l) (f : Quire → Quire) : (w.upd f).Says l := ⟨h.told, h.reports⟩

theorem W.Says.bump (h : w.Says l) (k n : Nat) : (w.bump k n).Says l := by
  obtain ⟨v, m, fx, hw, hfx, -⟩ := w.bump_shape k n
  exact h.asks (by rw [hw]) hfx

theorem W.Says.log (h : w.Says l) (code : Byte) (source : Nat) (d0 d1 d2 : Word) (i : Bool) : (w.log code source d0 d1 d2 i).Says l :=
  h.asks (fx := [.log code source d0 d1 d2 i]) rfl fun x hx => by rw [List.mem_singleton.mp hx]; rfl

theorem W.Says.report (h : w.Says l) (sev : Severity) (c : Nat) (el cause : Byte) (d : Int) (inj : Bool) :
    (w.report sev c el cause d inj).Says (l ++ [{ severity := sev, checker := c, element := el, cause := cause, detail := d, injected := inj }]) where
  told x hx := (List.mem_append.mp hx).elim (h.told x) fun hx => by rw [List.mem_singleton.mp hx]; exact .inr rfl
  reports := by
    rw [← h.reports]
    exact List.filterMap_append

theorem W.Says.ite {c : Prop} [Decidable c] {v : W} {l' : List Said} (hv : v.Says l) (hw : w.Says l') : (if c then v else w).Says (if c then l else l') := by
  split
  · exact hv
  · exact hw

end

theorem ofNat_ofInt (d : Int) : BitVec.ofNat 24 (ofInt 24 d) = BitVec.ofInt 24 d := by
  apply BitVec.eq_of_toNat_eq
  rw [BitVec.toNat_ofNat, BitVec.toNat_ofInt, ofInt]
  omega

/-- A step that reports lies within its quire. -/
theorem State.onQuire_says (s : State) (q : QId) (f : Quire → W) {l : List Said} (h : (f (s.quire q)).Says l) :
    s.Within (s.onQuire q f) q ∧ (s.onQuire q f).quire q = (f (s.quire q)).q ∧ (s.onQuire q f).collector.reports = s.collector.reports ++ l.map fun x => x.report s q := by
  have hfold : ∀ (fx : List Fx) (t : State), (∀ x ∈ fx, x.logs = true ∨ x.said.isSome = true) → ∃ g c,
      fx.foldl (State.runFx q) t = { t with log := g, collector := { t.collector with satPages := c, reports := t.collector.reports ++ (fx.filterMap Fx.said).map fun x => x.report t q } } := by
    intro fx
    induction fx with
    | nil => exact fun t _ => ⟨t.log, t.collector.satPages, by simp⟩
    | cons x fx ih =>
      intro t hfx
      have hx := hfx x List.mem_cons_self
      have hrest := fun t => ih t fun y hy => hfx y (List.mem_cons_of_mem x hy)
      rw [List.foldl_cons]
      cases x with
      | report sev c el cause d inj =>
        obtain ⟨g, c', hg⟩ := hrest (State.runFx q t (.report sev c el cause d inj))
        refine ⟨g, c', hg.trans ?_⟩
        simp only [State.runFx, State.report, Fx.said, List.filterMap_cons, List.map_cons, Said.report, ofNat_ofInt, List.append_assoc, List.singleton_append]
      | log code source d0 d1 d2 i =>
        obtain ⟨l, c, hl⟩ := State.runFx_logs t q (.log code source d0 d1 d2 i) rfl
        obtain ⟨g, c', hg⟩ := hrest (State.runFx q t (.log code source d0 d1 d2 i))
        rw [hg, hl]
        exact ⟨g, c', rfl⟩
      | saturated k =>
        obtain ⟨l, c, hl⟩ := State.runFx_logs t q (.saturated k) rfl
        obtain ⟨g, c', hg⟩ := hrest (State.runFx q t (.saturated k))
        rw [hg, hl]
        exact ⟨g, c', rfl⟩
      | _ => exact absurd hx (by simp [Fx.logs, Fx.said])
  obtain ⟨g, c, hrun⟩ := hfold (f (s.quire q)).fx (s.setQuire q (f (s.quire q)).q) h.told
  have hdef : s.onQuire q f = (f (s.quire q)).fx.foldl (State.runFx q) (s.setQuire q (f (s.quire q)).q) := rfl
  rw [hdef, hrun, h.reports]
  exact ⟨State.within_setQuire s q _ _ _ _, State.quire_setQuire_same _ _ _, rfl⟩

/-! ### Instances that a check can concern (R357, R742) -/

/-- The quire with a cause in its instances of the last `span` ns. -/
def Quire.suspects (x : Quire) (ticks b span : Nat) : Quire :=
  { x with insts := x.insts.map fun i => if i.hold.isNone ∨ ticks - i.endedAt ≤ span then { i with causes := i.causes ||| BitVec.ofNat 16 (2 ^ b) } else i }

theorem W.cause_eq (w : W) (c : Ctx) (b span : Nat) : w.cause c b span = w.upd fun x => x.suspects c.ticks b span := rfl

/-! ### A check of the pin electronics that fails (R347) -/

/-- A failed check counts in `k`, shows in `RB_LAST`, and marks the instances. -/
def W.checkFails (w : W) (c : Ctx) (k p code span : Nat) : W := ((w.bump k).setLive (rk 0x09 0x100C) (packW [(8, p), (0, code)])).cause c cbPinCheck span

section
variable (x : Quire) (c : Ctx) (k p code span : Nat)

theorem W.checkFails_counts : (x.suspects c.ticks cbPinCheck span).Counts (x.w.checkFails c k p code span).q := by
  have h := x.w.bump_counts k 1
  unfold Quire.Counts at h ⊢
  rw [W.checkFails, W.cause_eq, W.upd_q, W.setLive, W.upd_q, h]
  rfl

theorem W.checkFails_counted (hk : k ≠ rk 0x09 0x100C) : Counted 1 (x.liveReg k) ((x.w.checkFails c k p code span).q.liveReg k) := by
  have h : (x.w.checkFails c k p code span).q.liveReg k = (x.w.bump k).q.liveReg k := rget_rput_other _ _ _ _ hk
  rw [h]
  exact x.w.bump_counted k 1

theorem W.checkFails_last : (x.w.checkFails c k p code span).q.liveReg (rk 0x09 0x100C) = packW [(8, p), (0, code)] := rget_rput_same _ _ _

theorem W.checkFails_says : (x.w.checkFails c k p code span).Says [] := by
  have h := x.w_says.bump k 1
  exact ⟨h.told, h.reports⟩

end

/-! ### Readback (R337 to R339) -/

/-- An injection with more than one check left makes the check. -/
theorem W.check_injected (x : Quire) (c e n m : Nat) (hc : lastingChecker c = false) (h : x.injections = [{ checker := c, element := e, left := n + 2, made := m }]) :
    x.w.check c e = (true, ({ x with injections := [{ checker := c, element := e, left := n + 1, made := m + 1 }] } : Quire).w) := by
  have htake : takeInjection c e x.injections = (true, [{ checker := c, element := e, left := n + 1, made := m + 1 }]) := by
    rw [h]
    simp [takeInjection]
  rw [W.check, Quire.w_q, htake, hc]
  rfl

/-- A sample that finds nothing wrong ends a row of failures. -/
theorem W.readback_passes (x : Quire) (c : Ctx) (p : PinId) (enabled : Bool) (region : Nat) (hoff : x.state ≠ .off) (hinj : injecting 0x13 p.val x.injections = false)
    (hfault : x.readbackFault p.val enabled region false = 0) : x.w.readback c p enabled region = ({ x with rbFailed := clrBit x.rbFailed p.val } : Quire).w := by
  rw [W.readback, if_neg (show x.w.q.state ≠ .off from hoff), W.check_none _ _ _ hinj]
  exact if_pos hfault

/-- What a failed sample of readback makes of a quire. -/
def Quire.rbFails (x : Quire) (ticks p : Nat) : Quire := { x.suspects ticks cbPinCheck 2000 with rbFailed := setBit x.rbFailed p }

/-- What a failed sample of readback says: the second in a row is a quire fault. -/
def rbSaid (p : PinId) (inj again : Bool) : List Said :=
  { severity := .alert, checker := 0x13, element := BitVec.ofNat 8 p.val, cause := 0, detail := 0, injected := inj }
    :: if again then [{ severity := .quire, checker := 0x13, element := BitVec.ofNat 8 p.val, cause := 0x05, detail := 0, injected := inj }] else []

theorem W.readback_fails {x y : Quire} (c : Ctx) {p : PinId} {enabled inj : Bool} {region code : Nat} (hoff : x.state ≠ .off) (hcheck : x.w.check 0x13 p.val = (inj, y.w))
    (hfault : y.readbackFault p.val enabled region inj = code) (hcode : code ≠ 0) : x.w.readback c p enabled region =
      let v := ((y.w.checkFails c (rk 0x09 0x1000) p.val code 2000).upd fun q => { q with rbFailed := setBit q.rbFailed p.val }).report .alert 0x13 (BitVec.ofNat 8 p.val) 0 0 inj
      if bit y.rbFailed p.val then v.report .quire 0x13 (BitVec.ofNat 8 p.val) 0x05 0 inj else v := by
  subst hfault
  rw [W.readback, if_neg (show x.w.q.state ≠ .off from hoff), hcheck]
  exact if_neg hcode

section
variable {s : State} {q : QId} {p : PinId} {enabled inj : Bool} {region : Fin 4} {code : Nat} {y : Quire}

theorem readbackSample_fails (hoff : (s.quire q).state ≠ .off) (hcheck : (s.quire q).w.check 0x13 p.val = (inj, y.w)) (hlive : y.live = (s.quire q).live)
    (hfault : y.readbackFault p.val enabled region.val inj = code) (hcode : code ≠ 0) :
    s.Makes (.readbackSample q p enabled region) q (y.rbFails s.time.ticks p.val) fun t =>
      s.CountsOne q (rk 9 0x1000) t ∧ (t.quire q).liveReg (rk 9 0x100C) = packW [(8, p.val), (0, code)]
        ∧ t.collector.reports = s.collector.reports ++ (rbSaid p inj (bit y.rbFailed p.val)).map fun x => x.report s q := by
  have hw := W.readback_fails s.ctx hoff hcheck hfault hcode
  have hcounts := W.checkFails_counts y s.ctx (rk 0x09 0x1000) p.val code 2000
  have hcounted := W.checkFails_counted y s.ctx (rk 0x09 0x1000) p.val code 2000 (by decide)
  have hlast := W.checkFails_last y s.ctx (rk 0x09 0x1000) p.val code 2000
  have hsays := W.checkFails_says y s.ctx (rk 0x09 0x1000) p.val code 2000
  generalize y.w.checkFails s.ctx (rk 0x09 0x1000) p.val code 2000 = v at hw hcounts hcounted hlast hsays
  have hq : ((s.quire q).w.readback s.ctx p enabled region.val).q = { v.q with rbFailed := setBit v.q.rbFailed p.val } := by
    rw [hw]
    dsimp only
    split
    · rfl
    · rfl
  have hsay : ((s.quire q).w.readback s.ctx p enabled region.val).Says (rbSaid p inj (bit y.rbFailed p.val)) := by
    have halert := (hsays.upd fun q => { q with rbFailed := setBit q.rbFailed p.val }).report .alert 0x13 (BitVec.ofNat 8 p.val) 0 0 inj
    rw [hw]
    cases hb : bit y.rbFailed p.val with
    | true => exact halert.report .quire 0x13 (BitVec.ofNat 8 p.val) 0x05 0 inj
    | false => exact halert
  obtain ⟨hwithin, hquire, hrep⟩ := s.onQuire_says q (fun x => x.w.readback s.ctx p enabled region.val) hsay
  rw [hq] at hquire
  unfold Quire.Counts at hcounts
  refine ⟨_, rfl, hwithin, ?_, ?_, ?_, hrep⟩
  · rw [Quire.Counts, hquire, hcounts]
    rfl
  · rw [State.CountsOne, hquire, ← Quire.liveReg_congr hlive]
    exact hcounted
  · rw [hquire]
    exact hlast

end

/-! ### DAC checks (R340 to R342) -/

/-- What a failed check of a DAC says: an alert and a quire fault. -/
def dacSaid (p : PinId) (dac : DacKind) (mv : Int) : List Said :=
  [{ severity := .alert, checker := 0x12, element := BitVec.ofNat 8 p.val, cause := 0, detail := mv, injected := false },
   { severity := .quire, checker := 0x12, element := BitVec.ofNat 8 p.val, cause := if dacIsClamp dac then 0x04 else 0x03, detail := mv, injected := false }]

section
variable {s : State} {q : QId} {p : PinId} {dac : DacKind} {uv : Int} (hoff : (s.quire q).state ≠ .off)
  (hinj : injecting 0x12 (p.val + if dacIsClamp dac then 0x20 else 0) (s.quire q).injections = false)
include hoff hinj

theorem dacCheck_passes (h : |uv - (s.quire q).dacMicroVolt p.val dac| ≤ 8000) : exec (.dacCheck q p dac uv) s = .next s := by
  have hw : (s.quire q).w.dacCheck s.ctx p dac uv = (s.quire q).w := by
    rw [W.dacCheck, if_neg (show (s.quire q).w.q.state ≠ .off from hoff), W.check_none _ _ _ hinj]
    exact if_pos (by simp [h])
  show Host.Outcome.next (s.onQuire q fun x => x.w.dacCheck s.ctx p dac uv) = _
  rw [State.onQuire_quiet _ _ _ (by rw [hw]; rfl), hw]
  exact congrArg Host.Outcome.next (s.setQuire_quire q)

theorem dacCheck_fails (h : 8000 < |uv - (s.quire q).dacMicroVolt p.val dac|) :
    s.Makes (.dacCheck q p dac uv) q ((s.quire q).suspects s.time.ticks cbPinCheck 20000) fun t =>
      s.CountsOne q (rk 9 0x1004) t ∧ (t.quire q).liveReg (rk 9 0x100C) = packW [(8, p.val), (0, rbDac)]
        ∧ t.collector.reports = s.collector.reports ++ (dacSaid p dac ((uv - (s.quire q).dacMicroVolt p.val dac).tdiv 1000)).map fun x => x.report s q := by
  generalize hm : (uv - (s.quire q).dacMicroVolt p.val dac).tdiv 1000 = mv
  have hw : (s.quire q).w.dacCheck s.ctx p dac uv = (((s.quire q).w.checkFails s.ctx (rk 0x09 0x1004) p.val rbDac 20000).report .alert 0x12 (BitVec.ofNat 8 p.val) 0 mv false).report
      .quire 0x12 (BitVec.ofNat 8 p.val) (if dacIsClamp dac then 0x04 else 0x03) mv false := by
    rw [W.dacCheck, if_neg (show (s.quire q).w.q.state ≠ .off from hoff), W.check_none _ _ _ hinj, ← hm]
    exact if_neg fun hc => absurd (of_decide_eq_true (Bool.and_eq_true_iff.mp hc).1) (not_le.mpr h)
  have hcounts := W.checkFails_counts (s.quire q) s.ctx (rk 0x09 0x1004) p.val rbDac 20000
  have hcounted := W.checkFails_counted (s.quire q) s.ctx (rk 0x09 0x1004) p.val rbDac 20000 (by decide)
  have hlast := W.checkFails_last (s.quire q) s.ctx (rk 0x09 0x1004) p.val rbDac 20000
  have hsays := ((W.checkFails_says (s.quire q) s.ctx (rk 0x09 0x1004) p.val rbDac 20000).report .alert 0x12 (BitVec.ofNat 8 p.val) 0 mv false).report
    .quire 0x12 (BitVec.ofNat 8 p.val) (if dacIsClamp dac then 0x04 else 0x03) mv false
  rw [← hw] at hsays
  obtain ⟨hwithin, hquire, hrep⟩ := s.onQuire_says q (fun x => x.w.dacCheck s.ctx p dac uv) hsays
  rw [hw] at hquire
  refine ⟨_, rfl, hwithin, ?_, ?_, ?_, hrep⟩
  · rw [hquire]
    exact hcounts
  · rw [State.CountsOne, hquire]
    exact hcounted
  · rw [hquire]
    exact hlast

end

/-! ### The edge checker (R276 to R279) -/

theorem fld_low (w : Word) : fld w 0 16 = w.toNat % 2 ^ 16 := by rw [fld, pow_zero, Nat.div_one]

theorem fld_high (w : Word) : fld w 16 16 = w.toNat / 2 ^ 16 := Nat.mod_eq_of_lt (by have := w.isLt; omega)

theorem edgesClean_iff (k : EdgeCheck) (word : Word) : edgesClean k word = true ↔ k.missing = 0 ∧ k.extra = 0 ∧ k.drives = word.toNat % 2 ^ 16 ∧ k.strobes = word.toNat / 2 ^ 16 := by
  rw [edgesClean, fld_low, fld_high]
  simp only [Bool.and_eq_true, decide_eq_true_eq, and_assoc]

theorem edgeDiff_eq (k : EdgeCheck) (word : Word) : edgeDiff k word =
    if k.missing ≠ 0 ∨ k.extra ≠ 0 then (k.extra : Int) - k.missing else (k.drives : Int) + k.strobes - (word.toNat % 2 ^ 16 : Nat) - (word.toNat / 2 ^ 16 : Nat) := by
  rw [edgeDiff, fld_low, fld_high]

/-- The play is of the chunk of a release sequence. -/
def Play.ofChunk (seq : Nat) (p : Play) : Bool := match p.chunk with | some c => c.seq = seq | none => false

/-- The play with the mark of a mismatch, where it is of that chunk. -/
def Play.flag (seq : Nat) (p : Play) : Play := match p.chunk with | some c => if c.seq = seq then { p with mismatched := true } else p | none => p

theorem Play.ofChunk_iff (seq : Nat) (p : Play) : p.ofChunk seq = true ↔ ∃ c, p.chunk = some c ∧ c.seq = seq := by
  rw [Play.ofChunk]
  cases p.chunk with
  | none => simp
  | some c => simp

theorem Play.flag_of {seq : Nat} {p : Play} (h : p.ofChunk seq = true) : p.flag seq = { p with mismatched := true } := by
  obtain ⟨c, hc, hs⟩ := (p.ofChunk_iff seq).mp h
  rw [Play.flag, hc]
  exact if_pos hs

theorem Play.flag_chunk (seq : Nat) (p : Play) : (p.flag seq).chunk = p.chunk := by
  rw [Play.flag]
  split
  · split
    · rfl
    · rfl
  · rfl

/-- The mark of a chunk's first mismatch is on its play. -/
theorem Quire.playOf_markMismatch (x : Quire) {seq : Nat} {pl : Play} (h : x.playOf seq = some pl) : (x.markMismatch seq).playOf seq = some { pl with mismatched := true } := by
  have hmap : (x.playing.map (Play.flag seq)).toList ++ x.recent.map (Play.flag seq) = (x.playing.toList ++ x.recent).map (Play.flag seq) := by
    rw [List.map_append, Option.toList_map]
  have hsame : Play.ofChunk seq ∘ Play.flag seq = Play.ofChunk seq := funext fun p => by
    rw [Function.comp, Play.ofChunk, Play.flag_chunk, Play.ofChunk]
  have hfound : (x.playing.toList ++ x.recent).find? (Play.ofChunk seq) = some pl := h
  have hgoal : (x.markMismatch seq).playOf seq = ((x.playing.map (Play.flag seq)).toList ++ x.recent.map (Play.flag seq)).find? (Play.ofChunk seq) := rfl
  rw [hgoal, hmap, List.find?_map, hsame, hfound, Option.map_some, Play.flag_of (List.find?_some hfound)]

/-- The count of chunks in a row that mismatched on a generator. -/
def Quire.withBad (x : Quire) (g n : Nat) : Quire := { x with edgeBad := sput (fun _ => 0) g n x.edgeBad }

/-- A step in which the mismatch of a chunk is counted, once for each chunk. -/
def W.countMismatch (w : W) (seq : Nat) (pl : Play) : W := if pl.mismatched then w else (w.bump (rk 0x04 0x11004)).upd fun q => q.markMismatch seq

theorem W.countMismatch_shape (x : Quire) (seq : Nat) (pl : Play) (h : x.playOf seq = some pl) :
    ∃ l m pg rc, (x.w.countMismatch seq pl).q = { x with live := l, satPages := m, playing := pg, recent := rc }
      ∧ (x.w.countMismatch seq pl).q.playOf seq = some { pl with mismatched := true } ∧ (x.w.countMismatch seq pl).Says []
      ∧ (pl.mismatched = false → Counted 1 (x.liveReg (rk 0x04 0x11004)) ((x.w.countMismatch seq pl).q.liveReg (rk 0x04 0x11004)))
      ∧ (pl.mismatched = true → l = x.live ∧ pg = x.playing ∧ rc = x.recent) := by
  unfold W.countMismatch
  cases hm : pl.mismatched with
  | true =>
    have hpl : ({ pl with mismatched := true } : Play) = pl := by rw [← hm]
    exact ⟨_, _, _, _, rfl, h.trans (congrArg some hpl.symm), x.w_says, fun h => absurd h (by decide), fun _ => ⟨rfl, rfl, rfl⟩⟩
  | false =>
    have hcounts := x.w.bump_counts (rk 0x04 0x11004) 1
    have hcounted := x.w.bump_counted (rk 0x04 0x11004) 1
    have hsays := x.w_says.bump (rk 0x04 0x11004) 1
    rw [if_neg Bool.false_ne_true]
    unfold Quire.Counts at hcounts
    have hplay : (x.w.bump (rk 0x04 0x11004)).q.playOf seq = some pl := by rw [hcounts]; exact h
    refine ⟨(x.w.bump (rk 0x04 0x11004)).q.live, (x.w.bump (rk 0x04 0x11004)).q.satPages, x.playing.map (Play.flag seq), x.recent.map (Play.flag seq), ?_, Quire.playOf_markMismatch _ hplay, hsays.upd _, fun _ => hcounted, fun h => absurd h (by decide)⟩
    rw [W.upd_q, hcounts]
    rfl

/-- What a mismatch says: the fourth in a row on a generator is a quire fault. -/
def edgeSaid (p : PinId) (diff : Int) (many : Bool) : List Said :=
  { severity := .alert, checker := 0x14, element := BitVec.ofNat 8 p.val, cause := 0, detail := diff, injected := false }
    :: if many then [{ severity := .quire, checker := 0x14, element := BitVec.ofNat 8 p.val, cause := 0x06, detail := diff, injected := false }] else []

section
variable {x : Quire} {c : Ctx} {p : PinId} {seq : Nat} {k : EdgeCheck} {pl : Play} (hpl : x.playOf seq = some pl) (hinj : injecting 0x14 p.val x.injections = false)
include hpl hinj

theorem W.edgeMismatch_clean (h : edgesClean k ((pl.chunk.map fun c => c.edges.getD p.val 0).getD 0) = true) :
    x.w.edgeMismatch c p seq k = (x.withBad (x.generator p) 0).w := by
  rw [W.edgeMismatch, show x.w.q.playOf seq = some pl from hpl, W.check_none _ _ _ hinj]
  refine if_pos ?_
  cases hc : pl.chunk with
  | none =>
    rw [hc] at h
    exact Bool.and_eq_true_iff.mpr ⟨h, rfl⟩
  | some ch =>
    rw [hc] at h
    exact Bool.and_eq_true_iff.mpr ⟨h, rfl⟩

theorem W.edgeMismatch_dirty (h : edgesClean k ((pl.chunk.map fun c => c.edges.getD p.val 0).getD 0) = false) :
    x.w.edgeMismatch c p seq k =
      let n := sget (fun _ => 0) (x.generator p) x.edgeBad + 1
      let diff := edgeDiff k ((pl.chunk.map fun c => c.edges.getD p.val 0).getD 0)
      let v := (((x.w.countMismatch seq pl).upd fun y => y.withBad (x.generator p) n).upd fun y => y.suspects c.ticks cbEdge 1000).report .alert 0x14 (BitVec.ofNat 8 p.val) 0 diff false
      if 4 ≤ n then v.report .quire 0x14 (BitVec.ofNat 8 p.val) 0x06 diff false else v := by
  rw [W.edgeMismatch, show x.w.q.playOf seq = some pl from hpl, W.check_none _ _ _ hinj]
  dsimp only
  cases hc : pl.chunk with
  | none =>
    rw [hc] at h
    exact if_neg (by rw [Bool.and_eq_true]; exact fun h' => absurd (h.symm.trans h'.1) (by decide))
  | some ch =>
    rw [hc] at h
    exact if_neg (by rw [Bool.and_eq_true]; exact fun h' => absurd (h.symm.trans h'.1) (by decide))

end

/-! ### The words of the statement -/

theorem Quire.suspects_insts (x : Quire) (ticks b span : Nat) {m : BitVec 16} (hm : BitVec.ofNat 16 (2 ^ b) = m) :
    (x.suspects ticks b span).insts = x.insts.map fun i => if i.hold = none ∨ ticks - i.endedAt ≤ span then { i with causes := i.causes ||| m } else i := by
  subst hm
  refine List.map_congr_left fun i _ => ?_
  by_cases h : i.hold = none
  · rw [if_pos (.inl (by simp [h])), if_pos (.inl h)]
  · by_cases ht : ticks - i.endedAt ≤ span
    · rw [if_pos (.inr ht), if_pos (.inr ht)]
    · rw [if_neg (by simp [h, ht]), if_neg (by simp [h, ht])]

theorem packW_last (p code : Nat) : packW [(8, p), (0, code)] = BitVec.ofNat 32 (2 ^ 8 * p + code) := by simp [packW]

theorem rbSaid_map (p : PinId) (inj : Bool) (b : Bool) (f : Said → Report) : (rbSaid p inj b).map f =
    f { severity := .alert, checker := 0x13, element := BitVec.ofNat 8 p.val, cause := 0, detail := 0, injected := inj }
      :: if b then [f { severity := .quire, checker := 0x13, element := BitVec.ofNat 8 p.val, cause := 0x05, detail := 0, injected := inj }] else [] := by
  cases b <;> rfl

theorem edgeSaid_map (p : PinId) (diff : Int) (b : Bool) (f : Said → Report) : (edgeSaid p diff b).map f =
    f { severity := .alert, checker := 0x14, element := BitVec.ofNat 8 p.val, cause := 0, detail := diff, injected := false }
      :: if b then [f { severity := .quire, checker := 0x14, element := BitVec.ofNat 8 p.val, cause := 0x06, detail := diff, injected := false }] else [] := by
  cases b <;> rfl

/-- The regions that readback accepts (R326, R339). -/
theorem acceptedRegions_contains (x : Quire) (p v : Nat) (region : Fin 4) : (acceptedRegions (x.thresholdsNow p) (x.level p v : Nat)).contains region.val = true ↔
    region.val = ((List.range 3).filter fun k => (x.thresholdsNow p).getD k 0 ≤ (x.level p v : Nat)).length
      ∨ ∃ k < 3, |((x.level p v : Nat) : Int) - (x.thresholdsNow p).getD k 0| ≤ 60 ∧ (region.val = k ∨ region.val = k + 1) := by
  rw [acceptedRegions, List.contains_iff_mem]
  simp only [List.mem_cons, List.mem_flatMap, List.mem_range]
  refine or_congr ?_ (exists_congr fun k => and_congr_right fun hk => ?_)
  · have hmap : ((x.thresholdsNow p).filter fun t => decide (t ≤ ((x.level p v : Nat) : Int))).length = ((List.range 3).filter fun k => (x.thresholdsNow p).getD k 0 ≤ (x.level p v : Nat)).length := by
      rw [Quire.thresholdsNow, List.filter_map, List.length_map]
      refine congrArg List.length (List.filter_congr fun k hk => ?_)
      rw [List.getD_eq_getElem?_getD, List.getElem?_map, List.getElem?_range (List.mem_range.mp hk)]
      rfl
    rw [hmap]
  · split
    next h => simp only [h, true_and, List.mem_cons, List.not_mem_nil, or_false]
    next h => simp only [h, false_and, List.not_mem_nil]

/-- What readback finds where a pin is driven to a level (R338, R339). -/
theorem Quire.readbackFault_driven (x : Quire) {p : Nat} {v : Fin 4} (h : x.driveNow p = .level v) (enabled : Bool) (region : Nat) (inj : Bool) : x.readbackFault p enabled region inj =
    if !enabled then rbEnable else if inj then rbLevel else if (acceptedRegions (x.thresholdsNow p) (x.level p v.val)).contains region then 0 else rbLevel := by
  rw [Quire.readbackFault, h]

theorem Quire.readbackFault_idle (x : Quire) {p : Nat} (h : x.driveNow p = .highZ) (enabled : Bool) (region : Nat) (inj : Bool) : x.readbackFault p enabled region inj =
    if enabled || inj then rbEnable else 0 := by
  rw [Quire.readbackFault, h]

end Sys2Proof.Machine

namespace Sys2Proof.Proofs
open Sys2Proof.Machine

/-- Settles O49: each check by what it finds: nothing, or a failure that counts, marks the instances it can concern, and reports. -/
theorem pinChecks : Obligations.PinChecks := by
  intro s q pin uv seq k pl enabled region v dac x p marked quiet report reported last g word drives strobes clean diff edges bad t level driven idle reads sample fails clamp code off_
  have hsample : ∀ {inj : Bool} {i : List Injection} {n : Nat}, x.state ≠ .off → x.w.check 0x13 p = (inj, ({ x with injections := i } : Quire).w) → x.readbackFault p enabled region.val inj = n → n ≠ 0 →
      fails n inj i := fun {inj i n} hoff hcheck hfault hn => by
    obtain ⟨t, hex, hwithin, hcounts, hone, hlast, hrep⟩ := readbackSample_fails (s := s) (q := q) (p := pin) (enabled := enabled) (region := region) (y := { x with injections := i }) hoff hcheck rfl hfault hn
    refine ⟨t, hex, hwithin, ?_, hone, hlast.trans (packW_last p n), ?_⟩
    · have hy : { x with rbFailed := setBit x.rbFailed p, insts := marked 0x0040 2000, injections := i } = ({ x with injections := i } : Quire).rbFails s.time.ticks p := by
        rw [Quire.rbFails, show marked 0x0040 2000 = (x.suspects s.time.ticks cbPinCheck 2000).insts from (x.suspects_insts s.time.ticks cbPinCheck 2000 (by decide)).symm]
        rfl
      rw [hy]
      exact hcounts
    · rw [rbSaid_map] at hrep
      exact hrep
  have hclamp : dacIsClamp dac = true ↔ clamp := by cases dac <;> simp [dacIsClamp, clamp]
  have hdacInj : (clamp → quiet 0x12 (p + 0x20)) → (¬clamp → quiet 0x12 p) → injecting 0x12 (p + if dacIsClamp dac then 0x20 else 0) x.injections = false := fun h1 h2 => by
    by_cases hc : clamp
    · rw [if_pos (hclamp.mpr hc)]
      exact h1 hc
    · rw [if_neg (hclamp.not.mpr hc)]
      exact h2 hc
  refine ⟨fun hnone => ?_, fun hpl hinj => ⟨fun hc => ?_, fun hc => ?_⟩, fun hoff => ⟨?_, ?_⟩, fun hoff hinj => ⟨fun h => ?_, fun h he => ?_, fun h he => ?_, fun h he hr => ?_⟩, fun n m hoff hinj => ⟨fun h he => ?_, fun h => ?_⟩,
    fun hoff hinj1 hinj2 => ⟨fun hle => ?_, fun hlt => ?_⟩⟩
  · have hw : x.w.edgeMismatch s.ctx pin seq k = x.w := by rw [W.edgeMismatch, show x.w.q.playOf seq = none from hnone]
    show Host.Outcome.next (s.onQuire q fun x => x.w.edgeMismatch s.ctx pin seq k) = _
    rw [State.onQuire_quiet _ _ _ (by rw [hw]; rfl), hw]
    exact congrArg Host.Outcome.next (s.setQuire_quire q)
  · have hw := W.edgeMismatch_clean (c := s.ctx) hpl hinj ((edgesClean_iff k word).mpr hc)
    refine ⟨x.withBad g 0, ?_, rfl, sget_sput_same (fun _ => 0) g 0 x.edgeBad, fun k' hk => sget_sput_other (fun _ => 0) g k' 0 x.edgeBad hk⟩
    show Host.Outcome.next (s.onQuire q fun x => x.w.edgeMismatch s.ctx pin seq k) = _
    rw [State.onQuire_quiet _ _ _ (by rw [hw]; rfl), hw]
    rfl
  · have hdirty : edgesClean k word = false := by
      rw [← Bool.not_eq_true]
      exact fun h => hc ((edgesClean_iff k word).mp h)
    have hw := W.edgeMismatch_dirty (c := s.ctx) hpl hinj hdirty
    obtain ⟨l, m, pg, rc, hshape, hplay, hsays, hcount, hkeep⟩ := W.countMismatch_shape x seq pl hpl
    generalize x.w.countMismatch seq pl = u at hw hshape hplay hsays hcount
    have hdiff : edgeDiff k word = diff := edgeDiff_eq k word
    obtain ⟨n, hn⟩ : ∃ n, bad g x + 1 = n := ⟨_, rfl⟩
    rw [show edgeDiff k ((pl.chunk.map fun c => c.edges.getD pin.val 0).getD 0) = diff from hdiff, show sget (fun _ => 0) (x.generator pin) x.edgeBad + 1 = n from hn] at hw
    have halert := ((hsays.upd fun y => y.withBad g (n)).upd fun y => y.suspects s.ctx.ticks cbEdge 1000).report .alert 0x14 (BitVec.ofNat 8 p) 0 diff false
    have hsay : (x.w.edgeMismatch s.ctx pin seq k).Says (edgeSaid pin diff (decide (4 ≤ n))) := by
      rw [hw]
      dsimp only
      by_cases h4 : 4 ≤ n
      · rw [if_pos h4, decide_eq_true h4]
        exact halert.report .quire 0x14 (BitVec.ofNat 8 p) 0x06 diff false
      · rw [if_neg h4, decide_eq_false h4]
        exact halert
    have hq : (x.w.edgeMismatch s.ctx pin seq k).q = (u.q.withBad g (n)).suspects s.time.ticks cbEdge 1000 := by
      rw [hw]
      dsimp only
      split
      · rfl
      · rfl
    obtain ⟨hwithin, hquire, hrep⟩ := s.onQuire_says q (fun x => x.w.edgeMismatch s.ctx pin seq k) hsay
    rw [edgeSaid_map] at hrep
    rw [show ((fun x : Quire => x.w.edgeMismatch s.ctx pin seq k) (s.quire q)).q = _ from hq] at hquire
    refine ⟨_, (u.q.withBad g n).suspects s.time.ticks cbEdge 1000, rfl, hwithin, hquire, ?_, hplay, ?_, fun k' hk => ?_, fun hm => ?_, fun hm => ?_, ?_⟩
    · have hmarks : marked 0x0080 1000 = (x.suspects s.time.ticks cbEdge 1000).insts := (x.suspects_insts s.time.ticks cbEdge 1000 (by decide)).symm
      rw [hmarks, hshape]
      rfl
    · rw [hn]
      exact sget_sput_same (fun _ => 0) g n u.q.edgeBad
    · have hother := sget_sput_other (fun _ => 0) g k' n u.q.edgeBad hk
      rw [hshape] at hother ⊢
      exact hother
    · rw [State.CountsOne, hquire]
      exact hcount hm
    · obtain ⟨hl, hp, hr⟩ := hkeep hm
      rw [hshape]
      exact ⟨hl, hp, hr⟩
    · rw [hn]
      simp only [decide_eq_true_eq] at hrep
      exact hrep
  · show Host.Outcome.next (s.onQuire q fun x => x.w.readback s.ctx pin enabled region.val) = _
    have hw : x.w.readback s.ctx pin enabled region.val = x.w := if_pos hoff
    rw [State.onQuire_quiet _ _ _ (by rw [hw]; rfl), hw]
    exact congrArg Host.Outcome.next (s.setQuire_quire q)
  · show Host.Outcome.next (s.onQuire q fun x => x.w.dacCheck s.ctx pin dac uv) = _
    have hw : x.w.dacCheck s.ctx pin dac uv = x.w := if_pos hoff
    rw [State.onQuire_quiet _ _ _ (by rw [hw]; rfl), hw]
    exact congrArg Host.Outcome.next (s.setQuire_quire q)
  · have hfault : x.readbackFault p enabled region.val false = 0 := by
      rcases h with ⟨hi, he⟩ | ⟨hd, he, hr⟩
      · rw [x.readbackFault_idle hi, he]
        rfl
      · rw [x.readbackFault_driven hd, he, (acceptedRegions_contains x p v region).mpr hr]
        rfl
    have hw := W.readback_passes x s.ctx pin enabled region.val hoff hinj hfault
    show Host.Outcome.next (s.onQuire q fun x => x.w.readback s.ctx pin enabled region.val) = _
    rw [State.onQuire_quiet _ _ _ (by rw [hw]; rfl), hw]
    rfl
  · exact hsample hoff (W.check_none _ _ _ hinj) (by rw [x.readbackFault_idle h, he]; rfl) (by decide)
  · exact hsample hoff (W.check_none _ _ _ hinj) (by rw [x.readbackFault_driven h, he]; rfl) (by decide)
  · refine hsample hoff (W.check_none _ _ _ hinj) ?_ (by decide)
    rw [x.readbackFault_driven h, he]
    exact if_neg fun hc => hr ((acceptedRegions_contains x p v region).mp hc)
  · exact hsample hoff (W.check_injected x 0x13 p n m rfl hinj) (by rw [x.readbackFault_driven h, he]; rfl) (by decide)
  · exact hsample hoff (W.check_injected x 0x13 p n m rfl hinj) (by rw [x.readbackFault_idle h, Bool.or_true]; rfl) (by decide)
  · have hinj : injecting 0x12 (p + if dacIsClamp dac then 0x20 else 0) x.injections = false := hdacInj hinj1 hinj2
    exact dacCheck_passes hoff hinj hle
  · have hinj : injecting 0x12 (p + if dacIsClamp dac then 0x20 else 0) x.injections = false := hdacInj hinj1 hinj2
    obtain ⟨t, hex, hwithin, hcounts, hone, hlast, hrep⟩ := dacCheck_fails hoff hinj hlt
    refine ⟨t, hex, hwithin, ?_, hone, hlast.trans (packW_last p 3), if dacIsClamp dac then 0x04 else 0x03, fun hc => if_pos (hclamp.mpr hc), fun hc => if_neg (hclamp.not.mpr hc), hrep⟩
    have hy : { x with insts := marked 0x0040 20000 } = x.suspects s.time.ticks cbPinCheck 20000 := by
      rw [show marked 0x0040 20000 = (x.suspects s.time.ticks cbPinCheck 20000).insts from (x.suspects_insts s.time.ticks cbPinCheck 20000 (by decide)).symm]
      rfl
    rw [hy]
    exact hcounts

end Sys2Proof.Proofs
end

section
/-! Checks of clamps, VPINq and VCORE (R313, R314, R332, R333, R39, R40, R744, R745, R756, R757, R810, R822, R838, R862). -/

namespace Sys2Proof.Machine

/-! ### Records follow the conditions of their quire (R756, R757) -/

/-- The quire, its records following the conditions of its own checkers. -/
def Quire.settledOwn (x : Quire) : Quire := x.settleRecords fun _ => true

theorem W.settleRecords_eq (x : Quire) : x.w.settleRecords = x.settledOwn.w := rfl

theorem lastingChecker_own {c : Nat} (h : 0x10 ≤ c) : lastingChecker c = true ↔ c = 0x10 ∨ c = 0x11 := by
  rw [lastingChecker, List.contains_iff_mem]
  simp only [List.mem_cons, List.not_mem_nil, or_false]
  omega

/-- A record of a quire becomes transient where its checker watches VPINq or a clamp, nobody has read it, and its condition has ended. -/
theorem ErrRec.settle_own (x : Quire) (e : ErrRec) : e.settle (fun r => if r.checker < 0x10 then true else x.holds r) =
    if (e.report.checker = 0x10 ∨ e.report.checker = 0x11) ∧ e.report.severity ≠ .chip ∧ e.read = false ∧ x.holds e.report = false then { e with transient := true } else e := by
  rw [ErrRec.settle]
  refine if_congr ?_ rfl rfl
  simp only [Bool.and_eq_true, decide_eq_true_eq, Bool.not_eq_true', and_assoc]
  by_cases hc : e.report.checker < 0x10
  · simp only [if_pos hc]
    constructor
    · exact fun h => absurd h.2.2.2 (by decide)
    · exact fun h => absurd hc (by omega)
  · simp only [if_neg hc, lastingChecker_own (not_lt.mp hc)]

theorem Quire.holds_gone (x : Quire) (r : Report) : x.holds r = false ↔
    if r.injected then ¬holding r.checker (if r.checker = 0x11 then r.element.toNat else 0) x.injections = true
    else ¬(r.checker = 0x10 ∧ x.vpinOut = true) ∧ ¬(r.checker = 0x11 ∧ bit x.overloaded r.element.toNat = true) := by
  rw [Quire.holds, ← Bool.not_eq_true]
  split
  · rfl
  · simp only [Bool.or_eq_true, Bool.and_eq_true, decide_eq_true_eq, not_or]

/-- An injection of a lasting checker with more than one check left makes the check, and the records follow. -/
theorem W.check_injectedLasting (x : Quire) (c e n m : Nat) (hc : lastingChecker c = true) (h : x.injections = [{ checker := c, element := e, left := n + 2, made := m }]) :
    x.w.check c e = (true, ({ x with injections := [{ checker := c, element := e, left := n + 1, made := m + 1 }] } : Quire).settledOwn.w) := by
  have htake : takeInjection c e x.injections = (true, [{ checker := c, element := e, left := n + 1, made := m + 1 }]) := by
    rw [h]
    simp [takeInjection]
  rw [W.check, Quire.w_q, htake, hc]
  rfl

/-! ### Clamps (R332, R333) -/

/-- The overload of a pin has ended. -/
def Quire.overloadEnds (x : Quire) (p : PinId) : Quire := ({ x with overloaded := clrBit x.overloaded p.val } : Quire).settledOwn

section
variable {x : Quire} {p : PinId} {ma : Nat}

theorem W.clampOvercurrent_quiet (hoff : x.state ≠ .off) (hinj : injecting 0x11 p.val x.injections = false) :
    x.w.clampOvercurrent p ma =
      let v := if ma ≤ 50 then x.overloadEnds p else x
      if ma ≤ 20 then v.w else (v.w.bump (rk 0x09 0x1008)).log 0x13 4 (packW [(8, p.val), (0, min ma 255)]) 0 0 := by
  rw [W.clampOvercurrent, if_neg (show x.w.q.state ≠ .off from hoff), W.check_none _ _ _ hinj, nthInjected_none (l := x.w.q.injections) hinj]
  by_cases h : ma ≤ 50
  · simp only [if_pos h]
    rfl
  · simp only [if_neg h]
    rfl

theorem W.clampOvercurrent_injected (hoff : x.state ≠ .off) (hma : ma ≤ 20) {n m : Nat} (h : x.injections = [{ checker := 0x11, element := p.val, left := n + 2, made := m }]) :
    x.w.clampOvercurrent p ma =
      ((({ x with injections := [{ checker := 0x11, element := p.val, left := n + 1, made := m + 1 }] } : Quire).settledOwn).overloadEnds p).w.when (decide (m + 1 = 10)) (W.reportOverload · p true) := by
  have hnth : nthInjected 0x11 p.val 10 x.w.q.injections = decide (m + 1 = 10) := by
    rw [Quire.w_q, h]
    simp [nthInjected]
  rw [W.clampOvercurrent, if_neg (show x.w.q.state ≠ .off from hoff), W.check_injectedLasting x 0x11 p.val n m rfl h, hnth]
  dsimp only
  rw [if_pos (by omega : ma ≤ 50), if_pos hma]
  rfl

theorem W.clampChecks_quiet (hinj : injecting 0x11 p.val x.injections = false) (n : Nat) : W.clampChecks p n x.w = x.w := by
  induction n with
  | zero => rfl
  | succ n ih =>
    rw [W.clampChecks, W.check_none _ _ _ hinj, nthInjected_none (l := x.w.q.injections) hinj]
    exact ih

theorem W.clampOverload_quiet (hoff : x.state ≠ .off) (hinj : injecting 0x11 p.val x.injections = false) :
    x.w.clampOverload p = ({ x with overloaded := setBit x.overloaded p.val } : Quire).w.when (!bit x.overloaded p.val) (W.reportOverload · p false) := by
  rw [W.clampOverload, if_neg (show x.w.q.state ≠ .off from hoff), W.clampChecks_quiet hinj]
  rfl

end

/-- What an overload says. -/
def overloadSaid (p : PinId) (inj : Bool) : Said := { severity := .quire, checker := 0x11, element := BitVec.ofNat 8 p.val, cause := 0x02, detail := 0, injected := inj }

theorem flags_low (a b : Bool) : (BitVec.ofNat 9 (b2n a + 2 * b2n b)).getLsbD 0 = a := by cases a <;> cases b <;> rfl

theorem flags_high (a b : Bool) : (BitVec.ofNat 9 (b2n a + 2 * b2n b)).getLsbD 1 = b := by cases a <;> cases b <;> rfl

/-- The lasting condition of VPINq shows in `QF_LIVE` bit 0. -/
theorem Quire.qfLive_vpin (x : Quire) : x.qfLive.getLsbD 0 = (x.vpinOut || holding 0x10 0 x.injections) := flags_low _ _

/-- The lasting conditions of the clamps show in `QF_LIVE` bit 1. -/
theorem Quire.qfLive_clamps (x : Quire) : x.qfLive.getLsbD 1 = true ↔ x.overloaded ≠ 0 ∨ ∃ i ∈ x.injections, i.checker = 0x11 ∧ 10 ≤ i.made := by
  rw [Quire.qfLive, flags_high]
  simp only [Bool.or_eq_true, List.any_eq_true, Bool.and_eq_true, decide_eq_true_eq]

/-! ### VPINq (R313, R314, R39, R40) -/

/-- The quire once VPINq has been compared with its window. -/
def Quire.vpinCompared (x : Quire) (ticks mv : Nat) : Quire :=
  let real := !x.vpinInWindow ticks mv
  ({ x with
    vpinMv := mv % 65536, vpinOk := !real, vpinHeld := x.vpinHeld && !real, vpinOut := real && !decide (x.state = .off)
    vpinGood := if x.vpinOk then x.vpinGood else ticks } : Quire).settledOwn

/-- What a comparison of VPINq outside its window says. -/
def vpinSaid (mv : Nat) (inj : Bool) : Said := { severity := .quire, checker := 0x10, element := 0xFF, cause := 0x01, detail := mv, injected := inj }

section
variable {x : Quire} {c : Ctx} {mv : Nat}

theorem W.vpinCompare_quiet (hinj : injecting 0x10 0 x.injections = false) : x.w.vpinCompare c mv =
    (x.vpinCompared c.ticks mv).w.when (!decide (x.state = .off) && !x.vpinInWindow c.ticks mv) fun w =>
      (w.upd fun y => y.suspects c.ticks cbVpin 5000).when (!x.vpinOut) fun w => w.report .quire 0x10 0xFF 0x01 mv false := by
  rw [W.vpinCompare, W.check_none _ _ _ hinj]
  dsimp only
  rw [Bool.or_false]
  show (x.vpinCompared c.ticks mv).w.when (!decide (x.state = .off) && !x.vpinInWindow c.ticks mv)
    (fun w => w.vpinBad c mv (!x.vpinInWindow c.ticks mv && !x.vpinOut) false (nthInjected 0x10 0 1 x.injections)) = _
  cases hin : x.vpinInWindow c.ticks mv with
  | true => rw [Bool.not_true, Bool.and_false]; rfl
  | false => rfl

theorem W.vpinCompare_injected (hoff : x.state ≠ .off) (hin : x.vpinInWindow c.ticks mv = true) {n : Nat} (h : x.injections = [{ checker := 0x10, element := 0, left := n + 2, made := 0 }]) :
    x.w.vpinCompare c mv =
      (((({ x with injections := [{ checker := 0x10, element := 0, left := n + 1, made := 1 }] } : Quire).settledOwn.vpinCompared c.ticks mv).suspects c.ticks cbVpin 5000).w.report .quire 0x10 0xFF 0x01 mv true) := by
  have hnth : nthInjected 0x10 0 1 x.w.q.injections = true := by
    rw [Quire.w_q, h]
    simp [nthInjected]
  have hcheck : x.w.check 0x10 0 = (true, ({ x with injections := [{ checker := 0x10, element := 0, left := n + 1, made := 1 }] } : Quire).settledOwn.w) := W.check_injectedLasting x 0x10 0 n 0 rfl h
  rw [W.vpinCompare, hcheck, hnth]
  show (({ x with injections := [{ checker := 0x10, element := 0, left := n + 1, made := 1 }] } : Quire).settledOwn.vpinCompared c.ticks mv).w.when
    (!decide (x.state = .off) && (!x.vpinInWindow c.ticks mv || true)) (fun w => w.vpinBad c mv (!x.vpinInWindow c.ticks mv && !x.vpinOut) true true) = _
  rw [decide_eq_false hoff, hin]
  rfl

end

section
variable {s : State} {q : QId} {mv : Nat} (hinj : injecting 0x10 0 (s.quire q).injections = false)
include hinj

theorem vpinCompare_passes (h : (s.quire q).vpinInWindow s.time.ticks mv = true ∨ (s.quire q).state = .off) :
    (s.onQuire q fun x => x.w.vpinCompare s.ctx mv) = s.setQuire q ((s.quire q).vpinCompared s.time.ticks mv) := by
  have hw : (s.quire q).w.vpinCompare s.ctx mv = ((s.quire q).vpinCompared s.time.ticks mv).w := by
    rw [W.vpinCompare_quiet hinj]
    refine if_neg ?_
    rcases h with h | h
    · rw [show (s.quire q).vpinInWindow s.ctx.ticks mv = true from h, Bool.not_true, Bool.and_false]
      exact Bool.false_ne_true
    · rw [decide_eq_true h]
      exact Bool.false_ne_true
  rw [State.onQuire_quiet _ _ _ (by rw [hw]; rfl), hw]
  rfl

theorem vpinCompare_fails (hoff : (s.quire q).state ≠ .off) (hout : (s.quire q).vpinInWindow s.time.ticks mv = false) :
    let t := s.onQuire q fun x => x.w.vpinCompare s.ctx mv
    s.Within t q ∧ t.quire q = ((s.quire q).vpinCompared s.time.ticks mv).suspects s.time.ticks cbVpin 5000
      ∧ t.collector.reports = s.collector.reports ++ if (s.quire q).vpinOut then [] else [(vpinSaid mv false).report s q] := by
  have hw : (s.quire q).w.vpinCompare s.ctx mv =
      (((s.quire q).vpinCompared s.time.ticks mv).suspects s.time.ticks cbVpin 5000).w.when (!(s.quire q).vpinOut) fun w => w.report .quire 0x10 0xFF 0x01 mv false := by
    rw [W.vpinCompare_quiet hinj]
    refine if_pos ?_
    rw [show (s.quire q).vpinInWindow s.ctx.ticks mv = false from hout, decide_eq_false hoff]
    rfl
  generalize ((s.quire q).vpinCompared s.time.ticks mv).suspects s.time.ticks cbVpin 5000 = y at hw ⊢
  have hsays : ((s.quire q).w.vpinCompare s.ctx mv).Says (if (s.quire q).vpinOut then [] else [vpinSaid mv false]) := by
    rw [hw]
    cases (s.quire q).vpinOut with
    | true => exact y.w_says
    | false => exact y.w_says.report .quire 0x10 0xFF 0x01 mv false
  obtain ⟨hwithin, hquire, hrep⟩ := s.onQuire_says q (fun x => x.w.vpinCompare s.ctx mv) hsays
  refine ⟨hwithin, hquire.trans ?_, hrep.trans ?_⟩
  · rw [hw]
    cases (s.quire q).vpinOut with
    | true => rfl
    | false => rfl
  · cases (s.quire q).vpinOut with
    | true => rfl
    | false => rfl

/-- The quire once VPINq has been in window for 1 ms. -/
def Quire.vpinHolds (x : Quire) (ticks mv : Nat) : Quire := { x.vpinCompared ticks mv with vpinHeld := true }

theorem vpinSettled_in (h : (s.quire q).vpinInWindow s.time.ticks mv = true) : vpinSettled q mv s =
    if (s.quire q).state = .off ∧ 9 ≤ s.boot.step then (s.setQuire q ((s.quire q).vpinHolds s.time.ticks mv)).leaveOff q else s.setQuire q ((s.quire q).vpinHolds s.time.ticks mv) := by
  have hmod : (s.setQuire q ((s.quire q).vpinCompared s.time.ticks mv)).modQuire q (fun x => { x with vpinHeld := x.vpinOk }) = s.setQuire q ((s.quire q).vpinHolds s.time.ticks mv) := by
    rw [State.modQuire, State.quire_setQuire_same, State.setQuire_setQuire]
    have hok : ((s.quire q).vpinCompared s.time.ticks mv).vpinOk = true := by
      show (!!(s.quire q).vpinInWindow s.time.ticks mv) = true
      rw [h]
      rfl
    exact congrArg (fun b => s.setQuire q { (s.quire q).vpinCompared s.time.ticks mv with vpinHeld := b }) hok
  rw [vpinSettled, vpinCompare_passes hinj (.inl h), hmod]
  rw [State.quire_setQuire_same]
  refine if_congr ?_ rfl rfl
  exact ⟨fun hc => ⟨hc.1, hc.2.2⟩, fun hc => ⟨hc.1, rfl, hc.2⟩⟩

theorem vpinSettled_out (hout : (s.quire q).vpinInWindow s.time.ticks mv = false) : vpinSettled q mv s = s.onQuire q fun x => x.w.vpinCompare s.ctx mv := by
  have hq : ∀ t : State, (t.quire q).vpinOk = false → (t.quire q).vpinHeld = false → t.modQuire q (fun x => { x with vpinHeld := x.vpinOk }) = t := fun t hok hheld => by
    have hsame : { t.quire q with vpinHeld := (t.quire q).vpinOk } = t.quire q := by rw [hok, ← hheld]
    rw [State.modQuire, hsame]
    exact t.setQuire_quire q
  have hcompared : ((s.quire q).vpinCompared s.time.ticks mv).vpinOk = false ∧ ((s.quire q).vpinCompared s.time.ticks mv).vpinHeld = false := by
    show (!!(s.quire q).vpinInWindow s.time.ticks mv) = false ∧ ((s.quire q).vpinHeld && !!(s.quire q).vpinInWindow s.time.ticks mv) = false
    rw [hout]
    exact ⟨rfl, Bool.and_false _⟩
  have hflags : let t := s.onQuire q fun x => x.w.vpinCompare s.ctx mv
      (t.quire q).vpinOk = false ∧ (t.quire q).vpinHeld = false := by
    by_cases hoff : (s.quire q).state = .off
    · rw [vpinCompare_passes hinj (.inr hoff)]
      dsimp only
      rw [State.quire_setQuire_same]
      exact hcompared
    · obtain ⟨-, hquire, -⟩ := vpinCompare_fails hinj hoff hout
      dsimp only
      rw [hquire]
      exact hcompared
  dsimp only at hflags
  rw [vpinSettled, hq _ hflags.1 hflags.2]
  exact if_neg fun hc => by rw [hflags.2] at hc; exact absurd hc.2.1 (by decide)

end

/-- The quire that has left OFF for PARKED, with the endpaper on its mended pin (R40, R810, R838). -/
def Quire.leavesOff (x : Quire) (pin : Option Nat) : Quire :=
  match pin with
  | some p => { ({ x.stageReset with state := .parked } : Quire).epJoin p false with cal := lmod x.cal p fun e => { e with mended := true } }
  | none => { x.stageReset with state := .parked }

theorem State.leaveOff_setQuire (s : State) (q : QId) (y : Quire) : (s.setQuire q y).leaveOff q = s.setQuire q (y.leavesOff (s.mendedPin q)) := by
  have hpin : (s.setQuire q y).mendedPin q = s.mendedPin q := rfl
  unfold State.leaveOff
  rw [hpin, State.modQuire, State.quire_setQuire_same, State.setQuire_setQuire]
  cases s.mendedPin q with
  | none => rfl
  | some p => rfl

/-! ### VCORE (R745, R822) -/

theorem State.settleRecords_quire (s : State) (g : QId) : s.settleRecords.quire g = (s.quire g).settleRecords s.holds := by
  rw [State.quire, State.settleRecords]
  exact Vector.getElem_map (Quire.settleRecords s.holds) g.isLt

/-- The records of the alerts of VCORE follow the condition of the chip. -/
theorem ErrRec.settle_vcore (x : Quire) (holds : Report → Bool) (e : ErrRec) (hc : e.report.checker = 0x02) (hsev : e.report.severity = .alert) (hread : e.read = false) (hgone : holds e.report = false) :
    e.settle (fun r => if r.checker < 0x10 then holds r else x.holds r) = { e with transient := true } := by
  refine if_pos ?_
  dsimp only
  rw [hc, hsev, hread, if_pos (by decide), hgone]
  rfl

/-- With VCORE in its window no report of it holds any more, and the records follow. -/
theorem State.vcoreEnds (s : State) : ∃ holds : Report → Bool, (∀ r, r.checker = 0x02 → r.injected = false → holds r = false) ∧ ∀ g, (s.live 0x02 false).quire g = (s.quire g).settleRecords holds := by
  refine ⟨({ s with collector := { s.collector with real := s.collector.real &&& ~~~(BitVec.ofNat 9 (2 ^ 2)) } } : State).holds, fun r hc hinj => ?_, fun g => State.settleRecords_quire _ g⟩
  rw [State.holds, hc, if_neg (by decide), hinj, if_neg Bool.false_ne_true]
  exact getLsbD_clear _ 2 (by decide)

/-- The report of VCORE outside its window. -/
def State.vcoreReport (s : State) : Report :=
  { severity := .alert, checker := 0x02, quire := none, acts := s.playedWithin 5000, element := 0xFF, cause := 0, detail := BitVec.ofNat 24 (ofInt 24 0), injected := false
    timeNs := s.time.ns, timeValid := s.time.valid }

theorem mem_playedWithin (s : State) (span : Nat) (g : QId) : g ∈ s.playedWithin span ↔
    (∃ i ∈ (s.quire g).insts, i.hold = none ∨ s.time.ticks - i.endedAt ≤ span) ∨ ∃ a ∈ (s.quire g).playedAt, s.time.ticks - a ≤ span := by
  cases h : (s.quire g).playedAt <;> simp [State.playedWithin, h]

theorem Quire.suspects_nothing (x : Quire) (ticks b span : Nat) (h : ∀ i ∈ x.insts, ¬(i.hold = none ∨ ticks - i.endedAt ≤ span)) : x.suspects ticks b span = x := by
  have hmap : (x.suspects ticks b span).insts = x.insts :=
    (List.map_congr_left fun i hi => if_neg (by simpa using h i hi)).trans (List.map_id _)
  have heq : x.suspects ticks b span = { x with insts := (x.suspects ticks b span).insts } := rfl
  rw [heq, hmap]

section
variable {s : State} {mv : Nat} (hinj : injecting 0x02 0 s.collector.injections = false)
include hinj

theorem vcoreWindowCheck_in (h : vcoreInWindow mv = true) : vcoreWindowCheck mv s = s.live 0x02 false := by
  rw [vcoreWindowCheck, State.check_none _ _ _ hinj, h]
  rfl

theorem vcoreWindowCheck_out (h : vcoreInWindow mv = false) : vcoreWindowCheck mv s =
    let t := (s.live 0x02 true).each (s.playedWithin 5000) fun s q => s.modQuire q fun x => x.suspects s.time.ticks cbOther 5000
    if s.collector.real.getLsbD 2 then t else t.report .alert 0x02 none (s.playedWithin 5000) 0xFF 0 0 false := by
  rw [vcoreWindowCheck, State.check_none _ _ _ hinj, h]
  cases s.collector.real.getLsbD 2 with
  | true => rfl
  | false => rfl

end

/-- The marks of an excursion of VCORE: every quire takes the cause, and nothing else changes. -/
theorem State.vcoreMarks (s : State) :
    let t := (s.live 0x02 true).each (s.playedWithin 5000) fun s q => s.modQuire q fun x => x.suspects s.time.ticks cbOther 5000
    t.collector = { s.collector with real := s.collector.real ||| 4 } ∧ t.time = s.time ∧ ∀ g, t.quire g = (s.quire g).suspects s.time.ticks cbOther 5000 := by
  have hticks : ∀ (l : List QId) (u : State), (u.each l fun s q => s.modQuire q fun x => x.suspects s.time.ticks cbOther 5000) =
      u.each l fun s q => s.modQuire q fun x => x.suspects u.time.ticks cbOther 5000 := fun l => by
    induction l with
    | nil => exact fun u => rfl
    | cons g l ih => exact fun u => ih (u.modQuire g fun x => x.suspects u.time.ticks cbOther 5000)
  rw [hticks]
  obtain ⟨⟨qs, hframe⟩, hquire⟩ := State.each_modQuire (fun x => x.suspects (s.live 0x02 true).time.ticks cbOther 5000) (s.playedWithin 5000) ((List.nodup_finRange 8).filter _) (s.live 0x02 true)
  refine ⟨(congrArg State.collector hframe).trans rfl, (congrArg State.time hframe).trans rfl, fun g => (hquire g).trans ?_⟩
  split
  next => rfl
  next hg =>
    refine ((s.quire g).suspects_nothing _ _ _ fun i hi hin => hg ?_).symm
    exact (mem_playedWithin s 5000 g).mpr (.inl ⟨i, hi, hin⟩)

end Sys2Proof.Machine

namespace Sys2Proof.Proofs
open Sys2Proof.Machine

/-- Settles O50: each check by what it finds; a condition that begins is reported, one that ends settles the records behind it. -/
theorem clampAndSupplyChecks : Obligations.ClampAndSupplyChecks := by
  intro s q pin ma mv x is marked settled report reported over_ overload ended moved set inside compared comparison held parked vcoreOk vcoreOut
  have hsettled : ∀ y : Quire, settled y = y.settledOwn := fun y => by
    have hf : (ErrRec.settle fun r => if r.checker < 0x10 then true else y.holds r) = fun e => if (e.report.checker = 0x10 ∨ e.report.checker = 0x11) ∧ e.report.severity ≠ .chip ∧ e.read = false
        ∧ (if e.report.injected then ¬holding e.report.checker (if e.report.checker = 0x11 then e.report.element.toNat else 0) y.injections = true
          else ¬(e.report.checker = 0x10 ∧ y.vpinOut = true) ∧ ¬(e.report.checker = 0x11 ∧ bit y.overloaded e.report.element.toNat = true)) then { e with transient := true } else e := by
      funext e
      rw [ErrRec.settle_own]
      exact if_congr (by rw [Quire.holds_gone]) rfl rfl
    rw [Quire.settledOwn, Quire.settleRecords, hf]
  have hmarks : ∀ (y : Quire) (b : Nat) (m : BitVec 16), BitVec.ofNat 16 (2 ^ b) = m → marked y m = (y.suspects s.time.ticks b 5000).insts := fun y b m hm => (y.suspects_insts _ b 5000 hm).symm
  have hended : ended = x.overloadEnds pin := hsettled _
  have hin : x.vpinInWindow s.time.ticks mv = true ↔ inside := by
    show (decide (mv ≤ set + 40) && decide (set ≤ mv + 40)) = true ↔ _
    rw [Bool.and_eq_true, decide_eq_true_eq, decide_eq_true_eq]
    exact and_comm
  have hcompared : compared = x.vpinCompared s.time.ticks mv := by
    have hdec : decide inside = !!x.vpinInWindow s.time.ticks mv := by
      rw [Bool.not_not]
      exact Bool.eq_iff_iff.mpr (decide_eq_true_iff.trans hin.symm)
    have hout : decide (¬inside ∧ x.state ≠ .off) = (!x.vpinInWindow s.time.ticks mv && !decide (x.state = .off)) := by
      rw [Bool.decide_and, decide_not, decide_not, hdec, Bool.not_not]
    rw [show compared = _ from hsettled _, Quire.vpinCompared, ← hdec, ← hout]
  have hquiet : ∀ (i : Instr) (f : Quire → W) (y : Quire), exec i s = .next (s.onQuire q f) → f x = y.w → is i y := fun i f y hexec hf => s.exec_setQuire i q f y hexec hf
  have hclamp : ∀ y : Quire, y.live = x.live → x.w.clampOvercurrent pin ma = (y.w.bump (rk 0x09 0x1008)).log 0x13 4 (packW [(8, pin.val), (0, min ma 255)]) 0 0 →
      s.Makes (.clampOvercurrent q pin ma) q y (s.CountsOne q (rk 9 0x1008)) := fun y hlive hw =>
    s.makes_of _ q _ y _ rfl hw ((y.bump_quiet _ 1).log _ _ _ _ _ _) (y.bump_counts _ 1) fun t ht => s.countsOne_bump hlive ht
  have hcompare : injecting 0x10 0 x.injections = false → ∀ i : Instr, exec i s = .next (s.onQuire q fun x => x.w.vpinCompare s.ctx mv) → comparison i := fun hinj i hexec => by
    refine ⟨fun h => ?_, fun h hoff => ?_⟩
    · rw [hcompared]
      exact hexec.trans (congrArg Host.Outcome.next (vpinCompare_passes hinj (h.imp_left hin.mpr)))
    · have hout : x.vpinInWindow s.time.ticks mv = false := Bool.eq_false_iff.mpr fun hc => h (hin.mp hc)
      obtain ⟨hwithin, hquire, hrep⟩ := vpinCompare_fails hinj hoff hout
      refine ⟨_, hexec, hwithin, ?_, hrep⟩
      rw [hquire, hcompared, hmarks x 13 0x2000 (by decide)]
      rfl
  have hsettle : injecting 0x10 0 x.injections = false → inside → exec (.vpinWindowSettled q mv) s =
      .next (if x.state = .off ∧ 9 ≤ s.boot.step then (s.setQuire q held).leaveOff q else s.setQuire q held) := fun hinj h => by
    have hheld : held = x.vpinHolds s.time.ticks mv := by
      rw [show held = { compared with vpinHeld := true } from rfl, hcompared]
      rfl
    rw [hheld]
    exact congrArg Host.Outcome.next (vpinSettled_in hinj (hin.mpr h))
  refine ⟨fun hoff hinj => ⟨fun h => ?_, fun h h' => ?_, fun h => ?_, ?_⟩, fun n m hoff hinj hma => ?_, fun hoff => ⟨?_, ?_⟩, fun hinj => ⟨hcompare hinj _ rfl, hcompare hinj _ rfl, fun h h' => ?_, fun h hoff hb => ⟨fun hp => ?_, fun p hp => ?_⟩, fun h => ?_⟩,
    fun n hoff hinj h => ?_, fun hinj => ⟨fun h => ?_, fun h => ?_⟩⟩
  · refine hquiet _ _ _ rfl ?_
    rw [W.clampOvercurrent_quiet hoff hinj, hended]
    dsimp only
    rw [if_pos (by omega : ma ≤ 50), if_pos h]
  · refine hclamp _ rfl ?_
    rw [W.clampOvercurrent_quiet hoff hinj, hended]
    dsimp only
    rw [if_pos h', if_neg (not_le.mpr h)]
  · refine hclamp _ rfl ?_
    rw [W.clampOvercurrent_quiet hoff hinj]
    dsimp only
    rw [if_neg (by omega : ¬ma ≤ 50), if_neg (by omega : ¬ma ≤ 20)]
  · have hsays : (x.w.clampOverload pin).Says (if bit x.overloaded pin.val then [] else [overloadSaid pin false]) := by
      rw [W.clampOverload_quiet hoff hinj]
      generalize ({ x with overloaded := setBit x.overloaded pin.val } : Quire) = y
      cases bit x.overloaded pin.val with
      | true => exact y.w_says
      | false => exact y.w_says.report .quire 0x11 (BitVec.ofNat 8 pin.val) 0x02 0 false
    obtain ⟨hwithin, hquire, hrep⟩ := s.onQuire_says q (fun x => x.w.clampOverload pin) hsays
    refine ⟨_, rfl, hwithin, ?_, hrep.trans (congrArg _ ?_)⟩
    · rw [hquire, W.clampOverload_quiet hoff hinj]
      generalize ({ x with overloaded := setBit x.overloaded pin.val } : Quire) = y
      cases bit x.overloaded pin.val with
      | true => rfl
      | false => rfl
    · show _ = if bit x.overloaded pin.val = true then _ else _
      cases bit x.overloaded pin.val with
      | true => rfl
      | false => rfl
  · have hw := W.clampOvercurrent_injected hoff hma hinj
    generalize hz : ({ x with injections := [{ checker := 0x11, element := pin.val, left := n + 1, made := m + 1 }] } : Quire).settledOwn.overloadEnds pin = z at hw
    have hzinj : z.injections = [{ checker := 0x11, element := pin.val, left := n + 1, made := m + 1 }] := by rw [← hz]; rfl
    have hsays : (x.w.clampOvercurrent pin ma).Says (if m + 1 = 10 then [overloadSaid pin true] else []) := by
      rw [hw]
      by_cases hm : m + 1 = 10
      · rw [decide_eq_true hm, if_pos hm]
        exact z.w_says.report .quire 0x11 (BitVec.ofNat 8 pin.val) 0x02 0 true
      · rw [decide_eq_false hm, if_neg hm]
        exact z.w_says
    have hq : (x.w.clampOvercurrent pin ma).q = z := by
      rw [hw]
      cases decide (m + 1 = 10) with
      | true => rfl
      | false => rfl
    obtain ⟨hwithin, hquire, hrep⟩ := s.onQuire_says q (fun x => x.w.clampOvercurrent pin ma) hsays
    replace hquire := hquire.trans hq
    refine ⟨_, rfl, hwithin, (congrArg Quire.injections hquire).trans hzinj, hrep.trans (congrArg _ ?_), ?_⟩
    · by_cases hm : m + 1 = 10
      · rw [if_pos hm, if_pos hm]
        rfl
      · rw [if_neg hm, if_neg hm]
        rfl
    · rw [hquire, Quire.qfLive_clamps, hzinj]
      simp
  · exact hquiet (.clampOvercurrent q pin ma) (fun x => x.w.clampOvercurrent pin ma) x rfl (if_pos hoff) |>.trans (congrArg Host.Outcome.next (s.setQuire_quire q))
  · exact hquiet (.clampOverload q pin) (fun x => x.w.clampOverload pin) x rfl (if_pos hoff) |>.trans (congrArg Host.Outcome.next (s.setQuire_quire q))
  · refine (hsettle hinj h).trans (congrArg Host.Outcome.next (if_neg fun hc => ?_))
    rcases h' with h' | h'
    · exact h' hc.1
    · omega
  · refine (hsettle hinj h).trans (congrArg Host.Outcome.next ((if_pos ⟨hoff, hb⟩).trans ?_))
    rw [State.leaveOff_setQuire, hp]
    rfl
  · refine (hsettle hinj h).trans (congrArg Host.Outcome.next ((if_pos ⟨hoff, hb⟩).trans ?_))
    rw [State.leaveOff_setQuire, hp]
    rfl
  · exact congrArg Host.Outcome.next (vpinSettled_out hinj (Bool.eq_false_iff.mpr fun hc => h (hin.mp hc)))
  · have hw := W.vpinCompare_injected (c := s.ctx) hoff (hin.mpr h) hinj
    generalize hz : ({ x with injections := [{ checker := 0x10, element := 0, left := n + 1, made := 1 }] } : Quire).settledOwn.vpinCompared s.ctx.ticks mv = z at hw
    have hzinj : z.injections = [{ checker := 0x10, element := 0, left := n + 1, made := 1 }] := by rw [← hz]; rfl
    have hzok : z.vpinOk = true := by
      rw [← hz]
      show (!!x.vpinInWindow s.time.ticks mv) = true
      rw [hin.mpr h]
      rfl
    have hzinsts : z.insts = x.insts := by rw [← hz]; rfl
    have hsays : (x.w.vpinCompare s.ctx mv).Says [vpinSaid mv true] := by
      rw [hw]
      exact (Quire.w_says _).report .quire 0x10 0xFF 0x01 mv true
    obtain ⟨hwithin, hquire, hrep⟩ := s.onQuire_says q (fun x => x.w.vpinCompare s.ctx mv) hsays
    replace hquire := hquire.trans (congrArg W.q hw)
    refine ⟨_, rfl, hwithin, (congrArg Quire.injections hquire).trans hzinj, (congrArg Quire.insts hquire).trans ?_, (congrArg Quire.vpinOk hquire).trans hzok, ?_, hrep⟩
    · rw [hmarks x 13 0x2000 (by decide)]
      show (z.suspects s.time.ticks cbVpin 5000).insts = _
      rw [Quire.suspects, Quire.suspects, hzinsts]
    · rw [hquire, Quire.qfLive_vpin, show ((z.suspects s.ctx.ticks cbVpin 5000).w.report .quire 0x10 0xFF 0x01 mv true).q.injections = _ from hzinj]
      exact Bool.or_true _
  · have hrun := vcoreWindowCheck_in hinj (show vcoreInWindow mv = true by simpa [vcoreInWindow] using h)
    obtain ⟨holds, hholds, hquire⟩ := s.vcoreEnds
    refine ⟨_, congrArg Host.Outcome.next hrun, rfl, rfl, fun g => ⟨?_, fun e he hc hsev hninj hread => ?_⟩⟩
    · rw [hquire]
      rfl
    · rw [hquire, Quire.settleRecords, he]
      exact congrArg some (ErrRec.settle_vcore _ _ e hc hsev hread (hholds _ hc hninj))
  · have hrun := vcoreWindowCheck_out hinj (show vcoreInWindow mv = false from Bool.eq_false_iff.mpr fun hc => h (by simpa [vcoreInWindow] using hc))
    obtain ⟨hcol, htime, hquire⟩ := s.vcoreMarks
    generalize ((s.live 0x02 true).each (s.playedWithin 5000) fun s q => s.modQuire q fun x => x.suspects s.time.ticks cbOther 5000) = t at hrun hcol htime hquire
    have hquires : ∀ g, t.quire g = { s.quire g with insts := marked (s.quire g) 0x4000 } := fun g => by
      rw [hquire, hmarks _ 14 0x4000 (by decide)]
      rfl
    by_cases ho : s.collector.real.getLsbD 2 = true
    · exact ⟨_, congrArg Host.Outcome.next (hrun.trans (if_pos ho)), hquires, by rw [hcol], fun _ => by rw [hcol], fun hn => absurd ho hn⟩
    · refine ⟨_, congrArg Host.Outcome.next (hrun.trans (if_neg ho)), hquires, ?_, fun hc => absurd hc ho, fun _ => ⟨{ s.vcoreReport with timeNs := t.time.ns, timeValid := t.time.valid }, ?_, rfl, rfl, rfl, rfl, mem_playedWithin s 5000⟩⟩
      · show t.collector.real = _
        rw [hcol]
      · show t.collector.reports ++ _ = _
        rw [hcol]
        rfl

end Sys2Proof.Proofs
end

section
/-! The fault collector: the report is noted in the records of its scope and in the log, and a fault then parks its quires (R750 to R755, R759 to R764, R767, R775). -/

namespace Sys2Proof.Machine

/-! ### The log only grows (R782, R787) -/

/-- The log of `t` goes on from the log of `s`. -/
def State.LogGrows (s t : State) : Prop := s.log.entries <+: t.log.entries

namespace State.LogGrows
variable {s t u : State}

theorem refl (s : State) : s.LogGrows s := List.prefix_refl _

theorem trans (h : s.LogGrows t) (h' : t.LogGrows u) : s.LogGrows u := List.IsPrefix.trans h h'

theorem ite {c : Prop} [Decidable c] (h : s.LogGrows t) (h' : s.LogGrows u) : s.LogGrows (if c then t else u) := by
  split
  · exact h
  · exact h'

theorem each {α : Type} (l : List α) (f : State → α → State) (hf : ∀ v a, State.LogGrows v (f v a)) (s : State) : s.LogGrows (s.each l f) :=
  List.foldlRecOn (motive := s.LogGrows) l f (refl s) fun v hv a _ => hv.trans (hf v a)

/-- A step that leaves the log. -/
theorem of_log (h : t.log = s.log) : s.LogGrows t := by
  rw [LogGrows, h]

end State.LogGrows

section
variable (s : State)

theorem offerOnce_logGrows (e : LogEvent) : s.LogGrows (offerOnce e s).1 := by
  unfold offerOnce
  dsimp only
  split
  · exact .refl s
  · split
    · exact .refl s
    · split
      · exact .refl s
      · exact List.prefix_append _ _

/-- An offered event leaves at most one entry, and one more for each counter that it fills. -/
theorem offer_logGrows (n : Nat) (e : LogEvent) : s.LogGrows (offer n e s) ∧ (offer n e s).log.entries.length ≤ s.log.entries.length + n + 1 := by
  have hone : ∀ (s : State) (e : LogEvent), (offerOnce e s).1.log.entries.length ≤ s.log.entries.length + 1 := fun s e => by
    unfold offerOnce
    dsimp only
    split
    · exact Nat.le_succ _
    · split
      · exact Nat.le_succ _
      · split
        · exact Nat.le_succ _
        · rw [List.length_append, List.length_singleton]
  induction n generalizing s e with
  | zero => exact ⟨offerOnce_logGrows s e, hone s e⟩
  | succ n ih =>
    have h1 := hone s e
    rw [offer]
    split
    · exact ⟨offerOnce_logGrows s e, by omega⟩
    next addr _ =>
      obtain ⟨hgrows, hlen⟩ := ih { (offerOnce e s).1 with collector := { (offerOnce e s).1.collector with satPages := setBit (offerOnce e s).1.collector.satPages 7 } } (satEvent addr)
      refine ⟨(offerOnce_logGrows s e).trans hgrows, hlen.trans ?_⟩
      dsimp only
      omega

theorem State.logEvent_logGrows (e : LogEvent) : s.LogGrows (s.logEvent e) := (offer_logGrows s 4 e).1

theorem State.bump_logGrows (k n : Nat) : s.LogGrows (s.bump k n) := by
  unfold State.bump
  exact .ite (State.logEvent_logGrows { s.setReg k (BitVec.ofNat 32 (satAdd 32 (s.reg k).toNat n).1) with collector := _ } _) (.refl s)

theorem State.bump_logLength (k n : Nat) : (s.bump k n).log.entries.length ≤ s.log.entries.length + 5 := by
  unfold State.bump
  dsimp only
  split
  · exact (offer_logGrows { s.setReg k (BitVec.ofNat 32 (satAdd 32 (s.reg k).toNat n).1) with collector := _ } 4 _).2
  · exact Nat.le_add_right _ 5

theorem State.wire_logGrows (r : Reply) : s.LogGrows (s.wire r) := by
  unfold State.wire
  have h : s.LogGrows (if 0x10 ≤ r.status.toNat then s.bump (rk 8 (0x110 + 0x20 * r.dest.link.val)) else s) := .ite (s.bump_logGrows _ _) (.refl s)
  exact .ite (h.trans (.refl _)) h

theorem State.reply_logGrows (d : ReplyTo) (st : Byte) (dt : BitVec 16) (res : List Byte) : s.LogGrows (s.reply d st dt res) :=
  .ite (.ite (.refl s) (State.wire_logGrows (s.modSession d.link fun x => x.complete _ _) _)) (.refl s)

theorem State.quireDone_logGrows (d : ReplyTo) (q : QId) (st : Byte) (dt : BitVec 16) (rc : List Byte) : s.LogGrows (s.quireDone d q st dt rc) := by
  unfold State.quireDone
  split
  · exact .refl s
  · dsimp only
    exact .ite ((State.LogGrows.of_log (t := { s with maskWaits := dropFirst (fun v => decide (v.dest = d)) s.maskWaits, quires := s.quires.map (Quire.unoccupy d) }) rfl).trans (State.reply_logGrows _ _ _ _ _)) (.of_log rfl)

theorem State.runFx_logGrows (q : QId) (x : Fx) : s.LogGrows (State.runFx q s x) := by
  cases x with
  | log => exact s.logEvent_logGrows _
  | saturated => exact s.logEvent_logGrows _
  | reply => exact s.reply_logGrows _ _ _ _
  | done => exact s.quireDone_logGrows _ _ _ _ _
  | replyCollate => exact s.reply_logGrows _ _ _ _
  | replyLive => exact s.reply_logGrows _ _ _ _
  | report => exact .refl s
  | freeBits => exact .refl s
  | lineReport => exact .refl s
  | delay => exact .refl s

theorem State.onQuire_logGrows (q : QId) (f : Quire → W) : s.LogGrows (s.onQuire q f) :=
  List.foldlRecOn (motive := s.LogGrows) _ _ (.refl s) fun t ht x _ => ht.trans (t.runFx_logGrows q x)

end

/-! ### What a fault of a quire keeps of its errors -/

/-- The step keeps the quire's error records and the counters of its error page, and leaves the cause QUIRE_FAULT where an instance has it. -/
structure Quire.KeepsErrors (x y : Quire) : Prop where
  sticky : y.qfSticky = x.qfSticky
  first : y.firstError = x.firstError
  second : y.secondError = x.secondError
  counters : ∀ k, rk 0x1C 0 ≤ k → y.liveReg k = x.liveReg k
  causes : (∀ i ∈ x.insts, i.causes.getLsbD cbQuireFault = true) → ∀ i ∈ y.insts, i.causes.getLsbD cbQuireFault = true

theorem Quire.KeepsErrors.refl (x : Quire) : x.KeepsErrors x := ⟨rfl, rfl, rfl, fun _ _ => rfl, id⟩

theorem Quire.KeepsErrors.trans {x y z : Quire} (h : x.KeepsErrors y) (h' : y.KeepsErrors z) : x.KeepsErrors z where
  sticky := h'.sticky.trans h.sticky
  first := h'.first.trans h.first
  second := h'.second.trans h.second
  counters k hk := (h'.counters k hk).trans (h.counters k hk)
  causes hx := h'.causes (h.causes hx)

/-- The request leaves the counters of the quire's error page. -/
def Fx.spares : Fx → Prop
  | .freeBits k _ => k < rk 0x1C 0
  | _ => True

/-- The step keeps the quire's errors, and so do its requests. -/
structure W.KeepsErrors (w v : W) : Prop where
  quire : w.q.KeepsErrors v.q
  asks : (∀ x ∈ w.fx, x.spares) → ∀ x ∈ v.fx, x.spares

namespace W.KeepsErrors

theorem refl (w : W) : w.KeepsErrors w := ⟨.refl _, id⟩

theorem trans {u v w : W} (h : u.KeepsErrors v) (h' : v.KeepsErrors w) : u.KeepsErrors w := ⟨h.quire.trans h'.quire, h'.asks ∘ h.asks⟩

theorem ite {c : Prop} [Decidable c] {w u v : W} (h : w.KeepsErrors u) (h' : w.KeepsErrors v) : w.KeepsErrors (if c then u else v) := by
  split
  · exact h
  · exact h'

theorem each {α : Type} (w : W) (l : List α) (f : W → α → W) (hf : ∀ (v : W) a, v.KeepsErrors (f v a)) : w.KeepsErrors (w.each l f) :=
  List.foldlRecOn (motive := w.KeepsErrors) l f (.refl w) fun v hv a _ => hv.trans (hf v a)

end W.KeepsErrors

section
variable (w : W)

theorem W.keeps_ask {x : Fx} (hx : x.spares) : w.KeepsErrors (w.ask x) :=
  ⟨.refl _, fun h y hy => (List.mem_append.mp hy).elim (h y) fun hy => by rw [List.mem_singleton.mp hy]; exact hx⟩

/-- A change of the quire that touches neither its errors nor its live words, and leaves causes of its instances as they are. -/
theorem W.keeps_upd (f : Quire → Quire) (hl : (f w.q).live = w.q.live) (hs : (f w.q).qfSticky = w.q.qfSticky) (h1 : (f w.q).firstError = w.q.firstError) (h2 : (f w.q).secondError = w.q.secondError)
    (hi : (∀ i ∈ w.q.insts, i.causes.getLsbD cbQuireFault = true) → ∀ i ∈ (f w.q).insts, i.causes.getLsbD cbQuireFault = true) : w.KeepsErrors (w.upd f) :=
  ⟨⟨hs, h1, h2, fun k _ => Quire.liveReg_congr hl k, hi⟩, id⟩

theorem W.keeps_setLive {k : Nat} (hk : k < rk 0x1C 0) (v : Word) : w.KeepsErrors (w.setLive k v) :=
  ⟨⟨rfl, rfl, rfl, fun j hj => rget_rput_other _ _ _ _ (by omega), id⟩, id⟩

theorem W.keeps_bump {k : Nat} (hk : k < rk 0x1C 0) (n : Nat) : w.KeepsErrors (w.bump k n) := by
  have h := w.bump_counts k n
  refine ⟨⟨by rw [h], by rw [h], by rw [h], fun j hj => w.bump_liveReg_other n (by omega), by rw [h]; exact id⟩, ?_⟩
  obtain ⟨v, m, fx, hw, hfx, -⟩ := w.bump_shape k n
  rw [hw]
  refine fun hf x hx => (List.mem_append.mp hx).elim (hf x) fun hx => ?_
  have hlogs := hfx x hx
  cases x with
  | freeBits => exact absurd hlogs (by simp [Fx.logs])
  | _ => exact trivial

theorem W.keeps_causeAll (b : Nat) : w.KeepsErrors (w.causeAll b) :=
  w.keeps_upd _ rfl rfl rfl rfl fun h i hi => by
    obtain ⟨j, hj, rfl⟩ := List.mem_map.mp hi
    simp [h j hj]

theorem W.keeps_causePlaying (b : Nat) : w.KeepsErrors (w.causePlaying b) :=
  w.keeps_upd _ rfl rfl rfl rfl fun h i hi => by
    obtain ⟨j, hj, rfl⟩ := List.mem_map.mp hi
    split
    · simp [h j hj]
    · exact h j hj

theorem W.keeps_endInst (c : Ctx) (id : Nat) : w.KeepsErrors (w.endInst c id) := by
  unfold W.endInst
  split
  · exact .refl w
  next i hi =>
    extract_lets full i' w1
    have h1 : w.KeepsErrors w1 := w.keeps_upd _ rfl rfl rfl rfl fun h j hj => by
      obtain ⟨k, hk, rfl⟩ := List.mem_map.mp hj
      split
      · exact h i (List.mem_of_find?_eq_some hi)
      · exact h k hk
    generalize w1 = v at h1
    exact .ite (h1.trans (v.keeps_bump (by decide) _)) (h1.trans (v.keeps_upd _ rfl rfl rfl rfl fun h => h))

theorem W.keeps_cutInsts (c : Ctx) (b : Nat) : w.KeepsErrors (w.cutInsts c b) :=
  (w.keeps_causePlaying b).trans (.each _ _ _ fun v id => v.keeps_endInst c id)

theorem W.keeps_epAbort (cause : Nat) : w.KeepsErrors (w.epAbort cause) := by
  unfold W.epAbort
  have habort : w.KeepsErrors (((w.upd fun q => { q with endpaper := { q.endpaper with phase := .idle, comparing := false, forced := false } }).bump (rk 0x04 0x11018)).setLive
      (rk 0x04 0x1101C) (BitVec.ofNat 32 cause)) :=
    ((w.keeps_upd _ rfl rfl rfl rfl fun h => h).trans (W.keeps_bump _ (by decide) _)).trans (W.keeps_setLive _ (by decide) _)
  have hgone := habort.trans ((W.keeps_upd _ (fun q => { q with retrim := none }) rfl rfl rfl rfl fun h => h).trans (W.keeps_bump _ (k := rk 0x18 0x8) (by decide) 1))
  split
  · exact .ite hgone habort
  · exact .ite hgone habort
  · exact .ite hgone habort
  · exact .refl w

theorem W.keeps_pmuEndEarly (st : Byte) (dt : BitVec 16) : w.KeepsErrors (w.pmuEndEarly st dt) := by
  unfold W.pmuEndEarly
  split
  · exact .refl w
  next j _ =>
    have h : w.KeepsErrors ((((w.upd fun q => { q with pmu := none }).setLive (rk 0x0A 0x100) (packW [(26, j.mode), (24, j.range), (16, j.pin)])).setLive (rk 0x0A 0x104)
        (packW [(29, b2n j.late)])).ask (.freeBits (rk 0x0A 0x104) 0x3FFFF)) :=
      (((w.keeps_upd _ rfl rfl rfl rfl fun h => h).trans (W.keeps_setLive _ (by decide) _)).trans (W.keeps_setLive _ (by decide) _)).trans (W.keeps_ask _ (show rk 0x0A 0x104 < rk 0x1C 0 by decide))
    split
    · exact h
    · exact h.trans (W.keeps_ask _ trivial)

theorem W.keeps_foldl {α : Type} (l : List α) (f : W → α → W) (hf : ∀ (v : W) a, v.KeepsErrors (f v a)) : w.KeepsErrors (l.foldl f w) := W.KeepsErrors.each w l f hf

theorem rk_tmu (u : TmuId) {o : Nat} (ho : o < 0x40) : rk 0x0E (0x40 * u.val + o) < rk 0x1C 0 := by
  have := u.isLt
  simp only [rk]
  omega

theorem W.keeps_tmuEnd (oz : Bool) (u : TmuId) (j : TmuJob) (cause : Nat) : w.KeepsErrors (w.tmuEnd oz u j cause) := by
  have hset : ∀ (v : W) (l : List (Nat × Word)), (∀ x ∈ l, x.1 < 0x40) → v.KeepsErrors (l.foldl (fun (w : W) (x : Nat × Word) => w.setLive (rk 0x0E (0x40 * u.val + x.1)) x.2) v) := fun v l hl =>
    List.foldlRecOn (motive := v.KeepsErrors) l _ (.refl v) fun t ht x hx => ht.trans (t.keeps_setLive (rk_tmu u (hl x hx)) _)
  have hfree : ∀ v : W, v.KeepsErrors (v.each [4, 8, 0xC, 0x10, 0x14] fun w o => w.ask (.freeBits (rk 0x0E (0x40 * u.val + o)) 0xFFFFFFFF)) := fun v =>
    List.foldlRecOn (motive := v.KeepsErrors) _ _ (.refl v) fun t ht o ho => ht.trans (t.keeps_ask (rk_tmu u (by simp at ho; omega)))
  have hend : ∀ v : W, v.KeepsErrors ((v.upd fun q => { q with tmus := q.tmus.set u none }).bump (rk 0x0E (0x40 * u.val + 0x30))) := fun v =>
    (v.keeps_upd _ rfl rfl rfl rfl fun h => h).trans (W.keeps_bump _ (rk_tmu u (by decide)) 1)
  unfold W.tmuEnd
  extract_lets base t set w1 w2 w3
  have h1 : w.KeepsErrors w1 := hset w _ (by simp)
  have h2 : w1.KeepsErrors w2 := .ite (hset w1 _ (by simp)) (.refl w1)
  have h3 : w2.KeepsErrors w3 := .ite (.refl w2) (hfree w2)
  exact ((h1.trans h2).trans h3).trans (hend w3)

theorem W.keeps_tmusEndEarly (oz : Bool) (cause : Nat) (st : Byte) (dt : BitVec 16) (result : Bool) : w.KeepsErrors (w.tmusEndEarly oz cause st dt result) :=
  .each _ _ _ fun v u => by
    unfold W.tmuEndEarly
    split
    · exact .refl v
    next j _ =>
      have h := v.keeps_tmuEnd oz u j (if j.cause = 0 then cause else j.cause)
      dsimp only
      split
      · exact h
      · exact h.trans (W.keeps_ask _ trivial)

theorem W.keeps_endDerived : w.KeepsErrors w.endDerived := by
  unfold W.endDerived
  split
  · exact .refl w
  next d _ =>
    have hstaged : w.KeepsErrors (if d.staged then w.upd fun q => q.invalidate d.sigs.contains else w) := .ite (w.keeps_upd _ rfl rfl rfl rfl fun h => h) (.refl w)
    generalize (if d.staged then w.upd fun q => q.invalidate d.sigs.contains else w) = v at hstaged
    have hgone := hstaged.trans (v.keeps_upd (fun q => { q with
      derivation := none, store := q.store.filter fun it => !it.derived, ready := q.ready.filter fun it => !it.derived
      engines := q.engines.map fun (e : Nat × Engine) => (e.1, { e.2 with item := e.2.item.filter fun it => !it.derived })
      dram := { q.dram with queue := q.dram.queue.filter fun r => r.port ≠ .scratch || r.write } }) rfl rfl rfl rfl fun h => h)
    exact .ite hgone (hgone.trans (W.keeps_bump _ (k := rk 0x10 0x108) (by decide) _))

theorem W.keeps_endOccupier (st : Byte) (dt : BitVec 16) : w.KeepsErrors (w.endOccupier st dt) := by
  have hself : w.KeepsErrors (w.upd fun q => { q with selftest := none }) := w.keeps_upd _ rfl rfl rfl rfl fun h => h
  have hfree := (hself.trans (W.keeps_upd _ (fun q => { q with occupied := none }) rfl rfl rfl rfl fun h => h)).trans (W.keeps_endDerived _)
  have hask : ∀ x : Fx, x.spares → w.KeepsErrors (((((w.upd fun q => { q with selftest := none }).upd fun q => { q with occupied := none }).endDerived).ask x)) := fun x hx => hfree.trans (W.keeps_ask _ hx)
  unfold W.endOccupier
  dsimp only
  split
  · exact hself
  next o _ =>
    cases o with
    | ended d => exact hfree
    | settle d e since => exact .ite (hask _ trivial) (hask _ trivial)
    | collate d => exact hask _ trivial
    | selftest d e => exact hask _ trivial
    | loadCheck d => exact hask _ trivial
    | arm d => exact hask _ trivial
    | rebind d => exact hask _ trivial

theorem W.keeps_endWaiters (st : Byte) (dt : BitVec 16) : w.KeepsErrors (w.endWaiters st dt) :=
  (w.keeps_upd _ rfl rfl rfl rfl fun h => h).trans (.each _ _ _ fun v _ => v.keeps_ask trivial)

theorem W.keeps_leaveRun : w.KeepsErrors w.leaveRun := by
  have hcancel : w.KeepsErrors w.cancelPattern := (w.keeps_upd _ rfl rfl rfl rfl fun h => h).trans (W.keeps_bump _ (k := rk 0x10 0x108) (by decide) _)
  have hsweep : ∀ v : W, v.KeepsErrors v.abortSweep := fun v => by
    have hclose : v.KeepsErrors (v.upd Quire.closeSweep) := v.keeps_upd _ rfl rfl rfl rfl fun h => h
    unfold W.abortSweep
    dsimp only
    split
    · exact .ite hclose (hclose.trans (W.keeps_bump _ (by decide) _))
    · exact hclose
  refine (hcancel.trans (hsweep _)).trans ?_
  unfold W.leaveRun
  exact W.keeps_upd _ _ rfl rfl rfl rfl fun h => h

theorem W.keeps_resolveRun : w.KeepsErrors w.resolveRun := by
  obtain ⟨v, g, h⟩ := w.resolveRun_shape
  rw [h]
  exact w.keeps_upd (fun q => { q with run := { q.run with verdict := v }, regions := g }) rfl rfl rfl rfl fun h => h

end

/-! ### The park of a fault (R761) -/

/-- The quire stands FAULTED with the cause: nothing plays, drives or occupies it, and its instances have the cause QUIRE_FAULT. -/
structure Quire.FaultedBy (x : Quire) (cause : Byte) : Prop where
  state : x.state = .faulted
  faultCause : x.faultCause = cause
  pins : x.pins = List.replicate 32 .highZ
  fifo : x.fifo = []
  free : x.occupied = none
  causes : ∀ i ∈ x.insts, i.causes.getLsbD cbQuireFault = true

theorem Quire.LetGo.faultedBy {x y : Quire} (h : x.LetGo y) {cause : Byte} (hx : x.FaultedBy cause) : y = x := by
  rcases h with rfl | ⟨d, hd, -⟩
  · rfl
  · rw [hx.free] at hd
    cases hd

theorem Quire.LetGo.keepsErrors {x y : Quire} (h : x.LetGo y) : x.KeepsErrors y := by
  rcases h with rfl | ⟨d, hd, rfl⟩
  · exact .refl _
  · exact ⟨rfl, rfl, rfl, fun _ _ => rfl, id⟩

section
variable (x : Quire) (c : Ctx) (cause : Byte)

/-- The park of a fault: what ends before the run is left. -/
def W.endsByFault (w : W) (c : Ctx) : W :=
  ((((((w.causeAll cbQuireFault).cutInsts c cbQuireFault).epAbort 0x02).pmuEndEarly stFaulted 0).tmusEndEarly c.oz 0x5 stFaulted 0 false).endOccupier stFaulted 0).endWaiters stFaulted 0

/-- The quire once it stands FAULTED. -/
def Quire.standsFaulted (x : Quire) (cause : Byte) (inRun : Bool) : Quire :=
  { x.park with state := .faulted, faultCause := cause, run := if inRun then { x.run with ended := true, clockOrFault := true } else x.run }

theorem W.keeps_standsFaulted (w : W) (cause : Byte) (inRun : Bool) : w.KeepsErrors (w.upd fun q => q.standsFaulted cause inRun) := w.keeps_upd _ rfl rfl rfl rfl fun h => h

variable {x} (hoff : x.state ≠ .off) (hfault : x.state ≠ .faulted)
include hoff hfault

theorem W.enterFaulted_eq : x.w.enterFaulted c cause = (((x.w.endsByFault c).leaveRun).upd fun q => q.standsFaulted cause x.state.inPlay).resolveRun := by
  have hgo : ¬(x.w.q.state = .off || x.w.q.state = .faulted) = true := by
    rw [Quire.w_q, decide_eq_false hoff, decide_eq_false hfault]
    exact Bool.false_ne_true
  rw [W.enterFaulted, if_neg hgo]
  rfl

theorem W.enterFaulted_keeps : (x.w.causeAll cbQuireFault).KeepsErrors (x.w.enterFaulted c cause) := by
  rw [W.enterFaulted_eq c cause hoff hfault]
  have hends : (x.w.causeAll cbQuireFault).KeepsErrors (x.w.endsByFault c) :=
    (((((W.keeps_cutInsts _ c cbQuireFault).trans (W.keeps_epAbort _ 0x02)).trans (W.keeps_pmuEndEarly _ stFaulted 0)).trans (W.keeps_tmusEndEarly _ c.oz 0x5 stFaulted 0 false)).trans
      (W.keeps_endOccupier _ stFaulted 0)).trans (W.keeps_endWaiters _ stFaulted 0)
  exact ((hends.trans (W.keeps_leaveRun _)).trans (W.keeps_standsFaulted _ cause _)).trans (W.keeps_resolveRun _)

theorem W.enterFaulted_faultedBy : (x.w.enterFaulted c cause).q.FaultedBy cause := by
  have hall : ∀ i ∈ (x.w.causeAll cbQuireFault).q.insts, i.causes.getLsbD cbQuireFault = true := fun i hi => by
    obtain ⟨j, -, rfl⟩ := List.mem_map.mp hi
    simp [cbQuireFault]
  have hcauses := (W.enterFaulted_keeps c cause hoff hfault).quire.causes hall
  have heq := W.enterFaulted_eq c cause hoff hfault
  have hfree : (x.w.endsByFault c).q.occupied = none := by
    rw [W.endsByFault, W.endWaiters_q]
    obtain ⟨_, _, _, _, _, _, _, h⟩ := W.endOccupier_shape (((((x.w.causeAll cbQuireFault).cutInsts c cbQuireFault).epAbort 0x02).pmuEndEarly stFaulted 0).tmusEndEarly c.oz 0x5 stFaulted 0 false) stFaulted 0
    rw [h]
  have hleft := (x.w.endsByFault c).leaves_leaveRun.frame
  generalize x.w.endsByFault c = e at heq hleft hfree
  generalize e.leaveRun = u at heq hleft
  obtain ⟨v, g, hres⟩ := W.resolveRun_shape (u.upd fun q => q.standsFaulted cause x.state.inPlay)
  have hq := congrArg W.q (heq.trans hres)
  refine ⟨by rw [hq]; rfl, by rw [hq]; rfl, by rw [hq]; rfl, ?_, ?_, hcauses⟩
  · rw [hq]
    show u.q.fifo = []
    rw [hleft]
  · rw [hq]
    show u.q.occupied = none
    rw [hleft]
    exact hfree

end

theorem W.Unreported.enterFaulted {x : Quire} (c : Ctx) (cause : Byte) : (x.w.enterFaulted c cause).Unreported := by
  unfold W.enterFaulted
  exact .ite x.w_unreported (.resolveRun (.upd (.leaveRun (.endWaiters (.endOccupier (.tmusEndEarly (.pmuEndEarly (.epAbort (.cutInsts (.upd x.w_unreported _) c cbQuireFault) 0x02) stFaulted 0) c.oz 0x5 stFaulted 0 false) stFaulted 0) stFaulted 0)) _))

/-- What a step of a quire asks for keeps the quire's errors. -/
theorem State.onQuire_keepsErrors (s : State) (q : QId) (f : Quire → W) (h : ∀ x ∈ (f (s.quire q)).fx, x.spares) : (f (s.quire q)).q.KeepsErrors ((s.onQuire q f).quire q) := by
  refine List.foldlRecOn (motive := fun t : State => (f (s.quire q)).q.KeepsErrors (t.quire q)) _ _ ?_ fun t ht x hx => ht.trans ?_
  · rw [State.quire_setQuire_same]
    exact .refl _
  · have hx := h x hx
    cases x with
    | freeBits k m =>
      rw [State.runFx, State.quire_modQuire_same]
      have hkeep : (t.takeFree.2.quire q) = t.quire q := rfl
      rw [hkeep]
      exact ⟨rfl, rfl, rfl, fun j hj => rget_rput_other _ _ _ _ (by have : k < rk 0x1C 0 := hx; omega), id⟩
    | done d st dt =>
      refine Quire.LetGo.keepsErrors ?_
      rw [State.runFx]
      unfold State.quireDone
      split
      · exact .refl _
      · dsimp only
        split
        · rw [State.reply_quire]
          simpa [State.quire] using Quire.letGo_unoccupy d (t.quire q)
        · exact .refl _
    | delay it =>
      rw [State.runFx, State.quire_modQuire_same]
      exact ⟨rfl, rfl, rfl, fun _ _ => rfl, id⟩
    | _ => simp only [State.runFx, State.reply_quire, State.logEvent_quire, State.report_quire]; exact .refl _

theorem State.cancelStarts_none {s : State} (h : s.gov.waiting = []) (q : QId) (st : Byte) (dt : BitVec 16) : s.cancelStarts q st dt = s := by
  have hgov : { s.gov with waiting := [] } = s.gov := by rw [← h]
  simp only [State.cancelStarts, h, List.filter_nil, State.each, List.foldl_nil, hgov]

/-- The fault of a quire while no START waits. -/
structure State.FaultsQuire (s t : State) (q : QId) (cause : Byte) : Prop where
  answered : s.Answered t
  gov : t.gov = s.gov
  log : s.LogGrows t
  apart : s.Apart q t
  idle : (s.quire q).state = .off → t = s
  faults : (s.quire q).state ≠ .off → (s.quire q).state ≠ .faulted → (t.quire q).FaultedBy cause ∧ (t.quire q).qfSticky = (s.quire q).qfSticky ∧ (t.quire q).firstError = (s.quire q).firstError
    ∧ (t.quire q).secondError = (s.quire q).secondError ∧ ∀ k, rk 0x1C 0 ≤ k → (t.quire q).liveReg k = (s.quire q).liveReg k

theorem State.faultQuire_faults (s : State) (q : QId) (cause : Byte) (hw : s.gov.waiting = []) : s.FaultsQuire (s.faultQuire q cause) q cause := by
  have heq : s.faultQuire q cause = s.onQuire q fun x => x.w.enterFaulted s.ctx cause := State.cancelStarts_none (by rw [State.onQuire_gov]; exact hw) q stFaulted 0
  rw [heq]
  refine ⟨s.onQuire_answered q _ (W.Unreported.enterFaulted _ _), s.onQuire_gov q _, s.onQuire_logGrows q _, s.onQuire_apart q _, fun hoff => ?_, fun hoff hfault => ?_⟩
  · have hsame : (s.quire q).w.enterFaulted s.ctx cause = (s.quire q).w := if_pos (by rw [Quire.w_q, hoff]; rfl)
    rw [State.onQuire_quiet _ _ _ (by rw [hsame]; rfl), hsame]
    exact s.setQuire_quire q
  · have hby := W.enterFaulted_faultedBy s.ctx cause hoff hfault
    have hkeeps := (W.keeps_causeAll (s.quire q).w cbQuireFault).trans (W.enterFaulted_keeps s.ctx cause hoff hfault)
    have hafter := s.onQuire_keepsErrors q (fun x => x.w.enterFaulted s.ctx cause) (hkeeps.asks fun x hx => absurd hx List.not_mem_nil)
    obtain ⟨v, d, o, hsame⟩ := s.onQuire_same q fun x => x.w.enterFaulted s.ctx cause
    have hfree := (s.onQuire_sameRun q fun x => x.w.enterFaulted s.ctx cause).occupied
    rw [hby.free] at hfree
    refine ⟨⟨?_, ?_, ?_, ?_, hfree.elim id id, hafter.causes hby.causes⟩, hafter.sticky.trans hkeeps.quire.sticky, hafter.first.trans hkeeps.quire.first, hafter.second.trans hkeeps.quire.second,
      fun k hk => (hafter.counters k hk).trans (hkeeps.quire.counters k hk)⟩
    · rw [hsame]
      exact hby.state
    · rw [hsame]
      exact hby.faultCause
    · rw [hsame]
      exact hby.pins
    · rw [hsame]
      exact hby.fifo

/-! ### The report is noted (R752, R753, R755, R775) -/

/-- The record that a report makes. -/
def State.recordOf (s : State) (r : Report) (transient : Bool) : ErrRec :=
  { report := r, transient := transient, read := false, reports := 1, logSeq := if s.records (reportEvent r transient) then BitVec.ofNat 32 s.log.entries.length else 0xFFFFFFFF }

/-- The quire with a report of one of its checkers counted. -/
def W.countReport (w : W) (c : Nat) : W := (w.upd fun x => { x with qfSticky := x.qfSticky ||| BitVec.ofNat 9 (2 ^ (c - 0x10)) }).bump (rk 0x1C (0x200 + 4 * (c - 0x10)))

/-- An injected report is counted. -/
def State.countInjected (s : State) (r : Report) : State := if r.injected then s.bump (rk 6 0x18) else s

/-- The chip before a report acts: it is counted, logged and filed. -/
def State.noted (s : State) (r : Report) : State :=
  let quires := s.reportQuires r
  let transient := lastingChecker r.checker && r.severity ≠ .chip && !s.conditionLive r
  let u := if r.checker < 0x10 then
      { s with collector := { s.collector with sticky := s.collector.sticky ||| BitVec.ofNat 9 (2 ^ r.checker) } }.bump (rk 6 (0x200 + 4 * r.checker))
    else s.each quires fun s q => s.onQuire q fun x => x.w.countReport r.checker
  let v := u.countInjected r
  let e := v.recordOf r transient
  let l := v.logEvent (reportEvent r transient)
  (if r.checker < 0x10 then l.fileChip e else l).each quires fun s q => s.onQuire q fun x => x.w.fileQuire e

theorem State.takeReport_eq (s : State) (r : Report) : s.takeReport r =
    let quires := s.reportQuires r
    let t := match r.severity with
      | .alert => s.noted r
      | .quire => (s.noted r).each quires fun s q => s.faultQuire q r.cause
      | .chip => (if (s.noted r).collector.faulted then s.noted r else { s.noted r with collector := { (s.noted r).collector with faulted := true, faultCause := r.cause } }).each
          (List.finRange 8) fun s q => s.faultQuire q 0x09
    if t.pulses r then { t with collector := { t.collector with pulse := true } } else t := by
  unfold State.takeReport State.noted State.countInjected State.recordOf
  by_cases h : r.checker < 0x10
  · simp only [decide_eq_true h, if_pos h]
    rfl
  · simp only [decide_eq_false h, if_neg h]
    rfl

/-- The records of a scope with the record `e` taken. -/
def Quire.filed (x : Quire) (e : ErrRec) : Quire := { x with firstError := (fileRecord x.firstError x.secondError e).1.1, secondError := (fileRecord x.firstError x.secondError e).1.2 }

theorem W.fileQuire_shape (x : Quire) (e : ErrRec) : (x.w.fileQuire e).Quiet ∧ ∃ m, (x.w.fileQuire e).q = { x.filed e with satPages := m } := by
  unfold W.fileQuire
  dsimp only
  split
  · exact ⟨fun y hy => by rw [List.mem_singleton.mp hy]; rfl, _, rfl⟩
  · exact ⟨x.w_quiet, _, rfl⟩

theorem State.fileChip_shape (s : State) (e : ErrRec) : ∃ l m, s.fileChip e = { s with log := l, collector := { s.collector with
    firstError := (fileRecord s.collector.firstError s.collector.secondError e).1.1, secondError := (fileRecord s.collector.firstError s.collector.secondError e).1.2, satPages := m } } := by
  unfold State.fileChip
  dsimp only
  split
  · obtain ⟨l, c, h⟩ := State.logEvent_shape { s with collector := { s.collector with
      firstError := (fileRecord s.collector.firstError s.collector.secondError e).1.1, secondError := (fileRecord s.collector.firstError s.collector.secondError e).1.2
      satPages := setBit s.collector.satPages 6 } } (satEvent (rk 6 0x134))
    exact ⟨l, c, h⟩
  · exact ⟨_, _, rfl⟩

/-- What the first record of a scope holds where it was empty. -/
theorem fileRecord_none (second : Option ErrRec) (e : ErrRec) : (fileRecord none second e).1 = (some e, second) := rfl

theorem fileRecord_second {first : Option ErrRec} (h : first.isSome = true) (e : ErrRec) : (fileRecord first none e).1 = (first, some e) := by
  cases first with
  | none => cases h
  | some f => rfl

theorem fileRecord_full {first : Option ErrRec} (h : first.isSome = true) (x e : ErrRec) :
    ∃ n, Counted 1 x.reports n ∧ (fileRecord first (some x) e).1 = (first, some { x with reports := n }) := by
  cases first with
  | none => cases h
  | some f => exact ⟨_, counted_satAdd 1 x.reports, rfl⟩

/-- A quire in which a report is noted differs by its error records and its counters. -/
theorem Quire.notedOnly {x y : Quire} {e : ErrRec} {v : BitVec 9} (h : y = { x.filed e with live := y.live, satPages := y.satPages, qfSticky := v }) :
    y = { x with live := y.live, satPages := y.satPages, qfSticky := y.qfSticky, firstError := y.firstError, secondError := y.secondError } := by
  rw [h]
  rfl

/-- A report of a checker of quire `q` is noted. -/
structure State.NotedOwn (s t : State) (q : QId) (r : Report) : Prop where
  frame : t = { s with quires := t.quires, regs := t.regs, log := t.log, collector := { s.collector with satPages := t.collector.satPages } }
  others : ∀ g, g ≠ q → t.quire g = s.quire g
  regs : ∀ k, k ≠ rk 6 0x18 → t.reg k = s.reg k
  quire : ∃ e : ErrRec, e.report = r ∧ e.reports = 1 ∧ e.read = false
    ∧ t.quire q = { (s.quire q).filed e with live := (t.quire q).live, satPages := (t.quire q).satPages, qfSticky := (s.quire q).qfSticky ||| BitVec.ofNat 9 (2 ^ (r.checker - 0x10)) }
  counted : s.CountsOne q (rk 0x1C (0x200 + 4 * (r.checker - 0x10))) t
  logged : r.severity = .quire → s.log.entries.length < 8000 → s.frozen = false → ∃ l ∈ t.log.entries, l.code = 0x01 ∧ l.quire = BitVec.ofNat 4 q.val ∧ s.log.entries.length ≤ l.seq

/-- What a quiet step of a quire changes of the chip: the quire, the log, and the marks of full counters. -/
theorem State.onQuire_quietFrame (s : State) (q : QId) (f : Quire → W) (h : (f (s.quire q)).Quiet) : ∃ l m, s.onQuire q f = { s with
    quires := (s.onQuire q f).quires, log := l, collector := { s.collector with satPages := m } } := by
  obtain ⟨⟨-, hframe⟩, hrep, -⟩ := s.onQuire_logs q f h
  rw [hrep] at hframe
  exact ⟨_, _, hframe⟩

section
variable (s : State)

theorem State.countInjected_shape (r : Report) : ∃ g l m, s.countInjected r = { s with regs := g, log := l, collector := { s.collector with satPages := m } } := by
  unfold State.countInjected
  split
  · obtain ⟨l, m, h⟩ := s.bump_shape (rk 6 0x18) 1
    exact ⟨_, l, m, h⟩
  · exact ⟨s.regs, s.log, s.collector.satPages, rfl⟩

theorem State.countInjected_reg (r : Report) {k : Nat} (hk : k ≠ rk 6 0x18) : (s.countInjected r).reg k = s.reg k := by
  unfold State.countInjected
  split
  · exact s.bump_reg_other (rk 6 0x18) 1 hk
  · rfl

theorem State.countInjected_log (r : Report) : s.LogGrows (s.countInjected r) ∧ (s.countInjected r).log.entries.length ≤ s.log.entries.length + 5 := by
  unfold State.countInjected
  split
  · exact ⟨s.bump_logGrows _ _, s.bump_logLength _ _⟩
  · exact ⟨.refl s, Nat.le_add_right _ 5⟩

theorem W.countReport_spec (x : Quire) (c : Nat) : (x.w.countReport c).Quiet
    ∧ (x.w.countReport c).q = { x with live := (x.w.countReport c).q.live, satPages := (x.w.countReport c).q.satPages, qfSticky := x.qfSticky ||| BitVec.ofNat 9 (2 ^ (c - 0x10)) }
    ∧ Counted 1 (x.liveReg (rk 0x1C (0x200 + 4 * (c - 0x10)))) ((x.w.countReport c).q.liveReg (rk 0x1C (0x200 + 4 * (c - 0x10)))) :=
  ⟨(x.w_quiet.upd _).bump _ _, W.bump_counts (x.w.upd fun x => { x with qfSticky := x.qfSticky ||| BitVec.ofNat 9 (2 ^ (c - 0x10)) }) _ 1,
    W.bump_counted (x.w.upd fun x => { x with qfSticky := x.qfSticky ||| BitVec.ofNat 9 (2 ^ (c - 0x10)) }) _ 1⟩

theorem State.onQuire_bump_length (q : QId) (f : Quire → W) (h : (f (s.quire q)).fx.length ≤ 1) (hquiet : (f (s.quire q)).Quiet) :
    (s.onQuire q f).log.entries.length ≤ s.log.entries.length + 5 := by
  unfold State.onQuire
  dsimp only
  cases hfx : (f (s.quire q)).fx with
  | nil => exact Nat.le_add_right _ 5
  | cons x l =>
    rw [hfx, List.length_cons] at h
    have hl : l = [] := List.length_eq_zero_iff.mp (by omega)
    have hlogs := hquiet x (by rw [hfx]; exact List.mem_cons_self)
    rw [hl]
    cases x with
    | log => exact (offer_logGrows (s.setQuire q (f (s.quire q)).q) 4 _).2
    | saturated => exact (offer_logGrows (s.setQuire q (f (s.quire q)).q) 4 _).2
    | _ => exact absurd hlogs (by simp [Fx.logs])

/-- The chip once a report of a quire is counted. -/
def State.ownCounted (s : State) (q : QId) (r : Report) : State := (s.onQuire q fun x => x.w.countReport r.checker).countInjected r

theorem State.ownCounted_log (q : QId) (r : Report) : s.LogGrows (s.ownCounted q r) ∧ (s.ownCounted q r).log.entries.length ≤ s.log.entries.length + 10 := by
  have hlen := s.onQuire_bump_length q (fun x => x.w.countReport r.checker) (by
    obtain ⟨v, m, fx, h, -, -⟩ := W.bump_shape ((s.quire q).w.upd fun x => { x with qfSticky := x.qfSticky ||| BitVec.ofNat 9 (2 ^ (r.checker - 0x10)) }) (rk 0x1C (0x200 + 4 * (r.checker - 0x10))) 1
    unfold W.countReport W.bump
    dsimp only
    split
    · exact le_refl 1
    · exact Nat.zero_le 1) (W.countReport_spec (s.quire q) r.checker).1
  obtain ⟨hgrows, hlen'⟩ := State.countInjected_log (s.onQuire q fun x => x.w.countReport r.checker) r
  exact ⟨(s.onQuire_logGrows q _).trans hgrows, hlen'.trans (by omega)⟩

end

section
variable {s : State} {q : QId} {r : Report} (hq : r.quire = some q) (hc : 0x10 ≤ r.checker)
include hq hc

theorem State.noted_own : ∃ tr, s.noted r = (((s.ownCounted q r).logEvent (reportEvent r tr)).onQuire q fun x => x.w.fileQuire ((s.ownCounted q r).recordOf r tr)) := by
  have hquires : s.reportQuires r = [q] := by rw [State.reportQuires, hq]
  have hn : ¬r.checker < 0x10 := not_lt.mpr hc
  refine ⟨lastingChecker r.checker && r.severity ≠ .chip && !s.conditionLive r, ?_⟩
  rw [State.noted, hquires]
  simp only [if_neg hn]
  rfl

theorem State.notedOwn : s.NotedOwn (s.noted r) q r := by
  obtain ⟨tr, hnoted⟩ := State.noted_own (s := s) hq hc
  obtain ⟨hquiet, hcq, hcounted⟩ := W.countReport_spec (s.quire q) r.checker
  obtain ⟨⟨hother, -⟩, -, hcquire⟩ := s.onQuire_logs q (fun x => x.w.countReport r.checker) hquiet
  obtain ⟨l1, m1, hcframe⟩ := s.onQuire_quietFrame q (fun x => x.w.countReport r.checker) hquiet
  have hcregs : ∀ k, (s.onQuire q fun x => x.w.countReport r.checker).reg k = s.reg k := fun k => by rw [hcframe]; rfl
  obtain ⟨hgrows, hlen⟩ := s.ownCounted_log q r
  obtain ⟨g2, l2, m2, huframe⟩ := State.countInjected_shape (s.onQuire q fun x => x.w.countReport r.checker) r
  have huregs := fun k hk => State.countInjected_reg (s.onQuire q fun x => x.w.countReport r.checker) r (k := k) hk
  change s.ownCounted q r = _ at huframe
  change ∀ k, k ≠ rk 6 0x18 → (s.ownCounted q r).reg k = _ at huregs
  generalize (s.onQuire q fun x => x.w.countReport r.checker) = c at hcframe huframe hother hcquire hcregs huregs
  generalize s.ownCounted q r = u at hnoted hgrows hlen huframe huregs
  obtain ⟨l3, m3, hlframe⟩ := u.logEvent_shape (reportEvent r tr)
  have hlgrows : (u.logEvent (reportEvent r tr)).LogGrows (s.noted r) := by
    rw [hnoted]
    exact State.onQuire_logGrows _ q _
  have hlogged : r.severity = .quire → s.log.entries.length < 8000 → s.frozen = false → ∃ l ∈ (u.logEvent (reportEvent r tr)).log.entries, l.code = 0x01 ∧ l.quire = BitVec.ofNat 4 q.val ∧ s.log.entries.length ≤ l.seq := fun hsev hl hfr => by
    have hfrozen : u.frozen = false := by rw [huframe, hcframe]; exact hfr
    rw [State.logEvent_recorded (.inl (by rw [reportEvent, hsev]; rfl)) hfrozen (by omega)]
    refine ⟨u.entryOf (reportEvent r tr), List.mem_append_right _ List.mem_cons_self, ?_, ?_, hgrows.length_le⟩
    · rw [State.entryOf, reportEvent, hsev]
    · rw [State.entryOf, reportEvent, hq]
      rfl
  generalize he : u.recordOf r tr = e at hnoted
  generalize (u.logEvent (reportEvent r tr)) = l at hnoted hlframe hlgrows hlogged
  obtain ⟨hfquiet, m, hfq⟩ := W.fileQuire_shape (l.quire q) e
  obtain ⟨⟨hfother, -⟩, -, hfquire⟩ := l.onQuire_logs q (fun x => x.w.fileQuire e) hfquiet
  obtain ⟨l4, m4, hfframe⟩ := l.onQuire_quietFrame q (fun x => x.w.fileQuire e) hfquiet
  rw [← hnoted] at hfother hfquire hfframe
  have hlquire : ∀ g, l.quire g = c.quire g := fun g => State.quire_congr c l g (by rw [hlframe, huframe])
  have hlregs : ∀ k, k ≠ rk 6 0x18 → l.reg k = s.reg k := fun k hk => by
    have h : l.reg k = u.reg k := by rw [hlframe]; rfl
    rw [h, huregs k hk, hcregs]
  generalize s.noted r = t at *
  have htq : t.quire q = { (s.quire q).filed e with live := (c.quire q).live, satPages := m, qfSticky := (s.quire q).qfSticky ||| BitVec.ofNat 9 (2 ^ (r.checker - 0x10)) } := by
    rw [hfquire, hfq, hlquire, hcquire, hcq]
    rfl
  refine ⟨?_, fun g hg => ?_, fun k hk => ?_, ⟨e, by rw [← he]; rfl, by rw [← he]; rfl, by rw [← he]; rfl, ?_⟩, ?_, fun hsev hl hfr => ?_⟩
  · rw [hlframe, huframe, hcframe] at hfframe
    rw [hfframe]
  · rw [hfother g hg, hlquire, hother g hg]
  · have h : t.reg k = l.reg k := by rw [hfframe]; rfl
    rw [h, hlregs k hk]
  · rw [htq]
  · rw [State.CountsOne, htq]
    rw [← hcquire] at hcounted
    exact hcounted
  · obtain ⟨x, hx, h⟩ := hlogged hsev hl hfr
    exact ⟨x, hlgrows.subset hx, h⟩

end

/-! ### A report of a quire (R761, R767) -/

theorem nonMaskable_own {c : Nat} (hc : 0x10 ≤ c) : nonMaskable c = false := by
  simp only [nonMaskable, Bool.or_eq_false_iff, decide_eq_false_iff_not]
  omega

/-- The chip with the pulse that a report gives. -/
def State.pulsed (t : State) (r : Report) : State := { t with collector := { t.collector with pulse := t.collector.pulse || t.pulses r } }

theorem State.pulsed_eq (t : State) (r : Report) : (if t.pulses r then { t with collector := { t.collector with pulse := true } } else t) = t.pulsed r := by
  unfold State.pulsed
  cases t.pulses r with
  | true => rw [Bool.or_true]; rfl
  | false => rw [Bool.or_false]; rfl

theorem getLsbD_mark (v : BitVec 9) {c : Nat} (hc : c < 9) : (v ||| BitVec.ofNat 9 (2 ^ c)).getLsbD c = true := by
  rw [BitVec.getLsbD_or, BitVec.getLsbD_ofNat, Nat.testBit_two_pow_self]
  simp [hc]

/-- The chip as the collector takes the reports of a window. -/
def State.emptied (s : State) : State := { s with collector := { s.collector with reports := [] } }

theorem collectOne (s : State) (r : Report) (h : s.collector.reports = [r]) : exec .faultCollectWindow s = .next (s.emptied.takeReport r) := by
  show Host.Outcome.next (s.emptied.each (sortBy reportBefore s.collector.reports) State.takeReport) = _
  rw [h]
  rfl

theorem State.takeReport_fault (s : State) {q : QId} {r : Report} (hq : r.quire = some q) (hsev : r.severity = .quire) : s.takeReport r = ((s.noted r).faultQuire q r.cause).pulsed r := by
  have hquires : s.reportQuires r = [q] := by rw [State.reportQuires, hq]
  rw [State.takeReport_eq, hquires, hsev]
  exact State.pulsed_eq _ r

theorem State.takeReport_alert (s : State) {r : Report} (hsev : r.severity = .alert) : s.takeReport r = (s.noted r).pulsed r := by
  rw [State.takeReport_eq, hsev]
  exact State.pulsed_eq _ r

/-! ### A chip fault (R754, R764) -/

/-- The records of the quires of a list take the record `e`. -/
theorem State.each_fileQuire (e : ErrRec) (l : List QId) (hl : l.Nodup) (s : State) :
    let t := s.each l fun s q => s.onQuire q fun x => x.w.fileQuire e
    (∃ g m, t = { s with quires := t.quires, log := g, collector := { s.collector with satPages := m } })
      ∧ ∀ q, (q ∈ l → ∃ m, t.quire q = { (s.quire q).filed e with satPages := m }) ∧ (q ∉ l → t.quire q = s.quire q) := by
  induction l generalizing s with
  | nil => exact ⟨⟨_, _, rfl⟩, fun q => ⟨fun h => absurd h List.not_mem_nil, fun _ => rfl⟩⟩
  | cons g l ih =>
    obtain ⟨hg, hl⟩ := List.nodup_cons.mp hl
    obtain ⟨hquiet, m, hfiled⟩ := W.fileQuire_shape (s.quire g) e
    obtain ⟨⟨hother, -⟩, -, hquire⟩ := s.onQuire_logs g (fun x => x.w.fileQuire e) hquiet
    obtain ⟨l1, m1, hframe⟩ := s.onQuire_quietFrame g (fun x => x.w.fileQuire e) hquiet
    obtain ⟨⟨l2, m2, hrest⟩, hin⟩ := ih hl (s.onQuire g fun x => x.w.fileQuire e)
    have hstep : (s.each (g :: l) fun s q => s.onQuire q fun x => x.w.fileQuire e) = (s.onQuire g fun x => x.w.fileQuire e).each l fun s q => s.onQuire q fun x => x.w.fileQuire e := rfl
    rw [hstep]
    generalize (s.onQuire g fun x => x.w.fileQuire e) = u at *
    refine ⟨⟨l2, m2, hrest.trans (by rw [hframe])⟩, fun q => ?_⟩
    obtain ⟨hmem, hnot⟩ := hin q
    rcases eq_or_ne q g with rfl | hq
    · exact ⟨fun _ => ⟨m, (hnot hg).trans (hquire.trans hfiled)⟩, fun h => absurd List.mem_cons_self h⟩
    · rw [hother q hq] at hmem hnot
      exact ⟨fun h => hmem ((List.mem_cons.mp h).resolve_left hq), fun h => hnot fun hin => h (List.mem_cons_of_mem _ hin)⟩

/-- A report of a chip fault is noted. -/
structure State.NotedChip (s t : State) (r : Report) : Prop where
  frame : t = { s with quires := t.quires, regs := t.regs, log := t.log, collector := { s.collector with sticky := t.collector.sticky, firstError := t.collector.firstError, secondError := t.collector.secondError, satPages := t.collector.satPages } }
  sticky : t.collector.sticky = s.collector.sticky ||| BitVec.ofNat 9 (2 ^ r.checker)
  filed : ∃ e : ErrRec, e.report = r ∧ e.reports = 1 ∧ e.read = false ∧ t.collector.firstError = (fileRecord s.collector.firstError s.collector.secondError e).1.1
    ∧ ∀ g, ((s.quire g).state = .off → t.quire g = s.quire g) ∧ ((s.quire g).state ≠ .off → ∃ m, t.quire g = { (s.quire g).filed e with satPages := m })

theorem State.notedChip (s : State) {r : Report} (hq : r.quire = none) (hc : r.checker < 9) (hsev : r.severity = .chip) : s.NotedChip (s.noted r) r := by
  have hquires : s.reportQuires r = (List.finRange 8).filter fun q => (s.quire q).state ≠ .off := by rw [State.reportQuires, hq, hsev]; rfl
  have hmem : ∀ g : QId, g ∈ ((List.finRange 8).filter fun q => decide ((s.quire q).state ≠ .off)) ↔ (s.quire g).state ≠ .off := fun g => by simp
  have hnodup : ((List.finRange 8).filter fun q => decide ((s.quire q).state ≠ .off)).Nodup := (List.nodup_finRange 8).filter _
  have hlow : r.checker < 0x10 := by omega
  rw [State.noted, hquires]
  generalize ((List.finRange 8).filter fun q => decide ((s.quire q).state ≠ .off)) = qs at hmem hnodup
  simp only [if_pos hlow]
  generalize (lastingChecker r.checker && decide (r.severity ≠ .chip) && !s.conditionLive r) = tr
  obtain ⟨l1, m1, hbump⟩ := State.bump_shape { s with collector := { s.collector with sticky := s.collector.sticky ||| BitVec.ofNat 9 (2 ^ r.checker) } } (rk 6 (0x200 + 4 * r.checker)) 1
  generalize ({ s with collector := { s.collector with sticky := s.collector.sticky ||| BitVec.ofNat 9 (2 ^ r.checker) } } : State).bump (rk 6 (0x200 + 4 * r.checker)) 1 = u at hbump ⊢
  obtain ⟨g2, l2, m2, hinj⟩ := u.countInjected_shape r
  generalize u.countInjected r = v at hinj ⊢
  obtain ⟨l3, m3, hlog⟩ := v.logEvent_shape (reportEvent r tr)
  generalize v.logEvent (reportEvent r tr) = w at hlog ⊢
  generalize he : v.recordOf r tr = e
  obtain ⟨l4, m4, hfile⟩ := w.fileChip_shape e
  generalize w.fileChip e = y at hfile ⊢
  obtain ⟨⟨l5, m5, hframe⟩, hfiled⟩ := State.each_fileQuire e qs hnodup y
  generalize (y.each qs fun s q => s.onQuire q fun x => x.w.fileQuire e) = t at hframe hfiled
  have hyq : ∀ g, y.quire g = s.quire g := fun g => State.quire_congr s y g (by rw [hfile, hlog, hinj, hbump])
  rw [hfile, hlog, hinj, hbump] at hframe
  refine ⟨by rw [hframe], by rw [hframe], e, by rw [← he]; rfl, by rw [← he]; rfl, by rw [← he]; rfl, by rw [hframe], fun g => ⟨fun h => ?_, fun h => ?_⟩⟩
  · rw [(hfiled g).2 fun hin => (hmem g).mp hin h, hyq]
  · obtain ⟨m, hm⟩ := (hfiled g).1 ((hmem g).mpr h)
    rw [hyq] at hm
    exact ⟨m, hm⟩

/-- The chip fault stands, with the cause of the first one. -/
def State.chipFaulted (s : State) (cause : Byte) : State :=
  if s.collector.faulted then s else { s with collector := { s.collector with faulted := true, faultCause := cause } }

theorem State.chipFaulted_shape (s : State) (cause : Byte) : ∃ c, s.chipFaulted cause = { s with collector := { s.collector with faulted := true, faultCause := c } }
    ∧ (s.collector.faulted = false → c = cause) := by
  unfold State.chipFaulted
  cases h : s.collector.faulted with
  | true =>
    refine ⟨s.collector.faultCause, (if_pos rfl).trans ?_, fun h => by cases h⟩
    rw [← h]
  | false => exact ⟨cause, if_neg Bool.false_ne_true, fun _ => rfl⟩

theorem State.takeReport_chip (s : State) {r : Report} (hsev : r.severity = .chip) : s.takeReport r =
    (((s.noted r).chipFaulted r.cause).each (List.finRange 8) fun s q => s.faultQuire q 0x09).pulsed r := by
  rw [State.takeReport_eq, hsev]
  exact State.pulsed_eq _ r

/-- The quires of the chip with a chip fault. -/
structure State.FaultsAll (s t : State) : Prop where
  answered : s.Answered t
  gov : t.gov = s.gov
  off : ∀ g, (s.quire g).state = .off → (s.quire g).LetGo (t.quire g)
  faults : ∀ g, (s.quire g).state ≠ .off → (s.quire g).state ≠ .faulted → (t.quire g).FaultedBy 0x09 ∧ (t.quire g).firstError = (s.quire g).firstError

theorem State.faultList (l : List QId) (s : State) (hw : s.gov.waiting = []) :
    s.Answered (s.each l fun s q => s.faultQuire q 0x09) ∧ (s.each l fun s q => s.faultQuire q 0x09).gov = s.gov
      ∧ ∀ g, g ∉ l → (s.quire g).LetGo ((s.each l fun s q => s.faultQuire q 0x09).quire g) := by
  induction l generalizing s with
  | nil => exact ⟨.refl s, rfl, fun g _ => .refl _⟩
  | cons q l ih =>
    have h := s.faultQuire_faults q 0x09 hw
    obtain ⟨hans, hgov, hgo⟩ := ih (s.faultQuire q 0x09) (by rw [h.gov]; exact hw)
    refine ⟨h.answered.trans hans, hgov.trans h.gov, fun g hg => ?_⟩
    obtain ⟨hne, hnot⟩ := List.ne_and_not_mem_of_not_mem_cons hg
    exact (h.apart g hne).trans (hgo g hnot)

theorem State.faultAll (s : State) (hw : s.gov.waiting = []) : s.FaultsAll (s.each (List.finRange 8) fun s q => s.faultQuire q 0x09) := by
  obtain ⟨hans, hgov, -⟩ := State.faultList (List.finRange 8) s hw
  have hsplit : ∀ g : QId, ∃ a b, (s.each (List.finRange 8) fun s q => s.faultQuire q 0x09) = ((s.each a fun s q => s.faultQuire q 0x09).faultQuire g 0x09).each b (fun s q => s.faultQuire q 0x09) ∧ g ∉ a ∧ g ∉ b := fun g => by
    obtain ⟨a, b, hab⟩ := List.append_of_mem (List.mem_finRange g)
    have hnodup := List.nodup_finRange 8
    rw [hab] at hnodup ⊢
    rw [List.nodup_append, List.nodup_cons] at hnodup
    obtain ⟨-, ⟨hb, -⟩, hdisj⟩ := hnodup
    exact ⟨a, b, State.each_middle a g b s _, fun h => hdisj g h g List.mem_cons_self rfl, hb⟩
  generalize (s.each (List.finRange 8) fun s q => s.faultQuire q 0x09) = t at *
  refine ⟨hans, hgov, fun g hoff => ?_, fun g hoff hfault => ?_⟩
  · obtain ⟨a, b, ht, ha, hb⟩ := hsplit g
    obtain ⟨-, hgov1, hgo1⟩ := State.faultList a s hw
    have hfa := (s.each a fun s q => s.faultQuire q 0x09).faultQuire_faults g 0x09 (by rw [hgov1]; exact hw)
    obtain ⟨-, -, hgo2⟩ := State.faultList b ((s.each a fun s q => s.faultQuire q 0x09).faultQuire g 0x09) (by rw [hfa.gov, hgov1]; exact hw)
    rw [ht]
    refine (hgo1 g ha).trans ?_
    have hgo2 := hgo2 g hb
    rw [hfa.idle ((hgo1 g ha).sameRun.state.trans hoff)] at hgo2 ⊢
    exact hgo2
  · obtain ⟨a, b, ht, ha, hb⟩ := hsplit g
    obtain ⟨-, hgov1, hgo1⟩ := State.faultList a s hw
    have hstate := (hgo1 g ha).sameRun.state
    have hkeep := (hgo1 g ha).keepsErrors
    have hfa := (s.each a fun s q => s.faultQuire q 0x09).faultQuire_faults g 0x09 (by rw [hgov1]; exact hw)
    obtain ⟨-, -, hgo2⟩ := State.faultList b ((s.each a fun s q => s.faultQuire q 0x09).faultQuire g 0x09) (by rw [hfa.gov, hgov1]; exact hw)
    obtain ⟨hby, -, hfirst, -⟩ := hfa.faults (by rw [hstate]; exact hoff) (by rw [hstate]; exact hfault)
    rw [ht, (hgo2 g hb).faultedBy hby]
    exact ⟨hby, hfirst.trans hkeep.first⟩

end Sys2Proof.Machine

namespace Sys2Proof.Proofs
open Sys2Proof.Machine

/-- Settles O43: a report is noted in the records of its scope, and a fault then parks its quires. -/
theorem faultCollection : Obligations.FaultCollection := by
  intro s r q x same freed faulted filed counter hw
  have hfiled : ∀ {f : Option ErrRec} {e : ErrRec}, f = some e → e.report = r → e.reports = 1 → e.read = false → filed f := fun hf hr h1 hread => ⟨_, hf, hr, h1, hread⟩
  refine ⟨fun hnone => ?_, fun hone hq hc hc' => ⟨fun hsev hoff hfault => ?_, fun hsev => ?_⟩, fun hone hq hc hsev => ?_, rfl⟩
  · have hempty : s.emptied = s := by rw [State.emptied, ← hnone]
    show Host.Outcome.next (s.emptied.each (sortBy reportBefore s.collector.reports) State.takeReport) = _
    rw [hempty, hnone]
    rfl
  · have hex := collectOne s r hone
    rw [State.takeReport_fault _ hq hsev] at hex
    obtain ⟨hframe, hothers, hregs, ⟨e, her, he1, heread, hquire⟩, hcounted, hlogged⟩ := State.notedOwn (s := s.emptied) hq hc
    generalize s.emptied.noted r = n at hex hframe hothers hregs hquire hcounted hlogged
    have hnw : n.gov.waiting = [] := by rw [hframe]; exact hw
    have hnoff : (n.quire q).state ≠ .off := by rw [hquire]; exact hoff
    have hnfault : (n.quire q).state ≠ .faulted := by rw [hquire]; exact hfault
    obtain ⟨hans, -, hlog, hapart, -, hfaults⟩ := n.faultQuire_faults q r.cause hnw
    obtain ⟨hby, hsticky, hfirst, hsecond, hcounters⟩ := hfaults hnoff hnfault
    generalize n.faultQuire q r.cause = t at hex hans hlog hapart hby hsticky hfirst hsecond hcounters
    rw [hquire] at hsticky hfirst hsecond
    refine ⟨_, hex, ?_, ⟨hby.state, hby.faultCause, hby.pins, hby.fifo, hby.free, hby.causes⟩, fun g hg => ?_, ?_, ?_, fun h => ?_, fun h h2 => ?_, fun e' h h2 => ?_, fun hl hfr => ?_, fun hbit => ?_⟩
    · show t.collector.reports = []
      rw [hans.frame, hframe]
      rfl
    · have hgo := hapart g hg
      rw [hothers g hg] at hgo
      exact hgo
    · show (t.quire q).qfSticky.getLsbD _ = true
      rw [hsticky]
      exact getLsbD_mark _ (by omega)
    · show Counted 1 (x.liveReg counter) ((t.quire q).liveReg counter)
      rw [hcounters counter (show rk 0x1C 0 ≤ rk 0x1C (0x200 + 4 * (r.checker - 0x10)) by simp only [rk]; omega)]
      exact hcounted
    · refine hfiled (hfirst.trans ?_) her he1 heread
      show (fileRecord x.firstError x.secondError e).1.1 = _
      rw [h]
      rfl
    · have hrec := fileRecord_second h e
      rw [← h2] at hrec
      exact ⟨hfirst.trans (congrArg Prod.fst hrec), hfiled (hsecond.trans (congrArg Prod.snd hrec)) her he1 heread⟩
    · obtain ⟨m, hm, hrec⟩ := fileRecord_full h e' e
      rw [← h2] at hrec
      exact ⟨hfirst.trans (congrArg Prod.fst hrec), _, hsecond.trans (congrArg Prod.snd hrec), rfl, hm⟩
    · obtain ⟨l, hmem, hl'⟩ := hlogged hsev hl hfr
      exact ⟨l, hlog.subset hmem, hl'⟩
    · have hreg : t.reg (rk 6 0) = s.reg (rk 6 0) := (hans.regs _ (.inl (by decide))).trans (hregs _ (by decide))
      show (t.collector.pulse || t.pulses r) = true
      rw [State.pulses, hsev, hreg, hbit]
      exact Bool.or_true _
  · have hex := collectOne s r hone
    rw [State.takeReport_alert _ hsev] at hex
    obtain ⟨hframe, hothers, hregs, ⟨e, her, he1, heread, hquire⟩, hcounted, -⟩ := State.notedOwn (s := s.emptied) hq hc
    generalize s.emptied.noted r = n at hex hframe hothers hregs hquire hcounted
    refine ⟨_, hex, ?_, hothers, ?_, hcounted, ?_, fun h => ?_, ?_⟩
    · show n.collector.reports = []
      rw [hframe]
      rfl
    · show (n.quire q).qfSticky.getLsbD _ = true
      rw [hquire]
      exact getLsbD_mark _ (by omega)
    · exact Quire.notedOnly hquire
    · refine hfiled ?_ her he1 heread
      show (n.quire q).firstError = _
      rw [hquire]
      show (fileRecord x.firstError x.secondError e).1.1 = _
      rw [h]
      rfl
    · show (n.collector.pulse || n.pulses r) = _
      have hpulse : n.collector.pulse = s.collector.pulse := by rw [hframe]; rfl
      rw [State.pulses, hsev, hregs _ (by decide), nonMaskable_own hc, hpulse]
      rfl
  · have hex := collectOne s r hone
    rw [State.takeReport_chip _ hsev] at hex
    obtain ⟨hframe, hsticky, e, her, he1, heread, hfirst, hquires⟩ := s.emptied.notedChip hq hc hsev
    generalize s.emptied.noted r = n at hex hframe hsticky hfirst hquires
    obtain ⟨c, hset, hcause⟩ := n.chipFaulted_shape r.cause
    generalize n.chipFaulted r.cause = u at hex hset
    have huq : ∀ g, u.quire g = n.quire g := fun g => State.quire_congr n u g (by rw [hset])
    obtain ⟨hans, -, hoffs, hfaults⟩ := u.faultAll (by rw [hset, hframe]; exact hw)
    generalize (u.each (List.finRange 8) fun s q => s.faultQuire q 0x09) = t at hex hans hoffs hfaults
    have hcol : t.collector = { u.collector with satPages := t.collector.satPages } := congrArg State.collector hans.frame
    rw [hset] at hcol
    refine ⟨_, hex, ?_, ?_, fun hnf => ?_, ?_, fun h => ?_, fun g => ⟨fun hoff => ?_, fun hoff hfault => ⟨?_, fun h => ?_⟩⟩⟩
    · show t.collector.reports = []
      rw [hcol, hframe]
      rfl
    · show t.collector.faulted = true
      rw [hcol]
    · show t.collector.faultCause = r.cause
      rw [hcol]
      exact hcause (by rw [hframe]; exact hnf)
    · show t.collector.sticky.getLsbD r.checker = true
      rw [hcol]
      show n.collector.sticky.getLsbD r.checker = true
      rw [hsticky]
      exact getLsbD_mark _ hc
    · refine hfiled ?_ her he1 heread
      show t.collector.firstError = _
      rw [hcol]
      refine hfirst.trans ?_
      show (fileRecord s.collector.firstError s.collector.secondError e).1.1 = _
      rw [h]
      rfl
    · have hgo := hoffs g
      rw [huq, (hquires g).1 hoff] at hgo
      exact hgo hoff
    · obtain ⟨m, hm⟩ := (hquires g).2 hoff
      obtain ⟨hby, -⟩ := hfaults g (by rw [huq, hm]; exact hoff) (by rw [huq, hm]; exact hfault)
      exact ⟨hby.state, hby.faultCause, hby.pins, hby.fifo, hby.free, hby.causes⟩
    · obtain ⟨m, hm⟩ := (hquires g).2 hoff
      obtain ⟨-, hfirst⟩ := hfaults g (by rw [huq, hm]; exact hoff) (by rw [huq, hm]; exact hfault)
      refine hfiled (hfirst.trans ?_) her he1 heread
      rw [huq, hm]
      show (fileRecord (s.quire g).firstError (s.quire g).secondError e).1.1 = _
      rw [h]
      rfl

end Sys2Proof.Proofs
end

section
/-! The end of sessions: the quires they release, and the replies that are forgotten (R600 to R602, R784). -/

namespace Sys2Proof.Machine

/-! ### Replies that are forgotten (R601) -/

theorem ReplyTo.forget_forget (g g' : ReplyTo → Bool) (d : ReplyTo) : (d.forget g).forget g' = d.forget fun d => g d || g' d := by
  have hrhs : (d.forget fun d => g d || g' d) = if (g d || g' d) = true then { d with opcode := 0 } else d := rfl
  rw [hrhs, ReplyTo.forget, ReplyTo.forget]
  cases hg : g d with
  | true =>
    rw [if_pos rfl, Bool.true_or, if_pos rfl]
    split
    · rfl
    · rfl
  | false => rw [if_neg Bool.false_ne_true, Bool.false_or]

theorem ReplyTo.forget_none (d : ReplyTo) : d.forget (fun _ => false) = d := rfl

/-- A command on quires that is forgotten has no opcode any more. -/
theorem ReplyTo.forget_opcode (g : ReplyTo → Bool) (d : ReplyTo) (h : d.opcode = 0 ∨ g d = true) : (d.forget g).opcode = 0 := by
  unfold ReplyTo.forget
  split
  · rfl
  next hg => exact h.resolve_right hg

theorem Occupier.forget_forget (g g' : ReplyTo → Bool) (o : Occupier) : (o.forget g).forget g' = o.forget fun d => g d || g' d := by
  cases o <;> simp only [Occupier.forget, ReplyTo.forget_forget]

theorem Occupier.forget_none (o : Occupier) : o.forget (fun _ => false) = o := by
  cases o <;> rfl

theorem Quire.forget_forget (g g' : ReplyTo → Bool) (x : Quire) : (x.forget g).forget g' = x.forget fun d => g d || g' d := by
  simp only [Quire.forget, Option.map_map, List.map_map, Vector.map_map, Function.comp_def, Occupier.forget_forget, ReplyTo.forget_forget]

theorem Quire.forget_none (x : Quire) : x.forget (fun _ => false) = x := by
  have hopt : ∀ {α : Type} (o : Option α) (f : α → α), (∀ a, f a = a) → o.map f = o := fun o f hf => by
    cases o with
    | none => rfl
    | some a => exact congrArg some (hf a)
  have hlist : ∀ {α : Type} (l : List α) (f : α → α), (∀ a, f a = a) → l.map f = l := fun l f hf => (List.map_congr_left fun a _ => hf a).trans l.map_id
  have hvec : ∀ {α : Type} {n : Nat} (v : Vector α n) (f : α → α), (∀ a, f a = a) → v.map f = v := fun v f hf => by
    ext i hi
    rw [Vector.getElem_map, hf]
  have hwaiter : ∀ d : Option ReplyTo, d.map (ReplyTo.forget fun _ => false) = d := fun d => hopt d _ ReplyTo.forget_none
  unfold Quire.forget
  rw [hopt x.occupied _ Occupier.forget_none, hopt x.stopReq _ fun r => by rw [hwaiter], hlist x.stopWaiters _ ReplyTo.forget_none, hlist x.sigs _ fun e => by rw [hopt _ _ ReplyTo.forget_none],
    hlist x.rawReads _ fun r => by rw [ReplyTo.forget_none], hvec x.tmus _ fun t => hopt t _ fun j => by rw [hwaiter], hopt x.pmu _ fun j => by rw [hwaiter]]

theorem State.forget_quire (s : State) (g : ReplyTo → Bool) (q : QId) : (s.forget g).quire q = (s.quire q).forget g := by
  rw [State.quire, State.forget]
  exact Vector.getElem_map (Quire.forget g) q.isLt

theorem Quire.dests_forget (g : ReplyTo → Bool) (x : Quire) : (x.forget g).dests = x.dests.map (ReplyTo.forget g) := by
  have hbind : ∀ {α : Type} (o : Option α) (f : α → α) (w : α → Option ReplyTo), (∀ a, w (f a) = (w a).map (ReplyTo.forget g)) →
      ((o.map f).bind w).toList = (o.bind w).toList.map (ReplyTo.forget g) := fun o f w hf => by
    cases o with
    | none => rfl
    | some a =>
      show (w (f a)).toList = _
      rw [hf]
      show _ = (w a).toList.map _
      cases w a <;> rfl
  have htmus : (x.forget g).tmus.toList.flatMap (fun t => (t.bind (·.waiter)).toList) = (x.tmus.toList.flatMap fun t => (t.bind (·.waiter)).toList).map (ReplyTo.forget g) := by
    rw [Quire.forget, Vector.toList_map, List.flatMap_map, List.map_flatMap]
    exact List.flatMap_congr fun t _ => hbind t _ _ fun _ => rfl
  unfold Quire.dests
  rw [List.map_append, List.map_append, List.map_append, List.map_append, htmus]
  refine congrArg (· ++ _) (congr (congrArg _ (congr (congrArg _ (congr (congrArg _ ?_) rfl)) (hbind x.stopReq _ _ fun _ => rfl))) (hbind x.pmu _ _ fun _ => rfl))
  dsimp only [Quire.forget]
  cases x.occupied with
  | none => rfl
  | some o => cases o <;> rfl

theorem Quire.mem_dests_of_waiter {x : Quire} {d : ReplyTo} (h : d ∈ x.stopWaiters ∨ ∃ r, x.stopReq = some r ∧ r.waiter = some d) : d ∈ x.dests := by
  unfold Quire.dests
  rcases h with h | ⟨r, hr, hw⟩
  · simp [h]
  · simp [hr, hw]

/-- A quire whose replies are all forgotten waits for none with an opcode. -/
theorem Quire.forget_dests (g : ReplyTo → Bool) (x : Quire) (h : ∀ d ∈ x.dests, d.opcode = 0 ∨ g d = true) : ∀ d ∈ (x.forget g).dests, d.opcode = 0 := by
  intro d hd
  rw [Quire.dests_forget] at hd
  obtain ⟨e, he, rfl⟩ := List.mem_map.mp hd
  exact e.forget_opcode g (h e he)

/-! ### Steps that ask for little -/

/-- Every request of the step satisfies `P`. -/
def W.Asks (w : W) (P : Fx → Prop) : Prop := ∀ x ∈ w.fx, P x

namespace W.Asks
variable {w : W} {P : Fx → Prop}

theorem ask (h : w.Asks P) {x : Fx} (hx : P x) : (w.ask x).Asks P := fun y hy => (List.mem_append.mp hy).elim (h y) fun hy => by rw [List.mem_singleton.mp hy]; exact hx

theorem ite {c : Prop} [Decidable c] {v w : W} (hv : v.Asks P) (hw : w.Asks P) : (if c then v else w).Asks P := by
  split
  · exact hv
  · exact hw

theorem each {α : Type} (l : List α) (f : W → α → W) (hf : ∀ v, ∀ a ∈ l, W.Asks v P → (f v a).Asks P) (h : w.Asks P) : (w.each l f).Asks P :=
  List.foldlRecOn (motive := fun v : W => v.Asks P) l f h fun v hv a ha => hf v a ha hv

section
variable (hlogs : ∀ x : Fx, x.logs = true → P x)
include hlogs

theorem bump (h : w.Asks P) (k n : Nat) : (w.bump k n).Asks P := by
  obtain ⟨v, m, fx, hw, hfx, -⟩ := w.bump_shape k n
  rw [hw]
  exact fun x hx => (List.mem_append.mp hx).elim (h x) fun hx => hlogs x (hfx x hx)

theorem endInst (h : w.Asks P) (c : Ctx) (id : Nat) : (w.endInst c id).Asks P := by
  unfold W.endInst
  split
  · exact h
  · extract_lets full i' v
    have hv : v.Asks P := h
    exact .ite (hv.bump hlogs _ _) hv

theorem cutInsts (h : w.Asks P) (c : Ctx) (b : Nat) : (w.cutInsts c b).Asks P := W.Asks.each (w := w.causePlaying b) _ _ (fun _ _ _ hv => hv.endInst hlogs c _) h

theorem leaveRun (h : w.Asks P) : w.leaveRun.Asks P := by
  have hcancel : w.cancelPattern.Asks P := W.Asks.bump (w := w.upd Quire.patternGone) hlogs h _ _
  have hclose : (w.cancelPattern.upd Quire.closeSweep).Asks P := hcancel
  have hsweep : w.cancelPattern.abortSweep.Asks P := by
    unfold W.abortSweep
    dsimp only
    split
    · exact .ite hclose (hclose.bump hlogs _ _)
    · exact hclose
  exact hsweep

theorem endDerived (h : w.Asks P) : w.endDerived.Asks P := by
  unfold W.endDerived
  split
  · exact h
  next d _ =>
    extract_lets v n keep u
    have hu : u.Asks P := .ite h h
    exact .ite hu (hu.bump hlogs _ _)

end

theorem endWaiters (h : w.Asks P) (st : Byte) (dt : BitVec 16) (hd : ∀ d, d ∈ w.q.stopWaiters ∨ (∃ r, w.q.stopReq = some r ∧ r.waiter = some d) → P (.done d st dt)) : (w.endWaiters st dt).Asks P := by
  unfold W.endWaiters
  refine W.Asks.each (w := w.upd fun q => { q with stopWaiters := [], stopReq := none }) _ _ (fun v d hmem hv => hv.ask (hd d ?_)) h
  rcases List.mem_append.mp hmem with hmem | hmem
  · exact .inl hmem
  · cases hr : w.q.stopReq with
    | none =>
      rw [hr] at hmem
      cases hmem
    | some r =>
      rw [hr] at hmem
      exact .inr ⟨r, rfl, Option.mem_toList.mp hmem⟩

end W.Asks

/-! ### A step that asks for nothing but entries of the log and replies that are forgotten -/

/-- The request is an entry of the log, or the end of a part of a command that is forgotten. -/
def Fx.mute (x : Fx) : Prop := x.logs = true ∨ ∃ d st dt, x = .done d st dt ∧ d.opcode = 0

theorem State.quireDone_forgotten (s : State) {d : ReplyTo} (hd : d.opcode = 0) (hm : ∀ w ∈ s.maskWaits, w.dest.opcode ≠ 0) (q : QId) (st : Byte) (dt : BitVec 16) (rc : List Byte) :
    s.quireDone d q st dt rc = s := by
  have hnone : (s.maskWaits.find? fun w => w.dest = d) = none :=
    List.find?_eq_none.mpr fun w hw => by
      rw [decide_eq_true_eq]
      exact fun h => hm w hw (h ▸ hd)
  rw [State.quireDone, hnone]

theorem State.onQuire_mute (s : State) (q : QId) (f : Quire → W) (hm : ∀ w ∈ s.maskWaits, w.dest.opcode ≠ 0) (h : (f (s.quire q)).Asks Fx.mute) :
    ∃ l c, s.onQuire q f = { s.setQuire q (f (s.quire q)).q with log := l, collector := { s.collector with satPages := c } } := by
  refine List.foldlRecOn (motive := fun t : State => ∃ l c, t = { s.setQuire q (f (s.quire q)).q with log := l, collector := { s.collector with satPages := c } }) _ _
    ⟨s.log, s.collector.satPages, rfl⟩ fun t ⟨l, c, ht⟩ x hx => ?_
  rcases h x hx with hlogs | ⟨d, st, dt, rfl, hd⟩
  · obtain ⟨l', c', hx'⟩ := State.runFx_logs t q x hlogs
    exact ⟨l', c', by rw [hx', ht]⟩
  · refine ⟨l, c, ?_⟩
    rw [State.runFx, State.quireDone_forgotten t hd (by rw [ht]; exact hm), ht]

/-! ### An ARMED quire that is stopped (R49, R600) -/

/-- What a stop from ARMED leaves of a quire. -/
structure Quire.Disarmed (x y : Quire) (cause : StopCause) : Prop where
  state : y.state = .stopped
  stopCause : y.stopCause = cause
  committed : y.committed = x.committed
  staging : y.staging = x.staging
  mem : y.dram.mem = x.dram.mem
  sram : y.sram = x.sram

theorem W.endDerived_mem (w : W) : w.endDerived.q.dram.mem = w.q.dram.mem := by
  unfold W.endDerived
  split
  · rfl
  next d _ =>
    extract_lets v n keep u
    have hv : v.q.dram = w.q.dram := by
      unfold v
      split
      · rfl
      · rfl
    have hu : u.q.dram.mem = w.q.dram.mem := by
      show v.q.dram.mem = _
      rw [hv]
    have hbump := u.bump_counts (rk 0x10 0x108) n
    split
    · exact hu
    · rw [hbump]
      exact hu

theorem W.endArm_keeps (x : Quire) (hd : ∀ d ∈ x.dests, d.opcode = 0) : x.w.endArm.Asks Fx.mute ∧ x.w.endArm.q.state = x.state ∧ x.w.endArm.q.committed = x.committed ∧ x.w.endArm.q.staging = x.staging
    ∧ x.w.endArm.q.dram.mem = x.dram.mem ∧ x.w.endArm.q.sram = x.sram ∧ x.w.endArm.q.stopWaiters = x.stopWaiters ∧ x.w.endArm.q.stopReq = x.stopReq := by
  have hlogs : ∀ x : Fx, x.logs = true → x.mute := fun _ => .inl
  unfold W.endArm
  split
  next d hocc =>
    have hop : d.opcode = 0 := hd d (by rw [Quire.dests, show x.occupied = some (.arm d) from hocc]; simp)
    have heq : x.w.endOccupier stState (detState reasonAborted x.w.q.state) =
        (((x.w.upd fun q => { q with selftest := none }).upd fun q => { q with occupied := none }).endDerived).done d stState (detState reasonAborted x.w.q.state) := by
      rw [W.endOccupier]
      dsimp only
      rw [show (x.w.upd fun q => { q with selftest := none }).q.occupied = some (.arm d) from hocc]
    rw [heq]
    obtain ⟨dv, st, rd, en, dr, l, m, hshape⟩ := W.endDerived_shape ((x.w.upd fun q => { q with selftest := none }).upd fun q => { q with occupied := none })
    have hmem := W.endDerived_mem ((x.w.upd fun q => { q with selftest := none }).upd fun q => { q with occupied := none })
    have hasks : (((x.w.upd fun q => { q with selftest := none }).upd fun q => { q with occupied := none }).endDerived).Asks Fx.mute :=
      W.Asks.endDerived hlogs fun x hx => absurd hx List.not_mem_nil
    generalize ((x.w.upd fun q => { q with selftest := none }).upd fun q => { q with occupied := none }).endDerived = u at hshape hmem hasks ⊢
    refine ⟨hasks.ask (.inr ⟨_, _, _, rfl, hop⟩), ?_⟩
    show u.q.state = _ ∧ u.q.committed = _ ∧ u.q.staging = _ ∧ u.q.dram.mem = _ ∧ u.q.sram = _ ∧ u.q.stopWaiters = _ ∧ u.q.stopReq = _
    rw [hmem, hshape]
    exact ⟨rfl, rfl, rfl, rfl, rfl, rfl, rfl⟩
  next => exact ⟨fun x hx => absurd hx List.not_mem_nil, rfl, rfl, rfl, rfl, rfl, rfl, rfl⟩

/-- A stop of a quire that is not in play: its instances are cut, and the run is left. -/
theorem W.enterStopped_idle (w : W) (c : Ctx) {cause : StopCause} (hcause : cause = .host ∨ cause = .chip) (h : w.q.state.inPlay = false) : ∃ p due, w.enterStopped c cause =
    (((w.cutInsts c cbTruncated).leaveRun.upd fun x => x.stopsBy c cause false p due).endWaiters stOk 0).resolveRun := by
  have hrun : w.q.state ≠ .running := fun hr => by rw [hr] at h; cases h
  unfold W.enterStopped
  rw [h, decide_eq_false hrun]
  rcases hcause with rfl | rfl
  · exact ⟨_, _, rfl⟩
  · exact ⟨_, _, rfl⟩

theorem W.disarm (x : Quire) (c : Ctx) {cause : StopCause} (hcause : cause = .host ∨ cause = .chip) (harmed : x.state = .armed) (hd : ∀ d ∈ x.dests, d.opcode = 0) :
    (x.w.endArm.enterStopped c cause).Asks Fx.mute ∧ x.Disarmed (x.w.endArm.enterStopped c cause).q cause := by
  have hlogs : ∀ x : Fx, x.logs = true → x.mute := fun _ => .inl
  obtain ⟨hasks, hstate, hcom, hstag, hmem, hsram, hwaiters, hreq⟩ := W.endArm_keeps x hd
  obtain ⟨p, due, heq⟩ := x.w.endArm.enterStopped_idle c hcause (by rw [hstate, harmed]; rfl)
  have hasks' := (hasks.cutInsts hlogs c cbTruncated).leaveRun hlogs
  have hset := W.settles_cutInsts x.w.endArm c cbTruncated
  have hleft := W.leaves_leaveRun (x.w.endArm.cutInsts c cbTruncated)
  generalize x.w.endArm = a at *
  generalize a.cutInsts c cbTruncated = b at *
  generalize b.leaveRun = u at *
  have hstops : (u.upd fun x => x.stopsBy c cause false p due).q = { u.q with state := .stopped, stopCause := cause } := rfl
  have hu : u.q.committed = x.committed ∧ u.q.staging = x.staging ∧ u.q.dram.mem = x.dram.mem ∧ u.q.sram = x.sram ∧ u.q.stopWaiters = x.stopWaiters ∧ u.q.stopReq = x.stopReq := by
    rw [hleft.frame, hset.frame]
    exact ⟨hcom, hstag, hmem, hsram, hwaiters, hreq⟩
  obtain ⟨hcom, hstag, hmem, hsram, hwaiters, hreq⟩ := hu
  obtain ⟨vd, rg, hres⟩ := W.resolveRun_shape ((u.upd fun x => x.stopsBy c cause false p due).endWaiters stOk 0)
  have hq : (a.enterStopped c cause).q = { u.q with
      state := .stopped, stopCause := cause, stopWaiters := [], stopReq := none, run := { u.q.run with verdict := vd }, regions := rg } := by
    rw [heq, hres]
    dsimp only
    rw [W.endWaiters_q, hstops]
  refine ⟨?_, ?_⟩
  · rw [heq, hres]
    refine W.Asks.endWaiters (w := u.upd fun x => x.stopsBy c cause false p due) hasks' stOk 0 fun d hmem => .inr ⟨d, stOk, 0, rfl, hd d ?_⟩
    rw [hstops] at hmem
    rcases hmem with hmem | ⟨r, hr, hw⟩
    · exact Quire.mem_dests_of_waiter (.inl (hwaiters ▸ hmem))
    · exact Quire.mem_dests_of_waiter (.inr ⟨r, hreq ▸ hr, hw⟩)
  · rw [hq]
    exact ⟨rfl, rfl, hcom, hstag, hmem, hsram⟩

/-! ### A released quire (R600) -/

/-- What a release makes of quire `y`, the replies of `gone` being forgotten. -/
structure Quire.Released (gone : ReplyTo → Bool) (cause : StopCause) (y z : Quire) : Prop where
  owner : z.owner = none
  committed : z.committed = y.committed
  staging : z.staging = y.staging
  mem : z.dram.mem = y.dram.mem
  sram : z.sram = y.sram
  armed : y.state = .armed → z.state = .stopped ∧ z.stopCause = cause
  inPlay : y.state = .running ∨ y.state = .paused → z = { y.forget gone with
    owner := none, pausePending := y.pausePending && y.stopReq.isSome, stopReq := some ((y.forget gone).stopReq.getD { cause := cause, rebind := false, waiter := none }) }
  other : y.state.inRun = false → z = { y.forget gone with owner := none }

theorem Quire.Released.forget {gone : ReplyTo → Bool} {cause : StopCause} {y z : Quire} (h : y.Released gone cause z) (g : ReplyTo → Bool) : y.Released (fun d => gone d || g d) cause (z.forget g) where
  owner := h.owner
  committed := h.committed
  staging := h.staging
  mem := h.mem
  sram := h.sram
  armed := h.armed
  inPlay hp := by
    rw [h.inPlay hp, ← Quire.forget_forget]
    have hreq : (some ((y.forget gone).stopReq.getD { cause := cause, rebind := false, waiter := none })).map (fun r : StopReq => { r with waiter := r.waiter.map (ReplyTo.forget g) })
        = some (((y.forget gone).forget g).stopReq.getD { cause := cause, rebind := false, waiter := none }) := by
      show _ = some (((y.forget gone).stopReq.map fun r : StopReq => { r with waiter := r.waiter.map (ReplyTo.forget g) }).getD _)
      cases (y.forget gone).stopReq <;> rfl
    rw [← hreq]
    rfl
  other ho := by
    rw [h.other ho, ← Quire.forget_forget]
    rfl

theorem State.modQuire_logged (s : State) (q : QId) (x : Quire) (l : SinterLog) (c : BitVec 32) (f : Quire → Quire) :
    ({ s.setQuire q x with log := l, collector := { s.collector with satPages := c } } : State).modQuire q f = { s.setQuire q (f x) with log := l, collector := { s.collector with satPages := c } } := by
  have hq : ({ s.setQuire q x with log := l, collector := { s.collector with satPages := c } } : State).quire q = x := s.quire_setQuire_same q x
  have hset := s.setQuire_setQuire q x (f x)
  rw [State.modQuire, hq, ← hset]
  rfl

/-- A request to stop a quire whose replies are all forgotten changes that quire alone, and the log. -/
theorem State.requestStop_released (s : State) {q : QId} {cause : StopCause} (hcause : cause = .host ∨ cause = .chip) (hm : ∀ w ∈ s.maskWaits, w.dest.opcode ≠ 0) (hw : s.gov.waiting = [])
    {gone : ReplyTo → Bool} {y : Quire} (hx : s.quire q = y.forget gone) (hd : ∀ d ∈ (y.forget gone).dests, d.opcode = 0) :
    ∃ z l c, (s.requestStop q cause).modQuire q (fun x => { x with owner := none }) = { s.setQuire q z with log := l, collector := { s.collector with satPages := c } } ∧ y.Released gone cause z := by
  have hset : ∀ f : Quire → Quire, (s.modQuire q f).modQuire q (fun x => { x with owner := none }) = s.setQuire q { f (y.forget gone) with owner := none } := fun f => by
    rw [State.modQuire, State.quire_modQuire_same, State.modQuire, State.setQuire_setQuire, hx]
  have hplay : y.state = .running ∨ y.state = .paused → ∃ z l c, (s.modQuire q fun x => if x.stopReq.isSome then x else { x with pausePending := false, stopReq := some { cause := cause, rebind := false, waiter := none } }).modQuire q
      (fun x => { x with owner := none }) = { s.setQuire q z with log := l, collector := { s.collector with satPages := c } } ∧ y.Released gone cause z := fun hp => by
    have harmed : y.state ≠ .armed := fun h => by rw [h] at hp; exact hp.elim (fun h => by cases h) fun h => by cases h
    have hrun : y.state.inRun = true := by rcases hp with h | h <;> rw [h] <;> rfl
    have hsome : (y.forget gone).stopReq.isSome = y.stopReq.isSome := by
      show (y.stopReq.map _).isSome = _
      rw [Option.isSome_map]
    cases hreq : (y.forget gone).stopReq with
    | none =>
      rw [hreq] at hsome
      refine ⟨_, s.log, s.collector.satPages, hset _, ?_⟩
      dsimp only
      rw [hreq]
      refine ⟨rfl, rfl, rfl, rfl, rfl, fun h => absurd h harmed, fun _ => ?_, fun h => absurd (hrun.symm.trans h) (by decide)⟩
      rw [hreq, ← hsome, Option.isSome_none, Bool.and_false]
      rfl
    | some r =>
      rw [hreq] at hsome
      refine ⟨_, s.log, s.collector.satPages, hset _, ?_⟩
      dsimp only
      rw [hreq]
      refine ⟨rfl, rfl, rfl, rfl, rfl, fun h => absurd h harmed, fun _ => ?_, fun h => absurd (hrun.symm.trans h) (by decide)⟩
      rw [hreq, ← hsome, Option.isSome_some, Bool.and_true, Option.getD_some, ← hreq]
      rfl
  have hother : y.state.inRun = false → ∃ z l c, s.modQuire q (fun x => { x with owner := none }) = { s.setQuire q z with log := l, collector := { s.collector with satPages := c } } ∧ y.Released gone cause z := fun ho => by
    refine ⟨{ y.forget gone with owner := none }, s.log, s.collector.satPages, by rw [State.modQuire, hx]; rfl, rfl, rfl, rfl, rfl, rfl, fun h => ?_, fun h => ?_, fun _ => rfl⟩
    · rw [h] at ho
      cases ho
    · rcases h with h | h <;> rw [h] at ho <;> cases ho
  have hstate : (s.quire q).state = y.state := by rw [hx]; rfl
  unfold State.requestStop
  rw [hstate]
  cases hs : y.state with
  | armed =>
    obtain ⟨hasks, hdis⟩ := W.disarm (y.forget gone) s.ctx hcause hs hd
    have heq : s.stopQuire q cause = s.onQuire q fun x => x.w.endArm.enterStopped s.ctx cause := State.cancelStarts_none (by rw [State.onQuire_gov]; exact hw) _ _ _
    obtain ⟨l, c, hmute⟩ := s.onQuire_mute q (fun x => x.w.endArm.enterStopped s.ctx cause) hm (by rw [hx]; exact hasks)
    rw [hx] at hmute
    refine ⟨{ ((y.forget gone).w.endArm.enterStopped s.ctx cause).q with owner := none }, l, c, ?_, rfl, hdis.committed, hdis.staging, hdis.mem, hdis.sram, fun _ => ⟨hdis.state, hdis.stopCause⟩, fun h => ?_, fun h => ?_⟩
    · dsimp only
      rw [heq, hmute]
      exact State.modQuire_logged s q _ l c _
    · rw [hs] at h
      exact h.elim (fun h => by cases h) fun h => by cases h
    · rw [hs] at h
      cases h
  | running => exact hplay (.inl hs)
  | paused => exact hplay (.inr hs)
  | off => exact hother (by rw [hs]; rfl)
  | parked => exact hother (by rw [hs]; rfl)
  | staged => exact hother (by rw [hs]; rfl)
  | collated => exact hother (by rw [hs]; rfl)
  | stopped => exact hother (by rw [hs]; rfl)
  | faulted => exact hother (by rw [hs]; rfl)

/-! ### The quires of a session released one after the other (R600) -/

/-- The replies forgotten with the release of the quires `P` of link `k`. -/
def State.goneWith (s : State) (k : LinkId) (P : List QId) (d : ReplyTo) : Bool :=
  decide (d.link = k) && decide (d.opcode ≠ 0x03) && P.any fun q => decide ((s.quire q).owner = some k) && d.qmask.getLsbD q.val

/-- The replies forgotten with the release of quire `q` of link `k`. -/
def goneOf (k : LinkId) (q : QId) (d : ReplyTo) : Bool := decide (d.link = k) && decide (d.opcode ≠ 0x03) && d.qmask.getLsbD q.val

/-- The chip that has forgotten the commands of the session of link `k` on quire `q`. -/
def State.forgetsFor (t : State) (k : LinkId) (q : QId) : State :=
  (t.modSession k fun x => { x with inProgress := x.inProgress.filter fun e => e.2.1 = 0x03 || !e.2.2.getLsbD q.val }).forget (goneOf k q)

/-- The chip `t` is the chip `s` with those quires of `P` released that belong to link `k`. -/
structure State.Releasing (s t : State) (k : LinkId) (cause : StopCause) (P : List QId) : Prop where
  released : ∀ q ∈ P, (s.quire q).owner = some k → (s.quire q).Released (s.goneWith k P) cause (t.quire q)
  kept : ∀ q, (q ∈ P → (s.quire q).owner ≠ some k) → t.quire q = (s.quire q).forget (s.goneWith k P)
  waiting : t.gov.waiting = []
  wanted : t.spine.restartWanted = none
  running : t.spine.restarting = s.spine.restarting
  sent : t.sent = s.sent
  links : t.links = s.links
  masks : ∀ w ∈ t.maskWaits, w.dest.opcode ≠ 0
  session : (t.session k).isOpen = (s.session k).isOpen ∧ (t.session k).steward = (s.session k).steward ∧ (t.session k).generation = (s.session k).generation
  closing : ∀ e ∈ (s.session k).inProgress, e.2.1 = 0x03 → e ∈ (t.session k).inProgress

section
variable {s : State} {k : LinkId} {cause : StopCause}

theorem State.Releasing.start (hw : s.gov.waiting = []) (hr : s.spine.restartWanted = none) (hm : ∀ w ∈ s.maskWaits, w.dest.opcode ≠ 0) : s.Releasing s k cause [] where
  released _ hq := absurd hq List.not_mem_nil
  kept q _ := by
    have hgone : s.goneWith k [] = fun _ => false := funext fun d => Bool.and_false _
    rw [hgone, Quire.forget_none]
  waiting := hw
  wanted := hr
  running := rfl
  sent := rfl
  links := rfl
  masks := hm
  session := ⟨rfl, rfl, rfl⟩
  closing _ he _ := he

theorem State.goneWith_concat (s : State) (k : LinkId) (P : List QId) (q : QId) : s.goneWith k (P ++ [q]) =
    fun d => s.goneWith k P d || (decide (d.link = k) && decide (d.opcode ≠ 0x03) && (decide ((s.quire q).owner = some k) && d.qmask.getLsbD q.val)) := funext fun d => by
  simp only [State.goneWith, List.any_append, List.any_cons, List.any_nil, Bool.or_false, Bool.and_or_distrib_left]

theorem State.Releasing.step {t : State} {P : List QId} (h : s.Releasing t k cause P) {q : QId} (hq : q ∉ P) (hcause : cause = .host ∨ cause = .chip)
    (hdests : (s.quire q).owner = some k → ∀ d ∈ (s.quire q).dests, d.opcode = 0 ∨ (d.link = k ∧ d.opcode ≠ 3 ∧ d.qmask.getLsbD q.val = true)) : s.Releasing (t.releaseQuire k cause q) k cause (P ++ [q]) := by
  have hkept := h.kept q fun hin => absurd hin hq
  have howner : (t.quire q).owner = (s.quire q).owner := by rw [hkept]; rfl
  by_cases ho : (s.quire q).owner = some k
  · have hrel : t.releaseQuire k cause q = ((t.forgetsFor k q).requestStop q cause).modQuire q fun x => { x with owner := none } := if_neg (by rw [howner, ho]; exact fun h => h rfl)
    have hgone : s.goneWith k (P ++ [q]) = fun d => s.goneWith k P d || goneOf k q d := by
      rw [State.goneWith_concat, ho]
      simp only [decide_true, Bool.true_and]
      rfl
    have huq : ∀ r, (t.forgetsFor k q).quire r = (t.quire r).forget (goneOf k q) := fun r => State.forget_quire _ _ r
    have hq' : (t.forgetsFor k q).quire q = (s.quire q).forget (s.goneWith k (P ++ [q])) := by rw [huq, hkept, Quire.forget_forget, hgone]
    have hdead : ∀ d ∈ ((s.quire q).forget (s.goneWith k (P ++ [q]))).dests, d.opcode = 0 := Quire.forget_dests _ _ fun d hd => (hdests ho d hd).imp_right fun ⟨hl, hop, hm⟩ => by
      rw [hgone]
      simp only [goneOf, decide_eq_true hl, decide_eq_true hop, hm, Bool.and_self, Bool.or_true]
    obtain ⟨z, l, c, hstep, hz⟩ := State.requestStop_released (t.forgetsFor k q) hcause (fun w hw => h.masks w (List.mem_of_mem_filter hw)) (congrArg (List.map _) h.waiting) hq' hdead
    rw [hrel, hstep]
    have hzq : ∀ r, ({ (t.forgetsFor k q).setQuire q z with log := l, collector := { (t.forgetsFor k q).collector with satPages := c } } : State).quire r = if r = q then z else (t.quire r).forget (goneOf k q) := fun r => by
      show ((t.forgetsFor k q).setQuire q z).quire r = _
      by_cases hr : r = q
      · rw [if_pos hr, hr, State.quire_setQuire_same]
      · rw [if_neg hr, State.quire_setQuire_other _ _ _ _ hr, huq]
    obtain ⟨hopen, hstew, hgen⟩ := h.session
    have hsession : (t.forgetsFor k q).session k = { t.session k with inProgress := (t.session k).inProgress.filter fun e => e.2.1 = 0x03 || !e.2.2.getLsbD q.val } := State.session_modSession_same t k fun x => { x with inProgress := x.inProgress.filter fun e => e.2.1 = 0x03 || !e.2.2.getLsbD q.val }
    refine ⟨fun r hr hro => ?_, fun r hr => ?_, congrArg (List.map _) h.waiting, congrArg (Option.map _) h.wanted, h.running, h.sent, h.links, fun w hw => h.masks w (List.mem_of_mem_filter hw), ?_, fun e he hop => ?_⟩
    · rw [hzq]
      split
      next hrq =>
        rw [hrq]
        exact hz
      next hrq =>
        rw [hgone]
        exact (h.released r ((List.mem_append.mp hr).resolve_right fun h => hrq (List.mem_singleton.mp h)) hro).forget _
    · have hrq : r ≠ q := fun hrq => hr (List.mem_append_right _ (by rw [hrq]; exact List.mem_singleton_self q)) (hrq ▸ ho)
      rw [hzq, if_neg hrq, h.kept r fun hin => hr (List.mem_append_left _ hin), Quire.forget_forget, hgone]
    · show ((t.forgetsFor k q).session k).isOpen = _ ∧ ((t.forgetsFor k q).session k).steward = _ ∧ ((t.forgetsFor k q).session k).generation = _
      rw [hsession]
      exact ⟨hopen, hstew, hgen⟩
    · show e ∈ ((t.forgetsFor k q).session k).inProgress
      rw [hsession]
      exact List.mem_filter.mpr ⟨h.closing e he hop, by rw [hop]; rfl⟩
  · have hrel : t.releaseQuire k cause q = t := if_pos (by rw [howner]; exact ho)
    have hgone : s.goneWith k (P ++ [q]) = s.goneWith k P := by
      rw [State.goneWith_concat, decide_eq_false ho]
      simp only [Bool.false_and, Bool.and_false, Bool.or_false]
    rw [hrel]
    refine ⟨fun r hr hro => ?_, fun r hr => ?_, h.waiting, h.wanted, h.running, h.sent, h.links, h.masks, h.session, h.closing⟩
    · rw [hgone]
      refine h.released r ((List.mem_append.mp hr).resolve_right fun hin => ?_) hro
      rw [List.mem_singleton.mp hin] at hro
      exact ho hro
    · rw [hgone]
      exact h.kept r fun hin => hr (List.mem_append_left _ hin)

theorem State.Releasing.each (hcause : cause = .host ∨ cause = .chip)
    (hdests : ∀ q, (s.quire q).owner = some k → ∀ d ∈ (s.quire q).dests, d.opcode = 0 ∨ (d.link = k ∧ d.opcode ≠ 3 ∧ d.qmask.getLsbD q.val = true)) (L : List QId) {t : State} {P : List QId}
    (h : s.Releasing t k cause P) (hnodup : (P ++ L).Nodup) : s.Releasing (t.each L fun s q => s.releaseQuire k cause q) k cause (P ++ L) := by
  induction L generalizing t P with
  | nil => rwa [List.append_nil]
  | cons q L ih =>
    have hq : q ∉ P := fun hin => (List.nodup_append.mp hnodup).2.2 q hin q List.mem_cons_self rfl
    have hstep := h.step hq hcause (hdests q)
    rw [List.append_cons] at hnodup ⊢
    exact ih hstep hnodup

end

/-! ### The end of a session (R600, R602) -/

/-- What the end of the session of link `k` leaves of the chip `s`. -/
structure State.Closed (s t : State) (k : LinkId) (cause : StopCause) : Prop where
  session : t.session k = { Session.reset with generation := (s.session k).generation }
  masks : ∀ w ∈ t.maskWaits, w.dest.link ≠ k
  held : ∀ r ∈ t.heldReplies, r.dest.link ≠ k
  sent : t.sent = s.sent
  others : ∀ q, (s.quire q).owner ≠ some k → t.quire q = (s.quire q).forget fun d => decide (d.link = k)
  released : ∀ q, (s.quire q).owner = some k → (s.quire q).Released (fun d => decide (d.link = k)) cause (t.quire q)

theorem State.endSession_closed (s : State) {k : LinkId} {cause : StopCause} (hcause : cause = .host ∨ cause = .chip) (hw : s.gov.waiting = []) (hr : s.spine.restartWanted = none)
    (hm : ∀ w ∈ s.maskWaits, w.dest.opcode ≠ 0)
    (hdests : ∀ q, (s.quire q).owner = some k → ∀ d ∈ (s.quire q).dests, d.opcode = 0 ∨ (d.link = k ∧ d.opcode ≠ 3 ∧ d.qmask.getLsbD q.val = true)) : s.Closed (s.endSession k cause) k cause := by
  have h := (State.Releasing.start (k := k) (cause := cause) hw hr hm).each hcause hdests (List.finRange 8) (by rw [List.nil_append]; exact List.nodup_finRange 8)
  rw [List.nil_append] at h
  have hend : s.endSession k cause = ((s.each (List.finRange 8) fun s q => s.releaseQuire k cause q).forget fun d => decide (d.link = k)).modSession k fun x => { Session.reset with generation := x.generation } := rfl
  rw [hend]
  generalize (s.each (List.finRange 8) fun s q => s.releaseQuire k cause q) = t at h
  have hall : (fun d => s.goneWith k (List.finRange 8) d || decide (d.link = k)) = fun d => decide (d.link = k) := funext fun d => by
    rw [State.goneWith]
    cases decide (d.link = k) with
    | true => rw [Bool.or_true]
    | false => simp only [Bool.false_and, Bool.or_false]
  have hq : ∀ q, (((t.forget fun d => decide (d.link = k)).modSession k fun x => { Session.reset with generation := x.generation }).quire q) = (t.quire q).forget fun d => decide (d.link = k) := fun q =>
    State.forget_quire t _ q
  have hgone : ∀ d : ReplyTo, (!decide (d.link = k)) = true → d.link ≠ k := fun d hd => by simpa using hd
  refine ⟨?_, fun w hw => hgone _ (List.mem_filter.mp hw).2, fun r hr => hgone _ (List.mem_filter.mp hr).2, h.sent, fun q hne => ?_, fun q ho => ?_⟩
  · rw [State.session_modSession_same]
    show ({ Session.reset with generation := (t.session k).generation } : Session) = _
    rw [h.session.2.2]
  · rw [hq, h.kept q fun _ => hne, Quire.forget_forget, hall]
  · have hrel := (h.released q (List.mem_finRange q) ho).forget fun d => decide (d.link = k)
    rw [hall] at hrel
    rw [hq]
    exact hrel

/-- The steward right given up, where the command asks for it. -/
theorem State.closing_steward (v : State) (k : LinkId) (c : Prop) [Decidable c] : ∃ x, (if c then v.modSession k fun x => { x with steward := false } else v) = { v with sessions := x }
    ∧ ({ v with sessions := x } : State).session k = { v.session k with steward := (v.session k).steward && !decide c } := by
  by_cases hc : c
  · refine ⟨_, if_pos hc, (State.session_modSession_same v k fun x => { x with steward := false }).trans ?_⟩
    rw [decide_eq_true hc, Bool.not_true, Bool.and_false]
  · refine ⟨_, if_neg hc, ?_⟩
    rw [decide_eq_false hc, Bool.not_false, Bool.and_true]

theorem State.Closed.congr {s s' t : State} {k : LinkId} {cause : StopCause} (h : s'.Closed t k cause) (hq : ∀ q, s'.quire q = s.quire q) (hg : (s'.session k).generation = (s.session k).generation) :
    t.session k = { Session.reset with generation := (s.session k).generation } ∧ (∀ q, (s.quire q).owner ≠ some k → t.quire q = (s.quire q).forget fun d => decide (d.link = k))
      ∧ ∀ q, (s.quire q).owner = some k → (s.quire q).Released (fun d => decide (d.link = k)) cause (t.quire q) := by
  refine ⟨by rw [h.session, hg], fun q hq' => ?_, fun q hq' => ?_⟩
  · rw [← hq]
    exact h.others q (by rwa [hq])
  · have hrel := h.released q (by rwa [hq])
    rwa [hq] at hrel

end Sys2Proof.Machine

namespace Sys2Proof.Proofs
open Sys2Proof.Machine

/-- Settles O19: the quires of the session are released one after the other, and then what is still due to it is forgotten. -/
theorem sessionsEnd : Obligations.SessionsEnd := by
  intro s h p k released mine named closed others hw hr hm hdests
  have hexec : ∀ ht : s.Takes opCloseSession h p, exec (.closeSession h p) s = .next (
      if par p 0 1 / 2 % 2 = 1 then ((s.taken h opCloseSession.opcode).reply (hdrDest h opCloseSession.opcode) stOk).endSession h.link .host
      else ((if par p 0 1 % 2 = 1 then ((s.taken h opCloseSession.opcode).each (quiresOf h.qmask) fun s q => s.releaseQuire h.link .host q).modSession h.link fun x => { x with steward := false }
        else (s.taken h opCloseSession.opcode).each (quiresOf h.qmask) fun s q => s.releaseQuire h.link .host q)).reply (hdrDest h opCloseSession.opcode) stOk) := fun ht =>
    exec_command (o := opCloseSession) (row := .closeSession) (run := doCloseSession) rfl (doCloseSession.eq_1 h p s) (by decide) ht rfl
  have hbit1 : (p.getD 0 0).getLsbD 1 = true ↔ par p 0 1 / 2 % 2 = 1 := by rw [getLsbD_iff_mod, par_one, pow_one]
  have hbit0 : (p.getD 0 0).getLsbD 0 = true ↔ par p 0 1 % 2 = 1 := by rw [getLsbD_iff_mod, par_one, pow_zero, Nat.div_one]
  have hrel : ∀ {gone : ReplyTo → Bool} {cause : StopCause} {y z : Quire}, y.Released gone cause z → released gone cause y z := fun hz =>
    ⟨hz.owner, hz.committed, hz.staging, hz.mem, hz.sram, hz.armed, hz.inPlay, hz.other⟩
  have hkeep : ((s.taken h opCloseSession.opcode).session h.link).isOpen = (s.session h.link).isOpen ∧ ((s.taken h opCloseSession.opcode).session h.link).steward = (s.session h.link).steward
      ∧ ((s.taken h opCloseSession.opcode).session h.link).generation = (s.session h.link).generation := by
    rw [State.taken, State.accept_session _ _ _ (by decide), State.freeBuffer_session]
    exact ⟨rfl, rfl, rfl⟩
  refine ⟨fun ht hb => ?_, fun ht hb => ?_, fun hopen hhold => ?_⟩
  · have hex := (hexec ht).trans (congrArg Host.Outcome.next (if_pos (hbit1.mp hb)))
    have hdue := ht.due
    obtain ⟨hsent, hbook⟩ := hdue.reply (hdrDest h opCloseSession.opcode) stOk 0 [] rfl rfl rfl
    have hses := hdue.reply_session (hdrDest h opCloseSession.opcode) stOk 0 [] rfl rfl rfl h.link
    have hb' := (s.taken_booked h opCloseSession.opcode).reply (hbook (by decide)) (by simp)
    rw [if_pos rfl] at hses
    have hgen := congrArg Session.generation hses
    rw [(Session.complete_keeps _ _ _).2.2.2, hkeep.2.2] at hgen
    generalize (s.taken h opCloseSession.opcode).reply (hdrDest h opCloseSession.opcode) stOk 0 [] = u at *
    have hq : ∀ q, u.quire q = s.quire q := fun q => State.quire_congr _ _ q hb'.quires
    have hclosed := u.endSession_closed (k := h.link) (cause := .host) (.inl rfl) (by rw [hb'.1]; exact hw) (by rw [hb'.1]; exact hr) (by rw [hb'.1]; exact hm) fun q ho => by
      rw [hq] at ho ⊢
      exact hdests q h.link ho
    obtain ⟨hses', hothers, hreleased⟩ := hclosed.congr hq hgen
    exact ⟨_, hex, by rw [hclosed.sent, hsent]; exact List.prefix_refl _, ⟨hses', hclosed.masks, hclosed.held⟩, hothers, fun q ho => hrel (hreleased q ho)⟩
  · have hex := (hexec ht).trans (congrArg Host.Outcome.next (if_neg fun hc => Bool.false_ne_true (hb.symm.trans (hbit1.mpr hc))))
    have hbook := s.taken_booked h opCloseSession.opcode
    have hq : ∀ q, (s.taken h opCloseSession.opcode).quire q = s.quire q := fun q => State.quire_congr _ _ q hbook.quires
    have hup := ht.due.up
    obtain ⟨e, hemem, he⟩ := List.any_eq_true.mp (s.taken_inProgress h opCloseSession.opcode (by decide))
    rw [decide_eq_true_eq] at he
    have hstart := State.Releasing.start (s := s.taken h opCloseSession.opcode) (k := h.link) (cause := .host) (by rw [hbook.1]; exact hw) (by rw [hbook.1]; exact hr) (by rw [hbook.1]; exact hm)
    have hloop := hstart.each (.inl rfl) (fun q ho => by rw [hq] at ho ⊢; exact hdests q h.link ho) (quiresOf h.qmask) (by rw [List.nil_append]; exact (List.nodup_finRange 8).filter _)
    rw [List.nil_append] at hloop
    have hgone : (s.taken h opCloseSession.opcode).goneWith h.link (quiresOf h.qmask) = named := funext fun d => by
      simp only [State.goneWith, quiresOf, List.any_filter, hq]
      refine congrArg _ (congrArg (fun f => (List.finRange 8).any f) (funext fun q => ?_))
      cases h.qmask.getLsbD q.val <;> simp
    have hmem : ∀ q, q ∈ quiresOf h.qmask ↔ h.qmask.getLsbD q.val = true := fun q => by simp [quiresOf]
    have hsent := ht.due.sent
    have hrun := ht.due.running
    generalize (s.taken h opCloseSession.opcode) = u at *
    generalize (u.each (quiresOf h.qmask) fun s q => s.releaseQuire h.link .host q) = v at *
    obtain ⟨x, hx, hxs⟩ := v.closing_steward h.link (par p 0 1 % 2 = 1)
    rw [hx] at hex
    have hdue : s.Due { v with sessions := x } opCloseSession h := by
      refine ⟨hloop.sent.trans hsent, ?_, hloop.running.trans hrun, ?_, .inr (List.any_eq_true.mpr ⟨e, ?_, decide_eq_true he⟩)⟩
      · rw [State.linkUp, State.link_congr u { v with sessions := x } h.link hloop.links]
        exact hup
      · show (v.spine.restartWanted.isSome && _) = false
        rw [hloop.wanted]
        rfl
      · rw [hxs]
        exact hloop.closing e hemem he.2
    have hreply := (hdue.reply (hdrDest h opCloseSession.opcode) stOk 0 [] rfl rfl rfl).1
    have hses := hdue.reply_session (hdrDest h opCloseSession.opcode) stOk 0 [] rfl rfl rfl h.link
    rw [if_pos rfl, hxs] at hses
    obtain ⟨hko, hks, -⟩ := Session.complete_keeps { v.session h.link with steward := (v.session h.link).steward && !decide (par p 0 1 % 2 = 1) }
      { dest := hdrDest h opCloseSession.opcode, status := stOk, detail := 0, result := [] } (some { dest := hdrDest h opCloseSession.opcode, status := stOk, detail := 0, result := [] })
    have hquire : ∀ q, (({ v with sessions := x } : State).reply (hdrDest h opCloseSession.opcode) stOk 0 []).quire q = v.quire q := fun q => State.reply_quire _ _ _ _ _ _
    refine ⟨_, hex, by rw [hreply]; exact List.suffix_append _ _, fun q ho => ?_, ?_, ?_, fun q ho hn => ?_, fun q ho hn => ?_⟩
    · rw [hquire, hloop.kept q fun _ => by rw [hq]; exact ho, hgone, hq]
    · rw [hses, hko]
      exact hloop.session.1.trans hkeep.1
    · rw [hses, hks]
      show ((v.session h.link).steward && _) = _
      rw [hloop.session.2.1, hkeep.2.1]
      exact congrArg (fun b => (s.session h.link).steward && !b) (Bool.eq_iff_iff.mpr (decide_eq_true_iff.trans hbit0.symm))
    · rw [hquire, hloop.kept q fun hin => absurd ((hmem q).mp hin) (by rw [hn]; exact Bool.false_ne_true), hgone, hq]
    · have hz := hloop.released q ((hmem q).mpr hn) (by rw [hq]; exact ho)
      rw [hgone, hq] at hz
      rw [hquire]
      exact hrel hz
  · have hclosed := s.endSession_closed (k := k) (cause := .chip) (.inr rfl) hw hr hm fun q ho => hdests q k ho
    refine ⟨_, congrArg Host.Outcome.next (if_pos ?_), ⟨hclosed.session, hclosed.masks, hclosed.held⟩, hclosed.others, fun q ho => hrel (hclosed.released q ho)⟩
    rw [hopen, hhold]
    rfl

end Sys2Proof.Proofs
end

section
/-! The steps of boot (R3, R312, R523, R524, R730, R781, R827, R831 to R838). -/

namespace Sys2Proof.Machine

/-! ### A packet whose opcode is not listed changes the books of packets alone -/

theorem linkKey_low (k : LinkId) {o : Nat} (h : 0x104 ≤ o) (h' : o < 0x114) : rk 8 0x104 ≤ rk 8 (o + 0x20 * k.val) ∧ rk 8 (o + 0x20 * k.val) < rk 8 0x204 := by
  have := k.isLt
  simp only [rk]
  omega

section
variable (s : State)

theorem State.freeBuffer_answered (k : LinkId) (cls : PktClass) : s.Answered (s.freeBuffer k cls) := ⟨rfl, fun _ _ => rfl⟩

theorem State.accept_answered (h : Hdr) (op : Byte) : s.Answered (s.accept h op) := by
  obtain ⟨hk, hk'⟩ := linkKey_low h.link (o := 0x104) (by decide) (by decide)
  exact .ite (s.bump_answered 1 hk hk') ((s.bump_answered 1 hk hk').trans (State.modSession_answered _ _ _))

theorem State.resend_answered (r : Reply) : s.Answered (s.resend r) := .ite ⟨rfl, fun _ _ => rfl⟩ (s.wire_answered r)

theorem State.resend_quires (r : Reply) : (s.resend r).quires = s.quires := by
  unfold State.resend
  split
  · rfl
  · exact s.wire_quires r

/-- A packet that is answered without doing anything. -/
theorem packet_answered (o : OpSpec) (h : Hdr) (p : Params) (check : State → Option Refuse) :
    s.Answered (packet o h p s check fun s _ => s) ∧ (packet o h p s check fun s _ => s).quires = s.quires := by
  obtain ⟨hk, hk'⟩ := linkKey_low h.link (o := 0x108) (by decide) (by decide)
  obtain ⟨hj, hj'⟩ := linkKey_low h.link (o := 0x10C) (by decide) (by decide)
  have hfree := s.freeBuffer_answered h.link h.cls
  unfold packet
  split
  · exact ⟨.refl s, rfl⟩
  · dsimp only
    split
    · exact ⟨hfree.trans (State.bump_answered _ 1 hk hk'), by simp⟩
    · split
      · exact ⟨hfree.trans (State.bump_answered _ 1 hj hj'), by simp⟩
      · exact ⟨hfree.trans (State.resend_answered _ _), (State.resend_quires _ _).trans rfl⟩
      · exact ⟨hfree, rfl⟩
      · exact ⟨hfree.trans (State.resend_answered _ _), (State.resend_quires _ _).trans rfl⟩
      · split
        · exact ⟨hfree.trans (State.answer_answered _ _), by simp [State.refuse]⟩
        · exact ⟨hfree.trans (State.accept_answered _ _ _), by simp⟩

theorem State.takeUnlisted_answered (k : LinkId) : s.Answered (s.takeUnlisted k) ∧ (s.takeUnlisted k).quires = s.quires := by
  have hone : ∀ (t : State) (c : PktClass), t.Answered (t.answerUnlisted k c) ∧ (t.answerUnlisted k c).quires = t.quires := fun t c => by
    unfold State.answerUnlisted
    split
    · exact ⟨.refl t, rfl⟩
    · exact ⟨.each _ _ (fun v b => (packet_answered v _ _ _ _).1) t, State.each_quires _ _ _ fun v b => (packet_answered v _ _ _ _).2⟩
  exact ⟨.each _ _ (fun t c => (hone t c).1) s, State.each_quires _ _ _ fun t c => (hone t c).2⟩

/-- With no packet held, every quire's hold of streamed data ends. -/
theorem State.settleStreams_idle (h : s.heldPackets = []) : (∃ qs, s.settleStreams = { s with quires := qs }) ∧ ∀ q, s.settleStreams.quire q = { s.quire q with heldStream := false } := by
  have hstep : ∀ (c : QId → Instr → Bool) (l : List QId) (t : State), t.heldPackets = [] → (t.each l fun s q =>
      if (s.quire q).heldStream && !s.heldPackets.any (c q) then s.modQuire q fun x => { x with heldStream := false } else s) = t.each l fun s q => s.modQuire q fun x => { x with heldStream := false } := fun c l => by
    induction l with
    | nil => exact fun t _ => rfl
    | cons q l ih =>
      intro t ht
      refine (congrArg (fun u : State => u.each l _) ?_).trans (ih (t.modQuire q fun x => { x with heldStream := false }) ht)
      dsimp only
      rw [ht, List.any_nil, Bool.not_false, Bool.and_true]
      split
      · rfl
      next hs =>
        have hq : ({ t.quire q with heldStream := false } : Quire) = t.quire q := by rw [← Bool.eq_false_iff.mpr hs]
        rw [State.modQuire, hq]
        exact (t.setQuire_quire q).symm
  rw [State.settleStreams, hstep _ _ s h]
  obtain ⟨hframe, hquire⟩ := State.each_modQuire (fun x => { x with heldStream := false }) (List.finRange 8) (List.nodup_finRange 8) s
  exact ⟨hframe, fun q => (hquire q).trans (if_pos (List.mem_finRange q))⟩

/-- The interpreter resumes with nothing waiting. -/
theorem State.resume_idle (hp : s.heldPackets = []) (hr : s.heldReplies = []) (ht : s.heldTimes = []) : s.Answered s.resume ∧ ∀ q, s.resume.quire q = { s.quire q with heldStream := false } := by
  have hsame : ({ s with heldReplies := [], heldPackets := [], heldTimes := [] } : State) = s := by
    have hset : ∀ a b c, a = s.heldReplies → b = s.heldPackets → c = s.heldTimes → ({ s with heldReplies := a, heldPackets := b, heldTimes := c } : State) = s := by
      rintro _ _ _ rfl rfl rfl
      rfl
    exact hset [] [] [] hr.symm hp.symm ht.symm
  have hresume : s.resume = (s.each (List.finRange 8) State.takeUnlisted).settleStreams := by
    have hdef : s.resume = ((((({ s with heldReplies := [], heldPackets := [], heldTimes := [] }.each s.heldReplies State.answer)).each s.heldTimes State.takeTime).each (List.finRange 8) State.takeUnlisted).each
      (roundRobin s.heldPackets) takeHeld).settleStreams := rfl
    rw [hdef, hsame]
    show ((((s.each s.heldReplies State.answer).each s.heldTimes State.takeTime).each (List.finRange 8) State.takeUnlisted).each (roundRobin s.heldPackets) takeHeld).settleStreams = _
    have hnone : roundRobin [] = [] := rfl
    rw [hp, hr, ht, hnone]
    simp only [State.each, List.foldl_nil]
  have hans : s.Answered (s.each (List.finRange 8) State.takeUnlisted) := .each _ _ (fun t k => (t.takeUnlisted_answered k).1) s
  have hquires := s.each_quires (List.finRange 8) State.takeUnlisted fun t k => (t.takeUnlisted_answered k).2
  rw [hresume]
  generalize s.each (List.finRange 8) State.takeUnlisted = t at *
  obtain ⟨⟨qs, hframe⟩, hquire⟩ := t.settleStreams_idle (by rw [hans.frame]; exact hp)
  exact ⟨hans.trans (by rw [hframe]; exact ⟨rfl, fun _ _ => rfl⟩), fun q => by rw [hquire, State.quire_congr s t q hquires]⟩

end

/-! ### The regulators are started (R730, R733) -/

/-- A transfer with the regulators that succeeds. -/
structure State.Governs (s t : State) : Prop where
  frame : t = { s with regs := t.regs, log := t.log, collector := { s.collector with satPages := t.collector.satPages }
                       gov := { s.gov with bus := t.gov.bus, rails := t.gov.rails, setpoints := t.gov.setpoints, vcoreUnreachable := t.gov.vcoreUnreachable } }
  bus : s.gov.bus <+: t.gov.bus
  present : ∀ i, (t.rail i).present = (s.rail i).present
  reached : ∀ i, (s.rail i).state ≠ .unreachable → (t.rail i).state ≠ .unreachable

theorem State.Governs.refl (s : State) : s.Governs s := ⟨rfl, List.prefix_refl _, fun _ => rfl, fun _ => id⟩

theorem State.Governs.trans {s t u : State} (h : s.Governs t) (h' : t.Governs u) : s.Governs u where
  frame := by
    have hu := h'.frame
    rw [h.frame] at hu
    exact hu
  bus := h.bus.trans h'.bus
  present i := (h'.present i).trans (h.present i)
  reached i hi := h'.reached i (h.reached i hi)

theorem State.Governs.each {α : Type} (l : List α) (f : State → α → State) (hf : ∀ v a, State.Governs v (f v a)) (s : State) : s.Governs (s.each l f) :=
  List.foldlRecOn (motive := s.Governs) l f (.refl s) fun v hv a _ => hv.trans (hf v a)

theorem State.Governs.keeps {s t : State} (h : s.Governs t) :
    t.boot = s.boot ∧ t.cal = s.cal ∧ t.quires = s.quires ∧ t.heldPackets = s.heldPackets ∧ t.heldReplies = s.heldReplies ∧ t.heldTimes = s.heldTimes := by
  rw [h.frame]
  exact ⟨rfl, rfl, rfl, rfl, rfl, rfl⟩

theorem getD_lmod {α : Type} (l : List α) (i j : Nat) (f : α → α) (d : α) : (lmod l i f).getD j d = l.getD j d ∨ (lmod l i f).getD j d = f (l.getD j d) := by
  unfold lmod
  cases hi : l[i]? with
  | none => exact .inl rfl
  | some x =>
    dsimp only
    rcases eq_or_ne i j with rfl | hij
    · right
      obtain ⟨hlt, rfl⟩ := List.getElem?_eq_some_iff.mp hi
      simp [List.getD_eq_getElem?_getD, hlt]
    · left
      simp [List.getD_eq_getElem?_getD, List.getElem?_set_ne hij]

/-- A transfer puts a frame on the bus. -/
theorem State.pmSend_governs (s : State) (i : Nat) (code : Byte) (reads : Bool) (data : List Byte) :
    s.Governs (s.pmSend i code reads data 0) ∧ (s.pmSend i code reads data 0).gov.setpoints = s.gov.setpoints ∧ ∃ f ∈ (s.pmSend i code reads data 0).gov.bus, f.rail = i ∧ f.code = code := by
  obtain ⟨f, hf, hfr⟩ : ∃ f : PmFrame, (f.rail = i ∧ f.code = code) ∧ s.pmSend i code reads data 0 =
      ((({ s with gov := { s.gov with bus := s.gov.bus ++ [f] } } : State).bump (rk 10 0x300) 1).modRail i fun v => { v with state := if v.state = .unreachable then .ok else v.state }).vcoreReach :=
    ⟨_, ⟨rfl, rfl⟩, rfl⟩
  obtain ⟨l, c, hb⟩ := State.bump_shape { s with gov := { s.gov with bus := s.gov.bus ++ [f] } } (rk 10 0x300) 1
  rw [hfr, hb]
  have hrail : ∀ j, ((((({ s with gov := { s.gov with bus := s.gov.bus ++ [f] } } : State).bump (rk 10 0x300) 1).modRail i fun v => { v with state := if v.state = .unreachable then .ok else v.state }).vcoreReach).rail j)
      = s.rail j ∨ ((((({ s with gov := { s.gov with bus := s.gov.bus ++ [f] } } : State).bump (rk 10 0x300) 1).modRail i fun v => { v with state := if v.state = .unreachable then .ok else v.state }).vcoreReach).rail j)
      = { s.rail j with state := if (s.rail j).state = .unreachable then .ok else (s.rail j).state } := fun j => by
    rw [hb]
    exact getD_lmod s.gov.rails i j _ .reset
  rw [hb] at hrail
  refine ⟨⟨rfl, List.prefix_append _ _, fun j => ?_, fun j hj => ?_⟩, rfl, f, List.mem_append_right _ (List.mem_singleton_self f), hf⟩
  · rcases hrail j with h | h <;> rw [h]
  · rcases hrail j with h | h
    · rw [h]
      exact hj
    · rw [h]
      dsimp only
      rw [if_neg hj]
      exact hj

/-- A setpoint is sent and noted. -/
theorem State.pmSetpoint_governs (s : State) (i : Nat) : s.Governs (s.pmSetpoint i) ∧ ∃ f ∈ (s.pmSetpoint i).gov.bus, f.rail = i ∧ f.code = pmVoutCommand := by
  obtain ⟨⟨hframe, hbus, hpresent, hreached⟩, -, f, hf, hfr⟩ := s.pmSend_governs i pmVoutCommand false (le 2 (linear16 (pmExponent i) (s.pmWanted i)))
  unfold State.pmSetpoint
  dsimp only
  generalize s.pmSend i pmVoutCommand false (le 2 (linear16 (pmExponent i) (s.pmWanted i))) 0 = t at *
  exact ⟨⟨by rw [hframe], hbus, hpresent, hreached⟩, f, hf, hfr⟩

theorem State.presentRails_mem (s : State) {r : Nat} : r ∈ s.presentRails ↔ r < 9 ∧ (s.rail r).present = true := by
  rw [State.presentRails, List.mem_filter, List.mem_range]

/-- The regulators that the board names are turned on and given their setpoints. -/
theorem State.pmStart_governs (s : State) (hstep : s.boot.step = 7) : s.Governs s.pmStart
    ∧ ∀ r < 9, (s.rail r).present = true → (s.rail r).state ≠ .unreachable → (∃ f ∈ s.pmStart.gov.bus, f.rail = r ∧ f.code = 0x01) ∧ ∃ f ∈ s.pmStart.gov.bus, f.rail = r ∧ f.code = 0x21 := by
  have hturn : ∀ (t : State) (i : Nat), t.Governs (((t.pmSend i pmOperation false [0x80] 0).pmSend i pmVoutMode true [] 0).pmRate i)
      ∧ (((t.pmSend i pmOperation false [0x80] 0).pmSend i pmVoutMode true [] 0).pmRate i).gov.setpoints = t.gov.setpoints
      ∧ ∃ f ∈ (((t.pmSend i pmOperation false [0x80] 0).pmSend i pmVoutMode true [] 0).pmRate i).gov.bus, f.rail = i ∧ f.code = 0x01 := fun t i => by
    obtain ⟨h1, hs1, f, hf, hfr⟩ := t.pmSend_governs i pmOperation false [0x80]
    generalize t.pmSend i pmOperation false [0x80] 0 = t1 at *
    obtain ⟨h2, hs2, -⟩ := t1.pmSend_governs i pmVoutMode true []
    generalize t1.pmSend i pmVoutMode true [] 0 = t2 at *
    obtain ⟨h3, hs3, -⟩ := t2.pmSend_governs i pmTransitionRate false (le 2 (t2.pmSlew i))
    exact ⟨(h1.trans h2).trans h3, hs3.trans (hs2.trans hs1), f, (h2.trans h3).bus.subset hf, hfr⟩
  have hloop : ∀ (l : List Nat) (t : State), t.Governs (t.each l fun s i => ((s.pmSend i pmOperation false [0x80] 0).pmSend i pmVoutMode true [] 0).pmRate i)
      ∧ (t.each l fun s i => ((s.pmSend i pmOperation false [0x80] 0).pmSend i pmVoutMode true [] 0).pmRate i).gov.setpoints = t.gov.setpoints
      ∧ ∀ r ∈ l, ∃ f ∈ (t.each l fun s i => ((s.pmSend i pmOperation false [0x80] 0).pmSend i pmVoutMode true [] 0).pmRate i).gov.bus, f.rail = r ∧ f.code = 0x01 := fun l => by
    induction l with
    | nil => exact fun t => ⟨.refl t, rfl, fun r hr => absurd hr List.not_mem_nil⟩
    | cons i l ih =>
      intro t
      obtain ⟨h1, hs1, f, hf, hfr⟩ := hturn t i
      obtain ⟨h2, hs2, hall⟩ := ih (((t.pmSend i pmOperation false [0x80] 0).pmSend i pmVoutMode true [] 0).pmRate i)
      refine ⟨h1.trans h2, hs2.trans hs1, fun r hr => ?_⟩
      rcases List.mem_cons.mp hr with rfl | hr
      · exact ⟨f, h2.bus.subset hf, hfr⟩
      · exact hall r hr
  have hset : ∀ (l : List Nat) (t : State), t.Governs (t.each l State.pmSetpoint) ∧ ∀ r ∈ l, ∃ f ∈ (t.each l State.pmSetpoint).gov.bus, f.rail = r ∧ f.code = 0x21 := fun l => by
    induction l with
    | nil => exact fun t => ⟨.refl t, fun r hr => absurd hr List.not_mem_nil⟩
    | cons i l ih =>
      intro t
      obtain ⟨h1, f, hf, hfr⟩ := t.pmSetpoint_governs i
      obtain ⟨h2, hall⟩ := ih (t.pmSetpoint i)
      refine ⟨h1.trans h2, fun r hr => ?_⟩
      rcases List.mem_cons.mp hr with rfl | hr
      · exact ⟨f, h2.bus.subset hf, hfr⟩
      · exact hall r hr
  have hclear : s.Governs { s with gov := { s.gov with setpoints := List.replicate 9 none } } := ⟨rfl, List.prefix_refl _, fun _ => rfl, fun _ => id⟩
  obtain ⟨h1, hs1, hon⟩ := hloop s.presentRails { s with gov := { s.gov with setpoints := List.replicate 9 none } }
  have hdef : s.pmStart = (({ s with gov := { s.gov with setpoints := List.replicate 9 none } } : State).each s.presentRails fun s i =>
    ((s.pmSend i pmOperation false [0x80] 0).pmSend i pmVoutMode true [] 0).pmRate i).retarget := rfl
  rw [hdef]
  generalize (({ s with gov := { s.gov with setpoints := List.replicate 9 none } } : State).each s.presentRails fun s i => ((s.pmSend i pmOperation false [0x80] 0).pmSend i pmVoutMode true [] 0).pmRate i) = t at *
  have hst := hclear.trans h1
  obtain ⟨h2, hall⟩ := hset ((List.range 9).filter t.pmDue) t
  refine ⟨hst.trans h2, fun r hr hp hu => ?_⟩
  obtain ⟨f, hf, hfr⟩ := hon r (s.presentRails_mem.mpr ⟨hr, hp⟩)
  refine ⟨⟨f, h2.bus.subset hf, hfr⟩, hall r (List.mem_filter.mpr ⟨List.mem_range.mpr hr, ?_⟩)⟩
  have hboot : t.boot = s.boot := (congrArg State.boot hst.frame).trans rfl
  have hnone : (List.replicate 9 (none : Option Nat)).getD r none = none := by
    rw [List.getD_eq_getElem?_getD, List.getElem?_replicate]
    split <;> rfl
  rw [State.pmDue, hboot, hstep, hst.present, hp, decide_eq_true (hst.reached r hu), hs1, hnone]
  simp

/-! ### The Spine and the links (R523, R524, R820, R835) -/

theorem State.reloadPatch_shape (s : State) : ∃ sp b, s.reloadPatch = { s with spine := sp, boot := { s.boot with patchNone := b } } := by
  unfold State.reloadPatch
  split
  · exact ⟨_, _, rfl⟩
  · exact ⟨_, _, rfl⟩

/-- A link that begins to train keeps its place. -/
theorem State.trainLink_shape (s : State) (k : LinkId) : (∃ ls ks, s.trainLink k = { s with lanes := ls, links := ks })
    ∧ (∀ j, j ≠ k → (s.trainLink k).link j = s.link j)
    ∧ (s.trainLink k).link k = if (s.link k).isDefined && decide ((s.link k).phase = .down) then { s.link k with phase := .training, trainPhase := 1 } else s.link k := by
  unfold State.trainLink
  dsimp only
  split
  next h =>
    have hlanes : ∀ (l : List LaneId), ∃ ls, (s.each l fun s n => s.modLane n fun x => if x.trains then { x with phase := .training } else x) = { s with lanes := ls } := fun l =>
      List.foldlRecOn (motive := fun t : State => ∃ ls, t = { s with lanes := ls }) l _ ⟨_, rfl⟩ fun t ⟨ls, ht⟩ n _ => by subst ht; exact ⟨_, rfl⟩
    obtain ⟨ls, hls⟩ := hlanes (s.link k).lanes
    rw [hls]
    refine ⟨⟨_, _, rfl⟩, fun j hj => State.link_modLink_other _ _ _ _ hj, ?_⟩
    exact State.link_modLink_same _ _ _
  next h => exact ⟨⟨_, _, rfl⟩, fun _ _ => rfl, rfl⟩

theorem State.trainAll_shape (l : List LinkId) (hl : l.Nodup) (s : State) : (∃ ls ks, s.each l State.trainLink = { s with lanes := ls, links := ks })
    ∧ ∀ k, (s.each l State.trainLink).link k = if k ∈ l then (if (s.link k).isDefined && decide ((s.link k).phase = .down) then { s.link k with phase := .training, trainPhase := 1 } else s.link k) else s.link k := by
  induction l generalizing s with
  | nil => exact ⟨⟨_, _, rfl⟩, fun k => (if_neg List.not_mem_nil).symm⟩
  | cons g l ih =>
    obtain ⟨hg, hl⟩ := List.nodup_cons.mp hl
    obtain ⟨⟨ls, ks, h1⟩, hother, hsame⟩ := s.trainLink_shape g
    obtain ⟨⟨ls', ks', h2⟩, hlink⟩ := ih hl (s.trainLink g)
    refine ⟨⟨ls', ks', h2.trans (by rw [h1])⟩, fun k => (hlink k).trans ?_⟩
    rcases eq_or_ne k g with rfl | hk
    · rw [if_neg hg, if_pos List.mem_cons_self, hsame]
    · rw [hother k hk]
      simp [hk]

/-- A link as the partition record has it. -/
def Link.ofPartition (ws : List Word) (k : Nat) : Link :=
  match partLink ws k with
  | some (b, w) => { Link.reset with isDefined := true, base := b, width := w }
  | none => Link.reset

/-- The chip with the partition in force. -/
def State.partitioned (s : State) : State :=
  { s with
    links := Vector.ofFn fun k => Link.ofPartition s.flash.partition k.val
    boot := { s.boot with partitionDefault := !partValid s.flash.partition, step := 4 } }

theorem State.bootSpine_eq (s : State) : s.bootSpine = s.partitioned.reloadPatch.each (List.finRange 8) State.trainLink := rfl

/-- Without a valid record the first two links halve the lanes. -/
theorem Link.ofPartition_default {ws : List Word} (h : partValid ws = false) (k : LinkId) :
    Link.ofPartition ws k.val = if k.val < 2 then { Link.reset with isDefined := true, base := 8 * k.val, width := 8 } else Link.reset := by
  have hlink : partLink ws k.val = if k.val < 2 then some (8 * k.val, 8) else none := by
    rw [partLink, h, if_neg Bool.false_ne_true]
    by_cases h0 : k.val = 0
    · rw [if_pos h0, if_pos (by omega), h0]
    · by_cases h1 : k.val = 1
      · rw [if_neg h0, if_pos h1, if_pos (by omega), h1]
      · rw [if_neg h0, if_neg h1, if_neg (by omega)]
  rw [Link.ofPartition, hlink]
  by_cases hk : k.val < 2
  · rw [if_pos hk, if_pos hk]
  · rw [if_neg hk, if_neg hk]

theorem State.bootSpine_spec (s : State) : s.bootSpine.boot.step = 4 ∧ s.bootSpine.quires = s.quires
    ∧ (partValid s.flash.partition = false → s.bootSpine.boot.partitionDefault = true ∧ ∀ k : LinkId,
        (s.bootSpine.link k).isDefined = decide (k.val < 2) ∧ (k.val < 2 → (s.bootSpine.link k).base = 8 * k.val ∧ (s.bootSpine.link k).width = 8 ∧ (s.bootSpine.link k).phase = .training)) := by
  rw [State.bootSpine_eq]
  obtain ⟨sp, b, hpatch⟩ := s.partitioned.reloadPatch_shape
  have hlinkp : ∀ k, s.partitioned.reloadPatch.link k = Link.ofPartition s.flash.partition k.val := fun k => by
    rw [hpatch]
    show (Vector.ofFn fun k : LinkId => Link.ofPartition s.flash.partition k.val)[k] = _
    exact Vector.getElem_ofFn k.isLt
  obtain ⟨⟨ls, ks, htrain⟩, hlink⟩ := State.trainAll_shape (List.finRange 8) (List.nodup_finRange 8) s.partitioned.reloadPatch
  generalize s.partitioned.reloadPatch.each (List.finRange 8) State.trainLink = t at *
  rw [hpatch] at htrain
  refine ⟨by rw [htrain]; rfl, by rw [htrain]; rfl, fun hbad => ⟨by rw [htrain]; exact congrArg (!·) hbad, fun k => ?_⟩⟩
  have hk := hlink k
  rw [if_pos (List.mem_finRange k), hlinkp, Link.ofPartition_default hbad] at hk
  by_cases h2 : k.val < 2
  · rw [if_pos h2] at hk
    replace hk := hk.trans (if_pos rfl)
    rw [hk]
    exact ⟨(decide_eq_true h2).symm, fun _ => ⟨rfl, rfl, rfl⟩⟩
  · rw [if_neg h2] at hk
    replace hk := hk.trans (if_neg Bool.false_ne_true)
    rw [hk]
    exact ⟨(decide_eq_false h2).symm, fun h => absurd h h2⟩

/-! ### The end of a step -/

/-- The chip with the time of boot noted. -/
def State.bootNoted (s : State) (ms : Nat) : State := { s with boot := { s.boot with ms := min 0xFFFF ms } }

/-- The links that are up, as BOOT_STATUS shows them. -/
def State.upMask (s : State) : Byte := BitVec.ofNat 8 ((((List.finRange 8).filter fun k : LinkId => s.linkUp k).map fun k => 2 ^ k.val).sum)

theorem State.upMask_getLsbD (s : State) (k : LinkId) : s.upMask.getLsbD k.val = true ↔ (s.link k).phase = .up ∨ (s.link k).phase = .changing := by
  have hsum : (((List.finRange 8).filter fun k : LinkId => s.linkUp k).map fun k => 2 ^ k.val).sum = ((List.finRange 8).filter fun k : LinkId => s.linkUp k).foldl (fun a q => a + 2 ^ q.val) 0 := by
    rw [List.sum_eq_foldl, List.foldl_map]
  rw [State.upMask, hsum, getLsbD_maskOf, State.linkUp, Bool.or_eq_true, decide_eq_true_eq, decide_eq_true_eq]

/-- What the end of boot step `n` leaves. -/
def State.bootStep (s : State) (ms : Nat) (ranks : List (BitVec 3)) : Nat → State
  | 1 => { s with boot := { s.boot with ms := min 0xFFFF ms, step := 2 } }
  | 2 => if s.clock.xo = .good then { s with boot := { s.boot with ms := min 0xFFFF ms, step := 3 } } else s.bootNoted ms
  | 3 => (s.bootNoted ms).bootSpine
  | 4 => if (List.finRange 8).any fun k : LinkId => (s.link k).phase = .training then s.bootNoted ms
    else { s with boot := { s.boot with ms := min 0xFFFF ms, step := 5, linksUp := s.upMask } }
  | 5 => (s.bootNoted ms).bootTiming
  | 6 => (s.bootNoted ms).bootStore
  | 7 => (s.bootNoted ms).bootDram ranks
  | _ => (s.bootNoted ms).bootQuires

theorem bootStepDone_eq (s : State) (ms : Nat) (ranks : List (BitVec 3)) (h0 : s.boot.step ≠ 0) (h9 : s.boot.step < 9) : bootStepDone ms ranks s = s.bootStep ms ranks s.boot.step := by
  rw [bootStepDone, if_neg (by omega)]
  rfl

/-- A state of boot does not look at the step but through the field. -/
theorem exec_bootStepDone {s : State} {n : Nat} (h : s.boot.step = n) (h0 : n ≠ 0) (h9 : n < 9) (ms : Nat) (ranks : List (BitVec 3)) : exec (.bootStepDone ms ranks) s = .next (s.bootStep ms ranks n) := by
  rw [← h]
  exact congrArg Host.Outcome.next (bootStepDone_eq s ms ranks (by omega) (by omega))

/-- A quire that leaves OFF is PARKED with its staging copy at reset. -/
theorem State.leaveOff_quire (s : State) (q : QId) : (∃ qs, s.leaveOff q = { s with quires := qs }) ∧ (∀ r, r ≠ q → (s.leaveOff q).quire r = s.quire r)
    ∧ ((s.leaveOff q).quire q).state = .parked ∧ ((s.leaveOff q).quire q).staging = [] := by
  have h := s.leaveOff_setQuire q (s.quire q)
  rw [s.setQuire_quire q] at h
  rw [h]
  refine ⟨⟨_, rfl⟩, fun r hr => State.quire_setQuire_other _ _ _ _ hr, ?_⟩
  rw [State.quire_setQuire_same]
  cases s.mendedPin q with
  | none => exact ⟨rfl, rfl⟩
  | some p => exact ⟨rfl, rfl⟩

theorem State.leaveAll_quire (l : List QId) (hl : l.Nodup) (s : State) : (∃ qs, s.each l State.leaveOff = { s with quires := qs })
    ∧ ∀ q, (q ∈ l → ((s.each l State.leaveOff).quire q).state = .parked ∧ ((s.each l State.leaveOff).quire q).staging = []) ∧ (q ∉ l → (s.each l State.leaveOff).quire q = s.quire q) := by
  induction l generalizing s with
  | nil => exact ⟨⟨_, rfl⟩, fun q => ⟨fun h => absurd h List.not_mem_nil, fun _ => rfl⟩⟩
  | cons g l ih =>
    obtain ⟨hg, hl⟩ := List.nodup_cons.mp hl
    obtain ⟨⟨qs, h1⟩, hother, hparked⟩ := s.leaveOff_quire g
    obtain ⟨⟨qs', h2⟩, hall⟩ := ih hl (s.leaveOff g)
    have hstep : s.each (g :: l) State.leaveOff = (s.leaveOff g).each l State.leaveOff := rfl
    rw [hstep]
    refine ⟨⟨qs', by rw [h2, h1]⟩, fun q => ⟨fun hq => ?_, fun hq => ?_⟩⟩
    · rcases List.mem_cons.mp hq with rfl | hq
      · rw [(hall q).2 hg]
        exact hparked
      · exact (hall q).1 hq
    · obtain ⟨hne, hnot⟩ := List.ne_and_not_mem_of_not_mem_cons hq
      rw [(hall q).2 hnot, hother q hne]

/-! ### The calibration store and the channels (R491 to R493, R810, R811) -/

/-- The quire as step 6 leaves it, but for its calibration data and board word. -/
def Quire.stored (x : Quire) (ticks : Nat) : Quire := { x.moveVpin ticks 1200 with heldStream := false }

/-- Of a bank's data a quire holds its calibration data and its board word. -/
theorem Quire.loaded_eq {x y : Quire} {b : CalBank} {n ticks : Nat} (h : y = (x.loadBank b n).stored ticks) :
    y = { x with vpinSetpoint := 1200, vpinFrom := x.vpinRamp ticks, vpinSince := ticks, heldStream := false, cal := y.cal, dram := { x.dram with board := b.dram.getD n 0 } } := by
  subst h
  rfl

/-- The chip with bank `i` in force, before the governor starts. -/
def State.withBank (s : State) (i : Bool) : State :=
  { s with
    cal := { s.cal with storeValid := true, bank := i, generation := s.flash.banks[bankId i].generation }
    quires := Vector.ofFn fun q => s.quires[q].loadBank s.flash.banks[bankId i] q.val
    gov := { s.gov with rails := (List.range 9).map fun r => RailView.ofBoard (s.flash.banks[bankId i].rails.getD r 0) } }

theorem State.withBank_quire (s : State) (i : Bool) (q : QId) : (s.withBank i).quire q = (s.quire q).loadBank s.flash.banks[bankId i] q.val := Vector.getElem_ofFn q.isLt

theorem State.withBank_rail (s : State) (i : Bool) {r : Nat} (hr : r < 9) : (s.withBank i).rail r = RailView.ofBoard (s.flash.banks[bankId i].rails.getD r 0) := by
  simp [State.rail, State.withBank, List.getD_eq_getElem?_getD, hr]

/-- The chip without a valid bank. -/
def State.withoutBank (s : State) : State := { s with cal := { s.cal with storeValid := false }, boot := { s.boot with storeInvalid := true } }

/-- The chip with the store settled: VPINq of every quire begins to move, and the governor and the interpreter start. -/
def State.storeSettled (s : State) : State := { s with quires := s.quires.map fun (q : Quire) => q.moveVpin s.time.ticks 1200, boot := { s.boot with step := 7 } }

theorem State.bootStore_eq (s : State) : s.bootStore = (match s.flash.bestBank with | some i => s.withBank i | none => s.withoutBank).storeSettled.pmStart.resume := by
  unfold State.bootStore
  cases s.flash.bestBank with
  | some i => rfl
  | none => rfl

theorem State.storeSettled_spec (s : State) (hp : s.heldPackets = []) (hr : s.heldReplies = []) (ht : s.heldTimes = []) :
    s.storeSettled.pmStart.resume.boot = { s.boot with step := 7 } ∧ s.storeSettled.pmStart.resume.cal = s.cal ∧ (∀ q, s.storeSettled.pmStart.resume.quire q = (s.quire q).stored s.time.ticks)
      ∧ ∀ r < 9, (s.rail r).present = true → (s.rail r).state ≠ .unreachable →
        (∃ f ∈ s.storeSettled.pmStart.resume.gov.bus, f.rail = r ∧ f.code = 0x01) ∧ ∃ f ∈ s.storeSettled.pmStart.resume.gov.bus, f.rail = r ∧ f.code = 0x21 := by
  obtain ⟨hgov, hbus⟩ := s.storeSettled.pmStart_governs rfl
  have hsq : ∀ q, s.storeSettled.quire q = (s.quire q).moveVpin s.time.ticks 1200 := fun q => Vector.getElem_map (fun q : Quire => q.moveVpin s.time.ticks 1200) q.isLt
  obtain ⟨hboot, hcal, hquires, hpk, hrp, htm⟩ := hgov.keeps
  have hsettled : s.storeSettled.boot = { s.boot with step := 7 } ∧ s.storeSettled.cal = s.cal ∧ s.storeSettled.heldPackets = s.heldPackets ∧ s.storeSettled.heldReplies = s.heldReplies
    ∧ s.storeSettled.heldTimes = s.heldTimes ∧ ∀ r, s.storeSettled.rail r = s.rail r := ⟨rfl, rfl, rfl, rfl, rfl, fun _ => rfl⟩
  generalize s.storeSettled = u at *
  generalize u.pmStart = t at *
  obtain ⟨hsb, hsc, hsp, hsr, hst, hrail⟩ := hsettled
  obtain ⟨hans, hquire⟩ := t.resume_idle (by rw [hpk, hsp, hp]) (by rw [hrp, hsr, hr]) (by rw [htm, hst, ht])
  have hrest : t.resume.gov.bus = t.gov.bus ∧ t.resume.boot = t.boot ∧ t.resume.cal = t.cal := by
    rw [hans.frame]
    exact ⟨rfl, rfl, rfl⟩
  obtain ⟨hgbus, hrb, hrc⟩ := hrest
  refine ⟨by rw [hrb, hboot, hsb], by rw [hrc, hcal, hsc], fun q => ?_, fun r hr hpres hstate => ?_⟩
  · rw [hquire, State.quire_congr u t q hquires, hsq]
    rfl
  · rw [hgbus]
    exact hbus r hr (by rw [hrail]; exact hpres) (by rw [hrail]; exact hstate)

/-- The bank of the higher generation is the one in force. -/
theorem Flash.bestBank_newer {f : Flash} {i : Fin 2} (hi : f.banks[i].valid = true) (hj : f.banks[1 - i].valid = true) (hlt : f.banks[1 - i].generation < f.banks[i].generation) :
    f.bestBank = some (decide (i = 1)) := by
  unfold Flash.bestBank
  have hcases : i = 0 ∨ i = 1 := by omega
  rcases hcases with rfl | rfl
  · have h0 : f.banks[bankId false].valid = true := hi
    have h1 : f.banks[bankId true].valid = true := hj
    have hlt' : f.banks[bankId true].generation < f.banks[bankId false].generation := hlt
    simp only [h0, h1, decide_eq_true (le_of_lt hlt')]
    rfl
  · have h0 : f.banks[bankId false].valid = true := hj
    have h1 : f.banks[bankId true].valid = true := hi
    have hlt' : f.banks[bankId false].generation < f.banks[bankId true].generation := hlt
    simp only [h0, h1, decide_eq_false (not_le.mpr hlt')]
    rfl

theorem Flash.bestBank_none {f : Flash} (h0 : f.banks[0].valid = false) (h1 : f.banks[1].valid = false) : f.bestBank = none := by
  have h0' : f.banks[bankId false].valid = false := h0
  have h1' : f.banks[bankId true].valid = false := h1
  simp only [Flash.bestBank, h0', h1']
  rfl

theorem State.bootStore_step (s : State) (hp : s.heldPackets = []) (hr : s.heldReplies = []) (ht : s.heldTimes = []) : s.bootStore.boot.step = 7 := by
  rw [State.bootStore_eq]
  cases s.flash.bestBank with
  | some i =>
    obtain ⟨hboot, -⟩ := (s.withBank i).storeSettled_spec hp hr ht
    dsimp only
    rw [hboot]
  | none =>
    obtain ⟨hboot, -⟩ := s.withoutBank.storeSettled_spec hp hr ht
    dsimp only
    rw [hboot]

/-- With two valid banks the newer one is in force, and its rails are started. -/
theorem State.bootStore_some (s : State) {i : Fin 2} (hi : s.flash.banks[i].valid = true) (hj : s.flash.banks[1 - i].valid = true) (hlt : s.flash.banks[1 - i].generation < s.flash.banks[i].generation)
    (hp : s.heldPackets = []) (hr : s.heldReplies = []) (ht : s.heldTimes = []) :
    s.bootStore.cal.storeValid = true ∧ s.bootStore.cal.bank = decide (i = 1) ∧ s.bootStore.cal.generation = s.flash.banks[i].generation
      ∧ (∀ q, s.bootStore.quire q = { s.quire q with
          vpinSetpoint := 1200, vpinFrom := (s.quire q).vpinRamp s.time.ticks, vpinSince := s.time.ticks, heldStream := false, cal := (s.bootStore.quire q).cal
          dram := { (s.quire q).dram with board := s.flash.banks[i].dram.getD q.val 0 } })
      ∧ ∀ r < 9, bit (s.flash.banks[i].rails.getD r 0) 31 = true → (∃ f ∈ s.bootStore.gov.bus, f.rail = r ∧ f.code = 0x01) ∧ ∃ f ∈ s.bootStore.gov.bus, f.rail = r ∧ f.code = 0x21 := by
  have hbank : s.flash.banks[bankId (decide (i = 1))] = s.flash.banks[i] := by
    have hid : bankId (decide (i = 1)) = i := by
      fin_cases i <;> rfl
    simp only [hid]
  have hstore : s.bootStore = (s.withBank (decide (i = 1))).storeSettled.pmStart.resume := by rw [State.bootStore_eq, Flash.bestBank_newer hi hj hlt]
  obtain ⟨-, hcal, hquire, hbus⟩ := (s.withBank (decide (i = 1))).storeSettled_spec hp hr ht
  rw [← hstore] at hcal hquire hbus
  generalize s.bootStore = t at *
  refine ⟨congrArg CalStore.storeValid hcal, congrArg CalStore.bank hcal, (congrArg CalStore.generation hcal).trans ?_, fun q => ?_, fun r hr' hb => ?_⟩
  · exact congrArg CalBank.generation hbank
  · refine Quire.loaded_eq ((hquire q).trans ?_)
    rw [State.withBank_quire, hbank]
    rfl
  · have hrail : (s.withBank (decide (i = 1))).rail r = RailView.ofBoard (s.flash.banks[i].rails.getD r 0) := by rw [State.withBank_rail _ _ hr', hbank]
    refine hbus r hr' ?_ ?_
    · rw [hrail]
      exact hb
    · rw [hrail, RailView.ofBoard, hb]
      exact RailState.noConfusion

theorem State.bootStore_none (s : State) (h0 : s.flash.banks[0].valid = false) (h1 : s.flash.banks[1].valid = false) (hp : s.heldPackets = []) (hr : s.heldReplies = []) (ht : s.heldTimes = []) :
    s.bootStore.cal.storeValid = false ∧ s.bootStore.boot.storeInvalid = true
      ∧ ∀ q, s.bootStore.quire q = { s.quire q with vpinSetpoint := 1200, vpinFrom := (s.quire q).vpinRamp s.time.ticks, vpinSince := s.time.ticks, heldStream := false } := by
  have hstore : s.bootStore = s.withoutBank.storeSettled.pmStart.resume := by rw [State.bootStore_eq, Flash.bestBank_none h0 h1]
  obtain ⟨hboot, hcal, hquire, -⟩ := s.withoutBank.storeSettled_spec hp hr ht
  rw [← hstore] at hboot hcal hquire
  generalize s.bootStore = t at *
  exact ⟨congrArg CalStore.storeValid hcal, congrArg Boot.storeInvalid hboot, fun q => (hquire q).trans rfl⟩

theorem State.startBoot_eq (s : State) : s.startBoot = { s with
    log := if s.boot.vsramFallen then SinterLog.reset else s.log, boot := { Boot.reset with step := 1, resetNLow := false, vsramFallen := false, scan := s.boot.scan } } := by
  unfold State.startBoot
  cases s.boot.vsramFallen with
  | true => rfl
  | false => rfl

/-- The timing domain starts on the recovered clock where it is good, and otherwise on the XO. -/
theorem State.bootTiming_src (s : State) : s.bootTiming.clock.timingSrc =
    if s.clock.recovered = .good ∧ bit (s.reg (rk 1 0)) 0 = true then .recovered else if s.clock.xo = .good then .xo else .none := by
  have hsrc : s.bootTiming.clock.timingSrc = ({ s with clock := { s.clock with next := if s.recGood then .recovered else .xo }, boot := { s.boot with step := 6 } } : State).pickSource := rfl
  have hgood : ({ s with clock := { s.clock with next := if s.recGood then .recovered else .xo }, boot := { s.boot with step := 6 } } : State).recGood = s.recGood := rfl
  have hiff : s.recGood = true ↔ s.clock.recovered = .good ∧ bit (s.reg (rk 1 0)) 0 = true := by rw [State.recGood, Bool.and_eq_true, decide_eq_true_eq, State.recEn]
  rw [hsrc, State.pickSource, hgood]
  by_cases hr : s.recGood = true
  · rw [if_pos (hiff.mp hr), hr]
    rfl
  · rw [if_neg (hiff.not.mp hr), Bool.eq_false_iff.mpr hr]
    show (if decide (s.clock.xo = .good) = true then TimingSrc.xo else TimingSrc.none) = _
    exact if_congr decide_eq_true_iff rfl rfl

/-! ### The training of a channel (R491 to R493) -/

/-- A physical rank that the board has and that trained. -/
def Dram.trained (d : Dram) (good : BitVec 3) (i : Nat) : Bool := good.getLsbD i && bit d.board i

theorem Dram.trained_of {d : Dram} {good : BitVec 3} {i : Nat} (hg : good.getLsbD i = true) (hb : d.board.getLsbD i = true) : d.trained good i = true := by
  rw [Dram.trained, hg, bit, hb]
  rfl

theorem Dram.trained_not {d : Dram} {good : BitVec 3} {i : Nat} (hg : good.getLsbD i = false) : d.trained good i = false := by
  rw [Dram.trained, hg]
  rfl

section
variable (d : Dram) {good : BitVec 3} (hboard : fld d.board 28 2 ≠ 3)
include hboard

theorem Dram.train_eq : d.train true good =
    if d.trained good 0 && d.trained good 1 && d.trained good 2 then { d with available := true, spareOk := true, trainResult := 0, ranks := #v[.active, .active, .spare], physL0 := 0, physL1 := 1 }
    else if d.trained good 0 && d.trained good 1 then { d with available := true, trainResult := 2, ranks := #v[.active, .active, .failed], physL0 := 0, physL1 := 1 }
    else if d.trained good 2 && (d.trained good 0 || d.trained good 1) then
      { d with available := true, trainResult := 1
               ranks := #v[if d.trained good 0 then .active else .failed, if d.trained good 1 then .active else .failed, .active]
               physL0 := if d.trained good 0 then 0 else 2, physL1 := if d.trained good 1 then 1 else 2 }
    else { d with available := false, trainResult := 3 } := by
  rw [Dram.train]
  exact if_neg (by simpa using hboard)

theorem Dram.train_both (h0 : d.trained good 0 = true) (h1 : d.trained good 1 = true) :
    (d.train true good).available = true ∧ (d.train true good).physL0 = 0 ∧ (d.train true good).physL1 = 1
      ∧ (d.trained good 2 = true → (d.train true good).spareOk = true ∧ (d.train true good).ranks = #v[.active, .active, .spare]) := by
  rw [d.train_eq hboard, h0, h1]
  cases d.trained good 2 with
  | true => exact ⟨rfl, rfl, rfl, fun _ => ⟨rfl, rfl⟩⟩
  | false => exact ⟨rfl, rfl, rfl, fun h => by cases h⟩

theorem Dram.train_spare (h0 : d.trained good 0 = true) (h1 : d.trained good 1 = false) (h2 : d.trained good 2 = true) :
    (d.train true good).available = true ∧ (d.train true good).physL0 = 0 ∧ (d.train true good).physL1 = 2 ∧ (d.train true good).ranks = #v[.active, .failed, .active] := by
  rw [d.train_eq hboard, h0, h1, h2]
  exact ⟨rfl, rfl, rfl, rfl⟩

end

theorem Dram.train_invalid (d : Dram) (good : BitVec 3) : (d.train false good).available = false := rfl

end Sys2Proof.Machine

namespace Sys2Proof.Proofs
open Sys2Proof.Machine

/-- Settles O31: each step of boot by what it leaves. -/
theorem bootSteps : Obligations.BootSteps := by
  intro s ball ms ranks done noted untrained goodRanks ramped
  refine ⟨rfl, rfl, fun hlow hrail hscan hstep => ?_, fun hlow hheld => ?_, fun h => ?_, fun h => ?_, fun h => ?_, fun h hun => ?_, fun h => ?_, fun h hp hr ht => ?_, fun h => ?_, fun h => ?_⟩
  · have hheld : ({ s with modeOz := ball, boot := { s.boot with resetNLow := false } } : State).held = false := by
      show (false || s.boot.railFallen || s.boot.scan.holds) = false
      rw [hrail, hscan]
      rfl
    refine congrArg Host.Outcome.next ?_
    rw [bootStart, hlow]
    refine (if_neg (by decide)).trans ((if_neg ?_).trans ?_)
    · rw [if_pos rfl, hheld, decide_eq_false (fun hc => hc hstep)]
      exact Bool.false_ne_true
    · rw [if_pos rfl]
      exact State.startBoot_eq { s with modeOz := ball, boot := { s.boot with resetNLow := false } }
  · have hheld' : ({ s with modeOz := ball, boot := { s.boot with resetNLow := false } } : State).held = true := by
      show (false || s.boot.railFallen || s.boot.scan.holds) = true
      rcases hheld with hh | hh
      · rw [hh]
        rfl
      · rw [hh, Bool.or_true]
    refine congrArg Host.Outcome.next ?_
    rw [bootStart, hlow]
    refine (if_neg (by decide)).trans ((if_pos ?_).trans (if_pos rfl))
    rw [if_pos rfl, hheld']
    rfl
  · exact exec_bootStepDone h (by decide) (by decide) ms ranks
  · refine (exec_bootStepDone h (by decide) (by decide) ms ranks).trans (congrArg Host.Outcome.next ?_)
    by_cases hx : s.clock.xo = .good
    · exact (if_pos hx).trans (by rw [if_pos hx])
    · refine (if_neg hx).trans ?_
      rw [if_neg hx, ← h]
      rfl
  · have hex : exec done s = .next (s.bootNoted ms).bootSpine := exec_bootStepDone h (by decide) (by decide) ms ranks
    obtain ⟨hstep, hquires, hpart⟩ := (s.bootNoted ms).bootSpine_spec
    exact ⟨_, hex, hstep, hquires, hpart⟩
  · refine ⟨s.upMask, (exec_bootStepDone h (by decide) (by decide) ms ranks).trans (congrArg Host.Outcome.next (if_neg ?_)), s.upMask_getLsbD⟩
    simpa using hun
  · refine ⟨_, exec_bootStepDone h (by decide) (by decide) ms ranks, rfl, rfl, ?_, rfl⟩
    exact (s.bootNoted ms).bootTiming_src
  · have hex : exec done s = .next (s.bootNoted ms).bootStore := exec_bootStepDone h (by decide) (by decide) ms ranks
    refine ⟨_, hex, (s.bootNoted ms).bootStore_step hp hr ht, fun i hi hj hlt => ?_, fun h0 h1 => (s.bootNoted ms).bootStore_none h0 h1 hp hr ht⟩
    exact (s.bootNoted ms).bootStore_some hi hj hlt hp hr ht
  · refine ⟨_, exec_bootStepDone h (by decide) (by decide) ms ranks, rfl, fun q => ?_⟩
    have hq : ((s.bootNoted ms).bootDram ranks).quire q = { s.quire q with dram := (s.quire q).dram.train s.cal.storeValid (goodRanks q) } := Vector.getElem_ofFn q.isLt
    rw [show s.bootStep ms ranks 7 = (s.bootNoted ms).bootDram ranks from rfl, hq]
    refine ⟨rfl, fun hv b0 b1 h28 => ⟨fun g0 g1 => ?_, fun g0 g1 g2 b2 => ?_⟩, fun hv => ?_⟩
    · rw [hv]
      obtain ⟨hav, hl0, hl1, hspare⟩ := (s.quire q).dram.train_both h28 (Dram.trained_of g0 b0) (Dram.trained_of g1 b1)
      exact ⟨hav, hl0, hl1, fun g2 b2 => hspare (Dram.trained_of g2 b2)⟩
    · rw [hv]
      exact (s.quire q).dram.train_spare h28 (Dram.trained_of g0 b0) (Dram.trained_not g1) (Dram.trained_of g2 b2)
    · rw [hv]
      exact (s.quire q).dram.train_invalid (goodRanks q)
  · refine ⟨_, exec_bootStepDone h (by decide) (by decide) ms ranks, ?_⟩
    have hex : s.bootStep ms ranks 8 = (s.bootNoted ms).bootQuires := rfl
    have hmem : ∀ q, q ∈ ((List.finRange 8).filter fun q => (s.quire q).vpinHeld) ↔ (s.quire q).vpinHeld = true := fun q => by simp
    have hdef : (s.bootNoted ms).bootQuires = ({ s with boot := { s.boot with ms := min 0xFFFF ms, step := 9 } } : State).each ((List.finRange 8).filter fun q => (s.quire q).vpinHeld) State.leaveOff := rfl
    obtain ⟨⟨qs, hframe⟩, hall⟩ := State.leaveAll_quire ((List.finRange 8).filter fun q => (s.quire q).vpinHeld) ((List.nodup_finRange 8).filter _) { s with boot := { s.boot with ms := min 0xFFFF ms, step := 9 } }
    rw [hex, hdef]
    refine ⟨by rw [hframe], fun q => ⟨fun hq => (hall q).1 ((hmem q).mpr hq), fun hq => ((hall q).2 fun hin => ?_).trans rfl⟩⟩
    rw [(hmem q).mp hin] at hq
    cases hq

end Sys2Proof.Proofs
end

section

/-! # KC_SEND_PING of a packet that asks for a TIME_LOAD

The two rows of `KC_SEND` are told apart by the operation that the word asks for: a packet that asks for a TIME_LOAD is not the row of PING, which then
does nothing and answers nothing, whatever the chip's role in the chain. -/

namespace Sys2Proof.Machine

/-- The chip with link 0 up and the steward's session open on it; its role in the kettle chain is OFF. -/
def stewarded : State :=
  { State.reset with
    boot := { Boot.reset with step := 9, resetNLow := false, vsramFallen := false }
    sessions := (Vector.replicate 8 Session.reset).set 0 { Session.reset with isOpen := true, steward := true, handle := 8, generation := 1 }
    links := (Vector.replicate 8 Link.reset).set 0 { Link.reset with isDefined := true, width := 16, phase := .up, inService := 0xFF, rxService := 0xFF } }

/-- The parameters of a WRITE_CFG of `KC_SEND` that asks for a TIME_LOAD. -/
def sendTimeLoad : Params := [0x04, 0x01, 0x30, 0x00, 0x00, 0x00, 0x00, 0x10]

/-- That WRITE_CFG on link 0, before its checksum is filled in. -/
def sendTimeLoadHead : Hdr :=
  { link := 0, cls := .ctrl, crc := 0, reads := { word := 0, outcome := .good, corrupt := [] }, version := 1, session := 8, tag := 1, qmask := 0, flags := 0, length := 8, detail := 0, rsv := 0 }

/-- That WRITE_CFG on link 0. -/
def sendTimeLoadHdr : Hdr := { sendTimeLoadHead with crc := crc32c (headerBytes sendTimeLoadHead opWriteCfg.opcode ++ sendTimeLoad) }

theorem stewarded_takes : stewarded.Takes opWriteCfg sendTimeLoadHdr sendTimeLoad := by
  have hbuf : stewarded.buffered sendTimeLoadHdr.link sendTimeLoadHdr.cls = none := by decide +kernel
  have hnew : tagUse opWriteCfg sendTimeLoadHdr stewarded = .new := tagUse_fresh fun _ => ⟨by unfold State.TagBusy; decide +kernel, by decide +kernel⟩
  exact ⟨by decide +kernel, by decide +kernel, by decide +kernel, hnew, by decide +kernel, by decide +kernel, by decide +kernel, by decide +kernel, by decide +kernel,
    by decide +kernel, fun bytes hb => absurd (hbuf.symm.trans hb) (by simp)⟩

/-- The packet is not the row of PING, which leaves the chip as it is. -/
theorem kcSendPing_other : exec (.kcSendPing sendTimeLoadHdr sendTimeLoad) stewarded = .next stewarded := by
  have hbuf : stewarded.buffered sendTimeLoadHdr.link sendTimeLoadHdr.cls = none := by decide +kernel
  have hmine : kcSendRow 2 (stewarded.arriving opWriteCfg.opcode sendTimeLoadHdr sendTimeLoad).2 ≠ true := by
    rw [State.arriving, hbuf]
    decide
  exact congrArg Host.Outcome.next (if_neg hmine)

end Sys2Proof.Machine

namespace Sys2Proof.Proofs
open Sys2Proof.Machine

/-- Refutes O47: on a chip that is not the chain's master, KC_SEND_PING answers no STATE to a packet that asks for a TIME_LOAD. -/
theorem not_clockTimeAndFenceRegisters : ¬ Obligations.ClockTimeAndFenceRegisters := by
  unfold Obligations.ClockTimeAndFenceRegisters
  intro h
  obtain ⟨-, -, -, -, hsend, -⟩ := (h.1 stewarded sendTimeLoadHdr sendTimeLoad 0).1 stewarded_takes
  obtain ⟨-, -, hslave⟩ := hsend (by decide)
  obtain ⟨-, t, hexec, hsent, -⟩ := hslave (by decide)
  have hkept : stewarded = t := Host.Outcome.next.inj (kcSendPing_other.symm.trans hexec)
  have hlength := congrArg List.length hsent
  rw [← hkept, List.length_append] at hlength
  simp at hlength

end Sys2Proof.Proofs
end

section

/-! # CAPTURE_COMPRESSION of an item whose copy is ready too

A capture-compression item whose output queue is full goes back to the delay list. Of the ready items of its number only the item itself has left the
ready list then: one that bears the mark of a shadow copy stays there. -/

namespace Sys2Proof.Machine

/-- A capture-compression item with one failing vector on pin 0. -/
def fullItem : Item :=
  { kind := .compress, sig := 0, inst := 0, index := 0, seq := 0, vectors := 0, last := false, cls := 3, waits := false, shadowed := false, input := [],
    anyEngine := false, due := none, fails := [{ sig := 0, inst := 0, vec := 0, pins := 1 }], cells := [], region := 0, poisoned := false, copy := false, avoid := none }

/-- Its fails map into region 0, whose new cells fill the output queue; a copy of it is ready as well, and the matching store is full. -/
def fullQuire : Quire :=
  { Quire.reset with
    state := .stopped
    committed := some [(rk 0x0C 0, 1), (rk 0x0C 0x100, BitVec.ofNat 32 (2 ^ 16 + 1)), (rk 0x0C 0x104, 1), (rk 0x0D 0, BitVec.ofNat 32 (2 ^ 31))]
    regions := [(0, { Region.reset with fresh := (0, 0) :: List.replicate Config.cellQueue (0, 0) })]
    heldBg := true
    store := List.replicate 512 fullItem
    ready := [fullItem, { fullItem with copy := true }] }

/-- The chip with that quire. -/
def fullChip : State := { State.reset with quires := (Vector.replicate 8 Quire.reset).set 0 fullQuire }

/-- The quire after the item has run on engine 0. -/
def fullRun : W := (fullQuire.w.place fullItem 0 false soundRead).upd fun q => q.freeEngine 0

/-- With the matching store full and its work held already, the background services create nothing. -/
theorem fullQuire_createBg : fullQuire.w.createBg = fullQuire.w := by
  have hsettle : fullQuire.repairSettle = fullQuire := if_pos (by decide +kernel)
  have hheld : fullQuire.heldBg = true := rfl
  have hw : fullQuire.w.upd Quire.repairSettle = fullQuire.w := by
    rw [W.upd, Quire.w_q, hsettle]
    rfl
  have hstore : 512 ≤ fullQuire.w.q.store.length := by decide +kernel
  rw [W.createBg, hw]
  refine (if_pos hstore).trans (if_neg ?_)
  rw [Quire.w_q, hheld]
  simp

theorem fullQuire_ready : fullQuire.readyItem (fun z => z.kind = .compress) = some fullItem := by decide +kernel

theorem fullQuire_choose : fullQuire.choose fullItem = some (.engine 0 false) := by decide +kernel

/-- The output queue is full in a quire with the same regions. -/
theorem outputFull_of {q : Quire} (hra : q.raEn = true) (hregions : q.failRegions fullItem.fails = [0]) (hregion : q.regions = fullQuire.regions) : q.outputFull fullItem = true := by
  have hfresh : (q.region 0).fresh = (0, 0) :: List.replicate Config.cellQueue (0, 0) := by
    rw [Quire.region, hregion]
    rfl
  rw [Quire.outputFull, hra, hregions]
  simp [hfresh]

theorem fullQuire_full : fullQuire.outputFull fullItem = true := outputFull_of (by decide +kernel) (by decide +kernel) rfl

theorem fullRun_full : fullRun.q.outputFull fullItem = true := outputFull_of (by decide +kernel) (by decide +kernel) rfl

/-- The item goes back to the delay list. -/
theorem fullQuire_compression : fullQuire.w.captureCompression soundRead = fullRun.delayItem fullItem := by
  have hrun : fullQuire.w.runWhole fullItem = some (0, fullRun) := by
    rw [W.runWhole, Quire.w_q, fullQuire_choose]
    rfl
  rw [W.captureCompression, fullQuire_createBg, Quire.w_q, fullQuire_ready]
  dsimp only
  rw [hrun]
  exact if_pos fullRun_full

/-- Its copy stays in the ready list. -/
theorem fullChip_copyStays : (((fullChip.onQuire 0 fun _ => fullRun.delayItem fullItem).quire 0).ready.any fun z => z.seq = fullItem.seq) = true := by decide +kernel

end Sys2Proof.Machine

namespace Sys2Proof.Proofs
open Sys2Proof.Machine

/-- Refutes O39: an item whose output queue is full goes back to the delay list while a copy of it stays in the ready list under its number. -/
theorem not_backgroundServices : ¬ Obligations.BackgroundServices := by
  unfold Obligations.BackgroundServices
  intro h
  have hquire : fullChip.quire 0 = fullQuire := rfl
  obtain ⟨-, -, hcompress, -⟩ := h fullChip 0 0 soundRead fullItem 0 false
  rw [hquire, fullQuire_createBg] at hcompress
  obtain ⟨-, hdelays, -⟩ := hcompress rfl fullQuire_ready fullQuire_choose
  obtain ⟨t, hexec, -, -, hgone⟩ := hdelays fullQuire_full (by decide)
  have hrun : exec (.captureCompression 0 soundRead) fullChip = .next (fullChip.onQuire 0 fun _ => fullRun.delayItem fullItem) := by
    show Host.Outcome.next (fullChip.onQuire 0 fun x => x.w.captureCompression soundRead) = _
    unfold State.onQuire
    rw [hquire]
    dsimp only
    rw [fullQuire_compression]
  have ht : fullChip.onQuire 0 (fun _ => fullRun.delayItem fullItem) = t := Host.Outcome.next.inj (hrun.symm.trans hexec)
  have hstays := fullChip_copyStays
  rw [ht, List.any_eq_true] at hstays
  obtain ⟨z, hz, hseq⟩ := hstays
  exact hgone z hz (of_decide_eq_true hseq)

end Sys2Proof.Proofs
end

section
/-! The lanes of a link, the bit that a link's masks hold for each, and what a proposal of a new mask does (R526, R551, R555). -/

namespace Sys2Proof.Machine

/-! ### Lanes and their bits -/

theorem Link.mem_lanes {l : Link} {n : LaneId} : n ∈ l.lanes ↔ l.holds n.val = true := by simp [Link.lanes]

theorem Link.mem_service {l : Link} {n : LaneId} : n ∈ l.service ↔ l.serves n = true := by
  simp only [Link.service, List.mem_filter, Link.mem_lanes, Link.serves, Bool.and_eq_true]
  exact ⟨fun h => h.2, fun h => ⟨h.1, h⟩⟩

theorem Link.mem_hearing {l : Link} {n : LaneId} : n ∈ l.hearing ↔ l.hears n = true := by
  simp only [Link.hearing, List.mem_filter, Link.mem_lanes, Link.hears, Bool.and_eq_true]
  exact ⟨fun h => h.2, fun h => ⟨h.1, h⟩⟩

theorem Link.nodup_lanes (l : Link) : l.lanes.Nodup := (List.nodup_finRange 16).filter _
theorem Link.nodup_service (l : Link) : l.service.Nodup := l.nodup_lanes.filter _
theorem Link.nodup_hearing (l : Link) : l.hearing.Nodup := l.nodup_lanes.filter _

/-- Lanes stand in their order. -/
theorem Link.pairwise_service (l : Link) : l.service.Pairwise (· < ·) := ((List.pairwise_lt_finRange 16).filter _).filter _

theorem Link.base_le {l : Link} {n : LaneId} (h : l.holds n.val = true) : l.base ≤ n.val := by
  simp only [Link.holds, Bool.and_eq_true, decide_eq_true_eq] at h
  exact h.1.2

theorem Link.carries_iff (l : Link) : l.carries = true ↔ l.phase = .up ∨ l.phase = .changing := by simp [Link.carries]

theorem Link.serves_holds {l : Link} {n : LaneId} (h : l.serves n = true) : l.holds n.val = true ∧ l.inService.getLsbD (n.val - l.base) = true := by
  simpa [Link.serves] using h

/-- A lane's bit has its own place alone. -/
theorem getLsbD_laneBit (l : Link) (n : LaneId) (i : Nat) : (laneBit l n).getLsbD i = (decide (i < 8) && decide (i = n.val - l.base)) := by
  rw [laneBit, BitVec.getLsbD_ofNat, Nat.testBit_two_pow]
  simp [eq_comm]

/-- A mask has a lane's bit. -/
theorem laneBit_and_ne_zero (l : Link) (n : LaneId) (m : Byte) : laneBit l n &&& m ≠ 0 ↔ m.getLsbD (n.val - l.base) = true := by
  constructor
  · intro h
    by_contra hm
    refine h (BitVec.eq_of_getLsbD_eq fun i _ => ?_)
    rw [BitVec.getLsbD_and, getLsbD_laneBit]
    rcases eq_or_ne i (n.val - l.base) with rfl | hi
    · simp [Bool.eq_false_iff.mpr hm]
    · simp [hi]
  · intro h h0
    have hlt := BitVec.lt_of_getLsbD h
    have hbit : (laneBit l n &&& m).getLsbD (n.val - l.base) = false := by simp [h0]
    rw [BitVec.getLsbD_and, getLsbD_laneBit, h] at hbit
    simp [hlt] at hbit

theorem Link.serves_iff (l : Link) (n : LaneId) : l.serves n = true ↔ l.holds n.val = true ∧ laneBit l n &&& l.inService ≠ 0 := by
  rw [laneBit_and_ne_zero, Link.serves, Bool.and_eq_true]

/-- A mask without a lane's bit differs from one that has it. -/
theorem and_not_laneBit_ne {l : Link} {n : LaneId} {m : Byte} (h : m.getLsbD (n.val - l.base) = true) : m &&& ~~~(laneBit l n) ≠ m := by
  intro heq
  have hbit : (m &&& ~~~(laneBit l n)).getLsbD (n.val - l.base) = true := by rw [heq, h]
  rw [BitVec.getLsbD_and, BitVec.getLsbD_not, getLsbD_laneBit] at hbit
  simp [BitVec.lt_of_getLsbD h] at hbit

/-- A mask is a lane's bit alone, where nothing else is left without it. -/
theorem eq_laneBit_of_and_not {l : Link} {n : LaneId} {m : Byte} (h : m.getLsbD (n.val - l.base) = true) (h0 : m &&& ~~~(laneBit l n) = 0) : m = laneBit l n := by
  refine BitVec.eq_of_getLsbD_eq fun i hi => ?_
  have hbit : (m &&& ~~~(laneBit l n)).getLsbD i = false := by simp [h0]
  simp only [BitVec.getLsbD_and, BitVec.getLsbD_not, getLsbD_laneBit, hi, decide_true, Bool.true_and] at hbit ⊢
  rcases eq_or_ne i (n.val - l.base) with rfl | hne
  · simpa using h
  · simpa [hne] using hbit

/-! ### A proposal -/

section
variable (s : State) (k : LinkId) (f : Byte → Byte)

/-- A proposal of a link that carries, whose change no acknowledgement holds yet (R551). -/
def State.proposed (s : State) (k : LinkId) (mask : Byte) : State := s.modLink k fun l => { l with phase := .changing, change := some (.propose mask (s.nextCw k + 8)) }

theorem State.proposeWidth_silent (h : (s.link k).carries = false) : s.proposeWidth k f = s := by
  unfold State.proposeWidth
  simp [h]

theorem State.proposeWidth_first (hl : (s.link k).carries = true) (hc : (s.link k).change = none) (h0 : f (s.link k).inService ≠ 0) (h1 : f (s.link k).inService ≠ (s.link k).inService) :
    s.proposeWidth k f = s.proposed k (f (s.link k).inService) := by
  unfold State.proposeWidth
  dsimp only
  rw [hc]
  exact (if_neg (by simp [hl])).trans ((if_neg h0).trans (if_neg fun h => h1 h.1))

theorem State.proposeWidth_again (hl : (s.link k).carries = true) {c : WidthChange} (hc : (s.link k).change = some c) (ha : c.acked = false) (h0 : f c.mask ≠ 0) :
    s.proposeWidth k f = s.proposed k (f c.mask) := by
  unfold State.proposeWidth
  dsimp only
  rw [hc]
  exact (if_neg (by simp [hl, ha])).trans ((if_neg h0).trans (if_neg fun h => absurd h.2 (by simp)))

end

/-- A lane leaves its link: the mask without it is proposed (R550, R557). -/
theorem State.removeLane_proposes (s : State) (k : LinkId) (n : LaneId) (toward : LanePhase) (hl : (s.link k).carries = true) (hc : (s.link k).change = none) (hs : (s.link k).serves n = true)
    (hrest : (s.link k).inService &&& ~~~(laneBit (s.link k) n) ≠ 0) :
    s.removeLane k n toward = (s.modLane n fun x => { x with leave := some toward }).proposed k ((s.link k).inService &&& ~~~(laneBit (s.link k) n)) :=
  State.proposeWidth_first _ k _ hl hc hrest (and_not_laneBit_ne (Link.serves_holds hs).2)

/-- The codeword that a link sends next depends on its lanes and on `CW_SEQ` alone. -/
theorem State.nextCw_congr (s t : State) (k : LinkId) (hl : t.link k = s.link k) (hseq : ∀ n, (t.lane n).txSeq = (s.lane n).txSeq) : t.nextCw k = s.nextCw k := by
  unfold State.nextCw
  rw [hl]
  cases (s.link k).service with
  | nil => rfl
  | cons n _ => exact hseq n

theorem State.nextCw_leave (s : State) (n : LaneId) (toward : LanePhase) (k : LinkId) : (s.modLane n fun x => { x with leave := some toward }).nextCw k = s.nextCw k :=
  State.nextCw_congr s (s.modLane n fun x => { x with leave := some toward }) k rfl fun m => by
    rcases eq_or_ne m n with rfl | hm
    · rw [State.lane_modLane_same]
    · rw [State.lane_modLane_other _ _ _ _ hm]

/-- Lanes, each changed once. -/
theorem State.each_modLane (f : LaneId → Lane → Lane) (l : List LaneId) (hl : l.Nodup) (s : State) :
    (∃ ls, (s.each l fun u n => u.modLane n (f n)) = { s with lanes := ls }) ∧ ∀ n, (s.each l fun u n => u.modLane n (f n)).lane n = if n ∈ l then f n (s.lane n) else s.lane n := by
  induction l generalizing s with
  | nil => exact ⟨⟨_, rfl⟩, fun n => (if_neg List.not_mem_nil).symm⟩
  | cons g l ih =>
    obtain ⟨hg, hl⟩ := List.nodup_cons.mp hl
    obtain ⟨⟨ls, hls⟩, hlane⟩ := ih hl (s.modLane g (f g))
    refine ⟨⟨ls, hls⟩, fun n => (hlane n).trans ?_⟩
    rcases eq_or_ne n g with rfl | hn
    · rw [if_neg hg, if_pos List.mem_cons_self, State.lane_modLane_same]
    · rw [State.lane_modLane_other _ _ _ _ hn]
      simp [hn]



/-! ### What replies leave of a link -/

/-- The links of `t` are those of `s` but for their classes' queues and books of credit. -/
def State.LinksAlike (s t : State) : Prop := ∀ k, t.link k = { s.link k with classes := (t.link k).classes }

namespace State.LinksAlike

variable {s t u : State}

theorem refl (s : State) : s.LinksAlike s := fun _ => rfl

theorem trans (h : s.LinksAlike t) (h' : t.LinksAlike u) : s.LinksAlike u := fun k => by
  rw [h' k, h k]

theorem of_links (h : t.links = s.links) : s.LinksAlike t := fun k => by
  rw [State.link_congr s t k h]

theorem ite {c : Prop} [Decidable c] (h : s.LinksAlike t) (h' : s.LinksAlike u) : s.LinksAlike (if c then t else u) := by
  split
  · exact h
  · exact h'

theorem each {α : Type} (l : List α) (f : State → α → State) (hf : ∀ v a, State.LinksAlike v (f v a)) (s : State) : s.LinksAlike (s.each l f) :=
  List.foldlRecOn (motive := s.LinksAlike) l f (refl s) fun v hv a _ => hv.trans (hf v a)

theorem carries (h : s.LinksAlike t) (k : LinkId) : (t.link k).carries = (s.link k).carries := by
  rw [h k]
  rfl

end State.LinksAlike

section
variable (s : State)

theorem State.modLink_linksAlike (k : LinkId) (f : Link → Link) (hf : ∀ l, f l = { l with classes := (f l).classes }) : s.LinksAlike (s.modLink k f) := fun j => by
  rcases eq_or_ne j k with rfl | hj
  · rw [State.link_modLink_same]
    exact hf _
  · rw [State.link_modLink_other _ _ _ _ hj]

theorem State.wire_linksAlike (r : Reply) : s.LinksAlike (s.wire r) := by
  have hbump : s.LinksAlike (if 0x10 ≤ r.status.toNat then s.bump (rk 8 (0x110 + 0x20 * r.dest.link.val)) else s) := .ite (.of_links (s.bump_links _ _)) (.refl s)
  unfold State.wire
  dsimp only
  generalize (if 0x10 ≤ r.status.toNat then s.bump (rk 8 (0x110 + 0x20 * r.dest.link.val)) else s) = t at hbump
  exact .ite (hbump.trans (.trans (t := { t with sent := t.sent ++ [r] }) (.of_links rfl) (State.modLink_linksAlike _ _ _ fun _ => rfl))) hbump

theorem State.reply_linksAlike (d : ReplyTo) (st : Byte) (dt : BitVec 16) (res : List Byte) : s.LinksAlike (s.reply d st dt res) :=
  .ite (.ite (.of_links rfl) (.trans (.of_links rfl) (State.wire_linksAlike _ _))) (.refl s)

theorem State.quireDone_linksAlike (d : ReplyTo) (q : QId) (st : Byte) (dt : BitVec 16) (rc : List Byte) : s.LinksAlike (s.quireDone d q st dt rc) := by
  unfold State.quireDone
  split
  · exact .refl s
  next w _ =>
    extract_lets w' rest
    refine .ite ?_ (.of_links rfl)
    exact .trans (t := { s with maskWaits := rest, quires := s.quires.map (Quire.unoccupy d) }) (.of_links rfl) (State.reply_linksAlike _ _ _ _ _)

theorem State.runFx_linksAlike (q : QId) (x : Fx) : s.LinksAlike (State.runFx q s x) := by
  cases x with
  | log _ _ _ _ _ _ => exact .of_links (s.logEvent_links _)
  | saturated _ => exact .of_links (s.logEvent_links _)
  | report _ _ _ _ _ _ => exact .of_links rfl
  | lineReport => exact .of_links rfl
  | reply _ _ _ _ => exact s.reply_linksAlike _ _ _ _
  | done _ _ _ => exact s.quireDone_linksAlike _ _ _ _ _
  | freeBits _ _ => exact .of_links rfl
  | replyCollate _ _ _ _ => exact s.reply_linksAlike _ _ _ _
  | replyLive _ _ _ _ => exact s.reply_linksAlike _ _ _ _
  | delay _ => exact .of_links rfl

theorem State.onQuire_linksAlike (q : QId) (f : Quire → W) : s.LinksAlike (s.onQuire q f) :=
  List.foldlRecOn (motive := s.LinksAlike) _ _ (State.LinksAlike.of_links (t := s.setQuire q (f (s.quire q)).q) rfl) fun t ht x _ => ht.trans (t.runFx_linksAlike q x)

theorem State.cancelStarts_linksAlike (q : QId) (st : Byte) (dt : BitVec 16) : s.LinksAlike (s.cancelStarts q st dt) := by
  unfold State.cancelStarts
  extract_lets hit ws g t
  refine (State.LinksAlike.of_links (t := t) rfl).trans (.each _ _ (fun v w => ?_) t)
  have hfree : v.LinksAlike (v.each (quiresOf w.newly) fun s r => s.modQuire r fun x => { x with reserved := false }) := by
    refine .each _ _ (fun _ _ => ?_) v
    exact .of_links rfl
  exact hfree.trans (State.reply_linksAlike _ _ _ _ _)

theorem State.requestStop_linksAlike (q : QId) (cause : StopCause) : s.LinksAlike (s.requestStop q cause) := by
  unfold State.requestStop
  split
  · exact (s.onQuire_linksAlike q _).trans (State.cancelStarts_linksAlike _ q _ _)
  · exact .of_links rfl
  · exact .of_links rfl
  · exact .refl s

theorem State.releaseQuire_linksAlike (k : LinkId) (cause : StopCause) (q : QId) : s.LinksAlike (s.releaseQuire k cause q) := by
  unfold State.releaseQuire
  refine .ite (.refl s) ?_
  extract_lets u v
  exact .trans (t := v) (.of_links rfl) ((State.requestStop_linksAlike v q cause).trans (.of_links rfl))

theorem State.endSession_linksAlike (k : LinkId) (cause : StopCause) : s.LinksAlike (s.endSession k cause) := by
  have h : s.LinksAlike (s.each (List.finRange 8) fun s q => s.releaseQuire k cause q) := .each _ _ (fun v q => v.releaseQuire_linksAlike k cause q) s
  unfold State.endSession
  dsimp only
  generalize (s.each (List.finRange 8) fun s q => s.releaseQuire k cause q) = t at h
  exact h.trans (.of_links rfl)

theorem State.sessionLinkDown_linksAlike (k : LinkId) : s.LinksAlike (s.sessionLinkDown k) :=
  .ite (.refl s) (.ite (s.endSession_linksAlike k .chip) (.of_links rfl))

theorem State.freeBuffer_linksAlike (k : LinkId) (cls : PktClass) : s.LinksAlike (s.freeBuffer k cls) := by
  refine State.modLink_linksAlike _ _ _ fun l => ?_
  dsimp only
  split <;> rfl

theorem State.taken_linksAlike (h : Hdr) (op : Byte) : s.LinksAlike (s.taken h op) := (s.freeBuffer_linksAlike h.link h.cls).trans (.of_links (State.accept_links _ h op))

end

/-- A link that goes DOWN has no change of width any more (R530, R552). -/
theorem State.linkDown_link (s : State) (k : LinkId) : ((s.linkDown k).link k).phase = .down ∧ ((s.linkDown k).link k).change = none := by
  unfold State.linkDown
  dsimp only
  rw [State.sessionLinkDown_linksAlike _ k k, State.link_modLink_same]
  exact ⟨rfl, rfl⟩

end Sys2Proof.Machine
end

section
/-! Width changes of a link: over which lanes its directions stripe, and what a completed change leaves (R550, R551, R555). -/

namespace Sys2Proof.Machine

/-! ### The mask that a change stripes over -/

/-- A lane over which a change stripes: one of its mask that serves or has retrained. -/
def State.joins (s : State) (k : LinkId) (c : WidthChange) (n : LaneId) : Bool :=
  laneBit (s.link k) n &&& c.mask ≠ 0 && ((s.link k).serves n || (s.link k).hears n || (s.lane n).ready)

theorem State.joins_iff (s : State) (k : LinkId) (c : WidthChange) (n : LaneId) :
    s.joins k c n = true ↔ laneBit (s.link k) n &&& c.mask ≠ 0 ∧ ((s.link k).serves n = true ∨ (s.link k).hears n = true ∨ (s.lane n).ready = true) := by
  simp [State.joins, or_assoc]

/-- The bits that a fold over lanes collects. -/
theorem getLsbD_foldl_laneBit (l : Link) (P : LaneId → Prop) [DecidablePred P] (L : List LaneId) (m : Byte) (i : Nat) :
    (L.foldl (fun m n => if P n then m ||| laneBit l n else m) m).getLsbD i = true ↔ m.getLsbD i = true ∨ ∃ n ∈ L, P n ∧ (laneBit l n).getLsbD i = true := by
  induction L generalizing m with
  | nil => simp
  | cons a t ih =>
    rw [List.foldl_cons, ih]
    by_cases ha : P a
    · simp [ha, or_assoc]
    · simp [ha]

section
variable (s : State) (k : LinkId) (c : WidthChange)

theorem State.getLsbD_newMask (i : Nat) : (s.newMask k c).getLsbD i = true ↔ ∃ n ∈ (s.link k).lanes, s.joins k c n = true ∧ (laneBit (s.link k) n).getLsbD i = true := by
  refine (getLsbD_foldl_laneBit (s.link k) _ (s.link k).lanes 0 i).trans ?_
  simp [State.joins_iff]

/-- The new mask has the bits of the lanes that join. -/
theorem State.newMask_lane {n : LaneId} (hn : n ∈ (s.link k).lanes) : laneBit (s.link k) n &&& s.newMask k c ≠ 0 ↔ s.joins k c n = true := by
  rw [laneBit_and_ne_zero, State.getLsbD_newMask]
  constructor
  · rintro ⟨m, hm, hj, hbit⟩
    rw [getLsbD_laneBit] at hbit
    simp only [Bool.and_eq_true, decide_eq_true_eq] at hbit
    have := Link.base_le (Link.mem_lanes.mp hm)
    have := Link.base_le (Link.mem_lanes.mp hn)
    obtain rfl : m = n := Fin.ext (by omega)
    exact hj
  · intro hj
    have hlt := BitVec.lt_of_getLsbD ((laneBit_and_ne_zero _ _ _).mp ((s.joins_iff k c n).mp hj).1)
    exact ⟨n, hn, hj, by simp [getLsbD_laneBit, hlt]⟩

/-- Over the mask that the chip's direction has taken, the host's direction takes the same one. -/
theorem State.newMask_again {t : State} {c' : WidthChange} (hlanes : (t.link k).lanes = (s.link k).lanes) (hbase : (t.link k).base = (s.link k).base) (hserves : ∀ n ∈ (s.link k).lanes, (t.link k).serves n = true ↔ s.joins k c n = true)
    (hmask : c'.mask = s.newMask k c) : t.newMask k c' = s.newMask k c := by
  have hbit : ∀ n, laneBit (t.link k) n = laneBit (s.link k) n := fun n => by rw [laneBit, hbase, laneBit]
  have hjoins : ∀ n ∈ (s.link k).lanes, t.joins k c' n = true ↔ s.joins k c n = true := fun n hn => by
    rw [State.joins_iff, hbit, hmask, s.newMask_lane k c hn]
    exact ⟨fun h => h.1, fun h => ⟨h, .inl ((hserves n hn).mpr h)⟩⟩
  refine BitVec.eq_of_getLsbD_eq fun i _ => Bool.eq_iff_iff.mpr ?_
  rw [State.getLsbD_newMask, State.getLsbD_newMask, hlanes]
  refine exists_congr fun n => and_congr_right fun hn => ?_
  rw [hjoins n hn, hbit]

end

/-! ### Both directions switch -/

/-- A lane that a change adds takes up the running `CW_SEQ`. -/
def State.switched (s : State) (k : LinkId) (n : LaneId) : Lane := if (s.link k).serves n then s.lane n else { s.lane n with txSeq := s.nextCw k }

/-- The link whose two directions have switched. -/
def Link.switched (l : Link) (mask : Byte) (c : WidthChange) : Link :=
  { l with inService := mask, rxService := mask, change := some { c with mask := mask, txDone := true, rxDone := true } }

theorem Link.switched_serves (l : Link) (mask : Byte) (c : WidthChange) (n : LaneId) : (l.switched mask c).serves n = true ↔ l.holds n.val = true ∧ laneBit l n &&& mask ≠ 0 :=
  (l.switched mask c).serves_iff n

section
variable {s : State} {k : LinkId} {c : WidthChange} (hc : (s.link k).change = some c) (hserv : (s.link k).service ≠ []) (hcw : cwReached c.at_ (s.nextCw k) = true)
include hc

theorem State.txDue_iff (hslot : (s.link k).txSlot = []) (ha : c.acked = true) (htx : c.txDone = false) : s.txDue k = true ↔ ∃ n ∈ (s.link k).service, cwReached c.at_ (s.lane n).txSeq = true := by
  unfold State.txDue
  simp [hc, hslot, ha, htx]

theorem State.txDue_false (h : c.acked = false ∨ ∀ n ∈ (s.link k).service, cwReached c.at_ (s.lane n).txSeq = false) : s.txDue k = false := by
  unfold State.txDue
  rw [hc]
  obtain h | h := h
  · simp [h]
  · have hnone : ((s.link k).service.any fun n => cwReached c.at_ (s.lane n).txSeq && !(s.link k).txSlot.any fun e => e.1 = n.val) = false := by
      rw [List.any_eq_false]
      intro n hn
      simp [h n hn]
    simp [hnone]

/-- The host's direction of a lane has come to the change's codeword. -/
def Lane.rxCame (x : Lane) (at_ : BitVec 12) : Prop :=
  (∀ e rest, x.rxQueue = e :: rest → cwReached at_ e.1 = true) ∧ (x.rxQueue = [] → x.lock = true → ∃ v, x.rxSeq = some v ∧ cwReached at_ v = true)

theorem State.rxDue_iff : s.rxDue k = true ↔ c.acked = true ∧ c.rxDone = false ∧ ∀ n ∈ (s.link k).hearing, (s.lane n).rxCame c.at_ := by
  unfold State.rxDue Lane.rxCame
  rw [hc]
  simp only [Option.any_some, Bool.and_eq_true, Bool.not_eq_true', and_assoc, List.all_eq_true]
  refine and_congr_right fun _ => and_congr_right fun _ => forall₂_congr fun n _ => ?_
  cases (s.lane n).rxQueue with
  | nil => cases (s.lane n).lock <;> cases (s.lane n).rxSeq <;> simp
  | cons e rest => simp

include hserv hcw

/-- The chip's direction switches (R551). -/
theorem State.txSwitch_switched : (∃ ls, s.txSwitch k = { s with lanes := ls, links := s.links.set k { s.link k with inService := s.newMask k c, change := some { c with mask := s.newMask k c, txDone := true } } })
    ∧ ∀ n, (s.txSwitch k).lane n = if n ∈ (s.link k).lanes ∧ s.joins k c n = true then s.switched k n else s.lane n := by
  have hseq : (((s.link k).service.map fun n => (s.lane n).txSeq).find? (cwReached c.at_)).getD c.at_ = s.nextCw k := by
    unfold State.nextCw at hcw ⊢
    cases hs : (s.link k).service with
    | nil => exact absurd hs hserv
    | cons n t =>
      rw [hs] at hcw
      dsimp only at hcw ⊢
      rw [List.map_cons, List.find?_cons, hcw]
      rfl
  unfold State.txSwitch
  rw [hc]
  dsimp only
  rw [hseq]
  obtain ⟨⟨ls, hls⟩, hlane⟩ := State.each_modLane (fun _ x => { x with txSeq := s.nextCw k }) ((s.link k).lanes.filter fun n => !(s.link k).serves n && decide (laneBit (s.link k) n &&& s.newMask k c ≠ 0)) ((s.link k).nodup_lanes.filter _) s
  rw [hls] at hlane ⊢
  refine ⟨⟨ls, rfl⟩, fun n => (hlane n).trans ?_⟩
  rw [State.switched]
  by_cases hn : n ∈ (s.link k).lanes
  · simp only [List.mem_filter, hn, true_and, Bool.and_eq_true, Bool.not_eq_true', decide_eq_true_eq, s.newMask_lane k c hn]
    cases hj : s.joins k c n <;> cases hsv : (s.link k).serves n <;> simp
  · simp [hn]

/-- Both directions stripe over the lanes that join. -/
theorem State.switches (hrx : c.rxDone = false) (ha : c.acked = true) (hcame : ∀ n ∈ (s.link k).hearing, (s.lane n).rxCame c.at_) :
    ∃ ls, (if (s.txSwitch k).rxDue k then (s.txSwitch k).rxSwitch k else s.txSwitch k) = { s with lanes := ls, links := s.links.set k ((s.link k).switched (s.newMask k c) c) }
      ∧ ∀ n, ls[n] = if n ∈ (s.link k).lanes ∧ s.joins k c n = true then s.switched k n else s.lane n := by
  obtain ⟨⟨ls, hls⟩, hlane⟩ := State.txSwitch_switched hc hserv hcw
  rw [hls] at hlane ⊢
  generalize hu : ({ s with lanes := ls, links := s.links.set k { s.link k with inService := s.newMask k c, change := some { c with mask := s.newMask k c, txDone := true } } } : State) = u at hlane ⊢
  have hlink : u.link k = { s.link k with inService := s.newMask k c, change := some { c with mask := s.newMask k c, txDone := true } } := by
    rw [← hu]
    exact State.link_modLink_same s k fun l => { l with inService := s.newMask k c, change := some { c with mask := s.newMask k c, txDone := true } }
  have hchange : (u.link k).change = some { c with mask := s.newMask k c, txDone := true } := by rw [hlink]
  have hdue : u.rxDue k = true := by
    refine (State.rxDue_iff hchange).mpr ⟨ha, hrx, fun n hn => ?_⟩
    have hhear : n ∈ (s.link k).hearing := by
      rw [hlink] at hn
      exact hn
    have hsame : (u.lane n).rxQueue = (s.lane n).rxQueue ∧ (u.lane n).lock = (s.lane n).lock ∧ (u.lane n).rxSeq = (s.lane n).rxSeq := by
      rw [hlane n]
      split
      · rw [State.switched]
        split <;> exact ⟨rfl, rfl, rfl⟩
      · exact ⟨rfl, rfl, rfl⟩
    obtain ⟨hq, hl, hr⟩ := hsame
    obtain ⟨h1, h2⟩ := hcame n hhear
    exact ⟨fun e rest he => h1 e rest (hq.symm.trans he), fun he hlock => by
      obtain ⟨v, hv, hreach⟩ := h2 (hq.symm.trans he) (hl.symm.trans hlock)
      exact ⟨v, hr.trans hv, hreach⟩⟩
  have hmask : u.newMask k { c with mask := s.newMask k c, txDone := true } = s.newMask k c := by
    refine s.newMask_again k c (by rw [hlink]; rfl) (by rw [hlink]) (fun n hn => ?_) rfl
    rw [hlink, Link.serves_iff]
    exact ⟨fun h => (s.newMask_lane k c hn).mp h.2, fun h => ⟨Link.mem_lanes.mp hn, (s.newMask_lane k c hn).mpr h⟩⟩
  rw [if_pos hdue]
  unfold State.rxSwitch
  rw [hchange]
  dsimp only
  rw [hmask]
  refine ⟨ls, ?_, fun n => ?_⟩
  · rw [State.modLink, show u.links[k] = u.link k from rfl, hlink, ← hu]
    simp [Link.switched]
  · rw [← hlane n, ← hu]
    rfl

end

/-! ### The change is complete -/

/-- A lane that joins its link. -/
def Lane.joined (x : Lane) : Lane := { x with phase := .inLink, ready := false, lastMs := [] }

/-- Lanes join their link, each once. -/
theorem State.each_joinLane (l : List LaneId) (hl : l.Nodup) (s : State) :
    (∃ ls rs lg sp, s.each l State.joinLane = { s with lanes := ls, regs := rs, log := lg, collector := { s.collector with satPages := sp } })
    ∧ (∀ n, (s.each l State.joinLane).lane n = if n ∈ l then (s.lane n).joined else s.lane n)
    ∧ (∀ key, (∀ n ∈ l, key ≠ nkey n 0x1C) → (s.each l State.joinLane).reg key = s.reg key)
    ∧ ∀ n ∈ l, (s.lane n).phase = .retraining → Counted 1 (s.reg (nkey n 0x1C)) ((s.each l State.joinLane).reg (nkey n 0x1C)) := by
  induction l generalizing s with
  | nil => exact ⟨⟨_, _, _, _, rfl⟩, fun n => (if_neg List.not_mem_nil).symm, fun _ _ => rfl, fun n hn => absurd hn List.not_mem_nil⟩
  | cons g l ih =>
    obtain ⟨hg, hl⟩ := List.nodup_cons.mp hl
    have hone : (∃ rs lg sp, s.joinLane g = { (s.modLane g Lane.joined) with regs := rs, log := lg, collector := { s.collector with satPages := sp } }) ∧ (∀ key, key ≠ nkey g 0x1C → (s.joinLane g).reg key = s.reg key)
        ∧ ((s.lane g).phase = .retraining → Counted 1 (s.reg (nkey g 0x1C)) ((s.joinLane g).reg (nkey g 0x1C))) := by
      unfold State.joinLane
      dsimp only
      split
      next hp =>
        obtain ⟨lg, sp, h⟩ := State.bump_shape (s.modLane g Lane.joined) (nkey g 0x1C) 1
        exact ⟨⟨_, lg, sp, h⟩, fun key hkey => State.bump_reg_other (s.modLane g Lane.joined) _ 1 hkey, fun _ => State.bump_counted (s.modLane g Lane.joined) _ 1⟩
      next hp => exact ⟨⟨_, _, _, rfl⟩, fun _ _ => rfl, fun h => absurd h hp⟩
    obtain ⟨⟨rs, lg, sp, h1⟩, hreg1, hcount1⟩ := hone
    obtain ⟨⟨ls', rs', lg', sp', h2⟩, hlane, hreg, hcount⟩ := ih hl (s.joinLane g)
    have hlane1 : ∀ n, (s.joinLane g).lane n = (s.modLane g Lane.joined).lane n := fun n => by
      rw [h1]
      rfl
    rw [show s.each (g :: l) State.joinLane = (s.joinLane g).each l State.joinLane from rfl]
    have hkeys : ∀ n ∈ l, nkey g 0x1C ≠ nkey n 0x1C := fun n hn he => hg (by
      obtain rfl : g = n := Fin.ext (by simp only [nkey, rk] at he; omega)
      exact hn)
    refine ⟨⟨ls', rs', lg', sp', h2.trans (by rw [h1]; rfl)⟩, fun n => ?_, fun key hkey => ?_, fun n hn hp => ?_⟩
    · rw [hlane n, hlane1 n]
      rcases eq_or_ne n g with rfl | hn
      · rw [if_neg hg, if_pos List.mem_cons_self, State.lane_modLane_same]
      · rw [State.lane_modLane_other _ _ _ _ hn]
        simp [hn]
    · exact (hreg key fun n hn => hkey n (List.mem_cons_of_mem g hn)).trans (hreg1 key (hkey g List.mem_cons_self))
    · obtain rfl | hn := List.mem_cons.mp hn
      · rw [hreg _ hkeys]
        exact hcount1 hp
      · have hne : n ≠ g := fun h => hg (h ▸ hn)
        rw [← hreg1 (nkey n 0x1C) (hkeys n hn).symm]
        exact hcount n hn (by rw [hlane1 n, State.lane_modLane_other _ _ _ _ hne, hp])

theorem State.openChanges_settled (s : State) (k : LinkId) (hgo : ∀ n ∈ (s.link k).service, (s.lane n).leave = none) (hback : ∀ n ∈ (s.link k).lanes, (s.lane n).phase = .retraining → (s.lane n).ready = false) :
    s.openChanges k = s := by
  unfold State.openChanges
  dsimp only
  refine if_pos ⟨?_, ?_⟩
  · rw [List.filter_eq_nil_iff]
    intro n hn
    simp [hgo n hn]
  · rw [List.filter_eq_nil_iff]
    intro n hn
    simp only [Bool.and_eq_true, decide_eq_true_eq, not_and, Bool.not_eq_true]
    exact hback n hn

/-- What a completed change makes of a lane of its link. -/
def Lane.afterChange (x : Lane) (serves : Bool) : Lane :=
  if serves then (if x.phase = .inLink then x else x.joined) else if x.phase = .inLink then x.leaves else x

/-- The change is complete: the lanes of the new mask have joined and the others have left (R551, R555). -/
theorem State.endChange_complete (u : State) (k : LinkId) (c : WidthChange) (hc : (u.link k).change = some c) (htx : c.txDone = true) (hrx : c.rxDone = true) (hslot : (u.link k).txSlot = []) (hmask : c.mask ≠ 0)
    (hgo : ∀ n ∈ (u.link k).service, (u.lane n).leave = none) (hback : ∀ n ∈ (u.link k).lanes, (u.link k).serves n = false → (u.lane n).phase = .retraining → (u.lane n).ready = false) :
    (∃ ls ks rs lg sp, u.endChange k = { u with lanes := ls, links := ks, regs := rs, log := lg, collector := { u.collector with satPages := sp } })
    ∧ (u.endChange k).link k = { u.link k with phase := .up, change := none }
    ∧ Counted 1 (u.reg (lkey k 0x30)) ((u.endChange k).reg (lkey k 0x30))
    ∧ (∀ n, (u.endChange k).lane n = if n ∈ (u.link k).lanes then (u.lane n).afterChange ((u.link k).serves n) else u.lane n)
    ∧ ∀ n ∈ (u.link k).service, (u.lane n).phase = .retraining → Counted 1 (u.reg (nkey n 0x1C)) ((u.endChange k).reg (nkey n 0x1C)) := by
  unfold State.endChange
  dsimp only
  rw [hc]
  dsimp only
  rw [if_neg (by simp [htx, hrx, hslot])]
  set gone := (u.link k).lanes.filter fun n => decide ((u.lane n).phase = .inLink) && !(u.link k).serves n with hgone
  set come := (u.link k).service.filter fun n => decide ((u.lane n).phase ≠ .inLink) with hcome
  obtain ⟨⟨ls, h1⟩, hlane1⟩ := State.each_modLane (fun _ => Lane.leaves) gone ((u.link k).nodup_lanes.filter _) u
  obtain ⟨⟨ls', rs', lg', sp', h2⟩, hlane2, hreg2, hcount2⟩ := State.each_joinLane come ((u.link k).nodup_service.filter _) (u.each gone fun s n => s.modLane n Lane.leaves)
  generalize (u.each gone fun s n => s.modLane n Lane.leaves).each come State.joinLane = v at *
  generalize u.each gone (fun s n => s.modLane n Lane.leaves) = v1 at *
  subst h1
  have hlanev : ∀ n, v.lane n = if n ∈ (u.link k).lanes then (u.lane n).afterChange ((u.link k).serves n) else u.lane n := fun n => by
    rw [hlane2 n, hlane1 n, Lane.afterChange]
    simp only [hgone, hcome, List.mem_filter, Link.mem_service, Link.mem_lanes]
    cases hs : (u.link k).serves n with
    | true =>
      have hh := (Link.serves_holds hs).1
      by_cases hp : (u.lane n).phase = .inLink <;> simp [hh, hp]
    | false =>
      by_cases hh : (u.link k).holds n.val = true <;> by_cases hp : (u.lane n).phase = .inLink <;> simp [hh, hp]
  have hkeys : ∀ n ∈ come, lkey k 0x30 ≠ nkey n 0x1C := fun n _ => by
    simp only [lkey, nkey, rk]
    omega
  have hservice : (v.modLink k fun l => { l with phase := .up, change := none }).link k = { u.link k with phase := .up, change := none } := by
    rw [State.link_modLink_same, show v.link k = u.link k by rw [h2]; rfl]
  have hregv : ∀ key, (v.modLink k fun l => { l with phase := .up, change := none }).reg key = v.reg key := fun _ => rfl
  have hlanew : ∀ n, (v.modLink k fun l => { l with phase := .up, change := none }).lane n = v.lane n := fun _ => rfl
  have hframew : ∃ ls ks rs lg sp, (v.modLink k fun l => { l with phase := .up, change := none }) = { u with lanes := ls, links := ks, regs := rs, log := lg, collector := { u.collector with satPages := sp } } := by
    rw [h2]
    exact ⟨_, _, _, _, _, rfl⟩
  generalize (v.modLink k fun l => { l with phase := .up, change := none }) = w at *
  obtain ⟨lw, cw, hbump⟩ := w.bump_shape (lkey k 0x30) 1
  have hcounted := w.bump_counted (lkey k 0x30) 1
  have hother : ∀ key, key ≠ lkey k 0x30 → (w.bump (lkey k 0x30)).reg key = w.reg key := fun key hkey => w.bump_reg_other _ 1 hkey
  generalize w.bump (lkey k 0x30) = b at *
  obtain ⟨lb, cb, hlog⟩ := b.logEvent_shape { code := 0x18, source := 8, quire := none, injected := false, exempt := false, d0 := packW [(8, k.val), (0, c.mask.toNat)], d1 := 0, d2 := 0, at_ := none }
  have hz : b.log' 0x18 8 (packW [(8, k.val), (0, c.mask.toNat)]) 0 0 = { b with log := lb, collector := { b.collector with satPages := cb } } := hlog
  rw [if_neg hmask, hz]
  have hlink : ({ b with log := lb, collector := { b.collector with satPages := cb } } : State).link k = { u.link k with phase := .up, change := none } := by
    rw [← hservice, hbump]
    rfl
  have hlane : ∀ n, ({ b with log := lb, collector := { b.collector with satPages := cb } } : State).lane n = if n ∈ (u.link k).lanes then (u.lane n).afterChange ((u.link k).serves n) else u.lane n := fun n => by
    rw [← hlanev n, ← hlanew n, hbump]
    rfl
  rw [State.openChanges_settled _ k (fun n hn => ?_) (fun n hn hp => ?_)]
  · refine ⟨?_, hlink, ?_, hlane, fun n hn hp => ?_⟩
    · obtain ⟨ls, ks, rs, lg, sp, hw⟩ := hframew
      rw [hbump, hw]
      exact ⟨_, _, _, _, _, rfl⟩
    · have hbase : w.reg (lkey k 0x30) = u.reg (lkey k 0x30) := (hregv _).trans (hreg2 _ hkeys)
      rw [← hbase]
      exact hcounted
    · have hne : (u.lane n).phase ≠ .inLink := by simp [hp]
      have hcounts := hcount2 n (List.mem_filter.mpr ⟨hn, decide_eq_true hne⟩)
      have hgone : n ∉ gone := fun h => hne (by simpa using (Bool.and_eq_true_iff.mp (List.mem_filter.mp h).2).1)
      rw [hlane1 n, if_neg hgone] at hcounts
      have hreg : ({ b with log := lb, collector := { b.collector with satPages := cb } } : State).reg (nkey n 0x1C) = v.reg (nkey n 0x1C) :=
        (hother _ (by simp only [lkey, nkey, rk]; omega)).trans (hregv _)
      rw [hreg]
      exact hcounts hp
  · have hserves : (u.link k).serves n = true := by
      rw [hlink] at hn
      exact Link.mem_service.mp hn
    have hin : n ∈ (u.link k).lanes := Link.mem_lanes.mpr (Link.serves_holds hserves).1
    rw [hlane n, if_pos hin, Lane.afterChange, if_pos hserves]
    have hleave := hgo n (Link.mem_service.mpr hserves)
    split
    · exact hleave
    · exact hleave
  · have hin : n ∈ (u.link k).lanes := by
      rw [hlink] at hn
      exact hn
    rw [hlane n, if_pos hin] at hp ⊢
    cases hserves : (u.link k).serves n with
    | true =>
      rw [hserves, Lane.afterChange, if_pos rfl] at hp
      split at hp
      next hi => exact absurd (hi.symm.trans hp) (by decide)
      next hi => exact absurd (show (u.lane n).joined.phase = .inLink from rfl) (by rw [hp]; decide)
    | false =>
      rw [hserves, Lane.afterChange, if_neg Bool.false_ne_true] at hp
      rw [Lane.afterChange, if_neg Bool.false_ne_true]
      split at hp
      next hi =>
        rw [if_pos hi]
        rfl
      next hi =>
        rw [if_neg hi]
        exact hback n hin hserves hp

end Sys2Proof.Machine
end

section
/-! Credits, proposals and electrical idle of the host's direction (R544, R547 to R553, R560). -/

namespace Sys2Proof.Machine

/-- A total of the host that lies less than half its range ahead is taken as it is (R547). -/
theorem replaceTotal_ahead (now total d : Nat) (hd : d < 2 ^ 31) (h : total = (now + d) % 2 ^ 32) : replaceTotal 32 now total = now + d := by
  unfold replaceTotal
  norm_num [h]
  split <;> omega

section
variable (s : State) (k : LinkId)

/-- One link changes. -/
theorem State.modLink_eq (f : Link → Link) : s.modLink k f = { s with links := s.links.set k (f (s.link k)) } := rfl

theorem widthChange_silent (named : Byte) (at_ : BitVec 12) (h : (s.link k).carries = false) : widthChange k named at_ s = s := by
  unfold widthChange
  simp [h]

/-- The host's proposal is taken and acknowledged (R551, R553). -/
def Link.takesChange (l : Link) (named : Byte) (at_ : BitVec 12) : Link :=
  { l with
    phase := .changing, linkTx := if l.linkTx.contains (msgWidth 4 named at_) then l.linkTx else l.linkTx ++ [msgWidth 4 named at_]
    change := some { WidthChange.propose (named &&& BitVec.ofNat 8 (2 ^ l.width - 1)) at_ with fromChip := false, acked := true } }

theorem widthChange_first (named : Byte) (at_ : BitVec 12) (hl : (s.link k).carries = true) (hc : (s.link k).change = none) : widthChange k named at_ s = s.modLink k (Link.takesChange · named at_) := by
  unfold widthChange
  dsimp only
  rw [hc]
  exact if_neg (by simp [hl])

variable {s k} {c : WidthChange} (named : Byte) (at_ : BitVec 12) (hl : (s.link k).carries = true) (hc : (s.link k).change = some c)
include hl hc

/-- A change of the host whose directions have not switched, or one of the chip that has not gone out, gives way to the host's (R551, R553). -/
theorem widthChange_takes (h : if c.fromChip then c.acked = false ∧ c.sent = false else c.txDone = false ∧ c.rxDone = false) : widthChange k named at_ s = s.modLink k (Link.takesChange · named at_) := by
  unfold widthChange
  dsimp only
  rw [hc, if_neg (by simp [hl])]
  dsimp only
  cases hf : c.fromChip with
  | true =>
    rw [hf, if_pos rfl] at h
    rw [if_pos (by simp [h.1]), if_neg (by simp [h.2])]
    rfl
  | false =>
    rw [hf, if_neg Bool.false_ne_true] at h
    rw [if_neg (by simp), if_neg (by simp [h.1, h.2])]
    rfl

theorem widthChange_crossed (hf : c.fromChip = true) (ha : c.acked = false) (hs : c.sent = true) :
    widthChange k named at_ s = s.modLink k fun l => { l with change := some { c with mask := c.mask &&& (named &&& BitVec.ofNat 8 (2 ^ (s.link k).width - 1)), at_ := laterCw c.at_ at_, acked := true } } := by
  unfold widthChange
  dsimp only
  rw [hc, if_neg (by simp [hl])]
  dsimp only
  rw [if_pos (by simp [hf, ha]), if_pos hs]

theorem widthChange_kept (h : if c.fromChip then c.acked = true else c.txDone = true ∨ c.rxDone = true) : widthChange k named at_ s = s := by
  unfold widthChange
  dsimp only
  rw [hc, if_neg (by simp [hl])]
  dsimp only
  cases hf : c.fromChip with
  | true =>
    rw [hf, if_pos rfl] at h
    rw [if_neg (by simp [h]), if_pos (by simp)]
  | false =>
    rw [hf, if_neg Bool.false_ne_true] at h
    rw [if_neg (by simp), if_pos (by simpa using h)]

end

/-! ### The acknowledgement, and the time for it (R552) -/

section
variable (s : State) (k : LinkId) (hc : (s.link k).change = none)
include hc

theorem widthAck_none (mask : Byte) (at_ : BitVec 12) : widthAck k mask at_ s = s := by
  unfold widthAck
  rw [hc]

theorem widthAckTimeout_none : widthAckTimeout k s = s := by
  unfold widthAckTimeout
  rw [hc]

theorem widthSwitch_none : widthSwitch k s = s := by
  have ht : s.txDue k = false := by
    unfold State.txDue
    rw [hc]
    rfl
  have hr : s.rxDue k = false := by
    unfold State.rxDue
    rw [hc]
    rfl
  have he : s.endChange k = s := by
    unfold State.endChange
    dsimp only
    rw [hc]
  unfold widthSwitch
  rw [ht]
  dsimp only
  rw [if_neg Bool.false_ne_true, hr, if_neg Bool.false_ne_true, he, ite_self]

end

theorem cwReached_iff (at_ x : BitVec 12) : cwReached at_ x = true ↔ (x - at_).toNat < 2048 := decide_eq_true_iff

/-- Two codewords before a change. -/
theorem cwReached_before (at_ x : BitVec 12) : cwReached (at_ - 2) x = cwReached at_ (x + 2) := by
  rw [cwReached, cwReached, show x - (at_ - 2) = x + 2 - at_ by ring]

section
variable {s : State} {k : LinkId} {c : WidthChange} (hc : (s.link k).change = some c)
include hc

theorem widthAckTimeout_waits (h : cwReached c.at_ (s.nextCw k + 2) = false) : widthAckTimeout k s = s := by
  unfold widthAckTimeout
  rw [hc]
  dsimp only
  rw [cwReached_before, h]
  exact if_pos (by simp)

variable (hf : c.fromChip = true) (ha : c.acked = false) (hcw : cwReached c.at_ (s.nextCw k + 2) = true)
include hf ha hcw

theorem widthAckTimeout_repeats (h : c.attempts < 4) : widthAckTimeout k s = s.modLink k fun l => { l with change := some { c with at_ := c.at_ + 8, attempts := c.attempts + 1 } } := by
  unfold widthAckTimeout
  rw [hc]
  dsimp only
  rw [cwReached_before, hcw, if_neg (by simp [hf, ha]), if_pos h]

theorem widthAckTimeout_down (h : 4 ≤ c.attempts) : widthAckTimeout k s = s.linkDown k := by
  unfold widthAckTimeout
  rw [hc]
  dsimp only
  rw [cwReached_before, hcw, if_neg (by simp [hf, ha]), if_neg (Nat.not_lt.mpr h)]

end

/-! ### Electrical idle, and lanes that fail (R549, R560) -/

/-- The first symbol that a lane's direction goes on from after its wake is free; nothing else of the lane is (R512). -/
theorem State.each_freeReceived (l : List LaneId) (hl : l.Nodup) (s : State) :
    (∃ ls f, s.each l State.freeReceived = { s with lanes := ls, fresh := f }) ∧ (∀ n, n ∉ l → (s.each l State.freeReceived).lane n = s.lane n)
      ∧ ∀ n, (s.each l State.freeReceived).lane n = { s.lane n with rxLast := ((s.each l State.freeReceived).lane n).rxLast } := by
  induction l generalizing s with
  | nil => exact ⟨⟨_, _, rfl⟩, fun _ _ => rfl, fun _ => rfl⟩
  | cons g l ih =>
    obtain ⟨hg, hl⟩ := List.nodup_cons.mp hl
    obtain ⟨⟨ls, f, h⟩, hout, hlane⟩ := ih hl (s.freeReceived g)
    have hother : ∀ n, n ≠ g → (s.freeReceived g).lane n = s.lane n := fun n hn => State.lane_modLane_other _ _ _ _ hn
    refine ⟨⟨ls, f, h.trans rfl⟩, fun n hn => ?_, fun n => (hlane n).trans ?_⟩
    · rw [List.mem_cons, not_or] at hn
      exact (hout n hn.2).trans (hother n hn.1)
    · rcases eq_or_ne n g with rfl | hn
      · have hsame : (s.freeReceived n).lane n = { s.lane n with rxLast := ((s.freeReceived n).lane n).rxLast } := by
          unfold State.freeReceived
          dsimp only
          rw [State.lane_modLane_same]
          rfl
        rw [hsame]
        rfl
      · rw [hother n hn]
        rfl

/-- Lanes go idle at one tick. -/
theorem State.each_idled (l : List LaneId) (s : State) : (s.each l fun u n => u.modLane n (Lane.idled u.time.ticks)) = s.each l fun u n => u.modLane n (Lane.idled s.time.ticks) := by
  induction l generalizing s with
  | nil => rfl
  | cons g l ih => exact ih (s.modLane g (Lane.idled s.time.ticks))

theorem eiEnter_idles (s : State) (k : LinkId) (hl : (s.link k).carries = true) (hi : (s.link k).rxEi = false) :
    (eiEnter k s).links = s.links.set k { s.link k with rxEi := true } ∧ (∀ m, (s.link k).hears m = false → (eiEnter k s).lane m = s.lane m)
      ∧ ∀ m, (s.link k).hears m = true → (eiEnter k s).lane m = { (s.lane m).idled s.time.ticks with rxLast := ((eiEnter k s).lane m).rxLast } := by
  unfold eiEnter
  rw [if_pos (by simp [hl, hi]), State.each_idled]
  obtain ⟨⟨ls, h1⟩, hlane1⟩ := State.each_modLane (fun _ => Lane.idled s.time.ticks) (s.link k).hearing (s.link k).nodup_hearing s
  generalize (s.each (s.link k).hearing fun u n => u.modLane n (Lane.idled s.time.ticks)) = t at *
  obtain ⟨⟨ls', f, h2⟩, hout, hlane2⟩ := State.each_freeReceived (s.link k).hearing (s.link k).nodup_hearing t
  generalize t.each (s.link k).hearing State.freeReceived = u at *
  have hlink : ∀ m, (u.modLink k fun l => { l with rxEi := true }).lane m = u.lane m := fun _ => rfl
  refine ⟨?_, fun m hm => ?_, fun m hm => ?_⟩
  · rw [h2, h1]
    rfl
  · have hmem : m ∉ (s.link k).hearing := fun h => by simp [Link.mem_hearing.mp h] at hm
    rw [hlink, hout m hmem, hlane1 m, if_neg hmem]
  · rw [hlink, hlane2 m, hlane1 m, if_pos (Link.mem_hearing.mpr hm)]

/-- A change that waits for its acknowledgement, or for a direction, stands. -/
theorem widthSwitch_waits {s : State} {k : LinkId} {c : WidthChange} (hc : (s.link k).change = some c) (htx : c.txDone = false)
    (hno : c.acked = false ∨ ∀ n ∈ (s.link k).service, cwReached c.at_ (s.lane n).txSeq = false) (hno' : c.acked = false ∨ ∃ n ∈ (s.link k).hearing, ¬(s.lane n).rxCame c.at_) : widthSwitch k s = s := by
  have hr : s.rxDue k = false := Bool.eq_false_iff.mpr fun h => by
    obtain ⟨ha, -, hall⟩ := (State.rxDue_iff hc).mp h
    obtain hno | ⟨n, hn, hx⟩ := hno'
    · simp [ha] at hno
    · exact hx (hall n hn)
  have he : s.endChange k = s := by
    unfold State.endChange
    dsimp only
    rw [hc]
    exact if_pos (by simp [htx])
  unfold widthSwitch
  rw [State.txDue_false hc hno]
  dsimp only
  rw [if_neg Bool.false_ne_true, hr, if_neg Bool.false_ne_true, he, ite_self]

/-- A change whose codeword both directions have reached is carried out at once (R551, R555). -/
theorem widthSwitch_completes {s : State} {k : LinkId} {c : WidthChange} (hl : (s.link k).carries = true) (hc : (s.link k).change = some c) (htx : c.txDone = false) (hrx : c.rxDone = false) (ha : c.acked = true)
    (hslot : (s.link k).txSlot = []) (hserv : (s.link k).service ≠ []) (hcw : cwReached c.at_ (s.nextCw k) = true) (hcame : ∀ n ∈ (s.link k).hearing, (s.lane n).rxCame c.at_)
    (hjoin : ∃ n ∈ (s.link k).lanes, s.joins k c n = true)
    (hsettled : ∀ n ∈ (s.link k).lanes, (s.joins k c n = true → (s.lane n).leave = none) ∧ ((s.lane n).phase = .retraining → (s.lane n).ready = true → s.joins k c n = true)) :
    (widthSwitch k s).quires = s.quires ∧ (widthSwitch k s).sent = s.sent
      ∧ (widthSwitch k s).link k = { s.link k with phase := .up, inService := s.newMask k c, rxService := s.newMask k c, change := none }
      ∧ Counted 1 (s.reg (lkey k 0x30)) ((widthSwitch k s).reg (lkey k 0x30)) ∧ (∀ n, n ∉ (s.link k).lanes → (widthSwitch k s).lane n = s.lane n)
      ∧ ∀ n ∈ (s.link k).lanes, (widthSwitch k s).lane n = (if s.joins k c n then s.switched k n else s.lane n).afterChange (s.joins k c n)
        ∧ (s.joins k c n = true → (s.lane n).phase = .retraining → Counted 1 (s.reg (nkey n 0x1C)) ((widthSwitch k s).reg (nkey n 0x1C))) := by
  have hdue : s.txDue k = true := by
    refine (State.txDue_iff hc hslot ha htx).mpr ?_
    unfold State.nextCw at hcw
    cases hs : (s.link k).service with
    | nil => exact absurd hs hserv
    | cons n t =>
      rw [hs] at hcw
      exact ⟨n, List.mem_cons_self, hcw⟩
  obtain ⟨ls, hsw, hls⟩ := State.switches hc hserv hcw hrx ha hcame
  have heq : widthSwitch k s = ({ s with lanes := ls, links := s.links.set k ((s.link k).switched (s.newMask k c) c) } : State).endChange k := by
    unfold widthSwitch
    rw [hl, hdue]
    dsimp only
    rw [if_pos rfl, hsw]
    rfl
  rw [heq]
  generalize hu : ({ s with lanes := ls, links := s.links.set k ((s.link k).switched (s.newMask k c) c) } : State) = u
  have hlink : u.link k = (s.link k).switched (s.newMask k c) c := by
    rw [← hu]
    exact State.link_modLink_same s k fun l => l.switched (s.newMask k c) c
  have hlane : ∀ n, u.lane n = if n ∈ (s.link k).lanes ∧ s.joins k c n = true then s.switched k n else s.lane n := fun n => by
    rw [← hls n, ← hu]
    rfl
  have hserves : ∀ n ∈ (s.link k).lanes, (u.link k).serves n = s.joins k c n := fun n hn => by
    rw [Bool.eq_iff_iff, hlink, Link.switched_serves, s.newMask_lane k c hn]
    exact ⟨fun h => h.2, fun h => ⟨Link.mem_lanes.mp hn, h⟩⟩
  have hlanes : (u.link k).lanes = (s.link k).lanes := by
    rw [hlink]
    rfl
  have hjoined : ∀ n, (u.link k).serves n = true → n ∈ (s.link k).lanes ∧ s.joins k c n = true := fun n hn => by
    have hin : n ∈ (s.link k).lanes := hlanes ▸ Link.mem_lanes.mpr (Link.serves_holds hn).1
    exact ⟨hin, hserves n hin ▸ hn⟩
  have hmask : s.newMask k c ≠ 0 := by
    obtain ⟨n, hn, hj⟩ := hjoin
    intro h0
    have := (s.newMask_lane k c hn).mpr hj
    rw [h0] at this
    exact this (BitVec.and_zero ..)
  have hkeep : ∀ n, (s.switched k n).leave = (s.lane n).leave ∧ (s.switched k n).phase = (s.lane n).phase := fun n => by
    rw [State.switched]
    split <;> exact ⟨rfl, rfl⟩
  obtain ⟨⟨ls', ks, rs, lg, sp, hframe⟩, hlink', hcount, hlane', hcount'⟩ := u.endChange_complete k { c with mask := s.newMask k c, txDone := true, rxDone := true } (by rw [hlink]; rfl) rfl rfl (by rw [hlink]; exact hslot) hmask
    (fun n hn => by
      obtain ⟨hin, hj⟩ := hjoined n (Link.mem_service.mp hn)
      rw [hlane n, if_pos ⟨hin, hj⟩, (hkeep n).1]
      exact (hsettled n hin).1 hj)
    (fun n hn hno hp => by
      rw [hlanes] at hn
      rw [hserves n hn] at hno
      rw [hlane n, if_neg (fun h => by simp [hno] at h)] at hp ⊢
      by_contra hr
      exact absurd ((hsettled n hn).2 hp (by simpa using hr)) (by simp [hno]))
  have hreg : ∀ key, u.reg key = s.reg key := fun key => by
    rw [← hu]
    rfl
  refine ⟨by rw [hframe, ← hu], by rw [hframe, ← hu], by rw [hlink', hlink]; rfl, by rw [← hreg]; exact hcount, fun n hn => ?_, fun n hn => ⟨?_, fun hj hp => ?_⟩⟩
  · rw [hlane' n, hlanes, if_neg hn, hlane n, if_neg fun h => hn h.1]
  · rw [hlane' n, hlanes, if_pos hn, hserves n hn, hlane n]
    congr 1
    exact if_congr (by simp [hn]) rfl rfl
  · rw [← hreg]
    exact hcount' n (Link.mem_service.mpr ((hserves n hn).trans hj)) (by rw [hlane n, if_pos ⟨hn, hj⟩, (hkeep n).2, hp])

/-- The conditions of R549, as the codewords of the last 1 ms show them. -/
theorem Lane.failing_iff (ticks : Nat) (x : Lane) (c : RetrainCause) : x.failing ticks c = true ↔
    match c with
    | .lockLost => x.lock = false ∧ x.idleSince = none
    | .uncorrectable => 4 < (x.lastMs.filter fun e => decide (ticks < e.1 + 1000000)).countP fun e => e.2.isNone
    | .corrected => (∃ e ∈ x.lastMs, e.1 + 1000000 ≤ ticks)
        ∧ (x.lastMs.filter fun e => decide (ticks < e.1 + 1000000)).length < ((x.lastMs.filter fun e => decide (ticks < e.1 + 1000000)).map fun e => e.2.getD 0).sum := by
  have hyoung : (x.lastMs.filter fun e => !decide (e.1 + 1000000 ≤ ticks)) = x.lastMs.filter fun e => decide (ticks < e.1 + 1000000) := List.filter_congr fun e _ => by
    rw [← decide_not]
    exact decide_eq_decide.mpr Nat.not_le
  unfold Lane.failing
  dsimp only
  rw [hyoung]
  cases c with
  | lockLost => simp
  | uncorrectable => simp [List.countP_eq_length_filter]
  | corrected => simp

/-- A lane in service of a link with others begins to leave it for retraining (R549, R550). -/
theorem State.retrainLane_proposes (s : State) (k : LinkId) (n : LaneId) (hk : s.linkOf n = some k) (hs : (s.link k).serves n = true) (hl : (s.link k).carries = true) (hc : (s.link k).change = none) (hleave : (s.lane n).leave = none)
    (hrest : (s.link k).inService ≠ laneBit (s.link k) n) : s.retrainLane n = (s.modLane n fun x => { x with leave := some .retraining }).proposed k ((s.link k).inService &&& ~~~(laneBit (s.link k) n)) := by
  unfold State.retrainLane
  rw [hk]
  dsimp only
  rw [if_pos (by simp [hl, hs, hleave])]
  exact s.removeLane_proposes k n .retraining hl hc hs fun h0 => hrest (eq_laneBit_of_and_not (Link.serves_holds hs).2 h0)

/-- The lane at an index of its link. -/
theorem Link.lane_at {l : Link} {n : LaneId} (i : Nat) (hn : l.holds n.val = true) (hi : i = n.val - l.base) : l.lanes.find? (fun m => decide (m.val = l.base + i)) = some n := by
  have hbase := Link.base_le hn
  cases h : l.lanes.find? (fun m => decide (m.val = l.base + i)) with
  | none => exact absurd (decide_eq_true (by omega)) (List.find?_eq_none.mp h n (Link.mem_lanes.mpr hn))
  | some m =>
    have hm : m.val = l.base + i := by simpa using List.find?_some h
    obtain rfl : m = n := Fin.ext (by omega)
    rfl

end Sys2Proof.Machine

namespace Sys2Proof.Proofs
open Sys2Proof.Machine

/-- Settles O54: each message by what it makes of its link, and the switch of a change by its two directions and the lanes that join and leave. -/
theorem creditsAndWidths : Obligations.CreditsAndWidths := by
  unfold Obligations.CreditsAndWidths
  intro s k grants totals mask at_ c n l is shown carries lane later came on rxCame settled pending acks takes x last meets
  have hcarries : carries ↔ l.carries = true := (l.carries_iff).symm
  have hcame : ∀ v, came v ↔ cwReached c.at_ v = true := fun v => (cwReached_iff _ _).symm
  have htakes : widthChange k mask at_ s = s.modLink k (Link.takesChange · mask at_) → takes := fun h => by
    have hacks : (if acks ∈ l.linkTx then l.linkTx else l.linkTx ++ [acks]) = if l.linkTx.contains (msgWidth 4 mask at_) then l.linkTx else l.linkTx ++ [msgWidth 4 mask at_] :=
      if_congr List.contains_iff_mem.symm rfl rfl
    show Host.Outcome.next (widthChange k mask at_ s) = _
    rw [h, hacks]
    rfl
  have hphase : ∀ m, (s.switched k m).phase = (s.lane m).phase := fun m => by
    rw [State.switched]
    split <;> rfl
  have hmeets : ∀ cause, meets cause ↔ (s.lane n).failing s.time.ticks cause = true := fun cause => by
    cases cause with
    | lockLost => exact (Lane.failing_iff s.time.ticks x .lockLost).symm
    | uncorrectable => exact (Lane.failing_iff s.time.ticks x .uncorrectable).symm
    | corrected => exact (Lane.failing_iff s.time.ticks x .corrected).symm
  refine ⟨fun hp => ?_, fun hp => ?_, fun hl => ?_, fun hl => ?_, fun hl hc => ?_, fun hl hc => ?_, fun hl => ?_, fun hc hf => ?_, fun hc => ?_, fun hc hf ha => ?_, fun hc htx hrx => ?_, fun hl => ?_, fun cause hm => ?_,
    fun hk hs hl hc hleave hrest => ?_⟩
  · refine ⟨{ l with trainPhase := 6, classes := Vector.ofFn fun c => { l.classes[c] with granted := grants.getD c.val 0 % 2 ^ 32 } }, ?_, rfl, fun i => by simp⟩
    exact congrArg Host.Outcome.next (if_pos hp)
  · exact congrArg Host.Outcome.next (if_neg hp)
  · refine ⟨{ l with classes := Vector.ofFn fun c => { l.classes[c] with freedByHost := replaceTotal 32 l.classes[c].freedByHost (totals.getD c.val 0) } }, ?_, rfl, fun i => ⟨by simp, fun d hd ht => ?_⟩⟩
    · exact congrArg Host.Outcome.next (if_pos (hcarries.mp hl))
    · simpa using replaceTotal_ahead _ _ d hd ht
  · refine (congrArg Host.Outcome.next (if_pos (hcarries.mp hl))).trans ?_
    simp [State.modLink, List.finRange_succ, le]
    rfl
  · exact htakes (widthChange_first s k mask at_ (hcarries.mp hl) hc)
  · have hl' := hcarries.mp hl
    refine ⟨fun hf ha hs => congrArg Host.Outcome.next (widthChange_crossed mask at_ hl' hc hf ha hs), fun hf ha hs => htakes (widthChange_takes mask at_ hl' hc (by simp [hf, ha, hs])),
      fun hf ha => congrArg Host.Outcome.next (widthChange_kept mask at_ hl' hc (by simp [hf, ha])), fun hf ht hr => htakes (widthChange_takes mask at_ hl' hc (by simp [hf, ht, hr])),
      fun hf hd => congrArg Host.Outcome.next (widthChange_kept mask at_ hl' hc (by simpa [hf] using hd))⟩
  · have hl' : l.carries = false := Bool.eq_false_iff.mpr fun h => hl (hcarries.mpr h)
    exact ⟨congrArg Host.Outcome.next (if_neg (by simp [l, hl'])), congrArg Host.Outcome.next (if_neg (by simp [l, hl'])), congrArg Host.Outcome.next (widthChange_silent s k mask at_ hl'),
      congrArg Host.Outcome.next (if_neg (by simp [l, hl']))⟩
  · have hack : widthAck k c.mask c.at_ s = s.modLink k fun l => { l with change := some { c with acked := true } } := by
      unfold widthAck
      rw [hc]
      exact if_pos ⟨hf, rfl, rfl⟩
    exact congrArg Host.Outcome.next hack
  · refine ⟨congrArg Host.Outcome.next (widthAck_none s k hc mask at_), congrArg Host.Outcome.next (widthSwitch_none s k hc), congrArg Host.Outcome.next (widthAckTimeout_none s k hc)⟩
  · refine ⟨fun hno => congrArg Host.Outcome.next (widthAckTimeout_waits hc (Bool.eq_false_iff.mpr fun h => hno ((hcame _).mpr h))),
      fun hyes h4 => congrArg Host.Outcome.next (widthAckTimeout_repeats hc hf ha ((hcame _).mp hyes) h4), fun hyes h4 => ?_⟩
    exact ⟨_, congrArg Host.Outcome.next (widthAckTimeout_down hc hf ha ((hcame _).mp hyes) h4), s.linkDown_link k⟩
  · have hon : ∀ m, on m ↔ s.joins k c m = true := fun m => (s.joins_iff k c m).symm
    have hrxCame : ∀ m, rxCame m ↔ (s.lane m).rxCame c.at_ := fun m => by simp only [rxCame, hcame, Lane.rxCame]
    refine ⟨fun hno => congrArg Host.Outcome.next (widthSwitch_waits hc htx ?_ ?_), fun ha hl hslot hserv hcw hrxc hex hset => ?_⟩
    · exact hno.imp_right fun h m hm => Bool.eq_false_iff.mpr fun h' => h.1 m hm ((hcame _).mpr h')
    · exact hno.imp_right fun h => by
        obtain ⟨m, hm, hr⟩ := h.2
        exact ⟨m, hm, fun h' => hr ((hrxCame m).mpr h')⟩
    · obtain ⟨hq, hsent, hlink, hcount, hout, hin⟩ := widthSwitch_completes (hcarries.mp hl) hc htx hrx ha hslot hserv ((hcame _).mp hcw) (fun m hm => (hrxCame m).mp (hrxc m hm))
        (by simpa only [hon] using hex) (fun m hm => by simpa only [hon] using hset m hm)
      refine ⟨_, rfl, hq, hsent, by rw [hlink], hcount, hout, fun m hm => ?_⟩
      intro y z
      obtain ⟨hlane, hcount'⟩ := hin m hm
      refine ⟨?_, fun h hp => ?_, fun h hp => ⟨?_, hcount' ((hon m).mp h)⟩, fun h hp => ?_, fun h hp => ?_⟩
      · rw [hlink, hon, ← s.newMask_lane k c hm]
        exact (Link.serves_iff _ m).trans ⟨fun h => h.2, fun h => ⟨Link.mem_lanes.mp hm, h⟩⟩
      · rw [hlane, (hon m).mp h]
        exact (if_pos rfl).trans (if_pos ((hphase m).trans hp))
      · rw [hlane, (hon m).mp h]
        exact (if_pos rfl).trans (if_neg fun h' => hp ((hphase m).symm.trans h'))
      · rw [hlane, if_neg (fun h' => h ((hon m).mpr h')), Bool.eq_false_iff.mpr fun h' => h ((hon m).mpr h')]
        exact (if_neg Bool.false_ne_true).trans (if_pos hp)
      · rw [hlane, if_neg (fun h' => h ((hon m).mpr h')), Bool.eq_false_iff.mpr fun h' => h ((hon m).mpr h')]
        exact (if_neg Bool.false_ne_true).trans (if_neg hp)
  · refine ⟨fun hi => congrArg Host.Outcome.next (if_neg (by simp [l, hi])), fun hi => ?_⟩
    obtain ⟨h1, h2, h3⟩ := eiEnter_idles s k (hcarries.mp hl) hi
    exact ⟨eiEnter k s, rfl, h1, h2, h3⟩
  · exact congrArg Host.Outcome.next (if_neg fun h => hm ((hmeets cause).mpr h))
  · have hl' := hcarries.mp hl
    intro y
    have hprop : s.retrainLane n = y := by
      rw [s.retrainLane_proposes k n hk hs hl' hc hleave hrest, State.proposed, s.nextCw_leave]
      rfl
    refine ⟨fun cause hm => congrArg Host.Outcome.next ((if_pos ((hmeets cause).mp hm)).trans hprop), fun i hi => congrArg Host.Outcome.next ?_⟩
    unfold retrainReq
    rw [Link.lane_at i.val (Link.serves_holds hs).1 hi]
    exact hprop

end Sys2Proof.Proofs
end

section
/-! Counters of 64 bits, the replies that are owed to commands in progress, and lane tests (R565 to R569, R584, R776). -/

namespace Sys2Proof.Machine

/-! ### Counters of 64 bits -/

/-- A counter of two words, the low one first (R776). -/
def State.long (s : State) (k : Nat) : Nat := (s.reg k).toNat + 2 ^ 32 * (s.reg (k + 4)).toNat

theorem State.long_lt (s : State) (k : Nat) : s.long k ≤ 2 ^ 64 - 1 := by
  have h1 := (s.reg k).isLt
  have h2 := (s.reg (k + 4)).isLt
  unfold State.long
  omega

section
variable (s : State) (k n : Nat)

theorem State.bump64_regs : (s.bump64 k n).regs = ((s.setReg k (BitVec.ofNat 32 (satAdd 64 (s.long k) n).1)).setReg (k + 4) (BitVec.ofNat 32 ((satAdd 64 (s.long k) n).1 / 2 ^ 32))).regs := by
  unfold State.bump64 State.long
  dsimp only
  split
  · rw [State.logEvent_regs]
  · rfl

theorem State.bump64_reg_other {j : Nat} (h : j ≠ k) (h' : j ≠ k + 4) : (s.bump64 k n).reg j = s.reg j := by
  rw [State.reg, State.bump64_regs]
  exact (sget_sput_other _ _ _ _ _ h').trans (sget_sput_other _ _ _ _ _ h)

theorem State.bump64_long : (s.bump64 k n).long k = min (s.long k + n) (2 ^ 64 - 1) := by
  have hlow : (s.bump64 k n).reg k = BitVec.ofNat 32 (satAdd 64 (s.long k) n).1 := by
    rw [State.reg, State.bump64_regs]
    exact (sget_sput_other _ _ _ _ _ (by omega)).trans (sget_sput_same ..)
  have hhigh : (s.bump64 k n).reg (k + 4) = BitVec.ofNat 32 ((satAdd 64 (s.long k) n).1 / 2 ^ 32) := by
    rw [State.reg, State.bump64_regs]
    exact sget_sput_same ..
  rw [State.long, hlow, hhigh, BitVec.toNat_ofNat, BitVec.toNat_ofNat]
  unfold satAdd
  dsimp only
  split <;> omega

theorem State.bump64_long_other {j : Nat} (h : j ≠ k) (h' : j ≠ k + 4) (h'' : j + 4 ≠ k) : (s.bump64 k n).long j = s.long j := by
  rw [State.long, s.bump64_reg_other k n h h', s.bump64_reg_other k n h'' (by omega), State.long]

end

/-- The bytes of a counter of two words. -/
theorem State.long_bytes (s : State) (k : Nat) : leW (s.reg k) ++ leW (s.reg (k + 4)) = le 8 (s.long k) := by
  have h1 := (s.reg k).isLt
  have hlow : le 4 (s.long k) = leW (s.reg k) := by
    rw [← le_mod, leW, State.long]
    congr 1
    omega
  have hhigh : s.long k / 256 ^ 4 = (s.reg (k + 4)).toNat := by
    rw [State.long]
    omega
  rw [show (8 : Nat) = 4 + 4 from rfl, le_split, hlow, hhigh, leW, leW]

/-! ### Replies that are owed -/

/-- A command in progress is answered, with the chip as far as its reply reads it as before. -/
theorem State.Owes.replied {s t : State} {d : ReplyTo} (h : s.Owes d) (hsent : t.sent = s.sent) (hup : t.linkUp d.link = s.linkUp d.link) (hspine : t.spine = s.spine)
    (hin : (t.session d.link).inProgress = (s.session d.link).inProgress) (st : Byte) (dt : BitVec 16) (res : List Byte) : s.Replied (t.reply d st dt res) d st dt res := by
  obtain ⟨hlink, hrun, hwant, e, he, htag, hop⟩ := h
  have hdue : t.restartDue = false := by
    rw [State.restartDue, hspine, hwant]
    rfl
  have hany : (t.session d.link).inProgress.any (fun e => decide (e.1 = d.tag ∧ e.2.1 = d.opcode)) = true := by
    rw [hin]
    exact List.any_eq_true.mpr ⟨e, he, decide_eq_true ⟨htag, hop⟩⟩
  rw [State.Replied, ← hsent]
  exact t.reply_sent d st dt res (by rw [hspine, hrun]) hdue (hup.trans hlink) (.inr hany)

/-! ### Commands that their own checks refuse -/

/-- A packet that is a command's but for its own checks is refused by them (R580). -/
theorem refusal_check (s : State) (o : OpSpec) (h : Hdr) (p : Params) (check : State → Option Refuse) (r : Refuse) (ht : s.Takes o h p) (hc : check (s.freeBuffer h.link h.cls) = some r) :
    refusal o h p (s.freeBuffer h.link h.cls) check = some r := by
  obtain ⟨-, -, -, -, hm, ho, hf, hq, -⟩ := ht
  have h1 : ((s.freeBuffer h.link h.cls).collector.faulted && !o.inChipFault) = false := by
    cases hh : s.collector.faulted
    · simp [hh]
    · simp [hf hh]
  have h2 : ((quiresOf h.qmask).any fun q => (s.freeBuffer h.link h.cls).faultComing q) = false := by
    rw [List.any_eq_false]
    intro q hqm
    simp [faultComing_freeBuffer, hq q hqm]
  unfold refusal
  rw [hm, notOwner_freeBuffer, ho]
  dsimp only
  rw [h1, h2, hc, Bool.and_false, Bool.or_self, if_neg Bool.false_ne_true]

/-- Such a refusal is answered, and nothing but the books of packets changes. -/
theorem exec_refuses {s : State} {o : OpSpec} {h : Hdr} {p : Params} {i : Instr} {row : Hdr → Params → Instr} {run : Hdr → Params → State → State} {check : State → Option Refuse} {act : State → ReplyTo → State}
    {refused : State → Byte → List Byte} (hexec : exec i s = .next (front row o.opcode h p s run)) (hrun : run h p s = packet o h p s check act refused)
    (hop : opcodes.contains o.opcode = true) (ht : s.Takes o h p) (r : Refuse) (hc : check (s.freeBuffer h.link h.cls) = some r) :
    ∃ t, exec i s = .next t ∧ s.Answers t h o r.1 r.2 (refused (s.freeBuffer h.link h.cls) r.1) ∧ s.Answered t := by
  refine ⟨(s.freeBuffer h.link h.cls).refuse h o.opcode r (refused (s.freeBuffer h.link h.cls) r.1), hexec.trans (congrArg Host.Outcome.next ?_), ?_, ?_⟩
  · rw [front_taken s row o h p run hop ht, hrun]
    exact packet_refused s o h p check act refused ht.2.1 ht.2.2.1 ((tagUse_freeBuffer s o h _ _).trans ht.2.2.2.1) r (refusal_check s o h p check r ht hc)
  · obtain ⟨hstop, hdue⟩ := State.interpreting_restarting s ht.1
    rw [State.Answers, State.refuse, State.answer_sent _ _ (by rw [State.freeBuffer_spine, hstop]) (by rw [State.freeBuffer_restartDue, hdue]) (by rw [State.freeBuffer_linkUp]; exact ht.2.1), State.freeBuffer_sent]
  · exact (s.freeBuffer_answered h.link h.cls).trans (State.answer_answered _ _)

/-! ### The checker of a lane test (R568) -/

/-- The checker leaves what the test was asked for. -/
theorem LaneTest.check_keeps (l : List (Fin 4)) (t : LaneTest) (b e : Nat) :
    ∃ r c p i, (l.foldl LaneTest.check (t, b, e)).1 = { t with received := r, recent := c, place := p, inTime := i } := by
  induction l generalizing t b e with
  | nil => exact ⟨_, _, _, _, rfl⟩
  | cons g l ih =>
    have hone : ∃ r c p i b' e', LaneTest.check (t, b, e) g = ({ t with received := r, recent := c, place := p, inTime := i }, b', e') := by
      unfold LaneTest.check
      dsimp only
      split
      · exact ⟨_, _, _, _, _, _, rfl⟩
      · exact ⟨_, _, _, _, _, _, rfl⟩
    obtain ⟨r, c, p, i, b', e', h⟩ := hone
    obtain ⟨r', c', p', i', h'⟩ := ih { t with received := r, recent := c, place := p, inTime := i } b' e'
    rw [List.foldl_cons, h]
    exact ⟨r', c', p', i', h'⟩

/-- A lane test goes on: the lane with the checker's new state, and what it compared added to the counts. -/
structure State.Tested (s v : State) (n : LaneId) (a : LaneTest) (bits errors : Nat) : Prop where
  frame : ∃ rs lg sp, v = { (s.modLane n fun x => { x with test := some a }) with regs := rs, log := lg, collector := { s.collector with satPages := sp } }
  bits : v.long (nkey n 0x28) = min (s.long (nkey n 0x28) + bits) (2 ^ 64 - 1)
  errors : v.long (nkey n 0x20) = min (s.long (nkey n 0x20) + errors) (2 ^ 64 - 1)
  other : ∀ k, k ≠ nkey n 0x20 → k ≠ nkey n 0x24 → k ≠ nkey n 0x28 → k ≠ nkey n 0x2C → v.reg k = s.reg k

theorem nkey_next (n : LaneId) (o : Nat) : nkey n o + 4 = nkey n (o + 4) := by
  simp only [nkey, rk]
  omega

/-- What is compared is added to both counts. -/
theorem State.Tested.more {s v : State} {n : LaneId} {a : LaneTest} {bits errors : Nat} (h : s.Tested v n a bits errors) (b e : Nat) :
    s.Tested ((v.bump64 (nkey n 0x28) b).bump64 (nkey n 0x20) e) n a (bits + b) (errors + e) := by
  obtain ⟨⟨rs, lg, sp, hf⟩, hb, he, ho⟩ := h
  have hne : nkey n 0x28 ≠ nkey n 0x20 ∧ nkey n 0x28 ≠ nkey n 0x20 + 4 ∧ nkey n 0x28 + 4 ≠ nkey n 0x20 ∧ nkey n 0x20 ≠ nkey n 0x28 + 4 ∧ nkey n 0x20 + 4 ≠ nkey n 0x28 := by
    simp only [nkey, rk]
    omega
  obtain ⟨h1, h2, h3, h4, h5⟩ := hne
  refine ⟨?_, ?_, ?_, fun k k1 k2 k3 k4 => ?_⟩
  · obtain ⟨g, l, c, hs⟩ := v.bump64_shape (nkey n 0x28) b
    obtain ⟨g', l', c', hs'⟩ := (v.bump64 (nkey n 0x28) b).bump64_shape (nkey n 0x20) e
    exact ⟨g', l', c', hs'.trans (by rw [hs, hf])⟩
  · rw [State.bump64_long_other _ _ _ h1 h2 h3, State.bump64_long, hb]
    omega
  · rw [State.bump64_long, State.bump64_long_other _ _ _ h1.symm h4 h5, he]
    omega
  · rw [State.bump64_reg_other _ _ _ k1 (by rw [nkey_next]; exact k2), State.bump64_reg_other _ _ _ k3 (by rw [nkey_next]; exact k4), ho k k1 k2 k3 k4]

theorem State.Tested.start {s : State} {n : LaneId} {a : LaneTest} (h : (s.lane n).test = some a) : s.Tested s n a 0 0 where
  frame := by
    refine ⟨s.regs, s.log, s.collector.satPages, ?_⟩
    have hlane : { s.lane n with test := some a } = s.lane n := by rw [← h]
    have hset : s.modLane n (fun x => { x with test := some a }) = s := by
      show { s with lanes := s.lanes.set n { s.lane n with test := some a } } = s
      rw [hlane]
      simp [State.lane]
    rw [hset]
  bits := by
    have := s.long_lt (nkey n 0x28)
    omega
  errors := by
    have := s.long_lt (nkey n 0x20)
    omega
  other _ _ _ _ _ := rfl

theorem State.Tested.lanes {s v : State} {n : LaneId} {a : LaneTest} {bits errors : Nat} (h : s.Tested v n a bits errors) :
    v.lane n = { s.lane n with test := some a } ∧ ∀ m, m ≠ n → v.lane m = s.lane m := by
  obtain ⟨⟨rs, lg, sp, hf⟩, -⟩ := h
  have hlane : ∀ m, v.lane m = (s.modLane n fun x => { x with test := some a }).lane m := fun m => by
    rw [hf]
    rfl
  exact ⟨(hlane n).trans (State.lane_modLane_same s n _), fun m hm => (hlane m).trans (State.lane_modLane_other s n m _ hm)⟩

/-- The symbols that reach the checker are compared (R568). -/
theorem State.checkTest_tested {s : State} {n : LaneId} {a : LaneTest} (h : (s.lane n).test = some a) (line : List (Fin 4)) :
    s.Tested (s.checkTest n line) n (line.foldl LaneTest.check (a, 0, 0)).1 (line.foldl LaneTest.check (a, 0, 0)).2.1 (line.foldl LaneTest.check (a, 0, 0)).2.2 := by
  unfold State.checkTest
  rw [h]
  dsimp only
  generalize line.foldl LaneTest.check (a, 0, 0) = r
  have hstart : s.Tested (s.modLane n fun x => { x with test := some r.1 }) n r.1 0 0 := by
    refine ⟨⟨s.regs, s.log, s.collector.satPages, rfl⟩, ?_, ?_, fun _ _ _ _ _ => rfl⟩
    · have := s.long_lt (nkey n 0x28)
      show s.long (nkey n 0x28) = _
      omega
    · have := s.long_lt (nkey n 0x20)
      show s.long (nkey n 0x20) = _
      omega
  have hmore := hstart.more r.2.1 r.2.2
  rwa [Nat.zero_add, Nat.zero_add] at hmore

/-- The last symbols of a test, where its checker listens: the checker's state, and the bits compared and wrong. -/
def State.lastChecked (s : State) (n : LaneId) (a : LaneTest) (line : List (Fin 4)) : LaneTest × Nat × Nat :=
  if (s.lane n).phase = .testing ∧ (a.mode = 1 ∨ a.mode = 2) then (unprecode (s.lane n).rxPrecode (s.lane n).rxLast line).foldl LaneTest.check (a, 0, 0) else (a, 0, 0)

theorem State.lastChecked_keeps (s : State) (n : LaneId) (a : LaneTest) (line : List (Fin 4)) :
    ∃ r c p i, (s.lastChecked n a line).1 = { a with received := r, recent := c, place := p, inTime := i } := by
  unfold State.lastChecked
  split
  · exact LaneTest.check_keeps _ a 0 0
  · exact ⟨_, _, _, _, rfl⟩

theorem laneTestDone_none (n : LaneId) (line : List (Fin 4)) (more wrong : Nat) (s : State) (h : (s.lane n).test = none) : laneTestDone n line more wrong s = s := by
  have hc : (s.lane n).checksLine = false := by simp [Lane.checksLine, h]
  unfold laneTestDone
  rw [hc]
  dsimp only
  rw [if_neg Bool.false_ne_true, h]

/-- The end of a test: the rest of its symbols is compared, and then it ends (R567, R568). -/
theorem laneTestDone_ends (n : LaneId) (line : List (Fin 4)) (more wrong : Nat) (s : State) {a : LaneTest} (h : (s.lane n).test = some a) :
    ∃ v, s.Tested v n (s.lastChecked n a line).1 ((s.lastChecked n a line).2.1 + ((s.lastChecked n a line).1.rest more wrong).1) ((s.lastChecked n a line).2.2 + ((s.lastChecked n a line).1.rest more wrong).2)
      ∧ laneTestDone n line more wrong s = v.endTest n ((s.lastChecked n a line).1.mode = 3 || ((s.lastChecked n a line).1.mode ≠ 0 && (s.lastChecked n a line).1.inTime)) (s.lastChecked n a line).1.back := by
  have hlast : ∃ u, s.Tested u n (s.lastChecked n a line).1 (s.lastChecked n a line).2.1 (s.lastChecked n a line).2.2
      ∧ u = if (s.lane n).checksLine then s.checkTest n (unprecode (s.lane n).rxPrecode (s.lane n).rxLast line) else s := by
    have hc : (s.lane n).checksLine = true ↔ (s.lane n).phase = .testing ∧ (a.mode = 1 ∨ a.mode = 2) := by simp [Lane.checksLine, h]
    refine ⟨_, ?_, rfl⟩
    unfold State.lastChecked
    by_cases hcheck : (s.lane n).phase = .testing ∧ (a.mode = 1 ∨ a.mode = 2)
    · rw [if_pos hcheck, if_pos (hc.mpr hcheck)]
      exact State.checkTest_tested h _
    · rw [if_neg hcheck, if_neg fun h' => hcheck (hc.mp h')]
      exact .start h
  obtain ⟨u, hu, hdef⟩ := hlast
  unfold laneTestDone
  dsimp only
  rw [← hdef, hu.lanes.1]
  exact ⟨_, hu.more _ _, rfl⟩

/-- A lane whose test has ended. -/
def Lane.testEnded (x : Lane) (valid : Bool) (phase : LanePhase) : Lane := { x with test := none, testValid := valid, phase := phase }

/-- What a test leaves at its end, before its reply: the lane, and both counts. -/
structure State.TestOver (s u : State) (n : LaneId) (a : LaneTest) (valid : Bool) (bits errors : Nat) : Prop where
  frame : ∃ ls rs lg sp, u = { s with lanes := ls, regs := rs, log := lg, collector := { s.collector with satPages := sp } }
  lane : u.lane n = (s.lane n).testEnded valid a.back
  others : ∀ m, m ≠ n → u.lane m = s.lane m
  bits : u.long (nkey n 0x28) = min (s.long (nkey n 0x28) + bits) (2 ^ 64 - 1)
  errors : u.long (nkey n 0x20) = min (s.long (nkey n 0x20) + errors) (2 ^ 64 - 1)
  other : ∀ k, k ≠ nkey n 0x20 → k ≠ nkey n 0x24 → k ≠ nkey n 0x28 → k ≠ nkey n 0x2C → u.reg k = s.reg k

theorem State.Tested.ends {s v : State} {n : LaneId} {a : LaneTest} {bits errors : Nat} (h : s.Tested v n a bits errors) (valid : Bool) :
    ∃ u, s.TestOver u n a valid bits errors ∧ v.endTest n valid a.back = match a.waiter with | some d => u.reply d stOk 0 (testResult u n) | none => u := by
  obtain ⟨hlane, hother⟩ := h.lanes
  refine ⟨v.modLane n (Lane.testEnded · valid a.back), ⟨?_, ?_, fun m hm => ?_, h.bits, h.errors, h.other⟩, ?_⟩
  · obtain ⟨rs, lg, sp, hf⟩ := h.frame
    rw [hf]
    exact ⟨_, _, _, _, rfl⟩
  · rw [State.lane_modLane_same, hlane]
    rfl
  · rw [State.lane_modLane_other _ _ _ _ hm, hother m hm]
  · unfold State.endTest
    rw [hlane]
    rfl

/-- The words of a test's result. -/
theorem testResult_eq (u : State) (n : LaneId) : testResult u n = le 8 (u.long (nkey n 0x28)) ++ le 8 (u.long (nkey n 0x20)) ++ le 1 (b2n (u.lane n).testValid) ++ le 3 0 := by
  rw [← State.long_bytes, ← State.long_bytes, nkey_next, nkey_next]
  simp only [testResult, List.append_assoc]

/-! ### LANE_TEST (R565 to R567) -/

/-- The test that a packet asks for, with its pattern started by a free value. -/
def askedTest (h : Hdr) (p : Params) (w : Word) (back : LanePhase) : LaneTest :=
  { pattern := par p 1 1, mode := par p 2 1, durationUs := par p 4 4, inject := par p 8 8, waiter := if par p 3 1 = 1 then some (hdrDest h opLaneTest.opcode) else none, back := back
    gen := patternStart (par p 1 1) w, sent := 0, received := 0, recent := [], place := none, inTime := false }

/-- The chip with the test begun, its counts 0. -/
def State.testBegun (s : State) (h : Hdr) (p : Params) (n : LaneId) : State :=
  ([0x20, 0x24, 0x28, 0x2C].foldl (fun (s : State) o => s.setReg (nkey n o) 0) s.takeFree.2).modLane n fun x =>
    { x with phase := .testing, test := some (askedTest h p s.takeFree.1 (s.lane n).phase), testValid := false }

theorem laneId_par {p : Params} {n : LaneId} (hn : par p 0 1 = n.val) : laneId (par p 0 1) = n := Fin.ext (by
  have := n.isLt
  show par p 0 1 % 16 = n.val
  omega)

/-- The counts of a lane test. -/
def testCounts (n : LaneId) : List Nat := [0x20, 0x24, 0x28, 0x2C].map (nkey n)

section
variable (u : State) (h : Hdr) (p : Params) (n : LaneId)

theorem State.testBegun_frame : ∃ ls rs, u.testBegun h p n = { u with lanes := ls, regs := rs, fresh := u.fresh + 1 } := ⟨_, _, rfl⟩

theorem State.testBegun_lane : (u.testBegun h p n).lane n = { u.lane n with phase := .testing, test := some (askedTest h p u.takeFree.1 (u.lane n).phase), testValid := false } := State.lane_modLane_same ..

theorem State.testBegun_lane_other {m : LaneId} (hm : m ≠ n) : (u.testBegun h p n).lane m = u.lane m := State.lane_modLane_other _ _ _ _ hm

theorem State.testBegun_counts : ∀ k ∈ testCounts n, (u.testBegun h p n).reg k = 0 := by
  have hne : ∀ o o' : Nat, o ≠ o' → nkey n o ≠ nkey n o' := fun o o' ho he => ho (by
    simp only [nkey, rk] at he
    omega)
  have hreg : (u.testBegun h p n).reg = (((((u.setReg (nkey n 0x20) 0).setReg (nkey n 0x24) 0).setReg (nkey n 0x28) 0).setReg (nkey n 0x2C) 0)).reg := rfl
  rw [hreg]
  simp only [testCounts, List.map_cons, List.map_nil, List.mem_cons, List.not_mem_nil, or_false, forall_eq_or_imp, forall_eq]
  refine ⟨?_, ?_, ?_, State.reg_setReg_same ..⟩
  · rw [State.reg_setReg_other _ _ _ _ (hne _ _ (by decide)), State.reg_setReg_other _ _ _ _ (hne _ _ (by decide)), State.reg_setReg_other _ _ _ _ (hne _ _ (by decide)), State.reg_setReg_same]
  · rw [State.reg_setReg_other _ _ _ _ (hne _ _ (by decide)), State.reg_setReg_other _ _ _ _ (hne _ _ (by decide)), State.reg_setReg_same]
  · rw [State.reg_setReg_other _ _ _ _ (hne _ _ (by decide)), State.reg_setReg_same]

end

section
variable {s : State} {h : Hdr} {p : Params} {n : LaneId} (ht : s.Takes opLaneTest h p) (hn : par p 0 1 = n.val)
include ht hn

theorem doLaneTest_taken (hcheck : laneTestCheck p (s.freeBuffer h.link h.cls) = none) :
    exec (.laneTest h p) s = .next (if par p 3 1 = 1 then (s.taken h opLaneTest.opcode).testBegun h p n else ((s.taken h opLaneTest.opcode).testBegun h p n).reply (hdrDest h opLaneTest.opcode) stDeferred) := by
  have hexec := exec_command (i := .laneTest h p) (o := opLaneTest) (row := .laneTest) (run := doLaneTest) rfl (doLaneTest.eq_1 h p s) (by decide) ht hcheck
  refine hexec.trans (congrArg Host.Outcome.next ?_)
  dsimp only
  rw [laneId_par hn]
  rfl

omit ht in
/-- The parameters of the test are in range (R566, R567). -/
theorem laneTestCheck_eq (h1 : par p 1 1 ≤ 3) (h2 : par p 2 1 ≤ 3) (h3 : par p 3 1 ≤ 1) (h4 : par p 4 4 ≠ 0) (h5 : par p 8 8 = 0 ∨ (2 ^ 10 ≤ par p 8 8 ∧ par p 8 8 ≤ 2 ^ 40)) :
    laneTestCheck p (s.freeBuffer h.link h.cls) = if (s.lane n).phase = .out ∨ (s.lane n).phase = .failed then none else some (stState, detChip) := by
  have := n.isLt
  unfold laneTestCheck
  dsimp only
  rw [if_neg (by omega), if_neg (by omega), if_neg (by omega), if_neg (by omega), if_neg h4, if_neg (by omega), laneId_par hn, State.freeBuffer_lane]

omit hn in
theorem State.testBegun_due : s.Due ((s.taken h opLaneTest.opcode).testBegun h p n) opLaneTest h := by
  obtain ⟨ls, rs, hframe⟩ := (s.taken h opLaneTest.opcode).testBegun_frame h p n
  have hdue := ht.due
  rw [hframe]
  exact ⟨hdue.sent, hdue.up, hdue.running, hdue.idle, hdue.inProgress⟩

omit ht hn in
/-- The command stands in progress until its test ends. -/
theorem State.testBegun_inProgress : (h.tag, opLaneTest.opcode, h.qmask) ∈ (((s.taken h opLaneTest.opcode).testBegun h p n).session h.link).inProgress := by
  obtain ⟨ls, rs, hframe⟩ := (s.taken h opLaneTest.opcode).testBegun_frame h p n
  have hsession : ((s.taken h opLaneTest.opcode).testBegun h p n).session h.link = (s.taken h opLaneTest.opcode).session h.link := by
    rw [hframe]
    rfl
  rw [hsession, State.taken, State.accept_session _ _ _ (by decide)]
  exact List.mem_append_right _ (List.mem_singleton.mpr rfl)

end

end Sys2Proof.Machine
end

section
/-! Writes of `LANE_CTRL` and `LINK_CTRL`, and reads of `FEC_PEAK` (R519, R550, R554, R557, R558, R569 to R571, R728). -/

namespace Sys2Proof.Machine

/-! ### The addresses of page 0x04 -/

/-- The address of an offset of page 0x04. -/
def hostAddr (o : Nat) : Nat := 2 ^ 20 * 4 + o

section
variable {o : Nat} (ho : o < 2 ^ 20)
include ho

theorem addrScope_hostAddr : addrScope (hostAddr o) = 0 := by
  unfold addrScope hostAddr
  omega

theorem addrPage_hostAddr : addrPage (hostAddr o) = 4 := by
  unfold addrPage hostAddr
  omega

theorem addrOff_hostAddr : addrOff (hostAddr o) = o := by
  unfold addrOff hostAddr
  omega

theorem accessRange_hostAddr (hlast : o ≤ 0x13FC) : accessRange (hostAddr o) 1 = none := by
  unfold accessRange addrLast
  rw [addrScope_hostAddr ho, addrPage_hostAddr ho, addrOff_hostAddr ho]
  simp only [if_true, chipPageLast]
  rw [if_neg (by omega), if_neg (by omega)]

theorem chipMask_host : chipMask (rk 4 o) = if 0x108 ≤ o ∧ o < 0x308 ∧ (o - 0x108) % 0x40 = 0 then 0x8000FFFF else if 0x1000 ≤ o ∧ o < 0x1400 ∧ (o - 0x1000) % 0x40 = 0 then 0xA01FFFFF else 0 := by
  have h1 : rk 4 o / 2 ^ 20 = 4 := by
    unfold rk
    omega
  have h2 : rk 4 o % 2 ^ 20 = o := by
    unfold rk
    omega
  unfold chipMask
  dsimp only
  rw [h1, h2]
  rfl

end

/-- The offset of a lane's registers, and of a link's `LINK_CTRL`. -/
def laneOff (n : LaneId) : Nat := 0x1000 + 0x40 * n.val

theorem laneOff_lt (n : LaneId) : laneOff n < 2 ^ 20 := by
  unfold laneOff
  omega

theorem rk_laneOff (n : LaneId) : rk 4 (laneOff n) = nkey n 0 := rfl

theorem isLaneCtrl_laneOff (n : LaneId) : isLaneCtrl 4 (laneOff n) = true := by
  unfold isLaneCtrl laneOff
  have := n.isLt
  simp
  omega

theorem isLinkCtrl_laneOff (n : LaneId) : isLinkCtrl 4 (laneOff n) = false := by
  unfold isLinkCtrl laneOff
  simp

theorem offLane_laneOff (n : LaneId) : offLane (laneOff n) = n := Fin.ext (by
  have := n.isLt
  show (laneOff n - 0x1000) / 0x40 % 16 = n.val
  unfold laneOff
  omega)

theorem chipMask_lane (n : LaneId) : chipMask (nkey n 0) = 0xA01FFFFF := by
  rw [← rk_laneOff, chipMask_host (laneOff_lt n)]
  have := n.isLt
  unfold laneOff
  rw [if_neg (by omega), if_pos (by omega)]

/-! ### `LANE_CTRL` -/

/-- What refuses a write of `LANE_CTRL` (R558, R570). -/
theorem writeRefusal_lane (s : State) (k : LinkId) (n : LaneId) (off : Nat) (v : Word) :
    writeRefusal s k (hostAddr (laneOff n)) off v = if 17 ≤ fld v 16 5 then rangeAt off else if bit v 31 = true ∧ s.lastLane k n = true then some (stState, detChip) else none := by
  unfold writeRefusal
  rw [addrScope_hostAddr (laneOff_lt n), addrPage_hostAddr (laneOff_lt n), addrOff_hostAddr (laneOff_lt n)]
  simp only [valueRange, isLaneCtrl_laneOff, isLinkCtrl_laneOff, offLane_laneOff]
  simp

/-- What a write of `LANE_CTRL` does beside the register. -/
def State.laneActs (s : State) (n : LaneId) (v old : Word) : State :=
  let t := if bit v 31 ∧ !bit old 31 then s.laneOut n else if !bit v 31 ∧ (bit old 31 ∨ (s.lane n).phase = .testing) then s.laneReturn n else s
  if bit v 30 then t.laneRetrain n else t

theorem writeWord_lane (s : State) (n : LaneId) (v : Word) :
    writeWord s (hostAddr (laneOff n)) v = (s.setReg (nkey n 0) (rwWrite 0xA01FFFFF (s.reg (nkey n 0)) v)).laneActs n v (s.reg (nkey n 0)) := by
  unfold writeWord State.writeChip
  rw [addrScope_hostAddr (laneOff_lt n), addrPage_hostAddr (laneOff_lt n), addrOff_hostAddr (laneOff_lt n), if_pos rfl, isLaneCtrl_laneOff]
  simp only [show isTsqPop 4 (laneOff n) = false from rfl, State.writeLaneCtrl, offLane_laneOff, rk_laneOff, chipMask_lane]
  simp [State.laneActs]

/-! ### What acts on a lane alone -/

/-- The chip `t` is `s` but for one lane and for the changes of width of its links. -/
structure State.LaneActed (s t : State) (n : LaneId) : Prop where
  frame : ∃ ls ks, t = { s with lanes := ls, links := ks }
  others : ∀ m, m ≠ n → t.lane m = s.lane m
  up : ∀ k, t.linkUp k = s.linkUp k

namespace State.LaneActed

variable {s t u : State} {n : LaneId}

theorem refl (s : State) (n : LaneId) : s.LaneActed s n := ⟨⟨_, _, rfl⟩, fun _ _ => rfl, fun _ => rfl⟩

theorem trans (h : s.LaneActed t n) (h' : t.LaneActed u n) : s.LaneActed u n where
  frame := by
    obtain ⟨ls, ks, h1⟩ := h.frame
    obtain ⟨ls', ks', h2⟩ := h'.frame
    exact ⟨ls', ks', by rw [h2, h1]⟩
  others m hm := (h'.others m hm).trans (h.others m hm)
  up k := (h'.up k).trans (h.up k)

theorem modLane (s : State) (n : LaneId) (f : Lane → Lane) : s.LaneActed (s.modLane n f) n := ⟨⟨_, _, rfl⟩, fun _ hm => State.lane_modLane_other _ _ _ _ hm, fun _ => rfl⟩

theorem proposed (s : State) (n : LaneId) (k : LinkId) (mask : Byte) (h : (s.link k).carries = true) : s.LaneActed (s.proposed k mask) n := ⟨⟨_, _, rfl⟩, fun _ _ => rfl, fun j => by
  rcases eq_or_ne j k with rfl | hj
  · have hup : s.linkUp j = true := h
    rw [hup, State.linkUp, State.proposed, State.link_modLink_same]
    rfl
  · rw [State.linkUp, State.proposed, State.link_modLink_other _ _ _ _ hj, State.linkUp]⟩

end State.LaneActed

/-- What acts on a lane keeps a reply due. -/
theorem State.Due.laneActed {s u g : State} {o : OpSpec} {h : Hdr} {n : LaneId} (hd : s.Due u o h) (ha : u.LaneActed g n) : s.Due g o h := by
  obtain ⟨⟨ls, ks, rfl⟩, -, hup⟩ := ha
  exact ⟨hd.sent, (hup h.link).trans hd.up, hd.running, hd.idle, hd.inProgress⟩

theorem State.Due.setReg {s u : State} {o : OpSpec} {h : Hdr} (hd : s.Due u o h) (k : Nat) (v : Word) : s.Due (u.setReg k v) o h := ⟨hd.sent, hd.up, hd.running, hd.idle, hd.inProgress⟩

theorem State.Booked.setReg {u t : State} (hb : u.Booked t) (k : Nat) (v : Word) : (u.setReg k v).Booked (t.setReg k v) := by
  obtain ⟨hf, -, hreg⟩ := hb
  refine ⟨by rw [hf]; rfl, by simp, fun j hj hlow => ?_⟩
  rcases eq_or_ne j k with rfl | hne
  · rw [State.reg_setReg_same, State.reg_setReg_same]
  · rw [State.reg_setReg_other _ _ _ _ hne, State.reg_setReg_other _ _ _ _ hne, hreg j (by simp) hlow]

/-! ### A lane is taken out (R557, R558) -/

section
variable {s : State} {n : LaneId} {k : LinkId}

theorem State.laneOut_serving (hk : s.linkOf n = some k) (hl : (s.link k).carries = true) (hs : (s.link k).serves n = true) : s.laneOut n = s.removeLane k n .out := by
  unfold State.laneOut
  dsimp only
  rw [hk]
  exact if_pos (by simp [hl, hs])

/-- A lane outside every direction's stripes. -/
def State.laneIdle (s : State) (n : LaneId) : Prop := ∀ g, (s.link g).serves n = false ∧ (s.link g).hears n = false

theorem State.laneOut_idle (hidle : s.laneIdle n) (hp : (s.lane n).phase ≠ .testing) (hr : (s.lane n).ready = false) : s.laneOut n = s.modLane n Lane.goOut := by
  unfold State.laneOut
  dsimp only
  cases hk : s.linkOf n with
  | none => exact if_neg hp
  | some k =>
    dsimp only
    rw [if_neg (by simp [hidle k]), if_neg hp, if_pos (by simp [hr])]

/-- A retrained lane that no acknowledged change adds is taken from the pending one. -/
theorem State.laneOut_pending (hidle : s.laneIdle n) (hp : (s.lane n).phase = .retraining) (hr : (s.lane n).ready = true) (hk : s.linkOf n = some k) (hl : (s.link k).carries = true) {c : WidthChange}
    (hc : (s.link k).change = some c) (ha : c.acked = false) (h0 : c.mask &&& ~~~(laneBit (s.link k) n) ≠ 0) : s.laneOut n = (s.modLane n Lane.goOut).proposed k (c.mask &&& ~~~(laneBit (s.link k) n)) := by
  unfold State.laneOut
  dsimp only
  rw [hk]
  dsimp only
  rw [if_neg (by simp [hidle k]), if_neg (by simp [hp]), if_neg (by simp [hr, hl]), if_neg (by simp [hc, ha]), if_neg (by simp [hc])]
  exact State.proposeWidth_again (s.modLane n Lane.goOut) k (fun m => m &&& ~~~(laneBit (s.link k) n)) hl hc ha h0

/-! ### A lane comes back, and retrains (R550, R554, R557) -/

/-- The lane is one of a link that carries. -/
def State.laneUp (s : State) (n : LaneId) : Bool := (s.linkOf n).any fun g => (s.link g).carries

theorem State.laneUp_iff (s : State) (n : LaneId) : s.laneUp n = true ↔ ∃ g, s.linkOf n = some g ∧ (s.link g).carries = true := by
  cases h : s.linkOf n <;> simp [State.laneUp, h]

/-- A lane that begins to retrain. -/
def Lane.retrains (x : Lane) (up : Bool) : Lane := { x.unlocked with phase := if up then .retraining else .down, attempts := 0, leave := none, wasFailed := false }

theorem State.beginRetrain_eq (s : State) (n : LaneId) : s.beginRetrain n = s.modLane n (Lane.retrains · (s.laneUp n)) := by
  unfold State.beginRetrain State.laneUp
  cases s.linkOf n <;> rfl

theorem State.laneReturn_out (hp : (s.lane n).phase = .out) (hw : (s.lane n).wasFailed = false) : s.laneReturn n = s.beginRetrain n := by
  unfold State.laneReturn
  rw [hp]
  exact if_neg (by simp [hw])

theorem State.laneReturn_failed (hp : (s.lane n).phase = .out) (hw : (s.lane n).wasFailed = true) : s.laneReturn n = s.modLane n fun x => { x with phase := .failed, wasFailed := false } := by
  unfold State.laneReturn
  rw [hp]
  exact if_pos hw

/-- A lane whose test has ended. -/
def Lane.untested (x : Lane) : Lane := { x with test := none, testValid := false, phase := .out }

theorem State.laneReturn_testing {a : LaneTest} (hp : (s.lane n).phase = .testing) (ht : (s.lane n).test = some a) (hw : a.waiter = none) : s.laneReturn n = (s.modLane n Lane.untested).beginRetrain n := by
  unfold State.laneReturn
  rw [hp]
  dsimp only
  unfold State.endTest
  rw [ht]
  dsimp only
  rw [hw]
  rfl

theorem State.laneReturn_leaving (hp : (s.lane n).phase = .inLink) : s.laneReturn n = s.modLane n fun x => if x.leave = some .out then { x with leave := if x.ready then none else some .retraining } else x := by
  unfold State.laneReturn
  rw [hp]

theorem State.laneRetrain_serving (hp : (s.lane n).phase = .inLink) : s.laneRetrain n = s.retrainLane n := by
  unfold State.laneRetrain
  rw [hp]

theorem State.laneRetrain_down (hp : (s.lane n).phase = .failed ∨ (s.lane n).phase = .down) : s.laneRetrain n = s.beginRetrain n := by
  unfold State.laneRetrain
  obtain hp | hp := hp
  · rw [hp]
  · rw [hp]

theorem State.laneRetrain_out (hp : (s.lane n).phase = .out) : s.laneRetrain n = s.modLane n fun x => { x with wasFailed := false } := by
  unfold State.laneRetrain
  rw [hp]

end

/-! ### Links that differ by their classes alone -/

namespace State.LinksAlike

variable {s t : State} (h : s.LinksAlike t)
include h

theorem serves (k : LinkId) (n : LaneId) : (t.link k).serves n = (s.link k).serves n := by
  rw [h k]
  rfl

theorem hears (k : LinkId) (n : LaneId) : (t.link k).hears n = (s.link k).hears n := by
  rw [h k]
  rfl

theorem change (k : LinkId) : (t.link k).change = (s.link k).change := by rw [h k]

theorem inService (k : LinkId) : (t.link k).inService = (s.link k).inService := by rw [h k]

theorem laneBit (k : LinkId) (n : LaneId) : Machine.laneBit (t.link k) n = Machine.laneBit (s.link k) n := by
  rw [h k]
  rfl

theorem service (k : LinkId) : (t.link k).service = (s.link k).service := by
  rw [h k]
  rfl

theorem linkOf (n : LaneId) : t.linkOf n = s.linkOf n := by
  unfold State.linkOf
  congr 1
  funext k
  rw [h k]
  rfl

theorem linkUp (k : LinkId) : t.linkUp k = s.linkUp k := by
  rw [State.linkUp, h k]
  rfl

theorem laneUp (n : LaneId) : t.laneUp n = s.laneUp n := by
  unfold State.laneUp
  rw [h.linkOf n]
  congr 1
  funext g
  exact h.carries g

theorem laneIdle (n : LaneId) : t.laneIdle n ↔ s.laneIdle n := forall_congr' fun g => by rw [h.serves g, h.hears g]

variable (hlanes : t.lanes = s.lanes)
include hlanes

theorem nextCw (k : LinkId) : t.nextCw k = s.nextCw k := by
  unfold State.nextCw
  rw [h.service k]
  cases (s.link k).service with
  | nil => rfl
  | cons n _ => exact congrArg Lane.txSeq (State.lane_congr s t n hlanes)

theorem lastLane (k : LinkId) (n : LaneId) : t.lastLane k n = s.lastLane k n := by
  have hlane : ∀ m, t.lane m = s.lane m := fun m => State.lane_congr s t m hlanes
  unfold State.lastLane State.newMask
  simp only [hlane]
  rw [h k]
  rfl

end State.LinksAlike

/-! ### The last lane of a link (R558) -/

theorem State.lastLane_other {s : State} {k : LinkId} {n : LaneId} (h : (s.link k).serves n = false) : s.lastLane k n = false := by
  unfold State.lastLane
  dsimp only
  rw [h, Bool.false_and]

theorem State.lastLane_iff {s : State} {k : LinkId} {n : LaneId} (hc : (s.link k).change = none) (hs : (s.link k).serves n = true) :
    s.lastLane k n = true ↔ ¬∃ m, m ≠ n ∧ m ∈ (s.link k).service ∧ (s.lane m).leave = none := by
  unfold State.lastLane
  dsimp only
  rw [hc, hs]
  dsimp only
  rw [Bool.true_and, List.all_eq_true]
  constructor
  · rintro h ⟨m, hne, hm, hl⟩
    obtain ⟨hin, hbit⟩ := (Link.serves_iff _ _).mp (Link.mem_service.mp hm)
    have hall := h m (Link.mem_lanes.mpr hin)
    simp only [Bool.or_eq_true, decide_eq_true_eq, hl, Option.isSome_none, Bool.false_eq_true, or_false] at hall
    exact hall.elim hne hbit
  · intro h m hm
    by_contra hno
    simp only [Bool.or_eq_true, decide_eq_true_eq, not_or] at hno
    obtain ⟨⟨hne, hbit⟩, hl⟩ := hno
    exact h ⟨m, hne, Link.mem_service.mpr ((Link.serves_iff _ _).mpr ⟨Link.mem_lanes.mp hm, hbit⟩), by simpa using hl⟩

/-- Without a lane, a mask keeps the bit of another. -/
theorem Link.rest_ne_zero {l : Link} {n m : LaneId} (hn : l.serves n = true) (hm : l.serves m = true) (hne : m ≠ n) : l.inService &&& ~~~(laneBit l n) ≠ 0 := by
  obtain ⟨hn, -⟩ := Link.serves_holds hn
  obtain ⟨hm, hbit⟩ := Link.serves_holds hm
  have hb := Link.base_le hn
  have hb' := Link.base_le hm
  have hlt := BitVec.lt_of_getLsbD hbit
  have hne' : m.val - l.base ≠ n.val - l.base := fun h => hne (Fin.ext (by omega))
  refine fun h0 => absurd (congrArg (fun b : Byte => b.getLsbD (m.val - l.base)) h0) ?_
  rw [BitVec.getLsbD_and, BitVec.getLsbD_not, getLsbD_laneBit, hbit]
  simp [hlt, hne']

/-! ### A write of `LANE_CTRL` from its packet to its reply -/

section
variable {s : State} {h : Hdr} {p : Params} {n : LaneId} (ht : s.Takes opWriteCfg h p) (ha : par p 0 4 = hostAddr (laneOff n))
include ht ha

omit ht in
theorem atLaneCtrl_par : atLaneCtrl p = true := by
  unfold atLaneCtrl
  rw [ha, addrScope_hostAddr (laneOff_lt n), addrPage_hostAddr (laneOff_lt n), addrOff_hostAddr (laneOff_lt n), isLaneCtrl_laneOff]
  rfl

/-- The chip with the register written, before the write acts on the lane. -/
def State.ctrlWritten (s : State) (h : Hdr) (p : Params) (n : LaneId) : State :=
  (s.taken h opWriteCfg.opcode).setReg (nkey n 0) (rwWrite 0xA01FFFFF (s.reg (nkey n 0)) (parW p 4))

omit ht ha in
theorem State.taken_reg (s : State) (h : Hdr) (op : Byte) {k : Nat} (hk : k < rk 8 0x104 ∨ rk 8 0x204 ≤ k) : (s.taken h op).reg k = s.reg k := (s.taken_booked h op).2.2 k (by simp) hk

omit ht ha in
theorem nkey_low (n : LaneId) {o : Nat} (ho : o < 0x40) : nkey n o < rk 8 0x104 ∨ rk 8 0x204 ≤ nkey n o := by
  simp only [nkey, rk]
  omega

omit ht ha in
theorem State.ctrlWritten_alike : s.LinksAlike (s.ctrlWritten h p n) := (s.taken_linksAlike h opWriteCfg.opcode).trans (.of_links rfl)

omit ht ha in
theorem State.ctrlWritten_lanes : (s.ctrlWritten h p n).lanes = s.lanes := by
  rw [State.ctrlWritten, State.setReg_lanes, State.taken_withBooks]
  rfl

/-- What refuses the write: a value out of range, or the last lane of the session's link. -/
def State.laneCtrlRefusal (s : State) (k : LinkId) (n : LaneId) (v : Word) : Option Refuse :=
  if 17 ≤ fld v 16 5 then rangeAt 4 else if bit v 31 = true ∧ s.lastLane k n = true then some (stState, detChip) else none

omit ht in
theorem laneCtrl_check (k : LinkId) (g : PktClass) : (match accessRange (par p 0 4) 1 with | some r => some r | none => writeRefusal (s.freeBuffer h.link g) k (par p 0 4) 4 (parW p 4)) =
    s.laneCtrlRefusal k n (parW p 4) := by
  rw [ha, accessRange_hostAddr (laneOff_lt n) (by unfold laneOff; omega)]
  dsimp only
  rw [writeRefusal_lane, (s.freeBuffer_linksAlike h.link g).lastLane (s.freeBuffer_lanes h.link g)]
  rfl

variable {i : Instr} {row : Hdr → Params → Instr} {mine : Params → Bool} (hexec : exec i s = .next (rowWrite mine row h p s)) (hmine : mine p = true)
include hexec hmine

/-- What the write leaves: the register, and what acting on the lane left. -/
theorem laneCtrl_serves (hno : s.laneCtrlRefusal h.link n (parW p 4) = none) {g : State} (hg : (s.ctrlWritten h p n).laneActs n (parW p 4) (s.reg (nkey n 0)) = g)
    (hacts : (s.ctrlWritten h p n).LaneActed g n) : ∃ t, exec i s = .next t ∧ s.Answers t h opWriteCfg stOk 0 [] ∧ t.quires = s.quires ∧ t.reg (nkey n 0) = rwWrite 0xA01FFFFF (s.reg (nkey n 0)) (parW p 4)
      ∧ (∀ m, m ≠ n → t.lane m = s.lane m) ∧ t.lane n = g.lane n ∧ g.LinksAlike t := by
  have hfront := hexec.trans (congrArg Host.Outcome.next (rowWrite_taken mine row ht.2.2.2.2.2.2.2.2.2.2 hmine))
  have hact : exec i s = .next (g.reply (hdrDest h opWriteCfg.opcode) stOk) := by
    rw [exec_command hfront (doWriteCfg.eq_1 h p s) (by decide) ht ((laneCtrl_check ha h.link h.cls).trans hno), ha, writeWord_lane, s.taken_reg h _ (nkey_low n (by decide))]
    rw [← hg]
    rfl
  obtain ⟨ls, ks, hframe⟩ := hacts.frame
  have hbooked := s.taken_booked h opWriteCfg.opcode
  have hdue : s.Due g opWriteCfg h := (ht.due.setReg (nkey n 0) _).laneActed hacts
  obtain ⟨hsent, hb⟩ := hdue.reply (hdrDest h opWriteCfg.opcode) stOk 0 [] rfl rfl rfl
  have hreplied := hb (by decide)
  have hlanes : (g.reply (hdrDest h opWriteCfg.opcode) stOk).lanes = g.lanes := by
    rw [hreplied.eq_withBooks]
    rfl
  refine ⟨_, hact, hsent, ?_, ?_, fun m hm => ?_, State.lane_congr _ _ n hlanes, g.reply_linksAlike _ _ _ _⟩
  · rw [hreplied.quires, hframe]
    exact hbooked.quires
  · rw [hreplied.2.2 _ (by simp) (nkey_low n (by decide)), hframe]
    exact State.reg_setReg_same ..
  · rw [State.lane_congr _ _ m hlanes, hacts.others m hm]
    exact State.lane_congr _ _ m State.ctrlWritten_lanes

theorem laneCtrl_refuses (r : Refuse) (hr : s.laneCtrlRefusal h.link n (parW p 4) = some r) :
    ∃ t, exec i s = .next t ∧ s.Answers t h opWriteCfg r.1 r.2 [] ∧ t.lanes = s.lanes ∧ t.reg (nkey n 0) = s.reg (nkey n 0) := by
  have hfront := hexec.trans (congrArg Host.Outcome.next (rowWrite_taken mine row ht.2.2.2.2.2.2.2.2.2.2 hmine))
  obtain ⟨t, hx, hans, hframe⟩ := exec_refuses hfront (doWriteCfg.eq_1 h p s) (by decide) ht r ((laneCtrl_check ha h.link h.cls).trans hr)
  refine ⟨t, hx, hans, ?_, hframe.regs _ (nkey_low n (by decide))⟩
  rw [hframe.frame]

end

theorem State.laneCtrlRefusal_none {s : State} {k : LinkId} {n : LaneId} {v : Word} (hr : fld v 16 5 ≤ 16) (hlast : bit v 31 = true → s.lastLane k n = false) : s.laneCtrlRefusal k n v = none := by
  unfold State.laneCtrlRefusal
  rw [if_neg (by omega), if_neg fun h => by simp [hlast h.1] at h]

section
variable {u : State} {n : LaneId} {v old : Word}

theorem State.laneActs_out (h : bit v 31 = true) (hold : ¬bit old 31 = true) (hq : bit v 30 = false) : u.laneActs n v old = u.laneOut n := by
  unfold State.laneActs
  simp [h, hold, hq]

theorem State.laneActs_return (h : ¬bit v 31 = true) (hold : bit old 31 = true ∨ (u.lane n).phase = .testing) (hq : bit v 30 = false) : u.laneActs n v old = u.laneReturn n := by
  unfold State.laneActs
  simp [h, hold, hq]

theorem State.laneActs_same (hsame : bit v 31 = true ↔ bit old 31 = true) (ht : bit v 31 = true ∨ (u.lane n).phase ≠ .testing) : u.laneActs n v old = if bit v 30 then u.laneRetrain n else u := by
  unfold State.laneActs
  cases h : bit v 31 with
  | true => simp [hsame.mp h]
  | false =>
    have hold : ¬bit old 31 = true := fun h' => by simp [hsame.mpr h'] at h
    simp [hold, ht.resolve_left (by simp [h])]

end

/-! ### `LINK_CTRL`, and the word that holds `FEC_PEAK` -/

/-- The offset of a link's `LINK_CTRL`. -/
def linkCtrlOff (k : LinkId) : Nat := 0x108 + 0x40 * k.val

theorem linkCtrlOff_lt (k : LinkId) : linkCtrlOff k < 2 ^ 20 := by
  unfold linkCtrlOff
  omega

theorem isLinkCtrl_linkCtrlOff (k : LinkId) : isLinkCtrl 4 (linkCtrlOff k) = true := by
  unfold isLinkCtrl linkCtrlOff
  have := k.isLt
  simp only [decide_true, Bool.true_and, Bool.and_eq_true, decide_eq_true_eq]
  omega

theorem isLaneCtrl_linkCtrlOff (k : LinkId) : isLaneCtrl 4 (linkCtrlOff k) = false := by
  unfold isLaneCtrl linkCtrlOff
  simp

theorem writeRefusal_link (s : State) (j k : LinkId) (off : Nat) (v : Word) : writeRefusal s j (hostAddr (linkCtrlOff k)) off v = if s.eiAuto then some (stState, detChip) else none := by
  unfold writeRefusal
  rw [addrScope_hostAddr (linkCtrlOff_lt k), addrPage_hostAddr (linkCtrlOff_lt k), addrOff_hostAddr (linkCtrlOff_lt k)]
  simp only [valueRange, isLaneCtrl_linkCtrlOff, isLinkCtrl_linkCtrlOff]
  simp

theorem writeWord_link (s : State) (k : LinkId) (v : Word) :
    writeWord s (hostAddr (linkCtrlOff k)) v = s.setReg (rk 4 (linkCtrlOff k)) ((s.reg (rk 4 (linkCtrlOff k)) &&& ~~~0x8000FFFF) ||| (v &&& 0x8000FFFF)) := by
  have hmask : chipMask (rk 4 (linkCtrlOff k)) = 0x8000FFFF := by
    rw [chipMask_host (linkCtrlOff_lt k)]
    have := k.isLt
    unfold linkCtrlOff
    rw [if_pos (by omega)]
  unfold writeWord State.writeChip
  rw [addrScope_hostAddr (linkCtrlOff_lt k), addrPage_hostAddr (linkCtrlOff_lt k), addrOff_hostAddr (linkCtrlOff_lt k), if_pos rfl, isLaneCtrl_linkCtrlOff]
  dsimp only
  rw [hmask]
  simp [show isTsqPop 4 (linkCtrlOff k) = false from rfl, rwWrite]

section
variable {s : State} {h : Hdr} {p : Params} {k : LinkId} (ht : s.Takes opWriteCfg h p) (ha : par p 0 4 = hostAddr (linkCtrlOff k))
include ha

theorem eiEnRow_par : eiEnRow p = true := by
  unfold eiEnRow
  rw [ha, addrScope_hostAddr (linkCtrlOff_lt k), addrPage_hostAddr (linkCtrlOff_lt k), addrOff_hostAddr (linkCtrlOff_lt k), isLinkCtrl_linkCtrlOff]
  rfl

theorem linkCtrl_check (j : LinkId) (g : PktClass) : (match accessRange (par p 0 4) 1 with | some r => some r | none => writeRefusal (s.freeBuffer h.link g) j (par p 0 4) 4 (parW p 4)) =
    if s.eiAuto then some (stState, detChip) else none := by
  rw [ha, accessRange_hostAddr (linkCtrlOff_lt k) (by unfold linkCtrlOff; omega)]
  exact writeRefusal_link _ j k 4 (parW p 4)

include ht

theorem eiEnWrite_front : exec (.eiEnWrite h p) s = .next (front .eiEnWrite opWriteCfg.opcode h p s doWriteCfg) :=
  congrArg Host.Outcome.next (rowWrite_taken eiEnRow .eiEnWrite ht.2.2.2.2.2.2.2.2.2.2 (eiEnRow_par ha))

theorem eiEnWrite_serves (hauto : s.eiAuto = false) :
    s.Serves (.eiEnWrite h p) h opWriteCfg [] (s.setReg (rk 4 (linkCtrlOff k)) ((s.reg (rk 4 (linkCtrlOff k)) &&& ~~~0x8000FFFF) ||| (parW p 4 &&& 0x8000FFFF))) := by
  have hact := exec_command (eiEnWrite_front ht ha) (doWriteCfg.eq_1 h p s) (by decide) ht ((linkCtrl_check ha h.link h.cls).trans (by rw [hauto]; rfl))
  have hlow : rk 4 (linkCtrlOff k) < rk 8 0x104 ∨ rk 8 0x204 ≤ rk 4 (linkCtrlOff k) := by
    unfold linkCtrlOff rk
    omega
  rw [ha, writeWord_link, s.taken_reg h _ hlow] at hact
  refine (ht.due.setReg _ _).serves hact ((s.taken_booked h opWriteCfg.opcode).setReg _ _) (by simp)

end

/-- The row of a read that the packet is for comes to READ_CFG. -/
theorem rowRead_taken {s : State} {h : Hdr} {p : Params} (mine : Params → Bool) (row : Hdr → Params → Instr) (harr : s.Arrives opReadCfg.opcode h p) (hmine : mine p = true) :
    rowRead mine row h p s = front row opReadCfg.opcode h p s doReadCfg := by
  have harriving : s.arriving opReadCfg.opcode h p = (h, p) := by
    rw [State.arriving]
    cases hb : s.buffered h.link h.cls with
    | none => rfl
    | some bytes =>
      obtain ⟨hop, hread⟩ := harr bytes hb
      dsimp only
      rw [if_pos hop, hread]
  rw [rowRead, harriving, if_pos hmine]

/-- The offset of the word that holds a lane's `FEC_PEAK`. -/
def peakOff (n : LaneId) : Nat := laneOff n + 0x30

theorem peakOff_lt (n : LaneId) : peakOff n < 2 ^ 20 := by
  unfold peakOff laneOff
  omega

theorem laneId_peakOff (n : LaneId) : laneId ((peakOff n - 0x1000) / 0x40) = n := Fin.ext (by
  have := n.isLt
  show (peakOff n - 0x1000) / 0x40 % 16 = n.val
  unfold peakOff laneOff
  omega)

theorem peakOff_spec (n : LaneId) : 0x1000 ≤ peakOff n ∧ peakOff n < 0x1400 ∧ peakOff n % 0x40 = 0x30 := by
  have := n.isLt
  unfold peakOff laneOff
  omega

/-- A read of the word shows the peak and clears it (R519). -/
theorem readWord_peak (s : State) (n : LaneId) (read : LineOutcome) : readWord s (hostAddr (peakOff n)) read = ((s.lane n).peakWord, s.modLane n fun x => { x with fecPeak := 0 }) := by
  obtain ⟨h1, h2, h3⟩ := peakOff_spec n
  unfold readWord
  rw [addrScope_hostAddr (peakOff_lt n), addrPage_hostAddr (peakOff_lt n), addrOff_hostAddr (peakOff_lt n)]
  dsimp only
  rw [if_pos rfl, if_pos ⟨rfl, h1, h2, h3⟩, laneId_peakOff]
  refine congrArg (Prod.mk · _) ?_
  show s.hostWord (peakOff n) = _
  unfold State.hostWord
  rw [if_neg (by omega), if_pos ⟨h1, h2⟩, laneId_peakOff]
  dsimp only
  rw [if_neg (by omega), if_pos h3]

section
variable {s : State} {h : Hdr} {p : Params} {n : LaneId} (ht : s.Takes opReadCfg h p) (ha : par p 0 4 = hostAddr (peakOff n)) (hn : par p 4 2 = 1)
include ht ha hn

omit ht in
theorem readCheck_peak (t : State) : readCheck p t = none := by
  obtain ⟨h1, h2, h3⟩ := peakOff_spec n
  unfold readCheck
  rw [ha, hn]
  dsimp only
  rw [accessRange_hostAddr (peakOff_lt n) (by omega)]
  unfold addrLast
  rw [addrScope_hostAddr (peakOff_lt n), addrPage_hostAddr (peakOff_lt n)]
  simp [chipPageLast]

theorem fecPeakRead_serves : s.Serves (.fecPeakRead h p) h opReadCfg (le 4 (2 ^ 7 * b2n (s.lane n).testValid + 2 ^ 6 * b2n (s.lane n).test.isSome + (s.lane n).fecPeak))
    { s with lanes := s.lanes.set n { s.lane n with fecPeak := 0 } } := by
  obtain ⟨h1, h2, h3⟩ := peakOff_spec n
  have hrow : fecPeakRow p = true := by
    unfold fecPeakRow
    dsimp only
    rw [ha, addrScope_hostAddr (peakOff_lt n), addrPage_hostAddr (peakOff_lt n), addrOff_hostAddr (peakOff_lt n)]
    simp [h1, h2, h3]
  have hfront : exec (.fecPeakRead h p) s = .next (front .fecPeakRead opReadCfg.opcode h p s doReadCfg) :=
    congrArg Host.Outcome.next (rowRead_taken fecPeakRow .fecPeakRead ht.2.2.2.2.2.2.2.2.2.2 hrow)
  have hact := exec_command hfront (doReadCfg.eq_1 h p s) (by decide) ht (readCheck_peak ha hn _)
  have hlane : (s.taken h opReadCfg.opcode).lane n = s.lane n := by
    rw [State.taken_withBooks]
    rfl
  have hword : leW (s.lane n).peakWord ++ [] = le 4 (2 ^ 7 * b2n (s.lane n).testValid + 2 ^ 6 * b2n (s.lane n).test.isSome + (s.lane n).fecPeak) := by
    rw [List.append_nil, Lane.peakWord, packW, leW_ofNat]
    simp
  refine State.serves_map ht (fun u => u.modLane n fun x => { x with fecPeak := 0 }) (hact.trans ?_) (fun _ => rfl) rfl rfl fun _ => rfl
  dsimp only
  rw [hn, ha, readWords, readWord_peak, hlane, ← hword]
  rfl

end

end Sys2Proof.Machine

namespace Sys2Proof.Proofs
open Sys2Proof.Machine

/-- Settles O46: the tests of a lane by what they ask for and what their checker has compared, and each write of `LANE_CTRL` by what acts on its lane. -/
theorem laneRegistersAndTests : Obligations.LaneRegistersAndTests := by
  unfold Obligations.LaneRegistersAndTests
  refine ⟨?_, ?_⟩
  · intro s h p n line more wrong a was inject allowed asked counts testing checked valid all rest long b e
    refine ⟨fun ht hallow hwas hph => ?_, fun ht hallow hout hfail => ?_, fun hnone => congrArg Host.Outcome.next (laneTestDone_none n line more wrong s hnone), fun hsome => ?_⟩
    · obtain ⟨h0, h1, h2, h3, h4, h5⟩ := hallow
      have hexec := doLaneTest_taken ht h0 ((laneTestCheck_eq h0 h1 h2 h3 h4 h5).trans (if_pos (by rw [hwas]; exact hph)))
      have hlanes : (s.taken h opLaneTest.opcode).lanes = s.lanes := by
        rw [State.taken_withBooks]
        rfl
      have hlane : ∀ m, (s.taken h opLaneTest.opcode).lane m = s.lane m := fun m => State.lane_congr _ _ m hlanes
      have hdue := State.testBegun_due (n := n) ht
      have hin := State.testBegun_inProgress (s := s) (h := h) (p := p) (n := n)
      have htesting : testing ((s.taken h opLaneTest.opcode).testBegun h p n) := by
        refine ⟨⟨(s.taken h opLaneTest.opcode).takeFree.1, ?_⟩, fun m hm => ?_, State.testBegun_counts _ h p n⟩
        · rw [State.testBegun_lane, hlane, hwas]
          rfl
        · rw [State.testBegun_lane_other _ _ _ _ hm, hlane]
      generalize (s.taken h opLaneTest.opcode).testBegun h p n = u at *
      refine ⟨fun hw => ⟨u, hexec.trans (by rw [if_pos hw]), hdue.sent, htesting, hin⟩, fun hw => ?_⟩
      obtain ⟨hsent, hbooked⟩ := hdue.reply (hdrDest h opLaneTest.opcode) stDeferred 0 [] rfl rfl rfl
      have hu := hbooked (by decide)
      have hlanes : (u.reply (hdrDest h opLaneTest.opcode) stDeferred).lanes = u.lanes := by
        rw [hu.eq_withBooks]
        rfl
      obtain ⟨⟨w, hw'⟩, hother, hzero⟩ := htesting
      refine ⟨_, hexec.trans (by rw [if_neg (by omega)]), hsent, ⟨w, (State.lane_congr _ _ n hlanes).trans hw'⟩, fun m hm => (State.lane_congr _ _ m hlanes).trans (hother m hm), fun key hkey => ?_⟩
      rw [hu.2.2 key (by simp) ?_, hzero key hkey]
      simp only [counts, List.map_cons, List.map_nil, List.mem_cons, List.not_mem_nil, or_false] at hkey
      obtain rfl | rfl | rfl | rfl := hkey <;> exact nkey_low n (by decide)
    · obtain ⟨h0, h1, h2, h3, h4, h5⟩ := hallow
      obtain ⟨t, hexec, hans, hframe⟩ := exec_refuses (i := .laneTest h p) (o := opLaneTest) (row := .laneTest) (run := doLaneTest) rfl (doLaneTest.eq_1 h p s) (by decide) ht (stState, detChip)
        ((laneTestCheck_eq h0 h1 h2 h3 h4 h5).trans (if_neg fun h => h.elim hout hfail))
      exact ⟨t, hexec, hans, by rw [hframe.frame]⟩
    · obtain ⟨v', hv, hdone⟩ := laneTestDone_ends n line more wrong s hsome
      obtain ⟨r, c, pl, it, hkeep⟩ := s.lastChecked_keeps n a line
      have hc : s.lastChecked n a line = checked := rfl
      rw [hc] at hv hdone hkeep
      obtain ⟨u, ⟨⟨ls, rs, lg, sp, hframe⟩, hlane, hothers, hbits, herrors, hregs⟩, hends⟩ := hv.ends (checked.1.mode = 3 || (checked.1.mode ≠ 0 && checked.1.inTime))
      have hback : checked.1.back = a.back ∧ checked.1.mode = a.mode ∧ checked.1.waiter = a.waiter ∧ checked.1.durationUs = a.durationUs ∧ checked.1.sent = a.sent ∧ checked.1.inject = a.inject := by
        rw [hkeep]
        exact ⟨rfl, rfl, rfl, rfl, rfl, rfl⟩
      obtain ⟨hback, hmode, hwait, hdur, hsent, hinj⟩ := hback
      have hvalid : (checked.1.mode = 3 || (checked.1.mode ≠ 0 && checked.1.inTime)) = decide valid := by
        rw [hmode]
        simp [valid, Bool.decide_or, Bool.decide_and]
      have hrest : checked.1.rest more wrong = rest := by
        unfold LaneTest.rest
        simp only [hmode, hdur, hsent, hinj, rest, all]
        refine if_congr Iff.rfl rfl (if_congr ?_ rfl rfl)
        simp
      rw [hrest, ← Nat.add_assoc] at hbits herrors
      rw [hvalid, hback] at hlane
      have hexec : exec (.laneTestDone n line more wrong) s = .next (match checked.1.waiter with | some d => u.reply d stOk 0 (testResult u n) | none => u) := congrArg Host.Outcome.next (hdone.trans hends)
      rw [hwait] at hexec
      have hquires : u.quires = s.quires := by rw [hframe]
      have hkeys : ∀ key, key ∉ counts → u.reg key = s.reg key := fun key hkey => by
        simp only [counts, List.map_cons, List.map_nil, List.mem_cons, List.not_mem_nil, or_false, not_or] at hkey
        exact hregs key hkey.1 hkey.2.1 hkey.2.2.1 hkey.2.2.2
      cases hw : a.waiter with
      | none =>
        rw [hw] at hexec
        exact ⟨u, hexec, hlane, hothers, hquires, fun _ => ⟨by rw [hframe], herrors, hbits, hkeys⟩, fun d hd => absurd hd (by simp)⟩
      | some d =>
        rw [hw] at hexec
        have hlanes : (u.reply d stOk 0 (testResult u n)).lanes = u.lanes := u.reply_lanes ..
        refine ⟨_, hexec, (State.lane_congr _ _ n hlanes).trans hlane, fun m hm => (State.lane_congr _ _ m hlanes).trans (hothers m hm), (u.reply_quires ..).trans hquires, fun h => absurd h (by simp), fun d' hd' howes => ?_⟩
        obtain rfl := Option.some.inj hd'
        have hresult : testResult u n = le 8 b ++ le 8 e ++ le 1 (b2n (decide valid)) ++ le 3 0 := by
          rw [testResult_eq, hbits, herrors, hlane]
          rfl
        rw [hresult]
        exact howes.replied (by rw [hframe]) (by rw [hframe]; rfl) (by rw [hframe]) (by rw [hframe]; rfl) stOk 0 _
  · intro s h p n k v x l old new out wasOut quiet inRange own served refused others inService up leaves unlocked retrains goesOut
    refine ⟨fun ht ha => ?_, fun ht ha hn => fecPeakRead_serves ht (ha.trans (by simp only [hostAddr, peakOff, laneOff]; omega)) hn, fun ht ha => ?_⟩
    · have ha' : par p 0 4 = hostAddr (laneOff n) := ha.trans (by simp only [hostAddr, laneOff]; omega)
      have hal : s.LinksAlike (s.ctrlWritten h p n) := State.ctrlWritten_alike
      have hlanes : (s.ctrlWritten h p n).lanes = s.lanes := State.ctrlWritten_lanes
      have hat := atLaneCtrl_par ha'
      have hserve : ∀ {i : Instr} {row : Hdr → Params → Instr} {mine : Params → Bool} (_ : exec i s = .next (rowWrite mine row h p s)) (_ : mine p = true) (_ : fld v 16 5 ≤ 16) (_ : bit v 31 = true → s.lastLane h.link n = false)
          {g : State} (_ : (s.ctrlWritten h p n).laneActs n v old = g) (_ : (s.ctrlWritten h p n).LaneActed g n) (also : State → Prop) (_ : ∀ t, t.lane n = g.lane n → g.LinksAlike t → also t), served i also := by
        intro i row mine hexec hmine hr hlast g hg hacts also halso
        obtain ⟨t, hx, hans, hq, hreg, hother, hlane, hlinks⟩ := laneCtrl_serves ht ha' hexec hmine (State.laneCtrlRefusal_none hr hlast) hg hacts
        exact ⟨t, hx, hans, hq, hreg, hother, halso t hlane hlinks⟩
      generalize s.ctrlWritten h p n = u at *
      have hlane : ∀ m, u.lane m = s.lane m := fun m => State.lane_congr s u m hlanes
      have hnone : s.laneIdle n → s.lastLane h.link n = false := fun hidle => State.lastLane_other (hidle h.link).1
      have hmineOut : out → laneOutRow p = true := fun h => by
        unfold laneOutRow
        rw [hat, h]
        rfl
      have hmineReturn : ¬out → laneReturnRow p = true := fun h => by
        unfold laneReturnRow
        rw [hat, show bit (parW p 4) 31 = false from Bool.eq_false_iff.mpr h]
        rfl
      have hmineRetrain : bit v 30 = true → laneRetrainRow p = true := fun h => by
        unfold laneRetrainRow
        rw [hat, h]
        rfl
      have hleave : ∀ to_, inService → others → l.change = none → ∃ g, u.removeLane k n to_ = g ∧ u.LaneActed g n ∧ ∀ t, t.lane n = g.lane n → g.LinksAlike t → leaves to_ t := by
        rintro to_ ⟨-, hl, hs, -⟩ ⟨m, hne, hm, -⟩ hc
        have hrest := Link.rest_ne_zero hs (Link.mem_service.mp hm) hne
        refine ⟨_, u.removeLane_proposes k n to_ ((hal.carries k).trans hl) ((hal.change k).trans hc) ((hal.serves k n).trans hs) (by rw [hal.inService, hal.laneBit]; exact hrest),
          (State.LaneActed.modLane u n _).trans (.proposed _ n k _ ((hal.carries k).trans hl)), fun t ht hlinks => ⟨ht.trans ?_, ?_, ?_⟩⟩
        · show (u.modLane n fun x => { x with leave := some to_ }).lane n = _
          rw [State.lane_modLane_same, hlane]
        · rw [hlinks k, State.proposed, State.link_modLink_same]
        · have hcw : (u.modLane n fun x => { x with leave := some to_ }).nextCw k = s.nextCw k :=
            (u.nextCw_leave n to_ k).trans (hal.nextCw hlanes k)
          rw [hlinks k, State.proposed, State.link_modLink_same, hcw, hal.inService, hal.laneBit]
          rfl
      have hretrain : ∀ (y : Lane) (w : State), w.lane n = y → w.laneUp n = s.laneUp n → ∀ t, t.lane n = (w.beginRetrain n).lane n → retrains y t := by
        intro y w hw hup t ht
        rw [State.beginRetrain_eq, State.lane_modLane_same, hw, hup] at ht
        have hiff := s.laneUp_iff n
        refine ⟨fun h => ?_, fun h => ?_⟩
        · rw [ht, hiff.mpr h]
          rfl
        · rw [ht, Bool.eq_false_iff.mpr fun h' => h (hiff.mp h')]
          rfl
      refine ⟨fun hr ho hwas hq => ⟨?_, ?_, ?_, ?_⟩, fun hr ho hwas hq => ⟨?_, ?_, ?_, ?_⟩, fun hr ho hwas h30 => ⟨?_, ?_⟩, fun hr ho hwas h30 hno hp => ?_, fun hr hsame hq htest hno => ?_, fun hr => ?_⟩
      · intro hin hoth hc
        obtain ⟨g, hg, hacts, hall⟩ := hleave .out hin hoth hc
        obtain ⟨hk, hl, hs, honly⟩ := hin
        refine hserve rfl (hmineOut ho) hr (fun _ => ?_) ((State.laneActs_out ho hwas hq).trans ((State.laneOut_serving ((hal.linkOf n).trans hk) ((hal.carries k).trans hl) ((hal.serves k n).trans hs)).trans hg)) hacts _ hall
        by_cases hlink : h.link = k
        · rw [hlink]
          exact Bool.eq_false_iff.mpr fun hlast => (State.lastLane_iff hc hs).mp hlast hoth
        · exact State.lastLane_other (Bool.eq_false_iff.mpr fun hserves => hlink (honly _ hserves))
      · intro hin hlink hc hoth
        obtain ⟨-, -, hs, -⟩ := hin
        exact laneCtrl_refuses ht ha' (i := .laneOut h p) rfl (hmineOut ho) (stState, detChip) (by
          unfold State.laneCtrlRefusal
          rw [if_neg (Nat.not_le.mpr (Nat.lt_succ_of_le hr)), if_pos ⟨ho, by rw [hlink]; exact (State.lastLane_iff hc hs).mpr hoth⟩])
      · intro hidle hp hready
        refine hserve rfl (hmineOut ho) hr (fun _ => hnone hidle) ((State.laneActs_out ho hwas hq).trans (State.laneOut_idle ((hal.laneIdle n).mpr hidle) (by rw [hlane]; exact hp) (by rw [hlane]; exact hready)))
          (State.LaneActed.modLane u n _) _ fun t ht _ => ?_
        rw [ht, State.lane_modLane_same, hlane]
        rfl
      · intro c hidle hp hready hk hl hc hack h0
        refine hserve rfl (hmineOut ho) hr (fun _ => hnone hidle) ((State.laneActs_out ho hwas hq).trans (State.laneOut_pending ((hal.laneIdle n).mpr hidle) (by rw [hlane]; exact hp) (by rw [hlane]; exact hready)
          ((hal.linkOf n).trans hk) ((hal.carries k).trans hl) ((hal.change k).trans hc) hack (by rw [hal.laneBit]; exact h0)))
          ((State.LaneActed.modLane u n _).trans (.proposed _ n k _ ((hal.carries k).trans hl))) _ fun t ht hlinks => ⟨ht.trans ?_, ?_⟩
        · exact (State.lane_modLane_same u n _).trans (by rw [hlane n]; rfl)
        · rw [hlinks k, State.proposed, State.link_modLink_same, hal.laneBit]
          rfl
      · intro hp hw
        exact hserve rfl (hmineReturn ho) hr (fun h => absurd h ho) ((State.laneActs_return ho (by rw [hlane]; exact hwas) hq).trans (State.laneReturn_out (by rw [hlane]; exact hp) (by rw [hlane]; exact hw)))
          (by rw [State.beginRetrain_eq]; exact .modLane u n _) _ fun t ht _ => hretrain x u (hlane n) (hal.laneUp n) t ht
      · intro hp hw
        refine hserve rfl (hmineReturn ho) hr (fun h => absurd h ho) ((State.laneActs_return ho (by rw [hlane]; exact hwas) hq).trans (State.laneReturn_failed (by rw [hlane]; exact hp) (by rw [hlane]; exact hw)))
          (State.LaneActed.modLane u n _) _ fun t ht _ => ?_
        rw [ht, State.lane_modLane_same, hlane]
      · intro a hp hsome hwait
        refine hserve rfl (hmineReturn ho) hr (fun h => absurd h ho) ((State.laneActs_return ho (by rw [hlane]; exact hwas) hq).trans (State.laneReturn_testing (by rw [hlane]; exact hp) (by rw [hlane]; exact hsome) hwait))
          (by rw [State.beginRetrain_eq]; exact (State.LaneActed.modLane u n _).trans (.modLane _ n _)) _ fun t ht _ => ?_
        have hy := hretrain (x.untested) (u.modLane n Lane.untested) (by rw [State.lane_modLane_same, hlane]) (hal.laneUp n) t ht
        exact hy
      · intro hp hl
        refine hserve rfl (hmineReturn ho) hr (fun h => absurd h ho) ((State.laneActs_return ho (by rw [hlane]; exact hwas) hq).trans (State.laneReturn_leaving (by rw [hlane]; exact hp)))
          (State.LaneActed.modLane u n _) _ fun t ht _ => ?_
        rw [ht, State.lane_modLane_same, hlane]
        exact if_pos hl
      · intro hp
        exact hserve rfl (hmineRetrain h30) hr (fun h => absurd h ho) ((State.laneActs_same ⟨fun h => absurd h ho, fun h => absurd h hwas⟩ (.inr (by rw [hlane]; obtain hp | hp := hp <;> rw [hp] <;> decide))).trans
          ((if_pos h30).trans (State.laneRetrain_down (by rw [hlane]; exact hp))))
          (by rw [State.beginRetrain_eq]; exact .modLane u n _) _ fun t ht _ => hretrain x u (hlane n) (hal.laneUp n) t ht
      · intro hp hin hoth hl hc
        obtain ⟨g, hg, hacts, hall⟩ := hleave .retraining hin hoth hc
        obtain ⟨hk, hcar, hs, -⟩ := hin
        have hret : u.retrainLane n = u.removeLane k n .retraining := by
          unfold State.retrainLane
          rw [hal.linkOf, hk]
          exact if_pos (by rw [hal.carries, hcar, hal.serves, hs, hlane, hl]; rfl)
        exact hserve rfl (hmineRetrain h30) hr (fun h => absurd h ho) ((State.laneActs_same ⟨fun h => absurd h ho, fun h => absurd h hwas⟩ (.inr (by rw [hlane, hp]; decide))).trans
          ((if_pos h30).trans ((State.laneRetrain_serving (by rw [hlane]; exact hp)).trans (hret.trans hg)))) hacts _ hall
      · refine hserve rfl (hmineRetrain h30) hr (fun _ => State.lastLane_other (hno h.link)) ((State.laneActs_same ⟨fun _ => hwas, fun _ => ho⟩ (.inl ho)).trans
          ((if_pos h30).trans (State.laneRetrain_out (by rw [hlane]; exact hp)))) (State.LaneActed.modLane u n _) _ fun t ht _ => ?_
        rw [ht, State.lane_modLane_same, hlane]
      · refine hserve (i := .fecInjectWrite h p) rfl hat hr (fun h31 => State.lastLane_other ((hno.resolve_left fun h => h h31) h.link)) ((State.laneActs_same hsame (htest.imp_right fun h => by rw [hlane]; exact h)).trans
          (if_neg (by rw [show bit v 30 = false from hq]; exact Bool.false_ne_true))) (.refl u n) _ fun t ht _ => ht.trans (hlane n)
      · exact laneCtrl_refuses ht ha' (i := .fecInjectWrite h p) rfl hat (stRange, 4) (by
          unfold State.laneCtrlRefusal
          rw [if_pos (by have := hr; simp only [inRange, v] at this; omega)]
          rfl)
    · have ha' : par p 0 4 = hostAddr (linkCtrlOff k) := ha.trans (by simp only [hostAddr, linkCtrlOff]; omega)
      refine ⟨fun hauto => eiEnWrite_serves ht ha' hauto, fun hauto => ?_⟩
      obtain ⟨t, hexec, hans, hframe⟩ := exec_refuses (eiEnWrite_front ht ha') (doWriteCfg.eq_1 h p s) (by decide) ht (stState, detChip) ((linkCtrl_check ha' h.link h.cls).trans (if_pos hauto))
      exact ⟨t, hexec, hans, hframe.regs _ (by simp only [rk]; omega)⟩

end Sys2Proof.Proofs
end

section
/-! Training of lanes and links: the settings it finds, the codewords that exchange the first credits, and a lane that loses its signal (R513, R520, R528 to R531, R542 to R544, R549, R554, R563). -/

namespace Sys2Proof.Machine

/-! ### What training finds of a lane (R513, R520, R529) -/

/-- The transmit settings of a lane are those that its training found. -/
def Lane.Sender (allow : Bool) (f : LaneTraining) (y : Lane) : Prop := y.ffe = f.ffe ∧ y.request = f.request ∧ y.txPrecode = (allow && f.precode)

/-- The receive settings of a lane are those that its training found. -/
def Lane.Receiver (f : LaneTraining) (y : Lane) : Prop :=
  y.ctle.toNat = f.ctle.val ∧ y.eyeMv = f.eyeMv ∧ y.dfe.length = 12 ∧ (∀ i < 12, y.dfe.getD i 0 = dfeHeld i (f.dfe.getD i 0)) ∧ (y.rxPrecode = true ↔ (35 * Config.dfeSteps : Int) < 100 * y.dfe.getD 0 0)

/-- A lane with the transmit settings that its training found. -/
def Lane.sending (x : Lane) (allow : Bool) (f : LaneTraining) : Lane := { x with ffe := f.ffe, request := f.request, txPrecode := allow && f.precode }

/-- A lane with the receive settings that its training found. -/
def Lane.receiving (x : Lane) (f : LaneTraining) : Lane :=
  { x with
    ctle := BitVec.ofNat 8 f.ctle.val, eyeMv := f.eyeMv, dfe := (List.range 12).map fun i => dfeHeld i (f.dfe.getD i 0)
    rxPrecode := decide ((35 * Config.dfeSteps : Int) < 100 * ((List.range 12).map fun i => dfeHeld i (f.dfe.getD i 0)).getD 0 0) }

section
variable (x : Lane) (allow : Bool) (f : LaneTraining)

theorem Lane.receiving_receiver : (x.receiving f).Receiver f := by
  have := f.ctle.isLt
  refine ⟨?_, rfl, by simp [Lane.receiving], fun i hi => by simp [Lane.receiving, hi], by simp [Lane.receiving]⟩
  show (BitVec.ofNat 8 f.ctle.val).toNat = f.ctle.val
  rw [BitVec.toNat_ofNat]
  omega

theorem Lane.sending_sender : (x.sending allow f).Sender allow f := ⟨rfl, rfl, rfl⟩

/-- A lane that passes every phase. -/
theorem Lane.train_passed (h : f.fails = 0) : x.train allow f = (({ x with signal := true } : Lane).sending allow f).receiving f := by
  unfold Lane.train
  simp only [h, decide_true, Bool.true_or, if_true]
  rfl

/-- A lane that fails a phase has the settings of the phases before it. -/
theorem Lane.train_failed (h : f.fails ≠ 0) : x.train allow f =
    (if 4 < f.fails.val then (if 3 < f.fails.val then ({ x with signal := decide (1 < f.fails.val) } : Lane).sending allow f else { x with signal := decide (1 < f.fails.val) }).receiving f
     else if 3 < f.fails.val then ({ x with signal := decide (1 < f.fails.val) } : Lane).sending allow f else { x with signal := decide (1 < f.fails.val) }) := by
  unfold Lane.train
  simp only [h, decide_false, Bool.false_or, decide_eq_true_eq]
  rfl

end

/-! ### The clock of a lane that gains lock (R647) -/

theorem State.gainLock_frame (s : State) (n : LaneId) : ∃ c, s.gainLock n = { s with clock := c } := by
  unfold State.gainLock
  split <;> exact ⟨_, rfl⟩

/-! ### The codewords of a link without DATA to send (R526, R538, R541) -/

theorem State.corrupt_frame (s : State) (n : Nat) (symbols : List Nat) : ∃ f, (s.corrupt n symbols).2 = { s with fresh := f } := by
  unfold State.corrupt
  dsimp only
  generalize hstart : ((symbols, List.range symbols.length, s) : List Nat × List Nat × State) = a
  have ha : ∃ f, a.2.2 = { s with fresh := f } := ⟨s.fresh, by rw [← hstart]⟩
  clear hstart
  induction List.range n generalizing a with
  | nil => exact ha
  | cons _ t ih =>
    obtain ⟨f, hf⟩ := ha
    refine ih _ ⟨f + 2, ?_⟩
    dsimp only
    rw [hf]
    rfl

/-- What sending a codeword leaves of its lane. -/
def Lane.sent (x y : Lane) : Prop := y = { x with txCount := y.txCount, txSeq := x.txSeq + 1, txLast := y.txLast, lastTx := y.lastTx }

section
variable {s : State} {k : LinkId}

/-- A lane whose flits are chosen sends them. -/
theorem State.sendCodeword_first {n : LaneId} {fl : List (List Byte)} {rest : List (Nat × List (List Byte))} (hslot : (s.link k).txSlot = (n.val, fl) :: rest) :
    (∃ ls f, s.sendCodeword k n = { s with lanes := ls, links := s.links.set k { s.link k with txSlot := rest }, fresh := f }) ∧ (∀ m, m ≠ n → (s.sendCodeword k n).lane m = s.lane m)
      ∧ (s.lane n).sent ((s.sendCodeword k n).lane n) ∧ ∃ tx, ((s.sendCodeword k n).lane n).lastTx = some tx ∧ tx.flits = fl := by
  have hany : (s.link k).txSlot.any (fun e => decide (e.1 = n.val)) = true := by simp [hslot]
  have hfind : (s.link k).txSlot.find? (fun e => decide (e.1 = n.val)) = some (n.val, fl) := by simp [hslot]
  have hlinks : (s.modLink k fun l => { l with txSlot := dropFirst (fun e => decide (e.1 = n.val)) l.txSlot }).links = s.links.set k { s.link k with txSlot := rest } := by
    show s.links.set k { s.link k with txSlot := dropFirst (fun e => decide (e.1 = n.val)) (s.link k).txSlot } = _
    rw [hslot, dropFirst, if_pos (decide_eq_true rfl)]
  unfold State.sendCodeword
  dsimp only
  rw [if_pos hany, hfind]
  have hlanes : (s.modLink k fun l => { l with txSlot := dropFirst (fun e => decide (e.1 = n.val)) l.txSlot }).lanes = s.lanes := rfl
  have hframe : ∃ ks, (s.modLink k fun l => { l with txSlot := dropFirst (fun e => decide (e.1 = n.val)) l.txSlot }) = { s with links := ks } := ⟨_, rfl⟩
  generalize (s.modLink k fun l => { l with txSlot := dropFirst (fun e => decide (e.1 = n.val)) l.txSlot }) = u at *
  dsimp only
  generalize hr : u.corrupt _ _ = r
  obtain ⟨f, hf⟩ : ∃ f, r.2 = { u with fresh := f } := hr ▸ u.corrupt_frame _ _
  rw [hf]
  have hlane : ∀ m, ({ u with fresh := f } : State).lane m = s.lane m := fun m => State.lane_congr s _ m hlanes
  refine ⟨?_, fun m hm => (State.lane_modLane_other _ _ _ _ hm).trans (hlane m), ?_, ?_⟩
  · obtain ⟨ks, rfl⟩ := hframe
    exact ⟨_, f, by rw [← hlinks]; rfl⟩
  · rw [State.lane_modLane_same, hlane]
    rfl
  · rw [State.lane_modLane_same]
    exact ⟨_, rfl, rfl⟩

/-- Lanes whose flits are chosen send them, each once. -/
theorem State.each_sendCodeword (l : List LaneId) (hl : l.Nodup) (s : State) (hslot : (s.link k).txSlot.map (·.1) = l.map (·.val)) :
    (∃ ls f, s.each l (State.sendCodeword k) = { s with lanes := ls, links := s.links.set k { s.link k with txSlot := [] }, fresh := f }) ∧ (∀ m, m ∉ l → (s.each l (State.sendCodeword k)).lane m = s.lane m)
      ∧ ∀ m ∈ l, (s.lane m).sent ((s.each l (State.sendCodeword k)).lane m) := by
  induction l generalizing s with
  | nil =>
    have hnil : (s.link k).txSlot = [] := List.map_eq_nil_iff.mp hslot
    refine ⟨⟨s.lanes, s.fresh, ?_⟩, fun _ _ => rfl, fun m hm => absurd hm List.not_mem_nil⟩
    have hlink : { s.link k with txSlot := [] } = s.link k := by rw [← hnil]
    rw [hlink]
    simp [State.each, State.link]
  | cons n l ih =>
    obtain ⟨hn, hl⟩ := List.nodup_cons.mp hl
    cases hs : (s.link k).txSlot with
    | nil => simp [hs] at hslot
    | cons e rest =>
      rw [hs, List.map_cons, List.map_cons] at hslot
      obtain ⟨he, hrest⟩ := List.cons.inj hslot
      obtain ⟨⟨ls, f, hframe⟩, hother, hsame, -⟩ := State.sendCodeword_first (n := n) (fl := e.2) (rest := rest) (hs.trans (by rw [← he]))
      have hlink : (s.sendCodeword k n).link k = { s.link k with txSlot := rest } := by
        rw [hframe]
        exact State.link_modLink_same s k fun l => { l with txSlot := rest }
      obtain ⟨⟨ls', f', hframe'⟩, hout, hin⟩ := ih hl (s.sendCodeword k n) (by rw [hlink]; exact hrest)
      rw [show s.each (n :: l) (State.sendCodeword k) = (s.sendCodeword k n).each l (State.sendCodeword k) from rfl]
      refine ⟨⟨ls', f', hframe'.trans ?_⟩, fun m hm => ?_, fun m hm => ?_⟩
      · rw [hlink, hframe]
        simp
      · rw [List.mem_cons, not_or] at hm
        exact (hout m hm.2).trans (hother m hm.1)
      · obtain rfl | hm := List.mem_cons.mp hm
        · rw [hout m hn]
          exact hsame
        · have hne : m ≠ n := fun h => hn (h ▸ hm)
          rw [← hother m hne]
          exact hin m hm

end

section
variable (l : Link) (hr : ∀ i : Fin 4, l.classes[i].ready = false)
include hr

theorem Link.nextFlit_idle (hx : l.linkTx = []) : l.nextFlit = ((l.makeFlit 0 0 []).1, (l.makeFlit 0 0 []).2, false) := by
  have hnone : ∀ order : List (Fin 4), order.find? (fun i => l.classes[i].ready) = none := fun order => List.find?_eq_none.mpr fun i _ => Bool.eq_false_iff.mp (hr i)
  unfold Link.nextFlit
  rw [hx]
  dsimp only
  rw [hnone]

theorem Link.nextFlits_idle (n : Nat) (hx : l.linkTx = []) : (∃ c, (Link.nextFlits n l).1 = { l with creditClass := c }) ∧ (Link.nextFlits n l).2.2 = 0 := by
  induction n generalizing l with
  | zero => exact ⟨⟨l.creditClass, rfl⟩, rfl⟩
  | succ n ih =>
    rw [Link.nextFlits]
    dsimp only
    rw [l.nextFlit_idle hr hx]
    obtain ⟨⟨c, hc⟩, hn⟩ := ih (l.makeFlit 0 0 []).1 hr hx
    exact ⟨⟨c, hc⟩, by dsimp only; rw [hn]; rfl⟩

/-- One LINK message goes out, and then IDLE flits. -/
theorem Link.nextFlits_message (n : Nat) (m : List Byte) (hx : l.linkTx = [m]) :
    ∃ c rest, Link.nextFlits (n + 1) l = ({ l with linkTx := [], creditClass := c }, (Link.makeFlit { l with linkTx := [] } 1024 0 m).2 :: rest, 0) := by
  have hfirst : l.nextFlit = ((Link.makeFlit { l with linkTx := [] } 1024 0 m).1, (Link.makeFlit { l with linkTx := [] } 1024 0 m).2, false) := by
    unfold Link.nextFlit
    rw [hx]
  obtain ⟨⟨c, hc⟩, hn⟩ := (Link.makeFlit { l with linkTx := [] } 1024 0 m).1.nextFlits_idle hr n rfl
  refine ⟨c, (Link.nextFlits n (Link.makeFlit { l with linkTx := [] } 1024 0 m).1).2.1, ?_⟩
  rw [Link.nextFlits, hfirst]
  dsimp only
  rw [hc, hn]
  rfl

end

section
variable {s : State} {k : LinkId} {n : LaneId} {t : List LaneId} (hserv : (s.link k).service = n :: t) (hc : (s.link k).change = none) (hslot : (s.link k).txSlot = []) {m : List Byte} (hx : (s.link k).linkTx = [m])
  (hr : ∀ i : Fin 4, (s.link k).classes[i].ready = false)
include hserv hc hslot hx hr

/-- The flits of the first codeword slot: the message on the first lane. -/
theorem State.fillSlot_message : ∃ c rest parts, s.fillSlot k = s.modLink k (fun l => { l with linkTx := [], creditClass := c, txSlot := (n.val, (Link.makeFlit { s.link k with linkTx := [] } 1024 0 m).2 :: rest) :: parts })
    ∧ parts.map (·.1) = t.map (·.val) := by
  have hlen : 20 * (s.link k).service.length = 20 * t.length + 19 + 1 := by
    rw [hserv, List.length_cons]
    omega
  obtain ⟨c, rest, hflits⟩ := (s.link k).nextFlits_message hr (20 * t.length + 19) m hx
  generalize hflit : (Link.makeFlit { s.link k with linkTx := [] } 1024 0 m).2 = flit at *
  obtain ⟨rest', parts, hslots, hparts⟩ : ∃ rest' parts, ((n :: t).zipIdx.map fun e => (e.1.val, (List.range 20).map fun i => (flit :: rest).getD (i * (n :: t).length + e.2) [])) = (n.val, flit :: rest') :: parts
      ∧ parts.map (·.1) = t.map (·.val) := by
    have hhead : (flit :: rest).getD (0 * (n :: t).length + 0) [] = flit := by
      rw [Nat.zero_mul]
      rfl
    refine ⟨(List.range' 1 19).map fun i => (flit :: rest).getD (i * (n :: t).length + 0) [], (t.zipIdx 1).map fun e => (e.1.val, (List.range 20).map fun i => (flit :: rest).getD (i * (n :: t).length + e.2) []), ?_, ?_⟩
    · rw [List.zipIdx_cons, List.map_cons]
      dsimp only
      rw [show List.range 20 = 0 :: List.range' 1 19 from rfl, List.map_cons, hhead]
    · rw [List.map_map]
      exact (List.map_map (g := fun m : LaneId => m.val) (f := Prod.fst)).symm.trans (congrArg _ (List.zipIdx_map_fst 1 t))
  refine ⟨c, rest', parts, ?_, hparts⟩
  unfold State.fillSlot
  dsimp only
  rw [hc]
  dsimp only
  rw [hlen, hflits, hserv]
  dsimp only
  rw [if_pos rfl, hslot, List.nil_append, hslots]
  rfl

/-- The lanes in service send their first codewords. -/
theorem State.each_send_message :
    (∃ ls f c, s.each (s.link k).service (State.sendCodeword k) = { s with lanes := ls, links := s.links.set k { s.link k with linkTx := [], creditClass := c, txSlot := [] }, fresh := f })
    ∧ (∀ i, i ∉ (s.link k).service → (s.each (s.link k).service (State.sendCodeword k)).lane i = s.lane i)
    ∧ (∀ i ∈ (s.link k).service, (s.lane i).sent ((s.each (s.link k).service (State.sendCodeword k)).lane i))
    ∧ ∃ tx rest, ((s.each (s.link k).service (State.sendCodeword k)).lane n).lastTx = some tx ∧ tx.flits = (Link.makeFlit { s.link k with linkTx := [] } 1024 0 m).2 :: rest := by
  obtain ⟨c, rest, parts, hfill, hparts⟩ := State.fillSlot_message hserv hc hslot hx hr
  have hnodup := hserv ▸ (s.link k).nodup_service
  obtain ⟨hn, ht⟩ := List.nodup_cons.mp hnodup
  have hlink : (s.fillSlot k).link k = { s.link k with linkTx := [], creditClass := c, txSlot := (n.val, (Link.makeFlit { s.link k with linkTx := [] } 1024 0 m).2 :: rest) :: parts } := by
    rw [hfill, State.link_modLink_same]
  have hlane : ∀ i, (s.fillSlot k).lane i = s.lane i := fun i => by
    rw [hfill]
    rfl
  have hsend : s.sendCodeword k n = (s.fillSlot k).sendCodeword k n := by
    have hno : ¬(s.link k).txSlot.any (fun e => decide (e.1 = n.val)) = true := by simp [hslot]
    have hyes : ((s.fillSlot k).link k).txSlot.any (fun e => decide (e.1 = n.val)) = true := by simp [hlink]
    unfold State.sendCodeword
    dsimp only
    rw [if_neg hno, if_pos hyes]
  have hall : s.each (s.link k).service (State.sendCodeword k) = ((s.fillSlot k).sendCodeword k n).each t (State.sendCodeword k) := by
    rw [hserv, ← hsend]
    rfl
  obtain ⟨⟨ls, f, h1⟩, hother, hsame, tx, htx, hflits⟩ := State.sendCodeword_first (s := s.fillSlot k) (n := n) (rest := parts) (by rw [hlink])
  have hlink' : ((s.fillSlot k).sendCodeword k n).link k = { s.link k with linkTx := [], creditClass := c, txSlot := parts } := by
    rw [h1, hlink]
    exact State.link_modLink_same (s.fillSlot k) k fun _ => { s.link k with linkTx := [], creditClass := c, txSlot := parts }
  obtain ⟨⟨ls', f', h2⟩, hout, hin⟩ := State.each_sendCodeword t ht ((s.fillSlot k).sendCodeword k n) (by rw [hlink']; exact hparts)
  rw [hall]
  refine ⟨⟨ls', f', c, h2.trans ?_⟩, fun i hi => ?_, fun i hi => ?_, tx, rest, ?_, hflits⟩
  · rw [hlink', h1, hfill]
    simp [State.modLink]
  · rw [hserv, List.mem_cons, not_or] at hi
    rw [hout i hi.2, hother i hi.1, hlane]
  · rw [hserv] at hi
    obtain rfl | hi := List.mem_cons.mp hi
    · rw [hout i hn, ← hlane]
      exact hsame
    · have hne : i ≠ n := fun h => hn (h ▸ hi)
      have h := hin i hi
      rw [hother i hne, hlane] at h
      exact h
  · rw [hout n hn, htx]

end

/-! ### The exchange of credits (R529, R543, R544) -/

/-- The mask of lanes. -/
def Link.maskOf (l : Link) (on : List LaneId) : Byte := on.foldl (fun m n => m ||| laneBit l n) 0

theorem Link.getLsbD_maskOf (l : Link) (on : List LaneId) (i : Nat) : (l.maskOf on).getLsbD i = true ↔ ∃ n ∈ on, (laneBit l n).getLsbD i = true := by
  have h := getLsbD_foldl_laneBit l (fun _ => True) on 0 i
  simp only [if_true, true_and] at h
  exact h.trans (by simp)

/-- A lane is in a mask of lanes of its link. -/
theorem Link.maskOf_lane (l : Link) {on : List LaneId} (hon : ∀ n ∈ on, n ∈ l.lanes) {n : LaneId} (hn : n ∈ l.lanes) : (l.maskOf on).getLsbD (n.val - l.base) = true ↔ n ∈ on ∧ n.val - l.base < 8 := by
  rw [Link.getLsbD_maskOf]
  have hb := Link.base_le (Link.mem_lanes.mp hn)
  constructor
  · rintro ⟨m, hm, hbit⟩
    rw [getLsbD_laneBit, Bool.and_eq_true, decide_eq_true_eq, decide_eq_true_eq] at hbit
    have hb' := Link.base_le (Link.mem_lanes.mp (hon m hm))
    obtain rfl : m = n := Fin.ext (by omega)
    exact ⟨hm, hbit.1⟩
  · rintro ⟨hm, hlt⟩
    exact ⟨n, hm, by simp [getLsbD_laneBit, hlt]⟩

/-- A lane that has passed phases 1 to 5, with `CW_SEQ` at its start. -/
def Lane.begun (x : Lane) : Lane := { x.started with txSeq := 0 }

theorem State.each_started (l : List LaneId) (hl : l.Nodup) (s : State) :
    (∃ ls c, (s.each l fun s n => (s.modLane n fun x => { x.started with txSeq := 0 }).gainLock n) = { s with lanes := ls, clock := c })
    ∧ ∀ n, (s.each l fun s n => (s.modLane n fun x => { x.started with txSeq := 0 }).gainLock n).lane n = if n ∈ l then (s.lane n).begun else s.lane n := by
  induction l generalizing s with
  | nil => exact ⟨⟨_, _, rfl⟩, fun n => (if_neg List.not_mem_nil).symm⟩
  | cons g l ih =>
    obtain ⟨hg, hl⟩ := List.nodup_cons.mp hl
    obtain ⟨c, hc⟩ := (s.modLane g Lane.begun).gainLock_frame g
    obtain ⟨⟨ls', c', h⟩, hlane⟩ := ih hl ((s.modLane g Lane.begun).gainLock g)
    have hone : ∀ n, ((s.modLane g Lane.begun).gainLock g).lane n = (s.modLane g Lane.begun).lane n := fun n => by
      rw [hc]
      rfl
    refine ⟨⟨ls', c', h.trans (by rw [hc]; rfl)⟩, fun n => (hlane n).trans ?_⟩
    rw [hone]
    rcases eq_or_ne n g with rfl | hn
    · rw [if_neg hg, if_pos List.mem_cons_self, State.lane_modLane_same]
    · rw [State.lane_modLane_other _ _ _ _ hn]
      simp [hn]

/-- The link that its first credits are exchanged over. -/
def Link.opened (l : Link) (on : List LaneId) (grants : List Nat) : Link :=
  { l with inService := l.maskOf on, rxService := l.maskOf on, classes := freshClasses l grants, linkTx := [l.creditInit], change := none, txSlot := [], creditClass := 0 }

theorem Link.opened_serves (l : Link) {on : List LaneId} (grants : List Nat) (hon : ∀ n ∈ on, n ∈ l.lanes) (n : LaneId) :
    (l.opened on grants).serves n = true ↔ n ∈ on ∧ n.val - l.base < 8 := by
  have hserves : (l.opened on grants).serves n = (l.holds n.val && (l.maskOf on).getLsbD (n.val - l.base)) := rfl
  rw [hserves, Bool.and_eq_true]
  constructor
  · rintro ⟨hh, hbit⟩
    exact (l.maskOf_lane hon (Link.mem_lanes.mpr hh)).mp hbit
  · rintro ⟨hn, hlt⟩
    exact ⟨Link.mem_lanes.mp (hon n hn), (l.maskOf_lane hon (hon n hn)).mpr ⟨hn, hlt⟩⟩

theorem freshClasses_ready (l : Link) (grants : List Nat) (i : Fin 4) : (freshClasses l grants)[i].ready = false := by
  simp [freshClasses, ClassState.ready, ClassState.reset]

/-- What the exchange of credits leaves: the link, the codewords sent, and of the lanes that did not pass nothing. -/
theorem State.exchangeCredits_spec (s : State) (k : LinkId) (on : List LaneId) (grants : List Nat) (hnodup : on.Nodup) (hon : ∀ n ∈ on, n ∈ (s.link k).lanes) :
    (∃ ls cl f x c, s.exchangeCredits k on grants = { s with lanes := ls, links := s.links.set k { (s.link k).opened on grants with linkTx := x, creditClass := c, txSlot := [] }, clock := cl, fresh := f }
      ∧ (∀ n ∈ on, n.val - (s.link k).base < 8 → x = []))
    ∧ (∀ n, n ∉ on → (s.exchangeCredits k on grants).lane n = s.lane n)
    ∧ (∀ n ∈ on, n.val - (s.link k).base < 8 → (s.lane n).begun.sent ((s.exchangeCredits k on grants).lane n)
      ∧ ((∀ m ∈ on, n ≤ m) → ∃ tx rest, ((s.exchangeCredits k on grants).lane n).lastTx = some tx ∧ tx.flits = (Link.makeFlit { (s.link k).opened on grants with linkTx := [] } 1024 0 (s.link k).creditInit).2 :: rest)) := by
  obtain ⟨⟨ls, cl, h1⟩, hlane1⟩ := State.each_started on hnodup s
  have hexch : s.exchangeCredits k on grants = ((s.each on fun s n => (s.modLane n fun x => { x.started with txSeq := 0 }).gainLock n).modLink k (Link.opened · on grants)).each
      (((s.each on fun s n => (s.modLane n fun x => { x.started with txSeq := 0 }).gainLock n).modLink k (Link.opened · on grants)).link k).service (State.sendCodeword k) := rfl
  rw [hexch]
  generalize (s.each on fun s n => (s.modLane n fun x => { x.started with txSeq := 0 }).gainLock n) = v at *
  have hlanev : ∀ n, (v.modLink k (Link.opened · on grants)).lane n = if n ∈ on then (s.lane n).begun else s.lane n := hlane1
  have hlink : (v.modLink k (Link.opened · on grants)).link k = (s.link k).opened on grants := by
    rw [State.link_modLink_same, h1]
    rfl
  have hframe : (v.modLink k (Link.opened · on grants)) = { s with lanes := ls, clock := cl, links := s.links.set k ((s.link k).opened on grants) } := by
    rw [h1]
    rfl
  generalize v.modLink k (Link.opened · on grants) = u at *
  have hserves : ∀ n, n ∈ (u.link k).service ↔ n ∈ on ∧ n.val - (s.link k).base < 8 := fun n => by
    rw [Link.mem_service, hlink]
    exact (s.link k).opened_serves grants hon n
  cases hserv : (u.link k).service with
  | nil =>
    have hnone : ∀ n ∈ on, ¬n.val - (s.link k).base < 8 := fun n hn hlt => by
      have := (hserves n).mpr ⟨hn, hlt⟩
      rw [hserv] at this
      exact List.not_mem_nil this
    refine ⟨⟨ls, cl, s.fresh, [(s.link k).creditInit], 0, hframe, fun n hn hlt => absurd hlt (hnone n hn)⟩, fun n hn => (hlanev n).trans (if_neg hn), fun n hn hlt => absurd hlt (hnone n hn)⟩
  | cons n t =>
    obtain ⟨⟨ls', f, c, h2⟩, hout, hin, tx, rest, htx, hflits⟩ := State.each_send_message hserv (m := (s.link k).creditInit) (by rw [hlink]; rfl) (by rw [hlink]; rfl) (by rw [hlink]; rfl)
      (fun i => by rw [hlink]; exact freshClasses_ready _ grants i)
    rw [hserv] at h2 hout hin htx
    refine ⟨⟨ls', cl, f, [], c, h2.trans ?_, fun _ _ _ => rfl⟩, fun i hi => ?_, fun i hi hlt => ⟨?_, fun hleast => ?_⟩⟩
    · rw [hlink, hframe]
      simp
    · rw [hout i fun h => hi ((hserves i).mp (hserv ▸ h)).1, hlanev i, if_neg hi]
    · have h := hin i (hserv ▸ (hserves i).mpr ⟨hi, hlt⟩)
      rw [hlanev i, if_pos hi] at h
      exact h
    · have hmem : i ∈ n :: t := hserv ▸ (hserves i).mpr ⟨hi, hlt⟩
      have hn : n ∈ on := ((hserves n).mp (hserv ▸ List.mem_cons_self)).1
      obtain rfl : i = n := le_antisymm (hleast n hn) (by
        obtain rfl | h := List.mem_cons.mp hmem
        · exact le_rfl
        · exact le_of_lt (List.rel_of_pairwise_cons (hserv ▸ (u.link k).pairwise_service) h))
      rw [hlink] at hflits
      exact ⟨tx, rest, htx, hflits⟩

/-! ### The end of training (R529 to R531) -/

/-- What the training of a lane at an index of its link found. -/
def foundOf (l : Link) (found : List LaneTraining) (n : LaneId) : LaneTraining := (found[n.val - l.base]?).getD { (default : LaneTraining) with fails := 1 }

section
variable (s : State) (k : LinkId) (found : List LaneTraining)

/-- The lanes of a link in training, and those of them that passed every phase and that failed one. -/
def State.training : List LaneId := (s.link k).lanes.filter fun n => (s.lane n).phase = .training
def State.passed : List LaneId := (s.training k).filter fun n => (foundOf (s.link k) found n).fails = 0
def State.failed : List LaneId := (s.training k).filter fun n => (foundOf (s.link k) found n).fails ≠ 0

theorem State.mem_training {n : LaneId} : n ∈ s.training k ↔ n ∈ (s.link k).lanes ∧ (s.lane n).phase = .training := by simp [State.training]

theorem State.mem_passed {n : LaneId} : n ∈ s.passed k found ↔ (n ∈ (s.link k).lanes ∧ (s.lane n).phase = .training) ∧ (foundOf (s.link k) found n).fails = 0 := by
  simp [State.passed, State.mem_training]

theorem State.mem_failed {n : LaneId} : n ∈ s.failed k found ↔ (n ∈ (s.link k).lanes ∧ (s.lane n).phase = .training) ∧ (foundOf (s.link k) found n).fails ≠ 0 := by
  simp [State.failed, State.mem_training]

/-- A lane with what its training found. -/
def State.trainedLane (n : LaneId) : Lane := (s.lane n).train (bit (s.reg (nkey n 0)) 29) (foundOf (s.link k) found n)

/-- A lane that leaves training without its link. -/
def Lane.dropped (x : Lane) : Lane := { x.unlocked with phase := .down }

theorem State.each_trainLane (f : LaneId → LaneTraining) (l : List LaneId) (s : State) :
    (s.each l fun s n => s.trainLane n (f n)) = s.each l fun u n => u.modLane n (Lane.train (bit (s.reg (nkey n 0)) 29) (f n)) := by
  induction l generalizing s with
  | nil => rfl
  | cons g l ih => exact ih (s.trainLane g (f g))

/-- The lanes of the link with what training found, those that failed without lock. -/
def State.settledLanes : State :=
  (s.each (s.training k) fun s' n => s'.trainLane n (foundOf (s.link k) found n)).each (s.failed k found) fun s' n => s'.modLane n fun x => { x.unlocked with phase := .down }

theorem State.settledLanes_spec : (∃ ls, s.settledLanes k found = { s with lanes := ls })
    ∧ ∀ n, (s.settledLanes k found).lane n = if n ∈ s.passed k found then s.trainedLane k found n else if n ∈ s.failed k found then (s.trainedLane k found n).dropped else s.lane n := by
  unfold State.settledLanes
  rw [State.each_trainLane]
  obtain ⟨⟨ls, h1⟩, hlane1⟩ := State.each_modLane (fun n => Lane.train (bit (s.reg (nkey n 0)) 29) (foundOf (s.link k) found n)) (s.training k) ((s.link k).nodup_lanes.filter _) s
  generalize (s.each (s.training k) fun u n => u.modLane n (Lane.train (bit (s.reg (nkey n 0)) 29) (foundOf (s.link k) found n))) = u at *
  obtain ⟨⟨ls', h2⟩, hlane2⟩ := State.each_modLane (fun _ => Lane.dropped) (s.failed k found) (((s.link k).nodup_lanes.filter _).filter _) u
  refine ⟨⟨ls', h2.trans (by rw [h1])⟩, fun n => (hlane2 n).trans ?_⟩
  rw [hlane1 n]
  by_cases ht : n ∈ s.training k
  · by_cases hf : (foundOf (s.link k) found n).fails = 0
    · have hp : n ∈ s.passed k found := (s.mem_passed k found).mpr ⟨(s.mem_training k).mp ht, hf⟩
      have hn : n ∉ s.failed k found := fun h => ((s.mem_failed k found).mp h).2 hf
      rw [if_neg hn, if_pos ht, if_pos hp]
      rfl
    · have hp : n ∉ s.passed k found := fun h => hf ((s.mem_passed k found).mp h).2
      have hn : n ∈ s.failed k found := (s.mem_failed k found).mpr ⟨(s.mem_training k).mp ht, hf⟩
      rw [if_pos hn, if_pos ht, if_neg hp, if_pos hn]
      rfl
  · have hp : n ∉ s.passed k found := fun h => ht ((s.mem_training k).mpr ((s.mem_passed k found).mp h).1)
    have hn : n ∉ s.failed k found := fun h => ht ((s.mem_training k).mpr ((s.mem_failed k found).mp h).1)
    rw [if_neg hn, if_neg ht, if_neg hp, if_neg hn]

/-- The grant of a class after training. -/
def Link.given (l : Link) (grants : List Nat) (c : Fin 4) : Nat := grants.getD c.val l.classes[c].granted % 2 ^ 32

theorem linkTrainingDone_eq (grants : List Nat) (hp : (s.link k).phase = .training) : linkTrainingDone k found grants s =
    let t := s.settledLanes k found
    let u := if s.passed k found = [] then t else t.exchangeCredits k (s.passed k found) grants
    if s.passed k found = [] ∨ (s.link k).given grants 0 < 64 ∨ (s.link k).given grants 3 < 16 then
      (u.each (s.passed k found) fun s n => s.modLane n fun x => { x.unlocked with phase := .down }).modLink k fun _ => { s.link k with phase := .down, trainPhase := 0 }
    else ((u.each (s.passed k found) fun s n => s.modLane n fun x => { x with phase := .inLink }).modLink k fun l => { l with phase := .up, txEi := false, rxEi := false, trainPhase := 0 }).sessionLinkUp k := by
  unfold linkTrainingDone
  dsimp only
  rw [if_neg (fun h => h hp)]
  refine if_congr ?_ rfl rfl
  have hgiven : ∀ c : Fin 4, (freshClasses (s.link k) grants)[c].granted = (s.link k).given grants c := fun c => by simp [freshClasses, Link.given]
  simp only [hgiven, Bool.or_eq_true, decide_eq_true_eq, or_assoc]
  rfl

section
variable {s : State} {k : LinkId} {found : List LaneTraining} {grants : List Nat} (hp : (s.link k).phase = .training)
include hp

/-- A link that comes up on no lane, or with grants too small, goes DOWN (R530, R543). -/
theorem linkTrainingDone_down (hbad : s.passed k found = [] ∨ (s.link k).given grants 0 < 64 ∨ (s.link k).given grants 3 < 16) :
    (∃ ls cl f, linkTrainingDone k found grants s = { s with lanes := ls, links := s.links.set k { s.link k with phase := .down, trainPhase := 0 }, clock := cl, fresh := f })
    ∧ ∀ n, (n ∈ s.training k → ((linkTrainingDone k found grants s).lane n).phase = .down) ∧ (n ∉ s.training k → (linkTrainingDone k found grants s).lane n = s.lane n) := by
  rw [linkTrainingDone_eq s k found grants hp]
  dsimp only
  rw [if_pos hbad]
  obtain ⟨⟨ls, h1⟩, hlane1⟩ := s.settledLanes_spec k found
  have hlink1 : (s.settledLanes k found).link k = s.link k := by
    rw [h1]
    rfl
  have hon : ∀ n ∈ s.passed k found, n ∈ ((s.settledLanes k found).link k).lanes := fun n hn => by
    rw [hlink1]
    exact ((s.mem_passed k found).mp hn).1.1
  have hnodup : (s.passed k found).Nodup := ((s.link k).nodup_lanes.filter _).filter _
  obtain ⟨u, hu, ⟨ls', ks, cl, f, h2⟩, hset, hlane2⟩ : ∃ u, u = (if s.passed k found = [] then s.settledLanes k found else (s.settledLanes k found).exchangeCredits k (s.passed k found) grants)
      ∧ (∃ ls ks cl f, u = { s with lanes := ls, links := ks, clock := cl, fresh := f }) ∧ (∀ y, u.links.set k y = s.links.set k y) ∧ ∀ n, n ∉ s.passed k found → u.lane n = (s.settledLanes k found).lane n := by
    refine ⟨_, rfl, ?_⟩
    split
    · rw [h1]
      exact ⟨⟨ls, s.links, s.clock, s.fresh, rfl⟩, fun _ => rfl, fun _ _ => rfl⟩
    · obtain ⟨⟨ls', cl, f, x, c, h2, -⟩, hout, -⟩ := (s.settledLanes k found).exchangeCredits_spec k (s.passed k found) grants hnodup hon
      refine ⟨⟨ls', _, cl, f, h2.trans (by rw [h1])⟩, fun y => ?_, hout⟩
      rw [h2, h1]
      simp
  rw [← hu]
  obtain ⟨⟨ls'', h3⟩, hlane3⟩ := State.each_modLane (fun _ => Lane.dropped) (s.passed k found) hnodup u
  have hlane : ∀ n, ((u.each (s.passed k found) fun s n => s.modLane n fun x => { x.unlocked with phase := .down }).modLink k fun _ => { s.link k with phase := .down, trainPhase := 0 }).lane n
      = if n ∈ s.passed k found then (u.lane n).dropped else u.lane n := hlane3
  refine ⟨⟨ls'', cl, f, ?_⟩, fun n => ⟨fun hn => ?_, fun hn => ?_⟩⟩
  · have h3' : (u.each (s.passed k found) fun s n => s.modLane n fun x => { x.unlocked with phase := .down }) = { u with lanes := ls'' } := h3
    rw [h3']
    show { u with lanes := ls'', links := u.links.set k { s.link k with phase := .down, trainPhase := 0 } } = _
    rw [hset, h2]
  · rw [hlane]
    by_cases hin : n ∈ s.passed k found
    · rw [if_pos hin]
      rfl
    · have hfail : n ∈ s.failed k found := (s.mem_failed k found).mpr ⟨(s.mem_training k).mp hn, fun h0 => hin ((s.mem_passed k found).mpr ⟨(s.mem_training k).mp hn, h0⟩)⟩
      rw [if_neg hin, hlane2 n hin, hlane1 n, if_neg hin, if_pos hfail]
      rfl
  · have hin : n ∉ s.passed k found := fun h => hn ((s.mem_training k).mpr ((s.mem_passed k found).mp h).1)
    have hfail : n ∉ s.failed k found := fun h => hn ((s.mem_training k).mpr ((s.mem_failed k found).mp h).1)
    rw [hlane, if_neg hin, hlane2 n hin, hlane1 n, if_neg hin, if_neg hfail]

/-- A link that comes UP on the lanes that passed (R529 to R531). -/
theorem linkTrainingDone_up (hsome : s.passed k found ≠ []) (hw : (s.link k).width ≤ 8) (h0 : 64 ≤ (s.link k).given grants 0) (h3 : 16 ≤ (s.link k).given grants 3) :
    (∃ ls cl f c, linkTrainingDone k found grants s = { s with
      lanes := ls, clock := cl, fresh := f, sessions := s.sessions.set k { s.session k with holding := false }
      links := s.links.set k { (s.link k).opened (s.passed k found) grants with linkTx := [], creditClass := c, txSlot := [], phase := .up, txEi := false, rxEi := false, trainPhase := 0 } })
    ∧ (∀ n, n ∈ s.failed k found → (linkTrainingDone k found grants s).lane n = (s.trainedLane k found n).dropped) ∧ (∀ n, n ∉ s.training k → (linkTrainingDone k found grants s).lane n = s.lane n)
    ∧ ∀ n ∈ s.passed k found, ∃ y, (s.trainedLane k found n).begun.sent y ∧ (linkTrainingDone k found grants s).lane n = { y with phase := .inLink }
      ∧ ((∀ m ∈ s.passed k found, n ≤ m) → ∃ tx rest, y.lastTx = some tx ∧ tx.flits = (Link.makeFlit { (s.link k).opened (s.passed k found) grants with linkTx := [] } 1024 0 (s.link k).creditInit).2 :: rest) := by
  rw [linkTrainingDone_eq s k found grants hp]
  dsimp only
  rw [if_neg (by simp only [hsome, false_or]; omega), if_neg hsome]
  obtain ⟨⟨ls, h1⟩, hlane1⟩ := s.settledLanes_spec k found
  have hlink1 : (s.settledLanes k found).link k = s.link k := by
    rw [h1]
    rfl
  have hin : ∀ n ∈ s.passed k found, n ∈ (s.link k).lanes ∧ n.val - (s.link k).base < 8 := fun n hn => by
    have hh := ((s.mem_passed k found).mp hn).1.1
    have hholds := Link.mem_lanes.mp hh
    have hb := Link.base_le hholds
    simp only [Link.holds, Bool.and_eq_true, decide_eq_true_eq] at hholds
    exact ⟨hh, by omega⟩
  have hnodup : (s.passed k found).Nodup := ((s.link k).nodup_lanes.filter _).filter _
  obtain ⟨⟨ls', cl, f, x, c, h2, hx⟩, hout, hsent⟩ := (s.settledLanes k found).exchangeCredits_spec k (s.passed k found) grants hnodup fun n hn => by
    rw [hlink1]
    exact (hin n hn).1
  generalize (s.settledLanes k found).exchangeCredits k (s.passed k found) grants = u at *
  generalize s.settledLanes k found = v at *
  obtain ⟨n0, hn0⟩ := List.exists_mem_of_ne_nil _ hsome
  rw [hlink1] at h2 hx hsent
  obtain rfl := hx n0 hn0 (hin n0 hn0).2
  obtain ⟨⟨ls'', h3⟩, hlane3⟩ := State.each_modLane (fun _ x => { x with phase := .inLink }) (s.passed k found) hnodup u
  generalize (u.each (s.passed k found) fun s n => s.modLane n fun x => { x with phase := .inLink }) = w at *
  have hlane : ∀ n, ((w.modLink k fun l => { l with phase := .up, txEi := false, rxEi := false, trainPhase := 0 }).sessionLinkUp k).lane n = if n ∈ s.passed k found then { u.lane n with phase := .inLink } else u.lane n := hlane3
  refine ⟨⟨ls'', cl, f, c, ?_⟩, fun n hn => ?_, fun n hn => ?_, fun n hn => ⟨u.lane n, ?_, ?_, fun hleast => ?_⟩⟩
  · have hw : w.link k = { (s.link k).opened (s.passed k found) grants with linkTx := [], creditClass := c, txSlot := [] } := by
      rw [h3, h2]
      exact State.link_modLink_same v k fun _ => { (s.link k).opened (s.passed k found) grants with linkTx := [], creditClass := c, txSlot := [] }
    have hsession : w.session k = s.session k := by
      rw [h3, h2, h1]
      rfl
    show { w with links := w.links.set k { w.link k with phase := .up, txEi := false, rxEi := false, trainPhase := 0 }, sessions := w.sessions.set k { w.session k with holding := false } } = _
    rw [hw, hsession, h3, h2, h1]
    simp
  · have hno : n ∉ s.passed k found := fun h => ((s.mem_failed k found).mp hn).2 ((s.mem_passed k found).mp h).2
    rw [hlane, if_neg hno, hout n hno, hlane1 n, if_neg hno, if_pos hn]
  · have hno : n ∉ s.passed k found := fun h => hn ((s.mem_training k).mpr ((s.mem_passed k found).mp h).1)
    have hnf : n ∉ s.failed k found := fun h => hn ((s.mem_training k).mpr ((s.mem_failed k found).mp h).1)
    rw [hlane, if_neg hno, hout n hno, hlane1 n, if_neg hno, if_neg hnf]
  · have h := (hsent n hn (hin n hn).2).1
    rw [hlane1 n, if_pos hn] at h
    exact h
  · rw [hlane, if_pos hn]
  · exact (hsent n hn (hin n hn).2).2 hleast

end

end

/-! ### The chip's CREDIT_INIT (R543, R548) -/

theorem Link.creditInit_eq (l : Link) : l.creditInit = [(0x01 : Byte)] ++ le 4 (1024 * l.width) ++ le 4 (5120 * l.width) ++ le 4 (5632 * l.width) ++ le 4 (512 * l.width) := by
  simp [Link.creditInit, List.finRange_succ, grantPerLane]
  rfl

/-- The flit of CREDIT_INIT: a LINK flit with the message. -/
theorem creditInit_flit (l : Link) (on : List LaneId) (grants : List Nat) (g : List Byte) (hg : g = (Link.makeFlit { l.opened on grants with linkTx := [] } 1024 0 l.creditInit).2) :
    unle (g.take 4) / 2 ^ 30 % 2 ^ 2 = 2 ∧ (g.drop 4).take 17 = l.creditInit := by
  have hlen : l.creditInit.length = 17 := by
    rw [Link.creditInit_eq]
    simp [length_le]
  have hfresh : (freshClasses l grants)[(0 : Fin 4)].freed = 0 := by simp [freshClasses, ClassState.reset]
  have hflit : ∃ tail, g = le 4 (2 ^ 31) ++ (l.creditInit ++ tail) := by
    rw [hg]
    unfold Link.makeFlit
    dsimp only
    rw [show (l.opened on grants).classes[(l.opened on grants).creditClass].freed = 0 from hfresh, show (l.opened on grants).creditClass = 0 from rfl,
      show 2 ^ 21 * 1024 + 2 ^ 19 * (0 : Fin 4).val + 2 ^ 8 * (0 % 2048) + 0 = 2 ^ 31 by norm_num, List.append_assoc, List.append_assoc]
    exact ⟨_, rfl⟩
  obtain ⟨tail, rfl⟩ := hflit
  have h4 : (le 4 (2 ^ 31)).length = 4 := length_le 4 _
  refine ⟨?_, ?_⟩
  · rw [List.take_left' h4, unle_le]
    norm_num
  · rw [List.drop_left' h4, List.take_left' hlen]

end Sys2Proof.Machine
end

section
/-! A lane that retrains, a lane that loses its signal, and the row of training (R549, R550, R554, R563). -/

namespace Sys2Proof.Machine

/-! ### The end of a lane's retraining (R550, R554) -/

/-- A mask that another one adds nothing to, and shares nothing with, is empty. -/
theorem or_eq_left {a b c : Byte} (h : a ||| b = c) (h0 : c &&& b = 0) : b = 0 := by
  have hb : b = (a ||| b) &&& b := BitVec.eq_of_getLsbD_eq fun i _ => by
    rw [BitVec.getLsbD_and, BitVec.getLsbD_or]
    cases a.getLsbD i <;> cases b.getLsbD i <;> rfl
  rw [hb, h, h0]

section
variable {s : State} {n : LaneId} {f : LaneTraining}

theorem laneRetrainDone_other (h : (s.lane n).phase ≠ .retraining ∨ (s.lane n).ready = true) : laneRetrainDone n f s = s := by
  unfold laneRetrainDone
  exact if_pos (by simpa using h)

variable (hp : (s.lane n).phase = .retraining) (hr : (s.lane n).ready = false)
include hp hr

/-- A lane whose attempt has failed. -/
def Lane.retried (x : Lane) (allow : Bool) (f : LaneTraining) : Lane := { (x.train allow f).unlocked with attempts := x.attempts + 1, phase := if 2 ≤ x.attempts then .failed else .retraining }

omit hp hr in
theorem Lane.retried_spec (x : Lane) (allow : Bool) (hr : x.ready = false) (hf : f.fails ≠ 0) : (3 < f.fails.val → (x.retried allow f).Sender allow f) ∧ (4 < f.fails.val → (x.retried allow f).Receiver f)
    ∧ x.retried allow f = { x with
      attempts := x.attempts + 1, phase := if 2 ≤ x.attempts then .failed else .retraining, lock := false, goodHeaders := 0, badHeaders := 0, rxSeq := none, rxQueue := [], idleSince := none, lastMs := [], signal := decide (1 < f.fails.val)
      ffe := if 3 < f.fails.val then (x.retried allow f).ffe else x.ffe, request := if 3 < f.fails.val then (x.retried allow f).request else x.request
      txPrecode := if 3 < f.fails.val then (x.retried allow f).txPrecode else x.txPrecode, ctle := if 4 < f.fails.val then (x.retried allow f).ctle else x.ctle
      eyeMv := if 4 < f.fails.val then (x.retried allow f).eyeMv else x.eyeMv, dfe := if 4 < f.fails.val then (x.retried allow f).dfe else x.dfe
      rxPrecode := if 4 < f.fails.val then (x.retried allow f).rxPrecode else x.rxPrecode } := by
  have hready : x = { x with ready := false } := by rw [← hr]
  have h3of : 4 < f.fails.val → 3 < f.fails.val := by omega
  unfold Lane.retried
  rw [x.train_failed allow f hf]
  by_cases h4 : 4 < f.fails.val
  · simp only [h4, h3of h4, if_true]
    refine ⟨fun _ => ⟨rfl, rfl, rfl⟩, fun _ => Lane.receiving_receiver (({ x with signal := decide (1 < f.fails.val) } : Lane).sending allow f) f, ?_⟩
    rw [hready]
    rfl
  · by_cases h3 : 3 < f.fails.val
    · simp only [h4, h3, if_true, if_false]
      refine ⟨fun _ => ⟨rfl, rfl, rfl⟩, fun h => h.elim, ?_⟩
      rw [hready]
      rfl
    · simp only [h4, h3, if_false]
      refine ⟨fun h => h.elim, fun h => h.elim, ?_⟩
      rw [hready]
      rfl

/-- An attempt that fails counts, and the third makes the lane FAILED. -/
theorem laneRetrainDone_fails (hf : f.fails ≠ 0) : laneRetrainDone n f s = { s with lanes := s.lanes.set n ((s.lane n).retried (bit (s.reg (nkey n 0)) 29) f) } := by
  have hlane : (s.trainLane n f).lane n = (s.lane n).train (bit (s.reg (nkey n 0)) 29) f := State.lane_modLane_same ..
  have hattempts : ((s.lane n).train (bit (s.reg (nkey n 0)) 29) f).attempts = (s.lane n).attempts := by
    rw [Lane.train_failed _ _ _ hf]
    split <;> split <;> rfl
  have hset : (s.trainLane n f).modLane n (fun x => { x.unlocked with attempts := x.attempts + 1, phase := if 3 ≤ x.attempts + 1 then .failed else .retraining })
      = { s with lanes := s.lanes.set n { ((s.trainLane n f).lane n).unlocked with attempts := ((s.trainLane n f).lane n).attempts + 1, phase := if 3 ≤ ((s.trainLane n f).lane n).attempts + 1 then .failed else .retraining } } := by
    simp [State.modLane, State.trainLane, State.lane]
  unfold laneRetrainDone
  rw [if_neg (by simp [hp, hr])]
  refine (if_neg hf).trans (hset.trans ?_)
  rw [hlane, hattempts, Lane.retried]
  simp only [show 3 ≤ (s.lane n).attempts + 1 ↔ 2 ≤ (s.lane n).attempts from ⟨by omega, by omega⟩]

theorem laneRetrainDone_alone (hf : f.fails = 0) (hk : ∀ k, s.linkOf n = some k → (s.link k).carries = false) :
    laneRetrainDone n f s = (s.trainLane n f).modLane n fun x => { x.unlocked with phase := .down, attempts := 0 } := by
  have hnone : ((s.trainLane n f).linkOf n).filter (fun k => ((s.trainLane n f).link k).carries) = none := by
    show (s.linkOf n).filter (fun k => (s.link k).carries) = none
    cases h : s.linkOf n with
    | none => rfl
    | some k => simp [Option.filter, hk k h]
  unfold laneRetrainDone
  rw [if_neg (by simp [hp, hr])]
  dsimp only
  rw [if_pos hf, hnone]

/-- A lane that has retrained is proposed to its link (R550). -/
theorem laneRetrainDone_proposes {k : LinkId} (hf : f.fails = 0) (hk : s.linkOf n = some k) (hl : (s.link k).carries = true) (hc : (s.link k).change = none)
    (hout : (s.link k).inService &&& laneBit (s.link k) n = 0) (h0 : laneBit (s.link k) n ≠ 0) :
    laneRetrainDone n f s = (((s.trainLane n f).modLane n fun x => { x.started with ready := true }).gainLock n).proposed k ((s.link k).inService ||| laneBit (s.link k) n) := by
  have hsome : ((s.trainLane n f).linkOf n).filter (fun k => ((s.trainLane n f).link k).carries) = some k := by
    show (s.linkOf n).filter (fun k => (s.link k).carries) = some k
    rw [hk]
    simp [Option.filter, hl]
  unfold laneRetrainDone
  rw [if_neg (by simp [hp, hr])]
  dsimp only
  rw [if_pos hf, hsome]
  dsimp only
  obtain ⟨c, hgain⟩ := ((s.trainLane n f).modLane n fun x => { x.started with ready := true }).gainLock_frame n
  have hlink : (((s.trainLane n f).modLane n fun x => { x.started with ready := true }).gainLock n).link k = s.link k := by
    rw [hgain]
    rfl
  have h := State.proposeWidth_first (((s.trainLane n f).modLane n fun x => { x.started with ready := true }).gainLock n) k (fun m => m ||| laneBit (s.link k) n) (by rw [hlink, hl]) (by rw [hlink, hc])
    (by rw [hlink]; exact fun h => h0 (or_eq_left h BitVec.zero_and))
    (by rw [hlink]; exact fun h => h0 (or_eq_left h hout))
  rw [hlink] at h
  exact h

end

/-! ### Registers that the end of a session leaves -/

/-- The registers outside those that count replies are as they were. -/
def State.RegsAlike (s t : State) : Prop := ∀ k, k < rk 8 0x104 ∨ rk 8 0x204 ≤ k → t.reg k = s.reg k

namespace State.RegsAlike

variable {s t u : State}

theorem refl (s : State) : s.RegsAlike s := fun _ _ => rfl

theorem trans (h : s.RegsAlike t) (h' : t.RegsAlike u) : s.RegsAlike u := fun k hk => (h' k hk).trans (h k hk)

theorem of_regs (h : t.regs = s.regs) : s.RegsAlike t := fun k _ => by rw [State.reg, h, State.reg]

theorem ite {c : Prop} [Decidable c] (h : s.RegsAlike t) (h' : s.RegsAlike u) : s.RegsAlike (if c then t else u) := by
  split
  · exact h
  · exact h'

theorem each {α : Type} (l : List α) (f : State → α → State) (hf : ∀ v a, State.RegsAlike v (f v a)) (s : State) : s.RegsAlike (s.each l f) :=
  List.foldlRecOn (motive := s.RegsAlike) l f (refl s) fun v hv a _ => hv.trans (hf v a)

end State.RegsAlike

section
variable (s : State)

theorem State.runFx_regsAlike (q : QId) (x : Fx) : s.RegsAlike (State.runFx q s x) := by
  by_cases hx : x.unreported = true
  · exact (s.runFx_answered q x hx).regs
  · cases x with
    | report _ _ _ _ _ _ => exact .of_regs rfl
    | lineReport => exact .of_regs rfl
    | _ => exact absurd rfl hx

theorem State.onQuire_regsAlike (q : QId) (f : Quire → W) : s.RegsAlike (s.onQuire q f) :=
  List.foldlRecOn (motive := s.RegsAlike) _ _ (State.RegsAlike.of_regs (t := s.setQuire q (f (s.quire q)).q) rfl) fun t ht x _ => ht.trans (t.runFx_regsAlike q x)

theorem State.requestStop_regsAlike (q : QId) (cause : StopCause) : s.RegsAlike (s.requestStop q cause) := by
  unfold State.requestStop
  split
  · exact (s.onQuire_regsAlike q _).trans (State.cancelStarts_answered _ q _ _).regs
  · exact .of_regs rfl
  · exact .of_regs rfl
  · exact .refl s

theorem State.releaseQuire_regsAlike (k : LinkId) (cause : StopCause) (q : QId) : s.RegsAlike (s.releaseQuire k cause q) := by
  unfold State.releaseQuire
  refine .ite (.refl s) ?_
  extract_lets u v
  exact .trans (t := v) (.of_regs rfl) ((State.requestStop_regsAlike v q cause).trans (.of_regs rfl))

theorem State.endSession_regsAlike (k : LinkId) (cause : StopCause) : s.RegsAlike (s.endSession k cause) := by
  have h : s.RegsAlike (s.each (List.finRange 8) fun s q => s.releaseQuire k cause q) := .each _ _ (fun v q => v.releaseQuire_regsAlike k cause q) s
  unfold State.endSession
  dsimp only
  generalize (s.each (List.finRange 8) fun s q => s.releaseQuire k cause q) = t at h
  exact h.trans (.of_regs rfl)

/-- A link that goes DOWN counts that, and changes no other register but those that count replies. -/
theorem State.linkDown_reg (k : LinkId) {key : Nat} (hkey : key < rk 8 0x104 ∨ rk 8 0x204 ≤ key) (hne : key ≠ lkey k 0x38) : (s.linkDown k).reg key = s.reg key := by
  have hbump : (if (s.link k).carries then s.bump (lkey k 0x38) else s).reg key = s.reg key := by
    split
    · exact s.bump_reg_other _ 1 hne
    · rfl
  unfold State.linkDown
  extract_lets l t u v
  have hu : ∃ ls, u = { t with lanes := ls } := List.foldlRecOn (motive := fun w : State => ∃ ls, w = { t with lanes := ls }) _ _ ⟨_, rfl⟩ fun w ⟨ls, hw⟩ n _ => by
    subst hw
    exact ⟨_, rfl⟩
  have hsession : v.RegsAlike (v.sessionLinkDown k) := .ite (.refl v) (.ite (v.endSession_regsAlike k .chip) (.of_regs rfl))
  rw [hsession key hkey, ← hbump]
  obtain ⟨ls, hu⟩ := hu
  show u.reg key = _
  rw [hu]
  rfl

theorem State.retrainLane_reg (n : LaneId) {key : Nat} (hkey : key < rk 8 0x104 ∨ rk 8 0x204 ≤ key) (hne : ∀ k, key ≠ lkey k 0x38) : (s.retrainLane n).reg key = s.reg key := by
  unfold State.retrainLane
  split
  next k _ =>
    split
    · unfold State.removeLane State.proposeWidth
      extract_lets l mask
      split
      · rfl
      · split
        · exact State.linkDown_reg (s.modLane n fun x => { x with leave := some .retraining }) k hkey (hne k)
        · split <;> rfl
    · rfl
  · rfl

end

/-! ### Loss of signal (R549, R563) -/

/-- A lane that has lost its signal and its lock. -/
def Lane.silenced (x : Lane) : Lane := { x with signal := false, lock := false, ready := false, goodHeaders := 0, badHeaders := 0, rxSeq := none, idleSince := none }

section
variable {s : State} {n : LaneId}

/-- The host's direction of the lane idles. -/
def State.hostIdles (s : State) (n : LaneId) : Bool := match s.linkOf n with | some k => (s.link k).rxEi && (s.link k).hears n | none => false

theorem lossOfSignal_kept (h : (s.lane n).lock = false ∨ s.hostIdles n = true) : lossOfSignal n s = s.modLane n fun x => { x with signal := false } := by
  have hlose : (s.lane n).lock = false → (s.modLane n fun x => { x with signal := false }).loseLock n = s.modLane n fun x => { x with signal := false } := fun hlock => by
    unfold State.loseLock
    refine if_neg ?_
    rw [State.lane_modLane_same]
    exact Bool.eq_false_iff.mp hlock
  show (if s.hostIdles n then s.modLane n fun x => { x with signal := false } else (s.modLane n fun x => { x with signal := false }).loseLock n) = _
  obtain h | h := h
  · rw [hlose h, ite_self]
  · exact if_pos h

theorem lossOfSignal_loses (hlock : (s.lane n).lock = true) (hidle : s.hostIdles n = false) : lossOfSignal n s = ((s.modLane n Lane.silenced).bump (nkey n 0x18)).retrainLane n := by
  have hlane : (((s.modLane n fun x => { x with signal := false }).modLane n Lane.lockLost).bump (nkey n 0x18)) = (s.modLane n Lane.silenced).bump (nkey n 0x18) := by
    congr 1
    simp only [State.modLane, Fin.getElem_fin, Vector.getElem_set_self, Vector.set_set]
    rfl
  have hloses : lossOfSignal n s = (s.modLane n fun x => { x with signal := false }).loseLock n := if_neg (Bool.eq_false_iff.mp hidle)
  rw [hloses]
  unfold State.loseLock
  rw [if_pos (by rw [State.lane_modLane_same]; exact hlock), hlane]
  refine if_pos ?_
  rw [State.bump_lane, State.lane_modLane_same]
  rfl

/-- A lane out of service, or one that leaves already, stays where it is. -/
theorem State.retrainLane_other (h : ∀ k, s.linkOf n = some k → (s.link k).carries = false ∨ (s.link k).serves n = false ∨ (s.lane n).leave ≠ none) : s.retrainLane n = s := by
  unfold State.retrainLane
  cases hk : s.linkOf n with
  | none => rfl
  | some k =>
    refine if_neg ?_
    obtain h | h | h := h k hk
    · simp [h]
    · simp [h]
    · simp [h]

end

end Sys2Proof.Machine

namespace Sys2Proof.Proofs
open Sys2Proof.Machine

/-- Settles O55: the end of a link's training by the lanes that passed it, and a lane that retrains or loses its signal by what becomes of its place. -/
theorem trainingAndRetraining : Obligations.TrainingAndRetraining := by
  unfold Obligations.TrainingAndRetraining
  intro s k n found grants l x lane of trains on sender receiver field creditInit grant quiet done
  have htrains : ∀ m, trains m ↔ m ∈ s.training k := fun m => (s.mem_training k).symm
  have hon : ∀ m, on m ↔ m ∈ s.passed k found := fun m => (s.mem_passed k found).symm
  refine ⟨fun hp => ⟨fun hsome hw h0 h3 => ?_, fun hbad => ?_⟩, fun hp => ?_, fun hb hd hp => ?_, fun hno => ?_, fun hno f => congrArg Host.Outcome.next (laneRetrainDone_other hno), fun hp hr f => ⟨fun hf => ?_, fun hf hk hl hc hout hlane => ?_, fun hf hk => ?_⟩,
    fun hlock hk => ?_, fun hno => ?_⟩
  · have hne : s.passed k found ≠ [] := fun h => by
      obtain ⟨m, hm⟩ := hsome
      have := (hon m).mp hm
      rw [h] at this
      exact List.not_mem_nil this
    obtain ⟨⟨ls, cl, f, c, hframe⟩, hfailed, hother, hpassed⟩ := linkTrainingDone_up hp hne hw h0 h3
    have hlink : (linkTrainingDone k found grants s).link k = { l.opened (s.passed k found) grants with linkTx := [], creditClass := c, txSlot := [], phase := .up, txEi := false, rxEi := false, trainPhase := 0 } := by
      rw [hframe]
      exact State.link_modLink_same s k fun _ => { l.opened (s.passed k found) grants with linkTx := [], creditClass := c, txSlot := [], phase := .up, txEi := false, rxEi := false, trainPhase := 0 }
    have hin : ∀ m ∈ s.passed k found, m ∈ l.lanes := fun m hm => ((s.mem_passed k found).mp hm).1.1
    have hmask : ∀ m ∈ l.lanes, (l.opened (s.passed k found) grants).serves m = true ↔ on m := fun m hm => by
      rw [l.opened_serves grants hin m, hon]
      refine ⟨fun h => h.1, fun h => ⟨h, ?_⟩⟩
      have hholds := Link.mem_lanes.mp hm
      have hb := Link.base_le hholds
      simp only [Link.holds, Bool.and_eq_true, decide_eq_true_eq] at hholds
      omega
    refine ⟨_, rfl, ⟨by rw [hframe], by rw [hframe], by rw [hframe]⟩, by rw [hlink], by rw [hlink], by rw [hlink], by rw [hlink]; rfl, fun m hm => ⟨?_, ?_⟩, fun m hm => ?_, fun m hm hno => ?_,
      fun m hm => hother m fun h => hm ((htrains m).mpr h), by rw [hlink], by rw [hlink], fun i => ?_, ?_⟩
    · rw [hlink]
      exact hmask m hm
    · rw [hlink]
      exact hmask m hm
    · intro y
      obtain ⟨z, hz, hy, hhead⟩ := hpassed m ((hon m).mp hm)
      have hfound : (foundOf l found m).fails = 0 := hm.2
      have htrained := (s.lane m).train_passed (bit (s.reg (nkey m 0)) 29) (foundOf l found m) hfound
      rw [State.trainedLane, htrained] at hz
      rw [show y = { z with phase := .inLink } from hy, hz]
      have hrec := Lane.receiving_receiver (({ s.lane m with signal := true } : Lane).sending (bit (s.reg (nkey m 0)) 29) (foundOf l found m)) (foundOf l found m)
      refine ⟨rfl, rfl, rfl, rfl, rfl, rfl, rfl, rfl, rfl, rfl, ⟨rfl, rfl, rfl⟩, hrec, fun hleast => ?_⟩
      obtain ⟨tx, rest, htx, hflits⟩ := hhead fun o ho => hleast o ((hon o).mpr ho)
      obtain ⟨h1, h2⟩ := creditInit_flit l (s.passed k found) grants _ rfl
      exact ⟨tx, _, rest, htx, hflits, h1, h2.trans l.creditInit_eq⟩
    · have hm' : m ∈ s.failed k found := (s.mem_failed k found).mpr ⟨hm, fun h => hno ⟨hm, h⟩⟩
      rw [hfailed m hm']
      exact ⟨rfl, rfl⟩
    · rw [hlink]
      have hclass : (freshClasses l grants)[i] = { ClassState.reset with granted := grant i, ourGrant := grantPerLane i * l.width, packets := l.classes[i].packets } := by simp [freshClasses, grant]
      refine hclass.trans ?_
      fin_cases i <;> rfl
    · rw [hframe]
      exact State.session_modSession_same s k fun x => { x with holding := false }
  · have hbad' : s.passed k found = [] ∨ (s.link k).given grants 0 < 64 ∨ (s.link k).given grants 3 < 16 := hbad.imp_left fun h => List.eq_nil_iff_forall_not_mem.mpr fun m hm => h m ((hon m).mpr hm)
    obtain ⟨⟨ls, cl, f, hframe⟩, hlanes⟩ := linkTrainingDone_down hp hbad'
    refine ⟨_, rfl, ⟨by rw [hframe], by rw [hframe], by rw [hframe]⟩, by rw [hframe], fun m => ⟨fun h => (hlanes m).1 ((htrains m).mp h), fun h => (hlanes m).2 fun h' => h ((htrains m).mpr h')⟩⟩
  · exact congrArg Host.Outcome.next (if_pos hp)
  · obtain ⟨⟨ls, h1⟩, hlane⟩ := State.each_modLane (fun _ x => if x.trains then { x with phase := .training } else x) l.lanes l.nodup_lanes s
    have htrain : s.trainLink k = (s.each l.lanes fun s n => s.modLane n fun x => if x.trains then { x with phase := .training } else x).modLink k fun l => { l with phase := .training, trainPhase := 1 } := by
      unfold State.trainLink
      exact if_pos (by simp [l] at hd hp ⊢; exact ⟨hd, hp⟩)
    refine ⟨_, congrArg Host.Outcome.next (if_pos hb), ?_⟩
    rw [htrain]
    generalize (s.each l.lanes fun s n => s.modLane n fun x => if x.trains then { x with phase := .training } else x) = u at *
    refine ⟨⟨by rw [h1]; rfl, by rw [h1]; rfl, by rw [h1]; rfl⟩, by rw [h1]; rfl, fun m => (hlane m).trans ?_⟩
    have htr : (s.lane m).trains = true ↔ (s.lane m).phase ≠ .out ∧ (s.lane m).phase ≠ .failed ∧ (s.lane m).phase ≠ .testing := by simp [Lane.trains, and_assoc]
    by_cases hm : m ∈ l.lanes
    · rw [if_pos hm]
      exact if_congr (htr.trans (by simp [hm])) rfl rfl
    · rw [if_neg hm, if_neg fun h => hm h.1]
  · by_cases hb : 4 ≤ s.boot.step
    · have htrain : s.trainLink k = s := by
        unfold State.trainLink
        refine if_neg ?_
        obtain h | h | h := hno
        · omega
        · simp [l] at h
          simp [h]
        · simp [l] at h
          simp [h]
      exact congrArg Host.Outcome.next ((if_pos hb).trans htrain)
    · exact congrArg Host.Outcome.next (if_neg hb)
  · exact ⟨_, congrArg Host.Outcome.next (laneRetrainDone_fails hp hr hf), (s.lane n).retried_spec _ hr hf⟩
  · have hdone := laneRetrainDone_proposes hp hr hf hk hl hc hout hlane
    have htrained := x.train_passed (bit (s.reg (nkey n 0)) 29) f hf
    obtain ⟨c, hgain⟩ := ((s.trainLane n f).modLane n fun x => { x.started with ready := true }).gainLock_frame n
    have hlanes : ∀ m, (((s.trainLane n f).modLane n fun x => { x.started with ready := true }).gainLock n).lane m = ((s.trainLane n f).modLane n fun x => { x.started with ready := true }).lane m := fun m => by
      rw [hgain]
      rfl
    have hn : (((s.trainLane n f).modLane n fun x => { x.started with ready := true }).gainLock n).lane n = { (x.train (bit (s.reg (nkey n 0)) 29) f).started with ready := true } := by
      rw [hlanes, State.lane_modLane_same, State.trainLane, State.lane_modLane_same]
    have hcw : (((s.trainLane n f).modLane n fun x => { x.started with ready := true }).gainLock n).nextCw k = s.nextCw k := State.nextCw_congr s _ k (by rw [hgain]; rfl) fun m => by
      rcases eq_or_ne m n with rfl | hm
      · rw [hn, htrained]
        rfl
      · rw [hlanes, State.lane_modLane_other _ _ _ _ hm, State.trainLane, State.lane_modLane_other _ _ _ _ hm]
    have hlink : (((s.trainLane n f).modLane n fun x => { x.started with ready := true }).gainLock n).link k = l := by
      rw [hgain]
      rfl
    have hquiet : quiet (((s.trainLane n f).modLane n fun x => { x.started with ready := true }).gainLock n) := by
      rw [hgain]
      exact ⟨rfl, rfl, rfl⟩
    generalize (((s.trainLane n f).modLane n fun x => { x.started with ready := true }).gainLock n) = u at *
    have hy : (u.proposed k (l.inService ||| laneBit l n)).lane n = { ((({ x with signal := true } : Lane).sending (bit (s.reg (nkey n 0)) 29) f).receiving f).started with ready := true } := by
      rw [← htrained]
      exact hn
    refine ⟨_, congrArg Host.Outcome.next hdone, hquiet, ?_, ?_, ?_, ?_⟩
    · rw [show (u.proposed k (l.inService ||| laneBit l n)).lane n = _ from hy]
      exact ⟨rfl, rfl, rfl⟩
    · rw [show (u.proposed k (l.inService ||| laneBit l n)).lane n = _ from hy]
      exact Lane.receiving_receiver (({ x with signal := true } : Lane).sending (bit (s.reg (nkey n 0)) 29) f) f
    · rw [show (u.proposed k (l.inService ||| laneBit l n)).lane n = _ from hy]
      rfl
    · rw [State.proposed, State.link_modLink_same, hlink, hcw]
      rfl
  · have hnot : ∀ j, s.linkOf n = some j → (s.link j).carries = false := fun j hj => by
      obtain h | ⟨h, hl⟩ := hk
      · rw [h] at hj
        cases hj
      · rw [h] at hj
        cases hj
        exact hl
    have hdone := laneRetrainDone_alone hp hr hf hnot
    have htrained := x.train_passed (bit (s.reg (nkey n 0)) 29) f hf
    have hn : ((s.trainLane n f).modLane n fun x => { x.unlocked with phase := .down, attempts := 0 }).lane n
        = { ((({ x with signal := true } : Lane).sending (bit (s.reg (nkey n 0)) 29) f).receiving f).unlocked with phase := .down, attempts := 0 } := by
      rw [State.lane_modLane_same, State.trainLane, State.lane_modLane_same, ← htrained]
    refine ⟨_, congrArg Host.Outcome.next hdone, ⟨rfl, rfl, rfl⟩, rfl, ?_⟩
    rw [hn]
    exact ⟨rfl, rfl, rfl, ⟨rfl, rfl, rfl⟩, Lane.receiving_receiver (({ x with signal := true } : Lane).sending (bit (s.reg (nkey n 0)) 29) f) f⟩
  · have hidle : s.hostIdles n = false := by
      unfold State.hostIdles
      obtain h | ⟨h, hl⟩ := hk
      · rw [h]
      · rw [h]
        obtain h | h := hl
        · simp [show (s.link k).rxEi = false from h]
        · simp [show (s.link k).hears n = false from h]
    have hdone := lossOfSignal_loses hlock hidle
    obtain ⟨lg, sp, hbump⟩ := (s.modLane n Lane.silenced).bump_shape (nkey n 0x18) 1
    have hcount := (s.modLane n Lane.silenced).bump_counted (nkey n 0x18) 1
    have hlink : ∀ j, ((s.modLane n Lane.silenced).bump (nkey n 0x18)).link j = s.link j := fun j => State.bump_link ..
    have hlinkOf : ((s.modLane n Lane.silenced).bump (nkey n 0x18)).linkOf n = s.linkOf n := by
      rw [hbump]
      rfl
    have hlane : ((s.modLane n Lane.silenced).bump (nkey n 0x18)).lane n = x.silenced := (State.bump_lane ..).trans (State.lane_modLane_same ..)
    have hquiet : quiet ((s.modLane n Lane.silenced).bump (nkey n 0x18)) := by
      rw [hbump]
      exact ⟨rfl, rfl, rfl⟩
    have hlanes : ((s.modLane n Lane.silenced).bump (nkey n 0x18)).lanes = s.lanes.set n x.silenced := State.bump_lanes ..
    have hlinks : ((s.modLane n Lane.silenced).bump (nkey n 0x18)).links = s.links := State.bump_links ..
    have hcw : ((s.modLane n Lane.silenced).bump (nkey n 0x18)).nextCw k = s.nextCw k := State.nextCw_congr s _ k (hlink k) fun m => by
      rcases eq_or_ne m n with rfl | hm
      · rw [hlane]
        rfl
      · rw [State.bump_lane, State.lane_modLane_other _ _ _ _ hm]
    generalize ((s.modLane n Lane.silenced).bump (nkey n 0x18)) = u at *
    refine ⟨_, congrArg Host.Outcome.next hdone, ?_, fun hstay => ?_, fun hk hl hs hleave hc hrest => ?_⟩
    · rw [u.retrainLane_reg n (nkey_low n (by decide)) fun j => by simp only [nkey, lkey, rk]; omega]
      exact hcount
    · have hsame : u.retrainLane n = u := State.retrainLane_other fun j hj => by
        rw [hlinkOf] at hj
        rw [hlink, hlane]
        obtain h | ⟨h, -⟩ := hk
        · rw [h] at hj
          cases hj
        · rw [h] at hj
          cases hj
          exact hstay.resolve_left (by rw [h]; simp)
      rw [hsame]
      exact ⟨hquiet, hlinks, hlanes⟩
    · have hprop := u.retrainLane_proposes k n (hlinkOf.trans hk) (by rw [hlink]; exact hs) (by rw [hlink]; exact hl) (by rw [hlink]; exact hc) (by rw [hlane]; exact hleave) (by rw [hlink]; exact hrest)
      have hcw' : (u.modLane n fun x => { x with leave := some .retraining }).nextCw k = s.nextCw k :=
        (u.nextCw_leave n .retraining k).trans hcw
      rw [hprop]
      refine ⟨hquiet, ?_, ?_⟩
      · show u.lanes.set n { u.lane n with leave := some .retraining } = _
        rw [hlanes, hlane, Vector.set_set]
        rfl
      · show u.links.set k { u.link k with phase := .changing, change := some (.propose ((u.link k).inService &&& ~~~(laneBit (u.link k) n)) ((u.modLane n fun x => { x with leave := some .retraining }).nextCw k + 8)) } = _
        rw [hlinks, hlink, hcw']
        rfl
  · have hno' : (s.lane n).lock = false ∨ s.hostIdles n = true := hno.imp_right fun ⟨hk, hi, hh⟩ => by
      unfold State.hostIdles
      rw [hk]
      simp [show (s.link k).rxEi = true from hi, show (s.link k).hears n = true from hh]
    exact congrArg Host.Outcome.next (lossOfSignal_kept hno')

end Sys2Proof.Proofs
end

section
/-! COLLATE (R612 to R616): the lowest address that a phase names, what the late phases leave of the quire, and how the chip follows a commit. -/

namespace Sys2Proof.Machine

/-! ### A command on one quire -/

theorem quiresOf_one : ∀ q : QId, quiresOf (BitVec.ofNat 8 (2 ^ q.val)) = [q] := by decide

theorem hdrQuire_one {h : Hdr} {q : QId} (hq : h.qmask = BitVec.ofNat 8 (2 ^ q.val)) : hdrQuire h = q := by
  rw [hdrQuire, hq, quiresOf_one]
  rfl

/-- A reply that is owed is still owed after a change of one quire, the log and the reports. -/
theorem State.Owes.within {s t : State} {d : ReplyTo} {q : QId} (h : s.Owes d) (hw : s.Within t q) (st : Byte) (dt : BitVec 16) (res : List Byte) : s.Replied (t.reply d st dt res) d st dt res := by
  obtain ⟨-, ht⟩ := hw
  exact h.replied (by rw [ht]) (by rw [ht]; rfl) (by rw [ht]) (by rw [ht]; rfl) st dt res

/-! ### The lowest of the offending keys (R614) -/

theorem lowest_mem (l : List (Nat × Byte)) : (lowest l = none ↔ l = []) ∧ ∀ x, lowest l = some x → x ∈ l ∧ ∀ y ∈ l, x.1 ≤ y.1 := by
  induction l with
  | nil => exact ⟨by simp [lowest], fun x h => by simp [lowest] at h⟩
  | cons a t ih =>
    obtain ⟨hnone, hsome⟩ := ih
    cases ht : lowest t with
    | none =>
      have htail : t = [] := hnone.mp ht
      subst htail
      simp [lowest]
    | some y =>
      obtain ⟨hy, hmin⟩ := hsome y ht
      rw [lowest, ht]
      dsimp only
      by_cases hlt : y.1 < a.1
      · rw [if_pos hlt]
        refine ⟨by simp, fun x hx => ?_⟩
        obtain rfl := Option.some.inj hx
        exact ⟨.tail _ hy, List.forall_mem_cons.mpr ⟨hlt.le, hmin⟩⟩
      · rw [if_neg hlt]
        refine ⟨by simp, fun x hx => ?_⟩
        obtain rfl := Option.some.inj hx
        exact ⟨.head _, List.forall_mem_cons.mpr ⟨le_rfl, fun z hz => (not_lt.mp hlt).trans (hmin z hz)⟩⟩

theorem lowest_of_min {l : List (Nat × Byte)} {a : Nat × Byte} (ha : a ∈ l) (hmin : ∀ b ∈ l, b = a ∨ a.1 < b.1) : lowest l = some a := by
  obtain ⟨hnone, hsome⟩ := lowest_mem l
  cases hl : lowest l with
  | none =>
    rw [hnone.mp hl] at ha
    cases ha
  | some x =>
    obtain ⟨hx, hle⟩ := hsome x hl
    rcases hmin x hx with rfl | hlt
    · rfl
    · exact absurd (hle a ha) (by omega)

theorem lowest_tagged {l : List Nat} {a : Nat} (st : Byte) (ha : a ∈ l) (hmin : ∀ b ∈ l, a ≤ b) : lowest (l.map fun k => (k, st)) = some (a, st) := by
  refine lowest_of_min (List.mem_map.mpr ⟨a, ha, rfl⟩) fun b hb => ?_
  obtain ⟨k, hk, rfl⟩ := List.mem_map.mp hb
  rcases (hmin k hk).eq_or_lt with rfl | hlt
  · exact .inl rfl
  · exact .inr hlt

section
variable (x : Quire) (oz storeValid : Bool)

theorem Quire.collationCheck_passes (h1 : ({ x with committed := some x.staging } : Quire).phase1 = []) (h2 : ({ x with committed := some x.staging } : Quire).phase2 oz = [])
    (h3 : ({ x with committed := some x.staging } : Quire).phase3 storeValid = []) : x.collationCheck oz storeValid = none := by
  rw [Quire.collationCheck, h1, h2, h3]
  rfl

theorem Quire.collationCheck_first {a : Nat} (ha : a ∈ ({ x with committed := some x.staging } : Quire).phase1) (hmin : ∀ b ∈ ({ x with committed := some x.staging } : Quire).phase1, a ≤ b) :
    x.collationCheck oz storeValid = some (1, a, stCollation) := by
  rw [Quire.collationCheck]
  dsimp only
  rw [lowest_tagged stCollation ha hmin]

theorem Quire.collationCheck_second {a : Nat} (h1 : ({ x with committed := some x.staging } : Quire).phase1 = []) (ha : a ∈ ({ x with committed := some x.staging } : Quire).phase2 oz)
    (hmin : ∀ b ∈ ({ x with committed := some x.staging } : Quire).phase2 oz, a ≤ b) : x.collationCheck oz storeValid = some (2, a, stCollation) := by
  rw [Quire.collationCheck]
  dsimp only
  rw [h1, List.map_nil, lowest, lowest_tagged stCollation ha hmin]

theorem Quire.collationCheck_third {a : Nat × Byte} (h1 : ({ x with committed := some x.staging } : Quire).phase1 = []) (h2 : ({ x with committed := some x.staging } : Quire).phase2 oz = [])
    (ha : a ∈ ({ x with committed := some x.staging } : Quire).phase3 storeValid) (hmin : ∀ b ∈ ({ x with committed := some x.staging } : Quire).phase3 storeValid, b = a ∨ a.1 < b.1) :
    x.collationCheck oz storeValid = some (3, a.1, a.2) := by
  rw [Quire.collationCheck]
  dsimp only
  rw [h1, h2, List.map_nil, lowest, lowest_of_min ha hmin]
  rfl

end

theorem firstAddr_bytes (q : QId) (key : Nat) : leW (firstAddr q key) = le 4 (if key = 0 then 0 else 2 ^ 28 * (q.val + 1) + key) := by
  rw [firstAddr]
  split
  · rfl
  · exact leW_ofNat _

/-! ### The late phases (R612, R613, R615) -/

/-- Phase 4 lays down what the signatures derive, and nothing else. -/
theorem Quire.phase4_shape (old y : Quire) : ∃ l, old.phase4 y = { y with sigs := l } := by
  unfold Quire.phase4
  exact List.foldlRecOn (motive := fun n : Quire => ∃ l, n = { y with sigs := l }) _ _ ⟨_, rfl⟩ fun n ⟨l, hn⟩ i _ => by
    subst hn
    exact ⟨_, rfl⟩

theorem W.endDerived_derivation (w : W) : w.endDerived.q.derivation = none := by
  unfold W.endDerived
  split
  next hnone => exact hnone
  next d _ =>
    extract_lets v n keep u
    have hu : u.q.derivation = none := rfl
    split
    · exact hu
    · have hcounts := u.bump_counts (rk 0x10 0x108) n
      rw [Quire.Counts] at hcounts
      rw [hcounts]
      exact hu

theorem W.endDerived_logs (x : Quire) : ∀ y ∈ x.w.endDerived.fx, y.logs = true :=
  W.Asks.endDerived (P := fun y => y.logs = true) (fun _ => id) fun _ h => absurd h List.not_mem_nil

/-- What a collation that fails late leaves of its quire. -/
theorem State.collationFails_spec (s : State) (q : QId) {d : ReplyTo} (hd : s.Owes d) (st : Byte) (phase key ns : Nat) :
    s.Replied (s.collationFails q d st phase key ns) d st (BitVec.ofNat 16 (4096 * phase)) (le 4 (if key = 0 then 0 else 2 ^ 28 * (q.val + 1) + key) ++ le 4 ns)
      ∧ ((s.collationFails q d st phase key ns).quire q).occupied = none
      ∧ (((s.collationFails q d st phase key ns).quire q).state = (s.quire q).state ∧ ((s.collationFails q d st phase key ns).quire q).committed = (s.quire q).committed
        ∧ ((s.collationFails q d st phase key ns).quire q).staging = (s.quire q).staging ∧ ((s.collationFails q d st phase key ns).quire q).derivation = none)
      ∧ ∀ r, r ≠ q → (s.collationFails q d st phase key ns).quire r = s.quire r := by
  rw [State.collationFails, phaseDetail, Nat.mul_comm phase, firstAddr_bytes, leW_ofNat]
  obtain ⟨hwithin, -, hquire⟩ := s.onQuire_logs q (fun x => ({ x with occupied := none } : Quire).w.endDerived) (W.endDerived_logs _)
  have hnone := ({ s.quire q with occupied := none } : Quire).w.endDerived_derivation
  obtain ⟨dv, sr, rd, en, dr, l, m, hshape⟩ := ({ s.quire q with occupied := none } : Quire).w.endDerived_shape
  rw [← hquire] at hnone hshape
  refine ⟨hd.within hwithin _ _ _, ?_, ⟨?_, ?_, ?_, ?_⟩, fun r hr => ?_⟩
  · rw [State.reply_quire, hshape]
    rfl
  · rw [State.reply_quire, hshape]
    rfl
  · rw [State.reply_quire, hshape]
    rfl
  · rw [State.reply_quire, hshape]
    rfl
  · rw [State.reply_quire]
    exact hnone
  · rw [State.reply_quire]
    exact hwithin.1 r hr

/-- The floor, the supplies and `EI_EN` follow a commit: what they touch of the chip (R715, R719, R735). -/
theorem State.followsCommit (s : State) (q : QId) : ∃ mv regs log c gov,
    (s.setFloor q).retarget.eiEvaluate = { s.modQuire q (fun x => { x with floorMv := mv }) with regs := regs, log := log, collector := { s.collector with satPages := c }, gov := gov } := by
  have hfloor : ∃ mv regs log c, s.setFloor q = { s.modQuire q (fun x => { x with floorMv := mv }) with regs := regs, log := log, collector := { s.collector with satPages := c } } := by
    unfold State.setFloor
    split
    · extract_lets r t
      split
      · obtain ⟨l, c, h⟩ := t.bump_shape (rk 5 0x314) 1
        exact ⟨r.1, _, l, _, h⟩
      · exact ⟨r.1, _, _, _, rfl⟩
    · exact ⟨0, _, _, _, rfl⟩
  obtain ⟨mv, regs, log, c, hfloor⟩ := hfloor
  have hgov : (s.setFloor q).Governs (s.setFloor q).retarget :=
    State.Governs.each _ _ (fun t i => (t.pmSetpoint_governs i).1) _
  have hei : ∀ t : State, ∃ regs, t.eiEvaluate = { t with regs := regs } := fun t => by
    unfold State.eiEvaluate
    split
    · exact List.foldlRecOn (motive := fun u : State => ∃ regs, u = { t with regs := regs }) _ _ ⟨_, rfl⟩ fun u ⟨regs, hu⟩ k _ => by
        subst hu
        exact ⟨_, rfl⟩
    · exact ⟨_, rfl⟩
  obtain ⟨regs', hei⟩ := hei (s.setFloor q).retarget
  rw [hei, hgov.frame, hfloor]
  exact ⟨mv, _, _, _, _, rfl⟩

/-- A completion that commits leaves the quire as it says but for its floor, and a reply that is owed still owed. -/
theorem State.commits_spec (s : State) (q : QId) (y : Quire) :
    ∃ mv, (((s.setQuire q y).setFloor q).retarget.eiEvaluate.quire q) = { y with floorMv := mv } ∧ (∀ r, r ≠ q → ((s.setQuire q y).setFloor q).retarget.eiEvaluate.quire r = s.quire r)
      ∧ ((s.setQuire q y).setFloor q).retarget.eiEvaluate.sent = s.sent
      ∧ ∀ d st dt res, s.Owes d → s.Replied (((s.setQuire q y).setFloor q).retarget.eiEvaluate.reply d st dt res) d st dt res := by
  obtain ⟨mv, regs, log, c, gov, ht⟩ := (s.setQuire q y).followsCommit q
  rw [ht]
  refine ⟨mv, ?_, fun r hr => ?_, rfl, fun d st dt res hd => by refine hd.replied ?_ ?_ ?_ ?_ st dt res <;> rfl⟩
  · show ((s.setQuire q y).modQuire q fun x => { x with floorMv := mv }).quire q = _
    rw [State.quire_modQuire_same, State.quire_setQuire_same]
  · show ((s.setQuire q y).modQuire q fun x => { x with floorMv := mv }).quire r = _
    rw [State.quire_modQuire_other _ _ _ _ hr, State.quire_setQuire_other _ _ _ _ hr]

/-- VPINq has settled (R315): its ramp has ended, so that its window stands about the set point. -/
theorem Quire.vpinSettled_iff (x : Quire) (ticks mv : Nat) : x.vpinSettled ticks mv = true ↔
    x.vpinSince + 1000 * ((x.vpinSetpoint - x.vpinFrom) + (x.vpinFrom - x.vpinSetpoint)) + 100000 ≤ ticks ∧ x.vpinOk = true ∧ x.vpinGood + 100000 ≤ ticks
      ∧ x.vpinSetpoint ≤ mv + 40 ∧ mv ≤ x.vpinSetpoint + 40 := by
  simp only [Quire.vpinSettled, Quire.vpinInWindow, Bool.and_eq_true, decide_eq_true_eq]
  have hramp : x.vpinSince + 1000 * ((x.vpinSetpoint - x.vpinFrom) + (x.vpinFrom - x.vpinSetpoint)) + 100000 ≤ ticks → x.vpinRamp ticks = x.vpinSetpoint := fun hover => by
    have hdiv : (x.vpinSetpoint - x.vpinFrom) + (x.vpinFrom - x.vpinSetpoint) ≤ (ticks - x.vpinSince) / 1000 := by omega
    unfold Quire.vpinRamp
    dsimp only
    split
    · exact min_eq_left (by omega)
    · exact max_eq_left (by omega)
  rw [Nat.mul_comm _ 1000]
  constructor
  · rintro ⟨⟨⟨hover, hok⟩, hgood⟩, hlow, hhigh⟩
    rw [hramp hover] at hlow hhigh
    exact ⟨hover, hok, hgood, hhigh, hlow⟩
  · rintro ⟨hover, hok, hgood, hhigh, hlow⟩
    rw [hramp hover]
    exact ⟨⟨⟨hover, hok⟩, hgood⟩, hlow, hhigh⟩

end Sys2Proof.Machine

end

section
/-! A command that begins its work and replies later; COLLATE and its completion. -/

namespace Sys2Proof.Machine

section
variable {s : State} {o : OpSpec} {h : Hdr} {p : Params}

theorem State.taken_holds (s : State) (h : Hdr) {op : Byte} (hop : op ≠ 0x01) : (h.tag, op, h.qmask) ∈ ((s.taken h op).session h.link).inProgress := by
  simp [State.taken, State.accept_session _ _ _ hop]

/-- A command that changes something else than the books of packets, and replies later. -/
theorem State.begins_map {i : Instr} (hop : o.opcode ≠ 0x01) (g : State → State) (hexec : exec i s = .next (g (s.taken h o.opcode)))
    (hcomm : ∀ b, g (s.withBooks b) = (g s).withBooks b) (hregs : (g s).regs = s.regs) : s.Begins i h o (g s) := by
  have heq : g (s.taken h o.opcode) = (g s).withBooks (s.taken h o.opcode).books := by rw [← hcomm, ← s.taken_withBooks]
  refine ⟨_, hexec, ?_, (s.taken_booked h o.opcode).map g hcomm hregs, ?_⟩
  · rw [heq]
    show (s.taken h o.opcode).sent = s.sent
    rw [State.taken, State.accept_sent, State.freeBuffer_sent]
  · rw [heq]
    exact s.taken_holds h hop

end

/-- The class 2 items of a collation are due, and its command occupies the quire. -/
def Quire.collating (x : Quire) (d : ReplyTo) : Quire :=
  { x.startDerived true ((({ x with committed := some x.staging } : Quire).validSigs.filter ({ x with committed := some x.staging } : Quire).derives).filter fun g =>
      !x.reuses { x with committed := some x.staging } g && decide (({ x with committed := some x.staging } : Quire).deriveItems g ≠ 0)) with
    occupied := some (.collate d) }

/-- What COLLATE does once it is taken. -/
def State.collate (s : State) (q : QId) (d : ReplyTo) : State :=
  match (s.quire q).collationCheck s.modeOz s.cal.storeValid with
  | some (phase, key, st) => s.takeFree.2.reply d st (phaseDetail phase) (leW (firstAddr q key) ++ leW s.takeFree.1)
  | none => s.modQuire q fun x => x.collating d

section
variable {s : State} {h : Hdr} {p : Params} {q : QId} (ht : s.Takes opCollate h p) (hq : h.qmask = BitVec.ofNat 8 (2 ^ q.val)) (hs : (s.quire q).state = .staged)
include ht hq hs

theorem exec_collate : exec (.collate h p) s = .next ((s.taken h opCollate.opcode).collate q (hdrDest h opCollate.opcode)) := by
  obtain rfl := hdrQuire_one hq
  refine (exec_command (i := .collate h p) (o := opCollate) (row := .collate) (run := doCollate) rfl (doCollate.eq_1 h p s) (by decide) ht ?_).trans (congrArg Host.Outcome.next ?_)
  · rw [inStates, State.freeBuffer_quire, hs]
    rfl
  · rw [State.collate]
    rfl

theorem collate_begins (hc : (s.quire q).collationCheck s.modeOz s.cal.storeValid = none) :
    s.Begins (.collate h p) h opCollate (s.modQuire q fun x => x.collating (hdrDest h opCollate.opcode)) := by
  refine State.begins_map (by decide) (fun u => u.modQuire q fun x => x.collating (hdrDest h opCollate.opcode)) ((exec_collate ht hq hs).trans (congrArg Host.Outcome.next ?_)) (fun _ => rfl) rfl
  rw [s.taken_withBooks, State.collate, show ((s.withBooks (s.taken h opCollate.opcode).books).quire q).collationCheck (s.withBooks (s.taken h opCollate.opcode).books).modeOz
    (s.withBooks (s.taken h opCollate.opcode).books).cal.storeValid = none from hc]

theorem collate_fails {phase key : Nat} {st : Byte} (hc : (s.quire q).collationCheck s.modeOz s.cal.storeValid = some (phase, key, st)) :
    ∃ t time, exec (.collate h p) s = .next t ∧ t.quires = s.quires
      ∧ s.Answers t h opCollate st (BitVec.ofNat 16 (4096 * phase)) (le 4 (if key = 0 then 0 else 2 ^ 28 * (q.val + 1) + key) ++ le 4 time) := by
  have hcheck : ((s.taken h opCollate.opcode).quire q).collationCheck (s.taken h opCollate.opcode).modeOz (s.taken h opCollate.opcode).cal.storeValid = some (phase, key, st) := by
    rw [s.taken_withBooks]
    exact hc
  have hexec := exec_collate ht hq hs
  rw [State.collate, hcheck] at hexec
  refine ⟨_, (s.taken h opCollate.opcode).takeFree.1.toNat, hexec, ?_, ?_⟩
  · rw [State.reply_quires, State.takeFree_quires, (s.taken_booked h opCollate.opcode).quires]
  · rw [← firstAddr_bytes, Nat.mul_comm]
    exact (ht.due.of (u := (s.taken h opCollate.opcode).takeFree.2) rfl rfl rfl (fun _ => rfl) rfl).answers st _ _

end

section
variable {s : State} {q : QId} {d : ReplyTo} {mv ns : Nat}

theorem collationComplete_waits (hocc : (s.quire q).occupied = some (.collate d)) (hok : ∀ v, (s.quire q).derivation = some v → v.failed = none) (hdone : (s.quire q).derivedDone = false) :
    collationComplete q mv ns s = s := by
  have hbind : (s.quire q).derivation.bind (·.failed) = none := by
    cases hv : (s.quire q).derivation with
    | none => rfl
    | some v => exact hok v hv
  rw [collationComplete]
  dsimp only
  rw [hocc]
  dsimp only
  rw [hbind]
  dsimp only
  rw [hdone]
  rfl

theorem collationComplete_itemFailed (hocc : (s.quire q).occupied = some (.collate d)) {v : Derivation} {g : Nat} (hv : (s.quire q).derivation = some v) (hg : v.failed = some g) :
    collationComplete q mv ns s = s.collationFails q d stCollation 4 (rk 0x03 (16 * g)) ns := by
  rw [collationComplete]
  dsimp only
  rw [hocc]
  dsimp only
  rw [show (s.quire q).derivation.bind (·.failed) = some g by rw [hv]; exact hg]

/-- The ramp of VPINq depends on its set point, where it began and when (R315). -/
theorem Quire.vpinRamp_congr {x y : Quire} (hset : y.vpinSetpoint = x.vpinSetpoint) (hfrom : y.vpinFrom = x.vpinFrom) (hsince : y.vpinSince = x.vpinSince) (ticks : Nat) :
    y.vpinRamp ticks = x.vpinRamp ticks := by
  rw [Quire.vpinRamp, Quire.vpinRamp, hset, hfrom, hsince]

/-- What the owner's session may reserve (R614). -/
def State.reservable (s : State) (x : Quire) : Nat := match x.owner with | some k => s.allocation k | none => 0

theorem State.reservable_owned (s : State) {x : Quire} {k : LinkId} (hk : x.owner = some k) : s.reservable x = s.allocation k := by
  rw [State.reservable, hk]

/-- The quire once its collation commits (R613). -/
def Quire.collated (x : Quire) (ticks : Nat) : Quire :=
  (x.commit (x.phase4 { x with committed := some x.staging }) (x.phase4 { x with committed := some x.staging }).runReserve).markersTurn x ticks

theorem collationComplete_done (hocc : (s.quire q).occupied = some (.collate d)) (hok : ∀ v, (s.quire q).derivation = some v → v.failed = none)
    (hdone : (s.quire q).derivedDone = true) :
    collationComplete q mv ns s =
      if s.reservable (s.quire q) < ((s.quire q).phase4 { s.quire q with committed := some (s.quire q).staging }).runReserve then s.collationFails q d stBudget 5 0 ns
      else if ({ s.quire q with committed := some (s.quire q).staging } : Quire).vpinSet = (s.quire q).vpinSetpoint then
        (((s.setQuire q ((s.quire q).collated s.time.ticks)).setFloor q).retarget.eiEvaluate).reply d stOk 0 (leW 0 ++ leW (BitVec.ofNat 32 ns))
      else ((s.setQuire q { ((s.quire q).collated s.time.ticks).moveVpin s.time.ticks ({ s.quire q with committed := some (s.quire q).staging } : Quire).vpinSet with
        occupied := some (.settle d ns s.time.ticks) }).setFloor q).retarget.eiEvaluate := by
  have hbind : (s.quire q).derivation.bind (·.failed) = none := by
    cases hv : (s.quire q).derivation with
    | none => rfl
    | some v => exact hok v hv
  have hset : ((s.quire q).phase4 { s.quire q with committed := some (s.quire q).staging }).vpinSet = ({ s.quire q with committed := some (s.quire q).staging } : Quire).vpinSet := by
    obtain ⟨l, hl⟩ := (s.quire q).phase4_shape { s.quire q with committed := some (s.quire q).staging }
    rw [hl]
    rfl
  rw [← hset]
  unfold collationComplete
  extract_lets x
  split
  next d' hd' =>
    obtain rfl := Occupier.collate.inj (Option.some.inj (hd'.symm.trans hocc))
    rw [hbind, hdone]
    rfl
  next hd' => cases hd'.symm.trans hocc
  next hno _ => exact absurd hocc (hno d)

/-- `z` is the quire with its staging copy committed (R613). -/
def Quire.Commits (x z : Quire) : Prop :=
  z.state = .collated ∧ z.committed = some x.staging ∧ z.staging = x.staging ∧ z.dirty = 0 ∧ z.sealedPages = 0 ∧ z.everCommitted = true
    ∧ z.reserveMw = (x.phase4 { x with committed := some x.staging }).runReserve ∧ z.derivation = none
    ∧ z.vpinSetpoint = ({ x with committed := some x.staging } : Quire).vpinSet

theorem Quire.collated_commits (x : Quire) (ticks : Nat) (hset : ({ x with committed := some x.staging } : Quire).vpinSet = x.vpinSetpoint) :
    x.Commits (x.collated ticks) := ⟨rfl, rfl, rfl, rfl, rfl, rfl, rfl, rfl, hset.symm⟩

theorem Quire.Commits.floored {x z : Quire} (h : x.Commits z) (fl : Nat) : x.Commits { z with floorMv := fl } := h

theorem Quire.collated_vpinRamp (x : Quire) (ticks t : Nat) : (x.collated ticks).vpinRamp t = x.vpinRamp t := by
  have hset : (x.collated ticks).vpinSetpoint = x.vpinSetpoint := rfl
  have hfrom : (x.collated ticks).vpinFrom = x.vpinFrom := rfl
  have hsince : (x.collated ticks).vpinSince = x.vpinSince := rfl
  generalize x.collated ticks = y at *
  exact Quire.vpinRamp_congr hset hfrom hsince t

theorem collationComplete_settle {began since : Nat} (hocc : (s.quire q).occupied = some (.settle d began since)) :
    collationComplete q mv ns s = if (s.quire q).vpinSettled s.time.ticks mv = true then
      (s.modQuire q fun x => { x with occupied := none, vpinMv := mv % 65536 }).reply d stOk 0 (leW 0 ++ leW (BitVec.ofNat 32 ns)) else s := by
  rw [collationComplete]
  dsimp only
  rw [hocc]

/-- With VPIN_SET as it was, the commit replies at once (R613). -/
theorem collationComplete_commits {k : LinkId} (hocc : (s.quire q).occupied = some (.collate d)) (hd : s.Owes d) (hk : (s.quire q).owner = some k)
    (hok : ∀ v, (s.quire q).derivation = some v → v.failed = none) (hdone : (s.quire q).derivedDone = true)
    (hfits : ((s.quire q).phase4 { s.quire q with committed := some (s.quire q).staging }).runReserve ≤ s.allocation k)
    (hset : ({ s.quire q with committed := some (s.quire q).staging } : Quire).vpinSet = (s.quire q).vpinSetpoint) :
    ∃ t, exec (.collationComplete q mv ns) s = .next t ∧ s.Replied t d stOk 0 (leW 0 ++ le 4 ns) ∧ (t.quire q).occupied = none
      ∧ (s.quire q).Commits (t.quire q) ∧ ∀ r, r ≠ q → t.quire r = s.quire r := by
  have hstep := collationComplete_done (mv := mv) (ns := ns) hocc hok hdone
  rw [s.reservable_owned hk, if_neg (not_lt.mpr hfits), if_pos hset, leW_ofNat] at hstep
  obtain ⟨fl, hquire, hother, -, hreply⟩ := s.commits_spec q ((s.quire q).collated s.time.ticks)
  refine ⟨_, congrArg Host.Outcome.next hstep, hreply d stOk 0 _ hd, ?_, ?_, fun r hr => ?_⟩
  · rw [State.reply_quire, hquire]
    rfl
  · rw [State.reply_quire, hquire]
    exact ((s.quire q).collated_commits s.time.ticks hset).floored fl
  · rw [State.reply_quire]
    exact hother r hr

/-- With a new VPIN_SET, the quire commits and the reply waits until VPINq has settled (R312, R613). -/
theorem collationComplete_settles {k : LinkId} (hocc : (s.quire q).occupied = some (.collate d)) (hk : (s.quire q).owner = some k)
    (hok : ∀ v, (s.quire q).derivation = some v → v.failed = none) (hdone : (s.quire q).derivedDone = true)
    (hfits : ((s.quire q).phase4 { s.quire q with committed := some (s.quire q).staging }).runReserve ≤ s.allocation k)
    (hset : ({ s.quire q with committed := some (s.quire q).staging } : Quire).vpinSet ≠ (s.quire q).vpinSetpoint) :
    ∃ t, exec (.collationComplete q mv ns) s = .next t ∧ t.sent = s.sent ∧ (s.quire q).Commits (t.quire q)
      ∧ (t.quire q).occupied = some (.settle d ns s.time.ticks) ∧ (t.quire q).vpinFrom = (s.quire q).vpinRamp s.time.ticks ∧ (t.quire q).vpinSince = s.time.ticks
      ∧ ∀ r, r ≠ q → t.quire r = s.quire r := by
  have hstep := collationComplete_done (mv := mv) (ns := ns) hocc hok hdone
  rw [s.reservable_owned hk, if_neg (not_lt.mpr hfits), if_neg hset] at hstep
  obtain ⟨fl, hquire, hother, hsent, -⟩ := s.commits_spec q
    { ((s.quire q).collated s.time.ticks).moveVpin s.time.ticks ({ s.quire q with committed := some (s.quire q).staging } : Quire).vpinSet with
      occupied := some (.settle d ns s.time.ticks) }
  refine ⟨_, congrArg Host.Outcome.next hstep, hsent, ?_, ?_, ?_, ?_, hother⟩
  · rw [hquire]
    exact ⟨rfl, rfl, rfl, rfl, rfl, rfl, rfl, rfl, rfl⟩
  · rw [hquire]
  · rw [hquire]
    exact (s.quire q).collated_vpinRamp _ _
  · rw [hquire]
    rfl

end

end Sys2Proof.Machine

namespace Sys2Proof.Proofs
open Sys2Proof.Machine

/-- Settles O32: the checks name the least key of the first phase that fails, and the completion goes through the two outcomes of the late phases. -/
theorem collation : Obligations.Collation := by
  unfold Obligations.Collation
  intro s h p q d k mv ns x y address fails work n complete ends kept commits rampUs settled
  refine ⟨fun ht hq hs => ⟨fun h1 h2 h3 => ?_, fun a ha hmin => ?_, fun h1 a ha hmin => ?_, fun h1 h2 a ha hmin => ?_⟩, fun hocc hd hk => ⟨fun v g hv hg => ?_, fun hok => ⟨fun hdone => ?_, fun hdone hfits => ⟨fun hset => ?_, fun hset => ?_⟩, fun hdone hover => ?_⟩⟩,
    fun began since hocc hd => ⟨fun hsettled => ?_, fun hnot => ?_⟩⟩
  · exact collate_begins ht hq hs (x.collationCheck_passes _ _ h1 h2 h3)
  · exact collate_fails ht hq hs (x.collationCheck_first _ _ ha hmin)
  · exact collate_fails ht hq hs (x.collationCheck_second _ _ h1 ha hmin)
  · exact collate_fails ht hq hs (x.collationCheck_third _ _ h1 h2 ha hmin)
  · exact ⟨_, congrArg Host.Outcome.next (collationComplete_itemFailed hocc hv hg), s.collationFails_spec q hd stCollation 4 _ ns⟩
  · exact congrArg Host.Outcome.next (collationComplete_waits hocc hok hdone)
  · exact collationComplete_commits hocc hd hk hok hdone hfits hset
  · exact collationComplete_settles hocc hk hok hdone hfits hset
  · have hstep := collationComplete_done (mv := mv) (ns := ns) hocc hok hdone
    rw [s.reservable_owned hk, if_pos hover] at hstep
    exact ⟨_, congrArg Host.Outcome.next hstep, s.collationFails_spec q hd stBudget 5 0 ns⟩
  · have hstep := collationComplete_settle (mv := mv) (ns := ns) hocc
    rw [if_pos ((x.vpinSettled_iff _ _).mpr hsettled), leW_ofNat] at hstep
    refine ⟨_, congrArg Host.Outcome.next hstep, hd.within ⟨fun r hr => State.quire_modQuire_other _ _ _ _ hr, rfl⟩ stOk 0 _, ?_, ?_, fun r hr => ?_⟩
    · rw [State.reply_quire, State.quire_modQuire_same]
    · rw [State.reply_quire, State.quire_modQuire_same]
    · rw [State.reply_quire, State.quire_modQuire_other _ _ _ _ hr]
  · have hstep := collationComplete_settle (mv := mv) (ns := ns) hocc
    rw [if_neg fun hs => hnot ((x.vpinSettled_iff _ _).mp hs)] at hstep
    exact congrArg Host.Outcome.next hstep

end Sys2Proof.Proofs

end

section

/-! # A Spine restart with a packet of no listed opcode in a link buffer

A packet that came while the interpreter did not run is still in its link buffer when the Spine has restarted. One whose opcode R620 does not list is
answered MALFORMED then (R581), so that the restart sends a reply that no command of its own asked for. -/

namespace Sys2Proof.Machine

/-- A packet with opcode 0x70 and no parameters, as it stands in a link buffer. -/
def unlistedBytes : List Byte :=
  let header : List Byte := [0x01, 0x70] ++ List.replicate 14 0
  header ++ leW (crc32c header)

/-- A chip that has booted, whose Spine restarts after a machine check, with the packet in the CTRL buffer of link 0. -/
def restartingChip : State :=
  { State.reset with
    boot := { State.reset.boot with step := 7 }
    spine := { State.reset.spine with restarting := true }
    links := State.reset.links.set 0 { State.reset.link 0 with phase := .up, classes := (State.reset.link 0).classes.set 0 { ClassState.reset with packets := [(unlistedBytes, 1)] } } }

/-- The restart answers the packet. -/
theorem restartingChip_answers : (spineRestartDone restartingChip).sent.length = 1 := by decide +kernel

end Sys2Proof.Machine

namespace Sys2Proof.Proofs
open Sys2Proof.Machine

/-- Refutes O41: with nothing of the interpreter's waiting, the end of a restart still answers the packet of no listed opcode in the link buffer, so that `sent` grows. -/
theorem not_flashAndSpine : ¬ Obligations.FlashAndSpine := by
  unfold Obligations.FlashAndSpine
  intro h
  obtain ⟨-, -, -, -, -, -, hrestart⟩ := h restartingChip { link := 0, cls := .ctrl, crc := 0, reads := { word := 0, outcome := .good, corrupt := [] }, version := 1, session := 0, tag := 0, qmask := 0, flags := 0, length := 0, detail := 0, rsv := 0 } []
    { link := 0, session := 0, tag := 0, qmask := 0, opcode := 0 }
  obtain ⟨-, hcheck, -⟩ := hrestart rfl rfl rfl
  obtain ⟨t, hexec, hsent, -⟩ := hcheck rfl rfl
  obtain rfl : spineRestartDone restartingChip = t := Host.Outcome.next.inj hexec
  have hlen := restartingChip_answers
  rw [hsent] at hlen
  cases hlen

end Sys2Proof.Proofs

end

section
/-! Calibration and self-test: the steps of a re-trim (R796 to R803), the selections that follow the readings (R793 to R795), and the answers of CAL_QUERY (R806, R815). -/

namespace Sys2Proof.Machine

section
variable {s : State} {o : OpSpec} {h : Hdr} {p : Params}

/-- A command that changes something else than the books of packets, and answers with a status that is no refusal. -/
theorem State.answers_map {i : Instr} {st : Byte} {res : List Byte} (ht : s.Takes o h p) (hst : st.toNat < 0x10) (g : State → State)
    (hexec : exec i s = .next ((g (s.taken h o.opcode)).reply (hdrDest h o.opcode) st 0 res))
    (hcomm : ∀ b, g (s.withBooks b) = (g s).withBooks b) (hregs : (g s).regs = s.regs) (hspine : (g s).spine = s.spine) (hocc : ∀ q, ((g s).quire q).occupied = (s.quire q).occupied) :
    ∃ t, exec i s = .next t ∧ s.Answers t h o st 0 res ∧ (g s).Booked t := by
  have heq : g (s.taken h o.opcode) = (g s).withBooks (s.taken h o.opcode).books := by rw [← hcomm, ← s.taken_withBooks]
  have hdue : s.Due (g (s.taken h o.opcode)) o h := ht.due.of (by rw [heq]; rfl) (by rw [heq]; rfl) (by rw [heq, (s.taken_booked h o.opcode).spine]; exact hspine)
    (fun q => by
      have hq : (s.taken h o.opcode).quire q = s.quire q := State.quire_congr _ _ _ (s.taken_booked h o.opcode).quires
      rw [heq, hq]
      exact hocc q) (by rw [heq]; rfl)
  obtain ⟨hanswers, hbooked⟩ := hdue.reply (hdrDest h o.opcode) st 0 res rfl rfl rfl
  exact ⟨_, hexec, hanswers, ((s.taken_booked h o.opcode).map g hcomm hregs).reply (hbooked hst) (by simp)⟩

/-- A command that changes one quire, whose occupation it leaves, and answers. -/
theorem State.answers_modQuire {i : Instr} {st : Byte} (ht : s.Takes o h p) (hst : st.toNat < 0x10) (q : QId) (f : Quire → Quire)
    (hexec : exec i s = .next (((s.taken h o.opcode).modQuire q f).reply (hdrDest h o.opcode) st)) (hocc : (f (s.quire q)).occupied = (s.quire q).occupied) :
    ∃ t, exec i s = .next t ∧ s.Answers t h o st 0 [] ∧ (s.setQuire q (f (s.quire q))).Booked t :=
  State.answers_map ht hst (fun u => u.modQuire q f) hexec (fun _ => rfl) rfl rfl fun r => by
    rcases eq_or_ne r q with rfl | hr
    · rw [State.quire_modQuire_same, hocc]
    · rw [State.quire_modQuire_other _ _ _ _ hr]

end

/-! ### CAL_RETRIM (R796, R801, R802) -/

section
variable {s : State} {h : Hdr} {p : Params} {q : QId}

theorem exec_calRetrim (ht : s.Takes opCalRetrim h p) (hq : h.qmask = BitVec.ofNat 8 (2 ^ q.val)) (hc : retrimCheck h p s = none) :
    exec (.calRetrim h p) s = .next (((s.taken h opCalRetrim.opcode).modQuire q fun x => x.beginRetrim (par p 0 1) (par p 1 1 = 1)).reply (hdrDest h opCalRetrim.opcode) stDeferred) := by
  obtain rfl := hdrQuire_one hq
  refine exec_command (i := .calRetrim h p) (o := opCalRetrim) (row := .calRetrim) (run := doCalRetrim) rfl (doCalRetrim.eq_1 h p s) (by decide) ht ?_
  rw [retrimCheck, State.freeBuffer_quire]
  exact hc

/-- A re-trim of a pin or of the endpaper is not refused where the endpaper can serve it (R796, R800, R802). -/
theorem retrimCheck_none (hq : h.qmask = BitVec.ofNat 8 (2 ^ q.val)) (hpin : par p 0 1 < 33 ∨ par p 0 1 = 0xFF) (hforced : par p 1 1 < 2) (hoff : (s.quire q).state ≠ .off)
    (hfaulted : (s.quire q).state ≠ .faulted) (hdacs : par p 0 1 = 32 → (s.quire q).state.dacsFree = true) (hnone : (s.quire q).retrim = none)
    (hfree : (s.quire q).endpaper.phase = .idle ∨ ((s.quire q).endpaper.phase = .serving ∧ (s.quire q).endpaper.pin = par p 0 1)) : retrimCheck h p s = none := by
  rw [retrimCheck, hdrQuire_one hq, hnone, if_neg (by omega), if_neg (by omega), if_neg, if_neg (by simp), if_pos hfree]
  rintro (hst | hst | ⟨hpin, hst⟩)
  · exact hoff hst
  · exact hfaulted hst
  · rw [hdacs hpin] at hst
    cases hst

end

/-- A new re-trim, before its first pin is taken over. -/
def Retrim.begun (pin : Nat) (all forced : Bool) (step : RetrimStep) : Retrim := { pin := pin, all := all, forced := forced, step := step, skipped := false, measuredAt := 0, found := ⟨[], []⟩ }

section
variable (x : Quire) (pin : Nat) (forced : Bool)

/-- Where the endpaper serves the pin already, or is itself the element, the measurement is next (R801, R802). -/
theorem Quire.beginRetrim_measures (hpin : pin ≠ 0xFF) (hserves : pin = 32 ∨ x.endpaper.phase = .serving) : x.beginRetrim pin forced = { x with retrim := some (.begun pin false forced .measure) } := by
  rw [Quire.beginRetrim]
  dsimp only
  rw [if_pos hserves, if_neg (by simp [hpin]), decide_eq_false hpin]
  rfl

/-- Otherwise the endpaper first takes the first pin over (R796). -/
theorem Quire.beginRetrim_joins (hpin : pin ≠ 32) (hidle : x.endpaper.phase ≠ .serving) :
    x.beginRetrim pin forced = { x.epJoin (if pin = 0xFF then 0 else pin) forced with retrim := some (.begun (if pin = 0xFF then 0 else pin) (decide (pin = 0xFF)) forced .takeover) } := by
  rw [Quire.beginRetrim]
  dsimp only
  rw [if_neg (by rintro (h | h); exacts [hpin h, hidle h])]
  simp only [decide_eq_true_eq]
  rfl

end

/-! ### The measurements of a re-trim (R797, R799) -/

/-- The element `e` of the quire has taken the end of its measurements of the DACs: whether they were part of it. -/
def Quire.dacsNoted (x : Quire) (e : Nat) (dac : Bool) : Quire := { x with cal := lmod x.cal e fun c => { c with lastDac := dac } }

/-- The pin goes back to its own circuits (R297). -/
def Quire.handingBack (x : Quire) (r : Retrim) : Quire := { x with endpaper := { x.endpaper with phase := .handingBack, comparing := false }, retrim := some { r with step := .handBack } }

theorem W.retrimHandBack_pin (w : W) (c : Ctx) {r : Retrim} (hpin : r.pin ≠ 32) : w.retrimHandBack c r = w.upd fun q => q.handingBack r := if_neg hpin

/-- The endpaper itself is not handed back: its re-trim is complete. -/
theorem W.retrimHandBack_endpaper (w : W) (c : Ctx) {r : Retrim} (hpin : r.pin = 32) :
    w.retrimHandBack c r = (w.retrimStored r (if r.skipped then r.measuredAt else c.ns)).upd fun q => { q with retrim := none } := by
  rw [W.retrimHandBack, if_pos hpin, W.retrimPinDone_eq, if_neg (by simp [hpin])]

theorem getD_lmod_same {α : Type} {l : List α} {i : Nat} (hi : i < l.length) (f : α → α) (d : α) : (lmod l i f).getD i d = f (l.getD i d) := by
  unfold lmod
  rw [List.getElem?_eq_getElem hi, List.getD, List.getD, List.getElem?_eq_getElem hi, List.getElem?_set_self hi]
  rfl

theorem getD_lmod_other {α : Type} {l : List α} {i j : Nat} (hij : i ≠ j) (f : α → α) (d : α) : (lmod l i f).getD j d = l.getD j d := by
  unfold lmod
  split
  · simp [List.getD, hij]
  · rfl

/-- What the end of the endpaper's own re-trim leaves. -/
theorem State.endpaperRetrimmed (s : State) (i : Instr) (q : QId) (f : Quire → W) (r : Retrim) (dac : Bool) (hexec : exec i s = .next (s.onQuire q f)) (hpin : r.pin = 32) (hlen : (s.quire q).cal.length = 33)
    (hf : f (s.quire q) = ((s.quire q).w.upd fun x => x.dacsNoted 32 dac).retrimHandBack s.ctx r) :
    ∃ t y, exec i s = .next t ∧ s.Within t q ∧ t.quire q = y ∧ y.retrim = none ∧ s.CountsOne q (rk 0x18 4) t
      ∧ (∀ i < 32, y.cal.getD i .reset = (s.quire q).cal.getD i .reset) ∧ let c := (s.quire q).cal.getD 32 .reset
        y.cal.getD 32 .reset = { lastDac := dac, count := if c.count = 0xFFFF then c.count else c.count + 1, timeNs := if r.skipped then r.measuredAt else s.time.ns, trimFail := false, mended := false,
                                 trim := { taps := r.found.taps, dacs := if r.found.dacs = [] then c.trim.dacs else r.found.dacs } } := by
  rw [W.retrimHandBack_endpaper _ _ hpin] at hf
  obtain ⟨hcounts, hquiet, hcounted⟩ := W.retrimStored_counts ((s.quire q).w.upd fun x => x.dacsNoted 32 dac) r (if r.skipped then r.measuredAt else s.ctx.ns)
  generalize W.retrimStored ((s.quire q).w.upd fun x => x.dacsNoted 32 dac) r (if r.skipped then r.measuredAt else s.ctx.ns) = v at hf hcounts hquiet hcounted
  obtain ⟨hwithin, hquire⟩ := s.onQuire_within q f (by rw [hf]; exact (hquiet (Quire.w_quiet _)).upd _)
  rw [hf, W.upd_q] at hquire
  have hcal : v.q.cal = (((s.quire q).dacsNoted 32 dac).retrimmed r (if r.skipped then r.measuredAt else s.time.ns)).cal := by
    rw [Quire.Counts] at hcounts
    rw [hcounts]
    rfl
  refine ⟨_, _, hexec, hwithin, hquire, rfl, ?_, fun i hi => ?_, ?_⟩
  · rw [State.CountsOne, hquire]
    exact hcounted
  · show v.q.cal.getD i .reset = _
    rw [hcal, Quire.retrimmed, hpin]
    dsimp only
    rw [getD_lmod_other (by omega), Quire.dacsNoted, getD_lmod_other (by omega)]
  · show v.q.cal.getD 32 .reset = _
    have hlmod : (lmod (s.quire q).cal 32 fun c => { c with lastDac := dac }).length = 33 := by
      rw [← hlen]
      unfold lmod
      split
      · exact List.length_set
      · rfl
    rw [hcal, Quire.retrimmed, hpin]
    dsimp only
    rw [getD_lmod_same (by rw [Quire.dacsNoted, hlmod]; decide), Quire.dacsNoted, getD_lmod_same (by omega)]
    rfl

/-! ### The selections (R793 to R795) -/

/-- The element chosen is one of the redundant ones, and none of them is nearer. -/
theorem nearest_spec (target : ℚ) (l : List Int) (hl : l ≠ []) : nearest target l ∈ l ∧ ∀ u ∈ l, |(nearest target l : ℚ) - target| ≤ |(u : ℚ) - target| := by
  induction l with
  | nil => exact absurd rfl hl
  | cons a l ih =>
    cases l with
    | nil => exact ⟨List.mem_singleton.mpr rfl, fun u hu => by rw [List.mem_singleton.mp hu]; rfl⟩
    | cons b t =>
      obtain ⟨hmem, hmin⟩ := ih (List.cons_ne_nil b t)
      have hstep : nearest target (a :: b :: t) = if |(nearest target (b :: t) : ℚ) - target| < |(a : ℚ) - target| then nearest target (b :: t) else a := rfl
      rw [hstep]
      generalize nearest target (b :: t) = c at *
      by_cases hlt : |(c : ℚ) - target| < |(a : ℚ) - target|
      · rw [if_pos hlt]
        exact ⟨.tail _ hmem, List.forall_mem_cons.mpr ⟨hlt.le, hmin⟩⟩
      · rw [if_neg hlt]
        exact ⟨.head _, List.forall_mem_cons.mpr ⟨le_rfl, fun u hu => (not_lt.mp hlt).trans (hmin u hu)⟩⟩

theorem bracketOf_within {t : Int} {i : Nat} (hi : i < 4) (hlow : calTemps.getD i 0 < t) (hhigh : t ≤ calTemps.getD (i + 1) 0) :
    bracketOf calTemps t = (i, ((t - calTemps.getD i 0 : Int) : ℚ) / ((calTemps.getD (i + 1) 0 - calTemps.getD i 0 : Int) : ℚ)) := by
  have hlen : (calTemps.tail.takeWhile fun a => decide (a < t)).length = i := by
    interval_cases i <;> simp [calTemps, List.takeWhile] at hlow hhigh ⊢ <;> grind
  have hfrac : (0 : ℚ) ≤ ((t - calTemps.getD i 0 : Int) : ℚ) / ((calTemps.getD (i + 1) 0 - calTemps.getD i 0 : Int) : ℚ) :=
    div_nonneg (by exact_mod_cast (sub_pos.mpr hlow).le) (by exact_mod_cast (sub_pos.mpr (hlow.trans_le hhigh)).le)
  have hget : ∀ j < 5, calTemps[j]? = some (calTemps.getD j 0) := by decide
  rw [bracketOf, hlen, hget i (by omega), hget (i + 1) (by omega)]
  exact congrArg (Prod.mk i) (max_eq_right hfrac)

/-- Between two neighbouring calibration temperatures a value is interpolated linearly (R794). -/
theorem interpolate_between (v : Nat → ℚ) {t : Int} {i : Nat} (hi : i < 4) (hlow : calTemps.getD i 0 ≤ t) (hhigh : t ≤ calTemps.getD (i + 1) 0) :
    interpolate calTemps v t = v i + (v (i + 1) - v i) * (((t - calTemps.getD i 0 : Int) : ℚ) / ((calTemps.getD (i + 1) 0 - calTemps.getD i 0 : Int) : ℚ)) := by
  rcases hlow.lt_or_eq with hlt | rfl
  · rw [interpolate, bracketOf_within hi hlt hhigh]
  · rw [sub_self, Int.cast_zero, zero_div, mul_zero, add_zero]
    cases i with
    | zero =>
      have hb : bracketOf calTemps (-640) = (0, 0) := by
        simp [bracketOf, calTemps]
      show interpolate calTemps v (-640) = _
      rw [interpolate, hb]
      ring
    | succ j =>
      have hstep : calTemps.getD j 0 < calTemps.getD (j + 1) 0 := by
        have hj : j < 3 := by omega
        interval_cases j <;> decide
      have hne : ((calTemps.getD (j + 1) 0 - calTemps.getD j 0 : Int) : ℚ) ≠ 0 := by exact_mod_cast (sub_pos.mpr hstep).ne'
      rw [interpolate, bracketOf_within (by omega) hstep le_rfl]
      dsimp only
      rw [div_self hne]
      ring

theorem interpolate_below (v : Nat → ℚ) {t : Int} (h : t < -640) : interpolate calTemps v t = v 0 := by
  have hlen : (calTemps.tail.takeWhile fun a => decide (a < t)).length = 0 := by
    have hno : decide ((0 : Int) < t) = false := decide_eq_false (by omega)
    rw [calTemps, List.tail_cons, List.takeWhile_cons, hno]
    rfl
  have hfrac : ((t - -640 : Int) : ℚ) / ((0 - -640 : Int) : ℚ) ≤ 0 := div_nonpos_of_nonpos_of_nonneg (by exact_mod_cast (by omega : t - -640 ≤ 0)) (by norm_num)
  have hb : bracketOf calTemps t = (0, 0) := by
    rw [bracketOf, hlen]
    exact congrArg (Prod.mk 0) (max_eq_left hfrac)
  rw [interpolate, hb]
  ring

theorem interpolate_above (v : Nat → ℚ) {t : Int} (h : 2400 < t) : interpolate calTemps v t = v 4 := by
  have hlen : (calTemps.tail.takeWhile fun a => decide (a < t)).length = 4 := by
    have hall : ∀ a ∈ calTemps.tail, decide (a < t) = true := by simp [calTemps]; omega
    rw [List.takeWhile_eq_self_iff.mpr hall]
    rfl
  have hb : bracketOf calTemps t = (4, 0) := by
    rw [bracketOf, hlen]
    rfl
  rw [interpolate, hb]
  ring

/-- What an element's place is chosen to be once a selection that waits has taken its place: the one that the readings ask for. -/
theorem State.chosen_tracked (s : State) (q : QId) {elem : Nat} (he : elem < 50) :
    (match (((List.finRange 8).flatMap fun q : QId => ((List.range calElements).filter fun e => decide (s.tracked q e ≠ s.selection q e)).map fun e => ({ quire := q.val, element := e, trim := s.tracked q e } : Reselect)).find?
      fun w => w.quire = q.val && w.element = elem) with
    | some w => w.trim
    | none => s.selection q elem) = s.tracked q elem := by
  generalize hl : ((List.finRange 8).flatMap fun q : QId => ((List.range calElements).filter fun e => decide (s.tracked q e ≠ s.selection q e)).map fun e => ({ quire := q.val, element := e, trim := s.tracked q e } : Reselect)) = l
  have hmem : ∀ w, w ∈ l ↔ ∃ r : QId, ∃ e < 50, s.tracked r e ≠ s.selection r e ∧ w = { quire := r.val, element := e, trim := s.tracked r e } := fun w => by
    rw [← hl]
    simp only [List.mem_flatMap, List.mem_finRange, true_and, List.mem_map, List.mem_filter, List.mem_range, decide_eq_true_eq, and_assoc]
    exact ⟨fun ⟨r, e, he, hne, hw⟩ => ⟨r, e, he, hne, hw.symm⟩, fun ⟨r, e, he, hne, hw⟩ => ⟨r, e, he, hne, hw.symm⟩⟩
  cases hfind : l.find? (fun w => w.quire = q.val && w.element = elem) with
  | some w =>
    obtain ⟨r, e, -, -, rfl⟩ := (hmem w).mp (List.mem_of_find?_eq_some hfind)
    obtain ⟨hr, rfl⟩ : r.val = q.val ∧ e = elem := by simpa using List.find?_some hfind
    rw [Fin.ext hr]
  | none =>
    by_contra hne
    exact List.find?_eq_none.mp hfind _ ((hmem _).mpr ⟨q, elem, he, fun h => hne h.symm, rfl⟩) (by simp)

end Sys2Proof.Machine
end

section
/-! What CAL_QUERY and SELFTEST answer, and the obligation. -/

namespace Sys2Proof.Machine

/-- The sets that bracket a reading (R794). -/
theorem bracket_spec (t : Int) : (bracket t).1 < 5 ∧ (bracket t).2 < 5
    ∧ (-640 ≤ t → t ≤ 2400 → (bracket t).2 = (bracket t).1 + 1 ∧ ([-40, 0, 50, 100, 150] : List Int).getD (bracket t).1 0 * 16 ≤ t ∧ t ≤ ([-40, 0, 50, 100, 150] : List Int).getD (bracket t).2 0 * 16)
    ∧ (t < -640 → (bracket t).1 = 0 ∧ (bracket t).2 = 0) ∧ (2400 < t → (bracket t).1 = 4 ∧ (bracket t).2 = 4) := by
  unfold bracket
  split_ifs <;> simp <;> omega

theorem calTemps_eq (i : Nat) : calTemps.getD i 0 = ([-40, 0, 50, 100, 150] : List Int).getD i 0 * 16 := by
  rcases lt_or_ge i 5 with hi | hi
  · interval_cases i <;> rfl
  · rw [List.getD_eq_default _ _ (by simpa [calTemps] using hi), List.getD_eq_default _ _ (by simpa using hi)]
    rfl

/-- The target of a place, from the sets about a reading. -/
theorem calTarget_eq (cells : Trim → List Int) (sets : List Trim) {t : Int} (correction : Trim) (k i : Nat) {target : ℚ}
    (h : (i < 4 ∧ calTemps.getD i 0 ≤ t ∧ t ≤ calTemps.getD (i + 1) 0
        ∧ target = (((cells (sets.getD i ⟨[], []⟩)).getD k 0 : Int) : ℚ) + ((((cells (sets.getD (i + 1) ⟨[], []⟩)).getD k 0 : Int) : ℚ) - (((cells (sets.getD i ⟨[], []⟩)).getD k 0 : Int) : ℚ))
            * (((t - calTemps.getD i 0 : Int) : ℚ) / ((calTemps.getD (i + 1) 0 - calTemps.getD i 0 : Int) : ℚ)))
      ∨ (target = (((cells (sets.getD i ⟨[], []⟩)).getD k 0 : Int) : ℚ) ∧ ((i = 0 ∧ t < -640) ∨ (i = 4 ∧ 2400 < t)))) :
    calTarget cells sets t correction k = target + ((cells correction).getD k 0 : Int) := by
  rw [calTarget]
  rcases h with ⟨hi, hlow, hhigh, rfl⟩ | ⟨rfl, ⟨rfl, hlow⟩ | ⟨rfl, hhigh⟩⟩
  · rw [interpolate_between _ hi hlow hhigh]
  · rw [interpolate_below _ hlow]
  · rw [interpolate_above _ hhigh]

/-- A place of the selections of an element. -/
theorem selected_place (q elem : Nat) (sets : List Trim) (t : Int) (correction : Trim) (dac : Bool) {k : Nat} (hk : k < (if dac then (sets.getD 0 ⟨[], []⟩).dacs else (sets.getD 0 ⟨[], []⟩).taps).length) :
    (if dac then (selected q elem sets t correction).dacs else (selected q elem sets t correction).taps)[k]?
      = some (nearest (calTarget (fun t => if dac then t.dacs else t.taps) sets t correction k) (Config.cells q elem k dac)) := by
  cases dac
  · have htaps : k < (sets.getD 0 ⟨[], []⟩).taps.length := hk
    rw [selected, if_neg Bool.false_ne_true, List.getElem?_map, List.getElem?_range htaps]
    rfl
  · have hdacs : k < (sets.getD 0 ⟨[], []⟩).dacs.length := hk
    rw [selected, if_pos rfl, List.getElem?_map, List.getElem?_range hdacs]
    rfl

theorem CalElem.word_bytes (e : CalElem) : leW e.word = le 4 (2 ^ 31 * b2n e.mended + 2 ^ 30 * b2n e.trimFail + 2 ^ 29 * b2n e.lastDac + e.count.toNat) := by
  rw [CalElem.word, packW, leW_ofNat]
  simp

section
variable {s : State} {h : Hdr} {p : Params}

theorem calQuery_chip (ht : s.Takes opCalQuery h p) (hq : h.qmask = 0) :
    s.Serves (.calQuery h p) h opCalQuery (((List.range 8).map (s.taken h opCalQuery.opcode).storeWord).flatMap leW) s := by
  rw [List.flatMap_map]
  exact State.serves_map ht (fun u => u) ((exec_command (i := .calQuery h p) (o := opCalQuery) (row := .calQuery) (run := doCalQuery) rfl (doCalQuery.eq_1 h p s) (by decide) ht (if_pos hq)).trans
    (congrArg Host.Outcome.next (if_pos hq))) (fun _ => rfl) rfl rfl fun _ => rfl

/-- Words of page 0x09 that a command leaves. -/
theorem taken_storeWord : (s.taken h opCalQuery.opcode).storeWord 0 = BitVec.ofNat 32 (2 ^ 31 * b2n s.cal.commitBusy.isSome + 2 ^ 30 * b2n s.cal.storeValid + 2 ^ 29 * b2n s.spine.patchNone
      + 2 ^ 28 * b2n s.boot.partitionDefault + 2 ^ 8 * b2n s.cal.bank + b2n s.spine.patchSlot)
    ∧ (s.taken h opCalQuery.opcode).storeWord 1 = BitVec.ofNat 32 s.cal.generation ∧ (s.taken h opCalQuery.opcode).storeWord 2 = BitVec.ofNat 32 s.spine.patchGeneration
    ∧ (s.taken h opCalQuery.opcode).storeWord 6 = s.reg (rk 9 0x18) ∧ (s.taken h opCalQuery.opcode).storeWord 7 = s.reg (rk 9 0x1C) := by
  refine ⟨?_, ?_, ?_, s.taken_reg h _ (by decide), s.taken_reg h _ (by decide)⟩
  · rw [s.taken_withBooks]
    exact congrArg (BitVec.ofNat 32) (by simp; rfl)
  · rw [s.taken_withBooks]
    rfl
  · rw [s.taken_withBooks]
    rfl

theorem calQuery_element {q : QId} (ht : s.Takes opCalQuery h p) (hq : h.qmask = BitVec.ofNat 8 (2 ^ q.val)) (hpin : par p 0 1 < 33) (hoff : (s.quire q).state ≠ .off) :
    s.Serves (.calQuery h p) h opCalQuery (leW ((s.quire q).cal.getD (par p 0 1) .reset).word ++ t12 s.modeOz ((s.quire q).cal.getD (par p 0 1) .reset).timeNs
      ++ le 4 (ofInt 32 (s.cal.readings.getD (calSensor q (par p 0 1)) 0)) ++ le 1 (bracket (s.cal.readings.getD (calSensor q (par p 0 1)) 0)).1
      ++ le 1 (bracket (s.cal.readings.getD (calSensor q (par p 0 1)) 0)).2 ++ List.replicate 10 0) s := by
  obtain rfl := hdrQuire_one hq
  have hmask : h.qmask ≠ 0 := by
    rw [hq]
    generalize hdrQuire h = q
    revert q
    decide
  refine State.serves_map ht (fun u => u) ((exec_command (i := .calQuery h p) (o := opCalQuery) (row := .calQuery) (run := doCalQuery) rfl (doCalQuery.eq_1 h p s) (by decide) ht ?_).trans
    (congrArg Host.Outcome.next ((if_neg hmask).trans ?_))) (fun _ => rfl) rfl rfl fun _ => rfl
  · rw [if_neg hmask, if_neg (by omega), inStates, State.freeBuffer_quire, if_pos (show notOff _ = true from decide_eq_true hoff)]
  · rw [s.taken_withBooks]
    rfl

theorem exec_selftest {q : QId} (ht : s.Takes opSelftest h p) (hq : h.qmask = BitVec.ofNat 8 (2 ^ q.val)) (hwait : par p 4 1 < 2) (hs : (s.quire q).state = .parked ∨ (s.quire q).state = .stopped) :
    exec (.selftest h p) s = .next (if par p 4 1 = 1 then (s.taken h opSelftest.opcode).modQuire q fun x => { x with occupied := some (.selftest (hdrDest h opSelftest.opcode) (parW p 0)) }
      else ((s.taken h opSelftest.opcode).modQuire q fun x => { x with selftest := some (parW p 0) }).reply (hdrDest h opSelftest.opcode) stDeferred) := by
  obtain rfl := hdrQuire_one hq
  refine (exec_command (i := .selftest h p) (o := opSelftest) (row := .selftest) (run := doSelftest) rfl (doSelftest.eq_1 h p s) (by decide) ht ?_).trans (congrArg Host.Outcome.next ?_)
  · rw [if_neg (by omega), inStates, State.freeBuffer_quire, if_pos (by simpa using hs)]
  · dsimp only
    simp only [decide_eq_true_eq]

end

/-! ### The ends of the two measurements -/

section
variable (x : Quire) (c : Ctx) {r : Retrim} (hr : x.retrim = some r)
include hr

theorem Quire.retrimMeasured_fails (hstep : r.step = .measure) {miss : Nat} (hmiss : 1000 < miss) (taps : List Int) :
    x.w.retrimMeasured c miss taps = (x.w.upd fun q => { q with retrim := none, cal := lmod q.cal r.pin fun x => { x with trimFail := true, mended := decide (r.pin < 32) } }).bump (rk 0x18 0xC) := by
  rw [W.retrimMeasured, Quire.w_q, hr]
  dsimp only
  rw [if_neg (by simp [hstep]), if_pos hmiss]

theorem Quire.retrimMeasured_dacs (hstep : r.step = .measure) {miss : Nat} (hmiss : miss ≤ 1000) (hfree : x.state.dacsFree = true) (taps : List Int) :
    x.w.retrimMeasured c miss taps = ({ x with retrim := some { r with measuredAt := c.ns, found := { r.found with taps := taps }, step := .dacs } } : Quire).w := by
  rw [W.retrimMeasured, Quire.w_q, hr]
  dsimp only
  rw [if_neg (by simp [hstep]), if_neg (by omega), if_pos hfree]
  rfl

theorem Quire.retrimMeasured_over (hstep : r.step = .measure) {miss : Nat} (hmiss : miss ≤ 1000) (hfree : x.state.dacsFree = false) (taps : List Int) :
    x.w.retrimMeasured c miss taps = (x.w.upd fun y => y.dacsNoted r.pin false).retrimHandBack c { r with measuredAt := c.ns, found := { r.found with taps := taps } } := by
  rw [W.retrimMeasured, Quire.w_q, hr]
  dsimp only
  rw [if_neg (by simp [hstep]), if_neg (by omega), if_neg (by simp [hfree])]
  rfl

theorem Quire.retrimDacsDone_over (hstep : r.step = .dacs) (dacs : List Int) :
    x.w.retrimDacsDone c dacs = (x.w.upd fun y => y.dacsNoted r.pin true).retrimHandBack c { r with found := { r.found with dacs := dacs } } := by
  rw [W.retrimDacsDone, Quire.w_q, hr]
  dsimp only
  rw [if_neg (by simp [hstep])]
  rfl

end

theorem selftestDone_occupied {s : State} {q : QId} {d : ReplyTo} {tests : Word} (hocc : (s.quire q).occupied = some (.selftest d tests)) (failed : BitVec 5) (us : Nat) :
    selftestDone q failed us s = (s.modQuire q fun x => { x with occupied := none }).reply d stOk 0
      (leW (tests &&& ~~~(tests &&& failed.setWidth 32)) ++ leW (tests &&& failed.setWidth 32) ++ le 4 us) := by
  rw [selftestDone, hocc]

theorem selftestDone_replied {s : State} {q : QId} (hocc : ∀ d tests, (s.quire q).occupied ≠ some (.selftest d tests)) (failed : BitVec 5) (us : Nat) :
    selftestDone q failed us s = s.modQuire q fun x => { x with selftest := none } := by
  unfold selftestDone
  split
  next d tests h => exact absurd h (hocc d tests)
  next => rfl

end Sys2Proof.Machine

namespace Sys2Proof.Proofs
open Sys2Proof.Machine

/-- Settles O40: each step of a re-trim by its own lemma, and the selections by the nearest element to the interpolated target. -/
theorem calibration : Obligations.Calibration := by
  unfold Obligations.Calibration
  intro s h p q d r miss us taps dacs tests failed x pin forced job joins deferred free measured handsBack ends is set own follows e reading bad
  refine ⟨fun hq => ⟨fun ht hforced hnone hoff hfaulted => ?retrim, fun ht hpin hoff => ?query, fun ht hs => ?selftest⟩, fun hr hstep => ?measured, fun hr hstep => ?dacs, fun hboot => ?track,
    fun ht hq => ?chip, fun hocc hd => ?occupied, fun htest hocc => ?tests⟩
  case retrim =>
    have hdone : ∀ y, retrimCheck h p s = none → x.beginRetrim pin (decide forced) = y → y.occupied = x.occupied → deferred y := fun y hc hy hocc => by
      subst hy
      exact State.answers_modQuire ht (by decide) q _ (exec_calRetrim ht hq hc) hocc
    refine ⟨fun hpin hidle => ?_, fun hpin hidle => ?_, fun hpin hserving hsame => ?_, fun hpin hidle hfree => ?_⟩
    · refine hdone _ (retrimCheck_none hq (.inl (by omega)) hforced hoff hfaulted (fun h => by omega) hnone (.inl hidle)) ?_ rfl
      rw [x.beginRetrim_joins pin _ (by omega) (by rw [hidle]; decide), if_neg (by omega), decide_eq_false (show ¬pin = 0xFF by omega)]
      rfl
    · refine hdone _ (retrimCheck_none hq (.inr hpin) hforced hoff hfaulted (fun h => by omega) hnone (.inl hidle)) ?_ rfl
      rw [x.beginRetrim_joins pin _ (by omega) (by rw [hidle]; decide), if_pos hpin, decide_eq_true hpin]
      rfl
    · refine hdone _ (retrimCheck_none hq (.inl (by omega)) hforced hoff hfaulted (fun h => by omega) hnone (.inr ⟨hserving, hsame⟩)) ?_ rfl
      rw [x.beginRetrim_measures pin _ (by omega) (.inr hserving)]
      rfl
    · refine hdone _ (retrimCheck_none hq (.inl (by omega)) hforced hoff hfaulted (fun _ => ?_) hnone (.inl hidle)) ?_ rfl
      · simpa [QState.dacsFree, or_assoc] using hfree
      · rw [x.beginRetrim_measures pin _ (by omega) (.inl hpin)]
        rfl
  case query =>
    obtain ⟨hlo, hhi, hin, hbelow, habove⟩ := bracket_spec reading
    have hserves := calQuery_element ht hq hpin hoff
    rw [CalElem.word_bytes, List.append_assoc _ (le 1 _) (le 1 _)] at hserves
    exact ⟨_, _, hlo, hhi, hserves, hin, hbelow, habove⟩
  case selftest =>
    constructor
    · intro hwait
      refine State.begins_map (by decide) (fun u => u.modQuire q fun x => { x with occupied := some (.selftest (hdrDest h opSelftest.opcode) (parW p 0)) }) ?_ (fun _ => rfl) rfl
      rw [exec_selftest ht hq (by omega) hs, if_pos hwait]
    · intro hwait
      refine State.answers_modQuire ht (by decide) q (fun x => { x with selftest := some (parW p 0) }) ?_ rfl
      rw [exec_selftest ht hq (by omega) hs, if_neg (by omega)]
  case measured =>
    have hbusy : ¬free → x.state.dacsFree = false := fun hfree => by
      rw [← Bool.not_eq_true]
      simpa [QState.dacsFree, or_assoc, free] using hfree
    refine ⟨fun hmiss => ?_, fun hmiss hfree => ?_, fun hmiss hfree hpin => ?_, fun hmiss hfree hpin hlen => ?_⟩
    · refine s.makes_of _ q (fun x => x.w.retrimMeasured s.ctx miss taps) _ _ rfl (x.retrimMeasured_fails s.ctx hr hstep hmiss taps) ((x.w_quiet.upd _).bump _ _) (W.bump_counts _ _ _) fun t ht => ?_
      rw [State.CountsOne, ht]
      exact W.bump_counted (x.w.upd fun q => { q with retrim := none, cal := lmod q.cal r.pin fun x => { x with trimFail := true, mended := decide (r.pin < 32) } }) (rk 0x18 0xC) 1
    · exact s.exec_setQuire _ q (fun x => x.w.retrimMeasured s.ctx miss taps) _ rfl (x.retrimMeasured_dacs s.ctx hr hstep hmiss (by simpa [QState.dacsFree, or_assoc] using hfree) taps)
    · exact s.exec_setQuire _ q (fun x => x.w.retrimMeasured s.ctx miss taps) _ rfl ((x.retrimMeasured_over s.ctx hr hstep hmiss (hbusy hfree) taps).trans (W.retrimHandBack_pin _ _ hpin))
    · refine s.endpaperRetrimmed _ q (fun x => x.w.retrimMeasured s.ctx miss taps) measured false rfl hpin hlen ((x.retrimMeasured_over s.ctx hr hstep hmiss (hbusy hfree) taps).trans ?_)
      exact congrArg (fun k => (x.w.upd fun y => y.dacsNoted k false).retrimHandBack s.ctx measured) hpin
  case dacs =>
    refine ⟨fun hpin => ?_, fun hpin hlen => ?_⟩
    · exact s.exec_setQuire _ q (fun x => x.w.retrimDacsDone s.ctx dacs) _ rfl ((x.retrimDacsDone_over s.ctx hr hstep dacs).trans (W.retrimHandBack_pin _ _ hpin))
    · refine s.endpaperRetrimmed _ q (fun x => x.w.retrimDacsDone s.ctx dacs) { r with found := { r.found with dacs := dacs } } true rfl hpin hlen ((x.retrimDacsDone_over s.ctx hr hstep dacs).trans ?_)
      rw [hpin]
  case track =>
    refine ⟨_, congrArg Host.Outcome.next (if_neg hboot), fun elem helem => ?_⟩
    intro sets now chosen correction dac cells k hk redundant at_ i target htarget hne
    have hchosen : chosen = s.tracked q elem := s.chosen_tracked q helem
    obtain ⟨hmem, hmin⟩ := nearest_spec (target + ((cells correction).getD k 0 : Int)) redundant hne
    refine ⟨_, hmem, ?_, hmin⟩
    rw [hchosen, ← calTarget_eq cells sets (t := now) correction k i (target := target) ?_]
    · exact selected_place q.val elem sets now correction dac hk
    · rw [calTemps_eq, calTemps_eq]
      exact htarget
  case chip =>
    exact ⟨(List.range 8).map (s.taken h opCalQuery.opcode).storeWord, rfl, calQuery_chip ht hq, taken_storeWord⟩
  case occupied =>
    refine ⟨_, congrArg Host.Outcome.next (selftestDone_occupied hocc failed us), hd.within ⟨fun r hr => State.quire_modQuire_other _ _ _ _ hr, rfl⟩ stOk 0 _, ?_⟩
    rw [State.reply_quires]
    rfl
  case tests => exact congrArg Host.Outcome.next (selftestDone_replied hocc failed us)

end Sys2Proof.Proofs

end

section
/-! Time measurements: what a TMU_MEASURE begins (R434, R435), what a crossing does (R429, R430, R437 to R442), and what a measurement publishes (R443 to R445, R451, R456). -/

namespace Sys2Proof.Machine

/-! ### The start of a measurement -/

section
variable {s : State} {h : Hdr} {p : Params} {q : QId}

/-- The quire that a TMU_MEASURE leaves. -/
def State.tmuStarted (s : State) (p : Params) (d : ReplyTo) (x : Quire) : Quire := x.startTmu (tmuId (par p 0 1)) (tmuJob s.modeOz p d) s.time.ns s.time.ticks s.timingRuns

theorem exec_tmuMeasure (ht : s.Takes opTmuMeasure h p) (hq : h.qmask = BitVec.ofNat 8 (2 ^ q.val)) (hc : tmuCheck s.modeOz (s.quire q) p = none) :
    exec (.tmuMeasure h p) s = .next (if par p 6 1 = 1 then (s.taken h opTmuMeasure.opcode).modQuire q (s.tmuStarted p (hdrDest h opTmuMeasure.opcode))
      else ((s.taken h opTmuMeasure.opcode).modQuire q (s.tmuStarted p (hdrDest h opTmuMeasure.opcode))).reply (hdrDest h opTmuMeasure.opcode) stDeferred) := by
  obtain rfl := hdrQuire_one hq
  refine (exec_command (i := .tmuMeasure h p) (o := opTmuMeasure) (row := .tmuMeasure) (run := doTmuMeasure) rfl (doTmuMeasure.eq_1 h p s) (by decide) ht ?_).trans (congrArg Host.Outcome.next ?_)
  · rw [State.freeBuffer_quire]
    exact hc
  · have hwait : (tmuJob s.modeOz p (hdrDest h opTmuMeasure.opcode)).waiter.isSome = decide (par p 6 1 = 1) := by
      rw [tmuJob]
      dsimp only
      split
      next h => rw [h]; rfl
      next h => rw [decide_eq_false h]; rfl
    rw [s.taken_withBooks]
    show (if (tmuJob s.modeOz p (hdrDest h opTmuMeasure.opcode)).waiter.isSome = true then _ else _) = _
    rw [hwait]
    simp only [decide_eq_true_eq]
    rfl

theorem exec_pmuMeasure (ht : s.Takes opPmuMeasure h p) (hq : h.qmask = BitVec.ofNat 8 (2 ^ q.val)) (hc : pmuCheck s.modeOz (s.quire q) p = none) :
    exec (.pmuMeasure h p) s = .next (if par p 3 1 = 1 then (s.taken h opPmuMeasure.opcode).modQuire q fun x => x.startPmu s.modeOz p (hdrDest h opPmuMeasure.opcode)
      else ((s.taken h opPmuMeasure.opcode).modQuire q fun x => x.startPmu s.modeOz p (hdrDest h opPmuMeasure.opcode)).reply (hdrDest h opPmuMeasure.opcode) stDeferred) := by
  obtain rfl := hdrQuire_one hq
  refine (exec_command (i := .pmuMeasure h p) (o := opPmuMeasure) (row := .pmuMeasure) (run := doPmuMeasure) rfl (doPmuMeasure.eq_1 h p s) (by decide) ht ?_).trans (congrArg Host.Outcome.next ?_)
  · rw [State.freeBuffer_quire]
    exact hc
  · rw [s.taken_withBooks]
    rfl

end

/-! ### A crossing -/

theorem W.holdOn_free (w : W) (c : Ctx) (hp : w.q.pinsHold = false) : w.holdOn c = w := by rw [W.holdOn, hp]; rfl

/-- While the pins do not hold, a crossing concerns the measurement alone. -/
theorem tmuEdge_free {s : State} {q : QId} {u : TmuId} {j : TmuJob} (hj : (s.quire q).tmus[u] = some j) (hp : (s.quire q).pinsHold = false) (ch : Channel) (rising : Bool) (t : Int) :
    tmuEdge q u ch rising t s = s.setQuire q ((s.quire q).setTmu u ((s.quire q).tmuCrossing s.time.ticks j ch rising t)) := by
  have hhold : s.onQuire q (fun x => x.w.holdOn s.ctx) = s := by
    rw [State.onQuire_quiet _ _ _ (by rw [W.holdOn_free _ _ hp]; rfl), W.holdOn_free _ _ hp]
    exact s.setQuire_quire q
  rw [tmuEdge, hhold, hj]
  rfl

theorem Quire.setTmu_same {x : Quire} {u : TmuId} {j : TmuJob} (hj : x.tmus[u] = some j) : x.setTmu u j = x := by
  have hset : x.tmus.set u (some j) = x.tmus := by
    rw [← hj]
    exact Vector.set_getElem_self u.isLt
  rw [Quire.setTmu, hset]

/-- A source makes the crossing, the slope takes it, and no hold-off runs (R429, R430). -/
def Quire.qualifies (x : Quire) (c : Byte) (slope hold : Nat) (last : Option Int) (rising : Bool) (instant : Int) : Bool :=
  x.sourceCrosses c rising instant && slopeTakes slope rising && !(match last with | some l => decide (instant < l + hold) | none => false)

theorem Quire.qualifies_iff (x : Quire) (c : Byte) (slope hold : Nat) (last : Option Int) (rising : Bool) (instant : Int) : x.qualifies c slope hold last rising instant = true ↔
    (c.getLsbD 7 = false ∨ ∃ e ∈ x.markerEdges (c.toNat % 2), (e.1 != bit (x.cfg 0x0B (16 * (c.toNat % 2))) 4) = rising ∧ |instant - e.2| ≤ 100)
      ∧ (slope = 0 → rising = true) ∧ (slope = 1 → rising = false) ∧ ∀ l, last = some l → l + hold ≤ instant := by
  have hcross : x.sourceCrosses c rising instant = true ↔ (c.getLsbD 7 = false ∨ ∃ e ∈ x.markerEdges (c.toNat % 2), (e.1 != bit (x.cfg 0x0B (16 * (c.toNat % 2))) 4) = rising ∧ |instant - e.2| ≤ 100) := by
    simp [Quire.sourceCrosses, Quire.markerInvert, Quire.markerCtrl]
  have hslope : slopeTakes slope rising = true ↔ (slope = 0 → rising = true) ∧ (slope = 1 → rising = false) := by
    unfold slopeTakes
    split_ifs <;> simp_all
  have hlast : (!(match last with | some l => decide (instant < l + hold) | none => false)) = true ↔ ∀ l, last = some l → l + hold ≤ instant := by
    cases last <;> simp
  unfold Quire.qualifies
  rw [Bool.and_eq_true, Bool.and_eq_true, hcross, hslope, hlast, and_assoc, and_assoc]

theorem TmuJob.skip_or (j taken : TmuJob) (crosses slope held : Bool) :
    (if (!true || !crosses || !slope || held) = true then j else taken) = if (crosses && slope && !held) = true then taken else j := by
  cases crosses <;> cases slope <;> cases held <;> rfl

/-- The instant of a crossing from power-on. -/
def TmuJob.instant (j : TmuJob) (ticks : Nat) (t : Int) : Int := (if j.gateOpen then j.gateAt else 4000 * ticks : Nat) + t

/-- The crossing lies in the gate (R437). -/
def TmuJob.inGate (j : TmuJob) (t : Int) : Prop := j.gateOpen = true ∧ j.gateClosed = false ∧ 0 ≤ t ∧ t < 4000 * j.gateNs

section
variable {x : Quire} {ticks : Nat} {j : TmuJob} {rising : Bool} {t : Int}

theorem Quire.tmuCrossing_a : x.tmuCrossing ticks j .a rising t =
    if x.qualifies j.srcA j.slopeA j.holdA j.a.lastEdge rising (j.instant ticks t) then
      if !j.gateOpen || j.gateClosed || decide (t < 0) || decide (4000 * (j.gateNs : Int) ≤ t) then j.holdOff (j.instant ticks t) .a
      else (j.edgeA t (x.stampDeskew j.srcA)).holdOff (j.instant ticks t) .a
    else j := by
  exact TmuJob.skip_or j _ _ _ _

theorem Quire.tmuCrossing_b (hmode : j.mode = 0 ∨ j.mode = 2) : x.tmuCrossing ticks j .b rising t =
    if x.qualifies j.srcB j.slopeB j.holdB j.b.lastEdge rising (j.instant ticks t) then
      if !j.gateOpen || j.gateClosed || decide (t < 0) || decide (4000 * (j.gateNs : Int) ≤ t) then j.holdOff (j.instant ticks t) .b
      else (j.edgeB t (x.stampDeskew j.srcA) (x.stampDeskew j.srcB)).holdOff (j.instant ticks t) .b
    else j := by
  have huses : usesB j.mode = true := by rw [usesB]; simpa using hmode
  unfold Quire.tmuCrossing
  dsimp only
  rw [huses]
  exact TmuJob.skip_or j _ _ _ _

/-- A channel B that takes no part sees no edge (R438). -/
theorem Quire.tmuCrossing_unused (hmode : ¬(j.mode = 0 ∨ j.mode = 2)) : x.tmuCrossing ticks j .b rising t = j := by
  have huses : usesB j.mode = false := by
    rw [usesB]
    simpa using hmode
  unfold Quire.tmuCrossing
  dsimp only
  rw [huses]
  rfl

theorem TmuJob.inGate_iff : (!j.gateOpen || j.gateClosed || decide (t < 0) || decide (4000 * (j.gateNs : Int) ≤ t)) = true ↔ ¬j.inGate t := by
  rw [TmuJob.inGate]
  grind

end

/-! ### A qualified edge in the gate -/

section
variable (j : TmuJob) (t d : Int)

theorem TmuJob.edgeA_interval (hmode : j.mode = 0) :
    j.edgeA t d = if j.a.edges + 1 = j.startN then { j with a := { j.a with edges := j.a.edges + 1, n := 1 }, startStamp := some t } else { j with a := { j.a with edges := j.a.edges + 1 } } := by
  simp [TmuJob.edgeA, hmode]

theorem TmuJob.edgeA_count (hmode : j.mode = 3) : j.edgeA t d = { j with a := { j.a with edges := j.a.edges + 1 } } := by
  simp [TmuJob.edgeA, hmode]

theorem TmuJob.edgeA_fitted (hmode : j.mode = 1 ∨ j.mode = 2) :
    j.edgeA t d = { j with
      a := { (j.a.fitted j.prescale (t - d)).1 with edges := j.a.edges + 1 }
      stampLimit := j.stampLimit || (j.a.fitted j.prescale (t - d)).2.1, cause := if (j.a.fitted j.prescale (t - d)).2.2 = true ∧ j.cause = 0 then 3 else j.cause } := by
  have hfits : (decide (j.mode = 1) || decide (j.mode = 2)) = true := by simpa using hmode
  have hcounts : j.mode ≠ 0 := by omega
  simp [TmuJob.edgeA, hfits, hcounts]

theorem TmuJob.edgeB_interval (hmode : j.mode = 0) (dB : Int) :
    j.edgeB t d dB = match j.startStamp with
      | none => { j with b := { j.b with edges := j.b.edges + 1 } }
      | some s => if s < t then { j with
            b := { j.b with edges := j.b.edges + 1 }, stopCount := j.stopCount + 1, interval := if j.stopCount + 1 = j.stopN then some ((t - dB) - (s - d)) else j.interval }
          else { j with b := { j.b with edges := j.b.edges + 1 } } := by
  cases hs : j.startStamp <;> simp [TmuJob.edgeB, hmode, hs]

end

end Sys2Proof.Machine
end

section
/-! What a measurement publishes (R443, R444, R451, R456): its status words, its result words, and the reply that waits for them. -/

namespace Sys2Proof.Machine

/-! ### Requests that leave words of the quire open -/

/-- The request is an entry of the log, or leaves a word of the list open. -/
def Fx.opens (keys : List Nat) (x : Fx) : Prop := x.logs = true ∨ ∃ k ∈ keys, ∃ m, x = .freeBits k m

/-- Nothing differs but the log, the words of the list in quire `q`, and the free values used. -/
structure State.Opened (q : QId) (keys : List Nat) (s t : State) : Prop where
  frame : t = { s with fresh := t.fresh, quires := t.quires, log := t.log, collector := { s.collector with satPages := t.collector.satPages } }
  other : ∀ r, r ≠ q → t.quire r = s.quire r
  quire : ∃ l, t.quire q = { s.quire q with live := l }
  reg : ∀ k, k ∉ keys → (t.quire q).liveReg k = (s.quire q).liveReg k

theorem State.Opened.refl (q : QId) (keys : List Nat) (s : State) : State.Opened q keys s s := ⟨rfl, fun _ _ => rfl, ⟨_, rfl⟩, fun _ _ => rfl⟩

theorem State.Opened.trans {q : QId} {keys : List Nat} {s t u : State} (h : State.Opened q keys s t) (h' : State.Opened q keys t u) : State.Opened q keys s u where
  frame := by
    have hu := h'.frame
    rw [h.frame] at hu
    exact hu
  other r hr := (h'.other r hr).trans (h.other r hr)
  quire := by
    obtain ⟨l, hl⟩ := h.quire
    obtain ⟨l', hl'⟩ := h'.quire
    exact ⟨l', by rw [hl', hl]⟩
  reg k hk := (h'.reg k hk).trans (h.reg k hk)

theorem State.runFx_opened (s : State) (q : QId) (keys : List Nat) (x : Fx) (h : x.opens keys) : State.Opened q keys s (State.runFx q s x) := by
  rcases h with hlogs | ⟨k, hk, m, rfl⟩
  · obtain ⟨l, c, hx⟩ := State.runFx_logs s q x hlogs
    rw [hx]
    exact ⟨rfl, fun _ _ => rfl, ⟨_, rfl⟩, fun _ _ => rfl⟩
  · refine ⟨rfl, fun r hr => State.quire_modQuire_other _ _ _ _ hr, ?_, fun j hj => ?_⟩
    · exact ⟨_, State.quire_modQuire_same _ _ _⟩
    · have hne : j ≠ k := fun h => hj (h ▸ hk)
      show ((s.takeFree.2.modQuire q _).quire q).liveReg j = _
      rw [State.quire_modQuire_same]
      exact Quire.liveReg_setLive_other _ _ hne

theorem State.runFxs_opened (s : State) (q : QId) (keys : List Nat) (l : List Fx) (h : ∀ x ∈ l, x.opens keys) : State.Opened q keys s (l.foldl (State.runFx q) s) :=
  List.foldlRecOn (motive := State.Opened q keys s) l (State.runFx q) (.refl q keys s) fun t ht x hx => ht.trans (t.runFx_opened q keys x (h x hx))

/-- A step of a quire that leaves words of the list open, and at its end has a reply sent with live words. -/
theorem State.onQuire_replies (s : State) (q : QId) (f : Quire → W) (keys : List Nat) {v : W} (hv : v.Asks (Fx.opens keys)) {waiter : Option ReplyTo} {shown : List Nat}
    (hf : f (s.quire q) = match waiter with | some d => v.ask (.replyLive d stOk 0 shown) | none => v) :
    (∀ r, r ≠ q → (s.onQuire q f).quire r = s.quire r) ∧ (∃ l, (s.onQuire q f).quire q = { v.q with live := l }) ∧ (∀ k, k ∉ keys → ((s.onQuire q f).quire q).liveReg k = v.q.liveReg k)
      ∧ (waiter = none → (s.onQuire q f).sent = s.sent)
      ∧ ∀ d, waiter = some d → s.Owes d → s.Replied (s.onQuire q f) d stOk 0 (shown.flatMap fun k => leW (((s.onQuire q f).quire q).liveReg k)) := by
  have hopened := (s.setQuire q v.q).runFxs_opened q keys v.fx hv
  have hother : ∀ r, r ≠ q → (v.fx.foldl (State.runFx q) (s.setQuire q v.q)).quire r = s.quire r := fun r hr => (hopened.other r hr).trans (State.quire_setQuire_other _ _ _ _ hr)
  have hquire := hopened.quire
  have hreg := hopened.reg
  have hframe := hopened.frame
  rw [State.quire_setQuire_same] at hquire
  simp only [State.quire_setQuire_same] at hreg
  cases waiter with
  | none =>
    have hon : s.onQuire q f = v.fx.foldl (State.runFx q) (s.setQuire q v.q) := by
      rw [State.onQuire, hf]
    rw [hon]
    exact ⟨hother, hquire, hreg, fun _ => by rw [hframe]; rfl, fun d hd => by cases hd⟩
  | some d =>
    have hon : s.onQuire q f = (v.fx.foldl (State.runFx q) (s.setQuire q v.q)).reply d stOk 0
        (shown.flatMap fun k => leW (((v.fx.foldl (State.runFx q) (s.setQuire q v.q)).quire q).liveReg k)) := by
      rw [State.onQuire, hf]
      show (v.fx ++ [Fx.replyLive d stOk 0 shown]).foldl (State.runFx q) (s.setQuire q v.q) = _
      rw [List.foldl_append]
      rfl
    rw [hon]
    generalize v.fx.foldl (State.runFx q) (s.setQuire q v.q) = t at *
    refine ⟨fun r hr => by rw [State.reply_quire]; exact hother r hr, by rw [State.reply_quire]; exact hquire, fun k hk => by rw [State.reply_quire]; exact hreg k hk, nofun, fun d' hd' howes => ?_⟩
    obtain rfl := Option.some.inj hd'
    rw [State.reply_quire]
    exact howes.replied (by rw [hframe]; rfl) (by rw [hframe]; rfl) (by rw [hframe]; rfl) (by rw [hframe]; rfl) stOk 0 _

/-! ### The words of a time measurement -/

/-- A word of TMU `u` (R456). -/
def tkey (u : TmuId) (o : Nat) : Nat := rk 0x0E (0x40 * u.val + o)

theorem tkey_ne (u : TmuId) {a b : Nat} (h : a ≠ b) : tkey u a ≠ tkey u b := by
  simp only [tkey, rk]
  omega

/-- Words written into the status of TMU `u`. -/
def W.setTmuWords (w : W) (u : TmuId) (l : List (Nat × Word)) : W := l.foldl (fun (w : W) (x : Nat × Word) => w.setLive (rk 0x0E (0x40 * u.val + x.1)) x.2) w

theorem W.setTmuWords_spec (w : W) (u : TmuId) (l : List (Nat × Word)) :
    (w.setTmuWords u l).fx = w.fx ∧ (∃ live, (w.setTmuWords u l).q = { w.q with live := live })
      ∧ (∀ o, o ∉ l.map (·.1) → (w.setTmuWords u l).q.liveReg (tkey u o) = w.q.liveReg (tkey u o))
      ∧ ((l.map (·.1)).Nodup → ∀ o v, (o, v) ∈ l → (w.setTmuWords u l).q.liveReg (tkey u o) = v) := by
  induction l generalizing w with
  | nil => exact ⟨rfl, ⟨_, rfl⟩, fun _ _ => rfl, fun _ _ _ h => absurd h List.not_mem_nil⟩
  | cons x l ih =>
    obtain ⟨hfx, ⟨live, hq⟩, hother, hsame⟩ := ih (w.setLive (rk 0x0E (0x40 * u.val + x.1)) x.2)
    have hstep : w.setTmuWords u (x :: l) = (w.setLive (rk 0x0E (0x40 * u.val + x.1)) x.2).setTmuWords u l := rfl
    rw [hstep]
    refine ⟨hfx, ⟨live, hq⟩, fun o ho => ?_, fun hnodup o v ho => ?_⟩
    · rw [List.map_cons, List.mem_cons, not_or] at ho
      rw [hother o ho.2]
      exact Quire.liveReg_setLive_other _ _ (tkey_ne u ho.1)
    · rw [List.map_cons, List.nodup_cons] at hnodup
      rcases List.mem_cons.mp ho with rfl | ho
      · rw [hother _ hnodup.1]
        exact rget_rput_same _ _ _
      · exact hsame hnodup.2 o v ho

/-- The words that the end of a measurement leaves open when it has no valid result. -/
def tmuOpenKeys (u : TmuId) (cause : Nat) : List Nat := if cause = 0 then [] else [4, 8, 0xC, 0x10, 0x14].map (tkey u)

/-- `TMU_STATUS` of a measurement that has ended. -/
def TmuJob.statusWord (j : TmuJob) (cause : Nat) : Word :=
  packW [(30, b2n (cause = 0)), (29, b2n j.late), (28, b2n j.stampLimit), (24, cause), (16, j.mode), (8, j.srcB.toNat), (0, j.srcA.toNat)]

section
variable (w : W) (oz : Bool) (u : TmuId) (j : TmuJob) (cause : Nat)

theorem W.tmuEnd_spec (hw : w.Asks (Fx.opens (tmuOpenKeys u cause))) (hopen : j.gateOpen = true) :
    (w.tmuEnd oz u j cause).Asks (Fx.opens (tmuOpenKeys u cause)) ∧ (w.tmuEnd oz u j cause).q.tmus = w.q.tmus.set u none
      ∧ (w.tmuEnd oz u j cause).q.liveReg (tkey u 0) = j.statusWord cause
      ∧ (w.tmuEnd oz u j cause).q.liveReg (tkey u 0x18) = BitVec.ofNat 32 j.a.n ∧ (w.tmuEnd oz u j cause).q.liveReg (tkey u 0x1C) = BitVec.ofNat 32 j.a.edges
      ∧ (w.tmuEnd oz u j cause).q.liveReg (tkey u 0x24) = (timeWords oz j.gateTime).1 ∧ (w.tmuEnd oz u j cause).q.liveReg (tkey u 0x28) = (timeWords oz j.gateTime).2.1
      ∧ (w.tmuEnd oz u j cause).q.liveReg (tkey u 0x2C) = (timeWords oz j.gateTime).2.2
      ∧ Counted 1 (w.q.liveReg (tkey u 0x30)) ((w.tmuEnd oz u j cause).q.liveReg (tkey u 0x30)) := by
  obtain ⟨hfx1, ⟨l1, hq1⟩, hother1, hsame1⟩ := w.setTmuWords_spec u
    [(0, j.statusWord cause), (0x18, BitVec.ofNat 32 j.a.n), (0x1C, BitVec.ofNat 32 j.a.edges), (0x20, BitVec.ofNat 32 (j.a.edges / 2 ^ 32))]
  generalize hw1 : w.setTmuWords u [(0, j.statusWord cause), (0x18, BitVec.ofNat 32 j.a.n), (0x1C, BitVec.ofNat 32 j.a.edges), (0x20, BitVec.ofNat 32 (j.a.edges / 2 ^ 32))] = w1 at *
  obtain ⟨hfx2, ⟨l2, hq2⟩, hother2, hsame2⟩ := w1.setTmuWords_spec u [(0x24, (timeWords oz j.gateTime).1), (0x28, (timeWords oz j.gateTime).2.1), (0x2C, (timeWords oz j.gateTime).2.2)]
  generalize hw2 : w1.setTmuWords u [(0x24, (timeWords oz j.gateTime).1), (0x28, (timeWords oz j.gateTime).2.1), (0x2C, (timeWords oz j.gateTime).2.2)] = w2 at *
  have hfree : ∃ v : W, v.q = w2.q ∧ v.Asks (Fx.opens (tmuOpenKeys u cause)) ∧ w.tmuEnd oz u j cause = (v.upd fun q => { q with tmus := q.tmus.set u none }).bump (tkey u 0x30) := by
    have hend : w.tmuEnd oz u j cause = ((if cause = 0 then w2 else w2.each [4, 8, 0xC, 0x10, 0x14] fun w o => w.ask (.freeBits (rk 0x0E (0x40 * u.val + o)) 0xFFFFFFFF)).upd
        fun q => { q with tmus := q.tmus.set u none }).bump (tkey u 0x30) := by
      rw [← hw2, ← hw1, W.tmuEnd, if_pos hopen]
      rfl
    have hasks : w2.Asks (Fx.opens (tmuOpenKeys u cause)) := fun x hx => hw x (by rwa [← hfx1, ← hfx2])
    by_cases hc : cause = 0
    · exact ⟨w2, rfl, hasks, by rw [hend, if_pos hc]⟩
    · refine ⟨w2.each [4, 8, 0xC, 0x10, 0x14] fun w o => w.ask (.freeBits (rk 0x0E (0x40 * u.val + o)) 0xFFFFFFFF), rfl, ?_, by rw [hend, if_neg hc]⟩
      exact W.Asks.each _ _ (fun v o ho hv => hv.ask (.inr ⟨_, by rw [tmuOpenKeys, if_neg hc]; exact List.mem_map.mpr ⟨o, ho, rfl⟩, _, rfl⟩)) hasks
  obtain ⟨v, hvq, hv, hend⟩ := hfree
  have hreg : ∀ o, o ≠ 0x30 → (w.tmuEnd oz u j cause).q.liveReg (tkey u o) = w2.q.liveReg (tkey u o) := fun o ho => by
    rw [hend, W.bump_liveReg_other _ 1 (tkey_ne u ho), ← hvq]
    rfl
  have hcounts := W.bump_counts (v.upd fun q => { q with tmus := q.tmus.set u none }) (tkey u 0x30) 1
  refine ⟨?_, ?_, ?_, ?_, ?_, ?_, ?_, ?_, ?_⟩
  · rw [hend]
    exact W.Asks.bump (fun _ => .inl) (w := v.upd fun q => { q with tmus := q.tmus.set u none }) hv _ _
  · rw [hend, hcounts]
    show v.q.tmus.set u none = _
    rw [hvq, hq2, hq1]
  · rw [hreg 0 (by decide), hother2 0 (by simp)]
    exact hsame1 (by simp) 0 _ (by simp)
  · rw [hreg 0x18 (by decide), hother2 0x18 (by simp)]
    exact hsame1 (by simp) 0x18 _ (by simp)
  · rw [hreg 0x1C (by decide), hother2 0x1C (by simp)]
    exact hsame1 (by simp) 0x1C _ (by simp)
  · rw [hreg 0x24 (by decide)]
    exact hsame2 (by simp) 0x24 _ (by simp)
  · rw [hreg 0x28 (by decide)]
    exact hsame2 (by simp) 0x28 _ (by simp)
  · rw [hreg 0x2C (by decide)]
    exact hsame2 (by simp) 0x2C _ (by simp)
  · have hcounted := W.bump_counted (v.upd fun q => { q with tmus := q.tmus.set u none }) (tkey u 0x30) 1
    rw [hend]
    have hold : (v.upd fun q => { q with tmus := q.tmus.set u none }).q.liveReg (tkey u 0x30) = w.q.liveReg (tkey u 0x30) := by
      show v.q.liveReg (tkey u 0x30) = _
      rw [hvq, hother2 0x30 (by simp), hother1 0x30 (by simp)]
    rwa [hold] at hcounted

end

end Sys2Proof.Machine
end

section
/-! The results of a measurement, those of the PMU, and the obligation. -/

namespace Sys2Proof.Machine

/-- The low and the high word of a result (R456). -/
theorem resultWord_low (v : Int) : BitVec.ofNat 32 (ofInt 64 v / 2 ^ (32 * 0)) = BitVec.ofInt 32 v := by
  apply BitVec.eq_of_toNat_eq
  simp only [BitVec.toNat_ofNat, BitVec.toNat_ofInt, ofInt]
  omega

theorem resultWord_high (v : Int) : BitVec.ofNat 32 (ofInt 64 v / 2 ^ (32 * 1)) = BitVec.ofInt 32 (v / 2 ^ 32) := by
  apply BitVec.eq_of_toNat_eq
  simp only [BitVec.toNat_ofNat, BitVec.toNat_ofInt, ofInt]
  omega

/-- The result words of a quire's TMU. -/
def Quire.tmuShows (y : Quire) (u : TmuId) (r : Int × Int × Nat) : Prop :=
  y.liveReg (tkey u 4) = BitVec.ofInt 32 r.1 ∧ y.liveReg (tkey u 8) = BitVec.ofInt 32 (r.1 / 2 ^ 32)
    ∧ y.liveReg (tkey u 0xC) = BitVec.ofInt 32 r.2.1 ∧ y.liveReg (tkey u 0x10) = BitVec.ofInt 32 (r.2.1 / 2 ^ 32) ∧ y.liveReg (tkey u 0x14) = BitVec.ofNat 32 r.2.2

/-- The state after a measurement has published. -/
structure State.Published (s : State) (q : QId) (u : TmuId) (j : TmuJob) (cause : Nat) (s' : State) : Prop where
  other : ∀ r, r ≠ q → s'.quire r = s.quire r
  tmus : (s'.quire q).tmus = (s.quire q).tmus.set u none
  status : (s'.quire q).liveReg (tkey u 0) = BitVec.ofNat 32 (2 ^ 30 * b2n (decide (cause = 0)) + 2 ^ 29 * b2n j.late + 2 ^ 28 * b2n j.stampLimit + 2 ^ 24 * cause + 2 ^ 16 * j.mode + 2 ^ 8 * j.srcB.toNat + j.srcA.toNat)
  stamps : (s'.quire q).liveReg (tkey u 0x18) = BitVec.ofNat 32 j.a.n
  edges : (s'.quire q).liveReg (tkey u 0x1C) = BitVec.ofNat 32 j.a.edges
  time : ((s'.quire q).liveReg (tkey u 0x24), (s'.quire q).liveReg (tkey u 0x28), (s'.quire q).liveReg (tkey u 0x2C)) = timeWords s.modeOz j.gateTime
  counts : s.CountsOne q (tkey u 0x30) s'
  silent : j.waiter = none → s'.sent = s.sent
  replied : ∀ d, j.waiter = some d → s.Owes d → s.Replied s' d stOk 0 ((List.range 12).flatMap fun o => leW ((s'.quire q).liveReg (tkey u (4 * o))))
  shows_ : cause = 0 → (s'.quire q).tmuShows u j.results

theorem State.publishes (s : State) (q : QId) (u : TmuId) (j : TmuJob) (f : Quire → W) (hf : f (s.quire q) = (s.quire q).w.tmuPublish s.modeOz u j) (hopen : j.gateOpen = true) :
    s.Published q u j j.endCause (s.onQuire q f) := by
  obtain ⟨hasks, htmus, hstatus, hstamps, hedges, ht0, ht1, ht2, hcounted⟩ := (s.quire q).w.tmuEnd_spec s.modeOz u j j.endCause (fun _ h => absurd h List.not_mem_nil) hopen
  have hpub : (s.quire q).w.tmuPublish s.modeOz u j = match j.waiter with
      | some d => (if j.endCause = 0 then ((s.quire q).w.tmuEnd s.modeOz u j j.endCause).setTmuWords u
          [(4, BitVec.ofNat 32 (ofInt 64 j.results.1 / 2 ^ (32 * 0))), (8, BitVec.ofNat 32 (ofInt 64 j.results.1 / 2 ^ (32 * 1))), (0xC, BitVec.ofNat 32 (ofInt 64 j.results.2.1 / 2 ^ (32 * 0))),
            (0x10, BitVec.ofNat 32 (ofInt 64 j.results.2.1 / 2 ^ (32 * 1))), (0x14, BitVec.ofNat 32 j.results.2.2)]
          else (s.quire q).w.tmuEnd s.modeOz u j j.endCause).ask (.replyLive d stOk 0 (tmuKeys u))
      | none => if j.endCause = 0 then ((s.quire q).w.tmuEnd s.modeOz u j j.endCause).setTmuWords u
          [(4, BitVec.ofNat 32 (ofInt 64 j.results.1 / 2 ^ (32 * 0))), (8, BitVec.ofNat 32 (ofInt 64 j.results.1 / 2 ^ (32 * 1))), (0xC, BitVec.ofNat 32 (ofInt 64 j.results.2.1 / 2 ^ (32 * 0))),
            (0x10, BitVec.ofNat 32 (ofInt 64 j.results.2.1 / 2 ^ (32 * 1))), (0x14, BitVec.ofNat 32 j.results.2.2)]
          else (s.quire q).w.tmuEnd s.modeOz u j j.endCause := by
    cases hw : j.waiter <;> rw [W.tmuPublish, hw] <;> rfl
  generalize (s.quire q).w.tmuEnd s.modeOz u j j.endCause = v at hasks htmus hstatus hstamps hedges ht0 ht1 ht2 hcounted hpub
  obtain ⟨hfx, ⟨live, hq⟩, hother, hsame⟩ := v.setTmuWords_spec u [(4, BitVec.ofNat 32 (ofInt 64 j.results.1 / 2 ^ (32 * 0))), (8, BitVec.ofNat 32 (ofInt 64 j.results.1 / 2 ^ (32 * 1))),
    (0xC, BitVec.ofNat 32 (ofInt 64 j.results.2.1 / 2 ^ (32 * 0))), (0x10, BitVec.ofNat 32 (ofInt 64 j.results.2.1 / 2 ^ (32 * 1))), (0x14, BitVec.ofNat 32 j.results.2.2)]
  generalize hz : v.setTmuWords u [(4, BitVec.ofNat 32 (ofInt 64 j.results.1 / 2 ^ (32 * 0))), (8, BitVec.ofNat 32 (ofInt 64 j.results.1 / 2 ^ (32 * 1))),
    (0xC, BitVec.ofNat 32 (ofInt 64 j.results.2.1 / 2 ^ (32 * 0))), (0x10, BitVec.ofNat 32 (ofInt 64 j.results.2.1 / 2 ^ (32 * 1))), (0x14, BitVec.ofNat 32 j.results.2.2)] = z at hfx hq hother hsame hpub
  have hz : ∃ y : W, (y = if j.endCause = 0 then z else v) ∧ y.Asks (Fx.opens (tmuOpenKeys u j.endCause)) ∧ y.q.tmus = v.q.tmus ∧ (∀ o, o ∉ [4, 8, 0xC, 0x10, 0x14] → y.q.liveReg (tkey u o) = v.q.liveReg (tkey u o)) := by
    refine ⟨_, rfl, ?_⟩
    split
    · exact ⟨fun x hx => hasks x (hfx ▸ hx), by rw [hq], hother⟩
    · exact ⟨hasks, rfl, fun _ _ => rfl⟩
  obtain ⟨y, hy, hyasks, hytmus, hyreg⟩ := hz
  obtain ⟨hothers, ⟨live', hquire⟩, hreg, hsilent, hreplied⟩ := s.onQuire_replies q f (tmuOpenKeys u j.endCause) hyasks (waiter := j.waiter) (shown := tmuKeys u) (by
    rw [hf, hpub, hy])
  have hkeep : ∀ o, o ∉ [4, 8, 0xC, 0x10, 0x14] → ((s.onQuire q f).quire q).liveReg (tkey u o) = v.q.liveReg (tkey u o) := fun o ho => by
    refine (hreg _ fun hmem => ?_).trans (hyreg o ho)
    rw [tmuOpenKeys] at hmem
    split at hmem
    · exact List.not_mem_nil hmem
    · obtain ⟨o', ho', heq⟩ := List.mem_map.mp hmem
      exact ho (by_contra fun h => tkey_ne u (a := o') (b := o) (by rintro rfl; exact h ho') heq)
  exact {
    other := hothers
    tmus := by rw [hquire]; exact hytmus.trans htmus
    status := by
      rw [hkeep 0 (by decide), hstatus, TmuJob.statusWord, packW]
      simp
    stamps := (hkeep 0x18 (by decide)).trans hstamps
    edges := (hkeep 0x1C (by decide)).trans hedges
    time := by rw [hkeep 0x24 (by decide), hkeep 0x28 (by decide), hkeep 0x2C (by decide), ht0, ht1, ht2]
    counts := by
      rw [State.CountsOne, hkeep 0x30 (by decide)]
      exact hcounted
    silent := hsilent
    replied := fun d hd howes => by
      have h := hreplied d hd howes
      rw [tmuKeys, List.flatMap_map] at h
      exact h
    shows_ := fun hcause => by
      have hshow : ∀ o w, (o, w) ∈ [(4, BitVec.ofNat 32 (ofInt 64 j.results.1 / 2 ^ (32 * 0))), (8, BitVec.ofNat 32 (ofInt 64 j.results.1 / 2 ^ (32 * 1))),
          (0xC, BitVec.ofNat 32 (ofInt 64 j.results.2.1 / 2 ^ (32 * 0))), (0x10, BitVec.ofNat 32 (ofInt 64 j.results.2.1 / 2 ^ (32 * 1))), (0x14, BitVec.ofNat 32 j.results.2.2)] →
          ((s.onQuire q f).quire q).liveReg (tkey u o) = w := fun o w hw => by
        rw [hreg _ (by rw [tmuOpenKeys, if_pos hcause]; exact List.not_mem_nil), hy, if_pos hcause]
        exact hsame (by simp) o w hw
      exact ⟨(hshow 4 _ (by simp)).trans (resultWord_low _), (hshow 8 _ (by simp)).trans (resultWord_high _), (hshow 0xC _ (by simp)).trans (resultWord_low _), (hshow 0x10 _ (by simp)).trans (resultWord_high _),
        hshow 0x14 _ (by simp)⟩ }

/-- The line through the normal equations. -/
theorem normal_line {n sk skk t k b : ℚ} (hn : n ≠ 0) (hdet : n * skk - sk * sk ≠ 0) (hb : b = (n * k - sk * t) / (n * skk - sk * sk)) :
    n * ((t - b * sk) / n) + sk * b = t ∧ sk * ((t - b * sk) / n) + skk * b = k := by
  have hmul : b * (n * skk - sk * sk) = n * k - sk * t := by rw [hb, div_mul_cancel₀ _ hdet]
  constructor
  · field_simp
    ring
  · field_simp
    linarith

/-- The fit meets the normal equations of the least-squares line (R443). -/
theorem Stamps.fit_normal (c : Stamps) (hn : 3 ≤ c.n) : (c.n : ℚ) * c.fit.2 + c.n * (c.n - 1) / 2 * c.fit.1 = c.sumT
    ∧ (c.n : ℚ) * (c.n - 1) / 2 * c.fit.2 + (c.n - 1) * c.n * (2 * c.n - 1) / 6 * c.fit.1 = c.sumKT := by
  have hpos : (3 : ℚ) ≤ c.n := by exact_mod_cast hn
  refine normal_line (n := c.n) (by linarith) (ne_of_gt ?_) rfl
  have hdet : (c.n : ℚ) * ((c.n - 1) * c.n * (2 * c.n - 1) / 6) - c.n * (c.n - 1) / 2 * (c.n * (c.n - 1) / 2) = c.n ^ 2 * ((c.n - 1) * (c.n + 1)) / 12 := by ring
  rw [hdet]
  have hfactor : (0 : ℚ) < (c.n - 1) * (c.n + 1) := mul_pos (by linarith) (by linarith)
  positivity

/-! ### The PMU -/

section
variable {s : State} {q : QId} {j : PmuJob}

theorem pmuAperture_waits (hj : (s.quire q).pmu = some j) (hearly : s.time.ns < j.startNs) (settled : Nat) : (s.quire q).pmuAperture s.modeOz s.time.ns settled = s.quire q := by
  rw [Quire.pmuAperture, hj]
  dsimp only
  rw [if_pos (by simp [hearly])]

theorem pmuAperture_starts (hj : (s.quire q).pmu = some j) (hnot : j.started = false) (hdue : j.startNs ≤ s.time.ns) (settled : Nat) :
    (s.quire q).pmuAperture s.modeOz s.time.ns settled =
      ((({ s.quire q with pmu := some { j with started := true, timeNs := s.time.ns, late := decide (j.startNs ≠ 0 ∧ j.startNs < settled) } }.setLive
        (rk 0x0A 0x108) (timeWords s.modeOz s.time.ns).1).setLive (rk 0x0A 0x10C) (timeWords s.modeOz s.time.ns).2.1).setLive (rk 0x0A 0x110) (timeWords s.modeOz s.time.ns).2.2) := by
  rw [Quire.pmuAperture, hj]
  dsimp only
  rw [if_neg (by simp [hnot, Nat.not_lt.mpr hdue]), Bool.decide_and]

theorem Quire.setTime_live (x : Quire) (m : Option PmuJob) (w : Word × Word × Word) :
    ∃ l, ((({ x with pmu := m }.setLive (rk 0x0A 0x108) w.1).setLive (rk 0x0A 0x10C) w.2.1).setLive (rk 0x0A 0x110) w.2.2) = { x with live := l, pmu := m } := ⟨_, rfl⟩

/-- The three words of a time, written one after the other. -/
theorem Quire.setTime_shows (y : Quire) (w : Word × Word × Word) :
    (((y.setLive (rk 0x0A 0x108) w.1).setLive (rk 0x0A 0x10C) w.2.1).setLive (rk 0x0A 0x110) w.2.2).liveReg (rk 0x0A 0x108) = w.1
      ∧ (((y.setLive (rk 0x0A 0x108) w.1).setLive (rk 0x0A 0x10C) w.2.1).setLive (rk 0x0A 0x110) w.2.2).liveReg (rk 0x0A 0x10C) = w.2.1
      ∧ (((y.setLive (rk 0x0A 0x108) w.1).setLive (rk 0x0A 0x10C) w.2.1).setLive (rk 0x0A 0x110) w.2.2).liveReg (rk 0x0A 0x110) = w.2.2
      ∧ ∀ k, k ≠ rk 0x0A 0x108 → k ≠ rk 0x0A 0x10C → k ≠ rk 0x0A 0x110 →
        (((y.setLive (rk 0x0A 0x108) w.1).setLive (rk 0x0A 0x10C) w.2.1).setLive (rk 0x0A 0x110) w.2.2).liveReg k = y.liveReg k := by
  refine ⟨?_, ?_, rget_rput_same _ _ _, fun k h8 hC h10 => ?_⟩
  · rw [Quire.liveReg_setLive_other _ _ (by decide), Quire.liveReg_setLive_other _ _ (by decide)]
    exact rget_rput_same _ _ _
  · rw [Quire.liveReg_setLive_other _ _ (by decide)]
    exact rget_rput_same _ _ _
  · rw [Quire.liveReg_setLive_other _ _ h10, Quire.liveReg_setLive_other _ _ hC, Quire.liveReg_setLive_other _ _ h8]

/-- What the end of a measurement leaves, before its reply. -/
def Quire.pmuEnded (x : Quire) (j : PmuJob) (v : Int) (limited : Bool) : W :=
  (((x.w.upd fun q => { q with pmu := none }).setLive (rk 0x0A 0x104)
    (packW [(31, b2n (pmuCode v).2), (30, b2n (limited && decide (j.mode ≠ 2))), (29, b2n j.late), (28, 1), (0, ofInt 18 (pmuCode v).1)])).bump (rk 0x0A 0x114)).when
      (limited && decide (j.mode ≠ 2)) fun w => w.bump (rk 0x0A 0x118)

theorem pmuDone_started (hj : (s.quire q).pmu = some j) (hs : j.started = true) (v : Int) (limited : Bool) :
    (s.quire q).w.pmuDone v limited = match j.waiter with
      | some d => ((s.quire q).pmuEnded j v limited).ask (.replyLive d stOk 0 [rk 0x0A 0x100, rk 0x0A 0x104, rk 0x0A 0x108, rk 0x0A 0x10C, rk 0x0A 0x110])
      | none => (s.quire q).pmuEnded j v limited := by
  rw [W.pmuDone, Quire.w_q, hj]
  dsimp only
  rw [hs]
  rfl

theorem pmuDone_unstarted (hj : (s.quire q).pmu = some j) (hs : j.started = false) (v : Int) (limited : Bool) : (s.quire q).w.pmuDone v limited = (s.quire q).w := by
  rw [W.pmuDone, Quire.w_q, hj]
  dsimp only
  rw [hs]
  rfl

theorem Quire.pmuEnded_spec (x : Quire) (j : PmuJob) (v : Int) (limited : Bool) :
    (x.pmuEnded j v limited).Quiet ∧ (x.pmuEnded j v limited).q.pmu = none
      ∧ (x.pmuEnded j v limited).q.liveReg (rk 0x0A 0x104)
        = BitVec.ofNat 32 (2 ^ 31 * b2n (pmuCode v).2 + 2 ^ 30 * b2n (decide (limited = true ∧ j.mode ≠ 2)) + 2 ^ 29 * b2n j.late + 2 ^ 28 + ofInt 18 (pmuCode v).1)
      ∧ Counted 1 (x.liveReg (rk 0x0A 0x114)) ((x.pmuEnded j v limited).q.liveReg (rk 0x0A 0x114))
      ∧ Counted (b2n (decide (limited = true ∧ j.mode ≠ 2))) (x.liveReg (rk 0x0A 0x118)) ((x.pmuEnded j v limited).q.liveReg (rk 0x0A 0x118)) := by
  rw [Bool.decide_and, show decide (limited = true) = limited from Bool.decide_eq_true]
  have hset : ∀ k, k ≠ rk 0x0A 0x104 → ((x.w.upd fun q => { q with pmu := none }).setLive (rk 0x0A 0x104)
      (packW [(31, b2n (pmuCode v).2), (30, b2n (limited && decide (j.mode ≠ 2))), (29, b2n j.late), (28, 1), (0, ofInt 18 (pmuCode v).1)])).q.liveReg k = x.liveReg k := fun k hk =>
    Quire.liveReg_setLive_other _ _ hk
  have hword : ((x.w.upd fun q => { q with pmu := none }).setLive (rk 0x0A 0x104)
      (packW [(31, b2n (pmuCode v).2), (30, b2n (limited && decide (j.mode ≠ 2))), (29, b2n j.late), (28, 1), (0, ofInt 18 (pmuCode v).1)])).q.liveReg (rk 0x0A 0x104)
        = BitVec.ofNat 32 (2 ^ 31 * b2n (pmuCode v).2 + 2 ^ 30 * b2n (limited && decide (j.mode ≠ 2)) + 2 ^ 29 * b2n j.late + 2 ^ 28 + ofInt 18 (pmuCode v).1) := by
    refine (rget_rput_same _ _ _).trans ?_
    simp only [packW, List.foldl_cons, List.foldl_nil, Nat.zero_add, Nat.pow_zero, Nat.mul_one, Nat.one_mul]
  have hquiet : ((x.w.upd fun q => { q with pmu := none }).setLive (rk 0x0A 0x104)
      (packW [(31, b2n (pmuCode v).2), (30, b2n (limited && decide (j.mode ≠ 2))), (29, b2n j.late), (28, 1), (0, ofInt 18 (pmuCode v).1)])).Quiet := (x.w_quiet.upd _).upd _
  have hpmu : ((x.w.upd fun q => { q with pmu := none }).setLive (rk 0x0A 0x104)
      (packW [(31, b2n (pmuCode v).2), (30, b2n (limited && decide (j.mode ≠ 2))), (29, b2n j.late), (28, 1), (0, ofInt 18 (pmuCode v).1)])).q.pmu = none := rfl
  rw [Quire.pmuEnded]
  generalize (x.w.upd fun q => { q with pmu := none }).setLive (rk 0x0A 0x104)
    (packW [(31, b2n (pmuCode v).2), (30, b2n (limited && decide (j.mode ≠ 2))), (29, b2n j.late), (28, 1), (0, ofInt 18 (pmuCode v).1)]) = w at *
  have hcount := w.bump_counted (rk 0x0A 0x114) 1
  have hother : ∀ k, k ≠ rk 0x0A 0x114 → (w.bump (rk 0x0A 0x114)).q.liveReg k = w.q.liveReg k := fun k hk => w.bump_liveReg_other 1 hk
  have hpmu' : (w.bump (rk 0x0A 0x114)).q.pmu = none := (w.bump_field _ 1 (·.pmu) fun _ _ _ => rfl).trans hpmu
  rw [hset _ (by decide)] at hcount
  generalize (limited && decide (j.mode ≠ 2)) = lim at *
  cases lim with
  | false =>
    rw [W.when, if_neg Bool.false_ne_true]
    refine ⟨hquiet.bump _ _, hpmu', (hother _ (by decide)).trans hword, hcount, ?_⟩
    rw [hother _ (by decide), hset _ (by decide)]
    exact .refl _
  | true =>
    rw [W.when, if_pos rfl]
    have hcount' := (w.bump (rk 0x0A 0x114)).bump_counted (rk 0x0A 0x118) 1
    rw [hother _ (by decide), hset _ (by decide)] at hcount'
    refine ⟨(hquiet.bump _ _).bump _ _, (W.bump_field _ _ 1 (·.pmu) fun _ _ _ => rfl).trans hpmu', ?_, ?_, hcount'⟩
    · exact ((w.bump (rk 0x0A 0x114)).bump_liveReg_other 1 (by decide)).trans ((hother _ (by decide)).trans hword)
    · rw [(w.bump (rk 0x0A 0x114)).bump_liveReg_other 1 (by decide)]
      exact hcount

end

/-- The force parameter, sign-extended. -/
theorem pmuForce_eq (p : Params) : pmuForce p = (BitVec.ofNat 32 (par p 4 4)).toInt := by
  rw [pmuForce, sext, BitVec.toInt_eq_toNat_cond, BitVec.toNat_ofNat]
  split_ifs <;> omega

/-! ### The measurement that a command asks for -/

/-- The measurement that the parameters of TMU_MEASURE ask for, as it begins. -/
def State.tmuAsked (s : State) (p : Params) (d : ReplyTo) : TmuJob :=
  { mode := par p 1 1, srcA := BitVec.ofNat 8 (par p 2 1), srcB := BitVec.ofNat 8 (par p 3 1), slopeA := par p 4 1, slopeB := par p 5 1, holdA := par p 8 4, holdB := par p 12 4
    startN := par p 16 2, stopN := par p 18 2, prescale := par p 20 4, gateNs := par p 24 4, startNs := parT12 s.modeOz p 28, late := decide (parT12 s.modeOz p 28 ≠ 0 ∧ parT12 s.modeOz p 28 < s.time.ns)
    gateOpen := decide (s.timingRuns = true ∧ parT12 s.modeOz p 28 ≤ s.time.ns), gateClosed := false
    gateTime := if s.timingRuns = true ∧ parT12 s.modeOz p 28 ≤ s.time.ns then s.time.ns else 0, gateAt := if s.timingRuns = true ∧ parT12 s.modeOz p 28 ≤ s.time.ns then 4000 * s.time.ticks else 0
    a := .reset, b := .reset, startStamp := none, stopCount := 0, interval := none, stampLimit := false, cause := 0, waiter := if par p 6 1 = 1 then some d else none }

theorem State.tmuStarted_eq (s : State) (p : Params) (d : ReplyTo) (x : Quire) {u : TmuId} (hu : par p 0 1 = u.val) :
    s.tmuStarted p d x = ({ x with tmus := x.tmus.set u (some { s.tmuAsked p d with cause := if x.trainsOn (s.tmuAsked p d) then 8 else 0 }) } : Quire).setLive (tkey u 0)
      ((x.liveReg (tkey u 0) &&& 0x5F000000) ||| BitVec.ofNat 32 (2 ^ 29 * b2n (decide (parT12 s.modeOz p 28 ≠ 0 ∧ parT12 s.modeOz p 28 < s.time.ns)) + 2 ^ 16 * par p 1 1
        + 2 ^ 8 * (s.tmuAsked p d).srcB.toNat + (s.tmuAsked p d).srcA.toNat)) := by
  have hid : tmuId (par p 0 1) = u := by
    rw [hu]
    exact Fin.ext (Nat.mod_eq_of_lt u.isLt)
  have hword : ∀ a b c e : Nat, packW [(29, a), (16, b), (8, c), (0, e)] = BitVec.ofNat 32 (2 ^ 29 * a + 2 ^ 16 * b + 2 ^ 8 * c + e) := fun a b c e => by
    simp only [packW, List.foldl_cons, List.foldl_nil, Nat.zero_add, Nat.pow_zero, Nat.one_mul]
  rw [State.tmuStarted, hid, Quire.startTmu]
  dsimp only
  rw [hword]
  unfold State.tmuAsked
  by_cases hopen : s.timingRuns = true ∧ parT12 s.modeOz p 28 ≤ s.time.ns
  · have hcond : (s.timingRuns && decide ((tmuJob s.modeOz p d).startNs ≤ s.time.ns)) = true := by
      rw [hopen.1]
      exact decide_eq_true hopen.2
    rw [if_pos hcond, Bool.decide_and, if_pos hopen, if_pos hopen, decide_eq_true hopen]
    rfl
  · have hcond : ¬(s.timingRuns && decide ((tmuJob s.modeOz p d).startNs ≤ s.time.ns)) = true := fun h => hopen ⟨(Bool.and_eq_true_iff.mp h).1, of_decide_eq_true (Bool.and_eq_true_iff.mp h).2⟩
    rw [if_neg hcond, Bool.decide_and, if_neg hopen, if_neg hopen, decide_eq_false hopen]
    rfl

/-! ### A stamp that enters a fit (R441, R442, R446) -/

section
variable (c : Stamps) {prescale : Nat} {t : Int}

theorem Stamps.fitted_full (h : 65536 ≤ c.n) : c.fitted prescale t = (c, true, false) := if_pos h

theorem Stamps.fitted_skipped (h : c.n < 65536) (hedge : c.edges % prescale ≠ 0) : c.fitted prescale t = (c, false, false) := by
  rw [Stamps.fitted, if_neg (not_le.mpr h), if_pos hedge]

theorem Stamps.fitted_soon (h : c.n < 65536) (hedge : c.edges % prescale = 0) (hn : 0 < c.n) (hsoon : t - c.lastT < 2000) : c.fitted prescale t = (c, false, true) := by
  rw [Stamps.fitted, if_neg (not_le.mpr h), if_neg (not_not.mpr hedge), if_pos ⟨hn.ne', hsoon⟩]

theorem Stamps.fitted_stamped (h : c.n < 65536) (hedge : c.edges % prescale = 0) (hlate : c.n = 0 ∨ 2000 ≤ t - c.lastT) : c.fitted prescale t = (c.stamp t, false, false) := by
  rw [Stamps.fitted, if_neg (not_le.mpr h), if_neg (not_not.mpr hedge), if_neg (by omega)]

end

/-! ### The end of a measurement -/

section
variable {x : Quire} {u : TmuId} {j : TmuJob} (hj : x.tmus[u] = some j)
include hj

theorem Quire.gateClose_fits (oz : Bool) (hopen : j.gateOpen = true) (hclosed : j.gateClosed = false) (hmode : j.mode = 1 ∨ j.mode = 2) :
    x.w.tmuGateClose oz u = (x.setTmu u { j with gateClosed := true }).w := by
  rw [W.tmuGateClose, Quire.w_q, hj]
  dsimp only
  rw [hopen, hclosed, if_neg (by decide), if_pos (by simpa using hmode)]
  rfl

theorem Quire.gateClose_publishes (oz : Bool) (hopen : j.gateOpen = true) (hclosed : j.gateClosed = false) (hmode : ¬(j.mode = 1 ∨ j.mode = 2)) :
    x.w.tmuGateClose oz u = x.w.tmuPublish oz u j := by
  rw [W.tmuGateClose, Quire.w_q, hj]
  dsimp only
  rw [hopen, hclosed, if_neg (by decide), if_neg (by simpa using hmode)]

theorem Quire.fitDone_publishes (oz : Bool) (hclosed : j.gateClosed = true) : x.w.tmuFitDone oz u = x.w.tmuPublish oz u j := by
  rw [W.tmuFitDone, Quire.w_q, hj]
  exact if_pos hclosed

theorem Quire.fitDone_early (oz : Bool) (hclosed : j.gateClosed = false) : x.w.tmuFitDone oz u = x.w := by
  rw [W.tmuFitDone, Quire.w_q, hj]
  dsimp only
  rw [hclosed]
  rfl

end

end Sys2Proof.Machine

namespace Sys2Proof.Proofs
open Sys2Proof.Machine

/-- Settles O45: a crossing is qualified or not, in the gate or not; a measurement publishes through one lemma, and its fit meets the normal equations. -/
theorem measurements : Obligations.Measurements := by
  unfold Obligations.Measurements
  constructor
  · intro s h p q u j ch rising t x key puts is start opens passed asked began edge instant inGate used crosses qualifiedA qualifiedB takesA takesB seenA seenB stamped deskewed publishes shows_ line residual
    refine ⟨fun ht hq hc hu => ?begins, fun hj => ?_⟩
    case begins =>
      have hstart : s.tmuStarted p (hdrDest h opTmuMeasure.opcode) x = began := s.tmuStarted_eq p _ x hu
      have hexec := exec_tmuMeasure ht hq hc
      refine ⟨fun hwait => ?_, fun hwait => ?_⟩
      · rw [if_pos hwait] at hexec
        have hbegins := State.begins_map (by decide) (fun u => u.modQuire q (s.tmuStarted p (hdrDest h opTmuMeasure.opcode))) hexec (fun _ => rfl) rfl
        rw [← hstart]
        exact hbegins
      · rw [if_neg (by omega)] at hexec
        rw [← hstart]
        exact State.answers_modQuire ht (by decide) q _ hexec rfl
    have hedge : ∀ j', x.pinsHold = false → x.tmuCrossing s.time.ticks j ch rising t = j' → edge j' := fun j' hp hcross => by
      subst hcross
      exact congrArg Host.Outcome.next (tmuEdge_free hj hp ch rising t)
    have hqa : qualifiedA → ch = .a ∧ x.qualifies j.srcA j.slopeA j.holdA j.a.lastEdge rising (j.instant s.time.ticks t) = true := fun ⟨hch, hq⟩ => ⟨hch, (x.qualifies_iff _ _ _ _ _ _).mpr hq⟩
    have hqb : qualifiedB → ch = .b ∧ (j.mode = 0 ∨ j.mode = 2) ∧ x.qualifies j.srcB j.slopeB j.holdB j.b.lastEdge rising (j.instant s.time.ticks t) = true := fun ⟨hch, hcross, hmode, hused⟩ =>
      ⟨hch, hmode, (x.qualifies_iff _ _ _ _ _ _).mpr ⟨hcross, hused⟩⟩
    have hout : ¬inGate → (!j.gateOpen || j.gateClosed || decide (t < 0) || decide (4000 * (j.gateNs : Int) ≤ t)) = true := fun h => TmuJob.inGate_iff.mpr h
    have hin : inGate → ¬(!j.gateOpen || j.gateClosed || decide (t < 0) || decide (4000 * (j.gateNs : Int) ≤ t)) = true := fun h h' => TmuJob.inGate_iff.mp h' h
    have hta : takesA → ∀ j', (j.edgeA t (x.stampDeskew j.srcA)).holdOff instant .a = j' → edge j' := fun ⟨hp, hqual, hgate⟩ j' hj' => by
      obtain ⟨rfl, hq⟩ := hqa hqual
      subst hj'
      exact hedge _ hp (by rw [Quire.tmuCrossing_a, if_pos hq, if_neg (hin hgate)]; rfl)
    have htb : takesB → ∀ j', (j.edgeB t (x.stampDeskew j.srcA) (x.stampDeskew j.srcB)).holdOff instant .b = j' → edge j' := fun ⟨hp, hqual, hgate⟩ j' hj' => by
      obtain ⟨rfl, hmode, hq⟩ := hqb hqual
      subst hj'
      exact hedge _ hp (by rw [Quire.tmuCrossing_b hmode, if_pos hq, if_neg (hin hgate)]; rfl)
    refine ⟨fun hclosed hruns hdue => ?_, fun hearly => ?_, fun hp hna hnb => ?_, fun hp hqual hgate => ?_, fun hp hqual hgate => ?_, fun htakes hmode hnone => ?_, fun htakes hmode => ?_,
      fun htakes hmode => ⟨fun hn => ?_, fun hn => ?_⟩, fun htakes hmode s0 hs0 => ⟨fun hlt hn => ?_, fun hlt hn => ?_, fun hle => ?_⟩,
      fun htakes hmode => ⟨fun hn hpre hlate => ?_, fun hn hpre => ?_, fun hpos hn hpre hsoon => ?_, fun hn => ?_⟩, fun hopen hclosed => ?close, fun hopen hclosed => ?fit, fun hclosed => ?early⟩
    · refine congrArg Host.Outcome.next ?_
      rw [tmuGateOpen, hj]
      dsimp only
      rw [hruns, hclosed, decide_eq_true hdue]
      rfl
    · refine congrArg Host.Outcome.next ?_
      rw [tmuGateOpen, hj]
      dsimp only
      rw [decide_eq_false (not_le.mpr hearly), Bool.and_false]
      rfl
    · refine congrArg Host.Outcome.next ((tmuEdge_free hj hp ch rising t).trans ?_)
      have hsame : x.tmuCrossing s.time.ticks j ch rising t = j := by
        cases ch with
        | a => exact Quire.tmuCrossing_a.trans (if_neg fun h => hna ⟨rfl, (x.qualifies_iff _ _ _ _ _ _).mp h⟩)
        | b =>
          by_cases hmode : j.mode = 0 ∨ j.mode = 2
          · exact (Quire.tmuCrossing_b hmode).trans (if_neg fun h => hnb ⟨rfl, ((x.qualifies_iff _ _ _ _ _ _).mp h).1, hmode, ((x.qualifies_iff _ _ _ _ _ _).mp h).2⟩)
          · exact Quire.tmuCrossing_unused hmode
      rw [hsame, Quire.setTmu_same hj]
      exact s.setQuire_quire q
    · obtain ⟨rfl, hq⟩ := hqa hqual
      exact hedge _ hp (by rw [Quire.tmuCrossing_a, if_pos hq, if_pos (hout hgate)]; rfl)
    · obtain ⟨rfl, hmode, hq⟩ := hqb hqual
      exact hedge _ hp (by rw [Quire.tmuCrossing_b hmode, if_pos hq, if_pos (hout hgate)]; rfl)
    · exact htb htakes _ (by rw [j.edgeB_interval _ _ hmode, hnone]; rfl)
    · exact hta htakes _ (by rw [j.edgeA_count _ _ hmode]; rfl)
    · exact hta htakes _ (by rw [j.edgeA_interval _ _ hmode, if_pos hn]; rfl)
    · exact hta htakes _ (by rw [j.edgeA_interval _ _ hmode, if_neg hn]; rfl)
    · exact htb htakes _ (by rw [j.edgeB_interval _ _ hmode, hs0]; dsimp only; rw [if_pos hlt, if_neg hn]; rfl)
    · exact htb htakes _ (by rw [j.edgeB_interval _ _ hmode, hs0]; dsimp only; rw [if_pos hlt, if_pos hn]; rfl)
    · exact htb htakes _ (by rw [j.edgeB_interval _ _ hmode, hs0]; dsimp only; rw [if_neg (not_lt.mpr hle)]; rfl)
    · exact hta htakes _ (by rw [j.edgeA_fitted _ _ hmode, j.a.fitted_stamped hn hpre hlate]; simp only [Bool.or_false, Bool.false_eq_true, false_and, if_false]; rfl)
    · exact hta htakes _ (by rw [j.edgeA_fitted _ _ hmode, j.a.fitted_skipped hn hpre]; simp only [Bool.or_false, Bool.false_eq_true, false_and, if_false]; rfl)
    · exact hta htakes _ (by rw [j.edgeA_fitted _ _ hmode, j.a.fitted_soon hn hpre hpos hsoon]; simp only [Bool.or_false, true_and]; rfl)
    · exact hta htakes _ (by rw [j.edgeA_fitted _ _ hmode, j.a.fitted_full hn]; simp only [Bool.or_true, Bool.false_eq_true, false_and, if_false]; rfl)
    case close =>
      have hpub : ¬(j.mode = 1 ∨ j.mode = 2) → s.Published q u j j.endCause (s.onQuire q fun x => x.w.tmuGateClose s.modeOz u) := fun hmode =>
        s.publishes q u j _ (Quire.gateClose_publishes hj _ hopen hclosed hmode) hopen
      refine ⟨fun hmode => s.exec_setQuire _ q (fun x => x.w.tmuGateClose s.modeOz u) _ rfl (Quire.gateClose_fits hj _ hopen hclosed hmode), fun hmode hcause => ?_, fun hmode hcause hnone => ?_, fun v hmode hcause hv => ?_⟩
      · have hend : j.endCause = 0 := by simp [TmuJob.endCause, hcause, hmode]
        have h := hpub (by omega)
        rw [hend] at h
        exact ⟨_, rfl, h.other, h.tmus, h.status, h.stamps, h.edges, h.time, h.counts, h.silent, h.replied, trivial⟩
      · have hend : j.endCause = 1 := by simp [TmuJob.endCause, hcause, hmode, hnone]
        have h := hpub (by omega)
        rw [hend] at h
        exact ⟨_, rfl, h.other, h.tmus, h.status, h.stamps, h.edges, h.time, h.counts, h.silent, h.replied, trivial⟩
      · have hend : j.endCause = 0 := by simp [TmuJob.endCause, hcause, hmode, hv]
        have h := hpub (by omega)
        rw [hend] at h
        obtain ⟨hlow, hhigh, -⟩ := h.shows_ rfl
        have hres : j.results.1 = v := by
          unfold TmuJob.results
          rw [hmode, hv]
          rfl
        rw [hres] at hlow hhigh
        exact ⟨_, rfl, h.other, h.tmus, h.status, h.stamps, h.edges, h.time, h.counts, h.silent, h.replied, hlow, hhigh⟩
    case fit =>
      have hpub : s.Published q u j j.endCause (s.onQuire q fun x => x.w.tmuFitDone s.modeOz u) := s.publishes q u j _ (Quire.fitDone_publishes hj _ hclosed) hopen
      have hresults : j.mode = 1 → j.results = (attoseconds (j.a.fit.1 / j.prescale), attoseconds j.a.fit.2, j.a.residualFs) := fun hmode => by
        unfold TmuJob.results
        rw [hmode]
        rfl
      have hresults2 : j.mode = 2 → j.results = (attoseconds (j.a.fit.1 / j.prescale), attoseconds (reduced (j.b.fit.2 - j.a.fit.2) (j.a.fit.1 / j.prescale)), j.a.residualFs) := fun hmode => by
        unfold TmuJob.results
        rw [hmode]
        rfl
      refine ⟨fun hmode hcause hn => ?_, fun hmode hcause hn hm => ?_, fun hmode hcause hn => ?_, fun hcause => ?_⟩
      · have hend : j.endCause = 0 := by simp [TmuJob.endCause, hcause, hmode, Nat.not_lt.mpr hn]
        have h := hpub
        rw [hend] at h
        obtain ⟨h4, h8, hC, h10, h14⟩ := h.shows_ rfl
        rw [hresults hmode] at h4 h8 hC h10 h14
        exact ⟨_, rfl, h.other, h.tmus, h.status, h.stamps, h.edges, h.time, h.counts, h.silent, h.replied, j.a.fit.2, j.a.fit.1, j.a.fit_normal hn, ⟨h4, h8⟩, ⟨hC, h10⟩, h14⟩
      · have hend : j.endCause = 0 := by simp [TmuJob.endCause, hcause, hmode, Nat.not_lt.mpr hn, Nat.not_lt.mpr hm]
        have h := hpub
        rw [hend] at h
        obtain ⟨h4, h8, hC, h10, h14⟩ := h.shows_ rfl
        rw [hresults2 hmode] at h4 h8 hC h10 h14
        exact ⟨_, rfl, h.other, h.tmus, h.status, h.stamps, h.edges, h.time, h.counts, h.silent, h.replied, j.a.fit.2, j.a.fit.1, j.b.fit.2, j.b.fit.1, j.a.fit_normal hn, j.b.fit_normal hm, ⟨h4, h8⟩,
          ⟨hC, h10⟩, h14⟩
      · have hend : j.endCause = 2 := by
          rw [TmuJob.endCause, if_neg (not_not.mpr hcause), if_neg (by omega), if_pos ⟨hmode, .inl hn⟩]
        have h := hpub
        rw [hend] at h
        exact ⟨_, rfl, h.other, h.tmus, h.status, h.stamps, h.edges, h.time, h.counts, h.silent, h.replied, trivial⟩
      · have hend : j.endCause = j.cause := by rw [TmuJob.endCause, if_pos hcause]
        have h := hpub
        rw [hend] at h
        exact ⟨_, rfl, h.other, h.tmus, h.status, h.stamps, h.edges, h.time, h.counts, h.silent, h.replied, trivial⟩
    case early =>
      refine (s.exec_setQuire _ q (fun x => x.w.tmuFitDone s.modeOz u) x rfl (Quire.fitDone_early hj _ hclosed)).trans (congrArg Host.Outcome.next ?_)
      exact s.setQuire_quire q
  · intro s h p q j settled v limited x start asked began now lim ends
    refine ⟨fun ht hq hc => ?begins, fun hj hnot => ⟨fun hdue => ?_, fun hearly => ?_, ?_⟩, fun hj hs => ?done⟩
    case begins =>
      have hbegan : x.startPmu s.modeOz p (hdrDest h opPmuMeasure.opcode) = began := by
        have hword : ∀ a b c : Nat, packW [(26, a), (24, b), (16, c)] = BitVec.ofNat 32 (2 ^ 26 * a + 2 ^ 24 * b + 2 ^ 16 * c) := fun a b c => by
          simp only [packW, List.foldl_cons, List.foldl_nil, Nat.zero_add]
        rw [Quire.startPmu, hword, pmuForce_eq]
        rfl
      have hexec := exec_pmuMeasure ht hq hc
      rw [← hbegan]
      refine ⟨fun hwait => ?_, fun hwait => ?_⟩
      · rw [if_pos hwait] at hexec
        exact State.begins_map (by decide) (fun u => u.modQuire q fun x => x.startPmu s.modeOz p (hdrDest h opPmuMeasure.opcode)) hexec (fun _ => rfl) rfl
      · rw [if_neg (by omega)] at hexec
        exact State.answers_modQuire ht (by decide) q _ hexec rfl
    case done =>
      obtain ⟨hquiet, hpmu, hstatus, hcount, hlim⟩ := x.pmuEnded_spec j v limited
      obtain ⟨hother, ⟨l, hquire⟩, hreg, hsilent, hreplied⟩ := s.onQuire_replies q (fun x => x.w.pmuDone v limited) [] (fun y hy => .inl (hquiet y hy)) (waiter := j.waiter)
        (shown := [rk 0x0A 0x100, rk 0x0A 0x104, rk 0x0A 0x108, rk 0x0A 0x10C, rk 0x0A 0x110]) (by rw [pmuDone_started hj hs])
      have hends : ∀ code sat, pmuCode v = (code, sat) → ends code sat := fun code sat hcode => by
        rw [hcode, ← hreg _ List.not_mem_nil] at hstatus
        rw [← hreg _ List.not_mem_nil] at hcount hlim
        exact ⟨_, rfl, hother, by rw [hquire]; exact hpmu, hstatus, hcount, hlim, hsilent, fun d hd howes => hreplied d hd howes⟩
      refine ⟨fun hover => hends _ _ (if_pos hover), fun hunder => hends _ _ ?_, fun hlow hhigh => hends _ _ ?_⟩
      · rw [pmuCode, if_neg (by omega), if_pos hunder]
      · rw [pmuCode, if_neg (by omega), if_neg (by omega)]
    · refine ⟨_, x.pmuAperture s.modeOz s.time.ns settled, rfl, rfl, ?_⟩
      rw [pmuAperture_starts hj hnot hdue]
      obtain ⟨h8, hC, h10, hother⟩ := ({ x with pmu := some { j with started := true, timeNs := s.time.ns, late := decide (j.startNs ≠ 0 ∧ j.startNs < settled) } } : Quire).setTime_shows now
      obtain ⟨l, hl⟩ := x.setTime_live (some { j with started := true, timeNs := s.time.ns, late := decide (j.startNs ≠ 0 ∧ j.startNs < settled) }) now
      exact ⟨by rw [hl], Prod.ext h8 (Prod.ext hC h10), hother⟩
    · refine congrArg Host.Outcome.next ?_
      rw [State.modQuire, pmuAperture_waits hj hearly]
      exact s.setQuire_quire q
    · refine (s.exec_setQuire _ q (fun x => x.w.pmuDone v limited) x rfl (pmuDone_unstarted hj hnot v limited)).trans (congrArg Host.Outcome.next ?_)
      exact s.setQuire_quire q

end Sys2Proof.Proofs

end

section

/-! # STOP of a quire while a Spine restart waits for the commands that occupy quires

A restart that is wanted waits until no command occupies a quire (R637). The reply of a STOP lets the quires go that its own earlier part still occupies;
where those are the last ones, the restart is due before the reply leaves, and the reply is held back until the Spine has restarted. -/

namespace Sys2Proof.Machine

/-- STOP of quire 0 on link 0, before its checksum is filled in. -/
def stopHead : Hdr :=
  { link := 0, cls := .ctrl, crc := 0, reads := { word := 0, outcome := .good, corrupt := [] }, version := 1, session := 8, tag := 1, qmask := 1, flags := 0, length := 0, detail := 0, rsv := 0 }

/-- STOP of quire 0 on link 0. -/
def stopHdr : Hdr := { stopHead with crc := crc32c (headerBytes stopHead opStop.opcode) }

/-- The chip with a session on link 0 that owns quire 0, which is ARMED; a part of a STOP under the same tag still occupies quire 1, and a Spine restart waits for that. -/
def restartAwaited : State :=
  { stewarded with
    spine := { stewarded.spine with restartWanted := some (none, false) }
    quires := ((Vector.replicate 8 Quire.reset).set 0 { Quire.reset with owner := some 0, state := .armed }).set 1 { Quire.reset with occupied := some (.ended (hdrDest stopHdr 0x13)) } }

theorem restartAwaited_takes : restartAwaited.Takes opStop stopHdr [] := by
  have hbuf : restartAwaited.buffered stopHdr.link stopHdr.cls = none := by decide +kernel
  have hnew : tagUse opStop stopHdr restartAwaited = .new := tagUse_fresh fun _ => ⟨by unfold State.TagBusy; decide +kernel, by decide +kernel⟩
  exact ⟨by decide +kernel, by decide +kernel, by decide +kernel, hnew, by decide +kernel, by decide +kernel, by decide +kernel, by decide +kernel, by decide +kernel,
    by decide +kernel, fun bytes hb => absurd (hbuf.symm.trans hb) (by simp)⟩

/-- The reply of the STOP is held back, and not sent. -/
theorem restartAwaited_holds : (front .stop opStop.opcode stopHdr [] restartAwaited doStop).sent = [] ∧ (front .stop opStop.opcode stopHdr [] restartAwaited doStop).heldReplies.length = 1 := by
  decide +kernel

end Sys2Proof.Machine

namespace Sys2Proof.Proofs
open Sys2Proof.Machine

/-- Refutes O34: a STOP that lets go the last occupied quire does not answer while a Spine restart is wanted. -/
theorem not_stopPauseResume : ¬ Obligations.StopPauseResume := by
  unfold Obligations.StopPauseResume
  intro h
  obtain ⟨hstop, -⟩ := h restartAwaited stopHdr [] 0 (hdrDest stopHdr 0x13)
  obtain ⟨harmed, -⟩ := hstop restartAwaited_takes (by decide +kernel)
  obtain ⟨t, hexec, hsent, -⟩ := harmed (by decide +kernel) (by decide +kernel)
  obtain rfl : front .stop opStop.opcode stopHdr [] restartAwaited doStop = t := Host.Outcome.next.inj hexec
  rw [State.Answers, restartAwaited_holds.1] at hsent
  exact absurd (congrArg List.length hsent) (by simp)

end Sys2Proof.Proofs

end

section

/-! # SNAPSHOT of a quire while a Spine restart waits for the commands that occupy quires

The records of a SNAPSHOT complete it quire by quire, as the parts of a STOP do: where its reply lets the last occupied quires go, a restart that is
wanted is due before the reply leaves, and holds it back (R637). -/

namespace Sys2Proof.Machine

/-- The parameters of a SNAPSHOT of the present moment. -/
def snapshotNow : Params := List.replicate 12 0

/-- SNAPSHOT of quire 0 on link 0, before its checksum is filled in. -/
def snapshotHead : Hdr := { stopHead with length := 12 }

/-- SNAPSHOT of quire 0 on link 0. -/
def snapshotHdr : Hdr := { snapshotHead with crc := crc32c (headerBytes snapshotHead opSnapshot.opcode ++ snapshotNow) }

/-- The chip with a session on link 0 that owns quire 0, which is PARKED; a part of a SNAPSHOT under the same tag still occupies quire 1, and a Spine restart waits for that. -/
def snapshotAwaited : State :=
  { restartAwaited with
    quires := ((Vector.replicate 8 Quire.reset).set 0 { Quire.reset with owner := some 0, state := .parked }).set 1 { Quire.reset with occupied := some (.ended (hdrDest snapshotHdr 0x33)) } }

theorem snapshotAwaited_takes : snapshotAwaited.Takes opSnapshot snapshotHdr snapshotNow := by
  have hbuf : snapshotAwaited.buffered snapshotHdr.link snapshotHdr.cls = none := by decide +kernel
  have hnew : tagUse opSnapshot snapshotHdr snapshotAwaited = .new := tagUse_fresh fun _ => ⟨by unfold State.TagBusy; decide +kernel, by decide +kernel⟩
  exact ⟨by decide +kernel, by decide +kernel, by decide +kernel, hnew, by decide +kernel, by decide +kernel, by decide +kernel, by decide +kernel, by decide +kernel,
    by decide +kernel, fun bytes hb => absurd (hbuf.symm.trans hb) (by simp)⟩

/-- The reply of the SNAPSHOT is held back, and not sent. -/
theorem snapshotAwaited_holds :
    (front .snapshot opSnapshot.opcode snapshotHdr snapshotNow snapshotAwaited doSnapshot).sent = []
      ∧ (front .snapshot opSnapshot.opcode snapshotHdr snapshotNow snapshotAwaited doSnapshot).heldReplies.length = 1 := by
  decide +kernel

end Sys2Proof.Machine

namespace Sys2Proof.Proofs
open Sys2Proof.Machine

/-- Refutes O37: a SNAPSHOT that lets go the last occupied quire does not answer while a Spine restart is wanted. -/
theorem not_readingResults : ¬ Obligations.ReadingResults := by
  unfold Obligations.ReadingResults
  intro h
  obtain ⟨-, -, -, hsnapshot, -⟩ := h snapshotAwaited snapshotHdr snapshotNow 0 { dest := hdrDest snapshotHdr 0x33, mask := 0, atNs := 0 } { outcome := .good, entry := 0 } []
  obtain ⟨hnow, -⟩ := hsnapshot snapshotAwaited_takes (by decide +kernel) (by decide +kernel)
  obtain ⟨t, hexec, hsent, -⟩ := hnow (by decide +kernel)
  obtain rfl : front .snapshot opSnapshot.opcode snapshotHdr snapshotNow snapshotAwaited doSnapshot = t := Host.Outcome.next.inj hexec
  rw [State.Answers, snapshotAwaited_holds.1] at hsent
  exact absurd (congrArg List.length hsent) (by simp)

end Sys2Proof.Proofs

end

section

/-! # What a compare result leaves (R368 to R393)

The steps of one vector's compares, each with what it changes and which counters it counts; events of markers leave the capture counters alone. -/

namespace Sys2Proof.Machine

/-! ### Events of markers -/

/-- A step of marker events alone: markers, and counters below those of capture. -/
structure W.Marks (w v : W) : Prop where
  marked : w.q.Marked v.q
  quiet : w.Quiet → v.Quiet
  kept : ∀ k, rk 0x0C 0 ≤ k → v.q.liveReg k = w.q.liveReg k

theorem W.Marks.refl (w : W) : w.Marks w := ⟨Quire.Marked.refl _, id, fun _ _ => rfl⟩

theorem W.Marks.trans {u v w : W} (h : u.Marks v) (h' : v.Marks w) : u.Marks w :=
  ⟨h.marked.trans h'.marked, h'.quiet ∘ h.quiet, fun k hk => (h'.kept k hk).trans (h.kept k hk)⟩

theorem W.Marks.each {α : Type} (w : W) (l : List α) (f : W → α → W) (hf : ∀ (v : W), ∀ a ∈ l, v.Marks (f v a)) : w.Marks (w.each l f) :=
  List.foldlRecOn (motive := w.Marks) l f (.refl w) fun v hv a ha => hv.trans (hf v a ha)

theorem W.marks_bump (w : W) {k : Nat} (hk : k < rk 0x0C 0) (n : Nat) : w.Marks (w.bump k n) :=
  ⟨(w.bump_counts k n).marked, fun h => h.bump k n, fun j hj => w.bump_liveReg_other n (by omega)⟩

theorem W.marks_withMarkers (w : W) (l : List Marker) : w.Marks { w with q := w.q.withMarkers l } := ⟨Quire.marked_withMarkers _ _, id, fun _ _ => rfl⟩

theorem W.marks_markerEvent (w : W) {m : Nat} (hm : m < 2) (n b : Nat) : w.Marks (w.markerEvent m n b) := by
  unfold W.markerEvent
  extract_lets t w1 was w2
  have h1 : w.Marks w1 := ⟨w.q.marked_markerTick t, id, fun _ _ => rfl⟩
  have h2 : w1.Marks w2 := w1.marks_withMarkers _
  split
  · exact h1.trans h2
  · exact (h1.trans h2).trans (w2.marks_bump (by simp only [rk]; omega) 1)

theorem W.marks_awaited (w : W) (find : Nat → Option (Nat × Nat)) {m : Nat} (hm : m < 2) : w.Marks (w.awaited find m) :=
  (w.marks_withMarkers _).trans (.each _ _ _ fun v b _ => v.marks_markerEvent hm b.1 (v.q.origin + b.2))

theorem W.marks_markerAwaited (w : W) (find : Nat → Option (Nat × Nat)) : w.Marks (w.markerAwaited find) := by
  rw [W.markerAwaited_eq]
  exact (w.marks_awaited find (by decide)).trans (W.marks_awaited _ find (by decide))

theorem W.marks_failEvent (w : W) {m : Nat} (hm : m < 2) (t : Nat) : w.Marks (w.failEvent m t) := by
  unfold W.failEvent
  split
  · exact w.marks_markerEvent hm _ _
  · exact w.marks_withMarkers _

theorem W.marks_failMarker (w : W) (p : Play) (c : Chunk) (v : Nat) (pins : List Nat) : w.Marks (w.failMarker p c v pins) := by
  unfold W.failMarker
  split
  · exact .refl w
  · refine .each w _ _ fun u m hm => ?_
    have hm : m < 2 := by
      simp only [List.mem_cons, List.not_mem_nil, or_false] at hm
      omega
    dsimp only
    split
    · exact .each u _ _ fun z t _ => z.marks_failEvent hm t
    · exact .refl u

theorem Quire.heldFor_zero (x : Quire) : x.heldFor 0 = x := by
  unfold Quire.heldFor
  rw [Nat.zero_mul, if_pos rfl]
  rfl

/-- Hold vectors that have begun are laid out, and markers have their events among them. -/
theorem W.holdOn_marks (w : W) (c : Ctx) : ∃ k, (w.upd fun x => x.heldFor k).Marks (w.holdOn c) := by
  unfold W.holdOn
  split
  · exact ⟨_, W.marks_markerAwaited (w.upd fun x => x.heldFor (w.q.holdsTo (c.ticks * 4000))) _⟩
  · have hzero : (w.upd fun x => x.heldFor 0) = w := by
      show ({ w with q := w.q.heldFor 0 } : W) = w
      rw [Quire.heldFor_zero]
    exact ⟨0, hzero.symm ▸ .refl w⟩

/-! ### The counters of failing compares (R373 to R381) -/

theorem setBit_getLsbD (m : Word) (i : Nat) {j : Nat} (hj : j < 32) : (setBit m i).getLsbD j = (m.getLsbD j || decide (j = i)) := by
  rw [setBit, BitVec.getLsbD_or, BitVec.getLsbD_ofNat, decide_eq_true hj, Bool.true_and, Nat.testBit_two_pow]
  simp only [eq_comm]

theorem maskOf_getLsbD (l : List Nat) {j : Nat} (hj : j < 32) : (maskOf l).getLsbD j = decide (j ∈ l) := by
  have hfold : ∀ (l : List Nat) (m : Word), (l.foldl setBit m).getLsbD j = (m.getLsbD j || decide (j ∈ l)) := by
    intro l
    induction l with
    | nil => simp
    | cons i l ih =>
      intro m
      rw [List.foldl_cons, ih, setBit_getLsbD m i hj, Bool.or_assoc, ← Bool.decide_or]
      exact congrArg _ (decide_eq_decide.mpr List.mem_cons.symm)
  rw [maskOf, hfold]
  simp

/-- The fails of the pins of a list count one each (R373). -/
theorem W.pinCounts (l : List Nat) (hl : l.Nodup) (w : W) :
    let v := l.foldl (fun w p => W.bump w (rk 0x0C (0x300 + 4 * p))) w
    w.q.Counts v.q ∧ (w.Quiet → v.Quiet) ∧ (∀ i, Counted (if i ∈ l then 1 else 0) (w.q.liveReg (rk 0x0C (0x300 + 4 * i))) (v.q.liveReg (rk 0x0C (0x300 + 4 * i))))
      ∧ ∀ k, (∀ i ∈ l, k ≠ rk 0x0C (0x300 + 4 * i)) → v.q.liveReg k = w.q.liveReg k := by
  induction l generalizing w with
  | nil => exact ⟨.refl _, id, fun _ => Counted.refl _, fun _ _ => rfl⟩
  | cons p l ih =>
    obtain ⟨hp, hl⟩ := List.nodup_cons.mp hl
    obtain ⟨hcounts, hquiet, hpins, hkept⟩ := ih hl (w.bump (rk 0x0C (0x300 + 4 * p)))
    refine ⟨(w.bump_counts _ _).trans hcounts, fun h => hquiet (h.bump _ _), fun i => ?_, fun k hk => ?_⟩
    · have hthen := hpins i
      by_cases hi : i = p
      · subst hi
        rw [if_neg hp] at hthen
        rw [if_pos List.mem_cons_self]
        exact (w.bump_counted _ 1).trans hthen
      · rw [w.bump_liveReg_other 1 (by simp only [rk]; omega)] at hthen
        simp only [List.mem_cons, hi, false_or]
        exact hthen
    · rw [List.foldl_cons, hkept k fun i hi => hk i (List.mem_cons_of_mem _ hi), w.bump_liveReg_other 1 (hk p List.mem_cons_self)]

/-- An instance with `n` fails more (R399, R404). -/
def Inst.failed (i : Inst) (n : Nat) : Inst := { i with fails := (satAdd 32 i.fails n).1, causes := i.causes ||| 1 }

theorem Inst.failed_eq (i : Inst) (n : Nat) : i.failed n = { i with fails := min (i.fails + n) (2 ^ 32 - 1), causes := i.causes ||| 1 } := by
  have hadd : (satAdd 32 i.fails n).1 = min (i.fails + n) (2 ^ 32 - 1) := by
    unfold satAdd
    dsimp only
    split
    · rw [Nat.min_def]; split <;> omega
    · rw [Nat.min_def]; split <;> omega
  rw [Inst.failed, hadd]

/-- The fails of an instance, and in its record. -/
def Quire.instFails (x : Quire) (id n : Nat) : Quire :=
  let y : Quire := { x with insts := x.insts.map fun (i : Inst) => if i.id = id then i.failed n else i }
  match y.insts.find? fun (i : Inst) => i.id = id with
  | some i => { y with verdicts := y.verdicts.map fun (r : VRec) => if r.id = i.id then { r with fails := i.fails, causes := i.causes } else r }
  | none => y

theorem Quire.instFails_shape (x : Quire) (id n : Nat) : ∃ vd, x.instFails id n = { x with insts := x.insts.map fun (i : Inst) => if i.id = id then i.failed n else i, verdicts := vd } := by
  unfold Quire.instFails
  extract_lets y
  split
  · exact ⟨_, rfl⟩
  · exact ⟨_, rfl⟩

theorem W.pinFails_eq (w : W) (id : Nat) (pins : List Nat) : w.pinFails id pins =
    (((pins.foldl (fun w p => W.bump w (rk 0x0C (0x300 + 4 * p))) w).bump64 (rk 0x0C 0x200) pins.length).bump (rk 0x0C 0x208)).upd fun x => x.instFails id pins.length := rfl

/-- What the fails of one vector leave in the counters of pins and of their instance. -/
theorem W.pinFails_spec (w : W) (id : Nat) {pins : List Nat} (hpins : pins.Nodup) :
    let v := w.pinFails id pins
    (∃ vd l m, v.q = { w.q with insts := w.q.insts.map fun (i : Inst) => if i.id = id then i.failed pins.length else i, verdicts := vd, live := l, satPages := m })
      ∧ (w.Quiet → v.Quiet) ∧ (∀ i, Counted (if i ∈ pins then 1 else 0) (w.q.liveReg (rk 0x0C (0x300 + 4 * i))) (v.q.liveReg (rk 0x0C (0x300 + 4 * i))))
      ∧ Counted 1 (w.q.liveReg (rk 0x0C 0x208)) (v.q.liveReg (rk 0x0C 0x208))
      ∧ ∀ k, rk 0x0C 0x20C ≤ k → k < rk 0x0C 0x300 → v.q.liveReg k = w.q.liveReg k := by
  rw [W.pinFails_eq]
  obtain ⟨hcounts, hquiet, hcounted, hkept⟩ := w.pinCounts pins hpins
  generalize pins.foldl (fun w p => W.bump w (rk 0x0C (0x300 + 4 * p))) w = w1 at *
  generalize pins.length = n
  generalize hw2 : (w1.bump64 (rk 0x0C 0x200) n).bump (rk 0x0C 0x208) = w2
  have hcounts2 : w.q.Counts w2.q := hw2 ▸ (hcounts.trans (w1.bump64_counts _ _).1).trans ((w1.bump64 (rk 0x0C 0x200) n).bump_counts _ _)
  have hsame : ∀ k, k ≠ rk 0x0C 0x200 → k ≠ rk 0x0C 0x204 → k ≠ rk 0x0C 0x208 → w2.q.liveReg k = w1.q.liveReg k := fun k h0 h4 h8 => by
    rw [← hw2, (w1.bump64 (rk 0x0C 0x200) n).bump_liveReg_other 1 h8, w1.bump64_liveReg_other n h0 h4]
  have hone : Counted 1 (w.q.liveReg (rk 0x0C 0x208)) (w2.q.liveReg (rk 0x0C 0x208)) := by
    have h := (w1.bump64 (rk 0x0C 0x200) n).bump_counted (rk 0x0C 0x208) 1
    rwa [w1.bump64_liveReg_other n (by decide) (by decide), hkept _ fun i _ => by simp only [rk]; omega, hw2] at h
  have hquiet2 : w.Quiet → w2.Quiet := fun h => hw2 ▸ ((w1.bump64_counts _ _).2 (hquiet h)).bump _ _
  obtain ⟨vd, hq⟩ := w2.q.instFails_shape id n
  have hlive : ∀ k, (w2.q.instFails id n).liveReg k = w2.q.liveReg k := fun k => by
    rw [hq]
    rfl
  refine ⟨⟨vd, w2.q.live, w2.q.satPages, ?_⟩, fun h => hquiet2 h, fun i => ?_, ?_, fun k hlo hhi => ?_⟩
  · rw [W.upd_q, hq, show w2.q = { w.q with live := w2.q.live, satPages := w2.q.satPages } from hcounts2]
  · rw [W.upd_q, hlive, hsame _ (by simp only [rk]; omega) (by simp only [rk]; omega) (by simp only [rk]; omega)]
    exact hcounted i
  · rw [W.upd_q, hlive]
    exact hone
  · rw [W.upd_q, hlive, hsame k (by simp only [rk] at *; omega) (by simp only [rk] at *; omega) (by simp only [rk] at *; omega), hkept k fun i hi => by simp only [rk] at *; omega]

/-! ### The first-N log and the fail queue (R375 to R381) -/

section
variable (w : W) (c : Ctx) (p : Play) (ch : Chunk) (v : Nat) (pins : List Nat)

theorem W.logFirstN_full (hn : w.q.firstNLen ≠ 0) (h : w.q.firstNLen ≤ w.q.firstN.length) : w.logFirstN c p ch v pins = w.bump (rk 0x0C 0x210) := by
  rw [W.logFirstN, if_neg hn, if_pos h]

/-- The record of a failing vector (R378). -/
def Quire.firstRecord (x : Quire) (c : Ctx) (p : Play) (ch : Chunk) (v : Nat) (pins : List Nat) : FailRec :=
  { vec := 4096 * p.index + v, entry := p.entry, sig := ch.sig, inst := ch.inst, pins := maskOf pins, timeNs := x.vectorTime c (x.vectorStart p ch v), recSeq := x.nextFirstN }

theorem Quire.firstRecord_congr {x z : Quire} (h : ∀ page o, z.cfg page o = x.cfg page o) (ho : z.originAt = x.originAt) (hn : z.nextFirstN = x.nextFirstN) :
    z.firstRecord c p ch v pins = x.firstRecord c p ch v pins := by
  have hstart : z.vectorStart p ch v = x.vectorStart p ch v := congrArg (p.startsAt + ·) (Quire.spanOf_congr h ch.sets v p.hold)
  rw [Quire.firstRecord, hstart, Quire.vectorTime, Quire.origin, ho, hn]
  rfl

theorem W.logFirstN_room (h : w.q.firstN.length < w.q.firstNLen) : w.logFirstN c p ch v pins =
    W.bump { w with q := { w.q with nextFirstN := w.q.nextFirstN + 1, firstN := w.q.firstN ++ [w.q.firstRecord c p ch v pins] } } (rk 0x0C 0x20C) := by
  rw [W.logFirstN, if_neg (by omega), if_neg (by omega)]
  rfl

theorem W.logFirstN_frame : (∃ fn nf l m, (w.logFirstN c p ch v pins).q = { w.q with firstN := fn, nextFirstN := nf, live := l, satPages := m })
    ∧ (w.Quiet → (w.logFirstN c p ch v pins).Quiet) ∧ ∀ k, k ≠ rk 0x0C 0x20C → k ≠ rk 0x0C 0x210 → (w.logFirstN c p ch v pins).q.liveReg k = w.q.liveReg k := by
  by_cases hn : w.q.firstNLen = 0
  · rw [W.logFirstN, if_pos hn]
    exact ⟨⟨_, _, _, _, rfl⟩, id, fun _ _ _ => rfl⟩
  · by_cases h : w.q.firstN.length < w.q.firstNLen
    · rw [w.logFirstN_room c p ch v pins h]
      generalize hu : ({ w with q := { w.q with nextFirstN := w.q.nextFirstN + 1, firstN := w.q.firstN ++ [w.q.firstRecord c p ch v pins] } } : W) = u
      have hcounts : u.q.Counts (u.bump (rk 0x0C 0x20C)).q := u.bump_counts _ _
      refine ⟨⟨u.q.firstN, u.q.nextFirstN, (u.bump (rk 0x0C 0x20C)).q.live, (u.bump (rk 0x0C 0x20C)).q.satPages, ?_⟩, fun hq => ?_, fun k hk _ => ?_⟩
      · rw [hcounts, ← hu]
      · exact W.Quiet.bump (by rw [← hu]; exact hq) _ _
      · rw [u.bump_liveReg_other 1 hk, ← hu]
        rfl
    · rw [w.logFirstN_full c p ch v pins hn (by omega)]
      exact ⟨⟨_, _, _, _, w.bump_counts _ _⟩, fun hq => hq.bump _ _, fun k _ hk => w.bump_liveReg_other 1 hk⟩

theorem W.queueFail_off (h : w.q.bmEn = false) : w.queueFail p ch v pins = w := by
  rw [W.queueFail, h]
  rfl

theorem W.queueFail_room (h : w.q.bmEn = true) (hs : ch.sig ∈ w.q.bmSources) (hroom : w.q.failQueue.length < 4096) : w.queueFail p ch v pins =
    { w with q := { w.q with failQueue := w.q.failQueue ++ [{ sig := ch.sig, inst := ch.inst, vec := 4096 * p.index + v, pins := maskOf pins }] } } := by
  rw [W.queueFail, if_neg (by simp [h, hs]), if_neg (by omega)]
  rfl

/-- Every region has lost fails. -/
def Quire.dropsFails (x : Quire) : Quire := (List.range x.regionCount).foldl (fun x r => x.setRegion r { x.region r with dropped := true }) x

theorem Quire.dropsFails_shape (x : Quire) : ∃ rg, x.dropsFails = { x with regions := rg } := by
  refine List.foldlRecOn (motive := fun y : Quire => ∃ rg, y = { x with regions := rg }) _ _ ⟨x.regions, rfl⟩ fun y ⟨rg, hy⟩ r _ => ⟨(y.setRegion r { y.region r with dropped := true }).regions, ?_⟩
  conv_lhs => rw [Quire.setRegion, hy]
  rw [Quire.setRegion, hy]

theorem W.queueFail_full (h : w.q.bmEn = true) (hs : ch.sig ∈ w.q.bmSources) (hfull : 4096 ≤ w.q.failQueue.length) : w.queueFail p ch v pins =
    (w.upd Quire.dropsFails).bump (rk 0x0C 0x214) := by
  rw [W.queueFail, if_neg (by simp [h, hs]), if_pos hfull]
  rfl

theorem W.queueFail_frame : (∃ fq rg l m, (w.queueFail p ch v pins).q = { w.q with failQueue := fq, regions := rg, live := l, satPages := m })
    ∧ (w.Quiet → (w.queueFail p ch v pins).Quiet) ∧ ∀ k, k ≠ rk 0x0C 0x214 → (w.queueFail p ch v pins).q.liveReg k = w.q.liveReg k := by
  by_cases hon : w.q.bmEn = true ∧ ch.sig ∈ w.q.bmSources
  · obtain ⟨h, hs⟩ := hon
    by_cases hroom : w.q.failQueue.length < 4096
    · rw [w.queueFail_room p ch v pins h hs hroom]
      exact ⟨⟨_, _, _, _, rfl⟩, id, fun _ _ => rfl⟩
    · rw [w.queueFail_full p ch v pins h hs (by omega)]
      obtain ⟨rg, hrg⟩ := w.q.dropsFails_shape
      have hcounts : w.q.dropsFails.Counts ((w.upd Quire.dropsFails).bump (rk 0x0C 0x214)).q := (w.upd Quire.dropsFails).bump_counts _ _
      refine ⟨⟨w.q.failQueue, rg, ((w.upd Quire.dropsFails).bump (rk 0x0C 0x214)).q.live, ((w.upd Quire.dropsFails).bump (rk 0x0C 0x214)).q.satPages, ?_⟩, fun hq => (hq.upd _).bump _ _, fun k hk => ?_⟩
      · rw [hcounts, hrg]
      · rw [(w.upd Quire.dropsFails).bump_liveReg_other 1 hk, W.upd_q, hrg]
        rfl
  · have hoff : w.queueFail p ch v pins = w := by
      rw [W.queueFail, if_pos]
      by_contra hno
      exact hon (by simpa using hno)
    rw [hoff]
    exact ⟨⟨_, _, _, _, rfl⟩, id, fun _ _ => rfl⟩

end

/-! ### Raw records (R390 to R393) -/

/-- Numbers below 4, each in its place of a word. -/
def quads (P : Nat → Bool) (r : Nat → Nat) (n : Nat) : Nat := ((List.range n).filter P).foldl (fun a i => a + r i * 2 ^ (2 * i)) 0

theorem quads_succ (P : Nat → Bool) (r : Nat → Nat) (n : Nat) : quads P r (n + 1) = quads P r n + (if P n then r n else 0) * 2 ^ (2 * n) := by
  rw [quads, List.range_succ, List.filter_append, List.foldl_append]
  cases hP : P n with
  | true => rw [List.filter_cons_of_pos hP]; rfl
  | false => rw [List.filter_cons_of_neg (by simp [hP])]; simp [quads]

theorem quads_lt (P : Nat → Bool) (r : Nat → Nat) (hr : ∀ i, r i < 4) (n : Nat) : quads P r n < 2 ^ (2 * n) := by
  induction n with
  | zero => exact Nat.one_pos
  | succ n ih =>
    rw [quads_succ]
    have hd : (if P n then r n else 0) ≤ 3 := by
      have := hr n
      split <;> omega
    have hmul := Nat.mul_le_mul_right (2 ^ (2 * n)) hd
    rw [show 2 * (n + 1) = 2 * n + 2 from rfl, Nat.pow_add]
    omega

theorem quads_at (P : Nat → Bool) (r : Nat → Nat) (hr : ∀ i, r i < 4) {n i : Nat} (hi : i < n) : quads P r n / 2 ^ (2 * i) % 4 = if P i then r i else 0 := by
  induction n with
  | zero => omega
  | succ n ih =>
    rw [quads_succ]
    have hlt := quads_lt P r hr n
    have hd : (if P n then r n else 0) < 4 := by
      have := hr n
      split <;> omega
    by_cases hin : i = n
    · subst hin
      rw [Nat.add_mul_div_right _ _ (Nat.two_pow_pos _), Nat.div_eq_of_lt hlt, Nat.zero_add, Nat.mod_eq_of_lt hd]
    · have hpow : 2 ^ (2 * n) = 4 * 2 ^ (2 * (n - i - 1)) * 2 ^ (2 * i) := by
        rw [show (4 : Nat) = 2 ^ 2 from rfl, ← Nat.pow_add, ← Nat.pow_add]
        congr 1
        omega
      rw [hpow, ← Nat.mul_assoc, Nat.add_mul_div_right _ _ (Nat.two_pow_pos _), show ∀ d e : Nat, d * (4 * e) = 4 * (d * e) from fun d e => by ring, Nat.add_mul_mod_self_left]
      exact ih (by omega)

/-- The pins of a chunk with a CP cell in vector `v`. -/
def Chunk.cpPins (ch : Chunk) (v : Nat) : List Nat := (pinsOf ch.pinmask).filter fun i => ch.code i v = 14

theorem Chunk.mem_cpPins {ch : Chunk} {v i : Nat} : i ∈ ch.cpPins v ↔ i ∈ pinsOf ch.pinmask ∧ ch.code i v = 14 := by
  rw [Chunk.cpPins, List.mem_filter, decide_eq_true_eq]

/-- The sampled regions of the pins with a CP cell, the others being 0 (R390). -/
def Chunk.cpRegions (ch : Chunk) (v : Nat) (regions : DWord) : DWord := BitVec.ofNat 64 ((ch.cpPins v).foldl (fun a i => a + regionOf regions i * 2 ^ (2 * i)) 0)

theorem Chunk.cpRegions_at (ch : Chunk) (v : Nat) (regions : DWord) {i : Nat} (hi : i < 32) :
    (ch.cpRegions v regions).toNat / 2 ^ (2 * i) % 4 = if i ∈ ch.cpPins v then regionOf regions i else 0 := by
  have hr : ∀ i, regionOf regions i < 4 := fun i => Nat.mod_lt _ (by decide)
  have hquads : (ch.cpPins v).foldl (fun a i => a + regionOf regions i * 2 ^ (2 * i)) 0 = quads (fun i => decide (ch.code i v = 14) && ch.pinmask.getLsbD i) (regionOf regions) 32 := by
    rw [quads, Chunk.cpPins, pinsOf, List.filter_filter]
  have hlt := quads_lt (fun i => decide (ch.code i v = 14) && ch.pinmask.getLsbD i) (regionOf regions) hr 32
  rw [Chunk.cpRegions, hquads, BitVec.toNat_ofNat, Nat.mod_eq_of_lt hlt, quads_at _ _ hr hi]
  refine if_congr ?_ rfl rfl
  rw [Chunk.mem_cpPins, pinsOf, List.mem_filter, List.mem_range]
  simp only [Bool.and_eq_true, decide_eq_true_eq]
  tauto

section
variable (w : W) (p : Play) (ch : Chunk) (v : Nat) (regions : DWord)

theorem W.rawRecord_off (h : w.q.rawEn = false) : w.rawRecord p ch v regions = w := by
  rw [W.rawRecord, h]
  rfl

theorem W.rawRecord_room (h : w.q.rawEn = true) (hcp : ch.cpPins v ≠ []) (hbuf : w.q.rawBuf.length < 256) (hcap : w.q.raw.length < w.q.rawCapacity) :
    w.rawRecord p ch v regions = { w with q := { w.q with
      rawBuf := w.q.rawBuf ++ [{ regions := ch.cpRegions v regions, vec := 4096 * p.index + v, recSeq := w.q.nextRaw, sig := ch.sig }], nextRaw := w.q.nextRaw + 1 } } := by
  have hno : ¬(!w.q.rawEn || decide ((pinsOf ch.pinmask).filter (fun i => ch.code i v = 14) = [])) = true := by
    rw [h, Bool.not_true, Bool.false_or, decide_eq_true_eq]
    exact hcp
  rw [W.rawRecord, if_neg hno, if_neg (by simp; omega)]
  rfl

theorem W.rawRecord_full (h : w.q.rawEn = true) (hcp : ch.cpPins v ≠ []) (hfull : 256 ≤ w.q.rawBuf.length ∨ w.q.rawCapacity ≤ w.q.raw.length) :
    w.rawRecord p ch v regions = w.bump (rk 0x0C 0x220) := by
  have hno : ¬(!w.q.rawEn || decide ((pinsOf ch.pinmask).filter (fun i => ch.code i v = 14) = [])) = true := by
    rw [h, Bool.not_true, Bool.false_or, decide_eq_true_eq]
    exact hcp
  rw [W.rawRecord, if_neg hno, if_pos (by simpa using hfull)]

end

/-! ### The compares of one vector (R368 to R373) -/

/-- The pins whose compares fail in vector `v`. -/
def Quire.failing (x : Quire) (ch : Chunk) (v : Nat) (regions : DWord) : List Nat := (x.comparePins ch v).filter fun i => !passesCode (ch.code i v) (regionOf regions i)

/-- The failing pins that count. -/
def Quire.counting (x : Quire) (ch : Chunk) (v : Nat) (regions : DWord) : List Nat := (x.failing ch v regions).filter fun i => !bit (x.cfg 0x0C 4) i

theorem Quire.counting_nodup (x : Quire) (ch : Chunk) (v : Nat) (regions : DWord) : (x.counting ch v regions).Nodup :=
  (((List.nodup_range.filter _).filter _).filter _).filter _

section
variable (w : W) (c : Ctx) (p : Play) (ch : Chunk) (v : Nat) (regions : DWord)

theorem W.compareVector_passes (h : w.q.failing ch v regions = []) : w.compareVector c p ch v regions = w.rawRecord p ch v regions := by
  have hnone : (w.q.comparePins ch v).filter (fun i => !passesCode (ch.code i v) (regionOf regions i)) = [] := h
  unfold W.compareVector
  rw [hnone]
  rfl

/-- What the failing pins that count leave. -/
def W.countFails (pins : List Nat) : W :=
  (((w.pinFails p.instId pins).logFirstN c p ch v pins).queueFail p ch v pins).failMarker p ch v pins

theorem W.compareVector_counts (hop : w.q.bindOp p.entry ≠ 7) (ht : p.training = none) (hc : w.q.counting ch v regions ≠ []) :
    w.compareVector c p ch v regions = (w.countFails c p ch v (w.q.counting ch v regions)).rawRecord p ch v regions := by
  have hmatch : ∀ i, (decide (w.q.bindOp p.entry = 7) && bit (w.q.bindMatch p.entry) i) = false := fun i => by rw [decide_eq_false hop]; rfl
  have hlist : ((w.q.comparePins ch v).filter fun i => !passesCode (ch.code i v) (regionOf regions i)).filter (fun i => !bit (w.q.cfg 0x0C 4) i) = w.q.counting ch v regions := rfl
  unfold W.compareVector
  simp only [hmatch, ht, Option.isSome_none, Bool.false_and, Bool.not_false, Bool.and_false, Bool.true_and, List.filter_false, if_true, W.trainingFails, hlist, if_neg hc]
  rfl

end

/-! ### The result of a vector -/

section
variable {x : Quire} {a : Play} {ch : Chunk} {seq v : Nat} (hp : x.playing = some a) (hch : a.chunk = some ch) (hseq : ch.seq = seq)
include hp hch hseq

theorem Quire.tookVector_playing : (x.tookVector seq v).playing = some { a with nextVec := v + 1 } := by
  rw [Quire.tookVector]
  dsimp only
  rw [hp, Option.map_some, hch]
  dsimp only
  rw [if_pos hseq]

theorem Quire.compareResult_taken (c : Ctx) (regions : DWord) (hfirst : a.nextVec ≤ v) (hv : v < ch.vectors) :
    x.w.compareResult c seq v regions = ((x.tookVector seq v).w.compareVector c a ch v regions).holdOn c := by
  have hof : x.playOf seq = some a := by
    rw [Quire.playOf, hp, Option.toList_some, List.singleton_append, List.find?_cons_of_pos]
    rw [hch]
    exact decide_eq_true hseq
  rw [W.compareResult, Quire.w_q, hof]
  dsimp only
  rw [hch]
  dsimp only
  rw [if_pos (by simp [hfirst, hv])]
  rfl

end

theorem Quire.tookVector_shape (x : Quire) (seq v : Nat) : ∃ pl rc, x.tookVector seq v = { x with playing := pl, recent := rc } := ⟨_, _, rfl⟩

/-! ### What the fails of one vector leave -/

/-- What the failing pins of one vector that count leave of `w`. -/
structure W.FailsCounted (w u : W) (c : Ctx) (p : Play) (ch : Chunk) (v : Nat) (pins : List Nat) : Prop where
  frame : u.q = { w.q with
    insts := w.q.insts.map fun (i : Inst) => if i.id = p.instId then i.failed pins.length else i
    verdicts := u.q.verdicts, firstN := u.q.firstN, nextFirstN := u.q.nextFirstN, failQueue := u.q.failQueue, regions := u.q.regions, markers := u.q.markers, live := u.q.live, satPages := u.q.satPages }
  quiet : w.Quiet → u.Quiet
  perPin : ∀ i, Counted (if i ∈ pins then 1 else 0) (w.q.liveReg (rk 0x0C (0x300 + 4 * i))) (u.q.liveReg (rk 0x0C (0x300 + 4 * i)))
  vectors : Counted 1 (w.q.liveReg (rk 0x0C 0x208)) (u.q.liveReg (rk 0x0C 0x208))
  firstRoom : w.q.firstN.length < w.q.firstNLen → u.q.firstN = w.q.firstN ++ [w.q.firstRecord c p ch v pins] ∧ Counted 1 (w.q.liveReg (rk 0x0C 0x20C)) (u.q.liveReg (rk 0x0C 0x20C))
  firstFull : w.q.firstNLen ≠ 0 → w.q.firstNLen ≤ w.q.firstN.length → u.q.firstN = w.q.firstN ∧ Counted 1 (w.q.liveReg (rk 0x0C 0x210)) (u.q.liveReg (rk 0x0C 0x210))
  queueRoom : w.q.bmEn = true → ch.sig ∈ w.q.bmSources → w.q.failQueue.length < 4096 →
    u.q.failQueue = w.q.failQueue ++ [{ sig := ch.sig, inst := ch.inst, vec := 4096 * p.index + v, pins := maskOf pins }]
  queueFull : w.q.bmEn = true → ch.sig ∈ w.q.bmSources → 4096 ≤ w.q.failQueue.length → u.q.failQueue = w.q.failQueue ∧ Counted 1 (w.q.liveReg (rk 0x0C 0x214)) (u.q.liveReg (rk 0x0C 0x214))
  queueOff : w.q.bmEn = false → u.q.failQueue = w.q.failQueue

section
variable (w : W) (c : Ctx) (p : Play) (ch : Chunk) (v : Nat) (pins : List Nat)

/-- The first-N log after the fails have counted. -/
theorem W.logFirstN_spec {u : W} (hlen : u.q.firstNLen = w.q.firstNLen) (hlist : u.q.firstN = w.q.firstN) (hrec : u.q.firstRecord c p ch v pins = w.q.firstRecord c p ch v pins)
    (hkept : ∀ k, rk 0x0C 0x20C ≤ k → k < rk 0x0C 0x300 → u.q.liveReg k = w.q.liveReg k) :
    (w.q.firstN.length < w.q.firstNLen → (u.logFirstN c p ch v pins).q.firstN = w.q.firstN ++ [w.q.firstRecord c p ch v pins]
      ∧ Counted 1 (w.q.liveReg (rk 0x0C 0x20C)) ((u.logFirstN c p ch v pins).q.liveReg (rk 0x0C 0x20C)))
    ∧ (w.q.firstNLen ≠ 0 → w.q.firstNLen ≤ w.q.firstN.length → (u.logFirstN c p ch v pins).q.firstN = w.q.firstN
      ∧ Counted 1 (w.q.liveReg (rk 0x0C 0x210)) ((u.logFirstN c p ch v pins).q.liveReg (rk 0x0C 0x210))) := by
  refine ⟨fun h => ?_, fun hn h => ?_⟩
  · rw [u.logFirstN_room c p ch v pins (by rw [hlen, hlist]; exact h)]
    refine ⟨(W.bump_field _ _ _ (·.firstN) fun _ _ _ => rfl).trans (by rw [hlist, hrec]), ?_⟩
    rw [← hkept _ (by decide) (by decide)]
    exact W.bump_counted { u with q := { u.q with nextFirstN := u.q.nextFirstN + 1, firstN := u.q.firstN ++ [u.q.firstRecord c p ch v pins] } } (rk 0x0C 0x20C) 1
  · rw [u.logFirstN_full c p ch v pins (by rw [hlen]; exact hn) (by rw [hlen, hlist]; exact h)]
    refine ⟨(u.bump_field _ _ (·.firstN) fun _ _ _ => rfl).trans hlist, ?_⟩
    rw [← hkept _ (by decide) (by decide)]
    exact u.bump_counted _ 1

/-- The fail queue after the first-N log. -/
theorem W.queueFail_spec {u : W} (hen : u.q.bmEn = w.q.bmEn) (hsrc : u.q.bmSources = w.q.bmSources) (hlist : u.q.failQueue = w.q.failQueue)
    (hkept : u.q.liveReg (rk 0x0C 0x214) = w.q.liveReg (rk 0x0C 0x214)) :
    (w.q.bmEn = true → ch.sig ∈ w.q.bmSources → w.q.failQueue.length < 4096 →
      (u.queueFail p ch v pins).q.failQueue = w.q.failQueue ++ [{ sig := ch.sig, inst := ch.inst, vec := 4096 * p.index + v, pins := maskOf pins }])
    ∧ (w.q.bmEn = true → ch.sig ∈ w.q.bmSources → 4096 ≤ w.q.failQueue.length → (u.queueFail p ch v pins).q.failQueue = w.q.failQueue
      ∧ Counted 1 (w.q.liveReg (rk 0x0C 0x214)) ((u.queueFail p ch v pins).q.liveReg (rk 0x0C 0x214)))
    ∧ (w.q.bmEn = false → (u.queueFail p ch v pins).q.failQueue = w.q.failQueue) := by
  refine ⟨fun h hs hroom => ?_, fun h hs hfull => ?_, fun h => ?_⟩
  · rw [u.queueFail_room p ch v pins (hen.trans h) (hsrc ▸ hs) (by rw [hlist]; exact hroom), ← hlist]
  · rw [u.queueFail_full p ch v pins (hen.trans h) (hsrc ▸ hs) (by rw [hlist]; exact hfull)]
    obtain ⟨rg, hrg⟩ := u.q.dropsFails_shape
    refine ⟨((u.upd Quire.dropsFails).bump_field _ _ (·.failQueue) fun _ _ _ => rfl).trans ?_, ?_⟩
    · rw [W.upd_q, hrg]
      exact hlist
    · have hsame : (u.upd Quire.dropsFails).q.liveReg (rk 0x0C 0x214) = w.q.liveReg (rk 0x0C 0x214) := by
        rw [W.upd_q, hrg]
        exact hkept
      rw [← hsame]
      exact (u.upd Quire.dropsFails).bump_counted _ 1
  · rw [u.queueFail_off p ch v pins (hen.trans h)]
    exact hlist

theorem W.countFails_spec (hpins : pins.Nodup) : w.FailsCounted (w.countFails c p ch v pins) c p ch v pins := by
  obtain ⟨⟨vd, l1, m1, hq1⟩, hquiet1, hcount1, hvec1, hkept1⟩ := w.pinFails_spec p.instId hpins
  rw [W.countFails]
  generalize w.pinFails p.instId pins = w1 at *
  obtain ⟨hroom, hfull⟩ := w.logFirstN_spec c p ch v pins (u := w1) (by rw [hq1]; rfl) (by rw [hq1]) (Quire.firstRecord_congr c p ch v pins (fun _ _ => by rw [hq1]; rfl) (by rw [hq1]) (by rw [hq1])) hkept1
  obtain ⟨⟨fn, nf, l2, m2, hq2⟩, hquiet2, hkept2⟩ := w1.logFirstN_frame c p ch v pins
  generalize w1.logFirstN c p ch v pins = w2 at *
  obtain ⟨hqroom, hqfull, hqoff⟩ := w.queueFail_spec p ch v pins (u := w2) (by rw [hq2, hq1]; rfl) (by rw [hq2, hq1]; rfl) (by rw [hq2, hq1])
    (by rw [hkept2 _ (by decide) (by decide), hkept1 _ (by decide) (by decide)])
  obtain ⟨⟨fq, rg, l3, m3, hq3⟩, hquiet3, hkept3⟩ := w2.queueFail_frame p ch v pins
  generalize w2.queueFail p ch v pins = w3 at *
  obtain ⟨hmark, hquiet4, hkept4⟩ := w3.marks_failMarker p ch v pins
  generalize w3.failMarker p ch v pins = w4 at *
  have hfn : w4.q.firstN = w2.q.firstN := by rw [hmark, hq3]
  have hfq : w4.q.failQueue = w3.q.failQueue := by rw [hmark]
  have hlive : ∀ k, rk 0x0C 0 ≤ k → k ≠ rk 0x0C 0x214 → w4.q.liveReg k = w2.q.liveReg k := fun k hk hne => (hkept4 k hk).trans (hkept3 k hne)
  refine ⟨by rw [hmark, hq3, hq2, hq1], hquiet4 ∘ hquiet3 ∘ hquiet2 ∘ hquiet1, fun i => ?_, ?_, fun h => ?_, fun hn h => ?_, fun h hs hr => ?_, fun h hs hf => ?_, fun h => ?_⟩
  · rw [hlive _ (by simp only [rk]; omega) (by simp only [rk]; omega), hkept2 _ (by simp only [rk]; omega) (by simp only [rk]; omega)]
    exact hcount1 i
  · rw [hlive _ (by decide) (by decide), hkept2 _ (by decide) (by decide)]
    exact hvec1
  · rw [hfn, hlive _ (by decide) (by decide)]
    exact hroom h
  · rw [hfn, hlive _ (by decide) (by decide)]
    exact hfull hn h
  · rw [hfq]
    exact hqroom h hs hr
  · rw [hfq, hkept4 _ (by decide)]
    exact hqfull h hs hf
  · rw [hfq]
    exact hqoff h

end

/-! ### The clauses of a compare result -/

theorem passesCode_iff {code region : Nat} (h : expects code = true) : passesCode code region = true ↔
    (8 ≤ code ∧ code ≤ 11 ∧ region = code - 8) ∨ (code = 12 ∧ (region = 1 ∨ region = 2)) ∨ (code = 13 ∧ (region = 0 ∨ region = 3)) := by
  simp only [expects, Bool.and_eq_true, decide_eq_true_eq] at h
  unfold passesCode
  split
  · simp
  · simp
  next h12 h13 =>
    rw [decide_eq_true_eq]
    have h12 : code ≠ 12 := h12
    have h13 : code ≠ 13 := h13
    omega

section
variable {x z : Quire} (h : ∀ page o, z.cfg page o = x.cfg page o) (ch : Chunk) (v : Nat) (regions : DWord)
include h

theorem Quire.comparePins_congr : z.comparePins ch v = x.comparePins ch v := by
  simp only [Quire.comparePins, Quire.strobes, Quire.tsDefined_congr h, Quire.tsStrobeEn, Quire.ts, Quire.pmuPins, h]

theorem Quire.failing_congr : z.failing ch v regions = x.failing ch v regions := by
  rw [Quire.failing, Quire.comparePins_congr h, Quire.failing]

theorem Quire.counting_congr : z.counting ch v regions = x.counting ch v regions := by
  rw [Quire.counting, Quire.failing_congr h, h, Quire.counting]

end

theorem Quire.tookVector_cfg (x : Quire) (seq v page o : Nat) : (x.tookVector seq v).cfg page o = x.cfg page o := rfl

theorem Quire.mem_failing (x : Quire) (ch : Chunk) (v : Nat) (regions : DWord) (i : Nat) : i ∈ x.failing ch v regions ↔ i ∈ x.comparePins ch v ∧
    ¬((8 ≤ ch.code i v ∧ ch.code i v ≤ 11 ∧ regionOf regions i = ch.code i v - 8) ∨ (ch.code i v = 12 ∧ (regionOf regions i = 1 ∨ regionOf regions i = 2))
      ∨ (ch.code i v = 13 ∧ (regionOf regions i = 0 ∨ regionOf regions i = 3))) := by
  rw [Quire.failing, List.mem_filter]
  refine and_congr_right fun hi => ?_
  have hexp : expects (ch.code i v) = true := by
    have h := (List.mem_filter.mp hi).2
    simp only [Bool.and_eq_true] at h
    exact h.1
  rw [Bool.not_eq_true', ← Bool.not_eq_true, passesCode_iff hexp]

theorem Quire.mem_counting (x : Quire) (ch : Chunk) (v : Nat) (regions : DWord) (i : Nat) : i ∈ x.counting ch v regions ↔ i ∈ x.failing ch v regions ∧ bit (x.cfg 0x0C 4) i = false := by
  rw [Quire.counting, List.mem_filter, Bool.not_eq_true']

theorem W.holdOn_not (w : W) (c : Ctx) (h : w.q.pinsHold = false) : w.holdOn c = w := by
  rw [W.holdOn, h]
  rfl

theorem Quire.pinsHold_false {x : Quire} (h : ¬(x.state = .paused ∨ (x.state = .running ∧ x.seq.wait.isSome = true))) : x.pinsHold = false := by
  rw [Quire.pinsHold]
  simpa [not_or] using h

section
variable {x : Quire} {a : Play} {ch : Chunk} {seq v : Nat} (hp : x.playing = some a) (hch : a.chunk = some ch) (hseq : ch.seq = seq) (c : Ctx) (regions : DWord)
  (hfirst : a.nextVec ≤ v) (hv : v < ch.vectors)
include hp hch hseq hfirst hv

/-- A vector all of whose compares pass, with no raw record. -/
theorem Quire.compare_passing (h : x.failing ch v regions = []) (hraw : x.rawEn = false) : x.w.compareResult c seq v regions = (x.tookVector seq v).w.holdOn c := by
  have hfail := (Quire.failing_congr (x.tookVector_cfg seq v) ch v regions).trans h
  rw [Quire.compareResult_taken hp hch hseq c regions hfirst hv, W.compareVector_passes (x.tookVector seq v).w c a ch v regions hfail, W.rawRecord_off (x.tookVector seq v).w _ _ _ _ hraw]

/-- A vector all of whose compares pass, and that leaves a raw record or none. -/
theorem Quire.compare_raw (h : x.failing ch v regions = []) : x.w.compareResult c seq v regions = ((x.tookVector seq v).w.rawRecord a ch v regions).holdOn c := by
  have hfail := (Quire.failing_congr (x.tookVector_cfg seq v) ch v regions).trans h
  rw [Quire.compareResult_taken hp hch hseq c regions hfirst hv, W.compareVector_passes (x.tookVector seq v).w c a ch v regions hfail]

/-- A vector with fails that count. -/
theorem Quire.compare_failing (hop : x.bindOp a.entry ≠ 7) (ht : a.training = none) (hc : x.counting ch v regions ≠ []) (hraw : x.rawEn = false) :
    x.w.compareResult c seq v regions = ((x.tookVector seq v).w.countFails c a ch v (x.counting ch v regions)).holdOn c := by
  have hsame := Quire.counting_congr (x.tookVector_cfg seq v) ch v regions
  have hspec := (x.tookVector seq v).w.countFails_spec c a ch v (x.counting ch v regions) (x.counting_nodup ch v regions)
  have hoff : ((x.tookVector seq v).w.countFails c a ch v (x.counting ch v regions)).q.rawEn = false := by
    rw [hspec.frame]
    exact hraw
  rw [Quire.compareResult_taken hp hch hseq c regions hfirst hv, W.compareVector_counts (x.tookVector seq v).w c a ch v regions hop ht (fun h => hc (hsame.symm.trans h)), Quire.w_q, hsame,
    W.rawRecord_off _ _ _ _ _ hoff]

end

/-! ### The trigger of a wait, and the drain of raw records (R128, R392) -/

section
variable {x : Quire} {seq : Nat} (hp : x.playing = none) (hr : ∀ y ∈ x.recent, ∀ z, y.chunk = some z → z.seq ≠ seq)
include hp hr

theorem Quire.compareResult_sample (c : Ctx) (v : Nat) (regions : DWord) : x.w.compareResult c seq v regions = x.w.triggerSample c v regions := by
  have hof : x.playOf seq = none := by
    rw [Quire.playOf, hp, Option.toList_none, List.nil_append]
    refine List.find?_eq_none.mpr fun y hy => ?_
    split
    next z hz => simpa using hr y hy z hz
    · exact Bool.false_ne_true
  rw [W.compareResult, Quire.w_q, hof]

end

section
variable {x : Quire} {since : Nat} {b : Block} {more : List Block} (hw : x.seq.wait = some (.trig since none)) (hplan : x.seq.plan = b :: more) (hrun : x.state = .running)
  (c : Ctx) (v : Nat) (regions : DWord) (hkind : fld (x.bindMatch b.entry) 30 2 = 1)
include hw hplan hrun hkind

theorem Quire.triggerSample_hits (h : passesCode (fld (x.bindMatch b.entry) 16 4) (regionOf regions (fld (x.bindMatch b.entry) 24 5)) = true) : x.w.triggerSample c v regions =
    ({ x with seq := { x.seq with wait := some (.trig since (some (x.triggerStrobe c since v (fld (x.bindMatch b.entry) 24 5)))) } } : Quire).dropLanding.w := by
  rw [W.triggerSample, Quire.w_q, hw, hplan]
  dsimp only
  rw [if_pos (by simp [hrun, hkind, h])]
  rfl

omit hrun hkind in
theorem Quire.triggerSample_misses (h : passesCode (fld (x.bindMatch b.entry) 16 4) (regionOf regions (fld (x.bindMatch b.entry) 24 5)) = false) : x.w.triggerSample c v regions = x.w := by
  rw [W.triggerSample, Quire.w_q, hw, hplan]
  dsimp only
  rw [if_neg (by simp [h])]

end

theorem Dram.write_mem (d : Dram) (port : Port) (a : Nat) (bs : List Byte) (sig : Nat) : (d.write port a bs sig).mem = bwrite a bs d.mem := by
  unfold Dram.write
  extract_lets first lines d'
  exact List.foldlRecOn (motive := fun e : Dram => e.mem = bwrite a bs d.mem) lines _ rfl fun e he l _ => he

section
variable {x : Quire} {r : RawRec} {rest : List RawRec} (hbuf : x.rawBuf = r :: rest)
include hbuf

theorem Quire.rawDrain_waits (hdram : x.rawInDram = true) (hfull : x.dram.full .capture = true) : x.w.rawDrain = x.w := by
  rw [W.rawDrain, Quire.w_q, hbuf]
  dsimp only
  rw [if_pos (by rw [hdram, hfull]; rfl)]

theorem Quire.rawDrain_drops (hroom : x.rawInDram = false ∨ x.dram.full .capture = false) (hcap : x.rawCapacity ≤ x.raw.length) :
    x.w.rawDrain = ({ x with rawBuf := rest } : Quire).w.bump (rk 0x0C 0x220) := by
  rw [W.rawDrain, Quire.w_q, hbuf]
  dsimp only
  rw [if_neg (by rcases hroom with h | h <;> simp [h]), if_pos hcap]
  rfl

theorem Quire.rawDrain_stores (hroom : x.rawInDram = false ∨ x.dram.full .capture = false) (hcap : x.raw.length < x.rawCapacity) :
    x.w.rawDrain = ({ x with
      rawBuf := rest, raw := x.raw ++ [r]
      dram := if x.rawInDram then x.dram.write .capture (x.rawDramBase + 16 * x.raw.length) (Machine.rawBytes r) 0 else x.dram } : Quire).w.bump (rk 0x0C 0x21C) := by
  rw [W.rawDrain, Quire.w_q, hbuf]
  dsimp only
  rw [if_neg (by rcases hroom with h | h <;> simp [h]), if_neg (by omega)]
  rfl

end

theorem rawBytes_eq (r : RawRec) : rawBytes r = le 8 r.regions.toNat ++ le 4 r.vec ++ le 4 (2 ^ 16 * r.recSeq.toNat + 2 ^ 6 * (r.sig % 1024) + r.vec / 2 ^ 32 % 64) := by
  rw [rawBytes, packW]
  simp only [List.foldl_cons, List.foldl_nil, Nat.zero_add, Nat.pow_zero, Nat.one_mul]
  rw [leW_ofNat]

theorem length_rawBytes (r : RawRec) : (rawBytes r).length = 16 := by
  rw [rawBytes_eq, List.length_append, List.length_append, length_le, length_le, length_le]

/-- What a counted record of the first-N log shows of the time (R378). -/
theorem Quire.firstRecord_timeNs (x : Quire) (s : State) (p : Play) (ch : Chunk) (v : Nat) (pins : List Nat) (start : Nat) (hstart : x.origin + p.startsAt + x.spanOf p.hold ch.sets v = start) :
    (x.firstRecord s.ctx p ch v pins).timeNs =
      (let law : TimeLaw := ((s.time.past.takeWhile fun l => decide (start < l.till)).getLast?).getD
        { till := 4000 * s.time.ticks, total := 2 ^ 32 * s.time.ns + s.time.frac, increment := s.time.increment }
       ((4000 * (law.total : Int) - ((law.till : Int) - start) * law.increment) / (4000 * 2 ^ 32)).toNat) := by
  rw [← hstart, Nat.add_assoc]
  rfl

end Sys2Proof.Machine

namespace Sys2Proof.Proofs
open Sys2Proof.Machine

/-- Settles O38: the compares of a vector pass, count or leave a raw record, and the events of markers and hold vectors that follow leave the capture as it is. -/
theorem captureOfCompares : Obligations.CaptureOfCompares := by
  unfold Obligations.CaptureOfCompares
  intro s q seq v regions a c r rest x region start law holding room passes fails counted cp kinds counts
  have hwithin : ∀ w : W, x.w.compareResult s.ctx seq v.val regions = w → w.Quiet →
      s.Within (s.onQuire q fun x => x.w.compareResult s.ctx seq v.val regions) q ∧ (s.onQuire q fun x => x.w.compareResult s.ctx seq v.val regions).quire q = w.q := fun w hw hq => by
    have h := s.onQuire_within q (fun x => x.w.compareResult s.ctx seq v.val regions) (by rw [hw]; exact hq)
    rwa [show (s.quire q).w.compareResult s.ctx seq v.val regions = w from hw] at h
  refine ⟨fun hp hch hseq hfirst hv => ⟨fun hpass hraw => ?passing, fun hraw hkinds l hl hnodup hmem => ?failing, fun hraw hpass hcp => ?raw⟩,
    fun b more since hp hr hrun hw hplan => ?trigger, fun hbuf => ?drain⟩
  case passing =>
    have hnone : x.failing c v.val regions = [] := List.eq_nil_iff_forall_not_mem.mpr fun i hi => hpass i ((x.mem_failing c v.val regions i).mp hi)
    have heq := Quire.compare_passing hp hch hseq s.ctx regions hfirst hv hnone hraw
    have hplay := Quire.tookVector_playing (v := v.val) hp hch hseq
    obtain ⟨pl, rc, htook⟩ := x.tookVector_shape seq v.val
    obtain ⟨k, hmark, hquiet, hkept⟩ := (x.tookVector seq v.val).w.holdOn_marks s.ctx
    obtain ⟨hin, hquire⟩ := hwithin _ heq (hquiet (Quire.w_quiet _))
    have hframe : ((x.tookVector seq v.val).heldFor k).Marked ((x.tookVector seq v.val).w.holdOn s.ctx).q := hmark
    refine ⟨_, _, rfl, hin, rfl, ?_, ?_, fun j hj _ => ?_, fun hnot => ?_⟩
    · rw [hquire, hframe]
      exact hplay
    · rw [hquire, hframe, htook]
      rfl
    · rw [hquire, hkept j hj, htook]
      rfl
    · have hidle : (x.tookVector seq v.val).w.holdOn s.ctx = (x.tookVector seq v.val).w := W.holdOn_not _ _ (Quire.pinsHold_false (by rw [Quire.w_q, htook]; exact hnot))
      have hset := Host.Outcome.next.inj (s.exec_setQuire (.compareResult q seq v regions) q (fun x => x.w.compareResult s.ctx seq v.val regions) (x.tookVector seq v.val) rfl (heq.trans hidle))
      rw [hquire, hidle, Quire.w_q]
      refine ⟨hset, ?_⟩
      rw [htook]
  case failing =>
    have hcount : ∀ i, i ∈ x.counting c v.val regions ↔ i ∈ l := fun i => by
      rw [x.mem_counting, x.mem_failing]
      exact (hmem i).symm
    have hperm : (x.counting c v.val regions).length = l.length := ((List.perm_ext_iff_of_nodup (x.counting_nodup c v.val regions) hnodup).mpr hcount).length_eq
    have hsome : x.counting c v.val regions ≠ [] := fun h => by
      rw [h, List.length_nil] at hperm
      exact hl (List.length_eq_zero_iff.mp hperm.symm)
    have heq := Quire.compare_failing hp hch hseq s.ctx regions hfirst hv hkinds.1 hkinds.2 hsome hraw
    have hplay := Quire.tookVector_playing (v := v.val) hp hch hseq
    obtain ⟨pl, rc, htook⟩ := x.tookVector_shape seq v.val
    have hspec := (x.tookVector seq v.val).w.countFails_spec s.ctx a c v.val (x.counting c v.val regions) (x.counting_nodup c v.val regions)
    have hrec := Quire.firstRecord_congr s.ctx a c v.val (x.counting c v.val regions) (x.tookVector_cfg seq v.val) (by rw [htook]) (by rw [htook])
    generalize x.counting c v.val regions = pins at *
    generalize (x.tookVector seq v.val).w.countFails s.ctx a c v.val pins = u at *
    obtain ⟨k, hmark, hquiet, hkept⟩ := u.holdOn_marks s.ctx
    obtain ⟨hin, hquire⟩ := hwithin _ heq (hquiet (hspec.quiet (Quire.w_quiet _)))
    have hframe : (u.q.heldFor k).Marked (u.holdOn s.ctx).q := hmark
    generalize u.holdOn s.ctx = w at *
    have hlive : ∀ j, rk 0x0C 0 ≤ j → w.q.liveReg j = u.q.liveReg j := fun j hj => hkept j hj
    have hbefore : ∀ j, (x.tookVector seq v.val).w.q.liveReg j = x.liveReg j := fun j => by
      rw [Quire.w_q, htook]
      rfl
    have hinsts : w.q.insts = x.insts.map fun (i : Inst) => if i.id = a.instId then i.failed l.length else i := by
      rw [hframe, ← hperm]
      show u.q.insts = _
      rw [hspec.frame, Quire.w_q, htook]
    have hpins : ∀ i < 32, (maskOf pins).getLsbD i = decide (i ∈ l) := fun i hi => (maskOf_getLsbD pins hi).trans (decide_eq_decide.mpr (hcount i))
    have hcounts : ∀ key n, rk 0x0C 0 ≤ key → Counted n ((x.tookVector seq v.val).w.q.liveReg key) (u.q.liveReg key) →
        counts (s.onQuire q fun x => x.w.compareResult s.ctx seq v.val regions) key n := fun key n hk h => by
      show Counted n (x.liveReg key) _
      rw [hquire, hlive key hk, ← hbefore]
      exact h
    refine ⟨_, _, rfl, rfl, hin, ?_, fun i hi => hcounts _ _ (by simp only [rk]; omega) ?_, hcounts _ _ (by decide) hspec.vectors, fun i hi hid => ?_, fun i hi hid => ?_,
      fun h => ?_, fun hn h => ?_, fun h hs hroom => ?_, fun h hs hfull => ?_, fun h => ?_⟩
    · rw [hquire, hframe]
      show u.q.playing = _
      rw [hspec.frame]
      exact hplay
    · have hi := hspec.perPin i
      simp only [hcount] at hi
      exact hi
    · rw [hquire, hinsts, ← Inst.failed_eq]
      exact List.mem_map.mpr ⟨i, hi, if_pos hid⟩
    · rw [hquire, hinsts]
      exact List.mem_map.mpr ⟨i, hi, if_neg hid⟩
    · obtain ⟨hlist, hone⟩ := hspec.firstRoom (by rw [Quire.w_q, htook]; exact h)
      refine ⟨x.firstRecord s.ctx a c v.val pins, ?_, rfl, rfl, rfl, rfl, hpins, rfl, hcounts _ _ (by decide) hone, x.firstRecord_timeNs s a c v.val pins start rfl⟩
      rw [hquire, hframe]
      show u.q.firstN = _
      rw [hlist, Quire.w_q, hrec, htook]
    · obtain ⟨hlist, hone⟩ := hspec.firstFull (by rw [Quire.w_q, htook]; exact hn) (by rw [Quire.w_q, htook]; exact h)
      refine ⟨?_, hcounts _ _ (by decide) hone⟩
      rw [hquire, hframe]
      show u.q.firstN = _
      rw [hlist, Quire.w_q, htook]
    · have hlist := hspec.queueRoom (by rw [Quire.w_q, htook]; exact h) (by rw [Quire.w_q, htook]; exact hs) (by rw [Quire.w_q, htook]; exact hroom)
      refine ⟨{ sig := c.sig, inst := c.inst, vec := 4096 * a.index + v.val, pins := maskOf pins }, ?_, rfl, rfl, rfl, hpins⟩
      rw [hquire, hframe]
      show u.q.failQueue = _
      rw [hlist, Quire.w_q, htook]
    · obtain ⟨hlist, hone⟩ := hspec.queueFull (by rw [Quire.w_q, htook]; exact h) (by rw [Quire.w_q, htook]; exact hs) (by rw [Quire.w_q, htook]; exact hfull)
      refine ⟨?_, hcounts _ _ (by decide) hone⟩
      rw [hquire, hframe]
      show u.q.failQueue = _
      rw [hlist, Quire.w_q, htook]
    · have hlist := hspec.queueOff (by rw [Quire.w_q, htook]; exact h)
      rw [hquire, hframe]
      show u.q.failQueue = _
      rw [hlist, Quire.w_q, htook]
  case raw =>
    have hnone : x.failing c v.val regions = [] := List.eq_nil_iff_forall_not_mem.mpr fun i hi => hpass i ((x.mem_failing c v.val regions i).mp hi)
    have heq := Quire.compare_raw hp hch hseq s.ctx regions hfirst hv hnone
    obtain ⟨pl, rc, htook⟩ := x.tookVector_shape seq v.val
    have hmem : ∀ i, i ∈ c.cpPins v.val ↔ cp i := fun i => Chunk.mem_cpPins
    have hsome : c.cpPins v.val ≠ [] := fun h => by
      obtain ⟨i, hi⟩ := hcp
      have hi := (hmem i).mpr hi
      rw [h] at hi
      exact List.not_mem_nil hi
    refine ⟨fun hbuf hcap => ?_, fun hfull => ?_⟩
    · have hrec := W.rawRecord_room (x.tookVector seq v.val).w a c v.val regions (by rw [Quire.w_q, htook]; exact hraw) hsome (by rw [Quire.w_q, htook]; exact hbuf) (by rw [Quire.w_q, htook]; exact hcap)
      rw [hrec] at heq
      generalize hu : ({ (x.tookVector seq v.val).w with q := _ } : W) = u at heq
      obtain ⟨k, hmark, hquiet, -⟩ := u.holdOn_marks s.ctx
      obtain ⟨hin, hquire⟩ := hwithin _ heq (hquiet (by rw [← hu]; exact Quire.w_quiet _))
      have hframe : (u.q.heldFor k).Marked (u.holdOn s.ctx).q := hmark
      refine ⟨_, _, { regions := c.cpRegions v.val regions, vec := 4096 * a.index + v.val, recSeq := x.nextRaw, sig := c.sig }, rfl, hin, rfl, ?_, ?_, rfl, rfl, rfl,
        fun i hi => ⟨fun h => ?_, fun h => ?_⟩⟩
      · rw [hquire, hframe]
        show u.q.rawBuf = _
        rw [← hu, Quire.w_q, htook]
      · rw [hquire, hframe]
        show u.q.nextRaw = _
        rw [← hu, Quire.w_q, htook]
      · exact (c.cpRegions_at v.val regions hi).trans (if_pos ((hmem i).mpr h))
      · exact (c.cpRegions_at v.val regions hi).trans (if_neg fun h' => h ((hmem i).mp h'))
    · have hrec := W.rawRecord_full (x.tookVector seq v.val).w a c v.val regions (by rw [Quire.w_q, htook]; exact hraw) hsome (by rw [Quire.w_q, htook]; exact hfull)
      rw [hrec] at heq
      have hone := (x.tookVector seq v.val).w.bump_counted (rk 0x0C 0x220) 1
      have hbuf := (x.tookVector seq v.val).w.bump_field (rk 0x0C 0x220) 1 (·.rawBuf) fun _ _ _ => rfl
      have hq := (Quire.w_quiet (x.tookVector seq v.val)).bump (rk 0x0C 0x220) 1
      generalize (x.tookVector seq v.val).w.bump (rk 0x0C 0x220) = u at *
      obtain ⟨k, hmark, hquiet, hkept⟩ := u.holdOn_marks s.ctx
      obtain ⟨hin, hquire⟩ := hwithin _ heq (hquiet hq)
      have hframe : (u.q.heldFor k).Marked (u.holdOn s.ctx).q := hmark
      refine ⟨_, rfl, hin, ?_, ?_⟩
      · rw [hquire, hframe]
        show u.q.rawBuf = _
        rw [hbuf, Quire.w_q, htook]
      · show Counted 1 (x.liveReg (rk 0x0C 0x220)) _
        rw [hquire, hkept _ (by decide)]
        rw [Quire.w_q, htook] at hone
        exact hone
  case trigger =>
    intro m p i strobe
    have hsample := Quire.compareResult_sample hp hr s.ctx v.val regions
    refine ⟨fun hkind hpass => ?_, fun hkind hlow hhigh hfail => ?_⟩
    · have hcode : passesCode (fld m 16 4) (regionOf regions (fld m 24 5)) = true := (passesCode_iff (by
        simp only [expects, Bool.and_eq_true, decide_eq_true_eq]
        rcases hpass with h | h | h <;> omega)).mpr hpass
      exact s.exec_setQuire (.compareResult q seq v regions) q (fun x => x.w.compareResult s.ctx seq v.val regions) _ rfl
        (hsample.trans (Quire.triggerSample_hits hw hplan hrun s.ctx v.val regions hkind hcode))
    · have hcode : passesCode (fld m 16 4) (regionOf regions (fld m 24 5)) = false := Bool.eq_false_iff.mpr fun h => hfail ((passesCode_iff (by
        simp only [expects, Bool.and_eq_true, decide_eq_true_eq]
        omega)).mp h)
      exact s.exec_setQuire (.compareResult q seq v regions) q (fun x => x.w.compareResult s.ctx seq v.val regions) x rfl
        (hsample.trans (Quire.triggerSample_misses hw hplan s.ctx v.val regions hcode))
  case drain =>
    refine ⟨fun hcap hdram => ?_, fun hcap hdram hroom => ?_, fun hroom hcap => ?_, fun hroom => ?_⟩
    · refine s.makes_bump (.rawRecordDrain q) q (fun x => x.w.rawDrain) _ (rk 0x0C 0x21C) rfl ((Quire.rawDrain_stores hbuf (.inl hdram) hcap).trans ?_) rfl
      rw [hdram]
      rfl
    · have hstep := Quire.rawDrain_stores hbuf hroom hcap
      obtain ⟨hin, hquire⟩ := s.onQuire_within q (fun x => x.w.rawDrain) (by
        show x.w.rawDrain.Quiet
        rw [hstep]
        exact (Quire.w_quiet _).bump _ _)
      have hquire : (s.onQuire q fun x => x.w.rawDrain).quire q = _ := hquire.trans (congrArg W.q hstep)
      refine ⟨_, _, rfl, hin, rfl, ?_, ?_, ?_, ?_⟩
      · rw [hquire]
        exact W.bump_field _ _ _ (·.rawBuf) fun _ _ _ => rfl
      · rw [hquire]
        exact W.bump_field _ _ _ (·.raw) fun _ _ _ => rfl
      · rw [hquire, W.bump_field _ _ _ (·.dram) fun _ _ _ => rfl, Quire.w_q]
        dsimp only
        rw [if_pos hdram, Dram.write_mem, ← rawBytes_eq, ← length_rawBytes r]
        exact bread_bwrite_same _ _ _
      · refine s.countsOne_bump ?_ hquire
        rfl
    · exact s.makes_bump (.rawRecordDrain q) q (fun x => x.w.rawDrain) _ (rk 0x0C 0x220) rfl (Quire.rawDrain_drops hbuf hroom hcap) rfl
    · have hfull : x.rawInDram = true ∧ x.dram.full .capture = true := by
        by_contra hno
        exact hroom (by simpa [imp_iff_not_or, not_and_or] using hno)
      refine (s.exec_setQuire (.rawRecordDrain q) q (fun x => x.w.rawDrain) x rfl (Quire.rawDrain_waits hbuf hfull.1 hfull.2)).trans (congrArg Host.Outcome.next ?_)
      exact s.setQuire_quire q

end Sys2Proof.Proofs

end

section

/-! # Commands on several quires (R623)

A command of this form is taken up as one, its parts end quire by quire, and its reply leaves with the last of them. -/

namespace Sys2Proof.Machine

/-! ### The command is taken up -/

section
variable {s : State} {h : Hdr} {p : Params} {o : OpSpec}

theorem quireRefusal_none {t : State} {q : QId} {full : Bool} {check : Quire → Option Refuse} (howns : t.owns h.link q = true) (hcoming : t.faultComing q = false)
    (hcheck : check (t.quire q) = none) (hfull : full = false) (hocc : o.whileOccupied = true ∨ (t.quire q).occupied = none) : quireRefusal o h t q full none check = none := by
  have hfree : (full || (!o.whileOccupied && (t.quire q).occupied.isSome)) = false := by
    rw [hfull]
    rcases hocc with h | h <;> simp [h]
  unfold quireRefusal
  rw [howns, hcoming, if_neg (by decide), if_neg (by decide), hcheck]
  exact if_neg (by rw [hfree]; exact Bool.false_ne_true)

theorem mem_quiresOf {m : Byte} {q : QId} : q ∈ quiresOf m ↔ m.getLsbD q.val = true := by
  rw [quiresOf, List.mem_filter]
  exact and_iff_right (List.mem_finRange q)

theorem nodup_quiresOf (m : Byte) : (quiresOf m).Nodup := (List.nodup_finRange 8).filter _

/-- A command none of whose quires refuses it is carried out. -/
theorem front_maskPacket {row : Hdr → Params → Instr} {run : Hdr → Params → State → State} {together : Bool} {range : State → Option Refuse} {check : Quire → Option Refuse}
    {act : State → ReplyTo → State} (hrun : run h p s = maskPacket o h p s together range check act)
    (hop : opcodes.contains o.opcode = true) (ht : s.Takes o h p) (hrange : range (s.freeBuffer h.link h.cls) = none) (howns : ∀ q ∈ quiresOf h.qmask, s.owns h.link q = true)
    (hcheck : ∀ q ∈ quiresOf h.qmask, check (s.quire q) = none) : front row o.opcode h p s run = act (s.taken h o.opcode) (hdrDest h o.opcode) := by
  obtain ⟨-, -, -, -, -, -, -, hcoming, hfull, hocc, -⟩ := id ht
  unfold maskPacket at hrun
  rw [front_taken s row o h p run hop ht, hrun]
  refine packet_taken s o h p _ _ _ ht ?_
  have hnone : ∀ r ∈ maskRefusals o h (s.freeBuffer h.link h.cls) range check, r = none := fun r hr => by
    obtain ⟨q, -, rfl⟩ := List.mem_map.mp hr
    split
    next hq =>
      have hq := mem_quiresOf.mpr hq
      have hquire := s.freeBuffer_quire h.link h.cls q
      rw [hrange]
      refine quireRefusal_none (howns q hq) (hcoming q hq) (by rw [hquire]; exact hcheck q hq) ?_ (hocc.imp id fun h => by rw [hquire]; exact h q hq)
      rw [State.full, State.freeBuffer_session, decide_eq_false (by omega)]
    · rfl
  have hfind : ((maskRefusals o h (s.freeBuffer h.link h.cls) range check).find? Option.isSome) = none := List.find?_eq_none.mpr fun r hr => by rw [hnone r hr]; exact Bool.false_ne_true
  dsimp only
  rw [hfind]
  exact ite_self _

theorem exec_maskPacket {i : Instr} {row : Hdr → Params → Instr} {run : Hdr → Params → State → State} {together : Bool} {range : State → Option Refuse} {check : Quire → Option Refuse}
    {act : State → ReplyTo → State} (hexec : exec i s = .next (front row o.opcode h p s run)) (hrun : run h p s = maskPacket o h p s together range check act)
    (hop : opcodes.contains o.opcode = true) (ht : s.Takes o h p) (hrange : range (s.freeBuffer h.link h.cls) = none) (howns : ∀ q ∈ quiresOf h.qmask, s.owns h.link q = true)
    (hcheck : ∀ q ∈ quiresOf h.qmask, check (s.quire q) = none) : exec i s = .next (act (s.taken h o.opcode) (hdrDest h o.opcode)) :=
  hexec.trans (congrArg Host.Outcome.next (front_maskPacket hrun hop ht hrange howns hcheck))

/-- The part of a command that falls to quire `q`. -/
def maskPart (o : OpSpec) (h : Hdr) (check : Quire → Option Refuse) (run : State → QId → ReplyTo → State) (d : ReplyTo) (s : State) (q : QId) : State :=
  match quireRefusal o h s q false none check with
  | some r => s.quireDone d q r.1 r.2
  | none => run s q d

/-- A command that all of its quires carry out. -/
theorem front_maskCommand {row : Hdr → Params → Instr} {run : Hdr → Params → State → State} {check : Quire → Option Refuse} {act : State → QId → ReplyTo → State}
    (hrun : run h p s = maskCommand o h p s check act) (hop : opcodes.contains o.opcode = true) (ht : s.Takes o h p)
    (howns : ∀ q ∈ quiresOf h.qmask, s.owns h.link q = true) (hcheck : ∀ q ∈ quiresOf h.qmask, check (s.quire q) = none) :
    front row o.opcode h p s run = ((s.taken h o.opcode).openMask (hdrDest h o.opcode)).each (quiresOf h.qmask) (maskPart o h check act (hdrDest h o.opcode)) :=
  front_maskPacket hrun hop ht rfl howns hcheck

end

/-! ### The parts of the command (R623) -/

/-- The chip `t` is the chip `u` in the course of a command on several quires. -/
def State.Parted (u t : State) : Prop :=
  t = { u with quires := t.quires, maskWaits := t.maskWaits, log := t.log, collector := { u.collector with satPages := t.collector.satPages } }

theorem State.Parted.refl (u : State) : u.Parted u := rfl

theorem State.Parted.trans {u t v : State} (h : u.Parted t) (h' : t.Parted v) : u.Parted v := by
  unfold State.Parted at *
  rw [h', h]

theorem State.Within.parted {t v : State} {q : QId} (h : t.Within v q) (hr : v.collector.reports = t.collector.reports) : t.Parted v := by
  have hwaits : v.maskWaits = t.maskWaits := by rw [h.2]
  unfold State.Parted
  rw [hwaits]
  exact h.2.trans (by rw [hr])

/-- The command of `d` waits for its quires but those of `P`, which have ended with OK. -/
def State.MaskOpen (t : State) (d : ReplyTo) (P : List QId) : Prop :=
  ∃ w, t.maskWaits.filter (fun v => decide (v.dest = d)) = [w] ∧ w.dest = d ∧ w.status = (List.finRange 8).map (fun i => if i ∈ P then (stOk, (0 : BitVec 16)) else (0xFF, 0))
    ∧ w.records = List.replicate 8 [] ∧ ∀ i : QId, w.waiting.getLsbD i.val = true ↔ d.qmask.getLsbD i.val = true ∧ i ∉ P

theorem State.openMask_maskOpen (s : State) (d : ReplyTo) : (s.openMask d).MaskOpen d [] := by
  refine ⟨{ dest := d, waiting := d.qmask, status := List.replicate 8 (0xFF, 0), records := List.replicate 8 [] }, ?_, rfl, rfl, rfl, fun i => by simp⟩
  have hold : (s.maskWaits.filter fun w => decide (w.dest ≠ d)).filter (fun v => decide (v.dest = d)) = [] := by
    rw [List.filter_filter, List.filter_eq_nil_iff]
    intro v _
    simp
  rw [State.openMask, List.filter_append, hold, List.nil_append]
  simp

theorem State.MaskOpen.congr {t v : State} {d : ReplyTo} {P : List QId} (h : t.MaskOpen d P) (hv : v.maskWaits.filter (fun w => decide (w.dest = d)) = t.maskWaits.filter fun w => decide (w.dest = d)) :
    v.MaskOpen d P := by
  obtain ⟨w, hw, hrest⟩ := h
  exact ⟨w, hv.trans hw, hrest⟩

theorem getLsbD_clearBit (m : Byte) (q i : QId) : (m &&& ~~~(BitVec.ofNat 8 (2 ^ q.val))).getLsbD i.val = (m.getLsbD i.val && decide (i ≠ q)) := by
  have hi := i.isLt
  rw [BitVec.getLsbD_and, BitVec.getLsbD_not, BitVec.getLsbD_ofNat, decide_eq_true hi, Bool.true_and, Bool.true_and, Nat.testBit_two_pow, ← decide_not]
  exact congrArg _ (decide_eq_decide.mpr ⟨fun h h' => h (by rw [h']), fun h h' => h (Fin.ext h'.symm)⟩)

theorem filter_dropFirst {α : Type} (p : α → Bool) (l : List α) : (dropFirst p l).filter p = (l.filter p).tail := by
  induction l with
  | nil => rfl
  | cons a l ih =>
    rw [dropFirst]
    by_cases ha : p a = true
    · rw [if_pos ha, List.filter_cons_of_pos ha]
      rfl
    · rw [if_neg ha, List.filter_cons_of_neg ha, List.filter_cons_of_neg ha, ih]

theorem filter_dropFirst_other {α : Type} (p r : α → Bool) (l : List α) (h : ∀ a, p a = true → r a = false) : (dropFirst p l).filter r = l.filter r := by
  induction l with
  | nil => rfl
  | cons a l ih =>
    rw [dropFirst]
    split
    next ha => rw [List.filter_cons_of_neg (by rw [h a ha]; exact Bool.false_ne_true)]
    · rw [List.filter_cons, List.filter_cons, ih]

/-- The reply of a command all of whose quires have ended with OK. -/
theorem maskReply_ok (w : MaskWait) (h : ∀ i : QId, w.dest.qmask.getLsbD i.val = true → w.status[i.val]? = some (stOk, 0)) (hr : w.records = List.replicate 8 []) :
    maskReply w = (stOk, 0, maskBytes w.dest.qmask fun _ => stOk) := by
  have hst : ∀ i < 8, w.dest.qmask.getLsbD i = true → w.status.getD i (0xFF, 0) = (stOk, 0) := fun i hi hq => by
    rw [List.getD_eq_getElem?_getD, h ⟨i, hi⟩ hq, Option.getD_some]
  have hsel : ∀ i ∈ (List.range 8).filter (fun i => w.dest.qmask.getLsbD i), w.status.getD i (0xFF, 0) = (stOk, 0) := fun i hi => by
    obtain ⟨hlt, hq⟩ := List.mem_filter.mp hi
    exact hst i (List.mem_range.mp hlt) hq
  have hbytes : ((List.range 8).map fun i => if w.dest.qmask.getLsbD i = true then (w.status.getD i (0xFF, 0)).1 else 0xFF) = maskBytes w.dest.qmask fun _ => stOk := by
    rw [maskBytes, ← List.map_coe_finRange_eq_range, List.map_map]
    refine List.map_congr_left fun i _ => ?_
    show (if _ then _ else _) = if _ then _ else _
    split
    next hq => rw [hst i.val i.isLt hq]
    · rfl
  have hfind : ((List.range 8).filter fun i => w.dest.qmask.getLsbD i).find? (fun i => decide (2 ≤ (w.status.getD i (0xFF, 0)).1.toNat)) = none :=
    List.find?_eq_none.mpr fun i hi => by rw [hsel i hi]; decide
  have hany : (((List.range 8).filter fun i => w.dest.qmask.getLsbD i).any fun i => decide ((w.status.getD i (0xFF, 0)).1 = stDeferred)) = false :=
    List.any_eq_false.mpr fun i hi => by rw [hsel i hi]; decide
  have hflat : w.records.flatten = [] := by rw [hr]; rfl
  unfold maskReply
  extract_lets sel st bytes head
  have hhead : head = (stOk, 0) := by
    unfold head
    rw [hfind]
    dsimp only
    rw [hany]
    rfl
  rw [hhead, hflat, List.append_nil]
  exact congrArg (fun b => (stOk, (0 : BitVec 16), b)) hbytes

section
variable {t : State} {d : ReplyTo} {q : QId} {P : List QId}

theorem State.MaskOpen.found (h : t.MaskOpen d P) : ∃ w, t.maskWaits.find? (fun v => decide (v.dest = d)) = some w ∧ (dropFirst (fun v : MaskWait => decide (v.dest = d)) t.maskWaits).filter (fun v => decide (v.dest = d)) = []
    ∧ w.dest = d ∧ w.status = (List.finRange 8).map (fun i => if i ∈ P then (stOk, (0 : BitVec 16)) else (0xFF, 0)) ∧ w.records = List.replicate 8 []
    ∧ ∀ i : QId, w.waiting.getLsbD i.val = true ↔ d.qmask.getLsbD i.val = true ∧ i ∉ P := by
  obtain ⟨w, hw, hrest⟩ := h
  refine ⟨w, ?_, by rw [filter_dropFirst, hw]; rfl, hrest⟩
  rw [← List.head?_filter, hw]
  rfl

/-- The status bytes with one more quire. -/
theorem status_cons (q : QId) (P : List QId) : lset ((List.finRange 8).map fun i => if i ∈ P then (stOk, (0 : BitVec 16)) else (0xFF, 0)) q.val (stOk, 0)
    = (List.finRange 8).map fun i => if i ∈ q :: P then (stOk, (0 : BitVec 16)) else (0xFF, 0) := by
  show List.set _ q.val _ = _
  refine List.ext_getElem (by simp) fun n h1 h2 => ?_
  rw [List.getElem_set, List.getElem_map, List.getElem_map, List.getElem_finRange]
  split
  next hq =>
    subst hq
    exact (if_pos List.mem_cons_self).symm
  next hne =>
    simp only [List.mem_cons]
    exact if_congr (or_iff_right fun h => hne (by rw [← h]; rfl)).symm rfl rfl

/-- The wait of a command with the part of quire `q` ended. -/
def MaskWait.ended (w : MaskWait) (q : QId) : MaskWait :=
  { w with waiting := w.waiting &&& ~~~(BitVec.ofNat 8 (2 ^ q.val)), status := lset w.status q.val (stOk, 0), records := lset w.records q.val [] }

theorem State.quireDone_found {w : MaskWait} (hfind : t.maskWaits.find? (fun v => decide (v.dest = d)) = some w) : t.quireDone d q stOk =
    if (w.ended q).waiting = 0 then
      { t with maskWaits := dropFirst (fun v : MaskWait => decide (v.dest = d)) t.maskWaits, quires := t.quires.map (Quire.unoccupy d) }.reply d (maskReply (w.ended q)).1 (maskReply (w.ended q)).2.1 (maskReply (w.ended q)).2.2
    else { t with maskWaits := dropFirst (fun v : MaskWait => decide (v.dest = d)) t.maskWaits ++ [w.ended q] } := by
  unfold State.quireDone
  rw [hfind]
  rfl

/-- A part that is not the last ends. -/
theorem State.MaskOpen.done (h : t.MaskOpen d P) {r : QId} (hr : d.qmask.getLsbD r.val = true) (hrP : r ∉ P) (hrq : r ≠ q) :
    ∃ A, t.quireDone d q stOk = { t with maskWaits := A } ∧ State.MaskOpen { t with maskWaits := A } d (q :: P) := by
  obtain ⟨w, hfind, hrest, hdest, hstatus, hrecords, hwaiting⟩ := h.found
  have hbits : ∀ i : QId, (w.ended q).waiting.getLsbD i.val = true ↔ d.qmask.getLsbD i.val = true ∧ i ∉ q :: P := fun i => by
    rw [MaskWait.ended, getLsbD_clearBit, Bool.and_eq_true, hwaiting, decide_eq_true_iff, List.mem_cons, not_or]
    exact ⟨fun ⟨⟨h1, h2⟩, h3⟩ => ⟨h1, h3, h2⟩, fun ⟨h1, h3, h2⟩ => ⟨⟨h1, h2⟩, h3⟩⟩
  have hne : ¬(w.ended q).waiting = 0 := fun hz => by
    have hbit := (hbits r).mpr ⟨hr, fun h => (List.mem_cons.mp h).elim hrq hrP⟩
    rw [hz] at hbit
    simp at hbit
  refine ⟨_, (State.quireDone_found hfind).trans (if_neg hne), w.ended q, ?_, hdest, ?_, ?_, hbits⟩
  · have hended : decide ((w.ended q).dest = d) = true := decide_eq_true hdest
    show (_ ++ _ : List MaskWait).filter _ = _
    rw [List.filter_append, hrest, List.nil_append, List.filter_cons, if_pos hended, List.filter_nil]
  · rw [← status_cons, ← hstatus]
    rfl
  · show lset w.records q.val [] = _
    rw [hrecords]
    exact List.set_replicate_self ..

/-- The last part ends: the command lets its quires go, and answers. -/
theorem State.MaskOpen.last (h : t.MaskOpen d P) (hq : d.qmask.getLsbD q.val = true) (hall : ∀ i : QId, d.qmask.getLsbD i.val = true → i ∈ q :: P) :
    ∃ A, t.quireDone d q stOk = { t with maskWaits := A, quires := t.quires.map (Quire.unoccupy d) }.reply d stOk 0 (maskBytes d.qmask fun _ => stOk) := by
  obtain ⟨w, hfind, -, hdest, hstatus, hrecords, hwaiting⟩ := h.found
  have hzero : (w.ended q).waiting = 0 := BitVec.eq_of_getLsbD_eq fun i hi => by
    have hclear := getLsbD_clearBit w.waiting q ⟨i, hi⟩
    refine Eq.trans ?_ BitVec.getLsbD_zero.symm
    refine hclear.trans (Bool.eq_false_iff.mpr fun hbit => ?_)
    rw [Bool.and_eq_true, decide_eq_true_iff] at hbit
    obtain ⟨hsel, hP⟩ := (hwaiting ⟨i, hi⟩).mp hbit.1
    exact (List.mem_cons.mp (hall ⟨i, hi⟩ hsel)).elim hbit.2 hP
  have hreply : ∀ v : MaskWait, v.dest = d → v.status = lset w.status q.val (stOk, 0) → v.records = lset w.records q.val [] → maskReply v = (stOk, 0, maskBytes d.qmask fun _ => stOk) := fun v hd hst hrec => by
    subst hd
    refine maskReply_ok v (fun i hi => ?_) (hrec.trans (by rw [hrecords]; exact List.set_replicate_self ..))
    rw [hst, hstatus, status_cons, List.getElem?_map, List.getElem?_eq_getElem (by simp), List.getElem_finRange]
    exact congrArg some (if_pos (hall i hi))
  exact ⟨_, (State.quireDone_found hfind).trans (by rw [if_pos hzero, hreply (w.ended q) hdest rfl rfl])⟩

end

/-- The wait of a command that has its quire `q` alone left, and in which only that quire is selected. -/
theorem State.OwesOne.done {s t : State} {d : ReplyTo} {q : QId} (h : s.OwesOne d q) (hwaits : t.maskWaits = s.maskWaits) :
    ∃ A, t.quireDone d q stOk = { t with maskWaits := A, quires := t.quires.map (Quire.unoccupy d) }.reply d stOk 0 (maskBytes d.qmask fun _ => stOk) := by
  obtain ⟨-, hmask, hfind⟩ := h
  have hzero : d.qmask &&& ~~~(BitVec.ofNat 8 (2 ^ q.val)) = 0 := by rw [hmask, BitVec.and_not_self]
  have hreply : ∀ w : MaskWait, w.dest = d → w.status = lset (List.replicate 8 (0xFF, 0)) q.val (stOk, 0) → w.records = lset (List.replicate 8 []) q.val [] →
      maskReply w = (stOk, 0, maskBytes d.qmask fun _ => stOk) := fun w hd hst hrec => by
    subst hd
    refine maskReply_ok w (fun i hi => ?_) (hrec.trans (List.set_replicate_self ..))
    rw [hmask, BitVec.getLsbD_ofNat, Nat.testBit_two_pow] at hi
    obtain rfl : i = q := (Fin.ext (of_decide_eq_true (Bool.and_eq_true_iff.mp hi).2)).symm
    have hlt : i.val < (List.replicate 8 ((0xFF : Byte), (0 : BitVec 16))).length := i.isLt
    rw [hst, lset, List.getElem?_set_self hlt]
  refine ⟨dropFirst (fun v : MaskWait => v.dest = d) s.maskWaits, ?_⟩
  unfold State.quireDone
  rw [hwaits, hfind]
  dsimp only
  rw [if_pos hzero, hreply _ rfl rfl rfl]

/-- A quire's part is carried out where nothing refuses it. -/
theorem maskPart_ok {o : OpSpec} {h : Hdr} {check : Quire → Option Refuse} {act : State → QId → ReplyTo → State} {d : ReplyTo} {u : State} {q : QId} (howns : u.owns h.link q = true)
    (hcoming : u.faultComing q = false) (hcheck : check (u.quire q) = none) (hocc : o.whileOccupied = true ∨ (u.quire q).occupied = none) : maskPart o h check act d u q = act u q d := by
  rw [maskPart, quireRefusal_none howns hcoming hcheck rfl hocc]

/-- A command that changes each of its quires alike, and leaves its reply for later. -/
theorem State.each_maskPart {o : OpSpec} {h : Hdr} {check : Quire → Option Refuse} {act : State → QId → ReplyTo → State} {d : ReplyTo} (f : Quire → Quire) (l : List QId) (hl : l.Nodup) (u : State)
    (hok : ∀ q ∈ l, u.owns h.link q = true ∧ u.faultComing q = false ∧ check (u.quire q) = none ∧ (o.whileOccupied = true ∨ (u.quire q).occupied = none))
    (hact : ∀ v : State, ∀ q ∈ l, v.quire q = u.quire q → act v q d = v.modQuire q f) : u.each l (maskPart o h check act d) = u.each l fun v q => v.modQuire q f := by
  induction l generalizing u with
  | nil => rfl
  | cons g l ih =>
    obtain ⟨hg, hl⟩ := List.nodup_cons.mp hl
    have hother : ∀ q ∈ l, (u.modQuire g f).quire q = u.quire q := fun q hq => u.quire_modQuire_other g q f fun h => hg (h ▸ hq)
    have hhead : maskPart o h check act d u g = u.modQuire g f := by
      obtain ⟨howns, hcoming, hcheck, hocc⟩ := hok g List.mem_cons_self
      rw [maskPart_ok howns hcoming hcheck hocc, hact u g List.mem_cons_self rfl]
    have hrest := ih hl (u.modQuire g f) (fun q hq => by
      obtain ⟨howns, hcoming, hcheck, hocc⟩ := hok q (List.mem_cons_of_mem _ hq)
      rw [State.owns, hother q hq]
      exact ⟨howns, hcoming, hcheck, hocc⟩) fun v q hq hv => hact v q (List.mem_cons_of_mem _ hq) (hv.trans (hother q hq))
    rw [State.each, List.foldl_cons, hhead]
    exact hrest

/-- The quires of a command that is taken up. -/
theorem State.Takes.parts {s : State} {o : OpSpec} {h : Hdr} {p : Params} {check : Quire → Option Refuse} (ht : s.Takes o h p) (hop : o.opcode ≠ 0x01) (d : ReplyTo)
    (howns : ∀ q ∈ quiresOf h.qmask, s.owns h.link q = true) (hcheck : ∀ q ∈ quiresOf h.qmask, check (s.quire q) = none) :
    ∀ q ∈ quiresOf h.qmask, ((s.taken h o.opcode).openMask d).owns h.link q = true ∧ ((s.taken h o.opcode).openMask d).faultComing q = false ∧ check (((s.taken h o.opcode).openMask d).quire q) = none
      ∧ (o.whileOccupied = true ∨ (((s.taken h o.opcode).openMask d).quire q).occupied = none) := fun q hq => by
  obtain ⟨-, -, -, -, -, -, -, hcoming, -, hocc, -⟩ := ht
  have hbooked := s.taken_booked h o.opcode
  have hquire : ((s.taken h o.opcode).openMask d).quire q = s.quire q := State.quire_congr _ _ _ hbooked.quires
  have hopen : (((s.taken h o.opcode).openMask d).session h.link).isOpen = (s.session h.link).isOpen := by
    rw [State.openMask_session]
    simp [State.taken, State.accept_session _ _ _ hop]
  have hreports : ((s.taken h o.opcode).openMask d).collector.reports = s.collector.reports := by
    rw [State.openMask_collector, hbooked.1]
  refine ⟨?_, ?_, by rw [hquire]; exact hcheck q hq, hocc.imp id fun h => by rw [hquire]; exact h q hq⟩
  · rw [State.owns, hopen, hquire]
    exact howns q hq
  · rw [State.faultComing, hreports]
    exact hcoming q hq

/-! ### The parts of a command that ends at once -/

section
variable (d : ReplyTo) (act : State → QId → State) (I : State → Prop) (N G : QId → Quire → Prop)

/-- What a part of a command does: it ends with OK, its quire then stands as `G` says where it stood as `N` says, and no other quire loses what it has of either. -/
def PartOk : Prop := ∀ v q, d.qmask.getLsbD q.val = true → I v → N q (v.quire q) → ∃ w, act v q = w.quireDone d q stOk ∧ I w ∧ (∀ P, v.MaskOpen d P → w.MaskOpen d P) ∧ G q (w.quire q)
  ∧ ∀ r, r ≠ q → (N r (v.quire r) → N r (w.quire r)) ∧ (G r (v.quire r) → G r (w.quire r))

/-- A command each of whose parts ends with OK answers with the last of them, and lets its quires go. -/
theorem State.each_parts (hwaits : ∀ v A, I v → I { v with maskWaits := A }) (hact : PartOk d act I N G) (l P : List QId) (t : State) (hne : l ≠ []) (hnodup : l.Nodup) (hnew : ∀ q ∈ l, q ∉ P)
    (hsel : ∀ i : QId, d.qmask.getLsbD i.val = true ↔ i ∈ P ∨ i ∈ l) (hI : I t) (hopen : t.MaskOpen d P) (hN : ∀ i, i ∉ P → N i (t.quire i)) (hG : ∀ i ∈ P, G i (t.quire i)) :
    ∃ v A, t.each l act = { v with maskWaits := A, quires := v.quires.map (Quire.unoccupy d) }.reply d stOk 0 (maskBytes d.qmask fun _ => stOk) ∧ I v
      ∧ (∀ i : QId, d.qmask.getLsbD i.val = true → G i (v.quire i)) ∧ ∀ i : QId, ¬d.qmask.getLsbD i.val = true → N i (v.quire i) := by
  induction l generalizing P t with
  | nil => exact absurd rfl hne
  | cons q l ih =>
    obtain ⟨hq, hnodup⟩ := List.nodup_cons.mp hnodup
    have hqsel : d.qmask.getLsbD q.val = true := (hsel q).mpr (.inr List.mem_cons_self)
    obtain ⟨w, hstep, hIw, hkeep, hGq, hother⟩ := hact t q hqsel hI (hN q (hnew q List.mem_cons_self))
    have hNw : ∀ i, i ∉ q :: P → N i (w.quire i) := fun i hi => (hother i fun h => hi (h ▸ List.mem_cons_self)).1 (hN i fun h => hi (List.mem_cons_of_mem _ h))
    have hGw : ∀ i ∈ q :: P, G i (w.quire i) := fun i hi => by
      rcases eq_or_ne i q with rfl | hne
      · exact hGq
      · exact (hother i hne).2 (hG i ((List.mem_cons.mp hi).resolve_left hne))
    have hsel' : ∀ i : QId, d.qmask.getLsbD i.val = true ↔ i ∈ q :: P ∨ i ∈ l := fun i => by
      rw [hsel, List.mem_cons, List.mem_cons]
      tauto
    rw [State.each, List.foldl_cons, hstep]
    cases l with
    | nil =>
      obtain ⟨A, hlast⟩ := (hkeep P hopen).last hqsel fun i hi => ((hsel' i).mp hi).resolve_right List.not_mem_nil
      exact ⟨w, A, hlast, hIw, fun i hi => hGw i (((hsel' i).mp hi).resolve_right List.not_mem_nil), fun i hi => hNw i fun h => hi ((hsel' i).mpr (.inl h))⟩
    | cons r l =>
      have hrq : r ≠ q := fun h => hq (h ▸ List.mem_cons_self)
      obtain ⟨A, hdone, hopen'⟩ := (hkeep P hopen).done ((hsel r).mpr (.inr (List.mem_cons_of_mem _ List.mem_cons_self))) (hnew r (List.mem_cons_of_mem _ List.mem_cons_self)) hrq
      rw [hdone]
      exact ih (q :: P) { w with maskWaits := A } (List.cons_ne_nil _ _) hnodup
        (fun i hi h => (List.mem_cons.mp h).elim (fun h => hq (h ▸ hi)) (hnew i (List.mem_cons_of_mem _ hi))) hsel' (hwaits w A hIw) hopen' hNw hGw

end

end Sys2Proof.Machine

end

section

/-! # ARM and START (R105, R617, R624 to R626, R710 to R718) -/

namespace Sys2Proof.Machine

/-! ### ARM -/

/-- ARM parks the outputs and sets the sequencer to the start entry, with the waits that stand there on its path. -/
theorem Quire.arm_shape (x : Quire) (d : ReplyTo) : ∃ (waits : List Block) (n : Nat) (m : Dram), (∀ b ∈ waits, b.isWait = true) ∧ x.arm d = { x.park with
    state := .armed, occupied := some (.arm d), dram := m, seq := { Sequencer.reset with pc := n, entry := x.startEntry, plan := waits } } := by
  obtain ⟨waits, hwait, -, heq⟩ := passWaits_shape 256 { x.park with
    state := .armed, occupied := some (.arm d), seq := { Sequencer.reset with pc := x.startEntry, entry := x.startEntry }
    dram := if x.mustRaise && x.dram.changing.isNone then { x.dram with changing := some false } else x.dram }
  exact ⟨waits, _, _, hwait, heq⟩

theorem armCheck_none {x : Quire} (hstate : x.state = .collated ∨ x.state = .stopped) (hpmu : ∀ j, x.pmu = some j → bit (x.cfg 0x0A 0) j.pin = true) : armCheck x = none := by
  have hblock : x.pmuBlocksArm = false := by
    unfold Quire.pmuBlocksArm
    cases hj : x.pmu with
    | none => rfl
    | some j => exact congrArg (!·) (hpmu j hj)
  have hok : ¬(x.state ≠ .collated ∧ x.state ≠ .stopped) := fun h => hstate.elim h.1 h.2
  rw [armCheck, if_neg hok, hblock]
  rfl

/-- ARM arms its quires, and leaves the others. -/
theorem exec_arm {s : State} {h : Hdr} {p : Params} (ht : s.Takes opArm h p)
    (hsel : ∀ r : QId, h.qmask.getLsbD r.val = true → s.owns h.link r = true ∧ ((s.quire r).state = .collated ∨ (s.quire r).state = .stopped)
      ∧ ∀ j, (s.quire r).pmu = some j → bit ((s.quire r).cfg 0x0A 0) j.pin = true) :
    ∃ t, exec (.arm h p) s = .next t ∧ t.sent = s.sent ∧ ∀ r : QId, t.quire r = if h.qmask.getLsbD r.val = true then (s.quire r).arm (hdrDest h 0x11) else s.quire r := by
  have howns : ∀ q ∈ quiresOf h.qmask, s.owns h.link q = true := fun q hq => (hsel q (mem_quiresOf.mp hq)).1
  have hcheck : ∀ q ∈ quiresOf h.qmask, armCheck (s.quire q) = none := fun q hq => by
    obtain ⟨-, hstate, hpmu⟩ := hsel q (mem_quiresOf.mp hq)
    exact armCheck_none hstate hpmu
  have hexec : exec (.arm h p) s = .next _ := congrArg Host.Outcome.next (front_maskCommand (o := opArm) (row := .arm) (run := doArm) (doArm.eq_1 h p s) (by decide) ht howns hcheck)
  rw [State.each_maskPart (fun x => x.arm (hdrDest h 0x11)) _ (nodup_quiresOf _) _ (ht.parts (by decide) _ howns hcheck) fun _ _ _ _ => rfl] at hexec
  have hquire : ∀ r, ((s.taken h opArm.opcode).openMask (hdrDest h opArm.opcode)).quire r = s.quire r := fun r => State.quire_congr _ _ r (s.taken_booked h opArm.opcode).quires
  have hsent : ((s.taken h opArm.opcode).openMask (hdrDest h opArm.opcode)).sent = s.sent := ht.due.sent
  generalize (s.taken h opArm.opcode).openMask (hdrDest h opArm.opcode) = u at *
  obtain ⟨⟨qs, hframe⟩, heach⟩ := State.each_modQuire (fun x => x.arm (hdrDest h 0x11)) _ (nodup_quiresOf h.qmask) u
  refine ⟨_, hexec, by rw [hframe]; exact hsent, fun r => (heach r).trans ?_⟩
  simp only [mem_quiresOf, hquire]

/-! ### The event FIFOs of an armed quire are filled (R617) -/

section
variable {s : State} {q : QId} {d : ReplyTo}

theorem Quire.mustRaise_false {x : Quire} (h : x.dram.available = false ∨ x.dram.rateSet = false ∨ x.sramOnly = true) : x.mustRaise = false := by
  unfold Quire.mustRaise
  rcases h with h | h | h <;> simp [h]

theorem exec_armFillDone (hocc : (s.quire q).occupied = some (.arm d)) (hfull : 8 ≤ (s.quire q).fifo.length) (hchange : (s.quire q).dram.changing = none)
    (hraise : (s.quire q).dram.available = false ∨ (s.quire q).dram.rateSet = false ∨ (s.quire q).sramOnly = true) :
    exec (.armFillDone q) s = .next ((s.modQuire q fun x => { x with occupied := some (.ended d) }).quireDone d q stOk) := by
  have hfilled : (s.quire q).filled = true := by simp [Quire.filled, hfull]
  show Host.Outcome.next (armFillDone q s) = _
  unfold armFillDone
  rw [hocc]
  dsimp only
  rw [hfilled, Quire.mustRaise_false hraise, hchange]
  rfl

theorem exec_armFillDone_filling (hocc : (s.quire q).occupied = some (.arm d)) (hfill : (s.quire q).filled = false) : exec (.armFillDone q) s = .next s := by
  show Host.Outcome.next (armFillDone q s) = _
  unfold armFillDone
  rw [hocc]
  dsimp only
  rw [hfill]
  rfl

theorem quire_map (s : State) (f : Quire → Quire) (r : QId) : ({ s with quires := s.quires.map f } : State).quire r = f (s.quire r) := Vector.getElem_map ..

/-- The last quire of an ARM is filled: the command answers, and lets its quires go. -/
theorem armFillDone_replies (howes : s.OwesOne d q) : ∃ t, (s.modQuire q fun x => { x with occupied := some (.ended d) }).quireDone d q stOk = t ∧ s.Replied t d stOk 0 (maskBytes d.qmask fun _ => stOk)
    ∧ t.quire q = { s.quire q with occupied := none } ∧ ∀ r, r ≠ q → t.quire r = (s.quire r).unoccupy d := by
  obtain ⟨A, hdone⟩ := howes.done (t := s.modQuire q fun x => { x with occupied := some (.ended d) }) rfl
  refine ⟨_, rfl, ?_, ?_, fun r hr => ?_⟩
  · rw [hdone]
    exact howes.1.replied (t := { s.modQuire q fun x => { x with occupied := some (.ended d) } with maskWaits := A, quires := _ }) rfl rfl rfl rfl _ _ _
  · rw [hdone, State.reply_quire]
    refine (quire_map _ _ q).trans ?_
    rw [State.quire_modQuire_same]
    exact if_pos rfl
  · rw [hdone, State.reply_quire]
    refine (quire_map _ _ r).trans ?_
    rw [State.quire_modQuire_other _ _ _ _ hr]

/-- A quire of an ARM of several is filled before the last one. -/
theorem quireDone_waits {m : MaskWait} (hfind : s.maskWaits.find? (fun m => m.dest = d) = some m) {r : QId} (hr : r ≠ q) (hwait : m.waiting.getLsbD r.val = true) (st : Byte) :
    ∃ A, s.quireDone d q st = { s with maskWaits := A } := by
  have hne : m.waiting &&& ~~~(BitVec.ofNat 8 (2 ^ q.val)) ≠ 0 := fun h => by
    have hbit := getLsbD_clearBit m.waiting q r
    rw [h, hwait, decide_eq_true hr] at hbit
    simp at hbit
  unfold State.quireDone
  rw [hfind]
  dsimp only
  rw [if_neg hne]
  exact ⟨_, rfl⟩

end

/-! ### A run begins (R38, R255, R335, R374) -/

/-- The run of quire `b`, which was `a`, begins at chip time `origin`, `instant` from power-on. -/
def Quire.Begun (a b : Quire) (origin instant : Nat) : Prop :=
  b.state = .running ∧ b.originNs = origin ∧ b.originAt = instant ∧ b.vecCount = 0 ∧ b.elapsed = 0 ∧ b.startPending = none
    ∧ b.verdicts = [] ∧ b.seq.entry = a.startEntry ∧ b.termOn = a.termSet ∧ Counted 1 (a.liveReg (rk 0 4)) (b.liveReg (rk 0 4))

theorem W.markerEvent_liveReg (w : W) (m n b : Nat) {k : Nat} (hk : k ≠ rk 0x0B (0x100 + 4 * m)) : (w.markerEvent m n b).q.liveReg k = w.q.liveReg k := by
  unfold W.markerEvent
  extract_lets t w1 was w2
  split
  · rfl
  · exact w2.bump_liveReg_other 1 hk

theorem W.markerFire_keeps (w : W) (source : Nat) (hit : Nat → Bool) {k : Nat} (hk : k < rk 0x0B 0) :
    w.q.Marked (w.markerFire source hit).q ∧ (w.Quiet → (w.markerFire source hit).Quiet) ∧ (w.markerFire source hit).q.liveReg k = w.q.liveReg k := by
  refine List.foldlRecOn (motive := fun v : W => w.q.Marked v.q ∧ (w.Quiet → v.Quiet) ∧ v.q.liveReg k = w.q.liveReg k) _ _ ⟨.refl _, id, rfl⟩ fun v hv m _ => ?_
  obtain ⟨hmark, hquiet, hlive⟩ := hv
  split
  · obtain ⟨hmark', hquiet'⟩ := v.markerEvent_marked m v.q.vecCount v.q.position
    exact ⟨hmark.trans hmark', hquiet' ∘ hquiet, (v.markerEvent_liveReg m _ _ (by simp only [rk] at hk ⊢; omega)).trans hlive⟩
  · exact ⟨hmark, hquiet, hlive⟩

/-- The counters of capture that a new run clears. -/
def runCounter (k : Nat) : Bool := [0x200, 0x204, 0x208, 0x20C, 0x210, 0x21C, 0x220, 0x224, 0x228, 0x22C, 0x230].contains (k - rk 0x0C 0) && rk 0x0C 0 ≤ k

/-- The quire without the results of the last run. -/
def Quire.cleared (x : Quire) : Quire :=
  { x with
    live := sdrop runCounter x.live, firstN := [], nextFirstN := 0, raw := [], rawBuf := [], nextRaw := 0, verdicts := [], nextRec := 0, verdictRead := [],
    insts := [], run := { RunVerdict.reset with active := true } }

theorem Quire.clearRun_eq (x : Quire) : x.clearRun = if bit x.capCtrl 5 = true then x.cleared else
    { x.cleared.clearAccumulated with live := sdrop (fun k => k = rk 0x0C 0x214 || k = rk 0x0C 0x218) x.cleared.clearAccumulated.live } := rfl

theorem Quire.clearRun_liveReg (x : Quire) {k : Nat} (hk : k < rk 0x0C 0) : x.clearRun.liveReg k = x.liveReg k := by
  have hle : decide (rk 0x0C 0 ≤ k) = false := decide_eq_false (by omega)
  have hdrop : ∀ (p : Nat → Bool) (m : Regs), p k = false → rget k (sdrop p m) = rget k m := fun p m hp => by
    rw [rget, sget_sdrop, hp, if_neg Bool.false_ne_true, rget]
  have hq : x.cleared.liveReg k = x.liveReg k := hdrop runCounter x.live (by rw [runCounter, hle, Bool.and_false])
  rw [x.clearRun_eq]
  split
  · exact hq
  · have hlow : k < 2 ^ 20 * 12 := by simpa only [rk, Nat.add_zero] using hk
    have hregions : decide (rk 0x0C 0x300 ≤ k) = false := decide_eq_false (by simp only [rk]; omega)
    have hsums : decide (k = rk 0x0C 0x214) = false ∧ decide (k = rk 0x0C 0x218) = false := ⟨decide_eq_false (by simp only [rk]; omega), decide_eq_false (by simp only [rk]; omega)⟩
    refine (hdrop (fun k => k = rk 0x0C 0x214 || k = rk 0x0C 0x218) _ (by rw [hsums.1, hsums.2]; rfl)).trans
      ((hdrop (fun k => rk 0x0C 0x300 ≤ k && k < rk 0x0C 0x380) _ (by rw [hregions, Bool.false_and])).trans hq)

/-- The quire as its run begins, before the run counts. -/
def Quire.beginning (x : Quire) (originNs originAt : Nat) : Quire :=
  { x.clearRun with
    state := .running, startPending := none, pausePending := false, hostPaused := false, resumePending := false
    originNs := originNs, originAt := originAt, elapsed := 0, vecCount := 0, termOn := x.clearRun.termSet, fillLow := x.clearRun.fill, lowestFill := x.clearRun.fill, highFill := 0
    playing := none, recent := [], skipping := false, edgeBad := [], sweep := none, pastSweeps := [], applied := List.replicate 32 0
    seq := { x.clearRun.seq with entry := x.clearRun.startEntry, lastSet := none, ozPlayed := false } }

theorem W.beginRun_eq (x : Quire) (n a : Nat) : x.w.beginRun n a = (((x.beginning n a).w).bump (rk 0 4)).markerFire 1 fun _ => true := rfl

/-- What a new run leaves of its quire. -/
theorem Quire.clearRun_keeps (x : Quire) : x.clearRun.verdicts = [] ∧ x.clearRun.reserved = x.reserved ∧ x.clearRun.startEntry = x.startEntry ∧ x.clearRun.termSet = x.termSet := by
  rw [x.clearRun_eq]
  split
  · exact ⟨rfl, rfl, rfl, rfl⟩
  · exact ⟨rfl, rfl, rfl, rfl⟩

theorem Quire.beginRun_begun (x : Quire) (n a : Nat) : (x.w.beginRun n a).Quiet ∧ x.Begun (x.w.beginRun n a).q n a ∧ (x.w.beginRun n a).q.reserved = x.reserved
    ∧ (x.w.beginRun n a).q.occupied = x.occupied := by
  rw [W.beginRun_eq]
  obtain ⟨hverdicts, hreserved, hentry, hterm⟩ := x.clearRun_keeps
  have hocc : x.clearRun.occupied = x.occupied := by
    rw [x.clearRun_eq]
    split
    · rfl
    · rfl
  have hcount : Counted 1 (x.liveReg (rk 0 4)) (((x.beginning n a).w.bump (rk 0 4)).q.liveReg (rk 0 4)) := by
    rw [← x.clearRun_liveReg (k := rk 0 4) (by decide)]
    exact (x.beginning n a).bump_counted (rk 0 4) 1
  obtain ⟨hmark, hquiet, hlive⟩ := ((x.beginning n a).w.bump (rk 0 4)).markerFire_keeps 1 (fun _ => true) (k := rk 0 4) (by decide)
  have hmark := ((x.beginning n a).bump_counts (rk 0 4) 1).marked.trans hmark
  refine ⟨hquiet ((x.beginning n a).bump_quiet _ _), ?_, ?_, ?_⟩
  · rw [← hlive] at hcount
    generalize (((x.beginning n a).w.bump (rk 0 4)).markerFire 1 fun _ => true).q = z at *
    unfold Quire.Marked at hmark
    refine ⟨?_, ?_, ?_, ?_, ?_, ?_, ?_, ?_, ?_, hcount⟩
    iterate 6 rw [hmark]; rfl
    · rw [hmark]; exact hverdicts
    · rw [hmark]; exact hentry
    · rw [hmark]; exact hterm
  · rw [hmark]; exact hreserved
  · rw [hmark]; exact hocc

/-- START_AT_TIME: the run begins at its start time (R664). -/
theorem exec_startAtTime {s : State} {q : QId} {at_ : Nat} (hstate : (s.quire q).state = .armed) (hpend : (s.quire q).startPending = some at_) (hruns : s.timingRuns = true) (hdue : at_ ≤ s.time.ns) :
    ∃ t, exec (.startAtTime q) s = .next t ∧ s.Within t q ∧ (s.quire q).Begun (t.quire q) at_ (s.ctx.instantOf at_) := by
  have hexec : exec (.startAtTime q) s = .next (s.startRun q at_ (s.ctx.instantOf at_)) := by
    show Host.Outcome.next (startAtTime q s) = _
    unfold startAtTime
    rw [hstate, hpend]
    dsimp only
    rw [hruns, decide_eq_true hdue]
    rfl
  obtain ⟨hquiet, hbegun, -⟩ := (s.quire q).beginRun_begun at_ (s.ctx.instantOf at_)
  obtain ⟨hwithin, hquire⟩ := s.onQuire_within q (fun x => x.w.beginRun at_ (s.ctx.instantOf at_)) hquiet
  exact ⟨_, hexec, hwithin, by rw [State.startRun, hquire]; exact hbegun⟩

/-! ### START is taken up (R624, R711) -/

section
variable {s : State} {h : Hdr} {p : Params}

theorem exec_start (ht : s.Takes opStart h p) (hform : t12Ok s.modeOz p 0 = true) (hat : parT12 s.modeOz p 0 = 0 ∨ s.time.ns + 2000 ≤ parT12 s.modeOz p 0)
    (howns : ∀ r : QId, h.qmask.getLsbD r.val = true → s.owns h.link r = true) (harmed : ∀ r : QId, h.qmask.getLsbD r.val = true → (s.quire r).state = .armed) :
    exec (.start h p) s = .next (startCommand h (parT12 s.modeOz p 0) (s.taken h opStart.opcode) (hdrDest h opStart.opcode)) := by
  have hmode : (s.taken h opStart.opcode).modeOz = s.modeOz := by rw [(s.taken_booked h opStart.opcode).1]
  have hrange : (!t12Ok s.modeOz p 0 || (decide (parT12 s.modeOz p 0 ≠ 0) && decide (parT12 s.modeOz p 0 < s.time.ns + 2000))) = false := by
    rw [hform]
    rcases hat with h | h
    · simp [h]
    · simp [Nat.not_lt.mpr h]
  refine (exec_maskPacket (i := .start h p) (o := opStart) (row := .start) (run := doStart) rfl (doStart.eq_1 h p s) (by decide) ht ?_ (fun q hq => howns q (mem_quiresOf.mp hq))
    fun q hq => ?_).trans ?_
  · simp only [State.freeBuffer_modeOz, State.freeBuffer_time]
    rw [if_neg (by rw [hrange]; exact Bool.false_ne_true)]
  · rw [stateCheck, harmed q (mem_quiresOf.mp hq)]
    rfl
  · rw [hmode]

theorem State.taken_isOpen (s : State) (h : Hdr) {op : Byte} (hop : op ≠ 0x01) (k : LinkId) : ((s.taken h op).session k).isOpen = (s.session k).isOpen := by
  rcases eq_or_ne k h.link with rfl | hk
  · simp [State.taken, State.accept_session _ _ _ hop]
  · rw [State.taken, State.accept_session_other _ _ _ _ hk, State.freeBuffer_session]

/-- A packet that is taken leaves what the governor sees of the chip. -/
theorem State.taken_governor (s : State) (h : Hdr) {op : Byte} (hop : op ≠ 0x01) (m : Byte) (n : Nat) : (s.taken h op).admits h.link m = s.admits h.link m
    ∧ (s.taken h op).vcoreReaches m = s.vcoreReaches m ∧ (s.taken h op).vcoreThere m = s.vcoreThere m ∧ (s.taken h op).vcoreInTime m n = s.vcoreInTime m n := by
  have hb := s.taken_booked h op
  have hquire : ∀ q, (s.taken h op).quire q = s.quire q := fun q => State.quire_congr _ _ q hb.quires
  have hreg : ∀ k, k < rk 8 0 ∨ rk 9 0 ≤ k → (s.taken h op).reg k = s.reg k := fun k hk => hb.2.2 k (by simp) (by simp only [rk] at hk ⊢; omega)
  have hgov : (s.taken h op).gov = s.gov := by rw [hb.1]
  have htime : (s.taken h op).time = s.time := by rw [hb.1]
  have hpower : (s.taken h op).allocatable = s.allocatable := by
    rw [State.allocatable, State.capMw, State.fixedMw, hreg _ (by decide), hreg _ (by decide)]
    rfl
  have hweight : ∀ k, (s.taken h op).weight k = s.weight k := fun k => by
    have := k.isLt
    rw [State.weight, hreg _ (by simp only [rk]; omega)]
    rfl
  have hweights : (s.taken h op).weights = s.weights := by simp only [State.weights, s.taken_isOpen h hop, funext hweight]
  have halloc : (s.taken h op).allocation h.link = s.allocation h.link := by simp only [State.allocation, s.taken_isOpen h hop, hweights, hweight, hpower]
  have hreaches : (s.taken h op).vcoreReaches m = s.vcoreReaches m := by simp only [State.vcoreReaches, hgov, hquire]
  have hgap : (s.taken h op).vcoreGap = s.vcoreGap := by simp only [State.vcoreGap, State.vcoreTarget, hgov, hquire]
  have hbus : (s.taken h op).pmCommandNs = s.pmCommandNs ∧ (s.taken h op).pmSlew 0 = s.pmSlew 0 := by
    rw [State.pmCommandNs, State.pmKhz, hreg _ (by decide), State.pmSlew, hreg _ (by decide)]
    exact ⟨rfl, rfl⟩
  refine ⟨by simp only [State.admits, halloc, hpower, hgov, hquire], hreaches, by rw [State.vcoreThere, hreaches, hgov, hgap]; rfl, ?_⟩
  rw [State.vcoreInTime, hreaches, hgov, hgap, htime, hbus.1, hbus.2]
  rfl

/-! ### The runs of a START begin (R625) -/

/-- The runs of several quires begin together. -/
theorem State.each_startRun (l : List QId) (hl : l.Nodup) (s : State) : ∃ t, s.each l (fun u q => u.startRun q u.time.ns (4000 * u.time.ticks)) = t
    ∧ (∃ qs lg sp, t = { s with quires := qs, log := lg, collector := { s.collector with satPages := sp } }) ∧ (∀ q, (t.quire q).occupied = (s.quire q).occupied)
    ∧ (∀ q ∈ l, (s.quire q).Begun (t.quire q) s.time.ns (4000 * s.time.ticks) ∧ (t.quire q).reserved = (s.quire q).reserved) ∧ ∀ q, q ∉ l → t.quire q = s.quire q := by
  induction l generalizing s with
  | nil => exact ⟨_, rfl, ⟨_, _, _, rfl⟩, fun _ => rfl, nofun, fun _ _ => rfl⟩
  | cons g l ih =>
    obtain ⟨hg, hl⟩ := List.nodup_cons.mp hl
    obtain ⟨hquiet, hbegun, hreserved, hocc⟩ := (s.quire g).beginRun_begun s.time.ns (4000 * s.time.ticks)
    obtain ⟨hwithin, hreports, hquire⟩ := s.onQuire_logs g (fun x => x.w.beginRun s.time.ns (4000 * s.time.ticks)) hquiet
    have hhead : s.startRun g s.time.ns (4000 * s.time.ticks) = s.onQuire g fun x => x.w.beginRun s.time.ns (4000 * s.time.ticks) := rfl
    rw [← hhead] at hwithin hreports hquire
    rw [State.each, List.foldl_cons]
    generalize s.startRun g s.time.ns (4000 * s.time.ticks) = u at *
    obtain ⟨hother, hframe⟩ := hwithin
    have htime : u.time = s.time := by rw [hframe]
    obtain ⟨t, rfl, ⟨qs, lg, sp, hrest⟩, hoccs, hin, hout⟩ := ih hl u
    refine ⟨_, rfl, ?_, fun q => ?_, fun q hq => ?_, fun q hq => ?_⟩
    · refine ⟨qs, lg, sp, hrest.trans ?_⟩
      rw [hframe, hreports]
    · refine (hoccs q).trans ?_
      rcases eq_or_ne q g with rfl | hq
      · rw [hquire, hocc]
      · rw [hother q hq]
    · rcases eq_or_ne q g with rfl | hne
      · rw [State.each] at hout
        rw [hout q hg, hquire]
        exact ⟨hbegun, hreserved⟩
      · have := hin q ((List.mem_cons.mp hq).resolve_left hne)
        rwa [htime, hother q hne] at this
    · exact (hout q (List.not_mem_of_not_mem_cons hq)).trans (hother q (List.ne_of_not_mem_cons hq))

/-- The result bytes of a command on several quires that ended alike. -/
theorem maskBytes_const (mask st : Byte) : ((List.range 8).map fun i => if mask.getLsbD i then st else 0xFF) = maskBytes mask fun _ => st := by
  rw [maskBytes, ← List.map_coe_finRange_eq_range, List.map_map]
  rfl

end

/-! ### START takes effect (R625) -/

/-- A START whose runs begin now. -/
theorem State.startNow_runs (u : State) (d : ReplyTo) (mask : Byte) : ∃ t, u.startNow d mask = t.reply d stOk 0 (maskBytes mask fun _ => stOk)
    ∧ (∃ qs lg sp rs, t = { u with quires := qs, regs := rs, log := lg, collector := { u.collector with satPages := sp } }) ∧ (∀ q, (t.quire q).occupied = (u.quire q).occupied)
    ∧ Counted 1 (u.reg (rk 5 0x300)) (t.reg (rk 5 0x300))
    ∧ (∀ q : QId, mask.getLsbD q.val = true → (u.quire q).Begun (t.quire q) u.time.ns (4000 * u.time.ticks) ∧ (t.quire q).reserved = (u.quire q).reserved)
    ∧ ∀ q : QId, ¬mask.getLsbD q.val = true → t.quire q = u.quire q := by
  have hcount := u.bump_counted (rk 5 0x300) 1
  obtain ⟨l, c, hbump⟩ := u.bump_shape (rk 5 0x300) 1
  have hnow : u.startNow d mask = ((u.bump (rk 5 0x300)).each (quiresOf mask) fun s q => s.startRun q s.time.ns (4000 * s.time.ticks)).reply d stOk 0 (maskBytes mask fun _ => stOk) := by
    rw [← maskBytes_const]
    rfl
  have hquire : ∀ q, (u.bump (rk 5 0x300)).quire q = u.quire q := fun q => State.quire_congr _ _ q (u.bump_quires _ _)
  have htime : (u.bump (rk 5 0x300)).time = u.time := by rw [hbump]
  obtain ⟨t, heach, ⟨qs, lg, sp, hframe⟩, hocc, hin, hout⟩ := State.each_startRun (quiresOf mask) (nodup_quiresOf mask) (u.bump (rk 5 0x300))
  simp only [hquire, htime] at hocc hin hout
  have hregs : t.regs = (u.bump (rk 5 0x300)).regs := by rw [hframe]
  refine ⟨t, by rw [hnow, heach], ⟨qs, lg, sp, _, by rw [hframe, hbump]⟩, hocc, ?_, fun q hq => hin q (mem_quiresOf.mpr hq), fun q hq => hout q fun h => hq (mem_quiresOf.mp h)⟩
  have hreg : t.reg (rk 5 0x300) = (u.bump (rk 5 0x300)).reg (rk 5 0x300) := by rw [State.reg, hregs, State.reg]
  rw [hreg]
  exact hcount

/-- What the reply to a command leaves. -/
theorem State.reply_keeps (u : State) (d : ReplyTo) (st : Byte) (dt : BitVec 16) (res : List Byte) : (u.reply d st dt res).quires = u.quires ∧ (u.reply d st dt res).gov = u.gov
    ∧ ∀ k, k < rk 8 0x104 → (u.reply d st dt res).reg k = u.reg k :=
  ⟨u.reply_quires .., u.reply_gov .., fun k hk => (u.reply_answered d st dt res).regs k (.inl hk)⟩

section
variable {s v : State} {h : Hdr}

/-- Power is reserved for the quires of a mask, or released. -/
theorem reserveAll_quires (v : State) (mask : Byte) (b : Bool) : (∃ qs, reserveAll v mask b = { v with quires := qs })
    ∧ ∀ q : QId, (reserveAll v mask b).quire q = if mask.getLsbD q.val = true then { v.quire q with reserved := b } else v.quire q := by
  obtain ⟨hframe, hquire⟩ := State.each_modQuire (fun x : Quire => { x with reserved := b }) (quiresOf mask) (nodup_quiresOf mask) v
  refine ⟨hframe, fun q => (hquire q).trans ?_⟩
  simp only [mem_quiresOf]

/-- Reservations do not move VCORE. -/
theorem reserveAll_vcore (v : State) (mask m : Byte) (b : Bool) : (reserveAll v mask b).vcoreThere m = v.vcoreThere m := by
  obtain ⟨⟨qs, hframe⟩, hquire⟩ := reserveAll_quires v mask b
  have hgov : (reserveAll v mask b).gov = v.gov := by rw [hframe]
  have hfloor : ∀ q, ((reserveAll v mask b).quire q).floorMv = (v.quire q).floorMv ∧ ((reserveAll v mask b).quire q).trimMv = (v.quire q).trimMv ∧ ((reserveAll v mask b).quire q).state = (v.quire q).state := fun q => by
    rw [hquire]
    split
    · exact ⟨rfl, rfl, rfl⟩
    · exact ⟨rfl, rfl, rfl⟩
  generalize reserveAll v mask b = u at *
  have hholds : (fun q => (u.quire q).state.holdsFloor && decide ((u.quire q).floorMv ≠ 0)) = fun q => (v.quire q).state.holdsFloor && decide ((v.quire q).floorMv ≠ 0) := funext fun q => by
    obtain ⟨hf, -, hs⟩ := hfloor q
    rw [hf, hs]
  have hsum : (fun q => (u.quire q).floorMv + (u.quire q).trimMv) = fun q => (v.quire q).floorMv + (v.quire q).trimMv := funext fun q => by
    obtain ⟨hf, ht, -⟩ := hfloor q
    rw [hf, ht]
  have htarget : u.vcoreTarget = v.vcoreTarget := by
    unfold State.vcoreTarget
    rw [hholds, hsum]
  have hreaches : u.vcoreReaches m = v.vcoreReaches m := by
    have hcover : (fun q => decide ((u.quire q).floorMv ≤ v.gov.vcoreMeas)) = fun q => decide ((v.quire q).floorMv ≤ v.gov.vcoreMeas) := funext fun q => by rw [(hfloor q).1]
    rw [State.vcoreReaches, hgov, hcover]
    rfl
  have hgap : u.vcoreGap = v.vcoreGap := by rw [State.vcoreGap, htarget, hgov, State.vcoreGap]
  rw [State.vcoreThere, hreaches, hgap, hgov, State.vcoreThere]

/-- The chip of a START that is taken keeps its reply due while quires start and reserve power. -/
theorem State.Due.runs {o : OpSpec} {t : State} (hdue : s.Due v o h) (hframe : ∃ qs lg sp rs, t = { v with quires := qs, regs := rs, log := lg, collector := { v.collector with satPages := sp } })
    (hocc : ∀ q, (t.quire q).occupied = (v.quire q).occupied) : s.Due t o h := by
  obtain ⟨qs, lg, sp, rs, hframe⟩ := hframe
  exact hdue.of (by rw [hframe]) (by rw [hframe]) (by rw [hframe]) hocc (by rw [hframe]; rfl)

theorem startCommand_refused (hdue : s.Due v opStart h) (n : Nat) (href : ¬(v.admits h.link h.qmask = true ∧ v.vcoreReaches h.qmask = true) ∨ (n ≠ 0 ∧ v.vcoreInTime h.qmask n = false)) :
    ∃ t, startCommand h n v (hdrDest h opStart.opcode) = t ∧ s.Answers t h opStart stBudget 0 (maskBytes h.qmask fun _ => stBudget) ∧ t.quires = v.quires
      ∧ Counted 1 (v.reg (rk 5 0x304)) (t.reg (rk 5 0x304)) := by
  have hcond : (!v.admits h.link h.qmask || !v.vcoreReaches h.qmask || (decide (n ≠ 0) && !v.vcoreInTime h.qmask n)) = true := by
    rcases href with href | ⟨hn, hlate⟩
    · cases ha : v.admits h.link h.qmask
      · rfl
      · cases hr : v.vcoreReaches h.qmask
        · rfl
        · exact absurd ⟨ha, hr⟩ href
    · rw [decide_eq_true hn, hlate, Bool.or_eq_true]
      exact .inr rfl
  obtain ⟨l, c, hbump⟩ := v.bump_shape (rk 5 0x304) 1
  have hdue := hdue.runs (t := v.bump (rk 5 0x304)) ⟨_, _, _, _, hbump⟩ fun q => by rw [State.quire_congr _ _ q (v.bump_quires _ _)]
  obtain ⟨hquires, -, hregs⟩ := (v.bump (rk 5 0x304)).reply_keeps (hdrDest h opStart.opcode) stBudget 0 (maskBytes h.qmask fun _ => stBudget)
  refine ⟨(v.bump (rk 5 0x304)).reply (hdrDest h opStart.opcode) stBudget 0 (maskBytes h.qmask fun _ => stBudget), ?_, hdue.answers _ _ _, hquires.trans (v.bump_quires _ _), ?_⟩
  · unfold startCommand
    rw [if_pos hcond, ← maskBytes_const]
    rfl
  · rw [hregs _ (by decide)]
    exact v.bump_counted _ _

/-- The power of a START's quires is reserved, and it goes on. -/
theorem startCommand_admitted (n : Nat) (hadm : v.admits h.link h.qmask = true) (hreach : v.vcoreReaches h.qmask = true) (htime : n = 0 ∨ v.vcoreInTime h.qmask n = true) (d : ReplyTo) :
    startCommand h n v d = if n ≠ 0 then
      (((reserveAll v h.qmask true).bump (rk 5 0x300)).each (quiresOf h.qmask) fun s q => s.modQuire q fun x => { x with startPending := some n }).reply d stOk 0 (maskBytes h.qmask fun _ => stOk)
    else if v.vcoreThere h.qmask && v.timingRuns then (reserveAll v h.qmask true).startNow d h.qmask
    else { reserveAll v h.qmask true with gov := { (reserveAll v h.qmask true).gov with waiting := (reserveAll v h.qmask true).gov.waiting ++ [{ dest := d, mask := h.qmask, newly := quireMask ((quiresOf h.qmask).filter fun q => !(v.quire q).reserved) }] } } := by
  have hcond : (!v.admits h.link h.qmask || !v.vcoreReaches h.qmask || (decide (n ≠ 0) && !v.vcoreInTime h.qmask n)) = false := by
    rw [hadm, hreach]
    rcases htime with h | h <;> simp [h]
  obtain ⟨qs, hframe⟩ := (reserveAll_quires v h.qmask true).1
  have hruns : (reserveAll v h.qmask true).timingRuns = v.timingRuns := by rw [hframe]; rfl
  unfold startCommand
  rw [if_neg (by rw [hcond]; exact Bool.false_ne_true)]
  dsimp only
  rw [reserveAll_vcore, hruns, ← maskBytes_const]
  rfl

end

/-! ### A START waits for VCORE (R718, R733) -/

/-- A transfer with the regulators that succeeds: its frame, its counter, and its rail. -/
theorem State.pmSend_eq (s : State) (i : Nat) (code : Byte) (reads : Bool) (data : List Byte) : ∃ f : PmFrame, s.pmSend i code reads data 0 =
    ((({ s with gov := { s.gov with bus := s.gov.bus ++ [f] } } : State).bump (rk 10 0x300) 1).modRail i fun v => { v with state := if v.state = .unreachable then .ok else v.state }).vcoreReach := ⟨_, rfl⟩

/-- A transfer counts in one counter alone. -/
theorem State.pmSend_reg (s : State) (i : Nat) (code : Byte) (reads : Bool) (data : List Byte) {k : Nat} (hk : k ≠ rk 10 0x300) : (s.pmSend i code reads data 0).reg k = s.reg k := by
  obtain ⟨f, hf⟩ := s.pmSend_eq i code reads data
  have hreg := State.bump_reg_other { s with gov := { s.gov with bus := s.gov.bus ++ [f] } } (rk 10 0x300) 1 hk
  rw [hf]
  generalize State.bump _ (rk 10 0x300) 1 = u at *
  exact hreg

/-- After a transfer that succeeds VCORE counts as unreachable as its rail does. -/
theorem State.pmSend_vcore (s : State) (i : Nat) (code : Byte) (reads : Bool) (data : List Byte) :
    (s.pmSend i code reads data 0).gov.vcoreUnreachable = decide (((s.pmSend i code reads data 0).rail 0).state = .unreachable) := rfl

/-- A rail that answers is reachable. -/
theorem State.pmSend_reached (s : State) (i : Nat) (code : Byte) (reads : Bool) (data : List Byte) (hpresent : (s.rail i).present = true) :
    ((s.pmSend i code reads data 0).rail i).state ≠ .unreachable := by
  obtain ⟨f, hf⟩ := s.pmSend_eq i code reads data
  obtain ⟨v, hv⟩ : ∃ v, s.gov.rails[i]? = some v := by
    cases hv : s.gov.rails[i]? with
    | none =>
      rw [State.rail, List.getD_eq_getElem?_getD, hv] at hpresent
      exact absurd hpresent (by decide)
    | some v => exact ⟨v, rfl⟩
  have hrail : (s.pmSend i code reads data 0).rail i = { v with state := if v.state = .unreachable then .ok else v.state } := by
    have hrails : (s.pmSend i code reads data 0).gov.rails = lmod s.gov.rails i fun v => { v with state := if v.state = .unreachable then .ok else v.state } := by
      have hgov := State.bump_gov { s with gov := { s.gov with bus := s.gov.bus ++ [f] } } (rk 10 0x300) 1
      rw [hf]
      generalize State.bump _ (rk 10 0x300) 1 = u at *
      show lmod u.gov.rails i _ = _
      rw [hgov]
    rw [State.rail, hrails, lmod, hv]
    dsimp only
    rw [List.getD_eq_getElem?_getD, List.getElem?_set_self (List.getElem?_eq_some_iff.mp hv).1]
    rfl
  rw [hrail]
  dsimp only
  split
  · nofun
  · assumption

/-- A transfer with the regulators that leaves VCORE reachable. -/
structure State.Sends (s t : State) : Prop where
  governs : s.Governs t
  reached : (s.rail 0).state ≠ .unreachable ∧ s.gov.vcoreUnreachable = false → t.gov.vcoreUnreachable = false
  regs : ∀ k, k ≠ rk 10 0x300 → t.reg k = s.reg k

theorem State.pmSetpoint_sends (s : State) (i : Nat) : s.Sends (s.pmSetpoint i) where
  governs := (s.pmSetpoint_governs i).1
  reached h := by
    obtain ⟨hgoverns, -⟩ := s.pmSend_governs i pmVoutCommand false (le 2 (linear16 (pmExponent i) (s.pmWanted i)))
    have hvcore := s.pmSend_vcore i pmVoutCommand false (le 2 (linear16 (pmExponent i) (s.pmWanted i)))
    rw [decide_eq_false (hgoverns.reached 0 h.1)] at hvcore
    unfold State.pmSetpoint
    dsimp only
    generalize s.pmSend i pmVoutCommand false (le 2 (linear16 (pmExponent i) (s.pmWanted i))) 0 = t at *
    exact hvcore
  regs k hk := by
    have hreg := s.pmSend_reg i pmVoutCommand false (le 2 (linear16 (pmExponent i) (s.pmWanted i))) hk
    unfold State.pmSetpoint
    dsimp only
    generalize s.pmSend i pmVoutCommand false (le 2 (linear16 (pmExponent i) (s.pmWanted i))) 0 = t at *
    exact hreg

theorem State.retarget_sends (s : State) : s.Sends s.retarget := by
  refine List.foldlRecOn (motive := s.Sends) _ _ ⟨.refl s, And.right, fun _ _ => rfl⟩ fun t ht i _ => ?_
  have hset := t.pmSetpoint_sends i
  exact ⟨ht.governs.trans hset.governs, fun h => hset.reached ⟨ht.governs.reached 0 h.1, ht.reached h⟩, fun k hk => (hset.regs k hk).trans (ht.regs k hk)⟩

/-- A reading of VCORE is shown, its rail is reachable, and the regulators are given their setpoints anew. -/
theorem State.vcoreRead_shape (s : State) (mv : Nat) (hpresent : (s.rail 0).present = true) : ∃ t, s.vcoreRead mv = t
    ∧ (∃ b r p rs lg sp, t = { s with regs := rs, log := lg, collector := { s.collector with satPages := sp }
                                      gov := { s.gov with bus := b, rails := r, setpoints := p, vcoreUnreachable := false, vcoreMeas := mv % 2048 } }) ∧ ∀ k, k ≠ rk 10 0x300 → t.reg k = s.reg k := by
  obtain ⟨⟨hframe, -⟩, -⟩ := s.pmSend_governs 0 pmReadVout true []
  have hreached := s.pmSend_reached 0 pmReadVout true [] hpresent
  have hvcore := s.pmSend_vcore 0 pmReadVout true []
  rw [decide_eq_false hreached] at hvcore
  have hregs : ∀ k, k ≠ rk 10 0x300 → (s.pmSend 0 pmReadVout true [] 0).reg k = s.reg k := fun k hk => s.pmSend_reg 0 pmReadVout true [] hk
  have hread : s.vcoreRead mv = { (s.pmSend 0 pmReadVout true [] 0).modRail 0 fun v => { v with vout := mv % 65536 } with
      gov := { ((s.pmSend 0 pmReadVout true [] 0).modRail 0 fun v => { v with vout := mv % 65536 }).gov with vcoreMeas := mv % 2048 } }.retarget := if_pos hpresent
  rw [hread]
  generalize s.pmSend 0 pmReadVout true [] 0 = u at *
  obtain ⟨⟨hrest, -⟩, hlast, hregs'⟩ := State.retarget_sends { u.modRail 0 fun v => { v with vout := mv % 65536 } with
    gov := { (u.modRail 0 fun v => { v with vout := mv % 65536 }).gov with vcoreMeas := mv % 2048 } }
  have hstill := hlast ⟨?_, hvcore⟩
  · generalize State.retarget _ = t at *
    refine ⟨t, rfl, ⟨t.gov.bus, t.gov.rails, t.gov.setpoints, t.regs, t.log, t.collector.satPages, ?_⟩, fun k hk => (hregs' k hk).trans (hregs k hk)⟩
    rw [hstill, hframe] at hrest
    exact hrest
  · rcases getD_lmod u.gov.rails 0 0 (fun v => { v with vout := mv % 65536 }) .reset with h | h
    · exact (congrArg RailView.state h).trans_ne hreached
    · exact (congrArg RailView.state h).trans_ne hreached

section
variable {s v : State} {w : StartWait}

theorem startWaiter_armed (harmed : ∀ r : QId, w.mask.getLsbD r.val = true → (v.quire r).state = .armed) (expired : Bool) :
    startWaiter expired v w = if v.vcoreThere w.mask && v.timingRuns then v.startNow w.dest w.mask
      else if expired then (reserveAll v w.newly false).refuseBudget w.dest w.mask else { v with gov := { v.gov with waiting := v.gov.waiting ++ [w] } } := by
  have hnone : ((quiresOf w.mask).find? fun q => decide ((v.quire q).state ≠ .armed)) = none := List.find?_eq_none.mpr fun q hq => by
    rw [harmed q (mem_quiresOf.mp hq)]
    decide
  unfold startWaiter
  rw [hnone]

/-- The chip `v` is `s` as far as replies and quires go. -/
structure State.Beside (s v : State) : Prop where
  sent : v.sent = s.sent
  sessions : v.sessions = s.sessions
  links : v.links = s.links
  spine : v.spine = s.spine
  quires : v.quires = s.quires
  time : v.time = s.time

theorem State.Beside.quire (h : s.Beside v) (r : QId) : v.quire r = s.quire r := State.quire_congr _ _ r h.quires

/-- A START whose VCORE is there starts, and answers. -/
theorem startWaiter_starts (howes : s.Owes w.dest) (hv : s.Beside v) :
    ∃ t, v.startNow w.dest w.mask = t ∧ s.Replied t w.dest stOk 0 (maskBytes w.mask fun _ => stOk) ∧ t.gov = v.gov
      ∧ (∀ r : QId, ¬w.mask.getLsbD r.val = true → t.quire r = s.quire r) ∧ ∀ r : QId, w.mask.getLsbD r.val = true → (s.quire r).Begun (t.quire r) s.time.ns (4000 * s.time.ticks) := by
  obtain ⟨t, hnow, ⟨qs, lg, sp, rs, hframe⟩, -, -, hin, hout⟩ := v.startNow_runs w.dest w.mask
  rw [hv.time] at hin
  simp only [hv.quire] at hin hout
  obtain ⟨hquires, hgov, -⟩ := t.reply_keeps w.dest stOk 0 (maskBytes w.mask fun _ => stOk)
  have hquire : ∀ r, (t.reply w.dest stOk 0 (maskBytes w.mask fun _ => stOk)).quire r = t.quire r := fun r => State.quire_congr _ _ r hquires
  have hlinks : t.links = s.links := by rw [hframe, ← hv.links]
  have hsessions : t.sessions = s.sessions := by rw [hframe, ← hv.sessions]
  refine ⟨_, hnow, howes.replied (by rw [hframe, ← hv.sent]) ?_ (by rw [hframe, ← hv.spine]) ?_ _ _ _, hgov.trans (by rw [hframe]), fun r hr => (hquire r).trans (hout r hr), fun r hr => ?_⟩
  · rw [State.linkUp, State.link_congr s t _ hlinks]
    rfl
  · rw [State.session_congr s t _ hsessions]
  · rw [hquire]
    exact (hin r hr).1

/-- A START that lapses answers BUDGET, and releases what it reserved. -/
theorem startWaiter_lapses (howes : s.Owes w.dest) (hv : s.Beside v) (hreg : v.reg (rk 5 0x304) = s.reg (rk 5 0x304)) :
    ∃ t, (reserveAll v w.newly false).refuseBudget w.dest w.mask = t ∧ s.Replied t w.dest stBudget 0 (maskBytes w.mask fun _ => stBudget)
      ∧ t.gov = v.gov ∧ Counted 1 (s.reg (rk 5 0x304)) (t.reg (rk 5 0x304)) ∧ ∀ r : QId, t.quire r = if w.newly.getLsbD r.val = true then { s.quire r with reserved := false } else s.quire r := by
  obtain ⟨⟨qs, hreserve⟩, hquire⟩ := reserveAll_quires v w.newly false
  have hrefuse : (reserveAll v w.newly false).refuseBudget w.dest w.mask = ((reserveAll v w.newly false).bump (rk 5 0x304)).reply w.dest stBudget 0 (maskBytes w.mask fun _ => stBudget) := by
    rw [State.refuseBudget, maskBytes_const]
  rw [hrefuse]
  have hbefore : (reserveAll v w.newly false).reg (rk 5 0x304) = s.reg (rk 5 0x304) := by
    rw [hreserve]
    exact hreg
  generalize reserveAll v w.newly false = u at *
  have hcount := u.bump_counted (rk 5 0x304) 1
  rw [hbefore] at hcount
  obtain ⟨hquires, hgov, hregs⟩ := (u.bump (rk 5 0x304)).reply_keeps w.dest stBudget 0 (maskBytes w.mask fun _ => stBudget)
  have hlinks : (u.bump (rk 5 0x304)).links = s.links := by rw [State.bump_links, hreserve, ← hv.links]
  have hsessions : (u.bump (rk 5 0x304)).sessions = s.sessions := by rw [State.bump_sessions, hreserve, ← hv.sessions]
  refine ⟨_, rfl, howes.replied (by rw [State.bump_sent, hreserve, ← hv.sent]) ?_ (by rw [State.bump_spine, hreserve, ← hv.spine]) ?_ _ _ _, hgov.trans (by rw [State.bump_gov, hreserve]), ?_, fun r => ?_⟩
  · rw [State.linkUp, State.link_congr s _ _ hlinks]
    rfl
  · rw [State.session_congr s _ _ hsessions]
  · rw [hregs _ (by decide)]
    exact hcount
  · rw [State.quire_congr _ _ r (hquires.trans (u.bump_quires _ _)), hquire, hv.quire]

theorem startVcoreReady_one (hwait : s.gov.waiting = [w]) (reading : Option Nat) (expired : Bool) :
    exec (.startVcoreReady reading expired) s = .next (startWaiter expired (match reading with
      | some mv => { s.vcoreRead mv with gov := { (s.vcoreRead mv).gov with waiting := [] } }
      | none => { s with gov := { s.gov with waiting := [] } }) w) := by
  show Host.Outcome.next (startVcoreReady reading expired s) = _
  unfold startVcoreReady
  rw [hwait]
  dsimp only
  rw [if_neg (by simp)]
  cases reading <;> rfl

end

/-! ### START of a quire that is not ARMED (R624) -/

section
variable {s : State} {h : Hdr} {p : Params}

/-- The state check of a START. -/
theorem startCheck_eq (x : Quire) : stateCheck (· = .armed) x = if x.state = .armed then none else some (stState, detState reasonState x.state) := by
  unfold stateCheck
  by_cases hx : x.state = .armed
  · rw [if_pos hx, if_pos (decide_eq_true hx)]
  · rw [if_neg hx, if_neg (by simpa using hx)]

theorem quireRefusal_check {o : OpSpec} {t : State} {q : QId} {full : Bool} {check : Quire → Option Refuse} {r : Refuse} (howns : t.owns h.link q = true) (hcoming : t.faultComing q = false)
    (hcheck : check (t.quire q) = some r) : quireRefusal o h t q full none check = some r := by
  unfold quireRefusal
  rw [howns, hcoming, if_neg (by decide), if_neg (by decide), hcheck]

/-- The refusals of a START, quire by quire. -/
theorem startRefusals (ht : s.Takes opStart h p) (howns : ∀ r : QId, h.qmask.getLsbD r.val = true → s.owns h.link r = true) {range : State → Option Refuse}
    (hrange : range (s.freeBuffer h.link h.cls) = none) : maskRefusals opStart h (s.freeBuffer h.link h.cls) range (stateCheck (· = .armed))
      = (List.finRange 8).map fun q => if h.qmask.getLsbD q.val = true then stateCheck (· = .armed) (s.quire q) else none := by
  obtain ⟨-, -, -, -, -, -, -, hcoming, hfull, hocc, -⟩ := ht
  refine List.map_congr_left fun q _ => ?_
  split
  next hq =>
    have hquire := s.freeBuffer_quire h.link h.cls q
    have howns : (s.freeBuffer h.link h.cls).owns h.link q = true := by rw [owns_freeBuffer]; exact howns q hq
    have hcoming : (s.freeBuffer h.link h.cls).faultComing q = false := by rw [faultComing_freeBuffer]; exact hcoming q (mem_quiresOf.mpr hq)
    rw [hrange]
    cases hc : stateCheck (· = .armed) (s.quire q) with
    | some r => exact quireRefusal_check howns hcoming (by rw [hquire]; exact hc)
    | none =>
      refine quireRefusal_none howns hcoming (by rw [hquire]; exact hc) ?_ (hocc.imp id fun h => by rw [hquire]; exact h q (mem_quiresOf.mpr hq))
      rw [State.full, State.freeBuffer_session, decide_eq_false (by omega)]
  · rfl

/-- The first entry of a list over the quires that is not none. -/
theorem find?_finRange_first {α : Type} (f : QId → Option α) (r : QId) (hr : (f r).isSome = true) (hlow : ∀ r' < r, f r' = none) :
    ((List.finRange 8).map f).find? Option.isSome = some (f r) := by
  rw [List.find?_map, List.find?_eq_some_iff_getElem (xs := List.finRange 8) (p := Option.isSome ∘ f) (b := r) |>.mpr ⟨hr, r.val, by simp, by simp, fun j hj => ?_⟩]
  · rfl
  · have hlt : (⟨j, by omega⟩ : QId) < r := hj
    simp [hlow _ hlt]

/-- The result bytes of a START that is refused. -/
theorem refusedBytes_start (h : Hdr) (s : State) : refusedBytes h ((List.finRange 8).map fun q => if h.qmask.getLsbD q.val = true then stateCheck (· = .armed) (s.quire q) else none)
    = maskBytes h.qmask fun r => if (s.quire r).state = .armed then stOk else stState := by
  rw [refusedBytes, maskBytes, ← List.map_coe_finRange_eq_range, List.map_map]
  refine List.map_congr_left fun q _ => ?_
  have hget : ((List.finRange 8).map fun q => if h.qmask.getLsbD q.val = true then stateCheck (· = .armed) (s.quire q) else none).getD q.val none
      = if h.qmask.getLsbD q.val = true then stateCheck (· = .armed) (s.quire q) else none := by
    rw [List.getD_eq_getElem?_getD, List.getElem?_map, List.getElem?_eq_getElem (by simp), List.getElem_finRange]
    rfl
  rw [Function.comp_apply, hget]
  by_cases hq : h.qmask.getLsbD q.val = true
  · rw [if_pos hq, if_pos hq, if_pos hq, startCheck_eq]
    by_cases hx : (s.quire q).state = .armed
    · rw [if_pos hx, if_pos hx]
    · rw [if_neg hx, if_neg hx]
  · rw [if_neg hq, if_neg hq]

/-- A START of a quire that is not ARMED is refused whole, and names the lowest one. -/
theorem exec_start_refused (ht : s.Takes opStart h p) (hform : t12Ok s.modeOz p 0 = true) (hat : parT12 s.modeOz p 0 = 0)
    (howns : ∀ r : QId, h.qmask.getLsbD r.val = true → s.owns h.link r = true) {r : QId} (hr : h.qmask.getLsbD r.val = true) (hstate : (s.quire r).state ≠ .armed)
    (hlow : ∀ r' < r, ¬h.qmask.getLsbD r'.val = true) :
    ∃ t, exec (.start h p) s = .next t ∧ t.quires = s.quires ∧ s.Answers t h opStart stState (detState 0 (s.quire r).state) (maskBytes h.qmask fun r' => if (s.quire r').state = .armed then stOk else stState) := by
  have hexec : exec (.start h p) s = .next (front .start opStart.opcode h p s doStart) := rfl
  rw [front_taken s .start opStart h p doStart (by decide) ht, doStart, maskPacket] at hexec
  have hrange : (if (!t12Ok s.modeOz p 0 || (decide (parT12 s.modeOz p 0 ≠ 0) && decide (parT12 s.modeOz p 0 < s.time.ns + 2000))) = true then rangeAt 0 else none) = none := by
    rw [hform, hat]
    rfl
  have hrefusals := startRefusals ht howns (range := fun s => if (!t12Ok s.modeOz p 0 || (decide (parT12 s.modeOz p 0 ≠ 0) && decide (parT12 s.modeOz p 0 < s.time.ns + 2000))) = true then rangeAt 0 else none) (by
    simp only [State.freeBuffer_modeOz, State.freeBuffer_time]
    exact hrange)
  have hcheck : stateCheck (· = .armed) (s.quire r) = some (stState, detState reasonState (s.quire r).state) := (startCheck_eq _).trans (if_neg hstate)
  have hfind := find?_finRange_first (fun q : QId => if h.qmask.getLsbD q.val = true then stateCheck (· = .armed) (s.quire q) else none) r (by rw [if_pos hr, hcheck]; rfl) fun r' hr' => if_neg (hlow r' hr')
  rw [← hrefusals, if_pos hr, hcheck] at hfind
  have hown : (refusal opStart h p (s.freeBuffer h.link h.cls) fun _ => none) = none := refusal_taken s opStart h p (fun _ => none) ht rfl
  have hbytes := refusedBytes_start h s
  rw [← hrefusals] at hbytes
  refine ⟨_, hexec.trans (congrArg Host.Outcome.next (packet_refused s opStart h p _ _ _ ht.2.1 ht.2.2.1 ((tagUse_freeBuffer s opStart h _ _).trans ht.2.2.2.1)
    (stState, detState reasonState (s.quire r).state) (refusal_check s opStart h p _ _ ht ?_))), ?_, ?_⟩
  · dsimp only
    rw [hfind]
    rfl
  · rw [State.refuse, State.answer_quires, State.freeBuffer_quires]
  · obtain ⟨hstop, hdue⟩ := State.interpreting_restarting s ht.1
    rw [State.Answers, State.refuse, State.answer_sent _ _ (by rw [State.freeBuffer_spine, hstop]) (by rw [State.freeBuffer_restartDue, hdue]) (by rw [State.freeBuffer_linkUp]; exact ht.2.1), State.freeBuffer_sent]
    dsimp only
    rw [hown, if_neg (by simp), hbytes]

end

/-! ### The outcomes of a START that is taken -/

section
variable {s : State} {h : Hdr} {p : Params}

theorem State.taken_quires (s : State) (h : Hdr) (op : Byte) (r : QId) : (s.taken h op).quire r = s.quire r := State.quire_congr _ _ r (s.taken_booked h op).quires

/-- START with time 0 while VCORE is there: the runs begin (R625). -/
theorem start_now (ht : s.Takes opStart h p) (hexec : exec (.start h p) s = .next (startCommand h 0 (s.taken h opStart.opcode) (hdrDest h opStart.opcode)))
    (hadm : s.admits h.link h.qmask = true) (hreach : s.vcoreReaches h.qmask = true) (hthere : s.vcoreThere h.qmask = true) (hruns : s.timingRuns = true) :
    ∃ t, exec (.start h p) s = .next t ∧ s.Answers t h opStart stOk 0 (maskBytes h.qmask fun _ => stOk) ∧ (∀ r : QId, ¬h.qmask.getLsbD r.val = true → t.quire r = s.quire r)
      ∧ Counted 1 (s.reg (rk 5 0x300)) (t.reg (rk 5 0x300))
      ∧ ∀ r : QId, h.qmask.getLsbD r.val = true → (s.quire r).Begun (t.quire r) s.time.ns (4000 * s.time.ticks) ∧ (t.quire r).reserved = true := by
  obtain ⟨hadm', hreach', hthere', -⟩ := s.taken_governor h (op := opStart.opcode) (by decide) h.qmask 0
  have hbooked := s.taken_booked h opStart.opcode
  have hquire := s.taken_quires h opStart.opcode
  have hdue := ht.due
  have htime : (s.taken h opStart.opcode).time = s.time := by rw [hbooked.1]
  have hrun : (s.taken h opStart.opcode).timingRuns = true := by rw [State.timingRuns, hbooked.1]; exact hruns
  have hreg : (s.taken h opStart.opcode).reg (rk 5 0x300) = s.reg (rk 5 0x300) := hbooked.2.2 _ (by simp) (by decide)
  generalize s.taken h opStart.opcode = v at *
  rw [startCommand_admitted 0 (hadm'.trans hadm) (hreach'.trans hreach) (.inl rfl), if_neg (by simp), hthere'.trans hthere, hrun, if_pos (by decide)] at hexec
  obtain ⟨⟨qs, hreserve⟩, hreserved⟩ := reserveAll_quires v h.qmask true
  obtain ⟨t, hnow, ⟨qs', lg, sp, rs, hframe⟩, hocc, hcount, hin, hout⟩ := (reserveAll v h.qmask true).startNow_runs (hdrDest h opStart.opcode) h.qmask
  have hbefore : (reserveAll v h.qmask true).time = s.time ∧ (reserveAll v h.qmask true).reg (rk 5 0x300) = s.reg (rk 5 0x300) := by
    rw [hreserve]
    exact ⟨htime, hreg⟩
  rw [hbefore.1] at hin
  rw [hbefore.2] at hcount
  rw [hnow] at hexec
  generalize reserveAll v h.qmask true = u at *
  have hdue := hdue.runs (t := t) ⟨qs', lg, sp, rs, by rw [hframe, hreserve]⟩ fun q => by
    rw [hocc, hreserved]
    split <;> rfl
  obtain ⟨hquires, -, hregs⟩ := t.reply_keeps (hdrDest h opStart.opcode) stOk 0 (maskBytes h.qmask fun _ => stOk)
  refine ⟨_, hexec, hdue.answers _ _ _, fun r hr => ?_, by rw [hregs _ (by decide)]; exact hcount, fun r hr => ?_⟩
  · rw [State.quire_congr _ _ r hquires, hout r hr, hreserved, if_neg hr, hquire]
  · obtain ⟨hbegun, hres⟩ := hin r hr
    rw [hreserved, if_pos hr, hquire] at hbegun hres
    rw [State.quire_congr _ _ r hquires]
    exact ⟨hbegun, hres⟩

theorem getLsbD_quireMask (m : Byte) (P : QId → Bool) (r : QId) : (quireMask ((quiresOf m).filter P)).getLsbD r.val = (P r && m.getLsbD r.val) := by
  rw [quireMask, quiresOf, List.filter_filter]
  exact getLsbD_maskOf _ r

/-- START with time 0 while VCORE is not there: it waits (R718). -/
theorem start_waits (ht : s.Takes opStart h p) (hexec : exec (.start h p) s = .next (startCommand h 0 (s.taken h opStart.opcode) (hdrDest h opStart.opcode)))
    (hadm : s.admits h.link h.qmask = true) (hreach : s.vcoreReaches h.qmask = true) (hthere : s.vcoreThere h.qmask = false) :
    ∃ t, exec (.start h p) s = .next t ∧ t.sent = s.sent ∧ (∀ r : QId, ¬h.qmask.getLsbD r.val = true → t.quire r = s.quire r)
      ∧ (∀ r : QId, h.qmask.getLsbD r.val = true → t.quire r = { s.quire r with reserved := true })
      ∧ ∃ newly : Byte, (∀ r : QId, newly.getLsbD r.val = true ↔ h.qmask.getLsbD r.val = true ∧ (s.quire r).reserved = false)
        ∧ t.gov.waiting = s.gov.waiting ++ [{ dest := hdrDest h 0x12, mask := h.qmask, newly := newly }] := by
  obtain ⟨hadm', hreach', hthere', -⟩ := s.taken_governor h (op := opStart.opcode) (by decide) h.qmask 0
  have hquire := s.taken_quires h opStart.opcode
  have hsent := ht.due.sent
  have hgov : (s.taken h opStart.opcode).gov = s.gov := by rw [(s.taken_booked h opStart.opcode).1]
  generalize s.taken h opStart.opcode = v at *
  rw [startCommand_admitted 0 (hadm'.trans hadm) (hreach'.trans hreach) (.inl rfl), if_neg (by simp), hthere'.trans hthere, Bool.false_and, if_neg (by decide)] at hexec
  obtain ⟨⟨qs, hreserve⟩, hreserved⟩ := reserveAll_quires v h.qmask true
  rw [← hgov]
  refine ⟨_, hexec, ?_, fun r hr => ?_, fun r hr => ?_, quireMask ((quiresOf h.qmask).filter fun q => !(v.quire q).reserved), fun r => ?_, ?_⟩
  · rw [hreserve]
    exact hsent
  · exact (hreserved r).trans ((if_neg hr).trans (hquire r))
  · exact (hreserved r).trans ((if_pos hr).trans (by rw [hquire]))
  · rw [getLsbD_quireMask, hquire, Bool.and_eq_true, Bool.not_eq_true']
    exact and_comm
  · rw [hreserve]
    rfl

/-- START at a time to come (R625). -/
theorem start_at (ht : s.Takes opStart h p) {n : Nat} (hexec : exec (.start h p) s = .next (startCommand h n (s.taken h opStart.opcode) (hdrDest h opStart.opcode)))
    (hadm : s.admits h.link h.qmask = true) (hreach : s.vcoreReaches h.qmask = true) (hn : n ≠ 0) (hreached : s.vcoreInTime h.qmask n = true) :
    ∃ t, exec (.start h p) s = .next t ∧ s.Answers t h opStart stOk 0 (maskBytes h.qmask fun _ => stOk) ∧ (∀ r : QId, ¬h.qmask.getLsbD r.val = true → t.quire r = s.quire r)
      ∧ Counted 1 (s.reg (rk 5 0x300)) (t.reg (rk 5 0x300)) ∧ ∀ r : QId, h.qmask.getLsbD r.val = true → t.quire r = { s.quire r with reserved := true, startPending := some n } := by
  obtain ⟨hadm', hreach', -, htime'⟩ := s.taken_governor h (op := opStart.opcode) (by decide) h.qmask n
  have hquire := s.taken_quires h opStart.opcode
  have hreg : (s.taken h opStart.opcode).reg (rk 5 0x300) = s.reg (rk 5 0x300) := (s.taken_booked h opStart.opcode).2.2 _ (by simp) (by decide)
  have hdue := ht.due
  generalize s.taken h opStart.opcode = v at *
  rw [startCommand_admitted n (hadm'.trans hadm) (hreach'.trans hreach) (.inr (htime'.trans hreached)), if_pos hn] at hexec
  obtain ⟨⟨qs, hreserve⟩, hreserved⟩ := reserveAll_quires v h.qmask true
  have hcount := (reserveAll v h.qmask true).bump_counted (rk 5 0x300) 1
  obtain ⟨l, c, hbump⟩ := (reserveAll v h.qmask true).bump_shape (rk 5 0x300) 1
  have hbumped := (reserveAll v h.qmask true).bump_quires (rk 5 0x300) 1
  have hbefore : (reserveAll v h.qmask true).reg (rk 5 0x300) = s.reg (rk 5 0x300) := by
    rw [hreserve]
    exact hreg
  rw [hbefore] at hcount
  have hshape : ∃ qs lg sp rs, (reserveAll v h.qmask true).bump (rk 5 0x300) 1 = { v with quires := qs, regs := rs, log := lg, collector := { v.collector with satPages := sp } } :=
    ⟨_, _, _, _, by rw [hbump, hreserve]⟩
  generalize reserveAll v h.qmask true = u at *
  generalize u.bump (rk 5 0x300) 1 = b at *
  obtain ⟨⟨qs', hpend⟩, hpended⟩ := State.each_modQuire (fun x : Quire => { x with startPending := some n }) (quiresOf h.qmask) (nodup_quiresOf _) b
  generalize b.each (quiresOf h.qmask) (fun u q => u.modQuire q fun x : Quire => { x with startPending := some n }) = g at *
  have hb : ∀ r, b.quire r = if h.qmask.getLsbD r.val = true then { s.quire r with reserved := true } else s.quire r := fun r => by
    rw [State.quire_congr _ _ r hbumped, hreserved, hquire]
  have hg : ∀ r, g.quire r = if h.qmask.getLsbD r.val = true then { s.quire r with reserved := true, startPending := some n } else s.quire r := fun r => by
    rw [hpended, hb]
    simp only [mem_quiresOf]
    split <;> rfl
  obtain ⟨qs'', lg, sp, rs, hshape⟩ := hshape
  have hdue := hdue.runs (t := g) ⟨qs', lg, sp, rs, by rw [hpend, hshape]⟩ fun q => by
    rw [hg, hquire]
    split <;> rfl
  obtain ⟨hquires, -, hregs⟩ := g.reply_keeps (hdrDest h opStart.opcode) stOk 0 (maskBytes h.qmask fun _ => stOk)
  refine ⟨_, hexec, hdue.answers _ _ _, fun r hr => ?_, ?_, fun r hr => ?_⟩
  · rw [State.quire_congr _ _ r hquires, hg, if_neg hr]
  · rw [hregs _ (by decide)]
    have hreg' : g.reg (rk 5 0x300) = b.reg (rk 5 0x300) := by rw [hpend]; rfl
    rw [hreg']
    exact hcount
  · rw [State.quire_congr _ _ r hquires, hg, if_pos hr]

end

section
variable {s v : State}

theorem vcoreThere_near (hquires : v.quires = s.quires) (hreached : v.gov.vcoreUnreachable = false) (m : Byte) :
    v.vcoreThere m = decide (s.vcoreTarget ≤ v.gov.vcoreMeas + 10 ∧ v.gov.vcoreMeas ≤ s.vcoreTarget + 10) := by
  have htarget : v.vcoreTarget = s.vcoreTarget := congrArg (fun qs => State.vcoreTarget { s with quires := qs }) hquires
  rw [State.vcoreThere, State.vcoreReaches, hreached, State.vcoreGap, htarget, Bool.not_false, Bool.true_or, Bool.true_and, Bool.false_or]
  exact decide_eq_decide.mpr (by omega)

/-- START_VCORE_READY with a reading: what the waiting START then finds. -/
theorem vcoreReady_reads {w : StartWait} (hwait : s.gov.waiting = [w]) (harmed : ∀ r : QId, w.mask.getLsbD r.val = true → (s.quire r).state = .armed) (mv : Nat) (hpresent : (s.rail 0).present = true) :
    ∃ v : State, (∀ expired, exec (.startVcoreReady (some mv) expired) s = .next (if v.vcoreThere w.mask && v.timingRuns then v.startNow w.dest w.mask
        else if expired then (reserveAll v w.newly false).refuseBudget w.dest w.mask else { v with gov := { v.gov with waiting := v.gov.waiting ++ [w] } }))
      ∧ s.Beside v ∧ v.gov.waiting = [] ∧ v.gov.vcoreMeas = mv % 2048 ∧ v.timingRuns = s.timingRuns
      ∧ v.vcoreThere w.mask = decide (s.vcoreTarget ≤ mv % 2048 + 10 ∧ mv % 2048 ≤ s.vcoreTarget + 10) ∧ v.reg (rk 5 0x304) = s.reg (rk 5 0x304) := by
  have hready := startVcoreReady_one hwait (some mv)
  obtain ⟨u, hread, ⟨b, rl, sp, rs, lg, st, hframe⟩, hregs⟩ := s.vcoreRead_shape mv hpresent
  simp only [hread] at hready
  have hbeside : s.Beside { u with gov := { u.gov with waiting := [] } } := by
    rw [hframe]
    exact ⟨rfl, rfl, rfl, rfl, rfl, rfl⟩
  have hgov : u.gov.vcoreUnreachable = false ∧ u.gov.vcoreMeas = mv % 2048 := by
    rw [hframe]
    exact ⟨rfl, rfl⟩
  have hthere : State.vcoreThere { u with gov := { u.gov with waiting := [] } } w.mask = decide (s.vcoreTarget ≤ mv % 2048 + 10 ∧ mv % 2048 ≤ s.vcoreTarget + 10) := by
    rw [← hgov.2]
    exact vcoreThere_near (v := { u with gov := { u.gov with waiting := [] } }) hbeside.quires hgov.1 w.mask
  refine ⟨_, fun expired => (hready expired).trans (congrArg Host.Outcome.next (startWaiter_armed (v := { u with gov := { u.gov with waiting := [] } }) (fun r hr => ?_) expired)), hbeside, rfl, hgov.2, ?_, hthere, hregs _ (by decide)⟩
  · rw [hbeside.quire]
    exact harmed r hr
  · rw [hframe]
    rfl

end

end Sys2Proof.Machine

namespace Sys2Proof.Proofs
open Sys2Proof.Machine

/-- Settles O33: ARM arms its quires and answers once they are filled, and START reserves, waits, starts or is refused by what the governor sees. -/
theorem armAndStart : Obligations.ArmAndStart := by
  unfold Obligations.ArmAndStart
  intro s h p q d w mv x sel others at_ runs counts admitted near lapses
  refine ⟨fun ht hsel => ?_, fun hocc hfull hchange hraise howes => ?_, fun hocc hfull hchange hraise hwaits => ?_, fun hocc hfill => exec_armFillDone_filling hocc hfill,
    fun ht hform howns => ⟨fun harmed => ⟨fun hat hadm hthere hruns => ?_, fun hat hadm hthere => ?_, fun hat hadm htime => ?_, fun hat href => ?_⟩, fun r hr hat hstate hlow => ?_⟩,
    fun at_ hstate hpend hruns hdue => exec_startAtTime hstate hpend hruns hdue, fun hwait harmed howes => ⟨fun hpresent => ?_, fun hthere => ?_⟩⟩
  · obtain ⟨t, hexec, hsent, hquire⟩ := exec_arm ht hsel
    refine ⟨t, hexec, hsent, fun r hr => (hquire r).trans (if_neg hr), fun r hr => ?_⟩
    obtain ⟨waits, n, m, hwait, harm⟩ := (s.quire r).arm_shape (hdrDest h 0x11)
    dsimp only
    rw [hquire r, if_pos hr, harm]
    exact ⟨rfl, rfl, rfl, rfl, rfl, hwait, rfl⟩
  · rw [exec_armFillDone hocc hfull hchange hraise]
    obtain ⟨t, hdone, hreply, hsame, hother⟩ := armFillDone_replies howes
    exact ⟨t, congrArg Host.Outcome.next hdone, hreply, hsame, hother⟩
  · obtain ⟨m, hfind, r, hr, hwait⟩ := hwaits
    obtain ⟨A, hdone⟩ := quireDone_waits (s := s.modQuire q fun x => { x with occupied := some (.ended d) }) hfind hr hwait stOk
    exact ⟨_, exec_armFillDone hocc hfull hchange hraise, by rw [hdone]; rfl, by rw [hdone]; rfl⟩
  · have hexec := exec_start ht hform (.inl hat) howns harmed
    rw [show parT12 s.modeOz p 0 = 0 from hat] at hexec
    exact start_now ht hexec hadm.1 hadm.2 hthere hruns
  · have hexec := exec_start ht hform (.inl hat) howns harmed
    rw [show parT12 s.modeOz p 0 = 0 from hat] at hexec
    exact start_waits ht hexec hadm.1 hadm.2 hthere
  · exact start_at ht (exec_start ht hform (.inr hat) howns harmed) hadm.1 hadm.2 (by omega) htime
  · have hexec := exec_start ht hform hat howns harmed
    obtain ⟨hadm', hreach', -, htime'⟩ := s.taken_governor h (op := opStart.opcode) (by decide) h.qmask at_
    have hbooked := s.taken_booked h opStart.opcode
    have hreg : (s.taken h opStart.opcode).reg (rk 5 0x304) = s.reg (rk 5 0x304) := hbooked.2.2 _ (by simp) (by decide)
    obtain ⟨t, hstart, hanswers, hquires, hcount⟩ := startCommand_refused ht.due at_ (by rw [hadm', hreach', htime']; exact href)
    rw [hstart] at hexec
    rw [hreg] at hcount
    exact ⟨t, hexec, hanswers, hquires.trans hbooked.quires, hcount⟩
  · obtain ⟨t, hexec, hquires, hanswers⟩ := exec_start_refused ht hform hat howns hr hstate hlow
    exact ⟨t, hexec, hquires, hanswers⟩
  · obtain ⟨v, hread, hbeside, hwaiting, hmeas, hruns', hnear, hreg⟩ := vcoreReady_reads (w := w) hwait harmed mv hpresent
    refine ⟨fun hn hruns => ?_, fun hn => ?_, fun hn => ?_⟩
    · obtain ⟨t, hnow, hreply, hgov, hout, hin⟩ := startWaiter_starts howes hbeside
      rw [hread false, hnear, decide_eq_true hn, hruns', hruns, if_pos (by decide), hnow]
      exact ⟨t, rfl, hreply, hout, by rw [hgov, hmeas], hin⟩
    · rw [hread false, hnear, decide_eq_false hn, Bool.false_and, if_neg (by decide), if_neg (by decide), hwaiting]
      exact ⟨_, rfl, hbeside.sent, hbeside.quires, rfl, hmeas⟩
    · obtain ⟨t, hlapse, hreply, hgov, hcount, hquire⟩ := startWaiter_lapses howes hbeside hreg
      refine ⟨t, ?_, hreply, by rw [hgov, hwaiting], hcount, hquire⟩
      rw [hread true, hnear, decide_eq_false hn, Bool.false_and, if_neg (by decide), if_pos rfl, hlapse]
  · have hbeside : s.Beside { s with gov := { s.gov with waiting := [] } } := ⟨rfl, rfl, rfl, rfl, rfl, rfl⟩
    have hnot : State.vcoreThere { s with gov := { s.gov with waiting := [] } } w.mask = false := hthere
    have hready : ∀ expired, exec (.startVcoreReady none expired) s = _ := fun expired =>
      (startVcoreReady_one hwait none expired).trans (congrArg Host.Outcome.next ((startWaiter_armed (v := { s with gov := { s.gov with waiting := [] } }) harmed expired).trans (by rw [hnot, Bool.false_and, if_neg (by decide)])))
    refine ⟨(hready false).trans (congrArg Host.Outcome.next ?_), ?_⟩
    · rw [if_neg (by decide)]
      dsimp only
      rw [List.nil_append, ← hwait]
    · obtain ⟨t, hlapse, hreply, hgov, hcount, hquire⟩ := startWaiter_lapses howes hbeside rfl
      exact ⟨t, (hready true).trans (congrArg Host.Outcome.next ((if_pos rfl).trans hlapse)), hreply, by rw [hgov], hcount, hquire⟩

end Sys2Proof.Proofs

end

section

/-! # REBIND (R51, R618): what staging a quire anew leaves -/

namespace Sys2Proof.Machine

/-! ### Signatures of a quire -/

/-- Signatures that stand, and that the freeing of buffers leaves as they are. -/
theorem sget_filterMap_keep {α : Type} (r : Nat → α) (g : Nat) (f : Nat × α → Option (Nat × α)) (hkey : ∀ e e', f e = some e' → e'.1 = e.1) (m : Sparse α) (hne : sget r g m ≠ r g)
    (hkeep : f (g, sget r g m) = some (g, sget r g m)) : sget r g (m.filterMap f) = sget r g m := by
  induction m with
  | nil => exact absurd rfl hne
  | cons e m ih =>
    obtain ⟨i, v⟩ := e
    rw [sget] at hne hkeep ⊢
    by_cases hi : i = g
    · rw [if_pos hi] at hne hkeep ⊢
      rw [hi, List.filterMap_cons_some hkeep, sget, if_pos rfl]
    · rw [if_neg hi] at hne hkeep ⊢
      cases hf : f (i, v) with
      | none =>
        rw [List.filterMap_cons_none hf]
        exact ih hne hkeep
      | some e =>
        obtain ⟨j, w⟩ := e
        have hj : j = i := hkey _ _ hf
        rw [List.filterMap_cons_some hf, sget, if_neg (hj ▸ hi)]
        exact ih hne hkeep

theorem sget_mapKey {α : Type} (r : Nat → α) (g : Nat) (f : α → α) (hf : f (r g) = r g) (m : Sparse α) : sget r g (m.map fun e => (e.1, f e.2)) = f (sget r g m) := by
  induction m with
  | nil => exact hf.symm
  | cons e m ih =>
    rw [List.map_cons, sget, sget, ih]
    split
    · rfl
    · rfl

/-- The signature of an entry once buffers freed late are emptied. -/
def Quire.freedSig (x : Quire) (e : Nat × SigState) : SigState := if e.2.buf = .freeDeferred ∧ x.refs e.1 = 0 then e.2.emptied else e.2

theorem Quire.freeDeferred_eq (x : Quire) : x.freeDeferred = { x with sigs := x.sigs.filterMap fun e => if x.freedSig e = SigState.reset then none else some (e.1, x.freedSig e) } := rfl

theorem Quire.freeDeferred_sig (x : Quire) {g : Nat} (h : (x.sig g).buf = .stale) : x.freeDeferred.sig g = x.sig g := by
  have hne : x.sig g ≠ SigState.reset := fun hr => by
    rw [hr] at h
    cases h
  have hkept : x.freedSig (g, x.sig g) = x.sig g := if_neg fun hc => by
    rw [h] at hc
    cases hc.1
  rw [x.freeDeferred_eq]
  refine sget_filterMap_keep _ g _ (fun e e' he => ?_) x.sigs hne ?_
  · split at he
    · cases he
    · rw [← Option.some.inj he]
  · show (if x.freedSig (g, x.sig g) = SigState.reset then none else some (g, x.freedSig (g, x.sig g))) = some (g, x.sig g)
    rw [hkept, if_neg hne]

/-- A STALE signature whose data stands is LOADED anew. -/
def SigState.refreshed (x : SigState) : SigState := if x.buf = .stale && !x.damaged then { x with buf := .loaded, changed := true } else x

theorem SigState.refreshed_stale {x : SigState} (h : x.buf = .stale) : (x.damaged = false → x.refreshed.buf = .loaded) ∧ (x.damaged = true → x.refreshed.buf = .stale) := by
  refine ⟨fun hd => ?_, fun hd => ?_⟩
  · rw [SigState.refreshed, if_pos (by rw [h, hd]; rfl)]
  · rw [SigState.refreshed, if_neg (by rw [hd, Bool.not_true, Bool.and_false]; exact Bool.false_ne_true), h]

/-! ### A quire enters STAGED -/

/-- The quire that enters STAGED from `x` as REBIND leaves it. -/
structure Quire.Staged (x y : Quire) : Prop where
  state : y.state = .staged
  committed : y.committed = x.committed
  staging : y.staging = x.inForce
  pages : y.dirty = 0 ∧ y.sealedPages = 0
  pins : y.pins = List.replicate 32 .highZ ∧ y.termOn = 0
  chunks : y.fifo = [] ∧ y.slots = []
  cleared : bit (x.cfg 0x0C 0) 5 = true → y.bitmap = [] ∧ y.regions = []
  kept : bit (x.cfg 0x0C 0) 5 = false → y.bitmap = x.bitmap ∧ y.regions = x.regions
  sigs : ∀ g, (x.sig g).buf = .stale → y.sig g = (x.sig g).refreshed

/-- What a quire keeps as it leaves its run or its pattern work. -/
structure Quire.Unplayed (x v : Quire) : Prop where
  committed : v.committed = x.committed
  chunks : v.fifo = [] ∧ v.slots = []
  results : v.bitmap = x.bitmap ∧ v.regions = x.regions
  sigs : ∀ g, (x.sig g).buf = .stale → v.sig g = x.sig g

theorem W.cancelPattern_unplayed (w : W) : w.q.Unplayed w.cancelPattern.q ∧ (w.Quiet → w.cancelPattern.Quiet) := by
  have hcounts : w.q.patternGone.Counts w.cancelPattern.q := W.bump_counts (w.upd Quire.patternGone) (rk 0x10 0x108) _
  unfold Quire.Counts at hcounts
  refine ⟨⟨?_, ?_, ?_, fun g _ => ?_⟩, fun h => W.Quiet.bump (h.upd Quire.patternGone) _ _⟩
  · rw [hcounts]; rfl
  · rw [hcounts]; exact ⟨rfl, rfl⟩
  · rw [hcounts]; exact ⟨rfl, rfl⟩
  · rw [hcounts]; rfl

theorem W.leaveRun_unplayed (w : W) : w.q.Unplayed w.leaveRun.q ∧ (w.Quiet → w.leaveRun.Quiet) := by
  have hleaves := w.leaves_leaveRun
  obtain ⟨⟨hcommitted, -, hresults, hsigs⟩, -⟩ := w.cancelPattern_unplayed
  obtain ⟨⟨sw, ps, l, m, hsweep⟩, -⟩ := w.cancelPattern.abortSweep_shape
  refine ⟨⟨?_, ?_, ?_, fun g hg => ?_⟩, hleaves.quiet⟩
  · rw [hleaves.frame]
  · rw [hleaves.frame]; exact ⟨rfl, rfl⟩
  · rw [hleaves.frame]; exact ⟨rfl, rfl⟩
  · have hsame : w.cancelPattern.abortSweep.q.sig g = w.q.sig g := by
      rw [hsweep]
      exact hsigs g hg
    have hfree := Quire.freeDeferred_sig { w.cancelPattern.abortSweep.q.markersOff with
      seq := { Sequencer.reset with entry := w.cancelPattern.abortSweep.q.seq.entry }
      playing := none, recent := match w.cancelPattern.abortSweep.q.playing with | some p => p :: w.cancelPattern.abortSweep.q.recent | none => w.cancelPattern.abortSweep.q.recent
      skipping := false, pausePending := false, resumePending := false, hostPaused := false, startPending := none, reserved := false, trimMv := 0
      applied := List.replicate 32 0 } (g := g) (by
        show (w.cancelPattern.abortSweep.q.sig g).buf = .stale
        rw [hsame]
        exact hg)
    exact hfree.trans hsame

/-- Entering STAGED. -/
theorem W.enterStaged_staged (x : Quire) (v : W) (h : x.Unplayed v.q) : x.Staged v.enterStaged.q ∧ (v.Quiet → v.enterStaged.Quiet) := by
  have hforce : v.q.inForce = x.inForce := by rw [Quire.inForce, h.committed, Quire.inForce]
  have hcfg : v.q.cfg 0x0C 0 = x.cfg 0x0C 0 := by rw [Quire.cfg, hforce, Quire.cfg]
  have hq : v.enterStaged.q = { (if bit (x.cfg 0x0C 0) 5 then v.q.clearAccumulated else v.q).stageCopy.park with
      state := .staged, sigs := v.q.sigs.map fun e => (e.1, e.2.refreshed) } := by
    have hmap : (v.q.sigs.map fun e => (e.1, e.2.refreshed)) = v.q.sigs.map fun (i, x) => if x.buf = .stale && !x.damaged then (i, { x with buf := .loaded, changed := true }) else (i, x) :=
      List.map_congr_left fun e _ => by
        obtain ⟨i, y⟩ := e
        dsimp only
        rw [SigState.refreshed]
        split <;> rfl
    rw [hmap, ← hcfg]
    rfl
  have hsig : ∀ g, (x.sig g).buf = .stale → v.enterStaged.q.sig g = (x.sig g).refreshed := fun g hg => by
    rw [hq, ← h.sigs g hg]
    exact sget_mapKey _ g SigState.refreshed rfl _
  refine ⟨?_, fun hv => hv.upd _⟩
  cases hb : bit (x.cfg 0x0C 0) 5 with
  | true =>
    rw [if_pos hb] at hq
    refine ⟨?_, ?_, ?_, ?_, ?_, ?_, fun _ => ?_, fun hc => absurd (hb.symm.trans hc) (by decide), hsig⟩
    · rw [hq]
    · rw [hq]; exact h.committed
    · rw [hq]; exact hforce
    · rw [hq]; exact ⟨rfl, rfl⟩
    · rw [hq]; exact ⟨rfl, rfl⟩
    · rw [hq]; exact h.chunks
    · rw [hq]; exact ⟨rfl, rfl⟩
  | false =>
    rw [if_neg (by rw [hb]; exact Bool.false_ne_true)] at hq
    refine ⟨?_, ?_, ?_, ?_, ?_, ?_, fun hc => absurd (hb.symm.trans hc) (by decide), fun _ => ?_, hsig⟩
    · rw [hq]
    · rw [hq]; exact h.committed
    · rw [hq]; exact hforce
    · rw [hq]; exact ⟨rfl, rfl⟩
    · rw [hq]; exact ⟨rfl, rfl⟩
    · rw [hq]; exact h.chunks
    · rw [hq]; exact h.results

/-- REBIND of a quire that is not in play stages it anew. -/
theorem Quire.rebind_staged (x : Quire) (before : QState) : x.Staged (if before = .armed then x.w.leaveRun else x.w.cancelPattern).enterStaged.q
    ∧ (if before = .armed then x.w.leaveRun else x.w.cancelPattern).enterStaged.Quiet := by
  split
  · obtain ⟨hun, hquiet⟩ := x.w.leaveRun_unplayed
    obtain ⟨hstaged, hquiet'⟩ := W.enterStaged_staged x _ hun
    exact ⟨hstaged, hquiet' (hquiet x.w_quiet)⟩
  · obtain ⟨hun, hquiet⟩ := x.w.cancelPattern_unplayed
    obtain ⟨hstaged, hquiet'⟩ := W.enterStaged_staged x _ hun
    exact ⟨hstaged, hquiet' (hquiet x.w_quiet)⟩

/-! ### REBIND is taken up -/

/-- A reply of a command that occupies its quires leaves also while a restart of the Spine is due (R637). -/
theorem State.reply_occupying (g : State) (d : ReplyTo) (st : Byte) (dt : BitVec 16) (res : List Byte) (hrun : g.spine.restarting = false) (hop : occupying d.opcode = true) (hup : g.linkUp d.link = true)
    (hin : (g.session d.link).inProgress.any (fun e => decide (e.1 = d.tag ∧ e.2.1 = d.opcode)) = true) :
    (g.reply d st dt res).sent = g.sent ++ [{ dest := d, status := st, detail := dt, result := res }] := by
  have hanswer : g.answer { dest := d, status := st, detail := dt, result := res } = g.sendReply { dest := d, status := st, detail := dt, result := res } := by
    rw [State.answer, hrun]
    dsimp only
    rw [hop, Bool.not_true, Bool.and_false, Bool.or_self, if_neg (by decide)]
  rw [State.reply, if_pos (.inr hin), hanswer, State.sendReply]
  exact State.wire_sent (g.modSession d.link _) _ hup

section
variable {s : State} {h : Hdr} {p : Params}

/-- The quires that a packet of this form selects. -/
theorem State.Takes.selects {o : OpSpec} (ht : s.Takes o h p) (ho : o.quires = .mask) : quiresOf h.qmask ≠ [] := by
  obtain ⟨-, -, -, -, hmal, -⟩ := ht
  intro hnil
  have hbad : qmaskOk o.quires h.qmask = false := by
    rw [ho, qmaskOk, hnil]
    rfl
  unfold malformed at hmal
  rw [hbad] at hmal
  split_ifs at hmal
  all_goals simp_all

theorem State.Parted.keeps {u v : State} (h : u.Parted v) : v.gov = u.gov ∧ v.spine = u.spine ∧ v.links = u.links ∧ v.sessions = u.sessions ∧ v.sent = u.sent ∧ v.heldPackets = u.heldPackets
    ∧ v.collector.reports = u.collector.reports := by
  unfold State.Parted at h
  rw [h]
  exact ⟨rfl, rfl, rfl, rfl, rfl, rfl, rfl⟩

theorem State.Parted.waits {u v : State} (h : u.Parted v) (A : List MaskWait) : u.Parted { v with maskWaits := A } := by
  unfold State.Parted at *
  rw [h]

/-- REBIND of a quire in play waits for its run to stop. -/
def Quire.rebindAsked (x : Quire) (d : ReplyTo) : Quire :=
  { x with
    pausePending := false, occupied := some (.rebind d)
    stopReq := match x.stopReq with | some r => some { r with rebind := true } | none => some { cause := .host, rebind := true, waiter := none } }

/-- REBIND of a quire out of play, but for the end of its part. -/
def State.rebindNow (s : State) (q : QId) (d : ReplyTo) : State :=
  ((s.onQuire q fun x => (if (s.quire q).state = .armed then x.w.leaveRun else x.w.cancelPattern).enterStaged).cancelStarts q stState (detState reasonAborted (s.quire q).state)).modQuire q
    fun x => { x with occupied := some (.ended d) }

/-- The part of a REBIND that falls to a quire. -/
def rebindPart (s : State) (q : QId) (d : ReplyTo) : State := if (s.quire q).state.inPlay then s.modQuire q fun x => x.rebindAsked d else (s.rebindNow q d).quireDone d q stOk

theorem doRebind_eq (h : Hdr) (p : Params) (s : State) : doRebind h p s = maskCommand opRebind h p s (stateCheck rebindStates) rebindPart := rfl

theorem State.rebindNow_spec (v : State) (q : QId) (d : ReplyTo) (hwait : v.gov.waiting = []) : v.Parted (v.rebindNow q d) ∧ (v.rebindNow q d).maskWaits = v.maskWaits
    ∧ (v.quire q).Staged ((v.rebindNow q d).quire q) ∧ ((v.rebindNow q d).quire q).occupied = some (.ended d) ∧ ∀ r, r ≠ q → (v.rebindNow q d).quire r = v.quire r := by
  obtain ⟨hstaged, hquiet⟩ := (v.quire q).rebind_staged (v.quire q).state
  obtain ⟨hwithin, hreports, hquire⟩ := v.onQuire_logs q (fun x => (if (v.quire q).state = .armed then x.w.leaveRun else x.w.cancelPattern).enterStaged) hquiet
  unfold State.rebindNow
  generalize v.onQuire q (fun x => (if (v.quire q).state = .armed then x.w.leaveRun else x.w.cancelPattern).enterStaged) = u at *
  have hgov : u.gov = v.gov := by rw [hwithin.2]
  have hwaits : u.maskWaits = v.maskWaits := by rw [hwithin.2]
  rw [State.cancelStarts_none (by rw [hgov, hwait]), State.quire_modQuire_same, hquire]
  have hmod : ∀ f, u.Parted (u.modQuire q f) := fun f => rfl
  exact ⟨(hwithin.parted hreports).trans (hmod _), hwaits, ⟨hstaged.state, hstaged.committed, hstaged.staging, hstaged.pages, hstaged.pins, hstaged.chunks, hstaged.cleared, hstaged.kept, hstaged.sigs⟩, rfl,
    fun r hr => (State.quire_modQuire_other _ _ _ _ hr).trans (hwithin.1 r hr)⟩

/-- The rights and the checks of a quire's part stand while parts of other quires end. -/
theorem State.Parted.part {o : OpSpec} {check : Quire → Option Refuse} {act : State → QId → ReplyTo → State} {u v : State} {q : QId} {d : ReplyTo} (hI : u.Parted v) (hN : v.quire q = u.quire q)
    (howns : u.owns h.link q = true) (hcoming : u.faultComing q = false) (hcheck : check (u.quire q) = none) (hocc : o.whileOccupied = true ∨ (u.quire q).occupied = none) :
    maskPart o h check act d v q = act v q d := by
  have hsession : v.session h.link = u.session h.link := State.session_congr u v _ (by rw [hI])
  have hreports : v.collector.reports = u.collector.reports := by rw [hI]
  refine maskPart_ok ?_ ?_ (by rw [hN]; exact hcheck) (by rw [hN]; exact hocc)
  · rw [State.owns, hsession, hN]
    exact howns
  · rw [State.faultComing, hreports]
    exact hcoming

/-- A part of a REBIND out of play. -/
theorem rebind_partOk (ht : s.Takes opRebind h p) (hwait : s.gov.waiting = []) (howns : ∀ r : QId, h.qmask.getLsbD r.val = true → s.owns h.link r = true)
    (hstate : ∀ r : QId, h.qmask.getLsbD r.val = true → (s.quire r).state = .collated ∨ (s.quire r).state = .stopped ∨ (s.quire r).state = .armed) :
    PartOk (hdrDest h 0x16) (maskPart opRebind h (stateCheck rebindStates) rebindPart (hdrDest h 0x16)) ((s.taken h 0x16).openMask (hdrDest h 0x16)).Parted (fun r y => y = s.quire r)
      fun r y => (s.quire r).Staged y ∧ y.occupied = some (.ended (hdrDest h 0x16)) := by
  intro v q hq hI hN
  have hcheck : ∀ r ∈ quiresOf h.qmask, stateCheck rebindStates (s.quire r) = none := fun r hr => by
    rw [stateCheck]
    rcases hstate r (mem_quiresOf.mp hr) with hr | hr | hr
    all_goals rw [hr]; rfl
  obtain ⟨hown, hcoming, hck, hocc⟩ := ht.parts (by decide) (hdrDest h 0x16) (fun r hr => howns r (mem_quiresOf.mp hr)) hcheck q (mem_quiresOf.mpr hq)
  have hquire : ((s.taken h 0x16).openMask (hdrDest h 0x16)).quire q = s.quire q := s.taken_quires h 0x16 q
  have htaken : (s.taken h 0x16).gov = s.gov := by rw [(s.taken_booked h 0x16).1]
  have hgov : v.gov.waiting = [] := by
    obtain ⟨hsame, -⟩ := hI.keeps
    rw [hsame, State.openMask_gov, htaken, hwait]
  have hplay : ¬(v.quire q).state.inPlay = true := by
    rw [hN]
    rcases hstate q hq with hr | hr | hr
    all_goals rw [hr]; decide
  obtain ⟨hparted, hwaits, hstaged, hended, hother⟩ := v.rebindNow_spec q (hdrDest h 0x16) hgov
  rw [hN] at hstaged
  refine ⟨v.rebindNow q (hdrDest h 0x16), ?_, hI.trans hparted, fun P hP => hP.congr (by rw [hwaits]), ⟨hstaged, hended⟩, fun r hr => by rw [hother r hr]; exact ⟨id, id⟩⟩
  rw [hI.part (hN.trans hquire.symm) hown hcoming hck hocc, rebindPart, if_neg hplay]

/-- REBIND out of play stages every quire anew, and answers. -/
theorem rebind_now (ht : s.Takes opRebind h p) (hheld : s.heldPackets = []) (hwait : s.gov.waiting = []) (howns : ∀ r : QId, h.qmask.getLsbD r.val = true → s.owns h.link r = true)
    (hstate : ∀ r : QId, h.qmask.getLsbD r.val = true → (s.quire r).state = .collated ∨ (s.quire r).state = .stopped ∨ (s.quire r).state = .armed) :
    ∃ t, exec (.rebind h p) s = .next t ∧ s.Answers t h opRebind stOk 0 (maskBytes h.qmask fun _ => stOk) ∧ (∀ r : QId, ¬h.qmask.getLsbD r.val = true → t.quire r = (s.quire r).unoccupy (hdrDest h 0x16))
      ∧ ∀ r : QId, h.qmask.getLsbD r.val = true → ∃ y, (s.quire r).Staged y ∧ t.quire r = { y with occupied := none } := by
  have hcheck : ∀ r ∈ quiresOf h.qmask, stateCheck rebindStates (s.quire r) = none := fun r hr => by
    rw [stateCheck]
    rcases hstate r (mem_quiresOf.mp hr) with hr | hr | hr
    all_goals rw [hr]; rfl
  have hfront : front .rebind opRebind.opcode h p s doRebind = ((s.taken h 0x16).openMask (hdrDest h 0x16)).each (quiresOf h.qmask) (maskPart opRebind h (stateCheck rebindStates) rebindPart (hdrDest h 0x16)) :=
    front_maskCommand (o := opRebind) (doRebind_eq h p s) (by decide) ht (fun r hr => howns r (mem_quiresOf.mp hr)) hcheck
  obtain ⟨v, A, hparts, hI, hG, hN⟩ := State.each_parts _ _ _ _ _ (fun _ A hv => hv.waits A) (rebind_partOk ht hwait howns hstate) (quiresOf h.qmask) [] ((s.taken h 0x16).openMask (hdrDest h 0x16))
    (ht.selects rfl) (nodup_quiresOf _) (fun _ _ => List.not_mem_nil) (fun i => by rw [mem_quiresOf]; simp [hdrDest]) (.refl _) (State.openMask_maskOpen _ _) (fun i _ => s.taken_quires h 0x16 i) nofun
  rw [hparts] at hfront
  have hbooked := s.taken_booked h 0x16
  have hdue := ht.due
  have hmaps : ∀ r, ({ v with maskWaits := A, quires := v.quires.map (Quire.unoccupy (hdrDest h 0x16)) } : State).quire r = (v.quire r).unoccupy (hdrDest h 0x16) := fun r => quire_map v _ r
  obtain ⟨-, kspine, klinks, ksessions, ksent, kheld, -⟩ := hI.keeps
  have hspine : v.spine.restarting = false := by
    rw [kspine]
    exact hdue.running
  have hup : v.linkUp h.link = true := by
    rw [State.linkUp, State.link_congr _ v _ klinks]
    exact hdue.up
  have hin : (v.session h.link).inProgress.any (fun e => decide (e.1 = h.tag ∧ e.2.1 = 0x16)) = true := by
    rw [State.session_congr _ v _ ksessions]
    exact hdue.inProgress.resolve_left (by decide)
  have hsent : v.sent = s.sent := ksent.trans hdue.sent
  have hheld' : (State.reply { v with maskWaits := A, quires := v.quires.map (Quire.unoccupy (hdrDest h 0x16)) } (hdrDest h 0x16) stOk 0 (maskBytes (hdrDest h 0x16).qmask fun _ => stOk)).heldPackets = [] := by
    rw [State.reply_heldPackets]
    have htaken : (s.taken h 0x16).heldPackets = s.heldPackets := by rw [hbooked.1]
    exact kheld.trans (htaken.trans hheld)
  refine ⟨State.reply { v with maskWaits := A, quires := v.quires.map (Quire.unoccupy (hdrDest h 0x16)) } (hdrDest h 0x16) stOk 0 (maskBytes h.qmask fun _ => stOk), ?_, ?_, fun r hr => ?_, fun r hr => ?_⟩
  · show Host.Outcome.next (front .rebind opRebind.opcode h p s doRebind).takeStreams = _
    rw [hfront, State.takeStreams_of_none hheld']
    rfl
  · rw [State.Answers, ← hsent]
    exact State.reply_occupying { v with maskWaits := A, quires := v.quires.map (Quire.unoccupy (hdrDest h 0x16)) } (hdrDest h 0x16) stOk 0 _ hspine (show occupying 0x16 = true by decide) hup hin
  · rw [State.reply_quire, hmaps, hN r hr]
  · obtain ⟨hstaged, hended⟩ := hG r hr
    rw [State.reply_quire, hmaps]
    exact ⟨v.quire r, hstaged, if_pos hended⟩

end

end Sys2Proof.Machine

end

section

/-! # QUIRE_RESET (R43, R590): replies to other commands on the way

The reset of a quire ends every command that waits on it. Those replies leave what the QUIRE_RESET itself needs for its own reply. -/

namespace Sys2Proof.Machine

/-! ### A command in progress beside others -/

/-- The command of `d` is in progress under a tag of its own, on a link that is up. -/
structure State.Ours (d : ReplyTo) (s : State) : Prop where
  up : s.linkUp d.link = true
  isOpen : (s.session d.link).isOpen = true
  busy : ∃ e ∈ (s.session d.link).inProgress, e.1 = d.tag ∧ e.2.1 = d.opcode
  only : ∀ e ∈ (s.session d.link).inProgress, e.1 = d.tag → e.2.1 = d.opcode

theorem State.Ours.congr {d : ReplyTo} {s t : State} (h : s.Ours d) (hlinks : t.links = s.links) (hsessions : t.sessions = s.sessions) : t.Ours d := by
  have hs : t.session d.link = s.session d.link := State.session_congr s t _ hsessions
  refine ⟨?_, by rw [hs]; exact h.isOpen, by rw [hs]; exact h.busy, by rw [hs]; exact h.only⟩
  rw [State.linkUp, State.link_congr s t _ hlinks]
  exact h.up

theorem Session.complete_inProgress (x : Session) (r : Reply) (kept : Option Reply) :
    (x.complete r kept).isOpen = x.isOpen ∧ ((x.complete r kept).inProgress = x.inProgress ∨ r.dest.opcode ≠ 0x01 ∧ (x.complete r kept).inProgress = x.inProgress.filter fun e => decide (e.1 ≠ r.dest.tag)) := by
  unfold Session.complete
  split
  next h =>
    rw [Bool.and_eq_true, Bool.and_eq_true] at h
    exact ⟨rfl, .inr ⟨of_decide_eq_true h.1.2, rfl⟩⟩
  · exact ⟨rfl, .inl rfl⟩

/-- The reply to another command leaves the one in progress. -/
theorem State.Ours.reply {d e : ReplyTo} {s : State} (h : s.Ours d) (he : e.opcode ≠ d.opcode) (st : Byte) (dt : BitVec 16) (res : List Byte) : (s.reply e st dt res).Ours d := by
  have hup : (s.reply e st dt res).linkUp d.link = true := by
    have hphase : ((s.reply e st dt res).link d.link).phase = (s.link d.link).phase := by rw [State.reply_linksAlike s e st dt res d.link]
    rw [State.linkUp, hphase]
    exact h.up
  have hkeep : ((s.reply e st dt res).session d.link).isOpen = (s.session d.link).isOpen ∧ (((s.reply e st dt res).session d.link).inProgress = (s.session d.link).inProgress
      ∨ e.tag ≠ d.tag ∧ ((s.reply e st dt res).session d.link).inProgress = (s.session d.link).inProgress.filter fun x => decide (x.1 ≠ e.tag)) := by
    unfold State.reply
    split
    next hin =>
      unfold State.answer
      split
      · exact ⟨rfl, .inl rfl⟩
      · rw [State.sendReply, State.wire_session]
        rcases eq_or_ne d.link e.link with hlink | hlink
        · rw [hlink, State.session_modSession_same]
          obtain ⟨hopen, hrest⟩ := (s.session e.link).complete_inProgress { dest := e, status := st, detail := dt, result := res } (some { dest := e, status := st, detail := dt, result := res })
          refine ⟨hopen, hrest.imp_right fun ⟨hne, hfilter⟩ => ⟨fun htag => ?_, hfilter⟩⟩
          obtain ⟨x, hx, hmatch⟩ := List.any_eq_true.mp (hin.resolve_left hne)
          obtain ⟨h1, h2⟩ := of_decide_eq_true hmatch
          exact he (h2.symm.trans (h.only x (by rw [hlink]; exact hx) (h1.trans htag)))
        · rw [State.session_modSession_other _ _ _ _ hlink]
          exact ⟨rfl, .inl rfl⟩
    · exact ⟨rfl, .inl rfl⟩
  obtain ⟨hopen, hin | ⟨htag, hin⟩⟩ := hkeep
  · exact ⟨hup, hopen.trans h.isOpen, by rw [hin]; exact h.busy, by rw [hin]; exact h.only⟩
  · obtain ⟨x, hx, h1, h2⟩ := h.busy
    refine ⟨hup, hopen.trans h.isOpen, ⟨x, ?_, h1, h2⟩, fun y hy => ?_⟩
    · rw [hin, List.mem_filter]
      exact ⟨hx, decide_eq_true fun h => htag (h.symm.trans h1)⟩
    · rw [hin, List.mem_filter] at hy
      exact h.only y hy.1

/-- A step of quire `q` that may answer other commands than that of `d`. -/
structure State.Carries (d : ReplyTo) (q : QId) (free : Nat → Prop) (s t : State) : Prop where
  spine : t.spine = s.spine
  held : t.heldPackets = s.heldPackets
  gov : t.gov = s.gov
  time : t.time = s.time
  reports : t.collector.reports = s.collector.reports
  apart : s.Apart q t
  quire : ∃ l o, t.quire q = { s.quire q with live := l, occupied := o }
  reg : ∀ k, ¬free k → (t.quire q).liveReg k = (s.quire q).liveReg k
  ours : s.Ours d → t.Ours d
  mask : ∀ P, s.MaskOpen d P → t.MaskOpen d P

section
variable {d : ReplyTo} {q : QId} {free : Nat → Prop} {s t u : State}

theorem State.Carries.refl (s : State) : State.Carries d q free s s :=
  ⟨rfl, rfl, rfl, rfl, rfl, .refl _ _, ⟨_, _, rfl⟩, fun _ _ => rfl, id, fun _ => id⟩

theorem State.Carries.trans (h : State.Carries d q free s t) (h' : State.Carries d q free t u) : State.Carries d q free s u where
  spine := h'.spine.trans h.spine
  held := h'.held.trans h.held
  gov := h'.gov.trans h.gov
  time := h'.time.trans h.time
  reports := h'.reports.trans h.reports
  apart := h.apart.trans h'.apart
  quire := by
    obtain ⟨_, _, h1⟩ := h.quire
    obtain ⟨_, _, h2⟩ := h'.quire
    rw [h2, h1]
    exact ⟨_, _, rfl⟩
  reg k hk := (h'.reg k hk).trans (h.reg k hk)
  ours := h'.ours ∘ h.ours
  mask P := h'.mask P ∘ h.mask P

/-- A step that leaves the quires, the links, the sessions and the commands on several quires. -/
theorem State.Carries.of_frame (hspine : t.spine = s.spine) (hheld : t.heldPackets = s.heldPackets) (hgov : t.gov = s.gov) (htime : t.time = s.time) (hreports : t.collector.reports = s.collector.reports)
    (hquires : t.quires = s.quires) (hours : s.Ours d → t.Ours d) (hmask : ∀ P, s.MaskOpen d P → t.MaskOpen d P) : State.Carries d q free s t := by
  have hquire : ∀ r, t.quire r = s.quire r := fun r => State.quire_congr s t r hquires
  exact ⟨hspine, hheld, hgov, htime, hreports, fun r _ => by rw [hquire]; exact .refl _, ⟨_, _, hquire q⟩, fun k _ => by rw [hquire], hours, hmask⟩

theorem State.reply_carries (s : State) {e : ReplyTo} (he : e.opcode ≠ d.opcode) (st : Byte) (dt : BitVec 16) (res : List Byte) : State.Carries d q free s (s.reply e st dt res) :=
  .of_frame (s.reply_spine ..) (s.reply_heldPackets ..) (s.reply_gov ..) (s.reply_time ..) (s.reply_collector_reports ..) (s.reply_quires ..) (fun h => h.reply he st dt res)
    fun P h => h.congr (by rw [s.reply_maskWaits])

/-- The end of a part of another command on several quires. -/
theorem State.quireDone_carries (s : State) {e : ReplyTo} (he : e.opcode ≠ d.opcode) (r : QId) (st : Byte) (dt : BitVec 16) : State.Carries d q free s (s.quireDone e r st dt) := by
  have hne : ∀ v : MaskWait, decide (v.dest = e) = true → decide (v.dest = d) = false := fun v hv => decide_eq_false fun h => he (by rw [← h, of_decide_eq_true hv])
  have hrest : (dropFirst (fun v : MaskWait => decide (v.dest = e)) s.maskWaits).filter (fun v => decide (v.dest = d)) = s.maskWaits.filter fun v => decide (v.dest = d) :=
    filter_dropFirst_other _ _ _ hne
  have hapart : s.Apart q (s.quireDone e r st dt) := fun i _ => by
    unfold State.quireDone
    split
    · exact .refl _
    · dsimp only
      split
      · rw [State.reply_quire]
        exact (Quire.letGo_unoccupy e (s.quire i)).trans (.inl (quire_map s _ i))
      · exact .refl _
  obtain ⟨o, hquire⟩ := s.quireDone_quire e r st dt [] q
  refine ⟨s.quireDone_spine .., s.quireDone_heldPackets .., s.quireDone_gov .., s.quireDone_time .., s.quireDone_collector_reports .., hapart, ⟨_, o, hquire⟩, fun k _ => by rw [hquire]; rfl, fun h => ?_, fun P h => ?_⟩
  · unfold State.quireDone
    split
    · exact h
    · dsimp only
      split
      · refine State.Ours.reply ?_ he _ _ _
        exact h.congr rfl rfl
      · exact h.congr rfl rfl
  · unfold State.quireDone
    split
    · exact h
    next w hfind =>
      dsimp only
      split
      · exact h.congr (by rw [State.reply_maskWaits]; exact hrest)
      · have hw := List.find?_some hfind
        refine h.congr ?_
        show (_ ++ _ : List MaskWait).filter _ = _
        rw [List.filter_append, hrest, List.filter_cons_of_neg (by rw [hne _ hw]; exact Bool.false_ne_true), List.filter_nil, List.append_nil]

/-- Requests of a step that ends other commands than that of `d`, and leaves words of the list open. -/
def Fx.foreign (op : Byte) (free : Nat → Prop) : Fx → Prop
  | .log _ _ _ _ _ _ | .saturated _ => True
  | .reply e _ _ _ | .done e _ _ | .replyCollate e _ _ _ | .replyLive e _ _ _ => e.opcode ≠ op
  | .freeBits k _ => free k
  | _ => False

theorem State.runFx_carries (s : State) {x : Fx} (hx : x.foreign d.opcode free) : State.Carries d q free s (State.runFx q s x) := by
  cases x with
  | reply e st dt res => exact s.reply_carries hx st dt res
  | done e st dt => exact s.quireDone_carries hx q st dt
  | replyCollate e st n since => exact s.reply_carries hx st 0 _
  | replyLive e st dt keys => exact s.reply_carries hx st dt _
  | log code source d0 d1 d2 injected =>
    obtain ⟨l, c, hlog⟩ := s.logEvent_shape { code := code, source := source, quire := some q, injected := injected, exempt := false, d0 := d0, d1 := d1, d2 := d2, at_ := none }
    have hrun : State.runFx q s (.log code source d0 d1 d2 injected) = { s with log := l, collector := { s.collector with satPages := c } } := hlog
    rw [hrun]
    exact .of_frame rfl rfl rfl rfl rfl rfl (fun h => h.congr rfl rfl) fun _ h => h.congr rfl
  | saturated k =>
    obtain ⟨l, c, hlog⟩ := s.logEvent_shape (satEvent (2 ^ 28 * (q.val + 1) + k))
    have hrun : State.runFx q s (.saturated k) = { s with log := l, collector := { s.collector with satPages := c } } := hlog
    rw [hrun]
    exact .of_frame rfl rfl rfl rfl rfl rfl (fun h => h.congr rfl rfl) fun _ h => h.congr rfl
  | freeBits k m =>
    refine ⟨rfl, rfl, rfl, rfl, rfl, fun r hr => .inl (State.quire_modQuire_other _ _ _ _ hr), ⟨_, _, State.quire_modQuire_same _ _ _⟩, fun j hj => ?_, fun h => h.congr rfl rfl, fun _ h => h.congr rfl⟩
    have hne : j ≠ k := fun h => hj (h ▸ hx)
    show ((s.takeFree.2.modQuire q _).quire q).liveReg j = _
    rw [State.quire_modQuire_same]
    exact Quire.liveReg_setLive_other _ _ hne
  | report _ _ _ _ _ _ => exact hx.elim
  | lineReport => exact hx.elim
  | delay _ => exact hx.elim

/-- A step of a quire that ends other commands. -/
theorem State.onQuire_carries (s : State) (f : Quire → W) (h : (f (s.quire q)).Asks (Fx.foreign d.opcode free)) :
    State.Carries d q free (s.setQuire q (f (s.quire q)).q) (s.onQuire q f) := by
  unfold State.onQuire
  exact List.foldlRecOn (motive := State.Carries d q free (s.setQuire q (f (s.quire q)).q)) _ _ (.refl _) fun t ht x hx => ht.trans (t.runFx_carries (h x hx))

end

/-! ### What winding up a quire leaves of it -/

/-- Words that no end of a command but that of a time measurement writes: those of the TMUs and of the channel. -/
def keptWord (k : Nat) : Prop := (rk 0x0E 0 ≤ k ∧ k < rk 0x0F 0) ∨ (rk 0x11 0 ≤ k ∧ k < rk 0x12 0)

/-- Words that the end of every command leaves: those of the channel. -/
def channelWord (k : Nat) : Prop := rk 0x11 0 ≤ k ∧ k < rk 0x12 0

/-- Words that the end of a measurement leaves open. -/
def openWord (k : Nat) : Prop := k = rk 0x0A 0x104 ∨ ∃ u : TmuId, ∃ o ∈ [4, 8, 0xC, 0x10, 0x14], k = tkey u o

/-- Steps that end commands: what they change of the quire, and the words of `keep` that they leave. -/
structure W.Winds (keep : Nat → Prop) (w v : W) : Prop where
  frame : v.q = { w.q with
    endpaper := v.q.endpaper, retrim := v.q.retrim, pmu := v.q.pmu, tmus := v.q.tmus, selftest := v.q.selftest, occupied := v.q.occupied, derivation := v.q.derivation, store := v.q.store
    ready := v.q.ready, engines := v.q.engines, dram := { w.q.dram with queue := v.q.dram.queue }, stopWaiters := v.q.stopWaiters, stopReq := v.q.stopReq, live := v.q.live, satPages := v.q.satPages }
  drives : v.q.endpaper.drives = w.q.endpaper.drives
  reg : ∀ k, keep k → v.q.liveReg k = w.q.liveReg k

theorem W.Winds.refl (keep : Nat → Prop) (w : W) : w.Winds keep w := ⟨rfl, rfl, fun _ _ => rfl⟩

theorem W.Winds.trans {keep : Nat → Prop} {u v w : W} (h : u.Winds keep v) (h' : v.Winds keep w) : u.Winds keep w where
  frame := by
    have hw := h'.frame
    rw [h.frame] at hw
    exact hw
  drives := h'.drives.trans h.drives
  reg k hk := (h'.reg k hk).trans (h.reg k hk)

theorem W.Winds.mono {keep keep' : Nat → Prop} {w v : W} (h : w.Winds keep v) (hk : ∀ k, keep' k → keep k) : w.Winds keep' v := ⟨h.frame, h.drives, fun k hk' => h.reg k (hk k hk')⟩

theorem W.winds_bump (w : W) (k n : Nat) : w.Winds (· ≠ k) (w.bump k n) := by
  have hcounts := w.bump_counts k n
  unfold Quire.Counts at hcounts
  exact ⟨by rw [hcounts], by rw [hcounts], fun j hj => w.bump_liveReg_other n hj⟩

theorem W.winds_setLive (w : W) (k : Nat) (v : Word) : w.Winds (· ≠ k) (w.setLive k v) := ⟨rfl, rfl, fun _ hj => Quire.liveReg_setLive_other _ _ hj⟩

/-- The keys that the end of an attempt of the endpaper writes are of other pages. -/
theorem keptWord_ne {k : Nat} (hk : keptWord k) {p o : Nat} (hp : p ≠ 0x0E ∧ p ≠ 0x11) (ho : o < 2 ^ 20) : k ≠ rk p o := by
  simp only [keptWord, rk] at *
  omega

theorem W.epAbort_winds (w : W) (cause : Nat) : w.Winds keptWord (w.epAbort cause) := by
  have hidle : w.Winds keptWord (w.upd fun q => { q with endpaper := { q.endpaper with phase := .idle, comparing := false, forced := false } }) := ⟨rfl, rfl, fun _ _ => rfl⟩
  have hdrop : w.Winds keptWord (w.epDropped cause) :=
    (hidle.trans ((W.winds_bump _ _ 1).mono fun k hk => keptWord_ne hk (by decide) (by decide))).trans ((W.winds_setLive _ _ _).mono fun k hk => keptWord_ne hk (by decide) (by decide))
  have htrim : w.Winds keptWord (((w.epDropped cause).upd fun q => { q with retrim := none }).bump (rk 0x18 0x8)) :=
    (hdrop.trans (v := w.epDropped cause) (w := (w.epDropped cause).upd fun q => { q with retrim := none }) ⟨rfl, rfl, fun _ _ => rfl⟩).trans ((W.winds_bump _ _ 1).mono fun k hk => keptWord_ne hk (by decide) (by decide))
  have hend : w.Winds keptWord (if (w.epDropped cause).q.retrim.isSome = true then ((w.epDropped cause).upd fun q => { q with retrim := none }).bump (rk 0x18 0x8) else w.epDropped cause) := by
    split
    · exact htrim
    · exact hdrop
  unfold W.epAbort
  split
  · exact hend
  · exact hend
  · exact hend
  · exact .refl _ w

theorem W.pmuEndEarly_winds (w : W) (st : Byte) (dt : BitVec 16) : w.Winds keptWord (w.pmuEndEarly st dt) := by
  unfold W.pmuEndEarly
  split
  · exact .refl _ w
  next j _ =>
    extract_lets w1 w2 w3
    have h1 : w.Winds keptWord w1 := ⟨rfl, rfl, fun _ _ => rfl⟩
    have h2 : w1.Winds keptWord w2 := (w1.winds_setLive _ _).mono fun k hk => keptWord_ne hk (by decide) (by decide)
    have h3 : w2.Winds keptWord w3 := ⟨rfl, rfl, fun k hk => Quire.liveReg_setLive_other _ _ (keptWord_ne hk (by decide) (by decide))⟩
    have hend := (h1.trans h2).trans h3
    split
    · exact hend
    · exact ⟨hend.frame, hend.drives, hend.reg⟩

/-- Items of class 2 go with their command; reads of the channel for them are dropped. -/
theorem W.endDerived_winds (w : W) : w.Winds keptWord w.endDerived ∧ (w.q.derivation = none → w.endDerived = w) ∧ w.endDerived.q.derivation = none := by
  unfold W.endDerived
  split
  next h => exact ⟨.refl _ w, fun _ => rfl, h⟩
  next d h =>
    extract_lets v n keep u
    have hv : w.Winds keptWord v := by
      unfold v
      split
      · exact ⟨rfl, rfl, fun _ _ => rfl⟩
      · exact .refl _ w
    have hu : w.Winds keptWord u := hv.trans ⟨rfl, rfl, fun _ _ => rfl⟩
    have hnone : u.q.derivation = none := rfl
    refine ⟨?_, fun hn => absurd (h.symm.trans hn) (by simp), ?_⟩
    · split
      · exact hu
      · exact hu.trans ((W.winds_bump _ _ n).mono fun k hk => keptWord_ne hk (by decide) (by decide))
    · split
      · exact hnone
      · exact (u.bump_field _ _ Quire.derivation fun _ _ _ => rfl).trans hnone

theorem W.endOccupier_winds (w : W) (st : Byte) (dt : BitVec 16) : w.Winds keptWord (w.endOccupier st dt) ∧ (w.q.derivation = none → (w.endOccupier st dt).q.dram = w.q.dram) := by
  unfold W.endOccupier
  extract_lets v
  have hv : w.Winds keptWord v := ⟨rfl, rfl, fun _ _ => rfl⟩
  split
  · exact ⟨hv, fun _ => rfl⟩
  next o _ =>
    have hfree : w.Winds keptWord (v.upd fun q => { q with occupied := none }) := hv.trans ⟨rfl, rfl, fun _ _ => rfl⟩
    obtain ⟨hend, hnone, -⟩ := (v.upd fun q => { q with occupied := none }).endDerived_winds
    have hall := hfree.trans hend
    have hdram : w.q.derivation = none → (v.upd fun q => { q with occupied := none }).endDerived.q.dram = w.q.dram := fun hn => by rw [hnone hn]; rfl
    have hsame : ∀ y : W, y.q = (v.upd fun q => { q with occupied := none }).endDerived.q → w.Winds keptWord y ∧ (w.q.derivation = none → y.q.dram = w.q.dram) := fun y hy => by
      refine ⟨⟨by rw [hy]; exact hall.frame, by rw [hy]; exact hall.drives, fun k hk => by rw [hy]; exact hall.reg k hk⟩, fun hn => by rw [hy]; exact hdram hn⟩
    cases o with
    | settle e n since =>
      dsimp only
      split
      · exact hsame _ rfl
      · exact hsame _ rfl
    | _ => exact hsame _ rfl

theorem W.endWaiters_winds (w : W) (keep : Nat → Prop) (st : Byte) (dt : BitVec 16) : w.Winds keep (w.endWaiters st dt) := by
  have hq := w.endWaiters_q st dt
  exact ⟨by rw [hq], by rw [hq], fun k _ => by rw [hq]; rfl⟩

/-- The commands that occupy a quire or wait for its stop end. -/
theorem W.endCommands_winds (w : W) (st : Byte) (dt : BitVec 16) :
    w.Winds keptWord ((w.endOccupier st dt).endWaiters st dt) ∧ (w.q.derivation = none → ((w.endOccupier st dt).endWaiters st dt).q.dram = w.q.dram) := by
  obtain ⟨h1, hdram⟩ := w.endOccupier_winds st dt
  refine ⟨h1.trans ((w.endOccupier st dt).endWaiters_winds keptWord st dt), fun hn => ?_⟩
  rw [(w.endOccupier st dt).endWaiters_q st dt]
  exact hdram hn

/-! ### Measurements that end with their quire -/

section
variable (u : TmuId)

theorem W.setTmuWords_other (w : W) (l : List (Nat × Word)) {k : Nat} (hk : ∀ o ∈ l.map (·.1), k ≠ tkey u o) : (w.setTmuWords u l).q.liveReg k = w.q.liveReg k := by
  induction l generalizing w with
  | nil => rfl
  | cons x l ih =>
    have hrest := ih (w.setLive (rk 0x0E (0x40 * u.val + x.1)) x.2) fun o ho => hk o (List.mem_cons_of_mem _ ho)
    exact hrest.trans (Quire.liveReg_setLive_other _ _ (hk x.1 List.mem_cons_self))

/-- The words that the end of a measurement shows. -/
def W.tmuShown (w : W) (oz : Bool) (u : TmuId) (j : TmuJob) (cause : Nat) : W :=
  if j.gateOpen then (w.setTmuWords u [(0, j.statusWord cause), (0x18, BitVec.ofNat 32 j.a.n), (0x1C, BitVec.ofNat 32 j.a.edges), (0x20, BitVec.ofNat 32 (j.a.edges / 2 ^ 32))]).setTmuWords u
    [(0x24, (timeWords oz j.gateTime).1), (0x28, (timeWords oz j.gateTime).2.1), (0x2C, (timeWords oz j.gateTime).2.2)]
  else w.setTmuWords u [(0, j.statusWord cause), (0x18, BitVec.ofNat 32 j.a.n), (0x1C, BitVec.ofNat 32 j.a.edges), (0x20, BitVec.ofNat 32 (j.a.edges / 2 ^ 32))]

/-- The words of a result that is not valid are left open. -/
def W.tmuOpened (w : W) (u : TmuId) (cause : Nat) : W := if cause = 0 then w else w.each [4, 8, 0xC, 0x10, 0x14] fun w o => w.ask (.freeBits (tkey u o) 0xFFFFFFFF)

theorem W.tmuEnd_eq (w : W) (oz : Bool) (j : TmuJob) (cause : Nat) :
    w.tmuEnd oz u j cause = (((w.tmuShown oz u j cause).tmuOpened u cause).upd fun q => { q with tmus := q.tmus.set u none }).bump (tkey u 0x30) := rfl

theorem W.tmuOpened_q (w : W) (cause : Nat) : (w.tmuOpened u cause).q = w.q := by
  unfold W.tmuOpened
  split <;> rfl

theorem W.tmuShown_spec (w : W) (oz : Bool) (j : TmuJob) (cause : Nat) : (w.tmuShown oz u j cause).fx = w.fx ∧ (∃ l, (w.tmuShown oz u j cause).q = { w.q with live := l })
    ∧ (w.tmuShown oz u j cause).q.liveReg (tkey u 0) = j.statusWord cause ∧ ∀ k, (∀ o < 0x40, k ≠ tkey u o) → (w.tmuShown oz u j cause).q.liveReg k = w.q.liveReg k := by
  have h1 := w.setTmuWords_spec u [(0, j.statusWord cause), (0x18, BitVec.ofNat 32 j.a.n), (0x1C, BitVec.ofNat 32 j.a.edges), (0x20, BitVec.ofNat 32 (j.a.edges / 2 ^ 32))]
  have hother1 : ∀ k, (∀ o < 0x40, k ≠ tkey u o) →
      (w.setTmuWords u [(0, j.statusWord cause), (0x18, BitVec.ofNat 32 j.a.n), (0x1C, BitVec.ofNat 32 j.a.edges), (0x20, BitVec.ofNat 32 (j.a.edges / 2 ^ 32))]).q.liveReg k = w.q.liveReg k :=
    fun k hk => w.setTmuWords_other u _ fun o ho => hk o (by
      simp only [List.map_cons, List.map_nil, List.mem_cons, List.not_mem_nil, or_false] at ho
      omega)
  unfold W.tmuShown
  generalize w.setTmuWords u [(0, j.statusWord cause), (0x18, BitVec.ofNat 32 j.a.n), (0x1C, BitVec.ofNat 32 j.a.edges), (0x20, BitVec.ofNat 32 (j.a.edges / 2 ^ 32))] = v at *
  obtain ⟨hfx, ⟨l, hq⟩, -, hsame⟩ := h1
  have hstatus := hsame (by simp) 0 (j.statusWord cause) (by simp)
  split
  · obtain ⟨hfx', ⟨l', hq'⟩, hother, -⟩ := v.setTmuWords_spec u [(0x24, (timeWords oz j.gateTime).1), (0x28, (timeWords oz j.gateTime).2.1), (0x2C, (timeWords oz j.gateTime).2.2)]
    refine ⟨hfx'.trans hfx, ⟨l', by rw [hq', hq]⟩, (hother 0 (by simp)).trans hstatus, fun k hk => (v.setTmuWords_other u _ fun o ho => hk o ?_).trans (hother1 k hk)⟩
    simp only [List.map_cons, List.map_nil, List.mem_cons, List.not_mem_nil, or_false] at ho
    omega
  · exact ⟨hfx, ⟨l, hq⟩, hstatus, hother1⟩

/-- The end of a measurement shows its status, and writes words of its TMU alone. -/
theorem W.tmuEnd_words (w : W) (oz : Bool) (j : TmuJob) (cause : Nat) : w.Winds (fun k => ∀ o < 0x40, k ≠ tkey u o) (w.tmuEnd oz u j cause)
    ∧ (w.tmuEnd oz u j cause).q.tmus = w.q.tmus.set u none ∧ (w.tmuEnd oz u j cause).q.liveReg (tkey u 0) = j.statusWord cause := by
  obtain ⟨-, ⟨l, hq⟩, hstatus, hother⟩ := w.tmuShown_spec u oz j cause
  have hopened := (w.tmuShown oz u j cause).tmuOpened_q u cause
  have hbump := W.bump_counts (((w.tmuShown oz u j cause).tmuOpened u cause).upd fun q => { q with tmus := q.tmus.set u none }) (tkey u 0x30) 1
  have hreg : ∀ k, k ≠ tkey u 0x30 → (w.tmuEnd oz u j cause).q.liveReg k = (w.tmuShown oz u j cause).q.liveReg k := fun k hk => by
    rw [W.tmuEnd_eq, W.bump_liveReg_other _ 1 hk, ← hopened]
    rfl
  rw [← W.tmuEnd_eq] at hbump
  unfold Quire.Counts at hbump
  rw [W.upd_q, hopened, hq] at hbump
  generalize w.tmuEnd oz u j cause = v at *
  refine ⟨⟨by rw [hbump], by rw [hbump], fun k hk => (hreg k (hk 0x30 (by decide))).trans (hother k hk)⟩, by rw [hbump], (hreg _ (tkey_ne u (by decide))).trans hstatus⟩

/-- The status of a measurement that ended early. -/
theorem TmuJob.statusWord_cause (j : TmuJob) (hmode : j.mode < 4) : fld (j.statusWord 4) 24 4 = 4 := by
  have ha := j.srcA.isLt
  have hb := j.srcB.isLt
  have hbit : ∀ b : Bool, b2n b ≤ 1 := fun b => by cases b <;> decide
  have hlate := hbit j.late
  have hlimit := hbit j.stampLimit
  simp only [TmuJob.statusWord, packW, List.foldl_cons, List.foldl_nil, fld, BitVec.toNat_ofNat]
  have hvalid : b2n (decide ((4 : Nat) = 0)) = 0 := rfl
  rw [hvalid]
  omega

end

section
variable (w : W) (oz : Bool) (u : TmuId) (cause : Nat) (st : Byte) (dt : BitVec 16) (result : Bool)

/-- A measurement that ends early. -/
theorem W.tmuEndEarly_words : w.Winds (fun k => ∀ o < 0x40, k ≠ tkey u o) (w.tmuEndEarly oz u cause st dt result) ∧ (∀ v : TmuId, v ≠ u → (w.tmuEndEarly oz u cause st dt result).q.tmus[v] = w.q.tmus[v])
    ∧ ∀ j, w.q.tmus[u] = some j → (w.tmuEndEarly oz u cause st dt result).q.liveReg (tkey u 0) = j.statusWord (if j.cause = 0 then cause else j.cause) := by
  unfold W.tmuEndEarly
  split
  next hnone => exact ⟨.refl _ w, fun _ _ => rfl, fun j hj => absurd (hnone.symm.trans hj) (by simp)⟩
  next j hj =>
    obtain ⟨hwinds, htmus, hstatus⟩ := W.tmuEnd_words u w oz j (if j.cause = 0 then cause else j.cause)
    have hsame : ∀ y : W, y.q = (w.tmuEnd oz u j (if j.cause = 0 then cause else j.cause)).q → w.Winds (fun k => ∀ o < 0x40, k ≠ tkey u o) y ∧ (∀ v : TmuId, v ≠ u → y.q.tmus[v] = w.q.tmus[v])
        ∧ ∀ j', w.q.tmus[u] = some j' → y.q.liveReg (tkey u 0) = j'.statusWord (if j'.cause = 0 then cause else j'.cause) := fun y hy => by
      refine ⟨⟨by rw [hy]; exact hwinds.frame, by rw [hy]; exact hwinds.drives, fun k hk => by rw [hy]; exact hwinds.reg k hk⟩, fun v hv => ?_, fun j' hj' => ?_⟩
      · rw [hy, htmus]
        exact Vector.getElem_set_ne _ _ fun h => hv (Fin.ext h.symm)
      · obtain rfl := Option.some.inj (hj.symm.trans hj')
        rw [hy]
        exact hstatus
    dsimp only
    split
    · exact hsame _ rfl
    · exact hsame _ rfl

theorem tkey_other {u v : TmuId} (h : v ≠ u) {o : Nat} (ho : o < 0x40) : tkey v 0 ≠ tkey u o := fun he => by
  have : v.val ≠ u.val := fun h' => h (Fin.ext h')
  simp only [tkey, rk] at he
  omega

theorem channelWord_ne {k : Nat} (hk : channelWord k) (u : TmuId) {o : Nat} (ho : o < 0x40) : k ≠ tkey u o := fun he => by
  have := u.isLt
  simp only [channelWord, tkey, rk] at *
  omega

/-- Every measurement of a quire ends early, and shows it. -/
theorem W.each_tmuEndEarly (l : List TmuId) (hl : l.Nodup) : w.Winds channelWord (w.each l fun w u => w.tmuEndEarly oz u cause st dt result)
    ∧ (∀ u, u ∉ l → (w.each l fun w u => w.tmuEndEarly oz u cause st dt result).q.liveReg (tkey u 0) = w.q.liveReg (tkey u 0))
    ∧ ∀ u ∈ l, ∀ j, w.q.tmus[u] = some j → (w.each l fun w u => w.tmuEndEarly oz u cause st dt result).q.liveReg (tkey u 0) = j.statusWord (if j.cause = 0 then cause else j.cause) := by
  induction l generalizing w with
  | nil => exact ⟨.refl _ w, fun _ _ => rfl, nofun⟩
  | cons g l ih =>
    obtain ⟨hg, hl⟩ := List.nodup_cons.mp hl
    obtain ⟨hwinds, hothers, hstatus⟩ := w.tmuEndEarly_words oz g cause st dt result
    obtain ⟨hrest, hout, hin⟩ := ih (w.tmuEndEarly oz g cause st dt result) hl
    have hcons : (w.each (g :: l) fun w u => w.tmuEndEarly oz u cause st dt result) = (w.tmuEndEarly oz g cause st dt result).each l fun w u => w.tmuEndEarly oz u cause st dt result := rfl
    rw [hcons]
    refine ⟨(hwinds.mono fun k hk o ho => channelWord_ne hk g ho).trans hrest, fun u hu => ?_, fun u hu j hj => ?_⟩
    · exact (hout u (List.not_mem_of_not_mem_cons hu)).trans (hwinds.reg _ fun o ho => tkey_other (List.ne_of_not_mem_cons hu) ho)
    · rcases eq_or_ne u g with rfl | hne
      · exact (hout u hg).trans (hstatus j hj)
      · exact hin u ((List.mem_cons.mp hu).resolve_left hne) j ((hothers u hne).trans hj)

end

/-! ### A quire that is reset ends the commands that wait on it -/

/-- The quire's commands end, and its endpaper gives up. -/
def W.windUp (w : W) (oz : Bool) (st : Byte) (dt : BitVec 16) : W :=
  ((((w.epAbort 0x04).pmuEndEarly st dt).tmusEndEarly oz 0x4 st dt false).endOccupier st dt).endWaiters st dt

/-- The ends of an attempt of the endpaper and of a parametric measurement. -/
theorem W.windPins_winds (x : Quire) (st : Byte) (dt : BitVec 16) : x.w.Winds keptWord ((x.w.epAbort 0x04).pmuEndEarly st dt)
    ∧ ((x.w.epAbort 0x04).pmuEndEarly st dt).q.tmus = x.tmus ∧ ((x.w.epAbort 0x04).pmuEndEarly st dt).q.derivation = x.derivation ∧ ((x.w.epAbort 0x04).pmuEndEarly st dt).q.dram = x.dram := by
  have hframe := (x.w.settles_epAbort 0x04).frame
  have hep : (x.w.epAbort 0x04).q.tmus = x.tmus ∧ (x.w.epAbort 0x04).q.derivation = x.derivation ∧ (x.w.epAbort 0x04).q.dram = x.dram := by
    rw [hframe]
    exact ⟨rfl, rfl, rfl⟩
  refine ⟨(x.w.epAbort_winds 0x04).trans ((x.w.epAbort 0x04).pmuEndEarly_winds st dt), ?_⟩
  clear hframe
  generalize x.w.epAbort 0x04 = a at *
  unfold W.pmuEndEarly
  split
  · exact hep
  · dsimp only
    split
    · exact hep
    · exact hep

/-- The ends of a quire's time measurements. -/
theorem W.windTmus_winds (w : W) (oz : Bool) (st : Byte) (dt : BitVec 16) : w.Winds channelWord (w.tmusEndEarly oz 0x4 st dt false) ∧ (w.tmusEndEarly oz 0x4 st dt false).q.derivation = w.q.derivation
    ∧ (w.tmusEndEarly oz 0x4 st dt false).q.dram = w.q.dram
    ∧ ∀ (u : TmuId) (j : TmuJob), w.q.tmus[u] = some j → j.cause = 0 → j.mode < 4 → fld ((w.tmusEndEarly oz 0x4 st dt false).q.liveReg (tkey u 0)) 24 4 = 4 := by
  obtain ⟨hwinds, -, hstatus⟩ := w.each_tmuEndEarly oz 0x4 st dt false (List.finRange 8) (List.nodup_finRange 8)
  obtain ⟨l, m, j, hq⟩ := w.tmusEndEarly_shape oz 0x4 st dt false
  refine ⟨hwinds, by rw [hq], by rw [hq], fun u j hj hcause hmode => ?_⟩
  have hword : (w.tmusEndEarly oz 0x4 st dt false).q.liveReg (tkey u 0) = j.statusWord (if j.cause = 0 then 0x4 else j.cause) := hstatus u (List.mem_finRange u) j hj
  rw [hword, if_pos hcause]
  exact j.statusWord_cause hmode

theorem W.windUp_words (x : Quire) (oz : Bool) (st : Byte) (dt : BitVec 16) : x.w.Winds channelWord (x.w.windUp oz st dt) ∧ (x.derivation = none → (x.w.windUp oz st dt).q.dram = x.dram)
    ∧ ∀ (u : TmuId) (j : TmuJob), x.tmus[u] = some j → j.cause = 0 → j.mode < 4 → fld ((x.w.windUp oz st dt).q.liveReg (tkey u 0)) 24 4 = 4 := by
  obtain ⟨h1, htmus, hderiv, hdram⟩ := W.windPins_winds x st dt
  unfold W.windUp
  generalize (x.w.epAbort 0x04).pmuEndEarly st dt = a at *
  obtain ⟨h2, hderiv', hdram', hstatus⟩ := a.windTmus_winds oz st dt
  generalize a.tmusEndEarly oz 0x4 st dt false = b at *
  obtain ⟨h3, hlast⟩ := b.endCommands_winds st dt
  generalize (b.endOccupier st dt).endWaiters st dt = c at *
  have hword : ∀ k, channelWord k → keptWord k := fun k => .inr
  refine ⟨((h1.mono hword).trans h2).trans (h3.mono hword), fun hn => ?_, fun u j hj hcause hmode => ?_⟩
  · rw [hlast (hderiv'.trans (hderiv.trans hn)), hdram', hdram]
  · have hkept : keptWord (tkey u 0) := by
      have := u.isLt
      simp only [keptWord, tkey, rk]
      omega
    rw [h3.reg _ hkept]
    exact hstatus u j (by rw [htmus]; exact hj) hcause hmode

end Sys2Proof.Machine

end

section

/-! # REBIND and QUIRE_RESET (R43, R51, R590, R618) -/

namespace Sys2Proof.Machine

/-! ### The commands that a reset ends -/

/-- No command of opcode `op` waits on the quire. -/
structure Quire.Clear (op : Byte) (x : Quire) : Prop where
  occupied : ∀ o, x.occupied = some o → ∀ d, o = .collate d ∨ (∃ n, o = .selftest d n) ∨ o = .loadCheck d ∨ (∃ n t, o = .settle d n t) ∨ o = .arm d ∨ o = .rebind d → d.opcode ≠ op
  waiters : ∀ d, d ∈ x.stopWaiters ∨ (∃ r, x.stopReq = some r ∧ r.waiter = some d) → d.opcode ≠ op
  pmu : ∀ j, x.pmu = some j → ∀ d, j.waiter = some d → d.opcode ≠ op
  tmus : ∀ (u : TmuId) j, x.tmus[u] = some j → ∀ d, j.waiter = some d → d.opcode ≠ op

theorem Quire.clear_of_dests {op : Byte} {x : Quire} (h : ∀ d ∈ x.dests, d.opcode ≠ op) : x.Clear op where
  occupied o ho d hd := h d (by
    unfold Quire.dests
    rw [ho]
    rcases hd with rfl | ⟨_, rfl⟩ | rfl | ⟨_, _, rfl⟩ | rfl | rfl
    all_goals simp)
  waiters d hd := h d (Quire.mem_dests_of_waiter hd)
  pmu j hj d hd := h d (by
    unfold Quire.dests
    simp [hj, hd])
  tmus u j hj d hd := h d (by
    unfold Quire.dests
    refine List.mem_append_right _ (List.mem_flatMap.mpr ⟨some j, ?_, by simp [hd]⟩)
    rw [← hj]
    exact Vector.mem_toList_iff.mpr (Vector.getElem_mem u.isLt))

theorem Quire.Clear.congr {op : Byte} {x y : Quire} (h : x.Clear op) (hy : y.occupied = x.occupied ∧ y.stopWaiters = x.stopWaiters ∧ y.stopReq = x.stopReq ∧ y.pmu = x.pmu ∧ y.tmus = x.tmus) : y.Clear op := by
  obtain ⟨h1, h2, h3, h4, h5⟩ := hy
  exact ⟨by rw [h1]; exact h.occupied, by rw [h2, h3]; exact h.waiters, by rw [h4]; exact h.pmu, by rw [h5]; exact h.tmus⟩

/-- A step whose requests spare the command of opcode `op`, which does not wait on its quire. -/
def W.Spares (op : Byte) (w : W) : Prop := w.Asks (Fx.foreign op openWord) ∧ w.q.Clear op

section
variable {op : Byte} {w : W}

theorem Fx.foreign_logs {free : Nat → Prop} (x : Fx) (hx : x.logs = true) : x.foreign op free := by
  cases x with
  | log _ _ _ _ _ _ => exact trivial
  | saturated _ => exact trivial
  | _ => cases hx

theorem W.Spares.epAbort (h : w.Spares op) (cause : Nat) : (w.epAbort cause).Spares op := by
  have hquire : (w.epAbort cause).q.occupied = w.q.occupied ∧ (w.epAbort cause).q.stopWaiters = w.q.stopWaiters ∧ (w.epAbort cause).q.stopReq = w.q.stopReq ∧ (w.epAbort cause).q.pmu = w.q.pmu
      ∧ (w.epAbort cause).q.tmus = w.q.tmus := by
    rw [(w.settles_epAbort cause).frame]
    exact ⟨rfl, rfl, rfl, rfl, rfl⟩
  have hdrop : (w.epDropped cause).Asks (Fx.foreign op openWord) :=
    W.Asks.bump (w := w.upd fun q => { q with endpaper := { q.endpaper with phase := .idle, comparing := false, forced := false } }) Fx.foreign_logs h.1 _ _
  have htrim : (((w.epDropped cause).upd fun q => { q with retrim := none }).bump (rk 0x18 0x8)).Asks (Fx.foreign op openWord) :=
    W.Asks.bump (w := (w.epDropped cause).upd fun q => { q with retrim := none }) Fx.foreign_logs hdrop _ _
  have hend := W.Asks.ite (c := (w.epDropped cause).q.retrim.isSome = true) htrim hdrop
  refine ⟨?_, h.2.congr hquire⟩
  unfold W.epAbort
  split
  · exact hend
  · exact hend
  · exact hend
  · exact h.1

theorem W.Spares.pmuEndEarly (h : w.Spares op) (st : Byte) (dt : BitVec 16) : (w.pmuEndEarly st dt).Spares op := by
  unfold W.pmuEndEarly
  split
  · exact h
  next j hj =>
    extract_lets w1 w2 w3
    have hclear : w3.q.Clear op := ⟨h.2.occupied, h.2.waiters, nofun, h.2.tmus⟩
    have hasks : w3.Asks (Fx.foreign op openWord) := W.Asks.ask h.1 (x := .freeBits (rk 0x0A 0x104) 0x3FFFF) (.inl rfl)
    split
    · exact ⟨hasks, hclear⟩
    next d hd => exact ⟨hasks.ask (h.2.pmu j hj d hd), hclear⟩

theorem W.Spares.bump (h : w.Spares op) (k n : Nat) : (w.bump k n).Spares op := by
  have hcounts := w.bump_counts k n
  unfold Quire.Counts at hcounts
  exact ⟨h.1.bump Fx.foreign_logs k n, h.2.congr (by rw [hcounts]; exact ⟨rfl, rfl, rfl, rfl, rfl⟩)⟩

/-- A quire one of whose measurements has ended. -/
theorem Quire.Clear.endTmu {x : Quire} (h : x.Clear op) (u : TmuId) (l : Regs) : Quire.Clear op { x with live := l, tmus := x.tmus.set u none } :=
  ⟨h.occupied, h.waiters, h.pmu, fun v j hj => by
    rcases eq_or_ne v u with rfl | hne
    · have hnone : (x.tmus.set v.val none v.isLt)[v] = none := Vector.getElem_set_self _
      exact absurd (hnone.symm.trans hj) (by simp)
    · have hsame : (x.tmus.set u.val none u.isLt)[v] = x.tmus[v] := Vector.getElem_set_ne _ _ fun h => hne (Fin.ext h.symm)
      exact h.tmus v j (hsame.symm.trans hj)⟩

theorem W.Spares.tmuEnd (h : w.Spares op) (oz : Bool) (u : TmuId) (j : TmuJob) (cause : Nat) : (w.tmuEnd oz u j cause).Spares op := by
  obtain ⟨hfx, ⟨l, hq⟩, -⟩ := w.tmuShown_spec u oz j cause
  rw [W.tmuEnd_eq]
  have hopened := (w.tmuShown oz u j cause).tmuOpened_q u cause
  have hshown : (w.tmuShown oz u j cause).Asks (Fx.foreign op openWord) := by
    rw [W.Asks, hfx]
    exact h.1
  generalize w.tmuShown oz u j cause = v at *
  have hasks : (v.tmuOpened u cause).Asks (Fx.foreign op openWord) := .ite hshown (.each _ _ (fun v o ho hv => hv.ask (.inr ⟨u, o, ho, rfl⟩)) hshown)
  generalize v.tmuOpened u cause = v' at *
  have hclear : (v'.upd fun q => { q with tmus := q.tmus.set u none }).q.Clear op := by
    rw [W.upd_q, hopened, hq]
    exact h.2.endTmu u l
  exact W.Spares.bump (w := v'.upd fun q => { q with tmus := q.tmus.set u none }) ⟨hasks, hclear⟩ _ 1

theorem W.Spares.tmuEndEarly (h : w.Spares op) (oz : Bool) (u : TmuId) (cause : Nat) (st : Byte) (dt : BitVec 16) (result : Bool) : (w.tmuEndEarly oz u cause st dt result).Spares op := by
  unfold W.tmuEndEarly
  split
  · exact h
  next j hj =>
    have hend := h.tmuEnd oz u j (if j.cause = 0 then cause else j.cause)
    dsimp only
    split
    · exact hend
    next d hd => exact ⟨hend.1.ask (h.2.tmus u j hj d hd), hend.2⟩

theorem W.Spares.endOccupier (h : w.Spares op) (st : Byte) (dt : BitVec 16) : (w.endOccupier st dt).Spares op := by
  unfold W.endOccupier
  extract_lets v
  split
  · exact ⟨h.1, h.2.congr ⟨rfl, rfl, rfl, rfl, rfl⟩⟩
  next o ho =>
    have hquire : (v.upd fun q => { q with occupied := none }).endDerived.q.stopWaiters = w.q.stopWaiters ∧ (v.upd fun q => { q with occupied := none }).endDerived.q.stopReq = w.q.stopReq
        ∧ (v.upd fun q => { q with occupied := none }).endDerived.q.pmu = w.q.pmu ∧ (v.upd fun q => { q with occupied := none }).endDerived.q.tmus = w.q.tmus
        ∧ (v.upd fun q => { q with occupied := none }).endDerived.q.occupied = none := by
      obtain ⟨dv, sr, rd, en, dr, l, m, hq⟩ := (v.upd fun q => { q with occupied := none }).endDerived_shape
      rw [hq]
      exact ⟨rfl, rfl, rfl, rfl, rfl⟩
    have hend : (v.upd fun q => { q with occupied := none }).endDerived.Spares op := by
      refine ⟨W.Asks.endDerived (w := v.upd fun q => { q with occupied := none }) Fx.foreign_logs h.1, ?_⟩
      obtain ⟨h1, h2, h3, h4, h5⟩ := hquire
      exact ⟨by rw [h5]; exact nofun, by rw [h1, h2]; exact h.2.waiters, by rw [h3]; exact h.2.pmu, by rw [h4]; exact h.2.tmus⟩
    have hreply : ∀ (d : ReplyTo) (x : Fx), d.opcode ≠ op → (d.opcode ≠ op → x.foreign op openWord) → ((v.upd fun q => { q with occupied := none }).endDerived.ask x).Spares op := fun d x hd hx => ⟨hend.1.ask (hx hd), hend.2⟩
    have hocc := h.2.occupied o ho
    cases o with
    | collate d => exact hreply d _ (hocc d (.inl rfl)) id
    | selftest d n => exact hreply d _ (hocc d (.inr (.inl ⟨n, rfl⟩))) id
    | loadCheck d => exact hreply d _ (hocc d (.inr (.inr (.inl rfl)))) id
    | settle d n t =>
      have hd := hocc d (.inr (.inr (.inr (.inl ⟨n, t, rfl⟩))))
      dsimp only
      split
      · exact hreply d _ hd id
      · exact hreply d _ hd id
    | arm d => exact hreply d _ (hocc d (.inr (.inr (.inr (.inr (.inl rfl)))))) id
    | rebind d => exact hreply d _ (hocc d (.inr (.inr (.inr (.inr (.inr rfl)))))) id
    | ended d => exact hend

end

/-- The requests of a quire that is wound up spare the command that resets it. -/
theorem W.windUp_asks {op : Byte} (x : Quire) (h : ∀ d ∈ x.dests, d.opcode ≠ op) (oz : Bool) (st : Byte) (dt : BitVec 16) : (x.w.windUp oz st dt).Asks (Fx.foreign op openWord) := by
  have h0 : x.w.Spares op := ⟨nofun, Quire.clear_of_dests h⟩
  have h2 := (h0.epAbort 0x04).pmuEndEarly st dt
  have h3 : (((x.w.epAbort 0x04).pmuEndEarly st dt).tmusEndEarly oz 0x4 st dt false).Spares op :=
    List.foldlRecOn (motive := W.Spares op) _ _ h2 fun v hv u _ => hv.tmuEndEarly oz u 0x4 st dt false
  have h4 := h3.endOccupier st dt
  exact h4.1.endWaiters st dt fun d hd => h4.2.waiters d hd

/-! ### A quire after its reset -/

/-- What QUIRE_RESET leaves of the quire `x` at the tick `ticks`. -/
def Quire.WasReset (x y : Quire) (ticks : Nat) : Prop :=
  y.state = .parked ∧ y.owner = x.owner ∧ y.dram = { x.dram with queue := y.dram.queue } ∧ (x.derivation = none → y.dram.queue = x.dram.queue) ∧ y.sramShown = x.sramShown ∧ y.cal = x.cal ∧ y.fences = x.fences ∧ y.staging = [] ∧ y.committed = none ∧ y.everCommitted = false
    ∧ y.occupied = none ∧ y.stopReq = none ∧ y.sram = [] ∧ y.sigs = [] ∧ y.store = [] ∧ y.ready = [] ∧ y.slots = [] ∧ y.fifo = [] ∧ y.verdicts = [] ∧ y.insts = []
    ∧ y.bitmap = [] ∧ y.pins = List.replicate 32 .highZ ∧ y.termOn = 0 ∧ y.firstError = none ∧ y.injections = [] ∧ y.qfSticky = 0
    ∧ y.endpaper.drives = x.endpaper.drives ∧ y.engines = [] ∧ y.derivation = none
    ∧ y.vpinSetpoint = 1200 ∧ y.vpinFrom = x.vpinRamp ticks ∧ y.vpinSince = ticks
    ∧ (∀ (u : TmuId) (j : TmuJob), x.tmus[u] = some j → j.cause = 0 → j.mode < 4 → fld (y.liveReg (rk 0x0E (0x40 * u.val))) 24 4 = 4)
    ∧ ∀ k, (rk 0x11 0 ≤ k ∧ k < rk 0x12 0) → y.liveReg k = x.liveReg k

/-- The words that stay of those that a reset filters. -/
theorem rget_filter (m : Regs) (p : Nat → Bool) {k : Nat} (hk : p k = true) : rget k (m.filter fun e => p e.1) = rget k m := by
  have hdrop : (m.filter fun e => p e.1) = sdrop (fun k => !p k) m := List.filter_congr fun e _ => (Bool.not_not _).symm
  rw [hdrop]
  refine (sget_sdrop _ _ k m).trans (if_neg ?_)
  rw [hk]
  decide

/-- The quire that QUIRE_RESET leaves of `x`, which has been wound up to `a`. -/
def Quire.resetFrom (a : Quire) (kept : List Nat) (ticks : Nat) : Quire :=
  { a.afterReset kept with vpinFrom := a.vpinRamp ticks, vpinSince := ticks, playedAt := if a.insts.any (fun i => i.hold.isNone) then some ticks else a.playedAt }

theorem Quire.resetFrom_wasReset (x : Quire) {v : W} (hwinds : x.w.Winds channelWord v) (hdram : x.derivation = none → v.q.dram = x.dram)
    (hstatus : ∀ (u : TmuId) (j : TmuJob), x.tmus[u] = some j → j.cause = 0 → j.mode < 4 → fld (v.q.liveReg (tkey u 0)) 24 4 = 4) (a : Quire) (l : Regs) (o : Option Occupier)
    (ha : a = { v.q with live := l, occupied := o }) (hreg : ∀ k, ¬openWord k → a.liveReg k = v.q.liveReg k) (ticks : Nat) : x.WasReset (a.resetFrom x.tmuStatusKeys ticks) ticks := by
  obtain ⟨hframe, hdrives, hwords⟩ := hwinds
  have hlive : ∀ k, (survives k || x.tmuStatusKeys.contains k) = true → (a.resetFrom x.tmuStatusKeys ticks).liveReg k = a.liveReg k := fun k hk => rget_filter a.live (fun k => survives k || x.tmuStatusKeys.contains k) hk
  have hramp : a.vpinRamp ticks = x.vpinRamp ticks := by
    rw [ha, hframe]
    rfl
  have hdramEq : a.dram = { x.dram with queue := a.dram.queue } := by
    rw [ha]
    exact congrArg Quire.dram hframe
  refine ⟨rfl, ?_, hdramEq, fun hn => ?_, ?_, ?_, ?_, rfl, rfl, rfl, rfl, rfl, rfl, rfl, rfl, rfl, rfl, rfl, rfl, rfl, rfl, rfl, rfl, rfl, rfl, rfl, ?_, rfl, rfl, rfl, hramp, rfl, fun u j hj hcause hmode => ?_, fun k hk => ?_⟩
  · have hkeep : v.q.owner = x.owner := (congrArg Quire.owner hframe).trans rfl
    show a.owner = _
    rw [ha]
    exact hkeep
  · show a.dram.queue = _
    rw [ha]
    exact congrArg Dram.queue (hdram hn)
  · have hkeep : v.q.sramShown = x.sramShown := (congrArg Quire.sramShown hframe).trans rfl
    show a.sramShown = _
    rw [ha]
    exact hkeep
  · have hkeep : v.q.cal = x.cal := (congrArg Quire.cal hframe).trans rfl
    show a.cal = _
    rw [ha]
    exact hkeep
  · have hkeep : v.q.fences = x.fences := (congrArg Quire.fences hframe).trans rfl
    show a.fences = _
    rw [ha]
    exact hkeep
  · show a.endpaper.drives = _
    rw [ha]
    exact hdrives
  · have hkey : x.tmuStatusKeys.contains (rk 0x0E (0x40 * u.val)) = true := by
      rw [List.contains_iff_mem]
      refine List.mem_filterMap.mpr ⟨u, List.mem_finRange u, ?_⟩
      rw [hj]
      rfl
    have hne : ¬openWord (tkey u 0) := by
      rintro (h | ⟨v, o, ho, h⟩)
      · have := u.isLt
        simp only [tkey, rk] at h
        omega
      · simp only [List.mem_cons, List.not_mem_nil, or_false] at ho
        simp only [tkey, rk] at h
        omega
    rw [hlive _ (by rw [hkey, Bool.or_true])]
    rw [show rk 0x0E (0x40 * u.val) = tkey u 0 from rfl, hreg _ hne]
    exact hstatus u j hj hcause hmode
  · have hsur : survives k = true := by
      unfold survives
      rw [decide_eq_true hk.1, decide_eq_true hk.2]
      rfl
    have hne : ¬openWord k := by
      rintro (h | ⟨v, o, ho, h⟩)
      · simp only [rk] at h hk
        omega
      · have := v.isLt
        simp only [List.mem_cons, List.not_mem_nil, or_false] at ho
        simp only [tkey, rk] at h hk
        omega
    rw [hlive k (by rw [hsur, Bool.true_or]), hreg k hne]
    exact hwords k hk

/-! ### A quire is reset -/

theorem State.Sends.carries {s t : State} (h : s.Sends t) : t.spine = s.spine ∧ t.heldPackets = s.heldPackets ∧ t.gov.waiting = s.gov.waiting ∧ t.time = s.time
    ∧ t.collector.reports = s.collector.reports ∧ t.quires = s.quires ∧ t.links = s.links ∧ t.sessions = s.sessions ∧ t.maskWaits = s.maskWaits := by
  have hframe := h.governs.frame
  rw [hframe]
  exact ⟨rfl, rfl, rfl, rfl, rfl, rfl, rfl, rfl, rfl⟩

/-- What the chip keeps through the parts of the QUIRE_RESET of `d`. -/
structure State.Resetting (s : State) (d : ReplyTo) (v : State) : Prop where
  ours : v.Ours d
  spine : v.spine = s.spine
  held : v.heldPackets = []
  waiting : v.gov.waiting = []
  time : v.time = s.time
  reports : v.collector.reports = s.collector.reports

theorem State.Resetting.waits {s v : State} {d : ReplyTo} (h : s.Resetting d v) (A : List MaskWait) : s.Resetting d { v with maskWaits := A } :=
  ⟨h.ours.congr rfl rfl, h.spine, h.held, h.waiting, h.time, h.reports⟩

/-- The reset of a quire that is wound up. -/
def State.resetNow (u : State) (q : QId) (kept : List Nat) : State := (u.modQuire q fun a => a.resetFrom kept u.time.ticks).retarget

theorem State.resetQuire_eq (v : State) (q : QId) : v.resetQuire q = State.resetNow ((v.onQuire q fun x => x.w.windUp v.modeOz stState (detState reasonAborted (v.quire q).state)).cancelStarts q stState
    (detState reasonAborted (v.quire q).state)) q (v.quire q).tmuStatusKeys := by
  unfold State.resetQuire State.resetNow W.windUp
  generalize detState reasonAborted (v.quire q).state = dt
  generalize (v.quire q).tmuStatusKeys = kept
  dsimp only
  generalize State.cancelStarts _ q stState dt = u
  rfl

theorem State.resetQuire_spec (s v : State) (q : QId) (d : ReplyTo) (h : s.Resetting d v) (hdests : ∀ e ∈ (v.quire q).dests, e.opcode ≠ d.opcode) : s.Resetting d (v.resetQuire q) ∧ v.Apart q (v.resetQuire q)
    ∧ (v.quire q).WasReset ((v.resetQuire q).quire q) s.time.ticks ∧ ∀ P, v.MaskOpen d P → (v.resetQuire q).MaskOpen d P := by
  have hasks := W.windUp_asks (v.quire q) hdests v.modeOz stState (detState reasonAborted (v.quire q).state)
  obtain ⟨hwinds, hdram, hstatus⟩ := W.windUp_words (v.quire q) v.modeOz stState (detState reasonAborted (v.quire q).state)
  have hcarries := v.onQuire_carries (d := d) (fun x => x.w.windUp v.modeOz stState (detState reasonAborted (v.quire q).state)) hasks
  have hreset := v.resetQuire_eq q
  generalize (v.onQuire q fun x => x.w.windUp v.modeOz stState (detState reasonAborted (v.quire q).state)) = u at *
  generalize (v.quire q).w.windUp v.modeOz stState (detState reasonAborted (v.quire q).state) = w at *
  obtain ⟨hspine, hheld, hgov, htime, hreports, hapart, ⟨l, o, hquire⟩, hreg, hours, hmask⟩ := hcarries
  rw [State.quire_setQuire_same] at hquire hreg
  rw [State.cancelStarts_none (by rw [hgov]; exact h.waiting), State.resetNow] at hreset
  obtain ⟨kspine, kheld, kwait, ktime, kreports, kquires, klinks, ksessions, kmask⟩ := (u.modQuire q fun a => a.resetFrom (v.quire q).tmuStatusKeys u.time.ticks).retarget_sends.carries
  rw [← hreset] at kspine kheld kwait ktime kreports kquires klinks ksessions kmask
  have hticks : u.time.ticks = s.time.ticks := congrArg Time.ticks (htime.trans h.time)
  refine ⟨⟨?_, kspine.trans (hspine.trans h.spine), kheld.trans (hheld.trans h.held), ?_, ktime.trans (htime.trans h.time), kreports.trans (hreports.trans h.reports)⟩, fun r hr => ?_, ?_, fun P hP => ?_⟩
  · exact (hours (h.ours.congr rfl rfl)).congr klinks ksessions
  · exact kwait.trans ((congrArg Governor.waiting hgov).trans h.waiting)
  · rw [State.quire_congr _ _ r kquires, State.quire_modQuire_other _ _ _ _ hr]
    have := hapart r hr
    rw [State.quire_setQuire_other _ _ _ _ hr] at this
    exact this
  · rw [State.quire_congr _ _ q kquires, State.quire_modQuire_same, hticks]
    exact Quire.resetFrom_wasReset (v.quire q) hwinds hdram hstatus (u.quire q) l o hquire hreg s.time.ticks
  · exact (hmask P (hP.congr rfl)).congr (by rw [kmask]; rfl)

section
variable {s : State} {h : Hdr} {p : Params}

/-- A command that is taken up is in progress under a tag of its own. -/
theorem State.Takes.ours {o : OpSpec} (ht : s.Takes o h p) (h1 : o.opcode ≠ 0x01) (h2 : o.opcode ≠ 0x02) : (s.taken h o.opcode).Ours (hdrDest h o.opcode) := by
  obtain ⟨-, hup, -, htag, -, hown, -⟩ := ht
  have hok : s.handleOk h = true := by
    by_contra hno
    exact absurd (hown.symm.trans (Proofs.notOwner_handle h1 (fun hc => h2 hc.1) (Bool.eq_false_iff.mpr hno))) (by simp)
  obtain ⟨hopen, hhandle⟩ := (Bool.and_eq_true _ _).mp hok
  have hfresh : ∀ e ∈ (s.session h.link).inProgress, e.1 ≠ h.tag := by
    intro e he heq
    have hbusy : s.TagBusy h := ⟨e, he, heq⟩
    have htagged : s.Tagged h o := ⟨hopen, h1, .inl (of_decide_eq_true hhandle)⟩
    exact absurd (htag.symm.trans (tagUse_busy htagged hbusy)) nofun
  have hsession : (s.taken h o.opcode).session h.link = { s.session h.link with inProgress := (s.session h.link).inProgress ++ [(h.tag, o.opcode, h.qmask)] } := by
    rw [State.taken, State.accept_session _ _ _ h1, State.freeBuffer_session]
  refine ⟨(s.taken_linkUp h o.opcode h.link).trans hup, (s.taken_isOpen h h1 h.link).trans hopen, ⟨(h.tag, o.opcode, h.qmask), ?_, rfl, rfl⟩, fun e he heq => ?_⟩
  · show _ ∈ ((s.taken h o.opcode).session h.link).inProgress
    rw [hsession]
    exact List.mem_append_right _ (List.mem_singleton_self _)
  · replace he : e ∈ ((s.taken h o.opcode).session h.link).inProgress := he
    rw [hsession] at he
    rcases List.mem_append.mp he with he | he
    · exact absurd heq (hfresh e he)
    · rw [List.mem_singleton.mp he]
      rfl

/-- The part of a QUIRE_RESET that falls to a quire. -/
def resetPart (s : State) (q : QId) (d : ReplyTo) : State := (s.resetQuire q).quireDone d q stOk

theorem doQuireReset_eq (h : Hdr) (p : Params) (s : State) : doQuireReset h p s = maskCommand opQuireReset h p s (stateCheck notOff) resetPart := rfl

theorem Quire.LetGo.keeps {x y : Quire} (h : x.LetGo y) : y.state = x.state ∧ y.owner = x.owner ∧ (∀ d ∈ y.dests, d ∈ x.dests) ∧ ∀ z t, y.WasReset z t → x.WasReset z t := by
  rcases h with rfl | ⟨d, hd, rfl⟩
  · exact ⟨rfl, rfl, fun _ => id, fun _ _ => id⟩
  · refine ⟨rfl, rfl, fun e he => ?_, fun _ _ => id⟩
    unfold Quire.dests at he ⊢
    dsimp only at he
    rw [hd]
    exact List.mem_append.mpr ((List.mem_append.mp he).imp_left fun he => List.mem_append.mpr ((List.mem_append.mp he).imp_left fun he => List.mem_append.mpr ((List.mem_append.mp he).imp_left fun he =>
      List.mem_append_right _ he)))

/-- A quire that has been reset is not occupied: replies to other commands leave it. -/
theorem Quire.LetGo.of_reset {x y z : Quire} {t : Nat} (h : y.LetGo z) (hy : x.WasReset y t) : x.WasReset z t := by
  obtain ⟨-, -, -, -, -, -, -, -, -, -, hnone, -⟩ := id hy
  rcases h with rfl | ⟨d, hd, -⟩
  · exact hy
  · exact absurd (hnone.symm.trans hd) (by simp)

/-- A part of a QUIRE_RESET. -/
theorem reset_partOk (ht : s.Takes opQuireReset h p) (howns : ∀ r : QId, h.qmask.getLsbD r.val = true → s.owns h.link r = true)
    (hq : ∀ r : QId, h.qmask.getLsbD r.val = true → (s.quire r).state ≠ .off ∧ ∀ d ∈ (s.quire r).dests, d.opcode ≠ 0x17) :
    PartOk (hdrDest h 0x17) (maskPart opQuireReset h (stateCheck notOff) resetPart (hdrDest h 0x17)) (s.Resetting (hdrDest h 0x17)) (fun r y => (s.quire r).LetGo y)
      fun r y => (s.quire r).WasReset y s.time.ticks := by
  intro v q hsel hI hN
  obtain ⟨-, -, -, -, -, -, -, hcoming, -⟩ := ht
  obtain ⟨hoff, hdests⟩ := hq q hsel
  obtain ⟨hstate, howner, hsub, hback⟩ := hN.keeps
  have hown : v.owns h.link q = true := by
    have hs := howns q hsel
    rw [State.owns, Bool.and_eq_true] at hs ⊢
    exact ⟨hI.ours.isOpen, by rw [howner]; exact hs.2⟩
  have hfault : v.faultComing q = false := by
    rw [State.faultComing, hI.reports]
    exact hcoming q (mem_quiresOf.mpr hsel)
  have hcheck : stateCheck notOff (v.quire q) = none := by
    rw [stateCheck, hstate]
    exact if_pos (decide_eq_true hoff)
  obtain ⟨hkeep, hapart, hreset, hmask⟩ := s.resetQuire_spec v q (hdrDest h 0x17) hI fun e he => hdests e (hsub e he)
  exact ⟨v.resetQuire q, maskPart_ok hown hfault hcheck (.inl rfl), hkeep, hmask, hback _ _ hreset, fun r hr => ⟨fun h => h.trans (hapart r hr), fun h => (hapart r hr).of_reset h⟩⟩

/-- QUIRE_RESET leaves its quires at reset, and answers. -/
theorem quireReset_resets (ht : s.Takes opQuireReset h p) (hheld : s.heldPackets = []) (hwait : s.gov.waiting = []) (howns : ∀ r : QId, h.qmask.getLsbD r.val = true → s.owns h.link r = true)
    (hq : ∀ r : QId, h.qmask.getLsbD r.val = true → (s.quire r).state ≠ .off ∧ ∀ d ∈ (s.quire r).dests, d.opcode ≠ 0x17) :
    ∃ t, exec (.quireReset h p) s = .next t ∧ (∀ r : QId, ¬h.qmask.getLsbD r.val = true → (s.quire r).LetGo (t.quire r))
      ∧ [{ dest := hdrDest h 0x17, status := stOk, detail := 0, result := maskBytes h.qmask fun _ => stOk : Reply }] <:+ t.sent
      ∧ ∀ r : QId, h.qmask.getLsbD r.val = true → (s.quire r).WasReset (t.quire r) s.time.ticks := by
  have hcheck : ∀ r ∈ quiresOf h.qmask, stateCheck notOff (s.quire r) = none := fun r hr => by
    rw [stateCheck]
    exact if_pos (decide_eq_true (hq r (mem_quiresOf.mp hr)).1)
  have hfront : front .quireReset opQuireReset.opcode h p s doQuireReset = ((s.taken h 0x17).openMask (hdrDest h 0x17)).each (quiresOf h.qmask) (maskPart opQuireReset h (stateCheck notOff) resetPart (hdrDest h 0x17)) :=
    front_maskCommand (o := opQuireReset) (doQuireReset_eq h p s) (by decide) ht (fun r hr => howns r (mem_quiresOf.mp hr)) hcheck
  have hbooked := s.taken_booked h 0x17
  have hstart : s.Resetting (hdrDest h 0x17) ((s.taken h 0x17).openMask (hdrDest h 0x17)) := by
    refine ⟨State.Ours.congr (s := s.taken h 0x17) (ht.ours (by decide) (by decide)) rfl rfl, ?_, ?_, ?_, ?_, ?_⟩
    all_goals rw [State.openMask, hbooked.1]
    · exact hheld
    · exact hwait
  obtain ⟨v, A, hparts, hI, hG, hN⟩ := State.each_parts _ _ _ _ _ (fun _ A hv => hv.waits A) (reset_partOk ht howns hq) (quiresOf h.qmask) [] ((s.taken h 0x17).openMask (hdrDest h 0x17))
    (ht.selects rfl) (nodup_quiresOf _) (fun _ _ => List.not_mem_nil) (fun i => by rw [mem_quiresOf]; simp [hdrDest]) hstart (State.openMask_maskOpen _ _)
    (fun i _ => by rw [show ((s.taken h 0x17).openMask (hdrDest h 0x17)).quire i = s.quire i from s.taken_quires h 0x17 i]; exact .refl _) nofun
  rw [hparts] at hfront
  have hmaps : ∀ r, ({ v with maskWaits := A, quires := v.quires.map (Quire.unoccupy (hdrDest h 0x17)) } : State).quire r = (v.quire r).unoccupy (hdrDest h 0x17) := fun r => quire_map v _ r
  have hspine : v.spine.restarting = false := by
    rw [hI.spine]
    exact (State.interpreting_restarting s ht.1).1
  have hin : (v.session h.link).inProgress.any (fun e => decide (e.1 = h.tag ∧ e.2.1 = 0x17)) = true := by
    obtain ⟨e, he, htag, hop⟩ := hI.ours.busy
    exact List.any_eq_true.mpr ⟨e, he, decide_eq_true ⟨htag, hop⟩⟩
  refine ⟨State.reply { v with maskWaits := A, quires := v.quires.map (Quire.unoccupy (hdrDest h 0x17)) } (hdrDest h 0x17) stOk 0 (maskBytes h.qmask fun _ => stOk), ?_, fun r hr => ?_, ?_, fun r hr => ?_⟩
  · show Host.Outcome.next (front .quireReset opQuireReset.opcode h p s doQuireReset).takeStreams = _
    rw [hfront, State.takeStreams_of_none (by rw [State.reply_heldPackets]; exact hI.held)]
    rfl
  · rw [State.reply_quire, hmaps]
    exact (hN r hr).trans (Quire.letGo_unoccupy _ _)
  · rw [State.reply_occupying { v with maskWaits := A, quires := v.quires.map (Quire.unoccupy (hdrDest h 0x17)) } (hdrDest h 0x17) stOk 0 _ hspine (show occupying 0x17 = true by decide) hI.ours.up hin]
    exact List.suffix_append _ _
  · rw [State.reply_quire, hmaps]
    exact (Quire.letGo_unoccupy _ _).of_reset (hG r hr)

/-- REBIND of quires in play waits for their runs to stop. -/
theorem rebind_later (ht : s.Takes opRebind h p) (hheld : s.heldPackets = []) (howns : ∀ r : QId, h.qmask.getLsbD r.val = true → s.owns h.link r = true)
    (hstate : ∀ r : QId, h.qmask.getLsbD r.val = true → (s.quire r).state.inPlay = true) :
    ∃ t, exec (.rebind h p) s = .next t ∧ t.sent = s.sent ∧ ∀ r : QId, t.quire r = if h.qmask.getLsbD r.val = true then (s.quire r).rebindAsked (hdrDest h 0x16) else s.quire r := by
  have hcheck : ∀ r ∈ quiresOf h.qmask, stateCheck rebindStates (s.quire r) = none := fun r hr => by
    have hplay := hstate r (mem_quiresOf.mp hr)
    rw [stateCheck]
    revert hplay
    generalize (s.quire r).state = st
    cases st <;> decide
  have howns' : ∀ r ∈ quiresOf h.qmask, s.owns h.link r = true := fun r hr => howns r (mem_quiresOf.mp hr)
  have hquire : ∀ r, ((s.taken h 0x16).openMask (hdrDest h 0x16)).quire r = s.quire r := fun r => s.taken_quires h 0x16 r
  have hfront : front .rebind opRebind.opcode h p s doRebind = ((s.taken h 0x16).openMask (hdrDest h 0x16)).each (quiresOf h.qmask) (maskPart opRebind h (stateCheck rebindStates) rebindPart (hdrDest h 0x16)) :=
    front_maskCommand (o := opRebind) (doRebind_eq h p s) (by decide) ht howns' hcheck
  have hok := ht.parts (by decide) (hdrDest h 0x16) howns' hcheck
  rw [show opRebind.opcode = 0x16 from rfl] at hok
  rw [State.each_maskPart (fun x => x.rebindAsked (hdrDest h 0x16)) (quiresOf h.qmask) (nodup_quiresOf _) _ hok fun v q hq hv => by
    rw [rebindPart, hv, hquire, if_pos (hstate q (mem_quiresOf.mp hq))]] at hfront
  obtain ⟨⟨qs, heach⟩, hquires⟩ := State.each_modQuire (fun x => x.rebindAsked (hdrDest h 0x16)) (quiresOf h.qmask) (nodup_quiresOf _) ((s.taken h 0x16).openMask (hdrDest h 0x16))
  have hbooked := s.taken_booked h 0x16
  have hkept : ((s.taken h 0x16).openMask (hdrDest h 0x16)).heldPackets = [] := by
    rw [State.openMask, hbooked.1]
    exact hheld
  refine ⟨((s.taken h 0x16).openMask (hdrDest h 0x16)).each (quiresOf h.qmask) fun u q => u.modQuire q fun x => x.rebindAsked (hdrDest h 0x16), ?_, ?_, fun r => ?_⟩
  · show Host.Outcome.next (front .rebind opRebind.opcode h p s doRebind).takeStreams = _
    rw [hfront, State.takeStreams_of_none]
    rw [heach]
    exact hkept
  · rw [heach]
    exact ht.due.sent
  · rw [hquires, hquire]
    exact if_congr mem_quiresOf rfl rfl

end

end Sys2Proof.Machine

namespace Sys2Proof.Proofs
open Sys2Proof.Machine

/-- Settles O35: REBIND stages its quires anew at once, or once their runs have stopped, and QUIRE_RESET leaves its quires at reset. -/
theorem rebindAndReset : Obligations.RebindAndReset := by
  unfold Obligations.RebindAndReset
  intro s h p sel others freed ok hheld hwait howns
  refine ⟨fun ht hstate => ?_, fun ht hplay => ?_, fun ht _ hq => ?_⟩
  · obtain ⟨t, hexec, hanswers, hfreed, hstaged⟩ := rebind_now ht hheld hwait howns hstate
    refine ⟨t, hexec, hanswers, hfreed, fun r hr => ?_⟩
    obtain ⟨y, hy, hquire⟩ := hstaged r hr
    dsimp only
    rw [hquire]
    refine ⟨hy.state, rfl, hy.committed, hy.staging, hy.pages.1, hy.pages.2, hy.pins.1, hy.pins.2, hy.chunks.1, hy.chunks.2, hy.cleared, hy.kept, fun g hg => ?_⟩
    have hsig : Quire.sig { y with occupied := none } g = ((s.quire r).sig g).refreshed := hy.sigs g hg
    rw [hsig]
    exact SigState.refreshed_stale hg
  · obtain ⟨t, hexec, hsent, hquire⟩ := rebind_later ht hheld howns fun r hr => (hplay r hr).1
    refine ⟨t, hexec, hsent, fun r hr => (hquire r).trans (if_neg hr), fun r hr => ?_⟩
    rw [hquire r, if_pos hr, Quire.rebindAsked, (hplay r hr).2]
  · obtain ⟨t, hexec, hothers, hsent, hreset⟩ := quireReset_resets ht hheld hwait howns hq
    refine ⟨t, hexec, fun r hr => ?_, hsent, hreset⟩
    rcases hothers r hr with h | ⟨d, hd, hy⟩
    · exact .inl h
    · exact .inr ⟨⟨d, hd⟩, hy⟩

end Sys2Proof.Proofs

end

section

/-! # LOAD_SIGNATURE (R83 to R88, R628, R629) -/

namespace Sys2Proof.Machine

/-! ### What the reachable entries rest on (R102) -/

section
variable {x z : Quire} (h : ∀ page o, z.cfg page o = x.cfg page o)
include h

theorem Quire.straight_congr (n : Nat) (todo seen : List Nat) : z.straight n todo seen = x.straight n todo seen := by
  induction n generalizing todo seen with
  | zero => rfl
  | succ n ih =>
    cases todo with
    | nil => rfl
    | cons e todo => rw [Quire.straight, Quire.straight, Quire.bindOp_congr h, Quire.bindTarget_congr h, ih, ih]

theorem Quire.jumps_congr (e : Nat) : z.jumps e = x.jumps e := by rw [Quire.jumps, Quire.jumps, Quire.bindOp_congr h, Quire.bindTimeout_congr h]

theorem Quire.keepLoops_congr (depth t : Nat) (l : List (Nat × Nat)) : z.keepLoops depth t l = x.keepLoops depth t l := by simp only [Quire.keepLoops, Quire.inBody_congr h]

theorem Quire.follow_congr (cut : Bool) (p : Place) : z.follow cut p = x.follow cut p := by
  simp only [Quire.follow, Quire.jumps_congr h, Quire.bindTarget_congr h, Quire.bindOp_congr h, Quire.keepLoops_congr h]

theorem Quire.explore_congr {c c' : Place → Bool} (hc : c = c') (n : Nat) (todo seen : List Place) : z.explore c n todo seen = x.explore c' n todo seen := by
  subst hc
  induction n generalizing todo seen with
  | zero => rfl
  | succ n ih =>
    cases todo with
    | nil => rfl
    | cons e todo => rw [Quire.explore, Quire.explore, Quire.follow_congr h, ih, ih]

theorem Quire.jumpsBadly_congr (all : List Place) : z.jumpsBadly all = x.jumpsBadly all := by
  funext p
  simp only [Quire.jumpsBadly, Quire.badJump, Quire.jumps_congr h, Quire.bindTarget_congr h, Quire.bindOp_congr h, Quire.inBody_congr h, Quire.straight_congr h]

theorem Quire.startPlace_congr : z.startPlace = x.startPlace := by rw [Quire.startPlace, Quire.startPlace, Quire.startEntry, Quire.startEntry, h]

theorem Quire.places_congr : z.places = x.places := by
  have hall : z.allPlaces = x.allPlaces := by
    rw [Quire.allPlaces, Quire.allPlaces, Quire.explore_congr h rfl, Quire.startPlace_congr h]
  rw [Quire.places, Quire.places, hall, Quire.startPlace_congr h, Quire.explore_congr h (Quire.jumpsBadly_congr h x.allPlaces)]

/-- The signatures that reachable entries play rest on the configuration alone. -/
theorem Quire.playedSigs_congr : z.playedSigs = x.playedSigs := by
  have hsig : z.bindSig = x.bindSig := funext fun e => by rw [Quire.bindSig, Quire.bindSig, h]
  simp only [Quire.playedSigs, Quire.reachable, Quire.places_congr h, Quire.bindOp_congr h, hsig]

theorem Quire.playsStream_congr : z.playsStream = x.playsStream := by
  have hhome : z.sigHome = x.sigHome := funext fun g => by rw [Quire.sigHome, Quire.sigHome, Quire.sigCtrl, Quire.sigCtrl, h]
  rw [Quire.playsStream, Quire.playsStream, Quire.playedSigs_congr h, hhome]

end

/-- The check of a reloaded image rests on the configuration, the signatures and the memories alone. -/
theorem Quire.reloadBad_unoccupied (x : Quire) (o : Option Occupier) (d : Option Derivation) (e : Sparse Engine) (g : Nat) :
    Quire.reloadBad { x with occupied := o, derivation := d, engines := e } g = x.reloadBad g := by
  have huse : Quire.bufferUse { x with occupied := o, derivation := d, engines := e } = x.bufferUse := by
    have hplays : Quire.playsStream { x with occupied := o, derivation := d, engines := e } = x.playsStream := Quire.playsStream_congr fun _ _ => rfl
    rw [Quire.bufferUse, Quire.bufferUse, hplays]
    rfl
  rw [Quire.reloadBad, Quire.reloadBad, huse]
  rfl

/-! ### Contexts that new data replaces (R249) -/

theorem sfind_mapValue {α : Type} (f : α → α) (k : Nat) (m : Sparse α) : sfind k (m.map fun e => (e.1, f e.2)) = (sfind k m).map f := by
  induction m with
  | nil => rfl
  | cons e m ih =>
    rw [List.map_cons, sfind, sfind, ih]
    split
    · rfl
    · rfl

/-- The engine without a context of the signatures of `hit`. -/
def Engine.forgets (hit : Nat → Bool) (e : Engine) : Engine := match e.context with | some c => if c < 0x400 && hit c then { e with context := none } else e | none => e

theorem Engine.forgets_context {hit : Nat → Bool} {g : Nat} (hg : g < 1024) (hhit : hit g = true) (e : Engine) : (e.forgets hit).context ≠ some g := by
  unfold Engine.forgets
  split
  next c hc =>
    split
    · exact nofun
    next hne =>
      intro he
      obtain rfl : c = g := Option.some.inj (hc.symm.trans he)
      exact hne (by rw [hhit, decide_eq_true hg]; rfl)
  next hn =>
    rw [hn]
    exact nofun

theorem Engine.forgets_keeps (hit : Nat → Bool) (g : Nat) (e : Engine) (h : e.context ≠ some g) : (e.forgets hit).context ≠ some g := by
  unfold Engine.forgets
  split
  · split
    · exact nofun
    · exact h
  · exact h

theorem Quire.invalidate_eq (x : Quire) (hit : Nat → Bool) : x.invalidate hit = { x with engines := x.engines.map fun e => (e.1, e.2.forgets hit) } := by
  unfold Quire.invalidate
  refine congrArg (fun es => { x with engines := es }) (List.map_congr_left fun e _ => ?_)
  obtain ⟨i, e⟩ := e
  unfold Engine.forgets
  cases hc : e.context with
  | none => simp only [hc]
  | some c =>
    simp only [hc]
    split
    · rfl
    · rfl

theorem Quire.invalidate_engine (x : Quire) (hit : Nat → Bool) (i : Nat) : (x.invalidate hit).engine i = (x.engine i).forgets hit := by
  rw [x.invalidate_eq, Quire.engine, sfind_mapValue, Quire.engine]
  cases sfind i x.engines with
  | none => rfl
  | some e => rfl

/-! ### The data of a segment is stored (R83, R460, R499) -/

theorem Dram.write_frame (d : Dram) (port : Port) (a : Nat) (bs : List Byte) (sig : Nat) :
    d.write port a bs sig = { d with mem := bwrite a bs d.mem, poison := (d.write port a bs sig).poison, queue := (d.write port a bs sig).queue } := by
  unfold Dram.write
  extract_lets first lines d'
  have hloop : ∀ e : Dram, e = { d with mem := bwrite a bs d.mem, poison := e.poison, queue := e.queue } →
      (lines.foldl (fun d l => d.ask port l true sig 0) e) = { d with mem := bwrite a bs d.mem, poison := (lines.foldl (fun d l => d.ask port l true sig 0) e).poison, queue := (lines.foldl (fun d l => d.ask port l true sig 0) e).queue } :=
    fun e he => List.foldlRecOn (motive := fun e : Dram => e = { d with mem := bwrite a bs d.mem, poison := e.poison, queue := e.queue }) lines _ he fun e he l _ => by
      rw [Dram.ask]
      have hmem := he
      rw [hmem]
  exact hloop d' rfl

/-- The byte at `a` of the memory that the home names. -/
def Quire.space (x : Quire) (home a : Nat) : Byte := if home = 0 then bget a x.dram.mem else bget a x.sram

/-- The quire with the data of a segment in its home. -/
def Quire.loadStored (x : Quire) (p : Params) : Quire :=
  let g := par p 0 2
  let a := x.shown.sigLoc g + par p 16 8
  if x.shown.sigHome g = 0 then { x with dram := x.dram.write .hostLoad a (p.drop 24) g } else { x with sram := bwrite a (p.drop 24) x.sram }

theorem Quire.loadStored_frame (x : Quire) (p : Params) : x.loadStored p = { x with
    sram := (x.loadStored p).sram
    dram := { x.dram with mem := (x.loadStored p).dram.mem, poison := (x.loadStored p).dram.poison, queue := (x.loadStored p).dram.queue } } := by
  unfold Quire.loadStored
  dsimp only
  split
  · have hd := x.dram.write_frame .hostLoad (x.shown.sigLoc (par p 0 2) + par p 16 8) (p.drop 24) (par p 0 2)
    have hmem : (x.dram.write .hostLoad (x.shown.sigLoc (par p 0 2) + par p 16 8) (p.drop 24) (par p 0 2)).mem = bwrite (x.shown.sigLoc (par p 0 2) + par p 16 8) (p.drop 24) x.dram.mem := Dram.write_mem ..
    rw [← hmem] at hd
    generalize x.dram.write .hostLoad (x.shown.sigLoc (par p 0 2) + par p 16 8) (p.drop 24) (par p 0 2) = d at *
    exact congrArg (fun d => { x with dram := d }) hd
  · rfl

theorem bget_bwrite_getD (a i : Nat) (bs : List Byte) (m : Sparse Byte) (h : i < bs.length) : bget (a + i) (bwrite a bs m) = bs.getD i 0 := by
  rw [bget_bwrite_same a i bs m h, List.getD_eq_getElem?_getD, List.getElem?_eq_getElem h, Option.getD_some]

theorem Quire.loadStored_space (x : Quire) (p : Params) (y : Quire) (hdram : y.dram.mem = (x.loadStored p).dram.mem) (hsram : y.sram = (x.loadStored p).sram) :
    (∀ i < (p.drop 24).length, y.space (x.shown.sigHome (par p 0 2)) (x.shown.sigLoc (par p 0 2) + par p 16 8 + i) = (p.drop 24).getD i 0)
      ∧ ∀ a, a < x.shown.sigLoc (par p 0 2) + par p 16 8 ∨ x.shown.sigLoc (par p 0 2) + par p 16 8 + (p.drop 24).length ≤ a → y.space (x.shown.sigHome (par p 0 2)) a = x.space (x.shown.sigHome (par p 0 2)) a := by
  unfold Quire.space
  rw [hdram, hsram]
  unfold Quire.loadStored
  dsimp only
  by_cases hhome : x.shown.sigHome (par p 0 2) = 0
  · simp only [if_pos hhome, Dram.write_mem]
    exact ⟨fun i hi => bget_bwrite_getD _ _ _ _ hi, fun a ha => bget_bwrite_other _ _ _ _ ha⟩
  · simp only [if_neg hhome]
    exact ⟨fun i hi => bget_bwrite_getD _ _ _ _ hi, fun a ha => bget_bwrite_other _ _ _ _ ha⟩

theorem Quire.replaced_eq (x : Quire) {g : Nat} (home loc bytes : Nat) (hg : g < 1024) : ∃ po, x.replaced g home loc bytes =
    { x with engines := x.engines.map fun e => (e.1, e.2.forgets (· = g)), dram := { x.dram with poison := po } } ∧
    ∀ e, (Quire.engine { x with engines := x.engines.map fun e => (e.1, e.2.forgets (· = g)), dram := { x.dram with poison := po } } e).context ≠ some g := by
  have hcontext : ∀ e, ((x.invalidate (· = g)).engine e).context ≠ some g := fun e => by
    rw [x.invalidate_engine]
    exact Engine.forgets_context hg (decide_eq_true rfl) _
  rw [x.invalidate_eq] at hcontext
  unfold Quire.replaced
  rw [x.invalidate_eq]
  dsimp only
  split
  · exact ⟨_, rfl, hcontext⟩
  · exact ⟨_, rfl, hcontext⟩

/-! ### A segment is taken -/

/-- What a segment leaves of the quire `x`, with the state `s` of its signature. -/
structure Quire.Loaded (x : Quire) (p : Params) (s : SigState) (y : Quire) : Prop where
  frame : y = { x with
    state := if x.state = .parked then .staged else x.state, sigs := sput (fun _ => SigState.reset) (par p 0 2) s x.sigs, sram := (x.loadStored p).sram, engines := y.engines
    dram := { x.dram with mem := (x.loadStored p).dram.mem, poison := y.dram.poison, queue := y.dram.queue } }

/-- The load that a first segment begins. -/
def firstLoad (p : Params) (isLast : Bool) : Load := { imageBytes := par p 8 8, got := [(par p 16 8, par p 16 8 + (p.drop 24).length)], lastSeen := isLast }

/-- The state of a signature whose image is complete. -/
def SigState.reloaded (s : SigState) (bytes : Nat) (buf : BufState) : SigState :=
  { s with load := none, imageBytes := bytes, poisoned := false, underrun := false, damaged := false, changed := true, buf := buf }

/-- The load in progress once a segment of it is taken. -/
def Quire.nextLoad (x : Quire) (p : Params) : Load :=
  let l : Load := if par p 2 1 % 2 = 1 then { imageBytes := par p 8 8, got := [], lastSeen := false } else (x.sig (par p 0 2)).load.getD { imageBytes := par p 8 8, got := [], lastSeen := false }
  { l with got := if p.drop 24 = [] then l.got else mergePiece (par p 16 8, par p 16 8 + (p.drop 24).length) l.got, lastSeen := l.lastSeen || decide (par p 2 1 / 2 % 2 = 1) }

/-- The load is complete. -/
def Load.whole (l : Load) : Bool := l.lastSeen && decide (l.received = l.imageBytes)

theorem Quire.loadSegment_eq (x : Quire) (p : Params) : x.loadSegment p =
    let y := (x.loadStored p).setSig (par p 0 2) (if (x.nextLoad p).whole then (x.sig (par p 0 2)).reloaded (x.nextLoad p).imageBytes (if (x.loadStored p).state.writable then .loaded else .loading)
      else { x.sig (par p 0 2) with load := some (x.nextLoad p), buf := .loading, changed := true })
    ({ (if (x.nextLoad p).whole then y.replaced (par p 0 2) (x.shown.sigHome (par p 0 2)) (x.shown.sigLoc (par p 0 2)) (x.nextLoad p).imageBytes else y) with
        state := if y.state = .parked then .staged else y.state }, (x.nextLoad p).whole) := rfl

section
variable (x : Quire) (p : Params)

theorem Quire.loaded_of_stored (s : SigState) (y : Quire) (hy : y = { x.loadStored p with
    state := if (x.loadStored p).state = .parked then .staged else (x.loadStored p).state, sigs := sput (fun _ => SigState.reset) (par p 0 2) s (x.loadStored p).sigs, engines := y.engines
    dram := { (x.loadStored p).dram with poison := y.dram.poison } }) : x.Loaded p s y := by
  have hframe := x.loadStored_frame p
  constructor
  generalize x.loadStored p = z at *
  have hqueue : y.dram.queue = z.dram.queue := by rw [hy]
  rw [hframe] at hy
  rw [hqueue]
  exact hy

/-- A segment with which its load is not complete. -/
theorem Quire.loadSegment_open (hopen : (x.nextLoad p).whole = false) :
    ∃ y, x.loadSegment p = (y, false) ∧ x.Loaded p { x.sig (par p 0 2) with load := some (x.nextLoad p), buf := .loading, changed := true } y ∧ y.engines = x.engines := by
  have hseg := x.loadSegment_eq p
  rw [hopen] at hseg
  refine ⟨_, hseg, x.loaded_of_stored p _ _ rfl, ?_⟩
  exact (congrArg Quire.engines (x.loadStored_frame p)).trans rfl

/-- A segment with which its load is complete. -/
theorem Quire.loadSegment_whole (hwhole : (x.nextLoad p).whole = true) (hg : par p 0 2 < 1024) :
    ∃ y, x.loadSegment p = (y, true) ∧ x.Loaded p ((x.sig (par p 0 2)).reloaded (x.nextLoad p).imageBytes (if x.state.writable then .loaded else .loading)) y ∧ ∀ e, (y.engine e).context ≠ some (par p 0 2) := by
  have hstate : (x.loadStored p).state = x.state := (congrArg Quire.state (x.loadStored_frame p)).trans rfl
  have hseg := x.loadSegment_eq p
  rw [hwhole, hstate] at hseg
  obtain ⟨po, hrep, hengine⟩ := Quire.replaced_eq ((x.loadStored p).setSig (par p 0 2) ((x.sig (par p 0 2)).reloaded (x.nextLoad p).imageBytes (if x.state.writable then .loaded else .loading)))
    (x.shown.sigHome (par p 0 2)) (x.shown.sigLoc (par p 0 2)) (x.nextLoad p).imageBytes hg
  dsimp only at hseg
  rw [if_pos rfl, if_pos rfl, hrep] at hseg
  exact ⟨_, hseg, x.loaded_of_stored p _ _ rfl, hengine⟩

end

end Sys2Proof.Machine

end

section

/-! # LOAD_SIGNATURE is taken (R83 to R88, R488, R545) -/

namespace Sys2Proof.Machine

/-! ### The form of a segment -/

theorem par_byte (p : Params) (k : Nat) : par p k 1 = (p.getD k 0).toNat := by
  rw [par, List.getD_eq_getElem?_getD, ← List.head?_drop]
  cases p.drop k with
  | nil => rfl
  | cons b t => exact Nat.add_zero _

theorem segment_first (p : Params) : (p.getD 2 0).getLsbD 0 = decide (par p 2 1 % 2 = 1) := by
  rw [par_byte, BitVec.getLsbD, Nat.testBit_zero]

theorem segment_last (p : Params) : (p.getD 2 0).getLsbD 1 = decide (par p 2 1 / 2 % 2 = 1) := by
  rw [par_byte, BitVec.getLsbD, Nat.testBit_succ, Nat.testBit_zero]

/-- The checks of an acceptable segment. -/
theorem loadCheck_none {x : Quire} {p : Params} (hg : par p 0 2 < 1024) (hvalid : x.shown.sigValid (par p 0 2) = true)
    (hhome : x.shown.sigHome (par p 0 2) = 1 ∨ (x.shown.sigHome (par p 0 2) = 0 ∧ x.dram.available = true))
    (hspace : x.shown.sigLoc (par p 0 2) + par p 16 8 + (p.drop 24).length ≤ x.homeBytes (x.shown.sigHome (par p 0 2))) (halign : par p 16 8 % 64 = 0) (hbytes : par p 16 8 + (p.drop 24).length ≤ par p 8 8)
    (hseg : (p.getD 2 0).getLsbD 1 = true ∨ (p.drop 24).length % 64 = 0) (hoff : x.state ≠ .off) (hfault : x.state ≠ .faulted)
    (hload : (p.getD 2 0).getLsbD 0 = true ∨ ∃ l, (x.sig (par p 0 2)).load = some l ∧ l.imageBytes = par p 8 8)
    (hwrite : (x.state = .parked ∨ x.state = .staged) ∨ (x.refs (par p 0 2) = 0 ∧ (x.sig (par p 0 2)).buf ≠ .freeDeferred)) : loadCheck x p = none := by
  rw [segment_last] at hseg
  rw [segment_first] at hload
  rw [List.length_drop] at hspace hbytes hseg
  have hhome2 : ¬x.shown.sigHome (par p 0 2) = 2 := by omega
  have hfits : decide (x.homeBytes (x.shown.sigHome (par p 0 2)) < x.shown.sigLoc (par p 0 2) + par p 16 8 + (p.length - 24)) = false := decide_eq_false (by omega)
  have horder : ¬((!decide (par p 2 1 % 2 = 1)) = true ∧ (x.sig (par p 0 2)).load.isNone = true) := by
    rintro ⟨h1, h2⟩
    rcases hload with hf | ⟨l, hl, -⟩
    · rw [hf] at h1
      cases h1
    · rw [hl] at h2
      cases h2
  have hbusy : ¬((!x.state.writable) = true ∧ (x.refs (par p 0 2) ≠ 0 ∨ (x.sig (par p 0 2)).buf = .freeDeferred)) := by
    rintro ⟨h1, h2⟩
    rcases hwrite with (hw | hw) | ⟨hr, hb⟩
    · rw [hw] at h1
      cases h1
    · rw [hw] at h1
      cases h1
    · exact h2.elim (fun h => h hr) hb
  have hchannel : ¬(x.shown.sigHome (par p 0 2) = 0 ∧ (!x.dram.available) = true) := by
    rintro ⟨h1, h2⟩
    rcases hhome with h | ⟨-, h⟩
    · omega
    · rw [h] at h2
      cases h2
  have hpart : ¬((!decide (par p 2 1 / 2 % 2 = 1)) = true ∧ (p.length - 24) % 64 ≠ 0) := by
    rintro ⟨h1, h2⟩
    rcases hseg with hl | hl
    · rw [hl] at h1
      cases h1
    · exact h2 hl
  unfold loadCheck
  dsimp only
  rw [if_neg (by omega), hfits, Bool.and_false, Bool.or_false]
  refine (if_neg ?_).trans ?_
  · rcases hload with hf | ⟨l, hl, hb⟩
    · rw [hf]
      cases (x.sig (par p 0 2)).load with
      | none => exact Bool.false_ne_true
      | some l => exact Bool.false_ne_true
    · rw [hl]
      simp [hb]
  · rw [if_neg (by omega), if_neg hpart, if_neg (by rw [hvalid]; decide), if_neg hoff, if_neg hhome2, if_neg hfault, if_neg horder, if_neg hbusy, if_neg hchannel]

/-! ### A packet that the interpreter may take -/

section
variable {s : State} {h : Hdr} {p : Params}

theorem refusal_freeBuffer (s : State) (o : OpSpec) (r : Option Refuse) : refusal o h p (s.freeBuffer h.link h.cls) (fun _ => r) = refusal o h p s fun _ => r := by
  have hfull : (s.freeBuffer h.link h.cls).full h.link = s.full h.link := by rw [State.full, State.freeBuffer_session, State.full]
  unfold refusal
  simp only [notOwner_freeBuffer, faultComing_freeBuffer, State.freeBuffer_collector, State.freeBuffer_quire, hfull]

/-- A packet that is taken, and that its own checks accept, would be carried out now. -/
theorem State.Takes.accepts {o : OpSpec} {check : State → Option Refuse} (ht : s.Takes o h p) (hc : check s = none) : accepts o h p s check = true := by
  have hnone : refusal o h p s check = none := (refusal_freeBuffer s o (check s)).symm.trans (refusal_taken s o h p (fun _ => check s) ht hc)
  obtain ⟨-, -, hwhole, htag, -⟩ := ht
  rw [Machine.accepts, hwhole, htag, hnone]
  rfl

/-- A packet that its own checks refuse would not be carried out. -/
theorem accepts_refused {o : OpSpec} {check : State → Option Refuse} (ht : s.Takes o h p) {r : Refuse} (hc : check s = some r) : accepts o h p s check = false := by
  have hsome : refusal o h p s check = some r := (refusal_freeBuffer s o (check s)).symm.trans (refusal_check s o h p (fun _ => check s) r ht hc)
  rw [Machine.accepts, hsome]
  exact Bool.and_false _

/-! ### LOAD_SIGNATURE is carried out -/

/-- The check of a reloaded signature begins. -/
def Quire.startCheck (x : Quire) (g : Nat) (d : ReplyTo) : Quire :=
  let x := x.modSig g fun y => { y with checking := some d }
  { x.startDerived false (if x.reloadBad g || x.deriveItems g = 0 then [] else [g]) with occupied := some (.loadCheck d) }

/-- A segment is carried out. -/
def loadRun (q : QId) (p : Params) (s : State) (d : ReplyTo) : State :=
  if ((s.quire q).loadSegment p).2 && !(s.quire q).state.writable then (s.setQuire q ((s.quire q).loadSegment p).1).modQuire q fun x => x.startCheck (par p 0 2) d
  else (s.setQuire q ((s.quire q).loadSegment p).1).reply d stOk

theorem takeLoad_eq (waited : Bool) (h : Hdr) (p : Params) (s : State) : takeLoad waited h p s =
    if s.linkUp h.link && (s.loadWaits h.link || loadFull { opLoadSignature with whileOccupied := waited } waited h p s) then s.hold (.loadSignature h p)
    else packet { opLoadSignature with whileOccupied := waited } h p s (fun s => loadCheck (s.quire (hdrQuire h)) p) (loadRun (hdrQuire h) p) := rfl

theorem exec_loadSignature_front (ht : s.Takes opLoadSignature h p) : exec (.loadSignature h p) s = .next (takeLoad false h p s) :=
  congrArg Host.Outcome.next (front_taken s .loadSignature opLoadSignature h p doLoadSignature (by decide) ht)

theorem exec_loadSignature (ht : s.Takes opLoadSignature h p) (hcheck : loadCheck (s.quire (hdrQuire h)) p = none) (hwaits : s.loadWaits h.link = false)
    (hblock : (s.quire (hdrQuire h)).loadBlocked p = false) : exec (.loadSignature h p) s = .next (loadRun (hdrQuire h) p (s.taken h 0x20) (hdrDest h 0x20)) := by
  have hfull : loadFull { opLoadSignature with whileOccupied := false } false h p s = false := by
    rw [loadFull, hblock]
    exact Bool.and_false _
  have hpacket : packet opLoadSignature h p s (fun s => loadCheck (s.quire (hdrQuire h)) p) (loadRun (hdrQuire h) p) = loadRun (hdrQuire h) p (s.taken h 0x20) (hdrDest h 0x20) :=
    packet_taken s opLoadSignature h p _ _ _ ht (by rw [State.freeBuffer_quire]; exact hcheck)
  rw [exec_loadSignature_front ht, takeLoad_eq, hwaits, hfull, Bool.or_self, Bool.and_false, if_neg Bool.false_ne_true]
  exact congrArg Host.Outcome.next hpacket

/-- Data that has no way into the channel waits in the link buffer, and so does a load behind another one. -/
theorem exec_loadSignature_waits (ht : s.Takes opLoadSignature h p) (hcheck : loadCheck (s.quire (hdrQuire h)) p = none)
    (hwait : s.loadWaits h.link = true ∨ (s.quire (hdrQuire h)).loadBlocked p = true) : exec (.loadSignature h p) s = .next { s with heldPackets := s.heldPackets ++ [.loadSignature h p] } := by
  have hfull : (s.loadWaits h.link || loadFull { opLoadSignature with whileOccupied := false } false h p s) = true := by
    rcases hwait with hw | hb
    · rw [hw, Bool.true_or]
    · have haccepts : accepts { opLoadSignature with whileOccupied := false } h p s (fun s => loadCheck (s.quire (hdrQuire h)) p) = true := ht.accepts hcheck
      rw [loadFull, hb, haccepts]
      exact Bool.or_true _
  rw [exec_loadSignature_front ht, takeLoad_eq, hfull, ht.2.1]
  rfl

/-- A segment that is answered at once. -/
theorem load_serves (ht : s.Takes opLoadSignature h p) (hcheck : loadCheck (s.quire (hdrQuire h)) p = none) (hwaits : s.loadWaits h.link = false) (hblock : (s.quire (hdrQuire h)).loadBlocked p = false)
    (hnow : (((s.quire (hdrQuire h)).loadSegment p).2 && !(s.quire (hdrQuire h)).state.writable) = false) (hocc : ((s.quire (hdrQuire h)).loadSegment p).1.occupied = (s.quire (hdrQuire h)).occupied) :
    s.Serves (.loadSignature h p) h opLoadSignature [] (s.setQuire (hdrQuire h) ((s.quire (hdrQuire h)).loadSegment p).1) := by
  have hquire : (s.taken h 0x20).quire (hdrQuire h) = s.quire (hdrQuire h) := s.taken_quires h 0x20 (hdrQuire h)
  refine State.serves_modQuire ht (hdrQuire h) (fun x => (x.loadSegment p).1) ((exec_loadSignature ht hcheck hwaits hblock).trans ?_) hocc
  rw [loadRun, hquire, hnow, if_neg Bool.false_ne_true, State.modQuire, show (s.taken h opLoadSignature.opcode).quire (hdrQuire h) = s.quire (hdrQuire h) from hquire]
  rfl

/-- A segment that completes an image elsewhere than in PARKED and STAGED. -/
theorem load_begins (ht : s.Takes opLoadSignature h p) (hcheck : loadCheck (s.quire (hdrQuire h)) p = none) (hwaits : s.loadWaits h.link = false) (hblock : (s.quire (hdrQuire h)).loadBlocked p = false)
    (hlater : (((s.quire (hdrQuire h)).loadSegment p).2 && !(s.quire (hdrQuire h)).state.writable) = true) :
    s.Begins (.loadSignature h p) h opLoadSignature (s.setQuire (hdrQuire h) (((s.quire (hdrQuire h)).loadSegment p).1.startCheck (par p 0 2) (hdrDest h 0x20))) := by
  have hquire : (s.taken h 0x20).quire (hdrQuire h) = s.quire (hdrQuire h) := s.taken_quires h 0x20 (hdrQuire h)
  refine State.begins_map (o := opLoadSignature) (by decide) (fun u => u.setQuire (hdrQuire h) (((s.quire (hdrQuire h)).loadSegment p).1.startCheck (par p 0 2) (hdrDest h 0x20)))
    ((exec_loadSignature ht hcheck hwaits hblock).trans ?_) (fun _ => rfl) rfl
  rw [loadRun, hquire, hlater, if_pos rfl, State.modQuire, State.quire_setQuire_same, State.setQuire_setQuire]
  rfl

end

/-! ### What a segment leaves of its quire -/

/-- The quire `z` once a segment for `x` is taken, with the state `S` of its signature. -/
structure Quire.Took (x : Quire) (p : Params) (S : SigState) (z : Quire) : Prop where
  frame : z = { x with
    state := z.state, sigs := z.sigs, sram := z.sram, dram := { x.dram with mem := z.dram.mem, poison := z.dram.poison, queue := z.dram.queue }, occupied := z.occupied, engines := z.engines
    derivation := z.derivation }
  state : z.state = if x.state = .parked then .staged else x.state
  sig : z.sig (par p 0 2) = S
  others : ∀ g', g' ≠ par p 0 2 → z.sig g' = x.sig g'
  mem : z.dram.mem = (x.loadStored p).dram.mem
  sram : z.sram = (x.loadStored p).sram

section
variable {x y : Quire} {p : Params} {S : SigState}

theorem Quire.Loaded.took (h : x.Loaded p S y) : x.Took p S y ∧ y.occupied = x.occupied ∧ y.derivation = x.derivation := by
  have hframe := h.frame
  have hsig : ∀ g, y.sig g = sget (fun _ => SigState.reset) g (sput (fun _ => SigState.reset) (par p 0 2) S x.sigs) := fun g => by rw [hframe]; rfl
  refine ⟨⟨?_, ?_, ?_, fun g' hg' => ?_, ?_, ?_⟩, ?_, ?_⟩
  · rw [hframe]
  · rw [hframe]
  · rw [hsig, sget_sput_same]
  · rw [hsig, sget_sput_other _ _ _ _ _ hg']
    rfl
  · rw [hframe]
  · rw [hframe]
  · rw [hframe]
  · rw [hframe]

theorem Quire.Took.startCheck (h : x.Took p S y) (d : ReplyTo) (hcontext : ∀ e, (y.engine e).context ≠ some (par p 0 2)) :
    x.Took p { S with checking := some d } (y.startCheck (par p 0 2) d) ∧ (∀ e, ((y.startCheck (par p 0 2) d).engine e).context ≠ some (par p 0 2)) ∧ (y.startCheck (par p 0 2) d).occupied = some (.loadCheck d)
      ∧ ∃ w, (y.startCheck (par p 0 2) d).derivation = some w ∧ w.staged = false ∧ w.failed = none
        ∧ w.todo = if (y.startCheck (par p 0 2) d).reloadBad (par p 0 2) ∨ (y.startCheck (par p 0 2) d).deriveItems (par p 0 2) = 0 then [] else [par p 0 2] := by
  obtain ⟨sigs, hsigs⟩ : ∃ m, (y.modSig (par p 0 2) fun s => { s with checking := some d }) = { y with sigs := m } := ⟨_, rfl⟩
  have hsig : ∀ g, Quire.sig { y with sigs := sigs } g = sget (fun _ => SigState.reset) g (sput (fun _ => SigState.reset) (par p 0 2) { y.sig (par p 0 2) with checking := some d } y.sigs) := fun g => by
    rw [← hsigs]
    rfl
  obtain ⟨l, hl⟩ : ∃ l, (if Quire.reloadBad { y with sigs := sigs } (par p 0 2) || Quire.deriveItems { y with sigs := sigs } (par p 0 2) = 0 then [] else [par p 0 2]) = l := ⟨_, rfl⟩
  have hstart : y.startCheck (par p 0 2) d = { y with
      sigs := sigs, engines := y.engines.map fun e => (e.1, e.2.forgets l.contains), occupied := some (.loadCheck d)
      derivation := some { sigs := l, todo := l, next := 0, staged := false, unasked := [], unwritten := [], made := [], failed := none } } := by
    unfold Quire.startCheck
    rw [hsigs]
    dsimp only
    rw [hl, Quire.startDerived, Quire.invalidate_eq]
  have hbad : Quire.reloadBad (y.startCheck (par p 0 2) d) (par p 0 2) = Quire.reloadBad { y with sigs := sigs } (par p 0 2) := by
    rw [hstart]
    exact Quire.reloadBad_unoccupied { y with sigs := sigs } _ _ _ _
  have hitems : Quire.deriveItems (y.startCheck (par p 0 2) d) (par p 0 2) = Quire.deriveItems { y with sigs := sigs } (par p 0 2) := by
    rw [hstart]
    rfl
  refine ⟨⟨?_, ?_, ?_, fun g' hg' => ?_, ?_, ?_⟩, fun e => ?_, ?_, ?_⟩
  · rw [hstart]
    generalize (y.engines.map fun e => (e.1, e.2.forgets l.contains)) = es
    exact congrArg (fun z : Quire => { z with sigs := sigs, engines := es, occupied := some (.loadCheck d)
                                              derivation := some { sigs := l, todo := l, next := 0, staged := false, unasked := [], unwritten := [], made := [], failed := none } }) h.frame
  · rw [hstart]
    exact h.state
  · rw [hstart]
    refine (hsig _).trans ?_
    rw [sget_sput_same, h.sig]
  · rw [hstart]
    refine (hsig _).trans ?_
    rw [sget_sput_other _ _ _ _ _ hg']
    exact h.others g' hg'
  · rw [hstart]
    exact h.mem
  · rw [hstart]
    exact h.sram
  · have hengine : (y.startCheck (par p 0 2) d).engine e = (y.engine e).forgets l.contains := by
      rw [← y.invalidate_engine, y.invalidate_eq, hstart]
      rfl
    rw [hengine]
    exact Engine.forgets_keeps _ _ _ (hcontext e)
  · rw [hstart]
  · rw [hbad, hitems]
    refine ⟨_, congrArg Quire.derivation hstart, rfl, rfl, ?_⟩
    show l = _
    rw [← hl]
    exact if_congr (by rw [Bool.or_eq_true, decide_eq_true_iff]) rfl rfl

end

/-! ### The load that a first segment begins -/

theorem Quire.nextLoad_first (x : Quire) {p : Params} (hfirst : (p.getD 2 0).getLsbD 0 = true) (hdata : 0 < (p.drop 24).length) :
    x.nextLoad p = { imageBytes := par p 8 8, got := [(par p 16 8, par p 16 8 + (p.drop 24).length)], lastSeen := (p.getD 2 0).getLsbD 1 } := by
  rw [segment_first, decide_eq_true_iff] at hfirst
  unfold Quire.nextLoad
  dsimp only
  rw [if_pos hfirst, if_neg (List.ne_nil_of_length_pos hdata), segment_last]
  rfl

/-- A first segment that holds the whole image. -/
theorem Quire.nextLoad_whole (x : Quire) {p : Params} (hfirst : (p.getD 2 0).getLsbD 0 = true) (hlast : (p.getD 2 0).getLsbD 1 = true) (hlen : (p.drop 24).length = par p 8 8) (hpos : 0 < par p 8 8) :
    (x.nextLoad p).whole = true ∧ (x.nextLoad p).imageBytes = par p 8 8 := by
  rw [x.nextLoad_first hfirst (by omega), hlast]
  refine ⟨decide_eq_true ?_, rfl⟩
  show ([(par p 16 8, par p 16 8 + (p.drop 24).length)].map fun x => x.2 - x.1).sum = par p 8 8
  simp only [List.map_cons, List.map_nil, List.sum_cons, List.sum_nil]
  omega

/-- Data that has a way into the channel, or needs none. -/
theorem Quire.loadBlocked_false {x : Quire} {p : Params} (h : x.shown.sigHome (par p 0 2) = 0 → p.drop 24 ≠ [] → x.dram.changing = none ∧ x.dram.full .hostLoad = false) : x.loadBlocked p = false := by
  unfold Quire.loadBlocked
  by_cases hhome : x.shown.sigHome (par p 0 2) = 0
  · by_cases hlen : 24 < p.length
    · obtain ⟨hc, hf⟩ := h hhome (List.ne_nil_of_length_pos (by rw [List.length_drop]; omega))
      rw [hc, hf]
      exact Bool.and_false _
    · rw [decide_eq_false hlen, Bool.and_false, Bool.false_and]
  · rw [decide_eq_false hhome, Bool.false_and, Bool.false_and]

theorem Quire.loadBlocked_true {x : Quire} {p : Params} (h : ¬(x.shown.sigHome (par p 0 2) = 0 → p.drop 24 ≠ [] → x.dram.changing = none ∧ x.dram.full .hostLoad = false)) : x.loadBlocked p = true := by
  simp only [Classical.not_imp, not_and, Bool.not_eq_false] at h
  obtain ⟨hhome, hdata, hfull⟩ := h
  have hlen : 24 < p.length := by
    have := List.length_pos_of_ne_nil hdata
    rw [List.length_drop] at this
    omega
  unfold Quire.loadBlocked
  rw [decide_eq_true hhome, decide_eq_true hlen, Bool.and_self, Bool.true_and, Bool.or_eq_true]
  cases hc : x.dram.changing with
  | some c => exact .inl rfl
  | none => exact .inr (hfull hc)

end Sys2Proof.Machine

end

section

/-! # LOAD_CHECK_DONE (R85 to R88, R186, R498) -/

namespace Sys2Proof.Machine

section
variable {s u : State} {q : QId} {d : ReplyTo}

theorem State.Within.trans {t : State} (h : s.Within u q) (h' : u.Within t q) : s.Within t q := by
  refine ⟨fun r hr => (h'.1 r hr).trans (h.1 r hr), ?_⟩
  have ht := h'.2
  rw [h.2] at ht
  exact ht

/-- The check of a reloaded signature ends: the command answers, and the signature stands as `buf` says. -/
theorem State.loadChecked_spec (hd : s.Owes d) (hin : s.Within u q) (g : Nat) (y : SigState) (buf : BufState) (st : Byte) :
    s.Replied (u.loadChecked q g d y buf st) d st 0 [] ∧ ((u.loadChecked q g d y buf st).quire q).occupied = none ∧ ((u.loadChecked q g d y buf st).quire q).derivation = none
      ∧ (((u.loadChecked q g d y buf st).quire q).sig g).buf = buf ∧ (((u.loadChecked q g d y buf st).quire q).sig g).checking = none := by
  obtain ⟨hwithin, -, hquire⟩ := u.onQuire_logs q (fun x => ({ x.setSig g { y with checking := none, buf := buf } with occupied := none } : Quire).w.endDerived) (W.endDerived_logs _)
  have hnone := ({ (u.quire q).setSig g { y with checking := none, buf := buf } with occupied := none } : Quire).w.endDerived_derivation
  obtain ⟨dv, sr, rd, en, dr, l, m, hshape⟩ := ({ (u.quire q).setSig g { y with checking := none, buf := buf } with occupied := none } : Quire).w.endDerived_shape
  rw [← hquire] at hnone hshape
  unfold State.loadChecked
  generalize (u.onQuire q fun x => ({ x.setSig g { y with checking := none, buf := buf } with occupied := none } : Quire).w.endDerived) = t at *
  have hsig : (t.quire q).sig g = { y with checking := none, buf := buf } := by
    rw [hshape]
    exact sget_sput_same ..
  rw [State.reply_quire, hsig]
  exact ⟨hd.within (hin.trans hwithin) _ _ _, by rw [hshape]; rfl, hnone, rfl, rfl⟩

end

section
variable {s : State} {q : QId} {d : ReplyTo} {g : Nat} (hocc : (s.quire q).occupied = some (.loadCheck d)) (hcheck : ((s.quire q).sig g).checking.isSome = true)
include hocc hcheck

/-- The class 2 items that were made for a signature. -/
def Quire.madeOf (x : Quire) (g : Nat) : Derived := match x.derivation with | some v => v.result (x.tableItems g) g | none => { table := [], head := none, chunks := [] }

theorem loadCheckDone_eq : loadCheckDone q g s =
    if (s.quire q).reloadBad g || ((s.quire q).derivation.bind (·.failed)).isSome then s.loadChecked q g d ((s.quire q).sig g) .stale stCollation
    else if !(s.quire q).derivedDone then s
    else
      if (match ((s.quire q).sig g).committedMw with | some a => decide (a < (s.quire q).annotation g ((s.quire q).madeOf g)) | none => false) then
        (s.modQuire q fun x => x.tablesWritten x [g] fun _ => ((s.quire q).madeOf g).table).loadChecked q g d ((s.quire q).withDerived g ((s.quire q).madeOf g) ((s.quire q).sig g)) .stale stBudget
      else (s.modQuire q fun x => x.tablesWritten x [g] fun _ => ((s.quire q).madeOf g).table).loadChecked q g d ((s.quire q).withDerived g ((s.quire q).madeOf g) ((s.quire q).sig g)) .loaded stOk := by
  obtain ⟨c, hc⟩ := Option.isSome_iff_exists.mp hcheck
  unfold loadCheckDone
  dsimp only
  split
  next d' c' ho _ =>
    obtain rfl : d = d' := Occupier.loadCheck.inj (Option.some.inj (hocc.symm.trans ho))
    refine if_congr Iff.rfl rfl (if_congr Iff.rfl rfl (if_congr (Eq.to_iff (congrArg (· = true) ?_)) rfl rfl))
    cases hmw : ((s.quire q).sig g).committedMw with
    | none =>
      simp only [Quire.withDerived, hmw]
    | some a =>
      simp only [Quire.withDerived, hmw]
      rfl
  next hno => exact absurd hc (hno d c hocc)

/-- The chip `t` once the check of a signature has ended. -/
def State.LoadChecked (s t : State) (q : QId) (g : Nat) (d : ReplyTo) (st : Byte) (buf : BufState) : Prop :=
  s.Replied t d st 0 [] ∧ (t.quire q).occupied = none ∧ (t.quire q).derivation = none ∧ ((t.quire q).sig g).buf = buf ∧ ((t.quire q).sig g).checking = none

theorem loadCheckDone_ends (howes : s.Owes d) :
    ((s.quire q).reloadBad g = true ∨ (∃ w i, (s.quire q).derivation = some w ∧ w.failed = some i) → s.LoadChecked (loadCheckDone q g s) q g d stCollation .stale)
    ∧ ((s.quire q).reloadBad g = false → ¬(∃ w i, (s.quire q).derivation = some w ∧ w.failed = some i) →
      ((s.quire q).derivedDone = false → loadCheckDone q g s = s)
      ∧ ((s.quire q).derivedDone = true → (∀ a, ((s.quire q).sig g).committedMw = some a → (s.quire q).annotation g ((s.quire q).madeOf g) ≤ a) → s.LoadChecked (loadCheckDone q g s) q g d stOk .loaded)
      ∧ ((s.quire q).derivedDone = true → (∀ a, ((s.quire q).sig g).committedMw = some a → a < (s.quire q).annotation g ((s.quire q).madeOf g)) → ((s.quire q).sig g).committedMw ≠ none →
          s.LoadChecked (loadCheckDone q g s) q g d stBudget .stale)) := by
  have hfailed : ((s.quire q).derivation.bind (·.failed)).isSome = true ↔ ∃ w i, (s.quire q).derivation = some w ∧ w.failed = some i := by
    rw [Option.isSome_iff_exists]
    simp only [Option.bind_eq_some_iff]
    exact ⟨fun ⟨i, w, hw, hi⟩ => ⟨w, i, hw, hi⟩, fun ⟨w, i, hw, hi⟩ => ⟨i, w, hw, hi⟩⟩
  have hmod : s.Within (s.modQuire q fun x => x.tablesWritten x [g] fun _ => ((s.quire q).madeOf g).table) q := ⟨fun r hr => State.quire_modQuire_other _ _ _ _ hr, rfl⟩
  have hself : s.Within s q := ⟨fun _ _ => rfl, rfl⟩
  rw [loadCheckDone_eq hocc hcheck]
  refine ⟨fun hbad => ?_, fun hgood hno => ⟨fun hdone => ?_, fun hdone hle => ?_, fun hdone hlt hsome => ?_⟩⟩
  · have hif : ((s.quire q).reloadBad g || ((s.quire q).derivation.bind (·.failed)).isSome) = true := by
      rw [Bool.or_eq_true, hfailed]
      exact hbad
    rw [if_pos hif]
    exact State.loadChecked_spec howes hself g _ .stale stCollation
  all_goals
    have hif : ¬((s.quire q).reloadBad g || ((s.quire q).derivation.bind (·.failed)).isSome) = true := by
      rw [Bool.or_eq_true, hfailed, hgood]
      exact fun h => h.elim Bool.false_ne_true hno
    rw [if_neg hif, hdone]
  · exact if_pos rfl
  · rw [Bool.not_true, if_neg Bool.false_ne_true, if_neg ?_]
    · exact State.loadChecked_spec howes hmod g _ .loaded stOk
    · cases hmw : ((s.quire q).sig g).committedMw with
      | none => exact Bool.false_ne_true
      | some a => exact fun h => absurd (of_decide_eq_true h) (Nat.not_lt.mpr (hle a hmw))
  · rw [Bool.not_true, if_neg Bool.false_ne_true, if_pos ?_]
    · exact State.loadChecked_spec howes hmod g _ .stale stBudget
    · cases hmw : ((s.quire q).sig g).committedMw with
      | none => exact absurd hmw hsome
      | some a => exact decide_eq_true (hlt a hmw)

end

end Sys2Proof.Machine

end

section

/-! # Streams, and signatures that are freed and queried (R80, R89, R90, R222, R546, R630 to R632) -/

namespace Sys2Proof.Machine

section
variable {s : State} {h : Hdr} {p : Params}

/-! ### Refusals -/

theorem State.refuse_booked (s : State) (h : Hdr) (op : Byte) (r : Refuse) (res : List Byte) (hrun : s.spine.restarting = false) (hdue : s.restartDue = false) : s.Booked (s.refuse h op r res) := by
  have hanswer : s.refuse h op r res = s.sendReply { dest := hdrDest h op, status := r.1, detail := r.2, result := res } := by
    rw [State.refuse, State.answer, hrun, hdue]
    exact if_neg Bool.false_ne_true
  have hwire : ∀ (t : State) (x : Reply), t.Booked (t.wire x) := fun t x => by
    have hcount : t.Booked (if 0x10 ≤ x.status.toNat then t.bump (rk 8 (0x110 + 0x20 * x.dest.link.val)) else t) := by
      split
      · exact t.bump_booked 1 (by simp only [rk]; omega) (by simp only [rk]; omega)
      · exact .refl t
    unfold State.wire
    extract_lets k v
    split
    · exact hcount.trans (State.booked_of v _ _ _ _ _ _ fun _ _ => rfl)
    · exact hcount
  rw [hanswer]
  exact (s.modSession_booked _ _).trans (hwire _ _)

/-- A packet that its command's own checks refuse is answered, and changes nothing but the books of packets. -/
theorem packet_refuses {o : OpSpec} {check : State → Option Refuse} {act : State → ReplyTo → State} {refused : State → Byte → List Byte} (ht : s.Takes o h p) (r : Refuse)
    (hc : check (s.freeBuffer h.link h.cls) = some r) : s.Booked (packet o h p s check act refused) ∧ s.Answers (packet o h p s check act refused) h o r.1 r.2 (refused (s.freeBuffer h.link h.cls) r.1) := by
  obtain ⟨hstop, hdue⟩ := State.interpreting_restarting s ht.1
  rw [packet_refused s o h p check act refused ht.2.1 ht.2.2.1 ((tagUse_freeBuffer s o h _ _).trans ht.2.2.2.1) r (refusal_check s o h p check r ht hc)]
  refine ⟨(s.freeBuffer_booked _ _).trans (State.refuse_booked _ h o.opcode r _ (by rw [State.freeBuffer_spine, hstop]) (by rw [State.freeBuffer_restartDue, hdue])), ?_⟩
  rw [State.Answers, State.refuse, State.answer_sent _ _ (by rw [State.freeBuffer_spine, hstop]) (by rw [State.freeBuffer_restartDue, hdue]) (by rw [State.freeBuffer_linkUp]; exact ht.2.1), State.freeBuffer_sent]

/-! ### STREAM_DATA (R546, R630 to R632) -/

/-- The quire with the packet that the window expects in its window. -/
def Quire.streamed (x : Quire) (p : Params) (i : Word × Nat) : Quire :=
  { x with heldStream := false, stream := x.stream ++ [{ sig := par p 0 2, inst := i.1, index := i.2, crc := parW p 8, data := p.drop 16 }] }

/-- A packet is taken into the window. -/
def streamRun (h : Hdr) (p : Params) (s : State) (d : ReplyTo) : State :=
  let s := s.modQuire (hdrQuire h) fun x => { x.takeStream p with heldStream := false }
  if h.flags &&& 1 = 1 then s.reply d stOk else s.silent d

/-- The result of a refusal. -/
def streamRefused (h : Hdr) (s : State) (st : Byte) : List Byte := if st = stMalformed ∨ st = stOwner then [] else (s.quire (hdrQuire h)).streamResult

theorem takeStream_eq (waited : Bool) (h : Hdr) (p : Params) (s : State) : takeStream waited h p s =
    if s.linkUp h.link && s.streamWaits h.link then s.hold (.streamData h p)
    else if s.linkUp h.link && streamFull { opStreamData with whileOccupied := waited } h p s then (s.onQuire (hdrQuire h) Quire.holdStream).hold (.streamData h p)
    else packet { opStreamData with whileOccupied := waited } h p s (fun s => streamCheck (s.quire (hdrQuire h)) p) (streamRun h p) (streamRefused h) := rfl

section
variable (ht : s.Takes opStreamData h p) (hheld : s.heldPackets = [])
include ht hheld

theorem exec_streamData : exec (.streamData h p) s = .next (if streamFull opStreamData h p s then (s.onQuire (hdrQuire h) Quire.holdStream).hold (.streamData h p)
    else packet opStreamData h p s (fun s => streamCheck (s.quire (hdrQuire h)) p) (streamRun h p) (streamRefused h)) := by
  have hfront : exec (.streamData h p) s = .next (takeStream false h p s) := congrArg Host.Outcome.next (front_taken s .streamData opStreamData h p doStreamData (by decide) ht)
  have hwaits : s.streamWaits h.link = false := by rw [State.streamWaits, hheld]; rfl
  rw [hfront, takeStream_eq, hwaits, ht.2.1, Bool.and_false, if_neg Bool.false_ne_true, Bool.true_and]
  rfl

omit hheld in
theorem streamFull_accepted (hcheck : streamCheck (s.quire (hdrQuire h)) p = none) :
    streamFull opStreamData h p s = decide ((s.quire (hdrQuire h)).windowSize < (s.quire (hdrQuire h)).windowBytes + (p.length - 16)) := by
  have haccepts : accepts opStreamData h p s (fun s => streamCheck (s.quire (hdrQuire h)) p) = true := ht.accepts hcheck
  rw [streamFull, haccepts]
  exact Bool.true_and _

/-- A packet that the window refuses. -/
theorem stream_refuses {r : Refuse} (hcheck : streamCheck (s.quire (hdrQuire h)) p = some r) :
    ∃ t, exec (.streamData h p) s = .next t ∧ s.Booked t ∧ s.Answers t h opStreamData r.1 r.2 (streamRefused h s r.1) := by
  have hfull : streamFull opStreamData h p s = false := by
    have hno : accepts opStreamData h p s (fun s => streamCheck (s.quire (hdrQuire h)) p) = false := accepts_refused ht hcheck
    rw [streamFull, hno]
    exact Bool.false_and _
  have hres : streamRefused h (s.freeBuffer h.link h.cls) r.1 = streamRefused h s r.1 := by rw [streamRefused, State.freeBuffer_quire, streamRefused]
  obtain ⟨hbooked, hanswers⟩ := packet_refuses (act := streamRun h p) (refused := streamRefused h) (check := fun s => streamCheck (s.quire (hdrQuire h)) p) ht r (by
    rw [State.freeBuffer_quire]
    exact hcheck)
  rw [hres] at hanswers
  refine ⟨_, ?_, hbooked, hanswers⟩
  rw [exec_streamData ht hheld, hfull, if_neg Bool.false_ne_true]

/-- A packet that the window takes. -/
theorem stream_taken {g : Nat} {i : Word × Nat} (hexp : (s.quire (hdrQuire h)).streamExpected = some (g, i)) (hg : g = par p 0 2) (hcheck : streamCheck (s.quire (hdrQuire h)) p = none)
    (hfits : (s.quire (hdrQuire h)).windowBytes + (p.length - 16) ≤ (s.quire (hdrQuire h)).windowSize) :
    (h.flags &&& 1 = 1 → s.Serves (.streamData h p) h opStreamData [] (s.setQuire (hdrQuire h) ((s.quire (hdrQuire h)).streamed p i)))
    ∧ (h.flags &&& 1 ≠ 1 → ∃ t, exec (.streamData h p) s = .next t ∧ t.sent = s.sent ∧ (s.setQuire (hdrQuire h) ((s.quire (hdrQuire h)).streamed p i)).Booked t) := by
  have hquire : (s.taken h 0x21).quire (hdrQuire h) = s.quire (hdrQuire h) := s.taken_quires h 0x21 (hdrQuire h)
  have hfull : streamFull opStreamData h p s = false := by
    rw [streamFull_accepted ht hcheck]
    exact decide_eq_false (by omega)
  have hexec : exec (.streamData h p) s = .next (streamRun h p (s.taken h 0x21) (hdrDest h 0x21)) := by
    rw [exec_streamData ht hheld, hfull, if_neg Bool.false_ne_true]
    exact congrArg Host.Outcome.next (packet_taken s opStreamData h p _ _ _ ht (by rw [State.freeBuffer_quire]; exact hcheck))
  have htake : ({ (s.quire (hdrQuire h)).takeStream p with heldStream := false } : Quire) = (s.quire (hdrQuire h)).streamed p i := by
    unfold Quire.takeStream
    rw [hexp, hg]
    rfl
  have hmod : (s.taken h 0x21).modQuire (hdrQuire h) (fun x => { x.takeStream p with heldStream := false }) = (s.taken h 0x21).setQuire (hdrQuire h) ((s.quire (hdrQuire h)).streamed p i) := by
    rw [State.modQuire, hquire, htake]
  rw [streamRun, hmod] at hexec
  refine ⟨fun hflag => ?_, fun hflag => ?_⟩
  · rw [if_pos hflag] at hexec
    refine State.serves_map (o := opStreamData) ht (fun u => u.setQuire (hdrQuire h) ((s.quire (hdrQuire h)).streamed p i)) hexec (fun _ => rfl) rfl rfl fun r => ?_
    rcases eq_or_ne r (hdrQuire h) with rfl | hr
    · rw [State.quire_setQuire_same]
      rfl
    · rw [State.quire_setQuire_other _ _ _ _ hr]
  · rw [if_neg hflag] at hexec
    refine ⟨_, hexec, ht.due.sent, ?_⟩
    exact ((s.taken_booked h 0x21).map (fun u => u.setQuire (hdrQuire h) ((s.quire (hdrQuire h)).streamed p i)) (fun _ => rfl) rfl).trans (State.modSession_booked _ _ _)

/-- A packet that meets a full window waits in the link buffer. -/
theorem stream_waits (hcheck : streamCheck (s.quire (hdrQuire h)) p = none) (hfull : ¬(s.quire (hdrQuire h)).windowBytes + (p.length - 16) ≤ (s.quire (hdrQuire h)).windowSize) :
    ∃ u, exec (.streamData h p) s = .next { u with heldPackets := [.streamData h p] } ∧ s.Within u (hdrQuire h) ∧ ({ s.quire (hdrQuire h) with heldStream := true } : Quire).Counts (u.quire (hdrQuire h))
      ∧ ((s.quire (hdrQuire h)).heldStream = false → s.CountsOne (hdrQuire h) (rk 0x10 0x12C) u) := by
  have hif : streamFull opStreamData h p s = true := by
    rw [streamFull_accepted ht hcheck]
    exact decide_eq_true (by omega)
  have hquiet : (s.quire (hdrQuire h)).holdStream.Quiet ∧ ({ s.quire (hdrQuire h) with heldStream := true } : Quire).Counts (s.quire (hdrQuire h)).holdStream.q
      ∧ ((s.quire (hdrQuire h)).heldStream = false → (s.quire (hdrQuire h)).holdStream = ({ s.quire (hdrQuire h) with heldStream := true } : Quire).w.bump (rk 0x10 0x12C)) := by
    generalize s.quire (hdrQuire h) = x
    unfold Quire.holdStream
    cases hx : x.heldStream with
    | true =>
      have heq : ({ x with heldStream := true } : Quire) = x := by rw [← hx]
      rw [if_pos rfl]
      exact ⟨x.w_quiet, by rw [heq]; rfl, nofun⟩
    | false =>
      rw [if_neg Bool.false_ne_true]
      exact ⟨Quire.bump_quiet _ _ _, Quire.bump_counts _ _ _, fun _ => rfl⟩
  obtain ⟨hq, hcounts, hbump⟩ := hquiet
  obtain ⟨hwithin, hquire⟩ := s.onQuire_within (hdrQuire h) Quire.holdStream hq
  refine ⟨s.onQuire (hdrQuire h) Quire.holdStream, ?_, hwithin, by rw [hquire]; exact hcounts, fun hfree => ?_⟩
  · have hkept : (s.onQuire (hdrQuire h) Quire.holdStream).heldPackets = [] := by
      rw [hwithin.2]
      exact hheld
    rw [exec_streamData ht hheld, hif, if_pos rfl, State.hold, hkept]
    rfl
  · exact s.countsOne_bump (y := { s.quire (hdrQuire h) with heldStream := true }) rfl (by rw [hquire, hbump hfree])

end

end

/-- The checks of a packet that the window expects. -/
theorem streamCheck_expected {x : Quire} {p : Params} (hg : par p 0 2 < 1024) (hstate : streamStates x.state = true) (hvalid : x.sigValid (par p 0 2) = true) (hhome : x.sigHome (par p 0 2) = 2) {g i : Nat} {inst : Word}
    (hexp : x.streamExpected = some (g, inst, i)) : streamCheck x p =
      if g ≠ par p 0 2 ∨ i ≠ par p 4 4 then some (stState, detState reasonOrder x.state) else if x.windowSize < p.length - 16 then some (stNoResource, 0) else none := by
  unfold streamCheck
  dsimp only
  rw [if_neg (by omega), hstate, hvalid, if_neg (by decide), if_neg (by decide), if_neg (not_not_intro hhome), hexp]

theorem Quire.streamResult_expected {x : Quire} {g i : Nat} {inst : Word} (hexp : x.streamExpected = some (g, inst, i)) : x.streamResult = le 2 g ++ le 2 0 ++ le 4 i := by
  unfold Quire.streamResult
  rw [hexp]

/-! ### FREE_SIGNATURE and QUERY_SIGNATURE (R80, R89, R90) -/

theorem Quire.freeSig_spec (x : Quire) (g : Nat) : x.freeSig g = { x with sigs := (x.freeSig g).sigs } ∧ (∀ g', g' ≠ g → (x.freeSig g).sig g' = x.sig g')
    ∧ (x.freeSig g).sig g = if x.refs g = 0 then (x.sig g).emptied else { x.sig g with buf := .freeDeferred, load := none } :=
  ⟨rfl, fun _ hg' => sget_sput_other _ _ _ _ _ hg', sget_sput_same ..⟩

theorem parkedToStopped_of {st : QState} (hoff : st ≠ .off) (hfault : st ≠ .faulted) : parkedToStopped st = true := by
  cases st with
  | off => exact absurd rfl hoff
  | faulted => exact absurd rfl hfault
  | _ => rfl

theorem writable_iff {st : QState} : st.writable = true ↔ st = .parked ∨ st = .staged := by
  cases st <;> decide

section
variable {s : State} {h : Hdr} {p : Params}

/-- The quire of a command that occupied quires refuse is not occupied. -/
theorem State.Takes.unoccupied {o : OpSpec} (ht : s.Takes o h p) (hone : h.qmask = BitVec.ofNat 8 (2 ^ (hdrQuire h).val)) (ho : o.whileOccupied = false) : (s.quire (hdrQuire h)).occupied = none := by
  obtain ⟨-, -, -, -, -, -, -, -, -, hocc, -⟩ := ht
  rcases hocc with hwhile | hall
  · exact absurd (ho.symm.trans hwhile) (by decide)
  · exact hall _ (by rw [hone, quiresOf_one]; exact List.mem_singleton_self _)

/-- FREE_SIGNATURE is carried out. -/
def freeRun (h : Hdr) (p : Params) (s : State) (d : ReplyTo) : State :=
  (s.modQuire (hdrQuire h) fun x => x.freeSig (par p 0 2)).reply d (if (s.quire (hdrQuire h)).refs (par p 0 2) ≠ 0 then stDeferred else stOk)

theorem exec_freeSignature (ht : s.Takes opFreeSignature h p) (hg : par p 0 2 < 1024) (hstate : parkedToStopped (s.quire (hdrQuire h)).state = true) :
    exec (.freeSignature h p) s = .next (((s.taken h opFreeSignature.opcode).modQuire (hdrQuire h) fun x => x.freeSig (par p 0 2)).reply (hdrDest h opFreeSignature.opcode)
      (if (s.quire (hdrQuire h)).refs (par p 0 2) ≠ 0 then stDeferred else stOk)) := by
  have hrun : doFreeSignature h p s = packet opFreeSignature h p s (fun s => if 1023 < par p 0 2 then rangeAt 0 else inStates s (hdrQuire h) parkedToStopped) (freeRun h p) := rfl
  have hcheck : (if 1023 < par p 0 2 then rangeAt 0 else inStates (s.freeBuffer h.link h.cls) (hdrQuire h) parkedToStopped) = none := by
    rw [if_neg (by omega), inStates, State.freeBuffer_quire, if_pos hstate]
  have hquire : (s.taken h opFreeSignature.opcode).quire (hdrQuire h) = s.quire (hdrQuire h) := s.taken_quires h _ _
  rw [exec_command (i := .freeSignature h p) (o := opFreeSignature) (row := .freeSignature) (run := doFreeSignature) rfl hrun (by decide) ht hcheck, freeRun, hquire]

theorem exec_querySignature (ht : s.Takes opQuerySignature h p) (hg : par p 0 2 < 1024) (hstate : (s.quire (hdrQuire h)).state ≠ .off) :
    s.Serves (.querySignature h p) h opQuerySignature ((s.quire (hdrQuire h)).queryResult (par p 0 2)) s := by
  have hrun : doQuerySignature h p s = packet opQuerySignature h p s (fun s => if 1023 < par p 0 2 then rangeAt 0 else inStates s (hdrQuire h) notOff)
      fun s d => s.reply d stOk 0 ((s.quire (hdrQuire h)).queryResult (par p 0 2)) := rfl
  have hcheck : (if 1023 < par p 0 2 then rangeAt 0 else inStates (s.freeBuffer h.link h.cls) (hdrQuire h) notOff) = none := by
    rw [if_neg (by omega), inStates, State.freeBuffer_quire]
    exact if_pos (decide_eq_true hstate)
  have hexec := exec_command (i := .querySignature h p) (o := opQuerySignature) (row := .querySignature) (run := doQuerySignature) rfl hrun (by decide) ht hcheck
  have hquire : (s.taken h opQuerySignature.opcode).quire (hdrQuire h) = s.quire (hdrQuire h) := s.taken_quires h _ _
  rw [hquire] at hexec
  exact State.serves_map ht (fun u => u) hexec (fun _ => rfl) rfl rfl fun _ => rfl

end

theorem Quire.queryResult_bytes (x : Quire) (g : Nat) : x.queryResult g =
    le 4 (2 ^ 16 * x.refs g + 2 ^ 8 * (if x.shown.sigHome g = 2 then 0 else bufCode (x.sig g).buf) + 8 * b2n (x.sig g).headReady + 4 * b2n (x.sig g).poisoned + 2 * b2n (x.sig g).underrun + b2n (x.refs g ≠ 0))
      ++ leW (x.shown.cfg 0x03 (16 * g)) ++ leW (x.shown.cfg 0x03 (16 * g + 4)) ++ le 4 ((x.sig g).annotation.getD 0) ++ le 4 (if x.shown.sigKind g = 1 then (x.sig g).ratioX100 else 0)
      ++ le 8 (match (x.sig g).load with | some l => (l.got.map fun r => r.2 - r.1).sum | none => 0) := by
  have hstatus : leW (x.sigStatus g) = le 4 (2 ^ 16 * x.refs g + 2 ^ 8 * (if x.shown.sigHome g = 2 then 0 else bufCode (x.sig g).buf) + 8 * b2n (x.sig g).headReady + 4 * b2n (x.sig g).poisoned
      + 2 * b2n (x.sig g).underrun + b2n (x.refs g ≠ 0)) := by
    rw [Quire.sigStatus, packW, leW_ofNat]
    simp only [List.foldl_cons, List.foldl_nil, Nat.zero_add, Nat.pow_zero, Nat.one_mul]
    rfl
  unfold Quire.queryResult
  dsimp only
  rw [hstatus]
  cases (x.sig g).load <;> rfl

end Sys2Proof.Machine

namespace Sys2Proof.Proofs
open Sys2Proof.Machine

/-- Settles O36: segments of a load, the check of a reloaded signature, packets of a stream, and signatures that are freed and queried. -/
theorem signatures : Obligations.Signatures := by
  unfold Obligations.Signatures
  intro s h p q d c x g v first isLast bytes off data at_ space stored writable accepted room only dropped failed r checked fits took
  refine ⟨fun hone => ?_, fun hocc hcheck howes => ?_⟩
  · obtain rfl := hdrQuire_one hone
    have hcheck : accepted → loadCheck x p = none := fun ⟨hg, hv, hh, hsp, hal, hby, hseg, hoff, hfault, hload, hwr⟩ => loadCheck_none hg hv hh hsp hal hby hseg hoff hfault hload hwr
    refine ⟨fun ht hacc hroom => ⟨fun hf hl ho hn hp hw => ?_, fun hf hl hp => ?_, fun hf hl ho hn hp hw => ?_⟩, fun ht hacc hroom => ?_, fun ht hheld hg hstate hvalid hhome => ⟨fun inst i hexp hi => ⟨fun hfits => ?_, fun hfull hle => ?_, fun hlt => ?_⟩, fun g' inst i hexp hne => ?_⟩,
      fun ht hg hoff hfault => ⟨fun hrefs => ?_, fun hrefs => ?_⟩, fun ht hg hoff => ?_⟩
    · have hnow : x.state.writable = true := writable_iff.mpr hw
      obtain ⟨hwhole, hbytes⟩ := x.nextLoad_whole hf hl hn hp
      obtain ⟨y, hseg, hloaded, hdropped⟩ := x.loadSegment_whole p hwhole hacc.1
      rw [hbytes, if_pos hnow] at hloaded
      obtain ⟨htook, hocc, hder⟩ := hloaded.took
      have hserves := load_serves ht (hcheck hacc) hroom.1 (Quire.loadBlocked_false hroom.2) (by rw [hnow]; exact Bool.and_false _) ((congrArg (fun r => r.1.occupied) hseg).trans hocc)
      rw [hseg] at hserves
      have hfree : x.occupied = none := ht.unoccupied hone rfl
      exact ⟨y, hserves, x.loadStored_space p y htook.mem htook.sram, ⟨htook.others, htook.state, htook.frame⟩, hdropped, hocc.trans hfree, hder, congrArg SigState.buf htook.sig, congrArg SigState.load htook.sig,
        congrArg SigState.imageBytes htook.sig, congrArg SigState.poisoned htook.sig, congrArg SigState.damaged htook.sig⟩
    · have hfirst := x.nextLoad_first hf hp
      rw [show (p.getD 2 0).getLsbD 1 = false from hl] at hfirst
      obtain ⟨y, hseg, hloaded, hengines⟩ := x.loadSegment_open p (by rw [hfirst]; rfl)
      rw [hfirst] at hloaded
      obtain ⟨htook, hocc, hder⟩ := hloaded.took
      have hserves := load_serves ht (hcheck hacc) hroom.1 (Quire.loadBlocked_false hroom.2) (by rw [hseg]; rfl) ((congrArg (fun r => r.1.occupied) hseg).trans hocc)
      rw [hseg] at hserves
      have hfree : x.occupied = none := ht.unoccupied hone rfl
      exact ⟨y, hserves, x.loadStored_space p y htook.mem htook.sram, ⟨htook.others, htook.state, htook.frame⟩, hocc.trans hfree, hengines, hder, congrArg SigState.buf htook.sig, congrArg SigState.load htook.sig⟩
    · have hlater : x.state.writable = false := Bool.eq_false_iff.mpr fun h => hw (writable_iff.mp h)
      obtain ⟨hwhole, hbytes⟩ := x.nextLoad_whole hf hl hn hp
      obtain ⟨y, hseg, hloaded, hdropped⟩ := x.loadSegment_whole p hwhole hacc.1
      rw [hbytes, hlater, if_neg Bool.false_ne_true] at hloaded
      obtain ⟨htook, hcontext, hocc, hder⟩ := hloaded.took.1.startCheck (hdrDest h 0x20) hdropped
      have hbegins := load_begins ht (hcheck hacc) hroom.1 (Quire.loadBlocked_false hroom.2) (by rw [hseg, hlater]; rfl)
      rw [hseg] at hbegins
      exact ⟨y.startCheck g (hdrDest h 0x20), hbegins, x.loadStored_space p _ htook.mem htook.sram, ⟨htook.others, htook.state, htook.frame⟩, hcontext, hder, hocc, congrArg SigState.buf htook.sig, congrArg SigState.checking htook.sig⟩
    · refine exec_loadSignature_waits ht (hcheck hacc) ?_
      by_cases hwaits : s.loadWaits h.link = true
      · exact .inl hwaits
      · exact .inr (Quire.loadBlocked_true fun hfree => hroom ⟨Bool.eq_false_iff.mpr hwaits, hfree⟩)
    · have hcheck : streamCheck x p = none := by
        rw [streamCheck_expected hg hstate hvalid hhome hexp, if_neg (not_or.mpr ⟨not_not_intro rfl, not_not_intro hi⟩), if_neg (by omega)]
      exact stream_taken ht hheld hexp rfl hcheck hfits
    · have hcheck : streamCheck x p = none := by
        rw [streamCheck_expected hg hstate hvalid hhome hexp, if_neg (not_or.mpr ⟨not_not_intro rfl, not_not_intro hi⟩), if_neg (by omega)]
      exact stream_waits ht hheld hcheck hfull
    · have hcheck : streamCheck x p = some (stNoResource, 0) := by
        rw [streamCheck_expected hg hstate hvalid hhome hexp, if_neg (not_or.mpr ⟨not_not_intro rfl, not_not_intro hi⟩), if_pos hlt]
      obtain ⟨t, hexec, hbooked, hanswers⟩ := stream_refuses ht hheld hcheck
      rw [streamRefused, if_neg (by decide), Quire.streamResult_expected hexp] at hanswers
      exact ⟨t, hexec, hbooked, hanswers⟩
    · have hcheck : streamCheck x p = some (stState, detState reasonOrder x.state) := by
        rw [streamCheck_expected hg hstate hvalid hhome hexp, if_pos hne]
      obtain ⟨t, hexec, hbooked, hanswers⟩ := stream_refuses ht hheld hcheck
      rw [streamRefused, if_neg (show ¬(stState = stMalformed ∨ stState = stOwner) by decide), Quire.streamResult_expected hexp] at hanswers
      exact ⟨t, hexec, hbooked, hanswers⟩
    · have hexec := exec_freeSignature ht hg (parkedToStopped_of hoff hfault)
      rw [if_neg (not_not_intro hrefs)] at hexec
      obtain ⟨hframe, hothers, hsig⟩ := x.freeSig_spec g
      rw [if_pos hrefs] at hsig
      exact ⟨x.freeSig g, State.serves_modQuire ht (hdrQuire h) (fun x => x.freeSig g) hexec rfl, congrArg SigState.buf hsig, congrArg SigState.imageBytes hsig, congrArg SigState.load hsig, hothers, hframe⟩
    · have hexec := exec_freeSignature ht hg (parkedToStopped_of hoff hfault)
      rw [if_pos hrefs] at hexec
      obtain ⟨hframe, hothers, hsig⟩ := x.freeSig_spec g
      rw [if_neg hrefs] at hsig
      obtain ⟨t, hnext, hanswers, hbooked⟩ := State.answers_modQuire ht (by decide) (hdrQuire h) (fun x => x.freeSig g) hexec rfl
      exact ⟨t, x.freeSig g, hnext, hanswers, hbooked, hsig, hothers, hframe⟩
    · have hserves := exec_querySignature ht hg hoff
      rw [Quire.queryResult_bytes] at hserves
      exact hserves
  · obtain ⟨hbad, hgood⟩ := loadCheckDone_ends (g := c.val) hocc hcheck howes
    refine ⟨fun hf => ⟨_, rfl, hbad hf⟩, fun hb hn => ?_⟩
    obtain ⟨hwait, hok, hbudget⟩ := hgood hb hn
    exact ⟨fun hdone => congrArg Host.Outcome.next (hwait hdone), fun hdone hle => ⟨_, rfl, hok hdone hle⟩, fun hdone hlt hsome => ⟨_, rfl, hbudget hdone hlt hsome⟩⟩

end Sys2Proof.Proofs

end

section

/-! # Telemetry of the rails (R723 to R725, R729 to R734) -/

namespace Sys2Proof.Machine

/-! ### Transactions on the bus -/

/-- The chip `t` after transactions of the master: `n` tries of which `e` failed, the frames `cs` by their rails and codes, and the reports `rs`. -/
structure State.Talked (s t : State) (n e : Nat) (cs : List (Nat × Byte)) (rs : List Report) : Prop where
  frame : t = { s with regs := t.regs, log := t.log, collector := { s.collector with reports := t.collector.reports, satPages := t.collector.satPages }
                       gov := { s.gov with bus := t.gov.bus, rails := t.gov.rails, vcoreUnreachable := t.gov.vcoreUnreachable, vcoreMeas := t.gov.vcoreMeas } }
  bus : ∃ fs, t.gov.bus = s.gov.bus ++ fs ∧ fs.map (fun f => (f.rail, f.code)) = cs ∧ ∀ f ∈ fs, f.addr = (s.rail f.rail).addr ∧ f.kHz = s.pmKhz
  length : t.gov.rails.length = s.gov.rails.length
  rails : ∀ i, (t.rail i).present = (s.rail i).present ∧ (t.rail i).addr = (s.rail i).addr
  tries : Counted n (s.reg (rk 10 0x300)) (t.reg (rk 10 0x300))
  errors : Counted e (s.reg (rk 10 0x304)) (t.reg (rk 10 0x304))
  regs : ∀ k, k ≠ rk 10 0x300 → k ≠ rk 10 0x304 → t.reg k = s.reg k
  reports : t.collector.reports = s.collector.reports ++ rs

section
variable {s t u : State} {n e n' e' : Nat} {cs cs' : List (Nat × Byte)} {rs rs' : List Report}

theorem State.Talked.refl (s : State) : s.Talked s 0 0 [] [] :=
  ⟨rfl, ⟨[], (List.append_nil _).symm, rfl, nofun⟩, rfl, fun _ => ⟨rfl, rfl⟩, .refl _, .refl _, fun _ _ _ => rfl, (List.append_nil _).symm⟩

theorem State.Talked.khz (h : s.Talked t n e cs rs) : t.pmKhz = s.pmKhz := by
  rw [State.pmKhz, h.regs _ (by decide) (by decide), State.pmKhz]

theorem State.Talked.trans (h : s.Talked t n e cs rs) (h' : t.Talked u n' e' cs' rs') : s.Talked u (n + n') (e + e') (cs ++ cs') (rs ++ rs') where
  frame := by
    have hu := h'.frame
    rw [h.frame] at hu
    exact hu
  bus := by
    obtain ⟨fs, hbus, hcodes, hall⟩ := h.bus
    obtain ⟨fs', hbus', hcodes', hall'⟩ := h'.bus
    refine ⟨fs ++ fs', by rw [hbus', hbus, List.append_assoc], by rw [List.map_append, hcodes, hcodes'], fun f hf => ?_⟩
    rcases List.mem_append.mp hf with hf | hf
    · exact hall f hf
    · rw [← (h.rails f.rail).2, ← h.khz]
      exact hall' f hf
  length := h'.length.trans h.length
  rails i := ⟨(h'.rails i).1.trans (h.rails i).1, (h'.rails i).2.trans (h.rails i).2⟩
  tries := h.tries.trans h'.tries
  errors := h.errors.trans h'.errors
  regs k h1 h2 := (h'.regs k h1 h2).trans (h.regs k h1 h2)
  reports := by rw [h'.reports, h.reports, List.append_assoc]

/-- What transactions leave of the rest of the chip. -/
theorem State.Talked.keeps (h : s.Talked t n e cs rs) : t.quires = s.quires ∧ t.sent = s.sent ∧ t.boot = s.boot ∧ t.time = s.time ∧ t.sessions = s.sessions ∧ t.gov.setpoints = s.gov.setpoints := by
  rw [h.frame]
  exact ⟨rfl, rfl, rfl, rfl, rfl, rfl⟩

theorem State.Talked.presentRails (h : s.Talked t n e cs rs) : t.presentRails = s.presentRails :=
  List.filter_congr fun i _ => (h.rails i).1

/-- `VCORE_UNREACHABLE` stands as rail 0 does. -/
def State.Shown (s : State) : Prop := s.gov.vcoreUnreachable = decide ((s.rail 0).state = .unreachable)

/-- A rail after a transaction of whose tries the first `fails` fail. -/
def RailView.tried (v : RailView) (fails : Nat) : RailView := { v with state := if 4 ≤ fails then .unreachable else if v.state = .unreachable then .ok else v.state }

/-- Transactions on rail `i`, which leave it as `v`. -/
structure State.OnRail (i : Nat) (s t : State) (n e : Nat) (cs : List Byte) (rs : List Report) (v : RailView) : Prop where
  talked : s.Talked t n e (cs.map fun c => (i, c)) rs
  here : t.rail i = v
  other : ∀ j, j ≠ i → t.rail j = s.rail j

theorem State.OnRail.trans {i : Nat} {cs cs' : List Byte} {v v' : RailView} (h : State.OnRail i s t n e cs rs v) (h' : State.OnRail i t u n' e' cs' rs' v') :
    State.OnRail i s u (n + n') (e + e') (cs ++ cs') (rs ++ rs') v' where
  talked := by
    rw [List.map_append]
    exact h.talked.trans h'.talked
  here := h'.here
  other j hj := (h'.other j hj).trans (h.other j hj)

end

/-- A change of a rail that leaves its place on the bus. -/
theorem State.modRail_onRail (s : State) {i : Nat} (hi : i < s.gov.rails.length) (f : RailView → RailView) (hf : (f (s.rail i)).present = (s.rail i).present ∧ (f (s.rail i)).addr = (s.rail i).addr) :
    State.OnRail i s (s.modRail i f) 0 0 [] [] (f (s.rail i)) := by
  have here : (s.modRail i f).rail i = f (s.rail i) := getD_lmod_same hi f .reset
  have hother : ∀ j, j ≠ i → (s.modRail i f).rail j = s.rail j := fun j hj => getD_lmod_other (fun h => hj h.symm) f .reset
  refine ⟨⟨rfl, ⟨[], (List.append_nil _).symm, rfl, nofun⟩, ?_, fun j => ?_, .refl _, .refl _, fun _ _ _ => rfl, (List.append_nil _).symm⟩, here, hother⟩
  · show (lmod s.gov.rails i f).length = _
    unfold lmod
    split
    · exact List.length_set
    · rfl
  · rcases eq_or_ne j i with rfl | hj
    · rw [here]
      exact hf
    · rw [hother j hj]
      exact ⟨rfl, rfl⟩

/-- The counts of a transaction. -/
def State.pmCounted (s : State) (fails : Nat) : State :=
  if fails = 0 then s.bump (rk 10 0x300) (min 4 (fails + 1)) else (s.bump (rk 10 0x300) (min 4 (fails + 1))).bump (rk 10 0x304) (min 4 fails)

theorem State.pmCounted_shape (s : State) (fails : Nat) : (∃ r l c, s.pmCounted fails = { s with regs := r, log := l, collector := { s.collector with satPages := c } })
    ∧ Counted (min 4 (fails + 1)) (s.reg (rk 10 0x300)) ((s.pmCounted fails).reg (rk 10 0x300)) ∧ Counted (min 4 fails) (s.reg (rk 10 0x304)) ((s.pmCounted fails).reg (rk 10 0x304))
    ∧ ∀ k, k ≠ rk 10 0x300 → k ≠ rk 10 0x304 → (s.pmCounted fails).reg k = s.reg k := by
  have hcount := s.bump_counted (rk 10 0x300) (min 4 (fails + 1))
  have hother : ∀ k, k ≠ rk 10 0x300 → (s.bump (rk 10 0x300) (min 4 (fails + 1))).reg k = s.reg k := fun k hk => s.bump_reg_other _ _ hk
  obtain ⟨l, c, hshape⟩ := s.bump_shape (rk 10 0x300) (min 4 (fails + 1))
  unfold State.pmCounted
  split
  next h0 =>
    refine ⟨⟨_, l, c, hshape⟩, hcount, ?_, fun k hk _ => hother k hk⟩
    rw [hother _ (by decide), h0]
    exact .refl _
  · generalize s.bump (rk 10 0x300) (min 4 (fails + 1)) = u at *
    have hcount' := u.bump_counted (rk 10 0x304) (min 4 fails)
    have hother' : ∀ k, k ≠ rk 10 0x304 → (u.bump (rk 10 0x304) (min 4 fails)).reg k = u.reg k := fun k hk => u.bump_reg_other _ _ hk
    obtain ⟨l', c', hshape'⟩ := u.bump_shape (rk 10 0x304) (min 4 fails)
    generalize u.bump (rk 10 0x304) (min 4 fails) = v at *
    refine ⟨⟨v.regs, l', c', ?_⟩, ?_, ?_, fun k h1 h2 => (hother' k h2).trans (hother k h1)⟩
    · have hregs : v.regs = v.regs := rfl
      rw [hshape'] at hregs ⊢
      rw [hshape]
    · rw [hother' _ (by decide)]
      exact hcount
    · rw [← hother _ (by decide)]
      exact hcount'

/-- One transaction on a rail. -/
theorem State.pmSend_onRail (s : State) {i : Nat} (hi : i < s.gov.rails.length) (code : Byte) (reads : Bool) (data : List Byte) (fails : Nat) :
    State.OnRail i s (s.pmSend i code reads data fails) (min 4 (fails + 1)) (min 4 fails) [code] [] ((s.rail i).tried fails) ∧ (s.pmSend i code reads data fails).Shown := by
  obtain ⟨f, hf, hsend⟩ : ∃ f : PmFrame, (f.rail = i ∧ f.code = code ∧ f.addr = (s.rail i).addr ∧ f.kHz = s.pmKhz) ∧ s.pmSend i code reads data fails =
      ((({ s with gov := { s.gov with bus := s.gov.bus ++ [f] } } : State).pmCounted fails).modRail i fun v => v.tried fails).vcoreReach := ⟨_, ⟨rfl, rfl, rfl, rfl⟩, rfl⟩
  obtain ⟨⟨r, l, c, hshape⟩, htries, herrors, hregs⟩ := State.pmCounted_shape { s with gov := { s.gov with bus := s.gov.bus ++ [f] } } fails
  generalize State.pmCounted { s with gov := { s.gov with bus := s.gov.bus ++ [f] } } fails = u at *
  have hrails : u.gov.rails = s.gov.rails := by rw [hshape]
  obtain ⟨hmod, here, hother⟩ := u.modRail_onRail (hrails ▸ hi) (fun v => v.tried fails) ⟨rfl, rfl⟩
  have hrail : ∀ j, u.rail j = s.rail j := fun j => by rw [State.rail, hrails, State.rail]
  rw [hsend]
  refine ⟨⟨⟨?_, ⟨[f], ?_, ?_, fun g hg => ?_⟩, ?_, fun j => ?_, htries, herrors, hregs, ?_⟩, ?_, fun j hj => ?_⟩, rfl⟩
  · rw [hshape]
    rfl
  · rw [hshape]
    rfl
  · rw [List.map_singleton, List.map_singleton, hf.1, hf.2.1]
  · obtain rfl := List.mem_singleton.mp hg
    rw [hf.1]
    exact hf.2.2
  · exact hmod.length.trans (congrArg List.length hrails)
  · rw [← hrail j]
    exact hmod.rails j
  · rw [hshape]
    exact (List.append_nil _).symm
  · rw [← hrail i]
    exact here
  · rw [← hrail j]
    exact hother j hj

/-! ### Reads of a rail -/

/-- No setpoint is due. -/
def State.RailsSettled (s : State) : Prop := s.boot.step < 7 ∨ ∀ i ∈ s.presentRails, s.gov.setpoints.getD i none = some (s.pmWanted i)

theorem State.Talked.settled {s t : State} {n e : Nat} {cs : List (Nat × Byte)} {rs : List Report} (h : s.Talked t n e cs rs) (hs : s.RailsSettled) : t.RailsSettled := by
  obtain ⟨hquires, -, hboot, -, -, hset⟩ := h.keeps
  have hwanted : ∀ i, t.pmWanted i = s.pmWanted i := fun i => by
    rw [h.frame]
    rfl
  rw [State.RailsSettled, hboot, h.presentRails, hset]
  simp only [hwanted]
  exact hs

theorem State.retarget_settled {s : State} (h : s.RailsSettled) : s.retarget = s := by
  have hnone : (List.range 9).filter s.pmDue = [] := List.filter_eq_nil_iff.mpr fun i hi hdue => by
    simp only [State.pmDue, Bool.and_eq_true, decide_eq_true_iff] at hdue
    obtain ⟨⟨⟨hstep, hpresent⟩, -⟩, hset⟩ := hdue
    rcases h with h | h
    · omega
    · exact hset (h i (s.presentRails_mem.mpr ⟨List.mem_range.mp hi, hpresent⟩))
  rw [State.retarget, hnone]
  rfl

section
variable {s : State} {i : Nat} (hi : i < s.gov.rails.length)
include hi

/-- A STATUS_WORD is taken, and cleared where it is bad. -/
theorem State.railStatus_onRail (w : BitVec 16) : State.OnRail i s (s.railStatus i w) (if statusBad w then 1 else 0) 0 (if statusBad w then [pmClearFaults] else []) []
    { s.rail i with status := w, state := if statusBad w then .fault else .ok } ∧ (s.Shown → (s.rail i).state ≠ .unreachable → (s.railStatus i w).Shown) := by
  have hmod := s.modRail_onRail hi (fun v => { v with status := w, state := if statusBad w then .fault else .ok }) ⟨rfl, rfl⟩
  unfold State.railStatus
  dsimp only
  have hgov : (s.modRail i fun v => { v with status := w, state := if statusBad w then .fault else .ok }).gov.vcoreUnreachable = s.gov.vcoreUnreachable := rfl
  generalize (s.modRail i fun v => { v with status := w, state := if statusBad w then .fault else .ok }) = u at *
  by_cases hb : statusBad w = true
  · have hlen : i < u.gov.rails.length := hmod.talked.length ▸ hi
    obtain ⟨hsend, hshown⟩ := u.pmSend_onRail hlen pmClearFaults false [] 0
    generalize u.pmSend i pmClearFaults false [] 0 = t at *
    have hall := hmod.trans hsend
    rw [hmod.here] at hall
    simp only [hb, ↓reduceIte] at hall ⊢
    exact ⟨hall, fun _ _ => hshown⟩
  · simp only [hb, Bool.false_eq_true, ↓reduceIte] at hmod ⊢
    refine ⟨hmod, fun hshown hne => ?_⟩
    rw [State.Shown, hgov]
    refine hshown.trans (decide_eq_decide.mpr ?_)
    rcases eq_or_ne 0 i with rfl | h0
    · rw [hmod.here]
      exact ⟨fun h => absurd h hne, nofun⟩
    · rw [hmod.other 0 h0]

theorem State.railVout_onRail (mv : Nat) : State.OnRail i s (s.railVout i mv) 0 0 [] [] { s.rail i with vout := mv } ∧ (s.Shown → (s.railVout i mv).Shown) := by
  have hmod := s.modRail_onRail hi (fun v => { v with vout := mv }) ⟨rfl, rfl⟩
  have hstate : ((s.modRail i fun v => { v with vout := mv }).rail 0).state = (s.rail 0).state := by
    rcases eq_or_ne 0 i with rfl | h0
    · rw [hmod.here]
    · rw [hmod.other 0 h0]
  have hshown : s.Shown → (s.modRail i fun v => { v with vout := mv }).Shown := fun h => by
    rw [State.Shown, hstate]
    exact h
  unfold State.railVout
  generalize (s.modRail i fun v => { v with vout := mv }) = u at *
  dsimp only
  split
  · obtain ⟨⟨hframe, hbus, hlen, hrails, htries, herrors, hregs, hreports⟩, here, hother⟩ := hmod
    exact ⟨⟨⟨by rw [hframe], hbus, hlen, hrails, htries, herrors, hregs, hreports⟩, here, hother⟩, hshown⟩
  · exact ⟨hmod, hshown⟩

/-- A change of the current or the temperature of a rail. -/
theorem State.modRail_shown (f : RailView → RailView) (hf : ∀ v : RailView, (f v).state = v.state ∧ (f v).present = v.present ∧ (f v).addr = v.addr) :
    State.OnRail i s (s.modRail i f) 0 0 [] [] (f (s.rail i)) ∧ (s.Shown → (s.modRail i f).Shown) := by
  have hmod := s.modRail_onRail hi f (hf _).2
  have hstate : ((s.modRail i f).rail 0).state = (s.rail 0).state := by
    rcases eq_or_ne 0 i with rfl | h0
    · rw [hmod.here, (hf _).1]
    · rw [hmod.other 0 h0]
  refine ⟨hmod, fun h => ?_⟩
  rw [State.Shown, hstate]
  exact h

/-- A read of a rail: `run` has its effect where the read comes through. -/
theorem State.pmRead_onRail (hs : s.RailsSettled) (code : Byte) (fails : Nat) (run : State → State) (n e : Nat) (cs : List Byte) (rs : List Report) (g : RailView → RailView)
    (hrun : ∀ u : State, i < u.gov.rails.length → u.Shown → u.time = s.time → (∀ k, k ≠ rk 10 0x300 → k ≠ rk 10 0x304 → u.reg k = s.reg k) → (u.rail i).state ≠ .unreachable → State.OnRail i u (run u) n e cs rs (g (u.rail i)) ∧ (run u).Shown) :
    State.OnRail i s (s.pmRead i code fails run) (min 4 (fails + 1) + if fails < 4 then n else 0) (min 4 fails + if fails < 4 then e else 0) (code :: if fails < 4 then cs else []) (if fails < 4 then rs else [])
      (if fails < 4 then g ((s.rail i).tried fails) else (s.rail i).tried fails) ∧ (s.pmRead i code fails run).Shown := by
  obtain ⟨hsend, hshown⟩ := s.pmSend_onRail hi code true [] fails
  unfold State.pmRead
  dsimp only
  generalize s.pmSend i code true [] fails = u at *
  have hlen : i < u.gov.rails.length := hsend.talked.length ▸ hi
  split
  next hf =>
    have hne : (u.rail i).state ≠ .unreachable := by
      rw [hsend.here, RailView.tried]
      dsimp only
      rw [if_neg (by omega)]
      split
      · exact nofun
      · assumption
    obtain ⟨hon, hshown'⟩ := hrun u hlen hshown hsend.talked.keeps.2.2.2.1 hsend.talked.regs hne
    have hall := hsend.trans hon
    rw [State.retarget_settled (hall.talked.settled hs)]
    rw [hsend.here] at hall
    exact ⟨hall, hshown'⟩
  · rw [State.retarget_settled (hsend.talked.settled hs)]
    exact ⟨hsend, hshown⟩

end

/-- A rail after the four reads of a telemetry cycle. -/
def RailView.read (v : RailView) (x : RailTransfer) : RailView :=
  { v with
    vout := if x.fails.getD 1 0 < 4 then x.reading.vout else v.vout
    iout := if x.fails.getD 2 0 < 4 then x.reading.iout else v.iout
    temp := if x.fails.getD 3 0 < 4 then x.reading.temp else v.temp
    status := if x.fails.getD 0 0 < 4 then x.reading.status else v.status
    state := if ¬x.fails.getD 3 0 < 4 then .unreachable
      else if (x.fails.getD 0 0 < 4 ∧ statusBad x.reading.status = true) ∧ x.fails.getD 1 0 < 4 ∧ x.fails.getD 2 0 < 4 then .fault else .ok }

/-- The rail read by read. -/
def RailView.afterStatus (v : RailView) (x : RailTransfer) : RailView :=
  if x.fails.getD 0 0 < 4 then { v.tried (x.fails.getD 0 0) with status := x.reading.status, state := if statusBad x.reading.status then .fault else .ok } else v.tried (x.fails.getD 0 0)

def RailView.afterVout (v : RailView) (x : RailTransfer) : RailView := if x.fails.getD 1 0 < 4 then { v.tried (x.fails.getD 1 0) with vout := x.reading.vout } else v.tried (x.fails.getD 1 0)

def RailView.afterIout (v : RailView) (x : RailTransfer) : RailView := if x.fails.getD 2 0 < 4 then { v.tried (x.fails.getD 2 0) with iout := x.reading.iout } else v.tried (x.fails.getD 2 0)

def RailView.afterTemp (v : RailView) (x : RailTransfer) : RailView := if x.fails.getD 3 0 < 4 then { v.tried (x.fails.getD 3 0) with temp := x.reading.temp } else v.tried (x.fails.getD 3 0)

/-- The state of a rail after a transaction of whose tries the first `fails` fail. -/
def RailState.tried (r : RailState) (fails : Nat) : RailState := if fails < 4 then if r = .unreachable then .ok else r else .unreachable

theorem RailView.tried_eq (v : RailView) (fails : Nat) : v.tried fails = { v with state := v.state.tried fails } := by
  unfold RailView.tried RailState.tried
  by_cases h : fails < 4
  · simp [h]
  · simp [h, Nat.not_lt.mp h]

theorem RailView.afterVout_eq (v : RailView) (x : RailTransfer) : v.afterVout x = { v with vout := if x.fails.getD 1 0 < 4 then x.reading.vout else v.vout, state := v.state.tried (x.fails.getD 1 0) } := by
  rw [RailView.afterVout, RailView.tried_eq]
  split <;> rfl

theorem RailView.afterIout_eq (v : RailView) (x : RailTransfer) : v.afterIout x = { v with iout := if x.fails.getD 2 0 < 4 then x.reading.iout else v.iout, state := v.state.tried (x.fails.getD 2 0) } := by
  rw [RailView.afterIout, RailView.tried_eq]
  split <;> rfl

theorem RailView.afterTemp_eq (v : RailView) (x : RailTransfer) : v.afterTemp x = { v with temp := if x.fails.getD 3 0 < 4 then x.reading.temp else v.temp, state := v.state.tried (x.fails.getD 3 0) } := by
  rw [RailView.afterTemp, RailView.tried_eq]
  split <;> rfl

theorem RailView.afterStatus_eq (v : RailView) (x : RailTransfer) : v.afterStatus x = { v with
    status := if x.fails.getD 0 0 < 4 then x.reading.status else v.status
    state := if x.fails.getD 0 0 < 4 then if statusBad x.reading.status then .fault else .ok else .unreachable } := by
  rw [RailView.afterStatus, RailView.tried_eq, RailState.tried]
  split <;> rfl

/-- A state that is not UNREACHABLE. -/
theorem RailState.tried_of_ne {r : RailState} (h : r ≠ .unreachable) (fails : Nat) : r.tried fails = if fails < 4 then r else .unreachable := by
  rw [RailState.tried, if_neg h]

theorem RailState.tried_unreachable (fails : Nat) : RailState.tried .unreachable fails = if fails < 4 then .ok else .unreachable := rfl

/-- The state after the four reads, of which the first shows `r`. -/
theorem RailState.tried_four {r : RailState} (hr : r ≠ .unreachable) (a b c d : Nat) :
    (((if a < 4 then r else .unreachable).tried b).tried c).tried d = if ¬d < 4 then .unreachable else if a < 4 ∧ b < 4 ∧ c < 4 then r else .ok := by
  have hok : RailState.ok ≠ .unreachable := nofun
  by_cases hd : d < 4
  · by_cases hc : c < 4
    · by_cases hb : b < 4
      · by_cases ha : a < 4 <;> simp only [ha, hb, hc, hd, ↓reduceIte, RailState.tried_of_ne hr, RailState.tried_unreachable, RailState.tried_of_ne hok, not_true_eq_false, and_self, and_true]
      · simp only [RailState.tried, hb, hc, hd, ↓reduceIte, not_true_eq_false, false_and, and_false, if_neg hok]
    · simp only [RailState.tried, hc, hd, ↓reduceIte, not_true_eq_false, and_false]
  · simp only [RailState.tried, hd, ↓reduceIte, not_false_eq_true]

theorem RailView.read_eq (v : RailView) (x : RailTransfer) : (((v.afterStatus x).afterVout x).afterIout x).afterTemp x = v.read x := by
  have hshows : (if statusBad x.reading.status = true then RailState.fault else .ok) ≠ .unreachable := by split <;> exact nofun
  simp only [RailView.afterTemp_eq, RailView.afterIout_eq, RailView.afterVout_eq, RailView.afterStatus_eq, RailView.read, RailState.tried_four hshows]
  cases statusBad x.reading.status
  · simp only [Bool.false_eq_true, ↓reduceIte, ite_self, and_false, false_and]
  · simp only [↓reduceIte, and_true]

section
variable {s : State} {i : Nat} (hi : i < s.gov.rails.length) (hs : s.RailsSettled)
include hi hs

/-- A read whose effect sends nothing. -/
theorem State.pmRead_quiet (code : Byte) (fails : Nat) (run : State → State) (g : RailView → RailView)
    (hrun : ∀ u : State, i < u.gov.rails.length → State.OnRail i u (run u) 0 0 [] [] (g (u.rail i)) ∧ (u.Shown → (run u).Shown)) :
    State.OnRail i s (s.pmRead i code fails run) (min 4 (fails + 1)) (min 4 fails) [code] [] (if fails < 4 then g ((s.rail i).tried fails) else (s.rail i).tried fails) ∧ (s.pmRead i code fails run).Shown := by
  have h := State.pmRead_onRail hi hs code fails run 0 0 [] [] g fun u hu hshown _ _ _ => ⟨(hrun u hu).1, (hrun u hu).2 hshown⟩
  simp only [ite_self, Nat.add_zero] at h
  exact h

/-- The tries that a read of STATUS_WORD takes, with the clearing of what it shows. -/
def statusTries (fails : Nat) (w : BitVec 16) : Nat := min 4 (fails + 1) + if fails < 4 ∧ statusBad w = true then 1 else 0

/-- What a read of STATUS_WORD sends. -/
def statusCodes (fails : Nat) (w : BitVec 16) : List Byte := pmStatusWord :: if fails < 4 ∧ statusBad w = true then [pmClearFaults] else []

theorem State.readStatus_onRail (x : RailTransfer) : State.OnRail i s (s.pmRead i pmStatusWord (x.fails.getD 0 0) fun s => s.railStatus i x.reading.status)
    (statusTries (x.fails.getD 0 0) x.reading.status) (min 4 (x.fails.getD 0 0)) (statusCodes (x.fails.getD 0 0) x.reading.status) [] ((s.rail i).afterStatus x) := by
  have h := (State.pmRead_onRail hi hs pmStatusWord (x.fails.getD 0 0) (fun s => s.railStatus i x.reading.status) _ _ _ [] (fun v => { v with status := x.reading.status, state := if statusBad x.reading.status then .fault else .ok })
    fun u hu hshown _ _ hne => ⟨(u.railStatus_onRail hu x.reading.status).1, (u.railStatus_onRail hu x.reading.status).2 hshown hne⟩).1
  simp only [← ite_and, ite_self, Nat.add_zero] at h
  exact h

theorem State.readVout_onRail (x : RailTransfer) : State.OnRail i s (s.pmRead i pmReadVout (x.fails.getD 1 0) fun s => s.railVout i x.reading.vout)
    (min 4 (x.fails.getD 1 0 + 1)) (min 4 (x.fails.getD 1 0)) [pmReadVout] [] ((s.rail i).afterVout x) :=
  (State.pmRead_quiet hi hs pmReadVout (x.fails.getD 1 0) (fun s => s.railVout i x.reading.vout) (fun v => { v with vout := x.reading.vout }) fun u hu => u.railVout_onRail hu _).1

theorem State.readIout_onRail (x : RailTransfer) : State.OnRail i s (s.pmRead i pmReadIout (x.fails.getD 2 0) fun s => s.modRail i fun v => { v with iout := x.reading.iout })
    (min 4 (x.fails.getD 2 0 + 1)) (min 4 (x.fails.getD 2 0)) [pmReadIout] [] ((s.rail i).afterIout x) :=
  (State.pmRead_quiet hi hs pmReadIout (x.fails.getD 2 0) (fun s => s.modRail i fun v => { v with iout := x.reading.iout }) (fun v => { v with iout := x.reading.iout }) fun u hu => u.modRail_shown hu _ fun _ => ⟨rfl, rfl, rfl⟩).1

theorem State.readTemp_onRail (x : RailTransfer) : State.OnRail i s (s.pmRead i pmReadTemp (x.fails.getD 3 0) fun s => s.modRail i fun v => { v with temp := x.reading.temp })
    (min 4 (x.fails.getD 3 0 + 1)) (min 4 (x.fails.getD 3 0)) [pmReadTemp] [] ((s.rail i).afterTemp x) ∧ (s.pmRead i pmReadTemp (x.fails.getD 3 0) fun s => s.modRail i fun v => { v with temp := x.reading.temp }).Shown :=
  State.pmRead_quiet hi hs pmReadTemp (x.fails.getD 3 0) (fun s => s.modRail i fun v => { v with temp := x.reading.temp }) (fun v => { v with temp := x.reading.temp }) fun u hu => u.modRail_shown hu _ fun _ => ⟨rfl, rfl, rfl⟩

/-- The four reads of a rail. -/
theorem State.readRail_onRail (x : RailTransfer) : State.OnRail i s (s.readRail i x)
      (statusTries (x.fails.getD 0 0) x.reading.status + min 4 (x.fails.getD 1 0 + 1) + min 4 (x.fails.getD 2 0 + 1) + min 4 (x.fails.getD 3 0 + 1))
      (min 4 (x.fails.getD 0 0) + min 4 (x.fails.getD 1 0) + min 4 (x.fails.getD 2 0) + min 4 (x.fails.getD 3 0))
      (statusCodes (x.fails.getD 0 0) x.reading.status ++ [pmReadVout] ++ [pmReadIout] ++ [pmReadTemp]) [] ((s.rail i).read x) ∧ (s.readRail i x).Shown := by
  have h1 := State.readStatus_onRail hi hs x
  unfold State.readRail
  dsimp only
  generalize s.pmRead i pmStatusWord (x.fails.getD 0 0) (fun s => s.railStatus i x.reading.status) = s1 at *
  have h12 := h1.trans (State.readVout_onRail (h1.talked.length ▸ hi) (h1.talked.settled hs) x)
  generalize s1.pmRead i pmReadVout (x.fails.getD 1 0) (fun s => s.railVout i x.reading.vout) = s2 at *
  have h13 := h12.trans (State.readIout_onRail (h12.talked.length ▸ hi) (h12.talked.settled hs) x)
  generalize s2.pmRead i pmReadIout (x.fails.getD 2 0) (fun s => s.modRail i fun v => { v with iout := x.reading.iout }) = s3 at *
  obtain ⟨h4, hshown⟩ := State.readTemp_onRail (h13.talked.length ▸ hi) (h13.talked.settled hs) x
  have h14 := h13.trans h4
  rw [h13.here, h12.here, h1.here, RailView.read_eq] at h14
  exact ⟨h14, hshown⟩

end

/-! ### A sweep over the rails -/

/-- A sweep over the rails of the board record: each rail's transactions, in their order. -/
theorem State.sweep {s : State} (hs : s.RailsSettled) (step : State → Nat → State) (n e : Nat → Nat) (cs : Nat → List Byte) (rs : Nat → List Report) (g : Nat → RailView → RailView)
    (P : State → Prop) (hP : P s) (hstep : ∀ u : State, ∀ i < u.gov.rails.length, u.RailsSettled → P u → (State.OnRail i u (step u i) (n i) (e i) (cs i) (rs i) (g i (u.rail i)) ∧ (step u i).Shown) ∧ P (step u i)) :
    ∀ (l : List Nat), l.Nodup → (∀ i ∈ l, i < s.gov.rails.length) →
      s.Talked (s.each l step) (l.map n).sum (l.map e).sum (l.flatMap fun i => (cs i).map fun c => (i, c)) (l.flatMap rs)
      ∧ (∀ i ∈ l, (s.each l step).rail i = g i (s.rail i)) ∧ (∀ i, i ∉ l → (s.each l step).rail i = s.rail i) ∧ (l ≠ [] → (s.each l step).Shown) ∧ P (s.each l step) := by
  intro l
  induction l using List.reverseRecOn with
  | nil => exact fun _ _ => ⟨.refl s, nofun, fun _ _ => rfl, fun h => absurd rfl h, hP⟩
  | append_singleton l i ih =>
    intro hnd hlt
    have hnd' := List.nodup_append.mp hnd
    have hil : i ∉ l := fun h => hnd'.2.2 i h i (List.mem_singleton_self _) rfl
    obtain ⟨htalked, hin, hout, -, hPl⟩ := ih hnd'.1 fun j hj => hlt j (List.mem_append_left _ hj)
    have heach : s.each (l ++ [i]) step = step (s.each l step) i := List.foldl_append
    rw [heach]
    generalize s.each l step = u at *
    obtain ⟨⟨hon, hshown⟩, hPu⟩ := hstep u i (htalked.length ▸ hlt i (List.mem_append_right _ (List.mem_singleton_self i))) (htalked.settled hs) hPl
    refine ⟨?_, fun j hj => ?_, fun j hj => ?_, fun _ => hshown, hPu⟩
    · have hall := htalked.trans hon.talked
      simpa only [List.map_append, List.sum_append, List.flatMap_append, List.map_singleton, List.sum_singleton, List.flatMap_singleton] using hall
    · rcases List.mem_append.mp hj with hj | hj
      · rw [hon.other j fun h => hil (h ▸ hj)]
        exact hin j hj
      · obtain rfl := List.mem_singleton.mp hj
        rw [hon.here, hout j hil]
    · have hji : j ≠ i := fun h => hj (List.mem_append_right _ (List.mem_singleton.mpr h))
      rw [hon.other j hji]
      exact hout j fun h => hj (List.mem_append_left _ h)

end Sys2Proof.Machine

end

section

/-! # A telemetry cycle, and an alert of the regulators (R723 to R725, R731 to R734) -/

namespace Sys2Proof.Machine

/-- What the reads of a cycle leave alone of the quires: a lasting condition of the chip that ends makes records transient. -/
def State.SameQuires (s t : State) : Prop := (∀ q, t.quire q = { s.quire q with firstError := (t.quire q).firstError, secondError := (t.quire q).secondError }) ∧ t.sent = s.sent

/-- The state after the heat and the power are judged. -/
theorem State.thermalLive_shape (s : State) : (∃ r a b qs, s.thermalLive = { s with collector := { s.collector with real := r, firstError := a, secondError := b }, quires := qs }) ∧ s.SameQuires s.thermalLive := by
  unfold State.thermalLive
  generalize (s.gov.hardCount.any (fun n => decide (10 ≤ n)) || decide (2 ≤ s.gov.overCount)) = on
  have hquire : ∀ v : State, ∀ q, v.settleRecords.quire q = { v.quire q with firstError := (v.settleRecords.quire q).firstError, secondError := (v.settleRecords.quire q).secondError } := fun v q => by
    rw [State.settleRecords_quire]
    rfl
  cases on with
  | false =>
    obtain ⟨a, b, qs, h⟩ := s.live_off 0x08
    have hlive : ∀ q, (s.live 0x08 false).quire q = { s.quire q with firstError := ((s.live 0x08 false).quire q).firstError, secondError := ((s.live 0x08 false).quire q).secondError } :=
      hquire { s with collector := { s.collector with real := s.collector.real &&& ~~~(BitVec.ofNat 9 (2 ^ 0x08)) } }
    have hsettled := hquire (s.live 0x08 false)
    obtain ⟨a', b', qs', h'⟩ := (s.live 0x08 false).settleRecords_shape
    generalize s.live 0x08 false = u at *
    generalize u.settleRecords = v at *
    refine ⟨⟨_, a', b', qs', by rw [h', h]⟩, fun q => ?_, by rw [h', h]⟩
    rw [hsettled q, hlive q]
  | true =>
    obtain ⟨a, b, qs, h⟩ := (s.live 0x08 true).settleRecords_shape
    have hsettled := hquire (s.live 0x08 true)
    exact ⟨⟨_, a, b, qs, h⟩, hsettled, (congrArg State.sent h).trans rfl⟩

/-! ### The power of a cycle -/

/-- `OVER_CAP` as a cycle judges it (R725). -/
def overCapOf (p cap : Nat) (before : Bool) : Bool := decide (cap < p) || (before && !decide (p + 2000 < cap))

theorem overCapOf_above {p cap : Nat} (h : cap < p) (before : Bool) : overCapOf p cap before = true := by
  rw [overCapOf, decide_eq_true h, Bool.true_or]

theorem overCapOf_below {p cap : Nat} (h : p + 2000 < cap) (before : Bool) : overCapOf p cap before = false := by
  rw [overCapOf, decide_eq_true h, decide_eq_false (by omega), Bool.not_true, Bool.and_false, Bool.or_false]

theorem overCapOf_between {p cap : Nat} (h : p ≤ cap) (h' : cap ≤ p + 2000) (before : Bool) : overCapOf p cap before = before := by
  rw [overCapOf, decide_eq_false (by omega), decide_eq_false (by omega), Bool.not_false, Bool.and_true, Bool.false_or]

/-- The power of a cycle before which it was not too high. -/
theorem State.powerCheck_shape {s : State} (h : s.gov.overCount = 0) :
    s.powerCheck = ({ s with gov := { s.gov with overCap := overCapOf s.gov.chipPower s.capMw s.gov.overCap, overCount := if 125000 < s.gov.chipPower then 1 else 0 } } : State).thermalLive := by
  have hone : (if 125000 < s.gov.chipPower then s.gov.overCount + 1 else 0) = if 125000 < s.gov.chipPower then 1 else 0 := by rw [h]
  have hne : (if 125000 < s.gov.chipPower then 1 else 0) ≠ 2 := by split <;> decide
  unfold State.powerCheck
  dsimp only
  rw [hone, if_neg hne]
  rfl

/-! ### The cycle -/

/-- The tries of the four reads of a rail, with the clearing of a fault. -/
def railTries (x : RailTransfer) : Nat := statusTries (x.fails.getD 0 0) x.reading.status + min 4 (x.fails.getD 1 0 + 1) + min 4 (x.fails.getD 2 0 + 1) + min 4 (x.fails.getD 3 0 + 1)

/-- Those of them that fail. -/
def railErrors (x : RailTransfer) : Nat := min 4 (x.fails.getD 0 0) + min 4 (x.fails.getD 1 0) + min 4 (x.fails.getD 2 0) + min 4 (x.fails.getD 3 0)

/-- The codes that a rail is sent in a cycle. -/
def railCodes (x : RailTransfer) : List Byte := statusCodes (x.fails.getD 0 0) x.reading.status ++ [pmReadVout] ++ [pmReadIout] ++ [pmReadTemp]

/-- The reads of all rails. -/
theorem State.readRails {s : State} (hlen : s.gov.rails.length = 9) (hs : s.RailsSettled) (rails : List RailTransfer) :
    let t := s.each s.presentRails fun s i => s.readRail i (rails.getD i noAnswer)
    s.Talked t (s.presentRails.map fun i => railTries (rails.getD i noAnswer)).sum (s.presentRails.map fun i => railErrors (rails.getD i noAnswer)).sum
      (s.presentRails.flatMap fun i => (railCodes (rails.getD i noAnswer)).map fun c => (i, c)) []
    ∧ (∀ i ∈ s.presentRails, t.rail i = (s.rail i).read (rails.getD i noAnswer)) ∧ (∀ i, i ∉ s.presentRails → t.rail i = s.rail i) ∧ (s.presentRails ≠ [] → t.Shown) := by
  have h := State.sweep hs (fun s i => s.readRail i (rails.getD i noAnswer)) (fun i => railTries (rails.getD i noAnswer)) (fun i => railErrors (rails.getD i noAnswer)) (fun i => railCodes (rails.getD i noAnswer)) (fun _ => [])
    (fun i v => v.read (rails.getD i noAnswer)) (fun _ => True) trivial (fun u i hi hu _ => ⟨State.readRail_onRail hi hu _, trivial⟩) s.presentRails (List.nodup_range.filter _)
    (fun i hi => hlen ▸ (s.presentRails_mem.mp hi).1)
  have hnone : (s.presentRails.flatMap fun _ => ([] : List Report)) = [] := List.flatMap_eq_nil_iff.mpr fun _ _ => rfl
  rw [hnone] at h
  obtain ⟨h1, h2, h3, h4, -⟩ := h
  exact ⟨h1, h2, h3, h4⟩

/-- A telemetry cycle: the reads, and the power that they sum up to. -/
structure State.Metered (s t : State) (rails : List RailTransfer) : Prop where
  same : s.SameQuires t
  shown : s.presentRails ≠ [] → t.Shown
  cycles : t.gov.cycles = s.gov.cycles + 1
  reports : t.collector.reports = s.collector.reports
  there : ∀ i ∈ s.presentRails, t.rail i = (s.rail i).read (rails.getD i noAnswer)
  absent : ∀ i, i ∉ s.presentRails → t.rail i = s.rail i
  power : t.gov.chipPower = (s.presentRails.map fun i => (t.rail i).vout * (t.rail i).iout).sum / 1000 + Config.unmeteredMw s.gov.cycles
  overCap : t.gov.overCap = overCapOf t.gov.chipPower s.capMw s.gov.overCap
  overCount : t.gov.overCount = if 125000 < t.gov.chipPower then 1 else 0
  bus : ∃ fs, t.gov.bus = s.gov.bus ++ fs ∧ (fs.map fun f => (f.rail, f.code)) = (s.presentRails.flatMap fun i => (railCodes (rails.getD i noAnswer)).map fun c => (i, c)) ∧ ∀ f ∈ fs, f.addr = (s.rail f.rail).addr ∧ f.kHz = s.pmKhz
  tries : Counted (s.presentRails.map fun i => railTries (rails.getD i noAnswer)).sum (s.reg (rk 10 0x300)) (t.reg (rk 10 0x300))
  errors : Counted (s.presentRails.map fun i => railErrors (rails.getD i noAnswer)).sum (s.reg (rk 10 0x304)) (t.reg (rk 10 0x304))

theorem State.telemetryCycle_metered {s : State} (hstep : s.boot.step ≠ 0) (hlen : s.gov.rails.length = 9) (hover : s.gov.overCount = 0) (hs : s.RailsSettled) (rails : List RailTransfer) :
    s.Metered (telemetryCycle rails s) rails := by
  obtain ⟨htalked, hthere, habsent, hshown⟩ := State.readRails hlen hs rails
  rw [telemetryCycle, if_neg hstep]
  dsimp only at htalked hthere habsent hshown ⊢
  generalize (s.each s.presentRails fun s i => s.readRail i (rails.getD i noAnswer)) = u at *
  obtain ⟨hquires, hsent, -⟩ := htalked.keeps
  have hgov : u.gov.overCount = 0 ∧ u.gov.overCap = s.gov.overCap ∧ u.gov.cycles = s.gov.cycles := by
    rw [htalked.frame]
    exact ⟨hover, rfl, rfl⟩
  obtain ⟨hcount, hcap, hcycles⟩ := hgov
  have hlimit : u.capMw = s.capMw := by rw [State.capMw, htalked.regs _ (by decide) (by decide), State.capMw]
  have hpower : u.measuredPower = (s.presentRails.map fun i => (u.rail i).vout * (u.rail i).iout).sum / 1000 + Config.unmeteredMw s.gov.cycles := by
    rw [State.measuredPower, htalked.presentRails, hcycles]
    rfl
  rw [State.powerCheck_shape (s := { u with gov := { u.gov with chipPower := u.measuredPower, cycles := u.gov.cycles + 1 } }) hcount]
  generalize hv : ({ u with gov := { u.gov with chipPower := u.measuredPower, cycles := u.gov.cycles + 1 } } : State) = v at *
  generalize hw : ({ v with gov := { v.gov with overCap := overCapOf v.gov.chipPower v.capMw v.gov.overCap, overCount := if 125000 < v.gov.chipPower then 1 else 0 } } : State) = w
  obtain ⟨⟨r, a, b, qs, hshape⟩, hsame, hsent'⟩ := w.thermalLive_shape
  generalize w.thermalLive = t at *
  have hw' : w = { u with gov := { u.gov with chipPower := u.measuredPower, cycles := u.gov.cycles + 1, overCap := overCapOf u.measuredPower u.capMw u.gov.overCap, overCount := if 125000 < u.measuredPower then 1 else 0 } } := by
    subst hw hv
    rfl
  have hgov : t.gov = { u.gov with chipPower := u.measuredPower, cycles := u.gov.cycles + 1, overCap := overCapOf u.measuredPower u.capMw u.gov.overCap, overCount := if 125000 < u.measuredPower then 1 else 0 } := by rw [hshape, hw']
  have hregs : ∀ k, t.reg k = u.reg k := fun k => by
    rw [hshape, hw']
    rfl
  have hrail : ∀ i, t.rail i = u.rail i := fun i => by rw [State.rail, hgov, State.rail]
  have hwquire : ∀ q, w.quire q = s.quire q := fun q => by
    rw [hw']
    show u.quire q = s.quire q
    rw [State.quire, hquires, State.quire]
  refine ⟨⟨fun q => ?_, ?_⟩, fun h => ?_, ?_, ?_, fun i hi => ?_, fun i hi => ?_, ?_, ?_, ?_, ?_, ?_, ?_⟩
  · rw [← hwquire q]
    exact hsame q
  · rw [hsent', hw']
    exact hsent
  · rw [State.Shown, hrail, hgov]
    exact hshown h
  · rw [hgov, hcycles]
  · rw [hshape, hw']
    exact htalked.reports.trans (List.append_nil _)
  · rw [hrail]
    exact hthere i hi
  · rw [hrail]
    exact habsent i hi
  · simp only [hrail]
    rw [hgov]
    exact hpower
  · rw [hgov, ← hlimit, ← hcap]
  · rw [hgov]
  · rw [hgov]
    exact htalked.bus
  · rw [hregs]
    exact htalked.tries
  · rw [hregs]
    exact htalked.errors

end Sys2Proof.Machine

end

section

/-! # An alert of the regulators (R732, R734) -/

namespace Sys2Proof.Machine

/-! ### The log while transactions are counted -/

/-- The log after at most `n` events of other codes than REGULATOR's. -/
structure State.LogsFew (s t : State) (n : Nat) : Prop where
  grows : s.LogGrows t
  length : t.log.entries.length ≤ s.log.entries.length + n
  tokens : t.log.tokens 0x17 = s.log.tokens 0x17

namespace State.LogsFew
variable {s t u : State} {m n : Nat}

theorem refl (s : State) : s.LogsFew s 0 := ⟨.refl s, Nat.le_refl _, rfl⟩

theorem trans (h : s.LogsFew t m) (h' : t.LogsFew u n) : s.LogsFew u (m + n) := by
  refine ⟨h.grows.trans h'.grows, ?_, h'.tokens.trans h.tokens⟩
  have h1 := h.length
  have h2 := h'.length
  omega

theorem le (h : s.LogsFew t m) (hle : m ≤ n) : s.LogsFew t n := ⟨h.grows, h.length.trans (Nat.add_le_add_left hle _), h.tokens⟩

/-- A step that leaves the log. -/
theorem of_log (h : t.log = s.log) : s.LogsFew t 0 := ⟨.of_log h, by rw [h]; exact Nat.le_refl _, by rw [h]⟩

end State.LogsFew

theorem offerOnce_tokens (s : State) {e : LogEvent} (he : e.code.toNat ≠ 0x17) : (offerOnce e s).1.log.tokens 0x17 = s.log.tokens 0x17 := by
  have hput : ∀ n : Nat, sget (fun _ => 0) 0x17 (sput (fun _ => 0) e.code.toNat n s.log.taken) = sget (fun _ => 0) 0x17 s.log.taken := fun n => sget_sput_other _ _ _ _ _ (Ne.symm he)
  have htake : (s.log.take e).tokens 0x17 = s.log.tokens 0x17 := by
    unfold SinterLog.take SinterLog.tokens
    dsimp only
    split
    · rfl
    · exact hput _
  by_cases ha : s.passes e
  · rw [offerOnce_passed ha]
    by_cases hfull : 8192 ≤ s.log.entries.length
    · rw [if_pos hfull]
      exact htake
    · rw [if_neg hfull]
      split <;> exact htake
  · rw [offerOnce_suppressed ha]
    rfl

/-- The event of a counter that fills is another. -/
theorem satEvent_code (addr : Nat) : (satEvent addr).code.toNat ≠ 0x17 := (by decide : (0x04#8).toNat ≠ 0x17)

theorem offer_tokens (n : Nat) (s : State) {e : LogEvent} (he : e.code.toNat ≠ 0x17) : (offer n e s).log.tokens 0x17 = s.log.tokens 0x17 := by
  induction n generalizing s e with
  | zero => exact offerOnce_tokens s he
  | succ n ih =>
    have h1 := offerOnce_tokens s he
    rw [offer]
    split
    · exact h1
    · exact (ih { (offerOnce e s).1 with collector := _ } (satEvent_code _)).trans h1

/-- A counter that fills leaves at most five events, none of them of code 0x17. -/
theorem State.bump_logsFew (s : State) (k n : Nat) : s.LogsFew (s.bump k n) 5 := by
  refine ⟨s.bump_logGrows k n, s.bump_logLength k n, ?_⟩
  unfold State.bump
  dsimp only
  split
  · exact offer_tokens 4 { s.setReg k (BitVec.ofNat 32 (satAdd 32 (s.reg k).toNat n).1) with collector := _ } (satEvent_code k)
  · rfl

theorem State.pmSend_logsFew (s : State) (i : Nat) (code : Byte) (reads : Bool) (data : List Byte) (fails : Nat) : s.LogsFew (s.pmSend i code reads data fails) 10 := by
  obtain ⟨bus, hsend⟩ : ∃ bus, s.pmSend i code reads data fails =
      ((({ s with gov := { s.gov with bus := bus } } : State).pmCounted fails).modRail i fun v => v.tried fails).vcoreReach := ⟨_, rfl⟩
  have hcounted : ∀ v : State, v.LogsFew (v.pmCounted fails) 10 := fun v => by
    unfold State.pmCounted
    split
    · exact (v.bump_logsFew _ _).le (by decide)
    · exact (v.bump_logsFew _ _).trans (State.bump_logsFew _ _ _)
  rw [hsend]
  have h := hcounted { s with gov := { s.gov with bus := bus } }
  generalize State.pmCounted { s with gov := { s.gov with bus := bus } } fails = u at *
  exact ⟨h.grows, h.length, h.tokens⟩

/-! ### The read of one rail -/

/-- The report of a regulator of VCORE. -/
def railReport (tm : Time) : Report :=
  { severity := .chip, checker := 0x02, quire := none, acts := [], element := 0, cause := 0x12, detail := BitVec.ofNat 24 (ofInt 24 0), injected := false, timeNs := tm.ns, timeValid := tm.valid }

/-- The event of a regulator of another rail. -/
def alertEvent (i : Nat) (w : BitVec 16) : LogEvent :=
  { code := 0x17, source := 12, quire := none, injected := false, exempt := false, d0 := packW [(16, i), (0, w.toNat)], d1 := 0, d2 := 0, at_ := none }

theorem State.alertStatus_eq (s : State) (i : Nat) (w : BitVec 16) : s.alertStatus i w =
    if statusBad w then if i = 0 then { s.railStatus i w with collector := { (s.railStatus i w).collector with reports := (s.railStatus i w).collector.reports ++ [railReport (s.railStatus i w).time] } }
      else (s.railStatus i w).logEvent (alertEvent i w) else s.railStatus i w := by
  unfold State.alertStatus
  cases statusBad w <;> rfl

section
variable {s : State} {i : Nat} (hi : i < s.gov.rails.length)
include hi

theorem State.alertStatus_onRail (w : BitVec 16) : State.OnRail i s (s.alertStatus i w) (if statusBad w then 1 else 0) 0 (if statusBad w then [pmClearFaults] else []) (if statusBad w ∧ i = 0 then [railReport s.time] else [])
    { s.rail i with status := w, state := if statusBad w then .fault else .ok } ∧ (s.Shown → (s.rail i).state ≠ .unreachable → (s.alertStatus i w).Shown) := by
  obtain ⟨hon, hshown⟩ := s.railStatus_onRail hi w
  have htime := hon.talked.keeps.2.2.2.1
  have heq := s.alertStatus_eq i w
  generalize s.railStatus i w = u at *
  by_cases hb : statusBad w = true
  · rw [if_pos hb] at heq
    by_cases h0 : i = 0
    · rw [if_pos h0] at heq
      rw [heq, if_pos (c := statusBad w = true ∧ i = 0) ⟨hb, h0⟩, htime]
      obtain ⟨⟨hframe, hbus, hlen, hrails, htries, herrors, hregs, hreports⟩, here, hother⟩ := hon
      exact ⟨⟨⟨by rw [hframe], hbus, hlen, hrails, htries, herrors, hregs, by rw [hreports, List.append_nil]⟩, here, hother⟩, hshown⟩
    · obtain ⟨l, c, hlog⟩ := u.logEvent_shape (alertEvent i w)
      rw [if_neg h0, hlog] at heq
      rw [heq, if_neg (c := statusBad w = true ∧ i = 0) fun h => h0 h.2]
      obtain ⟨⟨hframe, hbus, hlen, hrails, htries, herrors, hregs, hreports⟩, here, hother⟩ := hon
      exact ⟨⟨⟨by rw [hframe], hbus, hlen, hrails, htries, herrors, hregs, hreports⟩, here, hother⟩, hshown⟩
  · rw [if_neg hb] at heq
    rw [heq, if_neg (c := statusBad w = true ∧ i = 0) fun h => hb h.1]
    exact ⟨hon, hshown⟩

/-- A rail after a read of its STATUS_WORD. -/
def RailView.alerted (v : RailView) (a : Nat × BitVec 16) : RailView := if a.1 < 4 then { v with status := a.2, state := if statusBad a.2 then .fault else .ok } else { v with state := .unreachable }

/-- The read of STATUS_WORD of an alert. -/
def State.alertRead (s : State) (i : Nat) (a : Nat × BitVec 16) : State := s.pmRead i pmStatusWord a.1 fun s => s.alertStatus i a.2

/-- The reports of a read. -/
def railReports (tm : Time) (i : Nat) (a : Nat × BitVec 16) : List Report := if (a.1 < 4 ∧ statusBad a.2 = true) ∧ i = 0 then [railReport tm] else []

theorem State.alertRead_onRail (hs : s.RailsSettled) (a : Nat × BitVec 16) :
    State.OnRail i s (s.alertRead i a) (statusTries a.1 a.2) (min 4 a.1) (statusCodes a.1 a.2) (railReports s.time i a) ((s.rail i).alerted a) ∧ (s.alertRead i a).Shown := by
  have h := s.pmRead_onRail hi hs pmStatusWord a.1 (fun s => s.alertStatus i a.2) _ _ _ (if statusBad a.2 ∧ i = 0 then [railReport s.time] else []) (fun v => { v with status := a.2, state := if statusBad a.2 then .fault else .ok })
    fun u hu hshown htime _ hne => by
      obtain ⟨hon, hkeep⟩ := u.alertStatus_onRail hu a.2
      rw [htime] at hon
      exact ⟨hon, hkeep hshown hne⟩
  have hview : (if a.1 < 4 then { (s.rail i).tried a.1 with status := a.2, state := if statusBad a.2 then .fault else .ok } else (s.rail i).tried a.1) = (s.rail i).alerted a := by
    rw [RailView.alerted, RailView.tried]
    by_cases ha : a.1 < 4
    · rw [if_pos ha, if_pos ha]
    · rw [if_neg ha, if_neg ha, if_pos (by omega)]
  rw [hview] at h
  simp only [← ite_and, ite_self, Nat.add_zero, ← and_assoc] at h
  exact h

end

end Sys2Proof.Machine

end

section

/-! # The sweep of an alert over the rails (R734) -/

namespace Sys2Proof.Machine

/-- A regulator answers with a fault. -/
def Alarm (a : Nat × BitVec 16) : Prop := a.1 < 4 ∧ statusBad a.2 = true

/-! ### What it leaves in the log -/

theorem State.railStatus_logsFew (s : State) (i : Nat) (w : BitVec 16) : s.LogsFew (s.railStatus i w) 10 := by
  have hmod : ∀ f, s.LogsFew (s.modRail i f) 0 := fun f => .of_log rfl
  unfold State.railStatus
  dsimp only
  split
  · exact ((hmod _).trans (State.pmSend_logsFew _ i pmClearFaults false [] 0)).le (Nat.le_refl 10)
  · exact (hmod _).le (Nat.zero_le 10)

theorem State.retarget_logGrows (s : State) : s.LogGrows s.retarget :=
  .each _ State.pmSetpoint (fun v i => (v.pmSend_logsFew i pmVoutCommand false (le 2 (linear16 (pmExponent i) (v.pmWanted i))) 0).grows.trans (.of_log rfl)) s

theorem State.alertStatus_logGrows (s : State) (i : Nat) (w : BitVec 16) : s.LogGrows (s.alertStatus i w) := by
  have h := (s.railStatus_logsFew i w).grows
  rw [State.alertStatus_eq]
  split
  · split
    · exact h.trans (.of_log rfl)
    · exact h.trans (State.logEvent_logGrows _ _)
  · exact h

theorem State.alertRead_logGrows (s : State) (i : Nat) (a : Nat × BitVec 16) : s.LogGrows (s.alertRead i a) := by
  have h := (s.pmSend_logsFew i pmStatusWord true [] a.1).grows
  unfold State.alertRead State.pmRead
  dsimp only
  exact (State.LogGrows.ite (h.trans (State.alertStatus_logGrows _ _ _)) h).trans (State.retarget_logGrows _)

section
variable {s : State} {i : Nat} (hi : i < s.gov.rails.length)
include hi

/-- A rail that shows no fault leaves no event of the alert. -/
theorem State.alertRead_logsFew (hs : s.RailsSettled) {a : Nat × BitVec 16} (ha : ¬Alarm a) : s.LogsFew (s.alertRead i a) 20 := by
  have hfew := s.pmSend_logsFew i pmStatusWord true [] a.1
  obtain ⟨hsend, -⟩ := s.pmSend_onRail hi pmStatusWord true [] a.1
  unfold State.alertRead State.pmRead
  dsimp only
  generalize s.pmSend i pmStatusWord true [] a.1 = u at *
  split
  next h4 =>
    have hstatus := (u.alertStatus_onRail (hsend.talked.length ▸ hi) a.2).1.talked
    rw [State.retarget_settled (hstatus.settled (hsend.talked.settled hs)), State.alertStatus_eq, if_neg fun hb => ha ⟨h4, hb⟩]
    exact hfew.trans (u.railStatus_logsFew i a.2)
  · rw [State.retarget_settled (hsend.talked.settled hs)]
    exact hfew.le (by decide)

/-- A rail other than VCORE's that shows one leaves its event. -/
theorem State.alertRead_logs {a : Nat × BitVec 16} (h0 : i ≠ 0) (ha : Alarm a) (hfr : s.frozen = false) (hlen : s.log.entries.length < 8172) (htokens : s.log.tokens 0x17 < s.logBurst) :
    ∃ e ∈ (s.alertRead i a).log.entries, s.log.entries.length ≤ e.seq ∧ e.code = 0x17 ∧ e.detail0 = packW [(16, i), (0, a.2.toNat)] := by
  obtain ⟨h4, hb⟩ := ha
  have hfew := s.pmSend_logsFew i pmStatusWord true [] a.1
  obtain ⟨hsend, -⟩ := s.pmSend_onRail hi pmStatusWord true [] a.1
  unfold State.alertRead State.pmRead
  dsimp only
  generalize s.pmSend i pmStatusWord true [] a.1 = u at *
  have hall := hsend.talked.trans (u.railStatus_onRail (hsend.talked.length ▸ hi) a.2).1.talked
  rw [if_pos h4, State.alertStatus_eq, if_pos hb, if_neg h0]
  have hgrows := State.retarget_logGrows ((u.railStatus i a.2).logEvent (alertEvent i a.2))
  obtain ⟨⟨suffix, hsuffix⟩, hle, htok⟩ := hfew.trans (u.railStatus_logsFew i a.2)
  generalize u.railStatus i a.2 = v at *
  have hvfr : v.frozen = false := by rw [State.frozen, hall.keeps.2.2.2.2.1, ← State.frozen, hfr]
  have hvburst : v.logBurst = s.logBurst := by rw [State.logBurst, hall.regs _ (by decide) (by decide), State.logBurst]
  have hpasses : v.passes (alertEvent i a.2) := .inr (by
    rw [hvburst]
    exact htok ▸ htokens)
  refine ⟨v.entryOf (alertEvent i a.2), hgrows.subset ?_, ?_, rfl, rfl⟩
  · rw [State.logEvent_recorded hpasses hvfr (by omega)]
    exact List.mem_append_right _ (List.mem_singleton_self _)
  · show s.log.entries.length ≤ v.log.entries.length
    rw [← hsuffix, List.length_append]
    exact Nat.le_add_right _ _

end

/-- Rails that show no fault. -/
theorem State.alertSweep_logsFew {s : State} (hs : s.RailsSettled) (answer : Nat → Nat × BitVec 16) (l : List Nat) (hl : ∀ i ∈ l, i < s.gov.rails.length ∧ ¬Alarm (answer i)) :
    (∃ n e cs rs, s.Talked (s.each l fun s i => s.alertRead i (answer i)) n e cs rs) ∧ s.LogsFew (s.each l fun s i => s.alertRead i (answer i)) (20 * l.length) := by
  induction l using List.reverseRecOn with
  | nil => exact ⟨⟨_, _, _, _, .refl s⟩, .refl s⟩
  | append_singleton l i ih =>
    obtain ⟨⟨n, e, cs, rs, htalked⟩, hfew⟩ := ih fun j hj => hl j (List.mem_append_left _ hj)
    obtain ⟨hi, ha⟩ := hl i (List.mem_append_right _ (List.mem_singleton_self i))
    have heach : s.each (l ++ [i]) (fun s i => s.alertRead i (answer i)) = (s.each l fun s i => s.alertRead i (answer i)).alertRead i (answer i) := List.foldl_append
    rw [heach, List.length_append, List.length_singleton, Nat.mul_add]
    generalize (s.each l fun s i => s.alertRead i (answer i)) = u at *
    exact ⟨⟨_, _, _, _, htalked.trans (State.alertRead_onRail (htalked.length ▸ hi) (htalked.settled hs) (answer i)).1.talked⟩,
      hfew.trans (State.alertRead_logsFew (htalked.length ▸ hi) (htalked.settled hs) ha)⟩

/-- The one rail that shows a fault leaves its event. -/
theorem State.alertSweep_logs {s : State} (hs : s.RailsSettled) (answer : Nat → Nat × BitVec 16) {l1 l2 : List Nat} {i : Nat} (hl : ∀ j ∈ l1, j < s.gov.rails.length ∧ ¬Alarm (answer j)) (hi : i < s.gov.rails.length)
    (h0 : i ≠ 0) (ha : Alarm (answer i)) (hfr : s.frozen = false) (hlen : s.log.entries.length + 20 * l1.length < 8172) (htokens : s.log.tokens 0x17 < s.logBurst) :
    ∃ e ∈ (s.each (l1 ++ i :: l2) fun s i => s.alertRead i (answer i)).log.entries, s.log.entries.length ≤ e.seq ∧ e.code = 0x17 ∧ e.detail0 = packW [(16, i), (0, (answer i).2.toNat)] := by
  obtain ⟨⟨n, e, cs, rs, htalked⟩, ⟨suffix, hsuffix⟩, hle, htok⟩ := State.alertSweep_logsFew hs answer l1 hl
  have heach : s.each (l1 ++ i :: l2) (fun s i => s.alertRead i (answer i)) =
      ((s.each l1 fun s i => s.alertRead i (answer i)).alertRead i (answer i)).each l2 fun s i => s.alertRead i (answer i) := List.foldl_append
  rw [heach]
  generalize (s.each l1 fun s i => s.alertRead i (answer i)) = u at *
  have hufr : u.frozen = false := by rw [State.frozen, htalked.keeps.2.2.2.2.1, ← State.frozen, hfr]
  have hburst : u.logBurst = s.logBurst := by rw [State.logBurst, htalked.regs _ (by decide) (by decide), State.logBurst]
  obtain ⟨entry, hmem, hseq, hcode, hdetail⟩ := State.alertRead_logs (s := u) (htalked.length ▸ hi) h0 ha hufr (by omega) (by rw [htok, hburst]; exact htokens)
  have hgrows := State.LogGrows.each l2 (fun s i => State.alertRead s i (answer i)) (fun v j => v.alertRead_logGrows j _) (u.alertRead i (answer i))
  refine ⟨entry, hgrows.subset hmem, Nat.le_trans ?_ hseq, hcode, hdetail⟩
  rw [← hsuffix, List.length_append]
  exact Nat.le_add_right _ _

/-! ### The sweep -/

/-- Only VCORE's rail reports. -/
theorem flatMap_railReports (tm : Time) (answer : Nat → Nat × BitVec 16) {l : List Nat} (hl : l.Nodup) :
    ((0 ∈ l ∧ Alarm (answer 0)) → l.flatMap (fun i => railReports tm i (answer i)) = [railReport tm]) ∧ (¬(0 ∈ l ∧ Alarm (answer 0)) → l.flatMap (fun i => railReports tm i (answer i)) = []) := by
  have hnone : ∀ l : List Nat, ¬(0 ∈ l ∧ Alarm (answer 0)) → l.flatMap (fun i => railReports tm i (answer i)) = [] := fun l hn => List.flatMap_eq_nil_iff.mpr fun i hi => if_neg (by
    rintro ⟨ha, rfl⟩
    exact hn ⟨hi, ha⟩)
  refine ⟨fun ⟨h0, ha⟩ => ?_, hnone l⟩
  obtain ⟨l1, l2, rfl⟩ := List.append_of_mem h0
  obtain ⟨-, hl2, hd⟩ := List.nodup_append.mp hl
  rw [List.flatMap_append, List.flatMap_cons, hnone l1 fun h => hd 0 h.1 0 List.mem_cons_self rfl, hnone l2 fun h => (List.nodup_cons.mp hl2).1 h.1, railReports, if_pos ⟨ha, rfl⟩]
  rfl

/-- The chip after an alert. -/
structure State.Alerted (s t : State) (answer : Nat → Nat × BitVec 16) : Prop where
  same : t.quires = s.quires ∧ t.sent = s.sent
  shown : s.presentRails ≠ [] → t.Shown
  count : Counted 1 (s.reg (rk 10 0x308)) (t.reg (rk 10 0x308))
  there : ∀ i ∈ s.presentRails, t.rail i = (s.rail i).alerted (answer i)
  absent : ∀ i, i ∉ s.presentRails → t.rail i = s.rail i
  bus : ∃ fs, t.gov.bus = s.gov.bus ++ fs ∧ (fs.map fun f => (f.rail, f.code)) = (s.presentRails.flatMap fun i => (statusCodes (answer i).1 (answer i).2).map fun c => (i, c)) ∧ ∀ f ∈ fs, f.addr = (s.rail f.rail).addr ∧ f.kHz = s.pmKhz
  reports : t.collector.reports = s.collector.reports ++ s.presentRails.flatMap fun i => railReports s.time i (answer i)
  logs : ∀ i, i ≠ 0 → ∀ l1 l2, s.presentRails = l1 ++ i :: l2 → (∀ j ∈ l1, ¬Alarm (answer j)) → Alarm (answer i) → s.frozen = false → s.log.entries.length < 8000 → s.log.tokens 0x17 < s.logBurst →
    ∃ e ∈ t.log.entries, s.log.entries.length ≤ e.seq ∧ e.code = 0x17 ∧ e.detail0 = packW [(16, i), (0, (answer i).2.toNat)]

theorem State.pmAlert_alerted {s : State} (hstep : s.boot.step ≠ 0) (hlen : s.gov.rails.length = 9) (hs : s.RailsSettled) (status : List (Nat × BitVec 16)) :
    s.Alerted (pmAlert status s) fun i => status.getD i (4, 0) := by
  have hcount := s.bump_counted (rk 10 0x308) 1
  have hother : ∀ k, k ≠ rk 10 0x308 → (s.bump (rk 10 0x308)).reg k = s.reg k := fun k hk => s.bump_reg_other _ _ hk
  have hfew := s.bump_logsFew (rk 10 0x308) 1
  obtain ⟨l, c, hshape⟩ := s.bump_shape (rk 10 0x308) 1
  have heq : pmAlert status s = (s.bump (rk 10 0x308)).each s.presentRails fun s i => s.alertRead i (status.getD i (4, 0)) := by
    rw [pmAlert, if_neg hstep]
    rfl
  rw [heq]
  generalize s.bump (rk 10 0x308) = u at *
  have hgov : u.gov = s.gov := by rw [hshape]
  have hrail : ∀ i, u.rail i = s.rail i := fun i => by rw [State.rail, hgov, State.rail]
  have hpresent : u.presentRails = s.presentRails := List.filter_congr fun i _ => by rw [hrail]
  have hsu : u.RailsSettled := by
    have hwanted : ∀ i, u.pmWanted i = s.pmWanted i := fun i => by
      rw [hshape]
      rfl
    have hboot : u.boot = s.boot := by rw [hshape]
    rw [State.RailsSettled, hboot, hpresent, hgov]
    simp only [hwanted]
    exact hs
  have hlt : ∀ i ∈ s.presentRails, i < u.gov.rails.length := fun i hi => by
    rw [hgov, hlen]
    exact (s.presentRails_mem.mp hi).1
  have htime : u.time = s.time := by rw [hshape]
  obtain ⟨htalked, hin, hout, hshown, -⟩ := State.sweep hsu (fun s i => s.alertRead i (status.getD i (4, 0))) (fun i => statusTries (status.getD i (4, 0)).1 (status.getD i (4, 0)).2) (fun i => min 4 (status.getD i (4, 0)).1)
    (fun i => statusCodes (status.getD i (4, 0)).1 (status.getD i (4, 0)).2) (fun i => railReports s.time i (status.getD i (4, 0))) (fun i v => v.alerted (status.getD i (4, 0))) (fun v => v.time = s.time) htime
    (fun v i hi hv ht => by
      have h := State.alertRead_onRail hi hv (status.getD i (4, 0))
      have hkeep := h.1.talked.keeps.2.2.2.1
      rw [ht] at h hkeep
      exact ⟨h, hkeep⟩) s.presentRails (List.nodup_range.filter _) hlt
  have hlogs := fun l1 l2 i hl => State.alertSweep_logs (l1 := l1) (l2 := l2) (i := i) hsu (fun i => status.getD i (4, 0)) hl
  obtain ⟨hquires, hsent, -⟩ := htalked.keeps
  have hreg := htalked.regs (rk 10 0x308) (by decide) (by decide)
  generalize ht : (u.each s.presentRails fun s i => s.alertRead i (status.getD i (4, 0))) = t at *
  refine ⟨⟨hquires.trans (by rw [hshape]), hsent.trans (by rw [hshape])⟩, hshown, ?_, fun i hi => ?_, fun i hi => ?_, ?_, ?_, fun i h0 l1 l2 hl hn ha hfr hlog htok => ?_⟩
  · rw [hreg]
    exact hcount
  · rw [hin i hi, hrail]
  · rw [hout i hi, hrail]
  · have hkhz : u.pmKhz = s.pmKhz := by rw [State.pmKhz, hother _ (by decide), State.pmKhz]
    have hbus := htalked.bus
    simp only [hgov, hrail, hkhz] at hbus
    exact hbus
  · rw [htalked.reports, hshape]
  · have hmem : ∀ j ∈ l1, j ∈ s.presentRails := fun j hj => hl ▸ List.mem_append_left _ hj
    have hi : i ∈ s.presentRails := hl ▸ List.mem_append_right _ List.mem_cons_self
    have hshort : l1.length ≤ 8 := by
      have h9 : s.presentRails.length ≤ 9 := (List.length_filter_le _ _).trans (by rw [List.length_range])
      rw [hl, List.length_append, List.length_cons] at h9
      omega
    have hfr' : u.frozen = false := by
      rw [hshape]
      exact hfr
    have hburst : u.logBurst = s.logBurst := by rw [State.logBurst, hother _ (by decide), State.logBurst]
    have hle := hfew.length
    obtain ⟨entry, hentry, hseq, hrest⟩ := hlogs l1 l2 i (fun j hj => ⟨hlt j (hmem j hj), hn j hj⟩) (hlt i hi) h0 ha hfr' (by omega) (by rw [hfew.tokens, hburst]; exact htok)
    refine ⟨entry, ?_, Nat.le_trans ?_ hseq, hrest⟩
    · rw [← ht, hl]
      exact hentry
    · obtain ⟨suffix, hsuffix⟩ := hfew.grows
      rw [← hsuffix, List.length_append]
      exact Nat.le_add_right _ _

end Sys2Proof.Machine

end

section

/-! # The VCORE target and its command (R718, R731) -/

namespace Sys2Proof.Machine

/-! ### The target -/

/-- What a quire's floor and trim ask of VCORE. -/
def Quire.wantsMv (x : Quire) : Nat := min 1050 (max 700 (x.floorMv + x.trimMv))

/-- The quire holds a floor. -/
def Quire.asks (x : Quire) : Prop := x.state.holdsFloor = true ∧ x.floorMv ≠ 0

/-- The target is the greatest supply asked for, and 850 mV where none is. -/
theorem State.vcoreTarget_eq {s : State} {mv : Nat} (h : (∀ q, ¬(s.quire q).asks) ∧ mv = 850 ∨ (∃ q, (s.quire q).asks ∧ mv = (s.quire q).wantsMv) ∧ ∀ q, (s.quire q).asks → (s.quire q).wantsMv ≤ mv) : s.vcoreTarget = mv := by
  have hmem : ∀ v, v ∈ (((List.finRange 8).filter fun q => (s.quire q).state.holdsFloor && (s.quire q).floorMv ≠ 0).map fun q => (s.quire q).floorMv + (s.quire q).trimMv) ↔ ∃ q, (s.quire q).asks ∧ (s.quire q).floorMv + (s.quire q).trimMv = v := fun v => by
    simp only [List.mem_map, List.mem_filter, List.mem_finRange, true_and, Bool.and_eq_true, decide_eq_true_iff, Quire.asks]
  unfold State.vcoreTarget
  dsimp only
  generalize (((List.finRange 8).filter fun q => (s.quire q).state.holdsFloor && (s.quire q).floorMv ≠ 0).map fun q => (s.quire q).floorMv + (s.quire q).trimMv) = l at *
  rcases h with ⟨hnone, rfl⟩ | ⟨⟨q, hq, rfl⟩, hmax⟩
  · have hnil : l = [] := List.eq_nil_iff_forall_not_mem.mpr fun v hv => by
      obtain ⟨q, hq, -⟩ := (hmem v).mp hv
      exact hnone q hq
    rw [hnil]
    rfl
  · cases hl : l.max? with
    | none =>
      rw [List.max?_eq_none_iff.mp hl] at hmem
      exact absurd ((hmem _).mpr ⟨q, hq, rfl⟩) List.not_mem_nil
    | some v =>
      obtain ⟨hv, hall⟩ := List.max?_eq_some_iff.mp hl
      obtain ⟨g, hg, hgv⟩ := (hmem v).mp hv
      have hle := hmax g hg
      have hq' := hall _ ((hmem _).mpr ⟨q, hq, rfl⟩)
      unfold Quire.wantsMv at *
      dsimp only
      omega

/-! ### The commands -/

/-- The chip after setpoints have gone out to rails that answer. -/
structure State.Retargeted (s t : State) : Prop where
  frame : t = { s with regs := t.regs, log := t.log, collector := { s.collector with satPages := t.collector.satPages }
                       gov := { s.gov with bus := t.gov.bus, rails := t.gov.rails, setpoints := t.gov.setpoints, vcoreUnreachable := t.gov.vcoreUnreachable } }
  bus : s.gov.bus <+: t.gov.bus
  rails : ∀ i, t.rail i = s.rail i
  length : t.gov.setpoints.length = s.gov.setpoints.length
  regs : ∀ k, k ≠ rk 10 0x300 → t.reg k = s.reg k

theorem State.Retargeted.refl (s : State) : s.Retargeted s := ⟨rfl, List.prefix_refl _, fun _ => rfl, rfl, fun _ _ => rfl⟩

theorem State.Retargeted.trans {s t u : State} (h : s.Retargeted t) (h' : t.Retargeted u) : s.Retargeted u where
  frame := by
    have hu := h'.frame
    rw [h.frame] at hu
    exact hu
  bus := h.bus.trans h'.bus
  rails i := (h'.rails i).trans (h.rails i)
  length := h'.length.trans h.length
  regs k hk := (h'.regs k hk).trans (h.regs k hk)

/-- The rail is there and answers. -/
def State.railAnswers (s : State) (i : Nat) : Prop := (s.rail i).present = true ∧ (s.rail i).state ≠ .unreachable

theorem State.railAnswers.lt {s : State} {i : Nat} (h : s.railAnswers i) : i < s.gov.rails.length := by
  by_contra hge
  have hreset : s.rail i = .reset := List.getD_eq_default _ _ (Nat.not_lt.mp hge)
  have hpresent := h.1
  rw [hreset] at hpresent
  cases hpresent

/-- The VOUT_COMMAND of a rail that answers. -/
theorem State.pmSetpoint_retargeted {s : State} {i : Nat} (hi : s.railAnswers i) : s.Retargeted (s.pmSetpoint i) ∧ (s.pmSetpoint i).gov.setpoints = lset s.gov.setpoints i (some (s.pmWanted i))
    ∧ ∃ f : PmFrame, (s.pmSetpoint i).gov.bus = s.gov.bus ++ [f] ∧ f.rail = i ∧ f.code = 0x21 ∧ f.reads = false ∧ f.data = le 2 (linear16 (pmExponent i) (s.pmWanted i)) := by
  obtain ⟨hon, -⟩ := s.pmSend_onRail hi.lt pmVoutCommand false (le 2 (linear16 (pmExponent i) (s.pmWanted i))) 0
  have hreg := fun k (hk : k ≠ rk 10 0x300) => s.pmSend_reg i pmVoutCommand false (le 2 (linear16 (pmExponent i) (s.pmWanted i))) hk
  have hbus : ∃ f : PmFrame, (s.pmSend i pmVoutCommand false (le 2 (linear16 (pmExponent i) (s.pmWanted i))) 0).gov.bus = s.gov.bus ++ [f] ∧ f.rail = i ∧ f.code = 0x21 ∧ f.reads = false
      ∧ f.data = le 2 (linear16 (pmExponent i) (s.pmWanted i)) := by
    obtain ⟨f, hf, hsend⟩ : ∃ f : PmFrame, (f.rail = i ∧ f.code = 0x21 ∧ f.reads = false ∧ f.data = le 2 (linear16 (pmExponent i) (s.pmWanted i))) ∧ s.pmSend i pmVoutCommand false (le 2 (linear16 (pmExponent i) (s.pmWanted i))) 0 =
        ((({ s with gov := { s.gov with bus := s.gov.bus ++ [f] } } : State).pmCounted 0).modRail i fun v => v.tried 0).vcoreReach := ⟨_, ⟨rfl, rfl, rfl, rfl⟩, rfl⟩
    obtain ⟨⟨r, l, c, hshape⟩, -⟩ := State.pmCounted_shape { s with gov := { s.gov with bus := s.gov.bus ++ [f] } } 0
    refine ⟨f, ?_, hf⟩
    rw [hsend, hshape]
    rfl
  have hgoverns := (s.pmSetpoint_governs i).1
  have hset := hon.talked.keeps.2.2.2.2.2
  have hhere := hon.here
  have hother := hon.other
  suffices h : (∀ j, (s.pmSetpoint i).rail j = s.rail j) ∧ (s.pmSetpoint i).gov.setpoints = lset s.gov.setpoints i (some (s.pmWanted i)) ∧ (∀ k, k ≠ rk 10 0x300 → (s.pmSetpoint i).reg k = s.reg k)
      ∧ ∃ f : PmFrame, (s.pmSetpoint i).gov.bus = s.gov.bus ++ [f] ∧ f.rail = i ∧ f.code = 0x21 ∧ f.reads = false ∧ f.data = le 2 (linear16 (pmExponent i) (s.pmWanted i)) by
    obtain ⟨hrails, hsetpoints, hregs, hframe⟩ := h
    exact ⟨⟨hgoverns.frame, hgoverns.bus, hrails, by rw [hsetpoints, lset, List.length_set], hregs⟩, hsetpoints, hframe⟩
  unfold State.pmSetpoint
  dsimp only
  generalize s.pmSend i pmVoutCommand false (le 2 (linear16 (pmExponent i) (s.pmWanted i))) 0 = u at *
  refine ⟨fun j => ?_, by rw [hset], hreg, hbus⟩
  show u.rail j = s.rail j
  rcases eq_or_ne j i with rfl | hj
  · rw [hhere, RailView.tried, if_neg (by decide), if_neg hi.2]
  · exact hother j hj

/-- Setpoints to rails that answer; rail 0's stands where it gets none. -/
theorem State.pmSetpoints_retargeted {s : State} (l : List Nat) (hl : ∀ i ∈ l, s.railAnswers i) : s.Retargeted (s.each l State.pmSetpoint) ∧ (0 ∉ l → (s.each l State.pmSetpoint).gov.setpoints.getD 0 none = s.gov.setpoints.getD 0 none) := by
  induction l using List.reverseRecOn with
  | nil => exact ⟨.refl s, fun _ => rfl⟩
  | append_singleton l i ih =>
    obtain ⟨hall, hzero⟩ := ih fun j hj => hl j (List.mem_append_left _ hj)
    have heach : s.each (l ++ [i]) State.pmSetpoint = (s.each l State.pmSetpoint).pmSetpoint i := List.foldl_append
    rw [heach]
    generalize s.each l State.pmSetpoint = u at *
    have hi : u.railAnswers i := by
      rw [State.railAnswers, hall.rails]
      exact hl i (List.mem_append_right _ (List.mem_singleton_self i))
    obtain ⟨hset, hsetpoints, -⟩ := State.pmSetpoint_retargeted hi
    refine ⟨hall.trans hset, fun h0 => ?_⟩
    have hne : i ≠ 0 := fun h => h0 (List.mem_append_right _ (List.mem_singleton.mpr h.symm))
    rw [hsetpoints, lset, List.getD_eq_getElem?_getD, List.getElem?_set_ne hne, ← List.getD_eq_getElem?_getD]
    exact hzero fun h => h0 (List.mem_append_left _ h)

/-- The setpoints that have changed go out; VCORE's among them. -/
theorem State.retarget_retargeted (s : State) : s.Retargeted s.retarget ∧ (7 ≤ s.boot.step → s.gov.setpoints.length = 9 → s.railAnswers 0 → s.retarget.gov.setpoints.getD 0 none = some s.vcoreTarget
    ∧ (s.gov.setpoints.getD 0 none ≠ some s.vcoreTarget → ∃ f, f ∈ s.retarget.gov.bus.drop s.gov.bus.length ∧ f.rail = 0 ∧ f.code = 0x21 ∧ f.reads = false ∧ f.data = le 2 (linear16 (pmExponent 0) s.vcoreTarget))) := by
  have hdue : ∀ i, s.pmDue i = true → s.railAnswers i := fun i hi => by
    simp only [State.pmDue, Bool.and_eq_true, decide_eq_true_iff] at hi
    exact ⟨hi.1.1.2, hi.1.2⟩
  have hl : ∀ i ∈ (List.range 9).filter s.pmDue, s.railAnswers i := fun i hi => hdue i (List.mem_filter.mp hi).2
  obtain ⟨hall, hzero⟩ := State.pmSetpoints_retargeted _ hl
  refine ⟨hall, fun hstep hlen h0 => ?_⟩
  have hdue0 : s.pmDue 0 = true ↔ s.gov.setpoints.getD 0 none ≠ some s.vcoreTarget := by
    simp only [State.pmDue, Bool.and_eq_true, decide_eq_true_iff, hstep, h0.1, h0.2, State.pmWanted, if_pos, and_self, true_and, ne_eq, not_false_eq_true]
  by_cases hset : s.gov.setpoints.getD 0 none = some s.vcoreTarget
  · refine ⟨(hzero fun hmem => ?_).trans hset, fun hne => absurd hset hne⟩
    exact hdue0.mp (List.mem_filter.mp hmem).2 hset
  · have hcons : (List.range 9).filter s.pmDue = 0 :: ([1, 2, 3, 4, 5, 6, 7, 8].filter s.pmDue) := List.filter_cons_of_pos (hdue0.mpr hset)
    have heach : s.retarget = (s.pmSetpoint 0).each ([1, 2, 3, 4, 5, 6, 7, 8].filter s.pmDue) State.pmSetpoint := by
      rw [State.retarget, hcons]
      rfl
    obtain ⟨hfirst, hsetpoints, f, hbus, hf⟩ := State.pmSetpoint_retargeted h0
    obtain ⟨hrest, hkeep⟩ := State.pmSetpoints_retargeted (s := s.pmSetpoint 0) ([1, 2, 3, 4, 5, 6, 7, 8].filter s.pmDue) fun i hi => by
      rw [State.railAnswers, hfirst.rails]
      exact hdue i (List.mem_filter.mp hi).2
    rw [heach]
    refine ⟨?_, fun _ => ⟨f, ?_, hf⟩⟩
    · rw [hkeep fun h => absurd (List.mem_filter.mp h).1 (by decide), hsetpoints, lset, List.getD_eq_getElem?_getD, List.getElem?_set_self (by omega)]
      rfl
    · obtain ⟨suffix, hsuffix⟩ := hrest.bus
      rw [← hsuffix, hbus, List.append_assoc, List.drop_left]
      exact List.mem_cons_self

end Sys2Proof.Machine

end

section

/-! # Trim, floors, and EI_EN of the links (R715 to R718, R727) -/

namespace Sys2Proof.Machine

/-! ### A sweep over the quires -/

/-- The chip after a step that makes quire `q` into `x`. -/
structure State.MakesQuire (q : QId) (s t : State) (x : Quire) : Prop where
  frame : t = { s with regs := t.regs, log := t.log, collector := { s.collector with satPages := t.collector.satPages }, quires := t.quires }
  here : t.quire q = x
  other : ∀ r, r ≠ q → t.quire r = s.quire r

theorem State.setQuire_makes (s : State) (q : QId) (x : Quire) : State.MakesQuire q s (s.setQuire q x) x := ⟨rfl, s.quire_setQuire_same q x, fun r hr => s.quire_setQuire_other q r x hr⟩

theorem State.MakesQuire.bump {s t : State} {q : QId} {x : Quire} (h : State.MakesQuire q s t x) (k n : Nat) : State.MakesQuire q s (t.bump k n) x := by
  obtain ⟨l, c, hshape⟩ := t.bump_shape k n
  have hquires : (t.bump k n).quires = t.quires := by rw [hshape]
  have hquire : ∀ r, (t.bump k n).quire r = t.quire r := fun r => by rw [State.quire, hquires, State.quire]
  refine ⟨?_, (hquire q).trans h.here, fun r hr => (hquire r).trans (h.other r hr)⟩
  generalize t.bump k n = u at *
  rw [hshape, h.frame]

/-- Every quire takes its step, and what the steps do besides adds up. -/
theorem State.turnQuires (s : State) (step : State → QId → State) (g : QId → Quire → Quire) (P : List QId → State → Prop) (hP : P [] s)
    (hstep : ∀ u : State, ∀ l q, q ∉ l → u.gov = s.gov → u.quire q = s.quire q → P l u → State.MakesQuire q u (step u q) (g q (s.quire q)) ∧ P (l ++ [q]) (step u q)) (l : List QId) (hl : l.Nodup) :
    ∃ t, s.each l step = t ∧ t = { s with regs := t.regs, log := t.log, collector := { s.collector with satPages := t.collector.satPages }, quires := t.quires }
    ∧ (∀ q ∈ l, t.quire q = g q (s.quire q)) ∧ (∀ q, q ∉ l → t.quire q = s.quire q) ∧ P l t := by
  induction l using List.reverseRecOn with
  | nil => exact ⟨s, rfl, rfl, nofun, fun _ _ => rfl, hP⟩
  | append_singleton l q ih =>
    obtain ⟨hl', -, hd⟩ := List.nodup_append.mp hl
    have hq : q ∉ l := fun h => hd q h q (List.mem_singleton_self q) rfl
    obtain ⟨u, hu, hframe, hin, hout, hPl⟩ := ih hl'
    have heach : s.each (l ++ [q]) step = step (s.each l step) q := List.foldl_append
    rw [heach, hu]
    have hgov : u.gov = s.gov := by rw [hframe]
    obtain ⟨hturns, hPt⟩ := hstep u l q hq hgov (hout q hq) hPl
    generalize step u q = t at *
    refine ⟨t, rfl, ?_, fun r hr => ?_, fun r hr => ?_, hPt⟩
    · have ht := hturns.frame
      rw [hframe] at ht
      exact ht
    · rcases List.mem_append.mp hr with hr | hr
      · rw [hturns.other r fun h => hq (h ▸ hr)]
        exact hin r hr
      · obtain rfl := List.mem_singleton.mp hr
        exact hturns.here
    · rw [hturns.other r fun h => hr (List.mem_append_right _ (List.mem_singleton.mpr h))]
      exact hout r fun h => hr (List.mem_append_left _ h)

/-! ### Trim -/

/-- The quire after a trim period (R717). -/
def Quire.trimmed (x : Quire) : Quire :=
  if x.state ≠ .running then x
  else if x.lowestFill < 16384 then { x with lowestFill := x.fill, trimMv := min 350 (x.trimMv + 20), highFill := 0 }
  else if x.lowestFill < 28672 then { x with lowestFill := x.fill, highFill := 0 }
  else if x.highFill + 1 < 10 then { x with lowestFill := x.fill, highFill := x.highFill + 1 }
  else { x with lowestFill := x.fill, highFill := 0, trimMv := x.trimMv - 5 }

/-- How often its trim counts. -/
def Quire.trimCount (x : Quire) : Nat := if x.state = .running ∧ x.lowestFill < 16384 ∧ x.trimMv < 350 then 1 else 0

def trimKey (q : QId) : Nat := rk 5 (0x108 + 0x10 * q.val)

theorem trimKey_injective {q r : QId} (h : trimKey q = trimKey r) : q = r := by
  unfold trimKey rk at h
  exact Fin.ext (by omega)

theorem State.trimQuire_makes (s : State) (q : QId) : State.MakesQuire q s (s.trimQuire q) (s.quire q).trimmed ∧ Counted (s.quire q).trimCount (s.reg (trimKey q)) ((s.trimQuire q).reg (trimKey q))
    ∧ ∀ k, k ≠ trimKey q → (s.trimQuire q).reg k = s.reg k := by
  have hkeep : ∀ x, State.MakesQuire q s (s.setQuire q x) x ∧ Counted 0 (s.reg (trimKey q)) ((s.setQuire q x).reg (trimKey q)) ∧ ∀ k, k ≠ trimKey q → (s.setQuire q x).reg k = s.reg k :=
    fun x => ⟨s.setQuire_makes q x, .refl _, fun _ _ => rfl⟩
  have hcount : ∀ x, State.MakesQuire q s ((s.setQuire q x).bump (trimKey q)) x ∧ Counted 1 (s.reg (trimKey q)) (((s.setQuire q x).bump (trimKey q)).reg (trimKey q))
      ∧ ∀ k, k ≠ trimKey q → ((s.setQuire q x).bump (trimKey q)).reg k = s.reg k :=
    fun x => ⟨(s.setQuire_makes q x).bump _ _, (s.setQuire q x).bump_counted _ _, fun k hk => (s.setQuire q x).bump_reg_other _ _ hk⟩
  unfold State.trimQuire Quire.trimmed Quire.trimCount
  dsimp only
  by_cases hrun : (s.quire q).state = .running
  · rw [if_neg (not_not_intro hrun), if_neg (not_not_intro hrun)]
    by_cases hlow : (s.quire q).lowestFill < 16384
    · simp only [if_pos hlow]
      by_cases htrim : (s.quire q).trimMv < 350
      · rw [if_pos htrim, if_pos ⟨hrun, hlow, htrim⟩]
        exact hcount _
      · rw [if_neg htrim, if_neg fun h => htrim h.2.2]
        exact hkeep _
    · simp only [if_neg hlow]
      rw [if_neg (c := _ ∧ _ ∧ _) fun h => hlow h.2.1]
      split
      · exact hkeep _
      · split
        · exact hkeep _
        · exact hkeep _
  · rw [if_pos hrun, if_pos hrun, if_neg fun h => hrun h.1]
    exact ⟨⟨rfl, rfl, fun _ _ => rfl⟩, .refl _, fun _ _ => rfl⟩

/-- The trims of all quires. -/
theorem State.trims (s : State) :
    ∃ t, s.each (List.finRange 8) State.trimQuire = t ∧ t = { s with regs := t.regs, log := t.log, collector := { s.collector with satPages := t.collector.satPages }, quires := t.quires }
    ∧ ∀ q, t.quire q = (s.quire q).trimmed ∧ Counted (s.quire q).trimCount (s.reg (trimKey q)) (t.reg (trimKey q)) := by
  obtain ⟨t, ht, hframe, hin, -, hregs, -⟩ := s.turnQuires State.trimQuire (fun _ x => x.trimmed)
    (fun l u => (∀ q ∈ l, Counted (s.quire q).trimCount (s.reg (trimKey q)) (u.reg (trimKey q))) ∧ ∀ q, q ∉ l → u.reg (trimKey q) = s.reg (trimKey q)) ⟨nofun, fun _ _ => rfl⟩
    (fun u l q hq _ hquire hP => by
      obtain ⟨hturns, hcount, hother⟩ := u.trimQuire_makes q
      obtain ⟨hin, hout⟩ := hP
      rw [hquire] at hturns hcount
      refine ⟨hturns, fun r hr => ?_, fun r hr => ?_⟩
      · rcases List.mem_append.mp hr with hr | hr
        · rw [hother _ fun h => hq (trimKey_injective h ▸ hr)]
          exact hin r hr
        · obtain rfl := List.mem_singleton.mp hr
          rw [← hout _ hq]
          exact hcount
      · rw [hother _ fun h => hr (List.mem_append_right _ (List.mem_singleton.mpr (trimKey_injective h)))]
        exact hout r fun h => hr (List.mem_append_left _ h)) (List.finRange 8) (List.nodup_finRange 8)
  exact ⟨t, ht, hframe, fun q => ⟨hin q (List.mem_finRange q), hregs q (List.mem_finRange q)⟩⟩

/-! ### Floors -/

/-- The flows of a quire fit at a supply. -/
def Quire.fits (x : Quire) (temp : Int) (mv : Nat) : Bool := x.playedSigs.all fun s => decide (x.flowShare s ≠ 0) && fastEnough mv temp (x.flowShare s) (x.sig s).ops (x.sig s).period

/-- The steps of the supply. -/
def SupplyStep (mv : Nat) : Prop := 700 ≤ mv ∧ mv ≤ 1050 ∧ mv % 5 = 0

theorem mem_supplySteps (mv : Nat) : mv ∈ (List.range 71).map (fun i => 700 + 5 * i) ↔ SupplyStep mv := by
  simp only [List.mem_map, List.mem_range, SupplyStep]
  constructor
  · rintro ⟨i, hi, rfl⟩
    omega
  · rintro ⟨h1, h2, h3⟩
    exact ⟨(mv - 700) / 5, by omega, by omega⟩

/-- The floor is the least supply that fits. -/
theorem Quire.floorAt_least {x : Quire} {temp : Int} {mv : Nat} (hmv : SupplyStep mv) (hfits : x.fits temp mv = true) (hleast : ∀ m, SupplyStep m → m < mv → x.fits temp m = false) : x.floorAt temp = (mv, false) := by
  have hfind : ((List.range 71).map fun i => 700 + 5 * i).find? (x.fits temp) = some mv := by
    obtain ⟨h1, h2, h3⟩ := hmv
    refine List.find?_eq_some_iff_getElem.mpr ⟨hfits, (mv - 700) / 5, by rw [List.length_map, List.length_range]; omega, by rw [List.getElem_map, List.getElem_range]; omega, fun j hj => ?_⟩
    rw [List.getElem_map, List.getElem_range, hleast (700 + 5 * j) ⟨by omega, by omega, by omega⟩ (by omega)]
    rfl
  unfold Quire.floorAt
  dsimp only
  split
  next m hm =>
    obtain rfl := Option.some.inj (hfind.symm.trans hm)
    rfl
  next hm => cases hfind.symm.trans hm

theorem Quire.floorAt_none {x : Quire} {temp : Int} (h : ∀ m, SupplyStep m → x.fits temp m = false) : x.floorAt temp = (1050, true) := by
  have hfind : ((List.range 71).map fun i => 700 + 5 * i).find? (x.fits temp) = none := List.find?_eq_none.mpr fun m hm => by
    rw [h m ((mem_supplySteps m).mp hm)]
    exact Bool.false_ne_true
  unfold Quire.floorAt
  dsimp only
  split
  next m hm => cases hfind.symm.trans hm
  · rfl

/-- The floor that a quire takes, and whether it is clipped. -/
def Quire.floorFor (x : Quire) (temp : Int) : Nat × Bool := if x.state.holdsFloor then x.floorAt temp else (0, false)

theorem State.setFloor_eq (s : State) (q : QId) : s.setFloor q = if ((s.quire q).floorFor (s.quireTemp q)).2 then (s.setQuire q { s.quire q with floorMv := ((s.quire q).floorFor (s.quireTemp q)).1 }).bump (rk 5 0x314)
    else s.setQuire q { s.quire q with floorMv := ((s.quire q).floorFor (s.quireTemp q)).1 } := by
  unfold State.setFloor Quire.floorFor
  split <;> rfl

theorem State.setFloor_makes (s : State) (q : QId) : State.MakesQuire q s (s.setFloor q) { s.quire q with floorMv := ((s.quire q).floorFor (s.quireTemp q)).1 }
    ∧ (((s.quire q).floorFor (s.quireTemp q)).2 = true ∨ s.reg (rk 5 0x314) ≠ 0 → (s.setFloor q).reg (rk 5 0x314) ≠ 0) := by
  rw [State.setFloor_eq]
  have hset := s.setQuire_makes q { s.quire q with floorMv := ((s.quire q).floorFor (s.quireTemp q)).1 }
  have hreg : (s.setQuire q { s.quire q with floorMv := ((s.quire q).floorFor (s.quireTemp q)).1 }).reg (rk 5 0x314) = s.reg (rk 5 0x314) := rfl
  generalize s.setQuire q { s.quire q with floorMv := ((s.quire q).floorFor (s.quireTemp q)).1 } = u at *
  by_cases hclip : ((s.quire q).floorFor (s.quireTemp q)).2 = true
  · rw [if_pos hclip]
    refine ⟨hset.bump _ _, fun _ h0 => ?_⟩
    have hcount := u.bump_counted (rk 5 0x314) 1
    rw [Counted, h0] at hcount
    change 0 = min (_ + 1) _ at hcount
    omega
  · rw [if_neg hclip]
    exact ⟨hset, fun h => hreg ▸ h.resolve_left hclip⟩

/-- The floors of all quires. -/
theorem State.floors (s : State) :
    ∃ t, s.each (List.finRange 8) State.setFloor = t ∧ t = { s with regs := t.regs, log := t.log, collector := { s.collector with satPages := t.collector.satPages }, quires := t.quires }
    ∧ ∀ q, t.quire q = { s.quire q with floorMv := ((s.quire q).floorFor (s.quireTemp q)).1 } ∧ (((s.quire q).floorFor (s.quireTemp q)).2 = true → t.reg (rk 5 0x314) ≠ 0) := by
  obtain ⟨t, ht, hframe, hin, -, hclipped⟩ := s.turnQuires State.setFloor (fun q x => { x with floorMv := (x.floorFor (s.quireTemp q)).1 })
    (fun l u => ∀ q ∈ l, ((s.quire q).floorFor (s.quireTemp q)).2 = true → u.reg (rk 5 0x314) ≠ 0) nofun
    (fun u l q _ hgov hquire hP => by
      obtain ⟨hturns, hclip⟩ := u.setFloor_makes q
      have htemp : u.quireTemp q = s.quireTemp q := by rw [State.quireTemp, hgov, State.quireTemp]
      rw [hquire, htemp] at hturns hclip
      refine ⟨hturns, fun r hr hc => hclip ?_⟩
      rcases List.mem_append.mp hr with hr | hr
      · exact .inr (hP r hr hc)
      · obtain rfl := List.mem_singleton.mp hr
        exact .inl hc) (List.finRange 8) (List.nodup_finRange 8)
  exact ⟨t, ht, hframe, fun q => ⟨hin q (List.mem_finRange q), hclipped q (List.mem_finRange q)⟩⟩

/-! ### EI_EN -/

theorem eiKey_injective {k j : LinkId} (h : eiKey k = eiKey j) : k = j := by
  unfold eiKey rk at h
  exact Fin.ext (by omega)

theorem clrBit_getLsbD (m : Word) (i : Nat) {j : Nat} (hj : j < 32) : (clrBit m i).getLsbD j = (m.getLsbD j && !decide (j = i)) := by
  rw [clrBit, BitVec.getLsbD_and, BitVec.getLsbD_not, BitVec.getLsbD_ofNat, decide_eq_true hj, Bool.true_and, Bool.true_and, Nat.testBit_two_pow]
  simp only [eq_comm]

theorem bit_putBit_same (m : Word) (v : Bool) {i : Nat} (hi : i < 32) : bit (putBit m i v) i = v := by
  unfold bit putBit
  cases v
  · rw [if_neg Bool.false_ne_true, clrBit_getLsbD m i hi, decide_eq_true rfl, Bool.not_true, Bool.and_false]
  · rw [if_pos rfl, setBit_getLsbD m i hi, decide_eq_true rfl, Bool.or_true]

theorem bit_putBit_other (m : Word) (v : Bool) {i j : Nat} (hj : j ≠ i) : bit (putBit m i v) j = bit m j := by
  unfold bit putBit
  by_cases h : j < 32
  · cases v
    · rw [if_neg Bool.false_ne_true, clrBit_getLsbD m i h, decide_eq_false hj, Bool.not_false, Bool.and_true]
    · rw [if_pos rfl, setBit_getLsbD m i h, decide_eq_false hj, Bool.or_false]
  · rw [BitVec.getLsbD_of_ge _ _ (Nat.not_lt.mp h), BitVec.getLsbD_of_ge _ _ (Nat.not_lt.mp h)]

/-- Whether a link may idle rests on no register that the evaluation writes. -/
theorem State.mayIdle_congr {s t : State} (h : t = { s with regs := t.regs }) (hregs : ∀ r, (∀ k, r ≠ eiKey k) → t.reg r = s.reg r) (k : LinkId) : t.mayIdle k = s.mayIdle k := by
  have hlow : ∀ r, r < rk 4 0x108 → t.reg r = s.reg r := fun r hr => hregs r fun j hj => by
    unfold eiKey at hj
    unfold rk at hj hr
    omega
  have hptp : t.ptpEn k = s.ptpEn k := by rw [State.ptpEn, hlow _ (by decide), State.ptpEn]
  have href : t.refLane = s.refLane := by rw [State.refLane, hlow _ (by decide), State.refLane]
  have hlink : t.link k = s.link k := by
    rw [h]
    rfl
  have hquire : t.quire = s.quire := by
    rw [h]
    rfl
  rw [State.mayIdle, hptp, href, hlink, hquire, State.mayIdle]

/-- The evaluation of some links. -/
theorem State.eiLinks (s : State) (l : List LinkId) (hl : l.Nodup) :
    ∃ t, s.each l (fun s k => s.setEiEn k (s.mayIdle k)) = t ∧ t = { s with regs := t.regs } ∧ (∀ r, (∀ k, r ≠ eiKey k) → t.reg r = s.reg r) ∧ (∀ k ∈ l, t.reg (eiKey k) = putBit (s.reg (eiKey k)) 31 (s.mayIdle k)) ∧ ∀ k, k ∉ l → t.reg (eiKey k) = s.reg (eiKey k) := by
  induction l using List.reverseRecOn with
  | nil => exact ⟨s, rfl, rfl, fun _ _ => rfl, nofun, fun _ _ => rfl⟩
  | append_singleton l j ih =>
    obtain ⟨hl', -, hd⟩ := List.nodup_append.mp hl
    have hj : j ∉ l := fun h => hd j h j (List.mem_singleton_self j) rfl
    obtain ⟨u, hu, hframe, hregs, hin, hout⟩ := ih hl'
    have heach : s.each (l ++ [j]) (fun s k => s.setEiEn k (s.mayIdle k)) = (s.each l fun s k => s.setEiEn k (s.mayIdle k)).setEiEn j ((s.each l fun s k => s.setEiEn k (s.mayIdle k)).mayIdle j) := List.foldl_append
    rw [heach, hu, State.mayIdle_congr hframe hregs]
    have hsame : (u.setEiEn j (s.mayIdle j)).reg (eiKey j) = putBit (u.reg (eiKey j)) 31 (s.mayIdle j) := by
      rw [State.setEiEn, State.reg, State.setReg]
      exact sget_sput_same _ _ _ _
    have hother : ∀ r, r ≠ eiKey j → (u.setEiEn j (s.mayIdle j)).reg r = u.reg r := fun r hr => by
      rw [State.setEiEn, State.reg, State.setReg]
      exact sget_sput_other _ _ _ _ _ hr
    have hset : u.setEiEn j (s.mayIdle j) = { u with regs := (u.setEiEn j (s.mayIdle j)).regs } := rfl
    generalize u.setEiEn j (s.mayIdle j) = t at *
    refine ⟨t, rfl, ?_, fun r hr => (hother r (hr j)).trans (hregs r hr), fun k hk => ?_, fun k hk => ?_⟩
    · rw [hframe] at hset
      exact hset
    · rcases List.mem_append.mp hk with hk | hk
      · rw [hother _ fun h => hj (eiKey_injective h ▸ hk)]
        exact hin k hk
      · obtain rfl := List.mem_singleton.mp hk
        rw [hsame, hout _ hj]
    · rw [hother _ fun h => hk (List.mem_append_right _ (List.mem_singleton.mpr (eiKey_injective h)))]
      exact hout k fun h => hk (List.mem_append_left _ h)

end Sys2Proof.Machine

end

section

namespace Sys2Proof.Machine

/-! ### The forms of the telemetry -/

theorem statusBad_iff (w : BitVec 16) : statusBad w = true ↔ w.getLsbD 15 = true ∨ w.getLsbD 6 = true := by
  rw [statusBad, Bool.or_eq_true]

section
variable (x : RailTransfer) {P : Prop} [Decidable P] (h : (x.fails.getD 0 0 < 4 ∧ statusBad x.reading.status = true) ↔ P)
include h

theorem railCodes_eq : railCodes x = [0x79] ++ (if P then [0x03] else []) ++ [0x8B, 0x8C, 0x8D] := by
  rw [railCodes, statusCodes, if_congr h rfl rfl]
  split <;> rfl

theorem railTries_eq : railTries x = ((List.range 4).map fun j => min 4 (x.fails.getD j 0 + 1)).sum + if P then 1 else 0 := by
  rw [railTries, statusTries, if_congr h rfl rfl]
  show _ = List.sum [min 4 (x.fails.getD 0 0 + 1), min 4 (x.fails.getD 1 0 + 1), min 4 (x.fails.getD 2 0 + 1), min 4 (x.fails.getD 3 0 + 1)] + _
  simp only [List.sum_cons, List.sum_nil]
  omega

theorem RailView.read_form (v : RailView) : v.read x = { v with
    vout := if x.fails.getD 1 0 < 4 then x.reading.vout else v.vout, iout := if x.fails.getD 2 0 < 4 then x.reading.iout else v.iout
    temp := if x.fails.getD 3 0 < 4 then x.reading.temp else v.temp, status := if x.fails.getD 0 0 < 4 then x.reading.status else v.status
    state := if ¬x.fails.getD 3 0 < 4 then .unreachable else if P ∧ x.fails.getD 1 0 < 4 ∧ x.fails.getD 2 0 < 4 then .fault else .ok } := by
  rw [RailView.read, if_congr (and_congr_left' h) rfl rfl]

end

theorem railErrors_eq (x : RailTransfer) : railErrors x = ((List.range 4).map fun j => min 4 (x.fails.getD j 0)).sum := by
  rw [railErrors]
  show _ = List.sum [min 4 (x.fails.getD 0 0), min 4 (x.fails.getD 1 0), min 4 (x.fails.getD 2 0), min 4 (x.fails.getD 3 0)]
  simp only [List.sum_cons, List.sum_nil]
  omega

theorem statusCodes_eq (a : Nat × BitVec 16) {P : Prop} [Decidable P] (h : Alarm a ↔ P) : statusCodes a.1 a.2 = [0x79] ++ if P then [0x03] else [] := by
  have h' : (a.1 < 4 ∧ statusBad a.2 = true) ↔ P := h
  rw [statusCodes, if_congr h' rfl rfl]
  rfl

theorem RailView.alerted_lost (v : RailView) {a : Nat × BitVec 16} (h : 4 ≤ a.1) : v.alerted a = { v with state := .unreachable } := by
  rw [RailView.alerted, if_neg (Nat.not_lt.mpr h)]

theorem RailView.alerted_shown (v : RailView) {a : Nat × BitVec 16} (h : a.1 < 4) {P : Prop} [Decidable P] (hP : statusBad a.2 = true ↔ P) : v.alerted a = { v with status := a.2, state := if P then .fault else .ok } := by
  rw [RailView.alerted, if_pos h, if_congr hP rfl rfl]

theorem State.SameQuires.of_quires {s t : State} (h : t.quires = s.quires) (hsent : t.sent = s.sent) : s.SameQuires t := by
  refine ⟨fun q => ?_, hsent⟩
  have hq : t.quire q = s.quire q := by rw [State.quire, h, State.quire]
  rw [hq]

/-- The rails that are shown unreachable. -/
theorem State.Shown.iff {t : State} (h : t.Shown) : (t.rail 0).state = .unreachable ↔ t.gov.vcoreUnreachable = true := by
  rw [h, decide_eq_true_iff]

/-! ### The forms of the target -/

/-- A change of setpoints after a step that leaves the governor. -/
theorem State.retarget_targets {s u : State} (hgov : u.gov = s.gov) (hboot : u.boot = s.boot) :
    u.retarget.gov = { s.gov with bus := u.retarget.gov.bus, setpoints := u.retarget.gov.setpoints, rails := u.retarget.gov.rails, vcoreUnreachable := u.retarget.gov.vcoreUnreachable }
    ∧ (∀ i, u.retarget.rail i = s.rail i)
    ∧ ∀ mv, (∀ q, ¬(u.retarget.quire q).asks) ∧ mv = 850 ∨ (∃ q, (u.retarget.quire q).asks ∧ mv = (u.retarget.quire q).wantsMv) ∧ (∀ q, (u.retarget.quire q).asks → (u.retarget.quire q).wantsMv ≤ mv) →
      (7 ≤ s.boot.step → s.gov.setpoints.length = 9 → (s.rail 0).present = true → (s.rail 0).state ≠ .unreachable →
        u.retarget.gov.setpoints.getD 0 none = some mv
        ∧ (s.gov.setpoints.getD 0 none ≠ some mv → ∃ f, f ∈ u.retarget.gov.bus.drop s.gov.bus.length ∧ f.rail = 0 ∧ f.code = 0x21 ∧ f.reads = false ∧ f.data = le 2 (linear16 (pmExponent 0) mv))) := by
  obtain ⟨hall, htarget⟩ := u.retarget_retargeted
  have hframe := hall.frame
  have hrails := hall.rails
  generalize u.retarget = t at *
  have hquire : ∀ q, t.quire q = u.quire q := fun q => by
    rw [hframe]
    rfl
  have hrail : ∀ i, u.rail i = s.rail i := fun i => by rw [State.rail, hgov, State.rail]
  refine ⟨?_, fun i => (hrails i).trans (hrail i), fun mv hmv hstep hlen hpresent hreach => ?_⟩
  · rw [← hgov]
    exact (congrArg State.gov hframe).trans rfl
  · simp only [hquire] at hmv
    have hmv' := State.vcoreTarget_eq hmv
    have h := htarget (hboot ▸ hstep) (hgov ▸ hlen) ⟨by rw [hrail]; exact hpresent, by rw [hrail]; exact hreach⟩
    rw [hmv', hgov] at h
    exact h

/-- What a change of setpoints leaves. -/
theorem State.retarget_keeps (u : State) : (∀ q, u.retarget.quire q = u.quire q) ∧ u.retarget.collector.reports = u.collector.reports ∧ ∀ k, k ≠ rk 10 0x300 → u.retarget.reg k = u.reg k := by
  obtain ⟨hall, -⟩ := u.retarget_retargeted
  have hframe := hall.frame
  have hregs := hall.regs
  generalize u.retarget = t at *
  refine ⟨fun q => ?_, ?_, hregs⟩
  · rw [hframe]
    rfl
  · rw [hframe]

/-! ### The cases of a trim -/

section
variable {x : Quire}

theorem Quire.trimmed_idle (h : x.state ≠ .running) : x.trimmed = x ∧ x.trimCount = 0 := ⟨if_pos h, if_neg fun h' => h h'.1⟩

variable (hrun : x.state = .running)
include hrun

theorem Quire.trimmed_low (h : x.lowestFill < 16384) : x.trimmed = { x with lowestFill := x.fill, trimMv := min 350 (x.trimMv + 20), highFill := 0 } ∧ x.trimCount = if x.trimMv < 350 then 1 else 0 := by
  rw [Quire.trimmed, if_neg (not_not_intro hrun), if_pos h, Quire.trimCount]
  exact ⟨rfl, if_congr (by simp only [hrun, h, true_and]) rfl rfl⟩

variable (h : 16384 ≤ x.lowestFill)
include h

omit hrun in
theorem Quire.trimCount_high : x.trimCount = 0 := if_neg fun h' => absurd h'.2.1 (Nat.not_lt.mpr h)

theorem Quire.trimmed_fair (h' : x.lowestFill < 28672) : x.trimmed = { x with lowestFill := x.fill, highFill := 0 } := by
  rw [Quire.trimmed, if_neg (not_not_intro hrun), if_neg (Nat.not_lt.mpr h), if_pos h']

theorem Quire.trimmed_high (h' : 28672 ≤ x.lowestFill) (h9 : x.highFill < 9) : x.trimmed = { x with lowestFill := x.fill, highFill := x.highFill + 1 } := by
  rw [Quire.trimmed, if_neg (not_not_intro hrun), if_neg (Nat.not_lt.mpr h), if_neg (Nat.not_lt.mpr h'), if_pos (by omega)]

theorem Quire.trimmed_tenth (h' : 28672 ≤ x.lowestFill) (h9 : 9 ≤ x.highFill) : x.trimmed = { x with lowestFill := x.fill, highFill := 0, trimMv := x.trimMv - 5 } := by
  rw [Quire.trimmed, if_neg (not_not_intro hrun), if_neg (Nat.not_lt.mpr h), if_neg (Nat.not_lt.mpr h'), if_neg (by omega)]

end

/-! ### Floors and links -/

theorem Quire.fits_iff (x : Quire) (temp : Int) (mv : Nat) : x.fits temp mv = true ↔ ∀ g ∈ x.playedSigs, min 16 (x.flowEngines / (if x.shadowed g then 2 else 1) - 1) ≠ 0
    ∧ (5 * (x.sig g).ops * 1000000 : ℚ) ≤ engineSpeed mv temp * 1024 * (min 16 (x.flowEngines / (if x.shadowed g then 2 else 1) - 1) : Nat) * (x.sig g).period * 4 := by
  simp only [Quire.fits, List.all_eq_true, Bool.and_eq_true, fastEnough, Quire.flowShare]
  exact forall₂_congr fun g _ => and_congr decide_eq_true_iff decide_eq_true_iff

theorem State.mayIdle_iff (s : State) (k : LinkId) : s.mayIdle k = true ↔ bit (s.reg (rk 2 0x1C)) k.val = false ∧ (s.link k).holds (fld (s.reg (rk 1 0)) 16 4) = false
    ∧ ∀ q, (s.quire q).owner = some k → (s.quire q).committed.isSome = true → (s.quire q).playsStream = false := by
  simp only [State.mayIdle, Bool.and_eq_true, Bool.not_eq_true', List.any_eq_false, List.mem_finRange, forall_const, State.ptpEn, State.refLane, and_assoc]
  refine and_congr_right' (and_congr_right' (forall_congr' fun q => ?_))
  rw [decide_eq_true_iff]
  exact ⟨fun h ho hc => Bool.eq_false_iff.mpr fun hp => h ⟨ho, hc, hp⟩, fun h ⟨ho, hc, hp⟩ => Bool.eq_false_iff.mp (h ho hc) hp⟩

/-- A read of the chip's SRAM with nothing injected. -/
theorem State.chipSramRead_none {s : State} (h : injecting 0x03 0 s.collector.injections = false) (o : SramRead) :
    s.chipSramRead o = if o.outcome = .uncorrectable then s.report .chip 0x03 none [] 0xFF 0x13 o.entry false else s := by
  have hcheck : s.check 0x03 0 = (false, s) := by rw [State.check, takeInjection_none _ _ _ h]; rfl
  rw [State.chipSramRead, hcheck]
  by_cases ho : o.outcome = .uncorrectable <;> simp only [ho, decide_true, decide_false, Bool.or_true, Bool.or_self, Bool.false_eq_true, if_true, if_false]

end Sys2Proof.Machine

namespace Sys2Proof.Proofs
open Sys2Proof.Machine

/-- Settles O52: each transaction's effect on its rail, the sweeps over the rails and over the quires, and what the setpoints that follow leave. -/
theorem telemetryAndSupplies : Obligations.TelemetryAndSupplies := by
  unfold Obligations.TelemetryAndSupplies
  refine ⟨fun s rails status => ⟨fun h0 => ⟨congrArg Host.Outcome.next (if_pos h0), congrArg Host.Outcome.next (if_pos h0)⟩, fun hstep hlen hover hs => ?_, fun hstep hlen hs => ?_⟩, fun s => ⟨?_, fun hinj o => ?_, fun hauto => ?_, fun hauto => ?_⟩⟩
  · obtain ⟨hsame, hshown, hcycles, hreports, hthere, habsent, hpower, hcap, hcount, hbus, htries, herrors⟩ := State.telemetryCycle_metered hstep hlen hover hs rails
    refine ⟨_, rfl, hsame, fun h => (hshown h).iff, hcycles, hreports, fun i hi => ⟨fun hoff => habsent i fun h => hoff (s.presentRails_mem.mp h).2, fun hon => ?_⟩, hpower, fun h => ?_, fun h => ?_, fun h h' => ?_, hcount, ?_, ?_, ?_⟩
    · refine (hthere i (s.presentRails_mem.mpr ⟨hi, hon⟩)).trans (RailView.read_form (rails.getD i noAnswer) (and_congr_right' (statusBad_iff _)) _)
    · exact hcap.trans (overCapOf_above h _)
    · exact hcap.trans (overCapOf_below h _)
    · exact hcap.trans (overCapOf_between h h' _)
    · simp only [railCodes_eq _ (and_congr_right' (statusBad_iff _))] at hbus
      exact hbus
    · simp only [railTries_eq _ (and_congr_right' (statusBad_iff _))] at htries
      exact htries
    · simp only [railErrors_eq] at herrors
      exact herrors
  · obtain ⟨⟨hquires, hsent⟩, hshown, hcount, hthere, habsent, hbus, hreports, hlogs⟩ := State.pmAlert_alerted hstep hlen hs status
    have hbad : ∀ i, Alarm (status.getD i (4, 0)) ↔ ((status.getD i (4, 0)).1 < 4 ∧ ((status.getD i (4, 0)).2.getLsbD 15 = true ∨ (status.getD i (4, 0)).2.getLsbD 6 = true)) := fun i => and_congr_right' (statusBad_iff _)
    obtain ⟨hreport, hquiet⟩ := flatMap_railReports s.time (fun i => status.getD i (4, 0)) (l := s.presentRails) (List.nodup_range.filter _)
    have hzero : ∀ P : Prop, ((s.rail 0).present = true ∧ P) ↔ (0 ∈ s.presentRails ∧ P) := fun P => and_congr_left' ⟨fun h => s.presentRails_mem.mpr ⟨by decide, h⟩, fun h => (s.presentRails_mem.mp h).2⟩
    refine ⟨_, rfl, State.SameQuires.of_quires hquires hsent, fun h => (hshown h).iff, hcount, fun i hi => ⟨fun hoff => habsent i fun h => hoff (s.presentRails_mem.mp h).2, fun hon h4 => ?_, fun hon h4 => ?_⟩, ?_, fun hon ha => ?_, fun hn => ?_,
      fun i h0 hone hfr hlog htok => ?_⟩
    · exact (hthere i (s.presentRails_mem.mpr ⟨hi, hon⟩)).trans (RailView.alerted_lost _ h4)
    · exact (hthere i (s.presentRails_mem.mpr ⟨hi, hon⟩)).trans (RailView.alerted_shown _ h4 (statusBad_iff _))
    · simp only [statusCodes_eq _ (hbad _)] at hbus
      exact hbus
    · rw [hreport ((hzero _).mp ⟨hon, (hbad 0).mpr ha⟩)] at hreports
      exact ⟨_, hreports, rfl, rfl, rfl⟩
    · rw [hquiet fun h => hn ⟨((hzero _).mpr h).1, (hbad 0).mp h.2⟩, List.append_nil] at hreports
      exact hreports
    · obtain ⟨l1, l2, hl, hn, ha, -⟩ := List.filter_eq_cons_iff.mp hone
      have hdec : ∀ j, ¬(decide ((status.getD j (4, 0)).1 < 4 ∧ ((status.getD j (4, 0)).2.getLsbD 15 = true ∨ (status.getD j (4, 0)).2.getLsbD 6 = true)) = true) → ¬Alarm (status.getD j (4, 0)) := fun j hj h => hj (decide_eq_true ((hbad j).mp h))
      obtain ⟨e, he, hseq, hcode, hdetail⟩ := hlogs i h0 l1 l2 hl (fun j hj => hdec j (hn j hj)) ((hbad i).mpr (of_decide_eq_true ha)) hfr hlog htok
      refine ⟨e, he, hseq, hcode, hdetail.trans ?_⟩
      rw [packW]
      simp only [List.foldl_cons, List.foldl_nil]
      congr 1
      omega
  · obtain ⟨u, hu, hframe, hquires⟩ := s.trims
    have hexec : exec .trimPeriod s = .next u.retarget := by
      rw [← hu]
      rfl
    obtain ⟨hquire, -, hregs⟩ := u.retarget_keeps
    have htargets := State.retarget_targets (s := s) (u := u) (by rw [hframe]) (by rw [hframe])
    generalize u.retarget = t at *
    refine ⟨t, hexec, htargets, fun q => ?_⟩
    obtain ⟨hq, hcount⟩ := hquires q
    rw [← hquire q] at hq
    have hreg : t.reg (rk 5 (0x108 + 0x10 * q.val)) = u.reg (trimKey q) := hregs (trimKey q) (by unfold trimKey rk; omega)
    rw [← hreg] at hcount
    have hcase : ∀ {y n}, (s.quire q).trimmed = y → (s.quire q).trimCount = n → t.quire q = y ∧ Counted n (s.reg (rk 5 (0x108 + 0x10 * q.val))) (t.reg (rk 5 (0x108 + 0x10 * q.val))) := by
      rintro _ _ rfl rfl
      exact ⟨hq, hcount⟩
    refine ⟨fun h => hcase (Quire.trimmed_idle h).1 (Quire.trimmed_idle h).2, fun hrun h => hcase (Quire.trimmed_low hrun h).1 (Quire.trimmed_low hrun h).2,
      fun hrun h h' => hcase (Quire.trimmed_fair hrun h h') (Quire.trimCount_high h), fun hrun h h9 => hcase (Quire.trimmed_high hrun (by omega) h h9) (Quire.trimCount_high (by omega)),
      fun hrun h h9 => hcase (Quire.trimmed_tenth hrun (by omega) h h9) (Quire.trimCount_high (by omega))⟩
  · obtain ⟨u, hu, hframe, hquires⟩ := (s.chipSramRead o).floors
    have hexec : exec (.floorRecompute o) s = .next u.retarget := by
      rw [← hu]
      rfl
    obtain ⟨hquire, hreports, hregs⟩ := u.retarget_keeps
    have hread := s.chipSramRead_none hinj o
    have hsame : (s.chipSramRead o).gov = s.gov ∧ (s.chipSramRead o).boot = s.boot ∧ (s.chipSramRead o).quires = s.quires := by
      rw [hread]
      split <;> exact ⟨rfl, rfl, rfl⟩
    have hureports : u.collector.reports = (s.chipSramRead o).collector.reports := by rw [hframe]
    generalize s.chipSramRead o = v at *
    obtain ⟨hgov, hboot, hvquires⟩ := hsame
    have htargets := State.retarget_targets (s := s) (u := u) (by rw [hframe, hgov]) (by rw [hframe, hboot])
    generalize u.retarget = t at *
    refine ⟨t, hexec, htargets, ⟨fun ho => ?_, fun ho => ?_⟩, fun q => ?_⟩
    · rw [hreports, hureports, hread, if_neg ho]
    · rw [if_pos ho] at hread
      exact ⟨_, hreports.trans (hureports.trans (congrArg (fun v : State => v.collector.reports) hread)), rfl, rfl, rfl, ofInt_natCast _⟩
    · obtain ⟨hq, hclip⟩ := hquires q
      have hvq : v.quire q = s.quire q := by rw [State.quire, hvquires, State.quire]
      have htemp : v.quireTemp q = s.quireTemp q := by rw [State.quireTemp, hgov, State.quireTemp]
      rw [hvq, htemp] at hq hclip
      rw [← hquire q] at hq
      have hfloor : (t.quire q).floorMv = ((s.quire q).floorFor (s.quireTemp q)).1 := by rw [hq]
      rw [← hregs _ (by decide)] at hclip
      refine ⟨by rw [hfloor]; exact hq, fun hoff => ?_, fun hon mv hmv hfits hleast => ?_, fun hon hnone => ?_⟩
      · rw [hfloor, Quire.floorFor, hoff]
        rfl
      · rw [hfloor, Quire.floorFor, if_pos hon, Quire.floorAt_least (temp := s.quireTemp q) hmv ((Quire.fits_iff _ _ _).mpr hfits) fun m hm hlt => Bool.eq_false_iff.mpr fun h => hleast m hm hlt ((Quire.fits_iff _ _ _).mp h)]
      · have hfor : (s.quire q).floorFor (s.quireTemp q) = (1050, true) := by
          rw [Quire.floorFor, if_pos hon]
          exact Quire.floorAt_none fun m hm => Bool.eq_false_iff.mpr fun h => hnone m hm ((Quire.fits_iff _ _ _).mp h)
        rw [hfor] at hfloor hclip
        exact ⟨hfloor, hclip rfl⟩
  · exact congrArg Host.Outcome.next (if_neg (by rw [State.eiAuto, hauto]; exact Bool.false_ne_true))
  · obtain ⟨t, ht, hframe, hregs, hin, -⟩ := s.eiLinks (List.finRange 8) (List.nodup_finRange 8)
    refine ⟨t, congrArg Host.Outcome.next ((if_pos hauto).trans ht), hframe, hregs, fun k => ?_⟩
    have hkey := hin k (List.mem_finRange k)
    refine ⟨?_, fun i hi => ?_⟩
    · have hbit : bit (t.reg (eiKey k)) 31 = s.mayIdle k := by rw [hkey, bit_putBit_same _ _ (by decide)]
      exact (by rw [← hbit]; rfl : bit (t.reg (rk 4 (0x108 + 0x40 * k.val))) 31 = true ↔ s.mayIdle k = true).trans (s.mayIdle_iff k)
    · exact (congrArg (fun w => bit w i) hkey).trans (bit_putBit_other _ _ hi)

end Sys2Proof.Proofs

end
